-- ==== Sys2Proof/Word.lean ====
section
/-! DEFINITION. The word types of the Ebyen and the one sparse map type that memory and every large store of the
machine use: a list of (key, value) pairs, keys strictly rising, no pair holding the default value. -/

namespace Sys2Proof

/-- A 64-bit scalar (R12). -/
abbrev Word := BitVec 64

/-- A byte (R3). -/
abbrev Byte := BitVec 8

/-- A 1024-bit vector or queue entry (R3, R86). -/
abbrev Row := BitVec 1024

/-- A virtual address of the next-address chain: 52 bits (R7, R50). -/
abbrev VAddr := BitVec 52

/-- Sparse data by key, in the one canonical form of Machine/Store.lean. -/
abbrev KMap (α : Type) := List (Nat × α)

/-- A sparse map of bit vectors whose default is zero. -/
abbrev SMap (w : Nat) := KMap (BitVec w)

/-- A physical memory: bytes by physical address (R212). -/
abbrev Memory := List (Nat × BitVec 8)

end Sys2Proof
end

