-- ==== Sys2Proof/Machine/Store.lean ====
section
/-! DEFINITION. Reading and writing the sparse maps: keys strictly rising, no pair holding the default. Every store of
the machine, memory included, goes through these operations. -/

namespace Sys2Proof.Machine

/-- The value at a key; `d` where the map lists none. -/
def mget {α : Type} (d : α) : KMap α → Nat → α
  | [], _ => d
  | (k', x) :: r, k => if k' = k then x else if k < k' then d else mget d r k

/-- Remove a key. -/
def mdel {α : Type} : KMap α → Nat → KMap α
  | [], _ => []
  | (k', x) :: r, k => if k' = k then r else if k < k' then (k', x) :: r else (k', x) :: mdel r k

/-- Insert or replace the pair of a key, in order. -/
def mput {α : Type} : KMap α → Nat → α → KMap α
  | [], k, v => [(k, v)]
  | (k', x) :: r, k, v =>
    if k' = k then (k, v) :: r else if k < k' then (k, v) :: (k', x) :: r else (k', x) :: mput r k v

/-- Write a key, keeping the canonical form: writing the default removes the pair. -/
def mset {α : Type} [DecidableEq α] (d : α) (m : KMap α) (k : Nat) (v : α) : KMap α :=
  if v = d then mdel m k else mput m k v

/-- The optional value of a key. -/
def mfind {α : Type} : KMap α → Nat → Option α
  | [], _ => none
  | (k', x) :: r, k => if k' = k then some x else if k < k' then none else mfind r k

/-- The zero-default maps of bit vectors. -/
def sget {w : Nat} (m : SMap w) (k : Nat) : BitVec w := mget 0 m k

def sset {w : Nat} (m : SMap w) (k : Nat) (v : BitVec w) : SMap w := mset 0 m k v

/-- Bytes from an address on, lowest first. -/
def readBytes (m : Memory) (a : Nat) : Nat → List Byte
  | 0 => []
  | n + 1 => sget m a :: readBytes m (a + 1) n

/-- Write bytes from an address on. -/
def writeBytes (m : Memory) (a : Nat) : List Byte → Memory
  | [] => m
  | b :: r => writeBytes (sset m a b) (a + 1) r

/-- The number bytes stand for, little-endian (R3). -/
def leNat : List Byte → Nat
  | [] => 0
  | b :: r => b.toNat + 256 * leNat r

/-- The bytes of a number, little-endian (R3). -/
def leBytes : Nat → Nat → List Byte
  | 0, _ => []
  | n + 1, x => BitVec.ofNat 8 (x % 256) :: leBytes n (x / 256)

/-- The canonical form of a map with default `d`. -/
def mwf {α : Type} [DecidableEq α] (d : α) : KMap α → Bool
  | [] => true
  | [(_, x)] => decide (x ≠ d)
  | (k, x) :: (k', x') :: r => decide (x ≠ d) && decide (k < k') && mwf d ((k', x') :: r)

/-- The canonical form of memory: what R212's stores keep. -/
def memWf (m : Memory) : Bool := mwf 0 m

/-- Remove the pairs whose keys fall in an interval. -/
def mclear {α : Type} (m : KMap α) (lo n : Nat) : KMap α :=
  m.filter (fun p => decide (p.1 < lo) || decide (lo + n ≤ p.1))

/-- The pairs of a list of values from a key on. -/
def keyed {w : Nat} : Nat → List (BitVec w) → SMap w
  | _, [] => []
  | k, x :: r => if x = 0 then keyed (k + 1) r else (k, x) :: keyed (k + 1) r

/-- Write values under consecutive keys. -/
def mreplace {w : Nat} (m : SMap w) (lo : Nat) (xs : List (BitVec w)) : SMap w :=
  m.filter (fun p => decide (p.1 < lo)) ++ keyed lo xs ++ m.filter (fun p => decide (lo + xs.length ≤ p.1))

/-- The values of `n` consecutive keys from `lo` on, of a map that lists no lower key. -/
def mspread {w : Nat} : Nat → Nat → SMap w → List (BitVec w)
  | 0, _, _ => []
  | n + 1, lo, [] => 0 :: mspread n (lo + 1) []
  | n + 1, lo, (k, x) :: r => if k = lo then x :: mspread n (lo + 1) r else 0 :: mspread n (lo + 1) ((k, x) :: r)

def mrange {w : Nat} (m : SMap w) (lo n : Nat) : List (BitVec w) :=
  mspread n lo (m.filter (fun p => decide (lo ≤ p.1) && decide (p.1 < lo + n)))

/-- Bits [lo + n - 1 : lo] of a number. -/
def bits (x lo n : Nat) : Nat := x / 2 ^ lo % 2 ^ n

/-- Bit `k` of a number. -/
def bit (x k : Nat) : Bool := x.testBit k

/-- The first element of a list that satisfies a test. -/
def findFirst {α : Type} (f : α → Bool) : List α → Option α
  | [] => none
  | x :: r => if f x then some x else findFirst f r

/-- Sign-extend an `n`-bit number to an integer. -/
def sextInt (n x : Nat) : Int := if x % 2 ^ n < 2 ^ (n - 1) then (x % 2 ^ n : Nat) else ((x % 2 ^ n : Nat) : Int) - (2 ^ n : Nat)

end Sys2Proof.Machine
end

