-- ==== Sys2Proof/Machine/Float.lean ====
section
/-! DEFINITION. Exact arithmetic and its one rounding: the floating-point formats (R104, R105), the operations of R111, the
conversions of R112, the 4-bit blocks (R107 to R109). A number is exact: a sign, a natural significand, a power of two. -/

namespace Sys2Proof.Machine

/-! ### Formats (Table 7.2) -/

/-- A binary format: exponent and fraction widths, bias; `sat` marks E4M3, which has no infinity. -/
structure Fmt where
  ew : Nat
  fw : Nat
  bias : Nat
  sat : Bool
  deriving DecidableEq, Repr

def fp32 : Fmt := ⟨8, 23, 127, false⟩
def fp24 : Fmt := ⟨8, 15, 127, false⟩
def fp16 : Fmt := ⟨5, 10, 15, false⟩
def bf16 : Fmt := ⟨8, 7, 127, false⟩
def e5m2 : Fmt := ⟨5, 2, 15, false⟩
def e4m3 : Fmt := ⟨4, 3, 7, true⟩

/-- An exact value: (−1)^neg × m × 2^e; zero keeps its sign. -/
inductive Num where
  | nan (signalling : Bool)
  | inf (neg : Bool)
  | fin (neg : Bool) (m : Nat) (e : Int)
  deriving DecidableEq, Repr

/-- The five flags of a lane: bit 4 NV, 3 DZ, 2 OF, 1 UF, 0 NX (R58). -/
abbrev Flags := BitVec 5

def flagNV : Flags := 16
def flagOF : Flags := 4
def flagUF : Flags := 2
def flagNX : Flags := 1

def flagIf (b : Bool) (f : Flags) : Flags := if b then f else 0

/-- Decode bits of a format (R104). -/
def decodeNum (f : Fmt) (x : Nat) : Num :=
  let neg := bit x (f.ew + f.fw)
  let e := bits x f.fw f.ew
  let q := bits x 0 f.fw
  let top := 2 ^ f.ew - 1
  if e = 0 then .fin neg q (1 - (f.bias : Int) - f.fw)
  else if e = top ∧ f.sat = false then
    if q = 0 then .inf neg else .nan (!bit q (f.fw - 1))
  else if e = top ∧ q = 2 ^ f.fw - 1 then .nan false
  else .fin neg (2 ^ f.fw + q) ((e : Int) - f.bias - f.fw)

/-- The default NaN (R105). -/
def defaultNaN (f : Fmt) : Nat := if f.sat then 0x7F else (2 ^ f.ew - 1) * 2 ^ f.fw + 2 ^ (f.fw - 1)

def signBit (f : Fmt) (neg : Bool) : Nat := if neg then 2 ^ (f.ew + f.fw) else 0

/-- Largest finite magnitude. -/
def maxFinite (f : Fmt) : Nat := if f.sat then 0x7E else (2 ^ f.ew - 1) * 2 ^ f.fw - 1

def infBits (f : Fmt) : Nat := (2 ^ f.ew - 1) * 2 ^ f.fw

/-! ### Rounding (R110, R111) -/

/-- A rounding mode: 0 RNE, 1 RTZ, 2 RUP, 3 RDN. -/
abbrev Mode := Nat

/-- Divide by 2^k and round to an integer; whether it was inexact. -/
def roundShift (mode : Mode) (neg : Bool) (m k : Nat) : Nat × Bool :=
  let q := m / 2 ^ k
  let r := m % 2 ^ k
  let up : Bool :=
    match mode with
    | 0 => decide (2 ^ k < 2 * r) || (decide (2 * r = 2 ^ k) && decide (q % 2 = 1))
    | 1 => false
    | 2 => decide (r ≠ 0) && !neg
    | _ => decide (r ≠ 0) && neg
  (if up then q + 1 else q, decide (r ≠ 0))

/-- Round m × 2^e to a multiple of 2^u. -/
def roundTo (mode : Mode) (neg : Bool) (m : Nat) (e u : Int) : Nat × Bool :=
  if e < u then roundShift mode neg m (u - e).toNat else (m * 2 ^ (e - u).toNat, false)

/-- An overflow (R111 items 4 and 5). -/
def overflowBits (f : Fmt) (mode : Mode) (neg : Bool) : Nat :=
  if f.sat then maxFinite f
  else
    match mode with
    | 0 => infBits f
    | 1 => maxFinite f
    | 2 => if neg then maxFinite f else infBits f
    | _ => if neg then infBits f else maxFinite f

/-- Magnitude bits of M × 2^u, where M ≤ 2^(fw+1): fields wide enough to show an overflow. -/
def packMag (f : Fmt) (M : Nat) (u : Int) : Nat :=
  if M < 2 ^ f.fw then M
  else if M = 2 ^ (f.fw + 1) then (u + 1 + f.fw + f.bias).toNat * 2 ^ f.fw
  else (u + f.fw + f.bias).toNat * 2 ^ f.fw + (M - 2 ^ f.fw)

/-- Round an exact finite value once, with the flags of the rounding (R111 items 3 to 5). -/
def roundFin (f : Fmt) (mode : Mode) (neg : Bool) (m : Nat) (e : Int) : Nat × Flags :=
  if m = 0 then (signBit f neg, 0)
  else
    let top : Int := (Nat.log2 m : Int) + e
    let emin : Int := 1 - (f.bias : Int)
    let u := max (top - f.fw) (emin - f.fw)
    let r := roundTo mode neg m e u
    let mag := packMag f r.1 u
    let wide := roundTo mode neg m e (top - f.fw)
    let tiny := decide (top < emin) && !(decide (top + 1 = emin) && decide (wide.1 = 2 ^ (f.fw + 1)))
    if maxFinite f < mag then (signBit f neg + overflowBits f mode neg, flagOF ||| flagNX)
    else (signBit f neg + mag, flagIf r.2 flagNX ||| flagIf (r.2 && tiny) flagUF)

/-- Round any exact value. E4M3 saturates an infinity and raises NV (R111 item 5). -/
def roundNum (f : Fmt) (mode : Mode) : Num → Nat × Flags
  | .nan _ => (defaultNaN f, 0)
  | .inf neg => if f.sat then (signBit f neg + maxFinite f, flagNV) else (signBit f neg + infBits f, 0)
  | .fin neg m e => roundFin f mode neg m e

/-! ### Exact operations (R111) -/

def isSnan : Num → Bool
  | .nan s => s
  | _ => false

def isNan : Num → Bool
  | .nan _ => true
  | _ => false

def isInfNum : Num → Bool
  | .inf _ => true
  | _ => false

def isZeroNum : Num → Bool
  | .fin _ m _ => decide (m = 0)
  | _ => false

def signOf : Num → Bool
  | .nan _ => false
  | .inf n => n
  | .fin n _ _ => n

def negNum : Num → Num
  | .nan s => .nan s
  | .inf n => .inf (!n)
  | .fin n m e => .fin (!n) m e

def absNum : Num → Num
  | .nan s => .nan s
  | .inf _ => .inf false
  | .fin _ m e => .fin false m e

/-- A significand at exponent `u`, signed. -/
def atExp (neg : Bool) (m : Nat) (e u : Int) : Int :=
  let x : Int := ((m * 2 ^ (e - u).toNat : Nat) : Int)
  if neg then -x else x

/-- The exact sum of finite values; a zero sum of opposite signs is +0, or −0 when `rdn` (R111 item 6). -/
def addFin (rdn : Bool) (n1 : Bool) (m1 : Nat) (e1 : Int) (n2 : Bool) (m2 : Nat) (e2 : Int) : Num :=
  let u := min e1 e2
  let x := atExp n1 m1 e1 u + atExp n2 m2 e2 u
  if x = 0 then .fin (if n1 = n2 then n1 else rdn) 0 0 else .fin (decide (x < 0)) x.natAbs u

/-- Sum, and whether it is invalid. -/
def addNum (rdn : Bool) : Num → Num → Num × Bool
  | .nan s, y => (.nan false, s || isSnan y)
  | x, .nan s => (.nan false, s || isSnan x)
  | .inf a, .inf b => if a = b then (.inf a, false) else (.nan false, true)
  | .inf a, .fin _ _ _ => (.inf a, false)
  | .fin _ _ _, .inf b => (.inf b, false)
  | .fin n1 m1 e1, .fin n2 m2 e2 => (addFin rdn n1 m1 e1 n2 m2 e2, false)

/-- Product, and whether it is invalid. -/
def mulNum : Num → Num → Num × Bool
  | .nan s, y => (.nan false, s || isSnan y)
  | x, .nan s => (.nan false, s || isSnan x)
  | .inf a, y => if isZeroNum y then (.nan false, true) else (.inf (a ^^ signOf y), false)
  | x, .inf b => if isZeroNum x then (.nan false, true) else (.inf (signOf x ^^ b), false)
  | .fin n1 m1 e1, .fin n2 m2 e2 => (.fin (n1 ^^ n2) (m1 * m2) (e1 + e2), false)

/-- Zero times an infinity is invalid whatever is added (R111 item 2). -/
def zeroTimesInf (x y : Num) : Bool := (isZeroNum x && isInfNum y) || (isInfNum x && isZeroNum y)

def fmaNum (rdn : Bool) (x y z : Num) : Num × Bool :=
  let p := mulNum x y
  let r := addNum rdn p.1 z
  (r.1, p.2 || r.2 || zeroTimesInf x y)

/-- A rounded result with its flags. -/
def finishNum (f : Fmt) (mode : Mode) (r : Num × Bool) : Nat × Flags :=
  let q := roundNum f mode r.1
  (q.1, q.2 ||| flagIf r.2 flagNV)

def fAdd (f : Fmt) (mode : Mode) (x y : Nat) : Nat × Flags :=
  finishNum f mode (addNum (decide (mode = 3)) (decodeNum f x) (decodeNum f y))

/-- x − y in one rounding; −0 less +0 is −0, IEEE 754's difference (DEDUCED, log entry 95). -/
def fSub (f : Fmt) (mode : Mode) (x y : Nat) : Nat × Flags :=
  finishNum f mode (addNum (decide (mode = 3)) (decodeNum f x) (negNum (decodeNum f y)))

def fMul (f : Fmt) (mode : Mode) (x y : Nat) : Nat × Flags :=
  finishNum f mode (mulNum (decodeNum f x) (decodeNum f y))

/-- a × b + c in one rounding. -/
def fFma (f : Fmt) (mode : Mode) (x y z : Nat) : Nat × Flags :=
  finishNum f mode (fmaNum (decide (mode = 3)) (decodeNum f x) (decodeNum f y) (decodeNum f z))

/-- An exact zero takes the sign of the mode: +0, under RDN −0 (R111 item 6). -/
def plainZero (rdn : Bool) : Num → Num
  | .fin n m e => if m = 0 then .fin rdn 0 e else .fin n m e
  | x => x

/-- a × b − c in one rounding; an exact zero is +0 in every mode but RDN (R133). -/
def fFms (f : Fmt) (mode : Mode) (x y z : Nat) : Nat × Flags :=
  let rdn := decide (mode = 3)
  let r := fmaNum rdn (decodeNum f x) (decodeNum f y) (negNum (decodeNum f z))
  finishNum f mode (plainZero rdn r.1, r.2)

/-! ### Comparison (R111 items 7 and 8) -/

/-- x < y for numbers, −0 equal to +0. -/
def ltNum : Num → Num → Bool
  | .inf true, y => decide (y ≠ .inf true) && !isNan y
  | .inf false, _ => false
  | .fin _ _ _, .inf n => !n
  | .fin n1 m1 e1, .fin n2 m2 e2 => decide (atExp n1 m1 e1 (min e1 e2) < atExp n2 m2 e2 (min e1 e2))
  | _, _ => false

def eqNum : Num → Num → Bool
  | .inf a, .inf b => decide (a = b)
  | .fin n1 m1 e1, .fin n2 m2 e2 => decide (atExp n1 m1 e1 (min e1 e2) = atExp n2 m2 e2 (min e1 e2))
  | _, _ => false

/-- x below y with −0 below +0 (R111 item 7). -/
def belowNum (x y : Num) : Bool := ltNum x y || (isZeroNum x && isZeroNum y && signOf x && !signOf y)

/-- VMIN and VMAX: the bits of an operand, or the default NaN. -/
def fMinMax (f : Fmt) (takeMax : Bool) (x y : Nat) : Nat × Flags :=
  let a := decodeNum f x
  let b := decodeNum f y
  let nv := flagIf (isSnan a || isSnan b) flagNV
  let r :=
    if isNan a && isNan b then defaultNaN f
    else if isNan a then y
    else if isNan b then x
    else if belowNum a b then (if takeMax then y else x) else (if takeMax then x else y)
  (r, nv)

def fEq (f : Fmt) (x y : Nat) : Bool × Flags :=
  let a := decodeNum f x
  let b := decodeNum f y
  (eqNum a b, flagIf (isSnan a || isSnan b) flagNV)

def fLt (f : Fmt) (x y : Nat) : Bool × Flags :=
  let a := decodeNum f x
  let b := decodeNum f y
  (ltNum a b, flagIf (isNan a || isNan b) flagNV)

def fLe (f : Fmt) (x y : Nat) : Bool × Flags :=
  let a := decodeNum f x
  let b := decodeNum f y
  (ltNum a b || eqNum a b, flagIf (isNan a || isNan b) flagNV)

def fAbs (f : Fmt) (x : Nat) : Nat := x % 2 ^ (f.ew + f.fw)

def fNeg (f : Fmt) (x : Nat) : Nat := if bit x (f.ew + f.fw) then fAbs f x else x % 2 ^ (f.ew + f.fw) + 2 ^ (f.ew + f.fw)

/-! ### Conversions (R112) -/

/-- Between floating-point formats. -/
def fConvert (src dst : Fmt) (mode : Mode) (x : Nat) : Nat × Flags :=
  let a := decodeNum src x
  let r := roundNum dst mode a
  (r.1, r.2 ||| flagIf (isSnan a) flagNV)

/-- FP32 to INT32: rounded in the mode, then judged against the range. -/
def fToInt (mode : Mode) (x : Nat) : Nat × Flags :=
  match decodeNum fp32 x with
  | .nan _ => (0, flagNV)
  | .inf neg => (if neg then 2 ^ 31 else 2 ^ 31 - 1, flagNV)
  | .fin neg m e =>
    let r := roundTo mode neg m e 0
    if neg then
      if 2 ^ 31 < r.1 then (2 ^ 31, flagNV) else ((2 ^ 32 - r.1) % 2 ^ 32, flagIf r.2 flagNX)
    else if 2 ^ 31 - 1 < r.1 then (2 ^ 31 - 1, flagNV) else (r.1, flagIf r.2 flagNX)

/-- INT32 to FP32. -/
def intToF (mode : Mode) (x : Nat) : Nat × Flags :=
  let v := sextInt 32 x
  roundFin fp32 mode (decide (v < 0)) v.natAbs 0

/-- A quotient of an exact value by a whole number, with a sticky bit that lets one rounding decide (R279). -/
def divNum (x : Num) (n : Nat) : Num :=
  match x with
  | .fin neg m e =>
    let k := 64 + Nat.log2 n
    let q := m * 2 ^ k / n
    .fin neg (2 * q + if m * 2 ^ k % n = 0 then 0 else 1) (e - k - 1)
  | y => y

/-! ### 4-bit blocks (R107 to R109) -/

/-- Eight times the magnitude D of index `i` in types 1 to 3 (Table 7.3). -/
def blockMag (t i : Nat) : Nat :=
  match t with
  | 1 => [0, 4, 8, 12, 16, 24, 32, 48].getD i 0
  | 2 => [0, 1, 2, 4, 8, 16, 32, 64].getD i 0
  | _ => [0, 8, 16, 24, 32, 48, 64, 96].getD i 0

/-- Eight times D of a code. -/
def blockD (t c : Nat) : Int :=
  if t = 0 then 8 * sextInt 4 c
  else if bit c 3 then -((blockMag t (c % 8) : Nat) : Int)
  else ((blockMag t (c % 8) : Nat) : Int)

/-- The exact value of a code: scale × (D − Z/4) (R108). -/
def blockNum (sb z c : Nat) : Num :=
  let x := blockD (sb / 64 % 4) c - 2 * sextInt 8 z
  .fin (decide (x < 0)) x.natAbs ((sb % 64 : Nat) - 32 - 3)

/-- The exact value of a code as FP32, with no rounding. -/
def blockDecode (sb z c : Nat) : Nat := (roundNum fp32 0 (blockNum sb z c)).1

/-- The magnitude index nearest to x / 2^t eighths, a tie to the even index. -/
def nearestIndex (ty x t : Nat) : Nat :=
  (List.range 8).foldl (fun best i =>
    let d (j : Nat) : Nat := let y := blockMag ty j * 2 ^ t; if x < y then y - x else x - y
    if d i < d best ∨ (d i = d best ∧ i % 2 = 0 ∧ best % 2 = 1) then i else best) 0

/-- Encode q = (−1)^neg × x / 2^t eighths in types 1 to 3. -/
def encodeSigned (ty : Nat) (neg : Bool) (x t : Nat) : Nat × Flags :=
  let i := nearestIndex ty x t
  let y := blockMag ty i * 2 ^ t
  if blockMag ty 7 * 2 ^ t < x then (7 + (if neg then 8 else 0), flagOF ||| flagNX)
  else (if i = 0 then 0 else i + (if neg then 8 else 0), flagIf (decide (x ≠ y)) flagNX)

/-- Encode q = (−1)^neg × x / 2^t eighths as a 4-bit integer. -/
def encodeInt (neg : Bool) (x t : Nat) : Nat × Flags :=
  let r := roundShift 0 neg x (t + 3)
  if (!neg && decide (7 * 2 ^ (t + 3) < x)) then (7, flagOF ||| flagNX)
  else if (neg && decide (8 * 2 ^ (t + 3) < x)) then (8, flagOF ||| flagNX)
  else ((if neg then (16 - r.1) % 16 else r.1), flagIf r.2 flagNX)

/-- Encode an FP32 value into a block of scale byte `sb` and zero point `z` (R109). -/
def blockEncode (sb z v : Nat) : Nat × Flags :=
  let ty := sb / 64 % 4
  let low := if ty = 0 then 8 else 15
  match decodeNum fp32 v with
  | .nan _ => (0, flagNV)
  | .inf neg => (if neg then low else 7, flagNV)
  | .fin n m e =>
    let zp := sextInt 8 z
    match addFin false n m (e + 32 - (sb % 64 : Nat)) (decide (zp < 0)) zp.natAbs (-2) with
    | .fin neg qm qe =>
      let t := (-(qe + 3)).toNat
      let x := qm * 2 ^ (qe + 3 + t).toNat
      if ty = 0 then encodeInt neg x t else encodeSigned ty neg x t
    | _ => (0, 0)

/-- One level of the tree: neighbours combine where both are live, a single live one passes up unchanged (R115), be it a NaN, which
then keeps its payload (DESIGN CHOICE, log entry 114). -/
def reducePairs (op : Nat → Nat → Nat × Flags) : List (Option Nat) → List (Option Nat) × Flags
  | x :: y :: r =>
    let rest := reducePairs op r
    match x, y with
    | some p, some q => let z := op p q; (some z.1 :: rest.1, z.2 ||| rest.2)
    | some p, none => (some p :: rest.1, rest.2)
    | none, q => (q :: rest.1, rest.2)
  | r => (r, 0)

def reduceTree (op : Nat → Nat → Nat × Flags) : Nat → List (Option Nat) × Flags → Option Nat × Flags
  | 0, (xs, fl) => (xs.headD none, fl)
  | n + 1, (xs, fl) => let r := reducePairs op xs; reduceTree op n (r.1, r.2 ||| fl)

end Sys2Proof.Machine
end

