-- ==== Sys2Proof/Syntax.lean ====
section
/-! DEFINITION. The abstract syntax: one constructor per row of spec/opcode_table.json. A word constructor takes the
fields of its row from the highest bit down, each a bit vector of the field's width (`sb` is the S bit of R31). The rows
without an encoding are the events of the machine; their constructors take what tells one occurrence from another. -/

namespace Sys2Proof

/-- The four voices of a thread, in the order in which ties are settled (R12, R25). -/
inductive VoiceId where
  | A
  | X0
  | X1
  | C
  deriving DecidableEq, Repr

/-- The number of a voice in the fields of words and in records (R33). -/
def VoiceId.num : VoiceId → Nat
  | .A => 0
  | .X0 => 1
  | .X1 => 2
  | .C => 3

/-- The voice a two-bit field names (R33). -/
def voiceOf (n : Nat) : VoiceId :=
  match n with
  | 0 => .A
  | 1 => .X0
  | 2 => .X1
  | _ => .C

/-- The X voices, which alone hold vectors, masks and VFLAGS (R12). -/
def VoiceId.isX : VoiceId → Bool
  | .X0 => true
  | .X1 => true
  | _ => false

/-- What the host gives a context when it creates it: number, identifier, page-table root and mode (R213, R187), trap handler
and trap-record area (R29, R74), cluster set, scope groups (R239), publish map as entry, base, length in 2 MiB units,
halves 0 and 1 and whether half 1 is the front (R227), graph templates as number, base and node count (R197), pipelines as
number, nodes, queue depths, overflow address, overflow items and close bit (R201), limits in cycles (R206, R207, R289),
fabric job, and base and size of the submission, completion and fault queues (R246). -/
structure ContextDesc where
  number : Nat
  asid : Nat
  root : Nat
  smode : Bool
  handler : Option Word
  trapArea : Option Word
  clusters : BitVec 24
  scopes : List (Nat × BitVec 192)
  pubmap : List (Nat × Nat × Nat × Nat × Nat × Bool)
  graphs : List (Nat × Nat × Nat)
  pipes : List (Nat × List Word × List Nat × Nat × Nat × Nat)
  slice : Nat
  drainLimit : Nat
  freezeLimit : Nat
  exclusive : Bool
  owner : Nat
  job : Option Nat
  sq : Nat × Nat
  cq : Nat × Nat
  fq : Nat × Nat
  deriving DecidableEq, Repr

/-- The instructions: 209 words and 105 events. -/
inductive Instr where
  /-- LUI (R50): Writes the sign-extended upper immediate to hid(d). -/
  | lui (sb : BitVec 1) (d : BitVec 5) (imm : BitVec 20)
  /-- LAPC (R50): Writes the word's own address plus the upper immediate to hid(d). -/
  | lapc (sb : BitVec 1) (d : BitVec 5) (imm : BitVec 20)
  /-- ADDI (R52): Adds a sign-extended 12-bit immediate to vis(a) into hid(d). -/
  | addi (sb : BitVec 1) (p : BitVec 3) (d : BitVec 5) (a : BitVec 5) (imm : BitVec 12)
  /-- ANDI (R52): ANDs vis(a) with a sign-extended immediate. -/
  | andi (sb : BitVec 1) (p : BitVec 3) (d : BitVec 5) (a : BitVec 5) (imm : BitVec 12)
  /-- ORI (R52): ORs vis(a) with a sign-extended immediate. -/
  | ori (sb : BitVec 1) (p : BitVec 3) (d : BitVec 5) (a : BitVec 5) (imm : BitVec 12)
  /-- XORI (R52): XORs vis(a) with a sign-extended immediate. -/
  | xori (sb : BitVec 1) (p : BitVec 3) (d : BitVec 5) (a : BitVec 5) (imm : BitVec 12)
  /-- SHLI (R53): Shifts vis(a) left by an immediate amount. -/
  | shli (sb : BitVec 1) (p : BitVec 3) (d : BitVec 5) (a : BitVec 5) (n : BitVec 6)
  /-- SHRI (R53): Shifts vis(a) right logically by an immediate amount. -/
  | shri (sb : BitVec 1) (p : BitVec 3) (d : BitVec 5) (a : BitVec 5) (n : BitVec 6)
  /-- SRAI (R53): Shifts vis(a) right arithmetically by an immediate amount. -/
  | srai (sb : BitVec 1) (p : BitVec 3) (d : BitVec 5) (a : BitVec 5) (n : BitVec 6)
  /-- ROLI (R53): Rotates vis(a) left by an immediate amount. -/
  | roli (sb : BitVec 1) (p : BitVec 3) (d : BitVec 5) (a : BitVec 5) (n : BitVec 6)
  /-- CMPEQI (R54): Writes to a predicate whether vis(a) equals a 10-bit immediate. -/
  | cmpeqi (sb : BitVec 1) (p : BitVec 3) (d : BitVec 3) (a : BitVec 5) (imm : BitVec 10)
  /-- CMPLTI (R54): Writes to a predicate whether vis(a) is signed-less than an immediate. -/
  | cmplti (sb : BitVec 1) (p : BitVec 3) (d : BitVec 3) (a : BitVec 5) (imm : BitVec 10)
  /-- CMPLTNI (R54): Writes to a predicate whether vis(a) is unsigned-less than an immediate. -/
  | cmpltni (sb : BitVec 1) (p : BitVec 3) (d : BitVec 3) (a : BitVec 5) (imm : BitVec 10)
  /-- ADD (R55): Adds two scalars. -/
  | add (sb : BitVec 1) (p : BitVec 3) (d : BitVec 5) (a : BitVec 5) (b : BitVec 5)
  /-- SUB (R55): Subtracts two scalars. -/
  | sub (sb : BitVec 1) (p : BitVec 3) (d : BitVec 5) (a : BitVec 5) (b : BitVec 5)
  /-- AND (R55): Bitwise AND of two scalars. -/
  | and (sb : BitVec 1) (p : BitVec 3) (d : BitVec 5) (a : BitVec 5) (b : BitVec 5)
  /-- OR (R55): Bitwise OR of two scalars. -/
  | or (sb : BitVec 1) (p : BitVec 3) (d : BitVec 5) (a : BitVec 5) (b : BitVec 5)
  /-- XOR (R55): Bitwise XOR of two scalars. -/
  | xor (sb : BitVec 1) (p : BitVec 3) (d : BitVec 5) (a : BitVec 5) (b : BitVec 5)
  /-- ANDN (R55): a AND NOT b. -/
  | andn (sb : BitVec 1) (p : BitVec 3) (d : BitVec 5) (a : BitVec 5) (b : BitVec 5)
  /-- SHL (R55): Shifts left by a register amount. -/
  | shl (sb : BitVec 1) (p : BitVec 3) (d : BitVec 5) (a : BitVec 5) (b : BitVec 5)
  /-- SHR (R55): Logical right shift by a register amount. -/
  | shr (sb : BitVec 1) (p : BitVec 3) (d : BitVec 5) (a : BitVec 5) (b : BitVec 5)
  /-- SRA (R55): Arithmetic right shift by a register amount. -/
  | sra (sb : BitVec 1) (p : BitVec 3) (d : BitVec 5) (a : BitVec 5) (b : BitVec 5)
  /-- ROL (R55): Rotates left by a register amount. -/
  | rol (sb : BitVec 1) (p : BitVec 3) (d : BitVec 5) (a : BitVec 5) (b : BitVec 5)
  /-- MIN (R55): Signed minimum. -/
  | min (sb : BitVec 1) (p : BitVec 3) (d : BitVec 5) (a : BitVec 5) (b : BitVec 5)
  /-- MAX (R55): Signed maximum. -/
  | max (sb : BitVec 1) (p : BitVec 3) (d : BitVec 5) (a : BitVec 5) (b : BitVec 5)
  /-- MINN (R55): Unsigned minimum. -/
  | minn (sb : BitVec 1) (p : BitVec 3) (d : BitVec 5) (a : BitVec 5) (b : BitVec 5)
  /-- MAXN (R55): Unsigned maximum. -/
  | maxn (sb : BitVec 1) (p : BitVec 3) (d : BitVec 5) (a : BitVec 5) (b : BitVec 5)
  /-- MUL (R55): Low 64 bits of the product, latency 3. -/
  | mul (sb : BitVec 1) (p : BitVec 3) (d : BitVec 5) (a : BitVec 5) (b : BitVec 5)
  /-- MULH (R55): High 64 bits of the signed product. -/
  | mulh (sb : BitVec 1) (p : BitVec 3) (d : BitVec 5) (a : BitVec 5) (b : BitVec 5)
  /-- MULHN (R55): High 64 bits of the unsigned product. -/
  | mulhn (sb : BitVec 1) (p : BitVec 3) (d : BitVec 5) (a : BitVec 5) (b : BitVec 5)
  /-- CLZ (R55): Counts leading zero bits. -/
  | clz (sb : BitVec 1) (p : BitVec 3) (d : BitVec 5) (a : BitVec 5)
  /-- POPC (R55): Counts one bits. -/
  | popc (sb : BitVec 1) (p : BitVec 3) (d : BitVec 5) (a : BitVec 5)
  /-- SEXT (R55): Sign-extends the low 8, 16 or 32 bits. -/
  | sext (sb : BitVec 1) (p : BitVec 3) (d : BitVec 5) (a : BitVec 5) (w : BitVec 2)
  /-- ZEXT (R55): Zero-extends the low 8, 16 or 32 bits. -/
  | zext (sb : BitVec 1) (p : BitVec 3) (d : BitVec 5) (a : BitVec 5) (w : BitVec 2)
  /-- SEL (R55): Selects vis(a) or vis(b) by a predicate; always writes. -/
  | sel (sb : BitVec 1) (k : BitVec 3) (d : BitVec 5) (a : BitVec 5) (b : BitVec 5)
  /-- CMPEQ (R56): Predicate of scalar equality. -/
  | cmpeq (sb : BitVec 1) (p : BitVec 3) (d : BitVec 3) (a : BitVec 5) (b : BitVec 5)
  /-- CMPNE (R56): Predicate of scalar inequality. -/
  | cmpne (sb : BitVec 1) (p : BitVec 3) (d : BitVec 3) (a : BitVec 5) (b : BitVec 5)
  /-- CMPLT (R56): Predicate of signed less-than. -/
  | cmplt (sb : BitVec 1) (p : BitVec 3) (d : BitVec 3) (a : BitVec 5) (b : BitVec 5)
  /-- CMPLE (R56): Predicate of signed less-or-equal. -/
  | cmple (sb : BitVec 1) (p : BitVec 3) (d : BitVec 3) (a : BitVec 5) (b : BitVec 5)
  /-- CMPLTN (R56): Predicate of unsigned less-than. -/
  | cmpltn (sb : BitVec 1) (p : BitVec 3) (d : BitVec 3) (a : BitVec 5) (b : BitVec 5)
  /-- CMPLEN (R56): Predicate of unsigned less-or-equal. -/
  | cmplen (sb : BitVec 1) (p : BitVec 3) (d : BitVec 3) (a : BitVec 5) (b : BitVec 5)
  /-- PAND (R56): AND of two predicates. -/
  | pand (sb : BitVec 1) (p : BitVec 3) (d : BitVec 3) (a : BitVec 3) (b : BitVec 3)
  /-- POR (R56): OR of two predicates. -/
  | por (sb : BitVec 1) (p : BitVec 3) (d : BitVec 3) (a : BitVec 3) (b : BitVec 3)
  /-- PXOR (R56): XOR of two predicates. -/
  | pxor (sb : BitVec 1) (p : BitVec 3) (d : BitVec 3) (a : BitVec 3) (b : BitVec 3)
  /-- PNOT (R56): NOT of a predicate. -/
  | pnot (sb : BitVec 1) (p : BitVec 3) (d : BitVec 3) (a : BitVec 3)
  /-- BR (R59): Conditional branch whose two delay slots always execute. -/
  | br (sb : BitVec 1) (p : BitVec 3) (imm : BitVec 20)
  /-- BRN (R59): Branch whose delay slots execute only if taken. -/
  | brn (sb : BitVec 1) (p : BitVec 3) (imm : BitVec 20)
  /-- BRT (R59): Branch whose delay slots execute only if not taken. -/
  | brt (sb : BitVec 1) (p : BitVec 3) (imm : BitVec 20)
  /-- CALL (R60): Writes the link to hid(s31) and transfers; slots always execute. -/
  | call (sb : BitVec 1) (p : BitVec 3) (imm : BitVec 20)
  /-- JR (R61): Register-indirect jump with a word offset. -/
  | jr (sb : BitVec 1) (p : BitVec 3) (a : BitVec 5) (imm : BitVec 10)
  /-- JTB (R62): Jumps through a table entry read by instruction fetch when the index is below the length. -/
  | jtb (sb : BitVec 1) (p : BitVec 3) (d : BitVec 5) (a : BitVec 5) (l : BitVec 10)
  /-- LOOP (R64): Pushes a hardware-loop level and rebuilds the chain, or skips the body for count 0. -/
  | loop (sb : BitVec 1) (p : BitVec 3) (a : BitVec 5) (imm : BitVec 12)
  /-- FLIP (R16): Waits for the pending-result file, exchanges faces of written registers and marks a clause boundary. -/
  | flip (sb : BitVec 1) (p : BitVec 3)
  /-- RDH (R58): Copies the hidden face of a register into hid(d). -/
  | rdh (sb : BitVec 1) (p : BitVec 3) (d : BitVec 5) (a : BitVec 5) (b : BitVec 5)
  /-- SPOST (R65): Sets a sync bit of a voice at c+1. -/
  | spost (sb : BitVec 1) (p : BitVec 3) (v : BitVec 2) (k : BitVec 3)
  /-- SWAIT (R65): Waits for and consumes the voice's own sync bit. -/
  | swait (sb : BitVec 1) (p : BitVec 3) (k : BitVec 3)
  /-- BQPUT (R67): Appends a predicate value to a voice's branch-outcome queue. -/
  | bqput (sb : BitVec 1) (p : BitVec 3) (v : BitVec 2) (k : BitVec 3)
  /-- NOP (R70): Takes its issue cycle and nothing else. -/
  | nop (sb : BitVec 1) (p : BitVec 3)
  /-- EXIT (R71): Waits for pending results, marks a boundary if needed and ends the voice. -/
  | exit (sb : BitVec 1) (p : BitVec 3)
  /-- BQBR (R68): Pops bq and branches on the value; slots always execute. -/
  | bqbr (sb : BitVec 1) (imm : BitVec 20)
  /-- BQBRN (R68): Pops bq and branches; slots execute only if taken. -/
  | bqbrn (sb : BitVec 1) (imm : BitVec 20)
  /-- BQBRT (R68): Pops bq and branches; slots execute only if not taken. -/
  | bqbrt (sb : BitVec 1) (imm : BitVec 20)
  /-- TRAP (R72): Retires and then traps with cause TRAP and a 10-bit code. -/
  | trap (sb : BitVec 1) (p : BitVec 3) (c : BitVec 10)
  /-- ERET (R74): Seals the handler, reloads all voices from the trap record and resumes. -/
  | eret (sb : BitVec 1) (p : BitVec 3)
  /-- SRD (R76): Reads a status register into hid(d). -/
  | srd (sb : BitVec 1) (p : BitVec 3) (d : BitVec 5) (n : BitVec 10)
  /-- SWR (R76): Writes a status register at issue. -/
  | swr (sb : BitVec 1) (p : BitVec 3) (d : BitVec 5) (n : BitVec 10)
  /-- BRK (R73): Traps precisely with cause BRK without retiring. -/
  | brk (sb : BitVec 1) (x : BitVec 25)
  /-- LDS (R122): Loads 1 to 8 bytes of core scratchpad into a scalar. -/
  | lds (sb : BitVec 1) (p : BitVec 3) (d : BitVec 5) (b : BitVec 5) (z : BitVec 2) (o : BitVec 1) (imm : BitVec 9)
  /-- STS (R122): Stores 1 to 8 bytes of a scalar to core scratchpad via the hold-back buffer. -/
  | sts (sb : BitVec 1) (p : BitVec 3) (d : BitVec 5) (b : BitVec 5) (z : BitVec 2) (o : BitVec 1) (imm : BitVec 9)
  /-- LDQ (R123): Pushes a 128-byte scratchpad row into a load queue. -/
  | ldq (sb : BitVec 1) (p : BitVec 3) (q : BitVec 2) (b : BitVec 5) (o : BitVec 1) (imm : BitVec 9)
  /-- STQ (R123): Pops a store queue and stores its 128 bytes to scratchpad. -/
  | stq (sb : BitVec 1) (p : BitVec 3) (q : BitVec 1) (b : BitVec 5) (o : BitVec 1) (imm : BitVec 9)
  /-- QPUSH (R125): Pushes 16 copies of a scalar into a load queue. -/
  | qpush (sb : BitVec 1) (p : BitVec 3) (k : BitVec 2) (a : BitVec 5)
  /-- QPUSH_SQ (R125): Moves one entry from a store queue to a load queue. -/
  | qpushSq (sb : BitVec 1) (p : BitVec 3) (k : BitVec 2) (j : BitVec 1)
  /-- SBIND (R126): Validates a stream descriptor and binds a stream to a queue. -/
  | sbind (sb : BitVec 1) (p : BitVec 3) (k : BitVec 3) (a : BitVec 5) (q : BitVec 5)
  /-- SUNBIND (R127): Ends a stream binding. -/
  | sunbind (sb : BitVec 1) (p : BitVec 3) (k : BitVec 3)
  /-- SPOS (R128): Reads a stream's position and state. -/
  | spos (sb : BitVec 1) (p : BitVec 3) (d : BitVec 5) (k : BitVec 3)
  /-- LBQRY (R129): Reads the state of a landing slot. -/
  | lbqry (sb : BitVec 1) (p : BitVec 3) (d : BitVec 5) (k : BitVec 3)
  /-- COMMIT (R130): Waits for a landing slot and writes its data to hid(d), freeing it. -/
  | commit (sb : BitVec 1) (p : BitVec 3) (d : BitVec 5) (k : BitVec 3)
  /-- VADD_I32 (R131): Lane-wise INT32 add. -/
  | vaddI32 (sb : BitVec 1) (c : BitVec 1) (m : BitVec 3) (d : BitVec 5) (a : BitVec 5) (b : BitVec 5) (q : BitVec 1)
  /-- VSUB_I32 (R131): Lane-wise INT32 subtract. -/
  | vsubI32 (sb : BitVec 1) (c : BitVec 1) (m : BitVec 3) (d : BitVec 5) (a : BitVec 5) (b : BitVec 5) (q : BitVec 1)
  /-- VMUL_I32 (R131): Lane-wise INT32 low product. -/
  | vmulI32 (sb : BitVec 1) (c : BitVec 1) (m : BitVec 3) (d : BitVec 5) (a : BitVec 5) (b : BitVec 5) (q : BitVec 1)
  /-- VMULH_I32 (R131): Lane-wise signed high product. -/
  | vmulhI32 (sb : BitVec 1) (c : BitVec 1) (m : BitVec 3) (d : BitVec 5) (a : BitVec 5) (b : BitVec 5) (q : BitVec 1)
  /-- VMULHN_I32 (R131): Lane-wise unsigned high product. -/
  | vmulhnI32 (sb : BitVec 1) (c : BitVec 1) (m : BitVec 3) (d : BitVec 5) (a : BitVec 5) (b : BitVec 5) (q : BitVec 1)
  /-- VMIN_I32 (R131): Lane-wise signed minimum. -/
  | vminI32 (sb : BitVec 1) (c : BitVec 1) (m : BitVec 3) (d : BitVec 5) (a : BitVec 5) (b : BitVec 5) (q : BitVec 1)
  /-- VMAX_I32 (R131): Lane-wise signed maximum. -/
  | vmaxI32 (sb : BitVec 1) (c : BitVec 1) (m : BitVec 3) (d : BitVec 5) (a : BitVec 5) (b : BitVec 5) (q : BitVec 1)
  /-- VMINN_I32 (R131): Lane-wise unsigned minimum. -/
  | vminnI32 (sb : BitVec 1) (c : BitVec 1) (m : BitVec 3) (d : BitVec 5) (a : BitVec 5) (b : BitVec 5) (q : BitVec 1)
  /-- VMAXN_I32 (R131): Lane-wise unsigned maximum. -/
  | vmaxnI32 (sb : BitVec 1) (c : BitVec 1) (m : BitVec 3) (d : BitVec 5) (a : BitVec 5) (b : BitVec 5) (q : BitVec 1)
  /-- VAND_I32 (R131): Lane-wise AND. -/
  | vandI32 (sb : BitVec 1) (c : BitVec 1) (m : BitVec 3) (d : BitVec 5) (a : BitVec 5) (b : BitVec 5) (q : BitVec 1)
  /-- VOR_I32 (R131): Lane-wise OR. -/
  | vorI32 (sb : BitVec 1) (c : BitVec 1) (m : BitVec 3) (d : BitVec 5) (a : BitVec 5) (b : BitVec 5) (q : BitVec 1)
  /-- VXOR_I32 (R131): Lane-wise XOR. -/
  | vxorI32 (sb : BitVec 1) (c : BitVec 1) (m : BitVec 3) (d : BitVec 5) (a : BitVec 5) (b : BitVec 5) (q : BitVec 1)
  /-- VSHL_I32 (R131): Lane-wise left shift. -/
  | vshlI32 (sb : BitVec 1) (c : BitVec 1) (m : BitVec 3) (d : BitVec 5) (a : BitVec 5) (b : BitVec 5) (q : BitVec 1)
  /-- VSHR_I32 (R131): Lane-wise logical right shift. -/
  | vshrI32 (sb : BitVec 1) (c : BitVec 1) (m : BitVec 3) (d : BitVec 5) (a : BitVec 5) (b : BitVec 5) (q : BitVec 1)
  /-- VSRA_I32 (R131): Lane-wise arithmetic right shift. -/
  | vsraI32 (sb : BitVec 1) (c : BitVec 1) (m : BitVec 3) (d : BitVec 5) (a : BitVec 5) (b : BitVec 5) (q : BitVec 1)
  /-- VCMPEQ_I32 (R131): Lane-wise equality into a mask. -/
  | vcmpeqI32 (sb : BitVec 1) (c : BitVec 1) (m : BitVec 3) (d : BitVec 3) (a : BitVec 5) (b : BitVec 5) (q : BitVec 1)
  /-- VCMPLT_I32 (R131): Lane-wise signed less-than into a mask. -/
  | vcmpltI32 (sb : BitVec 1) (c : BitVec 1) (m : BitVec 3) (d : BitVec 3) (a : BitVec 5) (b : BitVec 5) (q : BitVec 1)
  /-- VCMPLTN_I32 (R131): Lane-wise unsigned less-than into a mask. -/
  | vcmpltnI32 (sb : BitVec 1) (c : BitVec 1) (m : BitVec 3) (d : BitVec 3) (a : BitVec 5) (b : BitVec 5) (q : BitVec 1)
  /-- VSEL (R131): Selects lanes of va or vb by a mask. -/
  | vsel (sb : BitVec 1) (c : BitVec 1) (m : BitVec 3) (d : BitVec 5) (a : BitVec 5) (b : BitVec 5) (q : BitVec 1)
  /-- VADD_F32 (R132): Lane-wise FP32 add. -/
  | vaddF32 (sb : BitVec 1) (c : BitVec 1) (m : BitVec 3) (d : BitVec 5) (a : BitVec 5) (b : BitVec 5) (q : BitVec 1)
  /-- VSUB_F32 (R132): Lane-wise FP32 subtract. -/
  | vsubF32 (sb : BitVec 1) (c : BitVec 1) (m : BitVec 3) (d : BitVec 5) (a : BitVec 5) (b : BitVec 5) (q : BitVec 1)
  /-- VMUL_F32 (R132): Lane-wise FP32 multiply. -/
  | vmulF32 (sb : BitVec 1) (c : BitVec 1) (m : BitVec 3) (d : BitVec 5) (a : BitVec 5) (b : BitVec 5) (q : BitVec 1)
  /-- VMIN_F32 (R132): Lane-wise FP32 minimum. -/
  | vminF32 (sb : BitVec 1) (c : BitVec 1) (m : BitVec 3) (d : BitVec 5) (a : BitVec 5) (b : BitVec 5) (q : BitVec 1)
  /-- VMAX_F32 (R132): Lane-wise FP32 maximum. -/
  | vmaxF32 (sb : BitVec 1) (c : BitVec 1) (m : BitVec 3) (d : BitVec 5) (a : BitVec 5) (b : BitVec 5) (q : BitVec 1)
  /-- VABS_F32 (R132): Clears the FP32 sign bit. -/
  | vabsF32 (sb : BitVec 1) (c : BitVec 1) (m : BitVec 3) (d : BitVec 5) (a : BitVec 5) (q : BitVec 1)
  /-- VNEG_F32 (R132): Inverts the FP32 sign bit. -/
  | vnegF32 (sb : BitVec 1) (c : BitVec 1) (m : BitVec 3) (d : BitVec 5) (a : BitVec 5) (q : BitVec 1)
  /-- VCMPEQ_F32 (R132): FP32 equality into a mask. -/
  | vcmpeqF32 (sb : BitVec 1) (c : BitVec 1) (m : BitVec 3) (d : BitVec 3) (a : BitVec 5) (b : BitVec 5) (q : BitVec 1)
  /-- VCMPLT_F32 (R132): FP32 less-than into a mask. -/
  | vcmpltF32 (sb : BitVec 1) (c : BitVec 1) (m : BitVec 3) (d : BitVec 3) (a : BitVec 5) (b : BitVec 5) (q : BitVec 1)
  /-- VCMPLE_F32 (R132): FP32 less-or-equal into a mask. -/
  | vcmpleF32 (sb : BitVec 1) (c : BitVec 1) (m : BitVec 3) (d : BitVec 3) (a : BitVec 5) (b : BitVec 5) (q : BitVec 1)
  /-- VADD_F16 (R132): Lane-wise FP16 add. -/
  | vaddF16 (sb : BitVec 1) (c : BitVec 1) (m : BitVec 3) (d : BitVec 5) (a : BitVec 5) (b : BitVec 5) (q : BitVec 1)
  /-- VSUB_F16 (R132): Lane-wise FP16 subtract. -/
  | vsubF16 (sb : BitVec 1) (c : BitVec 1) (m : BitVec 3) (d : BitVec 5) (a : BitVec 5) (b : BitVec 5) (q : BitVec 1)
  /-- VMUL_F16 (R132): Lane-wise FP16 multiply. -/
  | vmulF16 (sb : BitVec 1) (c : BitVec 1) (m : BitVec 3) (d : BitVec 5) (a : BitVec 5) (b : BitVec 5) (q : BitVec 1)
  /-- VMIN_F16 (R132): Lane-wise FP16 minimum. -/
  | vminF16 (sb : BitVec 1) (c : BitVec 1) (m : BitVec 3) (d : BitVec 5) (a : BitVec 5) (b : BitVec 5) (q : BitVec 1)
  /-- VMAX_F16 (R132): Lane-wise FP16 maximum. -/
  | vmaxF16 (sb : BitVec 1) (c : BitVec 1) (m : BitVec 3) (d : BitVec 5) (a : BitVec 5) (b : BitVec 5) (q : BitVec 1)
  /-- VABS_F16 (R132): Clears the FP16 sign bit. -/
  | vabsF16 (sb : BitVec 1) (c : BitVec 1) (m : BitVec 3) (d : BitVec 5) (a : BitVec 5) (q : BitVec 1)
  /-- VNEG_F16 (R132): Inverts the FP16 sign bit. -/
  | vnegF16 (sb : BitVec 1) (c : BitVec 1) (m : BitVec 3) (d : BitVec 5) (a : BitVec 5) (q : BitVec 1)
  /-- VCMPEQ_F16 (R132): FP16 equality into a mask, lanes in pairs. -/
  | vcmpeqF16 (sb : BitVec 1) (c : BitVec 1) (m : BitVec 3) (d : BitVec 3) (a : BitVec 5) (b : BitVec 5) (q : BitVec 1)
  /-- VCMPLT_F16 (R132): FP16 less-than into a mask. -/
  | vcmpltF16 (sb : BitVec 1) (c : BitVec 1) (m : BitVec 3) (d : BitVec 3) (a : BitVec 5) (b : BitVec 5) (q : BitVec 1)
  /-- VCMPLE_F16 (R132): FP16 less-or-equal into a mask. -/
  | vcmpleF16 (sb : BitVec 1) (c : BitVec 1) (m : BitVec 3) (d : BitVec 3) (a : BitVec 5) (b : BitVec 5) (q : BitVec 1)
  /-- VADD_BF16 (R132): Lane-wise BF16 add. -/
  | vaddBf16 (sb : BitVec 1) (c : BitVec 1) (m : BitVec 3) (d : BitVec 5) (a : BitVec 5) (b : BitVec 5) (q : BitVec 1)
  /-- VSUB_BF16 (R132): Lane-wise BF16 subtract. -/
  | vsubBf16 (sb : BitVec 1) (c : BitVec 1) (m : BitVec 3) (d : BitVec 5) (a : BitVec 5) (b : BitVec 5) (q : BitVec 1)
  /-- VMUL_BF16 (R132): Lane-wise BF16 multiply. -/
  | vmulBf16 (sb : BitVec 1) (c : BitVec 1) (m : BitVec 3) (d : BitVec 5) (a : BitVec 5) (b : BitVec 5) (q : BitVec 1)
  /-- VMIN_BF16 (R132): Lane-wise BF16 minimum. -/
  | vminBf16 (sb : BitVec 1) (c : BitVec 1) (m : BitVec 3) (d : BitVec 5) (a : BitVec 5) (b : BitVec 5) (q : BitVec 1)
  /-- VMAX_BF16 (R132): Lane-wise BF16 maximum. -/
  | vmaxBf16 (sb : BitVec 1) (c : BitVec 1) (m : BitVec 3) (d : BitVec 5) (a : BitVec 5) (b : BitVec 5) (q : BitVec 1)
  /-- VABS_BF16 (R132): Clears the BF16 sign bit. -/
  | vabsBf16 (sb : BitVec 1) (c : BitVec 1) (m : BitVec 3) (d : BitVec 5) (a : BitVec 5) (q : BitVec 1)
  /-- VNEG_BF16 (R132): Inverts the BF16 sign bit. -/
  | vnegBf16 (sb : BitVec 1) (c : BitVec 1) (m : BitVec 3) (d : BitVec 5) (a : BitVec 5) (q : BitVec 1)
  /-- VCMPEQ_BF16 (R132): BF16 equality into a mask. -/
  | vcmpeqBf16 (sb : BitVec 1) (c : BitVec 1) (m : BitVec 3) (d : BitVec 3) (a : BitVec 5) (b : BitVec 5) (q : BitVec 1)
  /-- VCMPLT_BF16 (R132): BF16 less-than into a mask. -/
  | vcmpltBf16 (sb : BitVec 1) (c : BitVec 1) (m : BitVec 3) (d : BitVec 3) (a : BitVec 5) (b : BitVec 5) (q : BitVec 1)
  /-- VCMPLE_BF16 (R132): BF16 less-or-equal into a mask. -/
  | vcmpleBf16 (sb : BitVec 1) (c : BitVec 1) (m : BitVec 3) (d : BitVec 3) (a : BitVec 5) (b : BitVec 5) (q : BitVec 1)
  /-- VFMA_F32 (R133): FP32 fused multiply-add with one rounding. -/
  | vfmaF32 (sb : BitVec 1) (c : BitVec 1) (m : BitVec 3) (d : BitVec 5) (a : BitVec 5) (b : BitVec 5) (e : BitVec 5) (q : BitVec 1)
  /-- VFMS_F32 (R133): FP32 fused multiply-subtract a*b-c. -/
  | vfmsF32 (sb : BitVec 1) (c : BitVec 1) (m : BitVec 3) (d : BitVec 5) (a : BitVec 5) (b : BitVec 5) (e : BitVec 5) (q : BitVec 1)
  /-- VFMA_BF16 (R133): BF16 fused multiply-add on 64 lanes. -/
  | vfmaBf16 (sb : BitVec 1) (c : BitVec 1) (m : BitVec 3) (d : BitVec 5) (a : BitVec 5) (b : BitVec 5) (e : BitVec 5) (q : BitVec 1)
  /-- VFMA_F16 (R133): FP16 fused multiply-add on 64 lanes. -/
  | vfmaF16 (sb : BitVec 1) (c : BitVec 1) (m : BitVec 3) (d : BitVec 5) (a : BitVec 5) (b : BitVec 5) (e : BitVec 5) (q : BitVec 1)
  /-- VCVT_F32_I32 (R134): Converts INT32 lanes to FP32. -/
  | vcvtF32I32 (sb : BitVec 1) (c : BitVec 1) (m : BitVec 3) (d : BitVec 5) (a : BitVec 5) (r : BitVec 3) (q : BitVec 1)
  /-- VCVT_I32_F32 (R134): Converts FP32 lanes to INT32. -/
  | vcvtI32F32 (sb : BitVec 1) (c : BitVec 1) (m : BitVec 3) (d : BitVec 5) (a : BitVec 5) (r : BitVec 3) (q : BitVec 1)
  /-- VCVT_F32_F16 (R134): Widens part P of FP16 lanes to FP32. -/
  | vcvtF32F16 (sb : BitVec 1) (c : BitVec 1) (m : BitVec 3) (d : BitVec 5) (a : BitVec 5) (x : BitVec 1) (q : BitVec 1)
  /-- VCVT_F32_BF16 (R134): Widens part P of BF16 lanes to FP32. -/
  | vcvtF32Bf16 (sb : BitVec 1) (c : BitVec 1) (m : BitVec 3) (d : BitVec 5) (a : BitVec 5) (x : BitVec 1) (q : BitVec 1)
  /-- VCVT_F16_F32 (R134): Narrows FP32 lanes to FP16 part P. -/
  | vcvtF16F32 (sb : BitVec 1) (c : BitVec 1) (m : BitVec 3) (d : BitVec 5) (a : BitVec 5) (x : BitVec 1) (r : BitVec 3) (q : BitVec 1)
  /-- VCVT_BF16_F32 (R134): Narrows FP32 lanes to BF16 part P. -/
  | vcvtBf16F32 (sb : BitVec 1) (c : BitVec 1) (m : BitVec 3) (d : BitVec 5) (a : BitVec 5) (x : BitVec 1) (r : BitVec 3) (q : BitVec 1)
  /-- VCVT_F32_E4M3 (R134): Widens quarter P of E4M3 bytes to FP32. -/
  | vcvtF32E4m3 (sb : BitVec 1) (c : BitVec 1) (m : BitVec 3) (d : BitVec 5) (a : BitVec 5) (x : BitVec 2) (q : BitVec 1)
  /-- VCVT_F32_E5M2 (R134): Widens quarter P of E5M2 bytes to FP32. -/
  | vcvtF32E5m2 (sb : BitVec 1) (c : BitVec 1) (m : BitVec 3) (d : BitVec 5) (a : BitVec 5) (x : BitVec 2) (q : BitVec 1)
  /-- VCVT_E4M3_F32 (R134): Narrows FP32 lanes to E4M3 quarter P. -/
  | vcvtE4m3F32 (sb : BitVec 1) (c : BitVec 1) (m : BitVec 3) (d : BitVec 5) (a : BitVec 5) (x : BitVec 2) (r : BitVec 3) (q : BitVec 1)
  /-- VCVT_E5M2_F32 (R134): Narrows FP32 lanes to E5M2 quarter P. -/
  | vcvtE5m2F32 (sb : BitVec 1) (c : BitVec 1) (m : BitVec 3) (d : BitVec 5) (a : BitVec 5) (x : BitVec 2) (r : BitVec 3) (q : BitVec 1)
  /-- VPACK_B4 (R135): Encodes FP32 lanes into a 4-bit block in quarter P of vd. -/
  | vpackB4 (sb : BitVec 1) (c : BitVec 1) (m : BitVec 3) (d : BitVec 5) (a : BitVec 5) (x : BitVec 2) (q : BitVec 1)
  /-- VUNPACK_B4 (R135): Decodes a 4-bit block in quarter P exactly to FP32 lanes. -/
  | vunpackB4 (sb : BitVec 1) (c : BitVec 1) (m : BitVec 3) (d : BitVec 5) (a : BitVec 5) (x : BitVec 2) (q : BitVec 1)
  /-- VPERM (R136): Permutes lanes of va by index lanes of vb. -/
  | vperm (sb : BitVec 1) (c : BitVec 1) (m : BitVec 3) (d : BitVec 5) (a : BitVec 5) (b : BitVec 5) (q : BitVec 1)
  /-- VROT (R136): Rotates lanes of va by a scalar amount. -/
  | vrot (sb : BitVec 1) (c : BitVec 1) (m : BitVec 3) (d : BitVec 5) (a : BitVec 5) (b : BitVec 5) (q : BitVec 1)
  /-- VBCAST (R136): Broadcasts the low 32 bits of a scalar to every lane. -/
  | vbcast (sb : BitVec 1) (c : BitVec 1) (m : BitVec 3) (d : BitVec 5) (a : BitVec 5) (q : BitVec 1)
  /-- VREDADD (R115): FP32 tree sum of live lanes into a scalar. -/
  | vredadd (sb : BitVec 1) (c : BitVec 1) (m : BitVec 3) (d : BitVec 5) (a : BitVec 5) (q : BitVec 1)
  /-- VREDMAX (R115): FP32 tree maximum of live lanes into a scalar. -/
  | vredmax (sb : BitVec 1) (c : BitVec 1) (m : BitVec 3) (d : BitVec 5) (a : BitVec 5) (q : BitVec 1)
  /-- VIREDADD (R115): 64-bit sum of live INT32 lanes into a scalar. -/
  | viredadd (sb : BitVec 1) (c : BitVec 1) (m : BitVec 3) (d : BitVec 5) (a : BitVec 5) (q : BitVec 1)
  /-- VBSPL (R137): Computes the unnormalised cubic B-spline basis value j per lane. -/
  | vbspl (sb : BitVec 1) (c : BitVec 1) (m : BitVec 3) (d : BitVec 5) (a : BitVec 5) (j : BitVec 2) (q : BitVec 1)
  /-- PAT_C (R142): Amends one 16-bit slot of a copy template. -/
  | patC (sb : BitVec 1) (t : BitVec 6) (f : BitVec 3) (v : BitVec 16)
  /-- PIS_C (R143): Amends and issues a copy template. -/
  | pisC (sb : BitVec 1) (t : BitVec 6) (f : BitVec 3) (v : BitVec 16)
  /-- PAT_A (R142): Amends one 16-bit slot of an array template. -/
  | patA (sb : BitVec 1) (t : BitVec 6) (f : BitVec 3) (v : BitVec 16)
  /-- PIS_A (R143): Amends and issues an array template. -/
  | pisA (sb : BitVec 1) (t : BitVec 6) (f : BitVec 3) (v : BitVec 16)
  /-- PAT_S (R142): Amends one 16-bit slot of a scatter template. -/
  | patS (sb : BitVec 1) (t : BitVec 6) (f : BitVec 3) (v : BitVec 16)
  /-- PIS_S (R143): Amends and issues a scatter template. -/
  | pisS (sb : BitVec 1) (t : BitVec 6) (f : BitVec 3) (v : BitVec 16)
  /-- TPL_C (R141): Loads a copy-engine template from scratchpad. -/
  | tplC (sb : BitVec 1) (p : BitVec 3) (t : BitVec 5) (a : BitVec 5) (tlo : BitVec 1)
  /-- TPL_A (R141): Loads an array-engine template from scratchpad. -/
  | tplA (sb : BitVec 1) (p : BitVec 3) (t : BitVec 5) (a : BitVec 5) (tlo : BitVec 1)
  /-- TPL_S (R141): Loads a scatter template from scratchpad. -/
  | tplS (sb : BitVec 1) (p : BitVec 3) (t : BitVec 5) (a : BitVec 5) (tlo : BitVec 1)
  /-- CWAIT (R145): Waits for and consumes n arrivals on a completion counter. -/
  | cwait (sb : BitVec 1) (p : BitVec 3) (k : BitVec 3) (n : BitVec 10)
  /-- CDISC (R145): Discards n arrivals on a counter, absorbing future ones. -/
  | cdisc (sb : BitVec 1) (p : BitVec 3) (k : BitVec 3) (n : BitVec 10)
  /-- CRD (R146): Reads a counter's state and clears EXC. -/
  | crd (sb : BitVec 1) (p : BitVec 3) (d : BitVec 5) (k : BitVec 3)
  /-- RNGSET (R148): Configures a ring after commands naming it drain. -/
  | rngset (sb : BitVec 1) (p : BitVec 3) (k : BitVec 4) (a : BitVec 5) (b : BitVec 5)
  /-- RNGRD (R149): Reads a ring's head and tail counts. -/
  | rngrd (sb : BitVec 1) (p : BitVec 3) (d : BitVec 5) (k : BitVec 4)
  /-- PUBLISH (R150): Holds a toggle of a publish buffer's front until the clause seals. -/
  | publish (sb : BitVec 1) (p : BitVec 3) (k : BitVec 4)
  /-- KSET (R159): Writes a knot register, checking its value. -/
  | kset (sb : BitVec 1) (p : BitVec 3) (k : BitVec 3) (a : BitVec 5)
  /-- KRD (R159): Reads a knot register. -/
  | krd (sb : BitVec 1) (p : BitVec 3) (d : BitVec 5) (k : BitVec 3)
  /-- KATCMP (R169): Waits for and compares a digest slot with a value. -/
  | katcmp (sb : BitVec 1) (p : BitVec 3) (k : BitVec 3) (a : BitVec 5)
  /-- JOIN (R192): Adds the thread to a group, held until seal. -/
  | join (sb : BitVec 1) (p : BitVec 3) (d : BitVec 5) (a : BitVec 5)
  /-- LEAVE (R192): Removes the thread from a group, held until seal. -/
  | leave (sb : BitVec 1) (p : BitVec 3) (d : BitVec 5) (a : BitVec 5)
  /-- GRPQ (R192): Reports a group's count and mask. -/
  | grpq (sb : BitVec 1) (p : BitVec 3) (d : BitVec 5) (a : BitVec 5)
  /-- BARR (R192): Holds an arrival at a barrier for a group. -/
  | barr (sb : BitVec 1) (p : BitVec 3) (d : BitVec 5) (a : BitVec 5) (b : BitVec 5)
  /-- BWAIT (R192): Waits until a barrier's phase differs from the given one. -/
  | bwait (sb : BitVec 1) (p : BitVec 3) (d : BitVec 5) (a : BitVec 5) (b : BitVec 5)
  /-- BARW (R192): Performs FLIP steps, arrives at a barrier and waits for the phase. -/
  | barw (sb : BitVec 1) (p : BitVec 3) (d : BitVec 5) (a : BitVec 5) (b : BitVec 5)
  /-- FINC (R194): Adds to a flag at release. -/
  | finc (sb : BitVec 1) (p : BitVec 3) (d : BitVec 5) (a : BitVec 5) (b : BitVec 5)
  /-- FWAIT (R194): Waits until a flag reaches a value. -/
  | fwait (sb : BitVec 1) (p : BitVec 3) (d : BitVec 5) (a : BitVec 5) (b : BitVec 5)
  /-- FRD (R194): Reads a flag. -/
  | frd (sb : BitVec 1) (p : BitVec 3) (d : BitVec 5) (a : BitVec 5)
  /-- FSET (R194): Sets a flag at release. -/
  | fset (sb : BitVec 1) (p : BitVec 3) (d : BitVec 5) (a : BitVec 5) (b : BitVec 5)
  /-- LAUNCH (R200): Reserves a launch-queue entry, waiting if needed, and launches a record at release. -/
  | launch (sb : BitVec 1) (p : BitVec 3) (d : BitVec 5) (a : BitVec 5)
  /-- LAUNCHN (R200): Launches a record or reports FULL without waiting. -/
  | launchn (sb : BitVec 1) (p : BitVec 3) (d : BitVec 5) (a : BitVec 5)
  /-- EVSET (R200): Sets event-vector bits at release. -/
  | evset (sb : BitVec 1) (p : BitVec 3) (a : BitVec 5) (b : BitVec 5)
  /-- EVCLR (R200): Clears event-vector bits at release. -/
  | evclr (sb : BitVec 1) (p : BitVec 3) (a : BitVec 5) (b : BitVec 5)
  /-- EVWAIT (R200): Waits until mask bits are set in an event window. -/
  | evwait (sb : BitVec 1) (p : BitVec 3) (d : BitVec 5) (a : BitVec 5) (b : BitVec 5)
  /-- ENQ (R202): Pushes an item to the thread's pipeline queue. -/
  | enq (sb : BitVec 1) (p : BitVec 3) (d : BitVec 5) (a : BitVec 5)
  /-- DEQ (R202): Pops an item from the previous stage's queue. -/
  | deq (sb : BitVec 1) (p : BitVec 3) (d : BitVec 5) (k : BitVec 3)
  /-- YIELD (R205): Stops the thread as PREEMPT if a ready record waits. -/
  | yield (sb : BitVec 1) (p : BitVec 3)
  /-- TASKINFO (R200): Reads task information by selector. -/
  | taskinfo (sb : BitVec 1) (p : BitVec 3) (d : BitVec 5) (k : BitVec 5)
  /-- LDG (R222): Reads device memory into a landing slot. -/
  | ldg (sb : BitVec 1) (p : BitVec 3) (k : BitVec 3) (b : BitVec 5) (z : BitVec 2) (o : BitVec 1) (imm : BitVec 9)
  /-- STG (R224): Stores to device memory via the hold-back buffer. -/
  | stg (sb : BitVec 1) (p : BitVec 3) (d : BitVec 5) (b : BitVec 5) (z : BitVec 2) (o : BitVec 1) (imm : BitVec 9)
  /-- LDA (R222): Acquiring load of device memory into a landing slot. -/
  | lda (sb : BitVec 1) (p : BitVec 3) (k : BitVec 3) (b : BitVec 5) (z : BitVec 2) (o : BitVec 1) (imm : BitVec 9)
  /-- STL (R224): Releasing store to device memory. -/
  | stl (sb : BitVec 1) (p : BitVec 3) (d : BitVec 5) (b : BitVec 5) (z : BitVec 2) (o : BitVec 1) (imm : BitVec 9)
  /-- LDGQ (R225): Loads and decodes device memory into a load-queue entry. -/
  | ldgq (sb : BitVec 1) (p : BitVec 3) (q : BitVec 2) (b : BitVec 5) (o : BitVec 1) (imm : BitVec 9)
  /-- STGQ (R225): Pops a store queue, encodes and stores to device memory. -/
  | stgq (sb : BitVec 1) (p : BitVec 3) (q : BitVec 1) (b : BitVec 5) (o : BitVec 1) (imm : BitVec 9)
  /-- PFG (R225): Starts a translation of an address. -/
  | pfg (sb : BitVec 1) (p : BitVec 3) (b : BitVec 5) (o : BitVec 1) (imm : BitVec 9)
  /-- FENCE (R226): Performs FLIP steps and orders accesses in a scope. -/
  | fence (sb : BitVec 1) (p : BitVec 3) (d : BitVec 5) (a : BitVec 5) (b : BitVec 3)
  /-- PUBG (R229): Holds a publish-map front toggle until seal. -/
  | pubg (sb : BitVec 1) (p : BitVec 3) (a : BitVec 5)
  /-- TLBINV (R230): Holds a TLB invalidation of a range until seal. -/
  | tlbinv (sb : BitVec 1) (p : BitVec 3) (a : BitVec 5) (b : BitVec 5)
  /-- TLBSYNC (R231): Performs FLIP steps and waits for released invalidations' acknowledgement. -/
  | tlbsync (sb : BitVec 1) (p : BitVec 3) (d : BitVec 5)
  /-- CAPRD (R257): Reads a doubleword of the capability space. -/
  | caprd (sb : BitVec 1) (p : BitVec 3) (d : BitVec 5) (a : BitVec 5)
  /-- CTXSAVE (R261): Ends the clause and requests a context save. -/
  | ctxsave (sb : BitVec 1) (p : BitVec 3) (d : BitVec 5) (a : BitVec 5) (b : BitVec 5)
  /-- CTXRST (R261): Ends the clause and requests a context restore. -/
  | ctxrst (sb : BitVec 1) (p : BitVec 3) (d : BitVec 5) (a : BitVec 5) (b : BitVec 5)
  /-- SEALW (R263): Performs FLIP steps and waits until the clause seals and releases. -/
  | sealw (sb : BitVec 1) (p : BitVec 3)
  /-- HOSTSIG (R264): Takes a credit and holds a host signal until seal. -/
  | hostsig (sb : BitVec 1) (p : BitVec 3) (a : BitVec 5)
  /-- NWR (R276): Holds a remote write until seal. -/
  | nwr (sb : BitVec 1) (p : BitVec 3) (w : BitVec 2) (a : BitVec 5) (b : BitVec 5)
  /-- NRD (R276): Sends a remote read into a landing slot. -/
  | nrd (sb : BitVec 1) (p : BitVec 3) (v : BitVec 2) (k : BitVec 3) (a : BitVec 5) (w : BitVec 3)
  /-- NRED (R280): Contributes to a collective reduction and waits for the result. -/
  | nred (sb : BitVec 1) (p : BitVec 3) (d : BitVec 5) (a : BitVec 5) (b : BitVec 5)
  /-- NBAR (R281): Arrives at a fabric barrier and waits. -/
  | nbar (sb : BitVec 1) (p : BitVec 3) (d : BitVec 5) (a : BitVec 5)
  /-- MEMB (R277): Seals and waits for released NWRs, reporting failures. -/
  | memb (sb : BitVec 1) (p : BitVec 3) (d : BitVec 5)
  /-- GSW (R285): Switches a fabric job out or in. -/
  | gsw (sb : BitVec 1) (p : BitVec 3) (d : BitVec 5) (a : BitVec 5)
  /-- PENDING_RESULT_LAND (R14): A pending result reaches the hidden face of its register. -/
  | pendingResultLand (slot : Nat) (v : VoiceId) (idx : Nat)
  /-- QUEUE_ENTRY_FILL (R87): A reserved queue entry is filled with its value or arriving data. -/
  | queueEntryFill (slot : Nat) (q : Nat) (idx : Nat)
  /-- LANDING_ARRIVAL (R95): A transfer arrives and makes its landing slot FULL. -/
  | landingArrival (slot : Nat) (v : VoiceId) (lb : Nat)
  /-- STREAM_SERVICE (R92): The stream unit pushes or pops one entry for a bound stream. -/
  | streamService (slot : Nat) (st : Nat)
  /-- SLOT_YIELD (R79): Issue switches to the other thread slot after a dead cycle. -/
  | slotYield
  /-- CLAUSE_SEAL (R173): A clause seals and its held effects are released in issue order. -/
  | clauseSeal (slot : Nat) (id : Nat)
  /-- BARRIER_WAIT_END (R191): Waits on a completed phase end 4 cycles later. -/
  | barrierWaitEnd (slot : Nat)
  /-- COPY (R151): Copy engine moves elements between spaces. -/
  | copy (cmd : Nat)
  /-- COPYF (R152): Copy with a follow-on array command. -/
  | copyf (cmd : Nat)
  /-- COPYF_FOLLOW_ON (R101): Copy engine enqueues the follow-on after the last byte lands. -/
  | copyfFollowOn (cmd : Nat)
  /-- ARR_LOADB (R155): Loads a cell-store bank or the row affine table. -/
  | arrLoadb (cmd : Nat)
  /-- ARR_MM (R156): Matrix multiply into a tile. -/
  | arrMm (cmd : Nat)
  /-- ARR_SPL (R162): Spline evaluation into a tile. -/
  | arrSpl (cmd : Nat)
  /-- ARR_GRAD (R163): Accumulates spline gradients into the gradient stores. -/
  | arrGrad (cmd : Nat)
  /-- ARR_REFINE (R164): Halves knot spacing of cell coefficients. -/
  | arrRefine (cmd : Nat)
  /-- ARR_DRAIN (R165): Drains a tile or gradient stores to a destination or the scatter engine. -/
  | arrDrain (cmd : Nat)
  /-- ARR_ROWOUT (R166): Reads half a tile row into a landing slot. -/
  | arrRowout (cmd : Nat)
  /-- SCAT_ADD (R167): Adds indexed values into cluster scratchpad. -/
  | scatAdd (cmd : Nat)
  /-- SCAT_MAX (R167): Takes the maximum of indexed values in cluster scratchpad. -/
  | scatMax (cmd : Nat)
  /-- SCATTER_WINDOW (R196): Scatter engine accepts a window and merges it. -/
  | scatterWindow (cmd : Nat)
  /-- COMMAND_RETIRE (R102): A command retires and counts an arrival on its counter. -/
  | commandRetire (cmd : Nat)
  /-- TRAP_ENTRY (R28): After the seal wait the trap record is written and the handler entered or the thread stopped. -/
  | trapEntry (slot : Nat)
  /-- SIGNAL (R317): Asynchronous signal stops the thread. -/
  | signal (slot : Nat)
  /-- PREEMPT (R186): Scheduler pre-emption or checkpoint stops the core at a boundary. -/
  | preempt
  /-- CORE_IMAGE_SAVE (R186): After seals and drains the copy engine writes the core context image. -/
  | coreImageSave
  /-- THREAD_END (R71): Thread ends once all voices exited and clauses sealed; set bits set. -/
  | threadEnd (slot : Nat)
  /-- STRIKE_REPORT (R171): An acoustic detector reports a strike in a region. -/
  | strikeReport (region : Nat)
  /-- ROLLBACK_RESTART (R179): Voices resume issue 16 cycles after the report. -/
  | rollbackRestart
  /-- TIME_SLICE_END (R207): A task's time slice expires: checkpoint, STALL or restart. -/
  | timeSliceEnd (slot : Nat)
  /-- TASK_PLACE (R197): Scheduler places a ready record on a slot and starts the task. -/
  | taskPlace (idx : Nat) (slot : Nat)
  /-- PIPELINE_SPILL (R204): After 4096 stalled cycles full pipeline queues spill to overflow. -/
  | pipelineSpill (pipe : Nat)
  /-- STEAL_REQUEST (R208): An idle scheduler asks clusters for work and a victim sends a record. -/
  | stealRequest (peer : Nat)
  /-- STEAL_ACKNOWLEDGE (R208): The thief's acknowledgement reaches the victim. -/
  | stealAcknowledge (seq : Nat)
  /-- STEAL_CONFIRM (R208): The victim's confirmation lets the thief start the record. -/
  | stealConfirm (peer : Nat) (seq : Nat)
  /-- STEAL_TIMEOUT (R208): After 16 µs the victim returns the record to its queue. -/
  | stealTimeout (seq : Nat)
  /-- SCHED_LOST (R209): Monitor detects a dead scheduler and purges its tags. -/
  | schedLost (cluster : Nat)
  /-- CLUSTER_SWITCH_OUT (R210): Cluster saves its image and is marked switched out. -/
  | clusterSwitchOut (area : Nat)
  /-- CLUSTER_RESTORE (R210): Cluster image restored, flags last. -/
  | clusterRestore (area : Nat)
  /-- WALK_COMPLETE (R215): A page-table walk ends with a leaf or a fault. -/
  | walkComplete (n : Nat)
  /-- INVALIDATION_ACK (R232): An invalidation is acknowledged after matching accesses drain. -/
  | invalidationAck (n : Nat)
  /-- INVALIDATION_HOLD_TIMEOUT (R232): A store held 65,536 cycles after invalidation stops its thread. -/
  | invalidationHoldTimeout (slot : Nat)
  /-- PUBG_TOGGLE (R229): Publish-map entry front toggles in all translation units. -/
  | pubgToggle (n : Nat)
  /-- RELEASE_PERFORMED (R236): A release is performed after everything it covers. -/
  | releasePerformed (n : Nat)
  /-- CONTEXT_SAVE_REQUEST (R262): Hub switches out the context's clusters and writes the image. -/
  | contextSaveRequest (n : Nat)
  /-- CONTEXT_RESTORE_REQUEST (R262): Hub restores a context image and unparks it. -/
  | contextRestoreRequest (n : Nat)
  /-- SUBMISSION_TAIL (R246): Doorbell write of the submission tail makes packets readable. -/
  | submissionTail (ctx : Nat) (val : Nat)
  /-- COMPLETION_HEAD (R248): Doorbell head write frees entries, writes held records and returns credits. -/
  | completionHead (ctx : Nat) (val : Nat)
  /-- FAULT_HEAD (R249): Doorbell head write frees fault-queue entries. -/
  | faultHead (ctx : Nat) (val : Nat)
  /-- LAUNCH_PACKET (R246): Host packet enters a batch of records into one cluster's launch queue. -/
  | launchPacket (ctx : Nat) (idx : Nat)
  /-- EVENT (R246): Host packet sets then clears event bits. -/
  | event (ctx : Nat) (idx : Nat)
  /-- EVWAIT_PACKET (R246): Host packet holds its queue until bits are set. -/
  | evwaitPacket (ctx : Nat) (idx : Nat)
  /-- ATTACH (R287): Starts a debug session on a context. -/
  | attach (ctx : Nat) (idx : Nat)
  /-- DETACH (R287): Ends the session and resumes stopped threads. -/
  | detach (ctx : Nat) (idx : Nat)
  /-- STOP (R288): Freezes a core on one edge and writes a stop image. -/
  | stop (ctx : Nat) (idx : Nat)
  /-- RESUME (R289): Reloads a stopped slot from its stop image and unfreezes. -/
  | resume (ctx : Nat) (idx : Nat)
  /-- DEBUG_READ (R287): Copies bytes from a debug space to the host. -/
  | debugRead (ctx : Nat) (idx : Nat)
  /-- DEBUG_WRITE (R287): Copies host bytes into a debug space. -/
  | debugWrite (ctx : Nat) (idx : Nat)
  /-- BREAK (R290): Arms or disarms a schedule-cycle breakpoint. -/
  | debugBreak (ctx : Nat) (idx : Nat)
  /-- SAMPLE (R292): Sets the sample period. -/
  | sample (ctx : Nat) (idx : Nat)
  /-- TRACE (R293): Configures the trace ring. -/
  | trace (ctx : Nat) (idx : Nat)
  /-- COUNTERS (R296): Folds slot counts into totals and copies them to the host. -/
  | counters (ctx : Nat) (idx : Nat)
  /-- REPLAY (R297): Selects replay capture, rerun or off. -/
  | replay (ctx : Nat) (idx : Nat)
  /-- INJECT (R299): Arms a synthetic strike report at a schedule cycle. -/
  | inject (ctx : Nat) (idx : Nat)
  /-- BREAKPOINT (R290): Schedule cycle reaches an armed breakpoint and the core stops. -/
  | breakpoint (slot : Nat)
  /-- FREEZE_LIMIT (R289): Freeze reaches its limit and the slot resumes without edits. -/
  | freezeLimit (ctx : Nat)
  /-- SAMPLE_EMIT (R292): A sample record is emitted at a period multiple. -/
  | sampleEmit (slot : Nat)
  /-- REPLAY_TIMEOUT (R298): A logged item fails to arrive in 100 µs and the rerun ends. -/
  | replayTimeout (ctx : Nat)
  /-- CORE_RELEASE (R250): Host write releases a fenced core after clearing its storage. -/
  | coreRelease (core : Nat)
  /-- POWER_LIMIT (R255): Host sets the package power limit, throttling cores uniformly. -/
  | powerLimit (watts : Nat)
  /-- HOST_CTXSAVE (R262): Host requests a context save through BAR0. -/
  | hostCtxsave (ctx : Nat) (area : Nat) (units : Nat)
  /-- HOST_CTXRST (R262): Host requests a context restore through BAR0. -/
  | hostCtxrst (ctx : Nat) (area : Nat)
  /-- PACKAGE_IDLE_REQUEST (R255): Host requests PACKAGE-IDLE when every cluster is gated. -/
  | packageIdleRequest
  /-- BAR0_REGISTER_WRITE (R245): Host write to a BAR0 register without behaviour of its own. -/
  | bar0RegisterWrite (off : Nat) (val : Word)
  /-- POWER_ON (R251): Power applied; boot steps run and the link is presented. -/
  | powerOn
  /-- REBOOT (R251): Host supplies a new first-stage image and requests a reboot. -/
  | reboot (image : List Byte)
  /-- POWER_OFF (R255): Power removed; all state is lost. -/
  | powerOff
  /-- GET_VERSION (R253): SPDM version request. -/
  | getVersion (msg : List Byte)
  /-- GET_CAPABILITIES (R253): SPDM capabilities request. -/
  | getCapabilities (msg : List Byte)
  /-- NEGOTIATE_ALGORITHMS (R253): SPDM algorithm negotiation. -/
  | negotiateAlgorithms (msg : List Byte)
  /-- GET_DIGESTS (R253): SPDM certificate digests request. -/
  | getDigests (msg : List Byte)
  /-- GET_CERTIFICATE (R253): SPDM certificate request. -/
  | getCertificate (msg : List Byte)
  /-- CHALLENGE (R253): SPDM challenge signed with the identity key. -/
  | challenge (msg : List Byte)
  /-- GET_MEASUREMENTS (R253): SPDM measurements request. -/
  | getMeasurements (msg : List Byte)
  /-- FLIT_RECEIVE (R270): A flit arrives with its trailer and is checked by CRC. -/
  | flitReceive (link : Nat) (flit : BitVec 512) (trailer : BitVec 64)
  /-- LINK_TRAINED (R270): A link completes training and its up bit sets. -/
  | linkTrained (link : Nat)
  /-- LINK_RETRAIN_TIMEOUT (R270): Retraining fails within 1 ms and the link goes down. -/
  | linkRetrainTimeout (link : Nat)
  /-- REMOTE_WRITE (R275): Write packet performed at the target and acknowledged. -/
  | remoteWrite (n : Nat)
  /-- READ_REQUEST (R275): Read request packet performed at the target and answered. -/
  | readRequest (n : Nat)
  /-- READ_REPLY (R276): Read reply fills the matching landing slot. -/
  | readReply (n : Nat)
  /-- WRITE_ACKNOWLEDGEMENT (R276): Acknowledgement completes an NWR. -/
  | writeAcknowledgement (n : Nat)
  /-- CONTRIBUTION (R279): Collective contribution combined in the reduction tree. -/
  | contribution (n : Nat)
  /-- COLLECTIVE_RESULT (R280): Result delivered to members, ending their NRED waits. -/
  | collectiveResult (n : Nat)
  /-- BARRIER_ARRIVAL (R281): Fabric barrier arrival counted for an instance. -/
  | barrierArrival (n : Nat)
  /-- BARRIER_RELEASE (R281): Fabric barrier release ends NBAR waits. -/
  | barrierRelease (n : Nat)
  /-- CUT_MARKER (R284): Cut marker triggers or advances a router's switch-out sweep. -/
  | cutMarker (n : Nat)
  /-- RESUME_MARKER (R285): Resume marker makes a router re-inject saved packets. -/
  | resumeMarker (n : Nat)
  /-- SWEEP_REPORT (R284): Sweep completion report toward the initiator. -/
  | sweepReport (n : Nat)
  /-- PURGE (R283): Purge packet drops a job's tagged packets and work. -/
  | purge (n : Nat)
  /-- REMOTE_TIMEOUT (R275): A remote access without answer for 100 µs completes as an error. -/
  | remoteTimeout (req : Nat)
  /-- MEMBER_FAILURE (R282): A collective member is removed and the group shrinks. -/
  | memberFailure (job : Nat) (grp : Nat) (node : Nat)
  /-- STORE_PERFORMED (R315): A released store or engine write to cluster scratchpad, device or host memory becomes performed with respect to an observer outside its core. -/
  | storePerformed (n : Nat)
  /-- UNSUPPORTED_REQUEST (R253): An SPDM request other than the seven listed is answered with an UnsupportedRequest error. -/
  | unsupportedRequest (msg : List Byte)
  /-- CONTEXT_CREATION (R187): The host creates a context and first assigns clusters to it, zeroing cluster scratchpad, flags, groups, barriers, queues and array state. -/
  | contextCreation (desc : ContextDesc)
  /-- HOST_INJECT (R299): The host injects a synthetic strike report on any core through BAR0 without the debug conditions. -/
  | hostInject (core : Nat) (region : Nat)
  /-- INVALID_PACKET (R246): A submission packet of an unlisted type or with a non-zero reserved field completes with error status 1 and does nothing else. -/
  | invalidPacket (ctx : Nat) (idx : Nat)
  deriving DecidableEq, Repr

end Sys2Proof
end

