-- ==== Sys2Proof/WellFormed.lean ====
section
/-! DEFINITION. Well-formed instructions: the field values that R33, R34, R36, R39, R43 and R45 and the cards allow.
Decoding refuses a word whose fields break this; R46 then makes it ILLEGAL. What depends on the voice or on the place of
the word in the chain is judged at issue. -/

namespace Sys2Proof

/-- The status numbers that a chapter assigns (R43): Tables 2.2, 6.1, 7.5, 11.3, 19.4, 20.5 and R138. -/
def statusAssigned (n : BitVec 10) : Bool :=
  let k := n.toNat
  decide (k ≤ 0x04) || (decide (0x10 ≤ k) && decide (k ≤ 0x15)) || (decide (0x18 ≤ k) && decide (k ≤ 0x28)) ||
    (decide (0x30 ≤ k) && decide (k ≤ 0x33)) || (decide (0x38 ≤ k) && decide (k ≤ 0x3B))

/-- The operands RDH allows for its class (R42, R58, R33). -/
def rdhOk (d a cls : BitVec 5) : Bool :=
  match cls.toNat with
  | 0 => true
  | 1 => decide (d.toNat < 8) && decide (a.toNat < 8)
  | 2 => decide (d.toNat < 28) && decide (a.toNat < 28)
  | 3 => decide (d.toNat < 8) && decide (a.toNat < 8)
  | 4 => decide (d.toNat < 28) && decide (a = 0)
  | _ => false

/-- A vector destination: codes 28 and 29 are reserved (R39). -/
def vdOk (d : BitVec 5) : Bool := decide (d.toNat ≠ 28) && decide (d.toNat ≠ 29)

/-- A rounding field: codes 5 to 7 are reserved (R45). -/
def rmOk (r : BitVec 3) : Bool := decide (r.toNat ≤ 4)

/-- The voice and width NRD allows (R275): width 4 in an X voice, widths 0 to 3 in A. -/
def nrdOk (v : BitVec 2) (w : BitVec 3) : Bool :=
  match v.toNat with
  | 0 => decide (w.toNat ≤ 3)
  | 1 => decide (w.toNat = 4)
  | 2 => decide (w.toNat = 4)
  | _ => false

/-- Every field of the instruction holds a value its card allows. -/
def wellFormed : Instr → Bool
  | .lui _ _ _ => true
  | .lapc _ _ _ => true
  | .addi _ _ _ _ _ => true
  | .andi _ _ _ _ _ => true
  | .ori _ _ _ _ _ => true
  | .xori _ _ _ _ _ => true
  | .shli _ _ _ _ _ => true
  | .shri _ _ _ _ _ => true
  | .srai _ _ _ _ _ => true
  | .roli _ _ _ _ _ => true
  | .cmpeqi _ _ _ _ _ => true
  | .cmplti _ _ _ _ _ => true
  | .cmpltni _ _ _ _ _ => true
  | .add _ _ _ _ _ => true
  | .sub _ _ _ _ _ => true
  | .and _ _ _ _ _ => true
  | .or _ _ _ _ _ => true
  | .xor _ _ _ _ _ => true
  | .andn _ _ _ _ _ => true
  | .shl _ _ _ _ _ => true
  | .shr _ _ _ _ _ => true
  | .sra _ _ _ _ _ => true
  | .rol _ _ _ _ _ => true
  | .min _ _ _ _ _ => true
  | .max _ _ _ _ _ => true
  | .minn _ _ _ _ _ => true
  | .maxn _ _ _ _ _ => true
  | .mul _ _ _ _ _ => true
  | .mulh _ _ _ _ _ => true
  | .mulhn _ _ _ _ _ => true
  | .clz _ _ _ _ => true
  | .popc _ _ _ _ => true
  | .sext _ _ _ _ w => decide (w ≠ 3)
  | .zext _ _ _ _ w => decide (w ≠ 3)
  | .sel _ _ _ _ _ => true
  | .cmpeq _ _ _ _ _ => true
  | .cmpne _ _ _ _ _ => true
  | .cmplt _ _ _ _ _ => true
  | .cmple _ _ _ _ _ => true
  | .cmpltn _ _ _ _ _ => true
  | .cmplen _ _ _ _ _ => true
  | .pand _ _ _ _ _ => true
  | .por _ _ _ _ _ => true
  | .pxor _ _ _ _ _ => true
  | .pnot _ _ _ _ => true
  | .br _ _ _ => true
  | .brn _ _ _ => true
  | .brt _ _ _ => true
  | .call _ _ _ => true
  | .jr _ _ _ _ => true
  | .jtb _ _ _ _ _ => true
  | .loop _ _ _ imm => decide (imm ≠ 0)
  | .flip _ _ => true
  | .rdh _ _ d a b => rdhOk d a b
  | .spost _ _ _ _ => true
  | .swait _ _ _ => true
  | .bqput _ _ _ _ => true
  | .nop _ _ => true
  | .exit _ _ => true
  | .bqbr _ _ => true
  | .bqbrn _ _ => true
  | .bqbrt _ _ => true
  | .trap _ _ _ => true
  | .eret _ _ => true
  | .srd _ _ _ n => statusAssigned n
  | .swr _ _ _ n => statusAssigned n
  | .brk _ _ => true
  | .lds _ _ d b _ o _ => decide (o = 0) || decide (d ≠ b)
  | .sts _ _ _ _ _ _ _ => true
  | .ldq _ _ _ _ _ _ => true
  | .stq _ _ _ _ _ _ => true
  | .qpush _ _ _ _ => true
  | .qpushSq _ _ _ _ => true
  | .sbind _ _ _ _ q => decide (q.toNat ≤ 5)
  | .sunbind _ _ _ => true
  | .spos _ _ _ _ => true
  | .lbqry _ _ _ _ => true
  | .commit _ _ _ _ => true
  | .vaddI32 _ _ _ d _ _ _ => vdOk d
  | .vsubI32 _ _ _ d _ _ _ => vdOk d
  | .vmulI32 _ _ _ d _ _ _ => vdOk d
  | .vmulhI32 _ _ _ d _ _ _ => vdOk d
  | .vmulhnI32 _ _ _ d _ _ _ => vdOk d
  | .vminI32 _ _ _ d _ _ _ => vdOk d
  | .vmaxI32 _ _ _ d _ _ _ => vdOk d
  | .vminnI32 _ _ _ d _ _ _ => vdOk d
  | .vmaxnI32 _ _ _ d _ _ _ => vdOk d
  | .vandI32 _ _ _ d _ _ _ => vdOk d
  | .vorI32 _ _ _ d _ _ _ => vdOk d
  | .vxorI32 _ _ _ d _ _ _ => vdOk d
  | .vshlI32 _ _ _ d _ _ _ => vdOk d
  | .vshrI32 _ _ _ d _ _ _ => vdOk d
  | .vsraI32 _ _ _ d _ _ _ => vdOk d
  | .vcmpeqI32 _ _ _ _ _ _ _ => true
  | .vcmpltI32 _ _ _ _ _ _ _ => true
  | .vcmpltnI32 _ _ _ _ _ _ _ => true
  | .vsel _ _ _ d _ _ _ => vdOk d
  | .vaddF32 _ _ _ d _ _ _ => vdOk d
  | .vsubF32 _ _ _ d _ _ _ => vdOk d
  | .vmulF32 _ _ _ d _ _ _ => vdOk d
  | .vminF32 _ _ _ d _ _ _ => vdOk d
  | .vmaxF32 _ _ _ d _ _ _ => vdOk d
  | .vabsF32 _ _ _ d _ _ => vdOk d
  | .vnegF32 _ _ _ d _ _ => vdOk d
  | .vcmpeqF32 _ _ _ _ _ _ _ => true
  | .vcmpltF32 _ _ _ _ _ _ _ => true
  | .vcmpleF32 _ _ _ _ _ _ _ => true
  | .vaddF16 _ _ _ d _ _ _ => vdOk d
  | .vsubF16 _ _ _ d _ _ _ => vdOk d
  | .vmulF16 _ _ _ d _ _ _ => vdOk d
  | .vminF16 _ _ _ d _ _ _ => vdOk d
  | .vmaxF16 _ _ _ d _ _ _ => vdOk d
  | .vabsF16 _ _ _ d _ _ => vdOk d
  | .vnegF16 _ _ _ d _ _ => vdOk d
  | .vcmpeqF16 _ _ _ _ _ _ _ => true
  | .vcmpltF16 _ _ _ _ _ _ _ => true
  | .vcmpleF16 _ _ _ _ _ _ _ => true
  | .vaddBf16 _ _ _ d _ _ _ => vdOk d
  | .vsubBf16 _ _ _ d _ _ _ => vdOk d
  | .vmulBf16 _ _ _ d _ _ _ => vdOk d
  | .vminBf16 _ _ _ d _ _ _ => vdOk d
  | .vmaxBf16 _ _ _ d _ _ _ => vdOk d
  | .vabsBf16 _ _ _ d _ _ => vdOk d
  | .vnegBf16 _ _ _ d _ _ => vdOk d
  | .vcmpeqBf16 _ _ _ _ _ _ _ => true
  | .vcmpltBf16 _ _ _ _ _ _ _ => true
  | .vcmpleBf16 _ _ _ _ _ _ _ => true
  | .vfmaF32 _ _ _ d _ _ _ _ => vdOk d
  | .vfmsF32 _ _ _ d _ _ _ _ => vdOk d
  | .vfmaBf16 _ _ _ d _ _ _ _ => vdOk d
  | .vfmaF16 _ _ _ d _ _ _ _ => vdOk d
  | .vcvtF32I32 _ _ _ d _ r _ => vdOk d && rmOk r
  | .vcvtI32F32 _ _ _ d _ r _ => vdOk d && rmOk r
  | .vcvtF32F16 _ _ _ d _ _ _ => vdOk d
  | .vcvtF32Bf16 _ _ _ d _ _ _ => vdOk d
  | .vcvtF16F32 _ _ _ d _ _ r _ => vdOk d && rmOk r
  | .vcvtBf16F32 _ _ _ d _ _ r _ => vdOk d && rmOk r
  | .vcvtF32E4m3 _ _ _ d _ _ _ => vdOk d
  | .vcvtF32E5m2 _ _ _ d _ _ _ => vdOk d
  | .vcvtE4m3F32 _ _ _ d _ _ r _ => vdOk d && rmOk r
  | .vcvtE5m2F32 _ _ _ d _ _ r _ => vdOk d && rmOk r
  | .vpackB4 _ _ _ d _ _ _ => decide (d.toNat < 28)
  | .vunpackB4 _ _ _ d _ _ _ => vdOk d
  | .vperm _ _ _ d _ _ _ => vdOk d
  | .vrot _ _ _ d _ _ _ => vdOk d
  | .vbcast _ _ _ d _ _ => vdOk d
  | .vredadd _ _ _ _ _ _ => true
  | .vredmax _ _ _ _ _ _ => true
  | .viredadd _ _ _ _ _ _ => true
  | .vbspl _ _ _ d _ _ _ => vdOk d
  | .patC _ _ _ _ => true
  | .pisC _ _ _ _ => true
  | .patA _ _ _ _ => true
  | .pisA _ _ _ _ => true
  | .patS _ _ _ _ => true
  | .pisS _ _ _ _ => true
  | .tplC _ _ _ _ _ => true
  | .tplA _ _ _ _ _ => true
  | .tplS _ _ _ _ _ => true
  | .cwait _ _ _ _ => true
  | .cdisc _ _ _ _ => true
  | .crd _ _ _ _ => true
  | .rngset _ _ _ _ _ => true
  | .rngrd _ _ _ _ => true
  | .publish _ _ _ => true
  | .kset _ _ k _ => decide (k.toNat ≤ 5)
  | .krd _ _ _ k => decide (k.toNat ≤ 5)
  | .katcmp _ _ _ _ => true
  | .join _ _ _ _ => true
  | .leave _ _ _ _ => true
  | .grpq _ _ _ _ => true
  | .barr _ _ _ _ _ => true
  | .bwait _ _ _ _ _ => true
  | .barw _ _ _ _ _ => true
  | .finc _ _ _ _ _ => true
  | .fwait _ _ _ _ _ => true
  | .frd _ _ _ _ => true
  | .fset _ _ _ _ _ => true
  | .launch _ _ _ _ => true
  | .launchn _ _ _ _ => true
  | .evset _ _ _ _ => true
  | .evclr _ _ _ _ => true
  | .evwait _ _ _ _ _ => true
  | .enq _ _ _ _ => true
  | .deq _ _ _ _ => true
  | .yield _ _ => true
  | .taskinfo _ _ _ k => decide (k.toNat ≤ 6)
  | .ldg _ _ _ _ _ _ _ => true
  | .stg _ _ _ _ _ _ _ => true
  | .lda _ _ _ _ _ _ _ => true
  | .stl _ _ _ _ _ _ _ => true
  | .ldgq _ _ _ _ _ _ => true
  | .stgq _ _ _ _ _ _ => true
  | .pfg _ _ _ _ _ => true
  | .fence _ _ d _ b => decide (b = 7) || decide (d = 0)
  | .pubg _ _ _ => true
  | .tlbinv _ _ _ _ => true
  | .tlbsync _ _ _ => true
  | .caprd _ _ _ _ => true
  | .ctxsave _ _ _ _ _ => true
  | .ctxrst _ _ _ _ _ => true
  | .sealw _ _ => true
  | .hostsig _ _ _ => true
  | .nwr _ _ _ _ _ => true
  | .nrd _ _ v _ _ w => nrdOk v w
  | .nred _ _ _ _ _ => true
  | .nbar _ _ _ _ => true
  | .memb _ _ _ => true
  | .gsw _ _ _ _ => true
  | .pendingResultLand _ _ _ => true
  | .queueEntryFill _ _ _ => true
  | .landingArrival _ _ _ => true
  | .streamService _ _ => true
  | .slotYield => true
  | .clauseSeal _ _ => true
  | .barrierWaitEnd _ => true
  | .copy _ => true
  | .copyf _ => true
  | .copyfFollowOn _ => true
  | .arrLoadb _ => true
  | .arrMm _ => true
  | .arrSpl _ => true
  | .arrGrad _ => true
  | .arrRefine _ => true
  | .arrDrain _ => true
  | .arrRowout _ => true
  | .scatAdd _ => true
  | .scatMax _ => true
  | .scatterWindow _ => true
  | .commandRetire _ => true
  | .trapEntry _ => true
  | .signal _ => true
  | .preempt => true
  | .coreImageSave => true
  | .threadEnd _ => true
  | .strikeReport _ => true
  | .rollbackRestart => true
  | .timeSliceEnd _ => true
  | .taskPlace _ _ => true
  | .pipelineSpill _ => true
  | .stealRequest _ => true
  | .stealAcknowledge _ => true
  | .stealConfirm _ _ => true
  | .stealTimeout _ => true
  | .schedLost _ => true
  | .clusterSwitchOut _ => true
  | .clusterRestore _ => true
  | .walkComplete _ => true
  | .invalidationAck _ => true
  | .invalidationHoldTimeout _ => true
  | .pubgToggle _ => true
  | .releasePerformed _ => true
  | .contextSaveRequest _ => true
  | .contextRestoreRequest _ => true
  | .submissionTail _ _ => true
  | .completionHead _ _ => true
  | .faultHead _ _ => true
  | .launchPacket _ _ => true
  | .event _ _ => true
  | .evwaitPacket _ _ => true
  | .attach _ _ => true
  | .detach _ _ => true
  | .stop _ _ => true
  | .resume _ _ => true
  | .debugRead _ _ => true
  | .debugWrite _ _ => true
  | .debugBreak _ _ => true
  | .sample _ _ => true
  | .trace _ _ => true
  | .counters _ _ => true
  | .replay _ _ => true
  | .inject _ _ => true
  | .breakpoint _ => true
  | .freezeLimit _ => true
  | .sampleEmit _ => true
  | .replayTimeout _ => true
  | .coreRelease _ => true
  | .powerLimit _ => true
  | .hostCtxsave _ _ _ => true
  | .hostCtxrst _ _ => true
  | .packageIdleRequest => true
  | .bar0RegisterWrite _ _ => true
  | .powerOn => true
  | .reboot _ => true
  | .powerOff => true
  | .getVersion _ => true
  | .getCapabilities _ => true
  | .negotiateAlgorithms _ => true
  | .getDigests _ => true
  | .getCertificate _ => true
  | .challenge _ => true
  | .getMeasurements _ => true
  | .flitReceive _ _ _ => true
  | .linkTrained _ => true
  | .linkRetrainTimeout _ => true
  | .remoteWrite _ => true
  | .readRequest _ => true
  | .readReply _ => true
  | .writeAcknowledgement _ => true
  | .contribution _ => true
  | .collectiveResult _ => true
  | .barrierArrival _ => true
  | .barrierRelease _ => true
  | .cutMarker _ => true
  | .resumeMarker _ => true
  | .sweepReport _ => true
  | .purge _ => true
  | .remoteTimeout _ => true
  | .memberFailure _ _ _ => true
  | .storePerformed _ => true
  | .unsupportedRequest _ => true
  | .contextCreation _ => true
  | .hostInject _ _ => true
  | .invalidPacket _ _ => true

end Sys2Proof
end

