-- ==== Sys2Proof/Decode.lean ====
section
/-! DEFINITION. Decoding a word (R30 to R45), total on any bytes, and after it the encoder from the same tables. A word that
no row matches, or whose fields break well-formedness, decodes to nothing. -/

namespace Sys2Proof

/-- The field of `n` bits at bit `lo` of a word. -/
def fld (w : BitVec 32) (lo n : Nat) : BitVec n := BitVec.ofNat n (w.toNat / 2 ^ lo)

/-- The number in bits [lo + n - 1 : lo] of a word. -/
def fnum (w : BitVec 32) (lo n : Nat) : Nat := w.toNat / 2 ^ lo % 2 ^ n

/-- Major 0x01. -/
def raw01 (w : BitVec 32) : Option Instr :=
  some (.lui (fld w 31 1) (fld w 20 5) (fld w 0 20))

/-- Major 0x02. -/
def raw02 (w : BitVec 32) : Option Instr :=
  some (.lapc (fld w 31 1) (fld w 20 5) (fld w 0 20))

/-- Major 0x03. -/
def raw03 (w : BitVec 32) : Option Instr :=
  some (.addi (fld w 31 1) (fld w 22 3) (fld w 17 5) (fld w 12 5) (fld w 0 12))

/-- Major 0x04. -/
def raw04 (w : BitVec 32) : Option Instr :=
  some (.andi (fld w 31 1) (fld w 22 3) (fld w 17 5) (fld w 12 5) (fld w 0 12))

/-- Major 0x05. -/
def raw05 (w : BitVec 32) : Option Instr :=
  some (.ori (fld w 31 1) (fld w 22 3) (fld w 17 5) (fld w 12 5) (fld w 0 12))

/-- Major 0x06. -/
def raw06 (w : BitVec 32) : Option Instr :=
  some (.xori (fld w 31 1) (fld w 22 3) (fld w 17 5) (fld w 12 5) (fld w 0 12))

/-- Major 0x07. -/
def raw07 (w : BitVec 32) : Option Instr :=
  match fnum w 10 2 with
  | 0x00 => some (.shli (fld w 31 1) (fld w 22 3) (fld w 17 5) (fld w 12 5) (fld w 0 6))
  | 0x01 => some (.shri (fld w 31 1) (fld w 22 3) (fld w 17 5) (fld w 12 5) (fld w 0 6))
  | 0x02 => some (.srai (fld w 31 1) (fld w 22 3) (fld w 17 5) (fld w 12 5) (fld w 0 6))
  | 0x03 => some (.roli (fld w 31 1) (fld w 22 3) (fld w 17 5) (fld w 12 5) (fld w 0 6))
  | _ => none

/-- Major 0x08. -/
def raw08 (w : BitVec 32) : Option Instr :=
  match fnum w 10 2 with
  | 0x00 => some (.cmpeqi (fld w 31 1) (fld w 22 3) (fld w 17 3) (fld w 12 5) (fld w 0 10))
  | 0x01 => some (.cmplti (fld w 31 1) (fld w 22 3) (fld w 17 3) (fld w 12 5) (fld w 0 10))
  | 0x02 => some (.cmpltni (fld w 31 1) (fld w 22 3) (fld w 17 3) (fld w 12 5) (fld w 0 10))
  | _ => none

/-- Major 0x09. -/
def raw09 (w : BitVec 32) : Option Instr :=
  match fnum w 0 7 with
  | 0x00 => some (.add (fld w 31 1) (fld w 22 3) (fld w 17 5) (fld w 12 5) (fld w 7 5))
  | 0x01 => some (.sub (fld w 31 1) (fld w 22 3) (fld w 17 5) (fld w 12 5) (fld w 7 5))
  | 0x02 => some (.and (fld w 31 1) (fld w 22 3) (fld w 17 5) (fld w 12 5) (fld w 7 5))
  | 0x03 => some (.or (fld w 31 1) (fld w 22 3) (fld w 17 5) (fld w 12 5) (fld w 7 5))
  | 0x04 => some (.xor (fld w 31 1) (fld w 22 3) (fld w 17 5) (fld w 12 5) (fld w 7 5))
  | 0x05 => some (.andn (fld w 31 1) (fld w 22 3) (fld w 17 5) (fld w 12 5) (fld w 7 5))
  | 0x06 => some (.shl (fld w 31 1) (fld w 22 3) (fld w 17 5) (fld w 12 5) (fld w 7 5))
  | 0x07 => some (.shr (fld w 31 1) (fld w 22 3) (fld w 17 5) (fld w 12 5) (fld w 7 5))
  | 0x08 => some (.sra (fld w 31 1) (fld w 22 3) (fld w 17 5) (fld w 12 5) (fld w 7 5))
  | 0x09 => some (.rol (fld w 31 1) (fld w 22 3) (fld w 17 5) (fld w 12 5) (fld w 7 5))
  | 0x0A => some (.min (fld w 31 1) (fld w 22 3) (fld w 17 5) (fld w 12 5) (fld w 7 5))
  | 0x0B => some (.max (fld w 31 1) (fld w 22 3) (fld w 17 5) (fld w 12 5) (fld w 7 5))
  | 0x0C => some (.minn (fld w 31 1) (fld w 22 3) (fld w 17 5) (fld w 12 5) (fld w 7 5))
  | 0x0D => some (.maxn (fld w 31 1) (fld w 22 3) (fld w 17 5) (fld w 12 5) (fld w 7 5))
  | 0x0E => some (.mul (fld w 31 1) (fld w 22 3) (fld w 17 5) (fld w 12 5) (fld w 7 5))
  | 0x0F => some (.mulh (fld w 31 1) (fld w 22 3) (fld w 17 5) (fld w 12 5) (fld w 7 5))
  | 0x10 => some (.mulhn (fld w 31 1) (fld w 22 3) (fld w 17 5) (fld w 12 5) (fld w 7 5))
  | 0x11 => some (.clz (fld w 31 1) (fld w 22 3) (fld w 17 5) (fld w 12 5))
  | 0x12 => some (.popc (fld w 31 1) (fld w 22 3) (fld w 17 5) (fld w 12 5))
  | 0x13 => some (.sext (fld w 31 1) (fld w 22 3) (fld w 17 5) (fld w 12 5) (fld w 7 2))
  | 0x14 => some (.zext (fld w 31 1) (fld w 22 3) (fld w 17 5) (fld w 12 5) (fld w 7 2))
  | 0x15 => some (.sel (fld w 31 1) (fld w 22 3) (fld w 17 5) (fld w 12 5) (fld w 7 5))
  | _ => none

/-- Major 0x0A. -/
def raw0A (w : BitVec 32) : Option Instr :=
  match fnum w 0 7 with
  | 0x00 => some (.cmpeq (fld w 31 1) (fld w 22 3) (fld w 17 3) (fld w 12 5) (fld w 7 5))
  | 0x01 => some (.cmpne (fld w 31 1) (fld w 22 3) (fld w 17 3) (fld w 12 5) (fld w 7 5))
  | 0x02 => some (.cmplt (fld w 31 1) (fld w 22 3) (fld w 17 3) (fld w 12 5) (fld w 7 5))
  | 0x03 => some (.cmple (fld w 31 1) (fld w 22 3) (fld w 17 3) (fld w 12 5) (fld w 7 5))
  | 0x04 => some (.cmpltn (fld w 31 1) (fld w 22 3) (fld w 17 3) (fld w 12 5) (fld w 7 5))
  | 0x05 => some (.cmplen (fld w 31 1) (fld w 22 3) (fld w 17 3) (fld w 12 5) (fld w 7 5))
  | 0x08 => some (.pand (fld w 31 1) (fld w 22 3) (fld w 17 3) (fld w 12 3) (fld w 7 3))
  | 0x09 => some (.por (fld w 31 1) (fld w 22 3) (fld w 17 3) (fld w 12 3) (fld w 7 3))
  | 0x0A => some (.pxor (fld w 31 1) (fld w 22 3) (fld w 17 3) (fld w 12 3) (fld w 7 3))
  | 0x0B => some (.pnot (fld w 31 1) (fld w 22 3) (fld w 17 3) (fld w 12 3))
  | _ => none

/-- Major 0x0B. -/
def raw0B (w : BitVec 32) : Option Instr :=
  match fnum w 20 2 with
  | 0x00 => some (.br (fld w 31 1) (fld w 22 3) (fld w 0 20))
  | 0x01 => some (.brn (fld w 31 1) (fld w 22 3) (fld w 0 20))
  | 0x02 => some (.brt (fld w 31 1) (fld w 22 3) (fld w 0 20))
  | _ => none

/-- Major 0x0C. -/
def raw0C (w : BitVec 32) : Option Instr :=
  some (.call (fld w 31 1) (fld w 22 3) (fld w 0 20))

/-- Major 0x0D. -/
def raw0D (w : BitVec 32) : Option Instr :=
  match fnum w 10 2 with
  | 0x00 => some (.jr (fld w 31 1) (fld w 22 3) (fld w 12 5) (fld w 0 10))
  | 0x01 => some (.jtb (fld w 31 1) (fld w 22 3) (fld w 17 5) (fld w 12 5) (fld w 0 10))
  | _ => none

/-- Major 0x0E. -/
def raw0E (w : BitVec 32) : Option Instr :=
  some (.loop (fld w 31 1) (fld w 22 3) (fld w 12 5) (fld w 0 12))

/-- Major 0x0F. -/
def raw0F (w : BitVec 32) : Option Instr :=
  match fnum w 0 7 with
  | 0x00 => some (.flip (fld w 31 1) (fld w 22 3))
  | 0x01 => some (.rdh (fld w 31 1) (fld w 22 3) (fld w 17 5) (fld w 12 5) (fld w 7 5))
  | 0x02 => some (.spost (fld w 31 1) (fld w 22 3) (fld w 17 2) (fld w 7 3))
  | 0x03 => some (.swait (fld w 31 1) (fld w 22 3) (fld w 7 3))
  | 0x04 => some (.bqput (fld w 31 1) (fld w 22 3) (fld w 17 2) (fld w 12 3))
  | 0x05 => some (.nop (fld w 31 1) (fld w 22 3))
  | 0x06 => some (.exit (fld w 31 1) (fld w 22 3))
  | _ => none

/-- Major 0x10. -/
def raw10 (w : BitVec 32) : Option Instr :=
  match fnum w 20 2 with
  | 0x00 => some (.bqbr (fld w 31 1) (fld w 0 20))
  | 0x01 => some (.bqbrn (fld w 31 1) (fld w 0 20))
  | 0x02 => some (.bqbrt (fld w 31 1) (fld w 0 20))
  | _ => none

/-- Major 0x11. -/
def raw11 (w : BitVec 32) : Option Instr :=
  match fnum w 0 7 with
  | 0x00 => some (.trap (fld w 31 1) (fld w 22 3) (fld w 7 10))
  | 0x01 => some (.eret (fld w 31 1) (fld w 22 3))
  | 0x02 => some (.srd (fld w 31 1) (fld w 22 3) (fld w 17 5) (fld w 7 10))
  | 0x03 => some (.swr (fld w 31 1) (fld w 22 3) (fld w 17 5) (fld w 7 10))
  | _ => none

/-- Major 0x3F. -/
def raw3F (w : BitVec 32) : Option Instr :=
  some (.brk (fld w 31 1) (fld w 0 25))

/-- Major 0x14. -/
def raw14 (w : BitVec 32) : Option Instr :=
  some (.lds (fld w 31 1) (fld w 22 3) (fld w 17 5) (fld w 12 5) (fld w 10 2) (fld w 9 1) (fld w 0 9))

/-- Major 0x15. -/
def raw15 (w : BitVec 32) : Option Instr :=
  some (.sts (fld w 31 1) (fld w 22 3) (fld w 17 5) (fld w 12 5) (fld w 10 2) (fld w 9 1) (fld w 0 9))

/-- Major 0x16. -/
def raw16 (w : BitVec 32) : Option Instr :=
  some (.ldq (fld w 31 1) (fld w 22 3) (fld w 17 2) (fld w 12 5) (fld w 9 1) (fld w 0 9))

/-- Major 0x17. -/
def raw17 (w : BitVec 32) : Option Instr :=
  some (.stq (fld w 31 1) (fld w 22 3) (fld w 17 1) (fld w 12 5) (fld w 9 1) (fld w 0 9))

/-- Major 0x18. -/
def raw18 (w : BitVec 32) : Option Instr :=
  match fnum w 0 7 with
  | 0x00 =>
    match fnum w 7 5 with
    | 0 => some (.qpush (fld w 31 1) (fld w 22 3) (fld w 17 2) (fld w 12 5))
    | 1 => some (.qpushSq (fld w 31 1) (fld w 22 3) (fld w 17 2) (fld w 12 1))
    | _ => none
  | 0x01 => some (.sbind (fld w 31 1) (fld w 22 3) (fld w 17 3) (fld w 12 5) (fld w 7 5))
  | 0x02 => some (.sunbind (fld w 31 1) (fld w 22 3) (fld w 17 3))
  | 0x03 => some (.spos (fld w 31 1) (fld w 22 3) (fld w 17 5) (fld w 12 3))
  | 0x04 => some (.lbqry (fld w 31 1) (fld w 22 3) (fld w 17 5) (fld w 12 3))
  | 0x05 => some (.commit (fld w 31 1) (fld w 22 3) (fld w 17 5) (fld w 12 3))
  | _ => none

/-- Major 0x19. -/
def raw19 (w : BitVec 32) : Option Instr :=
  match fnum w 0 5 with
  | 0x00 => some (.vaddI32 (fld w 31 1) (fld w 24 1) (fld w 21 3) (fld w 16 5) (fld w 11 5) (fld w 6 5) (fld w 5 1))
  | 0x01 => some (.vsubI32 (fld w 31 1) (fld w 24 1) (fld w 21 3) (fld w 16 5) (fld w 11 5) (fld w 6 5) (fld w 5 1))
  | 0x02 => some (.vmulI32 (fld w 31 1) (fld w 24 1) (fld w 21 3) (fld w 16 5) (fld w 11 5) (fld w 6 5) (fld w 5 1))
  | 0x03 => some (.vmulhI32 (fld w 31 1) (fld w 24 1) (fld w 21 3) (fld w 16 5) (fld w 11 5) (fld w 6 5) (fld w 5 1))
  | 0x04 => some (.vmulhnI32 (fld w 31 1) (fld w 24 1) (fld w 21 3) (fld w 16 5) (fld w 11 5) (fld w 6 5) (fld w 5 1))
  | 0x05 => some (.vminI32 (fld w 31 1) (fld w 24 1) (fld w 21 3) (fld w 16 5) (fld w 11 5) (fld w 6 5) (fld w 5 1))
  | 0x06 => some (.vmaxI32 (fld w 31 1) (fld w 24 1) (fld w 21 3) (fld w 16 5) (fld w 11 5) (fld w 6 5) (fld w 5 1))
  | 0x07 => some (.vminnI32 (fld w 31 1) (fld w 24 1) (fld w 21 3) (fld w 16 5) (fld w 11 5) (fld w 6 5) (fld w 5 1))
  | 0x08 => some (.vmaxnI32 (fld w 31 1) (fld w 24 1) (fld w 21 3) (fld w 16 5) (fld w 11 5) (fld w 6 5) (fld w 5 1))
  | 0x09 => some (.vandI32 (fld w 31 1) (fld w 24 1) (fld w 21 3) (fld w 16 5) (fld w 11 5) (fld w 6 5) (fld w 5 1))
  | 0x0A => some (.vorI32 (fld w 31 1) (fld w 24 1) (fld w 21 3) (fld w 16 5) (fld w 11 5) (fld w 6 5) (fld w 5 1))
  | 0x0B => some (.vxorI32 (fld w 31 1) (fld w 24 1) (fld w 21 3) (fld w 16 5) (fld w 11 5) (fld w 6 5) (fld w 5 1))
  | 0x0C => some (.vshlI32 (fld w 31 1) (fld w 24 1) (fld w 21 3) (fld w 16 5) (fld w 11 5) (fld w 6 5) (fld w 5 1))
  | 0x0D => some (.vshrI32 (fld w 31 1) (fld w 24 1) (fld w 21 3) (fld w 16 5) (fld w 11 5) (fld w 6 5) (fld w 5 1))
  | 0x0E => some (.vsraI32 (fld w 31 1) (fld w 24 1) (fld w 21 3) (fld w 16 5) (fld w 11 5) (fld w 6 5) (fld w 5 1))
  | 0x0F => some (.vcmpeqI32 (fld w 31 1) (fld w 24 1) (fld w 21 3) (fld w 16 3) (fld w 11 5) (fld w 6 5) (fld w 5 1))
  | 0x10 => some (.vcmpltI32 (fld w 31 1) (fld w 24 1) (fld w 21 3) (fld w 16 3) (fld w 11 5) (fld w 6 5) (fld w 5 1))
  | 0x11 => some (.vcmpltnI32 (fld w 31 1) (fld w 24 1) (fld w 21 3) (fld w 16 3) (fld w 11 5) (fld w 6 5) (fld w 5 1))
  | 0x12 => some (.vsel (fld w 31 1) (fld w 24 1) (fld w 21 3) (fld w 16 5) (fld w 11 5) (fld w 6 5) (fld w 5 1))
  | _ => none

/-- Major 0x1A. -/
def raw1A (w : BitVec 32) : Option Instr :=
  match fnum w 0 5 with
  | 0x00 => some (.vaddF32 (fld w 31 1) (fld w 24 1) (fld w 21 3) (fld w 16 5) (fld w 11 5) (fld w 6 5) (fld w 5 1))
  | 0x01 => some (.vsubF32 (fld w 31 1) (fld w 24 1) (fld w 21 3) (fld w 16 5) (fld w 11 5) (fld w 6 5) (fld w 5 1))
  | 0x02 => some (.vmulF32 (fld w 31 1) (fld w 24 1) (fld w 21 3) (fld w 16 5) (fld w 11 5) (fld w 6 5) (fld w 5 1))
  | 0x03 => some (.vminF32 (fld w 31 1) (fld w 24 1) (fld w 21 3) (fld w 16 5) (fld w 11 5) (fld w 6 5) (fld w 5 1))
  | 0x04 => some (.vmaxF32 (fld w 31 1) (fld w 24 1) (fld w 21 3) (fld w 16 5) (fld w 11 5) (fld w 6 5) (fld w 5 1))
  | 0x05 => some (.vabsF32 (fld w 31 1) (fld w 24 1) (fld w 21 3) (fld w 16 5) (fld w 11 5) (fld w 5 1))
  | 0x06 => some (.vnegF32 (fld w 31 1) (fld w 24 1) (fld w 21 3) (fld w 16 5) (fld w 11 5) (fld w 5 1))
  | 0x07 => some (.vcmpeqF32 (fld w 31 1) (fld w 24 1) (fld w 21 3) (fld w 16 3) (fld w 11 5) (fld w 6 5) (fld w 5 1))
  | 0x08 => some (.vcmpltF32 (fld w 31 1) (fld w 24 1) (fld w 21 3) (fld w 16 3) (fld w 11 5) (fld w 6 5) (fld w 5 1))
  | 0x09 => some (.vcmpleF32 (fld w 31 1) (fld w 24 1) (fld w 21 3) (fld w 16 3) (fld w 11 5) (fld w 6 5) (fld w 5 1))
  | _ => none

/-- Major 0x1B. -/
def raw1B (w : BitVec 32) : Option Instr :=
  match fnum w 0 5 with
  | 0x00 => some (.vaddF16 (fld w 31 1) (fld w 24 1) (fld w 21 3) (fld w 16 5) (fld w 11 5) (fld w 6 5) (fld w 5 1))
  | 0x01 => some (.vsubF16 (fld w 31 1) (fld w 24 1) (fld w 21 3) (fld w 16 5) (fld w 11 5) (fld w 6 5) (fld w 5 1))
  | 0x02 => some (.vmulF16 (fld w 31 1) (fld w 24 1) (fld w 21 3) (fld w 16 5) (fld w 11 5) (fld w 6 5) (fld w 5 1))
  | 0x03 => some (.vminF16 (fld w 31 1) (fld w 24 1) (fld w 21 3) (fld w 16 5) (fld w 11 5) (fld w 6 5) (fld w 5 1))
  | 0x04 => some (.vmaxF16 (fld w 31 1) (fld w 24 1) (fld w 21 3) (fld w 16 5) (fld w 11 5) (fld w 6 5) (fld w 5 1))
  | 0x05 => some (.vabsF16 (fld w 31 1) (fld w 24 1) (fld w 21 3) (fld w 16 5) (fld w 11 5) (fld w 5 1))
  | 0x06 => some (.vnegF16 (fld w 31 1) (fld w 24 1) (fld w 21 3) (fld w 16 5) (fld w 11 5) (fld w 5 1))
  | 0x07 => some (.vcmpeqF16 (fld w 31 1) (fld w 24 1) (fld w 21 3) (fld w 16 3) (fld w 11 5) (fld w 6 5) (fld w 5 1))
  | 0x08 => some (.vcmpltF16 (fld w 31 1) (fld w 24 1) (fld w 21 3) (fld w 16 3) (fld w 11 5) (fld w 6 5) (fld w 5 1))
  | 0x09 => some (.vcmpleF16 (fld w 31 1) (fld w 24 1) (fld w 21 3) (fld w 16 3) (fld w 11 5) (fld w 6 5) (fld w 5 1))
  | _ => none

/-- Major 0x1C. -/
def raw1C (w : BitVec 32) : Option Instr :=
  match fnum w 0 5 with
  | 0x00 => some (.vaddBf16 (fld w 31 1) (fld w 24 1) (fld w 21 3) (fld w 16 5) (fld w 11 5) (fld w 6 5) (fld w 5 1))
  | 0x01 => some (.vsubBf16 (fld w 31 1) (fld w 24 1) (fld w 21 3) (fld w 16 5) (fld w 11 5) (fld w 6 5) (fld w 5 1))
  | 0x02 => some (.vmulBf16 (fld w 31 1) (fld w 24 1) (fld w 21 3) (fld w 16 5) (fld w 11 5) (fld w 6 5) (fld w 5 1))
  | 0x03 => some (.vminBf16 (fld w 31 1) (fld w 24 1) (fld w 21 3) (fld w 16 5) (fld w 11 5) (fld w 6 5) (fld w 5 1))
  | 0x04 => some (.vmaxBf16 (fld w 31 1) (fld w 24 1) (fld w 21 3) (fld w 16 5) (fld w 11 5) (fld w 6 5) (fld w 5 1))
  | 0x05 => some (.vabsBf16 (fld w 31 1) (fld w 24 1) (fld w 21 3) (fld w 16 5) (fld w 11 5) (fld w 5 1))
  | 0x06 => some (.vnegBf16 (fld w 31 1) (fld w 24 1) (fld w 21 3) (fld w 16 5) (fld w 11 5) (fld w 5 1))
  | 0x07 => some (.vcmpeqBf16 (fld w 31 1) (fld w 24 1) (fld w 21 3) (fld w 16 3) (fld w 11 5) (fld w 6 5) (fld w 5 1))
  | 0x08 => some (.vcmpltBf16 (fld w 31 1) (fld w 24 1) (fld w 21 3) (fld w 16 3) (fld w 11 5) (fld w 6 5) (fld w 5 1))
  | 0x09 => some (.vcmpleBf16 (fld w 31 1) (fld w 24 1) (fld w 21 3) (fld w 16 3) (fld w 11 5) (fld w 6 5) (fld w 5 1))
  | _ => none

/-- Major 0x1D. -/
def raw1D (w : BitVec 32) : Option Instr :=
  some (.vfmaF32 (fld w 31 1) (fld w 24 1) (fld w 21 3) (fld w 16 5) (fld w 11 5) (fld w 6 5) (fld w 1 5) (fld w 0 1))

/-- Major 0x1E. -/
def raw1E (w : BitVec 32) : Option Instr :=
  some (.vfmsF32 (fld w 31 1) (fld w 24 1) (fld w 21 3) (fld w 16 5) (fld w 11 5) (fld w 6 5) (fld w 1 5) (fld w 0 1))

/-- Major 0x1F. -/
def raw1F (w : BitVec 32) : Option Instr :=
  some (.vfmaBf16 (fld w 31 1) (fld w 24 1) (fld w 21 3) (fld w 16 5) (fld w 11 5) (fld w 6 5) (fld w 1 5) (fld w 0 1))

/-- Major 0x20. -/
def raw20 (w : BitVec 32) : Option Instr :=
  some (.vfmaF16 (fld w 31 1) (fld w 24 1) (fld w 21 3) (fld w 16 5) (fld w 11 5) (fld w 6 5) (fld w 1 5) (fld w 0 1))

/-- Major 0x21. -/
def raw21 (w : BitVec 32) : Option Instr :=
  match fnum w 0 5 with
  | 0x00 => some (.vcvtF32I32 (fld w 31 1) (fld w 24 1) (fld w 21 3) (fld w 16 5) (fld w 11 5) (fld w 6 3) (fld w 5 1))
  | 0x01 => some (.vcvtI32F32 (fld w 31 1) (fld w 24 1) (fld w 21 3) (fld w 16 5) (fld w 11 5) (fld w 6 3) (fld w 5 1))
  | 0x02 => some (.vcvtF32F16 (fld w 31 1) (fld w 24 1) (fld w 21 3) (fld w 16 5) (fld w 11 5) (fld w 9 1) (fld w 5 1))
  | 0x03 => some (.vcvtF32Bf16 (fld w 31 1) (fld w 24 1) (fld w 21 3) (fld w 16 5) (fld w 11 5) (fld w 9 1) (fld w 5 1))
  | 0x04 => some (.vcvtF16F32 (fld w 31 1) (fld w 24 1) (fld w 21 3) (fld w 16 5) (fld w 11 5) (fld w 9 1) (fld w 6 3) (fld w 5 1))
  | 0x05 => some (.vcvtBf16F32 (fld w 31 1) (fld w 24 1) (fld w 21 3) (fld w 16 5) (fld w 11 5) (fld w 9 1) (fld w 6 3) (fld w 5 1))
  | 0x06 => some (.vcvtF32E4m3 (fld w 31 1) (fld w 24 1) (fld w 21 3) (fld w 16 5) (fld w 11 5) (fld w 9 2) (fld w 5 1))
  | 0x07 => some (.vcvtF32E5m2 (fld w 31 1) (fld w 24 1) (fld w 21 3) (fld w 16 5) (fld w 11 5) (fld w 9 2) (fld w 5 1))
  | 0x08 => some (.vcvtE4m3F32 (fld w 31 1) (fld w 24 1) (fld w 21 3) (fld w 16 5) (fld w 11 5) (fld w 9 2) (fld w 6 3) (fld w 5 1))
  | 0x09 => some (.vcvtE5m2F32 (fld w 31 1) (fld w 24 1) (fld w 21 3) (fld w 16 5) (fld w 11 5) (fld w 9 2) (fld w 6 3) (fld w 5 1))
  | 0x0A => some (.vpackB4 (fld w 31 1) (fld w 24 1) (fld w 21 3) (fld w 16 5) (fld w 11 5) (fld w 9 2) (fld w 5 1))
  | 0x0B => some (.vunpackB4 (fld w 31 1) (fld w 24 1) (fld w 21 3) (fld w 16 5) (fld w 11 5) (fld w 9 2) (fld w 5 1))
  | _ => none

/-- Major 0x22. -/
def raw22 (w : BitVec 32) : Option Instr :=
  match fnum w 0 5 with
  | 0x00 => some (.vperm (fld w 31 1) (fld w 24 1) (fld w 21 3) (fld w 16 5) (fld w 11 5) (fld w 6 5) (fld w 5 1))
  | 0x01 => some (.vrot (fld w 31 1) (fld w 24 1) (fld w 21 3) (fld w 16 5) (fld w 11 5) (fld w 6 5) (fld w 5 1))
  | 0x02 => some (.vbcast (fld w 31 1) (fld w 24 1) (fld w 21 3) (fld w 16 5) (fld w 11 5) (fld w 5 1))
  | 0x03 => some (.vredadd (fld w 31 1) (fld w 24 1) (fld w 21 3) (fld w 16 5) (fld w 11 5) (fld w 5 1))
  | 0x04 => some (.vredmax (fld w 31 1) (fld w 24 1) (fld w 21 3) (fld w 16 5) (fld w 11 5) (fld w 5 1))
  | 0x05 => some (.viredadd (fld w 31 1) (fld w 24 1) (fld w 21 3) (fld w 16 5) (fld w 11 5) (fld w 5 1))
  | 0x06 => some (.vbspl (fld w 31 1) (fld w 24 1) (fld w 21 3) (fld w 16 5) (fld w 11 5) (fld w 6 2) (fld w 5 1))
  | _ => none

/-- Major 0x23. -/
def raw23 (w : BitVec 32) : Option Instr :=
  some (.patC (fld w 31 1) (fld w 19 6) (fld w 16 3) (fld w 0 16))

/-- Major 0x24. -/
def raw24 (w : BitVec 32) : Option Instr :=
  some (.pisC (fld w 31 1) (fld w 19 6) (fld w 16 3) (fld w 0 16))

/-- Major 0x25. -/
def raw25 (w : BitVec 32) : Option Instr :=
  some (.patA (fld w 31 1) (fld w 19 6) (fld w 16 3) (fld w 0 16))

/-- Major 0x26. -/
def raw26 (w : BitVec 32) : Option Instr :=
  some (.pisA (fld w 31 1) (fld w 19 6) (fld w 16 3) (fld w 0 16))

/-- Major 0x27. -/
def raw27 (w : BitVec 32) : Option Instr :=
  some (.patS (fld w 31 1) (fld w 19 6) (fld w 16 3) (fld w 0 16))

/-- Major 0x28. -/
def raw28 (w : BitVec 32) : Option Instr :=
  some (.pisS (fld w 31 1) (fld w 19 6) (fld w 16 3) (fld w 0 16))

/-- Major 0x29. -/
def raw29 (w : BitVec 32) : Option Instr :=
  match fnum w 0 7 with
  | 0x00 =>
    match fnum w 8 4 with
    | 1 => some (.tplC (fld w 31 1) (fld w 22 3) (fld w 17 5) (fld w 12 5) (fld w 7 1))
    | 2 => some (.tplA (fld w 31 1) (fld w 22 3) (fld w 17 5) (fld w 12 5) (fld w 7 1))
    | 3 => some (.tplS (fld w 31 1) (fld w 22 3) (fld w 17 5) (fld w 12 5) (fld w 7 1))
    | _ => none
  | 0x01 => some (.cwait (fld w 31 1) (fld w 22 3) (fld w 17 3) (fld w 7 10))
  | 0x02 => some (.cdisc (fld w 31 1) (fld w 22 3) (fld w 17 3) (fld w 7 10))
  | 0x03 => some (.crd (fld w 31 1) (fld w 22 3) (fld w 17 5) (fld w 12 3))
  | 0x04 => some (.rngset (fld w 31 1) (fld w 22 3) (fld w 17 4) (fld w 12 5) (fld w 7 5))
  | 0x05 => some (.rngrd (fld w 31 1) (fld w 22 3) (fld w 17 5) (fld w 12 4))
  | 0x06 => some (.publish (fld w 31 1) (fld w 22 3) (fld w 17 4))
  | 0x07 => some (.kset (fld w 31 1) (fld w 22 3) (fld w 17 3) (fld w 12 5))
  | 0x08 => some (.krd (fld w 31 1) (fld w 22 3) (fld w 17 5) (fld w 12 3))
  | 0x09 => some (.katcmp (fld w 31 1) (fld w 22 3) (fld w 17 3) (fld w 12 5))
  | _ => none

/-- Major 0x2A. -/
def raw2A (w : BitVec 32) : Option Instr :=
  match fnum w 0 7 with
  | 0x00 => some (.join (fld w 31 1) (fld w 22 3) (fld w 17 5) (fld w 12 5))
  | 0x01 => some (.leave (fld w 31 1) (fld w 22 3) (fld w 17 5) (fld w 12 5))
  | 0x02 => some (.grpq (fld w 31 1) (fld w 22 3) (fld w 17 5) (fld w 12 5))
  | 0x03 => some (.barr (fld w 31 1) (fld w 22 3) (fld w 17 5) (fld w 12 5) (fld w 7 5))
  | 0x04 => some (.bwait (fld w 31 1) (fld w 22 3) (fld w 17 5) (fld w 12 5) (fld w 7 5))
  | 0x05 => some (.barw (fld w 31 1) (fld w 22 3) (fld w 17 5) (fld w 12 5) (fld w 7 5))
  | _ => none

/-- Major 0x2B. -/
def raw2B (w : BitVec 32) : Option Instr :=
  match fnum w 0 7 with
  | 0x00 => some (.finc (fld w 31 1) (fld w 22 3) (fld w 17 5) (fld w 12 5) (fld w 7 5))
  | 0x01 => some (.fwait (fld w 31 1) (fld w 22 3) (fld w 17 5) (fld w 12 5) (fld w 7 5))
  | 0x02 => some (.frd (fld w 31 1) (fld w 22 3) (fld w 17 5) (fld w 12 5))
  | 0x03 => some (.fset (fld w 31 1) (fld w 22 3) (fld w 17 5) (fld w 12 5) (fld w 7 5))
  | _ => none

/-- Major 0x2C. -/
def raw2C (w : BitVec 32) : Option Instr :=
  match fnum w 0 7 with
  | 0x00 => some (.launch (fld w 31 1) (fld w 22 3) (fld w 17 5) (fld w 12 5))
  | 0x01 => some (.launchn (fld w 31 1) (fld w 22 3) (fld w 17 5) (fld w 12 5))
  | 0x02 => some (.evset (fld w 31 1) (fld w 22 3) (fld w 12 5) (fld w 7 5))
  | 0x03 => some (.evclr (fld w 31 1) (fld w 22 3) (fld w 12 5) (fld w 7 5))
  | 0x04 => some (.evwait (fld w 31 1) (fld w 22 3) (fld w 17 5) (fld w 12 5) (fld w 7 5))
  | 0x05 => some (.enq (fld w 31 1) (fld w 22 3) (fld w 17 5) (fld w 12 5))
  | 0x06 => some (.deq (fld w 31 1) (fld w 22 3) (fld w 17 5) (fld w 12 3))
  | 0x07 => some (.yield (fld w 31 1) (fld w 22 3))
  | 0x08 => some (.taskinfo (fld w 31 1) (fld w 22 3) (fld w 17 5) (fld w 7 5))
  | _ => none

/-- Major 0x2D. -/
def raw2D (w : BitVec 32) : Option Instr :=
  some (.ldg (fld w 31 1) (fld w 22 3) (fld w 17 3) (fld w 12 5) (fld w 10 2) (fld w 9 1) (fld w 0 9))

/-- Major 0x2E. -/
def raw2E (w : BitVec 32) : Option Instr :=
  some (.stg (fld w 31 1) (fld w 22 3) (fld w 17 5) (fld w 12 5) (fld w 10 2) (fld w 9 1) (fld w 0 9))

/-- Major 0x2F. -/
def raw2F (w : BitVec 32) : Option Instr :=
  some (.lda (fld w 31 1) (fld w 22 3) (fld w 17 3) (fld w 12 5) (fld w 10 2) (fld w 9 1) (fld w 0 9))

/-- Major 0x30. -/
def raw30 (w : BitVec 32) : Option Instr :=
  some (.stl (fld w 31 1) (fld w 22 3) (fld w 17 5) (fld w 12 5) (fld w 10 2) (fld w 9 1) (fld w 0 9))

/-- Major 0x31. -/
def raw31 (w : BitVec 32) : Option Instr :=
  match fnum w 10 2 with
  | 0x00 => some (.ldgq (fld w 31 1) (fld w 22 3) (fld w 17 2) (fld w 12 5) (fld w 9 1) (fld w 0 9))
  | 0x01 => some (.stgq (fld w 31 1) (fld w 22 3) (fld w 17 1) (fld w 12 5) (fld w 9 1) (fld w 0 9))
  | 0x02 => some (.pfg (fld w 31 1) (fld w 22 3) (fld w 12 5) (fld w 9 1) (fld w 0 9))
  | _ => none

/-- Major 0x32. -/
def raw32 (w : BitVec 32) : Option Instr :=
  match fnum w 0 7 with
  | 0x00 => some (.fence (fld w 31 1) (fld w 22 3) (fld w 17 5) (fld w 12 5) (fld w 7 3))
  | 0x01 => some (.pubg (fld w 31 1) (fld w 22 3) (fld w 12 5))
  | _ => none

/-- Major 0x33. -/
def raw33 (w : BitVec 32) : Option Instr :=
  match fnum w 0 7 with
  | 0x00 => some (.tlbinv (fld w 31 1) (fld w 22 3) (fld w 12 5) (fld w 7 5))
  | 0x01 => some (.tlbsync (fld w 31 1) (fld w 22 3) (fld w 17 5))
  | _ => none

/-- Major 0x34. -/
def raw34 (w : BitVec 32) : Option Instr :=
  match fnum w 0 7 with
  | 0x00 => some (.caprd (fld w 31 1) (fld w 22 3) (fld w 17 5) (fld w 12 5))
  | 0x01 => some (.ctxsave (fld w 31 1) (fld w 22 3) (fld w 17 5) (fld w 12 5) (fld w 7 5))
  | 0x02 => some (.ctxrst (fld w 31 1) (fld w 22 3) (fld w 17 5) (fld w 12 5) (fld w 7 5))
  | 0x03 => some (.sealw (fld w 31 1) (fld w 22 3))
  | 0x04 => some (.hostsig (fld w 31 1) (fld w 22 3) (fld w 12 5))
  | _ => none

/-- Major 0x35. -/
def raw35 (w : BitVec 32) : Option Instr :=
  match fnum w 0 7 with
  | 0x00 => some (.nwr (fld w 31 1) (fld w 22 3) (fld w 17 2) (fld w 12 5) (fld w 7 5))
  | 0x01 => some (.nrd (fld w 31 1) (fld w 22 3) (fld w 20 2) (fld w 17 3) (fld w 12 5) (fld w 7 3))
  | 0x02 => some (.nred (fld w 31 1) (fld w 22 3) (fld w 17 5) (fld w 12 5) (fld w 7 5))
  | 0x03 => some (.nbar (fld w 31 1) (fld w 22 3) (fld w 17 5) (fld w 12 5))
  | 0x04 => some (.memb (fld w 31 1) (fld w 22 3) (fld w 17 5))
  | 0x05 => some (.gsw (fld w 31 1) (fld w 22 3) (fld w 17 5) (fld w 12 5))
  | _ => none

/-- The instruction the tables give a word, before its fields are judged (R41 to R44). -/
def raw (w : BitVec 32) : Option Instr :=
  match fnum w 25 6 with
  | 0x01 => raw01 w
  | 0x02 => raw02 w
  | 0x03 => raw03 w
  | 0x04 => raw04 w
  | 0x05 => raw05 w
  | 0x06 => raw06 w
  | 0x07 => raw07 w
  | 0x08 => raw08 w
  | 0x09 => raw09 w
  | 0x0A => raw0A w
  | 0x0B => raw0B w
  | 0x0C => raw0C w
  | 0x0D => raw0D w
  | 0x0E => raw0E w
  | 0x0F => raw0F w
  | 0x10 => raw10 w
  | 0x11 => raw11 w
  | 0x3F => raw3F w
  | 0x14 => raw14 w
  | 0x15 => raw15 w
  | 0x16 => raw16 w
  | 0x17 => raw17 w
  | 0x18 => raw18 w
  | 0x19 => raw19 w
  | 0x1A => raw1A w
  | 0x1B => raw1B w
  | 0x1C => raw1C w
  | 0x1D => raw1D w
  | 0x1E => raw1E w
  | 0x1F => raw1F w
  | 0x20 => raw20 w
  | 0x21 => raw21 w
  | 0x22 => raw22 w
  | 0x23 => raw23 w
  | 0x24 => raw24 w
  | 0x25 => raw25 w
  | 0x26 => raw26 w
  | 0x27 => raw27 w
  | 0x28 => raw28 w
  | 0x29 => raw29 w
  | 0x2A => raw2A w
  | 0x2B => raw2B w
  | 0x2C => raw2C w
  | 0x2D => raw2D w
  | 0x2E => raw2E w
  | 0x2F => raw2F w
  | 0x30 => raw30 w
  | 0x31 => raw31 w
  | 0x32 => raw32 w
  | 0x33 => raw33 w
  | 0x34 => raw34 w
  | 0x35 => raw35 w
  | _ => none

/-- The word of an instruction, from its row of the table; an event has none. -/
def encode : Instr → Option (BitVec 32)
  | .lui sb d imm =>
    some (BitVec.ofNat 32 (33554432 + sb.toNat * 2147483648 + d.toNat * 1048576 + imm.toNat))
  | .lapc sb d imm =>
    some (BitVec.ofNat 32 (67108864 + sb.toNat * 2147483648 + d.toNat * 1048576 + imm.toNat))
  | .addi sb p d a imm =>
    some (BitVec.ofNat 32 (100663296 + sb.toNat * 2147483648 + p.toNat * 4194304 + d.toNat * 131072 + a.toNat * 4096 + imm.toNat))
  | .andi sb p d a imm =>
    some (BitVec.ofNat 32 (134217728 + sb.toNat * 2147483648 + p.toNat * 4194304 + d.toNat * 131072 + a.toNat * 4096 + imm.toNat))
  | .ori sb p d a imm =>
    some (BitVec.ofNat 32 (167772160 + sb.toNat * 2147483648 + p.toNat * 4194304 + d.toNat * 131072 + a.toNat * 4096 + imm.toNat))
  | .xori sb p d a imm =>
    some (BitVec.ofNat 32 (201326592 + sb.toNat * 2147483648 + p.toNat * 4194304 + d.toNat * 131072 + a.toNat * 4096 + imm.toNat))
  | .shli sb p d a n =>
    some (BitVec.ofNat 32 (234881024 + sb.toNat * 2147483648 + p.toNat * 4194304 + d.toNat * 131072 + a.toNat * 4096 + n.toNat))
  | .shri sb p d a n =>
    some (BitVec.ofNat 32 (234882048 + sb.toNat * 2147483648 + p.toNat * 4194304 + d.toNat * 131072 + a.toNat * 4096 + n.toNat))
  | .srai sb p d a n =>
    some (BitVec.ofNat 32 (234883072 + sb.toNat * 2147483648 + p.toNat * 4194304 + d.toNat * 131072 + a.toNat * 4096 + n.toNat))
  | .roli sb p d a n =>
    some (BitVec.ofNat 32 (234884096 + sb.toNat * 2147483648 + p.toNat * 4194304 + d.toNat * 131072 + a.toNat * 4096 + n.toNat))
  | .cmpeqi sb p d a imm =>
    some (BitVec.ofNat 32 (268435456 + sb.toNat * 2147483648 + p.toNat * 4194304 + d.toNat * 131072 + a.toNat * 4096 + imm.toNat))
  | .cmplti sb p d a imm =>
    some (BitVec.ofNat 32 (268436480 + sb.toNat * 2147483648 + p.toNat * 4194304 + d.toNat * 131072 + a.toNat * 4096 + imm.toNat))
  | .cmpltni sb p d a imm =>
    some (BitVec.ofNat 32 (268437504 + sb.toNat * 2147483648 + p.toNat * 4194304 + d.toNat * 131072 + a.toNat * 4096 + imm.toNat))
  | .add sb p d a b =>
    some (BitVec.ofNat 32 (301989888 + sb.toNat * 2147483648 + p.toNat * 4194304 + d.toNat * 131072 + a.toNat * 4096 + b.toNat * 128))
  | .sub sb p d a b =>
    some (BitVec.ofNat 32 (301989889 + sb.toNat * 2147483648 + p.toNat * 4194304 + d.toNat * 131072 + a.toNat * 4096 + b.toNat * 128))
  | .and sb p d a b =>
    some (BitVec.ofNat 32 (301989890 + sb.toNat * 2147483648 + p.toNat * 4194304 + d.toNat * 131072 + a.toNat * 4096 + b.toNat * 128))
  | .or sb p d a b =>
    some (BitVec.ofNat 32 (301989891 + sb.toNat * 2147483648 + p.toNat * 4194304 + d.toNat * 131072 + a.toNat * 4096 + b.toNat * 128))
  | .xor sb p d a b =>
    some (BitVec.ofNat 32 (301989892 + sb.toNat * 2147483648 + p.toNat * 4194304 + d.toNat * 131072 + a.toNat * 4096 + b.toNat * 128))
  | .andn sb p d a b =>
    some (BitVec.ofNat 32 (301989893 + sb.toNat * 2147483648 + p.toNat * 4194304 + d.toNat * 131072 + a.toNat * 4096 + b.toNat * 128))
  | .shl sb p d a b =>
    some (BitVec.ofNat 32 (301989894 + sb.toNat * 2147483648 + p.toNat * 4194304 + d.toNat * 131072 + a.toNat * 4096 + b.toNat * 128))
  | .shr sb p d a b =>
    some (BitVec.ofNat 32 (301989895 + sb.toNat * 2147483648 + p.toNat * 4194304 + d.toNat * 131072 + a.toNat * 4096 + b.toNat * 128))
  | .sra sb p d a b =>
    some (BitVec.ofNat 32 (301989896 + sb.toNat * 2147483648 + p.toNat * 4194304 + d.toNat * 131072 + a.toNat * 4096 + b.toNat * 128))
  | .rol sb p d a b =>
    some (BitVec.ofNat 32 (301989897 + sb.toNat * 2147483648 + p.toNat * 4194304 + d.toNat * 131072 + a.toNat * 4096 + b.toNat * 128))
  | .min sb p d a b =>
    some (BitVec.ofNat 32 (301989898 + sb.toNat * 2147483648 + p.toNat * 4194304 + d.toNat * 131072 + a.toNat * 4096 + b.toNat * 128))
  | .max sb p d a b =>
    some (BitVec.ofNat 32 (301989899 + sb.toNat * 2147483648 + p.toNat * 4194304 + d.toNat * 131072 + a.toNat * 4096 + b.toNat * 128))
  | .minn sb p d a b =>
    some (BitVec.ofNat 32 (301989900 + sb.toNat * 2147483648 + p.toNat * 4194304 + d.toNat * 131072 + a.toNat * 4096 + b.toNat * 128))
  | .maxn sb p d a b =>
    some (BitVec.ofNat 32 (301989901 + sb.toNat * 2147483648 + p.toNat * 4194304 + d.toNat * 131072 + a.toNat * 4096 + b.toNat * 128))
  | .mul sb p d a b =>
    some (BitVec.ofNat 32 (301989902 + sb.toNat * 2147483648 + p.toNat * 4194304 + d.toNat * 131072 + a.toNat * 4096 + b.toNat * 128))
  | .mulh sb p d a b =>
    some (BitVec.ofNat 32 (301989903 + sb.toNat * 2147483648 + p.toNat * 4194304 + d.toNat * 131072 + a.toNat * 4096 + b.toNat * 128))
  | .mulhn sb p d a b =>
    some (BitVec.ofNat 32 (301989904 + sb.toNat * 2147483648 + p.toNat * 4194304 + d.toNat * 131072 + a.toNat * 4096 + b.toNat * 128))
  | .clz sb p d a =>
    some (BitVec.ofNat 32 (301989905 + sb.toNat * 2147483648 + p.toNat * 4194304 + d.toNat * 131072 + a.toNat * 4096))
  | .popc sb p d a =>
    some (BitVec.ofNat 32 (301989906 + sb.toNat * 2147483648 + p.toNat * 4194304 + d.toNat * 131072 + a.toNat * 4096))
  | .sext sb p d a w =>
    some (BitVec.ofNat 32 (301989907 + sb.toNat * 2147483648 + p.toNat * 4194304 + d.toNat * 131072 + a.toNat * 4096 + w.toNat * 128))
  | .zext sb p d a w =>
    some (BitVec.ofNat 32 (301989908 + sb.toNat * 2147483648 + p.toNat * 4194304 + d.toNat * 131072 + a.toNat * 4096 + w.toNat * 128))
  | .sel sb k d a b =>
    some (BitVec.ofNat 32 (301989909 + sb.toNat * 2147483648 + k.toNat * 4194304 + d.toNat * 131072 + a.toNat * 4096 + b.toNat * 128))
  | .cmpeq sb p d a b =>
    some (BitVec.ofNat 32 (335544320 + sb.toNat * 2147483648 + p.toNat * 4194304 + d.toNat * 131072 + a.toNat * 4096 + b.toNat * 128))
  | .cmpne sb p d a b =>
    some (BitVec.ofNat 32 (335544321 + sb.toNat * 2147483648 + p.toNat * 4194304 + d.toNat * 131072 + a.toNat * 4096 + b.toNat * 128))
  | .cmplt sb p d a b =>
    some (BitVec.ofNat 32 (335544322 + sb.toNat * 2147483648 + p.toNat * 4194304 + d.toNat * 131072 + a.toNat * 4096 + b.toNat * 128))
  | .cmple sb p d a b =>
    some (BitVec.ofNat 32 (335544323 + sb.toNat * 2147483648 + p.toNat * 4194304 + d.toNat * 131072 + a.toNat * 4096 + b.toNat * 128))
  | .cmpltn sb p d a b =>
    some (BitVec.ofNat 32 (335544324 + sb.toNat * 2147483648 + p.toNat * 4194304 + d.toNat * 131072 + a.toNat * 4096 + b.toNat * 128))
  | .cmplen sb p d a b =>
    some (BitVec.ofNat 32 (335544325 + sb.toNat * 2147483648 + p.toNat * 4194304 + d.toNat * 131072 + a.toNat * 4096 + b.toNat * 128))
  | .pand sb p d a b =>
    some (BitVec.ofNat 32 (335544328 + sb.toNat * 2147483648 + p.toNat * 4194304 + d.toNat * 131072 + a.toNat * 4096 + b.toNat * 128))
  | .por sb p d a b =>
    some (BitVec.ofNat 32 (335544329 + sb.toNat * 2147483648 + p.toNat * 4194304 + d.toNat * 131072 + a.toNat * 4096 + b.toNat * 128))
  | .pxor sb p d a b =>
    some (BitVec.ofNat 32 (335544330 + sb.toNat * 2147483648 + p.toNat * 4194304 + d.toNat * 131072 + a.toNat * 4096 + b.toNat * 128))
  | .pnot sb p d a =>
    some (BitVec.ofNat 32 (335544331 + sb.toNat * 2147483648 + p.toNat * 4194304 + d.toNat * 131072 + a.toNat * 4096))
  | .br sb p imm =>
    some (BitVec.ofNat 32 (369098752 + sb.toNat * 2147483648 + p.toNat * 4194304 + imm.toNat))
  | .brn sb p imm =>
    some (BitVec.ofNat 32 (370147328 + sb.toNat * 2147483648 + p.toNat * 4194304 + imm.toNat))
  | .brt sb p imm =>
    some (BitVec.ofNat 32 (371195904 + sb.toNat * 2147483648 + p.toNat * 4194304 + imm.toNat))
  | .call sb p imm =>
    some (BitVec.ofNat 32 (402653184 + sb.toNat * 2147483648 + p.toNat * 4194304 + imm.toNat))
  | .jr sb p a imm =>
    some (BitVec.ofNat 32 (436207616 + sb.toNat * 2147483648 + p.toNat * 4194304 + a.toNat * 4096 + imm.toNat))
  | .jtb sb p d a l =>
    some (BitVec.ofNat 32 (436208640 + sb.toNat * 2147483648 + p.toNat * 4194304 + d.toNat * 131072 + a.toNat * 4096 + l.toNat))
  | .loop sb p a imm =>
    some (BitVec.ofNat 32 (469762048 + sb.toNat * 2147483648 + p.toNat * 4194304 + a.toNat * 4096 + imm.toNat))
  | .flip sb p =>
    some (BitVec.ofNat 32 (503316480 + sb.toNat * 2147483648 + p.toNat * 4194304))
  | .rdh sb p d a b =>
    some (BitVec.ofNat 32 (503316481 + sb.toNat * 2147483648 + p.toNat * 4194304 + d.toNat * 131072 + a.toNat * 4096 + b.toNat * 128))
  | .spost sb p v k =>
    some (BitVec.ofNat 32 (503316482 + sb.toNat * 2147483648 + p.toNat * 4194304 + v.toNat * 131072 + k.toNat * 128))
  | .swait sb p k =>
    some (BitVec.ofNat 32 (503316483 + sb.toNat * 2147483648 + p.toNat * 4194304 + k.toNat * 128))
  | .bqput sb p v k =>
    some (BitVec.ofNat 32 (503316484 + sb.toNat * 2147483648 + p.toNat * 4194304 + v.toNat * 131072 + k.toNat * 4096))
  | .nop sb p =>
    some (BitVec.ofNat 32 (503316485 + sb.toNat * 2147483648 + p.toNat * 4194304))
  | .exit sb p =>
    some (BitVec.ofNat 32 (503316486 + sb.toNat * 2147483648 + p.toNat * 4194304))
  | .bqbr sb imm =>
    some (BitVec.ofNat 32 (536870912 + sb.toNat * 2147483648 + imm.toNat))
  | .bqbrn sb imm =>
    some (BitVec.ofNat 32 (537919488 + sb.toNat * 2147483648 + imm.toNat))
  | .bqbrt sb imm =>
    some (BitVec.ofNat 32 (538968064 + sb.toNat * 2147483648 + imm.toNat))
  | .trap sb p c =>
    some (BitVec.ofNat 32 (570425344 + sb.toNat * 2147483648 + p.toNat * 4194304 + c.toNat * 128))
  | .eret sb p =>
    some (BitVec.ofNat 32 (570425345 + sb.toNat * 2147483648 + p.toNat * 4194304))
  | .srd sb p d n =>
    some (BitVec.ofNat 32 (570425346 + sb.toNat * 2147483648 + p.toNat * 4194304 + d.toNat * 131072 + n.toNat * 128))
  | .swr sb p d n =>
    some (BitVec.ofNat 32 (570425347 + sb.toNat * 2147483648 + p.toNat * 4194304 + d.toNat * 131072 + n.toNat * 128))
  | .brk sb x =>
    some (BitVec.ofNat 32 (2113929216 + sb.toNat * 2147483648 + x.toNat))
  | .lds sb p d b z o imm =>
    some (BitVec.ofNat 32 (671088640 + sb.toNat * 2147483648 + p.toNat * 4194304 + d.toNat * 131072 + b.toNat * 4096 + z.toNat * 1024 + o.toNat * 512 + imm.toNat))
  | .sts sb p d b z o imm =>
    some (BitVec.ofNat 32 (704643072 + sb.toNat * 2147483648 + p.toNat * 4194304 + d.toNat * 131072 + b.toNat * 4096 + z.toNat * 1024 + o.toNat * 512 + imm.toNat))
  | .ldq sb p q b o imm =>
    some (BitVec.ofNat 32 (738197504 + sb.toNat * 2147483648 + p.toNat * 4194304 + q.toNat * 131072 + b.toNat * 4096 + o.toNat * 512 + imm.toNat))
  | .stq sb p q b o imm =>
    some (BitVec.ofNat 32 (771751936 + sb.toNat * 2147483648 + p.toNat * 4194304 + q.toNat * 131072 + b.toNat * 4096 + o.toNat * 512 + imm.toNat))
  | .qpush sb p k a =>
    some (BitVec.ofNat 32 (805306368 + sb.toNat * 2147483648 + p.toNat * 4194304 + k.toNat * 131072 + a.toNat * 4096))
  | .qpushSq sb p k j =>
    some (BitVec.ofNat 32 (805306496 + sb.toNat * 2147483648 + p.toNat * 4194304 + k.toNat * 131072 + j.toNat * 4096))
  | .sbind sb p k a q =>
    some (BitVec.ofNat 32 (805306369 + sb.toNat * 2147483648 + p.toNat * 4194304 + k.toNat * 131072 + a.toNat * 4096 + q.toNat * 128))
  | .sunbind sb p k =>
    some (BitVec.ofNat 32 (805306370 + sb.toNat * 2147483648 + p.toNat * 4194304 + k.toNat * 131072))
  | .spos sb p d k =>
    some (BitVec.ofNat 32 (805306371 + sb.toNat * 2147483648 + p.toNat * 4194304 + d.toNat * 131072 + k.toNat * 4096))
  | .lbqry sb p d k =>
    some (BitVec.ofNat 32 (805306372 + sb.toNat * 2147483648 + p.toNat * 4194304 + d.toNat * 131072 + k.toNat * 4096))
  | .commit sb p d k =>
    some (BitVec.ofNat 32 (805306373 + sb.toNat * 2147483648 + p.toNat * 4194304 + d.toNat * 131072 + k.toNat * 4096))
  | .vaddI32 sb c m d a b q =>
    some (BitVec.ofNat 32 (838860800 + sb.toNat * 2147483648 + c.toNat * 16777216 + m.toNat * 2097152 + d.toNat * 65536 + a.toNat * 2048 + b.toNat * 64 + q.toNat * 32))
  | .vsubI32 sb c m d a b q =>
    some (BitVec.ofNat 32 (838860801 + sb.toNat * 2147483648 + c.toNat * 16777216 + m.toNat * 2097152 + d.toNat * 65536 + a.toNat * 2048 + b.toNat * 64 + q.toNat * 32))
  | .vmulI32 sb c m d a b q =>
    some (BitVec.ofNat 32 (838860802 + sb.toNat * 2147483648 + c.toNat * 16777216 + m.toNat * 2097152 + d.toNat * 65536 + a.toNat * 2048 + b.toNat * 64 + q.toNat * 32))
  | .vmulhI32 sb c m d a b q =>
    some (BitVec.ofNat 32 (838860803 + sb.toNat * 2147483648 + c.toNat * 16777216 + m.toNat * 2097152 + d.toNat * 65536 + a.toNat * 2048 + b.toNat * 64 + q.toNat * 32))
  | .vmulhnI32 sb c m d a b q =>
    some (BitVec.ofNat 32 (838860804 + sb.toNat * 2147483648 + c.toNat * 16777216 + m.toNat * 2097152 + d.toNat * 65536 + a.toNat * 2048 + b.toNat * 64 + q.toNat * 32))
  | .vminI32 sb c m d a b q =>
    some (BitVec.ofNat 32 (838860805 + sb.toNat * 2147483648 + c.toNat * 16777216 + m.toNat * 2097152 + d.toNat * 65536 + a.toNat * 2048 + b.toNat * 64 + q.toNat * 32))
  | .vmaxI32 sb c m d a b q =>
    some (BitVec.ofNat 32 (838860806 + sb.toNat * 2147483648 + c.toNat * 16777216 + m.toNat * 2097152 + d.toNat * 65536 + a.toNat * 2048 + b.toNat * 64 + q.toNat * 32))
  | .vminnI32 sb c m d a b q =>
    some (BitVec.ofNat 32 (838860807 + sb.toNat * 2147483648 + c.toNat * 16777216 + m.toNat * 2097152 + d.toNat * 65536 + a.toNat * 2048 + b.toNat * 64 + q.toNat * 32))
  | .vmaxnI32 sb c m d a b q =>
    some (BitVec.ofNat 32 (838860808 + sb.toNat * 2147483648 + c.toNat * 16777216 + m.toNat * 2097152 + d.toNat * 65536 + a.toNat * 2048 + b.toNat * 64 + q.toNat * 32))
  | .vandI32 sb c m d a b q =>
    some (BitVec.ofNat 32 (838860809 + sb.toNat * 2147483648 + c.toNat * 16777216 + m.toNat * 2097152 + d.toNat * 65536 + a.toNat * 2048 + b.toNat * 64 + q.toNat * 32))
  | .vorI32 sb c m d a b q =>
    some (BitVec.ofNat 32 (838860810 + sb.toNat * 2147483648 + c.toNat * 16777216 + m.toNat * 2097152 + d.toNat * 65536 + a.toNat * 2048 + b.toNat * 64 + q.toNat * 32))
  | .vxorI32 sb c m d a b q =>
    some (BitVec.ofNat 32 (838860811 + sb.toNat * 2147483648 + c.toNat * 16777216 + m.toNat * 2097152 + d.toNat * 65536 + a.toNat * 2048 + b.toNat * 64 + q.toNat * 32))
  | .vshlI32 sb c m d a b q =>
    some (BitVec.ofNat 32 (838860812 + sb.toNat * 2147483648 + c.toNat * 16777216 + m.toNat * 2097152 + d.toNat * 65536 + a.toNat * 2048 + b.toNat * 64 + q.toNat * 32))
  | .vshrI32 sb c m d a b q =>
    some (BitVec.ofNat 32 (838860813 + sb.toNat * 2147483648 + c.toNat * 16777216 + m.toNat * 2097152 + d.toNat * 65536 + a.toNat * 2048 + b.toNat * 64 + q.toNat * 32))
  | .vsraI32 sb c m d a b q =>
    some (BitVec.ofNat 32 (838860814 + sb.toNat * 2147483648 + c.toNat * 16777216 + m.toNat * 2097152 + d.toNat * 65536 + a.toNat * 2048 + b.toNat * 64 + q.toNat * 32))
  | .vcmpeqI32 sb c m d a b q =>
    some (BitVec.ofNat 32 (838860815 + sb.toNat * 2147483648 + c.toNat * 16777216 + m.toNat * 2097152 + d.toNat * 65536 + a.toNat * 2048 + b.toNat * 64 + q.toNat * 32))
  | .vcmpltI32 sb c m d a b q =>
    some (BitVec.ofNat 32 (838860816 + sb.toNat * 2147483648 + c.toNat * 16777216 + m.toNat * 2097152 + d.toNat * 65536 + a.toNat * 2048 + b.toNat * 64 + q.toNat * 32))
  | .vcmpltnI32 sb c m d a b q =>
    some (BitVec.ofNat 32 (838860817 + sb.toNat * 2147483648 + c.toNat * 16777216 + m.toNat * 2097152 + d.toNat * 65536 + a.toNat * 2048 + b.toNat * 64 + q.toNat * 32))
  | .vsel sb c m d a b q =>
    some (BitVec.ofNat 32 (838860818 + sb.toNat * 2147483648 + c.toNat * 16777216 + m.toNat * 2097152 + d.toNat * 65536 + a.toNat * 2048 + b.toNat * 64 + q.toNat * 32))
  | .vaddF32 sb c m d a b q =>
    some (BitVec.ofNat 32 (872415232 + sb.toNat * 2147483648 + c.toNat * 16777216 + m.toNat * 2097152 + d.toNat * 65536 + a.toNat * 2048 + b.toNat * 64 + q.toNat * 32))
  | .vsubF32 sb c m d a b q =>
    some (BitVec.ofNat 32 (872415233 + sb.toNat * 2147483648 + c.toNat * 16777216 + m.toNat * 2097152 + d.toNat * 65536 + a.toNat * 2048 + b.toNat * 64 + q.toNat * 32))
  | .vmulF32 sb c m d a b q =>
    some (BitVec.ofNat 32 (872415234 + sb.toNat * 2147483648 + c.toNat * 16777216 + m.toNat * 2097152 + d.toNat * 65536 + a.toNat * 2048 + b.toNat * 64 + q.toNat * 32))
  | .vminF32 sb c m d a b q =>
    some (BitVec.ofNat 32 (872415235 + sb.toNat * 2147483648 + c.toNat * 16777216 + m.toNat * 2097152 + d.toNat * 65536 + a.toNat * 2048 + b.toNat * 64 + q.toNat * 32))
  | .vmaxF32 sb c m d a b q =>
    some (BitVec.ofNat 32 (872415236 + sb.toNat * 2147483648 + c.toNat * 16777216 + m.toNat * 2097152 + d.toNat * 65536 + a.toNat * 2048 + b.toNat * 64 + q.toNat * 32))
  | .vabsF32 sb c m d a q =>
    some (BitVec.ofNat 32 (872415237 + sb.toNat * 2147483648 + c.toNat * 16777216 + m.toNat * 2097152 + d.toNat * 65536 + a.toNat * 2048 + q.toNat * 32))
  | .vnegF32 sb c m d a q =>
    some (BitVec.ofNat 32 (872415238 + sb.toNat * 2147483648 + c.toNat * 16777216 + m.toNat * 2097152 + d.toNat * 65536 + a.toNat * 2048 + q.toNat * 32))
  | .vcmpeqF32 sb c m d a b q =>
    some (BitVec.ofNat 32 (872415239 + sb.toNat * 2147483648 + c.toNat * 16777216 + m.toNat * 2097152 + d.toNat * 65536 + a.toNat * 2048 + b.toNat * 64 + q.toNat * 32))
  | .vcmpltF32 sb c m d a b q =>
    some (BitVec.ofNat 32 (872415240 + sb.toNat * 2147483648 + c.toNat * 16777216 + m.toNat * 2097152 + d.toNat * 65536 + a.toNat * 2048 + b.toNat * 64 + q.toNat * 32))
  | .vcmpleF32 sb c m d a b q =>
    some (BitVec.ofNat 32 (872415241 + sb.toNat * 2147483648 + c.toNat * 16777216 + m.toNat * 2097152 + d.toNat * 65536 + a.toNat * 2048 + b.toNat * 64 + q.toNat * 32))
  | .vaddF16 sb c m d a b q =>
    some (BitVec.ofNat 32 (905969664 + sb.toNat * 2147483648 + c.toNat * 16777216 + m.toNat * 2097152 + d.toNat * 65536 + a.toNat * 2048 + b.toNat * 64 + q.toNat * 32))
  | .vsubF16 sb c m d a b q =>
    some (BitVec.ofNat 32 (905969665 + sb.toNat * 2147483648 + c.toNat * 16777216 + m.toNat * 2097152 + d.toNat * 65536 + a.toNat * 2048 + b.toNat * 64 + q.toNat * 32))
  | .vmulF16 sb c m d a b q =>
    some (BitVec.ofNat 32 (905969666 + sb.toNat * 2147483648 + c.toNat * 16777216 + m.toNat * 2097152 + d.toNat * 65536 + a.toNat * 2048 + b.toNat * 64 + q.toNat * 32))
  | .vminF16 sb c m d a b q =>
    some (BitVec.ofNat 32 (905969667 + sb.toNat * 2147483648 + c.toNat * 16777216 + m.toNat * 2097152 + d.toNat * 65536 + a.toNat * 2048 + b.toNat * 64 + q.toNat * 32))
  | .vmaxF16 sb c m d a b q =>
    some (BitVec.ofNat 32 (905969668 + sb.toNat * 2147483648 + c.toNat * 16777216 + m.toNat * 2097152 + d.toNat * 65536 + a.toNat * 2048 + b.toNat * 64 + q.toNat * 32))
  | .vabsF16 sb c m d a q =>
    some (BitVec.ofNat 32 (905969669 + sb.toNat * 2147483648 + c.toNat * 16777216 + m.toNat * 2097152 + d.toNat * 65536 + a.toNat * 2048 + q.toNat * 32))
  | .vnegF16 sb c m d a q =>
    some (BitVec.ofNat 32 (905969670 + sb.toNat * 2147483648 + c.toNat * 16777216 + m.toNat * 2097152 + d.toNat * 65536 + a.toNat * 2048 + q.toNat * 32))
  | .vcmpeqF16 sb c m d a b q =>
    some (BitVec.ofNat 32 (905969671 + sb.toNat * 2147483648 + c.toNat * 16777216 + m.toNat * 2097152 + d.toNat * 65536 + a.toNat * 2048 + b.toNat * 64 + q.toNat * 32))
  | .vcmpltF16 sb c m d a b q =>
    some (BitVec.ofNat 32 (905969672 + sb.toNat * 2147483648 + c.toNat * 16777216 + m.toNat * 2097152 + d.toNat * 65536 + a.toNat * 2048 + b.toNat * 64 + q.toNat * 32))
  | .vcmpleF16 sb c m d a b q =>
    some (BitVec.ofNat 32 (905969673 + sb.toNat * 2147483648 + c.toNat * 16777216 + m.toNat * 2097152 + d.toNat * 65536 + a.toNat * 2048 + b.toNat * 64 + q.toNat * 32))
  | .vaddBf16 sb c m d a b q =>
    some (BitVec.ofNat 32 (939524096 + sb.toNat * 2147483648 + c.toNat * 16777216 + m.toNat * 2097152 + d.toNat * 65536 + a.toNat * 2048 + b.toNat * 64 + q.toNat * 32))
  | .vsubBf16 sb c m d a b q =>
    some (BitVec.ofNat 32 (939524097 + sb.toNat * 2147483648 + c.toNat * 16777216 + m.toNat * 2097152 + d.toNat * 65536 + a.toNat * 2048 + b.toNat * 64 + q.toNat * 32))
  | .vmulBf16 sb c m d a b q =>
    some (BitVec.ofNat 32 (939524098 + sb.toNat * 2147483648 + c.toNat * 16777216 + m.toNat * 2097152 + d.toNat * 65536 + a.toNat * 2048 + b.toNat * 64 + q.toNat * 32))
  | .vminBf16 sb c m d a b q =>
    some (BitVec.ofNat 32 (939524099 + sb.toNat * 2147483648 + c.toNat * 16777216 + m.toNat * 2097152 + d.toNat * 65536 + a.toNat * 2048 + b.toNat * 64 + q.toNat * 32))
  | .vmaxBf16 sb c m d a b q =>
    some (BitVec.ofNat 32 (939524100 + sb.toNat * 2147483648 + c.toNat * 16777216 + m.toNat * 2097152 + d.toNat * 65536 + a.toNat * 2048 + b.toNat * 64 + q.toNat * 32))
  | .vabsBf16 sb c m d a q =>
    some (BitVec.ofNat 32 (939524101 + sb.toNat * 2147483648 + c.toNat * 16777216 + m.toNat * 2097152 + d.toNat * 65536 + a.toNat * 2048 + q.toNat * 32))
  | .vnegBf16 sb c m d a q =>
    some (BitVec.ofNat 32 (939524102 + sb.toNat * 2147483648 + c.toNat * 16777216 + m.toNat * 2097152 + d.toNat * 65536 + a.toNat * 2048 + q.toNat * 32))
  | .vcmpeqBf16 sb c m d a b q =>
    some (BitVec.ofNat 32 (939524103 + sb.toNat * 2147483648 + c.toNat * 16777216 + m.toNat * 2097152 + d.toNat * 65536 + a.toNat * 2048 + b.toNat * 64 + q.toNat * 32))
  | .vcmpltBf16 sb c m d a b q =>
    some (BitVec.ofNat 32 (939524104 + sb.toNat * 2147483648 + c.toNat * 16777216 + m.toNat * 2097152 + d.toNat * 65536 + a.toNat * 2048 + b.toNat * 64 + q.toNat * 32))
  | .vcmpleBf16 sb c m d a b q =>
    some (BitVec.ofNat 32 (939524105 + sb.toNat * 2147483648 + c.toNat * 16777216 + m.toNat * 2097152 + d.toNat * 65536 + a.toNat * 2048 + b.toNat * 64 + q.toNat * 32))
  | .vfmaF32 sb c m d a b e q =>
    some (BitVec.ofNat 32 (973078528 + sb.toNat * 2147483648 + c.toNat * 16777216 + m.toNat * 2097152 + d.toNat * 65536 + a.toNat * 2048 + b.toNat * 64 + e.toNat * 2 + q.toNat))
  | .vfmsF32 sb c m d a b e q =>
    some (BitVec.ofNat 32 (1006632960 + sb.toNat * 2147483648 + c.toNat * 16777216 + m.toNat * 2097152 + d.toNat * 65536 + a.toNat * 2048 + b.toNat * 64 + e.toNat * 2 + q.toNat))
  | .vfmaBf16 sb c m d a b e q =>
    some (BitVec.ofNat 32 (1040187392 + sb.toNat * 2147483648 + c.toNat * 16777216 + m.toNat * 2097152 + d.toNat * 65536 + a.toNat * 2048 + b.toNat * 64 + e.toNat * 2 + q.toNat))
  | .vfmaF16 sb c m d a b e q =>
    some (BitVec.ofNat 32 (1073741824 + sb.toNat * 2147483648 + c.toNat * 16777216 + m.toNat * 2097152 + d.toNat * 65536 + a.toNat * 2048 + b.toNat * 64 + e.toNat * 2 + q.toNat))
  | .vcvtF32I32 sb c m d a r q =>
    some (BitVec.ofNat 32 (1107296256 + sb.toNat * 2147483648 + c.toNat * 16777216 + m.toNat * 2097152 + d.toNat * 65536 + a.toNat * 2048 + r.toNat * 64 + q.toNat * 32))
  | .vcvtI32F32 sb c m d a r q =>
    some (BitVec.ofNat 32 (1107296257 + sb.toNat * 2147483648 + c.toNat * 16777216 + m.toNat * 2097152 + d.toNat * 65536 + a.toNat * 2048 + r.toNat * 64 + q.toNat * 32))
  | .vcvtF32F16 sb c m d a x q =>
    some (BitVec.ofNat 32 (1107296258 + sb.toNat * 2147483648 + c.toNat * 16777216 + m.toNat * 2097152 + d.toNat * 65536 + a.toNat * 2048 + x.toNat * 512 + q.toNat * 32))
  | .vcvtF32Bf16 sb c m d a x q =>
    some (BitVec.ofNat 32 (1107296259 + sb.toNat * 2147483648 + c.toNat * 16777216 + m.toNat * 2097152 + d.toNat * 65536 + a.toNat * 2048 + x.toNat * 512 + q.toNat * 32))
  | .vcvtF16F32 sb c m d a x r q =>
    some (BitVec.ofNat 32 (1107296260 + sb.toNat * 2147483648 + c.toNat * 16777216 + m.toNat * 2097152 + d.toNat * 65536 + a.toNat * 2048 + x.toNat * 512 + r.toNat * 64 + q.toNat * 32))
  | .vcvtBf16F32 sb c m d a x r q =>
    some (BitVec.ofNat 32 (1107296261 + sb.toNat * 2147483648 + c.toNat * 16777216 + m.toNat * 2097152 + d.toNat * 65536 + a.toNat * 2048 + x.toNat * 512 + r.toNat * 64 + q.toNat * 32))
  | .vcvtF32E4m3 sb c m d a x q =>
    some (BitVec.ofNat 32 (1107296262 + sb.toNat * 2147483648 + c.toNat * 16777216 + m.toNat * 2097152 + d.toNat * 65536 + a.toNat * 2048 + x.toNat * 512 + q.toNat * 32))
  | .vcvtF32E5m2 sb c m d a x q =>
    some (BitVec.ofNat 32 (1107296263 + sb.toNat * 2147483648 + c.toNat * 16777216 + m.toNat * 2097152 + d.toNat * 65536 + a.toNat * 2048 + x.toNat * 512 + q.toNat * 32))
  | .vcvtE4m3F32 sb c m d a x r q =>
    some (BitVec.ofNat 32 (1107296264 + sb.toNat * 2147483648 + c.toNat * 16777216 + m.toNat * 2097152 + d.toNat * 65536 + a.toNat * 2048 + x.toNat * 512 + r.toNat * 64 + q.toNat * 32))
  | .vcvtE5m2F32 sb c m d a x r q =>
    some (BitVec.ofNat 32 (1107296265 + sb.toNat * 2147483648 + c.toNat * 16777216 + m.toNat * 2097152 + d.toNat * 65536 + a.toNat * 2048 + x.toNat * 512 + r.toNat * 64 + q.toNat * 32))
  | .vpackB4 sb c m d a x q =>
    some (BitVec.ofNat 32 (1107296266 + sb.toNat * 2147483648 + c.toNat * 16777216 + m.toNat * 2097152 + d.toNat * 65536 + a.toNat * 2048 + x.toNat * 512 + q.toNat * 32))
  | .vunpackB4 sb c m d a x q =>
    some (BitVec.ofNat 32 (1107296267 + sb.toNat * 2147483648 + c.toNat * 16777216 + m.toNat * 2097152 + d.toNat * 65536 + a.toNat * 2048 + x.toNat * 512 + q.toNat * 32))
  | .vperm sb c m d a b q =>
    some (BitVec.ofNat 32 (1140850688 + sb.toNat * 2147483648 + c.toNat * 16777216 + m.toNat * 2097152 + d.toNat * 65536 + a.toNat * 2048 + b.toNat * 64 + q.toNat * 32))
  | .vrot sb c m d a b q =>
    some (BitVec.ofNat 32 (1140850689 + sb.toNat * 2147483648 + c.toNat * 16777216 + m.toNat * 2097152 + d.toNat * 65536 + a.toNat * 2048 + b.toNat * 64 + q.toNat * 32))
  | .vbcast sb c m d a q =>
    some (BitVec.ofNat 32 (1140850690 + sb.toNat * 2147483648 + c.toNat * 16777216 + m.toNat * 2097152 + d.toNat * 65536 + a.toNat * 2048 + q.toNat * 32))
  | .vredadd sb c m d a q =>
    some (BitVec.ofNat 32 (1140850691 + sb.toNat * 2147483648 + c.toNat * 16777216 + m.toNat * 2097152 + d.toNat * 65536 + a.toNat * 2048 + q.toNat * 32))
  | .vredmax sb c m d a q =>
    some (BitVec.ofNat 32 (1140850692 + sb.toNat * 2147483648 + c.toNat * 16777216 + m.toNat * 2097152 + d.toNat * 65536 + a.toNat * 2048 + q.toNat * 32))
  | .viredadd sb c m d a q =>
    some (BitVec.ofNat 32 (1140850693 + sb.toNat * 2147483648 + c.toNat * 16777216 + m.toNat * 2097152 + d.toNat * 65536 + a.toNat * 2048 + q.toNat * 32))
  | .vbspl sb c m d a j q =>
    some (BitVec.ofNat 32 (1140850694 + sb.toNat * 2147483648 + c.toNat * 16777216 + m.toNat * 2097152 + d.toNat * 65536 + a.toNat * 2048 + j.toNat * 64 + q.toNat * 32))
  | .patC sb t f v =>
    some (BitVec.ofNat 32 (1174405120 + sb.toNat * 2147483648 + t.toNat * 524288 + f.toNat * 65536 + v.toNat))
  | .pisC sb t f v =>
    some (BitVec.ofNat 32 (1207959552 + sb.toNat * 2147483648 + t.toNat * 524288 + f.toNat * 65536 + v.toNat))
  | .patA sb t f v =>
    some (BitVec.ofNat 32 (1241513984 + sb.toNat * 2147483648 + t.toNat * 524288 + f.toNat * 65536 + v.toNat))
  | .pisA sb t f v =>
    some (BitVec.ofNat 32 (1275068416 + sb.toNat * 2147483648 + t.toNat * 524288 + f.toNat * 65536 + v.toNat))
  | .patS sb t f v =>
    some (BitVec.ofNat 32 (1308622848 + sb.toNat * 2147483648 + t.toNat * 524288 + f.toNat * 65536 + v.toNat))
  | .pisS sb t f v =>
    some (BitVec.ofNat 32 (1342177280 + sb.toNat * 2147483648 + t.toNat * 524288 + f.toNat * 65536 + v.toNat))
  | .tplC sb p t a tlo =>
    some (BitVec.ofNat 32 (1375731968 + sb.toNat * 2147483648 + p.toNat * 4194304 + t.toNat * 131072 + a.toNat * 4096 + tlo.toNat * 128))
  | .tplA sb p t a tlo =>
    some (BitVec.ofNat 32 (1375732224 + sb.toNat * 2147483648 + p.toNat * 4194304 + t.toNat * 131072 + a.toNat * 4096 + tlo.toNat * 128))
  | .tplS sb p t a tlo =>
    some (BitVec.ofNat 32 (1375732480 + sb.toNat * 2147483648 + p.toNat * 4194304 + t.toNat * 131072 + a.toNat * 4096 + tlo.toNat * 128))
  | .cwait sb p k n =>
    some (BitVec.ofNat 32 (1375731713 + sb.toNat * 2147483648 + p.toNat * 4194304 + k.toNat * 131072 + n.toNat * 128))
  | .cdisc sb p k n =>
    some (BitVec.ofNat 32 (1375731714 + sb.toNat * 2147483648 + p.toNat * 4194304 + k.toNat * 131072 + n.toNat * 128))
  | .crd sb p d k =>
    some (BitVec.ofNat 32 (1375731715 + sb.toNat * 2147483648 + p.toNat * 4194304 + d.toNat * 131072 + k.toNat * 4096))
  | .rngset sb p k a b =>
    some (BitVec.ofNat 32 (1375731716 + sb.toNat * 2147483648 + p.toNat * 4194304 + k.toNat * 131072 + a.toNat * 4096 + b.toNat * 128))
  | .rngrd sb p d k =>
    some (BitVec.ofNat 32 (1375731717 + sb.toNat * 2147483648 + p.toNat * 4194304 + d.toNat * 131072 + k.toNat * 4096))
  | .publish sb p k =>
    some (BitVec.ofNat 32 (1375731718 + sb.toNat * 2147483648 + p.toNat * 4194304 + k.toNat * 131072))
  | .kset sb p k a =>
    some (BitVec.ofNat 32 (1375731719 + sb.toNat * 2147483648 + p.toNat * 4194304 + k.toNat * 131072 + a.toNat * 4096))
  | .krd sb p d k =>
    some (BitVec.ofNat 32 (1375731720 + sb.toNat * 2147483648 + p.toNat * 4194304 + d.toNat * 131072 + k.toNat * 4096))
  | .katcmp sb p k a =>
    some (BitVec.ofNat 32 (1375731721 + sb.toNat * 2147483648 + p.toNat * 4194304 + k.toNat * 131072 + a.toNat * 4096))
  | .join sb p d a =>
    some (BitVec.ofNat 32 (1409286144 + sb.toNat * 2147483648 + p.toNat * 4194304 + d.toNat * 131072 + a.toNat * 4096))
  | .leave sb p d a =>
    some (BitVec.ofNat 32 (1409286145 + sb.toNat * 2147483648 + p.toNat * 4194304 + d.toNat * 131072 + a.toNat * 4096))
  | .grpq sb p d a =>
    some (BitVec.ofNat 32 (1409286146 + sb.toNat * 2147483648 + p.toNat * 4194304 + d.toNat * 131072 + a.toNat * 4096))
  | .barr sb p d a b =>
    some (BitVec.ofNat 32 (1409286147 + sb.toNat * 2147483648 + p.toNat * 4194304 + d.toNat * 131072 + a.toNat * 4096 + b.toNat * 128))
  | .bwait sb p d a b =>
    some (BitVec.ofNat 32 (1409286148 + sb.toNat * 2147483648 + p.toNat * 4194304 + d.toNat * 131072 + a.toNat * 4096 + b.toNat * 128))
  | .barw sb p d a b =>
    some (BitVec.ofNat 32 (1409286149 + sb.toNat * 2147483648 + p.toNat * 4194304 + d.toNat * 131072 + a.toNat * 4096 + b.toNat * 128))
  | .finc sb p d a b =>
    some (BitVec.ofNat 32 (1442840576 + sb.toNat * 2147483648 + p.toNat * 4194304 + d.toNat * 131072 + a.toNat * 4096 + b.toNat * 128))
  | .fwait sb p d a b =>
    some (BitVec.ofNat 32 (1442840577 + sb.toNat * 2147483648 + p.toNat * 4194304 + d.toNat * 131072 + a.toNat * 4096 + b.toNat * 128))
  | .frd sb p d a =>
    some (BitVec.ofNat 32 (1442840578 + sb.toNat * 2147483648 + p.toNat * 4194304 + d.toNat * 131072 + a.toNat * 4096))
  | .fset sb p d a b =>
    some (BitVec.ofNat 32 (1442840579 + sb.toNat * 2147483648 + p.toNat * 4194304 + d.toNat * 131072 + a.toNat * 4096 + b.toNat * 128))
  | .launch sb p d a =>
    some (BitVec.ofNat 32 (1476395008 + sb.toNat * 2147483648 + p.toNat * 4194304 + d.toNat * 131072 + a.toNat * 4096))
  | .launchn sb p d a =>
    some (BitVec.ofNat 32 (1476395009 + sb.toNat * 2147483648 + p.toNat * 4194304 + d.toNat * 131072 + a.toNat * 4096))
  | .evset sb p a b =>
    some (BitVec.ofNat 32 (1476395010 + sb.toNat * 2147483648 + p.toNat * 4194304 + a.toNat * 4096 + b.toNat * 128))
  | .evclr sb p a b =>
    some (BitVec.ofNat 32 (1476395011 + sb.toNat * 2147483648 + p.toNat * 4194304 + a.toNat * 4096 + b.toNat * 128))
  | .evwait sb p d a b =>
    some (BitVec.ofNat 32 (1476395012 + sb.toNat * 2147483648 + p.toNat * 4194304 + d.toNat * 131072 + a.toNat * 4096 + b.toNat * 128))
  | .enq sb p d a =>
    some (BitVec.ofNat 32 (1476395013 + sb.toNat * 2147483648 + p.toNat * 4194304 + d.toNat * 131072 + a.toNat * 4096))
  | .deq sb p d k =>
    some (BitVec.ofNat 32 (1476395014 + sb.toNat * 2147483648 + p.toNat * 4194304 + d.toNat * 131072 + k.toNat * 4096))
  | .yield sb p =>
    some (BitVec.ofNat 32 (1476395015 + sb.toNat * 2147483648 + p.toNat * 4194304))
  | .taskinfo sb p d k =>
    some (BitVec.ofNat 32 (1476395016 + sb.toNat * 2147483648 + p.toNat * 4194304 + d.toNat * 131072 + k.toNat * 128))
  | .ldg sb p k b z o imm =>
    some (BitVec.ofNat 32 (1509949440 + sb.toNat * 2147483648 + p.toNat * 4194304 + k.toNat * 131072 + b.toNat * 4096 + z.toNat * 1024 + o.toNat * 512 + imm.toNat))
  | .stg sb p d b z o imm =>
    some (BitVec.ofNat 32 (1543503872 + sb.toNat * 2147483648 + p.toNat * 4194304 + d.toNat * 131072 + b.toNat * 4096 + z.toNat * 1024 + o.toNat * 512 + imm.toNat))
  | .lda sb p k b z o imm =>
    some (BitVec.ofNat 32 (1577058304 + sb.toNat * 2147483648 + p.toNat * 4194304 + k.toNat * 131072 + b.toNat * 4096 + z.toNat * 1024 + o.toNat * 512 + imm.toNat))
  | .stl sb p d b z o imm =>
    some (BitVec.ofNat 32 (1610612736 + sb.toNat * 2147483648 + p.toNat * 4194304 + d.toNat * 131072 + b.toNat * 4096 + z.toNat * 1024 + o.toNat * 512 + imm.toNat))
  | .ldgq sb p q b o imm =>
    some (BitVec.ofNat 32 (1644167168 + sb.toNat * 2147483648 + p.toNat * 4194304 + q.toNat * 131072 + b.toNat * 4096 + o.toNat * 512 + imm.toNat))
  | .stgq sb p q b o imm =>
    some (BitVec.ofNat 32 (1644168192 + sb.toNat * 2147483648 + p.toNat * 4194304 + q.toNat * 131072 + b.toNat * 4096 + o.toNat * 512 + imm.toNat))
  | .pfg sb p b o imm =>
    some (BitVec.ofNat 32 (1644169216 + sb.toNat * 2147483648 + p.toNat * 4194304 + b.toNat * 4096 + o.toNat * 512 + imm.toNat))
  | .fence sb p d a b =>
    some (BitVec.ofNat 32 (1677721600 + sb.toNat * 2147483648 + p.toNat * 4194304 + d.toNat * 131072 + a.toNat * 4096 + b.toNat * 128))
  | .pubg sb p a =>
    some (BitVec.ofNat 32 (1677721601 + sb.toNat * 2147483648 + p.toNat * 4194304 + a.toNat * 4096))
  | .tlbinv sb p a b =>
    some (BitVec.ofNat 32 (1711276032 + sb.toNat * 2147483648 + p.toNat * 4194304 + a.toNat * 4096 + b.toNat * 128))
  | .tlbsync sb p d =>
    some (BitVec.ofNat 32 (1711276033 + sb.toNat * 2147483648 + p.toNat * 4194304 + d.toNat * 131072))
  | .caprd sb p d a =>
    some (BitVec.ofNat 32 (1744830464 + sb.toNat * 2147483648 + p.toNat * 4194304 + d.toNat * 131072 + a.toNat * 4096))
  | .ctxsave sb p d a b =>
    some (BitVec.ofNat 32 (1744830465 + sb.toNat * 2147483648 + p.toNat * 4194304 + d.toNat * 131072 + a.toNat * 4096 + b.toNat * 128))
  | .ctxrst sb p d a b =>
    some (BitVec.ofNat 32 (1744830466 + sb.toNat * 2147483648 + p.toNat * 4194304 + d.toNat * 131072 + a.toNat * 4096 + b.toNat * 128))
  | .sealw sb p =>
    some (BitVec.ofNat 32 (1744830467 + sb.toNat * 2147483648 + p.toNat * 4194304))
  | .hostsig sb p a =>
    some (BitVec.ofNat 32 (1744830468 + sb.toNat * 2147483648 + p.toNat * 4194304 + a.toNat * 4096))
  | .nwr sb p w a b =>
    some (BitVec.ofNat 32 (1778384896 + sb.toNat * 2147483648 + p.toNat * 4194304 + w.toNat * 131072 + a.toNat * 4096 + b.toNat * 128))
  | .nrd sb p v k a w =>
    some (BitVec.ofNat 32 (1778384897 + sb.toNat * 2147483648 + p.toNat * 4194304 + v.toNat * 1048576 + k.toNat * 131072 + a.toNat * 4096 + w.toNat * 128))
  | .nred sb p d a b =>
    some (BitVec.ofNat 32 (1778384898 + sb.toNat * 2147483648 + p.toNat * 4194304 + d.toNat * 131072 + a.toNat * 4096 + b.toNat * 128))
  | .nbar sb p d a =>
    some (BitVec.ofNat 32 (1778384899 + sb.toNat * 2147483648 + p.toNat * 4194304 + d.toNat * 131072 + a.toNat * 4096))
  | .memb sb p d =>
    some (BitVec.ofNat 32 (1778384900 + sb.toNat * 2147483648 + p.toNat * 4194304 + d.toNat * 131072))
  | .gsw sb p d a =>
    some (BitVec.ofNat 32 (1778384901 + sb.toNat * 2147483648 + p.toNat * 4194304 + d.toNat * 131072 + a.toNat * 4096))
  | .pendingResultLand _ _ _ => none
  | .queueEntryFill _ _ _ => none
  | .landingArrival _ _ _ => none
  | .streamService _ _ => none
  | .slotYield => none
  | .clauseSeal _ _ => none
  | .barrierWaitEnd _ => none
  | .copy _ => none
  | .copyf _ => none
  | .copyfFollowOn _ => none
  | .arrLoadb _ => none
  | .arrMm _ => none
  | .arrSpl _ => none
  | .arrGrad _ => none
  | .arrRefine _ => none
  | .arrDrain _ => none
  | .arrRowout _ => none
  | .scatAdd _ => none
  | .scatMax _ => none
  | .scatterWindow _ => none
  | .commandRetire _ => none
  | .trapEntry _ => none
  | .signal _ => none
  | .preempt => none
  | .coreImageSave => none
  | .threadEnd _ => none
  | .strikeReport _ => none
  | .rollbackRestart => none
  | .timeSliceEnd _ => none
  | .taskPlace _ _ => none
  | .pipelineSpill _ => none
  | .stealRequest _ => none
  | .stealAcknowledge _ => none
  | .stealConfirm _ _ => none
  | .stealTimeout _ => none
  | .schedLost _ => none
  | .clusterSwitchOut _ => none
  | .clusterRestore _ => none
  | .walkComplete _ => none
  | .invalidationAck _ => none
  | .invalidationHoldTimeout _ => none
  | .pubgToggle _ => none
  | .releasePerformed _ => none
  | .contextSaveRequest _ => none
  | .contextRestoreRequest _ => none
  | .submissionTail _ _ => none
  | .completionHead _ _ => none
  | .faultHead _ _ => none
  | .launchPacket _ _ => none
  | .event _ _ => none
  | .evwaitPacket _ _ => none
  | .attach _ _ => none
  | .detach _ _ => none
  | .stop _ _ => none
  | .resume _ _ => none
  | .debugRead _ _ => none
  | .debugWrite _ _ => none
  | .debugBreak _ _ => none
  | .sample _ _ => none
  | .trace _ _ => none
  | .counters _ _ => none
  | .replay _ _ => none
  | .inject _ _ => none
  | .breakpoint _ => none
  | .freezeLimit _ => none
  | .sampleEmit _ => none
  | .replayTimeout _ => none
  | .coreRelease _ => none
  | .powerLimit _ => none
  | .hostCtxsave _ _ _ => none
  | .hostCtxrst _ _ => none
  | .packageIdleRequest => none
  | .bar0RegisterWrite _ _ => none
  | .powerOn => none
  | .reboot _ => none
  | .powerOff => none
  | .getVersion _ => none
  | .getCapabilities _ => none
  | .negotiateAlgorithms _ => none
  | .getDigests _ => none
  | .getCertificate _ => none
  | .challenge _ => none
  | .getMeasurements _ => none
  | .flitReceive _ _ _ => none
  | .linkTrained _ => none
  | .linkRetrainTimeout _ => none
  | .remoteWrite _ => none
  | .readRequest _ => none
  | .readReply _ => none
  | .writeAcknowledgement _ => none
  | .contribution _ => none
  | .collectiveResult _ => none
  | .barrierArrival _ => none
  | .barrierRelease _ => none
  | .cutMarker _ => none
  | .resumeMarker _ => none
  | .sweepReport _ => none
  | .purge _ => none
  | .remoteTimeout _ => none
  | .memberFailure _ _ _ => none
  | .storePerformed _ => none
  | .unsupportedRequest _ => none
  | .contextCreation _ => none
  | .hostInject _ _ => none
  | .invalidPacket _ _ => none

/-- The instruction a word stands for: the row's reading, if its reserved bits are zero (R34) and its fields are well formed. -/
def decodeWord (w : BitVec 32) : Option Instr :=
  match raw w with
  | none => none
  | some i => if encode i = some w ∧ wellFormed i = true then some i else none

/-- The instruction at the head of a list of bytes, little-endian (R3, R30). -/
def decodeBytes (bs : List Byte) : Option Instr :=
  if bs.length < 4 then none else decodeWord (BitVec.ofNat 32 (Machine.leNat (bs.take 4)))

/-- The instruction the decoder reads from a word numbered as the opcode table numbers it. -/
def decodeTableWord (nbits w : Nat) : Option Instr :=
  if nbits = 0 then none else decodeBytes (Machine.leBytes 4 w)

end Sys2Proof
end

