-- ==== Sys2Proof/Config.lean ====
section
/-! DEFINITION. The free values: what the spec leaves to the implementation or gives no value for. None has a body, so
nothing about one can be proved. Each is applied to State.fresh, which every use advances, or to the operands it depends on. -/

namespace Sys2Proof.Config

/-- A 64-bit value the spec does not give. -/
opaque freeWord : Nat → BitVec 64

/-- A byte the spec does not give. -/
opaque freeByte : Nat → BitVec 8

/-- Which entry a full TLB replaces (R219): an index, taken modulo the TLB's size. -/
opaque tlbVictim : Nat → Nat

/-- The firmware version of the verified firmware (Table 17.6). -/
opaque firmwareVersion : BitVec 32

/-- What the images of the clusters behind this one take in a context image with so many clusters, in 4 KiB units: they depend on what
those clusters hold. -/
opaque imageUnits : Nat → Nat

/-- How the boot of a first-stage image ends (R251): 0 well, else one more than its failing step less 1, and the reason. The
signatures, the module's flash and the training of memory and links decide it. -/
opaque bootStep : List (BitVec 8) → Nat

opaque bootReason : List (BitVec 8) → Nat

/-- What an SPDM reply holds that the spec does not give: signatures, nonces, fields SPDM 1.3 itself lays out (R253). -/
opaque spdmBody : Nat → List (BitVec 8)

/-- SHA-512 (R253), which the spec names and does not define. -/
opaque sha512 : List (BitVec 8) → List (BitVec 8)

/-- The remaining firmware (R251), and the signed record of a configuration (R254), as bytes: measured items 2 and 3. -/
opaque firmwareImage : List (BitVec 8)

opaque signedRecord : List (BitVec 8) → List (BitVec 8)

/-- The response of the hub die's physically unclonable function, the key derivation from it, the public half of a P-521 key pair, and
the certificate that Skasko signed for a public half, with its chain (R252). -/
opaque pufResponse : List (BitVec 8)

opaque deriveKey : List (BitVec 8) → List (BitVec 8)

opaque publicHalf : List (BitVec 8) → List (BitVec 8)

opaque certificateChain : List (BitVec 8) → List (BitVec 8)

/-- Where a cluster's image begins in a context image behind those of the lower clusters of its set, in 4 KiB units (Table 17.7): their
sizes depend on what they declare. -/
opaque imageStart : BitVec 24 → Nat → Nat

/-- Where a core's image begins behind those of lower cores in a cluster image (Table 12.9), by the core's place in the cluster: their
sizes depend on what runs there. -/
opaque coreStart : Nat → Nat

/-- What the bytes of an image that another package wrote do not tell of its records and threads, by State.fresh and item (Tables 11.6
and 12.9 give no tags and no snapshots). -/
opaque imageField : Nat → Nat → BitVec 1024

/-- The cores outside the model on which threads of a context image were resident, by the image's header (R261). -/
opaque imageCores : List (BitVec 8) → BitVec 192

/-- A bank refuses an engine a slot's command runs on, by cycle and 64 × slot + 32 × (0 array engine, 1 copy engine) + bank (R295): when
engines reach a bank is not architectural (R94, R316). -/
opaque engineRefused : Nat → Nat → Bool

/-- The bank of a core fault record where the storage is not core scratchpad, and its ECC syndrome (Table 11.4). -/
opaque faultBank : Nat → BitVec 8

/-- The storage code of a core fault record for a datum out of a router's buffer, which Table 11.4 does not list (log entry 59). -/
opaque routerStorage : Nat → Nat

opaque eccSyndrome : Nat → BitVec 16

/-- The credits a flit returns (R270), by State.fresh and the flit's sequence number. -/
opaque creditReturn : Nat → Nat → BitVec 8

/-- A thread of a context can run on a core outside this cluster's one (R282). -/
opaque runsElsewhere : Nat → Bool

end Sys2Proof.Config
end

