-- ==== Sys2Proof/Machine/VoiceState.lean ====
section
/-! DEFINITION. The state of one voice: registers with two faces, the pending-result file, the next-address chain, the
hardware loops and the voice status registers (R12 to R24). -/

namespace Sys2Proof.Machine

/-- The faced registers of a voice (Table 2.1). -/
inductive RegId where
  | s (n : Nat)
  | p (n : Nat)
  | v (n : Nat)
  | m (n : Nat)
  | vflags
  deriving DecidableEq, Repr

/-- One face of every faced register (R12). A register without an entry holds zero. -/
structure Faces where
  s : SMap 64
  p : SMap 1
  v : SMap 1024
  m : SMap 32
  vflags : BitVec 320
  deriving DecidableEq, Repr

/-- An entry of the pending-result file (R24). `due` is the cycle in which the value lands; the remaining latency of
R24 is counted from it. `age` is the cycle in which the word issued. -/
structure Pending where
  reg : RegId
  val : Row
  due : Nat
  age : Nat
  deriving DecidableEq, Repr

/-- Flags a vector word raised that enter RAISED at the word's latency (R15). -/
structure FlagDue where
  flags : BitVec 320
  due : Nat
  deriving DecidableEq, Repr

/-- An entry of the next-address chain (R21). -/
structure ChainEntry where
  addr : VAddr
  nul : Bool
  deriving DecidableEq, Repr

/-- A hardware-loop level (R22). -/
structure Level where
  first : VAddr
  last : VAddr
  count : Word
  deriving DecidableEq, Repr

/-- The words that issue first and end later: what the voice waits for after the exchange of faces (R57). -/
inductive WaitKind where
  | sealw
  | barw
  | fence
  | tlbsync
  | memb
  | nred
  | nbar
  | ctxsave
  | ctxrst
  | gsw
  | eret
  | flip
  deriving DecidableEq, Repr

/-- NRED, NBAR, MEMB and GSW wait on the fabric: the waits a record tells of (R286). -/
def WaitKind.fabric : WaitKind → Bool
  | .memb => true
  | .nred => true
  | .nbar => true
  | .gsw => true
  | _ => false

/-- A wait in progress: the clause the word closed, the items still awaited, the result register, a result so far,
the cycle from which the wait may end, and the address of the word that waits. -/
structure Wait where
  kind : WaitKind
  clause : Nat
  items : List Nat
  dest : Nat
  val : Word
  start : Nat
  pc : VAddr
  deriving DecidableEq, Repr

/-- The wait is one of the fabric's (R286). -/
def fabricWait : Option Wait → Bool
  | some w => w.kind.fabric
  | none => false

/-- The state of a voice that a seal image saves (R176): faces, W bits, pending results, RAISED, the chain, LC, the voice
status registers. -/
structure VoiceArch where
  vis : Faces
  hid : Faces
  /-- W bits: s i at i, p i at 32 + i, m i at 40 + i, VFLAGS at 48, v i at 64 + i (Table 2.5 +0x090 and +0x098). -/
  w : BitVec 128
  raised : BitVec 320
  flagq : List FlagDue
  pending : List Pending
  na0 : ChainEntry
  na1 : ChainEntry
  na2 : ChainEntry
  /-- Delay slots still to issue (R21); a LOOP may not stand in one (R22). -/
  dslots : Nat
  /-- LC, innermost level first. -/
  lc : List Level
  clash : Bool
  clashtrap : Bool
  clashcnt : BitVec 32
  vrnd : BitVec 2
  exited : Bool
  /-- VSTAT.HANDLER of voice A (Table 2.2). -/
  handler : Bool
  /-- Bit [0] of +0x3070: a fabric wait is resumed, not begun again (R286). -/
  resumed : Bool
  wait : Option Wait
  deriving DecidableEq, Repr

/-- What a voice did in the cycle (R49, R79). -/
inductive Mark where
  | idle
  | issued
  | stalled
  | yielding
  | trapped
  deriving DecidableEq, Repr

/-- A voice: its state, its seal image with the boundary cycle the image was taken at (R176), its open clause, whether
a word has issued since the last boundary (R71), the bank reads still to be served (R85), the pair whose first word has issued
while its second waits for it (R40), and the voice's place in thread order: by voice, the number below which that voice's words
precede the next word of this one (R235). -/
structure Voice where
  a : VoiceArch
  img : VoiceArch
  imgAt : Nat
  clause : Nat
  issued : Bool
  replay : Option (List Nat)
  second : Bool
  mark : Mark
  ord : List Nat
  deriving DecidableEq, Repr

def Faces.zero : Faces := ⟨[], [], [], [], 0⟩

/-- A voice at thread creation (R17) with its chain from `entry`. -/
def VoiceArch.fresh (entry : VAddr) : VoiceArch :=
  { vis := Faces.zero, hid := Faces.zero, w := 0, raised := 0, flagq := [], pending := [],
    na0 := ⟨entry, false⟩, na1 := ⟨entry + 4, false⟩, na2 := ⟨entry + 8, false⟩, dslots := 0, lc := [],
    clash := false, clashtrap := true, clashcnt := 0, vrnd := 0, exited := false, handler := false, resumed := false, wait := none }

/-- The four voices of a slot that holds no thread. -/
def Voice.empty : Voice :=
  { a := VoiceArch.fresh 0, img := VoiceArch.fresh 0, imgAt := 0, clause := 0, issued := false, replay := none,
    second := false, mark := .idle, ord := [] }

end Sys2Proof.Machine
end

