-- ==== Sys2Proof/Machine/CoreState.lean ====
section
/-! DEFINITION. The state of a core: two thread slots with their queues, landing slots, counters, templates, rings and
streams (R78 to R102), the engines and the array (R139 to R169), and the seal machinery (R171 to R186). -/

namespace Sys2Proof.Machine

/-! ### State with a sealed copy (R177) -/

/-- A queue entry: its number, the clause that pushed it and the pushing voice's place in thread order (R235). The value arrives
under the number (R87). -/
structure QEntry where
  id : Nat
  clause : Nat
  ord : List Nat
  deriving DecidableEq, Repr

/-- A `bq` entry: the outcome, the clause that pushed it, the cycle of the push (R67) and the pushing voice's place in thread
order (R235). -/
structure BqEntry where
  val : Bool
  clause : Nat
  at_ : Nat
  ord : List Nat
  deriving DecidableEq, Repr

/-- A sync bit that is set: the clause of its post, the cycle from which it is seen (R65) and the posting voice's place in
thread order (R235). -/
structure SyncBit where
  clause : Nat
  at_ : Nat
  ord : List Nat
  deriving DecidableEq, Repr

/-- A landing slot (R95): FREE with the data it last held, or the number of the transfer that is BUSY or FULL. -/
inductive Landing where
  | free (data : Row)
  | xfer (id : Nat) (clause : Nat)
  deriving DecidableEq, Repr

/-- What a transfer brought: data, the address of poisoned data in it, and the error COMMIT meets (R223). -/
structure Arrival where
  data : Row
  poison : Option Nat
  fault : Option Nat
  deriving DecidableEq, Repr

/-- An arrival counted on a completion counter: the command, the cause and address of a faulted one (R147), its cycle. -/
structure CcArrival where
  cmd : Nat
  fault : Option (Nat × Nat)
  at_ : Nat
  deriving DecidableEq, Repr

/-- A completion counter (R102, R146): counted arrivals oldest first, the absorb count, commands outstanding, EXC. -/
structure Counter where
  arrived : List CcArrival
  absorb : Nat
  out : Nat
  exc : Bool
  deriving DecidableEq, Repr

/-- A ring (R98, R148): base, log2 of size and of row size, head and tail in rows. `lgsize = 0` is unconfigured. -/
structure Ring where
  base : Nat
  lgsize : Nat
  lgrow : Nat
  head : Nat
  tail : Nat
  deriving DecidableEq, Repr

/-- A stream table entry (R89 to R92, R128). `reserved` counts elements in entries already reserved (fill) or popped
(drain), `done` those filled or written. -/
structure Stream where
  queue : Nat
  base : Nat
  n0 : Nat
  n1 : Nat
  n2 : Nat
  n3 : Nat
  d0 : Int
  d1 : Int
  d2 : Int
  d3 : Int
  esz : Nat
  decode : Nat
  drain : Bool
  bound : Bool
  finished : Bool
  reserved : Nat
  done : Nat
  /-- An aperture base as SBIND resolved it: the base the elements are read at (R91). -/
  resolved : Nat
  deriving DecidableEq, Repr

/-- The state of a slot that keeps a sealed copy. -/
structure Ctl where
  /-- Key 8 * voice + k; 64 more for a post that meets a set bit and has not arrived (R65). -/
  sync : KMap SyncBit
  bqA : List BqEntry
  bqX0 : List BqEntry
  bqX1 : List BqEntry
  bqC : List BqEntry
  /-- Queues lq0, lq1, lq2, lq3, sq0, sq1, xq, yq under keys 0 to 7, oldest entry first. -/
  queues : KMap (List QEntry)
  /-- Landing slots, key 8 * voice + k. -/
  landing : KMap Landing
  counters : KMap Counter
  digests : KMap Word
  /-- Templates, key 64 * engine + k with engine 1 copy, 2 array, 3 scatter. -/
  templates : SMap 1024
  rings : KMap Ring
  streams : KMap Stream
  syncset : BitVec 4
  /-- BANKLOSS, NFADDR, PMSEL and PMC by status number. -/
  status : SMap 64
  /-- The clause that last wrote a core status register, by number (Table 11.1). -/
  statusBy : KMap Nat
  deriving DecidableEq, Repr

/-- The knot registers of the array (Table 9.7). -/
structure Knots where
  klo : BitVec 32
  kstep : BitVec 32
  kinv : BitVec 32
  kg : BitVec 4
  kmode : BitVec 2
  koog : BitVec 32
  deriving DecidableEq, Repr

/-- Both slots' state with sealed copies, and the knot registers the slots share. -/
structure CoreCtl where
  c0 : Ctl
  c1 : Ctl
  knots : Knots
  deriving DecidableEq, Repr

/-- One change of such state, journalled with its clause so that a rollback can withdraw it (R177, R179). -/
inductive Change where
  | syncSet (key : Nat) (b : SyncBit)
  | syncClr (key now : Nat)
  | bqPush (v : VoiceId) (e : BqEntry)
  | bqPop (v : VoiceId)
  | qPush (q : Nat) (e : QEntry)
  | qPop (q : Nat)
  | landSet (key : Nat) (l : Landing)
  | ccIssue (k : Nat)
  | ccArrive (k : Nat) (a : CcArrival) (exc : Bool)
  | ccTake (k n : Nat)
  | ccDiscard (k n : Nat)
  | ccExcClr (k : Nat)
  | digSet (k : Nat) (h : Word)
  | digClr (k : Nat)
  | tmplSet (key : Nat) (t : BitVec 1024)
  | ringSet (k : Nat) (r : Ring)
  | ringHead (k n : Nat)
  | ringTail (k n : Nat)
  | streamSet (k : Nat) (s : Stream)
  | syncsetSet (x : BitVec 4) (clause : Nat)
  | statusSet (n : Nat) (x : Word) (clause : Nat)
  | statusAdd (n m : Nat) (w : Nat)
  | knotSet (k : Nat) (x : BitVec 32)
  | koogAdd (n : Nat)
  deriving DecidableEq, Repr

/-- A journalled change: `clause = 0` stands for state that is sealed at once. -/
structure JEntry where
  slot : Nat
  clause : Nat
  ch : Change
  deriving DecidableEq, Repr

/-! ### Clauses and held effects (R172 to R175) -/

/-- An effect that leaves the core when its clause seals (Table 11.2). -/
inductive Effect where
  /-- Bytes stored to core scratchpad (`dev = false`) or to a physical address. `kind` is the page's KIND (0 SO, 1 RC,
  2 UN), `rel` marks an STL (R224), `cmd` is the command of an engine write, 0 for a store; `va` and `asid`
  say which translation it used (R232). -/
  | store (dev : Bool) (addr : Nat) (data : List Byte) (kind : Nat) (rel : Bool) (cmd va asid : Nat)
  | publish (k : Nat)
  | ringTail (k n : Nat)
  | pubg (k : Nat)
  | evset (win : Nat) (mask : Word)
  | evclr (win : Nat) (mask : Word)
  | finc (target : Nat) (x : BitVec 32)
  | fset (target : Nat) (x : BitVec 32)
  | join (g : Nat)
  | leave (g : Nat)
  | arrive (g k : Nat)
  | enq (pipe stage : Nat) (item : Word)
  /-- An item DEQ has popped, retained until the seal (R189). -/
  | deq (pipe stage : Nat) (item : Word)
  | launch (r0 r1 r2 r3 : Word) (reserve : Bool)
  | tlbinv (start len asid : Nat) (all : Bool) (id : Nat)
  | hostsig (x : Word) (scyc : Word)
  | nwr (id fa : Nat) (data : Word) (width : Nat)
  | nrd (id fa width : Nat)
  | nred (id grp : Nat) (mean : Bool) (val : BitVec 32)
  | nbar (id grp : Nat)
  | ctxsave (id ctx : Nat) (area : Word) (units : Nat)
  | ctxrst (id ctx : Nat) (area : Word)
  | gsw (id job : Nat) (inward : Bool)
  deriving DecidableEq, Repr

/-- A held effect, its number in issue order, and its place in thread order: by voice, the number below which that voice's words
precede it (R235). -/
structure Held where
  id : Nat
  slot : Nat
  clause : Nat
  ord : List Nat
  eff : Effect
  deriving DecidableEq, Repr

/-- A clause that has not sealed: open (`boundary = none`) or closed at its boundary cycle with the voice state of the
boundary (R172, R176). `deps` are the clauses it depends on (Table 11.1). -/
structure Clause where
  id : Nat
  slot : Nat
  voice : VoiceId
  boundary : Option Nat
  deps : List Nat
  img : VoiceArch
  stop : Bool
  deriving DecidableEq, Repr

/-- An effect released at its clause's seal and not yet performed for observers outside the core (R315, R236). `slot` is its owner: a
slot whose thread has released it, 2 a thread that is over, from 4 on the ticket of a thread off its slot. -/
structure OutItem where
  id : Nat
  slot : Nat
  clause : Nat
  ctx : Nat
  tag : BitVec 16
  /-- The member bit of the thread that released it. -/
  mem : Nat
  ord : List Nat
  eff : Effect
  deriving DecidableEq, Repr

/-! ### Threads -/

/-- What the scheduler knows of a resident task (R197 to R200). -/
structure Thread where
  ctx : Nat
  tag : BitVec 16
  smode : Bool
  rec0 : Word
  rec1 : Word
  rec2 : Word
  rec3 : Word
  /-- Window base and length in 4 KiB units (Table 6.1). -/
  winBase : Nat
  winLen : Nat
  tokens : Nat
  killable : Bool
  reserve : Nat
  stage : BitVec 16
  estimate : Word
  placedAt : Nat
  sliceAt : Nat
  sliceIssued : Bool
  deriving DecidableEq, Repr

/-- Publish-buffer table entry (R96). -/
structure PubBuf where
  half0 : Nat
  half1 : Nat
  len : Nat
  front : Bool
  valid : Bool
  deriving DecidableEq, Repr

/-- The stop of a thread that trap entry completes (R25 to R29). -/
structure Stop where
  cause : Nat
  voice : Option VoiceId
  async : Bool
  fault : Word
  word : BitVec 32
  scyc : Word
  at_ : Nat
  nested : Bool
  /-- Clauses closed before the stop, whose seals trap entry waits for (R26). -/
  waitFor : List Nat
  /-- Clauses the stop closed. -/
  closed : List Nat
  deriving DecidableEq, Repr

/-- What a slot is doing. -/
inductive RunState where
  | empty
  | running
  | stopping
  | handler
  /-- All voices have exited; the thread ends when its clauses have sealed and its commands have retired (R71). -/
  | ended
  /-- Ended by an unhandled trap or a purge: the slot is freed when its commands have retired (R28). -/
  | dead
  /-- Stopped for PREEMPT, a checkpoint or a kill until the core image is saved (R186, R206). -/
  | preempted
  deriving DecidableEq, Repr

/-- A value on its way into a reserved queue entry (R87). -/
structure Fill where
  id : Nat
  q : Nat
  val : Row
  due : Nat
  deriving DecidableEq, Repr

/-- A value that has filled a queue entry, with the address of poisoned data in it. -/
structure QVal where
  val : Row
  poison : Option Nat
  deriving DecidableEq, Repr

/-- A transfer outstanding into a landing slot or queue entry (R95, R222, R225, R276): the value it will bring where the
read has been performed, the physical intervals it reads, the ordering kind, and whether it acquires. -/
structure Xfer where
  id : Nat
  voice : VoiceId
  lb : Nat
  /-- The queue for LDGQ; 8 for a landing slot. -/
  queue : Nat
  val : Option Row
  parts : List (Nat × Nat)
  va : Nat
  len : Nat
  kind : Nat
  fmt : Nat
  geo : Nat
  acquire : Bool
  remote : Bool
  fault : Option Nat
  clause : Nat
  /-- The load's place in thread order (R235). -/
  ord : List Nat
  deriving DecidableEq, Repr

/-- A fence in force (R226): later accesses to its scopes wait for the clauses up to `clause` to seal and their accesses to
be performed, for the transfers and for the commands listed. -/
structure Fence where
  mask : BitVec 5
  forA : Bool
  clauses : List Nat
  xfers : List Nat
  cmds : List Nat
  clause : Nat
  deriving DecidableEq, Repr

/-- One of the two thread slots (R78). -/
structure Slot where
  run : RunState
  thread : Thread
  vA : Voice
  vX0 : Voice
  vX1 : Voice
  vC : Voice
  stop : Option Stop
  /-- The stop whose handler voice A runs; a later stop does not replace it (R28, R180). -/
  hstop : Option Stop
  /-- The TRAP instruction that issued in this cycle: voice and word (R72). -/
  trapped : Option (VoiceId × BitVec 32)
  /-- Address of the record the handler returns through (R74), and the delay-slot counts of the record's voices. -/
  recAddr : Nat
  /-- Address of the record of a thread that an unhandled trap has ended; 2^64 and the first bad address where it is lost (R28,
  R29). -/
  deadRec : Nat
  recSlots : List Nat
  /-- The waits the stopped voices were in (R286): ERET restores those of the fabric where bit [0] of +0x3070 is set, the
  others as they were. -/
  recWaits : List (Option Wait)
  /-- Voice A had exited before the stop (Table 2.5 +0x3070). -/
  recExited : Bool
  /-- The first cycle in which the thread may issue: N of R28. -/
  startAt : Nat
  /-- A SIGNAL held by R317, and stop events that stay pending over a rollback (R180). -/
  heldSignal : Bool
  pendSignal : Bool
  pendPreempt : Bool
  /-- The stop that is pending or taken is a YIELD's (R205). -/
  yielded : Bool
  scyc : Word
  rollcnt : BitVec 32
  undoovf : BitVec 32
  pubs : KMap PubBuf
  fills : List Fill
  qvals : KMap QVal
  xfers : List Xfer
  arrived : KMap Arrival
  fences : List Fence
  /-- Debug: armed breakpoint, sample period, injection, per slot (R290, R292, R299). -/
  breakAt : Option Word
  samplePeriod : Word
  /-- The cycle after that of the last sample. -/
  sampledAt : Nat
  /-- Injections accepted and not yet reported (R299): schedule cycle and region. -/
  injectAt : List (Word × Nat)
  /-- The stop-image addresses the debugger last gave for the slot (R288): in any packet, and in a BREAK. -/
  imageAt : Nat
  breakImage : Nat
  deriving DecidableEq, Repr

/-! ### Engines and array (R99, R153) -/

/-- One engine command (R143): the template copy, the snapshot of the knot registers, and where it stands. -/
inductive CmdState where
  | queued
  | running
  | done
  deriving DecidableEq, Repr

/-- Prior content of array state that a rollback restores (R178), from a key on. -/
inductive Undo where
  | cells (key : Nat) (old : List (BitVec 16))
  | headers (key : Nat) (old : List (BitVec 16))
  | tile (key : Nat) (old : List (BitVec 32))
  | grads (key : Nat) (old : List (BitVec 32))
  | affine (old : List (BitVec 32))
  deriving DecidableEq, Repr

structure Cmd where
  id : Nat
  slot : Nat
  clause : Nat
  ctx : Nat
  smode : Bool
  /-- 1 copy, 2 array, 3 scatter. -/
  eng : Nat
  tmpl : BitVec 1024
  knots : Knots
  /-- The follow-on's template copy, for COPYF (R152). -/
  follow : Option (BitVec 1024)
  followDone : Bool
  /-- Scratchpad operands after aperture resolution (R96): source and destination base. -/
  src : Nat
  dst : Nat
  issuedAt : Nat
  startAt : Nat
  /-- The cycle in which it retired, and its number in issue order. -/
  endAt : Nat
  endId : Nat
  state : CmdState
  retired : Bool
  fault : Option (Nat × Nat)
  exc : Bool
  oog : Nat
  digest : Option Word
  undo : List Undo
  charge : Nat
  noUndo : Bool
  /-- Ring rows produced, for the tail advance, and consumed. -/
  rowsOut : Nat
  rowsIn : Nat
  /-- Scatter windows still to merge: pairs of word offset and value, 64 to a window (R196). -/
  windows : List (List (Nat × BitVec 32))
  /-- Windows merged so far. -/
  merged : Nat
  /-- Pages this command translated through, for R232. -/
  pages : List Nat
  deriving DecidableEq, Repr

/-- A translation held by a TLB (R219). -/
structure TlbEntry where
  asid : Nat
  va : Nat
  size : Nat
  pa : Nat
  leaf : BitVec 64
  deriving DecidableEq, Repr

/-- A core frozen by a debug stop (R288): since when, the stop image of each stopped slot, the regions of the strike
reports held. -/
structure Freeze where
  since : Nat
  slot0 : Option Nat
  slot1 : Option Nat
  heldReports : List Nat
  deriving DecidableEq, Repr

/-- The entry a stream is being served: the element it begins at, and the bank lines the unit still has to reach (R94). -/
structure StreamTurn where
  at_ : Nat
  lines : List Nat
  deriving DecidableEq, Repr

/-- A remote write of a thread (R276): its fabric address, width, and whether it has completed, and how (R277). -/
structure Nwr where
  id : Nat
  slot : Nat
  fa : Nat
  width : Nat
  sent : Bool
  finished : Bool
  failed : Bool
  /-- The clause in which a MEMB reported its failure, 0 while none has. -/
  reportedBy : Nat
  deriving DecidableEq, Repr

/-- A thread that has left its slot after a copy or array command of a sealed clause of it executed: the slot it was in, its context
and tag, its schedule cycle, and the last cycle of such a command (R181, R184). -/
structure PastRun where
  slot : Nat
  ctx : Nat
  tag : BitVec 16
  scyc : Word
  at_ : Nat
  deriving DecidableEq, Repr

/-- A core (R78). -/
structure Core where
  /-- Global core index 0 to 191. -/
  index : Nat
  slot0 : Slot
  slot1 : Slot
  /-- The slot that issues (R79), and the cycle before which no slot issues after a switch. -/
  act : Nat
  deadTill : Nat
  ctl : CoreCtl
  sctl : CoreCtl
  journal : List JEntry
  clauses : List Clause
  held : List Held
  out : List OutItem
  /-- Core scratchpad, 4 MiB (R93), and its poisoned 64-byte lines (R182). -/
  spad : Memory
  poison : List Nat
  /-- Poisoned rows of the other storage (R182): the storage code of Table 11.4 (4 cell store, 5 tile, 6 gradient store, 7
  template; 8 an entry of the hold-back buffer) and the row, template key or line. -/
  badRows : List (Nat × Nat)
  cells : SMap 16
  headers : SMap 16
  grads : SMap 32
  tiles : SMap 32
  /-- Row affine table: scale of row r at 2 * r, its offset at 2 * r + 1, each held XOR its reset value (R153). -/
  affine : SMap 32
  cmds : List Cmd
  /-- Numbers for clauses, queue entries, transfers and commands. -/
  nextId : Nat
  /-- The first cycle in which a voice may issue after a rollback (R179). -/
  rollAt : Option Nat
  /-- By slot, the last cycle in which a copy or array command of a sealed clause executed (R181). -/
  sealedExec : KMap Nat
  /-- The same of threads that have left their slots. -/
  pastRuns : List PastRun
  /-- Fences of threads that have left their slots, by owner, while what those have released is not performed (R226). -/
  oldFences : List (Nat × Fence)
  /-- Held device writes that a load of their thread has returned or passed over: their order among the writes of their bytes is
  fixed (R234, R242). -/
  placed : List Nat
  fenced : Bool
  /-- Bytes of undo data in use of the 192 KiB (R178). -/
  undoUsed : Nat
  dtlb : List TlbEntry
  itlbA : List TlbEntry
  itlbX0 : List TlbEntry
  itlbX1 : List TlbEntry
  itlbC : List TlbEntry
  freeze : Option Freeze
  /-- Bank matrix and its LOOPEXIT snapshot (R295). -/
  bankMatrix : SMap 32
  bankSnap : SMap 32
  /-- Scratchpad banks (R94): the entries streams are being served, key 8 * slot + stream; successive cycles in which a bank has
  refused a slot's stream unit, key 32 * slot + bank; the slot whose stream a bank served last. -/
  streamTurns : KMap StreamTurn
  streamWait : KMap Nat
  streamLast : KMap Nat
  nwrs : List Nwr
  /-- Commands whose arrival a CWAIT has consumed and whose writes are not all performed, with that CWAIT's number (R242). -/
  consumed : List (Nat × Nat)
  /-- What the counters have counted in this cycle, key 4 * slot + counter (R296). -/
  counted : KMap Nat
  deriving DecidableEq, Repr

def Ctl.fresh : Ctl :=
  { sync := [], bqA := [], bqX0 := [], bqX1 := [], bqC := [], queues := [], landing := [], counters := [],
    digests := [], templates := [], rings := [], streams := [], syncset := 0xF, status := [], statusBy := [] }

/-- Knot registers at reset (Table 9.7). -/
def Knots.reset : Knots := ⟨0, 0x3F800000, 0x3F800000, 1, 0, 0⟩

def CoreCtl.fresh : CoreCtl := ⟨Ctl.fresh, Ctl.fresh, Knots.reset⟩

def Thread.none : Thread :=
  { ctx := 0, tag := 0, smode := false, rec0 := 0, rec1 := 0, rec2 := 0, rec3 := 0, winBase := 0, winLen := 0,
    tokens := 0, killable := false, reserve := 0, stage := 0, estimate := 0, placedAt := 0, sliceAt := 0,
    sliceIssued := false }

def Slot.empty : Slot :=
  { run := .empty, thread := Thread.none, vA := Voice.empty, vX0 := Voice.empty, vX1 := Voice.empty,
    vC := Voice.empty, stop := none, hstop := none, trapped := none, recAddr := 0, deadRec := 0, recSlots := [], recWaits := [], recExited := false, startAt := 0, heldSignal := false,
    pendSignal := false, pendPreempt := false, yielded := false, scyc := 0, rollcnt := 0, undoovf := 0, pubs := [], fills := [],
    qvals := [], xfers := [], arrived := [], fences := [], breakAt := none, samplePeriod := 0, sampledAt := 0, injectAt := [], imageAt := 0, breakImage := 0 }

def Core.fresh (index : Nat) : Core :=
  { index := index, slot0 := Slot.empty, slot1 := Slot.empty, act := 0, deadTill := 0, ctl := CoreCtl.fresh,
    sctl := CoreCtl.fresh, journal := [], clauses := [], held := [], out := [], spad := [], poison := [], badRows := [], cells := [],
    headers := [], grads := [], tiles := [], affine := [], cmds := [], nextId := 1, rollAt := none,
    sealedExec := [], pastRuns := [], oldFences := [], placed := [], fenced := false, undoUsed := 0, dtlb := [], itlbA := [], itlbX0 := [], itlbX1 := [],
    itlbC := [], freeze := none, bankMatrix := [], bankSnap := [], streamTurns := [], streamWait := [], streamLast := [], nwrs := [], consumed := [], counted := [] }

end Sys2Proof.Machine
end

