-- ==== Sys2Proof/Machine/ClusterState.lean ====
section
/-! DEFINITION. The state of the cluster: flags, groups, barriers, the scheduler's queues and pipelines (R187 to R210). -/

namespace Sys2Proof.Machine

/-- A wait on a barrier phase: the member bit that waits, the phase, and the cycle the wait ends at once the phase has
completed (R191). -/
structure BarrierWait where
  mem : Nat
  phase : BitVec 32
  endAt : Option Nat
  deriving DecidableEq, Repr

/-- A barrier (R191): its group while bound, the phase P, and the masks E, A and A′. -/
structure Barrier where
  bound : Bool
  group : BitVec 8
  phase : BitVec 32
  e : BitVec 16
  a : BitVec 16
  early : BitVec 16
  waits : List BarrierWait
  deriving DecidableEq, Repr

/-- A core image in memory: its address, the slot its thread was in, its bytes as they were written, by place (R186). -/
structure StoredImage where
  addr : Nat
  slot : Nat
  bytes : Memory
  deriving DecidableEq, Repr

/-- A thread taken off its slot with all that the core context image holds of it (R186, Table 11.6). -/
structure SavedThread where
  slot : Slot
  ctl : Ctl
  window : Memory
  cmds : List Cmd
  cells : SMap 16
  headers : SMap 16
  grads : SMap 32
  tiles : SMap 32
  affine : SMap 32
  knots : Knots
  /-- What stands for the slot in the remote writes the thread has sent, while it is off its slot (R277, R286). -/
  ticket : Nat
  /-- The groups it is a member of, and its arrivals: barrier, in A, in A′ (R193). -/
  groups : List Nat
  arrivals : List (Nat × Bool × Bool)
  /-- Its core image in the save area that the scheduler named. -/
  stored : Option StoredImage
  deriving DecidableEq, Repr

/-- A record of the launch and ready queues (Table 12.5) with its tag, its context, its host packet and, for a
checkpointed task, its image. -/
structure QRec where
  ctx : Nat
  tag : BitVec 16
  r0 : Word
  r1 : Word
  r2 : Word
  r3 : Word
  /-- The record still counts as a pending member of its group (R193). -/
  pendingGroup : Bool
  saved : Option SavedThread
  /-- The host packet the record came in: 0 for a record of LAUNCH. -/
  packet : Nat
  deriving DecidableEq, Repr

/-- A record a victim has sent to a thief, or a thief has received (R208). -/
structure Transit where
  seq : Nat
  peer : Nat
  entry : QRec
  sentAt : Nat
  deriving DecidableEq, Repr

/-- A task on a slot of another core of the cluster: its member bit, its record, the reserve it has left, its pipeline and stage, and
whether it waits on an ENQ to a full queue (R193, R199, R201, R204). -/
structure AwayTask where
  mem : Nat
  entry : QRec
  reserve : Nat
  stage : Option (Nat × Nat)
  waits : Bool
  deriving DecidableEq, Repr

/-- The queue of a pipeline stage: items oldest first, those in the overflow area behind them (R201, R204). -/
structure PipeQueue where
  items : List Word
  overflow : List Word
  deriving DecidableEq, Repr

/-- The array's state (R153). -/
structure ArrayState where
  cells : SMap 16
  headers : SMap 16
  grads : SMap 32
  tiles : SMap 32
  affine : SMap 32
  knots : Knots
  deriving DecidableEq, Repr

/-- What the cluster image of a switched-out context keeps (Table 12.9). -/
structure ClusterImage where
  flags : SMap 32
  groups : SMap 16
  barriers : KMap Barrier
  queue : List QRec
  pipes : KMap PipeQueue
  instances : KMap Nat
  spk : Memory
  /-- Threads that were resident, by slot. -/
  threads : List (Nat × SavedThread)
  /-- Those of the cluster's other cores. -/
  away : List AwayTask
  /-- The array of the core. -/
  array : ArrayState
  deriving DecidableEq, Repr

/-- The cluster that holds the modelled core (R187 to R210). -/
structure Cluster where
  /-- die × 6 + cluster. -/
  num : Nat
  ctx : Option Nat
  flags : SMap 32
  groups : SMap 16
  /-- Pending members per group (R193). -/
  pending : KMap Nat
  barriers : KMap Barrier
  queue : List QRec
  pipes : KMap PipeQueue
  /-- Instance numbers per pipeline and stage, key 8 * pipeline + stage (R203). -/
  instances : KMap Nat
  /-- Tasks on the cluster's other cores. -/
  away : List AwayTask
  /-- Cycle from which every thread of a pipeline has waited on ENQ (R204), key pipeline. -/
  pipeStall : KMap Nat
  transit : List Transit
  stolen : List Transit
  /-- Records of a context that come while the cluster is switched out for it: true for the queue's head (R208, R210). -/
  offQueue : List (Bool × QRec)
  nextSeq : Nat
  switchedOut : Bool
  /-- The save area of a switch-out under way (R210): its spans of physical memory, address and length. -/
  switching : Option (List (Nat × Nat))
  restoredAt : Nat
  lost : Bool
  /-- A slot promised to a newcomer while its task drains (R206): slot and record. -/
  promised : KMap QRec
  /-- The area for the next core image of a thread (R186), by physical address: from 2^43 on one of the scheduler's own. -/
  saveArea : Nat
  deriving DecidableEq, Repr

/-- A cluster as the host first assigns it (R187). -/
def Cluster.fresh (num : Nat) : Cluster :=
  { num := num, ctx := none, flags := [], groups := [], pending := [], barriers := [], queue := [], pipes := [],
    instances := [], away := [], pipeStall := [], transit := [], stolen := [], offQueue := [], nextSeq := 1,
    switchedOut := false, switching := none, restoredAt := 0, lost := false, promised := [], saveArea := 2 ^ 43 }

end Sys2Proof.Machine
end

