-- ==== Sys2Proof/Machine/PackageState.lean ====
section
/-! DEFINITION. The state of the package: device memory and translation (R211 to R232), contexts and user queues
(R246 to R249), boot and identity (R251 to R256), context images (R259), the fabric (R270 to R286), debug, trace and
replay (R287 to R299). -/

namespace Sys2Proof.Machine

/-- Publish-map entry (Table 13.8). -/
structure PubMap where
  va : Nat
  units : Nat
  front : Bool
  valid : Bool
  half0 : Nat
  half1 : Nat
  deriving DecidableEq, Repr

/-- Scope-group entry (R239): the cores it names. -/
structure ScopeGroup where
  valid : Bool
  cores : BitVec 192
  deriving DecidableEq, Repr

/-- A registered graph template: where its node descriptors lie, and how many there are (R197). -/
structure Graph where
  base : Nat
  count : Nat
  deriving DecidableEq, Repr

/-- A pipeline declaration (R201): stages 2 to 8, depth of each queue, overflow area in items, close event bit. -/
structure PipeDecl where
  nodes : List Word
  depths : List Nat
  overAddr : Nat
  overItems : Nat
  closeBit : Nat
  deriving DecidableEq, Repr

/-- A ring of the host (R246): bus address, entries, and the counts modulo 2^32 of what is written and consumed. -/
structure HostRing where
  base : Nat
  size : Nat
  head : Nat
  tail : Nat
  deriving DecidableEq, Repr

/-- The trace ring of a context (R293, R294): its operand, the current frame's records as coded bytes, their number, the
frames written, and the records lost since the last of them. -/
structure Trace where
  base : Nat
  units : Nat
  mask : Nat
  frame : List Byte
  records : Nat
  written : Nat
  lost : Nat
  /-- Records of the cycle, by slot, in order of arrival: they are coded at its end (R292). -/
  arrived : List (Nat × List Byte)
  deriving DecidableEq, Repr

/-- Replay of a context (R297, R298): mode, log base, length and position in bytes, and the cycle of the last item, which a
capture that has not begun does not have. -/
structure Replay where
  mode : Nat
  base : Nat
  len : Nat
  pos : Nat
  waitSince : Option Nat
  deriving DecidableEq, Repr

/-- A context (R187, R213, R246). -/
structure Context where
  asid : Nat
  root : Nat
  smode : Bool
  handler : Option Word
  trapArea : Option Word
  clusters : BitVec 24
  events : BitVec 256
  scopes : KMap ScopeGroup
  pubmap : KMap PubMap
  graphs : KMap Graph
  pipes : KMap PipeDecl
  /-- Time slice, drain limit and freeze limit in cycles (R206, R207, R289). -/
  slice : Nat
  drainLimit : Nat
  freezeLimit : Nat
  exclusive : Bool
  owner : Nat
  parked : Bool
  busy : Bool
  job : Option Nat
  sq : HostRing
  cq : HostRing
  fq : HostRing
  heldCompletions : List (List Byte)
  heldFaults : List (List Byte)
  droppedNotices : Nat
  droppedFaults : Nat
  /-- HOSTSIG credits left of 64, and the completion-queue positions of released signals (R264). -/
  credits : Nat
  signals : List Nat
  totals : SMap 64
  /-- The debug session: the context whose queue attached (R290). -/
  session : Option Nat
  trace : Option Trace
  replay : Replay
  /-- Event changes that wait for their place in the log: window, set, clear, tag. -/
  waitingEvents : List (Nat × Word × Word × BitVec 16)
  /-- While this cluster is switched out for the context: the spans of physical memory from its image's beginning on (R210). -/
  savedIn : Option (List (Nat × Nat))
  deriving DecidableEq, Repr

/-- A cluster image as it was written: its length, where its scratchpad part begins, its bytes by place, and what they stand for. -/
structure StoredCluster where
  len : Nat
  spkAt : Nat
  bytes : Memory
  image : ClusterImage
  deriving DecidableEq, Repr

/-- A walk in flight (R215, R219), started by PFG or by an access. -/
structure Walk where
  id : Nat
  ctx : Nat
  va : Nat
  deriving DecidableEq, Repr

/-- An invalidation between its release and its acknowledgement (R230 to R232). -/
structure Inval where
  id : Nat
  slot : Nat
  start : Nat
  len : Nat
  asid : Nat
  all : Bool
  reachedAt : Nat
  /-- Held stores, outbox items, transfers and commands that translated through a removed entry. -/
  stores : List Nat
  outs : List Nat
  xfers : List Nat
  cmds : List Nat
  acked : Bool
  deriving DecidableEq, Repr

/-- A packet in a router (Table 19.1): the input port and virtual channel, the header fields and the payload. -/
structure Packet where
  port : Nat
  vc : Nat
  typ : Nat
  flits : Nat
  job : Nat
  tag : BitVec 16
  dst : Nat
  src : Nat
  pa : Nat
  width : Nat
  group : Nat
  mean : Bool
  inst : Nat
  reqid : Nat
  data : Word
  /-- Payload flits, up to eight. -/
  payload : List (BitVec 512)
  /-- The access completed as a remote error (R275). -/
  error : Bool
  /-- The router buffer that held the packet is poisoned (R171, R182). -/
  bad : Bool
  /-- Of a packet that waits for a link: the input port and channel by which it entered this router. -/
  via : Nat × Nat
  deriving DecidableEq, Repr

/-- A collective group of a job (R274, R278, R282). `members` is the list as read and shrunk; `red` and `bar` number the
next contributions of this package's context. -/
structure Group where
  valid : Bool
  members : List Nat
  listAddr : Nat
  epoch : Nat
  red : Nat
  bar : Nat
  deriving DecidableEq, Repr

/-- An instance of a collective (R278 to R281): contributions by node, whether it has completed, with status, count and
result, and the local request that waits for it. -/
structure Instance where
  group : Nat
  isBar : Bool
  num : Nat
  mean : Bool
  contribs : List (Nat × BitVec 32)
  complete : Bool
  status : Nat
  count : Nat
  result : BitVec 32
  /-- Requests of local words that wait for the instance (R286). -/
  waiters : List Nat
  /-- The tag of this package's own contribution (R283). -/
  tag : BitVec 16
  /-- A contribution or a result came out of a poisoned buffer (R182). -/
  bad : Bool
  deriving DecidableEq, Repr

/-- A remote window (Table 19.2), in 2 MiB units. -/
structure Window where
  base : Nat
  len : Nat
  r : Bool
  w : Bool
  deriving DecidableEq, Repr

/-- A fabric job (Table 19.2) with the state of its gang switch (R284, R285). -/
structure Job where
  id : Nat
  ctx : Option Nat
  windows : KMap Window
  groups : KMap Group
  instances : List Instance
  saveBase : Nat
  saveLen : Nat
  lateCap : Nat
  faultWord : Word
  switchedOut : Bool
  switching : Bool
  incoming : Bool
  /-- This router began the wave; else the link its first marker came from. -/
  initiator : Bool
  parent : Nat
  children : List Nat
  /-- Markers received, as port × 8 + VC. -/
  markers : List Nat
  saved : List Packet
  late : List Packet
  /-- A cycle, and how many packets have been appended to the saved ones in it (R284). -/
  appended : Nat × Nat
  /-- GSW request that waits for the wave, and the packets counted for its result. -/
  request : Option Nat
  count : Nat
  /-- What the resumption has found in the fault words of the routers, the routers it went on to, and the instances that were not
  complete when it began (R285). -/
  lostWord : Word
  kids : List Nat
  atStart : List (Nat × Bool × Nat)
  deriving DecidableEq, Repr

/-- What the host writes into a job-table entry (Table 19.2): a group by its member count and the physical address of its list. -/
structure JobDesc where
  id : Nat
  ctx : Option Nat
  windows : List (Nat × Window)
  groups : List (Nat × Nat × Nat)
  saveBase : Nat
  saveLen : Nat
  lateCap : Nat
  deriving DecidableEq, Repr

/-- A flit in a replay buffer (R270) with its trailer, and the packet it ends. -/
structure TxFlit where
  flit : BitVec 512
  trailer : BitVec 64
  ends : Option Packet
  deriving DecidableEq, Repr

/-- A link (R270): up, the failed arrivals of a flit in a row, the cycle its retraining began, and its sequence numbers. -/
structure Link where
  up : Bool
  failures : Nat
  retraining : Option Nat
  rxSeq : BitVec 12
  acked : BitVec 12
  credits : Nat
  /-- Flits of a packet that has arrived in part. -/
  flits : List (BitVec 512)
  /-- Sequence number of the next flit to send, packets that wait to be sent, the replay buffer, oldest first, and the flits put on
  the wire with their trailers, newest first. -/
  txSeq : BitVec 12
  tx : List Packet
  held : List TxFlit
  wire : List (BitVec 512 × BitVec 64)
  /-- Replays of the flit the peer has asked for in a row (R270). -/
  replays : Nat
  deriving DecidableEq, Repr

/-- Power states (Table 17.5), with the boot that has stopped at a step (R251). -/
inductive Power where
  | off
  | active
  | idle
  | bootFailed (step reason : Nat)
  deriving DecidableEq, Repr

/-- The private half of the identity key as a boot leaves it: none, or what the key derivation makes of the response of the hub die's
function (R252). -/
inductive IdentityKey where
  | absent
  | derived
  deriving DecidableEq, Repr

/-- Its bytes: free ones, as R252 gives the device's key no value. -/
def IdentityKey.bytes : IdentityKey → List Byte
  | .absent => []
  | .derived => Config.deriveKey Config.pufResponse

/-- The signed configuration record (R254). -/
structure ConfigRecord where
  cores : BitVec 192
  hbm : BitVec 8
  tier2 : Nat
  clockMhz : Nat
  tag : Word
  deriving DecidableEq, Repr

/-- A request of CTXSAVE, CTXRST or GSW, from its release to the result its word waits for (R261, R285). -/
structure Request where
  id : Nat
  result : Option Word
  deriving DecidableEq, Repr

/-- The package. -/
structure Package where
  /-- Bytes by device physical address: HBM, second tier, host memory, cluster scratchpads (Table 13.2). -/
  mem : Memory
  /-- Poisoned 64-byte lines, by address ÷ 64. -/
  poison : List Nat
  /-- Lines, by address ÷ 64, whose access the memory reports as failed (R29, R223); set from outside. From 2^37 on, beyond the
  physical address space: lines of the core's own storage that cannot be written back (R250). -/
  failing : List Nat
  contexts : KMap Context
  /-- Cluster images this package has written, newest first: what their bytes stand for (R186, R210). -/
  images : List StoredCluster
  l2tlb : List TlbEntry
  walkCache : List TlbEntry
  walks : List Walk
  invals : List Inval
  requests : List Request
  /-- The host's saves under way: context, area, units (R262). -/
  hostSave : List (Nat × Nat × Nat)
  power : Power
  config : ConfigRecord
  /-- The record that the next boot takes (R254). -/
  nextConfig : Option ConfigRecord
  node : Nat
  extentX : Nat
  extentY : Nat
  extentZ : Nat
  bar0 : SMap 64
  /-- What the host's last read of BAR0 returned (R245). -/
  bar0Data : Word
  coreRelease : Word
  powerLimit : Nat
  fabricErrors : Nat
  msix : List Nat
  /-- First-stage image the ROM boots, and the host's new one (R251). -/
  flash : List Byte
  /-- The private half of the identity key, derived at each boot (R252). -/
  identityKey : IdentityKey
  spdmNegotiated : Bool
  doe : List Byte
  jobs : KMap Job
  links : KMap Link
  router : List Packet
  /-- Packets sent to other packages, newest first. -/
  sent : List Packet
  /-- Remote requests of this package that await an answer: identifier, job, sending cycle. -/
  remotes : List (Nat × Nat × Nat)
  nextPacket : Nat
  /-- Purge packets this router has passed on, by source and number (R283). -/
  purges : List (Nat × Nat)
  deriving DecidableEq, Repr

def HostRing.fresh : HostRing := ⟨0, 64, 0, 0⟩

/-- A context the host has just created (R187). -/
def Context.fresh : Context :=
  { asid := 0, root := 0, smode := false, handler := none, trapArea := none, clusters := 0, events := 0, scopes := [],
    pubmap := [], graphs := [], pipes := [], slice := 13000000, drainLimit := 26000, freezeLimit := 1300000,
    exclusive := false, owner := 0, parked := false, busy := false, job := none, sq := HostRing.fresh,
    cq := HostRing.fresh, fq := HostRing.fresh, heldCompletions := [], heldFaults := [], droppedNotices := 0,
    droppedFaults := 0, credits := 64, signals := [], totals := [], session := none, trace := none,
    replay := ⟨0, 0, 0, 0, none⟩, waitingEvents := [], savedIn := none }

/-- The configuration of the module (R254, R212): every core, every stack, 1536 × 10^9 bytes of second tier. -/
def ConfigRecord.module : ConfigRecord :=
  { cores := BitVec.allOnes 192, hbm := 0xFF, tier2 := 1536000000000, clockMhz := 1300, tag := 0 }

def Package.fresh : Package :=
  { mem := [], poison := [], failing := [], contexts := [], images := [], l2tlb := [], walkCache := [], walks := [], invals := [],
    requests := [], hostSave := [], power := .active, config := ConfigRecord.module, nextConfig := none, node := 0, extentX := 1, extentY := 1, extentZ := 1,
    bar0 := [], bar0Data := 0, coreRelease := 0, powerLimit := 2800, fabricErrors := 0, msix := [], flash := [],
    identityKey := .absent, spdmNegotiated := false, doe := [], jobs := [], links := [], router := [], sent := [], remotes := [],
    nextPacket := 1, purges := [] }

end Sys2Proof.Machine
end

