-- ==== Sys2Proof/Machine/State.lean ====
section
/-! DEFINITION. The state of the machine: one core with its cluster and its package, the inputs that have arrived, and
where the machine stands inside a cycle. Other cores and other packages reach it only through inputs. -/

namespace Sys2Proof.Machine

/-- Why the machine stops. -/
inductive Fault where
  /-- A host packet, ring or image lies at a bus address beyond the 2 TiB the device can reach (R212); raised by the
  hub's events; safe: the hardware's behaviour there is not given. -/
  | hostAddress (a : Nat)
  deriving DecidableEq, Repr

/-- Why an instruction has no meaning here. -/
inductive Refusal where
  /-- The instruction has no meaning in the model yet; raised by Dispatch only; safe: nothing runs. -/
  | notModelled (mnemonic : String)
  deriving DecidableEq, Repr

/-- What becomes of a task on another core of the cluster: it ends, it is killed (R206), it is checkpointed (R186), or it begins or
ceases to wait on an ENQ (R204). -/
inductive AwayEvent where
  | ended
  | killed
  | saved (t : SavedThread)
  | waits (b : Bool)
  deriving DecidableEq, Repr

/-- What reaches the machine from outside it, in order of arrival: an event of the table, an effect another core of the
cluster or package has released (R190 to R194), with the context, the member bit and the request tag of the thread that sent it (member
bits of 16 and above: a remote source of another cluster, R194), or what follows. -/
inductive Input where
  | ev (i : Instr)
  | ext (ctx mem : Nat) (tag : BitVec 16) (e : Effect)
  /-- A record another scheduler has sent to this one (R208). -/
  | stolen (t : Transit)
  /-- The host writes a job-table entry through BAR0 (R274). -/
  | job (k : Nat) (d : JobDesc)
  /-- The host sets a context's time slice, drain limit and freeze limit, in cycles (R206, R207, R289). -/
  | limits (ctx slice drain freeze : Nat)
  /-- A queued record, or a pipeline instance numbered as in TASK_PLACE, is placed on a slot of another core of the cluster, whose
  member bit is given (R193, R203). -/
  | placed (idx mem : Nat)
  /-- What becomes of the task on such a slot. -/
  | away (mem : Nat) (what : AwayEvent)
  /-- The scheduler names the area for the next core image, by physical address (R186). -/
  | saveArea (pa : Nat)
  /-- A victim refuses the acknowledgement of a stolen record (R208). -/
  | refused (peer seq : Nat)
  /-- The host reads BAR0 at an offset (R245). -/
  | bar0Read (off : Nat)
  /-- A signed configuration record for the next boot (R254). -/
  | config (c : ConfigRecord)
  /-- A neighbour asks for the flits of a link again, from a sequence number on (R270). -/
  | replay (link : Nat) (seq : BitVec 12)
  /-- A packet that a neighbour's link has brought whole (R271). -/
  | packet (p : Packet)
  /-- The lines of memory whose accesses fail from now on, by address ÷ 64: writes of a trap record (R29), reads of host memory
  (R223), lines of a released core (R250; from 2^37 on). -/
  | failing (lines : List Nat)
  deriving DecidableEq, Repr

/-- The machine. -/
structure State where
  core : Core
  cluster : Cluster
  pkg : Package
  inbox : List Input
  /-- 0 the events of the cycle, 1 to 4 the turn of A, X0, X1, C, 5 the arbitration of the scratchpad banks, 6 the streams served
  and the end of the cycle. -/
  turn : Nat
  /-- The core's own events of the cycle have begun: a STOP takes the next edge (R288). -/
  pastEdge : Bool
  /-- SYNCSET of the slot that holds issue as the cycle found it: it is evaluated anew in every cycle (R82). -/
  syncNow : BitVec 4
  /-- The lockstep set issues in this cycle (R82). -/
  sgo : Bool
  /-- A voice of the other slot's thread could have issued in this cycle (R79). -/
  otherGo : Bool
  /-- Package cycle. -/
  now : Nat
  /-- Streams the stream unit has served in this cycle, 8 × slot + stream (R92). -/
  served : List Nat
  /-- Streams that have reached every bank line of their entry in this cycle, 8 × slot + stream (R94). -/
  granted : List Nat
  /-- Scratchpad banks that voice A has used in this cycle (R94). -/
  banksUsed : List Nat
  /-- Cycles between two untimed actions that the inbox does not place; the model's own (R315, R316). -/
  pace : Nat
  /-- Counter of the free values used; the model's own. -/
  fresh : Nat
  deriving DecidableEq, Repr

/-- The package right after boot (R251 step 6): no context, no thread, the voices idle, the identity key derived (R252). -/
def State.reset : State :=
  { core := Core.fresh 0, cluster := Cluster.fresh 0,
    pkg := { Package.fresh with identityKey := .derived }, inbox := [], turn := 0, pastEdge := false, syncNow := 0xF, sgo := false, otherGo := false,
    now := 0, served := [], granted := [], banksUsed := [], pace := 0, fresh := 0 }

end Sys2Proof.Machine
end

