-- ==== Sys2Proof/Machine/Get.lean ====
section
/-! DEFINITION. Reading and replacing the parts of the state: slots, voices, faces, W bits, the control state of a slot. -/

namespace Sys2Proof.Machine

/-- Slot `k` of the core. -/
def getSlot (s : State) (k : Nat) : Slot := if k = 0 then s.core.slot0 else s.core.slot1

def setSlot (s : State) (k : Nat) (x : Slot) : State :=
  if k = 0 then { s with core := { s.core with slot0 := x } } else { s with core := { s.core with slot1 := x } }

def slotVoice (x : Slot) : VoiceId → Voice
  | .A => x.vA
  | .X0 => x.vX0
  | .X1 => x.vX1
  | .C => x.vC

def setSlotVoice (x : Slot) (v : VoiceId) (y : Voice) : Slot :=
  match v with
  | .A => { x with vA := y }
  | .X0 => { x with vX0 := y }
  | .X1 => { x with vX1 := y }
  | .C => { x with vC := y }

/-- Voice `v` of slot `k`. -/
def getVoice (s : State) (k : Nat) (v : VoiceId) : Voice := slotVoice (getSlot s k) v

def setVoice (s : State) (k : Nat) (v : VoiceId) (y : Voice) : State := setSlot s k (setSlotVoice (getSlot s k) v y)

def getArch (s : State) (k : Nat) (v : VoiceId) : VoiceArch := (getVoice s k v).a

def setArch (s : State) (k : Nat) (v : VoiceId) (a : VoiceArch) : State :=
  setVoice s k v { getVoice s k v with a := a }

/-- The voices in the order in which ties are settled (R25). -/
def allVoices : List VoiceId := [.A, .X0, .X1, .C]

def otherVoices (v : VoiceId) : List VoiceId := allVoices.filter (fun u => decide (u ≠ v))

/-- The voice whose turn it is. -/
def turnVoice (t : Nat) : VoiceId :=
  match t with
  | 2 => .X0
  | 3 => .X1
  | 4 => .C
  | _ => .A

def voiceTurn : VoiceId → Nat
  | .A => 1
  | .X0 => 2
  | .X1 => 3
  | .C => 4

def ctlSlot (c : CoreCtl) (k : Nat) : Ctl := if k = 0 then c.c0 else c.c1

def setCtlSlot (c : CoreCtl) (k : Nat) (x : Ctl) : CoreCtl := if k = 0 then { c with c0 := x } else { c with c1 := x }

/-- The control state of slot `k` as the slot sees it. -/
def getCtl (s : State) (k : Nat) : Ctl := ctlSlot s.core.ctl k

/-- Global index of the modelled core inside its cluster, 0 to 7 (R187). -/
def coreInCluster (s : State) : Nat := s.core.index % 8

/-- The member bit of the thread in slot `k` (R187). -/
def memberBit (s : State) (k : Nat) : Nat := 2 * coreInCluster s + k

/-! ### Faces (R12, R14) -/

/-- s0, p0 and m0 have no cells: they read a constant and discard writes (R12). -/
def isConstReg : RegId → Bool
  | .s n => decide (n = 0)
  | .p n => decide (n = 0)
  | .m n => decide (n = 0)
  | _ => false

/-- The place of a register's W bit (Table 2.5). -/
def wIndex : RegId → Nat
  | .s n => n
  | .p n => 32 + n
  | .m n => 40 + n
  | .vflags => 48
  | .v n => 64 + n

/-- The value a face holds for a register, zero-extended. -/
def faceGet (f : Faces) : RegId → Row
  | .s n => (if n = 0 then 0 else sget f.s n).setWidth 1024
  | .p n => (if n = 0 then 1 else sget f.p n).setWidth 1024
  | .m n => (if n = 0 then BitVec.allOnes 32 else sget f.m n).setWidth 1024
  | .v n => sget f.v n
  | .vflags => f.vflags.setWidth 1024

/-- A face with a register's value replaced; a constant register has none. -/
def faceSet (f : Faces) (r : RegId) (x : Row) : Faces :=
  if isConstReg r then f
  else
    match r with
    | .s n => { f with s := sset f.s n (x.setWidth 64) }
    | .p n => { f with p := sset f.p n (x.setWidth 1) }
    | .m n => { f with m := sset f.m n (x.setWidth 32) }
    | .v n => { f with v := sset f.v n x }
    | .vflags => { f with vflags := x.setWidth 320 }

/-- The visible value of scalar `n` (R14). -/
def visS (a : VoiceArch) (n : BitVec 5) : Word := if n = 0 then 0 else sget a.vis.s n.toNat

/-- The visible value of predicate `n`. -/
def visP (a : VoiceArch) (n : BitVec 3) : Bool := if n = 0 then true else decide (sget a.vis.p n.toNat = 1)

/-- The visible value of mask `n`. -/
def visM (a : VoiceArch) (n : BitVec 3) : BitVec 32 := if n = 0 then BitVec.allOnes 32 else sget a.vis.m n.toNat

/-- The visible value of vector `n`. -/
def visV (a : VoiceArch) (n : Nat) : Row := sget a.vis.v n

def wGet (a : VoiceArch) (r : RegId) : Bool := a.w.getLsbD (wIndex r)

def wSet (a : VoiceArch) (r : RegId) : VoiceArch := { a with w := a.w ||| (1#128 <<< wIndex r) }

/-- Every faced register of a voice but VFLAGS. -/
def facedRegs : List RegId :=
  ((List.range 32).map RegId.s) ++ ((List.range 8).map RegId.p) ++ ((List.range 8).map RegId.m) ++
    ((List.range 28).map RegId.v)

/-- A 64-bit value as a pending value. -/
def row64 (x : Word) : Row := x.setWidth 1024

def row1 (b : Bool) : Row := if b then 1 else 0

/-- A Nat as a 64-bit value. -/
def w64 (n : Nat) : Word := BitVec.ofNat 64 n

end Sys2Proof.Machine
end

