-- ==== Sys2Proof/Machine/Journal.lean ====
section
/-! DEFINITION. Changes of state with a sealed copy, journalled by clause (R177); clauses, their boundaries and their
dependences (R172, R173); the effects a clause holds (R174, R175). -/

namespace Sys2Proof.Machine

/-! ### Places in thread order (R235) -/

/-- Two places joined: what precedes either. -/
def joinOrd (a b : List Nat) : List Nat := (List.range 4).map (fun i => max (a.getD i 0) (b.getD i 0))

/-- A place with the bound of voice `v` replaced. -/
def putOrd (a : List Nat) (v : VoiceId) (n : Nat) : List Nat :=
  (List.range 4).map (fun i => if i = v.num then n else a.getD i 0)

/-! ### Changes (R177) -/

def counterZero : Counter := ⟨[], 0, 0, false⟩

def ringZero : Ring := ⟨0, 0, 0, 0, 0⟩

def getCounter (c : Ctl) (k : Nat) : Counter := mget counterZero c.counters k

def setCounter (c : Ctl) (k : Nat) (x : Counter) : Ctl := { c with counters := mset counterZero c.counters k x }

def getRing (c : Ctl) (k : Nat) : Ring := mget ringZero c.rings k

def setRing (c : Ctl) (k : Nat) (x : Ring) : Ctl := { c with rings := mset ringZero c.rings k x }

def getQueue (c : Ctl) (q : Nat) : List QEntry := mget [] c.queues q

def setQueue (c : Ctl) (q : Nat) (x : List QEntry) : Ctl := { c with queues := mset [] c.queues q x }

def getLanding (c : Ctl) (key : Nat) : Landing := mget (.free 0) c.landing key

def setLanding (c : Ctl) (key : Nat) (x : Landing) : Ctl := { c with landing := mset (.free 0) c.landing key x }

def getBq (c : Ctl) : VoiceId → List BqEntry
  | .A => c.bqA
  | .X0 => c.bqX0
  | .X1 => c.bqX1
  | .C => c.bqC

def setBq (c : Ctl) (v : VoiceId) (x : List BqEntry) : Ctl :=
  match v with
  | .A => { c with bqA := x }
  | .X0 => { c with bqX0 := x }
  | .X1 => { c with bqX1 := x }
  | .C => { c with bqC := x }

/-- One arrival more, modulo 2^16: the count that wraps to zero counts no arrival any more (R102; log entry 69). -/
def countArrival (l : List CcArrival) (a : CcArrival) : List CcArrival := if l.length + 1 < 2 ^ 16 then l ++ [a] else []

/-- A retirement on a counter: absorbed, or counted (R102). -/
def counterArrive (x : Counter) (a : CcArrival) (exc : Bool) : Counter :=
  if x.absorb = 0 then { x with arrived := countArrival x.arrived a, out := x.out - 1, exc := x.exc || exc }
  else { x with absorb := x.absorb - 1, out := x.out - 1, exc := x.exc || exc }

/-- CDISC: the oldest arrivals go first, the rest is absorbed later, saturating at 0xFFFF (R145). -/
def counterDiscard (x : Counter) (n : Nat) : Counter :=
  let d := min n x.arrived.length
  { x with arrived := x.arrived.drop d, absorb := min 0xFFFF (x.absorb + (n - d)) }

/-- A count that saturates at 32 bits (`w = 32`) or wraps at 64. -/
def countAdd (x : Word) (m w : Nat) : Word :=
  if w = 32 then w64 (min 0xFFFFFFFF (x.toNat + m)) else x + w64 m

/-- A post: a set bit stays set; one that arrives only after this cycle waits beside it, under key + 64, for the case that
the bit is consumed before it arrives (R65, R66). A post that waited there and has arrived meanwhile has merged into the set
bit, and gives its place to the later one. Merged posts precede what the bit precedes (R235). -/
def postSync (m : KMap SyncBit) (key : Nat) (b : SyncBit) : KMap SyncBit :=
  match mfind m key with
  | none => mput m key b
  | some o =>
    if o.at_ < b.at_ then
      match mfind m (key + 64) with
      | none => mput m (key + 64) b
      | some p => mput m (key + 64) { (if p.at_ < b.at_ then b else p) with ord := joinOrd p.ord b.ord }
    else mput m key { o with ord := joinOrd o.ord b.ord }

/-- A bit is consumed in cycle `now`, with every post that has arrived by then. -/
def takeSync (m : KMap SyncBit) (key now : Nat) : KMap SyncBit :=
  match mfind m (key + 64) with
  | none => mdel m key
  | some b => if now < b.at_ then mput (mdel m (key + 64)) key b else mdel (mdel m (key + 64)) key

/-- A slot's part of a change. -/
def applyCtl (c : Ctl) : Change → Ctl
  | .syncSet key b => { c with sync := postSync c.sync key b }
  | .syncClr key now => { c with sync := takeSync c.sync key now }
  | .bqPush v e => setBq c v (getBq c v ++ [e])
  | .bqPop v => setBq c v ((getBq c v).drop 1)
  | .qPush q e => setQueue c q (getQueue c q ++ [e])
  | .qPop q => setQueue c q ((getQueue c q).drop 1)
  | .landSet key l => setLanding c key l
  | .ccIssue k => setCounter c k { getCounter c k with out := (getCounter c k).out + 1 }
  | .ccArrive k a exc => setCounter c k (counterArrive (getCounter c k) a exc)
  | .ccTake k n => setCounter c k { getCounter c k with arrived := (getCounter c k).arrived.drop n }
  | .ccDiscard k n => setCounter c k (counterDiscard (getCounter c k) n)
  | .ccExcClr k => setCounter c k { getCounter c k with exc := false }
  | .digSet k h => { c with digests := mput c.digests k h }
  | .digClr k => { c with digests := mdel c.digests k }
  | .tmplSet key t => { c with templates := sset c.templates key t }
  | .ringSet k r => setRing c k r
  | .ringHead k n => setRing c k { getRing c k with head := ((getRing c k).head + n) % 2 ^ 32 }
  | .ringTail k n => setRing c k { getRing c k with tail := ((getRing c k).tail + n) % 2 ^ 32 }
  | .streamSet k x => { c with streams := mput c.streams k x }
  | .syncsetSet x cl => { c with syncset := x, statusBy := mset 0 c.statusBy 0x10 cl }
  | .statusSet n x cl => { c with status := sset c.status n x, statusBy := mset 0 c.statusBy n cl }
  | .statusAdd n m w => { c with status := sset c.status n (countAdd (sget c.status n) m w) }
  | .knotSet _ _ => c
  | .koogAdd _ => c

/-- The knot registers' part of a change (R159). -/
def applyKnots (c : Knots) : Change → Knots
  | .knotSet k x =>
    match k with
    | 0 => { c with klo := x }
    | 1 => { c with kstep := x }
    | 2 => { c with kinv := x }
    | 3 => { c with kg := x.setWidth 4 }
    | 4 => { c with kmode := x.setWidth 2 }
    | _ => { c with koog := x }
  | .koogAdd n => { c with koog := BitVec.ofNat 32 (min 0xFFFFFFFF (c.koog.toNat + n)) }
  | _ => c

def applyEntry (c : CoreCtl) (e : JEntry) : CoreCtl :=
  { setCtlSlot c e.slot (applyCtl (ctlSlot c e.slot) e.ch) with knots := applyKnots c.knots e.ch }

/-- The clause is still unsealed. -/
def unsealed (c : Core) (id : Nat) : Bool := c.clauses.any (fun x => decide (x.id = id))

/-- Move the leading entries whose clauses have sealed into the sealed copy. -/
def drainJournal (c : Core) : List JEntry → CoreCtl → List JEntry × CoreCtl
  | [], b => ([], b)
  | e :: r, b => if unsealed c e.clause then (e :: r, b) else drainJournal c r (applyEntry b e)

def settleJournal (c : Core) : Core :=
  { c with journal := (drainJournal c c.journal c.sctl).1, sctl := (drainJournal c c.journal c.sctl).2 }

/-- Make a change in slot `k` for clause `cl`; a change of a sealed clause is sealed at once. -/
def change (s : State) (k cl : Nat) (ch : Change) : State :=
  let e : JEntry := ⟨k, if unsealed s.core cl then cl else 0, ch⟩
  { s with core := settleJournal { s.core with ctl := applyEntry s.core.ctl e, journal := s.core.journal ++ [e] } }

def changes (s : State) (k cl : Nat) : List Change → State
  | [] => s
  | ch :: r => changes (change s k cl ch) k cl r

/-- Replace the live and the sealed control state of a slot: a thread is created or discarded (R17, R28). -/
def resetCtl (s : State) (k : Nat) (x : Ctl) : State :=
  { s with core := { s.core with
      ctl := setCtlSlot s.core.ctl k x
      sctl := setCtlSlot s.core.sctl k x
      journal := s.core.journal.filter (fun e => decide (e.slot ≠ k)) } }

/-! ### Numbers -/

/-- The next number for a clause, an entry, a transfer or a command. -/
def freshId (s : State) : Nat := s.core.nextId

def bumpId (s : State) : State := { s with core := { s.core with nextId := s.core.nextId + 1 } }

/-- The place in thread order of the next word of a voice: all its earlier words precede it (R235). -/
def clockOf (s : State) (k : Nat) (v : VoiceId) : List Nat := putOrd (getVoice s k v).ord v (freshId s)

/-- What precedes a word of a voice by another link of R235 precedes the voice's next words. -/
def joinVoice (s : State) (k : Nat) (v : VoiceId) (ord : List Nat) : State :=
  setVoice s k v { getVoice s k v with ord := joinOrd (getVoice s k v).ord ord }

/-- The voice of an unsealed clause. -/
def voiceOfClause (c : Core) (cl : Nat) : Option VoiceId :=
  (findFirst (fun (x : Clause) => decide (x.id = cl)) c.clauses).map (fun x => x.voice)

/-- The place in thread order of what a clause does now. -/
def clauseClock (s : State) (k cl : Nat) : List Nat :=
  match voiceOfClause s.core cl with
  | some v => clockOf s k v
  | none => []

/-- The command whose write an effect is; 0 for what a word does. -/
def effectCmd : Effect → Nat
  | .store _ _ _ _ _ cmd _ _ => cmd
  | _ => 0

/-- A held effect of slot `k` precedes a word with a place in thread order: it is a word's and its number lies below the bound of
its voice, or a command's whose arrival a CWAIT below voice C's bound has consumed (R235, R242). -/
def precedes (s : State) (k : Nat) (ord : List Nat) (x : Held) : Bool :=
  decide (x.slot = k) &&
    (if effectCmd x.eff = 0 then
       (match voiceOfClause s.core x.clause with | some v => decide (x.id < ord.getD v.num 0) | none => false)
     else s.core.consumed.any (fun p => decide (p.1 = effectCmd x.eff) && decide (p.2 < ord.getD 3 0)))

/-! ### Clauses (R172, R173) -/

/-- The open clause of a voice. -/
def curClause (s : State) (k : Nat) (v : VoiceId) : Nat := (getVoice s k v).clause

def updClause (s : State) (id : Nat) (f : Clause → Clause) : State :=
  { s with core := { s.core with clauses := s.core.clauses.map (fun c => if c.id = id then f c else c) } }

/-- Record that an unsealed clause depends on others (Table 11.1). -/
def dependOn (s : State) (q : Nat) (ps : List Nat) : State :=
  match ps.filter (fun p => decide (p ≠ q) && unsealed s.core p) with
  | [] => s
  | ps => updClause s q (fun c => { c with deps := c.deps ++ ps.filter (fun p => !c.deps.contains p) })

/-- Record that the open clause of a voice depends on clause `p` (Table 11.1). -/
def addDep (s : State) (k : Nat) (v : VoiceId) (p : Nat) : State :=
  let q := curClause s k v
  if p = q ∨ unsealed s.core p = false then s
  else updClause s q (fun c => if c.deps.contains p then c else { c with deps := c.deps ++ [p] })

def addDeps (s : State) (k : Nat) (v : VoiceId) : List Nat → State
  | [] => s
  | p :: r => addDeps (addDep s k v p) k v r

/-- Open a clause for a voice; `deps` are the clauses it starts out depending on. -/
def openClause (s : State) (k : Nat) (v : VoiceId) (deps : List Nat) : State :=
  let id := freshId s
  let s1 := bumpId s
  let c : Clause := ⟨id, k, v, none, deps.filter (fun p => unsealed s.core p), VoiceArch.fresh 0, false⟩
  let s2 : State := { s1 with core := { s1.core with clauses := s1.core.clauses ++ [c] } }
  setVoice s2 k v { getVoice s2 k v with clause := id, issued := false }

/-- A boundary at cycle `b`: close the open clause of a voice with the voice's state as its image, and open the next,
which depends on it (R172, R176). -/
def closeClause (s : State) (k : Nat) (v : VoiceId) (b : Nat) (stop : Bool) : State :=
  let q := curClause s k v
  let s1 := updClause s q (fun c => { c with boundary := some b, img := getArch s k v, stop := stop })
  openClause s1 k v [q]

/-- Closed clauses of a voice that have not sealed (R176 allows eight). -/
def closedClauses (s : State) (k : Nat) (v : VoiceId) : List Clause :=
  s.core.clauses.filter (fun c => decide (c.slot = k) && decide (c.voice = v) && c.boundary.isSome)

/-- Closed clauses of a slot that have not sealed. -/
def slotClosed (s : State) (k : Nat) : List Clause :=
  s.core.clauses.filter (fun c => decide (c.slot = k) && c.boundary.isSome)

/-- A boundary would need a ninth entry of the seal queue (R176). -/
def sealQueueFull (s : State) (k : Nat) (v : VoiceId) : Bool := decide (8 ≤ (closedClauses s k v).length)

/-- Eligible: 64 cycles have passed since the boundary (R172). A report in that time has rolled the clause back. -/
def eligible (s : State) (c : Clause) : Bool :=
  match c.boundary with
  | none => false
  | some b => decide (b + 64 ≤ s.now)

/-- One round of dropping, from the clauses that could seal, those with a dependence that cannot. -/
def sealRound (c : Core) (ids : List Nat) : List Nat :=
  ids.filter (fun id =>
    match findFirst (fun x => decide (x.id = id)) c.clauses with
    | none => false
    | some x => x.deps.all (fun p => ids.contains p || !unsealed c p))

def sealRounds (c : Core) : Nat → List Nat → List Nat
  | 0, ids => ids
  | n + 1, ids => sealRounds c n (sealRound c ids)

/-- The clauses that seal in this cycle: the largest set of eligible clauses all of whose dependences are sealed or in the
set (R173). -/
def sealSet (s : State) : List Nat :=
  sealRounds s.core s.core.clauses.length ((s.core.clauses.filter (eligible s)).map (fun c => c.id))

/-- The clauses of a set reachable from one by dependences, itself included. -/
def depClosure (c : Core) (set : List Nat) : Nat → List Nat → List Nat
  | 0, ids => ids
  | n + 1, ids =>
    depClosure c set n (ids ++ (set.filter (fun p => !ids.contains p && c.clauses.any (fun x =>
      ids.contains x.id && x.deps.contains p))))

/-! ### Held effects (R174, R175) -/

/-- The 64-byte lines a store touches. -/
def linesOf (addr len : Nat) : List Nat :=
  (List.range ((addr + (len - 1)) / 64 - addr / 64 + 1)).map (fun i => addr / 64 + i)

/-- The hold-back entries of an effect: one for each line of a store of a word (R175). -/
def heldLines : Effect → List (Bool × Nat)
  | .store dev addr data _ _ 0 _ _ => (linesOf addr data.length).map (fun l => (dev, l))
  | _ => []

def dedup {α : Type} [DecidableEq α] : List α → List α
  | [] => []
  | x :: r => if r.contains x then dedup r else x :: dedup r

/-- Entries of the hold-back buffer in use: distinct lines of each clause (R175). -/
def holdbackUsed (c : Core) : Nat :=
  (dedup (c.held.flatMap (fun h => (heldLines h.eff).map (fun l => (h.clause, l))))).length

/-- The hold-back buffer has room for a store of clause `cl` (R175: 128 entries, lines of the clause merge). -/
def holdbackRoom (c : Core) (cl : Nat) (dev : Bool) (addr len : Nat) : Bool :=
  let own := c.held.flatMap (fun h => if h.clause = cl then heldLines h.eff else [])
  let need := ((linesOf addr len).filter (fun l => !own.contains (dev, l))).length
  decide (holdbackUsed c + need ≤ 128)

/-- Hold an effect until the clause seals, under the next number. -/
def hold (s : State) (k cl : Nat) (e : Effect) : State :=
  bumpId { s with core := { s.core with held := s.core.held ++ [⟨freshId s, k, cl, clauseClock s k cl, e⟩] } }

/-! ### Counters of R296 -/

/-- The counters of slot `k` that an event code selects. -/
def pmHits (s : State) (k ev : Nat) : List Nat :=
  (List.range 4).filter (fun j => decide ((sget (getCtl s k).status (0x30 + j)).toNat = ev))

/-- What they count in this cycle. -/
def countNow (s : State) (k ev n : Nat) : State :=
  { s with core := { s.core with counted := (pmHits s k ev).foldl (fun m j => mset 0 m (4 * k + j) (mget 0 m (4 * k + j) + n)) s.core.counted } }

/-- Count `n` events of code `ev` for slot `k`; `cl` is the clause of the word or command, 0 where none (R296). -/
def pmCount (s : State) (k cl ev n : Nat) : State :=
  changes (countNow s k ev n) k cl ((pmHits s k ev).map (fun j => .statusAdd (0x38 + j) n 64))

end Sys2Proof.Machine
end

