-- ==== Sys2Proof/Machine/Memory.lean ====
section
/-! DEFINITION. Memory: the device physical map (R212), page tables and translation (R213 to R220), the publish map on the
way of an access (R228), core scratchpad and its windows (R93, R96, R124), and reads that see the thread's own held
stores (R94, R221). -/

namespace Sys2Proof.Machine

/-! ### The physical map (R212) -/

/-- First physical address of host memory, and of the cluster scratchpads. -/
def hostBase : Nat := 0x40000000000
def spkBase : Nat := 0x60000000000
def spkSize : Nat := 0x800000
def tier2Base : Nat := 0x20000000000

/-- A byte of the device physical map is present (R212, R254). -/
def presentByte (p : Package) (pa : Nat) : Bool :=
  if pa < 0x8000000000 then p.config.hbm.getLsbD (pa / 0x1000000000) && decide (pa % 0x1000000000 < 64000000000)
  else if pa < tier2Base then false
  else if pa < hostBase then decide (pa - tier2Base < p.config.tier2)
  else if pa < spkBase then true
  else decide (pa - spkBase < 24 * spkSize)

/-- The region of the map an address lies in: HBM stack 0 to 7, a hole, second tier, host, cluster scratchpads. -/
def regionOf (pa : Nat) : Nat :=
  if pa < 0x8000000000 then pa / 0x1000000000
  else if pa < tier2Base then 8
  else if pa < hostBase then 9
  else if pa < spkBase then 10
  else 11

/-- Every byte of an interval is present; regions are intervals, so the ends decide. -/
def presentRange (p : Package) (pa n : Nat) : Bool :=
  presentByte p pa && presentByte p (pa + (n - 1)) && decide (regionOf (pa + (n - 1)) = regionOf pa)

/-- Storage code of a poisoned translation: 2 or 3, by where the entry or the frame lies (R215). -/
def walkCode (pa : Nat) : Nat := if pa < tier2Base then 2 else 3

/-- Core fault record code of the storage an address lies in (Table 11.4). -/
def storageCode (pa : Nat) : Nat :=
  if pa < tier2Base then 2 else if pa < hostBase then 3 else if pa < spkBase then 3 else 1

/-- A poisoned line lies in the interval. -/
def poisoned (p : Package) (pa n : Nat) : Bool := (linesOf pa n).any (fun l => p.poison.contains l)

/-- The address of the first poisoned line an interval touches. -/
def poisonAt (p : Package) (pa n : Nat) : Option Nat :=
  (findFirst (fun l => p.poison.contains l) (linesOf pa n)).map (fun l => max pa (64 * l))

/-- A field of a byte list. -/
def fieldAt (bs : List Byte) (off n : Nat) : Nat := leNat ((bs.drop off).take n)

def readMem (s : State) (pa n : Nat) : List Byte := readBytes s.pkg.mem pa n

/-- Perform a write of whole bytes; a line written wholly loses its poison (R29). -/
def writeMem (s : State) (pa : Nat) (bs : List Byte) : State :=
  let whole := (linesOf pa bs.length).filter (fun l => decide (pa ≤ 64 * l) && decide (64 * l + 64 ≤ pa + bs.length))
  { s with pkg := { s.pkg with
      mem := writeBytes s.pkg.mem pa bs
      poison := s.pkg.poison.filter (fun l => !whole.contains l) } }

/-! ### Contexts -/

def getCtx (s : State) (c : Nat) : Context := mget Context.fresh s.pkg.contexts c

def setCtx (s : State) (c : Nat) (x : Context) : State :=
  { s with pkg := { s.pkg with contexts := mput s.pkg.contexts c x } }

def threadCtx (s : State) (k : Nat) : Context := getCtx s (getSlot s k).thread.ctx

/-! ### Page tables (R213 to R215) -/

inductive WalkResult where
  | leaf (va size pa : Nat) (e : BitVec 64)
  | none
  | check (storage : Nat)
  deriving DecidableEq, Repr

/-- Index of a virtual address at a level, and the bytes a leaf of the level covers (Table 13.3). -/
def levelIndex (va level : Nat) : Nat :=
  match level with
  | 0 => bits va 39 13
  | 1 => bits va 30 9
  | 2 => bits va 21 9
  | _ => bits va 16 5

def levelSize (level : Nat) : Nat :=
  match level with
  | 0 => 2 ^ 39
  | 1 => 2 ^ 30
  | 2 => 2 ^ 21
  | _ => 2 ^ 16

/-- The SIZE code of a leaf at a level. -/
def levelCode (level : Nat) : Nat :=
  match level with
  | 1 => 2
  | 2 => 1
  | _ => 0

/-- Frames in cluster scratchpad lie in clusters of the context's set (R187). -/
def frameAllowed (c : Context) (pa : Nat) : Bool :=
  if pa < spkBase then true else c.clusters.getLsbD ((pa - spkBase) / spkSize)

/-- Judge a leaf (R214, R215). -/
def judgeLeaf (p : Package) (c : Context) (va level e : Nat) : WalkResult :=
  let frame := bits e 24 35 * 256
  let size := levelSize level
  if level = 0 ∨ bits e 6 2 ≠ levelCode level then .none
  else if frame % size ≠ 0 ∨ presentRange p frame size = false ∨ frameAllowed c frame = false ∨
      frameAllowed c (frame + (size - 1)) = false then .none
  else .leaf (va / size * size) size frame (BitVec.ofNat 64 e)

/-- The reserved bits of an entry: [63:59], [23:16], KIND 3, FMT above 8 (R214). -/
def pteReserved (e : Nat) : Bool :=
  decide (bits e 59 5 ≠ 0) || decide (bits e 16 8 ≠ 0) ||
    (bit e 1 && (decide (bits e 8 2 = 3) || decide (8 < bits e 10 4)))

/-- The walk (R215), over the levels still to read. -/
def walkFrom (s : State) (c : Context) (va : Nat) : List Nat → Nat → WalkResult
  | [], _ => .none
  | level :: rest, t =>
    let ea := t + 8 * levelIndex va level
    if presentRange s.pkg ea 8 = false then .none
    else if poisoned s.pkg ea 8 then .check (walkCode ea)
    else
      let e := leNat (readMem s ea 8)
      if bit e 1 && bit e 15 then .check (walkCode (bits e 24 35 * 256))
      else if bit e 0 = false then .none
      else if pteReserved e then .none
      else if bit e 1 then judgeLeaf s.pkg c va level e
      else if level = 3 ∨ bits e 2 14 ≠ 0 then .none
      else walkFrom s c va rest (bits e 24 35 * 256)

/-- The levels of a walk from one on. -/
def levelsFrom (level : Nat) : List Nat := [0, 1, 2, 3].drop level

/-- The level whose table a walk-cache entry of a span points to. -/
def pointerLevel (e : TlbEntry) : Nat := if e.size = levelSize 0 then 1 else if e.size = levelSize 1 then 2 else 3

/-- The entry of the walk cache that covers most of a walk: the one of the least span (R219). -/
def walkStart (p : Package) (c : Context) (va : Nat) : Option TlbEntry :=
  (p.walkCache.filter (fun e => decide (e.asid = c.asid) && decide (e.va ≤ va) && decide (va < e.va + e.size))).foldl (fun b e =>
    match b with
    | none => some e
    | some x => if e.size < x.size then some e else b) none

/-- Translate a virtual address for a context; bits [63:52] have no translation (R213). A walk reads the levels that the walk cache
does not cover (R219). -/
def walk (s : State) (c : Context) (va : Nat) : WalkResult :=
  if va < 2 ^ 52 then
    match walkStart s.pkg c va with
    | some e => walkFrom s c va (levelsFrom (pointerLevel e)) e.pa
    | none => walkFrom s c va [0, 1, 2, 3] c.root
  else .none

/-- The valid pointer entries a walk reads on its way to a leaf. -/
def walkPointers (s : State) (c : Context) (va : Nat) : List Nat → Nat → List TlbEntry
  | [], _ => []
  | level :: rest, t =>
    let e := leNat (readMem s (t + 8 * levelIndex va level) 8)
    if bit e 1 || !bit e 0 || decide (level = 3) then []
    else
      let n := bits e 24 35 * 256
      ⟨c.asid, va / levelSize level * levelSize level, levelSize level, n, BitVec.ofNat 64 e⟩ :: walkPointers s c va rest n

/-- The pointer entries of the walk of an address that has a leaf. -/
def pointersOf (s : State) (c : Context) (va : Nat) : List TlbEntry :=
  match walkStart s.pkg c va with
  | some e => walkPointers s c va (levelsFrom (pointerLevel e)) e.pa
  | none => walkPointers s c va [0, 1, 2, 3] c.root

/-! ### TLBs (R219, R230) -/

def tlbHit (t : List TlbEntry) (asid va : Nat) : Option TlbEntry :=
  findFirst (fun e => decide (e.asid = asid) && decide (e.va ≤ va) && decide (va < e.va + e.size)) t

def dropIndex {α : Type} : List α → Nat → List α
  | [], _ => []
  | _ :: r, 0 => r
  | x :: r, n + 1 => x :: dropIndex r n

/-- Fill a TLB of `cap` entries; a full one replaces an entry of the implementation's choice. -/
def tlbFill (cap use : Nat) (t : List TlbEntry) (e : TlbEntry) : List TlbEntry :=
  if t.contains e then t
  else if t.length < cap then t ++ [e]
  else dropIndex t (Config.tlbVictim use % cap) ++ [e]

def getItlb (c : Core) : VoiceId → List TlbEntry
  | .A => c.itlbA
  | .X0 => c.itlbX0
  | .X1 => c.itlbX1
  | .C => c.itlbC

def setItlb (c : Core) (v : VoiceId) (t : List TlbEntry) : Core :=
  match v with
  | .A => { c with itlbA := t }
  | .X0 => { c with itlbX0 := t }
  | .X1 => { c with itlbX1 := t }
  | .C => { c with itlbC := t }

/-- The translation of an address through a first-level TLB, the second-level TLB or a walk. -/
def lookupVia (s : State) (first : List TlbEntry) (c : Context) (va : Nat) : WalkResult :=
  match tlbHit first c.asid va with
  | some e => .leaf e.va e.size e.pa e.leaf
  | none =>
    match tlbHit s.pkg.l2tlb c.asid va with
    | some e => .leaf e.va e.size e.pa e.leaf
    | none => walk s c va

/-- The second-level TLB keeps a translation that the first level `first` lacks; one that a walk has found leaves its pointer entries
in the walk cache of 256. -/
def fillSecond (s : State) (first : List TlbEntry) (c : Context) (t : TlbEntry) : Package :=
  let hit := (tlbHit first c.asid t.va).isSome
  { s.pkg with
    l2tlb := if hit then s.pkg.l2tlb else tlbFill 4096 s.fresh s.pkg.l2tlb t
    walkCache :=
      if hit || (tlbHit s.pkg.l2tlb c.asid t.va).isSome then s.pkg.walkCache
      else (pointersOf s c t.va).foldl (fun w e => tlbFill 256 s.fresh w e) s.pkg.walkCache }

/-- Keep the translation used in the data TLB and the second level. -/
def fillData (s : State) (c : Context) : WalkResult → State
  | .leaf va size pa e =>
    let t : TlbEntry := ⟨c.asid, va, size, pa, e⟩
    { s with
      core := { s.core with
        dtlb := if (tlbHit s.core.dtlb c.asid va).isSome then s.core.dtlb else tlbFill 64 s.fresh s.core.dtlb t }
      pkg := fillSecond s s.core.dtlb c t
      fresh := s.fresh + 1 }
  | _ => s

def fillFetch (s : State) (v : VoiceId) (c : Context) : WalkResult → State
  | .leaf va size pa e =>
    let t : TlbEntry := ⟨c.asid, va, size, pa, e⟩
    { s with
      core := setItlb s.core v (if (tlbHit (getItlb s.core v) c.asid va).isSome then getItlb s.core v
        else tlbFill 16 s.fresh (getItlb s.core v) t)
      pkg := fillSecond s (getItlb s.core v) c t
      fresh := s.fresh + 1 }
  | _ => s

/-! ### Accesses (R217, R218, R228) -/

/-- What an access does. -/
inductive Acc where
  | read
  | write
  | fetch
  deriving DecidableEq, Repr

/-- The leaf permits the access (R218). -/
def permits (e : BitVec 64) (a : Acc) (smode : Bool) : Bool :=
  (match a with
   | .read => e.getLsbD 2
   | .write => e.getLsbD 3
   | .fetch => e.getLsbD 4) && (smode || e.getLsbD 5)

def leafKind (e : BitVec 64) : Nat := bits e.toNat 8 2

def leafFmt (e : BitVec 64) : Nat := bits e.toNat 10 4

def leafGeo (e : BitVec 64) : Nat := bits e.toNat 14 1

/-- The publish-map entry whose range holds an address (R228). -/
def pubEntry (c : Context) (va : Nat) : Option (Nat × PubMap) :=
  findFirst (fun p => p.2.valid && decide (p.2.va ≤ va) && decide (va < p.2.va + p.2.units * 0x200000)) c.pubmap

/-- A physical address has 43 bits (R7). -/
def physBits (a : Nat) : Nat := a % 2 ^ 43

/-- The physical address after the publish map: the front half (R228). -/
def pubFront (c : Context) (va pa : Nat) : Nat :=
  match pubEntry c va with
  | none => pa
  | some (_, p) => physBits ((if p.front then p.half1 else p.half0) + (va - p.va))

/-- A part of an access inside one page. -/
structure Part where
  va : Nat
  pa : Nat
  len : Nat
  leaf : BitVec 64
  deriving DecidableEq, Repr

/-- The outcome of translating an access. -/
inductive AccRes where
  | ok (ps : List Part)
  | trap (cause fault : Nat)
  | check (va storage : Nat)
  deriving DecidableEq, Repr

/-- Translate one page's part of an access. -/
def translateOne (s : State) (c : Context) (smode : Bool) (a : Acc) (va len : Nat) : State × AccRes :=
  match lookupVia s s.core.dtlb c va with
  | .none => (s, .trap 0x09 va)
  | .check st => (s, .check va st)
  | .leaf pva size pa e =>
    let s1 := fillData s c (.leaf pva size pa e)
    if permits e a smode then (s1, .ok [⟨va, pubFront c va (pa + (va - pva)), len, e⟩]) else (s1, .trap 0x09 va)

/-- Where the page that holds an address ends; inside a larger page the publish map may end a part sooner, at one of its units. -/
def pageEnd (s : State) (c : Context) (va len : Nat) : Nat :=
  let cut (n : Nat) : Nat := (va / n + 1) * n
  match lookupVia s s.core.dtlb c va with
  | .leaf pva size _ _ =>
    if (pubEntry c va).map (fun p => p.1) = (pubEntry c (va + (len - 1))).map (fun p => p.1) then pva + size
    else min (pva + size) (cut 0x200000)
  | _ => cut 0x10000

/-- Translate an access of `len` bytes, at most 64 KiB: one part, or two where it straddles pages (R217). -/
def translate (s : State) (c : Context) (smode : Bool) (a : Acc) (va len : Nat) : State × AccRes :=
  let cut := pageEnd s c va len
  if va + len ≤ cut then translateOne s c smode a va len
  else
    match translateOne s c smode a va (cut - va) with
    | (s1, .ok ps) =>
      match translateOne s1 c smode a cut (va + len - cut) with
      | (s2, .ok qs) => (s2, .ok (ps ++ qs))
      | r => r
    | r => r

/-- The pages of an access differ in KIND; or, for a queue word, in FMT or GEO (R217). -/
def kindsDiffer (q : Bool) : List Part → Bool
  | [x, y] =>
    decide (leafKind x.leaf ≠ leafKind y.leaf) ||
      (q && (decide (leafFmt x.leaf ≠ leafFmt y.leaf) || decide (leafGeo x.leaf ≠ leafGeo y.leaf)))
  | _ => false

/-! ### Reads that see the thread's own stores (R94, R174, R221) -/

/-- Lay one store over bytes read from `a`. -/
def overlay (a : Nat) (bs : List Byte) (at_ : Nat) (ws : List Byte) : List Byte :=
  if at_ < a + bs.length ∧ a < at_ + ws.length then
    (List.range bs.length).map (fun i =>
      if at_ ≤ a + i ∧ a + i < at_ + ws.length then ws.getD (a + i - at_) 0 else bs.getD i 0)
  else bs

def overlayAll (a : Nat) (bs : List Byte) : List (Nat × List Byte) → List Byte
  | [] => bs
  | (at_, ws) :: r => overlayAll a (overlay a bs at_ ws) r

/-- A store by its number in issue order. -/
structure OwnStore where
  id : Nat
  addr : Nat
  data : List Byte
  deriving DecidableEq, Repr

/-- A store to a device address that a read with a place in thread order sees before it is performed: an earlier store of voice A, or
a write of a command whose arrival a CWAIT has consumed before the read (R221, R234, R242). -/
def ownStore (c : Core) (ord : List Nat) (id : Nat) : Effect → Option OwnStore
  | .store true a d _ _ cmd _ _ =>
    if (if cmd = 0 then decide (id < ord.getD 0 0) else c.consumed.any (fun p => decide (p.1 = cmd) && decide (p.2 < ord.getD 3 0)))
    then some ⟨id, a, d⟩ else none
  | _ => none

def insertStore (x : OwnStore) : List OwnStore → List OwnStore
  | [] => [x]
  | y :: r => if x.id ≤ y.id then x :: y :: r else y :: insertStore x r

/-- Those of slot `k`, oldest first. -/
def ownStores (s : State) (k : Nat) (ord : List Nat) : List (Nat × List Byte) :=
  (((s.core.out.filterMap (fun o => if o.slot = k then ownStore s.core ord o.id o.eff else none)) ++
    (s.core.held.filterMap (fun h => if h.slot = k then ownStore s.core ord h.id h.eff else none))).foldr insertStore []).map
    (fun x => (x.addr, x.data))

/-- Bytes of device memory as a read of slot `k` with a place in thread order sees them. -/
def readDev (s : State) (k : Nat) (ord : List Nat) (pa n : Nat) : List Byte :=
  overlayAll pa (readMem s pa n) (ownStores s k ord)

/-- A held store lies over some byte of an interval of core scratchpad, or of device memory. -/
def heldOver (dev : Bool) (a n : Nat) (h : Held) : Bool :=
  match h.eff with
  | .store d b bs _ _ _ _ _ => decide (d = dev) && decide (a < b + bs.length) && decide (b < a + n)
  | _ => false

/-- The held device stores that a read of slot `k` with a place in thread order takes bytes from, or would but for later ones. -/
def heldSeen (s : State) (k : Nat) (ord : List Nat) (a n : Nat) : List Held :=
  s.core.held.filter (fun h => decide (h.slot = k) && heldOver true a n h && (ownStore s.core ord h.id h.eff).isSome)

/-- The address of a poisoned entry of the hold-back buffer among those a read consumes (R182). -/
def badHeld (s : State) (a : Nat) (hs : List Held) : Option Nat :=
  (hs.filterMap (fun h =>
    match h.eff with
    | .store _ b _ _ _ _ _ _ => if s.core.badRows.contains (8, h.id) then some (max a b) else none
    | _ => none)).head?

/-- ... of a read of device memory: what it sees of its slot's stores (R221). -/
def devHeldPoison (s : State) (k : Nat) (ord : List Nat) (a n : Nat) : Option Nat := badHeld s a (heldSeen s k ord a n)

/-- ... of a read of core scratchpad: every held store is seen (R94). -/
def spadHeldPoison (s : State) (a n : Nat) : Option Nat := badHeld s a (s.core.held.filter (heldOver false a n))

/-- The place in thread order of an engine's reads: they see every store the slot's voices hold, and no held engine write (R174,
Table 11.2). -/
def afterAll (s : State) : List Nat := [freshId s, freshId s, freshId s, 0]

/-- The held stores to core scratchpad, oldest first. -/
def heldSpad (s : State) : List (Nat × List Byte) :=
  s.core.held.filterMap (fun h =>
    match h.eff with
    | .store false a d _ _ _ _ _ => some (a, d)
    | _ => none)

/-- Bytes of core scratchpad as the core sees them (R94). -/
def readSpad (s : State) (a n : Nat) : List Byte := overlayAll a (readBytes s.core.spad a n) (heldSpad s)

/-- The clauses whose held stores a read of an interval by slot `k` takes bytes from (Table 11.1): of device memory those of the
slot alone (R221), of core scratchpad those of both slots (R94). -/
def heldClauses (s : State) (k : Nat) (dev : Bool) (a n : Nat) : List Nat :=
  s.core.held.filterMap (fun h =>
    match h.eff with
    | .store d b ws _ _ 0 _ _ =>
      if d = dev ∧ (dev = false ∨ h.slot = k) ∧ a < b + ws.length ∧ b < a + n then some h.clause else none
    | _ => none)

/-! ### Core scratchpad (R93, R96, R124) -/

/-- Where a scratchpad interval lies. -/
inductive SpadRes where
  | direct (a : Nat)
  | aperture (pb off : Nat)
  | bad (a : Nat)
  deriving DecidableEq, Repr

/-- The byte lies in the slot's window. -/
def inWindow (t : Thread) (a : Nat) : Bool :=
  decide (t.winBase * 4096 ≤ a) && decide (a < (t.winBase + t.winLen) * 4096) && decide (a < 0x400000)

def pubOf (x : Slot) (k : Nat) : PubBuf := mget ⟨0, 0, 0, false, false⟩ x.pubs k

/-- The byte lies in the aperture of valid publish buffer `pb`. -/
def inAperture (x : Slot) (a pb : Nat) : Bool :=
  let p := pubOf x pb
  p.valid && decide (0x01000000 + pb * 0x100000 ≤ a) && decide (a < 0x01000000 + pb * 0x100000 + p.len)

/-- The first byte of an interval that fails a test. -/
def firstBad (f : Nat → Bool) (a : Nat) : Nat → Option Nat
  | 0 => none
  | n + 1 => if f a then firstBad f (a + 1) n else some a

/-- check(ea, n) of R124. -/
def spadCheck (x : Slot) (ea n : Nat) : SpadRes :=
  if 2 ^ 32 ≤ ea then .bad ea
  else if 0x01000000 ≤ ea ∧ ea < 0x02000000 then
    let pb := (ea - 0x01000000) / 0x100000
    match firstBad (fun a => inAperture x a pb) ea n with
    | none => .aperture pb (ea - (0x01000000 + pb * 0x100000))
    | some a => .bad a
  else
    match firstBad (fun a => inWindow x.thread a) ea n with
    | none => .direct ea
    | some a => .bad a

/-- The half a read through the aperture resolves to: the front (R96). -/
def frontBase (x : Slot) (pb : Nat) : Nat :=
  let p := pubOf x pb
  if p.front then p.half1 else p.half0

def backBase (x : Slot) (pb : Nat) : Nat :=
  let p := pubOf x pb
  if p.front then p.half0 else p.half1

/-- The scratchpad address a load reads, or the fault address. -/
def spadLoadAddr (x : Slot) (ea n : Nat) : Except Nat Nat :=
  match spadCheck x ea n with
  | .direct a => .ok a
  | .aperture pb off => .ok (frontBase x pb + off)
  | .bad a => .error a

/-- The scratchpad address a store of voice A writes, or the fault address; an aperture traps (R124). -/
def spadStoreAddr (x : Slot) (ea n : Nat) : Except Nat Nat :=
  match spadCheck x ea n with
  | .direct a => .ok a
  | .aperture _ _ => .error ea
  | .bad a => .error a

/-! ### Instruction fetch (R59, R218) -/

/-- The word at an address as the fetch path sees it, which does not observe held stores (R63); or a fault. -/
inductive FetchRes where
  | word (w : BitVec 32)
  | fault
  | check (va storage : Nat)
  deriving DecidableEq, Repr

def fetchAt (s : State) (k : Nat) (v : VoiceId) (va : Nat) : FetchRes :=
  let c := threadCtx s k
  match lookupVia s (getItlb s.core v) c va with
  | .none => .fault
  | .check st => .check va st
  | .leaf pva _ pa e =>
    if permits e .fetch (getSlot s k).thread.smode then
      let a := pubFront c va (pa + (va - pva))
      if poisoned s.pkg a 4 then .check a (storageCode a)
      else .word (BitVec.ofNat 32 (leNat (readMem s a 4)))
    else .fault

/-- Keep the translation a fetch used. -/
def fetchFill (s : State) (k : Nat) (v : VoiceId) (va : Nat) : State :=
  let c := threadCtx s k
  fillFetch s v c (lookupVia s (getItlb s.core v) c va)

end Sys2Proof.Machine
end

