-- ==== Sys2Proof/Machine/Host.lean ====
section
/-! DEFINITION. Power, and the host queues of a context: completion records (R247, R248), fault records (R249) and the MSI-X messages
that announce them. -/

namespace Sys2Proof.Machine

/-! ### Power and the host (R251, R255) -/

/-- The package is powered and has booted. -/
def powered (s : State) : Bool := decide (s.pkg.power = .active) || decide (s.pkg.power = .idle)

/-- A doorbell or a BAR0 write ends PACKAGE-IDLE (Table 17.5). -/
def wake (s : State) : State := if s.pkg.power = .idle then { s with pkg := { s.pkg with power := .active } } else s

/-! ### Queues -/

/-- Announce vector `c` (Table 17.2). -/
def raiseMsix (s : State) (c : Nat) : State := { s with pkg := { s.pkg with msix := s.pkg.msix ++ [c] } }

/-- Entries of a host ring that are written and not yet consumed. -/
def ringUsed (r : HostRing) : Nat := (r.tail + 2 ^ 32 - r.head) % 2 ^ 32

def ringFull (r : HostRing) : Bool := decide (r.size ≤ ringUsed r)

/-- Write a record at the tail of a ring of `n`-byte entries in host memory. -/
def ringPut (s : State) (r : HostRing) (n : Nat) (bs : List Byte) : State :=
  writeMem s (hostBase + r.base + r.tail % r.size * n) bs

def ringStep (r : HostRing) : HostRing := { r with tail := (r.tail + 1) % 2 ^ 32 }

/-- Post a completion record: written, or held by the hub while the queue is full (R248); a debug notice that finds 128
records held is dropped. -/
def postCompletion (s : State) (c : Nat) (notice : Bool) (bs : List Byte) : State :=
  let x := getCtx s c
  if x.heldCompletions = [] ∧ ringFull x.cq = false then
    raiseMsix (setCtx (ringPut s x.cq 32 bs) c { x with cq := ringStep x.cq }) c
  else if notice ∧ 128 ≤ x.heldCompletions.length then setCtx s c { x with droppedNotices := x.droppedNotices + 1 }
  else setCtx s c { x with heldCompletions := x.heldCompletions ++ [bs] }

/-- Post a fault record, padded to 64 bytes: written, held up to 64 deep, or dropped and counted (R249). -/
def postFault (s : State) (c : Nat) (bs : List Byte) : State :=
  let x := getCtx s c
  let rec64 := bs ++ List.replicate (64 - bs.length) 0
  if x.heldFaults = [] ∧ ringFull x.fq = false then
    raiseMsix (setCtx (ringPut s x.fq 64 rec64) c { x with fq := ringStep x.fq }) c
  else if x.heldFaults.length < 64 then setCtx s c { x with heldFaults := x.heldFaults ++ [rec64] }
  else setCtx s c { x with droppedFaults := x.droppedFaults + 1 }

/-- Doublewords as bytes. -/
def dwords : List Nat → List Byte
  | [] => []
  | x :: r => leBytes 8 x ++ dwords r

/-- The kind-6 record of a thread stopped by an unhandled trap (R249). -/
def kind6 (s : State) (k recAddr cause : Nat) (nested lost : Bool) (failed : Nat) : List Byte :=
  let t := (getSlot s k).thread
  dwords [6 + s.core.index * 2 ^ 8 + k * 2 ^ 16 + t.tag.toNat * 2 ^ 32, if lost then 0 else recAddr,
    cause + (if nested then 2 ^ 16 else 0) + (if lost then 2 ^ 17 else 0), if lost then failed else 0]

end Sys2Proof.Machine
end

