-- ==== Sys2Proof/Machine/Trace.lean ====
section
/-! DEFINITION. Spans of a context's virtual memory, the trace ring and its records (R292 to R294), and the snapshot of the bank
matrix at a loop's exhaustion (R295). -/

namespace Sys2Proof.Machine

/-! ### Spans of virtual memory -/

/-- The parts of a span, page by page of 64 KiB, with the permission asked for; or the first byte that lacks it. -/
def spanParts (s : State) (c : Context) (smode : Bool) (a : Acc) (va : Nat) : Nat → Nat → Except Nat (List Part)
  | 0, _ => .ok []
  | _, 0 => .ok []
  | n + 1, len =>
    let here := min len ((va / 0x10000 + 1) * 0x10000 - va)
    match translateOne s c smode a va here with
    | (_, .ok ps) =>
      match spanParts s c smode a (va + here) n (len - here) with
      | .ok qs => .ok (ps ++ qs)
      | .error e => .error e
    | _ => .error va

/-- The physical address of an address in a translated span. -/
def partAddr (ps : List Part) (va : Nat) : Nat :=
  match findFirst (fun p => decide (p.va ≤ va) && decide (va < p.va + p.len)) ps with
  | some p => p.pa + (va - p.va)
  | none => 0

/-- Every page of a span of `n` bytes as the hub reaches it, with U-mode permissions. -/
def hubSpan (s : State) (c : Context) (a : Acc) (va n : Nat) : Option (List Part) :=
  match spanParts s c false a va (n / 0x10000 + 2) n with
  | .ok ps => some ps
  | .error _ => none

/-- Write bytes through the parts of a span. -/
def writeParted (s : State) (ps : List Part) (bs : List Byte) : State :=
  match ps with
  | [] => s
  | p :: r => writeParted (writeMem s p.pa (bs.take p.len)) r (bs.drop p.len)

/-- Write bytes to a context's virtual memory. -/
def writeVirt (s : State) (c : Context) (va : Nat) (bs : List Byte) : Option State :=
  (hubSpan s c .write va bs.length).map (fun ps => writeParted s ps bs)

/-- Read bytes of a context's virtual memory. -/
def readVirtual (s : State) (c : Context) (va n : Nat) : Option (List Byte) :=
  (hubSpan s c .read va n).map (fun ps => ps.flatMap (fun p => readMem s p.pa p.len))

/-! ### The trace ring (R293, R294) -/

/-- Frames of the ring, behind its first 4096 bytes. -/
def traceFrames (t : Trace) : Nat := 16 * t.units - 1

/-- Frames the debugger has passed: the 8-byte value at the ring's base. -/
def traceRead (s : State) (c : Context) (t : Trace) : Nat :=
  match readVirtual s c t.base 8 with
  | some bs => leNat bs
  | none => 0

/-- A frame as it is written: header, records, zeros. -/
def frameBytes (t : Trace) : List Byte :=
  dwords [t.written % 2 ^ 32 + t.frame.length % 2 ^ 16 * 2 ^ 32 + t.records % 2 ^ 16 * 2 ^ 48, t.lost] ++ t.frame ++
    List.replicate (4080 - t.frame.length) 0

/-- The current frame is over: written whole, or not at all while it would overwrite a frame that is not passed. -/
def closeFrame (s : State) (c : Nat) (t : Trace) : State × Trace :=
  let x := getCtx s c
  let dropped : Trace := { t with frame := [], records := 0, lost := t.lost + t.records }
  if traceFrames t ≤ t.written - traceRead s x t then (s, dropped)
  else
    match writeVirt s x (t.base + 4096 + t.written % traceFrames t * 4096) (frameBytes t) with
    | some u => (u, { t with frame := [], records := 0, lost := 0, written := t.written + 1 })
    | none => (s, dropped)

/-- A field in eight literal bytes: a coder may choose any byte that yields the value. -/
def codedField (x : Nat) : List Byte := 0xC8 :: leBytes 8 x

/-- A record of slot `k`: kind, source, fields. -/
def traceBytes (s : State) (k kind : Nat) (fields : List Nat) : List Byte :=
  BitVec.ofNat 8 kind :: BitVec.ofNat 8 (s.core.index % 48 + k * 2 ^ 6) :: fields.flatMap codedField

/-- Record an occurrence in slot `k` for context `c`, where its kind is enabled: the six kinds 1 to 6 under the six mask bits in
order (log entry 67). It is coded at the end of the cycle. -/
def traceRec (s : State) (c k kind : Nat) (fields : List Nat) : State :=
  match (getCtx s c).trace with
  | none => s
  | some t =>
    if bit t.mask (kind - 1) then
      setCtx s c { getCtx s c with trace := some { t with arrived := t.arrived ++ [(k, traceBytes s k kind fields)] } }
    else s

/-- Code a record: into the frame, or into the next where it does not fit. -/
def codeRecord (s : State) (c : Nat) (bs : List Byte) : State :=
  match (getCtx s c).trace with
  | none => s
  | some t =>
    let x := if 4080 < t.frame.length + bs.length then closeFrame s c t else (s, t)
    setCtx x.1 c { getCtx x.1 c with trace := some { x.2 with frame := x.2.frame ++ bs, records := x.2.records + 1 } }

/-- The records of a cycle are coded in order of slot (R292). -/
def flushTrace (s : State) (c : Nat) : State :=
  match (getCtx s c).trace with
  | none => s
  | some t =>
    if t.arrived = [] then s
    else
      let of (k : Nat) : List (List Byte) := (t.arrived.filter (fun r => decide (r.1 % 2 = k))).map (fun r => r.2)
      (of 0 ++ of 1).foldl (fun u bs => codeRecord u c bs) (setCtx s c { getCtx s c with trace := some { t with arrived := [] } })

def flushTraces (s : State) : State := (s.pkg.contexts.map (fun c => c.1)).foldl flushTrace s

/-- Record an occurrence of the thread in slot `k`. -/
def traceThread (s : State) (k kind : Nat) (fields : List Nat) : State := traceRec s (getSlot s k).thread.ctx k kind fields

/-! ### Loop exits (R295) -/

/-- The counts of a slot's snapshot, requester by requester. -/
def snapCounts (s : State) (k : Nat) : List Nat := (List.range 128).map (fun i => (sget s.core.bankSnap (128 * k + i)).toNat)

/-- Loop levels of a voice are exhausted, with these end addresses: the slot's bank matrix is copied to its snapshot, which is
recorded once for the voice, with the end of the innermost level. -/
def snapshotBanks (s : State) (k : Nat) (v : VoiceId) (ends : List VAddr) : State :=
  match ends with
  | [] => s
  | e :: _ =>
    let keep := s.core.bankSnap.filter (fun p => decide (p.1 / 128 ≠ k))
    let new := s.core.bankMatrix.filter (fun p => decide (p.1 / 128 = k))
    let s1 : State := { s with core := { s.core with bankSnap := new.foldl (fun m p => sset m p.1 p.2) keep } }
    traceThread s1 k 6 ([(getSlot s1 k).scyc.toNat, v.num, e.toNat] ++ snapCounts s1 k)

/-- The matrix and the snapshot of a slot start at zero with its thread. -/
def clearBanks (s : State) (k : Nat) : State :=
  { s with core := { s.core with
      bankMatrix := s.core.bankMatrix.filter (fun p => decide (p.1 / 128 ≠ k))
      bankSnap := s.core.bankSnap.filter (fun p => decide (p.1 / 128 ≠ k)) } }

/-! ### Debug notices (R291) -/

/-- A debug notice to the queue of the session. -/
def debugNotice (s : State) (k reason image : Nat) : State :=
  let x := getSlot s k
  match (getCtx s x.thread.ctx).session with
  | none => s
  | some q =>
    postCompletion s q true (dwords [3 + reason * 2 ^ 16 + x.thread.tag.toNat * 2 ^ 32, image,
      s.core.index + k * 2 ^ 8, x.scyc.toNat])

end Sys2Proof.Machine
end

