-- ==== Sys2Proof/Machine/Ops.lean ====
section
/-! DEFINITION. The operations every instruction shares: faced writes and clashes (R14, R18), FLIP (R16), the chain and the
loops (R21 to R23), the fate of a word at issue (R46) with lockstep (R82) and predication (R19), stopping a thread (R25),
taking a trap (R26 to R29) and returning from it (R74). -/

namespace Sys2Proof.Machine

abbrev Out := Host.Outcome State Fault Refusal

/-! ### Where a word issues -/

/-- The slot, the voice and the chain entry at which a word issues. -/
structure Here where
  k : Nat
  v : VoiceId
  addr : VAddr
  nul : Bool
  deriving DecidableEq, Repr

def hereOf (s : State) : Here :=
  let v := turnVoice s.turn
  let a := getArch s s.core.act v
  ⟨s.core.act, v, a.na0.addr, a.na0.nul⟩

def archAt (s : State) (h : Here) : VoiceArch := getArch s h.k h.v

def setArchAt (s : State) (h : Here) (a : VoiceArch) : State := setArch s h.k h.v a

def slotAt (s : State) (h : Here) : Slot := getSlot s h.k

def clauseAt (s : State) (h : Here) : Nat := curClause s h.k h.v

def changeAt (s : State) (h : Here) (c : Change) : State := change s h.k (clauseAt s h) c

def depAt (s : State) (h : Here) (p : Nat) : State := addDep s h.k h.v p

/-- The word takes what another voice has left for it: its clause depends on that one's (Table 11.1), and what precedes that
voice's word precedes this voice's next words (R235). -/
def linkAt (s : State) (h : Here) (p : Nat) (ord : List Nat) : State := joinVoice (depAt s h p) h.k h.v ord

def inHandler (x : Slot) : Bool := decide (x.run = .handler)

/-- The voice has exited, or is held while voice A runs a handler and so counts as exited (R75). -/
def countsExited (s : State) (k : Nat) (v : VoiceId) : Bool :=
  (getArch s k v).exited || (inHandler (getSlot s k) && decide (v ≠ .A))

/-! ### What a word does -/

/-- How a word moves the chain (R21): on, to a target, as a branch of a form, or not at all (LOOP has rebuilt it, EXIT
has discarded it, the word waits on). -/
inductive Flow where
  | seq
  | jump (t : VAddr) (pops : Bool)
  | branch (taken : Bool) (t : VAddr) (form : Nat)
  | keep
  deriving DecidableEq, Repr

/-- The outcome of a word's body: it stalls (on a yielding wait or not), traps, retires, or the core halts. -/
inductive Res where
  | stall (yields : Bool) (s : State)
  | trap (cause : Nat) (fault : Word) (s : State)
  | retire (flow : Flow) (boundary : Bool) (s : State)
  /-- A waiting word whose wait has ended leaves; the next word may issue in the same cycle, or in the next (R192, R263). -/
  | leave (same : Bool) (s : State)
  | halt (s : State)
  deriving DecidableEq, Repr

/-! ### Faced writes (R14, R18, R48) -/

/-- A faced write: register, value, latency. -/
structure Wr where
  reg : RegId
  val : Row
  lat : Nat
  deriving DecidableEq, Repr

/-- The write clashes (R18). -/
def clashes (a : VoiceArch) (r : RegId) : Bool :=
  !isConstReg r && (wGet a r || a.pending.any (fun p => decide (p.reg = r)))

/-- Entries of the pending-result file (R24). -/
def fileSize (v : VoiceId) : Nat := if v.isX then 32 else 16

/-- Pending results a list of writes needs room for. -/
def needs (ws : List Wr) : Nat := (ws.filter (fun w => !isConstReg w.reg)).length

def fileFull (v : VoiceId) (a : VoiceArch) (n : Nat) : Bool := decide (0 < n) && decide (fileSize v < a.pending.length + n)

/-- CLASH is set and CLASHCNT counts, saturating (R18). -/
def noteClash (a : VoiceArch) : VoiceArch :=
  { a with clash := true, clashcnt := if a.clashcnt = BitVec.allOnes 32 then a.clashcnt else a.clashcnt + 1 }

/-- Record one write: W at issue, the value on its way. An older pending write of the register never lands (R18). -/
def record (now : Nat) (a : VoiceArch) (w : Wr) : VoiceArch :=
  if isConstReg w.reg then a
  else
    let a1 := if clashes a w.reg then noteClash a else a
    wSet { a1 with pending := (a1.pending.filter (fun p => decide (p.reg ≠ w.reg))) ++ [⟨w.reg, w.val, now + w.lat, now⟩] }
      w.reg

/-- The writes of a word, in order. CLASHCNT counts every register that clashes, where CLASHTRAP is 0; a word that traps counts once
(DESIGN CHOICE, log entry 91). -/
def recordAll (now : Nat) (a : VoiceArch) : List Wr → VoiceArch
  | [] => a
  | w :: r => recordAll now (record now a w) r

/-- Count a word's clashes (R296 event 6). -/
def clashCount (a : VoiceArch) (ws : List Wr) : Nat := (ws.filter (fun w => clashes a w.reg)).length

/-- The writes of a word are recorded, and their clashes counted (R296 event 6). -/
def recordWrites (h : Here) (ws : List Wr) (s : State) : State :=
  pmCount (setArchAt s h (recordAll s.now (archAt s h) ws)) h.k (clauseAt s h) 6 (clashCount (archAt s h) ws)

/-- Make a word's faced writes, then go on: the word stalls while the file is full, traps on a clash that CLASHTRAP makes
precise, and otherwise records the writes (R18, R24). -/
def withWrites (h : Here) (ws : List Wr) (s : State) (go : State → Res) : Res :=
  let a := archAt s h
  if fileFull h.v a (needs ws) then .stall false s
  else if a.clashtrap && ws.any (fun w => clashes a w.reg) then
    .trap 0x04 0 (pmCount (setArchAt s h (noteClash a)) h.k (clauseAt s h) 6 1)
  else go (recordWrites h ws s)

/-- A word whose whole effect is one faced write. -/
def writeOne (h : Here) (r : RegId) (x : Row) (lat : Nat) (s : State) : Res :=
  withWrites h [⟨r, x, lat⟩] s (fun t => .retire .seq false t)

/-- A pending result reaches the hidden face (R14). -/
def landOne (a : VoiceArch) (p : Pending) : VoiceArch := { a with hid := faceSet a.hid p.reg p.val }

/-! ### FLIP (R16) -/

def swapOne (a : VoiceArch) (r : RegId) : VoiceArch :=
  if wGet a r then
    { a with vis := faceSet a.vis r (faceGet a.hid r), hid := faceSet a.hid r (faceGet a.vis r) }
  else a

def swapAll (a : VoiceArch) : List RegId → VoiceArch
  | [] => a
  | r :: rs => swapAll (swapOne a r) rs

/-- The exchange of faces, VFLAGS last with RAISED; every W bit ends 0 (R16). -/
def flipArch (a : VoiceArch) : VoiceArch :=
  let b := swapAll a facedRegs
  let c : VoiceArch :=
    if wGet a .vflags then
      { b with
        vis := { b.vis with vflags := a.hid.vflags ||| a.raised }
        hid := { b.hid with vflags := a.vis.vflags } }
    else { b with vis := { b.vis with vflags := a.vis.vflags ||| a.raised } }
  { c with w := 0, raised := 0 }

/-- The pending-result file is empty, and no flags are on their way: what FLIP, EXIT and ERET wait for (R16, R49). The flags of a
word whose result is discarded count as a result of the word, so that they join the clause's RAISED in whatever order its words stand
(R77, R113; log entry 92). -/
def fileEmpty (a : VoiceArch) : Bool := decide (a.pending = []) && decide (a.flagq = [])

/-! ### The chain (R21 to R23) -/

/-- seq(a): the successor, the loop levels after it, and how many levels were exhausted (R23). -/
def seqFrom (a : VAddr) : List Level → VAddr × List Level × Nat
  | [] => (a + 4, [], 0)
  | l :: r =>
    if a = l.last - 4 then
      if 1 < l.count.toNat then (l.first, { l with count := l.count - 1 } :: r, 0)
      else
        let n := seqFrom a r
        (n.1, n.2.1, n.2.2 + 1)
    else (a + 4, l :: r, 0)

/-- Levels a transfer to `t` leaves: those whose body does not hold the target are popped, innermost first (R23). -/
def popLevels (t : VAddr) : List Level → List Level
  | [] => []
  | l :: r => if l.first.toNat ≤ t.toNat ∧ t.toNat < l.last.toNat then l :: r else popLevels t r

/-- Advance the chain past a word that did not transfer; the number of loop levels exhausted comes second. -/
def chainSeq (a : VoiceArch) : VoiceArch × Nat :=
  let n := seqFrom a.na2.addr a.lc
  ({ a with na0 := a.na1, na1 := a.na2, na2 := ⟨n.1, false⟩, lc := n.2.1, dslots := a.dslots - 1 }, n.2.2)

/-- Advance the chain past a word that transfers. -/
def chainJump (a : VoiceArch) (t : VAddr) (pops : Bool) : VoiceArch :=
  { a with na0 := a.na1, na1 := a.na2, na2 := ⟨t, false⟩, lc := if pops then popLevels t a.lc else a.lc, dslots := 2 }

/-- The nullify form of a branch: BRN (1) nullifies the slots when not taken, BRT (2) when taken (R8, R21). -/
def nullifies (taken : Bool) (form : Nat) : Bool := (decide (form = 1) && !taken) || (decide (form = 2) && taken)

def nulSlots (a : VoiceArch) : VoiceArch :=
  { a with na0 := { a.na0 with nul := true }, na1 := { a.na1 with nul := true } }

/-- The chain after a word, with the levels exhausted. -/
def advance (a : VoiceArch) : Flow → VoiceArch × Nat
  | .seq => chainSeq a
  | .jump t pops => (chainJump a t pops, 0)
  | .branch taken t form =>
    if taken then ((if nullifies taken form then nulSlots else id) (chainJump a t true), 0)
    else
      let n := chainSeq a
      ((if nullifies taken form then nulSlots else id) { n.1 with dslots := 2 }, n.2)
  | .keep => (a, 0)

/-- The ends of the levels that were exhausted: the innermost of the chain before (R23). -/
def endsOf (a : VoiceArch) (n : Nat) : List VAddr := (a.lc.take n).map (fun l => l.last)

/-! ### Retiring and stopping -/

def setMark (s : State) (h : Here) (m : Mark) : State :=
  setVoice s h.k h.v { getVoice s h.k h.v with mark := m }

/-- A word has issued: the chain moves on, the voice and its time slice have issued a word, and a boundary closes the
clause with the chain as the word left it (R21, R172, R176, R207). -/
def retire (h : Here) (flow : Flow) (boundary : Bool) (s : State) : State :=
  let n := advance (archAt s h) flow
  let s1 := pmCount (snapshotBanks (setArchAt s h n.1) h.k h.v (endsOf (archAt s h) n.2)) h.k (clauseAt s h) 2 1
  let s2 := setVoice s1 h.k h.v { getVoice s1 h.k h.v with issued := true, second := false, replay := none, mark := .issued }
  let x := slotAt s2 h
  let s3 := setSlot s2 h.k { x with thread := { x.thread with sliceIssued := true } }
  if boundary then closeClause s3 h.k h.v s3.now false else s3

/-- Close the clauses of all four voices at a stop whose boundary cycle is `b` (R172). -/
def closeAll (s : State) (k b : Nat) : List VoiceId → State
  | [] => s
  | v :: r => closeAll (closeClause s k v b true) k b r

/-- Stop the thread of a slot (R25): every voice before its next unissued word, clauses closed at `b`. Trap entry follows
(R26). -/
def stopThread (s : State) (k cause : Nat) (voice : Option VoiceId) (async : Bool) (fault : Word) (word : BitVec 32)
    (b : Nat) (scyc : Word) : State :=
  let waitFor := (slotClosed s k).map (fun c => c.id)
  let closed := allVoices.map (fun v => curClause s k v)
  let s1 := closeAll s k b allVoices
  let x := getSlot s1 k
  setSlot s1 k { x with
    stop := some ⟨cause, voice, async, fault, word, scyc, b, inHandler x, waitFor, closed⟩
    run := .stopping
    trapped := none }

/-- The word at NA0, for the record of its trap; zero where it cannot be fetched. -/
def currentWord (s : State) (h : Here) : BitVec 32 :=
  match fetchAt s h.k h.v h.addr.toNat with
  | .word w => w
  | _ => 0

/-- A word traps: the thread stops in this cycle, the word not issued (R25, R170). -/
def takeTrap (h : Here) (cause : Nat) (fault : Word) (s : State) : State :=
  setMark (stopThread s h.k cause (some h.v) false fault (currentWord s h) s.now (getSlot s h.k).scyc) h .trapped

/-- Another voice of the thread has issued a word in this cycle. -/
def othersIssued (s : State) (h : Here) : Bool :=
  (otherVoices h.v).any (fun u => decide ((getVoice s h.k u).mark = .issued))

/-- Close a word's outcome. No voice issues in the cycle of a trap (R170), so a word that would trap because of what
another voice has done in the same cycle waits for the next cycle; and one that would trap beside an earlier voice's TRAP
counts as unissued (R25). -/
def finish (h : Here) (s0 : State) : Res → Out
  | .stall y s => .next (setMark s h (if y then .yielding else .stalled))
  | .trap cause fault s =>
    if (slotAt s0 h).trapped.isSome || othersIssued s0 h then .next (setMark s0 h .stalled) else .next (takeTrap h cause fault s)
  | .retire flow b s => .next (retire h flow b s)
  | .leave same s =>
    let n := advance (archAt s h) .seq
    .next (setMark (snapshotBanks (setArchAt s h n.1) h.k h.v (endsOf (archAt s h) n.2)) h (if same then .idle else .stalled))
  | .halt s => if othersIssued s0 h then .next (setMark s0 h .stalled) else .next (setMark s h .trapped)

/-! ### The fate of a word (R46) -/

/-- The voices that may execute a word (Tables 3.7 and 3.8). -/
inductive Perm where
  | all
  | a
  | x
  | c
  | ax
  | ac
  deriving DecidableEq, Repr

def Perm.ok : Perm → VoiceId → Bool
  | .all, _ => true
  | .a, v => decide (v = .A)
  | .x, v => v.isX
  | .c, v => decide (v = .C)
  | .ax, v => decide (v ≠ .C)
  | .ac, v => !v.isX

/-- The voice takes part in lockstep with this word: S = 1, the voice in the cycle's SYNCSET with another, not in a handler, not
already issued (R82, R75). The second word of a pair takes no part: S = 1 is ILLEGAL there (R31, R40). -/
def lockstep (s : State) (h : Here) (sb : BitVec 1) : Bool :=
  decide (sb = 1) && s.syncNow.getLsbD h.v.num && decide (s.syncNow ≠ (1#4 <<< h.v.num)) && !inHandler (slotAt s h) &&
    decide ((archAt s h).wait = none) && !(getVoice s h.k h.v).second

/-- A voice named in the cycle's SYNCSET has exited (R83), and not as a member of a set that issues in this cycle (R82). -/
def lockstepDead (s : State) (h : Here) : Bool :=
  !s.sgo && allVoices.any (fun u => s.syncNow.getLsbD u.num && (getArch s h.k u).exited)

/-- The encoding checks that depend on where a word stands: C = 1 outside an X voice, a pair that is not in sequence, and
S = 1 or C = 1 in the second word of a pair (R31, R40). -/
def pairBad (s : State) (h : Here) (sb cb : BitVec 1) : Bool :=
  (decide (cb = 1) && (!h.v.isX || decide ((archAt s h).na1.addr ≠ h.addr + 4))) ||
    ((getVoice s h.k h.v).second && (decide (sb = 1) || decide (cb = 1)))

/-- R46 for a word that decodes: lockstep, ILLEGAL where it stands, VOICE, PRIV, then the word under its predicate and
nullify bit (R19). `ill` adds what the word's own card makes ILLEGAL, `live` is false when the predicate is. -/
def issue (sb cb : BitVec 1) (perm : Perm) (priv : Bool) (ill : Here → State → Bool) (live : Here → State → Bool)
    (body : Here → State → Res) (s : State) : Out :=
  let h := hereOf s
  let dead := lockstep s h sb && lockstepDead s h
  if lockstep s h sb && !lockstepDead s h && !s.sgo then finish h s (.stall false s)
  else if pairBad s h sb cb || ill h s then finish h s (.trap 0x01 0 s)
  else if !perm.ok h.v then finish h s (.trap 0x02 0 s)
  else if priv && !(slotAt s h).thread.smode then finish h s (.trap 0x03 0 s)
  else if dead then finish h s (.trap 0x0F 0 s)
  else if (h.nul || !live h s) && decide ((archAt s h).wait = none) then finish h s (.retire .seq false s)
  else finish h s (body h s)

def noIll (_ : Here) (_ : State) : Bool := false

def alwaysLive (_ : Here) (_ : State) : Bool := true

/-- The predicate of a format I, R or M word (R19). -/
def predLive (p : BitVec 3) (h : Here) (s : State) : Bool := visP (archAt s h) p

/-- A predicated word any level may execute. -/
def word (sb : BitVec 1) (p : BitVec 3) (perm : Perm) (body : Here → State → Res) (s : State) : Out :=
  issue sb 0 perm false noIll (predLive p) body s

/-- A predicated word that needs S mode. -/
def privWord (sb : BitVec 1) (p : BitVec 3) (perm : Perm) (body : Here → State → Res) (s : State) : Out :=
  issue sb 0 perm true noIll (predLive p) body s

/-- A word that no instruction has: ILLEGAL (R46). -/
def illegalWord (w : BitVec 32) (s : State) : Out :=
  issue (fld w 31 1) 0 .all false (fun _ _ => true) alwaysLive (fun _ t => .halt t) s

/-! ### The steps of FLIP inside a word -/

/-- FLIP, then go on in the new clause: stalls while the file is not empty or the seal queue is full (R16, R176). -/
def withFlip (h : Here) (s : State) (go : State → Res) : Res :=
  if !fileEmpty (archAt s h) || sealQueueFull s h.k h.v then .stall false s
  else go (pmCount (setArchAt s h (flipArch (archAt s h))) h.k (clauseAt s h) 5 1)

/-- Issue a word that ends its clause and then waits: the faces change, the clause closes, NA0 stays at the word (R286). -/
def startWait (h : Here) (kind : WaitKind) (items : List Nat) (dest : Nat) (val : Word) (s : State) : Res :=
  let a := archAt s h
  .retire .keep true (setArchAt s h
    { a with wait := some ⟨kind, clauseAt s h, items, dest, val, s.now, h.addr⟩ })

/-- The voice waits no more. -/
def leaveWait (s : State) (h : Here) : State := setArchAt s h { archAt s h with wait := none, resumed := false }

/-- End a wait: the word leaves, writing its result in the new clause. -/
def endWait (h : Here) (same : Bool) (ws : List Wr) (s : State) : Res :=
  withWrites h ws s (fun t => .leave same (leaveWait t h))

/-! ### Trap entry (R26 to R29) -/

/-- A piece of a record: offset, size and value. -/
abbrev Piece := Nat × Nat × Nat

def naPiece (n : ChainEntry) : Nat := n.addr.toNat / 4 * 4 + (if n.nul then 1 else 0)

/-- VSTAT of a voice (Table 2.2). HANDLER shows in voice A alone, which runs the handler; X0, X1 and C are held and read 0 there
(DESIGN CHOICE, log entry 108). -/
def vstat (a : VoiceArch) (smode : Bool) : Nat :=
  (if a.clash then 1 else 0) + (if smode then 2 else 0) + (if a.handler then 4 else 0) + 8 * a.lc.length

def classOf : RegId → Nat
  | .s _ => 0
  | .p _ => 1
  | .v _ => 2
  | .m _ => 3
  | .vflags => 4

def indexOf : RegId → Nat
  | .s n => n
  | .p n => n
  | .v n => n
  | .m n => n
  | .vflags => 0

def mapPieces {w : Nat} (base size : Nat) (m : SMap w) : List Piece :=
  m.map (fun p => (base + p.1 * size, size, p.2.toNat))

/-- The flags of words still on their way join RAISED when a record takes the state. -/
def settleFlags (a : VoiceArch) : VoiceArch :=
  { a with raised := a.flagq.foldl (fun r f => r ||| f.flags) a.raised, flagq := [] }

/-- The pending entries of a voice's section, with the latency remaining after cycle `at_` (R28). -/
def pendingPieces (base at_ : Nat) : List Pending → Nat → List Piece
  | [], _ => []
  | p :: r, i =>
    (base + 0x2B8 + 136 * i, 8,
      indexOf p.reg + 2 ^ 8 * classOf p.reg + 2 ^ 16 * ((p.due - at_) % 2 ^ 16) + 2 ^ 32 * ((at_ - p.age) % 2 ^ 16)) ::
    (base + 0x2B8 + 136 * i + 8, 128, p.val.toNat) :: pendingPieces base at_ r (i + 1)

def levelPieces (base : Nat) : List Level → Nat → List Piece
  | [], _ => []
  | l :: r, i =>
    (base + 0x30 + 24 * i, 8, l.first.toNat) :: (base + 0x38 + 24 * i, 8, l.last.toNat) ::
      (base + 0x40 + 24 * i, 8, l.count.toNat) :: levelPieces base r (i + 1)

/-- A voice's section at `base` (Table 2.5), all but the zero fields. -/
def sectionPieces (v : VoiceId) (base at_ : Nat) (smode : Bool) (a0 : VoiceArch) : List Piece :=
  let a := settleFlags a0
  [(base, 8, naPiece a.na0), (base + 8, 8, naPiece a.na1), (base + 16, 8, naPiece a.na2),
   (base + 0x18, 8, vstat a smode), (base + 0x20, 8, if a.clashtrap then 1 else 0), (base + 0x28, 8, a.clashcnt.toNat),
   (base + 0x90, 16, a.w.toNat), (base + 0x2A0, 1, 1), (base + 0x2A8, 1, 1), (base + 0x2B0, 8, a.pending.length),
   (base + 0x13F8, 40, a.vis.vflags.toNat), (base + 0x1420, 40, a.hid.vflags.toNat), (base + 0x1448, 40, a.raised.toNat),
   (base + 0x3070, 8, (if decide (v = .C) && (a.resumed || fabricWait a.wait) then 1 else 0) + (if a.exited then 2 else 0))] ++
  levelPieces base a.lc.reverse 0 ++ mapPieces (base + 0xA0) 8 a.vis.s ++ mapPieces (base + 0x1A0) 8 a.hid.s ++
  mapPieces (base + 0x2A0) 1 a.vis.p ++ mapPieces (base + 0x2A8) 1 a.hid.p ++ pendingPieces base at_ a.pending 0 ++
  mapPieces (base + 0x13B8) 4 a.vis.m ++ mapPieces (base + 0x13D8) 4 a.hid.m ++
  mapPieces (base + 0x1470) 128 a.vis.v ++ mapPieces (base + 0x2270) 128 a.hid.v

/-- m0 reads all ones in an X voice's section. -/
def maskConst (base : Nat) : List Piece := [(base + 0x13B8, 4, 0xFFFFFFFF), (base + 0x13D8, 4, 0xFFFFFFFF)]

def sectionBase (v : VoiceId) : Nat := 0x40 + v.num * 0x3080

/-- The whole record of a stopped slot (Table 2.5). -/
def recordPieces (s : State) (k : Nat) (st : Stop) : List Piece :=
  let x := getSlot s k
  let sec (v : VoiceId) : List Piece :=
    sectionPieces v (sectionBase v) s.now x.thread.smode (getArch s k v) ++ (if v.isX then maskConst (sectionBase v) else [])
  [(0, 8, st.cause + 2 ^ 16 * (match st.voice with | some v => v.num | none => 7) + (if st.async then 2 ^ 19 else 0) +
      (if st.nested then 2 ^ 20 else 0) + (if x.thread.smode then 2 ^ 21 else 0)),
   (8, 8, st.fault.toNat), (0x10, 4, st.word.toNat), (0x18, 8, st.scyc.toNat)] ++
  sec .A ++ sec .X0 ++ sec .X1 ++ sec .C

/-- Size of a trap record, and of the pair of a slot (R28, R29). -/
def recordSize : Nat := 0xC240

/-- Write the bytes of a piece, each through the span. -/
def writePiece (ps : List Part) (va : Nat) (m : Memory) (p : Piece) : Memory :=
  (List.range p.2.1).foldl (fun m i => sset m (partAddr ps (va + p.1 + i)) (BitVec.ofNat 8 (p.2.2 / 256 ^ i % 256))) m

/-- Replace a span of memory: every byte zero, then the pieces; poisoned lines are cleared (R29). -/
def writeSpan (s : State) (ps : List Part) (va : Nat) (pieces : List Piece) : State :=
  let cleared := ps.foldl (fun m p => mclear m p.pa p.len) s.pkg.mem
  let lines := ps.flatMap (fun p => linesOf p.pa p.len)
  { s with pkg := { s.pkg with
      mem := pieces.foldl (writePiece ps va) cleared
      poison := s.pkg.poison.filter (fun l => !lines.contains l) } }

/-- The address of the record a stop writes: the first of the pair, or the second for a nested trap (R29). -/
def recordAddr (s : State) (k : Nat) (nested : Bool) : Option Nat :=
  (threadCtx s k).trapArea.map (fun a => a.toNat + (2 * s.core.index + k) * 0x18480 + (if nested then recordSize else 0))

/-- Voice A as the handler finds it (R28). -/
def handlerArch (a : VoiceArch) (handler : Word) (recAddr cause : Nat) : VoiceArch :=
  let set (f : Faces) : Faces := faceSet (faceSet f (.s 1) (row64 (w64 recAddr))) (.s 2) (row64 (w64 cause))
  let e : VAddr := handler.setWidth 52
  { settleFlags a with
    vis := set a.vis, hid := set a.hid, w := 0, pending := [], flagq := [],
    na0 := ⟨e, false⟩, na1 := ⟨e + 4, false⟩, na2 := ⟨e + 8, false⟩, dslots := 0, lc := [], clashtrap := true,
    exited := false, handler := true, resumed := false, wait := none }

/-- A held voice: its pending entries are in the record. -/
def emptyFile (a : VoiceArch) : VoiceArch := { settleFlags a with pending := [], flagq := [], wait := none }

/-- A voice's image becomes its present state: in the clause the stop closed, or at once where that has sealed (R180). -/
def reimage (s : State) (k : Nat) (v : VoiceId) (closed : List Nat) (at_ : Nat) : State :=
  let a := getArch s k v
  if s.core.clauses.any (fun c => closed.contains c.id && decide (c.voice = v) && decide (c.slot = k)) then
    { s with core := { s.core with clauses := s.core.clauses.map (fun c =>
        if closed.contains c.id && decide (c.voice = v) && decide (c.slot = k) then { c with img := a } else c) } }
  else setVoice s k v { getVoice s k v with img := a, imgAt := at_ }

/-- Enter the handler: voice A at the handler's address, the others held with empty files, in their images too, so that no pending
result lands while the handler runs (R28). The handler's clause depends on the clauses the stop closed (Table 11.1). -/
def enterHandler (s : State) (k : Nat) (st : Stop) (handler : Word) (recAddr : Nat) : State :=
  let x := getSlot s k
  let slots := allVoices.map (fun v => (slotVoice x v).a.dslots)
  let waits := allVoices.map (fun v => (slotVoice x v).a.wait)
  let y : Slot := { x with
    run := .handler, stop := some st, hstop := some st, recAddr := recAddr, recSlots := slots, recWaits := waits,
    recExited := x.vA.a.exited,
    startAt := s.now + 1, thread := { x.thread with sliceAt := s.now, sliceIssued := false },
    vA := { x.vA with a := handlerArch x.vA.a handler recAddr st.cause, second := false, replay := none },
    vX0 := { x.vX0 with a := emptyFile x.vX0.a },
    vX1 := { x.vX1 with a := emptyFile x.vX1.a },
    vC := { x.vC with a := emptyFile x.vC.a } }
  allVoices.foldl (fun t v => reimage t k v st.closed s.now) (addDeps (setSlot s k y) k .A st.closed)

/-- The first address of a span whose line the memory reports as failed when it is written (R29). -/
def failedLine (s : State) (ps : List Part) : Option Nat :=
  (findFirst (fun (p : Part) => (linesOf p.pa p.len).any (fun l => s.pkg.failing.contains l)) ps).bind (fun p =>
    (findFirst (fun l => s.pkg.failing.contains l) (linesOf p.pa p.len)).map (fun l => p.va + (max p.pa (64 * l) - p.pa)))

/-- Where a record can be written: area, translation with W permission, and no line that the memory reports as failed (R29);
or the first failing address, 0 without an area. A page that cannot be translated is judged before the lines of the others (DESIGN
CHOICE, log entry 109). -/
def recordSpan (s : State) (k : Nat) (nested : Bool) : Except Nat (Nat × List Part) :=
  match recordAddr s k nested with
  | none => .error 0
  | some ra =>
    match spanParts s (threadCtx s k) true .write ra 3 recordSize with
    | .error bad => .error bad
    | .ok ps =>
      match failedLine s ps with
      | some bad => .error bad
      | none => .ok (ra, ps)

/-- Trap entry once the clauses closed before the stop have sealed: the record is written, then the handler is entered,
or the thread is dead and its kind-6 record waits for the stop's clauses (R26, R28, R29). A record that cannot be written
is lost. -/
def trapEntry (s : State) (k : Nat) (st : Stop) : State :=
  let x := getSlot s k
  let c := threadCtx s k
  match recordSpan s k st.nested with
  | .error bad => setSlot s k { x with run := .dead, deadRec := 2 ^ 64 + bad, stop := some st }
  | .ok (ra, ps) =>
    let s1 := writeSpan s ps ra (recordPieces s k st)
    match c.handler, st.nested with
    | some hd, false => enterHandler s1 k st hd ra
    | _, _ => setSlot s1 k { getSlot s1 k with run := .dead, deadRec := ra, stop := some st }

/-- Trap entry may happen: every clause closed before the stop has sealed (R26). -/
def entryReady (s : State) (st : Stop) : Bool := st.waitFor.all (fun c => !unsealed s.core c)

/-! ### Return from a trap (R74) -/

/-- A number of a record, read through its span as the slot sees memory. -/
def recNat (s : State) (k : Nat) (ps : List Part) (va n : Nat) : Nat :=
  leNat ((List.range n).map (fun i => (readDev s k (clockOf s k .A) (partAddr ps (va + i)) 1).headD 0))

def recChain (x : Nat) : ChainEntry := ⟨BitVec.ofNat 52 (x / 4 * 4), bit x 0⟩

def recReg (cls idx : Nat) : RegId :=
  match cls with
  | 0 => .s (idx % 32)
  | 1 => .p (idx % 8)
  | 2 => .v (idx % 28)
  | 3 => .m (idx % 8)
  | _ => .vflags

/-- A sparse map read from a table of a record; keys from `lo` on. -/
def recMap (rd : Nat → Nat → Nat) (base size lo n w : Nat) : SMap w :=
  (List.range n).foldl (fun m i => sset m (lo + i) (BitVec.ofNat w (rd (base + (lo + i) * size) size))) []

/-- The pending entries of a section, due from cycle `n` on: latency r lands at n + r − 1 (R28). -/
def recPending (rd : Nat → Nat → Nat) (base n : Nat) (count : Nat) : List Pending :=
  (List.range count).map (fun i =>
    let e := rd (base + 0x2B8 + 136 * i) 8
    ⟨recReg (bits e 8 8) (bits e 0 8), BitVec.ofNat 1024 (rd (base + 0x2B8 + 136 * i + 8) 128),
      n + bits e 16 16 - 1, n - bits e 32 16⟩)

/-- Loop levels of a section, innermost first; a level with count 0 is not there (R74). -/
def recLevels (rd : Nat → Nat → Nat) (base : Nat) : List Level :=
  (((List.range 4).map (fun i => (⟨BitVec.ofNat 52 (rd (base + 0x30 + 24 * i) 8), BitVec.ofNat 52 (rd (base + 0x38 + 24 * i) 8),
    BitVec.ofNat 64 (rd (base + 0x40 + 24 * i) 8)⟩ : Level))).filter (fun l => decide (l.count ≠ 0))).reverse

/-- The wait a reloaded voice is in: the one it was in, if its chain still stands at the word; a fabric wait only where bit [0]
of +0x3070 is set (R286). -/
def keptWait (bit0 : Bool) (na0 : ChainEntry) : Option Wait → Option Wait
  | some w => if (bit0 || !w.kind.fabric) && decide (na0.addr = w.pc) then some w else none
  | none => none

/-- A voice reloaded from its section (R28, R74). MODE, HANDLER, LCDEPTH and the exited bit of the record are ignored; a voice
that has exited keeps no chain and no loop level, whatever its section carries (R71). -/
def recVoice (rd : Nat → Nat → Nat) (v : VoiceId) (base n : Nat) (exited : Bool) (dslots : Nat) (wait : Option Wait) :
    VoiceArch :=
  let faces (so po mo vo fo : Nat) : Faces :=
    ⟨recMap rd so 8 1 31 64, recMap rd po 1 1 7 1, if v.isX then recMap rd vo 128 0 28 1024 else [],
      if v.isX then recMap rd mo 4 1 7 32 else [], if v.isX then BitVec.ofNat 320 (rd fo 40) else 0⟩
  let na0 := recChain (rd base 8)
  let kept := if exited then none else keptWait (decide (v = .C) && bit (rd (base + 0x3070) 1) 0) na0 wait
  { vis := faces (base + 0xA0) (base + 0x2A0) (base + 0x13B8) (base + 0x1470) (base + 0x13F8)
    hid := faces (base + 0x1A0) (base + 0x2A8) (base + 0x13D8) (base + 0x2270) (base + 0x1420)
    w := BitVec.ofNat 128 (rd (base + 0x90) 16)
    raised := if v.isX then BitVec.ofNat 320 (rd (base + 0x1448) 40) else 0
    flagq := []
    pending := recPending rd base n (min (fileSize v) (rd (base + 0x2B0) 8))
    na0 := if exited then ⟨0, false⟩ else na0
    na1 := if exited then ⟨0, false⟩ else recChain (rd (base + 8) 8)
    na2 := if exited then ⟨0, false⟩ else recChain (rd (base + 16) 8)
    dslots := if exited then 0 else dslots
    lc := if exited then [] else recLevels rd base
    clash := bit (rd (base + 0x18) 1) 0
    clashtrap := bit (rd (base + 0x20) 1) 0
    clashcnt := BitVec.ofNat 32 (rd (base + 0x28) 4)
    vrnd := 0
    exited := exited
    handler := false
    resumed := fabricWait kept
    wait := kept }

/-- Reload the four voices of a slot from a record; `n` is the first cycle in which the thread may issue. The state
reloaded is the state to which a rollback returns. -/
def reloadRecord (s : State) (k : Nat) (ps : List Part) (ra n : Nat) : State :=
  let x := getSlot s k
  let rd (off m : Nat) : Nat := recNat s k ps (ra + off) m
  let one (v : VoiceId) (old : Voice) (exited : Bool) : Voice :=
    let a := { recVoice rd v (sectionBase v) n exited (x.recSlots.getD v.num 0) (x.recWaits.getD v.num none) with
      vrnd := old.a.vrnd }
    { old with a := a, img := a, imgAt := n - 1, issued := false, second := false, replay := none }
  setSlot s k { x with
    run := .running, stop := none, hstop := none, startAt := n, recAddr := 0, recSlots := [], recWaits := [],
    vA := one .A x.vA x.recExited, vX0 := one .X0 x.vX0 x.vX0.a.exited, vX1 := one .X1 x.vX1 x.vX1.a.exited,
    vC := one .C x.vC x.vC.a.exited }

/-- A SIGNAL stops a running thread; one that is stopping or handling holds it, and one stopped for its save takes it with its
image (R317). -/
def takeSignal (s : State) (k : Nat) : State :=
  let x := getSlot s k
  match x.run with
  | .running => stopThread s k 0x20 none true 0 0 s.now x.scyc
  | .stopping => setSlot s k { x with heldSignal := true }
  | .handler => setSlot s k { x with heldSignal := true }
  | .preempted => setSlot s k (if x.vA.a.handler then { x with heldSignal := true } else { x with pendSignal := true })
  | _ => s

/-- Take a SIGNAL held over the handler before any word of the resumed thread issues: the record holds N (R317). -/
def takeHeld (s : State) (k n : Nat) : State :=
  let x := getSlot s k
  if x.heldSignal then
    stopThread (setSlot s k { x with heldSignal := false }) k 0x20 none true 0 0 n (x.scyc + 1)
  else s

end Sys2Proof.Machine
end

