-- ==== Sys2Proof/Machine/Flags.lean ====
section
/-! DEFINITION. Floating-point flags of vector words: the positions of VFLAGS (R113), RAISED at a word's latency (R15), the
OR and the spread of R138. -/

namespace Sys2Proof.Machine

/-- The position of a lane's flags: lane i of 32 bits at 2i, lane i of 16 bits at i (R113). -/
def flagPos (w i : Nat) : Nat := if w = 32 then 2 * i else i

/-- Flags at a position of VFLAGS. -/
def flagsAt (pos : Nat) (f : Flags) : BitVec 320 := (f.setWidth 320) <<< (5 * pos)

/-- The flags of a list of lanes, lane numbers from `i` on. -/
def laneFlags (w i : Nat) : List Flags → BitVec 320
  | [] => 0
  | f :: r => flagsAt (flagPos w i) f ||| laneFlags w (i + 1) r

/-- Flags a word raises enter RAISED at its latency; q = 1 suppresses them (R15). -/
def raiseFlags (s : State) (h : Here) (q : BitVec 1) (fl : BitVec 320) (lat : Nat) : State :=
  if q = 1 ∨ fl = 0 then s
  else setArchAt s h { archAt s h with flagq := (archAt s h).flagq ++ [⟨fl, s.now + lat⟩] }

/-- The OR of all 64 positions of VFLAGS (R138). -/
def orFlags (f : BitVec 320) : BitVec 5 :=
  (List.range 64).foldl (fun r k => r ||| (f >>> (5 * k)).setWidth 5) 0

/-- A 5-bit value in every position of VFLAGS (R138). -/
def spreadFlags (x : BitVec 5) : BitVec 320 :=
  (List.range 64).foldl (fun r k => r ||| ((x.setWidth 320) <<< (5 * k))) 0

end Sys2Proof.Machine
end

