-- ==== Sys2Proof/Machine/ClusterOps.lean ====
section
/-! DEFINITION. The cluster's shared operations: groups and barriers (R190 to R193), flags (R194), the event vector (R198),
the launch queue and its reserves (R199), and how a thread leaves them. -/

namespace Sys2Proof.Machine

def setCluster (s : State) (c : Cluster) : State := { s with cluster := c }

/-! ### Groups and barriers -/

def barrierZero : Barrier := ⟨false, 0, 0, 0, 0, 0, []⟩

def getBarrier (c : Cluster) (k : Nat) : Barrier := mget barrierZero c.barriers k

def setBarrier (c : Cluster) (k : Nat) (b : Barrier) : Cluster := { c with barriers := mset barrierZero c.barriers k b }

def groupMask (c : Cluster) (g : Nat) : BitVec 16 := sget c.groups g

def setGroup (c : Cluster) (g : Nat) (m : BitVec 16) : Cluster := { c with groups := sset c.groups g m }

def pendingOf (c : Cluster) (g : Nat) : Nat := mget 0 c.pending g

def memBit (m : Nat) : BitVec 16 := 1#16 <<< m

/-- Waits on the phase just completed end 4 cycles later (R191). -/
def endWaits (now : Nat) (phase : BitVec 32) (ws : List BarrierWait) : List BarrierWait :=
  ws.map (fun w => if w.phase = phase ∧ w.endAt = none then { w with endAt := some (now + 4) } else w)

/-- check(k) of R191: phases complete while every expected thread has arrived and no member is pending. Two rounds of
early arrivals bound the loop. -/
def barrierCheck (now : Nat) (c : Cluster) (k : Nat) : Nat → Cluster
  | 0 => c
  | n + 1 =>
    let b := getBarrier c k
    if b.bound ∧ b.a = b.e ∧ pendingOf c b.group.toNat = 0 then
      let e := groupMask c b.group.toNat
      let b1 : Barrier := { b with
        phase := b.phase + 1, e := e, a := b.early &&& e, early := 0, waits := endWaits now b.phase b.waits }
      if e = 0 then setBarrier c k { b1 with bound := false }
      else barrierCheck now (setBarrier c k b1) k n
    else c

/-- The release of an arrival of member `m` at barrier `k`, naming group `g` (R191). -/
def barrierArrive (now : Nat) (c : Cluster) (k g m : Nat) : Cluster :=
  let b0 := getBarrier c k
  let b : Barrier := if b0.bound then b0 else { b0 with bound := true, group := BitVec.ofNat 8 g, e := groupMask c g, a := 0, early := 0 }
  let t := memBit m
  let b1 : Barrier :=
    if b.e &&& t ≠ 0 ∧ b.a &&& t = 0 then { b with a := b.a ||| t } else { b with early := b.early ||| t }
  barrierCheck now (setBarrier c k b1) k 4

/-- Barriers bound to a group. -/
def barriersOf (c : Cluster) (g : Nat) : List Nat :=
  (c.barriers.filter (fun p => p.2.bound && decide (p.2.group.toNat = g))).map (fun p => p.1)

/-- What a LEAVE does at one barrier bound to the group: it supplies the arrival the phase expects, and takes back an
early one (R190). -/
def leaveBarrier (now : Nat) (m : Nat) (c : Cluster) (k : Nat) : Cluster :=
  let b := getBarrier c k
  let t := memBit m
  let b1 : Barrier := { b with
    a := if b.e &&& t ≠ 0 then b.a ||| t else b.a
    early := b.early &&& ~~~t }
  barrierCheck now (setBarrier c k b1) k 4

def joinGroup (c : Cluster) (g m : Nat) : Cluster := setGroup c g (groupMask c g ||| memBit m)

def leaveGroup (now : Nat) (c : Cluster) (g m : Nat) : Cluster :=
  let c1 := setGroup c g (groupMask c g &&& ~~~(memBit m))
  (barriersOf c1 g).foldl (leaveBarrier now m) c1

/-- A thread that ends leaves every group it belongs to (R190). -/
def leaveAll (now : Nat) (c : Cluster) (m : Nat) : Cluster :=
  (c.groups.filter (fun p => decide (p.2 &&& memBit m ≠ 0))).foldl (fun c p => leaveGroup now c p.1 m) c

/-- A record enters the queue: its group's pending count grows (R193). -/
def addPending (c : Cluster) (g : Nat) : Cluster := { c with pending := mset 0 c.pending g (pendingOf c g + 1) }

/-- A pending member is gone; the phases that waited for it are checked (R191, R193). -/
def dropPending (now : Nat) (c : Cluster) (g : Nat) : Cluster :=
  let c1 : Cluster := { c with pending := mset 0 c.pending g (pendingOf c g - 1) }
  (barriersOf c1 g).foldl (fun c k => barrierCheck now c k 4) c1

/-- A pending member is placed with member bit `m`: it joins the group and the current phase of its barriers (R193). -/
def placeMember (now : Nat) (c : Cluster) (g m : Nat) : Cluster :=
  let c1 := joinGroup { c with pending := mset 0 c.pending g (pendingOf c g - 1) } g m
  (barriersOf c1 g).foldl (fun c k =>
    let b := getBarrier c k
    barrierCheck now (setBarrier c k { b with e := b.e ||| memBit m }) k 4) c1

/-! ### Flags (R194) -/

def flagOf (c : Cluster) (f : Nat) : BitVec 32 := sget c.flags f

def setFlag (c : Cluster) (f : Nat) (x : BitVec 32) : Cluster := { c with flags := sset c.flags f x }

/-! ### Task records (R197 to R200) -/

def recNode (r0 : Word) : Nat := bits r0.toNat 0 24

def recGraph (r0 : Word) : Nat := bits r0.toNat 24 8

def recInstance (r0 : Word) : Nat := bits r0.toNat 32 32

def recWaitWin (r3 : Word) : Nat := bits r3.toNat 0 2

def recSetWin (r3 : Word) : Nat := bits r3.toNat 2 2

def recGroup (r3 : Word) : Option Nat := if bit r3.toNat 4 then some (bits r3.toNat 8 8) else none

/-- Reserved bits of a record: [63:16] and [7:5] of its last doubleword (Table 12.5). -/
def recReserved (r3 : Word) : Bool := decide (bits r3.toNat 16 48 ≠ 0) || decide (bits r3.toNat 5 3 ≠ 0)

/-- A record enters the launch queue (R193, R200). -/
def enqueueRec (c : Cluster) (q : QRec) : Cluster :=
  match recGroup q.r3 with
  | some g => addPending { c with queue := c.queue ++ [{ q with pendingGroup := true }] } g
  | none => { c with queue := c.queue ++ [q] }

/-- The groups a member bit is in. -/
def memberGroups (c : Cluster) (m : Nat) : List Nat := (c.groups.filter (fun p => p.2.getLsbD m)).map (fun p => p.1)

/-- Its arrivals: barrier, for the current phase, for the next. -/
def memberArrivals (c : Cluster) (m : Nat) : List (Nat × Bool × Bool) :=
  (c.barriers.filter (fun b => b.2.a.getLsbD m || b.2.early.getLsbD m)).map (fun b => (b.1, b.2.a.getLsbD m, b.2.early.getLsbD m))

/-- A member is off its slot: it is pending in its groups, and its bit is in none (R193). -/
def parkMember (c : Cluster) (m : Nat) : Cluster :=
  let off (x : BitVec 16) : BitVec 16 := x &&& ~~~(memBit m)
  let c1 := (memberGroups c m).foldl (fun c g => addPending (setGroup c g (off (groupMask c g))) g) c
  { c1 with barriers := c1.barriers.map (fun b => (b.1, { b.2 with
      e := off b.2.e, a := off b.2.a, early := off b.2.early, waits := b.2.waits.filter (fun w => decide (w.mem ≠ m)) })) }

/-- The groups in which a record counts as pending: the one it names, and those of the thread it holds. -/
def pendingGroups (q : QRec) : List Nat :=
  (match recGroup q.r3 with | some g => if q.pendingGroup then [g] else [] | none => []) ++
    (match q.saved with | some t => t.groups | none => [])

/-- A record is placed with member bit `m`: it is a member of the groups it was pending in, and what its thread had arrived at stands
(R193). -/
def placeRecord (now : Nat) (c : Cluster) (q : QRec) (m : Nat) : Cluster :=
  let back (c : Cluster) (x : Nat × Bool × Bool) : Cluster :=
    let b := getBarrier c x.1
    setBarrier c x.1 { b with
      a := if x.2.1 then b.a ||| memBit m else b.a, early := if x.2.2 then b.early ||| memBit m else b.early }
  (pendingGroups q).foldl (fun c g => placeMember now c g m) ((match q.saved with | some t => t.arrivals | none => []).foldl back c)

/-- What the core's threads have done and the cluster has not seen yet: released effects that wait, then held ones, in order. -/
def pendingEffects (c : Core) : List (Nat × Effect) :=
  c.out.map (fun o => (o.slot, o.eff)) ++ c.held.map (fun h => (h.slot, h.eff))

/-- ... those of one slot's thread (R189). -/
def ownEffects (s : State) (k : Nat) : List Effect :=
  (pendingEffects s.core).filterMap (fun p => if p.1 = k then some p.2 else none)

/-- Launch-queue entries taken: records, reserves of resident tasks, here and on the cluster's other cores, and of checkpointed ones, and records LAUNCH has reserved an entry
for and that are still to come (R199, R200). -/
def entriesUsed (s : State) : Nat :=
  s.cluster.queue.length + s.core.slot0.thread.reserve + s.core.slot1.thread.reserve +
    (s.cluster.queue.map (fun q => match q.saved with | some m => m.slot.thread.reserve | none => 0)).sum +
    (s.cluster.away.map (fun t => t.reserve)).sum +
    ((pendingEffects s.core).filter (fun p => match p.2 with | .launch _ _ _ _ r => !r | _ => false)).length

def entriesFree (s : State) : Nat := 256 - entriesUsed s

/-! ### Events (R198) -/

def eventWindow (c : Context) (w : Nat) : Word := (c.events >>> (64 * w)).setWidth 64

def setEvents (c : Context) (w : Nat) (m : Word) : Context := { c with events := c.events ||| (m.setWidth 256 <<< (64 * w)) }

def clearEvents (c : Context) (w : Nat) (m : Word) : Context :=
  { c with events := c.events &&& ~~~(m.setWidth 256 <<< (64 * w)) }

/-- Every wait bit of the record is set (R198). -/
def recReady (c : Context) (r1 r3 : Word) : Bool := decide (eventWindow c (recWaitWin r3) &&& r1 = r1)

/-! ### Pipelines (R201) -/

def getPipe (c : Cluster) (p st : Nat) : PipeQueue := mget ⟨[], []⟩ c.pipes (8 * p + st)

def setPipe (c : Cluster) (p st : Nat) (q : PipeQueue) : Cluster := { c with pipes := mset ⟨[], []⟩ c.pipes (8 * p + st) q }

/-- Items return from the overflow area in order as room frees (R204). -/
def refill (depth : Nat) (q : PipeQueue) : PipeQueue :=
  let n := depth - q.items.length
  ⟨q.items ++ q.overflow.take n, q.overflow.drop n⟩

/-- The item at the head: of the queue, or of the overflow area where a spill has left the queue empty. -/
def pipeHead (q : PipeQueue) : Option Word := (q.items ++ q.overflow).head?

/-- Without the head; the overflow returns as room frees. -/
def pipePop (depth : Nat) (q : PipeQueue) : PipeQueue :=
  refill depth (match q.items with
    | _ :: r => { q with items := r }
    | [] => { q with overflow := q.overflow.drop 1 })

/-- Put an item at the tail: behind the overflow while it holds items (R204). -/
def pipePush (depth : Nat) (q : PipeQueue) (x : Word) : PipeQueue :=
  if q.overflow = [] ∧ q.items.length < depth then { q with items := q.items ++ [x] }
  else { q with overflow := q.overflow ++ [x] }

/-- Put a popped item back at the head (R189). -/
def pipeReturn (q : PipeQueue) (x : Word) : PipeQueue := { q with items := x :: q.items }

/-- Stage and pipeline of a thread: its stage word is [3:0] stage, [7:4] pipeline, [8] member (Table 12.4). -/
def pipeOf (t : Thread) : Option (Nat × Nat) :=
  if t.stage.getLsbD 8 then some (bits t.stage.toNat 4 4, bits t.stage.toNat 0 4) else none

def pipeDecl (s : State) (ctx p : Nat) : Option PipeDecl := mfind (getCtx s ctx).pipes p

end Sys2Proof.Machine
end

