-- ==== Sys2Proof/Machine/Replay.lean ====
section
/-! DEFINITION. Capture and rerun of a context (R297, R298): the log's records, the gate every logged action passes, and the
changes of the event vector (R198). -/

namespace Sys2Proof.Machine

def setReplay (s : State) (c : Nat) (r : Replay) : State := setCtx s c { getCtx s c with replay := r }

/-- Bytes rounded up to 32. -/
def pad32 (n : Nat) : Nat := (n + 31) / 32 * 32

/-- The log's record at a position; a kind of 0 where there is none. -/
def logAt (s : State) (c pos n : Nat) : List Byte :=
  let r := (getCtx s c).replay
  if pos + n ≤ r.len then (readVirtual s (getCtx s c) (r.base + pos) n).getD [] else []

def logWord (bs : List Byte) (i : Nat) : Nat := leNat ((bs.drop (8 * i)).take 8)

/-- Copy the buffers the leading CAPBUF records name: into the log where `keep`, else back from it. The position behind them
comes second. -/
def copyBuffers (s : State) (c : Nat) (keep : Bool) : Nat → Nat → State × Nat
  | 0, pos => (s, pos)
  | n + 1, pos =>
    let h := logAt s c pos 32
    if logWord h 0 % 256 = 1 then
      let va := logWord h 1
      let len := logWord h 2
      let x := getCtx s c
      let src := if keep then va else x.replay.base + pos + 32
      let dst := if keep then x.replay.base + pos + 32 else va
      let s1 :=
        match readVirtual s x src len with
        | some bs => (writeVirt s x dst bs).getD s
        | none => s
      copyBuffers s1 c keep n (pos + 32 + pad32 len)
    else (s, pos)

/-- Records the log may hold at most. -/
def logBound (s : State) (c : Nat) : Nat := (getCtx s c).replay.len / 32 + 1

/-- The capture begins with the buffers named at the log's start. -/
def startCapture (s : State) (c : Nat) : State :=
  let x := copyBuffers s c true (logBound s c) 0
  setReplay x.1 c { (getCtx x.1 c).replay with pos := x.2, waitSince := some s.now }

/-- Append a record to the log; a log that has no room takes no further record. -/
def appendLog (s : State) (c : Nat) (bs : List Byte) : State :=
  let s1 := if (getCtx s c).replay.waitSince.isNone then startCapture s c else s
  let r := (getCtx s1 c).replay
  if r.pos + bs.length ≤ r.len then
    match writeVirt s1 (getCtx s1 c) (r.base + r.pos) bs with
    | some u => setReplay u c { (getCtx u c).replay with pos := r.pos + bs.length }
    | none => s1
  else s1

/-! ### Records (Table 20.6) -/

def logEvent (win : Nat) (set clr : Word) (tag : BitVec 16) : List Byte :=
  dwords [3 + win * 2 ^ 8 + tag.toNat * 2 ^ 32, set.toNat, clr.toNat, 0]

def logPlace (s : State) (k : Nat) (r0 : Word) : List Byte :=
  dwords [4 + s.cluster.num * 2 ^ 8 + s.core.index * 2 ^ 16 + k * 2 ^ 32, r0.toNat, 0, 0]

def logSteal (s : State) (thief : Nat) (r0 : Word) : List Byte :=
  dwords [5 + s.cluster.num * 2 ^ 8 + thief * 2 ^ 16, r0.toNat, 0, 0]

def logMerge (s : State) (k : Nat) (tag : BitVec 16) (window : Nat) : List Byte :=
  dwords [6 + s.cluster.num * 2 ^ 8 + s.core.index * 2 ^ 16 + k * 2 ^ 32, tag.toNat + window * 2 ^ 32, 0, 0]

def logLaunch (idx : Nat) (records : List Byte) : List Byte := dwords [2, idx, records.length / 32, 0] ++ records

/-- A record that another core or another cluster acts by. -/
def foreign (s : State) (h : List Byte) : Bool :=
  let w := logWord h 0
  match w % 256 with
  | 4 => decide (bits w 8 8 ≠ s.cluster.num) || decide (bits w 16 16 ≠ s.core.index)
  | 5 => decide (bits w 8 8 ≠ s.cluster.num)
  | 6 => decide (bits w 8 8 ≠ s.cluster.num) || decide (bits w 16 16 ≠ s.core.index)
  | _ => false

/-- The position of the next record that this core, its cluster or the hub acts by. -/
def nextLogged (s : State) (c : Nat) : Nat → Nat → Nat
  | 0, pos => pos
  | n + 1, pos => if foreign s (logAt s c pos 32) then nextLogged s c n (pos + 32) else pos

def logPos (s : State) (c : Nat) : Nat := nextLogged s c (logBound s c) (getCtx s c).replay.pos

/-- The log has no further record. -/
def logEnded (s : State) (c : Nat) : Bool := decide (logWord (logAt s c (logPos s c) 32) 0 % 256 = 0)

/-! ### The gate -/

/-- The waiting changes of the event vector, in their order of arrival. -/
def applyWaiting (s : State) (c : Nat) : State :=
  let x := getCtx s c
  setCtx s c (x.waitingEvents.foldl (fun y e => clearEvents (setEvents y e.1 e.2.1) e.1 e.2.2.1) { x with waitingEvents := [] })

/-- The rerun ends: a kind-8 record holds the offset reached, and the context continues unforced (R298). -/
def endRerun (s : State) (c : Nat) : State :=
  let pos := logPos s c
  let s1 := setReplay s c { (getCtx s c).replay with mode := 0, waitSince := none }
  postFault (applyWaiting s1 c) c (dwords [8, pos])

/-- An action with this record may happen: logged while capturing; at its place in the log while rerunning; `none` where it has
to wait. -/
def replayGate (s : State) (c : Nat) (bs : List Byte) : Option State :=
  let r := (getCtx s c).replay
  match r.mode with
  | 1 => some (appendLog s c bs)
  | 2 =>
    if logEnded s c then some (endRerun s c)
    else
      let pos := logPos s c
      if logAt s c pos bs.length = bs then some (setReplay s c { r with pos := pos + bs.length, waitSince := some s.now }) else none
  | _ => some s

/-! ### Changes of the event vector (R198, R246) -/

def changeEvents (s : State) (c win : Nat) (set clr : Word) : State :=
  setCtx s c (clearEvents (setEvents (getCtx s c) win set) win clr)

/-- The waiting changes that have come to their place in the log. -/
def drainEvents (s : State) (c : Nat) : Nat → State
  | 0 => s
  | n + 1 =>
    let x := getCtx s c
    match findFirst (fun (e : Nat × Word × Word × BitVec 16) => (replayGate s c (logEvent e.1 e.2.1 e.2.2.1 e.2.2.2)).isSome) x.waitingEvents with
    | none => s
    | some e =>
      let s0 := setCtx s c { x with waitingEvents := x.waitingEvents.erase e }
      match replayGate s0 c (logEvent e.1 e.2.1 e.2.2.1 e.2.2.2) with
      | none => s
      | some u => drainEvents (changeEvents u c e.1 e.2.1 e.2.2.1) c n

/-- What waits for the log goes on as far as it can. -/
def drainLog (s : State) (c : Nat) : State := drainEvents s c (getCtx s c).waitingEvents.length

/-- A change of the event vector of a context, by a source with a tag: one that comes early in a rerun waits. -/
def eventChange (s : State) (c win : Nat) (set clr : Word) (tag : BitVec 16) : State :=
  match replayGate s c (logEvent win set clr tag) with
  | some u => drainLog (changeEvents u c win set clr) c
  | none => setCtx s c { getCtx s c with waitingEvents := (getCtx s c).waitingEvents ++ [(win, set, clr, tag)] }

/-- Pass the gate, or leave the state as it is; what waits for the log goes on behind the action. -/
def gated (s : State) (c : Nat) (bs : List Byte) (go : State → State) : State :=
  match replayGate s c bs with
  | some u => drainLog (go u) c
  | none => s

end Sys2Proof.Machine
end

