-- ==== Sys2Proof/Machine/Seal.lean ====
section
/-! DEFINITION. Returning a core to its seal images (R176, R179, R180) and discarding a thread. -/

namespace Sys2Proof.Machine

/-! ### Commands in unsealed clauses (R178, R179) -/

/-- Restore one item of undo data. -/
def undoOne (c : Core) : Undo → Core
  | .cells k old => { c with cells := mreplace c.cells k old }
  | .headers k old => { c with headers := mreplace c.headers k old }
  | .tile k old => { c with tiles := mreplace c.tiles k old }
  | .grads k old => { c with grads := mreplace c.grads k old }
  | .affine old => { c with affine := mreplace c.affine 0 old }

/-- Undo a command: the array state it changed in place. Its writes to scratchpad are held effects. -/
def undoCmd (c : Core) (m : Cmd) : Core := m.undo.reverse.foldl undoOne c

/-- Undo and remove the commands a test selects, youngest first. -/
def dropCmds (c : Core) (p : Cmd → Bool) : Core :=
  let c1 := (c.cmds.filter p).reverse.foldl undoCmd c
  let keep := c.cmds.filter (fun m => !p m)
  { c1 with cmds := keep, undoUsed := (keep.map (fun m => m.charge)).sum }

/-! ### Held effects that are discarded (R179, R189, R264) -/

/-- What discarding a held effect gives back: the item a DEQ popped, the credit a HOSTSIG took. -/
def withdraw (s : State) (h : Held) : State :=
  match h.eff with
  | .deq p st x => setCluster s (setPipe s.cluster p st (pipeReturn (getPipe s.cluster p st) x))
  | .hostsig _ _ =>
    let c := (getSlot s h.slot).thread.ctx
    setCtx s c { getCtx s c with credits := (getCtx s c).credits + 1 }
  | _ => s

/-- Discard the held effects a test selects, youngest first. -/
def dropHeld (s : State) (p : Held → Bool) : State :=
  let s1 := (s.core.held.filter p).reverse.foldl withdraw s
  { s1 with core := { s1.core with held := s1.core.held.filter (fun h => !p h) } }

/-! ### Sealed copies (R177) -/

/-- Withdraw the journalled changes a test selects; what is left is replayed on the sealed copy. -/
def dropJournal (c : Core) (p : JEntry → Bool) : Core :=
  let keep := c.journal.filter (fun e => !p e)
  settleJournal { c with journal := keep, ctl := keep.foldl applyEntry c.sctl }

/-- The numbers of the queue entries of a slot. -/
def queueIds (c : Ctl) : List Nat := c.queues.flatMap (fun q => q.2.map (fun e => e.id))

/-- The numbers of the transfers of a slot's landing slots. -/
def landingIds (c : Ctl) : List Nat :=
  c.landing.filterMap (fun p => match p.2 with | .xfer id _ => some id | .free _ => none)

/-- Entries and transfers that nothing refers to any more, live, sealed or journalled, are forgotten. -/
def pruneSlot (s : State) (k : Nat) : State :=
  let x := getSlot s k
  let pushed := s.core.journal.filterMap (fun e => match e.ch with | .qPush _ q => some q.id | _ => none)
  let landed := s.core.journal.filterMap (fun e => match e.ch with | .landSet _ (.xfer id _) => some id | _ => none)
  let q := queueIds (getCtl s k) ++ queueIds (ctlSlot s.core.sctl k) ++ pushed
  let l := landingIds (getCtl s k) ++ landingIds (ctlSlot s.core.sctl k) ++ landed
  setSlot s k { x with
    fills := x.fills.filter (fun f => q.contains f.id)
    qvals := x.qvals.filter (fun v => q.contains v.1)
    xfers := x.xfers.filter (fun v => q.contains v.id || l.contains v.id)
    arrived := x.arrived.filter (fun v => l.contains v.1) }

/-! ### Return to the seal images (R179, R180) -/

/-- Pending entries of an image taken at `at_`, reinjected for a thread that may issue from cycle `n` on (R28). -/
def reinject (a : VoiceArch) (at_ n : Nat) : VoiceArch :=
  { a with
    pending := a.pending.map (fun p => { p with due := n + (p.due - at_) - 1, age := n - (at_ - p.age) })
    flagq := a.flagq.map (fun f => { f with due := n + (f.due - at_) - 1 }) }

/-- A voice returned to its seal image. -/
def restoreVoice (n : Nat) (x : Voice) : Voice :=
  { x with a := reinject x.img x.imgAt n, issued := false, replay := none, second := false, mark := .idle }

/-- The thread's state after the return: discarded stops leave it as its images have it. -/
def restoredRun (x : Slot) : RunState :=
  match x.run with
  | .empty => .empty
  | _ =>
    if x.vA.img.exited && x.vX0.img.exited && x.vX1.img.exited && x.vC.img.exited then .ended
    else if x.vA.img.handler then .handler
    else .running

/-- The stop of a thread that is dead is final once its clauses have sealed (R28). -/
def finalDead (s : State) (x : Slot) : Bool :=
  decide (x.run = .dead) &&
    (match x.stop with
     | some st => st.closed.all (fun c => !unsealed s.core c)
     | none => true)

/-- The stop is a SIGNAL's, and a return to the seal images discards it. -/
def signalOpen (s : State) : Option Stop → Bool
  | some st => decide (st.cause = 0x20) && st.closed.any (unsealed s.core)
  | none => false

/-- A SIGNAL that stopped the thread, or whose handler runs, be it that a later stop has come over that handler, stays pending
when its stop is discarded (R180). -/
def signalLost (s : State) (x : Slot) : Bool := signalOpen s x.stop || signalOpen s x.hstop

/-- Open clauses for the voices of a slot that holds a thread. -/
def openAll (s : State) (k : Nat) : List VoiceId → State
  | [] => s
  | v :: r => openAll (openClause s k v []) k r

/-- Return one slot to its seal images; it may issue from cycle `n` on. -/
def restoreSlot (n : Nat) (s : State) (k : Nat) : State :=
  let x := getSlot s k
  if x.run = .empty ∨ finalDead s x = true then s
  else
    let sig := signalLost s x
    let keep := s.core.clauses.filter (fun c => decide (c.slot ≠ k))
    let inH := x.vA.img.handler
    let y : Slot := { x with
      run := restoredRun x
      stop := if inH then x.hstop else none
      hstop := if inH then x.hstop else none
      trapped := none
      startAt := n
      pendSignal := x.pendSignal || sig || (x.heldSignal && !inH)
      heldSignal := x.heldSignal && inH
      pendPreempt := (x.pendPreempt || decide (x.run = .preempted)) && !x.yielded
      yielded := false
      fences := x.fences.filter (fun f => !unsealed s.core f.clause)
      vA := restoreVoice n x.vA, vX0 := restoreVoice n x.vX0, vX1 := restoreVoice n x.vX1, vC := restoreVoice n x.vC }
    let s1 := setSlot { s with core := { s.core with clauses := keep } } k y
    let gone := memberBit s k
    let s1 : State := { s1 with core := { s1.core with
      nwrs := s1.core.nwrs.map (fun n => if n.slot = k ∧ unsealed s.core n.reportedBy = true then { n with reportedBy := 0 } else n) } }
    let s2 := setCluster s1 { s1.cluster with barriers := s1.cluster.barriers.map (fun b =>
      (b.1, { b.2 with waits := b.2.waits.filter (fun w => decide (w.mem ≠ gone)) })) }
    openAll s2 k allVoices

/-- Both slots return to their seal images: commands of unsealed clauses are undone, held effects discarded, states with a
sealed copy restored (R179). -/
def restoreImages (s : State) (n : Nat) : State :=
  let open_ := s.core.clauses.map (fun c => c.id)
  let s1 : State := { s with core := dropCmds s.core (fun m => open_.contains m.clause) }
  let s2 := dropHeld s1 (fun h => open_.contains h.clause)
  let s3 : State := { s2 with core := { dropJournal s2.core (fun e => open_.contains e.clause) with streamTurns := [], streamWait := [] } }
  pruneSlot (pruneSlot (restoreSlot n (restoreSlot n s3 0) 1) 0) 1

/-- ROLLCNT counts, saturating. -/
def countRollback (s : State) (k : Nat) : State :=
  let x := getSlot s k
  if x.run = .empty then s
  else
    pmCount (setSlot s k { x with rollcnt := if x.rollcnt = BitVec.allOnes 32 then x.rollcnt else x.rollcnt + 1 }) k 0 9 1

/-- A rollback for a report received at cycle `r` (R179). -/
def rollback (s : State) (r : Nat) : State :=
  let s1 := countRollback (countRollback (restoreImages s (r + 16)) 0) 1
  { s1 with core := { s1.core with rollAt := some r } }

/-! ### Counter totals (R296) -/

def foldTotals (t : SMap 64) (st : SMap 64) (k : Nat) : Nat → SMap 64
  | 0 => t
  | n + 1 =>
    let u := foldTotals t st k n
    sset u (4 * k + n) (sget u (4 * k + n) + sget st (0x38 + n))

/-- Add the slot's counts to the totals of its context; they restart at zero. -/
def foldCounts (s : State) (k : Nat) : State :=
  let c := (getSlot s k).thread.ctx
  let x := getCtx s c
  let s1 := setCtx s c { x with totals := foldTotals x.totals (getCtl s k).status k 4 }
  changes s1 k 0 ((List.range 4).map (fun i => .statusSet (0x38 + i) 0 0))

/-! ### A thread leaves its slot -/

/-- The fences of a thread that leaves its slot stay in force for what it has released (R226); those of a thread that comes back are
in its image. -/
def moveFences (s : State) (old new : Nat) : State :=
  if old < 2 then
    let fs := (getSlot s old).fences
    if fs = [] then s
    else setSlot { s with core := { s.core with oldFences := s.core.oldFences ++ fs.map (fun f => (new, f)) } } old
      { getSlot s old with fences := [] }
  else { s with core := { s.core with oldFences := s.core.oldFences.filter (fun f => decide (f.1 ≠ old)) } }

/-- What one owner has released passes to another: remote writes, invalidations, what is not yet performed. The owners: a slot's
thread, 2 no thread any more, from 4 on the ticket of a thread off its slot. -/
def rename (s0 : State) (old new : Nat) : State :=
  let s := moveFences s0 old new
  { s with
    core := { s.core with
      out := s.core.out.map (fun o => if o.slot = old then { o with slot := new } else o)
      nwrs := s.core.nwrs.map (fun n => if n.slot = old then { n with slot := new } else n) }
    pkg := { s.pkg with invals := s.pkg.invals.map (fun v => if v.slot = old then { v with slot := new } else v) } }

/-- A thread that leaves its slot takes the cycle with it in which its engine commands last executed (R181, R184). -/
def disownRuns (s : State) (k : Nat) : State :=
  let x := getSlot s k
  let live := s.core.cmds.any (fun m => decide (m.slot = k) && decide (m.eng ≠ 3) && decide (m.state ≠ .queued) && !m.retired &&
    !unsealed s.core m.clause)
  if live = false ∧ mfind s.core.sealedExec k = none then s
  else
    let m := mdel s.core.sealedExec k
    let c := if live then s.now else mget 0 s.core.sealedExec k
    { s with core := { s.core with
        sealedExec := m
        pastRuns := s.core.pastRuns.filter (fun r => decide (s.now ≤ r.at_ + 64)) ++ [⟨k, x.thread.ctx, x.thread.tag, x.scyc, c⟩] } }

/-- A slot for a thread, with the debugger's and the host's settings of the slot as they were (R288, R290, R292, R299). -/
def keepDebug (old new : Slot) : Slot :=
  { new with
    breakAt := old.breakAt, samplePeriod := old.samplePeriod, sampledAt := old.sampledAt, injectAt := old.injectAt
    imageAt := old.imageAt, breakImage := old.breakImage }

/-- Discard a slot's thread with all it holds in the core; nothing of it is released. -/
def clearSlot (s : State) (k : Nat) : State :=
  let s0 := disownRuns (rename (foldCounts s k) k 2) k
  let s1 : State := { s0 with core := dropCmds s0.core (fun m => decide (m.slot = k)) }
  let s2 := dropHeld s1 (fun h => decide (h.slot = k))
  let s3 : State := { s2 with core := { (dropJournal s2.core (fun e => decide (e.slot = k))) with
    clauses := s2.core.clauses.filter (fun c => decide (c.slot ≠ k))
    badRows := s2.core.badRows.filter (fun p => decide (p.1 ≠ 7 ∨ p.2 / 256 ≠ k))
    streamTurns := s2.core.streamTurns.filter (fun p => decide (p.1 / 8 ≠ k))
    streamWait := s2.core.streamWait.filter (fun p => decide (p.1 / 32 ≠ k)) } }
  setSlot (resetCtl s3 k Ctl.fresh) k (keepDebug (getSlot s3 k) Slot.empty)

/-- A breakpoint the thread did not reach (R290). -/
def breakMissed (s : State) (k : Nat) : State :=
  let x := getSlot s k
  if x.breakAt.isSome then
    let s1 := debugNotice s k 6 0
    setSlot s1 k { getSlot s1 k with breakAt := none }
  else s

/-- The thread of a slot is over; what the commands of its sealed clauses still need of the slot stays until they have retired. -/
def leaveSlot (s : State) (k : Nat) : State :=
  let y := getSlot s k
  let c := getCtl s k
  let kept : Ctl := { Ctl.fresh with counters := c.counters, digests := c.digests, rings := c.rings, status := c.status }
  setSlot (resetCtl s k kept) k
    { y with
      run := .dead, stop := none, hstop := none, thread := { y.thread with reserve := 0 }, xfers := [], fills := [], qvals := [], arrived := [] }

/-- What the unsealed clauses of a slot hold is discarded (R179). -/
def discardOpen (s : State) (k : Nat) : State :=
  let open_ := (s.core.clauses.filter (fun c => decide (c.slot = k))).map (fun c => c.id)
  let s1 := dropHeld { s with core := dropCmds s.core (fun m => open_.contains m.clause) } (fun h => open_.contains h.clause)
  { s1 with core := { dropJournal s1.core (fun e => open_.contains e.clause) with
      clauses := s1.core.clauses.filter (fun c => decide (c.slot ≠ k)) } }

/-- A thread ends: it leaves its groups, its reserve returns, its slot is free (R190, R199). -/
def endThread (s : State) (k : Nat) : State :=
  let m := memberBit s k
  let s1 := clearSlot (breakMissed s k) k
  setCluster s1 (leaveAll s1.now s1.cluster m)

/-! ### A thread taken off its slot (R186) -/

/-- A voice as an image holds it: latencies that remain at cycle `at_`. -/
def freezeVoice (at_ : Nat) (x : Voice) : Voice :=
  let a : VoiceArch := { x.a with
    pending := x.a.pending.map (fun p => { p with due := p.due - at_, age := at_ - p.age })
    flagq := x.a.flagq.map (fun f => { f with due := f.due - at_ }) }
  { x with a := a, img := a, imgAt := 0, issued := false, replay := none, second := false, mark := .idle, clause := 0 }

/-- A voice of an image as a thread that may issue from cycle `n` on has it. -/
def thawVoice (n : Nat) (x : Voice) : Voice :=
  let a : VoiceArch := { x.a with
    pending := x.a.pending.map (fun p => { p with due := n + p.due - 1, age := n - p.age })
    flagq := x.a.flagq.map (fun f => { f with due := n + f.due - 1 }) }
  { x with a := a, img := a, imgAt := n - 1 }

/-- The bytes of a slot's window. -/
def windowOf (s : State) (t : Thread) : Memory :=
  s.core.spad.filter (fun p => decide (t.winBase * 4096 ≤ p.1) && decide (p.1 < (t.winBase + t.winLen) * 4096))

/-- What stands for a thread off its slot: no slot number, and no other thread's. -/
def ticketOf (s : State) (k : Nat) : Nat := 4 + curClause s k .A

/-- The core context image of a slot, its waits resumed and not begun again (R186, R286). -/
def saveThread (s : State) (k : Nat) : SavedThread :=
  let x := getSlot s k
  let mark (v : Voice) : Voice := freezeVoice s.now { v with a := { v.a with resumed := v.a.resumed || fabricWait v.a.wait } }
  { slot := { x with
      run := if x.vA.a.handler then .handler else .running
      vA := mark x.vA, vX0 := mark x.vX0, vX1 := mark x.vX1, vC := mark x.vC }
    ctl := getCtl s k
    window := windowOf s x.thread
    cmds := s.core.cmds.filter (fun m => decide (m.slot = k) && decide (m.state = .queued))
    cells := s.core.cells, headers := s.core.headers, grads := s.core.grads, tiles := s.core.tiles
    affine := s.core.affine, knots := s.core.ctl.knots, ticket := ticketOf s k, groups := [], arrivals := [], stored := none }

/-- The record of a thread, with its image where it has one. -/
def threadRec (x : Slot) (saved : Option SavedThread) : QRec :=
  ⟨x.thread.ctx, x.thread.tag, x.thread.rec0, x.thread.rec1, x.thread.rec2, x.thread.rec3, false, saved, 0⟩

/-- The image of a thread whose member bit leaves its groups, and the cluster in which it is pending there (R193). -/
def parkThread (c : Cluster) (m : Nat) (t : SavedThread) : SavedThread × Cluster :=
  ({ t with groups := memberGroups c m, arrivals := memberArrivals c m }, parkMember c m)

/-- Free a slot whose task goes back to the scheduler. -/
def takeOff (s : State) (k : Nat) : State :=
  let keep := s.core.cmds.filter (fun m => decide (m.slot = k) && decide (m.state = .queued))
  let s1 := rename s k (ticketOf s k)
  clearSlot { s1 with core := { s1.core with cmds := s1.core.cmds.filter (fun m => !keep.contains m) } } k

/-- Checkpoint a slot: its record returns to the queue's end with its image (R206, R183). -/
def checkpointSlot (s0 : State) (k : Nat) (img : Option StoredImage) : State :=
  let s := foldCounts s0 k
  let s1 := takeOff s k
  let x := parkThread s1.cluster (memberBit s k) { saveThread s k with stored := img }
  setCluster s1 { x.2 with queue := s1.cluster.queue ++ [threadRec (getSlot s k) (some x.1)] }

end Sys2Proof.Machine
end

