-- ==== Sys2Proof/Machine/Links.lean ====
section
/-! DEFINITION. The links of the package (R270): flits and their CRC, the header flit of a packet (Table 19.1), and what a link puts on
its wire, with the replay buffer behind it. -/

namespace Sys2Proof.Machine

def linkOf (p : Package) (l : Nat) : Link := mget ⟨false, 0, none, 0, 0, 0, [], 0, [], [], [], 0⟩ p.links l

def linkUp (p : Package) (l : Nat) : Bool := (linkOf p l).up

/-- Links that are up. -/
def upLinks (p : Package) : List Nat := (List.range 24).filter (linkUp p)

def setLink (s : State) (l : Nat) (x : Link) : State := { s with pkg := { s.pkg with links := mput s.pkg.links l x } }

/-! ### CRC-32C -/

/-- One bit of the reflected polynomial. -/
def crcBit (c : BitVec 32) : BitVec 32 := if c.getLsbD 0 then (c >>> 1) ^^^ 0x82F63B78#32 else c >>> 1

def crcBits : Nat → BitVec 32 → BitVec 32
  | 0, c => c
  | n + 1, c => crcBits n (crcBit c)

/-- CRC-32C of the bytes of a flit, lowest first. -/
def crc32c (flit : BitVec 512) : BitVec 32 :=
  (leBytes 64 flit.toNat).foldl (fun c b => crcBits 8 (c ^^^ b.setWidth 32)) (BitVec.allOnes 32) ^^^ BitVec.allOnes 32

/-! ### Packets as flits (R271) -/

/-- The doubleword at 0x10 of a header: an access's address and width, a collective's group and instance. -/
def headerField (p : Packet) : Nat :=
  if p.typ ≤ 4 then p.pa % 2 ^ 43 + p.width % 8 * 2 ^ 43
  else if p.typ ≤ 8 then p.group % 64 + (if p.mean then 2 ^ 8 else 0) + p.inst % 2 ^ 32 * 2 ^ 32
  else p.group % 64

/-- The header flit. -/
def headerFlit (p : Packet) : List Byte :=
  dwords [p.typ + p.flits % 16 * 2 ^ 4 + p.vc % 8 * 2 ^ 8 + p.job % 2 ^ 16 * 2 ^ 16 + p.tag.toNat * 2 ^ 32,
    p.dst % 2 ^ 19 + p.src % 2 ^ 19 * 2 ^ 32, headerField p, p.reqid % 2 ^ 16, p.data.toNat, 0, 0, 0]

/-- A packet's flits. -/
def packetFlits (p : Packet) : List (BitVec 512) := BitVec.ofNat 512 (leNat (headerFlit p)) :: p.payload

/-- A packet's flits as bytes. -/
def packetBytes (p : Packet) : List Byte := (packetFlits p).flatMap (fun f => leBytes 64 f.toNat)

/-! ### Sending -/

/-- The trailer of a flit: its CRC, its sequence number, the last flit that has come in sequence, and credits. -/
def trailerFor (x : Link) (credit : BitVec 8) (flit : BitVec 512) : BitVec 64 := credit ++ (x.rxSeq - 1) ++ x.txSeq ++ crc32c flit

/-- One flit goes onto the wire, and stays in the replay buffer until the peer acknowledges it. -/
def sendFlit (credit : Nat → BitVec 8) (ends : Option Packet) (x : Link) (flit : BitVec 512) : Link :=
  let t := trailerFor x (credit x.txSeq.toNat) flit
  { x with txSeq := x.txSeq + 1, held := x.held ++ [⟨flit, t, ends⟩], wire := (flit, t) :: x.wire }

def sendFlits (credit : Nat → BitVec 8) (p : Packet) : List (BitVec 512) → Link → Link
  | [], x => x
  | f :: r, x => sendFlits credit p r (sendFlit credit (if r = [] then some p else none) x f)

/-- The packets that wait are sent while the link is up and trained and the replay buffer of 512 flits has room. -/
def pump (credit : Nat → BitVec 8) : List Packet → Link → Link
  | [], x => { x with tx := [] }
  | p :: r, x =>
    if x.up = true ∧ x.retraining = none ∧ x.held.length + 1 + p.payload.length ≤ 512 then
      pump credit r (sendFlits credit p (packetFlits p) x)
    else { x with tx := p :: r }

/-- Send what waits on a link. -/
def pumpLink (s : State) (l : Nat) : State :=
  let x := linkOf s.pkg l
  setLink { s with fresh := s.fresh + 1 } l (pump (Config.creditReturn s.fresh) x.tx x)

/-- A packet leaves by a link. -/
def sendOn (s : State) (l vc : Nat) (p : Packet) : State :=
  let q : Packet := { p with port := l, vc := vc, via := (p.port, p.vc) }
  let x := linkOf s.pkg l
  let s1 := setLink s l { x with tx := x.tx ++ [q] }
  pumpLink { s1 with pkg := { s1.pkg with sent := q :: s1.pkg.sent } } l

/-- What the peer acknowledges leaves the replay buffer; a flit that gets through ends a row of failed replays. -/
def acknowledge (x : Link) (seq : BitVec 12) : Link :=
  let n := (seq + 1 - (x.txSeq - BitVec.ofNat 12 x.held.length)).toNat
  { x with
    acked := seq, held := if n ≤ x.held.length then x.held.drop n else x.held
    replays := if 0 < n ∧ n ≤ x.held.length then 0 else x.replays }

/-- The flits of the replay buffer from a sequence number on go onto the wire again. -/
def replayFrom (x : Link) (seq : BitVec 12) : Link :=
  let n := (seq - (x.txSeq - BitVec.ofNat 12 x.held.length)).toNat
  { x with wire := ((x.held.drop n).map (fun f => (f.flit, f.trailer))).reverse ++ x.wire }

/-- A flit has failed its CRC at the peer, which asks for it again; after sixteen failed replays in a row the link retrains (R270). -/
def replayLink (s : State) (l : Nat) (seq : BitVec 12) : State :=
  let x := linkOf s.pkg l
  if x.up = false ∨ x.retraining.isSome = true then s
  else if 16 ≤ x.replays then setLink s l { x with retraining := some s.now, replays := 0 }
  else setLink s l { replayFrom x seq with replays := x.replays + 1 }

/-- A link is down. -/
def downLink (x : Link) : Link := { x with up := false, retraining := none, flits := [], tx := [], held := [], replays := 0 }

/-- Packets queued for a link: not sent whole, or not acknowledged; markers, reports and purges were for its neighbour alone. -/
def queuedPackets (x : Link) : List Packet := (x.held.filterMap (fun f => f.ends) ++ x.tx).filter (fun p => decide (p.typ < 9))

end Sys2Proof.Machine
end

