-- ==== Sys2Proof/Machine/FabricOps.lean ====
section
/-! DEFINITION. The fabric's shared operations: nodes (R272), jobs and their groups (R274, R278), packets on their way
(R271, R284), and the instances local words wait for (R280, R281). -/

namespace Sys2Proof.Machine

def updInstances (j : Job) (f : Instance → Instance) : Job := { j with instances := j.instances.map f }

def setJob (s : State) (k : Nat) (j : Job) : State := { s with pkg := { s.pkg with jobs := mput s.pkg.jobs k j } }

/-- The job-table entry of a job identifier: its index and the entry. -/
def findJob (p : Package) (id : Nat) : Option (Nat × Job) := findFirst (fun e => decide (e.2.id = id)) p.jobs

/-- A node exists when each coordinate lies below the extent of its dimension (R272). -/
def nodeExists (p : Package) (n : Nat) : Bool :=
  decide (n % 64 < p.extentX) && decide (n / 64 % 64 < p.extentY) && decide (n / 4096 < p.extentZ)

/-- The job of a context: table index and entry. -/
def ctxJob (s : State) (c : Nat) : Option (Nat × Job) :=
  match (getCtx s c).job with
  | none => none
  | some jk => (mfind s.pkg.jobs jk).map (fun j => (jk, j))

def groupOf (j : Job) (g : Nat) : Group := mget ⟨false, [], 0, 0, 0, 0⟩ j.groups g

/-- The context of this package is a member of a valid group. -/
def isMember (s : State) (j : Job) (g : Nat) : Bool :=
  (groupOf j g).valid && (groupOf j g).members.contains s.pkg.node

/-- The virtual channel class of a packet type (R273). -/
def packetClass (typ : Nat) : Nat :=
  if typ = 1 ∨ typ = 2 ∨ typ = 5 ∨ typ = 7 then 0
  else if typ = 3 ∨ typ = 4 then 1
  else if typ = 6 ∨ typ = 8 then 2
  else 3

/-- A packet of this package's hub (port 24). -/
def newPacket (s : State) (typ job : Nat) (tag : BitVec 16) (dst : Nat) : Packet :=
  ⟨24, 2 * packetClass typ, typ, 0, job, tag, dst, s.pkg.node, 0, 0, 0, false, 0, 0, 0, [], false, false, (24, 0)⟩

/-! ### Routes (R270, R272, R273) -/

/-- Coordinate of a node in a dimension, and the torus extent there. -/
def coord (n dim : Nat) : Nat :=
  match dim with
  | 0 => n % 64
  | 1 => n / 64 % 64
  | _ => n / 4096

def extentOf (p : Package) (dim : Nat) : Nat :=
  match dim with
  | 0 => p.extentX
  | 1 => p.extentY
  | _ => p.extentZ

/-- The way in a dimension is the negative one: strictly shorter than the positive way. -/
def goesNegative (ext c d : Nat) : Bool := decide (ext < 2 * ((d + ext - c) % ext))

/-- The first link that is up among the four of a direction, from (source + destination) mod 4 on. -/
def linkFor (p : Package) (dir src dst : Nat) : Option Nat :=
  findFirst (linkUp p) ((List.range 4).map (fun i => 4 * dir + (src + dst + i) % 4))

/-- The link a packet takes here: dimension order; with all four links of its direction down, one of the next dimension. -/
def outLink (p : Package) (src dst : Nat) : Option Nat :=
  match findFirst (fun dim => decide (coord p.node dim ≠ coord dst dim)) [0, 1, 2] with
  | none => none
  | some dim =>
    let neg := goesNegative (extentOf p dim) (coord p.node dim) (coord dst dim)
    match linkFor p (2 * dim + if neg then 1 else 0) src dst with
    | some l => some l
    | none =>
      match linkFor p (2 * ((dim + 1) % 3)) src dst with
      | some l => some l
      | none => linkFor p (2 * ((dim + 1) % 3) + 1) src dst

/-- The bit d of the virtual channel behind a link: 1 from the wrap link of the dimension on. -/
def wrapBit (p : Package) (port vc link : Nat) : Nat :=
  let dim := link / 8
  let c := coord p.node dim
  let wraps := if link / 4 % 2 = 0 then decide (c + 1 = extentOf p dim) else decide (c = 0)
  if wraps then 1 else if port < 24 ∧ port / 8 = dim then vc % 2 else 0

/-- Put a packet on its way: into this router where it is for this node, or a purge, which is for every node; else onto a link;
without a route it is lost. -/
def deliver (s : State) (p : Packet) : State :=
  if p.dst = s.pkg.node ∨ p.typ = 12 then { s with pkg := { s.pkg with router := s.pkg.router ++ [p] } }
  else
    match outLink s.pkg p.src p.dst with
    | some l => sendOn s l (2 * packetClass p.typ + wrapBit s.pkg p.port p.vc l) p
    | none => s

/-! ### The save area (Table 19.6) -/

/-- The 64-byte record in front of a saved packet. -/
def saveRecord (p : Packet) (pos : Nat) : List Byte :=
  leBytes 64 (p.flits % 16 + p.port % 32 * 2 ^ 4 + p.vc % 8 * 2 ^ 9 + pos * 2 ^ 32)

def saveRecords : List Packet → Nat → List Byte
  | [], _ => []
  | p :: r, n => saveRecord p n ++ packetBytes p ++ saveRecords r (n + 1)

/-- Write the save area of a job: as much of it as the area holds. -/
def writeSaveArea (s : State) (j : Job) : State :=
  let bs := dwords [j.id % 2 ^ 16 + (if j.switchedOut then 2 ^ 16 else 0) + j.saved.length * 2 ^ 32,
      j.late.length + j.lateCap * 2 ^ 32, 0, 0, 0, 0, 0, 0] ++ saveRecords j.saved 0 ++ saveRecords j.late j.saved.length
  if presentRange s.pkg j.saveBase (max j.saveLen 1) then writeMem s j.saveBase (bs.take j.saveLen) else s

/-- A job's entry and its save area. -/
def putSaved (s : State) (jk : Nat) (j : Job) : State := writeSaveArea (setJob s jk j) j

/-- This router has cut the job and not resumed it (R284). -/
def jobCut (j : Job) : Bool := (j.switching && !j.incoming) || j.switchedOut

/-- Appended packets of one cycle stand in port order, then VC order; those the hub's threads release in release order. -/
def saveKey (p : Packet) : Nat := if p.port < 24 then 8 * p.port + p.vc else 192

def insertPacket (p : Packet) : List Packet → List Packet
  | [] => [p]
  | q :: r => if saveKey p < saveKey q then p :: q :: r else q :: insertPacket p r

/-- A packet is appended to the saved ones (R284). -/
def appendSaved (now : Nat) (j : Job) (p : Packet) : Job :=
  let n := if j.appended.1 = now then j.appended.2 else 0
  let m := j.saved.length - n
  { j with saved := j.saved.take m ++ insertPacket p (j.saved.drop m), appended := (now, n + 1) }

/-- The hub injects a packet of a job, or keeps it as a port 24 packet while the job is cut (R284). -/
def inject (s : State) (jk : Nat) (p : Packet) : State :=
  match mfind s.pkg.jobs jk with
  | none => deliver s p
  | some j => if jobCut j then putSaved s jk (appendSaved s.now j { p with port := 24 }) else deliver s p

def sameInstance (i : Instance) (g : Nat) (isBar : Bool) (num : Nat) : Bool :=
  decide (i.group = g) && decide (i.isBar = isBar) && decide (i.num = num)

/-- Change an instance, begun here if it is not there yet. -/
def withInstance (j : Job) (g : Nat) (isBar : Bool) (num : Nat) (f : Instance → Instance) : Job :=
  if j.instances.any (fun i => sameInstance i g isBar num) then
    updInstances j (fun i => if sameInstance i g isBar num then f i else i)
  else { j with instances := j.instances ++ [f ⟨g, isBar, num, false, [], false, 0, 0, 0, [], 0, false⟩] }

/-- A node's contribution is in. -/
def addContribution (i : Instance) (node : Nat) (mean : Bool) (val : BitVec 32) : Instance :=
  { i with mean := mean, contribs := i.contribs.filter (fun c => decide (c.1 ≠ node)) ++ [(node, val)] }

/-- The node that gathers a group's contributions: where they are combined changes no value (R279). -/
def gatherNode (g : Group) (own : Nat) : Nat := g.members.headD own

/-- A contribution or an arrival takes the next number of the context's group as its hub releases it (R278), and the local word
waits for that instance. -/
def takeNumber (s : State) (c id g : Nat) (isBar : Bool) : State × Nat :=
  match ctxJob s c with
  | none => (s, 0)
  | some (jk, j) =>
    let x := groupOf j g
    let num := if isBar then x.bar else x.red
    let y : Group := if isBar then { x with bar := x.bar + 1 } else { x with red := x.red + 1 }
    (setJob s jk (withInstance { j with groups := mput j.groups g y } g isBar num (fun i => { i with waiters := i.waiters ++ [id] })), num)

/-- The inline data of a contribution: the value, and above it the status its instance has already (log entry 47): 1 SHRUNK of one
begun before a membership change, 2 FABRIC of one whose contribution is lost. -/
def contribData (status : Nat) (val : BitVec 32) : Word := w64 (val.toNat + status % 16 * 2 ^ 32)

/-- The status an instance has here. -/
def instanceStatus (j : Job) (g : Nat) (isBar : Bool) (num : Nat) : Nat :=
  ((findFirst (fun i => sameInstance i g isBar num) j.instances).map (fun i => i.status)).getD 0

/-- The contribution of a number is sent. -/
def sendContribution (s : State) (c : Nat) (tag : BitVec 16) (id g : Nat) (isBar mean : Bool) (val : BitVec 32) (num : Nat) : State :=
  match ctxJob s c with
  | none => s
  | some (jk, j) =>
    let j1 := withInstance j g isBar num (fun i => { addContribution i s.pkg.node mean val with tag := tag })
    let p := { newPacket s (if isBar then 7 else 5) j.id tag (gatherNode (groupOf j g) s.pkg.node) with
      group := g, mean := mean, inst := num, reqid := id, data := contribData (instanceStatus j1 g isBar num) val }
    inject (setJob s jk j1) jk p

/-- A contribution that nothing holds back: it takes its number and is sent. -/
def contribute (s : State) (c : Nat) (tag : BitVec 16) (id g : Nat) (isBar mean : Bool) (val : BitVec 32) : State :=
  let x := takeNumber s c id g isBar
  sendContribution x.1 c tag id g isBar mean val x.2

/-- The number an arrival has taken. -/
def numberTaken (s : State) (c id g : Nat) : Nat :=
  match ctxJob s c with
  | none => 0
  | some (_, j) =>
    ((findFirst (fun (i : Instance) => i.isBar && decide (i.group = g) && i.waiters.contains id) j.instances).map (fun i => i.num)).getD 0

/-! ### Results (R279 to R283) -/

/-- A result on its way to a member: value, status and count in the inline data. -/
def resultPacket (s : State) (j : Job) (i : Instance) (dst : Nat) : Packet :=
  { newPacket s (if i.isBar then 8 else 6) j.id 0 dst with
    group := i.group, mean := i.mean, inst := i.num, data := w64 (i.result.toNat + i.status % 16 * 2 ^ 32 + i.count % 2 ^ 20 * 2 ^ 36) }

/-- An instance completes here, and its result goes to the other members of its group. -/
def completeInstance (s : State) (jk : Nat) (i : Instance) (status count : Nat) (result : BitVec 32) : State :=
  match mfind s.pkg.jobs jk with
  | none => s
  | some j =>
    let done (x : Instance) : Instance := { x with complete := true, status := status, count := count, result := result }
    let s1 := setJob s jk (withInstance j i.group i.isBar i.num done)
    ((groupOf j i.group).members.filter (fun m => decide (m ≠ s.pkg.node))).foldl
      (fun t m => inject t jk (resultPacket t j (done i) m)) s1

/-- The packet carries a contribution or an arrival. -/
def carries (p : Packet) : Bool := decide (p.typ = 5) || decide (p.typ = 7)

/-- An instance has lost a contribution: it completes with status FABRIC and result +0 at every member (R280, R283). -/
def failInstance (s : State) (jk g : Nat) (isBar : Bool) (num : Nat) : State :=
  match mfind s.pkg.jobs jk with
  | none => s
  | some j =>
    let i : Instance := (findFirst (fun i => sameInstance i g isBar num) j.instances).getD ⟨g, isBar, num, false, [], false, 0, 0, 0, [], 0, false⟩
    if i.complete then s else completeInstance s jk i 2 (groupOf j g).members.length 0

/-- The completed instance a word waits for; the group keeps it, so that a word that waits again finds it (R286). -/
def doneInstance (j : Job) (id : Nat) : Option Instance :=
  findFirst (fun i => i.complete && i.waiters.contains id) j.instances

end Sys2Proof.Machine
end

