-- ==== Sys2Proof/Machine/Members.lean ====
section
/-! DEFINITION. How an instance of a collective completes (R279), and what becomes of the groups of a member that fails (R282). -/

namespace Sys2Proof.Machine

/-- Least L with 2 ^ L at least n. -/
def treeDepth (n : Nat) : Nat := if n ≤ 1 then 0 else Nat.log2 (n - 1) + 1

/-- The members' contributions at their positions. -/
def leaves (members : List Nat) (cs : List (Nat × BitVec 32)) : List (Option Nat) :=
  members.map (fun m => (findFirst (fun c => decide (c.1 = m)) cs).map (fun c => c.2.toNat))

/-- The sum of an instance by the tree of R115 over 2 ^ L leaves, or the mean, one rounding of sum ÷ n (R279). -/
def combine (members : List Nat) (mean : Bool) (cs : List (Nat × BitVec 32)) : BitVec 32 :=
  let n := members.length
  let l := treeDepth n
  let xs := leaves members cs ++ List.replicate (2 ^ l - n) none
  let sum := ((reduceTree (fAdd fp32 0) l (xs, 0)).1).getD 0
  BitVec.ofNat 32 (if mean then (roundNum fp32 0 (divNum (decodeNum fp32 sum) n)).1 else sum)

def allIn (members : List Nat) (i : Instance) : Bool := members.all (fun m => i.contribs.any (fun c => decide (c.1 = m)))

/-- The instance was not complete when a switch-in began that has not ended everywhere: whether it has lost a contribution is still open
(R285). -/
def instanceOpen (j : Job) (i : Instance) : Bool := j.atStart.contains (i.group, i.isBar, i.num)

/-- Complete an instance gathered here once every member has contributed. -/
def tryComplete (s : State) (jk : Nat) (i : Instance) : State :=
  match mfind s.pkg.jobs jk with
  | none => s
  | some j =>
    let ms := (groupOf j i.group).members
    if !i.complete && !instanceOpen j i && decide (gatherNode (groupOf j i.group) s.pkg.node = s.pkg.node) && decide (ms ≠ []) && allIn ms i then
      completeInstance s jk i i.status ms.length (if i.isBar then 0 else combine ms i.mean i.contribs)
    else s

/-- The group without a member, of a new epoch. -/
def withoutMember (g : Group) (node : Nat) : Group :=
  let ms := g.members.filter (fun m => decide (m ≠ node))
  { g with members := ms, epoch := g.epoch + 1, valid := g.valid && decide (ms ≠ []) }

/-- What becomes of an incomplete instance: gathered here, or this member's contribution sent to the node that gathers now, with the
status that the change gives the instance. -/
def regather (jk g : Nat) (s : State) (i : Instance) : State :=
  match mfind s.pkg.jobs jk with
  | none => s
  | some j =>
    let x := groupOf j g
    if i.group ≠ g ∨ i.complete = true then s
    else if gatherNode x s.pkg.node = s.pkg.node then tryComplete s jk i
    else
      match findFirst (fun c => decide (c.1 = s.pkg.node)) i.contribs with
      | none => s
      | some c => inject s jk { newPacket s (if i.isBar then 7 else 5) j.id i.tag (gatherNode x s.pkg.node) with
          group := g, mean := i.mean, inst := i.num, data := contribData i.status c.2 }

/-- A member of a group fails or is removed: incomplete instances complete over the survivors with status SHRUNK. -/
def memberFails (s : State) (jk grp node : Nat) : State :=
  match mfind s.pkg.jobs jk with
  | none => s
  | some j =>
    let g := groupOf j grp
    if g.members.contains node then
      let shrink (i : Instance) : Instance :=
        if i.group = grp ∧ i.complete = false then
          { i with status := 1, contribs := i.contribs.filter (fun c => decide (c.1 ≠ node)) } else i
      let j1 := updInstances { j with groups := mput j.groups grp (withoutMember g node) } shrink
      j1.instances.foldl (regather jk grp) (setJob s jk j1)
    else s

/-- This package's context fails for every group of its job. -/
def contextFails (s : State) (c : Nat) : State :=
  match ctxJob s c with
  | none => s
  | some (jk, j) => j.groups.foldl (fun t g => memberFails t jk g.1 s.pkg.node) s

/-- Members that no route of this router reaches any more fail here. -/
def routesFail (s : State) : State :=
  s.pkg.jobs.foldl (fun t j => j.2.groups.foldl (fun t g =>
    if g.2.members.contains s.pkg.node then
      (g.2.members.filter (fun m => decide (m ≠ s.pkg.node) && (outLink s.pkg s.pkg.node m).isNone)).foldl (fun t m => memberFails t j.1 g.1 m) t
    else t) t) s

/-- A context holds a thread able to run: a record or a checkpointed thread here, one on the cluster's other cores, or one of another
cluster, which the model does not hold. -/
def runsOn (s : State) (c : Nat) : Bool :=
  s.cluster.queue.any (fun q => decide (q.ctx = c)) || s.cluster.transit.any (fun q => decide (q.entry.ctx = c)) ||
    s.cluster.away.any (fun t => decide (t.entry.ctx = c)) || s.cluster.offQueue.any (fun q => decide (q.2.ctx = c)) ||
    Config.runsElsewhere s.fresh

/-- The contexts of a fenced core's faulted threads fail where they hold no other thread able to run (R282). -/
def fenceMembers (s : State) : List Nat → State
  | [] => s
  | c :: r =>
    let t : State := { s with fresh := s.fresh + 1 }
    fenceMembers (if runsOn s c then t else contextFails t c) r

end Sys2Proof.Machine
end

