-- ==== Sys2Proof/Machine/Fence.lean ====
section
/-! DEFINITION. What ends work instead of repeating it: the purge of a request tag (R183, R283), machine checks (R183),
silent-error faults (R184) and the release of a fenced core (R250). -/

namespace Sys2Proof.Machine

/-! ### Purge (R183, R283) -/

/-- A record of the queue is dropped; its groups no longer wait for it (R193). -/
def dropRecord (now : Nat) (c : Cluster) (q : QRec) : Cluster := (pendingGroups q).foldl (dropPending now) c

/-- The records of the scheduler that bear a tag are dropped, those in transit too; tasks of other cores that bear it end there. -/
def purgeRecords (s : State) (ctx : Nat) (tag : BitVec 16) : State :=
  let hit (q : QRec) : Bool := decide (q.ctx = ctx) && decide (q.tag = tag)
  let gone := s.cluster.queue.filter hit
  let c1 : Cluster := { s.cluster with
    queue := s.cluster.queue.filter (fun q => !hit q)
    transit := s.cluster.transit.filter (fun t => !hit t.entry)
    stolen := s.cluster.stolen.filter (fun t => !hit t.entry)
    offQueue := s.cluster.offQueue.filter (fun t => !hit t.2)
    away := s.cluster.away.filter (fun t => !hit t.entry)
    promised := s.cluster.promised.filter (fun q => !hit q.2) }
  let c2 := gone.foldl (dropRecord s.now) c1
  setCluster s ((s.cluster.away.filter (fun t => hit t.entry)).foldl (fun c t => leaveAll s.now c t.mem) c2)

/-- The resident thread of slot `k` ends if it bears the tag. -/
def purgeThread (ctx : Nat) (tag : BitVec 16) (s : State) (k : Nat) : State :=
  let x := getSlot s k
  if x.run ≠ .empty ∧ x.thread.ctx = ctx ∧ x.thread.tag = tag then endThread s k else s

/-- A packet of a job that bears a purged tag. -/
def purged (job : Nat) (tag : BitVec 16) (p : Packet) : Bool := decide (p.job = job) && decide (p.tag = tag) && decide (p.typ ≠ 12)

/-- Such packets are dropped from the router and from the links' queues. -/
def dropPackets (s : State) (job : Nat) (tag : BitVec 16) : State :=
  { s with pkg := { s.pkg with
    router := s.pkg.router.filter (fun p => !purged job tag p)
    links := s.pkg.links.map (fun l => (l.1, { l.2 with tx := l.2.tx.filter (fun p => !purged job tag p) })) } }

/-- The contributions and arrivals among them. -/
def lostPackets (s : State) (job : Nat) (tag : BitVec 16) : List Packet :=
  (s.pkg.router ++ s.pkg.links.flatMap (fun l => l.2.tx)).filter (fun p => purged job tag p && carries p)

/-- A contribution dropped on its way: a member of the group completes the instance; another package tells the node that gathers it,
in the place of the contribution. -/
def loseContribution (s : State) (p : Packet) : State :=
  let told : Packet := { p with tag := 0, data := contribData 2 0 }
  match findJob s.pkg p.job with
  | none => deliver s told
  | some (jk, j) =>
    if (groupOf j p.group).members = [] then inject s jk told else failInstance s jk p.group (decide (p.typ = 7)) p.inst

/-- Arrivals of the tag that have been released and not been sent: their numbers are taken, and the instances lose them. -/
def purgeArrivals (s : State) (jk : Nat) (tag : BitVec 16) : State :=
  let hit (o : OutItem) : Bool := decide ((getCtx s o.ctx).job = some jk) && decide (o.tag = tag) &&
    (match o.eff with | .nbar _ _ => true | _ => false)
  let gone := s.core.out.filter hit
  let s1 : State := { s with core := { s.core with out := s.core.out.filter (fun o => !hit o) } }
  gone.foldl (fun t o =>
    match o.eff with
    | .nbar id g => failInstance t jk g true (numberTaken t o.ctx id g)
    | _ => t) s1

/-- The packets of a job that bear the tag are dropped from router and hub, and from the links' queues (R283). -/
def purgePackets (s : State) (jk : Nat) (tag : BitVec 16) : State :=
  match mfind s.pkg.jobs jk with
  | none => s
  | some j =>
    let ofHub (p : Packet) : Bool := purged j.id tag p && decide (p.port = 24)
    let lost := lostPackets s j.id tag ++ j.saved.filter (fun p => ofHub p && carries p)
    let j1 : Job := { j with
      saved := j.saved.filter (fun p => !ofHub p)
      faultWord := if lost = [] then j.faultWord else j.faultWord ||| 2 }
    let s1 := dropPackets s j.id tag
    let s2 := if jobCut j then putSaved s1 jk j1 else setJob s1 jk j1
    purgeArrivals (lost.foldl loseContribution s2) jk tag

/-- What a package drops for a tag of a context. -/
def purgeLocal (s : State) (ctx : Nat) (tag : BitVec 16) : State :=
  let s1 := purgeThread ctx tag (purgeThread ctx tag (purgeRecords s ctx tag) 0) 1
  match (getCtx s ctx).job with
  | some jk => purgePackets s1 jk tag
  | none => s1

/-- A purge packet; its request identifier numbers the source's purges. -/
def purgePacket (s : State) (job : Nat) (tag : BitVec 16) : Packet :=
  { newPacket s 12 job tag 0 with reqid := s.pkg.nextPacket % 2 ^ 16 }

/-- A purge packet goes on to the neighbours it did not come from, and is known here. -/
def floodPurge (s : State) (p : Packet) : State :=
  let s1 : State := { s with pkg := { s.pkg with purges := s.pkg.purges ++ [(p.src, p.reqid)] } }
  ((upLinks s.pkg).filter (fun l => decide (l ≠ p.port))).foldl (fun t l => sendOn t l 6 p) s1

/-- The purge of a request tag: here, and flooded to every package of the fabric (R283); the hub of a cut job keeps the packet. -/
def purge (s : State) (ctx : Nat) (tag : BitVec 16) : State :=
  let s1 := purgeLocal s ctx tag
  match (getCtx s ctx).job with
  | some jk =>
    match mfind s1.pkg.jobs jk with
    | some j =>
      let p := purgePacket s1 j.id tag
      let s2 : State := { s1 with pkg := { s1.pkg with nextPacket := s1.pkg.nextPacket + 1 } }
      if jobCut j then inject s2 jk p else floodPurge s2 p
    | none => s1
  | none => s1

/-! ### Core faults (Table 11.4) -/

/-- The storage dword of a machine check: the code; the bank of a core-scratchpad line (R93), while other storages' banks and
the ECC syndrome are free values. -/
def storageWord (s : State) (addr storage : Nat) : Nat :=
  storage + (if storage = 0 then addr / 64 % 32 else (Config.faultBank s.fresh).toNat) * 2 ^ 8 + (Config.eccSyndrome s.fresh).toNat * 2 ^ 16

/-- The first schedule cycle in which no voice of a slot issues because of a stop at this point of the cycle: the next one once the
voices have had their turns (R170). -/
def stopScyc (s : State) (k : Nat) : Word :=
  if 5 ≤ s.turn ∧ s.core.act = k ∧ s.core.deadTill ≤ s.now then (getSlot s k).scyc + 1 else (getSlot s k).scyc

/-- A core fault record of a thread of slot `k` with a tag, halted at a schedule cycle. -/
def faultRecord (s : State) (kind k : Nat) (tag : BitVec 16) (scyc : Word) (addr storage digest cmp low : Nat) : List Byte :=
  dwords [kind + s.core.index * 2 ^ 8 + k * 2 ^ 16 + tag.toNat * 2 ^ 32, addr, storage, scyc.toNat, digest, cmp, low, 0]

/-- ... of the thread that is in the slot. -/
def coreFault (s : State) (kind k addr storage digest cmp low : Nat) : List Byte :=
  faultRecord s kind k (getSlot s k).thread.tag (stopScyc s k) addr storage digest cmp low

/-- Checkpoint a slot that holds a live thread; free one whose thread is over. -/
def retireSlot (s : State) (k : Nat) : State :=
  match (getSlot s k).run with
  | .empty => s
  | .dead => endThread s k
  | _ => checkpointSlot s k none

/-- The core is fenced; the threads in `bad` are purged, and the tags of threads that have left it, the others checkpointed from their
seal images (R183, R184). A context that can run no other thread fails for its groups (R282). -/
def fenceCore (s : State) (bad : List Nat) (past : List (Nat × BitVec 16)) : State :=
  let tags := bad.map (fun k => ((getSlot s k).thread.ctx, (getSlot s k).thread.tag)) ++ past
  let s1 := restoreImages s (s.now + 1)
  let s2 := tags.foldl (fun t p => purge t p.1 p.2) s1
  let s3 := retireSlot (retireSlot s2 0) 1
  let s4 : State := { s3 with core := { s3.core with fenced := true, rollAt := none, freeze := none } }
  fenceMembers s4 (dedup (tags.map (fun p => p.1)))

/-- A breakpoint whose edge is that of a machine check: the debugger receives reason 5 (R288). -/
def breakHalted (s : State) (k : Nat) : State :=
  let x := getSlot s k
  if x.breakAt = some (stopScyc s k) ∧ x.run ≠ .empty then
    let s1 := debugNotice s k 5 0
    setSlot s1 k { getSlot s1 k with breakAt := none }
  else s

/-- A machine check by the thread of slot `k` (R183). -/
def machineCheck (s0 : State) (k addr storage : Nat) : State :=
  let s := breakHalted (breakHalted s0 0) 1
  let s1 := postFault s (getSlot s k).thread.ctx (coreFault s 1 k addr (storageWord s addr storage) 0 0 0)
  fenceCore { s1 with fresh := s1.fresh + 1 } [k] []

/-- A silent-error fault of the thread of slot `k` by KATCMP (R169, R184). -/
def silentError (s : State) (k : Nat) (digest : Option Word) (cmp : Word) (kd : Nat) : State :=
  let low := kd + (match digest with | some _ => 0 | none => 1) * 2 ^ 8
  fenceCore (postFault s (getSlot s k).thread.ctx (coreFault s 2 k 0 0 (digest.getD 0).toNat cmp.toNat low)) [k] []

/-- A silent-error fault by a strike in the engine region, for every thread with an affected command, each with its reason; of one
that has left its slot it is a command of a sealed clause (R181, R184). -/
def engineFault (s : State) (ks : List (Nat × Nat)) (past : List PastRun) : State :=
  let s1 := ks.foldl (fun t p => postFault t (getSlot t p.1).thread.ctx (coreFault t 2 p.1 0 0 0 0 (p.2 * 2 ^ 8))) s
  let s2 := past.foldl (fun t r => postFault t r.ctx (faultRecord t 2 r.slot r.tag r.scyc 0 0 0 0 (2 * 2 ^ 8))) s1
  fenceCore s2 (ks.map (fun p => p.1)) (past.map (fun r => (r.ctx, r.tag)))

/-- Step 1 to 4 of the release of a fenced core (R250). -/
def releaseCore (s : State) : State :=
  { s with core := { Core.fresh s.core.index with
      nextId := s.core.nextId, out := s.core.out, nwrs := s.core.nwrs } }

end Sys2Proof.Machine
end

