-- ==== Sys2Proof/Machine/Freeze.lean ====
section
/-! DEFINITION. Debug stops: the freeze on one edge with its stop image (R288), the notices (R291), and the resumption with
or without the edits of the image (R289). -/

namespace Sys2Proof.Machine

/-- The stop of a debug stop image: cause 0x22, no voice, asynchronous (R288). -/
def debugStopOf (x : Slot) (now : Nat) : Stop :=
  ⟨0x22, none, true, 0, 0, x.scyc, now, inHandler x, [], []⟩

def freezeSlots (f : Freeze) (k image : Nat) : Freeze :=
  if k = 0 then { f with slot0 := some image } else { f with slot1 := some image }

def stoppedImage (s : State) (k : Nat) : Option Nat :=
  match s.core.freeze with
  | none => none
  | some f => if k = 0 then f.slot0 else f.slot1

/-- Freeze the core at this edge with a stop image of slot `k` at a virtual address of its context (R288); `none` where the
address cannot be written. -/
def debugStop (s : State) (k reason image : Nat) : Option State :=
  let x := getSlot s k
  match spanParts s (threadCtx s k) false .write image 3 recordSize with
  | .error _ => none
  | .ok ps =>
    let edge := (s.core.freeze.map (fun f => f.since)).getD s.now
    let s1 := writeSpan s ps image (recordPieces { s with now := edge - 1 } k (debugStopOf x edge))
    let f := freezeSlots ((s.core.freeze).getD ⟨s.now, none, none, []⟩) k image
    some (debugNotice (traceThread { s1 with core := { s1.core with freeze := some f } } k 2 [x.scyc.toNat, reason]) k reason image)

/-! ### Time that the freeze took (R288) -/

def delayArch (d : Nat) (a : VoiceArch) : VoiceArch :=
  { a with
    pending := a.pending.map (fun p => { p with due := p.due + d, age := p.age + d })
    flagq := a.flagq.map (fun f => { f with due := f.due + d }) }

def delayVoice (d : Nat) (x : Voice) : Voice := { x with a := delayArch d x.a }

def delaySlot (d : Nat) (x : Slot) : Slot :=
  { x with
    vA := delayVoice d x.vA, vX0 := delayVoice d x.vX0, vX1 := delayVoice d x.vX1, vC := delayVoice d x.vC
    startAt := x.startAt + d
    fills := x.fills.map (fun f => { f with due := f.due + d })
    thread := { x.thread with sliceAt := x.thread.sliceAt + d } }

/-- Everything the core times is later by the cycles the freeze took. -/
def delayCore (c : Core) (d : Nat) : Core :=
  { c with
    slot0 := delaySlot d c.slot0, slot1 := delaySlot d c.slot1
    deadTill := c.deadTill + d
    rollAt := c.rollAt.map (fun r => r + d)
    sealedExec := c.sealedExec.map (fun r => (r.1, r.2 + d))
    pastRuns := c.pastRuns.map (fun r => { r with at_ := r.at_ + d })
    cmds := c.cmds.map (fun m => if m.retired then { m with endAt := m.endAt + d } else m)
    clauses := c.clauses.map (fun q => { q with boundary := q.boundary.map (fun b => b + d), img := delayArch d q.img }) }

/-! ### Resumption (R289) -/

/-- A voice reloaded from a stop image as ERET does, bit [0] of +0x3070 honoured (R286); mode, handler, exited bit and what the image
does not hold stay. -/
def resumeVoice (rd : Nat → Nat → Nat) (v : VoiceId) (n : Nat) (old : Voice) : Voice :=
  let a := recVoice rd v (sectionBase v) n old.a.exited old.a.dslots old.a.wait
  { old with a := { a with
      vrnd := old.a.vrnd, handler := old.a.handler, resumed := a.resumed || (old.a.resumed && a.wait.isSome)
      na0 := if old.a.exited then old.a.na0 else a.na0
      na1 := if old.a.exited then old.a.na1 else a.na1
      na2 := if old.a.exited then old.a.na2 else a.na2
      lc := if old.a.exited then old.a.lc else a.lc } }

/-- Reload the voices of a stopped slot from its image, as edited, at the edge at which the core froze. An image that cannot
be read leaves them as they were. -/
def reloadImage (s : State) (k image : Nat) : State :=
  match spanParts s (threadCtx s k) false .read image 3 recordSize with
  | .error _ => s
  | .ok ps =>
    let x := getSlot s k
    let rd (off m : Nat) : Nat := leNat ((List.range m).map (fun i => (readMem s (partAddr ps (image + off + i)) 1).headD 0))
    let n := (s.core.freeze.map (fun f => f.since)).getD s.now
    let one (v : VoiceId) (y : Voice) : Voice := resumeVoice rd v n y
    setSlot s k { x with vA := one .A x.vA, vX0 := one .X0 x.vX0, vX1 := one .X1 x.vX1, vC := one .C x.vC }

/-- Slot `k` is no longer stopped. -/
def unstop (s : State) (k : Nat) : State :=
  match s.core.freeze with
  | none => s
  | some f => { s with core := { s.core with freeze := some (if k = 0 then { f with slot0 := none } else { f with slot1 := none }) } }

/-- Unfreeze once no slot of the core is stopped: the time of the freeze is made up for. The reports it held come back for
R180. -/
def thawCore (s : State) : State × List Nat :=
  match s.core.freeze with
  | none => (s, [])
  | some f =>
    if f.slot0.isSome || f.slot1.isSome then (s, [])
    else ({ s with core := { delayCore s.core (s.now - f.since) with freeze := none } }, f.heldReports)

end Sys2Proof.Machine
end

