-- ==== Sys2Proof/Machine/Control.lean ====
section
/-! DEFINITION. Control words: the face words (R57, R58), branches, calls and jumps (R59 to R63), the hardware loop (R64),
rejoining voices (R65 to R69), NOP and EXIT (R70, R71), TRAP, BRK and ERET (R72 to R75), the status registers (R76, R81). -/

namespace Sys2Proof.Machine

/-! ### Faces -/

def execFlip (sb : BitVec 1) (p : BitVec 3) (s : State) : Out :=
  word sb p .all (fun h t => withFlip h t (fun u => .retire .seq true u)) s

/-- The registers of an RDH by class, and its latency (R58, Table 4.1). -/
def rdhDest (cls d : BitVec 5) : RegId :=
  match cls.toNat with
  | 0 => .s d.toNat
  | 1 => .p d.toNat
  | 3 => .m d.toNat
  | _ => .v d.toNat

def rdhSource (cls a : BitVec 5) : RegId :=
  match cls.toNat with
  | 0 => .s a.toNat
  | 1 => .p a.toNat
  | 2 => .v a.toNat
  | 3 => .m a.toNat
  | _ => .vflags

def rdhLat (cls : BitVec 5) : Nat := if cls.toNat < 2 then 1 else 2

def execRdh (sb : BitVec 1) (p : BitVec 3) (d a b : BitVec 5) (s : State) : Out :=
  word sb p (if b.toNat < 2 then .all else .x) (fun h t =>
    writeOne h (rdhDest b d) (faceGet (archAt t h).hid (rdhSource b a)) (rdhLat b) t) s

/-! ### Branches and transfers -/

/-- The target of a displacement in words from the word's own address. -/
def dispTarget (addr : VAddr) (imm : BitVec 20) : VAddr := addr + (imm.signExtend 52 <<< 2)

/-- A branch of a form: p is its condition and not a predicate (R20). -/
def branchWord (sb : BitVec 1) (p : BitVec 3) (imm : BitVec 20) (form : Nat) (s : State) : Out :=
  issue sb 0 .all false noIll alwaysLive (fun h t =>
    .retire (.branch (visP (archAt t h) p) (dispTarget h.addr imm) form) false t) s

def execBr (sb : BitVec 1) (p : BitVec 3) (imm : BitVec 20) (s : State) : Out := branchWord sb p imm 0 s

def execBrn (sb : BitVec 1) (p : BitVec 3) (imm : BitVec 20) (s : State) : Out := branchWord sb p imm 1 s

def execBrt (sb : BitVec 1) (p : BitVec 3) (imm : BitVec 20) (s : State) : Out := branchWord sb p imm 2 s

def execCall (sb : BitVec 1) (p : BitVec 3) (imm : BitVec 20) (s : State) : Out :=
  issue sb 0 .all false noIll alwaysLive (fun h t =>
    if visP (archAt t h) p then
      withWrites h [⟨.s 31, row64 (h.addr.setWidth 64 + 12), 1⟩] t (fun u =>
        .retire (.jump (dispTarget h.addr imm) false) false u)
    else .retire (.branch false 0 0) false t) s

/-- A 64-bit sum as a transfer target: bits [51:2], bits [1:0] zero (R61). -/
def alignTarget (x : Word) : VAddr := (x.setWidth 52 >>> 2) <<< 2

def execJr (sb : BitVec 1) (p : BitVec 3) (a : BitVec 5) (imm : BitVec 10) (s : State) : Out :=
  word sb p .all (fun h t =>
    .retire (.jump (alignTarget (visS (archAt t h) a + (imm.signExtend 64 <<< 2))) true) false t) s

/-- A jump table's base: bits [1:0] cleared. -/
def tableBase (x : Word) : Word := (x >>> 2) <<< 2

def execJtb (sb : BitVec 1) (p : BitVec 3) (d a : BitVec 5) (l : BitVec 10) (s : State) : Out :=
  word sb p .all (fun h t =>
    let base := tableBase (visS (archAt t h) d)
    let i := visS (archAt t h) a
    if l.toNat ≤ i.toNat then .retire (.branch false 0 0) false t
    else
      let ea := base + (i <<< 2)
      match fetchAt t h.k h.v ea.toNat with
      | .fault => .trap 0x08 ea t
      | .check va st => .halt (machineCheck t h.k va st)
      | .word e =>
        .retire (.jump (alignTarget (base + (e.signExtend 64 <<< 2))) true) false (fetchFill t h.k h.v ea.toNat)) s

/-! ### The hardware loop -/

/-- Rebuild the chain from `a` with loop levels `lc`: NA1 and NA2 are successors (R64). The levels exhausted come second. -/
def rebuildChain (r : VoiceArch) (a : VAddr) (lc : List Level) : VoiceArch × Nat :=
  let n1 := seqFrom a lc
  let n2 := seqFrom n1.1 n1.2.1
  ({ r with na0 := ⟨a, false⟩, na1 := ⟨n1.1, false⟩, na2 := ⟨n2.1, false⟩, lc := n2.2.1, dslots := 0 },
    n1.2.2 + n2.2.2)

/-- A LOOP in a delay slot or as the second word of a pair is ILLEGAL (R22, R46). -/
def loopIll (h : Here) (s : State) : Bool := decide (0 < (archAt s h).dslots) || (getVoice s h.k h.v).second

def execLoop (sb : BitVec 1) (p : BitVec 3) (a : BitVec 5) (imm : BitVec 12) (s : State) : Out :=
  issue sb 0 .all false loopIll (predLive p) (fun h t =>
    let r := archAt t h
    let n := visS r a
    let b : VAddr := h.addr + 4
    let e : VAddr := b + ((imm.setWidth 52) <<< 2)
    if n = 0 then
      let c := rebuildChain r e r.lc
      .retire .keep false (snapshotBanks (setArchAt t h c.1) h.k h.v (endsOf r c.2))
    else if 4 ≤ r.lc.length then .trap 0x05 0 t
    else
      let r1 := { r with lc := ⟨b, e, n⟩ :: r.lc }
      let c := rebuildChain r1 b r1.lc
      .retire .keep false (snapshotBanks (setArchAt t h c.1) h.k h.v (endsOf r1 c.2))) s

/-! ### Rejoining voices -/

/-- The other three voices have exited, or are held (R66, R75). -/
def aloneAt (s : State) (h : Here) : Bool := (otherVoices h.v).all (fun u => countsExited s h.k u)

def execSpost (sb : BitVec 1) (p : BitVec 3) (v : BitVec 2) (k : BitVec 3) (s : State) : Out :=
  word sb p .all (fun h t =>
    if (getArch t h.k (voiceOf v.toNat)).exited then .retire .seq false t
    else .retire .seq false (changeAt t h (.syncSet (8 * v.toNat + k.toNat) ⟨clauseAt t h, t.now + 1, clockOf t h.k h.v⟩))) s

def execSwait (sb : BitVec 1) (p : BitVec 3) (k : BitVec 3) (s : State) : Out :=
  word sb p .all (fun h t =>
    let key := 8 * h.v.num + k.toNat
    let blocked : Res := if aloneAt t h then .trap 0x0F 0 t else .stall false t
    match mfind (getCtl t h.k).sync key with
    | some b =>
      if b.at_ ≤ t.now then .retire .seq false (changeAt (linkAt t h b.clause b.ord) h (.syncClr key t.now)) else blocked
    | none => blocked) s

def execBqput (sb : BitVec 1) (p : BitVec 3) (v : BitVec 2) (k : BitVec 3) (s : State) : Out :=
  word sb p .all (fun h t =>
    let u := voiceOf v.toNat
    if (getArch t h.k u).exited then .retire .seq false t
    else if 8 ≤ (getBq (getCtl t h.k) u).length then .stall false t
    else .retire .seq false (changeAt t h (.bqPush u ⟨visP (archAt t h) k, clauseAt t h, t.now + 1, clockOf t h.k h.v⟩))) s

/-- Popped `bq` entries of a voice that are retained until their pops seal (R177). -/
def bqRetained (s : State) (k : Nat) (v : VoiceId) : Nat :=
  (s.core.journal.filter (fun e => decide (e.slot = k) && decide (e.ch = .bqPop v) && unsealed s.core e.clause)).length

/-- BQBR of a form: the popped value is its condition (R68). -/
def bqBranch (sb : BitVec 1) (imm : BitVec 20) (form : Nat) (s : State) : Out :=
  issue sb 0 .all false noIll alwaysLive (fun h t =>
    match getBq (getCtl t h.k) h.v with
    | [] => if aloneAt t h then .trap 0x0D 0 t else .stall false t
    | e :: _ =>
      if t.now < e.at_ ∨ 8 ≤ bqRetained t h.k h.v then .stall false t
      else
        .retire (.branch e.val (dispTarget h.addr imm) form) false (changeAt (linkAt t h e.clause e.ord) h (.bqPop h.v))) s

def execBqbr (sb : BitVec 1) (imm : BitVec 20) (s : State) : Out := bqBranch sb imm 0 s

def execBqbrn (sb : BitVec 1) (imm : BitVec 20) (s : State) : Out := bqBranch sb imm 1 s

def execBqbrt (sb : BitVec 1) (imm : BitVec 20) (s : State) : Out := bqBranch sb imm 2 s

/-! ### NOP and EXIT -/

def execNop (sb : BitVec 1) (p : BitVec 3) (s : State) : Out := word sb p .all (fun _ t => .retire .seq false t) s

/-- A voice that has exited: no chain, no loop level (R71). -/
def exitArch (a : VoiceArch) : VoiceArch :=
  { a with na0 := ⟨0, false⟩, na1 := ⟨0, false⟩, na2 := ⟨0, false⟩, dslots := 0, lc := [], exited := true }

def markExited (s : State) (k : Nat) (v : VoiceId) : State := setArch s k v { getArch s k v with exited := true }

/-- In handler mode EXIT ends the thread: the held voices count as exited (R75). -/
def exitHeld (s : State) (k : Nat) : State :=
  if inHandler (getSlot s k) then markExited (markExited (markExited s k .X0) k .X1) k .C else s

def allExited (x : Slot) : Bool := x.vA.a.exited && x.vX0.a.exited && x.vX1.a.exited && x.vC.a.exited

/-- The thread is over once every voice has exited and all has sealed (R71). -/
def noteEnded (s : State) (k : Nat) : State :=
  let x := getSlot s k
  if allExited x then setSlot s k { x with run := .ended } else s

def execExit (sb : BitVec 1) (p : BitVec 3) (s : State) : Out :=
  word sb p .all (fun h t =>
    let mk := (getVoice t h.k h.v).issued
    if !fileEmpty (archAt t h) || (mk && sealQueueFull t h.k h.v) then .stall false t
    else .retire .keep mk (noteEnded (exitHeld (setArchAt t h (exitArch (archAt t h))) h.k) h.k)) s

/-! ### TRAP, BRK and ERET -/

/-- TRAP retires; the stop follows at the end of the cycle (R72, R170). -/
def execTrap (sb : BitVec 1) (p : BitVec 3) (_c : BitVec 10) (s : State) : Out :=
  word sb p .all (fun h t =>
    let x := slotAt t h
    if x.trapped.isSome then .stall false t
    else .retire .seq false (setSlot t h.k { x with trapped := some (h.v, currentWord t h) })) s

/-- BRK has no predicate and no S bit; with a debug session it stops instead of trapping (R73, R290). A stop image that
cannot be written ends the session. -/
def execBrk (_sb : BitVec 1) (_x : BitVec 25) (s : State) : Out :=
  issue 0 0 .all false noIll alwaysLive (fun h t =>
    let c := (slotAt t h).thread.ctx
    match (getCtx t c).session with
    | none => .trap 0x07 0 t
    | some _ =>
      match debugStop t h.k 2 (slotAt t h).imageAt with
      | some u => .halt u
      | none => .trap 0x07 0 (setCtx t c { getCtx t c with session := none })) s

/-- ERET outside handler mode is ILLEGAL (R46). -/
def eretIll (h : Here) (s : State) : Bool := !inHandler (slotAt s h)

/-- The first poisoned line of a record, within the record. -/
def poisonedRecord (s : State) (ps : List Part) : Option Nat := (ps.filterMap (fun p => poisonAt s.pkg p.pa p.len)).head?

/-- The second half of ERET: every clause has sealed, the record is read and reloaded (R74). -/
def eretReload (h : Here) (s : State) : Res :=
  let ra := (slotAt s h).recAddr
  match spanParts s (threadCtx s h.k) true .read ra 3 recordSize with
  | .error bad => .trap 0x09 (w64 bad) s
  | .ok ps =>
    match poisonedRecord s ps with
    | some a => .halt (machineCheck s h.k a (storageCode a))
    | none => .halt (takeHeld (reloadRecord s h.k ps ra (s.now + 1)) h.k (s.now + 1))

def execEret (sb : BitVec 1) (p : BitVec 3) (s : State) : Out :=
  issue sb 0 .a false eretIll (predLive p) (fun h t =>
    let a := archAt t h
    match a.wait with
    | none =>
      let mk := (getVoice t h.k h.v).issued
      if !fileEmpty a || (mk && sealQueueFull t h.k h.v) then .stall false t
      else .retire .keep mk (setArchAt t h { a with wait := some ⟨.eret, clauseAt t h, [], 0, 0, t.now, h.addr⟩ })
    | some _ => if slotClosed t h.k = [] then eretReload h t else .stall false t) s

/-! ### Status registers -/

/-- status(N) at a voice (Tables 2.2, 6.1, 7.5, 11.3, 19.4, 20.5). A core status register that an earlier voice, in the order A, X0,
X1, C, has written in the same cycle reads as written (DESIGN CHOICE, log entry 110). -/
def statusRead (s : State) (k : Nat) (v : VoiceId) (n : Nat) : Word :=
  let x := getSlot s k
  let a := getArch s k v
  match n with
  | 0x00 => w64 (vstat a x.thread.smode)
  | 0x01 => if a.clashtrap then 1 else 0
  | 0x02 => a.clashcnt.setWidth 64
  | 0x03 => a.vrnd.setWidth 64
  | 0x04 => (orFlags a.vis.vflags).setWidth 64
  | 0x10 => (getCtl s k).syncset.setWidth 64
  | 0x11 => w64 (x.thread.winBase * 2 ^ 12 + x.thread.winLen * 2 ^ 32)
  | 0x12 => x.scyc
  | 0x13 => w64 (k + if (getSlot s (1 - k)).run = .empty then 0 else 2)
  | 0x14 => x.rollcnt.setWidth 64
  | 0x15 => x.undoovf.setWidth 64
  | _ => sget (getCtl s k).status n

/-- VRND and VFLAGS exist in X voices only (R110, R138). -/
def statusPerm (n : BitVec 10) : Perm := if n = 3 ∨ n = 4 then .x else .all

def execSrd (sb : BitVec 1) (p : BitVec 3) (d : BitVec 5) (n : BitVec 10) (s : State) : Out :=
  word sb p (statusPerm n) (fun h t =>
    withWrites h [⟨.s d.toNat, row64 (statusRead t h.k h.v n.toNat), 2⟩] t (fun u =>
      .retire .seq false (depAt u h (mget 0 (getCtl u h.k).statusBy n.toNat)))) s

/-- A reserved event code is stored as none (R296). -/
def pmEvent (x : Word) : Word := if (x.setWidth 4).toNat < 12 then (x.setWidth 4).setWidth 64 else 0

/-- The change an SWR makes to a core status register; none for the read-only ones. What a counter has counted in the cycle counts after
the write (R296). -/
def statusChange (n : Nat) (x : Word) (cl counted : Nat) : Option Change :=
  if n = 0x10 then some (.syncsetSet (x.setWidth 4) cl)
  else if 0x18 ≤ n ∧ n ≤ 0x27 then some (.statusSet n ((x.setWidth 32).setWidth 64) cl)
  else if 0x30 ≤ n ∧ n ≤ 0x33 then some (.statusSet n (pmEvent x) cl)
  else if 0x38 ≤ n ∧ n ≤ 0x3B then some (.statusSet n (x + w64 counted) cl)
  else none

/-- A voice status register written in its writable fields. -/
def voiceStatus (a : VoiceArch) (n : Nat) (x : Word) : VoiceArch :=
  match n with
  | 0 => { a with clash := x.getLsbD 0 }
  | 1 => { a with clashtrap := x.getLsbD 0 }
  | 2 => { a with clashcnt := x.setWidth 32 }
  | 3 => { a with vrnd := x.setWidth 2 }
  | _ => a

def execSwr (sb : BitVec 1) (p : BitVec 3) (d : BitVec 5) (n : BitVec 10) (s : State) : Out :=
  word sb p (statusPerm n) (fun h t =>
    let x := visS (archAt t h) d
    if n = 4 then writeOne h .vflags ((spreadFlags (x.setWidth 5)).setWidth 1024) 2 t
    else if n.toNat < 4 then .retire .seq false (setArchAt t h (voiceStatus (archAt t h) n.toNat x))
    else
      match statusChange n.toNat x (clauseAt t h) (mget 0 t.core.counted (4 * h.k + (n.toNat - 0x38))) with
      | some c => .retire .seq false (changeAt t h c)
      | none => .retire .seq false t) s

/-! ### SEALW (R263) -/

def execSealw (sb : BitVec 1) (p : BitVec 3) (s : State) : Out :=
  word sb p .all (fun h t =>
    match (archAt t h).wait with
    | none => withFlip h t (fun u => startWait h .sealw [] 0 0 u)
    | some w => if unsealed t.core w.clause then .stall true t else endWait h false [] t) s

end Sys2Proof.Machine
end

