-- ==== Sys2Proof/Machine/Images.lean ====
section
/-! DEFINITION. Images as bytes: the core context image (R186, Table 11.6), the cluster image (R210, Table 12.9), where they lie in a
save area (R259), and what a restore reads back. The tables give the parts, their order and their sizes; the layout inside a part
that no table gives is the model's (DESIGN CHOICE, log entry 42). -/

namespace Sys2Proof.Machine

/-! ### Save areas -/

/-- The physical address of an offset of an area that lies in spans of physical memory. -/
def spanAddr : List (Nat × Nat) → Nat → Option Nat
  | [], _ => none
  | (pa, n) :: r, off => if off < n then some (pa + off) else spanAddr r (off - n)

/-- Write a byte of an area; one behind its end is not written. -/
def putByte (spans : List (Nat × Nat)) (off : Nat) (m : Memory) (b : Byte) : Memory :=
  match spanAddr spans off with
  | some pa => sset m pa b
  | none => m

def putPiece (spans : List (Nat × Nat)) (m : Memory) (p : Piece) : Memory :=
  (List.range p.2.1).foldl (fun m i => putByte spans (p.1 + i) m (BitVec.ofNat 8 (p.2.2 / 256 ^ i % 256))) m

/-- The part of a span list from an offset on. -/
def spansFrom : List (Nat × Nat) → Nat → List (Nat × Nat)
  | [], _ => []
  | (pa, n) :: r, off => if off < n then (pa + off, n - off) :: r else spansFrom r (off - n)

/-- The first bytes of a span list. -/
def spansTake : List (Nat × Nat) → Nat → List (Nat × Nat)
  | [], _ => []
  | (pa, n) :: r, len => if len ≤ n then [(pa, len)] else (pa, n) :: spansTake r (len - n)

/-- Write a region of an area: every byte zero, then the pieces. -/
def putRegion (s : State) (spans : List (Nat × Nat)) (off len : Nat) (ps : List Piece) : State :=
  let cleared := (spansTake (spansFrom spans off) len).foldl (fun m p => mclear m p.1 p.2) s.pkg.mem
  { s with pkg := { s.pkg with mem := ps.foldl (putPiece (spansFrom spans off)) cleared } }

/-- Bytes of an area. -/
def areaBytes (s : State) (spans : List (Nat × Nat)) (off n : Nat) : List Byte :=
  (List.range n).map (fun i => match spanAddr spans (off + i) with | some pa => sget s.pkg.mem pa | none => 0)

/-! ### Parts in order -/

/-- A part: its size, and its pieces from its own beginning. -/
abbrev ImagePart := Nat × List Piece

def layParts : List ImagePart → Nat → List Piece
  | [], _ => []
  | (n, ps) :: r, o => ps.map (fun p => (p.1 + o, p.2)) ++ layParts r (o + n)

def partsSize (ps : List ImagePart) : Nat := (ps.map (fun p => p.1)).sum

/-- Values of one size, one behind the other. -/
def listPieces (base size : Nat) : List Nat → List Piece
  | [] => []
  | x :: r => (base, size, x) :: listPieces (base + size) size r

/-! ### The core context image (Table 11.6) -/

def flagBits (l : List Bool) : Nat := ((List.range l.length).map (fun i => if l.getD i false then 2 ^ i else 0)).sum

/-- A saved voice as a section holds it: latencies that remain, ages so far. -/
def savedArch (a : VoiceArch) : VoiceArch :=
  { a with
    pending := a.pending.map (fun p => { p with due := 2 ^ 16 + p.due, age := 2 ^ 16 - p.age })
    flagq := a.flagq.map (fun f => { f with due := 2 ^ 16 + f.due }) }

/-- The voice sections; voice A's tells of a SIGNAL that is pending (R317). -/
def voicesPart (t : SavedThread) : List Piece :=
  allVoices.flatMap (fun v =>
    sectionPieces v (v.num * 0x3080) (2 ^ 16) t.slot.thread.smode (savedArch (slotVoice t.slot v).a) ++
      (if v.isX then maskConst (v.num * 0x3080) else []) ++
      (if v = .A then [(v.num * 0x3080 + 0x3070, 1, flagBits [false, (slotVoice t.slot v).a.exited, t.slot.heldSignal || t.slot.pendSignal])]
        else []))

def bqOf (c : Ctl) : VoiceId → List BqEntry
  | .A => c.bqA
  | .X0 => c.bqX0
  | .X1 => c.bqX1
  | .C => c.bqC

/-- Sync bits y0 to y7, the outcomes of `bq` oldest lowest, their number. -/
def syncPart (t : SavedThread) : List Piece :=
  allVoices.flatMap (fun v =>
    let ys := ((List.range 8).map (fun k => if (mfind t.ctl.sync (8 * v.num + k)).isSome then 2 ^ k else 0)).sum
    let q := bqOf t.ctl v
    listPieces (16 * v.num) 1 [ys, ((List.range q.length).map (fun i => if (q.map (fun e => e.val)).getD i false then 2 ^ i else 0)).sum, q.length])

/-- Where the entries of a queue begin (Table 6.3). -/
def queueBase (q : Nat) : Nat := if q ≤ 6 then 2048 * q else 12288 + 1024

/-- Queue entries from the head on; then head 0 and tail of each. -/
def queuesPart (t : SavedThread) : List Piece :=
  (List.range 8).flatMap (fun q =>
    let es := mget [] t.ctl.queues q
    listPieces (queueBase q) 128 (es.map (fun e => (((mfind t.slot.qvals e.id).map (fun (x : QVal) => x.val)).getD 0).toNat)) ++
      listPieces (14336 + 6 * q) 3 [0, es.length])

/-- Landing slots: contents, then 0 FREE, 1 BUSY, 2 FULL. -/
def landingPart (t : SavedThread) : List Piece :=
  (List.range 24).flatMap (fun k =>
    let size := if k < 8 then 8 else 128
    let base := if k < 8 then 8 * k else 64 + 128 * (k - 8)
    match mget (Landing.free 0) t.ctl.landing k with
    | .free r => [(base, size, r.toNat)]
    | .xfer id _ =>
      match mfind t.slot.arrived id with
      | some x => [(base, size, x.data.toNat), (64 + 2048 + k, 1, 2)]
      | none => [(64 + 2048 + k, 1, 1)])

def intBytes (x : Int) : Nat := (BitVec.ofInt 32 x).toNat

def streamsPart (t : SavedThread) : List Piece :=
  t.ctl.streams.flatMap (fun e =>
    let x := e.2
    listPieces (80 * e.1) 4 [x.base, x.n0, x.n1, x.n2, x.n3, intBytes x.d0, intBytes x.d1, intBytes x.d2, intBytes x.d3, x.esz, x.decode,
      x.queue, flagBits [x.drain, x.bound, x.finished], x.reserved, x.done, x.resolved])

def tablesPart (t : SavedThread) : List Piece :=
  (t.ctl.templates.map (fun e => ((e.1 - 64) * 128, 128, e.2.toNat))) ++
  (t.ctl.counters.flatMap (fun e =>
    listPieces (24576 + 8 * e.1) 2 [e.2.arrived.length % 2 ^ 16, e.2.absorb % 2 ^ 16, e.2.out % 2 ^ 16, if e.2.exc then 1 else 0])) ++
  (t.ctl.rings.flatMap (fun e => listPieces (24640 + 16 * e.1) 4 [e.2.base, e.2.lgsize + 256 * e.2.lgrow, e.2.head, e.2.tail])) ++
  (t.slot.pubs.flatMap (fun e => listPieces (24896 + 32 * e.1) 8 [e.2.half0, e.2.half1, e.2.len, flagBits [e.2.front, e.2.valid]]))

/-- SYNCSET, WINDOW, SCYC, SLOT, the BANKLOSS counts, ROLLCNT, UNDOOVF and NFADDR, the place of a checkpointed thread's record; the
digests and their valid bits. -/
def statusPart (place k : Nat) (t : SavedThread) : List Piece :=
  let st (n : Nat) : Nat := (sget t.ctl.status n).toNat
  listPieces 0 8 [t.ctl.syncset.toNat, t.slot.thread.winBase * 2 ^ 12 + t.slot.thread.winLen * 2 ^ 32, t.slot.scyc.toNat, k] ++
  listPieces 32 4 ((List.range 16).map (fun i => st (0x18 + i))) ++
  listPieces 96 8 [t.slot.rollcnt.toNat, t.slot.undoovf.toNat, st 0x28, place] ++
  t.ctl.digests.map (fun e => (128 + 8 * e.1, 8, e.2.toNat)) ++ t.ctl.digests.map (fun e => (192 + e.1, 1, 1))

def windowPart (t : SavedThread) : List Piece :=
  t.window.map (fun p => (p.1 - t.slot.thread.winBase * 4096, 1, p.2.toNat))

/-- The commands of engines 1 and 2, or of the scatter engine, that have not started. -/
def unstarted (scatter : Bool) (ts : List (Nat × SavedThread)) : List Cmd :=
  ts.flatMap (fun p => p.2.cmds.filter (fun m => decide (m.eng = 3) == scatter))

/-- Room for `n` commands, those there are from its beginning on. -/
def cmdsPart (n : Nat) (cs : List Cmd) : ImagePart := (128 * n, listPieces 0 128 ((cs.take n).map (fun m => m.tmpl.toNat)))

/-- The array's state as a core holds it (R153). -/
def arrayOf (c : Core) : ArrayState := ⟨c.cells, c.headers, c.grads, c.tiles, c.affine, c.ctl.knots⟩

def mapPart {w : Nat} (size : Nat) (m : SMap w) : List Piece := m.map (fun p => (p.1 * size, size, p.2.toNat))

/-- The affine table's values: each entry is held XOR its reset value, 1.0 of a scale. -/
def affinePart (m : SMap 32) : List Piece :=
  listPieces 0 4 ((List.range 128).map (fun i => (sget m i ^^^ (if i % 2 = 0 then 0x3F800000 else 0)).toNat))

def knotsPart (k : Knots) : List Piece :=
  listPieces 0 4 [k.klo.toNat, k.kstep.toNat, k.kinv.toNat, k.kg.toNat, k.kmode.toNat, k.koog.toNat]

/-- Sizes of the parts of a core image that stand once for each slot: voices, sync bits, queues, landing slots, streams, tables,
status. -/
def slotSizes : List Nat := [4 * 0x3080, 64, 14336 + 48, 64 + 2048 + 24, 640, 24576 + 64 + 256 + 512, 128 + 72]

/-- The parts of a core image, those per slot for slot 0 and then for slot 1; a slot without a thread is zero. `place` is 0, or one
more than the place in the queue of a checkpointed thread's record. -/
def coreParts (place : Nat) (ts : List (Nat × SavedThread)) (a : ArrayState) : List ImagePart :=
  let slotOf (k : Nat) : Option SavedThread := (findFirst (fun p => decide (p.1 = k)) ts).map (fun p => p.2)
  let per (j : Nat) (f : Nat → SavedThread → List Piece) : List ImagePart :=
    [0, 1].map (fun k => (slotSizes.getD j 0, match slotOf k with | some t => f k t | none => []))
  per 0 (fun _ => voicesPart) ++ per 1 (fun _ => syncPart) ++ per 2 (fun _ => queuesPart) ++
  per 3 (fun _ => landingPart) ++ per 4 (fun _ => streamsPart) ++ per 5 (fun _ => tablesPart) ++
  per 6 (statusPart place) ++ [cmdsPart 64 (unstarted false ts)] ++
  [0, 1].map (fun k => match slotOf k with | some t => (t.slot.thread.winLen * 4096, windowPart t) | none => (0, [])) ++
  [(262144, mapPart 2 a.cells), (65536, mapPart 2 a.headers), (262144, mapPart 4 a.grads), (131072, mapPart 4 a.tiles),
    (512, affinePart a.affine), (24, knotsPart a.knots)]

/-! ### The cluster image (Table 12.9) -/

def barrierPieces (e : Nat × Barrier) : List Piece :=
  listPieces (16 * e.1) 8 [e.2.group.toNat + (if e.2.bound then 2 ^ 8 else 0) + e.2.phase.toNat * 2 ^ 32,
    e.2.e.toNat + e.2.a.toNat * 2 ^ 16 + e.2.early.toNat * 2 ^ 32]

/-- The records, then for each member bit its reserve. -/
def queuePieces (q : List QRec) (ts : List (Nat × SavedThread)) (mem : Nat → Nat) : List Piece :=
  listPieces 0 8 ((q.take 256).flatMap (fun r => [r.r0.toNat, r.r1.toNat, r.r2.toNat, r.r3.toNat])) ++
  ts.map (fun p => (8192 + 4 * mem p.1, 1, p.2.slot.thread.reserve))

/-- The queues of a declared pipeline: for each the number of its items and of those in the overflow area, then its items. -/
def pipeParts (pipes : KMap PipeQueue) (d : Nat × PipeDecl) : List ImagePart :=
  (List.range (d.2.nodes.length - 1)).map (fun st =>
    let q := mget ⟨[], []⟩ pipes (8 * d.1 + st)
    (8 + 8 * d.2.depths.getD st 1, listPieces 0 4 [q.items.length, q.overflow.length] ++ listPieces 8 8 (q.items.map (fun x => x.toNat))))

/-- The offsets of the parts of fixed size. -/
def flagsOff : Nat := 0
def groupsOff : Nat := 1024
def barriersOff : Nat := 1536
def reservesOff : Nat := 2560 + 8192

def clusterHead (m : ClusterImage) (mem : Nat → Nat) : List ImagePart :=
  [(1024, mapPart 4 m.flags), (512, mapPart 2 m.groups), (1024, m.barriers.flatMap barrierPieces),
    (8192 + 64, queuePieces m.queue m.threads mem)]

/-- The array as a saved thread's image holds it. -/
def savedArray (t : SavedThread) : ArrayState := ⟨t.cells, t.headers, t.grads, t.tiles, t.affine, t.knots⟩

/-- The core images of checkpointed threads, whose records stand in the queue from place `i` on: each like a core's with the thread in
slot 0. -/
def queueImages : Nat → List QRec → List ImagePart
  | _, [] => []
  | i, q :: r =>
    (match q.saved with
     | some t => coreParts (i + 1) [(0, t)] (savedArray t)
     | none => []) ++ queueImages (i + 1) r

/-- Bytes that the images of lower cores take, which are not the model's: a length that is free. -/
def lowerCores (core : Nat) : Nat := if core % 8 = 0 then 0 else Config.coreStart (core % 8) % 2 ^ 26

/-- Bytes of the pipeline queues. -/
def pipesSize (decls : KMap PipeDecl) : Nat := partsSize (decls.flatMap (pipeParts []))

/-- Where the unstarted scatter commands begin in the image, where the cluster scratchpad, and where this core's image. -/
def scatterOff (decls : KMap PipeDecl) : Nat := reservesOff + 64 + pipesSize decls
def spkOff (decls : KMap PipeDecl) : Nat := scatterOff decls + 128 * 128
def coreOff (decls : KMap PipeDecl) (core : Nat) : Nat := spkOff decls + spkSize + lowerCores core

/-- The parts of a cluster image; behind the cores the images of checkpointed threads. -/
def clusterParts (decls : KMap PipeDecl) (m : ClusterImage) (core : Nat) (mem : Nat → Nat) : List ImagePart :=
  clusterHead m mem ++ decls.flatMap (pipeParts m.pipes) ++ [cmdsPart 128 (unstarted true m.threads)] ++
  [(spkSize, m.spk.map (fun p => (p.1 % spkSize, 1, p.2.toNat)))] ++
  [(lowerCores core, [])] ++ coreParts 0 m.threads m.array ++ queueImages 0 m.queue

/-- Where this cluster's image begins in a context image: at 0x2000, or behind those of the lower clusters of the set (Table 17.7). -/
def clusterOff (c : Context) (num : Nat) : Nat :=
  0x2000 + (if (List.range num).any (fun i => c.clusters.getLsbD i) then Config.imageStart c.clusters num % 2 ^ 19 * 4096 else 0)

/-- What a core image takes at most, in bytes: windows of 4 MiB together. -/
def coreBound : Nat := 2 * slotSizes.sum + 64 * 128 + 0x400000 + 327680 + 262144 + 131072 + 512 + 24

/-- What a cluster image takes at most, in bytes, with so many checkpointed threads. -/
def clusterBound (c : Context) (core saved : Nat) : Nat := coreOff c.pipes core + (1 + saved) * coreBound

/-- The bytes of memory in a region of an area, by offset in it. -/
def regionBytes (s : State) (spans : List (Nat × Nat)) (off len : Nat) : List (Nat × Byte) :=
  let rec go : List (Nat × Nat) → Nat → List (Nat × Byte)
    | [], _ => []
    | (pa, n) :: r, o => (s.pkg.mem.filter (fun p => decide (pa ≤ p.1) && decide (p.1 < pa + n))).map (fun p => (p.1 - pa + o, p.2)) ++ go r (o + n)
  go (spansTake (spansFrom spans off) len) 0

/-- The bytes of a cluster image but for the parts a restore reads for themselves: flags, groups, barriers and scratchpad. -/
def imageBody (s : State) (at_ : List (Nat × Nat)) (len spkAt : Nat) : Memory :=
  (regionBytes s at_ 0 len).filter (fun p => decide (2560 ≤ p.1) && !(decide (spkAt ≤ p.1) && decide (p.1 < spkAt + spkSize)))

/-- Write a cluster image into an area, where the context's flag operations find its flags (R210). -/
def writeClusterImage (s : State) (spans : List (Nat × Nat)) (n : Nat) (m : ClusterImage) : State :=
  let c := getCtx s n
  let at_ := spansFrom spans (clusterOff c s.cluster.num)
  let parts := clusterParts c.pipes m s.core.index (memberBit s)
  let len := partsSize parts
  let s1 := putRegion s at_ 0 len (layParts parts 0)
  let x : StoredCluster := ⟨len, spkOff c.pipes, imageBody s1 at_ len (spkOff c.pipes), m⟩
  setCtx { s1 with pkg := { s1.pkg with images := x :: s1.pkg.images } } n { c with savedIn := if at_ = [] then none else some at_ }

end Sys2Proof.Machine
end

