-- ==== Sys2Proof/Machine/Operands.lean ====
section
/-! DEFINITION. Operand forms: lanes and masks (R119), queue operand codes (R39), popping and pushing queues (R86 to R88, R92,
R177), the address of a format M word (R36) and the width of its access (R10). -/

namespace Sys2Proof.Machine

/-! ### Lanes (R119) -/

/-- Lane `i` of `w` bits of a vector. -/
def lane (w i : Nat) (x : Row) : Nat := bits x.toNat (w * i) w

/-- A vector of lanes, lane 0 lowest. -/
def joinLanes (w : Nat) : List Nat → Nat
  | [] => 0
  | x :: r => x % 2 ^ w + 2 ^ w * joinLanes w r

def rowOf (w : Nat) (xs : List Nat) : Row := BitVec.ofNat 1024 (joinLanes w xs)

/-- Lane `i` is live under a mask: bit i of it in 32 lanes, bit i ÷ 2 in 64. -/
def liveLane (w : Nat) (m : BitVec 32) (i : Nat) : Bool := m.getLsbD (if w = 32 then i else i / 2)

/-- A result with the flags of its lanes. -/
structure VRes where
  row : Row
  flags : BitVec 320
  deriving DecidableEq, Repr

/-- Lane by lane: live lanes take the operation's result and flags, the others keep the lane of `old`. -/
def perLane (w : Nat) (m : BitVec 32) (old : Row) (f : Nat → Nat × Flags) : VRes :=
  let rs := (List.range (1024 / w)).map (fun i => if liveLane w m i then f i else (lane w i old, 0))
  ⟨rowOf w (rs.map (fun r => r.1)), laneFlags w 0 (rs.map (fun r => r.2))⟩

/-- A compare: bit i of a mask from 32-bit lane i, or from both 16-bit lanes 2i and 2i + 1, which both raise their flags
(R132); bits whose lanes are not live keep `old`. -/
def perMask (w : Nat) (m old : BitVec 32) (f : Nat → Bool × Flags) : VRes :=
  let rs := (List.range (1024 / w)).map (fun i => if liveLane w m i then f i else (false, 0))
  let truth (i : Nat) : Bool := (rs.getD i (false, 0)).1
  let hit (i : Nat) : Bool :=
    if m.getLsbD i then (if w = 32 then truth i else truth (2 * i) && truth (2 * i + 1)) else old.getLsbD i
  ⟨BitVec.ofNat 1024 (joinLanes 1 ((List.range 32).map (fun i => if hit i then 1 else 0))), laneFlags w 0 (rs.map (fun r => r.2))⟩

/-! ### Queues (Table 6.3, R39) -/

/-- The queue a source code 28 to 30 names in a voice: 0 to 3 lq, 4 and 5 sq, 6 xq, 7 yq. -/
def srcQueue (v : VoiceId) (code : BitVec 5) : Option Nat :=
  match v, code.toNat with
  | .X0, 28 => some 0
  | .X0, 29 => some 1
  | .X0, 30 => some 7
  | .X1, 28 => some 2
  | .X1, 29 => some 3
  | .X1, 30 => some 6
  | _, _ => none

/-- The queue a destination code 30 or 31 pushes. -/
def dstQueue (v : VoiceId) (code : BitVec 5) : Option Nat :=
  match v, code.toNat with
  | .X0, 30 => some 6
  | .X0, 31 => some 4
  | .X1, 30 => some 7
  | .X1, 31 => some 5
  | _, _ => none

def queueDepth (q : Nat) : Nat := if q < 6 then 16 else 8

def queueProducer (q : Nat) : VoiceId :=
  match q with
  | 4 => .X0
  | 5 => .X1
  | 6 => .X0
  | 7 => .X1
  | _ => .A

def queueConsumer (q : Nat) : VoiceId :=
  match q with
  | 0 => .X0
  | 1 => .X0
  | 2 => .X1
  | 3 => .X1
  | 6 => .X1
  | 7 => .X0
  | _ => .A

/-- The stream bound to a queue (R89). -/
def boundStream (c : Ctl) (q : Nat) : Option (Nat × Stream) :=
  findFirst (fun x => x.2.bound && decide (x.2.queue = q)) c.streams

/-- Popped entries of a queue that are retained until their pops seal (R177). -/
def retained (s : State) (k q : Nat) : Nat :=
  (s.core.journal.filter (fun e => decide (e.slot = k) && decide (e.ch = .qPop q) && unsealed s.core e.clause)).length

/-- What a pop meets. -/
inductive PopRes where
  | ready (e : QEntry) (val : QVal)
  | wait
  | trap (cause : Nat)
  deriving DecidableEq, Repr

/-- A pop of queue `q` in this cycle: the head once it is filled; an empty queue whose stream has finished raises STREAMEND,
one without producer and running stream QDEAD (R87, R88, R92). Where both hold, it is STREAMEND (DESIGN CHOICE, log entry 93). -/
def tryPop (s : State) (k q : Nat) : PopRes :=
  let c := getCtl s k
  match getQueue c q with
  | e :: _ =>
    match mfind (getSlot s k).qvals e.id with
    | some v => if retained s k q < queueDepth q then .ready e v else .wait
    | none => .wait
  | [] =>
    match boundStream c q with
    | some (_, st) => if st.drain then .wait else if st.finished then .trap 0x0E else .wait
    | none => if (getArch s k (queueProducer q)).exited then .trap 0x0D else .wait

/-- What a push meets. -/
inductive PushRes where
  | room
  | full
  | drop
  | trap (cause : Nat)
  deriving DecidableEq, Repr

/-- A push to queue `q`: after its drain stream has finished it raises STREAMEND; without a consumer it is discarded (R88,
R92). Where both hold, it is STREAMEND (DESIGN CHOICE, log entry 111). -/
def tryPush (s : State) (k q : Nat) : PushRes :=
  let c := getCtl s k
  let spent : Bool := match boundStream c q with | some (_, st) => st.drain && st.finished | none => false
  if spent then .trap 0x0E
  else if (getArch s k (queueConsumer q)).exited then .drop
  else if queueDepth q ≤ (getQueue c q).length then .full
  else .room

/-- Pop the head of a queue: the popping clause depends on the pushing one (Table 11.1), and the push precedes it (R235). -/
def popQueue (h : Here) (s : State) (q : Nat) : State :=
  match getQueue (getCtl s h.k) q with
  | [] => s
  | e :: _ => changeAt (linkAt s h e.clause e.ord) h (.qPop q)

/-- Reserve the tail of a queue under the next number for clause `cl`. -/
def reserveEntry (s : State) (k cl q : Nat) : State := change (bumpId s) k cl (.qPush q ⟨freshId s, cl, clauseClock s k cl⟩)

/-- Push a value: the tail is reserved now and filled at the latency (R87). -/
def pushQueue (h : Here) (q : Nat) (val : Row) (lat : Nat) (s : State) : State :=
  let id := freshId s
  let s1 := reserveEntry s h.k (clauseAt s h) q
  setSlot s1 h.k { getSlot s1 h.k with fills := (getSlot s1 h.k).fills ++ [⟨id, q, val, s.now + lat⟩] }

/-! ### Popping the queues a word names -/

/-- The queues a word's source codes name, each once, in operand order (R88). -/
def queuesOf (v : VoiceId) (codes : List (BitVec 5)) : List Nat := dedup (codes.filterMap (srcQueue v)).reverse |>.reverse

/-- The pops of a word: all ready with their heads, or the first obstacle. -/
inductive PopsRes where
  | ready (heads : List (Nat × QVal))
  | wait
  | trap (cause : Nat)
  deriving DecidableEq, Repr

def tryPops (s : State) (k : Nat) : List Nat → PopsRes
  | [] => .ready []
  | q :: r =>
    match tryPop s k q with
    | .trap c => .trap c
    | .wait => .wait
    | .ready _ v =>
      match tryPops s k r with
      | .ready hs => .ready ((q, v) :: hs)
      | o => o

/-- The poisoned entry among the heads (R222). -/
def poisonedHead : List (Nat × QVal) → Option Nat
  | [] => none
  | (_, v) :: r => match v.poison with | some a => some a | none => poisonedHead r

/-- The value of a vector source operand: a register, the head of a queue, or zero (R119). -/
def vecOperand (a : VoiceArch) (v : VoiceId) (heads : List (Nat × QVal)) (code : BitVec 5) : Row :=
  if code.toNat < 28 then visV a code.toNat
  else
    match srcQueue v code with
    | some q => ((findFirst (fun p => decide (p.1 = q)) heads).map (fun p => p.2.val)).getD 0
    | none => 0

/-- Pop what a word names, then go on with the heads: it stalls while a queue cannot supply, traps as R88 and R92 say, and a
poisoned entry is a machine check (R88, R222). -/
def withPops (h : Here) (qs : List Nat) (s : State) (go : List (Nat × QVal) → Res) : Res :=
  match tryPops s h.k qs with
  | .wait => .stall false s
  | .trap c => .trap c 0 s
  | .ready hs =>
    match poisonedHead hs with
    | some a => .halt (machineCheck s h.k a (storageCode a))
    | none => go hs

/-! ### Memory operands (R10, R36) -/

/-- The width of a size field in bytes (R10). -/
def accWidth (z : BitVec 2) : Nat := 2 ^ z.toNat

/-- vis(base) + imm9 × unit. -/
def offsetAddr (a : VoiceArch) (base : BitVec 5) (imm : BitVec 9) (unit : Nat) : Word :=
  visS a base + imm.signExtend 64 * w64 unit

/-- The address of a format M word (R36). -/
def memAddr (a : VoiceArch) (base : BitVec 5) (post : BitVec 1) (imm : BitVec 9) (unit : Nat) : Word :=
  if post = 1 then visS a base else offsetAddr a base imm unit

/-- The write of the base by post-increment, latency 1 (R36). -/
def postWrite (a : VoiceArch) (base : BitVec 5) (post : BitVec 1) (imm : BitVec 9) (unit : Nat) : List Wr :=
  if post = 1 then [⟨.s base.toNat, row64 (offsetAddr a base imm unit), 1⟩] else []

/-! ### Entries and elements (Table 6.6, R225) -/

/-- Widen one element into an entry's lane (Table 6.6). -/
def fillElem (code x : Nat) : Nat :=
  match code with
  | 1 => (fConvert e4m3 fp32 0 x).1
  | 2 => (fConvert e5m2 fp32 0 x).1
  | 3 => (fConvert bf16 fp32 0 x).1
  | 4 => (fConvert fp16 fp32 0 x).1
  | 5 => ((BitVec.ofNat 8 x).signExtend 32).toNat
  | 7 => ((BitVec.ofNat 16 x).signExtend 32).toNat
  | _ => x

/-- Saturate a signed 32-bit lane. -/
def satElem (lo hi : Int) (n x : Nat) : Nat := (BitVec.ofInt n (max lo (min hi (sextInt 32 x)))).toNat

/-- Encode one lane of an entry as an element (Table 6.6). -/
def drainElem (code x : Nat) : Nat :=
  match code with
  | 1 => (fConvert fp32 e4m3 0 x).1
  | 2 => (fConvert fp32 e5m2 0 x).1
  | 3 => (fConvert fp32 bf16 0 x).1
  | 4 => (fConvert fp32 fp16 0 x).1
  | 5 => satElem (-128) 127 8 x
  | 6 => satElem 0 255 8 x
  | 7 => satElem (-32768) 32767 16 x
  | _ => x

/-- The bits an element takes in an entry. -/
def slotBits (code esz : Nat) : Nat := if code = 0 then 8 * esz else 32

/-- An entry from elements, padded with zero. -/
def packEntry (code esz : Nat) (es : List Nat) : Row := rowOf (slotBits code esz) (es.map (fillElem code))

/-- The elements of an entry. -/
def unpackEntry (code esz n : Nat) (r : Row) : List Nat :=
  (List.range n).map (fun i => drainElem code (bits r.toNat (slotBits code esz * i) (slotBits code esz)))

/-- Bytes a queue word moves at its address, by the page's format (R225). -/
def footprint (fmt geo : Nat) : Nat :=
  match fmt with
  | 0 => 128
  | 3 => 64
  | 4 => 64
  | 7 => 64
  | 8 => if geo = 0 then 20 else 18
  | _ => 32

/-- Bytes of one element of a page's format (Table 6.6). -/
def fmtSize (fmt : Nat) : Nat := footprint fmt 0 / 32

/-- Value `i` of the blocks at the start of a byte list, blocks of `g` elements (R107, R108). -/
def blockElem (bs : List Byte) (g i : Nat) : Nat :=
  let b := i / g * (2 + g / 2)
  let at_ (j : Nat) : Nat := (bs.getD j 0).toNat
  blockDecode (at_ b) (at_ (b + 1)) (bits (at_ (b + 2 + i % g / 2)) (4 * (i % 2)) 4)

/-- The entry an LDGQ fills from the bytes of its footprint (R225). -/
def decodeEntry (fmt geo : Nat) (bs : List Byte) : Row :=
  if fmt = 0 then BitVec.ofNat 1024 (leNat bs)
  else if fmt = 8 then rowOf 32 ((List.range 32).map (blockElem bs (if geo = 0 then 16 else 32)))
  else
    let e := fmtSize fmt
    packEntry fmt e ((List.range 32).map (fun i => leNat ((bs.drop (e * i)).take e)))

/-- The bytes a STGQ writes from an entry. -/
def encodeEntry (fmt : Nat) (r : Row) : List Byte :=
  if fmt = 0 then leBytes 128 r.toNat
  else (unpackEntry fmt (fmtSize fmt) 32 r).flatMap (leBytes (fmtSize fmt))

end Sys2Proof.Machine
end

