-- ==== Sys2Proof/Machine/Gang.lean ====
section
/-! DEFINITION. The gang switch of a job (R284 to R286), and how a packet that arrives meets it. -/

namespace Sys2Proof.Machine

/-- The result of a request that a word waits for. -/
def setResult (s : State) (id : Nat) (x : Word) : State :=
  { s with pkg := { s.pkg with
      requests := s.pkg.requests.filter (fun r => decide (r.id ≠ id)) ++ [⟨id, some x⟩] } }

/-! ### Waves (R284, R285) -/

/-- Packets in the order of a sweep: by input port, by virtual channel, then as they arrived. -/
def sweepOrder (ps : List Packet) : List Packet :=
  (List.range 25).flatMap (fun q => (List.range 8).flatMap (fun v => ps.filter (fun p => decide (p.port = q) && decide (p.vc = v))))

/-- A marker or a report of a job. `first` tells the neighbour that the sender took its first marker from it. -/
def wavePacket (s : State) (typ : Nat) (j : Job) (first : Bool) (n : Nat) : Packet :=
  { newPacket s typ j.id 0 0 with group := if first then 1 else 0, data := w64 n }

/-- Markers on virtual channels of every link that is up. -/
def sendMarkers (s : State) (typ : Nat) (vcs : List Nat) (j : Job) : State :=
  (upLinks s.pkg).foldl (fun t l =>
    vcs.foldl (fun t v => sendOn t l v (wavePacket s typ j (!j.initiator && decide (j.parent = l)) 0)) t) s

/-- The channels a wave marks: every one for a cut, one of class 3 for a resumption. -/
def waveVcs (j : Job) : List Nat := if j.incoming then [6] else List.range 8

/-- Markers have come on every channel of every link that is up, and every router that took its first marker from here has
reported. -/
def waveDone (s : State) (j : Job) : Bool :=
  j.switching && (upLinks s.pkg).all (fun l => (waveVcs j).all (fun v => j.markers.contains (8 * l + v))) && decide (j.children = [])

/-- The GSW's result (R285). -/
def gswResult (j : Job) : Word := w64 ((if j.lostWord &&& 3 = 0 then 0 else 2) + j.count % 2 ^ 32 * 2 ^ 32)

/-- Two fault words together: the flags of either, the dropped packets of both, saturating (Table 19.2). -/
def mergeFault (a b : Word) : Word :=
  w64 (bits (a ||| b).toNat 0 32 + min 0xFFFFFFFF (bits a.toNat 32 32 + bits b.toNat 32 32) * 2 ^ 32)

/-- The record of a job that lost packets or contributions (R285). -/
def kind7 (j : Job) : List Byte := dwords [7 + j.id * 2 ^ 32, j.lostWord.toNat]

/-- A sweep report to a neighbour, the fault word in its payload flit; `down` tells the routers this one went on to what was lost. -/
def reportPacket (s : State) (j : Job) (down : Bool) : Packet :=
  { newPacket s 11 j.id 0 0 with
    group := if down then 2 else 0, data := w64 j.count, flits := 1, payload := [BitVec.ofNat 512 j.lostWord.toNat] }

/-- An instance that a switch-in has found incomplete, its word known: complete, if all have contributed, or with status FABRIC where
there was a drop or a lost contribution before the resumption (R285). -/
def closeInstance (jk : Nat) (lost : Bool) (s : State) (i : Nat × Bool × Nat) : State :=
  if lost then failInstance s jk i.1 i.2.1 i.2.2
  else
    match (mfind s.pkg.jobs jk).bind (fun j => findFirst (fun x => sameInstance x i.1 i.2.1 i.2.2) j.instances) with
    | some x => tryComplete s jk x
    | none => s

/-- What was lost in the job before the resumption is known (R285): the instances that were not complete when it began are closed, the
member context receives its record where there was a loss, and the routers this one went on to are told. -/
def tellLost (s : State) (jk : Nat) (j : Job) : State :=
  let lost := !decide (j.lostWord &&& 3 = 0)
  let s1 := j.atStart.foldl (closeInstance jk lost) (setJob s jk { j with atStart := [] })
  let s2 := match lost, j.ctx with | true, some c => postFault s1 c (kind7 j) | _, _ => s1
  j.kids.foldl (fun t l => sendOn t l 6 (reportPacket t j true)) s2

/-- A wave that is complete here: the report goes back, or the GSW that began it has its result. -/
def advanceWave (s : State) (jk : Nat) : State :=
  match mfind s.pkg.jobs jk with
  | none => s
  | some j =>
    if waveDone s j then
      let j1 : Job := { j with
        switching := false, switchedOut := !j.incoming, request := none, count := j.count + (if j.incoming then 0 else j.saved.length) }
      let s1 := if j.incoming then setJob s jk j1 else putSaved s jk j1
      if j.initiator then
        let s2 := if j.incoming then tellLost s1 jk j1 else s1
        match j.request with
        | some id => setResult s2 id (gswResult j1)
        | none => s2
      else sendOn s1 j.parent 6 (reportPacket s1 j1 false)
    else s

/-- A packet that a cut sweeps: of the job, and no marker or report. -/
def swept (j : Job) (p : Packet) : Bool := decide (p.job = j.id) && (decide (p.typ < 9) || decide (p.typ = 12))

/-- The cut of a router: the hub stops, markers go out, the buffers are swept, with the packets in them that wait for a link (R284). -/
def cutJob (s : State) (jk : Nat) (j : Job) (parent request : Option Nat) : State :=
  let waiting := s.pkg.links.flatMap (fun l => (l.2.tx.filter (swept j)).map (fun p => { p with port := p.via.1, vc := p.via.2 }))
  let j1 : Job := { j with
    switching := true, incoming := false, initiator := parent.isNone, parent := parent.getD 24, children := [], kids := [], markers := []
    saved := j.saved ++ sweepOrder (waiting ++ s.pkg.router.filter (swept j)), appended := (0, 0), request := request, count := 0, lostWord := 0 }
  let s1 : State := { s with pkg := { s.pkg with
    router := s.pkg.router.filter (fun p => !swept j p)
    links := s.pkg.links.map (fun l => (l.1, { l.2 with tx := l.2.tx.filter (fun p => !swept j p) })) } }
  advanceWave (sendMarkers (putSaved s1 jk j1) 9 (List.range 8) j1) jk

/-- Put packets on their way one after another. -/
def deliverAll (s : State) : List Packet → State
  | [] => s
  | p :: r => deliverAll (deliver s p) r

/-- The remote accesses of a job that waited with it are timed anew. -/
def restartTimers (s : State) (jk : Nat) : State :=
  { s with pkg := { s.pkg with remotes := s.pkg.remotes.map (fun r => if r.2.1 = jk then (r.1, r.2.1, s.now) else r) } }

/-- The resumption of a router (R285): the saved packets, the late list and those of port 24 enter before any new one. -/
def resumeJob (s : State) (jk : Nat) (j : Job) (parent request : Option Nat) : State :=
  let hub (p : Packet) : Bool := decide (p.port = 24)
  let j1 : Job := { j with
    switching := true, incoming := true, switchedOut := false, initiator := parent.isNone, parent := parent.getD 24
    children := [], kids := [], markers := [], saved := [], late := [], request := request, faultWord := 0
    count := j.saved.length + j.late.length, lostWord := j.faultWord
    atStart := (j.instances.filter (fun i => !i.complete)).map (fun i => (i.group, i.isBar, i.num)) }
  let s0 := restartTimers (sendMarkers (putSaved s jk j1) 10 [6] j1) jk
  let s1 := if j.faultWord &&& 3 = 0 then s0 else j1.atStart.foldl (closeInstance jk true) s0
  advanceWave (deliverAll s1 (j.saved.filter (fun p => !hub p) ++ j.late ++ j.saved.filter hub)) jk

/-- A GSW that has been released (R285). A number from 2^16 on stands for a switch word with a reserved bit set. -/
def gswRequest (s : State) (id job : Nat) (inward : Bool) : State :=
  match findJob s.pkg job with
  | none => setResult s id (if job < 2 ^ 16 then 5 else 3)
  | some (jk, j) =>
    if j.switching then setResult s id 6
    else if inward ≠ j.switchedOut then setResult s id 7
    else if inward then resumeJob s jk j none (some id)
    else cutJob s jk j none (some id)

/-- A marker of a wave has come on a channel; `first` names its sender a child. -/
def noteMarker (j : Job) (p : Packet) : Job :=
  let child := decide (p.group = 1) && !j.kids.contains p.port
  { j with
    markers := j.markers ++ [8 * p.port + p.vc]
    children := if child then j.children ++ [p.port] else j.children
    kids := if child then j.kids ++ [p.port] else j.kids }

/-- A sweep report has come from a router this one went on to, or what was lost from the router before it. -/
def takeReport (s : State) (jk : Nat) (j : Job) (p : Packet) : State :=
  let word := (p.payload.headD 0).setWidth 64
  if p.group = 2 then tellLost s jk { j with lostWord := word }
  else
    advanceWave (setJob s jk { j with
      children := j.children.filter (fun c => decide (c ≠ p.port)), count := j.count + bits p.data.toNat 0 32
      lostWord := mergeFault j.lostWord word }) jk

/-! ### Packets that arrive -/

/-- A late packet (R284): kept while the late list has room, else dropped and counted. -/
def takeLate (j : Job) (p : Packet) : Job :=
  if j.late.length < j.lateCap then { j with late := j.late ++ [p] }
  else { j with faultWord := mergeFault j.faultWord (w64 (1 + 2 ^ 32)) }

/-- A packet of a job arrives at this router by a link: into its buffers or on, into the save area of a cut job, or late. -/
def receivePacket (s : State) (p : Packet) : State :=
  if 9 ≤ p.typ ∧ p.typ ≠ 12 then { s with pkg := { s.pkg with router := s.pkg.router ++ [p] } }
  else
    match findJob s.pkg p.job with
    | none => deliver s p
    | some (jk, j) =>
      if jobCut j then putSaved s jk (if j.markers.contains (8 * p.port + p.vc) then takeLate j p else appendSaved s.now j p)
      else deliver s p

/-- A reserved type, or a field wider than the header holds (R271). -/
def packetBad (p : Packet) : Bool :=
  decide (p.typ = 0) || decide (12 < p.typ) || decide (8 < p.flits) || decide (p.payload.length ≠ p.flits) || decide (2 ^ 16 ≤ p.job) ||
  decide (2 ^ 19 ≤ p.dst) || decide (2 ^ 19 ≤ p.src) || decide (2 ^ 43 ≤ p.pa) || decide (8 ≤ p.width) || decide (64 ≤ p.group) ||
  decide (2 ^ 32 ≤ p.inst) || decide (2 ^ 16 ≤ p.reqid)

/-- A packet that a link has brought whole: dropped and counted where its header is bad. -/
def arrivePacket (s : State) (bad : Bool) (p : Packet) : State :=
  if bad then { s with pkg := { s.pkg with fabricErrors := s.pkg.fabricErrors + 1 } } else receivePacket s p

end Sys2Proof.Machine
end

