-- ==== Sys2Proof/Machine/Release.lean ====
section
/-! DEFINITION. What happens to an effect when its clause seals (R174, R189), and when it is performed for observers outside
the core (R216, R224, R226, R229, R230, R236, R315). -/

namespace Sys2Proof.Machine

/-! ### Performing what has been released -/

/-- Storage scope of a physical address, as the bit of a fence's mask: SPC 0, SPK 1, DEV 2, HST 3, REM 4 (R42). -/
def scopeOf (pa : Nat) : Nat := if pa < hostBase then 2 else if pa < spkBase then 3 else 1

def itemStore (o : OutItem) : Option (Nat × Nat) :=
  match o.eff with
  | .store true a d _ _ _ _ _ => some (a, d.length)
  | _ => none

/-- A store to a UN page that is no release. -/
def isUn (e : Effect) : Bool :=
  match e with
  | .store _ _ _ kind rel _ _ _ => decide (kind = 2) && !rel
  | _ => false

def isSo (e : Effect) : Bool :=
  match e with
  | .store _ _ _ kind _ _ _ _ => decide (kind = 0)
  | _ => false

/-- Released items issued before number `id`. -/
def earlierItems (s : State) (id : Nat) : List OutItem := s.core.out.filter (fun o => decide (o.id < id))

/-- What a slot holds; what a thread has released outlives its slot (slot numbers from 2 on). -/
def slotFences (s : State) (k : Nat) : List Fence :=
  if k < 2 then (getSlot s k).fences else (s.core.oldFences.filter (fun f => decide (f.1 = k))).map (fun f => f.2)

def slotXfers (s : State) (k : Nat) : List Xfer := if k < 2 then (getSlot s k).xfers else []

/-- The transfer has reached its slot. -/
def hasArrived (s : State) (k id : Nat) : Bool := decide (k < 2) && (mfind (getSlot s k).arrived id).isSome

/-- Held effects that precede an item in thread order: it waits for their clauses to seal (R235, R236). -/
def heldBefore (s : State) (o : OutItem) : List Held := s.core.held.filter (precedes s o.slot o.ord)

/-- Some byte of a held store to device memory lies in an interval. -/
def heldMeets (a n : Nat) (h : Held) : Bool :=
  match h.eff with
  | .store true b d _ _ _ _ _ => decide (a < b + d.length) && decide (b < a + n)
  | _ => false

/-- What an STL covers of what has been released: stores but those to UN pages, map swaps (Table 14.2). -/
def covered : Effect → Bool
  | .store true _ _ kind rel _ _ _ => decide (kind ≠ 2) || rel
  | .pubg _ => true
  | _ => false

/-- ... and of what is held: publishes, tail advances and remote writes besides. -/
def coveredHeld (e : Effect) : Bool :=
  covered e ||
    (match e with
     | .publish _ => true
     | .ringTail _ _ => true
     | .nwr _ _ _ _ => true
     | _ => false)

/-- The fence still waits (R226). -/
def fenceActive (s : State) (k : Nat) (f : Fence) : Bool :=
  f.clauses.any (unsealed s.core) ||
  s.core.out.any (fun o => decide (o.slot = k) && decide (o.clause ≤ f.clause) &&
    (match o.eff with
     | .store true a _ _ _ cmd _ _ => (decide (cmd = 0) == f.forA) && f.mask.getLsbD (scopeOf a)
     | _ => false)) ||
  (slotXfers s k).any (fun x => f.xfers.contains x.id && decide (x.val = none)) ||
  s.core.cmds.any (fun m => f.cmds.contains m.id && !m.retired)

/-- A fence of the slot holds back a store released from a later clause. -/
def fencedStore (s : State) (o : OutItem) : Bool :=
  match o.eff with
  | .store true a _ _ _ cmd _ _ =>
    (slotFences s o.slot).any (fun f => (f.forA == decide (cmd = 0)) && decide (f.clause < o.clause) &&
      f.mask.getLsbD (scopeOf a) && fenceActive s o.slot f)
  | _ => false

/-- An earlier held write of a released store's bytes whose order a load has fixed (R234). -/
def placedBefore (s : State) (o : OutItem) (a n : Nat) : Bool :=
  s.core.held.any (fun h => decide (h.slot = o.slot) && decide (h.id < o.id) && s.core.placed.contains h.id && heldMeets a n h)

/-- Two reads have a byte in common. -/
def readsMeet (x y : Xfer) : Bool :=
  x.parts.any (fun p => y.parts.any (fun q => decide (p.1 < q.1 + q.2) && decide (q.1 < p.1 + p.2)))

/-- An SO load is not sent until the earlier SO accesses of its voice have been performed; a load of any kind is performed after the
earlier loads of its bytes, so that the later one returns no earlier value (R216, R234). -/
def loadHeld (s : State) (k : Nat) (x : Xfer) : Bool :=
  (decide (x.kind = 0) &&
    (s.core.out.any (fun o => decide (o.slot = k) && decide (o.id < x.id) && isSo o.eff) ||
     s.core.held.any (fun h => decide (h.slot = k) && decide (h.id < x.id) && isSo h.eff))) ||
  (getSlot s k).xfers.any (fun y => decide (y.id < x.id) && decide (y.val = none) && !y.remote &&
    ((decide (x.kind = 0) && decide (y.kind = 0)) || readsMeet x y))

/-- Order lets a released store be performed: after what precedes it on its bytes, stores and loads; after earlier SO accesses where it is
one; an STL after all it covers (R216, R224, R234, R236, R242). -/
def inOrder (s : State) (o : OutItem) : Bool :=
  match o.eff with
  | .store true a d kind rel _ _ _ =>
    let before := (earlierItems s o.id).filter (fun q => decide (q.slot = o.slot))
    let clash (q : OutItem) : Bool :=
      match itemStore q with
      | some (b, n) => decide (a < b + n) && decide (b < a + d.length)
      | none => false
    let loads := (slotXfers s o.slot).filter (fun x => decide (x.id < o.id) && !x.remote)
    let read (x : Xfer) : Bool := decide (x.val = none) && x.parts.any (fun p => decide (a < p.1 + p.2) && decide (p.1 < a + d.length))
    !fencedStore s o && !before.any clash && !(heldBefore s o).any (heldMeets a d.length) &&
      !placedBefore s o a d.length && !loads.any read &&
      !(decide (kind = 0) && (before.any (fun q => isSo q.eff) || loads.any (fun x => decide (x.kind = 0) && decide (x.val = none)))) &&
      (!rel ||
         (!before.any (fun q => covered q.eff) && !(heldBefore s o).any (fun h => coveredHeld h.eff) &&
           loads.all (fun x => decide (x.kind = 2) || hasArrived s o.slot x.id) &&
           s.core.nwrs.all (fun n => decide (n.slot ≠ o.slot) || n.finished || decide (o.id < n.id))))
  | _ => false

/-- Reads of a slot not completed yet. -/
def openReads (s : State) (k : Nat) : List Xfer := (slotXfers s k).filter (fun x => !x.remote && !hasArrived s k x.id)

/-- Requests to memory before number `id` that order lets go and that are not completed. -/
def requestsBefore (s : State) (id : Nat) : Nat :=
  ((earlierItems s id).filter (inOrder s)).length +
    ([0, 1].map (fun k => ((openReads s k).filter (fun x => decide (x.id < id) && !loadHeld s k x)).length)).sum

/-- A core has at most 2048 requests to memory outstanding, the oldest first (R6; DESIGN CHOICE, log entry 118). -/
def requestFree (s : State) (id : Nat) : Bool :=
  decide (s.core.out.length + (openReads s 0).length + (openReads s 1).length < 2048) || decide (requestsBefore s id < 2048)

/-- A released store may be performed: order lets it, and it is outstanding. -/
def mayPerform (s : State) (o : OutItem) : Bool := inOrder s o && requestFree s o.id

/-- A load waits for order, or for its place among the requests outstanding. -/
def loadWaits (s : State) (k : Nat) (x : Xfer) : Bool := loadHeld s k x || !requestFree s x.id

def dropItem (s : State) (id : Nat) : State :=
  { s with core := { s.core with out := s.core.out.filter (fun o => decide (o.id ≠ id)) } }

/-- Perform a released store. -/
def performItem (s : State) (o : OutItem) : State :=
  match o.eff with
  | .store true a d _ _ _ _ _ => dropItem (writeMem s a d) o.id
  | _ => s

/-- An effect that acts on the cluster when it is released (R189). -/
def isCluster : Effect → Bool
  | .join _ => true
  | .leave _ => true
  | .arrive _ _ => true
  | .finc _ _ => true
  | .fset _ _ => true
  | .evset _ _ => true
  | .evclr _ _ => true
  | .enq _ _ _ => true
  | .launch _ _ _ _ _ => true
  | _ => false

/-- A store to cluster scratchpad. -/
def isSpkStore : Effect → Bool
  | .store true a _ _ _ _ _ _ => decide (spkBase ≤ a)
  | _ => false

/-- The command of a held write had retired before number `n`. -/
def retiredBefore (s : State) (n : Nat) (e : Effect) : Bool :=
  decide (effectCmd e ≠ 0) && s.core.cmds.any (fun m => decide (m.id = effectCmd e) && m.retired && decide (m.endId < n))

/-- A release over cluster scratchpad waits for every earlier store of the thread to it, of whatever voice, and for the writes of its
commands that had retired (R195); it keeps its place behind the thread's earlier releases (R189). -/
def spkBlocked (s : State) (o : OutItem) : Bool :=
  s.core.out.any (fun q => decide (q.slot = o.slot) && decide (q.id < o.id) && (isSpkStore q.eff || isCluster q.eff)) ||
  s.core.held.any (fun h => decide (h.slot = o.slot) && isSpkStore h.eff &&
    (if effectCmd h.eff = 0 then decide (h.id < o.id) else precedes s o.slot o.ord h || retiredBefore s o.id h.eff))

/-- Releases of a slot's thread that have not acted yet. -/
def clusterOut (s : State) (k : Nat) : Bool := s.core.out.any (fun o => decide (o.slot = k) && isCluster o.eff)

/-! ### Invalidation (R230) -/

def tlbMatch (start len asid : Nat) (all : Bool) (e : TlbEntry) : Bool :=
  (all || decide (e.asid = asid)) && (decide (len = 0) || (decide (e.va < start + len) && decide (start < e.va + e.size)))

/-- An access of `n` bytes at an address of identifier `id` lies in the range, or in a page of an entry that is removed. -/
def vaMatch (start len asid : Nat) (all : Bool) (gone : List TlbEntry) (va n id : Nat) : Bool :=
  let meets (lo m : Nat) : Bool := decide (va < lo + m) && decide (lo < va + n)
  ((all || decide (id = asid)) && (decide (len = 0) || meets start len)) ||
    gone.any (fun e => decide (e.asid = id) && meets e.va e.size)

/-- Remove every matching entry from every TLB of the model, and note what has translated through one (R230, R232). -/
def invalidate (s : State) (slot start len asid : Nat) (all : Bool) (id : Nat) : State :=
  let keep (t : List TlbEntry) : List TlbEntry := t.filter (fun e => !tlbMatch start len asid all e)
  let gone := (s.core.dtlb ++ s.core.itlbA ++ s.core.itlbX0 ++ s.core.itlbX1 ++ s.core.itlbC ++ s.pkg.l2tlb).filter
    (tlbMatch start len asid all)
  let used := vaMatch start len asid all gone
  let hit (e : Effect) : Bool :=
    match e with
    | .store true _ d _ _ _ va i => used va d.length i
    | _ => false
  let asidOf (k : Nat) : Nat := (threadCtx s k).asid
  let xs (k : Nat) : List Nat := ((getSlot s k).xfers.filter (fun x =>
    !x.remote && used x.va x.len (asidOf k) && !hasArrived s k x.id)).map (fun x => x.id)
  let v : Inval :=
    { id := id, slot := slot, start := start, len := len, asid := asid, all := all, reachedAt := s.now,
      stores := (s.core.held.filter (fun h => hit h.eff)).map (fun h => h.id),
      outs := (s.core.out.filter (fun q => hit q.eff)).map (fun q => q.id),
      xfers := xs 0 ++ xs 1,
      cmds := (s.core.cmds.filter (fun m => !m.retired && m.pages.any (fun p => used p 0x10000 (asidOf m.slot)))).map
        (fun m => m.id),
      acked := false }
  { s with
    core := { s.core with
      dtlb := keep s.core.dtlb, itlbA := keep s.core.itlbA, itlbX0 := keep s.core.itlbX0, itlbX1 := keep s.core.itlbX1,
      itlbC := keep s.core.itlbC }
    pkg := { s.pkg with
      l2tlb := keep s.pkg.l2tlb, walkCache := keep s.pkg.walkCache, invals := s.pkg.invals ++ [v] } }

/-- Earlier stores of the thread to the scopes of a mask, not yet performed: released, or held and linked to the item. -/
def storesBefore (s : State) (o : OutItem) (mask : BitVec 5) : Bool :=
  (earlierItems s o.id).any (fun q => decide (q.slot = o.slot) &&
    (match itemStore q with | some (a, _) => mask.getLsbD (scopeOf a) | none => false)) ||
  (heldBefore s o).any (fun h =>
    match h.eff with
    | .store true a _ _ _ _ _ _ => mask.getLsbD (scopeOf a)
    | _ => false)

/-- Earlier stores of the thread to SO or RC pages of device and host memory, not yet performed (R281). -/
def orderedBefore (s : State) (o : OutItem) : Bool :=
  let ordered (e : Effect) : Bool :=
    match e with
    | .store true a _ kind rel _ _ _ => (decide (kind ≠ 2) || rel) && (0b01100#5).getLsbD (scopeOf a)
    | _ => false
  (earlierItems s o.id).any (fun q => decide (q.slot = o.slot) && ordered q.eff) || (heldBefore s o).any (fun h => ordered h.eff)

/-- NWRs of the slot released before the item and not completed. -/
def nwrBefore (s : State) (o : OutItem) : Bool :=
  s.core.nwrs.any (fun n => decide (n.slot = o.slot) && decide (n.id < o.id) && !n.finished)

/-! ### Release at the seal -/

/-- A publish-map entry swaps its halves (R229). -/
def togglePubmap (c : Context) (k : Nat) : Context :=
  match mfind c.pubmap k with
  | none => c
  | some e => { c with pubmap := mput c.pubmap k { e with front := !e.front } }

/-- Perform a store to core scratchpad; a line written wholly has fresh ECC. -/
def writeSpad (s : State) (a : Nat) (d : List Byte) : State :=
  let whole := (linesOf a d.length).filter (fun l => decide (a ≤ 64 * l) && decide (64 * l + 64 ≤ a + d.length))
  { s with core := { s.core with
      spad := writeBytes s.core.spad a d, poison := s.core.poison.filter (fun l => !whole.contains l) } }

/-- What is left of a held store to core scratchpad once bytes `a` to `a + n - 1` have a later value. -/
def trimOne (a n : Nat) (h : Held) : List Held :=
  match h.eff with
  | .store false b d kd rel cmd va asid =>
    if a < b + d.length ∧ b < a + n then
      (if b < a then [{ h with eff := .store false b (d.take (a - b)) kd rel cmd va asid }] else []) ++
        (if a + n < b + d.length then [{ h with eff := .store false (a + n) (d.drop (a + n - b)) kd rel cmd va asid }] else [])
    else [h]
  | _ => [h]

/-- A write to core scratchpad is performed: held stores with numbers below `id` no longer show in its bytes. -/
def trimHeld (s : State) (id a n : Nat) : State :=
  { s with core := { s.core with held := s.core.held.flatMap (fun h => if h.id < id then trimOne a n h else [h]) } }

/-- The tail advance of a ring that an RNGSET of an unsealed clause has configured anew: it precedes that RNGSET (R148). -/
def lateTail (s : State) (k r n : Nat) : State :=
  let later := s.core.journal.any (fun e => decide (e.slot = k) && (match e.ch with | .ringSet q _ => decide (q = r) | _ => false))
  if later then
    let j := ⟨k, 0, .ringTail r n⟩ :: s.core.journal
    { s with core := settleJournal { s.core with journal := j, ctl := j.foldl applyEntry s.core.sctl } }
  else s

/-- The effect waits outside the core to be performed. -/
def release (s : State) (h : Held) : State :=
  let t := (getSlot s h.slot).thread
  let o : OutItem := ⟨h.id, h.slot, h.clause, t.ctx, t.tag, memberBit s h.slot, h.ord, h.eff⟩
  { s with core := { s.core with out := s.core.out ++ [o] } }

/-- The flag array an operation reaches: this cluster's, or another cluster's of the package (R194). -/
def flagTarget (s : State) (target : Nat) : Nat := if bit target 13 then bits target 8 5 else s.cluster.num

/-- This cluster's flags of a context: live, or the saved array while the cluster is switched out for the context (R210). -/
def flagsLive (s : State) (c : Nat) : Bool := decide (s.cluster.ctx = some c) && !s.cluster.switchedOut

/-- Apply a flag operation of a context to a cluster of its set: the live array of this one, or the saved array where it is switched
out. A flag of another cluster is that cluster's state, outside the model. -/
def flagOp (s : State) (c target : Nat) (f : BitVec 32 → BitVec 32) : State :=
  let n := bits target 0 8
  if flagTarget s target ≠ s.cluster.num then s
  else if flagsLive s c then setCluster s (setFlag s.cluster n (f (flagOf s.cluster n)))
  else
    match ((getCtx s c).savedIn.getD []).head? with
    | none => s
    | some (pa, _) => writeMem s (pa + 4 * n) (leBytes 4 (f (BitVec.ofNat 32 (leNat (readMem s (pa + 4 * n) 4)))).toNat)

/-- The overflow area holds the items of the pipeline's queues, stage by stage; where it is not mapped nothing is written (DESIGN
CHOICE, log entry 36). -/
def writeOverflow (s : State) (ctx : Nat) (d : PipeDecl) (p : Nat) : State :=
  let bs := (List.range 8).flatMap (fun st => (getPipe s.cluster p st).overflow.flatMap (fun x => leBytes 8 x.toNat))
  if bs = [] then s else (writeVirt s (getCtx s ctx) d.overAddr bs).getD s

/-- An item enters its pipeline queue, or its overflow area (R202, R204). -/
def enqItem (s : State) (c p st : Nat) (x : Word) : State :=
  let depth := ((pipeDecl s c p).map (fun d => d.depths.getD st 1)).getD 1
  let s1 := setCluster s (setPipe s.cluster p st (pipePush depth (getPipe s.cluster p st) x))
  match pipeDecl s c p with
  | some d => if (getPipe s1.cluster p st).overflow = (getPipe s.cluster p st).overflow then s1 else writeOverflow s1 c d p
  | none => s1

/-- An effect on the cluster by the thread of member bit `m` of a context, with its tag (R189 to R204). -/
def clusterEffect (s : State) (c m : Nat) (tag : BitVec 16) : Effect → State
  | .join g => setCluster s (joinGroup s.cluster g m)
  | .leave g => setCluster s (leaveGroup s.now s.cluster g m)
  | .arrive g k => setCluster s (barrierArrive s.now s.cluster k g m)
  | .finc t x => flagOp s c t (fun f => f + x)
  | .fset t x => flagOp s c t (fun _ => x)
  | .evset w x => eventChange s c w x 0 tag
  | .evclr w x => eventChange s c w 0 x tag
  | .enq p st x => enqItem s c p st x
  | .launch r0 r1 r2 r3 _ => setCluster s (enqueueRec s.cluster ⟨c, tag, r0, r1, r2, r3, false, none, 0⟩)
  | _ => s

/-- A wait of BARW on the phase that is current when its arrival is released begins with the release (R192). -/
def beginBarw (s : State) (k clause bar : Nat) : State :=
  let b := getBarrier s.cluster bar
  match (getArch s k .C).wait with
  | some w =>
    if w.kind = .barw ∧ w.clause = clause ∧ w.items = [bar, b.phase.toNat] then
      setCluster s (setBarrier s.cluster bar { b with waits := b.waits ++ [⟨memberBit s k, b.phase, none⟩] })
    else s
  | none => s

/-- A task uses up an entry of its reserve (R199). -/
def useReserve (s : State) (k : Nat) : State :=
  let x := getSlot s k
  setSlot s k { x with thread := { x.thread with reserve := x.thread.reserve - 1 } }

/-- A thread that has left its slot has left its groups too; its other effects stand. -/
def isGroupEffect : Effect → Bool
  | .join _ => true
  | .leave _ => true
  | .arrive _ _ => true
  | _ => false

/-- A released effect acts on the cluster. -/
def performCluster (s : State) (o : OutItem) : State :=
  if o.slot = 2 ∧ isGroupEffect o.eff = true then s
  else
    let s1 := match o.eff with
      | .arrive _ k => if o.slot < 2 then beginBarw s o.slot o.clause k else s
      | .launch _ _ _ _ true => if o.slot < 2 then useReserve s o.slot else s
      | _ => s
    clusterEffect s1 o.ctx o.mem o.tag o.eff

/-- Effects on the cluster act at the release, or once the thread's earlier writes to cluster scratchpad are performed (R195). -/
def releaseCluster (s : State) (h : Held) : State :=
  let t := (getSlot s h.slot).thread
  let o : OutItem := ⟨h.id, h.slot, h.clause, t.ctx, t.tag, memberBit s h.slot, h.ord, h.eff⟩
  if spkBlocked s o then release s h else performCluster s o

/-- HOSTSIG's completion record (R264, R247). -/
def signalHost (s : State) (k : Nat) (x scyc : Word) : State :=
  let t := (getSlot s k).thread
  let c := getCtx s t.ctx
  let s1 := setCtx s t.ctx { c with signals := c.signals ++ [(c.cq.tail + c.heldCompletions.length) % 2 ^ 32] }
  postCompletion s1 t.ctx false
    (dwords [2 + t.tag.toNat * 2 ^ 32, x.toNat, s.core.index + k * 2 ^ 8, scyc.toNat])

/-- NWR's packet (R276). -/
def sendNwr (s : State) (k id fa : Nat) (data : Word) (width : Nat) : State :=
  let t := (getSlot s k).thread
  let s1 : State := { s with core := { s.core with nwrs := s.core.nwrs ++ [⟨id, k, fa, width, true, false, false, 0⟩] } }
  match ctxJob s t.ctx with
  | none => s1
  | some (jk, j) =>
    let p := { newPacket s1 1 j.id t.tag (bits fa 43 19) with pa := bits fa 0 43, width := width, reqid := id, data := data }
    let s2 := inject s1 jk p
    { s2 with pkg := { s2.pkg with remotes := s2.pkg.remotes ++ [(id, jk, s2.now)] } }

def togglePub (x : Slot) (k : Nat) : Slot :=
  { x with pubs := mput x.pubs k { pubOf x k with front := !(pubOf x k).front } }

/-- Release one held effect (Table 11.2). -/
def releaseOne (s : State) (h : Held) : State :=
  match h.eff with
  | .store false a d _ _ _ _ _ => trimHeld (writeSpad s a d) h.id a d.length
  | .store true _ _ _ _ _ _ _ => release s h
  | .publish k => setSlot s h.slot (togglePub (getSlot s h.slot) k)
  | .ringTail k n => if k < 16 then change s h.slot 0 (.ringTail k n) else lateTail s h.slot (k - 16) n
  | .pubg _ => release s h
  | .tlbinv _ _ _ _ _ => release s h
  | .nbar id g => release (takeNumber s (getSlot s h.slot).thread.ctx id g true).1 h
  | .ctxsave _ _ _ _ => release s h
  | .ctxrst _ _ _ => release s h
  | .gsw _ _ _ => release s h
  | .hostsig x scyc => signalHost s h.slot x scyc
  | .nwr id fa data w => sendNwr s h.slot id fa data w
  | .nrd _ _ _ => s
  | .nred id g mean val =>
    contribute s (getSlot s h.slot).thread.ctx (getSlot s h.slot).thread.tag id g false mean val
  | .deq _ _ _ => s
  | .evset _ _ => releaseCluster s h
  | .evclr _ _ => releaseCluster s h
  | .finc _ _ => releaseCluster s h
  | .fset _ _ => releaseCluster s h
  | .join _ => releaseCluster s h
  | .leave _ => releaseCluster s h
  | .arrive _ _ => releaseCluster s h
  | .enq _ _ _ => releaseCluster s h
  | .launch _ _ _ _ _ => releaseCluster s h

/-- Number of a request of another core of the package: none of this core's. -/
def extRequest (id : Nat) : Nat := 2 ^ 40 + id

/-- A task of another core has used up an entry of its reserve (R199). -/
def useAway (s : State) (m : Nat) : State :=
  setCluster s { s.cluster with away := s.cluster.away.map (fun t => if t.mem = m then { t with reserve := t.reserve - 1 } else t) }

/-- An effect that another core has released: by a thread of a context, with its member bit `m` of this cluster and its tag; or a
store it performs. -/
def extEffect (ctx m : Nat) (tag : BitVec 16) (e : Effect) (s : State) : State :=
  match e with
  | .deq p st _ =>
    let depth := ((pipeDecl s ctx p).map (fun d => d.depths.getD st 1)).getD 1
    setCluster s (setPipe s.cluster p st (pipePop depth (getPipe s.cluster p st)))
  | .launch r0 r1 r2 r3 true => clusterEffect (useAway s m) ctx m tag (.launch r0 r1 r2 r3 true)
  | .store true a d _ _ _ _ _ => if presentRange s.pkg a d.length then writeMem s a d else s
  | .pubg k => setCtx s ctx (togglePubmap (getCtx s ctx) k)
  | .tlbinv start len asid all id => invalidate s 2 start len asid all (extRequest id)
  | .nred id g mean val => contribute s ctx tag (extRequest id) g false mean val
  | .nbar id g => contribute s ctx tag (extRequest id) g true false 0
  | .gsw id job inward => gswRequest s (extRequest id) job inward
  | e => clusterEffect s ctx m tag e

/-! ### Items that act by themselves -/

/-- The next item that acts as soon as what it waits for is done: a cluster effect, an invalidation that reaches the TLBs, a
fabric arrival that is sent, a gang switch that begins. -/
def nextAuto (s : State) : Option OutItem :=
  findFirst (fun o =>
    match o.eff with
    | .tlbinv _ _ _ _ _ => !storesBefore s o 0b00100#5
    | .nbar _ _ => !orderedBefore s o && !nwrBefore s o
    | .gsw _ _ _ => true
    | e => isCluster e && !spkBlocked s o) s.core.out

def runAuto (s : State) (o : OutItem) : State :=
  match o.eff with
  | .tlbinv start len asid all id => dropItem (invalidate s o.slot start len asid all id) o.id
  | .nbar id g => dropItem (sendContribution s o.ctx o.tag id g true false 0 (numberTaken s o.ctx id g)) o.id
  | .gsw id job inward => gswRequest (dropItem s o.id) id job inward
  | _ => performCluster (dropItem s o.id) o

/-- Run the items that act by themselves. -/
def settleOut (s : State) : Nat → State
  | 0 => s
  | n + 1 =>
    match nextAuto s with
    | none => s
    | some o => settleOut (runAuto s o) n

def settle (s : State) : State := settleOut s s.core.out.length

/-! ### The seal (R173) -/

/-- A voice's seal image becomes the state at the clause's boundary (R176). -/
def sealImage (s : State) (c : Clause) : State :=
  match c.boundary with
  | none => s
  | some b => setVoice s c.slot c.voice { getVoice s c.slot c.voice with img := c.img, imgAt := b }

/-- What a command keeps once its clause has sealed: no undo data (R178). -/
def sealCmd (ids : List Nat) (m : Cmd) : Cmd :=
  if ids.contains m.clause then { m with undo := [], charge := 0, noUndo := false } else m

/-- A copy or array command of a sealed clause executed up to its retirement (R181). -/
def sealedRun (ids : List Nat) (old : KMap Nat) (m : Cmd) : KMap Nat :=
  if ids.contains m.clause ∧ m.eng ≠ 3 ∧ m.retired = true then mput old m.slot (max (mget 0 old m.slot) m.endAt) else old

/-- Seal a set of clauses: images, held effects in issue order, sealed copies, undo data (R173 to R178). -/
def sealClauses (s : State) (ids : List Nat) : State :=
  let cs := s.core.clauses.filter (fun c => ids.contains c.id)
  let s1 := cs.foldl sealImage s
  let hs := s1.core.held.filter (fun h => ids.contains h.clause)
  let s2 : State := { s1 with core := { s1.core with
      clauses := s1.core.clauses.filter (fun c => !ids.contains c.id)
      held := s1.core.held.filter (fun h => !ids.contains h.clause)
      sealedExec := s1.core.cmds.foldl (sealedRun ids) s1.core.sealedExec } }
  let s3 := hs.foldl releaseOne s2
  let cmds := (s3.core.cmds.map (sealCmd ids)).filter (fun m => !(ids.contains m.clause && m.retired))
  let s4 : State := { s3 with core := settleJournal { s3.core with
      cmds := cmds, undoUsed := (cmds.map (fun m => m.charge)).sum } }
  settle (pruneSlot (pruneSlot s4 0) 1)

/-- A poisoned entry of the hold-back buffer that leaves with the clauses: its slot, address and storage (R182, R183). -/
def badEntry (s : State) (ids : List Nat) : Option (Nat × Nat × Nat) :=
  (s.core.held.filterMap (fun h =>
    if ids.contains h.clause ∧ s.core.badRows.contains (8, h.id) then
      match h.eff with
      | .store dev a _ _ _ _ _ _ => some (h.slot, a, if dev then storageCode a else 0)
      | _ => none
    else none)).head?

/-- CLAUSE_SEAL: the clause seals with the clauses it depends on (R173). A clause that cannot seal yet stays. -/
def execClauseSeal (slot id : Nat) (s : State) : Out :=
  let set := sealSet s
  if set.contains id && s.core.clauses.any (fun c => decide (c.id = id) && decide (c.slot = slot)) &&
      decide (s.core.freeze = none) && !s.core.fenced then
    let ids := depClosure s.core set set.length [id]
    match badEntry s ids with
    | some (k, a, st) => .next (machineCheck s k a st)
    | none => .next (sealClauses s ids)
  else .next s

/-! ### Reports (R171, R179 to R182) -/

/-- Slots that hold a thread with a command that ran without undo data in an unsealed clause. -/
def withoutUndo (s : State) : List Nat :=
  [0, 1].filter (fun k => s.core.cmds.any (fun m => decide (m.slot = k) && m.noUndo))

/-- Slots a copy or array command of whose thread's sealed clauses executed in the last 64 cycles. -/
def ranSealed (s : State) : List Nat :=
  [0, 1].filter (fun k =>
    (match mfind s.core.sealedExec k with
     | some c => decide (s.now ≤ c + 64)
     | none => false) ||
    s.core.cmds.any (fun m => decide (m.slot = k) && decide (m.eng ≠ 3) && decide (m.state ≠ .queued) && !m.retired &&
      !unsealed s.core m.clause))

/-- Threads that have left their slots, a command of whose sealed clauses executed in the last 64 cycles. -/
def struckPast (s : State) : List PastRun := s.core.pastRuns.filter (fun r => decide (s.now ≤ r.at_ + 64))

/-- The threads in the slots with an affected command and the reason of each: 3 a strike with undo overflow, 2 one under a sealed command; of a
thread with both, the first of these (Table 11.4; DESIGN CHOICE, log entry 86). -/
def struck (s : State) : List (Nat × Nat) :=
  let no := withoutUndo s
  ([0, 1].filter (fun k => decide ((getSlot s k).run ≠ .empty) && (no.contains k || (ranSealed s).contains k))).map
    (fun k => (k, if no.contains k then 3 else 2))

/-- The packet at a place of the router's buffers is poisoned. -/
def badPacket : Nat → List Packet → List Packet
  | _, [] => []
  | 0, p :: r => { p with bad := true } :: r
  | n + 1, p :: r => p :: badPacket n r

/-- A report that changes only what is marked: a scrub corrects what the ECC can (2); 3 + n is a scrub that finds an array line
beyond correction, n mod 16 naming the array and n / 16 the line: 0 core scratchpad, 1 memory and cluster scratchpad, 2 a packet in
the router's buffers, 4 to 7 as Table 11.4 numbers the array storage, 8 an entry of the hold-back buffer (R171, R182). -/
def scrub (s : State) (region : Nat) : State :=
  let line := (region - 3) / 16
  match (region - 3) % 16 with
  | 0 => if region = 2 then s else { s with core := { s.core with poison := dedup (line :: s.core.poison) } }
  | 1 => { s with pkg := { s.pkg with poison := dedup (line :: s.pkg.poison) } }
  | 2 => { s with pkg := { s.pkg with router := badPacket line s.pkg.router } }
  | k => if 4 ≤ k ∧ k ≤ 8 then { s with core := { s.core with badRows := dedup ((k, line) :: s.core.badRows) } } else s

/-- A strike report takes effect in the core. -/
def applyReport (s : State) (region : Nat) : State :=
  if region = 0 then rollback s s.now
  else if region = 1 then
    if withoutUndo s ≠ [] ∨ ranSealed s ≠ [] ∨ struckPast s ≠ [] then engineFault s (struck s) (struckPast s) else rollback s s.now
  else scrub s region

/-- The line lies outside the core's zone: no fence and no freeze of the core holds its scrub (R171). -/
def offCore (region : Nat) : Bool := decide (3 ≤ region) && (decide ((region - 3) % 16 = 1) || decide ((region - 3) % 16 = 2))

/-- STRIKE_REPORT: a fenced core acts on none (R250); a frozen one holds it (R180). -/
def execStrikeReport (region : Nat) (s : State) : Out :=
  if offCore region then .next (scrub s region)
  else if s.core.fenced then .next s
  else
    match s.core.freeze with
    | some f => .next { s with core := { s.core with freeze := some { f with heldReports := f.heldReports ++ [region] } } }
    | none => .next (applyReport s region)

/-- ROLLBACK_RESTART: sixteen cycles after the report the voices may issue (R179). -/
def execRollbackRestart (s : State) : Out :=
  match s.core.rollAt with
  | some r => if r + 16 ≤ s.now ∧ s.core.freeze = none then .next { s with core := { s.core with rollAt := none } } else .next s
  | none => .next s

end Sys2Proof.Machine
end

