-- ==== Sys2Proof/Machine/Events.lean ====
section
/-! DEFINITION. Events of the core: results that land (R14, R87, R95), the yield of a slot (R79), waits on barriers (R191),
trap entry (R26 to R29), SIGNAL and PREEMPT (R186, R317), the end of a thread (R71, R198, R28). An event whose cause is
not there changes nothing. -/

namespace Sys2Proof.Machine

/-! ### Results that land -/

/-- The core's clock runs. -/
def clockRuns (s : State) : Bool := decide (s.core.freeze = none) && !s.core.fenced

/-- A pending result, or the flags of a word, of index `idx` behind the results, reach the voice (R14, R15). -/
def landAt (a : VoiceArch) (now idx : Nat) : VoiceArch :=
  if idx < a.pending.length then
    match a.pending[idx]? with
    | some p => if p.due ≤ now then landOne { a with pending := dropIndex a.pending idx } p else a
    | none => a
  else
    match a.flagq[idx - a.pending.length]? with
    | some f =>
      if f.due ≤ now then { a with raised := a.raised ||| f.flags, flagq := dropIndex a.flagq (idx - a.pending.length) } else a
    | none => a

/-- Every result and all flags due by now reach the voice. -/
def landDue (a : VoiceArch) (now : Nat) : VoiceArch :=
  let b := (a.pending.filter (fun p => decide (p.due ≤ now))).foldl landOne a
  { b with
    pending := a.pending.filter (fun p => decide (now < p.due))
    raised := (a.flagq.filter (fun f => decide (f.due ≤ now))).foldl (fun r f => r ||| f.flags) a.raised
    flagq := a.flagq.filter (fun f => decide (now < f.due)) }

def execPendingResultLand (slot : Nat) (v : VoiceId) (idx : Nat) (s : State) : Out :=
  if clockRuns s then .next (setArch s slot v (landAt (getArch s slot v) s.now idx)) else .next s

/-- What a transfer brings: the bytes at its address with the stores that precede it over them, or the entry they decode to (R221,
R222, R225, R234). -/
def readRow (s : State) (k : Nat) (x : Xfer) : Row :=
  let bs := x.parts.flatMap (fun p => readDev s k x.ord p.1 p.2)
  if x.queue = 8 then BitVec.ofNat 1024 (leNat bs) else decodeEntry x.fmt x.geo bs

/-- The address of poisoned data a transfer has read, in memory or in the hold-back buffer. -/
def xferPoison (s : State) (k : Nat) (x : Xfer) : Option Nat :=
  if x.remote then none
  else (x.parts.filterMap (fun p =>
    match poisonAt s.pkg p.1 p.2 with
    | some a => some a
    | none => devHeldPoison s k x.ord p.1 p.2)).head?

/-- Host memory completes the read in error (R223): COMMIT traps XLATE. -/
def hostFault (s : State) (x : Xfer) : Option Nat :=
  let failed (p : Nat × Nat) : Bool :=
    decide (hostBase ≤ p.1) && decide (p.1 < spkBase) && (linesOf p.1 p.2).any (fun l => s.pkg.failing.contains l)
  if x.parts.any failed then some 0x09 else x.fault

/-- The held writes a read has met keep their order among the writes of their bytes (R234, R242). -/
def placeHeld (s : State) (k : Nat) (x : Xfer) : State :=
  match (x.parts.flatMap (fun p => heldSeen s k x.ord p.1 p.2)).map (fun h => h.id) with
  | [] => s
  | ids => { s with core := { s.core with
      placed := dedup (s.core.placed.filter (fun i => s.core.held.any (fun h => decide (h.id = i))) ++ ids) } }

/-- The read is performed: its value, or its error, is fixed. -/
def performRead (s0 : State) (k : Nat) (x : Xfer) : State :=
  let s := placeHeld s0 k x
  let y := getSlot s k
  let r := readRow s k x
  let bad := hostFault s x
  setSlot s k { y with xfers := y.xfers.map (fun z => if z.id = x.id then { z with val := some r, fault := bad } else z) }

/-- A reserved queue entry is filled: by a word's result at its latency, or by the data of an LDGQ (R87, R225). -/
def execQueueEntryFill (slot q idx : Nat) (s : State) : Out :=
  let x := getSlot s slot
  match (getQueue (getCtl s slot) q)[idx]? with
  | none => .next s
  | some e =>
    match findFirst (fun f => decide (f.id = e.id)) x.fills with
    | some f =>
      if f.due ≤ s.now ∧ clockRuns s then
        .next (setSlot s slot { x with
          fills := x.fills.filter (fun g => decide (g.id ≠ e.id)), qvals := mput x.qvals e.id ⟨f.val, none⟩ })
      else .next s
    | none =>
      match findFirst (fun y => decide (y.id = e.id)) x.xfers with
      | some y =>
        match y.val with
        | some r =>
          .next (pmCount (setSlot s slot { x with
            xfers := x.xfers.filter (fun z => decide (z.id ≠ e.id))
            qvals := mput x.qvals e.id ⟨r, xferPoison s slot y⟩ }) slot y.clause 11 1)
        | none => if loadWaits s slot y then .next s else .next (performRead s slot y)
      | none => .next s

/-! ### Landing transfers (R95, R222) -/

/-- The number a landing slot waits for. -/
def landingId (s : State) (k key : Nat) : Option Nat :=
  match getLanding (getCtl s k) key with
  | .xfer id _ => some id
  | .free _ => none

/-- The transfer that will fill a landing slot. -/
def landingXfer (s : State) (k key : Nat) : Option Xfer :=
  match landingId s k key with
  | none => none
  | some id =>
    if (mfind (getSlot s k).arrived id).isSome then none else findFirst (fun x => decide (x.id = id)) (getSlot s k).xfers

/-- The transfer is performed and fills its slot. A remote one is filled by its reply (R276). -/
def execLandingArrival (slot : Nat) (v : VoiceId) (lb : Nat) (s : State) : Out :=
  match landingXfer s slot (8 * v.num + lb) with
  | none => .next s
  | some x =>
    let y := getSlot s slot
    match x.val with
    | some r =>
      .next (pmCount (setSlot s slot { y with
        arrived := mput y.arrived x.id ⟨r, xferPoison s slot x, x.fault⟩ }) slot x.clause 11 1)
    | none =>
      if x.remote || loadWaits s slot x then .next s else .next (performRead s slot x)

/-! ### Slots, waits -/

/-- The slot's thread may issue in this cycle. -/
def slotIssues (s : State) (k : Nat) : Bool :=
  let x := getSlot s k
  (decide (x.run = .running) || decide (x.run = .handler)) && decide (x.startAt ≤ s.now) && decide (s.core.rollAt = none) &&
    clockRuns s

/-- The voice may present a word: not exited, not held by a handler (R75). -/
def voicePresents (s : State) (k : Nat) (v : VoiceId) : Bool := slotIssues s k && !countsExited s k v

/-- No voice has issued in the cycle, every voice that has not exited is stalled, one of them on a yielding wait (R79). -/
def allWait (s : State) : Bool :=
  let k := s.core.act
  let vs := allVoices.filter (fun v => voicePresents s k v)
  allVoices.all (fun v => decide ((getVoice s k v).mark ≠ .issued)) &&
    vs.all (fun v => decide ((getVoice s k v).mark = .stalled) || decide ((getVoice s k v).mark = .yielding)) &&
    vs.any (fun v => decide ((getVoice s k v).mark = .yielding))

/-- SLOT_YIELD: the issuing thread waits and the other slot's could issue: issue passes over, behind a cycle in which neither
slot issues (R79). -/
def execSlotYield (s : State) : Out :=
  if allWait s && s.otherGo then
    .next (pmCount { s with core := { s.core with act := 1 - s.core.act, deadTill := s.now + 2 } } s.core.act (curClause s s.core.act .A) 4 1)
  else .next s

/-- Waits of the slot's thread on completed phases end (R191). -/
def execBarrierWaitEnd (slot : Nat) (s : State) : Out :=
  let m := memberBit s slot
  let ended (w : BarrierWait) : Bool :=
    decide (w.mem = m) && (match w.endAt with | some t => decide (t ≤ s.now) | none => false)
  let bs := s.cluster.barriers.map (fun b => (b.1, { b.2 with waits := b.2.waits.filter (fun w => !ended w) }))
  .next (setCluster s { s.cluster with barriers := bs })

/-! ### Traps and stops -/

def execTrapEntry (slot : Nat) (s : State) : Out :=
  let x := getSlot s slot
  match x.stop with
  | none => .next s
  | some st =>
    if x.run = .stopping ∧ entryReady s st = true ∧ clockRuns s = true then .next (trapEntry s slot st) else .next s

/-- SIGNAL: a thread in a rollback, or in a frozen core, takes it before its next word (R180, R317). -/
def execSignal (slot : Nat) (s : State) : Out :=
  let x := getSlot s slot
  if x.run = .empty then .next s
  else if s.core.rollAt.isSome || !clockRuns s then .next (setSlot s slot { x with pendSignal := true })
  else .next (takeSignal (setSlot s slot { x with pendSignal := false }) slot)

/-- Stop one thread for a save: a boundary of the third kind, no trap entry (R172, R186). -/
def preemptSlot (s : State) (k : Nat) : State :=
  let x := getSlot s k
  if s.core.rollAt.isSome || !clockRuns s then
    (if x.run = .empty then s else setSlot s k { x with pendPreempt := true })
  else
    match x.run with
    | .running =>
      let s1 := stopThread s k 0x21 none true 0 0 s.now x.scyc
      setSlot s1 k { getSlot s1 k with run := .preempted, pendPreempt := false }
    | .handler =>
      let s1 := stopThread s k 0x21 none true 0 0 s.now x.scyc
      setSlot s1 k { getSlot s1 k with run := .preempted, pendPreempt := false, pendSignal := x.pendSignal }
    | .stopping => setSlot s k { x with pendPreempt := true }
    | _ => s

/-- A PREEMPT or a YIELD is pending in slot `k` and can be taken. -/
def preemptPending (s : State) (k : Nat) : Bool :=
  let x := getSlot s k
  decide (s.core.rollAt = none) && clockRuns s && x.pendPreempt && (decide (x.run = .running) || decide (x.run = .handler))

/-- PREEMPT stops every thread of the core (R186); one that is pending stops the threads it is pending for (R180, R205). -/
def execPreempt (s : State) : Out :=
  if preemptPending s 0 || preemptPending s 1 then
    let s1 := if preemptPending s 0 then preemptSlot s 0 else s
    .next (if preemptPending s1 1 then preemptSlot s1 1 else s1)
  else .next (preemptSlot (preemptSlot s 0) 1)

/-- A remote transfer of a switched-out job is saved with its slot BUSY (R286). -/
def savedBusy (s : State) (k : Nat) (x : Xfer) : Bool :=
  x.remote &&
    (match ctxJob s (getSlot s k).thread.ctx with
     | some (_, j) => j.switchedOut
     | none => false)

/-- What R186 waits for before a slot is saved. -/
def readyToSave (s : State) (k : Nat) : Bool :=
  decide (slotClosed s k = []) && !s.core.held.any (fun h => decide (h.slot = k)) &&
  !s.core.out.any (fun o => decide (o.slot = k) && (itemStore o).isSome) && !clusterOut s k &&
  s.core.cmds.all (fun m => decide (m.slot ≠ k) || m.retired || decide (m.state = .queued)) &&
  (getSlot s k).xfers.all (fun x => (mfind (getSlot s k).arrived x.id).isSome || savedBusy s k x) &&
  decide ((getSlot s k).fills = [])

/-- A slot has not yet come to what R186 waits for: a stop that is still pending, what the stopped thread has under way, or
a thread on its way to its end. -/
def saveWaits (s : State) (k : Nat) : Bool :=
  let x := getSlot s k
  match x.run with
  | .preempted => !readyToSave s k
  | .running => x.pendPreempt
  | .handler => x.pendPreempt
  | .stopping => x.pendPreempt
  | .ended => true
  | .dead => true
  | .empty => false

/-- The stopped threads of the core are saved together; a switch-out of the cluster saves them itself (R186, R210). -/
def saveDue (s : State) : Bool :=
  [0, 1].any (fun k => decide ((getSlot s k).run = .preempted)) && !saveWaits s 0 && !saveWaits s 1 &&
    decide (s.cluster.switching = none)

/-- The core image of the stopped threads, in the area at a physical address (Table 11.6). -/
def writeCoreImage (s : State) (area : Nat) : State :=
  let ts := ([0, 1].filter (fun k => decide ((getSlot s k).run = .preempted))).map (fun k => (k, saveThread s k))
  let parts := coreParts 0 ts (arrayOf s.core)
  if presentRange s.pkg area (partsSize parts) then putRegion s [(area, partsSize parts)] 0 (partsSize parts) (layParts parts 0) else s

/-- What stands at the area, for a thread of slot `k`; nothing where the area is not in memory. -/
def storedAt (s : State) (area k : Nat) : Option StoredImage :=
  let ts := ([0, 1].filter (fun k => decide ((getSlot s k).run = .preempted))).map (fun k => (k, saveThread s k))
  let n := partsSize (coreParts 0 ts (arrayOf s.core))
  if presentRange s.pkg area n then some ⟨area, k, regionBytes (writeCoreImage s area) [(area, n)] 0 n⟩ else none

def saveSlot (img : Nat → Option StoredImage) (s : State) (k : Nat) : State :=
  if (getSlot s k).run = .preempted then checkpointSlot s k (img k) else s

/-- The stopped threads are saved, with their image in the area at a physical address. -/
def saveCore (s : State) (area : Nat) : State :=
  let t := saveSlot (storedAt s area) (saveSlot (storedAt s area) (writeCoreImage s area) 0) 1
  setCluster t { t.cluster with saveArea := 2 ^ 43 }

/-- CORE_IMAGE_SAVE: the image goes to the save area that the scheduler has named, and the records return to the queue with it. An area
outside memory is the scheduler's own (DESIGN CHOICE, log entry 81). -/
def execCoreImageSave (s : State) : Out :=
  if clockRuns s && saveDue s then .next (saveCore s s.cluster.saveArea) else .next s

/-! ### The end of a thread -/

/-- No command of the slot is still to retire. -/
def cmdsDone (s : State) (k : Nat) : Bool := s.core.cmds.all (fun m => decide (m.slot ≠ k) || m.retired)

/-- Nothing the slot's thread has sealed is still on its way to the cluster (R195). -/
def slotSealed (s : State) (k : Nat) : Bool := decide (slotClosed s k = []) && !clusterOut s k

def inAnyGroup (s : State) (k : Nat) : Bool :=
  s.cluster.groups.any (fun g => decide (g.2 &&& memBit (memberBit s k) ≠ 0))

/-- The task of an ended thread ends: its set bits are set (R198). -/
def endTask (s : State) (k : Nat) : State :=
  let t := (getSlot s k).thread
  endThread (if t.rec2 = 0 then s else eventChange s t.ctx (recSetWin t.rec3) t.rec2 0 t.tag) k

/-- A thread stopped by an unhandled trap ends (R28, R29): its fault record goes out, it leaves its groups, its reserve
returns; a lost record purges the tag. -/
def endDead (s : State) (k : Nat) (st : Stop) : State :=
  let x := getSlot s k
  let lost := decide (2 ^ 64 ≤ x.deadRec)
  let s1 := postFault (breakMissed s k) x.thread.ctx (kind6 s k x.deadRec st.cause st.nested lost (x.deadRec - 2 ^ 64))
  let s2 := setCluster s1 (leaveAll s1.now s1.cluster (memberBit s k))
  let s3 := leaveSlot s2 k
  if lost then purge s3 x.thread.ctx x.thread.tag else s3

def execThreadEnd (slot : Nat) (s : State) : Out :=
  let x := getSlot s slot
  if x.run = .ended then
    if slotSealed s slot = false then .next s
    else if cmdsDone s slot then .next (endTask s slot)
    else .next (setCluster s (leaveAll s.now s.cluster (memberBit s slot)))
  else if x.run = .dead then
    match x.stop with
    | some st => if finalDead s x && !clusterOut s slot then .next (endDead s slot st) else .next s
    | none => if cmdsDone s slot then .next (clearSlot s slot) else .next s
  else .next s

end Sys2Proof.Machine
end

