-- ==== Sys2Proof/Machine/Access.lean ====
section
/-! DEFINITION. Scratchpad access (R122 to R124), queue moves (R125), streams (R89 to R92, R126 to R128) and landing slots
(R129, R130). -/

namespace Sys2Proof.Machine

/-! ### Scratchpad operations -/

/-- The address of the first poisoned scratchpad line an interval touches. -/
def spadPoison (s : State) (a n : Nat) : Option Nat :=
  match findFirst (fun l => s.core.poison.contains l) (linesOf a n) with
  | some l => some (max a (64 * l))
  | none => spadHeldPoison s a n

/-- A machine check over core scratchpad (storage code 0). -/
def spadCheckHalt (h : Here) (a : Nat) (s : State) : Res := .halt (machineCheck s h.k a 0)

/-- A FENCE of voice A over core scratchpad is in force: later accesses to it stall (R226). -/
def spadFenced (s : State) (k : Nat) : Bool := (getSlot s k).fences.any (fun f => f.forA && f.mask.getLsbD 0 && fenceActive s k f)

/-- A load of `n` bytes at `ea`: RANGE, a stall behind a fence, a machine check, or the bytes as the core sees them, with the
dependence on the clauses whose held stores they come from (R124, R94, R226, Table 11.1). -/
def withSpadLoad (h : Here) (ea : Word) (n : Nat) (s : State) (go : List Byte → State → Res) : Res :=
  match spadLoadAddr (slotAt s h) ea.toNat n with
  | .error bad => .trap 0x0B (w64 bad) s
  | .ok a =>
    if spadFenced s h.k then .stall false s
    else
      match spadPoison s a n with
      | some p => spadCheckHalt h p s
      | none => go (readSpad s a n) (addDeps s h.k h.v (heldClauses s h.k false a n))

/-- A store of bytes at `ea` into the hold-back buffer: RANGE, a stall while the buffer lacks room (R124, R175). -/
def withSpadStore (h : Here) (ea : Word) (n : Nat) (s : State) (go : Nat → Res) : Res :=
  match spadStoreAddr (slotAt s h) ea.toNat n with
  | .error bad => .trap 0x0B (w64 bad) s
  | .ok a => if holdbackRoom s.core (clauseAt s h) false a n then go a else .stall false s

/-- Hold a store to core scratchpad. -/
def holdSpad (h : Here) (a : Nat) (bs : List Byte) (s : State) : State :=
  hold s h.k (clauseAt s h) (.store false a bs 1 false 0 0 0)

/-! ### LDS, STS, LDQ, STQ -/

def execLds (sb : BitVec 1) (p : BitVec 3) (d b : BitVec 5) (z : BitVec 2) (o : BitVec 1) (imm : BitVec 9) (s : State) : Out :=
  word sb p .a (fun h t =>
    let r := archAt t h
    let w := accWidth z
    withSpadLoad h (memAddr r b o imm w) w t (fun bs u =>
      withWrites h (⟨.s d.toNat, row64 (w64 (leNat bs)), 4⟩ :: postWrite r b o imm w) u (fun x => .retire .seq false x))) s

def execSts (sb : BitVec 1) (p : BitVec 3) (d b : BitVec 5) (z : BitVec 2) (o : BitVec 1) (imm : BitVec 9) (s : State) : Out :=
  word sb p .a (fun h t =>
    let r := archAt t h
    let w := accWidth z
    withSpadStore h (memAddr r b o imm w) w t (fun a =>
      withWrites h (postWrite r b o imm w) t (fun u =>
        .retire .seq false (holdSpad h a (leBytes w (visS r d).toNat) u)))) s

/-- The queue is bound to a stream: A may neither push nor pop it (R92). -/
def queueBound (s : State) (h : Here) (q : Nat) : Bool := (boundStream (getCtl s h.k) q).isSome

def execLdq (sb : BitVec 1) (p : BitVec 3) (q : BitVec 2) (b : BitVec 5) (o : BitVec 1) (imm : BitVec 9) (s : State) : Out :=
  word sb p .a (fun h t =>
    let r := archAt t h
    let ea := memAddr r b o imm 128
    if queueBound t h q.toNat then .trap 0x0C 0 t
    else
      match spadLoadAddr (slotAt t h) ea.toNat 128 with
      | .error bad => .trap 0x0B (w64 bad) t
      | .ok _ =>
        match tryPush t h.k q.toNat with
        | .full => .stall false t
        | .drop => withWrites h (postWrite r b o imm 128) t (fun u => .retire .seq false u)
        | .trap c => .trap c 0 t
        | .room =>
          withSpadLoad h ea 128 t (fun bs u =>
            withWrites h (postWrite r b o imm 128) u (fun x =>
              .retire .seq false (pushQueue h q.toNat (BitVec.ofNat 1024 (leNat bs)) 6 x)))) s

def execStq (sb : BitVec 1) (p : BitVec 3) (q : BitVec 1) (b : BitVec 5) (o : BitVec 1) (imm : BitVec 9) (s : State) : Out :=
  word sb p .a (fun h t =>
    let r := archAt t h
    let k := 4 + q.toNat
    if queueBound t h k then .trap 0x0C 0 t
    else
      match spadStoreAddr (slotAt t h) (memAddr r b o imm 128).toNat 128 with
      | .error bad => .trap 0x0B (w64 bad) t
      | .ok _ =>
        withPops h [k] t (fun hs =>
          withSpadStore h (memAddr r b o imm 128) 128 t (fun a =>
            withWrites h (postWrite r b o imm 128) t (fun u =>
              let bs := (hs.map (fun x => leBytes 128 x.2.val.toNat)).flatten
              .retire .seq false (holdSpad h a bs (popQueue h u k)))))) s

/-! ### QPUSH (R125) -/

/-- Sixteen copies of a 64-bit value. -/
def copies16 (x : Word) : Row := rowOf 64 (List.replicate 16 x.toNat)

def execQpush (sb : BitVec 1) (p : BitVec 3) (k : BitVec 2) (a : BitVec 5) (s : State) : Out :=
  word sb p .a (fun h t =>
    if queueBound t h k.toNat then .trap 0x0C 0 t
    else
      match tryPush t h.k k.toNat with
      | .full => .stall false t
      | .trap c => .trap c 0 t
      | .drop => .retire .seq false t
      | .room => .retire .seq false (pushQueue h k.toNat (copies16 (visS (archAt t h) a)) 1 t)) s

def execQpushSq (sb : BitVec 1) (p : BitVec 3) (k : BitVec 2) (j : BitVec 1) (s : State) : Out :=
  word sb p .a (fun h t =>
    let q := 4 + j.toNat
    if queueBound t h k.toNat || queueBound t h q then .trap 0x0C 0 t
    else
      withPops h [q] t (fun hs =>
        let val := (hs.map (fun x => x.2.val)).headD 0
        match tryPush t h.k k.toNat with
        | .full => .stall false t
        | .trap c => .trap c 0 t
        | .drop => .retire .seq false (popQueue h t q)
        | .room => .retire .seq false (pushQueue h k.toNat val 2 (popQueue h t q)))) s

/-! ### Stream descriptors (R89 to R91) -/

/-- Element size a decode code calls for, as log2; none where any size is allowed (Table 6.6). -/
def decodeSize (code : Nat) : Option Nat :=
  match code with
  | 0 => none
  | 3 => some 1
  | 4 => some 1
  | 7 => some 1
  | _ => some 0

/-- Elements in one entry (Table 6.6). -/
def entryElems (code esz : Nat) : Nat := if code = 0 then 128 / esz else 32

/-- A stream from the bytes of a descriptor (Table 6.5). -/
def parseStream (bs : List Byte) (q : Nat) : Stream :=
  let x := leNat bs
  { queue := q, base := bits x 0 32, n0 := bits x 64 16, n1 := bits x 80 16, n2 := bits x 96 16, n3 := bits x 112 16,
    d0 := sextInt 32 (bits x 128 32), d1 := sextInt 32 (bits x 160 32), d2 := sextInt 32 (bits x 192 32),
    d3 := sextInt 32 (bits x 224 32), esz := 2 ^ bits x 256 2, decode := bits x 260 4, drain := bit x 264,
    bound := true, finished := false, reserved := 0, done := 0, resolved := bits x 0 32 }

/-- Byte `i` of a descriptor holds a reserved value, or the direction does not match the queue (R90, R126). Bits [3:2] of byte 0x20,
which Table 6.5 does not name, are reserved, and an extent of 0 is named by its low byte (DESIGN CHOICE, log entry 113). -/
def badByte (bs : List Byte) (q i : Nat) : Bool :=
  let b := (bs.getD i 0).toNat
  if 4 ≤ i ∧ i < 8 then decide (b ≠ 0)
  else if 8 ≤ i ∧ i < 16 then decide (i % 2 = 0) && decide (b = 0) && decide (bs.getD (i + 1) 0 = 0)
  else if i = 0x20 then
    decide (bits b 2 2 ≠ 0) || decide (8 ≤ b / 16) ||
      (match decodeSize (b / 16) with | some e => decide (b % 4 ≠ e) | none => false)
  else if i = 0x21 then decide (b / 2 ≠ 0) || decide (b % 2 ≠ if q < 4 then 0 else 1)
  else if 0x22 ≤ i then decide (b ≠ 0)
  else false

/-- Elements of a stream (R90). -/
def streamLen (x : Stream) : Nat := x.n0 * x.n1 * x.n2 * x.n3

/-- Offset of element `j` from the base (R90). -/
def elemOffset (x : Stream) (j : Nat) : Int :=
  ((j % x.n0 : Nat) : Int) * x.d0 + ((j / x.n0 % x.n1 : Nat) : Int) * x.d1 +
    ((j / x.n0 / x.n1 % x.n2 : Nat) : Int) * x.d2 + ((j / x.n0 / x.n1 / x.n2 : Nat) : Int) * x.d3

/-- The lowest and the highest offset of one dimension. -/
def dimLow (n : Nat) (d : Int) : Int := min 0 (((n - 1 : Nat) : Int) * d)

def dimHigh (n : Nat) (d : Int) : Int := max 0 (((n - 1 : Nat) : Int) * d)

/-- Lowest element address and highest element byte of the pattern. -/
def patternLow (x : Stream) : Int := x.base + dimLow x.n0 x.d0 + dimLow x.n1 x.d1 + dimLow x.n2 x.d2 + dimLow x.n3 x.d3

def patternHigh (x : Stream) : Int :=
  x.base + dimHigh x.n0 x.d0 + dimHigh x.n1 x.d1 + dimHigh x.n2 x.d2 + dimHigh x.n3 x.d3 + (x.esz - 1 : Nat)

/-- The least of two optional values. -/
def least : Option Nat → Option Nat → Option Nat
  | none, y => y
  | x, none => x
  | some x, some y => some (min x y)

/-- The least sum of index times step, over dimensions of a size and a step, that reaches `t`. -/
def leastSum (t : Nat) : List (Nat × Nat) → Option Nat
  | [] => if t = 0 then some 0 else none
  | [(n, d)] =>
    if t = 0 then some 0
    else if d = 0 then none
    else
      let i := (t + d - 1) / d
      if i < n then some (i * d) else none
  | (n, d) :: r =>
    (List.range n).foldl (fun b i => least b ((leastSum (t - i * d) r).map (fun y => i * d + y))) none

/-- The lowest element address whose last byte reaches `lim` (an exclusive bound) or beyond. -/
def lowestBeyond (x : Stream) (lim : Int) : Int :=
  let low := patternLow x
  let t := (lim - (x.esz - 1 : Nat) - low).toNat
  match leastSum t [(x.n3, x.d3.natAbs), (x.n2, x.d2.natAbs), (x.n1, x.d1.natAbs), (x.n0, x.d0.natAbs)] with
  | some y => low + y
  | none => low

/-- The range an element address lies in: the window, or for a fill one valid aperture; as start and end (R91). -/
def rangeOf (y : Slot) (fill : Bool) (a : Int) : Option (Nat × Nat) :=
  if a < 0 then none
  else
    let n := a.toNat
    if inWindow y.thread n then some (y.thread.winBase * 4096, min 0x400000 ((y.thread.winBase + y.thread.winLen) * 4096))
    else if fill && decide (0x01000000 ≤ n) && decide (n < 0x02000000) then
      let pb := (n - 0x01000000) / 0x100000
      if inAperture y n pb then some (0x01000000 + pb * 0x100000, 0x01000000 + pb * 0x100000 + (pubOf y pb).len) else none
    else none

/-- The lowest element address that is out of range, if any (R91). -/
def patternFault (y : Slot) (x : Stream) : Option Int :=
  match rangeOf y (!x.drain) (patternLow x) with
  | none => some (patternLow x)
  | some (_, lim) => if patternHigh x < lim then none else some (lowestBeyond x lim)

/-- The base elements are read at: an aperture resolves to its front half at SBIND (R91). -/
def resolveBase (y : Slot) (a : Nat) : Nat :=
  if 0x01000000 ≤ a then
    let pb := (a - 0x01000000) / 0x100000
    frontBase y pb + (a - (0x01000000 + pb * 0x100000))
  else a

def getStream (c : Ctl) (k : Nat) : Option Stream := mfind c.streams k

def streamBound (c : Ctl) (k : Nat) : Bool := (getStream c k).any (fun x => x.bound)

/-- An entry of the slot's stream begins anew for the banks (R94). -/
def clearTurn (s : State) (k i : Nat) : State :=
  { s with core := { s.core with streamTurns := mdel s.core.streamTurns (8 * k + i) } }

/-! ### SBIND, SUNBIND, SPOS -/

/-- The descriptor byte at the lowest offset that is not allowed (DESIGN CHOICE, log entry 113). -/
def firstBadByte (bs : List Byte) (q : Nat) : Option Nat := findFirst (badByte bs q) (List.range 64)

/-- Bind a stream entry: the stream unit serves it from the next cycle on (R126). -/
def bindStream (s : State) (h : Here) (k : Nat) (x : Stream) : State :=
  let t := changeAt (clearTurn s h.k k) h (.streamSet k x)
  { t with served := t.served ++ [8 * h.k + k] }

def execSbind (sb : BitVec 1) (p : BitVec 3) (k : BitVec 3) (a q : BitVec 5) (s : State) : Out :=
  word sb p .a (fun h t =>
    let ea := visS (archAt t h) a
    let y := slotAt t h
    let c := getCtl t h.k
    match spadLoadAddr y ea.toNat 64 with
    | .error _ => .trap 0x0B ea t
    | .ok _ =>
      if ea.toNat % 64 ≠ 0 then .trap 0x0B ea t
      else
        withSpadLoad h ea 64 t (fun bs u =>
          match firstBadByte bs q.toNat with
          | some i => .trap 0x01 (ea + w64 i) t
          | none =>
            let x := parseStream bs q.toNat
            if streamBound c k.toNat || (boundStream c q.toNat).isSome then .trap 0x0C 0 t
            else
              match patternFault y x with
              | some bad => .trap 0x0B (BitVec.ofInt 64 bad) t
              | none =>
                .retire .seq false (bindStream u h k.toNat { x with resolved := resolveBase y x.base }))) s

def execSunbind (sb : BitVec 1) (p : BitVec 3) (k : BitVec 3) (s : State) : Out :=
  word sb p .a (fun h t =>
    match getStream (getCtl t h.k) k.toNat with
    | some x => .retire .seq false (if x.bound then changeAt t h (.streamSet k.toNat { x with bound := false }) else t)
    | none => .retire .seq false t) s

/-- What SPOS reads (R128). -/
def streamState (c : Ctl) (k : Nat) : Word :=
  match getStream c k with
  | none => 0
  | some x => w64 (x.done % 2 ^ 40 + (if x.bound then 2 ^ 62 else 0) + (if x.finished then 2 ^ 63 else 0))

def execSpos (sb : BitVec 1) (p : BitVec 3) (d : BitVec 5) (k : BitVec 3) (s : State) : Out :=
  word sb p .a (fun h t => writeOne h (.s d.toNat) (row64 (streamState (getCtl t h.k) k.toNat)) 2 t) s

/-! ### Landing slots -/

/-- The state of a landing slot: 0 FREE, 1 BUSY, 2 FULL (R95). -/
def landingState (s : State) (k key : Nat) : Nat :=
  match getLanding (getCtl s k) key with
  | .free _ => 0
  | .xfer id _ => if (mfind (getSlot s k).arrived id).isSome then 2 else 1

def execLbqry (sb : BitVec 1) (p : BitVec 3) (d : BitVec 5) (k : BitVec 3) (s : State) : Out :=
  word sb p .ax (fun h t =>
    writeOne h (.s d.toNat) (row64 (w64 (landingState t h.k (8 * h.v.num + k.toNat)))) 1 t) s

/-- A vector destination of COMMIT in an X voice is v0 to v27 (R130). -/
def commitIll (d : BitVec 5) (h : Here) (_ : State) : Bool := h.v.isX && decide (28 ≤ d.toNat)

def commitDest (h : Here) (d : BitVec 5) : RegId := if h.v.isX then .v d.toNat else .s d.toNat

/-- The faulted transfer's address. -/
def xferAddr (s : State) (k id : Nat) : Nat :=
  ((findFirst (fun x => decide (x.id = id)) (getSlot s k).xfers).map (fun x => x.va)).getD 0

def execCommit (sb : BitVec 1) (p : BitVec 3) (d : BitVec 5) (k : BitVec 3) (s : State) : Out :=
  issue sb 0 .ax false (commitIll d) (predLive p) (fun h t =>
    let key := 8 * h.v.num + k.toNat
    let lat := if h.v.isX then 2 else 1
    match getLanding (getCtl t h.k) key with
    | .free data => writeOne h (commitDest h d) data lat t
    | .xfer id cl =>
      match mfind (slotAt t h).arrived id with
      | none => .stall true t
      | some x =>
        match x.poison, x.fault with
        | some a, _ => .halt (machineCheck t h.k a (storageCode a))
        | none, some c => .trap c (w64 (xferAddr t h.k id)) (changeAt (depAt t h cl) h (.landSet key (.free 0)))
        | none, none =>
          withWrites h [⟨commitDest h d, x.data, lat⟩] t (fun u =>
            .retire .seq false (changeAt (depAt u h cl) h (.landSet key (.free x.data))))) s

/-! ### The stream unit (R92) -/

/-- The clause a stream's pushes, pops and writes belong to: the one A has in progress, or A's last clause, or none that is
unsealed (R173). -/
def streamClause (s : State) (k : Nat) : Nat :=
  if (getArch s k .A).exited then ((closedClauses s k .A).getLast?.map (fun c => c.id)).getD 0 else curClause s k .A

def elemAddr (x : Stream) (j : Nat) : Nat := (x.resolved + elemOffset x j).toNat

/-- The elements of the stream's next entry: the first and how many. -/
def nextElems (x : Stream) : Nat := min (entryElems x.decode x.esz) (streamLen x - x.reserved)

/-- A stream after its next entry. -/
def advanceStream (x : Stream) : Stream :=
  let n := x.reserved + nextElems x
  { x with reserved := n, done := n, finished := decide (streamLen x ≤ n) }

/-- The addresses of the next entry's elements. -/
def entryAddrs (x : Stream) : List Nat := (List.range (nextElems x)).map (fun i => elemAddr x (x.reserved + i))

/-- Address of poisoned data the next entry of a fill stream reads. -/
def streamPoison (s : State) (x : Stream) : Option Nat :=
  findFirst (fun a => (spadPoison s a x.esz).isSome) (entryAddrs x)

/-- Push the next entry of a fill stream; without a consumer the entry is discarded (R88). -/
def serveFill (s : State) (k i : Nat) (x : Stream) : State :=
  let cl := streamClause s k
  if tryPush s k x.queue = .drop then change s k cl (.streamSet i (advanceStream x))
  else
    let val := packEntry x.decode x.esz ((entryAddrs x).map (fun a => leNat (readSpad s a x.esz)))
    let id := freshId s
    let s1 := change (reserveEntry s k cl x.queue) k cl (.streamSet i (advanceStream x))
    let y := getSlot s1 k
    setSlot s1 k { y with qvals := mput y.qvals id ⟨val, none⟩ }

/-- One element of a drain stream: held for the clause, or written where no clause is left to hold it. -/
def drainOne (k cl esz : Nat) (s : State) (e : Nat × Nat) : State :=
  if unsealed s.core cl then hold s k cl (.store false e.1 (leBytes esz e.2) 1 false 0 0 0)
  else writeSpad s e.1 (leBytes esz e.2)

/-- Room in the hold-back buffer for a drained entry. -/
def drainRoom (s : State) (cl : Nat) (x : Stream) : Bool :=
  let own := s.core.held.flatMap (fun h => if h.clause = cl then heldLines h.eff else [])
  let new := dedup (((entryAddrs x).flatMap (fun a => linesOf a x.esz)).filter (fun l => !own.contains (false, l)))
  !unsealed s.core cl || decide (holdbackUsed s.core + new.length ≤ 128)

/-- Pop the head of a drain stream's queue and write its elements; the clause they belong to depends on the pushing one (Table 11.1). -/
def serveDrain (s : State) (k i : Nat) (x : Stream) (e : QEntry) (v : QVal) : State :=
  let cl := streamClause s k
  let s0 := dependOn s cl [e.clause]
  let es := (entryAddrs x).zip (unpackEntry x.decode x.esz (nextElems x) v.val)
  let s1 := es.foldl (drainOne k cl x.esz) s0
  changes s1 k cl [.qPop x.queue, .streamSet i (advanceStream x)]

/-- The stream unit may serve a stream: bound, not finished, with room or an entry, one entry each in a cycle (R92). -/
def canServe (s : State) (k i : Nat) : Bool :=
  let c := getCtl s k

  let live := decide ((getSlot s k).run ≠ .empty) && decide ((getSlot s k).run ≠ .dead) && decide ((getSlot s k).run ≠ .preempted)
  live && !s.served.contains (8 * k + i) &&
    (match getStream c i with
     | none => false
     | some x =>
       x.bound && !x.finished &&
         (if x.drain then
            (match tryPop s k x.queue with | .ready _ _ => drainRoom s (streamClause s k) x | _ => false)
          else decide (tryPush s k x.queue = .room) || decide (tryPush s k x.queue = .drop)))

/-- A stream whose entry's lines the banks have all served moves that entry (R92, R94). -/
def execStreamService (slot st : Nat) (s : State) : Out :=
  if s.granted.contains (8 * slot + st) && canServe s slot st && clockRuns s then
    match getStream (getCtl s slot) st with
    | none => .next s
    | some x =>
      let s1 : State := { s with served := s.served ++ [8 * slot + st], granted := s.granted.filter (fun n => decide (n ≠ 8 * slot + st)) }
      if x.drain then
        match tryPop s slot x.queue with
        | .ready e v =>
          match v.poison with
          | some a => .next (machineCheck s1 slot a (storageCode a))
          | none => .next (serveDrain s1 slot st x e v)
        | _ => .next s
      else
        match streamPoison s x with
        | some a => .next (machineCheck s1 slot a 0)
        | none => .next (serveFill s1 slot st x)
  else .next s

end Sys2Proof.Machine
end

