-- ==== Sys2Proof/Machine/Nodes.lean ====
section
/-! DEFINITION. What the scheduler reads of a record's node (R197): reads through the context's page table, node descriptors
(Table 12.4), the pipeline stage a record belongs to (R201). -/

namespace Sys2Proof.Machine

/-! ### Reading through the context's page table -/

/-- Bytes read for the scheduler, or why they cannot be: the first address without translation or permission, or the
address of poisoned data, be it that the page's leaf marks it lost or an entry of its walk is uncorrectable (R215). -/
inductive VRead where
  | ok (bs : List Byte)
  | trap (va : Nat)
  | poison (va : Nat)
  deriving DecidableEq, Repr

def readVirt (s : State) (c : Context) (va n : Nat) : VRead :=
  match spanParts s c false .read va (n / 0x10000 + 2) n with
  | .error bad =>
    match translateOne s c false .read bad 1 with
    | (_, .check _ _) => .poison bad
    | _ => .trap bad
  | .ok ps =>
    match (ps.filterMap (fun p => (poisonAt s.pkg p.pa p.len).map (fun a => p.va + (a - p.pa)))).head? with
    | some a => .poison a
    | none => .ok (ps.flatMap (fun p => readMem s p.pa p.len))

/-- A node descriptor (Table 12.4). -/
structure Node where
  header : Nat
  winLen : Nat
  tokens : Nat
  killable : Bool
  reserve : Nat
  stage : BitVec 16
  estimate : Word
  stride : Word
  argAddr : Nat
  argCount : Nat
  imgAddr : Nat
  imgLen : Nat
  deriving DecidableEq, Repr

/-- A length of 1 to 1024 units in ten bits: 0 stands for 1024 (DESIGN CHOICE, log entry 87; Table 12.4, R268). -/
def tenBits (x : Nat) : Nat := if x % 1024 = 0 then 1024 else x % 1024

def parseNode (bs : List Byte) : Node :=
  let args := fieldAt bs 0x20 8
  { header := fieldAt bs 0 8, winLen := tenBits (fieldAt bs 8 4), tokens := bits (fieldAt bs 0xC 1) 0 4,
    killable := bit (fieldAt bs 0xC 1) 4, reserve := bits (fieldAt bs 0xD 1) 0 4, stage := BitVec.ofNat 16 (fieldAt bs 0xE 2 % 512),
    estimate := w64 (fieldAt bs 0x10 8), stride := w64 (fieldAt bs 0x18 8), argAddr := args / 16 * 16, argCount := args % 16,
    imgAddr := fieldAt bs 0x28 8, imgLen := fieldAt bs 0x30 4 }

/-- Where the descriptor of a record's node lies, in the context's virtual space. -/
def nodeAddr (c : Context) (r0 : Word) : Option Nat :=
  match mfind c.graphs (recGraph r0) with
  | some g => if recNode r0 < g.count then some (g.base + 64 * recNode r0) else none
  | none => none

/-- What a start needs, or the reason of its LAUNCH_INVALID record with its address (R249). -/
inductive Started (α : Type) where
  | ok (x : α)
  | bad (reason fault : Nat)

def startRead {α : Type} (s : State) (c : Context) (va n : Nat) (f : List Byte → Started α) : Started α :=
  match readVirt s c va n with
  | .ok bs => f bs
  | .trap a => .bad 1 a
  | .poison a => .bad 3 a

def readNode (s : State) (c : Context) (r0 : Word) : Started Node :=
  match nodeAddr c r0 with
  | none => .bad 1 0
  | some a => startRead s c a 64 (fun bs => .ok (parseNode bs))

/-- The pipeline and stage of a record's task: of a saved one its own, else its node's (R201). -/
def recStage (s : State) (q : QRec) : Option (Nat × Nat) :=
  match q.saved with
  | some m => pipeOf m.slot.thread
  | none =>
    match readNode s (getCtx s q.ctx) q.r0 with
    | .ok n => if n.stage.getLsbD 8 then some (bits n.stage.toNat 4 4, bits n.stage.toNat 0 4) else none
    | .bad _ _ => none

end Sys2Proof.Machine
end

