-- ==== Sys2Proof/Machine/ClusterWords.lean ====
section
/-! DEFINITION. The cluster words of voice C: groups and barriers (R190 to R193), flags (R194), launches and events (R198 to
R200), pipelines (R201, R202), YIELD (R205), TASKINFO (Table 12.7). -/

namespace Sys2Proof.Machine

/-- A word of majors GRP, FLG and TSK. -/
def clWord (sb : BitVec 1) (p : BitVec 3) (body : Here → State → Res) (s : State) : Out := word sb p .c body s

/-- Result of a cluster word: hid(d), 2 cycles on (R188). -/
def clResult (d : BitVec 5) (x : Word) : List Wr := [⟨.s d.toNat, row64 x, 2⟩]

/-- A word that writes its result and then has an effect. -/
def withResult (h : Here) (d : BitVec 5) (x : Word) (s : State) (f : State → State) : Res :=
  withWrites h (clResult d x) s (fun t => .retire .seq false (f t))

/-- Hold an effect for the open clause. -/
def holdAt (h : Here) (e : Effect) (s : State) : State := hold s h.k (clauseAt s h) e

/-- Status codes of Table 12.1. -/
def stNotMember : Nat := 1
def stAlready : Nat := 2
def stBound : Nat := 3
def stRange : Nat := 4
def stFull : Nat := 5
def stNoStage : Nat := 6

/-! ### Groups (R190, R192) -/

/-- A group's mask with the thread's own held changes (R189). -/
def seenMask (s : State) (k g : Nat) : BitVec 16 :=
  let m := memBit (memberBit s k)
  (ownEffects s k).foldl (fun x e =>
    match e with
    | .join q => if q = g then x ||| m else x
    | .leave q => if q = g then x &&& ~~~m else x
    | _ => x) (groupMask s.cluster g)

/-- Pending members, with those of the thread's own held launches. -/
def seenPending (s : State) (k g : Nat) : Nat :=
  pendingOf s.cluster g +
    ((ownEffects s k).filter (fun e => match e with | .launch _ _ _ r3 _ => decide (recGroup r3 = some g) | _ => false)).length

def popCount (m : BitVec 16) : Nat := ((List.range 16).filter (fun i => m.getLsbD i)).length

/-- Count and mask of a group above a status: [15:8] and [31:16] (Table 12.2). -/
def groupReport (m : BitVec 16) (pend st : Nat) : Nat := st + (popCount m + pend) % 256 * 2 ^ 8 + m.toNat * 2 ^ 16

def isMemberOf (s : State) (k : Nat) (m : BitVec 16) : Bool := m.getLsbD (memberBit s k)

def execJoin (sb : BitVec 1) (p : BitVec 3) (d a : BitVec 5) (s : State) : Out :=
  clWord sb p (fun h t =>
    let g := (visS (archAt t h) a).toNat
    if 256 ≤ g then withResult h d (w64 stRange) t id
    else
      let m := seenMask t h.k g
      let pend := seenPending t h.k g
      if isMemberOf t h.k m then withResult h d (w64 (groupReport m pend stAlready)) t id
      else withResult h d (w64 (groupReport (m ||| memBit (memberBit t h.k)) pend 0)) t (holdAt h (.join g))) s

def execLeave (sb : BitVec 1) (p : BitVec 3) (d a : BitVec 5) (s : State) : Out :=
  clWord sb p (fun h t =>
    let g := (visS (archAt t h) a).toNat
    if 256 ≤ g then withResult h d (w64 stRange) t id
    else
      let m := seenMask t h.k g
      let pend := seenPending t h.k g
      if isMemberOf t h.k m then
        withResult h d (w64 (groupReport (m &&& ~~~(memBit (memberBit t h.k))) pend 0)) t (holdAt h (.leave g))
      else withResult h d (w64 (groupReport m pend stNotMember)) t id) s

def execGrpq (sb : BitVec 1) (p : BitVec 3) (d a : BitVec 5) (s : State) : Out :=
  clWord sb p (fun h t =>
    let g := (visS (archAt t h) a).toNat
    if 256 ≤ g then withResult h d (w64 stRange) t id
    else withResult h d (w64 (groupReport (seenMask t h.k g) (seenPending t h.k g) 0)) t id) s

/-! ### Barriers (R191, R192) -/

/-- Arrivals of the thread at a barrier: for the current phase, for the next; its group. -/
structure Arrivals where
  now : Bool
  next : Bool
  group : Option Nat
  deriving DecidableEq, Repr

/-- The thread's arrivals at barrier `b` of number `k`, those it holds included (R189, R192). -/
def arrivalsOf (s : State) (slot k : Nat) (expected : Bool) : Arrivals :=
  let b := getBarrier s.cluster k
  let m := memberBit s slot
  (ownEffects s slot).foldl (fun x e =>
    match e with
    | .arrive g q =>
      if q = k then
        (if expected ∧ x.now = false then { x with now := true, group := some (x.group.getD g) }
         else { x with next := true, group := some (x.group.getD g) })
      else x
    | .leave g => if x.group = some g then { x with now := x.now || expected, next := false } else x
    | _ => x)
    ⟨b.a.getLsbD m, b.early.getLsbD m, if b.bound then some b.group.toNat else none⟩

/-- What BARR decides: a result without effect, a stall, or the phase and the result of an arrival to hold. -/
inductive BarrRes where
  | done (x : Nat)
  | stall
  | arrive (g k : Nat) (phase : BitVec 32) (x : Nat)
  deriving DecidableEq, Repr

def barrDecide (s : State) (slot : Nat) (ga kb : Word) : BarrRes :=
  let g := ga.toNat
  let k := kb.toNat
  if 256 ≤ g ∨ 64 ≤ k then .done stRange
  else
    let m := seenMask s slot g
    let pend := seenPending s slot g
    let b := getBarrier s.cluster k
    let expected := if b.bound then b.e.getLsbD (memberBit s slot) else true
    let x := arrivalsOf s slot k expected
    if !isMemberOf s slot m then .done (groupReport m pend stNotMember)
    else if x.group.isSome ∧ x.group ≠ some g then .done (groupReport m pend stBound)
    else if x.now ∧ x.next then .stall
    else
      let phase := if expected && !x.now then b.phase else b.phase + 1
      .arrive g k phase (groupReport m pend 0 + phase.toNat * 2 ^ 32)

def execBarr (sb : BitVec 1) (p : BitVec 3) (d a b : BitVec 5) (s : State) : Out :=
  clWord sb p (fun h t =>
    match barrDecide t h.k (visS (archAt t h) a) (visS (archAt t h) b) with
    | .done x => withResult h d (w64 x) t id
    | .stall => .stall true t
    | .arrive g k _ x => withResult h d (w64 x) t (holdAt h (.arrive g k))) s

/-- The thread's wait at a barrier on a phase. -/
def waitsOn (s : State) (slot k : Nat) (phase : BitVec 32) : Bool :=
  (getBarrier s.cluster k).waits.any (fun w => decide (w.mem = memberBit s slot) && decide (w.phase = phase))

/-- Enter a wait on a phase (R191). -/
def addWait (s : State) (slot k : Nat) (phase : BitVec 32) : State :=
  let b := getBarrier s.cluster k
  setCluster s (setBarrier s.cluster k { b with waits := b.waits ++ [⟨memberBit s slot, phase, none⟩] })

/-- The wait goes on: the phase has not completed, or completed less than 4 cycles ago. -/
def mustWait (s : State) (slot k : Nat) (phase : BitVec 32) : Bool :=
  decide ((getBarrier s.cluster k).phase = phase) || waitsOn s slot k phase

def keepWait (s : State) (slot k : Nat) (phase : BitVec 32) : State :=
  if waitsOn s slot k phase then s else addWait s slot k phase

def execBwait (sb : BitVec 1) (p : BitVec 3) (d a b : BitVec 5) (s : State) : Out :=
  clWord sb p (fun h t =>
    let k := (visS (archAt t h) b).toNat
    let phase := (visS (archAt t h) a >>> 32).setWidth 32
    if 64 ≤ k then withResult h d (w64 stRange) t id
    else if mustWait t h.k k phase then .stall true (keepWait t h.k k phase)
    else withResult h d (w64 ((getBarrier t.cluster k).phase.toNat * 2 ^ 32)) t id) s

/-- The steps of FLIP have ended the clause, with the word done: the next clause begins behind it (R57). -/
def closeBehind (h : Here) (s : State) : State :=
  let n := advance (archAt s h) .seq
  closeClause (snapshotBanks (setArchAt s h n.1) h.k h.v (endsOf (archAt s h) n.2)) h.k h.v s.now false

/-- A word that has performed the steps of FLIP and needs no wait: its result belongs to the new clause. -/
def flipResult (h : Here) (ws : List Wr) (s : State) : Res := withWrites h ws (closeBehind h s) (fun t => .retire .keep false t)

/-- An arrival of a clause is on its way to its barrier (R195). -/
def arriving (s : State) (k cl : Nat) : Bool :=
  s.core.out.any (fun o => decide (o.slot = k) && decide (o.clause = cl) && (match o.eff with | .arrive _ _ => true | _ => false))

/-- A BARW that has waited for a place at its barrier arrives: its clause holds the arrival; once that has sealed it is released at
once (R192). What a rollback of later clauses returns to has arrived. -/
def arriveLate (s : State) (h : Here) (w : Wait) (g k : Nat) (phase : BitVec 32) (x : Word) : State :=
  let y : Wait := { w with items := [k, phase.toNat], val := x }
  let s1 := setArchAt s h { archAt s h with wait := some y }
  if unsealed s.core w.clause then
    hold (updClause s1 w.clause (fun c => { c with img := { c.img with wait := some y } })) h.k w.clause (.arrive g k)
  else
    let v := getVoice s1 h.k h.v
    let s2 := setVoice s1 h.k h.v { v with img := { v.img with wait := some y } }
    bumpId (releaseOne s2 ⟨freshId s2, h.k, w.clause, clockOf s2 h.k h.v, .arrive g k⟩)

/-- BARW: the steps of FLIP; then, as BARR, it waits while the thread has arrived for both phases; the wait is then that of a BWAIT,
and begins with the release of the arrival (R192). -/
def execBarw (sb : BitVec 1) (p : BitVec 3) (d a b : BitVec 5) (s : State) : Out :=
  clWord sb p (fun h t =>
    match (archAt t h).wait with
    | none =>
      withFlip h t (fun u =>
        match barrDecide u h.k (visS (archAt t h) a) (visS (archAt t h) b) with
        | .done x => flipResult h (clResult d (w64 x)) u
        | .stall => startWait h .barw [(visS (archAt t h) b).toNat, 0, (visS (archAt t h) a).toNat] d.toNat 0 u
        | .arrive g k phase x =>
          startWait h .barw [k, phase.toNat] d.toNat (w64 x) (holdAt h (.arrive g k) u))
    | some w =>
      let k := w.items.getD 0 0
      let phase := BitVec.ofNat 32 (w.items.getD 1 0)
      if 2 < w.items.length then
        match barrDecide t h.k (w64 (w.items.getD 2 0)) (w64 k) with
        | .done x => endWait h true (clResult (BitVec.ofNat 5 w.dest) (w64 x)) t
        | .stall => .stall true t
        | .arrive g _ ph x => .stall true (arriveLate t h w g k ph (w64 x))
      else if unsealed t.core w.clause || arriving t h.k w.clause then .stall true t
      else if mustWait t h.k k phase then .stall true (keepWait t h.k k phase)
      else endWait h true (clResult (BitVec.ofNat 5 w.dest) w.val) t) s

/-! ### Flags (R194) -/

/-- A flag target of FINC and FSET is allowed. -/
def targetOk (s : State) (k : Nat) (x : Word) : Bool :=
  decide (x.toNat < 2 ^ 14) && (!bit x.toNat 13 || (threadCtx s k).clusters.getLsbD (bits x.toNat 8 5))

/-- FINC and FSET: the operation is held, on the cluster the target names. -/
def flagWord (sb : BitVec 1) (p : BitVec 3) (d a b : BitVec 5) (e : Nat → BitVec 32 → Effect) (s : State) : Out :=
  clWord sb p (fun h t =>
    let x := visS (archAt t h) a
    if targetOk t h.k x then withResult h d 0 t (holdAt h (e x.toNat ((visS (archAt t h) b).setWidth 32)))
    else withResult h d (w64 stRange) t id) s

def execFinc (sb : BitVec 1) (p : BitVec 3) (d a b : BitVec 5) (s : State) : Out := flagWord sb p d a b .finc s

def execFset (sb : BitVec 1) (p : BitVec 3) (d a b : BitVec 5) (s : State) : Out := flagWord sb p d a b .fset s

def execFwait (sb : BitVec 1) (p : BitVec 3) (d a b : BitVec 5) (s : State) : Out :=
  clWord sb p (fun h t =>
    let f := (visS (archAt t h) a).toNat
    let x := flagOf t.cluster f
    if 256 ≤ f then withResult h d (w64 stRange) t id
    else if (x - (visS (archAt t h) b).setWidth 32).toNat < 2 ^ 31 then withResult h d (w64 (x.toNat * 2 ^ 32)) t id
    else .stall true t) s

def execFrd (sb : BitVec 1) (p : BitVec 3) (d a : BitVec 5) (s : State) : Out :=
  clWord sb p (fun h t =>
    let f := (visS (archAt t h) a).toNat
    if 256 ≤ f then withResult h d (w64 stRange) t id else withResult h d (w64 ((flagOf t.cluster f).toNat * 2 ^ 32)) t id) s

/-! ### Launches (R199, R200) -/

/-- The record's graph template and node exist. -/
def nodeKnown (c : Context) (r0 : Word) : Bool :=
  match mfind c.graphs (recGraph r0) with
  | some g => decide (recNode r0 < g.count)
  | none => false

/-- Reserve entries the task may still use: those its held launches have not taken. -/
def reserveLeft (s : State) (k : Nat) : Nat :=
  (getSlot s k).thread.reserve -
    ((ownEffects s k).filter (fun e => match e with | .launch _ _ _ _ r => r | _ => false)).length

/-- The doublewords of a launch record. -/
def recWord (bs : List Byte) (i : Nat) : Word := w64 (leNat ((bs.drop (8 * i)).take 8))

/-- LAUNCH waits for an entry where LAUNCHN reports FULL. -/
def launchWord (sb : BitVec 1) (p : BitVec 3) (d a : BitVec 5) (waits : Bool) (s : State) : Out :=
  clWord sb p (fun h t =>
    let ea := visS (archAt t h) a
    match spadLoadAddr (slotAt t h) ea.toNat 32 with
    | .error _ => .trap 0x0B ea t
    | .ok _ =>
      if ea.toNat % 32 ≠ 0 then .trap 0x0B ea t
      else
        withSpadLoad h ea 32 t (fun bs u =>
          let go (reserve : Bool) (u : State) : State :=
            holdAt h (.launch (recWord bs 0) (recWord bs 1) (recWord bs 2) (recWord bs 3) reserve) u
          if recReserved (recWord bs 3) then .trap 0x01 0 t
          else if !nodeKnown (threadCtx u h.k) (recWord bs 0) then withResult h d (w64 stRange) u id
          else if 0 < entriesFree u then withResult h d 0 u (go false)
          else if 0 < reserveLeft u h.k then withResult h d (w64 (2 ^ 8)) u (go true)
          else if waits then .stall true t
          else withResult h d (w64 stFull) u id)) s

def execLaunch (sb : BitVec 1) (p : BitVec 3) (d a : BitVec 5) (s : State) : Out := launchWord sb p d a true s

def execLaunchn (sb : BitVec 1) (p : BitVec 3) (d a : BitVec 5) (s : State) : Out := launchWord sb p d a false s

/-! ### Events (R198, R200) -/

/-- The window a scalar names: bits [63:2] are ignored. -/
def windowNum (x : Word) : Nat := x.toNat % 4

def execEvset (sb : BitVec 1) (p : BitVec 3) (a b : BitVec 5) (s : State) : Out :=
  clWord sb p (fun h t =>
    .retire .seq false (holdAt h (.evset (windowNum (visS (archAt t h) a)) (visS (archAt t h) b)) t)) s

def execEvclr (sb : BitVec 1) (p : BitVec 3) (a b : BitVec 5) (s : State) : Out :=
  clWord sb p (fun h t =>
    .retire .seq false (holdAt h (.evclr (windowNum (visS (archAt t h) a)) (visS (archAt t h) b)) t)) s

def execEvwait (sb : BitVec 1) (p : BitVec 3) (d a b : BitVec 5) (s : State) : Out :=
  clWord sb p (fun h t =>
    let x := eventWindow (threadCtx t h.k) (windowNum (visS (archAt t h) a))
    let m := visS (archAt t h) b
    if x &&& m = m then withResult h d x t id else .stall true t) s

/-! ### Pipelines (R201, R202) -/

/-- Tasks of a stage of a pipeline that remain: resident here, waiting in the queue, begun or not (DESIGN CHOICE, log entry 88), and
on the cluster's other cores. -/
def stageTasks (s : State) (p st : Nat) : Nat :=
  (s.cluster.away.filter (fun t => decide (t.stage = some (p, st)))).length +
    ([0, 1].filter (fun k => decide ((getSlot s k).run ≠ .empty) && decide (pipeOf (getSlot s k).thread = some (p, st)))).length +
    (s.cluster.queue.filter (fun q => decide (recStage s q = some (p, st)))).length

/-- Places of a queue that ENQ has reserved for items still to be released (R202). -/
def heldItems (s : State) (p st : Nat) : Nat :=
  ((pendingEffects s.core).filter (fun x => match x.2 with | .enq q r _ => decide (q = p) && decide (r = st) | _ => false)).length

/-- Items of a queue that DEQ has popped and retains (R177, R189). -/
def retainedItems (s : State) (p st : Nat) : Nat :=
  (s.core.held.filter (fun h => match h.eff with | .deq q r _ => decide (q = p) && decide (r = st) | _ => false)).length

/-- The input of a stage is closed: its close bit for stage 0, else the queue below it. -/
def inputClosed (s : State) (c : Context) (d : PipeDecl) (p : Nat) : Nat → Bool
  | 0 => c.events.getLsbD d.closeBit && decide (stageTasks s p 0 = 0)
  | n + 1 =>
    let q := getPipe s.cluster p n
    decide (q.items = []) && decide (q.overflow = []) && inputClosed s c d p n && decide (stageTasks s p n = 0)

/-- Items in the overflow area of a pipeline. -/
def overflowUsed (s : State) (p : Nat) : Nat :=
  ((List.range 8).map (fun st => (getPipe s.cluster p st).overflow.length)).sum

/-- Items still to be released that will go to the overflow area, as their queue has items there. -/
def heldOverflow (s : State) (p : Nat) : Nat :=
  ((List.range 8).map (fun st => if (getPipe s.cluster p st).overflow = [] then 0 else heldItems s p st)).sum

/-- An item finds room: in the queue, or behind the items in its overflow area (R202, R204). -/
def pipeRoom (s : State) (p st : Nat) (d : PipeDecl) : Bool :=
  let q := getPipe s.cluster p st
  if q.overflow = [] then decide (q.items.length + heldItems s p st < d.depths.getD st 1)
  else decide (overflowUsed s p + heldOverflow s p < d.overItems)

/-- The declaration of a thread's pipeline with its place. -/
def pipeAt (s : State) (k : Nat) : Option (Nat × Nat × PipeDecl) :=
  match pipeOf (getSlot s k).thread with
  | none => none
  | some (p, st) => (pipeDecl s (getSlot s k).thread.ctx p).map (fun d => (p, st, d))

def execEnq (sb : BitVec 1) (p : BitVec 3) (d a : BitVec 5) (s : State) : Out :=
  clWord sb p (fun h t =>
    match pipeAt t h.k with
    | none => withResult h d (w64 stNoStage) t id
    | some (pl, st, dc) =>
      if dc.nodes.length ≤ st + 1 then withResult h d (w64 stNoStage) t id
      else if pipeRoom t pl st dc then withResult h d 0 t (holdAt h (.enq pl st (visS (archAt t h) a)))
      else .stall true t) s

/-- Take the head of a queue, whose overflow returns as room frees (R204). -/
def popPipe (s : State) (p st depth : Nat) : State :=
  setCluster s (setPipe s.cluster p st (pipePop depth (getPipe s.cluster p st)))

def deqWrites (d : BitVec 5) (k : BitVec 3) (x : Word) (ok : Bool) : List Wr :=
  [⟨.s d.toNat, row64 x, 2⟩, ⟨.p k.toNat, row1 ok, 2⟩]

def execDeq (sb : BitVec 1) (p : BitVec 3) (d : BitVec 5) (k : BitVec 3) (s : State) : Out :=
  clWord sb p (fun h t =>
    let nothing : Res := withWrites h (deqWrites d k 0 false) t (fun u => .retire .seq false u)
    match pipeAt t h.k with
    | none => nothing
    | some (_, 0, _) => nothing
    | some (pl, st + 1, dc) =>
      match pipeHead (getPipe t.cluster pl st) with
      | some x =>
        if dc.depths.getD st 1 ≤ retainedItems t pl st then .stall true t
        else withWrites h (deqWrites d k x true) t (fun u =>
          .retire .seq false (popPipe (holdAt h (.deq pl st x) u) pl st (dc.depths.getD st 1)))
      | none => if inputClosed t (threadCtx t h.k) dc pl (st + 1) then nothing else .stall true t) s

/-! ### YIELD and TASKINFO (R205, Table 12.7) -/

/-- A ready record of the context waits for a slot. -/
def readyWaits (s : State) (c : Nat) : Bool := s.cluster.queue.any (fun q => decide (q.ctx = c) && recReady (getCtx s c) q.r1 q.r3)

def execYield (sb : BitVec 1) (p : BitVec 3) (s : State) : Out :=
  clWord sb p (fun h t =>
    let x := slotAt t h
    if readyWaits t x.thread.ctx then .retire .seq false (setSlot t h.k { x with pendPreempt := true, yielded := true })
    else .retire .seq false t) s

def taskInfo (s : State) (k sel : Nat) : Word :=
  let x := getSlot s k
  match sel with
  | 0 => x.thread.rec0
  | 1 => x.thread.tag.setWidth 64
  | 2 => (x.thread.stage &&& 0x1FF).setWidth 64
  | 3 => w64 (s.core.index + k * 2 ^ 8)
  | 4 => if x.thread.estimate.toNat < x.scyc.toNat then 0 else x.thread.estimate - x.scyc
  | 5 => w64 (x.thread.ctx % 2 ^ 12)
  | _ => w64 (memberBit s k)

def execTaskinfo (sb : BitVec 1) (p : BitVec 3) (d k : BitVec 5) (s : State) : Out :=
  clWord sb p (fun h t => withResult h d (taskInfo t h.k k.toNat) t id) s

end Sys2Proof.Machine
end

