-- ==== Sys2Proof/Machine/Template.lean ====
section
/-! DEFINITION. Templates: their fields (R139), patches (R140, R142), what TPL accepts (R141), the operands of a command and
the checks of its issue (R143, R118, R158). -/

namespace Sys2Proof.Machine

/-! ### Fields (Tables 9.1 to 9.4) -/

/-- Bits [lo + n - 1 : lo] of field `k`. -/
def tf (t : BitVec 1024) (k lo n : Nat) : Nat := bits t.toNat (64 * k + lo) n

def tEng (t : BitVec 1024) : Nat := tf t 0 0 4
def tOp (t : BitVec 1024) : Nat := tf t 0 4 8
def tFollow (t : BitVec 1024) : Nat := tf t 0 12 6
def tFv (t : BitVec 1024) : Nat := tf t 0 18 1
def tCc (t : BitVec 1024) : Nat := tf t 0 19 3
def tEw (t : BitVec 1024) : Nat := tf t 0 22 2
def tWait (t : BitVec 1024) : Word := w64 (tf t 1 0 64)
def tSignal (t : BitVec 1024) : Word := w64 (tf t 2 0 64)
def tSrc (t : BitVec 1024) : Nat := tf t 3 0 64
def tDst (t : BitVec 1024) : Nat := tf t 4 0 64
def tExt (t : BitVec 1024) (i : Nat) : Nat := tf t 5 (32 * i) 32
def tSrcStep (t : BitVec 1024) (i : Nat) : Int := sextInt 32 (tf t 7 (32 * i) 32)
def tDstStep (t : BitVec 1024) (i : Nat) : Int := sextInt 32 (tf t 9 (32 * i) 32)
def tSsp (t : BitVec 1024) : Nat := tf t 11 0 2
def tDsp (t : BitVec 1024) : Nat := tf t 11 2 2
def tEsz (t : BitVec 1024) : Nat := 2 ^ tf t 11 12 2
def tRing (t : BitVec 1024) : Nat := tf t 11 20 4
def tPme (t : BitVec 1024) : Nat := tf t 11 24 6
def tPm (t : BitVec 1024) : Bool := decide (tf t 11 30 1 = 1)
def tSc (t : BitVec 1024) : Bool := decide (tf t 11 31 1 = 1)
def tAf (t : BitVec 1024) : Nat := tf t 12 0 4
def tBf (t : BitVec 1024) : Nat := tf t 12 4 4
def tTile (t : BitVec 1024) : Nat := tf t 12 8 3
def tAcc (t : BitVec 1024) : Bool := decide (tf t 12 11 1 = 1)
def tP (t : BitVec 1024) : Nat := tf t 12 12 6
def tBank (t : BitVec 1024) : Nat := tf t 12 18 1
def tKs (t : BitVec 1024) : Nat := tf t 12 19 2
def tRow0 (t : BitVec 1024) : Nat := tf t 12 21 6
def tN (t : BitVec 1024) : Nat := tf t 12 27 7
def tNin (t : BitVec 1024) : Nat := tf t 12 34 7
def tAff (t : BitVec 1024) : Bool := decide (tf t 12 41 1 = 1)
def tSel (t : BitVec 1024) : Bool := decide (tf t 12 42 1 = 1)
def tUpk (t : BitVec 1024) : Bool := decide (tf t 12 43 1 = 1)
def tKat (t : BitVec 1024) : Bool := decide (tf t 12 44 1 = 1)
def tKd (t : BitVec 1024) : Nat := tf t 12 45 3
def tLb (t : BitVec 1024) : Nat := tf t 12 48 3
def tLv (t : BitVec 1024) : Nat := tf t 12 51 2
def tHalf (t : BitVec 1024) : Nat := tf t 12 53 1
def tCbase (t : BitVec 1024) : Nat := tf t 13 0 23
def tVf (t : BitVec 1024) : Nat := tf t 13 32 2

/-- The key of template `k` of an engine, 1 copy, 2 array, 3 scatter. -/
def tmplKey (eng k : Nat) : Nat := 64 * eng + k

/-- The kinds of command: an array command by its opcode. -/
def isArr (t : BitVec 1024) (op : Nat) : Bool := decide (tEng t = 2) && decide (tOp t = op)

def isCopyf (t : BitVec 1024) : Bool := decide (tEng t = 1) && decide (tOp t = 2)

/-- A command with a scatter destination (R196). -/
def scatters (t : BitVec 1024) : Bool := decide (tEng t = 3) || (isArr t 6 && tSc t)

/-! ### What TPL accepts (R141) -/

def opKnown (eng op : Nat) : Bool :=
  match eng with
  | 1 => decide (1 ≤ op) && decide (op ≤ 2)
  | 2 => decide (1 ≤ op) && decide (op ≤ 7)
  | 3 => decide (1 ≤ op) && decide (op ≤ 2)
  | _ => false

/-- The bits of each field that Tables 9.1 to 9.4 do not assign. -/
def reservedMasks : List (Nat × Nat) :=
  [(0, 0xFFFF0000FF000000), (11, 0xFFFFFFFF000FCFF0), (12, 0xFFC0000000000000), (13, 0xFFFFFFFCFF800000),
   (15, 0xFFFFFFFFFFFFFFFF)]

/-- No field has a bit of its mask set. -/
def maskClear (t : BitVec 1024) (ms : List (Nat × Nat)) : Bool := ms.all (fun p => decide (tf t p.1 0 64 &&& p.2 = 0))

/-- Byte `k` of the patch map (R140). -/
def patchByte (t : BitVec 1024) (k : Nat) : Nat := tf t 14 (8 * k) 8

def slotAllowed (n : Nat) : Bool := decide (n ≠ 2) && decide (n ≠ 3) && decide (n < 56)

def patchMapOk (t : BitVec 1024) : Bool :=
  decide (patchByte t 0 = 0) &&
    ((List.range 8).drop 1).all (fun k =>
      let b := patchByte t k
      decide (bits b 6 1 = 0) && (decide (bits b 7 1 = 0) || slotAllowed (bits b 0 6)))

/-- A template that engine `e` may hold. -/
def templateOk (t : BitVec 1024) (e : Nat) : Bool :=
  decide (tEng t = e) && opKnown e (tOp t) && decide (tFv t = if e = 1 ∧ tOp t = 2 then 1 else 0) &&
    maskClear t reservedMasks && patchMapOk t

/-- A template with [lo + n - 1 : lo] of a field replaced. -/
def tfSet (t : BitVec 1024) (k lo n x : Nat) : BitVec 1024 :=
  let at_ := 64 * k + lo
  BitVec.ofNat 1024 (bits t.toNat 0 at_ + x % 2 ^ n * 2 ^ at_ + t.toNat / 2 ^ (at_ + n) * 2 ^ (at_ + n))

def tTag (t : BitVec 1024) : Nat := bits t.toNat 32 16

def withTag (t : BitVec 1024) (tag : BitVec 16) : BitVec 1024 := tfSet t 0 32 16 tag.toNat

/-- The patch of field-select code `f` with value `v` (R142). -/
def patched (t : BitVec 1024) (f : Nat) (v : BitVec 16) : BitVec 1024 :=
  let b := patchByte t f
  if f ≠ 0 ∧ bits b 7 1 = 1 then tfSet t 0 (16 * bits b 0 6) 16 v.toNat else t

/-! ### Fields a command does not use (Table 9.5) -/

/-- The bits of F12 a command may set. -/
def used12 (op : Nat) : Nat :=
  let n := 0x00000003F8000000
  let row0 := 0x0000000007E00000
  let bank := 0x0000000000040000
  let kat := 0x0000F00000000000
  let nin := 0x000001FC00000000
  let aff := 0x0000020000000000
  let sel := 0x0000040000000000
  match op with
  | 1 => 0xF0 ||| bank ||| row0 ||| n ||| sel
  | 2 => 0xFF ||| 0x700 ||| 0x800 ||| 0x3F000 ||| bank ||| 0x180000 ||| row0 ||| n ||| kat
  | 3 => 0xFF ||| 0x700 ||| 0x800 ||| bank ||| row0 ||| n ||| nin ||| aff ||| kat
  | 4 => 0xFF ||| 0x800 ||| bank ||| n ||| nin ||| aff ||| kat
  | 5 => 0xF0 ||| bank ||| row0 ||| n ||| 0x0000080000000000
  | 6 => 0x700 ||| 0x800 ||| row0 ||| n ||| sel ||| kat
  | _ => 0x700 ||| row0 ||| n ||| 0x003F000000000000

def all64 : Nat := 0xFFFFFFFFFFFFFFFF

/-- The bits of F3 to F13 a command may set, by field. ARR.DRAIN may set RING, which Table 9.5 does not list for it and R165 lets it
name, whatever DSP is (DEDUCED, log entry 96). -/
def usedBits (t : BitVec 1024) : Nat → Nat :=
  fun k =>
    if tEng t = 1 then (if k ≤ 10 then all64 else if k = 11 then 0x7FFFFFFF else 0)
    else if tEng t = 3 then
      (match k with
       | 3 => all64
       | 4 => all64
       | 5 => 0xFFFFFFFF
       | 11 => 0x3
       | 13 => all64
       | _ => 0)
    else
      let src := decide (tOp t < 5)
      let dst := decide (tOp t = 4) || decide (tOp t = 6)
      match k with
      | 3 => if src then all64 else 0
      | 4 => if dst then all64 else 0
      | 7 => if src then 0xFFFFFFFF else 0
      | 9 => if dst then 0xFFFFFFFF else 0
      | 11 => if src then 0xF00003 else if tOp t = 6 then 0xFFF0000C else 0
      | 12 => used12 (tOp t)
      | 13 => if tOp t = 6 ∧ tSc t = true then all64 else 0
      | _ => 0

/-- Fields that a command does not use are zero. F0 to F2 are common to all commands: a follow-on index beside a command other than COPYF
is no error (DESIGN CHOICE, log entry 97). -/
def unusedClear (t : BitVec 1024) : Bool :=
  ((List.range 14).drop 3).all (fun k => decide (tf t k 0 64 &&& (all64 ^^^ usedBits t k) = 0))

/-! ### The checks of the issue (R143) -/

/-- Table 7.9 lists the pair for the command (R118). -/
def pairOk (op af bf : Nat) : Bool :=
  if op = 2 then
    (decide (af = 0) && decide (bf < 4)) || (decide (1 ≤ af) && decide (af ≤ 4) && decide (bf < 4))
  else if op = 3 ∨ op = 4 then decide (af = 5) && decide (bf = 0)
  else if op = 5 then decide (bf = 0)
  else decide (bf < 4)

/-- The K-pack of a pair (R118). -/
def kpack (af bf : Nat) : Nat :=
  if af = 0 ∨ bf = 0 then 4 else if af = 3 ∨ af = 4 ∨ bf = 3 then 16 else 8

/-- Values in a row of A of an ARR.MM (R156). -/
def rowElems (t : BitVec 1024) : Nat := (tKs t + 1) * 64 * kpack (tAf t) (tBf t)

/-- Bytes of a row of A in its format (R107, R156). -/
def rowBytes (t : BitVec 1024) : Nat :=
  match tAf t with
  | 0 => 2 * rowElems t
  | 3 => rowElems t / 16 * 10
  | 4 => rowElems t / 32 * 18
  | _ => rowElems t

/-- Bytes of one source row of an array command. -/
def srcRowBytes (t : BitVec 1024) : Nat :=
  if tOp t = 1 then (if tSel t then 512 else 64 * (if tBf t = 3 then 40 else 32))
  else if tOp t = 2 then rowBytes t
  else 256

/-- Bytes of one destination row of an ARR.DRAIN. -/
def dstRowBytes (t : BitVec 1024) : Nat := if tSel t then 4096 else 256

/-- Source rows a command reads. -/
def srcRows (t : BitVec 1024) : Nat := if tOp t = 1 ∧ tSel t = true then 1 else tN t

def copyCount (t : BitVec 1024) : Nat := tExt t 0 * tExt t 1 * tExt t 2 * tExt t 3

/-- ILLEGAL field values of an array command. -/
def arrIllegal (t : BitVec 1024) : Bool :=
  let op := tOp t
  decide (tN t = 0) || decide (64 < tN t) || decide (64 < tRow0 t + tN t) ||
  (decide (op = 2) && (decide (tP t = 0) || (decide (1 < tKs t) && decide (3 ≤ tAf t) && decide (1 ≤ tBf t) && decide (tBf t ≤ 2)))) ||
  ((decide (op = 3) || decide (op = 4)) && (decide (tNin t = 0) || decide (64 < tNin t))) ||
  (decide (op < 6) && !pairOk op (tAf t) (tBf t)) ||
  (decide (op < 5) && decide (tSsp t ≠ 0) && decide (tSsp t ≠ 3)) ||
  (decide (op = 1) && tSel t && (decide (tRow0 t ≠ 0) || decide (tN t ≠ 64))) ||
  (decide (op = 6) && tSc t && (decide (tVf t ≠ 0) || decide (tCbase t % 4 ≠ 0))) ||
  (decide (op = 7) && (decide (tN t ≠ 1) || decide (tLv t = 0) || decide (tLv t = 3)))

def scatIllegal (t : BitVec 1024) : Bool :=
  decide (tExt t 0 = 0) || decide (1048576 < tExt t 0) || decide (tSsp t ≠ 0) || decide (1 < tVf t) ||
    decide (tCbase t % 4 ≠ 0)

/-- Bytes of one row of a ring; 0 where it is not configured. -/
def ringRow (r : Ring) : Nat := if r.lgsize = 0 then 0 else 2 ^ r.lgrow

/-- The bytes of a copy to a ring are whole rows of it, where it is configured (R151). -/
def wholeRows (c : Ctl) (t : BitVec 1024) : Bool :=
  let r := ringRow (getRing c (tRing t))
  decide (r = 0) || decide (copyCount t * tEsz t % r = 0)

def copyIllegal (c : Ctl) (t : BitVec 1024) : Bool :=
  decide (copyCount t = 0) || (decide (tDsp t = 3) && !wholeRows c t)

/-- The ILLEGAL checks of one template. -/
def fieldsIllegal (c : Ctl) (t : BitVec 1024) : Bool :=
  !unusedClear t ||
    (match tEng t with
     | 1 => copyIllegal c t
     | 2 => arrIllegal t
     | _ => scatIllegal t)

/-- KSTEP × KINV = 1 exactly, and KLO + KG × KSTEP stays finite (R159). -/
def gridOk (k : Knots) : Bool :=
  let p := (mulNum (decodeNum fp32 k.kstep.toNat) (decodeNum fp32 k.kinv.toNat)).1
  let top := (fmaNum false (.fin false k.kg.toNat 0) (decodeNum fp32 k.kstep.toNat) (decodeNum fp32 k.klo.toNat)).1
  eqNum p (.fin false 1 0) && decide ((roundNum fp32 0 top).1 % 2 ^ 31 < infBits fp32)

/-- KG ≤ 6 and KSTEP ÷ 2 normal (R159). -/
def refineOk (k : Knots) : Bool := decide (k.kg.toNat ≤ 6) && decide (2 ≤ bits k.kstep.toNat 23 8)

def knotBad (t : BitVec 1024) (k : Knots) : Bool :=
  ((isArr t 3 || isArr t 4) && !gridOk k) || (isArr t 5 && !refineOk k)

/-- An operand names a ring: as source, as destination. -/
def srcRing (t : BitVec 1024) : Bool :=
  (decide (tEng t = 1) || (decide (tEng t = 2) && decide (tOp t < 5))) && decide (tSsp t = 3)

def dstRing (t : BitVec 1024) : Bool :=
  (decide (tEng t = 1) || (isArr t 6 && !tSc t)) && decide (tDsp t = 3)

def namesRing (t : BitVec 1024) (k : Nat) : Bool := (srcRing t || dstRing t) && decide (tRing t = k)

def ringBad (c : Ctl) (t : BitVec 1024) : Bool := (srcRing t || dstRing t) && decide ((getRing c (tRing t)).lgsize = 0)

/-! ### Operands -/

/-- A memory operand: destination or source, its space, base, lowest and highest byte. -/
structure Opnd where
  dst : Bool
  space : Nat
  base : Nat
  low : Int
  high : Int
  deriving DecidableEq, Repr

/-- The extremes of an affine pattern are its corners (R91). -/
def spanOf (dst : Bool) (space base : Nat) (dims : List (Nat × Int)) (n : Nat) : Opnd :=
  ⟨dst, space, base, base + (dims.map (fun p => dimLow p.1 p.2)).sum, base + (dims.map (fun p => dimHigh p.1 p.2)).sum + (n - 1 : Nat)⟩

def copyDims (t : BitVec 1024) (step : Nat → Int) : List (Nat × Int) :=
  (List.range 4).map (fun i => (tExt t i, step i))

/-- The operands of a command: sources first. -/
def operandsOf (t : BitVec 1024) : List Opnd :=
  match tEng t with
  | 1 =>
    [spanOf false (tSsp t) (tSrc t) (copyDims t (tSrcStep t)) (tEsz t),
     spanOf true (tDsp t) (tDst t) (copyDims t (tDstStep t)) (tEsz t)]
  | 2 =>
    (if tOp t < 5 then [spanOf false (tSsp t) (tSrc t) [(srcRows t, tSrcStep t 0)] (srcRowBytes t)] else []) ++
    (if tOp t = 4 then [spanOf false 0 (tDst t) [(tN t, tDstStep t 0)] 256] else []) ++
    (if tOp t = 6 ∧ tSc t = false then [spanOf true (tDsp t) (tDst t) [(tN t, tDstStep t 0)] (dstRowBytes t)] else [])
  | _ =>
    [spanOf false 0 (tSrc t) [(tExt t 0, 4)] 4, spanOf false 0 (tDst t) [(tExt t 0, 4)] 4]

/-- Where a core-scratchpad operand lies: its base after aperture resolution (R96), or the byte that fails (R143). -/
def resolveOpnd (y : Slot) (o : Opnd) : Except Int Nat :=
  match rangeOf y true o.low with
  | none => .error o.low
  | some (start, lim) =>
    if o.high < lim then
      if start < 0x01000000 then .ok o.base
      else
        let pb := (start - 0x01000000) / 0x100000
        .ok ((if o.dst then backBase y pb else frontBase y pb) + (o.base - start))
    else .error o.high

/-- The first scratchpad operand that fails. -/
def opndFault (y : Slot) : List Opnd → Option Int
  | [] => none
  | o :: r =>
    if o.space = 0 then
      match resolveOpnd y o with
      | .ok _ => opndFault y r
      | .error e => some e
    else opndFault y r

/-- Every check of R143 on one template: the cause and fault address of the first that fails. -/
def issueFault (c : Ctl) (k : Knots) (y : Slot) (t : BitVec 1024) : Option (Nat × Word) :=
  if fieldsIllegal c t then some (0x01, 0)
  else if knotBad t k then some (0x10, 0)
  else if ringBad c t then some (0x0B, 0)
  else (opndFault y (operandsOf t)).map (fun e => (0x0B, BitVec.ofInt 64 e))

/-- The follow-on template of a COPYF. -/
def followOf (c : Ctl) (t : BitVec 1024) : BitVec 1024 := sget c.templates (tmplKey 2 (tFollow t))

/-- The checks of a PIS: the template's own, and for COPYF those of its follow-on, which must be valid (R143). -/
def pisFault (c : Ctl) (k : Knots) (y : Slot) (e : Nat) (t : BitVec 1024) : Option (Nat × Word) :=
  if !templateOk t e then some (0x01, 0)
  else if isCopyf t && !templateOk (followOf c t) 2 then some (0x01, 0)
  else
    match issueFault c k y t with
    | some x => some x
    | none => if isCopyf t then issueFault c k y (followOf c t) else none

end Sys2Proof.Machine
end

