-- ==== Sys2Proof/Machine/Vector.lean ====
section
/-! DEFINITION. Vector words (R119, R120): integer (R131), floating point (R132), fused multiply-add (R133), conversions (R134),
block packing (R135), permutes and reductions (R115, R136), the spline basis (R137). -/

namespace Sys2Proof.Machine

/-! ### The shared effect (R119) -/

/-- What a word computes from the voice, its sources and the old destination. -/
abbrev VecFn := VoiceArch → List Row → Row → VRes

/-- The common effect of a V or V4 word: pops, the result in a register or a queue, flags at the latency. -/
def vecWord (sb c q : BitVec 1) (srcs : List (BitVec 5)) (d : BitVec 5) (lat : Nat) (f : VecFn) (s : State) : Out :=
  issue sb c .x false noIll alwaysLive (fun h t =>
    let qs := queuesOf h.v srcs
    withPops h qs t (fun hs =>
      let a := archAt t h
      let vals := srcs.map (vecOperand a h.v hs)
      let pop (u : State) : State := qs.foldl (popQueue h) u
      let after (u : State) (r : VRes) : Res := .retire .seq false (raiseFlags u h q r.flags lat)
      match dstQueue h.v d with
      | none =>
        let r := f a vals (visV a d.toNat)
        withWrites h [⟨.v d.toNat, r.row, lat⟩] t (fun u => after (pop u) r)
      | some x =>
        let r := f a vals 0
        match tryPush t h.k x with
        | .trap cause => .trap cause 0 t
        | .full => .stall false t
        | .drop => after (pop t) r
        | .room => after (pushQueue h x r.row lat (pop t)) r)) s

/-- A vector word that writes a mask or a scalar register. -/
def vecToReg (sb c q : BitVec 1) (srcs : List (BitVec 5)) (d : RegId) (lat : Nat) (f : VecFn) (s : State) : Out :=
  issue sb c .x false noIll alwaysLive (fun h t =>
    let qs := queuesOf h.v srcs
    withPops h qs t (fun hs =>
      let a := archAt t h
      let r := f a (srcs.map (vecOperand a h.v hs)) (faceGet a.vis d)
      withWrites h [⟨d, r.row, lat⟩] t (fun u =>
        .retire .seq false (raiseFlags (qs.foldl (popQueue h) u) h q r.flags lat)))) s

def src (vals : List Row) (i : Nat) : Row := vals.getD i 0

/-- A lane operation without flags. -/
def quiet (f : Nat → Nat) (i : Nat) : Nat × Flags := (f i, 0)

/-- Lanes of one source. -/
def unary (w : Nat) (m : BitVec 3) (f : Mode → Nat → Nat × Flags) : VecFn := fun a vals old =>
  perLane w (visM a m) old (fun i => f a.vrnd.toNat (lane w i (src vals 0)))

/-- Lanes of two sources. -/
def binary (w : Nat) (m : BitVec 3) (f : Mode → Nat → Nat → Nat × Flags) : VecFn := fun a vals old =>
  perLane w (visM a m) old (fun i => f a.vrnd.toNat (lane w i (src vals 0)) (lane w i (src vals 1)))

/-- Lanes of three sources. -/
def ternary (w : Nat) (m : BitVec 3) (f : Mode → Nat → Nat → Nat → Nat × Flags) : VecFn := fun a vals old =>
  perLane w (visM a m) old (fun i =>
    f a.vrnd.toNat (lane w i (src vals 0)) (lane w i (src vals 1)) (lane w i (src vals 2)))

/-- A compare of two sources into a mask. -/
def compare (w : Nat) (m : BitVec 3) (f : Nat → Nat → Bool × Flags) : VecFn := fun a vals old =>
  perMask w (visM a m) (old.setWidth 32) (fun i => f (lane w i (src vals 0)) (lane w i (src vals 1)))

/-! ### Integer words (Table 8.4) -/

/-- An integer lane operation wraps modulo 2^32 and raises no flag (R131). -/
def intOp (f : BitVec 32 → BitVec 32 → BitVec 32) (_ : Mode) (x y : Nat) : Nat × Flags :=
  ((f (BitVec.ofNat 32 x) (BitVec.ofNat 32 y)).toNat, 0)

def intRel (f : BitVec 32 → BitVec 32 → Bool) (x y : Nat) : Bool × Flags := (f (BitVec.ofNat 32 x) (BitVec.ofNat 32 y), 0)

/-- Bits [63:32] of the signed product. -/
def mulHigh32 (x y : BitVec 32) : BitVec 32 := BitVec.ofInt 32 (x.toInt * y.toInt / 2 ^ 32)

/-- Bits [63:32] of the unsigned product. -/
def mulHighN32 (x y : BitVec 32) : BitVec 32 := BitVec.ofNat 32 (x.toNat * y.toNat / 2 ^ 32)

/-- The count k = b[4:0]. -/
def laneShift (y : BitVec 32) : Nat := y.toNat % 32

def execVaddI32 (sb c : BitVec 1) (m : BitVec 3) (d a b : BitVec 5) (q : BitVec 1) (s : State) : Out :=
  vecWord sb c q [a, b] d 2 (binary 32 m (intOp (fun x y => x + y))) s

def execVsubI32 (sb c : BitVec 1) (m : BitVec 3) (d a b : BitVec 5) (q : BitVec 1) (s : State) : Out :=
  vecWord sb c q [a, b] d 2 (binary 32 m (intOp (fun x y => x - y))) s

def execVmulI32 (sb c : BitVec 1) (m : BitVec 3) (d a b : BitVec 5) (q : BitVec 1) (s : State) : Out :=
  vecWord sb c q [a, b] d 4 (binary 32 m (intOp (fun x y => x * y))) s

def execVmulhI32 (sb c : BitVec 1) (m : BitVec 3) (d a b : BitVec 5) (q : BitVec 1) (s : State) : Out :=
  vecWord sb c q [a, b] d 4 (binary 32 m (intOp (mulHigh32))) s

def execVmulhnI32 (sb c : BitVec 1) (m : BitVec 3) (d a b : BitVec 5) (q : BitVec 1) (s : State) : Out :=
  vecWord sb c q [a, b] d 4 (binary 32 m (intOp (mulHighN32))) s

def execVminI32 (sb c : BitVec 1) (m : BitVec 3) (d a b : BitVec 5) (q : BitVec 1) (s : State) : Out :=
  vecWord sb c q [a, b] d 2 (binary 32 m (intOp (fun x y => if x.slt y then x else y))) s

def execVmaxI32 (sb c : BitVec 1) (m : BitVec 3) (d a b : BitVec 5) (q : BitVec 1) (s : State) : Out :=
  vecWord sb c q [a, b] d 2 (binary 32 m (intOp (fun x y => if x.slt y then y else x))) s

def execVminnI32 (sb c : BitVec 1) (m : BitVec 3) (d a b : BitVec 5) (q : BitVec 1) (s : State) : Out :=
  vecWord sb c q [a, b] d 2 (binary 32 m (intOp (fun x y => if x.ult y then x else y))) s

def execVmaxnI32 (sb c : BitVec 1) (m : BitVec 3) (d a b : BitVec 5) (q : BitVec 1) (s : State) : Out :=
  vecWord sb c q [a, b] d 2 (binary 32 m (intOp (fun x y => if x.ult y then y else x))) s

def execVandI32 (sb c : BitVec 1) (m : BitVec 3) (d a b : BitVec 5) (q : BitVec 1) (s : State) : Out :=
  vecWord sb c q [a, b] d 2 (binary 32 m (intOp (fun x y => x &&& y))) s

def execVorI32 (sb c : BitVec 1) (m : BitVec 3) (d a b : BitVec 5) (q : BitVec 1) (s : State) : Out :=
  vecWord sb c q [a, b] d 2 (binary 32 m (intOp (fun x y => x ||| y))) s

def execVxorI32 (sb c : BitVec 1) (m : BitVec 3) (d a b : BitVec 5) (q : BitVec 1) (s : State) : Out :=
  vecWord sb c q [a, b] d 2 (binary 32 m (intOp (fun x y => x ^^^ y))) s

def execVshlI32 (sb c : BitVec 1) (m : BitVec 3) (d a b : BitVec 5) (q : BitVec 1) (s : State) : Out :=
  vecWord sb c q [a, b] d 2 (binary 32 m (intOp (fun x y => x <<< laneShift y))) s

def execVshrI32 (sb c : BitVec 1) (m : BitVec 3) (d a b : BitVec 5) (q : BitVec 1) (s : State) : Out :=
  vecWord sb c q [a, b] d 2 (binary 32 m (intOp (fun x y => x >>> laneShift y))) s

def execVsraI32 (sb c : BitVec 1) (m : BitVec 3) (d a b : BitVec 5) (q : BitVec 1) (s : State) : Out :=
  vecWord sb c q [a, b] d 2 (binary 32 m (intOp (fun x y => x.sshiftRight (laneShift y)))) s

def execVcmpeqI32 (sb c : BitVec 1) (m d : BitVec 3) (a b : BitVec 5) (q : BitVec 1) (s : State) : Out :=
  vecToReg sb c q [a, b] (.m d.toNat) 2 (compare 32 m (intRel (fun x y => decide (x = y)))) s

def execVcmpltI32 (sb c : BitVec 1) (m d : BitVec 3) (a b : BitVec 5) (q : BitVec 1) (s : State) : Out :=
  vecToReg sb c q [a, b] (.m d.toNat) 2 (compare 32 m (intRel (fun x y => x.slt y))) s

def execVcmpltnI32 (sb c : BitVec 1) (m d : BitVec 3) (a b : BitVec 5) (q : BitVec 1) (s : State) : Out :=
  vecToReg sb c q [a, b] (.m d.toNat) 2 (compare 32 m (intRel (fun x y => x.ult y))) s

/-- VSEL: m is the selector, and every lane is written (R131). -/
def selectLanes (m : BitVec 3) : VecFn := fun a vals _ =>
  perLane 32 (BitVec.allOnes 32) 0 (quiet (fun i =>
    if (visM a m).getLsbD i then lane 32 i (src vals 0) else lane 32 i (src vals 1)))

def execVsel (sb c : BitVec 1) (m : BitVec 3) (d a b : BitVec 5) (q : BitVec 1) (s : State) : Out :=
  vecWord sb c q [a, b] d 2 (selectLanes m) s

/-! ### Floating-point words (Table 8.5) -/

def absLane (f : Fmt) (_ : Mode) (x : Nat) : Nat × Flags := (fAbs f x, 0)

def negLane (f : Fmt) (_ : Mode) (x : Nat) : Nat × Flags := (fNeg f x, 0)

def minLane (f : Fmt) (_ : Mode) (x y : Nat) : Nat × Flags := fMinMax f false x y

def maxLane (f : Fmt) (_ : Mode) (x y : Nat) : Nat × Flags := fMinMax f true x y

def execVaddF32 (sb c : BitVec 1) (m : BitVec 3) (d a b : BitVec 5) (q : BitVec 1) (s : State) : Out :=
  vecWord sb c q [a, b] d 4 (binary 32 m (fAdd fp32)) s

def execVsubF32 (sb c : BitVec 1) (m : BitVec 3) (d a b : BitVec 5) (q : BitVec 1) (s : State) : Out :=
  vecWord sb c q [a, b] d 4 (binary 32 m (fSub fp32)) s

def execVmulF32 (sb c : BitVec 1) (m : BitVec 3) (d a b : BitVec 5) (q : BitVec 1) (s : State) : Out :=
  vecWord sb c q [a, b] d 4 (binary 32 m (fMul fp32)) s

def execVminF32 (sb c : BitVec 1) (m : BitVec 3) (d a b : BitVec 5) (q : BitVec 1) (s : State) : Out :=
  vecWord sb c q [a, b] d 4 (binary 32 m (minLane fp32)) s

def execVmaxF32 (sb c : BitVec 1) (m : BitVec 3) (d a b : BitVec 5) (q : BitVec 1) (s : State) : Out :=
  vecWord sb c q [a, b] d 4 (binary 32 m (maxLane fp32)) s

def execVabsF32 (sb c : BitVec 1) (m : BitVec 3) (d a : BitVec 5) (q : BitVec 1) (s : State) : Out :=
  vecWord sb c q [a] d 2 (unary 32 m (absLane fp32)) s

def execVnegF32 (sb c : BitVec 1) (m : BitVec 3) (d a : BitVec 5) (q : BitVec 1) (s : State) : Out :=
  vecWord sb c q [a] d 2 (unary 32 m (negLane fp32)) s

def execVcmpeqF32 (sb c : BitVec 1) (m d : BitVec 3) (a b : BitVec 5) (q : BitVec 1) (s : State) : Out :=
  vecToReg sb c q [a, b] (.m d.toNat) 2 (compare 32 m (fEq fp32)) s

def execVcmpltF32 (sb c : BitVec 1) (m d : BitVec 3) (a b : BitVec 5) (q : BitVec 1) (s : State) : Out :=
  vecToReg sb c q [a, b] (.m d.toNat) 2 (compare 32 m (fLt fp32)) s

def execVcmpleF32 (sb c : BitVec 1) (m d : BitVec 3) (a b : BitVec 5) (q : BitVec 1) (s : State) : Out :=
  vecToReg sb c q [a, b] (.m d.toNat) 2 (compare 32 m (fLe fp32)) s

def execVaddF16 (sb c : BitVec 1) (m : BitVec 3) (d a b : BitVec 5) (q : BitVec 1) (s : State) : Out :=
  vecWord sb c q [a, b] d 4 (binary 16 m (fAdd fp16)) s

def execVsubF16 (sb c : BitVec 1) (m : BitVec 3) (d a b : BitVec 5) (q : BitVec 1) (s : State) : Out :=
  vecWord sb c q [a, b] d 4 (binary 16 m (fSub fp16)) s

def execVmulF16 (sb c : BitVec 1) (m : BitVec 3) (d a b : BitVec 5) (q : BitVec 1) (s : State) : Out :=
  vecWord sb c q [a, b] d 4 (binary 16 m (fMul fp16)) s

def execVminF16 (sb c : BitVec 1) (m : BitVec 3) (d a b : BitVec 5) (q : BitVec 1) (s : State) : Out :=
  vecWord sb c q [a, b] d 4 (binary 16 m (minLane fp16)) s

def execVmaxF16 (sb c : BitVec 1) (m : BitVec 3) (d a b : BitVec 5) (q : BitVec 1) (s : State) : Out :=
  vecWord sb c q [a, b] d 4 (binary 16 m (maxLane fp16)) s

def execVabsF16 (sb c : BitVec 1) (m : BitVec 3) (d a : BitVec 5) (q : BitVec 1) (s : State) : Out :=
  vecWord sb c q [a] d 2 (unary 16 m (absLane fp16)) s

def execVnegF16 (sb c : BitVec 1) (m : BitVec 3) (d a : BitVec 5) (q : BitVec 1) (s : State) : Out :=
  vecWord sb c q [a] d 2 (unary 16 m (negLane fp16)) s

def execVcmpeqF16 (sb c : BitVec 1) (m d : BitVec 3) (a b : BitVec 5) (q : BitVec 1) (s : State) : Out :=
  vecToReg sb c q [a, b] (.m d.toNat) 2 (compare 16 m (fEq fp16)) s

def execVcmpltF16 (sb c : BitVec 1) (m d : BitVec 3) (a b : BitVec 5) (q : BitVec 1) (s : State) : Out :=
  vecToReg sb c q [a, b] (.m d.toNat) 2 (compare 16 m (fLt fp16)) s

def execVcmpleF16 (sb c : BitVec 1) (m d : BitVec 3) (a b : BitVec 5) (q : BitVec 1) (s : State) : Out :=
  vecToReg sb c q [a, b] (.m d.toNat) 2 (compare 16 m (fLe fp16)) s

def execVaddBf16 (sb c : BitVec 1) (m : BitVec 3) (d a b : BitVec 5) (q : BitVec 1) (s : State) : Out :=
  vecWord sb c q [a, b] d 4 (binary 16 m (fAdd bf16)) s

def execVsubBf16 (sb c : BitVec 1) (m : BitVec 3) (d a b : BitVec 5) (q : BitVec 1) (s : State) : Out :=
  vecWord sb c q [a, b] d 4 (binary 16 m (fSub bf16)) s

def execVmulBf16 (sb c : BitVec 1) (m : BitVec 3) (d a b : BitVec 5) (q : BitVec 1) (s : State) : Out :=
  vecWord sb c q [a, b] d 4 (binary 16 m (fMul bf16)) s

def execVminBf16 (sb c : BitVec 1) (m : BitVec 3) (d a b : BitVec 5) (q : BitVec 1) (s : State) : Out :=
  vecWord sb c q [a, b] d 4 (binary 16 m (minLane bf16)) s

def execVmaxBf16 (sb c : BitVec 1) (m : BitVec 3) (d a b : BitVec 5) (q : BitVec 1) (s : State) : Out :=
  vecWord sb c q [a, b] d 4 (binary 16 m (maxLane bf16)) s

def execVabsBf16 (sb c : BitVec 1) (m : BitVec 3) (d a : BitVec 5) (q : BitVec 1) (s : State) : Out :=
  vecWord sb c q [a] d 2 (unary 16 m (absLane bf16)) s

def execVnegBf16 (sb c : BitVec 1) (m : BitVec 3) (d a : BitVec 5) (q : BitVec 1) (s : State) : Out :=
  vecWord sb c q [a] d 2 (unary 16 m (negLane bf16)) s

def execVcmpeqBf16 (sb c : BitVec 1) (m d : BitVec 3) (a b : BitVec 5) (q : BitVec 1) (s : State) : Out :=
  vecToReg sb c q [a, b] (.m d.toNat) 2 (compare 16 m (fEq bf16)) s

def execVcmpltBf16 (sb c : BitVec 1) (m d : BitVec 3) (a b : BitVec 5) (q : BitVec 1) (s : State) : Out :=
  vecToReg sb c q [a, b] (.m d.toNat) 2 (compare 16 m (fLt bf16)) s

def execVcmpleBf16 (sb c : BitVec 1) (m d : BitVec 3) (a b : BitVec 5) (q : BitVec 1) (s : State) : Out :=
  vecToReg sb c q [a, b] (.m d.toNat) 2 (compare 16 m (fLe bf16)) s

/-! ### Fused multiply-add (R133) -/

def execVfmaF32 (sb c : BitVec 1) (m : BitVec 3) (d a b e : BitVec 5) (q : BitVec 1) (s : State) : Out :=
  vecWord sb c q [a, b, e] d 5 (ternary 32 m (fFma fp32)) s

def execVfmsF32 (sb c : BitVec 1) (m : BitVec 3) (d a b e : BitVec 5) (q : BitVec 1) (s : State) : Out :=
  vecWord sb c q [a, b, e] d 5 (ternary 32 m (fFms fp32)) s

def execVfmaBf16 (sb c : BitVec 1) (m : BitVec 3) (d a b e : BitVec 5) (q : BitVec 1) (s : State) : Out :=
  vecWord sb c q [a, b, e] d 5 (ternary 16 m (fFma bf16)) s

def execVfmaF16 (sb c : BitVec 1) (m : BitVec 3) (d a b e : BitVec 5) (q : BitVec 1) (s : State) : Out :=
  vecWord sb c q [a, b, e] d 5 (ternary 16 m (fFma fp16)) s

/-! ### Conversions (R134) -/

/-- The rounding of an RM field: 0 is VRND (R45). -/
def rmMode (a : VoiceArch) (r : BitVec 3) : Mode := if r = 0 then a.vrnd.toNat else r.toNat - 1

/-- Between f32 and i32, lane by lane. -/
def sameWidth (m r : BitVec 3) (f : Mode → Nat → Nat × Flags) : VecFn := fun a vals old =>
  perLane 32 (visM a m) old (fun i => f (rmMode a r) (lane 32 i (src vals 0)))

/-- Widening from lane 32P + i of `w` bits. -/
def widening (w part : Nat) (m : BitVec 3) (f : Fmt) : VecFn := fun a vals old =>
  perLane 32 (visM a m) old (fun i => fConvert f fp32 0 (lane w (32 * part + i) (src vals 0)))

/-- Narrowing into lane 32P + i of `w` bits; the other lanes, and those not live, keep the old destination. -/
def narrowing (w part : Nat) (m r : BitVec 3) (f : Fmt) : VecFn := fun a vals old =>
  let mask := visM a m
  let one (i : Nat) : Nat × Flags :=
    if mask.getLsbD i then fConvert fp32 f (rmMode a r) (lane 32 i (src vals 0)) else (lane w (32 * part + i) old, 0)
  let rs := (List.range 32).map one
  ⟨rowOf w ((List.range (1024 / w)).map (fun j =>
      if 32 * part ≤ j ∧ j < 32 * part + 32 then (rs.getD (j - 32 * part) (0, 0)).1 else lane w j old)),
    laneFlags 32 0 (rs.map (fun r => r.2))⟩

/-- The conversions raise their flags whatever bit q is (DEDUCED from R120, log entry 94). -/
def execVcvtF32I32 (sb c : BitVec 1) (m : BitVec 3) (d a : BitVec 5) (r : BitVec 3) (_q : BitVec 1) (s : State) : Out :=
  vecWord sb c 0 [a] d 3 (sameWidth m r intToF) s

def execVcvtI32F32 (sb c : BitVec 1) (m : BitVec 3) (d a : BitVec 5) (r : BitVec 3) (_q : BitVec 1) (s : State) : Out :=
  vecWord sb c 0 [a] d 3 (sameWidth m r fToInt) s

def execVcvtF32F16 (sb c : BitVec 1) (m : BitVec 3) (d a : BitVec 5) (x : BitVec 1) (_q : BitVec 1) (s : State) : Out :=
  vecWord sb c 0 [a] d 3 (widening 16 x.toNat m fp16) s

def execVcvtF32Bf16 (sb c : BitVec 1) (m : BitVec 3) (d a : BitVec 5) (x : BitVec 1) (_q : BitVec 1) (s : State) : Out :=
  vecWord sb c 0 [a] d 3 (widening 16 x.toNat m bf16) s

def execVcvtF32E4m3 (sb c : BitVec 1) (m : BitVec 3) (d a : BitVec 5) (x : BitVec 2) (_q : BitVec 1) (s : State) : Out :=
  vecWord sb c 0 [a] d 3 (widening 8 x.toNat m e4m3) s

def execVcvtF32E5m2 (sb c : BitVec 1) (m : BitVec 3) (d a : BitVec 5) (x : BitVec 2) (_q : BitVec 1) (s : State) : Out :=
  vecWord sb c 0 [a] d 3 (widening 8 x.toNat m e5m2) s

def execVcvtF16F32 (sb c : BitVec 1) (m : BitVec 3) (d a : BitVec 5) (x : BitVec 1) (r : BitVec 3) (_q : BitVec 1) (s : State) : Out :=
  vecWord sb c 0 [a] d 3 (narrowing 16 x.toNat m r fp16) s

def execVcvtBf16F32 (sb c : BitVec 1) (m : BitVec 3) (d a : BitVec 5) (x : BitVec 1) (r : BitVec 3) (_q : BitVec 1) (s : State) : Out :=
  vecWord sb c 0 [a] d 3 (narrowing 16 x.toNat m r bf16) s

def execVcvtE4m3F32 (sb c : BitVec 1) (m : BitVec 3) (d a : BitVec 5) (x : BitVec 2) (r : BitVec 3) (_q : BitVec 1) (s : State) : Out :=
  vecWord sb c 0 [a] d 3 (narrowing 8 x.toNat m r e4m3) s

def execVcvtE5m2F32 (sb c : BitVec 1) (m : BitVec 3) (d a : BitVec 5) (x : BitVec 2) (r : BitVec 3) (_q : BitVec 1) (s : State) : Out :=
  vecWord sb c 0 [a] d 3 (narrowing 8 x.toNat m r e5m2) s

/-! ### Block packing (R135) -/

/-- Code `i` of quarter `part`: byte 2 + i ÷ 2 of the quarter, the even element low (R107). -/
def quarterCode (part i : Nat) (x : Row) : Nat := bits x.toNat (256 * part + 16 + 4 * i) 4

/-- VPACK.b4: the quarter is its header, the codes and 14 zero bytes; the other quarters stay. -/
def packBlock (part : Nat) (m : BitVec 3) : VecFn := fun a vals old =>
  let mask := visM a m
  let sbyte := bits old.toNat (256 * part) 8
  let z := bits old.toNat (256 * part + 8) 8
  let one (i : Nat) : Nat × Flags :=
    if mask.getLsbD i then blockEncode sbyte z (lane 32 i (src vals 0)) else (quarterCode part i old, 0)
  let rs := (List.range 32).map one
  let quarter := sbyte + 2 ^ 8 * z + 2 ^ 16 * joinLanes 4 (rs.map (fun r => r.1))
  ⟨rowOf 256 ((List.range 4).map (fun j => if j = part then quarter else lane 256 j old)), laneFlags 32 0 (rs.map (fun r => r.2))⟩

/-- VUNPACK.b4: element i of the quarter, decoded exactly (R108). -/
def unpackBlock (part : Nat) (m : BitVec 3) : VecFn := fun a vals old =>
  let v := src vals 0
  perLane 32 (visM a m) old (quiet (fun i =>
    blockDecode (bits v.toNat (256 * part) 8) (bits v.toNat (256 * part + 8) 8) (quarterCode part i v)))

/-- The flags of the encoding come whatever bit q is (DEDUCED from R120, log entry 94). -/
def execVpackB4 (sb c : BitVec 1) (m : BitVec 3) (d a : BitVec 5) (x : BitVec 2) (_q : BitVec 1) (s : State) : Out :=
  vecWord sb c 0 [a] d 4 (packBlock x.toNat m) s

def execVunpackB4 (sb c : BitVec 1) (m : BitVec 3) (d a : BitVec 5) (x : BitVec 2) (_q : BitVec 1) (s : State) : Out :=
  vecWord sb c 0 [a] d 4 (unpackBlock x.toNat m) s

/-! ### Permutes (R136) -/

def permLanes (m : BitVec 3) : VecFn := fun a vals old =>
  perLane 32 (visM a m) old (quiet (fun i => lane 32 (lane 32 i (src vals 1) % 32) (src vals 0)))

def rotLanes (m : BitVec 3) (b : BitVec 5) : VecFn := fun a vals old =>
  perLane 32 (visM a m) old (quiet (fun i => lane 32 ((i + (visS a b).toNat) % 32) (src vals 0)))

def castLanes (m : BitVec 3) (x : BitVec 5) : VecFn := fun a _ old =>
  perLane 32 (visM a m) old (quiet (fun _ => (visS a x).toNat % 2 ^ 32))

def execVperm (sb c : BitVec 1) (m : BitVec 3) (d a b : BitVec 5) (q : BitVec 1) (s : State) : Out :=
  vecWord sb c q [a, b] d 3 (permLanes m) s

def execVrot (sb c : BitVec 1) (m : BitVec 3) (d a b : BitVec 5) (q : BitVec 1) (s : State) : Out :=
  vecWord sb c q [a] d 3 (rotLanes m b) s

def execVbcast (sb c : BitVec 1) (m : BitVec 3) (d a : BitVec 5) (q : BitVec 1) (s : State) : Out :=
  vecWord sb c q [] d 2 (castLanes m a) s

/-! ### Reductions (R115) -/

/-- A reduction of the live lanes; `unit` is its value when no lane is live. -/
def reduction (m : BitVec 3) (unit : Nat) (inp : Nat → Nat) (op : Mode → Nat → Nat → Nat × Flags) : VecFn := fun a vals _ =>
  let xs := (List.range 32).map (fun i => if (visM a m).getLsbD i then some (inp (lane 32 i (src vals 0))) else none)
  let r := reduceTree (op a.vrnd.toNat) 5 (xs, 0)
  ⟨BitVec.ofNat 1024 (r.1.getD unit), flagsAt 0 r.2⟩

/-- Sum of two 64-bit values. -/
def addWide (_ : Mode) (x y : Nat) : Nat × Flags := ((x + y) % 2 ^ 64, 0)

/-- A 32-bit lane sign-extended to 64 bits. -/
def wideLane (x : Nat) : Nat := ((BitVec.ofNat 32 x).signExtend 64).toNat

def execVredadd (sb c : BitVec 1) (m : BitVec 3) (d a : BitVec 5) (q : BitVec 1) (s : State) : Out :=
  vecToReg sb c q [a] (.s d.toNat) 6 (reduction m 0 id (fAdd fp32)) s

def execVredmax (sb c : BitVec 1) (m : BitVec 3) (d a : BitVec 5) (q : BitVec 1) (s : State) : Out :=
  vecToReg sb c q [a] (.s d.toNat) 6 (reduction m 0xFF800000 id (maxLane fp32)) s

def execViredadd (sb c : BitVec 1) (m : BitVec 3) (d a : BitVec 5) (q : BitVec 1) (s : State) : Out :=
  vecToReg sb c q [a] (.s d.toNat) 4 (reduction m 0 wideLane addWide) s

/-! ### The spline basis (R137) -/

/-- 6 · B_j at x ÷ y, times y³. -/
def basisCubic (j : Nat) (x y : Int) : Int :=
  match j with
  | 0 => (y - x) * (y - x) * (y - x)
  | 1 => 3 * x * x * x - 6 * x * x * y + 4 * y * y * y
  | 2 => -3 * x * x * x + 3 * x * x * y + 3 * x * y * y + y * y * y
  | _ => x * x * x

/-- The exact basis value of a finite t; a zero has the sign of t for j = 3, of the exact difference for j = 0. -/
def basisFin (mode : Mode) (j : Nat) (neg : Bool) (m : Nat) (e : Int) : Num :=
  let x : Int := atExp neg m (max e 0) 0
  let y : Int := ((2 ^ (-e).toNat : Nat) : Int)
  let r := basisCubic j x y
  if r = 0 then .fin (if j = 3 then neg else decide (mode = 3)) 0 0
  else .fin (decide (r < 0)) r.natAbs (3 * min e 0)

def basisLane (j : Nat) (mode : Mode) (x : Nat) : Nat × Flags :=
  match decodeNum fp32 x with
  | .nan sig => (defaultNaN fp32, flagIf sig flagNV)
  | .inf neg => roundNum fp32 mode (.inf (if j = 0 ∨ j = 2 then !neg else neg))
  | .fin neg m e => roundNum fp32 mode (basisFin mode j neg m e)

def execVbspl (sb c : BitVec 1) (m : BitVec 3) (d a : BitVec 5) (j : BitVec 2) (q : BitVec 1) (s : State) : Out :=
  vecWord sb c q [a] d 5 (unary 32 m (basisLane j.toNat)) s

end Sys2Proof.Machine
end

