-- ==== Sys2Proof/Machine/ArrayMath.lean ====
section
/-! DEFINITION. The arithmetic of the array: operands and cell sums (R116, R118, R155, R156), spline positions, basis values and
promotion (R160 to R163), knot refinement (R164), exceptional values (R157), digests (R168). -/

namespace Sys2Proof.Machine

def byteAt (bs : Array Byte) (i : Nat) : Nat := (bs.getD i 0).toNat

def halfAt (bs : Array Byte) (i : Nat) : Nat := byteAt bs i + 256 * byteAt bs (i + 1)

def wordAt (bs : Array Byte) (i : Nat) : Nat := halfAt bs i + 65536 * halfAt bs (i + 2)

/-- The exact sum of values, from the first on. -/
def sumNums : List Num → Num
  | [] => .fin false 0 0
  | x :: r => r.foldl (fun a y => (addNum false a y).1) x

/-- The exact sum of products, rounded once to FP24 (R116 item 1). -/
def cellValue (ps : List (Num × Num)) : Nat := (roundNum fp24 0 (sumNums (ps.map (fun p => (mulNum p.1 p.2).1)))).1

/-- FP24 as FP32: the exponent fields are alike. -/
def widen24 (x : Nat) : Nat := x * 256

/-- The value is a NaN or an infinity (R157). -/
def exceptional (x : Nat) : Bool := decide (infBits fp32 ≤ x % 2 ^ 31)

/-! ### Operands (R107, R155) -/

/-- Element `k` of a row of A. -/
def decA (af : Nat) (bs : Array Byte) (k : Nat) : Num :=
  let blocked (g n : Nat) : Num :=
    let b := k / g * n
    blockNum (byteAt bs b) (byteAt bs (b + 1)) (bits (byteAt bs (b + 2 + k % g / 2)) (4 * (k % 2)) 4)
  match af with
  | 0 => decodeNum bf16 (halfAt bs (2 * k))
  | 1 => decodeNum e4m3 (byteAt bs k)
  | 2 => decodeNum e5m2 (byteAt bs k)
  | 3 => blocked 16 10
  | 4 => blocked 32 18
  | _ => decodeNum fp32 (wordAt bs (4 * k))

/-- Word `i` of cell (r, c) of a bank, and block header `i`. -/
def cellWord (ws : Array (BitVec 16)) (r c i : Nat) : Nat := (ws.getD ((r * 64 + c) * 16 + i) 0).toNat

def cellHeader (hs : Array (BitVec 16)) (r c i : Nat) : Nat := (hs.getD ((r * 64 + c) * 4 + i) 0).toNat

/-- Value `q` of k-step `s` of cell (r, c). -/
def decB (bf kp : Nat) (ws hs : Array (BitVec 16)) (r c s q : Nat) : Num :=
  let base := if kp = 16 ∧ bf ≠ 3 then 8 * s else 4 * s
  let byte : Nat := bits (cellWord ws r c (base + q / 2)) (8 * (q % 2)) 8
  match bf with
  | 0 => decodeNum bf16 (cellWord ws r c (base + q))
  | 1 => decodeNum e4m3 byte
  | 2 => decodeNum e5m2 byte
  | _ =>
    let h := cellHeader hs r c s
    blockNum (h % 256) (h / 256) (bits (cellWord ws r c (base + q / 4)) (4 * (q % 4)) 4)

/-! ### ARR.MM (R156) -/

/-- A column under way: accumulator, the FP24 sum where it is open, k-steps since promotion. -/
structure MmSt where
  acc : Nat
  sum : Option Nat
  steps : Nat
  deriving DecidableEq, Repr

/-- Add a cell value to a column sum (R116 item 2). -/
def columnAdd (sum : Option Nat) (x : Nat) : Option Nat :=
  match sum with
  | none => some x
  | some y => some (fAdd fp24 0 y x).1

def promote (acc : Nat) : Option Nat → Nat
  | none => acc
  | some x => (fAdd fp32 0 acc (widen24 x)).1

/-- One k-step of a column: 64 cells from row 0 on, then the promotion every P k-steps and at the end. -/
def mmStep (t : BitVec 1024) (av : Array Num) (ws hs : Array (BitVec 16)) (c : Nat) (st : MmSt) (s : Nat) : MmSt :=
  let kp := kpack (tAf t) (tBf t)
  let cell (r : Nat) : Nat :=
    cellValue ((List.range kp).map (fun q => (av.getD (64 * kp * s + kp * r + q) (.fin false 0 0), decB (tBf t) kp ws hs r c s q)))
  let sum := (List.range 64).foldl (fun x r => columnAdd x (cell r)) st.sum
  if st.steps + 1 = tP t ∨ s = tKs t then ⟨promote st.acc sum, none, 0⟩ else ⟨st.acc, sum, st.steps + 1⟩

/-- A tile row after one row of A. -/
def mmRow (t : BitVec 1024) (a : Array Byte) (ws hs : Array (BitVec 16)) (old : List (BitVec 32)) : List (BitVec 32) :=
  let av := ((List.range (rowElems t)).map (decA (tAf t) a)).toArray
  (List.range 64).map (fun c =>
    BitVec.ofNat 32 (((List.range (tKs t + 1)).foldl (mmStep t av ws hs c) ⟨(old.getD c 0).toNat, none, 0⟩).acc))

/-! ### Splines (R160, R161) -/

/-- An input: counted in KOOG, without contribution, a NaN, its interval and its four basis values. -/
structure SplIn where
  outside : Bool
  skip : Bool
  nan : Bool
  mi : Nat
  basis : List Num
  deriving DecidableEq, Repr

/-- Round an exact value to 16 significant bits under RNE. -/
def round16 : Num → Num
  | .fin neg m e =>
    if m < 2 ^ 16 then .fin neg m e
    else
      let k := Nat.log2 m - 15
      .fin neg (roundShift 0 neg m k).1 (e + k)
  | x => x

/-- b_j as the generator sends it: hi + lo is the value rounded to 16 bits (R161). -/
def basisValue (t j : Nat) : Num :=
  match decodeNum fp32 t with
  | .nan s => .nan s
  | .inf neg => .inf (if j = 0 ∨ j = 2 then !neg else neg)
  | .fin neg m e => round16 (basisFin 0 j neg m e)

/-- max(0, floor(u)) of a value that is not a NaN. -/
def floorPos : Num → Option Nat
  | .inf neg => if neg then some 0 else none
  | .fin neg m e => if neg then some 0 else if 0 ≤ e then some (m * 2 ^ e.toNat) else some (m / 2 ^ (-e).toNat)
  | .nan _ => some 0

/-- The interval of u among G. -/
def intervalOf (u : Num) (g : Nat) : Nat :=
  match floorPos u with
  | none => g - 1
  | some n => min n (g - 1)

/-- u held inside [0, G]. -/
def clampTo (u : Num) (g : Nat) : Num :=
  if isNan u then u
  else if ltNum u (.fin false 0 0) || isZeroNum u then .fin false 0 0
  else if ltNum (.fin false g 0) u then .fin false g 0
  else u

/-- Position and basis values of input bits `x`, with its row's scale and offset where AFF = 1 (R160). -/
def splIn (k : Knots) (aff : Option (Nat × Nat)) (x0 : Nat) : SplIn :=
  let g := k.kg.toNat
  let x : Nat := match aff with | none => x0 | some (sc, off) => (fFma fp32 0 x0 sc off).1
  let d := (addNum false (decodeNum fp32 x) (negNum (decodeNum fp32 k.klo.toNat))).1
  let u0 := decodeNum fp32 (roundNum fp32 0 (mulNum d (decodeNum fp32 k.kinv.toNat)).1).1
  let out := isNan u0 || ltNum u0 (.fin false 0 0) || ltNum (.fin false g 0) u0
  let u := if k.kmode = 0 then clampTo u0 g else u0
  let mi := intervalOf u g
  let t := (roundNum fp32 0 (addNum false u (.fin true mi 0)).1).1
  ⟨out, out && decide (k.kmode = 2), isNan u, mi, (List.range 4).map (basisValue t)⟩

/-- The cell's value: four local terms, rounded once (R161). -/
def splCell (ws : Array (BitVec 16)) (i c : Nat) (p : SplIn) : Nat :=
  if p.skip then 0
  else if p.nan then defaultNaN fp24
  else cellValue ((List.range 4).map (fun j => (decodeNum bf16 (cellWord ws i c (p.mi + j)), p.basis.getD j (.fin false 0 0))))

/-- The FP32 value nearest 1/6. -/
def k6 : Nat := 0x3E2AAAAB

/-- The inputs of a row: those below NIN (R160). -/
def splInputs (t : BitVec 1024) (k : Knots) (aff : Array (BitVec 32)) (a : Array Byte) : List SplIn :=
  (List.range (tNin t)).map (fun i =>
    splIn k (if tAff t then some ((aff.getD (2 * i) 0 ^^^ 0x3F800000).toNat, (aff.getD (2 * i + 1) 0).toNat) else none)
      (wordAt a (4 * i)))

/-- A tile row after one row of inputs (R162). -/
def splRow (ps : List SplIn) (ws : Array (BitVec 16)) (old : List (BitVec 32)) : List (BitVec 32) :=
  let pa := ps.toArray
  (List.range 64).map (fun c =>
    let cell (i : Nat) : Nat := match pa[i]? with | some p => splCell ws i c p | none => 0
    let s := ((List.range 64).foldl (fun x i => columnAdd x (cell i)) none).getD 0
    BitVec.ofNat 32 (fFma fp32 0 (widen24 s) k6 (old.getD c 0).toNat).1)

/-! ### ARR.GRAD (R163) -/

/-- Gradient stores of rows 0 to NIN − 1 under way, and EXC. -/
structure GradSt where
  gs : Array (BitVec 32)
  exc : Bool
  deriving DecidableEq, Repr

/-- Every index pair of a cell column and a count. -/
def pairsOf (n m : Nat) : List (Nat × Nat) := (List.range n).flatMap (fun c => (List.range m).map (fun j => (c, j)))

/-- One input of one row. -/
def gradInput (g : Nat) (grow : Array Byte) (st : GradSt) (i : Nat) (p : SplIn) : GradSt :=
  if p.skip then st
  else if p.nan then
    ⟨(pairsOf 64 (g + 3)).foldl (fun a cj =>
      a.setIfInBounds ((i * 64 + cj.1) * 16 + cj.2) (BitVec.ofNat 32 (defaultNaN fp32))) st.gs, true⟩
  else
    (pairsOf 64 4).foldl (fun st cj =>
      let ix := (i * 64 + cj.1) * 16 + p.mi + cj.2
      let old := decodeNum fp32 (st.gs.getD ix 0).toNat
      let x := (roundNum fp32 0 (fmaNum false (decodeNum fp32 (wordAt grow (4 * cj.1))) (p.basis.getD cj.2 (.fin false 0 0)) old).1).1
      ⟨st.gs.setIfInBounds ix (BitVec.ofNat 32 x), st.exc || exceptional x⟩) st

def gradInputs (g : Nat) (grow : Array Byte) (st : GradSt) : Nat → List SplIn → GradSt
  | _, [] => st
  | i, p :: r => gradInputs g grow (gradInput g grow st i p) (i + 1) r

/-! ### ARR.REFINE (R164) -/

def scaleNum (x : Num) (k : Int) : Num :=
  match x with
  | .fin n m e => .fin n m (e + k)
  | y => y

/-- e[j] of a cell with coefficients `c`. -/
def refineValue (c : Nat → Num) (j : Nat) : Num :=
  let k := j / 2
  if j % 2 = 0 then scaleNum (sumNums [c k, c (k + 1)]) (-1)
  else scaleNum (sumNums [c k, (mulNum (.fin false 6 0) (c (k + 1))).1, c (k + 2)]) (-3)

/-- The words of a refined cell: 2G + 3 new coefficients in BF16, with EXC where one is not representable. -/
def refineCell (g : Nat) (ws : List (BitVec 16)) : List (BitVec 16) × Bool :=
  let c (i : Nat) : Num := decodeNum bf16 (ws.getD i 0).toNat
  let rs := (List.range (2 * g + 3)).map (fun j => roundNum bf16 0 (refineValue c j))
  (rs.map (fun r => BitVec.ofNat 16 r.1) ++ ws.drop (2 * g + 3),
    rs.any (fun r => decide (r.2 ≠ 0) || decide (infBits bf16 ≤ r.1 % 2 ^ 15)))

/-! ### Digests (R168) -/

def digestStep (h : Word) (x : BitVec 32) : Word := ((h <<< 5) ||| (h >>> 59)) ^^^ x.setWidth 64

def digestOf (xs : List (BitVec 32)) : Word := xs.foldl digestStep 0

end Sys2Proof.Machine
end

