-- ==== Sys2Proof/Machine/Engine.lean ====
section
/-! DEFINITION. How an engine command runs: when it may start (R99, R100, R144, R154, R98, R226, R229), its reads and writes
(R147, R151, R228), what it holds and records for a rollback (R174, R178). -/

namespace Sys2Proof.Machine

/-! ### A run -/

/-- Bytes a command has written, newest first in `rev`: to core scratchpad or to a physical address. -/
structure Chunk where
  spad : Bool
  addr : Nat
  kind : Nat
  va : Nat
  asid : Nat
  len : Nat
  rev : List Byte
  deriving DecidableEq, Repr

/-- What has ended a command early: a fault (R147), or poisoned data (R183). -/
inductive RunStop where
  | none
  | fault (cause addr : Nat)
  | check (addr storage : Nat)
  deriving DecidableEq, Repr

/-- A command under way: the state, the command, its writes newest first, what has ended it. -/
structure Run where
  s : State
  m : Cmd
  log : List Chunk
  stop : RunStop
  deriving DecidableEq, Repr

def halted (r : Run) : Bool := decide (r.stop ≠ .none)

def failRun (r : Run) (cause addr : Nat) : Run := { r with stop := .fault cause addr }

def checkRun (r : Run) (addr storage : Nat) : Run := { r with stop := .check addr storage }

/-- The bytes at an address with the command's own writes over them. -/
def logOver (spad : Bool) (a : Nat) (bs : List Byte) (log : List Chunk) : List Byte :=
  log.foldr (fun c x =>
    if c.spad = spad ∧ c.addr < a + bs.length ∧ a < c.addr + c.len then overlay a x c.addr c.rev.reverse else x) bs

/-- Log a write: a run of bytes extends the newest chunk. -/
def logWrite (r : Run) (spad : Bool) (a kind va asid : Nat) (bs : List Byte) : Run :=
  match r.log with
  | c :: rest =>
    if c.spad = spad ∧ c.addr + c.len = a ∧ c.kind = kind ∧ c.asid = asid ∧ c.va + c.len = va then
      { r with log := { c with len := c.len + bs.length, rev := bs.reverse ++ c.rev } :: rest }
    else { r with log := ⟨spad, a, kind, va, asid, bs.length, bs.reverse⟩ :: r.log }
  | [] => { r with log := [⟨spad, a, kind, va, asid, bs.length, bs.reverse⟩] }

/-! ### Places -/

def runRing (r : Run) : Ring := getRing (getCtl r.s r.m.slot) (tRing r.m.tmpl)

/-- The scratchpad pieces of a ring interval, which wraps at the ring's end (R98). -/
def ringPieces (g : Ring) (pos n : Nat) : List (Nat × Nat) :=
  let size := 2 ^ g.lgsize
  let o := pos % size
  if o + n ≤ size then [(g.base + o, n)] else [(g.base + o, size - o), (g.base, n - (size - o))]

/-- Physical address of an offset in this cluster's scratchpad. -/
def spkAddr (s : State) (off : Nat) : Nat := spkBase + s.cluster.num * spkSize + off

/-- The half of a publish range an engine write goes to, or none where it may not write there (R228). A
destination in no range is written in place, whatever PM is (DESIGN CHOICE, log entry 99). -/
def writeHalf (c : Context) (t : BitVec 1024) (p : Part) : Option Nat :=
  match pubEntry c p.va with
  | none => some p.pa
  | some (k, e) =>
    if tPm t = true ∧ tPme t = k then some (physBits ((if e.front then e.half0 else e.half1) + (p.va - e.va))) else none

/-- Translate an access of the command, keeping the pages it used. -/
def runTranslate (r : Run) (a : Acc) (va n : Nat) : Run × List Part :=
  let c := getCtx r.s r.m.ctx
  match translate r.s c r.m.smode a va n with
  | (s1, .ok ps) =>
    let r1 : Run := { r with s := s1, m := { r.m with pages := ps.foldl (fun l p =>
      if l.contains (p.va / 0x10000 * 0x10000) then l else p.va / 0x10000 * 0x10000 :: l) r.m.pages } }
    if kindsDiffer false ps then (failRun r1 0x0A va, []) else (r1, ps)
  | (s1, .trap cause bad) => (failRun { r with s := s1 } cause bad, [])
  | (s1, .check bad st) => (checkRun { r with s := s1 } bad st, [])

/-! ### Reads -/

/-- The command's clause depends on those whose held stores it reads (Table 11.1). -/
def heldRun (r : Run) (dev : Bool) (a n : Nat) : Run :=
  { r with s := dependOn r.s r.m.clause (heldClauses r.s r.m.slot dev a n) }

def readSpadRun (r : Run) (a n : Nat) : Run × List Byte :=
  if halted r then (r, List.replicate n 0)
  else
    match spadPoison r.s a n with
    | some p => (checkRun r p 0, List.replicate n 0)
    | none => (heldRun r false a n, logOver true a (readSpad r.s a n) r.log)

/-- Poisoned data of a slot's read outside the core: in memory, or in the hold-back buffer where the read sees its stores. -/
def devPoison (s : State) (k pa n : Nat) : Option Nat :=
  match poisonAt s.pkg pa n with
  | some p => some p
  | none => devHeldPoison s k (afterAll s) pa n

def readDevRun (r : Run) (pa n : Nat) : Run × List Byte :=
  if halted r then (r, List.replicate n 0)
  else
    match devPoison r.s r.m.slot pa n with
    | some p => (checkRun r p (storageCode pa), List.replicate n 0)
    | none => (heldRun r true pa n, logOver false pa (readDev r.s r.m.slot (afterAll r.s) pa n) r.log)

def readPieces (f : Run → Nat → Nat → Run × List Byte) (r : Run) : List (Nat × Nat) → Run × List Byte
  | [] => (r, [])
  | (a, n) :: l =>
    let x := f r a n
    let y := readPieces f x.1 l
    (y.1, x.2 ++ y.2)

/-- Read `n` bytes of a space: of a ring at a byte position counted from its first row. -/
def readAt (r : Run) (space : Nat) (a : Int) (n : Nat) : Run × List Byte :=
  if halted r then (r, List.replicate n 0)
  else
    match space with
    | 0 => readSpadRun r a.toNat n
    | 1 =>
      if a < 0 ∨ (spkSize : Int) < a + n then (failRun r 0x0B (BitVec.ofInt 64 a).toNat, List.replicate n 0)
      else readDevRun r (spkAddr r.s a.toNat) n
    | 2 =>
      let x := runTranslate r .read (BitVec.ofInt 64 a).toNat n
      readPieces readDevRun x.1 (x.2.map (fun p => (p.pa, p.len)))
    | _ => readPieces readSpadRun r (ringPieces (runRing r) a.toNat n)

/-! ### Writes -/

def writePieces (r : Run) (bs : List Byte) : List (Nat × Nat) → Run
  | [] => r
  | (a, n) :: l => writePieces (logWrite r true a 1 a 0 (bs.take n)) (bs.drop n) l

/-- Write the translated parts of an access. -/
def writeParts (r : Run) (bs : List Byte) : List Part → Run
  | [] => r
  | p :: l =>
    if halted r then r
    else
      let c := getCtx r.s r.m.ctx
      match writeHalf c r.m.tmpl p with
      | none => failRun r 0x09 p.va
      | some pa => writeParts (logWrite r false pa (leafKind p.leaf) p.va c.asid (bs.take p.len)) (bs.drop p.len) l

/-- Write bytes to a space. -/
def writeAt (r : Run) (space : Nat) (a : Int) (bs : List Byte) : Run :=
  if halted r then r
  else
    match space with
    | 0 => logWrite r true a.toNat 1 a.toNat 0 bs
    | 1 =>
      if a < 0 ∨ (spkSize : Int) < a + bs.length then failRun r 0x0B (BitVec.ofInt 64 a).toNat
      else logWrite r false (spkAddr r.s a.toNat) 1 a.toNat 65536 bs
    | 2 =>
      let x := runTranslate r .write (BitVec.ofInt 64 a).toNat bs.length
      writeParts x.1 bs x.2
    | _ => writePieces r bs (ringPieces (runRing r) a.toNat bs.length)

/-! ### Undo data and commitment (R178) -/

def undoSize : Nat := 196608

def addOverflow (s : State) (k : Nat) : State :=
  let x := getSlot s k
  setSlot s k { x with undoovf := if x.undoovf = BitVec.allOnes 32 then x.undoovf else x.undoovf + 1 }

/-- Record undo data of a size before a change in place; a store too small leaves the command without. -/
def chargeUndo (r : Run) (cost : Nat) (u : Undo) : Run :=
  if unsealed r.s.core r.m.clause = false ∨ r.m.noUndo = true then r
  else if r.s.core.undoUsed + cost ≤ undoSize then
    { r with
      s := { r.s with core := { r.s.core with undoUsed := r.s.core.undoUsed + cost } }
      m := { r.m with undo := r.m.undo ++ [u], charge := r.m.charge + cost } }
  else { r with s := addOverflow r.s r.m.slot, m := { r.m with noUndo := true } }

def onCore (r : Run) (f : Core → Core) : Run := { r with s := { r.s with core := f r.s.core } }

def cellKey (bank row : Nat) : Nat := (bank * 64 + row) * 1024
def headerKey (bank row : Nat) : Nat := (bank * 64 + row) * 256
def tileKey (tile row : Nat) : Nat := (tile * 64 + row) * 64
def gradKey (row : Nat) : Nat := row * 1024

/-! A row of the array's storage is known by the code of Table 11.4 (4 cells, 5 tiles, 6 gradients) and its number. -/

/-- The command consumes a row: a machine check where it is poisoned (R182, R183). -/
def useRow (r : Run) (code row : Nat) : Run :=
  if halted r = false ∧ r.s.core.badRows.contains (code, row) = true then checkRun r 0 code else r

def useRows (r : Run) (code lo n : Nat) : Run := ((List.range n).map (fun i => lo + i)).foldl (fun x i => useRow x code i) r

/-- A row written anew has fresh ECC. -/
def cleanRow (code row : Nat) (c : Core) : Core :=
  if c.badRows = [] then c else { c with badRows := c.badRows.filter (fun p => decide (p ≠ (code, row))) }

def tileRow (c : Core) (tile row : Nat) : List (BitVec 32) := mrange c.tiles (tileKey tile row) 64
def gradRow (c : Core) (row : Nat) : List (BitVec 32) := mrange c.grads (gradKey row) 1024

def putTileRow (r : Run) (tile row : Nat) (xs : List (BitVec 32)) : Run :=
  let k := tileKey tile row
  onCore (chargeUndo r 256 (.tile k (tileRow r.s.core tile row)))
    (fun c => cleanRow 5 (tile * 64 + row) { c with tiles := mreplace c.tiles k xs })

def putGradRow (r : Run) (row : Nat) (xs : List (BitVec 32)) : Run :=
  let k := gradKey row
  onCore (chargeUndo r 4096 (.grads k (gradRow r.s.core row))) (fun c => cleanRow 6 row { c with grads := mreplace c.grads k xs })

def putCells (r : Run) (bank row : Nat) (xs : List (BitVec 16)) : Run :=
  let k := cellKey bank row
  onCore (chargeUndo r 2048 (.cells k (mrange r.s.core.cells k 1024)))
    (fun c => cleanRow 4 (bank * 64 + row) { c with cells := mreplace c.cells k xs })

def putHeaders (r : Run) (bank row : Nat) (xs : List (BitVec 16)) : Run :=
  let k := headerKey bank row
  onCore (chargeUndo r 512 (.headers k (mrange r.s.core.headers k 256)))
    (fun c => { c with headers := mreplace c.headers k xs })

def putAffine (r : Run) (xs : List (BitVec 32)) : Run :=
  onCore (chargeUndo r 512 (.affine (mrange r.s.core.affine 0 128))) (fun c => { c with affine := mreplace c.affine 0 xs })

/-- Lines not yet recorded, and the first that finds no room. -/
def fitLines (seen : List Nat) : Nat → List Nat → List Nat × Option Nat
  | _, [] => ([], none)
  | room, l :: r =>
    if seen.contains l then fitLines seen room r
    else if 64 ≤ room then ((l :: (fitLines seen (room - 64) r).1), (fitLines seen (room - 64) r).2)
    else ([], some l)

/-- A write to core scratchpad in place, over whatever is held for its bytes. -/
def spadNow (s : State) (a : Nat) (bs : List Byte) : State := trimHeld (writeSpad s a bs) (freshId s) a bs.length

/-- The command's writes to core scratchpad: held for the seal, in place once the clause has sealed or undo data has run
out. `direct` destinations are charged by the line (R178). -/
def commitSpad (direct : Bool) (r : Run) (seen : List Nat) (a : Nat) (bs : List Byte) : Run × List Nat :=
  let put (r : Run) (a : Nat) (bs : List Byte) : Run :=
    if bs = [] then r else { r with s := hold r.s r.m.slot r.m.clause (.store false a bs 1 false r.m.id 0 0) }
  if unsealed r.s.core r.m.clause = false ∨ r.m.noUndo = true then ({ r with s := spadNow r.s a bs }, seen)
  else if !direct then (put r a bs, seen)
  else
    let x := fitLines seen (undoSize - r.s.core.undoUsed) (linesOf a bs.length)
    let cost := 64 * x.1.length
    let r1 : Run := { r with
      s := { r.s with core := { r.s.core with undoUsed := r.s.core.undoUsed + cost } }
      m := { r.m with charge := r.m.charge + cost } }
    match x.2 with
    | none => (put r1 a bs, seen ++ x.1)
    | some l =>
      let cut := 64 * l - a
      let r2 := put r1 a (bs.take cut)
      ({ r2 with s := spadNow (addOverflow r2.s r.m.slot) (a + cut) (bs.drop cut), m := { r2.m with noUndo := true } }, seen ++ x.1)

/-- A write outside the core: held for the seal, else released (R174). -/
def commitDev (r : Run) (c : Chunk) : Run :=
  let e : Effect := .store true c.addr c.rev.reverse c.kind false r.m.id c.va c.asid
  let id := freshId r.s
  if unsealed r.s.core r.m.clause then { r with s := hold r.s r.m.slot r.m.clause e }
  else { r with s := bumpId (release r.s ⟨id, r.m.slot, r.m.clause, clockOf r.s r.m.slot .C, e⟩) }

def commitAll (direct : Bool) (r : Run) (seen : List Nat) : List Chunk → Run
  | [] => r
  | c :: l =>
    if c.spad then
      let x := commitSpad direct r seen c.addr c.rev.reverse
      commitAll direct x.1 x.2 l
    else commitAll direct (commitDev r c) seen l

/-- The destination is core scratchpad named directly: no ring, no aperture (R178). -/
def directDst (t : BitVec 1024) : Bool := decide (tDsp t = 0) && decide (tDst t < 0x01000000)

def putCmd (s : State) (m : Cmd) : State :=
  { s with core := { s.core with cmds := s.core.cmds.map (fun o => if o.id = m.id then m else o) } }

/-- The command has run: its writes are committed, or poisoned data has been met. A faulted command moves neither head nor tail of its
rings (DESIGN CHOICE, log entry 98). -/
def finishRun (r : Run) : State :=
  match r.stop with
  | .check a st => machineCheck r.s r.m.slot a st
  | .fault cause a =>
    let x := commitAll (directDst r.m.tmpl) r [] r.log.reverse
    putCmd x.s { x.m with fault := some (cause, a), state := .done, startAt := x.s.now, rowsOut := 0, rowsIn := 0 }
  | .none =>
    let x := commitAll (directDst r.m.tmpl) r [] r.log.reverse
    putCmd x.s { x.m with state := .done, startAt := x.s.now }

/-! ### Rings of a command (R98, R148) -/

/-- Tail advances of a ring still held. -/
def heldTail (s : State) (k ring : Nat) : Nat :=
  (s.core.held.map (fun h =>
    match h.eff with
    | .ringTail q n => if h.slot = k ∧ q = ring then n else 0
    | _ => 0)).sum

/-- Ring rows that one row of `n` bytes takes. -/
def ringRowsOf (g : Ring) (n : Nat) : Nat := (n + 2 ^ g.lgrow - 1) / 2 ^ g.lgrow

/-- Ring rows a command reads, and writes. -/
def rowsNeeded (g : Ring) (t : BitVec 1024) (dst : Bool) : Nat :=
  if tEng t = 1 then ringRowsOf g (copyCount t * tEsz t)
  else if dst then tN t * ringRowsOf g (dstRowBytes t)
  else srcRows t * ringRowsOf g (srcRowBytes t)

def ringCapacity (g : Ring) : Nat := 2 ^ g.lgsize / 2 ^ g.lgrow

/-- More rows than the ring has: the overrun that R147 makes a fault. -/
def ringOverrun (s : State) (m : Cmd) : Bool :=
  let g := getRing (getCtl s m.slot) (tRing m.tmpl)
  (srcRing m.tmpl && decide (ringCapacity g < rowsNeeded g m.tmpl false)) ||
    (dstRing m.tmpl && decide (ringCapacity g < rowsNeeded g m.tmpl true))

/-- Rows published and not consumed, by the pointers modulo 2^32. -/
def ringFill (g : Ring) : Nat := (g.tail + 2 ^ 32 - g.head) % 2 ^ 32

/-! ### When a command may start -/

/-- Older commands that have not retired. -/
def olderCmds (s : State) (m : Cmd) : List Cmd := s.core.cmds.filter (fun o => decide (o.id < m.id) && !o.retired)

/-- The rows a command needs are there, and those it writes have room (R98); commands on one side of a ring keep their order. -/
def ringReady (s : State) (m : Cmd) : Bool :=
  let k := tRing m.tmpl
  let g := getRing (getCtl s m.slot) k
  let same (f : BitVec 1024 → Bool) : Bool :=
    (olderCmds s m).any (fun o => decide (o.slot = m.slot) && f o.tmpl && decide (tRing o.tmpl = k))
  ringOverrun s m ||
    ((!srcRing m.tmpl || (!same srcRing && decide (rowsNeeded g m.tmpl false ≤ ringFill g))) &&
      (!dstRing m.tmpl ||
        (!same dstRing && decide (ringFill g + heldTail s m.slot k + rowsNeeded g m.tmpl true ≤ ringCapacity g))))

/-- An interval of core scratchpad a command reads or writes, with the ring it belongs to. -/
structure Range where
  lo : Int
  hi : Int
  write : Bool
  ring : Option Nat
  deriving DecidableEq, Repr

def cmdRanges (s : State) (m : Cmd) : List Range :=
  if m.eng = 3 then []
  else
    (operandsOf m.tmpl).filterMap (fun o =>
      match o.space with
      | 0 =>
        let d : Int := ((if o.base = tDst m.tmpl ∧ (o.dst ∨ isArr m.tmpl 4) then m.dst else m.src : Nat) : Int) - o.base
        some ⟨o.low + d, o.high + d, o.dst, none⟩
      | 3 =>
        let g := getRing (getCtl s m.slot) (tRing m.tmpl)
        some ⟨g.base, (g.base + 2 ^ g.lgsize - 1 : Nat), o.dst, some (16 * m.slot + tRing m.tmpl)⟩
      | _ => none)

def rangesClash (x y : Range) : Bool :=
  (x.write || y.write) && decide (x.lo ≤ y.hi) && decide (y.lo ≤ x.hi) && !(x.ring.isSome && decide (x.ring = y.ring))

/-- The range checker finds no overlap with an older command (R100). -/
def rangeReady (s : State) (m : Cmd) : Bool :=
  (olderCmds s m).all (fun o => (cmdRanges s o).all (fun x => (cmdRanges s m).all (fun y => !rangesClash x y)))

/-- The path of an array command (R154). -/
def arrPath (op : Nat) : Nat := if op = 1 then 0 else if op < 6 then 1 else 2

/-- Array state by number: banks 0 and 1, the affine table 2, tiles from 8, gradient rows from 64 on. -/
def arrWrites (t : BitVec 1024) : List Nat :=
  let rows (lo n : Nat) : List Nat := (List.range n).map (fun i => 64 + lo + i)
  match tOp t with
  | 1 => if tSel t then [2] else [tBank t]
  | 2 => [8 + tTile t]
  | 3 => [8 + tTile t]
  | 4 => rows 0 (tNin t)
  | 5 => tBank t :: rows (tRow0 t) (tN t)
  | 6 => if tAcc t then (if tSel t then rows (tRow0 t) (tN t) else [8 + tTile t]) else []
  | _ => []

def arrReads (t : BitVec 1024) : List Nat :=
  let rows (lo n : Nat) : List Nat := (List.range n).map (fun i => 64 + lo + i)
  let aff := if tAff t then [2] else []
  match tOp t with
  | 2 => [tBank t, 8 + tTile t]
  | 3 => tBank t :: (8 + tTile t) :: aff
  | 4 => rows 0 (tNin t) ++ aff
  | 5 => [tBank t]
  | 6 => if tSel t then rows (tRow0 t) (tN t) else [8 + tTile t]
  | 7 => [8 + tTile t]
  | _ => []

def meets (xs ys : List Nat) : Bool := xs.any (fun x => ys.contains x)

/-- The array's paths and state are free for a command (R154). -/
def arrayReady (s : State) (m : Cmd) : Bool :=
  decide (m.eng ≠ 2) ||
    (olderCmds s m).all (fun o => decide (o.eng ≠ 2) ||
      (decide (arrPath (tOp o.tmpl) ≠ arrPath (tOp m.tmpl)) &&
        !meets (arrWrites o.tmpl) (arrReads m.tmpl ++ arrWrites m.tmpl) && !meets (arrReads o.tmpl) (arrWrites m.tmpl)))

/-- Storage scopes a command accesses, as the bits of a fence's mask (R42). -/
def cmdScopes (t : BitVec 1024) : BitVec 5 :=
  let by_ (n : Nat) : BitVec 5 := match n with | 1 => 0b00010 | 2 => 0b01100 | _ => 0b00001
  match tEng t with
  | 1 => by_ (tSsp t) ||| by_ (tDsp t)
  | 3 => 0b00011
  | _ => (if tOp t < 5 then 0b00001 else 0) ||| (if tOp t = 6 then (if tSc t then 0b00010 else by_ (tDsp t)) else 0)

/-- No fence of voice C holds the command back (R226). -/
def fenceReady (s : State) (m : Cmd) : Bool :=
  (getSlot s m.slot).fences.all (fun f => f.forA || decide (m.clause ≤ f.clause) || decide (f.mask &&& cmdScopes m.tmpl = 0) ||
    !fenceActive s m.slot f)

/-- No access that resolved to the half a write through its publish-map entry goes to is outstanding (R229). -/
def halfReady (s : State) (m : Cmd) : Bool :=
  let t := m.tmpl
  let writes := (decide (tEng t = 1) || isArr t 6) && decide (tDsp t = 2) && tPm t
  let e := mget ⟨0, 0, false, false, 0, 0⟩ (getCtx s m.ctx).pubmap (tPme t)
  let base := if e.front then e.half0 else e.half1
  let inHalf (x : Xfer) : Bool := decide (x.val = none) && !x.remote &&
    x.parts.any (fun p => decide (base ≤ p.1) && decide (p.1 < base + e.units * 0x200000))
  !writes || (!(getSlot s 0).xfers.any inHalf && !(getSlot s 1).xfers.any inHalf)

/-- Every bit of its wait mask is set (R144). -/
def eventsReady (s : State) (m : Cmd) : Bool :=
  decide (eventWindow (getCtx s m.ctx) (tEw m.tmpl) &&& tWait m.tmpl = tWait m.tmpl)

/-- The command may start in this cycle (R143 step 3). -/
def cmdReady (s : State) (m : Cmd) : Bool :=
  decide (m.state = .queued) && !m.retired && decide (m.issuedAt + 2 ≤ s.now) && clockRuns s &&
    decide ((getSlot s m.slot).run ≠ .preempted) && eventsReady s m && rangeReady s m && arrayReady s m && ringReady s m &&
    fenceReady s m && halfReady s m

def findCmd (s : State) (id : Nat) : Option Cmd := findFirst (fun m => decide (m.id = id)) s.core.cmds

/-- A command event: the command of that number starts, if it is of the kind the event names and may start. -/
def startCmd (id eng op : Nat) (run : Run → Run) (s : State) : Out :=
  match findCmd s id with
  | none => .next s
  | some m =>
    if m.eng = eng ∧ tOp m.tmpl = op ∧ cmdReady s m = true then
      .next (finishRun (if ringOverrun s m then failRun ⟨s, m, [], .none⟩ 0x0B (getRing (getCtl s m.slot) (tRing m.tmpl)).base
        else run ⟨s, m, [], .none⟩))
    else .next s

end Sys2Proof.Machine
end

