-- ==== Sys2Proof/Machine/Commands.lean ====
section
/-! DEFINITION. The engine commands: COPY and COPYF (R151, R152, R101), the array's commands (R155 to R166), the scatter
commands and their windows (R167, R196), retirement (R102, R144, R147, R168). -/

namespace Sys2Proof.Machine

/-! ### Copies (R151) -/

/-- Where element `j` stands: a ring runs in order of j from a byte position, else the four strides apply. -/
def elemPlace (t : BitVec 1024) (space : Nat) (base : Int) (step : Nat → Int) (j : Nat) : Int :=
  if space = 3 then base + ((j * tEsz t : Nat) : Int)
  else
    base + ((j % tExt t 0 : Nat) : Int) * step 0 + ((j / tExt t 0 % tExt t 1 : Nat) : Int) * step 1 +
      ((j / tExt t 0 / tExt t 1 % tExt t 2 : Nat) : Int) * step 2 +
      ((j / tExt t 0 / tExt t 1 / tExt t 2 : Nat) : Int) * step 3

/-- The byte position of the rows a command takes from its ring, and of those it writes. -/
def ringFrom (s : State) (m : Cmd) : Nat :=
  let g := getRing (getCtl s m.slot) (tRing m.tmpl)
  g.head * 2 ^ g.lgrow

def ringTo (s : State) (m : Cmd) : Nat :=
  let g := getRing (getCtl s m.slot) (tRing m.tmpl)
  (g.tail + heldTail s m.slot (tRing m.tmpl)) * 2 ^ g.lgrow

/-- The base of the source, and of the destination, in its space. -/
def srcBase (s : State) (m : Cmd) : Int :=
  match tSsp m.tmpl with
  | 0 => m.src
  | 3 => ringFrom s m
  | _ => tSrc m.tmpl

def dstBase (s : State) (m : Cmd) : Int :=
  match tDsp m.tmpl with
  | 0 => m.dst
  | 3 => ringTo s m
  | _ => tDst m.tmpl

/-- Elements in order of j: each read after the one before it is written. -/
def copyLoop (t : BitVec 1024) (src dst : Int) (r : Run) (j : Nat) : Nat → Run
  | 0 => r
  | n + 1 =>
    if halted r then r
    else
      let x := readAt r (tSsp t) (elemPlace t (tSsp t) src (tSrcStep t) j) (tEsz t)
      copyLoop t src dst (writeAt x.1 (tDsp t) (elemPlace t (tDsp t) dst (tDstStep t) j) x.2) (j + 1) n

/-- Ring rows consumed and produced, where the command names a ring. -/
def withRows (m : Cmd) (g : Ring) : Cmd :=
  { m with
    rowsIn := if srcRing m.tmpl then rowsNeeded g m.tmpl false else 0
    rowsOut := if dstRing m.tmpl then rowsNeeded g m.tmpl true else 0 }

def countRows (r : Run) : Run := { r with m := withRows r.m (runRing r) }

def runCopy (r : Run) : Run :=
  countRows (copyLoop r.m.tmpl (srcBase r.s r.m) (dstBase r.s r.m) r 0 (copyCount r.m.tmpl))

def execCopy (id : Nat) (s : State) : Out := startCmd id 1 1 runCopy s

def execCopyf (id : Nat) (s : State) : Out := startCmd id 1 2 runCopy s

/-! ### Array commands -/

/-- The place of source row `i`. -/
def srcRowPlace (r : Run) (i : Nat) : Int :=
  let t := r.m.tmpl
  if tSsp t = 3 then
    let g := runRing r
    ((ringFrom r.s r.m + i * ringRowsOf g (srcRowBytes t) * 2 ^ g.lgrow : Nat) : Int)
  else (r.m.src : Int) + (i : Nat) * tSrcStep t 0

/-- Read source row `i`. -/
def readRowOf (r : Run) (i : Nat) : Run × List Byte := readAt r (tSsp r.m.tmpl) (srcRowPlace r i) (srcRowBytes r.m.tmpl)

def noteExc (r : Run) (b : Bool) : Run := { r with m := { r.m with exc := r.m.exc || b } }

/-- Run `f` on rows 0 to n − 1. -/
def forRows (f : Run → Nat → Run) : Nat → Run → Run
  | 0, r => r
  | n + 1, r =>
    let x := forRows f n r
    if halted x then x else f x n

def words16 : List Byte → List (BitVec 16)
  | a :: b :: r => (b ++ a) :: words16 r
  | _ => []

def words32 : List Byte → List (BitVec 32)
  | a :: b :: c :: d :: r => (d ++ c ++ b ++ a) :: words32 r
  | _ => []

/-- Cut a list into 64 pieces of `n`. -/
def pieces64 (n : Nat) (bs : List Byte) : List (List Byte) := (List.range 64).map (fun c => (bs.drop (n * c)).take n)

/-- One row of cells (R155). -/
def loadbRow (r : Run) (i : Nat) : Run :=
  let t := r.m.tmpl
  let x := readRowOf r i
  if halted x.1 then x.1
  else
    let z := if tBf t = 3 then 40 else 32
    let cells := pieces64 z x.2
    let row := tRow0 t + i
    let r1 := putCells x.1 (tBank t) row (words16 (cells.flatMap (fun c => c.take 32)))
    if tBf t = 3 then putHeaders r1 (tBank t) row (words16 (cells.flatMap (fun c => c.drop 32))) else r1

/-- The affine table as State holds it: each scale against its reset value 1.0 (R153). -/
def affineEntries (xs : List (BitVec 32)) : List (BitVec 32) :=
  (List.range 128).map (fun i => if i % 2 = 0 then xs.getD i 0 ^^^ 0x3F800000 else xs.getD i 0)

def runLoadb (r : Run) : Run :=
  if tSel r.m.tmpl then
    let x := readRowOf r 0
    if halted x.1 then x.1 else countRows (putAffine x.1 (affineEntries (words32 x.2)))
  else countRows (forRows loadbRow (tN r.m.tmpl) r)

def execArrLoadb (id : Nat) (s : State) : Out := startCmd id 2 1 runLoadb s

/-- The bank a command uses, and its headers. -/
def bankOf (r : Run) : Array (BitVec 16) := (mrange r.s.core.cells (cellKey (tBank r.m.tmpl) 0) 65536).toArray

def headersOf (r : Run) : Array (BitVec 16) := (mrange r.s.core.headers (headerKey (tBank r.m.tmpl) 0) 16384).toArray

/-- The cell rows of the bank that an array command reads. -/
def useCells (r : Run) (n : Nat) : Run := useRows r 4 (tBank r.m.tmpl * 64) n

/-- The tile row that a command adds to. -/
def useStart (r : Run) (i : Nat) : Run := if tAcc r.m.tmpl then useRow r 5 (tTile r.m.tmpl * 64 + (tRow0 r.m.tmpl + i)) else r

/-- Tile row `i` before the command adds to it. -/
def startRow (r : Run) (i : Nat) : List (BitVec 32) :=
  let t := r.m.tmpl
  if tAcc t then tileRow r.s.core (tTile t) (tRow0 t + i) else List.replicate 64 0

/-- Write a tile row, with the exceptional values and the digest so far. -/
def giveRow (r : Run) (i : Nat) (xs : List (BitVec 32)) : Run :=
  let t := r.m.tmpl
  let h := xs.foldl digestStep (r.m.digest.getD 0)
  let r1 := noteExc (putTileRow r (tTile t) (tRow0 t + i) xs) (xs.any (fun x => exceptional x.toNat))
  if tKat t then { r1 with m := { r1.m with digest := some h } } else r1

def runMm (r : Run) : Run :=
  let ws := bankOf r
  let hs := headersOf r
  countRows (forRows (fun r i =>
    let x := readRowOf (useStart r i) i
    if halted x.1 then x.1 else giveRow x.1 i (mmRow r.m.tmpl x.2.toArray ws hs (startRow r i))) (tN r.m.tmpl) (useCells r 64))

def execArrMm (id : Nat) (s : State) : Out := startCmd id 2 2 runMm s

def affineOf (r : Run) : Array (BitVec 32) := (mrange r.s.core.affine 0 128).toArray

def countOog (r : Run) (ps : List SplIn) : Run :=
  { r with m := { r.m with oog := r.m.oog + (ps.filter (fun p => p.outside)).length } }

def runSpl (r : Run) : Run :=
  let ws := bankOf r
  let aff := affineOf r
  countRows (forRows (fun r i =>
    let x := readRowOf (useStart r i) i
    if halted x.1 then x.1
    else
      let ps := splInputs r.m.tmpl r.m.knots aff x.2.toArray
      giveRow (countOog x.1 ps) i (splRow ps ws (startRow r i))) (tN r.m.tmpl) (useCells r 64))

def execArrSpl (id : Nat) (s : State) : Out := startCmd id 2 3 runSpl s

/-- The gradient stores under way with the run. -/
structure GradRun where
  r : Run
  st : GradSt
  deriving DecidableEq, Repr

/-- One input row with its gradient row. -/
def gradStep (aff : Array (BitVec 32)) (x : GradRun) (i : Nat) : GradRun :=
  let m := x.r.m
  let a := readRowOf x.r i
  let b := readAt a.1 0 ((m.dst : Int) + (i : Nat) * tDstStep m.tmpl 0) 256
  if halted b.1 then { x with r := b.1 }
  else
    let ps := splInputs m.tmpl m.knots aff a.2.toArray
    ⟨countOog b.1 ps, gradInputs m.knots.kg.toNat b.2.toArray x.st 0 ps⟩

def gradSteps (aff : Array (BitVec 32)) : Nat → GradRun → GradRun
  | 0, x => x
  | n + 1, x =>
    let y := gradSteps aff n x
    if halted y.r then y else gradStep aff y n

/-- Give the gradient rows back to the core. -/
def giveGrads (gs : Array (BitVec 32)) (r : Run) (i : Nat) : Run :=
  let xs := (List.range 1024).map (fun j => gs.getD (i * 1024 + j) 0)
  if tAcc r.m.tmpl = false ∨ xs ≠ gradRow r.s.core i then putGradRow r i xs else r

def runGrad (r0 : Run) : Run :=
  let t := r0.m.tmpl
  let r := if tAcc t then useRows r0 6 0 (tNin t) else r0
  let n := tNin t
  let old := if tAcc t then mrange r.s.core.grads 0 (n * 1024) else List.replicate (n * 1024) 0
  let x := gradSteps (affineOf r) (tN t) ⟨r, ⟨old.toArray, false⟩⟩
  if halted x.r then x.r
  else
    let r1 := noteExc (forRows (giveGrads x.st.gs) n x.r) x.st.exc
    countRows (if tKat t then { r1 with m := { r1.m with digest := some (digestOf x.st.gs.toList) } } else r1)

def execArrGrad (id : Nat) (s : State) : Out := startCmd id 2 4 runGrad s

/-- Refine one row of cells and clear its gradients (R164). -/
def refineRow (r0 : Run) (i : Nat) : Run :=
  let t := r0.m.tmpl
  let row := tRow0 t + i
  let r := useRow r0 4 (tBank t * 64 + row)
  let ws := mrange r.s.core.cells (cellKey (tBank t) row) 1024
  let cs := (List.range 64).map (fun c => refineCell r.m.knots.kg.toNat ((ws.drop (16 * c)).take 16))
  if halted r then r
  else
    let r1 := putCells r (tBank t) row (cs.flatMap (fun c => c.1))
    noteExc (putGradRow r1 row (List.replicate 1024 0)) (cs.any (fun c => c.2))

def runRefine (r : Run) : Run := forRows refineRow (tN r.m.tmpl) r

def execArrRefine (id : Nat) (s : State) : Out := startCmd id 2 5 runRefine s

/-! ### ARR.DRAIN (R165) -/

/-- The values of drained row `i`. -/
def drainRow (r : Run) (i : Nat) : List (BitVec 32) :=
  let t := r.m.tmpl
  let row := tRow0 t + i
  if tSel t then (gradRow r.s.core row).map (fun x => BitVec.ofNat 32 (fMul fp32 0 x.toNat k6).1)
  else tileRow r.s.core (tTile t) row

/-- Clear what was read. -/
def clearRow (r : Run) (i : Nat) : Run :=
  let t := r.m.tmpl
  let row := tRow0 t + i
  if tAcc t then
    (if tSel t then putGradRow r row (List.replicate 1024 0) else putTileRow r (tTile t) row (List.replicate 64 0))
  else r

/-- The place of destination row `i`. -/
def dstRowPlace (r : Run) (i : Nat) : Int :=
  let t := r.m.tmpl
  if tDsp t = 3 then
    let g := runRing r
    ((ringTo r.s r.m + i * ringRowsOf g (dstRowBytes t) * 2 ^ g.lgrow : Nat) : Int)
  else dstBase r.s r.m + (i : Nat) * tDstStep t 0

/-- Windows of 64 elements (R196). -/
def windowsOf : Nat → List (Nat × BitVec 32) → List (List (Nat × BitVec 32))
  | 0, _ => []
  | _, [] => []
  | n + 1, xs => xs.take 64 :: windowsOf n (xs.drop 64)

/-- Elements up to the first beyond the cluster scratchpad, and that one's offset (R167). -/
def inBounds : List (Nat × BitVec 32) → List (Nat × BitVec 32) × Option Nat
  | [] => ([], none)
  | e :: r => if e.1 + 4 ≤ spkSize then (e :: (inBounds r).1, (inBounds r).2) else ([], some e.1)

/-- Elements for the scatter engine join the command's windows; one beyond the scratchpad ends it, those before it stay. -/
def giveWindows (r : Run) (es : List (Nat × BitVec 32)) : Run :=
  let x := inBounds es
  let r1 : Run := { r with m := { r.m with windows := r.m.windows ++ windowsOf (x.1.length + 1) x.1 } }
  match x.2 with
  | none => r1
  | some off => failRun r1 0x0B off

def scatRow (r : Run) (i : Nat) (xs : List (BitVec 32)) : Run :=
  let n := dstRowBytes r.m.tmpl / 4
  giveWindows r ((List.range n).map (fun e => (tCbase r.m.tmpl + 4 * (i * n + e), xs.getD e 0)))

def drainStep (r0 : Run) (i : Nat) : Run :=
  let t := r0.m.tmpl
  let row := tRow0 t + i
  let r := if tSel t then useRow r0 6 row else useRow r0 5 (tTile t * 64 + row)
  let xs := drainRow r i
  let r1 := if halted r then r else if tSc t then scatRow r i xs else writeAt r (tDsp t) (dstRowPlace r i) (xs.flatMap (fun x => leBytes 4 x.toNat))
  if halted r1 then r1
  else
    let h := xs.foldl digestStep (r.m.digest.getD 0)
    let r2 := noteExc (clearRow r1 i) (xs.any (fun x => exceptional x.toNat))
    if tKat t then { r2 with m := { r2.m with digest := some h } } else r2

def runDrain (r : Run) : Run := countRows (forRows drainStep (tN r.m.tmpl) r)

def execArrDrain (id : Nat) (s : State) : Out := startCmd id 2 6 runDrain s

/-- ARR.ROWOUT reads its row when it retires: nothing writes the tile until then (R154, R166). It only moves a NaN or an infinity and
sets no EXC; ARR.DRAIN, which writes them to memory, sets it (DEDUCED from R157, log entry 100). -/
def execArrRowout (id : Nat) (s : State) : Out :=
  startCmd id 2 7 (fun r => useRow r 5 (tTile r.m.tmpl * 64 + tRow0 r.m.tmpl)) s

/-! ### Scatter commands (R167, R196) -/

def runScat (r : Run) : Run :=
  let t := r.m.tmpl
  let n := tExt t 0
  let x := readAt r 0 r.m.src (4 * n)
  let y := readAt x.1 0 r.m.dst (4 * n)
  if halted y.1 then y.1
  else giveWindows y.1 ((words32 x.2).zip (words32 y.2) |>.map (fun p => (tCbase t + 4 * p.1.toNat, p.2)))

def execScatAdd (id : Nat) (s : State) : Out := startCmd id 3 1 runScat s

def execScatMax (id : Nat) (s : State) : Out := startCmd id 3 2 runScat s

/-- The merge operation of a command: SCAT.ADD also serves ARR.DRAIN (R165, R167). -/
def mergeOp (t : BitVec 1024) (x y : BitVec 32) : BitVec 32 :=
  let takeMax := decide (tEng t = 3) && decide (tOp t = 2)
  if tVf t = 0 then
    BitVec.ofNat 32 (if takeMax then fMinMax fp32 true x.toNat y.toNat else fAdd fp32 0 x.toNat y.toNat).1
  else if takeMax then (if x.slt y then y else x)
  else x + y

/-- One distinct word of a window: its elements combined in order, then merged (R196). -/
def mergeWord (t : BitVec 1024) (w : List (Nat × BitVec 32)) (x : State × Bool) (off : Nat) : State × Bool :=
  match (w.filter (fun e => decide (e.1 = off))).map (fun e => e.2) with
  | [] => x
  | v :: r =>
    let pa := spkAddr x.1 off
    let old := BitVec.ofNat 32 (leNat (readMem x.1 pa 4))
    let new := mergeOp t old (r.foldl (mergeOp t) v)
    (writeMem x.1 pa (leBytes 4 new.toNat), x.2 || (decide (tVf t = 0) && exceptional new.toNat))

/-- The command whose windows entered the engine first. -/
def firstScatter (s : State) : Option Cmd :=
  (s.core.cmds.filter (fun m => decide (m.windows ≠ []) && decide (m.state = .done))).foldl (fun b m =>
    match b with
    | none => some m
    | some x => if m.startAt < x.startAt ∨ (m.startAt = x.startAt ∧ m.slot < x.slot) then some m else some x) none

/-- The scatter engine may merge the next window of a command: it is the first in order, its clause has sealed (R196). -/
def windowReady (s : State) (id : Nat) : Bool :=
  match firstScatter s with
  | none => false
  | some m => decide (m.id = id) && !unsealed s.core m.clause && clockRuns s

def execScatterWindow (id : Nat) (s : State) : Out :=
  match findCmd s id with
  | none => .next s
  | some m =>
    if windowReady s id then
      match m.windows with
      | [] => .next s
      | w :: rest =>
        .next (gated s m.ctx (logMerge s m.slot (BitVec.ofNat 16 (tTag m.tmpl)) m.merged) (fun u =>
          let x := ((dedup (w.map (fun e => e.1)).reverse).reverse).foldl (mergeWord m.tmpl w) (u, false)
          putCmd x.1 { m with windows := rest, merged := m.merged + 1, exc := m.exc || x.2 }))
    else .next s

/-! ### The follow-on of a COPYF (R101) -/

/-- Commands of an engine that wait in its queue, of both slots (R99). -/
def queuedCmds (s : State) (eng : Nat) : Nat :=
  (s.core.cmds.filter (fun m => decide (m.eng = eng) && decide (m.state = .queued) && !m.retired)).length

def engineDepth (eng : Nat) : Nat := if eng = 1 then 32 else 16

/-- The landing slot an ARR.ROWOUT fills, as its key. -/
def rowoutKey (t : BitVec 1024) : Option Nat := if isArr t 7 then some (8 * tLv t + tLb t) else none

def slotBusy (s : State) (k : Nat) (t : BitVec 1024) : Bool :=
  match rowoutKey t with
  | none => false
  | some key =>
    match getLanding (getCtl s k) key with
    | .xfer id _ => (mfind (getSlot s k).arrived id).isNone
    | .free _ => false

/-- The base of an operand after aperture resolution, 0 where there is none in core scratchpad. -/
def baseOf (y : Slot) (t : BitVec 1024) (second : Bool) : Nat :=
  let os := (operandsOf t).filter (fun o => decide (o.space = 0))
  let both := (decide (os.length = 2) && decide (tEng t ≠ 1)) || (isArr t 4 && srcRing t)
  let pick := os.filter (fun o => if second then o.dst || both else !o.dst)
  match (if second then pick.getLast? else pick.head?) with
  | none => 0
  | some o => match resolveOpnd y o with | .ok a => a | .error _ => 0

/-- The knot registers UPK sets (R164). -/
def upkKnots (k : Knots) : List Change :=
  [.knotSet 3 ((k.kg + k.kg).setWidth 32), .knotSet 1 (k.kstep - 0x00800000),
   .knotSet 2 (BitVec.ofNat 32 (fMul fp32 0 k.kinv.toNat 0x40000000).1)]

/-- Put a command into its engine's queue: it counts as outstanding, its landing slot becomes BUSY, UPK moves the knot
registers on (R102, R143, R164, R166); that of a follow-on acts when the copy engine enqueues it (DEDUCED, log entry 101). -/
def enqueueCmd (s : State) (m0 : Cmd) : State :=
  let id := freshId s
  let m := { m0 with id := id }
  let s1 := bumpId { s with core := { s.core with cmds := s.core.cmds ++ [m] } }
  let land := match rowoutKey m.tmpl with | some key => [Change.landSet key (.xfer id m.clause)] | none => []
  let upk := if isArr m.tmpl 5 ∧ tUpk m.tmpl = true then upkKnots s.core.ctl.knots else []
  let word := m.eng + tOp m.tmpl * 2 ^ 4 + tCc m.tmpl * 2 ^ 12
  let s2 := traceThread (changes s1 m.slot m.clause ([Change.ccIssue (tCc m.tmpl)] ++ land ++ upk)) m.slot 3
    [(getSlot s m.slot).scyc.toNat, word, tTag m.tmpl]
  if upk = [] ∨ unsealed s.core m.clause = false then s2
  else if s.core.undoUsed + 24 ≤ undoSize then
    putCmd { s2 with core := { s2.core with undoUsed := s2.core.undoUsed + 24 } } { m with charge := 24 }
  else putCmd (addOverflow s2 m.slot) { m with noUndo := true }

/-- A new command of a slot's thread. -/
def cmdOf (y : Slot) (now k cl eng : Nat) (t : BitVec 1024) (kn : Knots) (follow : Option (BitVec 1024)) : Cmd :=
  { id := 0, slot := k, clause := cl, ctx := y.thread.ctx, smode := y.thread.smode, eng := eng, tmpl := t,
    knots := kn, follow := follow, followDone := false, src := baseOf y t false, dst := baseOf y t true, issuedAt := now, startAt := 0,
    endAt := 0, endId := 0, state := .queued, retired := false, fault := none, exc := false, oog := 0, digest := none, undo := [], charge := 0,
    noUndo := false, rowsOut := 0, rowsIn := 0, windows := [], merged := 0, pages := [] }

/-- A command of slot `k`'s thread, with its tag. -/
def newCmd (s : State) (k cl eng : Nat) (t : BitVec 1024) (kn : Knots) (follow : Option (BitVec 1024)) : Cmd :=
  cmdOf (getSlot s k) s.now k cl eng (withTag t (getSlot s k).thread.tag) kn follow

/-- The copy has landed without a fault, a ring destination's clause has sealed, and the follow-on is still to come (R101). -/
def copyLanded (s : State) (m : Cmd) : Bool :=
  decide (m.state = .done) && !m.retired && !m.followDone && decide (m.fault = none) && clockRuns s && m.follow.isSome &&
    (!dstRing m.tmpl || !unsealed s.core m.clause)

/-- A tail advance that waits for neither room nor a landing slot (R98, R101). -/
def followTail (m : Cmd) : Bool := dstRing m.tmpl && decide (m.rowsOut ≠ 0)

/-- The array queue has room for the follow-on, and a row's landing slot is not BUSY (R101). -/
def followRoom (s : State) (m : Cmd) : Bool :=
  decide (queuedCmds s 2 < engineDepth 2) && (match m.follow with | some f => !slotBusy s m.slot f | none => false)

/-- The event has something to do. -/
def followReady (s : State) (m : Cmd) : Bool := copyLanded s m && (followTail m || followRoom s m)

/-- COPYF_FOLLOW_ON: the ring's tail advances once the copy has landed and its clause has sealed; the follow-on is enqueued in the
same cycle, or as soon as it finds room. -/
def execCopyfFollowOn (id : Nat) (s : State) : Out :=
  match findCmd s id with
  | none => .next s
  | some m =>
    match m.follow with
    | none => .next s
    | some f =>
      if copyLanded s m then
        let m1 : Cmd := { m with rowsOut := 0 }
        let s1 := if followTail m then putCmd (change s m.slot 0 (.ringTail (tRing m.tmpl) m.rowsOut)) m1 else s
        if followRoom s m then
          let s2 := putCmd s1 { m1 with followDone := true }
          .next (enqueueCmd s2 (newCmd s2 m.slot m.clause 2 f m.knots none))
        else .next s1
      else .next s

/-! ### Retirement (R102, R144, R147, R168) -/

/-- The command may retire: it has run, its last merge is performed, its follow-on is enqueued (R101, R196). -/
def retireReady (s : State) (m : Cmd) : Bool :=
  decide (m.state = .done) && !m.retired && decide (m.startAt < s.now) && decide (m.windows = []) && clockRuns s &&
    (decide (m.follow = none) || m.followDone || m.fault.isSome)

/-- The row an ARR.ROWOUT brings. -/
def rowoutRow (s : State) (t : BitVec 1024) : Row :=
  rowOf 32 (((tileRow s.core (tTile t) (tRow0 t)).drop (32 * tHalf t)).take 32 |>.map (fun x => x.toNat))

/-- The row lands in its slot, which becomes FULL; the transfer counts (R296). -/
def landRow (s : State) (m : Cmd) : State :=
  if isArr m.tmpl 7 then
    let y := getSlot s m.slot
    pmCount (setSlot s m.slot { y with arrived := mput y.arrived m.id ⟨rowoutRow s m.tmpl, none, none⟩ }) m.slot m.clause 11 1
  else s

/-- Hold an effect of a command for its clause, or let it act where the clause has sealed. -/
def egress (s : State) (m : Cmd) (e : Effect) : State :=
  if unsealed s.core m.clause then hold s m.slot m.clause e
  else bumpId (releaseOne s ⟨freshId s, m.slot, m.clause, clockOf s m.slot .C, e⟩)

/-- The bits of its signal mask, where it has not faulted (R144). -/
def signalCmd (s : State) (m : Cmd) : State :=
  if m.fault = none ∧ tSignal m.tmpl ≠ 0 then egress s m (.evset (tEw m.tmpl) (tSignal m.tmpl)) else s

def tailCmd (s : State) (m : Cmd) : State :=
  if m.rowsOut = 0 then s else egress s m (.ringTail (tRing m.tmpl) m.rowsOut)

/-- The arrival of a command on its counter, in the cycle before this event (R145). -/
def arrival (s : State) (m : Cmd) (t : BitVec 1024) : Change := .ccArrive (tCc t) ⟨m.id, m.fault, s.now⟩ m.exc

/-- A follow-on whose copy faulted arrives faulted on its own counter (R147). -/
def followArrival (s : State) (m : Cmd) : List Change :=
  match m.follow with
  | some f => if m.fault.isSome then [.ccIssue (tCc f), .ccArrive (tCc f) ⟨m.id, m.fault, s.now⟩ false] else []
  | none => []

def execCommandRetire (id : Nat) (s : State) : Out :=
  match findCmd s id with
  | none => .next s
  | some m =>
    if retireReady s m then
      let dig := match m.digest with | some h => if m.fault = none then [Change.digSet (tKd m.tmpl) h] else [] | none => []
      let oog := if m.oog = 0 then [] else [Change.koogAdd m.oog]
      let head := if m.rowsIn = 0 then [] else [Change.ringHead (tRing m.tmpl) m.rowsIn]
      let s1 := changes s m.slot m.clause ([arrival s m m.tmpl] ++ followArrival s m ++ dig ++ oog ++ head)
      let s2 := traceThread (pmCount (signalCmd (tailCmd (landRow s1 m) m) m) m.slot m.clause 10 1) m.slot 4
        [(getSlot s m.slot).scyc.toNat, m.eng + tCc m.tmpl * 2 ^ 12, if m.fault.isSome then 1 else 0]
      let done := { m with retired := true, endAt := s.now, endId := freshId s2 }
      if unsealed s2.core m.clause then .next (bumpId (putCmd s2 done))
      else
        .next { s2 with core := { s2.core with
          cmds := s2.core.cmds.filter (fun o => decide (o.id ≠ id)), sealedExec := sealedRun [m.clause] s2.core.sealedExec done } }
    else .next s

end Sys2Proof.Machine
end

