-- ==== Sys2Proof/Machine/ImageRead.lean ====
section
/-! DEFINITION. What a restore reads back of a cluster image (R210, R262) and of a core image (R186). An image that stands as this
package wrote it brings what it was written from; of any other the bytes decide, and what they do not tell is free (DESIGN CHOICE, log
entry 42). -/

namespace Sys2Proof.Machine

/-! ### Bytes -/

/-- A number at a place of an area. -/
def areaNat (s : State) (at_ : List (Nat × Nat)) (off n : Nat) : Nat := leNat (areaBytes s at_ off n)

/-- Values of `size` bytes each, from bytes by place. -/
def mapFrom (w size : Nat) (bs : Memory) : SMap w :=
  bs.foldl (fun m p => sset m (p.1 / size) (sget m (p.1 / size) ||| BitVec.ofNat w (p.2.toNat * 256 ^ (p.1 % size)))) []

/-! ### Core images (Table 11.6) -/

/-- Where a part that stands once for each slot begins in a core image. -/
def slotPart (j k : Nat) : Nat := 2 * (slotSizes.take j).sum + k * slotSizes.getD j 0

/-- Where the unstarted commands begin, and the windows. -/
def commandsOff : Nat := 2 * slotSizes.sum
def windowsOff : Nat := commandsOff + 64 * 128

/-- Base and length of a slot's window, in units. -/
def windowAt (rd : Nat → Nat → Nat) (k : Nat) : Nat × Nat :=
  let x := rd (slotPart 6 k + 8) 8
  (bits x 12 20, bits x 32 32)

/-- Where the array's state begins, and where the image ends. -/
def arrayOff (rd : Nat → Nat → Nat) : Nat := windowsOff + ((windowAt rd 0).2 + (windowAt rd 1).2) * 4096

def coreSize (rd : Nat → Nat → Nat) : Nat := arrayOff rd + 327680 + 262144 + 131072 + 512 + 24

/-- A voice of an image: latencies that remain, ages so far. -/
def voiceFrom (rd : Nat → Nat → Nat) (v : VoiceId) (k : Nat) (old : Voice) : Voice :=
  let base := slotPart 0 k + v.num * 0x3080
  let a := recVoice rd v base (2 ^ 16) (bit (rd (base + 0x3070) 1) 1) old.a.dslots old.a.wait
  let b : VoiceArch := { a with
    vrnd := old.a.vrnd, handler := decide (v = .A) && bit (rd (base + 0x18) 1) 2
    pending := a.pending.map (fun p => { p with due := p.due + 1 - 2 ^ 16, age := 2 ^ 16 - p.age }) }
  { old with a := b, img := b }

def syncFrom (rd : Nat → Nat → Nat) (k : Nat) : KMap SyncBit :=
  ((List.range 32).filter (fun i => bit (rd (slotPart 1 k + 16 * (i / 8)) 1) (i % 8))).foldl (fun m i => mput m i ⟨0, 0, []⟩) []

def bqFrom (rd : Nat → Nat → Nat) (k : Nat) (v : VoiceId) : List BqEntry :=
  let o := slotPart 1 k + 16 * v.num
  (List.range (min 8 (rd (o + 2) 1))).map (fun i => ⟨bit (rd (o + 1) 1) i, 0, 0, []⟩)

/-- Entries of a queue, and the head's place. -/
def queueSpan (rd : Nat → Nat → Nat) (k q : Nat) : Nat × Nat :=
  let o := slotPart 2 k + 14336 + 6 * q
  (rd o 3, min (if q < 6 then 16 else 8) (rd (o + 3) 3 - rd o 3))

def queuesFrom (rd : Nat → Nat → Nat) (k id0 : Nat) : KMap (List QEntry) :=
  (List.range 8).foldl (fun m q => mset [] m q ((List.range (queueSpan rd k q).2).map (fun i => ⟨id0 + 16 * q + i, 0, []⟩))) []

def qvalsFrom (rd : Nat → Nat → Nat) (k id0 : Nat) : KMap QVal :=
  (List.range 8).foldl (fun m q => (List.range (queueSpan rd k q).2).foldl (fun m i =>
    mput m (id0 + 16 * q + i)
      ⟨BitVec.ofNat 1024 (rd (slotPart 2 k + queueBase q + 128 * ((queueSpan rd k q).1 + i)) 128), none⟩) m) []

/-- The state and the contents of a landing slot. -/
def landingAt (rd : Nat → Nat → Nat) (k key : Nat) : Nat × Row :=
  let o := slotPart 3 k
  (rd (o + 64 + 2048 + key) 1, BitVec.ofNat 1024 (if key < 8 then rd (o + 8 * key) 8 else rd (o + 64 + 128 * (key - 8)) 128))

def landingFrom (rd : Nat → Nat → Nat) (k id0 : Nat) : KMap Landing :=
  (List.range 24).foldl (fun m key => mset (.free 0) m key
    (if (landingAt rd k key).1 = 0 then .free (landingAt rd k key).2 else .xfer (id0 + 128 + key) 0)) []

/-- A slot that is still BUSY waits for the reply of a remote read (R286), which an image of another package does not name: what it
brings is free. -/
def arrivedFrom (f : Nat) (rd : Nat → Nat → Nat) (k id0 : Nat) : KMap Arrival :=
  ((List.range 24).filter (fun key => decide ((landingAt rd k key).1 ≠ 0))).foldl (fun m key =>
    mput m (id0 + 128 + key)
      ⟨if (landingAt rd k key).1 = 1 then Config.imageField f (id0 + 128 + key) else (landingAt rd k key).2, none, none⟩) []

def streamFrom (rd : Nat → Nat → Nat) (o : Nat) : Stream :=
  let f (i : Nat) : Nat := rd (o + 4 * i) 4
  let d (i : Nat) : Int := (BitVec.ofNat 32 (f i)).toInt
  { base := f 0, n0 := f 1, n1 := f 2, n2 := f 3, n3 := f 4, d0 := d 5, d1 := d 6, d2 := d 7, d3 := d 8, esz := f 9, decode := f 10,
    queue := f 11, drain := bit (f 12) 0, bound := bit (f 12) 1, finished := bit (f 12) 2, reserved := f 13, done := f 14, resolved := f 15 }

def streamsFrom (rd : Nat → Nat → Nat) (k : Nat) : KMap Stream :=
  ((List.range 8).filter (fun i => decide (rd (slotPart 4 k + 80 * i) 80 ≠ 0))).foldl (fun m i =>
    mput m i (streamFrom rd (slotPart 4 k + 80 * i))) []

def templatesFrom (rd : Nat → Nat → Nat) (k : Nat) : SMap 1024 :=
  (List.range 192).foldl (fun m i => sset m (64 + i) (BitVec.ofNat 1024 (rd (slotPart 5 k + 128 * i) 128))) []

def countersFrom (rd : Nat → Nat → Nat) (k : Nat) : KMap Counter :=
  (List.range 8).foldl (fun m i =>
    let f (j : Nat) : Nat := rd (slotPart 5 k + 24576 + 8 * i + 2 * j) 2
    mset counterZero m i ⟨List.replicate (f 0) ⟨0, none, 0⟩, f 1, f 2, bit (f 3) 0⟩) []

def ringsFrom (rd : Nat → Nat → Nat) (k : Nat) : KMap Ring :=
  (List.range 16).foldl (fun m i =>
    let f (j : Nat) : Nat := rd (slotPart 5 k + 24640 + 16 * i + 4 * j) 4
    mset ringZero m i ⟨f 0, f 1 % 256, f 1 / 256, f 2, f 3⟩) []

def pubsFrom (rd : Nat → Nat → Nat) (k : Nat) : KMap PubBuf :=
  (List.range 16).foldl (fun m i =>
    let f (j : Nat) : Nat := rd (slotPart 5 k + 24896 + 32 * i + 8 * j) 8
    if rd (slotPart 5 k + 24896 + 32 * i) 32 = 0 then m else mput m i ⟨f 0, f 1, f 2, bit (f 3) 0, bit (f 3) 1⟩) []

def statusFrom (rd : Nat → Nat → Nat) (k : Nat) : SMap 64 :=
  sset ((List.range 16).foldl (fun m i => sset m (0x18 + i) (w64 (rd (slotPart 6 k + 32 + 4 * i) 4))) []) 0x28
    (w64 (rd (slotPart 6 k + 112) 8))

def digestsFrom (rd : Nat → Nat → Nat) (k : Nat) : KMap Word :=
  ((List.range 8).filter (fun i => bit (rd (slotPart 6 k + 192 + i) 1) 0)).foldl (fun m i =>
    mput m i (w64 (rd (slotPart 6 k + 128 + 8 * i) 8))) []

def ctlFrom (rd : Nat → Nat → Nat) (k id0 : Nat) : Ctl :=
  { Ctl.fresh with
    sync := syncFrom rd k, bqA := bqFrom rd k .A, bqX0 := bqFrom rd k .X0, bqX1 := bqFrom rd k .X1, bqC := bqFrom rd k .C
    queues := queuesFrom rd k id0, landing := landingFrom rd k id0, counters := countersFrom rd k, digests := digestsFrom rd k
    templates := templatesFrom rd k, rings := ringsFrom rd k, streams := streamsFrom rd k
    syncset := BitVec.ofNat 4 (rd (slotPart 6 k) 8), status := statusFrom rd k }

/-- The array's state in an image. -/
def arrayFrom (s : State) (at_ : List (Nat × Nat)) : ArrayState :=
  let rd := areaNat s at_
  let o := arrayOff rd
  let knots := o + 327680 + 262144 + 131072 + 512
  let f (i : Nat) : Nat := rd (knots + 4 * i) 4
  let affine := mapFrom 32 4 (regionBytes s at_ (o + 327680 + 262144 + 131072) 512)
  { cells := mapFrom 16 2 (regionBytes s at_ o 262144), headers := mapFrom 16 2 (regionBytes s at_ (o + 262144) 65536)
    grads := mapFrom 32 4 (regionBytes s at_ (o + 327680) 262144), tiles := mapFrom 32 4 (regionBytes s at_ (o + 589824) 131072)
    affine := (List.range 128).foldl (fun m i => sset m i (sget affine i ^^^ (if i % 2 = 0 then 0x3F800000 else 0))) []
    knots := ⟨BitVec.ofNat 32 (f 0), BitVec.ofNat 32 (f 1), BitVec.ofNat 32 (f 2), BitVec.ofNat 4 (f 3), BitVec.ofNat 2 (f 4), BitVec.ofNat 32 (f 5)⟩ }

/-- The command images from a place on, at most `n`: up to the last that is not zero. -/
def templatesAt (rd : Nat → Nat → Nat) (o : Nat) : Nat → List (BitVec 1024)
  | 0 => []
  | n + 1 => if rd (o + 128 * n) 128 = 0 then templatesAt rd o n else (List.range (n + 1)).map (fun i => BitVec.ofNat 1024 (rd (o + 128 * i) 128))

/-- A value that the bytes do not tell. -/
def untold (s : State) (i : Nat) : Word := (Config.imageField s.fresh i).setWidth 64

/-- The slot a command belongs to: that of the one thread with its tag, or else of the one thread there is. -/
def ownerOf (s : State) (ts : List (Nat × SavedThread)) (t : BitVec 1024) (i : Nat) : Nat :=
  match ts.filter (fun p => decide (p.2.slot.thread.tag.toNat = tTag t)), ts with
  | [p], _ => p.1
  | _, [p] => p.1
  | _, _ => if (untold s i).getLsbD 0 then 1 else 0

/-- A command of an image; the knot registers and the follow-on it was issued with are not among its bytes. -/
def commandFrom (s : State) (k : Nat) (t : SavedThread) (c : BitVec 1024) (id i : Nat) : Cmd :=
  let w (j : Nat) : BitVec 32 := (untold s (8 * i + j)).setWidth 32
  { cmdOf t.slot 0 k 0 (tEng c) c ⟨w 1, w 2, w 3, (w 4).setWidth 4, (w 5).setWidth 2, w 6⟩
      (if tEng c = 1 ∧ tOp c = 2 then some (Config.imageField s.fresh (8 * i + 7)) else none) with id := id }

/-- The threads with their unstarted commands, in order. -/
def withCommands (s : State) (ts : List (Nat × SavedThread)) (cs : List (BitVec 1024)) (id0 i0 : Nat) : List (Nat × SavedThread) :=
  ts.map (fun p => (p.1, { p.2 with cmds := p.2.cmds ++ (List.range cs.length).filterMap (fun i =>
    match cs[i]? with
    | some c => if ownerOf s ts c (i0 + i) = p.1 then some (commandFrom s p.1 p.2 c (id0 + i) (i0 + i)) else none
    | none => none) }))

/-- The thread of slot `k` of a core image, over what is known of it otherwise; its record of a trap lies where the context's area
puts it. -/
def threadFrom (s : State) (c : Context) (at_ : List (Nat × Nat)) (k id0 : Nat) (old : SavedThread) : SavedThread :=
  let rd := areaNat s at_
  let y := old.slot
  let base := slotPart 0 k
  let inH := bit (rd (base + 0x18) 1) 2
  let sig := bit (rd (base + 0x3070) 1) 2
  let lo := windowsOff + (if k = 0 then 0 else (windowAt rd 0).2 * 4096)
  let win := windowAt rd k
  let a := arrayFrom s at_
  { old with
    slot := { y with
      run := if inH then .handler else .running
      thread := { y.thread with smode := bit (rd (base + 0x18) 1) 1, winBase := win.1, winLen := win.2 }
      vA := voiceFrom rd .A k y.vA, vX0 := voiceFrom rd .X0 k y.vX0, vX1 := voiceFrom rd .X1 k y.vX1, vC := voiceFrom rd .C k y.vC
      recAddr := if inH then ((c.trapArea.map (fun x => x.toNat + (2 * s.core.index + k) * 0x18480)).getD 0) else 0
      heldSignal := inH && sig, pendSignal := !inH && sig
      scyc := w64 (rd (slotPart 6 k + 16) 8), rollcnt := BitVec.ofNat 32 (rd (slotPart 6 k + 96) 8)
      undoovf := BitVec.ofNat 32 (rd (slotPart 6 k + 104) 8)
      pubs := pubsFrom rd k, qvals := qvalsFrom rd k id0, xfers := [], arrived := arrivedFrom s.fresh rd k id0 }
    ctl := ctlFrom rd k id0
    window := (regionBytes s at_ lo (win.2 * 4096)).map (fun p => (p.1 + win.1 * 4096, p.2))
    cells := a.cells, headers := a.headers, grads := a.grads, tiles := a.tiles, affine := a.affine, knots := a.knots }

/-- A thread of which nothing else is known than its bytes will tell. -/
def strangeThread (s : State) (n i : Nat) : SavedThread :=
  let w (j : Nat) : Word := untold s (64 * i + j)
  let v (j : Nat) : Voice := { Voice.empty with a := { VoiceArch.fresh 0 with dslots := (w j).toNat % 3, vrnd := (w (j + 4)).setWidth 2 } }
  { slot := { Slot.empty with
      thread := { Thread.none with
        ctx := n, tag := (w 0).setWidth 16, rec0 := w 1, rec1 := w 2, rec2 := w 3, rec3 := w 4, tokens := (w 5).toNat % 16
        killable := (w 6).getLsbD 0, stage := (w 7).setWidth 9 |>.setWidth 16, estimate := w 8 }
      vA := v 10, vX0 := v 11, vX1 := v 12, vC := v 13, recExited := (w 9).getLsbD 0 }
    ctl := Ctl.fresh, window := [], cmds := [], cells := [], headers := [], grads := [], tiles := [], affine := [], knots := Knots.reset
    ticket := 4 + freshId s + i, groups := [], arrivals := [], stored := none }

/-- Numbers set aside for what one core image brings. -/
def idsOf (s : State) (i : Nat) : Nat := freshId s + 1024 + 512 * i

/-- The threads of a core image of another package: those whose windows are not empty. Images are counted from `i` on. -/
def coreThreads (s : State) (c : Context) (n : Nat) (at_ : List (Nat × Nat)) (i : Nat) : List (Nat × SavedThread) :=
  let rd := areaNat s at_
  let ks := [0, 1].filter (fun k => decide ((windowAt rd k).2 ≠ 0))
  let ts := ks.map (fun k => (k, threadFrom s c at_ k (idsOf s (2 * i + k)) (strangeThread s n (2 * i + k))))
  withCommands s ts (templatesAt rd commandsOff 64) (idsOf s (2 * i) + 256) (2 ^ 20 + 64 * i)

/-- The core image of a saved thread as the memory holds it now (R186). -/
def fromStore (s : State) (t : SavedThread) : SavedThread :=
  match t.stored with
  | none => t
  | some x =>
    let at_ := [(x.addr, 2 ^ 43)]
    let rd := areaNat s at_
    if regionBytes s at_ 0 (coreSize rd) = x.bytes then t
    else
      let u := threadFrom s (getCtx s t.slot.thread.ctx) at_ x.slot (idsOf s 0)
        { t with cmds := t.cmds.filter (fun m => decide (m.eng = 3)) }
      let cs := (templatesAt rd commandsOff 64).filter (fun c => decide (tTag c = t.slot.thread.tag.toNat))
      match withCommands s [(x.slot, u)] cs (idsOf s 0 + 256) 0 with
      | (_, v) :: _ => v
      | [] => u

/-! ### Cluster images (Table 12.9) -/

def flagsFrom (bs : List Byte) : SMap 32 :=
  (List.range 256).foldl (fun m i => sset m i (BitVec.ofNat 32 (fieldAt bs (4 * i) 4))) []

def groupsFrom (bs : List Byte) : SMap 16 :=
  (List.range 256).foldl (fun m i => sset m i (BitVec.ofNat 16 (fieldAt bs (2 * i) 2))) []

/-- A barrier of the image; the threads that wait on it are those of the image. -/
def barrierFrom (old : Barrier) (bs : List Byte) : Barrier :=
  let x := fieldAt bs 0 8
  let y := fieldAt bs 8 8
  { old with
    group := BitVec.ofNat 8 x, bound := bit x 8, phase := BitVec.ofNat 32 (x / 2 ^ 32), e := BitVec.ofNat 16 y
    a := BitVec.ofNat 16 (y / 2 ^ 16), early := BitVec.ofNat 16 (y / 2 ^ 32) }

def barriersFrom (old : KMap Barrier) (bs : List Byte) : KMap Barrier :=
  (List.range 64).foldl (fun m k => mset barrierZero m k (barrierFrom (mget barrierZero old k) (bs.drop (16 * k)))) []

/-- Records up to the last that is not zero; their tags are not among the bytes. -/
def recordsFrom (s : State) (n : Nat) (rd : Nat → Nat → Nat) : List QRec :=
  let live := (List.range 256).filter (fun i => decide (rd (2560 + 32 * i) 32 ≠ 0))
  (List.range ((live.getLast?.map (fun i => i + 1)).getD 0)).map (fun i =>
    let f (j : Nat) : Word := w64 (rd (2560 + 32 * i + 8 * j) 8)
    ⟨n, (untold s (2 ^ 16 + i)).setWidth 16, f 0, f 1, f 2, f 3, (recGroup (f 3)).isSome, none, 0⟩)

/-- The queues of the declared pipelines from a place on; what has overflowed lies in the overflow area, in the order of the stages
(R204). -/
def pipesFrom (s : State) (c : Context) (rd : Nat → Nat → Nat) : List (Nat × Nat × Nat × Nat) → Nat → KMap PipeQueue → KMap PipeQueue
  | [], _, m => m
  | (key, depth, area, before) :: r, o, m =>
    let n := min depth (rd o 4)
    let items := (List.range n).map (fun i => w64 (rd (o + 8 + 8 * i) 8))
    let beyond := (List.range (rd (o + 4) 4)).map (fun i =>
      match readVirtual s c (area + 8 * (before + i)) 8 with
      | some bs => w64 (leNat bs)
      | none => untold s (2 ^ 17 + 256 * key + i))
    pipesFrom s c rd r (o + 8 + 8 * depth) (mset ⟨[], []⟩ m key ⟨items, beyond⟩)

/-- The queues of the declarations in order: key, depth, overflow area, items there that precede its own. -/
def pipeList (rd : Nat → Nat → Nat) : KMap PipeDecl → Nat → List (Nat × Nat × Nat × Nat)
  | [], _ => []
  | (p, d) :: r, o =>
    let at_ (st : Nat) : Nat := o + ((List.range st).map (fun i => 8 + 8 * d.depths.getD i 1)).sum
    (List.range (d.nodes.length - 1)).map (fun st =>
      (8 * p + st, d.depths.getD st 1, d.overAddr, ((List.range st).map (fun i => rd (at_ i + 4) 4)).sum)) ++
      pipeList rd r (at_ (d.nodes.length - 1))

/-- The checkpointed threads, whose core images follow: record by record. -/
def addStored (s : State) (c : Context) (n : Nat) (at_ : List (Nat × Nat)) : Nat → Nat → List QRec → List QRec
  | 0, _, q => q
  | fuel + 1, off, q =>
    let here := spansFrom at_ off
    let rd := areaNat s here
    match coreThreads s c n here (fuel + 1) with
    | [] => q
    | (_, t) :: _ =>
      let i := rd (slotPart 6 0 + 120) 8
      addStored s c n at_ fuel (off + coreSize rd) ((List.range q.length).filterMap (fun j =>
        (q[j]?).map (fun x => if j + 1 = i then { x with saved := some { t with slot := { t.slot with thread := { t.slot.thread with
          tag := x.tag, rec0 := x.r0, rec1 := x.r1, rec2 := x.r2, rec3 := x.r3 } } }, pendingGroup := false } else x)))

/-- A cluster image by its bytes alone. -/
def strangeImage (s : State) (at_ : List (Nat × Nat)) (n : Nat) : ClusterImage :=
  let c := getCtx s n
  let rd := areaNat s at_
  let core := spansFrom at_ (coreOff c.pipes s.core.index)
  let ts := withCommands s (coreThreads s c n core 0) (templatesAt rd (scatterOff c.pipes) 128) (idsOf s 0 + 384) (2 ^ 21)
  { flags := [], groups := [], barriers := []
    queue := addStored s c n core 256 (coreSize (areaNat s core)) (recordsFrom s n rd)
    pipes := pipesFrom s c rd (pipeList rd c.pipes (reservesOff + 64)) (reservesOff + 64) []
    instances := c.pipes.foldl (fun m d => (List.range d.2.nodes.length).foldl (fun m st =>
      mset 0 m (8 * d.1 + st) ((untold s (2 ^ 18 + 8 * d.1 + st)).toNat % 2 ^ 32)) m) []
    spk := []
    threads := ts.map (fun p => (p.1, { p.2 with slot := { p.2.slot with thread := { p.2.slot.thread with
      reserve := bits (rd (reservesOff + 4 * memberBit s p.1) 1) 0 4 } } }))
    away := [], array := arrayFrom s core }

/-- The cluster image at spans of memory; its flag array is read last (R210). -/
def imageAt (s : State) (at_ : List (Nat × Nat)) (n : Nat) : ClusterImage :=
  let x := findFirst (fun (x : StoredCluster) => decide (imageBody s at_ x.len x.spkAt = x.bytes)) s.pkg.images
  let m := match x with
    | some x => x.image
    | none => strangeImage s at_ n
  { m with
    groups := groupsFrom (areaBytes s at_ groupsOff 512)
    barriers := barriersFrom m.barriers (areaBytes s at_ barriersOff 1024)
    spk := (regionBytes s at_ (spkOff (getCtx s n).pipes) spkSize).map (fun p => (spkBase + s.cluster.num * spkSize + p.1, p.2))
    flags := flagsFrom (areaBytes s at_ flagsOff 1024) }

/-- The image of this cluster in the area of a context image. -/
def readClusterImage (s : State) (spans : List (Nat × Nat)) (n : Nat) : ClusterImage :=
  imageAt s (spansFrom spans (clusterOff (getCtx s n) s.cluster.num)) n

/-- The image of a cluster that has never run a context (R187). -/
def unusedImage : ClusterImage :=
  { flags := [], groups := [], barriers := [], queue := [], pipes := [], instances := [], spk := [], threads := [], away := []
    array := ⟨[], [], [], [], [], Knots.reset⟩ }

/-- The numbers and free values that reading an image may have used. -/
def pastImage (s : State) : State :=
  { s with fresh := s.fresh + 1, core := { s.core with nextId := s.core.nextId + 2 ^ 19 } }

end Sys2Proof.Machine
end

