-- ==== Sys2Proof/Machine/Remote.lean ====
section
/-! DEFINITION. Remote reads on their way (R276, R277, R286): a read is sent once the thread's earlier remote writes of its bytes have
completed, and its answer is timed from there. -/

namespace Sys2Proof.Machine

/-- Bytes of a width code of a remote access (R10, Table 19.3). -/
def netWidth (code : Nat) : Nat := if code = 4 then 128 else 2 ^ code

/-- The address a fabric address names at its node. -/
def netAddr (fa : Nat) : Nat := bits fa 0 43

def netNode (fa : Nat) : Nat := bits fa 43 19

/-- The bytes of two remote accesses meet; a node's addresses never meet another's. -/
def netMeet (a n b m : Nat) : Bool := decide (a < b + m) && decide (b < a + n)

/-- An NWR before a transfer of slot `k`, to bytes it reads, has not completed. -/
def nwrPending (s : State) (k : Nat) (x : Xfer) : Bool :=
  s.core.held.any (fun h => decide (h.slot = k) && decide (h.id < x.id) &&
    (match h.eff with | .nwr _ fa _ w => netMeet x.va x.len fa (netWidth w) | _ => false)) ||
  s.core.nwrs.any (fun n => decide (n.slot = k) && !n.finished && decide (n.id < x.id) && netMeet x.va x.len n.fa (netWidth n.width))

/-- The width code of a transfer's length. -/
def lenCode (n : Nat) : Nat := if n = 128 then 4 else Nat.log2 n

def isSent (s : State) (id : Nat) : Bool := s.pkg.remotes.any (fun r => decide (r.1 = id))

/-- Send a remote read that nothing holds back any more. -/
def sendRead (k : Nat) (s : State) (x : Xfer) : State :=
  if !x.remote || isSent s x.id || (mfind (getSlot s k).arrived x.id).isSome || nwrPending s k x then s
  else
    match ctxJob s (getSlot s k).thread.ctx with
    | none => s
    | some (jk, j) =>
      let p := { newPacket s 2 j.id (getSlot s k).thread.tag (netNode x.va) with pa := netAddr x.va, width := lenCode x.len, reqid := x.id }
      let s1 := inject s jk p
      { s1 with pkg := { s1.pkg with remotes := s1.pkg.remotes ++ [(x.id, jk, s1.now)] } }

/-- Send the remote reads that may be sent. -/
def sendReads (s : State) : State :=
  let one (t : State) (k : Nat) : State := (getSlot t k).xfers.foldl (sendRead k) t
  one (one s 0) 1

/-- A thread is back on slot `k`: its remote reads under way are timed anew, and those not sent yet are sent (R286). -/
def resumeReads (s : State) (k : Nat) : State :=
  let waits (id : Nat) : Bool := (getSlot s k).xfers.any (fun x => x.remote && decide (x.id = id))
  sendReads { s with pkg := { s.pkg with
    remotes := s.pkg.remotes.map (fun r => if waits r.1 || s.core.nwrs.any (fun n => decide (n.id = r.1) && decide (n.slot = k)) then (r.1, r.2.1, s.now) else r) } }

end Sys2Proof.Machine
end

