-- ==== Sys2Proof/Machine/Sched.lean ====
section
/-! DEFINITION. The cluster's scheduler: node descriptors and kernel headers (R197, R268), placement (R93, R198, R199, R203),
pre-emption and time slices (R206, R207), pipelines that spill (R204), work stealing (R208), a lost scheduler (R209), gang
switching (R210). An event whose cause is not there changes nothing. -/

namespace Sys2Proof.Machine

/-- Cycles in `us` microseconds of the package clock (R254). -/
def microCycles (s : State) (us : Nat) : Nat := us * s.pkg.config.clockMhz

/-- The kernel header's fields pass R268 and R96. -/
def headerOk (bs : List Byte) : Bool :=
  let w := fieldAt bs 0x20 4
  let n := bits w 16 8
  (List.range 4).all (fun i => decide (fieldAt bs (8 * i) 8 % 4 = 0) && decide (fieldAt bs (8 * i) 8 < 2 ^ 52)) &&
  decide (bits w 10 6 = 0) && decide (bits w 24 8 = 0) && decide (n ≤ 16) &&
  decide (fieldAt bs 0x28 24 = 0) &&
  (List.range n).all (fun k =>
    let d := fieldAt bs (0x40 + 16 * k) 16
    decide (bits d 0 32 % 64 = 0) && decide (bits d 32 32 % 64 = 0) && decide (bits d 64 21 % 64 = 0) &&
      decide (64 ≤ bits d 64 21) && decide (bits d 64 21 ≤ 0x100000) && decide (bits d 85 43 = 0))

/-- The window holds what the header asks for. -/
def headerFits (bs : List Byte) (winLen : Nat) : Bool :=
  let w := fieldAt bs 0x20 4
  decide (tenBits w ≤ winLen) &&
  (List.range (bits w 16 8)).all (fun k =>
    let d := fieldAt bs (0x40 + 16 * k) 16
    decide (max (bits d 0 32) (bits d 32 32) + bits d 64 21 ≤ winLen * 4096))

/-- The publish buffers a header declares, for a window at `base` bytes. -/
def declaredPubs (bs : List Byte) (base : Nat) : KMap PubBuf :=
  (List.range (bits (fieldAt bs 0x20 4) 16 8)).map (fun k =>
    let d := fieldAt bs (0x40 + 16 * k) 16
    (k, ⟨base + bits d 0 32, base + bits d 32 32, bits d 64 21, false, true⟩))

/-- Everything a start reads. -/
structure Image where
  node : Node
  header : List Byte
  args : List Byte
  spad : List Byte
  deriving DecidableEq, Repr

def readImage (s : State) (c : Context) (r0 : Word) : Started Image :=
  match readNode s c r0 with
  | .bad r a => .bad r a
  | .ok n =>
    startRead s c n.header 0x140 (fun hd =>
      if !headerOk hd then .bad 0 0
      else if !headerFits hd n.winLen then .bad 2 0
      else
        startRead s c n.argAddr (16 * n.argCount) (fun args =>
          startRead s c n.imgAddr (min n.imgLen (n.winLen * 4096)) (fun img => .ok ⟨n, hd, args, img⟩)))

/-! ### Starting a task (R197, R17) -/

/-- Write an argument entry to both faces of its register. -/
def writeArg (inst : Nat) (stride : Word) (x : Slot) (bs : List Byte) : Slot :=
  let v := voiceOf (fieldAt bs 0 1 % 4)
  let val := w64 (fieldAt bs 8 8) + (if fieldAt bs 2 1 = 1 then w64 inst * stride else 0)
  let r : RegId := .s (fieldAt bs 1 1 % 32)
  let y := slotVoice x v
  let both (a : VoiceArch) : VoiceArch := { a with vis := faceSet a.vis r (row64 val), hid := faceSet a.hid r (row64 val) }
  setSlotVoice x v { y with a := both y.a, img := both y.img }

def entryVoice (bs : List Byte) (v : VoiceId) : Voice :=
  let a := VoiceArch.fresh (BitVec.ofNat 52 (fieldAt bs (8 * v.num) 8))
  { Voice.empty with a := a, img := a }

/-- Replace the bytes of a window: the image, then zeros. -/
def fillWindow (s : State) (t : Thread) (img : List Byte) : State :=
  let lo := t.winBase * 4096
  let n := t.winLen * 4096
  { s with core := { s.core with
      spad := writeBytes (mclear s.core.spad lo n) lo img
      poison := s.core.poison.filter (fun l => decide (64 * l < lo) || decide (lo + n ≤ 64 * l)) } }

/-- The slot of a new thread, which may issue from this cycle on. -/
def newSlot (s : State) (old : Slot) (q : QRec) (m : Image) (base : Nat) : Slot :=
  let c := getCtx s q.ctx
  let t : Thread :=
    { ctx := q.ctx, tag := q.tag, smode := c.smode, rec0 := q.r0, rec1 := q.r1, rec2 := q.r2, rec3 := q.r3,
      winBase := base, winLen := m.node.winLen, tokens := m.node.tokens, killable := m.node.killable, reserve := m.node.reserve,
      stage := m.node.stage, estimate := m.node.estimate, placedAt := s.now, sliceAt := s.now, sliceIssued := false }
  let x : Slot := keepDebug old { Slot.empty with
    run := .running, thread := t, startAt := s.now, pubs := declaredPubs m.header (base * 4096)
    vA := entryVoice m.header .A, vX0 := entryVoice m.header .X0, vX1 := entryVoice m.header .X1, vC := entryVoice m.header .C }
  (List.range m.node.argCount).foldl
    (fun x i => writeArg (recInstance q.r0) m.node.stride x ((m.args.drop (16 * i)).take 16)) x

/-- The task's membership of its groups begins with the member bit of the slot (R193). -/
def joinPlaced (s : State) (k : Nat) (q : QRec) : State :=
  setCluster s (placeRecord s.now s.cluster q (memberBit s k))

def startFresh (s : State) (k : Nat) (q : QRec) (m : Image) (base : Nat) : State :=
  let x := newSlot s (getSlot s k) q m base
  let s1 := fillWindow (setSlot s k x) x.thread m.spad
  openAll (joinPlaced (resetCtl (clearBanks s1 k) k Ctl.fresh) k q) k allVoices

/-- The LAUNCH_INVALID record (R249). -/
def kind5 (r0 : Word) (reason fault : Nat) : List Byte := dwords [5, r0.toNat % 2 ^ 32 + reason * 2 ^ 32, fault]

/-- A start that fails its checks: the record is gone, its tag is purged (R268). -/
def startFailed (s : State) (q : QRec) (reason fault : Nat) : State :=
  let s1 := postFault s q.ctx (kind5 q.r0 reason fault)
  let s2 := setCluster s1 (dropRecord s1.now s1.cluster q)
  purge s2 q.ctx q.tag

/-! ### A saved task placed again (R93, R186) -/

/-- Commands of the image re-enter their queues in their order. -/
def thawCmds (k : Nat) (cs : List Cmd) : List Cmd := cs.map (fun m => { m with slot := k, clause := 0 })

/-- The array's state comes back with the first thread of its core (R186, Table 11.6). -/
def restoreArray (c : Core) (m : SavedThread) : Core :=
  { c with
    cells := m.cells, headers := m.headers, grads := m.grads, tiles := m.tiles, affine := m.affine
    ctl := { c.ctl with knots := m.knots }, sctl := { c.sctl with knots := m.knots } }

/-- The thread goes on; its bank matrix and snapshot begin at zero (R295). -/
def restoreThread (s0 : State) (k : Nat) (m : SavedThread) : State :=
  let s := clearBanks s0 k
  let t := m.slot.thread
  let n := s.now
  let x : Slot := keepDebug (getSlot s k) { m.slot with
    vA := thawVoice n m.slot.vA, vX0 := thawVoice n m.slot.vX0, vX1 := thawVoice n m.slot.vX1, vC := thawVoice n m.slot.vC
    thread := { t with placedAt := n, sliceAt := n, sliceIssued := false }
    startAt := n, stop := if m.slot.run = .handler then m.slot.hstop else none, hstop := if m.slot.run = .handler then m.slot.hstop else none
    trapped := none, yielded := false, pendPreempt := false }
  let alone := decide ((getSlot s (1 - k)).run = .empty)
  let s1 := resetCtl (setSlot s k x) k m.ctl
  let lo := t.winBase * 4096
  let core1 := if alone then restoreArray s1.core m else s1.core
  let s2 : State := { s1 with core := { core1 with
    spad := m.window.foldl (fun b p => sset b p.1 p.2) (mclear s1.core.spad lo (t.winLen * 4096))
    cmds := s1.core.cmds ++ thawCmds k m.cmds } }
  resumeReads (openAll (rename s2 m.ticket k) k allVoices) k

/-! ### Placement (R93, R198, R199) -/

/-- A window of `len` units at `base` lies in the store beside the other slot's (R93). -/
def fitsAt (s : State) (k base len : Nat) : Bool :=
  let o := getSlot s (1 - k)
  decide (base + len ≤ 1024) &&
    (decide (o.run = .empty) || decide (base + len ≤ o.thread.winBase) || decide (o.thread.winBase + o.thread.winLen ≤ base))

/-- First fit: base 0, or the unit behind the other slot's window (R93). -/
def firstFit (s : State) (k len : Nat) : Option Nat :=
  let o := getSlot s (1 - k)
  findFirst (fun b => fitsAt s k b len) [0, o.thread.winBase + o.thread.winLen]

/-- Whether the scheduler places at all: its cluster is not switched or lost, the core is free of fences and freezes. -/
def mayPlace (s : State) : Bool :=
  !s.cluster.switchedOut && decide (s.cluster.switching = none) && !s.cluster.lost && !s.core.fenced &&
    decide (s.core.freeze = none) && decide (s.core.rollAt = none) && s.pkg.config.cores.getLsbD s.core.index

/-- The tokens a record is placed by. -/
def recTokens (s : State) (q : QRec) : Nat :=
  match q.saved with
  | some m => m.slot.thread.tokens
  | none => match readNode s (getCtx s q.ctx) q.r0 with | .ok n => n.tokens | .bad _ _ => 0

/-- A record is ready, and its context runs here (R198, R262). -/
def runnable (s : State) (q : QRec) : Bool :=
  let c := getCtx s q.ctx
  recReady c q.r1 q.r3 && !c.parked && decide (s.cluster.ctx = some q.ctx)

/-- The newcomer a slot is promised to: a promise lapses when its record is no longer in the queue (R206). -/
def promiseOf (s : State) (k : Nat) : Option QRec :=
  match mfind s.cluster.promised k with
  | some p => if s.cluster.queue.contains p then some p else none
  | none => none

/-- The slot suits the record: its window fits, and its launch reserve can be set aside, with the entry it takes itself; that of a
checkpointed task is set aside already (R93, R199). -/
def slotSuits (s : State) (k : Nat) (q : QRec) : Bool :=
  (match promiseOf s k with | some p => decide (p = q) | none => true) &&
  (match q.saved with
   | some m => fitsAt s k m.slot.thread.winBase m.slot.thread.winLen
   | none =>
     match readNode s (getCtx s q.ctx) q.r0 with
     | .ok n => (firstFit s k n.winLen).isSome && decide (n.reserve ≤ entriesFree s + if s.cluster.queue.contains q then 1 else 0)
     | .bad _ _ => true)

def placeable (s : State) (k : Nat) (q : QRec) : Bool :=
  mayPlace s && runnable s q && decide ((getSlot s k).run = .empty) && slotSuits s k q

/-- Put record number `i` of the queue on slot `k`. -/
def putRec (s : State) (k i : Nat) (q : QRec) : State :=
  let s1 := setCluster s { s.cluster with
    queue := dropIndex s.cluster.queue i, promised := s.cluster.promised.filter (fun p => decide (p.1 ≠ k)) }
  match q.saved with
  | some m => joinPlaced (restoreThread (pastImage s1) k (fromStore s1 m)) k q
  | none =>
    match readImage s1 (getCtx s1 q.ctx) q.r0 with
    | .bad r a => startFailed s1 q r a
    | .ok m =>
      match firstFit s1 k m.node.winLen with
      | some b => startFresh s1 k q m b
      | none => s

/-- Place a record: with a replay, where the log has it; with a trace, recorded. -/
def placeRec (s : State) (k i : Nat) (q : QRec) : State :=
  gated s q.ctx (logPlace s k q.r0) (fun u =>
    traceRec (putRec u k i q) q.ctx k 5 [s.now, bits q.r0.toNat 0 32, recInstance q.r0, q.tag.toNat])

/-! ### Pipeline instances (R203) -/

/-- Fill ratio of a stage's input as items and depth; a queue that a spill has emptied offers the head of its overflow area (R204). -/
def stageInput (s : State) (d : PipeDecl) (p st : Nat) : Nat × Nat :=
  let q := getPipe s.cluster p (st - 1)
  (if q.items = [] then min 1 q.overflow.length else q.items.length, d.depths.getD (st - 1) 1)

/-- A queue is full, the places reserved in it counted (R202). -/
def pipeFull (s : State) (d : PipeDecl) (p st : Nat) : Bool :=
  decide (d.depths.getD st 1 ≤ (getPipe s.cluster p st).items.length + heldItems s p st)

/-- A stage of a pipeline that may start an instance: its input queue holds items and its own queue is not full. -/
def stageReady (s : State) (d : PipeDecl) (p st : Nat) : Bool :=
  decide (0 < st) && decide (st < d.nodes.length) && decide (0 < (stageInput s d p st).1) &&
    (decide (st + 1 = d.nodes.length) || !pipeFull s d p st)

/-- The better of two stages: the higher ratio, the later stage among equals. -/
def betterStage (s : State) (c : Context) (x y : Nat × Nat) : Nat × Nat :=
  let f (z : Nat × Nat) : Nat × Nat :=
    match mfind c.pipes z.1 with
    | some d => stageInput s d z.1 z.2
    | none => (0, 1)
  if (f x).1 * (f y).2 ≤ (f y).1 * (f x).2 then y else x

/-- The pipeline and stage the scheduler starts next. -/
def nextStage (s : State) : Option (Nat × Nat) :=
  match s.cluster.ctx with
  | none => none
  | some n =>
    let c := getCtx s n
    let all := c.pipes.flatMap (fun p => ((List.range p.2.nodes.length).filter (stageReady s p.2 p.1)).map (fun st => (p.1, st)))
    match all with
    | [] => none
    | x :: r => some (r.foldl (betterStage s c) x)

/-- The record of the next instance of a stage: no wait, no set bits; its tag is not given. -/
def stageRec (s : State) (p st : Nat) : Option QRec :=
  match s.cluster.ctx with
  | none => none
  | some n =>
    (mfind (getCtx s n).pipes p).map (fun d =>
      let node := (d.nodes.getD st 0).toNat % 2 ^ 32
      let inst := mget 0 s.cluster.instances (8 * p + st)
      ⟨n, (Config.freeWord s.fresh).setWidth 16, w64 (node + inst % 2 ^ 32 * 2 ^ 32), 0, 0, 0, false, none, 0⟩)

/-- An instance takes its stage's next number, and its record stands last in the queue. -/
def beginStage (s : State) (p st : Nat) (q : QRec) : State :=
  let n := 8 * p + st
  setCluster { s with fresh := s.fresh + 1 } { s.cluster with
    instances := mset 0 s.cluster.instances n (mget 0 s.cluster.instances n + 1), queue := s.cluster.queue ++ [q] }

/-- Start an instance on a slot. -/
def placeStage (s : State) (k p st : Nat) : State :=
  match stageRec s p st with
  | none => s
  | some q =>
    if placeable s k q && (replayGate s q.ctx (logPlace s k q.r0)).isSome then
      let s1 := beginStage s p st q
      placeRec s1 k (s1.cluster.queue.length - 1) q
    else s

/-! ### Pre-emption by priority (R206) -/

/-- Schedule cycles a task's estimate leaves. -/
def remaining (x : Slot) : Nat := x.thread.estimate.toNat - x.scyc.toNat

/-- The task in slot `k` may be displaced by tokens `T`: it has fewer, none of the core's has fewer still, and among equals none a
larger remaining estimate. -/
def displaceable (s : State) (k T : Nat) : Bool :=
  let x := getSlot s k
  let y := getSlot s (1 - k)
  let live (z : Slot) : Bool := decide (z.run = .running) || decide (z.run = .handler) || decide (z.run = .stopping)
  live x && decide (x.thread.tokens < T) &&
    (!live y || decide (x.thread.tokens < y.thread.tokens) ||
      (decide (x.thread.tokens = y.thread.tokens) && decide (remaining y ≤ remaining x)))

/-- A record re-enters the queue's head to start afresh, and is pending in the group it names. -/
def requeue (c : Cluster) (q : QRec) : Cluster :=
  match recGroup q.r3 with
  | some g => addPending { c with queue := { q with pendingGroup := true } :: c.queue } g
  | none => { c with queue := q :: c.queue }

/-- Kill a task: what has not sealed is discarded, and its record re-enters the queue afresh; the commands of its sealed clauses run
on (R206, R179). -/
def killTask (s : State) (k : Nat) : State :=
  let r := threadRec (getSlot s k) none
  let s1 := leaveSlot (discardOpen (foldCounts (breakMissed s k) k) k) k
  setCluster s1 (requeue (leaveAll s1.now s1.cluster (memberBit s k)) r)

/-- A record takes the slot of a resident task: by a promise, a kill or a checkpoint. -/
def displace (s : State) (k : Nat) (q : QRec) : State :=
  let x := getSlot s k
  if remaining x ≤ (getCtx s x.thread.ctx).drainLimit then
    setCluster s { s.cluster with promised := mput s.cluster.promised k q }
  else if x.thread.killable then killTask s k
  else preemptSlot (preemptSlot s 0) 1

/-- Records that are ready, by their place, highest tokens first and queue order among equals (R198). -/
def insertRec (x : Nat × Nat) : List (Nat × Nat) → List (Nat × Nat)
  | [] => [x]
  | y :: r => if y.2 < x.2 then x :: y :: r else y :: insertRec x r

def placeOrder (s : State) : List Nat :=
  let ix := (List.range s.cluster.queue.length).filter (fun i =>
    match s.cluster.queue[i]? with | some q => runnable s q | none => false)
  let tk (i : Nat) : Nat := match s.cluster.queue[i]? with | some q => recTokens s q | none => 0
  (ix.foldl (fun l i => insertRec (i, tk i) l) []).map (fun p => p.1)

/-- What the scheduler places next: a record in its order on the first free slot that suits it, else a pipeline instance. -/
def nextPlacement (s : State) : Option (Nat × Nat) :=
  let free := [0, 1].filter (fun k => decide ((getSlot s k).run = .empty))
  if mayPlace s = false ∨ free = [] then none
  else
    let try_ (i : Nat) : Option (Nat × Nat) :=
      match s.cluster.queue[i]? with
      | some q => (findFirst (fun k => placeable s k q) free).map (fun k => (i, k))
      | none => none
    match ((placeOrder s).filterMap try_).head? with
    | some p => some p
    | none =>
      match nextStage s with
      | none => none
      | some (p, st) =>
        match stageRec s p st with
        | none => none
        | some q => (findFirst (fun k => placeable s k q) free).map (fun k => (s.cluster.queue.length + 8 * p + st, k))

/-- The placements a rerun's log admits next, by record and slot (R298). -/
def loggedPlacement (s : State) : Option (Nat × Nat) :=
  let ok (i k : Nat) : Bool :=
    match s.cluster.queue[i]? with
    | some q => placeable s k q && (replayGate s q.ctx (logPlace s k q.r0)).isSome
    | none => false
  findFirst (fun p => ok p.1 p.2) ((List.range s.cluster.queue.length).flatMap (fun i => [(i, 0), (i, 1)]))

/-- The context of this cluster reruns a log (R298). -/
def rerunning (s : State) : Bool :=
  match s.cluster.ctx with
  | some n => decide ((getCtx s n).replay.mode = 2)
  | none => false

/-- A pipeline instance of a rerun waits for the log as a record does. -/
def stageAllowed (s : State) (p : Nat × Nat) : Bool :=
  let n := p.1 - s.cluster.queue.length
  match stageRec s (n / 8) (n % 8) with
  | some q => (replayGate s q.ctx (logPlace s p.2 q.r0)).isSome
  | none => false

/-- The placement that is next: the scheduler's own, or the one a rerun's log gives. -/
def duePlacement (s : State) : Option (Nat × Nat) :=
  if rerunning s then
    match loggedPlacement s with
    | some p => some p
    | none => (nextPlacement s).bind (fun p => if s.cluster.queue.length ≤ p.1 ∧ stageAllowed s p = true then some p else none)
  else nextPlacement s

/-- A record displaces the task of slot `k`: it is ready, no slot is free, the task has fewer tokens (R206). -/
def mayDisplace (s : State) (k : Nat) (q : QRec) : Bool :=
  mayPlace s && runnable s q && [0, 1].all (fun j => decide ((getSlot s j).run ≠ .empty)) && decide (promiseOf s k = none) &&
    displaceable s k (recTokens s q)

/-- TASK_PLACE: record `idx` of the queue, next in the scheduler's order, goes to the slot it comes to, or displaces the task of a
slot. Numbers from the queue's length on name pipeline stages, 8 × pipeline + stage (R198, R203, R206). -/
def execTaskPlace (idx slot : Nat) (s : State) : Out :=
  match s.cluster.queue[idx]? with
  | some q =>
    if duePlacement s = some (idx, slot) then .next (placeRec s slot idx q)
    else if mayDisplace s slot q then .next (displace s slot q)
    else .next s
  | none =>
    let n := idx - s.cluster.queue.length
    if duePlacement s = some (idx, slot) then .next (placeStage s slot (n / 8) (n % 8)) else .next s

/-! ### The cluster's other cores (R193, R199, R203) -/

/-- The reserve a record's task sets aside as it starts; one that is checkpointed has it already. -/
def recReserve (s : State) (q : QRec) : Nat :=
  match q.saved with
  | some m => m.slot.thread.reserve
  | none => match readNode s (getCtx s q.ctx) q.r0 with | .ok n => n.reserve | .bad _ _ => 0

/-- A slot of another core of the cluster that holds no task, by its member bit. -/
def awayFree (s : State) (mem : Nat) : Bool :=
  decide (mem < 16) && decide (mem ≠ memberBit s 0) && decide (mem ≠ memberBit s 1) && !s.cluster.away.any (fun t => decide (t.mem = mem))

/-- The record may start on another core: it is ready, and its reserve can be set aside, the entry it frees included. -/
def awaySuits (s : State) (q : QRec) : Bool :=
  !s.cluster.switchedOut && decide (s.cluster.switching = none) && !s.cluster.lost && runnable s q &&
    (q.saved.isSome || decide (recReserve s q ≤ entriesFree s + if s.cluster.queue.contains q then 1 else 0))

/-- Record `i` of the queue goes to a slot of another core. -/
def putAway (s : State) (i mem : Nat) (q : QRec) : State :=
  let c : Cluster := { s.cluster with
    queue := dropIndex s.cluster.queue i
    away := s.cluster.away ++ [⟨mem, { q with pendingGroup := false, saved := none }, recReserve s q, recStage s q, false⟩] }
  setCluster s (placeRecord s.now c q mem)

/-- A record or a pipeline instance is placed on a slot of another core of the cluster, with its member bit. -/
def placedElsewhere (s : State) (i mem : Nat) : State :=
  if awayFree s mem then
    match s.cluster.queue[i]? with
    | some q => if awaySuits s q then putAway s i mem q else s
    | none =>
      let n := i - s.cluster.queue.length
      match stageRec s (n / 8) (n % 8), s.cluster.ctx.bind (fun c => mfind (getCtx s c).pipes (n / 8)) with
      | some q, some d =>
        if stageReady s d (n / 8) (n % 8) && awaySuits s q then
          let s1 := beginStage s (n / 8) (n % 8) q
          putAway s1 (s1.cluster.queue.length - 1) mem q
        else s
      | _, _ => s
  else s

/-- What becomes of a task on another core: it leaves its groups and its set bits are set, its record starts afresh, or returns with its
image as a pending member (R190, R198, R206, R186). -/
def awayEvent (s : State) (mem : Nat) (what : AwayEvent) : State :=
  match findFirst (fun t => decide (t.mem = mem)) s.cluster.away with
  | none => s
  | some t =>
    let s1 := setCluster s { s.cluster with away := s.cluster.away.filter (fun x => decide (x.mem ≠ mem)) }
    match what with
    | .ended =>
      let s2 := setCluster s1 (leaveAll s1.now s1.cluster mem)
      if t.entry.r2 = 0 then s2 else eventChange s2 t.entry.ctx (recSetWin t.entry.r3) t.entry.r2 0 t.entry.tag
    | .killed => setCluster s1 (requeue (leaveAll s1.now s1.cluster mem) t.entry)
    | .saved m =>
      let x := parkThread s1.cluster mem m
      setCluster s1 { x.2 with queue := x.2.queue ++ [{ t.entry with saved := some x.1 }] }
    | .waits b => setCluster s { s.cluster with away := s.cluster.away.map (fun x => if x.mem = mem then { x with waits := b } else x) }

/-! ### Time slices (R207) -/

/-- A ready record with at least as many tokens waits for a slot of the cluster. -/
def rivalWaits (s : State) (tokens : Nat) : Bool :=
  s.cluster.queue.any (fun q => recReady (getCtx s q.ctx) q.r1 q.r3 && decide (tokens ≤ recTokens s q))

def restartSlice (s : State) (k : Nat) : State :=
  let x := getSlot s k
  setSlot s k { x with thread := { x.thread with sliceAt := s.now, sliceIssued := false } }

/-- A time slice has run out; it is not judged while the core rolls back (R179, R207; DEDUCED, log entry 116). -/
def sliceOver (s : State) (k : Nat) : Bool :=
  let x := getSlot s k
  (decide (x.run = .running) || decide (x.run = .handler) || decide (x.run = .stopping)) && clockRuns s &&
    decide (s.core.rollAt = none) && decide (x.thread.sliceAt + (getCtx s x.thread.ctx).slice ≤ s.now)

def execTimeSliceEnd (slot : Nat) (s : State) : Out :=
  if sliceOver s slot then
    let x := getSlot s slot
    if rivalWaits s x.thread.tokens then .next (preemptSlot (preemptSlot (restartSlice s slot) 0) 1)
    else if x.thread.sliceIssued || decide (x.run = .stopping) then .next (restartSlice s slot)
    else .next (stopThread (restartSlice s slot) slot 0x23 none true 0 0 s.now x.scyc)
  else .next s

/-! ### Spilling (R204) -/

/-- Threads of the pipeline in this core. -/
def pipeSlots (s : State) (p : Nat) : List Nat :=
  [0, 1].filter (fun k => decide ((getSlot s k).run ≠ .empty) && decide ((pipeOf (getSlot s k).thread).map (fun x => x.1) = some p))

/-- Its tasks on the cluster's other cores. -/
def pipeAway (s : State) (p : Nat) : List AwayTask :=
  s.cluster.away.filter (fun t => decide (t.stage.map (fun x => x.1) = some p))

/-- Its checkpointed threads, with their tags. -/
def pipeSaved (s : State) (p : Nat) : List (BitVec 16 × SavedThread) :=
  s.cluster.queue.filterMap (fun q =>
    match q.saved with
    | some m => if (pipeOf m.slot.thread).map (fun x => x.1) = some p then some (q.tag, m) else none
    | none => none)

/-- A cluster fault record (Table 12.8). -/
def clusterFault (s : State) (ctx kind low tags : Nat) : State :=
  postFault s ctx (dwords [kind + s.cluster.num * 2 ^ 8 + ctx * 2 ^ 16, low, tags, s.now])

/-- Purge a list of tags of a context. -/
def purgeTags (ctx : Nat) (s : State) (tags : List (BitVec 16)) : State := tags.foldl (fun t g => purge t ctx g) s

/-- The newest half of a full queue goes behind the rest, before the items that overflowed earlier. -/
def spillQueue (q : PipeQueue) : PipeQueue :=
  let keep := q.items.length / 2
  ⟨q.items.take keep, q.items.drop keep ++ q.overflow⟩

/-- The full queues of a pipeline. -/
def fullQueues (s : State) (d : PipeDecl) (p : Nat) : List Nat :=
  (List.range (d.nodes.length - 1)).filter (pipeFull s d p)

def spillReady (s : State) (p : Nat) : Bool :=
  match mfind s.cluster.pipeStall p with
  | some t => decide (t + 4096 ≤ s.now)
  | none => false

def spill (s : State) (ctx : Nat) (d : PipeDecl) (p : Nat) : State :=
  let qs := fullQueues s d p
  let moved := (qs.map (fun st => (getPipe s.cluster p st).items.length - (getPipe s.cluster p st).items.length / 2)).sum +
    (qs.map (fun st => if (getPipe s.cluster p st).overflow = [] then heldItems s p st else 0)).sum + heldOverflow s p
  let s1 := setCluster s { s.cluster with pipeStall := mdel s.cluster.pipeStall p }
  if overflowUsed s p + moved ≤ d.overItems then
    writeOverflow (setCluster s1 (qs.foldl (fun c st => setPipe c p st (spillQueue (getPipe c p st))) s1.cluster)) ctx d p
  else
    let tags := dedup ((pipeSlots s p).map (fun k => (getSlot s k).thread.tag) ++ (pipeSaved s p).map (fun x => x.1) ++
      (pipeAway s p).map (fun t => t.entry.tag))
    purgeTags ctx (clusterFault s1 ctx 3 p tags.length) tags

def execPipelineSpill (pipe : Nat) (s : State) : Out :=
  match s.cluster.ctx with
  | none => .next s
  | some n =>
    match mfind (getCtx s n).pipes pipe with
    | none => .next s
    | some d => .next (if spillReady s pipe then spill s n d pipe else s)

/-! ### Work stealing (R208) -/

/-- Ready records that name no group, by place. -/
def stealable (s : State) : List Nat :=
  (List.range s.cluster.queue.length).filter (fun i =>
    match s.cluster.queue[i]? with
    | some q => runnable s q && decide (recGroup q.r3 = none)
    | none => false)

/-- Another scheduler asks for work: with two ready records that name no group, the newest goes into transit. -/
def execStealRequest (peer : Nat) (s : State) : Out :=
  let xs := stealable s
  if xs.length < 2 ∨ s.cluster.lost = true then .next s
  else
    match xs.getLast? with
    | none => .next s
    | some i =>
      match s.cluster.queue[i]? with
      | none => .next s
      | some q =>
        .next (gated s q.ctx (logSteal s peer q.r0) (fun u => setCluster u { u.cluster with
          queue := dropIndex u.cluster.queue i
          transit := u.cluster.transit ++ [⟨u.cluster.nextSeq, peer, q, u.now⟩]
          nextSeq := u.cluster.nextSeq + 1 }))

/-- The thief acknowledges: a record still in transit is deleted and confirmed; any other acknowledgement is refused. -/
def execStealAcknowledge (seq : Nat) (s : State) : Out :=
  .next (setCluster s { s.cluster with transit := s.cluster.transit.filter (fun t => decide (t.seq ≠ seq)) })

/-- The victim refuses an acknowledgement that came too late: the copy is discarded. -/
def refuseSteal (s : State) (peer seq : Nat) : State :=
  setCluster s { s.cluster with stolen := s.cluster.stolen.filter (fun t => !(decide (t.seq = seq) && decide (t.peer = peer))) }

/-- A record enters the queue at its head or its end; while the cluster is not its context's, it waits to. -/
def enterQueue (c : Cluster) (head : Bool) (q : QRec) : Cluster :=
  if c.ctx = some q.ctx ∧ c.switchedOut = false then { c with queue := if head then q :: c.queue else c.queue ++ [q] }
  else { c with offQueue := if head then (head, q) :: c.offQueue else c.offQueue ++ [(head, q)] }

/-- The victim confirms: the record may start here. -/
def execStealConfirm (peer seq : Nat) (s : State) : Out :=
  match findFirst (fun t => decide (t.seq = seq) && decide (t.peer = peer)) s.cluster.stolen with
  | none => .next s
  | some t =>
    let c : Cluster := { s.cluster with stolen := s.cluster.stolen.filter (fun x => decide (x ≠ t)) }
    .next (setCluster s (enterQueue c false t.entry))

/-- After 16 µs without an acknowledgement the record returns to the queue's head. -/
def execStealTimeout (seq : Nat) (s : State) : Out :=
  match findFirst (fun t => decide (t.seq = seq)) s.cluster.transit with
  | none => .next s
  | some t =>
    if t.sentAt + microCycles s 16 ≤ s.now then
      .next (setCluster s (enterQueue { s.cluster with transit := s.cluster.transit.filter (fun x => decide (x.seq ≠ seq)) } true t.entry))
    else .next s

/-! ### A lost scheduler (R209) -/

/-- The tags the scheduler holds in records, resident threads and records in transit, sent or received. -/
def heldTags (s : State) : List (BitVec 16) :=
  dedup (s.cluster.queue.map (fun q => q.tag) ++ (s.cluster.transit ++ s.cluster.stolen).map (fun t => t.entry.tag) ++
    s.cluster.away.map (fun t => t.entry.tag) ++ s.cluster.offQueue.map (fun q => q.2.tag) ++
    ([0, 1].filter (fun k => decide ((getSlot s k).run ≠ .empty))).map (fun k => (getSlot s k).thread.tag))

def execSchedLost (cluster : Nat) (s : State) : Out :=
  match s.cluster.ctx with
  | none => .next s
  | some n =>
    if cluster = s.cluster.num then
      let tags := heldTags s
      let s1 := setCluster s { s.cluster with lost := true }
      .next (purgeTags n (clusterFault s1 n 4 0 tags.length) tags)
    else .next s

/-! ### Gang switching (R210) -/

def spkOf (s : State) : Memory :=
  let lo := spkBase + s.cluster.num * spkSize
  s.pkg.mem.filter (fun p => decide (lo ≤ p.1) && decide (p.1 < lo + spkSize))

/-- Both slots are empty or saved-ready, and nothing the cluster has sent is under way: no release of a thread that has ended, no store
to the cluster scratchpad (R210 steps 1 and 2). -/
def switchReady (s : State) : Bool :=
  s.core.out.all (fun o => !isCluster o.eff && !isSpkStore o.eff) && [0, 1].all (fun k => decide ((getSlot s k).run = .empty) || (decide ((getSlot s k).run = .preempted) && readyToSave s k))

/-- The cluster image of the running context (Table 12.9). -/
def clusterImage (s : State) : ClusterImage :=
  { flags := s.cluster.flags, groups := s.cluster.groups, barriers := s.cluster.barriers, queue := s.cluster.queue,
    pipes := s.cluster.pipes, instances := s.cluster.instances, spk := spkOf s,
    threads := ([0, 1].filter (fun k => decide ((getSlot s k).run ≠ .empty))).map (fun k => (k, saveThread s k)), away := s.cluster.away, array := arrayOf s.core }

/-- The switch-out completes: the image is written, threads leave their slots, the cluster is marked (R210 steps 2 to 4). -/
def switchOut (s0 : State) (spans : List (Nat × Nat)) (ctx : Nat) : State :=
  let s := [0, 1].foldl (fun t k => if (getSlot t k).run = .empty then t else foldCounts t k) s0
  let s1 := writeClusterImage s spans ctx (clusterImage s)
  let off (t : State) (k : Nat) : State := if (getSlot t k).run = .empty then t else takeOff t k
  let s2 := off (off s1 0) 1
  setCluster s2 { Cluster.fresh s.cluster.num with
    ctx := some ctx, switchedOut := true, lost := s.cluster.lost, nextSeq := s.cluster.nextSeq, transit := s.cluster.transit,
    stolen := s.cluster.stolen, offQueue := s.cluster.offQueue }

/-- Begin a switch-out: placing stops, every resident thread is stopped (R210 step 1). -/
def beginSwitch (s : State) (spans : List (Nat × Nat)) : State :=
  preemptSlot (preemptSlot (setCluster s { s.cluster with switching := some spans }) 0) 1

/-- A context keeps the cluster for 20 µs after its restore, unless it has no task left. -/
def sliceKept (s : State) : Bool :=
  decide (s.cluster.restoredAt + microCycles s 20 ≤ s.now) ||
    (decide ((getSlot s 0).run = .empty) && decide ((getSlot s 1).run = .empty) && decide (s.cluster.queue = []))

/-- A save area that the scheduler names by its physical address: what of memory lies behind it. -/
def physArea (s : State) (area : Nat) : List (Nat × Nat) := if presentRange s.pkg area 0x2000 then [(area, spkBase)] else []

/-- CLUSTER_SWITCH_OUT begins, then completes when the threads are saved. -/
def execClusterSwitchOut (area : Nat) (s : State) : Out :=
  match s.cluster.ctx, s.cluster.switching with
  | none, _ => .next s
  | some n, some a => if switchReady s then .next (switchOut s a n) else .next s
  | some _, none =>
    if s.cluster.switchedOut || !sliceKept s || decide (physArea s area = []) then .next s else .next (beginSwitch s (physArea s area))

/-- Pending members are counted anew from the saved queue (R193). -/
def countPending (qs : List QRec) : KMap Nat :=
  (qs.flatMap pendingGroups).foldl (fun m g => mset 0 m g (mget 0 m g + 1)) []

/-- The core may hold threads: it is neither fenced nor disabled. -/
def coreUsable (s : State) : Bool := !s.core.fenced && s.pkg.config.cores.getLsbD s.core.index

/-- A resident thread of the image goes back onto its slot; on a core that may hold none it waits in the queue (R250). -/
def resumeThread (s : State) (p : Nat × SavedThread) : State :=
  if coreUsable s then restoreThread s p.1 p.2
  else
    let x := parkThread s.cluster (memberBit s p.1) p.2
    setCluster s { x.2 with queue := x.2.queue ++ [threadRec p.2.slot (some x.1)] }

/-- The array holds what the image does. -/
def putArray (c : Core) (a : ArrayState) : Core :=
  { c with
    cells := a.cells, headers := a.headers, grads := a.grads, tiles := a.tiles, affine := a.affine
    ctl := { c.ctl with knots := a.knots }, sctl := { c.sctl with knots := a.knots } }

/-- Restore a cluster from its image (R210). The core goes to the context with the array of the image (R153). -/
def restoreCluster (s : State) (ctx : Nat) (m : ClusterImage) : State :=
  let lo := spkBase + s.cluster.num * spkSize
  let own (head : Bool) : List QRec := (s.cluster.offQueue.filter (fun x => decide (x.2.ctx = ctx) && x.1 == head)).map (fun x => x.2)
  let c : Cluster := { s.cluster with
    ctx := some ctx, flags := m.flags, groups := m.groups, barriers := m.barriers, queue := own true ++ m.queue ++ own false
    offQueue := s.cluster.offQueue.filter (fun x => decide (x.2.ctx ≠ ctx)), away := m.away, pipes := m.pipes, instances := m.instances, pending := countPending m.queue, pipeStall := [], promised := [], switchedOut := false,
    switching := none, restoredAt := s.now }
  let s1 := setCtx { s with
    cluster := c
    core := putArray s.core m.array
    pkg := { s.pkg with mem := m.spk.foldl (fun b p => sset b p.1 p.2) (mclear s.pkg.mem lo spkSize) } } ctx
    { getCtx s ctx with savedIn := none }
  m.threads.foldl resumeThread s1

/-- CLUSTER_RESTORE of a context that is saved in an area: onto a cluster that runs no other. -/
def execClusterRestore (area : Nat) (s : State) : Out :=
  let spans := physArea s area
  let here (c : Context) : Bool :=
    match c.savedIn with
    | some at_ => decide (spanAddr at_ 0 = spanAddr spans (clusterOff c s.cluster.num))
    | none => false
  match findFirst (fun c => here c.2) s.pkg.contexts with
  | none => .next s
  | some (n, c) =>
    if (s.cluster.switchedOut || decide (s.cluster.ctx = none)) && decide ((getSlot s 0).run = .empty) &&
        decide ((getSlot s 1).run = .empty) && !c.parked then
      .next (restoreCluster (pastImage s) n (imageAt s (c.savedIn.getD []) n))
    else .next s

end Sys2Proof.Machine
end

