-- ==== Sys2Proof/Machine/Package.lean ====
section
/-! DEFINITION. The capability list (R256, R257), context images and the words that save and restore them (R259 to R262),
HOSTSIG (R264). -/

namespace Sys2Proof.Machine

/-! ### The capability list (R256, R257, Table 17.6) -/

/-- The link-up mask. -/
def linkMask (p : Package) : Nat := ((p.links.filter (fun l => l.2.up && decide (l.1 < 24))).map (fun l => 2 ^ l.1)).sum

/-- Clusters whose eight cores are all enabled. -/
def wholeClusters (cores : BitVec 192) : Nat :=
  (((List.range 24).filter (fun c => (List.range 8).all (fun i => cores.getLsbD (8 * c + i)))).map (fun c => 2 ^ c)).sum

def enabledCount (cores : BitVec 192) : Nat := ((List.range 192).filter (fun i => cores.getLsbD i)).length

/-- A capability header: identifier, length, offset of the next. -/
def capHeader (id len next : Nat) : Nat := id + 2 ^ 16 + len * 2 ^ 24 + next * 2 ^ 36

def partCode : Nat := 0xEB04

/-- The features this device supports (Table 17.8). -/
def featureMask : Nat := 0xFF

/-- A doubleword of the capability space; zero behind the last capability. -/
def capability (p : Package) (off : Nat) : Nat :=
  match off with
  | 0x00 => capHeader 1 32 0x20
  | 0x08 => partCode + 2 ^ 16 + 3 * 2 ^ 24 + Config.firmwareVersion.toNat * 2 ^ 32
  | 0x10 => p.config.tag.toNat
  | 0x18 => enabledCount p.config.cores + p.config.clockMhz % 2 ^ 16 * 2 ^ 16
  | 0x20 => capHeader 2 40 0x48
  | 0x28 => bits p.config.cores.toNat 0 64
  | 0x30 => bits p.config.cores.toNat 64 64
  | 0x38 => bits p.config.cores.toNat 128 64
  | 0x40 => wholeClusters p.config.cores
  | 0x48 => capHeader 3 24 0x60
  | 0x50 => p.config.hbm.toNat
  | 0x58 => p.config.tier2
  | 0x60 => capHeader 4 16 0x70
  | 0x68 => 13 + 6 * 2 ^ 8 + 0x3F * 2 ^ 16 + 0x0F * 2 ^ 24 + 8 * 2 ^ 32
  | 0x70 => capHeader 5 24 0x88
  | 0x78 => 4096 + 2 ^ 16 + 32 * 2 ^ 24 + 64 * 2 ^ 32
  | 0x80 => featureMask
  | 0x88 => capHeader 6 24 0
  | 0x90 => p.node
  | 0x98 => linkMask p + (p.extentX - 1) * 2 ^ 32 + (p.extentY - 1) * 2 ^ 39 + (p.extentZ - 1) * 2 ^ 46
  | _ => 0

/-- What CAPRD reads at an offset (R257). -/
def capRead (p : Package) (off : Word) : Word :=
  if off.toNat < 4096 ∧ off.toNat % 8 = 0 then w64 (capability p off.toNat) else BitVec.allOnes 64

def execCaprd (sb : BitVec 1) (p : BitVec 3) (d a : BitVec 5) (s : State) : Out :=
  word sb p .c (fun h t => writeOne h (.s d.toNat) (row64 (capRead t.pkg (visS (archAt t h) a))) 2 t) s

/-! ### HOSTSIG (R264) -/

def execHostsig (sb : BitVec 1) (p : BitVec 3) (a : BitVec 5) (s : State) : Out :=
  word sb p .c (fun h t =>
    let n := (slotAt t h).thread.ctx
    let c := getCtx t n
    if c.credits = 0 then .stall true t
    else
      .retire .seq false (hold (setCtx t n { c with credits := c.credits - 1 }) h.k (clauseAt t h)
        (.hostsig (visS (archAt t h) a) (slotAt t h).scyc))) s

/-! ### CTXSAVE and CTXRST (R261) -/

/-- A word that sends a request at its clause's seal and waits for the result. -/
def requestWord (sb : BitVec 1) (p : BitVec 3) (d : BitVec 5) (kind : WaitKind) (f : VoiceArch → Nat → Effect) (s : State) : Out :=
  privWord sb p .c (fun h t =>
    match (archAt t h).wait with
    | none =>
      let id := freshId t
      withFlip h t (fun u => startWait h kind [id] d.toNat 0 (hold u h.k (clauseAt u h) (f (archAt t h) id)))
    | some w =>
      match findFirst (fun (r : Request) => w.items.contains r.id) t.pkg.requests with
      | some r =>
        match r.result with
        | some x => endWait h true [⟨.s w.dest, row64 x, 2⟩] t
        | none => .stall true t
      | none => .stall true t) s

def execCtxsave (sb : BitVec 1) (p : BitVec 3) (d a b : BitVec 5) (s : State) : Out :=
  requestWord sb p d .ctxsave (fun r id =>
    .ctxsave id (bits (visS r a).toNat 0 12) (visS r b) (bits (visS r a).toNat 32 20)) s

def execCtxrst (sb : BitVec 1) (p : BitVec 3) (d a b : BitVec 5) (s : State) : Out :=
  requestWord sb p d .ctxrst (fun r id => .ctxrst id (bits (visS r a).toNat 0 12) (visS r b)) s

/-! ### The context part of an image (Table 17.7) -/

/-- A present feature is live (Table 17.8). The block and scatter formats are fields of templates of the array and of the scatter
engine. -/
def liveBits (c : Context) (x : Option ClusterImage) (fabric : Bool) : Nat :=
  let ts := ((x.map (fun m => m.threads.map (fun p => p.2) ++ m.queue.filterMap (fun q => q.saved))).getD [])
  let tmpls (e : Nat) : List (BitVec 1024) := ts.flatMap (fun t =>
    (t.ctl.templates.filter (fun p => decide (p.1 / 64 = e))).map (fun p => p.2) ++ (t.cmds.filter (fun m => decide (m.eng = e))).map (fun m => m.tmpl))
  let b (n : Nat) (p : Bool) : Nat := if p then 2 ^ n else 0
  1 + b 1 (x.any (fun m => decide (m.array.knots ≠ Knots.reset)) || ts.any (fun t => decide (t.knots ≠ Knots.reset))) +
  b 2 ((tmpls 2).any (fun t => decide (tAf t = 3) || decide (tAf t = 4) || decide (tBf t = 3))) +
  b 3 ((tmpls 3).any (fun t => decide (tEng t = 3))) + b 4 (!decide (c.pipes = [])) + b 5 fabric +
  b 6 (c.pubmap.any (fun p => p.2.valid)) + b 7 (c.scopes.any (fun p => p.2.valid))

/-- The context belongs to a collective group or has saved packets. -/
def fabricLive (s : State) (c : Context) : Bool :=
  match c.job with
  | none => false
  | some jk =>
    match mfind s.pkg.jobs jk with
    | none => false
    | some j => j.groups.any (fun g => g.2.valid && g.2.members.contains s.pkg.node) || !decide (j.saved = [])

def imageVersion : Nat := 1

/-- The second doubleword of the header: image version, profile 3, part code, firmware version. -/
def imageHeader1 : Nat := imageVersion + 3 * 2 ^ 8 + partCode * 2 ^ 16 + Config.firmwareVersion.toNat * 2 ^ 32

def imageMagic : Nat := 0x58434931

/-- A scope-group entry's bytes (R239). -/
def scopeBytes (c : Context) (k : Nat) : List Byte :=
  let g := mget ⟨false, 0⟩ c.scopes k
  leBytes 32 (g.cores.toNat + if g.valid then 2 ^ 192 else 0)

/-- A publish-map entry's bytes (Table 13.8). -/
def pubmapBytes (c : Context) (k : Nat) : List Byte :=
  let e := mget ⟨0, 0, false, false, 0, 0⟩ c.pubmap k
  dwords [e.va, e.units + (if e.front then 2 ^ 16 else 0) + (if e.valid then 2 ^ 17 else 0), e.half0, e.half1]

/-- A pipeline declaration's 64 bytes: stages (0 where it is not declared), close bit, depths, nodes, overflow area (DESIGN CHOICE, log
entry 42: the table gives the size alone). -/
def pipeBytes (c : Context) (p : Nat) : List Byte :=
  match mfind c.pipes p with
  | none => List.replicate 64 0
  | some d =>
    leBytes 1 d.nodes.length ++ leBytes 1 d.closeBit ++ (List.range 7).flatMap (fun i => leBytes 2 (d.depths.getD i 0)) ++
      (List.range 8).flatMap (fun i => leBytes 4 (d.nodes.getD i 0).toNat) ++ leBytes 8 d.overAddr ++ leBytes 8 d.overItems

/-- The first 0x2000 bytes of an image. -/
def imageBytes (n : Nat) (c : Context) (live units : Nat) : List Byte :=
  dwords [imageMagic, imageHeader1, live, featureMask, n % 2 ^ 12 + c.clusters.toNat * 2 ^ 16, units * 4096, 0, 0] ++
  leBytes 32 c.events.toNat ++
  ((List.range 32).map (scopeBytes c)).flatten ++ ((List.range 64).map (pubmapBytes c)).flatten ++
  leBytes 8 (c.handler.getD 0).toNat ++ leBytes 8 (c.trapArea.getD 0).toNat ++
  ((List.range 16).map (pipeBytes c)).flatten ++ List.replicate 3984 0

/-- Read a scope group and a publish-map entry back. -/
def scopeOfBytes (bs : List Byte) (k : Nat) : ScopeGroup :=
  let x := fieldAt bs (0x60 + 32 * k) 32
  ⟨bit x 192, BitVec.ofNat 192 x⟩

def pubmapOfBytes (bs : List Byte) (k : Nat) : PubMap :=
  let o := 0x460 + 32 * k
  let w := fieldAt bs (o + 8) 8
  ⟨fieldAt bs o 8, w % 1024, bit w 16, bit w 17, physBits (fieldAt bs (o + 16) 8), physBits (fieldAt bs (o + 24) 8)⟩

def pipeOfBytes (bs : List Byte) (p : Nat) : Option (Nat × PipeDecl) :=
  let o := 0xC70 + 64 * p
  let n := fieldAt bs o 1
  if n = 0 then none
  else some (p, ⟨(List.range n).map (fun i => w64 (fieldAt bs (o + 16 + 4 * i) 4)), (List.range (n - 1)).map (fun i => fieldAt bs (o + 2 + 2 * i) 2),
    fieldAt bs (o + 48) 8, fieldAt bs (o + 56) 8, fieldAt bs (o + 1) 1⟩)

def optWord (x : Nat) : Option Word := if x = 0 then none else some (w64 x)

/-- The cluster set of an image. -/
def imageSet (bs : List Byte) : BitVec 24 := BitVec.ofNat 24 (bits (fieldAt bs 0x20 8) 16 24)

/-- The context with the part of the image that is its own. -/
def loadContext (c : Context) (bs : List Byte) : Context :=
  { c with
    clusters := imageSet bs
    events := BitVec.ofNat 256 (fieldAt bs 0x40 32)
    scopes := (List.range 32).map (fun k => (k, scopeOfBytes bs k))
    pubmap := (List.range 64).map (fun k => (k, pubmapOfBytes bs k))
    handler := optWord (fieldAt bs 0xC60 8)
    trapArea := optWord (fieldAt bs 0xC68 8)
    pipes := (List.range 16).filterMap (pipeOfBytes bs)
    parked := false
    busy := false }

/-! ### Statuses (Table 17.9) -/

/-- The physical spans of an area: through the page table of a context for a word, by device physical address for the host. -/
def areaSpans (s : State) (who : Option Nat) (a : Acc) (area n : Nat) : Option (List (Nat × Nat)) :=
  match who with
  | none => if presentRange s.pkg area n then some [(area, n)] else none
  | some c =>
    match spanParts s (getCtx s c) true a area (n / 0x10000 + 2) n with
    | .ok ps => some (ps.map (fun p => (p.pa, p.len)))
    | .error _ => none

def ctxExists (s : State) (n : Nat) : Bool := (mfind s.pkg.contexts n).isSome

/-- This cluster is being switched: a request that reaches its context finds it busy. -/
def ctxBusy (s : State) (n : Nat) : Bool :=
  (getCtx s n).busy || (decide (s.cluster.ctx = some n) && s.cluster.switching.isSome)

/-- Clusters of a set, for the length of the image. -/
def clusterCount (c : Context) : Nat := ((List.range 24).filter (fun i => c.clusters.getLsbD i)).length

/-- Checkpointed threads that this cluster's image holds, or may come to hold while it is switched out. -/
def savedCount (s : State) (n : Nat) : Nat :=
  match (getCtx s n).savedIn with
  | some at_ => ((imageAt s at_ n).queue.filter (fun q => q.saved.isSome)).length
  | none => if s.cluster.ctx = some n then (s.cluster.queue.filter (fun q => q.saved.isSome)).length + 2 else 0

/-- The length of an image in 4 KiB units (R261): room for this cluster's image, and what the higher clusters of the set take, which is
free. -/
def imageLen (s : State) (n : Nat) : Nat :=
  let c := getCtx s n
  (clusterOff c s.cluster.num + clusterBound c s.core.index (savedCount s n) + 4095) / 4096 + Config.imageUnits (clusterCount c) % 2 ^ 18

/-- The status of a save, decided before anything changes. -/
def saveStatus (s : State) (who : Option Nat) (n area units : Nat) : Nat :=
  if !ctxExists s n then 1
  else if ctxBusy s n then 2
  else if who = some n then 3
  else if area % 4096 ≠ 0 then 4
  else if (areaSpans s who .write area (units * 4096)).isNone then 7
  else if units < imageLen s n then 8
  else 0

/-- Write bytes at an offset of an area. -/
def putBytes (s : State) (spans : List (Nat × Nat)) (off : Nat) (bs : List Byte) : State :=
  putRegion s spans off bs.length (listPieces 0 1 (bs.map (fun b => b.toNat)))

/-- The request begins: the context is busy, the area has no magic, and the cluster here begins its switch-out. -/
def beginSave (s : State) (n : Nat) (spans : List (Nat × Nat)) : State :=
  let s1 := putBytes (setCtx s n { getCtx s n with busy := true }) spans 0 (List.replicate 8 0)
  if s.cluster.ctx = some n ∧ s.cluster.switchedOut = false then beginSwitch s1 spans else s1

/-- The context's cluster here has been switched out, or runs another context. -/
def saveReady (s : State) (n : Nat) : Bool := decide (s.cluster.ctx ≠ some n) || s.cluster.switchedOut

/-- The cluster image stands in the area of the save: one that was switched out before is written there now, and that of a cluster of the
set that has never run the context is one with nothing in it. -/
def placeImage (s : State) (spans : List (Nat × Nat)) (n : Nat) : State :=
  match (getCtx s n).savedIn with
  | none => if (getCtx s n).clusters.getLsbD s.cluster.num then writeClusterImage s spans n unusedImage else s
  | some at_ =>
    if spansFrom spans (clusterOff (getCtx s n) s.cluster.num) = at_ then s
    else writeClusterImage (pastImage s) spans n (imageAt s at_ n)

/-- The save completes: cluster image, context part, then the header, whose magic comes last; the context is parked (R262). -/
def finishSave (s : State) (who : Option Nat) (n area units : Nat) : State :=
  match areaSpans s who .write area (units * 4096) with
  | none => s
  | some spans =>
    let s1 := placeImage s spans n
    let c := getCtx s1 n
    let live := liveBits c (c.savedIn.map (fun at_ => imageAt s1 at_ n)) (fabricLive s1 c)
    let bs := imageBytes n c live (imageLen s1 n)
    let s2 := putBytes (putBytes s1 spans 8 (bs.drop 8)) spans 0 (bs.take 8)
    setCtx s2 n { getCtx s2 n with parked := true, busy := false }

/-- Cores of the image's clusters on which threads were resident: this one by the image, the cluster's others by what it says of them,
those of other clusters by what is free (log entry 42). -/
def residentCores (s : State) (head : List Byte) (set : BitVec 24) (here : Bool) (m : ClusterImage) : List Nat :=
  let own := if here && !decide (m.threads = []) then [s.core.index] else []
  let away := if here then m.away.map (fun t => s.cluster.num * 8 + t.mem / 2) else []
  own ++ away ++ (List.range 192).filter (fun i => set.getLsbD (i / 8) && decide (i / 8 ≠ s.cluster.num) && (Config.imageCores head).getLsbD i)

/-- A resident thread of the image ran on a core that is disabled here. -/
def coreMissing (s : State) (head : List Byte) (set : BitVec 24) (here : Bool) (m : ClusterImage) : Bool :=
  (residentCores s head set here m).any (fun i => !s.pkg.config.cores.getLsbD i)

/-- The status of a restore. -/
def restoreStatus (s : State) (who : Option Nat) (n area : Nat) : Nat :=
  let c := getCtx s n
  if !ctxExists s n || (!c.parked && !ctxBusy s n) then 1
  else if ctxBusy s n then 2
  else if who = some n then 3
  else if area % 4096 ≠ 0 then 4
  else
    match areaSpans s who .read area 0x2000 with
    | none => 7
    | some head =>
      let bs := areaBytes s head 0 0x2000
      let live := fieldAt bs 0x10 8
      let set := imageSet bs
      let here := set.getLsbD s.cluster.num
      if fieldAt bs 0 8 ≠ imageMagic ∨ bits (fieldAt bs 0x20 8) 12 4 ≠ 0 ∨ bits (fieldAt bs 0x20 8) 40 24 ≠ 0 ∨
          fieldAt bs 0x30 16 ≠ 0 ∨ fieldAt bs 0x1070 3984 ≠ 0 then 4
      else
        match areaSpans s who .read area (fieldAt bs 0x28 8) with
        | none => 7
        | some spans =>
          let t := setCtx s n (loadContext c bs)
          if imageVersion < fieldAt bs 8 1 ∨ live / 256 ≠ 0 ∨ coreMissing s (bs.take 64) set here (readClusterImage t spans n) = true then 5
          else if here = true ∧ s.cluster.ctx.any (fun m => decide (m ≠ n)) = true then 6
          else 0

/-- The restore: the cluster onto its number, the context part; the context is unparked (R262). -/
def finishRestore (s : State) (who : Option Nat) (n area : Nat) : State :=
  match areaSpans s who .read area 0x2000 with
  | none => s
  | some head =>
    let bs := areaBytes s head 0 0x2000
    let s1 := setCtx s n (loadContext (getCtx s n) bs)
    match areaSpans s who .read area (fieldAt bs 0x28 8) with
    | none => s1
    | some spans =>
      if (imageSet bs).getLsbD s.cluster.num then restoreCluster (pastImage s1) n (readClusterImage s1 spans n) else s1

/-! ### Requests as events (R261, R262) -/

/-- The request has been found OK and is under way. -/
def underWay (s : State) (id : Nat) : Bool := s.pkg.requests.any (fun r => decide (r.id = id) && decide (r.result = none))

def noteUnderWay (s : State) (id : Nat) : State :=
  { s with pkg := { s.pkg with requests := s.pkg.requests ++ [⟨id, none⟩] } }

def findOut (s : State) (n : Nat) : Option OutItem := findFirst (fun o => decide (o.id = n)) s.core.out

/-- The length that goes with OK and SHORT. -/
def saveResult (s : State) (n st : Nat) : Word :=
  w64 (st + if st = 0 ∨ st = 8 then imageLen s n % 2 ^ 32 * 2 ^ 32 else 0)

/-- CONTEXT_SAVE_REQUEST: the released request is judged; one that is OK runs until its cluster here is saved. -/
def execContextSaveRequest (n : Nat) (s : State) : Out :=
  match findOut s n with
  | none => .next s
  | some o =>
    match o.eff with
    | .ctxsave id c area units =>
      let a := area.toNat
      if underWay s id then
        if saveReady s c then
          .next (dropItem (setResult (finishSave s (some o.ctx) c a units) id (saveResult s c 0)) n)
        else .next s
      else
        let st := saveStatus s (some o.ctx) c a units
        if st = 0 then
          match areaSpans s (some o.ctx) .write a (units * 4096) with
          | some spans => .next (noteUnderWay (beginSave s c spans) id)
          | none => .next s
        else .next (dropItem (setResult s id (saveResult s c st)) n)
    | _ => .next s

/-- CONTEXT_RESTORE_REQUEST. -/
def execContextRestoreRequest (n : Nat) (s : State) : Out :=
  match findOut s n with
  | none => .next s
  | some o =>
    match o.eff with
    | .ctxrst id c area =>
      let st := restoreStatus s (some o.ctx) c area.toNat
      let s1 := if st = 0 then finishRestore s (some o.ctx) c area.toNat else s
      .next (dropItem (setResult s1 id (w64 st)) n)
    | _ => .next s

/-- The host's requests through BAR0 name device physical addresses; their request number is 0. A save that is under way completes; any
other is a new request, and is judged. -/
def execHostCtxsave (ctx area units : Nat) (s0 : State) : Out :=
  if !powered s0 then .next s0
  else
    let s := wake s0
    let x := (ctx, area, units)
    if s.pkg.hostSave.contains x && saveReady s ctx then
      let t := setResult (finishSave s none ctx area units) 0 (saveResult s ctx 0)
      .next { t with pkg := { t.pkg with hostSave := t.pkg.hostSave.filter (fun y => decide (y ≠ x)) } }
    else
      let st := saveStatus s none ctx area units
      if st = 0 then
        let t := noteUnderWay (beginSave s ctx [(area, units * 4096)]) 0
        .next { t with pkg := { t.pkg with hostSave := t.pkg.hostSave ++ [x] } }
      else .next (setResult s 0 (saveResult s ctx st))

def execHostCtxrst (ctx area : Nat) (s0 : State) : Out :=
  if !powered s0 then .next s0
  else
    let s := wake s0
    let st := restoreStatus s none ctx area
    .next (setResult (if st = 0 then finishRestore s none ctx area else s) 0 (w64 st))

end Sys2Proof.Machine
end

