-- ==== Sys2Proof/Machine/Fabric.lean ====
section
/-! DEFINITION. The words of the fabric: remote accesses (R275 to R277), reductions and barriers over packages (R278 to
R281), and the gang switch (R285). -/

namespace Sys2Proof.Machine

/-! ### Remote accesses (R276) -/

/-- What a remote access checks at issue. -/
def netOk (s : State) (k : Nat) (fa : Word) (code : Nat) : Bool :=
  decide (bits fa.toNat 62 2 = 0) && nodeExists s.pkg (netNode fa.toNat) && decide (netAddr fa.toNat % netWidth code = 0) &&
    (ctxJob s (getSlot s k).thread.ctx).isSome

def execNwr (sb : BitVec 1) (p : BitVec 3) (w : BitVec 2) (a b : BitVec 5) (s : State) : Out :=
  word sb p .c (fun h t =>
    let fa := visS (archAt t h) a
    if netOk t h.k fa w.toNat then
      let x := leNat (leBytes (netWidth w.toNat) (visS (archAt t h) b).toNat)
      .retire .seq false (hold t h.k (clauseAt t h) (.nwr (freshId t) fa.toNat (w64 x) w.toNat))
    else .trap 0x0B fa t) s

/-- The transfer of an NRD, under the next number, into slot `key` of a voice. -/
def netXfer (s : State) (h : Here) (v : VoiceId) (lb fa n : Nat) : Xfer :=
  { id := freshId s, voice := v, lb := lb, queue := 8, val := none, parts := [], va := fa, len := n, kind := 2, fmt := 0,
    geo := 0, acquire := false, remote := true, fault := none, clause := clauseAt s h, ord := clockOf s h.k h.v }

/-- The slot is BUSY with the transfer (R276). -/
def startRemote (h : Here) (key : Nat) (x : Xfer) (s : State) : State :=
  let s1 := changeAt (bumpId s) h (.landSet key (.xfer x.id x.clause))
  sendRead h.k (setSlot s1 h.k { getSlot s1 h.k with xfers := (getSlot s1 h.k).xfers ++ [x] }) x

def execNrd (sb : BitVec 1) (p : BitVec 3) (v : BitVec 2) (k : BitVec 3) (a : BitVec 5) (w : BitVec 3) (s : State) : Out :=
  word sb p .c (fun h t =>
    let fa := visS (archAt t h) a
    let key := 8 * v.toNat + k.toNat
    if netOk t h.k fa w.toNat then
      if landingState t h.k key = 1 then .stall false t
      else .retire .seq false (startRemote h key (netXfer t h (voiceOf v.toNat) k.toNat fa.toNat (netWidth w.toNat)) t)
    else .trap 0x0B fa t) s

/-! ### MEMB (R277) -/

/-- The thread's remote writes that failed and that no MEMB has reported, oldest first. -/
def unreported (s : State) (k : Nat) : List Nwr :=
  s.core.nwrs.filter (fun n => decide (n.slot = k) && n.failed && decide (n.reportedBy = 0))

def nwrsOpen (s : State) (k : Nat) : Bool := s.core.nwrs.any (fun n => decide (n.slot = k) && !n.finished)

/-- The failures are reported in the open clause; NFADDR takes the oldest one's address. -/
def reportNwrs (s : State) (h : Here) : State :=
  match unreported s h.k with
  | [] => s
  | n :: _ =>
    let cl := clauseAt s h
    let s1 : State := { s with core := { s.core with nwrs := s.core.nwrs.map (fun m =>
      if m.slot = h.k ∧ m.failed = true ∧ m.reportedBy = 0 then { m with reportedBy := cl } else m) } }
    changeAt s1 h (.statusSet 0x28 (w64 n.fa) cl)

/-- MEMB's result for `n` failures. -/
def membResult (n : Nat) : Word := w64 ((if 0 < n then 4 else 0) + min n 0xFFFFFF * 2 ^ 8)

def execMemb (sb : BitVec 1) (p : BitVec 3) (d : BitVec 5) (s : State) : Out :=
  word sb p .c (fun h t =>
    match (archAt t h).wait with
    | none => withFlip h t (fun u => startWait h .memb [] d.toNat 0 u)
    | some w =>
      if unsealed t.core w.clause || nwrsOpen t h.k then .stall true t
      else
        withWrites h [⟨.s w.dest, row64 (membResult (unreported t h.k).length), 2⟩] t (fun u =>
          .leave true (leaveWait (reportNwrs u h) h))) s

/-! ### Collectives (R278 to R281) -/

/-- The group word is valid, and the context a member of its group. -/
def groupWordOk (s : State) (k : Nat) (x : Word) (mean : Bool) : Bool :=
  let n := x.toNat
  decide (n = bits n 0 6 + (if mean && bit n 8 then 2 ^ 8 else 0)) &&
    (match ctxJob s (getSlot s k).thread.ctx with
     | none => false
     | some (_, j) => isMember s j (bits n 0 6))

/-- The result word of a completed instance: the value of a reduction, the number of a barrier. -/
def instanceResult (i : Instance) : Word :=
  w64 (i.status + i.count % 2 ^ 20 * 2 ^ 8 + (if i.isBar then i.num % 2 ^ 32 else i.result.toNat) * 2 ^ 32)

/-- The completed instance that a word of slot `k` waits for. -/
def instanceFor (s : State) (k : Nat) (ids : List Nat) : Option Instance :=
  match ctxJob s (getSlot s k).thread.ctx with
  | none => none
  | some (_, j) => doneInstance j (ids.headD 0)

/-- A word takes an instance's result; one out of a poisoned buffer is a machine check (R182; DESIGN CHOICE, log entry 59). -/
def takeInstance (h : Here) (w : Wait) (i : Instance) (s : State) : Res :=
  if i.bad then .halt (machineCheck s h.k 0 (Config.routerStorage s.fresh % 16))
  else endWait h true [⟨.s w.dest, row64 (instanceResult i), 2⟩] s

/-- A word that contributes to a collective instance and waits for it. -/
def collective (sb : BitVec 1) (p : BitVec 3) (d a : BitVec 5) (kind : WaitKind) (f : VoiceArch → Nat → Effect) (s : State) : Out :=
  word sb p .c (fun h t =>
    match (archAt t h).wait with
    | none =>
      if groupWordOk t h.k (visS (archAt t h) a) (decide (kind = .nred)) then
        let id := freshId t
        withFlip h t (fun u => startWait h kind [id] d.toNat 0 (hold u h.k (clauseAt u h) (f (archAt t h) id)))
      else writeOne h (.s d.toNat) (row64 3) 2 t
    | some w =>
      match instanceFor t h.k w.items with
      | some i => takeInstance h w i t
      | none => .stall true t) s

def execNred (sb : BitVec 1) (p : BitVec 3) (d a b : BitVec 5) (s : State) : Out :=
  collective sb p d a .nred (fun r id =>
    .nred id (bits (visS r a).toNat 0 6) (bit (visS r a).toNat 8) ((visS r b).setWidth 32)) s

def execNbar (sb : BitVec 1) (p : BitVec 3) (d a : BitVec 5) (s : State) : Out :=
  collective sb p d a .nbar (fun r id => .nbar id (bits (visS r a).toNat 0 6)) s

/-! ### GSW (R285) -/

/-- The job of a switch word; 2^16 and above where a reserved bit is set. -/
def switchJob (x : Word) : Nat := if x.toNat < 2 ^ 17 then bits x.toNat 0 16 else x.toNat % 2 ^ 16 + 2 ^ 16

def execGsw (sb : BitVec 1) (p : BitVec 3) (d a : BitVec 5) (s : State) : Out :=
  requestWord sb p d .gsw (fun r id => .gsw id (switchJob (visS r a)) (bit (visS r a).toNat 16)) s

end Sys2Proof.Machine
end

