-- ==== Sys2Proof/Machine/FabricEvents.lean ====
section
/-! DEFINITION. Events of the fabric: flits and links (R270, R271), packets that a router performs, answers or counts (R275 to
R281), members that fail (R282), purges (R283) and the markers of a gang switch (R284, R285). An event names its packet by its
place in the router; one whose cause is not there changes nothing. -/

namespace Sys2Proof.Machine

/-! ### Flits to packets (R271, Table 19.1) -/

def hdr (f : BitVec 512) (off lo n : Nat) : Nat := bits f.toNat (8 * off + lo) n

/-- The payload flits a header announces. -/
def headerFlits (f : BitVec 512) : Nat := hdr f 0 4 4

/-- A reserved type, or a reserved field that is not zero. -/
def headerBad (f : BitVec 512) : Bool :=
  let typ := hdr f 0 0 4
  decide (typ = 0) || decide (12 < typ) || decide (8 < headerFlits f) || decide (hdr f 0 11 5 ≠ 0) || decide (hdr f 0 48 16 ≠ 0) ||
  decide (hdr f 8 19 13 ≠ 0) || decide (hdr f 8 51 13 ≠ 0) || decide (hdr f 0x18 16 48 ≠ 0) || decide (hdr f 0x28 0 192 ≠ 0) ||
  (decide (typ ≤ 4) && decide (hdr f 0x10 46 18 ≠ 0)) ||
  (decide (5 ≤ typ) && decide (typ ≤ 8) && (decide (hdr f 0x10 6 2 ≠ 0) || decide (hdr f 0x10 9 23 ≠ 0)))

/-- The packet of a header and its payload flits, arrived by link `l`. -/
def parsePacket (l : Nat) (f : BitVec 512) (rest : List (BitVec 512)) : Packet :=
  let typ := hdr f 0 0 4
  { port := l, vc := hdr f 0 8 3, typ := typ, flits := headerFlits f, job := hdr f 0 16 16, tag := BitVec.ofNat 16 (hdr f 0 32 16)
    dst := hdr f 8 0 19, src := hdr f 8 32 19, pa := if typ ≤ 4 then hdr f 0x10 0 43 else 0
    width := if typ ≤ 4 then hdr f 0x10 43 3 else 0, group := if typ ≤ 4 then 0 else hdr f 0x10 0 6
    mean := decide (5 ≤ typ) && bit (hdr f 0x10 8 1) 0, inst := if typ ≤ 4 then 0 else hdr f 0x10 32 32
    reqid := hdr f 0x18 0 16, data := w64 (hdr f 0x20 0 64), payload := rest, error := false, bad := false, via := (24, 0) }

/-- A packet has come whole. -/
def packetHere (s : State) (l : Nat) : List (BitVec 512) → State
  | [] => s
  | f :: rest => arrivePacket s (headerBad f) (parsePacket l f rest)

/-- A flit that passes its CRC and comes in sequence joins its packet; what it acknowledges leaves the replay buffer. -/
def takeFlit (s : State) (l : Nat) (x : Link) (flit : BitVec 512) (trailer : BitVec 64) : State :=
  let y : Link := { acknowledge x (BitVec.ofNat 12 (bits trailer.toNat 44 12)) with
    failures := 0, rxSeq := x.rxSeq + 1, credits := x.credits + bits trailer.toNat 56 8, flits := x.flits ++ [flit] }
  if headerFlits (y.flits.headD 0) < y.flits.length then packetHere (pumpLink (setLink s l { y with flits := [] }) l) l y.flits
  else pumpLink (setLink s l y) l

/-- A flit whose CRC fails is asked for again; after sixteen failed replays in a row the link retrains (R270). -/
def execFlitReceive (l : Nat) (flit : BitVec 512) (trailer : BitVec 64) (s : State) : Out :=
  let x := linkOf s.pkg l
  if l ≥ 24 ∨ x.up = false ∨ x.retraining.isSome = true then .next s
  else if trailer.setWidth 32 ≠ crc32c flit then
    .next (setLink s l { x with failures := x.failures + 1, retraining := if 16 ≤ x.failures then some s.now else none })
  else if bits trailer.toNat 32 12 ≠ x.rxSeq.toNat then .next s
  else .next (takeFlit s l x flit trailer)

/-- Waves that were waiting for a link that is down go on. -/
def advanceWaves (s : State) : State := (s.pkg.jobs.map (fun j => j.1)).foldl advanceWave s

/-- A link is up and trained: what its replay buffer holds goes out again, then what waits. -/
def execLinkTrained (l : Nat) (s : State) : Out :=
  if l < 24 then
    let x := linkOf s.pkg l
    let y : Link := { replayFrom x (x.txSeq - BitVec.ofNat 12 x.held.length) with up := true, failures := 0, retraining := none, replays := 0 }
    .next (pumpLink (setLink s l y) l)
  else .next s

/-- Cycles of a number of microseconds. -/
def microseconds (s : State) (n : Nat) : Nat := n * s.pkg.config.clockMhz

def retrainOver (s : State) (x : Link) : Bool :=
  match x.retraining with
  | some t => decide (t + microseconds s 1000 ≤ s.now)
  | none => false

/-- The link is down: packets queued for it leave by another (R272), and members that no route reaches any more fail (R282). -/
def execLinkRetrainTimeout (l : Nat) (s : State) : Out :=
  let x := linkOf s.pkg l
  if retrainOver s x then .next (advanceWaves (routesFail (deliverAll (setLink s l (downLink x)) (queuedPackets x)))) else .next s

/-! ### Packets in the router -/

/-- The packet of a type at a place of the router. -/
def packetAt (s : State) (n typ : Nat) : Option Packet :=
  match s.pkg.router[n]? with
  | some p => if p.typ = typ then some p else none
  | none => none

def takeOut (s : State) (n : Nat) : State := { s with pkg := { s.pkg with router := dropIndex s.pkg.router n } }

/-! ### Remote accesses at their target (R275) -/

/-- The bytes lie in one window of the job that permits the access. -/
def inRemoteWindow (j : Job) (pa n : Nat) (write : Bool) : Bool :=
  j.windows.any (fun w => (if write then w.2.w else w.2.r) && decide (w.2.base * 2 ^ 21 ≤ pa) &&
    decide (pa + n ≤ (w.2.base + w.2.len) * 2 ^ 21))

/-- The router performs the access; else it is a remote error. -/
def remoteOk (s : State) (p : Packet) (write : Bool) : Bool :=
  let n := netWidth p.width
  match findJob s.pkg p.job with
  | none => false
  | some (_, j) => j.ctx.isSome && inRemoteWindow j p.pa n write && decide (scopeOf p.pa ≠ 3) && presentRange s.pkg p.pa n

/-- An answer to a packet, by the hub or through the job it belongs to. -/
def answer (s : State) (p q : Packet) : State :=
  match findJob s.pkg p.job with
  | some (jk, _) => inject s jk q
  | none => deliver s q

/-- What came out of a poisoned buffer poisons the lines it is written to (R182; DESIGN CHOICE, log entry 59). -/
def poisonIf (bad : Bool) (s : State) (pa n : Nat) : State :=
  if bad then { s with pkg := { s.pkg with poison := dedup (linesOf pa n ++ s.pkg.poison) } } else s

def execRemoteWrite (n : Nat) (s : State) : Out :=
  match packetAt s n 1 with
  | none => .next s
  | some p =>
    let ok := remoteOk s p true
    let s1 := takeOut s n
    let s2 := if ok then poisonIf p.bad (writeMem s1 p.pa (leBytes (netWidth p.width) p.data.toNat)) p.pa (netWidth p.width) else s1
    .next (answer s2 p { newPacket s2 4 p.job p.tag p.src with reqid := p.reqid, pa := p.pa, width := p.width, error := !ok })

/-- A row as two payload flits, the lower lanes first, and back. -/
def rowFlits (r : Row) : List (BitVec 512) := [r.setWidth 512, (r >>> 512).setWidth 512]

def flitsRow (fs : List (BitVec 512)) : Row := (fs.getD 0 0).setWidth 1024 ||| ((fs.getD 1 0).setWidth 1024 <<< 512)

def execReadRequest (n : Nat) (s : State) : Out :=
  match packetAt s n 2 with
  | none => .next s
  | some p =>
    let ok := remoteOk s p false
    let s1 := takeOut s n
    let x := if ok then leNat (readMem s p.pa (netWidth p.width)) else 0
    let wide := decide (p.width = 4)
    .next (answer s1 p { newPacket s1 3 p.job p.tag p.src with
      reqid := p.reqid, pa := p.pa, width := p.width, error := !ok, flits := if wide then 2 else 0,
      data := if wide then 0 else w64 x, payload := if wide then rowFlits (BitVec.ofNat 1024 x) else [] })

/-! ### Answers (R275, R276) -/

/-- The request an answer names: its number. -/
def answered (s : State) (p : Packet) : Option Nat :=
  (findFirst (fun (r : Nat × Nat × Nat) => decide (r.1 % 2 ^ 16 = p.reqid % 2 ^ 16)) s.pkg.remotes).map (fun r => r.1)

def forgetRequest (s : State) (id : Nat) : State :=
  { s with pkg := { s.pkg with remotes := s.pkg.remotes.filter (fun r => decide (r.1 ≠ id)) } }

/-- A remote write completes; what waited for it goes on. -/
def finishNwr (s : State) (id : Nat) (failed : Bool) : State :=
  sendReads (settle { s with core := { s.core with
    nwrs := s.core.nwrs.map (fun n => if n.id = id then { n with finished := true, failed := failed } else n) } })

def holdsXfer (x : Slot) (id : Nat) : Bool := x.xfers.any (fun y => decide (y.id = id))

/-- A landing slot is FULL with what a transfer brought. -/
def fillSlot (id : Nat) (r : Row) (poison fault : Option Nat) (s : State) (k : Nat) : State :=
  let x := getSlot s k
  match findFirst (fun y => decide (y.id = id)) x.xfers with
  | none => s
  | some y => pmCount (setSlot s k { x with arrived := mput x.arrived id ⟨r, poison, fault⟩ }) k y.clause 11 1

/-- Threads off their slots: in the queue, or in the images that contexts are saved in. -/
def savedThreads (s : State) : List SavedThread :=
  let ofQueue (q : List QRec) : List SavedThread := q.filterMap (fun r => r.saved)
  ofQueue s.cluster.queue ++ s.pkg.contexts.flatMap (fun c =>
    match c.2.savedIn.map (fun at_ => imageAt s at_ c.1) with
    | some m => m.threads.map (fun t => t.2) ++ ofQueue m.queue
    | none => [])

/-- A thread that is off its slot waits for the transfer (R286). -/
def savedWaits (s : State) (id : Nat) : Bool := (savedThreads s).any (fun t => holdsXfer t.slot id)

/-- The reply fills its slot; one of a saved thread stays until the thread is back; one that nothing waits for is discarded. -/
def execReadReply (n : Nat) (s : State) : Out :=
  match packetAt s n 3 with
  | none => .next s
  | some p =>
    match answered s p with
    | none => .next (takeOut s n)
    | some id =>
      if savedWaits s id then .next s
      else
        let r := if p.width = 4 then flitsRow p.payload else row64 p.data
        let s1 := forgetRequest (takeOut s n) id
        let fault := if p.error then some 0x09 else none
        let poison := if p.bad then some p.pa else none
        .next (fillSlot id r poison fault (fillSlot id r poison fault s1 0) 1)

def execWriteAcknowledgement (n : Nat) (s : State) : Out :=
  match packetAt s n 4 with
  | none => .next s
  | some p =>
    match answered s p with
    | none => .next (takeOut s n)
    | some id => .next (finishNwr (forgetRequest (takeOut s n) id) id p.error)

/-- The access has waited 100 µs, its job not switched out (R275, R286). -/
def remoteOver (s : State) (r : Nat × Nat × Nat) : Bool :=
  decide (r.2.2 + microseconds s 100 ≤ s.now) && !savedWaits s r.1 &&
    (match mfind s.pkg.jobs r.2.1 with
     | some j => !j.switching && !j.switchedOut
     | none => true)

def execRemoteTimeout (req : Nat) (s : State) : Out :=
  match findFirst (fun r => decide (r.1 = req)) s.pkg.remotes with
  | none => .next s
  | some r =>
    if remoteOver s r then
      let s1 := forgetRequest s req
      .next (finishNwr (fillSlot req 0 none (some 0x09) (fillSlot req 0 none (some 0x09) s1 0) 1) req true)
    else .next s

/-! ### Collectives (R278 to R282) -/

def instanceOf (j : Job) (g : Nat) (isBar : Bool) (num : Nat) : Option Instance :=
  findFirst (fun i => sameInstance i g isBar num) j.instances

/-- A contribution or an arrival has come: counted here with the status its instance has, sent on where another node gathers by now,
discarded where its sender is no member. A contribution out of a poisoned buffer is lost (DESIGN CHOICE, log entry 59). -/
def contributed (s : State) (n typ : Nat) (isBar : Bool) : State :=
  match packetAt s n typ with
  | none => s
  | some p =>
    let s1 := takeOut s n
    match findJob s1.pkg p.job with
    | none => s1
    | some (jk, j) =>
      let g := groupOf j p.group
      if !g.valid || !g.members.contains p.src then s1
      else if p.bad && !isBar then failInstance s1 jk p.group false p.inst
      else if bits p.data.toNat 32 4 = 2 then failInstance s1 jk p.group isBar p.inst
      else if gatherNode g s.pkg.node ≠ s.pkg.node then inject s1 jk { p with dst := gatherNode g s.pkg.node }
      else
        let j1 := withInstance j p.group isBar p.inst (fun i =>
          if i.complete then i
          else { addContribution i p.src p.mean (p.data.setWidth 32) with status := max i.status (bits p.data.toNat 32 4) })
        match instanceOf j1 p.group isBar p.inst with
        | some i => tryComplete (setJob s1 jk j1) jk i
        | none => s1

def execContribution (n : Nat) (s : State) : Out := .next (contributed s n 5 false)

def execBarrierArrival (n : Nat) (s : State) : Out := .next (contributed s n 7 true)

/-- A result has come: the member's word takes it. -/
def resultHere (s : State) (n typ : Nat) (isBar : Bool) : State :=
  match packetAt s n typ with
  | none => s
  | some p =>
    let s1 := takeOut s n
    match findJob s1.pkg p.job with
    | none => s1
    | some (jk, j) =>
      setJob s1 jk (withInstance j p.group isBar p.inst (fun i =>
        if i.complete then i
        else { i with
          complete := true, status := bits p.data.toNat 32 4, count := bits p.data.toNat 36 20, result := p.data.setWidth 32
          bad := p.bad && !isBar }))

def execCollectiveResult (n : Nat) (s : State) : Out := .next (resultHere s n 6 false)

def execBarrierRelease (n : Nat) (s : State) : Out := .next (resultHere s n 8 true)

/-! ### Members that fail (R282) -/

/-- A member of a group of a job fails or is removed by the host. -/
def execMemberFailure (job grp node : Nat) (s : State) : Out :=
  match findJob s.pkg job with
  | none => .next s
  | some (jk, _) => .next (memberFails s jk grp node)

/-! ### Purges (R283) -/

/-- A purge packet not met before: what bears the tag in this package's context of the job is dropped, and the packet goes on. -/
def execPurge (n : Nat) (s : State) : Out :=
  match packetAt s n 12 with
  | none => .next s
  | some p =>
    let s1 := takeOut s n
    if s.pkg.purges.contains (p.src, p.reqid) then .next s1
    else
      match findJob s1.pkg p.job with
      | none =>
        let gone := lostPackets s1 p.job p.tag
        .next (floodPurge (gone.foldl loseContribution (dropPackets s1 p.job p.tag)) p)
      | some (jk, j) =>
        match j.ctx with
        | some c => .next (floodPurge (purgeLocal s1 c p.tag) p)
        | none => .next (floodPurge (purgePackets s1 jk p.tag) p)

/-! ### The gang switch (R284, R285) -/

/-- A marker is counted; the first of a wave began it here. -/
def markWave (s : State) (jk : Nat) (p : Packet) : State :=
  match mfind s.pkg.jobs jk with
  | none => s
  | some j => if j.switching then advanceWave (setJob s jk (noteMarker j p)) jk else s

/-- A cut marker: the first cuts this router. -/
def execCutMarker (n : Nat) (s : State) : Out :=
  match packetAt s n 9 with
  | none => .next s
  | some p =>
    let s1 := takeOut s n
    match findJob s1.pkg p.job with
    | none => .next s1
    | some (jk, j) =>
      if j.switchedOut then .next s1
      else if j.switching && !j.incoming then .next (markWave s1 jk p)
      else .next (markWave (cutJob s1 jk j (some p.port) none) jk p)

/-- A resume marker: the first resumes this router. -/
def execResumeMarker (n : Nat) (s : State) : Out :=
  match packetAt s n 10 with
  | none => .next s
  | some p =>
    let s1 := takeOut s n
    match findJob s1.pkg p.job with
    | none => .next s1
    | some (jk, j) =>
      if j.switchedOut then .next (markWave (resumeJob s1 jk j (some p.port) none) jk p)
      else if j.switching && j.incoming then .next (markWave s1 jk p)
      else .next s1

/-- A sweep report of a router that took its first marker from here. -/
def execSweepReport (n : Nat) (s : State) : Out :=
  match packetAt s n 11 with
  | none => .next s
  | some p =>
    let s1 := takeOut s n
    match findJob s1.pkg p.job with
    | none => .next s1
    | some (jk, j) => .next (takeReport s1 jk j p)

end Sys2Proof.Machine
end

