-- ==== Sys2Proof/Machine/Hub.lean ====
section
/-! DEFINITION. The hub's user queues: doorbells (R246, R248, R249), submission packets in queue order, and the packets LAUNCH,
EVENT and EVWAIT (R246, R247). An event names a packet by its index in the ring, and happens only when that packet is next. -/

namespace Sys2Proof.Machine

/-! ### The host -/

/-- What the host does to a context of a running package; a doorbell of no context changes nothing but PACKAGE-IDLE (Table 17.5). -/
def hostAct (ctx : Nat) (f : State → State) (s : State) : Out :=
  if powered s && ctxExists s ctx then .next (f (wake s)) else .next (wake s)

/-- Bytes at a bus address (R212); none beyond the 2 TiB the device reaches. -/
def hostRead (s : State) (bus n : Nat) : Option (List Byte) :=
  if bus + n ≤ 2 ^ 41 then some (readMem s (hostBase + bus) n) else none

def hostWrite (s : State) (bus : Nat) (bs : List Byte) : Option State :=
  if bus + bs.length ≤ 2 ^ 41 then some (writeMem s (hostBase + bus) bs) else none

/-! ### Doorbells (R246, R248, R249, R264) -/

def execSubmissionTail (ctx val : Nat) (s : State) : Out :=
  hostAct ctx (fun t => setCtx t ctx { getCtx t ctx with sq := { (getCtx t ctx).sq with tail := val % 2 ^ 32 } }) s

/-- A ring position lies before a head. -/
def passed (head pos : Nat) : Bool := decide ((head + 2 ^ 32 - pos % 2 ^ 32 - 1) % 2 ^ 32 < 2 ^ 31)

/-- The credits of the signals whose records a head has passed return. -/
def returnCredits (c : Context) : Context :=
  let done := c.signals.filter (passed c.cq.head)
  { c with credits := c.credits + done.length, signals := c.signals.filter (fun p => !passed c.cq.head p) }

/-- Write held completion records in order while the queue has room. -/
def writeHeld (s : State) (ctx : Nat) : List (List Byte) → State
  | [] => setCtx s ctx { getCtx s ctx with heldCompletions := [] }
  | b :: r =>
    let c := getCtx s ctx
    if ringFull c.cq then setCtx s ctx { c with heldCompletions := b :: r }
    else writeHeld (raiseMsix (setCtx (ringPut s c.cq 32 b) ctx { c with cq := ringStep c.cq }) ctx) ctx r

def execCompletionHead (ctx val : Nat) (s : State) : Out :=
  hostAct ctx (fun t =>
    let c := returnCredits { getCtx t ctx with cq := { (getCtx t ctx).cq with head := val % 2 ^ 32 } }
    writeHeld (setCtx t ctx c) ctx c.heldCompletions) s

/-- Write held fault records in order while the queue has room. -/
def writeHeldFaults (s : State) (ctx : Nat) : List (List Byte) → State
  | [] => setCtx s ctx { getCtx s ctx with heldFaults := [] }
  | b :: r =>
    let c := getCtx s ctx
    if ringFull c.fq then setCtx s ctx { c with heldFaults := b :: r }
    else writeHeldFaults (raiseMsix (setCtx (ringPut s c.fq 64 b) ctx { c with fq := ringStep c.fq }) ctx) ctx r

def execFaultHead (ctx val : Nat) (s : State) : Out :=
  hostAct ctx (fun t =>
    let c : Context := { getCtx t ctx with fq := { (getCtx t ctx).fq with head := val % 2 ^ 32 } }
    writeHeldFaults (setCtx t ctx c) ctx c.heldFaults) s

/-! ### Submission packets (R246, Table 17.3) -/

/-- A doubleword of a packet. -/
def pktWord (bs : List Byte) (off : Nat) : Nat := fieldAt bs off 8

/-- The next packet of a queue, with its index in the ring: the doorbell covers it, and fewer than 64 records are held (R248). -/
def nextPacketOf (s : State) (ctx : Nat) : Option (Nat × List Byte) :=
  let c := getCtx s ctx
  if powered s && ctxExists s ctx && decide (0 < ringUsed c.sq) && decide (c.heldCompletions.length < 64) then
    (hostRead s (c.sq.base + c.sq.head % c.sq.size * 64) 64).map (fun bs => (c.sq.head % c.sq.size, bs))
  else none

/-- The body of a DEBUG packet (Table 20.1). -/
structure DebugBody where
  op : Nat
  target : Nat
  space : Nat
  core : Nat
  slot : Nat
  addr : Nat
  operand : Nat
  deriving DecidableEq, Repr

def debugBody (bs : List Byte) : DebugBody :=
  let w := pktWord bs 0x20
  let t := pktWord bs 0x28
  ⟨bits w 0 8, bits w 8 12, bits w 20 4, bits t 0 8, bits t 8 1, pktWord bs 0x30, pktWord bs 0x38⟩

/-- A DEBUG packet is accepted: a listed operation, no reserved field set, on a context of the same process (R287). -/
def debugOk (s : State) (ctx : Nat) (bs : List Byte) : Bool :=
  let d := debugBody bs
  decide (1 ≤ d.op) && decide (d.op ≤ 12) && decide (bits (pktWord bs 0x20) 24 40 = 0) && decide (bits (pktWord bs 0x28) 9 55 = 0) &&
    decide (fieldAt bs 0x08 24 = 0) && ctxExists s d.target && decide ((getCtx s d.target).owner = (getCtx s ctx).owner)

/-- The packet is of a listed type with no reserved field set (R246, R287). -/
def packetOk (s : State) (ctx : Nat) (bs : List Byte) : Bool :=
  let w := pktWord bs 0
  let tailZero := decide (fieldAt bs 0x20 32 = 0)
  let winOk := decide (bits (pktWord bs 0x08) 2 62 = 0)
  decide (bits w 9 23 = 0) && decide (bits w 48 16 = 0) &&
    (match w % 256 with
     | 1 => decide (pktWord bs 0x18 = 0) && tailZero
     | 2 => debugOk s ctx bs
     | 3 => winOk && tailZero
     | 4 => winOk && decide (pktWord bs 0x18 = 0) && tailZero
     | _ => false)

/-- The packet is done with: the queue moves on, and a completion record goes out where one is asked for (R247). -/
def finishPacket (s : State) (ctx : Nat) (bs : List Byte) (status : Nat) : State :=
  let c := getCtx s ctx
  let idx := c.sq.head % c.sq.size
  let s1 := setCtx s ctx { c with sq := { c.sq with head := (c.sq.head + 1) % 2 ^ 32 } }
  let w := pktWord bs 0
  if bit w 8 then postCompletion s1 ctx false (dwords [1 + status * 2 ^ 8 + bits w 32 16 * 2 ^ 32, idx, 0, 0]) else s1

/-- The packet of a type at an index is next and well formed. -/
def withPacket (ctx idx typ : Nat) (s : State) (go : List Byte → Out) : Out :=
  match nextPacketOf s ctx with
  | none => .next s
  | some (i, bs) => if i = idx ∧ pktWord bs 0 % 256 = typ ∧ packetOk s ctx bs = true then go bs else .next s

def execInvalidPacket (ctx idx : Nat) (s : State) : Out :=
  match nextPacketOf s ctx with
  | none => .next s
  | some (i, bs) => if i = idx ∧ packetOk s ctx bs = false then .next (finishPacket s ctx bs 1) else .next s

/-- The request tag of a packet. -/
def pktTag (bs : List Byte) : BitVec 16 := BitVec.ofNat 16 (bits (pktWord bs 0) 32 16)

/-! ### LAUNCH -/

/-- The bytes of a LAUNCH packet's records; none where they cannot be read. -/
def launchBytes (s : State) (ctx : Nat) (bs : List Byte) : Option (List Byte) :=
  let a := pktWord bs 0x08
  let n := pktWord bs 0x10
  if n = 0 ∨ 256 < n then none
  else if bit a 63 then readVirtual s (getCtx s ctx) (bits a 0 63) (32 * n)
  else hostRead s a (32 * n)

/-- The batch as records of the launch queue. -/
def batchRecs (ctx idx : Nat) (tag : BitVec 16) (rs : List Byte) : List QRec :=
  (List.range (rs.length / 32)).map (fun i =>
    let r (j : Nat) : Word := w64 (fieldAt rs (32 * i + 8 * j) 8)
    ⟨ctx, tag, r 0, r 1, r 2, r 3, false, none, idx + 1⟩)

/-- The context's cluster here can take records. -/
def launchesHere (s : State) (ctx : Nat) : Bool :=
  (getCtx s ctx).clusters.getLsbD s.cluster.num && decide (s.cluster.ctx = some ctx) && !s.cluster.switchedOut &&
    decide (s.cluster.switching = none) && !s.cluster.lost

/-- The batch goes to a cluster of the set outside the model where this cluster is none of the context's. -/
def launchesElsewhere (s : State) (ctx : Nat) : Bool :=
  let c := getCtx s ctx
  decide (c.clusters ≠ 0) && !c.clusters.getLsbD s.cluster.num && !c.parked

def enqueueBatch (s : State) (qs : List QRec) : State := setCluster s (qs.foldl enqueueRec s.cluster)

/-- LAUNCH: the batch enters the launch queue of this cluster once it has room for the whole of it. -/
def execLaunchPacket (ctx idx : Nat) (s : State) : Out :=
  withPacket ctx idx 1 s (fun bs =>
    match launchBytes s ctx bs with
    | none => .next (finishPacket s ctx bs 1)
    | some rs =>
      let qs := batchRecs ctx idx (pktTag bs) rs
      if qs.any (fun q => recReserved q.r3) then .next (finishPacket s ctx bs 1)
      else if launchesHere s ctx && decide (qs.length ≤ entriesFree s) then
        .next (gated s ctx (logLaunch idx rs) (fun u => finishPacket (enqueueBatch u qs) ctx bs 0))
      else if launchesElsewhere s ctx then .next (gated s ctx (logLaunch idx rs) (fun u => finishPacket u ctx bs 0))
      else .next s)

/-! ### EVENT and EVWAIT -/

def execEvent (ctx idx : Nat) (s : State) : Out :=
  withPacket ctx idx 3 s (fun bs =>
    .next (finishPacket (eventChange s ctx (pktWord bs 0x08) (w64 (pktWord bs 0x10)) (w64 (pktWord bs 0x18)) (pktTag bs)) ctx bs 0))

def evwaitMet (s : State) (ctx : Nat) (bs : List Byte) : Bool :=
  let m := w64 (pktWord bs 0x10)
  decide (eventWindow (getCtx s ctx) (pktWord bs 0x08) &&& m = m)

def execEvwaitPacket (ctx idx : Nat) (s : State) : Out :=
  withPacket ctx idx 4 s (fun bs => if evwaitMet s ctx bs then .next (finishPacket s ctx bs 0) else .next s)

end Sys2Proof.Machine
end

