-- ==== Sys2Proof/Machine/Debug.lean ====
section
/-! DEFINITION. Debug packets (R287 to R290), breakpoints, samples (R292), the trace ring (R293), counters (R296), replay (R297,
R298) and strike injection (R299). A packet that names a core outside the model acts there. -/

namespace Sys2Proof.Machine

/-! ### The packet -/

/-- A DEBUG packet of an operation: its body, and how it ends. `done` gives the state and the status; the packet stays in its
queue while there is none. -/
def debugPacket (ctx idx op : Nat) (s : State) (done : DebugBody → Option (State × Nat)) : Out :=
  withPacket ctx idx 2 s (fun bs =>
    let d := debugBody bs
    if d.op = op then
      match done d with
      | some (t, status) => .next (finishPacket t ctx bs status)
      | none => .next s
    else .next s)

/-- The packet names the core of the model. -/
def onThisCore (s : State) (d : DebugBody) : Bool := decide (d.core = s.core.index)

/-- The status of an operation on another core, whose state is not the model's: a free value. -/
def elsewhere (s : State) : State × Nat := ({ s with fresh := s.fresh + 1 }, (Config.freeWord s.fresh).toNat % 2)

/-- The slot holds a thread of the context. -/
def holdsThread (s : State) (d : DebugBody) : Bool :=
  onThisCore s d && decide ((getSlot s d.slot).run ≠ .empty) && decide ((getSlot s d.slot).thread.ctx = d.target)

/-- ... under a debug stop. -/
def isStopped (s : State) (d : DebugBody) : Bool := holdsThread s d && (stoppedImage s d.slot).isSome

/-! ### Resumption (R289) -/

/-- Strike reports in the order of their regions: sequencing, engine, storage (R171). -/
def reportOrder (rs : List Nat) : List Nat :=
  rs.filter (fun r => decide (r = 0)) ++ rs.filter (fun r => decide (r = 1)) ++ rs.filter (fun r => decide (r = 2)) ++
    rs.filter (fun r => decide (3 ≤ r))

/-- Resume a stopped slot, with the edits of its image or without; the reports the freeze held are applied once the core runs. One
resume writes one record (R291): of a report, where the freeze limit has been reached too (DESIGN CHOICE, log entry 115). -/
def resumeSlot (s : State) (k : Nat) (edits limit : Bool) : State :=
  match stoppedImage s k with
  | none => s
  | some image =>
    let s1 := if edits then reloadImage s k image else s
    let x := thawCore (unstop s1 k)
    let s2 := (reportOrder x.2).foldl applyReport x.1
    if x.2 ≠ [] then debugNotice s2 k 4 0 else if limit then debugNotice s2 k 3 0 else s2

/-- Every stopped thread of a context resumes without edits. -/
def resumeAll (s : State) (c : Nat) (limit : Bool) : State :=
  let one (t : State) (k : Nat) : State := if (getSlot t k).thread.ctx = c then resumeSlot t k false limit else t
  one (one s 0) 1

/-! ### Sessions and stops (R287, R288, R290) -/

def execAttach (ctx idx : Nat) (s : State) : Out :=
  debugPacket ctx idx 1 s (fun d => some (setCtx s d.target { getCtx s d.target with session := some ctx }, 0))

def execDetach (ctx idx : Nat) (s : State) : Out :=
  debugPacket ctx idx 2 s (fun d => 
    let t := resumeAll s d.target false
    some (setCtx t d.target { getCtx t d.target with session := none }, 0))

/-- A stop image that cannot be written ends the session. -/
def endSession (s : State) (c : Nat) : State := setCtx s c { getCtx s c with session := none }

/-- This edge begins a schedule cycle of the slot: it holds a thread and issue, and the core's clock runs (R80). -/
def atEdge (s : State) (k : Nat) : Bool :=
  decide ((getSlot s k).run ≠ .empty) && clockRuns s && decide (s.core.act = k) && decide (s.core.deadTill ≤ s.now) &&
    decide (s.turn = 0)

/-- A breakpoint that the slot reaches in a rollback waits for the rollback's end (R288): its cycle moves on with SCYC. -/
def breakDue (s : State) (k : Nat) : Bool :=
  atEdge s k && decide (s.core.rollAt = none) && decide ((getSlot s k).breakAt = some (getSlot s k).scyc) &&
    (threadCtx s k).session.isSome

/-- The slot's breakpoint stops it at this edge, and is disarmed; an image that cannot be written ends the session. -/
def breakStop (s : State) (k : Nat) : State :=
  let s1 := setSlot s k { getSlot s k with breakAt := none }
  match debugStop s1 k 1 (getSlot s k).breakImage with
  | some t => t
  | none => endSession s1 (getSlot s k).thread.ctx

/-- STOP: with a session, on a slot that holds a thread of the context; during a rollback it waits for the rollback's end. -/
def execStop (ctx idx : Nat) (s : State) : Out :=
  debugPacket ctx idx 3 s (fun d =>
    if !onThisCore s d then some (elsewhere s)
    else if !holdsThread s d || (getCtx s d.target).session.isNone then some (s, 1)
    else if (stoppedImage s d.slot).isSome then some (s, 0)
    else if s.core.rollAt.isSome then none
    else if breakDue s d.slot then some (breakStop s d.slot, 0)
    else
      let s1 := setSlot s d.slot { getSlot s d.slot with imageAt := d.addr }
      match debugStop s1 d.slot 0 d.addr with
      | some t => some (t, 0)
      | none => some (endSession s1 d.target, 1))

def execResume (ctx idx : Nat) (s : State) : Out :=
  debugPacket ctx idx 4 s (fun d =>
    if !onThisCore s d then some (elsewhere s)
    else if isStopped s d then some (resumeSlot s d.slot true false, 0)
    else some (s, 1))

/-- BREAK: operand 0 disarms. Table 20.2 asks nothing of the slot; the breakpoint stops a thread whose context has a session. -/
def execDebugBreak (ctx idx : Nat) (s : State) : Out :=
  debugPacket ctx idx 7 s (fun d =>
    if onThisCore s d then
      some (setSlot s d.slot { getSlot s d.slot with
        breakAt := if d.operand = 0 then none else some (w64 d.operand), imageAt := d.addr, breakImage := d.addr }, 0)
    else some (elsewhere s))

/-- BREAKPOINT: the slot's schedule cycle reaches the armed one; the breakpoint is disarmed. -/
def execBreakpoint (slot : Nat) (s : State) : Out := .next (if breakDue s slot then breakStop s slot else s)

/-- A thread of the context is stopped, and the freeze has lasted as long as the context allows. -/
def limitReached (s : State) (c : Nat) : Bool :=
  match s.core.freeze with
  | none => false
  | some f =>
    decide (f.since + (getCtx s c).freezeLimit ≤ s.now) &&
      [0, 1].any (fun k => (stoppedImage s k).isSome && decide ((getSlot s k).thread.ctx = c))

def execFreezeLimit (ctx : Nat) (s : State) : Out := .next (if limitReached s ctx then resumeAll s ctx true else s)

/-! ### READ and WRITE (R287) -/

/-- The voice whose voice status registers space 2 shows: X0 for those of the X voices alone. -/
def statusVoice (n : Nat) : VoiceId := if n = 3 ∨ n = 4 then .X0 else .A

/-- The bytes of a space; none where the space, its condition or the range is wrong. -/
def spaceBytes (s : State) (d : DebugBody) (off n : Nat) : Option (List Byte) :=
  match d.space with
  | 0 => readVirtual s (getCtx s d.target) off n
  | 1 =>
    let t := (getSlot s d.slot).thread
    if isStopped s d && decide (off + n ≤ t.winLen * 4096) then some (readSpad s (t.winBase * 4096 + off) n) else none
  | 2 =>
    if isStopped s d && decide (off + n ≤ 8192) then
      some ((List.range n).map (fun i =>
        BitVec.ofNat 8 ((statusRead s d.slot (statusVoice ((off + i) / 8)) ((off + i) / 8)).toNat / 256 ^ ((off + i) % 8))))
    else none
  | 3 => if off + n ≤ 512 then some (((snapCounts s d.slot).flatMap (leBytes 4) |>.drop off).take n) else none
  | 4 =>
    let all := (List.range 8).flatMap (fun i => leBytes 8 (sget (getCtx s d.target).totals i).toNat)
    if off + n ≤ 64 then some ((all.drop off).take n) else none
  | _ => none

/-- The space lies on another core. -/
def spaceElsewhere (s : State) (d : DebugBody) : Bool := decide (1 ≤ d.space) && decide (d.space ≤ 3) && !onThisCore s d

/-- Length and offset of a transfer. -/
def transferLen (d : DebugBody) : Nat := bits d.operand 48 16 + 1

def transferOff (d : DebugBody) : Nat := bits d.operand 0 48

def freeBytes (s : State) (n : Nat) : List Byte := (List.range n).map (fun i => Config.freeByte (s.fresh + i))

def execDebugRead (ctx idx : Nat) (s : State) : Out :=
  debugPacket ctx idx 5 s (fun d =>
    let n := transferLen d
    if 4096 < n then some (s, 1)
    else if spaceElsewhere s d then
      let e := elsewhere s
      if e.2 = 0 then some ((hostWrite { e.1 with fresh := e.1.fresh + n } d.addr (freeBytes e.1 n)).getD e.1, 0) else some e
    else
      match spaceBytes s d (transferOff d) n with
      | none => some (s, 1)
      | some bs => match hostWrite s d.addr bs with | some t => some (t, 0) | none => some (s, 1))

/-- Change a voice and all its images: no rollback undoes it. -/
def everyImage (s : State) (k : Nat) (v : VoiceId) (f : VoiceArch → VoiceArch) : State :=
  let y := getVoice s k v
  let s1 := setVoice s k v { y with a := f y.a, img := f y.img }
  let one (c : Clause) : Clause := if c.slot = k ∧ c.voice = v ∧ c.boundary.isSome = true then { c with img := f c.img } else c
  { s1 with core := { s1.core with clauses := s1.core.clauses.map one } }

/-- Write a status register of the stopped slot: outside any clause. -/
def putStatus (s : State) (k n : Nat) (x : Word) : State :=
  let v := statusVoice n
  if n = 4 then everyImage s k v (fun a => { a with vis := { a.vis with vflags := spreadFlags (x.setWidth 5) } })
  else if n < 4 then everyImage s k v (fun a => voiceStatus a n x)
  else
    match statusChange n x 0 0 with
    | some c => change s k 0 c
    | none => s

/-- The bytes of a transfer that fall into register `n`, over what it reads. -/
def mergedStatus (s : State) (k n off : Nat) (bs : List Byte) : Word :=
  let old := leBytes 8 (statusRead s k (statusVoice n) n).toNat
  w64 (leNat ((List.range 8).map (fun i => if off ≤ 8 * n + i ∧ 8 * n + i < off + bs.length then bs.getD (8 * n + i - off) 0 else old.getD i 0)))

def writeStatuses (s : State) (k off : Nat) (bs : List Byte) : State :=
  let first := off / 8
  let count := (off + bs.length - 1) / 8 - first + 1
  (List.range count).foldl (fun t i => putStatus t k (first + i) (mergedStatus t k (first + i) off bs)) s

/-- A WRITE is performed at once. -/
def writeSpace (s : State) (d : DebugBody) (off : Nat) (bs : List Byte) : Option State :=
  match d.space with
  | 0 => writeVirt s (getCtx s d.target) off bs
  | 1 =>
    let t := (getSlot s d.slot).thread
    if isStopped s d && decide (off + bs.length ≤ t.winLen * 4096) then some (writeSpad s (t.winBase * 4096 + off) bs) else none
  | 2 => if isStopped s d && decide (off + bs.length ≤ 8192) then some (writeStatuses s d.slot off bs) else none
  | _ => none

def execDebugWrite (ctx idx : Nat) (s : State) : Out :=
  debugPacket ctx idx 6 s (fun d =>
    let n := transferLen d
    if 4096 < n then some (s, 1)
    else if spaceElsewhere s d then some (elsewhere s)
    else
      match hostRead s d.addr n with
      | none => some (s, 1)
      | some bs => match writeSpace s d (transferOff d) bs with | some t => some (t, 0) | none => some (s, 1))

/-! ### Samples and trace (R292, R293) -/

/-- SAMPLE: bits of the operand above its exponent are zero (log entry 55). -/
def execSample (ctx idx : Nat) (s : State) : Out :=
  debugPacket ctx idx 8 s (fun d =>
    let k := d.operand
    if !onThisCore s d then some (elsewhere s)
    else if k = 0 then some (setSlot s d.slot { getSlot s d.slot with samplePeriod := 0 }, 0)
    else if 8 ≤ k ∧ k ≤ 20 then some (setSlot s d.slot { getSlot s d.slot with samplePeriod := w64 (2 ^ k) }, 0)
    else some (s, 1))

def sampleDue (s : State) (k : Nat) : Bool :=
  let x := getSlot s k
  atEdge s k && decide (x.samplePeriod ≠ 0) && decide (x.scyc.toNat % x.samplePeriod.toNat = 0) && decide (x.sampledAt ≤ s.now)

/-- SAMPLE_EMIT: the schedule cycle and the four addresses before the cycle's issue. -/
def execSampleEmit (slot : Nat) (s : State) : Out :=
  if sampleDue s slot then
    let s1 := setSlot s slot { getSlot s slot with sampledAt := s.now + 1 }
    .next (traceThread s1 slot 1 ((getSlot s slot).scyc.toNat :: allVoices.map (fun v => (getArch s slot v).na0.addr.toNat)))
  else .next s

def execTrace (ctx idx : Nat) (s : State) : Out :=
  debugPacket ctx idx 9 s (fun d =>
    let base := bits d.operand 0 48
    let units := bits d.operand 48 8
    if d.operand = 0 then some (let t := flushTrace s d.target; setCtx t d.target { getCtx t d.target with trace := none }, 0)
    else if base % 0x10000 ≠ 0 ∨ units = 0 ∨ bits d.operand 62 2 ≠ 0 then some (s, 1)
    else
      let t : Trace := ⟨base, units, bits d.operand 56 6, [], 0, 0, 0, []⟩
      some (setCtx s d.target { getCtx s d.target with trace := some t }, 0))

/-! ### Counters (R296) -/

/-- The slot counts of a context join its totals. -/
def foldAll (s : State) (c : Nat) : State :=
  let one (t : State) (k : Nat) : State :=
    if (getSlot t k).run ≠ .empty ∧ (getSlot t k).thread.ctx = c then foldCounts t k else t
  one (one s 0) 1

def execCounters (ctx idx : Nat) (s : State) : Out :=
  debugPacket ctx idx 10 s (fun d =>
    let s1 := foldAll s d.target
    let bs := (List.range 8).flatMap (fun i => leBytes 8 (sget (getCtx s1 d.target).totals i).toNat)
    match hostWrite s1 d.addr bs with
    | some t => some (t, 0)
    | none => some (s1, 1))

/-! ### Replay (R297, R298) -/

def execReplay (ctx idx : Nat) (s : State) : Out :=
  debugPacket ctx idx 11 s (fun d =>
    let mode := d.operand % 256
    let base := bits d.operand 8 40 * 256
    let r : Replay := ⟨mode, base, d.addr, 0, none⟩
    if 2 < mode ∨ base % 0x10000 ≠ 0 ∨ bits d.operand 48 16 ≠ 0 then some (s, 1)
    else if mode = 2 then
      let s1 := setReplay s d.target r
      let x := copyBuffers s1 d.target false (logBound s1 d.target) 0
      some (setReplay x.1 d.target { r with pos := x.2, waitSince := some s.now }, 0)
    else some (applyWaiting (setReplay s d.target r) d.target, 0))

/-- The next logged item has waited 100 µs. -/
def rerunOver (s : State) (c : Nat) : Bool :=
  let r := (getCtx s c).replay
  decide (r.mode = 2) && !logEnded s c &&
    (match r.waitSince with
     | some t => decide (t + microseconds s 100 ≤ s.now)
     | none => false)

def execReplayTimeout (ctx : Nat) (s : State) : Out := .next (if rerunOver s ctx then endRerun s ctx else s)

/-! ### Injection (R299) -/

def execInject (ctx idx : Nat) (s : State) : Out :=
  debugPacket ctx idx 12 s (fun d =>
    if d.operand % 4 = 3 ∨ bits d.operand 2 6 ≠ 0 then some (s, 1)
    else if !onThisCore s d then some (elsewhere s)
    else if ((getCtx s d.target).exclusive && decide (s.cluster.ctx = some d.target)) || isStopped s d then
      some (setSlot s d.slot { getSlot s d.slot with
        injectAt := (getSlot s d.slot).injectAt ++ [(w64 (d.operand / 256), d.operand % 4)] }, 0)
    else some (s, 1))

def execHostInject (core region : Nat) (s : State) : Out :=
  if core = s.core.index ∧ region < 3 ∧ powered s = true then execStrikeReport region (wake s) else .next (wake s)

end Sys2Proof.Machine
end

