-- ==== Sys2Proof/Machine/Boot.lean ====
section
/-! DEFINITION. What the host does to the package: boot and power (R251, R255), identity and measurements (R252, R253), the release
of a fenced core (R250), BAR0 (R245), and the creation of contexts (R187). -/

namespace Sys2Proof.Machine

/-! ### Boot and power (R251, R255) -/

/-- The package as power finds it: nothing is kept but the flash, the configuration it signs and the module's place in the
fabric; host memory is the host's. -/
def unpowered (s : State) : State :=
  { s with
    core := Core.fresh s.core.index
    cluster := Cluster.fresh s.cluster.num
    pkg := { Package.fresh with
      mem := s.pkg.mem.filter (fun p => decide (hostBase ≤ p.1) && decide (p.1 < spkBase))
      config := s.pkg.config, nextConfig := s.pkg.nextConfig, node := s.pkg.node, extentX := s.pkg.extentX, extentY := s.pkg.extentY, extentZ := s.pkg.extentZ
      flash := s.pkg.flash, power := .off } }

/-- What a configuration record fixes, as bytes (R254). -/
def recordBytes (c : ConfigRecord) : List Byte :=
  leBytes 24 c.cores.toNat ++ leBytes 8 c.hbm.toNat ++ leBytes 8 c.tier2 ++ leBytes 8 c.clockMhz ++ leBytes 8 c.tag.toNat

/-- The step at which the boot of an image fails; 7 where none does. -/
def failingStep (image : List Byte) : Nat := if Config.bootStep image = 0 then 7 else (Config.bootStep image - 1) % 6 + 1

/-- The boot of the first-stage image with the configuration record it finds: a step that fails stops it, with nothing of its own step
or of a later one done (step 5: DESIGN CHOICE, log entry 119). Step 3 derives the identity key anew (R252), step 5 applies the record;
the cluster-cycle counter starts at zero when the boot completes (R2). -/
def boot (s : State) : State :=
  let c := s.pkg.nextConfig.getD s.pkg.config
  let image := s.pkg.flash ++ Config.signedRecord (recordBytes c)
  let n := failingStep image
  { s with
    now := 0
    pkg := { s.pkg with
      power := if n = 7 then .active else .bootFailed n (Config.bootReason image % 256)
      config := if 5 < n then c else s.pkg.config
      nextConfig := if 5 < n then none else s.pkg.nextConfig
      identityKey := if 3 < n then .derived else s.pkg.identityKey } }

def execPowerOn (s : State) : Out := if s.pkg.power = .off then .next (boot (unpowered s)) else .next s

/-- After a boot that failed, the host supplies a new first-stage image. -/
def execReboot (image : List Byte) (s : State) : Out :=
  match s.pkg.power with
  | .bootFailed _ _ =>
    let t := unpowered s
    .next (boot { t with pkg := { t.pkg with flash := image } })
  | _ => .next s

def execPowerOff (s : State) : Out := .next (unpowered s)

/-- The cluster is gated: it has no context, or its scheduler holds no record, in transit neither, and its core no thread (R208). -/
def clusterGated (s : State) : Bool :=
  decide (s.cluster.ctx = none) ||
    (decide (s.cluster.queue = []) && decide (s.cluster.transit = []) && decide (s.cluster.stolen = []) && decide ((getSlot s 0).run = .empty) && decide ((getSlot s 1).run = .empty))

def execPackageIdleRequest (s : State) : Out :=
  if s.pkg.power = .active ∧ clusterGated s = true then .next { s with pkg := { s.pkg with power := .idle } } else .next s

/-- The power limit: up to 2,800 W in steps of 25 W. It slows every core by one factor and changes no schedule (R2, R255). -/
def execPowerLimit (watts : Nat) (s : State) : Out :=
  if powered s && decide (watts % 25 = 0) && decide (watts ≤ 2800) then
    let t := wake s
    .next { t with pkg := { t.pkg with powerLimit := watts } }
  else .next (wake s)

/-- The DOE mailbox and BAR0 are there: after a boot, well or not. -/
def attached (s : State) : Bool := decide (s.pkg.power ≠ .off)

/-- What BAR0 holds at an offset: the boot status at 8, the mirror of the capability list at 0x1000, else what was written (R245,
R251). -/
def bar0Word (p : Package) (off : Nat) : Word :=
  if off = 8 then (match p.power with | .bootFailed step reason => w64 (step + reason * 2 ^ 8) | _ => 0)
  else if 0x1000 ≤ off ∧ off < 0x2000 then w64 (capability p (off - 0x1000))
  else sget p.bar0 off

def readBar0 (s : State) (off : Nat) : State :=
  if attached s then { s with pkg := { s.pkg with bar0Data := bar0Word s.pkg off } } else s

/-- A BAR0 register without behaviour of its own holds what is written; the boot status and the mirror of the capability list
are read only. Any write ends PACKAGE-IDLE, whether it changes a register or not (Table 17.5). -/
def execBar0RegisterWrite (off : Nat) (val : Word) (s : State) : Out :=
  if attached s && decide (off < 0x2000000) && decide (off % 8 = 0) && decide (off ≠ 8) && !(decide (0x1000 ≤ off) && decide (off < 0x2000)) then
    let t := wake s
    .next { t with pkg := { t.pkg with bar0 := sset t.pkg.bar0 off val } }
  else .next (wake s)

/-! ### Fenced cores (R250) -/

/-- Some line of the core's storage cannot be written back. -/
def releaseFails (p : Package) : Bool := p.failing.any (fun l => decide (2 ^ 37 ≤ l))

/-- A release that stops at its second step: the core stays fenced, and keeps the knot registers and the row affine table. -/
def stopRelease (old : Core) (u : State) : State :=
  { u with core := { u.core with
      fenced := true, affine := old.affine
      ctl := { u.core.ctl with knots := old.ctl.knots }, sctl := { u.core.sctl with knots := old.sctl.knots } } }

/-- The release of a fenced core: a line that cannot be written back stops it, and the core stays fenced. -/
def execCoreRelease (core : Nat) (s : State) : Out :=
  if powered s && decide (core < 192) then
    let t := wake s
    if core = s.core.index ∧ s.core.fenced = true then
      let u := releaseCore t
      if releaseFails t.pkg then
        .next (stopRelease t.core { u with pkg := { u.pkg with coreRelease := w64 (core + 2 ^ 62) } })
      else .next { u with pkg := { u.pkg with coreRelease := w64 (core + 2 ^ 63) } }
    else .next { t with pkg := { t.pkg with coreRelease := w64 (core + 2 ^ 63) } }
  else .next (wake s)

/-! ### SPDM over the DOE mailbox (R253) -/

/-- A reply: version, response code, body. The layouts of the bodies are those of SPDM 1.3 (PRESUMED: DMTF DSP0274, log entry 61). -/
def spdmFixed (s : State) (version code : Nat) (body : List Byte) : Out :=
  if attached s then
    .next { s with pkg := { s.pkg with doe := BitVec.ofNat 8 version :: BitVec.ofNat 8 code :: body } }
  else .next s

/-- A reply that ends in what the spec does not give. -/
def spdmReply (s : State) (code : Nat) (body : List Byte) : Out :=
  spdmFixed (if attached s then { s with fresh := s.fresh + 1 } else s) 0x13 code (body ++ Config.spdmBody s.fresh)

/-- One version, 1.3. -/
def execGetVersion (_msg : List Byte) (s : State) : Out := spdmFixed s 0x10 0x04 [0, 0, 0, 1, 0, 0x13]

def execGetCapabilities (_msg : List Byte) (s : State) : Out := spdmReply s 0x61 []

/-- SPDM's bits for ECDSA on P-521 and for SHA-512, as a signature algorithm, a hash and a measurement hash: all the device offers. -/
def spdmP521 : Nat := 0x100

def spdmSha512 : Nat := 0x4

def spdmMeasureSha512 : Nat := 0x8

/-- What is selected: of what the request names, what the device offers. -/
def execNegotiateAlgorithms (msg : List Byte) (s : State) : Out :=
  let asym := fieldAt msg 8 4 &&& spdmP521
  let hash := fieldAt msg 12 4 &&& spdmSha512
  let body := leBytes 2 0 ++ leBytes 2 36 ++ leBytes 1 (fieldAt msg 6 1 &&& 1) ++ leBytes 1 0 ++ leBytes 4 spdmMeasureSha512 ++
    leBytes 4 asym ++ leBytes 4 hash ++ leBytes 16 0
  spdmFixed (if attached s then { s with pkg := { s.pkg with spdmNegotiated := true } } else s) 0x13 0x63 body

/-- The device certificate, signed at manufacture for the public half of the identity key, with its chain to the root (R252). -/
def certificates : List Byte := Config.certificateChain (Config.publicHalf IdentityKey.derived.bytes)

/-- The digest of the one chain there is, in slot 0. -/
def execGetDigests (_msg : List Byte) (s : State) : Out := spdmFixed s 0x13 0x01 ([0x01, 0x01] ++ Config.sha512 certificates)

/-- The portion of the chain that the request asks for. -/
def execGetCertificate (msg : List Byte) (s : State) : Out :=
  let off := fieldAt msg 4 2
  let part := (certificates.drop off).take (fieldAt msg 6 2)
  spdmFixed s 0x13 0x02 ([0, 0] ++ leBytes 2 part.length ++ leBytes 2 (certificates.length - off - part.length) ++ part)

def execChallenge (_msg : List Byte) (s : State) : Out := spdmReply s 0x03 []

/-- The capability list as step 5 of the boot builds it, before any link is up. -/
def bootCapabilities (p : Package) : List Byte :=
  (List.range 20).flatMap (fun i => leBytes 8 (capability { p with links := [] } (8 * i)))

/-- The four measurements: first-stage image, remaining firmware, configuration record, capability list. -/
def measurements (s : State) : List Byte :=
  Config.sha512 s.pkg.flash ++ Config.sha512 Config.firmwareImage ++ Config.sha512 (Config.signedRecord (recordBytes s.pkg.config)) ++
    Config.sha512 (bootCapabilities s.pkg)

def execGetMeasurements (_msg : List Byte) (s : State) : Out := spdmReply s 0x60 (measurements s)

/-- Any other request: an error of UnsupportedRequest, with the request's code. -/
def execUnsupportedRequest (msg : List Byte) (s : State) : Out := spdmFixed s 0x13 0x7F ([0x07] ++ leBytes 1 (fieldAt msg 1 1))

/-! ### Contexts (R187, R213, R246) -/

def ringOf (r : Nat × Nat) : HostRing := ⟨r.1, r.2, 0, 0⟩

/-- The ring's bytes lie among the bus addresses the device reaches. -/
def ringFits (r : Nat × Nat) (n : Nat) : Bool := decide (r.1 + r.2 * n ≤ 2 ^ 41)

/-- A time the host sets lies within its bounds, in microseconds (R207, R289). -/
def timeOk (s : State) (lo hi x : Nat) : Bool := decide (microCycles s lo ≤ x) && decide (x ≤ microCycles s hi)

/-- A time slice of 20 µs to 1 s, a freeze limit of 10 µs to 100 ms; one outside its bounds changes nothing (DESIGN CHOICE, log entry
89). -/
def sliceOr (s : State) (old x : Nat) : Nat := if timeOk s 20 1000000 x then x else old

def freezeOr (s : State) (old x : Nat) : Nat := if timeOk s 10 100000 x then x else old

/-- The host sets the times of a context through BAR0. -/
def setLimits (s : State) (n slice drain freeze : Nat) : State :=
  let c := getCtx s n
  if !ctxExists s n then wake s
  else setCtx (wake s) n { c with slice := sliceOr s c.slice slice, drainLimit := drain, freezeLimit := freezeOr s c.freezeLimit freeze }

/-! ### Job entries (R274) -/

/-- The 32-bit node identifiers of a member list. -/
def memberList (s : State) (pa n : Nat) : List Nat := (List.range n).map (fun i => leNat (readMem s (pa + 4 * i) 4))

/-- Ascending order, with no repeats. -/
def ascending : List Nat → Bool
  | x :: y :: r => decide (x < y) && ascending (y :: r)
  | _ => true

/-- A group as the host describes it: its list is read from memory when the entry is written. A count outside 1 to 524288, a list that
is not in memory or not in ascending order gives a group that is not valid (DESIGN CHOICE, log entry 66). The numbers of its
contributions go on. -/
def groupFrom (s : State) (old : Group) (count pa : Nat) : Group :=
  let here := decide (1 ≤ count) && decide (count ≤ 524288) && presentRange s.pkg pa (4 * count)
  let ms := if here then memberList s pa count else []
  { old with valid := here && ascending ms, members := ms, listAddr := pa }

def Job.none (id : Nat) : Job :=
  { id := id, ctx := .none, windows := [], groups := [], instances := [], saveBase := 0, saveLen := 0, lateCap := 0, faultWord := 0
    switchedOut := false, switching := false, incoming := false, initiator := false, parent := 24, children := [], markers := []
    saved := [], late := [], appended := (0, 0), request := .none, count := 0, lostWord := 0, kids := [], atStart := [] }

/-- An entry as the host writes it over an old one: one of the same job keeps its switch, its packets and its instances. Without a
context it has no window and no group. -/
def jobFrom (s : State) (old : Job) (d : JobDesc) : Job :=
  let here := d.ctx.isSome
  { old with
    ctx := d.ctx, saveBase := d.saveBase, saveLen := d.saveLen, lateCap := d.lateCap
    windows := if here then (d.windows.filter (fun w => decide (w.1 < 16))).foldl (fun m w => mput m w.1 w.2) [] else []
    groups := if here then
        (d.groups.filter (fun g => decide (g.1 < 64))).foldl (fun m g => mput m g.1 (groupFrom s (groupOf old g.1) g.2.1 g.2.2)) []
      else [] }

/-- No context but the entry's belongs to it. -/
def joinJob (k : Nat) (d : JobDesc) (c : Nat × Context) : Nat × Context :=
  if d.ctx = some c.1 then (c.1, { c.2 with job := some k })
  else if c.2.job = some k then (c.1, { c.2 with job := none })
  else c

/-- The host writes an entry of the job table: 256 entries, 16-bit job identifiers, save areas 4 KiB aligned. -/
def setJobEntry (s : State) (k : Nat) (d : JobDesc) : State :=
  if powered s && decide (k < 256) && decide (d.id < 2 ^ 16) && decide (d.saveBase % 4096 = 0) then
    let t := wake s
    let old := match mfind t.pkg.jobs k with
      | some j => if j.id = d.id then j else Job.none d.id
      | none => Job.none d.id
    let u := setJob t k (jobFrom t old d)
    { u with pkg := { u.pkg with contexts := u.pkg.contexts.map (joinJob k d) } }
  else wake s

/-! ### Context descriptors -/

/-- Identifiers of 16 bits, scope groups 0 to 31, physical addresses of 43 bits (R7). -/
def withinLimits (d : ContextDesc) : Bool :=
  decide (d.number < 4096) && decide (d.asid < 2 ^ 16) && d.scopes.all (fun x => decide (x.1 < 32)) && decide (d.root < 2 ^ 43) &&
    d.pubmap.all (fun x => decide (x.2.2.2.1 < 2 ^ 43) && decide (x.2.2.2.2.1 < 2 ^ 43))

def contextOf (s : State) (d : ContextDesc) : Context :=
  { Context.fresh with
    asid := d.asid, root := d.root, smode := d.smode, handler := d.handler, trapArea := d.trapArea, clusters := d.clusters
    scopes := d.scopes.foldl (fun m x => mput m x.1 ⟨true, x.2⟩) []
    pubmap := d.pubmap.foldl (fun m x => mput m x.1 ⟨x.2.1, x.2.2.1, x.2.2.2.2.2, true, x.2.2.2.1, x.2.2.2.2.1⟩) []
    graphs := d.graphs.foldl (fun m x => mput m x.1 ⟨x.2.1, x.2.2⟩) []
    pipes := d.pipes.foldl (fun m x => mput m x.1 ⟨x.2.1, x.2.2.1, x.2.2.2.1, x.2.2.2.2.1, x.2.2.2.2.2⟩) []
    slice := sliceOr s Context.fresh.slice d.slice, drainLimit := d.drainLimit
    freezeLimit := freezeOr s Context.fresh.freezeLimit d.freezeLimit, exclusive := d.exclusive, owner := d.owner
    job := d.job, sq := ringOf d.sq, cq := ringOf d.cq, fq := ringOf d.fq }

/-- The array state of the core is at its reset values (R153). -/
def clearArray (c : Core) : Core :=
  { c with
    cells := [], headers := [], grads := [], tiles := [], affine := []
    ctl := { c.ctl with knots := Knots.reset }, sctl := { c.sctl with knots := Knots.reset } }

/-- The first assignment of this cluster to a context. -/
def assignCluster (s : State) (n : Nat) : State :=
  { s with
    core := clearArray s.core
    cluster := { Cluster.fresh s.cluster.num with
      ctx := some n, lost := s.cluster.lost, nextSeq := s.cluster.nextSeq, transit := s.cluster.transit, stolen := s.cluster.stolen
      offQueue := s.cluster.offQueue }
    pkg := { s.pkg with mem := mclear s.pkg.mem (spkBase + s.cluster.num * spkSize) spkSize } }

/-- CONTEXT_CREATION: a number that is not in use; this cluster is assigned where it is in the set and free. -/
def execContextCreation (d : ContextDesc) (s : State) : Out :=
  if !powered s || !withinLimits d || ctxExists s d.number then .next (wake s)
  else if !ringFits d.sq 64 then .fault (.hostAddress d.sq.1)
  else if !ringFits d.cq 32 then .fault (.hostAddress d.cq.1)
  else if !ringFits d.fq 64 then .fault (.hostAddress d.fq.1)
  else
    let s1 := setCtx (wake s) d.number (contextOf s d)
    let free := decide (s.cluster.ctx = none) || s.cluster.switchedOut
    .next (if d.clusters.getLsbD s.cluster.num && free then assignCluster s1 d.number else s1)

end Sys2Proof.Machine
end

