-- ==== Sys2Proof/Machine/DevMem.lean ====
section
/-! DEFINITION. The device-memory words of voice A (R221 to R225), FENCE (R226), PUBG (R229), TLBINV and TLBSYNC (R230, R231). -/

namespace Sys2Proof.Machine

/-! ### The checks of R221 -/

/-- Hold-back entries a store of these intervals would add to those of its clause (R175). -/
def storeRoom (s : State) (h : Here) (ps : List (Nat × Nat)) : Bool :=
  let own := s.core.held.flatMap (fun x => if x.clause = clauseAt s h then heldLines x.eff else [])
  let new := dedup ((ps.flatMap (fun p => linesOf p.1 p.2)).filter (fun l => !own.contains (true, l)))
  decide (holdbackUsed s.core + new.length ≤ 128)

def partSpans (ps : List Part) : List (Nat × Nat) := ps.map (fun p => (p.pa, p.len))

/-- The first byte of a store that lies in a range of the publish map. -/
def publishedPart (c : Context) (ps : List Part) : Option Nat :=
  (findFirst (fun (p : Part) => (pubEntry c p.va).isSome) ps).map (fun p => p.va)

/-- An LDA of the slot's voice A has not reached FULL (R222, R237). -/
def acquirePending (s : State) (k : Nat) : Bool :=
  (getSlot s k).xfers.any (fun x => x.acquire && decide (mfind (getSlot s k).arrived x.id = none))

def partsOrdered (ps : List Part) : Bool := ps.any (fun p => decide (leafKind p.leaf ≠ 2))

/-- A FENCE of voice A holds a load back (R226). -/
def loadFenced (s : State) (k : Nat) (ps : List Part) : Bool :=
  (getSlot s k).fences.any (fun f => f.forA && ps.any (fun p => f.mask.getLsbD (scopeOf p.pa)) && fenceActive s k f)

/-- Translate an access and make the checks of R221 from the second on. While an acquire is outstanding only an access to a UN page
goes on; any other stalls and translates at its later issue (R237). A fence holds a load back. `q` marks a queue word. -/
def withDev (h : Here) (a : Acc) (ea : Word) (n : Nat) (q : Bool) (s : State) (go : List Part → State → Res) : Res :=
  let c := threadCtx s h.k
  let store := decide (a = .write)
  match translate s c (slotAt s h).thread.smode a ea.toNat n with
  | (u, .ok ps) =>
    if (store && !storeRoom s h (partSpans ps)) || (partsOrdered ps && acquirePending s h.k) then .stall false s
    else if kindsDiffer q ps then .trap 0x0A ea s
    else
      match (if store then publishedPart c ps else none) with
      | some bad => .trap 0x09 (w64 bad) s
      | none => if !store && loadFenced s h.k ps then .stall false s else go ps u
  | (_, .trap cause bad) =>
    if (store && !storeRoom s h [(ea.toNat, n)]) || acquirePending s h.k then .stall false s else .trap cause (w64 bad) s
  | (_, .check va st) =>
    if (store && !storeRoom s h [(ea.toNat, n)]) || acquirePending s h.k then .stall false s else .halt (machineCheck s h.k va st)

/-! ### Loads (R222) -/

/-- The transfer of a load, under the next number. -/
def newXfer (s : State) (h : Here) (queue lb : Nat) (ps : List Part) (ea n : Nat) (acquire : Bool) : Xfer :=
  let leaf := (ps.map (fun p => p.leaf)).headD 0
  { id := freshId s, voice := h.v, lb := lb, queue := queue, val := none, parts := partSpans ps, va := ea, len := n,
    kind := leafKind leaf, fmt := leafFmt leaf, geo := leafGeo leaf, acquire := acquire, remote := false, fault := none,
    clause := clauseAt s h, ord := clockOf s h.k h.v }

/-- The clauses whose held stores a load takes bytes from (Table 11.1). -/
def loadDeps (s : State) (k : Nat) (ps : List Part) : List Nat := ps.flatMap (fun p => heldClauses s k true p.pa p.len)

/-- Send the read of a landing transfer: the slot is BUSY, what it held is gone (R95, R222). -/
def sendLoad (h : Here) (key : Nat) (x : Xfer) (ps : List Part) (s : State) : State :=
  let s1 := changeAt (bumpId (addDeps s h.k h.v (loadDeps s h.k ps))) h (.landSet key (.xfer x.id x.clause))
  setSlot s1 h.k { getSlot s1 h.k with xfers := (getSlot s1 h.k).xfers ++ [x] }

def loadWord (sb : BitVec 1) (p k : BitVec 3) (b : BitVec 5) (z : BitVec 2) (o : BitVec 1) (imm : BitVec 9) (acquire : Bool)
    (s : State) : Out :=
  word sb p .a (fun h t =>
    let r := archAt t h
    let w := accWidth z
    let ea := memAddr r b o imm w
    let key := 8 * h.v.num + k.toNat
    withDev h .read ea w false t (fun ps u =>
      if landingState u h.k key = 1 then .stall false t
      else
        withWrites h (postWrite r b o imm w) u (fun x =>
          .retire .seq false (sendLoad h key (newXfer x h 8 k.toNat ps ea.toNat w acquire) ps x)))) s

def execLdg (sb : BitVec 1) (p k : BitVec 3) (b : BitVec 5) (z : BitVec 2) (o : BitVec 1) (imm : BitVec 9) (s : State) : Out :=
  loadWord sb p k b z o imm false s

def execLda (sb : BitVec 1) (p k : BitVec 3) (b : BitVec 5) (z : BitVec 2) (o : BitVec 1) (imm : BitVec 9) (s : State) : Out :=
  loadWord sb p k b z o imm true s

/-! ### Stores (R224) -/

/-- Hold the bytes of a store, one effect to each page it touches. -/
def holdDev (h : Here) (asid : Nat) (rel : Bool) (bs : List Byte) (s : State) : List Part → State
  | [] => s
  | p :: r =>
    holdDev h asid rel (bs.drop p.len)
      (hold s h.k (clauseAt s h) (.store true p.pa (bs.take p.len) (leafKind p.leaf) rel 0 p.va asid)) r

def storeWord (sb : BitVec 1) (p : BitVec 3) (d b : BitVec 5) (z : BitVec 2) (o : BitVec 1) (imm : BitVec 9) (rel : Bool)
    (s : State) : Out :=
  word sb p .a (fun h t =>
    let r := archAt t h
    let w := accWidth z
    withDev h .write (memAddr r b o imm w) w false t (fun ps u =>
      withWrites h (postWrite r b o imm w) u (fun x =>
        .retire .seq false (holdDev h (threadCtx x h.k).asid rel (leBytes w (visS r d).toNat) x ps)))) s

def execStg (sb : BitVec 1) (p : BitVec 3) (d b : BitVec 5) (z : BitVec 2) (o : BitVec 1) (imm : BitVec 9) (s : State) : Out :=
  storeWord sb p d b z o imm false s

def execStl (sb : BitVec 1) (p : BitVec 3) (d b : BitVec 5) (z : BitVec 2) (o : BitVec 1) (imm : BitVec 9) (s : State) : Out :=
  storeWord sb p d b z o imm true s

/-! ### Queue words (R225) -/

/-- The page at an address, SO or RC, is held back by an acquire (R237). -/
def pageHeld (s : State) (k : Nat) (ea : Word) : Bool :=
  acquirePending s k &&
    (match lookupVia s s.core.dtlb (threadCtx s k) ea.toNat with
     | .leaf _ _ _ e => decide (leafKind e ≠ 2)
     | _ => false)

/-- FMT and GEO of the page at an address; zero where it has no translation. -/
def pageFormat (s : State) (k : Nat) (ea : Word) : Nat × Nat :=
  match lookupVia s s.core.dtlb (threadCtx s k) ea.toNat with
  | .leaf _ _ _ e => (leafFmt e, leafGeo e)
  | _ => (0, 0)

/-- Reserve the tail of a queue for the data of a read. -/
def sendFill (h : Here) (q : Nat) (x : Xfer) (ps : List Part) (s : State) : State :=
  let s1 := reserveEntry (addDeps s h.k h.v (loadDeps s h.k ps)) h.k (clauseAt s h) q
  setSlot s1 h.k { getSlot s1 h.k with xfers := (getSlot s1 h.k).xfers ++ [x] }

def execLdgq (sb : BitVec 1) (p : BitVec 3) (q : BitVec 2) (b : BitVec 5) (o : BitVec 1) (imm : BitVec 9) (s : State) : Out :=
  word sb p .a (fun h t =>
    let r := archAt t h
    let ea := memAddr r b o imm 128
    let f := pageFormat t h.k ea
    let n := footprint f.1 f.2
    if queueBound t h q.toNat then .trap 0x0C 0 t
    else
      withDev h .read ea n true t (fun ps u =>
        match tryPush u h.k q.toNat with
        | .full => .stall false t
        | .trap c => .trap c 0 t
        | .drop => withWrites h (postWrite r b o imm 128) u (fun x => .retire .seq false x)
        | .room =>
          withWrites h (postWrite r b o imm 128) u (fun x =>
            .retire .seq false (sendFill h q.toNat (newXfer x h q.toNat 0 ps ea.toNat n false) ps x)))) s

def execStgq (sb : BitVec 1) (p : BitVec 3) (q : BitVec 1) (b : BitVec 5) (o : BitVec 1) (imm : BitVec 9) (s : State) : Out :=
  word sb p .a (fun h t =>
    let r := archAt t h
    let ea := memAddr r b o imm 128
    let f := pageFormat t h.k ea
    let k := 4 + q.toNat
    if f.1 = 8 then (if pageHeld t h.k ea then .stall false t else .trap 0x0A ea t)
    else if queueBound t h k then .trap 0x0C 0 t
    else
      withDev h .write ea (footprint f.1 f.2) true t (fun ps u =>
        withPops h [k] u (fun hs =>
          withWrites h (postWrite r b o imm 128) u (fun x =>
            let bs := (hs.map (fun y => encodeEntry f.1 y.2.val)).flatten
            .retire .seq false (holdDev h (threadCtx x h.k).asid false bs (popQueue h x k) ps))))) s

/-- Start the walk of an address that no TLB holds, while one of the 64 walkers is free (R219, R225). -/
def startWalk (s : State) (k : Nat) (va : Nat) : State :=
  let c := threadCtx s k
  if (tlbHit s.core.dtlb c.asid va).isSome || (tlbHit s.pkg.l2tlb c.asid va).isSome || decide (64 ≤ s.pkg.walks.length) then s
  else
    let w : Walk := ⟨freshId s, (getSlot s k).thread.ctx, va⟩
    bumpId { s with pkg := { s.pkg with walks := s.pkg.walks ++ [w] } }

/-- PFG never stalls and never traps: its write of the base is recorded even in a full file, and a clash counts, sets CLASH and lets the
younger value stand whatever CLASHTRAP is (R225; DEDUCED against R18 and R24, log entry 117). -/
def execPfg (sb : BitVec 1) (p : BitVec 3) (b : BitVec 5) (o : BitVec 1) (imm : BitVec 9) (s : State) : Out :=
  word sb p .a (fun h t =>
    let r := archAt t h
    let u := recordWrites h (postWrite r b o imm 128) t
    .retire .seq false (startWalk u h.k (memAddr r b o imm 128).toNat)) s

/-! ### FENCE (R226) -/

/-- The fence of voice A: its earlier stores still held and its earlier loads not performed, to the scopes of the mask. -/
def fenceOfA (s : State) (h : Here) (mask : BitVec 5) : Fence :=
  let stores := s.core.held.filterMap (fun x =>
    match x.eff with
    | .store dev a _ _ _ 0 _ _ =>
      if x.slot = h.k ∧ mask.getLsbD (if dev then scopeOf a else 0) = true then some x.clause else none
    | _ => none)
  let loads := (slotAt s h).xfers.filter (fun x => decide (x.voice = .A) && decide (x.val = none) &&
    (if x.remote then mask.getLsbD 4 else x.parts.any (fun p => mask.getLsbD (scopeOf p.1))))
  ⟨mask, true, dedup stores, loads.map (fun x => x.id), [], clauseAt s h⟩

/-- The fence of voice C: every command issued before it, and the writes of those already executed. -/
def fenceOfC (s : State) (h : Here) (mask : BitVec 5) : Fence :=
  let mine := s.core.cmds.filter (fun m => decide (m.slot = h.k) && !m.retired)
  let writes := s.core.held.filterMap (fun x =>
    match x.eff with
    | .store _ _ _ _ _ (_ + 1) _ _ => if x.slot = h.k then some x.clause else none
    | _ => none)
  ⟨mask, false, dedup (mine.map (fun m => m.clause) ++ writes), [], mine.map (fun m => m.id), clauseAt s h⟩

/-- Put a fence in force; those that wait for nothing any more are forgotten. -/
def addFence (s : State) (k : Nat) (f : Fence) : State :=
  let x := getSlot s k
  setSlot s k { x with fences := x.fences.filter (fun g => fenceActive s k g) ++ [f] }

/-- The scope-group entry of a FENCE GROUP is valid (R239). -/
def scopeValid (s : State) (k : Nat) (d : BitVec 5) : Bool := (mget ⟨false, 0⟩ (threadCtx s k).scopes d.toNat).valid

def execFence (sb : BitVec 1) (p : BitVec 3) (d a : BitVec 5) (b : BitVec 3) (s : State) : Out :=
  word sb p .ac (fun h t =>
    if b = 7 ∧ scopeValid t h.k d = false then .trap 0x0B 0 t
    else if h.v = .A ∧ acquirePending t h.k = true then .stall false t
    else
      withFlip h t (fun u =>
        .retire .seq true (if a = 0 then u else addFence u h.k (if h.v = .A then fenceOfA u h a else fenceOfC u h a)))) s

/-! ### PUBG, TLBINV, TLBSYNC -/

def execPubg (sb : BitVec 1) (p : BitVec 3) (a : BitVec 5) (s : State) : Out :=
  word sb p .c (fun h t =>
    let k := (visS (archAt t h) a).toNat
    if 63 < k ∨ (mget ⟨0, 0, false, false, 0, 0⟩ (threadCtx t h.k).pubmap k).valid = false then .trap 0x0B 0 t
    else .retire .seq false (hold t h.k (clauseAt t h) (.pubg k))) s

/-- The invalidation of a TLBINV's operands (R230): start and length in bytes, identifier, every identifier. -/
def invalOf (x y : Word) (id : Nat) : Effect :=
  .tlbinv (bits x.toNat 16 36 * 2 ^ 16) (bits y.toNat 16 36 * 2 ^ 16) (bits y.toNat 0 16) (y.getLsbD 63) id

def execTlbinv (sb : BitVec 1) (p : BitVec 3) (a b : BitVec 5) (s : State) : Out :=
  privWord sb p .c (fun h t =>
    let r := archAt t h
    .retire .seq false (hold t h.k (clauseAt t h) (invalOf (visS r a) (visS r b) (freshId t)))) s

def isTlbinv : Effect → Bool
  | .tlbinv _ _ _ _ _ => true
  | _ => false

/-- The numbers of the thread's TLBINVs that are not acknowledged. -/
def invalsOpen (s : State) (k : Nat) : List Nat :=
  (s.core.held.filter (fun h => decide (h.slot = k) && isTlbinv h.eff)).map (fun h => h.id) ++
  (s.core.out.filter (fun o => decide (o.slot = k) && isTlbinv o.eff)).map (fun o => o.id) ++
  (s.pkg.invals.filter (fun v => decide (v.slot = k) && !v.acked)).map (fun v => v.id)

def execTlbsync (sb : BitVec 1) (p : BitVec 3) (d : BitVec 5) (s : State) : Out :=
  privWord sb p .c (fun h t =>
    match (archAt t h).wait with
    | none =>
      let ids := invalsOpen t h.k
      withFlip h t (fun u => startWait h .tlbsync ids d.toNat (w64 (ids.length % 2 ^ 16)) u)
    | some w =>
      if w.items.any (fun i => (invalsOpen t h.k).contains i) then .stall true t
      else endWait h true [⟨.s w.dest, row64 w.val, 2⟩] t) s

end Sys2Proof.Machine
end

