-- ==== Sys2Proof/Machine/EngineWords.lean ====
section
/-! DEFINITION. The words of voice C that load, amend and issue templates (R141 to R143), wait for and discard arrivals (R145,
R146), set up rings and publish (R148 to R150), set the knot registers (R159) and compare digests (R169). -/

namespace Sys2Proof.Machine

/-- A format R word of major ENG. -/
def engWord (sb : BitVec 1) (p : BitVec 3) (body : Here → State → Res) (s : State) : Out := word sb p .c body s

/-! ### TPL (R141) -/

/-- A template loaded anew is sound. -/
def mendTemplate (s : State) (k key : Nat) : State :=
  if s.core.badRows = [] then s
  else { s with core := { s.core with badRows := s.core.badRows.filter (fun p => decide (p ≠ (7, 256 * k + key))) } }

def tplWord (sb : BitVec 1) (p : BitVec 3) (eng : Nat) (t a : BitVec 5) (tlo : BitVec 1) (s : State) : Out :=
  engWord sb p (fun h u =>
    let ea := visS (archAt u h) a
    match spadLoadAddr (slotAt u h) ea.toNat 128 with
    | .error _ => .trap 0x0B ea u
    | .ok _ =>
      if ea.toNat % 64 ≠ 0 then .trap 0x0B ea u
      else
        withSpadLoad h ea 128 u (fun bs x =>
          let img : BitVec 1024 := BitVec.ofNat 1024 (leNat bs)
          if templateOk img eng then
            .retire .seq false (changeAt (mendTemplate x h.k (tmplKey eng (t.toNat + 32 * tlo.toNat))) h (.tmplSet (tmplKey eng (t.toNat + 32 * tlo.toNat)) (withTag img 0)))
          else .trap 0x01 0 u)) s

def execTplC (sb : BitVec 1) (p : BitVec 3) (t a : BitVec 5) (tlo : BitVec 1) (s : State) : Out := tplWord sb p 1 t a tlo s

def execTplA (sb : BitVec 1) (p : BitVec 3) (t a : BitVec 5) (tlo : BitVec 1) (s : State) : Out := tplWord sb p 2 t a tlo s

def execTplS (sb : BitVec 1) (p : BitVec 3) (t a : BitVec 5) (tlo : BitVec 1) (s : State) : Out := tplWord sb p 3 t a tlo s

/-! ### PAT and PIS (R142, R143) -/

/-- A template that a scrub has found beyond correction (R182); loading it anew mends it. -/
def badTemplate (s : State) (k key : Nat) : Bool := s.core.badRows.contains (7, 256 * k + key)

def getTmpl (s : State) (h : Here) (eng : Nat) (t : BitVec 6) : BitVec 1024 := sget (getCtl s h.k).templates (tmplKey eng t.toNat)

def patWord (sb : BitVec 1) (eng : Nat) (t : BitVec 6) (f : BitVec 3) (v : BitVec 16) (s : State) : Out :=
  issue sb 0 .c false noIll alwaysLive (fun h u =>
    .retire .seq false (changeAt u h (.tmplSet (tmplKey eng t.toNat) (patched (getTmpl u h eng t) f.toNat v)))) s

def execPatC (sb : BitVec 1) (t : BitVec 6) (f : BitVec 3) (v : BitVec 16) (s : State) : Out := patWord sb 1 t f v s

def execPatA (sb : BitVec 1) (t : BitVec 6) (f : BitVec 3) (v : BitVec 16) (s : State) : Out := patWord sb 2 t f v s

def execPatS (sb : BitVec 1) (t : BitVec 6) (f : BitVec 3) (v : BitVec 16) (s : State) : Out := patWord sb 3 t f v s

/-- The clauses whose held stores stand in a command's sources in core scratchpad when it is issued (Table 11.1); those it finds there,
and in memory, when it runs are added then (heldRun). -/
def sourceClauses (s : State) (k : Nat) (t : BitVec 1024) : List Nat :=
  let y := getSlot s k
  (operandsOf t).flatMap (fun o =>
    if o.dst then []
    else
      match o.space with
      | 0 =>
        match resolveOpnd y o with
        | .ok a => heldClauses s k false ((a : Int) + (o.low - o.base)).toNat (o.high - o.low + 1).toNat
        | .error _ => []
      | 3 =>
        let g := getRing (getCtl s k) (tRing t)
        heldClauses s k false g.base (2 ^ g.lgsize)
      | _ => [])

/-- The word that issues a template: it stalls while the queue is full or the row's slot is BUSY, amends, then meets the
checks; a trap leaves the amendment (R143). Whether the slot is BUSY is asked of the amended template (DESIGN CHOICE, log entry 90). A
template beyond correction is a machine check (R182). -/
def pisWord (sb : BitVec 1) (eng : Nat) (t : BitVec 6) (f : BitVec 3) (v : BitVec 16) (s : State) : Out :=
  issue sb 0 .c false noIll alwaysLive (fun h u =>
    let img := patched (getTmpl u h eng t) f.toNat v
    if engineDepth eng ≤ queuedCmds u eng ∨ slotBusy u h.k img = true then .stall false u
    else
      let c := getCtl u h.k
      let kn := u.core.ctl.knots
      let u1 := changeAt u h (.tmplSet (tmplKey eng t.toNat) img)
      match pisFault c kn (slotAt u h) eng img with
      | some (cause, bad) => .trap cause bad u1
      | none =>
        if badTemplate u h.k (tmplKey eng t.toNat) || (isCopyf img && badTemplate u h.k (tmplKey 2 (tFollow img))) then
          .halt (machineCheck u h.k 0 7)
        else
          let follow := if isCopyf img then some (followOf c img) else none
          let deps := sourceClauses u h.k img ++ (match follow with | some g => sourceClauses u h.k g | none => [])
          let u2 := addDeps u1 h.k h.v deps
          .retire .seq false (enqueueCmd u2 (newCmd u2 h.k (clauseAt u2 h) eng img kn follow))) s

def execPisC (sb : BitVec 1) (t : BitVec 6) (f : BitVec 3) (v : BitVec 16) (s : State) : Out := pisWord sb 1 t f v s

def execPisA (sb : BitVec 1) (t : BitVec 6) (f : BitVec 3) (v : BitVec 16) (s : State) : Out := pisWord sb 2 t f v s

def execPisS (sb : BitVec 1) (t : BitVec 6) (f : BitVec 3) (v : BitVec 16) (s : State) : Out := pisWord sb 3 t f v s

/-! ### Completion counters (R145 to R147) -/

/-- The first faulted arrival of a list. -/
def oldestFault (as : List CcArrival) : Option (Nat × Nat) :=
  match findFirst (fun a => a.fault.isSome) as with
  | some a => a.fault
  | none => none

/-- A write of the command is held, or released and not performed. -/
def writesLeft (s : State) (id : Nat) : Bool :=
  let mine (e : Effect) : Bool := match e with | .store true _ _ _ _ c _ _ => decide (c = id) | _ => false
  s.core.held.any (fun h => mine h.eff) || s.core.out.any (fun o => mine o.eff)

/-- The thread's loads that follow this CWAIT see the writes of the commands whose arrivals it consumes (R242). -/
def noteConsumed (s : State) (ids : List Nat) : State :=
  bumpId { s with core := { s.core with
    consumed := (s.core.consumed ++ ids.map (fun id => (id, freshId s))).filter (fun p => writesLeft s p.1) } }

def execCwait (sb : BitVec 1) (p : BitVec 3) (k : BitVec 3) (n : BitVec 10) (s : State) : Out :=
  engWord sb p (fun h u =>
    let c := getCounter (getCtl u h.k) k.toNat
    if c.arrived.length < n.toNat then .stall true u
    else
      let taken := c.arrived.take n.toNat
      match oldestFault taken with
      | some (cause, bad) => .trap cause (w64 bad) u
      | none => .retire .seq false (noteConsumed (changeAt u h (.ccTake k.toNat n.toNat)) (taken.map (fun a => a.cmd)))) s

def execCdisc (sb : BitVec 1) (p : BitVec 3) (k : BitVec 3) (n : BitVec 10) (s : State) : Out :=
  engWord sb p (fun h u => .retire .seq false (changeAt u h (.ccDiscard k.toNat n.toNat))) s

/-- What CRD reads (R146). -/
def counterWord (c : Counter) : Word :=
  w64 (c.arrived.length % 2 ^ 16 + c.absorb % 2 ^ 16 * 2 ^ 16 + c.out % 2 ^ 16 * 2 ^ 32 +
    (if (oldestFault c.arrived).isSome then 2 ^ 48 else 0) + (if c.exc then 2 ^ 49 else 0) +
    ((oldestFault c.arrived).map (fun f => f.1 % 256)).getD 0 * 2 ^ 56)

def execCrd (sb : BitVec 1) (p : BitVec 3) (d : BitVec 5) (k : BitVec 3) (s : State) : Out :=
  engWord sb p (fun h u =>
    let c := getCounter (getCtl u h.k) k.toNat
    withWrites h [⟨.s d.toNat, row64 (counterWord c), 2⟩] u (fun x =>
      .retire .seq false (if c.exc then changeAt x h (.ccExcClr k.toNat) else x))) s

/-! ### Rings and publishing (R148 to R150) -/

/-- A command names the ring, or a follow-on it has not enqueued yet does. -/
def ringInUse (s : State) (k ring : Nat) : Bool :=
  s.core.cmds.any (fun m => decide (m.slot = k) && !m.retired &&
    (namesRing m.tmpl ring || (match m.follow with | some f => namesRing f ring | none => false)))

/-- The ring of a base and a configuration, where both are allowed (R148). -/
def ringConfig (y : Slot) (base cfg : Nat) : Option Ring :=
  let ls := bits cfg 0 5
  let lr := bits cfg 8 5
  let rows := bits cfg 32 20
  let known := bits cfg 5 3 = 0 ∧ bits cfg 13 19 = 0 ∧ bits cfg 52 12 = 0
  if known ∧ 7 ≤ ls ∧ ls ≤ 20 ∧ 6 ≤ lr ∧ lr ≤ ls ∧ rows ≤ 2 ^ ls / 2 ^ lr ∧ base % 2 ^ lr = 0 ∧
      inWindow y.thread base = true ∧ inWindow y.thread (base + (2 ^ ls - 1)) = true then
    some ⟨base, ls, lr, 0, rows⟩
  else none

/-- Tail advances still held belong to the ring as it was. -/
def retireTails (s : State) (k ring : Nat) : State :=
  { s with core := { s.core with held := s.core.held.map (fun x =>
    match x.eff with
    | .ringTail q n => if x.slot = k ∧ q = ring then { x with eff := .ringTail (ring + 16) n } else x
    | _ => x) } }

def execRngset (sb : BitVec 1) (p : BitVec 3) (k : BitVec 4) (a b : BitVec 5) (s : State) : Out :=
  engWord sb p (fun h u =>
    if ringInUse u h.k k.toNat then .stall false u
    else
      let base := visS (archAt u h) a
      match ringConfig (slotAt u h) base.toNat (visS (archAt u h) b).toNat with
      | none => .trap 0x0B base u
      | some g => .retire .seq false (changeAt (retireTails u h.k k.toNat) h (.ringSet k.toNat g))) s

def execRngrd (sb : BitVec 1) (p : BitVec 3) (d : BitVec 5) (k : BitVec 4) (s : State) : Out :=
  engWord sb p (fun h u =>
    let g := getRing (getCtl u h.k) k.toNat
    writeOne h (.s d.toNat) (row64 (w64 (g.head + g.tail * 2 ^ 32))) 2 u) s

def execPublish (sb : BitVec 1) (p : BitVec 3) (k : BitVec 4) (s : State) : Out :=
  engWord sb p (fun h u =>
    if (pubOf (slotAt u h) k.toNat).valid then .retire .seq false (hold u h.k (clauseAt u h) (.publish k.toNat))
    else .trap 0x0B (w64 (0x01000000 + k.toNat * 0x100000)) u) s

/-! ### Knot registers (R158, R159) -/

/-- The value KSET takes is allowed, and the bits that must be zero are. -/
def knotAllowed (k : Nat) (x : Word) : Bool :=
  let v := x.toNat % 2 ^ 32
  match k with
  | 0 => decide (bits v 23 8 ≠ 255)
  | 1 => decide (v % 2 ^ 23 = 0) && decide (1 ≤ v / 2 ^ 23) && decide (v / 2 ^ 23 ≤ 254)
  | 3 => decide (1 ≤ x.toNat) && decide (x.toNat ≤ 13)
  | 4 => decide (x.toNat ≤ 2)
  | _ => true

def execKset (sb : BitVec 1) (p : BitVec 3) (k : BitVec 3) (a : BitVec 5) (s : State) : Out :=
  engWord sb p (fun h u =>
    let x := visS (archAt u h) a
    if knotAllowed k.toNat x then .retire .seq false (changeAt u h (.knotSet k.toNat (x.setWidth 32))) else .trap 0x10 0 u) s

/-- Knot register `k`, zero-extended. -/
def knotRead (n : Knots) (k : Nat) : Word :=
  match k with
  | 0 => n.klo.setWidth 64
  | 1 => n.kstep.setWidth 64
  | 2 => n.kinv.setWidth 64
  | 3 => n.kg.setWidth 64
  | 4 => n.kmode.setWidth 64
  | _ => n.koog.setWidth 64

def execKrd (sb : BitVec 1) (p : BitVec 3) (d : BitVec 5) (k : BitVec 3) (s : State) : Out :=
  engWord sb p (fun h u => writeOne h (.s d.toNat) (row64 (knotRead u.core.ctl.knots k.toNat)) 2 u) s

/-! ### KATCMP (R169) -/

/-- A command that will write digest slot `k` is queued or executing. -/
def digestComing (s : State) (slot k : Nat) : Bool :=
  let names (t : BitVec 1024) : Bool := decide (tEng t = 2) && tKat t && decide (tKd t = k)
  s.core.cmds.any (fun m => decide (m.slot = slot) && !m.retired &&
    (names m.tmpl || (match m.follow with | some f => names f | none => false)))

def execKatcmp (sb : BitVec 1) (p : BitVec 3) (k : BitVec 3) (a : BitVec 5) (s : State) : Out :=
  engWord sb p (fun h u =>
    if digestComing u h.k k.toNat then .stall true u
    else
      let x := visS (archAt u h) a
      let d := mfind (getCtl u h.k).digests k.toNat
      if d = some x then .retire .seq false (changeAt u h (.digClr k.toNat))
      else .halt (silentError u h.k d x k.toNat)) s

end Sys2Proof.Machine
end

