-- ==== Sys2Proof/Machine/MemEvents.lean ====
section
/-! DEFINITION. Events of memory: walks that complete (R219), invalidations acknowledged or timed out (R232), publishes that
toggle (R229), stores and releases performed (R236, R315). An event whose cause is not there changes nothing. -/

namespace Sys2Proof.Machine

/-- A released item by its number. -/
def findItem (s : State) (n : Nat) : Option OutItem := findFirst (fun o => decide (o.id = n)) s.core.out

/-- A walk ends: the translation it finds is kept; one that finds none leaves nothing (R215, R219). -/
def execWalkComplete (n : Nat) (s : State) : Out :=
  match findFirst (fun w => decide (w.id = n)) s.pkg.walks with
  | none => .next s
  | some w =>
    let s1 : State := { s with pkg := { s.pkg with walks := s.pkg.walks.filter (fun x => decide (x.id ≠ n)) } }
    let c := getCtx s w.ctx
    .next (fillData s1 c (walk s c w.va))

/-! ### Invalidations (R232) -/

/-- Every access that translated through a removed entry has drained. -/
def drained (s : State) (v : Inval) : Bool :=
  let stores := v.stores ++ v.outs
  let live (k : Nat) : Bool := (getSlot s k).xfers.any (fun x => v.xfers.contains x.id && decide (mfind (getSlot s k).arrived x.id = none))
  !s.core.held.any (fun h => stores.contains h.id) && !s.core.out.any (fun o => stores.contains o.id) &&
    !live 0 && !live 1 && !s.core.cmds.any (fun m => v.cmds.contains m.id && !m.retired)

def execInvalidationAck (n : Nat) (s : State) : Out :=
  match findFirst (fun v => decide (v.id = n)) s.pkg.invals with
  | none => .next s
  | some v =>
    if drained s v then
      .next { s with pkg := { s.pkg with invals := s.pkg.invals.filter (fun x => decide (x.id ≠ n)) } }
    else .next s

/-- The slot has held a store for 65,536 cycles since an invalidation removed its translation. -/
def holdsTooLong (s : State) (k : Nat) : Bool :=
  s.pkg.invals.any (fun v => decide (v.reachedAt + 65536 ≤ s.now) &&
    s.core.held.any (fun h => decide (h.slot = k) && v.stores.contains h.id))

/-- The thread stops as PREEMPT stops it. -/
def execInvalidationHoldTimeout (slot : Nat) (s : State) : Out :=
  .next (if holdsTooLong s slot then preemptSlot s slot else s)

/-! ### Publishes (R229) -/

/-- A write of a command of the slot to DEV or HST, made before number `n`, is still held. -/
def cmdWriteHeld (s : State) (k n : Nat) : Bool :=
  s.core.held.any (fun h => decide (h.slot = k) && decide (h.id < n) &&
    (match h.eff with | .store true a _ _ _ cmd _ _ => decide (cmd ≠ 0) && (0b01100#5).getLsbD (scopeOf a) | _ => false))

def pubgReady (s : State) (o : OutItem) : Bool :=
  (match o.eff with | .pubg _ => true | _ => false) && !storesBefore s o 0b01100#5 && !cmdWriteHeld s o.slot o.id

def execPubgToggle (n : Nat) (s : State) : Out :=
  match findItem s n with
  | none => .next s
  | some o =>
    if pubgReady s o then
      match o.eff with
      | .pubg k => .next (settle (dropItem (setCtx s o.ctx (togglePubmap (getCtx s o.ctx) k)) n))
      | _ => .next s
    else .next s

/-! ### Stores (R236, R315) -/

/-- The item is an STL. -/
def isRelease (o : OutItem) : Bool :=
  match o.eff with
  | .store _ _ _ _ rel _ _ _ => rel
  | _ => false

/-- Perform a store of a kind that may be performed. -/
def performIf (rel : Bool) (n : Nat) (s : State) : Out :=
  match findItem s n with
  | none => .next s
  | some o => if isRelease o = rel ∧ mayPerform s o = true then .next (settle (performItem s o)) else .next s

def execStorePerformed (n : Nat) (s : State) : Out := performIf false n s

def execReleasePerformed (n : Nat) (s : State) : Out := performIf true n s

end Sys2Proof.Machine
end

