-- ==== Sys2Proof/Machine/Scalar.lean ====
section
/-! DEFINITION. Scalar and predicate words: upper immediates (R50), immediate arithmetic (R52 to R54), register arithmetic
(R55), predicate compares and logic (R56). Each writes one register with the latency of Table 4.1. -/

namespace Sys2Proof.Machine

/-- A word that writes scalar `d`, latency `lat`, with a value of its operands. -/
def scalarWord (sb : BitVec 1) (p : BitVec 3) (d : BitVec 5) (lat : Nat) (f : VoiceArch → Word) (s : State) : Out :=
  word sb p .all (fun h t => writeOne h (.s d.toNat) (row64 (f (archAt t h))) lat t) s

/-- A word that writes predicate `d`, latency 1. -/
def predWord (sb : BitVec 1) (p d : BitVec 3) (f : VoiceArch → Bool) (s : State) : Out :=
  word sb p .all (fun h t => writeOne h (.p d.toNat) (row1 (f (archAt t h))) 1 t) s

/-- imm20 as the upper 20 bits of a sign-extended 32-bit value (R33). -/
def upperImm (imm : BitVec 20) : Word := (imm ++ 0#12).signExtend 64

/-- A format U word, which has no predicate (R50). -/
def upperWord (sb : BitVec 1) (d : BitVec 5) (f : Here → Word) (s : State) : Out :=
  issue sb 0 .all false noIll alwaysLive (fun h t => writeOne h (.s d.toNat) (row64 (f h)) 1 t) s

def execLui (sb : BitVec 1) (d : BitVec 5) (imm : BitVec 20) (s : State) : Out :=
  upperWord sb d (fun _ => upperImm imm) s

def execLapc (sb : BitVec 1) (d : BitVec 5) (imm : BitVec 20) (s : State) : Out :=
  upperWord sb d (fun h => h.addr.setWidth 64 + upperImm imm) s

def execAddi (sb : BitVec 1) (p : BitVec 3) (d a : BitVec 5) (imm : BitVec 12) (s : State) : Out :=
  scalarWord sb p d 1 (fun r => visS r a + imm.signExtend 64) s

def execAndi (sb : BitVec 1) (p : BitVec 3) (d a : BitVec 5) (imm : BitVec 12) (s : State) : Out :=
  scalarWord sb p d 1 (fun r => visS r a &&& imm.signExtend 64) s

def execOri (sb : BitVec 1) (p : BitVec 3) (d a : BitVec 5) (imm : BitVec 12) (s : State) : Out :=
  scalarWord sb p d 1 (fun r => visS r a ||| imm.signExtend 64) s

def execXori (sb : BitVec 1) (p : BitVec 3) (d a : BitVec 5) (imm : BitVec 12) (s : State) : Out :=
  scalarWord sb p d 1 (fun r => visS r a ^^^ imm.signExtend 64) s

def execShli (sb : BitVec 1) (p : BitVec 3) (d a : BitVec 5) (n : BitVec 6) (s : State) : Out :=
  scalarWord sb p d 1 (fun r => visS r a <<< n.toNat) s

def execShri (sb : BitVec 1) (p : BitVec 3) (d a : BitVec 5) (n : BitVec 6) (s : State) : Out :=
  scalarWord sb p d 1 (fun r => visS r a >>> n.toNat) s

def execSrai (sb : BitVec 1) (p : BitVec 3) (d a : BitVec 5) (n : BitVec 6) (s : State) : Out :=
  scalarWord sb p d 1 (fun r => (visS r a).sshiftRight n.toNat) s

def execRoli (sb : BitVec 1) (p : BitVec 3) (d a : BitVec 5) (n : BitVec 6) (s : State) : Out :=
  scalarWord sb p d 1 (fun r => (visS r a).rotateLeft n.toNat) s

def execCmpeqi (sb : BitVec 1) (p d : BitVec 3) (a : BitVec 5) (imm : BitVec 10) (s : State) : Out :=
  predWord sb p d (fun r => decide (visS r a = imm.signExtend 64)) s

def execCmplti (sb : BitVec 1) (p d : BitVec 3) (a : BitVec 5) (imm : BitVec 10) (s : State) : Out :=
  predWord sb p d (fun r => (visS r a).slt (imm.signExtend 64)) s

def execCmpltni (sb : BitVec 1) (p d : BitVec 3) (a : BitVec 5) (imm : BitVec 10) (s : State) : Out :=
  predWord sb p d (fun r => (visS r a).ult (imm.signExtend 64)) s

/-! ### Register arithmetic (Table 4.5) -/

/-- The shift amount n = b[5:0]. -/
def shiftBy (b : Word) : Nat := b.toNat % 64

def execAdd (sb : BitVec 1) (p : BitVec 3) (d a b : BitVec 5) (s : State) : Out :=
  scalarWord sb p d 1 (fun r => visS r a + visS r b) s

def execSub (sb : BitVec 1) (p : BitVec 3) (d a b : BitVec 5) (s : State) : Out :=
  scalarWord sb p d 1 (fun r => visS r a - visS r b) s

def execAnd (sb : BitVec 1) (p : BitVec 3) (d a b : BitVec 5) (s : State) : Out :=
  scalarWord sb p d 1 (fun r => visS r a &&& visS r b) s

def execOr (sb : BitVec 1) (p : BitVec 3) (d a b : BitVec 5) (s : State) : Out :=
  scalarWord sb p d 1 (fun r => visS r a ||| visS r b) s

def execXor (sb : BitVec 1) (p : BitVec 3) (d a b : BitVec 5) (s : State) : Out :=
  scalarWord sb p d 1 (fun r => visS r a ^^^ visS r b) s

def execAndn (sb : BitVec 1) (p : BitVec 3) (d a b : BitVec 5) (s : State) : Out :=
  scalarWord sb p d 1 (fun r => visS r a &&& ~~~(visS r b)) s

def execShl (sb : BitVec 1) (p : BitVec 3) (d a b : BitVec 5) (s : State) : Out :=
  scalarWord sb p d 1 (fun r => visS r a <<< shiftBy (visS r b)) s

def execShr (sb : BitVec 1) (p : BitVec 3) (d a b : BitVec 5) (s : State) : Out :=
  scalarWord sb p d 1 (fun r => visS r a >>> shiftBy (visS r b)) s

def execSra (sb : BitVec 1) (p : BitVec 3) (d a b : BitVec 5) (s : State) : Out :=
  scalarWord sb p d 1 (fun r => (visS r a).sshiftRight (shiftBy (visS r b))) s

def execRol (sb : BitVec 1) (p : BitVec 3) (d a b : BitVec 5) (s : State) : Out :=
  scalarWord sb p d 1 (fun r => (visS r a).rotateLeft (shiftBy (visS r b))) s

def execMin (sb : BitVec 1) (p : BitVec 3) (d a b : BitVec 5) (s : State) : Out :=
  scalarWord sb p d 1 (fun r => if (visS r a).slt (visS r b) then visS r a else visS r b) s

def execMax (sb : BitVec 1) (p : BitVec 3) (d a b : BitVec 5) (s : State) : Out :=
  scalarWord sb p d 1 (fun r => if (visS r a).slt (visS r b) then visS r b else visS r a) s

def execMinn (sb : BitVec 1) (p : BitVec 3) (d a b : BitVec 5) (s : State) : Out :=
  scalarWord sb p d 1 (fun r => if (visS r a).ult (visS r b) then visS r a else visS r b) s

def execMaxn (sb : BitVec 1) (p : BitVec 3) (d a b : BitVec 5) (s : State) : Out :=
  scalarWord sb p d 1 (fun r => if (visS r a).ult (visS r b) then visS r b else visS r a) s

def execMul (sb : BitVec 1) (p : BitVec 3) (d a b : BitVec 5) (s : State) : Out :=
  scalarWord sb p d 3 (fun r => visS r a * visS r b) s

/-- Bits [127:64] of the signed product. -/
def mulHigh (x y : Word) : Word := BitVec.ofInt 64 (x.toInt * y.toInt / 2 ^ 64)

/-- Bits [127:64] of the unsigned product. -/
def mulHighN (x y : Word) : Word := BitVec.ofNat 64 (x.toNat * y.toNat / 2 ^ 64)

def execMulh (sb : BitVec 1) (p : BitVec 3) (d a b : BitVec 5) (s : State) : Out :=
  scalarWord sb p d 3 (fun r => mulHigh (visS r a) (visS r b)) s

def execMulhn (sb : BitVec 1) (p : BitVec 3) (d a b : BitVec 5) (s : State) : Out :=
  scalarWord sb p d 3 (fun r => mulHighN (visS r a) (visS r b)) s

/-- Leading zero bits of a value, 0 to 64. -/
def leadingZeros (x : Word) : Nat := if x = 0 then 64 else 63 - Nat.log2 x.toNat

/-- Number of one bits. -/
def oneBits (x : Word) : Nat := ((List.range 64).filter (fun i => x.getLsbD i)).length

def execClz (sb : BitVec 1) (p : BitVec 3) (d a : BitVec 5) (s : State) : Out :=
  scalarWord sb p d 1 (fun r => w64 (leadingZeros (visS r a))) s

def execPopc (sb : BitVec 1) (p : BitVec 3) (d a : BitVec 5) (s : State) : Out :=
  scalarWord sb p d 1 (fun r => w64 (oneBits (visS r a))) s

/-- The width w of SEXT and ZEXT in bits: 8, 16 or 32. -/
def extWidth (w : BitVec 2) : Nat := 8 * 2 ^ w.toNat

def execSext (sb : BitVec 1) (p : BitVec 3) (d a : BitVec 5) (w : BitVec 2) (s : State) : Out :=
  scalarWord sb p d 1 (fun r => ((visS r a).setWidth (extWidth w)).signExtend 64) s

def execZext (sb : BitVec 1) (p : BitVec 3) (d a : BitVec 5) (w : BitVec 2) (s : State) : Out :=
  scalarWord sb p d 1 (fun r => ((visS r a).setWidth (extWidth w)).setWidth 64) s

/-- SEL: its p field is the selector and not a predicate, so it always writes (R55). -/
def execSel (sb : BitVec 1) (k : BitVec 3) (d a b : BitVec 5) (s : State) : Out :=
  issue sb 0 .all false noIll alwaysLive (fun h t =>
    writeOne h (.s d.toNat) (row64 (if visP (archAt t h) k then visS (archAt t h) a else visS (archAt t h) b)) 1 t) s

/-! ### Predicate compares and logic (Table 4.6) -/

def execCmpeq (sb : BitVec 1) (p d : BitVec 3) (a b : BitVec 5) (s : State) : Out :=
  predWord sb p d (fun r => decide (visS r a = visS r b)) s

def execCmpne (sb : BitVec 1) (p d : BitVec 3) (a b : BitVec 5) (s : State) : Out :=
  predWord sb p d (fun r => decide (visS r a ≠ visS r b)) s

def execCmplt (sb : BitVec 1) (p d : BitVec 3) (a b : BitVec 5) (s : State) : Out :=
  predWord sb p d (fun r => (visS r a).slt (visS r b)) s

def execCmple (sb : BitVec 1) (p d : BitVec 3) (a b : BitVec 5) (s : State) : Out :=
  predWord sb p d (fun r => (visS r a).sle (visS r b)) s

def execCmpltn (sb : BitVec 1) (p d : BitVec 3) (a b : BitVec 5) (s : State) : Out :=
  predWord sb p d (fun r => (visS r a).ult (visS r b)) s

def execCmplen (sb : BitVec 1) (p d : BitVec 3) (a b : BitVec 5) (s : State) : Out :=
  predWord sb p d (fun r => (visS r a).ule (visS r b)) s

def execPand (sb : BitVec 1) (p d a b : BitVec 3) (s : State) : Out :=
  predWord sb p d (fun r => visP r a && visP r b) s

def execPor (sb : BitVec 1) (p d a b : BitVec 3) (s : State) : Out :=
  predWord sb p d (fun r => visP r a || visP r b) s

def execPxor (sb : BitVec 1) (p d a b : BitVec 3) (s : State) : Out :=
  predWord sb p d (fun r => visP r a ^^ visP r b) s

def execPnot (sb : BitVec 1) (p d a : BitVec 3) (s : State) : Out :=
  predWord sb p d (fun r => !visP r a) s

end Sys2Proof.Machine
end

