-- ==== Sys2Proof/Machine/Dispatch.lean ====
section
/-! DEFINITION. The dispatch: each instruction to its one meaning. -/

namespace Sys2Proof.Machine

def exec (i : Instr) (s : State) : Host.Outcome State Fault Refusal :=
  match i with
  | .lui sb d imm => Sys2Proof.Machine.execLui sb d imm s
  | .lapc sb d imm => Sys2Proof.Machine.execLapc sb d imm s
  | .addi sb p d a imm => Sys2Proof.Machine.execAddi sb p d a imm s
  | .andi sb p d a imm => Sys2Proof.Machine.execAndi sb p d a imm s
  | .ori sb p d a imm => Sys2Proof.Machine.execOri sb p d a imm s
  | .xori sb p d a imm => Sys2Proof.Machine.execXori sb p d a imm s
  | .shli sb p d a n => Sys2Proof.Machine.execShli sb p d a n s
  | .shri sb p d a n => Sys2Proof.Machine.execShri sb p d a n s
  | .srai sb p d a n => Sys2Proof.Machine.execSrai sb p d a n s
  | .roli sb p d a n => Sys2Proof.Machine.execRoli sb p d a n s
  | .cmpeqi sb p d a imm => Sys2Proof.Machine.execCmpeqi sb p d a imm s
  | .cmplti sb p d a imm => Sys2Proof.Machine.execCmplti sb p d a imm s
  | .cmpltni sb p d a imm => Sys2Proof.Machine.execCmpltni sb p d a imm s
  | .add sb p d a b => Sys2Proof.Machine.execAdd sb p d a b s
  | .sub sb p d a b => Sys2Proof.Machine.execSub sb p d a b s
  | .and sb p d a b => Sys2Proof.Machine.execAnd sb p d a b s
  | .or sb p d a b => Sys2Proof.Machine.execOr sb p d a b s
  | .xor sb p d a b => Sys2Proof.Machine.execXor sb p d a b s
  | .andn sb p d a b => Sys2Proof.Machine.execAndn sb p d a b s
  | .shl sb p d a b => Sys2Proof.Machine.execShl sb p d a b s
  | .shr sb p d a b => Sys2Proof.Machine.execShr sb p d a b s
  | .sra sb p d a b => Sys2Proof.Machine.execSra sb p d a b s
  | .rol sb p d a b => Sys2Proof.Machine.execRol sb p d a b s
  | .min sb p d a b => Sys2Proof.Machine.execMin sb p d a b s
  | .max sb p d a b => Sys2Proof.Machine.execMax sb p d a b s
  | .minn sb p d a b => Sys2Proof.Machine.execMinn sb p d a b s
  | .maxn sb p d a b => Sys2Proof.Machine.execMaxn sb p d a b s
  | .mul sb p d a b => Sys2Proof.Machine.execMul sb p d a b s
  | .mulh sb p d a b => Sys2Proof.Machine.execMulh sb p d a b s
  | .mulhn sb p d a b => Sys2Proof.Machine.execMulhn sb p d a b s
  | .clz sb p d a => Sys2Proof.Machine.execClz sb p d a s
  | .popc sb p d a => Sys2Proof.Machine.execPopc sb p d a s
  | .sext sb p d a w => Sys2Proof.Machine.execSext sb p d a w s
  | .zext sb p d a w => Sys2Proof.Machine.execZext sb p d a w s
  | .sel sb k d a b => Sys2Proof.Machine.execSel sb k d a b s
  | .cmpeq sb p d a b => Sys2Proof.Machine.execCmpeq sb p d a b s
  | .cmpne sb p d a b => Sys2Proof.Machine.execCmpne sb p d a b s
  | .cmplt sb p d a b => Sys2Proof.Machine.execCmplt sb p d a b s
  | .cmple sb p d a b => Sys2Proof.Machine.execCmple sb p d a b s
  | .cmpltn sb p d a b => Sys2Proof.Machine.execCmpltn sb p d a b s
  | .cmplen sb p d a b => Sys2Proof.Machine.execCmplen sb p d a b s
  | .pand sb p d a b => Sys2Proof.Machine.execPand sb p d a b s
  | .por sb p d a b => Sys2Proof.Machine.execPor sb p d a b s
  | .pxor sb p d a b => Sys2Proof.Machine.execPxor sb p d a b s
  | .pnot sb p d a => Sys2Proof.Machine.execPnot sb p d a s
  | .br sb p imm => Sys2Proof.Machine.execBr sb p imm s
  | .brn sb p imm => Sys2Proof.Machine.execBrn sb p imm s
  | .brt sb p imm => Sys2Proof.Machine.execBrt sb p imm s
  | .call sb p imm => Sys2Proof.Machine.execCall sb p imm s
  | .jr sb p a imm => Sys2Proof.Machine.execJr sb p a imm s
  | .jtb sb p d a l => Sys2Proof.Machine.execJtb sb p d a l s
  | .loop sb p a imm => Sys2Proof.Machine.execLoop sb p a imm s
  | .flip sb p => Sys2Proof.Machine.execFlip sb p s
  | .rdh sb p d a b => Sys2Proof.Machine.execRdh sb p d a b s
  | .spost sb p v k => Sys2Proof.Machine.execSpost sb p v k s
  | .swait sb p k => Sys2Proof.Machine.execSwait sb p k s
  | .bqput sb p v k => Sys2Proof.Machine.execBqput sb p v k s
  | .nop sb p => Sys2Proof.Machine.execNop sb p s
  | .exit sb p => Sys2Proof.Machine.execExit sb p s
  | .bqbr sb imm => Sys2Proof.Machine.execBqbr sb imm s
  | .bqbrn sb imm => Sys2Proof.Machine.execBqbrn sb imm s
  | .bqbrt sb imm => Sys2Proof.Machine.execBqbrt sb imm s
  | .trap sb p c => Sys2Proof.Machine.execTrap sb p c s
  | .eret sb p => Sys2Proof.Machine.execEret sb p s
  | .srd sb p d n => Sys2Proof.Machine.execSrd sb p d n s
  | .swr sb p d n => Sys2Proof.Machine.execSwr sb p d n s
  | .brk sb x => Sys2Proof.Machine.execBrk sb x s
  | .lds sb p d b z o imm => Sys2Proof.Machine.execLds sb p d b z o imm s
  | .sts sb p d b z o imm => Sys2Proof.Machine.execSts sb p d b z o imm s
  | .ldq sb p q b o imm => Sys2Proof.Machine.execLdq sb p q b o imm s
  | .stq sb p q b o imm => Sys2Proof.Machine.execStq sb p q b o imm s
  | .qpush sb p k a => Sys2Proof.Machine.execQpush sb p k a s
  | .qpushSq sb p k j => Sys2Proof.Machine.execQpushSq sb p k j s
  | .sbind sb p k a q => Sys2Proof.Machine.execSbind sb p k a q s
  | .sunbind sb p k => Sys2Proof.Machine.execSunbind sb p k s
  | .spos sb p d k => Sys2Proof.Machine.execSpos sb p d k s
  | .lbqry sb p d k => Sys2Proof.Machine.execLbqry sb p d k s
  | .commit sb p d k => Sys2Proof.Machine.execCommit sb p d k s
  | .vaddI32 sb c m d a b q => Sys2Proof.Machine.execVaddI32 sb c m d a b q s
  | .vsubI32 sb c m d a b q => Sys2Proof.Machine.execVsubI32 sb c m d a b q s
  | .vmulI32 sb c m d a b q => Sys2Proof.Machine.execVmulI32 sb c m d a b q s
  | .vmulhI32 sb c m d a b q => Sys2Proof.Machine.execVmulhI32 sb c m d a b q s
  | .vmulhnI32 sb c m d a b q => Sys2Proof.Machine.execVmulhnI32 sb c m d a b q s
  | .vminI32 sb c m d a b q => Sys2Proof.Machine.execVminI32 sb c m d a b q s
  | .vmaxI32 sb c m d a b q => Sys2Proof.Machine.execVmaxI32 sb c m d a b q s
  | .vminnI32 sb c m d a b q => Sys2Proof.Machine.execVminnI32 sb c m d a b q s
  | .vmaxnI32 sb c m d a b q => Sys2Proof.Machine.execVmaxnI32 sb c m d a b q s
  | .vandI32 sb c m d a b q => Sys2Proof.Machine.execVandI32 sb c m d a b q s
  | .vorI32 sb c m d a b q => Sys2Proof.Machine.execVorI32 sb c m d a b q s
  | .vxorI32 sb c m d a b q => Sys2Proof.Machine.execVxorI32 sb c m d a b q s
  | .vshlI32 sb c m d a b q => Sys2Proof.Machine.execVshlI32 sb c m d a b q s
  | .vshrI32 sb c m d a b q => Sys2Proof.Machine.execVshrI32 sb c m d a b q s
  | .vsraI32 sb c m d a b q => Sys2Proof.Machine.execVsraI32 sb c m d a b q s
  | .vcmpeqI32 sb c m d a b q => Sys2Proof.Machine.execVcmpeqI32 sb c m d a b q s
  | .vcmpltI32 sb c m d a b q => Sys2Proof.Machine.execVcmpltI32 sb c m d a b q s
  | .vcmpltnI32 sb c m d a b q => Sys2Proof.Machine.execVcmpltnI32 sb c m d a b q s
  | .vsel sb c m d a b q => Sys2Proof.Machine.execVsel sb c m d a b q s
  | .vaddF32 sb c m d a b q => Sys2Proof.Machine.execVaddF32 sb c m d a b q s
  | .vsubF32 sb c m d a b q => Sys2Proof.Machine.execVsubF32 sb c m d a b q s
  | .vmulF32 sb c m d a b q => Sys2Proof.Machine.execVmulF32 sb c m d a b q s
  | .vminF32 sb c m d a b q => Sys2Proof.Machine.execVminF32 sb c m d a b q s
  | .vmaxF32 sb c m d a b q => Sys2Proof.Machine.execVmaxF32 sb c m d a b q s
  | .vabsF32 sb c m d a q => Sys2Proof.Machine.execVabsF32 sb c m d a q s
  | .vnegF32 sb c m d a q => Sys2Proof.Machine.execVnegF32 sb c m d a q s
  | .vcmpeqF32 sb c m d a b q => Sys2Proof.Machine.execVcmpeqF32 sb c m d a b q s
  | .vcmpltF32 sb c m d a b q => Sys2Proof.Machine.execVcmpltF32 sb c m d a b q s
  | .vcmpleF32 sb c m d a b q => Sys2Proof.Machine.execVcmpleF32 sb c m d a b q s
  | .vaddF16 sb c m d a b q => Sys2Proof.Machine.execVaddF16 sb c m d a b q s
  | .vsubF16 sb c m d a b q => Sys2Proof.Machine.execVsubF16 sb c m d a b q s
  | .vmulF16 sb c m d a b q => Sys2Proof.Machine.execVmulF16 sb c m d a b q s
  | .vminF16 sb c m d a b q => Sys2Proof.Machine.execVminF16 sb c m d a b q s
  | .vmaxF16 sb c m d a b q => Sys2Proof.Machine.execVmaxF16 sb c m d a b q s
  | .vabsF16 sb c m d a q => Sys2Proof.Machine.execVabsF16 sb c m d a q s
  | .vnegF16 sb c m d a q => Sys2Proof.Machine.execVnegF16 sb c m d a q s
  | .vcmpeqF16 sb c m d a b q => Sys2Proof.Machine.execVcmpeqF16 sb c m d a b q s
  | .vcmpltF16 sb c m d a b q => Sys2Proof.Machine.execVcmpltF16 sb c m d a b q s
  | .vcmpleF16 sb c m d a b q => Sys2Proof.Machine.execVcmpleF16 sb c m d a b q s
  | .vaddBf16 sb c m d a b q => Sys2Proof.Machine.execVaddBf16 sb c m d a b q s
  | .vsubBf16 sb c m d a b q => Sys2Proof.Machine.execVsubBf16 sb c m d a b q s
  | .vmulBf16 sb c m d a b q => Sys2Proof.Machine.execVmulBf16 sb c m d a b q s
  | .vminBf16 sb c m d a b q => Sys2Proof.Machine.execVminBf16 sb c m d a b q s
  | .vmaxBf16 sb c m d a b q => Sys2Proof.Machine.execVmaxBf16 sb c m d a b q s
  | .vabsBf16 sb c m d a q => Sys2Proof.Machine.execVabsBf16 sb c m d a q s
  | .vnegBf16 sb c m d a q => Sys2Proof.Machine.execVnegBf16 sb c m d a q s
  | .vcmpeqBf16 sb c m d a b q => Sys2Proof.Machine.execVcmpeqBf16 sb c m d a b q s
  | .vcmpltBf16 sb c m d a b q => Sys2Proof.Machine.execVcmpltBf16 sb c m d a b q s
  | .vcmpleBf16 sb c m d a b q => Sys2Proof.Machine.execVcmpleBf16 sb c m d a b q s
  | .vfmaF32 sb c m d a b e q => Sys2Proof.Machine.execVfmaF32 sb c m d a b e q s
  | .vfmsF32 sb c m d a b e q => Sys2Proof.Machine.execVfmsF32 sb c m d a b e q s
  | .vfmaBf16 sb c m d a b e q => Sys2Proof.Machine.execVfmaBf16 sb c m d a b e q s
  | .vfmaF16 sb c m d a b e q => Sys2Proof.Machine.execVfmaF16 sb c m d a b e q s
  | .vcvtF32I32 sb c m d a r q => Sys2Proof.Machine.execVcvtF32I32 sb c m d a r q s
  | .vcvtI32F32 sb c m d a r q => Sys2Proof.Machine.execVcvtI32F32 sb c m d a r q s
  | .vcvtF32F16 sb c m d a x q => Sys2Proof.Machine.execVcvtF32F16 sb c m d a x q s
  | .vcvtF32Bf16 sb c m d a x q => Sys2Proof.Machine.execVcvtF32Bf16 sb c m d a x q s
  | .vcvtF16F32 sb c m d a x r q => Sys2Proof.Machine.execVcvtF16F32 sb c m d a x r q s
  | .vcvtBf16F32 sb c m d a x r q => Sys2Proof.Machine.execVcvtBf16F32 sb c m d a x r q s
  | .vcvtF32E4m3 sb c m d a x q => Sys2Proof.Machine.execVcvtF32E4m3 sb c m d a x q s
  | .vcvtF32E5m2 sb c m d a x q => Sys2Proof.Machine.execVcvtF32E5m2 sb c m d a x q s
  | .vcvtE4m3F32 sb c m d a x r q => Sys2Proof.Machine.execVcvtE4m3F32 sb c m d a x r q s
  | .vcvtE5m2F32 sb c m d a x r q => Sys2Proof.Machine.execVcvtE5m2F32 sb c m d a x r q s
  | .vpackB4 sb c m d a x q => Sys2Proof.Machine.execVpackB4 sb c m d a x q s
  | .vunpackB4 sb c m d a x q => Sys2Proof.Machine.execVunpackB4 sb c m d a x q s
  | .vperm sb c m d a b q => Sys2Proof.Machine.execVperm sb c m d a b q s
  | .vrot sb c m d a b q => Sys2Proof.Machine.execVrot sb c m d a b q s
  | .vbcast sb c m d a q => Sys2Proof.Machine.execVbcast sb c m d a q s
  | .vredadd sb c m d a q => Sys2Proof.Machine.execVredadd sb c m d a q s
  | .vredmax sb c m d a q => Sys2Proof.Machine.execVredmax sb c m d a q s
  | .viredadd sb c m d a q => Sys2Proof.Machine.execViredadd sb c m d a q s
  | .vbspl sb c m d a j q => Sys2Proof.Machine.execVbspl sb c m d a j q s
  | .patC sb t f v => Sys2Proof.Machine.execPatC sb t f v s
  | .pisC sb t f v => Sys2Proof.Machine.execPisC sb t f v s
  | .patA sb t f v => Sys2Proof.Machine.execPatA sb t f v s
  | .pisA sb t f v => Sys2Proof.Machine.execPisA sb t f v s
  | .patS sb t f v => Sys2Proof.Machine.execPatS sb t f v s
  | .pisS sb t f v => Sys2Proof.Machine.execPisS sb t f v s
  | .tplC sb p t a tlo => Sys2Proof.Machine.execTplC sb p t a tlo s
  | .tplA sb p t a tlo => Sys2Proof.Machine.execTplA sb p t a tlo s
  | .tplS sb p t a tlo => Sys2Proof.Machine.execTplS sb p t a tlo s
  | .cwait sb p k n => Sys2Proof.Machine.execCwait sb p k n s
  | .cdisc sb p k n => Sys2Proof.Machine.execCdisc sb p k n s
  | .crd sb p d k => Sys2Proof.Machine.execCrd sb p d k s
  | .rngset sb p k a b => Sys2Proof.Machine.execRngset sb p k a b s
  | .rngrd sb p d k => Sys2Proof.Machine.execRngrd sb p d k s
  | .publish sb p k => Sys2Proof.Machine.execPublish sb p k s
  | .kset sb p k a => Sys2Proof.Machine.execKset sb p k a s
  | .krd sb p d k => Sys2Proof.Machine.execKrd sb p d k s
  | .katcmp sb p k a => Sys2Proof.Machine.execKatcmp sb p k a s
  | .join sb p d a => Sys2Proof.Machine.execJoin sb p d a s
  | .leave sb p d a => Sys2Proof.Machine.execLeave sb p d a s
  | .grpq sb p d a => Sys2Proof.Machine.execGrpq sb p d a s
  | .barr sb p d a b => Sys2Proof.Machine.execBarr sb p d a b s
  | .bwait sb p d a b => Sys2Proof.Machine.execBwait sb p d a b s
  | .barw sb p d a b => Sys2Proof.Machine.execBarw sb p d a b s
  | .finc sb p d a b => Sys2Proof.Machine.execFinc sb p d a b s
  | .fwait sb p d a b => Sys2Proof.Machine.execFwait sb p d a b s
  | .frd sb p d a => Sys2Proof.Machine.execFrd sb p d a s
  | .fset sb p d a b => Sys2Proof.Machine.execFset sb p d a b s
  | .launch sb p d a => Sys2Proof.Machine.execLaunch sb p d a s
  | .launchn sb p d a => Sys2Proof.Machine.execLaunchn sb p d a s
  | .evset sb p a b => Sys2Proof.Machine.execEvset sb p a b s
  | .evclr sb p a b => Sys2Proof.Machine.execEvclr sb p a b s
  | .evwait sb p d a b => Sys2Proof.Machine.execEvwait sb p d a b s
  | .enq sb p d a => Sys2Proof.Machine.execEnq sb p d a s
  | .deq sb p d k => Sys2Proof.Machine.execDeq sb p d k s
  | .yield sb p => Sys2Proof.Machine.execYield sb p s
  | .taskinfo sb p d k => Sys2Proof.Machine.execTaskinfo sb p d k s
  | .ldg sb p k b z o imm => Sys2Proof.Machine.execLdg sb p k b z o imm s
  | .stg sb p d b z o imm => Sys2Proof.Machine.execStg sb p d b z o imm s
  | .lda sb p k b z o imm => Sys2Proof.Machine.execLda sb p k b z o imm s
  | .stl sb p d b z o imm => Sys2Proof.Machine.execStl sb p d b z o imm s
  | .ldgq sb p q b o imm => Sys2Proof.Machine.execLdgq sb p q b o imm s
  | .stgq sb p q b o imm => Sys2Proof.Machine.execStgq sb p q b o imm s
  | .pfg sb p b o imm => Sys2Proof.Machine.execPfg sb p b o imm s
  | .fence sb p d a b => Sys2Proof.Machine.execFence sb p d a b s
  | .pubg sb p a => Sys2Proof.Machine.execPubg sb p a s
  | .tlbinv sb p a b => Sys2Proof.Machine.execTlbinv sb p a b s
  | .tlbsync sb p d => Sys2Proof.Machine.execTlbsync sb p d s
  | .caprd sb p d a => Sys2Proof.Machine.execCaprd sb p d a s
  | .ctxsave sb p d a b => Sys2Proof.Machine.execCtxsave sb p d a b s
  | .ctxrst sb p d a b => Sys2Proof.Machine.execCtxrst sb p d a b s
  | .sealw sb p => Sys2Proof.Machine.execSealw sb p s
  | .hostsig sb p a => Sys2Proof.Machine.execHostsig sb p a s
  | .nwr sb p w a b => Sys2Proof.Machine.execNwr sb p w a b s
  | .nrd sb p v k a w => Sys2Proof.Machine.execNrd sb p v k a w s
  | .nred sb p d a b => Sys2Proof.Machine.execNred sb p d a b s
  | .nbar sb p d a => Sys2Proof.Machine.execNbar sb p d a s
  | .memb sb p d => Sys2Proof.Machine.execMemb sb p d s
  | .gsw sb p d a => Sys2Proof.Machine.execGsw sb p d a s
  | .pendingResultLand slot v idx => Sys2Proof.Machine.execPendingResultLand slot v idx s
  | .queueEntryFill slot q idx => Sys2Proof.Machine.execQueueEntryFill slot q idx s
  | .landingArrival slot v lb => Sys2Proof.Machine.execLandingArrival slot v lb s
  | .streamService slot st => Sys2Proof.Machine.execStreamService slot st s
  | .slotYield => Sys2Proof.Machine.execSlotYield s
  | .clauseSeal slot id => Sys2Proof.Machine.execClauseSeal slot id s
  | .barrierWaitEnd slot => Sys2Proof.Machine.execBarrierWaitEnd slot s
  | .copy cmd => Sys2Proof.Machine.execCopy cmd s
  | .copyf cmd => Sys2Proof.Machine.execCopyf cmd s
  | .copyfFollowOn cmd => Sys2Proof.Machine.execCopyfFollowOn cmd s
  | .arrLoadb cmd => Sys2Proof.Machine.execArrLoadb cmd s
  | .arrMm cmd => Sys2Proof.Machine.execArrMm cmd s
  | .arrSpl cmd => Sys2Proof.Machine.execArrSpl cmd s
  | .arrGrad cmd => Sys2Proof.Machine.execArrGrad cmd s
  | .arrRefine cmd => Sys2Proof.Machine.execArrRefine cmd s
  | .arrDrain cmd => Sys2Proof.Machine.execArrDrain cmd s
  | .arrRowout cmd => Sys2Proof.Machine.execArrRowout cmd s
  | .scatAdd cmd => Sys2Proof.Machine.execScatAdd cmd s
  | .scatMax cmd => Sys2Proof.Machine.execScatMax cmd s
  | .scatterWindow cmd => Sys2Proof.Machine.execScatterWindow cmd s
  | .commandRetire cmd => Sys2Proof.Machine.execCommandRetire cmd s
  | .trapEntry slot => Sys2Proof.Machine.execTrapEntry slot s
  | .signal slot => Sys2Proof.Machine.execSignal slot s
  | .preempt => Sys2Proof.Machine.execPreempt s
  | .coreImageSave => Sys2Proof.Machine.execCoreImageSave s
  | .threadEnd slot => Sys2Proof.Machine.execThreadEnd slot s
  | .strikeReport region => Sys2Proof.Machine.execStrikeReport region s
  | .rollbackRestart => Sys2Proof.Machine.execRollbackRestart s
  | .timeSliceEnd slot => Sys2Proof.Machine.execTimeSliceEnd slot s
  | .taskPlace idx slot => Sys2Proof.Machine.execTaskPlace idx slot s
  | .pipelineSpill pipe => Sys2Proof.Machine.execPipelineSpill pipe s
  | .stealRequest peer => Sys2Proof.Machine.execStealRequest peer s
  | .stealAcknowledge seq => Sys2Proof.Machine.execStealAcknowledge seq s
  | .stealConfirm peer seq => Sys2Proof.Machine.execStealConfirm peer seq s
  | .stealTimeout seq => Sys2Proof.Machine.execStealTimeout seq s
  | .schedLost cluster => Sys2Proof.Machine.execSchedLost cluster s
  | .clusterSwitchOut area => Sys2Proof.Machine.execClusterSwitchOut area s
  | .clusterRestore area => Sys2Proof.Machine.execClusterRestore area s
  | .walkComplete n => Sys2Proof.Machine.execWalkComplete n s
  | .invalidationAck n => Sys2Proof.Machine.execInvalidationAck n s
  | .invalidationHoldTimeout slot => Sys2Proof.Machine.execInvalidationHoldTimeout slot s
  | .pubgToggle n => Sys2Proof.Machine.execPubgToggle n s
  | .releasePerformed n => Sys2Proof.Machine.execReleasePerformed n s
  | .contextSaveRequest n => Sys2Proof.Machine.execContextSaveRequest n s
  | .contextRestoreRequest n => Sys2Proof.Machine.execContextRestoreRequest n s
  | .submissionTail ctx val => Sys2Proof.Machine.execSubmissionTail ctx val s
  | .completionHead ctx val => Sys2Proof.Machine.execCompletionHead ctx val s
  | .faultHead ctx val => Sys2Proof.Machine.execFaultHead ctx val s
  | .launchPacket ctx idx => Sys2Proof.Machine.execLaunchPacket ctx idx s
  | .event ctx idx => Sys2Proof.Machine.execEvent ctx idx s
  | .evwaitPacket ctx idx => Sys2Proof.Machine.execEvwaitPacket ctx idx s
  | .attach ctx idx => Sys2Proof.Machine.execAttach ctx idx s
  | .detach ctx idx => Sys2Proof.Machine.execDetach ctx idx s
  | .stop ctx idx => Sys2Proof.Machine.execStop ctx idx s
  | .resume ctx idx => Sys2Proof.Machine.execResume ctx idx s
  | .debugRead ctx idx => Sys2Proof.Machine.execDebugRead ctx idx s
  | .debugWrite ctx idx => Sys2Proof.Machine.execDebugWrite ctx idx s
  | .debugBreak ctx idx => Sys2Proof.Machine.execDebugBreak ctx idx s
  | .sample ctx idx => Sys2Proof.Machine.execSample ctx idx s
  | .trace ctx idx => Sys2Proof.Machine.execTrace ctx idx s
  | .counters ctx idx => Sys2Proof.Machine.execCounters ctx idx s
  | .replay ctx idx => Sys2Proof.Machine.execReplay ctx idx s
  | .inject ctx idx => Sys2Proof.Machine.execInject ctx idx s
  | .breakpoint slot => Sys2Proof.Machine.execBreakpoint slot s
  | .freezeLimit ctx => Sys2Proof.Machine.execFreezeLimit ctx s
  | .sampleEmit slot => Sys2Proof.Machine.execSampleEmit slot s
  | .replayTimeout ctx => Sys2Proof.Machine.execReplayTimeout ctx s
  | .coreRelease core => Sys2Proof.Machine.execCoreRelease core s
  | .powerLimit watts => Sys2Proof.Machine.execPowerLimit watts s
  | .hostCtxsave ctx area units => Sys2Proof.Machine.execHostCtxsave ctx area units s
  | .hostCtxrst ctx area => Sys2Proof.Machine.execHostCtxrst ctx area s
  | .packageIdleRequest => Sys2Proof.Machine.execPackageIdleRequest s
  | .bar0RegisterWrite off val => Sys2Proof.Machine.execBar0RegisterWrite off val s
  | .powerOn => Sys2Proof.Machine.execPowerOn s
  | .reboot image => Sys2Proof.Machine.execReboot image s
  | .powerOff => Sys2Proof.Machine.execPowerOff s
  | .getVersion msg => Sys2Proof.Machine.execGetVersion msg s
  | .getCapabilities msg => Sys2Proof.Machine.execGetCapabilities msg s
  | .negotiateAlgorithms msg => Sys2Proof.Machine.execNegotiateAlgorithms msg s
  | .getDigests msg => Sys2Proof.Machine.execGetDigests msg s
  | .getCertificate msg => Sys2Proof.Machine.execGetCertificate msg s
  | .challenge msg => Sys2Proof.Machine.execChallenge msg s
  | .getMeasurements msg => Sys2Proof.Machine.execGetMeasurements msg s
  | .flitReceive link flit trailer => Sys2Proof.Machine.execFlitReceive link flit trailer s
  | .linkTrained link => Sys2Proof.Machine.execLinkTrained link s
  | .linkRetrainTimeout link => Sys2Proof.Machine.execLinkRetrainTimeout link s
  | .remoteWrite n => Sys2Proof.Machine.execRemoteWrite n s
  | .readRequest n => Sys2Proof.Machine.execReadRequest n s
  | .readReply n => Sys2Proof.Machine.execReadReply n s
  | .writeAcknowledgement n => Sys2Proof.Machine.execWriteAcknowledgement n s
  | .contribution n => Sys2Proof.Machine.execContribution n s
  | .collectiveResult n => Sys2Proof.Machine.execCollectiveResult n s
  | .barrierArrival n => Sys2Proof.Machine.execBarrierArrival n s
  | .barrierRelease n => Sys2Proof.Machine.execBarrierRelease n s
  | .cutMarker n => Sys2Proof.Machine.execCutMarker n s
  | .resumeMarker n => Sys2Proof.Machine.execResumeMarker n s
  | .sweepReport n => Sys2Proof.Machine.execSweepReport n s
  | .purge n => Sys2Proof.Machine.execPurge n s
  | .remoteTimeout req => Sys2Proof.Machine.execRemoteTimeout req s
  | .memberFailure job grp node => Sys2Proof.Machine.execMemberFailure job grp node s
  | .storePerformed n => Sys2Proof.Machine.execStorePerformed n s
  | .unsupportedRequest msg => Sys2Proof.Machine.execUnsupportedRequest msg s
  | .contextCreation desc => Sys2Proof.Machine.execContextCreation desc s
  | .hostInject core region => Sys2Proof.Machine.execHostInject core region s
  | .invalidPacket ctx idx => Sys2Proof.Machine.execInvalidPacket ctx idx s

end Sys2Proof.Machine
end

