-- ==== Sys2Proof/Machine/Arbiter.lean ====
section
/-! DEFINITION. The banks of core scratchpad (R93, R94): what voice A and the streams ask of them in a cycle, whom a bank
serves, and the matrix of refusals (R295). The cycles in which the engines reach a bank are not architectural (R316): they
take those in which no other requester wants it, and whether a bank refuses them is a free value (log entries 84, 85). -/

namespace Sys2Proof.Machine

/-- The bank of a bank line (R93). -/
def bankOfLine (l : Nat) : Nat := l % 32

/-- A bank refuses a requester of slot `k` in this cycle: 0 A, 1 stream unit, 2 array engine, 3 copy engine (R295, R296). -/
def chargeBank (s : State) (k req bank : Nat) : State :=
  let key := 128 * k + 32 * req + bank
  let x := sget s.core.bankMatrix key
  let s1 : State := { s with core := { s.core with
    bankMatrix := sset s.core.bankMatrix key (if x = BitVec.allOnes 32 then x else x + 1) } }
  pmCount s1 k (curClause s1 k .A) 8 1

def chargeBanks (s : State) (k req : Nat) : List Nat → State
  | [] => s
  | b :: r => chargeBanks (chargeBank s k req b) k req r

/-! ### Voice A -/

/-- The lines of a scratchpad interval, aperture resolved; none where the access traps. -/
def loadLines (x : Slot) (ea n : Nat) : List Nat :=
  match spadLoadAddr x ea n with
  | .ok a => linesOf a n
  | .error _ => []

/-- The bank lines a word of voice A reads or writes when it issues; an LDQ without a consumer reads none (R88, R123). -/
def wordLines (s : State) (k : Nat) (i : Instr) : List Nat :=
  let x := getSlot s k
  let r := x.vA.a
  match i with
  | .lds _ p _ b z o imm => if visP r p then loadLines x (memAddr r b o imm (accWidth z)).toNat (accWidth z) else []
  | .sts _ p _ b z o imm => if visP r p then loadLines x (memAddr r b o imm (accWidth z)).toNat (accWidth z) else []
  | .ldq _ p q b o imm =>
    if visP r p && decide (tryPush s k q.toNat ≠ .drop) then loadLines x (memAddr r b o imm 128).toNat 128 else []
  | .stq _ p _ b o imm => if visP r p then loadLines x (memAddr r b o imm 128).toNat 128 else []
  | .sbind _ p _ a _ => if visP r p then loadLines x (visS r a).toNat 64 else []
  | _ => []

/-- The banks the word at voice A's NA0 needs; a nullified word needs none. -/
def banksOfA (s : State) (k : Nat) : List Nat :=
  let n := (getArch s k .A).na0
  if n.nul then []
  else
    match fetchAt s k .A n.addr.toNat with
    | .word w => (match decodeWord w with | some i => dedup ((wordLines s k i).map bankOfLine) | none => [])
    | _ => []

/-- A stream unit that a bank has refused for eight successive cycles goes first in this one, and then waits anew. Voice A comes to no
such turn: the banks of a word are two, and each refuses it once for each slot's unit in eight cycles (R94). -/
def streamFirst (s : State) (bank : Nat) : Bool :=
  [0, 1].any (fun k => decide (8 ≤ mget 0 s.core.streamWait (32 * k + bank)))

/-- The banks that refuse voice A's word in this cycle. -/
def banksRefused (s : State) (k : Nat) : List Nat := (banksOfA s k).filter (streamFirst s)

/-! ### Streams -/

/-- The bank lines of the next entry of a stream, in element order. -/
def entryLines (x : Stream) : List Nat := (dedup ((entryAddrs x).flatMap (fun a => linesOf a x.esz)).reverse).reverse

/-- The entry has no place to go: nothing is read for it (R88). -/
def unread (s : State) (k : Nat) (x : Stream) : Bool := !x.drain && decide (tryPush s k x.queue = .drop)

/-- The lines a stream still has to reach for its next entry. -/
def linesLeft (s : State) (k i : Nat) : List Nat :=
  match getStream (getCtl s k) i with
  | none => []
  | some x =>
    if unread s k x then []
    else
      match mfind s.core.streamTurns (8 * k + i) with
      | some t => if t.at_ = x.reserved then t.lines else entryLines x
      | none => entryLines x

/-- The streams of a slot that the unit takes up in this cycle: up to four (R92), from one that changes with the cycle on. -/
def takenUp (s : State) (k : Nat) : List Nat :=
  (((List.range 8).map (fun i => (i + s.now) % 8)).filter (fun i => canServe s k i)).take 4

/-- A request of the stream unit: slot, stream, line. -/
structure BankReq where
  slot : Nat
  stream : Nat
  line : Nat
  deriving DecidableEq, Repr

def bankReqs (s : State) (k : Nat) : List BankReq :=
  (takenUp s k).flatMap (fun i => (linesLeft s k i).map (fun l => ⟨k, i, l⟩))

/-- The slot whose request a bank serves: the one that has waited eight cycles, else the other than the last (R94). -/
def slotServed (s : State) (bank : Nat) (rs : List BankReq) : Nat :=
  let has (k : Nat) : Bool := rs.any (fun r => decide (r.slot = k))
  let late (k : Nat) : Bool := decide (8 ≤ mget 0 s.core.streamWait (32 * k + bank))
  let turn := 1 - mget 1 s.core.streamLast bank
  if has 0 && has 1 then (if late 0 != late 1 then (if late 0 then 0 else 1) else turn)
  else if has 0 then 0 else 1

/-- The request a bank serves in this cycle, if it is free. -/
def requestServed (s : State) (bank : Nat) (rs : List BankReq) : Option BankReq :=
  let mine := rs.filter (fun r => decide (bankOfLine r.line = bank))
  if mine = [] ∨ s.banksUsed.contains bank = true then none
  else findFirst (fun r => decide (r.slot = slotServed s bank mine)) mine

/-- One bank's cycle: the line it serves, the refusals it charges. -/
def bankCycle (all : List BankReq) (s : State) (bank : Nat) : State × List BankReq :=
  let won := (requestServed s bank all).toList
  let lost (k : Nat) : Bool := all.any (fun r => decide (bankOfLine r.line = bank) && decide (r.slot = k) && !won.contains r)
  let goes (k : Nat) : Bool := won.any (fun r => decide (r.slot = k))
  let wait (s : State) (k n : Nat) : State := { s with core := { s.core with streamWait := mset 0 s.core.streamWait (32 * k + bank) n } }
  let note (s : State) (k : Nat) : State :=
    let s1 := if lost k then chargeBank s k 1 bank else s
    if lost k && !goes k then wait s1 k (mget 0 s.core.streamWait (32 * k + bank) + 1)
    else if s.core.streamWait = [] then s1
    else wait s1 k 0
  let s1 := note (note s 0) 1
  match won with
  | r :: _ => ({ s1 with core := { s1.core with streamLast := mset 1 s1.core.streamLast bank r.slot } }, won)
  | [] => (s1, [])

def bankCycles (all : List BankReq) : State → List Nat → State × List BankReq
  | s, [] => (s, [])
  | s, b :: r =>
    let x := bankCycle all s b
    let y := bankCycles all x.1 r
    (y.1, x.2 ++ y.2)

/-- What is left of a stream's entry after the cycle's grants; an entry whose lines are all reached is served. -/
def noteTurn (won : List BankReq) (s : State) (p : Nat × Nat) : State :=
  match getStream (getCtl s p.1) p.2 with
  | none => s
  | some x =>
    let left := (linesLeft s p.1 p.2).filter (fun l => !won.contains ⟨p.1, p.2, l⟩)
    let key := 8 * p.1 + p.2
    if left = [] then
      { s with core := { s.core with streamTurns := mdel s.core.streamTurns key }, granted := s.granted ++ [key] }
    else { s with core := { s.core with streamTurns := mput s.core.streamTurns key ⟨x.reserved, left⟩ } }

/-- The banks serve the streams' requests of the cycle. -/
def arbitrate (s : State) : State :=
  let ps := (takenUp s 0).map (fun i => (0, i)) ++ (takenUp s 1).map (fun i => (1, i))
  let all := bankReqs s 0 ++ bankReqs s 1
  if ps = [] ∧ s.core.streamWait = [] then s
  else
    let x := bankCycles all s (List.range 32)
    ps.foldl (noteTurn x.2) x.1

end Sys2Proof.Machine
end

