-- ==== Sys2Proof/Machine/Banks.lean ====
section
/-! DEFINITION. The vector registers a word reads through the bank ports, in operand order (R84, R85), and the words that may
stand second in a pair and wait for the first (R16, R40). -/

namespace Sys2Proof.Machine

/-- The registers v0 to v27 that a word names as sources, each once. -/
def bankSources : Instr → List Nat
  | .rdh _ _ _ a b => if b.toNat = 2 then [a.toNat] else []
  | .vaddI32 _ _ _ _ a b _ => [a.toNat, b.toNat]
  | .vsubI32 _ _ _ _ a b _ => [a.toNat, b.toNat]
  | .vmulI32 _ _ _ _ a b _ => [a.toNat, b.toNat]
  | .vmulhI32 _ _ _ _ a b _ => [a.toNat, b.toNat]
  | .vmulhnI32 _ _ _ _ a b _ => [a.toNat, b.toNat]
  | .vminI32 _ _ _ _ a b _ => [a.toNat, b.toNat]
  | .vmaxI32 _ _ _ _ a b _ => [a.toNat, b.toNat]
  | .vminnI32 _ _ _ _ a b _ => [a.toNat, b.toNat]
  | .vmaxnI32 _ _ _ _ a b _ => [a.toNat, b.toNat]
  | .vandI32 _ _ _ _ a b _ => [a.toNat, b.toNat]
  | .vorI32 _ _ _ _ a b _ => [a.toNat, b.toNat]
  | .vxorI32 _ _ _ _ a b _ => [a.toNat, b.toNat]
  | .vshlI32 _ _ _ _ a b _ => [a.toNat, b.toNat]
  | .vshrI32 _ _ _ _ a b _ => [a.toNat, b.toNat]
  | .vsraI32 _ _ _ _ a b _ => [a.toNat, b.toNat]
  | .vcmpeqI32 _ _ _ _ a b _ => [a.toNat, b.toNat]
  | .vcmpltI32 _ _ _ _ a b _ => [a.toNat, b.toNat]
  | .vcmpltnI32 _ _ _ _ a b _ => [a.toNat, b.toNat]
  | .vsel _ _ _ _ a b _ => [a.toNat, b.toNat]
  | .vaddF32 _ _ _ _ a b _ => [a.toNat, b.toNat]
  | .vsubF32 _ _ _ _ a b _ => [a.toNat, b.toNat]
  | .vmulF32 _ _ _ _ a b _ => [a.toNat, b.toNat]
  | .vminF32 _ _ _ _ a b _ => [a.toNat, b.toNat]
  | .vmaxF32 _ _ _ _ a b _ => [a.toNat, b.toNat]
  | .vabsF32 _ _ _ _ a _ => [a.toNat]
  | .vnegF32 _ _ _ _ a _ => [a.toNat]
  | .vcmpeqF32 _ _ _ _ a b _ => [a.toNat, b.toNat]
  | .vcmpltF32 _ _ _ _ a b _ => [a.toNat, b.toNat]
  | .vcmpleF32 _ _ _ _ a b _ => [a.toNat, b.toNat]
  | .vaddF16 _ _ _ _ a b _ => [a.toNat, b.toNat]
  | .vsubF16 _ _ _ _ a b _ => [a.toNat, b.toNat]
  | .vmulF16 _ _ _ _ a b _ => [a.toNat, b.toNat]
  | .vminF16 _ _ _ _ a b _ => [a.toNat, b.toNat]
  | .vmaxF16 _ _ _ _ a b _ => [a.toNat, b.toNat]
  | .vabsF16 _ _ _ _ a _ => [a.toNat]
  | .vnegF16 _ _ _ _ a _ => [a.toNat]
  | .vcmpeqF16 _ _ _ _ a b _ => [a.toNat, b.toNat]
  | .vcmpltF16 _ _ _ _ a b _ => [a.toNat, b.toNat]
  | .vcmpleF16 _ _ _ _ a b _ => [a.toNat, b.toNat]
  | .vaddBf16 _ _ _ _ a b _ => [a.toNat, b.toNat]
  | .vsubBf16 _ _ _ _ a b _ => [a.toNat, b.toNat]
  | .vmulBf16 _ _ _ _ a b _ => [a.toNat, b.toNat]
  | .vminBf16 _ _ _ _ a b _ => [a.toNat, b.toNat]
  | .vmaxBf16 _ _ _ _ a b _ => [a.toNat, b.toNat]
  | .vabsBf16 _ _ _ _ a _ => [a.toNat]
  | .vnegBf16 _ _ _ _ a _ => [a.toNat]
  | .vcmpeqBf16 _ _ _ _ a b _ => [a.toNat, b.toNat]
  | .vcmpltBf16 _ _ _ _ a b _ => [a.toNat, b.toNat]
  | .vcmpleBf16 _ _ _ _ a b _ => [a.toNat, b.toNat]
  | .vfmaF32 _ _ _ _ a b e _ => [a.toNat, b.toNat, e.toNat]
  | .vfmsF32 _ _ _ _ a b e _ => [a.toNat, b.toNat, e.toNat]
  | .vfmaBf16 _ _ _ _ a b e _ => [a.toNat, b.toNat, e.toNat]
  | .vfmaF16 _ _ _ _ a b e _ => [a.toNat, b.toNat, e.toNat]
  | .vcvtF32I32 _ _ _ _ a _ _ => [a.toNat]
  | .vcvtI32F32 _ _ _ _ a _ _ => [a.toNat]
  | .vcvtF32F16 _ _ _ _ a _ _ => [a.toNat]
  | .vcvtF32Bf16 _ _ _ _ a _ _ => [a.toNat]
  | .vcvtF16F32 _ _ _ _ a _ _ _ => [a.toNat]
  | .vcvtBf16F32 _ _ _ _ a _ _ _ => [a.toNat]
  | .vcvtF32E4m3 _ _ _ _ a _ _ => [a.toNat]
  | .vcvtF32E5m2 _ _ _ _ a _ _ => [a.toNat]
  | .vcvtE4m3F32 _ _ _ _ a _ _ _ => [a.toNat]
  | .vcvtE5m2F32 _ _ _ _ a _ _ _ => [a.toNat]
  | .vpackB4 _ _ _ _ a _ _ => [a.toNat]
  | .vunpackB4 _ _ _ _ a _ _ => [a.toNat]
  | .vperm _ _ _ _ a b _ => [a.toNat, b.toNat]
  | .vrot _ _ _ _ a _ _ => [a.toNat]
  | .vredadd _ _ _ _ a _ => [a.toNat]
  | .vredmax _ _ _ _ a _ => [a.toNat]
  | .viredadd _ _ _ _ a _ => [a.toNat]
  | .vbspl _ _ _ _ a _ _ => [a.toNat]
  | _ => []

/-- The bank reads of a word: each register once, the queue codes 28 to 31 not at all (R84). -/
def bankReads (i : Instr) : List Nat := dedup ((bankSources i).filter (fun r => decide (r < 28)))

/-- FLIP, EXIT and SEALW wait for the first word's writes when they stand second (R16, R263). -/
def waitsSecond : Instr → Bool
  | .flip _ _ => true
  | .exit _ _ => true
  | .sealw _ _ => true
  | _ => false

/-- Grant the reads two to a bank in order; what is refused remains (R85). -/
def refusedReads : List Nat → SMap 8 → List Nat
  | [], _ => []
  | r :: rs, used =>
    if (sget used (r % 8)).toNat < 2 then refusedReads rs (sset used (r % 8) (sget used (r % 8) + 1))
    else r :: refusedReads rs used

/-- Each refused read counts in the voice's BANKLOSS of its bank (R85), and under event 7 (R296). -/
def countLosses (s : State) (k : Nat) (v : VoiceId) (rs : List Nat) : State :=
  let base := if v = .X0 then 0x18 else 0x20
  pmCount (changes s k (curClause s k v) (rs.map (fun r => .statusAdd (base + r % 8) 1 32))) k (curClause s k v) 7 rs.length

end Sys2Proof.Machine
end

