-- ==== Sys2Proof/Machine/Due.lean ====
section
/-! DEFINITION. Which event is due: the causes the machine holds, in a fixed order. Events whose cycle the spec fixes come when
they fall due; the others in any cycle the model's pace admits (R315, R316). -/

namespace Sys2Proof.Machine

/-- An event as what it does. -/
abbrev Act := State → Out

/-- The first event of a list of candidates. -/
def firstSome : List (Option Act) → Option Act
  | [] => none
  | some i :: _ => some i
  | none :: r => firstSome r

/-- The untimed actions may happen in this cycle. -/
def paced (s : State) : Bool := decide (s.now % (s.pace + 1) = 0)

def indexOfFirst {α : Type} (f : α → Bool) : List α → Nat → Option Nat
  | [], _ => none
  | x :: r, n => if f x then some n else indexOfFirst f r (n + 1)

/-- A result or flags of a voice that land now. -/
def dueLanding (s : State) (k : Nat) (v : VoiceId) : Option Act :=
  let a := getArch s k v
  match indexOfFirst (fun p => decide (p.due ≤ s.now)) a.pending 0 with
  | some i => some (execPendingResultLand k v i)
  | none =>
    (indexOfFirst (fun (f : FlagDue) => decide (f.due ≤ s.now)) a.flagq 0).map (fun i => execPendingResultLand k v (a.pending.length + i))

/-- A queue entry of a slot that fills now. -/
def dueFill (s : State) (k : Nat) : Option Act :=
  let x := getSlot s k
  let ready (e : QEntry) : Bool :=
    x.fills.any (fun f => decide (f.id = e.id) && decide (f.due ≤ s.now)) ||
      (paced s && x.xfers.any (fun y => decide (y.id = e.id) && (y.val.isSome || !loadWaits s k y)))
  firstSome ((List.range 8).map (fun q => (indexOfFirst ready (getQueue (getCtl s k) q) 0).map (fun i => execQueueEntryFill k q i)))

/-- A transfer that can arrive. -/
def dueArrival (s : State) (k : Nat) : Option Act :=
  if paced s then
    firstSome ((getCtl s k).landing.map (fun p =>
      match landingXfer s k p.1 with
      | some x =>
        if x.val.isSome || (!x.remote && !loadWaits s k x) then some (execLandingArrival k (voiceOf (p.1 / 8)) (p.1 % 8)) else none
      | none => none))
  else none

/-- A clause of slot `k` that seals now. -/
def dueSeal (s : State) (k : Nat) : Option Act :=
  (findFirst (fun c => decide (c.slot = k) && (sealSet s).contains c.id) s.core.clauses).map (fun c => execClauseSeal c.slot c.id)

def dueWaitEnd (s : State) (k : Nat) : Option Act :=
  if s.cluster.barriers.any (fun b => b.2.waits.any (fun w => decide (w.mem = memberBit s k) &&
      (match w.endAt with | some t => decide (t ≤ s.now) | none => false))) then some (execBarrierWaitEnd k) else none

def dueTrap (s : State) (k : Nat) : Option Act :=
  let x := getSlot s k
  match x.stop with
  | some st => if x.run = .stopping ∧ entryReady s st = true then some (execTrapEntry k) else none
  | none => none

def dueEnd (s : State) (k : Nat) : Option Act :=
  let x := getSlot s k
  if x.run = .ended ∧ slotSealed s k = true ∧ (cmdsDone s k = true ∨ inAnyGroup s k = true) then some (execThreadEnd k)
  else if x.run = .dead ∧ ((x.stop.isSome = true ∧ finalDead s x = true ∧ clusterOut s k = false) ∨ (x.stop = none ∧ cmdsDone s k = true)) then
    some (execThreadEnd k)
  else none

/-- What the core's threads release or end in this cycle before a change of member bit `m` reaches the cluster: changes of one cycle
apply in member-bit order, those of remote sources last (R190, R191, R194). -/
def dueBefore (s : State) (m : Nat) : Option Act :=
  firstSome ([0, 1].flatMap (fun k => if clockRuns s && decide (memberBit s k < m) then [dueSeal s k, dueEnd s k] else []))

/-- A SIGNAL or a PREEMPT that stays pending over a rollback or a trap entry (R180, R317). -/
def duePending (s : State) (k : Nat) : Option Act :=
  let x := getSlot s k
  if s.core.rollAt.isSome then none
  else if x.pendSignal ∧ (x.run = .running ∨ x.run = .stopping ∨ x.run = .handler) then some (execSignal k)
  else if preemptPending s k then some execPreempt
  else none

def dueRestart (s : State) : Option Act :=
  match s.core.rollAt with
  | some r => if r + 16 ≤ s.now then some execRollbackRestart else none
  | none => none

def dueSave (s : State) : Option Act :=
  if saveDue s then some execCoreImageSave else none

/-- The event that starts a command. -/
def startEvent (m : Cmd) : Act :=
  match m.eng, tOp m.tmpl with
  | 1, 2 => execCopyf m.id
  | 2, 1 => execArrLoadb m.id
  | 2, 2 => execArrMm m.id
  | 2, 3 => execArrSpl m.id
  | 2, 4 => execArrGrad m.id
  | 2, 5 => execArrRefine m.id
  | 2, 6 => execArrDrain m.id
  | 2, 7 => execArrRowout m.id
  | 3, 1 => execScatAdd m.id
  | 3, 2 => execScatMax m.id
  | _, _ => execCopy m.id

/-- A rerun's log admits the command's next window. -/
def windowLogged (s : State) (m : Cmd) : Bool :=
  (replayGate s m.ctx (logMerge s m.slot (BitVec.ofNat 16 (tTag m.tmpl)) m.merged)).isSome

/-- What the engines can do next: retire a command, enqueue a follow-on, merge a window, start a command. -/
def dueEngines (s : State) : Option Act :=
  if paced s then
    firstSome [
      (findFirst (retireReady s) s.core.cmds).map (fun m => execCommandRetire m.id),
      (findFirst (followReady s) s.core.cmds).map (fun m => execCopyfFollowOn m.id),
      (findFirst (fun m => windowReady s m.id && windowLogged s m) s.core.cmds).map (fun m => execScatterWindow m.id),
      (findFirst (cmdReady s) s.core.cmds).map startEvent]
  else none

/-- A breakpoint whose edge this is (R290). -/
def dueBreak (s : State) (k : Nat) : Option Act := if breakDue s k then some (execBreakpoint k) else none

/-- A sample, of the addresses as they stand before the cycle's issue (R292). -/
def dueSample (s : State) (k : Nat) : Option Act := if sampleDue s k then some (execSampleEmit k) else none

/-- The events of the core itself. -/
def dueCore (s : State) : List (Option Act) :=
  allVoices.map (dueLanding s 0) ++ allVoices.map (dueLanding s 1) ++
  [dueFill s 0, dueFill s 1, dueEngines s, dueSeal s 0, dueEnd s 0, dueSeal s 1, dueEnd s 1, dueWaitEnd s 0, dueWaitEnd s 1,
    dueArrival s 0, dueArrival s 1, dueTrap s 0, dueTrap s 1, dueSave s]

/-! ### Memory outside the core -/

def dueWalk (s : State) : Option Act := (s.pkg.walks.head?).map (fun w => execWalkComplete w.id)

def dueInval (s : State) : Option Act := (findFirst (drained s) s.pkg.invals).map (fun v => execInvalidationAck v.id)

/-- A slot that still runs while it holds a store over an invalidation for too long (R232). -/
def dueHold (s : State) (k : Nat) : Option Act :=
  let x := getSlot s k
  if (x.run = .running ∨ x.run = .handler) ∧ x.pendPreempt = false ∧ holdsTooLong s k = true then some (execInvalidationHoldTimeout k) else none

def dueStore (s : State) : Option Act :=
  firstSome [
    (findFirst (pubgReady s) s.core.out).map (fun o => execPubgToggle o.id),
    (findFirst (mayPerform s) s.core.out).map (fun o => if isRelease o then execReleasePerformed o.id else execStorePerformed o.id)]

/-! ### The scheduler -/

def duePlace (s : State) : Option Act := (duePlacement s).map (fun p => execTaskPlace p.1 p.2)

def dueSlice (s : State) (k : Nat) : Option Act :=
  if sliceOver s k ∧ (getCtx s (getSlot s k).thread.ctx).slice ≠ 0 then some (execTimeSliceEnd k) else none

/-- A pipeline all of whose threads wait. -/
def dueSpill (s : State) : Option Act :=
  (findFirst (spillReady s) (s.cluster.pipeStall.map (fun p => p.1))).map (fun p => execPipelineSpill p)

def dueSteal (s : State) : Option Act :=
  (findFirst (fun t => decide (t.sentAt + microCycles s 16 ≤ s.now)) s.cluster.transit).map (fun t => execStealTimeout t.seq)

def dueSwitch (s : State) : Option Act :=
  match s.cluster.switching with
  | some _ => if s.cluster.ctx.isSome ∧ switchReady s = true then some (execClusterSwitchOut 0) else none
  | none => none

/-! ### The package -/

/-- A request of CTXSAVE or CTXRST that can begin or end (R261, R262). -/
def requestEvent (s : State) (o : OutItem) : Option Act :=
  match o.eff with
  | .ctxsave id c _ _ => if !underWay s id || saveReady s c then some (execContextSaveRequest o.id) else none
  | .ctxrst _ _ _ => some (execContextRestoreRequest o.id)
  | _ => none

def dueRequest (s : State) : Option Act :=
  firstSome (s.core.out.map (requestEvent s) ++ s.pkg.hostSave.map (fun x =>
    if saveReady s x.1 then some (execHostCtxsave x.1 x.2.1 x.2.2) else none))

/-- The event of a packet in the router; the reply for a thread off its slot waits. -/
def routerEvent (s : State) (n : Nat) : Option Act :=
  match s.pkg.router[n]? with
  | none => none
  | some p =>
    match p.typ with
    | 1 => some (execRemoteWrite n)
    | 2 => some (execReadRequest n)
    | 3 =>
      match answered s p with
      | some id => if savedWaits s id then none else some (execReadReply n)
      | none => some (execReadReply n)
    | 4 => some (execWriteAcknowledgement n)
    | 5 => some (execContribution n)
    | 6 => some (execCollectiveResult n)
    | 7 => some (execBarrierArrival n)
    | 8 => some (execBarrierRelease n)
    | 9 => some (execCutMarker n)
    | 10 => some (execResumeMarker n)
    | 11 => some (execSweepReport n)
    | 12 => some (execPurge n)
    | _ => none

/-- A marker of a gang switch in the router: it counts before what has come behind it (R284). -/
def dueMarker (s : State) : Option Act :=
  firstSome ((List.range s.pkg.router.length).map (fun n =>
    match (s.pkg.router[n]?).map (fun p => p.typ) with
    | some 9 => some (execCutMarker n)
    | some 10 => some (execResumeMarker n)
    | _ => none))

def dueRouter (s : State) : Option Act := firstSome ((List.range s.pkg.router.length).map (routerEvent s))

def dueRemote (s : State) : Option Act := (findFirst (remoteOver s) s.pkg.remotes).map (fun r => execRemoteTimeout r.1)

def dueLink (s : State) : Option Act := (findFirst (fun l => retrainOver s l.2) s.pkg.links).map (fun l => execLinkRetrainTimeout l.1)

/-- The event of a DEBUG packet's operation. -/
def debugEvent (c i op : Nat) : Act :=
  match op with
  | 1 => execAttach c i
  | 2 => execDetach c i
  | 3 => execStop c i
  | 4 => execResume c i
  | 5 => execDebugRead c i
  | 6 => execDebugWrite c i
  | 7 => execDebugBreak c i
  | 8 => execSample c i
  | 9 => execTrace c i
  | 10 => execCounters c i
  | 11 => execReplay c i
  | _ => execInject c i

/-- A LAUNCH packet that can proceed. -/
def launchProceeds (s : State) (c i : Nat) (bs : List Byte) : Bool :=
  match launchBytes s c bs with
  | none => true
  | some rs =>
    let qs := batchRecs c i (pktTag bs) rs
    qs.any (fun q => recReserved q.r3) ||
      (((launchesHere s c && decide (qs.length ≤ entriesFree s)) || launchesElsewhere s c) && (replayGate s c (logLaunch i rs)).isSome)

/-- The event of the next packet of a context's queue, where it can proceed (R246). -/
def packetEvent (s : State) (c : Nat) : Option Act :=
  match nextPacketOf s c with
  | none => none
  | some (i, bs) =>
    if packetOk s c bs = false then some (execInvalidPacket c i)
    else
      match pktWord bs 0 % 256 with
      | 1 => if launchProceeds s c i bs then some (execLaunchPacket c i) else none
      | 2 =>
        let d := debugBody bs
        if d.op = 3 ∧ onThisCore s d = true ∧ (s.core.rollAt.isSome = true ∨ s.pastEdge = true) then none else some (debugEvent c i d.op)
      | 3 => some (execEvent c i)
      | _ => if evwaitMet s c bs then some (execEvwaitPacket c i) else none

def duePacket (s : State) : Option Act := firstSome (s.pkg.contexts.map (fun c => packetEvent s c.1))

/-- An event of the core: with it the cycle's edge is past. -/
def corePast (f : Act) : Act := fun s => f { s with pastEdge := true }

/-- The next packet of a context's queue is a STOP: it takes this edge, before results land, or the next one (R288). -/
def stopPacket (s : State) (c : Nat) : Option Act :=
  match nextPacketOf s c with
  | none => none
  | some (_, bs) =>
    if pktWord bs 0 % 256 = 2 ∧ (debugBody bs).op = 3 ∧ packetOk s c bs = true then packetEvent s c else none

def dueStopPacket (s : State) : Option Act :=
  if paced s then firstSome (s.pkg.contexts.map (fun c => stopPacket s c.1)) else none

/-- An injected report whose edge has come (R299). -/
def injectDue (s : State) (k : Nat) (p : Word × Nat) : Bool :=
  let x := getSlot s k
  decide (x.run ≠ .empty) && !s.core.fenced && (decide (p.1.toNat < x.scyc.toNat) ||
    (decide (p.1.toNat = x.scyc.toNat) && (atEdge s k || s.core.freeze.isSome)))

/-- The report of an injection, which is over with it. -/
def injectNow (k : Nat) (p : Word × Nat) (s : State) : Out :=
  let x := getSlot s k
  execStrikeReport p.2 (setSlot s k { x with injectAt := x.injectAt.erase p })

/-- Reports that injections make in this cycle up to a region, in the order of their regions (R171). -/
def dueInject (s : State) (upTo : Nat) : Option Act :=
  let at_ (k r : Nat) : Option Act :=
    (findFirst (fun p => decide (p.2 = r) && injectDue s k p) (getSlot s k).injectAt).map (injectNow k)
  firstSome (((List.range 3).filter (fun r => decide (r ≤ upTo))).flatMap (fun r => [at_ 0 r, at_ 1 r]))

def dueLimit (s : State) : Option Act := (findFirst (fun c => limitReached s c.1) s.pkg.contexts).map (fun c => execFreezeLimit c.1)

def dueRerun (s : State) : Option Act := (findFirst (fun c => rerunOver s c.1) s.pkg.contexts).map (fun c => execReplayTimeout c.1)

/-- What goes on outside the core, whether its clock runs or not: what has a fixed time first. -/
def duePackage (s : State) : List (Option Act) :=
  [dueLimit s, dueRerun s, dueSteal s, dueRemote s, dueLink s, dueHold s 0, dueHold s 1, dueSlice s 0, dueSlice s 1, dueSpill s] ++
  (if paced s then [dueStore s, dueWalk s, dueInval s, dueRequest s, dueSwitch s, dueRouter s, duePacket s, duePlace s] else [])

/-- A report that an injection makes, then a stop that is pending, are taken before anything that arrives but reports of the region
given and of those before it (R171, R180, R205, R299, R317). -/
def dueStop (s : State) (region : Nat) : Option Act :=
  firstSome ([dueInject s region] ++ if clockRuns s && decide (3 ≤ region) then [duePending s 0, duePending s 1] else [])

/-- The event due now: a debug stop holds the edge before anything else of the cycle (R288). -/
def dueEvent (s : State) : Option Act :=
  if powered s then
    firstSome ((if clockRuns s then [dueRestart s, dueBreak s 0, dueBreak s 1] else []) ++ [dueStopPacket s] ++
      (if clockRuns s then (dueCore s).map (fun o => o.map corePast) else []) ++ duePackage s ++ (if clockRuns s then [dueSample s 0, dueSample s 1] else []))
  else none

end Sys2Proof.Machine
end

