-- ==== Sys2Proof/Machine/Cycle.lean ====
section
/-! DEFINITION. The cycle: the events that are due, the precise choice of a trapping voice (R25, R170), the lockstep set (R82),
the turns of A, X0, X1 and C with issue pairs (R40) and bank replays (R85), and the end of the cycle (R79, R80). The
instruction meanings come in as an argument. -/

namespace Sys2Proof.Machine

/-- A meaning for every instruction. -/
abbrev Meaning := Instr → State → Out

/-! ### One word -/

/-- C = 1 in a word of format V or V4 (R40). -/
def opensPair (w : BitVec 32) : Bool :=
  let m := (fld w 25 6).toNat
  w.getLsbD 24 && decide (0x19 ≤ m) && decide (m ≤ 0x22)

/-- Run a fetched word. -/
def runFetched (ex : Meaning) (w : BitVec 32) (s : State) : Out :=
  match decodeWord w with
  | some i => ex i s
  | none => illegalWord w s

/-- Fetch at NA0 and run: a fetch fault traps FETCH at the word, nullified or not (R19, R59). -/
def runWord (ex : Meaning) (s : State) : Out :=
  let h := hereOf s
  match fetchAt s h.k h.v h.addr.toNat with
  | .fault => finish h s (.trap 0x08 (h.addr.setWidth 64) s)
  | .check va st => finish h s (.halt (machineCheck s h.k va st))
  | .word w => runFetched ex w (fetchFill s h.k h.v h.addr.toNat)

def markAt (s : State) (h : Here) : Mark := (getVoice s h.k h.v).mark

/-- The word at NA0, where it decodes. -/
def instrAt (s : State) (h : Here) (n : ChainEntry) : Option Instr :=
  match fetchAt s h.k h.v n.addr.toNat with
  | .word w => decodeWord w
  | _ => none

def pairAt (s : State) (h : Here) : Bool :=
  match fetchAt s h.k h.v h.addr.toNat with
  | .word w => h.v.isX && opensPair w
  | _ => false

/-! ### Issue pairs (R40, R49) -/

/-- The second word of a pair: the pair issues as a unit, but a FLIP, EXIT or SEALW that only the first word's writes hold back
waits alone for them (R16, R40, R49). -/
def runSecond (ex : Meaning) (s0 : State) (h : Here) (s : State) : Out :=
  let s1 := setVoice s h.k h.v { getVoice s h.k h.v with second := true }
  match runWord ex s1 with
  | .next t =>
    if markAt t h = .stalled ∨ markAt t h = .yielding then
      match instrAt s1 h (archAt s1 h).na0 with
      | some i =>
        if waitsSecond i && fileEmpty (archAt s0 h) && !sealQueueFull s0 h.k h.v then .next s1
        else .next (setMark s0 h (markAt t h))
      | none => .next (setMark s0 h .stalled)
    else .next t
  | o => o

/-- The word or the pair at NA0. -/
def runIssue (ex : Meaning) (s : State) : Out :=
  let h := hereOf s
  match runWord ex s with
  | .next t => if markAt t h = .issued ∧ pairAt s h = true then runSecond ex s h t else .next t
  | o => o

/-- The bank reads of the word or pair at NA0; a nullified word reads nothing. -/
def readsAt (s : State) (h : Here) : List Nat :=
  let a := archAt s h
  let one (n : ChainEntry) : List Nat :=
    if n.nul then [] else match instrAt s h n with | some i => bankReads i | none => []
  one a.na0 ++ (if pairAt s h then one a.na1 else [])

/-- The reads that the banks still refuse the voice in this cycle (R85). -/
def readsLeft (s : State) (h : Here) : List Nat :=
  if h.v.isX then refusedReads (((getVoice s h.k h.v).replay).getD (readsAt s h)) [] else []

/-- The voice serves what it can of its reads; what is left waits for the next cycle. -/
def serveReads (s : State) (h : Here) : State :=
  let left := readsLeft s h
  let s1 := countLosses s h.k h.v left
  setVoice s1 h.k h.v { getVoice s1 h.k h.v with replay := some left }

/-- The word or pair at NA0, held back in a cycle in which a scratchpad bank refuses voice A what it would issue or trap with (R94,
R170). -/
def runGated (ex : Meaning) (s : State) : Out :=
  let h := hereOf s
  let o := runIssue ex s
  match o with
  | .next t =>
    if h.v = .A ∧ (markAt t h = .issued ∨ markAt t h = .trapped) ∧ banksRefused s h.k ≠ [] then
      .next (setMark (chargeBanks s h.k 0 (banksRefused s h.k)) h .stalled)
    else o
  | _ => o

/-- A voice's turn: what would issue or trap first serves its bank reads, two to a bank in each cycle (R85, R170). -/
def runVoice (ex : Meaning) (s : State) : Out :=
  let h := hereOf s
  let o := runGated ex s
  match o with
  | .next t =>
    if (markAt t h = .issued ∨ markAt t h = .trapped) ∧ readsLeft s h ≠ [] then .next (setMark (serveReads s h) h .stalled) else o
  | _ => o

/-! ### Who may issue -/

def clearMarks (x : Slot) : Slot :=
  { x with
    vA := { x.vA with mark := .idle }, vX0 := { x.vX0 with mark := .idle },
    vX1 := { x.vX1 with mark := .idle }, vC := { x.vC with mark := .idle } }

def voiceReady (s : State) (v : VoiceId) : Bool :=
  voicePresents s s.core.act v && decide (s.core.deadTill ≤ s.now) && decide ((getVoice s s.core.act v).mark = .idle)

def atTurn (s : State) (v : VoiceId) : State := { s with turn := voiceTurn v }

/-- What a voice would do alone, from the state of the cycle's start. -/
def alone (ex : Meaning) (s : State) (v : VoiceId) : Option State :=
  match runVoice ex (atTurn s v) with
  | .next t => some t
  | _ => none

/-- A voice presents a word with S = 1; BRK ignores the bit (R31, R73, R82). -/
def presentsS (s : State) (v : VoiceId) : Bool :=
  let a := getArch s s.core.act v
  decide (a.wait = none) &&
    (match fetchAt s s.core.act v a.na0.addr.toNat with
     | .word w => w.getLsbD 31 && decide (fld w 25 6 ≠ 0x3F)
     | _ => false)

def syncMembers (s : State) : List VoiceId :=
  allVoices.filter (fun v => s.syncNow.getLsbD v.num)

/-- The slot as if no other voice had issued, trapped or stalled in the cycle. -/
def unmarked (s : State) : State :=
  let x := clearMarks (getSlot s s.core.act)
  setSlot s s.core.act { x with trapped := none }

/-- What a member of the set would do, its banks and what the others do at the same time left aside. -/
def memberTrial (ex : Meaning) (s : State) (v : VoiceId) : Option State :=
  match runIssue ex (atTurn (unmarked s) v) with
  | .next t => some t
  | _ => none

/-- A member of the set is held back by a stall of its own; one that would trap is not (R82). The voices are run in order. -/
def setHeld (ex : Meaning) (ms : List VoiceId) (s : State) : List VoiceId → Bool
  | [] => false
  | v :: r =>
    let k := s.core.act
    if ms.contains v then
      match memberTrial ex s v with
      | some t =>
        if (getVoice t k v).mark = .stalled ∨ (getVoice t k v).mark = .yielding then true
        else if (getVoice t k v).mark = .trapped then setHeld ex ms s r
        else setHeld ex ms { t with turn := s.turn } r
      | none => setHeld ex ms s r
    else if voiceReady s v then
      match alone ex s v with
      | some t => setHeld ex ms { t with turn := s.turn } r
      | none => setHeld ex ms s r
    else setHeld ex ms s r

/-- The lockstep set is complete but for its banks: every voice in it presents an S word, and none of them is held back by
another stall (R82). -/
def setReady (ex : Meaning) (s : State) : Bool :=
  let ms := syncMembers s
  ms.all (fun v => voiceReady s v && presentsS s v) && !setHeld ex ms { s with sgo := true } allVoices

/-- The banks serve every member in this cycle: its vector reads, and voice A's scratchpad lines. -/
def setServed (s : State) : Bool :=
  (syncMembers s).all (fun v => decide (readsLeft s (hereOf (atTurn s v)) = []) &&
    (decide (v ≠ .A) || decide (banksRefused s s.core.act = [])))

def setComplete (ex : Meaning) (s : State) : Bool := setReady ex s && setServed s

/-- A complete set whose banks do not serve it all serves what reads it can before any word of it issues, and is charged for what
a scratchpad bank refuses voice A (R82, R85, R94). -/
def serveSet (s : State) : List VoiceId → State
  | [] => s
  | v :: r =>
    serveSet (if v.isX then { serveReads (atTurn s v) (hereOf (atTurn s v)) with turn := s.turn }
      else if v = .A then chargeBanks s s.core.act 0 (banksRefused s s.core.act)
      else s) r

/-- How a voice's word would end: `some true` a stop in this cycle, `some false` a TRAP, which retires first. -/
def stopsAlone (ex : Meaning) (s : State) (v : VoiceId) : Option Bool :=
  if voiceReady s v then
    match alone ex s v with
    | none => some true
    | some t =>
      if (getVoice t s.core.act v).mark = .trapped then some true
      else if (getSlot t s.core.act).trapped.isSome then some false
      else none
  else none

/-- The first voice that traps, unless a TRAP comes before it (R25). -/
def firstStop (ex : Meaning) (s : State) : List VoiceId → Option VoiceId
  | [] => none
  | v :: r =>
    match stopsAlone ex s v with
    | some true => some v
    | some false => none
    | none => firstStop ex s r

/-- The voices' turns begin: at the trapping voice alone, so that no other voice issues in the cycle (R170), or at A. -/
def beginTurns (ex : Meaning) (s00 : State) : State :=
  let s : State := { s00 with syncNow := (getCtl s00 s00.core.act).syncset }
  let ready := setReady ex s
  let go := ready && setServed s
  let s0 := if ready && !go then serveSet s (syncMembers s) else s
  let s1 : State := { s0 with sgo := go }
  match firstStop ex s1 allVoices with
  | some v => { s1 with turn := voiceTurn v }
  | none => { s1 with turn := 1 }

/-! ### The end of the cycle -/

/-- A voice of the other slot could issue in this cycle were its slot holding issue (R79). A voice whose word needs more than one
cycle of bank reads could not: its reads are not served while its slot does not hold issue (DESIGN CHOICE, log entry 112). -/
def otherCould (ex : Meaning) (s : State) : Bool :=
  let k := 1 - s.core.act
  let o : State := { s with core := { s.core with act := k, deadTill := 0 }, syncNow := (getCtl s k).syncset }
  let o1 : State := { o with sgo := setComplete ex o }
  allVoices.any (fun v => voiceReady o1 v &&
    (match alone ex o1 v with
     | some t => decide ((getVoice t k v).mark = .issued) || decide ((getVoice t k v).mark = .trapped)
     | none => true))

/-- A TRAP that issued in this cycle stops the thread; its record holds the next schedule cycle (R72, R170). -/
def stopTrapped (s : State) (k : Nat) : State :=
  let x := getSlot s k
  match x.trapped with
  | some (v, w) => if x.run = .running ∨ x.run = .handler then stopThread s k 0x06 (some v) false 0 w (s.now + 1) x.scyc else s
  | none => s

/-- The voice has stalled in the cycle. -/
def stalled (s : State) (k : Nat) (v : VoiceId) : Bool :=
  decide ((getVoice s k v).mark = .stalled) || decide ((getVoice s k v).mark = .yielding)

def residentSlot (s : State) (k : Nat) : Bool := decide ((getSlot s k).run ≠ .empty)

/-- The schedule cycle moves on; a breakpoint that a rollback has reached moves with it (R288). -/
def nextScyc (s : State) (x : Slot) : Slot :=
  let waits := s.core.rollAt.isSome && (getCtx s x.thread.ctx).session.isSome && decide (x.breakAt = some x.scyc)
  { x with scyc := x.scyc + 1, breakAt := if waits then some (x.scyc + 1) else x.breakAt }

/-- SCYC counts every cycle in which the slot holds issue, and with it event 1, in voice A's clause (log entry 34); the dead cycle and a freeze count for neither slot (R80). -/
def countIssue (s : State) : State :=
  let k := s.core.act
  if residentSlot s k && clockRuns s && decide (s.core.deadTill ≤ s.now) then
    let s1 := setSlot s k (nextScyc s (getSlot s k))
    allVoices.foldl (fun t v => if stalled t k v then pmCount t k (curClause t k v) 3 1 else t) (pmCount s1 k (curClause s1 k .A) 1 1)
  else s

/-- A command of the slot is at work on an engine: 1 copy, 2 array. -/
def engineBusy (s : State) (k eng : Nat) : Bool :=
  s.core.cmds.any (fun m => decide (m.slot = k) && decide (m.eng = eng) && decide (m.state ≠ .queued) && !m.retired)

/-- The banks that refuse, in this cycle, the engines that work for the slot: free values, charged to the slot that issued the
command (R295; log entry 84). -/
def engineRefusals (s : State) (k eng : Nat) : State :=
  if engineBusy s k eng then
    chargeBanks s k (4 - eng)
      ((List.range 32).filter (fun b => Config.engineRefused s.now (64 * k + 32 * (2 - eng) + b)))
  else s

def countRefusals (s : State) : State :=
  if clockRuns s then
    [0, 1].foldl (fun t k => if residentSlot t k then engineRefusals (engineRefusals t k 2) k 1 else t) s
  else s

def countCycle (s : State) : State := countRefusals (countIssue s)

/-- A slot whose thread has nothing left to issue. -/
def nothingLeft (s : State) (k : Nat) : Bool :=
  let r := (getSlot s k).run
  (decide (r = .empty) || decide (r = .dead) || decide (r = .preempted) || decide (r = .ended)) &&
    allVoices.all (fun v => decide ((getVoice s k v).mark ≠ .issued))

/-- A slot whose thread has nothing left to issue gives way to one that has, with the dead cycle of R79. -/
def passIssue (s : State) : State :=
  let k := s.core.act
  if nothingLeft s k && !nothingLeft s (1 - k) then
    { s with core := { s.core with act := 1 - k, deadTill := s.now + 2 } }
  else s

/-- Voice C of a slot waits on an ENQ to a full queue (R204). -/
def enqWaits (s : State) (k : Nat) : Bool :=
  match (getSlot s k).run, pipeAt s k with
  | .running, some (p, st, d) =>
    (match fetchAt s k .C (getArch s k .C).na0.addr.toNat with
     | .word w => (match decodeWord w with | some (.enq _ _ _ _) => true | _ => false)
     | _ => false) && !pipeRoom s p st d
  | _, _ => false

/-- A checkpointed thread of the pipeline stands at such an ENQ. -/
def savedEnqWaits (s : State) (p : Nat) (m : SavedThread) : Bool :=
  let ctx := m.slot.thread.ctx
  match pipeOf m.slot.thread, pipeDecl s ctx p with
  | some (_, st), some d =>
    (match readVirt s (getCtx s ctx) m.slot.vC.a.na0.addr.toNat 4 with
     | .ok bs => (match decodeWord (BitVec.ofNat 32 (leNat bs)) with | some (.enq _ _ _ _) => true | _ => false)
     | _ => false) && !pipeRoom s p st d
  | _, _ => false

/-- Pipelines with threads on slots of the cluster. -/
def livePipes (s : State) : List Nat :=
  dedup ([0, 1].filterMap (fun k => if residentSlot s k then (pipeAt s k).map (fun x => x.1) else none) ++
    s.cluster.away.filterMap (fun t => t.stage.map (fun x => x.1)))

/-- The cycle from which every thread of a pipeline has waited on ENQ. -/
def notePipes (s : State) : State :=
  let ps := (livePipes s).filter (fun p => (pipeSlots s p).all (enqWaits s) && (pipeSaved s p).all (fun x => savedEnqWaits s p x.2) &&
    (pipeAway s p).all (fun t => t.waits))
  let old := s.cluster.pipeStall
  if ps = [] ∧ old = [] then s
  else setCluster s { s.cluster with pipeStall := ps.foldl (fun m p => mput m p (mget s.now old p)) [] }

/-- In an S cycle every member's next words follow all that the members have issued, and what precedes it (R235). -/
def linkSet (s : State) : State :=
  let k := s.core.act
  let ms := syncMembers s
  if s.sgo ∧ ms ≠ [] ∧ ms.all (fun v => decide ((getVoice s k v).mark = .issued)) = true then
    let before := ms.foldl (fun o v => putOrd (joinOrd o (getVoice s k v).ord) v (freshId s)) []
    ms.foldl (fun t v => joinVoice t k v before) s
  else s

/-- The end of a cycle that has been counted. -/
def endCycle (s0 : State) : State :=
  let s := linkSet s0
  let s1 := stopTrapped (stopTrapped s 0) 1
  let s2 := notePipes (passIssue s1)
  let s3 := setSlot (setSlot s2 0 (clearMarks (getSlot s2 0))) 1 (clearMarks (getSlot s2 1))
  let s4 := flushTraces { s3 with core := { s3.core with counted := [] } }
  { s4 with turn := 0, pastEdge := false, sgo := false, otherGo := false, now := s4.now + 1, served := [], granted := [], banksUsed := [] }

def tick (s : State) : State := endCycle (countCycle s)

/-- Give the next voice its turn, unless the voice has left a wait and may issue in the same cycle. A word of voice A that has
issued has used its banks (R94). -/
def nextTurn (s t : State) : State :=
  let h := hereOf s
  if markAt t h = .idle then t
  else { t with turn := s.turn + 1, banksUsed := if h.v = .A ∧ markAt t h = .issued then banksOfA s h.k else t.banksUsed }

def afterVoice (s : State) : Out → Out
  | .next t => .next (nextTurn s t)
  | o => o

def afterYield : Out → Out
  | .next t => .next (endCycle t)
  | o => o

/-! ### Waits of a slot that does not issue -/

/-- The slot cannot issue in this cycle: the other holds issue, or it is the dead cycle of a switch (R79). -/
def parked (s : State) (k : Nat) : Bool := decide (k ≠ s.core.act) || decide (s.now < s.core.deadTill)

/-- A voice of such a slot leaves a wait that has ended; its result's latency counts from there (R231, R261, R277). -/
def leaveParked (ex : Meaning) (s : State) (k : Nat) (v : VoiceId) : State :=
  if parked s k && (getArch s k v).wait.isSome && voicePresents s k v then
    match alone ex { s with core := { s.core with act := k } } v with
    | some t =>
      if (getArch t k v).wait = none ∧ (getVoice t k v).mark ≠ .trapped then
        let u := setVoice t k v { getVoice t k v with mark := .idle }
        { u with core := { u.core with act := s.core.act }, turn := s.turn }
      else s
    | none => s
  else s

def leavesParked (ex : Meaning) (s : State) : State :=
  allVoices.foldl (fun t v => leaveParked ex (leaveParked ex t 0 v) 1 v) s

/-! ### The step -/

/-- Inputs that are strike reports, by region: sequencing, engine, storage. -/
def reportRank : Input → Option Nat
  | .ev (.strikeReport r) => some (min r 3)
  | _ => none

def insertReport (x : Input) (n : Nat) : List Input → List Input
  | [] => [x]
  | y :: r => if n < (reportRank y).getD n then x :: y :: r else y :: insertReport x n r

/-- The strike reports of a cycle are applied before its other inputs, so that no clause seals in the cycle of a report (R172), and in
the order of their regions (R171). -/
def orderInbox (l : List Input) : List Input :=
  l.foldr (fun x r => match reportRank x with | some n => insertReport x n r | none => r) [] ++
    l.filter (fun x => decide (reportRank x = none))

/-- The region of the report the inbox has for the core; 3 where it has none. -/
def inboxReport (s : State) : Nat := ((orderInbox s.inbox).head?.bind reportRank).getD 3

/-- The stream has been served, or cannot be any more. -/
def afterService (_g : Nat) (r : List Nat) : Out → Out
  | .next t => .next { t with granted := r }
  | o => o

/-- The session's debugger is told of a BRK at the edge of the cycle in which it would issue (R288, R290): the voice that presents it,
as it is once the cycle's results have landed, is the first to stop. -/
def brkVoice (ex : Meaning) (s : State) : Option VoiceId :=
  let k := s.core.act
  let presents (v : VoiceId) : Bool :=
    voiceReady s v && !(getArch s k v).na0.nul &&
      (match fetchAt s k v (getArch s k v).na0.addr.toNat with
       | .word w => decide (fld w 25 6 = 0x3F)
       | _ => false)
  if (threadCtx s k).session.isSome && !s.pastEdge && allVoices.any presents then
    let one (t : State) (v : VoiceId) : State := setArch t k v (landDue (getArch t k v) t.now)
    let t := allVoices.foldl one s
    (firstStop ex { t with syncNow := (getCtl t k).syncset } allVoices).filter presents
  else none

/-- The stop of a BRK, before the results of its cycle land; none where there is none, or its image cannot be written. -/
def brkStop (ex : Meaning) (s : State) : Option State :=
  match brkVoice ex s with
  | some _ => debugStop s s.core.act 2 (getSlot s s.core.act).imageAt
  | none => none

/-- The end of the voices' turns: voices off issue leave waits that have ended, the yield of R79 is judged on the stalls of the cycle,
and the banks serve the streams. -/
def endTurns (ex : Meaning) (s0 : State) : State :=
  let s := leavesParked ex s0
  let t : State := { s with otherGo := allWait s && otherCould ex s }
  { arbitrate t with turn := 6 }

/-- One step: an input or a due event between cycles, the choice at the cycle's start, a voice's turn, or the end of the cycle.
An input that is a word is none of the table's events and does nothing. -/
def stepWith (ex : Meaning) (ext : Nat → Nat → BitVec 16 → Effect → State → State) (s : State) : Out :=
  if s.turn = 0 then
    match (match dueStop s (inboxReport s) with | some f => some f | none => dueMarker s), orderInbox s.inbox with
    | some f, _ => f s
    | none, .ev i :: r => if (encode i).isSome then .next { s with inbox := r } else ex i { s with inbox := r }
    | none, .ext c m t e :: r =>
      match dueBefore s m with
      | some f => f s
      | none => .next (ext c m t e { s with inbox := r })
    | none, .stolen x :: r => .next { s with inbox := r, cluster := { s.cluster with stolen := s.cluster.stolen ++ [x] } }
    | none, .packet p :: r => .next (arrivePacket { s with inbox := r } (packetBad p) p)
    | none, .replay l q :: r => .next (replayLink { s with inbox := r } l q)
    | none, .limits n a b f :: r => .next (setLimits { s with inbox := r } n a b f)
    | none, .placed i m :: r => .next (placedElsewhere { s with inbox := r } i m)
    | none, .away m w :: r => .next (awayEvent { s with inbox := r } m w)
    | none, .saveArea a :: r => .next { s with inbox := r, cluster := { s.cluster with saveArea := a } }
    | none, .refused p q :: r => .next (refuseSteal { s with inbox := r } p q)
    | none, .bar0Read o :: r => .next (readBar0 { s with inbox := r } o)
    | none, .config c :: r => .next { s with inbox := r, pkg := { s.pkg with nextConfig := some c } }
    | none, .failing l :: r => .next { s with inbox := r, pkg := { s.pkg with failing := l } }
    | none, .job k d :: r => .next (setJobEntry { s with inbox := r } k d)
    | none, [] =>
      match brkStop ex s, dueEvent s with
      | some t, _ => .next t
      | none, some f => f s
      | none, none => .next (beginTurns ex s)
  else if s.turn ≤ 4 then
    if voiceReady s (turnVoice s.turn) then afterVoice s (runVoice ex s) else .next { s with turn := s.turn + 1 }
  else if s.turn = 5 then .next (if clockRuns s then endTurns ex s else { s with turn := 6 })
  else
    match s.granted with
    | g :: r => afterService g r (ex (.streamService (g / 8) (g % 8)) s)
    | [] =>
      if s.otherGo then afterYield (ex .slotYield (countCycle s)) else .next (tick s)

end Sys2Proof.Machine
end

