-- ==== Sys2Proof/Machine/Place.lean ====
section
/-! DEFINITION. A word placed where the next step fetches: a context with one executable page, a resident thread, the turn of
a voice that may run the word. This stands for the load of a program from outside the machine (R187, R197). -/

namespace Sys2Proof.Machine

/-- The voice that may run a word of a major (Tables 3.7 and 3.8), and VRND or VFLAGS of the status space. -/
def placeVoice (i : Instr) (w : BitVec 32) : VoiceId :=
  let m := (fld w 25 6).toNat
  match i with
  | .srd _ _ _ n => if n = 3 ∨ n = 4 then .X0 else .C
  | .swr _ _ _ n => if n = 3 ∨ n = 4 then .X0 else .C
  | .rdh _ _ _ _ b => if b.toNat < 2 then .C else .X0
  | .eret _ _ => .A
  | .lbqry _ _ _ _ => .A
  | .commit _ _ _ _ => .A
  | _ =>
    if 0x19 ≤ m ∧ m ≤ 0x22 then .X0
    else if (0x14 ≤ m ∧ m ≤ 0x18) ∨ (0x2D ≤ m ∧ m ≤ 0x31) then .A
    else .C

/-- Physical addresses of the page table's two levels; the code is at virtual and physical address 0. -/
def placeRoot : Nat := 0x100000
def placeTable : Nat := 0x101000

/-- A pointer to the second level, and a 1 GiB leaf over frame 0: V, L, R, W, X, U, SIZE 2, KIND RC (R214). -/
def placePointer : Nat := placeTable / 256 * 2 ^ 24 + 1
def placeLeaf : Nat := 0x1BF

/-- A context with the table, mapping the first GiB. -/
def placeCtx : Context := { Context.fresh with root := placeRoot, clusters := 1, smode := true }

/-- A thread with the whole scratchpad as its window. -/
def placeThread : Thread := { Thread.none with smode := true, winLen := 1024 }

def placedVoice (x : Voice) : Voice :=
  { x with a := VoiceArch.fresh 0, img := VoiceArch.fresh 0, replay := none, second := false, mark := .idle }

/-- The voices of the thread start at address 0. -/
def placedSlot (x : Slot) (hd : Bool) (now : Nat) : Slot :=
  { x with
    run := if hd then .handler else .running, stop := none, trapped := none, startAt := now, thread := placeThread
    vA := placedVoice x.vA, vX0 := placedVoice x.vX0, vX1 := placedVoice x.vX1, vC := placedVoice x.vC }

def isEret : Instr → Bool
  | .eret _ _ => true
  | _ => false

/-- The machine with a word at address 0 of a thread that issues next. -/
def placeWord (s : State) (w : BitVec 32) : State :=
  let i := (decodeWord w).getD (.nop 0 0)
  let m1 := writeBytes (writeBytes (writeBytes (writeBytes s.pkg.mem 0 (leBytes 4 w.toNat)) 4 [0, 0, 0, 0]) placeRoot
    (leBytes 8 placePointer)) placeTable (leBytes 8 placeLeaf)
  let core := { s.core with
    act := 0, deadTill := 0, rollAt := none, freeze := none, fenced := false, itlbA := [], itlbX0 := [], itlbX1 := [],
    itlbC := [], dtlb := [], slot0 := placedSlot s.core.slot0 (isEret i) s.now }
  let s1 : State := { s with
    core := core
    pkg := { s.pkg with mem := m1, poison := [], l2tlb := [], walkCache := [], contexts := mput s.pkg.contexts 0 placeCtx }
    turn := voiceTurn (placeVoice i w), sgo := true }
  openAll s1 0 allVoices

end Sys2Proof.Machine
end

