-- ==== Sys2Proof/Machine/Step.lean ====
section
/-! DEFINITION. The step of the machine: the cycle of Machine/Cycle.lean over the dispatch. -/

namespace Sys2Proof.Machine

/-- One step of the machine. -/
def step (s : State) : Host.Outcome State Fault Refusal := stepWith exec extEffect s

/-- The state with an instruction, numbered as the opcode table numbers it, where the next step fetches. -/
def State.withFetchWord (s : State) (nbits w : Nat) : State := if nbits = 0 then s else placeWord s (BitVec.ofNat 32 w)

end Sys2Proof.Machine
end

