-- ==== Sys2Proof/Safety.lean ====
section
/-! DEFINITION. What a safe run is, and the terms in which claims speak of a step: where a word takes effect (R46), what it has
room for (R24), what it wrote, and what it left alone. -/

namespace Sys2Proof

/-- `n` steps from `s`, where none faults or refuses. -/
def Runs : Nat → Machine.State → Machine.State → Prop
  | 0, s, t => s = t
  | n + 1, s, t => ∃ u, Machine.step s = .next u ∧ Runs n u t

/-- No step of a run of any length from `s` faults or refuses. -/
def Safe (s : Machine.State) : Prop := ∀ n t, Runs n s t → ∃ u, Machine.step t = .next u

namespace Machine

/-! ### Where a word takes effect -/

/-- R46 lets a word of this S and C bit, these voices and this privilege take effect: its lockstep set issues and none of it
has exited (R82, R83), it stands where it may (R31, R40), its voice and its level may run it. -/
abbrev Takes (s : State) (sb cb : BitVec 1) (perm : Perm) (priv : Bool) : Prop :=
  (lockstep s (hereOf s) sb = true → s.sgo = true ∧ lockstepDead s (hereOf s) = false) ∧
  pairBad s (hereOf s) sb cb = false ∧ perm.ok (hereOf s).v = true ∧
  (priv = true → (slotAt s (hereOf s)).thread.smode = true)

/-- The word is not nullified and the voice is in no wait. -/
abbrev Plain (s : State) : Prop := (hereOf s).nul = false ∧ (archAt s (hereOf s)).wait = none

/-- The word's predicate is true (R19). -/
abbrev Live (s : State) (p : BitVec 3) : Prop := visP (archAt s (hereOf s)) p = true

/-- The issuing voice. -/
abbrev me (s : State) : VoiceArch := archAt s (hereOf s)

/-- The writes have room in the pending-result file and meet no clash that traps (R18, R24). -/
abbrev Room (s : State) (ws : List Wr) : Prop :=
  fileFull (hereOf s).v (me s) (needs ws) = false ∧
    ((me s).clashtrap = true → ws.any (fun w => clashes (me s) w.reg) = false)

/-! ### What a word did -/

/-- What a word that issues does: `arch` to its voice (FLIP exchanges the faces, a waiting word sets its wait), then faced
writes and the move of the chain; whether its clause closes; the change of its slot's control state, of the knots and of the
cluster; the effects its clause holds, the queue values and the transfers on their way; the places in thread order of the words it
takes something from (R235). -/
structure Doing where
  arch : VoiceArch → VoiceArch := id
  writes : List Wr := []
  flow : Flow := .seq
  closes : Bool := false
  mark : Mark := .issued
  ctl : Ctl → Ctl := id
  knots : Knots → Knots := id
  cluster : Cluster → Cluster := id
  held : List Effect := []
  fills : List Fill := []
  xfers : List Xfer := []
  links : List (List Nat) := []

/-- The word has stalled: nothing but the voice's mark has changed. -/
abbrev Stalls (s : State) (i : Instr) (yields : Bool) : Prop :=
  exec i s = .next (setMark s (hereOf s) (if yields then .yielding else .stalled))

/-! ### What a word left alone -/

/-- Two control states agree but for status registers. -/
def CtlLike (a b : Ctl) : Prop := b = { a with status := b.status }

/-- Every other voice of the thread and the other slot whole. -/
abbrev KeptVoices (h : Here) (s t : State) : Prop :=
  (∀ u, u ≠ h.v → getArch t h.k u = getArch s h.k u) ∧ (∀ j, ¬(j = 0 ↔ h.k = 0) → getSlot t j = getSlot s j)

/-- The slot's own state beside its voices: what it runs, its stop, publish buffers, counters; its queue values and transfers
but for those the word adds. -/
abbrev KeptSlot (h : Here) (s t : State) (fs : List Fill) (xs : List Xfer) : Prop :=
  (slotAt t h).run = (slotAt s h).run ∧ (slotAt t h).stop = (slotAt s h).stop ∧ (slotAt t h).trapped = (slotAt s h).trapped ∧
  (slotAt t h).pubs = (slotAt s h).pubs ∧ (slotAt t h).fills = (slotAt s h).fills ++ fs ∧
  (slotAt t h).qvals = (slotAt s h).qvals ∧ (slotAt t h).xfers = (slotAt s h).xfers ++ xs ∧
  (slotAt t h).arrived = (slotAt s h).arrived ∧ (slotAt t h).scyc = (slotAt s h).scyc ∧
  (slotAt t h).rollcnt = (slotAt s h).rollcnt ∧ (slotAt t h).undoovf = (slotAt s h).undoovf

/-- The array: cells, headers, gradients, tiles, the affine table. -/
abbrev KeptArray (s t : State) : Prop :=
  t.core.cells = s.core.cells ∧ t.core.headers = s.core.headers ∧ t.core.grads = s.core.grads ∧ t.core.tiles = s.core.tiles ∧
  t.core.affine = s.core.affine

/-- Every byte of core scratchpad; and, unless the thread is traced (a loop's exit writes a record, R295), every byte of device
memory and the package but for what its TLB and walkers hold. -/
abbrev KeptMemory (h : Here) (s t : State) : Prop :=
  (∀ a, sget t.core.spad a = sget s.core.spad a) ∧
    ((threadCtx s h.k).trace = none → (∀ a, sget t.pkg.mem a = sget s.pkg.mem a) ∧
      t.pkg = { s.pkg with mem := t.pkg.mem, l2tlb := t.pkg.l2tlb, walkCache := t.pkg.walkCache, walks := t.pkg.walks })

/-- The control state of the slot is changed by `f`, the knots by `g`; the other slot's is kept; all but for the counters PMC
of R296. -/
abbrev KeptCtl (h : Here) (s t : State) (f : Ctl → Ctl) (g : Knots → Knots) : Prop :=
  CtlLike (f (getCtl s h.k)) (getCtl t h.k) ∧ (∀ j, ¬(j = 0 ↔ h.k = 0) → getCtl t j = getCtl s j) ∧
  t.core.ctl.knots = g s.core.ctl.knots ∧
  (mwf 0 (getCtl s h.k).status = true → ∀ n, n < 0x38 ∨ 0x3B < n →
    sget (getCtl t h.k).status n = sget (f (getCtl s h.k)).status n)

/-- What precedes the next word of a voice once the word has taken what stands at the places `links` (R235). -/
abbrev ordWith (h : Here) (s : State) (links : List (List Nat)) (v : VoiceId) : List Nat :=
  if v = h.v then links.foldl joinOrd (getVoice s h.k v).ord else (getVoice s h.k v).ord

/-- The place in thread order of the word's effect or queue entry number `n` (R235). -/
abbrev placeWith (h : Here) (s : State) (links : List (List Nat)) (n : Nat) : List Nat :=
  match voiceOfClause s.core (clauseAt s h) with
  | some v => putOrd (ordWith h s links v) v (s.core.nextId + n)
  | none => []

/-- Effects with their numbers, held for the clause of the word (R174). -/
abbrev heldBy (h : Here) (s : State) (links : List (List Nat)) (es : List Effect) : List Held :=
  es.mapIdx (fun n e => ⟨s.core.nextId + n, h.k, clauseAt s h, placeWith h s links n, e⟩)

/-- Every voice's place in thread order, but for what the word's links add to its own. -/
abbrev KeptOrder (h : Here) (s t : State) (links : List (List Nat)) : Prop :=
  ∀ v, (getVoice t h.k v).ord = ordWith h s links v

/-- What the core holds back, but for what the word adds; what it has sent out; the commands in its engines; its remote
writes. -/
abbrev KeptHeld (h : Here) (s t : State) (es : List Effect) (links : List (List Nat) := []) : Prop :=
  t.core.held = s.core.held ++ heldBy h s links es ∧ t.core.out = s.core.out ∧ t.core.cmds = s.core.cmds ∧ t.core.nwrs = s.core.nwrs

/-- The inputs and the place in the cycle. -/
abbrev KeptAround (s t : State) : Prop := t.inbox = s.inbox ∧ t.now = s.now ∧ t.turn = s.turn

/-- The word's clause stays open, or is closed and a later one is open (R172). -/
abbrev ClauseAfter (h : Here) (s t : State) (closes : Bool) : Prop :=
  if closes then s.core.nextId ≤ clauseAt t h else clauseAt t h = clauseAt s h

/-- From `s` to `t` the word has done what `d` says and has left everything else alone. -/
def Did (s t : State) (d : Doing) : Prop :=
  archAt t (hereOf s) = (advance (recordAll s.now (d.arch (me s)) d.writes) d.flow).1 ∧
  (getVoice t (hereOf s).k (hereOf s).v).mark = d.mark ∧ ClauseAfter (hereOf s) s t d.closes ∧
  KeptVoices (hereOf s) s t ∧ KeptSlot (hereOf s) s t d.fills d.xfers ∧ KeptArray s t ∧ KeptMemory (hereOf s) s t ∧
  KeptCtl (hereOf s) s t d.ctl d.knots ∧ KeptHeld (hereOf s) s t d.held d.links ∧ KeptOrder (hereOf s) s t d.links ∧
  t.cluster = d.cluster s.cluster ∧ KeptAround s t

/-! ### The fate of a word (R46) -/

/-- The S and C bits of a word, the voices and the level of Tables 3.7 and 3.8. -/
structure WordClass where
  sb : BitVec 1
  cb : BitVec 1
  perm : Perm
  priv : Bool
  deriving DecidableEq, Repr

/-- Tables 3.7 and 3.8, word by word; an event is no word. -/
def wordClass : Instr → Option WordClass
  | .lui sb _ _ => some ⟨sb, 0, .all, false⟩
  | .lapc sb _ _ => some ⟨sb, 0, .all, false⟩
  | .addi sb _ _ _ _ => some ⟨sb, 0, .all, false⟩
  | .andi sb _ _ _ _ => some ⟨sb, 0, .all, false⟩
  | .ori sb _ _ _ _ => some ⟨sb, 0, .all, false⟩
  | .xori sb _ _ _ _ => some ⟨sb, 0, .all, false⟩
  | .shli sb _ _ _ _ => some ⟨sb, 0, .all, false⟩
  | .shri sb _ _ _ _ => some ⟨sb, 0, .all, false⟩
  | .srai sb _ _ _ _ => some ⟨sb, 0, .all, false⟩
  | .roli sb _ _ _ _ => some ⟨sb, 0, .all, false⟩
  | .cmpeqi sb _ _ _ _ => some ⟨sb, 0, .all, false⟩
  | .cmplti sb _ _ _ _ => some ⟨sb, 0, .all, false⟩
  | .cmpltni sb _ _ _ _ => some ⟨sb, 0, .all, false⟩
  | .add sb _ _ _ _ => some ⟨sb, 0, .all, false⟩
  | .sub sb _ _ _ _ => some ⟨sb, 0, .all, false⟩
  | .and sb _ _ _ _ => some ⟨sb, 0, .all, false⟩
  | .or sb _ _ _ _ => some ⟨sb, 0, .all, false⟩
  | .xor sb _ _ _ _ => some ⟨sb, 0, .all, false⟩
  | .andn sb _ _ _ _ => some ⟨sb, 0, .all, false⟩
  | .shl sb _ _ _ _ => some ⟨sb, 0, .all, false⟩
  | .shr sb _ _ _ _ => some ⟨sb, 0, .all, false⟩
  | .sra sb _ _ _ _ => some ⟨sb, 0, .all, false⟩
  | .rol sb _ _ _ _ => some ⟨sb, 0, .all, false⟩
  | .min sb _ _ _ _ => some ⟨sb, 0, .all, false⟩
  | .max sb _ _ _ _ => some ⟨sb, 0, .all, false⟩
  | .minn sb _ _ _ _ => some ⟨sb, 0, .all, false⟩
  | .maxn sb _ _ _ _ => some ⟨sb, 0, .all, false⟩
  | .mul sb _ _ _ _ => some ⟨sb, 0, .all, false⟩
  | .mulh sb _ _ _ _ => some ⟨sb, 0, .all, false⟩
  | .mulhn sb _ _ _ _ => some ⟨sb, 0, .all, false⟩
  | .clz sb _ _ _ => some ⟨sb, 0, .all, false⟩
  | .popc sb _ _ _ => some ⟨sb, 0, .all, false⟩
  | .sext sb _ _ _ _ => some ⟨sb, 0, .all, false⟩
  | .zext sb _ _ _ _ => some ⟨sb, 0, .all, false⟩
  | .sel sb _ _ _ _ => some ⟨sb, 0, .all, false⟩
  | .cmpeq sb _ _ _ _ => some ⟨sb, 0, .all, false⟩
  | .cmpne sb _ _ _ _ => some ⟨sb, 0, .all, false⟩
  | .cmplt sb _ _ _ _ => some ⟨sb, 0, .all, false⟩
  | .cmple sb _ _ _ _ => some ⟨sb, 0, .all, false⟩
  | .cmpltn sb _ _ _ _ => some ⟨sb, 0, .all, false⟩
  | .cmplen sb _ _ _ _ => some ⟨sb, 0, .all, false⟩
  | .pand sb _ _ _ _ => some ⟨sb, 0, .all, false⟩
  | .por sb _ _ _ _ => some ⟨sb, 0, .all, false⟩
  | .pxor sb _ _ _ _ => some ⟨sb, 0, .all, false⟩
  | .pnot sb _ _ _ => some ⟨sb, 0, .all, false⟩
  | .br sb _ _ => some ⟨sb, 0, .all, false⟩
  | .brn sb _ _ => some ⟨sb, 0, .all, false⟩
  | .brt sb _ _ => some ⟨sb, 0, .all, false⟩
  | .call sb _ _ => some ⟨sb, 0, .all, false⟩
  | .jr sb _ _ _ => some ⟨sb, 0, .all, false⟩
  | .jtb sb _ _ _ _ => some ⟨sb, 0, .all, false⟩
  | .loop sb _ _ _ => some ⟨sb, 0, .all, false⟩
  | .flip sb _ => some ⟨sb, 0, .all, false⟩
  | .rdh sb _ _ _ b => some ⟨sb, 0, if b.toNat < 2 then .all else .x, false⟩
  | .spost sb _ _ _ => some ⟨sb, 0, .all, false⟩
  | .swait sb _ _ => some ⟨sb, 0, .all, false⟩
  | .bqput sb _ _ _ => some ⟨sb, 0, .all, false⟩
  | .nop sb _ => some ⟨sb, 0, .all, false⟩
  | .exit sb _ => some ⟨sb, 0, .all, false⟩
  | .bqbr sb _ => some ⟨sb, 0, .all, false⟩
  | .bqbrn sb _ => some ⟨sb, 0, .all, false⟩
  | .bqbrt sb _ => some ⟨sb, 0, .all, false⟩
  | .trap sb _ _ => some ⟨sb, 0, .all, false⟩
  | .eret sb _ => some ⟨sb, 0, .a, false⟩
  | .srd sb _ _ n => some ⟨sb, 0, if n = 3 ∨ n = 4 then .x else .all, false⟩
  | .swr sb _ _ n => some ⟨sb, 0, if n = 3 ∨ n = 4 then .x else .all, false⟩
  | .brk _ _ => some ⟨0, 0, .all, false⟩
  | .lds sb _ _ _ _ _ _ => some ⟨sb, 0, .a, false⟩
  | .sts sb _ _ _ _ _ _ => some ⟨sb, 0, .a, false⟩
  | .ldq sb _ _ _ _ _ => some ⟨sb, 0, .a, false⟩
  | .stq sb _ _ _ _ _ => some ⟨sb, 0, .a, false⟩
  | .qpush sb _ _ _ => some ⟨sb, 0, .a, false⟩
  | .qpushSq sb _ _ _ => some ⟨sb, 0, .a, false⟩
  | .sbind sb _ _ _ _ => some ⟨sb, 0, .a, false⟩
  | .sunbind sb _ _ => some ⟨sb, 0, .a, false⟩
  | .spos sb _ _ _ => some ⟨sb, 0, .a, false⟩
  | .lbqry sb _ _ _ => some ⟨sb, 0, .ax, false⟩
  | .commit sb _ _ _ => some ⟨sb, 0, .ax, false⟩
  | .vaddI32 sb c _ _ _ _ _ => some ⟨sb, c, .x, false⟩
  | .vsubI32 sb c _ _ _ _ _ => some ⟨sb, c, .x, false⟩
  | .vmulI32 sb c _ _ _ _ _ => some ⟨sb, c, .x, false⟩
  | .vmulhI32 sb c _ _ _ _ _ => some ⟨sb, c, .x, false⟩
  | .vmulhnI32 sb c _ _ _ _ _ => some ⟨sb, c, .x, false⟩
  | .vminI32 sb c _ _ _ _ _ => some ⟨sb, c, .x, false⟩
  | .vmaxI32 sb c _ _ _ _ _ => some ⟨sb, c, .x, false⟩
  | .vminnI32 sb c _ _ _ _ _ => some ⟨sb, c, .x, false⟩
  | .vmaxnI32 sb c _ _ _ _ _ => some ⟨sb, c, .x, false⟩
  | .vandI32 sb c _ _ _ _ _ => some ⟨sb, c, .x, false⟩
  | .vorI32 sb c _ _ _ _ _ => some ⟨sb, c, .x, false⟩
  | .vxorI32 sb c _ _ _ _ _ => some ⟨sb, c, .x, false⟩
  | .vshlI32 sb c _ _ _ _ _ => some ⟨sb, c, .x, false⟩
  | .vshrI32 sb c _ _ _ _ _ => some ⟨sb, c, .x, false⟩
  | .vsraI32 sb c _ _ _ _ _ => some ⟨sb, c, .x, false⟩
  | .vcmpeqI32 sb c _ _ _ _ _ => some ⟨sb, c, .x, false⟩
  | .vcmpltI32 sb c _ _ _ _ _ => some ⟨sb, c, .x, false⟩
  | .vcmpltnI32 sb c _ _ _ _ _ => some ⟨sb, c, .x, false⟩
  | .vsel sb c _ _ _ _ _ => some ⟨sb, c, .x, false⟩
  | .vaddF32 sb c _ _ _ _ _ => some ⟨sb, c, .x, false⟩
  | .vsubF32 sb c _ _ _ _ _ => some ⟨sb, c, .x, false⟩
  | .vmulF32 sb c _ _ _ _ _ => some ⟨sb, c, .x, false⟩
  | .vminF32 sb c _ _ _ _ _ => some ⟨sb, c, .x, false⟩
  | .vmaxF32 sb c _ _ _ _ _ => some ⟨sb, c, .x, false⟩
  | .vabsF32 sb c _ _ _ _ => some ⟨sb, c, .x, false⟩
  | .vnegF32 sb c _ _ _ _ => some ⟨sb, c, .x, false⟩
  | .vcmpeqF32 sb c _ _ _ _ _ => some ⟨sb, c, .x, false⟩
  | .vcmpltF32 sb c _ _ _ _ _ => some ⟨sb, c, .x, false⟩
  | .vcmpleF32 sb c _ _ _ _ _ => some ⟨sb, c, .x, false⟩
  | .vaddF16 sb c _ _ _ _ _ => some ⟨sb, c, .x, false⟩
  | .vsubF16 sb c _ _ _ _ _ => some ⟨sb, c, .x, false⟩
  | .vmulF16 sb c _ _ _ _ _ => some ⟨sb, c, .x, false⟩
  | .vminF16 sb c _ _ _ _ _ => some ⟨sb, c, .x, false⟩
  | .vmaxF16 sb c _ _ _ _ _ => some ⟨sb, c, .x, false⟩
  | .vabsF16 sb c _ _ _ _ => some ⟨sb, c, .x, false⟩
  | .vnegF16 sb c _ _ _ _ => some ⟨sb, c, .x, false⟩
  | .vcmpeqF16 sb c _ _ _ _ _ => some ⟨sb, c, .x, false⟩
  | .vcmpltF16 sb c _ _ _ _ _ => some ⟨sb, c, .x, false⟩
  | .vcmpleF16 sb c _ _ _ _ _ => some ⟨sb, c, .x, false⟩
  | .vaddBf16 sb c _ _ _ _ _ => some ⟨sb, c, .x, false⟩
  | .vsubBf16 sb c _ _ _ _ _ => some ⟨sb, c, .x, false⟩
  | .vmulBf16 sb c _ _ _ _ _ => some ⟨sb, c, .x, false⟩
  | .vminBf16 sb c _ _ _ _ _ => some ⟨sb, c, .x, false⟩
  | .vmaxBf16 sb c _ _ _ _ _ => some ⟨sb, c, .x, false⟩
  | .vabsBf16 sb c _ _ _ _ => some ⟨sb, c, .x, false⟩
  | .vnegBf16 sb c _ _ _ _ => some ⟨sb, c, .x, false⟩
  | .vcmpeqBf16 sb c _ _ _ _ _ => some ⟨sb, c, .x, false⟩
  | .vcmpltBf16 sb c _ _ _ _ _ => some ⟨sb, c, .x, false⟩
  | .vcmpleBf16 sb c _ _ _ _ _ => some ⟨sb, c, .x, false⟩
  | .vfmaF32 sb c _ _ _ _ _ _ => some ⟨sb, c, .x, false⟩
  | .vfmsF32 sb c _ _ _ _ _ _ => some ⟨sb, c, .x, false⟩
  | .vfmaBf16 sb c _ _ _ _ _ _ => some ⟨sb, c, .x, false⟩
  | .vfmaF16 sb c _ _ _ _ _ _ => some ⟨sb, c, .x, false⟩
  | .vcvtF32I32 sb c _ _ _ _ _ => some ⟨sb, c, .x, false⟩
  | .vcvtI32F32 sb c _ _ _ _ _ => some ⟨sb, c, .x, false⟩
  | .vcvtF32F16 sb c _ _ _ _ _ => some ⟨sb, c, .x, false⟩
  | .vcvtF32Bf16 sb c _ _ _ _ _ => some ⟨sb, c, .x, false⟩
  | .vcvtF16F32 sb c _ _ _ _ _ _ => some ⟨sb, c, .x, false⟩
  | .vcvtBf16F32 sb c _ _ _ _ _ _ => some ⟨sb, c, .x, false⟩
  | .vcvtF32E4m3 sb c _ _ _ _ _ => some ⟨sb, c, .x, false⟩
  | .vcvtF32E5m2 sb c _ _ _ _ _ => some ⟨sb, c, .x, false⟩
  | .vcvtE4m3F32 sb c _ _ _ _ _ _ => some ⟨sb, c, .x, false⟩
  | .vcvtE5m2F32 sb c _ _ _ _ _ _ => some ⟨sb, c, .x, false⟩
  | .vpackB4 sb c _ _ _ _ _ => some ⟨sb, c, .x, false⟩
  | .vunpackB4 sb c _ _ _ _ _ => some ⟨sb, c, .x, false⟩
  | .vperm sb c _ _ _ _ _ => some ⟨sb, c, .x, false⟩
  | .vrot sb c _ _ _ _ _ => some ⟨sb, c, .x, false⟩
  | .vbcast sb c _ _ _ _ => some ⟨sb, c, .x, false⟩
  | .vredadd sb c _ _ _ _ => some ⟨sb, c, .x, false⟩
  | .vredmax sb c _ _ _ _ => some ⟨sb, c, .x, false⟩
  | .viredadd sb c _ _ _ _ => some ⟨sb, c, .x, false⟩
  | .vbspl sb c _ _ _ _ _ => some ⟨sb, c, .x, false⟩
  | .patC sb _ _ _ => some ⟨sb, 0, .c, false⟩
  | .pisC sb _ _ _ => some ⟨sb, 0, .c, false⟩
  | .patA sb _ _ _ => some ⟨sb, 0, .c, false⟩
  | .pisA sb _ _ _ => some ⟨sb, 0, .c, false⟩
  | .patS sb _ _ _ => some ⟨sb, 0, .c, false⟩
  | .pisS sb _ _ _ => some ⟨sb, 0, .c, false⟩
  | .tplC sb _ _ _ _ => some ⟨sb, 0, .c, false⟩
  | .tplA sb _ _ _ _ => some ⟨sb, 0, .c, false⟩
  | .tplS sb _ _ _ _ => some ⟨sb, 0, .c, false⟩
  | .cwait sb _ _ _ => some ⟨sb, 0, .c, false⟩
  | .cdisc sb _ _ _ => some ⟨sb, 0, .c, false⟩
  | .crd sb _ _ _ => some ⟨sb, 0, .c, false⟩
  | .rngset sb _ _ _ _ => some ⟨sb, 0, .c, false⟩
  | .rngrd sb _ _ _ => some ⟨sb, 0, .c, false⟩
  | .publish sb _ _ => some ⟨sb, 0, .c, false⟩
  | .kset sb _ _ _ => some ⟨sb, 0, .c, false⟩
  | .krd sb _ _ _ => some ⟨sb, 0, .c, false⟩
  | .katcmp sb _ _ _ => some ⟨sb, 0, .c, false⟩
  | .join sb _ _ _ => some ⟨sb, 0, .c, false⟩
  | .leave sb _ _ _ => some ⟨sb, 0, .c, false⟩
  | .grpq sb _ _ _ => some ⟨sb, 0, .c, false⟩
  | .barr sb _ _ _ _ => some ⟨sb, 0, .c, false⟩
  | .bwait sb _ _ _ _ => some ⟨sb, 0, .c, false⟩
  | .barw sb _ _ _ _ => some ⟨sb, 0, .c, false⟩
  | .finc sb _ _ _ _ => some ⟨sb, 0, .c, false⟩
  | .fwait sb _ _ _ _ => some ⟨sb, 0, .c, false⟩
  | .frd sb _ _ _ => some ⟨sb, 0, .c, false⟩
  | .fset sb _ _ _ _ => some ⟨sb, 0, .c, false⟩
  | .launch sb _ _ _ => some ⟨sb, 0, .c, false⟩
  | .launchn sb _ _ _ => some ⟨sb, 0, .c, false⟩
  | .evset sb _ _ _ => some ⟨sb, 0, .c, false⟩
  | .evclr sb _ _ _ => some ⟨sb, 0, .c, false⟩
  | .evwait sb _ _ _ _ => some ⟨sb, 0, .c, false⟩
  | .enq sb _ _ _ => some ⟨sb, 0, .c, false⟩
  | .deq sb _ _ _ => some ⟨sb, 0, .c, false⟩
  | .yield sb _ => some ⟨sb, 0, .c, false⟩
  | .taskinfo sb _ _ _ => some ⟨sb, 0, .c, false⟩
  | .ldg sb _ _ _ _ _ _ => some ⟨sb, 0, .a, false⟩
  | .stg sb _ _ _ _ _ _ => some ⟨sb, 0, .a, false⟩
  | .lda sb _ _ _ _ _ _ => some ⟨sb, 0, .a, false⟩
  | .stl sb _ _ _ _ _ _ => some ⟨sb, 0, .a, false⟩
  | .ldgq sb _ _ _ _ _ => some ⟨sb, 0, .a, false⟩
  | .stgq sb _ _ _ _ _ => some ⟨sb, 0, .a, false⟩
  | .pfg sb _ _ _ _ => some ⟨sb, 0, .a, false⟩
  | .fence sb _ _ _ _ => some ⟨sb, 0, .ac, false⟩
  | .pubg sb _ _ => some ⟨sb, 0, .c, false⟩
  | .tlbinv sb _ _ _ => some ⟨sb, 0, .c, true⟩
  | .tlbsync sb _ _ => some ⟨sb, 0, .c, true⟩
  | .caprd sb _ _ _ => some ⟨sb, 0, .c, false⟩
  | .ctxsave sb _ _ _ _ => some ⟨sb, 0, .c, true⟩
  | .ctxrst sb _ _ _ _ => some ⟨sb, 0, .c, true⟩
  | .sealw sb _ => some ⟨sb, 0, .all, false⟩
  | .hostsig sb _ _ => some ⟨sb, 0, .c, false⟩
  | .nwr sb _ _ _ _ => some ⟨sb, 0, .c, false⟩
  | .nrd sb _ _ _ _ _ => some ⟨sb, 0, .c, false⟩
  | .nred sb _ _ _ _ => some ⟨sb, 0, .c, false⟩
  | .nbar sb _ _ _ => some ⟨sb, 0, .c, false⟩
  | .memb sb _ _ => some ⟨sb, 0, .c, false⟩
  | .gsw sb _ _ _ => some ⟨sb, 0, .c, true⟩
  | _ => none

/-- The predicate of a format I, R or M word (R19); p is no predicate in format B (R20) and in SEL (R55). -/
def predOf : Instr → Option (BitVec 3)
  | .addi _ p _ _ _ => some p
  | .andi _ p _ _ _ => some p
  | .ori _ p _ _ _ => some p
  | .xori _ p _ _ _ => some p
  | .shli _ p _ _ _ => some p
  | .shri _ p _ _ _ => some p
  | .srai _ p _ _ _ => some p
  | .roli _ p _ _ _ => some p
  | .cmpeqi _ p _ _ _ => some p
  | .cmplti _ p _ _ _ => some p
  | .cmpltni _ p _ _ _ => some p
  | .add _ p _ _ _ => some p
  | .sub _ p _ _ _ => some p
  | .and _ p _ _ _ => some p
  | .or _ p _ _ _ => some p
  | .xor _ p _ _ _ => some p
  | .andn _ p _ _ _ => some p
  | .shl _ p _ _ _ => some p
  | .shr _ p _ _ _ => some p
  | .sra _ p _ _ _ => some p
  | .rol _ p _ _ _ => some p
  | .min _ p _ _ _ => some p
  | .max _ p _ _ _ => some p
  | .minn _ p _ _ _ => some p
  | .maxn _ p _ _ _ => some p
  | .mul _ p _ _ _ => some p
  | .mulh _ p _ _ _ => some p
  | .mulhn _ p _ _ _ => some p
  | .clz _ p _ _ => some p
  | .popc _ p _ _ => some p
  | .sext _ p _ _ _ => some p
  | .zext _ p _ _ _ => some p
  | .cmpeq _ p _ _ _ => some p
  | .cmpne _ p _ _ _ => some p
  | .cmplt _ p _ _ _ => some p
  | .cmple _ p _ _ _ => some p
  | .cmpltn _ p _ _ _ => some p
  | .cmplen _ p _ _ _ => some p
  | .pand _ p _ _ _ => some p
  | .por _ p _ _ _ => some p
  | .pxor _ p _ _ _ => some p
  | .pnot _ p _ _ => some p
  | .jr _ p _ _ => some p
  | .jtb _ p _ _ _ => some p
  | .loop _ p _ _ => some p
  | .flip _ p => some p
  | .rdh _ p _ _ _ => some p
  | .spost _ p _ _ => some p
  | .swait _ p _ => some p
  | .bqput _ p _ _ => some p
  | .nop _ p => some p
  | .exit _ p => some p
  | .trap _ p _ => some p
  | .eret _ p => some p
  | .srd _ p _ _ => some p
  | .swr _ p _ _ => some p
  | .lds _ p _ _ _ _ _ => some p
  | .sts _ p _ _ _ _ _ => some p
  | .ldq _ p _ _ _ _ => some p
  | .stq _ p _ _ _ _ => some p
  | .qpush _ p _ _ => some p
  | .qpushSq _ p _ _ => some p
  | .sbind _ p _ _ _ => some p
  | .sunbind _ p _ => some p
  | .spos _ p _ _ => some p
  | .lbqry _ p _ _ => some p
  | .commit _ p _ _ => some p
  | .tplC _ p _ _ _ => some p
  | .tplA _ p _ _ _ => some p
  | .tplS _ p _ _ _ => some p
  | .cwait _ p _ _ => some p
  | .cdisc _ p _ _ => some p
  | .crd _ p _ _ => some p
  | .rngset _ p _ _ _ => some p
  | .rngrd _ p _ _ => some p
  | .publish _ p _ => some p
  | .kset _ p _ _ => some p
  | .krd _ p _ _ => some p
  | .katcmp _ p _ _ => some p
  | .join _ p _ _ => some p
  | .leave _ p _ _ => some p
  | .grpq _ p _ _ => some p
  | .barr _ p _ _ _ => some p
  | .bwait _ p _ _ _ => some p
  | .barw _ p _ _ _ => some p
  | .finc _ p _ _ _ => some p
  | .fwait _ p _ _ _ => some p
  | .frd _ p _ _ => some p
  | .fset _ p _ _ _ => some p
  | .launch _ p _ _ => some p
  | .launchn _ p _ _ => some p
  | .evset _ p _ _ => some p
  | .evclr _ p _ _ => some p
  | .evwait _ p _ _ _ => some p
  | .enq _ p _ _ => some p
  | .deq _ p _ _ => some p
  | .yield _ p => some p
  | .taskinfo _ p _ _ => some p
  | .ldg _ p _ _ _ _ _ => some p
  | .stg _ p _ _ _ _ _ => some p
  | .lda _ p _ _ _ _ _ => some p
  | .stl _ p _ _ _ _ _ => some p
  | .ldgq _ p _ _ _ _ => some p
  | .stgq _ p _ _ _ _ => some p
  | .pfg _ p _ _ _ => some p
  | .fence _ p _ _ _ => some p
  | .pubg _ p _ => some p
  | .tlbinv _ p _ _ => some p
  | .tlbsync _ p _ => some p
  | .caprd _ p _ _ => some p
  | .ctxsave _ p _ _ _ => some p
  | .ctxrst _ p _ _ _ => some p
  | .sealw _ p => some p
  | .hostsig _ p _ => some p
  | .nwr _ p _ _ _ => some p
  | .nrd _ p _ _ _ _ => some p
  | .nred _ p _ _ _ => some p
  | .nbar _ p _ _ => some p
  | .memb _ p _ => some p
  | .gsw _ p _ _ => some p
  | _ => none

/-- What a card makes ILLEGAL by the place or the voice of its word: LOOP in a delay slot or second in a pair (R22), ERET
outside handler mode (R74), a vector destination of COMMIT above v27 (R130). -/
def placeIll (h : Here) (s : State) : Instr → Bool
  | .loop _ _ _ _ => decide (0 < (archAt s h).dslots) || (getVoice s h.k h.v).second
  | .eret _ _ => decide ((slotAt s h).run ≠ .handler)
  | .commit _ _ d _ => h.v.isX && decide (28 ≤ d.toNat)
  | _ => false

/-- The word traps with a cause and a fault address, from a state that holds what the word had changed; where another voice has
issued in the cycle, it presents itself again in the next cycle instead (R25, R170). -/
def Traps (s : State) (i : Instr) (cause : Nat) (fault : Word) (u : State) : Prop :=
  exec i s = if (slotAt s (hereOf s)).trapped.isSome || othersIssued s (hereOf s) then .next (setMark s (hereOf s) .stalled)
    else .next (takeTrap (hereOf s) cause fault u)

end Machine

end Sys2Proof
end

