-- ==== Sys2Proof/Certificates/Slice0/Obligations.lean ====
section
/-! DEFINITION. The statements for the provers: for each family of the opcode table what its words and events do, where they
complete and what they leave alone; the machine's own rules; encoding and decoding. -/

namespace Sys2Proof.Claim

open Sys2Proof.Machine

/-- A predicated word of these voices may issue and take effect: R46 lets it, it is not nullified, waits for nothing, and its
predicate is true. -/
abbrev MayIssue (s : State) (sb : BitVec 1) (p : BitVec 3) (perm : Perm) : Prop := Takes s sb 0 perm false ∧ Plain s ∧ Live s p

/-- A word that needs S mode may issue and take effect. -/
abbrev MayIssuePriv (s : State) (sb : BitVec 1) (p : BitVec 3) (perm : Perm) : Prop :=
  Takes s sb 0 perm true ∧ Plain s ∧ Live s p

/-- The word's address. -/
abbrev pc (s : State) : VAddr := (hereOf s).addr

/-- The word's place in thread order (R235). -/
abbrev place (s : State) : List Nat := clockOf s (hereOf s).k (hereOf s).v

/-- The slot's control state. -/
abbrev ctlOf (s : State) : Ctl := getCtl s (hereOf s).k

/-- The word issues, does what `d` says and leaves everything else alone. -/
abbrev Completes (i : Instr) (s : State) (d : Doing) : Prop := ∃ t, exec i s = .next t ∧ Did s t d

/-! ### Words whose whole effect is one register -/

/-- A word that writes one register: its S bit, its predicate (0 where it has none), the voices that may run it, the write. -/
structure OneWrite where
  sb : BitVec 1
  p : BitVec 3
  perm : Perm
  wr : Wr
  deriving DecidableEq, Repr

/-- A scalar result (Table 4.1). -/
def scalar (sb : BitVec 1) (p : BitVec 3) (d : BitVec 5) (lat : Nat) (x : Word) : Option OneWrite :=
  some ⟨sb, p, .all, .s d.toNat, row64 x, lat⟩

/-- A predicate result. -/
def predicate (sb : BitVec 1) (p d : BitVec 3) (x : Prop) [Decidable x] : Option OneWrite :=
  some ⟨sb, p, .all, .p d.toNat, row1 (decide x), 1⟩

/-- A number modulo 2^64. -/
def mod64 (n : Nat) : Word := BitVec.ofNat 64 n

/-- An integer modulo 2^64. -/
def int64 (n : Int) : Word := BitVec.ofInt 64 n

/-- imm20 × 2^12 (R33). -/
def upper (imm : BitVec 20) : Int := imm.toInt * 2 ^ 12

/-- The low `w` bits of a value as a signed number. -/
def signedPart (w x : Nat) : Int := if x % 2 ^ w < 2 ^ (w - 1) then ((x % 2 ^ w : Nat) : Int) else ((x % 2 ^ w : Nat) : Int) - 2 ^ w

/-- What the scalar and predicate words of R50 to R56 write, from the visible faces of their sources. -/
def scalarResult (pc : VAddr) (r : VoiceArch) : Instr → Option OneWrite
  | .lui sb d imm => scalar sb 0 d 1 (int64 (upper imm))
  | .lapc sb d imm => scalar sb 0 d 1 (int64 (pc.toNat + upper imm))
  | .addi sb p d a imm => scalar sb p d 1 (int64 ((visS r a).toInt + imm.toInt))
  | .andi sb p d a imm => scalar sb p d 1 (visS r a &&& int64 imm.toInt)
  | .ori sb p d a imm => scalar sb p d 1 (visS r a ||| int64 imm.toInt)
  | .xori sb p d a imm => scalar sb p d 1 (visS r a ^^^ int64 imm.toInt)
  | .shli sb p d a n => scalar sb p d 1 (mod64 ((visS r a).toNat * 2 ^ n.toNat))
  | .shri sb p d a n => scalar sb p d 1 (mod64 ((visS r a).toNat / 2 ^ n.toNat))
  | .srai sb p d a n => scalar sb p d 1 (int64 ((visS r a).toInt / 2 ^ n.toNat))
  | .roli sb p d a n =>
    scalar sb p d 1 (mod64 ((visS r a).toNat * 2 ^ n.toNat % 2 ^ 64 + (visS r a).toNat / 2 ^ (64 - n.toNat)))
  | .cmpeqi sb p d a imm => predicate sb p d ((visS r a).toInt = imm.toInt)
  | .cmplti sb p d a imm => predicate sb p d ((visS r a).toInt < imm.toInt)
  | .cmpltni sb p d a imm => predicate sb p d ((visS r a).toNat < (int64 imm.toInt).toNat)
  | .add sb p d a b => scalar sb p d 1 (mod64 ((visS r a).toNat + (visS r b).toNat))
  | .sub sb p d a b => scalar sb p d 1 (int64 ((visS r a).toInt - (visS r b).toInt))
  | .and sb p d a b => scalar sb p d 1 (visS r a &&& visS r b)
  | .or sb p d a b => scalar sb p d 1 (visS r a ||| visS r b)
  | .xor sb p d a b => scalar sb p d 1 (visS r a ^^^ visS r b)
  | .andn sb p d a b => scalar sb p d 1 (visS r a &&& ~~~(visS r b))
  | .shl sb p d a b => scalar sb p d 1 (mod64 ((visS r a).toNat * 2 ^ ((visS r b).toNat % 64)))
  | .shr sb p d a b => scalar sb p d 1 (mod64 ((visS r a).toNat / 2 ^ ((visS r b).toNat % 64)))
  | .sra sb p d a b => scalar sb p d 1 (int64 ((visS r a).toInt / 2 ^ ((visS r b).toNat % 64)))
  | .rol sb p d a b =>
    scalar sb p d 1 (mod64 ((visS r a).toNat * 2 ^ ((visS r b).toNat % 64) % 2 ^ 64 +
      (visS r a).toNat / 2 ^ (64 - (visS r b).toNat % 64)))
  | .min sb p d a b => scalar sb p d 1 (int64 (min (visS r a).toInt (visS r b).toInt))
  | .max sb p d a b => scalar sb p d 1 (int64 (max (visS r a).toInt (visS r b).toInt))
  | .minn sb p d a b => scalar sb p d 1 (mod64 (min (visS r a).toNat (visS r b).toNat))
  | .maxn sb p d a b => scalar sb p d 1 (mod64 (max (visS r a).toNat (visS r b).toNat))
  | .mul sb p d a b => scalar sb p d 3 (mod64 ((visS r a).toNat * (visS r b).toNat))
  | .mulh sb p d a b => scalar sb p d 3 (int64 ((visS r a).toInt * (visS r b).toInt / 2 ^ 64))
  | .mulhn sb p d a b => scalar sb p d 3 (mod64 ((visS r a).toNat * (visS r b).toNat / 2 ^ 64))
  | .clz sb p d a => scalar sb p d 1 (mod64 ((List.range 64).takeWhile (fun i => !(visS r a).getLsbD (63 - i))).length)
  | .popc sb p d a => scalar sb p d 1 (mod64 ((List.range 64).countP (fun i => (visS r a).getLsbD i)))
  | .sext sb p d a w => scalar sb p d 1 (int64 (signedPart (8 * 2 ^ w.toNat) (visS r a).toNat))
  | .zext sb p d a w => scalar sb p d 1 (mod64 ((visS r a).toNat % 2 ^ (8 * 2 ^ w.toNat)))
  | .sel sb k d a b => scalar sb 0 d 1 (if visP r k then visS r a else visS r b)
  | .cmpeq sb p d a b => predicate sb p d ((visS r a).toNat = (visS r b).toNat)
  | .cmpne sb p d a b => predicate sb p d ((visS r a).toNat ≠ (visS r b).toNat)
  | .cmplt sb p d a b => predicate sb p d ((visS r a).toInt < (visS r b).toInt)
  | .cmple sb p d a b => predicate sb p d ((visS r a).toInt ≤ (visS r b).toInt)
  | .cmpltn sb p d a b => predicate sb p d ((visS r a).toNat < (visS r b).toNat)
  | .cmplen sb p d a b => predicate sb p d ((visS r a).toNat ≤ (visS r b).toNat)
  | .pand sb p d a b => predicate sb p d (visP r a = true ∧ visP r b = true)
  | .por sb p d a b => predicate sb p d (visP r a = true ∨ visP r b = true)
  | .pxor sb p d a b => predicate sb p d (visP r a ≠ visP r b)
  | .pnot sb p d a => predicate sb p d (visP r a = false)
  | _ => none

/-! ### Words that only read -/

/-- What the words write that only read state: the hidden face (RDH), a status register (SRD), a stream entry (SPOS), a landing
slot (LBQRY), a ring (RNGRD), a knot register (KRD), a capability (CAPRD), the task (TASKINFO), a flag (FRD). -/
def readResult (s : State) : Instr → Option OneWrite
  | .rdh sb p d a b =>
    some ⟨sb, p, if b.toNat < 2 then .all else .x, ⟨rdhDest b d, faceGet (me s).hid (rdhSource b a), rdhLat b⟩⟩
  | .srd sb p d n => some ⟨sb, p, statusPerm n, ⟨.s d.toNat, row64 (statusRead s (hereOf s).k (hereOf s).v n.toNat), 2⟩⟩
  | .spos sb p d k => some ⟨sb, p, .a, ⟨.s d.toNat, row64 (streamState (ctlOf s) k.toNat), 2⟩⟩
  | .lbqry sb p d k =>
    some ⟨sb, p, .ax, ⟨.s d.toNat, row64 (w64 (landingState s (hereOf s).k (8 * (hereOf s).v.num + k.toNat))), 1⟩⟩
  | .rngrd sb p d k =>
    some ⟨sb, p, .c, ⟨.s d.toNat, row64 (mod64 ((getRing (ctlOf s) k.toNat).head + (getRing (ctlOf s) k.toNat).tail * 2 ^ 32)), 2⟩⟩
  | .krd sb p d k => some ⟨sb, p, .c, ⟨.s d.toNat, row64 (knotRead s.core.ctl.knots k.toNat), 2⟩⟩
  | .caprd sb p d a => some ⟨sb, p, .c, ⟨.s d.toNat, row64 (capRead s.pkg (visS (me s) a)), 2⟩⟩
  | .taskinfo sb p d k => some ⟨sb, p, .c, ⟨.s d.toNat, row64 (taskInfo s (hereOf s).k k.toNat), 2⟩⟩
  | .frd sb p d a =>
    some ⟨sb, p, .c, ⟨.s d.toNat, row64 (if 256 ≤ (visS (me s) a).toNat then 4
      else mod64 ((flagOf s.cluster (visS (me s) a).toNat).toNat * 2 ^ 32)), 2⟩⟩
  | _ => none

/-! ### Addresses -/

/-- The address a signed number of words away (R59). -/
def displaced (a : VAddr) (imm : BitVec 20) : VAddr := BitVec.ofInt 52 (a.toNat + 4 * imm.toInt)

/-- The word address a 64-bit sum names: bits [51:2] (R61). -/
def wordTarget (x : Int) : VAddr := BitVec.ofInt 52 (x / 4 * 4)

/-- The address of a jump-table entry (R62). -/
def tableEntry (base i : Word) : Word := mod64 (base.toNat / 4 * 4 + 4 * i.toNat)

/-- The label of a LOOP (R64). -/
def loopEnd (a : VAddr) (imm : BitVec 12) : VAddr := BitVec.ofNat 52 (a.toNat + 4 + 4 * imm.toNat)

/-- A queue with one more entry at its tail (R87). -/
abbrev pushEntry (c : Ctl) (q : Nat) (e : QEntry) : Ctl := setQueue c q (getQueue c q ++ [e])

/-- The place in thread order of the queue entry the word reserves, once it has taken what stands at the places `links`. -/
abbrev entryPlace (s : State) (links : List (List Nat)) : List Nat := placeWith (hereOf s) s links 0

/-- The stream a descriptor binds, with an aperture base resolved (R90, R91). -/
def boundAs (s : State) (bs : List Byte) (q : Nat) : Stream :=
  { parseStream bs q with resolved := resolveBase (slotAt s (hereOf s)) (parseStream bs q).base }

/-- The landing slot a COMMIT of the voice names, and its latency (R130). -/
abbrev landKey (s : State) (k : BitVec 3) : Nat := 8 * (hereOf s).v.num + k.toNat

abbrev commitLat (s : State) : Nat := if (hereOf s).v.isX then 2 else 1

/-- The faces of a voice are in canonical form. -/
def facesCanonical (a : VoiceArch) : Bool :=
  mwf 0 a.vis.s && mwf 0 a.vis.p && mwf 0 a.vis.v && mwf 0 a.vis.m && mwf 0 a.hid.s && mwf 0 a.hid.p && mwf 0 a.hid.v &&
    mwf 0 a.hid.m

/-- The voice as ERET reloads it from the record at `ra` (R74, Table 2.5): the fields of its section, with the exited bit, the
delay slots and the wait kept beside the record. -/
def reloaded (s : State) (ps : List Part) (v : VoiceId) : VoiceArch :=
  { recVoice (fun off n => recNat s (hereOf s).k ps ((slotAt s (hereOf s)).recAddr + off) n) v (sectionBase v) (s.now + 1)
      (if v = .A then (slotAt s (hereOf s)).recExited else (getArch s (hereOf s).k v).exited)
      ((slotAt s (hereOf s)).recSlots.getD v.num 0) ((slotAt s (hereOf s)).recWaits.getD v.num none) with
    vrnd := (getArch s (hereOf s).k v).vrnd }

end Sys2Proof.Claim

open Sys2Proof Sys2Proof.Machine Sys2Proof.Claim

/-- R30 to R45: words of each format, their fields written out from Tables 3.1, 3.2, 3.7, 3.8 and 3.9 from bit 31 down, decode to
the instructions they stand for; an all-zero word, an unassigned minor and a reserved field decode to none. -/
def Obligations.TableWordsDecodeToTheirInstructions : Prop :=
  decodeWord (0#1 ++ 0x03#6 ++ 1#3 ++ 3#5 ++ 4#5 ++ 0xFFB#12) = some (.addi 0 1 3 4 0xFFB) ∧
  decodeWord (0#1 ++ 0x09#6 ++ 0#3 ++ 5#5 ++ 6#5 ++ 7#5 ++ 0x0E#7) = some (.mul 0 0 5 6 7) ∧
  decodeWord (1#1 ++ 0x0B#6 ++ 2#3 ++ 1#2 ++ 0xFFFFE#20) = some (.brn 1 2 0xFFFFE) ∧
  decodeWord (0#1 ++ 0x14#6 ++ 0#3 ++ 9#5 ++ 8#5 ++ 2#2 ++ 1#1 ++ 0x1FF#9) = some (.lds 0 0 9 8 2 1 0x1FF) ∧
  decodeWord (0#1 ++ 0x19#6 ++ 1#1 ++ 2#3 ++ 5#5 ++ 28#5 ++ 7#5 ++ 0#1 ++ 0x00#5) = some (.vaddI32 0 1 2 5 28 7 0) ∧
  decodeWord (0#1 ++ 0x1D#6 ++ 0#1 ++ 0#3 ++ 1#5 ++ 2#5 ++ 3#5 ++ 0x12#5 ++ 0#1) = some (.vfmaF32 0 0 0 1 2 3 0x12 0) ∧
  decodeWord (0#1 ++ 0x26#6 ++ 37#6 ++ 5#3 ++ 0xABCD#16) = some (.pisA 0 37 5 0xABCD) ∧
  decodeWord (0#1 ++ 0x2A#6 ++ 0#3 ++ 4#5 ++ 5#5 ++ 6#5 ++ 0x03#7) = some (.barr 0 0 4 5 6) ∧
  decodeWord (0#1 ++ 0x2D#6 ++ 0#3 ++ 6#5 ++ 9#5 ++ 3#2 ++ 0#1 ++ 2#9) = some (.ldg 0 0 6 9 3 0 2) ∧
  decodeWord (0#1 ++ 0x34#6 ++ 0#3 ++ 0#5 ++ 9#5 ++ 0#5 ++ 0x04#7) = some (.hostsig 0 0 9) ∧
  decodeWord (0#1 ++ 0x35#6 ++ 0#3 ++ 1#2 ++ 2#3 ++ 9#5 ++ 4#5 ++ 0x01#7) = some (.nrd 0 0 1 2 9 4) ∧
  decodeWord 0 = none ∧ decodeWord (0#1 ++ 0x09#6 ++ 0#3 ++ 5#5 ++ 6#5 ++ 7#5 ++ 0x16#7) = none ∧
  decodeWord (0#1 ++ 0x2C#6 ++ 0#3 ++ 0#5 ++ 6#5 ++ 3#5 ++ 0x00#7) = none

/-- R30, R34: the word of a well-formed instruction decodes to it, with every operand; what decodes is well formed and has exactly
that word; the decoder of table words agrees; the instructions that have a word are those of Tables 3.7 to 3.9. -/
def Obligations.EveryWordRoundTrips : Prop :=
  (∀ (i : Instr) (w : BitVec 32), wellFormed i = true → encode i = some w → decodeWord w = some i) ∧
  (∀ (i : Instr) (w : BitVec 32), decodeWord w = some i → wellFormed i = true ∧ encode i = some w) ∧
  (∀ w : BitVec 32, decodeTableWord 32 w.toNat = decodeWord w) ∧
  (∀ i : Instr, (encode i).isSome = (wordClass i).isSome)

/-- A voice that may issue fetches the word at NA0 and runs it: a word that decodes to `i` as exec of `i`, with the translation kept
in the voice's TLB and then the turn passed on; one that does not decode as ILLEGAL; a fetch that faults traps FETCH at the word,
nullified or not (R19, R59), and one that meets poisoned data is a machine check. A word with C = 1 runs with the word after it
(R40); an X voice whose bank reads are refused keeps them and waits (R85), and voice A whose scratchpad banks refuse it waits
(R94). -/
def Obligations.StepRunsTheDecodedWord : Prop :=
  ∀ s : State, 1 ≤ s.turn → s.turn ≤ 4 → voiceReady s (turnVoice s.turn) = true →
    (readsLeft s (hereOf s) = [] →
      (fetchAt s (hereOf s).k (hereOf s).v (pc s).toNat = .fault →
        step s = afterVoice s (if (slotAt s (hereOf s)).trapped.isSome || othersIssued s (hereOf s) then
          .next (setMark s (hereOf s) .stalled) else .next (takeTrap (hereOf s) 0x08 ((pc s).setWidth 64) s))) ∧
      (∀ va st, fetchAt s (hereOf s).k (hereOf s).v (pc s).toNat = .check va st → othersIssued s (hereOf s) = false →
        step s = afterVoice s (.next (setMark (machineCheck s (hereOf s).k va st) (hereOf s) .trapped)))) ∧
    (∀ w, fetchAt s (hereOf s).k (hereOf s).v (pc s).toNat = .word w →
      (pairAt s (hereOf s) = false → readsLeft s (hereOf s) = [] → ((hereOf s).v = .A → banksRefused s (hereOf s).k = []) →
        (∀ i, decodeWord w = some i → step s = afterVoice s (exec i (fetchFill s (hereOf s).k (hereOf s).v (pc s).toNat))) ∧
        (decodeWord w = none → step s = afterVoice s (illegalWord w (fetchFill s (hereOf s).k (hereOf s).v (pc s).toNat)))) ∧
      (∀ i t, decodeWord w = some i → exec i (fetchFill s (hereOf s).k (hereOf s).v (pc s).toNat) = .next t →
        markAt t (hereOf s) = .issued →
        (pairAt s (hereOf s) = true → readsLeft s (hereOf s) = [] → step s = afterVoice s (runSecond exec s (hereOf s) t)) ∧
        (pairAt s (hereOf s) = false → readsLeft s (hereOf s) ≠ [] →
          ∃ u, step s = .next u ∧ markAt u (hereOf s) = .stalled ∧ archAt u (hereOf s) = me s ∧
            (getVoice u (hereOf s).k (hereOf s).v).replay = some (readsLeft s (hereOf s))) ∧
        ((hereOf s).v = .A → banksRefused s (hereOf s).k ≠ [] →
          ∃ u, step s = .next u ∧ markAt u (hereOf s) = .stalled ∧ archAt u (hereOf s) = me s)))

/-- R17, R251: right after reset the package is active at cycle 0 with no context, no input and no thread in either slot; the memory
lists nothing, the knots hold their reset values, and slot 0 holds issue. The values of registers without a thread are the
model's choice (assumptions 1 and 2). -/
def Obligations.ResetHasNoThreadAndEmptyMemory : Prop :=
  State.reset.pkg.power = .active ∧ State.reset.now = 0 ∧ State.reset.pkg.contexts = [] ∧ State.reset.inbox = [] ∧
  (∀ k, (getSlot State.reset k).run = .empty) ∧ State.reset.core.act = 0 ∧ State.reset.core.fenced = false ∧
  State.reset.core.ctl.knots = Knots.reset ∧ State.reset.core.held = [] ∧ State.reset.core.out = [] ∧
  (∀ k v, (getArch State.reset k v).w = 0 ∧ (getArch State.reset k v).pending = [] ∧ (getArch State.reset k v).lc = []) ∧
  (∀ a, sget State.reset.pkg.mem a = 0) ∧ memWf State.reset.pkg.mem = true ∧ memWf State.reset.core.spad = true

/-- Every step keeps device memory and core scratchpad in their canonical form: addresses strictly rising, and no entry for a byte
that an unlisted address reads as. -/
def Obligations.StepKeepsMemoryCanonical : Prop :=
  ∀ s t : State, memWf s.pkg.mem = true → memWf s.core.spad = true → step s = .next t →
    memWf t.pkg.mem = true ∧ memWf t.core.spad = true

/-- R19: a word in a nullified slot, or whose predicate is false, uses its issue cycle and does nothing else. -/
def Obligations.NullifiedAndFalseWordsOnlyMoveOn : Prop :=
  ∀ (i : Instr) (s : State) (x : WordClass), wordClass i = some x → Takes s x.sb x.cb x.perm x.priv →
    placeIll (hereOf s) s i = false → (me s).wait = none →
    ((hereOf s).nul = true ∨ ∃ p, predOf i = some p ∧ visP (me s) p = false) →
    ∃ t, exec i s = .next t ∧ Did s t {}

/-- R46, steps 4 to 6: ILLEGAL by the place of the word, then VOICE, then PRIV; predicate and nullify bit do not matter.
R82, R83: an S word of a voice in SYNCSET with others waits until the set issues, and raises SYNCDEAD once one of the set
has exited.
R46 steps 2 to 4: a word that no row of the tables has, or whose fields a card does not allow, raises ILLEGAL. -/
def Obligations.WordsAreJudgedInOrder : Prop :=
  (∀ (i : Instr) (s : State) (x : WordClass), wordClass i = some x →
     (lockstep s (hereOf s) x.sb = true → s.sgo = true ∨ lockstepDead s (hereOf s) = true) →
     ((pairBad s (hereOf s) x.sb x.cb = true ∨ placeIll (hereOf s) s i = true) → Traps s i 0x01 0 s) ∧
     (pairBad s (hereOf s) x.sb x.cb = false → placeIll (hereOf s) s i = false → x.perm.ok (hereOf s).v = false →
       Traps s i 0x02 0 s) ∧
     (pairBad s (hereOf s) x.sb x.cb = false → placeIll (hereOf s) s i = false → x.perm.ok (hereOf s).v = true →
       x.priv = true → (slotAt s (hereOf s)).thread.smode = false → Traps s i 0x03 0 s)) ∧
  (∀ (i : Instr) (s : State) (x : WordClass), wordClass i = some x → lockstep s (hereOf s) x.sb = true →
     (lockstepDead s (hereOf s) = false → s.sgo = false → exec i s = .next (setMark s (hereOf s) .stalled)) ∧
     (lockstepDead s (hereOf s) = true → pairBad s (hereOf s) x.sb x.cb = false → placeIll (hereOf s) s i = false →
       x.perm.ok (hereOf s).v = true → (x.priv = true → (slotAt s (hereOf s)).thread.smode = true) → Traps s i 0x0F 0 s)) ∧
  (∀ (s : State) (w : BitVec 32), decodeWord w = none →
     (lockstep s (hereOf s) (fld w 31 1) = true → s.sgo = true ∨ lockstepDead s (hereOf s) = true) →
     (slotAt s (hereOf s)).trapped = none → othersIssued s (hereOf s) = false →
     runFetched exec w s = .next (takeTrap (hereOf s) 0x01 0 s))



/-- R43, R76, R110, R138, R296: SWR writes the writable fields of its status register: CLASH, CLASHTRAP, CLASHCNT and VRND of the
voice; VFLAGS by a faced write of latency 2; SYNCSET, BANKLOSS to 32 bits, PMSEL (a reserved event as none) and PMC of the core,
with the clause that wrote it. What a PMC has counted in the cycle, and the issue of the word itself where its PMSEL says so, count
after the write. The other assigned registers
are read only: the word does nothing. -/
def Obligations.StatusWritesChangeTheirRegister : Prop :=
  ∀ (s : State) (sb : BitVec 1) (p : BitVec 3) (d : BitVec 5) (n : BitVec 10), MayIssue s sb p (statusPerm n) →
    (n = 0 → Completes (.swr sb p d n) s { arch := fun a => { a with clash := (visS (me s) d).getLsbD 0 } }) ∧
    (n = 1 → Completes (.swr sb p d n) s { arch := fun a => { a with clashtrap := (visS (me s) d).getLsbD 0 } }) ∧
    (n = 2 → Completes (.swr sb p d n) s { arch := fun a => { a with clashcnt := (visS (me s) d).setWidth 32 } }) ∧
    (n = 3 → Completes (.swr sb p d n) s { arch := fun a => { a with vrnd := (visS (me s) d).setWidth 2 } }) ∧
    (n = 4 → Room s [⟨.vflags, (spreadFlags ((visS (me s) d).setWidth 5)).setWidth 1024, 2⟩] →
      Completes (.swr sb p d n) s { writes := [⟨.vflags, (spreadFlags ((visS (me s) d).setWidth 5)).setWidth 1024, 2⟩] }) ∧
    (n = 0x10 → Completes (.swr sb p d n) s
      { ctl := fun c => { c with syncset := (visS (me s) d).setWidth 4, statusBy := mset 0 c.statusBy 0x10 (clauseAt s (hereOf s)) } }) ∧
    (0x18 ≤ n.toNat → n.toNat ≤ 0x27 → Completes (.swr sb p d n) s
      { ctl := fun c => { c with
          status := sset c.status n.toNat (((visS (me s) d).setWidth 32).setWidth 64)
          statusBy := mset 0 c.statusBy n.toNat (clauseAt s (hereOf s)) } }) ∧
    (0x30 ≤ n.toNat → n.toNat ≤ 0x33 → Completes (.swr sb p d n) s
      { ctl := fun c => { c with
          status := sset c.status n.toNat (mod64 (if (visS (me s) d).toNat % 16 < 12 then (visS (me s) d).toNat % 16 else 0))
          statusBy := mset 0 c.statusBy n.toNat (clauseAt s (hereOf s)) } }) ∧
    (0x38 ≤ n.toNat → n.toNat ≤ 0x3B →
      ∃ t, exec (.swr sb p d n) s = .next t ∧
        Did s t { ctl := fun c => { c with
          status := sset c.status n.toNat (visS (me s) d + mod64 (mget 0 s.core.counted (4 * (hereOf s).k + (n.toNat - 0x38))))
          statusBy := mset 0 c.statusBy n.toNat (clauseAt s (hereOf s)) } } ∧
        (mwf 0 (ctlOf s).status = true → sget (getCtl t (hereOf s).k).status n.toNat =
          visS (me s) d + mod64 (mget 0 s.core.counted (4 * (hereOf s).k + (n.toNat - 0x38))) + (if (sget (ctlOf s).status (n.toNat - 8)).toNat = 2 then 1 else 0))) ∧
    ((0x11 ≤ n.toNat ∧ n.toNat ≤ 0x15) ∨ n.toNat = 0x28 → Completes (.swr sb p d n) s {})

/-- R50 to R56: a scalar or predicate word that takes effect writes its result of Tables 4.4 to 4.6, from the visible faces of
its sources and at the latency of Table 4.1, and leaves everything else alone.
R58, R76, R128, R130, R150, R159, R194, Table 12.7: a word that only reads writes what it reads to its destination and
leaves everything else alone. -/
def Obligations.ScalarAndReadingWordsWriteTheirResult : Prop :=
  (∀ (i : Instr) (s : State) (x : OneWrite), scalarResult (hereOf s).addr (me s) i = some x →
     Takes s x.sb 0 x.perm false → Plain s → Live s x.p → Room s [x.wr] →
     ∃ t, exec i s = .next t ∧ Did s t { writes := [x.wr] }) ∧
  (∀ (i : Instr) (s : State) (x : OneWrite), readResult s i = some x → MayIssue s x.sb x.p x.perm → Room s [x.wr] →
     Completes i s { writes := [x.wr] })

/-- R14, R18: recording a faced write leaves both faces as they are, sets the register's W bit, and puts the value into the
pending-result file at the word's latency; a write pending before is gone (it clashes and never lands), and CLASH and CLASHCNT
say so. A write to s0, p0 or m0 is discarded (R12).
R18, R24: a scalar word whose write clashes under CLASHTRAP traps CLASH with nothing changed but CLASH and CLASHCNT; one that
finds the pending-result file full stalls. -/
def Obligations.ClashesAreRecordedOrTrap : Prop :=
  (∀ (now : Nat) (a : VoiceArch) (w : Wr),
     (isConstReg w.reg = true → record now a w = a) ∧
     (isConstReg w.reg = false → wIndex w.reg < 128 →
       (record now a w).vis = a.vis ∧ (record now a w).hid = a.hid ∧ wGet (record now a w) w.reg = true ∧
       (∀ r, wIndex r < 128 → wIndex r ≠ wIndex w.reg → wGet (record now a w) r = wGet a r) ∧
       (record now a w).pending = a.pending.filter (fun p => decide (p.reg ≠ w.reg)) ++ [⟨w.reg, w.val, now + w.lat, now⟩] ∧
       ((wGet a w.reg = true ∨ ∃ p ∈ a.pending, p.reg = w.reg) → (record now a w).clash = true ∧
         (record now a w).clashcnt.toNat = min (a.clashcnt.toNat + 1) 0xFFFFFFFF) ∧
       (wGet a w.reg = false → (∀ p ∈ a.pending, p.reg ≠ w.reg) → (record now a w).clash = a.clash ∧
         (record now a w).clashcnt = a.clashcnt))) ∧
  (∀ (i : Instr) (s : State) (x : OneWrite), scalarResult (pc s) (me s) i = some x → MayIssue s x.sb x.p x.perm →
     (fileFull (hereOf s).v (me s) (needs [x.wr]) = true → Stalls s i false) ∧
     (fileFull (hereOf s).v (me s) (needs [x.wr]) = false → (me s).clashtrap = true → clashes (me s) x.wr.reg = true →
       Traps s i 0x04 0 (pmCount (setArchAt s (hereOf s) (noteClash (me s))) (hereOf s).k (clauseAt s (hereOf s)) 6 1)))

/-- R16: FLIP waits for the pending-result file; then it exchanges the faces of the registers whose W bit is set, VFLAGS taking
RAISED with it, clears the W bits and RAISED, and ends its clause. One that is nullified or predicated false does nothing and ends
no clause. That flags still on their way hold it too is the model's choice (assumption 92). -/
def Obligations.FlipExchangesTheWrittenFaces : Prop :=
  (∀ (s : State) (sb : BitVec 1) (p : BitVec 3), MayIssue s sb p .all →
    ((me s).pending = [] → (me s).flagq = [] → sealQueueFull s (hereOf s).k (hereOf s).v = false →
      Completes (.flip sb p) s { arch := flipArch, closes := true }) ∧
    ((me s).pending ≠ [] ∨ (me s).flagq ≠ [] → Stalls s (.flip sb p) false)) ∧
  (∀ (s : State) (sb : BitVec 1) (p : BitVec 3), Takes s sb 0 .all false → (me s).wait = none →
    (hereOf s).nul = true ∨ visP (me s) p = false → Completes (.flip sb p) s {}) ∧
  (∀ (a : VoiceArch) (r : RegId), r ∈ facedRegs → isConstReg r = false → facesCanonical a = true →
    (wGet a r = true → faceGet (flipArch a).vis r = faceGet a.hid r ∧ faceGet (flipArch a).hid r = faceGet a.vis r) ∧
    (wGet a r = false → faceGet (flipArch a).vis r = faceGet a.vis r ∧ faceGet (flipArch a).hid r = faceGet a.hid r)) ∧
  (∀ a : VoiceArch, (flipArch a).w = 0 ∧ (flipArch a).raised = 0 ∧
    (wGet a .vflags = true → (flipArch a).vis.vflags = a.hid.vflags ||| a.raised ∧ (flipArch a).hid.vflags = a.vis.vflags) ∧
    (wGet a .vflags = false → (flipArch a).vis.vflags = a.vis.vflags ||| a.raised ∧ (flipArch a).hid.vflags = a.hid.vflags))

/-- R59 to R62: a branch, call or jump moves the chain as its condition and its target say; CALL writes s31 with the address of
the word after its two delay slots. Nothing else changes.
R63: JTB goes to the word its table names for an index below L, and falls through otherwise; a table word that cannot be
fetched traps FETCH at the entry's address. -/
def Obligations.BranchesCallsAndJumpsMoveTheChain : Prop :=
  (∀ (s : State) (sb : BitVec 1) (p : BitVec 3) (imm : BitVec 20) (a : BitVec 5) (j : BitVec 10),
     (Takes s sb 0 .all false → Plain s →
       Completes (.br sb p imm) s { flow := .branch (visP (me s) p) (displaced (pc s) imm) 0 } ∧
       Completes (.brn sb p imm) s { flow := .branch (visP (me s) p) (displaced (pc s) imm) 1 } ∧
       Completes (.brt sb p imm) s { flow := .branch (visP (me s) p) (displaced (pc s) imm) 2 } ∧
       (visP (me s) p = true → Room s [⟨.s 31, row64 (mod64 ((pc s).toNat + 12)), 1⟩] →
         Completes (.call sb p imm) s
           { writes := [⟨.s 31, row64 (mod64 ((pc s).toNat + 12)), 1⟩], flow := .jump (displaced (pc s) imm) false }) ∧
       (visP (me s) p = false → Completes (.call sb p imm) s { flow := .branch false 0 0 })) ∧
     (MayIssue s sb p .all →
       Completes (.jr sb p a j) s { flow := .jump (wordTarget ((visS (me s) a).toInt + 4 * j.toInt)) true }) ∧
     (Takes s sb 0 .all false → Plain s → visP (me s) p = false → Completes (.jr sb p a j) s {})) ∧
  (∀ (s : State) (sb : BitVec 1) (p : BitVec 3) (d a : BitVec 5) (l : BitVec 10), MayIssue s sb p .all →
     (l.toNat ≤ (visS (me s) a).toNat → Completes (.jtb sb p d a l) s { flow := .branch false 0 0 }) ∧
     ((visS (me s) a).toNat < l.toNat →
       (∀ w, fetchAt s (hereOf s).k (hereOf s).v (tableEntry (visS (me s) d) (visS (me s) a)).toNat = .word w →
         ∃ t, exec (.jtb sb p d a l) s = .next t ∧
           Did s t { flow := .jump (wordTarget (((visS (me s) d).toNat / 4 * 4 : Nat) + 4 * w.toInt)) true }) ∧
       (fetchAt s (hereOf s).k (hereOf s).v (tableEntry (visS (me s) d) (visS (me s) a)).toNat = .fault →
         Traps s (.jtb sb p d a l) 0x08 (tableEntry (visS (me s) d) (visS (me s) a)) s) ∧
       (∀ va st, fetchAt s (hereOf s).k (hereOf s).v (tableEntry (visS (me s) d) (visS (me s) a)).toNat = .check va st →
         othersIssued s (hereOf s) = false →
         exec (.jtb sb p d a l) s = .next (setMark (machineCheck s (hereOf s).k va st) (hereOf s) .trapped))))

/-- R21, R23: the chain moves on by one; a word that transfers puts its target behind the two delay slots, and BRN not taken or BRT
taken nullifies them; a branch word in a nullified slot only moves on. The successor of an address is the next word, or the
begin of the innermost loop level that ends there while it has more than one iteration left, which it then counts down; a level
without is popped and the next outward is tested. A taken branch, JR or JTB pops the levels its target lies outside of, innermost
first, up to one that holds it; CALL pops none. -/
def Obligations.TheChainAdvances : Prop :=
  (∀ a : VoiceArch, (advance a .seq).1.na0 = a.na1 ∧ (advance a .seq).1.na1 = a.na2 ∧
    (advance a .seq).1.na2 = ⟨(seqFrom a.na2.addr a.lc).1, false⟩ ∧ (advance a .seq).1.lc = (seqFrom a.na2.addr a.lc).2.1) ∧
  (∀ (a : VoiceArch) (t : VAddr) (form : Nat),
    (advance a (.branch true t form)).1.na0 = { a.na1 with nul := a.na1.nul || decide (form = 2) } ∧
    (advance a (.branch true t form)).1.na1 = { a.na2 with nul := a.na2.nul || decide (form = 2) } ∧
    (advance a (.branch true t form)).1.na2 = ⟨t, false⟩ ∧
    (advance a (.branch true t form)).1.lc =
      a.lc.dropWhile (fun l => decide (t.toNat < l.first.toNat) || decide (l.last.toNat ≤ t.toNat)) ∧
    (advance a (.branch false t form)).1.na0 = { a.na1 with nul := a.na1.nul || decide (form = 1) } ∧
    (advance a (.branch false t form)).1.na1 = { a.na2 with nul := a.na2.nul || decide (form = 1) } ∧
    (advance a (.branch false t form)).1.na2 = ⟨(seqFrom a.na2.addr a.lc).1, false⟩ ∧
    (advance a (.branch false t form)).1.lc = (seqFrom a.na2.addr a.lc).2.1) ∧
  (∀ (a : VoiceArch) (t : VAddr) (pops : Bool),
    (advance a (.jump t pops)).1.na0 = a.na1 ∧ (advance a (.jump t pops)).1.na1 = a.na2 ∧ (advance a (.jump t pops)).1.na2 = ⟨t, false⟩ ∧
    (advance a (.jump t pops)).1.lc =
      if pops then a.lc.dropWhile (fun l => decide (t.toNat < l.first.toNat) || decide (l.last.toNat ≤ t.toNat)) else a.lc) ∧
  (∀ a : VAddr, seqFrom a [] = (a + 4, [], 0)) ∧
  (∀ (a : VAddr) (l : Level) (r : List Level),
    (a ≠ l.last - 4 → seqFrom a (l :: r) = (a + 4, l :: r, 0)) ∧
    (a = l.last - 4 → 1 < l.count.toNat → seqFrom a (l :: r) = (l.first, { l with count := l.count - 1 } :: r, 0)) ∧
    (a = l.last - 4 → l.count.toNat ≤ 1 → (seqFrom a (l :: r)).1 = (seqFrom a r).1 ∧
      (seqFrom a (l :: r)).2.1 = (seqFrom a r).2.1)) ∧
  (∀ (i : Instr) (s : State) (x : WordClass), wordClass i = some x → Takes s x.sb x.cb x.perm x.priv →
    placeIll (hereOf s) s i = false → (me s).wait = none → (hereOf s).nul = true →
    ∃ t, exec i s = .next t ∧ archAt t (hereOf s) = (advance (me s) .seq).1)

/-- R22, R64: LOOP pushes a level from the next word to its label with the count it reads, and goes on in it; with count 0 it skips to
the label, however many levels are active; a fifth level traps LOOPNEST. In a delay slot, or as the second word of a pair, it is
ILLEGAL; predicated false it only moves on. -/
def Obligations.LoopsPushALevelOrSkip : Prop :=
  (∀ (s : State) (sb : BitVec 1) (p : BitVec 3) (a : BitVec 5) (imm : BitVec 12), MayIssue s sb p .all →
    (me s).dslots = 0 → (getVoice s (hereOf s).k (hereOf s).v).second = false →
    (visS (me s) a = 0 →
      Completes (.loop sb p a imm) s
        { arch := fun r => (rebuildChain r (loopEnd (pc s) imm) r.lc).1, flow := .keep }) ∧
    (visS (me s) a ≠ 0 → (me s).lc.length < 4 →
      Completes (.loop sb p a imm) s
        { arch := fun r => (rebuildChain r (pc s + 4) (⟨pc s + 4, loopEnd (pc s) imm, visS (me s) a⟩ :: r.lc)).1, flow := .keep }) ∧
    (visS (me s) a ≠ 0 → 4 ≤ (me s).lc.length → Traps s (.loop sb p a imm) 0x05 0 s)) ∧
  (∀ (s : State) (sb : BitVec 1) (p : BitVec 3) (a : BitVec 5) (imm : BitVec 12), Takes s sb 0 .all false →
    ((me s).dslots ≠ 0 ∨ (getVoice s (hereOf s).k (hereOf s).v).second = true → Traps s (.loop sb p a imm) 0x01 0 s) ∧
    ((me s).dslots = 0 → (getVoice s (hereOf s).k (hereOf s).v).second = false → Plain s → visP (me s) p = false →
      Completes (.loop sb p a imm) s {})) ∧
  (∀ (r : VoiceArch) (b : VAddr) (lc : List Level), (rebuildChain r b lc).1.na0 = ⟨b, false⟩ ∧
    (rebuildChain r b lc).1.na1 = ⟨(seqFrom b lc).1, false⟩ ∧
    (rebuildChain r b lc).1.na2 = ⟨(seqFrom (seqFrom b lc).1 (seqFrom b lc).2.1).1, false⟩ ∧
    (rebuildChain r b lc).1.lc = (seqFrom (seqFrom b lc).1 (seqFrom b lc).2.1).2.1)

/-- R65 to R68, R235: SPOST sets a sync bit of a voice from the next cycle on, SWAIT takes one that is set, BQPUT appends an outcome
to a `bq`, BQBR, BQBRN and BQBRT pop one as their condition. A voice that has exited gets nothing. What takes a bit or an outcome
follows the word that left it in thread order. A SWAIT whose bit is not visible in its cycle waits; one that no other voice can
still post to raises SYNCDEAD. A branch on an empty `bq` waits, as does one on an outcome not yet visible, or with eight pops that
have not sealed (R177); one that no other voice can still fill raises QDEAD. -/
def Obligations.SyncBitsAndBranchQueues : Prop :=
  ∀ (s : State) (sb : BitVec 1) (p : BitVec 3) (v : BitVec 2) (k : BitVec 3) (imm : BitVec 20),
    (MayIssue s sb p .all →
      ((getArch s (hereOf s).k (voiceOf v.toNat)).exited = true →
        Completes (.spost sb p v k) s {} ∧ Completes (.bqput sb p v k) s {}) ∧
      ((getArch s (hereOf s).k (voiceOf v.toNat)).exited = false →
        Completes (.spost sb p v k) s { ctl := fun c =>
          { c with sync := postSync c.sync (8 * v.toNat + k.toNat) ⟨clauseAt s (hereOf s), s.now + 1, place s⟩ } } ∧
        (8 ≤ (getBq (ctlOf s) (voiceOf v.toNat)).length → Stalls s (.bqput sb p v k) false) ∧
        ((getBq (ctlOf s) (voiceOf v.toNat)).length < 8 →
          Completes (.bqput sb p v k) s
            { ctl := fun c => setBq c (voiceOf v.toNat) (getBq c (voiceOf v.toNat) ++
                [⟨visP (me s) k, clauseAt s (hereOf s), s.now + 1, place s⟩]) })) ∧
      (∀ b, mfind (ctlOf s).sync (8 * (hereOf s).v.num + k.toNat) = some b → b.at_ ≤ s.now →
        Completes (.swait sb p k) s
          { ctl := fun c => { c with sync := takeSync c.sync (8 * (hereOf s).v.num + k.toNat) s.now }, links := [b.ord] }) ∧
      ((∀ b, mfind (ctlOf s).sync (8 * (hereOf s).v.num + k.toNat) = some b → s.now < b.at_) →
        if (otherVoices (hereOf s).v).all (fun u => countsExited s (hereOf s).k u) then Traps s (.swait sb p k) 0x0F 0 s
        else Stalls s (.swait sb p k) false)) ∧
    (Takes s sb 0 .all false → Plain s →
      (∀ e r, getBq (ctlOf s) (hereOf s).v = e :: r → e.at_ ≤ s.now → bqRetained s (hereOf s).k (hereOf s).v < 8 →
        Completes (.bqbr sb imm) s
          { flow := .branch e.val (displaced (pc s) imm) 0, links := [e.ord],
            ctl := fun c => setBq c (hereOf s).v ((getBq c (hereOf s).v).drop 1) } ∧
        Completes (.bqbrn sb imm) s
          { flow := .branch e.val (displaced (pc s) imm) 1, links := [e.ord],
            ctl := fun c => setBq c (hereOf s).v ((getBq c (hereOf s).v).drop 1) } ∧
        Completes (.bqbrt sb imm) s
          { flow := .branch e.val (displaced (pc s) imm) 2, links := [e.ord],
            ctl := fun c => setBq c (hereOf s).v ((getBq c (hereOf s).v).drop 1) }) ∧
      (∀ e r, getBq (ctlOf s) (hereOf s).v = e :: r → s.now < e.at_ ∨ 8 ≤ bqRetained s (hereOf s).k (hereOf s).v →
        Stalls s (.bqbr sb imm) false ∧ Stalls s (.bqbrn sb imm) false ∧ Stalls s (.bqbrt sb imm) false) ∧
      (getBq (ctlOf s) (hereOf s).v = [] →
        if (otherVoices (hereOf s).v).all (fun u => countsExited s (hereOf s).k u) then
          Traps s (.bqbr sb imm) 0x0D 0 s ∧ Traps s (.bqbrn sb imm) 0x0D 0 s ∧ Traps s (.bqbrt sb imm) 0x0D 0 s
        else Stalls s (.bqbr sb imm) false ∧ Stalls s (.bqbrn sb imm) false ∧ Stalls s (.bqbrt sb imm) false))

/-- R70, R71: NOP does nothing but use its cycle. EXIT waits for the pending-result file; then its voice has exited with no chain
and no loop level, and its clause ends where a word has issued in it. Flags on their way hold EXIT and FLIP as results do
(assumption 92).
R72, R73, R170: TRAP retires and leaves its stop to the end of the cycle, where the thread stops with cause 0x06 behind the word, in
the next schedule cycle; BRK traps with cause 0x07 where its context has no debug session, whatever its predicate bits.
R288, R290: under a session it stops the thread's core instead: at the edge of the cycle in which it would issue and be the first to
stop, before the results of the cycle land (assumption 105), and at its issue where it comes to that. -/
def Obligations.NopExitTrapAndBrk : Prop :=
  (∀ (s : State) (sb : BitVec 1) (p : BitVec 3), MayIssue s sb p .all →
     Completes (.nop sb p) s {} ∧
     ((me s).pending ≠ [] ∨ (me s).flagq ≠ [] → Stalls s (.flip sb p) false ∧ Stalls s (.exit sb p) false) ∧
     ((getVoice s (hereOf s).k (hereOf s).v).issued = true → sealQueueFull s (hereOf s).k (hereOf s).v = true →
       Stalls s (.exit sb p) false) ∧
     ((me s).pending = [] → (me s).flagq = [] →
       ((getVoice s (hereOf s).k (hereOf s).v).issued = true → sealQueueFull s (hereOf s).k (hereOf s).v = false) →
       ∃ t, exec (.exit sb p) s = .next t ∧ archAt t (hereOf s) = exitArch (me s) ∧ (archAt t (hereOf s)).exited = true ∧
         ClauseAfter (hereOf s) s t (getVoice s (hereOf s).k (hereOf s).v).issued ∧
         ((getVoice s (hereOf s).k (hereOf s).v).issued = true → ∀ c ∈ s.core.clauses, c.id = clauseAt s (hereOf s) →
           ∃ c' ∈ t.core.clauses, c'.id = c.id ∧ c'.boundary = some s.now) ∧
         KeptArray s t ∧ KeptMemory (hereOf s) s t ∧ KeptHeld (hereOf s) s t [] ∧
         ((slotAt s (hereOf s)).run ≠ .handler → ∀ u, u ≠ (hereOf s).v → getArch t (hereOf s).k u = getArch s (hereOf s).k u) ∧
         ((slotAt s (hereOf s)).run = .handler → ∀ u, (getArch t (hereOf s).k u).exited = true ∨ u = .A) ∧
         (slotAt t (hereOf s)).run = (if allExited (slotAt t (hereOf s)) then .ended else (slotAt s (hereOf s)).run))) ∧
  ((∀ (s : State) (sb : BitVec 1) (p : BitVec 3) (c : BitVec 10), MayIssue s sb p .all → (slotAt s (hereOf s)).trapped = none →
     ∃ t, exec (.trap sb p c) s = .next t ∧ archAt t (hereOf s) = (advance (me s) .seq).1 ∧
       (slotAt t (hereOf s)).trapped = some ((hereOf s).v, currentWord s (hereOf s)) ∧
       KeptVoices (hereOf s) s t ∧ KeptArray s t ∧ KeptMemory (hereOf s) s t ∧ KeptHeld (hereOf s) s t [] ∧
       KeptCtl (hereOf s) s t id id) ∧
   (∀ (s : State) (k : Nat) (v : VoiceId) (w : BitVec 32), (getSlot s k).trapped = some (v, w) → (getSlot s k).run = .running →
     ∃ st, (getSlot (stopTrapped s k) k).stop = some st ∧ (getSlot (stopTrapped s k) k).run = .stopping ∧ st.cause = 0x06 ∧
       st.voice = some v ∧ st.word = w ∧ st.fault = 0 ∧ st.at_ = s.now + 1 ∧ st.async = false) ∧
   (∀ (s : State) (sb : BitVec 1) (x : BitVec 25), Takes s 0 0 .all false → Plain s →
     ((threadCtx s (hereOf s).k).session = none → Traps s (.brk sb x) 0x07 0 s) ∧
     (∀ n u, (threadCtx s (hereOf s).k).session = some n →
       debugStop s (hereOf s).k 2 (slotAt s (hereOf s)).imageAt = some u → othersIssued s (hereOf s) = false →
       exec (.brk sb x) s = .next (setMark u (hereOf s) .trapped))) ∧
   (∀ s t : State, s.turn = 0 → s.inbox = [] → dueStop s 3 = none → dueMarker s = none → brkStop exec s = some t →
     step s = .next t) ∧
   (∀ (s : State) (v : VoiceId), brkVoice exec s = some v → s.pastEdge = false ∧ voiceReady s v = true ∧
     (getArch s s.core.act v).na0.nul = false ∧ (threadCtx s s.core.act).session.isSome = true ∧
     brkStop exec s = debugStop s s.core.act 2 (getSlot s s.core.act).imageAt))

/-- R74: ERET outside handler mode is ILLEGAL. In the handler it waits for the pending-result file and then for every closed clause
of the slot to seal; then the four voices are what the record says, and the thread runs on from the next cycle, or takes a SIGNAL
held over the handler before any word issues (R317). A byte of the record without translation or R permission traps XLATE at it; a
poisoned line of it is a machine check there. Delay slots, waits and voice A's exited bit, which no field of the record has, come from
what the slot keeps beside it (assumption 78). -/
def Obligations.EretReloadsTheRecord : Prop :=
  ∀ (s : State) (sb : BitVec 1) (p : BitVec 3), Takes s sb 0 .a false →
    ((slotAt s (hereOf s)).run ≠ .handler → Traps s (.eret sb p) 0x01 0 s) ∧
    ((slotAt s (hereOf s)).run = .handler →
      (Plain s → Live s p → (me s).pending ≠ [] ∨ (me s).flagq ≠ [] → Stalls s (.eret sb p) false) ∧
      (Plain s → Live s p → (me s).pending = [] → (me s).flagq = [] → sealQueueFull s (hereOf s).k (hereOf s).v = false →
        ∃ t c, exec (.eret sb p) s = .next t ∧ Did s t
          { arch := fun a => { a with wait := some ⟨.eret, clauseAt s (hereOf s), [], 0, 0, s.now, pc s⟩ }, flow := .keep, closes := c }) ∧
      (∀ w, (me s).wait = some w → slotClosed s (hereOf s).k ≠ [] → Stalls s (.eret sb p) false) ∧
      (∀ w, (me s).wait = some w → slotClosed s (hereOf s).k = [] →
        (∀ bad, spanParts s (threadCtx s (hereOf s).k) true .read (slotAt s (hereOf s)).recAddr 3 recordSize = .error bad →
          Traps s (.eret sb p) 0x09 (mod64 bad) s) ∧
        (∀ ps, spanParts s (threadCtx s (hereOf s).k) true .read (slotAt s (hereOf s)).recAddr 3 recordSize = .ok ps →
          (∀ a, poisonedRecord s ps = some a → othersIssued s (hereOf s) = false →
            exec (.eret sb p) s = .next (setMark (machineCheck s (hereOf s).k a (storageCode a)) (hereOf s) .trapped)) ∧
          (poisonedRecord s ps = none → othersIssued s (hereOf s) = false →
          ∃ t, exec (.eret sb p) s = .next t ∧ (∀ v, getArch t (hereOf s).k v = reloaded s ps v) ∧ KeptArray s t ∧
            KeptHeld (hereOf s) s t [] ∧ (∀ a, sget t.core.spad a = sget s.core.spad a) ∧
            (∀ a, sget t.pkg.mem a = sget s.pkg.mem a) ∧
            ((slotAt s (hereOf s)).heldSignal = false → (slotAt t (hereOf s)).run = .running ∧
              (slotAt t (hereOf s)).stop = none ∧ (slotAt t (hereOf s)).startAt = s.now + 1) ∧
            ((slotAt s (hereOf s)).heldSignal = true → (slotAt t (hereOf s)).run = .stopping ∧
              (slotAt t (hereOf s)).heldSignal = false ∧ ∃ st, (slotAt t (hereOf s)).stop = some st ∧ st.cause = 0x20 ∧
                st.voice = none ∧ st.async = true ∧ st.at_ = s.now + 1)))))


/-- R122, R124, R36: LDS writes the bytes at its address, as the core sees them, and its base in the post-increment form; an
address outside the window and the apertures traps RANGE at the first byte that is. While a FENCE of voice A over core scratchpad is
in force it waits (R226); over poisoned data it is a machine check.
R123, R124, R94: STS holds the low bytes of its source for its clause at the address computed; from then on the core reads those
bytes there and every other byte of scratchpad as before. It stalls while the hold-back buffer lacks room. -/
def Obligations.ScratchpadLoadsAndStores : Prop :=
  (∀ (s : State) (sb : BitVec 1) (p : BitVec 3) (d b : BitVec 5) (z : BitVec 2) (o : BitVec 1) (imm : BitVec 9) (a bad : Nat),
     MayIssue s sb p .a →
     (spadLoadAddr (slotAt s (hereOf s)) (memAddr (me s) b o imm (accWidth z)).toNat (accWidth z) = .ok a →
       (spadFenced s (hereOf s).k = true → Stalls s (.lds sb p d b z o imm) false) ∧
       (∀ x, spadFenced s (hereOf s).k = false → spadPoison s a (accWidth z) = some x → othersIssued s (hereOf s) = false →
         exec (.lds sb p d b z o imm) s = .next (setMark (machineCheck s (hereOf s).k x 0) (hereOf s) .trapped)) ∧
       (spadFenced s (hereOf s).k = false → spadPoison s a (accWidth z) = none →
       Room s (⟨.s d.toNat, row64 (mod64 (leNat (readSpad s a (accWidth z)))), 4⟩ :: postWrite (me s) b o imm (accWidth z)) →
       Completes (.lds sb p d b z o imm) s
         { writes := ⟨.s d.toNat, row64 (mod64 (leNat (readSpad s a (accWidth z)))), 4⟩ :: postWrite (me s) b o imm (accWidth z) })) ∧
     (spadLoadAddr (slotAt s (hereOf s)) (memAddr (me s) b o imm (accWidth z)).toNat (accWidth z) = .error bad →
       Traps s (.lds sb p d b z o imm) 0x0B (mod64 bad) s)) ∧
  (∀ (s : State) (sb : BitVec 1) (p : BitVec 3) (d b : BitVec 5) (z : BitVec 2) (o : BitVec 1) (imm : BitVec 9) (a bad : Nat),
     MayIssue s sb p .a →
     (spadStoreAddr (slotAt s (hereOf s)) (memAddr (me s) b o imm (accWidth z)).toNat (accWidth z) = .ok a →
       (holdbackRoom s.core (clauseAt s (hereOf s)) false a (accWidth z) = false → Stalls s (.sts sb p d b z o imm) false) ∧
       (holdbackRoom s.core (clauseAt s (hereOf s)) false a (accWidth z) = true → Room s (postWrite (me s) b o imm (accWidth z)) →
         ∃ t, exec (.sts sb p d b z o imm) s = .next t ∧
           Did s t { writes := postWrite (me s) b o imm (accWidth z),
                     held := [.store false a (leBytes (accWidth z) (visS (me s) d).toNat) 1 false 0 0 0] } ∧
           readSpad t a (accWidth z) = leBytes (accWidth z) (visS (me s) d).toNat ∧
           ∀ x, x < a ∨ a + accWidth z ≤ x → readSpad t x 1 = readSpad s x 1)) ∧
     (spadStoreAddr (slotAt s (hereOf s)) (memAddr (me s) b o imm (accWidth z)).toNat (accWidth z) = .error bad →
       Traps s (.sts sb p d b z o imm) 0x0B (mod64 bad) s))

/-- R123, R125, R87, R88: LDQ pushes 128 bytes of scratchpad to a load queue, filled 6 cycles on; STQ pops a store queue and holds the
entry as a store, and waits for an entry and then for room in the hold-back buffer. Each may update its base, traps QUEUEBOUND on a
queue with a stream, and LDQ to a queue without consumer is discarded.
R125: QPUSH pushes sixteen copies of a scalar, filled in the next cycle; QPUSH from a store queue moves its head, filled two
cycles on. -/
def Obligations.QueueLoadsStoresAndPushes : Prop :=
  (∀ (s : State) (sb : BitVec 1) (p : BitVec 3) (q : BitVec 2) (j : BitVec 1) (b : BitVec 5) (o : BitVec 1) (imm : BitVec 9) (a : Nat),
     MayIssue s sb p .a → Room s (postWrite (me s) b o imm 128) →
     (queueBound s (hereOf s) q.toNat = true → Traps s (.ldq sb p q b o imm) 0x0C 0 s) ∧
     (∀ bad, queueBound s (hereOf s) q.toNat = false →
       spadLoadAddr (slotAt s (hereOf s)) (memAddr (me s) b o imm 128).toNat 128 = .error bad →
       Traps s (.ldq sb p q b o imm) 0x0B (mod64 bad) s) ∧
     (queueBound s (hereOf s) q.toNat = false →
       spadLoadAddr (slotAt s (hereOf s)) (memAddr (me s) b o imm 128).toNat 128 = .ok a →
       (tryPush s (hereOf s).k q.toNat = .full → Stalls s (.ldq sb p q b o imm) false) ∧
       (tryPush s (hereOf s).k q.toNat = .drop →
         Completes (.ldq sb p q b o imm) s { writes := postWrite (me s) b o imm 128 }) ∧
       (∀ c, tryPush s (hereOf s).k q.toNat = .trap c → Traps s (.ldq sb p q b o imm) c 0 s) ∧
       (tryPush s (hereOf s).k q.toNat = .room → spadFenced s (hereOf s).k = true → Stalls s (.ldq sb p q b o imm) false) ∧
       (tryPush s (hereOf s).k q.toNat = .room → spadFenced s (hereOf s).k = false → spadPoison s a 128 = none →
         Completes (.ldq sb p q b o imm) s
           { writes := postWrite (me s) b o imm 128,
             ctl := fun c => pushEntry c q.toNat ⟨s.core.nextId, clauseAt s (hereOf s), entryPlace s []⟩,
             fills := [⟨s.core.nextId, q.toNat, BitVec.ofNat 1024 (leNat (readSpad s a 128)), s.now + 6⟩] })) ∧
     (queueBound s (hereOf s) (4 + j.toNat) = true → Traps s (.stq sb p j b o imm) 0x0C 0 s) ∧
     (∀ bad, queueBound s (hereOf s) (4 + j.toNat) = false →
       spadStoreAddr (slotAt s (hereOf s)) (memAddr (me s) b o imm 128).toNat 128 = .error bad →
       Traps s (.stq sb p j b o imm) 0x0B (mod64 bad) s) ∧
     (queueBound s (hereOf s) (4 + j.toNat) = false →
       spadStoreAddr (slotAt s (hereOf s)) (memAddr (me s) b o imm 128).toNat 128 = .ok a →
       (tryPop s (hereOf s).k (4 + j.toNat) = .wait → Stalls s (.stq sb p j b o imm) false) ∧
       (∀ c, tryPop s (hereOf s).k (4 + j.toNat) = .trap c → Traps s (.stq sb p j b o imm) c 0 s) ∧
       (∀ e v, tryPop s (hereOf s).k (4 + j.toNat) = .ready e v → v.poison = none →
         holdbackRoom s.core (clauseAt s (hereOf s)) false a 128 = false → Stalls s (.stq sb p j b o imm) false) ∧
       (∀ e v, tryPop s (hereOf s).k (4 + j.toNat) = .ready e v → v.poison = none →
         holdbackRoom s.core (clauseAt s (hereOf s)) false a 128 = true →
         ∃ t, exec (.stq sb p j b o imm) s = .next t ∧
           Did s t { writes := postWrite (me s) b o imm 128,
                     ctl := fun c => setQueue c (4 + j.toNat) ((getQueue c (4 + j.toNat)).drop 1),
                     held := [.store false a (leBytes 128 v.val.toNat) 1 false 0 0 0], links := [e.ord] } ∧
           readSpad t a 128 = leBytes 128 v.val.toNat ∧
           ∀ x, x < a ∨ a + 128 ≤ x → readSpad t x 1 = readSpad s x 1))) ∧
  (∀ (s : State) (sb : BitVec 1) (p : BitVec 3) (k : BitVec 2) (a : BitVec 5) (j : BitVec 1), MayIssue s sb p .a →
     (queueBound s (hereOf s) k.toNat = true → Traps s (.qpush sb p k a) 0x0C 0 s ∧ Traps s (.qpushSq sb p k j) 0x0C 0 s) ∧
     (queueBound s (hereOf s) k.toNat = false →
       (tryPush s (hereOf s).k k.toNat = .full → Stalls s (.qpush sb p k a) false) ∧
       (tryPush s (hereOf s).k k.toNat = .drop → Completes (.qpush sb p k a) s {}) ∧
       (tryPush s (hereOf s).k k.toNat = .room →
         Completes (.qpush sb p k a) s
           { ctl := fun c => pushEntry c k.toNat ⟨s.core.nextId, clauseAt s (hereOf s), entryPlace s []⟩,
             fills := [⟨s.core.nextId, k.toNat, rowOf 64 (List.replicate 16 (visS (me s) a).toNat), s.now + 1⟩] }) ∧
       (∀ c, tryPush s (hereOf s).k k.toNat = .trap c → Traps s (.qpush sb p k a) c 0 s) ∧
       (queueBound s (hereOf s) (4 + j.toNat) = true → Traps s (.qpushSq sb p k j) 0x0C 0 s) ∧
       (queueBound s (hereOf s) (4 + j.toNat) = false → tryPop s (hereOf s).k (4 + j.toNat) = .wait →
         Stalls s (.qpushSq sb p k j) false) ∧
       (∀ c, queueBound s (hereOf s) (4 + j.toNat) = false → tryPop s (hereOf s).k (4 + j.toNat) = .trap c →
         Traps s (.qpushSq sb p k j) c 0 s) ∧
       (∀ e v, queueBound s (hereOf s) (4 + j.toNat) = false → tryPop s (hereOf s).k (4 + j.toNat) = .ready e v →
         v.poison = none →
         (tryPush s (hereOf s).k k.toNat = .full → Stalls s (.qpushSq sb p k j) false) ∧
         (∀ c, tryPush s (hereOf s).k k.toNat = .trap c → Traps s (.qpushSq sb p k j) c 0 s) ∧
         (tryPush s (hereOf s).k k.toNat = .drop → Completes (.qpushSq sb p k j) s
           { ctl := fun c => setQueue c (4 + j.toNat) ((getQueue c (4 + j.toNat)).drop 1), links := [e.ord] }) ∧
         (tryPush s (hereOf s).k k.toNat = .room → Completes (.qpushSq sb p k j) s
           { ctl := fun c => pushEntry (setQueue c (4 + j.toNat) ((getQueue c (4 + j.toNat)).drop 1)) k.toNat
               ⟨s.core.nextId, clauseAt s (hereOf s), entryPlace s [e.ord]⟩,
             links := [e.ord],
             fills := [⟨s.core.nextId, k.toNat, v.val, s.now + 2⟩] }))))

/-- R89 to R91, R126, R127: SBIND reads a descriptor at a 64-byte boundary, checks it (RANGE, ILLEGAL at the first bad byte,
QUEUEBOUND, RANGE at the lowest element out of range) and binds the stream, which no bank serves in that cycle; SUNBIND unbinds it.
R92: a fill stream pushes its next entry, packed from the elements its pattern names; a drain stream pops the head of its queue
and holds a store for each element, once the banks have served the lines of the entry (R94). A fill whose consumer has exited only
moves on. The stream moves on by the elements of the entry, and the voices are left alone. -/
def Obligations.StreamsAreBoundAndServeTheirQueues : Prop :=
  (∀ (s : State) (sb : BitVec 1) (p : BitVec 3) (k : BitVec 3) (a q : BitVec 5) (m : Nat), MayIssue s sb p .a →
     (spadLoadAddr (slotAt s (hereOf s)) (visS (me s) a).toNat 64 = .ok m → (visS (me s) a).toNat % 64 = 0 →
       (spadFenced s (hereOf s).k = true → Stalls s (.sbind sb p k a q) false)) ∧
     (spadLoadAddr (slotAt s (hereOf s)) (visS (me s) a).toNat 64 = .ok m → (visS (me s) a).toNat % 64 = 0 →
       spadFenced s (hereOf s).k = false → spadPoison s m 64 = none →
       (∀ i, firstBadByte (readSpad s m 64) q.toNat = some i → Traps s (.sbind sb p k a q) 0x01 (visS (me s) a + mod64 i) s) ∧
       (firstBadByte (readSpad s m 64) q.toNat = none →
         (streamBound (ctlOf s) k.toNat = true ∨ (boundStream (ctlOf s) q.toNat).isSome = true →
           Traps s (.sbind sb p k a q) 0x0C 0 s) ∧
         (streamBound (ctlOf s) k.toNat = false → boundStream (ctlOf s) q.toNat = none →
           (∀ bad, patternFault (slotAt s (hereOf s)) (parseStream (readSpad s m 64) q.toNat) = some bad →
             Traps s (.sbind sb p k a q) 0x0B (int64 bad) s) ∧
           (patternFault (slotAt s (hereOf s)) (parseStream (readSpad s m 64) q.toNat) = none →
             ∃ t, exec (.sbind sb p k a q) s = .next t ∧
               Did s t { ctl := fun c => { c with streams := mput c.streams k.toNat (boundAs s (readSpad s m 64) q.toNat) } } ∧
               t.served.contains (8 * (hereOf s).k + k.toNat) = true)))) ∧
     ((visS (me s) a).toNat % 64 ≠ 0 ∨ (∃ bad, spadLoadAddr (slotAt s (hereOf s)) (visS (me s) a).toNat 64 = .error bad) →
       Traps s (.sbind sb p k a q) 0x0B (visS (me s) a) s) ∧
     (∀ x, getStream (ctlOf s) k.toNat = some x → x.bound = true →
       Completes (.sunbind sb p k) s { ctl := fun c => { c with streams := mput c.streams k.toNat { x with bound := false } } }) ∧
     ((∀ x, getStream (ctlOf s) k.toNat = some x → x.bound = false) → Completes (.sunbind sb p k) s {})) ∧
  (∀ (s : State) (k i : Nat) (x : Stream), s.granted.contains (8 * k + i) = true → canServe s k i = true → clockRuns s = true → getStream (getCtl s k) i = some x →
     (x.drain = false → streamPoison s x = none → tryPush s k x.queue = .room →
       ∃ t, exec (.streamService k i) s = .next t ∧
         getCtl t k = { pushEntry (getCtl s k) x.queue ⟨s.core.nextId, streamClause s k, clauseClock s k (streamClause s k)⟩ with
           streams := mput (getCtl s k).streams i (advanceStream x) } ∧
         (getSlot t k).qvals = mput (getSlot s k).qvals s.core.nextId
           ⟨packEntry x.decode x.esz ((entryAddrs x).map (fun a => leNat (readSpad s a x.esz))), none⟩ ∧
         (∀ v, getArch t k v = getArch s k v) ∧ KeptArray s t ∧ t.core.held = s.core.held ∧ t.core.spad = s.core.spad ∧
         t.pkg = s.pkg) ∧
     (x.drain = false → streamPoison s x = none → tryPush s k x.queue = .drop →
       ∃ t, exec (.streamService k i) s = .next t ∧
         getCtl t k = { getCtl s k with streams := mput (getCtl s k).streams i (advanceStream x) } ∧
         (getSlot t k).qvals = (getSlot s k).qvals ∧ t.core.held = s.core.held ∧ t.core.spad = s.core.spad) ∧
     (x.drain = true → ∀ e v, tryPop s k x.queue = .ready e v → v.poison = none → unsealed s.core (streamClause s k) = true →
       ∃ t, exec (.streamService k i) s = .next t ∧
         getCtl t k = { setQueue (getCtl s k) x.queue ((getQueue (getCtl s k) x.queue).drop 1) with
           streams := mput (getCtl s k).streams i (advanceStream x) } ∧
         t.core.held = s.core.held ++ ((entryAddrs x).zip (unpackEntry x.decode x.esz (nextElems x) v.val)).mapIdx (fun n y =>
           ⟨s.core.nextId + n, k, streamClause s k, clauseClock { s with core := { s.core with nextId := s.core.nextId + n } } k
             (streamClause s k), .store false y.1 (leBytes x.esz y.2) 1 false 0 0 0⟩) ∧
         (∀ v, getArch t k v = getArch s k v) ∧ KeptArray s t ∧ t.core.spad = s.core.spad ∧ t.pkg = s.pkg))

/-- R95, R130: COMMIT of a landing slot that is FULL or FREE writes its data to a scalar (A) or a vector (X0, X1), and the slot is FREE;
of a BUSY one it waits; of a failed transfer it frees the slot and traps with the transfer's cause and address. -/
def Obligations.CommitTakesWhatHasLanded : Prop :=
  ∀ (s : State) (sb : BitVec 1) (p : BitVec 3) (d : BitVec 5) (k : BitVec 3), MayIssue s sb p .ax →
    ((hereOf s).v.isX = true → d.toNat < 28) →
    (∀ x, getLanding (ctlOf s) (landKey s k) = .free x → Room s [⟨commitDest (hereOf s) d, x, commitLat s⟩] →
      Completes (.commit sb p d k) s { writes := [⟨commitDest (hereOf s) d, x, commitLat s⟩] }) ∧
    (∀ id cl, getLanding (ctlOf s) (landKey s k) = .xfer id cl →
      (mfind (slotAt s (hereOf s)).arrived id = none → Stalls s (.commit sb p d k) true) ∧
      (∀ x, mfind (slotAt s (hereOf s)).arrived id = some x → x.poison = none →
        (x.fault = none → Room s [⟨commitDest (hereOf s) d, x.data, commitLat s⟩] →
          Completes (.commit sb p d k) s
            { writes := [⟨commitDest (hereOf s) d, x.data, commitLat s⟩],
              ctl := fun c => setLanding c (landKey s k) (.free x.data) }) ∧
        (∀ c, x.fault = some c → Traps s (.commit sb p d k) c (mod64 (xferAddr s (hereOf s).k id))
          (changeAt (depAt s (hereOf s) cl) (hereOf s) (.landSet (landKey s k) (.free 0))))))

/-! ### Vector words -/

namespace Sys2Proof.Claim

/-- A vector word: its S, C and q bits, its source codes, its destination, its latency, what it computes. -/
structure VecWord (D : Type) where
  sb : BitVec 1
  cb : BitVec 1
  q : BitVec 1
  srcs : List (BitVec 5)
  dst : D
  lat : Nat
  f : VecFn

/-- An integer lane result, modulo 2^32, without flags (R131). -/
def intLanes (m : BitVec 3) (f : Nat → Nat → Nat) : VecFn := binary 32 m (fun _ x y => (f x y % 2 ^ 32, 0))

/-- An integer compare of lanes, without flags (R131). -/
def intTest (m : BitVec 3) (f : Nat → Nat → Bool) : VecFn := compare 32 m (fun x y => (f x y, 0))

/-- The words that write a vector register or push a queue (Tables 8.4 to 8.9). -/
def vectorWord : Instr → Option (VecWord (BitVec 5))
  | .vaddI32 sb c m d a b q => some ⟨sb, c, q, [a, b], d, 2, intLanes m (fun x y => x + y)⟩
  | .vsubI32 sb c m d a b q => some ⟨sb, c, q, [a, b], d, 2, intLanes m (fun x y => x + 2 ^ 32 - y)⟩
  | .vmulI32 sb c m d a b q => some ⟨sb, c, q, [a, b], d, 4, intLanes m (fun x y => x * y)⟩
  | .vmulhI32 sb c m d a b q => some ⟨sb, c, q, [a, b], d, 4, intLanes m (fun x y => (signedPart 32 x * signedPart 32 y / 2 ^ 32 % 2 ^ 32).toNat)⟩
  | .vmulhnI32 sb c m d a b q => some ⟨sb, c, q, [a, b], d, 4, intLanes m (fun x y => x * y / 2 ^ 32)⟩
  | .vminI32 sb c m d a b q => some ⟨sb, c, q, [a, b], d, 2, intLanes m (fun x y => if signedPart 32 x < signedPart 32 y then x else y)⟩
  | .vmaxI32 sb c m d a b q => some ⟨sb, c, q, [a, b], d, 2, intLanes m (fun x y => if signedPart 32 x < signedPart 32 y then y else x)⟩
  | .vminnI32 sb c m d a b q => some ⟨sb, c, q, [a, b], d, 2, intLanes m (fun x y => min x y)⟩
  | .vmaxnI32 sb c m d a b q => some ⟨sb, c, q, [a, b], d, 2, intLanes m (fun x y => max x y)⟩
  | .vandI32 sb c m d a b q => some ⟨sb, c, q, [a, b], d, 2, intLanes m (fun x y => x &&& y)⟩
  | .vorI32 sb c m d a b q => some ⟨sb, c, q, [a, b], d, 2, intLanes m (fun x y => x ||| y)⟩
  | .vxorI32 sb c m d a b q => some ⟨sb, c, q, [a, b], d, 2, intLanes m (fun x y => x ^^^ y)⟩
  | .vshlI32 sb c m d a b q => some ⟨sb, c, q, [a, b], d, 2, intLanes m (fun x y => x * 2 ^ (y % 32))⟩
  | .vshrI32 sb c m d a b q => some ⟨sb, c, q, [a, b], d, 2, intLanes m (fun x y => x / 2 ^ (y % 32))⟩
  | .vsraI32 sb c m d a b q => some ⟨sb, c, q, [a, b], d, 2, intLanes m (fun x y => (signedPart 32 x / 2 ^ (y % 32) % 2 ^ 32).toNat)⟩
  | .vsel sb c m d a b q => some ⟨sb, c, q, [a, b], d, 2, selectLanes m⟩
  | .vaddF32 sb c m d a b q => some ⟨sb, c, q, [a, b], d, 4, binary 32 m (fAdd fp32)⟩
  | .vsubF32 sb c m d a b q => some ⟨sb, c, q, [a, b], d, 4, binary 32 m (fSub fp32)⟩
  | .vmulF32 sb c m d a b q => some ⟨sb, c, q, [a, b], d, 4, binary 32 m (fMul fp32)⟩
  | .vminF32 sb c m d a b q => some ⟨sb, c, q, [a, b], d, 4, binary 32 m (minLane fp32)⟩
  | .vmaxF32 sb c m d a b q => some ⟨sb, c, q, [a, b], d, 4, binary 32 m (maxLane fp32)⟩
  | .vabsF32 sb c m d a q => some ⟨sb, c, q, [a], d, 2, unary 32 m (absLane fp32)⟩
  | .vnegF32 sb c m d a q => some ⟨sb, c, q, [a], d, 2, unary 32 m (negLane fp32)⟩
  | .vaddF16 sb c m d a b q => some ⟨sb, c, q, [a, b], d, 4, binary 16 m (fAdd fp16)⟩
  | .vsubF16 sb c m d a b q => some ⟨sb, c, q, [a, b], d, 4, binary 16 m (fSub fp16)⟩
  | .vmulF16 sb c m d a b q => some ⟨sb, c, q, [a, b], d, 4, binary 16 m (fMul fp16)⟩
  | .vminF16 sb c m d a b q => some ⟨sb, c, q, [a, b], d, 4, binary 16 m (minLane fp16)⟩
  | .vmaxF16 sb c m d a b q => some ⟨sb, c, q, [a, b], d, 4, binary 16 m (maxLane fp16)⟩
  | .vabsF16 sb c m d a q => some ⟨sb, c, q, [a], d, 2, unary 16 m (absLane fp16)⟩
  | .vnegF16 sb c m d a q => some ⟨sb, c, q, [a], d, 2, unary 16 m (negLane fp16)⟩
  | .vaddBf16 sb c m d a b q => some ⟨sb, c, q, [a, b], d, 4, binary 16 m (fAdd bf16)⟩
  | .vsubBf16 sb c m d a b q => some ⟨sb, c, q, [a, b], d, 4, binary 16 m (fSub bf16)⟩
  | .vmulBf16 sb c m d a b q => some ⟨sb, c, q, [a, b], d, 4, binary 16 m (fMul bf16)⟩
  | .vminBf16 sb c m d a b q => some ⟨sb, c, q, [a, b], d, 4, binary 16 m (minLane bf16)⟩
  | .vmaxBf16 sb c m d a b q => some ⟨sb, c, q, [a, b], d, 4, binary 16 m (maxLane bf16)⟩
  | .vabsBf16 sb c m d a q => some ⟨sb, c, q, [a], d, 2, unary 16 m (absLane bf16)⟩
  | .vnegBf16 sb c m d a q => some ⟨sb, c, q, [a], d, 2, unary 16 m (negLane bf16)⟩
  | .vfmaF32 sb c m d a b e q => some ⟨sb, c, q, [a, b, e], d, 5, ternary 32 m (fFma fp32)⟩
  | .vfmsF32 sb c m d a b e q => some ⟨sb, c, q, [a, b, e], d, 5, ternary 32 m (fFms fp32)⟩
  | .vfmaBf16 sb c m d a b e q => some ⟨sb, c, q, [a, b, e], d, 5, ternary 16 m (fFma bf16)⟩
  | .vfmaF16 sb c m d a b e q => some ⟨sb, c, q, [a, b, e], d, 5, ternary 16 m (fFma fp16)⟩
  | .vcvtF32I32 sb c m d a r _ => some ⟨sb, c, 0, [a], d, 3, sameWidth m r intToF⟩
  | .vcvtI32F32 sb c m d a r _ => some ⟨sb, c, 0, [a], d, 3, sameWidth m r fToInt⟩
  | .vcvtF32F16 sb c m d a x _ => some ⟨sb, c, 0, [a], d, 3, widening 16 x.toNat m fp16⟩
  | .vcvtF32Bf16 sb c m d a x _ => some ⟨sb, c, 0, [a], d, 3, widening 16 x.toNat m bf16⟩
  | .vcvtF16F32 sb c m d a x r _ => some ⟨sb, c, 0, [a], d, 3, narrowing 16 x.toNat m r fp16⟩
  | .vcvtBf16F32 sb c m d a x r _ => some ⟨sb, c, 0, [a], d, 3, narrowing 16 x.toNat m r bf16⟩
  | .vcvtF32E4m3 sb c m d a x _ => some ⟨sb, c, 0, [a], d, 3, widening 8 x.toNat m e4m3⟩
  | .vcvtF32E5m2 sb c m d a x _ => some ⟨sb, c, 0, [a], d, 3, widening 8 x.toNat m e5m2⟩
  | .vcvtE4m3F32 sb c m d a x r _ => some ⟨sb, c, 0, [a], d, 3, narrowing 8 x.toNat m r e4m3⟩
  | .vcvtE5m2F32 sb c m d a x r _ => some ⟨sb, c, 0, [a], d, 3, narrowing 8 x.toNat m r e5m2⟩
  | .vpackB4 sb c m d a x _ => some ⟨sb, c, 0, [a], d, 4, packBlock x.toNat m⟩
  | .vunpackB4 sb c m d a x _ => some ⟨sb, c, 0, [a], d, 4, unpackBlock x.toNat m⟩
  | .vperm sb c m d a b q => some ⟨sb, c, q, [a, b], d, 3, permLanes m⟩
  | .vrot sb c m d a b q => some ⟨sb, c, q, [a], d, 3, rotLanes m b⟩
  | .vbcast sb c m d a q => some ⟨sb, c, q, [], d, 2, castLanes m a⟩
  | .vbspl sb c m d a j q => some ⟨sb, c, q, [a], d, 5, unary 32 m (basisLane j.toNat)⟩
  | _ => none

/-- The words that write a mask or a scalar: compares (R131, R132) and reductions (R115). -/
def vectorToReg : Instr → Option (VecWord RegId)
  | .vcmpeqI32 sb c m d a b q => some ⟨sb, c, q, [a, b], .m d.toNat, 2, intTest m (fun x y => decide (x = y))⟩
  | .vcmpltI32 sb c m d a b q => some ⟨sb, c, q, [a, b], .m d.toNat, 2, intTest m (fun x y => decide (signedPart 32 x < signedPart 32 y))⟩
  | .vcmpltnI32 sb c m d a b q => some ⟨sb, c, q, [a, b], .m d.toNat, 2, intTest m (fun x y => decide (x < y))⟩
  | .vcmpeqF32 sb c m d a b q => some ⟨sb, c, q, [a, b], .m d.toNat, 2, compare 32 m (fEq fp32)⟩
  | .vcmpltF32 sb c m d a b q => some ⟨sb, c, q, [a, b], .m d.toNat, 2, compare 32 m (fLt fp32)⟩
  | .vcmpleF32 sb c m d a b q => some ⟨sb, c, q, [a, b], .m d.toNat, 2, compare 32 m (fLe fp32)⟩
  | .vcmpeqF16 sb c m d a b q => some ⟨sb, c, q, [a, b], .m d.toNat, 2, compare 16 m (fEq fp16)⟩
  | .vcmpltF16 sb c m d a b q => some ⟨sb, c, q, [a, b], .m d.toNat, 2, compare 16 m (fLt fp16)⟩
  | .vcmpleF16 sb c m d a b q => some ⟨sb, c, q, [a, b], .m d.toNat, 2, compare 16 m (fLe fp16)⟩
  | .vcmpeqBf16 sb c m d a b q => some ⟨sb, c, q, [a, b], .m d.toNat, 2, compare 16 m (fEq bf16)⟩
  | .vcmpltBf16 sb c m d a b q => some ⟨sb, c, q, [a, b], .m d.toNat, 2, compare 16 m (fLt bf16)⟩
  | .vcmpleBf16 sb c m d a b q => some ⟨sb, c, q, [a, b], .m d.toNat, 2, compare 16 m (fLe bf16)⟩
  | .vredadd sb c m d a q => some ⟨sb, c, q, [a], .s d.toNat, 6, reduction m 0 id (fAdd fp32)⟩
  | .vredmax sb c m d a q => some ⟨sb, c, q, [a], .s d.toNat, 6, reduction m 0xFF800000 id (maxLane fp32)⟩
  | .viredadd sb c m d a q => some ⟨sb, c, q, [a], .s d.toNat, 4, reduction m 0 wideLane addWide⟩
  | _ => none

/-- What the flags of a word do to its voice: they enter RAISED at its latency, unless q suppresses them (R15, R113). -/
def raising (now lat : Nat) (q : BitVec 1) (fl : BitVec 320) (a : VoiceArch) : VoiceArch :=
  if q = 1 ∨ fl = 0 then a else { a with flagq := a.flagq ++ [⟨fl, now + lat⟩] }

/-- The heads of queues popped (R88). -/
def popped (qs : List Nat) (c : Ctl) : Ctl := qs.foldl (fun c q => setQueue c q ((getQueue c q).drop 1)) c

/-- The places in thread order of the entries a word pops (R235). -/
abbrev poppedAt (s : State) (qs : List Nat) : List (List Nat) := qs.flatMap (fun q => ((getQueue (ctlOf s) q).take 1).map (fun e => e.ord))

/-- The values of the sources (R119). -/
abbrev sourcesOf (s : State) (hs : List (Nat × QVal)) (codes : List (BitVec 5)) : List Row :=
  codes.map (vecOperand (me s) (hereOf s).v hs)

end Sys2Proof.Claim

/-- R119, R131 to R137: a vector word that takes effect pops the queues its sources name, computes its result lane by lane from
their heads and from visible registers, and writes it to its vector or pushes it to its queue at its latency; the flags enter
RAISED. A queue that cannot supply, or that is full, stalls it; one whose stream has ended traps; one without consumer takes nothing.
R120: conversions and packs raise their flags whatever bit q is (assumption 94, against the words of R15 and R114 for q = 1); the sign
of a zero basis value of VBSPL is assumption 31.
R115, R131, R132: a compare writes its mask and a reduction its scalar, from the live lanes of its sources; the flags enter
RAISED, those of a result that m0 or s0 discards too (assumption 92). -/
def Obligations.VectorWordsComputeTheirLanes : Prop :=
  (∀ (i : Instr) (s : State) (x : VecWord (BitVec 5)) (hs : List (Nat × QVal)), vectorWord i = some x →
     Takes s x.sb x.cb .x false → Plain s →
     (tryPops s (hereOf s).k (queuesOf (hereOf s).v x.srcs) = .wait → Stalls s i false) ∧
     (∀ c, tryPops s (hereOf s).k (queuesOf (hereOf s).v x.srcs) = .trap c → Traps s i c 0 s) ∧
     (tryPops s (hereOf s).k (queuesOf (hereOf s).v x.srcs) = .ready hs → poisonedHead hs = none →
       (∀ r, dstQueue (hereOf s).v x.dst = none → r = x.f (me s) (sourcesOf s hs x.srcs) (visV (me s) x.dst.toNat) →
         Room s [⟨.v x.dst.toNat, r.row, x.lat⟩] →
         Completes i s
           { arch := raising s.now x.lat x.q r.flags, writes := [⟨.v x.dst.toNat, r.row, x.lat⟩],
             ctl := popped (queuesOf (hereOf s).v x.srcs), links := poppedAt s (queuesOf (hereOf s).v x.srcs) }) ∧
       (∀ r k, dstQueue (hereOf s).v x.dst = some k → r = x.f (me s) (sourcesOf s hs x.srcs) 0 →
         (tryPush s (hereOf s).k k = .full → Stalls s i false) ∧
         (∀ c, tryPush s (hereOf s).k k = .trap c → Traps s i c 0 s) ∧
         (tryPush s (hereOf s).k k = .drop →
           Completes i s
             { arch := raising s.now x.lat x.q r.flags, ctl := popped (queuesOf (hereOf s).v x.srcs),
               links := poppedAt s (queuesOf (hereOf s).v x.srcs) }) ∧
         (tryPush s (hereOf s).k k = .room →
           Completes i s
             { arch := raising s.now x.lat x.q r.flags,
               ctl := fun c => pushEntry (popped (queuesOf (hereOf s).v x.srcs) c) k
                 ⟨s.core.nextId, clauseAt s (hereOf s), entryPlace s (poppedAt s (queuesOf (hereOf s).v x.srcs))⟩,
               links := poppedAt s (queuesOf (hereOf s).v x.srcs),
               fills := [⟨s.core.nextId, k, r.row, s.now + x.lat⟩] })))) ∧
  (∀ (i : Instr) (s : State) (x : VecWord RegId) (hs : List (Nat × QVal)) (r : VRes), vectorToReg i = some x →
     Takes s x.sb x.cb .x false → Plain s → tryPops s (hereOf s).k (queuesOf (hereOf s).v x.srcs) = .ready hs →
     poisonedHead hs = none → r = x.f (me s) (sourcesOf s hs x.srcs) (faceGet (me s).vis x.dst) →
     Room s [⟨x.dst, r.row, x.lat⟩] →
     Completes i s
       { arch := raising s.now x.lat x.q r.flags, writes := [⟨x.dst, r.row, x.lat⟩],
         ctl := popped (queuesOf (hereOf s).v x.srcs), links := poppedAt s (queuesOf (hereOf s).v x.srcs) })

/-- R119: lane i of a lane-wise result is what the operation gives where the mask's bit for it is 1, and the old lane elsewhere; bit
i covers lane i of 32 bits, and lanes 2i and 2i + 1 of 16. Lanes that are not live raise no flag. -/
def Obligations.MaskedLanesKeepTheOldValue : Prop :=
  ∀ (m : BitVec 32) (old : Row) (f : Nat → Nat × Flags),
    (∀ i < 32, lane 32 i (perLane 32 m old f).row = if m.getLsbD i then (f i).1 % 2 ^ 32 else lane 32 i old) ∧
    (∀ i < 64, lane 16 i (perLane 16 m old f).row = if m.getLsbD (i / 2) then (f i).1 % 2 ^ 16 else lane 16 i old) ∧
    (∀ i < 32, m.getLsbD i = false → ∀ b < 5, (perLane 32 m old f).flags.getLsbD (10 * i + b) = false) ∧
    (∀ i < 32, m.getLsbD i = true → ∀ b < 5, (perLane 32 m old f).flags.getLsbD (10 * i + b) = (f i).2.getLsbD b)

/-- R105, R111: a NaN operand gives the default NaN, with NV for a signalling one; VMIN and VMAX of one NaN give the other operand;
compares of a NaN are false, with NV for an ordered one; an exact zero difference is +0, and −0 under RDN; zero times an infinity
raises NV whatever is added; VABS and VNEG change the sign bit alone. -/
def Obligations.FloatingPointSpecialCases : Prop :=
  ∀ (f : Fmt) (mode : Mode) (x y z : Nat), f = fp32 ∨ f = fp16 ∨ f = bf16 →
    (isNan (decodeNum f x) = true ∨ isNan (decodeNum f y) = true →
      fAdd f mode x y = (defaultNaN f, flagIf (isSnan (decodeNum f x) || isSnan (decodeNum f y)) flagNV) ∧
      fSub f mode x y = (defaultNaN f, flagIf (isSnan (decodeNum f x) || isSnan (decodeNum f y)) flagNV) ∧
      fMul f mode x y = (defaultNaN f, flagIf (isSnan (decodeNum f x) || isSnan (decodeNum f y)) flagNV) ∧
      fEq f x y = (false, flagIf (isSnan (decodeNum f x) || isSnan (decodeNum f y)) flagNV) ∧
      fLt f x y = (false, flagNV) ∧ fLe f x y = (false, flagNV)) ∧
    (∀ big, isNan (decodeNum f x) = true → isNan (decodeNum f y) = false →
      (fMinMax f big x y).1 = y ∧ (fMinMax f big y x).1 = y) ∧
    (∀ big, isNan (decodeNum f x) = true → isNan (decodeNum f y) = true → (fMinMax f big x y).1 = defaultNaN f) ∧
    (∀ n m e, decodeNum f x = .fin n m e → decodeNum f y = .fin (!n) m e →
      fAdd f mode x y = (signBit f (decide (mode = 3)), 0)) ∧
    (isZeroNum (decodeNum f x) = true → isInfNum (decodeNum f y) = true →
      (fFma f mode x y z).2.getLsbD 4 = true ∧ (fFms f mode x y z).2.getLsbD 4 = true) ∧
    (x < 2 ^ (f.ew + f.fw + 1) → fAbs f x = x % 2 ^ (f.ew + f.fw) ∧ (fNeg f x + 2 ^ (f.ew + f.fw)) % 2 ^ (f.ew + f.fw + 1) = x)

/-! ### Engines -/

namespace Sys2Proof.Claim

/-- The TPL of an engine, and its engine code (Table 9.2). -/
def tplOf (sb : BitVec 1) (p : BitVec 3) (t a : BitVec 5) (tlo : BitVec 1) : List (Instr × Nat) :=
  [(.tplC sb p t a tlo, 1), (.tplA sb p t a tlo, 2), (.tplS sb p t a tlo, 3)]

/-- The PAT of an engine. -/
def patOf (sb : BitVec 1) (t : BitVec 6) (f : BitVec 3) (v : BitVec 16) : List (Instr × Nat) :=
  [(.patC sb t f v, 1), (.patA sb t f v, 2), (.patS sb t f v, 3)]

/-- The PIS of an engine. -/
def pisOf (sb : BitVec 1) (t : BitVec 6) (f : BitVec 3) (v : BitVec 16) : List (Instr × Nat) :=
  [(.pisC sb t f v, 1), (.pisA sb t f v, 2), (.pisS sb t f v, 3)]

/-- The template a word names, amended (R142). -/
abbrev amended (s : State) (eng : Nat) (t : BitVec 6) (f : BitVec 3) (v : BitVec 16) : BitVec 1024 :=
  patched (getTmpl s (hereOf s) eng t) f.toNat v

/-- The counter a word names. -/
abbrev counterOf (s : State) (k : BitVec 3) : Counter := getCounter (ctlOf s) k.toNat

/-- A counter with `n` arrivals taken, with one command more, with EXC clear, and with `n` discarded (R145, R146). -/
def counterTaken (x : Counter) (n : Nat) : Counter := { x with arrived := x.arrived.drop n }

def counterMore (x : Counter) : Counter := { x with out := x.out + 1 }

def counterClear (x : Counter) : Counter := { x with exc := false }

def counterLess (x : Counter) (n : Nat) : Counter :=
  { x with arrived := x.arrived.drop n, absorb := min 0xFFFF (x.absorb + (n - x.arrived.length)) }

/-- A context whose events and completions go to no replay log (R300). -/
abbrev Unlogged (s : State) (c : Nat) : Prop := (getCtx s c).replay.mode = 0 ∧ (getCtx s c).waitingEvents = []

/-- The commands with their engines, opcodes and effects (Table 9.3). -/
def commandOf : List ((Nat → Instr) × Nat × Nat × (Run → Run)) :=
  [(.copy, 1, 1, runCopy), (.copyf, 1, 2, runCopy), (.arrLoadb, 2, 1, runLoadb), (.arrMm, 2, 2, runMm), (.arrSpl, 2, 3, runSpl),
   (.arrGrad, 2, 4, runGrad), (.arrRefine, 2, 5, runRefine), (.arrDrain, 2, 6, runDrain),
   (.arrRowout, 2, 7, fun r => useRow r 5 (tTile r.m.tmpl * 64 + tRow0 r.m.tmpl)),
   (.scatAdd, 3, 1, runScat), (.scatMax, 3, 2, runScat)]

/-! What the commands write (R151 to R167), for operands in core scratchpad. -/

/-- The command of this number is of this engine and opcode and may start (R143); it has rows enough in its ring (R147); nothing in
the core is poisoned (R182); what is held has been numbered. -/
abbrev Starts (s : State) (id eng op : Nat) (m : Cmd) : Prop :=
  findCmd s id = some m ∧ m.eng = eng ∧ tOp m.tmpl = op ∧ cmdReady s m = true ∧ ringOverrun s m = false ∧
    s.core.badRows = [] ∧ s.core.poison = [] ∧ ∀ h ∈ s.core.held, h.id < s.core.nextId

/-- The command as it begins. -/
abbrev begun (s : State) (m : Cmd) : Run := ⟨s, m, [], .none⟩

/-- Row `i` of a source, and of the gradients of ARR.GRAD, in core scratchpad (R155, R163). -/
abbrev sourceRow (s : State) (m : Cmd) (i : Nat) : List Byte :=
  readSpad s ((m.src : Int) + (i : Nat) * tSrcStep m.tmpl 0).toNat (srcRowBytes m.tmpl)

abbrev gradientRow (s : State) (m : Cmd) (i : Nat) : Array Byte :=
  (readSpad s ((m.dst : Int) + (i : Nat) * tDstStep m.tmpl 0).toNat 256).toArray

/-- The spline inputs of source row `i` (R160). -/
abbrev inputsOf (s : State) (m : Cmd) (i : Nat) : List SplIn :=
  splInputs m.tmpl m.knots (affineOf (begun s m)) (sourceRow s m i).toArray

/-- Rows of `n` words from number `lo` on, `k` of them, may have changed in a map; every other row is kept. -/
abbrev RowsKept {w : Nat} (x y : SMap w) (n lo k : Nat) : Prop := ∀ r, r < lo ∨ lo + k ≤ r → mrange y (r * n) n = mrange x (r * n) n

/-- Core scratchpad byte by byte, while elements of `e` bytes are copied one after the other (R151). -/
def copied (src dst : Nat → Nat → Int) (e : Nat) : Nat → (Int → Byte) → Int → Byte
  | 0, v, a => v a
  | n + 1, v, a =>
    match (List.range e).find? (fun b => decide (dst n b = a)) with
    | some b => copied src dst e n v (src n b)
    | none => copied src dst e n v a

/-- What the last of `n` elements that covers a byte puts there; none where no element does. -/
def moved (dst : Nat → Nat → Int) (e : Nat) (val : Nat → Nat → Byte) : Nat → Int → Option Byte
  | 0, _ => none
  | n + 1, a =>
    match (List.range e).find? (fun b => decide (dst n b = a)) with
    | some b => some (val n b)
    | none => moved dst e val n a

/-- The byte that held stores give a device address: the last of them counts. -/
def heldByte (hs : List Held) (a : Nat) : Option Byte :=
  hs.foldl (fun x h =>
    match h.eff with
    | .store true pa bs _ _ _ _ _ => if pa ≤ a ∧ a < pa + bs.length then some (bs.getD (a - pa) 0) else x
    | _ => x) none

/-- A byte of core scratchpad as the core sees it. -/
def spadByte (s : State) (a : Int) : Byte := (readSpad s a.toNat 1).headD 0

/-- Where byte `b` of element `j` of a copy stands in core scratchpad: beside its element's base, or in the command's ring from byte
`pos` of it on, which wraps at its end (R98, R151). -/
def copyPlace (s : State) (m : Cmd) (space base pos : Nat) (step : Nat → Int) (j b : Nat) : Int :=
  if space = 3 then
    (((getRing (getCtl s m.slot) (tRing m.tmpl)).base +
      (pos + j * tEsz m.tmpl + b) % 2 ^ (getRing (getCtl s m.slot) (tRing m.tmpl)).lgsize : Nat) : Int)
  else elemPlace m.tmpl 0 base step j + (b : Nat)

abbrev copySrc (s : State) (m : Cmd) : Nat → Nat → Int := copyPlace s m (tSsp m.tmpl) m.src (ringFrom s m) (tSrcStep m.tmpl)

abbrev copyDst (s : State) (m : Cmd) : Nat → Nat → Int := copyPlace s m (tDsp m.tmpl) m.dst (ringTo s m) (tDstStep m.tmpl)

/-- A side of a copy lies in core scratchpad, at no negative address. -/
abbrev InCore (m : Cmd) (space : Nat) (place : Nat → Nat → Int) : Prop :=
  space = 3 ∨ (space = 0 ∧ ∀ j < copyCount m.tmpl, 0 ≤ place j 0)

/-- Offset of element `j` in cluster scratchpad. -/
abbrev spkSrc (m : Cmd) (j : Nat) : Int := elemPlace m.tmpl 1 (tSrc m.tmpl) (tSrcStep m.tmpl) j

abbrev spkDst (m : Cmd) (j : Nat) : Int := elemPlace m.tmpl 1 (tDst m.tmpl) (tDstStep m.tmpl) j

/-- Every element stands in cluster scratchpad. -/
abbrev InCluster (m : Cmd) (place : Nat → Int) : Prop :=
  ∀ j < copyCount m.tmpl, 0 ≤ place j ∧ place j + (tEsz m.tmpl : Nat) ≤ (spkSize : Nat)

/-- Device bytes as the command reads them. -/
abbrev cmdReads (s : State) (m : Cmd) (pa n : Nat) : List Byte := readDev s m.slot (afterAll s) pa n

/-- The copy has filled core scratchpad with these bytes of its elements and changed nothing else of it, nor memory or the array. -/
abbrev Filled (s t : State) (m : Cmd) (val : Nat → Nat → Byte) : Prop :=
  KeptArray s t ∧ (∀ a, sget t.pkg.mem a = sget s.pkg.mem a) ∧
    ∀ a : Nat, spadByte t a = (moved (copyDst s m) (tEsz m.tmpl) val (copyCount m.tmpl) a).getD (spadByte s a)

/-- The copy holds stores `es` for its clause and has changed neither core scratchpad, memory nor the array. -/
abbrev Holds (s t : State) (m : Cmd) (es : List Held) : Prop :=
  t.core.held = s.core.held ++ es ∧ (∀ h ∈ es, h.slot = m.slot ∧ h.clause = m.clause) ∧ t.core.spad = s.core.spad ∧
    KeptArray s t ∧ ∀ a, sget t.pkg.mem a = sget s.pkg.mem a

/-- R98, R151, R152, R228: what COPY and COPYF move: within core scratchpad and its rings element by element in order; from cluster
scratchpad, or from translated memory, into core scratchpad; from core scratchpad as stores held for the clause at the cluster
scratchpad's addresses, or at those that the translated parts, or the publish half of each, have. Copies from and to translated memory
are stated of one element. -/
def CopiesMove : Prop :=
  ∀ (ins : Nat → Instr) (op : Nat), (ins, op) ∈ [(Instr.copy, 1), (Instr.copyf, 2)] → ∀ (s : State) (id : Nat) (m : Cmd),
    Starts s id 1 op m →
    (InCore m (tDsp m.tmpl) (copyDst s m) →
      (InCore m (tSsp m.tmpl) (copySrc s m) →
        ∃ t, exec (ins id) s = .next t ∧ KeptArray s t ∧ (∀ a, sget t.pkg.mem a = sget s.pkg.mem a) ∧
          ∀ a : Nat, spadByte t a = copied (copySrc s m) (copyDst s m) (tEsz m.tmpl) (copyCount m.tmpl) (spadByte s) a) ∧
      (tSsp m.tmpl = 1 → InCluster m (spkSrc m) →
        (∀ j < copyCount m.tmpl, poisonAt s.pkg (spkAddr s (spkSrc m j).toNat) (tEsz m.tmpl) = none) →
        ∃ t, exec (ins id) s = .next t ∧
          Filled s t m (fun j b => (cmdReads s m (spkAddr s (spkSrc m j).toNat) (tEsz m.tmpl)).getD b 0)) ∧
      (tSsp m.tmpl = 2 → copyCount m.tmpl = 1 → ∀ u ps,
        translate s (getCtx s m.ctx) m.smode .read (tSrc m.tmpl) (tEsz m.tmpl) = (u, .ok ps) → kindsDiffer false ps = false →
        (∀ p ∈ ps, poisonAt s.pkg p.pa p.len = none) →
        ∃ t, exec (ins id) s = .next t ∧ Filled s t m (fun _ b => (ps.flatMap (fun p => cmdReads s m p.pa p.len)).getD b 0))) ∧
    (InCore m (tSsp m.tmpl) (copySrc s m) → unsealed s.core m.clause = true →
      (tDsp m.tmpl = 1 → InCluster m (spkDst m) →
        ∃ t es, exec (ins id) s = .next t ∧ Holds s t m es ∧
          ∀ a : Nat, heldByte es a = moved (fun j b => ((spkAddr s (spkDst m j).toNat + b : Nat) : Int)) (tEsz m.tmpl)
            (fun j b => spadByte s (copySrc s m j b)) (copyCount m.tmpl) a) ∧
      (tDsp m.tmpl = 2 → copyCount m.tmpl = 1 → ∀ u ps,
        translate s (getCtx s m.ctx) m.smode .write (tDst m.tmpl) (tEsz m.tmpl) = (u, .ok ps) → kindsDiffer false ps = false →
        (∀ p ∈ ps, (writeHalf (getCtx s m.ctx) m.tmpl p).isSome = true) →
        (∀ p ∈ ps, ∀ q ∈ ps, ∀ x y, p ≠ q → writeHalf (getCtx s m.ctx) m.tmpl p = some x →
          writeHalf (getCtx s m.ctx) m.tmpl q = some y → x + p.len ≤ y ∨ y + q.len ≤ x) →
        ∃ t es, exec (ins id) s = .next t ∧ Holds s t m es ∧
          ∀ p ∈ ps, ∀ x, writeHalf (getCtx s m.ctx) m.tmpl p = some x → ∀ i < p.len,
            heldByte es (x + i) = some (spadByte s (copySrc s m 0 (p.va + i - tDst m.tmpl)))))

/-- The elements of a scatter command: word offset and value (R167). -/
abbrev scatterElems (s : State) (m : Cmd) : List (Nat × BitVec 32) :=
  ((words32 (readSpad s m.src (4 * tExt m.tmpl 0))).zip (words32 (readSpad s m.dst (4 * tExt m.tmpl 0)))).map
    (fun p => (tCbase m.tmpl + 4 * p.1.toNat, p.2))

/-- R155, R157, R160 to R164, R167: what the other commands write: ARR.LOADB the cells, headers or
affine table; ARR.MM and ARR.SPL the tile rows, over the old ones with ACC = 1; ARR.GRAD the gradient rows; ARR.REFINE the cells,
clearing the gradients; the scatter commands the windows of their elements up to the first out of range, which is RANGE. -/
def CommandsWrite : Prop :=
  (∀ (s : State) (id : Nat) (m : Cmd), Starts s id 2 1 m → tSsp m.tmpl = 0 →
     ∃ t, exec (.arrLoadb id) s = .next t ∧ t.core.tiles = s.core.tiles ∧ t.core.grads = s.core.grads ∧
       t.core.spad = s.core.spad ∧ t.core.held = s.core.held ∧
       (tSel m.tmpl = true → mrange t.core.affine 0 128 = affineEntries (words32 (sourceRow s m 0)) ∧
         t.core.cells = s.core.cells ∧ t.core.headers = s.core.headers) ∧
       (tSel m.tmpl = false → t.core.affine = s.core.affine ∧
         (∀ i < tN m.tmpl, mrange t.core.cells (cellKey (tBank m.tmpl) (tRow0 m.tmpl + i)) 1024 =
           words16 ((pieces64 (if tBf m.tmpl = 3 then 40 else 32) (sourceRow s m i)).flatMap (fun c => c.take 32))) ∧
         RowsKept s.core.cells t.core.cells 1024 (tBank m.tmpl * 64 + tRow0 m.tmpl) (tN m.tmpl) ∧
         (tBf m.tmpl = 3 →
           (∀ i < tN m.tmpl, mrange t.core.headers (headerKey (tBank m.tmpl) (tRow0 m.tmpl + i)) 256 =
             words16 ((pieces64 40 (sourceRow s m i)).flatMap (fun c => c.drop 32))) ∧
           RowsKept s.core.headers t.core.headers 256 (tBank m.tmpl * 64 + tRow0 m.tmpl) (tN m.tmpl)) ∧
         (tBf m.tmpl ≠ 3 → t.core.headers = s.core.headers))) ∧
  (∀ (s : State) (id : Nat) (m : Cmd) (op : Nat) (ins : Nat → Instr) (row : Nat → List (BitVec 32)),
     (ins, op, row) ∈ [(Instr.arrMm, 2, fun i => mmRow m.tmpl (sourceRow s m i).toArray (bankOf (begun s m)) (headersOf (begun s m))
         (startRow (begun s m) i)),
       (Instr.arrSpl, 3, fun i => splRow (inputsOf s m i) (bankOf (begun s m)) (startRow (begun s m) i))] →
     Starts s id 2 op m → tSsp m.tmpl = 0 →
     ∃ t, exec (ins id) s = .next t ∧ t.core.cells = s.core.cells ∧ t.core.headers = s.core.headers ∧
       t.core.grads = s.core.grads ∧ t.core.affine = s.core.affine ∧ t.core.spad = s.core.spad ∧ t.core.held = s.core.held ∧
       (∀ i < tN m.tmpl, tileRow t.core (tTile m.tmpl) (tRow0 m.tmpl + i) = row i) ∧
       RowsKept s.core.tiles t.core.tiles 64 (tTile m.tmpl * 64 + tRow0 m.tmpl) (tN m.tmpl)) ∧
  (∀ (s : State) (id : Nat) (m : Cmd) (st : GradSt), Starts s id 2 4 m → tSsp m.tmpl = 0 →
     st = (List.range (tN m.tmpl)).foldl (fun x i => gradInputs m.knots.kg.toNat (gradientRow s m i) x 0 (inputsOf s m i))
       ⟨(if tAcc m.tmpl then mrange s.core.grads 0 (tNin m.tmpl * 1024) else List.replicate (tNin m.tmpl * 1024) 0).toArray, false⟩ →
     ∃ t, exec (.arrGrad id) s = .next t ∧ t.core.cells = s.core.cells ∧ t.core.headers = s.core.headers ∧
       t.core.tiles = s.core.tiles ∧ t.core.affine = s.core.affine ∧ t.core.spad = s.core.spad ∧
       (∀ i < tNin m.tmpl, gradRow t.core i = (List.range 1024).map (fun j => st.gs.getD (i * 1024 + j) 0)) ∧
       RowsKept s.core.grads t.core.grads 1024 0 (tNin m.tmpl)) ∧
  (∀ (s : State) (id : Nat) (m : Cmd), Starts s id 2 5 m → m.knots.kg.toNat ≤ 6 →
     ∃ t, exec (.arrRefine id) s = .next t ∧ t.core.headers = s.core.headers ∧ t.core.tiles = s.core.tiles ∧
       t.core.affine = s.core.affine ∧ t.core.spad = s.core.spad ∧
       (∀ i < tN m.tmpl, mrange t.core.cells (cellKey (tBank m.tmpl) (tRow0 m.tmpl + i)) 1024 =
           (List.range 64).flatMap (fun c => (refineCell m.knots.kg.toNat
             (((mrange s.core.cells (cellKey (tBank m.tmpl) (tRow0 m.tmpl + i)) 1024).drop (16 * c)).take 16)).1) ∧
         gradRow t.core (tRow0 m.tmpl + i) = List.replicate 1024 0) ∧
       RowsKept s.core.cells t.core.cells 1024 (tBank m.tmpl * 64 + tRow0 m.tmpl) (tN m.tmpl) ∧
       RowsKept s.core.grads t.core.grads 1024 (tRow0 m.tmpl) (tN m.tmpl)) ∧
  (∀ (s : State) (id : Nat) (m : Cmd) (op : Nat) (ins : Nat → Instr), (ins, op) ∈ [(Instr.scatAdd, 1), (Instr.scatMax, 2)] →
     Starts s id 3 op m →
     ∃ t n, exec (ins id) s = .next t ∧ findCmd t id = some n ∧ n.state = .done ∧ KeptArray s t ∧ t.core.spad = s.core.spad ∧
       t.core.held = s.core.held ∧
       n.windows = m.windows ++ windowsOf ((inBounds (scatterElems s m)).1.length + 1) (inBounds (scatterElems s m)).1 ∧
       n.fault = (match (inBounds (scatterElems s m)).2 with | some off => some (0x0B, off) | none => m.fault))

/-- R165, R166: ARR.DRAIN writes its rows, of a tile or of scaled gradients, to core scratchpad, or gives them to the scatter engine by
windows, and with ACC = 1 clears them; ARR.ROWOUT fills its landing slot with half a tile row as it retires. -/
def DrainsWrite : Prop :=
  (∀ (s : State) (id : Nat) (m : Cmd), Starts s id 2 6 m →
     (tAcc m.tmpl = true → tSel m.tmpl = false → tDsp m.tmpl = 0 → tSc m.tmpl = false →
       ∃ t, exec (.arrDrain id) s = .next t ∧ t.core.grads = s.core.grads ∧ t.core.cells = s.core.cells ∧
         (∀ i < tN m.tmpl, tileRow t.core (tTile m.tmpl) (tRow0 m.tmpl + i) = List.replicate 64 0) ∧
         RowsKept s.core.tiles t.core.tiles 64 (tTile m.tmpl * 64 + tRow0 m.tmpl) (tN m.tmpl)) ∧
     (tAcc m.tmpl = true → tSel m.tmpl = true → tDsp m.tmpl = 0 → tSc m.tmpl = false →
       ∃ t, exec (.arrDrain id) s = .next t ∧ t.core.tiles = s.core.tiles ∧ t.core.cells = s.core.cells ∧
         (∀ i < tN m.tmpl, gradRow t.core (tRow0 m.tmpl + i) = List.replicate 1024 0) ∧
         RowsKept s.core.grads t.core.grads 1024 (tRow0 m.tmpl) (tN m.tmpl)) ∧
     (tDsp m.tmpl = 0 → tSc m.tmpl = false → (∀ i < tN m.tmpl, 0 ≤ dstRowPlace (begun s m) i) →
       (∀ i < tN m.tmpl, ∀ j < i, dstRowPlace (begun s m) i + dstRowBytes m.tmpl ≤ dstRowPlace (begun s m) j ∨
         dstRowPlace (begun s m) j + dstRowBytes m.tmpl ≤ dstRowPlace (begun s m) i) →
       ∃ t, exec (.arrDrain id) s = .next t ∧ (tAcc m.tmpl = false → KeptArray s t) ∧
         (∀ i < tN m.tmpl, readSpad t (dstRowPlace (begun s m) i).toNat (dstRowBytes m.tmpl) =
           (drainRow (begun s m) i).flatMap (fun x => leBytes 4 x.toNat)) ∧
         ∀ a : Nat, (∀ i < tN m.tmpl, a < dstRowPlace (begun s m) i ∨ dstRowPlace (begun s m) i + dstRowBytes m.tmpl ≤ a) →
           spadByte t a = spadByte s a) ∧
     (tSc m.tmpl = true → tCbase m.tmpl + tN m.tmpl * dstRowBytes m.tmpl ≤ spkSize →
       ∃ t n, exec (.arrDrain id) s = .next t ∧ findCmd t id = some n ∧ t.core.spad = s.core.spad ∧ t.core.held = s.core.held ∧
         n.windows = m.windows ++ (List.range (tN m.tmpl)).flatMap (fun i => windowsOf (dstRowBytes m.tmpl / 4 + 1)
           ((List.range (dstRowBytes m.tmpl / 4)).map (fun e =>
             (tCbase m.tmpl + 4 * (i * (dstRowBytes m.tmpl / 4) + e), (drainRow (begun s m) i).getD e 0)))))) ∧
  (∀ (s : State) (id : Nat) (m : Cmd), findCmd s id = some m → retireReady s m = true → isArr m.tmpl 7 = true →
     ∃ t, exec (.commandRetire id) s = .next t ∧
       mfind (getSlot t m.slot).arrived m.id = some ⟨rowoutRow s m.tmpl, none, none⟩)

/-- The counters after a command has retired: its arrival on its own, and, where a COPYF has faulted, its follow-on's arrival with the
fault on that one's (R145, R147). -/
def retiredCounters (s : State) (m : Cmd) (c : Ctl) : Ctl :=
  let c1 := setCounter c (tCc m.tmpl) (counterArrive (getCounter c (tCc m.tmpl)) ⟨m.id, m.fault, s.now⟩ m.exc)
  match m.follow, m.fault with
  | some f, some x =>
    let c2 := setCounter c1 (tCc f) (counterMore (getCounter c1 (tCc f)))
    setCounter c2 (tCc f) (counterArrive (getCounter c2 (tCc f)) ⟨m.id, some x, s.now⟩ false)
  | _, _ => c1

/-- What a window applies to a word it names: its elements for the word combined in order (R196). -/
def windowValue (t : BitVec 1024) (w : List (Nat × BitVec 32)) (off : Nat) : Option (BitVec 32) :=
  match (w.filter (fun e => decide (e.1 = off))).map (fun e => e.2) with
  | [] => none
  | v :: r => some (r.foldl (mergeOp t) v)

end Sys2Proof.Claim

/-- R141, R142: TPL loads a template of its engine from 128 bytes of scratchpad, its tag cleared, and traps RANGE at a bad or
unaligned address and ILLEGAL on an image it does not accept; PAT replaces the 16 bits its field selects.
R143: PIS waits while its engine's queue is full or its row's landing slot is BUSY; it amends the template, and then traps with
the first check that fails, the amendment kept, or enqueues a command with a copy of the template and of the knots, counted on
its completion counter. The landing slot is that of the template as amended (assumption 90). -/
def Obligations.TemplatesArePatchedAndIssued : Prop :=
  ((∀ (s : State) (sb : BitVec 1) (p : BitVec 3) (t a : BitVec 5) (tlo : BitVec 1) (i : Instr) (eng m : Nat),
     (i, eng) ∈ tplOf sb p t a tlo → MayIssue s sb p .c →
     ((visS (me s) a).toNat % 64 ≠ 0 ∨ (∃ bad, spadLoadAddr (slotAt s (hereOf s)) (visS (me s) a).toNat 128 = .error bad) →
       Traps s i 0x0B (visS (me s) a) s) ∧
     (spadLoadAddr (slotAt s (hereOf s)) (visS (me s) a).toNat 128 = .ok m → (visS (me s) a).toNat % 64 = 0 →
       spadFenced s (hereOf s).k = true → Stalls s i false) ∧
     (spadLoadAddr (slotAt s (hereOf s)) (visS (me s) a).toNat 128 = .ok m → (visS (me s) a).toNat % 64 = 0 →
       spadFenced s (hereOf s).k = false → spadPoison s m 128 = none →
       (templateOk (BitVec.ofNat 1024 (leNat (readSpad s m 128))) eng = false → Traps s i 0x01 0 s) ∧
       (templateOk (BitVec.ofNat 1024 (leNat (readSpad s m 128))) eng = true →
         Completes i s
           { ctl := fun c => { c with templates := sset c.templates (64 * eng + (t.toNat + 32 * tlo.toNat)) (withTag
               (BitVec.ofNat 1024 (leNat (readSpad s m 128))) 0) } }))) ∧
   (∀ (s : State) (sb : BitVec 1) (t : BitVec 6) (f : BitVec 3) (v : BitVec 16) (i : Instr) (eng : Nat),
     (i, eng) ∈ patOf sb t f v → Takes s sb 0 .c false → Plain s →
     Completes i s { ctl := fun c => { c with templates := sset c.templates (64 * eng + t.toNat) (amended s eng t f v) } })) ∧
  (∀ (s : State) (sb : BitVec 1) (t : BitVec 6) (f : BitVec 3) (v : BitVec 16) (i : Instr) (eng : Nat),
     (i, eng) ∈ pisOf sb t f v → Takes s sb 0 .c false → Plain s →
     (engineDepth eng ≤ queuedCmds s eng ∨ slotBusy s (hereOf s).k (amended s eng t f v) = true → Stalls s i false) ∧
     (queuedCmds s eng < engineDepth eng → slotBusy s (hereOf s).k (amended s eng t f v) = false →
       (∀ cause bad, pisFault (ctlOf s) s.core.ctl.knots (slotAt s (hereOf s)) eng (amended s eng t f v) = some (cause, bad) →
         Traps s i cause bad (changeAt s (hereOf s) (.tmplSet (64 * eng + t.toNat) (amended s eng t f v)))) ∧
       (pisFault (ctlOf s) s.core.ctl.knots (slotAt s (hereOf s)) eng (amended s eng t f v) = none →
         (∀ m ∈ s.core.cmds, m.id < s.core.nextId) → (∀ p ∈ s.core.badRows, p.1 ≠ 7) →
         ∃ u m, exec i s = .next u ∧ archAt u (hereOf s) = (advance (me s) .seq).1 ∧ u.core.cmds = s.core.cmds ++ [m] ∧
           m.id = s.core.nextId ∧ m.slot = (hereOf s).k ∧ m.clause = clauseAt s (hereOf s) ∧ m.eng = eng ∧ m.state = .queued ∧
           m.issuedAt = s.now ∧ m.knots = s.core.ctl.knots ∧
           m.tmpl = withTag (amended s eng t f v) (slotAt s (hereOf s)).thread.tag ∧
           (getCtl u (hereOf s).k).counters = (setCounter (ctlOf s) (tCc m.tmpl)
             (counterMore (getCounter (ctlOf s) (tCc m.tmpl)))).counters ∧
           (getCtl u (hereOf s).k).templates = sset (ctlOf s).templates (64 * eng + t.toNat) (amended s eng t f v) ∧
           KeptVoices (hereOf s) s u ∧ KeptArray s u ∧ KeptMemory (hereOf s) s u ∧ u.core.held = s.core.held)))

/-- R145 to R147: CWAIT waits for N arrivals and takes them, or traps with the oldest fault among them and takes none; CDISC takes those
there are and has the rest absorbed; CRD reads a counter and clears its EXC bit. -/
def Obligations.CompletionCountersAreWaitedOnAndRead : Prop :=
  ∀ (s : State) (sb : BitVec 1) (p : BitVec 3) (k : BitVec 3) (n : BitVec 10) (d : BitVec 5), MayIssue s sb p .c →
    ((counterOf s k).arrived.length < n.toNat → Stalls s (.cwait sb p k n) true) ∧
    (n.toNat ≤ (counterOf s k).arrived.length →
      (oldestFault ((counterOf s k).arrived.take n.toNat) = none →
        Completes (.cwait sb p k n) s { ctl := fun c => setCounter c k.toNat (counterTaken (getCounter c k.toNat) n.toNat) }) ∧
      (∀ cause bad, oldestFault ((counterOf s k).arrived.take n.toNat) = some (cause, bad) →
        Traps s (.cwait sb p k n) cause (mod64 bad) s)) ∧
    Completes (.cdisc sb p k n) s { ctl := fun c => setCounter c k.toNat (counterLess (getCounter c k.toNat) n.toNat) } ∧
    (Room s [⟨.s d.toNat, row64 (counterWord (counterOf s k)), 2⟩] →
      Completes (.crd sb p d k) s
        { writes := [⟨.s d.toNat, row64 (counterWord (counterOf s k)), 2⟩],
          ctl := fun c => if (counterOf s k).exc then setCounter c k.toNat (counterClear (getCounter c k.toNat)) else c })

/-- R148, R150: RNGSET waits while a command uses the ring, traps RANGE on values it does not accept, and else sets base, sizes and tail
with the head at 0; PUBLISH holds a toggle of a valid publish buffer and traps RANGE on an invalid one.
R158, R159, R169: KSET sets a knot register to an allowed value, which KRD then reads, and traps KNOT on any other; KATCMP waits for
the commands that will write its digest, clears a digest that matches, and takes the core out of service on one that does not. -/
def Obligations.RingsBuffersKnotsAndDigests : Prop :=
  (∀ (s : State) (sb : BitVec 1) (p : BitVec 3) (k : BitVec 4) (a b : BitVec 5), MayIssue s sb p .c →
     (ringInUse s (hereOf s).k k.toNat = true → Stalls s (.rngset sb p k a b) false) ∧
     (ringInUse s (hereOf s).k k.toNat = false →
       (ringConfig (slotAt s (hereOf s)) (visS (me s) a).toNat (visS (me s) b).toNat = none →
         Traps s (.rngset sb p k a b) 0x0B (visS (me s) a) s) ∧
       (∀ g, ringConfig (slotAt s (hereOf s)) (visS (me s) a).toNat (visS (me s) b).toNat = some g →
         g.head = 0 ∧ g.base = (visS (me s) a).toNat ∧ g.lgsize = (visS (me s) b).toNat % 32 ∧
         g.lgrow = (visS (me s) b).toNat / 2 ^ 8 % 32 ∧ g.tail = (visS (me s) b).toNat / 2 ^ 32 % 2 ^ 20 ∧
         ∃ t, exec (.rngset sb p k a b) s = .next t ∧
           Did (retireTails s (hereOf s).k k.toNat) t { ctl := fun c => setRing c k.toNat g })) ∧
     ((pubOf (slotAt s (hereOf s)) k.toNat).valid = true → Completes (.publish sb p k) s { held := [.publish k.toNat] }) ∧
     ((pubOf (slotAt s (hereOf s)) k.toNat).valid = false →
       Traps s (.publish sb p k) 0x0B (mod64 (0x01000000 + k.toNat * 0x100000)) s)) ∧
  ((∀ (s : State) (sb : BitVec 1) (p : BitVec 3) (k : BitVec 3) (a : BitVec 5), MayIssue s sb p .c →
     (knotAllowed k.toNat (visS (me s) a) = true →
       Completes (.kset sb p k a) s { knots := fun n => applyKnots n (.knotSet k.toNat ((visS (me s) a).setWidth 32)) }) ∧
     (knotAllowed k.toNat (visS (me s) a) = false → Traps s (.kset sb p k a) 0x10 0 s) ∧
     (digestComing s (hereOf s).k k.toNat = true → Stalls s (.katcmp sb p k a) true) ∧
     (digestComing s (hereOf s).k k.toNat = false →
       (mfind (ctlOf s).digests k.toNat = some (visS (me s) a) →
         Completes (.katcmp sb p k a) s { ctl := fun c => { c with digests := mdel c.digests k.toNat } }) ∧
       (mfind (ctlOf s).digests k.toNat ≠ some (visS (me s) a) → othersIssued s (hereOf s) = false →
         exec (.katcmp sb p k a) s = .next (setMark
           (silentError s (hereOf s).k (mfind (ctlOf s).digests k.toNat) (visS (me s) a) k.toNat) (hereOf s) .trapped)))) ∧
   (∀ (n : Knots) (x : BitVec 32),
     knotRead (applyKnots n (.knotSet 0 x)) 0 = x.setWidth 64 ∧ knotRead (applyKnots n (.knotSet 1 x)) 1 = x.setWidth 64 ∧
     knotRead (applyKnots n (.knotSet 2 x)) 2 = x.setWidth 64 ∧ knotRead (applyKnots n (.knotSet 3 x)) 3 = mod64 (x.toNat % 16) ∧
     knotRead (applyKnots n (.knotSet 4 x)) 4 = mod64 (x.toNat % 4) ∧ knotRead (applyKnots n (.knotSet 5 x)) 5 = x.setWidth 64))

/-- R196, R167: the next window of the scatter command that entered first, its clause sealed, merges into the cluster scratchpad:
each distinct word it names once, with its elements for the word combined in order first; every other byte is unchanged, EXC tells
of a NaN or an infinity, and the window is gone. A window of another command, or of a clause not sealed, waits. -/
def Obligations.ScatterWindowsMergeInOrder : Prop :=
  ∀ (s : State) (id : Nat) (m : Cmd), findCmd s id = some m →
    (windowReady s id = false → exec (.scatterWindow id) s = .next s) ∧
    (∀ (w : List (Nat × BitVec 32)) (rest : List (List (Nat × BitVec 32))), windowReady s id = true → m.windows = w :: rest →
      (∀ e ∈ w, ∀ f ∈ w, e.1 % 4 = f.1 % 4) → Unlogged s m.ctx → memWf s.pkg.mem = true →
      ∃ t, exec (.scatterWindow id) s = .next t ∧
        (∀ off v, windowValue m.tmpl w off = some v → readMem t (spkAddr s off) 4 =
          leBytes 4 (mergeOp m.tmpl (BitVec.ofNat 32 (leNat (readMem s (spkAddr s off) 4))) v).toNat) ∧
        (∀ a, (∀ e ∈ w, a < spkAddr s e.1 ∨ spkAddr s e.1 + 4 ≤ a) → sget t.pkg.mem a = sget s.pkg.mem a) ∧
        (∃ n, findCmd t id = some n ∧ n.windows = rest ∧ n.merged = m.merged + 1 ∧
          (n.exc = true ↔ m.exc = true ∨ (tVf m.tmpl = 0 ∧ ∃ e ∈ w, exceptional (leNat (readMem t (spkAddr s e.1) 4)) = true))) ∧
        (∀ k v, getArch t k v = getArch s k v) ∧ t.core.ctl = s.core.ctl ∧ t.core.spad = s.core.spad ∧ KeptArray s t)

/-- R99, R143, R144, R147: a command of each kind that may start runs its whole effect, and faults RANGE with its ring's base where
it needs more rows than the ring has; one that is not there, of another kind, or that may not start yet changes nothing.
R101, R102, R145, R147, R178: a command that has run retires: its arrival, with its fault, goes to its completion counter or is
absorbed there, and a faulted COPYF's follow-on arrives faulted too; where its clause has sealed it leaves the core, and where it has
not it stays with its undo data, retired, for a rollback. Once a COPYF has landed its ring's tail advances, and its follow-on is
enqueued as an array command as soon as there is room.
R151 to R167: what the commands write to core scratchpad, to memory, to the array and to their windows. A command has its whole effect
in the step in which it starts (assumption 27). -/
def Obligations.EngineCommandsRunAndRetire : Prop :=
  (∀ (ins : Nat → Instr) (eng op : Nat) (run : Run → Run), (ins, eng, op, run) ∈ commandOf → ∀ (s : State) (id : Nat),
     (findCmd s id = none → exec (ins id) s = .next s) ∧
     (∀ m, findCmd s id = some m →
       (m.eng ≠ eng ∨ tOp m.tmpl ≠ op ∨ cmdReady s m = false → exec (ins id) s = .next s) ∧
       (m.eng = eng → tOp m.tmpl = op → cmdReady s m = true →
         (ringOverrun s m = false → exec (ins id) s = .next (finishRun (run ⟨s, m, [], .none⟩))) ∧
         (ringOverrun s m = true → exec (ins id) s = .next (finishRun
           (failRun ⟨s, m, [], .none⟩ 0x0B (getRing (getCtl s m.slot) (tRing m.tmpl)).base)))))) ∧
  (∀ (s : State) (id : Nat) (m : Cmd), findCmd s id = some m →
     (retireReady s m = true →
       ∃ t, exec (.commandRetire id) s = .next t ∧
         (getCtl t m.slot).counters = (retiredCounters s m (getCtl s m.slot)).counters ∧
         (∀ k v, getArch t k v = getArch s k v) ∧
         (unsealed s.core m.clause = false → findCmd t id = none) ∧
         (unsealed s.core m.clause = true → ∃ e, findCmd t id = some { m with retired := true, endAt := s.now, endId := e })) ∧
     (retireReady s m = false → exec (.commandRetire id) s = .next s) ∧
     (∀ f, m.follow = some f → copyLanded s m = true → followTail m = true →
       ∃ t, exec (.copyfFollowOn id) s = .next t ∧ (getRing (getCtl t m.slot) (tRing m.tmpl)).tail =
         ((getRing (getCtl s m.slot) (tRing m.tmpl)).tail + m.rowsOut) % 2 ^ 32) ∧
     (∀ f, m.follow = some f → copyLanded s m = true → followRoom s m = true →
       ∃ t n, exec (.copyfFollowOn id) s = .next t ∧ n ∈ t.core.cmds ∧ n.eng = 2 ∧ n.state = .queued ∧ n.slot = m.slot ∧
         n.tmpl = withTag f (getSlot s m.slot).thread.tag ∧
         (getCtl t m.slot).counters = (setCounter (getCtl s m.slot) (tCc n.tmpl)
           (counterMore (getCounter (getCtl s m.slot) (tCc n.tmpl)))).counters) ∧
     ((∀ f, m.follow = some f → followReady s m = false) → exec (.copyfFollowOn id) s = .next s)) ∧
  CopiesMove ∧ CommandsWrite ∧ DrainsWrite

/-! ### Cluster words -/

namespace Sys2Proof.Claim

/-- A cluster word with room for its result writes it two cycles on and holds these effects (R188, R189). -/
abbrev Answers (i : Instr) (s : State) (d : BitVec 5) (x : Word) (es : List Effect) : Prop :=
  Room s [⟨.s d.toNat, row64 x, 2⟩] → Completes i s { writes := [⟨.s d.toNat, row64 x, 2⟩], held := es }

/-- The group, barrier or flag number a word names. -/
abbrev numOf (s : State) (a : BitVec 5) : Nat := (visS (me s) a).toNat

/-- A group as the thread sees it: its mask and its pending members (R189). -/
abbrev maskOf (s : State) (a : BitVec 5) : BitVec 16 := seenMask s (hereOf s).k (numOf s a)

abbrev pendOf (s : State) (a : BitVec 5) : Nat := seenPending s (hereOf s).k (numOf s a)

/-- The thread's own bit. -/
abbrev myBit (s : State) : BitVec 16 := memBit (memberBit s (hereOf s).k)

/-- The record a launch reads. -/
abbrev recordOf (s : State) (m i : Nat) : Word := recWord (readSpad s m 32) i

/-- The launch of that record. -/
abbrev launchOf (s : State) (m : Nat) (reserve : Bool) : Effect :=
  .launch (recordOf s m 0) (recordOf s m 1) (recordOf s m 2) (recordOf s m 3) reserve

/-- A wait begun: the faces are exchanged and the voice waits (R57). -/
abbrev waiting (s : State) (kind : WaitKind) (items : List Nat) (d : BitVec 5) (x : Word) (a : VoiceArch) : VoiceArch :=
  { flipArch a with wait := some ⟨kind, clauseAt s (hereOf s), items, d.toNat, x, s.now, pc s⟩ }

/-- A word that performs the steps of FLIP may do so now (R16, R57, R176); flags on their way hold it too (assumption 92). -/
abbrev FlipReady (s : State) : Prop :=
  (me s).pending = [] ∧ (me s).flagq = [] ∧ sealQueueFull s (hereOf s).k (hereOf s).v = false

/-- A word that has performed the steps of FLIP and needs no wait: its result belongs to the new clause (R57). -/
abbrev FlipsWith (i : Instr) (s : State) (d : Nat) (x : Word) : Prop :=
  Completes i s { arch := fun a => (advance (flipArch a) .seq).1, writes := [⟨.s d, row64 x, 2⟩], flow := .keep, closes := true }

/-- A waiting word leaves with its result, its wait over (R57). -/
abbrev LeavesWith (i : Instr) (s : State) (d : Nat) (x : Word) : Prop :=
  Room s [⟨.s d, row64 x, 2⟩] → ∃ t, exec i s = .next t ∧
    archAt t (hereOf s) =
      (advance { recordAll s.now (me s) [⟨.s d, row64 x, 2⟩] with wait := none, resumed := false } .seq).1 ∧
    KeptVoices (hereOf s) s t ∧ KeptArray s t ∧ KeptMemory (hereOf s) s t ∧ t.core.held = s.core.held

end Sys2Proof.Claim

/-- R190, R192: JOIN and LEAVE hold a change of a group and report its members; a second JOIN, a LEAVE of no member and a number
above 255 answer with their status and hold nothing; GRPQ only reports. Count and mask stand beside a status that is not OK too
(assumption 35). -/
def Obligations.GroupsAreJoinedLeftAndQueried : Prop :=
  ∀ (s : State) (sb : BitVec 1) (p : BitVec 3) (d a : BitVec 5), MayIssue s sb p .c →
    (256 ≤ numOf s a → Answers (.join sb p d a) s d 4 [] ∧ Answers (.leave sb p d a) s d 4 [] ∧ Answers (.grpq sb p d a) s d 4 []) ∧
    (numOf s a < 256 →
      Answers (.grpq sb p d a) s d (mod64 (groupReport (maskOf s a) (pendOf s a) 0)) [] ∧
      (isMemberOf s (hereOf s).k (maskOf s a) = true →
        Answers (.join sb p d a) s d (mod64 (groupReport (maskOf s a) (pendOf s a) 2)) [] ∧
        Answers (.leave sb p d a) s d (mod64 (groupReport (maskOf s a &&& ~~~(myBit s)) (pendOf s a) 0)) [.leave (numOf s a)]) ∧
      (isMemberOf s (hereOf s).k (maskOf s a) = false →
        Answers (.join sb p d a) s d (mod64 (groupReport (maskOf s a ||| myBit s) (pendOf s a) 0)) [.join (numOf s a)] ∧
        Answers (.leave sb p d a) s d (mod64 (groupReport (maskOf s a) (pendOf s a) 1)) []))

/-- R191, R192: BARR holds an arrival and gives the phase it belongs to, or answers with a status, or waits while the thread has
arrived for both phases; BWAIT ends once the phase it names has completed; BARW does both behind the steps of FLIP: with a status it
answers at once in the new clause, and where BARR would stall it waits, its clause closed, until it has a place and arrives
(assumption 107). Its operands are read before the exchange (assumption 12), and count and mask stand beside an error status
(assumption 35).
R191, R57: a BARW that waits leaves with its result once its clause has sealed, its arrival is performed and its phase has
completed. A thread's waits on phases that have completed end four cycles later. -/
def Obligations.BarriersArriveAndWait : Prop :=
  (∀ (s : State) (sb : BitVec 1) (p : BitVec 3) (d a b : BitVec 5), MayIssue s sb p .c →
     (∀ x, barrDecide s (hereOf s).k (visS (me s) a) (visS (me s) b) = .done x → Answers (.barr sb p d a b) s d (mod64 x) [] ∧
       (FlipReady s → FlipsWith (.barw sb p d a b) s d.toNat (mod64 x))) ∧
     (barrDecide s (hereOf s).k (visS (me s) a) (visS (me s) b) = .stall → Stalls s (.barr sb p d a b) true ∧
       (FlipReady s → Completes (.barw sb p d a b) s
         { arch := waiting s .barw [numOf s b, 0, numOf s a] d 0, flow := .keep, closes := true })) ∧
     (¬FlipReady s → Stalls s (.barw sb p d a b) false) ∧
     (∀ g k ph x, barrDecide s (hereOf s).k (visS (me s) a) (visS (me s) b) = .arrive g k ph x →
       Answers (.barr sb p d a b) s d (mod64 x) [.arrive g k] ∧
       (FlipReady s → Completes (.barw sb p d a b) s
         { arch := waiting s .barw [k, ph.toNat] d (mod64 x), held := [.arrive g k], flow := .keep, closes := true })) ∧
     (64 ≤ numOf s b → Answers (.bwait sb p d a b) s d 4 []) ∧
     (numOf s b < 64 → mustWait s (hereOf s).k (numOf s b) ((visS (me s) a >>> 32).setWidth 32) = false →
       Answers (.bwait sb p d a b) s d (mod64 ((getBarrier s.cluster (numOf s b)).phase.toNat * 2 ^ 32)) []) ∧
     (numOf s b < 64 → mustWait s (hereOf s).k (numOf s b) ((visS (me s) a >>> 32).setWidth 32) = true →
       exec (.bwait sb p d a b) s = .next (setMark
         (keepWait s (hereOf s).k (numOf s b) ((visS (me s) a >>> 32).setWidth 32)) (hereOf s) .yielding))) ∧
  (∀ (s : State) (sb : BitVec 1) (p : BitVec 3) (d a b : BitVec 5) (w : Wait), Takes s sb 0 .c false → (me s).wait = some w →
     (∀ k ph g r, w.items = k :: ph :: g :: r →
       (barrDecide s (hereOf s).k (mod64 g) (mod64 k) = .stall → Stalls s (.barw sb p d a b) true) ∧
       (∀ x, barrDecide s (hereOf s).k (mod64 g) (mod64 k) = .done x → w.dest < 32 →
         LeavesWith (.barw sb p d a b) s w.dest (mod64 x)) ∧
       (∀ g' k' ph' x, barrDecide s (hereOf s).k (mod64 g) (mod64 k) = .arrive g' k' ph' x → unsealed s.core w.clause = true →
         ∃ t o, exec (.barw sb p d a b) s = .next t ∧
           archAt t (hereOf s) = { me s with wait := some { w with items := [k', ph'.toNat], val := mod64 x } } ∧
           t.core.held = s.core.held ++ [⟨s.core.nextId, (hereOf s).k, w.clause, o, .arrive g' k'⟩] ∧
           KeptVoices (hereOf s) s t ∧ KeptArray s t ∧ KeptMemory (hereOf s) s t)) ∧
     (w.items.length ≤ 2 → unsealed s.core w.clause = true ∨ arriving s (hereOf s).k w.clause = true →
       Stalls s (.barw sb p d a b) true) ∧
     (w.items.length ≤ 2 → unsealed s.core w.clause = false → arriving s (hereOf s).k w.clause = false →
       (mustWait s (hereOf s).k (w.items.getD 0 0) (BitVec.ofNat 32 (w.items.getD 1 0)) = true →
         exec (.barw sb p d a b) s = .next (setMark (keepWait s (hereOf s).k (w.items.getD 0 0)
           (BitVec.ofNat 32 (w.items.getD 1 0))) (hereOf s) .yielding)) ∧
       (mustWait s (hereOf s).k (w.items.getD 0 0) (BitVec.ofNat 32 (w.items.getD 1 0)) = false → w.dest < 32 →
         LeavesWith (.barw sb p d a b) s w.dest w.val))) ∧
  (∀ (s : State) (k : Nat), ∃ t, exec (.barrierWaitEnd k) s = .next t ∧ t.core = s.core ∧ t.pkg = s.pkg ∧
     t.cluster.groups = s.cluster.groups ∧ t.cluster.flags = s.cluster.flags ∧ t.cluster.queue = s.cluster.queue ∧
     ∀ b, (getBarrier t.cluster b).waits = (getBarrier s.cluster b).waits.filter (fun w =>
       !(decide (w.mem = memberBit s k) && (w.endAt.map (fun e => decide (e ≤ s.now))).getD false)) ∧
       (getBarrier t.cluster b).phase = (getBarrier s.cluster b).phase)

/-- R194: FINC and FSET hold an operation on the flag their target names, and answer RANGE for a target not allowed; FWAIT goes on once
the flag has reached its value, in 32-bit sequence order.
R198, R200: EVSET and EVCLR hold a change of a window of the event vector; EVWAIT goes on once every bit of its mask is set, with
the window as its result.
R201, R202, R204: ENQ holds an item for the next stage where there is room and waits where there is none; outside a stage that has
one after it, it answers NOSTAGE. DEQ takes the head of its input queue, or of the overflow area where a spill has left the
queue empty, with its predicate true, unless as many popped items as the
queue has places are still retained (R177); where the input is closed, or there is none, as in stage 0 and outside a stage, it
gives 0 and false. -/
def Obligations.FlagsEventBitsAndPipelines : Prop :=
  ((∀ (s : State) (sb : BitVec 1) (p : BitVec 3) (d a b : BitVec 5), MayIssue s sb p .c →
      (targetOk s (hereOf s).k (visS (me s) a) = true →
        Answers (.finc sb p d a b) s d 0 [.finc (numOf s a) ((visS (me s) b).setWidth 32)] ∧
        Answers (.fset sb p d a b) s d 0 [.fset (numOf s a) ((visS (me s) b).setWidth 32)]) ∧
      (targetOk s (hereOf s).k (visS (me s) a) = false →
        Answers (.finc sb p d a b) s d 4 [] ∧ Answers (.fset sb p d a b) s d 4 []) ∧
      (256 ≤ numOf s a → Answers (.fwait sb p d a b) s d 4 []) ∧
      (numOf s a < 256 →
        ((flagOf s.cluster (numOf s a) - (visS (me s) b).setWidth 32).toNat < 2 ^ 31 →
          Answers (.fwait sb p d a b) s d (mod64 ((flagOf s.cluster (numOf s a)).toNat * 2 ^ 32)) []) ∧
        (2 ^ 31 ≤ (flagOf s.cluster (numOf s a) - (visS (me s) b).setWidth 32).toNat → Stalls s (.fwait sb p d a b) true))) ∧
   (∀ (s : State) (sb : BitVec 1) (p : BitVec 3) (d a b : BitVec 5), MayIssue s sb p .c →
      Completes (.evset sb p a b) s { held := [.evset (numOf s a % 4) (visS (me s) b)] } ∧
      Completes (.evclr sb p a b) s { held := [.evclr (numOf s a % 4) (visS (me s) b)] } ∧
      (eventWindow (threadCtx s (hereOf s).k) (numOf s a % 4) &&& visS (me s) b = visS (me s) b →
        Answers (.evwait sb p d a b) s d (eventWindow (threadCtx s (hereOf s).k) (numOf s a % 4)) []) ∧
      (eventWindow (threadCtx s (hereOf s).k) (numOf s a % 4) &&& visS (me s) b ≠ visS (me s) b →
        Stalls s (.evwait sb p d a b) true))) ∧
  (∀ (s : State) (sb : BitVec 1) (p : BitVec 3) (d a : BitVec 5) (k : BitVec 3), MayIssue s sb p .c →
     (pipeAt s (hereOf s).k = none → Answers (.enq sb p d a) s d 6 []) ∧
     ((pipeAt s (hereOf s).k = none ∨ ∃ pl dc, pipeAt s (hereOf s).k = some (pl, 0, dc)) →
       (Room s [⟨.s d.toNat, row64 0, 2⟩, ⟨.p k.toNat, row1 false, 2⟩] →
         Completes (.deq sb p d k) s { writes := [⟨.s d.toNat, row64 0, 2⟩, ⟨.p k.toNat, row1 false, 2⟩] })) ∧
     (∀ pl st dc, pipeAt s (hereOf s).k = some (pl, st, dc) →
       (dc.nodes.length ≤ st + 1 → Answers (.enq sb p d a) s d 6 []) ∧
       (st + 1 < dc.nodes.length →
         (pipeRoom s pl st dc = true → Answers (.enq sb p d a) s d 0 [.enq pl st (visS (me s) a)]) ∧
         (pipeRoom s pl st dc = false → Stalls s (.enq sb p d a) true))) ∧
     (∀ pl st dc, pipeAt s (hereOf s).k = some (pl, st + 1, dc) →
       (∀ x, pipeHead (getPipe s.cluster pl st) = some x → dc.depths.getD st 1 ≤ retainedItems s pl st →
         Stalls s (.deq sb p d k) true) ∧
       (∀ x, pipeHead (getPipe s.cluster pl st) = some x → retainedItems s pl st < dc.depths.getD st 1 →
         Room s [⟨.s d.toNat, row64 x, 2⟩, ⟨.p k.toNat, row1 true, 2⟩] →
         Completes (.deq sb p d k) s
           { writes := [⟨.s d.toNat, row64 x, 2⟩, ⟨.p k.toNat, row1 true, 2⟩], held := [.deq pl st x],
             cluster := fun c => setPipe c pl st (pipePop (dc.depths.getD st 1) (getPipe c pl st)) }) ∧
       (pipeHead (getPipe s.cluster pl st) = none → inputClosed s (threadCtx s (hereOf s).k) dc pl (st + 1) = true →
         Room s [⟨.s d.toNat, row64 0, 2⟩, ⟨.p k.toNat, row1 false, 2⟩] →
         Completes (.deq sb p d k) s { writes := [⟨.s d.toNat, row64 0, 2⟩, ⟨.p k.toNat, row1 false, 2⟩] }) ∧
       (pipeHead (getPipe s.cluster pl st) = none → inputClosed s (threadCtx s (hereOf s).k) dc pl (st + 1) = false →
         Stalls s (.deq sb p d k) true)))

/-- R199, R200: LAUNCH and LAUNCHN read a record of 32 bytes, trap RANGE on a bad or unaligned address and ILLEGAL on reserved bits,
answer RANGE for a node there is not, hold the launch on a free entry or on a reserve of the task; with neither, LAUNCH waits
and LAUNCHN answers FULL.
R205: YIELD gives the slot up where a ready record of its context waits, and does nothing where none does. -/
def Obligations.LaunchesAndYields : Prop :=
  (∀ (s : State) (sb : BitVec 1) (p : BitVec 3) (d a : BitVec 5) (m : Nat) (i : Instr) (waits : Bool),
     (i, waits) = (.launch sb p d a, true) ∨ (i, waits) = (.launchn sb p d a, false) → MayIssue s sb p .c →
     (numOf s a % 32 ≠ 0 ∨ (∃ bad, spadLoadAddr (slotAt s (hereOf s)) (numOf s a) 32 = .error bad) →
       Traps s i 0x0B (visS (me s) a) s) ∧
     (spadLoadAddr (slotAt s (hereOf s)) (numOf s a) 32 = .ok m → numOf s a % 32 = 0 → spadFenced s (hereOf s).k = true →
       Stalls s i false) ∧
     (spadLoadAddr (slotAt s (hereOf s)) (numOf s a) 32 = .ok m → numOf s a % 32 = 0 → spadFenced s (hereOf s).k = false →
       spadPoison s m 32 = none →
       (recReserved (recordOf s m 3) = true → Traps s i 0x01 0 s) ∧
       (recReserved (recordOf s m 3) = false →
         (nodeKnown (threadCtx s (hereOf s).k) (recordOf s m 0) = false → Answers i s d 4 []) ∧
         (nodeKnown (threadCtx s (hereOf s).k) (recordOf s m 0) = true →
           (0 < entriesFree s → Answers i s d 0 [launchOf s m false]) ∧
           (entriesFree s = 0 → 0 < reserveLeft s (hereOf s).k → Answers i s d 0x100 [launchOf s m true]) ∧
           (entriesFree s = 0 → reserveLeft s (hereOf s).k = 0 →
             if waits then Stalls s i true else Answers i s d 5 []))))) ∧
  (∀ (s : State) (sb : BitVec 1) (p : BitVec 3), MayIssue s sb p .c →
     (readyWaits s (slotAt s (hereOf s)).thread.ctx = false → Completes (.yield sb p) s {}) ∧
     (readyWaits s (slotAt s (hereOf s)).thread.ctx = true →
       ∃ t, exec (.yield sb p) s = .next t ∧ Did s t {} ∧ (slotAt t (hereOf s)).pendPreempt = true))

/-! ### Device memory -/

namespace Sys2Proof.Claim

/-- A load or store of the voice goes on to its effect: it translates to these parts, finds room, meets no error of R221, and no
acquire or fence holds it back. -/
structure DevGoes (s : State) (acc : Acc) (ea : Word) (n : Nat) (q : Bool) (ps : List Part) (u : State) : Prop where
  there : translate s (threadCtx s (hereOf s).k) (slotAt s (hereOf s)).thread.smode acc ea.toNat n = (u, .ok ps)
  room : acc = .write → storeRoom s (hereOf s) (partSpans ps) = true
  kinds : kindsDiffer q ps = false
  unpublished : acc = .write → publishedPart (threadCtx s (hereOf s).k) ps = none
  free : (partsOrdered ps && acquirePending s (hereOf s).k) = false
  unfenced : acc ≠ .write → loadFenced s (hereOf s).k ps = false

/-- The stores of some bytes to the parts of an access, one for each page (R224). -/
def storesTo (asid : Nat) (rel : Bool) : List Byte → List Part → List Effect
  | _, [] => []
  | bs, p :: r => .store true p.pa (bs.take p.len) (leafKind p.leaf) rel 0 p.va asid :: storesTo asid rel (bs.drop p.len) r

/-- The access does not reach a byte. -/
abbrev Misses (ps : List Part) (x : Nat) : Prop := ∀ p ∈ ps, x < p.pa ∨ p.pa + p.len ≤ x

/-- No write of a command that is on its way meets these bytes. -/
abbrev NoEngineWrite (s : State) (a n : Nat) : Prop :=
  ∀ e ∈ s.core.held.map (fun h => h.eff) ++ s.core.out.map (fun o => o.eff), effectCmd e ≠ 0 →
    match e with
    | .store _ b ws _ _ _ _ _ => b + ws.length ≤ a ∨ a + n ≤ b
    | _ => True

/-- The context of the thread. -/
abbrev ctxOf (s : State) : Context := threadCtx s (hereOf s).k

end Sys2Proof.Claim

/-- R221, R222, R237: LDG and LDA make their landing slot BUSY with a transfer of the bytes at their address, LDA's acquiring; a BUSY
slot, a fence of voice A and, but for an access to a UN page, an outstanding acquire stall them; a fault of R221 traps with its cause
and address, one met while an acquire is outstanding only at the later issue. A KIND trap names the access's lowest byte
(assumption 19). -/
def Obligations.LoadsFillLandingSlots : Prop :=
  ∀ (s u : State) (sb : BitVec 1) (p k : BitVec 3) (b : BitVec 5) (z : BitVec 2) (o : BitVec 1) (imm : BitVec 9) (i : Instr)
    (acq : Bool) (ps : List Part), (i, acq) = (.ldg sb p k b z o imm, false) ∨ (i, acq) = (.lda sb p k b z o imm, true) →
    MayIssue s sb p .a →
    (DevGoes s .read (memAddr (me s) b o imm (accWidth z)) (accWidth z) false ps u →
      (landingState s (hereOf s).k (landKey s k) = 1 → Stalls s i false) ∧
      (landingState s (hereOf s).k (landKey s k) ≠ 1 → Room s (postWrite (me s) b o imm (accWidth z)) →
        Completes i s
          { writes := postWrite (me s) b o imm (accWidth z),
            ctl := fun c => setLanding c (landKey s k) (.xfer s.core.nextId (clauseAt s (hereOf s))),
            xfers := [newXfer s (hereOf s) 8 k.toNat ps (memAddr (me s) b o imm (accWidth z)).toNat (accWidth z) acq] })) ∧
    (translate s (ctxOf s) (slotAt s (hereOf s)).thread.smode .read
        (memAddr (me s) b o imm (accWidth z)).toNat (accWidth z) = (u, .ok ps) →
      ((partsOrdered ps && acquirePending s (hereOf s).k) = true → Stalls s i false) ∧
      (kindsDiffer false ps = false → loadFenced s (hereOf s).k ps = true → Stalls s i false) ∧
      ((partsOrdered ps && acquirePending s (hereOf s).k) = false → kindsDiffer false ps = true →
        Traps s i 0x0A (memAddr (me s) b o imm (accWidth z)) s)) ∧
    (∀ cause bad, translate s (ctxOf s) (slotAt s (hereOf s)).thread.smode .read
        (memAddr (me s) b o imm (accWidth z)).toNat (accWidth z) = (u, .trap cause bad) →
      (acquirePending s (hereOf s).k = true → Stalls s i false) ∧
      (acquirePending s (hereOf s).k = false → Traps s i cause (mod64 bad) s))

/-- R221, R175, R237: a store that is not let through stalls or traps: it stalls where the hold-back buffer has no room for it or, but
for a UN page, an acquire is outstanding; a byte of a publish range traps XLATE (assumption 24 gives the byte it names), pages of different kinds trap KIND at the lowest byte
(assumption 19), and an address without translation or permission traps with its cause and address. -/
def Claim.StoresStallAndTrap : Prop :=
  ∀ (s u : State) (sb : BitVec 1) (p : BitVec 3) (d b : BitVec 5) (z : BitVec 2) (o : BitVec 1) (imm : BitVec 9) (i : Instr)
    (ps : List Part) (ea : Word), i = .stg sb p d b z o imm ∨ i = .stl sb p d b z o imm →
    ea = memAddr (me s) b o imm (accWidth z) → MayIssue s sb p .a →
    (translate s (ctxOf s) (slotAt s (hereOf s)).thread.smode .write ea.toNat (accWidth z) = (u, .ok ps) →
      (storeRoom s (hereOf s) (partSpans ps) = false ∨ (partsOrdered ps && acquirePending s (hereOf s).k) = true →
        Stalls s i false) ∧
      (storeRoom s (hereOf s) (partSpans ps) = true → (partsOrdered ps && acquirePending s (hereOf s).k) = false →
        (kindsDiffer false ps = true → Traps s i 0x0A ea s) ∧
        (kindsDiffer false ps = false → ∀ bad, publishedPart (ctxOf s) ps = some bad → Traps s i 0x09 (mod64 bad) s))) ∧
    (∀ cause bad, translate s (ctxOf s) (slotAt s (hereOf s)).thread.smode .write ea.toNat (accWidth z) = (u, .trap cause bad) →
      (storeRoom s (hereOf s) [(ea.toNat, accWidth z)] = false ∨ acquirePending s (hereOf s).k = true → Stalls s i false) ∧
      (storeRoom s (hereOf s) [(ea.toNat, accWidth z)] = true → acquirePending s (hereOf s).k = false →
        Traps s i cause (mod64 bad) s))

/-- R221, R224, R234: STG and STL hold the low bytes of their source for their clause, at the physical places their address translates
to, STL's as a release; voice A then reads those bytes there, but for what an engine's held write lays over them, and every reader
every other byte as before. A store for which the hold-back buffer has no room stalls; a fault of R221 traps with its cause and
address; the address of a KIND trap is assumption 19, that of a byte of a publish range assumption 24. -/
def Obligations.StoresAreSeenAtTheirAddressOnly : Prop :=
  Claim.StoresStallAndTrap ∧ ∀ (s u : State) (sb : BitVec 1) (p : BitVec 3) (d b : BitVec 5) (z : BitVec 2) (o : BitVec 1) (imm : BitVec 9) (i : Instr)
    (rel : Bool) (ps : List Part), (i, rel) = (.stg sb p d b z o imm, false) ∨ (i, rel) = (.stl sb p d b z o imm, true) →
    MayIssue s sb p .a → Room s (postWrite (me s) b o imm (accWidth z)) → (ctxOf s).trace = none →
    DevGoes s .write (memAddr (me s) b o imm (accWidth z)) (accWidth z) false ps u →
    ∃ t, exec i s = .next t ∧
      Did s t { writes := postWrite (me s) b o imm (accWidth z),
                held := storesTo (ctxOf s).asid rel (leBytes (accWidth z) (visS (me s) d).toNat) ps } ∧
      (∀ q, ps = [q] → q.len = accWidth z → NoEngineWrite s q.pa (accWidth z) →
        readDev t (hereOf s).k (clockOf t (hereOf s).k .A) q.pa (accWidth z) =
          leBytes (accWidth z) (visS (me s) d).toNat) ∧
      ∀ ord x, Misses ps x → readDev t (hereOf s).k ord x 1 = readDev s (hereOf s).k ord x 1

/-- R225, R219: LDGQ reserves an entry of a load queue for the footprint at its address, STGQ pops a store queue and holds the entry
encoded in the page's format. PFG never stalls and never traps, whatever the file and CLASHTRAP say (assumption 117): a walk of its
address joins those under way, unless a TLB holds the page or 64 are under way (assumption 9), and only its base is written.
STGQ to a page of 4-bit blocks traps KIND at its lowest byte, before QUEUEBOUND is judged (assumption 19), and waits while an acquire
holds back accesses to the page (R237). -/
def Obligations.QueueWordsMoveByThePageFormat : Prop :=
  (∀ (s : State) (sb : BitVec 1) (p : BitVec 3) (b : BitVec 5) (o : BitVec 1) (imm : BitVec 9) (va : Nat), MayIssue s sb p .a →
    va = (memAddr (me s) b o imm 128).toNat →
    ∃ t, exec (.pfg sb p b o imm) s = .next t ∧ Did s t { writes := postWrite (me s) b o imm 128 } ∧
      ((tlbHit s.core.dtlb (ctxOf s).asid va).isSome = true ∨ (tlbHit s.pkg.l2tlb (ctxOf s).asid va).isSome = true ∨
        64 ≤ s.pkg.walks.length → t.pkg.walks = s.pkg.walks) ∧
      (tlbHit s.core.dtlb (ctxOf s).asid va = none → tlbHit s.pkg.l2tlb (ctxOf s).asid va = none → s.pkg.walks.length < 64 →
        t.pkg.walks = s.pkg.walks ++ [⟨s.core.nextId, (slotAt s (hereOf s)).thread.ctx, va⟩])) ∧
  ∀ (s u : State) (sb : BitVec 1) (p : BitVec 3) (q : BitVec 2) (j : BitVec 1) (b : BitVec 5) (o : BitVec 1) (imm : BitVec 9)
    (ps : List Part) (f g : Nat), MayIssue s sb p .a → Room s (postWrite (me s) b o imm 128) →
    pageFormat s (hereOf s).k (memAddr (me s) b o imm 128) = (f, g) →
    (queueBound s (hereOf s) q.toNat = true → Traps s (.ldgq sb p q b o imm) 0x0C 0 s) ∧
    (queueBound s (hereOf s) q.toNat = false → DevGoes s .read (memAddr (me s) b o imm 128) (footprint f g) true ps u →
      tryPush s (hereOf s).k q.toNat = .room →
      Completes (.ldgq sb p q b o imm) s
        { writes := postWrite (me s) b o imm 128,
          ctl := fun c => pushEntry c q.toNat ⟨s.core.nextId, clauseAt s (hereOf s), entryPlace s []⟩,
          xfers := [newXfer s (hereOf s) q.toNat 0 ps (memAddr (me s) b o imm 128).toNat (footprint f g) false] }) ∧
    (queueBound s (hereOf s) q.toNat = false → DevGoes s .read (memAddr (me s) b o imm 128) (footprint f g) true ps u →
      (tryPush s (hereOf s).k q.toNat = .full → Stalls s (.ldgq sb p q b o imm) false) ∧
      (∀ c, tryPush s (hereOf s).k q.toNat = .trap c → Traps s (.ldgq sb p q b o imm) c 0 s) ∧
      (tryPush s (hereOf s).k q.toNat = .drop →
        Completes (.ldgq sb p q b o imm) s { writes := postWrite (me s) b o imm 128 })) ∧
    (f = 8 → pageHeld s (hereOf s).k (memAddr (me s) b o imm 128) = false →
      Traps s (.stgq sb p j b o imm) 0x0A (memAddr (me s) b o imm 128) s) ∧
    (f = 8 → pageHeld s (hereOf s).k (memAddr (me s) b o imm 128) = true → Stalls s (.stgq sb p j b o imm) false) ∧
    (f ≠ 8 → queueBound s (hereOf s) (4 + j.toNat) = true → Traps s (.stgq sb p j b o imm) 0x0C 0 s) ∧
    (∀ e v, f ≠ 8 → queueBound s (hereOf s) (4 + j.toNat) = false →
      DevGoes s .write (memAddr (me s) b o imm 128) (footprint f g) true ps u →
      tryPop s (hereOf s).k (4 + j.toNat) = .ready e v → v.poison = none → (ctxOf s).trace = none →
      ∃ t, exec (.stgq sb p j b o imm) s = .next t ∧
        Did s t { writes := postWrite (me s) b o imm 128,
                  ctl := fun c => setQueue c (4 + j.toNat) ((getQueue c (4 + j.toNat)).drop 1),
                  held := storesTo (ctxOf s).asid false (encodeEntry f v.val) ps, links := [e.ord] } ∧
        ∀ ord x, Misses ps x → readDev t (hereOf s).k ord x 1 = readDev s (hereOf s).k ord x 1) ∧
    (f ≠ 8 → queueBound s (hereOf s) (4 + j.toNat) = false →
      DevGoes s .write (memAddr (me s) b o imm 128) (footprint f g) true ps u →
      (tryPop s (hereOf s).k (4 + j.toNat) = .wait → exec (.stgq sb p j b o imm) s = .next (setMark u (hereOf s) .stalled)) ∧
      ∀ c, tryPop s (hereOf s).k (4 + j.toNat) = .trap c → Traps s (.stgq sb p j b o imm) c 0 u)

/-- R226, R57: FENCE performs the steps of FLIP, ends its clause and puts its fence in force; GROUP with a scope entry that is not valid
traps RANGE. PUBG holds a toggle of a valid entry of the publish map.
R230, R231: TLBINV holds an invalidation of its operands' range; TLBSYNC ends its clause and waits until the thread's invalidations
are acknowledged, and then answers with how many there were. -/
def Obligations.FencesPublishesAndInvalidations : Prop :=
  (∀ (s : State) (sb : BitVec 1) (p : BitVec 3) (d a : BitVec 5) (b : BitVec 3),
     (MayIssue s sb p .ac →
       (b = 7 → scopeValid s (hereOf s).k d = false → Traps s (.fence sb p d a b) 0x0B 0 s) ∧
       ((b = 7 → scopeValid s (hereOf s).k d = true) → (hereOf s).v = .A → acquirePending s (hereOf s).k = true →
         Stalls s (.fence sb p d a b) false) ∧
       ((b = 7 → scopeValid s (hereOf s).k d = true) → ((hereOf s).v = .A → acquirePending s (hereOf s).k = false) →
         ((me s).pending ≠ [] ∨ (me s).flagq ≠ [] → Stalls s (.fence sb p d a b) false) ∧
         (FlipReady s → ∃ t, exec (.fence sb p d a b) s = .next t ∧ Did s t { arch := flipArch, closes := true } ∧
           (a ≠ 0 → ∃ f ∈ (slotAt t (hereOf s)).fences, f.mask = a ∧ f.clause = clauseAt s (hereOf s) ∧
             (f.forA = true ↔ (hereOf s).v = .A))))) ∧
     (MayIssue s sb p .c →
       (numOf s a ≤ 63 → (mget ⟨0, 0, false, false, 0, 0⟩ (ctxOf s).pubmap (numOf s a)).valid = true →
         Completes (.pubg sb p a) s { held := [.pubg (numOf s a)] }) ∧
       (63 < numOf s a ∨ (mget ⟨0, 0, false, false, 0, 0⟩ (ctxOf s).pubmap (numOf s a)).valid = false →
         Traps s (.pubg sb p a) 0x0B 0 s))) ∧
  (∀ (s : State) (sb : BitVec 1) (p : BitVec 3) (d a b : BitVec 5),
     (MayIssuePriv s sb p .c →
       Completes (.tlbinv sb p a b) s { held := [.tlbinv ((visS (me s) a).toNat / 2 ^ 16 % 2 ^ 36 * 2 ^ 16)
         ((visS (me s) b).toNat / 2 ^ 16 % 2 ^ 36 * 2 ^ 16) ((visS (me s) b).toNat % 2 ^ 16) ((visS (me s) b).getLsbD 63)
         s.core.nextId] } ∧
       (FlipReady s → Completes (.tlbsync sb p d) s
         { arch := waiting s .tlbsync (invalsOpen s (hereOf s).k) d (mod64 ((invalsOpen s (hereOf s).k).length % 2 ^ 16)),
           flow := .keep, closes := true })) ∧
     (∀ w, Takes s sb 0 .c true → (me s).wait = some w →
       ((∃ i ∈ w.items, i ∈ invalsOpen s (hereOf s).k) → Stalls s (.tlbsync sb p d) true) ∧
       ((∀ i ∈ w.items, i ∉ invalsOpen s (hereOf s).k) → LeavesWith (.tlbsync sb p d) s w.dest w.val)))

/-- R57, R263: SEALW exchanges the faces, ends its clause and waits until it has sealed.
R261, R285: CTXSAVE, CTXRST and GSW exchange the faces, hold their request, of operands read before the exchange (assumption 12), and
wait for its result, which they then write.
R264: HOSTSIG takes a credit of its context and holds its value with SCYC; without a credit it waits. -/
def Obligations.SealsRequestsAndSignals : Prop :=
  (∀ (s : State) (sb : BitVec 1) (p : BitVec 3),
     (MayIssue s sb p .all → FlipReady s →
       Completes (.sealw sb p) s { arch := waiting s .sealw [] 0 0, flow := .keep, closes := true }) ∧
     (∀ w, Takes s sb 0 .all false → (me s).wait = some w →
       (unsealed s.core w.clause = true → Stalls s (.sealw sb p) true) ∧
       (unsealed s.core w.clause = false → ∃ t, exec (.sealw sb p) s = .next t ∧
         archAt t (hereOf s) = (advance { me s with wait := none, resumed := false } .seq).1 ∧
         KeptVoices (hereOf s) s t ∧ KeptArray s t ∧ KeptMemory (hereOf s) s t ∧ t.core.held = s.core.held))) ∧
  (∀ (s : State) (sb : BitVec 1) (p : BitVec 3) (d a b : BitVec 5),
     (MayIssuePriv s sb p .c → FlipReady s →
       Completes (.ctxsave sb p d a b) s
         { arch := waiting s .ctxsave [s.core.nextId] d 0, flow := .keep, closes := true,
           held := [.ctxsave s.core.nextId (numOf s a % 2 ^ 12) (visS (me s) b) (numOf s a / 2 ^ 32 % 2 ^ 20)] } ∧
       Completes (.ctxrst sb p d a b) s
         { arch := waiting s .ctxrst [s.core.nextId] d 0, flow := .keep, closes := true,
           held := [.ctxrst s.core.nextId (numOf s a % 2 ^ 12) (visS (me s) b)] } ∧
       Completes (.gsw sb p d a) s
         { arch := waiting s .gsw [s.core.nextId] d 0, flow := .keep, closes := true,
           held := [.gsw s.core.nextId (switchJob (visS (me s) a)) (bit (numOf s a) 16)] }) ∧
     (∀ w r x, Takes s sb 0 .c true → (me s).wait = some w →
       findFirst (fun (r : Request) => w.items.contains r.id) s.pkg.requests = some r → r.result = some x →
       LeavesWith (.ctxsave sb p d a b) s w.dest x ∧ LeavesWith (.ctxrst sb p d a b) s w.dest x ∧
       LeavesWith (.gsw sb p d a) s w.dest x)) ∧
  (∀ (s : State) (sb : BitVec 1) (p : BitVec 3) (a : BitVec 5), MayIssue s sb p .c →
     ((ctxOf s).credits = 0 → Stalls s (.hostsig sb p a) true) ∧
     ((ctxOf s).credits ≠ 0 →
       ∃ t, exec (.hostsig sb p a) s = .next t ∧
         Did (setCtx s (slotAt s (hereOf s)).thread.ctx { ctxOf s with credits := (ctxOf s).credits - 1 }) t
           { held := [.hostsig (visS (me s) a) (slotAt s (hereOf s)).scyc] }))

/-- R275 to R277: NWR holds a write of its width to a fabric address, NRD makes the landing slot it names BUSY with a remote read, and
both trap RANGE on an address that is not allowed; MEMB exchanges the faces and waits until the thread's remote writes have
completed, and then reports those that failed. -/
def Obligations.RemoteAccessesAndMemb : Prop :=
  ∀ (s : State) (sb : BitVec 1) (p : BitVec 3) (w v : BitVec 2) (k : BitVec 3) (x : BitVec 3) (a b d : BitVec 5),
    (MayIssue s sb p .c →
      (netOk s (hereOf s).k (visS (me s) a) w.toNat = true →
        Completes (.nwr sb p w a b) s
          { held := [.nwr s.core.nextId (numOf s a) (mod64 ((visS (me s) b).toNat % 2 ^ (8 * 2 ^ w.toNat))) w.toNat] }) ∧
      (netOk s (hereOf s).k (visS (me s) a) w.toNat = false → Traps s (.nwr sb p w a b) 0x0B (visS (me s) a) s) ∧
      (netOk s (hereOf s).k (visS (me s) a) x.toNat = false → Traps s (.nrd sb p v k a x) 0x0B (visS (me s) a) s) ∧
      (netOk s (hereOf s).k (visS (me s) a) x.toNat = true →
        (landingState s (hereOf s).k (8 * v.toNat + k.toNat) = 1 → Stalls s (.nrd sb p v k a x) false) ∧
        (landingState s (hereOf s).k (8 * v.toNat + k.toNat) ≠ 1 →
          ∃ t, exec (.nrd sb p v k a x) s = .next t ∧ archAt t (hereOf s) = (advance (me s) .seq).1 ∧
            KeptCtl (hereOf s) s t
              (fun c => setLanding c (8 * v.toNat + k.toNat) (.xfer s.core.nextId (clauseAt s (hereOf s)))) id ∧
            (slotAt t (hereOf s)).xfers = (slotAt s (hereOf s)).xfers ++
              [netXfer s (hereOf s) (voiceOf v.toNat) k.toNat (numOf s a) (netWidth x.toNat)] ∧
            KeptVoices (hereOf s) s t ∧ KeptArray s t ∧ t.core.held = s.core.held ∧
            ∀ y, sget t.core.spad y = sget s.core.spad y)) ∧
      (FlipReady s → Completes (.memb sb p d) s { arch := waiting s .memb [] d 0, flow := .keep, closes := true })) ∧
    (∀ z, Takes s sb 0 .c false → (me s).wait = some z → unsealed s.core z.clause = false → nwrsOpen s (hereOf s).k = false →
      LeavesWith (.memb sb p d) s z.dest (mod64 ((if 0 < (unreported s (hereOf s).k).length then 4 else 0) +
        min (unreported s (hereOf s).k).length 0xFFFFFF * 2 ^ 8)))

/-- R278 to R281: NRED and NBAR with a group word that is not allowed answer 3; else they exchange the faces, hold their contribution and
wait until the instance has completed, and answer with its result word. A result that came out of a poisoned router buffer is a machine
check at the word instead (R182); that a result can be poisoned there, and that the storage code is left open, is assumption 59. -/
def Obligations.CollectivesContributeAndWait : Prop :=
  ∀ (s : State) (sb : BitVec 1) (p : BitVec 3) (d a b : BitVec 5),
    (MayIssue s sb p .c →
      (groupWordOk s (hereOf s).k (visS (me s) a) true = false → Answers (.nred sb p d a b) s d 3 []) ∧
      (groupWordOk s (hereOf s).k (visS (me s) a) false = false → Answers (.nbar sb p d a) s d 3 []) ∧
      (groupWordOk s (hereOf s).k (visS (me s) a) true = true → FlipReady s →
        Completes (.nred sb p d a b) s
          { arch := waiting s .nred [s.core.nextId] d 0, flow := .keep, closes := true,
            held := [.nred s.core.nextId (numOf s a % 64) (bit (numOf s a) 8) ((visS (me s) b).setWidth 32)] }) ∧
      (groupWordOk s (hereOf s).k (visS (me s) a) false = true → FlipReady s →
        Completes (.nbar sb p d a) s
          { arch := waiting s .nbar [s.core.nextId] d 0, flow := .keep, closes := true,
            held := [.nbar s.core.nextId (numOf s a % 64)] })) ∧
    (∀ w i, Takes s sb 0 .c false → (me s).wait = some w → instanceFor s (hereOf s).k w.items = some i →
      (i.bad = false →
        LeavesWith (.nred sb p d a b) s w.dest (instanceResult i) ∧ LeavesWith (.nbar sb p d a) s w.dest (instanceResult i)) ∧
      (i.bad = true → othersIssued s (hereOf s) = false → ∃ st,
        exec (.nred sb p d a b) s = .next (setMark (machineCheck s (hereOf s).k 0 st) (hereOf s) .trapped) ∧
        exec (.nbar sb p d a) s = .next (setMark (machineCheck s (hereOf s).k 0 st) (hereOf s) .trapped)))

/-! ### Stops and traps -/

namespace Sys2Proof.Claim

/-- A thread that is stopped: the stop is as given, the state of every voice is as before, and every clause that was open has
closed at the stop's boundary. -/
abbrev StoppedWith (s t : State) (k cause : Nat) (voice : Option VoiceId) (async : Bool) (fault : Word) (word : BitVec 32) (b : Nat) :
    Prop :=
  (getSlot t k).run = .stopping ∧
  (∃ st, (getSlot t k).stop = some st ∧ st.cause = cause ∧ st.voice = voice ∧ st.async = async ∧ st.fault = fault ∧ st.word = word ∧
    st.at_ = b ∧ st.nested = decide ((getSlot s k).run = .handler) ∧ st.waitFor = (slotClosed s k).map (fun c => c.id)) ∧
  (∀ j v, getArch t j v = getArch s j v) ∧ t.core.held = s.core.held ∧ t.pkg = s.pkg ∧ t.cluster = s.cluster

/-- A stop that is ready for trap entry, with its record at `ra` in these parts. -/
abbrev EntryAt (s : State) (k : Nat) (st : Stop) (ra : Nat) (ps : List Part) : Prop :=
  (getSlot s k).stop = some st ∧ (getSlot s k).run = .stopping ∧ entryReady s st = true ∧ clockRuns s = true ∧
  recordSpan s k st.nested = .ok (ra, ps)

/-- Every voice of the issuing thread that presents a word is stalled, one of them on a yielding wait, and no voice has issued in the
cycle (R79). -/
abbrev AllWait (s : State) : Prop :=
  let mark (v : VoiceId) : Mark := (getVoice s s.core.act v).mark
  let presents (v : VoiceId) : Prop := voicePresents s s.core.act v = true
  (∀ v, mark v ≠ .issued) ∧ (∀ v, presents v → mark v = .stalled ∨ mark v = .yielding) ∧ ∃ v, presents v ∧ mark v = .yielding

/-- An event whose cause is not there changes nothing. -/
abbrev Idle (i : Instr) (s : State) : Prop := exec i s = .next s

end Sys2Proof.Claim

/-- R25 to R29: a word that traps stops its thread in this cycle, before its own word, with its cause, address and voice. Once the clauses
closed before the stop have sealed, TRAP_ENTRY answers the next state that writes the record of Table 2.5 to the context's trap area and nothing else in memory,
and enters the handler: voice A at its address with the record's address in s1 and the cause in s2, no pending result, CLASHTRAP
set; the other voices are held. Without a handler, or on a nested trap, the thread is dead once its record is written. A record without
an area, without a translation that permits the write, or with a line that the memory reports as failed is lost. -/
def Obligations.TrapsStopTheThreadAndEnterTheHandler : Prop :=
  (∀ (s : State) (cause : Nat) (fault : Word),
    StoppedWith s (takeTrap (hereOf s) cause fault s) (hereOf s).k cause (some (hereOf s).v) false fault (currentWord s (hereOf s)) s.now ∧
    markAt (takeTrap (hereOf s) cause fault s) (hereOf s) = .trapped) ∧
  (∀ (s : State) (k : Nat) (st : Stop) (ra : Nat) (ps : List Part), EntryAt s k st ra ps →
    (∃ t, exec (.trapEntry k) s = .next t ∧ t.pkg.mem = (writeSpan s ps ra (recordPieces s k st)).pkg.mem ∧
      t.core.spad = s.core.spad ∧ KeptArray s t ∧
      (∀ hd, (threadCtx s k).handler = some hd → st.nested = false →
        (getSlot t k).run = .handler ∧ (getSlot t k).recAddr = ra ∧ (getSlot t k).startAt = s.now + 1 ∧
        (getArch t k .A).na0 = ⟨hd.setWidth 52, false⟩ ∧ (getArch t k .A).na1 = ⟨hd.setWidth 52 + 4, false⟩ ∧
        (getArch t k .A).na2 = ⟨hd.setWidth 52 + 8, false⟩ ∧ (getArch t k .A).lc = [] ∧ (getArch t k .A).pending = [] ∧
        (getArch t k .A).w = 0 ∧ (getArch t k .A).clashtrap = true ∧ (getArch t k .A).exited = false ∧
        (facesCanonical (getArch s k .A) = true → visS (getArch t k .A) 1 = mod64 ra ∧ visS (getArch t k .A) 2 = mod64 st.cause) ∧
        (∀ v, v ≠ .A → getArch t k v = emptyFile (getArch s k v))) ∧
      ((threadCtx s k).handler = none ∨ st.nested = true →
        (getSlot t k).run = .dead ∧ (getSlot t k).deadRec = ra ∧ ∀ v, getArch t k v = getArch s k v))) ∧
  (∀ (s : State) (ps : List Part) (ra : Nat) (k : Nat) (st : Stop),
    (∀ q ∈ recordPieces s k st, ∀ i < q.2.1, ∃ p ∈ ps, p.va ≤ ra + q.1 + i ∧ ra + q.1 + i < p.va + p.len) →
    ∀ x, Misses ps x → sget (writeSpan s ps ra (recordPieces s k st)).pkg.mem x = sget s.pkg.mem x) ∧
  (∀ (s : State) (k : Nat) (st : Stop), (getSlot s k).stop = some st → (getSlot s k).run = .stopping → entryReady s st = true →
    clockRuns s = true →
    (threadCtx s k).trapArea = none ∨ (∃ ra bad, recordAddr s k st.nested = some ra ∧
      spanParts s (threadCtx s k) true .write ra 3 recordSize = .error bad) ∨
      (∃ ra ps bad, recordAddr s k st.nested = some ra ∧ spanParts s (threadCtx s k) true .write ra 3 recordSize = .ok ps ∧
        failedLine s ps = some bad) →
    ∃ t, exec (.trapEntry k) s = .next t ∧ (getSlot t k).run = .dead ∧ 2 ^ 64 ≤ (getSlot t k).deadRec ∧ t.pkg = s.pkg) ∧
  (∀ (s : State) (k : Nat), (getSlot s k).stop = none ∨ (∃ st, (getSlot s k).stop = some st ∧ entryReady s st = false) →
    Idle (.trapEntry k) s)

/-- R186, R205 to R207, R232, R317: SIGNAL, PREEMPT, CORE_IMAGE_SAVE, TIME_SLICE_END, INVALIDATION_HOLD_TIMEOUT and THREAD_END each
answer a next state with their effect where their cause is there. SIGNAL stops a running thread with cause 0x20, is held for one that is stopping or in its
handler, and stays pending while the core rolls back; PREEMPT, a time slice that a rival waits for, and an invalidation held back for
65,536 cycles stop the core's threads for their save; a slice in which the thread issued nothing stops it with cause 0x23. A
stopped thread that is ready is saved with its image at the queue's end, pending in the groups it was in (R193), and its slot is free; the
image's bytes go to the area that the scheduler has named where that lies in memory (assumption 81); none is saved while the other slot's stop
or what its stopped thread has under way is waited for.
R28, R71, R190, R198: a thread all of whose voices have exited ends once its clauses have sealed and its commands have retired: its
slot is empty and its task's set bits are set; until its commands have retired it only leaves its groups. A dead thread reports
its fault, and then frees its slot. -/
def Obligations.ThreadsAreStoppedSavedAndEnded : Prop :=
  ((∀ (s : State) (k : Nat),
     ((getSlot s k).run = .empty → Idle (.signal k) s) ∧
     ((getSlot s k).run ≠ .empty → s.core.rollAt.isSome = true ∨ clockRuns s = false →
       exec (.signal k) s = .next (setSlot s k { getSlot s k with pendSignal := true })) ∧
     (s.core.rollAt = none → clockRuns s = true →
       ((getSlot s k).run = .running → ∃ t, exec (.signal k) s = .next t ∧ StoppedWith s t k 0x20 none true 0 0 s.now) ∧
       ((getSlot s k).run = .stopping ∨ (getSlot s k).run = .handler →
         exec (.signal k) s = .next (setSlot s k { getSlot s k with pendSignal := false, heldSignal := true })) ∧
       ((getSlot s k).run = .preempted →
         exec (.signal k) s = .next (setSlot s k (if (getSlot s k).vA.a.handler
           then { getSlot s k with pendSignal := false, heldSignal := true } else { getSlot s k with pendSignal := true }))))) ∧
   (∀ (s : State), s.core.rollAt = none → clockRuns s = true → preemptPending s 0 = false → preemptPending s 1 = false →
     ∃ t, exec .preempt s = .next t ∧ (∀ k v, getArch t k v = getArch s k v) ∧ t.pkg = s.pkg ∧ t.cluster = s.cluster ∧
       ∀ k, ((getSlot s k).run = .running ∨ (getSlot s k).run = .handler → (getSlot t k).run = .preempted) ∧
         ((getSlot s k).run = .empty → getSlot t k = getSlot s k)) ∧
   (∀ (s : State) (k : Nat), k < 2 → clockRuns s = true → (getSlot s k).run = .preempted → readyToSave s k = true →
     (getSlot s (1 - k)).run ≠ .preempted → saveWaits s (1 - k) = false → s.cluster.switching = none →
     ∃ t, exec .coreImageSave s = .next t ∧ (getSlot t k).run = .empty ∧
       t.cluster.groups = (parkMember s.cluster (memberBit s k)).groups ∧
       t.cluster.queue = s.cluster.queue ++ [threadRec (getSlot s k) (some { saveThread (foldCounts s k) k with
         groups := memberGroups s.cluster (memberBit s k), arrivals := memberArrivals s.cluster (memberBit s k)
         stored := storedAt s s.cluster.saveArea k })] ∧
       ∀ a, sget t.pkg.mem a = sget (writeCoreImage s s.cluster.saveArea).pkg.mem a) ∧
   (∀ (s : State), saveDue s = false → Idle .coreImageSave s) ∧
   (∀ (s : State) (k : Nat),
     (sliceOver s k = false → Idle (.timeSliceEnd k) s) ∧
     (sliceOver s k = true → rivalWaits s (getSlot s k).thread.tokens = true →
       exec (.timeSliceEnd k) s = .next (preemptSlot (preemptSlot (restartSlice s k) 0) 1)) ∧
     (sliceOver s k = true → rivalWaits s (getSlot s k).thread.tokens = false → (getSlot s k).thread.sliceIssued = true →
       exec (.timeSliceEnd k) s = .next (restartSlice s k)) ∧
     (sliceOver s k = true → rivalWaits s (getSlot s k).thread.tokens = false → (getSlot s k).thread.sliceIssued = false →
       (getSlot s k).run ≠ .stopping → s.core.rollAt = none →
       ∃ t, exec (.timeSliceEnd k) s = .next t ∧ (getSlot t k).run = .stopping ∧ ∃ st, (getSlot t k).stop = some st ∧ st.cause = 0x23) ∧
     (holdsTooLong s k = false → Idle (.invalidationHoldTimeout k) s) ∧
     (holdsTooLong s k = true → exec (.invalidationHoldTimeout k) s = .next (preemptSlot s k)))) ∧
  (∀ (s : State) (k : Nat),
     ((getSlot s k).run = .ended → slotSealed s k = true → cmdsDone s k = true → (getSlot s k).breakAt = none →
       Unlogged s (getSlot s k).thread.ctx →
       ∃ t, exec (.threadEnd k) s = .next t ∧ (getSlot t k).run = .empty ∧
         (getCtx t (getSlot s k).thread.ctx).events = (setEvents (getCtx s (getSlot s k).thread.ctx)
           (recSetWin (getSlot s k).thread.rec3) (getSlot s k).thread.rec2).events) ∧
     ((getSlot s k).run = .ended → slotSealed s k = true → cmdsDone s k = false →
       exec (.threadEnd k) s = .next (setCluster s (leaveAll s.now s.cluster (memberBit s k)))) ∧
     ((getSlot s k).run = .ended → slotSealed s k = false → Idle (.threadEnd k) s) ∧
     (∀ st, (getSlot s k).run = .dead → (getSlot s k).stop = some st → finalDead s (getSlot s k) = true → clusterOut s k = false →
       exec (.threadEnd k) s = .next (endDead s k st)) ∧
     ((getSlot s k).run = .dead → (getSlot s k).stop = none → cmdsDone s k = true →
       ∃ t, exec (.threadEnd k) s = .next t ∧ (getSlot t k).run = .empty) ∧
     ((getSlot s k).run ≠ .ended → (getSlot s k).run ≠ .dead → Idle (.threadEnd k) s))

/-- R14, R79, R87, R95: PENDING_RESULT_LAND, QUEUE_ENTRY_FILL, LANDING_ARRIVAL and SLOT_YIELD each answer a next state with their effect
where their cause is there. A pending result that is due reaches the hidden face of its register and leaves the pending-result file; the visible
face, the W bits, the other registers and the rest of the machine are left alone.
R222, R225: a queue entry fills when the value of the word that reserved it is due, or with what an LDGQ's read has
brought; a landing slot with what its transfer has read, where its kind lets it be performed. Where every voice of the issuing thread
is stalled, one of them on a yielding wait, no voice has issued in the cycle and the other slot could issue, the issue passes to the
other slot behind a cycle in which neither issues; else it stays. -/
def Obligations.ArrivingResultsFillTheirPlaces : Prop :=
  (∀ (s : State) (k : Nat) (v : VoiceId) (n : Nat) (p : Pending), clockRuns s = true → (getArch s k v).pending[n]? = some p →
     p.due ≤ s.now →
     ∃ t, exec (.pendingResultLand k v n) s = .next t ∧
       t = setArch s k v { getArch s k v with
         hid := faceSet (getArch s k v).hid p.reg p.val, pending := dropIndex (getArch s k v).pending n }) ∧
  ((∀ (s : State) (k q n : Nat) (e : QEntry), (getQueue (getCtl s k) q)[n]? = some e →
     (∀ f, findFirst (fun f => decide (f.id = e.id)) (getSlot s k).fills = some f → f.due ≤ s.now → clockRuns s = true →
       ∃ t, exec (.queueEntryFill k q n) s = .next t ∧ (getSlot t k).qvals = mput (getSlot s k).qvals e.id ⟨f.val, none⟩ ∧
         (∀ g ∈ (getSlot t k).fills, g.id ≠ e.id) ∧ (∀ v, getArch t k v = getArch s k v) ∧ t.core.ctl = s.core.ctl ∧ t.pkg = s.pkg) ∧
     (∀ y, findFirst (fun f => decide (f.id = e.id)) (getSlot s k).fills = none →
       findFirst (fun y => decide (y.id = e.id)) (getSlot s k).xfers = some y →
       (∀ r, y.val = some r →
         ∃ t, exec (.queueEntryFill k q n) s = .next t ∧ (getSlot t k).qvals = mput (getSlot s k).qvals e.id ⟨r, xferPoison s k y⟩ ∧
           (∀ v, getArch t k v = getArch s k v) ∧ t.pkg = s.pkg) ∧
       (y.val = none → loadWaits s k y = false →
         ∃ t, exec (.queueEntryFill k q n) s = .next t ∧
           (findFirst (fun y => decide (y.id = e.id)) (getSlot t k).xfers).bind (fun y => y.val) = some (readRow s k y) ∧
           (∀ v, getArch t k v = getArch s k v) ∧ t.pkg = s.pkg) ∧
       (y.val = none → loadWaits s k y = true → Idle (.queueEntryFill k q n) s))) ∧
   (∀ (s : State) (k : Nat) (v : VoiceId) (lb : Nat) (x : Xfer), landingXfer s k (8 * v.num + lb) = some x →
     (∀ r, x.val = some r →
       ∃ t, exec (.landingArrival k v lb) s = .next t ∧
         (getSlot t k).arrived = mput (getSlot s k).arrived x.id ⟨r, xferPoison s k x, x.fault⟩ ∧
         (∀ u, getArch t k u = getArch s k u) ∧ t.pkg = s.pkg) ∧
     (x.val = none → x.remote = false → loadWaits s k x = false →
       ∃ t, exec (.landingArrival k v lb) s = .next t ∧
         (findFirst (fun y => decide (y.id = x.id)) (getSlot t k).xfers).bind (fun y => y.val) = some (readRow s k x) ∧
         (∀ u, getArch t k u = getArch s k u) ∧ t.pkg = s.pkg) ∧
     (x.val = none → x.remote = true ∨ loadWaits s k x = true → Idle (.landingArrival k v lb) s)) ∧
   (∀ s : State,
     (AllWait s → s.otherGo = true → ∃ t, exec .slotYield s = .next t ∧ t.core.act = 1 - s.core.act ∧ t.core.deadTill = s.now + 2 ∧
       (∀ k v, getArch t k v = getArch s k v) ∧ t.core.held = s.core.held ∧ t.core.spad = s.core.spad ∧ t.pkg = s.pkg) ∧
     (¬AllWait s ∨ s.otherGo = false → Idle .slotYield s)))

/-- R173 to R178: CLAUSE_SEAL of a clause that can seal answers a next state: it seals with the clauses it depends on: they are sealed, and no effect of theirs is held any
more. Of a clause that seals alone, stores to core scratchpad are performed in order, stores to device memory go out in order, and its
state becomes the voice's seal image. A clause that cannot seal yet stays; a poisoned entry of the hold-back buffer among what is
released is a machine check. -/
def Obligations.ClausesSealWithWhatTheyHold : Prop :=
  ∀ (s : State) (k id : Nat),
    ((sealSet s).contains id = true → s.core.clauses.any (fun c => decide (c.id = id) && decide (c.slot = k)) = true →
      s.core.freeze = none → s.core.fenced = false →
      (∀ bk a st, badEntry s (depClosure s.core (sealSet s) (sealSet s).length [id]) = some (bk, a, st) →
        exec (.clauseSeal k id) s = .next (machineCheck s bk a st)) ∧
      (badEntry s (depClosure s.core (sealSet s) (sealSet s).length [id]) = none →
        ∃ t, exec (.clauseSeal k id) s = .next t ∧ unsealed t.core id = false ∧
          (∀ n, n ∈ depClosure s.core (sealSet s) (sealSet s).length [id] →
            unsealed t.core n = false ∧ ∀ h ∈ t.core.held, h.clause ≠ n) ∧
          (∀ c, depClosure s.core (sealSet s) (sealSet s).length [id] = [id] →
            s.core.clauses.filter (fun c => decide (c.id = id)) = [c] → (∀ o ∈ s.core.out, (itemStore o).isSome = true) →
            ((∀ h ∈ s.core.held, h.clause = id → ∃ a d, h.eff = .store false a d 1 false 0 0 0) →
              t.core.spad = (s.core.held.filter (fun h => decide (h.clause = id))).foldl (fun m h => match h.eff with
                | .store false a d _ _ _ _ _ => writeBytes m a d
                | _ => m) s.core.spad ∧ t.core.out = s.core.out) ∧
            ((∀ h ∈ s.core.held, h.clause = id → ∃ a d kd rel cmd va asid, h.eff = .store true a d kd rel cmd va asid) →
              t.core.spad = s.core.spad ∧
              t.core.out = s.core.out ++ (s.core.held.filter (fun h => decide (h.clause = id))).map (fun h =>
                ⟨h.id, h.slot, id, (getSlot s h.slot).thread.ctx, (getSlot s h.slot).thread.tag, memberBit s h.slot, h.ord, h.eff⟩)) ∧
            ((∀ h ∈ s.core.held, h.clause = id → ∃ dev a d kd rel cmd va asid, h.eff = .store dev a d kd rel cmd va asid) →
              t.pkg = s.pkg ∧ t.cluster = s.cluster ∧ (∀ j v, getArch t j v = getArch s j v) ∧
              ∀ b, c.boundary = some b → (getVoice t c.slot c.voice).img = c.img)))) ∧
    ((sealSet s).contains id = false → Idle (.clauseSeal k id) s)

/-- R171, R179 to R182, R250, R299: a core report rolls the core back: no voice may issue for sixteen cycles, every running thread's
voices are what their seal images hold, the effects of clauses not sealed are discarded, ROLLCNT counts, and memory is untouched. An
engine report does the same, but faults and fences the core where a command ran without undo data or under a sealed clause, be it of a
thread that has left its slot. A corrected storage report changes nothing; one beyond correction poisons its line, or the packet in the
router's buffers. A fenced core acts on none and a frozen one keeps it, but for lines outside the core's zone. The host's injection is a
report; one that is refused ends PACKAGE-IDLE (R255). The numbers by which a storage report names its array and line are the model's (assumption 59). -/
def Obligations.ReportsRollTheCoreBack : Prop :=
  (∀ s : State,
    (s.core.fenced = true → ∀ r, offCore r = false → Idle (.strikeReport r) s) ∧
    (∀ f r, s.core.fenced = false → s.core.freeze = some f → offCore r = false →
      exec (.strikeReport r) s = .next { s with core := { s.core with freeze := some { f with heldReports := f.heldReports ++ [r] } } }) ∧
    (s.core.fenced = false → s.core.freeze = none →
      (∀ r, r = 0 ∨ r = 1 ∧ withoutUndo s = [] ∧ ranSealed s = [] ∧ struckPast s = [] →
        ∃ t, exec (.strikeReport r) s = .next t ∧ t.core.rollAt = some s.now ∧ t.core.spad = s.core.spad ∧ t.pkg.mem = s.pkg.mem ∧
          (∀ h ∈ t.core.held, unsealed s.core h.clause = false) ∧
          ∀ k, (getSlot s k).run ≠ .empty → (getSlot s k).run ≠ .dead →
            (∀ v, getArch t k v = reinject (getVoice s k v).img (getVoice s k v).imgAt (s.now + 16)) ∧
            ((getSlot s k).rollcnt.toNat < 2 ^ 32 - 1 → (getSlot t k).rollcnt = (getSlot s k).rollcnt + 1)) ∧
      (withoutUndo s ≠ [] ∨ ranSealed s ≠ [] ∨ struckPast s ≠ [] →
        ∃ t, exec (.strikeReport 1) s = .next t ∧ t = engineFault s (struck s) (struckPast s) ∧ t.core.fenced = true) ∧
      Idle (.strikeReport 2) s ∧
      (∀ l, ∃ t, exec (.strikeReport (3 + 16 * l)) s = .next t ∧ l ∈ t.core.poison ∧ t.core.spad = s.core.spad) ∧
      (∀ l k, 4 ≤ k → k ≤ 8 →
        ∃ t, exec (.strikeReport (3 + k + 16 * l)) s = .next t ∧ (k, l) ∈ t.core.badRows ∧ t.core.spad = s.core.spad)) ∧
    (∀ l, ∃ t, exec (.strikeReport (4 + 16 * l)) s = .next t ∧ l ∈ t.pkg.poison ∧ t.core = s.core) ∧
    ∀ l p, s.pkg.router[l]? = some p →
      ∃ t, exec (.strikeReport (5 + 16 * l)) s = .next t ∧ t.pkg.router[l]? = some { p with bad := true } ∧ t.core = s.core) ∧
  (∀ s : State,
    (∀ r, s.core.rollAt = some r → r + 16 ≤ s.now → s.core.freeze = none →
      exec .rollbackRestart s = .next { s with core := { s.core with rollAt := none } }) ∧
    (∀ r, s.core.rollAt = some r → s.now < r + 16 → Idle .rollbackRestart s) ∧
    (∀ core region, (core = s.core.index → region < 3 → powered s = true →
        exec (.hostInject core region) s = exec (.strikeReport region) (wake s)) ∧
      (core ≠ s.core.index ∨ 3 ≤ region ∨ powered s = false → exec (.hostInject core region) s = .next (wake s))))


/-- R216, R224, R229, R236, R315: a store that has been released and may be performed changes the bytes at its address and no other, a
release among them by its own event; one that may not yet stays. A publish toggles its entry of the publish map. What waited for
them acts in the same step.
R215, R219, R230, R232: a walk that completes leaves the list of walks and keeps the translation it finds, where the data TLB lacks it; an invalidation is
acknowledged once every access that used a removed entry has drained, and not before. -/
def Obligations.ReleasedStoresWalksAndInvalidations : Prop :=
  ((∀ (s : State) (n a va asid : Nat) (d : List Byte) (kind cmd : Nat) (rel : Bool) (o : OutItem),
     findItem s n = some o → o.eff = .store true a d kind rel cmd va asid →
     (mayPerform s o = false → Idle (.storePerformed n) s ∧ Idle (.releasePerformed n) s) ∧
     (mayPerform s o = true → memWf s.pkg.mem = true →
       ∃ u, exec (if rel then .releasePerformed n else .storePerformed n) s = .next (settle u) ∧
         exec (if rel then .storePerformed n else .releasePerformed n) s = .next s ∧
         readMem u a d.length = d ∧ (∀ x, x < a ∨ a + d.length ≤ x → sget u.pkg.mem x = sget s.pkg.mem x) ∧
         findItem u n = none ∧ (∀ k v, getArch u k v = getArch s k v) ∧ u.core.spad = s.core.spad ∧ u.core.held = s.core.held ∧
         u.cluster = s.cluster)) ∧
   (∀ (s : State) (n k : Nat) (o : OutItem) (e : PubMap), findItem s n = some o → o.eff = .pubg k →
     (pubgReady s o = true → mfind (getCtx s o.ctx).pubmap k = some e →
       ∃ u, exec (.pubgToggle n) s = .next (settle u) ∧
         (getCtx u o.ctx).pubmap = mput (getCtx s o.ctx).pubmap k { e with front := !e.front } ∧
         findItem u n = none ∧ u.pkg.mem = s.pkg.mem ∧ u.core.held = s.core.held ∧ u.cluster = s.cluster) ∧
     (pubgReady s o = false → Idle (.pubgToggle n) s)) ∧
   (∀ s : State, (∀ o ∈ s.core.out, (itemStore o).isSome = true) → settle s = s) ∧
   (∀ (s : State) (n : Nat), findItem s n = none →
     Idle (.storePerformed n) s ∧ Idle (.releasePerformed n) s ∧ Idle (.pubgToggle n) s)) ∧
  (∀ (s : State) (n : Nat),
     (∀ w, findFirst (fun w => decide (w.id = n)) s.pkg.walks = some w →
       ∃ t, exec (.walkComplete n) s = .next t ∧ t.pkg.walks = s.pkg.walks.filter (fun x => decide (x.id ≠ n)) ∧
         t.pkg.mem = s.pkg.mem ∧ t.core.held = s.core.held ∧ (∀ k v, getArch t k v = getArch s k v) ∧
         (∀ va size pa e, walk s (getCtx s w.ctx) w.va = .leaf va size pa e →
           (tlbHit s.core.dtlb (getCtx s w.ctx).asid va = none →
             t.core.dtlb = tlbFill 64 s.fresh s.core.dtlb ⟨(getCtx s w.ctx).asid, va, size, pa, e⟩ ∧
             t.pkg.l2tlb = tlbFill 4096 s.fresh s.pkg.l2tlb ⟨(getCtx s w.ctx).asid, va, size, pa, e⟩) ∧
           (tlbHit s.core.dtlb (getCtx s w.ctx).asid va ≠ none →
             t.core.dtlb = s.core.dtlb ∧ t.pkg.l2tlb = s.pkg.l2tlb ∧ t.pkg.walkCache = s.pkg.walkCache)) ∧
         ((∀ va size pa e, walk s (getCtx s w.ctx) w.va ≠ .leaf va size pa e) → t.core = s.core ∧ t.pkg.l2tlb = s.pkg.l2tlb)) ∧
     (findFirst (fun (w : Walk) => decide (w.id = n)) s.pkg.walks = none → Idle (.walkComplete n) s) ∧
     (∀ v, findFirst (fun v => decide (v.id = n)) s.pkg.invals = some v →
       (drained s v = true →
         exec (.invalidationAck n) s =
           .next { s with pkg := { s.pkg with invals := s.pkg.invals.filter (fun x => decide (x.id ≠ n)) } }) ∧
       (drained s v = false → Idle (.invalidationAck n) s)))

/-! ### The scheduler -/

namespace Sys2Proof.Claim

/-- A record of the queue that comes next in the scheduler's order and that a slot takes afresh: its descriptor, header and image
read, its window placed. -/
structure Placeable (s : State) (k i : Nat) (q : QRec) (m : Image) (base : Nat) : Prop where
  there : s.cluster.queue[i]? = some q
  next : duePlacement s = some (i, k)
  fresh : q.saved = none
  reads : readImage s (getCtx s q.ctx) q.r0 = .ok m
  window : firstFit s k m.node.winLen = some base
  unlogged : Unlogged s q.ctx
  untraced : (getCtx s q.ctx).trace = none

/-- The state with the counters of the resident threads in their contexts' totals (R296). -/
abbrev countsFolded (s : State) : State := [0, 1].foldl (fun t k => if (getSlot t k).run = .empty then t else foldCounts t k) s

/-- Where a context's image of this cluster lies in an area. -/
abbrev placeIn (s : State) (c : Context) (spans : List (Nat × Nat)) : Option (List (Nat × Nat)) :=
  if spansFrom spans (clusterOff c s.cluster.num) = [] then none else some (spansFrom spans (clusterOff c s.cluster.num))

/-- The context whose image of this cluster lies in the area. -/
abbrev SavedHere (s : State) (spans : List (Nat × Nat)) (n : Nat) (c : Context) : Prop :=
  findFirst (fun (c : Nat × Context) => match c.2.savedIn with
    | some at_ => decide (spanAddr at_ 0 = spanAddr spans (clusterOff c.2 s.cluster.num))
    | none => false) s.pkg.contexts = some (n, c)

/-- The records of a context that came while the cluster was switched out for it: those for the queue's head, or its end. -/
abbrev cameWhileOut (s : State) (n : Nat) (head : Bool) : List QRec :=
  (s.cluster.offQueue.filter (fun x => decide (x.2.ctx = n) && x.1 == head)).map (fun x => x.2)

/-- Items the overflow area of a pipeline would hold after a spill: those it holds, the newest halves of the full queues, and the
places reserved for items that will go there. -/
abbrev afterSpill (s : State) (d : PipeDecl) (pipe : Nat) : Nat :=
  overflowUsed s pipe +
    (((fullQueues s d pipe).map (fun st => (getPipe s.cluster pipe st).items.length - (getPipe s.cluster pipe st).items.length / 2)).sum +
      ((fullQueues s d pipe).map (fun st => if (getPipe s.cluster pipe st).overflow = [] then heldItems s pipe st else 0)).sum +
      heldOverflow s pipe)

/-- A steal's record enters its context's queue, or waits to while the cluster is switched out for it or not its. -/
abbrev Enters (s t : State) (head : Bool) (q : QRec) : Prop :=
  (s.cluster.ctx = some q.ctx → s.cluster.switchedOut = false →
    t.cluster.queue = (if head then q :: s.cluster.queue else s.cluster.queue ++ [q]) ∧ t.cluster.offQueue = s.cluster.offQueue) ∧
  (s.cluster.ctx ≠ some q.ctx ∨ s.cluster.switchedOut = true →
    t.cluster.queue = s.cluster.queue ∧ ((head, q) ∈ t.cluster.offQueue ∧ ∀ x ∈ s.cluster.offQueue, x ∈ t.cluster.offQueue))

end Sys2Proof.Claim

/-- R17, R93, R197 to R199, R206, R268: the record that comes next in the scheduler's order starts its thread on the slot it comes to:
each voice at its entry address of the kernel header with no result pending, the window at its place, SCYC 0, the record gone from the
queue; a saved one comes back with its image, as the memory holds it (assumption 81). A ready record may displace a task of fewer tokens where no slot is free: the slot is
promised to it, the task is killed and its record goes to the queue's head, or both threads are stopped for their save. Any other
record stays. -/
def Obligations.TasksArePlacedOnFreeSlots : Prop :=
  (∀ (s : State) (k i base : Nat) (q : QRec) (m : Image), Placeable s k i q m base →
    ∃ t, exec (.taskPlace i k) s = .next t ∧ (getSlot t k).run = .running ∧ (getSlot t k).thread.ctx = q.ctx ∧
      (getSlot t k).thread.tag = q.tag ∧ (getSlot t k).thread.winBase = base ∧ (getSlot t k).thread.winLen = m.node.winLen ∧
      (getSlot t k).scyc = 0 ∧ t.cluster.queue = dropIndex s.cluster.queue i ∧
      (∀ v, (getArch t k v).na0 = ⟨BitVec.ofNat 52 (leNat ((m.header.drop (8 * v.num)).take 8)), false⟩ ∧
        (getArch t k v).pending = [] ∧ (getArch t k v).w = 0 ∧ (getArch t k v).lc = [] ∧ (getArch t k v).exited = false) ∧
      t.pkg.mem = s.pkg.mem) ∧
  (∀ (s : State) (k i : Nat) (q : QRec) (m : SavedThread), s.cluster.queue[i]? = some q → duePlacement s = some (i, k) →
    q.saved = some m → Unlogged s q.ctx → (getCtx s q.ctx).trace = none →
    ∃ t, exec (.taskPlace i k) s = .next t ∧ (getSlot t k).run = (fromStore s m).slot.run ∧
      (getSlot t k).scyc = (fromStore s m).slot.scyc ∧ t.cluster.queue = dropIndex s.cluster.queue i ∧
      (m.stored = none → fromStore s m = m) ∧
      (∀ v, (getArch t k v).vis = (slotVoice (fromStore s m).slot v).a.vis ∧
        (getArch t k v).hid = (slotVoice (fromStore s m).slot v).a.hid ∧ (getArch t k v).na0 = (slotVoice (fromStore s m).slot v).a.na0)) ∧
  (∀ (s : State) (k i : Nat) (q : QRec), s.cluster.queue[i]? = some q → duePlacement s ≠ some (i, k) →
    (mayDisplace s k q = false → Idle (.taskPlace i k) s) ∧
    (mayDisplace s k q = true →
      (remaining (getSlot s k) ≤ (getCtx s (getSlot s k).thread.ctx).drainLimit →
        exec (.taskPlace i k) s = .next (setCluster s { s.cluster with promised := mput s.cluster.promised k q })) ∧
      ((getCtx s (getSlot s k).thread.ctx).drainLimit < remaining (getSlot s k) → (getSlot s k).thread.killable = true →
        ∃ t r, exec (.taskPlace i k) s = .next t ∧ (getSlot t k).run = .dead ∧ t.cluster.queue = r :: s.cluster.queue ∧
          r.r0 = (getSlot s k).thread.rec0 ∧ r.tag = (getSlot s k).thread.tag ∧ r.saved = none ∧
          (∀ c ∈ t.core.clauses, c.slot ≠ k) ∧
          (∀ m ∈ s.core.cmds, m.slot = k → unsealed s.core m.clause = false → m ∈ t.core.cmds)) ∧
      ((getCtx s (getSlot s k).thread.ctx).drainLimit < remaining (getSlot s k) → (getSlot s k).thread.killable = false →
        exec (.taskPlace i k) s = .next (preemptSlot (preemptSlot s 0) 1)))) ∧
  (∀ (s : State) (k i : Nat), s.cluster.queue[i]? = none → duePlacement s ≠ some (i, k) → Idle (.taskPlace i k) s)

/-- R204, R208, R209: a pipeline that has waited 4,096 cycles on its full queues spills the newest half of each into the overflow area,
or loses its tasks where the area has no room. A scheduler asked for work gives its newest ready record that names no group
into transit; the thief's acknowledgement ends the transit, a timeout brings the record back to the head, and the confirmation
puts it into the thief's queue; a record of a context that does not hold the cluster waits for it. A lost scheduler reports and loses
its records. Which half of an odd queue is the newest (assumption 40) and the bytes of the overflow area (assumption 36) are the model's. -/
def Obligations.PipelinesSpillAndWorkIsStolen : Prop :=
  (∀ (s : State) (n pipe : Nat) (d : PipeDecl), s.cluster.ctx = some n → mfind (getCtx s n).pipes pipe = some d →
    (spillReady s pipe = false → Idle (.pipelineSpill pipe) s) ∧
    (spillReady s pipe = true →
      afterSpill s d pipe ≤ d.overItems →
      ∃ t, exec (.pipelineSpill pipe) s = .next t ∧
        t.cluster.pipes = ((fullQueues s d pipe).foldl (fun c st => setPipe c pipe st (spillQueue (getPipe c pipe st))) s.cluster).pipes ∧
        t = writeOverflow (setCluster s t.cluster) n d pipe ∧ t.core = s.core ∧ t.cluster.queue = s.cluster.queue) ∧
    (spillReady s pipe = true →
      d.overItems < afterSpill s d pipe →
      ∃ t, exec (.pipelineSpill pipe) s = .next t ∧
        (∀ q ∈ t.cluster.queue, q ∈ s.cluster.queue) ∧
        ∀ k ∈ pipeSlots s pipe, (getSlot s k).thread.ctx = n → (getSlot t k).run = .empty)) ∧
  (∀ (q : PipeQueue), (spillQueue q).items = q.items.take (q.items.length / 2) ∧
    (spillQueue q).items ++ (spillQueue q).overflow = q.items ++ q.overflow) ∧
  (∀ (s : State) (peer i : Nat) (q : QRec), 2 ≤ (stealable s).length → s.cluster.lost = false → (stealable s).getLast? = some i →
    s.cluster.queue[i]? = some q → Unlogged s q.ctx →
    ∃ t, exec (.stealRequest peer) s = .next t ∧ t.cluster.queue = dropIndex s.cluster.queue i ∧
      t.cluster.transit = s.cluster.transit ++ [⟨s.cluster.nextSeq, peer, q, s.now⟩] ∧ t.cluster.nextSeq = s.cluster.nextSeq + 1) ∧
  (∀ (s : State) (peer seq : Nat),
    (exec (.stealAcknowledge seq) s = .next (setCluster s { s.cluster with
      transit := s.cluster.transit.filter (fun t => decide (t.seq ≠ seq)) })) ∧
    (∀ x, findFirst (fun x => decide (x.seq = seq) && decide (x.peer = peer)) s.cluster.stolen = some x →
      ∃ t, exec (.stealConfirm peer seq) s = .next t ∧ Enters s t false x.entry ∧ x ∉ t.cluster.stolen) ∧
    (∀ x, findFirst (fun x => decide (x.seq = seq)) s.cluster.transit = some x →
      (x.sentAt + microCycles s 16 ≤ s.now →
        ∃ t, exec (.stealTimeout seq) s = .next t ∧ Enters s t true x.entry ∧ ∀ y ∈ t.cluster.transit, y.seq ≠ seq) ∧
      (s.now < x.sentAt + microCycles s 16 → Idle (.stealTimeout seq) s))) ∧
  (∀ (s : State) (n cl : Nat), s.cluster.ctx = some n →
    (cl ≠ s.cluster.num → Idle (.schedLost cl) s) ∧
    (cl = s.cluster.num → (∀ q ∈ s.cluster.queue, q.ctx = n) →
      ∃ t, exec (.schedLost cl) s = .next t ∧ t.cluster.lost = true ∧ t.cluster.queue = []))

/-- R210, R259 to R262: a cluster switches out in two steps, its threads stopped and then taken off with all of the cluster in its
image, and is restored from that image, its threads on their slots where its core may hold threads. CTXSAVE's and CTXRST's requests,
and the host's, answer with their status; one that is refused changes nothing else, and one that succeeds parks the context or ends
its parking. What an image holds beyond its tables and how one is read back is assumption 42; the host's requests, their physical
addresses and their number 0 are assumption 43; the scheduler's area and the records of a core that may hold no thread are assumption
81. -/
def Obligations.ClustersAndContextsAreSavedAndRestored : Prop :=
  (∀ (s : State) (area n : Nat), s.cluster.ctx = some n →
    (s.cluster.switching = none →
      (s.cluster.switchedOut = false → sliceKept s = true → presentRange s.pkg area 0x2000 = true →
        ∃ spans, exec (.clusterSwitchOut area) s =
          .next (preemptSlot (preemptSlot (setCluster s { s.cluster with switching := some spans }) 0) 1)) ∧
      (s.cluster.switchedOut = true ∨ sliceKept s = false ∨ presentRange s.pkg area 0x2000 = false →
        Idle (.clusterSwitchOut area) s)) ∧
    (∀ spans, s.cluster.switching = some spans →
      (switchReady s = false → Idle (.clusterSwitchOut area) s) ∧
      (switchReady s = true → ∃ t, exec (.clusterSwitchOut area) s = .next t ∧ t.cluster.switchedOut = true ∧
        t.cluster.switching = none ∧ t.cluster.ctx = some n ∧ t.cluster.queue = [] ∧ (∀ k, (getSlot t k).run = .empty) ∧
        (getCtx t n).savedIn = placeIn s (getCtx s n) spans ∧
        ∃ x, t.pkg.images = x :: s.pkg.images ∧ x.image = clusterImage (countsFolded s)))) ∧
  (∀ (s : State) (area n : Nat) (c : Context), SavedHere s (physArea s area) n c →
    s.cluster.switchedOut = true ∨ s.cluster.ctx = none → (∀ k, (getSlot s k).run = .empty) → c.parked = false →
    ∃ t m, exec (.clusterRestore area) s = .next t ∧ m = imageAt s (c.savedIn.getD []) n ∧
      t.cluster.switchedOut = false ∧ t.cluster.ctx = some n ∧ t.cluster.flags = m.flags ∧ t.cluster.pipes = m.pipes ∧
      (coreUsable s = true ∨ m.threads = [] → t.cluster.groups = m.groups ∧ t.cluster.barriers = m.barriers ∧
        t.cluster.queue = cameWhileOut s n true ++ m.queue ++ cameWhileOut s n false) ∧
      (coreUsable s = true → (m.threads.map (fun p => p.1)).Sublist [0, 1] →
        ∀ p ∈ m.threads, (getSlot t p.1).run = p.2.slot.run ∧ (getSlot t p.1).thread.tag = p.2.slot.thread.tag) ∧
      (coreUsable s = false → (∀ k, (getSlot t k).run = .empty) ∧
        ∃ rs, t.cluster.queue = cameWhileOut s n true ++ m.queue ++ cameWhileOut s n false ++ rs ∧
          rs.map (fun q => q.r0) = m.threads.map (fun p => p.2.slot.thread.rec0) ∧ ∀ q ∈ rs, q.saved.isSome = true) ∧
      (m.threads = [] → t.core.cells = m.array.cells ∧ t.core.tiles = m.array.tiles ∧ t.core.ctl.knots = m.array.knots)) ∧
  (∀ (s : State) (n id c units : Nat) (a : Word) (o : OutItem), findOut s n = some o → o.eff = .ctxsave id c a units →
    (underWay s id = false → ∃ t, exec (.contextSaveRequest n) s = .next t ∧
      (saveStatus s (some o.ctx) c a.toNat units = 0 → (getCtx t c).busy = true ∧ underWay t id = true) ∧
      (saveStatus s (some o.ctx) c a.toNat units ≠ 0 →
        t = dropItem (setResult s id (saveResult s c (saveStatus s (some o.ctx) c a.toNat units))) n)) ∧
    (∀ spans, underWay s id = true → saveReady s c = true → areaSpans s (some o.ctx) .write a.toNat (units * 4096) = some spans →
      ∃ t, exec (.contextSaveRequest n) s = .next t ∧ (getCtx t c).parked = true ∧ (getCtx t c).busy = false ∧
        ⟨id, some (saveResult s c 0)⟩ ∈ t.pkg.requests ∧ findOut t n = none)) ∧
  (∀ (s : State) (n id c : Nat) (a : Word) (o : OutItem), findOut s n = some o → o.eff = .ctxrst id c a →
    ∃ t, exec (.contextRestoreRequest n) s = .next t ∧ findOut t n = none ∧
      ⟨id, some (mod64 (restoreStatus s (some o.ctx) c a.toNat))⟩ ∈ t.pkg.requests ∧
      (restoreStatus s (some o.ctx) c a.toNat = 0 → (getCtx t c).parked = false) ∧
      (restoreStatus s (some o.ctx) c a.toNat ≠ 0 → t.pkg.contexts = s.pkg.contexts ∧ t.cluster = s.cluster)) ∧
  (∀ (s : State) (c a units : Nat),
    (powered s = false → Idle (.hostCtxsave c a units) s ∧ Idle (.hostCtxrst c a) s) ∧
    (powered s = true →
      ((c, a, units) ∉ s.pkg.hostSave ∨ saveReady s c = false → ∃ t, exec (.hostCtxsave c a units) s = .next t ∧
        (saveStatus (wake s) none c a units = 0 →
          (getCtx t c).busy = true ∧ t.pkg.hostSave = s.pkg.hostSave ++ [(c, a, units)]) ∧
        (saveStatus (wake s) none c a units ≠ 0 →
          t = setResult (wake s) 0 (saveResult (wake s) c (saveStatus (wake s) none c a units)))) ∧
      ((c, a, units) ∈ s.pkg.hostSave → saveReady s c = true → presentRange s.pkg a (units * 4096) = true →
        ∃ t, exec (.hostCtxsave c a units) s = .next t ∧ (getCtx t c).parked = true ∧ (c, a, units) ∉ t.pkg.hostSave ∧
          ∀ x ∈ s.pkg.hostSave, x ≠ (c, a, units) → x ∈ t.pkg.hostSave) ∧
      (∃ t, exec (.hostCtxrst c a) s = .next t ∧ ⟨0, some (mod64 (restoreStatus (wake s) none c a))⟩ ∈ t.pkg.requests ∧
        (restoreStatus (wake s) none c a = 0 → (getCtx t c).parked = false))))

/-! ### The hub -/

namespace Sys2Proof.Claim

/-- The next packet of a context's queue is this one, accepted, of this type. -/
structure NextIs (s : State) (ctx idx typ : Nat) (bs : List Byte) : Prop where
  next : nextPacketOf s ctx = some (idx, bs)
  typ : pktWord bs 0 % 256 = typ
  ok : packetOk s ctx bs = true

/-- The next packet is a DEBUG packet of an operation (Table 20.1). -/
structure DebugIs (s : State) (ctx idx op : Nat) (bs : List Byte) : Prop where
  packet : NextIs s ctx idx 2 bs
  op : (debugBody bs).op = op

/-- The queue of a context has moved past its next packet. -/
abbrev MovedOn (s t : State) (ctx : Nat) : Prop := (getCtx t ctx).sq.head = ((getCtx s ctx).sq.head + 1) % 2 ^ 32

/-- A powered package has this context. -/
abbrev Serves (s : State) (ctx : Nat) : Prop := powered s = true ∧ ctxExists s ctx = true

end Sys2Proof.Claim

/-- R246 to R249, R264: a doorbell sets its ring's position modulo 2^32 and wakes the package: a submission tail the queue's tail, a
completion or fault head the consumed count, whereupon credits of signals that have been read return and held records are
written. A doorbell of a context that is not there only wakes the package (R255). -/
def Obligations.DoorbellsMoveTheirRings : Prop :=
  ∀ (s : State) (ctx val : Nat),
    (¬Serves s ctx → exec (.submissionTail ctx val) s = .next (wake s) ∧ exec (.completionHead ctx val) s = .next (wake s) ∧
      exec (.faultHead ctx val) s = .next (wake s)) ∧
    (Serves s ctx →
      (∃ t, exec (.submissionTail ctx val) s = .next t ∧
        getCtx t ctx = { getCtx s ctx with sq := { (getCtx s ctx).sq with tail := val % 2 ^ 32 } } ∧
        t.pkg.mem = s.pkg.mem ∧ t.core = s.core ∧ t.cluster = s.cluster) ∧
      (∃ t, exec (.completionHead ctx val) s = .next t ∧ (getCtx t ctx).cq.head = val % 2 ^ 32 ∧
        (getCtx t ctx).credits = (getCtx s ctx).credits + ((getCtx s ctx).signals.filter (passed (val % 2 ^ 32))).length ∧
        ((getCtx s ctx).heldCompletions = [] → t.pkg.mem = s.pkg.mem) ∧ t.core = s.core ∧ t.cluster = s.cluster) ∧
      (∃ t, exec (.faultHead ctx val) s = .next t ∧ (getCtx t ctx).fq.head = val % 2 ^ 32 ∧
        ((getCtx s ctx).heldFaults = [] → t.pkg.mem = s.pkg.mem) ∧ t.core = s.core ∧ t.cluster = s.cluster))

/-- R198, R200, R246, R247: a LAUNCH packet enters its whole batch into the launch queue, at the end and in order, once there is room;
an EVENT packet sets and clears bits of its window; an EVWAIT packet waits until all its bits are set; a packet that is not
allowed, or a batch with a reserved field, ends as INVALID. Each is then done with, and a packet that is not next is not served. The
checks of a batch's records and the cluster a batch goes to are assumption 57. -/
def Obligations.PacketsLaunchSetAndAwait : Prop :=
  (∀ (s : State) (ctx idx : Nat) (bs : List Byte),
    (NextIs s ctx idx 1 bs →
      (∀ rs, launchBytes s ctx bs = some rs → (batchRecs ctx idx (pktTag bs) rs).any (fun q => recReserved q.r3) = false →
        launchesHere s ctx = true → Unlogged s ctx →
        ((batchRecs ctx idx (pktTag bs) rs).length ≤ entriesFree s →
          ∃ t, exec (.launchPacket ctx idx) s = .next t ∧
            t.cluster = (batchRecs ctx idx (pktTag bs) rs).foldl enqueueRec s.cluster ∧ MovedOn s t ctx) ∧
        (entriesFree s < (batchRecs ctx idx (pktTag bs) rs).length → launchesElsewhere s ctx = false →
          Idle (.launchPacket ctx idx) s)) ∧
      (launchBytes s ctx bs = none → exec (.launchPacket ctx idx) s = .next (finishPacket s ctx bs 1)) ∧
      (∀ rs, launchBytes s ctx bs = some rs → (batchRecs ctx idx (pktTag bs) rs).any (fun q => recReserved q.r3) = true →
        exec (.launchPacket ctx idx) s = .next (finishPacket s ctx bs 1))) ∧
    (NextIs s ctx idx 3 bs → Unlogged s ctx →
      ∃ t, exec (.event ctx idx) s = .next t ∧ MovedOn s t ctx ∧
        (getCtx t ctx).events = (clearEvents (setEvents (getCtx s ctx) (pktWord bs 0x08) (mod64 (pktWord bs 0x10)))
          (pktWord bs 0x08) (mod64 (pktWord bs 0x18))).events) ∧
    (NextIs s ctx idx 4 bs →
      (evwaitMet s ctx bs = true → exec (.evwaitPacket ctx idx) s = .next (finishPacket s ctx bs 0)) ∧
      (evwaitMet s ctx bs = false → Idle (.evwaitPacket ctx idx) s)) ∧
    (nextPacketOf s ctx = some (idx, bs) → packetOk s ctx bs = false →
      exec (.invalidPacket ctx idx) s = .next (finishPacket s ctx bs 1))) ∧
  (∀ (s : State) (ctx idx : Nat), (∀ bs, nextPacketOf s ctx ≠ some (idx, bs)) →
    Idle (.launchPacket ctx idx) s ∧ Idle (.event ctx idx) s ∧ Idle (.evwaitPacket ctx idx) s ∧ Idle (.invalidPacket ctx idx) s) ∧
  (∀ (s : State) (ctx : Nat) (bs : List Byte) (st : Nat), MovedOn s (finishPacket s ctx bs st) ctx ∧
    (finishPacket s ctx bs st).core = s.core ∧ (finishPacket s ctx bs st).cluster = s.cluster)

/-! ### Debug -/

/-- R287 to R291: ATTACH opens a session for the queue's context, DETACH resumes what was stopped and ends it. STOP, with a session,
freezes the core with a stop image of its slot; where a breakpoint of the slot is due on that edge, the breakpoint stops it. RESUME
reloads the image as edited and lets the core run; BREAK arms the slot at a schedule cycle, at whose edge the core freezes. An image
that cannot be written ends the session. A freeze ends by itself when its context's limit is over. The status of a STOP without a session
or on an empty slot is assumption 55, a freeze of two slots assumption 56. -/
def Obligations.DebugSessionsStopAndResume : Prop :=
  (∀ (s : State) (ctx idx : Nat) (bs : List Byte),
    (DebugIs s ctx idx 1 bs →
      exec (.attach ctx idx) s = .next (finishPacket (setCtx s (debugBody bs).target
        { getCtx s (debugBody bs).target with session := some ctx }) ctx bs 0)) ∧
    (DebugIs s ctx idx 2 bs →
      ∃ u, u = resumeAll s (debugBody bs).target false ∧
        exec (.detach ctx idx) s = .next (finishPacket (setCtx u (debugBody bs).target
          { getCtx u (debugBody bs).target with session := none }) ctx bs 0) ∧
        (s.core.freeze = none → u = s)) ∧
    (DebugIs s ctx idx 3 bs → onThisCore s (debugBody bs) = true →
      (holdsThread s (debugBody bs) = false ∨ (getCtx s (debugBody bs).target).session = none →
        exec (.stop ctx idx) s = .next (finishPacket s ctx bs 1)) ∧
      (∀ u, holdsThread s (debugBody bs) = true → (getCtx s (debugBody bs).target).session.isSome = true →
        (stoppedImage s (debugBody bs).slot).isSome = false → s.core.rollAt = none → breakDue s (debugBody bs).slot = false →
        debugStop (setSlot s (debugBody bs).slot { getSlot s (debugBody bs).slot with imageAt := (debugBody bs).addr })
          (debugBody bs).slot 0 (debugBody bs).addr = some u →
        ∃ t, exec (.stop ctx idx) s = .next t ∧ t.core.freeze.isSome = true ∧ clockRuns t = false ∧
          stoppedImage t (debugBody bs).slot = some (debugBody bs).addr ∧ (∀ k v, getArch t k v = getArch s k v) ∧
          t.core.spad = s.core.spad) ∧
      (holdsThread s (debugBody bs) = true → (getCtx s (debugBody bs).target).session.isSome = true →
        (stoppedImage s (debugBody bs).slot).isSome = false → s.core.rollAt = none → breakDue s (debugBody bs).slot = false →
        debugStop (setSlot s (debugBody bs).slot { getSlot s (debugBody bs).slot with imageAt := (debugBody bs).addr })
          (debugBody bs).slot 0 (debugBody bs).addr = none →
        ∃ t, exec (.stop ctx idx) s = .next t ∧ (getCtx t (debugBody bs).target).session = none ∧ t.core.freeze = s.core.freeze) ∧
      (holdsThread s (debugBody bs) = true → (getCtx s (debugBody bs).target).session.isSome = true →
        breakDue s (debugBody bs).slot = true →
        exec (.stop ctx idx) s = .next (finishPacket (breakStop s (debugBody bs).slot) ctx bs 0)) ∧
      (holdsThread s (debugBody bs) = true → (getCtx s (debugBody bs).target).session.isSome = true →
        ((stoppedImage s (debugBody bs).slot).isSome = true → exec (.stop ctx idx) s = .next (finishPacket s ctx bs 0)) ∧
        ((stoppedImage s (debugBody bs).slot).isSome = false → s.core.rollAt.isSome = true → Idle (.stop ctx idx) s))) ∧
    (DebugIs s ctx idx 4 bs → onThisCore s (debugBody bs) = true →
      (isStopped s (debugBody bs) = true →
        exec (.resume ctx idx) s = .next (finishPacket (resumeSlot s (debugBody bs).slot true false) ctx bs 0)) ∧
      (isStopped s (debugBody bs) = false → exec (.resume ctx idx) s = .next (finishPacket s ctx bs 1))) ∧
    (DebugIs s ctx idx 7 bs → onThisCore s (debugBody bs) = true →
      exec (.debugBreak ctx idx) s = .next (finishPacket (setSlot s (debugBody bs).slot { getSlot s (debugBody bs).slot with
        breakAt := if (debugBody bs).operand = 0 then none else some (mod64 (debugBody bs).operand)
        imageAt := (debugBody bs).addr, breakImage := (debugBody bs).addr }) ctx bs 0))) ∧
  (∀ (s : State) (k : Nat),
    (breakDue s k = false → Idle (.breakpoint k) s) ∧
    (∀ u, breakDue s k = true → debugStop (setSlot s k { getSlot s k with breakAt := none }) k 1 (getSlot s k).breakImage = some u →
      exec (.breakpoint k) s = .next u ∧ u.core.freeze.isSome = true ∧ (getSlot u k).breakAt = none) ∧
    (breakDue s k = true → debugStop (setSlot s k { getSlot s k with breakAt := none }) k 1 (getSlot s k).breakImage = none →
      ∃ u, exec (.breakpoint k) s = .next u ∧ (getCtx u (getSlot s k).thread.ctx).session = none ∧ (getSlot u k).breakAt = none ∧
        u.core.freeze = s.core.freeze)) ∧
  (∀ (s : State) (c : Nat),
    (limitReached s c = false → Idle (.freezeLimit c) s) ∧
    (limitReached s c = true → exec (.freezeLimit c) s = .next (resumeAll s c true))) ∧
  (∀ (s : State) (k image : Nat) (f : Freeze), s.core.freeze = some f → stoppedImage s k = some image →
    stoppedImage s (if k = 0 then 1 else 0) = none → f.heldReports = [] →
    (resumeSlot s k false false).core.freeze = none)

/-- R287, R299: READ copies the bytes of a space to host memory and WRITE those of host memory to a space, up to 4,096 of them; a longer
range, one that the space or its condition does not allow, a space that is not listed, and one whose host memory the bus does not reach end
with status 1 and change nothing. Space 0 is the target's virtual memory and space 1 the window of a stopped slot. INJECT adds a report of its slot at a schedule cycle, for an exclusive context of this
cluster or a stopped thread; its reserved bits end it with status 1 (assumption 55). -/
def Obligations.DebugReadsWritesAndInjections : Prop :=
  (∀ (s : State) (d : DebugBody) (off n : Nat) (xs : List Byte),
    (d.space = 1 ∨ d.space = 2 → isStopped s d = false → spaceBytes s d off n = none ∧ writeSpace s d off xs = none) ∧
    (d.space = 1 → (getSlot s d.slot).thread.winLen * 4096 < off + n → spaceBytes s d off n = none) ∧
    (d.space = 1 → (getSlot s d.slot).thread.winLen * 4096 < off + xs.length → writeSpace s d off xs = none) ∧
    (d.space = 2 → 8192 < off + n → spaceBytes s d off n = none) ∧
    (d.space = 2 → 8192 < off + xs.length → writeSpace s d off xs = none) ∧
    (d.space = 3 → 512 < off + n → spaceBytes s d off n = none) ∧ (d.space = 4 → 64 < off + n → spaceBytes s d off n = none) ∧
    (4 < d.space → spaceBytes s d off n = none) ∧ (2 < d.space → writeSpace s d off xs = none) ∧
    (d.space = 0 → spaceBytes s d off n = readVirtual s (getCtx s d.target) off n ∧
      writeSpace s d off xs = writeVirt s (getCtx s d.target) off xs) ∧
    (d.space = 1 → isStopped s d = true →
      (off + n ≤ (getSlot s d.slot).thread.winLen * 4096 →
        spaceBytes s d off n = some (readSpad s ((getSlot s d.slot).thread.winBase * 4096 + off) n)) ∧
      (off + xs.length ≤ (getSlot s d.slot).thread.winLen * 4096 →
        writeSpace s d off xs = some (writeSpad s ((getSlot s d.slot).thread.winBase * 4096 + off) xs)))) ∧
  ∀ (s : State) (ctx idx : Nat) (bs : List Byte),
    (DebugIs s ctx idx 5 bs → spaceElsewhere s (debugBody bs) = false →
      (4096 < transferLen (debugBody bs) ∨
        spaceBytes s (debugBody bs) (transferOff (debugBody bs)) (transferLen (debugBody bs)) = none ∨
        (∃ xs, spaceBytes s (debugBody bs) (transferOff (debugBody bs)) (transferLen (debugBody bs)) = some xs ∧
          hostWrite s (debugBody bs).addr xs = none) →
        exec (.debugRead ctx idx) s = .next (finishPacket s ctx bs 1)) ∧
      (∀ xs t, transferLen (debugBody bs) ≤ 4096 →
        spaceBytes s (debugBody bs) (transferOff (debugBody bs)) (transferLen (debugBody bs)) = some xs →
        hostWrite s (debugBody bs).addr xs = some t →
        exec (.debugRead ctx idx) s = .next (finishPacket t ctx bs 0) ∧
          t.pkg.mem = writeBytes s.pkg.mem (hostBase + (debugBody bs).addr) xs ∧ t.core = s.core)) ∧
    (DebugIs s ctx idx 6 bs → spaceElsewhere s (debugBody bs) = false →
      (4096 < transferLen (debugBody bs) ∨ hostRead s (debugBody bs).addr (transferLen (debugBody bs)) = none ∨
        (∃ xs, hostRead s (debugBody bs).addr (transferLen (debugBody bs)) = some xs ∧
          writeSpace s (debugBody bs) (transferOff (debugBody bs)) xs = none) →
        exec (.debugWrite ctx idx) s = .next (finishPacket s ctx bs 1)) ∧
      (∀ xs t, transferLen (debugBody bs) ≤ 4096 → hostRead s (debugBody bs).addr (transferLen (debugBody bs)) = some xs →
        writeSpace s (debugBody bs) (transferOff (debugBody bs)) xs = some t →
        exec (.debugWrite ctx idx) s = .next (finishPacket t ctx bs 0))) ∧
    (DebugIs s ctx idx 12 bs → onThisCore s (debugBody bs) = true → (debugBody bs).operand % 4 ≠ 3 →
      bits (debugBody bs).operand 2 6 = 0 →
      ((getCtx s (debugBody bs).target).exclusive = true ∧ s.cluster.ctx = some (debugBody bs).target ∨ isStopped s (debugBody bs) = true →
        exec (.inject ctx idx) s = .next (finishPacket (setSlot s (debugBody bs).slot { getSlot s (debugBody bs).slot with
          injectAt := (getSlot s (debugBody bs).slot).injectAt ++
            [(mod64 ((debugBody bs).operand / 256), (debugBody bs).operand % 4)] }) ctx bs 0)) ∧
      ((getCtx s (debugBody bs).target).exclusive = false → isStopped s (debugBody bs) = false →
        exec (.inject ctx idx) s = .next (finishPacket s ctx bs 1))) ∧
    (DebugIs s ctx idx 12 bs → (debugBody bs).operand % 4 = 3 ∨ bits (debugBody bs).operand 2 6 ≠ 0 →
      exec (.inject ctx idx) s = .next (finishPacket s ctx bs 1))

namespace Sys2Proof.Claim

/-- An operand of REPLAY with a listed mode, a log in whole 64 KiB pages and no reserved bit. -/
abbrev ReplayListed (x : Nat) : Bool := decide (x % 256 ≤ 2) && decide (bits x 8 40 * 256 % 0x10000 = 0) && decide (bits x 48 16 = 0)

end Sys2Proof.Claim

/-- R292 to R298: SAMPLE sets a slot's period of 2^k schedule cycles, k from 8 to 20, or ends it, and at each records the addresses of its
four voices; TRACE sets a context's ring, or flushes and ends it; COUNTERS copies a context's totals, the slots' counts folded in; REPLAY
of mode 1 begins a capture, of mode 2 a rerun, once the captured buffers are copied back, and of mode 0 ends either, whereupon changes of
the event vector that waited for the log are made; a rerun whose next item has waited 100 microseconds ends. The operands' reserved
bits, which with any other value not listed end the packet with status 1, are assumption 55, and the bits of TRACE's mask assumption
67. -/
def Obligations.SamplesTracesCountersAndReplay : Prop :=
  (∀ (s : State) (ctx idx : Nat) (bs : List Byte),
    (DebugIs s ctx idx 8 bs → onThisCore s (debugBody bs) = true →
      ((debugBody bs).operand = 0 → exec (.sample ctx idx) s = .next (finishPacket (setSlot s (debugBody bs).slot
        { getSlot s (debugBody bs).slot with samplePeriod := 0 }) ctx bs 0)) ∧
      (8 ≤ (debugBody bs).operand → (debugBody bs).operand ≤ 20 →
        exec (.sample ctx idx) s = .next (finishPacket (setSlot s (debugBody bs).slot
          { getSlot s (debugBody bs).slot with samplePeriod := mod64 (2 ^ (debugBody bs).operand) }) ctx bs 0)) ∧
      ((debugBody bs).operand ≠ 0 → (debugBody bs).operand < 8 ∨ 20 < (debugBody bs).operand →
        exec (.sample ctx idx) s = .next (finishPacket s ctx bs 1))) ∧
    (DebugIs s ctx idx 9 bs →
      ((debugBody bs).operand = 0 → ∃ t, exec (.trace ctx idx) s = .next t ∧ (getCtx t (debugBody bs).target).trace = none ∧
        t.core = s.core) ∧
      ((debugBody bs).operand ≠ 0 → bits (debugBody bs).operand 0 48 % 0x10000 = 0 → bits (debugBody bs).operand 48 8 ≠ 0 →
        bits (debugBody bs).operand 62 2 = 0 →
        ∃ t x, exec (.trace ctx idx) s = .next t ∧ (getCtx t (debugBody bs).target).trace = some x ∧
          x.base = bits (debugBody bs).operand 0 48 ∧ x.units = bits (debugBody bs).operand 48 8 ∧
          x.mask = bits (debugBody bs).operand 56 6 ∧ x.frame = [] ∧ x.written = 0 ∧ x.arrived = []) ∧
      ((debugBody bs).operand ≠ 0 → bits (debugBody bs).operand 0 48 % 0x10000 ≠ 0 ∨ bits (debugBody bs).operand 48 8 = 0 ∨
        bits (debugBody bs).operand 62 2 ≠ 0 → exec (.trace ctx idx) s = .next (finishPacket s ctx bs 1))) ∧
    (DebugIs s ctx idx 10 bs → ∃ x, x = hostWrite (foldAll s (debugBody bs).target) (debugBody bs).addr ((List.range 8).flatMap (fun i =>
        leBytes 8 (sget (getCtx (foldAll s (debugBody bs).target) (debugBody bs).target).totals i).toNat)) ∧
      (∀ t, x = some t → exec (.counters ctx idx) s = .next (finishPacket t ctx bs 0)) ∧
      (x = none → exec (.counters ctx idx) s = .next (finishPacket (foldAll s (debugBody bs).target) ctx bs 1))) ∧
    (DebugIs s ctx idx 11 bs →
      (ReplayListed (debugBody bs).operand = false → exec (.replay ctx idx) s = .next (finishPacket s ctx bs 1)) ∧
      (ReplayListed (debugBody bs).operand = true → (debugBody bs).operand % 256 ≠ 2 →
        ∃ t, exec (.replay ctx idx) s = .next t ∧
          (getCtx t (debugBody bs).target).replay =
            ⟨(debugBody bs).operand % 256, bits (debugBody bs).operand 8 40 * 256, (debugBody bs).addr, 0, none⟩ ∧
          (getCtx t (debugBody bs).target).waitingEvents = [] ∧
          ((getCtx s (debugBody bs).target).waitingEvents = [] →
            (getCtx t (debugBody bs).target).events = (getCtx s (debugBody bs).target).events) ∧
          t.core = s.core ∧ t.cluster = s.cluster) ∧
      (ReplayListed (debugBody bs).operand = true → (debugBody bs).operand % 256 = 2 →
        ∃ u x, u = setReplay s (debugBody bs).target
            ⟨2, bits (debugBody bs).operand 8 40 * 256, (debugBody bs).addr, 0, none⟩ ∧
          x = copyBuffers u (debugBody bs).target false (logBound u (debugBody bs).target) 0 ∧
          exec (.replay ctx idx) s = .next (finishPacket (setReplay x.1 (debugBody bs).target
            ⟨2, bits (debugBody bs).operand 8 40 * 256, (debugBody bs).addr, x.2, some s.now⟩) ctx bs 0)))) ∧
  (∀ (s : State) (k : Nat),
    (sampleDue s k = false → Idle (.sampleEmit k) s) ∧
    (sampleDue s k = true → exec (.sampleEmit k) s = .next (traceThread
      (setSlot s k { getSlot s k with sampledAt := s.now + 1 }) k 1
      [(getSlot s k).scyc.toNat, (getArch s k .A).na0.addr.toNat, (getArch s k .X0).na0.addr.toNat, (getArch s k .X1).na0.addr.toNat,
        (getArch s k .C).na0.addr.toNat]))) ∧
  (∀ (s : State) (c : Nat),
    (rerunOver s c = false → Idle (.replayTimeout c) s) ∧
    (rerunOver s c = true → ∃ t, exec (.replayTimeout c) s = .next t ∧ (getCtx t c).replay.mode = 0))

/-! ### Power, identity and the host -/

namespace Sys2Proof.Claim

/-- The image that a boot finds: the flash and the signed configuration record, the one supplied last. -/
abbrev bootImage (s : State) (flash : List Byte) : List Byte :=
  flash ++ Config.signedRecord (recordBytes (s.pkg.nextConfig.getD s.pkg.config))

/-- What a boot of an image leaves: one that succeeds makes the package active; one that fails stops it at a step from 1 to 6. The
configuration record is applied once step 5 has passed, the identity key derived once step 3 has. -/
structure Booted (s : State) (image : List Byte) (p : Package) : Prop where
  active : Config.bootStep image = 0 → p.power = .active ∧ failingStep image = 7
  failed : Config.bootStep image ≠ 0 →
    ∃ reason, p.power = .bootFailed (failingStep image) reason ∧ 1 ≤ failingStep image ∧ failingStep image ≤ 6
  applied : 5 < failingStep image → p.config = s.pkg.nextConfig.getD s.pkg.config ∧ p.nextConfig = none
  kept : failingStep image ≤ 5 → p.config = s.pkg.config ∧ p.nextConfig = s.pkg.nextConfig
  key : 3 < failingStep image → p.identityKey.bytes = Config.deriveKey Config.pufResponse

/-- The limits of a descriptor's fields (R7). -/
abbrev LimitsOk (d : ContextDesc) : Prop :=
  d.number < 4096 ∧ d.asid < 2 ^ 16 ∧ (∀ x ∈ d.scopes, x.1 < 32) ∧ d.root < 2 ^ 43 ∧
    ∀ x ∈ d.pubmap, x.2.2.2.1 < 2 ^ 43 ∧ x.2.2.2.2.1 < 2 ^ 43

/-- The SPDM requests with the version and code of their responses, and what their replies begin with (R253). -/
inductive Answered (s : State) (msg : List Byte) : Instr → Nat → Nat → List Byte → Prop where
  | version : Answered s msg (.getVersion msg) 0x10 0x04 [0, 0, 0, 1, 0, 0x13]
  | capabilities : Answered s msg (.getCapabilities msg) 0x13 0x61 []
  | algorithms : Answered s msg (.negotiateAlgorithms msg) 0x13 0x63
      ([0, 0, 36, 0] ++ leBytes 1 (fieldAt msg 6 1 % 2) ++ [0] ++ leBytes 4 8 ++ leBytes 4 (if bit (fieldAt msg 8 4) 8 then 0x100 else 0) ++
        leBytes 4 (if bit (fieldAt msg 12 4) 2 then 4 else 0) ++ List.replicate 16 0)
  | digests : Answered s msg (.getDigests msg) 0x13 0x01 ([0x01, 0x01] ++ Config.sha512 certificates)
  | certificate : Answered s msg (.getCertificate msg) 0x13 0x02 [0, 0]
  | challenge : Answered s msg (.challenge msg) 0x13 0x03 []
  | measurements : Answered s msg (.getMeasurements msg) 0x13 0x60 (measurements s)
  | other : Answered s msg (.unsupportedRequest msg) 0x13 0x7F [0x07]

end Sys2Proof.Claim

/-- R2, R251, R252, R254, R255: POWER_ON boots a package that is off from its flash, with the configuration record supplied last, and the
cycle counter starts at zero; POWER_OFF leaves nothing but the flash, the configuration and host memory; REBOOT boots a new image after a
boot that failed. PACKAGE-IDLE needs a gated cluster, and the power limit a multiple of 25 W up to 2,800; another limit changes nothing
(assumption 63), but its write ends PACKAGE-IDLE. Whether and where a boot fails is a free value (assumption 60); that a step which
fails leaves nothing of itself is assumption 119. -/
def Obligations.PowerIsSwitchedAndLimited : Prop :=
  ∀ (s : State),
    (s.pkg.power = .off → ∃ t, exec .powerOn s = .next t ∧ Booted s (bootImage s s.pkg.flash) t.pkg ∧ t.pkg.contexts = [] ∧
      (∀ k, (getSlot t k).run = .empty) ∧ t.pkg.flash = s.pkg.flash ∧ t.now = 0) ∧
    (s.pkg.power ≠ .off → Idle .powerOn s) ∧
    (∀ step reason image, s.pkg.power = .bootFailed step reason →
      ∃ t, exec (.reboot image) s = .next t ∧ t.pkg.flash = image ∧ Booted s (bootImage s image) t.pkg ∧ t.now = 0) ∧
    (∃ t, exec .powerOff s = .next t ∧ t.pkg.power = .off ∧ t.pkg.contexts = [] ∧ t.core = Core.fresh s.core.index ∧
      t.pkg.flash = s.pkg.flash ∧ t.pkg.config = s.pkg.config ∧
      (memWf s.pkg.mem = true → (∀ a, hostBase ≤ a → a < spkBase → sget t.pkg.mem a = sget s.pkg.mem a) ∧
        ∀ a, a < hostBase → sget t.pkg.mem a = 0)) ∧
    (s.pkg.power = .active → clusterGated s = true →
      exec .packageIdleRequest s = .next { s with pkg := { s.pkg with power := .idle } }) ∧
    (clusterGated s = false → Idle .packageIdleRequest s) ∧
    (∀ w, powered s = true → w % 25 = 0 → w ≤ 2800 →
      ∃ t, exec (.powerLimit w) s = .next t ∧ t.pkg.powerLimit = w ∧ t.pkg.power = .active ∧ t.core = s.core) ∧
    (∀ w, powered s = false ∨ w % 25 ≠ 0 ∨ 2800 < w → exec (.powerLimit w) s = .next (wake s))

/-- R245, R250, R252, R253, R255: a write to a BAR0 register is kept, but not one of the boot status or of the capability mirror
(assumption 65); any write ends PACKAGE-IDLE. A release of
the modelled core, fenced, leaves it at its reset state, or fenced where a line cannot be written back; of another core, only the
register shows it. Every SPDM request is answered with its response code, and any other with UnsupportedRequest; of what is asked for,
P-521 and SHA-512 alone are selected; codes and layouts are presumed (assumption 61).
R187, R213, R246: the host creates a context under a number not in use: it has the page table, level, handler, windows and rings of its
descriptor and no event set; a cluster of its set that is free is assigned to it, its scratchpad and array cleared. A ring beyond
the bus addresses the device reaches is a fault of the model (assumption 51, as is which cluster is free). -/
def Obligations.RegistersReleasesIdentityAndContexts : Prop :=
  (∀ (s : State),
     (∀ off x, attached s = true → off < 0x2000000 → off % 8 = 0 → off ≠ 8 → ¬(0x1000 ≤ off ∧ off < 0x2000) →
       mwf 0 s.pkg.bar0 = true →
       ∃ t, exec (.bar0RegisterWrite off x) s = .next t ∧ sget t.pkg.bar0 off = x ∧
         (∀ n, n ≠ off → sget t.pkg.bar0 n = sget s.pkg.bar0 n) ∧ t.pkg.mem = s.pkg.mem ∧ t.core = s.core) ∧
     (∀ off x, attached s = false ∨ off = 8 ∨ (0x1000 ≤ off ∧ off < 0x2000) →
       exec (.bar0RegisterWrite off x) s = .next (wake s)) ∧
     (powered s = true → s.core.fenced = true → s.core.index < 192 → releaseFails s.pkg = false →
       ∃ t, exec (.coreRelease s.core.index) s = .next t ∧ t.core.fenced = false ∧ t.core.spad = [] ∧ t.core.cmds = [] ∧
         (∀ k, (getSlot t k).run = .empty) ∧ t.pkg.coreRelease = mod64 (s.core.index + 2 ^ 63)) ∧
     (powered s = true → s.core.fenced = true → s.core.index < 192 → releaseFails s.pkg = true →
       ∃ t, exec (.coreRelease s.core.index) s = .next t ∧ t.core.fenced = true ∧
         t.pkg.coreRelease = mod64 (s.core.index + 2 ^ 62)) ∧
     (∀ c, powered s = true → c < 192 → c ≠ s.core.index ∨ s.core.fenced = false →
       ∃ t, exec (.coreRelease c) s = .next t ∧ t.core = s.core ∧ t.pkg.coreRelease = mod64 (c + 2 ^ 63)) ∧
     (∀ msg i ver code body, Answered s msg i ver code body → attached s = true →
       ∃ t rest, exec i s = .next t ∧ t.pkg.doe = BitVec.ofNat 8 ver :: BitVec.ofNat 8 code :: (body ++ rest) ∧ t.core = s.core ∧
         t.pkg.mem = s.pkg.mem)) ∧
  (∀ (s : State) (d : ContextDesc),
     (powered s = false ∨ ¬LimitsOk d ∨ ctxExists s d.number = true → exec (.contextCreation d) s = .next (wake s)) ∧
     (powered s = true → LimitsOk d → ctxExists s d.number = false →
       (ringFits d.sq 64 = true → ringFits d.cq 32 = true → ringFits d.fq 64 = true →
         ∃ t, exec (.contextCreation d) s = .next t ∧ ctxExists t d.number = true ∧
           (getCtx t d.number).root = d.root ∧ (getCtx t d.number).asid = d.asid ∧ (getCtx t d.number).smode = d.smode ∧
           (getCtx t d.number).handler = d.handler ∧ (getCtx t d.number).events = 0 ∧ (getCtx t d.number).credits = 64 ∧
           (d.clusters.getLsbD s.cluster.num = true → s.cluster.ctx = none ∨ s.cluster.switchedOut = true →
             t.cluster.ctx = some d.number ∧ t.cluster.queue = [] ∧ t.core.cells = [] ∧ t.core.ctl.knots = Knots.reset) ∧
           (d.clusters.getLsbD s.cluster.num = false → t.cluster = s.cluster ∧ t.core = s.core ∧ t.pkg.mem = s.pkg.mem)) ∧
       (ringFits d.sq 64 = false → exec (.contextCreation d) s = .fault (.hostAddress d.sq.1)) ∧
       (ringFits d.sq 64 = true → ringFits d.cq 32 = false → exec (.contextCreation d) s = .fault (.hostAddress d.cq.1)) ∧
       (ringFits d.sq 64 = true → ringFits d.cq 32 = true → ringFits d.fq 64 = false →
         exec (.contextCreation d) s = .fault (.hostAddress d.fq.1))))

/-! ### The fabric -/

namespace Sys2Proof.Claim

/-- The packet at a place of the router, of a type. -/
abbrev InRouter (s : State) (n typ : Nat) (p : Packet) : Prop := s.pkg.router[n]? = some p ∧ p.typ = typ

/-- An answer to a packet with these data. -/
abbrev answerOf (s : State) (p : Packet) (typ : Nat) (ok : Bool) : Packet :=
  { newPacket s typ p.job p.tag p.src with reqid := p.reqid, pa := p.pa, width := p.width, error := !ok }

/-- The events of the packet types at a place of the router (Table 19.1). -/
inductive RouterEvent (n : Nat) : Instr → Nat → Prop where
  | write : RouterEvent n (.remoteWrite n) 1
  | read : RouterEvent n (.readRequest n) 2
  | reply : RouterEvent n (.readReply n) 3
  | acknowledgement : RouterEvent n (.writeAcknowledgement n) 4
  | contribution : RouterEvent n (.contribution n) 5
  | result : RouterEvent n (.collectiveResult n) 6
  | arrival : RouterEvent n (.barrierArrival n) 7
  | release : RouterEvent n (.barrierRelease n) 8
  | cut : RouterEvent n (.cutMarker n) 9
  | resume : RouterEvent n (.resumeMarker n) 10
  | sweep : RouterEvent n (.sweepReport n) 11
  | purge : RouterEvent n (.purge n) 12

/-- The low half of the trailer holds the flit's CRC (R270); that the CRC is CRC-32C is presumed (assumption 70). -/
abbrev crcOk (flit : BitVec 512) (trailer : BitVec 64) : Prop := trailer.setWidth 32 = crc32c flit

/-- A contribution or an arrival that is lost: a contribution out of a poisoned buffer (assumption 59), or what tells the node that
gathers of one that was dropped on its way (assumption 47). -/
abbrev IsLost (p : Packet) (isBar : Bool) : Prop := p.bad = true ∧ isBar = false ∨ p.data.toNat / 2 ^ 32 % 2 ^ 4 = 2

end Sys2Proof.Claim

/-- R270, R271: a flit in sequence joins its packet, and a packet with a reserved type or field is dropped and counted; one whose CRC
fails is counted and asked for again, and the seventeenth failure in a row makes the link retrain (assumption 48); a link that trains is
up, and one that has retrained for a millisecond is down. A link that is down or retrains takes no flit, and a flit out of sequence is
dropped (assumption 71). The CRC is presumed to be CRC-32C (assumption 70). -/
def Obligations.FlitsArriveAndLinksRetrain : Prop :=
  ∀ (s : State) (l : Nat) (flit : BitVec 512) (trailer : BitVec 64),
    (l < 24 → (linkOf s.pkg l).up = true → (linkOf s.pkg l).retraining = none →
      (¬crcOk flit trailer →
        ∃ t, exec (.flitReceive l flit trailer) s = .next t ∧ (linkOf t.pkg l).failures = (linkOf s.pkg l).failures + 1 ∧
          (linkOf t.pkg l).rxSeq = (linkOf s.pkg l).rxSeq ∧
          (linkOf t.pkg l).retraining = (if 16 ≤ (linkOf s.pkg l).failures then some s.now else none) ∧
          t.pkg.router = s.pkg.router) ∧
      (crcOk flit trailer → trailer.toNat / 2 ^ 32 % 2 ^ 12 = (linkOf s.pkg l).rxSeq.toNat →
        ((linkOf s.pkg l).flits ++ [flit]).length ≤ headerFlits (((linkOf s.pkg l).flits ++ [flit]).headD 0) →
        ∃ t, exec (.flitReceive l flit trailer) s = .next t ∧ (linkOf t.pkg l).failures = 0 ∧
          (linkOf t.pkg l).rxSeq = (linkOf s.pkg l).rxSeq + 1 ∧ (linkOf t.pkg l).flits = (linkOf s.pkg l).flits ++ [flit] ∧
          t.pkg.router = s.pkg.router) ∧
      (crcOk flit trailer → trailer.toNat / 2 ^ 32 % 2 ^ 12 = (linkOf s.pkg l).rxSeq.toNat → (linkOf s.pkg l).flits = [] →
        headerFlits flit = 0 →
        (headerBad flit = false → 9 ≤ (parsePacket l flit []).typ → (parsePacket l flit []).typ < 12 →
          ∃ t, exec (.flitReceive l flit trailer) s = .next t ∧ t.pkg.router = s.pkg.router ++ [parsePacket l flit []]) ∧
        (headerBad flit = true →
          ∃ t, exec (.flitReceive l flit trailer) s = .next t ∧ t.pkg.router = s.pkg.router ∧
            t.pkg.fabricErrors = s.pkg.fabricErrors + 1)) ∧
      (crcOk flit trailer → trailer.toNat / 2 ^ 32 % 2 ^ 12 ≠ (linkOf s.pkg l).rxSeq.toNat → Idle (.flitReceive l flit trailer) s)) ∧
    (24 ≤ l ∨ (linkOf s.pkg l).up = false ∨ (linkOf s.pkg l).retraining.isSome = true → Idle (.flitReceive l flit trailer) s) ∧
    (l < 24 → ∃ t, exec (.linkTrained l) s = .next t ∧ (linkOf t.pkg l).up = true ∧ (linkOf t.pkg l).retraining = none ∧
      (linkOf t.pkg l).failures = 0 ∧ (linkOf t.pkg l).replays = 0) ∧
    (retrainOver s (linkOf s.pkg l) = false → Idle (.linkRetrainTimeout l) s) ∧
    (retrainOver s (linkOf s.pkg l) = true → s.pkg.jobs = [] →
      ∃ t, exec (.linkRetrainTimeout l) s = .next t ∧ (linkOf t.pkg l).up = false)

/-- R275, R276: the router performs a remote write or read that a window of the job permits and answers it; one that is not permitted
changes no memory and is answered as an error. An answer ends its request: a reply fills the landing slot that waits for it, an
acknowledgement completes the write; after 100 microseconds without one the request ends as an error. A packet out of a poisoned buffer
poisons what it brings (assumption 59). An event without its packet changes nothing. -/
def Obligations.RemoteAccessesArePerformedAndAnswered : Prop :=
  (∀ (s : State) (n : Nat) (p : Packet), memWf s.pkg.mem = true →
    (InRouter s n 1 p →
      (remoteOk s p true = true →
        ∃ u, exec (.remoteWrite n) s = .next (answer u p (answerOf s p 4 true)) ∧
          readMem u p.pa (netWidth p.width) = leBytes (netWidth p.width) p.data.toNat ∧
          (∀ a, a < p.pa ∨ p.pa + netWidth p.width ≤ a → sget u.pkg.mem a = sget s.pkg.mem a) ∧ u.core = s.core ∧
          u.cluster = s.cluster ∧ u.pkg.router = dropIndex s.pkg.router n) ∧
      (remoteOk s p true = false → exec (.remoteWrite n) s = .next (answer (takeOut s n) p (answerOf s p 4 false)))) ∧
    (InRouter s n 2 p →
      (remoteOk s p false = true → ∀ x, x = leNat (readMem s p.pa (netWidth p.width)) →
        exec (.readRequest n) s = .next (answer (takeOut s n) p { answerOf s p 3 true with
          data := if p.width = 4 then 0 else mod64 x, flits := if p.width = 4 then 2 else 0
          payload := if p.width = 4 then [BitVec.ofNat 512 x, BitVec.ofNat 512 (x / 2 ^ 512)] else [] })) ∧
      (remoteOk s p false = false →
        exec (.readRequest n) s = .next (answer (takeOut s n) p { answerOf s p 3 false with
          flits := if p.width = 4 then 2 else 0, payload := if p.width = 4 then [0, 0] else [] }))) ∧
    (∀ id, InRouter s n 3 p → answered s p = some id → savedWaits s id = false →
      ∃ t, exec (.readReply n) s = .next t ∧ (∀ r ∈ t.pkg.remotes, r.1 ≠ id) ∧
        ∀ k y, findFirst (fun (y : Xfer) => decide (y.id = id)) (getSlot s k).xfers = some y →
          (getSlot t k).arrived = mput (getSlot s k).arrived id
            ⟨if p.width = 4 then flitsRow p.payload else row64 p.data, if p.bad then some p.pa else none,
              if p.error then some 0x09 else none⟩) ∧
    (∀ id, InRouter s n 3 p → answered s p = some id → savedWaits s id = true → Idle (.readReply n) s) ∧
    (InRouter s n 3 p → answered s p = none → exec (.readReply n) s = .next (takeOut s n)) ∧
    (∀ id, InRouter s n 4 p → answered s p = some id →
      exec (.writeAcknowledgement n) s = .next (finishNwr (forgetRequest (takeOut s n) id) id p.error) ∧
        ∃ t, exec (.writeAcknowledgement n) s = .next t ∧
          ∀ w ∈ s.core.nwrs, w.id = id → { w with finished := true, failed := p.error } ∈ t.core.nwrs)) ∧
  (∀ (s : State) (req : Nat) (r : Nat × Nat × Nat), findFirst (fun r => decide (r.1 = req)) s.pkg.remotes = some r →
    (remoteOver s r = false → Idle (.remoteTimeout req) s) ∧
    (remoteOver s r = true →
      ∃ t, exec (.remoteTimeout req) s = .next t ∧
        t = finishNwr (fillSlot req 0 none (some 0x09) (fillSlot req 0 none (some 0x09) (forgetRequest s req) 0) 1) req true ∧
        (∀ w ∈ s.core.nwrs, w.id = req → { w with finished := true, failed := true } ∈ t.core.nwrs) ∧
        ∀ k y, findFirst (fun (y : Xfer) => decide (y.id = req)) (getSlot s k).xfers = some y →
          (getSlot t k).arrived = mput (getSlot s k).arrived req ⟨0, none, some 0x09⟩)) ∧
  (∀ (s : State) (n typ : Nat) (i : Instr), RouterEvent n i typ → (∀ p, ¬InRouter s n typ p) → Idle i s)

/-- R278 to R283: a contribution or an arrival of a member is counted once at the node that gathers, and completes its instance when every
member's is in, with the combined value; a result reaches the word that waits. A member that fails leaves its group, whose incomplete
collectives go on over the survivors with status SHRUNK, which a contribution sent after the change carries on; an instance that has lost a
contribution completes with status FABRIC; one that a switch-in found incomplete completes only when its losses are known (R285). A purge
not met before drops what bears its tag. Where contributions gather is the model's choice (assumption 72), the status in bits 35:32 and
the count in bits 55:36 of the data assumption 47, a purge known by its source and number assumptions 47 and 66. -/
def Obligations.CollectivesGatherCompleteAndShrink : Prop :=
  (∀ (s : State) (n jk : Nat) (p : Packet) (j : Job) (isBar : Bool) (typ : Nat) (i : Instr),
    (i, typ, isBar) = (.contribution n, 5, false) ∨ (i, typ, isBar) = (.barrierArrival n, 7, true) → InRouter s n typ p →
    (findJob s.pkg p.job = none → exec i s = .next (takeOut s n)) ∧
    (findJob s.pkg p.job = some (jk, j) →
      ((groupOf j p.group).valid = false ∨ p.src ∉ (groupOf j p.group).members → exec i s = .next (takeOut s n)) ∧
      ((groupOf j p.group).valid = true → p.src ∈ (groupOf j p.group).members → IsLost p isBar →
        exec i s = .next (failInstance (takeOut s n) jk p.group isBar p.inst)) ∧
      ((groupOf j p.group).valid = true → p.src ∈ (groupOf j p.group).members → ¬IsLost p isBar →
        gatherNode (groupOf j p.group) s.pkg.node ≠ s.pkg.node →
        exec i s = .next (inject (takeOut s n) jk { p with dst := gatherNode (groupOf j p.group) s.pkg.node })) ∧
      (∀ x y, (groupOf j p.group).valid = true → p.src ∈ (groupOf j p.group).members → ¬IsLost p isBar →
        gatherNode (groupOf j p.group) s.pkg.node = s.pkg.node → mfind s.pkg.jobs jk = some j →
        findFirst (fun y => sameInstance y p.group isBar p.inst) j.instances = some x → x.complete = false →
        j.instances.filter (fun y => sameInstance y p.group isBar p.inst) = [x] →
        y = { addContribution x p.src p.mean (p.data.setWidth 32) with status := max x.status (p.data.toNat / 2 ^ 32 % 2 ^ 4) } →
        (allIn (groupOf j p.group).members y = false ∨ (p.group, isBar, p.inst) ∈ j.atStart →
          exec i s = .next (setJob (takeOut s n) jk { j with instances := j.instances.map (fun z =>
            if sameInstance z p.group isBar p.inst then y else z) })) ∧
        (allIn (groupOf j p.group).members y = true → (p.group, isBar, p.inst) ∉ j.atStart →
          ∃ t u, exec i s = .next t ∧ mfind t.pkg.jobs jk = some u ∧
            { y with
              complete := true, count := (groupOf j p.group).members.length
              result := if isBar then 0 else combine (groupOf j p.group).members p.mean y.contribs } ∈ u.instances)))) ∧
  (∀ (s : State) (n jk : Nat) (p : Packet) (j : Job) (isBar : Bool) (typ : Nat) (i : Instr) (x : Instance),
    (i, typ, isBar) = (.collectiveResult n, 6, false) ∨ (i, typ, isBar) = (.barrierRelease n, 8, true) → InRouter s n typ p →
    findJob s.pkg p.job = some (jk, j) → findFirst (fun y => sameInstance y p.group isBar p.inst) j.instances = some x →
    x.complete = false →
    ∃ t u, exec i s = .next t ∧ mfind t.pkg.jobs jk = some u ∧
      findFirst (fun y => sameInstance y p.group isBar p.inst) u.instances = some { x with
        complete := true, status := p.data.toNat / 2 ^ 32 % 2 ^ 4, count := p.data.toNat / 2 ^ 36 % 2 ^ 20
        result := p.data.setWidth 32, bad := p.bad && !isBar }) ∧
  (∀ (s : State) (job grp node jk : Nat) (j : Job), findJob s.pkg job = some (jk, j) → mfind s.pkg.jobs jk = some j →
    (node ∉ (groupOf j grp).members → Idle (.memberFailure job grp node) s) ∧
    (node ∈ (groupOf j grp).members →
      ∃ t u, exec (.memberFailure job grp node) s = .next t ∧ mfind t.pkg.jobs jk = some u ∧
        (groupOf u grp).members = (groupOf j grp).members.filter (fun m => decide (m ≠ node)) ∧
        (groupOf u grp).epoch = (groupOf j grp).epoch + 1 ∧
        ∀ x ∈ j.instances, x.group = grp → x.complete = false →
          ∃ y ∈ u.instances, y.group = grp ∧ y.isBar = x.isBar ∧ y.num = x.num ∧ y.status = 1)) ∧
  (∀ (s : State) (n : Nat) (p : Packet), InRouter s n 12 p →
    (s.pkg.purges.contains (p.src, p.reqid) = true → exec (.purge n) s = .next (takeOut s n)) ∧
    (∀ jk c j, s.pkg.purges.contains (p.src, p.reqid) = false → findJob s.pkg p.job = some (jk, j) → j.ctx = some c →
      ∃ t, exec (.purge n) s = .next t ∧ (∀ q ∈ t.cluster.queue, ¬(q.ctx = c ∧ q.tag = p.tag)) ∧
        (∀ k, (getSlot t k).run ≠ .empty → ¬((getSlot t k).thread.ctx = c ∧ (getSlot t k).thread.tag = p.tag)) ∧
        (p.src, p.reqid) ∈ t.pkg.purges))

/-- R284, R285: the first cut marker of a wave cuts its job here: its packets leave the router for the save area and markers go out on
every link that is up; the first resume marker resumes it. A later marker is counted, and a sweep report of a child ends its turn and
adds its count and what was lost behind it; a report from the router before it says what was lost in the whole job. The fields of markers
and reports are assumption 44, and the report of group 2 assumption 45. -/
def Obligations.MarkersCutAndResumeJobs : Prop :=
  ∀ (s : State) (n jk : Nat) (p : Packet) (j : Job), findJob s.pkg p.job = some (jk, j) →
    (InRouter s n 9 p →
      (j.switchedOut = true → exec (.cutMarker n) s = .next (takeOut s n)) ∧
      (j.switchedOut = false → j.switching = true → j.incoming = false →
        exec (.cutMarker n) s = .next (markWave (takeOut s n) jk p)) ∧
      (j.switchedOut = false → j.switching = false ∨ j.incoming = true →
        exec (.cutMarker n) s = .next (markWave (cutJob (takeOut s n) jk j (some p.port) none) jk p) ∧
        ∀ q ∈ (cutJob (takeOut s n) jk j (some p.port) none).pkg.router, ¬(q.job = j.id ∧ (q.typ < 9 ∨ q.typ = 12)))) ∧
    (InRouter s n 10 p →
      (j.switchedOut = true →
        exec (.resumeMarker n) s = .next (markWave (resumeJob (takeOut s n) jk j (some p.port) none) jk p)) ∧
      (j.switchedOut = false → j.switching = true → j.incoming = true →
        exec (.resumeMarker n) s = .next (markWave (takeOut s n) jk p)) ∧
      (j.switchedOut = false → j.switching = false ∨ j.incoming = false → exec (.resumeMarker n) s = .next (takeOut s n))) ∧
    (InRouter s n 11 p → p.group ≠ 2 → j.switching = false →
      exec (.sweepReport n) s = .next (setJob (takeOut s n) jk { j with
        children := j.children.filter (fun c => decide (c ≠ p.port)), count := j.count + p.data.toNat % 2 ^ 32
        lostWord := mergeFault j.lostWord ((p.payload.headD 0).setWidth 64) })) ∧
    (InRouter s n 11 p → p.group = 2 →
      exec (.sweepReport n) s = .next (tellLost (takeOut s n) jk { j with lostWord := (p.payload.headD 0).setWidth 64 }))
end

