-- ==== Sys2Proof/Laws/State.lean ====
section
/-! SUPPORT. What the updates of the state leave alone: one lemma for each field and each update, and what an update of a slot
or of a voice gives back when it is read. -/

namespace Sys2Proof.Machine

@[simp] theorem setSlot_cluster (s : State) (k : Nat) (x : Slot) : (setSlot s k x).cluster = s.cluster := by unfold setSlot; split <;> rfl

@[simp] theorem setSlot_pkg (s : State) (k : Nat) (x : Slot) : (setSlot s k x).pkg = s.pkg := by unfold setSlot; split <;> rfl

@[simp] theorem setSlot_inbox (s : State) (k : Nat) (x : Slot) : (setSlot s k x).inbox = s.inbox := by unfold setSlot; split <;> rfl

@[simp] theorem setSlot_turn (s : State) (k : Nat) (x : Slot) : (setSlot s k x).turn = s.turn := by unfold setSlot; split <;> rfl

@[simp] theorem setSlot_pastEdge (s : State) (k : Nat) (x : Slot) : (setSlot s k x).pastEdge = s.pastEdge := by unfold setSlot; split <;> rfl

@[simp] theorem setSlot_syncNow (s : State) (k : Nat) (x : Slot) : (setSlot s k x).syncNow = s.syncNow := by unfold setSlot; split <;> rfl

@[simp] theorem setSlot_sgo (s : State) (k : Nat) (x : Slot) : (setSlot s k x).sgo = s.sgo := by unfold setSlot; split <;> rfl

@[simp] theorem setSlot_otherGo (s : State) (k : Nat) (x : Slot) : (setSlot s k x).otherGo = s.otherGo := by unfold setSlot; split <;> rfl

@[simp] theorem setSlot_now (s : State) (k : Nat) (x : Slot) : (setSlot s k x).now = s.now := by unfold setSlot; split <;> rfl

@[simp] theorem setSlot_served (s : State) (k : Nat) (x : Slot) : (setSlot s k x).served = s.served := by unfold setSlot; split <;> rfl

@[simp] theorem setSlot_granted (s : State) (k : Nat) (x : Slot) : (setSlot s k x).granted = s.granted := by unfold setSlot; split <;> rfl

@[simp] theorem setSlot_banksUsed (s : State) (k : Nat) (x : Slot) : (setSlot s k x).banksUsed = s.banksUsed := by unfold setSlot; split <;> rfl

@[simp] theorem setSlot_pace (s : State) (k : Nat) (x : Slot) : (setSlot s k x).pace = s.pace := by unfold setSlot; split <;> rfl

@[simp] theorem setSlot_fresh (s : State) (k : Nat) (x : Slot) : (setSlot s k x).fresh = s.fresh := by unfold setSlot; split <;> rfl

@[simp] theorem setSlot_core_index (s : State) (k : Nat) (x : Slot) : (setSlot s k x).core.index = s.core.index := by unfold setSlot; split <;> rfl

@[simp] theorem setSlot_core_act (s : State) (k : Nat) (x : Slot) : (setSlot s k x).core.act = s.core.act := by unfold setSlot; split <;> rfl

@[simp] theorem setSlot_core_deadTill (s : State) (k : Nat) (x : Slot) : (setSlot s k x).core.deadTill = s.core.deadTill := by unfold setSlot; split <;> rfl

@[simp] theorem setSlot_core_ctl (s : State) (k : Nat) (x : Slot) : (setSlot s k x).core.ctl = s.core.ctl := by unfold setSlot; split <;> rfl

@[simp] theorem setSlot_core_sctl (s : State) (k : Nat) (x : Slot) : (setSlot s k x).core.sctl = s.core.sctl := by unfold setSlot; split <;> rfl

@[simp] theorem setSlot_core_journal (s : State) (k : Nat) (x : Slot) : (setSlot s k x).core.journal = s.core.journal := by unfold setSlot; split <;> rfl

@[simp] theorem setSlot_core_clauses (s : State) (k : Nat) (x : Slot) : (setSlot s k x).core.clauses = s.core.clauses := by unfold setSlot; split <;> rfl

@[simp] theorem setSlot_core_held (s : State) (k : Nat) (x : Slot) : (setSlot s k x).core.held = s.core.held := by unfold setSlot; split <;> rfl

@[simp] theorem setSlot_core_out (s : State) (k : Nat) (x : Slot) : (setSlot s k x).core.out = s.core.out := by unfold setSlot; split <;> rfl

@[simp] theorem setSlot_core_spad (s : State) (k : Nat) (x : Slot) : (setSlot s k x).core.spad = s.core.spad := by unfold setSlot; split <;> rfl

@[simp] theorem setSlot_core_poison (s : State) (k : Nat) (x : Slot) : (setSlot s k x).core.poison = s.core.poison := by unfold setSlot; split <;> rfl

@[simp] theorem setSlot_core_badRows (s : State) (k : Nat) (x : Slot) : (setSlot s k x).core.badRows = s.core.badRows := by unfold setSlot; split <;> rfl

@[simp] theorem setSlot_core_cells (s : State) (k : Nat) (x : Slot) : (setSlot s k x).core.cells = s.core.cells := by unfold setSlot; split <;> rfl

@[simp] theorem setSlot_core_headers (s : State) (k : Nat) (x : Slot) : (setSlot s k x).core.headers = s.core.headers := by unfold setSlot; split <;> rfl

@[simp] theorem setSlot_core_grads (s : State) (k : Nat) (x : Slot) : (setSlot s k x).core.grads = s.core.grads := by unfold setSlot; split <;> rfl

@[simp] theorem setSlot_core_tiles (s : State) (k : Nat) (x : Slot) : (setSlot s k x).core.tiles = s.core.tiles := by unfold setSlot; split <;> rfl

@[simp] theorem setSlot_core_affine (s : State) (k : Nat) (x : Slot) : (setSlot s k x).core.affine = s.core.affine := by unfold setSlot; split <;> rfl

@[simp] theorem setSlot_core_cmds (s : State) (k : Nat) (x : Slot) : (setSlot s k x).core.cmds = s.core.cmds := by unfold setSlot; split <;> rfl

@[simp] theorem setSlot_core_nextId (s : State) (k : Nat) (x : Slot) : (setSlot s k x).core.nextId = s.core.nextId := by unfold setSlot; split <;> rfl

@[simp] theorem setSlot_core_rollAt (s : State) (k : Nat) (x : Slot) : (setSlot s k x).core.rollAt = s.core.rollAt := by unfold setSlot; split <;> rfl

@[simp] theorem setSlot_core_sealedExec (s : State) (k : Nat) (x : Slot) : (setSlot s k x).core.sealedExec = s.core.sealedExec := by unfold setSlot; split <;> rfl

@[simp] theorem setSlot_core_pastRuns (s : State) (k : Nat) (x : Slot) : (setSlot s k x).core.pastRuns = s.core.pastRuns := by unfold setSlot; split <;> rfl

@[simp] theorem setSlot_core_oldFences (s : State) (k : Nat) (x : Slot) : (setSlot s k x).core.oldFences = s.core.oldFences := by unfold setSlot; split <;> rfl

@[simp] theorem setSlot_core_placed (s : State) (k : Nat) (x : Slot) : (setSlot s k x).core.placed = s.core.placed := by unfold setSlot; split <;> rfl

@[simp] theorem setSlot_core_fenced (s : State) (k : Nat) (x : Slot) : (setSlot s k x).core.fenced = s.core.fenced := by unfold setSlot; split <;> rfl

@[simp] theorem setSlot_core_undoUsed (s : State) (k : Nat) (x : Slot) : (setSlot s k x).core.undoUsed = s.core.undoUsed := by unfold setSlot; split <;> rfl

@[simp] theorem setSlot_core_dtlb (s : State) (k : Nat) (x : Slot) : (setSlot s k x).core.dtlb = s.core.dtlb := by unfold setSlot; split <;> rfl

@[simp] theorem setSlot_core_itlbA (s : State) (k : Nat) (x : Slot) : (setSlot s k x).core.itlbA = s.core.itlbA := by unfold setSlot; split <;> rfl

@[simp] theorem setSlot_core_itlbX0 (s : State) (k : Nat) (x : Slot) : (setSlot s k x).core.itlbX0 = s.core.itlbX0 := by unfold setSlot; split <;> rfl

@[simp] theorem setSlot_core_itlbX1 (s : State) (k : Nat) (x : Slot) : (setSlot s k x).core.itlbX1 = s.core.itlbX1 := by unfold setSlot; split <;> rfl

@[simp] theorem setSlot_core_itlbC (s : State) (k : Nat) (x : Slot) : (setSlot s k x).core.itlbC = s.core.itlbC := by unfold setSlot; split <;> rfl

@[simp] theorem setSlot_core_freeze (s : State) (k : Nat) (x : Slot) : (setSlot s k x).core.freeze = s.core.freeze := by unfold setSlot; split <;> rfl

@[simp] theorem setSlot_core_bankMatrix (s : State) (k : Nat) (x : Slot) : (setSlot s k x).core.bankMatrix = s.core.bankMatrix := by unfold setSlot; split <;> rfl

@[simp] theorem setSlot_core_bankSnap (s : State) (k : Nat) (x : Slot) : (setSlot s k x).core.bankSnap = s.core.bankSnap := by unfold setSlot; split <;> rfl

@[simp] theorem setSlot_core_streamTurns (s : State) (k : Nat) (x : Slot) : (setSlot s k x).core.streamTurns = s.core.streamTurns := by unfold setSlot; split <;> rfl

@[simp] theorem setSlot_core_streamWait (s : State) (k : Nat) (x : Slot) : (setSlot s k x).core.streamWait = s.core.streamWait := by unfold setSlot; split <;> rfl

@[simp] theorem setSlot_core_streamLast (s : State) (k : Nat) (x : Slot) : (setSlot s k x).core.streamLast = s.core.streamLast := by unfold setSlot; split <;> rfl

@[simp] theorem setSlot_core_nwrs (s : State) (k : Nat) (x : Slot) : (setSlot s k x).core.nwrs = s.core.nwrs := by unfold setSlot; split <;> rfl

@[simp] theorem setSlot_core_consumed (s : State) (k : Nat) (x : Slot) : (setSlot s k x).core.consumed = s.core.consumed := by unfold setSlot; split <;> rfl

@[simp] theorem setSlot_core_counted (s : State) (k : Nat) (x : Slot) : (setSlot s k x).core.counted = s.core.counted := by unfold setSlot; split <;> rfl

@[simp] theorem setVoice_cluster (s : State) (k : Nat) (v : VoiceId) (x : Voice) : (setVoice s k v x).cluster = s.cluster := by simp [setVoice]

@[simp] theorem setVoice_pkg (s : State) (k : Nat) (v : VoiceId) (x : Voice) : (setVoice s k v x).pkg = s.pkg := by simp [setVoice]

@[simp] theorem setVoice_inbox (s : State) (k : Nat) (v : VoiceId) (x : Voice) : (setVoice s k v x).inbox = s.inbox := by simp [setVoice]

@[simp] theorem setVoice_turn (s : State) (k : Nat) (v : VoiceId) (x : Voice) : (setVoice s k v x).turn = s.turn := by simp [setVoice]

@[simp] theorem setVoice_pastEdge (s : State) (k : Nat) (v : VoiceId) (x : Voice) : (setVoice s k v x).pastEdge = s.pastEdge := by simp [setVoice]

@[simp] theorem setVoice_syncNow (s : State) (k : Nat) (v : VoiceId) (x : Voice) : (setVoice s k v x).syncNow = s.syncNow := by simp [setVoice]

@[simp] theorem setVoice_sgo (s : State) (k : Nat) (v : VoiceId) (x : Voice) : (setVoice s k v x).sgo = s.sgo := by simp [setVoice]

@[simp] theorem setVoice_otherGo (s : State) (k : Nat) (v : VoiceId) (x : Voice) : (setVoice s k v x).otherGo = s.otherGo := by simp [setVoice]

@[simp] theorem setVoice_now (s : State) (k : Nat) (v : VoiceId) (x : Voice) : (setVoice s k v x).now = s.now := by simp [setVoice]

@[simp] theorem setVoice_served (s : State) (k : Nat) (v : VoiceId) (x : Voice) : (setVoice s k v x).served = s.served := by simp [setVoice]

@[simp] theorem setVoice_granted (s : State) (k : Nat) (v : VoiceId) (x : Voice) : (setVoice s k v x).granted = s.granted := by simp [setVoice]

@[simp] theorem setVoice_banksUsed (s : State) (k : Nat) (v : VoiceId) (x : Voice) : (setVoice s k v x).banksUsed = s.banksUsed := by simp [setVoice]

@[simp] theorem setVoice_pace (s : State) (k : Nat) (v : VoiceId) (x : Voice) : (setVoice s k v x).pace = s.pace := by simp [setVoice]

@[simp] theorem setVoice_fresh (s : State) (k : Nat) (v : VoiceId) (x : Voice) : (setVoice s k v x).fresh = s.fresh := by simp [setVoice]

@[simp] theorem setVoice_core_index (s : State) (k : Nat) (v : VoiceId) (x : Voice) : (setVoice s k v x).core.index = s.core.index := by simp [setVoice]

@[simp] theorem setVoice_core_act (s : State) (k : Nat) (v : VoiceId) (x : Voice) : (setVoice s k v x).core.act = s.core.act := by simp [setVoice]

@[simp] theorem setVoice_core_deadTill (s : State) (k : Nat) (v : VoiceId) (x : Voice) : (setVoice s k v x).core.deadTill = s.core.deadTill := by simp [setVoice]

@[simp] theorem setVoice_core_ctl (s : State) (k : Nat) (v : VoiceId) (x : Voice) : (setVoice s k v x).core.ctl = s.core.ctl := by simp [setVoice]

@[simp] theorem setVoice_core_sctl (s : State) (k : Nat) (v : VoiceId) (x : Voice) : (setVoice s k v x).core.sctl = s.core.sctl := by simp [setVoice]

@[simp] theorem setVoice_core_journal (s : State) (k : Nat) (v : VoiceId) (x : Voice) : (setVoice s k v x).core.journal = s.core.journal := by simp [setVoice]

@[simp] theorem setVoice_core_clauses (s : State) (k : Nat) (v : VoiceId) (x : Voice) : (setVoice s k v x).core.clauses = s.core.clauses := by simp [setVoice]

@[simp] theorem setVoice_core_held (s : State) (k : Nat) (v : VoiceId) (x : Voice) : (setVoice s k v x).core.held = s.core.held := by simp [setVoice]

@[simp] theorem setVoice_core_out (s : State) (k : Nat) (v : VoiceId) (x : Voice) : (setVoice s k v x).core.out = s.core.out := by simp [setVoice]

@[simp] theorem setVoice_core_spad (s : State) (k : Nat) (v : VoiceId) (x : Voice) : (setVoice s k v x).core.spad = s.core.spad := by simp [setVoice]

@[simp] theorem setVoice_core_poison (s : State) (k : Nat) (v : VoiceId) (x : Voice) : (setVoice s k v x).core.poison = s.core.poison := by simp [setVoice]

@[simp] theorem setVoice_core_badRows (s : State) (k : Nat) (v : VoiceId) (x : Voice) : (setVoice s k v x).core.badRows = s.core.badRows := by simp [setVoice]

@[simp] theorem setVoice_core_cells (s : State) (k : Nat) (v : VoiceId) (x : Voice) : (setVoice s k v x).core.cells = s.core.cells := by simp [setVoice]

@[simp] theorem setVoice_core_headers (s : State) (k : Nat) (v : VoiceId) (x : Voice) : (setVoice s k v x).core.headers = s.core.headers := by simp [setVoice]

@[simp] theorem setVoice_core_grads (s : State) (k : Nat) (v : VoiceId) (x : Voice) : (setVoice s k v x).core.grads = s.core.grads := by simp [setVoice]

@[simp] theorem setVoice_core_tiles (s : State) (k : Nat) (v : VoiceId) (x : Voice) : (setVoice s k v x).core.tiles = s.core.tiles := by simp [setVoice]

@[simp] theorem setVoice_core_affine (s : State) (k : Nat) (v : VoiceId) (x : Voice) : (setVoice s k v x).core.affine = s.core.affine := by simp [setVoice]

@[simp] theorem setVoice_core_cmds (s : State) (k : Nat) (v : VoiceId) (x : Voice) : (setVoice s k v x).core.cmds = s.core.cmds := by simp [setVoice]

@[simp] theorem setVoice_core_nextId (s : State) (k : Nat) (v : VoiceId) (x : Voice) : (setVoice s k v x).core.nextId = s.core.nextId := by simp [setVoice]

@[simp] theorem setVoice_core_rollAt (s : State) (k : Nat) (v : VoiceId) (x : Voice) : (setVoice s k v x).core.rollAt = s.core.rollAt := by simp [setVoice]

@[simp] theorem setVoice_core_sealedExec (s : State) (k : Nat) (v : VoiceId) (x : Voice) : (setVoice s k v x).core.sealedExec = s.core.sealedExec := by simp [setVoice]

@[simp] theorem setVoice_core_pastRuns (s : State) (k : Nat) (v : VoiceId) (x : Voice) : (setVoice s k v x).core.pastRuns = s.core.pastRuns := by simp [setVoice]

@[simp] theorem setVoice_core_oldFences (s : State) (k : Nat) (v : VoiceId) (x : Voice) : (setVoice s k v x).core.oldFences = s.core.oldFences := by simp [setVoice]

@[simp] theorem setVoice_core_placed (s : State) (k : Nat) (v : VoiceId) (x : Voice) : (setVoice s k v x).core.placed = s.core.placed := by simp [setVoice]

@[simp] theorem setVoice_core_fenced (s : State) (k : Nat) (v : VoiceId) (x : Voice) : (setVoice s k v x).core.fenced = s.core.fenced := by simp [setVoice]

@[simp] theorem setVoice_core_undoUsed (s : State) (k : Nat) (v : VoiceId) (x : Voice) : (setVoice s k v x).core.undoUsed = s.core.undoUsed := by simp [setVoice]

@[simp] theorem setVoice_core_dtlb (s : State) (k : Nat) (v : VoiceId) (x : Voice) : (setVoice s k v x).core.dtlb = s.core.dtlb := by simp [setVoice]

@[simp] theorem setVoice_core_itlbA (s : State) (k : Nat) (v : VoiceId) (x : Voice) : (setVoice s k v x).core.itlbA = s.core.itlbA := by simp [setVoice]

@[simp] theorem setVoice_core_itlbX0 (s : State) (k : Nat) (v : VoiceId) (x : Voice) : (setVoice s k v x).core.itlbX0 = s.core.itlbX0 := by simp [setVoice]

@[simp] theorem setVoice_core_itlbX1 (s : State) (k : Nat) (v : VoiceId) (x : Voice) : (setVoice s k v x).core.itlbX1 = s.core.itlbX1 := by simp [setVoice]

@[simp] theorem setVoice_core_itlbC (s : State) (k : Nat) (v : VoiceId) (x : Voice) : (setVoice s k v x).core.itlbC = s.core.itlbC := by simp [setVoice]

@[simp] theorem setVoice_core_freeze (s : State) (k : Nat) (v : VoiceId) (x : Voice) : (setVoice s k v x).core.freeze = s.core.freeze := by simp [setVoice]

@[simp] theorem setVoice_core_bankMatrix (s : State) (k : Nat) (v : VoiceId) (x : Voice) : (setVoice s k v x).core.bankMatrix = s.core.bankMatrix := by simp [setVoice]

@[simp] theorem setVoice_core_bankSnap (s : State) (k : Nat) (v : VoiceId) (x : Voice) : (setVoice s k v x).core.bankSnap = s.core.bankSnap := by simp [setVoice]

@[simp] theorem setVoice_core_streamTurns (s : State) (k : Nat) (v : VoiceId) (x : Voice) : (setVoice s k v x).core.streamTurns = s.core.streamTurns := by simp [setVoice]

@[simp] theorem setVoice_core_streamWait (s : State) (k : Nat) (v : VoiceId) (x : Voice) : (setVoice s k v x).core.streamWait = s.core.streamWait := by simp [setVoice]

@[simp] theorem setVoice_core_streamLast (s : State) (k : Nat) (v : VoiceId) (x : Voice) : (setVoice s k v x).core.streamLast = s.core.streamLast := by simp [setVoice]

@[simp] theorem setVoice_core_nwrs (s : State) (k : Nat) (v : VoiceId) (x : Voice) : (setVoice s k v x).core.nwrs = s.core.nwrs := by simp [setVoice]

@[simp] theorem setVoice_core_consumed (s : State) (k : Nat) (v : VoiceId) (x : Voice) : (setVoice s k v x).core.consumed = s.core.consumed := by simp [setVoice]

@[simp] theorem setVoice_core_counted (s : State) (k : Nat) (v : VoiceId) (x : Voice) : (setVoice s k v x).core.counted = s.core.counted := by simp [setVoice]

@[simp] theorem setArch_cluster (s : State) (k : Nat) (v : VoiceId) (a : VoiceArch) : (setArch s k v a).cluster = s.cluster := by simp [setArch]

@[simp] theorem setArch_pkg (s : State) (k : Nat) (v : VoiceId) (a : VoiceArch) : (setArch s k v a).pkg = s.pkg := by simp [setArch]

@[simp] theorem setArch_inbox (s : State) (k : Nat) (v : VoiceId) (a : VoiceArch) : (setArch s k v a).inbox = s.inbox := by simp [setArch]

@[simp] theorem setArch_turn (s : State) (k : Nat) (v : VoiceId) (a : VoiceArch) : (setArch s k v a).turn = s.turn := by simp [setArch]

@[simp] theorem setArch_pastEdge (s : State) (k : Nat) (v : VoiceId) (a : VoiceArch) : (setArch s k v a).pastEdge = s.pastEdge := by simp [setArch]

@[simp] theorem setArch_syncNow (s : State) (k : Nat) (v : VoiceId) (a : VoiceArch) : (setArch s k v a).syncNow = s.syncNow := by simp [setArch]

@[simp] theorem setArch_sgo (s : State) (k : Nat) (v : VoiceId) (a : VoiceArch) : (setArch s k v a).sgo = s.sgo := by simp [setArch]

@[simp] theorem setArch_otherGo (s : State) (k : Nat) (v : VoiceId) (a : VoiceArch) : (setArch s k v a).otherGo = s.otherGo := by simp [setArch]

@[simp] theorem setArch_now (s : State) (k : Nat) (v : VoiceId) (a : VoiceArch) : (setArch s k v a).now = s.now := by simp [setArch]

@[simp] theorem setArch_served (s : State) (k : Nat) (v : VoiceId) (a : VoiceArch) : (setArch s k v a).served = s.served := by simp [setArch]

@[simp] theorem setArch_granted (s : State) (k : Nat) (v : VoiceId) (a : VoiceArch) : (setArch s k v a).granted = s.granted := by simp [setArch]

@[simp] theorem setArch_banksUsed (s : State) (k : Nat) (v : VoiceId) (a : VoiceArch) : (setArch s k v a).banksUsed = s.banksUsed := by simp [setArch]

@[simp] theorem setArch_pace (s : State) (k : Nat) (v : VoiceId) (a : VoiceArch) : (setArch s k v a).pace = s.pace := by simp [setArch]

@[simp] theorem setArch_fresh (s : State) (k : Nat) (v : VoiceId) (a : VoiceArch) : (setArch s k v a).fresh = s.fresh := by simp [setArch]

@[simp] theorem setArch_core_index (s : State) (k : Nat) (v : VoiceId) (a : VoiceArch) : (setArch s k v a).core.index = s.core.index := by simp [setArch]

@[simp] theorem setArch_core_act (s : State) (k : Nat) (v : VoiceId) (a : VoiceArch) : (setArch s k v a).core.act = s.core.act := by simp [setArch]

@[simp] theorem setArch_core_deadTill (s : State) (k : Nat) (v : VoiceId) (a : VoiceArch) : (setArch s k v a).core.deadTill = s.core.deadTill := by simp [setArch]

@[simp] theorem setArch_core_ctl (s : State) (k : Nat) (v : VoiceId) (a : VoiceArch) : (setArch s k v a).core.ctl = s.core.ctl := by simp [setArch]

@[simp] theorem setArch_core_sctl (s : State) (k : Nat) (v : VoiceId) (a : VoiceArch) : (setArch s k v a).core.sctl = s.core.sctl := by simp [setArch]

@[simp] theorem setArch_core_journal (s : State) (k : Nat) (v : VoiceId) (a : VoiceArch) : (setArch s k v a).core.journal = s.core.journal := by simp [setArch]

@[simp] theorem setArch_core_clauses (s : State) (k : Nat) (v : VoiceId) (a : VoiceArch) : (setArch s k v a).core.clauses = s.core.clauses := by simp [setArch]

@[simp] theorem setArch_core_held (s : State) (k : Nat) (v : VoiceId) (a : VoiceArch) : (setArch s k v a).core.held = s.core.held := by simp [setArch]

@[simp] theorem setArch_core_out (s : State) (k : Nat) (v : VoiceId) (a : VoiceArch) : (setArch s k v a).core.out = s.core.out := by simp [setArch]

@[simp] theorem setArch_core_spad (s : State) (k : Nat) (v : VoiceId) (a : VoiceArch) : (setArch s k v a).core.spad = s.core.spad := by simp [setArch]

@[simp] theorem setArch_core_poison (s : State) (k : Nat) (v : VoiceId) (a : VoiceArch) : (setArch s k v a).core.poison = s.core.poison := by simp [setArch]

@[simp] theorem setArch_core_badRows (s : State) (k : Nat) (v : VoiceId) (a : VoiceArch) : (setArch s k v a).core.badRows = s.core.badRows := by simp [setArch]

@[simp] theorem setArch_core_cells (s : State) (k : Nat) (v : VoiceId) (a : VoiceArch) : (setArch s k v a).core.cells = s.core.cells := by simp [setArch]

@[simp] theorem setArch_core_headers (s : State) (k : Nat) (v : VoiceId) (a : VoiceArch) : (setArch s k v a).core.headers = s.core.headers := by simp [setArch]

@[simp] theorem setArch_core_grads (s : State) (k : Nat) (v : VoiceId) (a : VoiceArch) : (setArch s k v a).core.grads = s.core.grads := by simp [setArch]

@[simp] theorem setArch_core_tiles (s : State) (k : Nat) (v : VoiceId) (a : VoiceArch) : (setArch s k v a).core.tiles = s.core.tiles := by simp [setArch]

@[simp] theorem setArch_core_affine (s : State) (k : Nat) (v : VoiceId) (a : VoiceArch) : (setArch s k v a).core.affine = s.core.affine := by simp [setArch]

@[simp] theorem setArch_core_cmds (s : State) (k : Nat) (v : VoiceId) (a : VoiceArch) : (setArch s k v a).core.cmds = s.core.cmds := by simp [setArch]

@[simp] theorem setArch_core_nextId (s : State) (k : Nat) (v : VoiceId) (a : VoiceArch) : (setArch s k v a).core.nextId = s.core.nextId := by simp [setArch]

@[simp] theorem setArch_core_rollAt (s : State) (k : Nat) (v : VoiceId) (a : VoiceArch) : (setArch s k v a).core.rollAt = s.core.rollAt := by simp [setArch]

@[simp] theorem setArch_core_sealedExec (s : State) (k : Nat) (v : VoiceId) (a : VoiceArch) : (setArch s k v a).core.sealedExec = s.core.sealedExec := by simp [setArch]

@[simp] theorem setArch_core_pastRuns (s : State) (k : Nat) (v : VoiceId) (a : VoiceArch) : (setArch s k v a).core.pastRuns = s.core.pastRuns := by simp [setArch]

@[simp] theorem setArch_core_oldFences (s : State) (k : Nat) (v : VoiceId) (a : VoiceArch) : (setArch s k v a).core.oldFences = s.core.oldFences := by simp [setArch]

@[simp] theorem setArch_core_placed (s : State) (k : Nat) (v : VoiceId) (a : VoiceArch) : (setArch s k v a).core.placed = s.core.placed := by simp [setArch]

@[simp] theorem setArch_core_fenced (s : State) (k : Nat) (v : VoiceId) (a : VoiceArch) : (setArch s k v a).core.fenced = s.core.fenced := by simp [setArch]

@[simp] theorem setArch_core_undoUsed (s : State) (k : Nat) (v : VoiceId) (a : VoiceArch) : (setArch s k v a).core.undoUsed = s.core.undoUsed := by simp [setArch]

@[simp] theorem setArch_core_dtlb (s : State) (k : Nat) (v : VoiceId) (a : VoiceArch) : (setArch s k v a).core.dtlb = s.core.dtlb := by simp [setArch]

@[simp] theorem setArch_core_itlbA (s : State) (k : Nat) (v : VoiceId) (a : VoiceArch) : (setArch s k v a).core.itlbA = s.core.itlbA := by simp [setArch]

@[simp] theorem setArch_core_itlbX0 (s : State) (k : Nat) (v : VoiceId) (a : VoiceArch) : (setArch s k v a).core.itlbX0 = s.core.itlbX0 := by simp [setArch]

@[simp] theorem setArch_core_itlbX1 (s : State) (k : Nat) (v : VoiceId) (a : VoiceArch) : (setArch s k v a).core.itlbX1 = s.core.itlbX1 := by simp [setArch]

@[simp] theorem setArch_core_itlbC (s : State) (k : Nat) (v : VoiceId) (a : VoiceArch) : (setArch s k v a).core.itlbC = s.core.itlbC := by simp [setArch]

@[simp] theorem setArch_core_freeze (s : State) (k : Nat) (v : VoiceId) (a : VoiceArch) : (setArch s k v a).core.freeze = s.core.freeze := by simp [setArch]

@[simp] theorem setArch_core_bankMatrix (s : State) (k : Nat) (v : VoiceId) (a : VoiceArch) : (setArch s k v a).core.bankMatrix = s.core.bankMatrix := by simp [setArch]

@[simp] theorem setArch_core_bankSnap (s : State) (k : Nat) (v : VoiceId) (a : VoiceArch) : (setArch s k v a).core.bankSnap = s.core.bankSnap := by simp [setArch]

@[simp] theorem setArch_core_streamTurns (s : State) (k : Nat) (v : VoiceId) (a : VoiceArch) : (setArch s k v a).core.streamTurns = s.core.streamTurns := by simp [setArch]

@[simp] theorem setArch_core_streamWait (s : State) (k : Nat) (v : VoiceId) (a : VoiceArch) : (setArch s k v a).core.streamWait = s.core.streamWait := by simp [setArch]

@[simp] theorem setArch_core_streamLast (s : State) (k : Nat) (v : VoiceId) (a : VoiceArch) : (setArch s k v a).core.streamLast = s.core.streamLast := by simp [setArch]

@[simp] theorem setArch_core_nwrs (s : State) (k : Nat) (v : VoiceId) (a : VoiceArch) : (setArch s k v a).core.nwrs = s.core.nwrs := by simp [setArch]

@[simp] theorem setArch_core_consumed (s : State) (k : Nat) (v : VoiceId) (a : VoiceArch) : (setArch s k v a).core.consumed = s.core.consumed := by simp [setArch]

@[simp] theorem setArch_core_counted (s : State) (k : Nat) (v : VoiceId) (a : VoiceArch) : (setArch s k v a).core.counted = s.core.counted := by simp [setArch]

@[simp] theorem setArchAt_cluster (s : State) (h : Here) (a : VoiceArch) : (setArchAt s h a).cluster = s.cluster := by simp [setArchAt]

@[simp] theorem setArchAt_pkg (s : State) (h : Here) (a : VoiceArch) : (setArchAt s h a).pkg = s.pkg := by simp [setArchAt]

@[simp] theorem setArchAt_inbox (s : State) (h : Here) (a : VoiceArch) : (setArchAt s h a).inbox = s.inbox := by simp [setArchAt]

@[simp] theorem setArchAt_turn (s : State) (h : Here) (a : VoiceArch) : (setArchAt s h a).turn = s.turn := by simp [setArchAt]

@[simp] theorem setArchAt_pastEdge (s : State) (h : Here) (a : VoiceArch) : (setArchAt s h a).pastEdge = s.pastEdge := by simp [setArchAt]

@[simp] theorem setArchAt_syncNow (s : State) (h : Here) (a : VoiceArch) : (setArchAt s h a).syncNow = s.syncNow := by simp [setArchAt]

@[simp] theorem setArchAt_sgo (s : State) (h : Here) (a : VoiceArch) : (setArchAt s h a).sgo = s.sgo := by simp [setArchAt]

@[simp] theorem setArchAt_otherGo (s : State) (h : Here) (a : VoiceArch) : (setArchAt s h a).otherGo = s.otherGo := by simp [setArchAt]

@[simp] theorem setArchAt_now (s : State) (h : Here) (a : VoiceArch) : (setArchAt s h a).now = s.now := by simp [setArchAt]

@[simp] theorem setArchAt_served (s : State) (h : Here) (a : VoiceArch) : (setArchAt s h a).served = s.served := by simp [setArchAt]

@[simp] theorem setArchAt_granted (s : State) (h : Here) (a : VoiceArch) : (setArchAt s h a).granted = s.granted := by simp [setArchAt]

@[simp] theorem setArchAt_banksUsed (s : State) (h : Here) (a : VoiceArch) : (setArchAt s h a).banksUsed = s.banksUsed := by simp [setArchAt]

@[simp] theorem setArchAt_pace (s : State) (h : Here) (a : VoiceArch) : (setArchAt s h a).pace = s.pace := by simp [setArchAt]

@[simp] theorem setArchAt_fresh (s : State) (h : Here) (a : VoiceArch) : (setArchAt s h a).fresh = s.fresh := by simp [setArchAt]

@[simp] theorem setArchAt_core_index (s : State) (h : Here) (a : VoiceArch) : (setArchAt s h a).core.index = s.core.index := by simp [setArchAt]

@[simp] theorem setArchAt_core_act (s : State) (h : Here) (a : VoiceArch) : (setArchAt s h a).core.act = s.core.act := by simp [setArchAt]

@[simp] theorem setArchAt_core_deadTill (s : State) (h : Here) (a : VoiceArch) : (setArchAt s h a).core.deadTill = s.core.deadTill := by simp [setArchAt]

@[simp] theorem setArchAt_core_ctl (s : State) (h : Here) (a : VoiceArch) : (setArchAt s h a).core.ctl = s.core.ctl := by simp [setArchAt]

@[simp] theorem setArchAt_core_sctl (s : State) (h : Here) (a : VoiceArch) : (setArchAt s h a).core.sctl = s.core.sctl := by simp [setArchAt]

@[simp] theorem setArchAt_core_journal (s : State) (h : Here) (a : VoiceArch) : (setArchAt s h a).core.journal = s.core.journal := by simp [setArchAt]

@[simp] theorem setArchAt_core_clauses (s : State) (h : Here) (a : VoiceArch) : (setArchAt s h a).core.clauses = s.core.clauses := by simp [setArchAt]

@[simp] theorem setArchAt_core_held (s : State) (h : Here) (a : VoiceArch) : (setArchAt s h a).core.held = s.core.held := by simp [setArchAt]

@[simp] theorem setArchAt_core_out (s : State) (h : Here) (a : VoiceArch) : (setArchAt s h a).core.out = s.core.out := by simp [setArchAt]

@[simp] theorem setArchAt_core_spad (s : State) (h : Here) (a : VoiceArch) : (setArchAt s h a).core.spad = s.core.spad := by simp [setArchAt]

@[simp] theorem setArchAt_core_poison (s : State) (h : Here) (a : VoiceArch) : (setArchAt s h a).core.poison = s.core.poison := by simp [setArchAt]

@[simp] theorem setArchAt_core_badRows (s : State) (h : Here) (a : VoiceArch) : (setArchAt s h a).core.badRows = s.core.badRows := by simp [setArchAt]

@[simp] theorem setArchAt_core_cells (s : State) (h : Here) (a : VoiceArch) : (setArchAt s h a).core.cells = s.core.cells := by simp [setArchAt]

@[simp] theorem setArchAt_core_headers (s : State) (h : Here) (a : VoiceArch) : (setArchAt s h a).core.headers = s.core.headers := by simp [setArchAt]

@[simp] theorem setArchAt_core_grads (s : State) (h : Here) (a : VoiceArch) : (setArchAt s h a).core.grads = s.core.grads := by simp [setArchAt]

@[simp] theorem setArchAt_core_tiles (s : State) (h : Here) (a : VoiceArch) : (setArchAt s h a).core.tiles = s.core.tiles := by simp [setArchAt]

@[simp] theorem setArchAt_core_affine (s : State) (h : Here) (a : VoiceArch) : (setArchAt s h a).core.affine = s.core.affine := by simp [setArchAt]

@[simp] theorem setArchAt_core_cmds (s : State) (h : Here) (a : VoiceArch) : (setArchAt s h a).core.cmds = s.core.cmds := by simp [setArchAt]

@[simp] theorem setArchAt_core_nextId (s : State) (h : Here) (a : VoiceArch) : (setArchAt s h a).core.nextId = s.core.nextId := by simp [setArchAt]

@[simp] theorem setArchAt_core_rollAt (s : State) (h : Here) (a : VoiceArch) : (setArchAt s h a).core.rollAt = s.core.rollAt := by simp [setArchAt]

@[simp] theorem setArchAt_core_sealedExec (s : State) (h : Here) (a : VoiceArch) : (setArchAt s h a).core.sealedExec = s.core.sealedExec := by simp [setArchAt]

@[simp] theorem setArchAt_core_pastRuns (s : State) (h : Here) (a : VoiceArch) : (setArchAt s h a).core.pastRuns = s.core.pastRuns := by simp [setArchAt]

@[simp] theorem setArchAt_core_oldFences (s : State) (h : Here) (a : VoiceArch) : (setArchAt s h a).core.oldFences = s.core.oldFences := by simp [setArchAt]

@[simp] theorem setArchAt_core_placed (s : State) (h : Here) (a : VoiceArch) : (setArchAt s h a).core.placed = s.core.placed := by simp [setArchAt]

@[simp] theorem setArchAt_core_fenced (s : State) (h : Here) (a : VoiceArch) : (setArchAt s h a).core.fenced = s.core.fenced := by simp [setArchAt]

@[simp] theorem setArchAt_core_undoUsed (s : State) (h : Here) (a : VoiceArch) : (setArchAt s h a).core.undoUsed = s.core.undoUsed := by simp [setArchAt]

@[simp] theorem setArchAt_core_dtlb (s : State) (h : Here) (a : VoiceArch) : (setArchAt s h a).core.dtlb = s.core.dtlb := by simp [setArchAt]

@[simp] theorem setArchAt_core_itlbA (s : State) (h : Here) (a : VoiceArch) : (setArchAt s h a).core.itlbA = s.core.itlbA := by simp [setArchAt]

@[simp] theorem setArchAt_core_itlbX0 (s : State) (h : Here) (a : VoiceArch) : (setArchAt s h a).core.itlbX0 = s.core.itlbX0 := by simp [setArchAt]

@[simp] theorem setArchAt_core_itlbX1 (s : State) (h : Here) (a : VoiceArch) : (setArchAt s h a).core.itlbX1 = s.core.itlbX1 := by simp [setArchAt]

@[simp] theorem setArchAt_core_itlbC (s : State) (h : Here) (a : VoiceArch) : (setArchAt s h a).core.itlbC = s.core.itlbC := by simp [setArchAt]

@[simp] theorem setArchAt_core_freeze (s : State) (h : Here) (a : VoiceArch) : (setArchAt s h a).core.freeze = s.core.freeze := by simp [setArchAt]

@[simp] theorem setArchAt_core_bankMatrix (s : State) (h : Here) (a : VoiceArch) : (setArchAt s h a).core.bankMatrix = s.core.bankMatrix := by simp [setArchAt]

@[simp] theorem setArchAt_core_bankSnap (s : State) (h : Here) (a : VoiceArch) : (setArchAt s h a).core.bankSnap = s.core.bankSnap := by simp [setArchAt]

@[simp] theorem setArchAt_core_streamTurns (s : State) (h : Here) (a : VoiceArch) : (setArchAt s h a).core.streamTurns = s.core.streamTurns := by simp [setArchAt]

@[simp] theorem setArchAt_core_streamWait (s : State) (h : Here) (a : VoiceArch) : (setArchAt s h a).core.streamWait = s.core.streamWait := by simp [setArchAt]

@[simp] theorem setArchAt_core_streamLast (s : State) (h : Here) (a : VoiceArch) : (setArchAt s h a).core.streamLast = s.core.streamLast := by simp [setArchAt]

@[simp] theorem setArchAt_core_nwrs (s : State) (h : Here) (a : VoiceArch) : (setArchAt s h a).core.nwrs = s.core.nwrs := by simp [setArchAt]

@[simp] theorem setArchAt_core_consumed (s : State) (h : Here) (a : VoiceArch) : (setArchAt s h a).core.consumed = s.core.consumed := by simp [setArchAt]

@[simp] theorem setArchAt_core_counted (s : State) (h : Here) (a : VoiceArch) : (setArchAt s h a).core.counted = s.core.counted := by simp [setArchAt]

@[simp] theorem setMark_cluster (s : State) (h : Here) (m : Mark) : (setMark s h m).cluster = s.cluster := by simp [setMark]

@[simp] theorem setMark_pkg (s : State) (h : Here) (m : Mark) : (setMark s h m).pkg = s.pkg := by simp [setMark]

@[simp] theorem setMark_inbox (s : State) (h : Here) (m : Mark) : (setMark s h m).inbox = s.inbox := by simp [setMark]

@[simp] theorem setMark_turn (s : State) (h : Here) (m : Mark) : (setMark s h m).turn = s.turn := by simp [setMark]

@[simp] theorem setMark_pastEdge (s : State) (h : Here) (m : Mark) : (setMark s h m).pastEdge = s.pastEdge := by simp [setMark]

@[simp] theorem setMark_syncNow (s : State) (h : Here) (m : Mark) : (setMark s h m).syncNow = s.syncNow := by simp [setMark]

@[simp] theorem setMark_sgo (s : State) (h : Here) (m : Mark) : (setMark s h m).sgo = s.sgo := by simp [setMark]

@[simp] theorem setMark_otherGo (s : State) (h : Here) (m : Mark) : (setMark s h m).otherGo = s.otherGo := by simp [setMark]

@[simp] theorem setMark_now (s : State) (h : Here) (m : Mark) : (setMark s h m).now = s.now := by simp [setMark]

@[simp] theorem setMark_served (s : State) (h : Here) (m : Mark) : (setMark s h m).served = s.served := by simp [setMark]

@[simp] theorem setMark_granted (s : State) (h : Here) (m : Mark) : (setMark s h m).granted = s.granted := by simp [setMark]

@[simp] theorem setMark_banksUsed (s : State) (h : Here) (m : Mark) : (setMark s h m).banksUsed = s.banksUsed := by simp [setMark]

@[simp] theorem setMark_pace (s : State) (h : Here) (m : Mark) : (setMark s h m).pace = s.pace := by simp [setMark]

@[simp] theorem setMark_fresh (s : State) (h : Here) (m : Mark) : (setMark s h m).fresh = s.fresh := by simp [setMark]

@[simp] theorem setMark_core_index (s : State) (h : Here) (m : Mark) : (setMark s h m).core.index = s.core.index := by simp [setMark]

@[simp] theorem setMark_core_act (s : State) (h : Here) (m : Mark) : (setMark s h m).core.act = s.core.act := by simp [setMark]

@[simp] theorem setMark_core_deadTill (s : State) (h : Here) (m : Mark) : (setMark s h m).core.deadTill = s.core.deadTill := by simp [setMark]

@[simp] theorem setMark_core_ctl (s : State) (h : Here) (m : Mark) : (setMark s h m).core.ctl = s.core.ctl := by simp [setMark]

@[simp] theorem setMark_core_sctl (s : State) (h : Here) (m : Mark) : (setMark s h m).core.sctl = s.core.sctl := by simp [setMark]

@[simp] theorem setMark_core_journal (s : State) (h : Here) (m : Mark) : (setMark s h m).core.journal = s.core.journal := by simp [setMark]

@[simp] theorem setMark_core_clauses (s : State) (h : Here) (m : Mark) : (setMark s h m).core.clauses = s.core.clauses := by simp [setMark]

@[simp] theorem setMark_core_held (s : State) (h : Here) (m : Mark) : (setMark s h m).core.held = s.core.held := by simp [setMark]

@[simp] theorem setMark_core_out (s : State) (h : Here) (m : Mark) : (setMark s h m).core.out = s.core.out := by simp [setMark]

@[simp] theorem setMark_core_spad (s : State) (h : Here) (m : Mark) : (setMark s h m).core.spad = s.core.spad := by simp [setMark]

@[simp] theorem setMark_core_poison (s : State) (h : Here) (m : Mark) : (setMark s h m).core.poison = s.core.poison := by simp [setMark]

@[simp] theorem setMark_core_badRows (s : State) (h : Here) (m : Mark) : (setMark s h m).core.badRows = s.core.badRows := by simp [setMark]

@[simp] theorem setMark_core_cells (s : State) (h : Here) (m : Mark) : (setMark s h m).core.cells = s.core.cells := by simp [setMark]

@[simp] theorem setMark_core_headers (s : State) (h : Here) (m : Mark) : (setMark s h m).core.headers = s.core.headers := by simp [setMark]

@[simp] theorem setMark_core_grads (s : State) (h : Here) (m : Mark) : (setMark s h m).core.grads = s.core.grads := by simp [setMark]

@[simp] theorem setMark_core_tiles (s : State) (h : Here) (m : Mark) : (setMark s h m).core.tiles = s.core.tiles := by simp [setMark]

@[simp] theorem setMark_core_affine (s : State) (h : Here) (m : Mark) : (setMark s h m).core.affine = s.core.affine := by simp [setMark]

@[simp] theorem setMark_core_cmds (s : State) (h : Here) (m : Mark) : (setMark s h m).core.cmds = s.core.cmds := by simp [setMark]

@[simp] theorem setMark_core_nextId (s : State) (h : Here) (m : Mark) : (setMark s h m).core.nextId = s.core.nextId := by simp [setMark]

@[simp] theorem setMark_core_rollAt (s : State) (h : Here) (m : Mark) : (setMark s h m).core.rollAt = s.core.rollAt := by simp [setMark]

@[simp] theorem setMark_core_sealedExec (s : State) (h : Here) (m : Mark) : (setMark s h m).core.sealedExec = s.core.sealedExec := by simp [setMark]

@[simp] theorem setMark_core_pastRuns (s : State) (h : Here) (m : Mark) : (setMark s h m).core.pastRuns = s.core.pastRuns := by simp [setMark]

@[simp] theorem setMark_core_oldFences (s : State) (h : Here) (m : Mark) : (setMark s h m).core.oldFences = s.core.oldFences := by simp [setMark]

@[simp] theorem setMark_core_placed (s : State) (h : Here) (m : Mark) : (setMark s h m).core.placed = s.core.placed := by simp [setMark]

@[simp] theorem setMark_core_fenced (s : State) (h : Here) (m : Mark) : (setMark s h m).core.fenced = s.core.fenced := by simp [setMark]

@[simp] theorem setMark_core_undoUsed (s : State) (h : Here) (m : Mark) : (setMark s h m).core.undoUsed = s.core.undoUsed := by simp [setMark]

@[simp] theorem setMark_core_dtlb (s : State) (h : Here) (m : Mark) : (setMark s h m).core.dtlb = s.core.dtlb := by simp [setMark]

@[simp] theorem setMark_core_itlbA (s : State) (h : Here) (m : Mark) : (setMark s h m).core.itlbA = s.core.itlbA := by simp [setMark]

@[simp] theorem setMark_core_itlbX0 (s : State) (h : Here) (m : Mark) : (setMark s h m).core.itlbX0 = s.core.itlbX0 := by simp [setMark]

@[simp] theorem setMark_core_itlbX1 (s : State) (h : Here) (m : Mark) : (setMark s h m).core.itlbX1 = s.core.itlbX1 := by simp [setMark]

@[simp] theorem setMark_core_itlbC (s : State) (h : Here) (m : Mark) : (setMark s h m).core.itlbC = s.core.itlbC := by simp [setMark]

@[simp] theorem setMark_core_freeze (s : State) (h : Here) (m : Mark) : (setMark s h m).core.freeze = s.core.freeze := by simp [setMark]

@[simp] theorem setMark_core_bankMatrix (s : State) (h : Here) (m : Mark) : (setMark s h m).core.bankMatrix = s.core.bankMatrix := by simp [setMark]

@[simp] theorem setMark_core_bankSnap (s : State) (h : Here) (m : Mark) : (setMark s h m).core.bankSnap = s.core.bankSnap := by simp [setMark]

@[simp] theorem setMark_core_streamTurns (s : State) (h : Here) (m : Mark) : (setMark s h m).core.streamTurns = s.core.streamTurns := by simp [setMark]

@[simp] theorem setMark_core_streamWait (s : State) (h : Here) (m : Mark) : (setMark s h m).core.streamWait = s.core.streamWait := by simp [setMark]

@[simp] theorem setMark_core_streamLast (s : State) (h : Here) (m : Mark) : (setMark s h m).core.streamLast = s.core.streamLast := by simp [setMark]

@[simp] theorem setMark_core_nwrs (s : State) (h : Here) (m : Mark) : (setMark s h m).core.nwrs = s.core.nwrs := by simp [setMark]

@[simp] theorem setMark_core_consumed (s : State) (h : Here) (m : Mark) : (setMark s h m).core.consumed = s.core.consumed := by simp [setMark]

@[simp] theorem setMark_core_counted (s : State) (h : Here) (m : Mark) : (setMark s h m).core.counted = s.core.counted := by simp [setMark]

@[simp] theorem change_cluster (s : State) (k cl : Nat) (c : Change) : (change s k cl c).cluster = s.cluster := by rfl

@[simp] theorem change_pkg (s : State) (k cl : Nat) (c : Change) : (change s k cl c).pkg = s.pkg := by rfl

@[simp] theorem change_inbox (s : State) (k cl : Nat) (c : Change) : (change s k cl c).inbox = s.inbox := by rfl

@[simp] theorem change_turn (s : State) (k cl : Nat) (c : Change) : (change s k cl c).turn = s.turn := by rfl

@[simp] theorem change_pastEdge (s : State) (k cl : Nat) (c : Change) : (change s k cl c).pastEdge = s.pastEdge := by rfl

@[simp] theorem change_syncNow (s : State) (k cl : Nat) (c : Change) : (change s k cl c).syncNow = s.syncNow := by rfl

@[simp] theorem change_sgo (s : State) (k cl : Nat) (c : Change) : (change s k cl c).sgo = s.sgo := by rfl

@[simp] theorem change_otherGo (s : State) (k cl : Nat) (c : Change) : (change s k cl c).otherGo = s.otherGo := by rfl

@[simp] theorem change_now (s : State) (k cl : Nat) (c : Change) : (change s k cl c).now = s.now := by rfl

@[simp] theorem change_served (s : State) (k cl : Nat) (c : Change) : (change s k cl c).served = s.served := by rfl

@[simp] theorem change_granted (s : State) (k cl : Nat) (c : Change) : (change s k cl c).granted = s.granted := by rfl

@[simp] theorem change_banksUsed (s : State) (k cl : Nat) (c : Change) : (change s k cl c).banksUsed = s.banksUsed := by rfl

@[simp] theorem change_pace (s : State) (k cl : Nat) (c : Change) : (change s k cl c).pace = s.pace := by rfl

@[simp] theorem change_fresh (s : State) (k cl : Nat) (c : Change) : (change s k cl c).fresh = s.fresh := by rfl

@[simp] theorem change_core_index (s : State) (k cl : Nat) (c : Change) : (change s k cl c).core.index = s.core.index := by rfl

@[simp] theorem change_core_slot0 (s : State) (k cl : Nat) (c : Change) : (change s k cl c).core.slot0 = s.core.slot0 := by rfl

@[simp] theorem change_core_slot1 (s : State) (k cl : Nat) (c : Change) : (change s k cl c).core.slot1 = s.core.slot1 := by rfl

@[simp] theorem change_core_act (s : State) (k cl : Nat) (c : Change) : (change s k cl c).core.act = s.core.act := by rfl

@[simp] theorem change_core_deadTill (s : State) (k cl : Nat) (c : Change) : (change s k cl c).core.deadTill = s.core.deadTill := by rfl

@[simp] theorem change_core_clauses (s : State) (k cl : Nat) (c : Change) : (change s k cl c).core.clauses = s.core.clauses := by rfl

@[simp] theorem change_core_held (s : State) (k cl : Nat) (c : Change) : (change s k cl c).core.held = s.core.held := by rfl

@[simp] theorem change_core_out (s : State) (k cl : Nat) (c : Change) : (change s k cl c).core.out = s.core.out := by rfl

@[simp] theorem change_core_spad (s : State) (k cl : Nat) (c : Change) : (change s k cl c).core.spad = s.core.spad := by rfl

@[simp] theorem change_core_poison (s : State) (k cl : Nat) (c : Change) : (change s k cl c).core.poison = s.core.poison := by rfl

@[simp] theorem change_core_badRows (s : State) (k cl : Nat) (c : Change) : (change s k cl c).core.badRows = s.core.badRows := by rfl

@[simp] theorem change_core_cells (s : State) (k cl : Nat) (c : Change) : (change s k cl c).core.cells = s.core.cells := by rfl

@[simp] theorem change_core_headers (s : State) (k cl : Nat) (c : Change) : (change s k cl c).core.headers = s.core.headers := by rfl

@[simp] theorem change_core_grads (s : State) (k cl : Nat) (c : Change) : (change s k cl c).core.grads = s.core.grads := by rfl

@[simp] theorem change_core_tiles (s : State) (k cl : Nat) (c : Change) : (change s k cl c).core.tiles = s.core.tiles := by rfl

@[simp] theorem change_core_affine (s : State) (k cl : Nat) (c : Change) : (change s k cl c).core.affine = s.core.affine := by rfl

@[simp] theorem change_core_cmds (s : State) (k cl : Nat) (c : Change) : (change s k cl c).core.cmds = s.core.cmds := by rfl

@[simp] theorem change_core_nextId (s : State) (k cl : Nat) (c : Change) : (change s k cl c).core.nextId = s.core.nextId := by rfl

@[simp] theorem change_core_rollAt (s : State) (k cl : Nat) (c : Change) : (change s k cl c).core.rollAt = s.core.rollAt := by rfl

@[simp] theorem change_core_sealedExec (s : State) (k cl : Nat) (c : Change) : (change s k cl c).core.sealedExec = s.core.sealedExec := by rfl

@[simp] theorem change_core_pastRuns (s : State) (k cl : Nat) (c : Change) : (change s k cl c).core.pastRuns = s.core.pastRuns := by rfl

@[simp] theorem change_core_oldFences (s : State) (k cl : Nat) (c : Change) : (change s k cl c).core.oldFences = s.core.oldFences := by rfl

@[simp] theorem change_core_placed (s : State) (k cl : Nat) (c : Change) : (change s k cl c).core.placed = s.core.placed := by rfl

@[simp] theorem change_core_fenced (s : State) (k cl : Nat) (c : Change) : (change s k cl c).core.fenced = s.core.fenced := by rfl

@[simp] theorem change_core_undoUsed (s : State) (k cl : Nat) (c : Change) : (change s k cl c).core.undoUsed = s.core.undoUsed := by rfl

@[simp] theorem change_core_dtlb (s : State) (k cl : Nat) (c : Change) : (change s k cl c).core.dtlb = s.core.dtlb := by rfl

@[simp] theorem change_core_itlbA (s : State) (k cl : Nat) (c : Change) : (change s k cl c).core.itlbA = s.core.itlbA := by rfl

@[simp] theorem change_core_itlbX0 (s : State) (k cl : Nat) (c : Change) : (change s k cl c).core.itlbX0 = s.core.itlbX0 := by rfl

@[simp] theorem change_core_itlbX1 (s : State) (k cl : Nat) (c : Change) : (change s k cl c).core.itlbX1 = s.core.itlbX1 := by rfl

@[simp] theorem change_core_itlbC (s : State) (k cl : Nat) (c : Change) : (change s k cl c).core.itlbC = s.core.itlbC := by rfl

@[simp] theorem change_core_freeze (s : State) (k cl : Nat) (c : Change) : (change s k cl c).core.freeze = s.core.freeze := by rfl

@[simp] theorem change_core_bankMatrix (s : State) (k cl : Nat) (c : Change) : (change s k cl c).core.bankMatrix = s.core.bankMatrix := by rfl

@[simp] theorem change_core_bankSnap (s : State) (k cl : Nat) (c : Change) : (change s k cl c).core.bankSnap = s.core.bankSnap := by rfl

@[simp] theorem change_core_streamTurns (s : State) (k cl : Nat) (c : Change) : (change s k cl c).core.streamTurns = s.core.streamTurns := by rfl

@[simp] theorem change_core_streamWait (s : State) (k cl : Nat) (c : Change) : (change s k cl c).core.streamWait = s.core.streamWait := by rfl

@[simp] theorem change_core_streamLast (s : State) (k cl : Nat) (c : Change) : (change s k cl c).core.streamLast = s.core.streamLast := by rfl

@[simp] theorem change_core_nwrs (s : State) (k cl : Nat) (c : Change) : (change s k cl c).core.nwrs = s.core.nwrs := by rfl

@[simp] theorem change_core_consumed (s : State) (k cl : Nat) (c : Change) : (change s k cl c).core.consumed = s.core.consumed := by rfl

@[simp] theorem change_core_counted (s : State) (k cl : Nat) (c : Change) : (change s k cl c).core.counted = s.core.counted := by rfl

@[simp] theorem changes_cluster (s : State) (k cl : Nat) (cs : List Change) : (changes s k cl cs).cluster = s.cluster := by induction cs generalizing s with | nil => rfl | cons c r ih => simp [changes, ih]

@[simp] theorem changes_pkg (s : State) (k cl : Nat) (cs : List Change) : (changes s k cl cs).pkg = s.pkg := by induction cs generalizing s with | nil => rfl | cons c r ih => simp [changes, ih]

@[simp] theorem changes_inbox (s : State) (k cl : Nat) (cs : List Change) : (changes s k cl cs).inbox = s.inbox := by induction cs generalizing s with | nil => rfl | cons c r ih => simp [changes, ih]

@[simp] theorem changes_turn (s : State) (k cl : Nat) (cs : List Change) : (changes s k cl cs).turn = s.turn := by induction cs generalizing s with | nil => rfl | cons c r ih => simp [changes, ih]

@[simp] theorem changes_pastEdge (s : State) (k cl : Nat) (cs : List Change) : (changes s k cl cs).pastEdge = s.pastEdge := by induction cs generalizing s with | nil => rfl | cons c r ih => simp [changes, ih]

@[simp] theorem changes_syncNow (s : State) (k cl : Nat) (cs : List Change) : (changes s k cl cs).syncNow = s.syncNow := by induction cs generalizing s with | nil => rfl | cons c r ih => simp [changes, ih]

@[simp] theorem changes_sgo (s : State) (k cl : Nat) (cs : List Change) : (changes s k cl cs).sgo = s.sgo := by induction cs generalizing s with | nil => rfl | cons c r ih => simp [changes, ih]

@[simp] theorem changes_otherGo (s : State) (k cl : Nat) (cs : List Change) : (changes s k cl cs).otherGo = s.otherGo := by induction cs generalizing s with | nil => rfl | cons c r ih => simp [changes, ih]

@[simp] theorem changes_now (s : State) (k cl : Nat) (cs : List Change) : (changes s k cl cs).now = s.now := by induction cs generalizing s with | nil => rfl | cons c r ih => simp [changes, ih]

@[simp] theorem changes_served (s : State) (k cl : Nat) (cs : List Change) : (changes s k cl cs).served = s.served := by induction cs generalizing s with | nil => rfl | cons c r ih => simp [changes, ih]

@[simp] theorem changes_granted (s : State) (k cl : Nat) (cs : List Change) : (changes s k cl cs).granted = s.granted := by induction cs generalizing s with | nil => rfl | cons c r ih => simp [changes, ih]

@[simp] theorem changes_banksUsed (s : State) (k cl : Nat) (cs : List Change) : (changes s k cl cs).banksUsed = s.banksUsed := by induction cs generalizing s with | nil => rfl | cons c r ih => simp [changes, ih]

@[simp] theorem changes_pace (s : State) (k cl : Nat) (cs : List Change) : (changes s k cl cs).pace = s.pace := by induction cs generalizing s with | nil => rfl | cons c r ih => simp [changes, ih]

@[simp] theorem changes_fresh (s : State) (k cl : Nat) (cs : List Change) : (changes s k cl cs).fresh = s.fresh := by induction cs generalizing s with | nil => rfl | cons c r ih => simp [changes, ih]

@[simp] theorem changes_core_index (s : State) (k cl : Nat) (cs : List Change) : (changes s k cl cs).core.index = s.core.index := by induction cs generalizing s with | nil => rfl | cons c r ih => simp [changes, ih]

@[simp] theorem changes_core_slot0 (s : State) (k cl : Nat) (cs : List Change) : (changes s k cl cs).core.slot0 = s.core.slot0 := by induction cs generalizing s with | nil => rfl | cons c r ih => simp [changes, ih]

@[simp] theorem changes_core_slot1 (s : State) (k cl : Nat) (cs : List Change) : (changes s k cl cs).core.slot1 = s.core.slot1 := by induction cs generalizing s with | nil => rfl | cons c r ih => simp [changes, ih]

@[simp] theorem changes_core_act (s : State) (k cl : Nat) (cs : List Change) : (changes s k cl cs).core.act = s.core.act := by induction cs generalizing s with | nil => rfl | cons c r ih => simp [changes, ih]

@[simp] theorem changes_core_deadTill (s : State) (k cl : Nat) (cs : List Change) : (changes s k cl cs).core.deadTill = s.core.deadTill := by induction cs generalizing s with | nil => rfl | cons c r ih => simp [changes, ih]

@[simp] theorem changes_core_clauses (s : State) (k cl : Nat) (cs : List Change) : (changes s k cl cs).core.clauses = s.core.clauses := by induction cs generalizing s with | nil => rfl | cons c r ih => simp [changes, ih]

@[simp] theorem changes_core_held (s : State) (k cl : Nat) (cs : List Change) : (changes s k cl cs).core.held = s.core.held := by induction cs generalizing s with | nil => rfl | cons c r ih => simp [changes, ih]

@[simp] theorem changes_core_out (s : State) (k cl : Nat) (cs : List Change) : (changes s k cl cs).core.out = s.core.out := by induction cs generalizing s with | nil => rfl | cons c r ih => simp [changes, ih]

@[simp] theorem changes_core_spad (s : State) (k cl : Nat) (cs : List Change) : (changes s k cl cs).core.spad = s.core.spad := by induction cs generalizing s with | nil => rfl | cons c r ih => simp [changes, ih]

@[simp] theorem changes_core_poison (s : State) (k cl : Nat) (cs : List Change) : (changes s k cl cs).core.poison = s.core.poison := by induction cs generalizing s with | nil => rfl | cons c r ih => simp [changes, ih]

@[simp] theorem changes_core_badRows (s : State) (k cl : Nat) (cs : List Change) : (changes s k cl cs).core.badRows = s.core.badRows := by induction cs generalizing s with | nil => rfl | cons c r ih => simp [changes, ih]

@[simp] theorem changes_core_cells (s : State) (k cl : Nat) (cs : List Change) : (changes s k cl cs).core.cells = s.core.cells := by induction cs generalizing s with | nil => rfl | cons c r ih => simp [changes, ih]

@[simp] theorem changes_core_headers (s : State) (k cl : Nat) (cs : List Change) : (changes s k cl cs).core.headers = s.core.headers := by induction cs generalizing s with | nil => rfl | cons c r ih => simp [changes, ih]

@[simp] theorem changes_core_grads (s : State) (k cl : Nat) (cs : List Change) : (changes s k cl cs).core.grads = s.core.grads := by induction cs generalizing s with | nil => rfl | cons c r ih => simp [changes, ih]

@[simp] theorem changes_core_tiles (s : State) (k cl : Nat) (cs : List Change) : (changes s k cl cs).core.tiles = s.core.tiles := by induction cs generalizing s with | nil => rfl | cons c r ih => simp [changes, ih]

@[simp] theorem changes_core_affine (s : State) (k cl : Nat) (cs : List Change) : (changes s k cl cs).core.affine = s.core.affine := by induction cs generalizing s with | nil => rfl | cons c r ih => simp [changes, ih]

@[simp] theorem changes_core_cmds (s : State) (k cl : Nat) (cs : List Change) : (changes s k cl cs).core.cmds = s.core.cmds := by induction cs generalizing s with | nil => rfl | cons c r ih => simp [changes, ih]

@[simp] theorem changes_core_nextId (s : State) (k cl : Nat) (cs : List Change) : (changes s k cl cs).core.nextId = s.core.nextId := by induction cs generalizing s with | nil => rfl | cons c r ih => simp [changes, ih]

@[simp] theorem changes_core_rollAt (s : State) (k cl : Nat) (cs : List Change) : (changes s k cl cs).core.rollAt = s.core.rollAt := by induction cs generalizing s with | nil => rfl | cons c r ih => simp [changes, ih]

@[simp] theorem changes_core_sealedExec (s : State) (k cl : Nat) (cs : List Change) : (changes s k cl cs).core.sealedExec = s.core.sealedExec := by induction cs generalizing s with | nil => rfl | cons c r ih => simp [changes, ih]

@[simp] theorem changes_core_pastRuns (s : State) (k cl : Nat) (cs : List Change) : (changes s k cl cs).core.pastRuns = s.core.pastRuns := by induction cs generalizing s with | nil => rfl | cons c r ih => simp [changes, ih]

@[simp] theorem changes_core_oldFences (s : State) (k cl : Nat) (cs : List Change) : (changes s k cl cs).core.oldFences = s.core.oldFences := by induction cs generalizing s with | nil => rfl | cons c r ih => simp [changes, ih]

@[simp] theorem changes_core_placed (s : State) (k cl : Nat) (cs : List Change) : (changes s k cl cs).core.placed = s.core.placed := by induction cs generalizing s with | nil => rfl | cons c r ih => simp [changes, ih]

@[simp] theorem changes_core_fenced (s : State) (k cl : Nat) (cs : List Change) : (changes s k cl cs).core.fenced = s.core.fenced := by induction cs generalizing s with | nil => rfl | cons c r ih => simp [changes, ih]

@[simp] theorem changes_core_undoUsed (s : State) (k cl : Nat) (cs : List Change) : (changes s k cl cs).core.undoUsed = s.core.undoUsed := by induction cs generalizing s with | nil => rfl | cons c r ih => simp [changes, ih]

@[simp] theorem changes_core_dtlb (s : State) (k cl : Nat) (cs : List Change) : (changes s k cl cs).core.dtlb = s.core.dtlb := by induction cs generalizing s with | nil => rfl | cons c r ih => simp [changes, ih]

@[simp] theorem changes_core_itlbA (s : State) (k cl : Nat) (cs : List Change) : (changes s k cl cs).core.itlbA = s.core.itlbA := by induction cs generalizing s with | nil => rfl | cons c r ih => simp [changes, ih]

@[simp] theorem changes_core_itlbX0 (s : State) (k cl : Nat) (cs : List Change) : (changes s k cl cs).core.itlbX0 = s.core.itlbX0 := by induction cs generalizing s with | nil => rfl | cons c r ih => simp [changes, ih]

@[simp] theorem changes_core_itlbX1 (s : State) (k cl : Nat) (cs : List Change) : (changes s k cl cs).core.itlbX1 = s.core.itlbX1 := by induction cs generalizing s with | nil => rfl | cons c r ih => simp [changes, ih]

@[simp] theorem changes_core_itlbC (s : State) (k cl : Nat) (cs : List Change) : (changes s k cl cs).core.itlbC = s.core.itlbC := by induction cs generalizing s with | nil => rfl | cons c r ih => simp [changes, ih]

@[simp] theorem changes_core_freeze (s : State) (k cl : Nat) (cs : List Change) : (changes s k cl cs).core.freeze = s.core.freeze := by induction cs generalizing s with | nil => rfl | cons c r ih => simp [changes, ih]

@[simp] theorem changes_core_bankMatrix (s : State) (k cl : Nat) (cs : List Change) : (changes s k cl cs).core.bankMatrix = s.core.bankMatrix := by induction cs generalizing s with | nil => rfl | cons c r ih => simp [changes, ih]

@[simp] theorem changes_core_bankSnap (s : State) (k cl : Nat) (cs : List Change) : (changes s k cl cs).core.bankSnap = s.core.bankSnap := by induction cs generalizing s with | nil => rfl | cons c r ih => simp [changes, ih]

@[simp] theorem changes_core_streamTurns (s : State) (k cl : Nat) (cs : List Change) : (changes s k cl cs).core.streamTurns = s.core.streamTurns := by induction cs generalizing s with | nil => rfl | cons c r ih => simp [changes, ih]

@[simp] theorem changes_core_streamWait (s : State) (k cl : Nat) (cs : List Change) : (changes s k cl cs).core.streamWait = s.core.streamWait := by induction cs generalizing s with | nil => rfl | cons c r ih => simp [changes, ih]

@[simp] theorem changes_core_streamLast (s : State) (k cl : Nat) (cs : List Change) : (changes s k cl cs).core.streamLast = s.core.streamLast := by induction cs generalizing s with | nil => rfl | cons c r ih => simp [changes, ih]

@[simp] theorem changes_core_nwrs (s : State) (k cl : Nat) (cs : List Change) : (changes s k cl cs).core.nwrs = s.core.nwrs := by induction cs generalizing s with | nil => rfl | cons c r ih => simp [changes, ih]

@[simp] theorem changes_core_consumed (s : State) (k cl : Nat) (cs : List Change) : (changes s k cl cs).core.consumed = s.core.consumed := by induction cs generalizing s with | nil => rfl | cons c r ih => simp [changes, ih]

@[simp] theorem changes_core_counted (s : State) (k cl : Nat) (cs : List Change) : (changes s k cl cs).core.counted = s.core.counted := by induction cs generalizing s with | nil => rfl | cons c r ih => simp [changes, ih]

@[simp] theorem changeAt_cluster (s : State) (h : Here) (c : Change) : (changeAt s h c).cluster = s.cluster := by simp [changeAt]

@[simp] theorem changeAt_pkg (s : State) (h : Here) (c : Change) : (changeAt s h c).pkg = s.pkg := by simp [changeAt]

@[simp] theorem changeAt_inbox (s : State) (h : Here) (c : Change) : (changeAt s h c).inbox = s.inbox := by simp [changeAt]

@[simp] theorem changeAt_turn (s : State) (h : Here) (c : Change) : (changeAt s h c).turn = s.turn := by simp [changeAt]

@[simp] theorem changeAt_pastEdge (s : State) (h : Here) (c : Change) : (changeAt s h c).pastEdge = s.pastEdge := by simp [changeAt]

@[simp] theorem changeAt_syncNow (s : State) (h : Here) (c : Change) : (changeAt s h c).syncNow = s.syncNow := by simp [changeAt]

@[simp] theorem changeAt_sgo (s : State) (h : Here) (c : Change) : (changeAt s h c).sgo = s.sgo := by simp [changeAt]

@[simp] theorem changeAt_otherGo (s : State) (h : Here) (c : Change) : (changeAt s h c).otherGo = s.otherGo := by simp [changeAt]

@[simp] theorem changeAt_now (s : State) (h : Here) (c : Change) : (changeAt s h c).now = s.now := by simp [changeAt]

@[simp] theorem changeAt_served (s : State) (h : Here) (c : Change) : (changeAt s h c).served = s.served := by simp [changeAt]

@[simp] theorem changeAt_granted (s : State) (h : Here) (c : Change) : (changeAt s h c).granted = s.granted := by simp [changeAt]

@[simp] theorem changeAt_banksUsed (s : State) (h : Here) (c : Change) : (changeAt s h c).banksUsed = s.banksUsed := by simp [changeAt]

@[simp] theorem changeAt_pace (s : State) (h : Here) (c : Change) : (changeAt s h c).pace = s.pace := by simp [changeAt]

@[simp] theorem changeAt_fresh (s : State) (h : Here) (c : Change) : (changeAt s h c).fresh = s.fresh := by simp [changeAt]

@[simp] theorem changeAt_core_index (s : State) (h : Here) (c : Change) : (changeAt s h c).core.index = s.core.index := by simp [changeAt]

@[simp] theorem changeAt_core_slot0 (s : State) (h : Here) (c : Change) : (changeAt s h c).core.slot0 = s.core.slot0 := by simp [changeAt]

@[simp] theorem changeAt_core_slot1 (s : State) (h : Here) (c : Change) : (changeAt s h c).core.slot1 = s.core.slot1 := by simp [changeAt]

@[simp] theorem changeAt_core_act (s : State) (h : Here) (c : Change) : (changeAt s h c).core.act = s.core.act := by simp [changeAt]

@[simp] theorem changeAt_core_deadTill (s : State) (h : Here) (c : Change) : (changeAt s h c).core.deadTill = s.core.deadTill := by simp [changeAt]

@[simp] theorem changeAt_core_clauses (s : State) (h : Here) (c : Change) : (changeAt s h c).core.clauses = s.core.clauses := by simp [changeAt]

@[simp] theorem changeAt_core_held (s : State) (h : Here) (c : Change) : (changeAt s h c).core.held = s.core.held := by simp [changeAt]

@[simp] theorem changeAt_core_out (s : State) (h : Here) (c : Change) : (changeAt s h c).core.out = s.core.out := by simp [changeAt]

@[simp] theorem changeAt_core_spad (s : State) (h : Here) (c : Change) : (changeAt s h c).core.spad = s.core.spad := by simp [changeAt]

@[simp] theorem changeAt_core_poison (s : State) (h : Here) (c : Change) : (changeAt s h c).core.poison = s.core.poison := by simp [changeAt]

@[simp] theorem changeAt_core_badRows (s : State) (h : Here) (c : Change) : (changeAt s h c).core.badRows = s.core.badRows := by simp [changeAt]

@[simp] theorem changeAt_core_cells (s : State) (h : Here) (c : Change) : (changeAt s h c).core.cells = s.core.cells := by simp [changeAt]

@[simp] theorem changeAt_core_headers (s : State) (h : Here) (c : Change) : (changeAt s h c).core.headers = s.core.headers := by simp [changeAt]

@[simp] theorem changeAt_core_grads (s : State) (h : Here) (c : Change) : (changeAt s h c).core.grads = s.core.grads := by simp [changeAt]

@[simp] theorem changeAt_core_tiles (s : State) (h : Here) (c : Change) : (changeAt s h c).core.tiles = s.core.tiles := by simp [changeAt]

@[simp] theorem changeAt_core_affine (s : State) (h : Here) (c : Change) : (changeAt s h c).core.affine = s.core.affine := by simp [changeAt]

@[simp] theorem changeAt_core_cmds (s : State) (h : Here) (c : Change) : (changeAt s h c).core.cmds = s.core.cmds := by simp [changeAt]

@[simp] theorem changeAt_core_nextId (s : State) (h : Here) (c : Change) : (changeAt s h c).core.nextId = s.core.nextId := by simp [changeAt]

@[simp] theorem changeAt_core_rollAt (s : State) (h : Here) (c : Change) : (changeAt s h c).core.rollAt = s.core.rollAt := by simp [changeAt]

@[simp] theorem changeAt_core_sealedExec (s : State) (h : Here) (c : Change) : (changeAt s h c).core.sealedExec = s.core.sealedExec := by simp [changeAt]

@[simp] theorem changeAt_core_pastRuns (s : State) (h : Here) (c : Change) : (changeAt s h c).core.pastRuns = s.core.pastRuns := by simp [changeAt]

@[simp] theorem changeAt_core_oldFences (s : State) (h : Here) (c : Change) : (changeAt s h c).core.oldFences = s.core.oldFences := by simp [changeAt]

@[simp] theorem changeAt_core_placed (s : State) (h : Here) (c : Change) : (changeAt s h c).core.placed = s.core.placed := by simp [changeAt]

@[simp] theorem changeAt_core_fenced (s : State) (h : Here) (c : Change) : (changeAt s h c).core.fenced = s.core.fenced := by simp [changeAt]

@[simp] theorem changeAt_core_undoUsed (s : State) (h : Here) (c : Change) : (changeAt s h c).core.undoUsed = s.core.undoUsed := by simp [changeAt]

@[simp] theorem changeAt_core_dtlb (s : State) (h : Here) (c : Change) : (changeAt s h c).core.dtlb = s.core.dtlb := by simp [changeAt]

@[simp] theorem changeAt_core_itlbA (s : State) (h : Here) (c : Change) : (changeAt s h c).core.itlbA = s.core.itlbA := by simp [changeAt]

@[simp] theorem changeAt_core_itlbX0 (s : State) (h : Here) (c : Change) : (changeAt s h c).core.itlbX0 = s.core.itlbX0 := by simp [changeAt]

@[simp] theorem changeAt_core_itlbX1 (s : State) (h : Here) (c : Change) : (changeAt s h c).core.itlbX1 = s.core.itlbX1 := by simp [changeAt]

@[simp] theorem changeAt_core_itlbC (s : State) (h : Here) (c : Change) : (changeAt s h c).core.itlbC = s.core.itlbC := by simp [changeAt]

@[simp] theorem changeAt_core_freeze (s : State) (h : Here) (c : Change) : (changeAt s h c).core.freeze = s.core.freeze := by simp [changeAt]

@[simp] theorem changeAt_core_bankMatrix (s : State) (h : Here) (c : Change) : (changeAt s h c).core.bankMatrix = s.core.bankMatrix := by simp [changeAt]

@[simp] theorem changeAt_core_bankSnap (s : State) (h : Here) (c : Change) : (changeAt s h c).core.bankSnap = s.core.bankSnap := by simp [changeAt]

@[simp] theorem changeAt_core_streamTurns (s : State) (h : Here) (c : Change) : (changeAt s h c).core.streamTurns = s.core.streamTurns := by simp [changeAt]

@[simp] theorem changeAt_core_streamWait (s : State) (h : Here) (c : Change) : (changeAt s h c).core.streamWait = s.core.streamWait := by simp [changeAt]

@[simp] theorem changeAt_core_streamLast (s : State) (h : Here) (c : Change) : (changeAt s h c).core.streamLast = s.core.streamLast := by simp [changeAt]

@[simp] theorem changeAt_core_nwrs (s : State) (h : Here) (c : Change) : (changeAt s h c).core.nwrs = s.core.nwrs := by simp [changeAt]

@[simp] theorem changeAt_core_consumed (s : State) (h : Here) (c : Change) : (changeAt s h c).core.consumed = s.core.consumed := by simp [changeAt]

@[simp] theorem changeAt_core_counted (s : State) (h : Here) (c : Change) : (changeAt s h c).core.counted = s.core.counted := by simp [changeAt]

@[simp] theorem pmCount_cluster (s : State) (k cl ev n : Nat) : (pmCount s k cl ev n).cluster = s.cluster := by simp [pmCount, countNow]

@[simp] theorem pmCount_pkg (s : State) (k cl ev n : Nat) : (pmCount s k cl ev n).pkg = s.pkg := by simp [pmCount, countNow]

@[simp] theorem pmCount_inbox (s : State) (k cl ev n : Nat) : (pmCount s k cl ev n).inbox = s.inbox := by simp [pmCount, countNow]

@[simp] theorem pmCount_turn (s : State) (k cl ev n : Nat) : (pmCount s k cl ev n).turn = s.turn := by simp [pmCount, countNow]

@[simp] theorem pmCount_pastEdge (s : State) (k cl ev n : Nat) : (pmCount s k cl ev n).pastEdge = s.pastEdge := by simp [pmCount, countNow]

@[simp] theorem pmCount_syncNow (s : State) (k cl ev n : Nat) : (pmCount s k cl ev n).syncNow = s.syncNow := by simp [pmCount, countNow]

@[simp] theorem pmCount_sgo (s : State) (k cl ev n : Nat) : (pmCount s k cl ev n).sgo = s.sgo := by simp [pmCount, countNow]

@[simp] theorem pmCount_otherGo (s : State) (k cl ev n : Nat) : (pmCount s k cl ev n).otherGo = s.otherGo := by simp [pmCount, countNow]

@[simp] theorem pmCount_now (s : State) (k cl ev n : Nat) : (pmCount s k cl ev n).now = s.now := by simp [pmCount, countNow]

@[simp] theorem pmCount_served (s : State) (k cl ev n : Nat) : (pmCount s k cl ev n).served = s.served := by simp [pmCount, countNow]

@[simp] theorem pmCount_granted (s : State) (k cl ev n : Nat) : (pmCount s k cl ev n).granted = s.granted := by simp [pmCount, countNow]

@[simp] theorem pmCount_banksUsed (s : State) (k cl ev n : Nat) : (pmCount s k cl ev n).banksUsed = s.banksUsed := by simp [pmCount, countNow]

@[simp] theorem pmCount_pace (s : State) (k cl ev n : Nat) : (pmCount s k cl ev n).pace = s.pace := by simp [pmCount, countNow]

@[simp] theorem pmCount_fresh (s : State) (k cl ev n : Nat) : (pmCount s k cl ev n).fresh = s.fresh := by simp [pmCount, countNow]

@[simp] theorem pmCount_core_index (s : State) (k cl ev n : Nat) : (pmCount s k cl ev n).core.index = s.core.index := by simp [pmCount, countNow]

@[simp] theorem pmCount_core_slot0 (s : State) (k cl ev n : Nat) : (pmCount s k cl ev n).core.slot0 = s.core.slot0 := by simp [pmCount, countNow]

@[simp] theorem pmCount_core_slot1 (s : State) (k cl ev n : Nat) : (pmCount s k cl ev n).core.slot1 = s.core.slot1 := by simp [pmCount, countNow]

@[simp] theorem pmCount_core_act (s : State) (k cl ev n : Nat) : (pmCount s k cl ev n).core.act = s.core.act := by simp [pmCount, countNow]

@[simp] theorem pmCount_core_deadTill (s : State) (k cl ev n : Nat) : (pmCount s k cl ev n).core.deadTill = s.core.deadTill := by simp [pmCount, countNow]

@[simp] theorem pmCount_core_clauses (s : State) (k cl ev n : Nat) : (pmCount s k cl ev n).core.clauses = s.core.clauses := by simp [pmCount, countNow]

@[simp] theorem pmCount_core_held (s : State) (k cl ev n : Nat) : (pmCount s k cl ev n).core.held = s.core.held := by simp [pmCount, countNow]

@[simp] theorem pmCount_core_out (s : State) (k cl ev n : Nat) : (pmCount s k cl ev n).core.out = s.core.out := by simp [pmCount, countNow]

@[simp] theorem pmCount_core_spad (s : State) (k cl ev n : Nat) : (pmCount s k cl ev n).core.spad = s.core.spad := by simp [pmCount, countNow]

@[simp] theorem pmCount_core_poison (s : State) (k cl ev n : Nat) : (pmCount s k cl ev n).core.poison = s.core.poison := by simp [pmCount, countNow]

@[simp] theorem pmCount_core_badRows (s : State) (k cl ev n : Nat) : (pmCount s k cl ev n).core.badRows = s.core.badRows := by simp [pmCount, countNow]

@[simp] theorem pmCount_core_cells (s : State) (k cl ev n : Nat) : (pmCount s k cl ev n).core.cells = s.core.cells := by simp [pmCount, countNow]

@[simp] theorem pmCount_core_headers (s : State) (k cl ev n : Nat) : (pmCount s k cl ev n).core.headers = s.core.headers := by simp [pmCount, countNow]

@[simp] theorem pmCount_core_grads (s : State) (k cl ev n : Nat) : (pmCount s k cl ev n).core.grads = s.core.grads := by simp [pmCount, countNow]

@[simp] theorem pmCount_core_tiles (s : State) (k cl ev n : Nat) : (pmCount s k cl ev n).core.tiles = s.core.tiles := by simp [pmCount, countNow]

@[simp] theorem pmCount_core_affine (s : State) (k cl ev n : Nat) : (pmCount s k cl ev n).core.affine = s.core.affine := by simp [pmCount, countNow]

@[simp] theorem pmCount_core_cmds (s : State) (k cl ev n : Nat) : (pmCount s k cl ev n).core.cmds = s.core.cmds := by simp [pmCount, countNow]

@[simp] theorem pmCount_core_nextId (s : State) (k cl ev n : Nat) : (pmCount s k cl ev n).core.nextId = s.core.nextId := by simp [pmCount, countNow]

@[simp] theorem pmCount_core_rollAt (s : State) (k cl ev n : Nat) : (pmCount s k cl ev n).core.rollAt = s.core.rollAt := by simp [pmCount, countNow]

@[simp] theorem pmCount_core_sealedExec (s : State) (k cl ev n : Nat) : (pmCount s k cl ev n).core.sealedExec = s.core.sealedExec := by simp [pmCount, countNow]

@[simp] theorem pmCount_core_pastRuns (s : State) (k cl ev n : Nat) : (pmCount s k cl ev n).core.pastRuns = s.core.pastRuns := by simp [pmCount, countNow]

@[simp] theorem pmCount_core_oldFences (s : State) (k cl ev n : Nat) : (pmCount s k cl ev n).core.oldFences = s.core.oldFences := by simp [pmCount, countNow]

@[simp] theorem pmCount_core_placed (s : State) (k cl ev n : Nat) : (pmCount s k cl ev n).core.placed = s.core.placed := by simp [pmCount, countNow]

@[simp] theorem pmCount_core_fenced (s : State) (k cl ev n : Nat) : (pmCount s k cl ev n).core.fenced = s.core.fenced := by simp [pmCount, countNow]

@[simp] theorem pmCount_core_undoUsed (s : State) (k cl ev n : Nat) : (pmCount s k cl ev n).core.undoUsed = s.core.undoUsed := by simp [pmCount, countNow]

@[simp] theorem pmCount_core_dtlb (s : State) (k cl ev n : Nat) : (pmCount s k cl ev n).core.dtlb = s.core.dtlb := by simp [pmCount, countNow]

@[simp] theorem pmCount_core_itlbA (s : State) (k cl ev n : Nat) : (pmCount s k cl ev n).core.itlbA = s.core.itlbA := by simp [pmCount, countNow]

@[simp] theorem pmCount_core_itlbX0 (s : State) (k cl ev n : Nat) : (pmCount s k cl ev n).core.itlbX0 = s.core.itlbX0 := by simp [pmCount, countNow]

@[simp] theorem pmCount_core_itlbX1 (s : State) (k cl ev n : Nat) : (pmCount s k cl ev n).core.itlbX1 = s.core.itlbX1 := by simp [pmCount, countNow]

@[simp] theorem pmCount_core_itlbC (s : State) (k cl ev n : Nat) : (pmCount s k cl ev n).core.itlbC = s.core.itlbC := by simp [pmCount, countNow]

@[simp] theorem pmCount_core_freeze (s : State) (k cl ev n : Nat) : (pmCount s k cl ev n).core.freeze = s.core.freeze := by simp [pmCount, countNow]

@[simp] theorem pmCount_core_bankMatrix (s : State) (k cl ev n : Nat) : (pmCount s k cl ev n).core.bankMatrix = s.core.bankMatrix := by simp [pmCount, countNow]

@[simp] theorem pmCount_core_bankSnap (s : State) (k cl ev n : Nat) : (pmCount s k cl ev n).core.bankSnap = s.core.bankSnap := by simp [pmCount, countNow]

@[simp] theorem pmCount_core_streamTurns (s : State) (k cl ev n : Nat) : (pmCount s k cl ev n).core.streamTurns = s.core.streamTurns := by simp [pmCount, countNow]

@[simp] theorem pmCount_core_streamWait (s : State) (k cl ev n : Nat) : (pmCount s k cl ev n).core.streamWait = s.core.streamWait := by simp [pmCount, countNow]

@[simp] theorem pmCount_core_streamLast (s : State) (k cl ev n : Nat) : (pmCount s k cl ev n).core.streamLast = s.core.streamLast := by simp [pmCount, countNow]

@[simp] theorem pmCount_core_nwrs (s : State) (k cl ev n : Nat) : (pmCount s k cl ev n).core.nwrs = s.core.nwrs := by simp [pmCount, countNow]

@[simp] theorem pmCount_core_consumed (s : State) (k cl ev n : Nat) : (pmCount s k cl ev n).core.consumed = s.core.consumed := by simp [pmCount, countNow]

@[simp] theorem recordWrites_cluster (h : Here) (ws : List Wr) (s : State) : (recordWrites h ws s).cluster = s.cluster := by simp [recordWrites]

@[simp] theorem recordWrites_pkg (h : Here) (ws : List Wr) (s : State) : (recordWrites h ws s).pkg = s.pkg := by simp [recordWrites]

@[simp] theorem recordWrites_inbox (h : Here) (ws : List Wr) (s : State) : (recordWrites h ws s).inbox = s.inbox := by simp [recordWrites]

@[simp] theorem recordWrites_turn (h : Here) (ws : List Wr) (s : State) : (recordWrites h ws s).turn = s.turn := by simp [recordWrites]

@[simp] theorem recordWrites_pastEdge (h : Here) (ws : List Wr) (s : State) : (recordWrites h ws s).pastEdge = s.pastEdge := by simp [recordWrites]

@[simp] theorem recordWrites_syncNow (h : Here) (ws : List Wr) (s : State) : (recordWrites h ws s).syncNow = s.syncNow := by simp [recordWrites]

@[simp] theorem recordWrites_sgo (h : Here) (ws : List Wr) (s : State) : (recordWrites h ws s).sgo = s.sgo := by simp [recordWrites]

@[simp] theorem recordWrites_otherGo (h : Here) (ws : List Wr) (s : State) : (recordWrites h ws s).otherGo = s.otherGo := by simp [recordWrites]

@[simp] theorem recordWrites_now (h : Here) (ws : List Wr) (s : State) : (recordWrites h ws s).now = s.now := by simp [recordWrites]

@[simp] theorem recordWrites_served (h : Here) (ws : List Wr) (s : State) : (recordWrites h ws s).served = s.served := by simp [recordWrites]

@[simp] theorem recordWrites_granted (h : Here) (ws : List Wr) (s : State) : (recordWrites h ws s).granted = s.granted := by simp [recordWrites]

@[simp] theorem recordWrites_banksUsed (h : Here) (ws : List Wr) (s : State) : (recordWrites h ws s).banksUsed = s.banksUsed := by simp [recordWrites]

@[simp] theorem recordWrites_pace (h : Here) (ws : List Wr) (s : State) : (recordWrites h ws s).pace = s.pace := by simp [recordWrites]

@[simp] theorem recordWrites_fresh (h : Here) (ws : List Wr) (s : State) : (recordWrites h ws s).fresh = s.fresh := by simp [recordWrites]

@[simp] theorem recordWrites_core_index (h : Here) (ws : List Wr) (s : State) : (recordWrites h ws s).core.index = s.core.index := by simp [recordWrites]

@[simp] theorem recordWrites_core_act (h : Here) (ws : List Wr) (s : State) : (recordWrites h ws s).core.act = s.core.act := by simp [recordWrites]

@[simp] theorem recordWrites_core_deadTill (h : Here) (ws : List Wr) (s : State) : (recordWrites h ws s).core.deadTill = s.core.deadTill := by simp [recordWrites]

@[simp] theorem recordWrites_core_clauses (h : Here) (ws : List Wr) (s : State) : (recordWrites h ws s).core.clauses = s.core.clauses := by simp [recordWrites]

@[simp] theorem recordWrites_core_held (h : Here) (ws : List Wr) (s : State) : (recordWrites h ws s).core.held = s.core.held := by simp [recordWrites]

@[simp] theorem recordWrites_core_out (h : Here) (ws : List Wr) (s : State) : (recordWrites h ws s).core.out = s.core.out := by simp [recordWrites]

@[simp] theorem recordWrites_core_spad (h : Here) (ws : List Wr) (s : State) : (recordWrites h ws s).core.spad = s.core.spad := by simp [recordWrites]

@[simp] theorem recordWrites_core_poison (h : Here) (ws : List Wr) (s : State) : (recordWrites h ws s).core.poison = s.core.poison := by simp [recordWrites]

@[simp] theorem recordWrites_core_badRows (h : Here) (ws : List Wr) (s : State) : (recordWrites h ws s).core.badRows = s.core.badRows := by simp [recordWrites]

@[simp] theorem recordWrites_core_cells (h : Here) (ws : List Wr) (s : State) : (recordWrites h ws s).core.cells = s.core.cells := by simp [recordWrites]

@[simp] theorem recordWrites_core_headers (h : Here) (ws : List Wr) (s : State) : (recordWrites h ws s).core.headers = s.core.headers := by simp [recordWrites]

@[simp] theorem recordWrites_core_grads (h : Here) (ws : List Wr) (s : State) : (recordWrites h ws s).core.grads = s.core.grads := by simp [recordWrites]

@[simp] theorem recordWrites_core_tiles (h : Here) (ws : List Wr) (s : State) : (recordWrites h ws s).core.tiles = s.core.tiles := by simp [recordWrites]

@[simp] theorem recordWrites_core_affine (h : Here) (ws : List Wr) (s : State) : (recordWrites h ws s).core.affine = s.core.affine := by simp [recordWrites]

@[simp] theorem recordWrites_core_cmds (h : Here) (ws : List Wr) (s : State) : (recordWrites h ws s).core.cmds = s.core.cmds := by simp [recordWrites]

@[simp] theorem recordWrites_core_nextId (h : Here) (ws : List Wr) (s : State) : (recordWrites h ws s).core.nextId = s.core.nextId := by simp [recordWrites]

@[simp] theorem recordWrites_core_rollAt (h : Here) (ws : List Wr) (s : State) : (recordWrites h ws s).core.rollAt = s.core.rollAt := by simp [recordWrites]

@[simp] theorem recordWrites_core_sealedExec (h : Here) (ws : List Wr) (s : State) : (recordWrites h ws s).core.sealedExec = s.core.sealedExec := by simp [recordWrites]

@[simp] theorem recordWrites_core_pastRuns (h : Here) (ws : List Wr) (s : State) : (recordWrites h ws s).core.pastRuns = s.core.pastRuns := by simp [recordWrites]

@[simp] theorem recordWrites_core_oldFences (h : Here) (ws : List Wr) (s : State) : (recordWrites h ws s).core.oldFences = s.core.oldFences := by simp [recordWrites]

@[simp] theorem recordWrites_core_placed (h : Here) (ws : List Wr) (s : State) : (recordWrites h ws s).core.placed = s.core.placed := by simp [recordWrites]

@[simp] theorem recordWrites_core_fenced (h : Here) (ws : List Wr) (s : State) : (recordWrites h ws s).core.fenced = s.core.fenced := by simp [recordWrites]

@[simp] theorem recordWrites_core_undoUsed (h : Here) (ws : List Wr) (s : State) : (recordWrites h ws s).core.undoUsed = s.core.undoUsed := by simp [recordWrites]

@[simp] theorem recordWrites_core_dtlb (h : Here) (ws : List Wr) (s : State) : (recordWrites h ws s).core.dtlb = s.core.dtlb := by simp [recordWrites]

@[simp] theorem recordWrites_core_itlbA (h : Here) (ws : List Wr) (s : State) : (recordWrites h ws s).core.itlbA = s.core.itlbA := by simp [recordWrites]

@[simp] theorem recordWrites_core_itlbX0 (h : Here) (ws : List Wr) (s : State) : (recordWrites h ws s).core.itlbX0 = s.core.itlbX0 := by simp [recordWrites]

@[simp] theorem recordWrites_core_itlbX1 (h : Here) (ws : List Wr) (s : State) : (recordWrites h ws s).core.itlbX1 = s.core.itlbX1 := by simp [recordWrites]

@[simp] theorem recordWrites_core_itlbC (h : Here) (ws : List Wr) (s : State) : (recordWrites h ws s).core.itlbC = s.core.itlbC := by simp [recordWrites]

@[simp] theorem recordWrites_core_freeze (h : Here) (ws : List Wr) (s : State) : (recordWrites h ws s).core.freeze = s.core.freeze := by simp [recordWrites]

@[simp] theorem recordWrites_core_bankMatrix (h : Here) (ws : List Wr) (s : State) : (recordWrites h ws s).core.bankMatrix = s.core.bankMatrix := by simp [recordWrites]

@[simp] theorem recordWrites_core_bankSnap (h : Here) (ws : List Wr) (s : State) : (recordWrites h ws s).core.bankSnap = s.core.bankSnap := by simp [recordWrites]

@[simp] theorem recordWrites_core_streamTurns (h : Here) (ws : List Wr) (s : State) : (recordWrites h ws s).core.streamTurns = s.core.streamTurns := by simp [recordWrites]

@[simp] theorem recordWrites_core_streamWait (h : Here) (ws : List Wr) (s : State) : (recordWrites h ws s).core.streamWait = s.core.streamWait := by simp [recordWrites]

@[simp] theorem recordWrites_core_streamLast (h : Here) (ws : List Wr) (s : State) : (recordWrites h ws s).core.streamLast = s.core.streamLast := by simp [recordWrites]

@[simp] theorem recordWrites_core_nwrs (h : Here) (ws : List Wr) (s : State) : (recordWrites h ws s).core.nwrs = s.core.nwrs := by simp [recordWrites]

@[simp] theorem recordWrites_core_consumed (h : Here) (ws : List Wr) (s : State) : (recordWrites h ws s).core.consumed = s.core.consumed := by simp [recordWrites]

@[simp] theorem bumpId_cluster (s : State) : (bumpId s).cluster = s.cluster := by rfl

@[simp] theorem bumpId_pkg (s : State) : (bumpId s).pkg = s.pkg := by rfl

@[simp] theorem bumpId_inbox (s : State) : (bumpId s).inbox = s.inbox := by rfl

@[simp] theorem bumpId_turn (s : State) : (bumpId s).turn = s.turn := by rfl

@[simp] theorem bumpId_pastEdge (s : State) : (bumpId s).pastEdge = s.pastEdge := by rfl

@[simp] theorem bumpId_syncNow (s : State) : (bumpId s).syncNow = s.syncNow := by rfl

@[simp] theorem bumpId_sgo (s : State) : (bumpId s).sgo = s.sgo := by rfl

@[simp] theorem bumpId_otherGo (s : State) : (bumpId s).otherGo = s.otherGo := by rfl

@[simp] theorem bumpId_now (s : State) : (bumpId s).now = s.now := by rfl

@[simp] theorem bumpId_served (s : State) : (bumpId s).served = s.served := by rfl

@[simp] theorem bumpId_granted (s : State) : (bumpId s).granted = s.granted := by rfl

@[simp] theorem bumpId_banksUsed (s : State) : (bumpId s).banksUsed = s.banksUsed := by rfl

@[simp] theorem bumpId_pace (s : State) : (bumpId s).pace = s.pace := by rfl

@[simp] theorem bumpId_fresh (s : State) : (bumpId s).fresh = s.fresh := by rfl

@[simp] theorem bumpId_core_index (s : State) : (bumpId s).core.index = s.core.index := by rfl

@[simp] theorem bumpId_core_slot0 (s : State) : (bumpId s).core.slot0 = s.core.slot0 := by rfl

@[simp] theorem bumpId_core_slot1 (s : State) : (bumpId s).core.slot1 = s.core.slot1 := by rfl

@[simp] theorem bumpId_core_act (s : State) : (bumpId s).core.act = s.core.act := by rfl

@[simp] theorem bumpId_core_deadTill (s : State) : (bumpId s).core.deadTill = s.core.deadTill := by rfl

@[simp] theorem bumpId_core_ctl (s : State) : (bumpId s).core.ctl = s.core.ctl := by rfl

@[simp] theorem bumpId_core_sctl (s : State) : (bumpId s).core.sctl = s.core.sctl := by rfl

@[simp] theorem bumpId_core_journal (s : State) : (bumpId s).core.journal = s.core.journal := by rfl

@[simp] theorem bumpId_core_clauses (s : State) : (bumpId s).core.clauses = s.core.clauses := by rfl

@[simp] theorem bumpId_core_held (s : State) : (bumpId s).core.held = s.core.held := by rfl

@[simp] theorem bumpId_core_out (s : State) : (bumpId s).core.out = s.core.out := by rfl

@[simp] theorem bumpId_core_spad (s : State) : (bumpId s).core.spad = s.core.spad := by rfl

@[simp] theorem bumpId_core_poison (s : State) : (bumpId s).core.poison = s.core.poison := by rfl

@[simp] theorem bumpId_core_badRows (s : State) : (bumpId s).core.badRows = s.core.badRows := by rfl

@[simp] theorem bumpId_core_cells (s : State) : (bumpId s).core.cells = s.core.cells := by rfl

@[simp] theorem bumpId_core_headers (s : State) : (bumpId s).core.headers = s.core.headers := by rfl

@[simp] theorem bumpId_core_grads (s : State) : (bumpId s).core.grads = s.core.grads := by rfl

@[simp] theorem bumpId_core_tiles (s : State) : (bumpId s).core.tiles = s.core.tiles := by rfl

@[simp] theorem bumpId_core_affine (s : State) : (bumpId s).core.affine = s.core.affine := by rfl

@[simp] theorem bumpId_core_cmds (s : State) : (bumpId s).core.cmds = s.core.cmds := by rfl

@[simp] theorem bumpId_core_rollAt (s : State) : (bumpId s).core.rollAt = s.core.rollAt := by rfl

@[simp] theorem bumpId_core_sealedExec (s : State) : (bumpId s).core.sealedExec = s.core.sealedExec := by rfl

@[simp] theorem bumpId_core_pastRuns (s : State) : (bumpId s).core.pastRuns = s.core.pastRuns := by rfl

@[simp] theorem bumpId_core_oldFences (s : State) : (bumpId s).core.oldFences = s.core.oldFences := by rfl

@[simp] theorem bumpId_core_placed (s : State) : (bumpId s).core.placed = s.core.placed := by rfl

@[simp] theorem bumpId_core_fenced (s : State) : (bumpId s).core.fenced = s.core.fenced := by rfl

@[simp] theorem bumpId_core_undoUsed (s : State) : (bumpId s).core.undoUsed = s.core.undoUsed := by rfl

@[simp] theorem bumpId_core_dtlb (s : State) : (bumpId s).core.dtlb = s.core.dtlb := by rfl

@[simp] theorem bumpId_core_itlbA (s : State) : (bumpId s).core.itlbA = s.core.itlbA := by rfl

@[simp] theorem bumpId_core_itlbX0 (s : State) : (bumpId s).core.itlbX0 = s.core.itlbX0 := by rfl

@[simp] theorem bumpId_core_itlbX1 (s : State) : (bumpId s).core.itlbX1 = s.core.itlbX1 := by rfl

@[simp] theorem bumpId_core_itlbC (s : State) : (bumpId s).core.itlbC = s.core.itlbC := by rfl

@[simp] theorem bumpId_core_freeze (s : State) : (bumpId s).core.freeze = s.core.freeze := by rfl

@[simp] theorem bumpId_core_bankMatrix (s : State) : (bumpId s).core.bankMatrix = s.core.bankMatrix := by rfl

@[simp] theorem bumpId_core_bankSnap (s : State) : (bumpId s).core.bankSnap = s.core.bankSnap := by rfl

@[simp] theorem bumpId_core_streamTurns (s : State) : (bumpId s).core.streamTurns = s.core.streamTurns := by rfl

@[simp] theorem bumpId_core_streamWait (s : State) : (bumpId s).core.streamWait = s.core.streamWait := by rfl

@[simp] theorem bumpId_core_streamLast (s : State) : (bumpId s).core.streamLast = s.core.streamLast := by rfl

@[simp] theorem bumpId_core_nwrs (s : State) : (bumpId s).core.nwrs = s.core.nwrs := by rfl

@[simp] theorem bumpId_core_consumed (s : State) : (bumpId s).core.consumed = s.core.consumed := by rfl

@[simp] theorem bumpId_core_counted (s : State) : (bumpId s).core.counted = s.core.counted := by rfl

@[simp] theorem hold_cluster (s : State) (k cl : Nat) (e : Effect) : (hold s k cl e).cluster = s.cluster := by rfl

@[simp] theorem hold_pkg (s : State) (k cl : Nat) (e : Effect) : (hold s k cl e).pkg = s.pkg := by rfl

@[simp] theorem hold_inbox (s : State) (k cl : Nat) (e : Effect) : (hold s k cl e).inbox = s.inbox := by rfl

@[simp] theorem hold_turn (s : State) (k cl : Nat) (e : Effect) : (hold s k cl e).turn = s.turn := by rfl

@[simp] theorem hold_pastEdge (s : State) (k cl : Nat) (e : Effect) : (hold s k cl e).pastEdge = s.pastEdge := by rfl

@[simp] theorem hold_syncNow (s : State) (k cl : Nat) (e : Effect) : (hold s k cl e).syncNow = s.syncNow := by rfl

@[simp] theorem hold_sgo (s : State) (k cl : Nat) (e : Effect) : (hold s k cl e).sgo = s.sgo := by rfl

@[simp] theorem hold_otherGo (s : State) (k cl : Nat) (e : Effect) : (hold s k cl e).otherGo = s.otherGo := by rfl

@[simp] theorem hold_now (s : State) (k cl : Nat) (e : Effect) : (hold s k cl e).now = s.now := by rfl

@[simp] theorem hold_served (s : State) (k cl : Nat) (e : Effect) : (hold s k cl e).served = s.served := by rfl

@[simp] theorem hold_granted (s : State) (k cl : Nat) (e : Effect) : (hold s k cl e).granted = s.granted := by rfl

@[simp] theorem hold_banksUsed (s : State) (k cl : Nat) (e : Effect) : (hold s k cl e).banksUsed = s.banksUsed := by rfl

@[simp] theorem hold_pace (s : State) (k cl : Nat) (e : Effect) : (hold s k cl e).pace = s.pace := by rfl

@[simp] theorem hold_fresh (s : State) (k cl : Nat) (e : Effect) : (hold s k cl e).fresh = s.fresh := by rfl

@[simp] theorem hold_core_index (s : State) (k cl : Nat) (e : Effect) : (hold s k cl e).core.index = s.core.index := by rfl

@[simp] theorem hold_core_slot0 (s : State) (k cl : Nat) (e : Effect) : (hold s k cl e).core.slot0 = s.core.slot0 := by rfl

@[simp] theorem hold_core_slot1 (s : State) (k cl : Nat) (e : Effect) : (hold s k cl e).core.slot1 = s.core.slot1 := by rfl

@[simp] theorem hold_core_act (s : State) (k cl : Nat) (e : Effect) : (hold s k cl e).core.act = s.core.act := by rfl

@[simp] theorem hold_core_deadTill (s : State) (k cl : Nat) (e : Effect) : (hold s k cl e).core.deadTill = s.core.deadTill := by rfl

@[simp] theorem hold_core_ctl (s : State) (k cl : Nat) (e : Effect) : (hold s k cl e).core.ctl = s.core.ctl := by rfl

@[simp] theorem hold_core_sctl (s : State) (k cl : Nat) (e : Effect) : (hold s k cl e).core.sctl = s.core.sctl := by rfl

@[simp] theorem hold_core_journal (s : State) (k cl : Nat) (e : Effect) : (hold s k cl e).core.journal = s.core.journal := by rfl

@[simp] theorem hold_core_clauses (s : State) (k cl : Nat) (e : Effect) : (hold s k cl e).core.clauses = s.core.clauses := by rfl

@[simp] theorem hold_core_out (s : State) (k cl : Nat) (e : Effect) : (hold s k cl e).core.out = s.core.out := by rfl

@[simp] theorem hold_core_spad (s : State) (k cl : Nat) (e : Effect) : (hold s k cl e).core.spad = s.core.spad := by rfl

@[simp] theorem hold_core_poison (s : State) (k cl : Nat) (e : Effect) : (hold s k cl e).core.poison = s.core.poison := by rfl

@[simp] theorem hold_core_badRows (s : State) (k cl : Nat) (e : Effect) : (hold s k cl e).core.badRows = s.core.badRows := by rfl

@[simp] theorem hold_core_cells (s : State) (k cl : Nat) (e : Effect) : (hold s k cl e).core.cells = s.core.cells := by rfl

@[simp] theorem hold_core_headers (s : State) (k cl : Nat) (e : Effect) : (hold s k cl e).core.headers = s.core.headers := by rfl

@[simp] theorem hold_core_grads (s : State) (k cl : Nat) (e : Effect) : (hold s k cl e).core.grads = s.core.grads := by rfl

@[simp] theorem hold_core_tiles (s : State) (k cl : Nat) (e : Effect) : (hold s k cl e).core.tiles = s.core.tiles := by rfl

@[simp] theorem hold_core_affine (s : State) (k cl : Nat) (e : Effect) : (hold s k cl e).core.affine = s.core.affine := by rfl

@[simp] theorem hold_core_cmds (s : State) (k cl : Nat) (e : Effect) : (hold s k cl e).core.cmds = s.core.cmds := by rfl

@[simp] theorem hold_core_rollAt (s : State) (k cl : Nat) (e : Effect) : (hold s k cl e).core.rollAt = s.core.rollAt := by rfl

@[simp] theorem hold_core_sealedExec (s : State) (k cl : Nat) (e : Effect) : (hold s k cl e).core.sealedExec = s.core.sealedExec := by rfl

@[simp] theorem hold_core_pastRuns (s : State) (k cl : Nat) (e : Effect) : (hold s k cl e).core.pastRuns = s.core.pastRuns := by rfl

@[simp] theorem hold_core_oldFences (s : State) (k cl : Nat) (e : Effect) : (hold s k cl e).core.oldFences = s.core.oldFences := by rfl

@[simp] theorem hold_core_placed (s : State) (k cl : Nat) (e : Effect) : (hold s k cl e).core.placed = s.core.placed := by rfl

@[simp] theorem hold_core_fenced (s : State) (k cl : Nat) (e : Effect) : (hold s k cl e).core.fenced = s.core.fenced := by rfl

@[simp] theorem hold_core_undoUsed (s : State) (k cl : Nat) (e : Effect) : (hold s k cl e).core.undoUsed = s.core.undoUsed := by rfl

@[simp] theorem hold_core_dtlb (s : State) (k cl : Nat) (e : Effect) : (hold s k cl e).core.dtlb = s.core.dtlb := by rfl

@[simp] theorem hold_core_itlbA (s : State) (k cl : Nat) (e : Effect) : (hold s k cl e).core.itlbA = s.core.itlbA := by rfl

@[simp] theorem hold_core_itlbX0 (s : State) (k cl : Nat) (e : Effect) : (hold s k cl e).core.itlbX0 = s.core.itlbX0 := by rfl

@[simp] theorem hold_core_itlbX1 (s : State) (k cl : Nat) (e : Effect) : (hold s k cl e).core.itlbX1 = s.core.itlbX1 := by rfl

@[simp] theorem hold_core_itlbC (s : State) (k cl : Nat) (e : Effect) : (hold s k cl e).core.itlbC = s.core.itlbC := by rfl

@[simp] theorem hold_core_freeze (s : State) (k cl : Nat) (e : Effect) : (hold s k cl e).core.freeze = s.core.freeze := by rfl

@[simp] theorem hold_core_bankMatrix (s : State) (k cl : Nat) (e : Effect) : (hold s k cl e).core.bankMatrix = s.core.bankMatrix := by rfl

@[simp] theorem hold_core_bankSnap (s : State) (k cl : Nat) (e : Effect) : (hold s k cl e).core.bankSnap = s.core.bankSnap := by rfl

@[simp] theorem hold_core_streamTurns (s : State) (k cl : Nat) (e : Effect) : (hold s k cl e).core.streamTurns = s.core.streamTurns := by rfl

@[simp] theorem hold_core_streamWait (s : State) (k cl : Nat) (e : Effect) : (hold s k cl e).core.streamWait = s.core.streamWait := by rfl

@[simp] theorem hold_core_streamLast (s : State) (k cl : Nat) (e : Effect) : (hold s k cl e).core.streamLast = s.core.streamLast := by rfl

@[simp] theorem hold_core_nwrs (s : State) (k cl : Nat) (e : Effect) : (hold s k cl e).core.nwrs = s.core.nwrs := by rfl

@[simp] theorem hold_core_consumed (s : State) (k cl : Nat) (e : Effect) : (hold s k cl e).core.consumed = s.core.consumed := by rfl

@[simp] theorem hold_core_counted (s : State) (k cl : Nat) (e : Effect) : (hold s k cl e).core.counted = s.core.counted := by rfl

@[simp] theorem updClause_cluster (s : State) (id : Nat) (f : Clause → Clause) : (updClause s id f).cluster = s.cluster := by rfl

@[simp] theorem updClause_pkg (s : State) (id : Nat) (f : Clause → Clause) : (updClause s id f).pkg = s.pkg := by rfl

@[simp] theorem updClause_inbox (s : State) (id : Nat) (f : Clause → Clause) : (updClause s id f).inbox = s.inbox := by rfl

@[simp] theorem updClause_turn (s : State) (id : Nat) (f : Clause → Clause) : (updClause s id f).turn = s.turn := by rfl

@[simp] theorem updClause_pastEdge (s : State) (id : Nat) (f : Clause → Clause) : (updClause s id f).pastEdge = s.pastEdge := by rfl

@[simp] theorem updClause_syncNow (s : State) (id : Nat) (f : Clause → Clause) : (updClause s id f).syncNow = s.syncNow := by rfl

@[simp] theorem updClause_sgo (s : State) (id : Nat) (f : Clause → Clause) : (updClause s id f).sgo = s.sgo := by rfl

@[simp] theorem updClause_otherGo (s : State) (id : Nat) (f : Clause → Clause) : (updClause s id f).otherGo = s.otherGo := by rfl

@[simp] theorem updClause_now (s : State) (id : Nat) (f : Clause → Clause) : (updClause s id f).now = s.now := by rfl

@[simp] theorem updClause_served (s : State) (id : Nat) (f : Clause → Clause) : (updClause s id f).served = s.served := by rfl

@[simp] theorem updClause_granted (s : State) (id : Nat) (f : Clause → Clause) : (updClause s id f).granted = s.granted := by rfl

@[simp] theorem updClause_banksUsed (s : State) (id : Nat) (f : Clause → Clause) : (updClause s id f).banksUsed = s.banksUsed := by rfl

@[simp] theorem updClause_pace (s : State) (id : Nat) (f : Clause → Clause) : (updClause s id f).pace = s.pace := by rfl

@[simp] theorem updClause_fresh (s : State) (id : Nat) (f : Clause → Clause) : (updClause s id f).fresh = s.fresh := by rfl

@[simp] theorem updClause_core_index (s : State) (id : Nat) (f : Clause → Clause) : (updClause s id f).core.index = s.core.index := by rfl

@[simp] theorem updClause_core_slot0 (s : State) (id : Nat) (f : Clause → Clause) : (updClause s id f).core.slot0 = s.core.slot0 := by rfl

@[simp] theorem updClause_core_slot1 (s : State) (id : Nat) (f : Clause → Clause) : (updClause s id f).core.slot1 = s.core.slot1 := by rfl

@[simp] theorem updClause_core_act (s : State) (id : Nat) (f : Clause → Clause) : (updClause s id f).core.act = s.core.act := by rfl

@[simp] theorem updClause_core_deadTill (s : State) (id : Nat) (f : Clause → Clause) : (updClause s id f).core.deadTill = s.core.deadTill := by rfl

@[simp] theorem updClause_core_ctl (s : State) (id : Nat) (f : Clause → Clause) : (updClause s id f).core.ctl = s.core.ctl := by rfl

@[simp] theorem updClause_core_sctl (s : State) (id : Nat) (f : Clause → Clause) : (updClause s id f).core.sctl = s.core.sctl := by rfl

@[simp] theorem updClause_core_journal (s : State) (id : Nat) (f : Clause → Clause) : (updClause s id f).core.journal = s.core.journal := by rfl

@[simp] theorem updClause_core_held (s : State) (id : Nat) (f : Clause → Clause) : (updClause s id f).core.held = s.core.held := by rfl

@[simp] theorem updClause_core_out (s : State) (id : Nat) (f : Clause → Clause) : (updClause s id f).core.out = s.core.out := by rfl

@[simp] theorem updClause_core_spad (s : State) (id : Nat) (f : Clause → Clause) : (updClause s id f).core.spad = s.core.spad := by rfl

@[simp] theorem updClause_core_poison (s : State) (id : Nat) (f : Clause → Clause) : (updClause s id f).core.poison = s.core.poison := by rfl

@[simp] theorem updClause_core_badRows (s : State) (id : Nat) (f : Clause → Clause) : (updClause s id f).core.badRows = s.core.badRows := by rfl

@[simp] theorem updClause_core_cells (s : State) (id : Nat) (f : Clause → Clause) : (updClause s id f).core.cells = s.core.cells := by rfl

@[simp] theorem updClause_core_headers (s : State) (id : Nat) (f : Clause → Clause) : (updClause s id f).core.headers = s.core.headers := by rfl

@[simp] theorem updClause_core_grads (s : State) (id : Nat) (f : Clause → Clause) : (updClause s id f).core.grads = s.core.grads := by rfl

@[simp] theorem updClause_core_tiles (s : State) (id : Nat) (f : Clause → Clause) : (updClause s id f).core.tiles = s.core.tiles := by rfl

@[simp] theorem updClause_core_affine (s : State) (id : Nat) (f : Clause → Clause) : (updClause s id f).core.affine = s.core.affine := by rfl

@[simp] theorem updClause_core_cmds (s : State) (id : Nat) (f : Clause → Clause) : (updClause s id f).core.cmds = s.core.cmds := by rfl

@[simp] theorem updClause_core_nextId (s : State) (id : Nat) (f : Clause → Clause) : (updClause s id f).core.nextId = s.core.nextId := by rfl

@[simp] theorem updClause_core_rollAt (s : State) (id : Nat) (f : Clause → Clause) : (updClause s id f).core.rollAt = s.core.rollAt := by rfl

@[simp] theorem updClause_core_sealedExec (s : State) (id : Nat) (f : Clause → Clause) : (updClause s id f).core.sealedExec = s.core.sealedExec := by rfl

@[simp] theorem updClause_core_pastRuns (s : State) (id : Nat) (f : Clause → Clause) : (updClause s id f).core.pastRuns = s.core.pastRuns := by rfl

@[simp] theorem updClause_core_oldFences (s : State) (id : Nat) (f : Clause → Clause) : (updClause s id f).core.oldFences = s.core.oldFences := by rfl

@[simp] theorem updClause_core_placed (s : State) (id : Nat) (f : Clause → Clause) : (updClause s id f).core.placed = s.core.placed := by rfl

@[simp] theorem updClause_core_fenced (s : State) (id : Nat) (f : Clause → Clause) : (updClause s id f).core.fenced = s.core.fenced := by rfl

@[simp] theorem updClause_core_undoUsed (s : State) (id : Nat) (f : Clause → Clause) : (updClause s id f).core.undoUsed = s.core.undoUsed := by rfl

@[simp] theorem updClause_core_dtlb (s : State) (id : Nat) (f : Clause → Clause) : (updClause s id f).core.dtlb = s.core.dtlb := by rfl

@[simp] theorem updClause_core_itlbA (s : State) (id : Nat) (f : Clause → Clause) : (updClause s id f).core.itlbA = s.core.itlbA := by rfl

@[simp] theorem updClause_core_itlbX0 (s : State) (id : Nat) (f : Clause → Clause) : (updClause s id f).core.itlbX0 = s.core.itlbX0 := by rfl

@[simp] theorem updClause_core_itlbX1 (s : State) (id : Nat) (f : Clause → Clause) : (updClause s id f).core.itlbX1 = s.core.itlbX1 := by rfl

@[simp] theorem updClause_core_itlbC (s : State) (id : Nat) (f : Clause → Clause) : (updClause s id f).core.itlbC = s.core.itlbC := by rfl

@[simp] theorem updClause_core_freeze (s : State) (id : Nat) (f : Clause → Clause) : (updClause s id f).core.freeze = s.core.freeze := by rfl

@[simp] theorem updClause_core_bankMatrix (s : State) (id : Nat) (f : Clause → Clause) : (updClause s id f).core.bankMatrix = s.core.bankMatrix := by rfl

@[simp] theorem updClause_core_bankSnap (s : State) (id : Nat) (f : Clause → Clause) : (updClause s id f).core.bankSnap = s.core.bankSnap := by rfl

@[simp] theorem updClause_core_streamTurns (s : State) (id : Nat) (f : Clause → Clause) : (updClause s id f).core.streamTurns = s.core.streamTurns := by rfl

@[simp] theorem updClause_core_streamWait (s : State) (id : Nat) (f : Clause → Clause) : (updClause s id f).core.streamWait = s.core.streamWait := by rfl

@[simp] theorem updClause_core_streamLast (s : State) (id : Nat) (f : Clause → Clause) : (updClause s id f).core.streamLast = s.core.streamLast := by rfl

@[simp] theorem updClause_core_nwrs (s : State) (id : Nat) (f : Clause → Clause) : (updClause s id f).core.nwrs = s.core.nwrs := by rfl

@[simp] theorem updClause_core_consumed (s : State) (id : Nat) (f : Clause → Clause) : (updClause s id f).core.consumed = s.core.consumed := by rfl

@[simp] theorem updClause_core_counted (s : State) (id : Nat) (f : Clause → Clause) : (updClause s id f).core.counted = s.core.counted := by rfl

@[simp] theorem addDep_cluster (s : State) (k : Nat) (v : VoiceId) (p : Nat) : (addDep s k v p).cluster = s.cluster := by unfold addDep; simp only []; split <;> rfl

@[simp] theorem addDep_pkg (s : State) (k : Nat) (v : VoiceId) (p : Nat) : (addDep s k v p).pkg = s.pkg := by unfold addDep; simp only []; split <;> rfl

@[simp] theorem addDep_inbox (s : State) (k : Nat) (v : VoiceId) (p : Nat) : (addDep s k v p).inbox = s.inbox := by unfold addDep; simp only []; split <;> rfl

@[simp] theorem addDep_turn (s : State) (k : Nat) (v : VoiceId) (p : Nat) : (addDep s k v p).turn = s.turn := by unfold addDep; simp only []; split <;> rfl

@[simp] theorem addDep_pastEdge (s : State) (k : Nat) (v : VoiceId) (p : Nat) : (addDep s k v p).pastEdge = s.pastEdge := by unfold addDep; simp only []; split <;> rfl

@[simp] theorem addDep_syncNow (s : State) (k : Nat) (v : VoiceId) (p : Nat) : (addDep s k v p).syncNow = s.syncNow := by unfold addDep; simp only []; split <;> rfl

@[simp] theorem addDep_sgo (s : State) (k : Nat) (v : VoiceId) (p : Nat) : (addDep s k v p).sgo = s.sgo := by unfold addDep; simp only []; split <;> rfl

@[simp] theorem addDep_otherGo (s : State) (k : Nat) (v : VoiceId) (p : Nat) : (addDep s k v p).otherGo = s.otherGo := by unfold addDep; simp only []; split <;> rfl

@[simp] theorem addDep_now (s : State) (k : Nat) (v : VoiceId) (p : Nat) : (addDep s k v p).now = s.now := by unfold addDep; simp only []; split <;> rfl

@[simp] theorem addDep_served (s : State) (k : Nat) (v : VoiceId) (p : Nat) : (addDep s k v p).served = s.served := by unfold addDep; simp only []; split <;> rfl

@[simp] theorem addDep_granted (s : State) (k : Nat) (v : VoiceId) (p : Nat) : (addDep s k v p).granted = s.granted := by unfold addDep; simp only []; split <;> rfl

@[simp] theorem addDep_banksUsed (s : State) (k : Nat) (v : VoiceId) (p : Nat) : (addDep s k v p).banksUsed = s.banksUsed := by unfold addDep; simp only []; split <;> rfl

@[simp] theorem addDep_pace (s : State) (k : Nat) (v : VoiceId) (p : Nat) : (addDep s k v p).pace = s.pace := by unfold addDep; simp only []; split <;> rfl

@[simp] theorem addDep_fresh (s : State) (k : Nat) (v : VoiceId) (p : Nat) : (addDep s k v p).fresh = s.fresh := by unfold addDep; simp only []; split <;> rfl

@[simp] theorem addDep_core_index (s : State) (k : Nat) (v : VoiceId) (p : Nat) : (addDep s k v p).core.index = s.core.index := by unfold addDep; simp only []; split <;> rfl

@[simp] theorem addDep_core_slot0 (s : State) (k : Nat) (v : VoiceId) (p : Nat) : (addDep s k v p).core.slot0 = s.core.slot0 := by unfold addDep; simp only []; split <;> rfl

@[simp] theorem addDep_core_slot1 (s : State) (k : Nat) (v : VoiceId) (p : Nat) : (addDep s k v p).core.slot1 = s.core.slot1 := by unfold addDep; simp only []; split <;> rfl

@[simp] theorem addDep_core_act (s : State) (k : Nat) (v : VoiceId) (p : Nat) : (addDep s k v p).core.act = s.core.act := by unfold addDep; simp only []; split <;> rfl

@[simp] theorem addDep_core_deadTill (s : State) (k : Nat) (v : VoiceId) (p : Nat) : (addDep s k v p).core.deadTill = s.core.deadTill := by unfold addDep; simp only []; split <;> rfl

@[simp] theorem addDep_core_ctl (s : State) (k : Nat) (v : VoiceId) (p : Nat) : (addDep s k v p).core.ctl = s.core.ctl := by unfold addDep; simp only []; split <;> rfl

@[simp] theorem addDep_core_sctl (s : State) (k : Nat) (v : VoiceId) (p : Nat) : (addDep s k v p).core.sctl = s.core.sctl := by unfold addDep; simp only []; split <;> rfl

@[simp] theorem addDep_core_journal (s : State) (k : Nat) (v : VoiceId) (p : Nat) : (addDep s k v p).core.journal = s.core.journal := by unfold addDep; simp only []; split <;> rfl

@[simp] theorem addDep_core_held (s : State) (k : Nat) (v : VoiceId) (p : Nat) : (addDep s k v p).core.held = s.core.held := by unfold addDep; simp only []; split <;> rfl

@[simp] theorem addDep_core_out (s : State) (k : Nat) (v : VoiceId) (p : Nat) : (addDep s k v p).core.out = s.core.out := by unfold addDep; simp only []; split <;> rfl

@[simp] theorem addDep_core_spad (s : State) (k : Nat) (v : VoiceId) (p : Nat) : (addDep s k v p).core.spad = s.core.spad := by unfold addDep; simp only []; split <;> rfl

@[simp] theorem addDep_core_poison (s : State) (k : Nat) (v : VoiceId) (p : Nat) : (addDep s k v p).core.poison = s.core.poison := by unfold addDep; simp only []; split <;> rfl

@[simp] theorem addDep_core_badRows (s : State) (k : Nat) (v : VoiceId) (p : Nat) : (addDep s k v p).core.badRows = s.core.badRows := by unfold addDep; simp only []; split <;> rfl

@[simp] theorem addDep_core_cells (s : State) (k : Nat) (v : VoiceId) (p : Nat) : (addDep s k v p).core.cells = s.core.cells := by unfold addDep; simp only []; split <;> rfl

@[simp] theorem addDep_core_headers (s : State) (k : Nat) (v : VoiceId) (p : Nat) : (addDep s k v p).core.headers = s.core.headers := by unfold addDep; simp only []; split <;> rfl

@[simp] theorem addDep_core_grads (s : State) (k : Nat) (v : VoiceId) (p : Nat) : (addDep s k v p).core.grads = s.core.grads := by unfold addDep; simp only []; split <;> rfl

@[simp] theorem addDep_core_tiles (s : State) (k : Nat) (v : VoiceId) (p : Nat) : (addDep s k v p).core.tiles = s.core.tiles := by unfold addDep; simp only []; split <;> rfl

@[simp] theorem addDep_core_affine (s : State) (k : Nat) (v : VoiceId) (p : Nat) : (addDep s k v p).core.affine = s.core.affine := by unfold addDep; simp only []; split <;> rfl

@[simp] theorem addDep_core_cmds (s : State) (k : Nat) (v : VoiceId) (p : Nat) : (addDep s k v p).core.cmds = s.core.cmds := by unfold addDep; simp only []; split <;> rfl

@[simp] theorem addDep_core_nextId (s : State) (k : Nat) (v : VoiceId) (p : Nat) : (addDep s k v p).core.nextId = s.core.nextId := by unfold addDep; simp only []; split <;> rfl

@[simp] theorem addDep_core_rollAt (s : State) (k : Nat) (v : VoiceId) (p : Nat) : (addDep s k v p).core.rollAt = s.core.rollAt := by unfold addDep; simp only []; split <;> rfl

@[simp] theorem addDep_core_sealedExec (s : State) (k : Nat) (v : VoiceId) (p : Nat) : (addDep s k v p).core.sealedExec = s.core.sealedExec := by unfold addDep; simp only []; split <;> rfl

@[simp] theorem addDep_core_pastRuns (s : State) (k : Nat) (v : VoiceId) (p : Nat) : (addDep s k v p).core.pastRuns = s.core.pastRuns := by unfold addDep; simp only []; split <;> rfl

@[simp] theorem addDep_core_oldFences (s : State) (k : Nat) (v : VoiceId) (p : Nat) : (addDep s k v p).core.oldFences = s.core.oldFences := by unfold addDep; simp only []; split <;> rfl

@[simp] theorem addDep_core_placed (s : State) (k : Nat) (v : VoiceId) (p : Nat) : (addDep s k v p).core.placed = s.core.placed := by unfold addDep; simp only []; split <;> rfl

@[simp] theorem addDep_core_fenced (s : State) (k : Nat) (v : VoiceId) (p : Nat) : (addDep s k v p).core.fenced = s.core.fenced := by unfold addDep; simp only []; split <;> rfl

@[simp] theorem addDep_core_undoUsed (s : State) (k : Nat) (v : VoiceId) (p : Nat) : (addDep s k v p).core.undoUsed = s.core.undoUsed := by unfold addDep; simp only []; split <;> rfl

@[simp] theorem addDep_core_dtlb (s : State) (k : Nat) (v : VoiceId) (p : Nat) : (addDep s k v p).core.dtlb = s.core.dtlb := by unfold addDep; simp only []; split <;> rfl

@[simp] theorem addDep_core_itlbA (s : State) (k : Nat) (v : VoiceId) (p : Nat) : (addDep s k v p).core.itlbA = s.core.itlbA := by unfold addDep; simp only []; split <;> rfl

@[simp] theorem addDep_core_itlbX0 (s : State) (k : Nat) (v : VoiceId) (p : Nat) : (addDep s k v p).core.itlbX0 = s.core.itlbX0 := by unfold addDep; simp only []; split <;> rfl

@[simp] theorem addDep_core_itlbX1 (s : State) (k : Nat) (v : VoiceId) (p : Nat) : (addDep s k v p).core.itlbX1 = s.core.itlbX1 := by unfold addDep; simp only []; split <;> rfl

@[simp] theorem addDep_core_itlbC (s : State) (k : Nat) (v : VoiceId) (p : Nat) : (addDep s k v p).core.itlbC = s.core.itlbC := by unfold addDep; simp only []; split <;> rfl

@[simp] theorem addDep_core_freeze (s : State) (k : Nat) (v : VoiceId) (p : Nat) : (addDep s k v p).core.freeze = s.core.freeze := by unfold addDep; simp only []; split <;> rfl

@[simp] theorem addDep_core_bankMatrix (s : State) (k : Nat) (v : VoiceId) (p : Nat) : (addDep s k v p).core.bankMatrix = s.core.bankMatrix := by unfold addDep; simp only []; split <;> rfl

@[simp] theorem addDep_core_bankSnap (s : State) (k : Nat) (v : VoiceId) (p : Nat) : (addDep s k v p).core.bankSnap = s.core.bankSnap := by unfold addDep; simp only []; split <;> rfl

@[simp] theorem addDep_core_streamTurns (s : State) (k : Nat) (v : VoiceId) (p : Nat) : (addDep s k v p).core.streamTurns = s.core.streamTurns := by unfold addDep; simp only []; split <;> rfl

@[simp] theorem addDep_core_streamWait (s : State) (k : Nat) (v : VoiceId) (p : Nat) : (addDep s k v p).core.streamWait = s.core.streamWait := by unfold addDep; simp only []; split <;> rfl

@[simp] theorem addDep_core_streamLast (s : State) (k : Nat) (v : VoiceId) (p : Nat) : (addDep s k v p).core.streamLast = s.core.streamLast := by unfold addDep; simp only []; split <;> rfl

@[simp] theorem addDep_core_nwrs (s : State) (k : Nat) (v : VoiceId) (p : Nat) : (addDep s k v p).core.nwrs = s.core.nwrs := by unfold addDep; simp only []; split <;> rfl

@[simp] theorem addDep_core_consumed (s : State) (k : Nat) (v : VoiceId) (p : Nat) : (addDep s k v p).core.consumed = s.core.consumed := by unfold addDep; simp only []; split <;> rfl

@[simp] theorem addDep_core_counted (s : State) (k : Nat) (v : VoiceId) (p : Nat) : (addDep s k v p).core.counted = s.core.counted := by unfold addDep; simp only []; split <;> rfl

@[simp] theorem addDeps_cluster (s : State) (k : Nat) (v : VoiceId) (ps : List Nat) : (addDeps s k v ps).cluster = s.cluster := by induction ps generalizing s with | nil => rfl | cons c r ih => simp [addDeps, ih]

@[simp] theorem addDeps_pkg (s : State) (k : Nat) (v : VoiceId) (ps : List Nat) : (addDeps s k v ps).pkg = s.pkg := by induction ps generalizing s with | nil => rfl | cons c r ih => simp [addDeps, ih]

@[simp] theorem addDeps_inbox (s : State) (k : Nat) (v : VoiceId) (ps : List Nat) : (addDeps s k v ps).inbox = s.inbox := by induction ps generalizing s with | nil => rfl | cons c r ih => simp [addDeps, ih]

@[simp] theorem addDeps_turn (s : State) (k : Nat) (v : VoiceId) (ps : List Nat) : (addDeps s k v ps).turn = s.turn := by induction ps generalizing s with | nil => rfl | cons c r ih => simp [addDeps, ih]

@[simp] theorem addDeps_pastEdge (s : State) (k : Nat) (v : VoiceId) (ps : List Nat) : (addDeps s k v ps).pastEdge = s.pastEdge := by induction ps generalizing s with | nil => rfl | cons c r ih => simp [addDeps, ih]

@[simp] theorem addDeps_syncNow (s : State) (k : Nat) (v : VoiceId) (ps : List Nat) : (addDeps s k v ps).syncNow = s.syncNow := by induction ps generalizing s with | nil => rfl | cons c r ih => simp [addDeps, ih]

@[simp] theorem addDeps_sgo (s : State) (k : Nat) (v : VoiceId) (ps : List Nat) : (addDeps s k v ps).sgo = s.sgo := by induction ps generalizing s with | nil => rfl | cons c r ih => simp [addDeps, ih]

@[simp] theorem addDeps_otherGo (s : State) (k : Nat) (v : VoiceId) (ps : List Nat) : (addDeps s k v ps).otherGo = s.otherGo := by induction ps generalizing s with | nil => rfl | cons c r ih => simp [addDeps, ih]

@[simp] theorem addDeps_now (s : State) (k : Nat) (v : VoiceId) (ps : List Nat) : (addDeps s k v ps).now = s.now := by induction ps generalizing s with | nil => rfl | cons c r ih => simp [addDeps, ih]

@[simp] theorem addDeps_served (s : State) (k : Nat) (v : VoiceId) (ps : List Nat) : (addDeps s k v ps).served = s.served := by induction ps generalizing s with | nil => rfl | cons c r ih => simp [addDeps, ih]

@[simp] theorem addDeps_granted (s : State) (k : Nat) (v : VoiceId) (ps : List Nat) : (addDeps s k v ps).granted = s.granted := by induction ps generalizing s with | nil => rfl | cons c r ih => simp [addDeps, ih]

@[simp] theorem addDeps_banksUsed (s : State) (k : Nat) (v : VoiceId) (ps : List Nat) : (addDeps s k v ps).banksUsed = s.banksUsed := by induction ps generalizing s with | nil => rfl | cons c r ih => simp [addDeps, ih]

@[simp] theorem addDeps_pace (s : State) (k : Nat) (v : VoiceId) (ps : List Nat) : (addDeps s k v ps).pace = s.pace := by induction ps generalizing s with | nil => rfl | cons c r ih => simp [addDeps, ih]

@[simp] theorem addDeps_fresh (s : State) (k : Nat) (v : VoiceId) (ps : List Nat) : (addDeps s k v ps).fresh = s.fresh := by induction ps generalizing s with | nil => rfl | cons c r ih => simp [addDeps, ih]

@[simp] theorem addDeps_core_index (s : State) (k : Nat) (v : VoiceId) (ps : List Nat) : (addDeps s k v ps).core.index = s.core.index := by induction ps generalizing s with | nil => rfl | cons c r ih => simp [addDeps, ih]

@[simp] theorem addDeps_core_slot0 (s : State) (k : Nat) (v : VoiceId) (ps : List Nat) : (addDeps s k v ps).core.slot0 = s.core.slot0 := by induction ps generalizing s with | nil => rfl | cons c r ih => simp [addDeps, ih]

@[simp] theorem addDeps_core_slot1 (s : State) (k : Nat) (v : VoiceId) (ps : List Nat) : (addDeps s k v ps).core.slot1 = s.core.slot1 := by induction ps generalizing s with | nil => rfl | cons c r ih => simp [addDeps, ih]

@[simp] theorem addDeps_core_act (s : State) (k : Nat) (v : VoiceId) (ps : List Nat) : (addDeps s k v ps).core.act = s.core.act := by induction ps generalizing s with | nil => rfl | cons c r ih => simp [addDeps, ih]

@[simp] theorem addDeps_core_deadTill (s : State) (k : Nat) (v : VoiceId) (ps : List Nat) : (addDeps s k v ps).core.deadTill = s.core.deadTill := by induction ps generalizing s with | nil => rfl | cons c r ih => simp [addDeps, ih]

@[simp] theorem addDeps_core_ctl (s : State) (k : Nat) (v : VoiceId) (ps : List Nat) : (addDeps s k v ps).core.ctl = s.core.ctl := by induction ps generalizing s with | nil => rfl | cons c r ih => simp [addDeps, ih]

@[simp] theorem addDeps_core_sctl (s : State) (k : Nat) (v : VoiceId) (ps : List Nat) : (addDeps s k v ps).core.sctl = s.core.sctl := by induction ps generalizing s with | nil => rfl | cons c r ih => simp [addDeps, ih]

@[simp] theorem addDeps_core_journal (s : State) (k : Nat) (v : VoiceId) (ps : List Nat) : (addDeps s k v ps).core.journal = s.core.journal := by induction ps generalizing s with | nil => rfl | cons c r ih => simp [addDeps, ih]

@[simp] theorem addDeps_core_held (s : State) (k : Nat) (v : VoiceId) (ps : List Nat) : (addDeps s k v ps).core.held = s.core.held := by induction ps generalizing s with | nil => rfl | cons c r ih => simp [addDeps, ih]

@[simp] theorem addDeps_core_out (s : State) (k : Nat) (v : VoiceId) (ps : List Nat) : (addDeps s k v ps).core.out = s.core.out := by induction ps generalizing s with | nil => rfl | cons c r ih => simp [addDeps, ih]

@[simp] theorem addDeps_core_spad (s : State) (k : Nat) (v : VoiceId) (ps : List Nat) : (addDeps s k v ps).core.spad = s.core.spad := by induction ps generalizing s with | nil => rfl | cons c r ih => simp [addDeps, ih]

@[simp] theorem addDeps_core_poison (s : State) (k : Nat) (v : VoiceId) (ps : List Nat) : (addDeps s k v ps).core.poison = s.core.poison := by induction ps generalizing s with | nil => rfl | cons c r ih => simp [addDeps, ih]

@[simp] theorem addDeps_core_badRows (s : State) (k : Nat) (v : VoiceId) (ps : List Nat) : (addDeps s k v ps).core.badRows = s.core.badRows := by induction ps generalizing s with | nil => rfl | cons c r ih => simp [addDeps, ih]

@[simp] theorem addDeps_core_cells (s : State) (k : Nat) (v : VoiceId) (ps : List Nat) : (addDeps s k v ps).core.cells = s.core.cells := by induction ps generalizing s with | nil => rfl | cons c r ih => simp [addDeps, ih]

@[simp] theorem addDeps_core_headers (s : State) (k : Nat) (v : VoiceId) (ps : List Nat) : (addDeps s k v ps).core.headers = s.core.headers := by induction ps generalizing s with | nil => rfl | cons c r ih => simp [addDeps, ih]

@[simp] theorem addDeps_core_grads (s : State) (k : Nat) (v : VoiceId) (ps : List Nat) : (addDeps s k v ps).core.grads = s.core.grads := by induction ps generalizing s with | nil => rfl | cons c r ih => simp [addDeps, ih]

@[simp] theorem addDeps_core_tiles (s : State) (k : Nat) (v : VoiceId) (ps : List Nat) : (addDeps s k v ps).core.tiles = s.core.tiles := by induction ps generalizing s with | nil => rfl | cons c r ih => simp [addDeps, ih]

@[simp] theorem addDeps_core_affine (s : State) (k : Nat) (v : VoiceId) (ps : List Nat) : (addDeps s k v ps).core.affine = s.core.affine := by induction ps generalizing s with | nil => rfl | cons c r ih => simp [addDeps, ih]

@[simp] theorem addDeps_core_cmds (s : State) (k : Nat) (v : VoiceId) (ps : List Nat) : (addDeps s k v ps).core.cmds = s.core.cmds := by induction ps generalizing s with | nil => rfl | cons c r ih => simp [addDeps, ih]

@[simp] theorem addDeps_core_nextId (s : State) (k : Nat) (v : VoiceId) (ps : List Nat) : (addDeps s k v ps).core.nextId = s.core.nextId := by induction ps generalizing s with | nil => rfl | cons c r ih => simp [addDeps, ih]

@[simp] theorem addDeps_core_rollAt (s : State) (k : Nat) (v : VoiceId) (ps : List Nat) : (addDeps s k v ps).core.rollAt = s.core.rollAt := by induction ps generalizing s with | nil => rfl | cons c r ih => simp [addDeps, ih]

@[simp] theorem addDeps_core_sealedExec (s : State) (k : Nat) (v : VoiceId) (ps : List Nat) : (addDeps s k v ps).core.sealedExec = s.core.sealedExec := by induction ps generalizing s with | nil => rfl | cons c r ih => simp [addDeps, ih]

@[simp] theorem addDeps_core_pastRuns (s : State) (k : Nat) (v : VoiceId) (ps : List Nat) : (addDeps s k v ps).core.pastRuns = s.core.pastRuns := by induction ps generalizing s with | nil => rfl | cons c r ih => simp [addDeps, ih]

@[simp] theorem addDeps_core_oldFences (s : State) (k : Nat) (v : VoiceId) (ps : List Nat) : (addDeps s k v ps).core.oldFences = s.core.oldFences := by induction ps generalizing s with | nil => rfl | cons c r ih => simp [addDeps, ih]

@[simp] theorem addDeps_core_placed (s : State) (k : Nat) (v : VoiceId) (ps : List Nat) : (addDeps s k v ps).core.placed = s.core.placed := by induction ps generalizing s with | nil => rfl | cons c r ih => simp [addDeps, ih]

@[simp] theorem addDeps_core_fenced (s : State) (k : Nat) (v : VoiceId) (ps : List Nat) : (addDeps s k v ps).core.fenced = s.core.fenced := by induction ps generalizing s with | nil => rfl | cons c r ih => simp [addDeps, ih]

@[simp] theorem addDeps_core_undoUsed (s : State) (k : Nat) (v : VoiceId) (ps : List Nat) : (addDeps s k v ps).core.undoUsed = s.core.undoUsed := by induction ps generalizing s with | nil => rfl | cons c r ih => simp [addDeps, ih]

@[simp] theorem addDeps_core_dtlb (s : State) (k : Nat) (v : VoiceId) (ps : List Nat) : (addDeps s k v ps).core.dtlb = s.core.dtlb := by induction ps generalizing s with | nil => rfl | cons c r ih => simp [addDeps, ih]

@[simp] theorem addDeps_core_itlbA (s : State) (k : Nat) (v : VoiceId) (ps : List Nat) : (addDeps s k v ps).core.itlbA = s.core.itlbA := by induction ps generalizing s with | nil => rfl | cons c r ih => simp [addDeps, ih]

@[simp] theorem addDeps_core_itlbX0 (s : State) (k : Nat) (v : VoiceId) (ps : List Nat) : (addDeps s k v ps).core.itlbX0 = s.core.itlbX0 := by induction ps generalizing s with | nil => rfl | cons c r ih => simp [addDeps, ih]

@[simp] theorem addDeps_core_itlbX1 (s : State) (k : Nat) (v : VoiceId) (ps : List Nat) : (addDeps s k v ps).core.itlbX1 = s.core.itlbX1 := by induction ps generalizing s with | nil => rfl | cons c r ih => simp [addDeps, ih]

@[simp] theorem addDeps_core_itlbC (s : State) (k : Nat) (v : VoiceId) (ps : List Nat) : (addDeps s k v ps).core.itlbC = s.core.itlbC := by induction ps generalizing s with | nil => rfl | cons c r ih => simp [addDeps, ih]

@[simp] theorem addDeps_core_freeze (s : State) (k : Nat) (v : VoiceId) (ps : List Nat) : (addDeps s k v ps).core.freeze = s.core.freeze := by induction ps generalizing s with | nil => rfl | cons c r ih => simp [addDeps, ih]

@[simp] theorem addDeps_core_bankMatrix (s : State) (k : Nat) (v : VoiceId) (ps : List Nat) : (addDeps s k v ps).core.bankMatrix = s.core.bankMatrix := by induction ps generalizing s with | nil => rfl | cons c r ih => simp [addDeps, ih]

@[simp] theorem addDeps_core_bankSnap (s : State) (k : Nat) (v : VoiceId) (ps : List Nat) : (addDeps s k v ps).core.bankSnap = s.core.bankSnap := by induction ps generalizing s with | nil => rfl | cons c r ih => simp [addDeps, ih]

@[simp] theorem addDeps_core_streamTurns (s : State) (k : Nat) (v : VoiceId) (ps : List Nat) : (addDeps s k v ps).core.streamTurns = s.core.streamTurns := by induction ps generalizing s with | nil => rfl | cons c r ih => simp [addDeps, ih]

@[simp] theorem addDeps_core_streamWait (s : State) (k : Nat) (v : VoiceId) (ps : List Nat) : (addDeps s k v ps).core.streamWait = s.core.streamWait := by induction ps generalizing s with | nil => rfl | cons c r ih => simp [addDeps, ih]

@[simp] theorem addDeps_core_streamLast (s : State) (k : Nat) (v : VoiceId) (ps : List Nat) : (addDeps s k v ps).core.streamLast = s.core.streamLast := by induction ps generalizing s with | nil => rfl | cons c r ih => simp [addDeps, ih]

@[simp] theorem addDeps_core_nwrs (s : State) (k : Nat) (v : VoiceId) (ps : List Nat) : (addDeps s k v ps).core.nwrs = s.core.nwrs := by induction ps generalizing s with | nil => rfl | cons c r ih => simp [addDeps, ih]

@[simp] theorem addDeps_core_consumed (s : State) (k : Nat) (v : VoiceId) (ps : List Nat) : (addDeps s k v ps).core.consumed = s.core.consumed := by induction ps generalizing s with | nil => rfl | cons c r ih => simp [addDeps, ih]

@[simp] theorem addDeps_core_counted (s : State) (k : Nat) (v : VoiceId) (ps : List Nat) : (addDeps s k v ps).core.counted = s.core.counted := by induction ps generalizing s with | nil => rfl | cons c r ih => simp [addDeps, ih]

@[simp] theorem dependOn_cluster (s : State) (q : Nat) (ps : List Nat) : (dependOn s q ps).cluster = s.cluster := by unfold dependOn; split <;> rfl

@[simp] theorem dependOn_pkg (s : State) (q : Nat) (ps : List Nat) : (dependOn s q ps).pkg = s.pkg := by unfold dependOn; split <;> rfl

@[simp] theorem dependOn_inbox (s : State) (q : Nat) (ps : List Nat) : (dependOn s q ps).inbox = s.inbox := by unfold dependOn; split <;> rfl

@[simp] theorem dependOn_turn (s : State) (q : Nat) (ps : List Nat) : (dependOn s q ps).turn = s.turn := by unfold dependOn; split <;> rfl

@[simp] theorem dependOn_pastEdge (s : State) (q : Nat) (ps : List Nat) : (dependOn s q ps).pastEdge = s.pastEdge := by unfold dependOn; split <;> rfl

@[simp] theorem dependOn_syncNow (s : State) (q : Nat) (ps : List Nat) : (dependOn s q ps).syncNow = s.syncNow := by unfold dependOn; split <;> rfl

@[simp] theorem dependOn_sgo (s : State) (q : Nat) (ps : List Nat) : (dependOn s q ps).sgo = s.sgo := by unfold dependOn; split <;> rfl

@[simp] theorem dependOn_otherGo (s : State) (q : Nat) (ps : List Nat) : (dependOn s q ps).otherGo = s.otherGo := by unfold dependOn; split <;> rfl

@[simp] theorem dependOn_now (s : State) (q : Nat) (ps : List Nat) : (dependOn s q ps).now = s.now := by unfold dependOn; split <;> rfl

@[simp] theorem dependOn_served (s : State) (q : Nat) (ps : List Nat) : (dependOn s q ps).served = s.served := by unfold dependOn; split <;> rfl

@[simp] theorem dependOn_granted (s : State) (q : Nat) (ps : List Nat) : (dependOn s q ps).granted = s.granted := by unfold dependOn; split <;> rfl

@[simp] theorem dependOn_banksUsed (s : State) (q : Nat) (ps : List Nat) : (dependOn s q ps).banksUsed = s.banksUsed := by unfold dependOn; split <;> rfl

@[simp] theorem dependOn_pace (s : State) (q : Nat) (ps : List Nat) : (dependOn s q ps).pace = s.pace := by unfold dependOn; split <;> rfl

@[simp] theorem dependOn_fresh (s : State) (q : Nat) (ps : List Nat) : (dependOn s q ps).fresh = s.fresh := by unfold dependOn; split <;> rfl

@[simp] theorem dependOn_core_index (s : State) (q : Nat) (ps : List Nat) : (dependOn s q ps).core.index = s.core.index := by unfold dependOn; split <;> rfl

@[simp] theorem dependOn_core_slot0 (s : State) (q : Nat) (ps : List Nat) : (dependOn s q ps).core.slot0 = s.core.slot0 := by unfold dependOn; split <;> rfl

@[simp] theorem dependOn_core_slot1 (s : State) (q : Nat) (ps : List Nat) : (dependOn s q ps).core.slot1 = s.core.slot1 := by unfold dependOn; split <;> rfl

@[simp] theorem dependOn_core_act (s : State) (q : Nat) (ps : List Nat) : (dependOn s q ps).core.act = s.core.act := by unfold dependOn; split <;> rfl

@[simp] theorem dependOn_core_deadTill (s : State) (q : Nat) (ps : List Nat) : (dependOn s q ps).core.deadTill = s.core.deadTill := by unfold dependOn; split <;> rfl

@[simp] theorem dependOn_core_ctl (s : State) (q : Nat) (ps : List Nat) : (dependOn s q ps).core.ctl = s.core.ctl := by unfold dependOn; split <;> rfl

@[simp] theorem dependOn_core_sctl (s : State) (q : Nat) (ps : List Nat) : (dependOn s q ps).core.sctl = s.core.sctl := by unfold dependOn; split <;> rfl

@[simp] theorem dependOn_core_journal (s : State) (q : Nat) (ps : List Nat) : (dependOn s q ps).core.journal = s.core.journal := by unfold dependOn; split <;> rfl

@[simp] theorem dependOn_core_held (s : State) (q : Nat) (ps : List Nat) : (dependOn s q ps).core.held = s.core.held := by unfold dependOn; split <;> rfl

@[simp] theorem dependOn_core_out (s : State) (q : Nat) (ps : List Nat) : (dependOn s q ps).core.out = s.core.out := by unfold dependOn; split <;> rfl

@[simp] theorem dependOn_core_spad (s : State) (q : Nat) (ps : List Nat) : (dependOn s q ps).core.spad = s.core.spad := by unfold dependOn; split <;> rfl

@[simp] theorem dependOn_core_poison (s : State) (q : Nat) (ps : List Nat) : (dependOn s q ps).core.poison = s.core.poison := by unfold dependOn; split <;> rfl

@[simp] theorem dependOn_core_badRows (s : State) (q : Nat) (ps : List Nat) : (dependOn s q ps).core.badRows = s.core.badRows := by unfold dependOn; split <;> rfl

@[simp] theorem dependOn_core_cells (s : State) (q : Nat) (ps : List Nat) : (dependOn s q ps).core.cells = s.core.cells := by unfold dependOn; split <;> rfl

@[simp] theorem dependOn_core_headers (s : State) (q : Nat) (ps : List Nat) : (dependOn s q ps).core.headers = s.core.headers := by unfold dependOn; split <;> rfl

@[simp] theorem dependOn_core_grads (s : State) (q : Nat) (ps : List Nat) : (dependOn s q ps).core.grads = s.core.grads := by unfold dependOn; split <;> rfl

@[simp] theorem dependOn_core_tiles (s : State) (q : Nat) (ps : List Nat) : (dependOn s q ps).core.tiles = s.core.tiles := by unfold dependOn; split <;> rfl

@[simp] theorem dependOn_core_affine (s : State) (q : Nat) (ps : List Nat) : (dependOn s q ps).core.affine = s.core.affine := by unfold dependOn; split <;> rfl

@[simp] theorem dependOn_core_cmds (s : State) (q : Nat) (ps : List Nat) : (dependOn s q ps).core.cmds = s.core.cmds := by unfold dependOn; split <;> rfl

@[simp] theorem dependOn_core_nextId (s : State) (q : Nat) (ps : List Nat) : (dependOn s q ps).core.nextId = s.core.nextId := by unfold dependOn; split <;> rfl

@[simp] theorem dependOn_core_rollAt (s : State) (q : Nat) (ps : List Nat) : (dependOn s q ps).core.rollAt = s.core.rollAt := by unfold dependOn; split <;> rfl

@[simp] theorem dependOn_core_sealedExec (s : State) (q : Nat) (ps : List Nat) : (dependOn s q ps).core.sealedExec = s.core.sealedExec := by unfold dependOn; split <;> rfl

@[simp] theorem dependOn_core_pastRuns (s : State) (q : Nat) (ps : List Nat) : (dependOn s q ps).core.pastRuns = s.core.pastRuns := by unfold dependOn; split <;> rfl

@[simp] theorem dependOn_core_oldFences (s : State) (q : Nat) (ps : List Nat) : (dependOn s q ps).core.oldFences = s.core.oldFences := by unfold dependOn; split <;> rfl

@[simp] theorem dependOn_core_placed (s : State) (q : Nat) (ps : List Nat) : (dependOn s q ps).core.placed = s.core.placed := by unfold dependOn; split <;> rfl

@[simp] theorem dependOn_core_fenced (s : State) (q : Nat) (ps : List Nat) : (dependOn s q ps).core.fenced = s.core.fenced := by unfold dependOn; split <;> rfl

@[simp] theorem dependOn_core_undoUsed (s : State) (q : Nat) (ps : List Nat) : (dependOn s q ps).core.undoUsed = s.core.undoUsed := by unfold dependOn; split <;> rfl

@[simp] theorem dependOn_core_dtlb (s : State) (q : Nat) (ps : List Nat) : (dependOn s q ps).core.dtlb = s.core.dtlb := by unfold dependOn; split <;> rfl

@[simp] theorem dependOn_core_itlbA (s : State) (q : Nat) (ps : List Nat) : (dependOn s q ps).core.itlbA = s.core.itlbA := by unfold dependOn; split <;> rfl

@[simp] theorem dependOn_core_itlbX0 (s : State) (q : Nat) (ps : List Nat) : (dependOn s q ps).core.itlbX0 = s.core.itlbX0 := by unfold dependOn; split <;> rfl

@[simp] theorem dependOn_core_itlbX1 (s : State) (q : Nat) (ps : List Nat) : (dependOn s q ps).core.itlbX1 = s.core.itlbX1 := by unfold dependOn; split <;> rfl

@[simp] theorem dependOn_core_itlbC (s : State) (q : Nat) (ps : List Nat) : (dependOn s q ps).core.itlbC = s.core.itlbC := by unfold dependOn; split <;> rfl

@[simp] theorem dependOn_core_freeze (s : State) (q : Nat) (ps : List Nat) : (dependOn s q ps).core.freeze = s.core.freeze := by unfold dependOn; split <;> rfl

@[simp] theorem dependOn_core_bankMatrix (s : State) (q : Nat) (ps : List Nat) : (dependOn s q ps).core.bankMatrix = s.core.bankMatrix := by unfold dependOn; split <;> rfl

@[simp] theorem dependOn_core_bankSnap (s : State) (q : Nat) (ps : List Nat) : (dependOn s q ps).core.bankSnap = s.core.bankSnap := by unfold dependOn; split <;> rfl

@[simp] theorem dependOn_core_streamTurns (s : State) (q : Nat) (ps : List Nat) : (dependOn s q ps).core.streamTurns = s.core.streamTurns := by unfold dependOn; split <;> rfl

@[simp] theorem dependOn_core_streamWait (s : State) (q : Nat) (ps : List Nat) : (dependOn s q ps).core.streamWait = s.core.streamWait := by unfold dependOn; split <;> rfl

@[simp] theorem dependOn_core_streamLast (s : State) (q : Nat) (ps : List Nat) : (dependOn s q ps).core.streamLast = s.core.streamLast := by unfold dependOn; split <;> rfl

@[simp] theorem dependOn_core_nwrs (s : State) (q : Nat) (ps : List Nat) : (dependOn s q ps).core.nwrs = s.core.nwrs := by unfold dependOn; split <;> rfl

@[simp] theorem dependOn_core_consumed (s : State) (q : Nat) (ps : List Nat) : (dependOn s q ps).core.consumed = s.core.consumed := by unfold dependOn; split <;> rfl

@[simp] theorem dependOn_core_counted (s : State) (q : Nat) (ps : List Nat) : (dependOn s q ps).core.counted = s.core.counted := by unfold dependOn; split <;> rfl

@[simp] theorem openClause_cluster (s : State) (k : Nat) (v : VoiceId) (ps : List Nat) : (openClause s k v ps).cluster = s.cluster := by simp [openClause]

@[simp] theorem openClause_pkg (s : State) (k : Nat) (v : VoiceId) (ps : List Nat) : (openClause s k v ps).pkg = s.pkg := by simp [openClause]

@[simp] theorem openClause_inbox (s : State) (k : Nat) (v : VoiceId) (ps : List Nat) : (openClause s k v ps).inbox = s.inbox := by simp [openClause]

@[simp] theorem openClause_turn (s : State) (k : Nat) (v : VoiceId) (ps : List Nat) : (openClause s k v ps).turn = s.turn := by simp [openClause]

@[simp] theorem openClause_pastEdge (s : State) (k : Nat) (v : VoiceId) (ps : List Nat) : (openClause s k v ps).pastEdge = s.pastEdge := by simp [openClause]

@[simp] theorem openClause_syncNow (s : State) (k : Nat) (v : VoiceId) (ps : List Nat) : (openClause s k v ps).syncNow = s.syncNow := by simp [openClause]

@[simp] theorem openClause_sgo (s : State) (k : Nat) (v : VoiceId) (ps : List Nat) : (openClause s k v ps).sgo = s.sgo := by simp [openClause]

@[simp] theorem openClause_otherGo (s : State) (k : Nat) (v : VoiceId) (ps : List Nat) : (openClause s k v ps).otherGo = s.otherGo := by simp [openClause]

@[simp] theorem openClause_now (s : State) (k : Nat) (v : VoiceId) (ps : List Nat) : (openClause s k v ps).now = s.now := by simp [openClause]

@[simp] theorem openClause_served (s : State) (k : Nat) (v : VoiceId) (ps : List Nat) : (openClause s k v ps).served = s.served := by simp [openClause]

@[simp] theorem openClause_granted (s : State) (k : Nat) (v : VoiceId) (ps : List Nat) : (openClause s k v ps).granted = s.granted := by simp [openClause]

@[simp] theorem openClause_banksUsed (s : State) (k : Nat) (v : VoiceId) (ps : List Nat) : (openClause s k v ps).banksUsed = s.banksUsed := by simp [openClause]

@[simp] theorem openClause_pace (s : State) (k : Nat) (v : VoiceId) (ps : List Nat) : (openClause s k v ps).pace = s.pace := by simp [openClause]

@[simp] theorem openClause_fresh (s : State) (k : Nat) (v : VoiceId) (ps : List Nat) : (openClause s k v ps).fresh = s.fresh := by simp [openClause]

@[simp] theorem openClause_core_index (s : State) (k : Nat) (v : VoiceId) (ps : List Nat) : (openClause s k v ps).core.index = s.core.index := by simp [openClause]

@[simp] theorem openClause_core_act (s : State) (k : Nat) (v : VoiceId) (ps : List Nat) : (openClause s k v ps).core.act = s.core.act := by simp [openClause]

@[simp] theorem openClause_core_deadTill (s : State) (k : Nat) (v : VoiceId) (ps : List Nat) : (openClause s k v ps).core.deadTill = s.core.deadTill := by simp [openClause]

@[simp] theorem openClause_core_ctl (s : State) (k : Nat) (v : VoiceId) (ps : List Nat) : (openClause s k v ps).core.ctl = s.core.ctl := by simp [openClause]

@[simp] theorem openClause_core_sctl (s : State) (k : Nat) (v : VoiceId) (ps : List Nat) : (openClause s k v ps).core.sctl = s.core.sctl := by simp [openClause]

@[simp] theorem openClause_core_journal (s : State) (k : Nat) (v : VoiceId) (ps : List Nat) : (openClause s k v ps).core.journal = s.core.journal := by simp [openClause]

@[simp] theorem openClause_core_held (s : State) (k : Nat) (v : VoiceId) (ps : List Nat) : (openClause s k v ps).core.held = s.core.held := by simp [openClause]

@[simp] theorem openClause_core_out (s : State) (k : Nat) (v : VoiceId) (ps : List Nat) : (openClause s k v ps).core.out = s.core.out := by simp [openClause]

@[simp] theorem openClause_core_spad (s : State) (k : Nat) (v : VoiceId) (ps : List Nat) : (openClause s k v ps).core.spad = s.core.spad := by simp [openClause]

@[simp] theorem openClause_core_poison (s : State) (k : Nat) (v : VoiceId) (ps : List Nat) : (openClause s k v ps).core.poison = s.core.poison := by simp [openClause]

@[simp] theorem openClause_core_badRows (s : State) (k : Nat) (v : VoiceId) (ps : List Nat) : (openClause s k v ps).core.badRows = s.core.badRows := by simp [openClause]

@[simp] theorem openClause_core_cells (s : State) (k : Nat) (v : VoiceId) (ps : List Nat) : (openClause s k v ps).core.cells = s.core.cells := by simp [openClause]

@[simp] theorem openClause_core_headers (s : State) (k : Nat) (v : VoiceId) (ps : List Nat) : (openClause s k v ps).core.headers = s.core.headers := by simp [openClause]

@[simp] theorem openClause_core_grads (s : State) (k : Nat) (v : VoiceId) (ps : List Nat) : (openClause s k v ps).core.grads = s.core.grads := by simp [openClause]

@[simp] theorem openClause_core_tiles (s : State) (k : Nat) (v : VoiceId) (ps : List Nat) : (openClause s k v ps).core.tiles = s.core.tiles := by simp [openClause]

@[simp] theorem openClause_core_affine (s : State) (k : Nat) (v : VoiceId) (ps : List Nat) : (openClause s k v ps).core.affine = s.core.affine := by simp [openClause]

@[simp] theorem openClause_core_cmds (s : State) (k : Nat) (v : VoiceId) (ps : List Nat) : (openClause s k v ps).core.cmds = s.core.cmds := by simp [openClause]

@[simp] theorem openClause_core_rollAt (s : State) (k : Nat) (v : VoiceId) (ps : List Nat) : (openClause s k v ps).core.rollAt = s.core.rollAt := by simp [openClause]

@[simp] theorem openClause_core_sealedExec (s : State) (k : Nat) (v : VoiceId) (ps : List Nat) : (openClause s k v ps).core.sealedExec = s.core.sealedExec := by simp [openClause]

@[simp] theorem openClause_core_pastRuns (s : State) (k : Nat) (v : VoiceId) (ps : List Nat) : (openClause s k v ps).core.pastRuns = s.core.pastRuns := by simp [openClause]

@[simp] theorem openClause_core_oldFences (s : State) (k : Nat) (v : VoiceId) (ps : List Nat) : (openClause s k v ps).core.oldFences = s.core.oldFences := by simp [openClause]

@[simp] theorem openClause_core_placed (s : State) (k : Nat) (v : VoiceId) (ps : List Nat) : (openClause s k v ps).core.placed = s.core.placed := by simp [openClause]

@[simp] theorem openClause_core_fenced (s : State) (k : Nat) (v : VoiceId) (ps : List Nat) : (openClause s k v ps).core.fenced = s.core.fenced := by simp [openClause]

@[simp] theorem openClause_core_undoUsed (s : State) (k : Nat) (v : VoiceId) (ps : List Nat) : (openClause s k v ps).core.undoUsed = s.core.undoUsed := by simp [openClause]

@[simp] theorem openClause_core_dtlb (s : State) (k : Nat) (v : VoiceId) (ps : List Nat) : (openClause s k v ps).core.dtlb = s.core.dtlb := by simp [openClause]

@[simp] theorem openClause_core_itlbA (s : State) (k : Nat) (v : VoiceId) (ps : List Nat) : (openClause s k v ps).core.itlbA = s.core.itlbA := by simp [openClause]

@[simp] theorem openClause_core_itlbX0 (s : State) (k : Nat) (v : VoiceId) (ps : List Nat) : (openClause s k v ps).core.itlbX0 = s.core.itlbX0 := by simp [openClause]

@[simp] theorem openClause_core_itlbX1 (s : State) (k : Nat) (v : VoiceId) (ps : List Nat) : (openClause s k v ps).core.itlbX1 = s.core.itlbX1 := by simp [openClause]

@[simp] theorem openClause_core_itlbC (s : State) (k : Nat) (v : VoiceId) (ps : List Nat) : (openClause s k v ps).core.itlbC = s.core.itlbC := by simp [openClause]

@[simp] theorem openClause_core_freeze (s : State) (k : Nat) (v : VoiceId) (ps : List Nat) : (openClause s k v ps).core.freeze = s.core.freeze := by simp [openClause]

@[simp] theorem openClause_core_bankMatrix (s : State) (k : Nat) (v : VoiceId) (ps : List Nat) : (openClause s k v ps).core.bankMatrix = s.core.bankMatrix := by simp [openClause]

@[simp] theorem openClause_core_bankSnap (s : State) (k : Nat) (v : VoiceId) (ps : List Nat) : (openClause s k v ps).core.bankSnap = s.core.bankSnap := by simp [openClause]

@[simp] theorem openClause_core_streamTurns (s : State) (k : Nat) (v : VoiceId) (ps : List Nat) : (openClause s k v ps).core.streamTurns = s.core.streamTurns := by simp [openClause]

@[simp] theorem openClause_core_streamWait (s : State) (k : Nat) (v : VoiceId) (ps : List Nat) : (openClause s k v ps).core.streamWait = s.core.streamWait := by simp [openClause]

@[simp] theorem openClause_core_streamLast (s : State) (k : Nat) (v : VoiceId) (ps : List Nat) : (openClause s k v ps).core.streamLast = s.core.streamLast := by simp [openClause]

@[simp] theorem openClause_core_nwrs (s : State) (k : Nat) (v : VoiceId) (ps : List Nat) : (openClause s k v ps).core.nwrs = s.core.nwrs := by simp [openClause]

@[simp] theorem openClause_core_consumed (s : State) (k : Nat) (v : VoiceId) (ps : List Nat) : (openClause s k v ps).core.consumed = s.core.consumed := by simp [openClause]

@[simp] theorem openClause_core_counted (s : State) (k : Nat) (v : VoiceId) (ps : List Nat) : (openClause s k v ps).core.counted = s.core.counted := by simp [openClause]

@[simp] theorem closeClause_cluster (s : State) (k : Nat) (v : VoiceId) (b : Nat) (st : Bool) : (closeClause s k v b st).cluster = s.cluster := by simp [closeClause]

@[simp] theorem closeClause_pkg (s : State) (k : Nat) (v : VoiceId) (b : Nat) (st : Bool) : (closeClause s k v b st).pkg = s.pkg := by simp [closeClause]

@[simp] theorem closeClause_inbox (s : State) (k : Nat) (v : VoiceId) (b : Nat) (st : Bool) : (closeClause s k v b st).inbox = s.inbox := by simp [closeClause]

@[simp] theorem closeClause_turn (s : State) (k : Nat) (v : VoiceId) (b : Nat) (st : Bool) : (closeClause s k v b st).turn = s.turn := by simp [closeClause]

@[simp] theorem closeClause_pastEdge (s : State) (k : Nat) (v : VoiceId) (b : Nat) (st : Bool) : (closeClause s k v b st).pastEdge = s.pastEdge := by simp [closeClause]

@[simp] theorem closeClause_syncNow (s : State) (k : Nat) (v : VoiceId) (b : Nat) (st : Bool) : (closeClause s k v b st).syncNow = s.syncNow := by simp [closeClause]

@[simp] theorem closeClause_sgo (s : State) (k : Nat) (v : VoiceId) (b : Nat) (st : Bool) : (closeClause s k v b st).sgo = s.sgo := by simp [closeClause]

@[simp] theorem closeClause_otherGo (s : State) (k : Nat) (v : VoiceId) (b : Nat) (st : Bool) : (closeClause s k v b st).otherGo = s.otherGo := by simp [closeClause]

@[simp] theorem closeClause_now (s : State) (k : Nat) (v : VoiceId) (b : Nat) (st : Bool) : (closeClause s k v b st).now = s.now := by simp [closeClause]

@[simp] theorem closeClause_served (s : State) (k : Nat) (v : VoiceId) (b : Nat) (st : Bool) : (closeClause s k v b st).served = s.served := by simp [closeClause]

@[simp] theorem closeClause_granted (s : State) (k : Nat) (v : VoiceId) (b : Nat) (st : Bool) : (closeClause s k v b st).granted = s.granted := by simp [closeClause]

@[simp] theorem closeClause_banksUsed (s : State) (k : Nat) (v : VoiceId) (b : Nat) (st : Bool) : (closeClause s k v b st).banksUsed = s.banksUsed := by simp [closeClause]

@[simp] theorem closeClause_pace (s : State) (k : Nat) (v : VoiceId) (b : Nat) (st : Bool) : (closeClause s k v b st).pace = s.pace := by simp [closeClause]

@[simp] theorem closeClause_fresh (s : State) (k : Nat) (v : VoiceId) (b : Nat) (st : Bool) : (closeClause s k v b st).fresh = s.fresh := by simp [closeClause]

@[simp] theorem closeClause_core_index (s : State) (k : Nat) (v : VoiceId) (b : Nat) (st : Bool) : (closeClause s k v b st).core.index = s.core.index := by simp [closeClause]

@[simp] theorem closeClause_core_act (s : State) (k : Nat) (v : VoiceId) (b : Nat) (st : Bool) : (closeClause s k v b st).core.act = s.core.act := by simp [closeClause]

@[simp] theorem closeClause_core_deadTill (s : State) (k : Nat) (v : VoiceId) (b : Nat) (st : Bool) : (closeClause s k v b st).core.deadTill = s.core.deadTill := by simp [closeClause]

@[simp] theorem closeClause_core_ctl (s : State) (k : Nat) (v : VoiceId) (b : Nat) (st : Bool) : (closeClause s k v b st).core.ctl = s.core.ctl := by simp [closeClause]

@[simp] theorem closeClause_core_sctl (s : State) (k : Nat) (v : VoiceId) (b : Nat) (st : Bool) : (closeClause s k v b st).core.sctl = s.core.sctl := by simp [closeClause]

@[simp] theorem closeClause_core_journal (s : State) (k : Nat) (v : VoiceId) (b : Nat) (st : Bool) : (closeClause s k v b st).core.journal = s.core.journal := by simp [closeClause]

@[simp] theorem closeClause_core_held (s : State) (k : Nat) (v : VoiceId) (b : Nat) (st : Bool) : (closeClause s k v b st).core.held = s.core.held := by simp [closeClause]

@[simp] theorem closeClause_core_out (s : State) (k : Nat) (v : VoiceId) (b : Nat) (st : Bool) : (closeClause s k v b st).core.out = s.core.out := by simp [closeClause]

@[simp] theorem closeClause_core_spad (s : State) (k : Nat) (v : VoiceId) (b : Nat) (st : Bool) : (closeClause s k v b st).core.spad = s.core.spad := by simp [closeClause]

@[simp] theorem closeClause_core_poison (s : State) (k : Nat) (v : VoiceId) (b : Nat) (st : Bool) : (closeClause s k v b st).core.poison = s.core.poison := by simp [closeClause]

@[simp] theorem closeClause_core_badRows (s : State) (k : Nat) (v : VoiceId) (b : Nat) (st : Bool) : (closeClause s k v b st).core.badRows = s.core.badRows := by simp [closeClause]

@[simp] theorem closeClause_core_cells (s : State) (k : Nat) (v : VoiceId) (b : Nat) (st : Bool) : (closeClause s k v b st).core.cells = s.core.cells := by simp [closeClause]

@[simp] theorem closeClause_core_headers (s : State) (k : Nat) (v : VoiceId) (b : Nat) (st : Bool) : (closeClause s k v b st).core.headers = s.core.headers := by simp [closeClause]

@[simp] theorem closeClause_core_grads (s : State) (k : Nat) (v : VoiceId) (b : Nat) (st : Bool) : (closeClause s k v b st).core.grads = s.core.grads := by simp [closeClause]

@[simp] theorem closeClause_core_tiles (s : State) (k : Nat) (v : VoiceId) (b : Nat) (st : Bool) : (closeClause s k v b st).core.tiles = s.core.tiles := by simp [closeClause]

@[simp] theorem closeClause_core_affine (s : State) (k : Nat) (v : VoiceId) (b : Nat) (st : Bool) : (closeClause s k v b st).core.affine = s.core.affine := by simp [closeClause]

@[simp] theorem closeClause_core_cmds (s : State) (k : Nat) (v : VoiceId) (b : Nat) (st : Bool) : (closeClause s k v b st).core.cmds = s.core.cmds := by simp [closeClause]

@[simp] theorem closeClause_core_rollAt (s : State) (k : Nat) (v : VoiceId) (b : Nat) (st : Bool) : (closeClause s k v b st).core.rollAt = s.core.rollAt := by simp [closeClause]

@[simp] theorem closeClause_core_sealedExec (s : State) (k : Nat) (v : VoiceId) (b : Nat) (st : Bool) : (closeClause s k v b st).core.sealedExec = s.core.sealedExec := by simp [closeClause]

@[simp] theorem closeClause_core_pastRuns (s : State) (k : Nat) (v : VoiceId) (b : Nat) (st : Bool) : (closeClause s k v b st).core.pastRuns = s.core.pastRuns := by simp [closeClause]

@[simp] theorem closeClause_core_oldFences (s : State) (k : Nat) (v : VoiceId) (b : Nat) (st : Bool) : (closeClause s k v b st).core.oldFences = s.core.oldFences := by simp [closeClause]

@[simp] theorem closeClause_core_placed (s : State) (k : Nat) (v : VoiceId) (b : Nat) (st : Bool) : (closeClause s k v b st).core.placed = s.core.placed := by simp [closeClause]

@[simp] theorem closeClause_core_fenced (s : State) (k : Nat) (v : VoiceId) (b : Nat) (st : Bool) : (closeClause s k v b st).core.fenced = s.core.fenced := by simp [closeClause]

@[simp] theorem closeClause_core_undoUsed (s : State) (k : Nat) (v : VoiceId) (b : Nat) (st : Bool) : (closeClause s k v b st).core.undoUsed = s.core.undoUsed := by simp [closeClause]

@[simp] theorem closeClause_core_dtlb (s : State) (k : Nat) (v : VoiceId) (b : Nat) (st : Bool) : (closeClause s k v b st).core.dtlb = s.core.dtlb := by simp [closeClause]

@[simp] theorem closeClause_core_itlbA (s : State) (k : Nat) (v : VoiceId) (b : Nat) (st : Bool) : (closeClause s k v b st).core.itlbA = s.core.itlbA := by simp [closeClause]

@[simp] theorem closeClause_core_itlbX0 (s : State) (k : Nat) (v : VoiceId) (b : Nat) (st : Bool) : (closeClause s k v b st).core.itlbX0 = s.core.itlbX0 := by simp [closeClause]

@[simp] theorem closeClause_core_itlbX1 (s : State) (k : Nat) (v : VoiceId) (b : Nat) (st : Bool) : (closeClause s k v b st).core.itlbX1 = s.core.itlbX1 := by simp [closeClause]

@[simp] theorem closeClause_core_itlbC (s : State) (k : Nat) (v : VoiceId) (b : Nat) (st : Bool) : (closeClause s k v b st).core.itlbC = s.core.itlbC := by simp [closeClause]

@[simp] theorem closeClause_core_freeze (s : State) (k : Nat) (v : VoiceId) (b : Nat) (st : Bool) : (closeClause s k v b st).core.freeze = s.core.freeze := by simp [closeClause]

@[simp] theorem closeClause_core_bankMatrix (s : State) (k : Nat) (v : VoiceId) (b : Nat) (st : Bool) : (closeClause s k v b st).core.bankMatrix = s.core.bankMatrix := by simp [closeClause]

@[simp] theorem closeClause_core_bankSnap (s : State) (k : Nat) (v : VoiceId) (b : Nat) (st : Bool) : (closeClause s k v b st).core.bankSnap = s.core.bankSnap := by simp [closeClause]

@[simp] theorem closeClause_core_streamTurns (s : State) (k : Nat) (v : VoiceId) (b : Nat) (st : Bool) : (closeClause s k v b st).core.streamTurns = s.core.streamTurns := by simp [closeClause]

@[simp] theorem closeClause_core_streamWait (s : State) (k : Nat) (v : VoiceId) (b : Nat) (st : Bool) : (closeClause s k v b st).core.streamWait = s.core.streamWait := by simp [closeClause]

@[simp] theorem closeClause_core_streamLast (s : State) (k : Nat) (v : VoiceId) (b : Nat) (st : Bool) : (closeClause s k v b st).core.streamLast = s.core.streamLast := by simp [closeClause]

@[simp] theorem closeClause_core_nwrs (s : State) (k : Nat) (v : VoiceId) (b : Nat) (st : Bool) : (closeClause s k v b st).core.nwrs = s.core.nwrs := by simp [closeClause]

@[simp] theorem closeClause_core_consumed (s : State) (k : Nat) (v : VoiceId) (b : Nat) (st : Bool) : (closeClause s k v b st).core.consumed = s.core.consumed := by simp [closeClause]

@[simp] theorem closeClause_core_counted (s : State) (k : Nat) (v : VoiceId) (b : Nat) (st : Bool) : (closeClause s k v b st).core.counted = s.core.counted := by simp [closeClause]

@[simp] theorem closeAll_cluster (s : State) (k b : Nat) (vs : List VoiceId) : (closeAll s k b vs).cluster = s.cluster := by induction vs generalizing s with | nil => rfl | cons v r ih => simp [closeAll, ih]

@[simp] theorem closeAll_pkg (s : State) (k b : Nat) (vs : List VoiceId) : (closeAll s k b vs).pkg = s.pkg := by induction vs generalizing s with | nil => rfl | cons v r ih => simp [closeAll, ih]

@[simp] theorem closeAll_inbox (s : State) (k b : Nat) (vs : List VoiceId) : (closeAll s k b vs).inbox = s.inbox := by induction vs generalizing s with | nil => rfl | cons v r ih => simp [closeAll, ih]

@[simp] theorem closeAll_turn (s : State) (k b : Nat) (vs : List VoiceId) : (closeAll s k b vs).turn = s.turn := by induction vs generalizing s with | nil => rfl | cons v r ih => simp [closeAll, ih]

@[simp] theorem closeAll_pastEdge (s : State) (k b : Nat) (vs : List VoiceId) : (closeAll s k b vs).pastEdge = s.pastEdge := by induction vs generalizing s with | nil => rfl | cons v r ih => simp [closeAll, ih]

@[simp] theorem closeAll_syncNow (s : State) (k b : Nat) (vs : List VoiceId) : (closeAll s k b vs).syncNow = s.syncNow := by induction vs generalizing s with | nil => rfl | cons v r ih => simp [closeAll, ih]

@[simp] theorem closeAll_sgo (s : State) (k b : Nat) (vs : List VoiceId) : (closeAll s k b vs).sgo = s.sgo := by induction vs generalizing s with | nil => rfl | cons v r ih => simp [closeAll, ih]

@[simp] theorem closeAll_otherGo (s : State) (k b : Nat) (vs : List VoiceId) : (closeAll s k b vs).otherGo = s.otherGo := by induction vs generalizing s with | nil => rfl | cons v r ih => simp [closeAll, ih]

@[simp] theorem closeAll_now (s : State) (k b : Nat) (vs : List VoiceId) : (closeAll s k b vs).now = s.now := by induction vs generalizing s with | nil => rfl | cons v r ih => simp [closeAll, ih]

@[simp] theorem closeAll_served (s : State) (k b : Nat) (vs : List VoiceId) : (closeAll s k b vs).served = s.served := by induction vs generalizing s with | nil => rfl | cons v r ih => simp [closeAll, ih]

@[simp] theorem closeAll_granted (s : State) (k b : Nat) (vs : List VoiceId) : (closeAll s k b vs).granted = s.granted := by induction vs generalizing s with | nil => rfl | cons v r ih => simp [closeAll, ih]

@[simp] theorem closeAll_banksUsed (s : State) (k b : Nat) (vs : List VoiceId) : (closeAll s k b vs).banksUsed = s.banksUsed := by induction vs generalizing s with | nil => rfl | cons v r ih => simp [closeAll, ih]

@[simp] theorem closeAll_pace (s : State) (k b : Nat) (vs : List VoiceId) : (closeAll s k b vs).pace = s.pace := by induction vs generalizing s with | nil => rfl | cons v r ih => simp [closeAll, ih]

@[simp] theorem closeAll_fresh (s : State) (k b : Nat) (vs : List VoiceId) : (closeAll s k b vs).fresh = s.fresh := by induction vs generalizing s with | nil => rfl | cons v r ih => simp [closeAll, ih]

@[simp] theorem closeAll_core_index (s : State) (k b : Nat) (vs : List VoiceId) : (closeAll s k b vs).core.index = s.core.index := by induction vs generalizing s with | nil => rfl | cons v r ih => simp [closeAll, ih]

@[simp] theorem closeAll_core_act (s : State) (k b : Nat) (vs : List VoiceId) : (closeAll s k b vs).core.act = s.core.act := by induction vs generalizing s with | nil => rfl | cons v r ih => simp [closeAll, ih]

@[simp] theorem closeAll_core_deadTill (s : State) (k b : Nat) (vs : List VoiceId) : (closeAll s k b vs).core.deadTill = s.core.deadTill := by induction vs generalizing s with | nil => rfl | cons v r ih => simp [closeAll, ih]

@[simp] theorem closeAll_core_ctl (s : State) (k b : Nat) (vs : List VoiceId) : (closeAll s k b vs).core.ctl = s.core.ctl := by induction vs generalizing s with | nil => rfl | cons v r ih => simp [closeAll, ih]

@[simp] theorem closeAll_core_sctl (s : State) (k b : Nat) (vs : List VoiceId) : (closeAll s k b vs).core.sctl = s.core.sctl := by induction vs generalizing s with | nil => rfl | cons v r ih => simp [closeAll, ih]

@[simp] theorem closeAll_core_journal (s : State) (k b : Nat) (vs : List VoiceId) : (closeAll s k b vs).core.journal = s.core.journal := by induction vs generalizing s with | nil => rfl | cons v r ih => simp [closeAll, ih]

@[simp] theorem closeAll_core_held (s : State) (k b : Nat) (vs : List VoiceId) : (closeAll s k b vs).core.held = s.core.held := by induction vs generalizing s with | nil => rfl | cons v r ih => simp [closeAll, ih]

@[simp] theorem closeAll_core_out (s : State) (k b : Nat) (vs : List VoiceId) : (closeAll s k b vs).core.out = s.core.out := by induction vs generalizing s with | nil => rfl | cons v r ih => simp [closeAll, ih]

@[simp] theorem closeAll_core_spad (s : State) (k b : Nat) (vs : List VoiceId) : (closeAll s k b vs).core.spad = s.core.spad := by induction vs generalizing s with | nil => rfl | cons v r ih => simp [closeAll, ih]

@[simp] theorem closeAll_core_poison (s : State) (k b : Nat) (vs : List VoiceId) : (closeAll s k b vs).core.poison = s.core.poison := by induction vs generalizing s with | nil => rfl | cons v r ih => simp [closeAll, ih]

@[simp] theorem closeAll_core_badRows (s : State) (k b : Nat) (vs : List VoiceId) : (closeAll s k b vs).core.badRows = s.core.badRows := by induction vs generalizing s with | nil => rfl | cons v r ih => simp [closeAll, ih]

@[simp] theorem closeAll_core_cells (s : State) (k b : Nat) (vs : List VoiceId) : (closeAll s k b vs).core.cells = s.core.cells := by induction vs generalizing s with | nil => rfl | cons v r ih => simp [closeAll, ih]

@[simp] theorem closeAll_core_headers (s : State) (k b : Nat) (vs : List VoiceId) : (closeAll s k b vs).core.headers = s.core.headers := by induction vs generalizing s with | nil => rfl | cons v r ih => simp [closeAll, ih]

@[simp] theorem closeAll_core_grads (s : State) (k b : Nat) (vs : List VoiceId) : (closeAll s k b vs).core.grads = s.core.grads := by induction vs generalizing s with | nil => rfl | cons v r ih => simp [closeAll, ih]

@[simp] theorem closeAll_core_tiles (s : State) (k b : Nat) (vs : List VoiceId) : (closeAll s k b vs).core.tiles = s.core.tiles := by induction vs generalizing s with | nil => rfl | cons v r ih => simp [closeAll, ih]

@[simp] theorem closeAll_core_affine (s : State) (k b : Nat) (vs : List VoiceId) : (closeAll s k b vs).core.affine = s.core.affine := by induction vs generalizing s with | nil => rfl | cons v r ih => simp [closeAll, ih]

@[simp] theorem closeAll_core_cmds (s : State) (k b : Nat) (vs : List VoiceId) : (closeAll s k b vs).core.cmds = s.core.cmds := by induction vs generalizing s with | nil => rfl | cons v r ih => simp [closeAll, ih]

@[simp] theorem closeAll_core_rollAt (s : State) (k b : Nat) (vs : List VoiceId) : (closeAll s k b vs).core.rollAt = s.core.rollAt := by induction vs generalizing s with | nil => rfl | cons v r ih => simp [closeAll, ih]

@[simp] theorem closeAll_core_sealedExec (s : State) (k b : Nat) (vs : List VoiceId) : (closeAll s k b vs).core.sealedExec = s.core.sealedExec := by induction vs generalizing s with | nil => rfl | cons v r ih => simp [closeAll, ih]

@[simp] theorem closeAll_core_pastRuns (s : State) (k b : Nat) (vs : List VoiceId) : (closeAll s k b vs).core.pastRuns = s.core.pastRuns := by induction vs generalizing s with | nil => rfl | cons v r ih => simp [closeAll, ih]

@[simp] theorem closeAll_core_oldFences (s : State) (k b : Nat) (vs : List VoiceId) : (closeAll s k b vs).core.oldFences = s.core.oldFences := by induction vs generalizing s with | nil => rfl | cons v r ih => simp [closeAll, ih]

@[simp] theorem closeAll_core_placed (s : State) (k b : Nat) (vs : List VoiceId) : (closeAll s k b vs).core.placed = s.core.placed := by induction vs generalizing s with | nil => rfl | cons v r ih => simp [closeAll, ih]

@[simp] theorem closeAll_core_fenced (s : State) (k b : Nat) (vs : List VoiceId) : (closeAll s k b vs).core.fenced = s.core.fenced := by induction vs generalizing s with | nil => rfl | cons v r ih => simp [closeAll, ih]

@[simp] theorem closeAll_core_undoUsed (s : State) (k b : Nat) (vs : List VoiceId) : (closeAll s k b vs).core.undoUsed = s.core.undoUsed := by induction vs generalizing s with | nil => rfl | cons v r ih => simp [closeAll, ih]

@[simp] theorem closeAll_core_dtlb (s : State) (k b : Nat) (vs : List VoiceId) : (closeAll s k b vs).core.dtlb = s.core.dtlb := by induction vs generalizing s with | nil => rfl | cons v r ih => simp [closeAll, ih]

@[simp] theorem closeAll_core_itlbA (s : State) (k b : Nat) (vs : List VoiceId) : (closeAll s k b vs).core.itlbA = s.core.itlbA := by induction vs generalizing s with | nil => rfl | cons v r ih => simp [closeAll, ih]

@[simp] theorem closeAll_core_itlbX0 (s : State) (k b : Nat) (vs : List VoiceId) : (closeAll s k b vs).core.itlbX0 = s.core.itlbX0 := by induction vs generalizing s with | nil => rfl | cons v r ih => simp [closeAll, ih]

@[simp] theorem closeAll_core_itlbX1 (s : State) (k b : Nat) (vs : List VoiceId) : (closeAll s k b vs).core.itlbX1 = s.core.itlbX1 := by induction vs generalizing s with | nil => rfl | cons v r ih => simp [closeAll, ih]

@[simp] theorem closeAll_core_itlbC (s : State) (k b : Nat) (vs : List VoiceId) : (closeAll s k b vs).core.itlbC = s.core.itlbC := by induction vs generalizing s with | nil => rfl | cons v r ih => simp [closeAll, ih]

@[simp] theorem closeAll_core_freeze (s : State) (k b : Nat) (vs : List VoiceId) : (closeAll s k b vs).core.freeze = s.core.freeze := by induction vs generalizing s with | nil => rfl | cons v r ih => simp [closeAll, ih]

@[simp] theorem closeAll_core_bankMatrix (s : State) (k b : Nat) (vs : List VoiceId) : (closeAll s k b vs).core.bankMatrix = s.core.bankMatrix := by induction vs generalizing s with | nil => rfl | cons v r ih => simp [closeAll, ih]

@[simp] theorem closeAll_core_bankSnap (s : State) (k b : Nat) (vs : List VoiceId) : (closeAll s k b vs).core.bankSnap = s.core.bankSnap := by induction vs generalizing s with | nil => rfl | cons v r ih => simp [closeAll, ih]

@[simp] theorem closeAll_core_streamTurns (s : State) (k b : Nat) (vs : List VoiceId) : (closeAll s k b vs).core.streamTurns = s.core.streamTurns := by induction vs generalizing s with | nil => rfl | cons v r ih => simp [closeAll, ih]

@[simp] theorem closeAll_core_streamWait (s : State) (k b : Nat) (vs : List VoiceId) : (closeAll s k b vs).core.streamWait = s.core.streamWait := by induction vs generalizing s with | nil => rfl | cons v r ih => simp [closeAll, ih]

@[simp] theorem closeAll_core_streamLast (s : State) (k b : Nat) (vs : List VoiceId) : (closeAll s k b vs).core.streamLast = s.core.streamLast := by induction vs generalizing s with | nil => rfl | cons v r ih => simp [closeAll, ih]

@[simp] theorem closeAll_core_nwrs (s : State) (k b : Nat) (vs : List VoiceId) : (closeAll s k b vs).core.nwrs = s.core.nwrs := by induction vs generalizing s with | nil => rfl | cons v r ih => simp [closeAll, ih]

@[simp] theorem closeAll_core_consumed (s : State) (k b : Nat) (vs : List VoiceId) : (closeAll s k b vs).core.consumed = s.core.consumed := by induction vs generalizing s with | nil => rfl | cons v r ih => simp [closeAll, ih]

@[simp] theorem closeAll_core_counted (s : State) (k b : Nat) (vs : List VoiceId) : (closeAll s k b vs).core.counted = s.core.counted := by induction vs generalizing s with | nil => rfl | cons v r ih => simp [closeAll, ih]

@[simp] theorem stopThread_cluster (s : State) (k cause : Nat) (v : Option VoiceId) (as : Bool) (f : Word) (w : BitVec 32) (b : Nat) (c : Word) : (stopThread s k cause v as f w b c).cluster = s.cluster := by simp [stopThread]

@[simp] theorem stopThread_pkg (s : State) (k cause : Nat) (v : Option VoiceId) (as : Bool) (f : Word) (w : BitVec 32) (b : Nat) (c : Word) : (stopThread s k cause v as f w b c).pkg = s.pkg := by simp [stopThread]

@[simp] theorem stopThread_inbox (s : State) (k cause : Nat) (v : Option VoiceId) (as : Bool) (f : Word) (w : BitVec 32) (b : Nat) (c : Word) : (stopThread s k cause v as f w b c).inbox = s.inbox := by simp [stopThread]

@[simp] theorem stopThread_turn (s : State) (k cause : Nat) (v : Option VoiceId) (as : Bool) (f : Word) (w : BitVec 32) (b : Nat) (c : Word) : (stopThread s k cause v as f w b c).turn = s.turn := by simp [stopThread]

@[simp] theorem stopThread_pastEdge (s : State) (k cause : Nat) (v : Option VoiceId) (as : Bool) (f : Word) (w : BitVec 32) (b : Nat) (c : Word) : (stopThread s k cause v as f w b c).pastEdge = s.pastEdge := by simp [stopThread]

@[simp] theorem stopThread_syncNow (s : State) (k cause : Nat) (v : Option VoiceId) (as : Bool) (f : Word) (w : BitVec 32) (b : Nat) (c : Word) : (stopThread s k cause v as f w b c).syncNow = s.syncNow := by simp [stopThread]

@[simp] theorem stopThread_sgo (s : State) (k cause : Nat) (v : Option VoiceId) (as : Bool) (f : Word) (w : BitVec 32) (b : Nat) (c : Word) : (stopThread s k cause v as f w b c).sgo = s.sgo := by simp [stopThread]

@[simp] theorem stopThread_otherGo (s : State) (k cause : Nat) (v : Option VoiceId) (as : Bool) (f : Word) (w : BitVec 32) (b : Nat) (c : Word) : (stopThread s k cause v as f w b c).otherGo = s.otherGo := by simp [stopThread]

@[simp] theorem stopThread_now (s : State) (k cause : Nat) (v : Option VoiceId) (as : Bool) (f : Word) (w : BitVec 32) (b : Nat) (c : Word) : (stopThread s k cause v as f w b c).now = s.now := by simp [stopThread]

@[simp] theorem stopThread_served (s : State) (k cause : Nat) (v : Option VoiceId) (as : Bool) (f : Word) (w : BitVec 32) (b : Nat) (c : Word) : (stopThread s k cause v as f w b c).served = s.served := by simp [stopThread]

@[simp] theorem stopThread_granted (s : State) (k cause : Nat) (v : Option VoiceId) (as : Bool) (f : Word) (w : BitVec 32) (b : Nat) (c : Word) : (stopThread s k cause v as f w b c).granted = s.granted := by simp [stopThread]

@[simp] theorem stopThread_banksUsed (s : State) (k cause : Nat) (v : Option VoiceId) (as : Bool) (f : Word) (w : BitVec 32) (b : Nat) (c : Word) : (stopThread s k cause v as f w b c).banksUsed = s.banksUsed := by simp [stopThread]

@[simp] theorem stopThread_pace (s : State) (k cause : Nat) (v : Option VoiceId) (as : Bool) (f : Word) (w : BitVec 32) (b : Nat) (c : Word) : (stopThread s k cause v as f w b c).pace = s.pace := by simp [stopThread]

@[simp] theorem stopThread_fresh (s : State) (k cause : Nat) (v : Option VoiceId) (as : Bool) (f : Word) (w : BitVec 32) (b : Nat) (c : Word) : (stopThread s k cause v as f w b c).fresh = s.fresh := by simp [stopThread]

@[simp] theorem stopThread_core_index (s : State) (k cause : Nat) (v : Option VoiceId) (as : Bool) (f : Word) (w : BitVec 32) (b : Nat) (c : Word) : (stopThread s k cause v as f w b c).core.index = s.core.index := by simp [stopThread]

@[simp] theorem stopThread_core_act (s : State) (k cause : Nat) (v : Option VoiceId) (as : Bool) (f : Word) (w : BitVec 32) (b : Nat) (c : Word) : (stopThread s k cause v as f w b c).core.act = s.core.act := by simp [stopThread]

@[simp] theorem stopThread_core_deadTill (s : State) (k cause : Nat) (v : Option VoiceId) (as : Bool) (f : Word) (w : BitVec 32) (b : Nat) (c : Word) : (stopThread s k cause v as f w b c).core.deadTill = s.core.deadTill := by simp [stopThread]

@[simp] theorem stopThread_core_ctl (s : State) (k cause : Nat) (v : Option VoiceId) (as : Bool) (f : Word) (w : BitVec 32) (b : Nat) (c : Word) : (stopThread s k cause v as f w b c).core.ctl = s.core.ctl := by simp [stopThread]

@[simp] theorem stopThread_core_sctl (s : State) (k cause : Nat) (v : Option VoiceId) (as : Bool) (f : Word) (w : BitVec 32) (b : Nat) (c : Word) : (stopThread s k cause v as f w b c).core.sctl = s.core.sctl := by simp [stopThread]

@[simp] theorem stopThread_core_journal (s : State) (k cause : Nat) (v : Option VoiceId) (as : Bool) (f : Word) (w : BitVec 32) (b : Nat) (c : Word) : (stopThread s k cause v as f w b c).core.journal = s.core.journal := by simp [stopThread]

@[simp] theorem stopThread_core_held (s : State) (k cause : Nat) (v : Option VoiceId) (as : Bool) (f : Word) (w : BitVec 32) (b : Nat) (c : Word) : (stopThread s k cause v as f w b c).core.held = s.core.held := by simp [stopThread]

@[simp] theorem stopThread_core_out (s : State) (k cause : Nat) (v : Option VoiceId) (as : Bool) (f : Word) (w : BitVec 32) (b : Nat) (c : Word) : (stopThread s k cause v as f w b c).core.out = s.core.out := by simp [stopThread]

@[simp] theorem stopThread_core_spad (s : State) (k cause : Nat) (v : Option VoiceId) (as : Bool) (f : Word) (w : BitVec 32) (b : Nat) (c : Word) : (stopThread s k cause v as f w b c).core.spad = s.core.spad := by simp [stopThread]

@[simp] theorem stopThread_core_poison (s : State) (k cause : Nat) (v : Option VoiceId) (as : Bool) (f : Word) (w : BitVec 32) (b : Nat) (c : Word) : (stopThread s k cause v as f w b c).core.poison = s.core.poison := by simp [stopThread]

@[simp] theorem stopThread_core_badRows (s : State) (k cause : Nat) (v : Option VoiceId) (as : Bool) (f : Word) (w : BitVec 32) (b : Nat) (c : Word) : (stopThread s k cause v as f w b c).core.badRows = s.core.badRows := by simp [stopThread]

@[simp] theorem stopThread_core_cells (s : State) (k cause : Nat) (v : Option VoiceId) (as : Bool) (f : Word) (w : BitVec 32) (b : Nat) (c : Word) : (stopThread s k cause v as f w b c).core.cells = s.core.cells := by simp [stopThread]

@[simp] theorem stopThread_core_headers (s : State) (k cause : Nat) (v : Option VoiceId) (as : Bool) (f : Word) (w : BitVec 32) (b : Nat) (c : Word) : (stopThread s k cause v as f w b c).core.headers = s.core.headers := by simp [stopThread]

@[simp] theorem stopThread_core_grads (s : State) (k cause : Nat) (v : Option VoiceId) (as : Bool) (f : Word) (w : BitVec 32) (b : Nat) (c : Word) : (stopThread s k cause v as f w b c).core.grads = s.core.grads := by simp [stopThread]

@[simp] theorem stopThread_core_tiles (s : State) (k cause : Nat) (v : Option VoiceId) (as : Bool) (f : Word) (w : BitVec 32) (b : Nat) (c : Word) : (stopThread s k cause v as f w b c).core.tiles = s.core.tiles := by simp [stopThread]

@[simp] theorem stopThread_core_affine (s : State) (k cause : Nat) (v : Option VoiceId) (as : Bool) (f : Word) (w : BitVec 32) (b : Nat) (c : Word) : (stopThread s k cause v as f w b c).core.affine = s.core.affine := by simp [stopThread]

@[simp] theorem stopThread_core_cmds (s : State) (k cause : Nat) (v : Option VoiceId) (as : Bool) (f : Word) (w : BitVec 32) (b : Nat) (c : Word) : (stopThread s k cause v as f w b c).core.cmds = s.core.cmds := by simp [stopThread]

@[simp] theorem stopThread_core_rollAt (s : State) (k cause : Nat) (v : Option VoiceId) (as : Bool) (f : Word) (w : BitVec 32) (b : Nat) (c : Word) : (stopThread s k cause v as f w b c).core.rollAt = s.core.rollAt := by simp [stopThread]

@[simp] theorem stopThread_core_sealedExec (s : State) (k cause : Nat) (v : Option VoiceId) (as : Bool) (f : Word) (w : BitVec 32) (b : Nat) (c : Word) : (stopThread s k cause v as f w b c).core.sealedExec = s.core.sealedExec := by simp [stopThread]

@[simp] theorem stopThread_core_pastRuns (s : State) (k cause : Nat) (v : Option VoiceId) (as : Bool) (f : Word) (w : BitVec 32) (b : Nat) (c : Word) : (stopThread s k cause v as f w b c).core.pastRuns = s.core.pastRuns := by simp [stopThread]

@[simp] theorem stopThread_core_oldFences (s : State) (k cause : Nat) (v : Option VoiceId) (as : Bool) (f : Word) (w : BitVec 32) (b : Nat) (c : Word) : (stopThread s k cause v as f w b c).core.oldFences = s.core.oldFences := by simp [stopThread]

@[simp] theorem stopThread_core_placed (s : State) (k cause : Nat) (v : Option VoiceId) (as : Bool) (f : Word) (w : BitVec 32) (b : Nat) (c : Word) : (stopThread s k cause v as f w b c).core.placed = s.core.placed := by simp [stopThread]

@[simp] theorem stopThread_core_fenced (s : State) (k cause : Nat) (v : Option VoiceId) (as : Bool) (f : Word) (w : BitVec 32) (b : Nat) (c : Word) : (stopThread s k cause v as f w b c).core.fenced = s.core.fenced := by simp [stopThread]

@[simp] theorem stopThread_core_undoUsed (s : State) (k cause : Nat) (v : Option VoiceId) (as : Bool) (f : Word) (w : BitVec 32) (b : Nat) (c : Word) : (stopThread s k cause v as f w b c).core.undoUsed = s.core.undoUsed := by simp [stopThread]

@[simp] theorem stopThread_core_dtlb (s : State) (k cause : Nat) (v : Option VoiceId) (as : Bool) (f : Word) (w : BitVec 32) (b : Nat) (c : Word) : (stopThread s k cause v as f w b c).core.dtlb = s.core.dtlb := by simp [stopThread]

@[simp] theorem stopThread_core_itlbA (s : State) (k cause : Nat) (v : Option VoiceId) (as : Bool) (f : Word) (w : BitVec 32) (b : Nat) (c : Word) : (stopThread s k cause v as f w b c).core.itlbA = s.core.itlbA := by simp [stopThread]

@[simp] theorem stopThread_core_itlbX0 (s : State) (k cause : Nat) (v : Option VoiceId) (as : Bool) (f : Word) (w : BitVec 32) (b : Nat) (c : Word) : (stopThread s k cause v as f w b c).core.itlbX0 = s.core.itlbX0 := by simp [stopThread]

@[simp] theorem stopThread_core_itlbX1 (s : State) (k cause : Nat) (v : Option VoiceId) (as : Bool) (f : Word) (w : BitVec 32) (b : Nat) (c : Word) : (stopThread s k cause v as f w b c).core.itlbX1 = s.core.itlbX1 := by simp [stopThread]

@[simp] theorem stopThread_core_itlbC (s : State) (k cause : Nat) (v : Option VoiceId) (as : Bool) (f : Word) (w : BitVec 32) (b : Nat) (c : Word) : (stopThread s k cause v as f w b c).core.itlbC = s.core.itlbC := by simp [stopThread]

@[simp] theorem stopThread_core_freeze (s : State) (k cause : Nat) (v : Option VoiceId) (as : Bool) (f : Word) (w : BitVec 32) (b : Nat) (c : Word) : (stopThread s k cause v as f w b c).core.freeze = s.core.freeze := by simp [stopThread]

@[simp] theorem stopThread_core_bankMatrix (s : State) (k cause : Nat) (v : Option VoiceId) (as : Bool) (f : Word) (w : BitVec 32) (b : Nat) (c : Word) : (stopThread s k cause v as f w b c).core.bankMatrix = s.core.bankMatrix := by simp [stopThread]

@[simp] theorem stopThread_core_bankSnap (s : State) (k cause : Nat) (v : Option VoiceId) (as : Bool) (f : Word) (w : BitVec 32) (b : Nat) (c : Word) : (stopThread s k cause v as f w b c).core.bankSnap = s.core.bankSnap := by simp [stopThread]

@[simp] theorem stopThread_core_streamTurns (s : State) (k cause : Nat) (v : Option VoiceId) (as : Bool) (f : Word) (w : BitVec 32) (b : Nat) (c : Word) : (stopThread s k cause v as f w b c).core.streamTurns = s.core.streamTurns := by simp [stopThread]

@[simp] theorem stopThread_core_streamWait (s : State) (k cause : Nat) (v : Option VoiceId) (as : Bool) (f : Word) (w : BitVec 32) (b : Nat) (c : Word) : (stopThread s k cause v as f w b c).core.streamWait = s.core.streamWait := by simp [stopThread]

@[simp] theorem stopThread_core_streamLast (s : State) (k cause : Nat) (v : Option VoiceId) (as : Bool) (f : Word) (w : BitVec 32) (b : Nat) (c : Word) : (stopThread s k cause v as f w b c).core.streamLast = s.core.streamLast := by simp [stopThread]

@[simp] theorem stopThread_core_nwrs (s : State) (k cause : Nat) (v : Option VoiceId) (as : Bool) (f : Word) (w : BitVec 32) (b : Nat) (c : Word) : (stopThread s k cause v as f w b c).core.nwrs = s.core.nwrs := by simp [stopThread]

@[simp] theorem stopThread_core_consumed (s : State) (k cause : Nat) (v : Option VoiceId) (as : Bool) (f : Word) (w : BitVec 32) (b : Nat) (c : Word) : (stopThread s k cause v as f w b c).core.consumed = s.core.consumed := by simp [stopThread]

@[simp] theorem stopThread_core_counted (s : State) (k cause : Nat) (v : Option VoiceId) (as : Bool) (f : Word) (w : BitVec 32) (b : Nat) (c : Word) : (stopThread s k cause v as f w b c).core.counted = s.core.counted := by simp [stopThread]

@[simp] theorem takeTrap_cluster (h : Here) (cause : Nat) (f : Word) (s : State) : (takeTrap h cause f s).cluster = s.cluster := by simp [takeTrap]

@[simp] theorem takeTrap_pkg (h : Here) (cause : Nat) (f : Word) (s : State) : (takeTrap h cause f s).pkg = s.pkg := by simp [takeTrap]

@[simp] theorem takeTrap_inbox (h : Here) (cause : Nat) (f : Word) (s : State) : (takeTrap h cause f s).inbox = s.inbox := by simp [takeTrap]

@[simp] theorem takeTrap_turn (h : Here) (cause : Nat) (f : Word) (s : State) : (takeTrap h cause f s).turn = s.turn := by simp [takeTrap]

@[simp] theorem takeTrap_pastEdge (h : Here) (cause : Nat) (f : Word) (s : State) : (takeTrap h cause f s).pastEdge = s.pastEdge := by simp [takeTrap]

@[simp] theorem takeTrap_syncNow (h : Here) (cause : Nat) (f : Word) (s : State) : (takeTrap h cause f s).syncNow = s.syncNow := by simp [takeTrap]

@[simp] theorem takeTrap_sgo (h : Here) (cause : Nat) (f : Word) (s : State) : (takeTrap h cause f s).sgo = s.sgo := by simp [takeTrap]

@[simp] theorem takeTrap_otherGo (h : Here) (cause : Nat) (f : Word) (s : State) : (takeTrap h cause f s).otherGo = s.otherGo := by simp [takeTrap]

@[simp] theorem takeTrap_now (h : Here) (cause : Nat) (f : Word) (s : State) : (takeTrap h cause f s).now = s.now := by simp [takeTrap]

@[simp] theorem takeTrap_served (h : Here) (cause : Nat) (f : Word) (s : State) : (takeTrap h cause f s).served = s.served := by simp [takeTrap]

@[simp] theorem takeTrap_granted (h : Here) (cause : Nat) (f : Word) (s : State) : (takeTrap h cause f s).granted = s.granted := by simp [takeTrap]

@[simp] theorem takeTrap_banksUsed (h : Here) (cause : Nat) (f : Word) (s : State) : (takeTrap h cause f s).banksUsed = s.banksUsed := by simp [takeTrap]

@[simp] theorem takeTrap_pace (h : Here) (cause : Nat) (f : Word) (s : State) : (takeTrap h cause f s).pace = s.pace := by simp [takeTrap]

@[simp] theorem takeTrap_fresh (h : Here) (cause : Nat) (f : Word) (s : State) : (takeTrap h cause f s).fresh = s.fresh := by simp [takeTrap]

@[simp] theorem takeTrap_core_index (h : Here) (cause : Nat) (f : Word) (s : State) : (takeTrap h cause f s).core.index = s.core.index := by simp [takeTrap]

@[simp] theorem takeTrap_core_act (h : Here) (cause : Nat) (f : Word) (s : State) : (takeTrap h cause f s).core.act = s.core.act := by simp [takeTrap]

@[simp] theorem takeTrap_core_deadTill (h : Here) (cause : Nat) (f : Word) (s : State) : (takeTrap h cause f s).core.deadTill = s.core.deadTill := by simp [takeTrap]

@[simp] theorem takeTrap_core_ctl (h : Here) (cause : Nat) (f : Word) (s : State) : (takeTrap h cause f s).core.ctl = s.core.ctl := by simp [takeTrap]

@[simp] theorem takeTrap_core_sctl (h : Here) (cause : Nat) (f : Word) (s : State) : (takeTrap h cause f s).core.sctl = s.core.sctl := by simp [takeTrap]

@[simp] theorem takeTrap_core_journal (h : Here) (cause : Nat) (f : Word) (s : State) : (takeTrap h cause f s).core.journal = s.core.journal := by simp [takeTrap]

@[simp] theorem takeTrap_core_held (h : Here) (cause : Nat) (f : Word) (s : State) : (takeTrap h cause f s).core.held = s.core.held := by simp [takeTrap]

@[simp] theorem takeTrap_core_out (h : Here) (cause : Nat) (f : Word) (s : State) : (takeTrap h cause f s).core.out = s.core.out := by simp [takeTrap]

@[simp] theorem takeTrap_core_spad (h : Here) (cause : Nat) (f : Word) (s : State) : (takeTrap h cause f s).core.spad = s.core.spad := by simp [takeTrap]

@[simp] theorem takeTrap_core_poison (h : Here) (cause : Nat) (f : Word) (s : State) : (takeTrap h cause f s).core.poison = s.core.poison := by simp [takeTrap]

@[simp] theorem takeTrap_core_badRows (h : Here) (cause : Nat) (f : Word) (s : State) : (takeTrap h cause f s).core.badRows = s.core.badRows := by simp [takeTrap]

@[simp] theorem takeTrap_core_cells (h : Here) (cause : Nat) (f : Word) (s : State) : (takeTrap h cause f s).core.cells = s.core.cells := by simp [takeTrap]

@[simp] theorem takeTrap_core_headers (h : Here) (cause : Nat) (f : Word) (s : State) : (takeTrap h cause f s).core.headers = s.core.headers := by simp [takeTrap]

@[simp] theorem takeTrap_core_grads (h : Here) (cause : Nat) (f : Word) (s : State) : (takeTrap h cause f s).core.grads = s.core.grads := by simp [takeTrap]

@[simp] theorem takeTrap_core_tiles (h : Here) (cause : Nat) (f : Word) (s : State) : (takeTrap h cause f s).core.tiles = s.core.tiles := by simp [takeTrap]

@[simp] theorem takeTrap_core_affine (h : Here) (cause : Nat) (f : Word) (s : State) : (takeTrap h cause f s).core.affine = s.core.affine := by simp [takeTrap]

@[simp] theorem takeTrap_core_cmds (h : Here) (cause : Nat) (f : Word) (s : State) : (takeTrap h cause f s).core.cmds = s.core.cmds := by simp [takeTrap]

@[simp] theorem takeTrap_core_rollAt (h : Here) (cause : Nat) (f : Word) (s : State) : (takeTrap h cause f s).core.rollAt = s.core.rollAt := by simp [takeTrap]

@[simp] theorem takeTrap_core_sealedExec (h : Here) (cause : Nat) (f : Word) (s : State) : (takeTrap h cause f s).core.sealedExec = s.core.sealedExec := by simp [takeTrap]

@[simp] theorem takeTrap_core_pastRuns (h : Here) (cause : Nat) (f : Word) (s : State) : (takeTrap h cause f s).core.pastRuns = s.core.pastRuns := by simp [takeTrap]

@[simp] theorem takeTrap_core_oldFences (h : Here) (cause : Nat) (f : Word) (s : State) : (takeTrap h cause f s).core.oldFences = s.core.oldFences := by simp [takeTrap]

@[simp] theorem takeTrap_core_placed (h : Here) (cause : Nat) (f : Word) (s : State) : (takeTrap h cause f s).core.placed = s.core.placed := by simp [takeTrap]

@[simp] theorem takeTrap_core_fenced (h : Here) (cause : Nat) (f : Word) (s : State) : (takeTrap h cause f s).core.fenced = s.core.fenced := by simp [takeTrap]

@[simp] theorem takeTrap_core_undoUsed (h : Here) (cause : Nat) (f : Word) (s : State) : (takeTrap h cause f s).core.undoUsed = s.core.undoUsed := by simp [takeTrap]

@[simp] theorem takeTrap_core_dtlb (h : Here) (cause : Nat) (f : Word) (s : State) : (takeTrap h cause f s).core.dtlb = s.core.dtlb := by simp [takeTrap]

@[simp] theorem takeTrap_core_itlbA (h : Here) (cause : Nat) (f : Word) (s : State) : (takeTrap h cause f s).core.itlbA = s.core.itlbA := by simp [takeTrap]

@[simp] theorem takeTrap_core_itlbX0 (h : Here) (cause : Nat) (f : Word) (s : State) : (takeTrap h cause f s).core.itlbX0 = s.core.itlbX0 := by simp [takeTrap]

@[simp] theorem takeTrap_core_itlbX1 (h : Here) (cause : Nat) (f : Word) (s : State) : (takeTrap h cause f s).core.itlbX1 = s.core.itlbX1 := by simp [takeTrap]

@[simp] theorem takeTrap_core_itlbC (h : Here) (cause : Nat) (f : Word) (s : State) : (takeTrap h cause f s).core.itlbC = s.core.itlbC := by simp [takeTrap]

@[simp] theorem takeTrap_core_freeze (h : Here) (cause : Nat) (f : Word) (s : State) : (takeTrap h cause f s).core.freeze = s.core.freeze := by simp [takeTrap]

@[simp] theorem takeTrap_core_bankMatrix (h : Here) (cause : Nat) (f : Word) (s : State) : (takeTrap h cause f s).core.bankMatrix = s.core.bankMatrix := by simp [takeTrap]

@[simp] theorem takeTrap_core_bankSnap (h : Here) (cause : Nat) (f : Word) (s : State) : (takeTrap h cause f s).core.bankSnap = s.core.bankSnap := by simp [takeTrap]

@[simp] theorem takeTrap_core_streamTurns (h : Here) (cause : Nat) (f : Word) (s : State) : (takeTrap h cause f s).core.streamTurns = s.core.streamTurns := by simp [takeTrap]

@[simp] theorem takeTrap_core_streamWait (h : Here) (cause : Nat) (f : Word) (s : State) : (takeTrap h cause f s).core.streamWait = s.core.streamWait := by simp [takeTrap]

@[simp] theorem takeTrap_core_streamLast (h : Here) (cause : Nat) (f : Word) (s : State) : (takeTrap h cause f s).core.streamLast = s.core.streamLast := by simp [takeTrap]

@[simp] theorem takeTrap_core_nwrs (h : Here) (cause : Nat) (f : Word) (s : State) : (takeTrap h cause f s).core.nwrs = s.core.nwrs := by simp [takeTrap]

@[simp] theorem takeTrap_core_consumed (h : Here) (cause : Nat) (f : Word) (s : State) : (takeTrap h cause f s).core.consumed = s.core.consumed := by simp [takeTrap]

@[simp] theorem takeTrap_core_counted (h : Here) (cause : Nat) (f : Word) (s : State) : (takeTrap h cause f s).core.counted = s.core.counted := by simp [takeTrap]

@[simp] theorem setCtx_cluster (s : State) (c : Nat) (x : Context) : (setCtx s c x).cluster = s.cluster := by rfl

@[simp] theorem setCtx_inbox (s : State) (c : Nat) (x : Context) : (setCtx s c x).inbox = s.inbox := by rfl

@[simp] theorem setCtx_turn (s : State) (c : Nat) (x : Context) : (setCtx s c x).turn = s.turn := by rfl

@[simp] theorem setCtx_pastEdge (s : State) (c : Nat) (x : Context) : (setCtx s c x).pastEdge = s.pastEdge := by rfl

@[simp] theorem setCtx_syncNow (s : State) (c : Nat) (x : Context) : (setCtx s c x).syncNow = s.syncNow := by rfl

@[simp] theorem setCtx_sgo (s : State) (c : Nat) (x : Context) : (setCtx s c x).sgo = s.sgo := by rfl

@[simp] theorem setCtx_otherGo (s : State) (c : Nat) (x : Context) : (setCtx s c x).otherGo = s.otherGo := by rfl

@[simp] theorem setCtx_now (s : State) (c : Nat) (x : Context) : (setCtx s c x).now = s.now := by rfl

@[simp] theorem setCtx_served (s : State) (c : Nat) (x : Context) : (setCtx s c x).served = s.served := by rfl

@[simp] theorem setCtx_granted (s : State) (c : Nat) (x : Context) : (setCtx s c x).granted = s.granted := by rfl

@[simp] theorem setCtx_banksUsed (s : State) (c : Nat) (x : Context) : (setCtx s c x).banksUsed = s.banksUsed := by rfl

@[simp] theorem setCtx_pace (s : State) (c : Nat) (x : Context) : (setCtx s c x).pace = s.pace := by rfl

@[simp] theorem setCtx_fresh (s : State) (c : Nat) (x : Context) : (setCtx s c x).fresh = s.fresh := by rfl

@[simp] theorem setCtx_core_index (s : State) (c : Nat) (x : Context) : (setCtx s c x).core.index = s.core.index := by rfl

@[simp] theorem setCtx_core_slot0 (s : State) (c : Nat) (x : Context) : (setCtx s c x).core.slot0 = s.core.slot0 := by rfl

@[simp] theorem setCtx_core_slot1 (s : State) (c : Nat) (x : Context) : (setCtx s c x).core.slot1 = s.core.slot1 := by rfl

@[simp] theorem setCtx_core_act (s : State) (c : Nat) (x : Context) : (setCtx s c x).core.act = s.core.act := by rfl

@[simp] theorem setCtx_core_deadTill (s : State) (c : Nat) (x : Context) : (setCtx s c x).core.deadTill = s.core.deadTill := by rfl

@[simp] theorem setCtx_core_ctl (s : State) (c : Nat) (x : Context) : (setCtx s c x).core.ctl = s.core.ctl := by rfl

@[simp] theorem setCtx_core_sctl (s : State) (c : Nat) (x : Context) : (setCtx s c x).core.sctl = s.core.sctl := by rfl

@[simp] theorem setCtx_core_journal (s : State) (c : Nat) (x : Context) : (setCtx s c x).core.journal = s.core.journal := by rfl

@[simp] theorem setCtx_core_clauses (s : State) (c : Nat) (x : Context) : (setCtx s c x).core.clauses = s.core.clauses := by rfl

@[simp] theorem setCtx_core_held (s : State) (c : Nat) (x : Context) : (setCtx s c x).core.held = s.core.held := by rfl

@[simp] theorem setCtx_core_out (s : State) (c : Nat) (x : Context) : (setCtx s c x).core.out = s.core.out := by rfl

@[simp] theorem setCtx_core_spad (s : State) (c : Nat) (x : Context) : (setCtx s c x).core.spad = s.core.spad := by rfl

@[simp] theorem setCtx_core_poison (s : State) (c : Nat) (x : Context) : (setCtx s c x).core.poison = s.core.poison := by rfl

@[simp] theorem setCtx_core_badRows (s : State) (c : Nat) (x : Context) : (setCtx s c x).core.badRows = s.core.badRows := by rfl

@[simp] theorem setCtx_core_cells (s : State) (c : Nat) (x : Context) : (setCtx s c x).core.cells = s.core.cells := by rfl

@[simp] theorem setCtx_core_headers (s : State) (c : Nat) (x : Context) : (setCtx s c x).core.headers = s.core.headers := by rfl

@[simp] theorem setCtx_core_grads (s : State) (c : Nat) (x : Context) : (setCtx s c x).core.grads = s.core.grads := by rfl

@[simp] theorem setCtx_core_tiles (s : State) (c : Nat) (x : Context) : (setCtx s c x).core.tiles = s.core.tiles := by rfl

@[simp] theorem setCtx_core_affine (s : State) (c : Nat) (x : Context) : (setCtx s c x).core.affine = s.core.affine := by rfl

@[simp] theorem setCtx_core_cmds (s : State) (c : Nat) (x : Context) : (setCtx s c x).core.cmds = s.core.cmds := by rfl

@[simp] theorem setCtx_core_nextId (s : State) (c : Nat) (x : Context) : (setCtx s c x).core.nextId = s.core.nextId := by rfl

@[simp] theorem setCtx_core_rollAt (s : State) (c : Nat) (x : Context) : (setCtx s c x).core.rollAt = s.core.rollAt := by rfl

@[simp] theorem setCtx_core_sealedExec (s : State) (c : Nat) (x : Context) : (setCtx s c x).core.sealedExec = s.core.sealedExec := by rfl

@[simp] theorem setCtx_core_pastRuns (s : State) (c : Nat) (x : Context) : (setCtx s c x).core.pastRuns = s.core.pastRuns := by rfl

@[simp] theorem setCtx_core_oldFences (s : State) (c : Nat) (x : Context) : (setCtx s c x).core.oldFences = s.core.oldFences := by rfl

@[simp] theorem setCtx_core_placed (s : State) (c : Nat) (x : Context) : (setCtx s c x).core.placed = s.core.placed := by rfl

@[simp] theorem setCtx_core_fenced (s : State) (c : Nat) (x : Context) : (setCtx s c x).core.fenced = s.core.fenced := by rfl

@[simp] theorem setCtx_core_undoUsed (s : State) (c : Nat) (x : Context) : (setCtx s c x).core.undoUsed = s.core.undoUsed := by rfl

@[simp] theorem setCtx_core_dtlb (s : State) (c : Nat) (x : Context) : (setCtx s c x).core.dtlb = s.core.dtlb := by rfl

@[simp] theorem setCtx_core_itlbA (s : State) (c : Nat) (x : Context) : (setCtx s c x).core.itlbA = s.core.itlbA := by rfl

@[simp] theorem setCtx_core_itlbX0 (s : State) (c : Nat) (x : Context) : (setCtx s c x).core.itlbX0 = s.core.itlbX0 := by rfl

@[simp] theorem setCtx_core_itlbX1 (s : State) (c : Nat) (x : Context) : (setCtx s c x).core.itlbX1 = s.core.itlbX1 := by rfl

@[simp] theorem setCtx_core_itlbC (s : State) (c : Nat) (x : Context) : (setCtx s c x).core.itlbC = s.core.itlbC := by rfl

@[simp] theorem setCtx_core_freeze (s : State) (c : Nat) (x : Context) : (setCtx s c x).core.freeze = s.core.freeze := by rfl

@[simp] theorem setCtx_core_bankMatrix (s : State) (c : Nat) (x : Context) : (setCtx s c x).core.bankMatrix = s.core.bankMatrix := by rfl

@[simp] theorem setCtx_core_bankSnap (s : State) (c : Nat) (x : Context) : (setCtx s c x).core.bankSnap = s.core.bankSnap := by rfl

@[simp] theorem setCtx_core_streamTurns (s : State) (c : Nat) (x : Context) : (setCtx s c x).core.streamTurns = s.core.streamTurns := by rfl

@[simp] theorem setCtx_core_streamWait (s : State) (c : Nat) (x : Context) : (setCtx s c x).core.streamWait = s.core.streamWait := by rfl

@[simp] theorem setCtx_core_streamLast (s : State) (c : Nat) (x : Context) : (setCtx s c x).core.streamLast = s.core.streamLast := by rfl

@[simp] theorem setCtx_core_nwrs (s : State) (c : Nat) (x : Context) : (setCtx s c x).core.nwrs = s.core.nwrs := by rfl

@[simp] theorem setCtx_core_consumed (s : State) (c : Nat) (x : Context) : (setCtx s c x).core.consumed = s.core.consumed := by rfl

@[simp] theorem setCtx_core_counted (s : State) (c : Nat) (x : Context) : (setCtx s c x).core.counted = s.core.counted := by rfl

@[simp] theorem setCluster_pkg (s : State) (c : Cluster) : (setCluster s c).pkg = s.pkg := by rfl

@[simp] theorem setCluster_inbox (s : State) (c : Cluster) : (setCluster s c).inbox = s.inbox := by rfl

@[simp] theorem setCluster_turn (s : State) (c : Cluster) : (setCluster s c).turn = s.turn := by rfl

@[simp] theorem setCluster_pastEdge (s : State) (c : Cluster) : (setCluster s c).pastEdge = s.pastEdge := by rfl

@[simp] theorem setCluster_syncNow (s : State) (c : Cluster) : (setCluster s c).syncNow = s.syncNow := by rfl

@[simp] theorem setCluster_sgo (s : State) (c : Cluster) : (setCluster s c).sgo = s.sgo := by rfl

@[simp] theorem setCluster_otherGo (s : State) (c : Cluster) : (setCluster s c).otherGo = s.otherGo := by rfl

@[simp] theorem setCluster_now (s : State) (c : Cluster) : (setCluster s c).now = s.now := by rfl

@[simp] theorem setCluster_served (s : State) (c : Cluster) : (setCluster s c).served = s.served := by rfl

@[simp] theorem setCluster_granted (s : State) (c : Cluster) : (setCluster s c).granted = s.granted := by rfl

@[simp] theorem setCluster_banksUsed (s : State) (c : Cluster) : (setCluster s c).banksUsed = s.banksUsed := by rfl

@[simp] theorem setCluster_pace (s : State) (c : Cluster) : (setCluster s c).pace = s.pace := by rfl

@[simp] theorem setCluster_fresh (s : State) (c : Cluster) : (setCluster s c).fresh = s.fresh := by rfl

@[simp] theorem setCluster_core_index (s : State) (c : Cluster) : (setCluster s c).core.index = s.core.index := by rfl

@[simp] theorem setCluster_core_slot0 (s : State) (c : Cluster) : (setCluster s c).core.slot0 = s.core.slot0 := by rfl

@[simp] theorem setCluster_core_slot1 (s : State) (c : Cluster) : (setCluster s c).core.slot1 = s.core.slot1 := by rfl

@[simp] theorem setCluster_core_act (s : State) (c : Cluster) : (setCluster s c).core.act = s.core.act := by rfl

@[simp] theorem setCluster_core_deadTill (s : State) (c : Cluster) : (setCluster s c).core.deadTill = s.core.deadTill := by rfl

@[simp] theorem setCluster_core_ctl (s : State) (c : Cluster) : (setCluster s c).core.ctl = s.core.ctl := by rfl

@[simp] theorem setCluster_core_sctl (s : State) (c : Cluster) : (setCluster s c).core.sctl = s.core.sctl := by rfl

@[simp] theorem setCluster_core_journal (s : State) (c : Cluster) : (setCluster s c).core.journal = s.core.journal := by rfl

@[simp] theorem setCluster_core_clauses (s : State) (c : Cluster) : (setCluster s c).core.clauses = s.core.clauses := by rfl

@[simp] theorem setCluster_core_held (s : State) (c : Cluster) : (setCluster s c).core.held = s.core.held := by rfl

@[simp] theorem setCluster_core_out (s : State) (c : Cluster) : (setCluster s c).core.out = s.core.out := by rfl

@[simp] theorem setCluster_core_spad (s : State) (c : Cluster) : (setCluster s c).core.spad = s.core.spad := by rfl

@[simp] theorem setCluster_core_poison (s : State) (c : Cluster) : (setCluster s c).core.poison = s.core.poison := by rfl

@[simp] theorem setCluster_core_badRows (s : State) (c : Cluster) : (setCluster s c).core.badRows = s.core.badRows := by rfl

@[simp] theorem setCluster_core_cells (s : State) (c : Cluster) : (setCluster s c).core.cells = s.core.cells := by rfl

@[simp] theorem setCluster_core_headers (s : State) (c : Cluster) : (setCluster s c).core.headers = s.core.headers := by rfl

@[simp] theorem setCluster_core_grads (s : State) (c : Cluster) : (setCluster s c).core.grads = s.core.grads := by rfl

@[simp] theorem setCluster_core_tiles (s : State) (c : Cluster) : (setCluster s c).core.tiles = s.core.tiles := by rfl

@[simp] theorem setCluster_core_affine (s : State) (c : Cluster) : (setCluster s c).core.affine = s.core.affine := by rfl

@[simp] theorem setCluster_core_cmds (s : State) (c : Cluster) : (setCluster s c).core.cmds = s.core.cmds := by rfl

@[simp] theorem setCluster_core_nextId (s : State) (c : Cluster) : (setCluster s c).core.nextId = s.core.nextId := by rfl

@[simp] theorem setCluster_core_rollAt (s : State) (c : Cluster) : (setCluster s c).core.rollAt = s.core.rollAt := by rfl

@[simp] theorem setCluster_core_sealedExec (s : State) (c : Cluster) : (setCluster s c).core.sealedExec = s.core.sealedExec := by rfl

@[simp] theorem setCluster_core_pastRuns (s : State) (c : Cluster) : (setCluster s c).core.pastRuns = s.core.pastRuns := by rfl

@[simp] theorem setCluster_core_oldFences (s : State) (c : Cluster) : (setCluster s c).core.oldFences = s.core.oldFences := by rfl

@[simp] theorem setCluster_core_placed (s : State) (c : Cluster) : (setCluster s c).core.placed = s.core.placed := by rfl

@[simp] theorem setCluster_core_fenced (s : State) (c : Cluster) : (setCluster s c).core.fenced = s.core.fenced := by rfl

@[simp] theorem setCluster_core_undoUsed (s : State) (c : Cluster) : (setCluster s c).core.undoUsed = s.core.undoUsed := by rfl

@[simp] theorem setCluster_core_dtlb (s : State) (c : Cluster) : (setCluster s c).core.dtlb = s.core.dtlb := by rfl

@[simp] theorem setCluster_core_itlbA (s : State) (c : Cluster) : (setCluster s c).core.itlbA = s.core.itlbA := by rfl

@[simp] theorem setCluster_core_itlbX0 (s : State) (c : Cluster) : (setCluster s c).core.itlbX0 = s.core.itlbX0 := by rfl

@[simp] theorem setCluster_core_itlbX1 (s : State) (c : Cluster) : (setCluster s c).core.itlbX1 = s.core.itlbX1 := by rfl

@[simp] theorem setCluster_core_itlbC (s : State) (c : Cluster) : (setCluster s c).core.itlbC = s.core.itlbC := by rfl

@[simp] theorem setCluster_core_freeze (s : State) (c : Cluster) : (setCluster s c).core.freeze = s.core.freeze := by rfl

@[simp] theorem setCluster_core_bankMatrix (s : State) (c : Cluster) : (setCluster s c).core.bankMatrix = s.core.bankMatrix := by rfl

@[simp] theorem setCluster_core_bankSnap (s : State) (c : Cluster) : (setCluster s c).core.bankSnap = s.core.bankSnap := by rfl

@[simp] theorem setCluster_core_streamTurns (s : State) (c : Cluster) : (setCluster s c).core.streamTurns = s.core.streamTurns := by rfl

@[simp] theorem setCluster_core_streamWait (s : State) (c : Cluster) : (setCluster s c).core.streamWait = s.core.streamWait := by rfl

@[simp] theorem setCluster_core_streamLast (s : State) (c : Cluster) : (setCluster s c).core.streamLast = s.core.streamLast := by rfl

@[simp] theorem setCluster_core_nwrs (s : State) (c : Cluster) : (setCluster s c).core.nwrs = s.core.nwrs := by rfl

@[simp] theorem setCluster_core_consumed (s : State) (c : Cluster) : (setCluster s c).core.consumed = s.core.consumed := by rfl

@[simp] theorem setCluster_core_counted (s : State) (c : Cluster) : (setCluster s c).core.counted = s.core.counted := by rfl

@[simp] theorem writeMem_cluster (s : State) (pa : Nat) (bs : List Byte) : (writeMem s pa bs).cluster = s.cluster := by rfl

@[simp] theorem writeMem_inbox (s : State) (pa : Nat) (bs : List Byte) : (writeMem s pa bs).inbox = s.inbox := by rfl

@[simp] theorem writeMem_turn (s : State) (pa : Nat) (bs : List Byte) : (writeMem s pa bs).turn = s.turn := by rfl

@[simp] theorem writeMem_pastEdge (s : State) (pa : Nat) (bs : List Byte) : (writeMem s pa bs).pastEdge = s.pastEdge := by rfl

@[simp] theorem writeMem_syncNow (s : State) (pa : Nat) (bs : List Byte) : (writeMem s pa bs).syncNow = s.syncNow := by rfl

@[simp] theorem writeMem_sgo (s : State) (pa : Nat) (bs : List Byte) : (writeMem s pa bs).sgo = s.sgo := by rfl

@[simp] theorem writeMem_otherGo (s : State) (pa : Nat) (bs : List Byte) : (writeMem s pa bs).otherGo = s.otherGo := by rfl

@[simp] theorem writeMem_now (s : State) (pa : Nat) (bs : List Byte) : (writeMem s pa bs).now = s.now := by rfl

@[simp] theorem writeMem_served (s : State) (pa : Nat) (bs : List Byte) : (writeMem s pa bs).served = s.served := by rfl

@[simp] theorem writeMem_granted (s : State) (pa : Nat) (bs : List Byte) : (writeMem s pa bs).granted = s.granted := by rfl

@[simp] theorem writeMem_banksUsed (s : State) (pa : Nat) (bs : List Byte) : (writeMem s pa bs).banksUsed = s.banksUsed := by rfl

@[simp] theorem writeMem_pace (s : State) (pa : Nat) (bs : List Byte) : (writeMem s pa bs).pace = s.pace := by rfl

@[simp] theorem writeMem_fresh (s : State) (pa : Nat) (bs : List Byte) : (writeMem s pa bs).fresh = s.fresh := by rfl

@[simp] theorem writeMem_core_index (s : State) (pa : Nat) (bs : List Byte) : (writeMem s pa bs).core.index = s.core.index := by rfl

@[simp] theorem writeMem_core_slot0 (s : State) (pa : Nat) (bs : List Byte) : (writeMem s pa bs).core.slot0 = s.core.slot0 := by rfl

@[simp] theorem writeMem_core_slot1 (s : State) (pa : Nat) (bs : List Byte) : (writeMem s pa bs).core.slot1 = s.core.slot1 := by rfl

@[simp] theorem writeMem_core_act (s : State) (pa : Nat) (bs : List Byte) : (writeMem s pa bs).core.act = s.core.act := by rfl

@[simp] theorem writeMem_core_deadTill (s : State) (pa : Nat) (bs : List Byte) : (writeMem s pa bs).core.deadTill = s.core.deadTill := by rfl

@[simp] theorem writeMem_core_ctl (s : State) (pa : Nat) (bs : List Byte) : (writeMem s pa bs).core.ctl = s.core.ctl := by rfl

@[simp] theorem writeMem_core_sctl (s : State) (pa : Nat) (bs : List Byte) : (writeMem s pa bs).core.sctl = s.core.sctl := by rfl

@[simp] theorem writeMem_core_journal (s : State) (pa : Nat) (bs : List Byte) : (writeMem s pa bs).core.journal = s.core.journal := by rfl

@[simp] theorem writeMem_core_clauses (s : State) (pa : Nat) (bs : List Byte) : (writeMem s pa bs).core.clauses = s.core.clauses := by rfl

@[simp] theorem writeMem_core_held (s : State) (pa : Nat) (bs : List Byte) : (writeMem s pa bs).core.held = s.core.held := by rfl

@[simp] theorem writeMem_core_out (s : State) (pa : Nat) (bs : List Byte) : (writeMem s pa bs).core.out = s.core.out := by rfl

@[simp] theorem writeMem_core_spad (s : State) (pa : Nat) (bs : List Byte) : (writeMem s pa bs).core.spad = s.core.spad := by rfl

@[simp] theorem writeMem_core_poison (s : State) (pa : Nat) (bs : List Byte) : (writeMem s pa bs).core.poison = s.core.poison := by rfl

@[simp] theorem writeMem_core_badRows (s : State) (pa : Nat) (bs : List Byte) : (writeMem s pa bs).core.badRows = s.core.badRows := by rfl

@[simp] theorem writeMem_core_cells (s : State) (pa : Nat) (bs : List Byte) : (writeMem s pa bs).core.cells = s.core.cells := by rfl

@[simp] theorem writeMem_core_headers (s : State) (pa : Nat) (bs : List Byte) : (writeMem s pa bs).core.headers = s.core.headers := by rfl

@[simp] theorem writeMem_core_grads (s : State) (pa : Nat) (bs : List Byte) : (writeMem s pa bs).core.grads = s.core.grads := by rfl

@[simp] theorem writeMem_core_tiles (s : State) (pa : Nat) (bs : List Byte) : (writeMem s pa bs).core.tiles = s.core.tiles := by rfl

@[simp] theorem writeMem_core_affine (s : State) (pa : Nat) (bs : List Byte) : (writeMem s pa bs).core.affine = s.core.affine := by rfl

@[simp] theorem writeMem_core_cmds (s : State) (pa : Nat) (bs : List Byte) : (writeMem s pa bs).core.cmds = s.core.cmds := by rfl

@[simp] theorem writeMem_core_nextId (s : State) (pa : Nat) (bs : List Byte) : (writeMem s pa bs).core.nextId = s.core.nextId := by rfl

@[simp] theorem writeMem_core_rollAt (s : State) (pa : Nat) (bs : List Byte) : (writeMem s pa bs).core.rollAt = s.core.rollAt := by rfl

@[simp] theorem writeMem_core_sealedExec (s : State) (pa : Nat) (bs : List Byte) : (writeMem s pa bs).core.sealedExec = s.core.sealedExec := by rfl

@[simp] theorem writeMem_core_pastRuns (s : State) (pa : Nat) (bs : List Byte) : (writeMem s pa bs).core.pastRuns = s.core.pastRuns := by rfl

@[simp] theorem writeMem_core_oldFences (s : State) (pa : Nat) (bs : List Byte) : (writeMem s pa bs).core.oldFences = s.core.oldFences := by rfl

@[simp] theorem writeMem_core_placed (s : State) (pa : Nat) (bs : List Byte) : (writeMem s pa bs).core.placed = s.core.placed := by rfl

@[simp] theorem writeMem_core_fenced (s : State) (pa : Nat) (bs : List Byte) : (writeMem s pa bs).core.fenced = s.core.fenced := by rfl

@[simp] theorem writeMem_core_undoUsed (s : State) (pa : Nat) (bs : List Byte) : (writeMem s pa bs).core.undoUsed = s.core.undoUsed := by rfl

@[simp] theorem writeMem_core_dtlb (s : State) (pa : Nat) (bs : List Byte) : (writeMem s pa bs).core.dtlb = s.core.dtlb := by rfl

@[simp] theorem writeMem_core_itlbA (s : State) (pa : Nat) (bs : List Byte) : (writeMem s pa bs).core.itlbA = s.core.itlbA := by rfl

@[simp] theorem writeMem_core_itlbX0 (s : State) (pa : Nat) (bs : List Byte) : (writeMem s pa bs).core.itlbX0 = s.core.itlbX0 := by rfl

@[simp] theorem writeMem_core_itlbX1 (s : State) (pa : Nat) (bs : List Byte) : (writeMem s pa bs).core.itlbX1 = s.core.itlbX1 := by rfl

@[simp] theorem writeMem_core_itlbC (s : State) (pa : Nat) (bs : List Byte) : (writeMem s pa bs).core.itlbC = s.core.itlbC := by rfl

@[simp] theorem writeMem_core_freeze (s : State) (pa : Nat) (bs : List Byte) : (writeMem s pa bs).core.freeze = s.core.freeze := by rfl

@[simp] theorem writeMem_core_bankMatrix (s : State) (pa : Nat) (bs : List Byte) : (writeMem s pa bs).core.bankMatrix = s.core.bankMatrix := by rfl

@[simp] theorem writeMem_core_bankSnap (s : State) (pa : Nat) (bs : List Byte) : (writeMem s pa bs).core.bankSnap = s.core.bankSnap := by rfl

@[simp] theorem writeMem_core_streamTurns (s : State) (pa : Nat) (bs : List Byte) : (writeMem s pa bs).core.streamTurns = s.core.streamTurns := by rfl

@[simp] theorem writeMem_core_streamWait (s : State) (pa : Nat) (bs : List Byte) : (writeMem s pa bs).core.streamWait = s.core.streamWait := by rfl

@[simp] theorem writeMem_core_streamLast (s : State) (pa : Nat) (bs : List Byte) : (writeMem s pa bs).core.streamLast = s.core.streamLast := by rfl

@[simp] theorem writeMem_core_nwrs (s : State) (pa : Nat) (bs : List Byte) : (writeMem s pa bs).core.nwrs = s.core.nwrs := by rfl

@[simp] theorem writeMem_core_consumed (s : State) (pa : Nat) (bs : List Byte) : (writeMem s pa bs).core.consumed = s.core.consumed := by rfl

@[simp] theorem writeMem_core_counted (s : State) (pa : Nat) (bs : List Byte) : (writeMem s pa bs).core.counted = s.core.counted := by rfl

@[simp] theorem fillData_cluster (s : State) (a : Context) (w : WalkResult) : (fillData s a w).cluster = s.cluster := by unfold fillData; cases w <;> rfl

@[simp] theorem fillData_inbox (s : State) (a : Context) (w : WalkResult) : (fillData s a w).inbox = s.inbox := by unfold fillData; cases w <;> rfl

@[simp] theorem fillData_turn (s : State) (a : Context) (w : WalkResult) : (fillData s a w).turn = s.turn := by unfold fillData; cases w <;> rfl

@[simp] theorem fillData_pastEdge (s : State) (a : Context) (w : WalkResult) : (fillData s a w).pastEdge = s.pastEdge := by unfold fillData; cases w <;> rfl

@[simp] theorem fillData_syncNow (s : State) (a : Context) (w : WalkResult) : (fillData s a w).syncNow = s.syncNow := by unfold fillData; cases w <;> rfl

@[simp] theorem fillData_sgo (s : State) (a : Context) (w : WalkResult) : (fillData s a w).sgo = s.sgo := by unfold fillData; cases w <;> rfl

@[simp] theorem fillData_otherGo (s : State) (a : Context) (w : WalkResult) : (fillData s a w).otherGo = s.otherGo := by unfold fillData; cases w <;> rfl

@[simp] theorem fillData_now (s : State) (a : Context) (w : WalkResult) : (fillData s a w).now = s.now := by unfold fillData; cases w <;> rfl

@[simp] theorem fillData_served (s : State) (a : Context) (w : WalkResult) : (fillData s a w).served = s.served := by unfold fillData; cases w <;> rfl

@[simp] theorem fillData_granted (s : State) (a : Context) (w : WalkResult) : (fillData s a w).granted = s.granted := by unfold fillData; cases w <;> rfl

@[simp] theorem fillData_banksUsed (s : State) (a : Context) (w : WalkResult) : (fillData s a w).banksUsed = s.banksUsed := by unfold fillData; cases w <;> rfl

@[simp] theorem fillData_pace (s : State) (a : Context) (w : WalkResult) : (fillData s a w).pace = s.pace := by unfold fillData; cases w <;> rfl

@[simp] theorem fillData_core_index (s : State) (a : Context) (w : WalkResult) : (fillData s a w).core.index = s.core.index := by unfold fillData; cases w <;> rfl

@[simp] theorem fillData_core_slot0 (s : State) (a : Context) (w : WalkResult) : (fillData s a w).core.slot0 = s.core.slot0 := by unfold fillData; cases w <;> rfl

@[simp] theorem fillData_core_slot1 (s : State) (a : Context) (w : WalkResult) : (fillData s a w).core.slot1 = s.core.slot1 := by unfold fillData; cases w <;> rfl

@[simp] theorem fillData_core_act (s : State) (a : Context) (w : WalkResult) : (fillData s a w).core.act = s.core.act := by unfold fillData; cases w <;> rfl

@[simp] theorem fillData_core_deadTill (s : State) (a : Context) (w : WalkResult) : (fillData s a w).core.deadTill = s.core.deadTill := by unfold fillData; cases w <;> rfl

@[simp] theorem fillData_core_ctl (s : State) (a : Context) (w : WalkResult) : (fillData s a w).core.ctl = s.core.ctl := by unfold fillData; cases w <;> rfl

@[simp] theorem fillData_core_sctl (s : State) (a : Context) (w : WalkResult) : (fillData s a w).core.sctl = s.core.sctl := by unfold fillData; cases w <;> rfl

@[simp] theorem fillData_core_journal (s : State) (a : Context) (w : WalkResult) : (fillData s a w).core.journal = s.core.journal := by unfold fillData; cases w <;> rfl

@[simp] theorem fillData_core_clauses (s : State) (a : Context) (w : WalkResult) : (fillData s a w).core.clauses = s.core.clauses := by unfold fillData; cases w <;> rfl

@[simp] theorem fillData_core_held (s : State) (a : Context) (w : WalkResult) : (fillData s a w).core.held = s.core.held := by unfold fillData; cases w <;> rfl

@[simp] theorem fillData_core_out (s : State) (a : Context) (w : WalkResult) : (fillData s a w).core.out = s.core.out := by unfold fillData; cases w <;> rfl

@[simp] theorem fillData_core_spad (s : State) (a : Context) (w : WalkResult) : (fillData s a w).core.spad = s.core.spad := by unfold fillData; cases w <;> rfl

@[simp] theorem fillData_core_poison (s : State) (a : Context) (w : WalkResult) : (fillData s a w).core.poison = s.core.poison := by unfold fillData; cases w <;> rfl

@[simp] theorem fillData_core_badRows (s : State) (a : Context) (w : WalkResult) : (fillData s a w).core.badRows = s.core.badRows := by unfold fillData; cases w <;> rfl

@[simp] theorem fillData_core_cells (s : State) (a : Context) (w : WalkResult) : (fillData s a w).core.cells = s.core.cells := by unfold fillData; cases w <;> rfl

@[simp] theorem fillData_core_headers (s : State) (a : Context) (w : WalkResult) : (fillData s a w).core.headers = s.core.headers := by unfold fillData; cases w <;> rfl

@[simp] theorem fillData_core_grads (s : State) (a : Context) (w : WalkResult) : (fillData s a w).core.grads = s.core.grads := by unfold fillData; cases w <;> rfl

@[simp] theorem fillData_core_tiles (s : State) (a : Context) (w : WalkResult) : (fillData s a w).core.tiles = s.core.tiles := by unfold fillData; cases w <;> rfl

@[simp] theorem fillData_core_affine (s : State) (a : Context) (w : WalkResult) : (fillData s a w).core.affine = s.core.affine := by unfold fillData; cases w <;> rfl

@[simp] theorem fillData_core_cmds (s : State) (a : Context) (w : WalkResult) : (fillData s a w).core.cmds = s.core.cmds := by unfold fillData; cases w <;> rfl

@[simp] theorem fillData_core_nextId (s : State) (a : Context) (w : WalkResult) : (fillData s a w).core.nextId = s.core.nextId := by unfold fillData; cases w <;> rfl

@[simp] theorem fillData_core_rollAt (s : State) (a : Context) (w : WalkResult) : (fillData s a w).core.rollAt = s.core.rollAt := by unfold fillData; cases w <;> rfl

@[simp] theorem fillData_core_sealedExec (s : State) (a : Context) (w : WalkResult) : (fillData s a w).core.sealedExec = s.core.sealedExec := by unfold fillData; cases w <;> rfl

@[simp] theorem fillData_core_pastRuns (s : State) (a : Context) (w : WalkResult) : (fillData s a w).core.pastRuns = s.core.pastRuns := by unfold fillData; cases w <;> rfl

@[simp] theorem fillData_core_oldFences (s : State) (a : Context) (w : WalkResult) : (fillData s a w).core.oldFences = s.core.oldFences := by unfold fillData; cases w <;> rfl

@[simp] theorem fillData_core_placed (s : State) (a : Context) (w : WalkResult) : (fillData s a w).core.placed = s.core.placed := by unfold fillData; cases w <;> rfl

@[simp] theorem fillData_core_fenced (s : State) (a : Context) (w : WalkResult) : (fillData s a w).core.fenced = s.core.fenced := by unfold fillData; cases w <;> rfl

@[simp] theorem fillData_core_undoUsed (s : State) (a : Context) (w : WalkResult) : (fillData s a w).core.undoUsed = s.core.undoUsed := by unfold fillData; cases w <;> rfl

@[simp] theorem fillData_core_itlbA (s : State) (a : Context) (w : WalkResult) : (fillData s a w).core.itlbA = s.core.itlbA := by unfold fillData; cases w <;> rfl

@[simp] theorem fillData_core_itlbX0 (s : State) (a : Context) (w : WalkResult) : (fillData s a w).core.itlbX0 = s.core.itlbX0 := by unfold fillData; cases w <;> rfl

@[simp] theorem fillData_core_itlbX1 (s : State) (a : Context) (w : WalkResult) : (fillData s a w).core.itlbX1 = s.core.itlbX1 := by unfold fillData; cases w <;> rfl

@[simp] theorem fillData_core_itlbC (s : State) (a : Context) (w : WalkResult) : (fillData s a w).core.itlbC = s.core.itlbC := by unfold fillData; cases w <;> rfl

@[simp] theorem fillData_core_freeze (s : State) (a : Context) (w : WalkResult) : (fillData s a w).core.freeze = s.core.freeze := by unfold fillData; cases w <;> rfl

@[simp] theorem fillData_core_bankMatrix (s : State) (a : Context) (w : WalkResult) : (fillData s a w).core.bankMatrix = s.core.bankMatrix := by unfold fillData; cases w <;> rfl

@[simp] theorem fillData_core_bankSnap (s : State) (a : Context) (w : WalkResult) : (fillData s a w).core.bankSnap = s.core.bankSnap := by unfold fillData; cases w <;> rfl

@[simp] theorem fillData_core_streamTurns (s : State) (a : Context) (w : WalkResult) : (fillData s a w).core.streamTurns = s.core.streamTurns := by unfold fillData; cases w <;> rfl

@[simp] theorem fillData_core_streamWait (s : State) (a : Context) (w : WalkResult) : (fillData s a w).core.streamWait = s.core.streamWait := by unfold fillData; cases w <;> rfl

@[simp] theorem fillData_core_streamLast (s : State) (a : Context) (w : WalkResult) : (fillData s a w).core.streamLast = s.core.streamLast := by unfold fillData; cases w <;> rfl

@[simp] theorem fillData_core_nwrs (s : State) (a : Context) (w : WalkResult) : (fillData s a w).core.nwrs = s.core.nwrs := by unfold fillData; cases w <;> rfl

@[simp] theorem fillData_core_consumed (s : State) (a : Context) (w : WalkResult) : (fillData s a w).core.consumed = s.core.consumed := by unfold fillData; cases w <;> rfl

@[simp] theorem fillData_core_counted (s : State) (a : Context) (w : WalkResult) : (fillData s a w).core.counted = s.core.counted := by unfold fillData; cases w <;> rfl

@[simp] theorem fillFetch_cluster (s : State) (v : VoiceId) (a : Context) (w : WalkResult) : (fillFetch s v a w).cluster = s.cluster := by unfold fillFetch; cases w <;> cases v <;> rfl

@[simp] theorem fillFetch_inbox (s : State) (v : VoiceId) (a : Context) (w : WalkResult) : (fillFetch s v a w).inbox = s.inbox := by unfold fillFetch; cases w <;> cases v <;> rfl

@[simp] theorem fillFetch_turn (s : State) (v : VoiceId) (a : Context) (w : WalkResult) : (fillFetch s v a w).turn = s.turn := by unfold fillFetch; cases w <;> cases v <;> rfl

@[simp] theorem fillFetch_pastEdge (s : State) (v : VoiceId) (a : Context) (w : WalkResult) : (fillFetch s v a w).pastEdge = s.pastEdge := by unfold fillFetch; cases w <;> cases v <;> rfl

@[simp] theorem fillFetch_syncNow (s : State) (v : VoiceId) (a : Context) (w : WalkResult) : (fillFetch s v a w).syncNow = s.syncNow := by unfold fillFetch; cases w <;> cases v <;> rfl

@[simp] theorem fillFetch_sgo (s : State) (v : VoiceId) (a : Context) (w : WalkResult) : (fillFetch s v a w).sgo = s.sgo := by unfold fillFetch; cases w <;> cases v <;> rfl

@[simp] theorem fillFetch_otherGo (s : State) (v : VoiceId) (a : Context) (w : WalkResult) : (fillFetch s v a w).otherGo = s.otherGo := by unfold fillFetch; cases w <;> cases v <;> rfl

@[simp] theorem fillFetch_now (s : State) (v : VoiceId) (a : Context) (w : WalkResult) : (fillFetch s v a w).now = s.now := by unfold fillFetch; cases w <;> cases v <;> rfl

@[simp] theorem fillFetch_served (s : State) (v : VoiceId) (a : Context) (w : WalkResult) : (fillFetch s v a w).served = s.served := by unfold fillFetch; cases w <;> cases v <;> rfl

@[simp] theorem fillFetch_granted (s : State) (v : VoiceId) (a : Context) (w : WalkResult) : (fillFetch s v a w).granted = s.granted := by unfold fillFetch; cases w <;> cases v <;> rfl

@[simp] theorem fillFetch_banksUsed (s : State) (v : VoiceId) (a : Context) (w : WalkResult) : (fillFetch s v a w).banksUsed = s.banksUsed := by unfold fillFetch; cases w <;> cases v <;> rfl

@[simp] theorem fillFetch_pace (s : State) (v : VoiceId) (a : Context) (w : WalkResult) : (fillFetch s v a w).pace = s.pace := by unfold fillFetch; cases w <;> cases v <;> rfl

@[simp] theorem fillFetch_core_index (s : State) (v : VoiceId) (a : Context) (w : WalkResult) : (fillFetch s v a w).core.index = s.core.index := by unfold fillFetch; cases w <;> cases v <;> rfl

@[simp] theorem fillFetch_core_slot0 (s : State) (v : VoiceId) (a : Context) (w : WalkResult) : (fillFetch s v a w).core.slot0 = s.core.slot0 := by unfold fillFetch; cases w <;> cases v <;> rfl

@[simp] theorem fillFetch_core_slot1 (s : State) (v : VoiceId) (a : Context) (w : WalkResult) : (fillFetch s v a w).core.slot1 = s.core.slot1 := by unfold fillFetch; cases w <;> cases v <;> rfl

@[simp] theorem fillFetch_core_act (s : State) (v : VoiceId) (a : Context) (w : WalkResult) : (fillFetch s v a w).core.act = s.core.act := by unfold fillFetch; cases w <;> cases v <;> rfl

@[simp] theorem fillFetch_core_deadTill (s : State) (v : VoiceId) (a : Context) (w : WalkResult) : (fillFetch s v a w).core.deadTill = s.core.deadTill := by unfold fillFetch; cases w <;> cases v <;> rfl

@[simp] theorem fillFetch_core_ctl (s : State) (v : VoiceId) (a : Context) (w : WalkResult) : (fillFetch s v a w).core.ctl = s.core.ctl := by unfold fillFetch; cases w <;> cases v <;> rfl

@[simp] theorem fillFetch_core_sctl (s : State) (v : VoiceId) (a : Context) (w : WalkResult) : (fillFetch s v a w).core.sctl = s.core.sctl := by unfold fillFetch; cases w <;> cases v <;> rfl

@[simp] theorem fillFetch_core_journal (s : State) (v : VoiceId) (a : Context) (w : WalkResult) : (fillFetch s v a w).core.journal = s.core.journal := by unfold fillFetch; cases w <;> cases v <;> rfl

@[simp] theorem fillFetch_core_clauses (s : State) (v : VoiceId) (a : Context) (w : WalkResult) : (fillFetch s v a w).core.clauses = s.core.clauses := by unfold fillFetch; cases w <;> cases v <;> rfl

@[simp] theorem fillFetch_core_held (s : State) (v : VoiceId) (a : Context) (w : WalkResult) : (fillFetch s v a w).core.held = s.core.held := by unfold fillFetch; cases w <;> cases v <;> rfl

@[simp] theorem fillFetch_core_out (s : State) (v : VoiceId) (a : Context) (w : WalkResult) : (fillFetch s v a w).core.out = s.core.out := by unfold fillFetch; cases w <;> cases v <;> rfl

@[simp] theorem fillFetch_core_spad (s : State) (v : VoiceId) (a : Context) (w : WalkResult) : (fillFetch s v a w).core.spad = s.core.spad := by unfold fillFetch; cases w <;> cases v <;> rfl

@[simp] theorem fillFetch_core_poison (s : State) (v : VoiceId) (a : Context) (w : WalkResult) : (fillFetch s v a w).core.poison = s.core.poison := by unfold fillFetch; cases w <;> cases v <;> rfl

@[simp] theorem fillFetch_core_badRows (s : State) (v : VoiceId) (a : Context) (w : WalkResult) : (fillFetch s v a w).core.badRows = s.core.badRows := by unfold fillFetch; cases w <;> cases v <;> rfl

@[simp] theorem fillFetch_core_cells (s : State) (v : VoiceId) (a : Context) (w : WalkResult) : (fillFetch s v a w).core.cells = s.core.cells := by unfold fillFetch; cases w <;> cases v <;> rfl

@[simp] theorem fillFetch_core_headers (s : State) (v : VoiceId) (a : Context) (w : WalkResult) : (fillFetch s v a w).core.headers = s.core.headers := by unfold fillFetch; cases w <;> cases v <;> rfl

@[simp] theorem fillFetch_core_grads (s : State) (v : VoiceId) (a : Context) (w : WalkResult) : (fillFetch s v a w).core.grads = s.core.grads := by unfold fillFetch; cases w <;> cases v <;> rfl

@[simp] theorem fillFetch_core_tiles (s : State) (v : VoiceId) (a : Context) (w : WalkResult) : (fillFetch s v a w).core.tiles = s.core.tiles := by unfold fillFetch; cases w <;> cases v <;> rfl

@[simp] theorem fillFetch_core_affine (s : State) (v : VoiceId) (a : Context) (w : WalkResult) : (fillFetch s v a w).core.affine = s.core.affine := by unfold fillFetch; cases w <;> cases v <;> rfl

@[simp] theorem fillFetch_core_cmds (s : State) (v : VoiceId) (a : Context) (w : WalkResult) : (fillFetch s v a w).core.cmds = s.core.cmds := by unfold fillFetch; cases w <;> cases v <;> rfl

@[simp] theorem fillFetch_core_nextId (s : State) (v : VoiceId) (a : Context) (w : WalkResult) : (fillFetch s v a w).core.nextId = s.core.nextId := by unfold fillFetch; cases w <;> cases v <;> rfl

@[simp] theorem fillFetch_core_rollAt (s : State) (v : VoiceId) (a : Context) (w : WalkResult) : (fillFetch s v a w).core.rollAt = s.core.rollAt := by unfold fillFetch; cases w <;> cases v <;> rfl

@[simp] theorem fillFetch_core_sealedExec (s : State) (v : VoiceId) (a : Context) (w : WalkResult) : (fillFetch s v a w).core.sealedExec = s.core.sealedExec := by unfold fillFetch; cases w <;> cases v <;> rfl

@[simp] theorem fillFetch_core_pastRuns (s : State) (v : VoiceId) (a : Context) (w : WalkResult) : (fillFetch s v a w).core.pastRuns = s.core.pastRuns := by unfold fillFetch; cases w <;> cases v <;> rfl

@[simp] theorem fillFetch_core_oldFences (s : State) (v : VoiceId) (a : Context) (w : WalkResult) : (fillFetch s v a w).core.oldFences = s.core.oldFences := by unfold fillFetch; cases w <;> cases v <;> rfl

@[simp] theorem fillFetch_core_placed (s : State) (v : VoiceId) (a : Context) (w : WalkResult) : (fillFetch s v a w).core.placed = s.core.placed := by unfold fillFetch; cases w <;> cases v <;> rfl

@[simp] theorem fillFetch_core_fenced (s : State) (v : VoiceId) (a : Context) (w : WalkResult) : (fillFetch s v a w).core.fenced = s.core.fenced := by unfold fillFetch; cases w <;> cases v <;> rfl

@[simp] theorem fillFetch_core_undoUsed (s : State) (v : VoiceId) (a : Context) (w : WalkResult) : (fillFetch s v a w).core.undoUsed = s.core.undoUsed := by unfold fillFetch; cases w <;> cases v <;> rfl

@[simp] theorem fillFetch_core_dtlb (s : State) (v : VoiceId) (a : Context) (w : WalkResult) : (fillFetch s v a w).core.dtlb = s.core.dtlb := by unfold fillFetch; cases w <;> cases v <;> rfl

@[simp] theorem fillFetch_core_freeze (s : State) (v : VoiceId) (a : Context) (w : WalkResult) : (fillFetch s v a w).core.freeze = s.core.freeze := by unfold fillFetch; cases w <;> cases v <;> rfl

@[simp] theorem fillFetch_core_bankMatrix (s : State) (v : VoiceId) (a : Context) (w : WalkResult) : (fillFetch s v a w).core.bankMatrix = s.core.bankMatrix := by unfold fillFetch; cases w <;> cases v <;> rfl

@[simp] theorem fillFetch_core_bankSnap (s : State) (v : VoiceId) (a : Context) (w : WalkResult) : (fillFetch s v a w).core.bankSnap = s.core.bankSnap := by unfold fillFetch; cases w <;> cases v <;> rfl

@[simp] theorem fillFetch_core_streamTurns (s : State) (v : VoiceId) (a : Context) (w : WalkResult) : (fillFetch s v a w).core.streamTurns = s.core.streamTurns := by unfold fillFetch; cases w <;> cases v <;> rfl

@[simp] theorem fillFetch_core_streamWait (s : State) (v : VoiceId) (a : Context) (w : WalkResult) : (fillFetch s v a w).core.streamWait = s.core.streamWait := by unfold fillFetch; cases w <;> cases v <;> rfl

@[simp] theorem fillFetch_core_streamLast (s : State) (v : VoiceId) (a : Context) (w : WalkResult) : (fillFetch s v a w).core.streamLast = s.core.streamLast := by unfold fillFetch; cases w <;> cases v <;> rfl

@[simp] theorem fillFetch_core_nwrs (s : State) (v : VoiceId) (a : Context) (w : WalkResult) : (fillFetch s v a w).core.nwrs = s.core.nwrs := by unfold fillFetch; cases w <;> cases v <;> rfl

@[simp] theorem fillFetch_core_consumed (s : State) (v : VoiceId) (a : Context) (w : WalkResult) : (fillFetch s v a w).core.consumed = s.core.consumed := by unfold fillFetch; cases w <;> cases v <;> rfl

@[simp] theorem fillFetch_core_counted (s : State) (v : VoiceId) (a : Context) (w : WalkResult) : (fillFetch s v a w).core.counted = s.core.counted := by unfold fillFetch; cases w <;> cases v <;> rfl

@[simp] theorem fillData_mem (s : State) (a : Context) (w : WalkResult) : (fillData s a w).pkg.mem = s.pkg.mem := by
  unfold fillData; cases w <;> rfl

@[simp] theorem fillFetch_mem (s : State) (v : VoiceId) (a : Context) (w : WalkResult) : (fillFetch s v a w).pkg.mem = s.pkg.mem := by
  unfold fillFetch; cases w <;> rfl

@[simp] theorem setCtx_mem (s : State) (c : Nat) (x : Context) : (setCtx s c x).pkg.mem = s.pkg.mem := rfl

/-! ### Reading what was put -/

@[simp] theorem getSlot_setSlot (s : State) (k : Nat) (x : Slot) : getSlot (setSlot s k x) k = x := by
  unfold getSlot setSlot; split <;> rfl

/-- The other slot is left alone. -/
theorem getSlot_setSlot_other (s : State) {j k : Nat} (x : Slot) (h : ¬(j = 0 ↔ k = 0)) :
    getSlot (setSlot s k x) j = getSlot s j := by
  unfold getSlot setSlot
  by_cases hj : j = 0 <;> by_cases hk : k = 0 <;> simp_all

@[simp] theorem slotVoice_setSlotVoice (x : Slot) (v : VoiceId) (y : Voice) : slotVoice (setSlotVoice x v y) v = y := by
  cases v <;> rfl

theorem slotVoice_setSlotVoice_ne (x : Slot) {u v : VoiceId} (y : Voice) (h : u ≠ v) :
    slotVoice (setSlotVoice x v y) u = slotVoice x u := by
  cases u <;> cases v <;> first | rfl | exact absurd rfl h

@[simp] theorem getVoice_setVoice (s : State) (k : Nat) (v : VoiceId) (y : Voice) : getVoice (setVoice s k v y) k v = y := by
  simp [getVoice, setVoice]

theorem getVoice_setVoice_ne (s : State) (k : Nat) {u v : VoiceId} (y : Voice) (h : u ≠ v) :
    getVoice (setVoice s k v y) k u = getVoice s k u := by
  simp [getVoice, setVoice, slotVoice_setSlotVoice_ne, h]

theorem getVoice_setVoice_other (s : State) {j k : Nat} (u v : VoiceId) (y : Voice) (h : ¬(j = 0 ↔ k = 0)) :
    getVoice (setVoice s k v y) j u = getVoice s j u := by
  simp only [getVoice, setVoice, getSlot_setSlot_other s _ h]

@[simp] theorem getArch_setArch (s : State) (k : Nat) (v : VoiceId) (a : VoiceArch) : getArch (setArch s k v a) k v = a := by
  simp [getArch, setArch]

theorem getArch_setArch_ne (s : State) (k : Nat) {u v : VoiceId} (a : VoiceArch) (h : u ≠ v) :
    getArch (setArch s k v a) k u = getArch s k u := by
  simp [getArch, setArch, getVoice_setVoice_ne, h]

theorem getArch_setArch_other (s : State) {j k : Nat} (u v : VoiceId) (a : VoiceArch) (h : ¬(j = 0 ↔ k = 0)) :
    getArch (setArch s k v a) j u = getArch s j u := by
  simp only [getArch, setArch, getVoice_setVoice_other s u v _ h]

@[simp] theorem archAt_setArchAt (s : State) (h : Here) (a : VoiceArch) : archAt (setArchAt s h a) h = a := by
  simp [archAt, setArchAt]

/-- A replaced voice leaves every other part of its slot alone. -/
theorem setSlotVoice_slotVoice (x : Slot) (v : VoiceId) : setSlotVoice x v (slotVoice x v) = x := by cases v <;> rfl

@[simp] theorem setSlotVoice_run (x : Slot) (v : VoiceId) (y : Voice) : (setSlotVoice x v y).run = x.run := by cases v <;> rfl

@[simp] theorem setSlotVoice_thread (x : Slot) (v : VoiceId) (y : Voice) : (setSlotVoice x v y).thread = x.thread := by cases v <;> rfl

@[simp] theorem setSlotVoice_stop (x : Slot) (v : VoiceId) (y : Voice) : (setSlotVoice x v y).stop = x.stop := by cases v <;> rfl

@[simp] theorem setSlotVoice_trapped (x : Slot) (v : VoiceId) (y : Voice) : (setSlotVoice x v y).trapped = x.trapped := by cases v <;> rfl

@[simp] theorem setSlotVoice_recAddr (x : Slot) (v : VoiceId) (y : Voice) : (setSlotVoice x v y).recAddr = x.recAddr := by cases v <;> rfl

@[simp] theorem setSlotVoice_recSlots (x : Slot) (v : VoiceId) (y : Voice) : (setSlotVoice x v y).recSlots = x.recSlots := by cases v <;> rfl

@[simp] theorem setSlotVoice_recWaits (x : Slot) (v : VoiceId) (y : Voice) : (setSlotVoice x v y).recWaits = x.recWaits := by cases v <;> rfl

@[simp] theorem setSlotVoice_recExited (x : Slot) (v : VoiceId) (y : Voice) : (setSlotVoice x v y).recExited = x.recExited := by cases v <;> rfl

@[simp] theorem setSlotVoice_startAt (x : Slot) (v : VoiceId) (y : Voice) : (setSlotVoice x v y).startAt = x.startAt := by cases v <;> rfl

@[simp] theorem setSlotVoice_heldSignal (x : Slot) (v : VoiceId) (y : Voice) : (setSlotVoice x v y).heldSignal = x.heldSignal := by cases v <;> rfl

@[simp] theorem setSlotVoice_pendSignal (x : Slot) (v : VoiceId) (y : Voice) : (setSlotVoice x v y).pendSignal = x.pendSignal := by cases v <;> rfl

@[simp] theorem setSlotVoice_pendPreempt (x : Slot) (v : VoiceId) (y : Voice) : (setSlotVoice x v y).pendPreempt = x.pendPreempt := by cases v <;> rfl

@[simp] theorem setSlotVoice_yielded (x : Slot) (v : VoiceId) (y : Voice) : (setSlotVoice x v y).yielded = x.yielded := by cases v <;> rfl

@[simp] theorem setSlotVoice_scyc (x : Slot) (v : VoiceId) (y : Voice) : (setSlotVoice x v y).scyc = x.scyc := by cases v <;> rfl

@[simp] theorem setSlotVoice_rollcnt (x : Slot) (v : VoiceId) (y : Voice) : (setSlotVoice x v y).rollcnt = x.rollcnt := by cases v <;> rfl

@[simp] theorem setSlotVoice_undoovf (x : Slot) (v : VoiceId) (y : Voice) : (setSlotVoice x v y).undoovf = x.undoovf := by cases v <;> rfl

@[simp] theorem setSlotVoice_pubs (x : Slot) (v : VoiceId) (y : Voice) : (setSlotVoice x v y).pubs = x.pubs := by cases v <;> rfl

@[simp] theorem setSlotVoice_fills (x : Slot) (v : VoiceId) (y : Voice) : (setSlotVoice x v y).fills = x.fills := by cases v <;> rfl

@[simp] theorem setSlotVoice_qvals (x : Slot) (v : VoiceId) (y : Voice) : (setSlotVoice x v y).qvals = x.qvals := by cases v <;> rfl

@[simp] theorem setSlotVoice_xfers (x : Slot) (v : VoiceId) (y : Voice) : (setSlotVoice x v y).xfers = x.xfers := by cases v <;> rfl

@[simp] theorem setSlotVoice_arrived (x : Slot) (v : VoiceId) (y : Voice) : (setSlotVoice x v y).arrived = x.arrived := by cases v <;> rfl

@[simp] theorem setSlotVoice_fences (x : Slot) (v : VoiceId) (y : Voice) : (setSlotVoice x v y).fences = x.fences := by cases v <;> rfl

@[simp] theorem setSlotVoice_breakAt (x : Slot) (v : VoiceId) (y : Voice) : (setSlotVoice x v y).breakAt = x.breakAt := by cases v <;> rfl

@[simp] theorem setSlotVoice_samplePeriod (x : Slot) (v : VoiceId) (y : Voice) : (setSlotVoice x v y).samplePeriod = x.samplePeriod := by cases v <;> rfl

@[simp] theorem setSlotVoice_sampledAt (x : Slot) (v : VoiceId) (y : Voice) : (setSlotVoice x v y).sampledAt = x.sampledAt := by cases v <;> rfl

@[simp] theorem setSlotVoice_injectAt (x : Slot) (v : VoiceId) (y : Voice) : (setSlotVoice x v y).injectAt = x.injectAt := by cases v <;> rfl

@[simp] theorem setSlotVoice_imageAt (x : Slot) (v : VoiceId) (y : Voice) : (setSlotVoice x v y).imageAt = x.imageAt := by cases v <;> rfl

@[simp] theorem getSlot_setVoice_run (s : State) (k : Nat) (v : VoiceId) (y : Voice) : (getSlot (setVoice s k v y) k).run = (getSlot s k).run := by simp [setVoice]

@[simp] theorem getSlot_setVoice_thread (s : State) (k : Nat) (v : VoiceId) (y : Voice) : (getSlot (setVoice s k v y) k).thread = (getSlot s k).thread := by simp [setVoice]

@[simp] theorem getSlot_setVoice_stop (s : State) (k : Nat) (v : VoiceId) (y : Voice) : (getSlot (setVoice s k v y) k).stop = (getSlot s k).stop := by simp [setVoice]

@[simp] theorem getSlot_setVoice_trapped (s : State) (k : Nat) (v : VoiceId) (y : Voice) : (getSlot (setVoice s k v y) k).trapped = (getSlot s k).trapped := by simp [setVoice]

@[simp] theorem getSlot_setVoice_recAddr (s : State) (k : Nat) (v : VoiceId) (y : Voice) : (getSlot (setVoice s k v y) k).recAddr = (getSlot s k).recAddr := by simp [setVoice]

@[simp] theorem getSlot_setVoice_recSlots (s : State) (k : Nat) (v : VoiceId) (y : Voice) : (getSlot (setVoice s k v y) k).recSlots = (getSlot s k).recSlots := by simp [setVoice]

@[simp] theorem getSlot_setVoice_recWaits (s : State) (k : Nat) (v : VoiceId) (y : Voice) : (getSlot (setVoice s k v y) k).recWaits = (getSlot s k).recWaits := by simp [setVoice]

@[simp] theorem getSlot_setVoice_recExited (s : State) (k : Nat) (v : VoiceId) (y : Voice) : (getSlot (setVoice s k v y) k).recExited = (getSlot s k).recExited := by simp [setVoice]

@[simp] theorem getSlot_setVoice_startAt (s : State) (k : Nat) (v : VoiceId) (y : Voice) : (getSlot (setVoice s k v y) k).startAt = (getSlot s k).startAt := by simp [setVoice]

@[simp] theorem getSlot_setVoice_heldSignal (s : State) (k : Nat) (v : VoiceId) (y : Voice) : (getSlot (setVoice s k v y) k).heldSignal = (getSlot s k).heldSignal := by simp [setVoice]

@[simp] theorem getSlot_setVoice_pendSignal (s : State) (k : Nat) (v : VoiceId) (y : Voice) : (getSlot (setVoice s k v y) k).pendSignal = (getSlot s k).pendSignal := by simp [setVoice]

@[simp] theorem getSlot_setVoice_pendPreempt (s : State) (k : Nat) (v : VoiceId) (y : Voice) : (getSlot (setVoice s k v y) k).pendPreempt = (getSlot s k).pendPreempt := by simp [setVoice]

@[simp] theorem getSlot_setVoice_yielded (s : State) (k : Nat) (v : VoiceId) (y : Voice) : (getSlot (setVoice s k v y) k).yielded = (getSlot s k).yielded := by simp [setVoice]

@[simp] theorem getSlot_setVoice_scyc (s : State) (k : Nat) (v : VoiceId) (y : Voice) : (getSlot (setVoice s k v y) k).scyc = (getSlot s k).scyc := by simp [setVoice]

@[simp] theorem getSlot_setVoice_rollcnt (s : State) (k : Nat) (v : VoiceId) (y : Voice) : (getSlot (setVoice s k v y) k).rollcnt = (getSlot s k).rollcnt := by simp [setVoice]

@[simp] theorem getSlot_setVoice_undoovf (s : State) (k : Nat) (v : VoiceId) (y : Voice) : (getSlot (setVoice s k v y) k).undoovf = (getSlot s k).undoovf := by simp [setVoice]

@[simp] theorem getSlot_setVoice_pubs (s : State) (k : Nat) (v : VoiceId) (y : Voice) : (getSlot (setVoice s k v y) k).pubs = (getSlot s k).pubs := by simp [setVoice]

@[simp] theorem getSlot_setVoice_fills (s : State) (k : Nat) (v : VoiceId) (y : Voice) : (getSlot (setVoice s k v y) k).fills = (getSlot s k).fills := by simp [setVoice]

@[simp] theorem getSlot_setVoice_qvals (s : State) (k : Nat) (v : VoiceId) (y : Voice) : (getSlot (setVoice s k v y) k).qvals = (getSlot s k).qvals := by simp [setVoice]

@[simp] theorem getSlot_setVoice_xfers (s : State) (k : Nat) (v : VoiceId) (y : Voice) : (getSlot (setVoice s k v y) k).xfers = (getSlot s k).xfers := by simp [setVoice]

@[simp] theorem getSlot_setVoice_arrived (s : State) (k : Nat) (v : VoiceId) (y : Voice) : (getSlot (setVoice s k v y) k).arrived = (getSlot s k).arrived := by simp [setVoice]

@[simp] theorem getSlot_setVoice_fences (s : State) (k : Nat) (v : VoiceId) (y : Voice) : (getSlot (setVoice s k v y) k).fences = (getSlot s k).fences := by simp [setVoice]

@[simp] theorem getSlot_setVoice_breakAt (s : State) (k : Nat) (v : VoiceId) (y : Voice) : (getSlot (setVoice s k v y) k).breakAt = (getSlot s k).breakAt := by simp [setVoice]

@[simp] theorem getSlot_setVoice_samplePeriod (s : State) (k : Nat) (v : VoiceId) (y : Voice) : (getSlot (setVoice s k v y) k).samplePeriod = (getSlot s k).samplePeriod := by simp [setVoice]

@[simp] theorem getSlot_setVoice_sampledAt (s : State) (k : Nat) (v : VoiceId) (y : Voice) : (getSlot (setVoice s k v y) k).sampledAt = (getSlot s k).sampledAt := by simp [setVoice]

@[simp] theorem getSlot_setVoice_injectAt (s : State) (k : Nat) (v : VoiceId) (y : Voice) : (getSlot (setVoice s k v y) k).injectAt = (getSlot s k).injectAt := by simp [setVoice]

@[simp] theorem getSlot_setVoice_imageAt (s : State) (k : Nat) (v : VoiceId) (y : Voice) : (getSlot (setVoice s k v y) k).imageAt = (getSlot s k).imageAt := by simp [setVoice]

@[simp] theorem getSlot_setArch_run (s : State) (k : Nat) (v : VoiceId) (a : VoiceArch) : (getSlot (setArch s k v a) k).run = (getSlot s k).run := by simp [setArch]

@[simp] theorem getSlot_setArch_thread (s : State) (k : Nat) (v : VoiceId) (a : VoiceArch) : (getSlot (setArch s k v a) k).thread = (getSlot s k).thread := by simp [setArch]

@[simp] theorem getSlot_setArch_stop (s : State) (k : Nat) (v : VoiceId) (a : VoiceArch) : (getSlot (setArch s k v a) k).stop = (getSlot s k).stop := by simp [setArch]

@[simp] theorem getSlot_setArch_trapped (s : State) (k : Nat) (v : VoiceId) (a : VoiceArch) : (getSlot (setArch s k v a) k).trapped = (getSlot s k).trapped := by simp [setArch]

@[simp] theorem getSlot_setArch_recAddr (s : State) (k : Nat) (v : VoiceId) (a : VoiceArch) : (getSlot (setArch s k v a) k).recAddr = (getSlot s k).recAddr := by simp [setArch]

@[simp] theorem getSlot_setArch_recSlots (s : State) (k : Nat) (v : VoiceId) (a : VoiceArch) : (getSlot (setArch s k v a) k).recSlots = (getSlot s k).recSlots := by simp [setArch]

@[simp] theorem getSlot_setArch_recWaits (s : State) (k : Nat) (v : VoiceId) (a : VoiceArch) : (getSlot (setArch s k v a) k).recWaits = (getSlot s k).recWaits := by simp [setArch]

@[simp] theorem getSlot_setArch_recExited (s : State) (k : Nat) (v : VoiceId) (a : VoiceArch) : (getSlot (setArch s k v a) k).recExited = (getSlot s k).recExited := by simp [setArch]

@[simp] theorem getSlot_setArch_startAt (s : State) (k : Nat) (v : VoiceId) (a : VoiceArch) : (getSlot (setArch s k v a) k).startAt = (getSlot s k).startAt := by simp [setArch]

@[simp] theorem getSlot_setArch_heldSignal (s : State) (k : Nat) (v : VoiceId) (a : VoiceArch) : (getSlot (setArch s k v a) k).heldSignal = (getSlot s k).heldSignal := by simp [setArch]

@[simp] theorem getSlot_setArch_pendSignal (s : State) (k : Nat) (v : VoiceId) (a : VoiceArch) : (getSlot (setArch s k v a) k).pendSignal = (getSlot s k).pendSignal := by simp [setArch]

@[simp] theorem getSlot_setArch_pendPreempt (s : State) (k : Nat) (v : VoiceId) (a : VoiceArch) : (getSlot (setArch s k v a) k).pendPreempt = (getSlot s k).pendPreempt := by simp [setArch]

@[simp] theorem getSlot_setArch_yielded (s : State) (k : Nat) (v : VoiceId) (a : VoiceArch) : (getSlot (setArch s k v a) k).yielded = (getSlot s k).yielded := by simp [setArch]

@[simp] theorem getSlot_setArch_scyc (s : State) (k : Nat) (v : VoiceId) (a : VoiceArch) : (getSlot (setArch s k v a) k).scyc = (getSlot s k).scyc := by simp [setArch]

@[simp] theorem getSlot_setArch_rollcnt (s : State) (k : Nat) (v : VoiceId) (a : VoiceArch) : (getSlot (setArch s k v a) k).rollcnt = (getSlot s k).rollcnt := by simp [setArch]

@[simp] theorem getSlot_setArch_undoovf (s : State) (k : Nat) (v : VoiceId) (a : VoiceArch) : (getSlot (setArch s k v a) k).undoovf = (getSlot s k).undoovf := by simp [setArch]

@[simp] theorem getSlot_setArch_pubs (s : State) (k : Nat) (v : VoiceId) (a : VoiceArch) : (getSlot (setArch s k v a) k).pubs = (getSlot s k).pubs := by simp [setArch]

@[simp] theorem getSlot_setArch_fills (s : State) (k : Nat) (v : VoiceId) (a : VoiceArch) : (getSlot (setArch s k v a) k).fills = (getSlot s k).fills := by simp [setArch]

@[simp] theorem getSlot_setArch_qvals (s : State) (k : Nat) (v : VoiceId) (a : VoiceArch) : (getSlot (setArch s k v a) k).qvals = (getSlot s k).qvals := by simp [setArch]

@[simp] theorem getSlot_setArch_xfers (s : State) (k : Nat) (v : VoiceId) (a : VoiceArch) : (getSlot (setArch s k v a) k).xfers = (getSlot s k).xfers := by simp [setArch]

@[simp] theorem getSlot_setArch_arrived (s : State) (k : Nat) (v : VoiceId) (a : VoiceArch) : (getSlot (setArch s k v a) k).arrived = (getSlot s k).arrived := by simp [setArch]

@[simp] theorem getSlot_setArch_fences (s : State) (k : Nat) (v : VoiceId) (a : VoiceArch) : (getSlot (setArch s k v a) k).fences = (getSlot s k).fences := by simp [setArch]

@[simp] theorem getSlot_setArch_breakAt (s : State) (k : Nat) (v : VoiceId) (a : VoiceArch) : (getSlot (setArch s k v a) k).breakAt = (getSlot s k).breakAt := by simp [setArch]

@[simp] theorem getSlot_setArch_samplePeriod (s : State) (k : Nat) (v : VoiceId) (a : VoiceArch) : (getSlot (setArch s k v a) k).samplePeriod = (getSlot s k).samplePeriod := by simp [setArch]

@[simp] theorem getSlot_setArch_sampledAt (s : State) (k : Nat) (v : VoiceId) (a : VoiceArch) : (getSlot (setArch s k v a) k).sampledAt = (getSlot s k).sampledAt := by simp [setArch]

@[simp] theorem getSlot_setArch_injectAt (s : State) (k : Nat) (v : VoiceId) (a : VoiceArch) : (getSlot (setArch s k v a) k).injectAt = (getSlot s k).injectAt := by simp [setArch]

@[simp] theorem getSlot_setArch_imageAt (s : State) (k : Nat) (v : VoiceId) (a : VoiceArch) : (getSlot (setArch s k v a) k).imageAt = (getSlot s k).imageAt := by simp [setArch]

@[simp] theorem getSlot_change (s : State) (k cl : Nat) (c : Change) (j : Nat) : getSlot (change s k cl c) j = getSlot s j := by simp [getSlot]

@[simp] theorem getVoice_change (s : State) (k cl : Nat) (c : Change) (j : Nat) (z : VoiceId) : getVoice (change s k cl c) j z = getVoice s j z := by simp [getVoice]

@[simp] theorem getArch_change (s : State) (k cl : Nat) (c : Change) (j : Nat) (z : VoiceId) : getArch (change s k cl c) j z = getArch s j z := by simp [getArch]

@[simp] theorem archAt_change (s : State) (k cl : Nat) (c : Change) (g : Here) : archAt (change s k cl c) g = archAt s g := by simp [archAt]

@[simp] theorem getSlot_changes (s : State) (k cl : Nat) (cs : List Change) (j : Nat) : getSlot (changes s k cl cs) j = getSlot s j := by simp [getSlot]

@[simp] theorem getVoice_changes (s : State) (k cl : Nat) (cs : List Change) (j : Nat) (z : VoiceId) : getVoice (changes s k cl cs) j z = getVoice s j z := by simp [getVoice]

@[simp] theorem getArch_changes (s : State) (k cl : Nat) (cs : List Change) (j : Nat) (z : VoiceId) : getArch (changes s k cl cs) j z = getArch s j z := by simp [getArch]

@[simp] theorem archAt_changes (s : State) (k cl : Nat) (cs : List Change) (g : Here) : archAt (changes s k cl cs) g = archAt s g := by simp [archAt]

@[simp] theorem getSlot_changeAt (s : State) (h : Here) (c : Change) (j : Nat) : getSlot (changeAt s h c) j = getSlot s j := by simp [getSlot]

@[simp] theorem getVoice_changeAt (s : State) (h : Here) (c : Change) (j : Nat) (z : VoiceId) : getVoice (changeAt s h c) j z = getVoice s j z := by simp [getVoice]

@[simp] theorem getArch_changeAt (s : State) (h : Here) (c : Change) (j : Nat) (z : VoiceId) : getArch (changeAt s h c) j z = getArch s j z := by simp [getArch]

@[simp] theorem archAt_changeAt (s : State) (h : Here) (c : Change) (g : Here) : archAt (changeAt s h c) g = archAt s g := by simp [archAt]

@[simp] theorem getSlot_pmCount (s : State) (k cl ev n : Nat) (j : Nat) : getSlot (pmCount s k cl ev n) j = getSlot s j := by simp [getSlot]

@[simp] theorem getVoice_pmCount (s : State) (k cl ev n : Nat) (j : Nat) (z : VoiceId) : getVoice (pmCount s k cl ev n) j z = getVoice s j z := by simp [getVoice]

@[simp] theorem getArch_pmCount (s : State) (k cl ev n : Nat) (j : Nat) (z : VoiceId) : getArch (pmCount s k cl ev n) j z = getArch s j z := by simp [getArch]

@[simp] theorem archAt_pmCount (s : State) (k cl ev n : Nat) (g : Here) : archAt (pmCount s k cl ev n) g = archAt s g := by simp [archAt]

@[simp] theorem getSlot_bumpId (s : State) (j : Nat) : getSlot (bumpId s) j = getSlot s j := by simp [getSlot]

@[simp] theorem getVoice_bumpId (s : State) (j : Nat) (z : VoiceId) : getVoice (bumpId s) j z = getVoice s j z := by simp [getVoice]

@[simp] theorem getArch_bumpId (s : State) (j : Nat) (z : VoiceId) : getArch (bumpId s) j z = getArch s j z := by simp [getArch]

@[simp] theorem archAt_bumpId (s : State) (g : Here) : archAt (bumpId s) g = archAt s g := by simp [archAt]

@[simp] theorem getSlot_hold (s : State) (k cl : Nat) (e : Effect) (j : Nat) : getSlot (hold s k cl e) j = getSlot s j := by simp [getSlot]

@[simp] theorem getVoice_hold (s : State) (k cl : Nat) (e : Effect) (j : Nat) (z : VoiceId) : getVoice (hold s k cl e) j z = getVoice s j z := by simp [getVoice]

@[simp] theorem getArch_hold (s : State) (k cl : Nat) (e : Effect) (j : Nat) (z : VoiceId) : getArch (hold s k cl e) j z = getArch s j z := by simp [getArch]

@[simp] theorem archAt_hold (s : State) (k cl : Nat) (e : Effect) (g : Here) : archAt (hold s k cl e) g = archAt s g := by simp [archAt]

@[simp] theorem getSlot_updClause (s : State) (id : Nat) (f : Clause → Clause) (j : Nat) : getSlot (updClause s id f) j = getSlot s j := by simp [getSlot]

@[simp] theorem getVoice_updClause (s : State) (id : Nat) (f : Clause → Clause) (j : Nat) (z : VoiceId) : getVoice (updClause s id f) j z = getVoice s j z := by simp [getVoice]

@[simp] theorem getArch_updClause (s : State) (id : Nat) (f : Clause → Clause) (j : Nat) (z : VoiceId) : getArch (updClause s id f) j z = getArch s j z := by simp [getArch]

@[simp] theorem archAt_updClause (s : State) (id : Nat) (f : Clause → Clause) (g : Here) : archAt (updClause s id f) g = archAt s g := by simp [archAt]

@[simp] theorem getSlot_addDep (s : State) (k : Nat) (v : VoiceId) (p : Nat) (j : Nat) : getSlot (addDep s k v p) j = getSlot s j := by simp [getSlot]

@[simp] theorem getVoice_addDep (s : State) (k : Nat) (v : VoiceId) (p : Nat) (j : Nat) (z : VoiceId) : getVoice (addDep s k v p) j z = getVoice s j z := by simp [getVoice]

@[simp] theorem getArch_addDep (s : State) (k : Nat) (v : VoiceId) (p : Nat) (j : Nat) (z : VoiceId) : getArch (addDep s k v p) j z = getArch s j z := by simp [getArch]

@[simp] theorem archAt_addDep (s : State) (k : Nat) (v : VoiceId) (p : Nat) (g : Here) : archAt (addDep s k v p) g = archAt s g := by simp [archAt]

@[simp] theorem getSlot_addDeps (s : State) (k : Nat) (v : VoiceId) (ps : List Nat) (j : Nat) : getSlot (addDeps s k v ps) j = getSlot s j := by simp [getSlot]

@[simp] theorem getVoice_addDeps (s : State) (k : Nat) (v : VoiceId) (ps : List Nat) (j : Nat) (z : VoiceId) : getVoice (addDeps s k v ps) j z = getVoice s j z := by simp [getVoice]

@[simp] theorem getArch_addDeps (s : State) (k : Nat) (v : VoiceId) (ps : List Nat) (j : Nat) (z : VoiceId) : getArch (addDeps s k v ps) j z = getArch s j z := by simp [getArch]

@[simp] theorem archAt_addDeps (s : State) (k : Nat) (v : VoiceId) (ps : List Nat) (g : Here) : archAt (addDeps s k v ps) g = archAt s g := by simp [archAt]

@[simp] theorem getSlot_setCtx (s : State) (c : Nat) (x : Context) (j : Nat) : getSlot (setCtx s c x) j = getSlot s j := by simp [getSlot]

@[simp] theorem getVoice_setCtx (s : State) (c : Nat) (x : Context) (j : Nat) (z : VoiceId) : getVoice (setCtx s c x) j z = getVoice s j z := by simp [getVoice]

@[simp] theorem getArch_setCtx (s : State) (c : Nat) (x : Context) (j : Nat) (z : VoiceId) : getArch (setCtx s c x) j z = getArch s j z := by simp [getArch]

@[simp] theorem archAt_setCtx (s : State) (c : Nat) (x : Context) (g : Here) : archAt (setCtx s c x) g = archAt s g := by simp [archAt]

@[simp] theorem getSlot_setCluster (s : State) (c : Cluster) (j : Nat) : getSlot (setCluster s c) j = getSlot s j := by simp [getSlot]

@[simp] theorem getVoice_setCluster (s : State) (c : Cluster) (j : Nat) (z : VoiceId) : getVoice (setCluster s c) j z = getVoice s j z := by simp [getVoice]

@[simp] theorem getArch_setCluster (s : State) (c : Cluster) (j : Nat) (z : VoiceId) : getArch (setCluster s c) j z = getArch s j z := by simp [getArch]

@[simp] theorem archAt_setCluster (s : State) (c : Cluster) (g : Here) : archAt (setCluster s c) g = archAt s g := by simp [archAt]

@[simp] theorem getSlot_writeMem (s : State) (pa : Nat) (bs : List Byte) (j : Nat) : getSlot (writeMem s pa bs) j = getSlot s j := by simp [getSlot]

@[simp] theorem getVoice_writeMem (s : State) (pa : Nat) (bs : List Byte) (j : Nat) (z : VoiceId) : getVoice (writeMem s pa bs) j z = getVoice s j z := by simp [getVoice]

@[simp] theorem getArch_writeMem (s : State) (pa : Nat) (bs : List Byte) (j : Nat) (z : VoiceId) : getArch (writeMem s pa bs) j z = getArch s j z := by simp [getArch]

@[simp] theorem archAt_writeMem (s : State) (pa : Nat) (bs : List Byte) (g : Here) : archAt (writeMem s pa bs) g = archAt s g := by simp [archAt]

@[simp] theorem getSlot_fillData (s : State) (a : Context) (w : WalkResult) (j : Nat) : getSlot (fillData s a w) j = getSlot s j := by simp [getSlot]

@[simp] theorem getVoice_fillData (s : State) (a : Context) (w : WalkResult) (j : Nat) (z : VoiceId) : getVoice (fillData s a w) j z = getVoice s j z := by simp [getVoice]

@[simp] theorem getArch_fillData (s : State) (a : Context) (w : WalkResult) (j : Nat) (z : VoiceId) : getArch (fillData s a w) j z = getArch s j z := by simp [getArch]

@[simp] theorem archAt_fillData (s : State) (a : Context) (w : WalkResult) (g : Here) : archAt (fillData s a w) g = archAt s g := by simp [archAt]

@[simp] theorem getSlot_fillFetch (s : State) (u : VoiceId) (a : Context) (w : WalkResult) (j : Nat) : getSlot (fillFetch s u a w) j = getSlot s j := by simp [getSlot]

@[simp] theorem getVoice_fillFetch (s : State) (u : VoiceId) (a : Context) (w : WalkResult) (j : Nat) (z : VoiceId) : getVoice (fillFetch s u a w) j z = getVoice s j z := by simp [getVoice]

@[simp] theorem getArch_fillFetch (s : State) (u : VoiceId) (a : Context) (w : WalkResult) (j : Nat) (z : VoiceId) : getArch (fillFetch s u a w) j z = getArch s j z := by simp [getArch]

@[simp] theorem archAt_fillFetch (s : State) (u : VoiceId) (a : Context) (w : WalkResult) (g : Here) : archAt (fillFetch s u a w) g = archAt s g := by simp [archAt]

@[simp] theorem getCtl_setSlot (s : State) (k : Nat) (x : Slot) (j : Nat) : getCtl (setSlot s k x) j = getCtl s j := by simp [getCtl]

@[simp] theorem getCtl_setVoice (s : State) (k : Nat) (v : VoiceId) (x : Voice) (j : Nat) : getCtl (setVoice s k v x) j = getCtl s j := by simp [getCtl]

@[simp] theorem getCtl_setArch (s : State) (k : Nat) (v : VoiceId) (a : VoiceArch) (j : Nat) : getCtl (setArch s k v a) j = getCtl s j := by simp [getCtl]

@[simp] theorem getCtl_setArchAt (s : State) (h : Here) (a : VoiceArch) (j : Nat) : getCtl (setArchAt s h a) j = getCtl s j := by simp [getCtl]

@[simp] theorem getCtl_setMark (s : State) (h : Here) (m : Mark) (j : Nat) : getCtl (setMark s h m) j = getCtl s j := by simp [getCtl]

@[simp] theorem getCtl_hold (s : State) (k cl : Nat) (e : Effect) (j : Nat) : getCtl (hold s k cl e) j = getCtl s j := by simp [getCtl]

@[simp] theorem getCtl_bumpId (s : State) (j : Nat) : getCtl (bumpId s) j = getCtl s j := by simp [getCtl]

@[simp] theorem getCtl_addDep (s : State) (k : Nat) (v : VoiceId) (p : Nat) (j : Nat) : getCtl (addDep s k v p) j = getCtl s j := by simp [getCtl]

@[simp] theorem getCtl_addDeps (s : State) (k : Nat) (v : VoiceId) (ps : List Nat) (j : Nat) : getCtl (addDeps s k v ps) j = getCtl s j := by simp [getCtl]

@[simp] theorem getCtl_closeClause (s : State) (k : Nat) (v : VoiceId) (b : Nat) (st : Bool) (j : Nat) : getCtl (closeClause s k v b st) j = getCtl s j := by simp [getCtl]

@[simp] theorem getCtl_stopThread (s : State) (k cause : Nat) (v : Option VoiceId) (as : Bool) (f : Word) (w : BitVec 32) (b : Nat) (c : Word) (j : Nat) : getCtl (stopThread s k cause v as f w b c) j = getCtl s j := by simp [getCtl]

@[simp] theorem getCtl_takeTrap (h : Here) (cause : Nat) (f : Word) (s : State) (j : Nat) : getCtl (takeTrap h cause f s) j = getCtl s j := by simp [getCtl]

@[simp] theorem getCtl_setCtx (s : State) (c : Nat) (x : Context) (j : Nat) : getCtl (setCtx s c x) j = getCtl s j := by simp [getCtl]

@[simp] theorem getCtl_setCluster (s : State) (c : Cluster) (j : Nat) : getCtl (setCluster s c) j = getCtl s j := by simp [getCtl]

@[simp] theorem getCtl_writeMem (s : State) (pa : Nat) (bs : List Byte) (j : Nat) : getCtl (writeMem s pa bs) j = getCtl s j := by simp [getCtl]

@[simp] theorem getCtl_fillData (s : State) (a : Context) (w : WalkResult) (j : Nat) : getCtl (fillData s a w) j = getCtl s j := by simp [getCtl]

@[simp] theorem getCtl_fillFetch (s : State) (u : VoiceId) (a : Context) (w : WalkResult) (j : Nat) : getCtl (fillFetch s u a w) j = getCtl s j := by simp [getCtl]

end Sys2Proof.Machine
end

