-- ==== Sys2Proof/Laws/Store.lean ====
section
/-! SUPPORT. The laws of the sparse maps: read after write, writes that leave other keys alone, and the canonical form, which
every operation of Machine/Store.lean keeps. -/

namespace Sys2Proof.Machine

variable {α : Type}

/-- Every key of a map is at least `n`. -/
def keysFrom (n : Nat) (m : KMap α) : Prop := ∀ p ∈ m, n ≤ p.1

/-- The canonical form, as a recursion on the tail. -/
theorem mwf_cons [DecidableEq α] (d : α) (k : Nat) (x : α) (r : KMap α) :
    mwf d ((k, x) :: r) = true ↔ x ≠ d ∧ keysFrom (k + 1) r ∧ mwf d r = true := by
  induction r generalizing k x with
  | nil => simp [mwf, keysFrom]
  | cons p r ih =>
    obtain ⟨k', x'⟩ := p
    have h := ih k' x'
    simp only [mwf, Bool.and_eq_true, decide_eq_true_eq, keysFrom, List.mem_cons, forall_eq_or_imp]
    constructor
    · rintro ⟨⟨hx, hk⟩, hw⟩
      refine ⟨hx, ⟨hk, fun p hp => ?_⟩, hw⟩
      have := (h.mp hw).2.1 p hp
      omega
    · rintro ⟨hx, ⟨hk, _⟩, hw⟩
      exact ⟨⟨hx, hk⟩, hw⟩

@[simp] theorem mwf_nil [DecidableEq α] (d : α) : mwf d ([] : KMap α) = true := rfl

theorem mget_below (d : α) {n : Nat} {m : KMap α} (h : keysFrom n m) {k : Nat} (hk : k < n) : mget d m k = d := by
  cases m with
  | nil => rfl
  | cons p r =>
    obtain ⟨k', x⟩ := p
    have := h _ (List.mem_cons_self ..)
    simp only at this
    simp only [mget]
    rw [if_neg (by omega), if_pos (by omega)]

/-! ### Read after write -/

@[simp] theorem mget_mput_same (d : α) (m : KMap α) (k : Nat) (v : α) : mget d (mput m k v) k = v := by
  induction m with
  | nil => simp [mput, mget]
  | cons p r ih =>
    obtain ⟨k', x⟩ := p
    simp only [mput]
    split
    · simp [mget]
    · split
      · simp [mget]
      · simp only [mget]
        rw [if_neg ‹_›, if_neg ‹_›, ih]

theorem mget_mput_ne (d : α) (m : KMap α) {k j : Nat} (v : α) (h : j ≠ k) : mget d (mput m k v) j = mget d m j := by
  induction m with
  | nil =>
    simp only [mput, mget]
    rw [if_neg (Ne.symm h)]
    split <;> rfl
  | cons p r ih =>
    obtain ⟨k', x⟩ := p
    simp only [mput]
    split
    · subst_vars
      simp only [mget]
      rw [if_neg (Ne.symm h), if_neg (Ne.symm h)]
    · split
      · simp only [mget]
        rw [if_neg (Ne.symm h)]
        split
        · rw [if_neg (by omega), if_pos (by omega)]
        · rfl
      · simp only [mget, ih]

theorem mget_mdel_same [DecidableEq α] (d : α) {m : KMap α} (hm : mwf d m = true) (k : Nat) : mget d (mdel m k) k = d := by
  induction m with
  | nil => rfl
  | cons p r ih =>
    obtain ⟨k', x⟩ := p
    obtain ⟨_, hr, hw⟩ := (mwf_cons d k' x r).mp hm
    simp only [mdel]
    split
    · subst_vars; exact mget_below d hr (by omega)
    · split
      · simp only [mget]; rw [if_neg ‹_›, if_pos ‹_›]
      · simp only [mget]; rw [if_neg ‹_›, if_neg ‹_›, ih hw]

theorem mget_mdel_ne [DecidableEq α] (d : α) {m : KMap α} (hm : mwf d m = true) {k j : Nat} (h : j ≠ k) :
    mget d (mdel m k) j = mget d m j := by
  induction m with
  | nil => rfl
  | cons p r ih =>
    obtain ⟨k', x⟩ := p
    obtain ⟨_, hr, hw⟩ := (mwf_cons d k' x r).mp hm
    simp only [mdel]
    split
    · subst_vars
      simp only [mget]
      rw [if_neg (Ne.symm h)]
      split
      · exact mget_below d hr (by omega)
      · rfl
    · split
      · rfl
      · simp only [mget, ih hw]

theorem mget_mset_same [DecidableEq α] (d : α) {m : KMap α} (hm : mwf d m = true) (k : Nat) (v : α) : mget d (mset d m k v) k = v := by
  unfold mset
  split
  · rename_i h; rw [h]; exact mget_mdel_same d hm k
  · exact mget_mput_same d m k v

theorem mget_mset_ne [DecidableEq α] (d : α) {m : KMap α} (hm : mwf d m = true) {k j : Nat} (v : α) (h : j ≠ k) :
    mget d (mset d m k v) j = mget d m j := by
  unfold mset
  split
  · exact mget_mdel_ne d hm h
  · exact mget_mput_ne d m v h

@[simp] theorem mfind_mput_same (m : KMap α) (k : Nat) (v : α) : mfind (mput m k v) k = some v := by
  induction m with
  | nil => simp [mput, mfind]
  | cons p r ih =>
    obtain ⟨k', x⟩ := p
    simp only [mput]
    split
    · simp [mfind]
    · split
      · simp [mfind]
      · simp only [mfind]
        rw [if_neg ‹_›, if_neg ‹_›, ih]

theorem mfind_mput_ne (m : KMap α) {k j : Nat} (v : α) (h : j ≠ k) : mfind (mput m k v) j = mfind m j := by
  induction m with
  | nil =>
    simp only [mput, mfind]
    rw [if_neg (Ne.symm h)]
    split <;> rfl
  | cons p r ih =>
    obtain ⟨k', x⟩ := p
    simp only [mput]
    split
    · subst_vars
      simp only [mfind]
      rw [if_neg (Ne.symm h), if_neg (Ne.symm h)]
    · split
      · simp only [mfind]
        rw [if_neg (Ne.symm h)]
        split
        · rw [if_neg (by omega), if_pos (by omega)]
        · rfl
      · simp only [mfind, ih]

/-! ### The canonical form is kept -/

theorem keysFrom_mdel {n : Nat} {m : KMap α} (h : keysFrom n m) (k : Nat) : keysFrom n (mdel m k) := by
  induction m with
  | nil => exact h
  | cons p r ih =>
    obtain ⟨k', x⟩ := p
    have hr : keysFrom n r := fun q hq => h q (List.mem_cons_of_mem _ hq)
    simp only [mdel]
    split
    · exact hr
    · split
      · exact h
      · intro q hq
        rcases List.mem_cons.mp hq with rfl | hq
        · exact h _ (List.mem_cons_self ..)
        · exact ih hr q hq

theorem keysFrom_mput {n : Nat} {m : KMap α} (h : keysFrom n m) {k : Nat} (hk : n ≤ k) (v : α) : keysFrom n (mput m k v) := by
  induction m with
  | nil => intro q hq; simp only [mput, List.mem_singleton] at hq; subst hq; exact hk
  | cons p r ih =>
    obtain ⟨k', x⟩ := p
    have hr : keysFrom n r := fun q hq => h q (List.mem_cons_of_mem _ hq)
    simp only [mput]
    split
    · intro q hq
      rcases List.mem_cons.mp hq with rfl | hq
      · exact hk
      · exact hr q hq
    · split
      · intro q hq
        rcases List.mem_cons.mp hq with rfl | hq
        · exact hk
        · exact h q hq
      · intro q hq
        rcases List.mem_cons.mp hq with rfl | hq
        · exact h _ (List.mem_cons_self ..)
        · exact ih hr q hq

theorem mwf_mdel [DecidableEq α] (d : α) {m : KMap α} (hm : mwf d m = true) (k : Nat) : mwf d (mdel m k) = true := by
  induction m with
  | nil => rfl
  | cons p r ih =>
    obtain ⟨k', x⟩ := p
    obtain ⟨hx, hr, hw⟩ := (mwf_cons d k' x r).mp hm
    simp only [mdel]
    split
    · exact hw
    · split
      · exact hm
      · exact (mwf_cons d k' x _).mpr ⟨hx, keysFrom_mdel hr k, ih hw⟩

theorem mwf_mput [DecidableEq α] (d : α) {m : KMap α} (hm : mwf d m = true) (k : Nat) {v : α} (hv : v ≠ d) : mwf d (mput m k v) = true := by
  induction m with
  | nil => simp [mput, mwf, hv]
  | cons p r ih =>
    obtain ⟨k', x⟩ := p
    obtain ⟨hx, hr, hw⟩ := (mwf_cons d k' x r).mp hm
    simp only [mput]
    split
    · subst_vars; exact (mwf_cons d _ v r).mpr ⟨hv, hr, hw⟩
    · split
      · refine (mwf_cons d k v _).mpr ⟨hv, fun q hq => ?_, hm⟩
        rcases List.mem_cons.mp hq with rfl | hq
        · omega
        · have := hr q hq; omega
      · exact (mwf_cons d k' x _).mpr ⟨hx, keysFrom_mput hr (by omega) v, ih hw⟩

theorem mwf_mset [DecidableEq α] (d : α) {m : KMap α} (hm : mwf d m = true) (k : Nat) (v : α) : mwf d (mset d m k v) = true := by
  unfold mset
  split
  · exact mwf_mdel d hm k
  · exact mwf_mput d hm k ‹_›

theorem mwf_filter [DecidableEq α] (d : α) {m : KMap α} (hm : mwf d m = true) (f : Nat × α → Bool) : mwf d (m.filter f) = true := by
  induction m with
  | nil => rfl
  | cons p r ih =>
    obtain ⟨k', x⟩ := p
    obtain ⟨hx, hr, hw⟩ := (mwf_cons d k' x r).mp hm
    rw [List.filter_cons]
    split
    · exact (mwf_cons d k' x _).mpr ⟨hx, fun q hq => hr q (List.mem_of_mem_filter hq), ih hw⟩
    · exact ih hw

/-! ### Memory -/

variable {w : Nat}

@[simp] theorem sget_nil (k : Nat) : sget ([] : SMap w) k = 0 := rfl

theorem sget_sset_same {m : SMap w} (hm : mwf 0 m = true) (k : Nat) (v : BitVec w) : sget (sset m k v) k = v :=
  mget_mset_same 0 hm k v

theorem sget_sset_ne {m : SMap w} (hm : mwf 0 m = true) {k j : Nat} (v : BitVec w) (h : j ≠ k) :
    sget (sset m k v) j = sget m j := mget_mset_ne 0 hm v h

theorem memWf_sset {m : Memory} (hm : memWf m = true) (a : Nat) (b : Byte) : memWf (sset m a b) = true := mwf_mset 0 hm a b

theorem memWf_writeBytes {m : Memory} (hm : memWf m = true) (a : Nat) (bs : List Byte) : memWf (writeBytes m a bs) = true := by
  induction bs generalizing m a with
  | nil => exact hm
  | cons b r ih => exact ih (memWf_sset hm a b) (a + 1)

theorem memWf_mclear {m : Memory} (hm : memWf m = true) (lo n : Nat) : memWf (mclear m lo n) = true := mwf_filter 0 hm _

/-- A write leaves every byte outside it alone. -/
theorem sget_writeBytes_out {m : Memory} (hm : memWf m = true) (a : Nat) (bs : List Byte) {j : Nat}
    (h : j < a ∨ a + bs.length ≤ j) : sget (writeBytes m a bs) j = sget m j := by
  induction bs generalizing m a with
  | nil => rfl
  | cons b r ih =>
    have hl : (b :: r).length = r.length + 1 := rfl
    rw [writeBytes, ih (memWf_sset hm a b) (a + 1) (by omega), sget_sset_ne hm b (by omega)]

/-- A write puts its bytes where it writes them. -/
theorem sget_writeBytes_in {m : Memory} (hm : memWf m = true) (a : Nat) (bs : List Byte) {i : Nat} (h : i < bs.length) :
    sget (writeBytes m a bs) (a + i) = bs[i] := by
  induction bs generalizing m a i with
  | nil => cases h
  | cons b r ih =>
    cases i with
    | zero => rw [writeBytes, sget_writeBytes_out (memWf_sset hm a b) _ _ (by omega)]; exact sget_sset_same hm a b
    | succ n =>
      have := ih (memWf_sset hm a b) (a + 1) (i := n) (by simpa using h)
      rw [writeBytes, show a + (n + 1) = a + 1 + n by omega, this]
      rfl

theorem length_readBytes (m : Memory) (a n : Nat) : (readBytes m a n).length = n := by
  induction n generalizing a with
  | zero => rfl
  | succ n ih => simp [readBytes, ih]

theorem getElem_readBytes (m : Memory) (a n i : Nat) (h : i < (readBytes m a n).length) :
    (readBytes m a n)[i] = sget m (a + i) := by
  induction n generalizing a i with
  | zero => simp [readBytes] at h
  | succ n ih =>
    cases i with
    | zero => rfl
    | succ i =>
      simp only [readBytes, List.getElem_cons_succ]
      rw [ih, show a + 1 + i = a + (i + 1) by omega]

/-- Reading what was written gives it back. -/
theorem readBytes_writeBytes {m : Memory} (hm : memWf m = true) (a : Nat) (bs : List Byte) :
    readBytes (writeBytes m a bs) a bs.length = bs := by
  refine List.ext_getElem (length_readBytes _ _ _) fun i h1 h2 => ?_
  rw [getElem_readBytes, sget_writeBytes_in hm a bs h2]

/-- Two reads agree where the memories do. -/
theorem readBytes_congr {m k : Memory} {a n : Nat} (h : ∀ i, i < n → sget m (a + i) = sget k (a + i)) :
    readBytes m a n = readBytes k a n := by
  refine List.ext_getElem (by simp [length_readBytes]) fun i h1 h2 => ?_
  rw [getElem_readBytes, getElem_readBytes]
  exact h i (by simpa [length_readBytes] using h1)

/-- The machine after reset lists no memory, and that is the canonical form. -/
theorem memWf_reset : memWf State.reset.pkg.mem = true ∧ memWf State.reset.core.spad = true := by decide

/-! ### Numbers and bytes (R3) -/

@[simp] theorem length_leBytes (n x : Nat) : (leBytes n x).length = n := by
  induction n generalizing x with
  | zero => rfl
  | succ n ih => simp [leBytes, ih]

/-- The bytes of a number stand for it. -/
theorem leNat_leBytes (n x : Nat) : leNat (leBytes n x) = x % 256 ^ n := by
  induction n generalizing x with
  | zero => simp [leBytes, leNat, Nat.mod_one]
  | succ n ih =>
    have h : x % 256 % 256 = x % 256 := Nat.mod_mod _ _
    simp only [leBytes, leNat, ih, BitVec.toNat_ofNat]
    rw [show (2 : Nat) ^ 8 = 256 from rfl, h, Nat.pow_succ, Nat.mul_comm (256 ^ n) 256, Nat.mod_mul]

end Sys2Proof.Machine
end

