-- ==== Sys2Proof/Laws/Ops.lean ====
section
/-! SUPPORT. What the shared operations do, said once: issue (R46), writes (R14, R18, R24), retiring (R21), boundaries (R172),
traps (R25), the changes with a sealed copy (R177). -/

namespace Sys2Proof.Machine

/-! ### Trace records and loop exits leave the core's registers alone -/

@[simp] theorem traceRec_core (s : State) (c k kind : Nat) (fs : List Nat) : (traceRec s c k kind fs).core = s.core := by
  unfold traceRec
  split
  · rfl
  · split <;> rfl

@[simp] theorem traceRec_cluster (s : State) (c k kind : Nat) (fs : List Nat) : (traceRec s c k kind fs).cluster = s.cluster := by
  unfold traceRec
  split
  · rfl
  · split <;> rfl

@[simp] theorem traceThread_core (s : State) (k kind : Nat) (fs : List Nat) : (traceThread s k kind fs).core = s.core := by
  simp [traceThread]

@[simp] theorem traceThread_cluster (s : State) (k kind : Nat) (fs : List Nat) : (traceThread s k kind fs).cluster = s.cluster := by
  simp [traceThread]

/-- A context without a trace records nothing. -/
theorem traceRec_off (s : State) (c k kind : Nat) (fs : List Nat) (h : (getCtx s c).trace = none) : traceRec s c k kind fs = s := by
  unfold traceRec; rw [h]

/-- A loop's exit changes nothing of the core but the bank matrix and its snapshot. -/
theorem snapshotBanks_core (s : State) (k : Nat) (v : VoiceId) (es : List VAddr) :
    (snapshotBanks s k v es).core = { s.core with
        bankMatrix := (snapshotBanks s k v es).core.bankMatrix, bankSnap := (snapshotBanks s k v es).core.bankSnap } ∧
      (snapshotBanks s k v es).cluster = s.cluster := by
  unfold snapshotBanks
  cases es with
  | nil => exact ⟨rfl, rfl⟩
  | cons e r => simp

@[simp] theorem snapshotBanks_nil (s : State) (k : Nat) (v : VoiceId) : snapshotBanks s k v [] = s := rfl

/-- Without a trace a loop's exit leaves the package alone (R293, R295). -/
theorem snapshotBanks_pkg (s : State) (k : Nat) (v : VoiceId) (es : List VAddr) (h : (threadCtx s k).trace = none) :
    (snapshotBanks s k v es).pkg = s.pkg := by
  unfold snapshotBanks
  cases es with
  | nil => rfl
  | cons e r =>
    simp only []
    rw [traceThread, traceRec_off]
    exact h

@[simp] theorem snapshotBanks_core_index (s : State) (k : Nat) (v : VoiceId) (es : List VAddr) : (snapshotBanks s k v es).core.index = s.core.index := by rw [(snapshotBanks_core s k v es).1]

@[simp] theorem snapshotBanks_core_slot0 (s : State) (k : Nat) (v : VoiceId) (es : List VAddr) : (snapshotBanks s k v es).core.slot0 = s.core.slot0 := by rw [(snapshotBanks_core s k v es).1]

@[simp] theorem snapshotBanks_core_slot1 (s : State) (k : Nat) (v : VoiceId) (es : List VAddr) : (snapshotBanks s k v es).core.slot1 = s.core.slot1 := by rw [(snapshotBanks_core s k v es).1]

@[simp] theorem snapshotBanks_core_act (s : State) (k : Nat) (v : VoiceId) (es : List VAddr) : (snapshotBanks s k v es).core.act = s.core.act := by rw [(snapshotBanks_core s k v es).1]

@[simp] theorem snapshotBanks_core_deadTill (s : State) (k : Nat) (v : VoiceId) (es : List VAddr) : (snapshotBanks s k v es).core.deadTill = s.core.deadTill := by rw [(snapshotBanks_core s k v es).1]

@[simp] theorem snapshotBanks_core_ctl (s : State) (k : Nat) (v : VoiceId) (es : List VAddr) : (snapshotBanks s k v es).core.ctl = s.core.ctl := by rw [(snapshotBanks_core s k v es).1]

@[simp] theorem snapshotBanks_core_sctl (s : State) (k : Nat) (v : VoiceId) (es : List VAddr) : (snapshotBanks s k v es).core.sctl = s.core.sctl := by rw [(snapshotBanks_core s k v es).1]

@[simp] theorem snapshotBanks_core_journal (s : State) (k : Nat) (v : VoiceId) (es : List VAddr) : (snapshotBanks s k v es).core.journal = s.core.journal := by rw [(snapshotBanks_core s k v es).1]

@[simp] theorem snapshotBanks_core_clauses (s : State) (k : Nat) (v : VoiceId) (es : List VAddr) : (snapshotBanks s k v es).core.clauses = s.core.clauses := by rw [(snapshotBanks_core s k v es).1]

@[simp] theorem snapshotBanks_core_held (s : State) (k : Nat) (v : VoiceId) (es : List VAddr) : (snapshotBanks s k v es).core.held = s.core.held := by rw [(snapshotBanks_core s k v es).1]

@[simp] theorem snapshotBanks_core_out (s : State) (k : Nat) (v : VoiceId) (es : List VAddr) : (snapshotBanks s k v es).core.out = s.core.out := by rw [(snapshotBanks_core s k v es).1]

@[simp] theorem snapshotBanks_core_spad (s : State) (k : Nat) (v : VoiceId) (es : List VAddr) : (snapshotBanks s k v es).core.spad = s.core.spad := by rw [(snapshotBanks_core s k v es).1]

@[simp] theorem snapshotBanks_core_poison (s : State) (k : Nat) (v : VoiceId) (es : List VAddr) : (snapshotBanks s k v es).core.poison = s.core.poison := by rw [(snapshotBanks_core s k v es).1]

@[simp] theorem snapshotBanks_core_badRows (s : State) (k : Nat) (v : VoiceId) (es : List VAddr) : (snapshotBanks s k v es).core.badRows = s.core.badRows := by rw [(snapshotBanks_core s k v es).1]

@[simp] theorem snapshotBanks_core_streamTurns (s : State) (k : Nat) (v : VoiceId) (es : List VAddr) : (snapshotBanks s k v es).core.streamTurns = s.core.streamTurns := by rw [(snapshotBanks_core s k v es).1]

@[simp] theorem snapshotBanks_core_streamWait (s : State) (k : Nat) (v : VoiceId) (es : List VAddr) : (snapshotBanks s k v es).core.streamWait = s.core.streamWait := by rw [(snapshotBanks_core s k v es).1]

@[simp] theorem snapshotBanks_core_streamLast (s : State) (k : Nat) (v : VoiceId) (es : List VAddr) : (snapshotBanks s k v es).core.streamLast = s.core.streamLast := by rw [(snapshotBanks_core s k v es).1]

@[simp] theorem snapshotBanks_core_counted (s : State) (k : Nat) (v : VoiceId) (es : List VAddr) : (snapshotBanks s k v es).core.counted = s.core.counted := by rw [(snapshotBanks_core s k v es).1]

@[simp] theorem snapshotBanks_core_cells (s : State) (k : Nat) (v : VoiceId) (es : List VAddr) : (snapshotBanks s k v es).core.cells = s.core.cells := by rw [(snapshotBanks_core s k v es).1]

@[simp] theorem snapshotBanks_core_headers (s : State) (k : Nat) (v : VoiceId) (es : List VAddr) : (snapshotBanks s k v es).core.headers = s.core.headers := by rw [(snapshotBanks_core s k v es).1]

@[simp] theorem snapshotBanks_core_grads (s : State) (k : Nat) (v : VoiceId) (es : List VAddr) : (snapshotBanks s k v es).core.grads = s.core.grads := by rw [(snapshotBanks_core s k v es).1]

@[simp] theorem snapshotBanks_core_tiles (s : State) (k : Nat) (v : VoiceId) (es : List VAddr) : (snapshotBanks s k v es).core.tiles = s.core.tiles := by rw [(snapshotBanks_core s k v es).1]

@[simp] theorem snapshotBanks_core_affine (s : State) (k : Nat) (v : VoiceId) (es : List VAddr) : (snapshotBanks s k v es).core.affine = s.core.affine := by rw [(snapshotBanks_core s k v es).1]

@[simp] theorem snapshotBanks_core_cmds (s : State) (k : Nat) (v : VoiceId) (es : List VAddr) : (snapshotBanks s k v es).core.cmds = s.core.cmds := by rw [(snapshotBanks_core s k v es).1]

@[simp] theorem snapshotBanks_core_nextId (s : State) (k : Nat) (v : VoiceId) (es : List VAddr) : (snapshotBanks s k v es).core.nextId = s.core.nextId := by rw [(snapshotBanks_core s k v es).1]

@[simp] theorem snapshotBanks_core_rollAt (s : State) (k : Nat) (v : VoiceId) (es : List VAddr) : (snapshotBanks s k v es).core.rollAt = s.core.rollAt := by rw [(snapshotBanks_core s k v es).1]

@[simp] theorem snapshotBanks_core_sealedExec (s : State) (k : Nat) (v : VoiceId) (es : List VAddr) : (snapshotBanks s k v es).core.sealedExec = s.core.sealedExec := by rw [(snapshotBanks_core s k v es).1]

@[simp] theorem snapshotBanks_core_fenced (s : State) (k : Nat) (v : VoiceId) (es : List VAddr) : (snapshotBanks s k v es).core.fenced = s.core.fenced := by rw [(snapshotBanks_core s k v es).1]

@[simp] theorem snapshotBanks_core_undoUsed (s : State) (k : Nat) (v : VoiceId) (es : List VAddr) : (snapshotBanks s k v es).core.undoUsed = s.core.undoUsed := by rw [(snapshotBanks_core s k v es).1]

@[simp] theorem snapshotBanks_core_dtlb (s : State) (k : Nat) (v : VoiceId) (es : List VAddr) : (snapshotBanks s k v es).core.dtlb = s.core.dtlb := by rw [(snapshotBanks_core s k v es).1]

@[simp] theorem snapshotBanks_core_itlbA (s : State) (k : Nat) (v : VoiceId) (es : List VAddr) : (snapshotBanks s k v es).core.itlbA = s.core.itlbA := by rw [(snapshotBanks_core s k v es).1]

@[simp] theorem snapshotBanks_core_itlbX0 (s : State) (k : Nat) (v : VoiceId) (es : List VAddr) : (snapshotBanks s k v es).core.itlbX0 = s.core.itlbX0 := by rw [(snapshotBanks_core s k v es).1]

@[simp] theorem snapshotBanks_core_itlbX1 (s : State) (k : Nat) (v : VoiceId) (es : List VAddr) : (snapshotBanks s k v es).core.itlbX1 = s.core.itlbX1 := by rw [(snapshotBanks_core s k v es).1]

@[simp] theorem snapshotBanks_core_itlbC (s : State) (k : Nat) (v : VoiceId) (es : List VAddr) : (snapshotBanks s k v es).core.itlbC = s.core.itlbC := by rw [(snapshotBanks_core s k v es).1]

@[simp] theorem snapshotBanks_core_freeze (s : State) (k : Nat) (v : VoiceId) (es : List VAddr) : (snapshotBanks s k v es).core.freeze = s.core.freeze := by rw [(snapshotBanks_core s k v es).1]

@[simp] theorem snapshotBanks_core_nwrs (s : State) (k : Nat) (v : VoiceId) (es : List VAddr) : (snapshotBanks s k v es).core.nwrs = s.core.nwrs := by rw [(snapshotBanks_core s k v es).1]

@[simp] theorem snapshotBanks_core_consumed (s : State) (k : Nat) (v : VoiceId) (es : List VAddr) : (snapshotBanks s k v es).core.consumed = s.core.consumed := by rw [(snapshotBanks_core s k v es).1]

@[simp] theorem snapshotBanks_cluster (s : State) (k : Nat) (v : VoiceId) (es : List VAddr) : (snapshotBanks s k v es).cluster = s.cluster := (snapshotBanks_core s k v es).2

@[simp] theorem getSlot_snapshotBanks (s : State) (k : Nat) (v : VoiceId) (es : List VAddr) (j : Nat) :
    getSlot (snapshotBanks s k v es) j = getSlot s j := by simp [getSlot]

@[simp] theorem getVoice_snapshotBanks (s : State) (k : Nat) (v : VoiceId) (es : List VAddr) (j : Nat) (z : VoiceId) :
    getVoice (snapshotBanks s k v es) j z = getVoice s j z := by simp [getVoice]

@[simp] theorem getArch_snapshotBanks (s : State) (k : Nat) (v : VoiceId) (es : List VAddr) (j : Nat) (z : VoiceId) :
    getArch (snapshotBanks s k v es) j z = getArch s j z := by simp [getArch]

@[simp] theorem archAt_snapshotBanks (s : State) (k : Nat) (v : VoiceId) (es : List VAddr) (g : Here) :
    archAt (snapshotBanks s k v es) g = archAt s g := by simp [archAt]

@[simp] theorem getCtl_snapshotBanks (s : State) (k : Nat) (v : VoiceId) (es : List VAddr) (j : Nat) :
    getCtl (snapshotBanks s k v es) j = getCtl s j := by simp [getCtl]

/-! ### Boundaries (R172) -/

/-- A boundary gives the voice its next clause and nothing else. -/
theorem getSlot_closeClause (s : State) (k : Nat) (v : VoiceId) (b : Nat) (st : Bool) :
    getSlot (closeClause s k v b st) k =
      setSlotVoice (getSlot s k) v { getVoice s k v with clause := s.core.nextId, issued := false } := by
  simp [closeClause, openClause, setVoice, freshId, getVoice, getSlot, bumpId, updClause]
  split <;> simp [setSlot, *]

theorem getVoice_closeClause (s : State) (k : Nat) (v : VoiceId) (b : Nat) (st : Bool) :
    getVoice (closeClause s k v b st) k v = { getVoice s k v with clause := s.core.nextId, issued := false } := by
  rw [getVoice, getSlot_closeClause, slotVoice_setSlotVoice]

theorem getVoice_closeClause_ne (s : State) (k : Nat) {u v : VoiceId} (b : Nat) (st : Bool) (h : u ≠ v) :
    getVoice (closeClause s k v b st) k u = getVoice s k u := by
  rw [getVoice, getSlot_closeClause, slotVoice_setSlotVoice_ne _ _ h]; rfl

theorem getSlot_closeClause_other (s : State) {j k : Nat} (v : VoiceId) (b : Nat) (st : Bool) (h : ¬(j = 0 ↔ k = 0)) :
    getSlot (closeClause s k v b st) j = getSlot s j := by
  simp only [closeClause, openClause, setVoice, getSlot_setSlot_other _ _ h]
  rfl

@[simp] theorem getArch_closeClause (s : State) (k : Nat) (v : VoiceId) (b : Nat) (st : Bool) (u : VoiceId) :
    getArch (closeClause s k v b st) k u = getArch s k u := by
  by_cases h : u = v
  · subst h; simp [getArch, getVoice_closeClause]
  · simp [getArch, getVoice_closeClause_ne _ _ _ _ h]

/-! ### Issue (R46) -/

/-- Where R46 lets a word take effect, issue is the word's own effect. -/
theorem issue_takes {s : State} {sb cb : BitVec 1} {perm : Perm} {priv : Bool} {ill live : Here → State → Bool}
    {body : Here → State → Res}
    (hl : lockstep s (hereOf s) sb = true → s.sgo = true ∧ lockstepDead s (hereOf s) = false)
    (hp : pairBad s (hereOf s) sb cb = false) (hi : ill (hereOf s) s = false) (hv : perm.ok (hereOf s).v = true)
    (hs : priv = true → (slotAt s (hereOf s)).thread.smode = true)
    (hn : ((hereOf s).nul = false ∧ live (hereOf s) s = true) ∨ (archAt s (hereOf s)).wait ≠ none) :
    issue sb cb perm priv ill live body s = finish (hereOf s) s (body (hereOf s) s) := by
  have hg : (((hereOf s).nul || !live (hereOf s) s) && decide ((archAt s (hereOf s)).wait = none)) = false := by
    rcases hn with ⟨h1, h2⟩ | h <;> simp [*]
  unfold issue
  by_cases hlk : lockstep s (hereOf s) sb = true
  · obtain ⟨h1, h2⟩ := hl hlk
    cases priv <;> simp_all
  · cases priv <;> simp_all

/-- A nullified or false-predicated word only moves on (R19). -/
theorem issue_skips {s : State} {sb cb : BitVec 1} {perm : Perm} {priv : Bool} {ill live : Here → State → Bool}
    {body : Here → State → Res}
    (hl : lockstep s (hereOf s) sb = true → s.sgo = true ∧ lockstepDead s (hereOf s) = false)
    (hp : pairBad s (hereOf s) sb cb = false) (hi : ill (hereOf s) s = false) (hv : perm.ok (hereOf s).v = true)
    (hs : priv = true → (slotAt s (hereOf s)).thread.smode = true)
    (hn : (hereOf s).nul = true ∨ live (hereOf s) s = false) (hw : (archAt s (hereOf s)).wait = none) :
    issue sb cb perm priv ill live body s = .next (retire (hereOf s) .seq false s) := by
  have hg : (((hereOf s).nul || !live (hereOf s) s) && decide ((archAt s (hereOf s)).wait = none)) = true := by
    rcases hn with h | h <;> simp [*]
  unfold issue
  by_cases hlk : lockstep s (hereOf s) sb = true
  · obtain ⟨h1, h2⟩ := hl hlk
    cases priv <;> simp_all [finish]
  · cases priv <;> simp_all [finish]

/-! ### Writes (R14, R18, R24) -/

/-- With room in the file and no trapping clash the writes are recorded and the word goes on. -/
theorem withWrites_go {h : Here} {ws : List Wr} {s : State} {go : State → Res}
    (hf : fileFull h.v (archAt s h) (needs ws) = false)
    (hc : (archAt s h).clashtrap = true → ws.any (fun w => clashes (archAt s h) w.reg) = false) :
    withWrites h ws s go = go (pmCount (setArchAt s h (recordAll s.now (archAt s h) ws)) h.k (clauseAt s h) 6
      (clashCount (archAt s h) ws)) := by
  unfold withWrites recordWrites
  cases hct : (archAt s h).clashtrap <;> simp_all

/-- A word without writes goes on. -/
@[simp] theorem withWrites_nil (h : Here) (s : State) (go : State → Res) :
    withWrites h [] s go = go (pmCount (setArchAt s h (archAt s h)) h.k (clauseAt s h) 6 0) := by
  simp [withWrites, recordWrites, needs, fileFull, recordAll, clashCount]

@[simp] theorem record_na (now : Nat) (a : VoiceArch) (w : Wr) :
    (record now a w).na0 = a.na0 ∧ (record now a w).na1 = a.na1 ∧ (record now a w).na2 = a.na2 ∧ (record now a w).lc = a.lc := by
  unfold record
  split
  · simp
  · simp only []
    split <;> simp [wSet, noteClash]

theorem recordAll_keeps (now : Nat) (ws : List Wr) (a : VoiceArch) :
    (recordAll now a ws).na0 = a.na0 ∧ (recordAll now a ws).na1 = a.na1 ∧ (recordAll now a ws).na2 = a.na2 ∧
      (recordAll now a ws).lc = a.lc ∧ (recordAll now a ws).vis = a.vis ∧ (recordAll now a ws).hid = a.hid := by
  induction ws generalizing a with
  | nil => simp [recordAll]
  | cons w r ih =>
    obtain ⟨h1, h2, h3, h4, h5, h6⟩ := ih (record now a w)
    simp only [recordAll, h1, h2, h3, h4, h5, h6]
    unfold record
    split
    · simp
    · simp only []
      split <;> simp [wSet, noteClash]

/-! ### Retiring (R21, R172) -/

@[simp] theorem slotVoice_thread (x : Slot) (t : Thread) (v : VoiceId) : slotVoice { x with thread := t } v = slotVoice x v := by
  cases v <;> rfl

theorem getVoice_setSlot (s : State) (k : Nat) (x : Slot) (v : VoiceId) : getVoice (setSlot s k x) k v = slotVoice x v := by
  simp [getVoice]

/-- Before the boundary, a retired word. -/
theorem retire_eq (h : Here) (flow : Flow) (b : Bool) (s : State) :
    retire h flow b s = if b then closeClause (retire h flow false s) h.k h.v (retire h flow false s).now false
      else retire h flow false s := by
  cases b <;> rfl

theorem getSlot_retire_false (h : Here) (flow : Flow) (s : State) :
    getSlot (retire h flow false s) h.k =
      { setSlotVoice (getSlot s h.k) h.v { getVoice s h.k h.v with
          a := (advance (archAt s h) flow).1, issued := true, second := false, replay := none, mark := .issued } with
        thread := { (getSlot s h.k).thread with sliceIssued := true } } := by
  simp only [retire, slotAt, getSlot_setSlot, setVoice, setArchAt, setArch, getSlot_pmCount, getSlot_snapshotBanks,
    getVoice_pmCount, getVoice_snapshotBanks, getVoice_setSlot, slotVoice_setSlotVoice, Bool.false_eq_true, if_false]
  cases h.v <;> rfl

/-- A retired word's voice: the chain has moved on, a boundary has opened the next clause. -/
theorem getVoice_retire (h : Here) (flow : Flow) (b : Bool) (s : State) :
    getVoice (retire h flow b s) h.k h.v = { getVoice s h.k h.v with
      a := (advance (archAt s h) flow).1, issued := !b, second := false, replay := none, mark := .issued,
      clause := if b then s.core.nextId else (getVoice s h.k h.v).clause } := by
  have hf : getVoice (retire h flow false s) h.k h.v = { getVoice s h.k h.v with
      a := (advance (archAt s h) flow).1, issued := true, second := false, replay := none, mark := .issued } := by
    rw [getVoice, getSlot_retire_false, slotVoice_thread, slotVoice_setSlotVoice]
  have hn : (retire h flow false s).core.nextId = s.core.nextId := by simp [retire]
  rw [retire_eq]
  cases b
  · exact hf
  · rw [if_pos rfl, getVoice_closeClause, hf, hn]; rfl

@[simp] theorem archAt_retire (h : Here) (flow : Flow) (b : Bool) (s : State) :
    archAt (retire h flow b s) h = (advance (archAt s h) flow).1 := by
  rw [archAt, getArch, getVoice_retire]

@[simp] theorem mark_retire (h : Here) (flow : Flow) (b : Bool) (s : State) :
    (getVoice (retire h flow b s) h.k h.v).mark = .issued := by rw [getVoice_retire]

/-- The other voices are left alone. -/
theorem getVoice_retire_ne (h : Here) (flow : Flow) (b : Bool) (s : State) {u : VoiceId} (hu : u ≠ h.v) :
    getVoice (retire h flow b s) h.k u = getVoice s h.k u := by
  have hf : getVoice (retire h flow false s) h.k u = getVoice s h.k u := by
    rw [getVoice, getSlot_retire_false, slotVoice_thread, slotVoice_setSlotVoice_ne _ _ hu]; rfl
  rw [retire_eq]
  cases b
  · exact hf
  · rw [if_pos rfl, getVoice_closeClause_ne _ _ _ _ hu, hf]

/-- The other slot is left alone. -/
theorem getSlot_retire_other (h : Here) (flow : Flow) (b : Bool) (s : State) {j : Nat} (hj : ¬(j = 0 ↔ h.k = 0)) :
    getSlot (retire h flow b s) j = getSlot s j := by
  have hf : getSlot (retire h flow false s) j = getSlot s j := by
    simp only [retire, slotAt, setVoice, setArchAt, setArch, getSlot_setSlot_other _ _ hj, getSlot_pmCount,
      getSlot_snapshotBanks, Bool.false_eq_true, if_false]
  rw [retire_eq]
  cases b
  · exact hf
  · rw [if_pos rfl, getSlot_closeClause_other _ _ _ _ hj, hf]

theorem traceThread_rest (s : State) (k kind : Nat) (fs : List Nat) : (traceThread s k kind fs).now = s.now ∧
    (traceThread s k kind fs).turn = s.turn ∧ (traceThread s k kind fs).sgo = s.sgo ∧ (traceThread s k kind fs).inbox = s.inbox := by
  unfold traceThread traceRec
  split
  · exact ⟨rfl, rfl, rfl, rfl⟩
  · split <;> exact ⟨rfl, rfl, rfl, rfl⟩

theorem snapshotBanks_rest (s : State) (k : Nat) (v : VoiceId) (es : List VAddr) : (snapshotBanks s k v es).now = s.now ∧
    (snapshotBanks s k v es).turn = s.turn ∧ (snapshotBanks s k v es).sgo = s.sgo ∧ (snapshotBanks s k v es).inbox = s.inbox := by
  unfold snapshotBanks
  cases es with
  | nil => exact ⟨rfl, rfl, rfl, rfl⟩
  | cons e r => exact traceThread_rest _ _ _ _

@[simp] theorem snapshotBanks_now (s : State) (k : Nat) (v : VoiceId) (es : List VAddr) : (snapshotBanks s k v es).now = s.now := (snapshotBanks_rest s k v es).1

@[simp] theorem snapshotBanks_turn (s : State) (k : Nat) (v : VoiceId) (es : List VAddr) : (snapshotBanks s k v es).turn = s.turn := (snapshotBanks_rest s k v es).2.1

@[simp] theorem snapshotBanks_sgo (s : State) (k : Nat) (v : VoiceId) (es : List VAddr) : (snapshotBanks s k v es).sgo = s.sgo := (snapshotBanks_rest s k v es).2.2.1

@[simp] theorem snapshotBanks_inbox (s : State) (k : Nat) (v : VoiceId) (es : List VAddr) : (snapshotBanks s k v es).inbox = s.inbox := (snapshotBanks_rest s k v es).2.2.2

@[simp] theorem retire_cluster (h : Here) (flow : Flow) (b : Bool) (s : State) : (retire h flow b s).cluster = s.cluster := by unfold retire; cases b <;> simp

@[simp] theorem retire_now (h : Here) (flow : Flow) (b : Bool) (s : State) : (retire h flow b s).now = s.now := by unfold retire; cases b <;> simp

@[simp] theorem retire_turn (h : Here) (flow : Flow) (b : Bool) (s : State) : (retire h flow b s).turn = s.turn := by unfold retire; cases b <;> simp

@[simp] theorem retire_sgo (h : Here) (flow : Flow) (b : Bool) (s : State) : (retire h flow b s).sgo = s.sgo := by unfold retire; cases b <;> simp

@[simp] theorem retire_inbox (h : Here) (flow : Flow) (b : Bool) (s : State) : (retire h flow b s).inbox = s.inbox := by unfold retire; cases b <;> simp

@[simp] theorem retire_core_index (h : Here) (flow : Flow) (b : Bool) (s : State) : (retire h flow b s).core.index = s.core.index := by unfold retire; cases b <;> simp

@[simp] theorem retire_core_act (h : Here) (flow : Flow) (b : Bool) (s : State) : (retire h flow b s).core.act = s.core.act := by unfold retire; cases b <;> simp

@[simp] theorem retire_core_deadTill (h : Here) (flow : Flow) (b : Bool) (s : State) : (retire h flow b s).core.deadTill = s.core.deadTill := by unfold retire; cases b <;> simp

@[simp] theorem retire_core_held (h : Here) (flow : Flow) (b : Bool) (s : State) : (retire h flow b s).core.held = s.core.held := by unfold retire; cases b <;> simp

@[simp] theorem retire_core_out (h : Here) (flow : Flow) (b : Bool) (s : State) : (retire h flow b s).core.out = s.core.out := by unfold retire; cases b <;> simp

@[simp] theorem retire_core_spad (h : Here) (flow : Flow) (b : Bool) (s : State) : (retire h flow b s).core.spad = s.core.spad := by unfold retire; cases b <;> simp

@[simp] theorem retire_core_poison (h : Here) (flow : Flow) (b : Bool) (s : State) : (retire h flow b s).core.poison = s.core.poison := by unfold retire; cases b <;> simp

@[simp] theorem retire_core_badRows (h : Here) (flow : Flow) (b : Bool) (s : State) : (retire h flow b s).core.badRows = s.core.badRows := by unfold retire; cases b <;> simp

@[simp] theorem retire_core_streamTurns (h : Here) (flow : Flow) (b : Bool) (s : State) : (retire h flow b s).core.streamTurns = s.core.streamTurns := by unfold retire; cases b <;> simp

@[simp] theorem retire_core_streamWait (h : Here) (flow : Flow) (b : Bool) (s : State) : (retire h flow b s).core.streamWait = s.core.streamWait := by unfold retire; cases b <;> simp

@[simp] theorem retire_core_streamLast (h : Here) (flow : Flow) (b : Bool) (s : State) : (retire h flow b s).core.streamLast = s.core.streamLast := by unfold retire; cases b <;> simp

@[simp] theorem retire_core_cells (h : Here) (flow : Flow) (b : Bool) (s : State) : (retire h flow b s).core.cells = s.core.cells := by unfold retire; cases b <;> simp

@[simp] theorem retire_core_headers (h : Here) (flow : Flow) (b : Bool) (s : State) : (retire h flow b s).core.headers = s.core.headers := by unfold retire; cases b <;> simp

@[simp] theorem retire_core_grads (h : Here) (flow : Flow) (b : Bool) (s : State) : (retire h flow b s).core.grads = s.core.grads := by unfold retire; cases b <;> simp

@[simp] theorem retire_core_tiles (h : Here) (flow : Flow) (b : Bool) (s : State) : (retire h flow b s).core.tiles = s.core.tiles := by unfold retire; cases b <;> simp

@[simp] theorem retire_core_affine (h : Here) (flow : Flow) (b : Bool) (s : State) : (retire h flow b s).core.affine = s.core.affine := by unfold retire; cases b <;> simp

@[simp] theorem retire_core_cmds (h : Here) (flow : Flow) (b : Bool) (s : State) : (retire h flow b s).core.cmds = s.core.cmds := by unfold retire; cases b <;> simp

@[simp] theorem retire_core_rollAt (h : Here) (flow : Flow) (b : Bool) (s : State) : (retire h flow b s).core.rollAt = s.core.rollAt := by unfold retire; cases b <;> simp

@[simp] theorem retire_core_sealedExec (h : Here) (flow : Flow) (b : Bool) (s : State) : (retire h flow b s).core.sealedExec = s.core.sealedExec := by unfold retire; cases b <;> simp

@[simp] theorem retire_core_fenced (h : Here) (flow : Flow) (b : Bool) (s : State) : (retire h flow b s).core.fenced = s.core.fenced := by unfold retire; cases b <;> simp

@[simp] theorem retire_core_undoUsed (h : Here) (flow : Flow) (b : Bool) (s : State) : (retire h flow b s).core.undoUsed = s.core.undoUsed := by unfold retire; cases b <;> simp

@[simp] theorem retire_core_dtlb (h : Here) (flow : Flow) (b : Bool) (s : State) : (retire h flow b s).core.dtlb = s.core.dtlb := by unfold retire; cases b <;> simp

@[simp] theorem retire_core_itlbA (h : Here) (flow : Flow) (b : Bool) (s : State) : (retire h flow b s).core.itlbA = s.core.itlbA := by unfold retire; cases b <;> simp

@[simp] theorem retire_core_itlbX0 (h : Here) (flow : Flow) (b : Bool) (s : State) : (retire h flow b s).core.itlbX0 = s.core.itlbX0 := by unfold retire; cases b <;> simp

@[simp] theorem retire_core_itlbX1 (h : Here) (flow : Flow) (b : Bool) (s : State) : (retire h flow b s).core.itlbX1 = s.core.itlbX1 := by unfold retire; cases b <;> simp

@[simp] theorem retire_core_itlbC (h : Here) (flow : Flow) (b : Bool) (s : State) : (retire h flow b s).core.itlbC = s.core.itlbC := by unfold retire; cases b <;> simp

@[simp] theorem retire_core_freeze (h : Here) (flow : Flow) (b : Bool) (s : State) : (retire h flow b s).core.freeze = s.core.freeze := by unfold retire; cases b <;> simp

@[simp] theorem retire_core_nwrs (h : Here) (flow : Flow) (b : Bool) (s : State) : (retire h flow b s).core.nwrs = s.core.nwrs := by unfold retire; cases b <;> simp

@[simp] theorem retire_core_consumed (h : Here) (flow : Flow) (b : Bool) (s : State) : (retire h flow b s).core.consumed = s.core.consumed := by unfold retire; cases b <;> simp

/-- Without a trace a retiring word leaves the package alone. -/
theorem retire_pkg (h : Here) (flow : Flow) (b : Bool) (s : State) (ht : (threadCtx s h.k).trace = none) :
    (retire h flow b s).pkg = s.pkg := by
  have hp : (threadCtx (setArchAt s h (advance (archAt s h) flow).1) h.k).trace = none := by
    simpa [threadCtx, setArchAt, getCtx] using ht
  unfold retire
  cases b <;> simp [snapshotBanks_pkg _ _ _ _ hp]

@[simp] theorem getSlot_closeClause_run (s : State) (k : Nat) (v : VoiceId) (b : Nat) (st : Bool) :
    (getSlot (closeClause s k v b st) k).run = (getSlot s k).run := by rw [getSlot_closeClause]; simp

@[simp] theorem getSlot_closeClause_stop (s : State) (k : Nat) (v : VoiceId) (b : Nat) (st : Bool) :
    (getSlot (closeClause s k v b st) k).stop = (getSlot s k).stop := by rw [getSlot_closeClause]; simp

@[simp] theorem getSlot_closeClause_trapped (s : State) (k : Nat) (v : VoiceId) (b : Nat) (st : Bool) :
    (getSlot (closeClause s k v b st) k).trapped = (getSlot s k).trapped := by rw [getSlot_closeClause]; simp

@[simp] theorem getSlot_closeClause_recAddr (s : State) (k : Nat) (v : VoiceId) (b : Nat) (st : Bool) :
    (getSlot (closeClause s k v b st) k).recAddr = (getSlot s k).recAddr := by rw [getSlot_closeClause]; simp

@[simp] theorem getSlot_closeClause_recSlots (s : State) (k : Nat) (v : VoiceId) (b : Nat) (st : Bool) :
    (getSlot (closeClause s k v b st) k).recSlots = (getSlot s k).recSlots := by rw [getSlot_closeClause]; simp

@[simp] theorem getSlot_closeClause_recWaits (s : State) (k : Nat) (v : VoiceId) (b : Nat) (st : Bool) :
    (getSlot (closeClause s k v b st) k).recWaits = (getSlot s k).recWaits := by rw [getSlot_closeClause]; simp

@[simp] theorem getSlot_closeClause_recExited (s : State) (k : Nat) (v : VoiceId) (b : Nat) (st : Bool) :
    (getSlot (closeClause s k v b st) k).recExited = (getSlot s k).recExited := by rw [getSlot_closeClause]; simp

@[simp] theorem getSlot_closeClause_startAt (s : State) (k : Nat) (v : VoiceId) (b : Nat) (st : Bool) :
    (getSlot (closeClause s k v b st) k).startAt = (getSlot s k).startAt := by rw [getSlot_closeClause]; simp

@[simp] theorem getSlot_closeClause_heldSignal (s : State) (k : Nat) (v : VoiceId) (b : Nat) (st : Bool) :
    (getSlot (closeClause s k v b st) k).heldSignal = (getSlot s k).heldSignal := by rw [getSlot_closeClause]; simp

@[simp] theorem getSlot_closeClause_pendSignal (s : State) (k : Nat) (v : VoiceId) (b : Nat) (st : Bool) :
    (getSlot (closeClause s k v b st) k).pendSignal = (getSlot s k).pendSignal := by rw [getSlot_closeClause]; simp

@[simp] theorem getSlot_closeClause_pendPreempt (s : State) (k : Nat) (v : VoiceId) (b : Nat) (st : Bool) :
    (getSlot (closeClause s k v b st) k).pendPreempt = (getSlot s k).pendPreempt := by rw [getSlot_closeClause]; simp

@[simp] theorem getSlot_closeClause_yielded (s : State) (k : Nat) (v : VoiceId) (b : Nat) (st : Bool) :
    (getSlot (closeClause s k v b st) k).yielded = (getSlot s k).yielded := by rw [getSlot_closeClause]; simp

@[simp] theorem getSlot_closeClause_scyc (s : State) (k : Nat) (v : VoiceId) (b : Nat) (st : Bool) :
    (getSlot (closeClause s k v b st) k).scyc = (getSlot s k).scyc := by rw [getSlot_closeClause]; simp

@[simp] theorem getSlot_closeClause_rollcnt (s : State) (k : Nat) (v : VoiceId) (b : Nat) (st : Bool) :
    (getSlot (closeClause s k v b st) k).rollcnt = (getSlot s k).rollcnt := by rw [getSlot_closeClause]; simp

@[simp] theorem getSlot_closeClause_undoovf (s : State) (k : Nat) (v : VoiceId) (b : Nat) (st : Bool) :
    (getSlot (closeClause s k v b st) k).undoovf = (getSlot s k).undoovf := by rw [getSlot_closeClause]; simp

@[simp] theorem getSlot_closeClause_pubs (s : State) (k : Nat) (v : VoiceId) (b : Nat) (st : Bool) :
    (getSlot (closeClause s k v b st) k).pubs = (getSlot s k).pubs := by rw [getSlot_closeClause]; simp

@[simp] theorem getSlot_closeClause_fills (s : State) (k : Nat) (v : VoiceId) (b : Nat) (st : Bool) :
    (getSlot (closeClause s k v b st) k).fills = (getSlot s k).fills := by rw [getSlot_closeClause]; simp

@[simp] theorem getSlot_closeClause_qvals (s : State) (k : Nat) (v : VoiceId) (b : Nat) (st : Bool) :
    (getSlot (closeClause s k v b st) k).qvals = (getSlot s k).qvals := by rw [getSlot_closeClause]; simp

@[simp] theorem getSlot_closeClause_xfers (s : State) (k : Nat) (v : VoiceId) (b : Nat) (st : Bool) :
    (getSlot (closeClause s k v b st) k).xfers = (getSlot s k).xfers := by rw [getSlot_closeClause]; simp

@[simp] theorem getSlot_closeClause_arrived (s : State) (k : Nat) (v : VoiceId) (b : Nat) (st : Bool) :
    (getSlot (closeClause s k v b st) k).arrived = (getSlot s k).arrived := by rw [getSlot_closeClause]; simp

@[simp] theorem getSlot_closeClause_fences (s : State) (k : Nat) (v : VoiceId) (b : Nat) (st : Bool) :
    (getSlot (closeClause s k v b st) k).fences = (getSlot s k).fences := by rw [getSlot_closeClause]; simp

@[simp] theorem getSlot_closeClause_breakAt (s : State) (k : Nat) (v : VoiceId) (b : Nat) (st : Bool) :
    (getSlot (closeClause s k v b st) k).breakAt = (getSlot s k).breakAt := by rw [getSlot_closeClause]; simp

@[simp] theorem getSlot_closeClause_samplePeriod (s : State) (k : Nat) (v : VoiceId) (b : Nat) (st : Bool) :
    (getSlot (closeClause s k v b st) k).samplePeriod = (getSlot s k).samplePeriod := by rw [getSlot_closeClause]; simp

@[simp] theorem getSlot_closeClause_sampledAt (s : State) (k : Nat) (v : VoiceId) (b : Nat) (st : Bool) :
    (getSlot (closeClause s k v b st) k).sampledAt = (getSlot s k).sampledAt := by rw [getSlot_closeClause]; simp

@[simp] theorem getSlot_closeClause_injectAt (s : State) (k : Nat) (v : VoiceId) (b : Nat) (st : Bool) :
    (getSlot (closeClause s k v b st) k).injectAt = (getSlot s k).injectAt := by rw [getSlot_closeClause]; simp

@[simp] theorem getSlot_closeClause_imageAt (s : State) (k : Nat) (v : VoiceId) (b : Nat) (st : Bool) :
    (getSlot (closeClause s k v b st) k).imageAt = (getSlot s k).imageAt := by rw [getSlot_closeClause]; simp

@[simp] theorem getSlot_retire_run (h : Here) (flow : Flow) (b : Bool) (s : State) :
    (getSlot (retire h flow b s) h.k).run = (getSlot s h.k).run := by
  rw [retire_eq]; cases b
  · rw [if_neg (by decide), getSlot_retire_false]; simp
  · rw [if_pos rfl, getSlot_closeClause_run, getSlot_retire_false]; simp

@[simp] theorem getSlot_retire_stop (h : Here) (flow : Flow) (b : Bool) (s : State) :
    (getSlot (retire h flow b s) h.k).stop = (getSlot s h.k).stop := by
  rw [retire_eq]; cases b
  · rw [if_neg (by decide), getSlot_retire_false]; simp
  · rw [if_pos rfl, getSlot_closeClause_stop, getSlot_retire_false]; simp

@[simp] theorem getSlot_retire_trapped (h : Here) (flow : Flow) (b : Bool) (s : State) :
    (getSlot (retire h flow b s) h.k).trapped = (getSlot s h.k).trapped := by
  rw [retire_eq]; cases b
  · rw [if_neg (by decide), getSlot_retire_false]; simp
  · rw [if_pos rfl, getSlot_closeClause_trapped, getSlot_retire_false]; simp

@[simp] theorem getSlot_retire_recAddr (h : Here) (flow : Flow) (b : Bool) (s : State) :
    (getSlot (retire h flow b s) h.k).recAddr = (getSlot s h.k).recAddr := by
  rw [retire_eq]; cases b
  · rw [if_neg (by decide), getSlot_retire_false]; simp
  · rw [if_pos rfl, getSlot_closeClause_recAddr, getSlot_retire_false]; simp

@[simp] theorem getSlot_retire_recSlots (h : Here) (flow : Flow) (b : Bool) (s : State) :
    (getSlot (retire h flow b s) h.k).recSlots = (getSlot s h.k).recSlots := by
  rw [retire_eq]; cases b
  · rw [if_neg (by decide), getSlot_retire_false]; simp
  · rw [if_pos rfl, getSlot_closeClause_recSlots, getSlot_retire_false]; simp

@[simp] theorem getSlot_retire_recWaits (h : Here) (flow : Flow) (b : Bool) (s : State) :
    (getSlot (retire h flow b s) h.k).recWaits = (getSlot s h.k).recWaits := by
  rw [retire_eq]; cases b
  · rw [if_neg (by decide), getSlot_retire_false]; simp
  · rw [if_pos rfl, getSlot_closeClause_recWaits, getSlot_retire_false]; simp

@[simp] theorem getSlot_retire_recExited (h : Here) (flow : Flow) (b : Bool) (s : State) :
    (getSlot (retire h flow b s) h.k).recExited = (getSlot s h.k).recExited := by
  rw [retire_eq]; cases b
  · rw [if_neg (by decide), getSlot_retire_false]; simp
  · rw [if_pos rfl, getSlot_closeClause_recExited, getSlot_retire_false]; simp

@[simp] theorem getSlot_retire_startAt (h : Here) (flow : Flow) (b : Bool) (s : State) :
    (getSlot (retire h flow b s) h.k).startAt = (getSlot s h.k).startAt := by
  rw [retire_eq]; cases b
  · rw [if_neg (by decide), getSlot_retire_false]; simp
  · rw [if_pos rfl, getSlot_closeClause_startAt, getSlot_retire_false]; simp

@[simp] theorem getSlot_retire_heldSignal (h : Here) (flow : Flow) (b : Bool) (s : State) :
    (getSlot (retire h flow b s) h.k).heldSignal = (getSlot s h.k).heldSignal := by
  rw [retire_eq]; cases b
  · rw [if_neg (by decide), getSlot_retire_false]; simp
  · rw [if_pos rfl, getSlot_closeClause_heldSignal, getSlot_retire_false]; simp

@[simp] theorem getSlot_retire_pendSignal (h : Here) (flow : Flow) (b : Bool) (s : State) :
    (getSlot (retire h flow b s) h.k).pendSignal = (getSlot s h.k).pendSignal := by
  rw [retire_eq]; cases b
  · rw [if_neg (by decide), getSlot_retire_false]; simp
  · rw [if_pos rfl, getSlot_closeClause_pendSignal, getSlot_retire_false]; simp

@[simp] theorem getSlot_retire_pendPreempt (h : Here) (flow : Flow) (b : Bool) (s : State) :
    (getSlot (retire h flow b s) h.k).pendPreempt = (getSlot s h.k).pendPreempt := by
  rw [retire_eq]; cases b
  · rw [if_neg (by decide), getSlot_retire_false]; simp
  · rw [if_pos rfl, getSlot_closeClause_pendPreempt, getSlot_retire_false]; simp

@[simp] theorem getSlot_retire_yielded (h : Here) (flow : Flow) (b : Bool) (s : State) :
    (getSlot (retire h flow b s) h.k).yielded = (getSlot s h.k).yielded := by
  rw [retire_eq]; cases b
  · rw [if_neg (by decide), getSlot_retire_false]; simp
  · rw [if_pos rfl, getSlot_closeClause_yielded, getSlot_retire_false]; simp

@[simp] theorem getSlot_retire_scyc (h : Here) (flow : Flow) (b : Bool) (s : State) :
    (getSlot (retire h flow b s) h.k).scyc = (getSlot s h.k).scyc := by
  rw [retire_eq]; cases b
  · rw [if_neg (by decide), getSlot_retire_false]; simp
  · rw [if_pos rfl, getSlot_closeClause_scyc, getSlot_retire_false]; simp

@[simp] theorem getSlot_retire_rollcnt (h : Here) (flow : Flow) (b : Bool) (s : State) :
    (getSlot (retire h flow b s) h.k).rollcnt = (getSlot s h.k).rollcnt := by
  rw [retire_eq]; cases b
  · rw [if_neg (by decide), getSlot_retire_false]; simp
  · rw [if_pos rfl, getSlot_closeClause_rollcnt, getSlot_retire_false]; simp

@[simp] theorem getSlot_retire_undoovf (h : Here) (flow : Flow) (b : Bool) (s : State) :
    (getSlot (retire h flow b s) h.k).undoovf = (getSlot s h.k).undoovf := by
  rw [retire_eq]; cases b
  · rw [if_neg (by decide), getSlot_retire_false]; simp
  · rw [if_pos rfl, getSlot_closeClause_undoovf, getSlot_retire_false]; simp

@[simp] theorem getSlot_retire_pubs (h : Here) (flow : Flow) (b : Bool) (s : State) :
    (getSlot (retire h flow b s) h.k).pubs = (getSlot s h.k).pubs := by
  rw [retire_eq]; cases b
  · rw [if_neg (by decide), getSlot_retire_false]; simp
  · rw [if_pos rfl, getSlot_closeClause_pubs, getSlot_retire_false]; simp

@[simp] theorem getSlot_retire_fills (h : Here) (flow : Flow) (b : Bool) (s : State) :
    (getSlot (retire h flow b s) h.k).fills = (getSlot s h.k).fills := by
  rw [retire_eq]; cases b
  · rw [if_neg (by decide), getSlot_retire_false]; simp
  · rw [if_pos rfl, getSlot_closeClause_fills, getSlot_retire_false]; simp

@[simp] theorem getSlot_retire_qvals (h : Here) (flow : Flow) (b : Bool) (s : State) :
    (getSlot (retire h flow b s) h.k).qvals = (getSlot s h.k).qvals := by
  rw [retire_eq]; cases b
  · rw [if_neg (by decide), getSlot_retire_false]; simp
  · rw [if_pos rfl, getSlot_closeClause_qvals, getSlot_retire_false]; simp

@[simp] theorem getSlot_retire_xfers (h : Here) (flow : Flow) (b : Bool) (s : State) :
    (getSlot (retire h flow b s) h.k).xfers = (getSlot s h.k).xfers := by
  rw [retire_eq]; cases b
  · rw [if_neg (by decide), getSlot_retire_false]; simp
  · rw [if_pos rfl, getSlot_closeClause_xfers, getSlot_retire_false]; simp

@[simp] theorem getSlot_retire_arrived (h : Here) (flow : Flow) (b : Bool) (s : State) :
    (getSlot (retire h flow b s) h.k).arrived = (getSlot s h.k).arrived := by
  rw [retire_eq]; cases b
  · rw [if_neg (by decide), getSlot_retire_false]; simp
  · rw [if_pos rfl, getSlot_closeClause_arrived, getSlot_retire_false]; simp

@[simp] theorem getSlot_retire_fences (h : Here) (flow : Flow) (b : Bool) (s : State) :
    (getSlot (retire h flow b s) h.k).fences = (getSlot s h.k).fences := by
  rw [retire_eq]; cases b
  · rw [if_neg (by decide), getSlot_retire_false]; simp
  · rw [if_pos rfl, getSlot_closeClause_fences, getSlot_retire_false]; simp

@[simp] theorem getSlot_retire_breakAt (h : Here) (flow : Flow) (b : Bool) (s : State) :
    (getSlot (retire h flow b s) h.k).breakAt = (getSlot s h.k).breakAt := by
  rw [retire_eq]; cases b
  · rw [if_neg (by decide), getSlot_retire_false]; simp
  · rw [if_pos rfl, getSlot_closeClause_breakAt, getSlot_retire_false]; simp

@[simp] theorem getSlot_retire_samplePeriod (h : Here) (flow : Flow) (b : Bool) (s : State) :
    (getSlot (retire h flow b s) h.k).samplePeriod = (getSlot s h.k).samplePeriod := by
  rw [retire_eq]; cases b
  · rw [if_neg (by decide), getSlot_retire_false]; simp
  · rw [if_pos rfl, getSlot_closeClause_samplePeriod, getSlot_retire_false]; simp

@[simp] theorem getSlot_retire_sampledAt (h : Here) (flow : Flow) (b : Bool) (s : State) :
    (getSlot (retire h flow b s) h.k).sampledAt = (getSlot s h.k).sampledAt := by
  rw [retire_eq]; cases b
  · rw [if_neg (by decide), getSlot_retire_false]; simp
  · rw [if_pos rfl, getSlot_closeClause_sampledAt, getSlot_retire_false]; simp

@[simp] theorem getSlot_retire_injectAt (h : Here) (flow : Flow) (b : Bool) (s : State) :
    (getSlot (retire h flow b s) h.k).injectAt = (getSlot s h.k).injectAt := by
  rw [retire_eq]; cases b
  · rw [if_neg (by decide), getSlot_retire_false]; simp
  · rw [if_pos rfl, getSlot_closeClause_injectAt, getSlot_retire_false]; simp

@[simp] theorem getSlot_retire_imageAt (h : Here) (flow : Flow) (b : Bool) (s : State) :
    (getSlot (retire h flow b s) h.k).imageAt = (getSlot s h.k).imageAt := by
  rw [retire_eq]; cases b
  · rw [if_neg (by decide), getSlot_retire_false]; simp
  · rw [if_pos rfl, getSlot_closeClause_imageAt, getSlot_retire_false]; simp


/-! ### Counters of R296 -/

/-- Entries of a change that only counts leave everything but status registers alone. -/
theorem applyCtl_statusAdd (c : Ctl) (n m w : Nat) :
    applyCtl c (.statusAdd n m w) = { c with status := (applyCtl c (.statusAdd n m w)).status } := rfl

theorem ctlSlot_setCtlSlot (c : CoreCtl) (k : Nat) (x : Ctl) : ctlSlot (setCtlSlot c k x) k = x := by
  unfold ctlSlot setCtlSlot; split <;> rfl

theorem ctlSlot_setCtlSlot_other (c : CoreCtl) {j k : Nat} (x : Ctl) (h : ¬(j = 0 ↔ k = 0)) :
    ctlSlot (setCtlSlot c k x) j = ctlSlot c j := by
  unfold ctlSlot setCtlSlot
  by_cases hj : j = 0 <;> by_cases hk : k = 0 <;> simp_all

theorem ctlSlot_congr (c : CoreCtl) {j k : Nat} (h : j = 0 ↔ k = 0) : ctlSlot c j = ctlSlot c k := by
  unfold ctlSlot; by_cases hk : k = 0 <;> simp_all

theorem setCtlSlot_knots (c : CoreCtl) (k : Nat) (x : Ctl) : (setCtlSlot c k x).knots = c.knots := by
  unfold setCtlSlot; split <;> rfl

theorem ctlSlot_knots (c : CoreCtl) (n : Knots) (k : Nat) : ctlSlot { c with knots := n } k = ctlSlot c k := by
  unfold ctlSlot; split <;> rfl

/-- A change shows at once in the slot that makes it (R177). -/
@[simp] theorem getCtl_change (s : State) (k cl : Nat) (c : Change) : getCtl (change s k cl c) k = applyCtl (getCtl s k) c := by
  show ctlSlot (applyEntry s.core.ctl _) k = _
  simp only [applyEntry, ctlSlot_knots, ctlSlot_setCtlSlot]
  rfl

theorem getCtl_change_other (s : State) {j k : Nat} (cl : Nat) (c : Change) (h : ¬(j = 0 ↔ k = 0)) :
    getCtl (change s k cl c) j = getCtl s j := by
  show ctlSlot (applyEntry s.core.ctl _) j = _
  simp only [applyEntry, ctlSlot_knots, ctlSlot_setCtlSlot_other _ _ h]
  rfl

@[simp] theorem knots_change (s : State) (k cl : Nat) (c : Change) :
    (change s k cl c).core.ctl.knots = applyKnots s.core.ctl.knots c := rfl

theorem ctlLike_refl (a : Ctl) : CtlLike a a := rfl

theorem ctlLike_trans {a b c : Ctl} (h : CtlLike a b) (g : CtlLike b c) : CtlLike a c := by
  unfold CtlLike at *
  rw [g, h]

theorem getCtl_congr (s : State) {j k : Nat} (h : j = 0 ↔ k = 0) : getCtl s j = getCtl s k := ctlSlot_congr _ h

theorem changes_counts (s : State) (k cl j : Nat) (m w : Nat) (ns : List Nat) :
    CtlLike (getCtl s j) (getCtl (changes s k cl (ns.map (fun n => .statusAdd n m w))) j) ∧
      (changes s k cl (ns.map (fun n => .statusAdd n m w))).core.ctl.knots = s.core.ctl.knots ∧
      (mwf 0 (getCtl s j).status = true → mwf 0 (getCtl (changes s k cl (ns.map (fun n => .statusAdd n m w))) j).status = true ∧
        ∀ x, x ∉ ns → sget (getCtl (changes s k cl (ns.map (fun n => .statusAdd n m w))) j).status x = sget (getCtl s j).status x) := by
  induction ns generalizing s with
  | nil => exact ⟨rfl, rfl, fun h => ⟨h, fun _ _ => rfl⟩⟩
  | cons n r ih =>
    have h := ih (change s k cl (.statusAdd n m w))
    by_cases hj : j = 0 ↔ k = 0
    · have e : getCtl (change s k cl (.statusAdd n m w)) j = applyCtl (getCtl s j) (.statusAdd n m w) := by
        rw [getCtl_congr _ hj, getCtl_congr _ hj, getCtl_change]
      refine ⟨ctlLike_trans ?_ h.1, h.2.1, fun hw => ?_⟩
      · rw [e]; rfl
      · have hw' : mwf 0 (getCtl (change s k cl (.statusAdd n m w)) j).status = true := by
          rw [e]; exact mwf_mset 0 hw _ _
        obtain ⟨h1, h2⟩ := h.2.2 hw'
        refine ⟨h1, fun x hx => ?_⟩
        rw [List.map_cons, changes, h2 x (fun hm => hx (List.mem_cons_of_mem _ hm)), e]
        exact sget_sset_ne hw _ (fun he => hx (he ▸ List.mem_cons_self ..))
    · have e : getCtl (change s k cl (.statusAdd n m w)) j = getCtl s j := getCtl_change_other _ _ _ hj
      refine ⟨ctlLike_trans (e ▸ ctlLike_refl _) h.1, h.2.1, fun hw => ?_⟩
      obtain ⟨h1, h2⟩ := h.2.2 (e ▸ hw)
      exact ⟨h1, fun x hx => (h2 x (fun hm => hx (List.mem_cons_of_mem _ hm))).trans (by rw [e])⟩

/-- Counting changes nothing of the control state but the counters PMC. -/
theorem pmCount_ctl (s : State) (k cl ev n j : Nat) :
    CtlLike (getCtl s j) (getCtl (pmCount s k cl ev n) j) ∧
      (mwf 0 (getCtl s j).status = true → mwf 0 (getCtl (pmCount s k cl ev n) j).status = true ∧
        ∀ x, x < 0x38 ∨ 0x3B < x → sget (getCtl (pmCount s k cl ev n) j).status x = sget (getCtl s j).status x) ∧
      (pmCount s k cl ev n).core.ctl.knots = s.core.ctl.knots := by
  have h := changes_counts (countNow s k ev n) k cl j n 64 ((pmHits s k ev).map (fun j => 0x38 + j))
  rw [List.map_map] at h
  refine ⟨h.1, fun hw => ⟨(h.2.2 hw).1, fun x hx => (h.2.2 hw).2 x ?_⟩, h.2.1⟩
  simp only [pmHits, List.mem_map, List.mem_filter, List.mem_range, not_exists, not_and]
  intro y hy; omega

@[simp] theorem knots_pmCount (s : State) (k cl ev n : Nat) : (pmCount s k cl ev n).core.ctl.knots = s.core.ctl.knots :=
  (pmCount_ctl s k cl ev n 0).2.2

theorem getCtl_changes_other (s : State) {j k : Nat} (cl : Nat) (cs : List Change) (h : ¬(j = 0 ↔ k = 0)) :
    getCtl (changes s k cl cs) j = getCtl s j := by
  induction cs generalizing s with
  | nil => rfl
  | cons c r ih => rw [changes, ih, getCtl_change_other _ _ _ h]

theorem getCtl_pmCount_other (s : State) {j k : Nat} (cl ev n : Nat) (h : ¬(j = 0 ↔ k = 0)) :
    getCtl (pmCount s k cl ev n) j = getCtl s j := getCtl_changes_other _ _ _ h

theorem getCtl_retire (h : Here) (flow : Flow) (b : Bool) (s : State) (j : Nat) :
    getCtl (retire h flow b s) j = getCtl (pmCount (snapshotBanks (setArchAt s h (advance (archAt s h) flow).1) h.k h.v
      (endsOf (archAt s h) (advance (archAt s h) flow).2)) h.k (clauseAt s h) 2 1) j := by
  unfold retire
  cases b <;> simp

@[simp] theorem knots_retire (h : Here) (flow : Flow) (b : Bool) (s : State) :
    (retire h flow b s).core.ctl.knots = s.core.ctl.knots := by
  unfold retire
  cases b <;> simp

end Sys2Proof.Machine
end

