-- ==== Sys2Proof/Laws/Did.lean ====
section
/-! SUPPORT. How a word's effect is put together: from the state at issue, each shared operation adds its part to what the word
does (Near), and the word's retirement makes it whole (Did). -/

namespace Sys2Proof.Machine

/-- The clauses' voices and the places of the thread's voices inside a word: a voice's own place has what its links precede
(R235). -/
def OrderedBy (s u : State) (links : List (List Nat)) : Prop :=
  (∀ cl, voiceOfClause u.core cl = voiceOfClause s.core cl) ∧ KeptOrder (hereOf s) s u links

theorem voiceOfClause_map (cs : List Clause) (f : Clause → Clause) (cl : Nat) (h : ∀ c, (f c).id = c.id ∧ (f c).voice = c.voice) :
    (findFirst (fun (x : Clause) => decide (x.id = cl)) (cs.map f)).map (fun x => x.voice) =
      (findFirst (fun (x : Clause) => decide (x.id = cl)) cs).map (fun x => x.voice) := by
  induction cs with
  | nil => rfl
  | cons c r ih =>
    simp only [List.map_cons, findFirst, (h c).1]
    by_cases hc : c.id = cl
    · simp [hc, (h c).2]
    · simp [hc, ih]

theorem orderedBy_refl (s : State) : OrderedBy s s [] := ⟨fun _ => rfl, fun v => by simp [ordWith]⟩

theorem orderedBy_setArch {s u : State} {l : List (List Nat)} (h : OrderedBy s u l) (a : VoiceArch) :
    OrderedBy s (setArchAt u (hereOf s) a) l := by
  refine ⟨fun cl => by simpa [voiceOfClause] using h.1 cl, fun v => ?_⟩
  rw [← h.2 v]
  by_cases hv : v = (hereOf s).v
  · rw [hv]; simp [setArchAt, setArch]
  · simp only [setArchAt, setArch, getVoice_setVoice_ne _ _ _ hv]

theorem orderedBy_count {s u : State} {l : List (List Nat)} (h : OrderedBy s u l) (k cl ev n : Nat) :
    OrderedBy s (pmCount u k cl ev n) l :=
  ⟨fun c => by simpa [voiceOfClause] using h.1 c, fun v => by simpa [getVoice] using h.2 v⟩

theorem orderedBy_change {s u : State} {l : List (List Nat)} (h : OrderedBy s u l) (k cl : Nat) (c : Change) :
    OrderedBy s (change u k cl c) l :=
  ⟨fun x => by simpa [voiceOfClause] using h.1 x, fun v => by simpa [getVoice] using h.2 v⟩

theorem orderedBy_dep {s u : State} {l : List (List Nat)} (h : OrderedBy s u l) (k : Nat) (v : VoiceId) (p : Nat) :
    OrderedBy s (addDep u k v p) l := by
  refine ⟨fun cl => ?_, fun w => by simpa [getVoice] using h.2 w⟩
  rw [← h.1 cl]
  simp only [addDep]
  split
  · rfl
  · simp only [updClause, voiceOfClause]
    exact voiceOfClause_map _ _ _ (fun c => by
      by_cases hq : c.id = curClause u k v <;> by_cases hd : p ∈ c.deps <;> simp [hq, hd])

theorem orderedBy_deps {s u : State} {l : List (List Nat)} (h : OrderedBy s u l) (k : Nat) (v : VoiceId) (ps : List Nat) :
    OrderedBy s (addDeps u k v ps) l := by
  induction ps generalizing u with
  | nil => exact h
  | cons p r ih => exact ih (orderedBy_dep h k v p)

/-- What precedes the word it takes something from precedes the voice's next words. -/
theorem orderedBy_join {s u : State} {l : List (List Nat)} (h : OrderedBy s u l) (o : List Nat) :
    OrderedBy s (joinVoice u (hereOf s).k (hereOf s).v o) (l ++ [o]) := by
  refine ⟨fun cl => ?_, fun v => ?_⟩
  · rw [← h.1 cl]
    by_cases h0 : (hereOf s).k = 0 <;> simp [joinVoice, setVoice, setSlot, h0, voiceOfClause]
  · have h1 := h.2 v
    by_cases hv : v = (hereOf s).v
    · subst hv; simp only [joinVoice, getVoice_setVoice, ordWith, if_true] at h1 ⊢; simp [h1]
    · simp only [joinVoice, getVoice_setVoice_ne _ _ _ hv, h1, ordWith, if_neg hv]

/-- The place of an effect or an entry inside a word. -/
theorem orderedBy_place {s u : State} {l : List (List Nat)} {n : Nat} (h : OrderedBy s u l) (hid : u.core.nextId = s.core.nextId + n) :
    clauseClock u (hereOf s).k (clauseAt s (hereOf s)) = placeWith (hereOf s) s l n := by
  simp only [clauseClock, placeWith, h.1, clockOf, h.2, freshId, hid]
  all_goals (cases voiceOfClause s.core (clauseAt s (hereOf s)) <;> rfl)

/-- Inside a word: what `d` says has been done but for the move of the chain. -/
structure Near (s u : State) (d : Doing) : Prop where
  arch : archAt u (hereOf s) = recordAll s.now (d.arch (me s)) d.writes
  clause : clauseAt u (hereOf s) = clauseAt s (hereOf s)
  ids : s.core.nextId ≤ u.core.nextId
  voices : KeptVoices (hereOf s) s u
  slot : KeptSlot (hereOf s) s u d.fills d.xfers
  array : KeptArray s u
  memory : KeptMemory (hereOf s) s u
  traced : (threadCtx s (hereOf s).k).trace = none → (threadCtx u (hereOf s).k).trace = none
  ctl : KeptCtl (hereOf s) s u d.ctl d.knots
  canon : mwf 0 (getCtl s (hereOf s).k).status = true → mwf 0 (getCtl u (hereOf s).k).status = true
  held : KeptHeld (hereOf s) s u d.held d.links
  order : OrderedBy s u d.links
  cluster : u.cluster = d.cluster s.cluster
  around : KeptAround s u

theorem near_refl (s : State) : Near s s {} where
  arch := rfl
  clause := rfl
  ids := Nat.le_refl _
  voices := ⟨fun _ _ => rfl, fun _ _ => rfl⟩
  slot := by simp [KeptSlot]
  array := by simp [KeptArray]
  memory := ⟨fun _ => rfl, fun _ => ⟨fun _ => rfl, rfl⟩⟩
  traced := id
  ctl := ⟨rfl, fun _ _ => rfl, rfl, fun _ _ _ => rfl⟩
  canon := id
  held := by simp [KeptHeld, heldBy]
  order := orderedBy_refl s
  cluster := rfl
  around := ⟨rfl, rfl, rfl⟩

/-- Voice state of the word's own voice set whole. -/
theorem near_setArch {s u : State} {d e : Doing} (hn : Near s u d) (a : VoiceArch)
    (he : a = recordAll s.now (e.arch (me s)) e.writes) (hd : e = { d with arch := e.arch, writes := e.writes }) :
    Near s (setArchAt u (hereOf s) a) e where
  arch := by rw [← he]; simp
  clause := by have := hn.clause; simp only [clauseAt, curClause] at *; rw [← this]; simp [setArchAt, setArch]
  ids := by simpa [setArchAt, setArch] using hn.ids
  voices := ⟨fun v hv => by rw [← hn.voices.1 v hv]; exact getArch_setArch_ne _ _ _ hv,
    fun j hj => by rw [← hn.voices.2 j hj]; simp only [setArchAt, setArch, setVoice, getSlot_setSlot_other _ _ hj]⟩
  slot := by rw [hd]; have := hn.slot; simpa [KeptSlot, slotAt, setArchAt] using this
  array := by have := hn.array; simpa [KeptArray, setArchAt] using this
  memory := by have := hn.memory; simpa [KeptMemory, setArchAt] using this
  traced := fun h => by have := hn.traced h; simpa [threadCtx, getCtx, setArchAt] using this
  ctl := by rw [hd]; have := hn.ctl; simpa only [KeptCtl, getCtl_setArchAt, setArchAt_core_ctl] using this
  canon := by simpa using hn.canon
  held := by rw [hd]; have := hn.held; simpa [KeptHeld] using this
  order := by rw [hd]; exact orderedBy_setArch hn.order a
  cluster := by rw [hd]; simpa [setArchAt] using hn.cluster
  around := by have := hn.around; simpa [KeptAround, setArchAt] using this

/-- A count of R296. -/
theorem near_count {s u : State} {d : Doing} (hn : Near s u d) (cl ev n : Nat) :
    Near s (pmCount u (hereOf s).k cl ev n) d where
  arch := by simpa using hn.arch
  clause := by have := hn.clause; simpa [clauseAt, curClause] using this
  ids := by simpa using hn.ids
  voices := by have := hn.voices; simpa [KeptVoices, getArch] using this
  slot := by have := hn.slot; simpa [KeptSlot, slotAt] using this
  array := by have := hn.array; simpa [KeptArray] using this
  memory := by have := hn.memory; simpa [KeptMemory] using this
  traced := fun h => by have := hn.traced h; simpa [threadCtx, getCtx] using this
  ctl := by
    obtain ⟨h1, h2, h3, h4⟩ := hn.ctl
    refine ⟨ctlLike_trans h1 (pmCount_ctl ..).1, fun j hj => ?_, by simpa using h3, fun hw n hx => ?_⟩
    · rw [← h2 j hj]; exact getCtl_pmCount_other _ _ _ _ hj
    · rw [← h4 hw n hx]; exact ((pmCount_ctl ..).2.1 (hn.canon hw)).2 n hx
  canon := fun hw => ((pmCount_ctl ..).2.1 (hn.canon hw)).1
  held := by have := hn.held; simpa [KeptHeld] using this
  order := orderedBy_count hn.order _ _ _ _
  cluster := by simpa using hn.cluster
  around := by have := hn.around; simpa [KeptAround] using this

/-- The faced writes of a word, with their clashes counted. -/
theorem near_writes {s u : State} {d : Doing} (hn : Near s u d) (hw : d.writes = []) (hs : u.now = s.now) (ws : List Wr) (cl n : Nat) :
    Near s (pmCount (setArchAt u (hereOf s) (recordAll u.now (archAt u (hereOf s)) ws)) (hereOf s).k cl 6 n)
      { d with writes := ws } :=
  near_count (near_setArch hn _ (by rw [hn.arch, hw, hs]; rfl) rfl) _ _ _

/-- A dependence of the word's clause (Table 11.1). -/
theorem near_dep {s u : State} {d : Doing} (hn : Near s u d) (p : Nat) : Near s (depAt u (hereOf s) p) d where
  arch := by simpa [depAt] using hn.arch
  clause := by have := hn.clause; simpa [clauseAt, curClause, depAt] using this
  ids := by simpa [depAt] using hn.ids
  voices := by have := hn.voices; simpa [KeptVoices, getArch, depAt] using this
  slot := by have := hn.slot; simpa [KeptSlot, slotAt, depAt] using this
  array := by have := hn.array; simpa [KeptArray, depAt] using this
  memory := by have := hn.memory; simpa [KeptMemory, depAt] using this
  traced := fun h => by have := hn.traced h; simpa [threadCtx, getCtx, depAt] using this
  ctl := by have := hn.ctl; simpa [KeptCtl, depAt] using this
  canon := by simpa [depAt] using hn.canon
  held := by have := hn.held; simpa [KeptHeld, depAt] using this
  order := orderedBy_dep hn.order _ _ _
  cluster := by simpa [depAt] using hn.cluster
  around := by have := hn.around; simpa [KeptAround, depAt] using this

/-- Dependences of the word's clause (Table 11.1). -/
theorem near_deps {s u : State} {d : Doing} (hn : Near s u d) (ps : List Nat) :
    Near s (addDeps u (hereOf s).k (hereOf s).v ps) d where
  arch := by simpa using hn.arch
  clause := by have := hn.clause; simpa [clauseAt, curClause] using this
  ids := by simpa using hn.ids
  voices := by have := hn.voices; simpa [KeptVoices, getArch] using this
  slot := by have := hn.slot; simpa [KeptSlot, slotAt] using this
  array := by have := hn.array; simpa [KeptArray] using this
  memory := by have := hn.memory; simpa [KeptMemory] using this
  traced := fun h => by have := hn.traced h; simpa [threadCtx, getCtx] using this
  ctl := by have := hn.ctl; simpa [KeptCtl] using this
  canon := by simpa using hn.canon
  held := by have := hn.held; simpa [KeptHeld] using this
  order := orderedBy_deps hn.order _ _ _
  cluster := by simpa using hn.cluster
  around := by have := hn.around; simpa [KeptAround] using this

/-- The word takes what another voice has left for it (Table 11.1, R235). -/
theorem near_link {s u : State} {d e : Doing} (hn : Near s u d) (p : Nat) (o : List Nat) (he : e = { d with links := d.links ++ [o] })
    (hh : d.held = []) : Near s (linkAt u (hereOf s) p o) e := by
  have hd := near_dep hn p
  have hv : ∀ v, getArch (linkAt u (hereOf s) p o) (hereOf s).k v = getArch (depAt u (hereOf s) p) (hereOf s).k v := by
    intro v
    by_cases hv : v = (hereOf s).v
    · subst hv; simp [linkAt, joinVoice, getArch]
    · simp only [linkAt, joinVoice, getArch, getVoice_setVoice_ne _ _ _ hv]
  rw [he]
  refine ⟨by rw [archAt, hv]; exact hd.arch, ?_, ?_, ⟨fun v hw => ?_, fun j hj => ?_⟩, ?_, ?_, ?_, fun h => ?_, ?_, ?_, ?_,
    orderedBy_join hd.order o, ?_, ?_⟩
  · have := hd.clause; simpa [clauseAt, curClause, linkAt, joinVoice] using this
  · have := hd.ids; simpa [linkAt, joinVoice] using this
  · rw [hv]; exact hd.voices.1 v hw
  · rw [← hd.voices.2 j hj]; simp only [linkAt, joinVoice, setVoice, getSlot_setSlot_other _ _ hj]
  · have := hd.slot; simpa [KeptSlot, slotAt, linkAt, joinVoice] using this
  · have := hd.array; simpa [KeptArray, linkAt, joinVoice] using this
  · have := hd.memory; simpa [KeptMemory, linkAt, joinVoice, threadCtx, getCtx] using this
  · have := hd.traced h; simpa [threadCtx, getCtx, linkAt, joinVoice] using this
  · have := hd.ctl; simpa only [KeptCtl, linkAt, joinVoice, getCtl_setVoice, setVoice_core_ctl] using this
  · have := hd.canon; simpa [linkAt, joinVoice] using this
  · have := hd.held; simpa [KeptHeld, heldBy, hh, linkAt, joinVoice] using this
  · have := hd.cluster; simpa [linkAt, joinVoice] using this
  · have := hd.around; simpa [KeptAround, linkAt, joinVoice] using this

/-- A change of a control state does not look at its status registers, and but for one of status leaves them alone. -/
theorem applyCtl_like {a b : Ctl} (h : CtlLike a b) (c : Change) : CtlLike (applyCtl a c) (applyCtl b c) := by
  rw [h]
  cases c <;> first | rfl | (rename_i v _; cases v <;> rfl) | (rename_i v; cases v <;> rfl)

/-- A change of the slot's control state (R177). -/
theorem near_change {s u : State} {d e : Doing} (hn : Near s u d) (c : Change)
    (he : e = { d with ctl := fun x => applyCtl (d.ctl x) c, knots := fun x => applyKnots (d.knots x) c })
    (hst : ∀ x, (applyCtl x c).status = x.status) : Near s (changeAt u (hereOf s) c) e where
  arch := by rw [he]; simpa [changeAt] using hn.arch
  clause := by have := hn.clause; simpa [clauseAt, curClause, changeAt] using this
  ids := by simpa [changeAt] using hn.ids
  voices := by have := hn.voices; simpa [KeptVoices, getArch, changeAt] using this
  slot := by rw [he]; have := hn.slot; simpa [KeptSlot, slotAt, changeAt] using this
  array := by have := hn.array; simpa [KeptArray, changeAt] using this
  memory := by have := hn.memory; simpa [KeptMemory, changeAt] using this
  traced := fun h => by have := hn.traced h; simpa [threadCtx, getCtx, changeAt] using this
  ctl := by
    rw [he]
    obtain ⟨h1, h2, h3, h4⟩ := hn.ctl
    refine ⟨?_, fun j hj => ?_, ?_, fun hw n hx => ?_⟩
    · simp only [changeAt, getCtl_change]; exact applyCtl_like h1 c
    · rw [← h2 j hj]; exact getCtl_change_other _ _ _ hj
    · simp only [changeAt, knots_change, h3]
    · simp only [changeAt, getCtl_change, hst]; exact h4 hw n hx
  canon := fun hw => by simp only [changeAt, getCtl_change, hst]; exact hn.canon hw
  held := by rw [he]; have := hn.held; simpa [KeptHeld, changeAt] using this
  order := by rw [he]; exact orderedBy_change hn.order _ _ _
  cluster := by rw [he]; simpa [changeAt] using hn.cluster
  around := by have := hn.around; simpa [KeptAround, changeAt] using this

/-- An effect held for the clause (R174). -/
theorem near_hold {s u : State} {d f : Doing} (hn : Near s u d) (e : Effect) (hf : f = { d with held := d.held ++ [e] })
    (hid : u.core.nextId = s.core.nextId + d.held.length) :
    Near s (hold u (hereOf s).k (clauseAt u (hereOf s)) e) f where
  arch := by rw [hf]; simpa using hn.arch
  clause := by have := hn.clause; simpa [clauseAt, curClause] using this
  ids := Nat.le_trans hn.ids (Nat.le_succ _)
  voices := by have := hn.voices; simpa [KeptVoices, getArch] using this
  slot := by rw [hf]; have := hn.slot; simpa [KeptSlot, slotAt] using this
  array := by have := hn.array; simpa [KeptArray] using this
  memory := by have := hn.memory; simpa [KeptMemory] using this
  traced := fun h => by have := hn.traced h; simpa [threadCtx, getCtx] using this
  ctl := by rw [hf]; have := hn.ctl; simpa [KeptCtl] using this
  canon := by simpa using hn.canon
  held := by
    rw [hf]
    obtain ⟨h1, h2, h3, h4⟩ := hn.held
    refine ⟨?_, by simpa using h2, by simpa using h3, by simpa using h4⟩
    have : (hold u (hereOf s).k (clauseAt u (hereOf s)) e).core.held =
      u.core.held ++ [⟨u.core.nextId, (hereOf s).k, clauseAt u (hereOf s), clauseClock u (hereOf s).k (clauseAt u (hereOf s)), e⟩] := rfl
    rw [this, h1, hn.clause, orderedBy_place hn.order hid, hid]
    simp [heldBy, List.mapIdx_append, Nat.add_comm]
  order := by rw [hf]; exact hn.order
  cluster := by rw [hf]; simpa using hn.cluster
  around := by have := hn.around; simpa [KeptAround] using this

/-- The number after an effect is held. -/
theorem nextId_hold (s : State) (k cl : Nat) (e : Effect) : (hold s k cl e).core.nextId = s.core.nextId + 1 := rfl

/-- A queue value or a transfer is on its way. -/
theorem near_slot {s u : State} {d f : Doing} (hn : Near s u d) (fs : List Fill) (xs : List Xfer)
    (hf : f = { d with fills := d.fills ++ fs, xfers := d.xfers ++ xs }) :
    Near s (setSlot u (hereOf s).k { getSlot u (hereOf s).k with
      fills := (getSlot u (hereOf s).k).fills ++ fs, xfers := (getSlot u (hereOf s).k).xfers ++ xs }) f where
  arch := by rw [hf, ← hn.arch]; simp only [archAt, getArch, getVoice, getSlot_setSlot]; cases (hereOf s).v <;> rfl
  clause := by
    have := hn.clause
    simp only [clauseAt, curClause, getVoice, getSlot_setSlot] at *
    rw [← this]; cases (hereOf s).v <;> rfl
  ids := by simpa using hn.ids
  voices := ⟨fun v hv => by
    rw [← hn.voices.1 v hv]; simp only [getArch, getVoice, getSlot_setSlot]; cases v <;> rfl,
    fun j hj => by rw [← hn.voices.2 j hj, getSlot_setSlot_other _ _ hj]⟩
  slot := by rw [hf]; have := hn.slot; simp only [KeptSlot, slotAt, getSlot_setSlot] at *; simp [this]
  array := by have := hn.array; simpa [KeptArray] using this
  memory := by have := hn.memory; simpa [KeptMemory] using this
  traced := fun h => by have := hn.traced h; simpa [threadCtx, getCtx] using this
  ctl := by rw [hf]; have := hn.ctl; simpa [KeptCtl] using this
  canon := by simpa using hn.canon
  held := by rw [hf]; have := hn.held; simpa [KeptHeld] using this
  order := by
    rw [hf]
    refine ⟨fun cl => by simpa [voiceOfClause] using hn.order.1 cl, fun v => ?_⟩
    rw [← hn.order.2 v]; simp only [getVoice, getSlot_setSlot]; cases v <;> rfl
  cluster := by rw [hf]; simpa using hn.cluster
  around := by have := hn.around; simpa [KeptAround] using this

/-- A number is taken. -/
theorem near_bump {s u : State} {d : Doing} (hn : Near s u d) : Near s (bumpId u) d where
  arch := by simpa using hn.arch
  clause := by have := hn.clause; simpa [clauseAt, curClause] using this
  ids := Nat.le_trans hn.ids (Nat.le_succ _)
  voices := by have := hn.voices; simpa [KeptVoices, getArch] using this
  slot := by have := hn.slot; simpa [KeptSlot, slotAt] using this
  array := by have := hn.array; simpa [KeptArray] using this
  memory := by have := hn.memory; simpa [KeptMemory] using this
  traced := fun h => by have := hn.traced h; simpa [threadCtx, getCtx] using this
  ctl := by have := hn.ctl; simpa [KeptCtl] using this
  canon := by simpa using hn.canon
  held := by have := hn.held; simpa [KeptHeld] using this
  order := hn.order
  cluster := by simpa using hn.cluster
  around := by have := hn.around; simpa [KeptAround] using this

/-- The word retires. -/
theorem did_retire {s u : State} {d : Doing} (hn : Near s u d) (hm : d.mark = .issued) :
    Did s (retire (hereOf s) d.flow d.closes u) d := by
  refine ⟨by rw [archAt_retire, hn.arch], by rw [mark_retire, hm], ?_, ⟨fun v hv => ?_, fun j hj => ?_⟩, ?_, ?_, ⟨by simpa using hn.memory.1, fun ht => ?_⟩, ?_, ?_, ?_, ?_, ?_⟩
  · have h1 := hn.clause
    have h2 := hn.ids
    simp only [ClauseAfter, clauseAt, curClause, getVoice_retire] at *
    cases d.closes <;> simp [*]
  · rw [← hn.voices.1 v hv]; simp only [getArch, getVoice_retire_ne _ _ _ _ hv]
  · rw [← hn.voices.2 j hj]; exact getSlot_retire_other _ _ _ _ hj
  · have := hn.slot; simpa [KeptSlot, slotAt] using this
  · have := hn.array; simpa [KeptArray] using this
  · rw [retire_pkg _ _ _ _ (hn.traced ht)]; exact hn.memory.2 ht
  · obtain ⟨h1, h2, h3, h4⟩ := hn.ctl
    refine ⟨?_, fun j hj => ?_, by simpa using h3, fun hw n hx => ?_⟩
    · rw [getCtl_retire]; exact ctlLike_trans (by simpa using h1) (pmCount_ctl ..).1
    · rw [← h2 j hj, getCtl_retire, getCtl_pmCount_other _ _ _ _ hj]; simp
    · rw [← h4 hw n hx, getCtl_retire, ((pmCount_ctl ..).2.1 (by simpa using hn.canon hw)).2 n hx]; simp
  · have := hn.held; simpa [KeptHeld] using this
  · intro v
    rw [← hn.order.2 v]
    by_cases hv : v = (hereOf s).v
    · rw [hv, getVoice_retire]
    · rw [getVoice_retire_ne _ _ _ _ hv]
  · simpa using hn.cluster
  · have := hn.around; simpa [KeptAround] using this

/-- What is done inside a word does not depend on how the word ends. -/
theorem near_as {s u : State} {d e : Doing} (hn : Near s u d)
    (h : e = { d with flow := e.flow, closes := e.closes, mark := e.mark }) : Near s u e := by
  rw [h]
  exact ⟨hn.1, hn.2, hn.3, hn.4, hn.5, hn.6, hn.7, hn.8, hn.9, hn.10, hn.11, hn.12, hn.13, hn.14⟩

/-! ### Words whole -/

/-- A word that takes effect and whose body retires does what its body has put together. -/
theorem issue_did {s u : State} {d : Doing} {sb cb : BitVec 1} {perm : Perm} {priv : Bool} {ill live : Here → State → Bool}
    {body : Here → State → Res} (ht : Takes s sb cb perm priv) (hi : ill (hereOf s) s = false)
    (hl : ((hereOf s).nul = false ∧ live (hereOf s) s = true) ∨ (me s).wait ≠ none)
    (hb : body (hereOf s) s = .retire d.flow d.closes u) (hn : Near s u d) (hm : d.mark = .issued) :
    ∃ t, issue sb cb perm priv ill live body s = .next t ∧ Did s t d := by
  rw [issue_takes ht.1 ht.2.1 hi ht.2.2.1 ht.2.2.2 hl, hb]
  exact ⟨_, rfl, did_retire hn hm⟩

/-- A body that records writes and goes on. -/
theorem withWrites_did {s u : State} {d : Doing} {ws : List Wr} {go : State → Res} (hr : Room s ws) (hn : Near s u d)
    (hw : d.writes = []) (ha : d.arch = id) :
    ∃ x, withWrites (hereOf s) ws u go = go x ∧ Near s x { d with writes := ws } ∧ x.core.nextId = u.core.nextId := by
  have hme : archAt u (hereOf s) = me s := by rw [hn.arch, hw, ha]; rfl
  refine ⟨_, withWrites_go (by rw [hme]; exact hr.1) (by rw [hme]; exact hr.2), near_writes hn hw hn.around.2.1 ws _ _, ?_⟩
  simp [setArchAt, setArch]

/-- A word whose whole effect is one faced write. -/
theorem writeOne_did {s : State} {sb cb : BitVec 1} {perm : Perm} {priv : Bool} {ill live : Here → State → Bool}
    {r : RegId} {x : Here → State → Row} {lat : Nat} (ht : Takes s sb cb perm priv) (hi : ill (hereOf s) s = false)
    (hl : ((hereOf s).nul = false ∧ live (hereOf s) s = true) ∨ (me s).wait ≠ none)
    (hr : Room s [⟨r, x (hereOf s) s, lat⟩]) :
    ∃ t, issue sb cb perm priv ill live (fun h t => writeOne h r (x h t) lat t) s = .next t ∧
      Did s t { writes := [⟨r, x (hereOf s) s, lat⟩] } := by
  obtain ⟨y, h1, h2, -⟩ := withWrites_did (go := fun t => .retire .seq false t) hr (near_refl s) rfl rfl
  exact issue_did ht hi hl h1 h2 rfl

/-- A predicated word that takes effect and retires. -/
theorem word_did {s u : State} {d : Doing} {sb : BitVec 1} {p : BitVec 3} {perm : Perm} {body : Here → State → Res}
    (ht : Takes s sb 0 perm false ∧ Plain s ∧ Live s p) (hb : body (hereOf s) s = .retire d.flow d.closes u)
    (hn : Near s u d) (hm : d.mark = .issued) : ∃ t, word sb p perm body s = .next t ∧ Did s t d :=
  issue_did ht.1 rfl (.inl ⟨ht.2.1.1, ht.2.2⟩) hb hn hm

/-- A predicated word that takes effect is its body's outcome. -/
theorem word_takes {s : State} {sb : BitVec 1} {p : BitVec 3} {perm : Perm} {body : Here → State → Res}
    (ht : Takes s sb 0 perm false ∧ Plain s ∧ Live s p) :
    word sb p perm body s = finish (hereOf s) s (body (hereOf s) s) :=
  issue_takes ht.1.1 ht.1.2.1 rfl ht.1.2.2.1 ht.1.2.2.2 (.inl ⟨ht.2.1.1, ht.2.2⟩)

end Sys2Proof.Machine
end

