-- ==== Sys2Proof/Laws/Exec.lean ====
section
/-! SUPPORT. The dispatch, arm by arm: each instruction runs its one meaning. -/

namespace Sys2Proof.Machine

theorem exec_lui sb d imm (s : State) : exec (.lui sb d imm) s = Sys2Proof.Machine.execLui sb d imm s := rfl

theorem exec_lapc sb d imm (s : State) : exec (.lapc sb d imm) s = Sys2Proof.Machine.execLapc sb d imm s := rfl

theorem exec_addi sb p d a imm (s : State) : exec (.addi sb p d a imm) s = Sys2Proof.Machine.execAddi sb p d a imm s := rfl

theorem exec_andi sb p d a imm (s : State) : exec (.andi sb p d a imm) s = Sys2Proof.Machine.execAndi sb p d a imm s := rfl

theorem exec_ori sb p d a imm (s : State) : exec (.ori sb p d a imm) s = Sys2Proof.Machine.execOri sb p d a imm s := rfl

theorem exec_xori sb p d a imm (s : State) : exec (.xori sb p d a imm) s = Sys2Proof.Machine.execXori sb p d a imm s := rfl

theorem exec_shli sb p d a n (s : State) : exec (.shli sb p d a n) s = Sys2Proof.Machine.execShli sb p d a n s := rfl

theorem exec_shri sb p d a n (s : State) : exec (.shri sb p d a n) s = Sys2Proof.Machine.execShri sb p d a n s := rfl

theorem exec_srai sb p d a n (s : State) : exec (.srai sb p d a n) s = Sys2Proof.Machine.execSrai sb p d a n s := rfl

theorem exec_roli sb p d a n (s : State) : exec (.roli sb p d a n) s = Sys2Proof.Machine.execRoli sb p d a n s := rfl

theorem exec_cmpeqi sb p d a imm (s : State) : exec (.cmpeqi sb p d a imm) s = Sys2Proof.Machine.execCmpeqi sb p d a imm s := rfl

theorem exec_cmplti sb p d a imm (s : State) : exec (.cmplti sb p d a imm) s = Sys2Proof.Machine.execCmplti sb p d a imm s := rfl

theorem exec_cmpltni sb p d a imm (s : State) : exec (.cmpltni sb p d a imm) s = Sys2Proof.Machine.execCmpltni sb p d a imm s := rfl

theorem exec_add sb p d a b (s : State) : exec (.add sb p d a b) s = Sys2Proof.Machine.execAdd sb p d a b s := rfl

theorem exec_sub sb p d a b (s : State) : exec (.sub sb p d a b) s = Sys2Proof.Machine.execSub sb p d a b s := rfl

theorem exec_and sb p d a b (s : State) : exec (.and sb p d a b) s = Sys2Proof.Machine.execAnd sb p d a b s := rfl

theorem exec_or sb p d a b (s : State) : exec (.or sb p d a b) s = Sys2Proof.Machine.execOr sb p d a b s := rfl

theorem exec_xor sb p d a b (s : State) : exec (.xor sb p d a b) s = Sys2Proof.Machine.execXor sb p d a b s := rfl

theorem exec_andn sb p d a b (s : State) : exec (.andn sb p d a b) s = Sys2Proof.Machine.execAndn sb p d a b s := rfl

theorem exec_shl sb p d a b (s : State) : exec (.shl sb p d a b) s = Sys2Proof.Machine.execShl sb p d a b s := rfl

theorem exec_shr sb p d a b (s : State) : exec (.shr sb p d a b) s = Sys2Proof.Machine.execShr sb p d a b s := rfl

theorem exec_sra sb p d a b (s : State) : exec (.sra sb p d a b) s = Sys2Proof.Machine.execSra sb p d a b s := rfl

theorem exec_rol sb p d a b (s : State) : exec (.rol sb p d a b) s = Sys2Proof.Machine.execRol sb p d a b s := rfl

theorem exec_min sb p d a b (s : State) : exec (.min sb p d a b) s = Sys2Proof.Machine.execMin sb p d a b s := rfl

theorem exec_max sb p d a b (s : State) : exec (.max sb p d a b) s = Sys2Proof.Machine.execMax sb p d a b s := rfl

theorem exec_minn sb p d a b (s : State) : exec (.minn sb p d a b) s = Sys2Proof.Machine.execMinn sb p d a b s := rfl

theorem exec_maxn sb p d a b (s : State) : exec (.maxn sb p d a b) s = Sys2Proof.Machine.execMaxn sb p d a b s := rfl

theorem exec_mul sb p d a b (s : State) : exec (.mul sb p d a b) s = Sys2Proof.Machine.execMul sb p d a b s := rfl

theorem exec_mulh sb p d a b (s : State) : exec (.mulh sb p d a b) s = Sys2Proof.Machine.execMulh sb p d a b s := rfl

theorem exec_mulhn sb p d a b (s : State) : exec (.mulhn sb p d a b) s = Sys2Proof.Machine.execMulhn sb p d a b s := rfl

theorem exec_clz sb p d a (s : State) : exec (.clz sb p d a) s = Sys2Proof.Machine.execClz sb p d a s := rfl

theorem exec_popc sb p d a (s : State) : exec (.popc sb p d a) s = Sys2Proof.Machine.execPopc sb p d a s := rfl

theorem exec_sext sb p d a w (s : State) : exec (.sext sb p d a w) s = Sys2Proof.Machine.execSext sb p d a w s := rfl

theorem exec_zext sb p d a w (s : State) : exec (.zext sb p d a w) s = Sys2Proof.Machine.execZext sb p d a w s := rfl

theorem exec_sel sb k d a b (s : State) : exec (.sel sb k d a b) s = Sys2Proof.Machine.execSel sb k d a b s := rfl

theorem exec_cmpeq sb p d a b (s : State) : exec (.cmpeq sb p d a b) s = Sys2Proof.Machine.execCmpeq sb p d a b s := rfl

theorem exec_cmpne sb p d a b (s : State) : exec (.cmpne sb p d a b) s = Sys2Proof.Machine.execCmpne sb p d a b s := rfl

theorem exec_cmplt sb p d a b (s : State) : exec (.cmplt sb p d a b) s = Sys2Proof.Machine.execCmplt sb p d a b s := rfl

theorem exec_cmple sb p d a b (s : State) : exec (.cmple sb p d a b) s = Sys2Proof.Machine.execCmple sb p d a b s := rfl

theorem exec_cmpltn sb p d a b (s : State) : exec (.cmpltn sb p d a b) s = Sys2Proof.Machine.execCmpltn sb p d a b s := rfl

theorem exec_cmplen sb p d a b (s : State) : exec (.cmplen sb p d a b) s = Sys2Proof.Machine.execCmplen sb p d a b s := rfl

theorem exec_pand sb p d a b (s : State) : exec (.pand sb p d a b) s = Sys2Proof.Machine.execPand sb p d a b s := rfl

theorem exec_por sb p d a b (s : State) : exec (.por sb p d a b) s = Sys2Proof.Machine.execPor sb p d a b s := rfl

theorem exec_pxor sb p d a b (s : State) : exec (.pxor sb p d a b) s = Sys2Proof.Machine.execPxor sb p d a b s := rfl

theorem exec_pnot sb p d a (s : State) : exec (.pnot sb p d a) s = Sys2Proof.Machine.execPnot sb p d a s := rfl

theorem exec_br sb p imm (s : State) : exec (.br sb p imm) s = Sys2Proof.Machine.execBr sb p imm s := rfl

theorem exec_brn sb p imm (s : State) : exec (.brn sb p imm) s = Sys2Proof.Machine.execBrn sb p imm s := rfl

theorem exec_brt sb p imm (s : State) : exec (.brt sb p imm) s = Sys2Proof.Machine.execBrt sb p imm s := rfl

theorem exec_call sb p imm (s : State) : exec (.call sb p imm) s = Sys2Proof.Machine.execCall sb p imm s := rfl

theorem exec_jr sb p a imm (s : State) : exec (.jr sb p a imm) s = Sys2Proof.Machine.execJr sb p a imm s := rfl

theorem exec_jtb sb p d a l (s : State) : exec (.jtb sb p d a l) s = Sys2Proof.Machine.execJtb sb p d a l s := rfl

theorem exec_loop sb p a imm (s : State) : exec (.loop sb p a imm) s = Sys2Proof.Machine.execLoop sb p a imm s := rfl

theorem exec_flip sb p (s : State) : exec (.flip sb p) s = Sys2Proof.Machine.execFlip sb p s := rfl

theorem exec_rdh sb p d a b (s : State) : exec (.rdh sb p d a b) s = Sys2Proof.Machine.execRdh sb p d a b s := rfl

theorem exec_spost sb p v k (s : State) : exec (.spost sb p v k) s = Sys2Proof.Machine.execSpost sb p v k s := rfl

theorem exec_swait sb p k (s : State) : exec (.swait sb p k) s = Sys2Proof.Machine.execSwait sb p k s := rfl

theorem exec_bqput sb p v k (s : State) : exec (.bqput sb p v k) s = Sys2Proof.Machine.execBqput sb p v k s := rfl

theorem exec_nop sb p (s : State) : exec (.nop sb p) s = Sys2Proof.Machine.execNop sb p s := rfl

theorem exec_exit sb p (s : State) : exec (.exit sb p) s = Sys2Proof.Machine.execExit sb p s := rfl

theorem exec_bqbr sb imm (s : State) : exec (.bqbr sb imm) s = Sys2Proof.Machine.execBqbr sb imm s := rfl

theorem exec_bqbrn sb imm (s : State) : exec (.bqbrn sb imm) s = Sys2Proof.Machine.execBqbrn sb imm s := rfl

theorem exec_bqbrt sb imm (s : State) : exec (.bqbrt sb imm) s = Sys2Proof.Machine.execBqbrt sb imm s := rfl

theorem exec_trap sb p c (s : State) : exec (.trap sb p c) s = Sys2Proof.Machine.execTrap sb p c s := rfl

theorem exec_eret sb p (s : State) : exec (.eret sb p) s = Sys2Proof.Machine.execEret sb p s := rfl

theorem exec_srd sb p d n (s : State) : exec (.srd sb p d n) s = Sys2Proof.Machine.execSrd sb p d n s := rfl

theorem exec_swr sb p d n (s : State) : exec (.swr sb p d n) s = Sys2Proof.Machine.execSwr sb p d n s := rfl

theorem exec_brk sb x (s : State) : exec (.brk sb x) s = Sys2Proof.Machine.execBrk sb x s := rfl

theorem exec_lds sb p d b z o imm (s : State) : exec (.lds sb p d b z o imm) s = Sys2Proof.Machine.execLds sb p d b z o imm s := rfl

theorem exec_sts sb p d b z o imm (s : State) : exec (.sts sb p d b z o imm) s = Sys2Proof.Machine.execSts sb p d b z o imm s := rfl

theorem exec_ldq sb p q b o imm (s : State) : exec (.ldq sb p q b o imm) s = Sys2Proof.Machine.execLdq sb p q b o imm s := rfl

theorem exec_stq sb p q b o imm (s : State) : exec (.stq sb p q b o imm) s = Sys2Proof.Machine.execStq sb p q b o imm s := rfl

theorem exec_qpush sb p k a (s : State) : exec (.qpush sb p k a) s = Sys2Proof.Machine.execQpush sb p k a s := rfl

theorem exec_qpushSq sb p k j (s : State) : exec (.qpushSq sb p k j) s = Sys2Proof.Machine.execQpushSq sb p k j s := rfl

theorem exec_sbind sb p k a q (s : State) : exec (.sbind sb p k a q) s = Sys2Proof.Machine.execSbind sb p k a q s := rfl

theorem exec_sunbind sb p k (s : State) : exec (.sunbind sb p k) s = Sys2Proof.Machine.execSunbind sb p k s := rfl

theorem exec_spos sb p d k (s : State) : exec (.spos sb p d k) s = Sys2Proof.Machine.execSpos sb p d k s := rfl

theorem exec_lbqry sb p d k (s : State) : exec (.lbqry sb p d k) s = Sys2Proof.Machine.execLbqry sb p d k s := rfl

theorem exec_commit sb p d k (s : State) : exec (.commit sb p d k) s = Sys2Proof.Machine.execCommit sb p d k s := rfl

theorem exec_vaddI32 sb c m d a b q (s : State) : exec (.vaddI32 sb c m d a b q) s = Sys2Proof.Machine.execVaddI32 sb c m d a b q s := rfl

theorem exec_vsubI32 sb c m d a b q (s : State) : exec (.vsubI32 sb c m d a b q) s = Sys2Proof.Machine.execVsubI32 sb c m d a b q s := rfl

theorem exec_vmulI32 sb c m d a b q (s : State) : exec (.vmulI32 sb c m d a b q) s = Sys2Proof.Machine.execVmulI32 sb c m d a b q s := rfl

theorem exec_vmulhI32 sb c m d a b q (s : State) : exec (.vmulhI32 sb c m d a b q) s = Sys2Proof.Machine.execVmulhI32 sb c m d a b q s := rfl

theorem exec_vmulhnI32 sb c m d a b q (s : State) : exec (.vmulhnI32 sb c m d a b q) s = Sys2Proof.Machine.execVmulhnI32 sb c m d a b q s := rfl

theorem exec_vminI32 sb c m d a b q (s : State) : exec (.vminI32 sb c m d a b q) s = Sys2Proof.Machine.execVminI32 sb c m d a b q s := rfl

theorem exec_vmaxI32 sb c m d a b q (s : State) : exec (.vmaxI32 sb c m d a b q) s = Sys2Proof.Machine.execVmaxI32 sb c m d a b q s := rfl

theorem exec_vminnI32 sb c m d a b q (s : State) : exec (.vminnI32 sb c m d a b q) s = Sys2Proof.Machine.execVminnI32 sb c m d a b q s := rfl

theorem exec_vmaxnI32 sb c m d a b q (s : State) : exec (.vmaxnI32 sb c m d a b q) s = Sys2Proof.Machine.execVmaxnI32 sb c m d a b q s := rfl

theorem exec_vandI32 sb c m d a b q (s : State) : exec (.vandI32 sb c m d a b q) s = Sys2Proof.Machine.execVandI32 sb c m d a b q s := rfl

theorem exec_vorI32 sb c m d a b q (s : State) : exec (.vorI32 sb c m d a b q) s = Sys2Proof.Machine.execVorI32 sb c m d a b q s := rfl

theorem exec_vxorI32 sb c m d a b q (s : State) : exec (.vxorI32 sb c m d a b q) s = Sys2Proof.Machine.execVxorI32 sb c m d a b q s := rfl

theorem exec_vshlI32 sb c m d a b q (s : State) : exec (.vshlI32 sb c m d a b q) s = Sys2Proof.Machine.execVshlI32 sb c m d a b q s := rfl

theorem exec_vshrI32 sb c m d a b q (s : State) : exec (.vshrI32 sb c m d a b q) s = Sys2Proof.Machine.execVshrI32 sb c m d a b q s := rfl

theorem exec_vsraI32 sb c m d a b q (s : State) : exec (.vsraI32 sb c m d a b q) s = Sys2Proof.Machine.execVsraI32 sb c m d a b q s := rfl

theorem exec_vcmpeqI32 sb c m d a b q (s : State) : exec (.vcmpeqI32 sb c m d a b q) s = Sys2Proof.Machine.execVcmpeqI32 sb c m d a b q s := rfl

theorem exec_vcmpltI32 sb c m d a b q (s : State) : exec (.vcmpltI32 sb c m d a b q) s = Sys2Proof.Machine.execVcmpltI32 sb c m d a b q s := rfl

theorem exec_vcmpltnI32 sb c m d a b q (s : State) : exec (.vcmpltnI32 sb c m d a b q) s = Sys2Proof.Machine.execVcmpltnI32 sb c m d a b q s := rfl

theorem exec_vsel sb c m d a b q (s : State) : exec (.vsel sb c m d a b q) s = Sys2Proof.Machine.execVsel sb c m d a b q s := rfl

theorem exec_vaddF32 sb c m d a b q (s : State) : exec (.vaddF32 sb c m d a b q) s = Sys2Proof.Machine.execVaddF32 sb c m d a b q s := rfl

theorem exec_vsubF32 sb c m d a b q (s : State) : exec (.vsubF32 sb c m d a b q) s = Sys2Proof.Machine.execVsubF32 sb c m d a b q s := rfl

theorem exec_vmulF32 sb c m d a b q (s : State) : exec (.vmulF32 sb c m d a b q) s = Sys2Proof.Machine.execVmulF32 sb c m d a b q s := rfl

theorem exec_vminF32 sb c m d a b q (s : State) : exec (.vminF32 sb c m d a b q) s = Sys2Proof.Machine.execVminF32 sb c m d a b q s := rfl

theorem exec_vmaxF32 sb c m d a b q (s : State) : exec (.vmaxF32 sb c m d a b q) s = Sys2Proof.Machine.execVmaxF32 sb c m d a b q s := rfl

theorem exec_vabsF32 sb c m d a q (s : State) : exec (.vabsF32 sb c m d a q) s = Sys2Proof.Machine.execVabsF32 sb c m d a q s := rfl

theorem exec_vnegF32 sb c m d a q (s : State) : exec (.vnegF32 sb c m d a q) s = Sys2Proof.Machine.execVnegF32 sb c m d a q s := rfl

theorem exec_vcmpeqF32 sb c m d a b q (s : State) : exec (.vcmpeqF32 sb c m d a b q) s = Sys2Proof.Machine.execVcmpeqF32 sb c m d a b q s := rfl

theorem exec_vcmpltF32 sb c m d a b q (s : State) : exec (.vcmpltF32 sb c m d a b q) s = Sys2Proof.Machine.execVcmpltF32 sb c m d a b q s := rfl

theorem exec_vcmpleF32 sb c m d a b q (s : State) : exec (.vcmpleF32 sb c m d a b q) s = Sys2Proof.Machine.execVcmpleF32 sb c m d a b q s := rfl

theorem exec_vaddF16 sb c m d a b q (s : State) : exec (.vaddF16 sb c m d a b q) s = Sys2Proof.Machine.execVaddF16 sb c m d a b q s := rfl

theorem exec_vsubF16 sb c m d a b q (s : State) : exec (.vsubF16 sb c m d a b q) s = Sys2Proof.Machine.execVsubF16 sb c m d a b q s := rfl

theorem exec_vmulF16 sb c m d a b q (s : State) : exec (.vmulF16 sb c m d a b q) s = Sys2Proof.Machine.execVmulF16 sb c m d a b q s := rfl

theorem exec_vminF16 sb c m d a b q (s : State) : exec (.vminF16 sb c m d a b q) s = Sys2Proof.Machine.execVminF16 sb c m d a b q s := rfl

theorem exec_vmaxF16 sb c m d a b q (s : State) : exec (.vmaxF16 sb c m d a b q) s = Sys2Proof.Machine.execVmaxF16 sb c m d a b q s := rfl

theorem exec_vabsF16 sb c m d a q (s : State) : exec (.vabsF16 sb c m d a q) s = Sys2Proof.Machine.execVabsF16 sb c m d a q s := rfl

theorem exec_vnegF16 sb c m d a q (s : State) : exec (.vnegF16 sb c m d a q) s = Sys2Proof.Machine.execVnegF16 sb c m d a q s := rfl

theorem exec_vcmpeqF16 sb c m d a b q (s : State) : exec (.vcmpeqF16 sb c m d a b q) s = Sys2Proof.Machine.execVcmpeqF16 sb c m d a b q s := rfl

theorem exec_vcmpltF16 sb c m d a b q (s : State) : exec (.vcmpltF16 sb c m d a b q) s = Sys2Proof.Machine.execVcmpltF16 sb c m d a b q s := rfl

theorem exec_vcmpleF16 sb c m d a b q (s : State) : exec (.vcmpleF16 sb c m d a b q) s = Sys2Proof.Machine.execVcmpleF16 sb c m d a b q s := rfl

theorem exec_vaddBf16 sb c m d a b q (s : State) : exec (.vaddBf16 sb c m d a b q) s = Sys2Proof.Machine.execVaddBf16 sb c m d a b q s := rfl

theorem exec_vsubBf16 sb c m d a b q (s : State) : exec (.vsubBf16 sb c m d a b q) s = Sys2Proof.Machine.execVsubBf16 sb c m d a b q s := rfl

theorem exec_vmulBf16 sb c m d a b q (s : State) : exec (.vmulBf16 sb c m d a b q) s = Sys2Proof.Machine.execVmulBf16 sb c m d a b q s := rfl

theorem exec_vminBf16 sb c m d a b q (s : State) : exec (.vminBf16 sb c m d a b q) s = Sys2Proof.Machine.execVminBf16 sb c m d a b q s := rfl

theorem exec_vmaxBf16 sb c m d a b q (s : State) : exec (.vmaxBf16 sb c m d a b q) s = Sys2Proof.Machine.execVmaxBf16 sb c m d a b q s := rfl

theorem exec_vabsBf16 sb c m d a q (s : State) : exec (.vabsBf16 sb c m d a q) s = Sys2Proof.Machine.execVabsBf16 sb c m d a q s := rfl

theorem exec_vnegBf16 sb c m d a q (s : State) : exec (.vnegBf16 sb c m d a q) s = Sys2Proof.Machine.execVnegBf16 sb c m d a q s := rfl

theorem exec_vcmpeqBf16 sb c m d a b q (s : State) : exec (.vcmpeqBf16 sb c m d a b q) s = Sys2Proof.Machine.execVcmpeqBf16 sb c m d a b q s := rfl

theorem exec_vcmpltBf16 sb c m d a b q (s : State) : exec (.vcmpltBf16 sb c m d a b q) s = Sys2Proof.Machine.execVcmpltBf16 sb c m d a b q s := rfl

theorem exec_vcmpleBf16 sb c m d a b q (s : State) : exec (.vcmpleBf16 sb c m d a b q) s = Sys2Proof.Machine.execVcmpleBf16 sb c m d a b q s := rfl

theorem exec_vfmaF32 sb c m d a b e q (s : State) : exec (.vfmaF32 sb c m d a b e q) s = Sys2Proof.Machine.execVfmaF32 sb c m d a b e q s := rfl

theorem exec_vfmsF32 sb c m d a b e q (s : State) : exec (.vfmsF32 sb c m d a b e q) s = Sys2Proof.Machine.execVfmsF32 sb c m d a b e q s := rfl

theorem exec_vfmaBf16 sb c m d a b e q (s : State) : exec (.vfmaBf16 sb c m d a b e q) s = Sys2Proof.Machine.execVfmaBf16 sb c m d a b e q s := rfl

theorem exec_vfmaF16 sb c m d a b e q (s : State) : exec (.vfmaF16 sb c m d a b e q) s = Sys2Proof.Machine.execVfmaF16 sb c m d a b e q s := rfl

theorem exec_vcvtF32I32 sb c m d a r q (s : State) : exec (.vcvtF32I32 sb c m d a r q) s = Sys2Proof.Machine.execVcvtF32I32 sb c m d a r q s := rfl

theorem exec_vcvtI32F32 sb c m d a r q (s : State) : exec (.vcvtI32F32 sb c m d a r q) s = Sys2Proof.Machine.execVcvtI32F32 sb c m d a r q s := rfl

theorem exec_vcvtF32F16 sb c m d a x q (s : State) : exec (.vcvtF32F16 sb c m d a x q) s = Sys2Proof.Machine.execVcvtF32F16 sb c m d a x q s := rfl

theorem exec_vcvtF32Bf16 sb c m d a x q (s : State) : exec (.vcvtF32Bf16 sb c m d a x q) s = Sys2Proof.Machine.execVcvtF32Bf16 sb c m d a x q s := rfl

theorem exec_vcvtF16F32 sb c m d a x r q (s : State) : exec (.vcvtF16F32 sb c m d a x r q) s = Sys2Proof.Machine.execVcvtF16F32 sb c m d a x r q s := rfl

theorem exec_vcvtBf16F32 sb c m d a x r q (s : State) : exec (.vcvtBf16F32 sb c m d a x r q) s = Sys2Proof.Machine.execVcvtBf16F32 sb c m d a x r q s := rfl

theorem exec_vcvtF32E4m3 sb c m d a x q (s : State) : exec (.vcvtF32E4m3 sb c m d a x q) s = Sys2Proof.Machine.execVcvtF32E4m3 sb c m d a x q s := rfl

theorem exec_vcvtF32E5m2 sb c m d a x q (s : State) : exec (.vcvtF32E5m2 sb c m d a x q) s = Sys2Proof.Machine.execVcvtF32E5m2 sb c m d a x q s := rfl

theorem exec_vcvtE4m3F32 sb c m d a x r q (s : State) : exec (.vcvtE4m3F32 sb c m d a x r q) s = Sys2Proof.Machine.execVcvtE4m3F32 sb c m d a x r q s := rfl

theorem exec_vcvtE5m2F32 sb c m d a x r q (s : State) : exec (.vcvtE5m2F32 sb c m d a x r q) s = Sys2Proof.Machine.execVcvtE5m2F32 sb c m d a x r q s := rfl

theorem exec_vpackB4 sb c m d a x q (s : State) : exec (.vpackB4 sb c m d a x q) s = Sys2Proof.Machine.execVpackB4 sb c m d a x q s := rfl

theorem exec_vunpackB4 sb c m d a x q (s : State) : exec (.vunpackB4 sb c m d a x q) s = Sys2Proof.Machine.execVunpackB4 sb c m d a x q s := rfl

theorem exec_vperm sb c m d a b q (s : State) : exec (.vperm sb c m d a b q) s = Sys2Proof.Machine.execVperm sb c m d a b q s := rfl

theorem exec_vrot sb c m d a b q (s : State) : exec (.vrot sb c m d a b q) s = Sys2Proof.Machine.execVrot sb c m d a b q s := rfl

theorem exec_vbcast sb c m d a q (s : State) : exec (.vbcast sb c m d a q) s = Sys2Proof.Machine.execVbcast sb c m d a q s := rfl

theorem exec_vredadd sb c m d a q (s : State) : exec (.vredadd sb c m d a q) s = Sys2Proof.Machine.execVredadd sb c m d a q s := rfl

theorem exec_vredmax sb c m d a q (s : State) : exec (.vredmax sb c m d a q) s = Sys2Proof.Machine.execVredmax sb c m d a q s := rfl

theorem exec_viredadd sb c m d a q (s : State) : exec (.viredadd sb c m d a q) s = Sys2Proof.Machine.execViredadd sb c m d a q s := rfl

theorem exec_vbspl sb c m d a j q (s : State) : exec (.vbspl sb c m d a j q) s = Sys2Proof.Machine.execVbspl sb c m d a j q s := rfl

theorem exec_patC sb t f v (s : State) : exec (.patC sb t f v) s = Sys2Proof.Machine.execPatC sb t f v s := rfl

theorem exec_pisC sb t f v (s : State) : exec (.pisC sb t f v) s = Sys2Proof.Machine.execPisC sb t f v s := rfl

theorem exec_patA sb t f v (s : State) : exec (.patA sb t f v) s = Sys2Proof.Machine.execPatA sb t f v s := rfl

theorem exec_pisA sb t f v (s : State) : exec (.pisA sb t f v) s = Sys2Proof.Machine.execPisA sb t f v s := rfl

theorem exec_patS sb t f v (s : State) : exec (.patS sb t f v) s = Sys2Proof.Machine.execPatS sb t f v s := rfl

theorem exec_pisS sb t f v (s : State) : exec (.pisS sb t f v) s = Sys2Proof.Machine.execPisS sb t f v s := rfl

theorem exec_tplC sb p t a tlo (s : State) : exec (.tplC sb p t a tlo) s = Sys2Proof.Machine.execTplC sb p t a tlo s := rfl

theorem exec_tplA sb p t a tlo (s : State) : exec (.tplA sb p t a tlo) s = Sys2Proof.Machine.execTplA sb p t a tlo s := rfl

theorem exec_tplS sb p t a tlo (s : State) : exec (.tplS sb p t a tlo) s = Sys2Proof.Machine.execTplS sb p t a tlo s := rfl

theorem exec_cwait sb p k n (s : State) : exec (.cwait sb p k n) s = Sys2Proof.Machine.execCwait sb p k n s := rfl

theorem exec_cdisc sb p k n (s : State) : exec (.cdisc sb p k n) s = Sys2Proof.Machine.execCdisc sb p k n s := rfl

theorem exec_crd sb p d k (s : State) : exec (.crd sb p d k) s = Sys2Proof.Machine.execCrd sb p d k s := rfl

theorem exec_rngset sb p k a b (s : State) : exec (.rngset sb p k a b) s = Sys2Proof.Machine.execRngset sb p k a b s := rfl

theorem exec_rngrd sb p d k (s : State) : exec (.rngrd sb p d k) s = Sys2Proof.Machine.execRngrd sb p d k s := rfl

theorem exec_publish sb p k (s : State) : exec (.publish sb p k) s = Sys2Proof.Machine.execPublish sb p k s := rfl

theorem exec_kset sb p k a (s : State) : exec (.kset sb p k a) s = Sys2Proof.Machine.execKset sb p k a s := rfl

theorem exec_krd sb p d k (s : State) : exec (.krd sb p d k) s = Sys2Proof.Machine.execKrd sb p d k s := rfl

theorem exec_katcmp sb p k a (s : State) : exec (.katcmp sb p k a) s = Sys2Proof.Machine.execKatcmp sb p k a s := rfl

theorem exec_join sb p d a (s : State) : exec (.join sb p d a) s = Sys2Proof.Machine.execJoin sb p d a s := rfl

theorem exec_leave sb p d a (s : State) : exec (.leave sb p d a) s = Sys2Proof.Machine.execLeave sb p d a s := rfl

theorem exec_grpq sb p d a (s : State) : exec (.grpq sb p d a) s = Sys2Proof.Machine.execGrpq sb p d a s := rfl

theorem exec_barr sb p d a b (s : State) : exec (.barr sb p d a b) s = Sys2Proof.Machine.execBarr sb p d a b s := rfl

theorem exec_bwait sb p d a b (s : State) : exec (.bwait sb p d a b) s = Sys2Proof.Machine.execBwait sb p d a b s := rfl

theorem exec_barw sb p d a b (s : State) : exec (.barw sb p d a b) s = Sys2Proof.Machine.execBarw sb p d a b s := rfl

theorem exec_finc sb p d a b (s : State) : exec (.finc sb p d a b) s = Sys2Proof.Machine.execFinc sb p d a b s := rfl

theorem exec_fwait sb p d a b (s : State) : exec (.fwait sb p d a b) s = Sys2Proof.Machine.execFwait sb p d a b s := rfl

theorem exec_frd sb p d a (s : State) : exec (.frd sb p d a) s = Sys2Proof.Machine.execFrd sb p d a s := rfl

theorem exec_fset sb p d a b (s : State) : exec (.fset sb p d a b) s = Sys2Proof.Machine.execFset sb p d a b s := rfl

theorem exec_launch sb p d a (s : State) : exec (.launch sb p d a) s = Sys2Proof.Machine.execLaunch sb p d a s := rfl

theorem exec_launchn sb p d a (s : State) : exec (.launchn sb p d a) s = Sys2Proof.Machine.execLaunchn sb p d a s := rfl

theorem exec_evset sb p a b (s : State) : exec (.evset sb p a b) s = Sys2Proof.Machine.execEvset sb p a b s := rfl

theorem exec_evclr sb p a b (s : State) : exec (.evclr sb p a b) s = Sys2Proof.Machine.execEvclr sb p a b s := rfl

theorem exec_evwait sb p d a b (s : State) : exec (.evwait sb p d a b) s = Sys2Proof.Machine.execEvwait sb p d a b s := rfl

theorem exec_enq sb p d a (s : State) : exec (.enq sb p d a) s = Sys2Proof.Machine.execEnq sb p d a s := rfl

theorem exec_deq sb p d k (s : State) : exec (.deq sb p d k) s = Sys2Proof.Machine.execDeq sb p d k s := rfl

theorem exec_yield sb p (s : State) : exec (.yield sb p) s = Sys2Proof.Machine.execYield sb p s := rfl

theorem exec_taskinfo sb p d k (s : State) : exec (.taskinfo sb p d k) s = Sys2Proof.Machine.execTaskinfo sb p d k s := rfl

theorem exec_ldg sb p k b z o imm (s : State) : exec (.ldg sb p k b z o imm) s = Sys2Proof.Machine.execLdg sb p k b z o imm s := rfl

theorem exec_stg sb p d b z o imm (s : State) : exec (.stg sb p d b z o imm) s = Sys2Proof.Machine.execStg sb p d b z o imm s := rfl

theorem exec_lda sb p k b z o imm (s : State) : exec (.lda sb p k b z o imm) s = Sys2Proof.Machine.execLda sb p k b z o imm s := rfl

theorem exec_stl sb p d b z o imm (s : State) : exec (.stl sb p d b z o imm) s = Sys2Proof.Machine.execStl sb p d b z o imm s := rfl

theorem exec_ldgq sb p q b o imm (s : State) : exec (.ldgq sb p q b o imm) s = Sys2Proof.Machine.execLdgq sb p q b o imm s := rfl

theorem exec_stgq sb p q b o imm (s : State) : exec (.stgq sb p q b o imm) s = Sys2Proof.Machine.execStgq sb p q b o imm s := rfl

theorem exec_pfg sb p b o imm (s : State) : exec (.pfg sb p b o imm) s = Sys2Proof.Machine.execPfg sb p b o imm s := rfl

theorem exec_fence sb p d a b (s : State) : exec (.fence sb p d a b) s = Sys2Proof.Machine.execFence sb p d a b s := rfl

theorem exec_pubg sb p a (s : State) : exec (.pubg sb p a) s = Sys2Proof.Machine.execPubg sb p a s := rfl

theorem exec_tlbinv sb p a b (s : State) : exec (.tlbinv sb p a b) s = Sys2Proof.Machine.execTlbinv sb p a b s := rfl

theorem exec_tlbsync sb p d (s : State) : exec (.tlbsync sb p d) s = Sys2Proof.Machine.execTlbsync sb p d s := rfl

theorem exec_caprd sb p d a (s : State) : exec (.caprd sb p d a) s = Sys2Proof.Machine.execCaprd sb p d a s := rfl

theorem exec_ctxsave sb p d a b (s : State) : exec (.ctxsave sb p d a b) s = Sys2Proof.Machine.execCtxsave sb p d a b s := rfl

theorem exec_ctxrst sb p d a b (s : State) : exec (.ctxrst sb p d a b) s = Sys2Proof.Machine.execCtxrst sb p d a b s := rfl

theorem exec_sealw sb p (s : State) : exec (.sealw sb p) s = Sys2Proof.Machine.execSealw sb p s := rfl

theorem exec_hostsig sb p a (s : State) : exec (.hostsig sb p a) s = Sys2Proof.Machine.execHostsig sb p a s := rfl

theorem exec_nwr sb p w a b (s : State) : exec (.nwr sb p w a b) s = Sys2Proof.Machine.execNwr sb p w a b s := rfl

theorem exec_nrd sb p v k a w (s : State) : exec (.nrd sb p v k a w) s = Sys2Proof.Machine.execNrd sb p v k a w s := rfl

theorem exec_nred sb p d a b (s : State) : exec (.nred sb p d a b) s = Sys2Proof.Machine.execNred sb p d a b s := rfl

theorem exec_nbar sb p d a (s : State) : exec (.nbar sb p d a) s = Sys2Proof.Machine.execNbar sb p d a s := rfl

theorem exec_memb sb p d (s : State) : exec (.memb sb p d) s = Sys2Proof.Machine.execMemb sb p d s := rfl

theorem exec_gsw sb p d a (s : State) : exec (.gsw sb p d a) s = Sys2Proof.Machine.execGsw sb p d a s := rfl

theorem exec_pendingResultLand slot v idx (s : State) : exec (.pendingResultLand slot v idx) s = Sys2Proof.Machine.execPendingResultLand slot v idx s := rfl

theorem exec_queueEntryFill slot q idx (s : State) : exec (.queueEntryFill slot q idx) s = Sys2Proof.Machine.execQueueEntryFill slot q idx s := rfl

theorem exec_landingArrival slot v lb (s : State) : exec (.landingArrival slot v lb) s = Sys2Proof.Machine.execLandingArrival slot v lb s := rfl

theorem exec_streamService slot st (s : State) : exec (.streamService slot st) s = Sys2Proof.Machine.execStreamService slot st s := rfl

theorem exec_slotYield (s : State) : exec .slotYield s = Sys2Proof.Machine.execSlotYield s := rfl

theorem exec_clauseSeal slot id (s : State) : exec (.clauseSeal slot id) s = Sys2Proof.Machine.execClauseSeal slot id s := rfl

theorem exec_barrierWaitEnd slot (s : State) : exec (.barrierWaitEnd slot) s = Sys2Proof.Machine.execBarrierWaitEnd slot s := rfl

theorem exec_copy cmd (s : State) : exec (.copy cmd) s = Sys2Proof.Machine.execCopy cmd s := rfl

theorem exec_copyf cmd (s : State) : exec (.copyf cmd) s = Sys2Proof.Machine.execCopyf cmd s := rfl

theorem exec_copyfFollowOn cmd (s : State) : exec (.copyfFollowOn cmd) s = Sys2Proof.Machine.execCopyfFollowOn cmd s := rfl

theorem exec_arrLoadb cmd (s : State) : exec (.arrLoadb cmd) s = Sys2Proof.Machine.execArrLoadb cmd s := rfl

theorem exec_arrMm cmd (s : State) : exec (.arrMm cmd) s = Sys2Proof.Machine.execArrMm cmd s := rfl

theorem exec_arrSpl cmd (s : State) : exec (.arrSpl cmd) s = Sys2Proof.Machine.execArrSpl cmd s := rfl

theorem exec_arrGrad cmd (s : State) : exec (.arrGrad cmd) s = Sys2Proof.Machine.execArrGrad cmd s := rfl

theorem exec_arrRefine cmd (s : State) : exec (.arrRefine cmd) s = Sys2Proof.Machine.execArrRefine cmd s := rfl

theorem exec_arrDrain cmd (s : State) : exec (.arrDrain cmd) s = Sys2Proof.Machine.execArrDrain cmd s := rfl

theorem exec_arrRowout cmd (s : State) : exec (.arrRowout cmd) s = Sys2Proof.Machine.execArrRowout cmd s := rfl

theorem exec_scatAdd cmd (s : State) : exec (.scatAdd cmd) s = Sys2Proof.Machine.execScatAdd cmd s := rfl

theorem exec_scatMax cmd (s : State) : exec (.scatMax cmd) s = Sys2Proof.Machine.execScatMax cmd s := rfl

theorem exec_scatterWindow cmd (s : State) : exec (.scatterWindow cmd) s = Sys2Proof.Machine.execScatterWindow cmd s := rfl

theorem exec_commandRetire cmd (s : State) : exec (.commandRetire cmd) s = Sys2Proof.Machine.execCommandRetire cmd s := rfl

theorem exec_trapEntry slot (s : State) : exec (.trapEntry slot) s = Sys2Proof.Machine.execTrapEntry slot s := rfl

theorem exec_signal slot (s : State) : exec (.signal slot) s = Sys2Proof.Machine.execSignal slot s := rfl

theorem exec_preempt (s : State) : exec .preempt s = Sys2Proof.Machine.execPreempt s := rfl

theorem exec_coreImageSave (s : State) : exec .coreImageSave s = Sys2Proof.Machine.execCoreImageSave s := rfl

theorem exec_threadEnd slot (s : State) : exec (.threadEnd slot) s = Sys2Proof.Machine.execThreadEnd slot s := rfl

theorem exec_strikeReport region (s : State) : exec (.strikeReport region) s = Sys2Proof.Machine.execStrikeReport region s := rfl

theorem exec_rollbackRestart (s : State) : exec .rollbackRestart s = Sys2Proof.Machine.execRollbackRestart s := rfl

theorem exec_timeSliceEnd slot (s : State) : exec (.timeSliceEnd slot) s = Sys2Proof.Machine.execTimeSliceEnd slot s := rfl

theorem exec_taskPlace idx slot (s : State) : exec (.taskPlace idx slot) s = Sys2Proof.Machine.execTaskPlace idx slot s := rfl

theorem exec_pipelineSpill pipe (s : State) : exec (.pipelineSpill pipe) s = Sys2Proof.Machine.execPipelineSpill pipe s := rfl

theorem exec_stealRequest peer (s : State) : exec (.stealRequest peer) s = Sys2Proof.Machine.execStealRequest peer s := rfl

theorem exec_stealAcknowledge seq (s : State) : exec (.stealAcknowledge seq) s = Sys2Proof.Machine.execStealAcknowledge seq s := rfl

theorem exec_stealConfirm peer seq (s : State) : exec (.stealConfirm peer seq) s = Sys2Proof.Machine.execStealConfirm peer seq s := rfl

theorem exec_stealTimeout seq (s : State) : exec (.stealTimeout seq) s = Sys2Proof.Machine.execStealTimeout seq s := rfl

theorem exec_schedLost cluster (s : State) : exec (.schedLost cluster) s = Sys2Proof.Machine.execSchedLost cluster s := rfl

theorem exec_clusterSwitchOut area (s : State) : exec (.clusterSwitchOut area) s = Sys2Proof.Machine.execClusterSwitchOut area s := rfl

theorem exec_clusterRestore area (s : State) : exec (.clusterRestore area) s = Sys2Proof.Machine.execClusterRestore area s := rfl

theorem exec_walkComplete n (s : State) : exec (.walkComplete n) s = Sys2Proof.Machine.execWalkComplete n s := rfl

theorem exec_invalidationAck n (s : State) : exec (.invalidationAck n) s = Sys2Proof.Machine.execInvalidationAck n s := rfl

theorem exec_invalidationHoldTimeout slot (s : State) : exec (.invalidationHoldTimeout slot) s = Sys2Proof.Machine.execInvalidationHoldTimeout slot s := rfl

theorem exec_pubgToggle n (s : State) : exec (.pubgToggle n) s = Sys2Proof.Machine.execPubgToggle n s := rfl

theorem exec_releasePerformed n (s : State) : exec (.releasePerformed n) s = Sys2Proof.Machine.execReleasePerformed n s := rfl

theorem exec_contextSaveRequest n (s : State) : exec (.contextSaveRequest n) s = Sys2Proof.Machine.execContextSaveRequest n s := rfl

theorem exec_contextRestoreRequest n (s : State) : exec (.contextRestoreRequest n) s = Sys2Proof.Machine.execContextRestoreRequest n s := rfl

theorem exec_submissionTail ctx val (s : State) : exec (.submissionTail ctx val) s = Sys2Proof.Machine.execSubmissionTail ctx val s := rfl

theorem exec_completionHead ctx val (s : State) : exec (.completionHead ctx val) s = Sys2Proof.Machine.execCompletionHead ctx val s := rfl

theorem exec_faultHead ctx val (s : State) : exec (.faultHead ctx val) s = Sys2Proof.Machine.execFaultHead ctx val s := rfl

theorem exec_launchPacket ctx idx (s : State) : exec (.launchPacket ctx idx) s = Sys2Proof.Machine.execLaunchPacket ctx idx s := rfl

theorem exec_event ctx idx (s : State) : exec (.event ctx idx) s = Sys2Proof.Machine.execEvent ctx idx s := rfl

theorem exec_evwaitPacket ctx idx (s : State) : exec (.evwaitPacket ctx idx) s = Sys2Proof.Machine.execEvwaitPacket ctx idx s := rfl

theorem exec_attach ctx idx (s : State) : exec (.attach ctx idx) s = Sys2Proof.Machine.execAttach ctx idx s := rfl

theorem exec_detach ctx idx (s : State) : exec (.detach ctx idx) s = Sys2Proof.Machine.execDetach ctx idx s := rfl

theorem exec_stop ctx idx (s : State) : exec (.stop ctx idx) s = Sys2Proof.Machine.execStop ctx idx s := rfl

theorem exec_resume ctx idx (s : State) : exec (.resume ctx idx) s = Sys2Proof.Machine.execResume ctx idx s := rfl

theorem exec_debugRead ctx idx (s : State) : exec (.debugRead ctx idx) s = Sys2Proof.Machine.execDebugRead ctx idx s := rfl

theorem exec_debugWrite ctx idx (s : State) : exec (.debugWrite ctx idx) s = Sys2Proof.Machine.execDebugWrite ctx idx s := rfl

theorem exec_debugBreak ctx idx (s : State) : exec (.debugBreak ctx idx) s = Sys2Proof.Machine.execDebugBreak ctx idx s := rfl

theorem exec_sample ctx idx (s : State) : exec (.sample ctx idx) s = Sys2Proof.Machine.execSample ctx idx s := rfl

theorem exec_trace ctx idx (s : State) : exec (.trace ctx idx) s = Sys2Proof.Machine.execTrace ctx idx s := rfl

theorem exec_counters ctx idx (s : State) : exec (.counters ctx idx) s = Sys2Proof.Machine.execCounters ctx idx s := rfl

theorem exec_replay ctx idx (s : State) : exec (.replay ctx idx) s = Sys2Proof.Machine.execReplay ctx idx s := rfl

theorem exec_inject ctx idx (s : State) : exec (.inject ctx idx) s = Sys2Proof.Machine.execInject ctx idx s := rfl

theorem exec_breakpoint slot (s : State) : exec (.breakpoint slot) s = Sys2Proof.Machine.execBreakpoint slot s := rfl

theorem exec_freezeLimit ctx (s : State) : exec (.freezeLimit ctx) s = Sys2Proof.Machine.execFreezeLimit ctx s := rfl

theorem exec_sampleEmit slot (s : State) : exec (.sampleEmit slot) s = Sys2Proof.Machine.execSampleEmit slot s := rfl

theorem exec_replayTimeout ctx (s : State) : exec (.replayTimeout ctx) s = Sys2Proof.Machine.execReplayTimeout ctx s := rfl

theorem exec_coreRelease core (s : State) : exec (.coreRelease core) s = Sys2Proof.Machine.execCoreRelease core s := rfl

theorem exec_powerLimit watts (s : State) : exec (.powerLimit watts) s = Sys2Proof.Machine.execPowerLimit watts s := rfl

theorem exec_hostCtxsave ctx area units (s : State) : exec (.hostCtxsave ctx area units) s = Sys2Proof.Machine.execHostCtxsave ctx area units s := rfl

theorem exec_hostCtxrst ctx area (s : State) : exec (.hostCtxrst ctx area) s = Sys2Proof.Machine.execHostCtxrst ctx area s := rfl

theorem exec_packageIdleRequest (s : State) : exec .packageIdleRequest s = Sys2Proof.Machine.execPackageIdleRequest s := rfl

theorem exec_bar0RegisterWrite off val (s : State) : exec (.bar0RegisterWrite off val) s = Sys2Proof.Machine.execBar0RegisterWrite off val s := rfl

theorem exec_powerOn (s : State) : exec .powerOn s = Sys2Proof.Machine.execPowerOn s := rfl

theorem exec_reboot image (s : State) : exec (.reboot image) s = Sys2Proof.Machine.execReboot image s := rfl

theorem exec_powerOff (s : State) : exec .powerOff s = Sys2Proof.Machine.execPowerOff s := rfl

theorem exec_getVersion msg (s : State) : exec (.getVersion msg) s = Sys2Proof.Machine.execGetVersion msg s := rfl

theorem exec_getCapabilities msg (s : State) : exec (.getCapabilities msg) s = Sys2Proof.Machine.execGetCapabilities msg s := rfl

theorem exec_negotiateAlgorithms msg (s : State) : exec (.negotiateAlgorithms msg) s = Sys2Proof.Machine.execNegotiateAlgorithms msg s := rfl

theorem exec_getDigests msg (s : State) : exec (.getDigests msg) s = Sys2Proof.Machine.execGetDigests msg s := rfl

theorem exec_getCertificate msg (s : State) : exec (.getCertificate msg) s = Sys2Proof.Machine.execGetCertificate msg s := rfl

theorem exec_challenge msg (s : State) : exec (.challenge msg) s = Sys2Proof.Machine.execChallenge msg s := rfl

theorem exec_getMeasurements msg (s : State) : exec (.getMeasurements msg) s = Sys2Proof.Machine.execGetMeasurements msg s := rfl

theorem exec_flitReceive link flit trailer (s : State) : exec (.flitReceive link flit trailer) s = Sys2Proof.Machine.execFlitReceive link flit trailer s := rfl

theorem exec_linkTrained link (s : State) : exec (.linkTrained link) s = Sys2Proof.Machine.execLinkTrained link s := rfl

theorem exec_linkRetrainTimeout link (s : State) : exec (.linkRetrainTimeout link) s = Sys2Proof.Machine.execLinkRetrainTimeout link s := rfl

theorem exec_remoteWrite n (s : State) : exec (.remoteWrite n) s = Sys2Proof.Machine.execRemoteWrite n s := rfl

theorem exec_readRequest n (s : State) : exec (.readRequest n) s = Sys2Proof.Machine.execReadRequest n s := rfl

theorem exec_readReply n (s : State) : exec (.readReply n) s = Sys2Proof.Machine.execReadReply n s := rfl

theorem exec_writeAcknowledgement n (s : State) : exec (.writeAcknowledgement n) s = Sys2Proof.Machine.execWriteAcknowledgement n s := rfl

theorem exec_contribution n (s : State) : exec (.contribution n) s = Sys2Proof.Machine.execContribution n s := rfl

theorem exec_collectiveResult n (s : State) : exec (.collectiveResult n) s = Sys2Proof.Machine.execCollectiveResult n s := rfl

theorem exec_barrierArrival n (s : State) : exec (.barrierArrival n) s = Sys2Proof.Machine.execBarrierArrival n s := rfl

theorem exec_barrierRelease n (s : State) : exec (.barrierRelease n) s = Sys2Proof.Machine.execBarrierRelease n s := rfl

theorem exec_cutMarker n (s : State) : exec (.cutMarker n) s = Sys2Proof.Machine.execCutMarker n s := rfl

theorem exec_resumeMarker n (s : State) : exec (.resumeMarker n) s = Sys2Proof.Machine.execResumeMarker n s := rfl

theorem exec_sweepReport n (s : State) : exec (.sweepReport n) s = Sys2Proof.Machine.execSweepReport n s := rfl

theorem exec_purge n (s : State) : exec (.purge n) s = Sys2Proof.Machine.execPurge n s := rfl

theorem exec_remoteTimeout req (s : State) : exec (.remoteTimeout req) s = Sys2Proof.Machine.execRemoteTimeout req s := rfl

theorem exec_memberFailure job grp node (s : State) : exec (.memberFailure job grp node) s = Sys2Proof.Machine.execMemberFailure job grp node s := rfl

theorem exec_storePerformed n (s : State) : exec (.storePerformed n) s = Sys2Proof.Machine.execStorePerformed n s := rfl

theorem exec_unsupportedRequest msg (s : State) : exec (.unsupportedRequest msg) s = Sys2Proof.Machine.execUnsupportedRequest msg s := rfl

theorem exec_contextCreation desc (s : State) : exec (.contextCreation desc) s = Sys2Proof.Machine.execContextCreation desc s := rfl

theorem exec_hostInject core region (s : State) : exec (.hostInject core region) s = Sys2Proof.Machine.execHostInject core region s := rfl

theorem exec_invalidPacket ctx idx (s : State) : exec (.invalidPacket ctx idx) s = Sys2Proof.Machine.execInvalidPacket ctx idx s := rfl

end Sys2Proof.Machine
end

