-- ==== Sys2Proof/Laws/PerInstr.lean ====
section
/-! SUPPORT. Encoding and decoding agree, for every constructor of Instr: the fields of an encoded word read back, layout by
layout, and from them one lemma for each constructor. An event has no word. -/

namespace Sys2Proof.Laws

/-- The word of a well-formed instruction decodes to it. -/
def EncodeRoundTrip.Statement (i : Instr) : Prop := ∀ w, encode i = some w → wellFormed i = true → decodeWord w = some i

/-- A word whose raw reading is an instruction that encodes to it decodes to that instruction. -/
theorem decodeWord_of_raw {i : Instr} {w : BitVec 32} (h : encode i = some w) (hr : raw w = some i)
    (hw : wellFormed i = true) : decodeWord w = some i := by
  simp [decodeWord, hr, h, hw]

/-- What decodes encodes to the word it was decoded from, and is well formed. -/
theorem encode_of_decodeWord {i : Instr} {w : BitVec 32} (h : decodeWord w = some i) :
    encode i = some w ∧ wellFormed i = true := by
  unfold decodeWord at h
  split at h
  · cases h
  · split at h
    · cases h; assumption
    · cases h

theorem fld_ofNat {n : Nat} (N lo : Nat) (y : BitVec n) (h : N % 4294967296 / 2 ^ lo % 2 ^ n = y.toNat) :
    fld (BitVec.ofNat 32 N) lo n = y := by
  apply BitVec.eq_of_toNat_eq
  simp [fld, h]

theorem fnum_ofNat (N lo n k : Nat) (h : N % 4294967296 / 2 ^ lo % 2 ^ n = k) : fnum (BitVec.ofNat 32 N) lo n = k := by
  simp [fnum, h]

theorem raw_maj01 (w : BitVec 32) (h : fnum w 25 6 = 1) : raw w = raw01 w := by unfold raw; rw [h]; rfl

theorem raw_maj02 (w : BitVec 32) (h : fnum w 25 6 = 2) : raw w = raw02 w := by unfold raw; rw [h]; rfl

theorem raw_maj03 (w : BitVec 32) (h : fnum w 25 6 = 3) : raw w = raw03 w := by unfold raw; rw [h]; rfl

theorem raw_maj04 (w : BitVec 32) (h : fnum w 25 6 = 4) : raw w = raw04 w := by unfold raw; rw [h]; rfl

theorem raw_maj05 (w : BitVec 32) (h : fnum w 25 6 = 5) : raw w = raw05 w := by unfold raw; rw [h]; rfl

theorem raw_maj06 (w : BitVec 32) (h : fnum w 25 6 = 6) : raw w = raw06 w := by unfold raw; rw [h]; rfl

theorem raw_maj07 (w : BitVec 32) (h : fnum w 25 6 = 7) : raw w = raw07 w := by unfold raw; rw [h]; rfl

theorem raw_maj08 (w : BitVec 32) (h : fnum w 25 6 = 8) : raw w = raw08 w := by unfold raw; rw [h]; rfl

theorem raw_maj09 (w : BitVec 32) (h : fnum w 25 6 = 9) : raw w = raw09 w := by unfold raw; rw [h]; rfl

theorem raw_maj0A (w : BitVec 32) (h : fnum w 25 6 = 10) : raw w = raw0A w := by unfold raw; rw [h]; rfl

theorem raw_maj0B (w : BitVec 32) (h : fnum w 25 6 = 11) : raw w = raw0B w := by unfold raw; rw [h]; rfl

theorem raw_maj0C (w : BitVec 32) (h : fnum w 25 6 = 12) : raw w = raw0C w := by unfold raw; rw [h]; rfl

theorem raw_maj0D (w : BitVec 32) (h : fnum w 25 6 = 13) : raw w = raw0D w := by unfold raw; rw [h]; rfl

theorem raw_maj0E (w : BitVec 32) (h : fnum w 25 6 = 14) : raw w = raw0E w := by unfold raw; rw [h]; rfl

theorem raw_maj0F (w : BitVec 32) (h : fnum w 25 6 = 15) : raw w = raw0F w := by unfold raw; rw [h]; rfl

theorem raw_maj10 (w : BitVec 32) (h : fnum w 25 6 = 16) : raw w = raw10 w := by unfold raw; rw [h]; rfl

theorem raw_maj11 (w : BitVec 32) (h : fnum w 25 6 = 17) : raw w = raw11 w := by unfold raw; rw [h]; rfl

theorem raw_maj3F (w : BitVec 32) (h : fnum w 25 6 = 63) : raw w = raw3F w := by unfold raw; rw [h]; rfl

theorem raw_maj14 (w : BitVec 32) (h : fnum w 25 6 = 20) : raw w = raw14 w := by unfold raw; rw [h]; rfl

theorem raw_maj15 (w : BitVec 32) (h : fnum w 25 6 = 21) : raw w = raw15 w := by unfold raw; rw [h]; rfl

theorem raw_maj16 (w : BitVec 32) (h : fnum w 25 6 = 22) : raw w = raw16 w := by unfold raw; rw [h]; rfl

theorem raw_maj17 (w : BitVec 32) (h : fnum w 25 6 = 23) : raw w = raw17 w := by unfold raw; rw [h]; rfl

theorem raw_maj18 (w : BitVec 32) (h : fnum w 25 6 = 24) : raw w = raw18 w := by unfold raw; rw [h]; rfl

theorem raw_maj19 (w : BitVec 32) (h : fnum w 25 6 = 25) : raw w = raw19 w := by unfold raw; rw [h]; rfl

theorem raw_maj1A (w : BitVec 32) (h : fnum w 25 6 = 26) : raw w = raw1A w := by unfold raw; rw [h]; rfl

theorem raw_maj1B (w : BitVec 32) (h : fnum w 25 6 = 27) : raw w = raw1B w := by unfold raw; rw [h]; rfl

theorem raw_maj1C (w : BitVec 32) (h : fnum w 25 6 = 28) : raw w = raw1C w := by unfold raw; rw [h]; rfl

theorem raw_maj1D (w : BitVec 32) (h : fnum w 25 6 = 29) : raw w = raw1D w := by unfold raw; rw [h]; rfl

theorem raw_maj1E (w : BitVec 32) (h : fnum w 25 6 = 30) : raw w = raw1E w := by unfold raw; rw [h]; rfl

theorem raw_maj1F (w : BitVec 32) (h : fnum w 25 6 = 31) : raw w = raw1F w := by unfold raw; rw [h]; rfl

theorem raw_maj20 (w : BitVec 32) (h : fnum w 25 6 = 32) : raw w = raw20 w := by unfold raw; rw [h]; rfl

theorem raw_maj21 (w : BitVec 32) (h : fnum w 25 6 = 33) : raw w = raw21 w := by unfold raw; rw [h]; rfl

theorem raw_maj22 (w : BitVec 32) (h : fnum w 25 6 = 34) : raw w = raw22 w := by unfold raw; rw [h]; rfl

theorem raw_maj23 (w : BitVec 32) (h : fnum w 25 6 = 35) : raw w = raw23 w := by unfold raw; rw [h]; rfl

theorem raw_maj24 (w : BitVec 32) (h : fnum w 25 6 = 36) : raw w = raw24 w := by unfold raw; rw [h]; rfl

theorem raw_maj25 (w : BitVec 32) (h : fnum w 25 6 = 37) : raw w = raw25 w := by unfold raw; rw [h]; rfl

theorem raw_maj26 (w : BitVec 32) (h : fnum w 25 6 = 38) : raw w = raw26 w := by unfold raw; rw [h]; rfl

theorem raw_maj27 (w : BitVec 32) (h : fnum w 25 6 = 39) : raw w = raw27 w := by unfold raw; rw [h]; rfl

theorem raw_maj28 (w : BitVec 32) (h : fnum w 25 6 = 40) : raw w = raw28 w := by unfold raw; rw [h]; rfl

theorem raw_maj29 (w : BitVec 32) (h : fnum w 25 6 = 41) : raw w = raw29 w := by unfold raw; rw [h]; rfl

theorem raw_maj2A (w : BitVec 32) (h : fnum w 25 6 = 42) : raw w = raw2A w := by unfold raw; rw [h]; rfl

theorem raw_maj2B (w : BitVec 32) (h : fnum w 25 6 = 43) : raw w = raw2B w := by unfold raw; rw [h]; rfl

theorem raw_maj2C (w : BitVec 32) (h : fnum w 25 6 = 44) : raw w = raw2C w := by unfold raw; rw [h]; rfl

theorem raw_maj2D (w : BitVec 32) (h : fnum w 25 6 = 45) : raw w = raw2D w := by unfold raw; rw [h]; rfl

theorem raw_maj2E (w : BitVec 32) (h : fnum w 25 6 = 46) : raw w = raw2E w := by unfold raw; rw [h]; rfl

theorem raw_maj2F (w : BitVec 32) (h : fnum w 25 6 = 47) : raw w = raw2F w := by unfold raw; rw [h]; rfl

theorem raw_maj30 (w : BitVec 32) (h : fnum w 25 6 = 48) : raw w = raw30 w := by unfold raw; rw [h]; rfl

theorem raw_maj31 (w : BitVec 32) (h : fnum w 25 6 = 49) : raw w = raw31 w := by unfold raw; rw [h]; rfl

theorem raw_maj32 (w : BitVec 32) (h : fnum w 25 6 = 50) : raw w = raw32 w := by unfold raw; rw [h]; rfl

theorem raw_maj33 (w : BitVec 32) (h : fnum w 25 6 = 51) : raw w = raw33 w := by unfold raw; rw [h]; rfl

theorem raw_maj34 (w : BitVec 32) (h : fnum w 25 6 = 52) : raw w = raw34 w := by unfold raw; rw [h]; rfl

theorem raw_maj35 (w : BitVec 32) (h : fnum w 25 6 = 53) : raw w = raw35 w := by unfold raw; rw [h]; rfl

theorem layout0 (c maj : Nat) (x0 : BitVec 1) (x1 : BitVec 5) (x2 : BitVec 20)
    (hc : c = maj * 33554432) (hj : maj < 64) :
    fnum (BitVec.ofNat 32 (c + x0.toNat * 2147483648 + x1.toNat * 1048576 + x2.toNat)) 25 6 = maj ∧
    fld (BitVec.ofNat 32 (c + x0.toNat * 2147483648 + x1.toNat * 1048576 + x2.toNat)) 31 1 = x0 ∧
    fld (BitVec.ofNat 32 (c + x0.toNat * 2147483648 + x1.toNat * 1048576 + x2.toNat)) 20 5 = x1 ∧
    fld (BitVec.ofNat 32 (c + x0.toNat * 2147483648 + x1.toNat * 1048576 + x2.toNat)) 0 20 = x2 := by
  have := x0.isLt
  have := x1.isLt
  have := x2.isLt
  subst hc
  refine ⟨?_, ?_, ?_, ?_⟩ <;> first | (apply fnum_ofNat; omega) | (apply fld_ofNat; omega)

theorem layout1 (c maj : Nat) (x0 : BitVec 1) (x1 : BitVec 3) (x2 : BitVec 5) (x3 : BitVec 5) (x4 : BitVec 12)
    (hc : c = maj * 33554432) (hj : maj < 64) :
    fnum (BitVec.ofNat 32 (c + x0.toNat * 2147483648 + x1.toNat * 4194304 + x2.toNat * 131072 + x3.toNat * 4096 + x4.toNat)) 25 6 = maj ∧
    fld (BitVec.ofNat 32 (c + x0.toNat * 2147483648 + x1.toNat * 4194304 + x2.toNat * 131072 + x3.toNat * 4096 + x4.toNat)) 31 1 = x0 ∧
    fld (BitVec.ofNat 32 (c + x0.toNat * 2147483648 + x1.toNat * 4194304 + x2.toNat * 131072 + x3.toNat * 4096 + x4.toNat)) 22 3 = x1 ∧
    fld (BitVec.ofNat 32 (c + x0.toNat * 2147483648 + x1.toNat * 4194304 + x2.toNat * 131072 + x3.toNat * 4096 + x4.toNat)) 17 5 = x2 ∧
    fld (BitVec.ofNat 32 (c + x0.toNat * 2147483648 + x1.toNat * 4194304 + x2.toNat * 131072 + x3.toNat * 4096 + x4.toNat)) 12 5 = x3 ∧
    fld (BitVec.ofNat 32 (c + x0.toNat * 2147483648 + x1.toNat * 4194304 + x2.toNat * 131072 + x3.toNat * 4096 + x4.toNat)) 0 12 = x4 := by
  have := x0.isLt
  have := x1.isLt
  have := x2.isLt
  have := x3.isLt
  have := x4.isLt
  subst hc
  refine ⟨?_, ?_, ?_, ?_, ?_, ?_⟩ <;> first | (apply fnum_ofNat; omega) | (apply fld_ofNat; omega)

theorem layout2 (c maj k : Nat) (x0 : BitVec 1) (x1 : BitVec 3) (x2 : BitVec 5) (x3 : BitVec 5) (x4 : BitVec 6)
    (hc : c = maj * 33554432 + k * 1024) (hj : maj < 64) (hk : k < 4) :
    fnum (BitVec.ofNat 32 (c + x0.toNat * 2147483648 + x1.toNat * 4194304 + x2.toNat * 131072 + x3.toNat * 4096 + x4.toNat)) 25 6 = maj ∧
    fnum (BitVec.ofNat 32 (c + x0.toNat * 2147483648 + x1.toNat * 4194304 + x2.toNat * 131072 + x3.toNat * 4096 + x4.toNat)) 10 2 = k ∧
    fld (BitVec.ofNat 32 (c + x0.toNat * 2147483648 + x1.toNat * 4194304 + x2.toNat * 131072 + x3.toNat * 4096 + x4.toNat)) 31 1 = x0 ∧
    fld (BitVec.ofNat 32 (c + x0.toNat * 2147483648 + x1.toNat * 4194304 + x2.toNat * 131072 + x3.toNat * 4096 + x4.toNat)) 22 3 = x1 ∧
    fld (BitVec.ofNat 32 (c + x0.toNat * 2147483648 + x1.toNat * 4194304 + x2.toNat * 131072 + x3.toNat * 4096 + x4.toNat)) 17 5 = x2 ∧
    fld (BitVec.ofNat 32 (c + x0.toNat * 2147483648 + x1.toNat * 4194304 + x2.toNat * 131072 + x3.toNat * 4096 + x4.toNat)) 12 5 = x3 ∧
    fld (BitVec.ofNat 32 (c + x0.toNat * 2147483648 + x1.toNat * 4194304 + x2.toNat * 131072 + x3.toNat * 4096 + x4.toNat)) 0 6 = x4 := by
  have := x0.isLt
  have := x1.isLt
  have := x2.isLt
  have := x3.isLt
  have := x4.isLt
  subst hc
  refine ⟨?_, ?_, ?_, ?_, ?_, ?_, ?_⟩ <;> first | (apply fnum_ofNat; omega) | (apply fld_ofNat; omega)

theorem layout3 (c maj k : Nat) (x0 : BitVec 1) (x1 : BitVec 3) (x2 : BitVec 3) (x3 : BitVec 5) (x4 : BitVec 10)
    (hc : c = maj * 33554432 + k * 1024) (hj : maj < 64) (hk : k < 4) :
    fnum (BitVec.ofNat 32 (c + x0.toNat * 2147483648 + x1.toNat * 4194304 + x2.toNat * 131072 + x3.toNat * 4096 + x4.toNat)) 25 6 = maj ∧
    fnum (BitVec.ofNat 32 (c + x0.toNat * 2147483648 + x1.toNat * 4194304 + x2.toNat * 131072 + x3.toNat * 4096 + x4.toNat)) 10 2 = k ∧
    fld (BitVec.ofNat 32 (c + x0.toNat * 2147483648 + x1.toNat * 4194304 + x2.toNat * 131072 + x3.toNat * 4096 + x4.toNat)) 31 1 = x0 ∧
    fld (BitVec.ofNat 32 (c + x0.toNat * 2147483648 + x1.toNat * 4194304 + x2.toNat * 131072 + x3.toNat * 4096 + x4.toNat)) 22 3 = x1 ∧
    fld (BitVec.ofNat 32 (c + x0.toNat * 2147483648 + x1.toNat * 4194304 + x2.toNat * 131072 + x3.toNat * 4096 + x4.toNat)) 17 3 = x2 ∧
    fld (BitVec.ofNat 32 (c + x0.toNat * 2147483648 + x1.toNat * 4194304 + x2.toNat * 131072 + x3.toNat * 4096 + x4.toNat)) 12 5 = x3 ∧
    fld (BitVec.ofNat 32 (c + x0.toNat * 2147483648 + x1.toNat * 4194304 + x2.toNat * 131072 + x3.toNat * 4096 + x4.toNat)) 0 10 = x4 := by
  have := x0.isLt
  have := x1.isLt
  have := x2.isLt
  have := x3.isLt
  have := x4.isLt
  subst hc
  refine ⟨?_, ?_, ?_, ?_, ?_, ?_, ?_⟩ <;> first | (apply fnum_ofNat; omega) | (apply fld_ofNat; omega)

theorem layout4 (c maj k : Nat) (x0 : BitVec 1) (x1 : BitVec 3) (x2 : BitVec 5) (x3 : BitVec 5) (x4 : BitVec 5)
    (hc : c = maj * 33554432 + k * 1) (hj : maj < 64) (hk : k < 128) :
    fnum (BitVec.ofNat 32 (c + x0.toNat * 2147483648 + x1.toNat * 4194304 + x2.toNat * 131072 + x3.toNat * 4096 + x4.toNat * 128)) 25 6 = maj ∧
    fnum (BitVec.ofNat 32 (c + x0.toNat * 2147483648 + x1.toNat * 4194304 + x2.toNat * 131072 + x3.toNat * 4096 + x4.toNat * 128)) 0 7 = k ∧
    fld (BitVec.ofNat 32 (c + x0.toNat * 2147483648 + x1.toNat * 4194304 + x2.toNat * 131072 + x3.toNat * 4096 + x4.toNat * 128)) 31 1 = x0 ∧
    fld (BitVec.ofNat 32 (c + x0.toNat * 2147483648 + x1.toNat * 4194304 + x2.toNat * 131072 + x3.toNat * 4096 + x4.toNat * 128)) 22 3 = x1 ∧
    fld (BitVec.ofNat 32 (c + x0.toNat * 2147483648 + x1.toNat * 4194304 + x2.toNat * 131072 + x3.toNat * 4096 + x4.toNat * 128)) 17 5 = x2 ∧
    fld (BitVec.ofNat 32 (c + x0.toNat * 2147483648 + x1.toNat * 4194304 + x2.toNat * 131072 + x3.toNat * 4096 + x4.toNat * 128)) 12 5 = x3 ∧
    fld (BitVec.ofNat 32 (c + x0.toNat * 2147483648 + x1.toNat * 4194304 + x2.toNat * 131072 + x3.toNat * 4096 + x4.toNat * 128)) 7 5 = x4 := by
  have := x0.isLt
  have := x1.isLt
  have := x2.isLt
  have := x3.isLt
  have := x4.isLt
  subst hc
  refine ⟨?_, ?_, ?_, ?_, ?_, ?_, ?_⟩ <;> first | (apply fnum_ofNat; omega) | (apply fld_ofNat; omega)

theorem layout5 (c maj k : Nat) (x0 : BitVec 1) (x1 : BitVec 3) (x2 : BitVec 5) (x3 : BitVec 5)
    (hc : c = maj * 33554432 + k * 1) (hj : maj < 64) (hk : k < 128) :
    fnum (BitVec.ofNat 32 (c + x0.toNat * 2147483648 + x1.toNat * 4194304 + x2.toNat * 131072 + x3.toNat * 4096)) 25 6 = maj ∧
    fnum (BitVec.ofNat 32 (c + x0.toNat * 2147483648 + x1.toNat * 4194304 + x2.toNat * 131072 + x3.toNat * 4096)) 0 7 = k ∧
    fld (BitVec.ofNat 32 (c + x0.toNat * 2147483648 + x1.toNat * 4194304 + x2.toNat * 131072 + x3.toNat * 4096)) 31 1 = x0 ∧
    fld (BitVec.ofNat 32 (c + x0.toNat * 2147483648 + x1.toNat * 4194304 + x2.toNat * 131072 + x3.toNat * 4096)) 22 3 = x1 ∧
    fld (BitVec.ofNat 32 (c + x0.toNat * 2147483648 + x1.toNat * 4194304 + x2.toNat * 131072 + x3.toNat * 4096)) 17 5 = x2 ∧
    fld (BitVec.ofNat 32 (c + x0.toNat * 2147483648 + x1.toNat * 4194304 + x2.toNat * 131072 + x3.toNat * 4096)) 12 5 = x3 := by
  have := x0.isLt
  have := x1.isLt
  have := x2.isLt
  have := x3.isLt
  subst hc
  refine ⟨?_, ?_, ?_, ?_, ?_, ?_⟩ <;> first | (apply fnum_ofNat; omega) | (apply fld_ofNat; omega)

theorem layout6 (c maj k : Nat) (x0 : BitVec 1) (x1 : BitVec 3) (x2 : BitVec 5) (x3 : BitVec 5) (x4 : BitVec 2)
    (hc : c = maj * 33554432 + k * 1) (hj : maj < 64) (hk : k < 128) :
    fnum (BitVec.ofNat 32 (c + x0.toNat * 2147483648 + x1.toNat * 4194304 + x2.toNat * 131072 + x3.toNat * 4096 + x4.toNat * 128)) 25 6 = maj ∧
    fnum (BitVec.ofNat 32 (c + x0.toNat * 2147483648 + x1.toNat * 4194304 + x2.toNat * 131072 + x3.toNat * 4096 + x4.toNat * 128)) 0 7 = k ∧
    fld (BitVec.ofNat 32 (c + x0.toNat * 2147483648 + x1.toNat * 4194304 + x2.toNat * 131072 + x3.toNat * 4096 + x4.toNat * 128)) 31 1 = x0 ∧
    fld (BitVec.ofNat 32 (c + x0.toNat * 2147483648 + x1.toNat * 4194304 + x2.toNat * 131072 + x3.toNat * 4096 + x4.toNat * 128)) 22 3 = x1 ∧
    fld (BitVec.ofNat 32 (c + x0.toNat * 2147483648 + x1.toNat * 4194304 + x2.toNat * 131072 + x3.toNat * 4096 + x4.toNat * 128)) 17 5 = x2 ∧
    fld (BitVec.ofNat 32 (c + x0.toNat * 2147483648 + x1.toNat * 4194304 + x2.toNat * 131072 + x3.toNat * 4096 + x4.toNat * 128)) 12 5 = x3 ∧
    fld (BitVec.ofNat 32 (c + x0.toNat * 2147483648 + x1.toNat * 4194304 + x2.toNat * 131072 + x3.toNat * 4096 + x4.toNat * 128)) 7 2 = x4 := by
  have := x0.isLt
  have := x1.isLt
  have := x2.isLt
  have := x3.isLt
  have := x4.isLt
  subst hc
  refine ⟨?_, ?_, ?_, ?_, ?_, ?_, ?_⟩ <;> first | (apply fnum_ofNat; omega) | (apply fld_ofNat; omega)

theorem layout7 (c maj k : Nat) (x0 : BitVec 1) (x1 : BitVec 3) (x2 : BitVec 3) (x3 : BitVec 5) (x4 : BitVec 5)
    (hc : c = maj * 33554432 + k * 1) (hj : maj < 64) (hk : k < 128) :
    fnum (BitVec.ofNat 32 (c + x0.toNat * 2147483648 + x1.toNat * 4194304 + x2.toNat * 131072 + x3.toNat * 4096 + x4.toNat * 128)) 25 6 = maj ∧
    fnum (BitVec.ofNat 32 (c + x0.toNat * 2147483648 + x1.toNat * 4194304 + x2.toNat * 131072 + x3.toNat * 4096 + x4.toNat * 128)) 0 7 = k ∧
    fld (BitVec.ofNat 32 (c + x0.toNat * 2147483648 + x1.toNat * 4194304 + x2.toNat * 131072 + x3.toNat * 4096 + x4.toNat * 128)) 31 1 = x0 ∧
    fld (BitVec.ofNat 32 (c + x0.toNat * 2147483648 + x1.toNat * 4194304 + x2.toNat * 131072 + x3.toNat * 4096 + x4.toNat * 128)) 22 3 = x1 ∧
    fld (BitVec.ofNat 32 (c + x0.toNat * 2147483648 + x1.toNat * 4194304 + x2.toNat * 131072 + x3.toNat * 4096 + x4.toNat * 128)) 17 3 = x2 ∧
    fld (BitVec.ofNat 32 (c + x0.toNat * 2147483648 + x1.toNat * 4194304 + x2.toNat * 131072 + x3.toNat * 4096 + x4.toNat * 128)) 12 5 = x3 ∧
    fld (BitVec.ofNat 32 (c + x0.toNat * 2147483648 + x1.toNat * 4194304 + x2.toNat * 131072 + x3.toNat * 4096 + x4.toNat * 128)) 7 5 = x4 := by
  have := x0.isLt
  have := x1.isLt
  have := x2.isLt
  have := x3.isLt
  have := x4.isLt
  subst hc
  refine ⟨?_, ?_, ?_, ?_, ?_, ?_, ?_⟩ <;> first | (apply fnum_ofNat; omega) | (apply fld_ofNat; omega)

theorem layout8 (c maj k : Nat) (x0 : BitVec 1) (x1 : BitVec 3) (x2 : BitVec 3) (x3 : BitVec 3) (x4 : BitVec 3)
    (hc : c = maj * 33554432 + k * 1) (hj : maj < 64) (hk : k < 128) :
    fnum (BitVec.ofNat 32 (c + x0.toNat * 2147483648 + x1.toNat * 4194304 + x2.toNat * 131072 + x3.toNat * 4096 + x4.toNat * 128)) 25 6 = maj ∧
    fnum (BitVec.ofNat 32 (c + x0.toNat * 2147483648 + x1.toNat * 4194304 + x2.toNat * 131072 + x3.toNat * 4096 + x4.toNat * 128)) 0 7 = k ∧
    fld (BitVec.ofNat 32 (c + x0.toNat * 2147483648 + x1.toNat * 4194304 + x2.toNat * 131072 + x3.toNat * 4096 + x4.toNat * 128)) 31 1 = x0 ∧
    fld (BitVec.ofNat 32 (c + x0.toNat * 2147483648 + x1.toNat * 4194304 + x2.toNat * 131072 + x3.toNat * 4096 + x4.toNat * 128)) 22 3 = x1 ∧
    fld (BitVec.ofNat 32 (c + x0.toNat * 2147483648 + x1.toNat * 4194304 + x2.toNat * 131072 + x3.toNat * 4096 + x4.toNat * 128)) 17 3 = x2 ∧
    fld (BitVec.ofNat 32 (c + x0.toNat * 2147483648 + x1.toNat * 4194304 + x2.toNat * 131072 + x3.toNat * 4096 + x4.toNat * 128)) 12 3 = x3 ∧
    fld (BitVec.ofNat 32 (c + x0.toNat * 2147483648 + x1.toNat * 4194304 + x2.toNat * 131072 + x3.toNat * 4096 + x4.toNat * 128)) 7 3 = x4 := by
  have := x0.isLt
  have := x1.isLt
  have := x2.isLt
  have := x3.isLt
  have := x4.isLt
  subst hc
  refine ⟨?_, ?_, ?_, ?_, ?_, ?_, ?_⟩ <;> first | (apply fnum_ofNat; omega) | (apply fld_ofNat; omega)

theorem layout9 (c maj k : Nat) (x0 : BitVec 1) (x1 : BitVec 3) (x2 : BitVec 3) (x3 : BitVec 3)
    (hc : c = maj * 33554432 + k * 1) (hj : maj < 64) (hk : k < 128) :
    fnum (BitVec.ofNat 32 (c + x0.toNat * 2147483648 + x1.toNat * 4194304 + x2.toNat * 131072 + x3.toNat * 4096)) 25 6 = maj ∧
    fnum (BitVec.ofNat 32 (c + x0.toNat * 2147483648 + x1.toNat * 4194304 + x2.toNat * 131072 + x3.toNat * 4096)) 0 7 = k ∧
    fld (BitVec.ofNat 32 (c + x0.toNat * 2147483648 + x1.toNat * 4194304 + x2.toNat * 131072 + x3.toNat * 4096)) 31 1 = x0 ∧
    fld (BitVec.ofNat 32 (c + x0.toNat * 2147483648 + x1.toNat * 4194304 + x2.toNat * 131072 + x3.toNat * 4096)) 22 3 = x1 ∧
    fld (BitVec.ofNat 32 (c + x0.toNat * 2147483648 + x1.toNat * 4194304 + x2.toNat * 131072 + x3.toNat * 4096)) 17 3 = x2 ∧
    fld (BitVec.ofNat 32 (c + x0.toNat * 2147483648 + x1.toNat * 4194304 + x2.toNat * 131072 + x3.toNat * 4096)) 12 3 = x3 := by
  have := x0.isLt
  have := x1.isLt
  have := x2.isLt
  have := x3.isLt
  subst hc
  refine ⟨?_, ?_, ?_, ?_, ?_, ?_⟩ <;> first | (apply fnum_ofNat; omega) | (apply fld_ofNat; omega)

theorem layout10 (c maj k : Nat) (x0 : BitVec 1) (x1 : BitVec 3) (x2 : BitVec 20)
    (hc : c = maj * 33554432 + k * 1048576) (hj : maj < 64) (hk : k < 4) :
    fnum (BitVec.ofNat 32 (c + x0.toNat * 2147483648 + x1.toNat * 4194304 + x2.toNat)) 25 6 = maj ∧
    fnum (BitVec.ofNat 32 (c + x0.toNat * 2147483648 + x1.toNat * 4194304 + x2.toNat)) 20 2 = k ∧
    fld (BitVec.ofNat 32 (c + x0.toNat * 2147483648 + x1.toNat * 4194304 + x2.toNat)) 31 1 = x0 ∧
    fld (BitVec.ofNat 32 (c + x0.toNat * 2147483648 + x1.toNat * 4194304 + x2.toNat)) 22 3 = x1 ∧
    fld (BitVec.ofNat 32 (c + x0.toNat * 2147483648 + x1.toNat * 4194304 + x2.toNat)) 0 20 = x2 := by
  have := x0.isLt
  have := x1.isLt
  have := x2.isLt
  subst hc
  refine ⟨?_, ?_, ?_, ?_, ?_⟩ <;> first | (apply fnum_ofNat; omega) | (apply fld_ofNat; omega)

theorem layout11 (c maj : Nat) (x0 : BitVec 1) (x1 : BitVec 3) (x2 : BitVec 20)
    (hc : c = maj * 33554432) (hj : maj < 64) :
    fnum (BitVec.ofNat 32 (c + x0.toNat * 2147483648 + x1.toNat * 4194304 + x2.toNat)) 25 6 = maj ∧
    fld (BitVec.ofNat 32 (c + x0.toNat * 2147483648 + x1.toNat * 4194304 + x2.toNat)) 31 1 = x0 ∧
    fld (BitVec.ofNat 32 (c + x0.toNat * 2147483648 + x1.toNat * 4194304 + x2.toNat)) 22 3 = x1 ∧
    fld (BitVec.ofNat 32 (c + x0.toNat * 2147483648 + x1.toNat * 4194304 + x2.toNat)) 0 20 = x2 := by
  have := x0.isLt
  have := x1.isLt
  have := x2.isLt
  subst hc
  refine ⟨?_, ?_, ?_, ?_⟩ <;> first | (apply fnum_ofNat; omega) | (apply fld_ofNat; omega)

theorem layout12 (c maj k : Nat) (x0 : BitVec 1) (x1 : BitVec 3) (x2 : BitVec 5) (x3 : BitVec 10)
    (hc : c = maj * 33554432 + k * 1024) (hj : maj < 64) (hk : k < 4) :
    fnum (BitVec.ofNat 32 (c + x0.toNat * 2147483648 + x1.toNat * 4194304 + x2.toNat * 4096 + x3.toNat)) 25 6 = maj ∧
    fnum (BitVec.ofNat 32 (c + x0.toNat * 2147483648 + x1.toNat * 4194304 + x2.toNat * 4096 + x3.toNat)) 10 2 = k ∧
    fld (BitVec.ofNat 32 (c + x0.toNat * 2147483648 + x1.toNat * 4194304 + x2.toNat * 4096 + x3.toNat)) 31 1 = x0 ∧
    fld (BitVec.ofNat 32 (c + x0.toNat * 2147483648 + x1.toNat * 4194304 + x2.toNat * 4096 + x3.toNat)) 22 3 = x1 ∧
    fld (BitVec.ofNat 32 (c + x0.toNat * 2147483648 + x1.toNat * 4194304 + x2.toNat * 4096 + x3.toNat)) 12 5 = x2 ∧
    fld (BitVec.ofNat 32 (c + x0.toNat * 2147483648 + x1.toNat * 4194304 + x2.toNat * 4096 + x3.toNat)) 0 10 = x3 := by
  have := x0.isLt
  have := x1.isLt
  have := x2.isLt
  have := x3.isLt
  subst hc
  refine ⟨?_, ?_, ?_, ?_, ?_, ?_⟩ <;> first | (apply fnum_ofNat; omega) | (apply fld_ofNat; omega)

theorem layout13 (c maj k : Nat) (x0 : BitVec 1) (x1 : BitVec 3) (x2 : BitVec 5) (x3 : BitVec 5) (x4 : BitVec 10)
    (hc : c = maj * 33554432 + k * 1024) (hj : maj < 64) (hk : k < 4) :
    fnum (BitVec.ofNat 32 (c + x0.toNat * 2147483648 + x1.toNat * 4194304 + x2.toNat * 131072 + x3.toNat * 4096 + x4.toNat)) 25 6 = maj ∧
    fnum (BitVec.ofNat 32 (c + x0.toNat * 2147483648 + x1.toNat * 4194304 + x2.toNat * 131072 + x3.toNat * 4096 + x4.toNat)) 10 2 = k ∧
    fld (BitVec.ofNat 32 (c + x0.toNat * 2147483648 + x1.toNat * 4194304 + x2.toNat * 131072 + x3.toNat * 4096 + x4.toNat)) 31 1 = x0 ∧
    fld (BitVec.ofNat 32 (c + x0.toNat * 2147483648 + x1.toNat * 4194304 + x2.toNat * 131072 + x3.toNat * 4096 + x4.toNat)) 22 3 = x1 ∧
    fld (BitVec.ofNat 32 (c + x0.toNat * 2147483648 + x1.toNat * 4194304 + x2.toNat * 131072 + x3.toNat * 4096 + x4.toNat)) 17 5 = x2 ∧
    fld (BitVec.ofNat 32 (c + x0.toNat * 2147483648 + x1.toNat * 4194304 + x2.toNat * 131072 + x3.toNat * 4096 + x4.toNat)) 12 5 = x3 ∧
    fld (BitVec.ofNat 32 (c + x0.toNat * 2147483648 + x1.toNat * 4194304 + x2.toNat * 131072 + x3.toNat * 4096 + x4.toNat)) 0 10 = x4 := by
  have := x0.isLt
  have := x1.isLt
  have := x2.isLt
  have := x3.isLt
  have := x4.isLt
  subst hc
  refine ⟨?_, ?_, ?_, ?_, ?_, ?_, ?_⟩ <;> first | (apply fnum_ofNat; omega) | (apply fld_ofNat; omega)

theorem layout14 (c maj : Nat) (x0 : BitVec 1) (x1 : BitVec 3) (x2 : BitVec 5) (x3 : BitVec 12)
    (hc : c = maj * 33554432) (hj : maj < 64) :
    fnum (BitVec.ofNat 32 (c + x0.toNat * 2147483648 + x1.toNat * 4194304 + x2.toNat * 4096 + x3.toNat)) 25 6 = maj ∧
    fld (BitVec.ofNat 32 (c + x0.toNat * 2147483648 + x1.toNat * 4194304 + x2.toNat * 4096 + x3.toNat)) 31 1 = x0 ∧
    fld (BitVec.ofNat 32 (c + x0.toNat * 2147483648 + x1.toNat * 4194304 + x2.toNat * 4096 + x3.toNat)) 22 3 = x1 ∧
    fld (BitVec.ofNat 32 (c + x0.toNat * 2147483648 + x1.toNat * 4194304 + x2.toNat * 4096 + x3.toNat)) 12 5 = x2 ∧
    fld (BitVec.ofNat 32 (c + x0.toNat * 2147483648 + x1.toNat * 4194304 + x2.toNat * 4096 + x3.toNat)) 0 12 = x3 := by
  have := x0.isLt
  have := x1.isLt
  have := x2.isLt
  have := x3.isLt
  subst hc
  refine ⟨?_, ?_, ?_, ?_, ?_⟩ <;> first | (apply fnum_ofNat; omega) | (apply fld_ofNat; omega)

theorem layout15 (c maj k : Nat) (x0 : BitVec 1) (x1 : BitVec 3)
    (hc : c = maj * 33554432 + k * 1) (hj : maj < 64) (hk : k < 128) :
    fnum (BitVec.ofNat 32 (c + x0.toNat * 2147483648 + x1.toNat * 4194304)) 25 6 = maj ∧
    fnum (BitVec.ofNat 32 (c + x0.toNat * 2147483648 + x1.toNat * 4194304)) 0 7 = k ∧
    fld (BitVec.ofNat 32 (c + x0.toNat * 2147483648 + x1.toNat * 4194304)) 31 1 = x0 ∧
    fld (BitVec.ofNat 32 (c + x0.toNat * 2147483648 + x1.toNat * 4194304)) 22 3 = x1 := by
  have := x0.isLt
  have := x1.isLt
  subst hc
  refine ⟨?_, ?_, ?_, ?_⟩ <;> first | (apply fnum_ofNat; omega) | (apply fld_ofNat; omega)

theorem layout16 (c maj k : Nat) (x0 : BitVec 1) (x1 : BitVec 3) (x2 : BitVec 2) (x3 : BitVec 3)
    (hc : c = maj * 33554432 + k * 1) (hj : maj < 64) (hk : k < 128) :
    fnum (BitVec.ofNat 32 (c + x0.toNat * 2147483648 + x1.toNat * 4194304 + x2.toNat * 131072 + x3.toNat * 128)) 25 6 = maj ∧
    fnum (BitVec.ofNat 32 (c + x0.toNat * 2147483648 + x1.toNat * 4194304 + x2.toNat * 131072 + x3.toNat * 128)) 0 7 = k ∧
    fld (BitVec.ofNat 32 (c + x0.toNat * 2147483648 + x1.toNat * 4194304 + x2.toNat * 131072 + x3.toNat * 128)) 31 1 = x0 ∧
    fld (BitVec.ofNat 32 (c + x0.toNat * 2147483648 + x1.toNat * 4194304 + x2.toNat * 131072 + x3.toNat * 128)) 22 3 = x1 ∧
    fld (BitVec.ofNat 32 (c + x0.toNat * 2147483648 + x1.toNat * 4194304 + x2.toNat * 131072 + x3.toNat * 128)) 17 2 = x2 ∧
    fld (BitVec.ofNat 32 (c + x0.toNat * 2147483648 + x1.toNat * 4194304 + x2.toNat * 131072 + x3.toNat * 128)) 7 3 = x3 := by
  have := x0.isLt
  have := x1.isLt
  have := x2.isLt
  have := x3.isLt
  subst hc
  refine ⟨?_, ?_, ?_, ?_, ?_, ?_⟩ <;> first | (apply fnum_ofNat; omega) | (apply fld_ofNat; omega)

theorem layout17 (c maj k : Nat) (x0 : BitVec 1) (x1 : BitVec 3) (x2 : BitVec 3)
    (hc : c = maj * 33554432 + k * 1) (hj : maj < 64) (hk : k < 128) :
    fnum (BitVec.ofNat 32 (c + x0.toNat * 2147483648 + x1.toNat * 4194304 + x2.toNat * 128)) 25 6 = maj ∧
    fnum (BitVec.ofNat 32 (c + x0.toNat * 2147483648 + x1.toNat * 4194304 + x2.toNat * 128)) 0 7 = k ∧
    fld (BitVec.ofNat 32 (c + x0.toNat * 2147483648 + x1.toNat * 4194304 + x2.toNat * 128)) 31 1 = x0 ∧
    fld (BitVec.ofNat 32 (c + x0.toNat * 2147483648 + x1.toNat * 4194304 + x2.toNat * 128)) 22 3 = x1 ∧
    fld (BitVec.ofNat 32 (c + x0.toNat * 2147483648 + x1.toNat * 4194304 + x2.toNat * 128)) 7 3 = x2 := by
  have := x0.isLt
  have := x1.isLt
  have := x2.isLt
  subst hc
  refine ⟨?_, ?_, ?_, ?_, ?_⟩ <;> first | (apply fnum_ofNat; omega) | (apply fld_ofNat; omega)

theorem layout18 (c maj k : Nat) (x0 : BitVec 1) (x1 : BitVec 3) (x2 : BitVec 2) (x3 : BitVec 3)
    (hc : c = maj * 33554432 + k * 1) (hj : maj < 64) (hk : k < 128) :
    fnum (BitVec.ofNat 32 (c + x0.toNat * 2147483648 + x1.toNat * 4194304 + x2.toNat * 131072 + x3.toNat * 4096)) 25 6 = maj ∧
    fnum (BitVec.ofNat 32 (c + x0.toNat * 2147483648 + x1.toNat * 4194304 + x2.toNat * 131072 + x3.toNat * 4096)) 0 7 = k ∧
    fld (BitVec.ofNat 32 (c + x0.toNat * 2147483648 + x1.toNat * 4194304 + x2.toNat * 131072 + x3.toNat * 4096)) 31 1 = x0 ∧
    fld (BitVec.ofNat 32 (c + x0.toNat * 2147483648 + x1.toNat * 4194304 + x2.toNat * 131072 + x3.toNat * 4096)) 22 3 = x1 ∧
    fld (BitVec.ofNat 32 (c + x0.toNat * 2147483648 + x1.toNat * 4194304 + x2.toNat * 131072 + x3.toNat * 4096)) 17 2 = x2 ∧
    fld (BitVec.ofNat 32 (c + x0.toNat * 2147483648 + x1.toNat * 4194304 + x2.toNat * 131072 + x3.toNat * 4096)) 12 3 = x3 := by
  have := x0.isLt
  have := x1.isLt
  have := x2.isLt
  have := x3.isLt
  subst hc
  refine ⟨?_, ?_, ?_, ?_, ?_, ?_⟩ <;> first | (apply fnum_ofNat; omega) | (apply fld_ofNat; omega)

theorem layout19 (c maj k : Nat) (x0 : BitVec 1) (x1 : BitVec 20)
    (hc : c = maj * 33554432 + k * 1048576) (hj : maj < 64) (hk : k < 4) :
    fnum (BitVec.ofNat 32 (c + x0.toNat * 2147483648 + x1.toNat)) 25 6 = maj ∧
    fnum (BitVec.ofNat 32 (c + x0.toNat * 2147483648 + x1.toNat)) 20 2 = k ∧
    fld (BitVec.ofNat 32 (c + x0.toNat * 2147483648 + x1.toNat)) 31 1 = x0 ∧
    fld (BitVec.ofNat 32 (c + x0.toNat * 2147483648 + x1.toNat)) 0 20 = x1 := by
  have := x0.isLt
  have := x1.isLt
  subst hc
  refine ⟨?_, ?_, ?_, ?_⟩ <;> first | (apply fnum_ofNat; omega) | (apply fld_ofNat; omega)

theorem layout20 (c maj k : Nat) (x0 : BitVec 1) (x1 : BitVec 3) (x2 : BitVec 10)
    (hc : c = maj * 33554432 + k * 1) (hj : maj < 64) (hk : k < 128) :
    fnum (BitVec.ofNat 32 (c + x0.toNat * 2147483648 + x1.toNat * 4194304 + x2.toNat * 128)) 25 6 = maj ∧
    fnum (BitVec.ofNat 32 (c + x0.toNat * 2147483648 + x1.toNat * 4194304 + x2.toNat * 128)) 0 7 = k ∧
    fld (BitVec.ofNat 32 (c + x0.toNat * 2147483648 + x1.toNat * 4194304 + x2.toNat * 128)) 31 1 = x0 ∧
    fld (BitVec.ofNat 32 (c + x0.toNat * 2147483648 + x1.toNat * 4194304 + x2.toNat * 128)) 22 3 = x1 ∧
    fld (BitVec.ofNat 32 (c + x0.toNat * 2147483648 + x1.toNat * 4194304 + x2.toNat * 128)) 7 10 = x2 := by
  have := x0.isLt
  have := x1.isLt
  have := x2.isLt
  subst hc
  refine ⟨?_, ?_, ?_, ?_, ?_⟩ <;> first | (apply fnum_ofNat; omega) | (apply fld_ofNat; omega)

theorem layout21 (c maj k : Nat) (x0 : BitVec 1) (x1 : BitVec 3) (x2 : BitVec 5) (x3 : BitVec 10)
    (hc : c = maj * 33554432 + k * 1) (hj : maj < 64) (hk : k < 128) :
    fnum (BitVec.ofNat 32 (c + x0.toNat * 2147483648 + x1.toNat * 4194304 + x2.toNat * 131072 + x3.toNat * 128)) 25 6 = maj ∧
    fnum (BitVec.ofNat 32 (c + x0.toNat * 2147483648 + x1.toNat * 4194304 + x2.toNat * 131072 + x3.toNat * 128)) 0 7 = k ∧
    fld (BitVec.ofNat 32 (c + x0.toNat * 2147483648 + x1.toNat * 4194304 + x2.toNat * 131072 + x3.toNat * 128)) 31 1 = x0 ∧
    fld (BitVec.ofNat 32 (c + x0.toNat * 2147483648 + x1.toNat * 4194304 + x2.toNat * 131072 + x3.toNat * 128)) 22 3 = x1 ∧
    fld (BitVec.ofNat 32 (c + x0.toNat * 2147483648 + x1.toNat * 4194304 + x2.toNat * 131072 + x3.toNat * 128)) 17 5 = x2 ∧
    fld (BitVec.ofNat 32 (c + x0.toNat * 2147483648 + x1.toNat * 4194304 + x2.toNat * 131072 + x3.toNat * 128)) 7 10 = x3 := by
  have := x0.isLt
  have := x1.isLt
  have := x2.isLt
  have := x3.isLt
  subst hc
  refine ⟨?_, ?_, ?_, ?_, ?_, ?_⟩ <;> first | (apply fnum_ofNat; omega) | (apply fld_ofNat; omega)

theorem layout22 (c maj : Nat) (x0 : BitVec 1) (x1 : BitVec 25)
    (hc : c = maj * 33554432) (hj : maj < 64) :
    fnum (BitVec.ofNat 32 (c + x0.toNat * 2147483648 + x1.toNat)) 25 6 = maj ∧
    fld (BitVec.ofNat 32 (c + x0.toNat * 2147483648 + x1.toNat)) 31 1 = x0 ∧
    fld (BitVec.ofNat 32 (c + x0.toNat * 2147483648 + x1.toNat)) 0 25 = x1 := by
  have := x0.isLt
  have := x1.isLt
  subst hc
  refine ⟨?_, ?_, ?_⟩ <;> first | (apply fnum_ofNat; omega) | (apply fld_ofNat; omega)

theorem layout23 (c maj : Nat) (x0 : BitVec 1) (x1 : BitVec 3) (x2 : BitVec 5) (x3 : BitVec 5) (x4 : BitVec 2) (x5 : BitVec 1) (x6 : BitVec 9)
    (hc : c = maj * 33554432) (hj : maj < 64) :
    fnum (BitVec.ofNat 32 (c + x0.toNat * 2147483648 + x1.toNat * 4194304 + x2.toNat * 131072 + x3.toNat * 4096 + x4.toNat * 1024 + x5.toNat * 512 + x6.toNat)) 25 6 = maj ∧
    fld (BitVec.ofNat 32 (c + x0.toNat * 2147483648 + x1.toNat * 4194304 + x2.toNat * 131072 + x3.toNat * 4096 + x4.toNat * 1024 + x5.toNat * 512 + x6.toNat)) 31 1 = x0 ∧
    fld (BitVec.ofNat 32 (c + x0.toNat * 2147483648 + x1.toNat * 4194304 + x2.toNat * 131072 + x3.toNat * 4096 + x4.toNat * 1024 + x5.toNat * 512 + x6.toNat)) 22 3 = x1 ∧
    fld (BitVec.ofNat 32 (c + x0.toNat * 2147483648 + x1.toNat * 4194304 + x2.toNat * 131072 + x3.toNat * 4096 + x4.toNat * 1024 + x5.toNat * 512 + x6.toNat)) 17 5 = x2 ∧
    fld (BitVec.ofNat 32 (c + x0.toNat * 2147483648 + x1.toNat * 4194304 + x2.toNat * 131072 + x3.toNat * 4096 + x4.toNat * 1024 + x5.toNat * 512 + x6.toNat)) 12 5 = x3 ∧
    fld (BitVec.ofNat 32 (c + x0.toNat * 2147483648 + x1.toNat * 4194304 + x2.toNat * 131072 + x3.toNat * 4096 + x4.toNat * 1024 + x5.toNat * 512 + x6.toNat)) 10 2 = x4 ∧
    fld (BitVec.ofNat 32 (c + x0.toNat * 2147483648 + x1.toNat * 4194304 + x2.toNat * 131072 + x3.toNat * 4096 + x4.toNat * 1024 + x5.toNat * 512 + x6.toNat)) 9 1 = x5 ∧
    fld (BitVec.ofNat 32 (c + x0.toNat * 2147483648 + x1.toNat * 4194304 + x2.toNat * 131072 + x3.toNat * 4096 + x4.toNat * 1024 + x5.toNat * 512 + x6.toNat)) 0 9 = x6 := by
  have := x0.isLt
  have := x1.isLt
  have := x2.isLt
  have := x3.isLt
  have := x4.isLt
  have := x5.isLt
  have := x6.isLt
  subst hc
  refine ⟨?_, ?_, ?_, ?_, ?_, ?_, ?_, ?_⟩ <;> first | (apply fnum_ofNat; omega) | (apply fld_ofNat; omega)

theorem layout24 (c maj : Nat) (x0 : BitVec 1) (x1 : BitVec 3) (x2 : BitVec 2) (x3 : BitVec 5) (x4 : BitVec 1) (x5 : BitVec 9)
    (hc : c = maj * 33554432) (hj : maj < 64) :
    fnum (BitVec.ofNat 32 (c + x0.toNat * 2147483648 + x1.toNat * 4194304 + x2.toNat * 131072 + x3.toNat * 4096 + x4.toNat * 512 + x5.toNat)) 25 6 = maj ∧
    fld (BitVec.ofNat 32 (c + x0.toNat * 2147483648 + x1.toNat * 4194304 + x2.toNat * 131072 + x3.toNat * 4096 + x4.toNat * 512 + x5.toNat)) 31 1 = x0 ∧
    fld (BitVec.ofNat 32 (c + x0.toNat * 2147483648 + x1.toNat * 4194304 + x2.toNat * 131072 + x3.toNat * 4096 + x4.toNat * 512 + x5.toNat)) 22 3 = x1 ∧
    fld (BitVec.ofNat 32 (c + x0.toNat * 2147483648 + x1.toNat * 4194304 + x2.toNat * 131072 + x3.toNat * 4096 + x4.toNat * 512 + x5.toNat)) 17 2 = x2 ∧
    fld (BitVec.ofNat 32 (c + x0.toNat * 2147483648 + x1.toNat * 4194304 + x2.toNat * 131072 + x3.toNat * 4096 + x4.toNat * 512 + x5.toNat)) 12 5 = x3 ∧
    fld (BitVec.ofNat 32 (c + x0.toNat * 2147483648 + x1.toNat * 4194304 + x2.toNat * 131072 + x3.toNat * 4096 + x4.toNat * 512 + x5.toNat)) 9 1 = x4 ∧
    fld (BitVec.ofNat 32 (c + x0.toNat * 2147483648 + x1.toNat * 4194304 + x2.toNat * 131072 + x3.toNat * 4096 + x4.toNat * 512 + x5.toNat)) 0 9 = x5 := by
  have := x0.isLt
  have := x1.isLt
  have := x2.isLt
  have := x3.isLt
  have := x4.isLt
  have := x5.isLt
  subst hc
  refine ⟨?_, ?_, ?_, ?_, ?_, ?_, ?_⟩ <;> first | (apply fnum_ofNat; omega) | (apply fld_ofNat; omega)

theorem layout25 (c maj : Nat) (x0 : BitVec 1) (x1 : BitVec 3) (x2 : BitVec 1) (x3 : BitVec 5) (x4 : BitVec 1) (x5 : BitVec 9)
    (hc : c = maj * 33554432) (hj : maj < 64) :
    fnum (BitVec.ofNat 32 (c + x0.toNat * 2147483648 + x1.toNat * 4194304 + x2.toNat * 131072 + x3.toNat * 4096 + x4.toNat * 512 + x5.toNat)) 25 6 = maj ∧
    fld (BitVec.ofNat 32 (c + x0.toNat * 2147483648 + x1.toNat * 4194304 + x2.toNat * 131072 + x3.toNat * 4096 + x4.toNat * 512 + x5.toNat)) 31 1 = x0 ∧
    fld (BitVec.ofNat 32 (c + x0.toNat * 2147483648 + x1.toNat * 4194304 + x2.toNat * 131072 + x3.toNat * 4096 + x4.toNat * 512 + x5.toNat)) 22 3 = x1 ∧
    fld (BitVec.ofNat 32 (c + x0.toNat * 2147483648 + x1.toNat * 4194304 + x2.toNat * 131072 + x3.toNat * 4096 + x4.toNat * 512 + x5.toNat)) 17 1 = x2 ∧
    fld (BitVec.ofNat 32 (c + x0.toNat * 2147483648 + x1.toNat * 4194304 + x2.toNat * 131072 + x3.toNat * 4096 + x4.toNat * 512 + x5.toNat)) 12 5 = x3 ∧
    fld (BitVec.ofNat 32 (c + x0.toNat * 2147483648 + x1.toNat * 4194304 + x2.toNat * 131072 + x3.toNat * 4096 + x4.toNat * 512 + x5.toNat)) 9 1 = x4 ∧
    fld (BitVec.ofNat 32 (c + x0.toNat * 2147483648 + x1.toNat * 4194304 + x2.toNat * 131072 + x3.toNat * 4096 + x4.toNat * 512 + x5.toNat)) 0 9 = x5 := by
  have := x0.isLt
  have := x1.isLt
  have := x2.isLt
  have := x3.isLt
  have := x4.isLt
  have := x5.isLt
  subst hc
  refine ⟨?_, ?_, ?_, ?_, ?_, ?_, ?_⟩ <;> first | (apply fnum_ofNat; omega) | (apply fld_ofNat; omega)

theorem layout26 (c maj k l : Nat) (x0 : BitVec 1) (x1 : BitVec 3) (x2 : BitVec 2) (x3 : BitVec 5)
    (hc : c = maj * 33554432 + k * 1 + l * 128) (hj : maj < 64) (hk : k < 128) (hl : l < 32) :
    fnum (BitVec.ofNat 32 (c + x0.toNat * 2147483648 + x1.toNat * 4194304 + x2.toNat * 131072 + x3.toNat * 4096)) 25 6 = maj ∧
    fnum (BitVec.ofNat 32 (c + x0.toNat * 2147483648 + x1.toNat * 4194304 + x2.toNat * 131072 + x3.toNat * 4096)) 0 7 = k ∧
    fnum (BitVec.ofNat 32 (c + x0.toNat * 2147483648 + x1.toNat * 4194304 + x2.toNat * 131072 + x3.toNat * 4096)) 7 5 = l ∧
    fld (BitVec.ofNat 32 (c + x0.toNat * 2147483648 + x1.toNat * 4194304 + x2.toNat * 131072 + x3.toNat * 4096)) 31 1 = x0 ∧
    fld (BitVec.ofNat 32 (c + x0.toNat * 2147483648 + x1.toNat * 4194304 + x2.toNat * 131072 + x3.toNat * 4096)) 22 3 = x1 ∧
    fld (BitVec.ofNat 32 (c + x0.toNat * 2147483648 + x1.toNat * 4194304 + x2.toNat * 131072 + x3.toNat * 4096)) 17 2 = x2 ∧
    fld (BitVec.ofNat 32 (c + x0.toNat * 2147483648 + x1.toNat * 4194304 + x2.toNat * 131072 + x3.toNat * 4096)) 12 5 = x3 := by
  have := x0.isLt
  have := x1.isLt
  have := x2.isLt
  have := x3.isLt
  subst hc
  refine ⟨?_, ?_, ?_, ?_, ?_, ?_, ?_⟩ <;> first | (apply fnum_ofNat; omega) | (apply fld_ofNat; omega)

theorem layout27 (c maj k l : Nat) (x0 : BitVec 1) (x1 : BitVec 3) (x2 : BitVec 2) (x3 : BitVec 1)
    (hc : c = maj * 33554432 + k * 1 + l * 128) (hj : maj < 64) (hk : k < 128) (hl : l < 32) :
    fnum (BitVec.ofNat 32 (c + x0.toNat * 2147483648 + x1.toNat * 4194304 + x2.toNat * 131072 + x3.toNat * 4096)) 25 6 = maj ∧
    fnum (BitVec.ofNat 32 (c + x0.toNat * 2147483648 + x1.toNat * 4194304 + x2.toNat * 131072 + x3.toNat * 4096)) 0 7 = k ∧
    fnum (BitVec.ofNat 32 (c + x0.toNat * 2147483648 + x1.toNat * 4194304 + x2.toNat * 131072 + x3.toNat * 4096)) 7 5 = l ∧
    fld (BitVec.ofNat 32 (c + x0.toNat * 2147483648 + x1.toNat * 4194304 + x2.toNat * 131072 + x3.toNat * 4096)) 31 1 = x0 ∧
    fld (BitVec.ofNat 32 (c + x0.toNat * 2147483648 + x1.toNat * 4194304 + x2.toNat * 131072 + x3.toNat * 4096)) 22 3 = x1 ∧
    fld (BitVec.ofNat 32 (c + x0.toNat * 2147483648 + x1.toNat * 4194304 + x2.toNat * 131072 + x3.toNat * 4096)) 17 2 = x2 ∧
    fld (BitVec.ofNat 32 (c + x0.toNat * 2147483648 + x1.toNat * 4194304 + x2.toNat * 131072 + x3.toNat * 4096)) 12 1 = x3 := by
  have := x0.isLt
  have := x1.isLt
  have := x2.isLt
  have := x3.isLt
  subst hc
  refine ⟨?_, ?_, ?_, ?_, ?_, ?_, ?_⟩ <;> first | (apply fnum_ofNat; omega) | (apply fld_ofNat; omega)

theorem layout28 (c maj k : Nat) (x0 : BitVec 1) (x1 : BitVec 3) (x2 : BitVec 3)
    (hc : c = maj * 33554432 + k * 1) (hj : maj < 64) (hk : k < 128) :
    fnum (BitVec.ofNat 32 (c + x0.toNat * 2147483648 + x1.toNat * 4194304 + x2.toNat * 131072)) 25 6 = maj ∧
    fnum (BitVec.ofNat 32 (c + x0.toNat * 2147483648 + x1.toNat * 4194304 + x2.toNat * 131072)) 0 7 = k ∧
    fld (BitVec.ofNat 32 (c + x0.toNat * 2147483648 + x1.toNat * 4194304 + x2.toNat * 131072)) 31 1 = x0 ∧
    fld (BitVec.ofNat 32 (c + x0.toNat * 2147483648 + x1.toNat * 4194304 + x2.toNat * 131072)) 22 3 = x1 ∧
    fld (BitVec.ofNat 32 (c + x0.toNat * 2147483648 + x1.toNat * 4194304 + x2.toNat * 131072)) 17 3 = x2 := by
  have := x0.isLt
  have := x1.isLt
  have := x2.isLt
  subst hc
  refine ⟨?_, ?_, ?_, ?_, ?_⟩ <;> first | (apply fnum_ofNat; omega) | (apply fld_ofNat; omega)

theorem layout29 (c maj k : Nat) (x0 : BitVec 1) (x1 : BitVec 3) (x2 : BitVec 5) (x3 : BitVec 3)
    (hc : c = maj * 33554432 + k * 1) (hj : maj < 64) (hk : k < 128) :
    fnum (BitVec.ofNat 32 (c + x0.toNat * 2147483648 + x1.toNat * 4194304 + x2.toNat * 131072 + x3.toNat * 4096)) 25 6 = maj ∧
    fnum (BitVec.ofNat 32 (c + x0.toNat * 2147483648 + x1.toNat * 4194304 + x2.toNat * 131072 + x3.toNat * 4096)) 0 7 = k ∧
    fld (BitVec.ofNat 32 (c + x0.toNat * 2147483648 + x1.toNat * 4194304 + x2.toNat * 131072 + x3.toNat * 4096)) 31 1 = x0 ∧
    fld (BitVec.ofNat 32 (c + x0.toNat * 2147483648 + x1.toNat * 4194304 + x2.toNat * 131072 + x3.toNat * 4096)) 22 3 = x1 ∧
    fld (BitVec.ofNat 32 (c + x0.toNat * 2147483648 + x1.toNat * 4194304 + x2.toNat * 131072 + x3.toNat * 4096)) 17 5 = x2 ∧
    fld (BitVec.ofNat 32 (c + x0.toNat * 2147483648 + x1.toNat * 4194304 + x2.toNat * 131072 + x3.toNat * 4096)) 12 3 = x3 := by
  have := x0.isLt
  have := x1.isLt
  have := x2.isLt
  have := x3.isLt
  subst hc
  refine ⟨?_, ?_, ?_, ?_, ?_, ?_⟩ <;> first | (apply fnum_ofNat; omega) | (apply fld_ofNat; omega)

theorem layout30 (c maj k : Nat) (x0 : BitVec 1) (x1 : BitVec 1) (x2 : BitVec 3) (x3 : BitVec 5) (x4 : BitVec 5) (x5 : BitVec 5) (x6 : BitVec 1)
    (hc : c = maj * 33554432 + k * 1) (hj : maj < 64) (hk : k < 32) :
    fnum (BitVec.ofNat 32 (c + x0.toNat * 2147483648 + x1.toNat * 16777216 + x2.toNat * 2097152 + x3.toNat * 65536 + x4.toNat * 2048 + x5.toNat * 64 + x6.toNat * 32)) 25 6 = maj ∧
    fnum (BitVec.ofNat 32 (c + x0.toNat * 2147483648 + x1.toNat * 16777216 + x2.toNat * 2097152 + x3.toNat * 65536 + x4.toNat * 2048 + x5.toNat * 64 + x6.toNat * 32)) 0 5 = k ∧
    fld (BitVec.ofNat 32 (c + x0.toNat * 2147483648 + x1.toNat * 16777216 + x2.toNat * 2097152 + x3.toNat * 65536 + x4.toNat * 2048 + x5.toNat * 64 + x6.toNat * 32)) 31 1 = x0 ∧
    fld (BitVec.ofNat 32 (c + x0.toNat * 2147483648 + x1.toNat * 16777216 + x2.toNat * 2097152 + x3.toNat * 65536 + x4.toNat * 2048 + x5.toNat * 64 + x6.toNat * 32)) 24 1 = x1 ∧
    fld (BitVec.ofNat 32 (c + x0.toNat * 2147483648 + x1.toNat * 16777216 + x2.toNat * 2097152 + x3.toNat * 65536 + x4.toNat * 2048 + x5.toNat * 64 + x6.toNat * 32)) 21 3 = x2 ∧
    fld (BitVec.ofNat 32 (c + x0.toNat * 2147483648 + x1.toNat * 16777216 + x2.toNat * 2097152 + x3.toNat * 65536 + x4.toNat * 2048 + x5.toNat * 64 + x6.toNat * 32)) 16 5 = x3 ∧
    fld (BitVec.ofNat 32 (c + x0.toNat * 2147483648 + x1.toNat * 16777216 + x2.toNat * 2097152 + x3.toNat * 65536 + x4.toNat * 2048 + x5.toNat * 64 + x6.toNat * 32)) 11 5 = x4 ∧
    fld (BitVec.ofNat 32 (c + x0.toNat * 2147483648 + x1.toNat * 16777216 + x2.toNat * 2097152 + x3.toNat * 65536 + x4.toNat * 2048 + x5.toNat * 64 + x6.toNat * 32)) 6 5 = x5 ∧
    fld (BitVec.ofNat 32 (c + x0.toNat * 2147483648 + x1.toNat * 16777216 + x2.toNat * 2097152 + x3.toNat * 65536 + x4.toNat * 2048 + x5.toNat * 64 + x6.toNat * 32)) 5 1 = x6 := by
  have := x0.isLt
  have := x1.isLt
  have := x2.isLt
  have := x3.isLt
  have := x4.isLt
  have := x5.isLt
  have := x6.isLt
  subst hc
  refine ⟨?_, ?_, ?_, ?_, ?_, ?_, ?_, ?_, ?_⟩ <;> first | (apply fnum_ofNat; omega) | (apply fld_ofNat; omega)

theorem layout31 (c maj k : Nat) (x0 : BitVec 1) (x1 : BitVec 1) (x2 : BitVec 3) (x3 : BitVec 3) (x4 : BitVec 5) (x5 : BitVec 5) (x6 : BitVec 1)
    (hc : c = maj * 33554432 + k * 1) (hj : maj < 64) (hk : k < 32) :
    fnum (BitVec.ofNat 32 (c + x0.toNat * 2147483648 + x1.toNat * 16777216 + x2.toNat * 2097152 + x3.toNat * 65536 + x4.toNat * 2048 + x5.toNat * 64 + x6.toNat * 32)) 25 6 = maj ∧
    fnum (BitVec.ofNat 32 (c + x0.toNat * 2147483648 + x1.toNat * 16777216 + x2.toNat * 2097152 + x3.toNat * 65536 + x4.toNat * 2048 + x5.toNat * 64 + x6.toNat * 32)) 0 5 = k ∧
    fld (BitVec.ofNat 32 (c + x0.toNat * 2147483648 + x1.toNat * 16777216 + x2.toNat * 2097152 + x3.toNat * 65536 + x4.toNat * 2048 + x5.toNat * 64 + x6.toNat * 32)) 31 1 = x0 ∧
    fld (BitVec.ofNat 32 (c + x0.toNat * 2147483648 + x1.toNat * 16777216 + x2.toNat * 2097152 + x3.toNat * 65536 + x4.toNat * 2048 + x5.toNat * 64 + x6.toNat * 32)) 24 1 = x1 ∧
    fld (BitVec.ofNat 32 (c + x0.toNat * 2147483648 + x1.toNat * 16777216 + x2.toNat * 2097152 + x3.toNat * 65536 + x4.toNat * 2048 + x5.toNat * 64 + x6.toNat * 32)) 21 3 = x2 ∧
    fld (BitVec.ofNat 32 (c + x0.toNat * 2147483648 + x1.toNat * 16777216 + x2.toNat * 2097152 + x3.toNat * 65536 + x4.toNat * 2048 + x5.toNat * 64 + x6.toNat * 32)) 16 3 = x3 ∧
    fld (BitVec.ofNat 32 (c + x0.toNat * 2147483648 + x1.toNat * 16777216 + x2.toNat * 2097152 + x3.toNat * 65536 + x4.toNat * 2048 + x5.toNat * 64 + x6.toNat * 32)) 11 5 = x4 ∧
    fld (BitVec.ofNat 32 (c + x0.toNat * 2147483648 + x1.toNat * 16777216 + x2.toNat * 2097152 + x3.toNat * 65536 + x4.toNat * 2048 + x5.toNat * 64 + x6.toNat * 32)) 6 5 = x5 ∧
    fld (BitVec.ofNat 32 (c + x0.toNat * 2147483648 + x1.toNat * 16777216 + x2.toNat * 2097152 + x3.toNat * 65536 + x4.toNat * 2048 + x5.toNat * 64 + x6.toNat * 32)) 5 1 = x6 := by
  have := x0.isLt
  have := x1.isLt
  have := x2.isLt
  have := x3.isLt
  have := x4.isLt
  have := x5.isLt
  have := x6.isLt
  subst hc
  refine ⟨?_, ?_, ?_, ?_, ?_, ?_, ?_, ?_, ?_⟩ <;> first | (apply fnum_ofNat; omega) | (apply fld_ofNat; omega)

theorem layout32 (c maj k : Nat) (x0 : BitVec 1) (x1 : BitVec 1) (x2 : BitVec 3) (x3 : BitVec 5) (x4 : BitVec 5) (x5 : BitVec 1)
    (hc : c = maj * 33554432 + k * 1) (hj : maj < 64) (hk : k < 32) :
    fnum (BitVec.ofNat 32 (c + x0.toNat * 2147483648 + x1.toNat * 16777216 + x2.toNat * 2097152 + x3.toNat * 65536 + x4.toNat * 2048 + x5.toNat * 32)) 25 6 = maj ∧
    fnum (BitVec.ofNat 32 (c + x0.toNat * 2147483648 + x1.toNat * 16777216 + x2.toNat * 2097152 + x3.toNat * 65536 + x4.toNat * 2048 + x5.toNat * 32)) 0 5 = k ∧
    fld (BitVec.ofNat 32 (c + x0.toNat * 2147483648 + x1.toNat * 16777216 + x2.toNat * 2097152 + x3.toNat * 65536 + x4.toNat * 2048 + x5.toNat * 32)) 31 1 = x0 ∧
    fld (BitVec.ofNat 32 (c + x0.toNat * 2147483648 + x1.toNat * 16777216 + x2.toNat * 2097152 + x3.toNat * 65536 + x4.toNat * 2048 + x5.toNat * 32)) 24 1 = x1 ∧
    fld (BitVec.ofNat 32 (c + x0.toNat * 2147483648 + x1.toNat * 16777216 + x2.toNat * 2097152 + x3.toNat * 65536 + x4.toNat * 2048 + x5.toNat * 32)) 21 3 = x2 ∧
    fld (BitVec.ofNat 32 (c + x0.toNat * 2147483648 + x1.toNat * 16777216 + x2.toNat * 2097152 + x3.toNat * 65536 + x4.toNat * 2048 + x5.toNat * 32)) 16 5 = x3 ∧
    fld (BitVec.ofNat 32 (c + x0.toNat * 2147483648 + x1.toNat * 16777216 + x2.toNat * 2097152 + x3.toNat * 65536 + x4.toNat * 2048 + x5.toNat * 32)) 11 5 = x4 ∧
    fld (BitVec.ofNat 32 (c + x0.toNat * 2147483648 + x1.toNat * 16777216 + x2.toNat * 2097152 + x3.toNat * 65536 + x4.toNat * 2048 + x5.toNat * 32)) 5 1 = x5 := by
  have := x0.isLt
  have := x1.isLt
  have := x2.isLt
  have := x3.isLt
  have := x4.isLt
  have := x5.isLt
  subst hc
  refine ⟨?_, ?_, ?_, ?_, ?_, ?_, ?_, ?_⟩ <;> first | (apply fnum_ofNat; omega) | (apply fld_ofNat; omega)

theorem layout33 (c maj : Nat) (x0 : BitVec 1) (x1 : BitVec 1) (x2 : BitVec 3) (x3 : BitVec 5) (x4 : BitVec 5) (x5 : BitVec 5) (x6 : BitVec 5) (x7 : BitVec 1)
    (hc : c = maj * 33554432) (hj : maj < 64) :
    fnum (BitVec.ofNat 32 (c + x0.toNat * 2147483648 + x1.toNat * 16777216 + x2.toNat * 2097152 + x3.toNat * 65536 + x4.toNat * 2048 + x5.toNat * 64 + x6.toNat * 2 + x7.toNat)) 25 6 = maj ∧
    fld (BitVec.ofNat 32 (c + x0.toNat * 2147483648 + x1.toNat * 16777216 + x2.toNat * 2097152 + x3.toNat * 65536 + x4.toNat * 2048 + x5.toNat * 64 + x6.toNat * 2 + x7.toNat)) 31 1 = x0 ∧
    fld (BitVec.ofNat 32 (c + x0.toNat * 2147483648 + x1.toNat * 16777216 + x2.toNat * 2097152 + x3.toNat * 65536 + x4.toNat * 2048 + x5.toNat * 64 + x6.toNat * 2 + x7.toNat)) 24 1 = x1 ∧
    fld (BitVec.ofNat 32 (c + x0.toNat * 2147483648 + x1.toNat * 16777216 + x2.toNat * 2097152 + x3.toNat * 65536 + x4.toNat * 2048 + x5.toNat * 64 + x6.toNat * 2 + x7.toNat)) 21 3 = x2 ∧
    fld (BitVec.ofNat 32 (c + x0.toNat * 2147483648 + x1.toNat * 16777216 + x2.toNat * 2097152 + x3.toNat * 65536 + x4.toNat * 2048 + x5.toNat * 64 + x6.toNat * 2 + x7.toNat)) 16 5 = x3 ∧
    fld (BitVec.ofNat 32 (c + x0.toNat * 2147483648 + x1.toNat * 16777216 + x2.toNat * 2097152 + x3.toNat * 65536 + x4.toNat * 2048 + x5.toNat * 64 + x6.toNat * 2 + x7.toNat)) 11 5 = x4 ∧
    fld (BitVec.ofNat 32 (c + x0.toNat * 2147483648 + x1.toNat * 16777216 + x2.toNat * 2097152 + x3.toNat * 65536 + x4.toNat * 2048 + x5.toNat * 64 + x6.toNat * 2 + x7.toNat)) 6 5 = x5 ∧
    fld (BitVec.ofNat 32 (c + x0.toNat * 2147483648 + x1.toNat * 16777216 + x2.toNat * 2097152 + x3.toNat * 65536 + x4.toNat * 2048 + x5.toNat * 64 + x6.toNat * 2 + x7.toNat)) 1 5 = x6 ∧
    fld (BitVec.ofNat 32 (c + x0.toNat * 2147483648 + x1.toNat * 16777216 + x2.toNat * 2097152 + x3.toNat * 65536 + x4.toNat * 2048 + x5.toNat * 64 + x6.toNat * 2 + x7.toNat)) 0 1 = x7 := by
  have := x0.isLt
  have := x1.isLt
  have := x2.isLt
  have := x3.isLt
  have := x4.isLt
  have := x5.isLt
  have := x6.isLt
  have := x7.isLt
  subst hc
  refine ⟨?_, ?_, ?_, ?_, ?_, ?_, ?_, ?_, ?_⟩ <;> first | (apply fnum_ofNat; omega) | (apply fld_ofNat; omega)

theorem layout34 (c maj k : Nat) (x0 : BitVec 1) (x1 : BitVec 1) (x2 : BitVec 3) (x3 : BitVec 5) (x4 : BitVec 5) (x5 : BitVec 3) (x6 : BitVec 1)
    (hc : c = maj * 33554432 + k * 1) (hj : maj < 64) (hk : k < 32) :
    fnum (BitVec.ofNat 32 (c + x0.toNat * 2147483648 + x1.toNat * 16777216 + x2.toNat * 2097152 + x3.toNat * 65536 + x4.toNat * 2048 + x5.toNat * 64 + x6.toNat * 32)) 25 6 = maj ∧
    fnum (BitVec.ofNat 32 (c + x0.toNat * 2147483648 + x1.toNat * 16777216 + x2.toNat * 2097152 + x3.toNat * 65536 + x4.toNat * 2048 + x5.toNat * 64 + x6.toNat * 32)) 0 5 = k ∧
    fld (BitVec.ofNat 32 (c + x0.toNat * 2147483648 + x1.toNat * 16777216 + x2.toNat * 2097152 + x3.toNat * 65536 + x4.toNat * 2048 + x5.toNat * 64 + x6.toNat * 32)) 31 1 = x0 ∧
    fld (BitVec.ofNat 32 (c + x0.toNat * 2147483648 + x1.toNat * 16777216 + x2.toNat * 2097152 + x3.toNat * 65536 + x4.toNat * 2048 + x5.toNat * 64 + x6.toNat * 32)) 24 1 = x1 ∧
    fld (BitVec.ofNat 32 (c + x0.toNat * 2147483648 + x1.toNat * 16777216 + x2.toNat * 2097152 + x3.toNat * 65536 + x4.toNat * 2048 + x5.toNat * 64 + x6.toNat * 32)) 21 3 = x2 ∧
    fld (BitVec.ofNat 32 (c + x0.toNat * 2147483648 + x1.toNat * 16777216 + x2.toNat * 2097152 + x3.toNat * 65536 + x4.toNat * 2048 + x5.toNat * 64 + x6.toNat * 32)) 16 5 = x3 ∧
    fld (BitVec.ofNat 32 (c + x0.toNat * 2147483648 + x1.toNat * 16777216 + x2.toNat * 2097152 + x3.toNat * 65536 + x4.toNat * 2048 + x5.toNat * 64 + x6.toNat * 32)) 11 5 = x4 ∧
    fld (BitVec.ofNat 32 (c + x0.toNat * 2147483648 + x1.toNat * 16777216 + x2.toNat * 2097152 + x3.toNat * 65536 + x4.toNat * 2048 + x5.toNat * 64 + x6.toNat * 32)) 6 3 = x5 ∧
    fld (BitVec.ofNat 32 (c + x0.toNat * 2147483648 + x1.toNat * 16777216 + x2.toNat * 2097152 + x3.toNat * 65536 + x4.toNat * 2048 + x5.toNat * 64 + x6.toNat * 32)) 5 1 = x6 := by
  have := x0.isLt
  have := x1.isLt
  have := x2.isLt
  have := x3.isLt
  have := x4.isLt
  have := x5.isLt
  have := x6.isLt
  subst hc
  refine ⟨?_, ?_, ?_, ?_, ?_, ?_, ?_, ?_, ?_⟩ <;> first | (apply fnum_ofNat; omega) | (apply fld_ofNat; omega)

theorem layout35 (c maj k : Nat) (x0 : BitVec 1) (x1 : BitVec 1) (x2 : BitVec 3) (x3 : BitVec 5) (x4 : BitVec 5) (x5 : BitVec 1) (x6 : BitVec 1)
    (hc : c = maj * 33554432 + k * 1) (hj : maj < 64) (hk : k < 32) :
    fnum (BitVec.ofNat 32 (c + x0.toNat * 2147483648 + x1.toNat * 16777216 + x2.toNat * 2097152 + x3.toNat * 65536 + x4.toNat * 2048 + x5.toNat * 512 + x6.toNat * 32)) 25 6 = maj ∧
    fnum (BitVec.ofNat 32 (c + x0.toNat * 2147483648 + x1.toNat * 16777216 + x2.toNat * 2097152 + x3.toNat * 65536 + x4.toNat * 2048 + x5.toNat * 512 + x6.toNat * 32)) 0 5 = k ∧
    fld (BitVec.ofNat 32 (c + x0.toNat * 2147483648 + x1.toNat * 16777216 + x2.toNat * 2097152 + x3.toNat * 65536 + x4.toNat * 2048 + x5.toNat * 512 + x6.toNat * 32)) 31 1 = x0 ∧
    fld (BitVec.ofNat 32 (c + x0.toNat * 2147483648 + x1.toNat * 16777216 + x2.toNat * 2097152 + x3.toNat * 65536 + x4.toNat * 2048 + x5.toNat * 512 + x6.toNat * 32)) 24 1 = x1 ∧
    fld (BitVec.ofNat 32 (c + x0.toNat * 2147483648 + x1.toNat * 16777216 + x2.toNat * 2097152 + x3.toNat * 65536 + x4.toNat * 2048 + x5.toNat * 512 + x6.toNat * 32)) 21 3 = x2 ∧
    fld (BitVec.ofNat 32 (c + x0.toNat * 2147483648 + x1.toNat * 16777216 + x2.toNat * 2097152 + x3.toNat * 65536 + x4.toNat * 2048 + x5.toNat * 512 + x6.toNat * 32)) 16 5 = x3 ∧
    fld (BitVec.ofNat 32 (c + x0.toNat * 2147483648 + x1.toNat * 16777216 + x2.toNat * 2097152 + x3.toNat * 65536 + x4.toNat * 2048 + x5.toNat * 512 + x6.toNat * 32)) 11 5 = x4 ∧
    fld (BitVec.ofNat 32 (c + x0.toNat * 2147483648 + x1.toNat * 16777216 + x2.toNat * 2097152 + x3.toNat * 65536 + x4.toNat * 2048 + x5.toNat * 512 + x6.toNat * 32)) 9 1 = x5 ∧
    fld (BitVec.ofNat 32 (c + x0.toNat * 2147483648 + x1.toNat * 16777216 + x2.toNat * 2097152 + x3.toNat * 65536 + x4.toNat * 2048 + x5.toNat * 512 + x6.toNat * 32)) 5 1 = x6 := by
  have := x0.isLt
  have := x1.isLt
  have := x2.isLt
  have := x3.isLt
  have := x4.isLt
  have := x5.isLt
  have := x6.isLt
  subst hc
  refine ⟨?_, ?_, ?_, ?_, ?_, ?_, ?_, ?_, ?_⟩ <;> first | (apply fnum_ofNat; omega) | (apply fld_ofNat; omega)

theorem layout36 (c maj k : Nat) (x0 : BitVec 1) (x1 : BitVec 1) (x2 : BitVec 3) (x3 : BitVec 5) (x4 : BitVec 5) (x5 : BitVec 1) (x6 : BitVec 3) (x7 : BitVec 1)
    (hc : c = maj * 33554432 + k * 1) (hj : maj < 64) (hk : k < 32) :
    fnum (BitVec.ofNat 32 (c + x0.toNat * 2147483648 + x1.toNat * 16777216 + x2.toNat * 2097152 + x3.toNat * 65536 + x4.toNat * 2048 + x5.toNat * 512 + x6.toNat * 64 + x7.toNat * 32)) 25 6 = maj ∧
    fnum (BitVec.ofNat 32 (c + x0.toNat * 2147483648 + x1.toNat * 16777216 + x2.toNat * 2097152 + x3.toNat * 65536 + x4.toNat * 2048 + x5.toNat * 512 + x6.toNat * 64 + x7.toNat * 32)) 0 5 = k ∧
    fld (BitVec.ofNat 32 (c + x0.toNat * 2147483648 + x1.toNat * 16777216 + x2.toNat * 2097152 + x3.toNat * 65536 + x4.toNat * 2048 + x5.toNat * 512 + x6.toNat * 64 + x7.toNat * 32)) 31 1 = x0 ∧
    fld (BitVec.ofNat 32 (c + x0.toNat * 2147483648 + x1.toNat * 16777216 + x2.toNat * 2097152 + x3.toNat * 65536 + x4.toNat * 2048 + x5.toNat * 512 + x6.toNat * 64 + x7.toNat * 32)) 24 1 = x1 ∧
    fld (BitVec.ofNat 32 (c + x0.toNat * 2147483648 + x1.toNat * 16777216 + x2.toNat * 2097152 + x3.toNat * 65536 + x4.toNat * 2048 + x5.toNat * 512 + x6.toNat * 64 + x7.toNat * 32)) 21 3 = x2 ∧
    fld (BitVec.ofNat 32 (c + x0.toNat * 2147483648 + x1.toNat * 16777216 + x2.toNat * 2097152 + x3.toNat * 65536 + x4.toNat * 2048 + x5.toNat * 512 + x6.toNat * 64 + x7.toNat * 32)) 16 5 = x3 ∧
    fld (BitVec.ofNat 32 (c + x0.toNat * 2147483648 + x1.toNat * 16777216 + x2.toNat * 2097152 + x3.toNat * 65536 + x4.toNat * 2048 + x5.toNat * 512 + x6.toNat * 64 + x7.toNat * 32)) 11 5 = x4 ∧
    fld (BitVec.ofNat 32 (c + x0.toNat * 2147483648 + x1.toNat * 16777216 + x2.toNat * 2097152 + x3.toNat * 65536 + x4.toNat * 2048 + x5.toNat * 512 + x6.toNat * 64 + x7.toNat * 32)) 9 1 = x5 ∧
    fld (BitVec.ofNat 32 (c + x0.toNat * 2147483648 + x1.toNat * 16777216 + x2.toNat * 2097152 + x3.toNat * 65536 + x4.toNat * 2048 + x5.toNat * 512 + x6.toNat * 64 + x7.toNat * 32)) 6 3 = x6 ∧
    fld (BitVec.ofNat 32 (c + x0.toNat * 2147483648 + x1.toNat * 16777216 + x2.toNat * 2097152 + x3.toNat * 65536 + x4.toNat * 2048 + x5.toNat * 512 + x6.toNat * 64 + x7.toNat * 32)) 5 1 = x7 := by
  have := x0.isLt
  have := x1.isLt
  have := x2.isLt
  have := x3.isLt
  have := x4.isLt
  have := x5.isLt
  have := x6.isLt
  have := x7.isLt
  subst hc
  refine ⟨?_, ?_, ?_, ?_, ?_, ?_, ?_, ?_, ?_, ?_⟩ <;> first | (apply fnum_ofNat; omega) | (apply fld_ofNat; omega)

theorem layout37 (c maj k : Nat) (x0 : BitVec 1) (x1 : BitVec 1) (x2 : BitVec 3) (x3 : BitVec 5) (x4 : BitVec 5) (x5 : BitVec 2) (x6 : BitVec 1)
    (hc : c = maj * 33554432 + k * 1) (hj : maj < 64) (hk : k < 32) :
    fnum (BitVec.ofNat 32 (c + x0.toNat * 2147483648 + x1.toNat * 16777216 + x2.toNat * 2097152 + x3.toNat * 65536 + x4.toNat * 2048 + x5.toNat * 512 + x6.toNat * 32)) 25 6 = maj ∧
    fnum (BitVec.ofNat 32 (c + x0.toNat * 2147483648 + x1.toNat * 16777216 + x2.toNat * 2097152 + x3.toNat * 65536 + x4.toNat * 2048 + x5.toNat * 512 + x6.toNat * 32)) 0 5 = k ∧
    fld (BitVec.ofNat 32 (c + x0.toNat * 2147483648 + x1.toNat * 16777216 + x2.toNat * 2097152 + x3.toNat * 65536 + x4.toNat * 2048 + x5.toNat * 512 + x6.toNat * 32)) 31 1 = x0 ∧
    fld (BitVec.ofNat 32 (c + x0.toNat * 2147483648 + x1.toNat * 16777216 + x2.toNat * 2097152 + x3.toNat * 65536 + x4.toNat * 2048 + x5.toNat * 512 + x6.toNat * 32)) 24 1 = x1 ∧
    fld (BitVec.ofNat 32 (c + x0.toNat * 2147483648 + x1.toNat * 16777216 + x2.toNat * 2097152 + x3.toNat * 65536 + x4.toNat * 2048 + x5.toNat * 512 + x6.toNat * 32)) 21 3 = x2 ∧
    fld (BitVec.ofNat 32 (c + x0.toNat * 2147483648 + x1.toNat * 16777216 + x2.toNat * 2097152 + x3.toNat * 65536 + x4.toNat * 2048 + x5.toNat * 512 + x6.toNat * 32)) 16 5 = x3 ∧
    fld (BitVec.ofNat 32 (c + x0.toNat * 2147483648 + x1.toNat * 16777216 + x2.toNat * 2097152 + x3.toNat * 65536 + x4.toNat * 2048 + x5.toNat * 512 + x6.toNat * 32)) 11 5 = x4 ∧
    fld (BitVec.ofNat 32 (c + x0.toNat * 2147483648 + x1.toNat * 16777216 + x2.toNat * 2097152 + x3.toNat * 65536 + x4.toNat * 2048 + x5.toNat * 512 + x6.toNat * 32)) 9 2 = x5 ∧
    fld (BitVec.ofNat 32 (c + x0.toNat * 2147483648 + x1.toNat * 16777216 + x2.toNat * 2097152 + x3.toNat * 65536 + x4.toNat * 2048 + x5.toNat * 512 + x6.toNat * 32)) 5 1 = x6 := by
  have := x0.isLt
  have := x1.isLt
  have := x2.isLt
  have := x3.isLt
  have := x4.isLt
  have := x5.isLt
  have := x6.isLt
  subst hc
  refine ⟨?_, ?_, ?_, ?_, ?_, ?_, ?_, ?_, ?_⟩ <;> first | (apply fnum_ofNat; omega) | (apply fld_ofNat; omega)

theorem layout38 (c maj k : Nat) (x0 : BitVec 1) (x1 : BitVec 1) (x2 : BitVec 3) (x3 : BitVec 5) (x4 : BitVec 5) (x5 : BitVec 2) (x6 : BitVec 3) (x7 : BitVec 1)
    (hc : c = maj * 33554432 + k * 1) (hj : maj < 64) (hk : k < 32) :
    fnum (BitVec.ofNat 32 (c + x0.toNat * 2147483648 + x1.toNat * 16777216 + x2.toNat * 2097152 + x3.toNat * 65536 + x4.toNat * 2048 + x5.toNat * 512 + x6.toNat * 64 + x7.toNat * 32)) 25 6 = maj ∧
    fnum (BitVec.ofNat 32 (c + x0.toNat * 2147483648 + x1.toNat * 16777216 + x2.toNat * 2097152 + x3.toNat * 65536 + x4.toNat * 2048 + x5.toNat * 512 + x6.toNat * 64 + x7.toNat * 32)) 0 5 = k ∧
    fld (BitVec.ofNat 32 (c + x0.toNat * 2147483648 + x1.toNat * 16777216 + x2.toNat * 2097152 + x3.toNat * 65536 + x4.toNat * 2048 + x5.toNat * 512 + x6.toNat * 64 + x7.toNat * 32)) 31 1 = x0 ∧
    fld (BitVec.ofNat 32 (c + x0.toNat * 2147483648 + x1.toNat * 16777216 + x2.toNat * 2097152 + x3.toNat * 65536 + x4.toNat * 2048 + x5.toNat * 512 + x6.toNat * 64 + x7.toNat * 32)) 24 1 = x1 ∧
    fld (BitVec.ofNat 32 (c + x0.toNat * 2147483648 + x1.toNat * 16777216 + x2.toNat * 2097152 + x3.toNat * 65536 + x4.toNat * 2048 + x5.toNat * 512 + x6.toNat * 64 + x7.toNat * 32)) 21 3 = x2 ∧
    fld (BitVec.ofNat 32 (c + x0.toNat * 2147483648 + x1.toNat * 16777216 + x2.toNat * 2097152 + x3.toNat * 65536 + x4.toNat * 2048 + x5.toNat * 512 + x6.toNat * 64 + x7.toNat * 32)) 16 5 = x3 ∧
    fld (BitVec.ofNat 32 (c + x0.toNat * 2147483648 + x1.toNat * 16777216 + x2.toNat * 2097152 + x3.toNat * 65536 + x4.toNat * 2048 + x5.toNat * 512 + x6.toNat * 64 + x7.toNat * 32)) 11 5 = x4 ∧
    fld (BitVec.ofNat 32 (c + x0.toNat * 2147483648 + x1.toNat * 16777216 + x2.toNat * 2097152 + x3.toNat * 65536 + x4.toNat * 2048 + x5.toNat * 512 + x6.toNat * 64 + x7.toNat * 32)) 9 2 = x5 ∧
    fld (BitVec.ofNat 32 (c + x0.toNat * 2147483648 + x1.toNat * 16777216 + x2.toNat * 2097152 + x3.toNat * 65536 + x4.toNat * 2048 + x5.toNat * 512 + x6.toNat * 64 + x7.toNat * 32)) 6 3 = x6 ∧
    fld (BitVec.ofNat 32 (c + x0.toNat * 2147483648 + x1.toNat * 16777216 + x2.toNat * 2097152 + x3.toNat * 65536 + x4.toNat * 2048 + x5.toNat * 512 + x6.toNat * 64 + x7.toNat * 32)) 5 1 = x7 := by
  have := x0.isLt
  have := x1.isLt
  have := x2.isLt
  have := x3.isLt
  have := x4.isLt
  have := x5.isLt
  have := x6.isLt
  have := x7.isLt
  subst hc
  refine ⟨?_, ?_, ?_, ?_, ?_, ?_, ?_, ?_, ?_, ?_⟩ <;> first | (apply fnum_ofNat; omega) | (apply fld_ofNat; omega)

theorem layout39 (c maj k : Nat) (x0 : BitVec 1) (x1 : BitVec 1) (x2 : BitVec 3) (x3 : BitVec 5) (x4 : BitVec 5) (x5 : BitVec 2) (x6 : BitVec 1)
    (hc : c = maj * 33554432 + k * 1) (hj : maj < 64) (hk : k < 32) :
    fnum (BitVec.ofNat 32 (c + x0.toNat * 2147483648 + x1.toNat * 16777216 + x2.toNat * 2097152 + x3.toNat * 65536 + x4.toNat * 2048 + x5.toNat * 64 + x6.toNat * 32)) 25 6 = maj ∧
    fnum (BitVec.ofNat 32 (c + x0.toNat * 2147483648 + x1.toNat * 16777216 + x2.toNat * 2097152 + x3.toNat * 65536 + x4.toNat * 2048 + x5.toNat * 64 + x6.toNat * 32)) 0 5 = k ∧
    fld (BitVec.ofNat 32 (c + x0.toNat * 2147483648 + x1.toNat * 16777216 + x2.toNat * 2097152 + x3.toNat * 65536 + x4.toNat * 2048 + x5.toNat * 64 + x6.toNat * 32)) 31 1 = x0 ∧
    fld (BitVec.ofNat 32 (c + x0.toNat * 2147483648 + x1.toNat * 16777216 + x2.toNat * 2097152 + x3.toNat * 65536 + x4.toNat * 2048 + x5.toNat * 64 + x6.toNat * 32)) 24 1 = x1 ∧
    fld (BitVec.ofNat 32 (c + x0.toNat * 2147483648 + x1.toNat * 16777216 + x2.toNat * 2097152 + x3.toNat * 65536 + x4.toNat * 2048 + x5.toNat * 64 + x6.toNat * 32)) 21 3 = x2 ∧
    fld (BitVec.ofNat 32 (c + x0.toNat * 2147483648 + x1.toNat * 16777216 + x2.toNat * 2097152 + x3.toNat * 65536 + x4.toNat * 2048 + x5.toNat * 64 + x6.toNat * 32)) 16 5 = x3 ∧
    fld (BitVec.ofNat 32 (c + x0.toNat * 2147483648 + x1.toNat * 16777216 + x2.toNat * 2097152 + x3.toNat * 65536 + x4.toNat * 2048 + x5.toNat * 64 + x6.toNat * 32)) 11 5 = x4 ∧
    fld (BitVec.ofNat 32 (c + x0.toNat * 2147483648 + x1.toNat * 16777216 + x2.toNat * 2097152 + x3.toNat * 65536 + x4.toNat * 2048 + x5.toNat * 64 + x6.toNat * 32)) 6 2 = x5 ∧
    fld (BitVec.ofNat 32 (c + x0.toNat * 2147483648 + x1.toNat * 16777216 + x2.toNat * 2097152 + x3.toNat * 65536 + x4.toNat * 2048 + x5.toNat * 64 + x6.toNat * 32)) 5 1 = x6 := by
  have := x0.isLt
  have := x1.isLt
  have := x2.isLt
  have := x3.isLt
  have := x4.isLt
  have := x5.isLt
  have := x6.isLt
  subst hc
  refine ⟨?_, ?_, ?_, ?_, ?_, ?_, ?_, ?_, ?_⟩ <;> first | (apply fnum_ofNat; omega) | (apply fld_ofNat; omega)

theorem layout40 (c maj : Nat) (x0 : BitVec 1) (x1 : BitVec 6) (x2 : BitVec 3) (x3 : BitVec 16)
    (hc : c = maj * 33554432) (hj : maj < 64) :
    fnum (BitVec.ofNat 32 (c + x0.toNat * 2147483648 + x1.toNat * 524288 + x2.toNat * 65536 + x3.toNat)) 25 6 = maj ∧
    fld (BitVec.ofNat 32 (c + x0.toNat * 2147483648 + x1.toNat * 524288 + x2.toNat * 65536 + x3.toNat)) 31 1 = x0 ∧
    fld (BitVec.ofNat 32 (c + x0.toNat * 2147483648 + x1.toNat * 524288 + x2.toNat * 65536 + x3.toNat)) 19 6 = x1 ∧
    fld (BitVec.ofNat 32 (c + x0.toNat * 2147483648 + x1.toNat * 524288 + x2.toNat * 65536 + x3.toNat)) 16 3 = x2 ∧
    fld (BitVec.ofNat 32 (c + x0.toNat * 2147483648 + x1.toNat * 524288 + x2.toNat * 65536 + x3.toNat)) 0 16 = x3 := by
  have := x0.isLt
  have := x1.isLt
  have := x2.isLt
  have := x3.isLt
  subst hc
  refine ⟨?_, ?_, ?_, ?_, ?_⟩ <;> first | (apply fnum_ofNat; omega) | (apply fld_ofNat; omega)

theorem layout41 (c maj k l : Nat) (x0 : BitVec 1) (x1 : BitVec 3) (x2 : BitVec 5) (x3 : BitVec 5) (x4 : BitVec 1)
    (hc : c = maj * 33554432 + k * 1 + l * 256) (hj : maj < 64) (hk : k < 128) (hl : l < 16) :
    fnum (BitVec.ofNat 32 (c + x0.toNat * 2147483648 + x1.toNat * 4194304 + x2.toNat * 131072 + x3.toNat * 4096 + x4.toNat * 128)) 25 6 = maj ∧
    fnum (BitVec.ofNat 32 (c + x0.toNat * 2147483648 + x1.toNat * 4194304 + x2.toNat * 131072 + x3.toNat * 4096 + x4.toNat * 128)) 0 7 = k ∧
    fnum (BitVec.ofNat 32 (c + x0.toNat * 2147483648 + x1.toNat * 4194304 + x2.toNat * 131072 + x3.toNat * 4096 + x4.toNat * 128)) 8 4 = l ∧
    fld (BitVec.ofNat 32 (c + x0.toNat * 2147483648 + x1.toNat * 4194304 + x2.toNat * 131072 + x3.toNat * 4096 + x4.toNat * 128)) 31 1 = x0 ∧
    fld (BitVec.ofNat 32 (c + x0.toNat * 2147483648 + x1.toNat * 4194304 + x2.toNat * 131072 + x3.toNat * 4096 + x4.toNat * 128)) 22 3 = x1 ∧
    fld (BitVec.ofNat 32 (c + x0.toNat * 2147483648 + x1.toNat * 4194304 + x2.toNat * 131072 + x3.toNat * 4096 + x4.toNat * 128)) 17 5 = x2 ∧
    fld (BitVec.ofNat 32 (c + x0.toNat * 2147483648 + x1.toNat * 4194304 + x2.toNat * 131072 + x3.toNat * 4096 + x4.toNat * 128)) 12 5 = x3 ∧
    fld (BitVec.ofNat 32 (c + x0.toNat * 2147483648 + x1.toNat * 4194304 + x2.toNat * 131072 + x3.toNat * 4096 + x4.toNat * 128)) 7 1 = x4 := by
  have := x0.isLt
  have := x1.isLt
  have := x2.isLt
  have := x3.isLt
  have := x4.isLt
  subst hc
  refine ⟨?_, ?_, ?_, ?_, ?_, ?_, ?_, ?_⟩ <;> first | (apply fnum_ofNat; omega) | (apply fld_ofNat; omega)

theorem layout42 (c maj k : Nat) (x0 : BitVec 1) (x1 : BitVec 3) (x2 : BitVec 3) (x3 : BitVec 10)
    (hc : c = maj * 33554432 + k * 1) (hj : maj < 64) (hk : k < 128) :
    fnum (BitVec.ofNat 32 (c + x0.toNat * 2147483648 + x1.toNat * 4194304 + x2.toNat * 131072 + x3.toNat * 128)) 25 6 = maj ∧
    fnum (BitVec.ofNat 32 (c + x0.toNat * 2147483648 + x1.toNat * 4194304 + x2.toNat * 131072 + x3.toNat * 128)) 0 7 = k ∧
    fld (BitVec.ofNat 32 (c + x0.toNat * 2147483648 + x1.toNat * 4194304 + x2.toNat * 131072 + x3.toNat * 128)) 31 1 = x0 ∧
    fld (BitVec.ofNat 32 (c + x0.toNat * 2147483648 + x1.toNat * 4194304 + x2.toNat * 131072 + x3.toNat * 128)) 22 3 = x1 ∧
    fld (BitVec.ofNat 32 (c + x0.toNat * 2147483648 + x1.toNat * 4194304 + x2.toNat * 131072 + x3.toNat * 128)) 17 3 = x2 ∧
    fld (BitVec.ofNat 32 (c + x0.toNat * 2147483648 + x1.toNat * 4194304 + x2.toNat * 131072 + x3.toNat * 128)) 7 10 = x3 := by
  have := x0.isLt
  have := x1.isLt
  have := x2.isLt
  have := x3.isLt
  subst hc
  refine ⟨?_, ?_, ?_, ?_, ?_, ?_⟩ <;> first | (apply fnum_ofNat; omega) | (apply fld_ofNat; omega)

theorem layout43 (c maj k : Nat) (x0 : BitVec 1) (x1 : BitVec 3) (x2 : BitVec 4) (x3 : BitVec 5) (x4 : BitVec 5)
    (hc : c = maj * 33554432 + k * 1) (hj : maj < 64) (hk : k < 128) :
    fnum (BitVec.ofNat 32 (c + x0.toNat * 2147483648 + x1.toNat * 4194304 + x2.toNat * 131072 + x3.toNat * 4096 + x4.toNat * 128)) 25 6 = maj ∧
    fnum (BitVec.ofNat 32 (c + x0.toNat * 2147483648 + x1.toNat * 4194304 + x2.toNat * 131072 + x3.toNat * 4096 + x4.toNat * 128)) 0 7 = k ∧
    fld (BitVec.ofNat 32 (c + x0.toNat * 2147483648 + x1.toNat * 4194304 + x2.toNat * 131072 + x3.toNat * 4096 + x4.toNat * 128)) 31 1 = x0 ∧
    fld (BitVec.ofNat 32 (c + x0.toNat * 2147483648 + x1.toNat * 4194304 + x2.toNat * 131072 + x3.toNat * 4096 + x4.toNat * 128)) 22 3 = x1 ∧
    fld (BitVec.ofNat 32 (c + x0.toNat * 2147483648 + x1.toNat * 4194304 + x2.toNat * 131072 + x3.toNat * 4096 + x4.toNat * 128)) 17 4 = x2 ∧
    fld (BitVec.ofNat 32 (c + x0.toNat * 2147483648 + x1.toNat * 4194304 + x2.toNat * 131072 + x3.toNat * 4096 + x4.toNat * 128)) 12 5 = x3 ∧
    fld (BitVec.ofNat 32 (c + x0.toNat * 2147483648 + x1.toNat * 4194304 + x2.toNat * 131072 + x3.toNat * 4096 + x4.toNat * 128)) 7 5 = x4 := by
  have := x0.isLt
  have := x1.isLt
  have := x2.isLt
  have := x3.isLt
  have := x4.isLt
  subst hc
  refine ⟨?_, ?_, ?_, ?_, ?_, ?_, ?_⟩ <;> first | (apply fnum_ofNat; omega) | (apply fld_ofNat; omega)

theorem layout44 (c maj k : Nat) (x0 : BitVec 1) (x1 : BitVec 3) (x2 : BitVec 5) (x3 : BitVec 4)
    (hc : c = maj * 33554432 + k * 1) (hj : maj < 64) (hk : k < 128) :
    fnum (BitVec.ofNat 32 (c + x0.toNat * 2147483648 + x1.toNat * 4194304 + x2.toNat * 131072 + x3.toNat * 4096)) 25 6 = maj ∧
    fnum (BitVec.ofNat 32 (c + x0.toNat * 2147483648 + x1.toNat * 4194304 + x2.toNat * 131072 + x3.toNat * 4096)) 0 7 = k ∧
    fld (BitVec.ofNat 32 (c + x0.toNat * 2147483648 + x1.toNat * 4194304 + x2.toNat * 131072 + x3.toNat * 4096)) 31 1 = x0 ∧
    fld (BitVec.ofNat 32 (c + x0.toNat * 2147483648 + x1.toNat * 4194304 + x2.toNat * 131072 + x3.toNat * 4096)) 22 3 = x1 ∧
    fld (BitVec.ofNat 32 (c + x0.toNat * 2147483648 + x1.toNat * 4194304 + x2.toNat * 131072 + x3.toNat * 4096)) 17 5 = x2 ∧
    fld (BitVec.ofNat 32 (c + x0.toNat * 2147483648 + x1.toNat * 4194304 + x2.toNat * 131072 + x3.toNat * 4096)) 12 4 = x3 := by
  have := x0.isLt
  have := x1.isLt
  have := x2.isLt
  have := x3.isLt
  subst hc
  refine ⟨?_, ?_, ?_, ?_, ?_, ?_⟩ <;> first | (apply fnum_ofNat; omega) | (apply fld_ofNat; omega)

theorem layout45 (c maj k : Nat) (x0 : BitVec 1) (x1 : BitVec 3) (x2 : BitVec 4)
    (hc : c = maj * 33554432 + k * 1) (hj : maj < 64) (hk : k < 128) :
    fnum (BitVec.ofNat 32 (c + x0.toNat * 2147483648 + x1.toNat * 4194304 + x2.toNat * 131072)) 25 6 = maj ∧
    fnum (BitVec.ofNat 32 (c + x0.toNat * 2147483648 + x1.toNat * 4194304 + x2.toNat * 131072)) 0 7 = k ∧
    fld (BitVec.ofNat 32 (c + x0.toNat * 2147483648 + x1.toNat * 4194304 + x2.toNat * 131072)) 31 1 = x0 ∧
    fld (BitVec.ofNat 32 (c + x0.toNat * 2147483648 + x1.toNat * 4194304 + x2.toNat * 131072)) 22 3 = x1 ∧
    fld (BitVec.ofNat 32 (c + x0.toNat * 2147483648 + x1.toNat * 4194304 + x2.toNat * 131072)) 17 4 = x2 := by
  have := x0.isLt
  have := x1.isLt
  have := x2.isLt
  subst hc
  refine ⟨?_, ?_, ?_, ?_, ?_⟩ <;> first | (apply fnum_ofNat; omega) | (apply fld_ofNat; omega)

theorem layout46 (c maj k : Nat) (x0 : BitVec 1) (x1 : BitVec 3) (x2 : BitVec 3) (x3 : BitVec 5)
    (hc : c = maj * 33554432 + k * 1) (hj : maj < 64) (hk : k < 128) :
    fnum (BitVec.ofNat 32 (c + x0.toNat * 2147483648 + x1.toNat * 4194304 + x2.toNat * 131072 + x3.toNat * 4096)) 25 6 = maj ∧
    fnum (BitVec.ofNat 32 (c + x0.toNat * 2147483648 + x1.toNat * 4194304 + x2.toNat * 131072 + x3.toNat * 4096)) 0 7 = k ∧
    fld (BitVec.ofNat 32 (c + x0.toNat * 2147483648 + x1.toNat * 4194304 + x2.toNat * 131072 + x3.toNat * 4096)) 31 1 = x0 ∧
    fld (BitVec.ofNat 32 (c + x0.toNat * 2147483648 + x1.toNat * 4194304 + x2.toNat * 131072 + x3.toNat * 4096)) 22 3 = x1 ∧
    fld (BitVec.ofNat 32 (c + x0.toNat * 2147483648 + x1.toNat * 4194304 + x2.toNat * 131072 + x3.toNat * 4096)) 17 3 = x2 ∧
    fld (BitVec.ofNat 32 (c + x0.toNat * 2147483648 + x1.toNat * 4194304 + x2.toNat * 131072 + x3.toNat * 4096)) 12 5 = x3 := by
  have := x0.isLt
  have := x1.isLt
  have := x2.isLt
  have := x3.isLt
  subst hc
  refine ⟨?_, ?_, ?_, ?_, ?_, ?_⟩ <;> first | (apply fnum_ofNat; omega) | (apply fld_ofNat; omega)

theorem layout47 (c maj k : Nat) (x0 : BitVec 1) (x1 : BitVec 3) (x2 : BitVec 5) (x3 : BitVec 5)
    (hc : c = maj * 33554432 + k * 1) (hj : maj < 64) (hk : k < 128) :
    fnum (BitVec.ofNat 32 (c + x0.toNat * 2147483648 + x1.toNat * 4194304 + x2.toNat * 4096 + x3.toNat * 128)) 25 6 = maj ∧
    fnum (BitVec.ofNat 32 (c + x0.toNat * 2147483648 + x1.toNat * 4194304 + x2.toNat * 4096 + x3.toNat * 128)) 0 7 = k ∧
    fld (BitVec.ofNat 32 (c + x0.toNat * 2147483648 + x1.toNat * 4194304 + x2.toNat * 4096 + x3.toNat * 128)) 31 1 = x0 ∧
    fld (BitVec.ofNat 32 (c + x0.toNat * 2147483648 + x1.toNat * 4194304 + x2.toNat * 4096 + x3.toNat * 128)) 22 3 = x1 ∧
    fld (BitVec.ofNat 32 (c + x0.toNat * 2147483648 + x1.toNat * 4194304 + x2.toNat * 4096 + x3.toNat * 128)) 12 5 = x2 ∧
    fld (BitVec.ofNat 32 (c + x0.toNat * 2147483648 + x1.toNat * 4194304 + x2.toNat * 4096 + x3.toNat * 128)) 7 5 = x3 := by
  have := x0.isLt
  have := x1.isLt
  have := x2.isLt
  have := x3.isLt
  subst hc
  refine ⟨?_, ?_, ?_, ?_, ?_, ?_⟩ <;> first | (apply fnum_ofNat; omega) | (apply fld_ofNat; omega)

theorem layout48 (c maj k : Nat) (x0 : BitVec 1) (x1 : BitVec 3) (x2 : BitVec 5) (x3 : BitVec 5)
    (hc : c = maj * 33554432 + k * 1) (hj : maj < 64) (hk : k < 128) :
    fnum (BitVec.ofNat 32 (c + x0.toNat * 2147483648 + x1.toNat * 4194304 + x2.toNat * 131072 + x3.toNat * 128)) 25 6 = maj ∧
    fnum (BitVec.ofNat 32 (c + x0.toNat * 2147483648 + x1.toNat * 4194304 + x2.toNat * 131072 + x3.toNat * 128)) 0 7 = k ∧
    fld (BitVec.ofNat 32 (c + x0.toNat * 2147483648 + x1.toNat * 4194304 + x2.toNat * 131072 + x3.toNat * 128)) 31 1 = x0 ∧
    fld (BitVec.ofNat 32 (c + x0.toNat * 2147483648 + x1.toNat * 4194304 + x2.toNat * 131072 + x3.toNat * 128)) 22 3 = x1 ∧
    fld (BitVec.ofNat 32 (c + x0.toNat * 2147483648 + x1.toNat * 4194304 + x2.toNat * 131072 + x3.toNat * 128)) 17 5 = x2 ∧
    fld (BitVec.ofNat 32 (c + x0.toNat * 2147483648 + x1.toNat * 4194304 + x2.toNat * 131072 + x3.toNat * 128)) 7 5 = x3 := by
  have := x0.isLt
  have := x1.isLt
  have := x2.isLt
  have := x3.isLt
  subst hc
  refine ⟨?_, ?_, ?_, ?_, ?_, ?_⟩ <;> first | (apply fnum_ofNat; omega) | (apply fld_ofNat; omega)

theorem layout49 (c maj : Nat) (x0 : BitVec 1) (x1 : BitVec 3) (x2 : BitVec 3) (x3 : BitVec 5) (x4 : BitVec 2) (x5 : BitVec 1) (x6 : BitVec 9)
    (hc : c = maj * 33554432) (hj : maj < 64) :
    fnum (BitVec.ofNat 32 (c + x0.toNat * 2147483648 + x1.toNat * 4194304 + x2.toNat * 131072 + x3.toNat * 4096 + x4.toNat * 1024 + x5.toNat * 512 + x6.toNat)) 25 6 = maj ∧
    fld (BitVec.ofNat 32 (c + x0.toNat * 2147483648 + x1.toNat * 4194304 + x2.toNat * 131072 + x3.toNat * 4096 + x4.toNat * 1024 + x5.toNat * 512 + x6.toNat)) 31 1 = x0 ∧
    fld (BitVec.ofNat 32 (c + x0.toNat * 2147483648 + x1.toNat * 4194304 + x2.toNat * 131072 + x3.toNat * 4096 + x4.toNat * 1024 + x5.toNat * 512 + x6.toNat)) 22 3 = x1 ∧
    fld (BitVec.ofNat 32 (c + x0.toNat * 2147483648 + x1.toNat * 4194304 + x2.toNat * 131072 + x3.toNat * 4096 + x4.toNat * 1024 + x5.toNat * 512 + x6.toNat)) 17 3 = x2 ∧
    fld (BitVec.ofNat 32 (c + x0.toNat * 2147483648 + x1.toNat * 4194304 + x2.toNat * 131072 + x3.toNat * 4096 + x4.toNat * 1024 + x5.toNat * 512 + x6.toNat)) 12 5 = x3 ∧
    fld (BitVec.ofNat 32 (c + x0.toNat * 2147483648 + x1.toNat * 4194304 + x2.toNat * 131072 + x3.toNat * 4096 + x4.toNat * 1024 + x5.toNat * 512 + x6.toNat)) 10 2 = x4 ∧
    fld (BitVec.ofNat 32 (c + x0.toNat * 2147483648 + x1.toNat * 4194304 + x2.toNat * 131072 + x3.toNat * 4096 + x4.toNat * 1024 + x5.toNat * 512 + x6.toNat)) 9 1 = x5 ∧
    fld (BitVec.ofNat 32 (c + x0.toNat * 2147483648 + x1.toNat * 4194304 + x2.toNat * 131072 + x3.toNat * 4096 + x4.toNat * 1024 + x5.toNat * 512 + x6.toNat)) 0 9 = x6 := by
  have := x0.isLt
  have := x1.isLt
  have := x2.isLt
  have := x3.isLt
  have := x4.isLt
  have := x5.isLt
  have := x6.isLt
  subst hc
  refine ⟨?_, ?_, ?_, ?_, ?_, ?_, ?_, ?_⟩ <;> first | (apply fnum_ofNat; omega) | (apply fld_ofNat; omega)

theorem layout50 (c maj k : Nat) (x0 : BitVec 1) (x1 : BitVec 3) (x2 : BitVec 2) (x3 : BitVec 5) (x4 : BitVec 1) (x5 : BitVec 9)
    (hc : c = maj * 33554432 + k * 1024) (hj : maj < 64) (hk : k < 4) :
    fnum (BitVec.ofNat 32 (c + x0.toNat * 2147483648 + x1.toNat * 4194304 + x2.toNat * 131072 + x3.toNat * 4096 + x4.toNat * 512 + x5.toNat)) 25 6 = maj ∧
    fnum (BitVec.ofNat 32 (c + x0.toNat * 2147483648 + x1.toNat * 4194304 + x2.toNat * 131072 + x3.toNat * 4096 + x4.toNat * 512 + x5.toNat)) 10 2 = k ∧
    fld (BitVec.ofNat 32 (c + x0.toNat * 2147483648 + x1.toNat * 4194304 + x2.toNat * 131072 + x3.toNat * 4096 + x4.toNat * 512 + x5.toNat)) 31 1 = x0 ∧
    fld (BitVec.ofNat 32 (c + x0.toNat * 2147483648 + x1.toNat * 4194304 + x2.toNat * 131072 + x3.toNat * 4096 + x4.toNat * 512 + x5.toNat)) 22 3 = x1 ∧
    fld (BitVec.ofNat 32 (c + x0.toNat * 2147483648 + x1.toNat * 4194304 + x2.toNat * 131072 + x3.toNat * 4096 + x4.toNat * 512 + x5.toNat)) 17 2 = x2 ∧
    fld (BitVec.ofNat 32 (c + x0.toNat * 2147483648 + x1.toNat * 4194304 + x2.toNat * 131072 + x3.toNat * 4096 + x4.toNat * 512 + x5.toNat)) 12 5 = x3 ∧
    fld (BitVec.ofNat 32 (c + x0.toNat * 2147483648 + x1.toNat * 4194304 + x2.toNat * 131072 + x3.toNat * 4096 + x4.toNat * 512 + x5.toNat)) 9 1 = x4 ∧
    fld (BitVec.ofNat 32 (c + x0.toNat * 2147483648 + x1.toNat * 4194304 + x2.toNat * 131072 + x3.toNat * 4096 + x4.toNat * 512 + x5.toNat)) 0 9 = x5 := by
  have := x0.isLt
  have := x1.isLt
  have := x2.isLt
  have := x3.isLt
  have := x4.isLt
  have := x5.isLt
  subst hc
  refine ⟨?_, ?_, ?_, ?_, ?_, ?_, ?_, ?_⟩ <;> first | (apply fnum_ofNat; omega) | (apply fld_ofNat; omega)

theorem layout51 (c maj k : Nat) (x0 : BitVec 1) (x1 : BitVec 3) (x2 : BitVec 1) (x3 : BitVec 5) (x4 : BitVec 1) (x5 : BitVec 9)
    (hc : c = maj * 33554432 + k * 1024) (hj : maj < 64) (hk : k < 4) :
    fnum (BitVec.ofNat 32 (c + x0.toNat * 2147483648 + x1.toNat * 4194304 + x2.toNat * 131072 + x3.toNat * 4096 + x4.toNat * 512 + x5.toNat)) 25 6 = maj ∧
    fnum (BitVec.ofNat 32 (c + x0.toNat * 2147483648 + x1.toNat * 4194304 + x2.toNat * 131072 + x3.toNat * 4096 + x4.toNat * 512 + x5.toNat)) 10 2 = k ∧
    fld (BitVec.ofNat 32 (c + x0.toNat * 2147483648 + x1.toNat * 4194304 + x2.toNat * 131072 + x3.toNat * 4096 + x4.toNat * 512 + x5.toNat)) 31 1 = x0 ∧
    fld (BitVec.ofNat 32 (c + x0.toNat * 2147483648 + x1.toNat * 4194304 + x2.toNat * 131072 + x3.toNat * 4096 + x4.toNat * 512 + x5.toNat)) 22 3 = x1 ∧
    fld (BitVec.ofNat 32 (c + x0.toNat * 2147483648 + x1.toNat * 4194304 + x2.toNat * 131072 + x3.toNat * 4096 + x4.toNat * 512 + x5.toNat)) 17 1 = x2 ∧
    fld (BitVec.ofNat 32 (c + x0.toNat * 2147483648 + x1.toNat * 4194304 + x2.toNat * 131072 + x3.toNat * 4096 + x4.toNat * 512 + x5.toNat)) 12 5 = x3 ∧
    fld (BitVec.ofNat 32 (c + x0.toNat * 2147483648 + x1.toNat * 4194304 + x2.toNat * 131072 + x3.toNat * 4096 + x4.toNat * 512 + x5.toNat)) 9 1 = x4 ∧
    fld (BitVec.ofNat 32 (c + x0.toNat * 2147483648 + x1.toNat * 4194304 + x2.toNat * 131072 + x3.toNat * 4096 + x4.toNat * 512 + x5.toNat)) 0 9 = x5 := by
  have := x0.isLt
  have := x1.isLt
  have := x2.isLt
  have := x3.isLt
  have := x4.isLt
  have := x5.isLt
  subst hc
  refine ⟨?_, ?_, ?_, ?_, ?_, ?_, ?_, ?_⟩ <;> first | (apply fnum_ofNat; omega) | (apply fld_ofNat; omega)

theorem layout52 (c maj k : Nat) (x0 : BitVec 1) (x1 : BitVec 3) (x2 : BitVec 5) (x3 : BitVec 1) (x4 : BitVec 9)
    (hc : c = maj * 33554432 + k * 1024) (hj : maj < 64) (hk : k < 4) :
    fnum (BitVec.ofNat 32 (c + x0.toNat * 2147483648 + x1.toNat * 4194304 + x2.toNat * 4096 + x3.toNat * 512 + x4.toNat)) 25 6 = maj ∧
    fnum (BitVec.ofNat 32 (c + x0.toNat * 2147483648 + x1.toNat * 4194304 + x2.toNat * 4096 + x3.toNat * 512 + x4.toNat)) 10 2 = k ∧
    fld (BitVec.ofNat 32 (c + x0.toNat * 2147483648 + x1.toNat * 4194304 + x2.toNat * 4096 + x3.toNat * 512 + x4.toNat)) 31 1 = x0 ∧
    fld (BitVec.ofNat 32 (c + x0.toNat * 2147483648 + x1.toNat * 4194304 + x2.toNat * 4096 + x3.toNat * 512 + x4.toNat)) 22 3 = x1 ∧
    fld (BitVec.ofNat 32 (c + x0.toNat * 2147483648 + x1.toNat * 4194304 + x2.toNat * 4096 + x3.toNat * 512 + x4.toNat)) 12 5 = x2 ∧
    fld (BitVec.ofNat 32 (c + x0.toNat * 2147483648 + x1.toNat * 4194304 + x2.toNat * 4096 + x3.toNat * 512 + x4.toNat)) 9 1 = x3 ∧
    fld (BitVec.ofNat 32 (c + x0.toNat * 2147483648 + x1.toNat * 4194304 + x2.toNat * 4096 + x3.toNat * 512 + x4.toNat)) 0 9 = x4 := by
  have := x0.isLt
  have := x1.isLt
  have := x2.isLt
  have := x3.isLt
  have := x4.isLt
  subst hc
  refine ⟨?_, ?_, ?_, ?_, ?_, ?_, ?_⟩ <;> first | (apply fnum_ofNat; omega) | (apply fld_ofNat; omega)

theorem layout53 (c maj k : Nat) (x0 : BitVec 1) (x1 : BitVec 3) (x2 : BitVec 5) (x3 : BitVec 5) (x4 : BitVec 3)
    (hc : c = maj * 33554432 + k * 1) (hj : maj < 64) (hk : k < 128) :
    fnum (BitVec.ofNat 32 (c + x0.toNat * 2147483648 + x1.toNat * 4194304 + x2.toNat * 131072 + x3.toNat * 4096 + x4.toNat * 128)) 25 6 = maj ∧
    fnum (BitVec.ofNat 32 (c + x0.toNat * 2147483648 + x1.toNat * 4194304 + x2.toNat * 131072 + x3.toNat * 4096 + x4.toNat * 128)) 0 7 = k ∧
    fld (BitVec.ofNat 32 (c + x0.toNat * 2147483648 + x1.toNat * 4194304 + x2.toNat * 131072 + x3.toNat * 4096 + x4.toNat * 128)) 31 1 = x0 ∧
    fld (BitVec.ofNat 32 (c + x0.toNat * 2147483648 + x1.toNat * 4194304 + x2.toNat * 131072 + x3.toNat * 4096 + x4.toNat * 128)) 22 3 = x1 ∧
    fld (BitVec.ofNat 32 (c + x0.toNat * 2147483648 + x1.toNat * 4194304 + x2.toNat * 131072 + x3.toNat * 4096 + x4.toNat * 128)) 17 5 = x2 ∧
    fld (BitVec.ofNat 32 (c + x0.toNat * 2147483648 + x1.toNat * 4194304 + x2.toNat * 131072 + x3.toNat * 4096 + x4.toNat * 128)) 12 5 = x3 ∧
    fld (BitVec.ofNat 32 (c + x0.toNat * 2147483648 + x1.toNat * 4194304 + x2.toNat * 131072 + x3.toNat * 4096 + x4.toNat * 128)) 7 3 = x4 := by
  have := x0.isLt
  have := x1.isLt
  have := x2.isLt
  have := x3.isLt
  have := x4.isLt
  subst hc
  refine ⟨?_, ?_, ?_, ?_, ?_, ?_, ?_⟩ <;> first | (apply fnum_ofNat; omega) | (apply fld_ofNat; omega)

theorem layout54 (c maj k : Nat) (x0 : BitVec 1) (x1 : BitVec 3) (x2 : BitVec 5)
    (hc : c = maj * 33554432 + k * 1) (hj : maj < 64) (hk : k < 128) :
    fnum (BitVec.ofNat 32 (c + x0.toNat * 2147483648 + x1.toNat * 4194304 + x2.toNat * 4096)) 25 6 = maj ∧
    fnum (BitVec.ofNat 32 (c + x0.toNat * 2147483648 + x1.toNat * 4194304 + x2.toNat * 4096)) 0 7 = k ∧
    fld (BitVec.ofNat 32 (c + x0.toNat * 2147483648 + x1.toNat * 4194304 + x2.toNat * 4096)) 31 1 = x0 ∧
    fld (BitVec.ofNat 32 (c + x0.toNat * 2147483648 + x1.toNat * 4194304 + x2.toNat * 4096)) 22 3 = x1 ∧
    fld (BitVec.ofNat 32 (c + x0.toNat * 2147483648 + x1.toNat * 4194304 + x2.toNat * 4096)) 12 5 = x2 := by
  have := x0.isLt
  have := x1.isLt
  have := x2.isLt
  subst hc
  refine ⟨?_, ?_, ?_, ?_, ?_⟩ <;> first | (apply fnum_ofNat; omega) | (apply fld_ofNat; omega)

theorem layout55 (c maj k : Nat) (x0 : BitVec 1) (x1 : BitVec 3) (x2 : BitVec 5)
    (hc : c = maj * 33554432 + k * 1) (hj : maj < 64) (hk : k < 128) :
    fnum (BitVec.ofNat 32 (c + x0.toNat * 2147483648 + x1.toNat * 4194304 + x2.toNat * 131072)) 25 6 = maj ∧
    fnum (BitVec.ofNat 32 (c + x0.toNat * 2147483648 + x1.toNat * 4194304 + x2.toNat * 131072)) 0 7 = k ∧
    fld (BitVec.ofNat 32 (c + x0.toNat * 2147483648 + x1.toNat * 4194304 + x2.toNat * 131072)) 31 1 = x0 ∧
    fld (BitVec.ofNat 32 (c + x0.toNat * 2147483648 + x1.toNat * 4194304 + x2.toNat * 131072)) 22 3 = x1 ∧
    fld (BitVec.ofNat 32 (c + x0.toNat * 2147483648 + x1.toNat * 4194304 + x2.toNat * 131072)) 17 5 = x2 := by
  have := x0.isLt
  have := x1.isLt
  have := x2.isLt
  subst hc
  refine ⟨?_, ?_, ?_, ?_, ?_⟩ <;> first | (apply fnum_ofNat; omega) | (apply fld_ofNat; omega)

theorem layout56 (c maj k : Nat) (x0 : BitVec 1) (x1 : BitVec 3) (x2 : BitVec 2) (x3 : BitVec 5) (x4 : BitVec 5)
    (hc : c = maj * 33554432 + k * 1) (hj : maj < 64) (hk : k < 128) :
    fnum (BitVec.ofNat 32 (c + x0.toNat * 2147483648 + x1.toNat * 4194304 + x2.toNat * 131072 + x3.toNat * 4096 + x4.toNat * 128)) 25 6 = maj ∧
    fnum (BitVec.ofNat 32 (c + x0.toNat * 2147483648 + x1.toNat * 4194304 + x2.toNat * 131072 + x3.toNat * 4096 + x4.toNat * 128)) 0 7 = k ∧
    fld (BitVec.ofNat 32 (c + x0.toNat * 2147483648 + x1.toNat * 4194304 + x2.toNat * 131072 + x3.toNat * 4096 + x4.toNat * 128)) 31 1 = x0 ∧
    fld (BitVec.ofNat 32 (c + x0.toNat * 2147483648 + x1.toNat * 4194304 + x2.toNat * 131072 + x3.toNat * 4096 + x4.toNat * 128)) 22 3 = x1 ∧
    fld (BitVec.ofNat 32 (c + x0.toNat * 2147483648 + x1.toNat * 4194304 + x2.toNat * 131072 + x3.toNat * 4096 + x4.toNat * 128)) 17 2 = x2 ∧
    fld (BitVec.ofNat 32 (c + x0.toNat * 2147483648 + x1.toNat * 4194304 + x2.toNat * 131072 + x3.toNat * 4096 + x4.toNat * 128)) 12 5 = x3 ∧
    fld (BitVec.ofNat 32 (c + x0.toNat * 2147483648 + x1.toNat * 4194304 + x2.toNat * 131072 + x3.toNat * 4096 + x4.toNat * 128)) 7 5 = x4 := by
  have := x0.isLt
  have := x1.isLt
  have := x2.isLt
  have := x3.isLt
  have := x4.isLt
  subst hc
  refine ⟨?_, ?_, ?_, ?_, ?_, ?_, ?_⟩ <;> first | (apply fnum_ofNat; omega) | (apply fld_ofNat; omega)

theorem layout57 (c maj k : Nat) (x0 : BitVec 1) (x1 : BitVec 3) (x2 : BitVec 2) (x3 : BitVec 3) (x4 : BitVec 5) (x5 : BitVec 3)
    (hc : c = maj * 33554432 + k * 1) (hj : maj < 64) (hk : k < 128) :
    fnum (BitVec.ofNat 32 (c + x0.toNat * 2147483648 + x1.toNat * 4194304 + x2.toNat * 1048576 + x3.toNat * 131072 + x4.toNat * 4096 + x5.toNat * 128)) 25 6 = maj ∧
    fnum (BitVec.ofNat 32 (c + x0.toNat * 2147483648 + x1.toNat * 4194304 + x2.toNat * 1048576 + x3.toNat * 131072 + x4.toNat * 4096 + x5.toNat * 128)) 0 7 = k ∧
    fld (BitVec.ofNat 32 (c + x0.toNat * 2147483648 + x1.toNat * 4194304 + x2.toNat * 1048576 + x3.toNat * 131072 + x4.toNat * 4096 + x5.toNat * 128)) 31 1 = x0 ∧
    fld (BitVec.ofNat 32 (c + x0.toNat * 2147483648 + x1.toNat * 4194304 + x2.toNat * 1048576 + x3.toNat * 131072 + x4.toNat * 4096 + x5.toNat * 128)) 22 3 = x1 ∧
    fld (BitVec.ofNat 32 (c + x0.toNat * 2147483648 + x1.toNat * 4194304 + x2.toNat * 1048576 + x3.toNat * 131072 + x4.toNat * 4096 + x5.toNat * 128)) 20 2 = x2 ∧
    fld (BitVec.ofNat 32 (c + x0.toNat * 2147483648 + x1.toNat * 4194304 + x2.toNat * 1048576 + x3.toNat * 131072 + x4.toNat * 4096 + x5.toNat * 128)) 17 3 = x3 ∧
    fld (BitVec.ofNat 32 (c + x0.toNat * 2147483648 + x1.toNat * 4194304 + x2.toNat * 1048576 + x3.toNat * 131072 + x4.toNat * 4096 + x5.toNat * 128)) 12 5 = x4 ∧
    fld (BitVec.ofNat 32 (c + x0.toNat * 2147483648 + x1.toNat * 4194304 + x2.toNat * 1048576 + x3.toNat * 131072 + x4.toNat * 4096 + x5.toNat * 128)) 7 3 = x5 := by
  have := x0.isLt
  have := x1.isLt
  have := x2.isLt
  have := x3.isLt
  have := x4.isLt
  have := x5.isLt
  subst hc
  refine ⟨?_, ?_, ?_, ?_, ?_, ?_, ?_, ?_⟩ <;> first | (apply fnum_ofNat; omega) | (apply fld_ofNat; omega)

theorem EncodeRoundTrip.lui (sb : BitVec 1) (d : BitVec 5) (imm : BitVec 20) : EncodeRoundTrip.Statement (.lui sb d imm) := by
  intro w h hw
  refine decodeWord_of_raw h ?_ hw
  obtain rfl := Option.some.inj h
  obtain ⟨h1, e0, e1, e2⟩ := layout0 33554432 1 sb d imm rfl (by decide)
  rw [raw_maj01 _ h1]
  unfold raw01
  show some (Instr.lui _ _ _) = _
  rw [e0, e1, e2]

theorem EncodeRoundTrip.lapc (sb : BitVec 1) (d : BitVec 5) (imm : BitVec 20) : EncodeRoundTrip.Statement (.lapc sb d imm) := by
  intro w h hw
  refine decodeWord_of_raw h ?_ hw
  obtain rfl := Option.some.inj h
  obtain ⟨h1, e0, e1, e2⟩ := layout0 67108864 2 sb d imm rfl (by decide)
  rw [raw_maj02 _ h1]
  unfold raw02
  show some (Instr.lapc _ _ _) = _
  rw [e0, e1, e2]

theorem EncodeRoundTrip.addi (sb : BitVec 1) (p : BitVec 3) (d : BitVec 5) (a : BitVec 5) (imm : BitVec 12) : EncodeRoundTrip.Statement (.addi sb p d a imm) := by
  intro w h hw
  refine decodeWord_of_raw h ?_ hw
  obtain rfl := Option.some.inj h
  obtain ⟨h1, e0, e1, e2, e3, e4⟩ := layout1 100663296 3 sb p d a imm rfl (by decide)
  rw [raw_maj03 _ h1]
  unfold raw03
  show some (Instr.addi _ _ _ _ _) = _
  rw [e0, e1, e2, e3, e4]

theorem EncodeRoundTrip.andi (sb : BitVec 1) (p : BitVec 3) (d : BitVec 5) (a : BitVec 5) (imm : BitVec 12) : EncodeRoundTrip.Statement (.andi sb p d a imm) := by
  intro w h hw
  refine decodeWord_of_raw h ?_ hw
  obtain rfl := Option.some.inj h
  obtain ⟨h1, e0, e1, e2, e3, e4⟩ := layout1 134217728 4 sb p d a imm rfl (by decide)
  rw [raw_maj04 _ h1]
  unfold raw04
  show some (Instr.andi _ _ _ _ _) = _
  rw [e0, e1, e2, e3, e4]

theorem EncodeRoundTrip.ori (sb : BitVec 1) (p : BitVec 3) (d : BitVec 5) (a : BitVec 5) (imm : BitVec 12) : EncodeRoundTrip.Statement (.ori sb p d a imm) := by
  intro w h hw
  refine decodeWord_of_raw h ?_ hw
  obtain rfl := Option.some.inj h
  obtain ⟨h1, e0, e1, e2, e3, e4⟩ := layout1 167772160 5 sb p d a imm rfl (by decide)
  rw [raw_maj05 _ h1]
  unfold raw05
  show some (Instr.ori _ _ _ _ _) = _
  rw [e0, e1, e2, e3, e4]

theorem EncodeRoundTrip.xori (sb : BitVec 1) (p : BitVec 3) (d : BitVec 5) (a : BitVec 5) (imm : BitVec 12) : EncodeRoundTrip.Statement (.xori sb p d a imm) := by
  intro w h hw
  refine decodeWord_of_raw h ?_ hw
  obtain rfl := Option.some.inj h
  obtain ⟨h1, e0, e1, e2, e3, e4⟩ := layout1 201326592 6 sb p d a imm rfl (by decide)
  rw [raw_maj06 _ h1]
  unfold raw06
  show some (Instr.xori _ _ _ _ _) = _
  rw [e0, e1, e2, e3, e4]

theorem EncodeRoundTrip.shli (sb : BitVec 1) (p : BitVec 3) (d : BitVec 5) (a : BitVec 5) (n : BitVec 6) : EncodeRoundTrip.Statement (.shli sb p d a n) := by
  intro w h hw
  refine decodeWord_of_raw h ?_ hw
  obtain rfl := Option.some.inj h
  obtain ⟨h1, h2, e0, e1, e2, e3, e4⟩ := layout2 234881024 7 0 sb p d a n rfl (by decide) (by decide)
  rw [raw_maj07 _ h1]
  unfold raw07
  rw [h2]
  show some (Instr.shli _ _ _ _ _) = _
  rw [e0, e1, e2, e3, e4]

theorem EncodeRoundTrip.shri (sb : BitVec 1) (p : BitVec 3) (d : BitVec 5) (a : BitVec 5) (n : BitVec 6) : EncodeRoundTrip.Statement (.shri sb p d a n) := by
  intro w h hw
  refine decodeWord_of_raw h ?_ hw
  obtain rfl := Option.some.inj h
  obtain ⟨h1, h2, e0, e1, e2, e3, e4⟩ := layout2 234882048 7 1 sb p d a n rfl (by decide) (by decide)
  rw [raw_maj07 _ h1]
  unfold raw07
  rw [h2]
  show some (Instr.shri _ _ _ _ _) = _
  rw [e0, e1, e2, e3, e4]

theorem EncodeRoundTrip.srai (sb : BitVec 1) (p : BitVec 3) (d : BitVec 5) (a : BitVec 5) (n : BitVec 6) : EncodeRoundTrip.Statement (.srai sb p d a n) := by
  intro w h hw
  refine decodeWord_of_raw h ?_ hw
  obtain rfl := Option.some.inj h
  obtain ⟨h1, h2, e0, e1, e2, e3, e4⟩ := layout2 234883072 7 2 sb p d a n rfl (by decide) (by decide)
  rw [raw_maj07 _ h1]
  unfold raw07
  rw [h2]
  show some (Instr.srai _ _ _ _ _) = _
  rw [e0, e1, e2, e3, e4]

theorem EncodeRoundTrip.roli (sb : BitVec 1) (p : BitVec 3) (d : BitVec 5) (a : BitVec 5) (n : BitVec 6) : EncodeRoundTrip.Statement (.roli sb p d a n) := by
  intro w h hw
  refine decodeWord_of_raw h ?_ hw
  obtain rfl := Option.some.inj h
  obtain ⟨h1, h2, e0, e1, e2, e3, e4⟩ := layout2 234884096 7 3 sb p d a n rfl (by decide) (by decide)
  rw [raw_maj07 _ h1]
  unfold raw07
  rw [h2]
  show some (Instr.roli _ _ _ _ _) = _
  rw [e0, e1, e2, e3, e4]

theorem EncodeRoundTrip.cmpeqi (sb : BitVec 1) (p : BitVec 3) (d : BitVec 3) (a : BitVec 5) (imm : BitVec 10) : EncodeRoundTrip.Statement (.cmpeqi sb p d a imm) := by
  intro w h hw
  refine decodeWord_of_raw h ?_ hw
  obtain rfl := Option.some.inj h
  obtain ⟨h1, h2, e0, e1, e2, e3, e4⟩ := layout3 268435456 8 0 sb p d a imm rfl (by decide) (by decide)
  rw [raw_maj08 _ h1]
  unfold raw08
  rw [h2]
  show some (Instr.cmpeqi _ _ _ _ _) = _
  rw [e0, e1, e2, e3, e4]

theorem EncodeRoundTrip.cmplti (sb : BitVec 1) (p : BitVec 3) (d : BitVec 3) (a : BitVec 5) (imm : BitVec 10) : EncodeRoundTrip.Statement (.cmplti sb p d a imm) := by
  intro w h hw
  refine decodeWord_of_raw h ?_ hw
  obtain rfl := Option.some.inj h
  obtain ⟨h1, h2, e0, e1, e2, e3, e4⟩ := layout3 268436480 8 1 sb p d a imm rfl (by decide) (by decide)
  rw [raw_maj08 _ h1]
  unfold raw08
  rw [h2]
  show some (Instr.cmplti _ _ _ _ _) = _
  rw [e0, e1, e2, e3, e4]

theorem EncodeRoundTrip.cmpltni (sb : BitVec 1) (p : BitVec 3) (d : BitVec 3) (a : BitVec 5) (imm : BitVec 10) : EncodeRoundTrip.Statement (.cmpltni sb p d a imm) := by
  intro w h hw
  refine decodeWord_of_raw h ?_ hw
  obtain rfl := Option.some.inj h
  obtain ⟨h1, h2, e0, e1, e2, e3, e4⟩ := layout3 268437504 8 2 sb p d a imm rfl (by decide) (by decide)
  rw [raw_maj08 _ h1]
  unfold raw08
  rw [h2]
  show some (Instr.cmpltni _ _ _ _ _) = _
  rw [e0, e1, e2, e3, e4]

theorem EncodeRoundTrip.add (sb : BitVec 1) (p : BitVec 3) (d : BitVec 5) (a : BitVec 5) (b : BitVec 5) : EncodeRoundTrip.Statement (.add sb p d a b) := by
  intro w h hw
  refine decodeWord_of_raw h ?_ hw
  obtain rfl := Option.some.inj h
  obtain ⟨h1, h2, e0, e1, e2, e3, e4⟩ := layout4 301989888 9 0 sb p d a b rfl (by decide) (by decide)
  rw [raw_maj09 _ h1]
  unfold raw09
  rw [h2]
  show some (Instr.add _ _ _ _ _) = _
  rw [e0, e1, e2, e3, e4]

theorem EncodeRoundTrip.sub (sb : BitVec 1) (p : BitVec 3) (d : BitVec 5) (a : BitVec 5) (b : BitVec 5) : EncodeRoundTrip.Statement (.sub sb p d a b) := by
  intro w h hw
  refine decodeWord_of_raw h ?_ hw
  obtain rfl := Option.some.inj h
  obtain ⟨h1, h2, e0, e1, e2, e3, e4⟩ := layout4 301989889 9 1 sb p d a b rfl (by decide) (by decide)
  rw [raw_maj09 _ h1]
  unfold raw09
  rw [h2]
  show some (Instr.sub _ _ _ _ _) = _
  rw [e0, e1, e2, e3, e4]

theorem EncodeRoundTrip.and (sb : BitVec 1) (p : BitVec 3) (d : BitVec 5) (a : BitVec 5) (b : BitVec 5) : EncodeRoundTrip.Statement (.and sb p d a b) := by
  intro w h hw
  refine decodeWord_of_raw h ?_ hw
  obtain rfl := Option.some.inj h
  obtain ⟨h1, h2, e0, e1, e2, e3, e4⟩ := layout4 301989890 9 2 sb p d a b rfl (by decide) (by decide)
  rw [raw_maj09 _ h1]
  unfold raw09
  rw [h2]
  show some (Instr.and _ _ _ _ _) = _
  rw [e0, e1, e2, e3, e4]

theorem EncodeRoundTrip.or (sb : BitVec 1) (p : BitVec 3) (d : BitVec 5) (a : BitVec 5) (b : BitVec 5) : EncodeRoundTrip.Statement (.or sb p d a b) := by
  intro w h hw
  refine decodeWord_of_raw h ?_ hw
  obtain rfl := Option.some.inj h
  obtain ⟨h1, h2, e0, e1, e2, e3, e4⟩ := layout4 301989891 9 3 sb p d a b rfl (by decide) (by decide)
  rw [raw_maj09 _ h1]
  unfold raw09
  rw [h2]
  show some (Instr.or _ _ _ _ _) = _
  rw [e0, e1, e2, e3, e4]

theorem EncodeRoundTrip.xor (sb : BitVec 1) (p : BitVec 3) (d : BitVec 5) (a : BitVec 5) (b : BitVec 5) : EncodeRoundTrip.Statement (.xor sb p d a b) := by
  intro w h hw
  refine decodeWord_of_raw h ?_ hw
  obtain rfl := Option.some.inj h
  obtain ⟨h1, h2, e0, e1, e2, e3, e4⟩ := layout4 301989892 9 4 sb p d a b rfl (by decide) (by decide)
  rw [raw_maj09 _ h1]
  unfold raw09
  rw [h2]
  show some (Instr.xor _ _ _ _ _) = _
  rw [e0, e1, e2, e3, e4]

theorem EncodeRoundTrip.andn (sb : BitVec 1) (p : BitVec 3) (d : BitVec 5) (a : BitVec 5) (b : BitVec 5) : EncodeRoundTrip.Statement (.andn sb p d a b) := by
  intro w h hw
  refine decodeWord_of_raw h ?_ hw
  obtain rfl := Option.some.inj h
  obtain ⟨h1, h2, e0, e1, e2, e3, e4⟩ := layout4 301989893 9 5 sb p d a b rfl (by decide) (by decide)
  rw [raw_maj09 _ h1]
  unfold raw09
  rw [h2]
  show some (Instr.andn _ _ _ _ _) = _
  rw [e0, e1, e2, e3, e4]

theorem EncodeRoundTrip.shl (sb : BitVec 1) (p : BitVec 3) (d : BitVec 5) (a : BitVec 5) (b : BitVec 5) : EncodeRoundTrip.Statement (.shl sb p d a b) := by
  intro w h hw
  refine decodeWord_of_raw h ?_ hw
  obtain rfl := Option.some.inj h
  obtain ⟨h1, h2, e0, e1, e2, e3, e4⟩ := layout4 301989894 9 6 sb p d a b rfl (by decide) (by decide)
  rw [raw_maj09 _ h1]
  unfold raw09
  rw [h2]
  show some (Instr.shl _ _ _ _ _) = _
  rw [e0, e1, e2, e3, e4]

theorem EncodeRoundTrip.shr (sb : BitVec 1) (p : BitVec 3) (d : BitVec 5) (a : BitVec 5) (b : BitVec 5) : EncodeRoundTrip.Statement (.shr sb p d a b) := by
  intro w h hw
  refine decodeWord_of_raw h ?_ hw
  obtain rfl := Option.some.inj h
  obtain ⟨h1, h2, e0, e1, e2, e3, e4⟩ := layout4 301989895 9 7 sb p d a b rfl (by decide) (by decide)
  rw [raw_maj09 _ h1]
  unfold raw09
  rw [h2]
  show some (Instr.shr _ _ _ _ _) = _
  rw [e0, e1, e2, e3, e4]

theorem EncodeRoundTrip.sra (sb : BitVec 1) (p : BitVec 3) (d : BitVec 5) (a : BitVec 5) (b : BitVec 5) : EncodeRoundTrip.Statement (.sra sb p d a b) := by
  intro w h hw
  refine decodeWord_of_raw h ?_ hw
  obtain rfl := Option.some.inj h
  obtain ⟨h1, h2, e0, e1, e2, e3, e4⟩ := layout4 301989896 9 8 sb p d a b rfl (by decide) (by decide)
  rw [raw_maj09 _ h1]
  unfold raw09
  rw [h2]
  show some (Instr.sra _ _ _ _ _) = _
  rw [e0, e1, e2, e3, e4]

theorem EncodeRoundTrip.rol (sb : BitVec 1) (p : BitVec 3) (d : BitVec 5) (a : BitVec 5) (b : BitVec 5) : EncodeRoundTrip.Statement (.rol sb p d a b) := by
  intro w h hw
  refine decodeWord_of_raw h ?_ hw
  obtain rfl := Option.some.inj h
  obtain ⟨h1, h2, e0, e1, e2, e3, e4⟩ := layout4 301989897 9 9 sb p d a b rfl (by decide) (by decide)
  rw [raw_maj09 _ h1]
  unfold raw09
  rw [h2]
  show some (Instr.rol _ _ _ _ _) = _
  rw [e0, e1, e2, e3, e4]

theorem EncodeRoundTrip.min (sb : BitVec 1) (p : BitVec 3) (d : BitVec 5) (a : BitVec 5) (b : BitVec 5) : EncodeRoundTrip.Statement (.min sb p d a b) := by
  intro w h hw
  refine decodeWord_of_raw h ?_ hw
  obtain rfl := Option.some.inj h
  obtain ⟨h1, h2, e0, e1, e2, e3, e4⟩ := layout4 301989898 9 10 sb p d a b rfl (by decide) (by decide)
  rw [raw_maj09 _ h1]
  unfold raw09
  rw [h2]
  show some (Instr.min _ _ _ _ _) = _
  rw [e0, e1, e2, e3, e4]

theorem EncodeRoundTrip.max (sb : BitVec 1) (p : BitVec 3) (d : BitVec 5) (a : BitVec 5) (b : BitVec 5) : EncodeRoundTrip.Statement (.max sb p d a b) := by
  intro w h hw
  refine decodeWord_of_raw h ?_ hw
  obtain rfl := Option.some.inj h
  obtain ⟨h1, h2, e0, e1, e2, e3, e4⟩ := layout4 301989899 9 11 sb p d a b rfl (by decide) (by decide)
  rw [raw_maj09 _ h1]
  unfold raw09
  rw [h2]
  show some (Instr.max _ _ _ _ _) = _
  rw [e0, e1, e2, e3, e4]

theorem EncodeRoundTrip.minn (sb : BitVec 1) (p : BitVec 3) (d : BitVec 5) (a : BitVec 5) (b : BitVec 5) : EncodeRoundTrip.Statement (.minn sb p d a b) := by
  intro w h hw
  refine decodeWord_of_raw h ?_ hw
  obtain rfl := Option.some.inj h
  obtain ⟨h1, h2, e0, e1, e2, e3, e4⟩ := layout4 301989900 9 12 sb p d a b rfl (by decide) (by decide)
  rw [raw_maj09 _ h1]
  unfold raw09
  rw [h2]
  show some (Instr.minn _ _ _ _ _) = _
  rw [e0, e1, e2, e3, e4]

theorem EncodeRoundTrip.maxn (sb : BitVec 1) (p : BitVec 3) (d : BitVec 5) (a : BitVec 5) (b : BitVec 5) : EncodeRoundTrip.Statement (.maxn sb p d a b) := by
  intro w h hw
  refine decodeWord_of_raw h ?_ hw
  obtain rfl := Option.some.inj h
  obtain ⟨h1, h2, e0, e1, e2, e3, e4⟩ := layout4 301989901 9 13 sb p d a b rfl (by decide) (by decide)
  rw [raw_maj09 _ h1]
  unfold raw09
  rw [h2]
  show some (Instr.maxn _ _ _ _ _) = _
  rw [e0, e1, e2, e3, e4]

theorem EncodeRoundTrip.mul (sb : BitVec 1) (p : BitVec 3) (d : BitVec 5) (a : BitVec 5) (b : BitVec 5) : EncodeRoundTrip.Statement (.mul sb p d a b) := by
  intro w h hw
  refine decodeWord_of_raw h ?_ hw
  obtain rfl := Option.some.inj h
  obtain ⟨h1, h2, e0, e1, e2, e3, e4⟩ := layout4 301989902 9 14 sb p d a b rfl (by decide) (by decide)
  rw [raw_maj09 _ h1]
  unfold raw09
  rw [h2]
  show some (Instr.mul _ _ _ _ _) = _
  rw [e0, e1, e2, e3, e4]

theorem EncodeRoundTrip.mulh (sb : BitVec 1) (p : BitVec 3) (d : BitVec 5) (a : BitVec 5) (b : BitVec 5) : EncodeRoundTrip.Statement (.mulh sb p d a b) := by
  intro w h hw
  refine decodeWord_of_raw h ?_ hw
  obtain rfl := Option.some.inj h
  obtain ⟨h1, h2, e0, e1, e2, e3, e4⟩ := layout4 301989903 9 15 sb p d a b rfl (by decide) (by decide)
  rw [raw_maj09 _ h1]
  unfold raw09
  rw [h2]
  show some (Instr.mulh _ _ _ _ _) = _
  rw [e0, e1, e2, e3, e4]

theorem EncodeRoundTrip.mulhn (sb : BitVec 1) (p : BitVec 3) (d : BitVec 5) (a : BitVec 5) (b : BitVec 5) : EncodeRoundTrip.Statement (.mulhn sb p d a b) := by
  intro w h hw
  refine decodeWord_of_raw h ?_ hw
  obtain rfl := Option.some.inj h
  obtain ⟨h1, h2, e0, e1, e2, e3, e4⟩ := layout4 301989904 9 16 sb p d a b rfl (by decide) (by decide)
  rw [raw_maj09 _ h1]
  unfold raw09
  rw [h2]
  show some (Instr.mulhn _ _ _ _ _) = _
  rw [e0, e1, e2, e3, e4]

theorem EncodeRoundTrip.clz (sb : BitVec 1) (p : BitVec 3) (d : BitVec 5) (a : BitVec 5) : EncodeRoundTrip.Statement (.clz sb p d a) := by
  intro w h hw
  refine decodeWord_of_raw h ?_ hw
  obtain rfl := Option.some.inj h
  obtain ⟨h1, h2, e0, e1, e2, e3⟩ := layout5 301989905 9 17 sb p d a rfl (by decide) (by decide)
  rw [raw_maj09 _ h1]
  unfold raw09
  rw [h2]
  show some (Instr.clz _ _ _ _) = _
  rw [e0, e1, e2, e3]

theorem EncodeRoundTrip.popc (sb : BitVec 1) (p : BitVec 3) (d : BitVec 5) (a : BitVec 5) : EncodeRoundTrip.Statement (.popc sb p d a) := by
  intro w h hw
  refine decodeWord_of_raw h ?_ hw
  obtain rfl := Option.some.inj h
  obtain ⟨h1, h2, e0, e1, e2, e3⟩ := layout5 301989906 9 18 sb p d a rfl (by decide) (by decide)
  rw [raw_maj09 _ h1]
  unfold raw09
  rw [h2]
  show some (Instr.popc _ _ _ _) = _
  rw [e0, e1, e2, e3]

theorem EncodeRoundTrip.sext (sb : BitVec 1) (p : BitVec 3) (d : BitVec 5) (a : BitVec 5) (w : BitVec 2) : EncodeRoundTrip.Statement (.sext sb p d a w) := by
  intro w h hw
  refine decodeWord_of_raw h ?_ hw
  obtain rfl := Option.some.inj h
  obtain ⟨h1, h2, e0, e1, e2, e3, e4⟩ := layout6 301989907 9 19 sb p d a w rfl (by decide) (by decide)
  rw [raw_maj09 _ h1]
  unfold raw09
  rw [h2]
  show some (Instr.sext _ _ _ _ _) = _
  rw [e0, e1, e2, e3, e4]

theorem EncodeRoundTrip.zext (sb : BitVec 1) (p : BitVec 3) (d : BitVec 5) (a : BitVec 5) (w : BitVec 2) : EncodeRoundTrip.Statement (.zext sb p d a w) := by
  intro w h hw
  refine decodeWord_of_raw h ?_ hw
  obtain rfl := Option.some.inj h
  obtain ⟨h1, h2, e0, e1, e2, e3, e4⟩ := layout6 301989908 9 20 sb p d a w rfl (by decide) (by decide)
  rw [raw_maj09 _ h1]
  unfold raw09
  rw [h2]
  show some (Instr.zext _ _ _ _ _) = _
  rw [e0, e1, e2, e3, e4]

theorem EncodeRoundTrip.sel (sb : BitVec 1) (k : BitVec 3) (d : BitVec 5) (a : BitVec 5) (b : BitVec 5) : EncodeRoundTrip.Statement (.sel sb k d a b) := by
  intro w h hw
  refine decodeWord_of_raw h ?_ hw
  obtain rfl := Option.some.inj h
  obtain ⟨h1, h2, e0, e1, e2, e3, e4⟩ := layout4 301989909 9 21 sb k d a b rfl (by decide) (by decide)
  rw [raw_maj09 _ h1]
  unfold raw09
  rw [h2]
  show some (Instr.sel _ _ _ _ _) = _
  rw [e0, e1, e2, e3, e4]

theorem EncodeRoundTrip.cmpeq (sb : BitVec 1) (p : BitVec 3) (d : BitVec 3) (a : BitVec 5) (b : BitVec 5) : EncodeRoundTrip.Statement (.cmpeq sb p d a b) := by
  intro w h hw
  refine decodeWord_of_raw h ?_ hw
  obtain rfl := Option.some.inj h
  obtain ⟨h1, h2, e0, e1, e2, e3, e4⟩ := layout7 335544320 10 0 sb p d a b rfl (by decide) (by decide)
  rw [raw_maj0A _ h1]
  unfold raw0A
  rw [h2]
  show some (Instr.cmpeq _ _ _ _ _) = _
  rw [e0, e1, e2, e3, e4]

theorem EncodeRoundTrip.cmpne (sb : BitVec 1) (p : BitVec 3) (d : BitVec 3) (a : BitVec 5) (b : BitVec 5) : EncodeRoundTrip.Statement (.cmpne sb p d a b) := by
  intro w h hw
  refine decodeWord_of_raw h ?_ hw
  obtain rfl := Option.some.inj h
  obtain ⟨h1, h2, e0, e1, e2, e3, e4⟩ := layout7 335544321 10 1 sb p d a b rfl (by decide) (by decide)
  rw [raw_maj0A _ h1]
  unfold raw0A
  rw [h2]
  show some (Instr.cmpne _ _ _ _ _) = _
  rw [e0, e1, e2, e3, e4]

theorem EncodeRoundTrip.cmplt (sb : BitVec 1) (p : BitVec 3) (d : BitVec 3) (a : BitVec 5) (b : BitVec 5) : EncodeRoundTrip.Statement (.cmplt sb p d a b) := by
  intro w h hw
  refine decodeWord_of_raw h ?_ hw
  obtain rfl := Option.some.inj h
  obtain ⟨h1, h2, e0, e1, e2, e3, e4⟩ := layout7 335544322 10 2 sb p d a b rfl (by decide) (by decide)
  rw [raw_maj0A _ h1]
  unfold raw0A
  rw [h2]
  show some (Instr.cmplt _ _ _ _ _) = _
  rw [e0, e1, e2, e3, e4]

theorem EncodeRoundTrip.cmple (sb : BitVec 1) (p : BitVec 3) (d : BitVec 3) (a : BitVec 5) (b : BitVec 5) : EncodeRoundTrip.Statement (.cmple sb p d a b) := by
  intro w h hw
  refine decodeWord_of_raw h ?_ hw
  obtain rfl := Option.some.inj h
  obtain ⟨h1, h2, e0, e1, e2, e3, e4⟩ := layout7 335544323 10 3 sb p d a b rfl (by decide) (by decide)
  rw [raw_maj0A _ h1]
  unfold raw0A
  rw [h2]
  show some (Instr.cmple _ _ _ _ _) = _
  rw [e0, e1, e2, e3, e4]

theorem EncodeRoundTrip.cmpltn (sb : BitVec 1) (p : BitVec 3) (d : BitVec 3) (a : BitVec 5) (b : BitVec 5) : EncodeRoundTrip.Statement (.cmpltn sb p d a b) := by
  intro w h hw
  refine decodeWord_of_raw h ?_ hw
  obtain rfl := Option.some.inj h
  obtain ⟨h1, h2, e0, e1, e2, e3, e4⟩ := layout7 335544324 10 4 sb p d a b rfl (by decide) (by decide)
  rw [raw_maj0A _ h1]
  unfold raw0A
  rw [h2]
  show some (Instr.cmpltn _ _ _ _ _) = _
  rw [e0, e1, e2, e3, e4]

theorem EncodeRoundTrip.cmplen (sb : BitVec 1) (p : BitVec 3) (d : BitVec 3) (a : BitVec 5) (b : BitVec 5) : EncodeRoundTrip.Statement (.cmplen sb p d a b) := by
  intro w h hw
  refine decodeWord_of_raw h ?_ hw
  obtain rfl := Option.some.inj h
  obtain ⟨h1, h2, e0, e1, e2, e3, e4⟩ := layout7 335544325 10 5 sb p d a b rfl (by decide) (by decide)
  rw [raw_maj0A _ h1]
  unfold raw0A
  rw [h2]
  show some (Instr.cmplen _ _ _ _ _) = _
  rw [e0, e1, e2, e3, e4]

theorem EncodeRoundTrip.pand (sb : BitVec 1) (p : BitVec 3) (d : BitVec 3) (a : BitVec 3) (b : BitVec 3) : EncodeRoundTrip.Statement (.pand sb p d a b) := by
  intro w h hw
  refine decodeWord_of_raw h ?_ hw
  obtain rfl := Option.some.inj h
  obtain ⟨h1, h2, e0, e1, e2, e3, e4⟩ := layout8 335544328 10 8 sb p d a b rfl (by decide) (by decide)
  rw [raw_maj0A _ h1]
  unfold raw0A
  rw [h2]
  show some (Instr.pand _ _ _ _ _) = _
  rw [e0, e1, e2, e3, e4]

theorem EncodeRoundTrip.por (sb : BitVec 1) (p : BitVec 3) (d : BitVec 3) (a : BitVec 3) (b : BitVec 3) : EncodeRoundTrip.Statement (.por sb p d a b) := by
  intro w h hw
  refine decodeWord_of_raw h ?_ hw
  obtain rfl := Option.some.inj h
  obtain ⟨h1, h2, e0, e1, e2, e3, e4⟩ := layout8 335544329 10 9 sb p d a b rfl (by decide) (by decide)
  rw [raw_maj0A _ h1]
  unfold raw0A
  rw [h2]
  show some (Instr.por _ _ _ _ _) = _
  rw [e0, e1, e2, e3, e4]

theorem EncodeRoundTrip.pxor (sb : BitVec 1) (p : BitVec 3) (d : BitVec 3) (a : BitVec 3) (b : BitVec 3) : EncodeRoundTrip.Statement (.pxor sb p d a b) := by
  intro w h hw
  refine decodeWord_of_raw h ?_ hw
  obtain rfl := Option.some.inj h
  obtain ⟨h1, h2, e0, e1, e2, e3, e4⟩ := layout8 335544330 10 10 sb p d a b rfl (by decide) (by decide)
  rw [raw_maj0A _ h1]
  unfold raw0A
  rw [h2]
  show some (Instr.pxor _ _ _ _ _) = _
  rw [e0, e1, e2, e3, e4]

theorem EncodeRoundTrip.pnot (sb : BitVec 1) (p : BitVec 3) (d : BitVec 3) (a : BitVec 3) : EncodeRoundTrip.Statement (.pnot sb p d a) := by
  intro w h hw
  refine decodeWord_of_raw h ?_ hw
  obtain rfl := Option.some.inj h
  obtain ⟨h1, h2, e0, e1, e2, e3⟩ := layout9 335544331 10 11 sb p d a rfl (by decide) (by decide)
  rw [raw_maj0A _ h1]
  unfold raw0A
  rw [h2]
  show some (Instr.pnot _ _ _ _) = _
  rw [e0, e1, e2, e3]

theorem EncodeRoundTrip.br (sb : BitVec 1) (p : BitVec 3) (imm : BitVec 20) : EncodeRoundTrip.Statement (.br sb p imm) := by
  intro w h hw
  refine decodeWord_of_raw h ?_ hw
  obtain rfl := Option.some.inj h
  obtain ⟨h1, h2, e0, e1, e2⟩ := layout10 369098752 11 0 sb p imm rfl (by decide) (by decide)
  rw [raw_maj0B _ h1]
  unfold raw0B
  rw [h2]
  show some (Instr.br _ _ _) = _
  rw [e0, e1, e2]

theorem EncodeRoundTrip.brn (sb : BitVec 1) (p : BitVec 3) (imm : BitVec 20) : EncodeRoundTrip.Statement (.brn sb p imm) := by
  intro w h hw
  refine decodeWord_of_raw h ?_ hw
  obtain rfl := Option.some.inj h
  obtain ⟨h1, h2, e0, e1, e2⟩ := layout10 370147328 11 1 sb p imm rfl (by decide) (by decide)
  rw [raw_maj0B _ h1]
  unfold raw0B
  rw [h2]
  show some (Instr.brn _ _ _) = _
  rw [e0, e1, e2]

theorem EncodeRoundTrip.brt (sb : BitVec 1) (p : BitVec 3) (imm : BitVec 20) : EncodeRoundTrip.Statement (.brt sb p imm) := by
  intro w h hw
  refine decodeWord_of_raw h ?_ hw
  obtain rfl := Option.some.inj h
  obtain ⟨h1, h2, e0, e1, e2⟩ := layout10 371195904 11 2 sb p imm rfl (by decide) (by decide)
  rw [raw_maj0B _ h1]
  unfold raw0B
  rw [h2]
  show some (Instr.brt _ _ _) = _
  rw [e0, e1, e2]

theorem EncodeRoundTrip.call (sb : BitVec 1) (p : BitVec 3) (imm : BitVec 20) : EncodeRoundTrip.Statement (.call sb p imm) := by
  intro w h hw
  refine decodeWord_of_raw h ?_ hw
  obtain rfl := Option.some.inj h
  obtain ⟨h1, e0, e1, e2⟩ := layout11 402653184 12 sb p imm rfl (by decide)
  rw [raw_maj0C _ h1]
  unfold raw0C
  show some (Instr.call _ _ _) = _
  rw [e0, e1, e2]

theorem EncodeRoundTrip.jr (sb : BitVec 1) (p : BitVec 3) (a : BitVec 5) (imm : BitVec 10) : EncodeRoundTrip.Statement (.jr sb p a imm) := by
  intro w h hw
  refine decodeWord_of_raw h ?_ hw
  obtain rfl := Option.some.inj h
  obtain ⟨h1, h2, e0, e1, e2, e3⟩ := layout12 436207616 13 0 sb p a imm rfl (by decide) (by decide)
  rw [raw_maj0D _ h1]
  unfold raw0D
  rw [h2]
  show some (Instr.jr _ _ _ _) = _
  rw [e0, e1, e2, e3]

theorem EncodeRoundTrip.jtb (sb : BitVec 1) (p : BitVec 3) (d : BitVec 5) (a : BitVec 5) (l : BitVec 10) : EncodeRoundTrip.Statement (.jtb sb p d a l) := by
  intro w h hw
  refine decodeWord_of_raw h ?_ hw
  obtain rfl := Option.some.inj h
  obtain ⟨h1, h2, e0, e1, e2, e3, e4⟩ := layout13 436208640 13 1 sb p d a l rfl (by decide) (by decide)
  rw [raw_maj0D _ h1]
  unfold raw0D
  rw [h2]
  show some (Instr.jtb _ _ _ _ _) = _
  rw [e0, e1, e2, e3, e4]

theorem EncodeRoundTrip.loop (sb : BitVec 1) (p : BitVec 3) (a : BitVec 5) (imm : BitVec 12) : EncodeRoundTrip.Statement (.loop sb p a imm) := by
  intro w h hw
  refine decodeWord_of_raw h ?_ hw
  obtain rfl := Option.some.inj h
  obtain ⟨h1, e0, e1, e2, e3⟩ := layout14 469762048 14 sb p a imm rfl (by decide)
  rw [raw_maj0E _ h1]
  unfold raw0E
  show some (Instr.loop _ _ _ _) = _
  rw [e0, e1, e2, e3]

theorem EncodeRoundTrip.flip (sb : BitVec 1) (p : BitVec 3) : EncodeRoundTrip.Statement (.flip sb p) := by
  intro w h hw
  refine decodeWord_of_raw h ?_ hw
  obtain rfl := Option.some.inj h
  obtain ⟨h1, h2, e0, e1⟩ := layout15 503316480 15 0 sb p rfl (by decide) (by decide)
  rw [raw_maj0F _ h1]
  unfold raw0F
  rw [h2]
  show some (Instr.flip _ _) = _
  rw [e0, e1]

theorem EncodeRoundTrip.rdh (sb : BitVec 1) (p : BitVec 3) (d : BitVec 5) (a : BitVec 5) (b : BitVec 5) : EncodeRoundTrip.Statement (.rdh sb p d a b) := by
  intro w h hw
  refine decodeWord_of_raw h ?_ hw
  obtain rfl := Option.some.inj h
  obtain ⟨h1, h2, e0, e1, e2, e3, e4⟩ := layout4 503316481 15 1 sb p d a b rfl (by decide) (by decide)
  rw [raw_maj0F _ h1]
  unfold raw0F
  rw [h2]
  show some (Instr.rdh _ _ _ _ _) = _
  rw [e0, e1, e2, e3, e4]

theorem EncodeRoundTrip.spost (sb : BitVec 1) (p : BitVec 3) (v : BitVec 2) (k : BitVec 3) : EncodeRoundTrip.Statement (.spost sb p v k) := by
  intro w h hw
  refine decodeWord_of_raw h ?_ hw
  obtain rfl := Option.some.inj h
  obtain ⟨h1, h2, e0, e1, e2, e3⟩ := layout16 503316482 15 2 sb p v k rfl (by decide) (by decide)
  rw [raw_maj0F _ h1]
  unfold raw0F
  rw [h2]
  show some (Instr.spost _ _ _ _) = _
  rw [e0, e1, e2, e3]

theorem EncodeRoundTrip.swait (sb : BitVec 1) (p : BitVec 3) (k : BitVec 3) : EncodeRoundTrip.Statement (.swait sb p k) := by
  intro w h hw
  refine decodeWord_of_raw h ?_ hw
  obtain rfl := Option.some.inj h
  obtain ⟨h1, h2, e0, e1, e2⟩ := layout17 503316483 15 3 sb p k rfl (by decide) (by decide)
  rw [raw_maj0F _ h1]
  unfold raw0F
  rw [h2]
  show some (Instr.swait _ _ _) = _
  rw [e0, e1, e2]

theorem EncodeRoundTrip.bqput (sb : BitVec 1) (p : BitVec 3) (v : BitVec 2) (k : BitVec 3) : EncodeRoundTrip.Statement (.bqput sb p v k) := by
  intro w h hw
  refine decodeWord_of_raw h ?_ hw
  obtain rfl := Option.some.inj h
  obtain ⟨h1, h2, e0, e1, e2, e3⟩ := layout18 503316484 15 4 sb p v k rfl (by decide) (by decide)
  rw [raw_maj0F _ h1]
  unfold raw0F
  rw [h2]
  show some (Instr.bqput _ _ _ _) = _
  rw [e0, e1, e2, e3]

theorem EncodeRoundTrip.nop (sb : BitVec 1) (p : BitVec 3) : EncodeRoundTrip.Statement (.nop sb p) := by
  intro w h hw
  refine decodeWord_of_raw h ?_ hw
  obtain rfl := Option.some.inj h
  obtain ⟨h1, h2, e0, e1⟩ := layout15 503316485 15 5 sb p rfl (by decide) (by decide)
  rw [raw_maj0F _ h1]
  unfold raw0F
  rw [h2]
  show some (Instr.nop _ _) = _
  rw [e0, e1]

theorem EncodeRoundTrip.exit (sb : BitVec 1) (p : BitVec 3) : EncodeRoundTrip.Statement (.exit sb p) := by
  intro w h hw
  refine decodeWord_of_raw h ?_ hw
  obtain rfl := Option.some.inj h
  obtain ⟨h1, h2, e0, e1⟩ := layout15 503316486 15 6 sb p rfl (by decide) (by decide)
  rw [raw_maj0F _ h1]
  unfold raw0F
  rw [h2]
  show some (Instr.exit _ _) = _
  rw [e0, e1]

theorem EncodeRoundTrip.bqbr (sb : BitVec 1) (imm : BitVec 20) : EncodeRoundTrip.Statement (.bqbr sb imm) := by
  intro w h hw
  refine decodeWord_of_raw h ?_ hw
  obtain rfl := Option.some.inj h
  obtain ⟨h1, h2, e0, e1⟩ := layout19 536870912 16 0 sb imm rfl (by decide) (by decide)
  rw [raw_maj10 _ h1]
  unfold raw10
  rw [h2]
  show some (Instr.bqbr _ _) = _
  rw [e0, e1]

theorem EncodeRoundTrip.bqbrn (sb : BitVec 1) (imm : BitVec 20) : EncodeRoundTrip.Statement (.bqbrn sb imm) := by
  intro w h hw
  refine decodeWord_of_raw h ?_ hw
  obtain rfl := Option.some.inj h
  obtain ⟨h1, h2, e0, e1⟩ := layout19 537919488 16 1 sb imm rfl (by decide) (by decide)
  rw [raw_maj10 _ h1]
  unfold raw10
  rw [h2]
  show some (Instr.bqbrn _ _) = _
  rw [e0, e1]

theorem EncodeRoundTrip.bqbrt (sb : BitVec 1) (imm : BitVec 20) : EncodeRoundTrip.Statement (.bqbrt sb imm) := by
  intro w h hw
  refine decodeWord_of_raw h ?_ hw
  obtain rfl := Option.some.inj h
  obtain ⟨h1, h2, e0, e1⟩ := layout19 538968064 16 2 sb imm rfl (by decide) (by decide)
  rw [raw_maj10 _ h1]
  unfold raw10
  rw [h2]
  show some (Instr.bqbrt _ _) = _
  rw [e0, e1]

theorem EncodeRoundTrip.trap (sb : BitVec 1) (p : BitVec 3) (c : BitVec 10) : EncodeRoundTrip.Statement (.trap sb p c) := by
  intro w h hw
  refine decodeWord_of_raw h ?_ hw
  obtain rfl := Option.some.inj h
  obtain ⟨h1, h2, e0, e1, e2⟩ := layout20 570425344 17 0 sb p c rfl (by decide) (by decide)
  rw [raw_maj11 _ h1]
  unfold raw11
  rw [h2]
  show some (Instr.trap _ _ _) = _
  rw [e0, e1, e2]

theorem EncodeRoundTrip.eret (sb : BitVec 1) (p : BitVec 3) : EncodeRoundTrip.Statement (.eret sb p) := by
  intro w h hw
  refine decodeWord_of_raw h ?_ hw
  obtain rfl := Option.some.inj h
  obtain ⟨h1, h2, e0, e1⟩ := layout15 570425345 17 1 sb p rfl (by decide) (by decide)
  rw [raw_maj11 _ h1]
  unfold raw11
  rw [h2]
  show some (Instr.eret _ _) = _
  rw [e0, e1]

theorem EncodeRoundTrip.srd (sb : BitVec 1) (p : BitVec 3) (d : BitVec 5) (n : BitVec 10) : EncodeRoundTrip.Statement (.srd sb p d n) := by
  intro w h hw
  refine decodeWord_of_raw h ?_ hw
  obtain rfl := Option.some.inj h
  obtain ⟨h1, h2, e0, e1, e2, e3⟩ := layout21 570425346 17 2 sb p d n rfl (by decide) (by decide)
  rw [raw_maj11 _ h1]
  unfold raw11
  rw [h2]
  show some (Instr.srd _ _ _ _) = _
  rw [e0, e1, e2, e3]

theorem EncodeRoundTrip.swr (sb : BitVec 1) (p : BitVec 3) (d : BitVec 5) (n : BitVec 10) : EncodeRoundTrip.Statement (.swr sb p d n) := by
  intro w h hw
  refine decodeWord_of_raw h ?_ hw
  obtain rfl := Option.some.inj h
  obtain ⟨h1, h2, e0, e1, e2, e3⟩ := layout21 570425347 17 3 sb p d n rfl (by decide) (by decide)
  rw [raw_maj11 _ h1]
  unfold raw11
  rw [h2]
  show some (Instr.swr _ _ _ _) = _
  rw [e0, e1, e2, e3]

theorem EncodeRoundTrip.brk (sb : BitVec 1) (x : BitVec 25) : EncodeRoundTrip.Statement (.brk sb x) := by
  intro w h hw
  refine decodeWord_of_raw h ?_ hw
  obtain rfl := Option.some.inj h
  obtain ⟨h1, e0, e1⟩ := layout22 2113929216 63 sb x rfl (by decide)
  rw [raw_maj3F _ h1]
  unfold raw3F
  show some (Instr.brk _ _) = _
  rw [e0, e1]

theorem EncodeRoundTrip.lds (sb : BitVec 1) (p : BitVec 3) (d : BitVec 5) (b : BitVec 5) (z : BitVec 2) (o : BitVec 1) (imm : BitVec 9) : EncodeRoundTrip.Statement (.lds sb p d b z o imm) := by
  intro w h hw
  refine decodeWord_of_raw h ?_ hw
  obtain rfl := Option.some.inj h
  obtain ⟨h1, e0, e1, e2, e3, e4, e5, e6⟩ := layout23 671088640 20 sb p d b z o imm rfl (by decide)
  rw [raw_maj14 _ h1]
  unfold raw14
  show some (Instr.lds _ _ _ _ _ _ _) = _
  rw [e0, e1, e2, e3, e4, e5, e6]

theorem EncodeRoundTrip.sts (sb : BitVec 1) (p : BitVec 3) (d : BitVec 5) (b : BitVec 5) (z : BitVec 2) (o : BitVec 1) (imm : BitVec 9) : EncodeRoundTrip.Statement (.sts sb p d b z o imm) := by
  intro w h hw
  refine decodeWord_of_raw h ?_ hw
  obtain rfl := Option.some.inj h
  obtain ⟨h1, e0, e1, e2, e3, e4, e5, e6⟩ := layout23 704643072 21 sb p d b z o imm rfl (by decide)
  rw [raw_maj15 _ h1]
  unfold raw15
  show some (Instr.sts _ _ _ _ _ _ _) = _
  rw [e0, e1, e2, e3, e4, e5, e6]

theorem EncodeRoundTrip.ldq (sb : BitVec 1) (p : BitVec 3) (q : BitVec 2) (b : BitVec 5) (o : BitVec 1) (imm : BitVec 9) : EncodeRoundTrip.Statement (.ldq sb p q b o imm) := by
  intro w h hw
  refine decodeWord_of_raw h ?_ hw
  obtain rfl := Option.some.inj h
  obtain ⟨h1, e0, e1, e2, e3, e4, e5⟩ := layout24 738197504 22 sb p q b o imm rfl (by decide)
  rw [raw_maj16 _ h1]
  unfold raw16
  show some (Instr.ldq _ _ _ _ _ _) = _
  rw [e0, e1, e2, e3, e4, e5]

theorem EncodeRoundTrip.stq (sb : BitVec 1) (p : BitVec 3) (q : BitVec 1) (b : BitVec 5) (o : BitVec 1) (imm : BitVec 9) : EncodeRoundTrip.Statement (.stq sb p q b o imm) := by
  intro w h hw
  refine decodeWord_of_raw h ?_ hw
  obtain rfl := Option.some.inj h
  obtain ⟨h1, e0, e1, e2, e3, e4, e5⟩ := layout25 771751936 23 sb p q b o imm rfl (by decide)
  rw [raw_maj17 _ h1]
  unfold raw17
  show some (Instr.stq _ _ _ _ _ _) = _
  rw [e0, e1, e2, e3, e4, e5]

theorem EncodeRoundTrip.qpush (sb : BitVec 1) (p : BitVec 3) (k : BitVec 2) (a : BitVec 5) : EncodeRoundTrip.Statement (.qpush sb p k a) := by
  intro w h hw
  refine decodeWord_of_raw h ?_ hw
  obtain rfl := Option.some.inj h
  obtain ⟨h1, h2, h3, e0, e1, e2, e3⟩ := layout26 805306368 24 0 0 sb p k a rfl (by decide) (by decide) (by decide)
  rw [raw_maj18 _ h1]
  unfold raw18
  rw [h2]
  rw [h3]
  show some (Instr.qpush _ _ _ _) = _
  rw [e0, e1, e2, e3]

theorem EncodeRoundTrip.qpushSq (sb : BitVec 1) (p : BitVec 3) (k : BitVec 2) (j : BitVec 1) : EncodeRoundTrip.Statement (.qpushSq sb p k j) := by
  intro w h hw
  refine decodeWord_of_raw h ?_ hw
  obtain rfl := Option.some.inj h
  obtain ⟨h1, h2, h3, e0, e1, e2, e3⟩ := layout27 805306496 24 0 1 sb p k j rfl (by decide) (by decide) (by decide)
  rw [raw_maj18 _ h1]
  unfold raw18
  rw [h2]
  rw [h3]
  show some (Instr.qpushSq _ _ _ _) = _
  rw [e0, e1, e2, e3]

theorem EncodeRoundTrip.sbind (sb : BitVec 1) (p : BitVec 3) (k : BitVec 3) (a : BitVec 5) (q : BitVec 5) : EncodeRoundTrip.Statement (.sbind sb p k a q) := by
  intro w h hw
  refine decodeWord_of_raw h ?_ hw
  obtain rfl := Option.some.inj h
  obtain ⟨h1, h2, e0, e1, e2, e3, e4⟩ := layout7 805306369 24 1 sb p k a q rfl (by decide) (by decide)
  rw [raw_maj18 _ h1]
  unfold raw18
  rw [h2]
  show some (Instr.sbind _ _ _ _ _) = _
  rw [e0, e1, e2, e3, e4]

theorem EncodeRoundTrip.sunbind (sb : BitVec 1) (p : BitVec 3) (k : BitVec 3) : EncodeRoundTrip.Statement (.sunbind sb p k) := by
  intro w h hw
  refine decodeWord_of_raw h ?_ hw
  obtain rfl := Option.some.inj h
  obtain ⟨h1, h2, e0, e1, e2⟩ := layout28 805306370 24 2 sb p k rfl (by decide) (by decide)
  rw [raw_maj18 _ h1]
  unfold raw18
  rw [h2]
  show some (Instr.sunbind _ _ _) = _
  rw [e0, e1, e2]

theorem EncodeRoundTrip.spos (sb : BitVec 1) (p : BitVec 3) (d : BitVec 5) (k : BitVec 3) : EncodeRoundTrip.Statement (.spos sb p d k) := by
  intro w h hw
  refine decodeWord_of_raw h ?_ hw
  obtain rfl := Option.some.inj h
  obtain ⟨h1, h2, e0, e1, e2, e3⟩ := layout29 805306371 24 3 sb p d k rfl (by decide) (by decide)
  rw [raw_maj18 _ h1]
  unfold raw18
  rw [h2]
  show some (Instr.spos _ _ _ _) = _
  rw [e0, e1, e2, e3]

theorem EncodeRoundTrip.lbqry (sb : BitVec 1) (p : BitVec 3) (d : BitVec 5) (k : BitVec 3) : EncodeRoundTrip.Statement (.lbqry sb p d k) := by
  intro w h hw
  refine decodeWord_of_raw h ?_ hw
  obtain rfl := Option.some.inj h
  obtain ⟨h1, h2, e0, e1, e2, e3⟩ := layout29 805306372 24 4 sb p d k rfl (by decide) (by decide)
  rw [raw_maj18 _ h1]
  unfold raw18
  rw [h2]
  show some (Instr.lbqry _ _ _ _) = _
  rw [e0, e1, e2, e3]

theorem EncodeRoundTrip.commit (sb : BitVec 1) (p : BitVec 3) (d : BitVec 5) (k : BitVec 3) : EncodeRoundTrip.Statement (.commit sb p d k) := by
  intro w h hw
  refine decodeWord_of_raw h ?_ hw
  obtain rfl := Option.some.inj h
  obtain ⟨h1, h2, e0, e1, e2, e3⟩ := layout29 805306373 24 5 sb p d k rfl (by decide) (by decide)
  rw [raw_maj18 _ h1]
  unfold raw18
  rw [h2]
  show some (Instr.commit _ _ _ _) = _
  rw [e0, e1, e2, e3]

theorem EncodeRoundTrip.vaddI32 (sb : BitVec 1) (c : BitVec 1) (m : BitVec 3) (d : BitVec 5) (a : BitVec 5) (b : BitVec 5) (q : BitVec 1) : EncodeRoundTrip.Statement (.vaddI32 sb c m d a b q) := by
  intro w h hw
  refine decodeWord_of_raw h ?_ hw
  obtain rfl := Option.some.inj h
  obtain ⟨h1, h2, e0, e1, e2, e3, e4, e5, e6⟩ := layout30 838860800 25 0 sb c m d a b q rfl (by decide) (by decide)
  rw [raw_maj19 _ h1]
  unfold raw19
  rw [h2]
  show some (Instr.vaddI32 _ _ _ _ _ _ _) = _
  rw [e0, e1, e2, e3, e4, e5, e6]

theorem EncodeRoundTrip.vsubI32 (sb : BitVec 1) (c : BitVec 1) (m : BitVec 3) (d : BitVec 5) (a : BitVec 5) (b : BitVec 5) (q : BitVec 1) : EncodeRoundTrip.Statement (.vsubI32 sb c m d a b q) := by
  intro w h hw
  refine decodeWord_of_raw h ?_ hw
  obtain rfl := Option.some.inj h
  obtain ⟨h1, h2, e0, e1, e2, e3, e4, e5, e6⟩ := layout30 838860801 25 1 sb c m d a b q rfl (by decide) (by decide)
  rw [raw_maj19 _ h1]
  unfold raw19
  rw [h2]
  show some (Instr.vsubI32 _ _ _ _ _ _ _) = _
  rw [e0, e1, e2, e3, e4, e5, e6]

theorem EncodeRoundTrip.vmulI32 (sb : BitVec 1) (c : BitVec 1) (m : BitVec 3) (d : BitVec 5) (a : BitVec 5) (b : BitVec 5) (q : BitVec 1) : EncodeRoundTrip.Statement (.vmulI32 sb c m d a b q) := by
  intro w h hw
  refine decodeWord_of_raw h ?_ hw
  obtain rfl := Option.some.inj h
  obtain ⟨h1, h2, e0, e1, e2, e3, e4, e5, e6⟩ := layout30 838860802 25 2 sb c m d a b q rfl (by decide) (by decide)
  rw [raw_maj19 _ h1]
  unfold raw19
  rw [h2]
  show some (Instr.vmulI32 _ _ _ _ _ _ _) = _
  rw [e0, e1, e2, e3, e4, e5, e6]

theorem EncodeRoundTrip.vmulhI32 (sb : BitVec 1) (c : BitVec 1) (m : BitVec 3) (d : BitVec 5) (a : BitVec 5) (b : BitVec 5) (q : BitVec 1) : EncodeRoundTrip.Statement (.vmulhI32 sb c m d a b q) := by
  intro w h hw
  refine decodeWord_of_raw h ?_ hw
  obtain rfl := Option.some.inj h
  obtain ⟨h1, h2, e0, e1, e2, e3, e4, e5, e6⟩ := layout30 838860803 25 3 sb c m d a b q rfl (by decide) (by decide)
  rw [raw_maj19 _ h1]
  unfold raw19
  rw [h2]
  show some (Instr.vmulhI32 _ _ _ _ _ _ _) = _
  rw [e0, e1, e2, e3, e4, e5, e6]

theorem EncodeRoundTrip.vmulhnI32 (sb : BitVec 1) (c : BitVec 1) (m : BitVec 3) (d : BitVec 5) (a : BitVec 5) (b : BitVec 5) (q : BitVec 1) : EncodeRoundTrip.Statement (.vmulhnI32 sb c m d a b q) := by
  intro w h hw
  refine decodeWord_of_raw h ?_ hw
  obtain rfl := Option.some.inj h
  obtain ⟨h1, h2, e0, e1, e2, e3, e4, e5, e6⟩ := layout30 838860804 25 4 sb c m d a b q rfl (by decide) (by decide)
  rw [raw_maj19 _ h1]
  unfold raw19
  rw [h2]
  show some (Instr.vmulhnI32 _ _ _ _ _ _ _) = _
  rw [e0, e1, e2, e3, e4, e5, e6]

theorem EncodeRoundTrip.vminI32 (sb : BitVec 1) (c : BitVec 1) (m : BitVec 3) (d : BitVec 5) (a : BitVec 5) (b : BitVec 5) (q : BitVec 1) : EncodeRoundTrip.Statement (.vminI32 sb c m d a b q) := by
  intro w h hw
  refine decodeWord_of_raw h ?_ hw
  obtain rfl := Option.some.inj h
  obtain ⟨h1, h2, e0, e1, e2, e3, e4, e5, e6⟩ := layout30 838860805 25 5 sb c m d a b q rfl (by decide) (by decide)
  rw [raw_maj19 _ h1]
  unfold raw19
  rw [h2]
  show some (Instr.vminI32 _ _ _ _ _ _ _) = _
  rw [e0, e1, e2, e3, e4, e5, e6]

theorem EncodeRoundTrip.vmaxI32 (sb : BitVec 1) (c : BitVec 1) (m : BitVec 3) (d : BitVec 5) (a : BitVec 5) (b : BitVec 5) (q : BitVec 1) : EncodeRoundTrip.Statement (.vmaxI32 sb c m d a b q) := by
  intro w h hw
  refine decodeWord_of_raw h ?_ hw
  obtain rfl := Option.some.inj h
  obtain ⟨h1, h2, e0, e1, e2, e3, e4, e5, e6⟩ := layout30 838860806 25 6 sb c m d a b q rfl (by decide) (by decide)
  rw [raw_maj19 _ h1]
  unfold raw19
  rw [h2]
  show some (Instr.vmaxI32 _ _ _ _ _ _ _) = _
  rw [e0, e1, e2, e3, e4, e5, e6]

theorem EncodeRoundTrip.vminnI32 (sb : BitVec 1) (c : BitVec 1) (m : BitVec 3) (d : BitVec 5) (a : BitVec 5) (b : BitVec 5) (q : BitVec 1) : EncodeRoundTrip.Statement (.vminnI32 sb c m d a b q) := by
  intro w h hw
  refine decodeWord_of_raw h ?_ hw
  obtain rfl := Option.some.inj h
  obtain ⟨h1, h2, e0, e1, e2, e3, e4, e5, e6⟩ := layout30 838860807 25 7 sb c m d a b q rfl (by decide) (by decide)
  rw [raw_maj19 _ h1]
  unfold raw19
  rw [h2]
  show some (Instr.vminnI32 _ _ _ _ _ _ _) = _
  rw [e0, e1, e2, e3, e4, e5, e6]

theorem EncodeRoundTrip.vmaxnI32 (sb : BitVec 1) (c : BitVec 1) (m : BitVec 3) (d : BitVec 5) (a : BitVec 5) (b : BitVec 5) (q : BitVec 1) : EncodeRoundTrip.Statement (.vmaxnI32 sb c m d a b q) := by
  intro w h hw
  refine decodeWord_of_raw h ?_ hw
  obtain rfl := Option.some.inj h
  obtain ⟨h1, h2, e0, e1, e2, e3, e4, e5, e6⟩ := layout30 838860808 25 8 sb c m d a b q rfl (by decide) (by decide)
  rw [raw_maj19 _ h1]
  unfold raw19
  rw [h2]
  show some (Instr.vmaxnI32 _ _ _ _ _ _ _) = _
  rw [e0, e1, e2, e3, e4, e5, e6]

theorem EncodeRoundTrip.vandI32 (sb : BitVec 1) (c : BitVec 1) (m : BitVec 3) (d : BitVec 5) (a : BitVec 5) (b : BitVec 5) (q : BitVec 1) : EncodeRoundTrip.Statement (.vandI32 sb c m d a b q) := by
  intro w h hw
  refine decodeWord_of_raw h ?_ hw
  obtain rfl := Option.some.inj h
  obtain ⟨h1, h2, e0, e1, e2, e3, e4, e5, e6⟩ := layout30 838860809 25 9 sb c m d a b q rfl (by decide) (by decide)
  rw [raw_maj19 _ h1]
  unfold raw19
  rw [h2]
  show some (Instr.vandI32 _ _ _ _ _ _ _) = _
  rw [e0, e1, e2, e3, e4, e5, e6]

theorem EncodeRoundTrip.vorI32 (sb : BitVec 1) (c : BitVec 1) (m : BitVec 3) (d : BitVec 5) (a : BitVec 5) (b : BitVec 5) (q : BitVec 1) : EncodeRoundTrip.Statement (.vorI32 sb c m d a b q) := by
  intro w h hw
  refine decodeWord_of_raw h ?_ hw
  obtain rfl := Option.some.inj h
  obtain ⟨h1, h2, e0, e1, e2, e3, e4, e5, e6⟩ := layout30 838860810 25 10 sb c m d a b q rfl (by decide) (by decide)
  rw [raw_maj19 _ h1]
  unfold raw19
  rw [h2]
  show some (Instr.vorI32 _ _ _ _ _ _ _) = _
  rw [e0, e1, e2, e3, e4, e5, e6]

theorem EncodeRoundTrip.vxorI32 (sb : BitVec 1) (c : BitVec 1) (m : BitVec 3) (d : BitVec 5) (a : BitVec 5) (b : BitVec 5) (q : BitVec 1) : EncodeRoundTrip.Statement (.vxorI32 sb c m d a b q) := by
  intro w h hw
  refine decodeWord_of_raw h ?_ hw
  obtain rfl := Option.some.inj h
  obtain ⟨h1, h2, e0, e1, e2, e3, e4, e5, e6⟩ := layout30 838860811 25 11 sb c m d a b q rfl (by decide) (by decide)
  rw [raw_maj19 _ h1]
  unfold raw19
  rw [h2]
  show some (Instr.vxorI32 _ _ _ _ _ _ _) = _
  rw [e0, e1, e2, e3, e4, e5, e6]

theorem EncodeRoundTrip.vshlI32 (sb : BitVec 1) (c : BitVec 1) (m : BitVec 3) (d : BitVec 5) (a : BitVec 5) (b : BitVec 5) (q : BitVec 1) : EncodeRoundTrip.Statement (.vshlI32 sb c m d a b q) := by
  intro w h hw
  refine decodeWord_of_raw h ?_ hw
  obtain rfl := Option.some.inj h
  obtain ⟨h1, h2, e0, e1, e2, e3, e4, e5, e6⟩ := layout30 838860812 25 12 sb c m d a b q rfl (by decide) (by decide)
  rw [raw_maj19 _ h1]
  unfold raw19
  rw [h2]
  show some (Instr.vshlI32 _ _ _ _ _ _ _) = _
  rw [e0, e1, e2, e3, e4, e5, e6]

theorem EncodeRoundTrip.vshrI32 (sb : BitVec 1) (c : BitVec 1) (m : BitVec 3) (d : BitVec 5) (a : BitVec 5) (b : BitVec 5) (q : BitVec 1) : EncodeRoundTrip.Statement (.vshrI32 sb c m d a b q) := by
  intro w h hw
  refine decodeWord_of_raw h ?_ hw
  obtain rfl := Option.some.inj h
  obtain ⟨h1, h2, e0, e1, e2, e3, e4, e5, e6⟩ := layout30 838860813 25 13 sb c m d a b q rfl (by decide) (by decide)
  rw [raw_maj19 _ h1]
  unfold raw19
  rw [h2]
  show some (Instr.vshrI32 _ _ _ _ _ _ _) = _
  rw [e0, e1, e2, e3, e4, e5, e6]

theorem EncodeRoundTrip.vsraI32 (sb : BitVec 1) (c : BitVec 1) (m : BitVec 3) (d : BitVec 5) (a : BitVec 5) (b : BitVec 5) (q : BitVec 1) : EncodeRoundTrip.Statement (.vsraI32 sb c m d a b q) := by
  intro w h hw
  refine decodeWord_of_raw h ?_ hw
  obtain rfl := Option.some.inj h
  obtain ⟨h1, h2, e0, e1, e2, e3, e4, e5, e6⟩ := layout30 838860814 25 14 sb c m d a b q rfl (by decide) (by decide)
  rw [raw_maj19 _ h1]
  unfold raw19
  rw [h2]
  show some (Instr.vsraI32 _ _ _ _ _ _ _) = _
  rw [e0, e1, e2, e3, e4, e5, e6]

theorem EncodeRoundTrip.vcmpeqI32 (sb : BitVec 1) (c : BitVec 1) (m : BitVec 3) (d : BitVec 3) (a : BitVec 5) (b : BitVec 5) (q : BitVec 1) : EncodeRoundTrip.Statement (.vcmpeqI32 sb c m d a b q) := by
  intro w h hw
  refine decodeWord_of_raw h ?_ hw
  obtain rfl := Option.some.inj h
  obtain ⟨h1, h2, e0, e1, e2, e3, e4, e5, e6⟩ := layout31 838860815 25 15 sb c m d a b q rfl (by decide) (by decide)
  rw [raw_maj19 _ h1]
  unfold raw19
  rw [h2]
  show some (Instr.vcmpeqI32 _ _ _ _ _ _ _) = _
  rw [e0, e1, e2, e3, e4, e5, e6]

theorem EncodeRoundTrip.vcmpltI32 (sb : BitVec 1) (c : BitVec 1) (m : BitVec 3) (d : BitVec 3) (a : BitVec 5) (b : BitVec 5) (q : BitVec 1) : EncodeRoundTrip.Statement (.vcmpltI32 sb c m d a b q) := by
  intro w h hw
  refine decodeWord_of_raw h ?_ hw
  obtain rfl := Option.some.inj h
  obtain ⟨h1, h2, e0, e1, e2, e3, e4, e5, e6⟩ := layout31 838860816 25 16 sb c m d a b q rfl (by decide) (by decide)
  rw [raw_maj19 _ h1]
  unfold raw19
  rw [h2]
  show some (Instr.vcmpltI32 _ _ _ _ _ _ _) = _
  rw [e0, e1, e2, e3, e4, e5, e6]

theorem EncodeRoundTrip.vcmpltnI32 (sb : BitVec 1) (c : BitVec 1) (m : BitVec 3) (d : BitVec 3) (a : BitVec 5) (b : BitVec 5) (q : BitVec 1) : EncodeRoundTrip.Statement (.vcmpltnI32 sb c m d a b q) := by
  intro w h hw
  refine decodeWord_of_raw h ?_ hw
  obtain rfl := Option.some.inj h
  obtain ⟨h1, h2, e0, e1, e2, e3, e4, e5, e6⟩ := layout31 838860817 25 17 sb c m d a b q rfl (by decide) (by decide)
  rw [raw_maj19 _ h1]
  unfold raw19
  rw [h2]
  show some (Instr.vcmpltnI32 _ _ _ _ _ _ _) = _
  rw [e0, e1, e2, e3, e4, e5, e6]

theorem EncodeRoundTrip.vsel (sb : BitVec 1) (c : BitVec 1) (m : BitVec 3) (d : BitVec 5) (a : BitVec 5) (b : BitVec 5) (q : BitVec 1) : EncodeRoundTrip.Statement (.vsel sb c m d a b q) := by
  intro w h hw
  refine decodeWord_of_raw h ?_ hw
  obtain rfl := Option.some.inj h
  obtain ⟨h1, h2, e0, e1, e2, e3, e4, e5, e6⟩ := layout30 838860818 25 18 sb c m d a b q rfl (by decide) (by decide)
  rw [raw_maj19 _ h1]
  unfold raw19
  rw [h2]
  show some (Instr.vsel _ _ _ _ _ _ _) = _
  rw [e0, e1, e2, e3, e4, e5, e6]

theorem EncodeRoundTrip.vaddF32 (sb : BitVec 1) (c : BitVec 1) (m : BitVec 3) (d : BitVec 5) (a : BitVec 5) (b : BitVec 5) (q : BitVec 1) : EncodeRoundTrip.Statement (.vaddF32 sb c m d a b q) := by
  intro w h hw
  refine decodeWord_of_raw h ?_ hw
  obtain rfl := Option.some.inj h
  obtain ⟨h1, h2, e0, e1, e2, e3, e4, e5, e6⟩ := layout30 872415232 26 0 sb c m d a b q rfl (by decide) (by decide)
  rw [raw_maj1A _ h1]
  unfold raw1A
  rw [h2]
  show some (Instr.vaddF32 _ _ _ _ _ _ _) = _
  rw [e0, e1, e2, e3, e4, e5, e6]

theorem EncodeRoundTrip.vsubF32 (sb : BitVec 1) (c : BitVec 1) (m : BitVec 3) (d : BitVec 5) (a : BitVec 5) (b : BitVec 5) (q : BitVec 1) : EncodeRoundTrip.Statement (.vsubF32 sb c m d a b q) := by
  intro w h hw
  refine decodeWord_of_raw h ?_ hw
  obtain rfl := Option.some.inj h
  obtain ⟨h1, h2, e0, e1, e2, e3, e4, e5, e6⟩ := layout30 872415233 26 1 sb c m d a b q rfl (by decide) (by decide)
  rw [raw_maj1A _ h1]
  unfold raw1A
  rw [h2]
  show some (Instr.vsubF32 _ _ _ _ _ _ _) = _
  rw [e0, e1, e2, e3, e4, e5, e6]

theorem EncodeRoundTrip.vmulF32 (sb : BitVec 1) (c : BitVec 1) (m : BitVec 3) (d : BitVec 5) (a : BitVec 5) (b : BitVec 5) (q : BitVec 1) : EncodeRoundTrip.Statement (.vmulF32 sb c m d a b q) := by
  intro w h hw
  refine decodeWord_of_raw h ?_ hw
  obtain rfl := Option.some.inj h
  obtain ⟨h1, h2, e0, e1, e2, e3, e4, e5, e6⟩ := layout30 872415234 26 2 sb c m d a b q rfl (by decide) (by decide)
  rw [raw_maj1A _ h1]
  unfold raw1A
  rw [h2]
  show some (Instr.vmulF32 _ _ _ _ _ _ _) = _
  rw [e0, e1, e2, e3, e4, e5, e6]

theorem EncodeRoundTrip.vminF32 (sb : BitVec 1) (c : BitVec 1) (m : BitVec 3) (d : BitVec 5) (a : BitVec 5) (b : BitVec 5) (q : BitVec 1) : EncodeRoundTrip.Statement (.vminF32 sb c m d a b q) := by
  intro w h hw
  refine decodeWord_of_raw h ?_ hw
  obtain rfl := Option.some.inj h
  obtain ⟨h1, h2, e0, e1, e2, e3, e4, e5, e6⟩ := layout30 872415235 26 3 sb c m d a b q rfl (by decide) (by decide)
  rw [raw_maj1A _ h1]
  unfold raw1A
  rw [h2]
  show some (Instr.vminF32 _ _ _ _ _ _ _) = _
  rw [e0, e1, e2, e3, e4, e5, e6]

theorem EncodeRoundTrip.vmaxF32 (sb : BitVec 1) (c : BitVec 1) (m : BitVec 3) (d : BitVec 5) (a : BitVec 5) (b : BitVec 5) (q : BitVec 1) : EncodeRoundTrip.Statement (.vmaxF32 sb c m d a b q) := by
  intro w h hw
  refine decodeWord_of_raw h ?_ hw
  obtain rfl := Option.some.inj h
  obtain ⟨h1, h2, e0, e1, e2, e3, e4, e5, e6⟩ := layout30 872415236 26 4 sb c m d a b q rfl (by decide) (by decide)
  rw [raw_maj1A _ h1]
  unfold raw1A
  rw [h2]
  show some (Instr.vmaxF32 _ _ _ _ _ _ _) = _
  rw [e0, e1, e2, e3, e4, e5, e6]

theorem EncodeRoundTrip.vabsF32 (sb : BitVec 1) (c : BitVec 1) (m : BitVec 3) (d : BitVec 5) (a : BitVec 5) (q : BitVec 1) : EncodeRoundTrip.Statement (.vabsF32 sb c m d a q) := by
  intro w h hw
  refine decodeWord_of_raw h ?_ hw
  obtain rfl := Option.some.inj h
  obtain ⟨h1, h2, e0, e1, e2, e3, e4, e5⟩ := layout32 872415237 26 5 sb c m d a q rfl (by decide) (by decide)
  rw [raw_maj1A _ h1]
  unfold raw1A
  rw [h2]
  show some (Instr.vabsF32 _ _ _ _ _ _) = _
  rw [e0, e1, e2, e3, e4, e5]

theorem EncodeRoundTrip.vnegF32 (sb : BitVec 1) (c : BitVec 1) (m : BitVec 3) (d : BitVec 5) (a : BitVec 5) (q : BitVec 1) : EncodeRoundTrip.Statement (.vnegF32 sb c m d a q) := by
  intro w h hw
  refine decodeWord_of_raw h ?_ hw
  obtain rfl := Option.some.inj h
  obtain ⟨h1, h2, e0, e1, e2, e3, e4, e5⟩ := layout32 872415238 26 6 sb c m d a q rfl (by decide) (by decide)
  rw [raw_maj1A _ h1]
  unfold raw1A
  rw [h2]
  show some (Instr.vnegF32 _ _ _ _ _ _) = _
  rw [e0, e1, e2, e3, e4, e5]

theorem EncodeRoundTrip.vcmpeqF32 (sb : BitVec 1) (c : BitVec 1) (m : BitVec 3) (d : BitVec 3) (a : BitVec 5) (b : BitVec 5) (q : BitVec 1) : EncodeRoundTrip.Statement (.vcmpeqF32 sb c m d a b q) := by
  intro w h hw
  refine decodeWord_of_raw h ?_ hw
  obtain rfl := Option.some.inj h
  obtain ⟨h1, h2, e0, e1, e2, e3, e4, e5, e6⟩ := layout31 872415239 26 7 sb c m d a b q rfl (by decide) (by decide)
  rw [raw_maj1A _ h1]
  unfold raw1A
  rw [h2]
  show some (Instr.vcmpeqF32 _ _ _ _ _ _ _) = _
  rw [e0, e1, e2, e3, e4, e5, e6]

theorem EncodeRoundTrip.vcmpltF32 (sb : BitVec 1) (c : BitVec 1) (m : BitVec 3) (d : BitVec 3) (a : BitVec 5) (b : BitVec 5) (q : BitVec 1) : EncodeRoundTrip.Statement (.vcmpltF32 sb c m d a b q) := by
  intro w h hw
  refine decodeWord_of_raw h ?_ hw
  obtain rfl := Option.some.inj h
  obtain ⟨h1, h2, e0, e1, e2, e3, e4, e5, e6⟩ := layout31 872415240 26 8 sb c m d a b q rfl (by decide) (by decide)
  rw [raw_maj1A _ h1]
  unfold raw1A
  rw [h2]
  show some (Instr.vcmpltF32 _ _ _ _ _ _ _) = _
  rw [e0, e1, e2, e3, e4, e5, e6]

theorem EncodeRoundTrip.vcmpleF32 (sb : BitVec 1) (c : BitVec 1) (m : BitVec 3) (d : BitVec 3) (a : BitVec 5) (b : BitVec 5) (q : BitVec 1) : EncodeRoundTrip.Statement (.vcmpleF32 sb c m d a b q) := by
  intro w h hw
  refine decodeWord_of_raw h ?_ hw
  obtain rfl := Option.some.inj h
  obtain ⟨h1, h2, e0, e1, e2, e3, e4, e5, e6⟩ := layout31 872415241 26 9 sb c m d a b q rfl (by decide) (by decide)
  rw [raw_maj1A _ h1]
  unfold raw1A
  rw [h2]
  show some (Instr.vcmpleF32 _ _ _ _ _ _ _) = _
  rw [e0, e1, e2, e3, e4, e5, e6]

theorem EncodeRoundTrip.vaddF16 (sb : BitVec 1) (c : BitVec 1) (m : BitVec 3) (d : BitVec 5) (a : BitVec 5) (b : BitVec 5) (q : BitVec 1) : EncodeRoundTrip.Statement (.vaddF16 sb c m d a b q) := by
  intro w h hw
  refine decodeWord_of_raw h ?_ hw
  obtain rfl := Option.some.inj h
  obtain ⟨h1, h2, e0, e1, e2, e3, e4, e5, e6⟩ := layout30 905969664 27 0 sb c m d a b q rfl (by decide) (by decide)
  rw [raw_maj1B _ h1]
  unfold raw1B
  rw [h2]
  show some (Instr.vaddF16 _ _ _ _ _ _ _) = _
  rw [e0, e1, e2, e3, e4, e5, e6]

theorem EncodeRoundTrip.vsubF16 (sb : BitVec 1) (c : BitVec 1) (m : BitVec 3) (d : BitVec 5) (a : BitVec 5) (b : BitVec 5) (q : BitVec 1) : EncodeRoundTrip.Statement (.vsubF16 sb c m d a b q) := by
  intro w h hw
  refine decodeWord_of_raw h ?_ hw
  obtain rfl := Option.some.inj h
  obtain ⟨h1, h2, e0, e1, e2, e3, e4, e5, e6⟩ := layout30 905969665 27 1 sb c m d a b q rfl (by decide) (by decide)
  rw [raw_maj1B _ h1]
  unfold raw1B
  rw [h2]
  show some (Instr.vsubF16 _ _ _ _ _ _ _) = _
  rw [e0, e1, e2, e3, e4, e5, e6]

theorem EncodeRoundTrip.vmulF16 (sb : BitVec 1) (c : BitVec 1) (m : BitVec 3) (d : BitVec 5) (a : BitVec 5) (b : BitVec 5) (q : BitVec 1) : EncodeRoundTrip.Statement (.vmulF16 sb c m d a b q) := by
  intro w h hw
  refine decodeWord_of_raw h ?_ hw
  obtain rfl := Option.some.inj h
  obtain ⟨h1, h2, e0, e1, e2, e3, e4, e5, e6⟩ := layout30 905969666 27 2 sb c m d a b q rfl (by decide) (by decide)
  rw [raw_maj1B _ h1]
  unfold raw1B
  rw [h2]
  show some (Instr.vmulF16 _ _ _ _ _ _ _) = _
  rw [e0, e1, e2, e3, e4, e5, e6]

theorem EncodeRoundTrip.vminF16 (sb : BitVec 1) (c : BitVec 1) (m : BitVec 3) (d : BitVec 5) (a : BitVec 5) (b : BitVec 5) (q : BitVec 1) : EncodeRoundTrip.Statement (.vminF16 sb c m d a b q) := by
  intro w h hw
  refine decodeWord_of_raw h ?_ hw
  obtain rfl := Option.some.inj h
  obtain ⟨h1, h2, e0, e1, e2, e3, e4, e5, e6⟩ := layout30 905969667 27 3 sb c m d a b q rfl (by decide) (by decide)
  rw [raw_maj1B _ h1]
  unfold raw1B
  rw [h2]
  show some (Instr.vminF16 _ _ _ _ _ _ _) = _
  rw [e0, e1, e2, e3, e4, e5, e6]

theorem EncodeRoundTrip.vmaxF16 (sb : BitVec 1) (c : BitVec 1) (m : BitVec 3) (d : BitVec 5) (a : BitVec 5) (b : BitVec 5) (q : BitVec 1) : EncodeRoundTrip.Statement (.vmaxF16 sb c m d a b q) := by
  intro w h hw
  refine decodeWord_of_raw h ?_ hw
  obtain rfl := Option.some.inj h
  obtain ⟨h1, h2, e0, e1, e2, e3, e4, e5, e6⟩ := layout30 905969668 27 4 sb c m d a b q rfl (by decide) (by decide)
  rw [raw_maj1B _ h1]
  unfold raw1B
  rw [h2]
  show some (Instr.vmaxF16 _ _ _ _ _ _ _) = _
  rw [e0, e1, e2, e3, e4, e5, e6]

theorem EncodeRoundTrip.vabsF16 (sb : BitVec 1) (c : BitVec 1) (m : BitVec 3) (d : BitVec 5) (a : BitVec 5) (q : BitVec 1) : EncodeRoundTrip.Statement (.vabsF16 sb c m d a q) := by
  intro w h hw
  refine decodeWord_of_raw h ?_ hw
  obtain rfl := Option.some.inj h
  obtain ⟨h1, h2, e0, e1, e2, e3, e4, e5⟩ := layout32 905969669 27 5 sb c m d a q rfl (by decide) (by decide)
  rw [raw_maj1B _ h1]
  unfold raw1B
  rw [h2]
  show some (Instr.vabsF16 _ _ _ _ _ _) = _
  rw [e0, e1, e2, e3, e4, e5]

theorem EncodeRoundTrip.vnegF16 (sb : BitVec 1) (c : BitVec 1) (m : BitVec 3) (d : BitVec 5) (a : BitVec 5) (q : BitVec 1) : EncodeRoundTrip.Statement (.vnegF16 sb c m d a q) := by
  intro w h hw
  refine decodeWord_of_raw h ?_ hw
  obtain rfl := Option.some.inj h
  obtain ⟨h1, h2, e0, e1, e2, e3, e4, e5⟩ := layout32 905969670 27 6 sb c m d a q rfl (by decide) (by decide)
  rw [raw_maj1B _ h1]
  unfold raw1B
  rw [h2]
  show some (Instr.vnegF16 _ _ _ _ _ _) = _
  rw [e0, e1, e2, e3, e4, e5]

theorem EncodeRoundTrip.vcmpeqF16 (sb : BitVec 1) (c : BitVec 1) (m : BitVec 3) (d : BitVec 3) (a : BitVec 5) (b : BitVec 5) (q : BitVec 1) : EncodeRoundTrip.Statement (.vcmpeqF16 sb c m d a b q) := by
  intro w h hw
  refine decodeWord_of_raw h ?_ hw
  obtain rfl := Option.some.inj h
  obtain ⟨h1, h2, e0, e1, e2, e3, e4, e5, e6⟩ := layout31 905969671 27 7 sb c m d a b q rfl (by decide) (by decide)
  rw [raw_maj1B _ h1]
  unfold raw1B
  rw [h2]
  show some (Instr.vcmpeqF16 _ _ _ _ _ _ _) = _
  rw [e0, e1, e2, e3, e4, e5, e6]

theorem EncodeRoundTrip.vcmpltF16 (sb : BitVec 1) (c : BitVec 1) (m : BitVec 3) (d : BitVec 3) (a : BitVec 5) (b : BitVec 5) (q : BitVec 1) : EncodeRoundTrip.Statement (.vcmpltF16 sb c m d a b q) := by
  intro w h hw
  refine decodeWord_of_raw h ?_ hw
  obtain rfl := Option.some.inj h
  obtain ⟨h1, h2, e0, e1, e2, e3, e4, e5, e6⟩ := layout31 905969672 27 8 sb c m d a b q rfl (by decide) (by decide)
  rw [raw_maj1B _ h1]
  unfold raw1B
  rw [h2]
  show some (Instr.vcmpltF16 _ _ _ _ _ _ _) = _
  rw [e0, e1, e2, e3, e4, e5, e6]

theorem EncodeRoundTrip.vcmpleF16 (sb : BitVec 1) (c : BitVec 1) (m : BitVec 3) (d : BitVec 3) (a : BitVec 5) (b : BitVec 5) (q : BitVec 1) : EncodeRoundTrip.Statement (.vcmpleF16 sb c m d a b q) := by
  intro w h hw
  refine decodeWord_of_raw h ?_ hw
  obtain rfl := Option.some.inj h
  obtain ⟨h1, h2, e0, e1, e2, e3, e4, e5, e6⟩ := layout31 905969673 27 9 sb c m d a b q rfl (by decide) (by decide)
  rw [raw_maj1B _ h1]
  unfold raw1B
  rw [h2]
  show some (Instr.vcmpleF16 _ _ _ _ _ _ _) = _
  rw [e0, e1, e2, e3, e4, e5, e6]

theorem EncodeRoundTrip.vaddBf16 (sb : BitVec 1) (c : BitVec 1) (m : BitVec 3) (d : BitVec 5) (a : BitVec 5) (b : BitVec 5) (q : BitVec 1) : EncodeRoundTrip.Statement (.vaddBf16 sb c m d a b q) := by
  intro w h hw
  refine decodeWord_of_raw h ?_ hw
  obtain rfl := Option.some.inj h
  obtain ⟨h1, h2, e0, e1, e2, e3, e4, e5, e6⟩ := layout30 939524096 28 0 sb c m d a b q rfl (by decide) (by decide)
  rw [raw_maj1C _ h1]
  unfold raw1C
  rw [h2]
  show some (Instr.vaddBf16 _ _ _ _ _ _ _) = _
  rw [e0, e1, e2, e3, e4, e5, e6]

theorem EncodeRoundTrip.vsubBf16 (sb : BitVec 1) (c : BitVec 1) (m : BitVec 3) (d : BitVec 5) (a : BitVec 5) (b : BitVec 5) (q : BitVec 1) : EncodeRoundTrip.Statement (.vsubBf16 sb c m d a b q) := by
  intro w h hw
  refine decodeWord_of_raw h ?_ hw
  obtain rfl := Option.some.inj h
  obtain ⟨h1, h2, e0, e1, e2, e3, e4, e5, e6⟩ := layout30 939524097 28 1 sb c m d a b q rfl (by decide) (by decide)
  rw [raw_maj1C _ h1]
  unfold raw1C
  rw [h2]
  show some (Instr.vsubBf16 _ _ _ _ _ _ _) = _
  rw [e0, e1, e2, e3, e4, e5, e6]

theorem EncodeRoundTrip.vmulBf16 (sb : BitVec 1) (c : BitVec 1) (m : BitVec 3) (d : BitVec 5) (a : BitVec 5) (b : BitVec 5) (q : BitVec 1) : EncodeRoundTrip.Statement (.vmulBf16 sb c m d a b q) := by
  intro w h hw
  refine decodeWord_of_raw h ?_ hw
  obtain rfl := Option.some.inj h
  obtain ⟨h1, h2, e0, e1, e2, e3, e4, e5, e6⟩ := layout30 939524098 28 2 sb c m d a b q rfl (by decide) (by decide)
  rw [raw_maj1C _ h1]
  unfold raw1C
  rw [h2]
  show some (Instr.vmulBf16 _ _ _ _ _ _ _) = _
  rw [e0, e1, e2, e3, e4, e5, e6]

theorem EncodeRoundTrip.vminBf16 (sb : BitVec 1) (c : BitVec 1) (m : BitVec 3) (d : BitVec 5) (a : BitVec 5) (b : BitVec 5) (q : BitVec 1) : EncodeRoundTrip.Statement (.vminBf16 sb c m d a b q) := by
  intro w h hw
  refine decodeWord_of_raw h ?_ hw
  obtain rfl := Option.some.inj h
  obtain ⟨h1, h2, e0, e1, e2, e3, e4, e5, e6⟩ := layout30 939524099 28 3 sb c m d a b q rfl (by decide) (by decide)
  rw [raw_maj1C _ h1]
  unfold raw1C
  rw [h2]
  show some (Instr.vminBf16 _ _ _ _ _ _ _) = _
  rw [e0, e1, e2, e3, e4, e5, e6]

theorem EncodeRoundTrip.vmaxBf16 (sb : BitVec 1) (c : BitVec 1) (m : BitVec 3) (d : BitVec 5) (a : BitVec 5) (b : BitVec 5) (q : BitVec 1) : EncodeRoundTrip.Statement (.vmaxBf16 sb c m d a b q) := by
  intro w h hw
  refine decodeWord_of_raw h ?_ hw
  obtain rfl := Option.some.inj h
  obtain ⟨h1, h2, e0, e1, e2, e3, e4, e5, e6⟩ := layout30 939524100 28 4 sb c m d a b q rfl (by decide) (by decide)
  rw [raw_maj1C _ h1]
  unfold raw1C
  rw [h2]
  show some (Instr.vmaxBf16 _ _ _ _ _ _ _) = _
  rw [e0, e1, e2, e3, e4, e5, e6]

theorem EncodeRoundTrip.vabsBf16 (sb : BitVec 1) (c : BitVec 1) (m : BitVec 3) (d : BitVec 5) (a : BitVec 5) (q : BitVec 1) : EncodeRoundTrip.Statement (.vabsBf16 sb c m d a q) := by
  intro w h hw
  refine decodeWord_of_raw h ?_ hw
  obtain rfl := Option.some.inj h
  obtain ⟨h1, h2, e0, e1, e2, e3, e4, e5⟩ := layout32 939524101 28 5 sb c m d a q rfl (by decide) (by decide)
  rw [raw_maj1C _ h1]
  unfold raw1C
  rw [h2]
  show some (Instr.vabsBf16 _ _ _ _ _ _) = _
  rw [e0, e1, e2, e3, e4, e5]

theorem EncodeRoundTrip.vnegBf16 (sb : BitVec 1) (c : BitVec 1) (m : BitVec 3) (d : BitVec 5) (a : BitVec 5) (q : BitVec 1) : EncodeRoundTrip.Statement (.vnegBf16 sb c m d a q) := by
  intro w h hw
  refine decodeWord_of_raw h ?_ hw
  obtain rfl := Option.some.inj h
  obtain ⟨h1, h2, e0, e1, e2, e3, e4, e5⟩ := layout32 939524102 28 6 sb c m d a q rfl (by decide) (by decide)
  rw [raw_maj1C _ h1]
  unfold raw1C
  rw [h2]
  show some (Instr.vnegBf16 _ _ _ _ _ _) = _
  rw [e0, e1, e2, e3, e4, e5]

theorem EncodeRoundTrip.vcmpeqBf16 (sb : BitVec 1) (c : BitVec 1) (m : BitVec 3) (d : BitVec 3) (a : BitVec 5) (b : BitVec 5) (q : BitVec 1) : EncodeRoundTrip.Statement (.vcmpeqBf16 sb c m d a b q) := by
  intro w h hw
  refine decodeWord_of_raw h ?_ hw
  obtain rfl := Option.some.inj h
  obtain ⟨h1, h2, e0, e1, e2, e3, e4, e5, e6⟩ := layout31 939524103 28 7 sb c m d a b q rfl (by decide) (by decide)
  rw [raw_maj1C _ h1]
  unfold raw1C
  rw [h2]
  show some (Instr.vcmpeqBf16 _ _ _ _ _ _ _) = _
  rw [e0, e1, e2, e3, e4, e5, e6]

theorem EncodeRoundTrip.vcmpltBf16 (sb : BitVec 1) (c : BitVec 1) (m : BitVec 3) (d : BitVec 3) (a : BitVec 5) (b : BitVec 5) (q : BitVec 1) : EncodeRoundTrip.Statement (.vcmpltBf16 sb c m d a b q) := by
  intro w h hw
  refine decodeWord_of_raw h ?_ hw
  obtain rfl := Option.some.inj h
  obtain ⟨h1, h2, e0, e1, e2, e3, e4, e5, e6⟩ := layout31 939524104 28 8 sb c m d a b q rfl (by decide) (by decide)
  rw [raw_maj1C _ h1]
  unfold raw1C
  rw [h2]
  show some (Instr.vcmpltBf16 _ _ _ _ _ _ _) = _
  rw [e0, e1, e2, e3, e4, e5, e6]

theorem EncodeRoundTrip.vcmpleBf16 (sb : BitVec 1) (c : BitVec 1) (m : BitVec 3) (d : BitVec 3) (a : BitVec 5) (b : BitVec 5) (q : BitVec 1) : EncodeRoundTrip.Statement (.vcmpleBf16 sb c m d a b q) := by
  intro w h hw
  refine decodeWord_of_raw h ?_ hw
  obtain rfl := Option.some.inj h
  obtain ⟨h1, h2, e0, e1, e2, e3, e4, e5, e6⟩ := layout31 939524105 28 9 sb c m d a b q rfl (by decide) (by decide)
  rw [raw_maj1C _ h1]
  unfold raw1C
  rw [h2]
  show some (Instr.vcmpleBf16 _ _ _ _ _ _ _) = _
  rw [e0, e1, e2, e3, e4, e5, e6]

theorem EncodeRoundTrip.vfmaF32 (sb : BitVec 1) (c : BitVec 1) (m : BitVec 3) (d : BitVec 5) (a : BitVec 5) (b : BitVec 5) (e : BitVec 5) (q : BitVec 1) : EncodeRoundTrip.Statement (.vfmaF32 sb c m d a b e q) := by
  intro w h hw
  refine decodeWord_of_raw h ?_ hw
  obtain rfl := Option.some.inj h
  obtain ⟨h1, e0, e1, e2, e3, e4, e5, e6, e7⟩ := layout33 973078528 29 sb c m d a b e q rfl (by decide)
  rw [raw_maj1D _ h1]
  unfold raw1D
  show some (Instr.vfmaF32 _ _ _ _ _ _ _ _) = _
  rw [e0, e1, e2, e3, e4, e5, e6, e7]

theorem EncodeRoundTrip.vfmsF32 (sb : BitVec 1) (c : BitVec 1) (m : BitVec 3) (d : BitVec 5) (a : BitVec 5) (b : BitVec 5) (e : BitVec 5) (q : BitVec 1) : EncodeRoundTrip.Statement (.vfmsF32 sb c m d a b e q) := by
  intro w h hw
  refine decodeWord_of_raw h ?_ hw
  obtain rfl := Option.some.inj h
  obtain ⟨h1, e0, e1, e2, e3, e4, e5, e6, e7⟩ := layout33 1006632960 30 sb c m d a b e q rfl (by decide)
  rw [raw_maj1E _ h1]
  unfold raw1E
  show some (Instr.vfmsF32 _ _ _ _ _ _ _ _) = _
  rw [e0, e1, e2, e3, e4, e5, e6, e7]

theorem EncodeRoundTrip.vfmaBf16 (sb : BitVec 1) (c : BitVec 1) (m : BitVec 3) (d : BitVec 5) (a : BitVec 5) (b : BitVec 5) (e : BitVec 5) (q : BitVec 1) : EncodeRoundTrip.Statement (.vfmaBf16 sb c m d a b e q) := by
  intro w h hw
  refine decodeWord_of_raw h ?_ hw
  obtain rfl := Option.some.inj h
  obtain ⟨h1, e0, e1, e2, e3, e4, e5, e6, e7⟩ := layout33 1040187392 31 sb c m d a b e q rfl (by decide)
  rw [raw_maj1F _ h1]
  unfold raw1F
  show some (Instr.vfmaBf16 _ _ _ _ _ _ _ _) = _
  rw [e0, e1, e2, e3, e4, e5, e6, e7]

theorem EncodeRoundTrip.vfmaF16 (sb : BitVec 1) (c : BitVec 1) (m : BitVec 3) (d : BitVec 5) (a : BitVec 5) (b : BitVec 5) (e : BitVec 5) (q : BitVec 1) : EncodeRoundTrip.Statement (.vfmaF16 sb c m d a b e q) := by
  intro w h hw
  refine decodeWord_of_raw h ?_ hw
  obtain rfl := Option.some.inj h
  obtain ⟨h1, e0, e1, e2, e3, e4, e5, e6, e7⟩ := layout33 1073741824 32 sb c m d a b e q rfl (by decide)
  rw [raw_maj20 _ h1]
  unfold raw20
  show some (Instr.vfmaF16 _ _ _ _ _ _ _ _) = _
  rw [e0, e1, e2, e3, e4, e5, e6, e7]

theorem EncodeRoundTrip.vcvtF32I32 (sb : BitVec 1) (c : BitVec 1) (m : BitVec 3) (d : BitVec 5) (a : BitVec 5) (r : BitVec 3) (q : BitVec 1) : EncodeRoundTrip.Statement (.vcvtF32I32 sb c m d a r q) := by
  intro w h hw
  refine decodeWord_of_raw h ?_ hw
  obtain rfl := Option.some.inj h
  obtain ⟨h1, h2, e0, e1, e2, e3, e4, e5, e6⟩ := layout34 1107296256 33 0 sb c m d a r q rfl (by decide) (by decide)
  rw [raw_maj21 _ h1]
  unfold raw21
  rw [h2]
  show some (Instr.vcvtF32I32 _ _ _ _ _ _ _) = _
  rw [e0, e1, e2, e3, e4, e5, e6]

theorem EncodeRoundTrip.vcvtI32F32 (sb : BitVec 1) (c : BitVec 1) (m : BitVec 3) (d : BitVec 5) (a : BitVec 5) (r : BitVec 3) (q : BitVec 1) : EncodeRoundTrip.Statement (.vcvtI32F32 sb c m d a r q) := by
  intro w h hw
  refine decodeWord_of_raw h ?_ hw
  obtain rfl := Option.some.inj h
  obtain ⟨h1, h2, e0, e1, e2, e3, e4, e5, e6⟩ := layout34 1107296257 33 1 sb c m d a r q rfl (by decide) (by decide)
  rw [raw_maj21 _ h1]
  unfold raw21
  rw [h2]
  show some (Instr.vcvtI32F32 _ _ _ _ _ _ _) = _
  rw [e0, e1, e2, e3, e4, e5, e6]

theorem EncodeRoundTrip.vcvtF32F16 (sb : BitVec 1) (c : BitVec 1) (m : BitVec 3) (d : BitVec 5) (a : BitVec 5) (x : BitVec 1) (q : BitVec 1) : EncodeRoundTrip.Statement (.vcvtF32F16 sb c m d a x q) := by
  intro w h hw
  refine decodeWord_of_raw h ?_ hw
  obtain rfl := Option.some.inj h
  obtain ⟨h1, h2, e0, e1, e2, e3, e4, e5, e6⟩ := layout35 1107296258 33 2 sb c m d a x q rfl (by decide) (by decide)
  rw [raw_maj21 _ h1]
  unfold raw21
  rw [h2]
  show some (Instr.vcvtF32F16 _ _ _ _ _ _ _) = _
  rw [e0, e1, e2, e3, e4, e5, e6]

theorem EncodeRoundTrip.vcvtF32Bf16 (sb : BitVec 1) (c : BitVec 1) (m : BitVec 3) (d : BitVec 5) (a : BitVec 5) (x : BitVec 1) (q : BitVec 1) : EncodeRoundTrip.Statement (.vcvtF32Bf16 sb c m d a x q) := by
  intro w h hw
  refine decodeWord_of_raw h ?_ hw
  obtain rfl := Option.some.inj h
  obtain ⟨h1, h2, e0, e1, e2, e3, e4, e5, e6⟩ := layout35 1107296259 33 3 sb c m d a x q rfl (by decide) (by decide)
  rw [raw_maj21 _ h1]
  unfold raw21
  rw [h2]
  show some (Instr.vcvtF32Bf16 _ _ _ _ _ _ _) = _
  rw [e0, e1, e2, e3, e4, e5, e6]

theorem EncodeRoundTrip.vcvtF16F32 (sb : BitVec 1) (c : BitVec 1) (m : BitVec 3) (d : BitVec 5) (a : BitVec 5) (x : BitVec 1) (r : BitVec 3) (q : BitVec 1) : EncodeRoundTrip.Statement (.vcvtF16F32 sb c m d a x r q) := by
  intro w h hw
  refine decodeWord_of_raw h ?_ hw
  obtain rfl := Option.some.inj h
  obtain ⟨h1, h2, e0, e1, e2, e3, e4, e5, e6, e7⟩ := layout36 1107296260 33 4 sb c m d a x r q rfl (by decide) (by decide)
  rw [raw_maj21 _ h1]
  unfold raw21
  rw [h2]
  show some (Instr.vcvtF16F32 _ _ _ _ _ _ _ _) = _
  rw [e0, e1, e2, e3, e4, e5, e6, e7]

theorem EncodeRoundTrip.vcvtBf16F32 (sb : BitVec 1) (c : BitVec 1) (m : BitVec 3) (d : BitVec 5) (a : BitVec 5) (x : BitVec 1) (r : BitVec 3) (q : BitVec 1) : EncodeRoundTrip.Statement (.vcvtBf16F32 sb c m d a x r q) := by
  intro w h hw
  refine decodeWord_of_raw h ?_ hw
  obtain rfl := Option.some.inj h
  obtain ⟨h1, h2, e0, e1, e2, e3, e4, e5, e6, e7⟩ := layout36 1107296261 33 5 sb c m d a x r q rfl (by decide) (by decide)
  rw [raw_maj21 _ h1]
  unfold raw21
  rw [h2]
  show some (Instr.vcvtBf16F32 _ _ _ _ _ _ _ _) = _
  rw [e0, e1, e2, e3, e4, e5, e6, e7]

theorem EncodeRoundTrip.vcvtF32E4m3 (sb : BitVec 1) (c : BitVec 1) (m : BitVec 3) (d : BitVec 5) (a : BitVec 5) (x : BitVec 2) (q : BitVec 1) : EncodeRoundTrip.Statement (.vcvtF32E4m3 sb c m d a x q) := by
  intro w h hw
  refine decodeWord_of_raw h ?_ hw
  obtain rfl := Option.some.inj h
  obtain ⟨h1, h2, e0, e1, e2, e3, e4, e5, e6⟩ := layout37 1107296262 33 6 sb c m d a x q rfl (by decide) (by decide)
  rw [raw_maj21 _ h1]
  unfold raw21
  rw [h2]
  show some (Instr.vcvtF32E4m3 _ _ _ _ _ _ _) = _
  rw [e0, e1, e2, e3, e4, e5, e6]

theorem EncodeRoundTrip.vcvtF32E5m2 (sb : BitVec 1) (c : BitVec 1) (m : BitVec 3) (d : BitVec 5) (a : BitVec 5) (x : BitVec 2) (q : BitVec 1) : EncodeRoundTrip.Statement (.vcvtF32E5m2 sb c m d a x q) := by
  intro w h hw
  refine decodeWord_of_raw h ?_ hw
  obtain rfl := Option.some.inj h
  obtain ⟨h1, h2, e0, e1, e2, e3, e4, e5, e6⟩ := layout37 1107296263 33 7 sb c m d a x q rfl (by decide) (by decide)
  rw [raw_maj21 _ h1]
  unfold raw21
  rw [h2]
  show some (Instr.vcvtF32E5m2 _ _ _ _ _ _ _) = _
  rw [e0, e1, e2, e3, e4, e5, e6]

theorem EncodeRoundTrip.vcvtE4m3F32 (sb : BitVec 1) (c : BitVec 1) (m : BitVec 3) (d : BitVec 5) (a : BitVec 5) (x : BitVec 2) (r : BitVec 3) (q : BitVec 1) : EncodeRoundTrip.Statement (.vcvtE4m3F32 sb c m d a x r q) := by
  intro w h hw
  refine decodeWord_of_raw h ?_ hw
  obtain rfl := Option.some.inj h
  obtain ⟨h1, h2, e0, e1, e2, e3, e4, e5, e6, e7⟩ := layout38 1107296264 33 8 sb c m d a x r q rfl (by decide) (by decide)
  rw [raw_maj21 _ h1]
  unfold raw21
  rw [h2]
  show some (Instr.vcvtE4m3F32 _ _ _ _ _ _ _ _) = _
  rw [e0, e1, e2, e3, e4, e5, e6, e7]

theorem EncodeRoundTrip.vcvtE5m2F32 (sb : BitVec 1) (c : BitVec 1) (m : BitVec 3) (d : BitVec 5) (a : BitVec 5) (x : BitVec 2) (r : BitVec 3) (q : BitVec 1) : EncodeRoundTrip.Statement (.vcvtE5m2F32 sb c m d a x r q) := by
  intro w h hw
  refine decodeWord_of_raw h ?_ hw
  obtain rfl := Option.some.inj h
  obtain ⟨h1, h2, e0, e1, e2, e3, e4, e5, e6, e7⟩ := layout38 1107296265 33 9 sb c m d a x r q rfl (by decide) (by decide)
  rw [raw_maj21 _ h1]
  unfold raw21
  rw [h2]
  show some (Instr.vcvtE5m2F32 _ _ _ _ _ _ _ _) = _
  rw [e0, e1, e2, e3, e4, e5, e6, e7]

theorem EncodeRoundTrip.vpackB4 (sb : BitVec 1) (c : BitVec 1) (m : BitVec 3) (d : BitVec 5) (a : BitVec 5) (x : BitVec 2) (q : BitVec 1) : EncodeRoundTrip.Statement (.vpackB4 sb c m d a x q) := by
  intro w h hw
  refine decodeWord_of_raw h ?_ hw
  obtain rfl := Option.some.inj h
  obtain ⟨h1, h2, e0, e1, e2, e3, e4, e5, e6⟩ := layout37 1107296266 33 10 sb c m d a x q rfl (by decide) (by decide)
  rw [raw_maj21 _ h1]
  unfold raw21
  rw [h2]
  show some (Instr.vpackB4 _ _ _ _ _ _ _) = _
  rw [e0, e1, e2, e3, e4, e5, e6]

theorem EncodeRoundTrip.vunpackB4 (sb : BitVec 1) (c : BitVec 1) (m : BitVec 3) (d : BitVec 5) (a : BitVec 5) (x : BitVec 2) (q : BitVec 1) : EncodeRoundTrip.Statement (.vunpackB4 sb c m d a x q) := by
  intro w h hw
  refine decodeWord_of_raw h ?_ hw
  obtain rfl := Option.some.inj h
  obtain ⟨h1, h2, e0, e1, e2, e3, e4, e5, e6⟩ := layout37 1107296267 33 11 sb c m d a x q rfl (by decide) (by decide)
  rw [raw_maj21 _ h1]
  unfold raw21
  rw [h2]
  show some (Instr.vunpackB4 _ _ _ _ _ _ _) = _
  rw [e0, e1, e2, e3, e4, e5, e6]

theorem EncodeRoundTrip.vperm (sb : BitVec 1) (c : BitVec 1) (m : BitVec 3) (d : BitVec 5) (a : BitVec 5) (b : BitVec 5) (q : BitVec 1) : EncodeRoundTrip.Statement (.vperm sb c m d a b q) := by
  intro w h hw
  refine decodeWord_of_raw h ?_ hw
  obtain rfl := Option.some.inj h
  obtain ⟨h1, h2, e0, e1, e2, e3, e4, e5, e6⟩ := layout30 1140850688 34 0 sb c m d a b q rfl (by decide) (by decide)
  rw [raw_maj22 _ h1]
  unfold raw22
  rw [h2]
  show some (Instr.vperm _ _ _ _ _ _ _) = _
  rw [e0, e1, e2, e3, e4, e5, e6]

theorem EncodeRoundTrip.vrot (sb : BitVec 1) (c : BitVec 1) (m : BitVec 3) (d : BitVec 5) (a : BitVec 5) (b : BitVec 5) (q : BitVec 1) : EncodeRoundTrip.Statement (.vrot sb c m d a b q) := by
  intro w h hw
  refine decodeWord_of_raw h ?_ hw
  obtain rfl := Option.some.inj h
  obtain ⟨h1, h2, e0, e1, e2, e3, e4, e5, e6⟩ := layout30 1140850689 34 1 sb c m d a b q rfl (by decide) (by decide)
  rw [raw_maj22 _ h1]
  unfold raw22
  rw [h2]
  show some (Instr.vrot _ _ _ _ _ _ _) = _
  rw [e0, e1, e2, e3, e4, e5, e6]

theorem EncodeRoundTrip.vbcast (sb : BitVec 1) (c : BitVec 1) (m : BitVec 3) (d : BitVec 5) (a : BitVec 5) (q : BitVec 1) : EncodeRoundTrip.Statement (.vbcast sb c m d a q) := by
  intro w h hw
  refine decodeWord_of_raw h ?_ hw
  obtain rfl := Option.some.inj h
  obtain ⟨h1, h2, e0, e1, e2, e3, e4, e5⟩ := layout32 1140850690 34 2 sb c m d a q rfl (by decide) (by decide)
  rw [raw_maj22 _ h1]
  unfold raw22
  rw [h2]
  show some (Instr.vbcast _ _ _ _ _ _) = _
  rw [e0, e1, e2, e3, e4, e5]

theorem EncodeRoundTrip.vredadd (sb : BitVec 1) (c : BitVec 1) (m : BitVec 3) (d : BitVec 5) (a : BitVec 5) (q : BitVec 1) : EncodeRoundTrip.Statement (.vredadd sb c m d a q) := by
  intro w h hw
  refine decodeWord_of_raw h ?_ hw
  obtain rfl := Option.some.inj h
  obtain ⟨h1, h2, e0, e1, e2, e3, e4, e5⟩ := layout32 1140850691 34 3 sb c m d a q rfl (by decide) (by decide)
  rw [raw_maj22 _ h1]
  unfold raw22
  rw [h2]
  show some (Instr.vredadd _ _ _ _ _ _) = _
  rw [e0, e1, e2, e3, e4, e5]

theorem EncodeRoundTrip.vredmax (sb : BitVec 1) (c : BitVec 1) (m : BitVec 3) (d : BitVec 5) (a : BitVec 5) (q : BitVec 1) : EncodeRoundTrip.Statement (.vredmax sb c m d a q) := by
  intro w h hw
  refine decodeWord_of_raw h ?_ hw
  obtain rfl := Option.some.inj h
  obtain ⟨h1, h2, e0, e1, e2, e3, e4, e5⟩ := layout32 1140850692 34 4 sb c m d a q rfl (by decide) (by decide)
  rw [raw_maj22 _ h1]
  unfold raw22
  rw [h2]
  show some (Instr.vredmax _ _ _ _ _ _) = _
  rw [e0, e1, e2, e3, e4, e5]

theorem EncodeRoundTrip.viredadd (sb : BitVec 1) (c : BitVec 1) (m : BitVec 3) (d : BitVec 5) (a : BitVec 5) (q : BitVec 1) : EncodeRoundTrip.Statement (.viredadd sb c m d a q) := by
  intro w h hw
  refine decodeWord_of_raw h ?_ hw
  obtain rfl := Option.some.inj h
  obtain ⟨h1, h2, e0, e1, e2, e3, e4, e5⟩ := layout32 1140850693 34 5 sb c m d a q rfl (by decide) (by decide)
  rw [raw_maj22 _ h1]
  unfold raw22
  rw [h2]
  show some (Instr.viredadd _ _ _ _ _ _) = _
  rw [e0, e1, e2, e3, e4, e5]

theorem EncodeRoundTrip.vbspl (sb : BitVec 1) (c : BitVec 1) (m : BitVec 3) (d : BitVec 5) (a : BitVec 5) (j : BitVec 2) (q : BitVec 1) : EncodeRoundTrip.Statement (.vbspl sb c m d a j q) := by
  intro w h hw
  refine decodeWord_of_raw h ?_ hw
  obtain rfl := Option.some.inj h
  obtain ⟨h1, h2, e0, e1, e2, e3, e4, e5, e6⟩ := layout39 1140850694 34 6 sb c m d a j q rfl (by decide) (by decide)
  rw [raw_maj22 _ h1]
  unfold raw22
  rw [h2]
  show some (Instr.vbspl _ _ _ _ _ _ _) = _
  rw [e0, e1, e2, e3, e4, e5, e6]

theorem EncodeRoundTrip.patC (sb : BitVec 1) (t : BitVec 6) (f : BitVec 3) (v : BitVec 16) : EncodeRoundTrip.Statement (.patC sb t f v) := by
  intro w h hw
  refine decodeWord_of_raw h ?_ hw
  obtain rfl := Option.some.inj h
  obtain ⟨h1, e0, e1, e2, e3⟩ := layout40 1174405120 35 sb t f v rfl (by decide)
  rw [raw_maj23 _ h1]
  unfold raw23
  show some (Instr.patC _ _ _ _) = _
  rw [e0, e1, e2, e3]

theorem EncodeRoundTrip.pisC (sb : BitVec 1) (t : BitVec 6) (f : BitVec 3) (v : BitVec 16) : EncodeRoundTrip.Statement (.pisC sb t f v) := by
  intro w h hw
  refine decodeWord_of_raw h ?_ hw
  obtain rfl := Option.some.inj h
  obtain ⟨h1, e0, e1, e2, e3⟩ := layout40 1207959552 36 sb t f v rfl (by decide)
  rw [raw_maj24 _ h1]
  unfold raw24
  show some (Instr.pisC _ _ _ _) = _
  rw [e0, e1, e2, e3]

theorem EncodeRoundTrip.patA (sb : BitVec 1) (t : BitVec 6) (f : BitVec 3) (v : BitVec 16) : EncodeRoundTrip.Statement (.patA sb t f v) := by
  intro w h hw
  refine decodeWord_of_raw h ?_ hw
  obtain rfl := Option.some.inj h
  obtain ⟨h1, e0, e1, e2, e3⟩ := layout40 1241513984 37 sb t f v rfl (by decide)
  rw [raw_maj25 _ h1]
  unfold raw25
  show some (Instr.patA _ _ _ _) = _
  rw [e0, e1, e2, e3]

theorem EncodeRoundTrip.pisA (sb : BitVec 1) (t : BitVec 6) (f : BitVec 3) (v : BitVec 16) : EncodeRoundTrip.Statement (.pisA sb t f v) := by
  intro w h hw
  refine decodeWord_of_raw h ?_ hw
  obtain rfl := Option.some.inj h
  obtain ⟨h1, e0, e1, e2, e3⟩ := layout40 1275068416 38 sb t f v rfl (by decide)
  rw [raw_maj26 _ h1]
  unfold raw26
  show some (Instr.pisA _ _ _ _) = _
  rw [e0, e1, e2, e3]

theorem EncodeRoundTrip.patS (sb : BitVec 1) (t : BitVec 6) (f : BitVec 3) (v : BitVec 16) : EncodeRoundTrip.Statement (.patS sb t f v) := by
  intro w h hw
  refine decodeWord_of_raw h ?_ hw
  obtain rfl := Option.some.inj h
  obtain ⟨h1, e0, e1, e2, e3⟩ := layout40 1308622848 39 sb t f v rfl (by decide)
  rw [raw_maj27 _ h1]
  unfold raw27
  show some (Instr.patS _ _ _ _) = _
  rw [e0, e1, e2, e3]

theorem EncodeRoundTrip.pisS (sb : BitVec 1) (t : BitVec 6) (f : BitVec 3) (v : BitVec 16) : EncodeRoundTrip.Statement (.pisS sb t f v) := by
  intro w h hw
  refine decodeWord_of_raw h ?_ hw
  obtain rfl := Option.some.inj h
  obtain ⟨h1, e0, e1, e2, e3⟩ := layout40 1342177280 40 sb t f v rfl (by decide)
  rw [raw_maj28 _ h1]
  unfold raw28
  show some (Instr.pisS _ _ _ _) = _
  rw [e0, e1, e2, e3]

theorem EncodeRoundTrip.tplC (sb : BitVec 1) (p : BitVec 3) (t : BitVec 5) (a : BitVec 5) (tlo : BitVec 1) : EncodeRoundTrip.Statement (.tplC sb p t a tlo) := by
  intro w h hw
  refine decodeWord_of_raw h ?_ hw
  obtain rfl := Option.some.inj h
  obtain ⟨h1, h2, h3, e0, e1, e2, e3, e4⟩ := layout41 1375731968 41 0 1 sb p t a tlo rfl (by decide) (by decide) (by decide)
  rw [raw_maj29 _ h1]
  unfold raw29
  rw [h2]
  rw [h3]
  show some (Instr.tplC _ _ _ _ _) = _
  rw [e0, e1, e2, e3, e4]

theorem EncodeRoundTrip.tplA (sb : BitVec 1) (p : BitVec 3) (t : BitVec 5) (a : BitVec 5) (tlo : BitVec 1) : EncodeRoundTrip.Statement (.tplA sb p t a tlo) := by
  intro w h hw
  refine decodeWord_of_raw h ?_ hw
  obtain rfl := Option.some.inj h
  obtain ⟨h1, h2, h3, e0, e1, e2, e3, e4⟩ := layout41 1375732224 41 0 2 sb p t a tlo rfl (by decide) (by decide) (by decide)
  rw [raw_maj29 _ h1]
  unfold raw29
  rw [h2]
  rw [h3]
  show some (Instr.tplA _ _ _ _ _) = _
  rw [e0, e1, e2, e3, e4]

theorem EncodeRoundTrip.tplS (sb : BitVec 1) (p : BitVec 3) (t : BitVec 5) (a : BitVec 5) (tlo : BitVec 1) : EncodeRoundTrip.Statement (.tplS sb p t a tlo) := by
  intro w h hw
  refine decodeWord_of_raw h ?_ hw
  obtain rfl := Option.some.inj h
  obtain ⟨h1, h2, h3, e0, e1, e2, e3, e4⟩ := layout41 1375732480 41 0 3 sb p t a tlo rfl (by decide) (by decide) (by decide)
  rw [raw_maj29 _ h1]
  unfold raw29
  rw [h2]
  rw [h3]
  show some (Instr.tplS _ _ _ _ _) = _
  rw [e0, e1, e2, e3, e4]

theorem EncodeRoundTrip.cwait (sb : BitVec 1) (p : BitVec 3) (k : BitVec 3) (n : BitVec 10) : EncodeRoundTrip.Statement (.cwait sb p k n) := by
  intro w h hw
  refine decodeWord_of_raw h ?_ hw
  obtain rfl := Option.some.inj h
  obtain ⟨h1, h2, e0, e1, e2, e3⟩ := layout42 1375731713 41 1 sb p k n rfl (by decide) (by decide)
  rw [raw_maj29 _ h1]
  unfold raw29
  rw [h2]
  show some (Instr.cwait _ _ _ _) = _
  rw [e0, e1, e2, e3]

theorem EncodeRoundTrip.cdisc (sb : BitVec 1) (p : BitVec 3) (k : BitVec 3) (n : BitVec 10) : EncodeRoundTrip.Statement (.cdisc sb p k n) := by
  intro w h hw
  refine decodeWord_of_raw h ?_ hw
  obtain rfl := Option.some.inj h
  obtain ⟨h1, h2, e0, e1, e2, e3⟩ := layout42 1375731714 41 2 sb p k n rfl (by decide) (by decide)
  rw [raw_maj29 _ h1]
  unfold raw29
  rw [h2]
  show some (Instr.cdisc _ _ _ _) = _
  rw [e0, e1, e2, e3]

theorem EncodeRoundTrip.crd (sb : BitVec 1) (p : BitVec 3) (d : BitVec 5) (k : BitVec 3) : EncodeRoundTrip.Statement (.crd sb p d k) := by
  intro w h hw
  refine decodeWord_of_raw h ?_ hw
  obtain rfl := Option.some.inj h
  obtain ⟨h1, h2, e0, e1, e2, e3⟩ := layout29 1375731715 41 3 sb p d k rfl (by decide) (by decide)
  rw [raw_maj29 _ h1]
  unfold raw29
  rw [h2]
  show some (Instr.crd _ _ _ _) = _
  rw [e0, e1, e2, e3]

theorem EncodeRoundTrip.rngset (sb : BitVec 1) (p : BitVec 3) (k : BitVec 4) (a : BitVec 5) (b : BitVec 5) : EncodeRoundTrip.Statement (.rngset sb p k a b) := by
  intro w h hw
  refine decodeWord_of_raw h ?_ hw
  obtain rfl := Option.some.inj h
  obtain ⟨h1, h2, e0, e1, e2, e3, e4⟩ := layout43 1375731716 41 4 sb p k a b rfl (by decide) (by decide)
  rw [raw_maj29 _ h1]
  unfold raw29
  rw [h2]
  show some (Instr.rngset _ _ _ _ _) = _
  rw [e0, e1, e2, e3, e4]

theorem EncodeRoundTrip.rngrd (sb : BitVec 1) (p : BitVec 3) (d : BitVec 5) (k : BitVec 4) : EncodeRoundTrip.Statement (.rngrd sb p d k) := by
  intro w h hw
  refine decodeWord_of_raw h ?_ hw
  obtain rfl := Option.some.inj h
  obtain ⟨h1, h2, e0, e1, e2, e3⟩ := layout44 1375731717 41 5 sb p d k rfl (by decide) (by decide)
  rw [raw_maj29 _ h1]
  unfold raw29
  rw [h2]
  show some (Instr.rngrd _ _ _ _) = _
  rw [e0, e1, e2, e3]

theorem EncodeRoundTrip.publish (sb : BitVec 1) (p : BitVec 3) (k : BitVec 4) : EncodeRoundTrip.Statement (.publish sb p k) := by
  intro w h hw
  refine decodeWord_of_raw h ?_ hw
  obtain rfl := Option.some.inj h
  obtain ⟨h1, h2, e0, e1, e2⟩ := layout45 1375731718 41 6 sb p k rfl (by decide) (by decide)
  rw [raw_maj29 _ h1]
  unfold raw29
  rw [h2]
  show some (Instr.publish _ _ _) = _
  rw [e0, e1, e2]

theorem EncodeRoundTrip.kset (sb : BitVec 1) (p : BitVec 3) (k : BitVec 3) (a : BitVec 5) : EncodeRoundTrip.Statement (.kset sb p k a) := by
  intro w h hw
  refine decodeWord_of_raw h ?_ hw
  obtain rfl := Option.some.inj h
  obtain ⟨h1, h2, e0, e1, e2, e3⟩ := layout46 1375731719 41 7 sb p k a rfl (by decide) (by decide)
  rw [raw_maj29 _ h1]
  unfold raw29
  rw [h2]
  show some (Instr.kset _ _ _ _) = _
  rw [e0, e1, e2, e3]

theorem EncodeRoundTrip.krd (sb : BitVec 1) (p : BitVec 3) (d : BitVec 5) (k : BitVec 3) : EncodeRoundTrip.Statement (.krd sb p d k) := by
  intro w h hw
  refine decodeWord_of_raw h ?_ hw
  obtain rfl := Option.some.inj h
  obtain ⟨h1, h2, e0, e1, e2, e3⟩ := layout29 1375731720 41 8 sb p d k rfl (by decide) (by decide)
  rw [raw_maj29 _ h1]
  unfold raw29
  rw [h2]
  show some (Instr.krd _ _ _ _) = _
  rw [e0, e1, e2, e3]

theorem EncodeRoundTrip.katcmp (sb : BitVec 1) (p : BitVec 3) (k : BitVec 3) (a : BitVec 5) : EncodeRoundTrip.Statement (.katcmp sb p k a) := by
  intro w h hw
  refine decodeWord_of_raw h ?_ hw
  obtain rfl := Option.some.inj h
  obtain ⟨h1, h2, e0, e1, e2, e3⟩ := layout46 1375731721 41 9 sb p k a rfl (by decide) (by decide)
  rw [raw_maj29 _ h1]
  unfold raw29
  rw [h2]
  show some (Instr.katcmp _ _ _ _) = _
  rw [e0, e1, e2, e3]

theorem EncodeRoundTrip.join (sb : BitVec 1) (p : BitVec 3) (d : BitVec 5) (a : BitVec 5) : EncodeRoundTrip.Statement (.join sb p d a) := by
  intro w h hw
  refine decodeWord_of_raw h ?_ hw
  obtain rfl := Option.some.inj h
  obtain ⟨h1, h2, e0, e1, e2, e3⟩ := layout5 1409286144 42 0 sb p d a rfl (by decide) (by decide)
  rw [raw_maj2A _ h1]
  unfold raw2A
  rw [h2]
  show some (Instr.join _ _ _ _) = _
  rw [e0, e1, e2, e3]

theorem EncodeRoundTrip.leave (sb : BitVec 1) (p : BitVec 3) (d : BitVec 5) (a : BitVec 5) : EncodeRoundTrip.Statement (.leave sb p d a) := by
  intro w h hw
  refine decodeWord_of_raw h ?_ hw
  obtain rfl := Option.some.inj h
  obtain ⟨h1, h2, e0, e1, e2, e3⟩ := layout5 1409286145 42 1 sb p d a rfl (by decide) (by decide)
  rw [raw_maj2A _ h1]
  unfold raw2A
  rw [h2]
  show some (Instr.leave _ _ _ _) = _
  rw [e0, e1, e2, e3]

theorem EncodeRoundTrip.grpq (sb : BitVec 1) (p : BitVec 3) (d : BitVec 5) (a : BitVec 5) : EncodeRoundTrip.Statement (.grpq sb p d a) := by
  intro w h hw
  refine decodeWord_of_raw h ?_ hw
  obtain rfl := Option.some.inj h
  obtain ⟨h1, h2, e0, e1, e2, e3⟩ := layout5 1409286146 42 2 sb p d a rfl (by decide) (by decide)
  rw [raw_maj2A _ h1]
  unfold raw2A
  rw [h2]
  show some (Instr.grpq _ _ _ _) = _
  rw [e0, e1, e2, e3]

theorem EncodeRoundTrip.barr (sb : BitVec 1) (p : BitVec 3) (d : BitVec 5) (a : BitVec 5) (b : BitVec 5) : EncodeRoundTrip.Statement (.barr sb p d a b) := by
  intro w h hw
  refine decodeWord_of_raw h ?_ hw
  obtain rfl := Option.some.inj h
  obtain ⟨h1, h2, e0, e1, e2, e3, e4⟩ := layout4 1409286147 42 3 sb p d a b rfl (by decide) (by decide)
  rw [raw_maj2A _ h1]
  unfold raw2A
  rw [h2]
  show some (Instr.barr _ _ _ _ _) = _
  rw [e0, e1, e2, e3, e4]

theorem EncodeRoundTrip.bwait (sb : BitVec 1) (p : BitVec 3) (d : BitVec 5) (a : BitVec 5) (b : BitVec 5) : EncodeRoundTrip.Statement (.bwait sb p d a b) := by
  intro w h hw
  refine decodeWord_of_raw h ?_ hw
  obtain rfl := Option.some.inj h
  obtain ⟨h1, h2, e0, e1, e2, e3, e4⟩ := layout4 1409286148 42 4 sb p d a b rfl (by decide) (by decide)
  rw [raw_maj2A _ h1]
  unfold raw2A
  rw [h2]
  show some (Instr.bwait _ _ _ _ _) = _
  rw [e0, e1, e2, e3, e4]

theorem EncodeRoundTrip.barw (sb : BitVec 1) (p : BitVec 3) (d : BitVec 5) (a : BitVec 5) (b : BitVec 5) : EncodeRoundTrip.Statement (.barw sb p d a b) := by
  intro w h hw
  refine decodeWord_of_raw h ?_ hw
  obtain rfl := Option.some.inj h
  obtain ⟨h1, h2, e0, e1, e2, e3, e4⟩ := layout4 1409286149 42 5 sb p d a b rfl (by decide) (by decide)
  rw [raw_maj2A _ h1]
  unfold raw2A
  rw [h2]
  show some (Instr.barw _ _ _ _ _) = _
  rw [e0, e1, e2, e3, e4]

theorem EncodeRoundTrip.finc (sb : BitVec 1) (p : BitVec 3) (d : BitVec 5) (a : BitVec 5) (b : BitVec 5) : EncodeRoundTrip.Statement (.finc sb p d a b) := by
  intro w h hw
  refine decodeWord_of_raw h ?_ hw
  obtain rfl := Option.some.inj h
  obtain ⟨h1, h2, e0, e1, e2, e3, e4⟩ := layout4 1442840576 43 0 sb p d a b rfl (by decide) (by decide)
  rw [raw_maj2B _ h1]
  unfold raw2B
  rw [h2]
  show some (Instr.finc _ _ _ _ _) = _
  rw [e0, e1, e2, e3, e4]

theorem EncodeRoundTrip.fwait (sb : BitVec 1) (p : BitVec 3) (d : BitVec 5) (a : BitVec 5) (b : BitVec 5) : EncodeRoundTrip.Statement (.fwait sb p d a b) := by
  intro w h hw
  refine decodeWord_of_raw h ?_ hw
  obtain rfl := Option.some.inj h
  obtain ⟨h1, h2, e0, e1, e2, e3, e4⟩ := layout4 1442840577 43 1 sb p d a b rfl (by decide) (by decide)
  rw [raw_maj2B _ h1]
  unfold raw2B
  rw [h2]
  show some (Instr.fwait _ _ _ _ _) = _
  rw [e0, e1, e2, e3, e4]

theorem EncodeRoundTrip.frd (sb : BitVec 1) (p : BitVec 3) (d : BitVec 5) (a : BitVec 5) : EncodeRoundTrip.Statement (.frd sb p d a) := by
  intro w h hw
  refine decodeWord_of_raw h ?_ hw
  obtain rfl := Option.some.inj h
  obtain ⟨h1, h2, e0, e1, e2, e3⟩ := layout5 1442840578 43 2 sb p d a rfl (by decide) (by decide)
  rw [raw_maj2B _ h1]
  unfold raw2B
  rw [h2]
  show some (Instr.frd _ _ _ _) = _
  rw [e0, e1, e2, e3]

theorem EncodeRoundTrip.fset (sb : BitVec 1) (p : BitVec 3) (d : BitVec 5) (a : BitVec 5) (b : BitVec 5) : EncodeRoundTrip.Statement (.fset sb p d a b) := by
  intro w h hw
  refine decodeWord_of_raw h ?_ hw
  obtain rfl := Option.some.inj h
  obtain ⟨h1, h2, e0, e1, e2, e3, e4⟩ := layout4 1442840579 43 3 sb p d a b rfl (by decide) (by decide)
  rw [raw_maj2B _ h1]
  unfold raw2B
  rw [h2]
  show some (Instr.fset _ _ _ _ _) = _
  rw [e0, e1, e2, e3, e4]

theorem EncodeRoundTrip.launch (sb : BitVec 1) (p : BitVec 3) (d : BitVec 5) (a : BitVec 5) : EncodeRoundTrip.Statement (.launch sb p d a) := by
  intro w h hw
  refine decodeWord_of_raw h ?_ hw
  obtain rfl := Option.some.inj h
  obtain ⟨h1, h2, e0, e1, e2, e3⟩ := layout5 1476395008 44 0 sb p d a rfl (by decide) (by decide)
  rw [raw_maj2C _ h1]
  unfold raw2C
  rw [h2]
  show some (Instr.launch _ _ _ _) = _
  rw [e0, e1, e2, e3]

theorem EncodeRoundTrip.launchn (sb : BitVec 1) (p : BitVec 3) (d : BitVec 5) (a : BitVec 5) : EncodeRoundTrip.Statement (.launchn sb p d a) := by
  intro w h hw
  refine decodeWord_of_raw h ?_ hw
  obtain rfl := Option.some.inj h
  obtain ⟨h1, h2, e0, e1, e2, e3⟩ := layout5 1476395009 44 1 sb p d a rfl (by decide) (by decide)
  rw [raw_maj2C _ h1]
  unfold raw2C
  rw [h2]
  show some (Instr.launchn _ _ _ _) = _
  rw [e0, e1, e2, e3]

theorem EncodeRoundTrip.evset (sb : BitVec 1) (p : BitVec 3) (a : BitVec 5) (b : BitVec 5) : EncodeRoundTrip.Statement (.evset sb p a b) := by
  intro w h hw
  refine decodeWord_of_raw h ?_ hw
  obtain rfl := Option.some.inj h
  obtain ⟨h1, h2, e0, e1, e2, e3⟩ := layout47 1476395010 44 2 sb p a b rfl (by decide) (by decide)
  rw [raw_maj2C _ h1]
  unfold raw2C
  rw [h2]
  show some (Instr.evset _ _ _ _) = _
  rw [e0, e1, e2, e3]

theorem EncodeRoundTrip.evclr (sb : BitVec 1) (p : BitVec 3) (a : BitVec 5) (b : BitVec 5) : EncodeRoundTrip.Statement (.evclr sb p a b) := by
  intro w h hw
  refine decodeWord_of_raw h ?_ hw
  obtain rfl := Option.some.inj h
  obtain ⟨h1, h2, e0, e1, e2, e3⟩ := layout47 1476395011 44 3 sb p a b rfl (by decide) (by decide)
  rw [raw_maj2C _ h1]
  unfold raw2C
  rw [h2]
  show some (Instr.evclr _ _ _ _) = _
  rw [e0, e1, e2, e3]

theorem EncodeRoundTrip.evwait (sb : BitVec 1) (p : BitVec 3) (d : BitVec 5) (a : BitVec 5) (b : BitVec 5) : EncodeRoundTrip.Statement (.evwait sb p d a b) := by
  intro w h hw
  refine decodeWord_of_raw h ?_ hw
  obtain rfl := Option.some.inj h
  obtain ⟨h1, h2, e0, e1, e2, e3, e4⟩ := layout4 1476395012 44 4 sb p d a b rfl (by decide) (by decide)
  rw [raw_maj2C _ h1]
  unfold raw2C
  rw [h2]
  show some (Instr.evwait _ _ _ _ _) = _
  rw [e0, e1, e2, e3, e4]

theorem EncodeRoundTrip.enq (sb : BitVec 1) (p : BitVec 3) (d : BitVec 5) (a : BitVec 5) : EncodeRoundTrip.Statement (.enq sb p d a) := by
  intro w h hw
  refine decodeWord_of_raw h ?_ hw
  obtain rfl := Option.some.inj h
  obtain ⟨h1, h2, e0, e1, e2, e3⟩ := layout5 1476395013 44 5 sb p d a rfl (by decide) (by decide)
  rw [raw_maj2C _ h1]
  unfold raw2C
  rw [h2]
  show some (Instr.enq _ _ _ _) = _
  rw [e0, e1, e2, e3]

theorem EncodeRoundTrip.deq (sb : BitVec 1) (p : BitVec 3) (d : BitVec 5) (k : BitVec 3) : EncodeRoundTrip.Statement (.deq sb p d k) := by
  intro w h hw
  refine decodeWord_of_raw h ?_ hw
  obtain rfl := Option.some.inj h
  obtain ⟨h1, h2, e0, e1, e2, e3⟩ := layout29 1476395014 44 6 sb p d k rfl (by decide) (by decide)
  rw [raw_maj2C _ h1]
  unfold raw2C
  rw [h2]
  show some (Instr.deq _ _ _ _) = _
  rw [e0, e1, e2, e3]

theorem EncodeRoundTrip.yield (sb : BitVec 1) (p : BitVec 3) : EncodeRoundTrip.Statement (.yield sb p) := by
  intro w h hw
  refine decodeWord_of_raw h ?_ hw
  obtain rfl := Option.some.inj h
  obtain ⟨h1, h2, e0, e1⟩ := layout15 1476395015 44 7 sb p rfl (by decide) (by decide)
  rw [raw_maj2C _ h1]
  unfold raw2C
  rw [h2]
  show some (Instr.yield _ _) = _
  rw [e0, e1]

theorem EncodeRoundTrip.taskinfo (sb : BitVec 1) (p : BitVec 3) (d : BitVec 5) (k : BitVec 5) : EncodeRoundTrip.Statement (.taskinfo sb p d k) := by
  intro w h hw
  refine decodeWord_of_raw h ?_ hw
  obtain rfl := Option.some.inj h
  obtain ⟨h1, h2, e0, e1, e2, e3⟩ := layout48 1476395016 44 8 sb p d k rfl (by decide) (by decide)
  rw [raw_maj2C _ h1]
  unfold raw2C
  rw [h2]
  show some (Instr.taskinfo _ _ _ _) = _
  rw [e0, e1, e2, e3]

theorem EncodeRoundTrip.ldg (sb : BitVec 1) (p : BitVec 3) (k : BitVec 3) (b : BitVec 5) (z : BitVec 2) (o : BitVec 1) (imm : BitVec 9) : EncodeRoundTrip.Statement (.ldg sb p k b z o imm) := by
  intro w h hw
  refine decodeWord_of_raw h ?_ hw
  obtain rfl := Option.some.inj h
  obtain ⟨h1, e0, e1, e2, e3, e4, e5, e6⟩ := layout49 1509949440 45 sb p k b z o imm rfl (by decide)
  rw [raw_maj2D _ h1]
  unfold raw2D
  show some (Instr.ldg _ _ _ _ _ _ _) = _
  rw [e0, e1, e2, e3, e4, e5, e6]

theorem EncodeRoundTrip.stg (sb : BitVec 1) (p : BitVec 3) (d : BitVec 5) (b : BitVec 5) (z : BitVec 2) (o : BitVec 1) (imm : BitVec 9) : EncodeRoundTrip.Statement (.stg sb p d b z o imm) := by
  intro w h hw
  refine decodeWord_of_raw h ?_ hw
  obtain rfl := Option.some.inj h
  obtain ⟨h1, e0, e1, e2, e3, e4, e5, e6⟩ := layout23 1543503872 46 sb p d b z o imm rfl (by decide)
  rw [raw_maj2E _ h1]
  unfold raw2E
  show some (Instr.stg _ _ _ _ _ _ _) = _
  rw [e0, e1, e2, e3, e4, e5, e6]

theorem EncodeRoundTrip.lda (sb : BitVec 1) (p : BitVec 3) (k : BitVec 3) (b : BitVec 5) (z : BitVec 2) (o : BitVec 1) (imm : BitVec 9) : EncodeRoundTrip.Statement (.lda sb p k b z o imm) := by
  intro w h hw
  refine decodeWord_of_raw h ?_ hw
  obtain rfl := Option.some.inj h
  obtain ⟨h1, e0, e1, e2, e3, e4, e5, e6⟩ := layout49 1577058304 47 sb p k b z o imm rfl (by decide)
  rw [raw_maj2F _ h1]
  unfold raw2F
  show some (Instr.lda _ _ _ _ _ _ _) = _
  rw [e0, e1, e2, e3, e4, e5, e6]

theorem EncodeRoundTrip.stl (sb : BitVec 1) (p : BitVec 3) (d : BitVec 5) (b : BitVec 5) (z : BitVec 2) (o : BitVec 1) (imm : BitVec 9) : EncodeRoundTrip.Statement (.stl sb p d b z o imm) := by
  intro w h hw
  refine decodeWord_of_raw h ?_ hw
  obtain rfl := Option.some.inj h
  obtain ⟨h1, e0, e1, e2, e3, e4, e5, e6⟩ := layout23 1610612736 48 sb p d b z o imm rfl (by decide)
  rw [raw_maj30 _ h1]
  unfold raw30
  show some (Instr.stl _ _ _ _ _ _ _) = _
  rw [e0, e1, e2, e3, e4, e5, e6]

theorem EncodeRoundTrip.ldgq (sb : BitVec 1) (p : BitVec 3) (q : BitVec 2) (b : BitVec 5) (o : BitVec 1) (imm : BitVec 9) : EncodeRoundTrip.Statement (.ldgq sb p q b o imm) := by
  intro w h hw
  refine decodeWord_of_raw h ?_ hw
  obtain rfl := Option.some.inj h
  obtain ⟨h1, h2, e0, e1, e2, e3, e4, e5⟩ := layout50 1644167168 49 0 sb p q b o imm rfl (by decide) (by decide)
  rw [raw_maj31 _ h1]
  unfold raw31
  rw [h2]
  show some (Instr.ldgq _ _ _ _ _ _) = _
  rw [e0, e1, e2, e3, e4, e5]

theorem EncodeRoundTrip.stgq (sb : BitVec 1) (p : BitVec 3) (q : BitVec 1) (b : BitVec 5) (o : BitVec 1) (imm : BitVec 9) : EncodeRoundTrip.Statement (.stgq sb p q b o imm) := by
  intro w h hw
  refine decodeWord_of_raw h ?_ hw
  obtain rfl := Option.some.inj h
  obtain ⟨h1, h2, e0, e1, e2, e3, e4, e5⟩ := layout51 1644168192 49 1 sb p q b o imm rfl (by decide) (by decide)
  rw [raw_maj31 _ h1]
  unfold raw31
  rw [h2]
  show some (Instr.stgq _ _ _ _ _ _) = _
  rw [e0, e1, e2, e3, e4, e5]

theorem EncodeRoundTrip.pfg (sb : BitVec 1) (p : BitVec 3) (b : BitVec 5) (o : BitVec 1) (imm : BitVec 9) : EncodeRoundTrip.Statement (.pfg sb p b o imm) := by
  intro w h hw
  refine decodeWord_of_raw h ?_ hw
  obtain rfl := Option.some.inj h
  obtain ⟨h1, h2, e0, e1, e2, e3, e4⟩ := layout52 1644169216 49 2 sb p b o imm rfl (by decide) (by decide)
  rw [raw_maj31 _ h1]
  unfold raw31
  rw [h2]
  show some (Instr.pfg _ _ _ _ _) = _
  rw [e0, e1, e2, e3, e4]

theorem EncodeRoundTrip.fence (sb : BitVec 1) (p : BitVec 3) (d : BitVec 5) (a : BitVec 5) (b : BitVec 3) : EncodeRoundTrip.Statement (.fence sb p d a b) := by
  intro w h hw
  refine decodeWord_of_raw h ?_ hw
  obtain rfl := Option.some.inj h
  obtain ⟨h1, h2, e0, e1, e2, e3, e4⟩ := layout53 1677721600 50 0 sb p d a b rfl (by decide) (by decide)
  rw [raw_maj32 _ h1]
  unfold raw32
  rw [h2]
  show some (Instr.fence _ _ _ _ _) = _
  rw [e0, e1, e2, e3, e4]

theorem EncodeRoundTrip.pubg (sb : BitVec 1) (p : BitVec 3) (a : BitVec 5) : EncodeRoundTrip.Statement (.pubg sb p a) := by
  intro w h hw
  refine decodeWord_of_raw h ?_ hw
  obtain rfl := Option.some.inj h
  obtain ⟨h1, h2, e0, e1, e2⟩ := layout54 1677721601 50 1 sb p a rfl (by decide) (by decide)
  rw [raw_maj32 _ h1]
  unfold raw32
  rw [h2]
  show some (Instr.pubg _ _ _) = _
  rw [e0, e1, e2]

theorem EncodeRoundTrip.tlbinv (sb : BitVec 1) (p : BitVec 3) (a : BitVec 5) (b : BitVec 5) : EncodeRoundTrip.Statement (.tlbinv sb p a b) := by
  intro w h hw
  refine decodeWord_of_raw h ?_ hw
  obtain rfl := Option.some.inj h
  obtain ⟨h1, h2, e0, e1, e2, e3⟩ := layout47 1711276032 51 0 sb p a b rfl (by decide) (by decide)
  rw [raw_maj33 _ h1]
  unfold raw33
  rw [h2]
  show some (Instr.tlbinv _ _ _ _) = _
  rw [e0, e1, e2, e3]

theorem EncodeRoundTrip.tlbsync (sb : BitVec 1) (p : BitVec 3) (d : BitVec 5) : EncodeRoundTrip.Statement (.tlbsync sb p d) := by
  intro w h hw
  refine decodeWord_of_raw h ?_ hw
  obtain rfl := Option.some.inj h
  obtain ⟨h1, h2, e0, e1, e2⟩ := layout55 1711276033 51 1 sb p d rfl (by decide) (by decide)
  rw [raw_maj33 _ h1]
  unfold raw33
  rw [h2]
  show some (Instr.tlbsync _ _ _) = _
  rw [e0, e1, e2]

theorem EncodeRoundTrip.caprd (sb : BitVec 1) (p : BitVec 3) (d : BitVec 5) (a : BitVec 5) : EncodeRoundTrip.Statement (.caprd sb p d a) := by
  intro w h hw
  refine decodeWord_of_raw h ?_ hw
  obtain rfl := Option.some.inj h
  obtain ⟨h1, h2, e0, e1, e2, e3⟩ := layout5 1744830464 52 0 sb p d a rfl (by decide) (by decide)
  rw [raw_maj34 _ h1]
  unfold raw34
  rw [h2]
  show some (Instr.caprd _ _ _ _) = _
  rw [e0, e1, e2, e3]

theorem EncodeRoundTrip.ctxsave (sb : BitVec 1) (p : BitVec 3) (d : BitVec 5) (a : BitVec 5) (b : BitVec 5) : EncodeRoundTrip.Statement (.ctxsave sb p d a b) := by
  intro w h hw
  refine decodeWord_of_raw h ?_ hw
  obtain rfl := Option.some.inj h
  obtain ⟨h1, h2, e0, e1, e2, e3, e4⟩ := layout4 1744830465 52 1 sb p d a b rfl (by decide) (by decide)
  rw [raw_maj34 _ h1]
  unfold raw34
  rw [h2]
  show some (Instr.ctxsave _ _ _ _ _) = _
  rw [e0, e1, e2, e3, e4]

theorem EncodeRoundTrip.ctxrst (sb : BitVec 1) (p : BitVec 3) (d : BitVec 5) (a : BitVec 5) (b : BitVec 5) : EncodeRoundTrip.Statement (.ctxrst sb p d a b) := by
  intro w h hw
  refine decodeWord_of_raw h ?_ hw
  obtain rfl := Option.some.inj h
  obtain ⟨h1, h2, e0, e1, e2, e3, e4⟩ := layout4 1744830466 52 2 sb p d a b rfl (by decide) (by decide)
  rw [raw_maj34 _ h1]
  unfold raw34
  rw [h2]
  show some (Instr.ctxrst _ _ _ _ _) = _
  rw [e0, e1, e2, e3, e4]

theorem EncodeRoundTrip.sealw (sb : BitVec 1) (p : BitVec 3) : EncodeRoundTrip.Statement (.sealw sb p) := by
  intro w h hw
  refine decodeWord_of_raw h ?_ hw
  obtain rfl := Option.some.inj h
  obtain ⟨h1, h2, e0, e1⟩ := layout15 1744830467 52 3 sb p rfl (by decide) (by decide)
  rw [raw_maj34 _ h1]
  unfold raw34
  rw [h2]
  show some (Instr.sealw _ _) = _
  rw [e0, e1]

theorem EncodeRoundTrip.hostsig (sb : BitVec 1) (p : BitVec 3) (a : BitVec 5) : EncodeRoundTrip.Statement (.hostsig sb p a) := by
  intro w h hw
  refine decodeWord_of_raw h ?_ hw
  obtain rfl := Option.some.inj h
  obtain ⟨h1, h2, e0, e1, e2⟩ := layout54 1744830468 52 4 sb p a rfl (by decide) (by decide)
  rw [raw_maj34 _ h1]
  unfold raw34
  rw [h2]
  show some (Instr.hostsig _ _ _) = _
  rw [e0, e1, e2]

theorem EncodeRoundTrip.nwr (sb : BitVec 1) (p : BitVec 3) (w : BitVec 2) (a : BitVec 5) (b : BitVec 5) : EncodeRoundTrip.Statement (.nwr sb p w a b) := by
  intro w h hw
  refine decodeWord_of_raw h ?_ hw
  obtain rfl := Option.some.inj h
  obtain ⟨h1, h2, e0, e1, e2, e3, e4⟩ := layout56 1778384896 53 0 sb p w a b rfl (by decide) (by decide)
  rw [raw_maj35 _ h1]
  unfold raw35
  rw [h2]
  show some (Instr.nwr _ _ _ _ _) = _
  rw [e0, e1, e2, e3, e4]

theorem EncodeRoundTrip.nrd (sb : BitVec 1) (p : BitVec 3) (v : BitVec 2) (k : BitVec 3) (a : BitVec 5) (w : BitVec 3) : EncodeRoundTrip.Statement (.nrd sb p v k a w) := by
  intro w h hw
  refine decodeWord_of_raw h ?_ hw
  obtain rfl := Option.some.inj h
  obtain ⟨h1, h2, e0, e1, e2, e3, e4, e5⟩ := layout57 1778384897 53 1 sb p v k a w rfl (by decide) (by decide)
  rw [raw_maj35 _ h1]
  unfold raw35
  rw [h2]
  show some (Instr.nrd _ _ _ _ _ _) = _
  rw [e0, e1, e2, e3, e4, e5]

theorem EncodeRoundTrip.nred (sb : BitVec 1) (p : BitVec 3) (d : BitVec 5) (a : BitVec 5) (b : BitVec 5) : EncodeRoundTrip.Statement (.nred sb p d a b) := by
  intro w h hw
  refine decodeWord_of_raw h ?_ hw
  obtain rfl := Option.some.inj h
  obtain ⟨h1, h2, e0, e1, e2, e3, e4⟩ := layout4 1778384898 53 2 sb p d a b rfl (by decide) (by decide)
  rw [raw_maj35 _ h1]
  unfold raw35
  rw [h2]
  show some (Instr.nred _ _ _ _ _) = _
  rw [e0, e1, e2, e3, e4]

theorem EncodeRoundTrip.nbar (sb : BitVec 1) (p : BitVec 3) (d : BitVec 5) (a : BitVec 5) : EncodeRoundTrip.Statement (.nbar sb p d a) := by
  intro w h hw
  refine decodeWord_of_raw h ?_ hw
  obtain rfl := Option.some.inj h
  obtain ⟨h1, h2, e0, e1, e2, e3⟩ := layout5 1778384899 53 3 sb p d a rfl (by decide) (by decide)
  rw [raw_maj35 _ h1]
  unfold raw35
  rw [h2]
  show some (Instr.nbar _ _ _ _) = _
  rw [e0, e1, e2, e3]

theorem EncodeRoundTrip.memb (sb : BitVec 1) (p : BitVec 3) (d : BitVec 5) : EncodeRoundTrip.Statement (.memb sb p d) := by
  intro w h hw
  refine decodeWord_of_raw h ?_ hw
  obtain rfl := Option.some.inj h
  obtain ⟨h1, h2, e0, e1, e2⟩ := layout55 1778384900 53 4 sb p d rfl (by decide) (by decide)
  rw [raw_maj35 _ h1]
  unfold raw35
  rw [h2]
  show some (Instr.memb _ _ _) = _
  rw [e0, e1, e2]

theorem EncodeRoundTrip.gsw (sb : BitVec 1) (p : BitVec 3) (d : BitVec 5) (a : BitVec 5) : EncodeRoundTrip.Statement (.gsw sb p d a) := by
  intro w h hw
  refine decodeWord_of_raw h ?_ hw
  obtain rfl := Option.some.inj h
  obtain ⟨h1, h2, e0, e1, e2, e3⟩ := layout5 1778384901 53 5 sb p d a rfl (by decide) (by decide)
  rw [raw_maj35 _ h1]
  unfold raw35
  rw [h2]
  show some (Instr.gsw _ _ _ _) = _
  rw [e0, e1, e2, e3]

theorem EncodeRoundTrip.pendingResultLand (slot : Nat) (v : VoiceId) (idx : Nat) : EncodeRoundTrip.Statement (.pendingResultLand slot v idx) := by
  intro w h; cases h

theorem EncodeRoundTrip.queueEntryFill (slot : Nat) (q : Nat) (idx : Nat) : EncodeRoundTrip.Statement (.queueEntryFill slot q idx) := by
  intro w h; cases h

theorem EncodeRoundTrip.landingArrival (slot : Nat) (v : VoiceId) (lb : Nat) : EncodeRoundTrip.Statement (.landingArrival slot v lb) := by
  intro w h; cases h

theorem EncodeRoundTrip.streamService (slot : Nat) (st : Nat) : EncodeRoundTrip.Statement (.streamService slot st) := by
  intro w h; cases h

theorem EncodeRoundTrip.slotYield  : EncodeRoundTrip.Statement (.slotYield ) := by
  intro w h; cases h

theorem EncodeRoundTrip.clauseSeal (slot : Nat) (id : Nat) : EncodeRoundTrip.Statement (.clauseSeal slot id) := by
  intro w h; cases h

theorem EncodeRoundTrip.barrierWaitEnd (slot : Nat) : EncodeRoundTrip.Statement (.barrierWaitEnd slot) := by
  intro w h; cases h

theorem EncodeRoundTrip.copy (cmd : Nat) : EncodeRoundTrip.Statement (.copy cmd) := by
  intro w h; cases h

theorem EncodeRoundTrip.copyf (cmd : Nat) : EncodeRoundTrip.Statement (.copyf cmd) := by
  intro w h; cases h

theorem EncodeRoundTrip.copyfFollowOn (cmd : Nat) : EncodeRoundTrip.Statement (.copyfFollowOn cmd) := by
  intro w h; cases h

theorem EncodeRoundTrip.arrLoadb (cmd : Nat) : EncodeRoundTrip.Statement (.arrLoadb cmd) := by
  intro w h; cases h

theorem EncodeRoundTrip.arrMm (cmd : Nat) : EncodeRoundTrip.Statement (.arrMm cmd) := by
  intro w h; cases h

theorem EncodeRoundTrip.arrSpl (cmd : Nat) : EncodeRoundTrip.Statement (.arrSpl cmd) := by
  intro w h; cases h

theorem EncodeRoundTrip.arrGrad (cmd : Nat) : EncodeRoundTrip.Statement (.arrGrad cmd) := by
  intro w h; cases h

theorem EncodeRoundTrip.arrRefine (cmd : Nat) : EncodeRoundTrip.Statement (.arrRefine cmd) := by
  intro w h; cases h

theorem EncodeRoundTrip.arrDrain (cmd : Nat) : EncodeRoundTrip.Statement (.arrDrain cmd) := by
  intro w h; cases h

theorem EncodeRoundTrip.arrRowout (cmd : Nat) : EncodeRoundTrip.Statement (.arrRowout cmd) := by
  intro w h; cases h

theorem EncodeRoundTrip.scatAdd (cmd : Nat) : EncodeRoundTrip.Statement (.scatAdd cmd) := by
  intro w h; cases h

theorem EncodeRoundTrip.scatMax (cmd : Nat) : EncodeRoundTrip.Statement (.scatMax cmd) := by
  intro w h; cases h

theorem EncodeRoundTrip.scatterWindow (cmd : Nat) : EncodeRoundTrip.Statement (.scatterWindow cmd) := by
  intro w h; cases h

theorem EncodeRoundTrip.commandRetire (cmd : Nat) : EncodeRoundTrip.Statement (.commandRetire cmd) := by
  intro w h; cases h

theorem EncodeRoundTrip.trapEntry (slot : Nat) : EncodeRoundTrip.Statement (.trapEntry slot) := by
  intro w h; cases h

theorem EncodeRoundTrip.signal (slot : Nat) : EncodeRoundTrip.Statement (.signal slot) := by
  intro w h; cases h

theorem EncodeRoundTrip.preempt  : EncodeRoundTrip.Statement (.preempt ) := by
  intro w h; cases h

theorem EncodeRoundTrip.coreImageSave : EncodeRoundTrip.Statement .coreImageSave := by
  intro w h; cases h

theorem EncodeRoundTrip.threadEnd (slot : Nat) : EncodeRoundTrip.Statement (.threadEnd slot) := by
  intro w h; cases h

theorem EncodeRoundTrip.strikeReport (region : Nat) : EncodeRoundTrip.Statement (.strikeReport region) := by
  intro w h; cases h

theorem EncodeRoundTrip.rollbackRestart  : EncodeRoundTrip.Statement (.rollbackRestart ) := by
  intro w h; cases h

theorem EncodeRoundTrip.timeSliceEnd (slot : Nat) : EncodeRoundTrip.Statement (.timeSliceEnd slot) := by
  intro w h; cases h

theorem EncodeRoundTrip.taskPlace (idx : Nat) (slot : Nat) : EncodeRoundTrip.Statement (.taskPlace idx slot) := by
  intro w h; cases h

theorem EncodeRoundTrip.pipelineSpill (pipe : Nat) : EncodeRoundTrip.Statement (.pipelineSpill pipe) := by
  intro w h; cases h

theorem EncodeRoundTrip.stealRequest (peer : Nat) : EncodeRoundTrip.Statement (.stealRequest peer) := by
  intro w h; cases h

theorem EncodeRoundTrip.stealAcknowledge (seq : Nat) : EncodeRoundTrip.Statement (.stealAcknowledge seq) := by
  intro w h; cases h

theorem EncodeRoundTrip.stealConfirm (peer : Nat) (seq : Nat) : EncodeRoundTrip.Statement (.stealConfirm peer seq) := by
  intro w h; cases h

theorem EncodeRoundTrip.stealTimeout (seq : Nat) : EncodeRoundTrip.Statement (.stealTimeout seq) := by
  intro w h; cases h

theorem EncodeRoundTrip.schedLost (cluster : Nat) : EncodeRoundTrip.Statement (.schedLost cluster) := by
  intro w h; cases h

theorem EncodeRoundTrip.clusterSwitchOut (area : Nat) : EncodeRoundTrip.Statement (.clusterSwitchOut area) := by
  intro w h; cases h

theorem EncodeRoundTrip.clusterRestore (area : Nat) : EncodeRoundTrip.Statement (.clusterRestore area) := by
  intro w h; cases h

theorem EncodeRoundTrip.walkComplete (n : Nat) : EncodeRoundTrip.Statement (.walkComplete n) := by
  intro w h; cases h

theorem EncodeRoundTrip.invalidationAck (n : Nat) : EncodeRoundTrip.Statement (.invalidationAck n) := by
  intro w h; cases h

theorem EncodeRoundTrip.invalidationHoldTimeout (slot : Nat) : EncodeRoundTrip.Statement (.invalidationHoldTimeout slot) := by
  intro w h; cases h

theorem EncodeRoundTrip.pubgToggle (n : Nat) : EncodeRoundTrip.Statement (.pubgToggle n) := by
  intro w h; cases h

theorem EncodeRoundTrip.releasePerformed (n : Nat) : EncodeRoundTrip.Statement (.releasePerformed n) := by
  intro w h; cases h

theorem EncodeRoundTrip.contextSaveRequest (n : Nat) : EncodeRoundTrip.Statement (.contextSaveRequest n) := by
  intro w h; cases h

theorem EncodeRoundTrip.contextRestoreRequest (n : Nat) : EncodeRoundTrip.Statement (.contextRestoreRequest n) := by
  intro w h; cases h

theorem EncodeRoundTrip.submissionTail (ctx : Nat) (val : Nat) : EncodeRoundTrip.Statement (.submissionTail ctx val) := by
  intro w h; cases h

theorem EncodeRoundTrip.completionHead (ctx : Nat) (val : Nat) : EncodeRoundTrip.Statement (.completionHead ctx val) := by
  intro w h; cases h

theorem EncodeRoundTrip.faultHead (ctx : Nat) (val : Nat) : EncodeRoundTrip.Statement (.faultHead ctx val) := by
  intro w h; cases h

theorem EncodeRoundTrip.launchPacket (ctx : Nat) (idx : Nat) : EncodeRoundTrip.Statement (.launchPacket ctx idx) := by
  intro w h; cases h

theorem EncodeRoundTrip.event (ctx : Nat) (idx : Nat) : EncodeRoundTrip.Statement (.event ctx idx) := by
  intro w h; cases h

theorem EncodeRoundTrip.evwaitPacket (ctx : Nat) (idx : Nat) : EncodeRoundTrip.Statement (.evwaitPacket ctx idx) := by
  intro w h; cases h

theorem EncodeRoundTrip.attach (ctx : Nat) (idx : Nat) : EncodeRoundTrip.Statement (.attach ctx idx) := by
  intro w h; cases h

theorem EncodeRoundTrip.detach (ctx : Nat) (idx : Nat) : EncodeRoundTrip.Statement (.detach ctx idx) := by
  intro w h; cases h

theorem EncodeRoundTrip.stop (ctx : Nat) (idx : Nat) : EncodeRoundTrip.Statement (.stop ctx idx) := by
  intro w h; cases h

theorem EncodeRoundTrip.resume (ctx : Nat) (idx : Nat) : EncodeRoundTrip.Statement (.resume ctx idx) := by
  intro w h; cases h

theorem EncodeRoundTrip.debugRead (ctx : Nat) (idx : Nat) : EncodeRoundTrip.Statement (.debugRead ctx idx) := by
  intro w h; cases h

theorem EncodeRoundTrip.debugWrite (ctx : Nat) (idx : Nat) : EncodeRoundTrip.Statement (.debugWrite ctx idx) := by
  intro w h; cases h

theorem EncodeRoundTrip.debugBreak (ctx : Nat) (idx : Nat) : EncodeRoundTrip.Statement (.debugBreak ctx idx) := by
  intro w h; cases h

theorem EncodeRoundTrip.sample (ctx : Nat) (idx : Nat) : EncodeRoundTrip.Statement (.sample ctx idx) := by
  intro w h; cases h

theorem EncodeRoundTrip.trace (ctx : Nat) (idx : Nat) : EncodeRoundTrip.Statement (.trace ctx idx) := by
  intro w h; cases h

theorem EncodeRoundTrip.counters (ctx : Nat) (idx : Nat) : EncodeRoundTrip.Statement (.counters ctx idx) := by
  intro w h; cases h

theorem EncodeRoundTrip.replay (ctx : Nat) (idx : Nat) : EncodeRoundTrip.Statement (.replay ctx idx) := by
  intro w h; cases h

theorem EncodeRoundTrip.inject (ctx : Nat) (idx : Nat) : EncodeRoundTrip.Statement (.inject ctx idx) := by
  intro w h; cases h

theorem EncodeRoundTrip.breakpoint (slot : Nat) : EncodeRoundTrip.Statement (.breakpoint slot) := by
  intro w h; cases h

theorem EncodeRoundTrip.freezeLimit (ctx : Nat) : EncodeRoundTrip.Statement (.freezeLimit ctx) := by
  intro w h; cases h

theorem EncodeRoundTrip.sampleEmit (slot : Nat) : EncodeRoundTrip.Statement (.sampleEmit slot) := by
  intro w h; cases h

theorem EncodeRoundTrip.replayTimeout (ctx : Nat) : EncodeRoundTrip.Statement (.replayTimeout ctx) := by
  intro w h; cases h

theorem EncodeRoundTrip.coreRelease (core : Nat) : EncodeRoundTrip.Statement (.coreRelease core) := by
  intro w h; cases h

theorem EncodeRoundTrip.powerLimit (watts : Nat) : EncodeRoundTrip.Statement (.powerLimit watts) := by
  intro w h; cases h

theorem EncodeRoundTrip.hostCtxsave (ctx : Nat) (area : Nat) (units : Nat) : EncodeRoundTrip.Statement (.hostCtxsave ctx area units) := by
  intro w h; cases h

theorem EncodeRoundTrip.hostCtxrst (ctx : Nat) (area : Nat) : EncodeRoundTrip.Statement (.hostCtxrst ctx area) := by
  intro w h; cases h

theorem EncodeRoundTrip.packageIdleRequest  : EncodeRoundTrip.Statement (.packageIdleRequest ) := by
  intro w h; cases h

theorem EncodeRoundTrip.bar0RegisterWrite (off : Nat) (val : Word) : EncodeRoundTrip.Statement (.bar0RegisterWrite off val) := by
  intro w h; cases h

theorem EncodeRoundTrip.powerOn  : EncodeRoundTrip.Statement (.powerOn ) := by
  intro w h; cases h

theorem EncodeRoundTrip.reboot (image : List Byte) : EncodeRoundTrip.Statement (.reboot image) := by
  intro w h; cases h

theorem EncodeRoundTrip.powerOff  : EncodeRoundTrip.Statement (.powerOff ) := by
  intro w h; cases h

theorem EncodeRoundTrip.getVersion (msg : List Byte) : EncodeRoundTrip.Statement (.getVersion msg) := by
  intro w h; cases h

theorem EncodeRoundTrip.getCapabilities (msg : List Byte) : EncodeRoundTrip.Statement (.getCapabilities msg) := by
  intro w h; cases h

theorem EncodeRoundTrip.negotiateAlgorithms (msg : List Byte) : EncodeRoundTrip.Statement (.negotiateAlgorithms msg) := by
  intro w h; cases h

theorem EncodeRoundTrip.getDigests (msg : List Byte) : EncodeRoundTrip.Statement (.getDigests msg) := by
  intro w h; cases h

theorem EncodeRoundTrip.getCertificate (msg : List Byte) : EncodeRoundTrip.Statement (.getCertificate msg) := by
  intro w h; cases h

theorem EncodeRoundTrip.challenge (msg : List Byte) : EncodeRoundTrip.Statement (.challenge msg) := by
  intro w h; cases h

theorem EncodeRoundTrip.getMeasurements (msg : List Byte) : EncodeRoundTrip.Statement (.getMeasurements msg) := by
  intro w h; cases h

theorem EncodeRoundTrip.flitReceive (link : Nat) (flit : BitVec 512) (trailer : BitVec 64) : EncodeRoundTrip.Statement (.flitReceive link flit trailer) := by
  intro w h; cases h

theorem EncodeRoundTrip.linkTrained (link : Nat) : EncodeRoundTrip.Statement (.linkTrained link) := by
  intro w h; cases h

theorem EncodeRoundTrip.linkRetrainTimeout (link : Nat) : EncodeRoundTrip.Statement (.linkRetrainTimeout link) := by
  intro w h; cases h

theorem EncodeRoundTrip.remoteWrite (n : Nat) : EncodeRoundTrip.Statement (.remoteWrite n) := by
  intro w h; cases h

theorem EncodeRoundTrip.readRequest (n : Nat) : EncodeRoundTrip.Statement (.readRequest n) := by
  intro w h; cases h

theorem EncodeRoundTrip.readReply (n : Nat) : EncodeRoundTrip.Statement (.readReply n) := by
  intro w h; cases h

theorem EncodeRoundTrip.writeAcknowledgement (n : Nat) : EncodeRoundTrip.Statement (.writeAcknowledgement n) := by
  intro w h; cases h

theorem EncodeRoundTrip.contribution (n : Nat) : EncodeRoundTrip.Statement (.contribution n) := by
  intro w h; cases h

theorem EncodeRoundTrip.collectiveResult (n : Nat) : EncodeRoundTrip.Statement (.collectiveResult n) := by
  intro w h; cases h

theorem EncodeRoundTrip.barrierArrival (n : Nat) : EncodeRoundTrip.Statement (.barrierArrival n) := by
  intro w h; cases h

theorem EncodeRoundTrip.barrierRelease (n : Nat) : EncodeRoundTrip.Statement (.barrierRelease n) := by
  intro w h; cases h

theorem EncodeRoundTrip.cutMarker (n : Nat) : EncodeRoundTrip.Statement (.cutMarker n) := by
  intro w h; cases h

theorem EncodeRoundTrip.resumeMarker (n : Nat) : EncodeRoundTrip.Statement (.resumeMarker n) := by
  intro w h; cases h

theorem EncodeRoundTrip.sweepReport (n : Nat) : EncodeRoundTrip.Statement (.sweepReport n) := by
  intro w h; cases h

theorem EncodeRoundTrip.purge (n : Nat) : EncodeRoundTrip.Statement (.purge n) := by
  intro w h; cases h

theorem EncodeRoundTrip.remoteTimeout (req : Nat) : EncodeRoundTrip.Statement (.remoteTimeout req) := by
  intro w h; cases h

theorem EncodeRoundTrip.memberFailure (job : Nat) (grp : Nat) (node : Nat) : EncodeRoundTrip.Statement (.memberFailure job grp node) := by
  intro w h; cases h

theorem EncodeRoundTrip.storePerformed (n : Nat) : EncodeRoundTrip.Statement (.storePerformed n) := by
  intro w h; cases h

theorem EncodeRoundTrip.unsupportedRequest (msg : List Byte) : EncodeRoundTrip.Statement (.unsupportedRequest msg) := by
  intro w h; cases h

theorem EncodeRoundTrip.contextCreation (desc : ContextDesc) : EncodeRoundTrip.Statement (.contextCreation desc) := by
  intro w h; cases h

theorem EncodeRoundTrip.hostInject (core : Nat) (region : Nat) : EncodeRoundTrip.Statement (.hostInject core region) := by
  intro w h; cases h

theorem EncodeRoundTrip.invalidPacket (ctx : Nat) (idx : Nat) : EncodeRoundTrip.Statement (.invalidPacket ctx idx) := by
  intro w h; cases h

end Sys2Proof.Laws
end

