-- ==== Sys2Proof/Laws/Words.lean ====
section
/-! SUPPORT. Every word of the opcode table goes through the one order of R46, with the class of Tables 3.7 and 3.8. -/

namespace Sys2Proof.Machine

/-- The predicate of a word, or true where it has none. -/
def liveOf (i : Instr) (h : Here) (s : State) : Bool :=
  match predOf i with
  | some p => visP (archAt s h) p
  | none => true

/-- What R46 makes of a word before its body. -/
def Judged (i : Instr) (x : WordClass) : Prop :=
  ∃ body : Here → State → Res, ∀ s, exec i s =
    issue x.sb x.cb x.perm x.priv (fun h t => placeIll h t i) (liveOf i) body s

theorem judged_of {i : Instr} {x : WordClass} {ill live : Here → State → Bool} {body : Here → State → Res}
    (h : ∀ s, exec i s = issue x.sb x.cb x.perm x.priv ill live body s) (hi : (fun h t => placeIll h t i) = ill)
    (hl : liveOf i = live) : Judged i x := ⟨body, by subst hi hl; exact h⟩

theorem judged_lui (sb : BitVec 1) (d : BitVec 5) (imm : BitVec 20) : Judged (.lui sb d imm) ⟨sb, 0, .all, false⟩ := by
  refine judged_of (ill := ?_) (live := ?_) (body := ?_) ?_ ?_ ?_
  rotate_left 3
  · intro s; rw [exec_lui]; delta execLui upperWord; exact rfl
  · rfl
  · rfl

theorem judged_lapc (sb : BitVec 1) (d : BitVec 5) (imm : BitVec 20) : Judged (.lapc sb d imm) ⟨sb, 0, .all, false⟩ := by
  refine judged_of (ill := ?_) (live := ?_) (body := ?_) ?_ ?_ ?_
  rotate_left 3
  · intro s; rw [exec_lapc]; delta execLapc upperWord; exact rfl
  · rfl
  · rfl

theorem judged_addi (sb : BitVec 1) (p : BitVec 3) (d : BitVec 5) (a : BitVec 5) (imm : BitVec 12) : Judged (.addi sb p d a imm) ⟨sb, 0, .all, false⟩ := by
  refine judged_of (ill := ?_) (live := ?_) (body := ?_) ?_ ?_ ?_
  rotate_left 3
  · intro s; rw [exec_addi]; delta execAddi scalarWord word; exact rfl
  · rfl
  · rfl

theorem judged_andi (sb : BitVec 1) (p : BitVec 3) (d : BitVec 5) (a : BitVec 5) (imm : BitVec 12) : Judged (.andi sb p d a imm) ⟨sb, 0, .all, false⟩ := by
  refine judged_of (ill := ?_) (live := ?_) (body := ?_) ?_ ?_ ?_
  rotate_left 3
  · intro s; rw [exec_andi]; delta execAndi scalarWord word; exact rfl
  · rfl
  · rfl

theorem judged_ori (sb : BitVec 1) (p : BitVec 3) (d : BitVec 5) (a : BitVec 5) (imm : BitVec 12) : Judged (.ori sb p d a imm) ⟨sb, 0, .all, false⟩ := by
  refine judged_of (ill := ?_) (live := ?_) (body := ?_) ?_ ?_ ?_
  rotate_left 3
  · intro s; rw [exec_ori]; delta execOri scalarWord word; exact rfl
  · rfl
  · rfl

theorem judged_xori (sb : BitVec 1) (p : BitVec 3) (d : BitVec 5) (a : BitVec 5) (imm : BitVec 12) : Judged (.xori sb p d a imm) ⟨sb, 0, .all, false⟩ := by
  refine judged_of (ill := ?_) (live := ?_) (body := ?_) ?_ ?_ ?_
  rotate_left 3
  · intro s; rw [exec_xori]; delta execXori scalarWord word; exact rfl
  · rfl
  · rfl

theorem judged_shli (sb : BitVec 1) (p : BitVec 3) (d : BitVec 5) (a : BitVec 5) (n : BitVec 6) : Judged (.shli sb p d a n) ⟨sb, 0, .all, false⟩ := by
  refine judged_of (ill := ?_) (live := ?_) (body := ?_) ?_ ?_ ?_
  rotate_left 3
  · intro s; rw [exec_shli]; delta execShli scalarWord word; exact rfl
  · rfl
  · rfl

theorem judged_shri (sb : BitVec 1) (p : BitVec 3) (d : BitVec 5) (a : BitVec 5) (n : BitVec 6) : Judged (.shri sb p d a n) ⟨sb, 0, .all, false⟩ := by
  refine judged_of (ill := ?_) (live := ?_) (body := ?_) ?_ ?_ ?_
  rotate_left 3
  · intro s; rw [exec_shri]; delta execShri scalarWord word; exact rfl
  · rfl
  · rfl

theorem judged_srai (sb : BitVec 1) (p : BitVec 3) (d : BitVec 5) (a : BitVec 5) (n : BitVec 6) : Judged (.srai sb p d a n) ⟨sb, 0, .all, false⟩ := by
  refine judged_of (ill := ?_) (live := ?_) (body := ?_) ?_ ?_ ?_
  rotate_left 3
  · intro s; rw [exec_srai]; delta execSrai scalarWord word; exact rfl
  · rfl
  · rfl

theorem judged_roli (sb : BitVec 1) (p : BitVec 3) (d : BitVec 5) (a : BitVec 5) (n : BitVec 6) : Judged (.roli sb p d a n) ⟨sb, 0, .all, false⟩ := by
  refine judged_of (ill := ?_) (live := ?_) (body := ?_) ?_ ?_ ?_
  rotate_left 3
  · intro s; rw [exec_roli]; delta execRoli scalarWord word; exact rfl
  · rfl
  · rfl

theorem judged_cmpeqi (sb : BitVec 1) (p : BitVec 3) (d : BitVec 3) (a : BitVec 5) (imm : BitVec 10) : Judged (.cmpeqi sb p d a imm) ⟨sb, 0, .all, false⟩ := by
  refine judged_of (ill := ?_) (live := ?_) (body := ?_) ?_ ?_ ?_
  rotate_left 3
  · intro s; rw [exec_cmpeqi]; delta execCmpeqi predWord word; exact rfl
  · rfl
  · rfl

theorem judged_cmplti (sb : BitVec 1) (p : BitVec 3) (d : BitVec 3) (a : BitVec 5) (imm : BitVec 10) : Judged (.cmplti sb p d a imm) ⟨sb, 0, .all, false⟩ := by
  refine judged_of (ill := ?_) (live := ?_) (body := ?_) ?_ ?_ ?_
  rotate_left 3
  · intro s; rw [exec_cmplti]; delta execCmplti predWord word; exact rfl
  · rfl
  · rfl

theorem judged_cmpltni (sb : BitVec 1) (p : BitVec 3) (d : BitVec 3) (a : BitVec 5) (imm : BitVec 10) : Judged (.cmpltni sb p d a imm) ⟨sb, 0, .all, false⟩ := by
  refine judged_of (ill := ?_) (live := ?_) (body := ?_) ?_ ?_ ?_
  rotate_left 3
  · intro s; rw [exec_cmpltni]; delta execCmpltni predWord word; exact rfl
  · rfl
  · rfl

theorem judged_add (sb : BitVec 1) (p : BitVec 3) (d : BitVec 5) (a : BitVec 5) (b : BitVec 5) : Judged (.add sb p d a b) ⟨sb, 0, .all, false⟩ := by
  refine judged_of (ill := ?_) (live := ?_) (body := ?_) ?_ ?_ ?_
  rotate_left 3
  · intro s; rw [exec_add]; delta execAdd scalarWord word; exact rfl
  · rfl
  · rfl

theorem judged_sub (sb : BitVec 1) (p : BitVec 3) (d : BitVec 5) (a : BitVec 5) (b : BitVec 5) : Judged (.sub sb p d a b) ⟨sb, 0, .all, false⟩ := by
  refine judged_of (ill := ?_) (live := ?_) (body := ?_) ?_ ?_ ?_
  rotate_left 3
  · intro s; rw [exec_sub]; delta execSub scalarWord word; exact rfl
  · rfl
  · rfl

theorem judged_and (sb : BitVec 1) (p : BitVec 3) (d : BitVec 5) (a : BitVec 5) (b : BitVec 5) : Judged (.and sb p d a b) ⟨sb, 0, .all, false⟩ := by
  refine judged_of (ill := ?_) (live := ?_) (body := ?_) ?_ ?_ ?_
  rotate_left 3
  · intro s; rw [exec_and]; delta execAnd scalarWord word; exact rfl
  · rfl
  · rfl

theorem judged_or (sb : BitVec 1) (p : BitVec 3) (d : BitVec 5) (a : BitVec 5) (b : BitVec 5) : Judged (.or sb p d a b) ⟨sb, 0, .all, false⟩ := by
  refine judged_of (ill := ?_) (live := ?_) (body := ?_) ?_ ?_ ?_
  rotate_left 3
  · intro s; rw [exec_or]; delta execOr scalarWord word; exact rfl
  · rfl
  · rfl

theorem judged_xor (sb : BitVec 1) (p : BitVec 3) (d : BitVec 5) (a : BitVec 5) (b : BitVec 5) : Judged (.xor sb p d a b) ⟨sb, 0, .all, false⟩ := by
  refine judged_of (ill := ?_) (live := ?_) (body := ?_) ?_ ?_ ?_
  rotate_left 3
  · intro s; rw [exec_xor]; delta execXor scalarWord word; exact rfl
  · rfl
  · rfl

theorem judged_andn (sb : BitVec 1) (p : BitVec 3) (d : BitVec 5) (a : BitVec 5) (b : BitVec 5) : Judged (.andn sb p d a b) ⟨sb, 0, .all, false⟩ := by
  refine judged_of (ill := ?_) (live := ?_) (body := ?_) ?_ ?_ ?_
  rotate_left 3
  · intro s; rw [exec_andn]; delta execAndn scalarWord word; exact rfl
  · rfl
  · rfl

theorem judged_shl (sb : BitVec 1) (p : BitVec 3) (d : BitVec 5) (a : BitVec 5) (b : BitVec 5) : Judged (.shl sb p d a b) ⟨sb, 0, .all, false⟩ := by
  refine judged_of (ill := ?_) (live := ?_) (body := ?_) ?_ ?_ ?_
  rotate_left 3
  · intro s; rw [exec_shl]; delta execShl scalarWord word; exact rfl
  · rfl
  · rfl

theorem judged_shr (sb : BitVec 1) (p : BitVec 3) (d : BitVec 5) (a : BitVec 5) (b : BitVec 5) : Judged (.shr sb p d a b) ⟨sb, 0, .all, false⟩ := by
  refine judged_of (ill := ?_) (live := ?_) (body := ?_) ?_ ?_ ?_
  rotate_left 3
  · intro s; rw [exec_shr]; delta execShr scalarWord word; exact rfl
  · rfl
  · rfl

theorem judged_sra (sb : BitVec 1) (p : BitVec 3) (d : BitVec 5) (a : BitVec 5) (b : BitVec 5) : Judged (.sra sb p d a b) ⟨sb, 0, .all, false⟩ := by
  refine judged_of (ill := ?_) (live := ?_) (body := ?_) ?_ ?_ ?_
  rotate_left 3
  · intro s; rw [exec_sra]; delta execSra scalarWord word; exact rfl
  · rfl
  · rfl

theorem judged_rol (sb : BitVec 1) (p : BitVec 3) (d : BitVec 5) (a : BitVec 5) (b : BitVec 5) : Judged (.rol sb p d a b) ⟨sb, 0, .all, false⟩ := by
  refine judged_of (ill := ?_) (live := ?_) (body := ?_) ?_ ?_ ?_
  rotate_left 3
  · intro s; rw [exec_rol]; delta execRol scalarWord word; exact rfl
  · rfl
  · rfl

theorem judged_min (sb : BitVec 1) (p : BitVec 3) (d : BitVec 5) (a : BitVec 5) (b : BitVec 5) : Judged (.min sb p d a b) ⟨sb, 0, .all, false⟩ := by
  refine judged_of (ill := ?_) (live := ?_) (body := ?_) ?_ ?_ ?_
  rotate_left 3
  · intro s; rw [exec_min]; delta execMin scalarWord word; exact rfl
  · rfl
  · rfl

theorem judged_max (sb : BitVec 1) (p : BitVec 3) (d : BitVec 5) (a : BitVec 5) (b : BitVec 5) : Judged (.max sb p d a b) ⟨sb, 0, .all, false⟩ := by
  refine judged_of (ill := ?_) (live := ?_) (body := ?_) ?_ ?_ ?_
  rotate_left 3
  · intro s; rw [exec_max]; delta execMax scalarWord word; exact rfl
  · rfl
  · rfl

theorem judged_minn (sb : BitVec 1) (p : BitVec 3) (d : BitVec 5) (a : BitVec 5) (b : BitVec 5) : Judged (.minn sb p d a b) ⟨sb, 0, .all, false⟩ := by
  refine judged_of (ill := ?_) (live := ?_) (body := ?_) ?_ ?_ ?_
  rotate_left 3
  · intro s; rw [exec_minn]; delta execMinn scalarWord word; exact rfl
  · rfl
  · rfl

theorem judged_maxn (sb : BitVec 1) (p : BitVec 3) (d : BitVec 5) (a : BitVec 5) (b : BitVec 5) : Judged (.maxn sb p d a b) ⟨sb, 0, .all, false⟩ := by
  refine judged_of (ill := ?_) (live := ?_) (body := ?_) ?_ ?_ ?_
  rotate_left 3
  · intro s; rw [exec_maxn]; delta execMaxn scalarWord word; exact rfl
  · rfl
  · rfl

theorem judged_mul (sb : BitVec 1) (p : BitVec 3) (d : BitVec 5) (a : BitVec 5) (b : BitVec 5) : Judged (.mul sb p d a b) ⟨sb, 0, .all, false⟩ := by
  refine judged_of (ill := ?_) (live := ?_) (body := ?_) ?_ ?_ ?_
  rotate_left 3
  · intro s; rw [exec_mul]; delta execMul scalarWord word; exact rfl
  · rfl
  · rfl

theorem judged_mulh (sb : BitVec 1) (p : BitVec 3) (d : BitVec 5) (a : BitVec 5) (b : BitVec 5) : Judged (.mulh sb p d a b) ⟨sb, 0, .all, false⟩ := by
  refine judged_of (ill := ?_) (live := ?_) (body := ?_) ?_ ?_ ?_
  rotate_left 3
  · intro s; rw [exec_mulh]; delta execMulh scalarWord word; exact rfl
  · rfl
  · rfl

theorem judged_mulhn (sb : BitVec 1) (p : BitVec 3) (d : BitVec 5) (a : BitVec 5) (b : BitVec 5) : Judged (.mulhn sb p d a b) ⟨sb, 0, .all, false⟩ := by
  refine judged_of (ill := ?_) (live := ?_) (body := ?_) ?_ ?_ ?_
  rotate_left 3
  · intro s; rw [exec_mulhn]; delta execMulhn scalarWord word; exact rfl
  · rfl
  · rfl

theorem judged_clz (sb : BitVec 1) (p : BitVec 3) (d : BitVec 5) (a : BitVec 5) : Judged (.clz sb p d a) ⟨sb, 0, .all, false⟩ := by
  refine judged_of (ill := ?_) (live := ?_) (body := ?_) ?_ ?_ ?_
  rotate_left 3
  · intro s; rw [exec_clz]; delta execClz scalarWord word; exact rfl
  · rfl
  · rfl

theorem judged_popc (sb : BitVec 1) (p : BitVec 3) (d : BitVec 5) (a : BitVec 5) : Judged (.popc sb p d a) ⟨sb, 0, .all, false⟩ := by
  refine judged_of (ill := ?_) (live := ?_) (body := ?_) ?_ ?_ ?_
  rotate_left 3
  · intro s; rw [exec_popc]; delta execPopc scalarWord word; exact rfl
  · rfl
  · rfl

theorem judged_sext (sb : BitVec 1) (p : BitVec 3) (d : BitVec 5) (a : BitVec 5) (w : BitVec 2) : Judged (.sext sb p d a w) ⟨sb, 0, .all, false⟩ := by
  refine judged_of (ill := ?_) (live := ?_) (body := ?_) ?_ ?_ ?_
  rotate_left 3
  · intro s; rw [exec_sext]; delta execSext scalarWord word; exact rfl
  · rfl
  · rfl

theorem judged_zext (sb : BitVec 1) (p : BitVec 3) (d : BitVec 5) (a : BitVec 5) (w : BitVec 2) : Judged (.zext sb p d a w) ⟨sb, 0, .all, false⟩ := by
  refine judged_of (ill := ?_) (live := ?_) (body := ?_) ?_ ?_ ?_
  rotate_left 3
  · intro s; rw [exec_zext]; delta execZext scalarWord word; exact rfl
  · rfl
  · rfl

theorem judged_sel (sb : BitVec 1) (k : BitVec 3) (d : BitVec 5) (a : BitVec 5) (b : BitVec 5) : Judged (.sel sb k d a b) ⟨sb, 0, .all, false⟩ := by
  refine judged_of (ill := ?_) (live := ?_) (body := ?_) ?_ ?_ ?_
  rotate_left 3
  · intro s; rw [exec_sel]; delta execSel; exact rfl
  · rfl
  · rfl

theorem judged_cmpeq (sb : BitVec 1) (p : BitVec 3) (d : BitVec 3) (a : BitVec 5) (b : BitVec 5) : Judged (.cmpeq sb p d a b) ⟨sb, 0, .all, false⟩ := by
  refine judged_of (ill := ?_) (live := ?_) (body := ?_) ?_ ?_ ?_
  rotate_left 3
  · intro s; rw [exec_cmpeq]; delta execCmpeq predWord word; exact rfl
  · rfl
  · rfl

theorem judged_cmpne (sb : BitVec 1) (p : BitVec 3) (d : BitVec 3) (a : BitVec 5) (b : BitVec 5) : Judged (.cmpne sb p d a b) ⟨sb, 0, .all, false⟩ := by
  refine judged_of (ill := ?_) (live := ?_) (body := ?_) ?_ ?_ ?_
  rotate_left 3
  · intro s; rw [exec_cmpne]; delta execCmpne predWord word; exact rfl
  · rfl
  · rfl

theorem judged_cmplt (sb : BitVec 1) (p : BitVec 3) (d : BitVec 3) (a : BitVec 5) (b : BitVec 5) : Judged (.cmplt sb p d a b) ⟨sb, 0, .all, false⟩ := by
  refine judged_of (ill := ?_) (live := ?_) (body := ?_) ?_ ?_ ?_
  rotate_left 3
  · intro s; rw [exec_cmplt]; delta execCmplt predWord word; exact rfl
  · rfl
  · rfl

theorem judged_cmple (sb : BitVec 1) (p : BitVec 3) (d : BitVec 3) (a : BitVec 5) (b : BitVec 5) : Judged (.cmple sb p d a b) ⟨sb, 0, .all, false⟩ := by
  refine judged_of (ill := ?_) (live := ?_) (body := ?_) ?_ ?_ ?_
  rotate_left 3
  · intro s; rw [exec_cmple]; delta execCmple predWord word; exact rfl
  · rfl
  · rfl

theorem judged_cmpltn (sb : BitVec 1) (p : BitVec 3) (d : BitVec 3) (a : BitVec 5) (b : BitVec 5) : Judged (.cmpltn sb p d a b) ⟨sb, 0, .all, false⟩ := by
  refine judged_of (ill := ?_) (live := ?_) (body := ?_) ?_ ?_ ?_
  rotate_left 3
  · intro s; rw [exec_cmpltn]; delta execCmpltn predWord word; exact rfl
  · rfl
  · rfl

theorem judged_cmplen (sb : BitVec 1) (p : BitVec 3) (d : BitVec 3) (a : BitVec 5) (b : BitVec 5) : Judged (.cmplen sb p d a b) ⟨sb, 0, .all, false⟩ := by
  refine judged_of (ill := ?_) (live := ?_) (body := ?_) ?_ ?_ ?_
  rotate_left 3
  · intro s; rw [exec_cmplen]; delta execCmplen predWord word; exact rfl
  · rfl
  · rfl

theorem judged_pand (sb : BitVec 1) (p : BitVec 3) (d : BitVec 3) (a : BitVec 3) (b : BitVec 3) : Judged (.pand sb p d a b) ⟨sb, 0, .all, false⟩ := by
  refine judged_of (ill := ?_) (live := ?_) (body := ?_) ?_ ?_ ?_
  rotate_left 3
  · intro s; rw [exec_pand]; delta execPand predWord word; exact rfl
  · rfl
  · rfl

theorem judged_por (sb : BitVec 1) (p : BitVec 3) (d : BitVec 3) (a : BitVec 3) (b : BitVec 3) : Judged (.por sb p d a b) ⟨sb, 0, .all, false⟩ := by
  refine judged_of (ill := ?_) (live := ?_) (body := ?_) ?_ ?_ ?_
  rotate_left 3
  · intro s; rw [exec_por]; delta execPor predWord word; exact rfl
  · rfl
  · rfl

theorem judged_pxor (sb : BitVec 1) (p : BitVec 3) (d : BitVec 3) (a : BitVec 3) (b : BitVec 3) : Judged (.pxor sb p d a b) ⟨sb, 0, .all, false⟩ := by
  refine judged_of (ill := ?_) (live := ?_) (body := ?_) ?_ ?_ ?_
  rotate_left 3
  · intro s; rw [exec_pxor]; delta execPxor predWord word; exact rfl
  · rfl
  · rfl

theorem judged_pnot (sb : BitVec 1) (p : BitVec 3) (d : BitVec 3) (a : BitVec 3) : Judged (.pnot sb p d a) ⟨sb, 0, .all, false⟩ := by
  refine judged_of (ill := ?_) (live := ?_) (body := ?_) ?_ ?_ ?_
  rotate_left 3
  · intro s; rw [exec_pnot]; delta execPnot predWord word; exact rfl
  · rfl
  · rfl

theorem judged_br (sb : BitVec 1) (p : BitVec 3) (imm : BitVec 20) : Judged (.br sb p imm) ⟨sb, 0, .all, false⟩ := by
  refine judged_of (ill := ?_) (live := ?_) (body := ?_) ?_ ?_ ?_
  rotate_left 3
  · intro s; rw [exec_br]; delta execBr branchWord; exact rfl
  · rfl
  · rfl

theorem judged_brn (sb : BitVec 1) (p : BitVec 3) (imm : BitVec 20) : Judged (.brn sb p imm) ⟨sb, 0, .all, false⟩ := by
  refine judged_of (ill := ?_) (live := ?_) (body := ?_) ?_ ?_ ?_
  rotate_left 3
  · intro s; rw [exec_brn]; delta execBrn branchWord; exact rfl
  · rfl
  · rfl

theorem judged_brt (sb : BitVec 1) (p : BitVec 3) (imm : BitVec 20) : Judged (.brt sb p imm) ⟨sb, 0, .all, false⟩ := by
  refine judged_of (ill := ?_) (live := ?_) (body := ?_) ?_ ?_ ?_
  rotate_left 3
  · intro s; rw [exec_brt]; delta execBrt branchWord; exact rfl
  · rfl
  · rfl

theorem judged_call (sb : BitVec 1) (p : BitVec 3) (imm : BitVec 20) : Judged (.call sb p imm) ⟨sb, 0, .all, false⟩ := by
  refine judged_of (ill := ?_) (live := ?_) (body := ?_) ?_ ?_ ?_
  rotate_left 3
  · intro s; rw [exec_call]; delta execCall; exact rfl
  · rfl
  · rfl

theorem judged_jr (sb : BitVec 1) (p : BitVec 3) (a : BitVec 5) (imm : BitVec 10) : Judged (.jr sb p a imm) ⟨sb, 0, .all, false⟩ := by
  refine judged_of (ill := ?_) (live := ?_) (body := ?_) ?_ ?_ ?_
  rotate_left 3
  · intro s; rw [exec_jr]; delta execJr word; exact rfl
  · rfl
  · rfl

theorem judged_jtb (sb : BitVec 1) (p : BitVec 3) (d : BitVec 5) (a : BitVec 5) (l : BitVec 10) : Judged (.jtb sb p d a l) ⟨sb, 0, .all, false⟩ := by
  refine judged_of (ill := ?_) (live := ?_) (body := ?_) ?_ ?_ ?_
  rotate_left 3
  · intro s; rw [exec_jtb]; delta execJtb word; exact rfl
  · rfl
  · rfl

theorem judged_loop (sb : BitVec 1) (p : BitVec 3) (a : BitVec 5) (imm : BitVec 12) : Judged (.loop sb p a imm) ⟨sb, 0, .all, false⟩ := by
  refine judged_of (ill := ?_) (live := ?_) (body := ?_) ?_ ?_ ?_
  rotate_left 3
  · intro s; rw [exec_loop]; delta execLoop; exact rfl
  · rfl
  · rfl

theorem judged_flip (sb : BitVec 1) (p : BitVec 3) : Judged (.flip sb p) ⟨sb, 0, .all, false⟩ := by
  refine judged_of (ill := ?_) (live := ?_) (body := ?_) ?_ ?_ ?_
  rotate_left 3
  · intro s; rw [exec_flip]; delta execFlip word; exact rfl
  · rfl
  · rfl

theorem judged_rdh (sb : BitVec 1) (p : BitVec 3) (d : BitVec 5) (a : BitVec 5) (b : BitVec 5) : Judged (.rdh sb p d a b) ⟨sb, 0, if b.toNat < 2 then .all else .x, false⟩ := by
  refine judged_of (ill := ?_) (live := ?_) (body := ?_) ?_ ?_ ?_
  rotate_left 3
  · intro s; rw [exec_rdh]; delta execRdh word; exact rfl
  · rfl
  · rfl

theorem judged_spost (sb : BitVec 1) (p : BitVec 3) (v : BitVec 2) (k : BitVec 3) : Judged (.spost sb p v k) ⟨sb, 0, .all, false⟩ := by
  refine judged_of (ill := ?_) (live := ?_) (body := ?_) ?_ ?_ ?_
  rotate_left 3
  · intro s; rw [exec_spost]; delta execSpost word; exact rfl
  · rfl
  · rfl

theorem judged_swait (sb : BitVec 1) (p : BitVec 3) (k : BitVec 3) : Judged (.swait sb p k) ⟨sb, 0, .all, false⟩ := by
  refine judged_of (ill := ?_) (live := ?_) (body := ?_) ?_ ?_ ?_
  rotate_left 3
  · intro s; rw [exec_swait]; delta execSwait word; exact rfl
  · rfl
  · rfl

theorem judged_bqput (sb : BitVec 1) (p : BitVec 3) (v : BitVec 2) (k : BitVec 3) : Judged (.bqput sb p v k) ⟨sb, 0, .all, false⟩ := by
  refine judged_of (ill := ?_) (live := ?_) (body := ?_) ?_ ?_ ?_
  rotate_left 3
  · intro s; rw [exec_bqput]; delta execBqput word; exact rfl
  · rfl
  · rfl

theorem judged_nop (sb : BitVec 1) (p : BitVec 3) : Judged (.nop sb p) ⟨sb, 0, .all, false⟩ := by
  refine judged_of (ill := ?_) (live := ?_) (body := ?_) ?_ ?_ ?_
  rotate_left 3
  · intro s; rw [exec_nop]; delta execNop word; exact rfl
  · rfl
  · rfl

theorem judged_exit (sb : BitVec 1) (p : BitVec 3) : Judged (.exit sb p) ⟨sb, 0, .all, false⟩ := by
  refine judged_of (ill := ?_) (live := ?_) (body := ?_) ?_ ?_ ?_
  rotate_left 3
  · intro s; rw [exec_exit]; delta execExit word; exact rfl
  · rfl
  · rfl

theorem judged_bqbr (sb : BitVec 1) (imm : BitVec 20) : Judged (.bqbr sb imm) ⟨sb, 0, .all, false⟩ := by
  refine judged_of (ill := ?_) (live := ?_) (body := ?_) ?_ ?_ ?_
  rotate_left 3
  · intro s; rw [exec_bqbr]; delta execBqbr bqBranch; exact rfl
  · rfl
  · rfl

theorem judged_bqbrn (sb : BitVec 1) (imm : BitVec 20) : Judged (.bqbrn sb imm) ⟨sb, 0, .all, false⟩ := by
  refine judged_of (ill := ?_) (live := ?_) (body := ?_) ?_ ?_ ?_
  rotate_left 3
  · intro s; rw [exec_bqbrn]; delta execBqbrn bqBranch; exact rfl
  · rfl
  · rfl

theorem judged_bqbrt (sb : BitVec 1) (imm : BitVec 20) : Judged (.bqbrt sb imm) ⟨sb, 0, .all, false⟩ := by
  refine judged_of (ill := ?_) (live := ?_) (body := ?_) ?_ ?_ ?_
  rotate_left 3
  · intro s; rw [exec_bqbrt]; delta execBqbrt bqBranch; exact rfl
  · rfl
  · rfl

theorem judged_trap (sb : BitVec 1) (p : BitVec 3) (c : BitVec 10) : Judged (.trap sb p c) ⟨sb, 0, .all, false⟩ := by
  refine judged_of (ill := ?_) (live := ?_) (body := ?_) ?_ ?_ ?_
  rotate_left 3
  · intro s; rw [exec_trap]; delta execTrap word; exact rfl
  · rfl
  · rfl

theorem judged_eret (sb : BitVec 1) (p : BitVec 3) : Judged (.eret sb p) ⟨sb, 0, .a, false⟩ := by
  refine judged_of (ill := ?_) (live := ?_) (body := ?_) ?_ ?_ ?_
  rotate_left 3
  · intro s; rw [exec_eret]; delta execEret; exact rfl
  · funext h t; simp [placeIll, eretIll, inHandler]
  · rfl

theorem judged_srd (sb : BitVec 1) (p : BitVec 3) (d : BitVec 5) (n : BitVec 10) : Judged (.srd sb p d n) ⟨sb, 0, if n = 3 ∨ n = 4 then .x else .all, false⟩ := by
  refine judged_of (ill := ?_) (live := ?_) (body := ?_) ?_ ?_ ?_
  rotate_left 3
  · intro s; rw [exec_srd]; delta execSrd word; exact rfl
  · rfl
  · rfl

theorem judged_swr (sb : BitVec 1) (p : BitVec 3) (d : BitVec 5) (n : BitVec 10) : Judged (.swr sb p d n) ⟨sb, 0, if n = 3 ∨ n = 4 then .x else .all, false⟩ := by
  refine judged_of (ill := ?_) (live := ?_) (body := ?_) ?_ ?_ ?_
  rotate_left 3
  · intro s; rw [exec_swr]; delta execSwr word; exact rfl
  · rfl
  · rfl

theorem judged_brk (sb : BitVec 1) (x : BitVec 25) : Judged (.brk sb x) ⟨0, 0, .all, false⟩ := by
  refine judged_of (ill := ?_) (live := ?_) (body := ?_) ?_ ?_ ?_
  rotate_left 3
  · intro s; rw [exec_brk]; delta execBrk; exact rfl
  · rfl
  · rfl

theorem judged_lds (sb : BitVec 1) (p : BitVec 3) (d : BitVec 5) (b : BitVec 5) (z : BitVec 2) (o : BitVec 1) (imm : BitVec 9) : Judged (.lds sb p d b z o imm) ⟨sb, 0, .a, false⟩ := by
  refine judged_of (ill := ?_) (live := ?_) (body := ?_) ?_ ?_ ?_
  rotate_left 3
  · intro s; rw [exec_lds]; delta execLds word; exact rfl
  · rfl
  · rfl

theorem judged_sts (sb : BitVec 1) (p : BitVec 3) (d : BitVec 5) (b : BitVec 5) (z : BitVec 2) (o : BitVec 1) (imm : BitVec 9) : Judged (.sts sb p d b z o imm) ⟨sb, 0, .a, false⟩ := by
  refine judged_of (ill := ?_) (live := ?_) (body := ?_) ?_ ?_ ?_
  rotate_left 3
  · intro s; rw [exec_sts]; delta execSts word; exact rfl
  · rfl
  · rfl

theorem judged_ldq (sb : BitVec 1) (p : BitVec 3) (q : BitVec 2) (b : BitVec 5) (o : BitVec 1) (imm : BitVec 9) : Judged (.ldq sb p q b o imm) ⟨sb, 0, .a, false⟩ := by
  refine judged_of (ill := ?_) (live := ?_) (body := ?_) ?_ ?_ ?_
  rotate_left 3
  · intro s; rw [exec_ldq]; delta execLdq word; exact rfl
  · rfl
  · rfl

theorem judged_stq (sb : BitVec 1) (p : BitVec 3) (q : BitVec 1) (b : BitVec 5) (o : BitVec 1) (imm : BitVec 9) : Judged (.stq sb p q b o imm) ⟨sb, 0, .a, false⟩ := by
  refine judged_of (ill := ?_) (live := ?_) (body := ?_) ?_ ?_ ?_
  rotate_left 3
  · intro s; rw [exec_stq]; delta execStq word; exact rfl
  · rfl
  · rfl

theorem judged_qpush (sb : BitVec 1) (p : BitVec 3) (k : BitVec 2) (a : BitVec 5) : Judged (.qpush sb p k a) ⟨sb, 0, .a, false⟩ := by
  refine judged_of (ill := ?_) (live := ?_) (body := ?_) ?_ ?_ ?_
  rotate_left 3
  · intro s; rw [exec_qpush]; delta execQpush word; exact rfl
  · rfl
  · rfl

theorem judged_qpushSq (sb : BitVec 1) (p : BitVec 3) (k : BitVec 2) (j : BitVec 1) : Judged (.qpushSq sb p k j) ⟨sb, 0, .a, false⟩ := by
  refine judged_of (ill := ?_) (live := ?_) (body := ?_) ?_ ?_ ?_
  rotate_left 3
  · intro s; rw [exec_qpushSq]; delta execQpushSq word; exact rfl
  · rfl
  · rfl

theorem judged_sbind (sb : BitVec 1) (p : BitVec 3) (k : BitVec 3) (a : BitVec 5) (q : BitVec 5) : Judged (.sbind sb p k a q) ⟨sb, 0, .a, false⟩ := by
  refine judged_of (ill := ?_) (live := ?_) (body := ?_) ?_ ?_ ?_
  rotate_left 3
  · intro s; rw [exec_sbind]; delta execSbind word; exact rfl
  · rfl
  · rfl

theorem judged_sunbind (sb : BitVec 1) (p : BitVec 3) (k : BitVec 3) : Judged (.sunbind sb p k) ⟨sb, 0, .a, false⟩ := by
  refine judged_of (ill := ?_) (live := ?_) (body := ?_) ?_ ?_ ?_
  rotate_left 3
  · intro s; rw [exec_sunbind]; delta execSunbind word; exact rfl
  · rfl
  · rfl

theorem judged_spos (sb : BitVec 1) (p : BitVec 3) (d : BitVec 5) (k : BitVec 3) : Judged (.spos sb p d k) ⟨sb, 0, .a, false⟩ := by
  refine judged_of (ill := ?_) (live := ?_) (body := ?_) ?_ ?_ ?_
  rotate_left 3
  · intro s; rw [exec_spos]; delta execSpos word; exact rfl
  · rfl
  · rfl

theorem judged_lbqry (sb : BitVec 1) (p : BitVec 3) (d : BitVec 5) (k : BitVec 3) : Judged (.lbqry sb p d k) ⟨sb, 0, .ax, false⟩ := by
  refine judged_of (ill := ?_) (live := ?_) (body := ?_) ?_ ?_ ?_
  rotate_left 3
  · intro s; rw [exec_lbqry]; delta execLbqry word; exact rfl
  · rfl
  · rfl

theorem judged_commit (sb : BitVec 1) (p : BitVec 3) (d : BitVec 5) (k : BitVec 3) : Judged (.commit sb p d k) ⟨sb, 0, .ax, false⟩ := by
  refine judged_of (ill := ?_) (live := ?_) (body := ?_) ?_ ?_ ?_
  rotate_left 3
  · intro s; rw [exec_commit]; delta execCommit; exact rfl
  · rfl
  · rfl

theorem judged_vaddI32 (sb : BitVec 1) (c : BitVec 1) (m : BitVec 3) (d : BitVec 5) (a : BitVec 5) (b : BitVec 5) (q : BitVec 1) : Judged (.vaddI32 sb c m d a b q) ⟨sb, c, .x, false⟩ := by
  refine judged_of (ill := ?_) (live := ?_) (body := ?_) ?_ ?_ ?_
  rotate_left 3
  · intro s; rw [exec_vaddI32]; delta execVaddI32 vecWord; exact rfl
  · rfl
  · rfl

theorem judged_vsubI32 (sb : BitVec 1) (c : BitVec 1) (m : BitVec 3) (d : BitVec 5) (a : BitVec 5) (b : BitVec 5) (q : BitVec 1) : Judged (.vsubI32 sb c m d a b q) ⟨sb, c, .x, false⟩ := by
  refine judged_of (ill := ?_) (live := ?_) (body := ?_) ?_ ?_ ?_
  rotate_left 3
  · intro s; rw [exec_vsubI32]; delta execVsubI32 vecWord; exact rfl
  · rfl
  · rfl

theorem judged_vmulI32 (sb : BitVec 1) (c : BitVec 1) (m : BitVec 3) (d : BitVec 5) (a : BitVec 5) (b : BitVec 5) (q : BitVec 1) : Judged (.vmulI32 sb c m d a b q) ⟨sb, c, .x, false⟩ := by
  refine judged_of (ill := ?_) (live := ?_) (body := ?_) ?_ ?_ ?_
  rotate_left 3
  · intro s; rw [exec_vmulI32]; delta execVmulI32 vecWord; exact rfl
  · rfl
  · rfl

theorem judged_vmulhI32 (sb : BitVec 1) (c : BitVec 1) (m : BitVec 3) (d : BitVec 5) (a : BitVec 5) (b : BitVec 5) (q : BitVec 1) : Judged (.vmulhI32 sb c m d a b q) ⟨sb, c, .x, false⟩ := by
  refine judged_of (ill := ?_) (live := ?_) (body := ?_) ?_ ?_ ?_
  rotate_left 3
  · intro s; rw [exec_vmulhI32]; delta execVmulhI32 vecWord; exact rfl
  · rfl
  · rfl

theorem judged_vmulhnI32 (sb : BitVec 1) (c : BitVec 1) (m : BitVec 3) (d : BitVec 5) (a : BitVec 5) (b : BitVec 5) (q : BitVec 1) : Judged (.vmulhnI32 sb c m d a b q) ⟨sb, c, .x, false⟩ := by
  refine judged_of (ill := ?_) (live := ?_) (body := ?_) ?_ ?_ ?_
  rotate_left 3
  · intro s; rw [exec_vmulhnI32]; delta execVmulhnI32 vecWord; exact rfl
  · rfl
  · rfl

theorem judged_vminI32 (sb : BitVec 1) (c : BitVec 1) (m : BitVec 3) (d : BitVec 5) (a : BitVec 5) (b : BitVec 5) (q : BitVec 1) : Judged (.vminI32 sb c m d a b q) ⟨sb, c, .x, false⟩ := by
  refine judged_of (ill := ?_) (live := ?_) (body := ?_) ?_ ?_ ?_
  rotate_left 3
  · intro s; rw [exec_vminI32]; delta execVminI32 vecWord; exact rfl
  · rfl
  · rfl

theorem judged_vmaxI32 (sb : BitVec 1) (c : BitVec 1) (m : BitVec 3) (d : BitVec 5) (a : BitVec 5) (b : BitVec 5) (q : BitVec 1) : Judged (.vmaxI32 sb c m d a b q) ⟨sb, c, .x, false⟩ := by
  refine judged_of (ill := ?_) (live := ?_) (body := ?_) ?_ ?_ ?_
  rotate_left 3
  · intro s; rw [exec_vmaxI32]; delta execVmaxI32 vecWord; exact rfl
  · rfl
  · rfl

theorem judged_vminnI32 (sb : BitVec 1) (c : BitVec 1) (m : BitVec 3) (d : BitVec 5) (a : BitVec 5) (b : BitVec 5) (q : BitVec 1) : Judged (.vminnI32 sb c m d a b q) ⟨sb, c, .x, false⟩ := by
  refine judged_of (ill := ?_) (live := ?_) (body := ?_) ?_ ?_ ?_
  rotate_left 3
  · intro s; rw [exec_vminnI32]; delta execVminnI32 vecWord; exact rfl
  · rfl
  · rfl

theorem judged_vmaxnI32 (sb : BitVec 1) (c : BitVec 1) (m : BitVec 3) (d : BitVec 5) (a : BitVec 5) (b : BitVec 5) (q : BitVec 1) : Judged (.vmaxnI32 sb c m d a b q) ⟨sb, c, .x, false⟩ := by
  refine judged_of (ill := ?_) (live := ?_) (body := ?_) ?_ ?_ ?_
  rotate_left 3
  · intro s; rw [exec_vmaxnI32]; delta execVmaxnI32 vecWord; exact rfl
  · rfl
  · rfl

theorem judged_vandI32 (sb : BitVec 1) (c : BitVec 1) (m : BitVec 3) (d : BitVec 5) (a : BitVec 5) (b : BitVec 5) (q : BitVec 1) : Judged (.vandI32 sb c m d a b q) ⟨sb, c, .x, false⟩ := by
  refine judged_of (ill := ?_) (live := ?_) (body := ?_) ?_ ?_ ?_
  rotate_left 3
  · intro s; rw [exec_vandI32]; delta execVandI32 vecWord; exact rfl
  · rfl
  · rfl

theorem judged_vorI32 (sb : BitVec 1) (c : BitVec 1) (m : BitVec 3) (d : BitVec 5) (a : BitVec 5) (b : BitVec 5) (q : BitVec 1) : Judged (.vorI32 sb c m d a b q) ⟨sb, c, .x, false⟩ := by
  refine judged_of (ill := ?_) (live := ?_) (body := ?_) ?_ ?_ ?_
  rotate_left 3
  · intro s; rw [exec_vorI32]; delta execVorI32 vecWord; exact rfl
  · rfl
  · rfl

theorem judged_vxorI32 (sb : BitVec 1) (c : BitVec 1) (m : BitVec 3) (d : BitVec 5) (a : BitVec 5) (b : BitVec 5) (q : BitVec 1) : Judged (.vxorI32 sb c m d a b q) ⟨sb, c, .x, false⟩ := by
  refine judged_of (ill := ?_) (live := ?_) (body := ?_) ?_ ?_ ?_
  rotate_left 3
  · intro s; rw [exec_vxorI32]; delta execVxorI32 vecWord; exact rfl
  · rfl
  · rfl

theorem judged_vshlI32 (sb : BitVec 1) (c : BitVec 1) (m : BitVec 3) (d : BitVec 5) (a : BitVec 5) (b : BitVec 5) (q : BitVec 1) : Judged (.vshlI32 sb c m d a b q) ⟨sb, c, .x, false⟩ := by
  refine judged_of (ill := ?_) (live := ?_) (body := ?_) ?_ ?_ ?_
  rotate_left 3
  · intro s; rw [exec_vshlI32]; delta execVshlI32 vecWord; exact rfl
  · rfl
  · rfl

theorem judged_vshrI32 (sb : BitVec 1) (c : BitVec 1) (m : BitVec 3) (d : BitVec 5) (a : BitVec 5) (b : BitVec 5) (q : BitVec 1) : Judged (.vshrI32 sb c m d a b q) ⟨sb, c, .x, false⟩ := by
  refine judged_of (ill := ?_) (live := ?_) (body := ?_) ?_ ?_ ?_
  rotate_left 3
  · intro s; rw [exec_vshrI32]; delta execVshrI32 vecWord; exact rfl
  · rfl
  · rfl

theorem judged_vsraI32 (sb : BitVec 1) (c : BitVec 1) (m : BitVec 3) (d : BitVec 5) (a : BitVec 5) (b : BitVec 5) (q : BitVec 1) : Judged (.vsraI32 sb c m d a b q) ⟨sb, c, .x, false⟩ := by
  refine judged_of (ill := ?_) (live := ?_) (body := ?_) ?_ ?_ ?_
  rotate_left 3
  · intro s; rw [exec_vsraI32]; delta execVsraI32 vecWord; exact rfl
  · rfl
  · rfl

theorem judged_vcmpeqI32 (sb : BitVec 1) (c : BitVec 1) (m : BitVec 3) (d : BitVec 3) (a : BitVec 5) (b : BitVec 5) (q : BitVec 1) : Judged (.vcmpeqI32 sb c m d a b q) ⟨sb, c, .x, false⟩ := by
  refine judged_of (ill := ?_) (live := ?_) (body := ?_) ?_ ?_ ?_
  rotate_left 3
  · intro s; rw [exec_vcmpeqI32]; delta execVcmpeqI32 vecToReg; exact rfl
  · rfl
  · rfl

theorem judged_vcmpltI32 (sb : BitVec 1) (c : BitVec 1) (m : BitVec 3) (d : BitVec 3) (a : BitVec 5) (b : BitVec 5) (q : BitVec 1) : Judged (.vcmpltI32 sb c m d a b q) ⟨sb, c, .x, false⟩ := by
  refine judged_of (ill := ?_) (live := ?_) (body := ?_) ?_ ?_ ?_
  rotate_left 3
  · intro s; rw [exec_vcmpltI32]; delta execVcmpltI32 vecToReg; exact rfl
  · rfl
  · rfl

theorem judged_vcmpltnI32 (sb : BitVec 1) (c : BitVec 1) (m : BitVec 3) (d : BitVec 3) (a : BitVec 5) (b : BitVec 5) (q : BitVec 1) : Judged (.vcmpltnI32 sb c m d a b q) ⟨sb, c, .x, false⟩ := by
  refine judged_of (ill := ?_) (live := ?_) (body := ?_) ?_ ?_ ?_
  rotate_left 3
  · intro s; rw [exec_vcmpltnI32]; delta execVcmpltnI32 vecToReg; exact rfl
  · rfl
  · rfl

theorem judged_vsel (sb : BitVec 1) (c : BitVec 1) (m : BitVec 3) (d : BitVec 5) (a : BitVec 5) (b : BitVec 5) (q : BitVec 1) : Judged (.vsel sb c m d a b q) ⟨sb, c, .x, false⟩ := by
  refine judged_of (ill := ?_) (live := ?_) (body := ?_) ?_ ?_ ?_
  rotate_left 3
  · intro s; rw [exec_vsel]; delta execVsel vecWord; exact rfl
  · rfl
  · rfl

theorem judged_vaddF32 (sb : BitVec 1) (c : BitVec 1) (m : BitVec 3) (d : BitVec 5) (a : BitVec 5) (b : BitVec 5) (q : BitVec 1) : Judged (.vaddF32 sb c m d a b q) ⟨sb, c, .x, false⟩ := by
  refine judged_of (ill := ?_) (live := ?_) (body := ?_) ?_ ?_ ?_
  rotate_left 3
  · intro s; rw [exec_vaddF32]; delta execVaddF32 vecWord; exact rfl
  · rfl
  · rfl

theorem judged_vsubF32 (sb : BitVec 1) (c : BitVec 1) (m : BitVec 3) (d : BitVec 5) (a : BitVec 5) (b : BitVec 5) (q : BitVec 1) : Judged (.vsubF32 sb c m d a b q) ⟨sb, c, .x, false⟩ := by
  refine judged_of (ill := ?_) (live := ?_) (body := ?_) ?_ ?_ ?_
  rotate_left 3
  · intro s; rw [exec_vsubF32]; delta execVsubF32 vecWord; exact rfl
  · rfl
  · rfl

theorem judged_vmulF32 (sb : BitVec 1) (c : BitVec 1) (m : BitVec 3) (d : BitVec 5) (a : BitVec 5) (b : BitVec 5) (q : BitVec 1) : Judged (.vmulF32 sb c m d a b q) ⟨sb, c, .x, false⟩ := by
  refine judged_of (ill := ?_) (live := ?_) (body := ?_) ?_ ?_ ?_
  rotate_left 3
  · intro s; rw [exec_vmulF32]; delta execVmulF32 vecWord; exact rfl
  · rfl
  · rfl

theorem judged_vminF32 (sb : BitVec 1) (c : BitVec 1) (m : BitVec 3) (d : BitVec 5) (a : BitVec 5) (b : BitVec 5) (q : BitVec 1) : Judged (.vminF32 sb c m d a b q) ⟨sb, c, .x, false⟩ := by
  refine judged_of (ill := ?_) (live := ?_) (body := ?_) ?_ ?_ ?_
  rotate_left 3
  · intro s; rw [exec_vminF32]; delta execVminF32 vecWord; exact rfl
  · rfl
  · rfl

theorem judged_vmaxF32 (sb : BitVec 1) (c : BitVec 1) (m : BitVec 3) (d : BitVec 5) (a : BitVec 5) (b : BitVec 5) (q : BitVec 1) : Judged (.vmaxF32 sb c m d a b q) ⟨sb, c, .x, false⟩ := by
  refine judged_of (ill := ?_) (live := ?_) (body := ?_) ?_ ?_ ?_
  rotate_left 3
  · intro s; rw [exec_vmaxF32]; delta execVmaxF32 vecWord; exact rfl
  · rfl
  · rfl

theorem judged_vabsF32 (sb : BitVec 1) (c : BitVec 1) (m : BitVec 3) (d : BitVec 5) (a : BitVec 5) (q : BitVec 1) : Judged (.vabsF32 sb c m d a q) ⟨sb, c, .x, false⟩ := by
  refine judged_of (ill := ?_) (live := ?_) (body := ?_) ?_ ?_ ?_
  rotate_left 3
  · intro s; rw [exec_vabsF32]; delta execVabsF32 vecWord; exact rfl
  · rfl
  · rfl

theorem judged_vnegF32 (sb : BitVec 1) (c : BitVec 1) (m : BitVec 3) (d : BitVec 5) (a : BitVec 5) (q : BitVec 1) : Judged (.vnegF32 sb c m d a q) ⟨sb, c, .x, false⟩ := by
  refine judged_of (ill := ?_) (live := ?_) (body := ?_) ?_ ?_ ?_
  rotate_left 3
  · intro s; rw [exec_vnegF32]; delta execVnegF32 vecWord; exact rfl
  · rfl
  · rfl

theorem judged_vcmpeqF32 (sb : BitVec 1) (c : BitVec 1) (m : BitVec 3) (d : BitVec 3) (a : BitVec 5) (b : BitVec 5) (q : BitVec 1) : Judged (.vcmpeqF32 sb c m d a b q) ⟨sb, c, .x, false⟩ := by
  refine judged_of (ill := ?_) (live := ?_) (body := ?_) ?_ ?_ ?_
  rotate_left 3
  · intro s; rw [exec_vcmpeqF32]; delta execVcmpeqF32 vecToReg; exact rfl
  · rfl
  · rfl

theorem judged_vcmpltF32 (sb : BitVec 1) (c : BitVec 1) (m : BitVec 3) (d : BitVec 3) (a : BitVec 5) (b : BitVec 5) (q : BitVec 1) : Judged (.vcmpltF32 sb c m d a b q) ⟨sb, c, .x, false⟩ := by
  refine judged_of (ill := ?_) (live := ?_) (body := ?_) ?_ ?_ ?_
  rotate_left 3
  · intro s; rw [exec_vcmpltF32]; delta execVcmpltF32 vecToReg; exact rfl
  · rfl
  · rfl

theorem judged_vcmpleF32 (sb : BitVec 1) (c : BitVec 1) (m : BitVec 3) (d : BitVec 3) (a : BitVec 5) (b : BitVec 5) (q : BitVec 1) : Judged (.vcmpleF32 sb c m d a b q) ⟨sb, c, .x, false⟩ := by
  refine judged_of (ill := ?_) (live := ?_) (body := ?_) ?_ ?_ ?_
  rotate_left 3
  · intro s; rw [exec_vcmpleF32]; delta execVcmpleF32 vecToReg; exact rfl
  · rfl
  · rfl

theorem judged_vaddF16 (sb : BitVec 1) (c : BitVec 1) (m : BitVec 3) (d : BitVec 5) (a : BitVec 5) (b : BitVec 5) (q : BitVec 1) : Judged (.vaddF16 sb c m d a b q) ⟨sb, c, .x, false⟩ := by
  refine judged_of (ill := ?_) (live := ?_) (body := ?_) ?_ ?_ ?_
  rotate_left 3
  · intro s; rw [exec_vaddF16]; delta execVaddF16 vecWord; exact rfl
  · rfl
  · rfl

theorem judged_vsubF16 (sb : BitVec 1) (c : BitVec 1) (m : BitVec 3) (d : BitVec 5) (a : BitVec 5) (b : BitVec 5) (q : BitVec 1) : Judged (.vsubF16 sb c m d a b q) ⟨sb, c, .x, false⟩ := by
  refine judged_of (ill := ?_) (live := ?_) (body := ?_) ?_ ?_ ?_
  rotate_left 3
  · intro s; rw [exec_vsubF16]; delta execVsubF16 vecWord; exact rfl
  · rfl
  · rfl

theorem judged_vmulF16 (sb : BitVec 1) (c : BitVec 1) (m : BitVec 3) (d : BitVec 5) (a : BitVec 5) (b : BitVec 5) (q : BitVec 1) : Judged (.vmulF16 sb c m d a b q) ⟨sb, c, .x, false⟩ := by
  refine judged_of (ill := ?_) (live := ?_) (body := ?_) ?_ ?_ ?_
  rotate_left 3
  · intro s; rw [exec_vmulF16]; delta execVmulF16 vecWord; exact rfl
  · rfl
  · rfl

theorem judged_vminF16 (sb : BitVec 1) (c : BitVec 1) (m : BitVec 3) (d : BitVec 5) (a : BitVec 5) (b : BitVec 5) (q : BitVec 1) : Judged (.vminF16 sb c m d a b q) ⟨sb, c, .x, false⟩ := by
  refine judged_of (ill := ?_) (live := ?_) (body := ?_) ?_ ?_ ?_
  rotate_left 3
  · intro s; rw [exec_vminF16]; delta execVminF16 vecWord; exact rfl
  · rfl
  · rfl

theorem judged_vmaxF16 (sb : BitVec 1) (c : BitVec 1) (m : BitVec 3) (d : BitVec 5) (a : BitVec 5) (b : BitVec 5) (q : BitVec 1) : Judged (.vmaxF16 sb c m d a b q) ⟨sb, c, .x, false⟩ := by
  refine judged_of (ill := ?_) (live := ?_) (body := ?_) ?_ ?_ ?_
  rotate_left 3
  · intro s; rw [exec_vmaxF16]; delta execVmaxF16 vecWord; exact rfl
  · rfl
  · rfl

theorem judged_vabsF16 (sb : BitVec 1) (c : BitVec 1) (m : BitVec 3) (d : BitVec 5) (a : BitVec 5) (q : BitVec 1) : Judged (.vabsF16 sb c m d a q) ⟨sb, c, .x, false⟩ := by
  refine judged_of (ill := ?_) (live := ?_) (body := ?_) ?_ ?_ ?_
  rotate_left 3
  · intro s; rw [exec_vabsF16]; delta execVabsF16 vecWord; exact rfl
  · rfl
  · rfl

theorem judged_vnegF16 (sb : BitVec 1) (c : BitVec 1) (m : BitVec 3) (d : BitVec 5) (a : BitVec 5) (q : BitVec 1) : Judged (.vnegF16 sb c m d a q) ⟨sb, c, .x, false⟩ := by
  refine judged_of (ill := ?_) (live := ?_) (body := ?_) ?_ ?_ ?_
  rotate_left 3
  · intro s; rw [exec_vnegF16]; delta execVnegF16 vecWord; exact rfl
  · rfl
  · rfl

theorem judged_vcmpeqF16 (sb : BitVec 1) (c : BitVec 1) (m : BitVec 3) (d : BitVec 3) (a : BitVec 5) (b : BitVec 5) (q : BitVec 1) : Judged (.vcmpeqF16 sb c m d a b q) ⟨sb, c, .x, false⟩ := by
  refine judged_of (ill := ?_) (live := ?_) (body := ?_) ?_ ?_ ?_
  rotate_left 3
  · intro s; rw [exec_vcmpeqF16]; delta execVcmpeqF16 vecToReg; exact rfl
  · rfl
  · rfl

theorem judged_vcmpltF16 (sb : BitVec 1) (c : BitVec 1) (m : BitVec 3) (d : BitVec 3) (a : BitVec 5) (b : BitVec 5) (q : BitVec 1) : Judged (.vcmpltF16 sb c m d a b q) ⟨sb, c, .x, false⟩ := by
  refine judged_of (ill := ?_) (live := ?_) (body := ?_) ?_ ?_ ?_
  rotate_left 3
  · intro s; rw [exec_vcmpltF16]; delta execVcmpltF16 vecToReg; exact rfl
  · rfl
  · rfl

theorem judged_vcmpleF16 (sb : BitVec 1) (c : BitVec 1) (m : BitVec 3) (d : BitVec 3) (a : BitVec 5) (b : BitVec 5) (q : BitVec 1) : Judged (.vcmpleF16 sb c m d a b q) ⟨sb, c, .x, false⟩ := by
  refine judged_of (ill := ?_) (live := ?_) (body := ?_) ?_ ?_ ?_
  rotate_left 3
  · intro s; rw [exec_vcmpleF16]; delta execVcmpleF16 vecToReg; exact rfl
  · rfl
  · rfl

theorem judged_vaddBf16 (sb : BitVec 1) (c : BitVec 1) (m : BitVec 3) (d : BitVec 5) (a : BitVec 5) (b : BitVec 5) (q : BitVec 1) : Judged (.vaddBf16 sb c m d a b q) ⟨sb, c, .x, false⟩ := by
  refine judged_of (ill := ?_) (live := ?_) (body := ?_) ?_ ?_ ?_
  rotate_left 3
  · intro s; rw [exec_vaddBf16]; delta execVaddBf16 vecWord; exact rfl
  · rfl
  · rfl

theorem judged_vsubBf16 (sb : BitVec 1) (c : BitVec 1) (m : BitVec 3) (d : BitVec 5) (a : BitVec 5) (b : BitVec 5) (q : BitVec 1) : Judged (.vsubBf16 sb c m d a b q) ⟨sb, c, .x, false⟩ := by
  refine judged_of (ill := ?_) (live := ?_) (body := ?_) ?_ ?_ ?_
  rotate_left 3
  · intro s; rw [exec_vsubBf16]; delta execVsubBf16 vecWord; exact rfl
  · rfl
  · rfl

theorem judged_vmulBf16 (sb : BitVec 1) (c : BitVec 1) (m : BitVec 3) (d : BitVec 5) (a : BitVec 5) (b : BitVec 5) (q : BitVec 1) : Judged (.vmulBf16 sb c m d a b q) ⟨sb, c, .x, false⟩ := by
  refine judged_of (ill := ?_) (live := ?_) (body := ?_) ?_ ?_ ?_
  rotate_left 3
  · intro s; rw [exec_vmulBf16]; delta execVmulBf16 vecWord; exact rfl
  · rfl
  · rfl

theorem judged_vminBf16 (sb : BitVec 1) (c : BitVec 1) (m : BitVec 3) (d : BitVec 5) (a : BitVec 5) (b : BitVec 5) (q : BitVec 1) : Judged (.vminBf16 sb c m d a b q) ⟨sb, c, .x, false⟩ := by
  refine judged_of (ill := ?_) (live := ?_) (body := ?_) ?_ ?_ ?_
  rotate_left 3
  · intro s; rw [exec_vminBf16]; delta execVminBf16 vecWord; exact rfl
  · rfl
  · rfl

theorem judged_vmaxBf16 (sb : BitVec 1) (c : BitVec 1) (m : BitVec 3) (d : BitVec 5) (a : BitVec 5) (b : BitVec 5) (q : BitVec 1) : Judged (.vmaxBf16 sb c m d a b q) ⟨sb, c, .x, false⟩ := by
  refine judged_of (ill := ?_) (live := ?_) (body := ?_) ?_ ?_ ?_
  rotate_left 3
  · intro s; rw [exec_vmaxBf16]; delta execVmaxBf16 vecWord; exact rfl
  · rfl
  · rfl

theorem judged_vabsBf16 (sb : BitVec 1) (c : BitVec 1) (m : BitVec 3) (d : BitVec 5) (a : BitVec 5) (q : BitVec 1) : Judged (.vabsBf16 sb c m d a q) ⟨sb, c, .x, false⟩ := by
  refine judged_of (ill := ?_) (live := ?_) (body := ?_) ?_ ?_ ?_
  rotate_left 3
  · intro s; rw [exec_vabsBf16]; delta execVabsBf16 vecWord; exact rfl
  · rfl
  · rfl

theorem judged_vnegBf16 (sb : BitVec 1) (c : BitVec 1) (m : BitVec 3) (d : BitVec 5) (a : BitVec 5) (q : BitVec 1) : Judged (.vnegBf16 sb c m d a q) ⟨sb, c, .x, false⟩ := by
  refine judged_of (ill := ?_) (live := ?_) (body := ?_) ?_ ?_ ?_
  rotate_left 3
  · intro s; rw [exec_vnegBf16]; delta execVnegBf16 vecWord; exact rfl
  · rfl
  · rfl

theorem judged_vcmpeqBf16 (sb : BitVec 1) (c : BitVec 1) (m : BitVec 3) (d : BitVec 3) (a : BitVec 5) (b : BitVec 5) (q : BitVec 1) : Judged (.vcmpeqBf16 sb c m d a b q) ⟨sb, c, .x, false⟩ := by
  refine judged_of (ill := ?_) (live := ?_) (body := ?_) ?_ ?_ ?_
  rotate_left 3
  · intro s; rw [exec_vcmpeqBf16]; delta execVcmpeqBf16 vecToReg; exact rfl
  · rfl
  · rfl

theorem judged_vcmpltBf16 (sb : BitVec 1) (c : BitVec 1) (m : BitVec 3) (d : BitVec 3) (a : BitVec 5) (b : BitVec 5) (q : BitVec 1) : Judged (.vcmpltBf16 sb c m d a b q) ⟨sb, c, .x, false⟩ := by
  refine judged_of (ill := ?_) (live := ?_) (body := ?_) ?_ ?_ ?_
  rotate_left 3
  · intro s; rw [exec_vcmpltBf16]; delta execVcmpltBf16 vecToReg; exact rfl
  · rfl
  · rfl

theorem judged_vcmpleBf16 (sb : BitVec 1) (c : BitVec 1) (m : BitVec 3) (d : BitVec 3) (a : BitVec 5) (b : BitVec 5) (q : BitVec 1) : Judged (.vcmpleBf16 sb c m d a b q) ⟨sb, c, .x, false⟩ := by
  refine judged_of (ill := ?_) (live := ?_) (body := ?_) ?_ ?_ ?_
  rotate_left 3
  · intro s; rw [exec_vcmpleBf16]; delta execVcmpleBf16 vecToReg; exact rfl
  · rfl
  · rfl

theorem judged_vfmaF32 (sb : BitVec 1) (c : BitVec 1) (m : BitVec 3) (d : BitVec 5) (a : BitVec 5) (b : BitVec 5) (e : BitVec 5) (q : BitVec 1) : Judged (.vfmaF32 sb c m d a b e q) ⟨sb, c, .x, false⟩ := by
  refine judged_of (ill := ?_) (live := ?_) (body := ?_) ?_ ?_ ?_
  rotate_left 3
  · intro s; rw [exec_vfmaF32]; delta execVfmaF32 vecWord; exact rfl
  · rfl
  · rfl

theorem judged_vfmsF32 (sb : BitVec 1) (c : BitVec 1) (m : BitVec 3) (d : BitVec 5) (a : BitVec 5) (b : BitVec 5) (e : BitVec 5) (q : BitVec 1) : Judged (.vfmsF32 sb c m d a b e q) ⟨sb, c, .x, false⟩ := by
  refine judged_of (ill := ?_) (live := ?_) (body := ?_) ?_ ?_ ?_
  rotate_left 3
  · intro s; rw [exec_vfmsF32]; delta execVfmsF32 vecWord; exact rfl
  · rfl
  · rfl

theorem judged_vfmaBf16 (sb : BitVec 1) (c : BitVec 1) (m : BitVec 3) (d : BitVec 5) (a : BitVec 5) (b : BitVec 5) (e : BitVec 5) (q : BitVec 1) : Judged (.vfmaBf16 sb c m d a b e q) ⟨sb, c, .x, false⟩ := by
  refine judged_of (ill := ?_) (live := ?_) (body := ?_) ?_ ?_ ?_
  rotate_left 3
  · intro s; rw [exec_vfmaBf16]; delta execVfmaBf16 vecWord; exact rfl
  · rfl
  · rfl

theorem judged_vfmaF16 (sb : BitVec 1) (c : BitVec 1) (m : BitVec 3) (d : BitVec 5) (a : BitVec 5) (b : BitVec 5) (e : BitVec 5) (q : BitVec 1) : Judged (.vfmaF16 sb c m d a b e q) ⟨sb, c, .x, false⟩ := by
  refine judged_of (ill := ?_) (live := ?_) (body := ?_) ?_ ?_ ?_
  rotate_left 3
  · intro s; rw [exec_vfmaF16]; delta execVfmaF16 vecWord; exact rfl
  · rfl
  · rfl

theorem judged_vcvtF32I32 (sb : BitVec 1) (c : BitVec 1) (m : BitVec 3) (d : BitVec 5) (a : BitVec 5) (r : BitVec 3) (q : BitVec 1) : Judged (.vcvtF32I32 sb c m d a r q) ⟨sb, c, .x, false⟩ := by
  refine judged_of (ill := ?_) (live := ?_) (body := ?_) ?_ ?_ ?_
  rotate_left 3
  · intro s; rw [exec_vcvtF32I32]; delta execVcvtF32I32 vecWord; exact rfl
  · rfl
  · rfl

theorem judged_vcvtI32F32 (sb : BitVec 1) (c : BitVec 1) (m : BitVec 3) (d : BitVec 5) (a : BitVec 5) (r : BitVec 3) (q : BitVec 1) : Judged (.vcvtI32F32 sb c m d a r q) ⟨sb, c, .x, false⟩ := by
  refine judged_of (ill := ?_) (live := ?_) (body := ?_) ?_ ?_ ?_
  rotate_left 3
  · intro s; rw [exec_vcvtI32F32]; delta execVcvtI32F32 vecWord; exact rfl
  · rfl
  · rfl

theorem judged_vcvtF32F16 (sb : BitVec 1) (c : BitVec 1) (m : BitVec 3) (d : BitVec 5) (a : BitVec 5) (x : BitVec 1) (q : BitVec 1) : Judged (.vcvtF32F16 sb c m d a x q) ⟨sb, c, .x, false⟩ := by
  refine judged_of (ill := ?_) (live := ?_) (body := ?_) ?_ ?_ ?_
  rotate_left 3
  · intro s; rw [exec_vcvtF32F16]; delta execVcvtF32F16 vecWord; exact rfl
  · rfl
  · rfl

theorem judged_vcvtF32Bf16 (sb : BitVec 1) (c : BitVec 1) (m : BitVec 3) (d : BitVec 5) (a : BitVec 5) (x : BitVec 1) (q : BitVec 1) : Judged (.vcvtF32Bf16 sb c m d a x q) ⟨sb, c, .x, false⟩ := by
  refine judged_of (ill := ?_) (live := ?_) (body := ?_) ?_ ?_ ?_
  rotate_left 3
  · intro s; rw [exec_vcvtF32Bf16]; delta execVcvtF32Bf16 vecWord; exact rfl
  · rfl
  · rfl

theorem judged_vcvtF16F32 (sb : BitVec 1) (c : BitVec 1) (m : BitVec 3) (d : BitVec 5) (a : BitVec 5) (x : BitVec 1) (r : BitVec 3) (q : BitVec 1) : Judged (.vcvtF16F32 sb c m d a x r q) ⟨sb, c, .x, false⟩ := by
  refine judged_of (ill := ?_) (live := ?_) (body := ?_) ?_ ?_ ?_
  rotate_left 3
  · intro s; rw [exec_vcvtF16F32]; delta execVcvtF16F32 vecWord; exact rfl
  · rfl
  · rfl

theorem judged_vcvtBf16F32 (sb : BitVec 1) (c : BitVec 1) (m : BitVec 3) (d : BitVec 5) (a : BitVec 5) (x : BitVec 1) (r : BitVec 3) (q : BitVec 1) : Judged (.vcvtBf16F32 sb c m d a x r q) ⟨sb, c, .x, false⟩ := by
  refine judged_of (ill := ?_) (live := ?_) (body := ?_) ?_ ?_ ?_
  rotate_left 3
  · intro s; rw [exec_vcvtBf16F32]; delta execVcvtBf16F32 vecWord; exact rfl
  · rfl
  · rfl

theorem judged_vcvtF32E4m3 (sb : BitVec 1) (c : BitVec 1) (m : BitVec 3) (d : BitVec 5) (a : BitVec 5) (x : BitVec 2) (q : BitVec 1) : Judged (.vcvtF32E4m3 sb c m d a x q) ⟨sb, c, .x, false⟩ := by
  refine judged_of (ill := ?_) (live := ?_) (body := ?_) ?_ ?_ ?_
  rotate_left 3
  · intro s; rw [exec_vcvtF32E4m3]; delta execVcvtF32E4m3 vecWord; exact rfl
  · rfl
  · rfl

theorem judged_vcvtF32E5m2 (sb : BitVec 1) (c : BitVec 1) (m : BitVec 3) (d : BitVec 5) (a : BitVec 5) (x : BitVec 2) (q : BitVec 1) : Judged (.vcvtF32E5m2 sb c m d a x q) ⟨sb, c, .x, false⟩ := by
  refine judged_of (ill := ?_) (live := ?_) (body := ?_) ?_ ?_ ?_
  rotate_left 3
  · intro s; rw [exec_vcvtF32E5m2]; delta execVcvtF32E5m2 vecWord; exact rfl
  · rfl
  · rfl

theorem judged_vcvtE4m3F32 (sb : BitVec 1) (c : BitVec 1) (m : BitVec 3) (d : BitVec 5) (a : BitVec 5) (x : BitVec 2) (r : BitVec 3) (q : BitVec 1) : Judged (.vcvtE4m3F32 sb c m d a x r q) ⟨sb, c, .x, false⟩ := by
  refine judged_of (ill := ?_) (live := ?_) (body := ?_) ?_ ?_ ?_
  rotate_left 3
  · intro s; rw [exec_vcvtE4m3F32]; delta execVcvtE4m3F32 vecWord; exact rfl
  · rfl
  · rfl

theorem judged_vcvtE5m2F32 (sb : BitVec 1) (c : BitVec 1) (m : BitVec 3) (d : BitVec 5) (a : BitVec 5) (x : BitVec 2) (r : BitVec 3) (q : BitVec 1) : Judged (.vcvtE5m2F32 sb c m d a x r q) ⟨sb, c, .x, false⟩ := by
  refine judged_of (ill := ?_) (live := ?_) (body := ?_) ?_ ?_ ?_
  rotate_left 3
  · intro s; rw [exec_vcvtE5m2F32]; delta execVcvtE5m2F32 vecWord; exact rfl
  · rfl
  · rfl

theorem judged_vpackB4 (sb : BitVec 1) (c : BitVec 1) (m : BitVec 3) (d : BitVec 5) (a : BitVec 5) (x : BitVec 2) (q : BitVec 1) : Judged (.vpackB4 sb c m d a x q) ⟨sb, c, .x, false⟩ := by
  refine judged_of (ill := ?_) (live := ?_) (body := ?_) ?_ ?_ ?_
  rotate_left 3
  · intro s; rw [exec_vpackB4]; delta execVpackB4 vecWord; exact rfl
  · rfl
  · rfl

theorem judged_vunpackB4 (sb : BitVec 1) (c : BitVec 1) (m : BitVec 3) (d : BitVec 5) (a : BitVec 5) (x : BitVec 2) (q : BitVec 1) : Judged (.vunpackB4 sb c m d a x q) ⟨sb, c, .x, false⟩ := by
  refine judged_of (ill := ?_) (live := ?_) (body := ?_) ?_ ?_ ?_
  rotate_left 3
  · intro s; rw [exec_vunpackB4]; delta execVunpackB4 vecWord; exact rfl
  · rfl
  · rfl

theorem judged_vperm (sb : BitVec 1) (c : BitVec 1) (m : BitVec 3) (d : BitVec 5) (a : BitVec 5) (b : BitVec 5) (q : BitVec 1) : Judged (.vperm sb c m d a b q) ⟨sb, c, .x, false⟩ := by
  refine judged_of (ill := ?_) (live := ?_) (body := ?_) ?_ ?_ ?_
  rotate_left 3
  · intro s; rw [exec_vperm]; delta execVperm vecWord; exact rfl
  · rfl
  · rfl

theorem judged_vrot (sb : BitVec 1) (c : BitVec 1) (m : BitVec 3) (d : BitVec 5) (a : BitVec 5) (b : BitVec 5) (q : BitVec 1) : Judged (.vrot sb c m d a b q) ⟨sb, c, .x, false⟩ := by
  refine judged_of (ill := ?_) (live := ?_) (body := ?_) ?_ ?_ ?_
  rotate_left 3
  · intro s; rw [exec_vrot]; delta execVrot vecWord; exact rfl
  · rfl
  · rfl

theorem judged_vbcast (sb : BitVec 1) (c : BitVec 1) (m : BitVec 3) (d : BitVec 5) (a : BitVec 5) (q : BitVec 1) : Judged (.vbcast sb c m d a q) ⟨sb, c, .x, false⟩ := by
  refine judged_of (ill := ?_) (live := ?_) (body := ?_) ?_ ?_ ?_
  rotate_left 3
  · intro s; rw [exec_vbcast]; delta execVbcast vecWord; exact rfl
  · rfl
  · rfl

theorem judged_vredadd (sb : BitVec 1) (c : BitVec 1) (m : BitVec 3) (d : BitVec 5) (a : BitVec 5) (q : BitVec 1) : Judged (.vredadd sb c m d a q) ⟨sb, c, .x, false⟩ := by
  refine judged_of (ill := ?_) (live := ?_) (body := ?_) ?_ ?_ ?_
  rotate_left 3
  · intro s; rw [exec_vredadd]; delta execVredadd vecToReg; exact rfl
  · rfl
  · rfl

theorem judged_vredmax (sb : BitVec 1) (c : BitVec 1) (m : BitVec 3) (d : BitVec 5) (a : BitVec 5) (q : BitVec 1) : Judged (.vredmax sb c m d a q) ⟨sb, c, .x, false⟩ := by
  refine judged_of (ill := ?_) (live := ?_) (body := ?_) ?_ ?_ ?_
  rotate_left 3
  · intro s; rw [exec_vredmax]; delta execVredmax vecToReg; exact rfl
  · rfl
  · rfl

theorem judged_viredadd (sb : BitVec 1) (c : BitVec 1) (m : BitVec 3) (d : BitVec 5) (a : BitVec 5) (q : BitVec 1) : Judged (.viredadd sb c m d a q) ⟨sb, c, .x, false⟩ := by
  refine judged_of (ill := ?_) (live := ?_) (body := ?_) ?_ ?_ ?_
  rotate_left 3
  · intro s; rw [exec_viredadd]; delta execViredadd vecToReg; exact rfl
  · rfl
  · rfl

theorem judged_vbspl (sb : BitVec 1) (c : BitVec 1) (m : BitVec 3) (d : BitVec 5) (a : BitVec 5) (j : BitVec 2) (q : BitVec 1) : Judged (.vbspl sb c m d a j q) ⟨sb, c, .x, false⟩ := by
  refine judged_of (ill := ?_) (live := ?_) (body := ?_) ?_ ?_ ?_
  rotate_left 3
  · intro s; rw [exec_vbspl]; delta execVbspl vecWord; exact rfl
  · rfl
  · rfl

theorem judged_patC (sb : BitVec 1) (t : BitVec 6) (f : BitVec 3) (v : BitVec 16) : Judged (.patC sb t f v) ⟨sb, 0, .c, false⟩ := by
  refine judged_of (ill := ?_) (live := ?_) (body := ?_) ?_ ?_ ?_
  rotate_left 3
  · intro s; rw [exec_patC]; delta execPatC patWord; exact rfl
  · rfl
  · rfl

theorem judged_pisC (sb : BitVec 1) (t : BitVec 6) (f : BitVec 3) (v : BitVec 16) : Judged (.pisC sb t f v) ⟨sb, 0, .c, false⟩ := by
  refine judged_of (ill := ?_) (live := ?_) (body := ?_) ?_ ?_ ?_
  rotate_left 3
  · intro s; rw [exec_pisC]; delta execPisC pisWord; exact rfl
  · rfl
  · rfl

theorem judged_patA (sb : BitVec 1) (t : BitVec 6) (f : BitVec 3) (v : BitVec 16) : Judged (.patA sb t f v) ⟨sb, 0, .c, false⟩ := by
  refine judged_of (ill := ?_) (live := ?_) (body := ?_) ?_ ?_ ?_
  rotate_left 3
  · intro s; rw [exec_patA]; delta execPatA patWord; exact rfl
  · rfl
  · rfl

theorem judged_pisA (sb : BitVec 1) (t : BitVec 6) (f : BitVec 3) (v : BitVec 16) : Judged (.pisA sb t f v) ⟨sb, 0, .c, false⟩ := by
  refine judged_of (ill := ?_) (live := ?_) (body := ?_) ?_ ?_ ?_
  rotate_left 3
  · intro s; rw [exec_pisA]; delta execPisA pisWord; exact rfl
  · rfl
  · rfl

theorem judged_patS (sb : BitVec 1) (t : BitVec 6) (f : BitVec 3) (v : BitVec 16) : Judged (.patS sb t f v) ⟨sb, 0, .c, false⟩ := by
  refine judged_of (ill := ?_) (live := ?_) (body := ?_) ?_ ?_ ?_
  rotate_left 3
  · intro s; rw [exec_patS]; delta execPatS patWord; exact rfl
  · rfl
  · rfl

theorem judged_pisS (sb : BitVec 1) (t : BitVec 6) (f : BitVec 3) (v : BitVec 16) : Judged (.pisS sb t f v) ⟨sb, 0, .c, false⟩ := by
  refine judged_of (ill := ?_) (live := ?_) (body := ?_) ?_ ?_ ?_
  rotate_left 3
  · intro s; rw [exec_pisS]; delta execPisS pisWord; exact rfl
  · rfl
  · rfl

theorem judged_tplC (sb : BitVec 1) (p : BitVec 3) (t : BitVec 5) (a : BitVec 5) (tlo : BitVec 1) : Judged (.tplC sb p t a tlo) ⟨sb, 0, .c, false⟩ := by
  refine judged_of (ill := ?_) (live := ?_) (body := ?_) ?_ ?_ ?_
  rotate_left 3
  · intro s; rw [exec_tplC]; delta execTplC tplWord engWord word; exact rfl
  · rfl
  · rfl

theorem judged_tplA (sb : BitVec 1) (p : BitVec 3) (t : BitVec 5) (a : BitVec 5) (tlo : BitVec 1) : Judged (.tplA sb p t a tlo) ⟨sb, 0, .c, false⟩ := by
  refine judged_of (ill := ?_) (live := ?_) (body := ?_) ?_ ?_ ?_
  rotate_left 3
  · intro s; rw [exec_tplA]; delta execTplA tplWord engWord word; exact rfl
  · rfl
  · rfl

theorem judged_tplS (sb : BitVec 1) (p : BitVec 3) (t : BitVec 5) (a : BitVec 5) (tlo : BitVec 1) : Judged (.tplS sb p t a tlo) ⟨sb, 0, .c, false⟩ := by
  refine judged_of (ill := ?_) (live := ?_) (body := ?_) ?_ ?_ ?_
  rotate_left 3
  · intro s; rw [exec_tplS]; delta execTplS tplWord engWord word; exact rfl
  · rfl
  · rfl

theorem judged_cwait (sb : BitVec 1) (p : BitVec 3) (k : BitVec 3) (n : BitVec 10) : Judged (.cwait sb p k n) ⟨sb, 0, .c, false⟩ := by
  refine judged_of (ill := ?_) (live := ?_) (body := ?_) ?_ ?_ ?_
  rotate_left 3
  · intro s; rw [exec_cwait]; delta execCwait engWord word; exact rfl
  · rfl
  · rfl

theorem judged_cdisc (sb : BitVec 1) (p : BitVec 3) (k : BitVec 3) (n : BitVec 10) : Judged (.cdisc sb p k n) ⟨sb, 0, .c, false⟩ := by
  refine judged_of (ill := ?_) (live := ?_) (body := ?_) ?_ ?_ ?_
  rotate_left 3
  · intro s; rw [exec_cdisc]; delta execCdisc engWord word; exact rfl
  · rfl
  · rfl

theorem judged_crd (sb : BitVec 1) (p : BitVec 3) (d : BitVec 5) (k : BitVec 3) : Judged (.crd sb p d k) ⟨sb, 0, .c, false⟩ := by
  refine judged_of (ill := ?_) (live := ?_) (body := ?_) ?_ ?_ ?_
  rotate_left 3
  · intro s; rw [exec_crd]; delta execCrd engWord word; exact rfl
  · rfl
  · rfl

theorem judged_rngset (sb : BitVec 1) (p : BitVec 3) (k : BitVec 4) (a : BitVec 5) (b : BitVec 5) : Judged (.rngset sb p k a b) ⟨sb, 0, .c, false⟩ := by
  refine judged_of (ill := ?_) (live := ?_) (body := ?_) ?_ ?_ ?_
  rotate_left 3
  · intro s; rw [exec_rngset]; delta execRngset engWord word; exact rfl
  · rfl
  · rfl

theorem judged_rngrd (sb : BitVec 1) (p : BitVec 3) (d : BitVec 5) (k : BitVec 4) : Judged (.rngrd sb p d k) ⟨sb, 0, .c, false⟩ := by
  refine judged_of (ill := ?_) (live := ?_) (body := ?_) ?_ ?_ ?_
  rotate_left 3
  · intro s; rw [exec_rngrd]; delta execRngrd engWord word; exact rfl
  · rfl
  · rfl

theorem judged_publish (sb : BitVec 1) (p : BitVec 3) (k : BitVec 4) : Judged (.publish sb p k) ⟨sb, 0, .c, false⟩ := by
  refine judged_of (ill := ?_) (live := ?_) (body := ?_) ?_ ?_ ?_
  rotate_left 3
  · intro s; rw [exec_publish]; delta execPublish engWord word; exact rfl
  · rfl
  · rfl

theorem judged_kset (sb : BitVec 1) (p : BitVec 3) (k : BitVec 3) (a : BitVec 5) : Judged (.kset sb p k a) ⟨sb, 0, .c, false⟩ := by
  refine judged_of (ill := ?_) (live := ?_) (body := ?_) ?_ ?_ ?_
  rotate_left 3
  · intro s; rw [exec_kset]; delta execKset engWord word; exact rfl
  · rfl
  · rfl

theorem judged_krd (sb : BitVec 1) (p : BitVec 3) (d : BitVec 5) (k : BitVec 3) : Judged (.krd sb p d k) ⟨sb, 0, .c, false⟩ := by
  refine judged_of (ill := ?_) (live := ?_) (body := ?_) ?_ ?_ ?_
  rotate_left 3
  · intro s; rw [exec_krd]; delta execKrd engWord word; exact rfl
  · rfl
  · rfl

theorem judged_katcmp (sb : BitVec 1) (p : BitVec 3) (k : BitVec 3) (a : BitVec 5) : Judged (.katcmp sb p k a) ⟨sb, 0, .c, false⟩ := by
  refine judged_of (ill := ?_) (live := ?_) (body := ?_) ?_ ?_ ?_
  rotate_left 3
  · intro s; rw [exec_katcmp]; delta execKatcmp engWord word; exact rfl
  · rfl
  · rfl

theorem judged_join (sb : BitVec 1) (p : BitVec 3) (d : BitVec 5) (a : BitVec 5) : Judged (.join sb p d a) ⟨sb, 0, .c, false⟩ := by
  refine judged_of (ill := ?_) (live := ?_) (body := ?_) ?_ ?_ ?_
  rotate_left 3
  · intro s; rw [exec_join]; delta execJoin clWord word; exact rfl
  · rfl
  · rfl

theorem judged_leave (sb : BitVec 1) (p : BitVec 3) (d : BitVec 5) (a : BitVec 5) : Judged (.leave sb p d a) ⟨sb, 0, .c, false⟩ := by
  refine judged_of (ill := ?_) (live := ?_) (body := ?_) ?_ ?_ ?_
  rotate_left 3
  · intro s; rw [exec_leave]; delta execLeave clWord word; exact rfl
  · rfl
  · rfl

theorem judged_grpq (sb : BitVec 1) (p : BitVec 3) (d : BitVec 5) (a : BitVec 5) : Judged (.grpq sb p d a) ⟨sb, 0, .c, false⟩ := by
  refine judged_of (ill := ?_) (live := ?_) (body := ?_) ?_ ?_ ?_
  rotate_left 3
  · intro s; rw [exec_grpq]; delta execGrpq clWord word; exact rfl
  · rfl
  · rfl

theorem judged_barr (sb : BitVec 1) (p : BitVec 3) (d : BitVec 5) (a : BitVec 5) (b : BitVec 5) : Judged (.barr sb p d a b) ⟨sb, 0, .c, false⟩ := by
  refine judged_of (ill := ?_) (live := ?_) (body := ?_) ?_ ?_ ?_
  rotate_left 3
  · intro s; rw [exec_barr]; delta execBarr clWord word; exact rfl
  · rfl
  · rfl

theorem judged_bwait (sb : BitVec 1) (p : BitVec 3) (d : BitVec 5) (a : BitVec 5) (b : BitVec 5) : Judged (.bwait sb p d a b) ⟨sb, 0, .c, false⟩ := by
  refine judged_of (ill := ?_) (live := ?_) (body := ?_) ?_ ?_ ?_
  rotate_left 3
  · intro s; rw [exec_bwait]; delta execBwait clWord word; exact rfl
  · rfl
  · rfl

theorem judged_barw (sb : BitVec 1) (p : BitVec 3) (d : BitVec 5) (a : BitVec 5) (b : BitVec 5) : Judged (.barw sb p d a b) ⟨sb, 0, .c, false⟩ := by
  refine judged_of (ill := ?_) (live := ?_) (body := ?_) ?_ ?_ ?_
  rotate_left 3
  · intro s; rw [exec_barw]; delta execBarw clWord word; exact rfl
  · rfl
  · rfl

theorem judged_finc (sb : BitVec 1) (p : BitVec 3) (d : BitVec 5) (a : BitVec 5) (b : BitVec 5) : Judged (.finc sb p d a b) ⟨sb, 0, .c, false⟩ := by
  refine judged_of (ill := ?_) (live := ?_) (body := ?_) ?_ ?_ ?_
  rotate_left 3
  · intro s; rw [exec_finc]; delta execFinc flagWord clWord word; exact rfl
  · rfl
  · rfl

theorem judged_fwait (sb : BitVec 1) (p : BitVec 3) (d : BitVec 5) (a : BitVec 5) (b : BitVec 5) : Judged (.fwait sb p d a b) ⟨sb, 0, .c, false⟩ := by
  refine judged_of (ill := ?_) (live := ?_) (body := ?_) ?_ ?_ ?_
  rotate_left 3
  · intro s; rw [exec_fwait]; delta execFwait clWord word; exact rfl
  · rfl
  · rfl

theorem judged_frd (sb : BitVec 1) (p : BitVec 3) (d : BitVec 5) (a : BitVec 5) : Judged (.frd sb p d a) ⟨sb, 0, .c, false⟩ := by
  refine judged_of (ill := ?_) (live := ?_) (body := ?_) ?_ ?_ ?_
  rotate_left 3
  · intro s; rw [exec_frd]; delta execFrd clWord word; exact rfl
  · rfl
  · rfl

theorem judged_fset (sb : BitVec 1) (p : BitVec 3) (d : BitVec 5) (a : BitVec 5) (b : BitVec 5) : Judged (.fset sb p d a b) ⟨sb, 0, .c, false⟩ := by
  refine judged_of (ill := ?_) (live := ?_) (body := ?_) ?_ ?_ ?_
  rotate_left 3
  · intro s; rw [exec_fset]; delta execFset flagWord clWord word; exact rfl
  · rfl
  · rfl

theorem judged_launch (sb : BitVec 1) (p : BitVec 3) (d : BitVec 5) (a : BitVec 5) : Judged (.launch sb p d a) ⟨sb, 0, .c, false⟩ := by
  refine judged_of (ill := ?_) (live := ?_) (body := ?_) ?_ ?_ ?_
  rotate_left 3
  · intro s; rw [exec_launch]; delta execLaunch launchWord clWord word; exact rfl
  · rfl
  · rfl

theorem judged_launchn (sb : BitVec 1) (p : BitVec 3) (d : BitVec 5) (a : BitVec 5) : Judged (.launchn sb p d a) ⟨sb, 0, .c, false⟩ := by
  refine judged_of (ill := ?_) (live := ?_) (body := ?_) ?_ ?_ ?_
  rotate_left 3
  · intro s; rw [exec_launchn]; delta execLaunchn launchWord clWord word; exact rfl
  · rfl
  · rfl

theorem judged_evset (sb : BitVec 1) (p : BitVec 3) (a : BitVec 5) (b : BitVec 5) : Judged (.evset sb p a b) ⟨sb, 0, .c, false⟩ := by
  refine judged_of (ill := ?_) (live := ?_) (body := ?_) ?_ ?_ ?_
  rotate_left 3
  · intro s; rw [exec_evset]; delta execEvset clWord word; exact rfl
  · rfl
  · rfl

theorem judged_evclr (sb : BitVec 1) (p : BitVec 3) (a : BitVec 5) (b : BitVec 5) : Judged (.evclr sb p a b) ⟨sb, 0, .c, false⟩ := by
  refine judged_of (ill := ?_) (live := ?_) (body := ?_) ?_ ?_ ?_
  rotate_left 3
  · intro s; rw [exec_evclr]; delta execEvclr clWord word; exact rfl
  · rfl
  · rfl

theorem judged_evwait (sb : BitVec 1) (p : BitVec 3) (d : BitVec 5) (a : BitVec 5) (b : BitVec 5) : Judged (.evwait sb p d a b) ⟨sb, 0, .c, false⟩ := by
  refine judged_of (ill := ?_) (live := ?_) (body := ?_) ?_ ?_ ?_
  rotate_left 3
  · intro s; rw [exec_evwait]; delta execEvwait clWord word; exact rfl
  · rfl
  · rfl

theorem judged_enq (sb : BitVec 1) (p : BitVec 3) (d : BitVec 5) (a : BitVec 5) : Judged (.enq sb p d a) ⟨sb, 0, .c, false⟩ := by
  refine judged_of (ill := ?_) (live := ?_) (body := ?_) ?_ ?_ ?_
  rotate_left 3
  · intro s; rw [exec_enq]; delta execEnq clWord word; exact rfl
  · rfl
  · rfl

theorem judged_deq (sb : BitVec 1) (p : BitVec 3) (d : BitVec 5) (k : BitVec 3) : Judged (.deq sb p d k) ⟨sb, 0, .c, false⟩ := by
  refine judged_of (ill := ?_) (live := ?_) (body := ?_) ?_ ?_ ?_
  rotate_left 3
  · intro s; rw [exec_deq]; delta execDeq clWord word; exact rfl
  · rfl
  · rfl

theorem judged_yield (sb : BitVec 1) (p : BitVec 3) : Judged (.yield sb p) ⟨sb, 0, .c, false⟩ := by
  refine judged_of (ill := ?_) (live := ?_) (body := ?_) ?_ ?_ ?_
  rotate_left 3
  · intro s; rw [exec_yield]; delta execYield clWord word; exact rfl
  · rfl
  · rfl

theorem judged_taskinfo (sb : BitVec 1) (p : BitVec 3) (d : BitVec 5) (k : BitVec 5) : Judged (.taskinfo sb p d k) ⟨sb, 0, .c, false⟩ := by
  refine judged_of (ill := ?_) (live := ?_) (body := ?_) ?_ ?_ ?_
  rotate_left 3
  · intro s; rw [exec_taskinfo]; delta execTaskinfo clWord word; exact rfl
  · rfl
  · rfl

theorem judged_ldg (sb : BitVec 1) (p : BitVec 3) (k : BitVec 3) (b : BitVec 5) (z : BitVec 2) (o : BitVec 1) (imm : BitVec 9) : Judged (.ldg sb p k b z o imm) ⟨sb, 0, .a, false⟩ := by
  refine judged_of (ill := ?_) (live := ?_) (body := ?_) ?_ ?_ ?_
  rotate_left 3
  · intro s; rw [exec_ldg]; delta execLdg loadWord word; exact rfl
  · rfl
  · rfl

theorem judged_stg (sb : BitVec 1) (p : BitVec 3) (d : BitVec 5) (b : BitVec 5) (z : BitVec 2) (o : BitVec 1) (imm : BitVec 9) : Judged (.stg sb p d b z o imm) ⟨sb, 0, .a, false⟩ := by
  refine judged_of (ill := ?_) (live := ?_) (body := ?_) ?_ ?_ ?_
  rotate_left 3
  · intro s; rw [exec_stg]; delta execStg storeWord word; exact rfl
  · rfl
  · rfl

theorem judged_lda (sb : BitVec 1) (p : BitVec 3) (k : BitVec 3) (b : BitVec 5) (z : BitVec 2) (o : BitVec 1) (imm : BitVec 9) : Judged (.lda sb p k b z o imm) ⟨sb, 0, .a, false⟩ := by
  refine judged_of (ill := ?_) (live := ?_) (body := ?_) ?_ ?_ ?_
  rotate_left 3
  · intro s; rw [exec_lda]; delta execLda loadWord word; exact rfl
  · rfl
  · rfl

theorem judged_stl (sb : BitVec 1) (p : BitVec 3) (d : BitVec 5) (b : BitVec 5) (z : BitVec 2) (o : BitVec 1) (imm : BitVec 9) : Judged (.stl sb p d b z o imm) ⟨sb, 0, .a, false⟩ := by
  refine judged_of (ill := ?_) (live := ?_) (body := ?_) ?_ ?_ ?_
  rotate_left 3
  · intro s; rw [exec_stl]; delta execStl storeWord word; exact rfl
  · rfl
  · rfl

theorem judged_ldgq (sb : BitVec 1) (p : BitVec 3) (q : BitVec 2) (b : BitVec 5) (o : BitVec 1) (imm : BitVec 9) : Judged (.ldgq sb p q b o imm) ⟨sb, 0, .a, false⟩ := by
  refine judged_of (ill := ?_) (live := ?_) (body := ?_) ?_ ?_ ?_
  rotate_left 3
  · intro s; rw [exec_ldgq]; delta execLdgq word; exact rfl
  · rfl
  · rfl

theorem judged_stgq (sb : BitVec 1) (p : BitVec 3) (q : BitVec 1) (b : BitVec 5) (o : BitVec 1) (imm : BitVec 9) : Judged (.stgq sb p q b o imm) ⟨sb, 0, .a, false⟩ := by
  refine judged_of (ill := ?_) (live := ?_) (body := ?_) ?_ ?_ ?_
  rotate_left 3
  · intro s; rw [exec_stgq]; delta execStgq word; exact rfl
  · rfl
  · rfl

theorem judged_pfg (sb : BitVec 1) (p : BitVec 3) (b : BitVec 5) (o : BitVec 1) (imm : BitVec 9) : Judged (.pfg sb p b o imm) ⟨sb, 0, .a, false⟩ := by
  refine judged_of (ill := ?_) (live := ?_) (body := ?_) ?_ ?_ ?_
  rotate_left 3
  · intro s; rw [exec_pfg]; delta execPfg word; exact rfl
  · rfl
  · rfl

theorem judged_fence (sb : BitVec 1) (p : BitVec 3) (d : BitVec 5) (a : BitVec 5) (b : BitVec 3) : Judged (.fence sb p d a b) ⟨sb, 0, .ac, false⟩ := by
  refine judged_of (ill := ?_) (live := ?_) (body := ?_) ?_ ?_ ?_
  rotate_left 3
  · intro s; rw [exec_fence]; delta execFence word; exact rfl
  · rfl
  · rfl

theorem judged_pubg (sb : BitVec 1) (p : BitVec 3) (a : BitVec 5) : Judged (.pubg sb p a) ⟨sb, 0, .c, false⟩ := by
  refine judged_of (ill := ?_) (live := ?_) (body := ?_) ?_ ?_ ?_
  rotate_left 3
  · intro s; rw [exec_pubg]; delta execPubg word; exact rfl
  · rfl
  · rfl

theorem judged_tlbinv (sb : BitVec 1) (p : BitVec 3) (a : BitVec 5) (b : BitVec 5) : Judged (.tlbinv sb p a b) ⟨sb, 0, .c, true⟩ := by
  refine judged_of (ill := ?_) (live := ?_) (body := ?_) ?_ ?_ ?_
  rotate_left 3
  · intro s; rw [exec_tlbinv]; delta execTlbinv privWord; exact rfl
  · rfl
  · rfl

theorem judged_tlbsync (sb : BitVec 1) (p : BitVec 3) (d : BitVec 5) : Judged (.tlbsync sb p d) ⟨sb, 0, .c, true⟩ := by
  refine judged_of (ill := ?_) (live := ?_) (body := ?_) ?_ ?_ ?_
  rotate_left 3
  · intro s; rw [exec_tlbsync]; delta execTlbsync privWord; exact rfl
  · rfl
  · rfl

theorem judged_caprd (sb : BitVec 1) (p : BitVec 3) (d : BitVec 5) (a : BitVec 5) : Judged (.caprd sb p d a) ⟨sb, 0, .c, false⟩ := by
  refine judged_of (ill := ?_) (live := ?_) (body := ?_) ?_ ?_ ?_
  rotate_left 3
  · intro s; rw [exec_caprd]; delta execCaprd word; exact rfl
  · rfl
  · rfl

theorem judged_ctxsave (sb : BitVec 1) (p : BitVec 3) (d : BitVec 5) (a : BitVec 5) (b : BitVec 5) : Judged (.ctxsave sb p d a b) ⟨sb, 0, .c, true⟩ := by
  refine judged_of (ill := ?_) (live := ?_) (body := ?_) ?_ ?_ ?_
  rotate_left 3
  · intro s; rw [exec_ctxsave]; delta execCtxsave requestWord privWord; exact rfl
  · rfl
  · rfl

theorem judged_ctxrst (sb : BitVec 1) (p : BitVec 3) (d : BitVec 5) (a : BitVec 5) (b : BitVec 5) : Judged (.ctxrst sb p d a b) ⟨sb, 0, .c, true⟩ := by
  refine judged_of (ill := ?_) (live := ?_) (body := ?_) ?_ ?_ ?_
  rotate_left 3
  · intro s; rw [exec_ctxrst]; delta execCtxrst requestWord privWord; exact rfl
  · rfl
  · rfl

theorem judged_sealw (sb : BitVec 1) (p : BitVec 3) : Judged (.sealw sb p) ⟨sb, 0, .all, false⟩ := by
  refine judged_of (ill := ?_) (live := ?_) (body := ?_) ?_ ?_ ?_
  rotate_left 3
  · intro s; rw [exec_sealw]; delta execSealw word; exact rfl
  · rfl
  · rfl

theorem judged_hostsig (sb : BitVec 1) (p : BitVec 3) (a : BitVec 5) : Judged (.hostsig sb p a) ⟨sb, 0, .c, false⟩ := by
  refine judged_of (ill := ?_) (live := ?_) (body := ?_) ?_ ?_ ?_
  rotate_left 3
  · intro s; rw [exec_hostsig]; delta execHostsig word; exact rfl
  · rfl
  · rfl

theorem judged_nwr (sb : BitVec 1) (p : BitVec 3) (w : BitVec 2) (a : BitVec 5) (b : BitVec 5) : Judged (.nwr sb p w a b) ⟨sb, 0, .c, false⟩ := by
  refine judged_of (ill := ?_) (live := ?_) (body := ?_) ?_ ?_ ?_
  rotate_left 3
  · intro s; rw [exec_nwr]; delta execNwr word; exact rfl
  · rfl
  · rfl

theorem judged_nrd (sb : BitVec 1) (p : BitVec 3) (v : BitVec 2) (k : BitVec 3) (a : BitVec 5) (w : BitVec 3) : Judged (.nrd sb p v k a w) ⟨sb, 0, .c, false⟩ := by
  refine judged_of (ill := ?_) (live := ?_) (body := ?_) ?_ ?_ ?_
  rotate_left 3
  · intro s; rw [exec_nrd]; delta execNrd word; exact rfl
  · rfl
  · rfl

theorem judged_nred (sb : BitVec 1) (p : BitVec 3) (d : BitVec 5) (a : BitVec 5) (b : BitVec 5) : Judged (.nred sb p d a b) ⟨sb, 0, .c, false⟩ := by
  refine judged_of (ill := ?_) (live := ?_) (body := ?_) ?_ ?_ ?_
  rotate_left 3
  · intro s; rw [exec_nred]; delta execNred collective word; exact rfl
  · rfl
  · rfl

theorem judged_nbar (sb : BitVec 1) (p : BitVec 3) (d : BitVec 5) (a : BitVec 5) : Judged (.nbar sb p d a) ⟨sb, 0, .c, false⟩ := by
  refine judged_of (ill := ?_) (live := ?_) (body := ?_) ?_ ?_ ?_
  rotate_left 3
  · intro s; rw [exec_nbar]; delta execNbar collective word; exact rfl
  · rfl
  · rfl

theorem judged_memb (sb : BitVec 1) (p : BitVec 3) (d : BitVec 5) : Judged (.memb sb p d) ⟨sb, 0, .c, false⟩ := by
  refine judged_of (ill := ?_) (live := ?_) (body := ?_) ?_ ?_ ?_
  rotate_left 3
  · intro s; rw [exec_memb]; delta execMemb word; exact rfl
  · rfl
  · rfl

theorem judged_gsw (sb : BitVec 1) (p : BitVec 3) (d : BitVec 5) (a : BitVec 5) : Judged (.gsw sb p d a) ⟨sb, 0, .c, true⟩ := by
  refine judged_of (ill := ?_) (live := ?_) (body := ?_) ?_ ?_ ?_
  rotate_left 3
  · intro s; rw [exec_gsw]; delta execGsw requestWord privWord; exact rfl
  · rfl
  · rfl

/-- A word of the table is judged by its class, its place and its predicate, and then by its own body. -/
theorem exec_issue {i : Instr} {x : WordClass} (hx : wordClass i = some x) : Judged i x := by
  cases i
  case lui => exact Option.some.inj hx ▸ judged_lui _ _ _
  case lapc => exact Option.some.inj hx ▸ judged_lapc _ _ _
  case addi => exact Option.some.inj hx ▸ judged_addi _ _ _ _ _
  case andi => exact Option.some.inj hx ▸ judged_andi _ _ _ _ _
  case ori => exact Option.some.inj hx ▸ judged_ori _ _ _ _ _
  case xori => exact Option.some.inj hx ▸ judged_xori _ _ _ _ _
  case shli => exact Option.some.inj hx ▸ judged_shli _ _ _ _ _
  case shri => exact Option.some.inj hx ▸ judged_shri _ _ _ _ _
  case srai => exact Option.some.inj hx ▸ judged_srai _ _ _ _ _
  case roli => exact Option.some.inj hx ▸ judged_roli _ _ _ _ _
  case cmpeqi => exact Option.some.inj hx ▸ judged_cmpeqi _ _ _ _ _
  case cmplti => exact Option.some.inj hx ▸ judged_cmplti _ _ _ _ _
  case cmpltni => exact Option.some.inj hx ▸ judged_cmpltni _ _ _ _ _
  case add => exact Option.some.inj hx ▸ judged_add _ _ _ _ _
  case sub => exact Option.some.inj hx ▸ judged_sub _ _ _ _ _
  case and => exact Option.some.inj hx ▸ judged_and _ _ _ _ _
  case or => exact Option.some.inj hx ▸ judged_or _ _ _ _ _
  case xor => exact Option.some.inj hx ▸ judged_xor _ _ _ _ _
  case andn => exact Option.some.inj hx ▸ judged_andn _ _ _ _ _
  case shl => exact Option.some.inj hx ▸ judged_shl _ _ _ _ _
  case shr => exact Option.some.inj hx ▸ judged_shr _ _ _ _ _
  case sra => exact Option.some.inj hx ▸ judged_sra _ _ _ _ _
  case rol => exact Option.some.inj hx ▸ judged_rol _ _ _ _ _
  case min => exact Option.some.inj hx ▸ judged_min _ _ _ _ _
  case max => exact Option.some.inj hx ▸ judged_max _ _ _ _ _
  case minn => exact Option.some.inj hx ▸ judged_minn _ _ _ _ _
  case maxn => exact Option.some.inj hx ▸ judged_maxn _ _ _ _ _
  case mul => exact Option.some.inj hx ▸ judged_mul _ _ _ _ _
  case mulh => exact Option.some.inj hx ▸ judged_mulh _ _ _ _ _
  case mulhn => exact Option.some.inj hx ▸ judged_mulhn _ _ _ _ _
  case clz => exact Option.some.inj hx ▸ judged_clz _ _ _ _
  case popc => exact Option.some.inj hx ▸ judged_popc _ _ _ _
  case sext => exact Option.some.inj hx ▸ judged_sext _ _ _ _ _
  case zext => exact Option.some.inj hx ▸ judged_zext _ _ _ _ _
  case sel => exact Option.some.inj hx ▸ judged_sel _ _ _ _ _
  case cmpeq => exact Option.some.inj hx ▸ judged_cmpeq _ _ _ _ _
  case cmpne => exact Option.some.inj hx ▸ judged_cmpne _ _ _ _ _
  case cmplt => exact Option.some.inj hx ▸ judged_cmplt _ _ _ _ _
  case cmple => exact Option.some.inj hx ▸ judged_cmple _ _ _ _ _
  case cmpltn => exact Option.some.inj hx ▸ judged_cmpltn _ _ _ _ _
  case cmplen => exact Option.some.inj hx ▸ judged_cmplen _ _ _ _ _
  case pand => exact Option.some.inj hx ▸ judged_pand _ _ _ _ _
  case por => exact Option.some.inj hx ▸ judged_por _ _ _ _ _
  case pxor => exact Option.some.inj hx ▸ judged_pxor _ _ _ _ _
  case pnot => exact Option.some.inj hx ▸ judged_pnot _ _ _ _
  case br => exact Option.some.inj hx ▸ judged_br _ _ _
  case brn => exact Option.some.inj hx ▸ judged_brn _ _ _
  case brt => exact Option.some.inj hx ▸ judged_brt _ _ _
  case call => exact Option.some.inj hx ▸ judged_call _ _ _
  case jr => exact Option.some.inj hx ▸ judged_jr _ _ _ _
  case jtb => exact Option.some.inj hx ▸ judged_jtb _ _ _ _ _
  case loop => exact Option.some.inj hx ▸ judged_loop _ _ _ _
  case flip => exact Option.some.inj hx ▸ judged_flip _ _
  case rdh => exact Option.some.inj hx ▸ judged_rdh _ _ _ _ _
  case spost => exact Option.some.inj hx ▸ judged_spost _ _ _ _
  case swait => exact Option.some.inj hx ▸ judged_swait _ _ _
  case bqput => exact Option.some.inj hx ▸ judged_bqput _ _ _ _
  case nop => exact Option.some.inj hx ▸ judged_nop _ _
  case exit => exact Option.some.inj hx ▸ judged_exit _ _
  case bqbr => exact Option.some.inj hx ▸ judged_bqbr _ _
  case bqbrn => exact Option.some.inj hx ▸ judged_bqbrn _ _
  case bqbrt => exact Option.some.inj hx ▸ judged_bqbrt _ _
  case trap => exact Option.some.inj hx ▸ judged_trap _ _ _
  case eret => exact Option.some.inj hx ▸ judged_eret _ _
  case srd => exact Option.some.inj hx ▸ judged_srd _ _ _ _
  case swr => exact Option.some.inj hx ▸ judged_swr _ _ _ _
  case brk => exact Option.some.inj hx ▸ judged_brk _ _
  case lds => exact Option.some.inj hx ▸ judged_lds _ _ _ _ _ _ _
  case sts => exact Option.some.inj hx ▸ judged_sts _ _ _ _ _ _ _
  case ldq => exact Option.some.inj hx ▸ judged_ldq _ _ _ _ _ _
  case stq => exact Option.some.inj hx ▸ judged_stq _ _ _ _ _ _
  case qpush => exact Option.some.inj hx ▸ judged_qpush _ _ _ _
  case qpushSq => exact Option.some.inj hx ▸ judged_qpushSq _ _ _ _
  case sbind => exact Option.some.inj hx ▸ judged_sbind _ _ _ _ _
  case sunbind => exact Option.some.inj hx ▸ judged_sunbind _ _ _
  case spos => exact Option.some.inj hx ▸ judged_spos _ _ _ _
  case lbqry => exact Option.some.inj hx ▸ judged_lbqry _ _ _ _
  case commit => exact Option.some.inj hx ▸ judged_commit _ _ _ _
  case vaddI32 => exact Option.some.inj hx ▸ judged_vaddI32 _ _ _ _ _ _ _
  case vsubI32 => exact Option.some.inj hx ▸ judged_vsubI32 _ _ _ _ _ _ _
  case vmulI32 => exact Option.some.inj hx ▸ judged_vmulI32 _ _ _ _ _ _ _
  case vmulhI32 => exact Option.some.inj hx ▸ judged_vmulhI32 _ _ _ _ _ _ _
  case vmulhnI32 => exact Option.some.inj hx ▸ judged_vmulhnI32 _ _ _ _ _ _ _
  case vminI32 => exact Option.some.inj hx ▸ judged_vminI32 _ _ _ _ _ _ _
  case vmaxI32 => exact Option.some.inj hx ▸ judged_vmaxI32 _ _ _ _ _ _ _
  case vminnI32 => exact Option.some.inj hx ▸ judged_vminnI32 _ _ _ _ _ _ _
  case vmaxnI32 => exact Option.some.inj hx ▸ judged_vmaxnI32 _ _ _ _ _ _ _
  case vandI32 => exact Option.some.inj hx ▸ judged_vandI32 _ _ _ _ _ _ _
  case vorI32 => exact Option.some.inj hx ▸ judged_vorI32 _ _ _ _ _ _ _
  case vxorI32 => exact Option.some.inj hx ▸ judged_vxorI32 _ _ _ _ _ _ _
  case vshlI32 => exact Option.some.inj hx ▸ judged_vshlI32 _ _ _ _ _ _ _
  case vshrI32 => exact Option.some.inj hx ▸ judged_vshrI32 _ _ _ _ _ _ _
  case vsraI32 => exact Option.some.inj hx ▸ judged_vsraI32 _ _ _ _ _ _ _
  case vcmpeqI32 => exact Option.some.inj hx ▸ judged_vcmpeqI32 _ _ _ _ _ _ _
  case vcmpltI32 => exact Option.some.inj hx ▸ judged_vcmpltI32 _ _ _ _ _ _ _
  case vcmpltnI32 => exact Option.some.inj hx ▸ judged_vcmpltnI32 _ _ _ _ _ _ _
  case vsel => exact Option.some.inj hx ▸ judged_vsel _ _ _ _ _ _ _
  case vaddF32 => exact Option.some.inj hx ▸ judged_vaddF32 _ _ _ _ _ _ _
  case vsubF32 => exact Option.some.inj hx ▸ judged_vsubF32 _ _ _ _ _ _ _
  case vmulF32 => exact Option.some.inj hx ▸ judged_vmulF32 _ _ _ _ _ _ _
  case vminF32 => exact Option.some.inj hx ▸ judged_vminF32 _ _ _ _ _ _ _
  case vmaxF32 => exact Option.some.inj hx ▸ judged_vmaxF32 _ _ _ _ _ _ _
  case vabsF32 => exact Option.some.inj hx ▸ judged_vabsF32 _ _ _ _ _ _
  case vnegF32 => exact Option.some.inj hx ▸ judged_vnegF32 _ _ _ _ _ _
  case vcmpeqF32 => exact Option.some.inj hx ▸ judged_vcmpeqF32 _ _ _ _ _ _ _
  case vcmpltF32 => exact Option.some.inj hx ▸ judged_vcmpltF32 _ _ _ _ _ _ _
  case vcmpleF32 => exact Option.some.inj hx ▸ judged_vcmpleF32 _ _ _ _ _ _ _
  case vaddF16 => exact Option.some.inj hx ▸ judged_vaddF16 _ _ _ _ _ _ _
  case vsubF16 => exact Option.some.inj hx ▸ judged_vsubF16 _ _ _ _ _ _ _
  case vmulF16 => exact Option.some.inj hx ▸ judged_vmulF16 _ _ _ _ _ _ _
  case vminF16 => exact Option.some.inj hx ▸ judged_vminF16 _ _ _ _ _ _ _
  case vmaxF16 => exact Option.some.inj hx ▸ judged_vmaxF16 _ _ _ _ _ _ _
  case vabsF16 => exact Option.some.inj hx ▸ judged_vabsF16 _ _ _ _ _ _
  case vnegF16 => exact Option.some.inj hx ▸ judged_vnegF16 _ _ _ _ _ _
  case vcmpeqF16 => exact Option.some.inj hx ▸ judged_vcmpeqF16 _ _ _ _ _ _ _
  case vcmpltF16 => exact Option.some.inj hx ▸ judged_vcmpltF16 _ _ _ _ _ _ _
  case vcmpleF16 => exact Option.some.inj hx ▸ judged_vcmpleF16 _ _ _ _ _ _ _
  case vaddBf16 => exact Option.some.inj hx ▸ judged_vaddBf16 _ _ _ _ _ _ _
  case vsubBf16 => exact Option.some.inj hx ▸ judged_vsubBf16 _ _ _ _ _ _ _
  case vmulBf16 => exact Option.some.inj hx ▸ judged_vmulBf16 _ _ _ _ _ _ _
  case vminBf16 => exact Option.some.inj hx ▸ judged_vminBf16 _ _ _ _ _ _ _
  case vmaxBf16 => exact Option.some.inj hx ▸ judged_vmaxBf16 _ _ _ _ _ _ _
  case vabsBf16 => exact Option.some.inj hx ▸ judged_vabsBf16 _ _ _ _ _ _
  case vnegBf16 => exact Option.some.inj hx ▸ judged_vnegBf16 _ _ _ _ _ _
  case vcmpeqBf16 => exact Option.some.inj hx ▸ judged_vcmpeqBf16 _ _ _ _ _ _ _
  case vcmpltBf16 => exact Option.some.inj hx ▸ judged_vcmpltBf16 _ _ _ _ _ _ _
  case vcmpleBf16 => exact Option.some.inj hx ▸ judged_vcmpleBf16 _ _ _ _ _ _ _
  case vfmaF32 => exact Option.some.inj hx ▸ judged_vfmaF32 _ _ _ _ _ _ _ _
  case vfmsF32 => exact Option.some.inj hx ▸ judged_vfmsF32 _ _ _ _ _ _ _ _
  case vfmaBf16 => exact Option.some.inj hx ▸ judged_vfmaBf16 _ _ _ _ _ _ _ _
  case vfmaF16 => exact Option.some.inj hx ▸ judged_vfmaF16 _ _ _ _ _ _ _ _
  case vcvtF32I32 => exact Option.some.inj hx ▸ judged_vcvtF32I32 _ _ _ _ _ _ _
  case vcvtI32F32 => exact Option.some.inj hx ▸ judged_vcvtI32F32 _ _ _ _ _ _ _
  case vcvtF32F16 => exact Option.some.inj hx ▸ judged_vcvtF32F16 _ _ _ _ _ _ _
  case vcvtF32Bf16 => exact Option.some.inj hx ▸ judged_vcvtF32Bf16 _ _ _ _ _ _ _
  case vcvtF16F32 => exact Option.some.inj hx ▸ judged_vcvtF16F32 _ _ _ _ _ _ _ _
  case vcvtBf16F32 => exact Option.some.inj hx ▸ judged_vcvtBf16F32 _ _ _ _ _ _ _ _
  case vcvtF32E4m3 => exact Option.some.inj hx ▸ judged_vcvtF32E4m3 _ _ _ _ _ _ _
  case vcvtF32E5m2 => exact Option.some.inj hx ▸ judged_vcvtF32E5m2 _ _ _ _ _ _ _
  case vcvtE4m3F32 => exact Option.some.inj hx ▸ judged_vcvtE4m3F32 _ _ _ _ _ _ _ _
  case vcvtE5m2F32 => exact Option.some.inj hx ▸ judged_vcvtE5m2F32 _ _ _ _ _ _ _ _
  case vpackB4 => exact Option.some.inj hx ▸ judged_vpackB4 _ _ _ _ _ _ _
  case vunpackB4 => exact Option.some.inj hx ▸ judged_vunpackB4 _ _ _ _ _ _ _
  case vperm => exact Option.some.inj hx ▸ judged_vperm _ _ _ _ _ _ _
  case vrot => exact Option.some.inj hx ▸ judged_vrot _ _ _ _ _ _ _
  case vbcast => exact Option.some.inj hx ▸ judged_vbcast _ _ _ _ _ _
  case vredadd => exact Option.some.inj hx ▸ judged_vredadd _ _ _ _ _ _
  case vredmax => exact Option.some.inj hx ▸ judged_vredmax _ _ _ _ _ _
  case viredadd => exact Option.some.inj hx ▸ judged_viredadd _ _ _ _ _ _
  case vbspl => exact Option.some.inj hx ▸ judged_vbspl _ _ _ _ _ _ _
  case patC => exact Option.some.inj hx ▸ judged_patC _ _ _ _
  case pisC => exact Option.some.inj hx ▸ judged_pisC _ _ _ _
  case patA => exact Option.some.inj hx ▸ judged_patA _ _ _ _
  case pisA => exact Option.some.inj hx ▸ judged_pisA _ _ _ _
  case patS => exact Option.some.inj hx ▸ judged_patS _ _ _ _
  case pisS => exact Option.some.inj hx ▸ judged_pisS _ _ _ _
  case tplC => exact Option.some.inj hx ▸ judged_tplC _ _ _ _ _
  case tplA => exact Option.some.inj hx ▸ judged_tplA _ _ _ _ _
  case tplS => exact Option.some.inj hx ▸ judged_tplS _ _ _ _ _
  case cwait => exact Option.some.inj hx ▸ judged_cwait _ _ _ _
  case cdisc => exact Option.some.inj hx ▸ judged_cdisc _ _ _ _
  case crd => exact Option.some.inj hx ▸ judged_crd _ _ _ _
  case rngset => exact Option.some.inj hx ▸ judged_rngset _ _ _ _ _
  case rngrd => exact Option.some.inj hx ▸ judged_rngrd _ _ _ _
  case publish => exact Option.some.inj hx ▸ judged_publish _ _ _
  case kset => exact Option.some.inj hx ▸ judged_kset _ _ _ _
  case krd => exact Option.some.inj hx ▸ judged_krd _ _ _ _
  case katcmp => exact Option.some.inj hx ▸ judged_katcmp _ _ _ _
  case join => exact Option.some.inj hx ▸ judged_join _ _ _ _
  case leave => exact Option.some.inj hx ▸ judged_leave _ _ _ _
  case grpq => exact Option.some.inj hx ▸ judged_grpq _ _ _ _
  case barr => exact Option.some.inj hx ▸ judged_barr _ _ _ _ _
  case bwait => exact Option.some.inj hx ▸ judged_bwait _ _ _ _ _
  case barw => exact Option.some.inj hx ▸ judged_barw _ _ _ _ _
  case finc => exact Option.some.inj hx ▸ judged_finc _ _ _ _ _
  case fwait => exact Option.some.inj hx ▸ judged_fwait _ _ _ _ _
  case frd => exact Option.some.inj hx ▸ judged_frd _ _ _ _
  case fset => exact Option.some.inj hx ▸ judged_fset _ _ _ _ _
  case launch => exact Option.some.inj hx ▸ judged_launch _ _ _ _
  case launchn => exact Option.some.inj hx ▸ judged_launchn _ _ _ _
  case evset => exact Option.some.inj hx ▸ judged_evset _ _ _ _
  case evclr => exact Option.some.inj hx ▸ judged_evclr _ _ _ _
  case evwait => exact Option.some.inj hx ▸ judged_evwait _ _ _ _ _
  case enq => exact Option.some.inj hx ▸ judged_enq _ _ _ _
  case deq => exact Option.some.inj hx ▸ judged_deq _ _ _ _
  case yield => exact Option.some.inj hx ▸ judged_yield _ _
  case taskinfo => exact Option.some.inj hx ▸ judged_taskinfo _ _ _ _
  case ldg => exact Option.some.inj hx ▸ judged_ldg _ _ _ _ _ _ _
  case stg => exact Option.some.inj hx ▸ judged_stg _ _ _ _ _ _ _
  case lda => exact Option.some.inj hx ▸ judged_lda _ _ _ _ _ _ _
  case stl => exact Option.some.inj hx ▸ judged_stl _ _ _ _ _ _ _
  case ldgq => exact Option.some.inj hx ▸ judged_ldgq _ _ _ _ _ _
  case stgq => exact Option.some.inj hx ▸ judged_stgq _ _ _ _ _ _
  case pfg => exact Option.some.inj hx ▸ judged_pfg _ _ _ _ _
  case fence => exact Option.some.inj hx ▸ judged_fence _ _ _ _ _
  case pubg => exact Option.some.inj hx ▸ judged_pubg _ _ _
  case tlbinv => exact Option.some.inj hx ▸ judged_tlbinv _ _ _ _
  case tlbsync => exact Option.some.inj hx ▸ judged_tlbsync _ _ _
  case caprd => exact Option.some.inj hx ▸ judged_caprd _ _ _ _
  case ctxsave => exact Option.some.inj hx ▸ judged_ctxsave _ _ _ _ _
  case ctxrst => exact Option.some.inj hx ▸ judged_ctxrst _ _ _ _ _
  case sealw => exact Option.some.inj hx ▸ judged_sealw _ _
  case hostsig => exact Option.some.inj hx ▸ judged_hostsig _ _ _
  case nwr => exact Option.some.inj hx ▸ judged_nwr _ _ _ _ _
  case nrd => exact Option.some.inj hx ▸ judged_nrd _ _ _ _ _ _
  case nred => exact Option.some.inj hx ▸ judged_nred _ _ _ _ _
  case nbar => exact Option.some.inj hx ▸ judged_nbar _ _ _ _
  case memb => exact Option.some.inj hx ▸ judged_memb _ _ _
  case gsw => exact Option.some.inj hx ▸ judged_gsw _ _ _ _
  all_goals cases hx

end Sys2Proof.Machine
end

