-- ==== Sys2Proof/Tests/Slice0.lean ====
section
/-! SUPPORT. Tests: small states, a word of every instruction written out from its encoding, ill-formed terms that are refused, the
hypotheses of every statement met by a state, and single steps with results worked out by hand. -/

namespace Sys2Proof.Tests

open Sys2Proof Sys2Proof.Machine Sys2Proof.Claim

set_option Elab.async false

/-! ### Small states -/

/-- A thread with the whole scratchpad in slot 0, in S mode, in cycle 100, at the turn of a voice; its word stands at address 0
of a context that maps the first GiB. -/
def turnOf (v : VoiceId) : State :=
  { State.reset with
    core := { State.reset.core with slot0 := placedSlot Slot.empty false 0, clauses := [⟨1, 0, .A, none, [], VoiceArch.fresh 0, false⟩] }
    pkg := { State.reset.pkg with contexts := [(0, placeCtx)] }, turn := voiceTurn v, sgo := true, now := 100 }

/-- The same with the page table in memory, and the word there. -/
def placed (v : VoiceId) (w : Nat) : State := { State.reset.withFetchWord 32 w with turn := voiceTurn v, now := 100 }

def withArch (s : State) (f : VoiceArch → VoiceArch) : State := setArchAt s (hereOf s) (f (me s))

/-- Scalars of the issuing voice, by number. -/
def withS (s : State) (xs : SMap 64) : State := withArch s (fun a => { a with vis := { a.vis with s := xs } })

def withWait (s : State) (w : Wait) : State := withArch s (fun a => { a with wait := some w })

def withPending (s : State) : State := withArch s (fun a => { a with pending := [⟨.s 9, 5, 110, 99⟩] })

def withCtl (s : State) (f : Ctl → Ctl) : State :=
  { s with core := { s.core with ctl := { s.core.ctl with c0 := f s.core.ctl.c0 } } }

def withSlot (s : State) (f : Slot → Slot) : State := { s with core := { s.core with slot0 := f s.core.slot0 } }

def withCtx (s : State) (f : Context → Context) : State :=
  { s with pkg := { s.pkg with contexts := [(0, f (getCtx s 0))] } }

def withCluster (s : State) (f : Cluster → Cluster) : State := { s with cluster := f s.cluster }

def withPkg (s : State) (f : Package → Package) : State := { s with pkg := f s.pkg }

def withSpad (s : State) (a : Nat) (bs : List Byte) : State := { s with core := { s.core with spad := writeBytes [] a bs } }

def nulled (s : State) : State := withArch s (fun a => { a with na0 := { a.na0 with nul := true } })

/-- A property of the next state. -/
def after (o : Host.Outcome State Fault Refusal) (f : State → Bool) : Bool :=
  match o with
  | .next t => f t
  | _ => false

/-! ### Every hypothesis of a statement is met (the statement's name stands behind `witness`) -/

theorem witness_round_trip : wellFormed (.vaddI32 1 1 7 31 28 29 1) = true ∧ (encode (.vaddI32 1 1 7 31 28 29 1)).isSome = true ∧
    (decodeWord 0x3BFFE760).isSome = true := by decide +kernel

theorem witness_step_runs_word : 1 ≤ (placed .C 0x06000005).turn ∧ (placed .C 0x06000005).turn ≤ 4 ∧
    voiceReady (placed .C 0x06000005) (turnVoice (placed .C 0x06000005).turn) = true ∧
    fetchAt (placed .C 0x06000005) 0 .C 0 = .word 0x06000005 ∧ pairAt (placed .C 0x06000005) (hereOf (placed .C 0x06000005)) = false ∧
    decodeWord 0x06000005 = some (.addi 0 0 0 0 5) := by decide +kernel

/-- Voice A's word `lds s9, 0(s0)`, whose bank a stream unit has wanted for eight cycles. -/
def bankTaken : State :=
  { placed .A ((encode (.lds 0 0 9 0 3 0 0)).getD 0).toNat with core := { (placed .A ((encode (.lds 0 0 9 0 3 0 0)).getD 0).toNat).core with streamWait := [(0, 8)] } }

/-- A pair's first word; bank reads that are all served, or of which some are left; a scratchpad bank that refuses voice A. -/
theorem witness_step_pairs : pairAt (placed .X0 0x33000000) (hereOf (placed .X0 0x33000000)) = true ∧
    (decodeWord 0x33000000).isSome = true ∧ readsLeft (placed .X0 0x33000000) (hereOf (placed .X0 0x33000000)) = [] ∧
    after (exec ((decodeWord 0x33000000).getD (.nop 0 0)) (fetchFill (placed .X0 0x33000000) 0 .X0 0))
      (fun t => decide (markAt t (hereOf (placed .X0 0)) = .issued)) = true ∧
    readsLeft (withSlot (placed .X0 0x06000005) (fun x => { x with vX0 := { x.vX0 with replay := some [0, 0, 0] } })) (hereOf (placed .X0 0)) ≠ [] ∧
    banksRefused (placed .A 0x06000005) 0 = [] ∧ banksRefused (bankTaken) 0 ≠ [] := by decide +kernel

/-- A fetch without translation, one from a poisoned line, and an LDS that finds its bank taken. -/
theorem witness_step_fetches : fetchAt (withCtx (placed .A 0) (fun c => { c with root := 0x9000000 })) 0 .A 0 = .fault ∧
    fetchAt (withPkg (placed .A 0) (fun p => { p with poison := [0] })) 0 .A 0 ≠ .fault ∧
    (match fetchAt (withPkg (placed .A 0) (fun p => { p with poison := [0] })) 0 .A 0 with | .check _ _ => true | _ => false) = true := by
  decide +kernel

theorem witness_nullified_and_false : Takes (nulled (turnOf .C)) 0 0 .all false ∧ (hereOf (nulled (turnOf .C))).nul = true ∧
    (me (turnOf .C)).wait = none ∧ predOf (.addi 0 1 2 3 5) = some 1 ∧ visP (me (turnOf .C)) 1 = false := by decide +kernel

theorem witness_judged : placeIll (hereOf (turnOf .A)) (turnOf .A) (.eret 0 0) = true ∧
    pairBad (withSlot (turnOf .X0) (fun x => { x with vX0 := { x.vX0 with second := true } }))
      (hereOf (withSlot (turnOf .X0) (fun x => { x with vX0 := { x.vX0 with second := true } }))) 0 1 = true ∧
    Perm.ok .c (hereOf (turnOf .A)).v = false ∧ pairBad (turnOf .A) (hereOf (turnOf .A)) 0 0 = false ∧
    (slotAt (withSlot (turnOf .C) (fun x => { x with thread := Thread.none })) (hereOf (turnOf .C))).thread.smode = false ∧
    decodeWord 0 = none ∧ (slotAt (turnOf .A) (hereOf (turnOf .A))).trapped = none ∧ othersIssued (turnOf .A) (hereOf (turnOf .A)) = false := by
  decide +kernel

/-- Voice A's turn in a cycle whose SYNCSET names voices A and X1 and whose S words do not issue. -/
def inSet : State := { turnOf .A with syncNow := 5, sgo := false }

theorem witness_lockstep : lockstep inSet (hereOf inSet) 1 = true ∧ inSet.sgo = false ∧ lockstepDead inSet (hereOf inSet) = false ∧
    lockstepDead (withSlot inSet (fun x => { x with vX1 := { x.vX1 with a := { x.vX1.a with exited := true } } })) (hereOf inSet) = true ∧
    lockstep { inSet with sgo := true } (hereOf inSet) 1 = true := by decide +kernel

theorem witness_scalar_and_reading : MayIssue (turnOf .X0) 0 0 .all ∧ Room (turnOf .X0) [⟨.s 31, 0, 3⟩] ∧
    (scalarResult 0 (me (turnOf .X0)) (.mul 0 0 31 1 2)).isSome = true ∧ (readResult (turnOf .C) (.caprd 0 0 1 2)).isSome = true ∧
    MayIssue (turnOf .C) 0 0 .c ∧ MayIssue (turnOf .A) 0 0 .a ∧ MayIssue (turnOf .A) 0 0 .ax := by decide +kernel

theorem witness_status : MayIssue (turnOf .X1) 0 0 (statusPerm 3) ∧ MayIssue (turnOf .X1) 0 0 (statusPerm 4) ∧
    Room (turnOf .X1) [⟨.vflags, 0, 2⟩] := by decide +kernel

theorem witness_status_core : MayIssue (turnOf .C) 0 0 (statusPerm 0) ∧ MayIssue (turnOf .C) 0 0 (statusPerm 0x18) ∧
    MayIssue (turnOf .C) 0 0 (statusPerm 0x3B) ∧ mwf 0 (ctlOf (turnOf .C)).status = true := by decide +kernel

theorem witness_clashes : isConstReg (.s 0) = true ∧ isConstReg (.v 0) = false ∧ wIndex (.v 31) < 128 ∧
    (∃ p ∈ (me (withPending (turnOf .C))).pending, p.reg = .s 9) ∧ (me (turnOf .C)).clashtrap = true ∧
    clashes (me (withPending (turnOf .C))) (.s 9) = true ∧ fileFull .C (me (withPending (turnOf .C))) (needs [⟨.s 9, 0, 1⟩]) = false ∧
    fileFull .C (me (withArch (turnOf .C) (fun a => { a with pending := (List.range 16).map (fun n => ⟨.s (n + 10), 0, 110, 99⟩) })))
      (needs [⟨.s 9, 0, 1⟩]) = true := by decide +kernel

theorem witness_flip : MayIssue (turnOf .A) 0 0 .all ∧ (me (turnOf .A)).pending = [] ∧ sealQueueFull (turnOf .A) 0 .A = false ∧
    (me (withPending (turnOf .A))).pending ≠ [] ∧ RegId.v 27 ∈ facedRegs ∧ facesCanonical (me (turnOf .A)) = true ∧
    wGet { me (turnOf .A) with w := 1#128 <<< 48 } .vflags = true := by decide +kernel

theorem witness_branches : Takes (turnOf .A) 0 0 .all false ∧ Plain (turnOf .A) ∧ visP (me (turnOf .A)) 0 = true ∧
    visP (me (turnOf .A)) 1 = false ∧ Room (turnOf .A) [⟨.s 31, 0, 1⟩] ∧
    (3 : BitVec 10).toNat ≤ (visS (me (withS (turnOf .A) [(4, 3)])) 4).toNat ∧
    (visS (me (withS (turnOf .A) [(4, 2)])) 4).toNat < (3 : BitVec 10).toNat ∧
    fetchAt (placed .A 0x06000005) 0 .A (tableEntry 0 0).toNat = .word 0x06000005 ∧
    fetchAt (placed .A 0x06000005) 0 .A (tableEntry 0xFFFFFFFFFFFFFFFF 0).toNat = .fault ∧
    (match fetchAt (withPkg (placed .A 0) (fun p => { p with poison := [0] })) 0 .A (tableEntry 0 0).toNat with
      | .check _ _ => true | _ => false) = true := by decide +kernel

theorem witness_chain : seqFrom 8 [⟨0, 12, 2⟩] = (0, [⟨0, 12, 1⟩], 0) ∧ (8 : VAddr) = (12 : VAddr) - 4 ∧ 1 < (2 : Word).toNat ∧
    ¬(1 < (1 : Word).toNat) := by decide +kernel

theorem witness_loops : (me (turnOf .A)).dslots = 0 ∧ (getVoice (turnOf .A) 0 .A).second = false ∧ visS (me (turnOf .A)) 4 = 0 ∧
    visS (me (withS (turnOf .A) [(4, 7)])) 4 ≠ 0 ∧ (me (turnOf .A)).lc.length < 4 ∧
    4 ≤ (me (withArch (turnOf .A) (fun a => { a with lc := List.replicate 4 ⟨0, 8, 2⟩ }))).lc.length := by decide +kernel

/-- Voice C with a sync bit, an outcome in its queue, and voice A exited. -/
def synced : State :=
  withSlot (withCtl (turnOf .C) (fun c => { c with sync := [(24, ⟨1, 50, []⟩)], bqC := [⟨true, 1, 50, []⟩] }))
    (fun x => { x with vA := { x.vA with a := { x.vA.a with exited := true } } })

theorem witness_sync : MayIssue synced 0 0 .all ∧ (getArch synced 0 (voiceOf 0)).exited = true ∧
    (getArch synced 0 (voiceOf 3)).exited = false ∧ (getBq (ctlOf synced) (voiceOf 3)).length < 8 ∧
    8 ≤ (getBq (ctlOf (withCtl synced (fun c => { c with bqC := List.replicate 8 ⟨true, 1, 50, []⟩ }))) (voiceOf 3)).length ∧
    mfind (ctlOf synced).sync (8 * 3 + 0) = some ⟨1, 50, []⟩ ∧ 50 ≤ synced.now ∧ mfind (ctlOf synced).sync (8 * 3 + 1) = none ∧
    bqRetained synced 0 .C < 8 := by decide +kernel

/-- A thread whose other voices have exited. -/
def aloneC : State :=
  withSlot (turnOf .C) (fun x => { x with
    vA := { x.vA with a := { x.vA.a with exited := true } }, vX0 := { x.vX0 with a := { x.vX0.a with exited := true } }
    vX1 := { x.vX1 with a := { x.vX1.a with exited := true } } })

/-- A bit and an outcome posted in this cycle, and eight pops that have not sealed; an empty `bq`. -/
theorem witness_sync_waits : mfind (ctlOf (withCtl (turnOf .C) (fun c => { c with sync := [(24, ⟨1, 101, []⟩)] }))).sync 24 = some ⟨1, 101, []⟩ ∧
    (turnOf .C).now < 101 ∧ mfind (ctlOf aloneC).sync 24 = none ∧
    (otherVoices .C).all (fun u => countsExited aloneC 0 u) = true ∧ (otherVoices .C).all (fun u => countsExited (turnOf .C) 0 u) = false ∧
    getBq (ctlOf aloneC) .C = [] ∧ getBq (ctlOf (turnOf .C)) .C = [] ∧
    8 ≤ bqRetained { turnOf .C with core := { (turnOf .C).core with
      clauses := [⟨1, 0, .C, none, [], VoiceArch.fresh 0, false⟩], journal := List.replicate 8 ⟨0, 1, .bqPop .C⟩ } } 0 .C := by decide +kernel

theorem witness_exit_trap_brk : MayIssue (turnOf .X0) 0 0 .all ∧ (slotAt (turnOf .X0) (hereOf (turnOf .X0))).trapped = none ∧
    Takes (turnOf .X0) 0 0 .all false ∧ (threadCtx (turnOf .X0) 0).session = none ∧
    (threadCtx (withCtx (turnOf .X0) (fun c => { c with session := some 0 })) 0).session = some 0 ∧
    (debugStop (withCtx (placed .X0 0) (fun c => { c with session := some 0 })) 0 2 0).isSome = true ∧
    (getSlot (withSlot (turnOf .X0) (fun x => { x with trapped := some (.X0, 5) })) 0).run = .running := by decide +kernel

/-- A voice that has issued in its clause, number 1. -/
def issuedIn : State := withSlot (turnOf .A) (fun x => { x with vA := { x.vA with issued := true, clause := 1 } })

theorem witness_exit : (getVoice issuedIn 0 .A).issued = true ∧ sealQueueFull issuedIn 0 .A = false ∧ (me issuedIn).pending = [] ∧
    (∃ c ∈ issuedIn.core.clauses, c.id = clauseAt issuedIn (hereOf issuedIn)) ∧
    after (exec (.exit 0 0) issuedIn) (fun t => t.core.clauses.any (fun c => decide (c.boundary = some issuedIn.now))) = true ∧
    sealQueueFull { issuedIn with core := { issuedIn.core with
      clauses := (List.range 8).map (fun n => ⟨n, 0, .A, some 90, [], VoiceArch.fresh 0, false⟩) } } 0 .A = true := by decide +kernel

theorem witness_step_replays : (turnOf .X0).turn = 2 ∧ refusedReads ((getVoice (withSlot (turnOf .X0) (fun x => { x with
      vX0 := { x.vX0 with replay := some [0, 0, 0] } })) 0 .X0).replay.getD []) [] ≠ [] := by decide +kernel

/-- The handler of a stopped thread, its record at 0x2000. -/
def handling : State := withSlot (placed .A 0) (fun x => { x with run := .handler, recAddr := 0x2000 })

theorem witness_eret : Takes handling 0 0 .a false ∧ Plain handling ∧ Live handling 0 ∧ (slotAt handling (hereOf handling)).run = .handler ∧
    sealQueueFull handling 0 .A = false ∧ (slotAt handling (hereOf handling)).heldSignal = false ∧
    (∃ ps, spanParts handling (threadCtx handling 0) true .read 0x2000 3 recordSize = .ok ps ∧
      ∀ q ∈ ps, poisoned handling.pkg q.pa q.len = false) := by
  refine ⟨by decide, by decide, by decide, by decide, by decide, by decide, (spanParts handling (threadCtx handling 0) true .read 0x2000 3
    recordSize).toOption.getD [], ?_, by decide +kernel⟩
  rfl

/-- A SIGNAL held over the handler. -/
theorem witness_eret_signal : (slotAt (withSlot handling (fun x => { x with heldSignal := true })) (hereOf handling)).heldSignal = true ∧
    othersIssued handling (hereOf handling) = false ∧
    (∃ bad, spanParts handling (threadCtx handling 0) true .read 0x40000000 3 recordSize = .error bad) := by
  refine ⟨by decide, by decide, 0x40000000, ?_⟩
  rfl

theorem witness_eret_waits : (slotAt (turnOf .A) (hereOf (turnOf .A))).run ≠ .handler ∧ slotClosed (turnOf .A) 0 = [] ∧
    (me (withWait (turnOf .A) ⟨.eret, 1, [], 0, 0, 99, 0⟩)).wait = some ⟨.eret, 1, [], 0, 0, 99, 0⟩ ∧
    slotClosed { turnOf .A with core := { (turnOf .A).core with clauses := [⟨1, 0, .A, some 90, [], VoiceArch.fresh 0, false⟩] } } 0 ≠ [] := by
  decide +kernel

/-- An answer of that address, an error at that address. -/
def isOk (x : Except Nat Nat) (a : Nat) : Bool := match x with | .ok b => decide (b = a) | .error _ => false

def isError (x : Except Nat Nat) (a : Nat) : Bool := match x with | .ok _ => false | .error b => decide (b = a)

/-- Voice A with s1 at 0x1000, and four clause lines still free. -/
def spadState : State := withS (withSpad (turnOf .A) 0x1000 [0x11, 0x22, 0x33, 0x44, 0x55, 0x66, 0x77, 0x88]) [(1, 0x1000), (2, 0x400000)]

theorem witness_spad_loads : MayIssue spadState 0 0 .a ∧ spadPoison spadState 0x1000 8 = none ∧
    Room spadState (⟨.s 5, 0, 4⟩ :: postWrite (me spadState) 1 1 8 (accWidth 3)) := by decide +kernel

theorem witness_spad_addresses :
    isOk (spadLoadAddr (slotAt spadState (hereOf spadState)) (memAddr (me spadState) 1 1 8 (accWidth 3)).toNat (accWidth 3)) 0x1000 = true ∧
    isOk (spadLoadAddr (slotAt spadState (hereOf spadState)) (memAddr (me spadState) 2 0 0x1FF (accWidth 3)).toNat (accWidth 3)) 0x3FFFF8 = true ∧
    isError (spadLoadAddr (slotAt spadState (hereOf spadState)) (memAddr (me spadState) 2 0 0 (accWidth 0)).toNat (accWidth 0)) 0x400000 = true ∧
    isOk (spadStoreAddr (slotAt spadState (hereOf spadState)) 0x1000 8) 0x1000 = true ∧
    isError (spadStoreAddr (slotAt spadState (hereOf spadState)) 0x400000 1) 0x400000 = true := by decide +kernel

/-- A FENCE of voice A over core scratchpad whose clause has not sealed; a poisoned line. -/
def fencedSpad : State := withSlot spadState (fun x => { x with fences := [⟨1, true, [1], [], [], 1⟩] })

theorem witness_spad_fences : spadFenced fencedSpad 0 = true ∧ spadFenced spadState 0 = false ∧
    spadPoison { spadState with core := { spadState.core with poison := [0x40] } } 0x1000 8 ≠ none ∧ othersIssued spadState (hereOf spadState) = false := by
  decide +kernel

/-- The hold-back buffer full of one clause's lines. -/
def fullBuffer : State :=
  { spadState with core := { spadState.core with held := (List.range 128).map (fun n =>
      ⟨n, 0, 1, [], .store false (64 * n) [0] 1 false 0 0 0⟩) } }

theorem witness_spad_stores : holdbackRoom spadState.core (clauseAt spadState (hereOf spadState)) false 0x1000 8 = true := by
  decide +kernel

theorem witness_spad_stalls : holdbackRoom fullBuffer.core 5 false 0x100000 8 = false := by decide +kernel

/-- A value in store queue 0, and stream 3 bound to load queue 2. -/
def queued : State :=
  withSlot (withCtl spadState (fun c => { c with
      queues := [(4, [⟨7, 1, []⟩])]
      streams := [(3, { parseStream (List.replicate 64 0) 2 with bound := true })] }))
    (fun x => { x with qvals := [(7, ⟨0x55, none⟩)] })

theorem witness_queues : queueBound queued (hereOf queued) 2 = true ∧ queueBound queued (hereOf queued) 0 = false ∧
    tryPush queued 0 0 = .room ∧ tryPop queued 0 4 = .ready ⟨7, 1, []⟩ ⟨0x55, none⟩ ∧ tryPop queued 0 5 = .wait ∧
    tryPush (withCtl queued (fun c => { c with queues := [(0, List.replicate 16 ⟨7, 1, []⟩)] })) 0 0 = .full ∧
    tryPush (withSlot queued (fun x => { x with vX0 := { x.vX0 with a := { x.vX0.a with exited := true } } })) 0 0 = .drop ∧
    (isError (spadLoadAddr (slotAt queued (hereOf queued)) 0x400000 128) 0x400000 &&
      isError (spadStoreAddr (slotAt queued (hereOf queued)) 0x400000 128) 0x400000) = true ∧
    tryPop (withSlot queued (fun x => { x with vX1 := { x.vX1 with a := { x.vX1.a with exited := true } } })) 0 5 = .trap 0x0D := by
  decide +kernel

/-- A fill descriptor at 0x1000: sixteen 4-byte elements from 0x2000; a drain descriptor has byte 0x21 set. -/
def descriptor (drain : Nat) : List Byte :=
  leBytes 8 0x2000 ++ leBytes 2 16 ++ leBytes 2 1 ++ leBytes 2 1 ++ leBytes 2 1 ++ leBytes 4 4 ++ leBytes 12 0 ++ [2, BitVec.ofNat 8 drain] ++
    List.replicate 30 0

def described (drain : Nat) : State := withS (withSpad (turnOf .A) 0x1000 (descriptor drain)) [(1, 0x1000), (2, 0x1004)]

theorem witness_stream_address :
    spadLoadAddr (slotAt (described 0) (hereOf (described 0))) (visS (me (described 0)) 1).toNat 64 = .ok 0x1000 := by rfl

theorem witness_streams : (visS (me (described 0)) 1).toNat % 64 = 0 ∧ (visS (me (described 0)) 2).toNat % 64 ≠ 0 ∧
    firstBadByte (readSpad (described 0) 0x1000 64) 3 = none ∧ firstBadByte (readSpad (described 1) 0x1000 64) 3 = some 0x21 ∧
    streamBound (ctlOf (described 0)) 7 = false ∧ boundStream (ctlOf (described 0)) 3 = none := by decide +kernel

theorem witness_stream_pattern :
    patternFault (slotAt (described 0) (hereOf (described 0))) (parseStream (readSpad (described 0) 0x1000 64) 3) = none ∧
    patternFault (slotAt (described 0) (hereOf (described 0))) { parseStream (descriptor 0) 3 with base := 0x3FFFFC } = some 0x400000 ∧
    streamBound (ctlOf queued) 3 = true := by decide +kernel

/-- Stream 0 fills load queue 0; stream 1 drains store queue 0. -/
def streaming : State :=
  withSlot (withCtl (described 0) (fun c => { c with
      queues := [(4, [⟨7, 1, []⟩])], streams := [(0, parseStream (descriptor 0) 0), (1, parseStream (descriptor 1) 4)] }))
    (fun x => { x with qvals := [(7, ⟨0x55, none⟩)] })

theorem witness_stream_service : ({ streaming with granted := [0, 1] } : State).granted.contains (8 * 0 + 1) = true ∧
    tryPush (withSlot streaming (fun x => { x with vX0 := { x.vX0 with a := { x.vX0.a with exited := true } } })) 0 0 = .drop ∧
    canServe streaming 0 0 = true ∧ canServe streaming 0 1 = true ∧ clockRuns streaming = true ∧
    getStream (getCtl streaming 0) 0 = some (parseStream (descriptor 0) 0) ∧ (parseStream (descriptor 0) 0).drain = false ∧
    (parseStream (descriptor 1) 4).drain = true ∧ streamPoison streaming (parseStream (descriptor 0) 0) = none ∧
    tryPush streaming 0 0 = .room ∧ tryPop streaming 0 4 = .ready ⟨7, 1, []⟩ ⟨0x55, none⟩ := by decide +kernel

theorem witness_stream_clause : unsealed { streaming.core with clauses := [⟨1, 0, .A, none, [], VoiceArch.fresh 0, false⟩] } 1 = true := by
  decide +kernel

/-- Landing slot 0 of voice A: FULL, failed, BUSY. -/
def landed (arr : KMap Arrival) : State :=
  withSlot (withCtl (turnOf .A) (fun c => setLanding c 0 (.xfer 5 1))) (fun x => { x with arrived := arr })

theorem witness_commit : MayIssue (turnOf .X0) 0 0 .ax ∧ (27 : BitVec 5).toNat < 28 ∧ getLanding (ctlOf (landed [])) (landKey (landed []) 0) = .xfer 5 1 ∧
    (getLanding (ctlOf (landed [])) (landKey (landed []) 1)) = .free 0 ∧ mfind (slotAt (landed []) (hereOf (landed []))).arrived 5 = none ∧
    mfind (slotAt (landed [(5, ⟨9, none, none⟩)]) (hereOf (landed []))).arrived 5 = some ⟨9, none, none⟩ ∧
    mfind (slotAt (landed [(5, ⟨9, none, some 9⟩)]) (hereOf (landed []))).arrived 5 = some ⟨9, none, some 9⟩ := by decide +kernel

/-! ### Vectors -/

theorem witness_vector : (vectorWord (.vaddI32 0 0 0 31 28 1 0)).isSome = true ∧ (vectorToReg (.vredadd 0 0 0 5 1 0)).isSome = true ∧
    Takes (turnOf .X1) 0 0 .x false ∧ Plain (turnOf .X1) ∧ tryPops (turnOf .X1) 0 (queuesOf .X1 [1, 2]) = .ready [] ∧
    poisonedHead [] = none ∧ Room (turnOf .X1) [⟨.v 27, 0, 2⟩] ∧ dstQueue .X1 27 = none := by decide +kernel

theorem witness_vector_queues : tryPops (turnOf .X1) 0 (queuesOf .X1 [28, 1]) = .wait ∧ (dstQueue .X1 31).isSome = true ∧
    (dstQueue .X0 30).isSome = true ∧ tryPush (turnOf .X1) 0 5 = .room := by decide +kernel

theorem witness_masks : (0xFFFFFFFE : BitVec 32).getLsbD 0 = false ∧ (0xFFFFFFFE : BitVec 32).getLsbD 31 = true := by decide +kernel

theorem witness_special_floats : isNan (decodeNum fp32 0x7F800001) = true ∧ isSnan (decodeNum fp32 0x7F800001) = true ∧
    isNan (decodeNum fp32 0x7F800000) = false ∧ decodeNum fp32 0x3F800000 = .fin false 0x800000 (-23) ∧
    decodeNum fp32 0xBF800000 = .fin (!false) 0x800000 (-23) ∧ isZeroNum (decodeNum bf16 0x8000) = true ∧ isInfNum (decodeNum bf16 0x7F80) = true ∧
    isNan (decodeNum fp16 0x7E00) = true ∧ 0xFFFFFFFF < 2 ^ (fp32.ew + fp32.fw + 1) := by decide +kernel

/-! ### Engines -/

/-- A template of a copy of one 4-byte element from 0x100 to 0x1000 on counter 2; with a bad opcode. -/
def copyTemplate (op : Nat) : BitVec 1024 :=
  BitVec.ofNat 1024 (1 + op * 2 ^ 4 + 2 * 2 ^ 19 + 0x100 * 2 ^ 192 + 0x1000 * 2 ^ 256 + (1 + 2 ^ 32) * 2 ^ 320 + (1 + 2 ^ 32) * 2 ^ 384 +
    2 * 2 ^ (64 * 11 + 12))

/-- Voice C with that template as number 5, and its bytes at 0x1000. -/
def engineState (op : Nat) : State :=
  withS (withSpad (withCtl (turnOf .C) (fun c => { c with templates := [(69, copyTemplate op)] })) 0x1000 (leBytes 128 (copyTemplate op).toNat))
    [(1, 0x1000), (2, 0x1001), (3, 0x4000), (4, 0x20000060A)]

theorem witness_templates_fenced : spadFenced (withSlot (engineState 1) (fun x => { x with fences := [⟨1, true, [1], [], [], 1⟩] })) 0 = true ∧
    spadFenced (engineState 1) 0 = false := by decide +kernel

theorem witness_templates : isOk (spadLoadAddr (slotAt (engineState 1) (hereOf (engineState 1))) (visS (me (engineState 1)) 1).toNat 128) 0x1000 = true ∧
    (visS (me (engineState 1)) 1).toNat % 64 = 0 ∧ (visS (me (engineState 1)) 2).toNat % 64 ≠ 0 ∧ spadPoison (engineState 1) 0x1000 128 = none ∧
    templateOk (BitVec.ofNat 1024 (leNat (readSpad (engineState 1) 0x1000 128))) 1 = true ∧
    templateOk (BitVec.ofNat 1024 (leNat (readSpad (engineState 9) 0x1000 128))) 1 = false := by decide +kernel

theorem witness_tpl_words : (Instr.tplS 0 0 5 1 0, 3) ∈ tplOf 0 0 5 1 0 ∧ (Instr.patA 0 5 1 7, 2) ∈ patOf 0 5 1 7 ∧
    (Instr.pisC 0 5 0 7, 1) ∈ pisOf 0 5 0 7 := by simp [tplOf, patOf, pisOf]

theorem witness_pis : queuedCmds (engineState 1) 1 < engineDepth 1 ∧
    slotBusy (engineState 1) 0 (amended (engineState 1) 1 5 0 0) = false ∧
    pisFault (ctlOf (engineState 1)) (engineState 1).core.ctl.knots (slotAt (engineState 1) (hereOf (engineState 1))) 1
      (amended (engineState 1) 1 5 0 0) = none ∧
    (pisFault (ctlOf (engineState 9)) (engineState 9).core.ctl.knots (slotAt (engineState 9) (hereOf (engineState 9))) 1
      (amended (engineState 9) 1 5 0 0)).isSome = true ∧ (∀ m ∈ (engineState 1).core.cmds, m.id < (engineState 1).core.nextId) := by
  decide +kernel

/-- Counter 2 with an arrival that faulted behind one that did not. -/
def counted : State := withCtl (turnOf .C) (fun c => { c with counters := [(2, ⟨[⟨1, none, 90⟩, ⟨2, some (9, 0x40), 91⟩], 0, 0, true⟩)] })

theorem witness_counters : (counterOf counted 2).arrived.length < (3 : BitVec 10).toNat ∧
    oldestFault ((counterOf counted 2).arrived.take 1) = none ∧ oldestFault ((counterOf counted 2).arrived.take 2) = some (9, 0x40) ∧
    Room counted [⟨.s 5, 0, 2⟩] := by decide +kernel

theorem witness_rings : ringInUse (engineState 1) 0 3 = false ∧
    ringConfig (slotAt (engineState 1) (hereOf (engineState 1))) 0x4000 0x20000060A = some ⟨0x4000, 10, 6, 0, 2⟩ ∧
    ringConfig (slotAt (engineState 1) (hereOf (engineState 1))) 0x4001 0x20000060A = none ∧
    (pubOf (withSlot (turnOf .C) (fun x => { x with pubs := [(3, ⟨0, 1024, 1024, false, true⟩)] })).core.slot0 3).valid = true ∧
    (pubOf (turnOf .C).core.slot0 3).valid = false ∧ knotAllowed 3 13 = true ∧ knotAllowed 3 14 = false := by decide +kernel

theorem witness_digests : digestComing (turnOf .C) 0 1 = false ∧
    mfind (ctlOf (withCtl (turnOf .C) (fun c => { c with digests := [(1, 0)] }))).digests 1 = some (visS (me (turnOf .C)) 5) ∧
    mfind (ctlOf (turnOf .C)).digests 1 ≠ some (visS (me (turnOf .C)) 5) ∧ othersIssued (turnOf .C) (hereOf (turnOf .C)) = false := by
  decide +kernel

/-- A command of the copy engine, issued in cycle 90. -/
def copyCmd : Cmd := { newCmd (engineState 1) 0 1 1 (copyTemplate 1) Knots.reset none with issuedAt := 90 }

/-- The core with a command, its clause sealed. -/
def commanded (m : Cmd) : State := { engineState 1 with core := { (engineState 1).core with cmds := [m], clauses := [] } }

theorem witness_commands : findCmd (commanded copyCmd) copyCmd.id = some copyCmd ∧ copyCmd.eng = 1 ∧ tOp copyCmd.tmpl = 1 ∧
    cmdReady (commanded copyCmd) copyCmd = true ∧ ringOverrun (commanded copyCmd) copyCmd = false ∧ findCmd (commanded copyCmd) 99 = none := by
  decide +kernel

theorem witness_retires : retireReady (commanded { copyCmd with state := .done, startAt := 95 }) { copyCmd with state := .done, startAt := 95 } = true ∧
    copyCmd.follow = none ∧ retireReady (commanded copyCmd) copyCmd = false ∧
    followReady (commanded { copyCmd with state := .done, follow := some (copyTemplate 1) })
      { copyCmd with state := .done, follow := some (copyTemplate 1) } = true := by decide +kernel

/-- An array command over two rows, its sources at 0x1000 and 0x2000, its destination rows at 0x4000 and 0x4100; `x` for word 12. -/
def arrCmd (op x : Nat) : Cmd :=
  { newCmd (engineState 1) 0 1 2 (BitVec.ofNat 1024 (2 + op * 2 ^ 4 + 0x1000 * 2 ^ 192 + (if op = 6 then 0x4000 else 0x2000) * 2 ^ 256 +
      256 * 2 ^ 448 + 256 * 2 ^ 576 + (2 * 2 ^ 27 + 2 * 2 ^ 34 + x) * 2 ^ 768)) Knots.reset none with issuedAt := 90 }

/-- A scatter command over two elements that may start. -/
def scatterable (op : Nat) : Cmd :=
  { copyCmd with eng := 3, tmpl := BitVec.ofNat 1024 (3 + op * 2 ^ 4 + 2 * 2 ^ 320), src := 0x1000, dst := 0x2000 }

/-- That a command is the only one and may start, decided. -/
def mayStart (eng op : Nat) (m : Cmd) : Bool :=
  let s := commanded m
  decide (findCmd s 0 = some m) && decide (m.eng = eng) && decide (tOp m.tmpl = op) && cmdReady s m && !ringOverrun s m &&
    decide (s.core.badRows = []) && decide (s.core.poison = []) && decide (s.core.held = [])

theorem starts_of {eng op : Nat} {m : Cmd} (h : mayStart eng op m = true) : Starts (commanded m) 0 eng op m := by
  simp only [mayStart, Bool.and_eq_true, decide_eq_true_eq, Bool.not_eq_true'] at h
  obtain ⟨⟨⟨⟨⟨⟨⟨h1, h2⟩, h3⟩, h4⟩, h5⟩, h6⟩, h7⟩, h8⟩ := h
  exact ⟨h1, h2, h3, h4, h5, h6, h7, by rw [h8]; simp⟩

theorem witness_commands_write : Starts (commanded copyCmd) 0 1 1 copyCmd ∧ tSsp copyCmd.tmpl = 0 ∧ tDsp copyCmd.tmpl = 0 ∧
    InCore copyCmd 0 (copySrc (commanded copyCmd) copyCmd) ∧ InCore copyCmd 0 (copyDst (commanded copyCmd) copyCmd) ∧
    0 < copyCount copyCmd.tmpl ∧
    Starts (commanded (arrCmd 1 0)) 0 2 1 (arrCmd 1 0) ∧ Starts (commanded (arrCmd 1 (2 ^ 42))) 0 2 1 (arrCmd 1 (2 ^ 42)) ∧
    Starts (commanded (arrCmd 2 (2 ^ 12))) 0 2 2 (arrCmd 2 (2 ^ 12)) ∧ Starts (commanded (arrCmd 3 0)) 0 2 3 (arrCmd 3 0) ∧
    Starts (commanded (arrCmd 4 0)) 0 2 4 (arrCmd 4 0) ∧ Starts (commanded (arrCmd 5 0)) 0 2 5 (arrCmd 5 0) ∧
    (arrCmd 5 0).knots.kg.toNat ≤ 6 ∧ Starts (commanded (scatterable 1)) 0 3 1 (scatterable 1) ∧
    Starts (commanded (scatterable 2)) 0 3 2 (scatterable 2) ∧ tN (arrCmd 3 0).tmpl = 2 ∧ tSsp (arrCmd 3 0).tmpl = 0 :=
  ⟨starts_of (by decide +kernel), by decide +kernel, by decide +kernel, by decide +kernel, by decide +kernel, by decide +kernel,
    starts_of (by decide +kernel), starts_of (by decide +kernel), starts_of (by decide +kernel), starts_of (by decide +kernel), starts_of (by decide +kernel),
    starts_of (by decide +kernel), by decide +kernel, starts_of (by decide +kernel), starts_of (by decide +kernel), by decide +kernel,
    by decide +kernel⟩

theorem witness_drains_write : Starts (commanded (arrCmd 6 (2 ^ 11))) 0 2 6 (arrCmd 6 (2 ^ 11)) ∧ tAcc (arrCmd 6 (2 ^ 11)).tmpl = true ∧
    tSel (arrCmd 6 (2 ^ 11)).tmpl = false ∧ tDsp (arrCmd 6 0).tmpl = 0 ∧ tSc (arrCmd 6 0).tmpl = false ∧ tAcc (arrCmd 6 0).tmpl = false ∧
    Starts (commanded (arrCmd 6 (2 ^ 11 + 2 ^ 42))) 0 2 6 (arrCmd 6 (2 ^ 11 + 2 ^ 42)) ∧ tSel (arrCmd 6 (2 ^ 11 + 2 ^ 42)).tmpl = true ∧
    Starts (commanded (arrCmd 6 0)) 0 2 6 (arrCmd 6 0) ∧
    (∀ i < tN (arrCmd 6 0).tmpl, 0 ≤ dstRowPlace (begun (commanded (arrCmd 6 0)) (arrCmd 6 0)) i) ∧
    (∀ i < tN (arrCmd 6 0).tmpl, ∀ j < i,
      dstRowPlace (begun (commanded (arrCmd 6 0)) (arrCmd 6 0)) i + dstRowBytes (arrCmd 6 0).tmpl ≤
        dstRowPlace (begun (commanded (arrCmd 6 0)) (arrCmd 6 0)) j ∨
      dstRowPlace (begun (commanded (arrCmd 6 0)) (arrCmd 6 0)) j + dstRowBytes (arrCmd 6 0).tmpl ≤
        dstRowPlace (begun (commanded (arrCmd 6 0)) (arrCmd 6 0)) i) :=
  ⟨starts_of (by decide +kernel), by decide +kernel, by decide +kernel, by decide +kernel, by decide +kernel, by decide +kernel,
    starts_of (by decide +kernel), by decide +kernel, starts_of (by decide +kernel), by decide +kernel, by decide +kernel⟩

/-- An ARR.DRAIN to the scatter engine, and an ARR.ROWOUT that has run. -/
def drainScatter : Cmd := { arrCmd 6 0 with tmpl := (arrCmd 6 0).tmpl ||| 2 ^ (64 * 11 + 31) }

def rowout : Cmd := { arrCmd 7 0 with state := .done, startAt := 95 }

theorem witness_drains_scatter : Starts (commanded drainScatter) 0 2 6 drainScatter ∧ tSc drainScatter.tmpl = true ∧
    tCbase drainScatter.tmpl + tN drainScatter.tmpl * dstRowBytes drainScatter.tmpl ≤ spkSize ∧
    findCmd (commanded rowout) 0 = some rowout ∧ retireReady (commanded rowout) rowout = true ∧ isArr rowout.tmpl 7 = true :=
  ⟨starts_of (by decide +kernel), by decide +kernel, by decide +kernel, by decide +kernel, by decide +kernel, by decide +kernel⟩

/-- A COPYF of two rows to ring 0 that has landed, its follow-on an array command. -/
def copyfCmd : Cmd :=
  { copyCmd with tmpl := copyCmd.tmpl ||| 3 * 2 ^ (64 * 11 + 2), state := .done, follow := some (arrCmd 3 0).tmpl, rowsOut := 2 }

theorem witness_follow_on : copyLanded (commanded copyfCmd) copyfCmd = true ∧ followTail copyfCmd = true ∧
    followRoom (commanded copyfCmd) copyfCmd = true ∧ followReady (commanded { copyfCmd with followDone := true })
      { copyfCmd with followDone := true } = false := by decide +kernel

/-- A sealed scatter command with a window of three elements for two words. -/
def scatterCmd : Cmd :=
  { copyCmd with eng := 3, tmpl := BitVec.ofNat 1024 (3 + 2 ^ 4 + 2 ^ 320), state := .done, windows := [[(64, 5), (68, 7), (64, 6)]] }

theorem witness_scatter : findCmd (commanded scatterCmd) scatterCmd.id = some scatterCmd ∧ windowReady (commanded scatterCmd) scatterCmd.id = true ∧
    scatterCmd.windows = [(64, 5), (68, 7), (64, 6)] :: [] ∧
    (∀ e ∈ [((64 : Nat), (5 : BitVec 32)), (68, 7), (64, 6)], ∀ f ∈ [((64 : Nat), (5 : BitVec 32)), (68, 7), (64, 6)], e.1 % 4 = f.1 % 4) ∧
    windowValue scatterCmd.tmpl [(64, 5), (68, 7), (64, 6)] 68 = some 7 ∧ windowReady (commanded { scatterCmd with state := .queued }) 0 = false ∧
    Unlogged (commanded scatterCmd) scatterCmd.ctx ∧ memWf (commanded scatterCmd).pkg.mem = true := by decide +kernel

/-! ### The cluster -/

/-- Group 3 with this thread as a member; barrier 5 bound to it; flag 7 at 9. -/
def grouped : State :=
  withS (withCluster (turnOf .C) (fun c => { c with groups := [(3, 1)], flags := [(7, 9)] })) [(1, 3), (2, 5), (3, 256), (4, 7), (5, 9), (6, 10)]

theorem witness_groups : 256 ≤ numOf grouped 3 ∧ numOf grouped 1 < 256 ∧ isMemberOf grouped 0 (maskOf grouped 1) = true ∧
    isMemberOf grouped 0 (maskOf grouped 2) = false := by decide +kernel

theorem witness_barriers : barrDecide grouped 0 (visS (me grouped) 1) (visS (me grouped) 2) = .arrive 3 5 0 0x10100 ∧
    (∃ x, barrDecide grouped 0 (visS (me grouped) 2) (visS (me grouped) 2) = .done x) ∧ FlipReady grouped ∧ 64 ≤ numOf grouped 3 ∧
    mustWait grouped 0 5 1 = false ∧ numOf grouped 2 < 64 ∧ ¬FlipReady (withPending grouped) := by
  refine ⟨by decide +kernel, ⟨(match barrDecide grouped 0 (visS (me grouped) 2) (visS (me grouped) 2) with | .done x => x | _ => 0), ?_⟩, ?_⟩ <;>
    decide +kernel

/-- The thread has arrived for both phases of barrier 5, and waits for the first. -/
def arrived : State :=
  withCluster grouped (fun c => { c with groups := [(3, 3)], barriers := [(5, ⟨true, 3, 0, 3, 1, 1, [⟨0, 0, none⟩]⟩)] })

theorem witness_barrier_waits : barrDecide arrived 0 (visS (me arrived) 1) (visS (me arrived) 2) = .stall ∧ mustWait arrived 0 5 0 = true ∧
    unsealed arrived.core 99 = false ∧ (me (withWait arrived ⟨.barw, 99, [5, 1], 7, 0, 90, 0⟩)).wait = some ⟨.barw, 99, [5, 1], 7, 0, 90, 0⟩ ∧
    mustWait grouped 0 ([5, 1].getD 0 0) (BitVec.ofNat 32 ([5, 1].getD 1 0)) = false := by decide +kernel

/-- A launch record at 0x1000 for the first node of graph 0, of which there is one; the queue empty, or full. -/
def launching (n reserve : Nat) : State :=
  withCluster (withCtx (withSlot (withS (withSpad (turnOf .C) 0x1000 (leBytes 32 0)) [(1, 0x1000), (2, 0x1004)])
    (fun x => { x with thread := { x.thread with reserve := reserve } })) (fun c => { c with graphs := [(0, ⟨0x100000, 1⟩)] }))
    (fun c => { c with queue := List.replicate n ⟨0, 0, 0, 0, 0, 0, false, none, 0⟩ })

theorem witness_launches : numOf (launching 0 0) 2 % 32 ≠ 0 ∧ numOf (launching 0 0) 1 % 32 = 0 ∧
    isOk (spadLoadAddr (slotAt (launching 0 0) (hereOf (launching 0 0))) 0x1000 32) 0x1000 = true ∧
    spadPoison (launching 0 0) 0x1000 32 = none ∧ recReserved (recordOf (launching 0 0) 0x1000 3) = false ∧
    nodeKnown (threadCtx (launching 0 0) 0) (recordOf (launching 0 0) 0x1000 0) = true ∧ 0 < entriesFree (launching 0 0) := by
  decide +kernel

theorem witness_launches_fenced : spadFenced (withSlot (launching 0 0) (fun x => { x with fences := [⟨1, true, [1], [], [], 1⟩] })) 0 = true ∧
    spadFenced (launching 0 0) 0 = false := by decide +kernel

theorem witness_launches_full : entriesFree (launching 256 1) = 0 ∧ 0 < reserveLeft (launching 256 1) 0 ∧
    reserveLeft (launching 256 0) 0 = 0 ∧ nodeKnown (threadCtx (turnOf .C) 0) 0 = false ∧ recReserved (2 ^ 63) = true ∧
    readyWaits (launching 1 0) 0 = true ∧ readyWaits (turnOf .C) 0 = false := by decide +kernel

theorem witness_flags : targetOk grouped 0 (visS (me grouped) 4) = true ∧ targetOk grouped 0 0xFFFFFFFFFFFFFFFF = false ∧
    (flagOf grouped.cluster 7 - (visS (me grouped) 5).setWidth 32).toNat < 2 ^ 31 ∧
    2 ^ 31 ≤ (flagOf grouped.cluster 7 - (visS (me grouped) 6).setWidth 32).toNat ∧
    eventWindow (threadCtx grouped 0) 1 &&& 0 = 0 ∧ eventWindow (threadCtx grouped 0) 1 &&& 9 ≠ 9 := by decide +kernel

/-- A member of stage `st` of pipeline 2 of two stages, its queue holding these items. -/
def piped (st : Nat) (xs : List Word) : State :=
  withCluster (withCtx (withSlot (turnOf .C) (fun x => { x with thread := { x.thread with stage := BitVec.ofNat 16 (0x120 + st) } }))
    (fun c => { c with pipes := [(2, ⟨[0, 1], [1], 0, 2, 2⟩)] })) (fun c => { c with ctx := some 0, pipes := [(16, ⟨xs, []⟩)] })

theorem witness_pipelines : pipeAt (turnOf .C) 0 = none ∧ pipeAt (piped 0 []) 0 = some (2, 0, ⟨[0, 1], [1], 0, 2, 2⟩) ∧
    pipeRoom (piped 0 []) 2 0 ⟨[0, 1], [1], 0, 2, 2⟩ = true ∧ pipeRoom (piped 0 [5]) 2 0 ⟨[0, 1], [1], 0, 2, 2⟩ = false ∧
    pipeAt (piped 1 [5]) 0 = some (2, 0 + 1, ⟨[0, 1], [1], 0, 2, 2⟩) ∧ (getPipe (piped 1 [5]).cluster 2 0).items = 5 :: [] ∧
    inputClosed (piped 1 []) (threadCtx (piped 1 []) 0) ⟨[0, 1], [1], 0, 2, 2⟩ 2 1 = false := by decide +kernel

/-- A member that has popped an item it still holds. -/
theorem witness_pipeline_retained : retainedItems { piped 1 [5] with core := { (piped 1 [5]).core with
      held := [⟨9, 0, 1, [], .deq 2 0 4⟩] } } 2 0 = 1 ∧ retainedItems (piped 1 [5]) 2 0 < ([1] : List Nat).getD 0 1 := by decide +kernel

theorem witness_pipeline_closed : inputClosed (withCtx (piped 1 []) (fun c => { c with events := 4 }))
    (threadCtx (withCtx (piped 1 []) (fun c => { c with events := 4 })) 0) ⟨[0, 1], [1], 0, 2, 2⟩ 2 1 = true ∧
    Room (piped 1 []) [⟨.s 5, 0, 2⟩, ⟨.p 3, 0, 2⟩] := by decide +kernel

/-! ### Device memory and the fabric -/

/-- Voice A with s1 at virtual 0x2000, which is mapped, and s2 at an address that is not. -/
def devState : State := withS (placed .A 0) [(1, 0x2000), (2, 0x8000000000)]

/-- The part of an access of eight bytes there. -/
def devPart (n : Nat) : Part := ⟨0x2000, 0x2000, n, 0x1BF⟩

theorem witness_dev_loads : MayIssue devState 0 0 .a ∧ memAddr (me devState) 1 1 1 8 = 0x2000 ∧
    (translate devState (ctxOf devState) (slotAt devState (hereOf devState)).thread.smode .read 0x2000 8).2 = .ok [devPart 8] ∧
    kindsDiffer false [devPart 8] = false ∧ (partsOrdered [devPart 8] && acquirePending devState 0) = false ∧
    loadFenced devState 0 [devPart 8] = false ∧ landingState devState 0 (landKey devState 0) ≠ 1 ∧
    Room devState (postWrite (me devState) 1 1 1 8) := by decide +kernel

theorem witness_dev_goes : ∃ u, DevGoes devState .read 0x2000 8 false [devPart 8] u :=
  ⟨(translate devState (ctxOf devState) (slotAt devState (hereOf devState)).thread.smode .read 0x2000 8).1,
    ⟨Prod.ext rfl (by decide +kernel), by decide +kernel, by decide +kernel, by decide +kernel, by decide +kernel, by decide +kernel⟩⟩

theorem witness_dev_stores : ∃ u, DevGoes devState .write 0x2000 8 false [devPart 8] u :=
  ⟨(translate devState (ctxOf devState) (slotAt devState (hereOf devState)).thread.smode .write 0x2000 8).1,
    ⟨Prod.ext rfl (by decide +kernel), by decide +kernel, by decide +kernel, by decide +kernel, by decide +kernel, by decide +kernel⟩⟩

theorem witness_dev_traps : (translate devState (ctxOf devState) true .read 0x8000000000 8).2 = .trap 0x09 0x8000000000 ∧
    (ctxOf devState).trace = none ∧
    landingState (withCtl devState (fun c => setLanding c 0 (.xfer 5 1))) 0 (landKey devState 0) = 1 := by decide +kernel

/-- Voice A behind its LDA; behind a fence over device memory; with a full hold-back buffer. -/
def acquiring : State :=
  withSlot devState (fun x => { x with xfers := [⟨9, .A, 0, 8, none, [(0x2000, 8)], 0x2000, 8, 1, 0, 0, true, false, none, 1, []⟩] })

def devFenced : State := withSlot acquiring (fun x => { x with fences := [⟨0x1F, true, [], [9], [], 1⟩] })

def devFull : State :=
  { devState with core := { devState.core with
      held := (List.range 128).map (fun n => ⟨n, 0, 1, [], .store false (64 * n) [0] 1 false 0 0 0⟩) } }

/-- Two pages of different kinds, and a context that publishes the page. -/
theorem witness_dev_stalls : acquirePending acquiring 0 = true ∧ partsOrdered [devPart 8] = true ∧ loadFenced devFenced 0 [devPart 8] = true ∧
    storeRoom devFull (hereOf devFull) (partSpans [devPart 8]) = false ∧ storeRoom devState (hereOf devState) (partSpans [devPart 8]) = true ∧
    storeRoom devFull (hereOf devFull) [(0x8000000000, 8)] = false ∧ storeRoom devState (hereOf devState) [(0x8000000000, 8)] = true ∧
    kindsDiffer false [devPart 4, { devPart 4 with va := 0x10000, leaf := 0x0BF }] = true ∧
    publishedPart { ctxOf devState with pubmap := [(3, ⟨0, 1, false, true, 0, 0⟩)] } [{ devPart 8 with va := 0 }] ≠ none := by decide +kernel

theorem witness_dev_queues : ∃ u, DevGoes devState .read 0x2000 (footprint 0 0) true [devPart 128] u ∧
    pageFormat devState 0 (memAddr (me devState) 1 0 0 128) = (0, 0) ∧ tryPush devState 0 3 = .room ∧
    queueBound devState (hereOf devState) 3 = false :=
  ⟨(translate devState (ctxOf devState) (slotAt devState (hereOf devState)).thread.smode .read 0x2000 (footprint 0 0)).1,
    ⟨Prod.ext rfl (by decide +kernel), by decide +kernel, by decide +kernel, by decide +kernel, by decide +kernel, by decide +kernel⟩,
    by decide +kernel, by decide +kernel, by decide +kernel⟩

/-- Store queue 0 holds an entry. -/
def devQueued : State :=
  withSlot (withCtl devState (fun c => { c with queues := [(4, [⟨7, 1, []⟩])] })) (fun x => { x with qvals := [(7, ⟨0x55, none⟩)] })

theorem witness_dev_queue_more : tryPush (withCtl devState (fun c => { c with queues := [(3, List.replicate 16 ⟨7, 1, []⟩)] })) 0 3 = .full ∧
    tryPush (withSlot devState (fun x => { x with vX0 := { x.vX0 with a := { x.vX0.a with exited := true } }
                                                  vX1 := { x.vX1 with a := { x.vX1.a with exited := true } } })) 0 3 = .drop ∧
    tryPop devState 0 4 = .wait ∧
    tryPop (withSlot devState (fun x => { x with vX0 := { x.vX0 with a := { x.vX0.a with exited := true } } })) 0 4 = .trap 0x0D := by
  decide +kernel

theorem witness_dev_queue_stores : tryPop devQueued 0 4 = .ready ⟨7, 1, []⟩ ⟨0x55, none⟩ ∧
    ∃ u, DevGoes devQueued .write 0x2000 (footprint 0 0) true [devPart 128] u :=
  ⟨by decide +kernel, (translate devQueued (ctxOf devQueued) (slotAt devQueued (hereOf devQueued)).thread.smode .write 0x2000 (footprint 0 0)).1,
    ⟨Prod.ext rfl (by decide +kernel), by decide +kernel, by decide +kernel, by decide +kernel, by decide +kernel, by decide +kernel⟩⟩

theorem witness_fences : MayIssue (turnOf .A) 0 0 .ac ∧ MayIssue (turnOf .C) 0 0 .ac ∧ scopeValid (turnOf .A) 0 3 = false ∧
    acquirePending (turnOf .A) 0 = false ∧ FlipReady (turnOf .A) ∧ MayIssuePriv (turnOf .C) 0 0 .c ∧
    (mget ⟨0, 0, false, false, 0, 0⟩ (ctxOf (withCtx (turnOf .C) (fun c => { c with pubmap := [(63, ⟨0, 1, false, true, 0, 0⟩)] }))).pubmap 63).valid = true ∧
    (mget ⟨0, 0, false, false, 0, 0⟩ (ctxOf (turnOf .C)).pubmap 63).valid = false := by decide +kernel

/-- An invalidation that is not acknowledged. -/
theorem witness_tlbsync_waits : 7 ∈ invalsOpen (withPkg (turnOf .C) (fun p => { p with
    invals := [⟨7, 0, 0, 0x10000, 0, false, 0, [], [], [], [], false⟩] })) 0 ∧ acquirePending acquiring 0 = true ∧
    (hereOf acquiring).v = .A := by decide +kernel

theorem witness_waits : Takes (turnOf .C) 0 0 .c true ∧ unsealed (turnOf .C).core 99 = false ∧ unsealed (turnOf .C).core 1 = true ∧
    (∀ i ∈ [7], i ∉ invalsOpen (turnOf .C) 0) ∧ (me (withWait (turnOf .C) ⟨.tlbsync, 99, [7], 5, 1, 90, 0⟩)).wait = some ⟨.tlbsync, 99, [7], 5, 1, 90, 0⟩ ∧
    findFirst (fun (r : Request) => [7].contains r.id) (withPkg (turnOf .C) (fun p => { p with requests := [⟨7, some 0⟩] })).pkg.requests =
      some ⟨7, some 0⟩ ∧ nwrsOpen (turnOf .C) 0 = false ∧ Room (turnOf .C) [⟨.s 5, 0, 2⟩] := by decide +kernel

/-- A job over nodes 0 and 5 with group 2, of which this context is a member, in a package of extent 8. -/
def aJob : Job :=
  { Job.none 3 with ctx := some 0, windows := [(0, ⟨0, 1, true, true⟩)], groups := [(2, ⟨true, [0, 5], 0, 0, 0, 0⟩)] }

def jobbed (s : State) (f : Job → Job) : State :=
  withCtx (withPkg s (fun p => { p with jobs := [(0, f aJob)], extentX := 8 })) (fun c => { c with job := some 0 })

theorem witness_remote : netOk (jobbed (turnOf .C) id) 0 (BitVec.ofNat 64 (5 * 2 ^ 43 + 8)) 3 = true ∧
    netOk (jobbed (turnOf .C) id) 0 (BitVec.ofNat 64 (9 * 2 ^ 43)) 3 = false ∧ netOk (jobbed (turnOf .C) id) 0 1 3 = false ∧
    netOk (jobbed (turnOf .C) id) 0 (BitVec.ofNat 64 (5 * 2 ^ 43 + 128)) 4 = true ∧
    landingState (turnOf .C) 0 8 ≠ 1 ∧ landingState (withCtl (turnOf .C) (fun c => setLanding c 8 (.xfer 5 1))) 0 8 = 1 := by decide +kernel

/-- A complete instance that request 7 waits for. -/
def anInstance (f : Bool) : Instance := ⟨2, false, 0, false, [(0, 1)], f, 0, 2, 77, [7], 0, false⟩

theorem witness_collectives : groupWordOk (jobbed (turnOf .C) id) 0 0x102 true = true ∧
    groupWordOk (jobbed (turnOf .C) id) 0 0x102 false = false ∧ groupWordOk (jobbed (turnOf .C) id) 0 2 false = true ∧
    instanceFor (jobbed (turnOf .C) (fun j => { j with instances := [anInstance true] })) 0 [7] = some (anInstance true) ∧
    (ctxOf (turnOf .C)).credits ≠ 0 := by decide +kernel

/-! ### Events of the core -/

/-- A stopped thread whose context has a trap area at 0x20000 and a handler at 0x400, or none. -/
def stoppedAt (h : Option Word) : State :=
  withCtx (withSlot (placed .A 0) (fun x => { x with
      run := .stopping, stop := some ⟨0x0B, some .A, false, 0x40, 0, 5, 90, false, [], []⟩ }))
    (fun c => { c with trapArea := some 0x20000, handler := h })

theorem witness_trap_entry : (getSlot (stoppedAt (some 0x400)) 0).stop = some ⟨0x0B, some .A, false, 0x40, 0, 5, 90, false, [], []⟩ ∧
    entryReady (stoppedAt (some 0x400)) ⟨0x0B, some .A, false, 0x40, 0, 5, 90, false, [], []⟩ = true ∧ clockRuns (stoppedAt none) = true ∧
    recordAddr (stoppedAt (some 0x400)) 0 false = some 0x20000 ∧ (threadCtx (stoppedAt (some 0x400)) 0).handler = some 0x400 ∧
    (threadCtx (stoppedAt none) 0).handler = none ∧ facesCanonical (getArch (stoppedAt none) 0 .A) = true ∧
    (spanParts (stoppedAt none) (threadCtx (stoppedAt none) 0) true .write 0x20000 3 recordSize).toOption.isSome = true := by decide +kernel

/-- The record's first line is reported as failed. -/
theorem witness_record_fails : failedLine (withPkg (stoppedAt none) (fun p => { p with failing := [0x800] }))
    [⟨0x20000, 0x20000, recordSize, 0⟩] = some 0x20000 ∧
    (match recordSpan (withPkg (stoppedAt none) (fun p => { p with failing := [0x800] })) 0 false with | .error _ => true | _ => false) = true ∧
    (match recordSpan (stoppedAt none) 0 false with | .ok _ => true | _ => false) = true ∧
    entryReady (withSlot { stoppedAt none with core := { (stoppedAt none).core with
      clauses := [⟨7, 0, .A, some 90, [], VoiceArch.fresh 0, false⟩] } } (fun x => { x with
        stop := some ⟨0x0B, some .A, false, 0x40, 0, 5, 90, false, [7], [7]⟩ })) ⟨0x0B, some .A, false, 0x40, 0, 5, 90, false, [7], [7]⟩ = false := by
  decide +kernel

theorem witness_trap_entry_lost : recordAddr (withCtx (stoppedAt none) (fun c => { c with trapArea := none })) 0 false = none ∧
    (getSlot (turnOf .A) 0).stop = none := by decide +kernel

/-- The record lies in its parts. -/
theorem witness_record_parts : ∀ q ∈ recordPieces (stoppedAt none) 0 ⟨0x0B, some .A, false, 0x40, 0, 5, 90, false, [], []⟩,
    0x20000 ≤ 0x20000 + q.1 ∧ q.1 + q.2.1 ≤ recordSize := by decide +kernel

theorem witness_signals : (getSlot State.reset 0).run = .empty ∧ (turnOf .A).core.rollAt = none ∧ (getSlot (turnOf .A) 0).run = .running ∧
    (getSlot (stoppedAt none) 0).run = .stopping ∧ preemptPending (turnOf .A) 0 = false ∧ preemptPending (turnOf .A) 1 = false ∧
    ({ turnOf .A with core := { (turnOf .A).core with rollAt := some 98 } } : State).core.rollAt.isSome = true ∧
    clockRuns (turnOf .A) = true ∧ (getSlot (withSlot (turnOf .A) (fun x => { x with run := .preempted, vA := { x.vA with
      a := { x.vA.a with handler := true } } })) 0).vA.a.handler = true := by decide +kernel

/-- A thread stopped for its save, and one whose time slice is over, with a rival in the queue or without. -/
def preempted : State := withSlot { turnOf .A with core := { (turnOf .A).core with clauses := [] } } (fun x => { x with run := .preempted })

def sliced (rival : Bool) (issued : Bool) : State :=
  withCluster (withCtx (withSlot { turnOf .A with now := 13000100 } (fun x => { x with thread := { x.thread with sliceIssued := issued } })) id)
    (fun c => { c with queue := if rival then [⟨0, 0, 0, 0, 0, 0, false, none, 0⟩] else [] })

theorem witness_saves : readyToSave preempted 0 = true ∧ (getSlot preempted 1).run ≠ .preempted ∧ preempted.cluster.switching = none ∧
    sliceOver (turnOf .A) 0 = false ∧ sliceOver (sliced true true) 0 = true ∧ rivalWaits (sliced true true) 0 = true ∧
    rivalWaits (sliced false true) 0 = false ∧ (getSlot (sliced false false) 0).thread.sliceIssued = false ∧
    saveWaits preempted 1 = false ∧ clockRuns preempted = true ∧ saveDue (turnOf .A) = false ∧
    saveWaits (withSlot (turnOf .A) (fun x => { x with pendPreempt := true })) 0 = true := by decide +kernel

/-- An invalidation that a held store has kept waiting. -/
def heldBack : State :=
  withPkg { turnOf .A with
      now := 70000, core := { (turnOf .A).core with held := [⟨5, 0, 1, [], .store true 0x2000 [1] 1 false 0 0x2000 0⟩] } }
    (fun p => { p with invals := [⟨9, 0, 0, 0x10000, 0, false, 0, [5], [], [], [], false⟩] })

theorem witness_held_back : holdsTooLong heldBack 0 = true ∧ holdsTooLong (turnOf .A) 0 = false := by decide +kernel

/-- A thread that has ended, and one that is dead. -/
def ended (r : RunState) (m : List Cmd) : State :=
  withSlot { turnOf .A with core := { (turnOf .A).core with clauses := [], cmds := m } } (fun x => { x with run := r })

theorem witness_ends_sealed : slotSealed (ended .ended []) 0 = true ∧ clusterOut (ended .dead []) 0 = false ∧
    slotSealed { ended .ended [] with core := { (ended .ended []).core with out := [⟨5, 0, 1, 0, 0, 0, [], .join 3⟩] } } 0 = false := by
  decide +kernel

theorem witness_ends : slotClosed (ended .ended []) 0 = [] ∧ cmdsDone (ended .ended []) 0 = true ∧ (getSlot (ended .ended []) 0).breakAt = none ∧
    Unlogged (ended .ended []) 0 ∧ cmdsDone (ended .ended [copyCmd]) 0 = false ∧ (getSlot (ended .dead []) 0).stop = none ∧
    finalDead (withSlot (ended .dead []) (fun x => { x with stop := (getSlot (stoppedAt none) 0).stop }))
      (getSlot (withSlot (ended .dead []) (fun x => { x with stop := (getSlot (stoppedAt none) 0).stop })) 0) = true := by decide +kernel

/-- An entry of load queue 0 that a word fills, or an LDGQ; a landing slot that an LDG fills. -/
def awaiting (val : Option Row) (remote : Bool) : State :=
  withSlot (withCtl (turnOf .A) (fun c => { c with queues := [(0, [⟨7, 1, []⟩, ⟨8, 1, []⟩])], landing := [(0, .xfer 9 1)] })) (fun x => { x with
    fills := [⟨7, 0, 5, 100⟩]
    xfers := [⟨8, .A, 0, 0, val, [(0x3000, 128)], 0x3000, 128, 1, 0, 0, false, false, none, 1, []⟩,
      ⟨9, .A, 0, 8, val, [(0x2000, 8)], 0x2000, 8, 1, 0, 0, false, remote, none, 1, []⟩] })

theorem witness_arrivals : (getQueue (getCtl (awaiting none false) 0) 0)[0]? = some ⟨7, 1, []⟩ ∧ (getQueue (getCtl (awaiting none false) 0) 0)[1]? = some ⟨8, 1, []⟩ ∧
    findFirst (fun f => decide (f.id = 7)) (getSlot (awaiting none false) 0).fills = some ⟨7, 0, 5, 100⟩ ∧
    findFirst (fun f => decide (f.id = 8)) (getSlot (awaiting none false) 0).fills = none ∧
    (findFirst (fun y => decide (y.id = 8)) (getSlot (awaiting (some 3) false) 0).xfers).isSome = true ∧
    (landingXfer (awaiting none false) 0 0).isSome = true ∧ (landingXfer (awaiting none true) 0 0).isSome = true ∧
    (∀ y ∈ (getSlot (awaiting none false) 0).xfers, loadWaits (awaiting none false) 0 y = false) := by decide +kernel

/-- Every voice waits, voice C on a yielding wait. -/
def allWaiting : State :=
  withSlot (turnOf .C) (fun x => { x with
    vA := { x.vA with mark := .stalled }, vX0 := { x.vX0 with mark := .stalled }, vX1 := { x.vX1 with mark := .stalled }
    vC := { x.vC with mark := .yielding } })

theorem witness_slot_yield : allWait allWaiting = true ∧ ({ allWaiting with otherGo := true } : State).otherGo = true ∧
    (∀ v, (getVoice allWaiting allWaiting.core.act v).mark ≠ .issued) ∧ voicePresents allWaiting allWaiting.core.act .C = true ∧
    after (exec .slotYield { allWaiting with otherGo := true }) (fun t => decide (t.core.act = 1)) = true ∧
    after (exec .slotYield allWaiting) (fun t => decide (t.core.act = 0)) = true := by
  refine ⟨by decide +kernel, rfl, fun v => ?_, by decide +kernel, by decide +kernel, by decide +kernel⟩
  cases v <;> decide +kernel

theorem witness_due_result : (getArch (withPending { turnOf .A with now := 110 }) 0 .A).pending[0]? = some ⟨.s 9, 5, 110, 99⟩ ∧
    110 ≤ (withPending { turnOf .A with now := 110 }).now := by decide +kernel

/-- A closed clause with a store to core scratchpad, and an open one. -/
def sealing : State :=
  { turnOf .A with
    core := { (turnOf .A).core with
      clauses := [⟨1, 0, .A, some 10, [], VoiceArch.fresh 0, false⟩, ⟨2, 0, .X0, none, [], VoiceArch.fresh 0, false⟩]
      held := [⟨5, 0, 1, [], .store false 0x100 [7] 1 false 0 0 0⟩] } }

theorem witness_seals : (sealSet sealing).contains 1 = true ∧ sealing.core.clauses.any (fun c => decide (c.id = 1) && decide (c.slot = 0)) = true ∧
    sealing.core.freeze = none ∧ sealing.core.fenced = false ∧ depClosure sealing.core (sealSet sealing) (sealSet sealing).length [1] = [1] ∧
    (sealing.core.clauses.filter (fun c => decide (c.id = 1))).length = 1 ∧ sealing.core.out = [] ∧ (sealSet sealing).contains 2 = false := by
  decide +kernel

/-- A store that seals, its bytes to device memory; a poisoned entry of the buffer. -/
theorem witness_seals_more : badEntry { sealing with core := { sealing.core with badRows := [(8, 5)] } } [1] = some (0, 0x100, 0) ∧
    badEntry sealing [1] = none ∧ (sealSet { sealing with core := { sealing.core with
      held := [⟨5, 0, 1, [], .store true 0x2000 [7] 1 false 0 0x2000 0⟩] } }).contains 1 = true := by decide +kernel

/-- A command that ran without undo data, and one under a sealed clause; a region of a line of another store. -/
theorem witness_engine_reports : withoutUndo (commanded { copyCmd with state := .running, noUndo := true, startAt := 95 }) ≠ [] ∧
    ranSealed (commanded { copyCmd with state := .done, startAt := 95 }) ≠ [] ∧ withoutUndo (turnOf .A) = [] ∧ ranSealed (turnOf .A) = [] ∧
    offCore 4 = true ∧ offCore 0 = false ∧ offCore 1 = false ∧ offCore 3 = false := by decide +kernel

theorem witness_reports : (getSlot (turnOf .A) 0).injectAt = [] ∧ (turnOf .A).core.fenced = false ∧ (turnOf .A).core.freeze = none ∧
    (getSlot (turnOf .A) 0).rollcnt.toNat < 2 ^ 32 - 1 ∧ 84 + 16 ≤ (turnOf .A).now ∧ (turnOf .A).now < 85 + 16 ∧ powered (turnOf .A) = true := by
  decide +kernel

/-! ### Events of the memory and the scheduler -/

/-- A released store to device memory, as a release or not, and a released publish. -/
def released (rel : Bool) : State :=
  withCtx { turnOf .A with
      core := { (turnOf .A).core with
        clauses := [], out := [⟨5, 0, 1, 0, 0, 0, [], .store true 0x2000 [1, 2] 1 rel 0 0x2000 0⟩, ⟨6, 0, 1, 0, 0, 0, [], .pubg 3⟩] } }
    (fun c => { c with pubmap := [(3, ⟨0, 1, false, true, 0, 0⟩)] })

theorem witness_released : (findItem (released true) 5).isSome = true ∧
    (∀ o, findItem (released true) 5 = some o → mayPerform (released true) o = true) ∧
    nextAuto (performItem (released true) ⟨5, 0, 1, 0, 0, 0, [], .store true 0x2000 [1, 2] 1 true 0 0x2000 0⟩) = none ∧
    memWf (released true).pkg.mem = true ∧ findItem (released true) 99 = none ∧
    mfind (getCtx (released false) 0).pubmap 3 = some ⟨0, 1, false, true, 0, 0⟩ ∧
    pubgReady { released false with core := { (released false).core with out := [⟨6, 0, 1, 0, 0, 0, [], .pubg 3⟩] } } ⟨6, 0, 1, 0, 0, 0, [], .pubg 3⟩ = true := by
  refine ⟨by decide +kernel, ?_, by decide +kernel, by decide +kernel, by decide +kernel, by decide +kernel, by decide +kernel⟩
  intro o h
  have : o = ⟨5, 0, 1, 0, 0, 0, [], .store true 0x2000 [1, 2] 1 true 0 0x2000 0⟩ := by
    have h2 : findItem (released true) 5 = some ⟨5, 0, 1, 0, 0, 0, [], .store true 0x2000 [1, 2] 1 true 0 0x2000 0⟩ := by decide +kernel
    rw [h2] at h
    exact (Option.some.inj h).symm
  rw [this]
  decide +kernel

theorem witness_walks : findFirst (fun w => decide (w.id = 4)) [(⟨4, 0, 0x2000⟩ : Walk)] = some ⟨4, 0, 0x2000⟩ ∧
    (match walk (placed .A 0) (getCtx (placed .A 0) 0) 0x2000 with | .leaf _ _ _ _ => true | _ => false) = true ∧
    drained heldBack ⟨9, 0, 0, 0x10000, 0, false, 0, [5], [], [], [], false⟩ = false ∧
    drained (turnOf .A) ⟨9, 0, 0, 0x10000, 0, false, 0, [5], [], [], [], false⟩ = true := by decide +kernel

/-- Every byte of the record lies in a part that covers the trap area. -/
theorem witness_record_in_parts : ∀ q ∈ recordPieces (stoppedAt none) 0 ⟨0x0B, some .A, false, 0x40, 0, 5, 90, false, [], []⟩, ∀ i < q.2.1,
    ∃ p ∈ [(⟨0x20000, 0x20000, recordSize, 0⟩ : Part)], p.va ≤ 0x20000 + q.1 + i ∧ 0x20000 + q.1 + i < p.va + p.len := by
  intro q hq i hi
  refine ⟨_, List.mem_singleton.2 rfl, ?_⟩
  have h := witness_record_parts q hq
  simp only
  omega

/-- Voice A in a delay slot. -/
def slotted : State := withArch (turnOf .A) (fun r => { r with dslots := 1 })

theorem witness_false_and_slotted : Takes (turnOf .A) 0 0 .all false ∧ Plain (turnOf .A) ∧ visP (me (turnOf .A)) 1 = false ∧
    (me (turnOf .A)).wait = none ∧ (me (turnOf .A)).dslots = 0 ∧ (getVoice (turnOf .A) 0 .A).second = false ∧
    Takes slotted 0 0 .all false ∧ (me slotted).dslots ≠ 0 ∧ wordClass (.br 0 0 5) = some ⟨0, 0, .all, false⟩ ∧
    placeIll (hereOf (nulled (turnOf .A))) (nulled (turnOf .A)) (.br 0 0 5) = false ∧ Takes (nulled (turnOf .A)) 0 0 .all false ∧
    (hereOf (nulled (turnOf .A))).nul = true := by decide +kernel

/-! ### Events of the scheduler -/

/-- Context 0 has a graph of one node at 0x3000, which wants a window of one unit and one token; its kernel header at 0x4000 sends
the voices to 0x100. Slot 0 keeps one unit. -/
def schedState (qs : List QRec) : State :=
  let s := withCluster (withCtx (withSlot { placed .A 0 with turn := 0 } (fun x => { x with thread := { x.thread with winLen := 1 } }))
    (fun c => { c with graphs := [(0, ⟨0x3000, 1⟩)] })) (fun c => { c with ctx := some 0, queue := qs })
  withPkg s (fun p => { p with
    mem := writeBytes (writeBytes p.mem 0x3000 (dwords [0x4000, 1 + 2 * 2 ^ 32, 50, 0, 0, 0, 0, 0])) 0x4000
      (dwords ([0x100, 0x100, 0x100, 0x104, 1] ++ List.replicate 35 0)) })

/-- A ready record of that node; one that waits for event bit 0. -/
def ready : QRec := ⟨0, 0x77, 0, 0, 0, 0, false, none, 0⟩

def waiting : QRec := ⟨0, 0x77, 0, 1, 0, 0, false, none, 0⟩

def imageOf (x : Started Image) : Image :=
  match x with
  | .ok m => m
  | .bad _ _ => ⟨parseNode [], [], [], []⟩

def readsOk (x : Started Image) : Bool :=
  match x with
  | .ok _ => true
  | .bad _ _ => false

theorem reads_image : readImage (schedState [ready]) (getCtx (schedState [ready]) 0) 0 =
    .ok (imageOf (readImage (schedState [ready]) (getCtx (schedState [ready]) 0) 0)) := by
  have h : readsOk (readImage (schedState [ready]) (getCtx (schedState [ready]) 0) 0) = true := by decide +kernel
  cases e : readImage (schedState [ready]) (getCtx (schedState [ready]) 0) 0 with
  | ok m => rfl
  | bad r a => rw [e] at h; simp [readsOk] at h

theorem witness_placeable : Placeable (schedState [ready]) 1 0 ready
    (imageOf (readImage (schedState [ready]) (getCtx (schedState [ready]) 0) 0)) 1 :=
  ⟨by decide +kernel, by decide +kernel, by decide +kernel, reads_image, by decide +kernel, by decide +kernel, by decide +kernel⟩

/-- Both slots hold a task of no tokens; that of slot 0 may be killed, or has an estimate beyond the drain limit. -/
def crowdedSlots (kill : Bool) (est : Word) : State :=
  let s := schedState [ready]
  { s with core := { s.core with
      slot0 := { s.core.slot0 with thread := { s.core.slot0.thread with killable := kill, estimate := est } }
      slot1 := { placedSlot Slot.empty false 0 with thread := { Thread.none with winBase := 1, winLen := 1 } } } }

theorem witness_displaces : mayDisplace (crowdedSlots false 0) 0 ready = true ∧ duePlacement (crowdedSlots false 0) = none ∧
    remaining (getSlot (crowdedSlots false 0) 0) ≤ (getCtx (crowdedSlots false 0) 0).drainLimit ∧
    (getCtx (crowdedSlots true 0xFFFFFFFFFFFF) 0).drainLimit < remaining (getSlot (crowdedSlots true 0xFFFFFFFFFFFF) 0) ∧
    mayDisplace (crowdedSlots true 0xFFFFFFFFFFFF) 0 ready = true ∧ (getSlot (crowdedSlots true 0) 0).thread.killable = true ∧
    (getSlot (crowdedSlots false 0) 0).thread.killable = false ∧ mayDisplace (schedState [ready]) 0 ready = false := by decide +kernel

/-- The thread of slot 0, as a record that has been saved, waits for slot 1 of a core that is otherwise empty. -/
def savedRec : QRec := { ready with saved := some (saveThread (schedState []) 0) }

def savedState : State := { schedState [savedRec] with core := Core.fresh 0 }

theorem witness_saved : savedState.cluster.queue[0]? = some savedRec ∧ (∃ k, duePlacement savedState = some (0, k)) ∧
    Unlogged savedState 0 ∧ (getCtx savedState 0).trace = none :=
  ⟨by decide +kernel, ⟨0, by decide +kernel⟩, by decide +kernel, by decide +kernel⟩

theorem witness_not_placeable : placeable (schedState [waiting]) 1 waiting = false ∧ runnable (schedState [waiting]) waiting = false ∧
    placeable (schedState [ready]) 0 ready = false ∧ mayPlace (schedState [ready]) = true ∧ runnable (schedState [ready]) ready = true ∧
    promiseOf (schedState [ready]) 0 = none ∧
    displaceable (schedState [ready]) 0 (recTokens (schedState [ready]) ready) = true := by decide +kernel

/-- A pipeline of two stages whose first queue is full, stalled since cycle 0. -/
def pipeStalled (now ovf : Nat) : State :=
  withCluster (withCtx { schedState [] with now := now } (fun c => { c with pipes := [(3, ⟨[0, 0], [2], 0, ovf, 0⟩)] }))
    (fun c => { c with pipes := [(24, ⟨[5, 6], []⟩)], pipeStall := [(3, 0)] })

theorem witness_spill : (pipeStalled 5000 4).cluster.ctx = some 0 ∧
    mfind (getCtx (pipeStalled 5000 4) 0).pipes 3 = some ⟨[0, 0], [2], 0, 4, 0⟩ ∧ spillReady (pipeStalled 5000 4) 3 = true ∧
    spillReady (pipeStalled 4000 4) 3 = false ∧ fullQueues (pipeStalled 5000 4) ⟨[0, 0], [2], 0, 4, 0⟩ 3 = [0] ∧
    overflowUsed (pipeStalled 5000 4) 3 + 1 ≤ 4 ∧ 0 < overflowUsed (pipeStalled 5000 0) 3 + 1 := by decide +kernel

theorem witness_steal : 2 ≤ (stealable (schedState [ready, ready])).length ∧ (schedState [ready, ready]).cluster.lost = false ∧
    (stealable (schedState [ready, ready])).getLast? = some 1 ∧ (schedState [ready, ready]).cluster.queue[1]? = some ready := by
  decide +kernel

/-- A record in transit since cycle 0, and one received. -/
def inTransit (now : Nat) : State :=
  withCluster { schedState [] with now := now } (fun c => { c with transit := [⟨1, 4, ready, 0⟩], stolen := [⟨9, 4, ready, 0⟩] })

theorem witness_transit : findFirst (fun x => decide (x.seq = 9) && decide (x.peer = 4)) (inTransit 0).cluster.stolen = some ⟨9, 4, ready, 0⟩ ∧
    findFirst (fun x => decide (x.seq = 1)) (inTransit 0).cluster.transit = some ⟨1, 4, ready, 0⟩ ∧
    0 + microCycles (inTransit 20800) 16 ≤ (inTransit 20800).now ∧ (inTransit 20799).now < 0 + microCycles (inTransit 20799) 16 ∧
    (∀ q ∈ (schedState [ready]).cluster.queue, q.ctx = 0) := by decide +kernel

/-- A cluster to be switched out after its 20 µs, one whose threads are gone, and one that is switched out with its image at 0x8000. -/
def switchable : State := { schedState [] with now := 30000 }

def emptied : State := withCluster { switchable with core := Core.fresh 0 } (fun c => { c with switching := some [(0x8000, spkBase)] })

def switchedOut : State :=
  match execClusterSwitchOut 0x8000 emptied with
  | .next t => t
  | _ => emptied

theorem witness_switch_out : switchable.cluster.ctx = some 0 ∧ switchable.cluster.switching = none ∧
    switchable.cluster.switchedOut = false ∧ sliceKept switchable = true ∧ emptied.cluster.switching = some [(0x8000, spkBase)] ∧
    presentRange switchable.pkg 0x8000 0x2000 = true ∧ emptied.cluster.ctx = some 0 ∧
    switchReady emptied = true ∧ switchReady (withCluster switchable (fun c => { c with switching := some [(0x8000, spkBase)] })) = false := by
  decide +kernel

theorem witness_cluster_restore : (∃ c, SavedHere switchedOut (physArea switchedOut 0x8000) 0 c ∧ c.parked = false) ∧
    switchedOut.cluster.switchedOut = true ∧ (∀ k ∈ [0, 1], (getSlot switchedOut k).run = .empty) ∧ coreUsable switchedOut = true :=
  ⟨⟨getCtx switchedOut 0, by decide +kernel, by decide +kernel⟩, by decide +kernel, by decide +kernel, by decide +kernel⟩

/-- A request of context 0 for the save of context 1, which runs nowhere, and one for its restore; the first 4 GiB are mapped. -/
def requesting (rs : List Request) : State :=
  withPkg { schedState [] with core := { (schedState []).core with
      out := [⟨5, 0, 1, 0, 0, 0, [], .ctxsave 7 1 0x8000 0x80000⟩, ⟨6, 0, 1, 0, 0, 0, [], .ctxrst 8 1 0x8000⟩] } }
    (fun p => { p with requests := rs, contexts := p.contexts ++ [(1, Context.fresh)] })

theorem witness_ctxsave : findOut (requesting []) 5 = some ⟨5, 0, 1, 0, 0, 0, [], .ctxsave 7 1 0x8000 0x80000⟩ ∧ underWay (requesting []) 7 = false ∧
    underWay (requesting [⟨7, none⟩]) 7 = true ∧ saveReady (requesting [⟨7, none⟩]) 1 = true ∧
    (areaSpans (requesting [⟨7, none⟩]) (some 0) .write 0x8000 (2 * 4096)).isSome = true ∧ powered (requesting []) = true ∧
    underWay (requesting [⟨0, none⟩]) 0 = true ∧ powered (withPkg (requesting []) (fun p => { p with power := .off })) = false ∧
    findOut (requesting []) 6 = some ⟨6, 0, 1, 0, 0, 0, [], .ctxrst 8 1 0x8000⟩ ∧
    restoreStatus (requesting []) (some 0) 1 0x8000 = 1 ∧ saveStatus (requesting []) (some 0) 2 0x8000 1 = 1 ∧
    presentRange (requesting []).pkg 0x8000 (2 * 4096) = true := by decide +kernel

/-- A save is found OK where the area is as large as any image can be. -/
theorem witness_save_status : saveStatus (requesting []) none 1 0x8000 (2 ^ 20) = 0 := by
  have h : imageLen (requesting []) 1 < 2 ^ 20 := by
    have ha : (clusterOff (getCtx (requesting []) 1) (requesting []).cluster.num +
        clusterBound (getCtx (requesting []) 1) (requesting []).core.index (savedCount (requesting []) 1) + 4095) / 4096 < 2 ^ 19 := by
      decide +kernel
    have hb := Nat.mod_lt (Config.imageUnits (clusterCount (getCtx (requesting []) 1))) (show 2 ^ 18 > 0 by decide)
    exact Nat.lt_of_lt_of_le (Nat.add_lt_add ha hb) (by decide)
  have h1 : ctxExists (requesting []) 1 = true := by decide +kernel
  have h2 : ctxBusy (requesting []) 1 = false := by decide +kernel
  have h3 : (areaSpans (requesting []) none .write 0x8000 (2 ^ 20 * 4096)).isNone = false := by decide +kernel
  have h4 : ¬(2 ^ 20 < imageLen (requesting []) 1) := Nat.not_lt.2 (Nat.le_of_lt h)
  unfold saveStatus
  rw [h1, h2, h3, if_neg (by decide), if_neg (by decide), if_neg (by decide), if_neg (by decide), if_neg (by decide), if_neg h4]

/-- The image of context 1, parked, at 0x8000. -/
def parkedState : State :=
  withPkg State.reset (fun p => { p with
    mem := writeBytes [] 0x8000 (dwords [imageMagic, 1, 0, 0xFF, 1, 0x2000, 0, 0])
    contexts := [(1, { Context.fresh with parked := true })] })

theorem witness_restore_status : restoreStatus parkedState none 1 0x8000 = 0 := by
  decide +kernel

/-! ### Events of the hub -/

/-- Context 0 runs here, with a submission ring at bus address 0x1000 whose first packet is this one. -/
def hubState (bs : List Byte) : State :=
  withCluster (withPkg (withCtx (turnOf .A) (fun c => { c with sq := ⟨0x1000, 64, 0, 1⟩ }))
    (fun p => { p with mem := writeBytes p.mem (hostBase + 0x1000) bs })) (fun c => { c with ctx := some 0 })

/-- A packet of a type. -/
def packetOf (typ : Nat) (a b c : Nat) : List Byte := dwords [typ, a, b, c, 0, 0, 0, 0]

/-- A LAUNCH of one record at bus address 0x2000, an EVENT that sets bits 0 and 1, an EVWAIT of bit 0, a packet of no type. -/
def launchPkt : List Byte := packetOf 1 0x2000 1 0

def eventPkt : List Byte := packetOf 3 0 3 0

def evwaitPkt : List Byte := packetOf 4 0 1 0

def badPkt : List Byte := packetOf 9 0 0 0

theorem next_is (typ : Nat) (bs : List Byte) (h1 : nextPacketOf (hubState bs) 0 = some (0, bs)) (h2 : pktWord bs 0 % 256 = typ)
    (h3 : packetOk (hubState bs) 0 bs = true) : NextIs (hubState bs) 0 0 typ bs := ⟨h1, h2, h3⟩

theorem witness_doorbells : Serves (hubState badPkt) 0 ∧ ¬Serves (hubState badPkt) 1 ∧ (getCtx (hubState badPkt) 0).heldCompletions = [] ∧
    (getCtx (hubState badPkt) 0).heldFaults = [] := by decide +kernel

theorem witness_launch_packet : NextIs (hubState launchPkt) 0 0 1 launchPkt ∧
    launchBytes (hubState launchPkt) 0 launchPkt = some (List.replicate 32 0) ∧
    (batchRecs 0 0 (pktTag launchPkt) (List.replicate 32 0)).any (fun q => recReserved q.r3) = false ∧
    launchesHere (hubState launchPkt) 0 = true ∧ Unlogged (hubState launchPkt) 0 ∧
    (batchRecs 0 0 (pktTag launchPkt) (List.replicate 32 0)).length ≤ entriesFree (hubState launchPkt) ∧
    launchesElsewhere (hubState launchPkt) 0 = false :=
  ⟨next_is 1 _ (by decide +kernel) (by decide +kernel) (by decide +kernel), by decide +kernel, by decide +kernel, by decide +kernel,
    by decide +kernel, by decide +kernel, by decide +kernel⟩

/-- A batch with a reserved bit in its last record. -/
theorem witness_launch_reserved : (batchRecs 0 0 0 (List.replicate 31 0 ++ [0x80])).any (fun q => recReserved q.r3) = true := by decide +kernel

/-- The launch queue is full. -/
def crowded : State := withCluster (hubState launchPkt) (fun c => { c with queue := List.replicate 256 waiting })

theorem witness_launch_full : entriesFree crowded < (batchRecs 0 0 (pktTag launchPkt) (List.replicate 32 0)).length ∧
    launchesElsewhere crowded 0 = false ∧ nextPacketOf crowded 0 = some (0, launchPkt) ∧ packetOk crowded 0 launchPkt = true ∧
    launchBytes (hubState (packetOf 1 0x2000 0 0)) 0 (packetOf 1 0x2000 0 0) = none := by decide +kernel

theorem witness_packets : NextIs (hubState eventPkt) 0 0 3 eventPkt ∧ Unlogged (hubState eventPkt) 0 ∧
    NextIs (hubState evwaitPkt) 0 0 4 evwaitPkt ∧ evwaitMet (hubState evwaitPkt) 0 evwaitPkt = false ∧
    evwaitMet (withCtx (hubState evwaitPkt) (fun c => { c with events := 1 })) 0 evwaitPkt = true ∧
    nextPacketOf (hubState badPkt) 0 = some (0, badPkt) ∧ packetOk (hubState badPkt) 0 badPkt = false ∧
    nextPacketOf (turnOf .A) 0 = none :=
  ⟨next_is 3 _ (by decide +kernel) (by decide +kernel) (by decide +kernel), by decide +kernel,
    next_is 4 _ (by decide +kernel) (by decide +kernel) (by decide +kernel), by decide +kernel, by decide +kernel, by decide +kernel,
    by decide +kernel, by decide +kernel⟩

/-! ### Debug -/

/-- A DEBUG packet on context 0 and slot 0 of core 0: operation, space, address, operand. -/
def debugPkt (op space addr operand : Nat) : List Byte := dwords [2, 0, 0, 0, op + space * 2 ^ 20, 0, addr, operand]

/-- The operation of the next packet, decided. -/
def isDebug (s : State) (op : Nat) (bs : List Byte) : Bool :=
  decide (nextPacketOf s 0 = some (0, bs)) && decide (pktWord bs 0 % 256 = 2) && packetOk s 0 bs && decide ((debugBody bs).op = op)

theorem debug_is {s : State} {op : Nat} {bs : List Byte} (h : isDebug s op bs = true) : DebugIs s 0 0 op bs := by
  simp only [isDebug, Bool.and_eq_true, decide_eq_true_eq] at h
  exact ⟨⟨h.1.1.1, h.1.1.2, h.1.2⟩, h.2⟩

theorem witness_debug_packets : DebugIs (hubState (debugPkt 1 0 0 0)) 0 0 1 (debugPkt 1 0 0 0) ∧
    DebugIs (hubState (debugPkt 2 0 0 0)) 0 0 2 (debugPkt 2 0 0 0) ∧ DebugIs (hubState (debugPkt 3 0 0x20000 0)) 0 0 3 (debugPkt 3 0 0x20000 0) ∧
    DebugIs (hubState (debugPkt 4 0 0 0)) 0 0 4 (debugPkt 4 0 0 0) ∧ DebugIs (hubState (debugPkt 5 4 0x3000 0)) 0 0 5 (debugPkt 5 4 0x3000 0) ∧
    DebugIs (hubState (debugPkt 6 0 0x3000 0)) 0 0 6 (debugPkt 6 0 0x3000 0) ∧ DebugIs (hubState (debugPkt 7 0 0x20000 5)) 0 0 7 (debugPkt 7 0 0x20000 5) :=
  ⟨debug_is (by decide +kernel), debug_is (by decide +kernel), debug_is (by decide +kernel), debug_is (by decide +kernel),
    debug_is (by decide +kernel), debug_is (by decide +kernel), debug_is (by decide +kernel)⟩

theorem witness_debug_packets_more : DebugIs (hubState (debugPkt 8 0 0 8)) 0 0 8 (debugPkt 8 0 0 8) ∧
    DebugIs (hubState (debugPkt 9 0 0 (0x10000 + 2 ^ 48 + 2 ^ 56))) 0 0 9 (debugPkt 9 0 0 (0x10000 + 2 ^ 48 + 2 ^ 56)) ∧
    DebugIs (hubState (debugPkt 10 0 0x3000 0)) 0 0 10 (debugPkt 10 0 0x3000 0) ∧
    DebugIs (hubState (debugPkt 11 0 0x10000 (1 + 0x100 * 2 ^ 8))) 0 0 11 (debugPkt 11 0 0x10000 (1 + 0x100 * 2 ^ 8)) ∧
    DebugIs (hubState (debugPkt 12 0 0 0x501)) 0 0 12 (debugPkt 12 0 0 0x501) ∧ Unlogged (hubState (debugPkt 12 0 0 0x501)) 0 :=
  ⟨debug_is (by decide +kernel), debug_is (by decide +kernel), debug_is (by decide +kernel), debug_is (by decide +kernel),
    debug_is (by decide +kernel), by decide +kernel⟩

/-- A context with a session, its page table in memory, and a STOP as its next packet. -/
def debugged (bs : List Byte) (now : Nat) : State :=
  withCtx { hubState bs with
      turn := 0, now := now, pkg := { (hubState bs).pkg with mem := writeBytes (placed .A 0).pkg.mem (hostBase + 0x1000) bs } }
    (fun c => { c with session := some 0, exclusive := true })

def stopPkt : List Byte := debugPkt 3 0 0x20000 0

/-- The core frozen at a STOP. -/
def frozen (bs : List Byte) (now : Nat) : State :=
  match debugStop (setSlot (debugged bs 100) 0 { getSlot (debugged bs 100) 0 with imageAt := 0x20000 }) 0 0 0x20000 with
  | some t => { t with now := now }
  | none => debugged bs now

theorem witness_stop : isDebug (debugged stopPkt 100) 3 stopPkt = true ∧ onThisCore (debugged stopPkt 100) (debugBody stopPkt) = true ∧
    holdsThread (debugged stopPkt 100) (debugBody stopPkt) = true ∧ (getCtx (debugged stopPkt 100) 0).session.isSome = true ∧
    (stoppedImage (debugged stopPkt 100) 0).isSome = false ∧ (debugged stopPkt 100).core.rollAt = none ∧
    (debugStop (setSlot (debugged stopPkt 100) 0 { getSlot (debugged stopPkt 100) 0 with imageAt := 0x20000 }) 0 0 0x20000).isSome = true ∧
    (getCtx (hubState stopPkt) 0).session = none := by decide +kernel

/-- A STOP for an empty slot, for a thread that has been stopped, and while the core rolls back. -/
theorem witness_stop_else : holdsThread (debugged (debugPkt 3 0 0x20000 0) 100) { debugBody stopPkt with slot := 1 } = false ∧
    (stoppedImage (frozen stopPkt 100) 0).isSome = true ∧ isDebug (frozen stopPkt 100) 3 stopPkt = true ∧
    holdsThread (frozen stopPkt 100) (debugBody stopPkt) = true ∧ (getCtx (frozen stopPkt 100) 0).session.isSome = true ∧
    isDebug { debugged stopPkt 100 with core := { (debugged stopPkt 100).core with rollAt := some 98 } } 3 stopPkt = true := by decide +kernel

def resumePkt : List Byte := debugPkt 4 0 0 0

theorem witness_resume : (frozen resumePkt 100).core.freeze.isSome = true ∧ isDebug (frozen resumePkt 100) 4 resumePkt = true ∧
    isStopped (frozen resumePkt 100) (debugBody resumePkt) = true ∧ isStopped (hubState resumePkt) (debugBody resumePkt) = false ∧
    stoppedImage (frozen resumePkt 100) 0 = some 0x20000 ∧ stoppedImage (frozen resumePkt 100) 1 = none ∧
    (frozen resumePkt 100).core.freeze.any (fun f => decide (f.heldReports = [])) = true ∧
    limitReached (frozen resumePkt 1300100) 0 = true ∧ limitReached (frozen resumePkt 1300099) 0 = false := by decide +kernel

/-- A slot at its armed cycle, with a sample period of 256. -/
def armed (at_ : Word) : State :=
  withSlot (debugged stopPkt 100) (fun x => { x with breakAt := some at_, breakImage := 0x20000, samplePeriod := 256 })

theorem witness_break : breakDue (armed 0) 0 = true ∧ breakDue (armed 1) 0 = false ∧ sampleDue (armed 0) 0 = true ∧
    sampleDue (turnOf .A) 0 = false ∧
    (debugStop (setSlot (armed 0) 0 { getSlot (armed 0) 0 with breakAt := none }) 0 1 (getSlot (armed 0) 0).breakImage).isSome = true := by
  decide +kernel

def readPkt : List Byte := debugPkt 5 4 0x3000 0

def longPkt (op : Nat) : List Byte := debugPkt op 4 0x3000 (4096 * 2 ^ 48)

def writePkt : List Byte := debugPkt 6 0 0x3000 (0x2000 + 3 * 2 ^ 48)

theorem witness_debug_read : spaceElsewhere (hubState readPkt) (debugBody readPkt) = false ∧
    4096 < transferLen (debugBody (longPkt 5)) ∧ isDebug (hubState (longPkt 5)) 5 (longPkt 5) = true ∧
    isDebug (hubState (longPkt 6)) 6 (longPkt 6) = true ∧ transferLen (debugBody readPkt) ≤ 4096 ∧
    spaceBytes (hubState readPkt) (debugBody readPkt) 0 1 = some [0] ∧ (hostWrite (hubState readPkt) 0x3000 [0]).isSome = true ∧
    isDebug (debugged writePkt 100) 6 writePkt = true ∧ hostRead (debugged writePkt 100) 0x3000 4 = some [0, 0, 0, 0] ∧
    (writeSpace (debugged writePkt 100) (debugBody writePkt) 0x2000 [0, 0, 0, 0]).isSome = true := by decide +kernel

/-- INJECT into an exclusive context of this cluster, into one that is neither exclusive nor stopped, of a region there is not. -/
theorem witness_inject : (debugged (debugPkt 12 0 0 0x501) 100).cluster.ctx = some 0 ∧
    (getCtx (debugged (debugPkt 12 0 0 0x501) 100) (debugBody (debugPkt 12 0 0 0x501)).target).exclusive = true ∧
    (getCtx (hubState (debugPkt 12 0 0 0x501)) 0).exclusive = false ∧
    isStopped (hubState (debugPkt 12 0 0 0x501)) (debugBody (debugPkt 12 0 0 0x501)) = false ∧
    isDebug (debugged (debugPkt 12 0 0 0x503) 100) 12 (debugPkt 12 0 0 0x503) = true ∧ (debugBody (debugPkt 12 0 0 0x503)).operand % 4 = 3 ∧
    onThisCore (debugged (debugPkt 12 0 0 0x501) 100) (debugBody (debugPkt 12 0 0 0x501)) = true := by decide +kernel

/-- TRACE that ends it; REPLAY that begins a capture, and of a mode there is not. -/
theorem witness_trace_and_replay : (debugBody (debugPkt 9 0 0 0)).operand = 0 ∧ isDebug (hubState (debugPkt 9 0 0 0)) 9 (debugPkt 9 0 0 0) = true ∧
    bits (debugBody (debugPkt 9 0 0 (0x10000 + 2 ^ 48 + 2 ^ 56))).operand 0 48 % 0x10000 = 0 ∧
    bits (debugBody (debugPkt 9 0 0 (0x10000 + 2 ^ 48 + 2 ^ 56))).operand 48 8 ≠ 0 ∧
    (debugBody (debugPkt 11 0 0x10000 (1 + 0x100 * 2 ^ 8))).operand % 256 = 1 ∧
    (getCtx (hubState (debugPkt 11 0 0x10000 (1 + 0x100 * 2 ^ 8))) 0).waitingEvents = [] ∧
    bits (debugBody (debugPkt 11 0 0x10000 (1 + 0x100 * 2 ^ 8))).operand 8 40 % 256 = 0 ∧
    bits (debugBody (debugPkt 11 0 0x10000 (1 + 0x100 * 2 ^ 8))).operand 48 16 = 0 ∧
    2 < (debugBody (debugPkt 11 0 0 3)).operand % 256 ∧ isDebug (hubState (debugPkt 11 0 0 3)) 11 (debugPkt 11 0 0 3) = true := by decide +kernel

/-- A rerun that has waited since cycle 0 for a first record that its log holds. -/
def rerunning (now : Nat) : State :=
  withCtx (withPkg { placed .A 0 with now := now } (fun p => { p with mem := writeBytes p.mem 0x10000 (leBytes 8 3) }))
    (fun c => { c with replay := ⟨2, 0x10000, 0x10000, 0, some 0⟩ })

theorem witness_debug_rest : isDebug (debugged (debugPkt 12 0 0 0x501) 100) 12 (debugPkt 12 0 0 0x501) = true ∧
    (debugBody (debugPkt 12 0 0 0x501)).operand % 4 ≠ 3 ∧ bits (debugBody (debugPkt 12 0 0 0x501)).operand 2 6 = 0 ∧
    (getCtx (debugged (debugPkt 12 0 0 0x501) 100) 0).exclusive = true ∧
    (hostWrite (foldAll (hubState (debugPkt 10 0 0x3000 0)) 0) 0x3000 ((List.range 8).flatMap (fun i =>
      leBytes 8 (sget (getCtx (foldAll (hubState (debugPkt 10 0 0x3000 0)) 0) 0).totals i).toNat))).isSome = true ∧
    rerunOver (turnOf .A) 0 = false ∧ rerunOver (rerunning 130000) 0 = true := by decide +kernel

/-! ### Events of the package -/

def powerState (p : Power) : State := withPkg State.reset (fun x => { x with power := p })

/-- The modelled core fenced. -/
def fencedState : State := { State.reset with core := { State.reset.core with fenced := true } }

/-- Context 5 on cluster 0, or on cluster 1; and one whose submission ring lies beyond 2 TiB. -/
def desc (clusters : BitVec 24) (ring : Nat) : ContextDesc :=
  { number := 5, owner := 0, asid := 3, root := 0x1000, smode := true, handler := some 0x400, trapArea := none, clusters := clusters,
    slice := 1, drainLimit := 1, freezeLimit := 1, exclusive := false, job := none, scopes := [], pubmap := [], graphs := [],
    pipes := [], sq := (ring, 64), cq := (0x2000, 64), fq := (0x4000, 64) }

theorem witness_power : (powerState .off).pkg.power = .off ∧ (powerState (.bootFailed 2 7)).pkg.power = .bootFailed 2 7 ∧
    State.reset.pkg.power = .active ∧ clusterGated State.reset = true ∧
    clusterGated (withCluster (turnOf .A) (fun c => { c with ctx := some 0 })) = false ∧ powered State.reset = true ∧
    2800 % 25 = 0 ∧ memWf State.reset.pkg.mem = true ∧ attached State.reset = true ∧ mwf 0 State.reset.pkg.bar0 = true := by
  decide +kernel

theorem witness_release : powered fencedState = true ∧ fencedState.core.fenced = true ∧ fencedState.core.index < 192 ∧
    1 ≠ fencedState.core.index ∧ releaseFails fencedState.pkg = false ∧
    releaseFails (withPkg fencedState (fun p => { p with failing := [2 ^ 37] })).pkg = true := by decide +kernel

theorem witness_spdm : Answered State.reset [0x13, 0x81] (.getDigests [0x13, 0x81]) 0x13 0x01 ([0x01, 0x01] ++ Config.sha512 certificates) :=
  .digests

theorem witness_creation : powered State.reset = true ∧ (desc 1 0).number < 4096 ∧ ctxExists State.reset (desc 1 0).number = false ∧
    ringFits (desc 1 0).sq 64 = true ∧ ringFits (desc 1 0).cq 32 = true ∧ ringFits (desc 1 0).fq 64 = true ∧
    (desc 1 0).clusters.getLsbD State.reset.cluster.num = true ∧ State.reset.cluster.ctx = none ∧
    (desc 2 0).clusters.getLsbD State.reset.cluster.num = false ∧ ringFits (desc 1 (2 ^ 41)).sq 64 = false ∧
    ctxExists (turnOf .A) 0 = true ∧ powered (powerState .off) = false ∧ (desc 1 0).asid < 2 ^ 16 ∧ (∀ x ∈ (desc 1 0).scopes, x.1 < 32) ∧
    2 ^ 16 ≤ ({ desc 1 0 with asid := 0x10000 } : ContextDesc).asid ∧
    (∃ x ∈ ({ desc 1 0 with scopes := [(32, 0)] } : ContextDesc).scopes, 32 ≤ x.1) ∧
    ringFits ({ desc 1 0 with cq := (2 ^ 41, 64) } : ContextDesc).cq 32 = false ∧
    ringFits ({ desc 1 0 with fq := (2 ^ 41, 64) } : ContextDesc).fq 64 = false := by decide +kernel

/-! ### Events of the fabric -/

/-- Link 2 up, with flits of a packet that has arrived in part. -/
def linked (fs : List (BitVec 512)) (failures : Nat) (re : Option Nat) (now : Nat) : State :=
  withPkg { turnOf .A with now := now } (fun p => { p with links := [(2, { linkOf p 2 with up := true, failures := failures, retraining := re, rxSeq := 7, flits := fs })] })

/-- A cut marker of job 3, and the header of a write of two payload flits; a trailer of sequence number 7. -/
def markerFlit : BitVec 512 := 9 + 6 * 2 ^ 8 + 3 * 2 ^ 16

def writeFlit : BitVec 512 := 1 + 2 * 2 ^ 4 + 3 * 2 ^ 16

def trailerOf (f : BitVec 512) : BitVec 64 := (crc32c f).setWidth 64 + 7 * 2 ^ 32

theorem witness_flits : (linkOf (linked [] 16 none 100).pkg 2).up = true ∧ (linkOf (linked [] 16 none 100).pkg 2).retraining = none ∧
    ¬crcOk markerFlit 0 ∧ crcOk markerFlit (trailerOf markerFlit) ∧
    (trailerOf markerFlit).toNat / 2 ^ 32 % 2 ^ 12 = (linkOf (linked [] 0 none 100).pkg 2).rxSeq.toNat ∧
    (linkOf (linked [] 0 none 100).pkg 2).flits = [] ∧ headerFlits markerFlit = 0 ∧ headerBad markerFlit = false ∧
    9 ≤ (parsePacket 2 markerFlit []).typ ∧ crcOk writeFlit (trailerOf writeFlit) ∧
    ((linkOf (linked [] 0 none 100).pkg 2).flits ++ [writeFlit]).length ≤
      headerFlits (((linkOf (linked [] 0 none 100).pkg 2).flits ++ [writeFlit]).headD 0) := by decide +kernel

/-- A flit out of sequence, a header with a reserved type, a link that retrains. -/
theorem witness_flits_dropped : crcOk markerFlit ((crc32c markerFlit).setWidth 64 + 8 * 2 ^ 32) ∧
    ((crc32c markerFlit).setWidth 64 + 8 * 2 ^ 32 : BitVec 64).toNat / 2 ^ 32 % 2 ^ 12 ≠ (linkOf (linked [] 0 none 100).pkg 2).rxSeq.toNat ∧
    headerBad 13 = true ∧ headerFlits 13 = 0 ∧ crcOk 13 (trailerOf 13) ∧ (linkOf (linked [] 0 (some 0) 100).pkg 2).retraining.isSome = true := by
  decide +kernel

theorem witness_retraining : retrainOver (linked [] 0 (some 0) 1300000) (linkOf (linked [] 0 (some 0) 1300000).pkg 2) = true ∧
    retrainOver (linked [] 0 (some 0) 1299999) (linkOf (linked [] 0 (some 0) 1299999).pkg 2) = false ∧
    (linked [] 0 (some 0) 1300000).pkg.jobs = [] ∧ (linkOf (linked [] 0 none 0).pkg 3).up = false := by decide +kernel

/-- A packet of a type from node 5 in the router, with a physical address; the job of `jobbed`, changed. -/
def aPacket (typ pa width : Nat) : Packet :=
  { port := 2, vc := 0, typ := typ, flits := 0, job := 3, tag := 0x77, dst := 0, src := 5, pa := pa, width := width, group := 2, mean := false,
    inst := 0, reqid := 8, data := 0x1234, payload := [], error := false, bad := false, via := (24, 0) }

def routed (p : Packet) (f : Job → Job) : State :=
  let s := jobbed (turnOf .A) f
  withPkg { s with
      now := 130100, cluster := { s.cluster with ctx := some 0 }
      core := { s.core with nwrs := [⟨8, 0, 0, 3, true, false, false, 0⟩] } }
    (fun x => { x with router := [p], remotes := [(8, 0, 100)] })

theorem witness_remote_accesses : InRouter (routed (aPacket 1 0x1000 3) id) 0 1 (aPacket 1 0x1000 3) ∧
    remoteOk (routed (aPacket 1 0x1000 3) id) (aPacket 1 0x1000 3) true = true ∧
    remoteOk (routed (aPacket 1 0x200000 3) id) (aPacket 1 0x200000 3) true = false ∧
    remoteOk (routed (aPacket 2 0x1FFFF8 3) id) (aPacket 2 0x1FFFF8 3) false = true ∧
    remoteOk (routed (aPacket 2 0x1FFFFC 3) id) (aPacket 2 0x1FFFFC 3) false = false ∧ (aPacket 2 0x1000 3).width ≠ 4 ∧
    memWf (routed (aPacket 1 0x1000 3) id).pkg.mem = true ∧ answered (routed (aPacket 3 0 3) id) (aPacket 3 0 3) = some 8 ∧
    savedWaits (routed (aPacket 3 0 3) id) 8 = false ∧
    answered (withPkg (routed (aPacket 3 0 3) id) (fun x => { x with remotes := [] })) (aPacket 3 0 3) = none ∧
    InRouter (routed (aPacket 4 0 3) id) 0 4 (aPacket 4 0 3) := by
  decide +kernel

/-- A reply for a landing slot, of eight bytes or of 128; one for a word that the record of a stopped thread waits for. -/
def replying (w : Nat) : State :=
  withSlot (routed (aPacket 3 0 w) id) (fun x => { x with xfers := [⟨8, .A, 0, 8, none, [], 0, 8, 1, 0, 0, false, true, none, 1, []⟩] })

theorem witness_replies : (findFirst (fun (y : Xfer) => decide (y.id = 8)) (getSlot (replying 4) 0).xfers).isSome = true ∧
    answered (replying 4) (aPacket 3 0 4) = some 8 ∧ savedWaits (replying 4) 8 = false ∧
    savedWaits (withCluster (routed (aPacket 3 0 3) id) (fun c => { c with queue := [{ ready with
      saved := some (saveThread (replying 3) 0) }] })) 8 = true := by decide +kernel

theorem witness_remote_timeout : findFirst (fun r => decide (r.1 = 8)) (routed (aPacket 3 0 3) id).pkg.remotes = some (8, 0, 100) ∧
    remoteOver (routed (aPacket 3 0 3) id) (8, 0, 100) = true ∧
    remoteOver { routed (aPacket 3 0 3) id with now := 130099 } (8, 0, 100) = false ∧ (turnOf .A).pkg.router[0]? = none := by decide +kernel

/-- The group's first instance, begun here, and not complete. -/
def openInstance : Instance := ⟨2, false, 0, false, [], false, 0, 0, 0, [7], 0, false⟩

def gathering (j : Job) : Job := { j with instances := [openInstance] }

theorem witness_contribution : findJob (routed (aPacket 5 0 0) gathering).pkg 3 = some (0, gathering aJob) ∧
    (groupOf aJob 2).valid = true ∧ 5 ∈ (groupOf aJob 2).members ∧ gatherNode (groupOf aJob 2) 0 = 0 ∧
    mfind (routed (aPacket 5 0 0) gathering).pkg.jobs 0 = some (gathering aJob) ∧
    findFirst (fun y => sameInstance y 2 false 0) (gathering aJob).instances = some openInstance ∧
    (gathering aJob).instances.filter (fun y => sameInstance y 2 false 0) = [openInstance] ∧
    allIn (groupOf aJob 2).members (addContribution openInstance 5 false 0x1234) = false ∧
    findJob (turnOf .A).pkg 3 = none ∧ (groupOf aJob 4).valid = false ∧ InRouter (routed (aPacket 6 0 0) gathering) 0 6 (aPacket 6 0 0) := by
  decide +kernel

/-- The last contribution of an instance; one that gathers at another node; a complete result; a failure of a member and of another node. -/
theorem witness_contribution_more :
    allIn (groupOf aJob 2).members (addContribution { openInstance with contribs := [(0, 1)] } 5 false 0x1234) = true ∧
    gatherNode (groupOf { aJob with groups := [(2, ⟨true, [5, 0], 0, 0, 0, 0⟩)] } 2) 0 ≠ 0 ∧ openInstance.complete = false ∧
    mfind (jobbed (turnOf .A) gathering).pkg.jobs 0 = some (gathering aJob) ∧ 5 ∈ (groupOf (gathering aJob) 2).members ∧
    7 ∉ (groupOf (gathering aJob) 2).members ∧ (∃ x ∈ (gathering aJob).instances, x.group = 2 ∧ x.complete = false) := by decide +kernel

theorem witness_barrier : InRouter (routed (aPacket 7 0 0) id) 0 7 (aPacket 7 0 0) ∧ InRouter (routed (aPacket 8 0 0) id) 0 8 (aPacket 8 0 0) ∧
    5 ∈ (groupOf aJob 2).members ∧ 6 ∉ (groupOf aJob 2).members ∧ aJob.instances = [] := by decide +kernel

theorem witness_purge : InRouter (routed (aPacket 12 0 0) id) 0 12 (aPacket 12 0 0) ∧
    findJob (routed (aPacket 12 0 0) id).pkg 3 = some (0, aJob) ∧ aJob.ctx = some 0 ∧
    (routed (aPacket 12 0 0) id).pkg.purges.contains (5, 8) = false ∧
    (withPkg (routed (aPacket 12 0 0) id) (fun x => { x with purges := [(5, 8)] })).pkg.purges.contains (5, 8) = true := by decide +kernel

/-- Sweep reports of a child, and of what was lost in the whole job; a wave that is under way. -/
theorem witness_sweeps : (aPacket 11 0 0).group = 2 ∧ ({ aPacket 11 0 0 with group := 1 } : Packet).group ≠ 2 ∧
    ({ aJob with switching := true, incoming := true } : Job).incoming = true ∧ aJob.incoming = false := by decide +kernel

theorem witness_markers : InRouter (routed (aPacket 9 0 0) id) 0 9 (aPacket 9 0 0) ∧ InRouter (routed (aPacket 10 0 0) id) 0 10 (aPacket 10 0 0) ∧
    InRouter (routed (aPacket 11 0 0) id) 0 11 (aPacket 11 0 0) ∧ aJob.switchedOut = false ∧ aJob.switching = false ∧
    ((fun j : Job => { j with switching := true }) aJob).switching = true ∧ ((fun j : Job => { j with switchedOut := true }) aJob).switchedOut = true := by
  decide +kernel

/-! ### The clauses that were added last -/

/-- A flag is still on its way to the issuing voice. -/
def withFlag (s : State) : State := withArch s (fun a => { a with flagq := [⟨1, 110⟩] })

theorem witness_flags_on_their_way : (me (turnOf .A)).flagq = [] ∧ (me (withFlag (turnOf .A))).flagq ≠ [] ∧ ¬FlipReady (withFlag (turnOf .C)) ∧
    MayIssue (withFlag (turnOf .A)) 0 0 .all ∧ (me (withFlag handling)).flagq ≠ [] ∧ Plain (withFlag handling) ∧
    (me handling).flagq = [] := by decide +kernel

/-- Every voice presents a BRK at the start of a cycle, in a context with a session and an image address that can be written. -/
def breaking : State :=
  withSlot (withCtx { placed .A ((encode (.brk 0 0)).getD 0).toNat with turn := 0 } (fun c => { c with session := some 0 }))
    (fun x => { x with imageAt := 0x20000 })

theorem witness_brk_at_edge : breaking.turn = 0 ∧ breaking.inbox = [] ∧ (dueStop breaking 3).isNone = true ∧
    (dueMarker breaking).isNone = true ∧ (brkStop exec breaking).isSome = true ∧ (brkVoice exec breaking).isSome = true := by
  decide +kernel

theorem witness_eret_poison : (∃ ps, spanParts (withPkg handling (fun p => { p with poison := [0x81] })) (threadCtx handling 0) true .read 0x2000 3
      recordSize = .ok ps ∧ poisonedRecord (withPkg handling (fun p => { p with poison := [0x81] })) ps = some 0x2040) ∧
    (∃ ps, spanParts handling (threadCtx handling 0) true .read 0x2000 3 recordSize = .ok ps ∧ poisonedRecord handling ps = none) := by
  refine ⟨⟨_, rfl, by decide +kernel⟩, ⟨_, rfl, by decide +kernel⟩⟩

/-- A store queue with an entry, and a hold-back buffer without room. -/
theorem witness_queue_store_stalls : tryPop { queued with core := { queued.core with held := fullBuffer.core.held } } 0 4 =
      .ready ⟨7, 1, []⟩ ⟨0x55, none⟩ ∧
    holdbackRoom { queued.core with held := fullBuffer.core.held } (clauseAt queued (hereOf queued)) false 0x100000 128 = false ∧
    holdbackRoom queued.core (clauseAt queued (hereOf queued)) false 0x1000 128 = true ∧ queueBound queued (hereOf queued) 4 = false := by
  decide +kernel

/-- A copy of `n` elements of four bytes, stepping four, between these spaces, from 0x2000 to 0x3000 or through ring 3. -/
def moving (op ssp dsp n : Nat) : Cmd :=
  { copyCmd with
    tmpl := BitVec.ofNat 1024 (1 + op * 2 ^ 4 + 0x2000 * 2 ^ 192 + 0x3000 * 2 ^ 256 + (n + 2 ^ 32) * 2 ^ 320 + (1 + 2 ^ 32) * 2 ^ 384 +
      4 * 2 ^ (64 * 7) + 4 * 2 ^ (64 * 9) + (ssp + dsp * 4 + 2 * 2 ^ 12 + 3 * 2 ^ 20) * 2 ^ (64 * 11))
    src := 0x2000, dst := 0x3000 }

/-- The command in a core of a context whose page table stands in memory, its clause open or sealed. -/
def movingIn (m : Cmd) (opened : Bool) : State :=
  let s := withPkg (withSpad (withCtl (placed .C 0) (fun c => setRing c 3 ⟨0x4000, 4, 3, 1, 2⟩)) 0x2000 [1, 2, 3, 4, 5, 6, 7, 8])
    (fun p => { p with mem := writeBytes (writeBytes p.mem 0x2000 [11, 12, 13, 14]) (spkAddr (placed .C 0) 0x2000) [21, 22, 23, 24, 25, 26, 27, 28] })
  { s with core := { s.core with cmds := [m], nextId := 50, clauses := if opened then [⟨m.clause, 0, .C, none, [], VoiceArch.fresh 0, false⟩] else [] } }

/-- That it may start, decided. -/
def movesIn (m : Cmd) (opened : Bool) (op : Nat) : Bool :=
  let s := movingIn m opened
  decide (findCmd s 0 = some m) && decide (m.eng = 1) && decide (tOp m.tmpl = op) && cmdReady s m && !ringOverrun s m &&
    decide (s.core.badRows = []) && decide (s.core.poison = []) && decide (s.core.held = [])

theorem moves_of {op : Nat} {m : Cmd} {o : Bool} (h : movesIn m o op = true) : Starts (movingIn m o) 0 1 op m := by
  simp only [movesIn, Bool.and_eq_true, decide_eq_true_eq, Bool.not_eq_true'] at h
  obtain ⟨⟨⟨⟨⟨⟨⟨h1, h2⟩, h3⟩, h4⟩, h5⟩, h6⟩, h7⟩, h8⟩ := h
  exact ⟨h1, h2, h3, h4, h5, h6, h7, by rw [h8]; simp⟩

/-- The parts of a translation that succeeds. -/
def partsOf (x : State × AccRes) : Option (List Part) :=
  match x.2 with
  | .ok ps => some ps
  | _ => none

theorem translates_to {x : State × AccRes} {ps : List Part} (h : partsOf x = some ps) : x = (x.1, .ok ps) := by
  obtain ⟨u, r⟩ := x
  cases r <;> simp_all [partsOf]

theorem witness_copies_in_core : Starts (movingIn (moving 1 0 3 2) true) 0 1 1 (moving 1 0 3 2) ∧
    Starts (movingIn (moving 2 3 0 2) true) 0 1 2 (moving 2 3 0 2) ∧ InCore (moving 1 0 3 2) 3 (copyDst (movingIn (moving 1 0 3 2) true) (moving 1 0 3 2)) ∧
    InCore (moving 1 0 3 2) 0 (copySrc (movingIn (moving 1 0 3 2) true) (moving 1 0 3 2)) ∧ tDsp (moving 1 0 3 2).tmpl = 3 ∧
    (Instr.copyf, 2) ∈ [(Instr.copy, 1), (Instr.copyf, 2)] :=
  ⟨moves_of (by decide +kernel), moves_of (by decide +kernel), by decide +kernel, by decide +kernel, by decide +kernel, by simp⟩

theorem witness_copies_from_cluster : Starts (movingIn (moving 2 1 0 2) false) 0 1 2 (moving 2 1 0 2) ∧ tSsp (moving 2 1 0 2).tmpl = 1 ∧
    InCore (moving 2 1 0 2) 0 (copyDst (movingIn (moving 2 1 0 2) false) (moving 2 1 0 2)) ∧ InCluster (moving 2 1 0 2) (spkSrc (moving 2 1 0 2)) ∧
    (∀ j < copyCount (moving 2 1 0 2).tmpl, poisonAt (movingIn (moving 2 1 0 2) false).pkg
      (spkAddr (movingIn (moving 2 1 0 2) false) (spkSrc (moving 2 1 0 2) j).toNat) (tEsz (moving 2 1 0 2).tmpl) = none) :=
  ⟨moves_of (by decide +kernel), by decide +kernel, by decide +kernel, by decide +kernel, by decide +kernel⟩

theorem witness_copies_to_cluster : Starts (movingIn (moving 1 0 1 2) true) 0 1 1 (moving 1 0 1 2) ∧ tDsp (moving 1 0 1 2).tmpl = 1 ∧
    InCluster (moving 1 0 1 2) (spkDst (moving 1 0 1 2)) ∧ unsealed (movingIn (moving 1 0 1 2) true).core (moving 1 0 1 2).clause = true :=
  ⟨moves_of (by decide +kernel), by decide +kernel, by decide +kernel, by decide +kernel⟩

/-- A copy of one element from memory, and one to memory. -/
theorem witness_copies_memory : Starts (movingIn (moving 1 2 0 1) false) 0 1 1 (moving 1 2 0 1) ∧
    Starts (movingIn (moving 2 0 2 1) true) 0 1 2 (moving 2 0 2 1) ∧ tSsp (moving 1 2 0 1).tmpl = 2 ∧ tDsp (moving 2 0 2 1).tmpl = 2 ∧
    copyCount (moving 1 2 0 1).tmpl = 1 ∧ unsealed (movingIn (moving 2 0 2 1) true).core (moving 2 0 2 1).clause = true :=
  ⟨moves_of (by decide +kernel), moves_of (by decide +kernel), by decide +kernel, by decide +kernel, by decide +kernel, by decide +kernel⟩

theorem witness_copies_translate : (∃ u ps, translate (movingIn (moving 1 2 0 1) false) (getCtx (movingIn (moving 1 2 0 1) false) 0) true .read 0x2000 4 =
      (u, .ok ps) ∧ kindsDiffer false ps = false ∧ (∀ p ∈ ps, poisonAt (movingIn (moving 1 2 0 1) false).pkg p.pa p.len = none)) ∧
    (∃ u ps, translate (movingIn (moving 2 0 2 1) true) (getCtx (movingIn (moving 2 0 2 1) true) 0) true .write 0x3000 4 =
      (u, .ok ps) ∧ kindsDiffer false ps = false ∧
      (∀ p ∈ ps, (writeHalf (getCtx (movingIn (moving 2 0 2 1) true) 0) (moving 2 0 2 1).tmpl p).isSome = true) ∧ ps.length = 1) :=
  ⟨⟨_, [⟨0x2000, 0x2000, 4, 0x1BF⟩], translates_to (by decide +kernel), by decide +kernel, by decide +kernel⟩,
    ⟨_, [⟨0x3000, 0x3000, 4, 0x1BF⟩], translates_to (by decide +kernel), by decide +kernel, by decide +kernel, by decide +kernel⟩⟩

/-- A command that has run, of a sealed clause and of an open one. -/
theorem witness_retires_sealed : unsealed (commanded { copyCmd with state := .done, startAt := 95 }).core copyCmd.clause = false ∧
    unsealed (movingIn { copyCmd with state := .done, startAt := 95 } true).core copyCmd.clause = true ∧
    retireReady (movingIn { copyCmd with state := .done, startAt := 95 } true) { copyCmd with state := .done, startAt := 95 } = true := by
  decide +kernel
/-- A BARW that waits for a place at barrier 5 of group 3: the thread has arrived for both phases, for none, or asks of group 5. -/
def barwWaits (s : State) (g : Nat) : State := withWait s ⟨.barw, 1, [5, 0, g], 7, 0, 90, 0⟩

theorem witness_barw_waits : (me (barwWaits arrived 3)).wait = some ⟨.barw, 1, 5 :: 0 :: 3 :: [], 7, 0, 90, 0⟩ ∧
    barrDecide (barwWaits arrived 3) 0 (mod64 3) (mod64 5) = .stall ∧
    (∃ x, barrDecide (barwWaits grouped 5) 0 (mod64 5) (mod64 5) = .done x) ∧
    barrDecide (barwWaits grouped 3) 0 (mod64 3) (mod64 5) = .arrive 3 5 0 0x10100 ∧ unsealed (barwWaits grouped 3).core 1 = true ∧
    Takes (barwWaits grouped 3) 0 0 .c false := by
  refine ⟨by decide +kernel, by decide +kernel, ⟨(match barrDecide (barwWaits grouped 5) 0 (mod64 5) (mod64 5) with | .done x => x | _ => 0), ?_⟩, ?_⟩ <;>
    decide +kernel

/-- A BARW that has arrived, its clause open, or sealed with the arrival on its way. -/
theorem witness_barw_arrived : unsealed (withWait grouped ⟨.barw, 1, [5, 0], 7, 0, 90, 0⟩).core 1 = true ∧
    arriving { grouped with core := { grouped.core with out := [⟨5, 0, 99, 0, 0, 0, [], .arrive 3 5⟩] } } 0 99 = true ∧
    arriving grouped 0 99 = false ∧ ([5, 0] : List Nat).length ≤ 2 := by decide +kernel

/-- A queue that a spill has left empty. -/
theorem witness_pipe_heads : pipeHead (getPipe (piped 1 [5]).cluster 2 0) = some 5 ∧ pipeHead (getPipe (piped 1 []).cluster 2 0) = none ∧
    pipeHead ⟨[], [9]⟩ = some 9 ∧ retainedItems (piped 1 [5]) 2 0 < 1 ∧
    1 ≤ retainedItems { piped 1 [5] with core := { (piped 1 [5]).core with held := [⟨9, 0, 1, [], .deq 2 0 4⟩] } } 2 0 := by decide +kernel

/-- A prefetch with room for its walk, without, and of a page the TLB holds. -/
theorem witness_prefetch : tlbHit devState.core.dtlb (ctxOf devState).asid 0x2000 = none ∧
    tlbHit devState.pkg.l2tlb (ctxOf devState).asid 0x2000 = none ∧ devState.pkg.walks.length < 64 ∧
    64 ≤ (withPkg devState (fun p => { p with walks := List.replicate 64 ⟨4, 0, 0x2000⟩ })).pkg.walks.length ∧
    (tlbHit ({ devState with core := { devState.core with dtlb := [⟨0, 0, 0x10000, 0, 0x1BF⟩] } } : State).core.dtlb 0 0x2000).isSome = true ∧
    after (exec (.pfg 0 0 1 0 0) devState) (fun t => decide (t.pkg.walks = [⟨devState.core.nextId, 0, 0x2000⟩])) = true := by decide +kernel

/-- A page of 4-bit blocks at 0x2000, in the TLB, while an acquire is outstanding and while none is. -/
def blockPage (s : State) : State := { s with core := { s.core with dtlb := [⟨(ctxOf s).asid, 0, 0x10000, 0, 0x1BF + 8 * 2 ^ 10⟩] } }

theorem witness_held_pages : pageFormat (blockPage devState) 0 0x2000 = (8, 0) ∧ pageHeld (blockPage acquiring) 0 0x2000 = true ∧
    pageHeld (blockPage devState) 0 0x2000 = false ∧ MayIssue (blockPage acquiring) 0 0 .a ∧ tryPop devQueued 0 5 = .wait ∧
    tryPop (withSlot devQueued (fun x => { x with vX1 := { x.vX1 with a := { x.vX1.a with exited := true } } })) 0 5 = .trap 0x0D := by
  decide +kernel

/-- A cluster whose context left it with a thread in slot 0, what identifies the image cut to no bytes. -/
def imaged : State :=
  withPkg (withCluster switchedOut (fun c => { c with offQueue := [(true, ready)] })) (fun p => { p with
    mem := [], images := [⟨0, 0, [], { clusterImage preempted with queue := [] }⟩] })

theorem witness_cluster_images : (imageAt imaged ((getCtx imaged 0).savedIn.getD []) 0).threads.map (fun p => p.1) = [0] ∧
    (∃ c, SavedHere imaged (physArea imaged 0x8000) 0 c ∧ c.parked = false) ∧ imaged.cluster.switchedOut = true ∧
    (∀ k ∈ [0, 1], (getSlot imaged k).run = .empty) ∧ coreUsable imaged = true ∧ cameWhileOut imaged 0 true = [ready] ∧
    cameWhileOut imaged 0 false = [] :=
  ⟨by decide +kernel, ⟨getCtx imaged 0, by decide +kernel, by decide +kernel⟩, by decide +kernel, by decide +kernel, by decide +kernel,
    by decide +kernel, by decide +kernel⟩

/-- The same on a core that is fenced; an image without threads. -/
theorem witness_cluster_unusable : coreUsable { imaged with core := { imaged.core with fenced := true } } = false ∧
    (imageAt (withPkg switchedOut (fun p => { p with mem := [], images := [⟨0, 0, [], clusterImage emptied⟩] })) ((getCtx switchedOut 0).savedIn.getD []) 0).threads = [] := by decide +kernel

/-- A host save of context 1 under way, and one that is not. -/
theorem witness_host_saves : (1, 0x8000, 2) ∈ (withPkg (requesting [⟨0, none⟩]) (fun p => { p with hostSave := [(1, 0x8000, 2)] })).pkg.hostSave ∧
    (1, 0x8000, 2) ∉ (requesting []).pkg.hostSave ∧ saveReady (requesting [⟨0, none⟩]) 1 = true := by decide +kernel

/-- A command of a thread that has left its slot ran in the last cycles; a packet in the router. -/
theorem witness_reports_more : struckPast { turnOf .A with core := { (turnOf .A).core with pastRuns := [⟨0, 0, 0x77, 5, 95⟩] } } ≠ [] ∧
    struckPast (turnOf .A) = [] ∧ (routed (aPacket 1 0 3) id).pkg.router[0]? = some (aPacket 1 0 3) ∧ powered (turnOf .A) = true ∧
    (1 : Nat) ≠ (turnOf .A).core.index := by decide +kernel

/-- A load that waits for an earlier one to its bytes, and one whose bytes are poisoned. -/
def waitingLoad : State :=
  withSlot (awaiting none false) (fun x => { x with xfers := ⟨3, .X0, 0, 8, none, [(0x3000, 8), (0x2000, 8)], 0x2000, 8, 1, 0, 0, false, false, none, 1, []⟩ :: x.xfers })

theorem witness_arrivals_wait : (findFirst (fun y => decide (y.id = 8)) (getSlot waitingLoad 0).xfers).any (fun y => loadWaits waitingLoad 0 y) = true ∧
    (landingXfer waitingLoad 0 0).any (fun y => loadWaits waitingLoad 0 y) = true ∧
    (landingXfer (awaiting none false) 0 0).any (fun y => decide (xferPoison (withPkg (awaiting none false) (fun p => { p with poison := [0x80] })) 0 y =
      some 0x2000)) = true := by decide +kernel

/-- The walk's page is in the data TLB, or not. -/
theorem witness_walk_fills : tlbHit (placed .A 0).core.dtlb (getCtx (placed .A 0) 0).asid 0 = none ∧
    tlbHit ({ placed .A 0 with core := { (placed .A 0).core with dtlb := [⟨(getCtx (placed .A 0) 0).asid, 0, 0x10000, 0, 0x1BF⟩] } } : State).core.dtlb
      (getCtx (placed .A 0) 0).asid 0 ≠ none := by decide +kernel

/-- A killable task with a command under a sealed clause; a record saved without an image in memory. -/
theorem witness_kills : (∃ m ∈ (commanded copyCmd).core.cmds, m.slot = 0 ∧ unsealed (commanded copyCmd).core m.clause = false) ∧
    (saveThread (schedState []) 0).stored = none := by decide +kernel

theorem witness_spill_room : afterSpill (pipeStalled 5000 4) ⟨[0, 0], [2], 0, 4, 0⟩ 3 ≤ 4 ∧
    0 < afterSpill (pipeStalled 5000 0) ⟨[0, 0], [2], 0, 0, 0⟩ 3 := by decide +kernel

/-- A steal's record finds its context in the cluster, or the cluster switched out for it. -/
theorem witness_steal_enters : (inTransit 0).cluster.ctx = some ready.ctx ∧ (inTransit 0).cluster.switchedOut = false ∧
    (withCluster (inTransit 0) (fun c => { c with switchedOut := true })).cluster.switchedOut = true := by decide +kernel

/-- A STOP on the edge of an armed breakpoint; one whose image address is not mapped. -/
theorem witness_stop_on_break : isDebug (armed 0) 3 stopPkt = true ∧ holdsThread (armed 0) (debugBody stopPkt) = true ∧
    breakDue (armed 0) (debugBody stopPkt).slot = true ∧ breakDue (debugged stopPkt 100) (debugBody stopPkt).slot = false ∧
    isDebug (debugged (debugPkt 3 0 0x8000000000 0) 100) 3 (debugPkt 3 0 0x8000000000 0) = true ∧
    (debugStop (setSlot (debugged (debugPkt 3 0 0x8000000000 0) 100) 0 { getSlot (debugged stopPkt 100) 0 with imageAt := 0x8000000000 }) 0 0
      0x8000000000).isNone = true ∧
    (debugStop (setSlot (armed 0) 0 { getSlot (armed 0) 0 with breakAt := none }) 0 1 0x8000000000).isNone = true ∧
    (debugged (debugPkt 2 0 0 0) 100).core.freeze = none ∧ isDebug (debugged (debugPkt 2 0 0 0) 100) 2 (debugPkt 2 0 0 0) = true := by
  decide +kernel

/-- READ of a window of a thread that runs, of a space there is not, beyond the counters; WRITE of a space that takes none; host memory
beyond 2 TiB. -/
theorem witness_debug_refused : isDebug (hubState (debugPkt 5 1 0x3000 0)) 5 (debugPkt 5 1 0x3000 0) = true ∧
    isStopped (hubState (debugPkt 5 1 0x3000 0)) (debugBody (debugPkt 5 1 0x3000 0)) = false ∧
    spaceElsewhere (hubState (debugPkt 5 1 0x3000 0)) (debugBody (debugPkt 5 1 0x3000 0)) = false ∧
    (spaceBytes (hubState (debugPkt 5 1 0x3000 0)) (debugBody (debugPkt 5 1 0x3000 0)) 0 1).isNone = true ∧
    4 < (debugBody (debugPkt 5 9 0x3000 0)).space ∧ 2 < (debugBody (debugPkt 6 4 0x3000 0)).space ∧
    (hostWrite (hubState readPkt) (2 ^ 41) [0]).isNone = true ∧ (hostRead (hubState readPkt) (2 ^ 41) 1).isNone = true ∧
    isDebug (hubState (debugPkt 5 4 (2 ^ 41) 0)) 5 (debugPkt 5 4 (2 ^ 41) 0) = true ∧
    isDebug (hubState (debugPkt 6 4 0x3000 0)) 6 (debugPkt 6 4 0x3000 0) = true ∧
    (writeSpace (hubState (debugPkt 6 4 0x3000 0)) (debugBody (debugPkt 6 4 0x3000 0)) 0 [0]).isNone = true := by decide +kernel

/-- Ranges that end one byte behind their space. -/
theorem witness_debug_bounds : (getSlot (frozen readPkt 100) 0).thread.winLen * 4096 < (getSlot (frozen readPkt 100) 0).thread.winLen * 4096 + 1 ∧
    8192 < 8191 + 2 ∧ 512 < 511 + 2 ∧ 64 < 63 + 2 ∧ (debugBody (debugPkt 5 3 0 0)).space = 3 ∧ (debugBody (debugPkt 5 2 0 0)).space = 2 ∧
    transferLen (debugBody (longPkt 5)) = 4097 := by decide +kernel

/-- INJECT with a reserved bit; SAMPLE of exponents 7, 8, 20 and 21; TRACE at an address that no 64 KiB page begins at, of no unit and with
reserved bits; COUNTERS to host memory there is not. -/
theorem witness_debug_operands : isDebug (debugged (debugPkt 12 0 0 0x505) 100) 12 (debugPkt 12 0 0 0x505) = true ∧
    bits (debugBody (debugPkt 12 0 0 0x505)).operand 2 6 ≠ 0 ∧ isDebug (hubState (debugPkt 8 0 0 7)) 8 (debugPkt 8 0 0 7) = true ∧
    (debugBody (debugPkt 8 0 0 7)).operand < 8 ∧ 20 < (debugBody (debugPkt 8 0 0 21)).operand ∧
    8 ≤ (debugBody (debugPkt 8 0 0 8)).operand ∧ (debugBody (debugPkt 8 0 0 20)).operand ≤ 20 ∧ (debugBody (debugPkt 8 0 0 0)).operand = 0 ∧
    bits (debugBody (debugPkt 9 0 0 (0x8000 + 2 ^ 48))).operand 0 48 % 0x10000 ≠ 0 ∧ bits (debugBody (debugPkt 9 0 0 0x10000)).operand 48 8 = 0 ∧
    bits (debugBody (debugPkt 9 0 0 (0x10000 + 2 ^ 48 + 2 ^ 62))).operand 62 2 ≠ 0 ∧
    isDebug (hubState (debugPkt 9 0 0 0x10000)) 9 (debugPkt 9 0 0 0x10000) = true ∧
    (hostWrite (foldAll (hubState (debugPkt 10 0 (2 ^ 41) 0)) 0) (2 ^ 41) (List.replicate 64 0)).isNone = true ∧
    isDebug (hubState (debugPkt 10 0 (2 ^ 41) 0)) 10 (debugPkt 10 0 (2 ^ 41) 0) = true := by decide +kernel

/-- REPLAY of modes 0, 1 and 2, of mode 3, and with a log that no page begins at. -/
theorem witness_replay_modes : ReplayListed (debugBody (debugPkt 11 0 0x10000 0)).operand = true ∧
    ReplayListed (debugBody (debugPkt 11 0 0x10000 (1 + 0x100 * 2 ^ 8))).operand = true ∧
    ReplayListed (debugBody (debugPkt 11 0 0x10000 (2 + 0x100 * 2 ^ 8))).operand = true ∧
    ReplayListed (debugBody (debugPkt 11 0 0 3)).operand = false ∧ ReplayListed (debugBody (debugPkt 11 0 0x10000 (1 + 0x80 * 2 ^ 8))).operand = false ∧
    ReplayListed (debugBody (debugPkt 11 0 0x10000 (1 + 2 ^ 48))).operand = false ∧ (debugBody (debugPkt 11 0 0 0)).operand % 256 ≠ 2 ∧
    isDebug (hubState (debugPkt 11 0 0x10000 0)) 11 (debugPkt 11 0 0x10000 0) = true ∧
    isDebug (hubState (debugPkt 11 0 0x10000 (2 + 0x100 * 2 ^ 8))) 11 (debugPkt 11 0 0x10000 (2 + 0x100 * 2 ^ 8)) = true := by decide +kernel

/-- A boot starts from a package that is off, or that stopped at a step; a power limit out of range or not in steps. -/
theorem witness_boots : (powerState .off).pkg.power = .off ∧ (∃ a b, (powerState (.bootFailed 2 7)).pkg.power = .bootFailed a b) ∧
    (26 : Nat) % 25 ≠ 0 ∧ 2800 < 2825 ∧ attached State.reset = true ∧ (0x1000 : Nat) ≤ 0x1FF8 ∧ 0x1FF8 < 0x2000 :=
  ⟨by decide +kernel, ⟨2, 7, rfl⟩, by decide, by decide, by decide +kernel, by decide, by decide⟩

theorem witness_limits : LimitsOk (desc 1 0) ∧ ¬LimitsOk { desc 1 0 with number := 4096 } ∧ ¬LimitsOk { desc 1 0 with root := 2 ^ 43 } ∧
    ¬LimitsOk { desc 1 0 with pubmap := [(3, 0, 0x1000, 1, 2 ^ 43, true)] } ∧ ctxExists State.reset 5 = false := by decide +kernel

/-- Packets out of a poisoned buffer; a contribution that was lost on its way; an instance that a switch-in found incomplete. -/
def badPacket (typ w : Nat) (data : Word) : Packet := { aPacket typ 0x1000 w with bad := true, data := data }

theorem witness_lost : IsLost (badPacket 5 0 5) false ∧ ¬IsLost (badPacket 7 0 5) true ∧ IsLost { aPacket 5 0 0 with data := 2 * 2 ^ 32 } false ∧
    ¬IsLost (aPacket 5 0 0) false ∧ (badPacket 3 4 0).bad = true ∧ InRouter (routed (badPacket 3 4 0) id) 0 3 (badPacket 3 4 0) ∧
    InRouter (routed (badPacket 5 0 5) gathering) 0 5 (badPacket 5 0 5) ∧
    (2, false, 0) ∈ ({ gathering aJob with atStart := [(2, false, 0)] } : Job).atStart ∧ (2, false, 0) ∉ (gathering aJob).atStart ∧
    (0x100001234 : Word).toNat / 2 ^ 32 % 2 ^ 4 = 1 := by decide +kernel

/-- A result out of a poisoned router buffer; no other voice has issued in the cycle. -/
theorem witness_bad_instance : instanceFor (jobbed (turnOf .C) (fun j => { j with instances := [{ anInstance true with bad := true }] })) 0 [7] =
      some { anInstance true with bad := true } ∧
    othersIssued (jobbed (turnOf .C) (fun j => { j with instances := [{ anInstance true with bad := true }] })) ⟨0, .C, 0, false⟩ = false := by
  decide +kernel

/-- The window of a stopped slot, and a range at its end. -/
theorem witness_window_space : isStopped (frozen resumePkt 100) { debugBody resumePkt with space := 1 } = true ∧
    (getSlot (frozen resumePkt 100) (debugBody resumePkt).slot).thread.winLen * 4096 = 4190208 + 4096 := by decide +kernel

/-! ### Single steps, with results worked out by hand from the rules -/

/-- What a step's one pending result holds: register, low 64 bits, cycles until it lands. -/
def result (s : State) (o : Host.Outcome State Fault Refusal) : Option (RegId × Nat × Nat) :=
  match o with
  | .next t =>
    match (getArch t (hereOf s).k (hereOf s).v).pending with
    | [p] => some (p.reg, p.val.toNat % 2 ^ 64, p.due - s.now)
    | _ => none
  | _ => none

/-- The pending vector result whole. -/
def vector (s : State) (o : Host.Outcome State Fault Refusal) : Option Nat :=
  match o with
  | .next t => ((getArch t (hereOf s).k (hereOf s).v).pending.head?).map (fun p => p.val.toNat)
  | _ => none

/-- Voice C with s1 = -1, s2 = 2, s3 = the most negative number. -/
def scalars : State := withS (turnOf .C) [(1, 0xFFFFFFFFFFFFFFFF), (2, 2), (3, 0x8000000000000000)]

/-- Voice X0 with v1 all lanes 0x7FFFFFFF and v2 all lanes `b`. -/
def lanes (a b : Nat) : State :=
  withArch (turnOf .X0) (fun r => { r with vis := { r.vis with
    v := [(1, BitVec.ofNat 1024 ((List.range 32).foldl (fun x i => x + a * 2 ^ (32 * i)) 0)),
      (2, BitVec.ofNat 1024 ((List.range 32).foldl (fun x i => x + b * 2 ^ (32 * i)) 0))] } })

def every (x : Nat) : Nat := (List.range 32).foldl (fun n i => n + x * 2 ^ (32 * i)) 0

/-- R55: -1 + 2 wraps to 1, one cycle. -/
theorem test_add_wraps : result scalars (exec (.add 0 0 9 1 2) scalars) = some (.s 9, 1, 1) := by decide +kernel

/-- R55: 0 - 2. -/
theorem test_sub_borrows : result scalars (exec (.sub 0 0 9 0 2) scalars) = some (.s 9, 0xFFFFFFFFFFFFFFFE, 1) := by decide +kernel

/-- R50: the upper immediate is sign-extended. -/
theorem test_lui_sign : result scalars (exec (.lui 0 9 0x80000) scalars) = some (.s 9, 0xFFFFFFFF80000000, 1) := by decide +kernel

/-- R52: the immediate is sign-extended. -/
theorem test_addi_sign : result scalars (exec (.addi 0 0 9 2 0xFFF) scalars) = some (.s 9, 1, 1) := by decide +kernel

/-- R53: an arithmetic shift by 63 of the most negative number is -1. -/
theorem test_srai_sign : result scalars (exec (.srai 0 0 9 3 63) scalars) = some (.s 9, 0xFFFFFFFFFFFFFFFF, 1) := by decide +kernel

/-- R55: a rotation by 2 of the sign bit. -/
theorem test_rol_wraps : result scalars (exec (.rol 0 0 9 3 2) scalars) = some (.s 9, 2, 1) := by decide +kernel

/-- R55: the high halves of -1 × 2, signed and unsigned, three cycles. -/
theorem test_mulh : result scalars (exec (.mulh 0 0 9 1 2) scalars) = some (.s 9, 0xFFFFFFFFFFFFFFFF, 3) ∧
    result scalars (exec (.mulhn 0 0 9 1 2) scalars) = some (.s 9, 1, 3) := by decide +kernel

/-- R55: CLZ of zero and of 2, POPC of -1. -/
theorem test_counts : result scalars (exec (.clz 0 0 9 0) scalars) = some (.s 9, 64, 1) ∧
    result scalars (exec (.clz 0 0 9 2) scalars) = some (.s 9, 62, 1) ∧
    result scalars (exec (.popc 0 0 9 1) scalars) = some (.s 9, 64, 1) := by decide +kernel

/-- R55: SEXT of a byte of ones, ZEXT of a halfword of ones. -/
theorem test_extensions : result scalars (exec (.sext 0 0 9 1 0) scalars) = some (.s 9, 0xFFFFFFFFFFFFFFFF, 1) ∧
    result scalars (exec (.zext 0 0 9 1 1) scalars) = some (.s 9, 0xFFFF, 1) := by decide +kernel

/-- R56: -1 < 2 signed, not unsigned. -/
theorem test_compares : result scalars (exec (.cmplt 0 0 5 1 2) scalars) = some (.p 5, 1, 1) ∧
    result scalars (exec (.cmpltn 0 0 5 1 2) scalars) = some (.p 5, 0, 1) := by decide +kernel

/-- R14: a result for s0 is dropped. -/
theorem test_constant_destination : after (exec (.addi 0 0 0 2 1) scalars) (fun t => decide ((getArch t 0 .C).pending = []) &&
    decide ((getArch t 0 .C).na0.addr = 4)) = true := by decide +kernel

/-- R21: after a word the chain advances by one. -/
theorem test_chain : after (exec (.add 0 0 9 1 2) scalars) (fun t => decide ((getArch t 0 .C).na0.addr = 4) &&
    decide ((getArch t 0 .C).na1.addr = 8) && decide ((getArch t 0 .C).na2.addr = 12)) = true := by decide +kernel

/-- R59: a taken branch of +5 words at address 0 has two delay slots. -/
theorem test_branch : after (exec (.br 0 0 5) scalars) (fun t => decide ((getArch t 0 .C).na0.addr = 4) &&
    decide ((getArch t 0 .C).na1.addr = 8) && decide ((getArch t 0 .C).na2.addr = 20)) = true := by decide +kernel

/-- R106: I32 lanes wrap. -/
theorem test_vadd_wraps : vector (lanes 0x7FFFFFFF 1) (exec (.vaddI32 0 0 0 3 1 2 0) (lanes 0x7FFFFFFF 1)) = some (every 0x80000000) := by
  decide +kernel

/-- R111: 1.0 + 2^-24 is a tie, to even 1.0. -/
theorem test_vadd_ties : vector (lanes 0x3F800000 0x33800000) (exec (.vaddF32 0 0 0 3 1 2 0) (lanes 0x3F800000 0x33800000)) =
    some (every 0x3F800000) := by decide +kernel

/-- R105, R111: infinity less infinity is the quiet NaN. -/
theorem test_vsub_invalid : vector (lanes 0x7F800000 0x7F800000) (exec (.vsubF32 0 0 0 3 1 2 0) (lanes 0x7F800000 0x7F800000)) =
    some (every 0x7FC00000) := by decide +kernel

/-- R104, R111: 2^-126 × 0.5 is the subnormal 2^-127. -/
theorem test_vmul_subnormal : vector (lanes 0x00800000 0x3F000000) (exec (.vmulF32 0 0 0 3 1 2 0) (lanes 0x00800000 0x3F000000)) =
    some (every 0x00400000) := by decide +kernel

/-- R57: FLIP exchanges what was written: vis(s9) takes hid's 7. -/
theorem test_flip : after (exec (.flip 0 0) (withArch (turnOf .C) (fun r => { r with hid := { r.hid with s := [(9, 7)] }, w := 2 ^ 9 })))
    (fun t => decide (visS (getArch t 0 .C) 9 = 7) && decide ((getArch t 0 .C).w = 0)) = true := by decide +kernel

/-- R46: a word of major 0x3F is ILLEGAL, which stops its thread. -/
theorem test_illegal_word : (match step (placed .C 0x7E000000) with | .next t => decide ((getSlot t 0).run = .stopping) | _ => false) = true := by
  decide +kernel

/-! ### Words written out bit by bit from the encoding table -/

theorem test_words_01 :
    decodeWord (1#1 ++ 1#6 ++ 0x16#5 ++ 0x54CDA#20) = some (.lui 1 0x16 0x54CDA) := by decide

theorem test_words_02 :
    decodeWord (0#1 ++ 2#6 ++ 3#5 ++ 0xA99B4#20) = some (.lapc 0 3 0xA99B4) := by decide

theorem test_words_03 :
    decodeWord (1#1 ++ 3#6 ++ 3#3 ++ 9#5 ++ 1#5 ++ 0x475#12) = some (.addi 1 3 9 1 0x475) := by decide

theorem test_words_04 :
    decodeWord (0#1 ++ 4#6 ++ 3#3 ++ 9#5 ++ 2#5 ++ 0xF36#12) = some (.andi 0 3 9 2 0xF36) := by decide

theorem test_words_05 :
    decodeWord (1#1 ++ 5#6 ++ 4#3 ++ 9#5 ++ 3#5 ++ 0x9F7#12) = some (.ori 1 4 9 3 0x9F7) := by decide

theorem test_words_06 :
    decodeWord (0#1 ++ 6#6 ++ 5#3 ++ 9#5 ++ 4#5 ++ 0x4B7#12) = some (.xori 0 5 9 4 0x4B7) := by decide

theorem test_words_07 :
    decodeWord (1#1 ++ 7#6 ++ 6#3 ++ 9#5 ++ 5#5 ++ 0#6 ++ 0x38#6) = some (.shli 1 6 9 5 0x38) ∧
    decodeWord (0#1 ++ 7#6 ++ 7#3 ++ 9#5 ++ 6#5 ++ 0x10#6 ++ 0x39#6) = some (.shri 0 7 9 6 0x39) ∧
    decodeWord (1#1 ++ 7#6 ++ 0#3 ++ 9#5 ++ 7#5 ++ 0x20#6 ++ 0x3A#6) = some (.srai 1 0 9 7 0x3A) ∧
    decodeWord (0#1 ++ 7#6 ++ 1#3 ++ 9#5 ++ 8#5 ++ 0x30#6 ++ 0x3B#6) = some (.roli 0 1 9 8 0x3B) := by decide

theorem test_words_08 :
    decodeWord (1#1 ++ 8#6 ++ 2#3 ++ 0#2 ++ 5#3 ++ 9#5 ++ 0#2 ++ 0x27C#10) = some (.cmpeqi 1 2 5 9 0x27C) ∧
    decodeWord (0#1 ++ 8#6 ++ 3#3 ++ 0#2 ++ 6#3 ++ 0xA#5 ++ 1#2 ++ 0x13D#10) = some (.cmplti 0 3 6 0xA 0x13D) ∧
    decodeWord (1#1 ++ 8#6 ++ 4#3 ++ 0#2 ++ 7#3 ++ 0xA#5 ++ 2#2 ++ 0x3FE#10) = some (.cmpltni 1 4 7 0xA 0x3FE) := by decide

theorem test_words_09a :
    decodeWord (0#1 ++ 9#6 ++ 5#3 ++ 9#5 ++ 0xB#5 ++ 0x1F#5 ++ 0#7) = some (.add 0 5 9 0xB 0x1F) ∧
    decodeWord (1#1 ++ 9#6 ++ 6#3 ++ 9#5 ++ 0xC#5 ++ 0#5 ++ 1#7) = some (.sub 1 6 9 0xC 0) ∧
    decodeWord (0#1 ++ 9#6 ++ 6#3 ++ 9#5 ++ 0xD#5 ++ 1#5 ++ 2#7) = some (.and 0 6 9 0xD 1) ∧
    decodeWord (1#1 ++ 9#6 ++ 7#3 ++ 9#5 ++ 0xE#5 ++ 2#5 ++ 3#7) = some (.or 1 7 9 0xE 2) ∧
    decodeWord (0#1 ++ 9#6 ++ 0#3 ++ 9#5 ++ 0xF#5 ++ 2#5 ++ 4#7) = some (.xor 0 0 9 0xF 2) ∧
    decodeWord (1#1 ++ 9#6 ++ 1#3 ++ 9#5 ++ 0x10#5 ++ 3#5 ++ 5#7) = some (.andn 1 1 9 0x10 3) ∧
    decodeWord (0#1 ++ 9#6 ++ 2#3 ++ 9#5 ++ 0x11#5 ++ 4#5 ++ 6#7) = some (.shl 0 2 9 0x11 4) ∧
    decodeWord (1#1 ++ 9#6 ++ 3#3 ++ 9#5 ++ 0x12#5 ++ 5#5 ++ 7#7) = some (.shr 1 3 9 0x12 5) := by decide

theorem test_words_09b :
    decodeWord (0#1 ++ 9#6 ++ 4#3 ++ 9#5 ++ 0x13#5 ++ 6#5 ++ 8#7) = some (.sra 0 4 9 0x13 6) ∧
    decodeWord (1#1 ++ 9#6 ++ 5#3 ++ 9#5 ++ 0x14#5 ++ 7#5 ++ 9#7) = some (.rol 1 5 9 0x14 7) ∧
    decodeWord (0#1 ++ 9#6 ++ 6#3 ++ 9#5 ++ 0x15#5 ++ 8#5 ++ 0xA#7) = some (.min 0 6 9 0x15 8) ∧
    decodeWord (1#1 ++ 9#6 ++ 7#3 ++ 9#5 ++ 0x15#5 ++ 9#5 ++ 0xB#7) = some (.max 1 7 9 0x15 9) ∧
    decodeWord (0#1 ++ 9#6 ++ 0#3 ++ 9#5 ++ 0x16#5 ++ 0xA#5 ++ 0xC#7) = some (.minn 0 0 9 0x16 0xA) ∧
    decodeWord (1#1 ++ 9#6 ++ 1#3 ++ 9#5 ++ 0x17#5 ++ 0xB#5 ++ 0xD#7) = some (.maxn 1 1 9 0x17 0xB) ∧
    decodeWord (0#1 ++ 9#6 ++ 1#3 ++ 9#5 ++ 0x18#5 ++ 0xC#5 ++ 0xE#7) = some (.mul 0 1 9 0x18 0xC) ∧
    decodeWord (1#1 ++ 9#6 ++ 2#3 ++ 9#5 ++ 0x19#5 ++ 0xC#5 ++ 0xF#7) = some (.mulh 1 2 9 0x19 0xC) := by decide

theorem test_words_09c :
    decodeWord (0#1 ++ 9#6 ++ 3#3 ++ 9#5 ++ 0x1A#5 ++ 0xD#5 ++ 0x10#7) = some (.mulhn 0 3 9 0x1A 0xD) ∧
    decodeWord (1#1 ++ 9#6 ++ 4#3 ++ 9#5 ++ 0x1B#5 ++ 0x11#12) = some (.clz 1 4 9 0x1B) ∧
    decodeWord (1#1 ++ 9#6 ++ 2#3 ++ 0x1A#5 ++ 8#5 ++ 0x12#12) = some (.popc 1 2 0x1A 8) ∧
    decodeWord (1#1 ++ 9#6 ++ 7#3 ++ 0x16#5 ++ 0x16#5 ++ 0#3 ++ 2#2 ++ 0x13#7) = some (.sext 1 7 0x16 0x16 2) ∧
    decodeWord (0#1 ++ 9#6 ++ 0#3 ++ 0x16#5 ++ 0x17#5 ++ 0#3 ++ 1#2 ++ 0x14#7) = some (.zext 0 0 0x16 0x17 1) ∧
    decodeWord (1#1 ++ 9#6 ++ 1#3 ++ 0x16#5 ++ 0x18#5 ++ 0xB#5 ++ 0x15#7) = some (.sel 1 1 0x16 0x18 0xB) := by decide

theorem test_words_0Aa :
    decodeWord (0#1 ++ 0xA#6 ++ 2#3 ++ 0#2 ++ 5#3 ++ 0x19#5 ++ 0xC#5 ++ 0#7) = some (.cmpeq 0 2 5 0x19 0xC) ∧
    decodeWord (1#1 ++ 0xA#6 ++ 3#3 ++ 0#2 ++ 6#3 ++ 0x1A#5 ++ 0xD#5 ++ 1#7) = some (.cmpne 1 3 6 0x1A 0xD) ∧
    decodeWord (0#1 ++ 0xA#6 ++ 4#3 ++ 0#2 ++ 7#3 ++ 0x1B#5 ++ 0xE#5 ++ 2#7) = some (.cmplt 0 4 7 0x1B 0xE) ∧
    decodeWord (1#1 ++ 0xA#6 ++ 5#3 ++ 0#2 ++ 0#3 ++ 0x1B#5 ++ 0xF#5 ++ 3#7) = some (.cmple 1 5 0 0x1B 0xF) ∧
    decodeWord (0#1 ++ 0xA#6 ++ 6#3 ++ 0#2 ++ 1#3 ++ 0x1C#5 ++ 0x10#5 ++ 4#7) = some (.cmpltn 0 6 1 0x1C 0x10) ∧
    decodeWord (1#1 ++ 0xA#6 ++ 7#3 ++ 0#2 ++ 2#3 ++ 0x1D#5 ++ 0x11#5 ++ 5#7) = some (.cmplen 1 7 2 0x1D 0x11) ∧
    decodeWord (0#1 ++ 0xA#6 ++ 7#3 ++ 0#2 ++ 3#3 ++ 0#2 ++ 6#3 ++ 0#2 ++ 2#3 ++ 8#7) = some (.pand 0 7 3 6 2) ∧
    decodeWord (1#1 ++ 0xA#6 ++ 0#3 ++ 0#2 ++ 4#3 ++ 0#2 ++ 7#3 ++ 0#2 ++ 3#3 ++ 9#7) = some (.por 1 0 4 7 3) := by decide

theorem test_words_0Ab :
    decodeWord (0#1 ++ 0xA#6 ++ 1#3 ++ 0#2 ++ 5#3 ++ 0#2 ++ 0#3 ++ 0#2 ++ 3#3 ++ 0xA#7) = some (.pxor 0 1 5 0 3) ∧
    decodeWord (1#1 ++ 0xA#6 ++ 2#3 ++ 0#2 ++ 6#3 ++ 0#2 ++ 1#3 ++ 0xB#12) = some (.pnot 1 2 6 1) := by decide

theorem test_words_0B :
    decodeWord (1#1 ++ 0xB#6 ++ 0#3 ++ 0#2 ++ 0xBC81B#20) = some (.br 1 0 0xBC81B) ∧
    decodeWord (0#1 ++ 0xB#6 ++ 2#3 ++ 1#2 ++ 0x114F5#20) = some (.brn 0 2 0x114F5) ∧
    decodeWord (1#1 ++ 0xB#6 ++ 4#3 ++ 2#2 ++ 0x661CF#20) = some (.brt 1 4 0x661CF) := by decide

theorem test_words_0C :
    decodeWord (0#1 ++ 0xC#6 ++ 6#3 ++ 0#2 ++ 0xBAEAA#20) = some (.call 0 6 0xBAEAA) := by decide

theorem test_words_0D :
    decodeWord (1#1 ++ 0xD#6 ++ 0#3 ++ 0#5 ++ 4#5 ++ 0#2 ++ 0x277#10) = some (.jr 1 0 4 0x277) ∧
    decodeWord (1#1 ++ 0xD#6 ++ 6#3 ++ 0x16#5 ++ 5#5 ++ 1#2 ++ 0x138#10) = some (.jtb 1 6 0x16 5 0x138) := by decide

theorem test_words_0E :
    decodeWord (0#1 ++ 0xE#6 ++ 7#3 ++ 0#5 ++ 0x12#5 ++ 0x106#12) = some (.loop 0 7 0x12 0x106) := by decide

theorem test_words_0F :
    decodeWord (0#1 ++ 0xF#6 ++ 4#3 ++ 0#22) = some (.flip 0 4) ∧
    decodeWord (0#1 ++ 0xF#6 ++ 3#3 ++ 5#5 ++ 9#5 ++ 2#5 ++ 1#7) = some (.rdh 0 3 5 9 2) ∧
    decodeWord (1#1 ++ 0xF#6 ++ 4#3 ++ 0#3 ++ 3#2 ++ 0#7 ++ 3#3 ++ 2#7) = some (.spost 1 4 3 3) ∧
    decodeWord (1#1 ++ 0xF#6 ++ 2#3 ++ 0#12 ++ 5#3 ++ 3#7) = some (.swait 1 2 5) ∧
    decodeWord (0#1 ++ 0xF#6 ++ 4#3 ++ 0#3 ++ 3#2 ++ 0#2 ++ 2#3 ++ 4#12) = some (.bqput 0 4 3 2) ∧
    decodeWord (0#1 ++ 0xF#6 ++ 1#3 ++ 5#22) = some (.nop 0 1) ∧
    decodeWord (0#1 ++ 0xF#6 ++ 0#3 ++ 6#22) = some (.exit 0 0) := by decide

theorem test_words_10 :
    decodeWord (0#1 ++ 0x200#11 ++ 0x7B7D7#20) = some (.bqbr 0 0x7B7D7) ∧
    decodeWord (0#1 ++ 0x201#11 ++ 0x95BD#20) = some (.bqbrn 0 0x95BD) ∧
    decodeWord (0#1 ++ 0x202#11 ++ 0x973A4#20) = some (.bqbrt 0 0x973A4) := by decide

theorem test_words_11 :
    decodeWord (0#1 ++ 0x11#6 ++ 3#3 ++ 0#5 ++ 0x7E#10 ++ 0#7) = some (.trap 0 3 0x7E) ∧
    decodeWord (1#1 ++ 0x11#6 ++ 5#3 ++ 1#22) = some (.eret 1 5) ∧
    decodeWord (1#1 ++ 0x11#6 ++ 4#3 ++ 9#5 ++ 0x13#10 ++ 2#7) = some (.srd 1 4 9 0x13) ∧
    decodeWord (1#1 ++ 0x11#6 ++ 1#3 ++ 0x1A#5 ++ 0x18#10 ++ 3#7) = some (.swr 1 1 0x1A 0x18) := by decide

theorem test_words_14 :
    decodeWord (1#1 ++ 0x14#6 ++ 6#3 ++ 9#5 ++ 0x15#5 ++ 0#2 ++ 1#1 ++ 0x8F#9) = some (.lds 1 6 9 0x15 0 1 0x8F) := by decide

theorem test_words_15 :
    decodeWord (0#1 ++ 0x15#6 ++ 5#3 ++ 0x11#5 ++ 0x1C#5 ++ 0#2 ++ 1#1 ++ 0x136#9) = some (.sts 0 5 0x11 0x1C 0 1 0x136) := by decide

theorem test_words_16 :
    decodeWord (1#1 ++ 0x16#6 ++ 5#3 ++ 0#3 ++ 0#2 ++ 4#5 ++ 0#2 ++ 1#1 ++ 0xEB#9) = some (.ldq 1 5 0 4 1 0xEB) := by decide

theorem test_words_17 :
    decodeWord (1#1 ++ 0x17#6 ++ 1#3 ++ 0#4 ++ 1#1 ++ 0x18#5 ++ 0#2 ++ 0#1 ++ 0x9F#9) = some (.stq 1 1 1 0x18 0 0x9F) := by decide

theorem test_words_18 :
    decodeWord (1#1 ++ 0x18#6 ++ 6#3 ++ 0#3 ++ 1#2 ++ 0xC#5 ++ 0#12) = some (.qpush 1 6 1 0xC) ∧
    decodeWord (1#1 ++ 0x18#6 ++ 3#3 ++ 0#3 ++ 3#2 ++ 0#4 ++ 0#1 ++ 0x80#12) = some (.qpushSq 1 3 3 0) ∧
    decodeWord (1#1 ++ 0x18#6 ++ 1#3 ++ 0#2 ++ 4#3 ++ 8#5 ++ 4#5 ++ 1#7) = some (.sbind 1 1 4 8 4) ∧
    decodeWord (0#1 ++ 0x18#6 ++ 2#3 ++ 0#2 ++ 5#3 ++ 2#17) = some (.sunbind 0 2 5) ∧
    decodeWord (1#1 ++ 0x18#6 ++ 4#3 ++ 0x11#5 ++ 0#2 ++ 3#3 ++ 3#12) = some (.spos 1 4 0x11 3) ∧
    decodeWord (1#1 ++ 0x18#6 ++ 1#3 ++ 3#5 ++ 0#2 ++ 0#3 ++ 4#12) = some (.lbqry 1 1 3 0) ∧
    decodeWord (1#1 ++ 0x18#6 ++ 7#3 ++ 9#5 ++ 0#2 ++ 6#3 ++ 5#12) = some (.commit 1 7 9 6) := by decide

theorem test_words_19a :
    decodeWord (1#1 ++ 0x19#6 ++ 0#1 ++ 0#3 ++ 9#5 ++ 0x1F#5 ++ 0x12#5 ++ 1#1 ++ 0#5) = some (.vaddI32 1 0 0 9 0x1F 0x12 1) ∧
    decodeWord (0#1 ++ 0x19#6 ++ 0#1 ++ 7#3 ++ 0x11#5 ++ 6#5 ++ 0x1A#5 ++ 0#1 ++ 1#5) = some (.vsubI32 0 0 7 0x11 6 0x1A 0) ∧
    decodeWord (1#1 ++ 0x19#6 ++ 0#1 ++ 7#3 ++ 0x1A#5 ++ 0xE#5 ++ 1#5 ++ 1#1 ++ 2#5) = some (.vmulI32 1 0 7 0x1A 0xE 1 1) ∧
    decodeWord (0#1 ++ 0x19#6 ++ 1#1 ++ 7#3 ++ 3#5 ++ 0x16#5 ++ 9#5 ++ 0#1 ++ 3#5) = some (.vmulhI32 0 1 7 3 0x16 9 0) ∧
    decodeWord (1#1 ++ 0x19#6 ++ 1#1 ++ 7#3 ++ 0x16#5 ++ 0x1D#5 ++ 0x11#5 ++ 1#1 ++ 4#5) = some (.vmulhnI32 1 1 7 0x16 0x1D 0x11 1) ∧
    decodeWord (0#1 ++ 0x19#6 ++ 1#1 ++ 6#3 ++ 9#5 ++ 5#5 ++ 0x18#5 ++ 0#1 ++ 5#5) = some (.vminI32 0 1 6 9 5 0x18 0) ∧
    decodeWord (1#1 ++ 0x19#6 ++ 1#1 ++ 6#3 ++ 0x11#5 ++ 0xD#5 ++ 0#5 ++ 1#1 ++ 6#5) = some (.vmaxI32 1 1 6 0x11 0xD 0 1) ∧
    decodeWord (0#1 ++ 0x19#6 ++ 0#1 ++ 6#3 ++ 0x1A#5 ++ 0x14#5 ++ 8#5 ++ 0#1 ++ 7#5) = some (.vminnI32 0 0 6 0x1A 0x14 8 0) := by decide

theorem test_words_19b :
    decodeWord (1#1 ++ 0x19#6 ++ 0#1 ++ 5#3 ++ 3#5 ++ 0x1C#5 ++ 0xF#5 ++ 1#1 ++ 8#5) = some (.vmaxnI32 1 0 5 3 0x1C 0xF 1) ∧
    decodeWord (0#1 ++ 0x19#6 ++ 0#1 ++ 5#3 ++ 0x16#5 ++ 4#5 ++ 0x17#5 ++ 0#1 ++ 9#5) = some (.vandI32 0 0 5 0x16 4 0x17 0) ∧
    decodeWord (1#1 ++ 0x19#6 ++ 1#1 ++ 5#3 ++ 9#5 ++ 0xB#5 ++ 0x1F#5 ++ 1#1 ++ 0xA#5) = some (.vorI32 1 1 5 9 0xB 0x1F 1) ∧
    decodeWord (0#1 ++ 0x19#6 ++ 1#1 ++ 4#3 ++ 0x11#5 ++ 0x13#5 ++ 6#5 ++ 0#1 ++ 0xB#5) = some (.vxorI32 0 1 4 0x11 0x13 6 0) ∧
    decodeWord (1#1 ++ 0x19#6 ++ 1#1 ++ 4#3 ++ 0x1A#5 ++ 0x1B#5 ++ 0xE#5 ++ 1#1 ++ 0xC#5) = some (.vshlI32 1 1 4 0x1A 0x1B 0xE 1) ∧
    decodeWord (0#1 ++ 0x19#6 ++ 0#1 ++ 4#3 ++ 3#5 ++ 2#5 ++ 0x16#5 ++ 0#1 ++ 0xD#5) = some (.vshrI32 0 0 4 3 2 0x16 0) ∧
    decodeWord (1#1 ++ 0x19#6 ++ 0#1 ++ 3#3 ++ 0x16#5 ++ 0xA#5 ++ 0x1D#5 ++ 1#1 ++ 0xE#5) = some (.vsraI32 1 0 3 0x16 0xA 0x1D 1) ∧
    decodeWord (0#1 ++ 0x19#6 ++ 0#1 ++ 3#3 ++ 0#2 ++ 6#3 ++ 0x12#5 ++ 5#5 ++ 0#1 ++ 0xF#5) = some (.vcmpeqI32 0 0 3 6 0x12 5 0) := by decide

theorem test_words_19c :
    decodeWord (1#1 ++ 0x19#6 ++ 1#1 ++ 3#3 ++ 0#2 ++ 6#3 ++ 0x19#5 ++ 0xD#5 ++ 1#1 ++ 0x10#5) = some (.vcmpltI32 1 1 3 6 0x19 0xD 1) ∧
    decodeWord (0#1 ++ 0x19#6 ++ 1#1 ++ 2#3 ++ 0#2 ++ 6#3 ++ 1#5 ++ 0x15#5 ++ 0#1 ++ 0x11#5) = some (.vcmpltnI32 0 1 2 6 1 0x15 0) ∧
    decodeWord (1#1 ++ 0x19#6 ++ 1#1 ++ 2#3 ++ 3#5 ++ 9#5 ++ 0x1C#5 ++ 1#1 ++ 0x12#5) = some (.vsel 1 1 2 3 9 0x1C 1) := by decide

theorem test_words_1Aa :
    decodeWord (0#1 ++ 0x1A#6 ++ 0#1 ++ 2#3 ++ 0x16#5 ++ 0x10#5 ++ 4#5 ++ 0#1 ++ 0#5) = some (.vaddF32 0 0 2 0x16 0x10 4 0) ∧
    decodeWord (1#1 ++ 0x1A#6 ++ 0#1 ++ 1#3 ++ 9#5 ++ 0x18#5 ++ 0xC#5 ++ 1#1 ++ 1#5) = some (.vsubF32 1 0 1 9 0x18 0xC 1) ∧
    decodeWord (0#1 ++ 0x1A#6 ++ 0#1 ++ 1#3 ++ 0x11#5 ++ 0#5 ++ 0x13#5 ++ 0#1 ++ 2#5) = some (.vmulF32 0 0 1 0x11 0 0x13 0) ∧
    decodeWord (1#1 ++ 0x1A#6 ++ 1#1 ++ 1#3 ++ 0x1A#5 ++ 8#5 ++ 0x1B#5 ++ 1#1 ++ 3#5) = some (.vminF32 1 1 1 0x1A 8 0x1B 1) ∧
    decodeWord (0#1 ++ 0x1A#6 ++ 1#1 ++ 0#3 ++ 3#5 ++ 0xF#5 ++ 3#5 ++ 0#1 ++ 4#5) = some (.vmaxF32 0 1 0 3 0xF 3 0) ∧
    decodeWord (1#1 ++ 0x1A#6 ++ 1#1 ++ 0#3 ++ 0x16#5 ++ 0x17#5 ++ 0#5 ++ 0#1 ++ 5#5) = some (.vabsF32 1 1 0 0x16 0x17 0) ∧
    decodeWord (1#1 ++ 0x1A#6 ++ 1#1 ++ 4#3 ++ 0x1A#5 ++ 0xB#5 ++ 0#5 ++ 0#1 ++ 6#5) = some (.vnegF32 1 1 4 0x1A 0xB 0) ∧
    decodeWord (1#1 ++ 0x1A#6 ++ 1#1 ++ 1#3 ++ 0#2 ++ 4#3 ++ 0x1F#5 ++ 0x13#5 ++ 1#1 ++ 7#5) = some (.vcmpeqF32 1 1 1 4 0x1F 0x13 1) := by decide

theorem test_words_1Ab :
    decodeWord (0#1 ++ 0x1A#6 ++ 1#1 ++ 0#3 ++ 0#2 ++ 4#3 ++ 7#5 ++ 0x1B#5 ++ 0#1 ++ 8#5) = some (.vcmpltF32 0 1 0 4 7 0x1B 0) ∧
    decodeWord (1#1 ++ 0x1A#6 ++ 1#1 ++ 0#3 ++ 0#2 ++ 3#3 ++ 0xF#5 ++ 2#5 ++ 1#1 ++ 9#5) = some (.vcmpleF32 1 1 0 3 0xF 2 1) := by decide

theorem test_words_1Ba :
    decodeWord (0#1 ++ 0x1B#6 ++ 0#1 ++ 0#3 ++ 3#5 ++ 0x17#5 ++ 0xA#5 ++ 0#1 ++ 0#5) = some (.vaddF16 0 0 0 3 0x17 0xA 0) ∧
    decodeWord (1#1 ++ 0x1B#6 ++ 0#1 ++ 7#3 ++ 0x16#5 ++ 0x1E#5 ++ 0x12#5 ++ 1#1 ++ 1#5) = some (.vsubF16 1 0 7 0x16 0x1E 0x12 1) ∧
    decodeWord (0#1 ++ 0x1B#6 ++ 0#1 ++ 7#3 ++ 9#5 ++ 6#5 ++ 0x19#5 ++ 0#1 ++ 2#5) = some (.vmulF16 0 0 7 9 6 0x19 0) ∧
    decodeWord (1#1 ++ 0x1B#6 ++ 1#1 ++ 7#3 ++ 0x11#5 ++ 0xE#5 ++ 1#5 ++ 1#1 ++ 3#5) = some (.vminF16 1 1 7 0x11 0xE 1 1) ∧
    decodeWord (0#1 ++ 0x1B#6 ++ 1#1 ++ 6#3 ++ 0x1A#5 ++ 0x15#5 ++ 9#5 ++ 0#1 ++ 4#5) = some (.vmaxF16 0 1 6 0x1A 0x15 9 0) ∧
    decodeWord (1#1 ++ 0x1B#6 ++ 1#1 ++ 6#3 ++ 3#5 ++ 0x1D#5 ++ 0#5 ++ 0#1 ++ 5#5) = some (.vabsF16 1 1 6 3 0x1D 0) ∧
    decodeWord (1#1 ++ 0x1B#6 ++ 1#1 ++ 2#3 ++ 0x11#5 ++ 0x11#5 ++ 0#5 ++ 0#1 ++ 6#5) = some (.vnegF16 1 1 2 0x11 0x11 0) ∧
    decodeWord (1#1 ++ 0x1B#6 ++ 1#1 ++ 7#3 ++ 0#2 ++ 2#3 ++ 6#5 ++ 0x19#5 ++ 1#1 ++ 7#5) = some (.vcmpeqF16 1 1 7 2 6 0x19 1) := by decide

theorem test_words_1Bb :
    decodeWord (0#1 ++ 0x1B#6 ++ 1#1 ++ 6#3 ++ 0#2 ++ 2#3 ++ 0xD#5 ++ 1#5 ++ 0#1 ++ 8#5) = some (.vcmpltF16 0 1 6 2 0xD 1 0) ∧
    decodeWord (1#1 ++ 0x1B#6 ++ 1#1 ++ 6#3 ++ 0#2 ++ 1#3 ++ 0x15#5 ++ 8#5 ++ 1#1 ++ 9#5) = some (.vcmpleF16 1 1 6 1 0x15 8 1) := by decide

theorem test_words_1Ca :
    decodeWord (0#1 ++ 0x1C#6 ++ 0#1 ++ 6#3 ++ 0x1A#5 ++ 0x1D#5 ++ 0x10#5 ++ 0#1 ++ 0#5) = some (.vaddBf16 0 0 6 0x1A 0x1D 0x10 0) ∧
    decodeWord (1#1 ++ 0x1C#6 ++ 0#1 ++ 5#3 ++ 3#5 ++ 4#5 ++ 0x18#5 ++ 1#1 ++ 1#5) = some (.vsubBf16 1 0 5 3 4 0x18 1) ∧
    decodeWord (0#1 ++ 0x1C#6 ++ 0#1 ++ 5#3 ++ 0x16#5 ++ 0xC#5 ++ 0x1F#5 ++ 0#1 ++ 2#5) = some (.vmulBf16 0 0 5 0x16 0xC 0x1F 0) ∧
    decodeWord (1#1 ++ 0x1C#6 ++ 1#1 ++ 5#3 ++ 9#5 ++ 0x14#5 ++ 7#5 ++ 1#1 ++ 3#5) = some (.vminBf16 1 1 5 9 0x14 7 1) ∧
    decodeWord (0#1 ++ 0x1C#6 ++ 1#1 ++ 5#3 ++ 0x11#5 ++ 0x1B#5 ++ 0xF#5 ++ 0#1 ++ 4#5) = some (.vmaxBf16 0 1 5 0x11 0x1B 0xF 0) ∧
    decodeWord (1#1 ++ 0x1C#6 ++ 1#1 ++ 4#3 ++ 0x1A#5 ++ 3#5 ++ 0#5 ++ 0#1 ++ 5#5) = some (.vabsBf16 1 1 4 0x1A 3 0) ∧
    decodeWord (1#1 ++ 0x1C#6 ++ 1#1 ++ 0#3 ++ 9#5 ++ 0x17#5 ++ 0#5 ++ 0#1 ++ 6#5) = some (.vnegBf16 1 1 0 9 0x17 0) ∧
    decodeWord (1#1 ++ 0x1C#6 ++ 1#1 ++ 5#3 ++ 0#2 ++ 0#3 ++ 0xC#5 ++ 0x1F#5 ++ 1#1 ++ 7#5) = some (.vcmpeqBf16 1 1 5 0 0xC 0x1F 1) := by decide

theorem test_words_1Cb :
    decodeWord (0#1 ++ 0x1C#6 ++ 1#1 ++ 4#3 ++ 0#2 ++ 0#3 ++ 0x13#5 ++ 7#5 ++ 0#1 ++ 8#5) = some (.vcmpltBf16 0 1 4 0 0x13 7 0) ∧
    decodeWord (1#1 ++ 0x1C#6 ++ 1#1 ++ 4#3 ++ 0#2 ++ 0#3 ++ 0x1B#5 ++ 0xE#5 ++ 1#1 ++ 9#5) = some (.vcmpleBf16 1 1 4 0 0x1B 0xE 1) := by decide

theorem test_words_1D :
    decodeWord (0#1 ++ 0x1D#6 ++ 0#1 ++ 4#3 ++ 0x11#5 ++ 3#5 ++ 0x16#5 ++ 9#5 ++ 1#1) = some (.vfmaF32 0 0 4 0x11 3 0x16 9 1) := by decide

theorem test_words_1E :
    decodeWord (0#1 ++ 0x1E#6 ++ 1#1 ++ 7#3 ++ 9#5 ++ 0x1E#5 ++ 0x11#5 ++ 4#5 ++ 1#1) = some (.vfmsF32 0 1 7 9 0x1E 0x11 4 1) := by decide

theorem test_words_1F :
    decodeWord (0#1 ++ 0x1F#6 ++ 1#1 ++ 2#3 ++ 0x16#5 ++ 0x19#5 ++ 0xC#5 ++ 0x1F#5 ++ 1#1) = some (.vfmaBf16 0 1 2 0x16 0x19 0xC 0x1F 1) := by decide

theorem test_words_20 :
    decodeWord (0#1 ++ 0x20#6 ++ 0#1 ++ 5#3 ++ 3#5 ++ 0x14#5 ++ 7#5 ++ 0x1B#5 ++ 1#1) = some (.vfmaF16 0 0 5 3 0x14 7 0x1B 1) := by decide

theorem test_words_21a :
    decodeWord (0#1 ++ 0x21#6 ++ 1#1 ++ 0#3 ++ 0x1A#5 ++ 0xF#5 ++ 0#2 ++ 0#3 ++ 0#1 ++ 0#5) = some (.vcvtF32I32 0 1 0 0x1A 0xF 0 0) ∧
    decodeWord (1#1 ++ 0x21#6 ++ 0#1 ++ 0#3 ++ 3#5 ++ 0x17#5 ++ 0#2 ++ 2#3 ++ 1#1 ++ 1#5) = some (.vcvtI32F32 1 0 0 3 0x17 2 1) ∧
    decodeWord (0#1 ++ 0x21#6 ++ 0#1 ++ 7#3 ++ 0x16#5 ++ 0x1E#5 ++ 0#1 ++ 0#1 ++ 0#3 ++ 0#1 ++ 2#5) = some (.vcvtF32F16 0 0 7 0x16 0x1E 0 0) ∧
    decodeWord (1#1 ++ 0x21#6 ++ 0#1 ++ 7#3 ++ 9#5 ++ 6#5 ++ 0#1 ++ 1#1 ++ 0#3 ++ 1#1 ++ 3#5) = some (.vcvtF32Bf16 1 0 7 9 6 1 1) ∧
    decodeWord (0#1 ++ 0x21#6 ++ 1#1 ++ 7#3 ++ 0x11#5 ++ 0xE#5 ++ 0#1 ++ 1#1 ++ 4#3 ++ 1#1 ++ 4#5) = some (.vcvtF16F32 0 1 7 0x11 0xE 1 4 1) ∧
    decodeWord (0#1 ++ 0x21#6 ++ 0#1 ++ 2#3 ++ 9#5 ++ 9#5 ++ 0#1 ++ 0#1 ++ 2#3 ++ 1#1 ++ 5#5) = some (.vcvtBf16F32 0 0 2 9 9 0 2 1) ∧
    decodeWord (0#1 ++ 0x21#6 ++ 0#1 ++ 5#3 ++ 0x16#5 ++ 4#5 ++ 3#2 ++ 0#3 ++ 0#1 ++ 6#5) = some (.vcvtF32E4m3 0 0 5 0x16 4 3 0) ∧
    decodeWord (1#1 ++ 0x21#6 ++ 1#1 ++ 5#3 ++ 9#5 ++ 0xB#5 ++ 3#2 ++ 0#3 ++ 1#1 ++ 7#5) = some (.vcvtF32E5m2 1 1 5 9 0xB 3 1) := by decide

theorem test_words_21b :
    decodeWord (0#1 ++ 0x21#6 ++ 1#1 ++ 4#3 ++ 0x11#5 ++ 0x13#5 ++ 2#2 ++ 4#3 ++ 1#1 ++ 8#5) = some (.vcvtE4m3F32 0 1 4 0x11 0x13 2 4 1) ∧
    decodeWord (0#1 ++ 0x21#6 ++ 0#1 ++ 7#3 ++ 9#5 ++ 0xE#5 ++ 1#2 ++ 2#3 ++ 1#1 ++ 9#5) = some (.vcvtE5m2F32 0 0 7 9 0xE 1 2 1) ∧
    decodeWord (0#1 ++ 0x21#6 ++ 1#1 ++ 2#3 ++ 0x16#5 ++ 9#5 ++ 1#2 ++ 0#3 ++ 0#1 ++ 0xA#5) = some (.vpackB4 0 1 2 0x16 9 1 0) ∧
    decodeWord (1#1 ++ 0x21#6 ++ 1#1 ++ 2#3 ++ 9#5 ++ 0x11#5 ++ 0#2 ++ 0#3 ++ 1#1 ++ 0xB#5) = some (.vunpackB4 1 1 2 9 0x11 0 1) := by decide

theorem test_words_22 :
    decodeWord (0#1 ++ 0x22#6 ++ 0#1 ++ 2#3 ++ 0x11#5 ++ 0x19#5 ++ 0xC#5 ++ 0#1 ++ 0#5) = some (.vperm 0 0 2 0x11 0x19 0xC 0) ∧
    decodeWord (1#1 ++ 0x22#6 ++ 0#1 ++ 1#3 ++ 0x1A#5 ++ 0#5 ++ 0x14#5 ++ 1#1 ++ 1#5) = some (.vrot 1 0 1 0x1A 0 0x14 1) ∧
    decodeWord (0#1 ++ 0x22#6 ++ 0#1 ++ 1#3 ++ 3#5 ++ 8#5 ++ 0#5 ++ 1#1 ++ 2#5) = some (.vbcast 0 0 1 3 8 1) ∧
    decodeWord (0#1 ++ 0x22#6 ++ 0#1 ++ 5#3 ++ 0x11#5 ++ 0x1C#5 ++ 0#5 ++ 1#1 ++ 3#5) = some (.vredadd 0 0 5 0x11 0x1C 1) ∧
    decodeWord (0#1 ++ 0x22#6 ++ 0#1 ++ 2#3 ++ 0x16#5 ++ 0x10#5 ++ 0#5 ++ 1#1 ++ 4#5) = some (.vredmax 0 0 2 0x16 0x10 1) ∧
    decodeWord (0#1 ++ 0x22#6 ++ 1#1 ++ 6#3 ++ 0x1A#5 ++ 5#5 ++ 0#5 ++ 1#1 ++ 5#5) = some (.viredadd 0 1 6 0x1A 5 1) ∧
    decodeWord (0#1 ++ 0x22#6 ++ 1#1 ++ 2#3 ++ 9#5 ++ 0x19#5 ++ 0#3 ++ 0#2 ++ 0#1 ++ 6#5) = some (.vbspl 0 1 2 9 0x19 0 0) := by decide

theorem test_words_23 :
    decodeWord (1#1 ++ 0x23#6 ++ 0x27#6 ++ 2#3 ++ 0xA84D#16) = some (.patC 1 0x27 2 0xA84D) := by decide

theorem test_words_24 :
    decodeWord (1#1 ++ 0x24#6 ++ 0x34#6 ++ 0#3 ++ 0x641B#16) = some (.pisC 1 0x34 0 0x641B) := by decide

theorem test_words_25 :
    decodeWord (1#1 ++ 0x25#6 ++ 2#6 ++ 5#3 ++ 0x1FE8#16) = some (.patA 1 2 5 0x1FE8) := by decide

theorem test_words_26 :
    decodeWord (1#1 ++ 0x26#6 ++ 0xF#6 ++ 3#3 ++ 0xDBB6#16) = some (.pisA 1 0xF 3 0xDBB6) := by decide

theorem test_words_27 :
    decodeWord (1#1 ++ 0x27#6 ++ 0x1D#6 ++ 0#3 ++ 0x9783#16) = some (.patS 1 0x1D 0 0x9783) := by decide

theorem test_words_28 :
    decodeWord (1#1 ++ 0x28#6 ++ 0x2A#6 ++ 6#3 ++ 0x5351#16) = some (.pisS 1 0x2A 6 0x5351) := by decide

theorem test_words_29a :
    decodeWord (1#1 ++ 0x29#6 ++ 0#3 ++ 0xB#5 ++ 0x1F#5 ++ 1#4 ++ 0#1 ++ 0#7) = some (.tplC 1 0 0xB 0x1F 0) ∧
    decodeWord (0#1 ++ 0x29#6 ++ 1#3 ++ 0xC#5 ++ 0x1F#5 ++ 2#4 ++ 1#1 ++ 0#7) = some (.tplA 0 1 0xC 0x1F 1) ∧
    decodeWord (1#1 ++ 0x29#6 ++ 2#3 ++ 0xD#5 ++ 0#5 ++ 3#4 ++ 0#1 ++ 0#7) = some (.tplS 1 2 0xD 0 0) ∧
    decodeWord (0#1 ++ 0x29#6 ++ 3#3 ++ 0#2 ++ 6#3 ++ 0x361#10 ++ 1#7) = some (.cwait 0 3 6 0x361) ∧
    decodeWord (0#1 ++ 0x29#6 ++ 0#3 ++ 0#2 ++ 3#3 ++ 0x32F#10 ++ 2#7) = some (.cdisc 0 0 3 0x32F) ∧
    decodeWord (0#1 ++ 0x29#6 ++ 6#3 ++ 0x16#5 ++ 0#2 ++ 4#3 ++ 3#12) = some (.crd 0 6 0x16 4) ∧
    decodeWord (0#1 ++ 0x29#6 ++ 3#3 ++ 0#1 ++ 7#4 ++ 0xA#5 ++ 0x1D#5 ++ 4#7) = some (.rngset 0 3 7 0xA 0x1D) ∧
    decodeWord (1#1 ++ 0x29#6 ++ 4#3 ++ 0x11#5 ++ 0#1 ++ 0xB#4 ++ 5#12) = some (.rngrd 1 4 0x11 0xB) := by decide

theorem test_words_29b :
    decodeWord (1#1 ++ 0x29#6 ++ 2#3 ++ 0#1 ++ 5#4 ++ 6#17) = some (.publish 1 2 5) ∧
    decodeWord (0#1 ++ 0x29#6 ++ 4#3 ++ 0#2 ++ 3#3 ++ 0x12#5 ++ 7#12) = some (.kset 0 4 3 0x12) ∧
    decodeWord (0#1 ++ 0x29#6 ++ 1#3 ++ 0x16#5 ++ 0#2 ++ 4#3 ++ 8#12) = some (.krd 0 1 0x16 4) ∧
    decodeWord (0#1 ++ 0x29#6 ++ 7#3 ++ 0#2 ++ 2#3 ++ 0xE#5 ++ 9#12) = some (.katcmp 0 7 2 0xE) := by decide

theorem test_words_2A :
    decodeWord (0#1 ++ 0x2A#6 ++ 4#3 ++ 3#5 ++ 0x1B#5 ++ 0#12) = some (.join 0 4 3 0x1B) ∧
    decodeWord (0#1 ++ 0x2A#6 ++ 2#3 ++ 9#5 ++ 9#5 ++ 1#12) = some (.leave 0 2 9 9) ∧
    decodeWord (0#1 ++ 0x2A#6 ++ 7#3 ++ 0x1A#5 ++ 0x16#5 ++ 2#12) = some (.grpq 0 7 0x1A 0x16) ∧
    decodeWord (0#1 ++ 0x2A#6 ++ 5#3 ++ 0x16#5 ++ 4#5 ++ 0x17#5 ++ 3#7) = some (.barr 0 5 0x16 4 0x17) ∧
    decodeWord (1#1 ++ 0x2A#6 ++ 6#3 ++ 0x16#5 ++ 5#5 ++ 0x18#5 ++ 4#7) = some (.bwait 1 6 0x16 5 0x18) ∧
    decodeWord (0#1 ++ 0x2A#6 ++ 7#3 ++ 0x16#5 ++ 5#5 ++ 0x19#5 ++ 5#7) = some (.barw 0 7 0x16 5 0x19) := by decide

theorem test_words_2B :
    decodeWord (1#1 ++ 0x2B#6 ++ 0#3 ++ 0x16#5 ++ 6#5 ++ 0x1A#5 ++ 0#7) = some (.finc 1 0 0x16 6 0x1A) ∧
    decodeWord (0#1 ++ 0x2B#6 ++ 1#3 ++ 0x16#5 ++ 7#5 ++ 0x1B#5 ++ 1#7) = some (.fwait 0 1 0x16 7 0x1B) ∧
    decodeWord (1#1 ++ 0x2B#6 ++ 1#3 ++ 0x16#5 ++ 8#5 ++ 2#12) = some (.frd 1 1 0x16 8) ∧
    decodeWord (1#1 ++ 0x2B#6 ++ 7#3 ++ 0x11#5 ++ 0x16#5 ++ 9#5 ++ 3#7) = some (.fset 1 7 0x11 0x16 9) := by decide

theorem test_words_2Ca :
    decodeWord (0#1 ++ 0x2C#6 ++ 0#3 ++ 0x11#5 ++ 0x17#5 ++ 0#12) = some (.launch 0 0 0x11 0x17) ∧
    decodeWord (0#1 ++ 0x2C#6 ++ 5#3 ++ 3#5 ++ 4#5 ++ 1#12) = some (.launchn 0 5 3 4) ∧
    decodeWord (0#1 ++ 0x2C#6 ++ 3#3 ++ 0#5 ++ 0x1E#5 ++ 0x12#5 ++ 2#7) = some (.evset 0 3 0x1E 0x12) ∧
    decodeWord (0#1 ++ 0x2C#6 ++ 1#3 ++ 0#5 ++ 0xC#5 ++ 0x1F#5 ++ 3#7) = some (.evclr 0 1 0xC 0x1F) ∧
    decodeWord (0#1 ++ 0x2C#6 ++ 6#3 ++ 0x16#5 ++ 0xD#5 ++ 0#5 ++ 4#7) = some (.evwait 0 6 0x16 0xD 0) ∧
    decodeWord (1#1 ++ 0x2C#6 ++ 7#3 ++ 0x16#5 ++ 0xE#5 ++ 5#12) = some (.enq 1 7 0x16 0xE) ∧
    decodeWord (1#1 ++ 0x2C#6 ++ 4#3 ++ 0x11#5 ++ 0#2 ++ 3#3 ++ 6#12) = some (.deq 1 4 0x11 3) ∧
    decodeWord (1#1 ++ 0x2C#6 ++ 2#3 ++ 7#22) = some (.yield 1 2) := by decide

theorem test_words_2Cb :
    decodeWord (1#1 ++ 0x2C#6 ++ 1#3 ++ 0x16#5 ++ 0#5 ++ 5#5 ++ 8#7) = some (.taskinfo 1 1 0x16 5) := by decide

theorem test_words_2D :
    decodeWord (1#1 ++ 0x2D#6 ++ 6#3 ++ 0#2 ++ 2#3 ++ 0x1D#5 ++ 0#2 ++ 0#1 ++ 0x177#9) = some (.ldg 1 6 2 0x1D 0 0 0x177) := by decide

theorem test_words_2E :
    decodeWord (0#1 ++ 0x2E#6 ++ 6#3 ++ 0x1A#5 ++ 5#5 ++ 0#2 ++ 0#1 ++ 0x1F#9) = some (.stg 0 6 0x1A 5 0 0 0x1F) := by decide

theorem test_words_2F :
    decodeWord (1#1 ++ 0x2F#6 ++ 6#3 ++ 0#2 ++ 1#3 ++ 0xC#5 ++ 0#2 ++ 1#1 ++ 0xC7#9) = some (.lda 1 6 1 0xC 0 1 0xC7) := by decide

theorem test_words_30 :
    decodeWord (0#1 ++ 0x30#6 ++ 5#3 ++ 0x16#5 ++ 0x14#5 ++ 0#2 ++ 1#1 ++ 0x16E#9) = some (.stl 0 5 0x16 0x14 0 1 0x16E) := by decide

theorem test_words_31 :
    decodeWord (1#1 ++ 0x31#6 ++ 5#3 ++ 0#3 ++ 0#2 ++ 0x1C#5 ++ 0#2 ++ 1#1 ++ 0x123#9) = some (.ldgq 1 5 0 0x1C 1 0x123) ∧
    decodeWord (1#1 ++ 0x31#6 ++ 1#3 ++ 0#4 ++ 1#1 ++ 0x10#5 ++ 1#2 ++ 1#1 ++ 0xD7#9) = some (.stgq 1 1 1 0x10 1 0xD7) ∧
    decodeWord (1#1 ++ 0x31#6 ++ 6#3 ++ 0#5 ++ 0x11#5 ++ 2#2 ++ 0#1 ++ 0x198#9) = some (.pfg 1 6 0x11 0 0x198) := by decide

theorem test_words_32 :
    decodeWord (0#1 ++ 0x32#6 ++ 7#3 ++ 9#5 ++ 5#5 ++ 0#2 ++ 7#3 ++ 0#7) = some (.fence 0 7 9 5 7) ∧
    decodeWord (1#1 ++ 0x32#6 ++ 7#3 ++ 0#5 ++ 0x13#5 ++ 1#12) = some (.pubg 1 7 0x13) := by decide

theorem test_words_33 :
    decodeWord (0#1 ++ 0x33#6 ++ 2#3 ++ 0#5 ++ 0xD#5 ++ 0#5 ++ 0#7) = some (.tlbinv 0 2 0xD 0) ∧
    decodeWord (0#1 ++ 0x33#6 ++ 7#3 ++ 0x1A#5 ++ 1#17) = some (.tlbsync 0 7 0x1A) := by decide

theorem test_words_34 :
    decodeWord (1#1 ++ 0x34#6 ++ 1#3 ++ 0x11#5 ++ 8#5 ++ 0#12) = some (.caprd 1 1 0x11 8) ∧
    decodeWord (1#1 ++ 0x34#6 ++ 7#3 ++ 3#5 ++ 0x16#5 ++ 9#5 ++ 1#7) = some (.ctxsave 1 7 3 0x16 9) ∧
    decodeWord (0#1 ++ 0x34#6 ++ 0#3 ++ 3#5 ++ 0x16#5 ++ 0xA#5 ++ 2#7) = some (.ctxrst 0 0 3 0x16 0xA) ∧
    decodeWord (1#1 ++ 0x34#6 ++ 1#3 ++ 3#22) = some (.sealw 1 1) ∧
    decodeWord (1#1 ++ 0x34#6 ++ 7#3 ++ 0#5 ++ 0xB#5 ++ 4#12) = some (.hostsig 1 7 0xB) := by decide

theorem test_words_35 :
    decodeWord (0#1 ++ 0x35#6 ++ 2#3 ++ 0#3 ++ 1#2 ++ 0x18#5 ++ 0xC#5 ++ 0#7) = some (.nwr 0 2 1 0x18 0xC) ∧
    decodeWord (1#1 ++ 0x35#6 ++ 2#3 ++ 1#2 ++ 1#3 ++ 0xD#5 ++ 0#2 ++ 4#3 ++ 1#7) = some (.nrd 1 2 1 1 0xD 4) ∧
    decodeWord (1#1 ++ 0x35#6 ++ 7#3 ++ 0x11#5 ++ 0xE#5 ++ 1#5 ++ 2#7) = some (.nred 1 7 0x11 0xE 1) ∧
    decodeWord (0#1 ++ 0x35#6 ++ 0#3 ++ 0x11#5 ++ 0xE#5 ++ 3#12) = some (.nbar 0 0 0x11 0xE) ∧
    decodeWord (0#1 ++ 0x35#6 ++ 5#3 ++ 3#5 ++ 4#17) = some (.memb 0 5 3) ∧
    decodeWord (1#1 ++ 0x35#6 ++ 7#3 ++ 0x1A#5 ++ 0x16#5 ++ 5#12) = some (.gsw 1 7 0x1A 0x16) := by decide

theorem test_words_3F :
    decodeWord (1#1 ++ 0x3F#6 ++ 0x183F3E7#25) = some (.brk 1 0x183F3E7) := by decide
/-! ### Ill-formed terms: every check refuses -/

theorem test_ill_formed_vector_a : ([
    .vaddI32 0 0 0 28 0 0 0, .vsubI32 0 0 0 28 0 0 0, .vmulI32 0 0 0 28 0 0 0, .vmulhI32 0 0 0 28 0 0 0,
    .vmulhnI32 0 0 0 28 0 0 0, .vminI32 0 0 0 28 0 0 0, .vmaxI32 0 0 0 28 0 0 0, .vminnI32 0 0 0 28 0 0 0,
    .vmaxnI32 0 0 0 28 0 0 0, .vandI32 0 0 0 28 0 0 0, .vorI32 0 0 0 28 0 0 0, .vxorI32 0 0 0 28 0 0 0,
    .vshlI32 0 0 0 28 0 0 0, .vshrI32 0 0 0 28 0 0 0, .vsraI32 0 0 0 28 0 0 0, .vsel 0 0 0 28 0 0 0,
    .vaddF32 0 0 0 28 0 0 0, .vsubF32 0 0 0 28 0 0 0, .vmulF32 0 0 0 28 0 0 0, .vminF32 0 0 0 28 0 0 0,
    .vmaxF32 0 0 0 28 0 0 0, .vabsF32 0 0 0 28 0 0, .vnegF32 0 0 0 28 0 0, .vaddF16 0 0 0 28 0 0 0] : List Instr).all (fun i => !wellFormed i && decide ((encode i).bind decodeWord = none)) =
      true := by decide +kernel

theorem test_ill_formed_vector_b : ([
    .vsubF16 0 0 0 28 0 0 0, .vmulF16 0 0 0 28 0 0 0, .vminF16 0 0 0 28 0 0 0, .vmaxF16 0 0 0 28 0 0 0,
    .vabsF16 0 0 0 28 0 0, .vnegF16 0 0 0 28 0 0, .vaddBf16 0 0 0 28 0 0 0, .vsubBf16 0 0 0 28 0 0 0,
    .vmulBf16 0 0 0 28 0 0 0, .vminBf16 0 0 0 28 0 0 0, .vmaxBf16 0 0 0 28 0 0 0, .vabsBf16 0 0 0 28 0 0,
    .vnegBf16 0 0 0 28 0 0, .vfmaF32 0 0 0 28 0 0 0 0, .vfmsF32 0 0 0 28 0 0 0 0, .vfmaBf16 0 0 0 28 0 0 0 0,
    .vfmaF16 0 0 0 28 0 0 0 0, .vcvtF32I32 0 0 0 28 0 0 0, .vcvtF32I32 0 0 0 0 0 5 0, .vcvtI32F32 0 0 0 28 0 0 0,
    .vcvtI32F32 0 0 0 0 0 5 0, .vcvtF32F16 0 0 0 28 0 0 0, .vcvtF32Bf16 0 0 0 28 0 0 0, .vcvtF16F32 0 0 0 28 0 0 0 0] : List Instr).all (fun i => !wellFormed i && decide ((encode i).bind decodeWord = none)) =
      true := by decide +kernel

theorem test_ill_formed_vector_c : ([
    .vcvtF16F32 0 0 0 0 0 0 5 0, .vcvtBf16F32 0 0 0 28 0 0 0 0, .vcvtBf16F32 0 0 0 0 0 0 5 0, .vcvtF32E4m3 0 0 0 28 0 0 0,
    .vcvtF32E5m2 0 0 0 28 0 0 0, .vcvtE4m3F32 0 0 0 28 0 0 0 0, .vcvtE4m3F32 0 0 0 0 0 0 5 0, .vcvtE5m2F32 0 0 0 28 0 0 0 0,
    .vcvtE5m2F32 0 0 0 0 0 0 5 0, .vunpackB4 0 0 0 28 0 0 0, .vperm 0 0 0 28 0 0 0, .vrot 0 0 0 28 0 0 0,
    .vbcast 0 0 0 28 0 0, .vbspl 0 0 0 28 0 0 0] : List Instr).all (fun i => !wellFormed i && decide ((encode i).bind decodeWord = none)) =
      true := by decide +kernel

theorem test_ill_formed_rest : ([
    .sext 0 0 1 2 3, .zext 0 0 1 2 3, .loop 0 1 0 0, .srd 0 0 1 5, .swr 0 0 1 0x16, .lds 0 0 4 4 0 1 0, .sbind 0 0 1 0 6,
    .vpackB4 0 0 0 29 1 2 0, .kset 0 0 6 1, .krd 0 0 1 6, .taskinfo 0 0 1 7, .fence 0 0 1 0 3, .rdh 0 0 8 0 1,
    .rdh 0 0 0 8 1, .rdh 0 0 28 0 2, .rdh 0 0 0 28 2, .rdh 0 0 8 0 3, .rdh 0 0 0 1 4, .rdh 0 0 28 0 4, .rdh 0 0 0 0 5,
    .nrd 0 0 0 0 0 4, .nrd 0 0 1 0 0 3, .nrd 0 0 2 0 0 0, .nrd 0 0 3 0 0 0] : List Instr).all (fun i => !wellFormed i && decide ((encode i).bind decodeWord = none)) =
      true := by decide +kernel

end Sys2Proof.Tests
end

section
/-! O55: power. Reads of a map whose keys are filtered, what a loss of power keeps, what a boot leaves, and what the power limit
and PACKAGE-IDLE do (R251, R254, R255). -/

namespace Sys2Proof.Machine

open Sys2Proof.Claim

/-! ### Maps whose keys are filtered -/

/-- A filter on the keys leaves what a kept key holds; a dropped one holds the default. The canonical form is what makes the second
part true: a key stands in it once. -/
theorem mget_filter_keys {α : Type} [DecidableEq α] (d : α) {m : KMap α} (hm : mwf d m = true) (keep : Nat → Bool) (k : Nat) :
    mget d (m.filter (fun p => keep p.1)) k = if keep k = true then mget d m k else d := by
  induction m with
  | nil => simp [mget]
  | cons p r ih =>
    obtain ⟨j, x⟩ := p
    obtain ⟨_, hkeys, hr⟩ := (mwf_cons d j x r).mp hm
    have hbelow : k < j → mget d (r.filter (fun p => keep p.1)) k = d := fun hlt =>
      mget_below d (n := j + 1) (fun q hq => hkeys q (List.mem_of_mem_filter hq)) (by omega)
    rw [List.filter_cons]
    by_cases hj : keep j = true
    · rw [if_pos hj, mget, mget, ih hr]
      by_cases hk : j = k
      · rw [if_pos hk, if_pos hk, if_pos (hk ▸ hj)]
      · by_cases hlt : k < j <;> simp [hk, hlt]
    · rw [if_neg hj]
      by_cases hk : j = k
      · rw [ih hr, if_neg (hk ▸ hj), if_neg (hk ▸ hj)]
      · rw [mget, if_neg hk]
        by_cases hlt : k < j
        · rw [hbelow hlt, if_pos hlt, ite_self]
        · rw [ih hr, if_neg hlt]

/-! ### Loss of power -/

/-- Of memory, host memory alone outlives the loss of power: the model's choice, log entry 62. -/
theorem sget_unpowered_mem {s : State} (hm : memWf s.pkg.mem = true) (a : Nat) :
    sget (unpowered s).pkg.mem a = if hostBase ≤ a ∧ a < spkBase then sget s.pkg.mem a else 0 := by
  have h := mget_filter_keys 0 hm (fun a => decide (hostBase ≤ a) && decide (a < spkBase)) a
  simp only [Bool.and_eq_true, decide_eq_true_eq] at h
  exact h

/-- The package without power, its flash rewritten by the host. -/
def reflashed (image : List Byte) (s : State) : State :=
  { unpowered s with pkg := { (unpowered s).pkg with flash := image } }

theorem exec_powerOn_of_off {s : State} (h : s.pkg.power = .off) : exec .powerOn s = .next (boot (unpowered s)) := by
  rw [exec_powerOn, execPowerOn, if_pos h]

theorem exec_powerOn_of_not_off {s : State} (h : s.pkg.power ≠ .off) : exec .powerOn s = .next s := by
  rw [exec_powerOn, execPowerOn, if_neg h]

theorem exec_reboot_of_bootFailed {s : State} {step reason : Nat} (h : s.pkg.power = .bootFailed step reason) (image : List Byte) :
    exec (.reboot image) s = .next (boot (reflashed image s)) := by
  rw [exec_reboot, execReboot, h]
  rfl

/-! ### The boot -/

theorem failingStep_of_bootStep_zero {image : List Byte} (h : Config.bootStep image = 0) : failingStep image = 7 := if_pos h

theorem failingStep_bounds_of_bootStep_ne_zero {image : List Byte} (h : Config.bootStep image ≠ 0) :
    1 ≤ failingStep image ∧ failingStep image ≤ 6 := by
  rw [failingStep, if_neg h]
  omega

section
variable (s : State)

theorem boot_power : (boot s).pkg.power = if failingStep (bootImage s s.pkg.flash) = 7 then .active
    else .bootFailed (failingStep (bootImage s s.pkg.flash)) (Config.bootReason (bootImage s s.pkg.flash) % 256) := rfl

theorem boot_config : (boot s).pkg.config =
    if 5 < failingStep (bootImage s s.pkg.flash) then s.pkg.nextConfig.getD s.pkg.config else s.pkg.config := rfl

theorem boot_nextConfig : (boot s).pkg.nextConfig =
    if 5 < failingStep (bootImage s s.pkg.flash) then none else s.pkg.nextConfig := rfl

theorem boot_identityKey : (boot s).pkg.identityKey =
    if 3 < failingStep (bootImage s s.pkg.flash) then .derived else s.pkg.identityKey := rfl

@[simp] theorem boot_now : (boot s).now = 0 := rfl

end

/-- A boot from `u` leaves what R251 says of a package whose configuration records are those of `u`. -/
theorem booted_boot {s u : State} (hc : u.pkg.config = s.pkg.config) (hn : u.pkg.nextConfig = s.pkg.nextConfig) :
    Booted s (bootImage s u.pkg.flash) (boot u).pkg := by
  have himage : bootImage u u.pkg.flash = bootImage s u.pkg.flash := by simp only [bootImage, hc, hn]
  constructor
  case active =>
    intro h
    have h7 := failingStep_of_bootStep_zero h
    exact ⟨by rw [boot_power, himage, if_pos h7], h7⟩
  case failed =>
    intro h
    obtain ⟨hlo, hhi⟩ := failingStep_bounds_of_bootStep_ne_zero h
    exact ⟨_, by rw [boot_power, himage, if_neg (by omega)], hlo, hhi⟩
  case applied =>
    intro h
    rw [boot_config, boot_nextConfig, himage, if_pos h, if_pos h, hc, hn]
    exact ⟨rfl, rfl⟩
  case kept =>
    intro h
    rw [boot_config, boot_nextConfig, himage, if_neg (by omega), if_neg (by omega)]
    exact ⟨hc, hn⟩
  case key =>
    intro h
    rw [boot_identityKey, himage, if_pos h]
    rfl

/-- A boot starts no thread, and loss of power leaves none. -/
theorem boot_unpowered_run (s : State) (k : Nat) : (getSlot (boot (unpowered s)) k).run = .empty := by
  unfold getSlot
  split <;> rfl

/-! ### PACKAGE-IDLE and the power limit -/

@[simp] theorem wake_core (s : State) : (wake s).core = s.core := by unfold wake; split <;> rfl

/-- What wakes a powered package leaves it active (Table 17.5). -/
theorem wake_power_of_powered {s : State} (h : powered s = true) : (wake s).pkg.power = .active := by
  unfold wake
  split
  · rfl
  · next hidle => simpa [powered, hidle] using h

theorem exec_packageIdleRequest_of_gated {s : State} (ha : s.pkg.power = .active) (hg : clusterGated s = true) :
    exec .packageIdleRequest s = .next { s with pkg := { s.pkg with power := .idle } } := by
  rw [exec_packageIdleRequest, execPackageIdleRequest, if_pos ⟨ha, hg⟩]

theorem exec_packageIdleRequest_of_not_gated {s : State} (hg : clusterGated s = false) : exec .packageIdleRequest s = .next s := by
  rw [exec_packageIdleRequest, execPackageIdleRequest, if_neg (by simp [hg])]

/-- The limits that the hub takes: multiples of 25 W up to 2,800 (R255). -/
theorem exec_powerLimit_of_valid {s : State} {w : Nat} (hp : powered s = true) (h25 : w % 25 = 0) (hle : w ≤ 2800) :
    exec (.powerLimit w) s = .next { wake s with pkg := { (wake s).pkg with powerLimit := w } } := by
  rw [exec_powerLimit, execPowerLimit, if_pos (by simp [hp, h25, hle])]

theorem exec_powerLimit_of_invalid {s : State} {w : Nat} (h : powered s = false ∨ w % 25 ≠ 0 ∨ 2800 < w) :
    exec (.powerLimit w) s = .next (wake s) := by
  rw [exec_powerLimit, execPowerLimit, if_neg]
  simp only [Bool.and_eq_true, decide_eq_true_eq]
  rintro ⟨⟨hp, h25⟩, hle⟩
  rcases h with hoff | hstep | hbig
  · exact Bool.false_ne_true (hoff.symm.trans hp)
  · exact hstep h25
  · omega

/-- Settles O55: the boots are `booted_boot` from what `unpowered` keeps, and memory at OFF is `sget_unpowered_mem`.
What OFF keeps (log entry 62), and the zero memory and fresh core that power on finds (entries 1 and 2), are the model's choices. -/
theorem powerIsSwitchedAndLimited : Obligations.PowerIsSwitchedAndLimited := by
  intro s
  refine ⟨fun hoff => ?powerOn, exec_powerOn_of_not_off, fun step reason image hfail => ?reboot, ?powerOff,
    exec_packageIdleRequest_of_gated, exec_packageIdleRequest_of_not_gated, fun w hp h25 hle => ?limit,
    fun w => exec_powerLimit_of_invalid⟩
  case powerOn =>
    exact ⟨_, exec_powerOn_of_off hoff, booted_boot (u := unpowered s) rfl rfl, rfl, boot_unpowered_run s, rfl, boot_now _⟩
  case reboot =>
    exact ⟨_, exec_reboot_of_bootFailed hfail image, rfl, booted_boot (u := reflashed image s) rfl rfl, boot_now _⟩
  case powerOff =>
    refine ⟨_, exec_powerOff s, rfl, rfl, rfl, rfl, rfl, fun hm => ⟨fun a hlo hhi => ?_, fun a hlow => ?_⟩⟩
    · rw [sget_unpowered_mem hm, if_pos ⟨hlo, hhi⟩]
    · rw [sget_unpowered_mem hm, if_neg (by omega)]
  case limit =>
    exact ⟨_, exec_powerLimit_of_valid hp h25 hle, rfl, wake_power_of_powered hp, wake_core s⟩

end Sys2Proof.Machine
end

section
/-! O4 and O6: the state after reset (R17, R251), and words that only move on (R19, R20, R55). -/

namespace Sys2Proof.Machine

open Sys2Proof.Claim

theorem getSlot_reset_run (k : Nat) : (getSlot State.reset k).run = .empty := by
  unfold getSlot
  split <;> rfl

theorem getArch_reset (k : Nat) (v : VoiceId) : getArch State.reset k v = VoiceArch.fresh 0 := by
  unfold getArch getVoice getSlot
  cases v <;> split <;> rfl

/-- Settles O4: the registers are those of `getArch_reset`, the rest is read off the reset state. -/
theorem resetHasNoThreadAndEmptyMemory : Obligations.ResetHasNoThreadAndEmptyMemory := by
  refine ⟨rfl, rfl, rfl, rfl, getSlot_reset_run, rfl, rfl, rfl, rfl, rfl, fun k v => ?_, sget_nil, memWf_reset⟩
  rw [getArch_reset]
  exact ⟨rfl, rfl, rfl⟩

/-- A word that R46 lets through but that is nullified, or whose predicate is false, retires and does nothing else (R19). -/
theorem exec_skips {i : Instr} {s : State} {x : WordClass} (hx : wordClass i = some x)
    (ht : Takes s x.sb x.cb x.perm x.priv) (hi : placeIll (hereOf s) s i = false) (hw : (me s).wait = none)
    (hn : (hereOf s).nul = true ∨ liveOf i (hereOf s) s = false) : exec i s = .next (retire (hereOf s) .seq false s) := by
  obtain ⟨body, hbody⟩ := exec_issue hx
  rw [hbody]
  exact issue_skips ht.1 ht.2.1 hi ht.2.2.1 ht.2.2.2 hn hw

theorem liveOf_of_predOf {i : Instr} {p : BitVec 3} (hp : predOf i = some p) (h : Here) (s : State) :
    liveOf i h s = visP (archAt s h) p := by
  rw [liveOf, hp]

/-- Settles O6: by `exec_skips`, and a word that only retires has done nothing but move on. -/
theorem nullifiedAndFalseWordsOnlyMoveOn : Obligations.NullifiedAndFalseWordsOnlyMoveOn := by
  intro i s x hx ht hi hw hn
  refine ⟨_, exec_skips hx ht hi hw ?_, did_retire (near_refl s) rfl⟩
  refine hn.imp_right ?_
  rintro ⟨p, hp, hfalse⟩
  rw [liveOf_of_predOf hp, hfalse]

end Sys2Proof.Machine
end

section
/-! O13 and O14: the next-address chain (R21 to R23) and LOOP (R22, R64). -/

namespace Sys2Proof.Machine

open Sys2Proof.Claim

/-! ### The chain (R21 to R23) -/

/-- The levels a transfer leaves are a leading run: those whose body does not hold the target. -/
theorem popLevels_eq_dropWhile (t : VAddr) (ls : List Level) :
    popLevels t ls = ls.dropWhile (fun l => decide (t.toNat < l.first.toNat) || decide (l.last.toNat ≤ t.toNat)) := by
  induction ls with
  | nil => rfl
  | cons l r ih =>
    rw [popLevels, List.dropWhile_cons, ih]
    by_cases hin : l.first.toNat ≤ t.toNat ∧ t.toNat < l.last.toNat
    · rw [if_pos hin, if_neg (by simp; omega)]
    · rw [if_neg hin, if_pos (by simp; omega)]

theorem seqFrom_inside {a : VAddr} {l : Level} (r : List Level) (h : a ≠ l.last - 4) : seqFrom a (l :: r) = (a + 4, l :: r, 0) := by
  rw [seqFrom, if_neg h]

theorem seqFrom_again {a : VAddr} {l : Level} (r : List Level) (h : a = l.last - 4) (hc : 1 < l.count.toNat) :
    seqFrom a (l :: r) = (l.first, { l with count := l.count - 1 } :: r, 0) := by
  rw [seqFrom, if_pos h, if_pos hc]

theorem seqFrom_exhausted {a : VAddr} {l : Level} (r : List Level) (h : a = l.last - 4) (hc : l.count.toNat ≤ 1) :
    seqFrom a (l :: r) = ((seqFrom a r).1, (seqFrom a r).2.1, (seqFrom a r).2.2 + 1) := by
  rw [seqFrom, if_pos h, if_neg (by omega)]

theorem advance_seq (a : VoiceArch) : (advance a .seq).1 =
    { a with na0 := a.na1, na1 := a.na2, na2 := ⟨(seqFrom a.na2.addr a.lc).1, false⟩, lc := (seqFrom a.na2.addr a.lc).2.1,
             dslots := a.dslots - 1 } := rfl

theorem advance_jump (a : VoiceArch) (t : VAddr) (pops : Bool) : (advance a (.jump t pops)).1 =
    { a with na0 := a.na1, na1 := a.na2, na2 := ⟨t, false⟩, lc := if pops then popLevels t a.lc else a.lc, dslots := 2 } := rfl

/-- A taken branch goes to its target behind its delay slots; BRT (form 2) nullifies them. -/
theorem advance_taken (a : VoiceArch) (t : VAddr) (form : Nat) : (advance a (.branch true t form)).1 =
    { a with na0 := { a.na1 with nul := a.na1.nul || decide (form = 2) }
             na1 := { a.na2 with nul := a.na2.nul || decide (form = 2) }
             na2 := ⟨t, false⟩, lc := popLevels t a.lc, dslots := 2 } := by
  by_cases h : form = 2 <;> simp [advance, nullifies, h, chainJump, nulSlots]

/-- A branch that is not taken goes on behind its delay slots; BRN (form 1) nullifies them. -/
theorem advance_notTaken (a : VoiceArch) (t : VAddr) (form : Nat) : (advance a (.branch false t form)).1 =
    { a with na0 := { a.na1 with nul := a.na1.nul || decide (form = 1) }
             na1 := { a.na2 with nul := a.na2.nul || decide (form = 1) }
             na2 := ⟨(seqFrom a.na2.addr a.lc).1, false⟩, lc := (seqFrom a.na2.addr a.lc).2.1, dslots := 2 } := by
  by_cases h : form = 1 <;> simp [advance, nullifies, h, chainSeq, nulSlots]

/-- Settles O13: each flow's chain is its `advance_` lemma, the successor's cases are those of `seqFrom`, and what a transfer pops is
`popLevels_eq_dropWhile`. -/
theorem theChainAdvances : Obligations.TheChainAdvances := by
  refine ⟨fun a => ?seq, fun a t form => ?branch, fun a t pops => ?jump, fun a => rfl, fun a l r => ?successor,
    fun i s x hx ht hi hw hn => ?nullified⟩
  case seq => rw [advance_seq]; exact ⟨rfl, rfl, rfl, rfl⟩
  case branch =>
    rw [advance_taken, advance_notTaken, ← popLevels_eq_dropWhile]
    exact ⟨rfl, rfl, rfl, rfl, rfl, rfl, rfl, rfl⟩
  case jump =>
    rw [advance_jump, ← popLevels_eq_dropWhile]
    exact ⟨rfl, rfl, rfl, rfl⟩
  case successor =>
    refine ⟨seqFrom_inside r, seqFrom_again r, fun h hc => ?_⟩
    rw [seqFrom_exhausted r h hc]
    exact ⟨rfl, rfl⟩
  case nullified => exact ⟨_, exec_skips hx ht hi hw (.inl hn), archAt_retire ..⟩

/-! ### LOOP (R22, R64) -/

theorem loopEnd_eq (a : VAddr) (imm : BitVec 12) : a + 4 + ((imm.setWidth 52) <<< 2) = loopEnd a imm := by
  unfold loopEnd
  apply BitVec.eq_of_toNat_eq
  simp [BitVec.toNat_shiftLeft, Nat.shiftLeft_eq]
  omega

theorem near_snapshotBanks {s u : State} {d : Doing} (hn : Near s u d) (es : List VAddr) :
    Near s (snapshotBanks u (hereOf s).k (hereOf s).v es) d where
  arch := by simpa using hn.arch
  clause := by have := hn.clause; simpa [clauseAt, curClause] using this
  ids := by simpa using hn.ids
  voices := by have := hn.voices; simpa [KeptVoices, getArch] using this
  slot := by have := hn.slot; simpa [KeptSlot, slotAt] using this
  array := by have := hn.array; simpa [KeptArray] using this
  memory := by
    refine ⟨by simpa using hn.memory.1, fun ht => ?_⟩
    rw [snapshotBanks_pkg _ _ _ _ (hn.traced ht)]
    exact hn.memory.2 ht
  traced := fun h => by
    have := hn.traced h
    simpa [threadCtx, getCtx, snapshotBanks_pkg _ _ _ _ this] using this
  ctl := by have := hn.ctl; simpa [KeptCtl] using this
  canon := by simpa using hn.canon
  held := by have := hn.held; simpa [KeptHeld] using this
  order := by
    refine ⟨fun cl => by simpa [voiceOfClause] using hn.order.1 cl, fun v => by simpa using hn.order.2 v⟩
  cluster := by simpa using hn.cluster
  around := by have := hn.around; simpa [KeptAround] using this

theorem loopIll_eq_false {s : State} (hd : (me s).dslots = 0) (h2 : (getVoice s (hereOf s).k (hereOf s).v).second = false) :
    loopIll (hereOf s) s = false := by
  simp [loopIll, hd, h2]

/-- A word that stands where its card forbids is ILLEGAL before anything else is asked of it (R46). -/
theorem issue_ill {s : State} {sb cb : BitVec 1} {perm : Perm} {priv : Bool} {ill live : Here → State → Bool}
    {body : Here → State → Res} (ht : Takes s sb cb perm priv) (hi : ill (hereOf s) s = true) :
    issue sb cb perm priv ill live body s = finish (hereOf s) s (.trap 0x01 0 s) := by
  have hnowait : (lockstep s (hereOf s) sb && !lockstepDead s (hereOf s) && !s.sgo) = false := by
    by_cases hl : lockstep s (hereOf s) sb = true
    · simp [(ht.1 hl).1]
    · simp [hl]
  simp [issue, hnowait, hi]

/-- LOOP rebuilds the chain from `b` with the levels `lc`, and does nothing else. -/
theorem near_rebuildChain (s : State) (b : VAddr) (lc : List Level) (es : List VAddr) :
    Near s (snapshotBanks (setArchAt s (hereOf s) (rebuildChain (me s) b lc).1) (hereOf s).k (hereOf s).v es)
      { arch := fun r => (rebuildChain r b lc).1, flow := .keep } :=
  near_as (near_snapshotBanks (near_setArch (near_refl s) _ (e := { arch := fun r => (rebuildChain r b lc).1 }) rfl rfl) es) rfl

theorem exec_loop_takes {s : State} {sb : BitVec 1} {p : BitVec 3} (a : BitVec 5) (imm : BitVec 12) (hm : MayIssue s sb p .all)
    (hd : (me s).dslots = 0) (h2 : (getVoice s (hereOf s).k (hereOf s).v).second = false) :
    exec (.loop sb p a imm) s = finish (hereOf s) s (
      if visS (me s) a = 0 then
        .retire .keep false (snapshotBanks (setArchAt s (hereOf s) (rebuildChain (me s) (loopEnd (pc s) imm) (me s).lc).1)
          (hereOf s).k (hereOf s).v (endsOf (me s) (rebuildChain (me s) (loopEnd (pc s) imm) (me s).lc).2))
      else if 4 ≤ (me s).lc.length then .trap 0x05 0 s
      else .retire .keep false (snapshotBanks (setArchAt s (hereOf s)
          (rebuildChain (me s) (pc s + 4) (⟨pc s + 4, loopEnd (pc s) imm, visS (me s) a⟩ :: (me s).lc)).1) (hereOf s).k (hereOf s).v
          (endsOf { me s with lc := ⟨pc s + 4, loopEnd (pc s) imm, visS (me s) a⟩ :: (me s).lc }
            (rebuildChain (me s) (pc s + 4) (⟨pc s + 4, loopEnd (pc s) imm, visS (me s) a⟩ :: (me s).lc)).2))) := by
  obtain ⟨ht, hpl, hlive⟩ := hm
  rw [exec_loop, execLoop, issue_takes ht.1 ht.2.1 (loopIll_eq_false hd h2) ht.2.2.1 ht.2.2.2 (.inl ⟨hpl.1, hlive⟩)]
  rw [← loopEnd_eq]
  rfl

/-- Settles O14: what LOOP does is `exec_loop_takes`, where it may not stand `issue_ill`, and that it does nothing else
`near_rebuildChain`. -/
theorem loopsPushALevelOrSkip : Obligations.LoopsPushALevelOrSkip := by
  refine ⟨fun s sb p a imm hm hd h2 => ⟨fun h0 => ?skip, fun hn hl => ?push, fun hn hl => ?nest⟩,
    fun s sb p a imm ht => ⟨fun hill => ?illegal, fun hd h2 hpl hp => ?falsePredicate⟩, fun r b lc => ⟨rfl, rfl, rfl, rfl⟩⟩
  case skip =>
    rw [Completes, exec_loop_takes a imm hm hd h2, if_pos h0]
    exact ⟨_, rfl, did_retire (near_rebuildChain ..) rfl⟩
  case push =>
    rw [Completes, exec_loop_takes a imm hm hd h2, if_neg hn, if_neg (by omega)]
    exact ⟨_, rfl, did_retire (near_rebuildChain ..) rfl⟩
  case nest =>
    rw [Traps, exec_loop_takes a imm hm hd h2, if_neg hn, if_pos hl]
    rfl
  case illegal =>
    rw [Traps, exec_loop, execLoop, issue_ill ht (by simpa [loopIll, Nat.pos_iff_ne_zero] using hill)]
    rfl
  case falsePredicate =>
    rw [Completes, exec_loop, execLoop, issue_skips ht.1 ht.2.1 (loopIll_eq_false hd h2) ht.2.2.1 ht.2.2.2 (.inr hp) hpl.2]
    exact ⟨_, rfl, did_retire (near_refl s) rfl⟩

end Sys2Proof.Machine
end

section
/-! O10: what recording a faced write does (R12, R14, R18), and the scalar words whose write finds no room (R18, R24). -/

namespace Sys2Proof.Machine

open Sys2Proof.Claim

/-! ### Recording a write (R14, R18) -/

theorem wGet_wSet {a : VoiceArch} {r q : RegId} (hq : wIndex q < 128) : wGet (wSet a r) q = (wGet a q || decide (wIndex q = wIndex r)) := by
  unfold wGet wSet
  rw [BitVec.getLsbD_or, BitVec.getLsbD_shiftLeft, BitVec.getLsbD_one]
  by_cases h : wIndex q = wIndex r
  · simp [h ▸ hq, h]
  · have : ¬(¬wIndex q < wIndex r ∧ wIndex q - wIndex r = 0) := by omega
    simp only [h, decide_false, Bool.or_false]
    simp
    omega

/-- CLASHCNT saturates at 32 bits. -/
theorem noteClash_clashcnt (a : VoiceArch) : (noteClash a).clashcnt.toNat = min (a.clashcnt.toNat + 1) 0xFFFFFFFF := by
  have hlt := a.clashcnt.isLt
  unfold noteClash
  by_cases h : a.clashcnt = BitVec.allOnes 32
  · simp [h]
  · have hne : a.clashcnt.toNat ≠ 0xFFFFFFFF := fun he => h (BitVec.eq_of_toNat_eq (by simpa using he))
    simp only [h, if_false, BitVec.toNat_add, show (1 : BitVec 32).toNat = 1 from rfl]
    omega

theorem clashes_iff {a : VoiceArch} {r : RegId} (hc : isConstReg r = false) :
    clashes a r = true ↔ wGet a r = true ∨ ∃ p ∈ a.pending, p.reg = r := by
  simp [clashes, hc]

theorem record_const (now : Nat) (a : VoiceArch) {w : Wr} (h : isConstReg w.reg = true) : record now a w = a := by
  rw [record, if_pos h]

/-- What a write that is not discarded records: its W bit and its pending result, over the clash it may be. -/
theorem record_faced (now : Nat) (a : VoiceArch) {w : Wr} (h : isConstReg w.reg = false) : record now a w =
    wSet { (if clashes a w.reg then noteClash a else a) with
      pending := a.pending.filter (fun p => decide (p.reg ≠ w.reg)) ++ [⟨w.reg, w.val, now + w.lat, now⟩] } w.reg := by
  have hp : (if clashes a w.reg then noteClash a else a).pending = a.pending := by split <;> rfl
  simp [record, h, hp]

theorem record_spec (now : Nat) (a : VoiceArch) {w : Wr} (hc : isConstReg w.reg = false) (hi : wIndex w.reg < 128) :
    (record now a w).vis = a.vis ∧ (record now a w).hid = a.hid ∧ wGet (record now a w) w.reg = true ∧
    (∀ r, wIndex r < 128 → wIndex r ≠ wIndex w.reg → wGet (record now a w) r = wGet a r) ∧
    (record now a w).pending = a.pending.filter (fun p => decide (p.reg ≠ w.reg)) ++ [⟨w.reg, w.val, now + w.lat, now⟩] ∧
    (record now a w).clash = (a.clash || clashes a w.reg) ∧
    (record now a w).clashcnt = if clashes a w.reg then (noteClash a).clashcnt else a.clashcnt := by
  rw [record_faced now a hc]
  cases clashes a w.reg
  all_goals
    refine ⟨rfl, rfl, by simp [wGet_wSet hi], fun r hr hne => ?_, rfl, by simp [wSet, noteClash], by simp [wSet]⟩
    rw [wGet_wSet hr, decide_eq_false hne, Bool.or_false]
    rfl

/-! ### Scalar words whose write finds no room (R18, R24) -/

/-- The word is one faced write of a register, under a predicate. -/
def IsOneWrite (i : Instr) (sb : BitVec 1) (p : BitVec 3) (perm : Perm) (r : RegId) : Prop :=
  ∃ (live : Here → State → Bool) (val : Here → State → Row) (lat : Nat),
    (∀ s, exec i s = issue sb 0 perm false noIll live (fun h t => writeOne h r (val h t) lat t) s) ∧
    ∀ s, Live s p → live (hereOf s) s = true

theorem isOneWrite_scalarWord {i : Instr} {sb : BitVec 1} {p : BitVec 3} {d : BitVec 5} {lat : Nat} {f : VoiceArch → Word}
    (h : ∀ s, exec i s = scalarWord sb p d lat f s) : IsOneWrite i sb p .all (.s d.toNat) :=
  ⟨predLive p, fun g t => row64 (f (archAt t g)), lat, h, fun _ hp => hp⟩

theorem isOneWrite_predWord {i : Instr} {sb : BitVec 1} {p d : BitVec 3} {f : VoiceArch → Bool}
    (h : ∀ s, exec i s = predWord sb p d f s) : IsOneWrite i sb p .all (.p d.toNat) :=
  ⟨predLive p, fun g t => row1 (f (archAt t g)), 1, h, fun _ hp => hp⟩

/-- A format U word, which has no predicate. -/
theorem isOneWrite_upperWord {i : Instr} {sb : BitVec 1} {d : BitVec 5} {f : Here → Word}
    (h : ∀ s, exec i s = upperWord sb d f s) : IsOneWrite i sb 0 .all (.s d.toNat) :=
  ⟨alwaysLive, _, 1, h, fun _ _ => rfl⟩

/-- SEL writes whatever its selector is. -/
theorem isOneWrite_sel (sb : BitVec 1) (k : BitVec 3) (d a b : BitVec 5) : IsOneWrite (.sel sb k d a b) sb 0 .all (.s d.toNat) :=
  ⟨alwaysLive, _, 1, fun s => exec_sel sb k d a b s, fun _ _ => rfl⟩

theorem isOneWrite_of_scalarResult {i : Instr} {a : VAddr} {r : VoiceArch} {x : OneWrite} (h : scalarResult a r i = some x) :
    IsOneWrite i x.sb x.p x.perm x.wr.reg := by
  cases i
  case lui => exact Option.some.inj h ▸ isOneWrite_upperWord (exec_lui _ _ _)
  case lapc => exact Option.some.inj h ▸ isOneWrite_upperWord (exec_lapc _ _ _)
  case sel => exact Option.some.inj h ▸ isOneWrite_sel _ _ _ _ _
  case addi => exact Option.some.inj h ▸ isOneWrite_scalarWord (exec_addi _ _ _ _ _)
  case andi => exact Option.some.inj h ▸ isOneWrite_scalarWord (exec_andi _ _ _ _ _)
  case ori => exact Option.some.inj h ▸ isOneWrite_scalarWord (exec_ori _ _ _ _ _)
  case xori => exact Option.some.inj h ▸ isOneWrite_scalarWord (exec_xori _ _ _ _ _)
  case shli => exact Option.some.inj h ▸ isOneWrite_scalarWord (exec_shli _ _ _ _ _)
  case shri => exact Option.some.inj h ▸ isOneWrite_scalarWord (exec_shri _ _ _ _ _)
  case srai => exact Option.some.inj h ▸ isOneWrite_scalarWord (exec_srai _ _ _ _ _)
  case roli => exact Option.some.inj h ▸ isOneWrite_scalarWord (exec_roli _ _ _ _ _)
  case add => exact Option.some.inj h ▸ isOneWrite_scalarWord (exec_add _ _ _ _ _)
  case sub => exact Option.some.inj h ▸ isOneWrite_scalarWord (exec_sub _ _ _ _ _)
  case and => exact Option.some.inj h ▸ isOneWrite_scalarWord (exec_and _ _ _ _ _)
  case or => exact Option.some.inj h ▸ isOneWrite_scalarWord (exec_or _ _ _ _ _)
  case xor => exact Option.some.inj h ▸ isOneWrite_scalarWord (exec_xor _ _ _ _ _)
  case andn => exact Option.some.inj h ▸ isOneWrite_scalarWord (exec_andn _ _ _ _ _)
  case shl => exact Option.some.inj h ▸ isOneWrite_scalarWord (exec_shl _ _ _ _ _)
  case shr => exact Option.some.inj h ▸ isOneWrite_scalarWord (exec_shr _ _ _ _ _)
  case sra => exact Option.some.inj h ▸ isOneWrite_scalarWord (exec_sra _ _ _ _ _)
  case rol => exact Option.some.inj h ▸ isOneWrite_scalarWord (exec_rol _ _ _ _ _)
  case min => exact Option.some.inj h ▸ isOneWrite_scalarWord (exec_min _ _ _ _ _)
  case max => exact Option.some.inj h ▸ isOneWrite_scalarWord (exec_max _ _ _ _ _)
  case minn => exact Option.some.inj h ▸ isOneWrite_scalarWord (exec_minn _ _ _ _ _)
  case maxn => exact Option.some.inj h ▸ isOneWrite_scalarWord (exec_maxn _ _ _ _ _)
  case mul => exact Option.some.inj h ▸ isOneWrite_scalarWord (exec_mul _ _ _ _ _)
  case mulh => exact Option.some.inj h ▸ isOneWrite_scalarWord (exec_mulh _ _ _ _ _)
  case mulhn => exact Option.some.inj h ▸ isOneWrite_scalarWord (exec_mulhn _ _ _ _ _)
  case clz => exact Option.some.inj h ▸ isOneWrite_scalarWord (exec_clz _ _ _ _)
  case popc => exact Option.some.inj h ▸ isOneWrite_scalarWord (exec_popc _ _ _ _)
  case sext => exact Option.some.inj h ▸ isOneWrite_scalarWord (exec_sext _ _ _ _ _)
  case zext => exact Option.some.inj h ▸ isOneWrite_scalarWord (exec_zext _ _ _ _ _)
  case cmpeqi => exact Option.some.inj h ▸ isOneWrite_predWord (exec_cmpeqi _ _ _ _ _)
  case cmplti => exact Option.some.inj h ▸ isOneWrite_predWord (exec_cmplti _ _ _ _ _)
  case cmpltni => exact Option.some.inj h ▸ isOneWrite_predWord (exec_cmpltni _ _ _ _ _)
  case cmpeq => exact Option.some.inj h ▸ isOneWrite_predWord (exec_cmpeq _ _ _ _ _)
  case cmpne => exact Option.some.inj h ▸ isOneWrite_predWord (exec_cmpne _ _ _ _ _)
  case cmplt => exact Option.some.inj h ▸ isOneWrite_predWord (exec_cmplt _ _ _ _ _)
  case cmple => exact Option.some.inj h ▸ isOneWrite_predWord (exec_cmple _ _ _ _ _)
  case cmpltn => exact Option.some.inj h ▸ isOneWrite_predWord (exec_cmpltn _ _ _ _ _)
  case cmplen => exact Option.some.inj h ▸ isOneWrite_predWord (exec_cmplen _ _ _ _ _)
  case pand => exact Option.some.inj h ▸ isOneWrite_predWord (exec_pand _ _ _ _ _)
  case por => exact Option.some.inj h ▸ isOneWrite_predWord (exec_por _ _ _ _ _)
  case pxor => exact Option.some.inj h ▸ isOneWrite_predWord (exec_pxor _ _ _ _ _)
  case pnot => exact Option.some.inj h ▸ isOneWrite_predWord (exec_pnot _ _ _ _)
  all_goals cases h

/-- Which writes stall and which trap does not depend on what they write (R18, R24). -/
theorem exec_of_isOneWrite {i : Instr} {s : State} {sb : BitVec 1} {p : BitVec 3} {perm : Perm} {w : Wr}
    (hi : IsOneWrite i sb p perm w.reg) (hm : MayIssue s sb p perm) :
    (fileFull (hereOf s).v (me s) (needs [w]) = true → Stalls s i false) ∧
    (fileFull (hereOf s).v (me s) (needs [w]) = false → (me s).clashtrap = true → clashes (me s) w.reg = true →
      Traps s i 0x04 0 (pmCount (setArchAt s (hereOf s) (noteClash (me s))) (hereOf s).k (clauseAt s (hereOf s)) 6 1)) := by
  obtain ⟨live, val, lat, hexec, hlive⟩ := hi
  obtain ⟨ht, hpl, hp⟩ := hm
  have hneeds : needs [⟨w.reg, val (hereOf s) s, lat⟩] = needs [w] := by
    cases hc : isConstReg w.reg <;> simp [needs, hc]
  have hrun := issue_takes (ill := noIll) (body := fun h t => writeOne h w.reg (val h t) lat t) ht.1 ht.2.1 rfl ht.2.2.1 ht.2.2.2
    (.inl ⟨hpl.1, hlive s hp⟩)
  refine ⟨fun hfull => ?_, fun hroom htrap hclash => ?_⟩
  · rw [Stalls, hexec, hrun, writeOne, withWrites, hneeds, if_pos hfull]
    rfl
  · rw [Traps, hexec, hrun, writeOne, withWrites, hneeds, if_neg (by simp [hroom]), if_pos (by simp [htrap, hclash])]
    rfl

/-- Settles O10: what recording a write does is `record_spec`, and what a scalar word without room does `exec_of_isOneWrite`. -/
theorem clashesAreRecordedOrTrap : Obligations.ClashesAreRecordedOrTrap := by
  refine ⟨fun now a w => ⟨record_const now a, fun hc hi => ?_⟩, fun i s x hx hm => exec_of_isOneWrite (isOneWrite_of_scalarResult hx) hm⟩
  obtain ⟨hvis, hhid, hw, hothers, hpend, hclash, hcnt⟩ := record_spec now a hc hi
  refine ⟨hvis, hhid, hw, hothers, hpend, fun hold => ?_, fun hnot hnone => ?_⟩
  · have hcl := (clashes_iff hc).mpr hold
    rw [hclash, hcnt, hcl, if_pos rfl]
    exact ⟨Bool.or_true _, noteClash_clashcnt a⟩
  · have hcl : clashes a w.reg = false := by
      rw [← Bool.not_eq_true, clashes_iff hc]
      rintro (h | ⟨p, hp, hr⟩)
      · exact Bool.false_ne_true (hnot.symm.trans h)
      · exact hnone p hp hr
    rw [hclash, hcnt, hcl]
    exact ⟨Bool.or_false _, rfl⟩

end Sys2Proof.Machine
end

section
/-! O11: FLIP and the exchange of faces (R16). -/

namespace Sys2Proof.Machine

open Sys2Proof.Claim

/-! ### One face (R12): reads after writes -/

/-- The maps of a face are in canonical form. -/
structure FaceWf (f : Faces) : Prop where
  s : mwf 0 f.s = true
  p : mwf 0 f.p = true
  v : mwf 0 f.v = true
  m : mwf 0 f.m = true

theorem faceWf_of_facesCanonical {a : VoiceArch} (h : facesCanonical a = true) : FaceWf a.vis ∧ FaceWf a.hid := by
  simp only [facesCanonical, Bool.and_eq_true] at h
  obtain ⟨⟨⟨⟨⟨⟨⟨hvs, hvp⟩, hvv⟩, hvm⟩, hhs⟩, hhp⟩, hhv⟩, hhm⟩ := h
  exact ⟨⟨hvs, hvp, hvv, hvm⟩, ⟨hhs, hhp, hhv, hhm⟩⟩

theorem faceSet_const {r : RegId} (h : isConstReg r = true) (f : Faces) (x : Row) : faceSet f r x = f := by
  unfold faceSet
  rw [if_pos h]

theorem faceWf_faceSet {f : Faces} (hf : FaceWf f) (r : RegId) (x : Row) : FaceWf (faceSet f r x) := by
  unfold faceSet
  split
  · exact hf
  · cases r
    · exact { hf with s := mwf_mset 0 hf.s _ _ }
    · exact { hf with p := mwf_mset 0 hf.p _ _ }
    · exact { hf with v := mwf_mset 0 hf.v _ _ }
    · exact { hf with m := mwf_mset 0 hf.m _ _ }
    · exact { hf with }

/-- A register that takes another face's value reads as it. -/
theorem faceGet_faceSet_same {f : Faces} (hf : FaceWf f) (g : Faces) (r : RegId) :
    faceGet (faceSet f r (faceGet g r)) r = faceGet g r := by
  cases hc : isConstReg r
  case true =>
    rw [faceSet_const hc]
    cases r <;> simp_all [isConstReg, faceGet]
  case false =>
    cases r
    case s n => simp_all [isConstReg, faceSet, faceGet, sget_sset_same hf.s]
    case p n => simp_all [isConstReg, faceSet, faceGet, sget_sset_same hf.p]
    case v n => simp [isConstReg, faceSet, faceGet, sget_sset_same hf.v]
    case m n => simp_all [isConstReg, faceSet, faceGet, sget_sset_same hf.m]
    case vflags => simp [isConstReg, faceSet, faceGet]

theorem faceGet_faceSet_ne {f : Faces} (hf : FaceWf f) {r q : RegId} (x : Row) (h : q ≠ r) :
    faceGet (faceSet f r x) q = faceGet f q := by
  cases hc : isConstReg r
  case true => rw [faceSet_const hc]
  case false =>
    cases r
    case s n => cases q <;> simp_all [faceSet, faceGet, sget_sset_ne hf.s]
    case p n => cases q <;> simp_all [faceSet, faceGet, sget_sset_ne hf.p]
    case v n => cases q <;> simp_all [faceSet, faceGet, sget_sset_ne hf.v]
    case m n => cases q <;> simp_all [faceSet, faceGet, sget_sset_ne hf.m]
    case vflags => cases q <;> simp_all [faceSet, faceGet]

/-! ### The exchange of faces (R16) -/

@[simp] theorem wGet_swapOne (a : VoiceArch) (r q : RegId) : wGet (swapOne a r) q = wGet a q := by
  unfold swapOne
  split <;> rfl

theorem faceWf_swapOne {a : VoiceArch} (hv : FaceWf a.vis) (hh : FaceWf a.hid) (r : RegId) :
    FaceWf (swapOne a r).vis ∧ FaceWf (swapOne a r).hid := by
  unfold swapOne
  split
  · exact ⟨faceWf_faceSet hv _ _, faceWf_faceSet hh _ _⟩
  · exact ⟨hv, hh⟩

theorem swapOne_same {a : VoiceArch} (hv : FaceWf a.vis) (hh : FaceWf a.hid) {r : RegId} (hw : wGet a r = true) :
    faceGet (swapOne a r).vis r = faceGet a.hid r ∧ faceGet (swapOne a r).hid r = faceGet a.vis r := by
  rw [swapOne, if_pos hw]
  exact ⟨faceGet_faceSet_same hv _ r, faceGet_faceSet_same hh _ r⟩

theorem swapOne_unwritten {a : VoiceArch} {r : RegId} (hw : wGet a r = false) : swapOne a r = a := by
  rw [swapOne, if_neg (by simp [hw])]

theorem swapOne_ne {a : VoiceArch} (hv : FaceWf a.vis) (hh : FaceWf a.hid) {r q : RegId} (h : q ≠ r) :
    faceGet (swapOne a r).vis q = faceGet a.vis q ∧ faceGet (swapOne a r).hid q = faceGet a.hid q := by
  unfold swapOne
  split
  · exact ⟨faceGet_faceSet_ne hv _ h, faceGet_faceSet_ne hh _ h⟩
  · exact ⟨rfl, rfl⟩

theorem swapAll_not_mem {rs : List RegId} {q : RegId} (hq : q ∉ rs) {a : VoiceArch} (hv : FaceWf a.vis) (hh : FaceWf a.hid) :
    faceGet (swapAll a rs).vis q = faceGet a.vis q ∧ faceGet (swapAll a rs).hid q = faceGet a.hid q := by
  induction rs generalizing a with
  | nil => exact ⟨rfl, rfl⟩
  | cons r rs ih =>
    obtain ⟨hne, hnot⟩ := not_or.mp (List.mem_cons.not.mp hq)
    obtain ⟨hv', hh'⟩ := faceWf_swapOne hv hh r
    obtain ⟨h1, h2⟩ := ih hnot hv' hh'
    obtain ⟨h3, h4⟩ := swapOne_ne hv hh hne
    exact ⟨h1.trans h3, h2.trans h4⟩

/-- Each register of the list is exchanged once, when its W bit is set. -/
theorem swapAll_mem {rs : List RegId} (hrs : rs.Nodup) {q : RegId} (hq : q ∈ rs) {a : VoiceArch} (hv : FaceWf a.vis)
    (hh : FaceWf a.hid) :
    (wGet a q = true → faceGet (swapAll a rs).vis q = faceGet a.hid q ∧ faceGet (swapAll a rs).hid q = faceGet a.vis q) ∧
    (wGet a q = false → faceGet (swapAll a rs).vis q = faceGet a.vis q ∧ faceGet (swapAll a rs).hid q = faceGet a.hid q) := by
  induction rs generalizing a with
  | nil => cases hq
  | cons r rs ih =>
    obtain ⟨hr, hrest⟩ := List.nodup_cons.mp hrs
    obtain ⟨hv', hh'⟩ := faceWf_swapOne hv hh r
    by_cases heq : q = r
    · subst heq
      obtain ⟨h1, h2⟩ := swapAll_not_mem hr hv' hh'
      refine ⟨fun hw => ?_, fun hw => ?_⟩
      · obtain ⟨h3, h4⟩ := swapOne_same hv hh hw
        exact ⟨h1.trans h3, h2.trans h4⟩
      · rw [swapOne_unwritten hw] at h1 h2
        rw [swapAll, swapOne_unwritten hw]
        exact ⟨h1, h2⟩
    · have hmem : q ∈ rs := (List.mem_cons.mp hq).resolve_left heq
      obtain ⟨h3, h4⟩ := swapOne_ne hv hh heq
      have := ih hrest hmem hv' hh'
      rwa [wGet_swapOne, h3, h4] at this

theorem faceSet_vflags {r : RegId} (h : r ≠ .vflags) (f : Faces) (x : Row) : (faceSet f r x).vflags = f.vflags := by
  unfold faceSet
  cases r <;> simp_all <;> split <;> rfl

theorem swapAll_vflags {rs : List RegId} (h : .vflags ∉ rs) (a : VoiceArch) :
    (swapAll a rs).vis.vflags = a.vis.vflags ∧ (swapAll a rs).hid.vflags = a.hid.vflags := by
  induction rs generalizing a with
  | nil => exact ⟨rfl, rfl⟩
  | cons r rs ih =>
    obtain ⟨hne, hnot⟩ := not_or.mp (List.mem_cons.not.mp h)
    obtain ⟨h1, h2⟩ := ih hnot (swapOne a r)
    rw [swapAll, h1, h2, swapOne]
    split
    · exact ⟨faceSet_vflags (Ne.symm hne) _ _, faceSet_vflags (Ne.symm hne) _ _⟩
    · exact ⟨rfl, rfl⟩

theorem vflags_not_mem_facedRegs : RegId.vflags ∉ facedRegs := by decide

theorem nodup_facedRegs : facedRegs.Nodup := by decide

/-- VFLAGS apart, FLIP's faces are those of the exchange. -/
theorem faceGet_flipArch {q : RegId} (h : q ≠ .vflags) (a : VoiceArch) :
    faceGet (flipArch a).vis q = faceGet (swapAll a facedRegs).vis q ∧
      faceGet (flipArch a).hid q = faceGet (swapAll a facedRegs).hid q := by
  unfold flipArch
  cases hw : wGet a .vflags <;> cases q <;> simp_all [faceGet]

theorem flipArch_vflags (a : VoiceArch) :
    (wGet a .vflags = true → (flipArch a).vis.vflags = a.hid.vflags ||| a.raised ∧ (flipArch a).hid.vflags = a.vis.vflags) ∧
    (wGet a .vflags = false → (flipArch a).vis.vflags = a.vis.vflags ||| a.raised ∧ (flipArch a).hid.vflags = a.hid.vflags) := by
  unfold flipArch
  refine ⟨fun hw => ?_, fun hw => ?_⟩
  · simp [hw]
  · simp [hw, swapAll_vflags vflags_not_mem_facedRegs a]

/-! ### The word FLIP -/

theorem fileEmpty_iff (a : VoiceArch) : fileEmpty a = true ↔ a.pending = [] ∧ a.flagq = [] := by
  simp [fileEmpty]

theorem withFlip_go {h : Here} {s : State} {go : State → Res} (hp : (archAt s h).pending = []) (hf : (archAt s h).flagq = [])
    (hq : sealQueueFull s h.k h.v = false) :
    withFlip h s go = go (pmCount (setArchAt s h (flipArch (archAt s h))) h.k (clauseAt s h) 5 1) := by
  rw [withFlip, (fileEmpty_iff _).mpr ⟨hp, hf⟩, hq]
  rfl

theorem withFlip_waits {h : Here} {s : State} {go : State → Res} (hb : (archAt s h).pending ≠ [] ∨ (archAt s h).flagq ≠ []) :
    withFlip h s go = .stall false s := by
  have hne : fileEmpty (archAt s h) = false := by
    rw [← Bool.not_eq_true, fileEmpty_iff]
    rintro ⟨hp, hf⟩
    exact hb.elim (· hp) (· hf)
  rw [withFlip, hne]
  rfl

/-- Settles O11: the word's cases are `withFlip_go` and `withFlip_waits`, the exchange `swapAll_mem`, the flags `flipArch_vflags`. -/
theorem flipExchangesTheWrittenFaces : Obligations.FlipExchangesTheWrittenFaces := by
  refine ⟨fun s sb p hm => ⟨fun hp hf hq => ?exchanges, fun hb => ?waits⟩, fun s sb p ht hw hn => ?skipped,
    fun a r hr hc hcan => ?faces, fun a => ⟨rfl, rfl, flipArch_vflags a⟩⟩
  case exchanges =>
    rw [Completes, exec_flip, execFlip]
    exact word_did hm (withFlip_go hp hf hq)
      (near_as (near_count (near_setArch (near_refl s) _ (e := { arch := flipArch }) rfl rfl) _ _ _) rfl) rfl
  case waits =>
    rw [Stalls, exec_flip, execFlip, word_takes hm, withFlip_waits hb]
    rfl
  case skipped =>
    refine ⟨_, exec_skips rfl ht rfl hw (hn.imp_right fun h => ?_), did_retire (near_refl s) rfl⟩
    rw [liveOf_of_predOf rfl, h]
  case faces =>
    obtain ⟨hv, hh⟩ := faceWf_of_facesCanonical hcan
    obtain ⟨h1, h2⟩ := faceGet_flipArch (fun he => vflags_not_mem_facedRegs (he ▸ hr)) a
    rw [h1, h2]
    exact swapAll_mem nodup_facedRegs hr hv hh

end Sys2Proof.Machine
end

section
/-! O3: one turn of a voice, from the fetch to the next turn (R19, R40, R59, R85, R94). -/

namespace Sys2Proof.Machine

open Sys2Proof.Claim

theorem markAt_setMark (s : State) (h : Here) (m : Mark) : markAt (setMark s h m) h = m := by
  simp [markAt, setMark]

theorem markAt_takeTrap (h : Here) (cause : Nat) (fault : Word) (s : State) : markAt (takeTrap h cause fault s) h = .trapped :=
  markAt_setMark ..

theorem archAt_setMark (s : State) (h : Here) (m : Mark) : archAt (setMark s h m) h = archAt s h := by
  simp [archAt, getArch, setMark]

theorem getVoice_chargeBanks (s : State) (k req : Nat) (bs : List Nat) (j : Nat) (v : VoiceId) :
    getVoice (chargeBanks s k req bs) j v = getVoice s j v := by
  induction bs generalizing s with
  | nil => rfl
  | cons b r ih => rw [chargeBanks, ih, chargeBank, getVoice_pmCount]; rfl

theorem getVoice_countLosses (s : State) (k : Nat) (v : VoiceId) (rs : List Nat) (j : Nat) (u : VoiceId) :
    getVoice (countLosses s k v rs) j u = getVoice s j u := by
  rw [countLosses, getVoice_pmCount, getVoice_changes]

theorem getVoice_serveReads (s : State) (h : Here) :
    getVoice (serveReads s h) h.k h.v = { getVoice s h.k h.v with replay := some (readsLeft s h) } := by
  rw [serveReads, getVoice_setVoice, getVoice_countLosses]

/-- The next voice's turn changes no voice. -/
theorem getVoice_nextTurn (s t : State) (k : Nat) (v : VoiceId) : getVoice (nextTurn s t) k v = getVoice t k v := by
  simp only [nextTurn]
  split <;> rfl

/-- A voice that may issue takes its turn. -/
theorem step_voice {s : State} (h1 : 1 ≤ s.turn) (h4 : s.turn ≤ 4) (hr : voiceReady s (turnVoice s.turn) = true) :
    step s = afterVoice s (runVoice exec s) := by
  rw [step, stepWith, if_neg (by omega), if_pos h4, if_pos hr]

/-- Only an X voice's bank reads are left over (R84). -/
theorem isX_of_readsLeft {s : State} {h : Here} (hr : readsLeft s h ≠ []) : h.v.isX = true := by
  by_contra hx
  exact hr (by rw [readsLeft, if_neg hx])

theorem isX_of_pairAt {s : State} {h : Here} (hp : pairAt s h = true) : h.v.isX = true := by
  unfold pairAt at hp
  split at hp
  · exact (Bool.and_eq_true_iff.mp hp).1
  · cases hp

theorem ne_A_of_isX {v : VoiceId} (h : v.isX = true) : v ≠ .A := by
  rintro rfl
  cases h

theorem pairAt_A {s : State} {h : Here} (hA : h.v = .A) : pairAt s h = false := by
  by_contra hp
  exact ne_A_of_isX (isX_of_pairAt (Bool.eq_true_of_not_eq_false hp)) hA

/-- Voice A's scratchpad banks refuse nothing where its word cannot be fetched. -/
theorem banksRefused_of_no_word {s : State} (hA : (hereOf s).v = .A)
    (hf : ∀ w, fetchAt s (hereOf s).k (hereOf s).v (pc s).toNat ≠ .word w) : banksRefused s (hereOf s).k = [] := by
  have hbanks : banksOfA s (hereOf s).k = [] := by
    have hpc : pc s = (getArch s (hereOf s).k (hereOf s).v).na0.addr := rfl
    rw [hpc, hA] at hf
    rw [banksOfA]
    cases hfetch : fetchAt s (hereOf s).k .A (getArch s (hereOf s).k .A).na0.addr.toNat with
    | word w => exact absurd hfetch (hf w)
    | fault => simp only [ite_self]
    | check va st => simp only [ite_self]
  rw [banksRefused, hbanks]
  rfl

/-- A turn whose banks serve the voice is the word's, or the pair's. -/
theorem runVoice_served {s : State} (ex : Meaning) (hr : readsLeft s (hereOf s) = [])
    (hA : (hereOf s).v = .A → banksRefused s (hereOf s).k = []) : runVoice ex s = runIssue ex s := by
  have hgated : runGated ex s = runIssue ex s := by
    unfold runGated
    cases runIssue ex s <;> simp
    intro hv _ hb
    exact absurd (hA hv) hb
  unfold runVoice
  rw [hgated]
  cases runIssue ex s <;> simp [hr]

theorem runIssue_alone {s : State} (ex : Meaning) (hp : pairAt s (hereOf s) = false) : runIssue ex s = runWord ex s := by
  unfold runIssue
  cases runWord ex s <;> simp [hp]

theorem runIssue_not_issued {s t : State} (ex : Meaning) (hw : runWord ex s = .next t) (hm : markAt t (hereOf s) ≠ .issued) :
    runIssue ex s = .next t := by
  unfold runIssue
  simp [hw, hm]

theorem runIssue_pair {s t : State} (ex : Meaning) (hw : runWord ex s = .next t) (hm : markAt t (hereOf s) = .issued)
    (hp : pairAt s (hereOf s) = true) : runIssue ex s = runSecond ex s (hereOf s) t := by
  unfold runIssue
  simp [hw, hm, hp]

theorem runWord_word {s : State} {w : BitVec 32} (ex : Meaning)
    (hf : fetchAt s (hereOf s).k (hereOf s).v (pc s).toNat = .word w) :
    runWord ex s = runFetched ex w (fetchFill s (hereOf s).k (hereOf s).v (pc s).toNat) := by
  unfold runWord
  simp only [hf]

theorem runWord_decoded {s : State} {w : BitVec 32} {i : Instr} (ex : Meaning)
    (hf : fetchAt s (hereOf s).k (hereOf s).v (pc s).toNat = .word w) (hd : decodeWord w = some i) :
    runWord ex s = ex i (fetchFill s (hereOf s).k (hereOf s).v (pc s).toNat) := by
  rw [runWord_word ex hf, runFetched, hd]

theorem runWord_fault {s : State} (ex : Meaning) (hf : fetchAt s (hereOf s).k (hereOf s).v (pc s).toNat = .fault) :
    runWord ex s = finish (hereOf s) s (.trap 0x08 ((pc s).setWidth 64) s) := by
  unfold runWord
  simp only [hf]

theorem runWord_check {s : State} {va st : Nat} (ex : Meaning)
    (hf : fetchAt s (hereOf s).k (hereOf s).v (pc s).toNat = .check va st) :
    runWord ex s = finish (hereOf s) s (.halt (machineCheck s (hereOf s).k va st)) := by
  unfold runWord
  simp only [hf]

/-- An X voice whose bank reads are refused keeps them and waits (R85). -/
theorem runVoice_reads_refused {s t : State} (ex : Meaning) (hi : runIssue ex s = .next t) (hm : markAt t (hereOf s) = .issued)
    (hr : readsLeft s (hereOf s) ≠ []) : runVoice ex s = .next (setMark (serveReads s (hereOf s)) (hereOf s) .stalled) := by
  have hgated : runGated ex s = .next t := by
    unfold runGated
    simp [hi, ne_A_of_isX (isX_of_readsLeft hr)]
  unfold runVoice
  simp [hgated, hm, hr]

/-- Voice A waits while a scratchpad bank refuses it (R94). -/
theorem runVoice_banks_refused {s t : State} (ex : Meaning) (hi : runIssue ex s = .next t) (hm : markAt t (hereOf s) = .issued)
    (hA : (hereOf s).v = .A) (hb : banksRefused s (hereOf s).k ≠ []) :
    runVoice ex s = .next (setMark (chargeBanks s (hereOf s).k 0 (banksRefused s (hereOf s).k)) (hereOf s) .stalled) := by
  have hgated : runGated ex s =
      .next (setMark (chargeBanks s (hereOf s).k 0 (banksRefused s (hereOf s).k)) (hereOf s) .stalled) := by
    unfold runGated
    simp [hi, hA, hm, hb]
  unfold runVoice
  simp [hgated, markAt_setMark]

/-- Settles O3: a voice's turn is `step_voice`; what it runs follows from the fetch (the `runWord_` lemmas), from whether it runs a
pair (the `runIssue_` lemmas) and from its banks (the `runVoice_` lemmas). -/
theorem stepRunsTheDecodedWord : Obligations.StepRunsTheDecodedWord := by
  intro s h1 h4 hready
  rw [step_voice h1 h4 hready]
  refine ⟨fun hreads => ⟨fun hf => ?fault, fun va st hf hothers => ?check⟩,
    fun w hf => ⟨fun hp hreads hA => ⟨fun i hd => ?decoded, fun hd => ?undecoded⟩,
      fun i t hd hx hm => ⟨fun hp hreads => ?pair, fun hp hreads => ?reads, fun hA hb => ?banks⟩⟩⟩
  case fault =>
    have hnoword : ∀ w, fetchAt s (hereOf s).k (hereOf s).v (pc s).toNat ≠ .word w := fun w => by simp [hf]
    rw [runVoice_served exec hreads (banksRefused_of_no_word · hnoword)]
    congr 1
    have hw := runWord_fault exec hf
    rw [finish] at hw
    split at hw
    · rw [if_pos ‹_›]
      exact runIssue_not_issued exec hw (by simp [markAt_setMark])
    · rw [if_neg ‹_›]
      exact runIssue_not_issued exec hw (by simp [markAt_takeTrap])
  case check =>
    have hnoword : ∀ w, fetchAt s (hereOf s).k (hereOf s).v (pc s).toNat ≠ .word w := fun w => by simp [hf]
    rw [runVoice_served exec hreads (banksRefused_of_no_word · hnoword)]
    have hw := runWord_check exec hf
    rw [finish, if_neg (by simp [hothers])] at hw
    rw [runIssue_not_issued exec hw (by simp [markAt_setMark])]
  case decoded =>
    rw [runVoice_served exec hreads hA, runIssue_alone exec hp, runWord_decoded exec hf hd]
  case undecoded =>
    rw [runVoice_served exec hreads hA, runIssue_alone exec hp, runWord_word exec hf, runFetched, hd]
  case pair =>
    rw [runVoice_served exec hreads (fun hA => absurd hA (ne_A_of_isX (isX_of_pairAt hp))),
      runIssue_pair exec ((runWord_decoded exec hf hd).trans hx) hm hp]
  case reads =>
    have hi : runIssue exec s = .next t := (runIssue_alone exec hp).trans ((runWord_decoded exec hf hd).trans hx)
    rw [runVoice_reads_refused exec hi hm hreads]
    refine ⟨_, rfl, ?_, ?_, ?_⟩
    · rw [markAt, getVoice_nextTurn]
      exact markAt_setMark ..
    · rw [archAt, getArch, getVoice_nextTurn]
      exact (archAt_setMark ..).trans (by rw [archAt, getArch, getVoice_serveReads]; rfl)
    · rw [getVoice_nextTurn, setMark, getVoice_setVoice, getVoice_serveReads]
  case banks =>
    have hi : runIssue exec s = .next t :=
      (runIssue_alone exec (pairAt_A hA)).trans ((runWord_decoded exec hf hd).trans hx)
    rw [runVoice_banks_refused exec hi hm hA hb]
    refine ⟨_, rfl, ?_, ?_⟩
    · rw [markAt, getVoice_nextTurn]
      exact markAt_setMark ..
    · rw [archAt, getArch, getVoice_nextTurn]
      exact (archAt_setMark ..).trans (by rw [archAt, getArch, getVoice_chargeBanks]; rfl)

end Sys2Proof.Machine
end

section
/-! Stops (R25, R172): what the boundary of all four voices and the stop of a thread change, and what they leave alone. -/

namespace Sys2Proof.Machine

open Sys2Proof.Claim

theorem getSlot_congr (s : State) {j k : Nat} (h : j = 0 ↔ k = 0) : getSlot s j = getSlot s k := by
  unfold getSlot
  by_cases hk : k = 0 <;> simp_all

/-- A part of a slot that no voice has a share in. -/
def NoVoicePart {α : Type} (f : Slot → α) : Prop := ∀ x v y, f (setSlotVoice x v y) = f x

theorem getSlot_closeClause_part {α : Type} {f : Slot → α} (hf : NoVoicePart f) (s : State) (k : Nat) (v : VoiceId) (b : Nat)
    (st : Bool) : f (getSlot (closeClause s k v b st) k) = f (getSlot s k) := by
  rw [getSlot_closeClause, hf]

theorem getSlot_closeAll_part {α : Type} {f : Slot → α} (hf : NoVoicePart f) (s : State) (k b : Nat) (vs : List VoiceId) :
    f (getSlot (closeAll s k b vs) k) = f (getSlot s k) := by
  induction vs generalizing s with
  | nil => rfl
  | cons v r ih => rw [closeAll, ih, getSlot_closeClause_part hf]

theorem getSlot_closeAll_other (s : State) {j k : Nat} (b : Nat) (vs : List VoiceId) (h : ¬(j = 0 ↔ k = 0)) :
    getSlot (closeAll s k b vs) j = getSlot s j := by
  induction vs generalizing s with
  | nil => rfl
  | cons v r ih => rw [closeAll, ih, getSlot_closeClause_other _ _ _ _ h]

@[simp] theorem getArch_closeAll (s : State) (k b : Nat) (vs : List VoiceId) (j : Nat) (v : VoiceId) :
    getArch (closeAll s k b vs) j v = getArch s j v := by
  by_cases h : j = 0 ↔ k = 0
  · rw [getArch, getArch, getVoice, getVoice, getSlot_congr _ h, getSlot_congr s h]
    change getArch (closeAll s k b vs) k v = getArch s k v
    induction vs generalizing s with
    | nil => rfl
    | cons u r ih => rw [closeAll, ih, getArch_closeClause]
  · simp only [getArch, getVoice, getSlot_closeAll_other s b vs h]

/-- The slot of a thread that has been stopped, over the slot with its clauses closed. -/
theorem getSlot_stopThread (s : State) (k cause : Nat) (voice : Option VoiceId) (async : Bool) (fault : Word) (word : BitVec 32)
    (b : Nat) (scyc : Word) : getSlot (stopThread s k cause voice async fault word b scyc) k =
      { getSlot (closeAll s k b allVoices) k with
        stop := some ⟨cause, voice, async, fault, word, scyc, b, inHandler (getSlot s k), (slotClosed s k).map (fun c => c.id),
          allVoices.map (fun v => curClause s k v)⟩
        run := .stopping
        trapped := none } := by
  have hrun : inHandler (getSlot (closeAll s k b allVoices) k) = inHandler (getSlot s k) :=
    getSlot_closeAll_part (f := inHandler) (fun x v y => by cases v <;> rfl) ..
  simp only [stopThread, getSlot_setSlot, hrun]

theorem getSlot_stopThread_other (s : State) {j k : Nat} (cause : Nat) (voice : Option VoiceId) (async : Bool) (fault : Word)
    (word : BitVec 32) (b : Nat) (scyc : Word) (h : ¬(j = 0 ↔ k = 0)) :
    getSlot (stopThread s k cause voice async fault word b scyc) j = getSlot s j := by
  simp only [stopThread, getSlot_setSlot_other _ _ h, getSlot_closeAll_other s b allVoices h]

@[simp] theorem getArch_stopThread (s : State) (k cause : Nat) (voice : Option VoiceId) (async : Bool) (fault : Word)
    (word : BitVec 32) (b : Nat) (scyc : Word) (j : Nat) (v : VoiceId) :
    getArch (stopThread s k cause voice async fault word b scyc) j v = getArch s j v := by
  by_cases h : j = 0 ↔ k = 0
  · rw [← getArch_closeAll s k b allVoices j v]
    simp only [getArch, getVoice, getSlot_congr _ h, getSlot_stopThread]
    cases v <;> rfl
  · simp only [getArch, getVoice, getSlot_stopThread_other s cause voice async fault word b scyc h]

/-- A part of the slot that neither a voice, nor the run state, the stop or the cycle's TRAP has a share in outlives the stop. -/
theorem getSlot_stopThread_part {α : Type} {f : Slot → α} (hf : NoVoicePart f)
    (hstop : ∀ x st r t, f { x with stop := st, run := r, trapped := t } = f x) (s : State) (k cause : Nat) (voice : Option VoiceId)
    (async : Bool) (fault : Word) (word : BitVec 32) (b : Nat) (scyc : Word) :
    f (getSlot (stopThread s k cause voice async fault word b scyc) k) = f (getSlot s k) := by
  rw [getSlot_stopThread, hstop, getSlot_closeAll_part hf]

/-- A stop leaves the thread stopped with its cause, and nothing else of it changed (R25). -/
theorem stoppedWith_stopThread (s : State) (k cause : Nat) (voice : Option VoiceId) (async : Bool) (fault : Word) (word : BitVec 32)
    (b : Nat) (scyc : Word) :
    StoppedWith s (stopThread s k cause voice async fault word b scyc) k cause voice async fault word b := by
  refine ⟨by rw [getSlot_stopThread], ⟨_, by rw [getSlot_stopThread], rfl, rfl, rfl, rfl, rfl, rfl, rfl, rfl⟩,
    fun j v => getArch_stopThread .., by simp, by simp, by simp⟩

end Sys2Proof.Machine
end

section
/-! O17: ERET, its two halves and the reload of the record (R74, R317). -/

namespace Sys2Proof.Machine

open Sys2Proof.Claim

theorem getVoice_setMark_same (s : State) (h : Here) (m : Mark) :
    getVoice (setMark s h m) h.k h.v = { getVoice s h.k h.v with mark := m } := by
  rw [setMark, getVoice_setVoice]

/-- A voice's mark is no part of its state. -/
@[simp] theorem getArch_setMark (s : State) (h : Here) (m : Mark) (j : Nat) (v : VoiceId) :
    getArch (setMark s h m) j v = getArch s j v := by
  by_cases hj : j = 0 ↔ h.k = 0
  · rw [getArch, getArch, getVoice, getVoice, getSlot_congr _ hj, getSlot_congr s hj]
    change (getVoice (setMark s h m) h.k v).a = (getVoice s h.k v).a
    by_cases hv : v = h.v
    · rw [hv, getVoice_setMark_same]
    · rw [setMark, getVoice_setVoice_ne _ _ _ hv]
  · rw [getArch, setMark, getVoice_setVoice_other _ _ _ _ hj]
    rfl

theorem getSlot_setMark_part {α : Type} {f : Slot → α} (hf : NoVoicePart f) (s : State) (h : Here) (m : Mark) :
    f (getSlot (setMark s h m) h.k) = f (getSlot s h.k) := by
  rw [setMark, setVoice, getSlot_setSlot, hf]

/-! ### The record reloaded -/

/-- The voices are what the record says. -/
theorem getArch_reloadRecord (s : State) (ps : List Part) (v : VoiceId) :
    getArch (reloadRecord s (hereOf s).k ps (slotAt s (hereOf s)).recAddr (s.now + 1)) (hereOf s).k v = reloaded s ps v := by
  rw [reloadRecord, getArch, getVoice_setSlot]
  cases v <;> rfl

theorem getSlot_reloadRecord (s : State) (k : Nat) (ps : List Part) (ra n : Nat) :
    (getSlot (reloadRecord s k ps ra n) k).run = .running ∧ (getSlot (reloadRecord s k ps ra n) k).stop = none ∧
    (getSlot (reloadRecord s k ps ra n) k).startAt = n ∧
    (getSlot (reloadRecord s k ps ra n) k).heldSignal = (getSlot s k).heldSignal := by
  rw [reloadRecord, getSlot_setSlot]
  exact ⟨rfl, rfl, rfl, rfl⟩

/-- What an event of the core's slots leaves alone: arrays, held effects, memories. -/
structure KeptOutside (s t : State) : Prop where
  array : KeptArray s t
  held : t.core.held = s.core.held
  out : t.core.out = s.core.out
  cmds : t.core.cmds = s.core.cmds
  nwrs : t.core.nwrs = s.core.nwrs
  spad : t.core.spad = s.core.spad
  pkg : t.pkg = s.pkg

theorem KeptOutside.trans {s t u : State} (h : KeptOutside s t) (g : KeptOutside t u) : KeptOutside s u := by
  obtain ⟨⟨hc, hh, hg, ht, ha⟩, h1, h2, h3, h4, h5, h6⟩ := h
  obtain ⟨⟨gc, gh, gg, gt, ga⟩, g1, g2, g3, g4, g5, g6⟩ := g
  exact ⟨⟨gc.trans hc, gh.trans hh, gg.trans hg, gt.trans ht, ga.trans ha⟩, g1.trans h1, g2.trans h2, g3.trans h3, g4.trans h4,
    g5.trans h5, g6.trans h6⟩

theorem keptOutside_refl (s : State) : KeptOutside s s := ⟨⟨rfl, rfl, rfl, rfl, rfl⟩, rfl, rfl, rfl, rfl, rfl, rfl⟩

theorem keptOutside_setSlot (s : State) (k : Nat) (x : Slot) : KeptOutside s (setSlot s k x) := by
  constructor <;> simp [KeptArray]

theorem keptOutside_setMark (s : State) (h : Here) (m : Mark) : KeptOutside s (setMark s h m) := by
  constructor <;> simp [KeptArray]

theorem keptOutside_stopThread (s : State) (k cause : Nat) (voice : Option VoiceId) (async : Bool) (fault : Word)
    (word : BitVec 32) (b : Nat) (scyc : Word) : KeptOutside s (stopThread s k cause voice async fault word b scyc) := by
  constructor <;> simp [KeptArray]

theorem takeHeld_none {s : State} {k : Nat} (h : (getSlot s k).heldSignal = false) (n : Nat) : takeHeld s k n = s := by
  simp [takeHeld, h]

theorem takeHeld_held {s : State} {k : Nat} (h : (getSlot s k).heldSignal = true) (n : Nat) : takeHeld s k n =
    stopThread (setSlot s k { getSlot s k with heldSignal := false }) k 0x20 none true 0 0 n ((getSlot s k).scyc + 1) := by
  simp [takeHeld, h]

theorem keptOutside_takeHeld (s : State) (k n : Nat) : KeptOutside s (takeHeld s k n) := by
  cases h : (getSlot s k).heldSignal
  · rw [takeHeld_none h]
    exact keptOutside_refl s
  · rw [takeHeld_held h]
    exact (keptOutside_setSlot ..).trans (keptOutside_stopThread ..)

theorem getArch_setSlot_voices {s : State} {k : Nat} {x : Slot} (h : ∀ v, slotVoice x v = getVoice s k v) (j : Nat) (v : VoiceId) :
    getArch (setSlot s k x) j v = getArch s j v := by
  by_cases hj : j = 0 ↔ k = 0
  · rw [getArch, getArch, getVoice, getSlot_congr _ hj, getSlot_setSlot, h, getVoice, getVoice, getSlot_congr s hj]
  · rw [getArch, getVoice, getSlot_setSlot_other _ _ hj]
    rfl

theorem getArch_takeHeld (s : State) (k n j : Nat) (v : VoiceId) : getArch (takeHeld s k n) j v = getArch s j v := by
  cases h : (getSlot s k).heldSignal
  · rw [takeHeld_none h]
  · rw [takeHeld_held h, getArch_stopThread]
    exact getArch_setSlot_voices (fun v => by cases v <;> rfl) j v

/-- A SIGNAL held over the handler stops the thread again before any word of it issues (R317). -/
theorem getSlot_takeHeld {s : State} {k : Nat} (h : (getSlot s k).heldSignal = true) (n : Nat) :
    (getSlot (takeHeld s k n) k).run = .stopping ∧ (getSlot (takeHeld s k n) k).heldSignal = false ∧
    ∃ st, (getSlot (takeHeld s k n) k).stop = some st ∧ st.cause = 0x20 ∧ st.voice = none ∧ st.async = true ∧ st.at_ = n := by
  rw [takeHeld_held h]
  refine ⟨by rw [getSlot_stopThread], ?_, _, by rw [getSlot_stopThread], rfl, rfl, rfl, rfl⟩
  rw [getSlot_stopThread_part (f := Slot.heldSignal) (fun x v y => by simp) (fun _ _ _ _ => rfl), getSlot_setSlot]

/-! ### The word ERET -/

/-- The wait that the first half of ERET begins. -/
def eretWait (s : State) : Wait := ⟨.eret, clauseAt s (hereOf s), [], 0, 0, s.now, pc s⟩

/-- The first half of ERET: it ends its clause, where a word has issued in it, and waits. -/
theorem exec_eret_begins {s : State} {sb : BitVec 1} {p : BitVec 3} (ht : Takes s sb 0 .a false)
    (hh : (slotAt s (hereOf s)).run = .handler) (hpl : Plain s) (hlive : Live s p) :
    exec (.eret sb p) s = finish (hereOf s) s (
      if !fileEmpty (me s) || ((getVoice s (hereOf s).k (hereOf s).v).issued && sealQueueFull s (hereOf s).k (hereOf s).v)
      then .stall false s
      else .retire .keep (getVoice s (hereOf s).k (hereOf s).v).issued
        (setArchAt s (hereOf s) { me s with wait := some (eretWait s) })) := by
  rw [exec_eret, execEret, issue_takes ht.1 ht.2.1 (by simp [eretIll, inHandler, hh]) ht.2.2.1 ht.2.2.2 (.inl ⟨hpl.1, hlive⟩)]
  simp only [hpl.2]
  rfl

/-- The voice once ERET waits. -/
def eretBegun (s : State) (a : VoiceArch) : VoiceArch := { a with wait := some (eretWait s) }

theorem did_eret_begins (s : State) (c : Bool) : Did s (retire (hereOf s) .keep c (setArchAt s (hereOf s) (eretBegun s (me s))))
    { arch := eretBegun s, flow := .keep, closes := c } := by
  have hn : Near s (setArchAt s (hereOf s) (eretBegun s (me s))) { arch := eretBegun s } := near_setArch (near_refl s) _ rfl rfl
  exact did_retire (d := { arch := eretBegun s, flow := .keep, closes := c }) (near_as hn rfl) rfl

/-- The second half of ERET: once every clause of the slot has sealed it reloads the record. -/
theorem exec_eret_ends {s : State} {sb : BitVec 1} {p : BitVec 3} (ht : Takes s sb 0 .a false)
    (hh : (slotAt s (hereOf s)).run = .handler) {w : Wait} (hw : (me s).wait = some w) :
    exec (.eret sb p) s = finish (hereOf s) s (
      if slotClosed s (hereOf s).k = [] then eretReload (hereOf s) s else .stall false s) := by
  rw [exec_eret, execEret, issue_takes ht.1 ht.2.1 (by simp [eretIll, inHandler, hh]) ht.2.2.1 ht.2.2.2 (.inr (by simp [hw]))]
  simp only [hw]

theorem eretReload_untranslated {s : State} {h : Here} {bad : Nat}
    (hp : spanParts s (threadCtx s h.k) true .read (slotAt s h).recAddr 3 recordSize = .error bad) :
    eretReload h s = .trap 0x09 (mod64 bad) s := by
  simp only [eretReload, hp]
  rfl

theorem eretReload_poisoned {s : State} {h : Here} {ps : List Part} {a : Nat}
    (hp : spanParts s (threadCtx s h.k) true .read (slotAt s h).recAddr 3 recordSize = .ok ps)
    (ha : poisonedRecord s ps = some a) : eretReload h s = .halt (machineCheck s h.k a (storageCode a)) := by
  simp only [eretReload, hp, ha]

theorem eretReload_ok {s : State} {h : Here} {ps : List Part}
    (hp : spanParts s (threadCtx s h.k) true .read (slotAt s h).recAddr 3 recordSize = .ok ps)
    (ha : poisonedRecord s ps = none) :
    eretReload h s = .halt (takeHeld (reloadRecord s h.k ps (slotAt s h).recAddr (s.now + 1)) h.k (s.now + 1)) := by
  simp only [eretReload, hp, ha]

theorem finish_halt {s u : State} {h : Here} (ho : othersIssued s h = false) : finish h s (.halt u) = .next (setMark u h .trapped) := by
  rw [finish, if_neg (by simp [ho])]

/-- Settles O17: ERET's halves are `exec_eret_begins` and `exec_eret_ends`, the reload the lemmas of `eretReload`; the voices are those
of `getArch_reloadRecord`, and a SIGNAL held over the handler is `getSlot_takeHeld`. -/
theorem eretReloadsTheRecord : Obligations.EretReloadsTheRecord := by
  intro s sb p ht
  refine ⟨fun hn => ?outside, fun hh => ⟨fun hpl hlive hb => ?busy, fun hpl hlive hpend hflag hq => ?waits,
    fun w hw hc => ?unsealed, fun w hw hc => ⟨fun bad hp => ?untranslated,
      fun ps hp => ⟨fun a ha ho => ?poisoned, fun ha ho => ?reloads⟩⟩⟩⟩
  case outside =>
    rw [Traps, exec_eret, execEret, issue_ill ht (by simp [eretIll, inHandler, hn])]
    rfl
  case busy =>
    have hne : fileEmpty (me s) = false := by
      rw [← Bool.not_eq_true, fileEmpty_iff, not_and_or]
      exact hb
    rw [Stalls, exec_eret_begins ht hh hpl hlive, if_pos (by simp [hne])]
    rfl
  case waits =>
    rw [exec_eret_begins ht hh hpl hlive, if_neg (by simp [(fileEmpty_iff _).mpr ⟨hpend, hflag⟩, hq])]
    exact ⟨_, _, rfl, did_eret_begins s _⟩
  case unsealed =>
    rw [Stalls, exec_eret_ends ht hh hw, if_neg hc]
    rfl
  case untranslated =>
    rw [Traps, exec_eret_ends ht hh hw, if_pos hc, eretReload_untranslated hp]
    rfl
  case poisoned => rw [exec_eret_ends ht hh hw, if_pos hc, eretReload_poisoned hp ha, finish_halt ho]
  case reloads =>
    rw [exec_eret_ends ht hh hw, if_pos hc, eretReload_ok hp ha, finish_halt ho]
    obtain ⟨hrun, hstop, hstart, hheldSig⟩ := getSlot_reloadRecord s (hereOf s).k ps (slotAt s (hereOf s)).recAddr (s.now + 1)
    obtain ⟨harray, hheld, hout, hcmds, hnwrs, hspad, hpkg⟩ :=
      ((keptOutside_setSlot s (hereOf s).k _).trans (keptOutside_takeHeld
        (reloadRecord s (hereOf s).k ps (slotAt s (hereOf s)).recAddr (s.now + 1)) (hereOf s).k (s.now + 1))).trans
      (keptOutside_setMark _ (hereOf s) .trapped)
    refine ⟨_, rfl, fun v => ?_, harray, ⟨by simpa [heldBy] using hheld, hout, hcmds, hnwrs⟩, fun a => by rw [hspad],
      fun a => by rw [hpkg], fun hno => ?_, fun hsig => ?_⟩
    · rw [getArch_setMark, getArch_takeHeld, getArch_reloadRecord]
    · rw [takeHeld_none (hheldSig.trans hno)]
      exact ⟨(getSlot_setMark_part (f := Slot.run) (fun x v y => by simp) ..).trans hrun,
        (getSlot_setMark_part (f := Slot.stop) (fun x v y => by simp) ..).trans hstop,
        (getSlot_setMark_part (f := Slot.startAt) (fun x v y => by simp) ..).trans hstart⟩
    · obtain ⟨hr, hs, st, hst, hcause⟩ := getSlot_takeHeld (hheldSig.trans hsig) (s.now + 1)
      exact ⟨(getSlot_setMark_part (f := Slot.run) (fun x v y => by simp) ..).trans hr,
        (getSlot_setMark_part (f := Slot.heldSignal) (fun x v y => by simp) ..).trans hs,
        st, (getSlot_setMark_part (f := Slot.stop) (fun x v y => by simp) ..).trans hst, hcause⟩

end Sys2Proof.Machine
end

section
/-! O41: the statement's frame of a trap record's write speaks of every memory, canonical or not. In one whose keys do not rise, a pair
hides those of lower addresses behind it, and a write that removes it shows them again. -/

namespace Sys2Proof.Machine

open Sys2Proof.Claim

/-- A memory whose keys do not rise: the pair of address 105 hides that of address 50, which reads as zero. -/
def unorderedMemory : State := { State.reset with pkg := { State.reset.pkg with mem := [(105, 1), (50, 7)] } }

def someStop : Stop := ⟨0, none, false, 0, 0, 0, 0, false, [], []⟩

/-- A record at virtual address 0, in memory from address 100 on. -/
def recordPart : Part := ⟨0, 100, recordSize, 0⟩

/-- The pieces of a record lie inside it. -/
theorem recordPieces_in_record : ∀ q ∈ recordPieces unorderedMemory 0 someStop, q.1 + q.2.1 ≤ recordSize := by decide +kernel

theorem sget_unorderedMemory : sget unorderedMemory.pkg.mem 50 = 0 := rfl

/-- The record's zero byte at address 105 takes the pair there away, and address 50 comes to light. -/
theorem sget_writeSpan_unorderedMemory :
    sget (writeSpan unorderedMemory [recordPart] 0 (recordPieces unorderedMemory 0 someStop)).pkg.mem 50 = 7 := by decide +kernel

/-- Refutes O41: its third part, that a trap record changes no byte outside its span, fails for a memory that is not in canonical form
(address 50 of `unorderedMemory` lies outside the record, reads 0 before its write and 7 after it). -/
theorem not_trapsStopTheThreadAndEnterTheHandler : ¬ Obligations.TrapsStopTheThreadAndEnterTheHandler := by
  rintro ⟨-, -, hframe, -, -⟩
  have hin : ∀ q ∈ recordPieces unorderedMemory 0 someStop, ∀ i < q.2.1,
      ∃ p ∈ [recordPart], p.va ≤ 0 + q.1 + i ∧ 0 + q.1 + i < p.va + p.len := by
    intro q hq i hi
    have hend := recordPieces_in_record q hq
    refine ⟨recordPart, List.mem_singleton_self _, Nat.zero_le _, ?_⟩
    change 0 + q.1 + i < 0 + recordSize
    omega
  have hmiss : Misses [recordPart] 50 := by
    intro p hp
    rw [List.mem_singleton.mp hp]
    exact .inl (by decide)
  have hkept := hframe unorderedMemory [recordPart] 0 0 someStop hin 50 hmiss
  rw [sget_writeSpan_unorderedMemory, sget_unorderedMemory] at hkept
  exact absurd hkept (by decide)

end Sys2Proof.Machine
end

section
/-! O43: results that land (R14, R87, R95, R222, R225) and the yield of a slot (R79). -/

namespace Sys2Proof.Machine

open Sys2Proof.Claim

/-! ### The first element that passes a test -/

theorem findFirst_some {α : Type} {f : α → Bool} {l : List α} {x : α} (h : findFirst f l = some x) : f x = true := by
  induction l with
  | nil => cases h
  | cons y r ih =>
    rw [findFirst] at h
    split at h
    · cases h
      assumption
    · exact ih h

/-- A map that the test does not see through is taken after the search. -/
theorem findFirst_map {α β : Type} {f : β → Bool} {g : α → Bool} {m : α → β} (h : ∀ x, f (m x) = g x) (l : List α) :
    findFirst f (l.map m) = (findFirst g l).map m := by
  induction l with
  | nil => rfl
  | cons y r ih =>
    rw [List.map_cons, findFirst, findFirst, h, ih]
    split <;> rfl

/-! ### Reads performed (R222, R225) -/

theorem placeHeld_core (s : State) (k : Nat) (x : Xfer) :
    placeHeld s k x = { s with core := { s.core with placed := (placeHeld s k x).core.placed } } := by
  unfold placeHeld
  split <;> rfl

/-- What a read sees does not depend on which held writes are placed. -/
theorem readRow_placeHeld (s : State) (k : Nat) (x y : Xfer) : readRow (placeHeld s k y) k x = readRow s k x := by
  rw [placeHeld_core]
  rfl

/-- The slot's transfers once a read has been performed. -/
theorem xfers_performRead (s : State) (k : Nat) (x : Xfer) : (getSlot (performRead s k x) k).xfers =
    (getSlot s k).xfers.map (fun z => if z.id = x.id then
      { z with val := some (readRow s k x), fault := hostFault (placeHeld s k x) x } else z) := by
  have hslot : getSlot (placeHeld s k x) k = getSlot s k := by
    rw [placeHeld_core]
    rfl
  simp only [performRead, getSlot_setSlot, hslot, readRow_placeHeld]

theorem val_performRead {s : State} {k : Nat} {x : Xfer} (h : findFirst (fun y => decide (y.id = x.id)) (getSlot s k).xfers = some x) :
    (findFirst (fun y => decide (y.id = x.id)) (getSlot (performRead s k x) k).xfers).bind (fun y => y.val) =
      some (readRow s k x) := by
  rw [xfers_performRead, findFirst_map (g := fun y => decide (y.id = x.id)) (fun z => by split <;> rfl), h]
  simp

theorem performRead_keeps (s : State) (k : Nat) (x : Xfer) :
    (∀ j v, getArch (performRead s k x) j v = getArch s j v) ∧ (performRead s k x).pkg = s.pkg := by
  have hgetSlot : ∀ j, getSlot (placeHeld s k x) j = getSlot s j := fun j => by
    rw [placeHeld_core]
    rfl
  have hpkg : (placeHeld s k x).pkg = s.pkg := by rw [placeHeld_core]
  refine ⟨fun j v => ?_, by simpa [performRead] using hpkg⟩
  rw [performRead, getArch_setSlot_voices (fun u => by cases u <;> rfl)]
  simp only [getArch, getVoice, hgetSlot]

/-! ### Pending results -/

theorem landAt_due {a : VoiceArch} {n : Nat} {p : Pending} {now : Nat} (hp : a.pending[n]? = some p) (hd : p.due ≤ now) :
    landAt a now n = { a with hid := faceSet a.hid p.reg p.val, pending := dropIndex a.pending n } := by
  obtain ⟨hn, -⟩ := List.getElem?_eq_some_iff.mp hp
  rw [landAt, if_pos hn, hp]
  simp only [if_pos hd]
  rfl

/-! ### Queue entries and landing slots -/

theorem exec_queueEntryFill_of_fill {s : State} {k q n : Nat} {e : QEntry} (he : (getQueue (getCtl s k) q)[n]? = some e) {f : Fill}
    (hf : findFirst (fun f => decide (f.id = e.id)) (getSlot s k).fills = some f) (hd : f.due ≤ s.now) (hc : clockRuns s = true) :
    exec (.queueEntryFill k q n) s = .next (setSlot s k { getSlot s k with
      fills := (getSlot s k).fills.filter (fun g => decide (g.id ≠ e.id)), qvals := mput (getSlot s k).qvals e.id ⟨f.val, none⟩ }) := by
  rw [exec_queueEntryFill, execQueueEntryFill]
  simp only [he, hf, hd, hc, and_self, if_true]

/-- An entry that no word's value is on its way to fills with what its transfer has read. -/
theorem queueEntryFill_spec {s : State} {k q n : Nat} {e : QEntry} (he : (getQueue (getCtl s k) q)[n]? = some e) {y : Xfer}
    (hf : findFirst (fun f => decide (f.id = e.id)) (getSlot s k).fills = none)
    (hy : findFirst (fun y => decide (y.id = e.id)) (getSlot s k).xfers = some y) :
    (∀ r, y.val = some r →
      ∃ t, exec (.queueEntryFill k q n) s = .next t ∧ (getSlot t k).qvals = mput (getSlot s k).qvals e.id ⟨r, xferPoison s k y⟩ ∧
        (∀ v, getArch t k v = getArch s k v) ∧ t.pkg = s.pkg) ∧
    (y.val = none → loadWaits s k y = false →
      ∃ t, exec (.queueEntryFill k q n) s = .next t ∧
        (findFirst (fun y => decide (y.id = e.id)) (getSlot t k).xfers).bind (fun y => y.val) = some (readRow s k y) ∧
        (∀ v, getArch t k v = getArch s k v) ∧ t.pkg = s.pkg) ∧
    (y.val = none → loadWaits s k y = true → Idle (.queueEntryFill k q n) s) := by
  rw [Idle, exec_queueEntryFill, execQueueEntryFill]
  simp only [he, hf, hy]
  have hid : y.id = e.id := by simpa using findFirst_some hy
  refine ⟨fun r hr => ?_, fun hn hw => ?_, fun hn hw => by simp [hn, hw]⟩
  · rw [hr]
    exact ⟨_, rfl, by simp, fun v => by rw [getArch_pmCount, getArch_setSlot_voices (fun u => by cases u <;> rfl)], by simp⟩
  · obtain ⟨harch, hpkg⟩ := performRead_keeps s k y
    rw [hn, hw]
    rw [← hid] at hy ⊢
    exact ⟨_, rfl, val_performRead hy, harch k, hpkg⟩

theorem landingXfer_found {s : State} {k key : Nat} {x : Xfer} (h : landingXfer s k key = some x) :
    findFirst (fun y => decide (y.id = x.id)) (getSlot s k).xfers = some x := by
  unfold landingXfer at h
  split at h
  · cases h
  · split at h
    · cases h
    · have hid := findFirst_some h
      simp only [decide_eq_true_eq] at hid
      rwa [hid]

theorem landingArrival_spec {s : State} {k : Nat} {v : VoiceId} {lb : Nat} {x : Xfer} (h : landingXfer s k (8 * v.num + lb) = some x) :
    (∀ r, x.val = some r →
      ∃ t, exec (.landingArrival k v lb) s = .next t ∧
        (getSlot t k).arrived = mput (getSlot s k).arrived x.id ⟨r, xferPoison s k x, x.fault⟩ ∧
        (∀ u, getArch t k u = getArch s k u) ∧ t.pkg = s.pkg) ∧
    (x.val = none → x.remote = false → loadWaits s k x = false →
      ∃ t, exec (.landingArrival k v lb) s = .next t ∧
        (findFirst (fun y => decide (y.id = x.id)) (getSlot t k).xfers).bind (fun y => y.val) = some (readRow s k x) ∧
        (∀ u, getArch t k u = getArch s k u) ∧ t.pkg = s.pkg) ∧
    (x.val = none → x.remote = true ∨ loadWaits s k x = true → Idle (.landingArrival k v lb) s) := by
  rw [Idle, exec_landingArrival, execLandingArrival]
  simp only [h]
  refine ⟨fun r hr => ?_, fun hn hlocal hw => ?_, fun hn hb => by simp [hn, hb]⟩
  · rw [hr]
    exact ⟨_, rfl, by simp, fun v => by rw [getArch_pmCount, getArch_setSlot_voices (fun u => by cases u <;> rfl)], by simp⟩
  · obtain ⟨harch, hpkg⟩ := performRead_keeps s k x
    rw [hn, hlocal, hw]
    exact ⟨_, rfl, val_performRead (landingXfer_found h), harch k, hpkg⟩

/-! ### The yield of a slot (R79) -/

theorem mem_allVoices (v : VoiceId) : v ∈ allVoices := by cases v <;> decide

theorem allWait_iff (s : State) : allWait s = true ↔ AllWait s := by
  simp only [allWait, AllWait, Bool.and_eq_true, List.all_eq_true, List.any_eq_true, List.mem_filter, mem_allVoices, true_and,
    forall_const, decide_eq_true_eq, Bool.or_eq_true, and_assoc]

theorem exec_slotYield_passes {s : State} (hw : AllWait s) (hg : s.otherGo = true) :
    exec .slotYield s = .next (pmCount { s with core := { s.core with act := 1 - s.core.act, deadTill := s.now + 2 } } s.core.act
      (curClause s s.core.act .A) 4 1) := by
  rw [exec_slotYield, execSlotYield, if_pos (by simp [(allWait_iff s).mpr hw, hg])]

theorem exec_slotYield_stays {s : State} (h : ¬AllWait s ∨ s.otherGo = false) : exec .slotYield s = .next s := by
  rw [← allWait_iff] at h
  rw [exec_slotYield, execSlotYield, if_neg]
  rw [Bool.and_eq_true, not_and_or, Bool.not_eq_true s.otherGo]
  exact h

/-- Settles O43: a pending result lands by `landAt_due`; entries and landing slots fill by `exec_queueEntryFill_of_fill`,
`queueEntryFill_spec` and `landingArrival_spec`; the yield is judged by `allWait_iff`. -/
theorem arrivingResultsFillTheirPlaces : Obligations.ArrivingResultsFillTheirPlaces := by
  refine ⟨fun s k v n p hc hp hd => ?lands, ⟨fun s k q n e he => ⟨fun f hf hd hc => ?fills, fun y hf hy => queueEntryFill_spec he hf hy⟩,
    fun s k v lb x h => landingArrival_spec h, fun s => ⟨fun hw hg => ?yields, exec_slotYield_stays⟩⟩⟩
  case lands =>
    rw [exec_pendingResultLand, execPendingResultLand, if_pos hc, landAt_due hp hd]
    exact ⟨_, rfl, rfl⟩
  case fills =>
    refine ⟨_, exec_queueEntryFill_of_fill he hf hd hc, by rw [getSlot_setSlot], fun g hg => ?_, fun v => ?_, by simp, by simp⟩
    · rw [getSlot_setSlot] at hg
      simpa using (List.mem_filter.mp hg).2
    · exact getArch_setSlot_voices (fun u => by cases u <;> rfl) ..
  case yields =>
    refine ⟨_, exec_slotYield_passes hw hg, by simp, by simp, fun k v => ?_, by simp, by simp, by simp⟩
    rw [getArch_pmCount]
    rfl

end Sys2Proof.Machine
end

section
/-! O22, lanes: the integer words of Table 8.4 as the machine computes them, lane by lane on 32-bit vectors, and as the statement gives
them, on numbers. -/

namespace Sys2Proof.Machine

open Sys2Proof.Claim

theorem lane_lt (w i : Nat) (x : Row) : lane w i x < 2 ^ w := Nat.mod_lt _ (Nat.two_pow_pos w)

theorem toNat_ofNat_lane (i : Nat) (x : Row) : (BitVec.ofNat 32 (lane 32 i x)).toNat = lane 32 i x := by
  rw [BitVec.toNat_ofNat, Nat.mod_eq_of_lt (lane_lt 32 i x)]

/-- An operation on numbers is one on 32-bit lanes where they agree modulo 2^32. -/
theorem intLanes_eq {f : Nat → Nat → Nat} {g : BitVec 32 → BitVec 32 → BitVec 32}
    (h : ∀ x y : BitVec 32, (g x y).toNat = f x.toNat y.toNat % 2 ^ 32) (m : BitVec 3) :
    intLanes m f = binary 32 m (intOp g) := by
  funext a vals old
  simp only [intLanes, binary, intOp, h, toNat_ofNat_lane]

theorem intTest_eq {f : Nat → Nat → Bool} {g : BitVec 32 → BitVec 32 → Bool} (h : ∀ x y : BitVec 32, g x y = f x.toNat y.toNat)
    (m : BitVec 3) : intTest m f = compare 32 m (intRel g) := by
  funext a vals old
  simp only [intTest, compare, intRel, h, toNat_ofNat_lane]

theorem signedPart_toNat (x : BitVec 32) : signedPart 32 x.toNat = x.toInt := by
  have hx := x.isLt
  rw [signedPart, BitVec.toInt_eq_toNat_cond, Nat.mod_eq_of_lt hx]
  split <;> split <;> omega

theorem toNat_mod_self (x : BitVec 32) : x.toNat % 2 ^ 32 = x.toNat := Nat.mod_eq_of_lt x.isLt

theorem toNat_ofInt_mod (z : Int) : (BitVec.ofInt 32 z).toNat = (z % 2 ^ 32).toNat % 2 ^ 32 := by
  rw [BitVec.toNat_ofInt]
  omega

theorem lanes_add (x y : BitVec 32) : (x + y).toNat = (x.toNat + y.toNat) % 2 ^ 32 := BitVec.toNat_add x y

theorem lanes_sub (x y : BitVec 32) : (x - y).toNat = (x.toNat + 2 ^ 32 - y.toNat) % 2 ^ 32 := by
  rw [BitVec.toNat_sub]
  omega

theorem lanes_mul (x y : BitVec 32) : (x * y).toNat = x.toNat * y.toNat % 2 ^ 32 := BitVec.toNat_mul x y

theorem lanes_mulHigh (x y : BitVec 32) : (mulHigh32 x y).toNat =
    (signedPart 32 x.toNat * signedPart 32 y.toNat / 2 ^ 32 % 2 ^ 32).toNat % 2 ^ 32 := by
  rw [signedPart_toNat, signedPart_toNat, mulHigh32, toNat_ofInt_mod]

theorem lanes_mulHighN (x y : BitVec 32) : (mulHighN32 x y).toNat = x.toNat * y.toNat / 2 ^ 32 % 2 ^ 32 := BitVec.toNat_ofNat ..

theorem lanes_min (x y : BitVec 32) : (if x.slt y then x else y).toNat =
    (if signedPart 32 x.toNat < signedPart 32 y.toNat then x.toNat else y.toNat) % 2 ^ 32 := by
  rw [signedPart_toNat, signedPart_toNat, ← toNat_mod_self, apply_ite BitVec.toNat]
  simp only [BitVec.slt, decide_eq_true_eq]

theorem lanes_max (x y : BitVec 32) : (if x.slt y then y else x).toNat =
    (if signedPart 32 x.toNat < signedPart 32 y.toNat then y.toNat else x.toNat) % 2 ^ 32 := by
  rw [signedPart_toNat, signedPart_toNat, ← toNat_mod_self, apply_ite BitVec.toNat]
  simp only [BitVec.slt, decide_eq_true_eq]

theorem lanes_minN (x y : BitVec 32) : (if x.ult y then x else y).toNat = min x.toNat y.toNat % 2 ^ 32 := by
  rw [← toNat_mod_self, apply_ite BitVec.toNat]
  simp only [BitVec.ult, decide_eq_true_eq]
  congr 1
  split <;> omega

theorem lanes_maxN (x y : BitVec 32) : (if x.ult y then y else x).toNat = max x.toNat y.toNat % 2 ^ 32 := by
  rw [← toNat_mod_self, apply_ite BitVec.toNat]
  simp only [BitVec.ult, decide_eq_true_eq]
  congr 1
  split <;> omega

theorem lanes_and (x y : BitVec 32) : (x &&& y).toNat = (x.toNat &&& y.toNat) % 2 ^ 32 := by
  rw [← BitVec.toNat_and, toNat_mod_self]

theorem lanes_or (x y : BitVec 32) : (x ||| y).toNat = (x.toNat ||| y.toNat) % 2 ^ 32 := by
  rw [← BitVec.toNat_or, toNat_mod_self]

theorem lanes_xor (x y : BitVec 32) : (x ^^^ y).toNat = (x.toNat ^^^ y.toNat) % 2 ^ 32 := by
  rw [← BitVec.toNat_xor, toNat_mod_self]

theorem lanes_shl (x y : BitVec 32) : (x <<< laneShift y).toNat = x.toNat * 2 ^ (y.toNat % 32) % 2 ^ 32 := by
  rw [BitVec.toNat_shiftLeft, Nat.shiftLeft_eq, laneShift]

theorem lanes_shr (x y : BitVec 32) : (x >>> laneShift y).toNat = x.toNat / 2 ^ (y.toNat % 32) % 2 ^ 32 := by
  rw [← toNat_mod_self, BitVec.toNat_ushiftRight, Nat.shiftRight_eq_div_pow, laneShift]

theorem lanes_sra (x y : BitVec 32) : (x.sshiftRight (laneShift y)).toNat =
    (signedPart 32 x.toNat / 2 ^ (y.toNat % 32) % 2 ^ 32).toNat % 2 ^ 32 := by
  rw [signedPart_toNat, BitVec.sshiftRight, toNat_ofInt_mod, Int.shiftRight_eq_div_pow, laneShift]
  norm_cast

theorem lanes_eq (x y : BitVec 32) : decide (x = y) = decide (x.toNat = y.toNat) := by simp only [BitVec.toNat_inj]

theorem lanes_lt (x y : BitVec 32) : x.slt y = decide (signedPart 32 x.toNat < signedPart 32 y.toNat) := by
  rw [signedPart_toNat, signedPart_toNat, BitVec.slt]

theorem lanes_ltN (x y : BitVec 32) : x.ult y = decide (x.toNat < y.toNat) := rfl

end Sys2Proof.Machine
end

section
/-! O22, words: each row of Tables 8.4 to 8.9 has the shared effect of R119 with its own computation. -/

namespace Sys2Proof.Machine

open Sys2Proof.Claim

/-- The instruction has the shared effect of a vector word, with these bits, sources, destination, latency and computation. -/
def IsVecWord (i : Instr) (x : VecWord (BitVec 5)) : Prop := ∀ s, exec i s = vecWord x.sb x.cb x.q x.srcs x.dst x.lat x.f s

/-- The same of a word that writes a mask or a scalar. -/
def IsVecToReg (i : Instr) (x : VecWord RegId) : Prop := ∀ s, exec i s = vecToReg x.sb x.cb x.q x.srcs x.dst x.lat x.f s

theorem isVecWord_int {i : Instr} {sb c q : BitVec 1} {m : BitVec 3} {d : BitVec 5} {srcs : List (BitVec 5)} {lat : Nat}
    {f : Nat → Nat → Nat} {g : BitVec 32 → BitVec 32 → BitVec 32} (h : ∀ x y, (g x y).toNat = f x.toNat y.toNat % 2 ^ 32)
    (hi : ∀ s, exec i s = vecWord sb c q srcs d lat (binary 32 m (intOp g)) s) :
    IsVecWord i ⟨sb, c, q, srcs, d, lat, intLanes m f⟩ := fun s => by
  rw [hi, ← intLanes_eq h]

theorem isVecToReg_int {i : Instr} {sb c q : BitVec 1} {m : BitVec 3} {d : RegId} {srcs : List (BitVec 5)} {lat : Nat}
    {f : Nat → Nat → Bool} {g : BitVec 32 → BitVec 32 → Bool} (h : ∀ x y, g x y = f x.toNat y.toNat)
    (hi : ∀ s, exec i s = vecToReg sb c q srcs d lat (compare 32 m (intRel g)) s) :
    IsVecToReg i ⟨sb, c, q, srcs, d, lat, intTest m f⟩ := fun s => by
  rw [hi, ← intTest_eq h]

theorem isVecWord_of_vectorWord {i : Instr} {x : VecWord (BitVec 5)} (h : vectorWord i = some x) : IsVecWord i x := by
  cases i
  case vaddI32 => exact Option.some.inj h ▸ isVecWord_int lanes_add (exec_vaddI32 _ _ _ _ _ _ _)
  case vsubI32 => exact Option.some.inj h ▸ isVecWord_int lanes_sub (exec_vsubI32 _ _ _ _ _ _ _)
  case vmulI32 => exact Option.some.inj h ▸ isVecWord_int lanes_mul (exec_vmulI32 _ _ _ _ _ _ _)
  case vmulhI32 => exact Option.some.inj h ▸ isVecWord_int lanes_mulHigh (exec_vmulhI32 _ _ _ _ _ _ _)
  case vmulhnI32 => exact Option.some.inj h ▸ isVecWord_int lanes_mulHighN (exec_vmulhnI32 _ _ _ _ _ _ _)
  case vminI32 => exact Option.some.inj h ▸ isVecWord_int lanes_min (exec_vminI32 _ _ _ _ _ _ _)
  case vmaxI32 => exact Option.some.inj h ▸ isVecWord_int lanes_max (exec_vmaxI32 _ _ _ _ _ _ _)
  case vminnI32 => exact Option.some.inj h ▸ isVecWord_int lanes_minN (exec_vminnI32 _ _ _ _ _ _ _)
  case vmaxnI32 => exact Option.some.inj h ▸ isVecWord_int lanes_maxN (exec_vmaxnI32 _ _ _ _ _ _ _)
  case vandI32 => exact Option.some.inj h ▸ isVecWord_int lanes_and (exec_vandI32 _ _ _ _ _ _ _)
  case vorI32 => exact Option.some.inj h ▸ isVecWord_int lanes_or (exec_vorI32 _ _ _ _ _ _ _)
  case vxorI32 => exact Option.some.inj h ▸ isVecWord_int lanes_xor (exec_vxorI32 _ _ _ _ _ _ _)
  case vshlI32 => exact Option.some.inj h ▸ isVecWord_int lanes_shl (exec_vshlI32 _ _ _ _ _ _ _)
  case vshrI32 => exact Option.some.inj h ▸ isVecWord_int lanes_shr (exec_vshrI32 _ _ _ _ _ _ _)
  case vsraI32 => exact Option.some.inj h ▸ isVecWord_int lanes_sra (exec_vsraI32 _ _ _ _ _ _ _)
  case vsel => exact Option.some.inj h ▸ exec_vsel _ _ _ _ _ _ _
  case vaddF32 => exact Option.some.inj h ▸ exec_vaddF32 _ _ _ _ _ _ _
  case vsubF32 => exact Option.some.inj h ▸ exec_vsubF32 _ _ _ _ _ _ _
  case vmulF32 => exact Option.some.inj h ▸ exec_vmulF32 _ _ _ _ _ _ _
  case vminF32 => exact Option.some.inj h ▸ exec_vminF32 _ _ _ _ _ _ _
  case vmaxF32 => exact Option.some.inj h ▸ exec_vmaxF32 _ _ _ _ _ _ _
  case vabsF32 => exact Option.some.inj h ▸ exec_vabsF32 _ _ _ _ _ _
  case vnegF32 => exact Option.some.inj h ▸ exec_vnegF32 _ _ _ _ _ _
  case vaddF16 => exact Option.some.inj h ▸ exec_vaddF16 _ _ _ _ _ _ _
  case vsubF16 => exact Option.some.inj h ▸ exec_vsubF16 _ _ _ _ _ _ _
  case vmulF16 => exact Option.some.inj h ▸ exec_vmulF16 _ _ _ _ _ _ _
  case vminF16 => exact Option.some.inj h ▸ exec_vminF16 _ _ _ _ _ _ _
  case vmaxF16 => exact Option.some.inj h ▸ exec_vmaxF16 _ _ _ _ _ _ _
  case vabsF16 => exact Option.some.inj h ▸ exec_vabsF16 _ _ _ _ _ _
  case vnegF16 => exact Option.some.inj h ▸ exec_vnegF16 _ _ _ _ _ _
  case vaddBf16 => exact Option.some.inj h ▸ exec_vaddBf16 _ _ _ _ _ _ _
  case vsubBf16 => exact Option.some.inj h ▸ exec_vsubBf16 _ _ _ _ _ _ _
  case vmulBf16 => exact Option.some.inj h ▸ exec_vmulBf16 _ _ _ _ _ _ _
  case vminBf16 => exact Option.some.inj h ▸ exec_vminBf16 _ _ _ _ _ _ _
  case vmaxBf16 => exact Option.some.inj h ▸ exec_vmaxBf16 _ _ _ _ _ _ _
  case vabsBf16 => exact Option.some.inj h ▸ exec_vabsBf16 _ _ _ _ _ _
  case vnegBf16 => exact Option.some.inj h ▸ exec_vnegBf16 _ _ _ _ _ _
  case vfmaF32 => exact Option.some.inj h ▸ exec_vfmaF32 _ _ _ _ _ _ _ _
  case vfmsF32 => exact Option.some.inj h ▸ exec_vfmsF32 _ _ _ _ _ _ _ _
  case vfmaBf16 => exact Option.some.inj h ▸ exec_vfmaBf16 _ _ _ _ _ _ _ _
  case vfmaF16 => exact Option.some.inj h ▸ exec_vfmaF16 _ _ _ _ _ _ _ _
  case vcvtF32I32 => exact Option.some.inj h ▸ exec_vcvtF32I32 _ _ _ _ _ _ _
  case vcvtI32F32 => exact Option.some.inj h ▸ exec_vcvtI32F32 _ _ _ _ _ _ _
  case vcvtF32F16 => exact Option.some.inj h ▸ exec_vcvtF32F16 _ _ _ _ _ _ _
  case vcvtF32Bf16 => exact Option.some.inj h ▸ exec_vcvtF32Bf16 _ _ _ _ _ _ _
  case vcvtF16F32 => exact Option.some.inj h ▸ exec_vcvtF16F32 _ _ _ _ _ _ _ _
  case vcvtBf16F32 => exact Option.some.inj h ▸ exec_vcvtBf16F32 _ _ _ _ _ _ _ _
  case vcvtF32E4m3 => exact Option.some.inj h ▸ exec_vcvtF32E4m3 _ _ _ _ _ _ _
  case vcvtF32E5m2 => exact Option.some.inj h ▸ exec_vcvtF32E5m2 _ _ _ _ _ _ _
  case vcvtE4m3F32 => exact Option.some.inj h ▸ exec_vcvtE4m3F32 _ _ _ _ _ _ _ _
  case vcvtE5m2F32 => exact Option.some.inj h ▸ exec_vcvtE5m2F32 _ _ _ _ _ _ _ _
  case vpackB4 => exact Option.some.inj h ▸ exec_vpackB4 _ _ _ _ _ _ _
  case vunpackB4 => exact Option.some.inj h ▸ exec_vunpackB4 _ _ _ _ _ _ _
  case vperm => exact Option.some.inj h ▸ exec_vperm _ _ _ _ _ _ _
  case vrot => exact Option.some.inj h ▸ exec_vrot _ _ _ _ _ _ _
  case vbcast => exact Option.some.inj h ▸ exec_vbcast _ _ _ _ _ _
  case vbspl => exact Option.some.inj h ▸ exec_vbspl _ _ _ _ _ _ _
  all_goals cases h

theorem isVecToReg_of_vectorToReg {i : Instr} {x : VecWord RegId} (h : vectorToReg i = some x) : IsVecToReg i x := by
  cases i
  case vcmpeqI32 => exact Option.some.inj h ▸ isVecToReg_int lanes_eq (exec_vcmpeqI32 _ _ _ _ _ _ _)
  case vcmpltI32 => exact Option.some.inj h ▸ isVecToReg_int lanes_lt (exec_vcmpltI32 _ _ _ _ _ _ _)
  case vcmpltnI32 => exact Option.some.inj h ▸ isVecToReg_int lanes_ltN (exec_vcmpltnI32 _ _ _ _ _ _ _)
  case vcmpeqF32 => exact Option.some.inj h ▸ exec_vcmpeqF32 _ _ _ _ _ _ _
  case vcmpltF32 => exact Option.some.inj h ▸ exec_vcmpltF32 _ _ _ _ _ _ _
  case vcmpleF32 => exact Option.some.inj h ▸ exec_vcmpleF32 _ _ _ _ _ _ _
  case vcmpeqF16 => exact Option.some.inj h ▸ exec_vcmpeqF16 _ _ _ _ _ _ _
  case vcmpltF16 => exact Option.some.inj h ▸ exec_vcmpltF16 _ _ _ _ _ _ _
  case vcmpleF16 => exact Option.some.inj h ▸ exec_vcmpleF16 _ _ _ _ _ _ _
  case vcmpeqBf16 => exact Option.some.inj h ▸ exec_vcmpeqBf16 _ _ _ _ _ _ _
  case vcmpltBf16 => exact Option.some.inj h ▸ exec_vcmpltBf16 _ _ _ _ _ _ _
  case vcmpleBf16 => exact Option.some.inj h ▸ exec_vcmpleBf16 _ _ _ _ _ _ _
  case vredadd => exact Option.some.inj h ▸ exec_vredadd _ _ _ _ _ _
  case vredmax => exact Option.some.inj h ▸ exec_vredmax _ _ _ _ _ _
  case viredadd => exact Option.some.inj h ▸ exec_viredadd _ _ _ _ _ _
  all_goals cases h

end Sys2Proof.Machine
end

section
/-! O22, effects: popping and pushing queues, flags on their way, and the vector words whole (R87, R88, R113, R119). -/

namespace Sys2Proof.Machine

open Sys2Proof.Claim

/-! ### Maps: a key that is found -/

/-- A write at another key leaves a found key alone, in whatever form the map is. -/
theorem mget_mset_of_found {α : Type} [DecidableEq α] {d : α} {m : KMap α} {j k : Nat} (v : α) (hf : mget d m j ≠ d) (h : j ≠ k) :
    mget d (mset d m k v) j = mget d m j := by
  unfold mset
  split
  · induction m with
    | nil => rfl
    | cons p r ih =>
      obtain ⟨k', x⟩ := p
      rw [mdel]
      by_cases hk : k' = k
      · subst hk
        rw [mget, if_neg (Ne.symm h)] at hf ⊢
        split at hf
        · exact absurd rfl hf
        · rw [if_pos rfl, if_neg ‹_›]
      · rw [if_neg hk]
        split
        · rfl
        · rw [mget, mget]
          rw [mget] at hf
          split
          · rfl
          · split
            · rfl
            · exact ih (by simpa [*] using hf)
  · exact mget_mput_ne d m v h

/-! ### Queues popped and pushed (R87, R88) -/

theorem getQueue_setQueue_ne {c : Ctl} {q p : Nat} (x : List QEntry) (hf : getQueue c q ≠ []) (h : q ≠ p) :
    getQueue (setQueue c p x) q = getQueue c q := mget_mset_of_found x hf h

theorem getQueue_of_ctlLike {a b : Ctl} (h : CtlLike a b) (q : Nat) : getQueue b q = getQueue a q := by
  rw [h]
  rfl

theorem tryPop_ready {s : State} {k q : Nat} {e : QEntry} {v : QVal} (h : tryPop s k q = .ready e v) :
    getQueue (getCtl s k) q ≠ [] := by
  intro hnil
  simp only [tryPop, hnil] at h
  split at h <;> (try split at h) <;> (try split at h) <;> cases h

theorem tryPops_ready {s : State} {k : Nat} {qs : List Nat} {hs : List (Nat × QVal)} (h : tryPops s k qs = .ready hs) :
    ∀ q ∈ qs, getQueue (getCtl s k) q ≠ [] := by
  induction qs generalizing hs with
  | nil => intro q hq; cases hq
  | cons p r ih =>
    rw [tryPops] at h
    split at h
    · cases h
    · cases h
    · next hp =>
      split at h
      · next hr =>
        intro q hq
        rcases List.mem_cons.mp hq with rfl | hq
        · exact tryPop_ready hp
        · exact ih hr q hq
      · next hno => exact absurd h (hno hs)

theorem mem_dedup {α : Type} [DecidableEq α] {l : List α} {x : α} : x ∈ dedup l ↔ x ∈ l := by
  induction l with
  | nil => rfl
  | cons y r ih =>
    rw [dedup]
    split
    · next hy =>
      rw [ih, List.mem_cons, iff_or_self]
      rintro rfl
      simpa using hy
    · rw [List.mem_cons, List.mem_cons, ih]

theorem nodup_dedup {α : Type} [DecidableEq α] (l : List α) : (dedup l).Nodup := by
  induction l with
  | nil => exact List.nodup_nil
  | cons y r ih =>
    rw [dedup]
    split
    · exact ih
    · next hy => exact List.nodup_cons.mpr ⟨fun hm => hy (by simpa using mem_dedup.mp hm), ih⟩

theorem nodup_queuesOf (v : VoiceId) (codes : List (BitVec 5)) : (queuesOf v codes).Nodup :=
  List.nodup_reverse.mpr (nodup_dedup _)

theorem popQueue_cons {h : Here} {u : State} {q : Nat} {e : QEntry} {r : List QEntry} (hq : getQueue (getCtl u h.k) q = e :: r) :
    popQueue h u q = changeAt (linkAt u h e.clause e.ord) h (.qPop q) := by
  simp only [popQueue, hq]

@[simp] theorem getCtl_linkAt (s : State) (h : Here) (p : Nat) (o : List Nat) (k : Nat) : getCtl (linkAt s h p o) k = getCtl s k := by
  simp [linkAt, joinVoice, depAt]

/-- What a word does that pops these queues. -/
def popDoing (s : State) (qs : List Nat) (d : Doing) : Doing :=
  { d with ctl := fun c => popped qs (d.ctl c), links := d.links ++ poppedAt s qs }

/-- The heads of distinct queues are popped, each as it stood at the word's issue. -/
theorem near_pops {s u : State} {d : Doing} {qs : List Nat} (hn : Near s u d) (hh : d.held = []) (hd : qs.Nodup)
    (hq : ∀ q ∈ qs, getQueue (getCtl u (hereOf s).k) q = getQueue (ctlOf s) q ∧ getQueue (ctlOf s) q ≠ []) :
    Near s (qs.foldl (popQueue (hereOf s)) u) (popDoing s qs d) ∧
      (qs.foldl (popQueue (hereOf s)) u).core.nextId = u.core.nextId := by
  induction qs generalizing u d with
  | nil => exact ⟨by simpa [popDoing, popped, poppedAt] using hn, rfl⟩
  | cons q r ih =>
    obtain ⟨hqr, hr⟩ := List.nodup_cons.mp hd
    obtain ⟨heq, hne⟩ := hq q (List.mem_cons_self ..)
    obtain ⟨e, es, hes⟩ := List.exists_cons_of_ne_nil hne
    have hpop := popQueue_cons (h := hereOf s) (heq.trans hes)
    have hn' : Near s (popQueue (hereOf s) u q)
        { d with ctl := fun c => applyCtl (d.ctl c) (.qPop q), links := d.links ++ [e.ord] } := by
      rw [hpop]
      exact near_change (near_link hn e.clause e.ord rfl hh) (.qPop q) rfl (fun _ => rfl)
    have hrest : ∀ p ∈ r, getQueue (getCtl (popQueue (hereOf s) u q) (hereOf s).k) p = getQueue (ctlOf s) p ∧
        getQueue (ctlOf s) p ≠ [] := by
      intro p hp
      obtain ⟨hep, hnp⟩ := hq p (List.mem_cons_of_mem _ hp)
      refine ⟨?_, hnp⟩
      rw [hpop, changeAt, getCtl_change, getCtl_linkAt, ← hep]
      exact getQueue_setQueue_ne _ (hep ▸ hnp) (fun h => hqr (h ▸ hp))
    obtain ⟨h1, h2⟩ := ih hn' hh hr hrest
    refine ⟨?_, h2.trans ?_⟩
    · have hd' : popDoing s r { d with ctl := fun c => applyCtl (d.ctl c) (.qPop q), links := d.links ++ [e.ord] } =
          popDoing s (q :: r) d := by
        simp only [popDoing, poppedAt, List.flatMap_cons, hes, List.take_succ_cons, List.take_zero, List.map_cons, List.map_nil,
          List.append_assoc]
        rfl
      rwa [← hd']
    · rw [hpop]
      simp [changeAt, linkAt, joinVoice, depAt]

/-- A value is pushed: its entry is reserved under the next number, and the value is on its way. -/
theorem near_pushQueue {s u : State} {d : Doing} (hn : Near s u d) (hid : u.core.nextId = s.core.nextId) (q : Nat) (val : Row)
    (lat : Nat) : Near s (pushQueue (hereOf s) q val lat u)
      { d with ctl := fun c => pushEntry (d.ctl c) q ⟨s.core.nextId, clauseAt s (hereOf s), placeWith (hereOf s) s d.links 0⟩
               fills := d.fills ++ [⟨s.core.nextId, q, val, s.now + lat⟩] } := by
  have hplace : clauseClock u (hereOf s).k (clauseAt s (hereOf s)) = placeWith (hereOf s) s d.links 0 :=
    orderedBy_place hn.order hid
  have hreserve := near_change (near_bump hn)
    (.qPush q ⟨s.core.nextId, clauseAt s (hereOf s), placeWith (hereOf s) s d.links 0⟩) rfl (fun _ => rfl)
  have hslot := near_slot hreserve [⟨s.core.nextId, q, val, s.now + lat⟩] [] rfl
  simp only [List.append_nil] at hslot
  simp only [pushQueue, reserveEntry, freshId, hn.clause, hplace, hid, hn.around.2.1]
  have hcl : clauseAt (bumpId u) (hereOf s) = clauseAt s (hereOf s) := hn.clause
  rw [changeAt, hcl] at hslot
  exact hslot

/-! ### Flags on their way (R15, R113) -/

theorem record_raising (now n lat : Nat) (q : BitVec 1) (fl : BitVec 320) (a : VoiceArch) (w : Wr) :
    record now (raising n lat q fl a) w = raising n lat q fl (record now a w) := by
  unfold raising
  split
  · rfl
  · unfold record
    have hc : clashes { a with flagq := a.flagq ++ [⟨fl, n + lat⟩] } w.reg = clashes a w.reg := rfl
    simp only [hc]
    split
    · rfl
    · split <;> rfl

/-- It makes no difference whether a word's flags or its writes are noted first. -/
theorem recordAll_raising (now n lat : Nat) (q : BitVec 1) (fl : BitVec 320) (ws : List Wr) (a : VoiceArch) :
    recordAll now (raising n lat q fl a) ws = raising n lat q fl (recordAll now a ws) := by
  induction ws generalizing a with
  | nil => rfl
  | cons w r ih => rw [recordAll, record_raising, ih, recordAll]

theorem raiseFlags_eq (u : State) (h : Here) (q : BitVec 1) (fl : BitVec 320) (lat : Nat) :
    raiseFlags u h q fl lat = u ∧ (∀ a, raising u.now lat q fl a = a) ∨
      raiseFlags u h q fl lat = setArchAt u h (raising u.now lat q fl (archAt u h)) := by
  unfold raiseFlags raising
  by_cases hs : q = 1 ∨ fl = 0
  · exact .inl ⟨if_pos hs, fun a => if_pos hs⟩
  · exact .inr (by rw [if_neg hs, if_neg hs])

theorem near_raiseFlags {s u : State} {d : Doing} (hn : Near s u d) (ha : d.arch = id) (q : BitVec 1) (fl : BitVec 320) (lat : Nat) :
    Near s (raiseFlags u (hereOf s) q fl lat) { d with arch := raising s.now lat q fl } := by
  have hnow : u.now = s.now := hn.around.2.1
  have harch := hn.arch
  rw [ha] at harch
  rcases raiseFlags_eq u (hereOf s) q fl lat with ⟨he, hid⟩ | he
  · rw [hnow] at hid
    have hd : raising s.now lat q fl = d.arch := by
      rw [ha]
      exact funext hid
    rw [he, hd]
    exact hn
  · rw [he, hnow]
    exact near_setArch hn _ (by rw [recordAll_raising, harch]; rfl) rfl

/-! ### The words whole -/

/-- The pops of a word, once its writes are recorded. -/
theorem near_wordPops {s u : State} {d : Doing} {srcs : List (BitVec 5)} {hs : List (Nat × QVal)} (hn : Near s u d)
    (hh : d.held = []) (hc : d.ctl = id) (hr : tryPops s (hereOf s).k (queuesOf (hereOf s).v srcs) = .ready hs) :
    Near s ((queuesOf (hereOf s).v srcs).foldl (popQueue (hereOf s)) u) (popDoing s (queuesOf (hereOf s).v srcs) d) ∧
      ((queuesOf (hereOf s).v srcs).foldl (popQueue (hereOf s)) u).core.nextId = u.core.nextId := by
  refine near_pops hn hh (nodup_queuesOf ..) (fun p hp => ⟨?_, tryPops_ready hr p hp⟩)
  have hlike := hn.ctl.1
  rw [hc] at hlike
  exact getQueue_of_ctlLike hlike p

section
variable {s : State} {i : Instr} {sb c q : BitVec 1} {srcs : List (BitVec 5)} {lat : Nat} {f : VecFn} {hs : List (Nat × QVal)}

section
variable {d : BitVec 5} (hi : exec i s = vecWord sb c q srcs d lat f s) (ht : Takes s sb c .x false) (hpl : Plain s)
include hi ht hpl

theorem vecWord_stalls (hr : tryPops s (hereOf s).k (queuesOf (hereOf s).v srcs) = .wait) : Stalls s i false := by
  rw [Stalls, hi, vecWord, issue_takes ht.1 ht.2.1 rfl ht.2.2.1 ht.2.2.2 (.inl ⟨hpl.1, rfl⟩)]
  simp only [withPops, hr]
  rfl

theorem vecWord_traps {cause : Nat} (hr : tryPops s (hereOf s).k (queuesOf (hereOf s).v srcs) = .trap cause) :
    Traps s i cause 0 s := by
  rw [Traps, hi, vecWord, issue_takes ht.1 ht.2.1 rfl ht.2.2.1 ht.2.2.2 (.inl ⟨hpl.1, rfl⟩)]
  simp only [withPops, hr]
  rfl

variable (hr : tryPops s (hereOf s).k (queuesOf (hereOf s).v srcs) = .ready hs) (hp : poisonedHead hs = none)
include hr hp

/-- The result goes to the vector register. -/
theorem vecWord_writes {r : VRes} (hd : dstQueue (hereOf s).v d = none)
    (hres : r = f (me s) (sourcesOf s hs srcs) (visV (me s) d.toNat)) (hroom : Room s [⟨.v d.toNat, r.row, lat⟩]) :
    Completes i s
      { arch := raising s.now lat q r.flags, writes := [⟨.v d.toNat, r.row, lat⟩],
        ctl := popped (queuesOf (hereOf s).v srcs), links := poppedAt s (queuesOf (hereOf s).v srcs) } := by
  obtain ⟨u, hgo, hu, -⟩ := withWrites_did
    (go := fun u => .retire .seq false (raiseFlags ((queuesOf (hereOf s).v srcs).foldl (popQueue (hereOf s)) u) (hereOf s) q r.flags lat))
    hroom (near_refl s) rfl rfl
  have hfin := near_raiseFlags (near_wordPops hu rfl rfl hr).1 rfl q r.flags lat
  rw [Completes, hi]
  refine issue_did ht rfl (.inl ⟨hpl.1, rfl⟩) ?_ hfin rfl
  rw [hres] at hgo ⊢
  simp only [withPops, hr, hp, hd]
  exact hgo

section
variable {k : Nat} (hd : dstQueue (hereOf s).v d = some k)
include hd

theorem vecWord_stalls_full (hq : tryPush s (hereOf s).k k = .full) : Stalls s i false := by
  rw [Stalls, hi, vecWord, issue_takes ht.1 ht.2.1 rfl ht.2.2.1 ht.2.2.2 (.inl ⟨hpl.1, rfl⟩)]
  simp only [withPops, hr, hp, hd, hq]
  rfl

theorem vecWord_traps_ended {cause : Nat} (hq : tryPush s (hereOf s).k k = .trap cause) : Traps s i cause 0 s := by
  rw [Traps, hi, vecWord, issue_takes ht.1 ht.2.1 rfl ht.2.2.1 ht.2.2.2 (.inl ⟨hpl.1, rfl⟩)]
  simp only [withPops, hr, hp, hd, hq]
  rfl

variable {r : VRes} (hres : r = f (me s) (sourcesOf s hs srcs) 0)
include hres

/-- The result goes to a queue that nobody reads: it is dropped. -/
theorem vecWord_drops (hq : tryPush s (hereOf s).k k = .drop) :
    Completes i s
      { arch := raising s.now lat q r.flags, ctl := popped (queuesOf (hereOf s).v srcs),
        links := poppedAt s (queuesOf (hereOf s).v srcs) } := by
  have hfin := near_raiseFlags (near_wordPops (near_refl s) rfl rfl hr).1 rfl q r.flags lat
  rw [Completes, hi]
  refine issue_did ht rfl (.inl ⟨hpl.1, rfl⟩) ?_ hfin rfl
  rw [hres]
  simp only [withPops, hr, hp, hd, hq]

/-- The result goes to a queue that has room. -/
theorem vecWord_pushes (hq : tryPush s (hereOf s).k k = .room) :
    Completes i s
      { arch := raising s.now lat q r.flags,
        ctl := fun c => pushEntry (popped (queuesOf (hereOf s).v srcs) c) k
          ⟨s.core.nextId, clauseAt s (hereOf s), entryPlace s (poppedAt s (queuesOf (hereOf s).v srcs))⟩,
        links := poppedAt s (queuesOf (hereOf s).v srcs), fills := [⟨s.core.nextId, k, r.row, s.now + lat⟩] } := by
  obtain ⟨hpop, hid⟩ := near_wordPops (near_refl s) rfl rfl hr
  have hfin := near_raiseFlags (near_pushQueue hpop hid k r.row lat) rfl q r.flags lat
  rw [Completes, hi]
  refine issue_did ht rfl (.inl ⟨hpl.1, rfl⟩) ?_ hfin rfl
  rw [hres]
  simp only [withPops, hr, hp, hd, hq]
end
end

/-- A compare or a reduction writes its mask or its scalar. -/
theorem vecToReg_writes {d : RegId} {r : VRes} (hi : exec i s = vecToReg sb c q srcs d lat f s) (ht : Takes s sb c .x false)
    (hpl : Plain s) (hr : tryPops s (hereOf s).k (queuesOf (hereOf s).v srcs) = .ready hs) (hp : poisonedHead hs = none)
    (hres : r = f (me s) (sourcesOf s hs srcs) (faceGet (me s).vis d)) (hroom : Room s [⟨d, r.row, lat⟩]) :
    Completes i s
      { arch := raising s.now lat q r.flags, writes := [⟨d, r.row, lat⟩],
        ctl := popped (queuesOf (hereOf s).v srcs), links := poppedAt s (queuesOf (hereOf s).v srcs) } := by
  obtain ⟨u, hgo, hu, -⟩ := withWrites_did
    (go := fun u => .retire .seq false (raiseFlags ((queuesOf (hereOf s).v srcs).foldl (popQueue (hereOf s)) u) (hereOf s) q r.flags lat))
    hroom (near_refl s) rfl rfl
  have hfin := near_raiseFlags (near_wordPops hu rfl rfl hr).1 rfl q r.flags lat
  rw [Completes, hi]
  refine issue_did ht rfl (.inl ⟨hpl.1, rfl⟩) ?_ hfin rfl
  rw [hres] at hgo ⊢
  simp only [withPops, hr, hp]
  exact hgo
end

/-- Settles O22: each row of the tables is one of the two shared effects, followed along the ends of its pops and its push. -/
theorem vectorWordsComputeTheirLanes : Obligations.VectorWordsComputeTheirLanes := by
  unfold Obligations.VectorWordsComputeTheirLanes
  refine ⟨fun i s x hs hx ht hpl => ?_, fun i s x hs r hx ht hpl hr hp hres hroom =>
    vecToReg_writes (isVecToReg_of_vectorToReg hx s) ht hpl hr hp hres hroom⟩
  have hi := isVecWord_of_vectorWord hx s
  exact ⟨vecWord_stalls hi ht hpl, fun c hr => vecWord_traps hi ht hpl hr, fun hr hp =>
    ⟨fun r hd hres hroom => vecWord_writes hi ht hpl hr hp hd hres hroom, fun r k hd hres =>
      ⟨vecWord_stalls_full hi ht hpl hr hp hd, fun c hq => vecWord_traps_ended hi ht hpl hr hp hd hq,
        vecWord_drops hi ht hpl hr hp hd hres, vecWord_pushes hi ht hpl hr hp hd hres⟩⟩⟩

end Sys2Proof.Machine
end

section
/-! What the scheduler reads of memory does not depend on the cluster: a record that leaves the queue is read as it was in it (R197). -/

namespace Sys2Proof.Machine

open Sys2Proof.Claim

section
variable (s : State) (cl : Cluster)

theorem walkFrom_setCluster (c : Context) (va : Nat) (ls : List Nat) (t : Nat) :
    walkFrom (setCluster s cl) c va ls t = walkFrom s c va ls t := by
  induction ls generalizing t with
  | nil => rfl
  | cons l r ih =>
    rw [walkFrom, walkFrom]
    simp only [ih]
    rfl

theorem walk_setCluster (c : Context) (va : Nat) : walk (setCluster s cl) c va = walk s c va := by
  simp only [walk, walkFrom_setCluster]
  rfl

theorem translateOne_setCluster (c : Context) (sm : Bool) (a : Acc) (va len : Nat) :
    (translateOne (setCluster s cl) c sm a va len).2 = (translateOne s c sm a va len).2 := by
  have hl : lookupVia (setCluster s cl) (setCluster s cl).core.dtlb c va = lookupVia s s.core.dtlb c va := by
    simp only [lookupVia, walk_setCluster]
    rfl
  unfold translateOne
  rw [hl]
  split
  · rfl
  · rfl
  · dsimp only
    split <;> rfl

theorem spanParts_setCluster (c : Context) (sm : Bool) (a : Acc) (va n len : Nat) :
    spanParts (setCluster s cl) c sm a va n len = spanParts s c sm a va n len := by
  induction n generalizing va len with
  | zero => rfl
  | succ n ih =>
    cases len with
    | zero => rfl
    | succ len =>
      simp only [spanParts, ih]
      have ht := translateOne_setCluster s cl c sm a va (min (len + 1) ((va / 0x10000 + 1) * 0x10000 - va))
      rcases h1 : translateOne (setCluster s cl) c sm a va (min (len + 1) ((va / 0x10000 + 1) * 0x10000 - va)) with ⟨u, r⟩
      rcases h2 : translateOne s c sm a va (min (len + 1) ((va / 0x10000 + 1) * 0x10000 - va)) with ⟨w, q⟩
      rw [h1, h2] at ht
      cases ht
      cases r <;> rfl

theorem readVirt_setCluster (c : Context) (va n : Nat) : readVirt (setCluster s cl) c va n = readVirt s c va n := by
  simp only [readVirt, spanParts_setCluster]
  cases spanParts s c false .read va (n / 0x10000 + 2) n with
  | ok ps => rfl
  | error bad =>
    have ht := translateOne_setCluster s cl c false .read bad 1
    rcases h1 : translateOne (setCluster s cl) c false .read bad 1 with ⟨u, r⟩
    rcases h2 : translateOne s c false .read bad 1 with ⟨w, q⟩
    rw [h1, h2] at ht
    cases ht
    cases r <;> simp only [h1, h2]

theorem readNode_setCluster (c : Context) (r0 : Word) : readNode (setCluster s cl) c r0 = readNode s c r0 := by
  simp only [readNode, startRead, readVirt_setCluster]

theorem readImage_setCluster (c : Context) (r0 : Word) : readImage (setCluster s cl) c r0 = readImage s c r0 := by
  simp only [readImage, startRead, readNode_setCluster, readVirt_setCluster]

theorem areaNat_setCluster (at_ : List (Nat × Nat)) : areaNat (setCluster s cl) at_ = areaNat s at_ := rfl

theorem regionGo_setCluster (ps : List (Nat × Nat)) (o : Nat) : regionBytes.go (setCluster s cl) ps o = regionBytes.go s ps o := by
  induction ps generalizing o with
  | nil => rfl
  | cons p r ih => simp only [regionBytes.go, ih, setCluster_pkg]

theorem regionBytes_setCluster (at_ : List (Nat × Nat)) (o n : Nat) : regionBytes (setCluster s cl) at_ o n = regionBytes s at_ o n :=
  regionGo_setCluster ..

theorem arrayFrom_setCluster (at_ : List (Nat × Nat)) : arrayFrom (setCluster s cl) at_ = arrayFrom s at_ := by
  unfold arrayFrom
  rw [areaNat_setCluster]
  simp only [regionBytes_setCluster]

theorem threadFrom_setCluster (c : Context) (at_ : List (Nat × Nat)) (k id : Nat) (t : SavedThread) :
    threadFrom (setCluster s cl) c at_ k id t = threadFrom s c at_ k id t := by
  unfold threadFrom
  rw [areaNat_setCluster, arrayFrom_setCluster]
  dsimp only
  rw [regionBytes_setCluster]
  rfl

theorem withCommands_setCluster (ts : List (Nat × SavedThread)) (cs : List (BitVec 1024)) (id i : Nat) :
    withCommands (setCluster s cl) ts cs id i = withCommands s ts cs id i := rfl

theorem idsOf_setCluster (i : Nat) : idsOf (setCluster s cl) i = idsOf s i := rfl

theorem getCtx_setCluster (c : Nat) : getCtx (setCluster s cl) c = getCtx s c := rfl

theorem fromStore_setCluster (m : SavedThread) : fromStore (setCluster s cl) m = fromStore s m := by
  unfold fromStore
  cases m.stored with
  | none => rfl
  | some x =>
    dsimp only
    rw [areaNat_setCluster, regionBytes_setCluster, getCtx_setCluster, threadFrom_setCluster, idsOf_setCluster]
    split
    · rfl
    · rw [withCommands_setCluster]
end

end Sys2Proof.Machine
end

section
/-! A thread leaves its slot (R28, R186, R190, R206): what is discarded with it, and what outlives it. -/

namespace Sys2Proof.Machine

open Sys2Proof.Claim

/-- What the end of the thread in slot `k` leaves alone: the other slot, the memory, the cluster but for the items its pipelines get
back, and the contexts' events. -/
structure Discards (k : Nat) (s t : State) : Prop where
  other : ∀ j, ¬(j = 0 ↔ k = 0) → getSlot t j = getSlot s j
  mem : t.pkg.mem = s.pkg.mem
  cluster : ∃ p, t.cluster = { s.cluster with pipes := p }
  events : ∀ c, (getCtx t c).events = (getCtx s c).events

section
variable {k : Nat} {s t u : State}

theorem Discards.trans (h : Discards k s t) (g : Discards k t u) : Discards k s u := by
  obtain ⟨p, hp⟩ := h.cluster
  obtain ⟨q, hq⟩ := g.cluster
  exact ⟨fun j hj => (g.other j hj).trans (h.other j hj), g.mem.trans h.mem, ⟨q, by rw [hq, hp]⟩,
    fun c => (g.events c).trans (h.events c)⟩

/-- A change of the core beside its slots. -/
theorem discards_of_core (h0 : t.core.slot0 = s.core.slot0) (h1 : t.core.slot1 = s.core.slot1) (hp : t.pkg = s.pkg)
    (hc : t.cluster = s.cluster) : Discards k s t :=
  ⟨fun j _ => by simp only [getSlot, h0, h1], by rw [hp], ⟨s.cluster.pipes, hc⟩, fun c => by simp only [getCtx, hp]⟩

theorem discards_setSlot (s : State) (k : Nat) (x : Slot) : Discards k s (setSlot s k x) :=
  ⟨fun _ hj => getSlot_setSlot_other _ _ hj, by rw [setSlot_pkg], ⟨s.cluster.pipes, by rw [setSlot_cluster]⟩,
    fun c => by simp only [getCtx, setSlot_pkg]⟩

/-- A context changes beside its events. -/
theorem discards_setCtx {c : Nat} {x : Context} (h : x.events = (getCtx s c).events) : Discards k s (setCtx s c x) := by
  refine ⟨fun j _ => getSlot_setCtx .., setCtx_mem .., ⟨s.cluster.pipes, rfl⟩, fun j => ?_⟩
  by_cases hj : j = c
  · rw [hj, ← h]
    exact congrArg Context.events (mget_mput_same ..)
  · exact congrArg Context.events (mget_mput_ne _ _ _ hj)

theorem discards_changes (s : State) (j cl : Nat) (cs : List Change) : Discards k s (changes s j cl cs) :=
  discards_of_core (by simp) (by simp) (by simp) (by simp)

theorem discards_foldCounts (s : State) (j : Nat) : Discards k s (foldCounts s j) := by
  unfold foldCounts
  refine Discards.trans ?_ (discards_changes ..)
  exact discards_setCtx rfl

theorem discards_moveFences (s : State) (n : Nat) : Discards k s (moveFences s k n) := by
  unfold moveFences
  split
  · dsimp only
    split
    · exact discards_of_core rfl rfl rfl rfl
    · refine Discards.trans ?_ (discards_setSlot ..)
      exact discards_of_core rfl rfl rfl rfl
  · exact discards_of_core rfl rfl rfl rfl

theorem discards_rename (s : State) (n : Nat) : Discards k s (rename s k n) := by
  refine (discards_moveFences s n).trans ⟨fun _ _ => rfl, rfl, ⟨_, rfl⟩, fun _ => rfl⟩

theorem discards_disownRuns (s : State) (j : Nat) : Discards k s (disownRuns s j) := by
  unfold disownRuns
  dsimp only
  split <;> exact discards_of_core rfl rfl rfl rfl

theorem undoCmd_slots (c : Core) (m : Cmd) : (undoCmd c m).slot0 = c.slot0 ∧ (undoCmd c m).slot1 = c.slot1 := by
  unfold undoCmd
  induction m.undo.reverse generalizing c with
  | nil => exact ⟨rfl, rfl⟩
  | cons x r ih =>
    rw [List.foldl_cons, (ih _).1, (ih _).2]
    cases x <;> exact ⟨rfl, rfl⟩

theorem dropCmds_slots (c : Core) (p : Cmd → Bool) : (dropCmds c p).slot0 = c.slot0 ∧ (dropCmds c p).slot1 = c.slot1 := by
  simp only [dropCmds]
  induction (c.cmds.filter p).reverse generalizing c with
  | nil => exact ⟨rfl, rfl⟩
  | cons m r ih => rw [List.foldl_cons, (ih _).1, (ih _).2]; exact undoCmd_slots c m

theorem discards_dropCmds (s : State) (p : Cmd → Bool) : Discards k s { s with core := dropCmds s.core p } :=
  discards_of_core (dropCmds_slots ..).1 (dropCmds_slots ..).2 rfl rfl

theorem discards_withdraw (s : State) (h : Held) : Discards k s (withdraw s h) := by
  unfold withdraw
  split
  · exact ⟨fun _ _ => getSlot_setCluster .., rfl, ⟨_, rfl⟩, fun _ => rfl⟩
  · exact discards_setCtx rfl
  · exact discards_of_core rfl rfl rfl rfl

theorem withdraw_core (s : State) (h : Held) : (withdraw s h).core = s.core := by
  unfold withdraw
  split <;> rfl

theorem withdrawAll_core (s : State) (hs : List Held) : (hs.foldl withdraw s).core = s.core := by
  induction hs generalizing s with
  | nil => rfl
  | cons h r ih => rw [List.foldl_cons, ih, withdraw_core]

theorem discards_withdrawAll (s : State) (hs : List Held) : Discards k s (hs.foldl withdraw s) := by
  induction hs generalizing s with
  | nil => exact discards_of_core rfl rfl rfl rfl
  | cons h r ih => exact (discards_withdraw s h).trans (ih _)

theorem discards_dropHeld (s : State) (p : Held → Bool) : Discards k s (dropHeld s p) :=
  (discards_withdrawAll s _).trans (discards_of_core rfl rfl rfl rfl)

theorem dropHeld_core (s : State) (p : Held → Bool) : (dropHeld s p).core = { s.core with held := s.core.held.filter (fun h => !p h) } := by
  simp only [dropHeld, withdrawAll_core]

theorem discards_clearSlot (s : State) (k : Nat) : Discards k s (clearSlot s k) := by
  unfold clearSlot
  extract_lets s0 s1 s2 _ s3
  have h0 : Discards k s s0 := ((discards_foldCounts s k).trans (discards_rename _ 2)).trans (discards_disownRuns _ k)
  have h1 : Discards k s0 s1 := discards_dropCmds ..
  have h2 : Discards k s1 s2 := discards_dropHeld ..
  clear_value s0 s1 s2
  have h3 : Discards k s2 s3 := discards_of_core rfl rfl rfl rfl
  have h4 : Discards k s3 (resetCtl s3 k Ctl.fresh) := discards_of_core rfl rfl rfl rfl
  exact ((((h0.trans h1).trans h2).trans h3).trans h4).trans (discards_setSlot ..)

theorem keepDebug_run (old new : Slot) : (keepDebug old new).run = new.run := rfl

@[simp] theorem getSlot_clearSlot_run (s : State) (k : Nat) : (getSlot (clearSlot s k) k).run = .empty := by
  unfold clearSlot
  extract_lets s0 s1 s2 _ s3
  clear_value s3
  rw [getSlot_setSlot, keepDebug_run]
  rfl

theorem discards_takeOff (s : State) (k : Nat) : Discards k s (takeOff s k) := by
  unfold takeOff
  extract_lets keep s1
  have h1 : Discards k s s1 := discards_rename ..
  clear_value s1
  refine Discards.trans ?_ (discards_clearSlot ..)
  exact h1.trans (discards_of_core rfl rfl rfl rfl)

@[simp] theorem getSlot_takeOff_run (s : State) (k : Nat) : (getSlot (takeOff s k) k).run = .empty := getSlot_clearSlot_run ..

end

end Sys2Proof.Machine
end

section
/-! O42: SIGNAL, PREEMPT, the save of a core's threads, their slices and their ends (R28, R186, R190, R193, R198, R205 to R207,
R232, R317). -/

namespace Sys2Proof.Machine

open Sys2Proof.Claim

/-! ### Stops taken from outside -/

theorem slotClosed_setSlot (s : State) (k j : Nat) (x : Slot) : slotClosed (setSlot s k x) j = slotClosed s j := by
  simp only [slotClosed, setSlot_core_clauses]

/-- A stop of a thread whose slot has been marked beside its voices and its run state is a stop of the thread as it was. -/
theorem stoppedWith_of_setSlot {s t : State} {k cause : Nat} {voice : Option VoiceId} {async : Bool} {fault : Word} {word : BitVec 32}
    {b : Nat} {x : Slot} (hv : ∀ v, slotVoice x v = getVoice s k v) (hx : x.run = (getSlot s k).run)
    (h : StoppedWith (setSlot s k x) t k cause voice async fault word b) : StoppedWith s t k cause voice async fault word b := by
  simp only [StoppedWith, slotClosed_setSlot, getSlot_setSlot, getArch_setSlot_voices hv, setSlot_core_held, setSlot_pkg,
    setSlot_cluster, hx] at h
  exact h

theorem setSlot_setSlot (s : State) (k : Nat) (x y : Slot) : setSlot (setSlot s k x) k y = setSlot s k y := by
  unfold setSlot
  split <;> rfl

/-- A SIGNAL that can be taken. -/
theorem exec_signal_taken {s : State} {k : Nat} (hne : (getSlot s k).run ≠ .empty) (hroll : s.core.rollAt = none)
    (hclk : clockRuns s = true) :
    exec (.signal k) s = .next (takeSignal (setSlot s k { getSlot s k with pendSignal := false }) k) := by
  rw [exec_signal, execSignal, if_neg hne, if_neg (by simp [hroll, hclk])]

theorem stoppedWith_takeSignal {s : State} {k : Nat} (hr : (getSlot s k).run = .running) :
    StoppedWith s (takeSignal (setSlot s k { getSlot s k with pendSignal := false }) k) k 0x20 none true 0 0 s.now := by
  have hgo : takeSignal (setSlot s k { getSlot s k with pendSignal := false }) k =
      stopThread (setSlot s k { getSlot s k with pendSignal := false }) k 0x20 none true 0 0 s.now (getSlot s k).scyc := by
    simp only [takeSignal, getSlot_setSlot, hr, setSlot_now]
  rw [hgo]
  refine stoppedWith_of_setSlot (fun v => ?_) ?_ (stoppedWith_stopThread ..)
  · cases v <;> rfl
  · rfl

/-- A SIGNAL to a thread that is stopping or in its handler. -/
theorem takeSignal_holds {s : State} {k : Nat} (hr : (getSlot s k).run = .stopping ∨ (getSlot s k).run = .handler) :
    takeSignal (setSlot s k { getSlot s k with pendSignal := false }) k =
      setSlot s k { getSlot s k with pendSignal := false, heldSignal := true } := by
  rcases hr with hr | hr <;> simp only [takeSignal, getSlot_setSlot, hr, setSlot_setSlot]

/-- A SIGNAL to a thread that is stopped for its save. -/
theorem takeSignal_saved {s : State} {k : Nat} (hr : (getSlot s k).run = .preempted) :
    takeSignal (setSlot s k { getSlot s k with pendSignal := false }) k =
      setSlot s k (if (getSlot s k).vA.a.handler then { getSlot s k with pendSignal := false, heldSignal := true }
        else { getSlot s k with pendSignal := true }) := by
  simp only [takeSignal, getSlot_setSlot, hr, setSlot_setSlot]

/-! ### Threads stopped for their save (R186) -/

/-- What the stop of slot `k` for its save does where the core's clock runs. -/
structure PreemptsSlot (k : Nat) (s t : State) : Prop where
  arch : ∀ j v, getArch t j v = getArch s j v
  pkg : t.pkg = s.pkg
  cluster : t.cluster = s.cluster
  rollAt : t.core.rollAt = s.core.rollAt
  clock : clockRuns t = clockRuns s
  other : ∀ j, ¬(j = 0 ↔ k = 0) → getSlot t j = getSlot s j
  stops : (getSlot s k).run = .running ∨ (getSlot s k).run = .handler → (getSlot t k).run = .preempted
  empty : (getSlot s k).run = .empty → getSlot t k = getSlot s k

/-- The stop with a last mark in the slot. -/
theorem preemptsSlot_stop {s : State} {k cause : Nat} {voice : Option VoiceId} {async : Bool} {fault : Word} {word : BitVec 32}
    {b : Nat} {scyc : Word} (hne : (getSlot s k).run ≠ .empty) {x : Slot} (hx : x.run = .preempted)
    (hv : ∀ v, slotVoice x v = getVoice (stopThread s k cause voice async fault word b scyc) k v) :
    PreemptsSlot k s (setSlot (stopThread s k cause voice async fault word b scyc) k x) where
  arch j v := by rw [getArch_setSlot_voices hv, getArch_stopThread]
  pkg := by simp
  cluster := by simp
  rollAt := by simp
  clock := by simp [clockRuns]
  other j hj := by rw [getSlot_setSlot_other _ _ hj, getSlot_stopThread_other _ _ _ _ _ _ _ _ hj]
  stops _ := by rw [getSlot_setSlot, hx]
  empty h := absurd h hne

theorem preemptsSlot_preemptSlot {s : State} (hroll : s.core.rollAt = none) (hclk : clockRuns s = true) (k : Nat) :
    PreemptsSlot k s (preemptSlot s k) := by
  have hrest (h1 : (getSlot s k).run ≠ .running) (h2 : (getSlot s k).run ≠ .handler) : PreemptsSlot k s s :=
    ⟨fun _ _ => rfl, rfl, rfl, rfl, rfl, fun _ _ => rfl, fun h => (h.elim h1 h2).elim, fun _ => rfl⟩
  unfold preemptSlot
  rw [if_neg (by simp [hroll, hclk])]
  cases hrun : (getSlot s k).run
  case running => exact preemptsSlot_stop (by simp [hrun]) rfl (fun v => by cases v <;> rfl)
  case handler => exact preemptsSlot_stop (by simp [hrun]) rfl (fun v => by cases v <;> rfl)
  case stopping =>
    exact ⟨fun j v => getArch_setSlot_voices (fun v => by cases v <;> rfl) j v, by simp, by simp, by simp, by simp [clockRuns],
      fun j hj => getSlot_setSlot_other _ _ hj, fun h => by simp [hrun] at h, fun h => by simp [hrun] at h⟩
  all_goals exact hrest (by simp [hrun]) (by simp [hrun])

theorem execPreempt_all {s : State} (h0 : preemptPending s 0 = false) (h1 : preemptPending s 1 = false) :
    execPreempt s = .next (preemptSlot (preemptSlot s 0) 1) := by
  simp [execPreempt, h0, h1]

/-! ### The save (R186, R193) -/

/-- The image changes the memory alone. -/
theorem writeCoreImage_eq (s : State) (area : Nat) : ∃ m, writeCoreImage s area = { s with pkg := { s.pkg with mem := m } } := by
  unfold writeCoreImage
  dsimp only
  split
  · exact ⟨_, rfl⟩
  · exact ⟨_, rfl⟩

theorem saveThread_foldCounts_mem (s : State) (p : Package) (k : Nat) :
    saveThread (foldCounts { s with pkg := p } k) k = saveThread (foldCounts s k) k := rfl

/-- A fold over the cluster that has nothing to do with its pipelines. -/
theorem foldl_pipes {f : Cluster → Nat → Cluster} {p : KMap PipeQueue}
    (hf : ∀ c g, f { c with pipes := p } g = { f c g with pipes := p }) (c : Cluster) (gs : List Nat) :
    gs.foldl f { c with pipes := p } = { gs.foldl f c with pipes := p } := by
  induction gs generalizing c with
  | nil => rfl
  | cons g r ih => rw [List.foldl_cons, List.foldl_cons, hf, ih]

theorem parkMember_pipes (c : Cluster) (p : KMap PipeQueue) (m : Nat) :
    parkMember { c with pipes := p } m = { parkMember c m with pipes := p } := by
  unfold parkMember
  dsimp only
  rw [show memberGroups { c with pipes := p } m = memberGroups c m from rfl, foldl_pipes (fun _ _ => rfl)]

/-- The record of a thread that is taken off its slot: its image, its groups and its arrivals in it. -/
abbrev savedRec (s : State) (k : Nat) (img : Option StoredImage) : QRec :=
  threadRec (getSlot s k) (some { saveThread (foldCounts s k) k with
    groups := memberGroups s.cluster (memberBit s k), arrivals := memberArrivals s.cluster (memberBit s k), stored := img })

/-- What the save of slot `k` does. -/
structure Checkpoints (k : Nat) (img : Option StoredImage) (s t : State) : Prop where
  run : (getSlot t k).run = .empty
  other : ∀ j, ¬(j = 0 ↔ k = 0) → getSlot t j = getSlot s j
  mem : t.pkg.mem = s.pkg.mem
  groups : t.cluster.groups = (parkMember s.cluster (memberBit s k)).groups
  queue : t.cluster.queue = s.cluster.queue ++ [savedRec s k img]

theorem checkpoints_checkpointSlot (s : State) (k : Nat) (img : Option StoredImage) :
    Checkpoints k img s (checkpointSlot s k img) := by
  have hoff : Discards k s (takeOff (foldCounts s k) k) := (discards_foldCounts s k).trans (discards_takeOff ..)
  obtain ⟨p, hp⟩ := hoff.cluster
  have hbit : memberBit (foldCounts s k) k = memberBit s k := by simp [memberBit, coreInCluster, foldCounts]
  have hslot : getSlot (foldCounts s k) k = getSlot s k := by simp [foldCounts]
  refine ⟨?_, fun j hj => ?_, hoff.mem, ?_, ?_⟩
  · rw [checkpointSlot, getSlot_setCluster, getSlot_takeOff_run]
  · rw [checkpointSlot, getSlot_setCluster, hoff.other j hj]
  · simp only [checkpointSlot, setCluster, parkThread, hp, hbit, parkMember_pipes]
  · simp only [checkpointSlot, setCluster, parkThread, hp, hbit, hslot]
    rfl

/-- Where one slot alone holds a stopped thread, the save of the core is the save of that slot. -/
theorem saveCore_alone {s : State} {k : Nat} (hk : k < 2) (hrun : (getSlot s k).run = .preempted)
    (ho : (getSlot s (1 - k)).run ≠ .preempted) (area : Nat) :
    ∃ t, saveCore s area = setCluster t { t.cluster with saveArea := 2 ^ 43 } ∧
      Checkpoints k (storedAt s area k) (writeCoreImage s area) t := by
  have hw (j : Nat) : getSlot (writeCoreImage s area) j = getSlot s j := by
    obtain ⟨m, hm⟩ := writeCoreImage_eq s area
    rw [hm]
    rfl
  have hc := checkpoints_checkpointSlot (writeCoreImage s area) k (storedAt s area k)
  refine ⟨_, ?_, hc⟩
  unfold saveCore
  obtain rfl | rfl : k = 0 ∨ k = 1 := by omega
  · rw [show saveSlot (storedAt s area) (writeCoreImage s area) 0 = checkpointSlot (writeCoreImage s area) 0 (storedAt s area 0) from
        if_pos (by rw [hw, hrun]), saveSlot, if_neg (by rw [hc.other 1 (by simp), hw]; exact ho)]
  · rw [show saveSlot (storedAt s area) (writeCoreImage s area) 0 = writeCoreImage s area from if_neg (by rw [hw]; exact ho),
      saveSlot, if_pos (by rw [hw, hrun])]

theorem saveDue_alone {s : State} {k : Nat} (hk : k < 2) (hrun : (getSlot s k).run = .preempted) (hready : readyToSave s k = true)
    (ho : saveWaits s (1 - k) = false) (hsw : s.cluster.switching = none) : saveDue s = true := by
  have hself : saveWaits s k = false := by simp [saveWaits, hrun, hready]
  obtain rfl | rfl : k = 0 ∨ k = 1 := by omega
  · simp [saveDue, hrun, hself, show saveWaits s 1 = false from ho, hsw]
  · simp [saveDue, hrun, hself, show saveWaits s 0 = false from ho, hsw]

/-- CORE_IMAGE_SAVE of a core with one stopped thread. -/
theorem coreImageSave_alone {s : State} {k : Nat} (hk : k < 2) (hclk : clockRuns s = true) (hrun : (getSlot s k).run = .preempted)
    (hready : readyToSave s k = true) (ho : (getSlot s (1 - k)).run ≠ .preempted) (how : saveWaits s (1 - k) = false)
    (hsw : s.cluster.switching = none) :
    ∃ t, exec .coreImageSave s = .next t ∧ (getSlot t k).run = .empty ∧
      t.cluster.groups = (parkMember s.cluster (memberBit s k)).groups ∧
      t.cluster.queue = s.cluster.queue ++ [savedRec s k (storedAt s s.cluster.saveArea k)] ∧
      t.pkg.mem = (writeCoreImage s s.cluster.saveArea).pkg.mem := by
  obtain ⟨t, ht, hc⟩ := saveCore_alone hk hrun ho s.cluster.saveArea
  refine ⟨_, by rw [exec_coreImageSave, execCoreImageSave, if_pos (by simp [hclk, saveDue_alone hk hrun hready how hsw])], ?_⟩
  rw [ht]
  obtain ⟨m, hm⟩ := writeCoreImage_eq s s.cluster.saveArea
  refine ⟨hc.run, ?_, ?_, hc.mem⟩
  · rw [setCluster, hc.groups, hm]
    rfl
  · rw [setCluster, hc.queue, hm, savedRec, saveThread_foldCounts_mem]
    rfl

/-! ### Ends (R28, R190, R198) -/

/-- Where no log has a say, an event changes at once. -/
theorem replayGate_unlogged {s : State} {c : Nat} (h : (getCtx s c).replay.mode = 0) (bs : List Byte) : replayGate s c bs = some s := by
  simp only [replayGate, h]

theorem drainLog_nothing {s : State} {c : Nat} (h : (getCtx s c).waitingEvents = []) : drainLog s c = s := by
  simp only [drainLog, h, List.length_nil, drainEvents]

theorem getCtx_setCtx (s : State) (c : Nat) (x : Context) : getCtx (setCtx s c x) c = x := mget_mput_same ..

theorem breakMissed_none {s : State} {k : Nat} (h : (getSlot s k).breakAt = none) : breakMissed s k = s := by
  simp [breakMissed, h]

theorem eventChange_unlogged {s : State} {c : Nat} (h : Unlogged s c) (win : Nat) (set clr : Word) (tag : BitVec 16) :
    eventChange s c win set clr tag = changeEvents s c win set clr := by
  simp only [eventChange, replayGate_unlogged h.1]
  refine drainLog_nothing ?_
  rw [changeEvents, getCtx_setCtx]
  exact h.2

/-- A change that clears nothing. -/
theorem events_changeEvents_set (s : State) (c win : Nat) (set : Word) :
    (getCtx (changeEvents s c win set 0) c).events = (setEvents (getCtx s c) win set).events := by
  have h0 : (0 : Word).setWidth 256 <<< (64 * win) = 0#256 := by simp
  rw [changeEvents, getCtx_setCtx, clearEvents, h0, BitVec.not_zero, BitVec.and_allOnes]

theorem events_endThread {s : State} {k : Nat} (h : (getSlot s k).breakAt = none) (c : Nat) :
    (getCtx (endThread s k) c).events = (getCtx s c).events := by
  rw [endThread, breakMissed_none h]
  exact (discards_clearSlot s k).events c

theorem getSlot_endThread_run (s : State) (k : Nat) : (getSlot (endThread s k) k).run = .empty := by
  rw [endThread, getSlot_setCluster, getSlot_clearSlot_run]

/-- The task's set bits are set where it ends. -/
theorem events_endTask {s : State} {k : Nat} (hb : (getSlot s k).breakAt = none) (hu : Unlogged s (getSlot s k).thread.ctx) :
    (getCtx (endTask s k) (getSlot s k).thread.ctx).events =
      (setEvents (getCtx s (getSlot s k).thread.ctx) (recSetWin (getSlot s k).thread.rec3) (getSlot s k).thread.rec2).events := by
  unfold endTask
  dsimp only
  split
  · next h0 =>
    rw [events_endThread hb, h0]
    simp [setEvents]
  · rw [eventChange_unlogged hu, events_endThread (by rw [changeEvents, getSlot_setCtx, hb]), events_changeEvents_set]

/-! ### The obligation -/

/-- Settles O42: stops are `stoppedWith_stopThread`, saves `coreImageSave_alone`, ends `events_endTask`. -/
theorem threadsAreStoppedSavedAndEnded : Obligations.ThreadsAreStoppedSavedAndEnded := by
  unfold Obligations.ThreadsAreStoppedSavedAndEnded
  refine ⟨⟨fun s k => ?signal, fun s hroll hclk h0 h1 => ?preempt, fun s k hk hclk hrun hready ho how hsw => ?save,
    fun s hd => ?nosave, fun s k => ?slice⟩, fun s k => ?ends⟩
  case signal =>
    refine ⟨fun he => by simp [Idle, exec_signal, execSignal, he], fun hne hr => ?_, fun hroll hclk => ?_⟩
    · rw [exec_signal, execSignal, if_neg hne, if_pos (by rcases hr with h | h <;> simp [h])]
    · exact ⟨fun hr => ⟨_, exec_signal_taken (by simp [hr]) hroll hclk, stoppedWith_takeSignal hr⟩,
        fun hr => by rw [exec_signal_taken (by rcases hr with h | h <;> simp [h]) hroll hclk, takeSignal_holds hr],
        fun hr => by rw [exec_signal_taken (by simp [hr]) hroll hclk, takeSignal_saved hr]⟩
  case preempt =>
    have p0 := preemptsSlot_preemptSlot hroll hclk 0
    have p1 := preemptsSlot_preemptSlot (p0.rollAt.trans hroll) (p0.clock.trans hclk) 1
    refine ⟨_, by rw [exec_preempt, execPreempt_all h0 h1], fun j v => (p1.arch j v).trans (p0.arch j v), p1.pkg.trans p0.pkg,
      p1.cluster.trans p0.cluster, fun k => ?_⟩
    have hother := p0.other 1 (by simp)
    by_cases hk : k = 0
    · rw [hk, p1.other 0 (by simp)]
      exact ⟨p0.stops, p0.empty⟩
    · rw [getSlot_congr s (k := 1) (by simp [hk]), getSlot_congr (preemptSlot _ 1) (k := 1) (by simp [hk]), ← hother]
      exact ⟨p1.stops, p1.empty⟩
  case save =>
    obtain ⟨t, ht, hempty, hgroups, hqueue, hmem⟩ := coreImageSave_alone hk hclk hrun hready ho how hsw
    exact ⟨t, ht, hempty, hgroups, hqueue, fun a => by rw [hmem]⟩
  case nosave => simp [Idle, exec_coreImageSave, execCoreImageSave, hd]
  case slice =>
    refine ⟨fun h => by simp [Idle, exec_timeSliceEnd, execTimeSliceEnd, h], fun h hr => ?_, fun h hr hi => ?_,
      fun h hr hi hstop hroll => ?_, fun h => by simp [Idle, exec_invalidationHoldTimeout, execInvalidationHoldTimeout, h],
      fun h => by simp [exec_invalidationHoldTimeout, execInvalidationHoldTimeout, h]⟩
    · simp [exec_timeSliceEnd, execTimeSliceEnd, h, hr]
    · simp [exec_timeSliceEnd, execTimeSliceEnd, h, hr, hi]
    · have hgo : exec (.timeSliceEnd k) s =
          .next (stopThread (restartSlice s k) k 0x23 none true 0 0 s.now (getSlot s k).scyc) := by
        simp [exec_timeSliceEnd, execTimeSliceEnd, h, hr, hi, hstop]
      exact ⟨_, hgo, by rw [getSlot_stopThread], _, by rw [getSlot_stopThread], rfl⟩
  case ends =>
    refine ⟨fun hr hs hc hb hu => ⟨endTask s k, ?_, getSlot_endThread_run .., events_endTask hb hu⟩, fun hr hs hc => ?_, fun hr hs => ?_,
      fun st hr hst hf ho => ?_, fun hr hst hc => ⟨clearSlot s k, ?_, getSlot_clearSlot_run ..⟩, fun h1 h2 => ?_⟩
    · simp [exec_threadEnd, execThreadEnd, hr, hs, hc]
    · simp [exec_threadEnd, execThreadEnd, hr, hs, hc]
    · simp [Idle, exec_threadEnd, execThreadEnd, hr, hs]
    · simp [exec_threadEnd, execThreadEnd, hr, hst, hf, ho]
    · simp [exec_threadEnd, execThreadEnd, hr, hst, hc]
    · simp [Idle, exec_threadEnd, execThreadEnd, h1, h2]

end Sys2Proof.Machine
end

section
/-! O47: tasks start and come back on free slots, or displace one (R17, R93, R197 to R199, R206). -/

namespace Sys2Proof.Machine

open Sys2Proof.Claim

/-! ### The queue of records under the operations on groups (R190, R193) -/

theorem foldl_queue {α : Type} {f : Cluster → α → Cluster} (hf : ∀ c x, (f c x).queue = c.queue) (c : Cluster) (xs : List α) :
    (xs.foldl f c).queue = c.queue := by
  induction xs generalizing c with
  | nil => rfl
  | cons x r ih => rw [List.foldl_cons, ih, hf]

@[simp] theorem barrierCheck_queue (now : Nat) (c : Cluster) (k n : Nat) : (barrierCheck now c k n).queue = c.queue := by
  induction n generalizing c with
  | zero => rfl
  | succ n ih =>
    rw [barrierCheck]
    dsimp only
    split
    · split
      · rfl
      · rw [ih]
        rfl
    · rfl

@[simp] theorem leaveAll_queue (now : Nat) (c : Cluster) (m : Nat) : (leaveAll now c m).queue = c.queue := by
  refine foldl_queue (fun c g => ?_) ..
  rw [leaveGroup, foldl_queue]
  · rfl
  · intro c k
    rw [leaveBarrier, barrierCheck_queue]
    rfl

theorem placeMember_queue (now : Nat) (c : Cluster) (g m : Nat) : (placeMember now c g m).queue = c.queue := by
  rw [placeMember, foldl_queue]
  · rfl
  · intro c k
    rw [barrierCheck_queue]
    rfl

@[simp] theorem placeRecord_queue (now : Nat) (c : Cluster) (q : QRec) (m : Nat) : (placeRecord now c q m).queue = c.queue := by
  rw [placeRecord, foldl_queue (fun c g => placeMember_queue now c g m), foldl_queue]
  intro c x
  rfl

/-! ### Clauses opened for a thread that begins -/

theorem openClause_eq (s : State) (k : Nat) (v : VoiceId) (ps : List Nat) :
    ∃ u y, openClause s k v ps = setVoice u k v y ∧ y.a = getArch s k v ∧ ∀ j, getSlot u j = getSlot s j :=
  ⟨_, _, rfl, rfl, fun _ => rfl⟩

@[simp] theorem getArch_openClause (s : State) (k : Nat) (v : VoiceId) (ps : List Nat) (j : Nat) (u : VoiceId) :
    getArch (openClause s k v ps) j u = getArch s j u := by
  obtain ⟨w, y, hw, hy, hs⟩ := openClause_eq s k v ps
  rw [hw]
  by_cases hj : j = 0 ↔ k = 0
  · rw [getArch, getArch, getVoice, getVoice, getSlot_congr _ hj, getSlot_congr s hj]
    change (getVoice (setVoice w k v y) k u).a = (getVoice s k u).a
    by_cases hu : u = v
    · rw [hu, getVoice_setVoice, hy, getArch]
    · rw [getVoice_setVoice_ne _ _ _ hu, getVoice, getVoice, hs]
  · rw [getArch, getArch, getVoice, getVoice, setVoice, getSlot_setSlot_other _ _ hj, hs]

theorem getSlot_openClause_part {α : Type} {f : Slot → α} (hf : NoVoicePart f) (s : State) (k : Nat) (v : VoiceId) (ps : List Nat) :
    f (getSlot (openClause s k v ps) k) = f (getSlot s k) := by
  obtain ⟨w, y, hw, -, hs⟩ := openClause_eq s k v ps
  rw [hw, setVoice, getSlot_setSlot, hf, hs]

@[simp] theorem getArch_openAll (s : State) (k : Nat) (vs : List VoiceId) (j : Nat) (u : VoiceId) :
    getArch (openAll s k vs) j u = getArch s j u := by
  induction vs generalizing s with
  | nil => rfl
  | cons v r ih => rw [openAll, ih, getArch_openClause]

theorem getSlot_openAll_part {α : Type} {f : Slot → α} (hf : NoVoicePart f) (s : State) (k : Nat) (vs : List VoiceId) :
    f (getSlot (openAll s k vs) k) = f (getSlot s k) := by
  induction vs generalizing s with
  | nil => rfl
  | cons v r ih => rw [openAll, ih, getSlot_openClause_part hf]

@[simp] theorem openAll_pkg (s : State) (k : Nat) (vs : List VoiceId) : (openAll s k vs).pkg = s.pkg := by
  induction vs generalizing s with
  | nil => rfl
  | cons v r ih => rw [openAll, ih, openClause_pkg]

@[simp] theorem openAll_cluster (s : State) (k : Nat) (vs : List VoiceId) : (openAll s k vs).cluster = s.cluster := by
  induction vs generalizing s with
  | nil => rfl
  | cons v r ih => rw [openAll, ih, openClause_cluster]

/-! ### A task starts (R17, R197) -/

/-- A voice of a new thread: at its entry, with nothing under way, its arguments in its registers. -/
def FreshVoice (bs : List Byte) (v : VoiceId) (a : VoiceArch) : Prop :=
  ∃ f g, a = { VoiceArch.fresh (BitVec.ofNat 52 (fieldAt bs (8 * v.num) 8)) with vis := f, hid := g }

/-- A slot whose voices are those of a new thread. -/
def FreshSlot (bs : List Byte) (x : Slot) : Prop := ∀ v, FreshVoice bs v (slotVoice x v).a

theorem freshSlot_writeArg {bs : List Byte} {x : Slot} (h : FreshSlot bs x) (inst : Nat) (stride : Word) (arg : List Byte) :
    FreshSlot bs (writeArg inst stride x arg) := by
  intro u
  unfold writeArg
  extract_lets v val r y both
  by_cases hu : u = v
  · rw [hu, slotVoice_setSlotVoice]
    obtain ⟨f, g, hfg⟩ := h v
    exact ⟨_, _, by simp only [both, y, hfg]; rfl⟩
  · rw [slotVoice_setSlotVoice_ne _ _ hu]
    exact h u

theorem writeArg_part {α : Type} {f : Slot → α} (hf : NoVoicePart f) (inst : Nat) (stride : Word) (x : Slot) (arg : List Byte) :
    f (writeArg inst stride x arg) = f x := hf ..

theorem freshSlot_writeArgs {bs : List Byte} {x : Slot} (h : FreshSlot bs x) (inst : Nat) (stride : Word) (arg : Nat → List Byte)
    (is : List Nat) : FreshSlot bs (is.foldl (fun x i => writeArg inst stride x (arg i)) x) := by
  induction is generalizing x with
  | nil => exact h
  | cons i r ih => exact ih (freshSlot_writeArg h inst stride (arg i))

theorem writeArgs_part {α : Type} {f : Slot → α} (hf : NoVoicePart f) (x : Slot) (inst : Nat) (stride : Word) (arg : Nat → List Byte)
    (is : List Nat) : f (is.foldl (fun x i => writeArg inst stride x (arg i)) x) = f x := by
  induction is generalizing x with
  | nil => rfl
  | cons i r ih => rw [List.foldl_cons, ih, writeArg_part hf]

theorem freshSlot_newSlot (s : State) (old : Slot) (q : QRec) (m : Image) (base : Nat) :
    FreshSlot m.header (newSlot s old q m base) := by
  unfold newSlot
  extract_lets c t _ x
  have hx : FreshSlot m.header x := fun v => by cases v <;> exact ⟨Faces.zero, Faces.zero, rfl⟩
  exact freshSlot_writeArgs hx _ _ (fun i => (m.args.drop (16 * i)).take 16) _

/-- What no argument reaches in the slot of a new thread. -/
theorem newSlot_rest (s : State) (old : Slot) (q : QRec) (m : Image) (base : Nat) :
    (newSlot s old q m base).run = .running ∧ (newSlot s old q m base).scyc = 0 ∧
    (newSlot s old q m base).thread.ctx = q.ctx ∧ (newSlot s old q m base).thread.tag = q.tag ∧
    (newSlot s old q m base).thread.winBase = base ∧ (newSlot s old q m base).thread.winLen = m.node.winLen := by
  unfold newSlot
  extract_lets c t _ x
  have hpart {α : Type} (f : Slot → α) (hf : NoVoicePart f) := writeArgs_part hf x (recInstance q.r0) m.node.stride
    (fun i => (m.args.drop (16 * i)).take 16) (List.range m.node.argCount)
  refine ⟨hpart (·.run) ?_, hpart (·.scyc) ?_, hpart (·.thread.ctx) ?_, hpart (·.thread.tag) ?_, hpart (·.thread.winBase) ?_,
    hpart (·.thread.winLen) ?_⟩ <;> intro x v y <;> cases v <;> rfl

/-- What the start of a task comes to: its slot, and its membership of its groups. -/
theorem startFresh_facts (s : State) (k : Nat) (q : QRec) (m : Image) (base : Nat) :
    (∀ v, FreshVoice m.header v (getArch (startFresh s k q m base) k v)) ∧
    (∀ {α : Type} (f : Slot → α), NoVoicePart f → f (getSlot (startFresh s k q m base) k) = f (newSlot s (getSlot s k) q m base)) ∧
    (startFresh s k q m base).pkg = s.pkg ∧ (startFresh s k q m base).cluster.queue = s.cluster.queue := by
  unfold startFresh
  extract_lets x s1
  have hx : FreshSlot m.header x := freshSlot_newSlot s (getSlot s k) q m base
  have hslot : getSlot (joinPlaced (resetCtl (clearBanks s1 k) k Ctl.fresh) k q) k = x := getSlot_setSlot s k x
  have hpkg : (joinPlaced (resetCtl (clearBanks s1 k) k Ctl.fresh) k q).pkg = s.pkg := setSlot_pkg s k x
  have hqueue : (joinPlaced (resetCtl (clearBanks s1 k) k Ctl.fresh) k q).cluster.queue = s.cluster.queue := by
    rw [joinPlaced, setCluster, placeRecord_queue]
    exact congrArg Cluster.queue (setSlot_cluster s k x)
  refine ⟨fun v => ?_, fun f hf => ?_, ?_, ?_⟩
  · rw [getArch_openAll, getArch, getVoice, hslot]
    exact hx v
  · rw [getSlot_openAll_part hf, hslot]
  · rw [openAll_pkg, hpkg]
  · rw [openAll_cluster, hqueue]

/-! ### A saved task comes back (R93, R186) -/

/-- What a packet on its way leaves alone. -/
structure OnlySends (s t : State) : Prop where
  core : t.core = s.core
  cluster : t.cluster = s.cluster
  contexts : t.pkg.contexts = s.pkg.contexts

theorem OnlySends.trans {s t u : State} (h : OnlySends s t) (g : OnlySends t u) : OnlySends s u :=
  ⟨g.core.trans h.core, g.cluster.trans h.cluster, g.contexts.trans h.contexts⟩

theorem onlySends_inject (s : State) (jk : Nat) (p : Packet) : OnlySends s (inject s jk p) := by
  have hdeliver : OnlySends s (deliver s p) := by
    unfold deliver
    split
    · exact ⟨rfl, rfl, rfl⟩
    · split <;> exact ⟨rfl, rfl, rfl⟩
  unfold inject
  split
  · exact hdeliver
  · split
    · unfold putSaved writeSaveArea
      extract_lets bs
      split <;> exact ⟨rfl, rfl, rfl⟩
    · exact hdeliver

theorem onlySends_sendRead (k : Nat) (s : State) (x : Xfer) : OnlySends s (sendRead k s x) := by
  unfold sendRead
  split
  · exact ⟨rfl, rfl, rfl⟩
  · split
    · exact ⟨rfl, rfl, rfl⟩
    · exact (onlySends_inject ..).trans ⟨rfl, rfl, rfl⟩

theorem onlySends_sendAll (k : Nat) (s : State) (xs : List Xfer) : OnlySends s (xs.foldl (sendRead k) s) := by
  induction xs generalizing s with
  | nil => exact ⟨rfl, rfl, rfl⟩
  | cons x r ih => exact (onlySends_sendRead k s x).trans (ih _)

theorem onlySends_sendReads (s : State) : OnlySends s (sendReads s) := (onlySends_sendAll 0 s _).trans (onlySends_sendAll 1 _ _)

theorem onlySends_resumeReads (s : State) (k : Nat) : OnlySends s (resumeReads s k) := by
  unfold resumeReads
  refine OnlySends.trans ?_ (onlySends_sendReads _)
  exact ⟨rfl, rfl, rfl⟩

/-- Fences pass with what a thread has released; the rest of each slot stays. -/
theorem getSlot_rename (s : State) (old new j : Nat) :
    getSlot (rename s old new) j = { getSlot s j with fences := (getSlot (rename s old new) j).fences } := by
  change getSlot (moveFences s old new) j = { getSlot s j with fences := (getSlot (moveFences s old new) j).fences }
  unfold moveFences
  split
  · dsimp only
    split
    · rfl
    · by_cases hj : j = 0 ↔ old = 0
      · rw [getSlot_congr (setSlot _ _ _) hj, getSlot_setSlot, getSlot_congr s hj]
      · rw [getSlot_setSlot_other _ _ hj]
        rfl
  · rfl

theorem rename_keeps (s : State) (old new : Nat) :
    (rename s old new).cluster = s.cluster ∧ (rename s old new).pkg.contexts = s.pkg.contexts := by
  change (moveFences s old new).cluster = s.cluster ∧ (moveFences s old new).pkg.contexts = s.pkg.contexts
  unfold moveFences
  split
  · dsimp only
    split
    · exact ⟨rfl, rfl⟩
    · exact ⟨setSlot_cluster .., congrArg Package.contexts (setSlot_pkg ..)⟩
  · exact ⟨rfl, rfl⟩

/-- What comes back of a saved thread. -/
theorem restoreThread_facts (s : State) (k : Nat) (m : SavedThread) :
    (getSlot (restoreThread s k m) k).run = m.slot.run ∧ (getSlot (restoreThread s k m) k).scyc = m.slot.scyc ∧
    (∀ v, getArch (restoreThread s k m) k v = (thawVoice s.now (slotVoice m.slot v)).a) ∧
    (restoreThread s k m).cluster = s.cluster ∧ (restoreThread s k m).pkg.contexts = s.pkg.contexts := by
  unfold restoreThread
  extract_lets s' t n _ x alone s1 lo core1 s2
  have hslot : getSlot s2 k = x := by
    have hcore : core1.slot0 = s1.core.slot0 ∧ core1.slot1 = s1.core.slot1 := by
      simp only [core1]
      split <;> exact ⟨rfl, rfl⟩
    have hsame : getSlot s2 k = getSlot s1 k := by
      simp only [getSlot, s2]
      rw [hcore.1, hcore.2]
    rw [hsame]
    exact getSlot_setSlot s' k x
  have hcluster : s2.cluster = s.cluster := setSlot_cluster s' k x
  have hcontexts : s2.pkg.contexts = s.pkg.contexts := congrArg Package.contexts (setSlot_pkg s' k x)
  clear_value s2
  obtain ⟨hcore, hc, hp⟩ := onlySends_resumeReads (openAll (rename s2 m.ticket k) k allVoices) k
  have hsent (j : Nat) : getSlot (resumeReads (openAll (rename s2 m.ticket k) k allVoices) k) j =
      getSlot (openAll (rename s2 m.ticket k) k allVoices) j := by rw [getSlot, hcore, getSlot]
  have hpart {α : Type} (f : Slot → α) (hf : NoVoicePart f) (hfence : ∀ y z, f { y with fences := z } = f y) :
      f (getSlot (resumeReads (openAll (rename s2 m.ticket k) k allVoices) k) k) = f x := by
    rw [hsent, getSlot_openAll_part hf, getSlot_rename, hfence, hslot]
  refine ⟨hpart (·.run) ?_ ?_, hpart (·.scyc) ?_ ?_, fun v => ?_, ?_, ?_⟩
  · intro y v z
    cases v <;> rfl
  · intro y z
    rfl
  · intro y v z
    cases v <;> rfl
  · intro y z
    rfl
  · have hopen : getArch (openAll (rename s2 m.ticket k) k allVoices) k v = getArch (rename s2 m.ticket k) k v := getArch_openAll ..
    rw [getArch, getVoice, hsent]
    refine hopen.trans ?_
    rw [getArch, getVoice, getSlot_rename, hslot]
    cases v <;> rfl
  · rw [hc, openAll_cluster, (rename_keeps ..).1, hcluster]
  · rw [hp, openAll_pkg, (rename_keeps ..).2, hcontexts]

/-! ### A record leaves the queue (R197, R198) -/

/-- The state with record `i` taken from the queue for slot `k`. -/
abbrev recTaken (s : State) (k i : Nat) : State :=
  setCluster s { s.cluster with
    queue := dropIndex s.cluster.queue i, promised := s.cluster.promised.filter (fun p => decide (p.1 ≠ k)) }

theorem putRec_fresh {s : State} {k base : Nat} {q : QRec} {m : Image} (hf : q.saved = none)
    (hr : readImage s (getCtx s q.ctx) q.r0 = .ok m) (hw : firstFit s k m.node.winLen = some base) (i : Nat) :
    putRec s k i q = startFresh (recTaken s k i) k q m base := by
  have hfit : firstFit (recTaken s k i) k m.node.winLen = some base := hw
  simp only [putRec, hf, readImage_setCluster, getCtx_setCluster, hr]
  rw [hfit]

theorem putRec_saved {s : State} {q : QRec} {m : SavedThread} (hm : q.saved = some m) (k i : Nat) :
    putRec s k i q = joinPlaced (restoreThread (pastImage (recTaken s k i)) k (fromStore s m)) k q := by
  simp only [putRec, hm, fromStore_setCluster]

theorem fromStore_of_unstored {s : State} {m : SavedThread} (h : m.stored = none) : fromStore s m = m := by
  rw [fromStore, h]

/-- Without a log or a trace, a placement is what it does. -/
theorem placeRec_plain {s : State} {k i : Nat} {q : QRec} (hu : Unlogged s q.ctx) (ht : (getCtx s q.ctx).trace = none)
    (hc : (putRec s k i q).pkg.contexts = s.pkg.contexts) : placeRec s k i q = putRec s k i q := by
  have hctx : getCtx (putRec s k i q) q.ctx = getCtx s q.ctx := by rw [getCtx, hc, getCtx]
  simp only [placeRec, gated, replayGate_unlogged hu.1]
  rw [traceRec_off _ _ _ _ _ (by rw [hctx, ht]), drainLog_nothing (by rw [hctx, hu.2])]

theorem exec_taskPlace_due {s : State} {k i : Nat} {q : QRec} (hq : s.cluster.queue[i]? = some q)
    (hd : duePlacement s = some (i, k)) : exec (.taskPlace i k) s = .next (placeRec s k i q) := by
  simp [exec_taskPlace, execTaskPlace, hq, hd]

theorem exec_taskPlace_other {s : State} {k i : Nat} {q : QRec} (hq : s.cluster.queue[i]? = some q)
    (hd : duePlacement s ≠ some (i, k)) :
    exec (.taskPlace i k) s = .next (if mayDisplace s k q = true then displace s k q else s) := by
  simp only [exec_taskPlace, execTaskPlace, hq, if_neg hd]
  split <;> rfl

/-! ### A task is killed (R206) -/

theorem debugNotice_keeps (s : State) (k reason image : Nat) :
    (debugNotice s k reason image).core = s.core ∧ (debugNotice s k reason image).cluster = s.cluster := by
  unfold debugNotice
  dsimp only
  split
  · exact ⟨rfl, rfl⟩
  · unfold postCompletion
    dsimp only
    split
    · exact ⟨rfl, rfl⟩
    · split <;> exact ⟨rfl, rfl⟩

theorem breakMissed_keeps (s : State) (k : Nat) : (breakMissed s k).core.clauses = s.core.clauses ∧
    (breakMissed s k).core.cmds = s.core.cmds ∧ (breakMissed s k).cluster = s.cluster := by
  obtain ⟨hc, hcl⟩ := debugNotice_keeps s k 6 0
  unfold breakMissed
  dsimp only
  split
  · rw [setSlot_core_clauses, setSlot_core_cmds, setSlot_cluster, hc, hcl]
    exact ⟨rfl, rfl, rfl⟩
  · exact ⟨rfl, rfl, rfl⟩

/-- A clause of the slot that is discarded is open in it. -/
theorem discardOpen_keeps (s : State) (k : Nat) : (∀ c ∈ (discardOpen s k).core.clauses, c.slot ≠ k) ∧
    (∀ m ∈ s.core.cmds, unsealed s.core m.clause = false → m ∈ (discardOpen s k).core.cmds) ∧
    (discardOpen s k).cluster.queue = s.cluster.queue := by
  unfold discardOpen
  extract_lets ids s1
  have hs1 : Discards k s s1 := (discards_dropCmds s _).trans (discards_dropHeld ..)
  have hcmds : s1.core.cmds = s.core.cmds.filter (fun m => !ids.contains m.clause) := by
    simp only [s1, dropHeld_core]
    rfl
  obtain ⟨p, hp⟩ := hs1.cluster
  have hids (cl : Nat) (hu : unsealed s.core cl = false) : ids.contains cl = false := by
    simp only [unsealed, List.any_eq_false, decide_eq_true_eq] at hu
    simp only [ids, List.contains_eq_mem, List.mem_map, List.mem_filter, decide_eq_false_iff_not]
    rintro ⟨c, ⟨hc, -⟩, hid⟩
    exact hu c hc hid
  refine ⟨fun c hc => ?_, fun m hm hu => ?_, by rw [hp]⟩
  · exact of_decide_eq_true (List.mem_filter.mp hc).2
  · change m ∈ s1.core.cmds
    rw [hcmds]
    exact List.mem_filter.mpr ⟨hm, by rw [hids _ hu]; rfl⟩

theorem leaveSlot_keeps (s : State) (k : Nat) : (getSlot (leaveSlot s k) k).run = .dead ∧
    (leaveSlot s k).core.clauses = s.core.clauses ∧ (leaveSlot s k).core.cmds = s.core.cmds ∧ (leaveSlot s k).cluster = s.cluster := by
  unfold leaveSlot
  dsimp only
  rw [getSlot_setSlot, setSlot_core_clauses, setSlot_core_cmds, setSlot_cluster]
  exact ⟨rfl, rfl, rfl, rfl⟩

/-- A record at the queue's head, pending in the group it names. -/
theorem requeue_queue (c : Cluster) (q : QRec) :
    ∃ r, (requeue c q).queue = r :: c.queue ∧ r.r0 = q.r0 ∧ r.tag = q.tag ∧ r.saved = q.saved := by
  unfold requeue
  split
  · exact ⟨_, rfl, rfl, rfl, rfl⟩
  · exact ⟨q, rfl, rfl, rfl, rfl⟩

/-- What the kill of a task does. -/
theorem killTask_facts (s : State) (k : Nat) : (getSlot (killTask s k) k).run = .dead ∧
    (∃ r, (killTask s k).cluster.queue = r :: s.cluster.queue ∧ r.r0 = (getSlot s k).thread.rec0 ∧ r.tag = (getSlot s k).thread.tag ∧
      r.saved = none) ∧
    (∀ c ∈ (killTask s k).core.clauses, c.slot ≠ k) ∧
    (∀ m ∈ s.core.cmds, unsealed s.core m.clause = false → m ∈ (killTask s k).core.cmds) := by
  obtain ⟨hbc, hbm, hbq⟩ := breakMissed_keeps s k
  have hfc : (foldCounts (breakMissed s k) k).core.clauses = s.core.clauses := by simp [foldCounts, hbc]
  have hfm : (foldCounts (breakMissed s k) k).core.cmds = s.core.cmds := by simp [foldCounts, hbm]
  have hfq : (foldCounts (breakMissed s k) k).cluster = s.cluster := by simp [foldCounts, hbq]
  obtain ⟨hdc, hdm, hdq⟩ := discardOpen_keeps (foldCounts (breakMissed s k) k) k
  obtain ⟨hrun, hlc, hlm, hlq⟩ := leaveSlot_keeps (discardOpen (foldCounts (breakMissed s k) k) k) k
  obtain ⟨r, hr, hr0, htag, hsaved⟩ := requeue_queue
    (leaveAll (leaveSlot (discardOpen (foldCounts (breakMissed s k) k) k) k).now
      (leaveSlot (discardOpen (foldCounts (breakMissed s k) k) k) k).cluster (memberBit s k)) (threadRec (getSlot s k) none)
  unfold killTask
  dsimp only
  refine ⟨by rw [getSlot_setCluster, hrun], ⟨r, ?_, hr0, htag, hsaved⟩, ?_, fun m hm hu => ?_⟩
  · rw [setCluster, hr, leaveAll_queue, hlq, hdq, hfq]
  · rw [setCluster_core_clauses, hlc]
    exact hdc
  · rw [setCluster_core_cmds, hlm]
    refine hdm m (by rw [hfm]; exact hm) ?_
    rw [unsealed, hfc]
    exact hu

/-! ### The obligation -/

/-- Settles O47: a start is `startFresh_facts`, a return `restoreThread_facts`, a kill `killTask_facts`. -/
theorem tasksArePlacedOnFreeSlots : Obligations.TasksArePlacedOnFreeSlots := by
  unfold Obligations.TasksArePlacedOnFreeSlots
  refine ⟨fun s k i base q m h => ?fresh, fun s k i q m hq hd hm hu ht => ?saved,
    fun s k i q hq hd => ⟨fun hn => ?stays, fun hmay => ⟨fun hrem => ?promised, fun hrem hkill => ?killed, fun hrem hkill => ?preempted⟩⟩,
    fun s k i hq hd => ?none⟩
  case fresh =>
    obtain ⟨hvoices, hpart, hpkg, hqueue⟩ := startFresh_facts (recTaken s k i) k q m base
    obtain ⟨hrun, hscyc, hctx, htag, hbase, hlen⟩ := newSlot_rest (recTaken s k i) (getSlot (recTaken s k i) k) q m base
    have hput := putRec_fresh h.fresh h.reads h.window i
    refine ⟨startFresh (recTaken s k i) k q m base, ?_, ?_, ?_, ?_, ?_, ?_, ?_, hqueue, fun v => ?_, by rw [hpkg]; rfl⟩
    · rw [exec_taskPlace_due h.there h.next, placeRec_plain h.unlogged h.untraced (by rw [hput, hpkg]; rfl), hput]
    · exact (hpart (·.run) (fun x v y => by cases v <;> rfl)).trans hrun
    · exact (hpart (·.thread.ctx) (fun x v y => by cases v <;> rfl)).trans hctx
    · exact (hpart (·.thread.tag) (fun x v y => by cases v <;> rfl)).trans htag
    · exact (hpart (·.thread.winBase) (fun x v y => by cases v <;> rfl)).trans hbase
    · exact (hpart (·.thread.winLen) (fun x v y => by cases v <;> rfl)).trans hlen
    · exact (hpart (·.scyc) (fun x v y => by cases v <;> rfl)).trans hscyc
    · obtain ⟨f, g, hfg⟩ := hvoices v
      rw [hfg]
      exact ⟨rfl, rfl, rfl, rfl, rfl⟩
  case saved =>
    obtain ⟨hrun, hscyc, harch, hcluster, hcontexts⟩ := restoreThread_facts (pastImage (recTaken s k i)) k (fromStore s m)
    have hput := putRec_saved hm k i (s := s)
    refine ⟨joinPlaced (restoreThread (pastImage (recTaken s k i)) k (fromStore s m)) k q, ?_, ?_, ?_, ?_,
      fromStore_of_unstored, fun v => ?_⟩
    · rw [exec_taskPlace_due hq hd, placeRec_plain hu ht (by rw [hput]; exact hcontexts), hput]
    · rw [joinPlaced, getSlot_setCluster, hrun]
    · rw [joinPlaced, getSlot_setCluster, hscyc]
    · rw [joinPlaced, setCluster, placeRecord_queue, hcluster]
      rfl
    · rw [joinPlaced, getArch_setCluster, harch]
      exact ⟨rfl, rfl, rfl⟩
  case stays => simp [Idle, exec_taskPlace_other hq hd, hn]
  case promised => simp [exec_taskPlace_other hq hd, hmay, displace, hrem]
  case killed =>
    obtain ⟨hrun, ⟨r, hr, hr0, htag, hsaved⟩, hclauses, hcmds⟩ := killTask_facts s k
    refine ⟨killTask s k, r, ?_, hrun, hr, hr0, htag, hsaved, hclauses, fun m hm _ hu => hcmds m hm hu⟩
    rw [exec_taskPlace_other hq hd, if_pos hmay, displace]
    simp only [if_neg (Nat.not_le.mpr hrem), hkill, if_true]
  case preempted =>
    rw [exec_taskPlace_other hq hd, if_pos hmay, displace]
    simp [Nat.not_le.mpr hrem, hkill]
  case none => simp [Idle, exec_taskPlace, execTaskPlace, hq, hd]

end Sys2Proof.Machine
end

section
/-! O2 and O1: words and instructions stand for each other (R30 to R45). -/

namespace Sys2Proof.Laws.EncodeRoundTrip

/-- Every instruction keeps the round trip: each constructor of `Instr`, in its order, by the lemma of its layout. -/
theorem every (i : Instr) : Statement i :=
  Instr.rec (motive := Statement)
    lui lapc addi andi ori xori shli shri srai roli cmpeqi cmplti cmpltni add sub and or xor andn shl shr sra rol min
    max minn maxn mul mulh mulhn clz popc sext zext sel cmpeq cmpne cmplt cmple cmpltn cmplen pand por pxor pnot br brn
    brt call jr jtb loop flip rdh spost swait bqput nop exit bqbr bqbrn bqbrt trap eret srd swr brk lds sts ldq stq
    qpush qpushSq sbind sunbind spos lbqry commit vaddI32 vsubI32 vmulI32 vmulhI32 vmulhnI32 vminI32 vmaxI32 vminnI32
    vmaxnI32 vandI32 vorI32 vxorI32 vshlI32 vshrI32 vsraI32 vcmpeqI32 vcmpltI32 vcmpltnI32 vsel vaddF32 vsubF32 vmulF32
    vminF32 vmaxF32 vabsF32 vnegF32 vcmpeqF32 vcmpltF32 vcmpleF32 vaddF16 vsubF16 vmulF16 vminF16 vmaxF16 vabsF16
    vnegF16 vcmpeqF16 vcmpltF16 vcmpleF16 vaddBf16 vsubBf16 vmulBf16 vminBf16 vmaxBf16 vabsBf16 vnegBf16 vcmpeqBf16
    vcmpltBf16 vcmpleBf16 vfmaF32 vfmsF32 vfmaBf16 vfmaF16 vcvtF32I32 vcvtI32F32 vcvtF32F16 vcvtF32Bf16 vcvtF16F32
    vcvtBf16F32 vcvtF32E4m3 vcvtF32E5m2 vcvtE4m3F32 vcvtE5m2F32 vpackB4 vunpackB4 vperm vrot vbcast vredadd vredmax
    viredadd vbspl patC pisC patA pisA patS pisS tplC tplA tplS cwait cdisc crd rngset rngrd publish kset krd katcmp
    join leave grpq barr bwait barw finc fwait frd fset launch launchn evset evclr evwait enq deq yield taskinfo ldg stg
    lda stl ldgq stgq pfg fence pubg tlbinv tlbsync caprd ctxsave ctxrst sealw hostsig nwr nrd nred nbar memb gsw
    pendingResultLand queueEntryFill landingArrival streamService slotYield clauseSeal barrierWaitEnd copy copyf
    copyfFollowOn arrLoadb arrMm arrSpl arrGrad arrRefine arrDrain arrRowout scatAdd scatMax scatterWindow commandRetire
    trapEntry signal preempt coreImageSave threadEnd strikeReport rollbackRestart timeSliceEnd taskPlace pipelineSpill
    stealRequest stealAcknowledge stealConfirm stealTimeout schedLost clusterSwitchOut clusterRestore walkComplete
    invalidationAck invalidationHoldTimeout pubgToggle releasePerformed contextSaveRequest contextRestoreRequest
    submissionTail completionHead faultHead launchPacket event evwaitPacket attach detach stop resume debugRead
    debugWrite debugBreak sample trace counters replay inject breakpoint freezeLimit sampleEmit replayTimeout
    coreRelease powerLimit hostCtxsave hostCtxrst packageIdleRequest bar0RegisterWrite powerOn reboot powerOff
    getVersion getCapabilities negotiateAlgorithms getDigests getCertificate challenge getMeasurements flitReceive
    linkTrained linkRetrainTimeout remoteWrite readRequest readReply writeAcknowledgement contribution collectiveResult
    barrierArrival barrierRelease cutMarker resumeMarker sweepReport purge remoteTimeout memberFailure storePerformed
    unsupportedRequest contextCreation hostInject invalidPacket i

end Sys2Proof.Laws.EncodeRoundTrip

namespace Sys2Proof.Laws

open Sys2Proof.Machine

theorem decodeWord_of_encode {i : Instr} {w : BitVec 32} (henc : encode i = some w) (hwf : wellFormed i = true) :
    decodeWord w = some i := EncodeRoundTrip.every i w henc hwf

/-- No row of the tables (R46). -/
theorem decodeWord_of_no_row {w : BitVec 32} (h : raw w = none) : decodeWord w = none := by
  rw [decodeWord, h]

/-- The instruction read has another word: a reserved bit is set (R34). -/
theorem decodeWord_of_reserved {i : Instr} {w : BitVec 32} (hraw : raw w = some i) (henc : encode i ≠ some w) :
    decodeWord w = none := by
  simp [decodeWord, hraw, henc]

/-- The four bytes of a word, little-endian, are read back as the word (R3, R30). -/
theorem decodeTableWord_toNat (w : BitVec 32) : decodeTableWord 32 w.toNat = decodeWord w := by
  have htake : (leBytes 4 w.toNat).take 4 = leBytes 4 w.toNat := List.take_of_length_le (by simp)
  have hword : leNat (leBytes 4 w.toNat) = w.toNat := by
    rw [leNat_leBytes]
    exact Nat.mod_eq_of_lt w.isLt
  rw [decodeTableWord, if_neg (by decide), decodeBytes, if_neg (by simp), htake, hword, BitVec.ofNat_toNat, BitVec.setWidth_eq]

/-- An instruction has a word exactly where Tables 3.7 to 3.9 give it a class. -/
theorem isSome_encode_eq (i : Instr) : (encode i).isSome = (wordClass i).isSome := by cases i <;> rfl

/-- Settles O2: the round trip of each constructor, what the decoder's last test has checked, and the bytes of a word. -/
theorem everyWordRoundTrips : Obligations.EveryWordRoundTrips :=
  ⟨fun _ _ hwf henc => decodeWord_of_encode henc hwf, fun _ _ hdec => (encode_of_decodeWord hdec).symm,
    decodeTableWord_toNat, isSome_encode_eq⟩

/-- Settles O1: the words that decode by the round trip; the all-zero word and the unassigned minor have no row, and the last word
sets the reserved field of LAUNCH. -/
theorem tableWordsDecodeToTheirInstructions : Obligations.TableWordsDecodeToTheirInstructions := by
  refine ⟨?_, ?_, ?_, ?_, ?_, ?_, ?_, ?_, ?_, ?_, ?_, decodeWord_of_no_row rfl, decodeWord_of_no_row rfl,
    decodeWord_of_reserved (i := .launch 0 0 0 6) rfl (by decide)⟩
  all_goals exact decodeWord_of_encode rfl rfl

end Sys2Proof.Laws
end

section
/-! O7: the order in which a word is judged (R46), with the lockstep sets of R82 and R83. -/

namespace Sys2Proof.Machine

open Sys2Proof.Claim

section
variable {s : State} {sb cb : BitVec 1} {perm : Perm} {priv : Bool} {ill live : Here → State → Bool} {body : Here → State → Res}

/-- A word whose set has not issued, with none of it exited, waits (R82). -/
theorem issue_awaits_set (hl : lockstep s (hereOf s) sb = true) (hd : lockstepDead s (hereOf s) = false) (hg : s.sgo = false) :
    issue sb cb perm priv ill live body s = .next (setMark s (hereOf s) .stalled) := by
  simp [issue, hl, hd, hg, finish]

/-! Past the lockstep wait: the set issues, or one of it has exited. -/
variable (hset : lockstep s (hereOf s) sb = true → s.sgo = true ∨ lockstepDead s (hereOf s) = true)
include hset

theorem not_awaits_set : (lockstep s (hereOf s) sb && !lockstepDead s (hereOf s) && !s.sgo) = false := by
  cases hl : lockstep s (hereOf s) sb with
  | false => rfl
  | true => rcases hset hl with h | h <;> simp [h]

theorem issue_illegal (h : pairBad s (hereOf s) sb cb = true ∨ ill (hereOf s) s = true) :
    issue sb cb perm priv ill live body s = finish (hereOf s) s (.trap 0x01 0 s) := by
  have hbad : (pairBad s (hereOf s) sb cb || ill (hereOf s) s) = true := by simpa using h
  simp only [issue, not_awaits_set hset, hbad, Bool.false_eq_true, if_false, if_true]

variable (hp : pairBad s (hereOf s) sb cb = false) (hi : ill (hereOf s) s = false)
include hp hi

theorem issue_wrong_voice (hv : perm.ok (hereOf s).v = false) :
    issue sb cb perm priv ill live body s = finish (hereOf s) s (.trap 0x02 0 s) := by
  simp [issue, not_awaits_set hset, hp, hi, hv]

theorem issue_wrong_level (hv : perm.ok (hereOf s).v = true) (hpriv : priv = true)
    (hlevel : (slotAt s (hereOf s)).thread.smode = false) :
    issue sb cb perm priv ill live body s = finish (hereOf s) s (.trap 0x03 0 s) := by
  simp [issue, not_awaits_set hset, hp, hi, hv, hpriv, hlevel]

omit hset in
/-- A word of a set of which one has exited (R83). -/
theorem issue_dead_set (hv : perm.ok (hereOf s).v = true) (hlevel : priv = true → (slotAt s (hereOf s)).thread.smode = true)
    (hl : lockstep s (hereOf s) sb = true) (hd : lockstepDead s (hereOf s) = true) :
    issue sb cb perm priv ill live body s = finish (hereOf s) s (.trap 0x0F 0 s) := by
  have hpriv : (priv && !(slotAt s (hereOf s)).thread.smode) = false := by
    cases priv with
    | false => rfl
    | true => simp [hlevel rfl]
  simp [issue, hl, hd, hp, hi, hv, hpriv]
end

/-- A trap whose voice is the first to issue in its cycle is taken (R25, R170). -/
theorem finish_trap_alone {s u : State} {h : Here} {cause : Nat} {fault : Word} (ht : (slotAt s h).trapped = none)
    (ho : othersIssued s h = false) : finish h s (.trap cause fault u) = .next (takeTrap h cause fault u) := by
  simp [finish, ht, ho]

/-- Settles O7: every word of the tables is `issue` with its class, its place and its predicate (`exec_issue`), a word of no row is
`issue` where it may not stand; what `issue` answers first are the `issue_` lemmas. -/
theorem wordsAreJudgedInOrder : Obligations.WordsAreJudgedInOrder := by
  refine ⟨fun i s x hx hset => ?judged, fun i s x hx hl => ?lockstep, fun s w hd hset htrapped hothers => ?undecoded⟩
  case judged =>
    obtain ⟨body, hexec⟩ := exec_issue hx
    exact ⟨fun h => (hexec s).trans (issue_illegal hset h), fun hp hi hv => (hexec s).trans (issue_wrong_voice hset hp hi hv),
      fun hp hi hv hpriv hlevel => (hexec s).trans (issue_wrong_level hset hp hi hv hpriv hlevel)⟩
  case lockstep =>
    obtain ⟨body, hexec⟩ := exec_issue hx
    exact ⟨fun hd hg => (hexec s).trans (issue_awaits_set hl hd hg),
      fun hd hp hi hv hlevel => (hexec s).trans (issue_dead_set hp hi hv hlevel hl hd)⟩
  case undecoded =>
    rw [runFetched, hd, illegalWord, issue_illegal hset (.inr rfl), finish_trap_alone htrapped hothers]

end Sys2Proof.Machine
end

section
/-! O8: SWR (R43, R76, R110, R138, R296). -/

namespace Sys2Proof.Machine

open Sys2Proof.Claim

/-! ### A counter of R296 after a count -/

/-- Counts of `m` on distinct status registers add `m` to each of them and nothing to the others. -/
theorem status_changes_counts (k cl m : Nat) {ns : List Nat} (hns : ns.Nodup) (s : State)
    (hw : mwf 0 (getCtl s k).status = true) (x : Nat) :
    sget (getCtl (changes s k cl (ns.map (fun n => .statusAdd n m 64))) k).status x =
      sget (getCtl s k).status x + (if x ∈ ns then w64 m else 0) := by
  induction ns generalizing s with
  | nil => simp [changes]
  | cons n r ih =>
    obtain ⟨hn, hr⟩ := List.nodup_cons.mp hns
    have hstatus : (getCtl (change s k cl (.statusAdd n m 64)) k).status =
        sset (getCtl s k).status n (sget (getCtl s k).status n + w64 m) := by
      rw [getCtl_change]
      rfl
    rw [List.map_cons, changes, ih hr _ (hstatus ▸ mwf_mset 0 hw _ _), hstatus]
    by_cases hx : x = n
    · subst hx
      rw [sget_sset_same hw, if_neg hn, if_pos (List.mem_cons_self ..)]
      exact BitVec.add_zero _
    · rw [sget_sset_ne hw _ hx]
      simp [hx]

theorem nodup_pmHits (s : State) (k ev : Nat) : ((pmHits s k ev).map (fun j => 0x38 + j)).Nodup :=
  (List.nodup_range.filter _).map (fun _ _ h => Nat.add_left_cancel h)

theorem mem_pmHits {s : State} {k ev j : Nat} (hj : j < 4) :
    0x38 + j ∈ (pmHits s k ev).map (fun j => 0x38 + j) ↔ (sget (getCtl s k).status (0x30 + j)).toNat = ev := by
  simp [pmHits, hj]

/-- A count adds to the counters that select its event (R296). -/
theorem status_pmCount {s : State} {k : Nat} (hw : mwf 0 (getCtl s k).status = true) (cl ev n : Nat) {j : Nat} (hj : j < 4) :
    sget (getCtl (pmCount s k cl ev n) k).status (0x38 + j) =
      sget (getCtl s k).status (0x38 + j) + (if (sget (getCtl s k).status (0x30 + j)).toNat = ev then w64 n else 0) := by
  have h := status_changes_counts k cl n (nodup_pmHits s k ev) (countNow s k ev n) hw (0x38 + j)
  rw [List.map_map] at h
  simp only [mem_pmHits hj] at h
  exact h

/-- The issue of a word counts where a counter selects event 2. -/
theorem status_retire {s : State} {h : Here} (hw : mwf 0 (getCtl s h.k).status = true) (flow : Flow) (b : Bool) {j : Nat} (hj : j < 4) :
    sget (getCtl (retire h flow b s) h.k).status (0x38 + j) =
      sget (getCtl s h.k).status (0x38 + j) + (if (sget (getCtl s h.k).status (0x30 + j)).toNat = 2 then 1 else 0) := by
  rw [getCtl_retire, status_pmCount (by simpa using hw) _ _ _ hj]
  simp [w64]

/-! ### SWR, register by register -/

/-- A first change of the slot's control state, its status registers among it, that keeps them canonical (R177). -/
theorem near_changeAt (s : State) (c : Change)
    (hc : mwf 0 (ctlOf s).status = true → mwf 0 (applyCtl (ctlOf s) c).status = true) :
    Near s (changeAt s (hereOf s) c) { ctl := fun x => applyCtl x c, knots := fun x => applyKnots x c } where
  arch := by simp [changeAt, recordAll]
  clause := by simp [clauseAt, curClause, changeAt]
  ids := by simp [changeAt]
  voices := by simp [KeptVoices, getArch, changeAt]
  slot := by simp [KeptSlot, slotAt, changeAt]
  array := by simp [KeptArray, changeAt]
  memory := by simp [KeptMemory, changeAt]
  traced := fun h => by simpa [threadCtx, getCtx, changeAt] using h
  ctl := ⟨by rw [changeAt, getCtl_change]; rfl, fun _ hj => getCtl_change_other _ _ _ hj, rfl,
    fun _ _ _ => by rw [changeAt, getCtl_change]⟩
  canon := fun hw => by rw [changeAt, getCtl_change]; exact hc hw
  held := by simp [KeptHeld, heldBy, changeAt]
  order := orderedBy_change (orderedBy_refl s) ..
  cluster := by simp [changeAt]
  around := by simp [KeptAround, changeAt]

/-- The change SWR makes to a register of the core. -/
abbrev swrChange (s : State) (d : BitVec 5) (n : BitVec 10) : Option Change :=
  statusChange n.toNat (visS (me s) d) (clauseAt s (hereOf s)) (mget 0 s.core.counted (4 * (hereOf s).k + (n.toNat - 0x38)))

section
variable {s : State} {sb : BitVec 1} {p : BitVec 3} {d : BitVec 5} {n : BitVec 10} (hm : MayIssue s sb p (statusPerm n))
include hm

/-- SWR of a register of the voice (Table 2.2, R138). -/
theorem swr_voice (hn : n.toNat < 4) :
    Completes (.swr sb p d n) s { arch := fun a => voiceStatus a n.toNat (visS (me s) d) } := by
  have h4 : n ≠ 4 := by rintro rfl; contradiction
  have hnear : Near s (setArchAt s (hereOf s) (voiceStatus (me s) n.toNat (visS (me s) d)))
      { arch := fun a => voiceStatus a n.toNat (visS (me s) d) } := near_setArch (near_refl s) _ rfl rfl
  rw [Completes, exec_swr, execSwr]
  refine word_did hm ?_ hnear rfl
  simp only [h4, hn, if_false, if_true]

/-- SWR of VFLAGS is a faced write (R110). -/
theorem swr_vflags (hn : n = 4) (hr : Room s [⟨.vflags, (spreadFlags ((visS (me s) d).setWidth 5)).setWidth 1024, 2⟩]) :
    Completes (.swr sb p d n) s { writes := [⟨.vflags, (spreadFlags ((visS (me s) d).setWidth 5)).setWidth 1024, 2⟩] } := by
  obtain ⟨u, hgo, hu, -⟩ := withWrites_did (go := fun u => .retire .seq false u) hr (near_refl s) rfl rfl
  rw [Completes, exec_swr, execSwr]
  refine word_did hm ?_ hu rfl
  simp only [hn, if_true]
  exact hgo

section
variable (hn : 4 < n.toNat)
include hn

/-- SWR of a register of the core makes the change that `statusChange` names, or none (Table 6.1). -/
theorem exec_swr_core : exec (.swr sb p d n) s =
    .next (retire (hereOf s) .seq false ((swrChange s d n).elim s (changeAt s (hereOf s)))) := by
  have h4 : n ≠ 4 := by rintro rfl; contradiction
  rw [exec_swr, execSwr, word_takes hm]
  simp only [h4, if_false, show ¬ n.toNat < 4 by omega]
  split <;> rename_i hc <;> rw [swrChange, hc] <;> rfl

theorem swr_core {c : Change} (hc : swrChange s d n = some c)
    (hcanon : mwf 0 (ctlOf s).status = true → mwf 0 (applyCtl (ctlOf s) c).status = true) :
    exec (.swr sb p d n) s = .next (retire (hereOf s) .seq false (changeAt s (hereOf s) c)) ∧
      Did s (retire (hereOf s) .seq false (changeAt s (hereOf s) c))
        { ctl := fun x => applyCtl x c, knots := fun x => applyKnots x c } := by
  refine ⟨?_, did_retire (near_changeAt s c hcanon) rfl⟩
  rw [exec_swr_core hm hn, hc]
  rfl

theorem swr_statusSet {x : Word} (hc : swrChange s d n = some (.statusSet n.toNat x (clauseAt s (hereOf s)))) :
    exec (.swr sb p d n) s = .next (retire (hereOf s) .seq false
        (changeAt s (hereOf s) (.statusSet n.toNat x (clauseAt s (hereOf s))))) ∧
      Did s (retire (hereOf s) .seq false (changeAt s (hereOf s) (.statusSet n.toNat x (clauseAt s (hereOf s)))))
        { ctl := fun c => { c with
            status := sset c.status n.toNat x
            statusBy := mset 0 c.statusBy n.toNat (clauseAt s (hereOf s)) } } :=
  swr_core hm hn hc (fun hw => mwf_mset 0 hw _ _)

theorem swr_readOnly (hc : swrChange s d n = none) : Completes (.swr sb p d n) s {} := by
  refine ⟨_, ?_, did_retire (near_refl s) rfl⟩
  rw [exec_swr_core hm hn, hc]
  rfl
end
end

/-! ### The lines of `statusChange` -/

section
variable {n : Nat} (x : Word) (cl counted : Nat)

theorem statusChange_bankLoss (hlo : 0x18 ≤ n) (hhi : n ≤ 0x27) :
    statusChange n x cl counted = some (.statusSet n ((x.setWidth 32).setWidth 64) cl) := by
  rw [statusChange, if_neg (by omega), if_pos ⟨hlo, hhi⟩]

theorem pmEvent_eq : pmEvent x = mod64 (if x.toNat % 16 < 12 then x.toNat % 16 else 0) := by
  have hx : (x.setWidth 4).toNat = x.toNat % 16 := BitVec.toNat_setWidth ..
  have hwide : (x.setWidth 4).setWidth 64 = mod64 (x.toNat % 16) := by
    rw [← hx, mod64, BitVec.ofNat_toNat]
  rw [pmEvent, hx, hwide]
  split <;> rfl

theorem statusChange_pmSel (hlo : 0x30 ≤ n) (hhi : n ≤ 0x33) :
    statusChange n x cl counted = some (.statusSet n (mod64 (if x.toNat % 16 < 12 then x.toNat % 16 else 0)) cl) := by
  rw [statusChange, if_neg (by omega), if_neg (by omega), if_pos ⟨hlo, hhi⟩, pmEvent_eq]

theorem statusChange_pmc (hlo : 0x38 ≤ n) (hhi : n ≤ 0x3B) :
    statusChange n x cl counted = some (.statusSet n (x + mod64 counted) cl) := by
  rw [statusChange, if_neg (by omega), if_neg (by omega), if_neg (by omega), if_pos ⟨hlo, hhi⟩]
  rfl

theorem statusChange_readOnly (h : (0x11 ≤ n ∧ n ≤ 0x15) ∨ n = 0x28) : statusChange n x cl counted = none := by
  rw [statusChange, if_neg (by omega), if_neg (by omega), if_neg (by omega), if_neg (by omega)]
end

/-- A counter set by a word counts the word's issue where it selects event 2, whatever was counted before (R296). -/
theorem status_retire_statusSet {s : State} (hw : mwf 0 (ctlOf s).status = true) (x : Word) (cl : Nat) {n : Nat} (hlo : 0x38 ≤ n)
    (hhi : n ≤ 0x3B) :
    sget (getCtl (retire (hereOf s) .seq false (changeAt s (hereOf s) (.statusSet n x cl))) (hereOf s).k).status n =
      x + (if (sget (ctlOf s).status (n - 8)).toNat = 2 then 1 else 0) := by
  obtain ⟨j, rfl⟩ := Nat.exists_eq_add_of_le hlo
  have hstatus : (getCtl (changeAt s (hereOf s) (.statusSet (0x38 + j) x cl)) (hereOf s).k).status =
      sset (ctlOf s).status (0x38 + j) x := by
    rw [changeAt, getCtl_change]
    rfl
  rw [status_retire (hstatus ▸ mwf_mset 0 hw _ _) _ _ (by omega), hstatus, sget_sset_same hw, sget_sset_ne hw _ (by omega),
    show 0x38 + j - 8 = 0x30 + j by omega]

/-- Settles O8: a register of the voice by `swr_voice` and `swr_vflags`, one of the core by its line of `statusChange`; what a
counter shows after the word by `status_retire_statusSet`. -/
theorem statusWritesChangeTheirRegister : Obligations.StatusWritesChangeTheirRegister := by
  intro s sb p d n hm
  refine ⟨?clash, ?clashtrap, ?clashcnt, ?vrnd, swr_vflags hm, ?syncset, fun hlo hhi => ?bankLoss, fun hlo hhi => ?pmSel,
    fun hlo hhi => ?pmc, fun hn => ?readOnly⟩
  case clash | clashtrap | clashcnt | vrnd =>
    rintro rfl
    exact swr_voice hm (by decide)
  case syncset =>
    rintro rfl
    exact ⟨_, swr_core hm (by decide) (c := .syncsetSet ((visS (me s) d).setWidth 4) (clauseAt s (hereOf s))) rfl id⟩
  case bankLoss => exact ⟨_, swr_statusSet hm (by omega) (statusChange_bankLoss _ _ _ hlo hhi)⟩
  case pmSel => exact ⟨_, swr_statusSet hm (by omega) (statusChange_pmSel _ _ _ hlo hhi)⟩
  case pmc =>
    obtain ⟨hexec, hdid⟩ := swr_statusSet hm (by omega) (statusChange_pmc _ _ _ hlo hhi)
    exact ⟨_, hexec, hdid, fun hw => status_retire_statusSet hw _ _ hlo hhi⟩
  case readOnly => exact swr_readOnly hm (by omega) (statusChange_readOnly _ _ _ hn)

end Sys2Proof.Machine
end

section
/-! O18: LDS and STS (R36, R94, R122 to R124, R226). -/

namespace Sys2Proof.Machine

open Sys2Proof.Claim

/-! ### Core scratchpad behind its held stores (R94) -/

theorem overlayAll_append (a : Nat) (bs : List Byte) (xs ys : List (Nat × List Byte)) :
    overlayAll a bs (xs ++ ys) = overlayAll a (overlayAll a bs xs) ys := by
  induction xs generalizing bs with
  | nil => rfl
  | cons x r ih => exact ih _

@[simp] theorem length_overlay (a : Nat) (bs : List Byte) (at_ : Nat) (ws : List Byte) : (overlay a bs at_ ws).length = bs.length := by
  unfold overlay
  split <;> simp

@[simp] theorem length_overlayAll (a : Nat) (bs : List Byte) (xs : List (Nat × List Byte)) :
    (overlayAll a bs xs).length = bs.length := by
  induction xs generalizing bs with
  | nil => rfl
  | cons x r ih => exact (ih _).trans (length_overlay ..)

@[simp] theorem length_readSpad (s : State) (a n : Nat) : (readSpad s a n).length = n := by
  rw [readSpad, length_overlayAll, length_readBytes]

/-- A store over exactly the bytes read is what is read. -/
theorem overlay_same (a : Nat) (bs ws : List Byte) (h : bs.length = ws.length) : overlay a bs a ws = ws := by
  unfold overlay
  split
  · refine List.ext_getElem (by simp [h]) fun i h1 h2 => ?_
    simp [h2]
  · next hout => exact (List.eq_nil_of_length_eq_zero (by omega)).trans (List.eq_nil_of_length_eq_zero (by omega)).symm

/-- A store elsewhere is not seen. -/
theorem overlay_disjoint (a : Nat) (bs : List Byte) (at_ : Nat) (ws : List Byte) (h : a + bs.length ≤ at_ ∨ at_ + ws.length ≤ a) :
    overlay a bs at_ ws = bs := if_neg (by omega)

/-- What the core sees of its scratchpad once a word has held one store to it: the store laid over what it saw before. -/
theorem readSpad_of_did_store {s t : State} {d : Doing} {at_ kind : Nat} {ws : List Byte} {rel : Bool} {cmd va asid : Nat} (hd : Did s t d)
    (hh : d.held = [.store false at_ ws kind rel cmd va asid]) (a n : Nat) :
    readSpad t a n = overlay a (readSpad s a n) at_ ws := by
  obtain ⟨-, -, -, -, -, -, hmem, -, hheld, -⟩ := hd
  have hstores : heldSpad t = heldSpad s ++ [(at_, ws)] := by
    rw [heldSpad, heldSpad, hheld.1, hh, List.filterMap_append]
    rfl
  rw [readSpad, hstores, overlayAll_append, readBytes_congr fun i _ => hmem.1 (a + i)]
  rfl

/-! ### LDS and STS whole -/

section
variable {s : State} {sb : BitVec 1} {p : BitVec 3} {d b : BitVec 5} {z : BitVec 2} {o : BitVec 1} {imm : BitVec 9}
  (hm : MayIssue s sb p .a)
include hm

theorem lds_traps {bad : Nat}
    (ha : spadLoadAddr (slotAt s (hereOf s)) (memAddr (me s) b o imm (accWidth z)).toNat (accWidth z) = .error bad) :
    Traps s (.lds sb p d b z o imm) 0x0B (mod64 bad) s := by
  rw [Traps, exec_lds, execLds, word_takes hm]
  simp only [withSpadLoad, ha]
  rfl

theorem sts_traps {bad : Nat}
    (ha : spadStoreAddr (slotAt s (hereOf s)) (memAddr (me s) b o imm (accWidth z)).toNat (accWidth z) = .error bad) :
    Traps s (.sts sb p d b z o imm) 0x0B (mod64 bad) s := by
  rw [Traps, exec_sts, execSts, word_takes hm]
  simp only [withSpadStore, ha]
  rfl

section
variable {a : Nat}
  (ha : spadLoadAddr (slotAt s (hereOf s)) (memAddr (me s) b o imm (accWidth z)).toNat (accWidth z) = .ok a)
include ha

theorem lds_stalls (hf : spadFenced s (hereOf s).k = true) : Stalls s (.lds sb p d b z o imm) false := by
  rw [Stalls, exec_lds, execLds, word_takes hm]
  simp only [withSpadLoad, ha, hf, if_true]
  rfl

variable (hf : spadFenced s (hereOf s).k = false)
include hf

theorem lds_checks {x : Nat} (hx : spadPoison s a (accWidth z) = some x) (ho : othersIssued s (hereOf s) = false) :
    exec (.lds sb p d b z o imm) s = .next (setMark (machineCheck s (hereOf s).k x 0) (hereOf s) .trapped) := by
  rw [exec_lds, execLds, word_takes hm]
  simp [withSpadLoad, ha, hf, hx, spadCheckHalt, finish, ho]

theorem lds_loads (hx : spadPoison s a (accWidth z) = none)
    (hr : Room s (⟨.s d.toNat, row64 (mod64 (leNat (readSpad s a (accWidth z)))), 4⟩ :: postWrite (me s) b o imm (accWidth z))) :
    Completes (.lds sb p d b z o imm) s
      { writes := ⟨.s d.toNat, row64 (mod64 (leNat (readSpad s a (accWidth z)))), 4⟩ :: postWrite (me s) b o imm (accWidth z) } := by
  obtain ⟨u, hgo, hu, -⟩ := withWrites_did (go := fun u => .retire .seq false u) hr
    (near_deps (near_refl s) (heldClauses s (hereOf s).k false a (accWidth z))) rfl rfl
  rw [Completes, exec_lds, execLds]
  refine word_did hm ?_ hu rfl
  simp only [withSpadLoad, ha, hf, hx]
  exact hgo
end

section
variable {a : Nat}
  (ha : spadStoreAddr (slotAt s (hereOf s)) (memAddr (me s) b o imm (accWidth z)).toNat (accWidth z) = .ok a)
include ha

theorem sts_stalls (hb : holdbackRoom s.core (clauseAt s (hereOf s)) false a (accWidth z) = false) :
    Stalls s (.sts sb p d b z o imm) false := by
  rw [Stalls, exec_sts, execSts, word_takes hm]
  simp only [withSpadStore, ha, hb]
  rfl

theorem sts_holds (hb : holdbackRoom s.core (clauseAt s (hereOf s)) false a (accWidth z) = true)
    (hr : Room s (postWrite (me s) b o imm (accWidth z))) :
    Completes (.sts sb p d b z o imm) s
      { writes := postWrite (me s) b o imm (accWidth z),
        held := [.store false a (leBytes (accWidth z) (visS (me s) d).toNat) 1 false 0 0 0] } := by
  obtain ⟨u, hgo, hu, hid⟩ := withWrites_did
    (go := fun u => .retire .seq false (holdSpad (hereOf s) a (leBytes (accWidth z) (visS (me s) d).toNat) u)) hr (near_refl s) rfl rfl
  rw [Completes, exec_sts, execSts]
  refine word_did hm ?_ (near_hold hu _ rfl hid) rfl
  simp only [withSpadStore, ha, hb, if_true]
  exact hgo
end
end

/-- Settles O18: the fates of LDS are the `lds_` lemmas and those of STS the `sts_` lemmas; what is read after a store is
`readSpad_of_did_store`. -/
theorem scratchpadLoadsAndStores : Obligations.ScratchpadLoadsAndStores := by
  refine ⟨fun s sb p d b z o imm a bad hm => ⟨fun ha => ?load, lds_traps hm⟩,
    fun s sb p d b z o imm a bad hm => ⟨fun ha => ?store, sts_traps hm⟩⟩
  case load => exact ⟨lds_stalls hm ha, fun x hf => lds_checks hm ha hf, lds_loads hm ha⟩
  case store =>
    refine ⟨sts_stalls hm ha, fun hb hr => ?_⟩
    obtain ⟨t, hexec, hdid⟩ := sts_holds (d := d) hm ha hb hr
    refine ⟨t, hexec, hdid, ?_, fun x hx => ?_⟩
    · rw [readSpad_of_did_store hdid rfl, overlay_same _ _ _ (by simp)]
    · rw [readSpad_of_did_store hdid rfl, overlay_disjoint _ _ _ _ (by simp; omega)]

end Sys2Proof.Machine
end

section
/-! O9: the scalar and predicate words (R50 to R56) and the words that only read (R58, R76, R128, R130, R150, R159, R194). -/

namespace Sys2Proof.Machine

open Sys2Proof.Claim

/-! ### Results of Tables 4.4 to 4.6, as the machine computes them and as the statement gives them -/

section
variable (x y : Word) {w : Nat} (imm : BitVec w) (n : Nat)

theorem add_signExtend_eq : x + imm.signExtend 64 = int64 (x.toInt + imm.toInt) := by
  rw [int64, BitVec.ofInt_add, BitVec.ofInt_toInt]
  rfl

theorem eq_signExtend (hw : w ≤ 64) : decide (x = imm.signExtend 64) = decide (x.toInt = imm.toInt) := by
  rw [← BitVec.toInt_signExtend_of_le hw]
  simp only [BitVec.toInt_inj]

theorem slt_signExtend (hw : w ≤ 64) : x.slt (imm.signExtend 64) = decide (x.toInt < imm.toInt) := by
  rw [BitVec.slt, BitVec.toInt_signExtend_of_le hw]

theorem add_eq_mod64 : x + y = mod64 (x.toNat + y.toNat) := by
  rw [mod64, BitVec.ofNat_add, BitVec.ofNat_toNat, BitVec.ofNat_toNat, BitVec.setWidth_eq, BitVec.setWidth_eq]

theorem sub_eq_int64 : x - y = int64 (x.toInt - y.toInt) := by
  apply BitVec.eq_of_toInt_eq
  rw [BitVec.toInt_sub, int64, BitVec.toInt_ofInt]

theorem shiftLeft_eq_mod64 : x <<< n = mod64 (x.toNat * 2 ^ n) := by
  apply BitVec.eq_of_toNat_eq
  rw [BitVec.toNat_shiftLeft, Nat.shiftLeft_eq, mod64, BitVec.toNat_ofNat]

theorem shiftRight_eq_mod64 : x >>> n = mod64 (x.toNat / 2 ^ n) := by
  apply BitVec.eq_of_toNat_eq
  rw [← Nat.mod_eq_of_lt (x >>> n).isLt, BitVec.toNat_ushiftRight, Nat.shiftRight_eq_div_pow, mod64, BitVec.toNat_ofNat]

theorem sshiftRight_eq_int64 : x.sshiftRight n = int64 (x.toInt / 2 ^ n) := by
  rw [BitVec.sshiftRight, Int.shiftRight_eq_div_pow, int64]
  norm_cast

theorem mod64_toNat : mod64 x.toNat = x := BitVec.ofNat_toNat ..

/-- A rotation is the sum of its two shifts, which share no bit. -/
theorem rotateLeft_eq_mod64 (hn : n < 64) :
    x.rotateLeft n = mod64 (x.toNat * 2 ^ n % 2 ^ 64 + x.toNat / 2 ^ (64 - n)) := by
  have hpow : (2 : Nat) ^ 64 = 2 ^ n * 2 ^ (64 - n) := by rw [← Nat.pow_add, Nat.add_sub_cancel' hn.le]
  have hhigh : x.toNat * 2 ^ n % 2 ^ 64 = 2 ^ n * (x.toNat % 2 ^ (64 - n)) := by
    rw [hpow, Nat.mul_comm, Nat.mul_mod_mul_left]
  have hlow : x.toNat / 2 ^ (64 - n) < 2 ^ n := Nat.div_lt_of_lt_mul (by rw [Nat.mul_comm, ← hpow]; exact x.isLt)
  have hrot : (x.rotateLeft n).toNat = x.toNat * 2 ^ n % 2 ^ 64 + x.toNat / 2 ^ (64 - n) := by
    rw [BitVec.toNat_rotateLeft, Nat.mod_eq_of_lt hn, Nat.shiftLeft_eq, Nat.shiftRight_eq_div_pow, hhigh,
      Nat.two_pow_add_eq_or_of_lt hlow]
  rw [← hrot, mod64_toNat]

theorem mul_eq_mod64 : x * y = mod64 (x.toNat * y.toNat) := by
  apply BitVec.eq_of_toNat_eq
  rw [BitVec.toNat_mul, mod64, BitVec.toNat_ofNat]

theorem min_eq_int64 : (if x.slt y then x else y) = int64 (min x.toInt y.toInt) := by
  rw [BitVec.slt, int64]
  by_cases h : x.toInt < y.toInt
  · rw [if_pos (decide_eq_true h), min_eq_left h.le, BitVec.ofInt_toInt]
  · rw [if_neg (by simpa using h), min_eq_right (not_lt.mp h), BitVec.ofInt_toInt]

theorem max_eq_int64 : (if x.slt y then y else x) = int64 (max x.toInt y.toInt) := by
  rw [BitVec.slt, int64]
  by_cases h : x.toInt < y.toInt
  · rw [if_pos (decide_eq_true h), max_eq_right h.le, BitVec.ofInt_toInt]
  · rw [if_neg (by simpa using h), max_eq_left (not_lt.mp h), BitVec.ofInt_toInt]

theorem minN_eq_mod64 : (if x.ult y then x else y) = mod64 (min x.toNat y.toNat) := by
  rw [BitVec.ult]
  by_cases h : x.toNat < y.toNat
  · rw [if_pos (decide_eq_true h), min_eq_left h.le, mod64_toNat]
  · rw [if_neg (by simpa using h), min_eq_right (not_lt.mp h), mod64_toNat]

theorem maxN_eq_mod64 : (if x.ult y then y else x) = mod64 (max x.toNat y.toNat) := by
  rw [BitVec.ult]
  by_cases h : x.toNat < y.toNat
  · rw [if_pos (decide_eq_true h), max_eq_right h.le, mod64_toNat]
  · rw [if_neg (by simpa using h), max_eq_left (not_lt.mp h), mod64_toNat]

end

/-- The run of true tests at the head of a range ends at the first that is false. -/
theorem length_takeWhile_range {p : Nat → Bool} {m n : Nat} (hm : m ≤ n) (hrun : ∀ i < m, p i = true)
    (hend : m < n → p m = false) : ((List.range n).takeWhile p).length = m := by
  obtain ⟨k, rfl⟩ := Nat.exists_eq_add_of_le hm
  rw [List.range_add, List.takeWhile_append_of_pos (by simpa using hrun)]
  cases k with
  | zero => simp
  | succ k => simp [List.range_succ_eq_map, hend]

/-- The leading zeros are the run of zero bits from bit 63 down. -/
theorem leadingZeros_eq (x : Word) :
    leadingZeros x = ((List.range 64).takeWhile (fun i => !x.getLsbD (63 - i))).length := by
  unfold leadingZeros
  split
  · next h0 =>
    rw [h0, length_takeWhile_range le_rfl (by simp) (by simp)]
  · next h0 =>
    have hx : x.toNat ≠ 0 := fun h => h0 (BitVec.eq_of_toNat_eq (by simpa using h))
    have hlog : x.toNat.log2 < 64 := (Nat.log2_lt hx).mpr x.isLt
    refine (length_takeWhile_range (by omega) (fun i hi => ?_) (fun _ => ?_)).symm
    · have : x.toNat < 2 ^ (63 - i) := (Nat.log2_lt hx).mp (by omega)
      simpa [BitVec.getLsbD] using Nat.testBit_lt_two_pow this
    · rw [show 63 - (63 - x.toNat.log2) = x.toNat.log2 by omega]
      simpa [BitVec.getLsbD] using Nat.testBit_log2 hx

/-- The upper immediate is 2^12 times the signed field (R33). -/
theorem upperImm_eq (imm : BitVec 20) : upperImm imm = int64 (upper imm) := by
  have happ : (imm ++ 0#12).toInt = imm.toInt * 2 ^ 12 := by
    rw [BitVec.toInt_append]
    simp [Int.mul_comm]
  rw [upperImm, BitVec.signExtend, happ]
  rfl

theorem lapc_eq (a : VAddr) (imm : BitVec 20) : a.setWidth 64 + upperImm imm = int64 (a.toNat + upper imm) := by
  rw [int64, BitVec.ofInt_add, ← int64, ← int64, ← upperImm_eq, int64, BitVec.ofInt_natCast, BitVec.ofNat_toNat]

/-- The exclusive or of two predicates is their difference (Table 4.6). -/
theorem xor_eq_decide_ne : ∀ a b : Bool, (a ^^ b) = decide (a ≠ b) := by decide

theorem oneBits_eq (x : Word) : oneBits x = (List.range 64).countP (fun i => x.getLsbD i) :=
  List.countP_eq_length_filter.symm

theorem sext_eq_int64 (x : Word) {w : Nat} (hw : 0 < w) : (x.setWidth w).signExtend 64 = int64 (signedPart w x.toNat) := by
  have hpow : 2 ^ w = 2 * 2 ^ (w - 1) := by
    rw [← Nat.pow_succ', Nat.succ_eq_add_one, Nat.sub_add_cancel (show 1 ≤ w from hw)]
  have hcast : (2 : Int) ^ w = ((2 ^ w : Nat) : Int) := (Nat.cast_pow 2 w).symm
  rw [BitVec.signExtend, int64, BitVec.toInt_eq_toNat_cond, BitVec.toNat_setWidth, signedPart, hcast, hpow]
  congr 1
  generalize 2 ^ (w - 1) = k
  split <;> split <;> omega

theorem zext_eq_mod64 (x : Word) (w : Nat) : (x.setWidth w).setWidth 64 = mod64 (x.toNat % 2 ^ w) := by
  rw [mod64, ← BitVec.toNat_setWidth, BitVec.ofNat_toNat]

/-! ### Words of one write -/

/-- In this state the word takes effect by this one write, where it has room for it. -/
def WritesOne (s : State) (i : Instr) (x : OneWrite) : Prop :=
  Takes s x.sb 0 x.perm false → Plain s → Live s x.p → Room s [x.wr] → Completes i s { writes := [x.wr] }

section
variable {s : State} {i : Instr} {sb : BitVec 1} {p : BitVec 3}

/-- A predicated word whose body is one write. -/
theorem writesOne_word {perm : Perm} {r : RegId} {val : Here → State → Row} {lat : Nat} {x : Row}
    (h : exec i s = word sb p perm (fun g t => writeOne g r (val g t) lat t) s) (hx : val (hereOf s) s = x) :
    WritesOne s i ⟨sb, p, perm, ⟨r, x, lat⟩⟩ := by
  intro ht hpl hlive hroom
  subst hx
  rw [Completes, h]
  exact writeOne_did ht rfl (.inl ⟨hpl.1, hlive⟩) hroom

/-- A word of the engines that reads. -/
theorem writesOne_engWord {r : RegId} {val : Here → State → Row} {lat : Nat} {x : Row}
    (h : exec i s = engWord sb p (fun g t => writeOne g r (val g t) lat t) s) (hx : val (hereOf s) s = x) :
    WritesOne s i ⟨sb, p, .c, ⟨r, x, lat⟩⟩ :=
  writesOne_word h hx

theorem writesOne_scalarWord {d : BitVec 5} {lat : Nat} {f : VoiceArch → Word} {x : Word}
    (h : exec i s = scalarWord sb p d lat f s) (hx : f (me s) = x) :
    WritesOne s i ⟨sb, p, .all, ⟨.s d.toNat, row64 x, lat⟩⟩ :=
  writesOne_word h (congrArg row64 hx)

theorem writesOne_predWord {d : BitVec 3} {f : VoiceArch → Bool} {x : Prop} [Decidable x]
    (h : exec i s = predWord sb p d f s) (hx : f (me s) = decide x) :
    WritesOne s i ⟨sb, p, .all, ⟨.p d.toNat, row1 (decide x), 1⟩⟩ :=
  writesOne_word h (congrArg row1 hx)

/-- A word without a predicate. -/
theorem writesOne_always {r : RegId} {val : Here → State → Row} {lat : Nat} {x : Row}
    (h : exec i s = issue sb 0 .all false noIll alwaysLive (fun g t => writeOne g r (val g t) lat t) s)
    (hx : val (hereOf s) s = x) : WritesOne s i ⟨sb, 0, .all, ⟨r, x, lat⟩⟩ := by
  intro ht hpl _ hroom
  subst hx
  rw [Completes, h]
  exact writeOne_did ht rfl (.inl ⟨hpl.1, rfl⟩) hroom

theorem writesOne_upperWord {d : BitVec 5} {f : Here → Word} {x : Word} (h : exec i s = upperWord sb d f s)
    (hx : f (hereOf s) = x) : WritesOne s i ⟨sb, 0, .all, ⟨.s d.toNat, row64 x, 1⟩⟩ :=
  writesOne_always h (congrArg row64 hx)

/-- A cluster word whose whole effect is its result. -/
theorem writesOne_result {d : BitVec 5} {f : Here → State → Res} {x : Word} (h : exec i s = clWord sb p f s)
    (hx : f (hereOf s) s = withResult (hereOf s) d x s id) :
    WritesOne s i ⟨sb, p, .c, ⟨.s d.toNat, row64 x, 2⟩⟩ := by
  intro ht hpl hlive hroom
  obtain ⟨u, hgo, hu, -⟩ := withWrites_did (go := fun u => .retire .seq false u) hroom (near_refl s) rfl rfl
  rw [Completes, h]
  exact word_did ⟨ht, hpl, hlive⟩ (hx.trans hgo) hu rfl
end

theorem writesOne_of_scalarResult {s : State} {i : Instr} {x : OneWrite} (h : scalarResult (hereOf s).addr (me s) i = some x) :
    WritesOne s i x := by
  cases i
  case lui => exact Option.some.inj h ▸ writesOne_upperWord (exec_lui ..) (upperImm_eq _)
  case lapc => exact Option.some.inj h ▸ writesOne_upperWord (exec_lapc ..) (lapc_eq _ _)
  case sel => exact Option.some.inj h ▸ writesOne_always (exec_sel ..) rfl
  case addi => exact Option.some.inj h ▸ writesOne_scalarWord (exec_addi ..) (add_signExtend_eq _ _)
  case andi => exact Option.some.inj h ▸ writesOne_scalarWord (exec_andi ..) rfl
  case ori => exact Option.some.inj h ▸ writesOne_scalarWord (exec_ori ..) rfl
  case xori => exact Option.some.inj h ▸ writesOne_scalarWord (exec_xori ..) rfl
  case shli => exact Option.some.inj h ▸ writesOne_scalarWord (exec_shli ..) (shiftLeft_eq_mod64 _ _)
  case shri => exact Option.some.inj h ▸ writesOne_scalarWord (exec_shri ..) (shiftRight_eq_mod64 _ _)
  case srai => exact Option.some.inj h ▸ writesOne_scalarWord (exec_srai ..) (sshiftRight_eq_int64 _ _)
  case roli n => exact Option.some.inj h ▸ writesOne_scalarWord (exec_roli ..) (rotateLeft_eq_mod64 _ _ n.isLt)
  case add => exact Option.some.inj h ▸ writesOne_scalarWord (exec_add ..) (add_eq_mod64 _ _)
  case sub => exact Option.some.inj h ▸ writesOne_scalarWord (exec_sub ..) (sub_eq_int64 _ _)
  case and => exact Option.some.inj h ▸ writesOne_scalarWord (exec_and ..) rfl
  case or => exact Option.some.inj h ▸ writesOne_scalarWord (exec_or ..) rfl
  case xor => exact Option.some.inj h ▸ writesOne_scalarWord (exec_xor ..) rfl
  case andn => exact Option.some.inj h ▸ writesOne_scalarWord (exec_andn ..) rfl
  case shl => exact Option.some.inj h ▸ writesOne_scalarWord (exec_shl ..) (shiftLeft_eq_mod64 _ _)
  case shr => exact Option.some.inj h ▸ writesOne_scalarWord (exec_shr ..) (shiftRight_eq_mod64 _ _)
  case sra => exact Option.some.inj h ▸ writesOne_scalarWord (exec_sra ..) (sshiftRight_eq_int64 _ _)
  case rol => exact Option.some.inj h ▸ writesOne_scalarWord (exec_rol ..) (rotateLeft_eq_mod64 _ _ (Nat.mod_lt _ (by decide)))
  case min => exact Option.some.inj h ▸ writesOne_scalarWord (exec_min ..) (min_eq_int64 _ _)
  case max => exact Option.some.inj h ▸ writesOne_scalarWord (exec_max ..) (max_eq_int64 _ _)
  case minn => exact Option.some.inj h ▸ writesOne_scalarWord (exec_minn ..) (minN_eq_mod64 _ _)
  case maxn => exact Option.some.inj h ▸ writesOne_scalarWord (exec_maxn ..) (maxN_eq_mod64 _ _)
  case mul => exact Option.some.inj h ▸ writesOne_scalarWord (exec_mul ..) (mul_eq_mod64 _ _)
  case mulh => exact Option.some.inj h ▸ writesOne_scalarWord (exec_mulh ..) rfl
  case mulhn => exact Option.some.inj h ▸ writesOne_scalarWord (exec_mulhn ..) rfl
  case clz => exact Option.some.inj h ▸ writesOne_scalarWord (exec_clz ..) (congrArg mod64 (leadingZeros_eq _))
  case popc => exact Option.some.inj h ▸ writesOne_scalarWord (exec_popc ..) (congrArg mod64 (oneBits_eq _))
  case sext => exact Option.some.inj h ▸ writesOne_scalarWord (exec_sext ..) (sext_eq_int64 _ (Nat.mul_pos (by decide) (Nat.two_pow_pos _)))
  case zext => exact Option.some.inj h ▸ writesOne_scalarWord (exec_zext ..) (zext_eq_mod64 _ _)
  case cmpeqi => exact Option.some.inj h ▸ writesOne_predWord (exec_cmpeqi ..) (eq_signExtend _ _ (by decide))
  case cmplti => exact Option.some.inj h ▸ writesOne_predWord (exec_cmplti ..) (slt_signExtend _ _ (by decide))
  case cmpltni => exact Option.some.inj h ▸ writesOne_predWord (exec_cmpltni ..) rfl
  case cmpeq => exact Option.some.inj h ▸ writesOne_predWord (exec_cmpeq ..) (by simp only [BitVec.toNat_inj])
  case cmpne => exact Option.some.inj h ▸ writesOne_predWord (exec_cmpne ..) (by simp only [BitVec.toNat_inj, ne_eq])
  case cmplt => exact Option.some.inj h ▸ writesOne_predWord (exec_cmplt ..) rfl
  case cmple => exact Option.some.inj h ▸ writesOne_predWord (exec_cmple ..) rfl
  case cmpltn => exact Option.some.inj h ▸ writesOne_predWord (exec_cmpltn ..) rfl
  case cmplen => exact Option.some.inj h ▸ writesOne_predWord (exec_cmplen ..) rfl
  case pand => exact Option.some.inj h ▸ writesOne_predWord (exec_pand ..) (by simp)
  case por => exact Option.some.inj h ▸ writesOne_predWord (exec_por ..) (by simp)
  case pxor => exact Option.some.inj h ▸ writesOne_predWord (exec_pxor ..) (xor_eq_decide_ne _ _)
  case pnot => exact Option.some.inj h ▸ writesOne_predWord (exec_pnot ..) (by simp)
  all_goals cases h

/-- SRD also makes its clause depend on the one that wrote the register (Table 11.1). -/
theorem writesOne_srd (s : State) (sb : BitVec 1) (p : BitVec 3) (d : BitVec 5) (n : BitVec 10) :
    WritesOne s (.srd sb p d n)
      ⟨sb, p, statusPerm n, ⟨.s d.toNat, row64 (statusRead s (hereOf s).k (hereOf s).v n.toNat), 2⟩⟩ := by
  intro ht hpl hlive hroom
  obtain ⟨u, hgo, hu, -⟩ := withWrites_did
    (go := fun u => .retire .seq false (depAt u (hereOf s) (mget 0 (getCtl u (hereOf s).k).statusBy n.toNat))) hroom (near_refl s) rfl rfl
  rw [Completes, exec_srd, execSrd]
  exact word_did ⟨ht, hpl, hlive⟩ hgo (near_dep hu _) rfl

theorem writesOne_of_readResult {s : State} {i : Instr} {x : OneWrite} (h : readResult s i = some x) : WritesOne s i x := by
  cases i
  case rdh => exact Option.some.inj h ▸ writesOne_word (exec_rdh ..) rfl
  case srd => exact Option.some.inj h ▸ writesOne_srd _ _ _ _ _
  case spos => exact Option.some.inj h ▸ writesOne_word (exec_spos ..) rfl
  case lbqry => exact Option.some.inj h ▸ writesOne_word (exec_lbqry ..) rfl
  case rngrd => exact Option.some.inj h ▸ writesOne_engWord (exec_rngrd ..) rfl
  case krd => exact Option.some.inj h ▸ writesOne_engWord (exec_krd ..) rfl
  case caprd => exact Option.some.inj h ▸ writesOne_word (exec_caprd ..) rfl
  case taskinfo => exact Option.some.inj h ▸ writesOne_result (exec_taskinfo ..) rfl
  case frd a =>
    refine Option.some.inj h ▸ writesOne_result (exec_frd ..) ?_
    by_cases hf : 256 ≤ (visS (me s) a).toNat
    · simp only [if_pos hf]
      rfl
    · simp only [if_neg hf]
      rfl
  all_goals cases h

/-- Settles O9: each word is one of the shapes of `WritesOne`, with the value that its row of the tables gives. -/
theorem scalarAndReadingWordsWriteTheirResult : Obligations.ScalarAndReadingWordsWriteTheirResult :=
  ⟨fun _ _ _ hx ht hpl hlive hroom => writesOne_of_scalarResult hx ht hpl hlive hroom,
    fun _ _ _ hx hm hroom => writesOne_of_readResult hx hm.1 hm.2.1 hm.2.2 hroom⟩

end Sys2Proof.Machine
end

section
/-! O12: branches, calls, jumps and the jump table (R59 to R63). -/

namespace Sys2Proof.Machine

open Sys2Proof.Claim

/-! ### Targets -/

/-- A displacement in words. -/
theorem signExtend_shiftLeft_two {w n : Nat} (imm : BitVec n) : (imm.signExtend w) <<< 2 = BitVec.ofInt w (4 * imm.toInt) := by
  rw [BitVec.signExtend, BitVec.shiftLeft_eq_mul_twoPow, Int.mul_comm, BitVec.ofInt_mul]
  congr 1
  apply BitVec.eq_of_toNat_eq
  simp

theorem dispTarget_eq (a : VAddr) (imm : BitVec 20) : dispTarget a imm = displaced a imm := by
  rw [dispTarget, signExtend_shiftLeft_two, displaced, BitVec.ofInt_add, BitVec.ofInt_natCast, BitVec.ofNat_toNat,
    BitVec.setWidth_eq]

theorem alignTarget_ofInt (z : Int) : alignTarget (BitVec.ofInt 64 z) = wordTarget z := by
  apply BitVec.eq_of_toNat_eq
  simp only [alignTarget, wordTarget, BitVec.toNat_shiftLeft, BitVec.toNat_ushiftRight, BitVec.toNat_setWidth,
    BitVec.toNat_ofInt, Nat.shiftLeft_eq, Nat.shiftRight_eq_div_pow]
  omega

theorem jumpTarget_eq (x : Word) (imm : BitVec 10) :
    alignTarget (x + (imm.signExtend 64 <<< 2)) = wordTarget (x.toInt + 4 * imm.toInt) := by
  rw [signExtend_shiftLeft_two, ← alignTarget_ofInt, BitVec.ofInt_add, BitVec.ofInt_toInt]

/-- A table's base and four times an index: where the entry stands, and where the word in it leads (R62, R63). -/
theorem tableEntry_eq (base i : Word) : tableBase base + (i <<< 2) = tableEntry base i := by
  apply BitVec.eq_of_toNat_eq
  simp only [tableBase, tableEntry, mod64, BitVec.toNat_add, BitVec.toNat_shiftLeft, BitVec.toNat_ushiftRight,
    BitVec.toNat_ofNat, Nat.shiftLeft_eq, Nat.shiftRight_eq_div_pow]
  omega

theorem tableTarget_eq (base : Word) (e : BitVec 32) :
    alignTarget (tableEntry base (e.signExtend 64)) = wordTarget ((base.toNat / 4 * 4 : Nat) + 4 * e.toInt) := by
  have hbase : tableBase base = BitVec.ofNat 64 (base.toNat / 4 * 4) := by
    simpa [tableEntry, mod64] using tableEntry_eq base 0
  rw [← tableEntry_eq, hbase, signExtend_shiftLeft_two, ← alignTarget_ofInt, BitVec.ofInt_add, BitVec.ofInt_natCast]

/-- CALL's link: the word after its two delay slots (R60). -/
theorem callLink_eq (a : VAddr) : a.setWidth 64 + 12 = mod64 (a.toNat + 12) := by
  rw [mod64, BitVec.ofNat_add, BitVec.ofNat_toNat]
  rfl

/-! ### The translation a fetch used is kept -/

theorem fillFetch_pkg (s : State) (v : VoiceId) (c : Context) (w : WalkResult) : (fillFetch s v c w).pkg =
    { s.pkg with l2tlb := (fillFetch s v c w).pkg.l2tlb, walkCache := (fillFetch s v c w).pkg.walkCache } := by
  cases w <;> rfl

/-- Filling a TLB is no part of what a word does. -/
theorem near_fetchFill {s u : State} {d : Doing} (hn : Near s u d) (k : Nat) (v : VoiceId) (va : Nat) :
    Near s (fetchFill u k v va) d where
  arch := by simpa [fetchFill] using hn.arch
  clause := by have := hn.clause; simpa [clauseAt, curClause, fetchFill] using this
  ids := by simpa [fetchFill] using hn.ids
  voices := by have := hn.voices; simpa [KeptVoices, getArch, fetchFill] using this
  slot := by have := hn.slot; simpa [KeptSlot, slotAt, fetchFill] using this
  array := by have := hn.array; simpa [KeptArray, fetchFill] using this
  memory := by
    refine ⟨by simpa [fetchFill] using hn.memory.1, fun ht => ?_⟩
    obtain ⟨hmem, hpkg⟩ := hn.memory.2 ht
    refine ⟨by simpa [fetchFill] using hmem, ?_⟩
    rw [fetchFill, fillFetch_pkg, hpkg]
  traced := fun h => by
    have := hn.traced h
    simp only [threadCtx, getCtx, fetchFill, getSlot_fillFetch] at this ⊢
    rw [fillFetch_pkg]
    exact this
  ctl := by have := hn.ctl; simpa [KeptCtl, fetchFill] using this
  canon := by simpa [fetchFill] using hn.canon
  held := by have := hn.held; simpa [KeptHeld, fetchFill] using this
  order := ⟨fun cl => by simpa [voiceOfClause, fetchFill] using hn.order.1 cl, fun v => by simpa [fetchFill] using hn.order.2 v⟩
  cluster := by simpa [fetchFill] using hn.cluster
  around := by have := hn.around; simpa [KeptAround, fetchFill] using this

/-! ### The words -/

/-- A word that only moves the chain. -/
theorem did_flow (s : State) (flow : Flow) : Did s (retire (hereOf s) flow false s) { flow := flow } :=
  did_retire (d := { flow := flow }) (near_as (near_refl s) rfl) rfl

section
variable {s : State} {sb : BitVec 1} {p : BitVec 3} {imm : BitVec 20} (ht : Takes s sb 0 .all false) (hpl : Plain s)
include ht hpl

theorem branchWord_did (form : Nat) :
    ∃ t, branchWord sb p imm form s = .next t ∧ Did s t { flow := .branch (visP (me s) p) (displaced (pc s) imm) form } := by
  rw [branchWord, issue_takes ht.1 ht.2.1 rfl ht.2.2.1 ht.2.2.2 (.inl ⟨hpl.1, rfl⟩), dispTarget_eq]
  exact ⟨_, rfl, did_flow ..⟩

theorem call_taken (hp : visP (me s) p = true) (hr : Room s [⟨.s 31, row64 (mod64 ((pc s).toNat + 12)), 1⟩]) :
    Completes (.call sb p imm) s
      { writes := [⟨.s 31, row64 (mod64 ((pc s).toNat + 12)), 1⟩], flow := .jump (displaced (pc s) imm) false } := by
  obtain ⟨u, hgo, hu, -⟩ := withWrites_did (go := fun u => .retire (.jump (displaced (pc s) imm) false) false u) hr (near_refl s) rfl rfl
  rw [Completes, exec_call, execCall]
  refine issue_did ht rfl (.inl ⟨hpl.1, rfl⟩) ?_ (near_as hu rfl) rfl
  simp only [if_pos hp, dispTarget_eq, callLink_eq]
  exact hgo

theorem call_notTaken (hp : visP (me s) p = false) : Completes (.call sb p imm) s { flow := .branch false 0 0 } := by
  rw [Completes, exec_call, execCall, issue_takes ht.1 ht.2.1 rfl ht.2.2.1 ht.2.2.2 (.inl ⟨hpl.1, rfl⟩), if_neg (by simp [hp])]
  exact ⟨_, rfl, did_flow ..⟩
end

/-- What JTB does with what its table's entry holds for it (R63). -/
def tableJump (s : State) (base i : Word) : FetchRes → Res
  | .fault => .trap 0x08 (tableEntry base i) s
  | .check va st => .halt (machineCheck s (hereOf s).k va st)
  | .word e => .retire (.jump (wordTarget ((base.toNat / 4 * 4 : Nat) + 4 * e.toInt)) true) false
      (fetchFill s (hereOf s).k (hereOf s).v (tableEntry base i).toNat)

section
variable {s : State} {sb : BitVec 1} {p : BitVec 3} (hm : MayIssue s sb p .all)
include hm

theorem jr_jumps (a : BitVec 5) (j : BitVec 10) :
    Completes (.jr sb p a j) s { flow := .jump (wordTarget ((visS (me s) a).toInt + 4 * j.toInt)) true } := by
  rw [Completes, exec_jr, execJr, word_takes hm, jumpTarget_eq]
  exact ⟨_, rfl, did_flow ..⟩

variable {d a : BitVec 5} {l : BitVec 10}

theorem jtb_outside (hl : l.toNat ≤ (visS (me s) a).toNat) : Completes (.jtb sb p d a l) s { flow := .branch false 0 0 } := by
  rw [Completes, exec_jtb, execJtb, word_takes hm, if_pos hl]
  exact ⟨_, rfl, did_flow ..⟩

/-- JTB of an index below L answers as the fetch of its table's entry does. -/
theorem exec_jtb_inside (hl : (visS (me s) a).toNat < l.toNat) : exec (.jtb sb p d a l) s = finish (hereOf s) s
    (tableJump s (visS (me s) d) (visS (me s) a)
      (fetchAt s (hereOf s).k (hereOf s).v (tableEntry (visS (me s) d) (visS (me s) a)).toNat)) := by
  rw [exec_jtb, execJtb, word_takes hm, if_neg (not_le.mpr hl)]
  simp only [tableEntry_eq, tableTarget_eq]
  generalize fetchAt .. = r
  cases r <;> rfl
end

/-- Settles O12: the branches are `branchWord_did`, CALL the `call_` lemmas, JR `jr_jumps`; JTB goes by its table's entry,
`exec_jtb_inside`. -/
theorem branchesCallsAndJumpsMoveTheChain : Obligations.BranchesCallsAndJumpsMoveTheChain := by
  refine ⟨fun s sb p imm a j => ⟨fun ht hpl => ?branches, fun hm => jr_jumps hm a j, fun ht hpl hp => ?falsePredicate⟩,
    fun s sb p d a l hm => ⟨jtb_outside hm, fun hl => ⟨fun w hw => ?word, fun hf => ?fault, fun va st hc ho => ?check⟩⟩⟩
  case branches =>
    exact ⟨branchWord_did ht hpl 0, branchWord_did ht hpl 1, branchWord_did ht hpl 2, call_taken ht hpl, call_notTaken ht hpl⟩
  case falsePredicate =>
    exact ⟨_, exec_skips rfl ht rfl hpl.2 (.inr (by rw [liveOf_of_predOf rfl, hp])), did_retire (near_refl s) rfl⟩
  case word =>
    rw [exec_jtb_inside hm hl, hw]
    exact ⟨_, rfl, did_retire (d := { flow := _ }) (near_as (near_fetchFill (near_refl s) ..) rfl) rfl⟩
  case fault =>
    rw [Traps, exec_jtb_inside hm hl, hf]
    rfl
  case check => rw [exec_jtb_inside hm hl, hc, tableJump, finish_halt ho]

end Sys2Proof.Machine
end

section
/-! O15: sync bits and branch queues (R65 to R68, R177, R235). -/

namespace Sys2Proof.Machine

open Sys2Proof.Claim

/-- A word that finds nothing traps where no other voice can still leave it anything, and else waits (R66, R68). -/
theorem traps_alone_or_stalls {s : State} {i : Instr} {cause : Nat}
    (h : exec i s = finish (hereOf s) s (if aloneAt s (hereOf s) then .trap cause 0 s else .stall false s)) :
    (aloneAt s (hereOf s) = true → Traps s i cause 0 s) ∧ (¬aloneAt s (hereOf s) = true → Stalls s i false) := by
  refine ⟨fun ha => ?_, fun ha => ?_⟩
  · rw [Traps, h, if_pos ha]
    rfl
  · rw [Stalls, h, if_neg ha]
    rfl

/-! ### SPOST and SWAIT (R65, R66) -/

section
variable {s : State} {sb : BitVec 1} {p : BitVec 3} (hm : MayIssue s sb p .all)
include hm

section
variable {v : BitVec 2} {k : BitVec 3}

theorem spost_exited (hx : (getArch s (hereOf s).k (voiceOf v.toNat)).exited = true) : Completes (.spost sb p v k) s {} := by
  rw [Completes, exec_spost, execSpost]
  exact word_did hm (if_pos hx) (near_refl s) rfl

theorem spost_posts (hx : (getArch s (hereOf s).k (voiceOf v.toNat)).exited = false) :
    Completes (.spost sb p v k) s { ctl := fun c =>
      { c with sync := postSync c.sync (8 * v.toNat + k.toNat) ⟨clauseAt s (hereOf s), s.now + 1, place s⟩ } } := by
  rw [Completes, exec_spost, execSpost]
  exact word_did hm (if_neg (by simp [hx])) (near_change (near_refl s) _ rfl (fun _ => rfl)) rfl

theorem bqput_exited (hx : (getArch s (hereOf s).k (voiceOf v.toNat)).exited = true) : Completes (.bqput sb p v k) s {} := by
  rw [Completes, exec_bqput, execBqput]
  exact word_did hm (if_pos hx) (near_refl s) rfl

section
variable (hx : (getArch s (hereOf s).k (voiceOf v.toNat)).exited = false)
include hx

theorem bqput_full (hl : 8 ≤ (getBq (ctlOf s) (voiceOf v.toNat)).length) : Stalls s (.bqput sb p v k) false := by
  rw [Stalls, exec_bqput, execBqput, word_takes hm, if_neg (by simp [hx]), if_pos hl]
  rfl

theorem bqput_appends (hl : (getBq (ctlOf s) (voiceOf v.toNat)).length < 8) :
    Completes (.bqput sb p v k) s
      { ctl := fun c => setBq c (voiceOf v.toNat) (getBq c (voiceOf v.toNat) ++
          [⟨visP (me s) k, clauseAt s (hereOf s), s.now + 1, place s⟩]) } := by
  have hnear := near_change (near_refl s)
    (.bqPush (voiceOf v.toNat) ⟨visP (me s) k, clauseAt s (hereOf s), s.now + 1, place s⟩) rfl
    (fun c => by cases voiceOf v.toNat <;> rfl)
  rw [Completes, exec_bqput, execBqput]
  exact word_did hm ((if_neg (by simp [hx])).trans (if_neg (not_le.mpr hl))) hnear rfl
end
end

section
variable {k : BitVec 3}

theorem swait_takes {b : SyncBit} (hb : mfind (ctlOf s).sync (8 * (hereOf s).v.num + k.toNat) = some b) (hat : b.at_ ≤ s.now) :
    Completes (.swait sb p k) s
      { ctl := fun c => { c with sync := takeSync c.sync (8 * (hereOf s).v.num + k.toNat) s.now }, links := [b.ord] } := by
  have hnear := near_change (near_link (near_refl s) b.clause b.ord rfl rfl)
    (.syncClr (8 * (hereOf s).v.num + k.toNat) s.now) rfl (fun _ => rfl)
  rw [Completes, exec_swait, execSwait]
  refine word_did hm ?_ hnear rfl
  simp only [hb, if_pos hat]

/-- A SWAIT that sees no bit (R66). -/
theorem exec_swait_blocked (hb : ∀ b, mfind (ctlOf s).sync (8 * (hereOf s).v.num + k.toNat) = some b → s.now < b.at_) :
    exec (.swait sb p k) s =
      finish (hereOf s) s (if aloneAt s (hereOf s) then .trap 0x0F 0 s else .stall false s) := by
  rw [exec_swait, execSwait, word_takes hm]
  cases hf : mfind (ctlOf s).sync (8 * (hereOf s).v.num + k.toNat) with
  | none => simp only [hf]
  | some b => simp only [hf, if_neg (not_le.mpr (hb b hf))]
end
end

/-! ### The branches on a `bq` (R68) -/

section
variable {s : State} {sb : BitVec 1} {imm : BitVec 20} {i : Instr} {form : Nat} (hi : exec i s = bqBranch sb imm form s)
  (ht : Takes s sb 0 .all false) (hpl : Plain s)
include hi ht hpl

theorem bqBranch_pops {e : BqEntry} {r : List BqEntry} (hq : getBq (ctlOf s) (hereOf s).v = e :: r) (hat : e.at_ ≤ s.now)
    (hret : bqRetained s (hereOf s).k (hereOf s).v < 8) :
    Completes i s
      { flow := .branch e.val (displaced (pc s) imm) form, links := [e.ord],
        ctl := fun c => setBq c (hereOf s).v ((getBq c (hereOf s).v).drop 1) } := by
  have hnear := near_change (near_link (near_refl s) e.clause e.ord rfl rfl) (.bqPop (hereOf s).v) rfl
    (fun c => by cases (hereOf s).v <;> rfl)
  rw [Completes, hi, bqBranch]
  refine issue_did ht rfl (.inl ⟨hpl.1, rfl⟩) ?_ (near_as hnear rfl) rfl
  simp only [hq, if_neg (show ¬(s.now < e.at_ ∨ 8 ≤ bqRetained s (hereOf s).k (hereOf s).v) by omega), dispTarget_eq]

theorem bqBranch_waits {e : BqEntry} {r : List BqEntry} (hq : getBq (ctlOf s) (hereOf s).v = e :: r)
    (hw : s.now < e.at_ ∨ 8 ≤ bqRetained s (hereOf s).k (hereOf s).v) : Stalls s i false := by
  rw [Stalls, hi, bqBranch, issue_takes ht.1 ht.2.1 rfl ht.2.2.1 ht.2.2.2 (.inl ⟨hpl.1, rfl⟩)]
  simp only [hq, if_pos hw]
  rfl

theorem exec_bqBranch_empty (hq : getBq (ctlOf s) (hereOf s).v = []) :
    exec i s = finish (hereOf s) s (if aloneAt s (hereOf s) then .trap 0x0D 0 s else .stall false s) := by
  rw [hi, bqBranch, issue_takes ht.1 ht.2.1 rfl ht.2.2.1 ht.2.2.2 (.inl ⟨hpl.1, rfl⟩)]
  simp only [hq]
end

/-- Settles O15: SPOST, SWAIT and BQPUT by their lemmas, the three branches by those of `bqBranch`; what finds nothing by
`traps_alone_or_stalls`. -/
theorem syncBitsAndBranchQueues : Obligations.SyncBitsAndBranchQueues := by
  intro s sb p v k imm
  refine ⟨fun hm => ⟨fun hx => ⟨spost_exited hm hx, bqput_exited hm hx⟩,
      fun hx => ⟨spost_posts hm hx, bqput_full hm hx, bqput_appends hm hx⟩, fun b => swait_takes hm, fun hb => ?swait⟩,
    fun ht hpl => ⟨fun e r hq hat hret => ?pops, fun e r hq hw => ?waits, fun hq => ?empty⟩⟩
  case swait =>
    obtain ⟨htrap, hstall⟩ := traps_alone_or_stalls (exec_swait_blocked hm hb)
    split
    · exact htrap ‹_›
    · exact hstall ‹_›
  case pops =>
    exact ⟨bqBranch_pops (exec_bqbr ..) ht hpl hq hat hret, bqBranch_pops (exec_bqbrn ..) ht hpl hq hat hret,
      bqBranch_pops (exec_bqbrt ..) ht hpl hq hat hret⟩
  case waits =>
    exact ⟨bqBranch_waits (exec_bqbr ..) ht hpl hq hw, bqBranch_waits (exec_bqbrn ..) ht hpl hq hw,
      bqBranch_waits (exec_bqbrt ..) ht hpl hq hw⟩
  case empty =>
    obtain ⟨htrap, hstall⟩ := traps_alone_or_stalls (exec_bqBranch_empty (exec_bqbr sb imm s) ht hpl hq)
    obtain ⟨htrapN, hstallN⟩ := traps_alone_or_stalls (exec_bqBranch_empty (exec_bqbrn sb imm s) ht hpl hq)
    obtain ⟨htrapT, hstallT⟩ := traps_alone_or_stalls (exec_bqBranch_empty (exec_bqbrt sb imm s) ht hpl hq)
    split
    · next ha => exact ⟨htrap ha, htrapN ha, htrapT ha⟩
    · next ha => exact ⟨hstall ha, hstallN ha, hstallT ha⟩

end Sys2Proof.Machine
end

section
/-! O16: NOP, EXIT, TRAP and BRK (R70 to R73, R170, R288, R290). -/

namespace Sys2Proof.Machine

open Sys2Proof.Claim

/-! ### States that differ in one slot -/

/-- `u` is `s` but for what stands in slot `k`. -/
def OnlySlot (k : Nat) (s u : State) : Prop := ∃ x, u = setSlot s k x

theorem onlySlot_setSlot {k : Nat} {s u : State} (h : OnlySlot k s u) (x : Slot) : OnlySlot k s (setSlot u k x) := by
  obtain ⟨y, rfl⟩ := h
  exact ⟨x, setSlot_setSlot ..⟩

theorem setSlot_getSlot (s : State) (k : Nat) : setSlot s k (getSlot s k) = s := by
  unfold setSlot getSlot
  split <;> rfl

theorem onlySlot_refl (k : Nat) (s : State) : OnlySlot k s s := ⟨getSlot s k, (setSlot_getSlot s k).symm⟩

theorem onlySlot_setArch {k : Nat} {s u : State} (h : OnlySlot k s u) (v : VoiceId) (a : VoiceArch) :
    OnlySlot k s (setArch u k v a) := onlySlot_setSlot h _

/-- What the word's retirement leaves of everything beside its slot and its clause (R21). -/
theorem retire_keeps_outside {s u : State} {h : Here} (hu : OnlySlot h.k s u)
    (hctx : (getSlot u h.k).thread.ctx = (getSlot s h.k).thread.ctx) (flow : Flow) (b : Bool) :
    KeptArray s (retire h flow b u) ∧ KeptMemory h s (retire h flow b u) ∧ KeptHeld h s (retire h flow b u) [] := by
  obtain ⟨x, rfl⟩ := hu
  refine ⟨by simp [KeptArray], ⟨by simp, fun ht => ?_⟩, by simp [KeptHeld, heldBy]⟩
  have htrace : (threadCtx (setSlot s h.k x) h.k).trace = none := by
    rw [threadCtx, hctx]
    simpa [threadCtx, getCtx] using ht
  rw [retire_pkg _ _ _ _ htrace, setSlot_pkg]
  exact ⟨fun _ => rfl, rfl⟩

/-- Where the chain does not move, retirement changes no voice's state. -/
theorem getArch_retire_keep (h : Here) (b : Bool) (u : State) (v : VoiceId) :
    getArch (retire h .keep b u) h.k v = getArch u h.k v := by
  by_cases hv : v = h.v
  · rw [hv, getArch, getVoice_retire]
    rfl
  · rw [getArch, getVoice_retire_ne _ _ _ _ hv]
    rfl

/-! ### EXIT (R71, R75) -/

theorem allExited_iff (s : State) (k : Nat) : allExited (getSlot s k) = allVoices.all (fun v => (getArch s k v).exited) := by
  simp [allExited, allVoices, getArch, getVoice, slotVoice, Bool.and_assoc]

theorem getVoice_markExited (s : State) (k : Nat) (v u : VoiceId) : getVoice (markExited s k v) k u =
    if u = v then { getVoice s k u with a := { getArch s k u with exited := true } } else getVoice s k u := by
  split
  · next hu => rw [hu, markExited, setArch, getVoice_setVoice]
  · next hu => rw [markExited, setArch, getVoice_setVoice_ne _ _ _ hu]

/-- In handler mode the held voices exit with voice A (R75). -/
theorem getVoice_exitHeld (s : State) (k : Nat) (u : VoiceId) : getVoice (exitHeld s k) k u =
    if inHandler (getSlot s k) && decide (u ≠ .A) then { getVoice s k u with a := { getArch s k u with exited := true } }
    else getVoice s k u := by
  unfold exitHeld
  cases inHandler (getSlot s k)
  · rfl
  · cases u <;> simp [getVoice_markExited, getArch]

theorem noteEnded_eq (s : State) (k : Nat) : noteEnded s k =
    if allExited (getSlot s k) then setSlot s k { getSlot s k with run := .ended } else s := rfl

theorem getVoice_noteEnded (s : State) (k : Nat) (u : VoiceId) : getVoice (noteEnded s k) k u = getVoice s k u := by
  rw [noteEnded_eq]
  split
  · rw [getVoice_setSlot]
    cases u <;> rfl
  · rfl

theorem getSlot_noteEnded_run (s : State) (k : Nat) : (getSlot (noteEnded s k) k).run =
    if allExited (getSlot s k) then .ended else (getSlot s k).run := by
  rw [noteEnded_eq]
  split <;> simp

theorem getSlot_noteEnded_thread (s : State) (k : Nat) : (getSlot (noteEnded s k) k).thread = (getSlot s k).thread := by
  rw [noteEnded_eq]
  split <;> simp

theorem getSlot_setArch_part {α : Type} {f : Slot → α} (hf : NoVoicePart f) (s : State) (k : Nat) (v : VoiceId) (a : VoiceArch) :
    f (getSlot (setArch s k v a) k) = f (getSlot s k) := by
  rw [setArch, setVoice, getSlot_setSlot, hf]

theorem getSlot_exitHeld_part {α : Type} {f : Slot → α} (hf : NoVoicePart f) (s : State) (k : Nat) :
    f (getSlot (exitHeld s k) k) = f (getSlot s k) := by
  unfold exitHeld markExited
  split
  · simp only [getSlot_setArch_part hf]
  · rfl

/-- The state with which EXIT retires. -/
def exited (s : State) : State :=
  noteEnded (exitHeld (setArchAt s (hereOf s) (exitArch (me s))) (hereOf s).k) (hereOf s).k

theorem onlySlot_exited (s : State) : OnlySlot (hereOf s).k s (exited s) := by
  have hheld : OnlySlot (hereOf s).k s (exitHeld (setArchAt s (hereOf s) (exitArch (me s))) (hereOf s).k) := by
    unfold exitHeld
    split
    · exact onlySlot_setArch (onlySlot_setArch (onlySlot_setArch (onlySlot_setArch (onlySlot_refl ..) ..) ..) ..) ..
    · exact onlySlot_setArch (onlySlot_refl ..) ..
  rw [exited, noteEnded_eq]
  split
  · exact onlySlot_setSlot hheld _
  · exact hheld

theorem noVoicePart_run : NoVoicePart Slot.run := fun x v y => by simp

theorem noVoicePart_thread : NoVoicePart Slot.thread := fun x v y => by simp

theorem getSlot_exited_thread (s : State) : (getSlot (exited s) (hereOf s).k).thread = (getSlot s (hereOf s).k).thread := by
  rw [exited, getSlot_noteEnded_thread, getSlot_exitHeld_part noVoicePart_thread, setArchAt,
    getSlot_setArch_part noVoicePart_thread]

/-- A voice once the word's own has exited: those the handler holds have too (R71, R75). -/
theorem getVoice_exited (s : State) (u : VoiceId) : getVoice (exited s) (hereOf s).k u =
    if u = (hereOf s).v then { getVoice s (hereOf s).k u with a := exitArch (me s) }
    else if (slotAt s (hereOf s)).run = .handler ∧ u ≠ .A then
      { getVoice s (hereOf s).k u with a := { getArch s (hereOf s).k u with exited := true } }
    else getVoice s (hereOf s).k u := by
  have hrun : inHandler (getSlot (setArchAt s (hereOf s) (exitArch (me s))) (hereOf s).k) = inHandler (slotAt s (hereOf s)) :=
    getSlot_setArch_part (f := inHandler) (fun x v y => by simp [inHandler]) ..
  rw [exited, getVoice_noteEnded, getVoice_exitHeld, hrun, setArchAt]
  by_cases hu : u = (hereOf s).v
  · subst hu
    simp only [setArch, getVoice_setVoice, getArch, if_true]
    split <;> rfl
  · simp only [if_neg hu, setArch, getArch, getVoice_setVoice_ne _ _ _ hu]
    simp [inHandler]

theorem getSlot_exited_run (s : State) : (getSlot (exited s) (hereOf s).k).run =
    if allExited (getSlot (exited s) (hereOf s).k) then .ended else (slotAt s (hereOf s)).run := by
  have hall : allExited (getSlot (exited s) (hereOf s).k) =
      allExited (getSlot (exitHeld (setArchAt s (hereOf s) (exitArch (me s))) (hereOf s).k) (hereOf s).k) := by
    rw [allExited_iff, allExited_iff]
    simp only [exited, getArch, getVoice_noteEnded]
  rw [hall, exited, getSlot_noteEnded_run, getSlot_exitHeld_part noVoicePart_run, setArchAt, getSlot_setArch_part noVoicePart_run]
  rfl

/-- A boundary's clause is in the list with its cycle (R172). -/
theorem closeClause_boundary (s : State) (k : Nat) (v : VoiceId) (b : Nat) (st : Bool) {c : Clause} (hc : c ∈ s.core.clauses)
    (hid : c.id = curClause s k v) : ∃ d ∈ (closeClause s k v b st).core.clauses, d.id = c.id ∧ d.boundary = some b := by
  refine ⟨{ c with boundary := some b, img := getArch s k v, stop := st }, ?_, rfl, rfl⟩
  have hmem : { c with boundary := some b, img := getArch s k v, stop := st } ∈
      (updClause s (curClause s k v) (fun c => { c with boundary := some b, img := getArch s k v, stop := st })).core.clauses :=
    List.mem_map.mpr ⟨c, hc, if_pos hid⟩
  rw [closeClause, openClause, setVoice_core_clauses]
  exact List.mem_append_left _ hmem

section
variable {s : State} {sb : BitVec 1} {p : BitVec 3} (hm : MayIssue s sb p .all)
include hm

theorem exec_exit_takes : exec (.exit sb p) s = finish (hereOf s) s (
    if !fileEmpty (me s) || ((getVoice s (hereOf s).k (hereOf s).v).issued && sealQueueFull s (hereOf s).k (hereOf s).v)
    then .stall false s
    else .retire .keep (getVoice s (hereOf s).k (hereOf s).v).issued (exited s)) := by
  rw [exec_exit, execExit, word_takes hm]
  rfl

theorem exit_stalls (h : (me s).pending ≠ [] ∨ (me s).flagq ≠ [] ∨
      (getVoice s (hereOf s).k (hereOf s).v).issued = true ∧ sealQueueFull s (hereOf s).k (hereOf s).v = true) :
    Stalls s (.exit sb p) false := by
  rw [Stalls, exec_exit_takes hm, if_pos]
  · rfl
  · rcases h with h | h | ⟨h, hq⟩ <;> simp [fileEmpty, *]

theorem exec_exit_exits (hp : (me s).pending = []) (hf : (me s).flagq = [])
    (hq : (getVoice s (hereOf s).k (hereOf s).v).issued = true → sealQueueFull s (hereOf s).k (hereOf s).v = false) :
    exec (.exit sb p) s = .next (retire (hereOf s) .keep (getVoice s (hereOf s).k (hereOf s).v).issued (exited s)) := by
  rw [exec_exit_takes hm, if_neg]
  · rfl
  · simpa [(fileEmpty_iff _).mpr ⟨hp, hf⟩] using hq
end

/-- The voice's clause after EXIT: ended where a word has issued in it (R71). -/
theorem clause_exited (s : State) (b : Bool) : ClauseAfter (hereOf s) s (retire (hereOf s) .keep b (exited s)) b := by
  obtain ⟨x, hx⟩ := onlySlot_exited s
  have hid : (exited s).core.nextId = s.core.nextId := by rw [hx, setSlot_core_nextId]
  rw [ClauseAfter, clauseAt, curClause, getVoice_retire, getVoice_exited, if_pos rfl, hid]
  cases b
  · rfl
  · exact le_rfl

theorem boundary_exited {s : State} {c : Clause} (hc : c ∈ s.core.clauses) (hid : c.id = clauseAt s (hereOf s)) :
    ∃ d ∈ (retire (hereOf s) .keep true (exited s)).core.clauses, d.id = c.id ∧ d.boundary = some s.now := by
  obtain ⟨x, hx⟩ := onlySlot_exited s
  have hclauses : (retire (hereOf s) .keep false (exited s)).core.clauses = s.core.clauses := by
    rw [hx]
    simp [retire]
  have hnow : (retire (hereOf s) .keep false (exited s)).now = s.now := by rw [hx]; simp
  have hcur : curClause (retire (hereOf s) .keep false (exited s)) (hereOf s).k (hereOf s).v = clauseAt s (hereOf s) := by
    have := clause_exited s false
    exact this
  rw [retire_eq, if_pos rfl, hnow]
  exact closeClause_boundary _ _ _ _ _ (hclauses ▸ hc) (hid.trans hcur.symm)

theorem getArch_exited (s : State) (b : Bool) (u : VoiceId) :
    getArch (retire (hereOf s) .keep b (exited s)) (hereOf s).k u =
      if u = (hereOf s).v then exitArch (me s)
      else if (slotAt s (hereOf s)).run = .handler ∧ u ≠ .A then { getArch s (hereOf s).k u with exited := true }
      else getArch s (hereOf s).k u := by
  rw [getArch_retire_keep, getArch, getVoice_exited]
  split
  · rfl
  · split <;> rfl

theorem run_exited (s : State) (b : Bool) : (slotAt (retire (hereOf s) .keep b (exited s)) (hereOf s)).run =
    if allExited (slotAt (retire (hereOf s) .keep b (exited s)) (hereOf s)) then .ended else (slotAt s (hereOf s)).run := by
  have hall : allExited (slotAt (retire (hereOf s) .keep b (exited s)) (hereOf s)) =
      allExited (getSlot (exited s) (hereOf s).k) := by
    rw [slotAt, allExited_iff, allExited_iff]
    simp only [getArch_retire_keep]
  rw [hall, slotAt, getSlot_retire_run, getSlot_exited_run]

/-! ### TRAP and the end of its cycle (R72, R170) -/

/-- A TRAP issued: its word is kept for the end of the cycle. -/
def trapNoted (s : State) : State :=
  setSlot s (hereOf s).k { slotAt s (hereOf s) with trapped := some ((hereOf s).v, currentWord s (hereOf s)) }

theorem getArch_trapNoted (s : State) (j : Nat) (v : VoiceId) : getArch (trapNoted s) j v = getArch s j v :=
  getArch_setSlot_voices (fun u => by cases u <;> rfl) j v

theorem hereOf_trapNoted (s : State) : hereOf (trapNoted s) = hereOf s := by
  simp only [hereOf, getArch_trapNoted]
  simp [trapNoted]

theorem onlySlot_trapNoted (s : State) : OnlySlot (hereOf s).k s (trapNoted s) := ⟨_, rfl⟩

theorem getCtl_trapNoted (s : State) (j : Nat) : getCtl (trapNoted s) j = getCtl s j := by simp [trapNoted]

theorem getSlot_trapNoted_thread (s : State) : (getSlot (trapNoted s) (hereOf s).k).thread = (getSlot s (hereOf s).k).thread := by
  simp [trapNoted, slotAt]

theorem getSlot_trapNoted_trapped (s : State) :
    (getSlot (trapNoted s) (hereOf s).k).trapped = some ((hereOf s).v, currentWord s (hereOf s)) := by
  simp [trapNoted]

theorem exec_trap_takes {s : State} {sb : BitVec 1} {p : BitVec 3} (c : BitVec 10) (hm : MayIssue s sb p .all)
    (ht : (slotAt s (hereOf s)).trapped = none) : exec (.trap sb p c) s = .next (retire (hereOf s) .seq false (trapNoted s)) := by
  rw [exec_trap, execTrap, word_takes hm, if_neg (by simp [ht])]
  rfl

/-- TRAP does nothing but what its cycle's end needs. -/
theorem did_trap (s : State) : Did (trapNoted s) (retire (hereOf s) .seq false (trapNoted s)) {} := by
  have h := did_retire (near_refl (trapNoted s)) rfl
  rwa [hereOf_trapNoted] at h

theorem stopTrapped_stops {s : State} {k : Nat} {v : VoiceId} {w : BitVec 32} (ht : (getSlot s k).trapped = some (v, w))
    (hr : (getSlot s k).run = .running) :
    stopTrapped s k = stopThread s k 0x06 (some v) false 0 w (s.now + 1) (getSlot s k).scyc := by
  rw [stopTrapped, ht]
  simp [hr]

/-! ### BRK (R73, R288, R290) -/

section
variable {s : State} {sb : BitVec 1} {x : BitVec 25} (ht : Takes s 0 0 .all false) (hpl : Plain s)
include ht hpl

theorem brk_traps (hn : (threadCtx s (hereOf s).k).session = none) : Traps s (.brk sb x) 0x07 0 s := by
  rw [Traps, exec_brk, execBrk, issue_takes ht.1 ht.2.1 rfl ht.2.2.1 ht.2.2.2 (.inl ⟨hpl.1, rfl⟩)]
  rw [threadCtx] at hn
  simp only [slotAt, hn]
  rfl

theorem brk_stops {n : Nat} {u : State} (hs : (threadCtx s (hereOf s).k).session = some n)
    (hu : debugStop s (hereOf s).k 2 (slotAt s (hereOf s)).imageAt = some u) (ho : othersIssued s (hereOf s) = false) :
    exec (.brk sb x) s = .next (setMark u (hereOf s) .trapped) := by
  rw [exec_brk, execBrk, issue_takes ht.1 ht.2.1 rfl ht.2.2.1 ht.2.2.2 (.inl ⟨hpl.1, rfl⟩)]
  rw [threadCtx] at hs
  rw [slotAt] at hu
  simp only [slotAt, hs, hu]
  exact finish_halt ho
end

/-- The voice whose BRK stops the core is one that presents it, before the edge, in a context with a session. -/
theorem brkVoice_some {ex : Meaning} {s : State} {v : VoiceId} (h : brkVoice ex s = some v) :
    s.pastEdge = false ∧ voiceReady s v = true ∧ (getArch s s.core.act v).na0.nul = false ∧
      (threadCtx s s.core.act).session.isSome = true := by
  unfold brkVoice at h
  simp only [] at h
  split at h
  · next hc =>
    obtain ⟨-, hv⟩ := Option.filter_eq_some_iff.mp h
    simp only [Bool.and_eq_true, Bool.not_eq_true'] at hc hv
    exact ⟨hc.1.2, hv.1.1, hv.1.2, hc.1.1⟩
  · cases h

theorem brkStop_eq {ex : Meaning} {s : State} {v : VoiceId} (h : brkVoice ex s = some v) :
    brkStop ex s = debugStop s s.core.act 2 (getSlot s s.core.act).imageAt := by
  rw [brkStop, h]

theorem step_brkStop {s t : State} (h0 : s.turn = 0) (hi : s.inbox = []) (hd : dueStop s 3 = none) (hm : dueMarker s = none)
    (hb : brkStop exec s = some t) : step s = .next t := by
  have hreport : inboxReport s = 3 := by rw [inboxReport, hi]; rfl
  rw [step, stepWith, if_pos h0, hreport, hd, hm, hi]
  simp only [hb]
  rfl

/-- Settles O16: EXIT is `exec_exit_takes` with what `exited` changes, TRAP `did_trap` and `stopTrapped_stops`, BRK the `brk_` lemmas
and, at the edge of its cycle, `step_brkStop` and `brkVoice_some`. -/
theorem nopExitTrapAndBrk : Obligations.NopExitTrapAndBrk := by
  refine ⟨fun s sb p hm => ⟨?nop, fun hb => ⟨?flip, exit_stalls hm (or_assoc.mp (.inl hb))⟩,
      fun hi hq => exit_stalls hm (.inr (.inr ⟨hi, hq⟩)), fun hp hf hq => ?exits⟩,
    fun s sb p c hm ht => ?trap, fun s k v w ht hr => ?trapStops, fun s sb x ht hpl => ⟨brk_traps ht hpl, fun n u => brk_stops ht hpl⟩,
    fun s t => step_brkStop, fun s v hv => ?brkEdge⟩
  case nop =>
    rw [Completes, exec_nop, execNop]
    exact word_did hm rfl (near_refl s) rfl
  case flip =>
    rw [Stalls, exec_flip, execFlip, word_takes hm, withFlip_waits hb]
    rfl
  case exits =>
    have harch := getArch_exited s (getVoice s (hereOf s).k (hereOf s).v).issued
    obtain ⟨harray, hmem, hheld⟩ := retire_keeps_outside (onlySlot_exited s) (congrArg Thread.ctx (getSlot_exited_thread s)) .keep
      (getVoice s (hereOf s).k (hereOf s).v).issued
    have hme : archAt (retire (hereOf s) .keep (getVoice s (hereOf s).k (hereOf s).v).issued (exited s)) (hereOf s) =
        exitArch (me s) := by rw [archAt, harch, if_pos rfl]
    refine ⟨_, exec_exit_exits hm hp hf hq, hme, by rw [hme]; rfl, clause_exited .., fun hi c hc hid => ?_, harray, hmem, hheld,
      fun hh u hu => ?_, fun hh u => ?_, run_exited ..⟩
    · rw [hi]
      exact boundary_exited hc hid
    · rw [harch, if_neg hu, if_neg (by simp [hh])]
    · rw [harch]
      by_cases hA : u = .A
      · exact .inr hA
      · split
        · exact .inl rfl
        · rw [if_pos ⟨hh, hA⟩]
          exact .inl rfl
  case trap =>
    obtain ⟨harch, -, -, ⟨hvoices, hother⟩, ⟨-, -, htrapped, -⟩, -, -, ⟨hctl, hctlOther, hknots, hstatus⟩, -⟩ := did_trap s
    simp only [hereOf_trapNoted, archAt, getArch_trapNoted, getCtl_trapNoted, recordAll, slotAt]
      at harch hvoices hother htrapped hctl hctlOther hknots hstatus
    obtain ⟨harray, hmem, hheld⟩ :=
      retire_keeps_outside (onlySlot_trapNoted s) (congrArg Thread.ctx (getSlot_trapNoted_thread s)) .seq false
    exact ⟨_, exec_trap_takes c hm ht, harch, htrapped.trans (getSlot_trapNoted_trapped s),
      ⟨hvoices, fun j hj => (hother j hj).trans (getSlot_setSlot_other _ _ hj)⟩, harray, hmem, hheld,
      hctl, hctlOther, by rw [hknots, trapNoted, setSlot_core_ctl], hstatus⟩
  case trapStops =>
    rw [stopTrapped_stops ht hr]
    exact ⟨_, by rw [getSlot_stopThread], by rw [getSlot_stopThread], rfl, rfl, rfl, rfl, rfl, rfl⟩
  case brkEdge =>
    obtain ⟨hedge, hready, hnul, hsession⟩ := brkVoice_some hv
    exact ⟨hedge, hready, hnul, hsession, brkStop_eq hv⟩

end Sys2Proof.Machine
end

section
/-! Words that exchange the faces, wait and leave their wait (R16, R57). -/

namespace Sys2Proof.Machine

open Sys2Proof.Claim

/-! ### Words of supervisor mode -/

theorem privWord_did {s u : State} {d : Doing} {sb : BitVec 1} {p : BitVec 3} {perm : Perm} {body : Here → State → Res}
    (hm : MayIssuePriv s sb p perm) (hb : body (hereOf s) s = .retire d.flow d.closes u) (hn : Near s u d)
    (hi : d.mark = .issued) : ∃ t, privWord sb p perm body s = .next t ∧ Did s t d :=
  issue_did hm.1 rfl (.inl ⟨hm.2.1.1, hm.2.2⟩) hb hn hi

/-! ### Words whose voice waits: nullification and predicate are past -/

section
variable {s : State} {sb : BitVec 1} {p : BitVec 3} {perm : Perm} {body : Here → State → Res} {w : Wait}

theorem word_resumes (ht : Takes s sb 0 perm false) (hw : (me s).wait = some w) :
    word sb p perm body s = finish (hereOf s) s (body (hereOf s) s) :=
  issue_takes ht.1 ht.2.1 rfl ht.2.2.1 ht.2.2.2 (.inr (by simp [hw]))

theorem privWord_resumes (ht : Takes s sb 0 perm true) (hw : (me s).wait = some w) :
    privWord sb p perm body s = finish (hereOf s) s (body (hereOf s) s) :=
  issue_takes ht.1 ht.2.1 rfl ht.2.2.1 ht.2.2.2 (.inr (by simp [hw]))
end

/-! ### The exchange of the faces -/

/-- The state inside a word that has exchanged the faces. -/
def flipped (s : State) : State := pmCount (setArchAt s (hereOf s) (flipArch (me s))) (hereOf s).k (clauseAt s (hereOf s)) 5 1

theorem withFlip_flips {s : State} (hf : FlipReady s) (go : State → Res) : withFlip (hereOf s) s go = go (flipped s) :=
  withFlip_go hf.1 hf.2.1 hf.2.2

theorem near_flipped (s : State) : Near s (flipped s) { arch := flipArch } :=
  near_count (near_setArch (e := { arch := flipArch }) (near_refl s) _ rfl rfl) _ _ _

theorem nextId_flipped (s : State) : (flipped s).core.nextId = s.core.nextId := by simp [flipped, setArchAt, setArch]

/-! ### A wait begins -/

/-- Inside a word that has exchanged the faces and has held `es`, the wait begins. -/
theorem startWait_waits {s u : State} {es : List Effect} (hn : Near s u { arch := flipArch, held := es }) (kind : WaitKind)
    (items : List Nat) (d : BitVec 5) (x : Word) :
    ∃ t, startWait (hereOf s) kind items d.toNat x u = .retire .keep true t ∧
      Near s t { arch := waiting s kind items d x, flow := .keep, closes := true, held := es } := by
  refine ⟨_, rfl, near_as (near_setArch (e := { arch := waiting s kind items d x, held := es }) hn _ ?_ rfl) rfl⟩
  rw [hn.arch, hn.clause, hn.around.2.1]
  rfl

/-! ### A wait ends -/

/-- What a word that leaves its wait leaves alone, its voice's new state being `a`. -/
def Left (s t : State) (a : VoiceArch) : Prop :=
  archAt t (hereOf s) = a ∧ KeptVoices (hereOf s) s t ∧ KeptArray s t ∧ KeptMemory (hereOf s) s t ∧ t.core.held = s.core.held

theorem near_setMark {s u : State} {d : Doing} (hn : Near s u d) (m : Mark) : Near s (setMark u (hereOf s) m) d where
  arch := by simpa [archAt] using hn.arch
  clause := by have := hn.clause; simpa [clauseAt, curClause, getVoice_setMark_same] using this
  ids := by simpa using hn.ids
  voices := ⟨fun v hv => by rw [getArch_setMark, hn.voices.1 v hv],
    fun j hj => by rw [setMark, setVoice, getSlot_setSlot_other _ _ hj, hn.voices.2 j hj]⟩
  slot := by
    have := hn.slot
    simpa [KeptSlot, slotAt, setMark] using this
  array := by have := hn.array; simpa [KeptArray] using this
  memory := by have := hn.memory; simpa [KeptMemory] using this
  traced := fun h => by have := hn.traced h; simpa [threadCtx, getCtx, setMark] using this
  ctl := by have := hn.ctl; simpa [KeptCtl] using this
  canon := by simpa using hn.canon
  held := by have := hn.held; simpa [KeptHeld] using this
  order := by
    refine ⟨fun cl => by simpa [voiceOfClause] using hn.order.1 cl, fun v => ?_⟩
    rw [← hn.order.2 v]
    by_cases hv : v = (hereOf s).v
    · rw [hv, getVoice_setMark_same]
    · rw [setMark, getVoice_setVoice_ne _ _ _ hv]
  cluster := by simpa using hn.cluster
  around := by have := hn.around; simpa [KeptAround] using this

theorem finish_leave {s u : State} {d : Doing} (hn : Near s u d) (hh : d.held = []) (same : Bool) :
    ∃ t, finish (hereOf s) s (.leave same u) = .next t ∧ Left s t (advance (archAt u (hereOf s)) .seq).1 := by
  have ht := near_setMark (near_snapshotBanks (near_setArch (e := { d with
    arch := fun _ => (advance (archAt u (hereOf s)) .seq).1, writes := [] }) hn _ rfl rfl)
    (endsOf (archAt u (hereOf s)) (advance (archAt u (hereOf s)) .seq).2)) (if same then .idle else .stalled)
  refine ⟨_, rfl, ht.arch, ht.voices, ht.array, ht.memory, ?_⟩
  have := ht.held.1
  simpa [heldBy, hh] using this

/-- The wait is over and the word has left with its writes (R57). -/
theorem endWait_leaves {s : State} {ws : List Wr} (hr : Room s ws) (same : Bool) :
    ∃ t, finish (hereOf s) s (endWait (hereOf s) same ws s) = .next t ∧
      Left s t (advance { recordAll s.now (me s) ws with wait := none, resumed := false } .seq).1 := by
  obtain ⟨u, hgo, hn, -⟩ := withWrites_did (go := fun t => .leave same (leaveWait t (hereOf s))) hr (near_refl s) rfl rfl
  have hl : Near s (leaveWait u (hereOf s))
      { arch := fun a => { recordAll s.now a ws with wait := none, resumed := false } } :=
    near_setArch hn _ (by rw [hn.arch]; rfl) rfl
  obtain ⟨t, hfin, hleft⟩ := finish_leave hl rfl same
  refine ⟨t, by rw [endWait, hgo, hfin], ?_⟩
  rwa [hl.arch] at hleft

theorem leavesWith_of_endWait {s : State} {i : Instr} {d : Nat} {x : Word}
    (hx : exec i s = finish (hereOf s) s (endWait (hereOf s) true [⟨.s d, row64 x, 2⟩] s)) : LeavesWith i s d x := by
  intro hr
  rw [hx]
  exact endWait_leaves hr true

end Sys2Proof.Machine
end

section
/-! O38: SEALW, the context requests and HOSTSIG (R57, R261, R263, R264, R285). -/

namespace Sys2Proof.Machine

open Sys2Proof.Claim

theorem bits_zero_left (x n : Nat) : bits x 0 n = x % 2 ^ n := by rw [bits, pow_zero, Nat.div_one]

/-- A request word exchanges the faces, holds its request and waits for the answer (R57). -/
theorem requestWord_waits {s : State} {sb : BitVec 1} {p : BitVec 3} (hm : MayIssuePriv s sb p .c) (hf : FlipReady s) (d : BitVec 5)
    (kind : WaitKind) (f : VoiceArch → Nat → Effect) : ∃ t, requestWord sb p d kind f s = .next t ∧
      Did s t { arch := waiting s kind [s.core.nextId] d 0, flow := .keep, closes := true, held := [f (me s) s.core.nextId] } := by
  have hnear := near_hold (f := { arch := flipArch, held := [f (me s) s.core.nextId] }) (near_flipped s) (f (me s) s.core.nextId) rfl
    (nextId_flipped s)
  obtain ⟨t, hret, hwaits⟩ := startWait_waits hnear kind [s.core.nextId] d 0
  refine privWord_did hm ?_ hwaits rfl
  simp only [hm.2.1.2]
  rw [withFlip_flips hf]
  exact hret

/-- A request word whose answer has come leaves with it. -/
theorem requestWord_ends {s : State} {sb : BitVec 1} {p : BitVec 3} {w : Wait} {r : Request} {x : Word} (ht : Takes s sb 0 .c true)
    (hw : (me s).wait = some w) (hr : findFirst (fun (r : Request) => w.items.contains r.id) s.pkg.requests = some r)
    (hx : r.result = some x) (d : BitVec 5) (kind : WaitKind) (f : VoiceArch → Nat → Effect) :
    requestWord sb p d kind f s = finish (hereOf s) s (endWait (hereOf s) true [⟨.s w.dest, row64 x, 2⟩] s) := by
  rw [requestWord, privWord_resumes ht hw]
  simp only [hw, hr, hx]

/-! ### HOSTSIG (R264) -/

/-- The context of the thread has one credit less. -/
def creditTaken (s : State) : State :=
  setCtx s (slotAt s (hereOf s)).thread.ctx { ctxOf s with credits := (ctxOf s).credits - 1 }

theorem exec_hostsig_takes {s : State} {sb : BitVec 1} {p : BitVec 3} (hm : MayIssue s sb p .c) (a : BitVec 5) :
    exec (.hostsig sb p a) s = finish (hereOf s) s (if (ctxOf s).credits = 0 then .stall true s else
      .retire .seq false (hold (creditTaken s) (hereOf s).k (clauseAt s (hereOf s))
        (.hostsig (visS (me s) a) (slotAt s (hereOf s)).scyc))) := by
  rw [exec_hostsig, execHostsig, word_takes hm]
  rfl

/-- A context is no part of a slot, so what holds an effect there is the same word of the same voice. -/
theorem did_creditTaken (s : State) (e : Effect) :
    Did (creditTaken s) (retire (hereOf s) .seq false (hold (creditTaken s) (hereOf s).k (clauseAt s (hereOf s)) e)) { held := [e] } :=
  did_retire (near_hold (near_refl (creditTaken s)) e (f := { held := [e] }) rfl rfl) rfl

/-- Settles O38: the words that wait by `startWait_waits` and `requestWord_waits`, their ends by `endWait_leaves` and
`requestWord_ends`. -/
theorem sealsRequestsAndSignals : Obligations.SealsRequestsAndSignals := by
  refine ⟨fun s sb p => ⟨fun hm hf => ?sealWaits, fun w ht hw => ⟨fun hu => ?sealStalls, fun hu => ?sealEnds⟩⟩,
    fun s sb p d a b => ⟨fun hm hf => ?requests, fun w r x ht hw hr hx => ?answers⟩,
    fun s sb p a hm => ⟨fun hc => ?noCredit, fun hc => ?signal⟩⟩
  case sealWaits =>
    obtain ⟨t, hret, hwaits⟩ := startWait_waits (near_flipped s) .sealw [] 0 0
    rw [Completes, exec_sealw, execSealw]
    refine word_did hm ?_ hwaits rfl
    simp only [hm.2.1.2]
    rw [withFlip_flips hf]
    exact hret
  case sealStalls =>
    rw [Stalls, exec_sealw, execSealw, word_resumes ht hw]
    simp only [hw, hu]
    rfl
  case sealEnds =>
    rw [exec_sealw, execSealw, word_resumes ht hw]
    simp only [hw, hu]
    exact endWait_leaves (ws := []) ⟨rfl, fun _ => rfl⟩ false
  case requests =>
    obtain ⟨t, hsave, hsaved⟩ := requestWord_waits hm hf d .ctxsave (fun r id =>
      .ctxsave id (bits (visS r a).toNat 0 12) (visS r b) (bits (visS r a).toNat 32 20))
    obtain ⟨u, hrst, hrested⟩ := requestWord_waits hm hf d .ctxrst (fun r id => .ctxrst id (bits (visS r a).toNat 0 12) (visS r b))
    simp only [bits_zero_left] at hsaved hrested
    exact ⟨⟨t, hsave, hsaved⟩, ⟨u, hrst, hrested⟩,
      requestWord_waits hm hf d .gsw (fun r id => .gsw id (switchJob (visS r a)) (bit (visS r a).toNat 16))⟩
  case answers =>
    refine ⟨leavesWith_of_endWait ?_, leavesWith_of_endWait ?_, leavesWith_of_endWait ?_⟩
    · rw [exec_ctxsave, execCtxsave, requestWord_ends ht hw hr hx]
    · rw [exec_ctxrst, execCtxrst, requestWord_ends ht hw hr hx]
    · rw [exec_gsw, execGsw, requestWord_ends ht hw hr hx]
  case noCredit =>
    rw [Stalls, exec_hostsig_takes hm, if_pos hc]
    rfl
  case signal =>
    rw [exec_hostsig_takes hm, if_neg hc]
    exact ⟨_, rfl, did_creditTaken s _⟩

end Sys2Proof.Machine
end

section
/-! O37: FENCE, PUBG, TLBINV and TLBSYNC (R57, R226, R230, R231). -/

namespace Sys2Proof.Machine

open Sys2Proof.Claim

/-! ### FENCE (R226) -/

/-- A fence in force is none of what a word must leave alone. -/
theorem near_addFence {s u : State} {d : Doing} (hn : Near s u d) (f : Fence) : Near s (addFence u (hereOf s).k f) d := by
  have hvoice : ∀ v, getVoice (addFence u (hereOf s).k f) (hereOf s).k v = getVoice u (hereOf s).k v := fun v => by
    rw [addFence, getVoice_setSlot]
    cases v <;> rfl
  constructor
  case arch => rw [← hn.arch, archAt, getArch, hvoice]; rfl
  case clause => rw [← hn.clause, clauseAt, curClause, hvoice]; rfl
  case ids => simpa [addFence] using hn.ids
  case voices =>
    exact ⟨fun v hv => by rw [← hn.voices.1 v hv, getArch, hvoice]; rfl,
      fun j hj => by rw [← hn.voices.2 j hj, addFence, getSlot_setSlot_other _ _ hj]⟩
  case slot => have := hn.slot; simpa [KeptSlot, slotAt, addFence] using this
  case array => have := hn.array; simpa [KeptArray, addFence] using this
  case memory => have := hn.memory; simpa [KeptMemory, addFence] using this
  case traced => intro h; have := hn.traced h; simpa [threadCtx, getCtx, addFence] using this
  case ctl => have := hn.ctl; simpa [KeptCtl, addFence] using this
  case canon => simpa [addFence] using hn.canon
  case held => have := hn.held; simpa [KeptHeld, addFence] using this
  case order => exact ⟨fun cl => by simpa [voiceOfClause, addFence] using hn.order.1 cl, fun v => by rw [hvoice, hn.order.2 v]⟩
  case cluster => simpa [addFence] using hn.cluster
  case around => have := hn.around; simpa [KeptAround, addFence] using this

theorem mem_fences_addFence (s : State) (k : Nat) (f : Fence) : f ∈ (getSlot (addFence s k f) k).fences := by
  simp [addFence]

/-- The fence a FENCE puts in force: voice A's or voice C's (R226). -/
def fenceOf (s : State) (h : Here) (mask : BitVec 5) : Fence := if h.v = .A then fenceOfA s h mask else fenceOfC s h mask

theorem fenceOf_parts (s : State) (h : Here) (mask : BitVec 5) : (fenceOf s h mask).mask = mask ∧
    (fenceOf s h mask).clause = clauseAt s h ∧ ((fenceOf s h mask).forA = true ↔ h.v = .A) := by
  unfold fenceOf
  split
  · next hv => exact ⟨rfl, rfl, iff_of_true rfl hv⟩
  · next hv => exact ⟨rfl, rfl, iff_of_false Bool.false_ne_true hv⟩

/-- A FENCE whose mask is 0 puts none in force. -/
def fenced (s : State) (h : Here) (mask : BitVec 5) : State := if mask = 0 then s else addFence s h.k (fenceOf s h mask)

theorem near_fenced {s u : State} {d : Doing} (hn : Near s u d) (mask : BitVec 5) : Near s (fenced u (hereOf s) mask) d := by
  unfold fenced
  split
  · exact hn
  · exact near_addFence hn _

section
variable {s : State} {sb : BitVec 1} {p : BitVec 3} (hm : MayIssue s sb p .ac) {d a : BitVec 5} {b : BitVec 3}
include hm

theorem fence_traps (hb : b = 7) (hsc : scopeValid s (hereOf s).k d = false) : Traps s (.fence sb p d a b) 0x0B 0 s := by
  rw [Traps, exec_fence, execFence, word_takes hm, if_pos ⟨hb, hsc⟩]
  rfl

theorem exec_fence_takes (hb : b = 7 → scopeValid s (hereOf s).k d = true) : exec (.fence sb p d a b) s =
    finish (hereOf s) s (if (hereOf s).v = .A ∧ acquirePending s (hereOf s).k = true then .stall false s
      else withFlip (hereOf s) s (fun u => .retire .seq true (fenced u (hereOf s) a))) := by
  rw [exec_fence, execFence, word_takes hm, if_neg (fun h => by simp [hb h.1] at h)]
  rfl

theorem fence_goes (hb : b = 7 → scopeValid s (hereOf s).k d = true)
    (hacq : (hereOf s).v = .A → acquirePending s (hereOf s).k = false) : exec (.fence sb p d a b) s =
    finish (hereOf s) s (withFlip (hereOf s) s (fun u => .retire .seq true (fenced u (hereOf s) a))) := by
  rw [exec_fence_takes hm hb, if_neg (fun h => by simp [hacq h.1] at h)]
theorem fence_completes (hb : b = 7 → scopeValid s (hereOf s).k d = true)
    (hacq : (hereOf s).v = .A → acquirePending s (hereOf s).k = false) (hf : FlipReady s) :
    ∃ t, exec (.fence sb p d a b) s = .next t ∧ Did s t { arch := flipArch, closes := true } ∧
      (a ≠ 0 → fenceOf (flipped s) (hereOf s) a ∈ (slotAt t (hereOf s)).fences) := by
  refine ⟨retire (hereOf s) .seq true (fenced (flipped s) (hereOf s) a), ?_,
    did_retire (near_as (near_fenced (near_flipped s) a) (e := { arch := flipArch, closes := true }) rfl) rfl, fun ha => ?_⟩
  · rw [fence_goes hm hb hacq, withFlip_flips hf]
    rfl
  · rw [slotAt, getSlot_retire_fences, fenced, if_neg ha]
    exact mem_fences_addFence ..
end

/-! ### PUBG and TLBINV (R226, R230) -/

theorem exec_pubg_takes {s : State} {sb : BitVec 1} {p : BitVec 3} (hm : MayIssue s sb p .c) (a : BitVec 5) :
    exec (.pubg sb p a) s = finish (hereOf s) s (
      if 63 < numOf s a ∨ (mget ⟨0, 0, false, false, 0, 0⟩ (ctxOf s).pubmap (numOf s a)).valid = false then .trap 0x0B 0 s
      else .retire .seq false (hold s (hereOf s).k (clauseAt s (hereOf s)) (.pubg (numOf s a)))) := by
  rw [exec_pubg, execPubg, word_takes hm]

theorem tlbinv_completes {s : State} {sb : BitVec 1} {p : BitVec 3} (hm : MayIssuePriv s sb p .c) (a b : BitVec 5) :
    Completes (.tlbinv sb p a b) s { held := [invalOf (visS (me s) a) (visS (me s) b) s.core.nextId] } := by
  rw [Completes, exec_tlbinv, execTlbinv]
  exact privWord_did hm rfl (near_hold (near_refl s) _ rfl rfl) rfl

theorem invalOf_eq (x y : Word) (id : Nat) : invalOf x y id = .tlbinv (x.toNat / 2 ^ 16 % 2 ^ 36 * 2 ^ 16)
    (y.toNat / 2 ^ 16 % 2 ^ 36 * 2 ^ 16) (y.toNat % 2 ^ 16) (y.getLsbD 63) id := by
  simp only [invalOf, bits_zero_left]
  simp only [bits]

/-! ### TLBSYNC (R231) -/

theorem tlbsync_waits {s : State} {sb : BitVec 1} {p : BitVec 3} (hm : MayIssuePriv s sb p .c) (hf : FlipReady s) (d : BitVec 5) :
    Completes (.tlbsync sb p d) s
      { arch := waiting s .tlbsync (invalsOpen s (hereOf s).k) d (mod64 ((invalsOpen s (hereOf s).k).length % 2 ^ 16)),
        flow := .keep, closes := true } := by
  obtain ⟨t, hret, hwaits⟩ := startWait_waits (near_flipped s) .tlbsync (invalsOpen s (hereOf s).k) d
    (mod64 ((invalsOpen s (hereOf s).k).length % 2 ^ 16))
  rw [Completes, exec_tlbsync, execTlbsync]
  refine privWord_did hm ?_ hwaits rfl
  simp only [hm.2.1.2]
  rw [withFlip_flips hf]
  exact hret

theorem exec_tlbsync_resumes {s : State} {sb : BitVec 1} {p : BitVec 3} {w : Wait} (ht : Takes s sb 0 .c true)
    (hw : (me s).wait = some w) (d : BitVec 5) : exec (.tlbsync sb p d) s = finish (hereOf s) s (
      if w.items.any (fun i => (invalsOpen s (hereOf s).k).contains i) then .stall true s
      else endWait (hereOf s) true [⟨.s w.dest, row64 w.val, 2⟩] s) := by
  rw [exec_tlbsync, execTlbsync, privWord_resumes ht hw]
  simp only [hw]

/-- Settles O37: `fence_completes` with the fence's parts, PUBG's and TLBINV's effects, TLBSYNC's wait and its end. -/
theorem fencesPublishesAndInvalidations : Obligations.FencesPublishesAndInvalidations := by
  refine ⟨fun s sb p d a b => ⟨fun hm => ⟨fence_traps hm, fun hsc hv hacq => ?acquiring, fun hsc hacq => ⟨fun hb => ?pending,
      fun hf => ?fence⟩⟩, fun hm => ⟨fun hn hv => ?pubg, fun hbad => ?pubgTraps⟩⟩,
    fun s sb p d a b => ⟨fun hm => ⟨?tlbinv, fun hf => tlbsync_waits hm hf d⟩,
      fun w ht hw => ⟨fun hopen => ?syncWaits, fun hdone => ?syncEnds⟩⟩⟩
  case acquiring =>
    rw [Stalls, exec_fence_takes hm hsc, if_pos ⟨hv, hacq⟩]
    rfl
  case pending =>
    rw [Stalls, fence_goes hm hsc hacq, withFlip_waits hb]
    rfl
  case fence =>
    obtain ⟨t, hx, hdid, hfence⟩ := fence_completes hm (a := a) hsc hacq hf
    obtain ⟨hmask, hclause, hfor⟩ := fenceOf_parts (flipped s) (hereOf s) a
    exact ⟨t, hx, hdid, fun ha => ⟨_, hfence ha, hmask, hclause.trans (near_flipped s).clause, hfor⟩⟩
  case pubg =>
    rw [Completes, exec_pubg_takes hm, if_neg (by simp [hn, hv])]
    exact ⟨_, rfl, did_retire (near_hold (f := { held := [.pubg (numOf s a)] }) (near_refl s) _ rfl rfl) rfl⟩
  case pubgTraps =>
    rw [Traps, exec_pubg_takes hm, if_pos hbad]
    rfl
  case tlbinv =>
    rw [← invalOf_eq]
    exact tlbinv_completes hm a b
  case syncWaits =>
    rw [Stalls, exec_tlbsync_resumes ht hw, if_pos (by simpa using hopen)]
    rfl
  case syncEnds =>
    refine leavesWith_of_endWait ?_
    rw [exec_tlbsync_resumes ht hw, if_neg (by simpa using hdone)]

end Sys2Proof.Machine
end

section
/-! O31: a BARW that waits for a place arrives late with the number its wait holds (R191, assumption 107). -/

namespace Sys2Proof.Machine

open Sys2Proof.Claim

/-- The late arrival of a waiting BARW names the barrier as its wait does, while `barrDecide` looks at it as a word. -/
theorem exec_barw_arrives {s : State} {sb : BitVec 1} {p : BitVec 3} {w : Wait} {g k : Nat} {ph : BitVec 32} {x : Nat}
    (ht : Takes s sb 0 .c false) (hw : (me s).wait = some w) (hi : 2 < w.items.length)
    (hd : barrDecide s (hereOf s).k (w64 (w.items.getD 2 0)) (w64 (w.items.getD 0 0)) = .arrive g k ph x) (d a b : BitVec 5) :
    exec (.barw sb p d a b) s =
      .next (setMark (arriveLate s (hereOf s) w g (w.items.getD 0 0) ph (w64 x)) (hereOf s) .yielding) := by
  rw [exec_barw, execBarw, clWord, word_resumes ht hw]
  simp only [hw, if_pos hi, hd]
  rfl

/-- The waiting voice's items are then the barrier's number, whole, and the phase. -/
theorem archAt_arriveLate {s : State} {h : Here} {w : Wait} (hu : unsealed s.core w.clause = true) (g k : Nat) (ph : BitVec 32)
    (x : Word) : archAt (arriveLate s h w g k ph x) h =
      { archAt s h with wait := some { w with items := [k, ph.toNat], val := x } } := by
  rw [arriveLate, if_pos hu]
  simp

/-- The wait of a BARW for a place at barrier 2^64, which as a word is 0, of group 0. -/
def wideWait : Wait := ⟨.barw, 1, [2 ^ 64, 0, 0], 7, 0, 0, 0⟩

/-- Voice C of a thread in group 0 holds `wideWait`, its clause open. -/
def wideState : State :=
  { State.reset with
    turn := 4
    core := { State.reset.core with
      clauses := [⟨1, 0, .C, none, [], VoiceArch.fresh 0, false⟩]
      slot0 := { State.reset.core.slot0 with vC := { Voice.empty with a := { VoiceArch.fresh 0 with wait := some wideWait } } } }
    cluster := { State.reset.cluster with groups := [(0, 1)] } }

theorem takes_wideState : Takes wideState 0 0 .c false := by decide +kernel

theorem wait_wideState : (me wideState).wait = some wideWait := by decide +kernel

theorem unsealed_wideState : unsealed wideState.core wideWait.clause = true := by decide +kernel

/-- Barrier 2^64 is taken for barrier 0, at which the thread has a place. -/
theorem barrDecide_wideState :
    barrDecide wideState (hereOf wideState).k (mod64 0) (mod64 (2 ^ 64)) = .arrive 0 0 0 0x10100 := by decide +kernel

/-- Refutes O31: a BARW that waits for a place may hold any number as its barrier's, and `barrDecide` looks at that number modulo 2^64.
Where it allows an arrival at barrier `k'`, the word keeps and holds the number as it stood, not `k'`: in `wideState` the
number is 2^64, `k'` is 0, and the voice then waits for barrier 2^64. -/
theorem not_barriersArriveAndWait : ¬ Obligations.BarriersArriveAndWait := by
  rintro ⟨-, hwaiting, -⟩
  obtain ⟨hplace, -⟩ := hwaiting wideState 0 0 7 0 0 wideWait takes_wideState wait_wideState
  obtain ⟨-, -, harrives⟩ := hplace (2 ^ 64) 0 0 [] rfl
  obtain ⟨t, o, ht, harch, -⟩ := harrives 0 0 0 0x10100 barrDecide_wideState unsealed_wideState
  rw [exec_barw_arrives takes_wideState wait_wideState (by decide) barrDecide_wideState] at ht
  obtain rfl := Host.Outcome.next.inj ht
  rw [archAt_setMark, archAt_arriveLate unsealed_wideState] at harch
  have hitems := congrArg (fun a => a.wait.map Wait.items) harch
  exact absurd hitems (by decide)

end Sys2Proof.Machine
end

section
/-! O19: queue loads, stores and pushes (R36, R87, R88, R92, R94, R123 to R125). -/

namespace Sys2Proof.Machine

open Sys2Proof.Claim

/-! ### Words whose body stalls or traps -/

section
variable {s : State} {i : Instr} {sb : BitVec 1} {p : BitVec 3} {perm : Perm} {body : Here → State → Res}
  (hm : MayIssue s sb p perm) (hi : exec i s = word sb p perm body s)
include hm hi

theorem word_stalls {yields : Bool} (hb : body (hereOf s) s = .stall yields s) : Stalls s i yields := by
  rw [Stalls, hi, word_takes hm, hb]
  rfl

theorem word_traps {cause : Nat} {fault : Word} {u : State} (hb : body (hereOf s) s = .trap cause fault u) :
    Traps s i cause fault u := by
  rw [Traps, hi, word_takes hm, hb]
  rfl

theorem word_completes {d : Doing} {u : State} (hb : body (hereOf s) s = .retire d.flow d.closes u) (hn : Near s u d)
    (hd : d.mark = .issued) : Completes i s d := by
  rw [Completes, hi]
  exact word_did hm hb hn hd
end

/-! ### The pop of one queue -/

theorem getQueue_of_tryPop {s : State} {k q : Nat} {e : QEntry} {v : QVal} (h : tryPop s k q = .ready e v) :
    ∃ r, getQueue (getCtl s k) q = e :: r := by
  obtain ⟨x, r, hq⟩ := List.exists_cons_of_ne_nil (tryPop_ready h)
  simp only [tryPop, hq] at h
  split at h
  · split at h
    · obtain ⟨rfl, -⟩ := PopRes.ready.inj h
      exact ⟨r, hq⟩
    · cases h
  · cases h

section
variable {s : State} {h : Here} {q : Nat} {go : List (Nat × QVal) → Res}

theorem withPops_waits (hq : tryPop s h.k q = .wait) : withPops h [q] s go = .stall false s := by
  simp only [withPops, tryPops, hq]

theorem withPops_traps {cause : Nat} (hq : tryPop s h.k q = .trap cause) : withPops h [q] s go = .trap cause 0 s := by
  simp only [withPops, tryPops, hq]

theorem withPops_goes {e : QEntry} {v : QVal} (hq : tryPop s h.k q = .ready e v) (hv : v.poison = none) :
    withPops h [q] s go = go [(q, v)] := by
  simp only [withPops, tryPops, hq, poisonedHead, hv]
end

/-- The head of a queue is popped, as it stood at the word's issue. -/
theorem near_pop {s u : State} {d : Doing} {q : Nat} {e : QEntry} {v : QVal} (hn : Near s u d) (hh : d.held = [])
    (hc : d.ctl = id) (hq : tryPop s (hereOf s).k q = .ready e v) :
    Near s (popQueue (hereOf s) u q)
        { d with ctl := fun c => setQueue c q ((getQueue c q).drop 1), links := d.links ++ [e.ord] } ∧
      (popQueue (hereOf s) u q).core.nextId = u.core.nextId := by
  obtain ⟨r, hr⟩ := getQueue_of_tryPop hq
  have hlike := hn.ctl.1
  rw [hc] at hlike
  obtain ⟨hnear, hid⟩ := near_pops (qs := [q]) hn hh (List.nodup_singleton q) (fun x hx => by
    rw [List.mem_singleton.mp hx]
    exact ⟨getQueue_of_ctlLike hlike q, hr ▸ List.cons_ne_nil e r⟩)
  refine ⟨?_, hid⟩
  simpa [popDoing, popped, poppedAt, hr, hc] using hnear

/-- A queue that no stream is bound to takes no STREAMEND. -/
theorem tryPush_of_unbound {s : State} {h : Here} {q cause : Nat} (hb : queueBound s h q = false) :
    tryPush s h.k q ≠ .trap cause := by
  have hnone : boundStream (getCtl s h.k) q = none := by simpa [queueBound] using hb
  simp only [tryPush, hnone]
  split
  · contradiction
  · split
    · simp
    · split <;> simp

/-! ### LDQ (R123, R125) -/

section
variable {s : State} {sb : BitVec 1} {p : BitVec 3} {b : BitVec 5} {o : BitVec 1} {imm : BitVec 9} (hm : MayIssue s sb p .a)
include hm

section
variable {q : BitVec 2}

theorem ldq_traps_bound (hb : queueBound s (hereOf s) q.toNat = true) : Traps s (.ldq sb p q b o imm) 0x0C 0 s :=
  word_traps hm (exec_ldq ..) (if_pos hb)

variable (hb : queueBound s (hereOf s) q.toNat = false)
include hb

theorem ldq_traps_range {bad : Nat}
    (ha : spadLoadAddr (slotAt s (hereOf s)) (memAddr (me s) b o imm 128).toNat 128 = .error bad) :
    Traps s (.ldq sb p q b o imm) 0x0B (mod64 bad) s := by
  refine word_traps hm (exec_ldq ..) ?_
  simp only [hb, ha]
  rfl

variable {a : Nat} (ha : spadLoadAddr (slotAt s (hereOf s)) (memAddr (me s) b o imm 128).toNat 128 = .ok a)
include ha

theorem ldq_stalls_full (hq : tryPush s (hereOf s).k q.toNat = .full) : Stalls s (.ldq sb p q b o imm) false := by
  refine word_stalls hm (exec_ldq ..) ?_
  simp only [hb, ha, hq]
  rfl

theorem ldq_drops (hr : Room s (postWrite (me s) b o imm 128)) (hq : tryPush s (hereOf s).k q.toNat = .drop) :
    Completes (.ldq sb p q b o imm) s { writes := postWrite (me s) b o imm 128 } := by
  obtain ⟨u, hgo, hu, -⟩ := withWrites_did (go := fun u => .retire .seq false u) hr (near_refl s) rfl rfl
  refine word_completes hm (exec_ldq ..) ?_ hu rfl
  simp only [hb, ha, hq]
  exact hgo

theorem ldq_stalls_fenced (hq : tryPush s (hereOf s).k q.toNat = .room) (hf : spadFenced s (hereOf s).k = true) :
    Stalls s (.ldq sb p q b o imm) false := by
  refine word_stalls hm (exec_ldq ..) ?_
  simp only [hb, ha, hq, withSpadLoad, hf]
  rfl

theorem ldq_pushes (hr : Room s (postWrite (me s) b o imm 128)) (hq : tryPush s (hereOf s).k q.toNat = .room)
    (hf : spadFenced s (hereOf s).k = false) (hp : spadPoison s a 128 = none) :
    Completes (.ldq sb p q b o imm) s
      { writes := postWrite (me s) b o imm 128,
        ctl := fun c => pushEntry c q.toNat ⟨s.core.nextId, clauseAt s (hereOf s), entryPlace s []⟩,
        fills := [⟨s.core.nextId, q.toNat, BitVec.ofNat 1024 (leNat (readSpad s a 128)), s.now + 6⟩] } := by
  obtain ⟨u, hgo, hu, hid⟩ := withWrites_did
    (go := fun x => .retire .seq false (pushQueue (hereOf s) q.toNat (BitVec.ofNat 1024 (leNat (readSpad s a 128))) 6 x)) hr
    (near_deps (near_refl s) (heldClauses s (hereOf s).k false a 128)) rfl rfl
  refine word_completes hm (exec_ldq ..) ?_ (near_pushQueue hu (hid.trans (addDeps_core_nextId ..)) _ _ _) rfl
  simp only [hb, ha, hq, withSpadLoad, hf, hp]
  exact hgo
end

/-! ### STQ (R123, R125) -/

section
variable {j : BitVec 1}

theorem stq_traps_bound (hb : queueBound s (hereOf s) (4 + j.toNat) = true) : Traps s (.stq sb p j b o imm) 0x0C 0 s :=
  word_traps hm (exec_stq ..) (if_pos hb)

variable (hb : queueBound s (hereOf s) (4 + j.toNat) = false)
include hb

theorem stq_traps_range {bad : Nat}
    (ha : spadStoreAddr (slotAt s (hereOf s)) (memAddr (me s) b o imm 128).toNat 128 = .error bad) :
    Traps s (.stq sb p j b o imm) 0x0B (mod64 bad) s := by
  refine word_traps hm (exec_stq ..) ?_
  simp only [hb, ha]
  rfl

variable {a : Nat} (ha : spadStoreAddr (slotAt s (hereOf s)) (memAddr (me s) b o imm 128).toNat 128 = .ok a)
include ha

theorem stq_stalls_empty (hq : tryPop s (hereOf s).k (4 + j.toNat) = .wait) : Stalls s (.stq sb p j b o imm) false := by
  refine word_stalls hm (exec_stq ..) ?_
  simp only [hb, ha]
  exact withPops_waits hq

theorem stq_traps_pop {cause : Nat} (hq : tryPop s (hereOf s).k (4 + j.toNat) = .trap cause) :
    Traps s (.stq sb p j b o imm) cause 0 s := by
  refine word_traps hm (exec_stq ..) ?_
  simp only [hb, ha]
  exact withPops_traps hq

variable {e : QEntry} {v : QVal} (hq : tryPop s (hereOf s).k (4 + j.toNat) = .ready e v) (hv : v.poison = none)
include hq hv

theorem stq_stalls_full (hh : holdbackRoom s.core (clauseAt s (hereOf s)) false a 128 = false) :
    Stalls s (.stq sb p j b o imm) false := by
  refine word_stalls hm (exec_stq ..) ?_
  simp only [hb, ha, withPops_goes hq hv, withSpadStore, hh]
  rfl

theorem stq_holds (hr : Room s (postWrite (me s) b o imm 128))
    (hh : holdbackRoom s.core (clauseAt s (hereOf s)) false a 128 = true) :
    Completes (.stq sb p j b o imm) s
      { writes := postWrite (me s) b o imm 128,
        ctl := fun c => setQueue c (4 + j.toNat) ((getQueue c (4 + j.toNat)).drop 1),
        held := [.store false a (leBytes 128 v.val.toNat) 1 false 0 0 0], links := [e.ord] } := by
  obtain ⟨u, hgo, hu, hid⟩ := withWrites_did
    (go := fun u => .retire .seq false (holdSpad (hereOf s) a (leBytes 128 v.val.toNat) (popQueue (hereOf s) u (4 + j.toNat))))
    hr (near_refl s) rfl rfl
  obtain ⟨hpop, hpid⟩ := near_pop hu rfl rfl hq
  refine word_completes hm (exec_stq ..) ?_ (near_hold hpop _ rfl (hpid.trans hid)) rfl
  simp only [hb, ha, withPops_goes hq hv, withSpadStore, hh, if_true, List.map_cons, List.map_nil, List.flatten_cons, List.flatten_nil,
    List.append_nil]
  exact hgo
end
end

/-! ### QPUSH (R125) -/

section
variable {s : State} {sb : BitVec 1} {p : BitVec 3} {k : BitVec 2} {a : BitVec 5} {j : BitVec 1} (hm : MayIssue s sb p .a)
include hm

theorem qpush_traps_bound (hb : queueBound s (hereOf s) k.toNat = true) : Traps s (.qpush sb p k a) 0x0C 0 s :=
  word_traps hm (exec_qpush ..) (if_pos hb)

theorem qpushSq_traps_bound (hb : (queueBound s (hereOf s) k.toNat || queueBound s (hereOf s) (4 + j.toNat)) = true) :
    Traps s (.qpushSq sb p k j) 0x0C 0 s :=
  word_traps hm (exec_qpushSq ..) (if_pos hb)

variable (hb : queueBound s (hereOf s) k.toNat = false)
include hb

theorem qpush_stalls_full (hq : tryPush s (hereOf s).k k.toNat = .full) : Stalls s (.qpush sb p k a) false := by
  refine word_stalls hm (exec_qpush ..) ?_
  simp only [hb, hq]
  rfl

theorem qpush_drops (hq : tryPush s (hereOf s).k k.toNat = .drop) : Completes (.qpush sb p k a) s {} := by
  refine word_completes hm (exec_qpush ..) ?_ (near_refl s) rfl
  simp only [hb, hq]
  rfl

theorem qpush_pushes (hq : tryPush s (hereOf s).k k.toNat = .room) :
    Completes (.qpush sb p k a) s
      { ctl := fun c => pushEntry c k.toNat ⟨s.core.nextId, clauseAt s (hereOf s), entryPlace s []⟩,
        fills := [⟨s.core.nextId, k.toNat, rowOf 64 (List.replicate 16 (visS (me s) a).toNat), s.now + 1⟩] } := by
  refine word_completes hm (exec_qpush ..) ?_ (near_pushQueue (near_refl s) rfl k.toNat (copies16 (visS (me s) a)) 1) rfl
  simp only [hb, hq]
  rfl

variable (hj : queueBound s (hereOf s) (4 + j.toNat) = false)
include hj

theorem qpushSq_stalls_empty (hq : tryPop s (hereOf s).k (4 + j.toNat) = .wait) : Stalls s (.qpushSq sb p k j) false := by
  refine word_stalls hm (exec_qpushSq ..) ?_
  simp only [hb, hj]
  exact withPops_waits hq

theorem qpushSq_traps_pop {cause : Nat} (hq : tryPop s (hereOf s).k (4 + j.toNat) = .trap cause) :
    Traps s (.qpushSq sb p k j) cause 0 s := by
  refine word_traps hm (exec_qpushSq ..) ?_
  simp only [hb, hj]
  exact withPops_traps hq

variable {e : QEntry} {v : QVal} (hq : tryPop s (hereOf s).k (4 + j.toNat) = .ready e v) (hv : v.poison = none)
include hq hv

theorem qpushSq_stalls_full (hk : tryPush s (hereOf s).k k.toNat = .full) : Stalls s (.qpushSq sb p k j) false := by
  refine word_stalls hm (exec_qpushSq ..) ?_
  simp only [hb, hj, withPops_goes hq hv, hk]
  rfl

theorem qpushSq_drops (hk : tryPush s (hereOf s).k k.toNat = .drop) :
    Completes (.qpushSq sb p k j) s
      { ctl := fun c => setQueue c (4 + j.toNat) ((getQueue c (4 + j.toNat)).drop 1), links := [e.ord] } := by
  refine word_completes hm (exec_qpushSq ..) ?_ (near_pop (near_refl s) rfl rfl hq).1 rfl
  simp only [hb, hj, withPops_goes hq hv, hk]
  rfl

theorem qpushSq_pushes (hk : tryPush s (hereOf s).k k.toNat = .room) :
    Completes (.qpushSq sb p k j) s
      { ctl := fun c => pushEntry (setQueue c (4 + j.toNat) ((getQueue c (4 + j.toNat)).drop 1)) k.toNat
          ⟨s.core.nextId, clauseAt s (hereOf s), entryPlace s [e.ord]⟩,
        links := [e.ord], fills := [⟨s.core.nextId, k.toNat, v.val, s.now + 2⟩] } := by
  obtain ⟨hpop, hid⟩ := near_pop (near_refl s) rfl rfl hq
  refine word_completes hm (exec_qpushSq ..) ?_ (near_pushQueue hpop hid k.toNat v.val 2) rfl
  simp only [hb, hj, withPops_goes hq hv, hk]
  rfl
end

/-- Settles O19: each fate of LDQ, STQ and QPUSH is its `ldq_`, `stq_` or `qpush` lemma; a push to an unbound queue does not trap
(`tryPush_of_unbound`), and what is read after a STQ is `readSpad_of_did_store`. -/
theorem queueLoadsStoresAndPushes : Obligations.QueueLoadsStoresAndPushes := by
  refine ⟨fun s sb p q j b o imm a hm hr => ⟨ldq_traps_bound hm, fun bad hb => ldq_traps_range hm hb, fun hb ha => ?ldq,
      stq_traps_bound hm, fun bad hb => stq_traps_range hm hb, fun hb ha => ?stq⟩,
    fun s sb p k a j hm => ⟨fun hb => ⟨qpush_traps_bound hm hb, qpushSq_traps_bound hm (by rw [hb, Bool.true_or])⟩, fun hb => ?qpush⟩⟩
  case ldq =>
    exact ⟨ldq_stalls_full hm hb ha, ldq_drops hm hb ha hr, fun c hq => absurd hq (tryPush_of_unbound hb),
      ldq_stalls_fenced hm hb ha, ldq_pushes hm hb ha hr⟩
  case stq =>
    refine ⟨stq_stalls_empty hm hb ha, fun c => stq_traps_pop hm hb ha, fun e v hq hv => stq_stalls_full hm hb ha hq hv,
      fun e v hq hv hh => ?_⟩
    obtain ⟨t, hexec, hdid⟩ := stq_holds hm hb ha hq hv hr hh
    refine ⟨t, hexec, hdid, ?_, fun x hx => ?_⟩
    · rw [readSpad_of_did_store hdid rfl, overlay_same _ _ _ (by simp)]
    · rw [readSpad_of_did_store hdid rfl, overlay_disjoint _ _ _ _ (by simp; omega)]
  case qpush =>
    exact ⟨qpush_stalls_full hm hb, qpush_drops hm hb, qpush_pushes hm hb, fun c hq => absurd hq (tryPush_of_unbound hb),
      fun hj => qpushSq_traps_bound hm (by rw [hj, Bool.or_true]), fun hj => qpushSq_stalls_empty hm hb hj,
      fun c hj => qpushSq_traps_pop hm hb hj, fun e v hj hq hv => ⟨qpushSq_stalls_full hm hb hj hq hv,
        fun c hk => absurd hk (tryPush_of_unbound hb), qpushSq_drops hm hb hj hq hv, qpushSq_pushes hm hb hj hq hv⟩⟩

end Sys2Proof.Machine
end

section
/-! O21: COMMIT (R95, R130). -/

namespace Sys2Proof.Machine

open Sys2Proof.Claim

section
variable {s : State} {sb : BitVec 1} {p : BitVec 3} {d : BitVec 5} {k : BitVec 3} (hm : MayIssue s sb p .ax)
  (hd : (hereOf s).v.isX = true → d.toNat < 28)
include hd

/-- The destination is one that R130 allows. -/
theorem commitIll_of_allowed : commitIll d (hereOf s) s = false := by
  cases hx : (hereOf s).v.isX with
  | false => simp [commitIll, hx]
  | true => simp [commitIll, hx, hd hx]

include hm

/-- Past the checks of R46, a word with COMMIT's is its body's outcome. -/
theorem commit_takes (body : Here → State → Res) :
    issue sb 0 .ax false (commitIll d) (predLive p) body s = finish (hereOf s) s (body (hereOf s) s) :=
  issue_takes hm.1.1 hm.1.2.1 (commitIll_of_allowed hd) hm.1.2.2.1 hm.1.2.2.2 (.inl ⟨hm.2.1.1, hm.2.2⟩)

theorem commit_takes_free {x : Row} (hl : getLanding (ctlOf s) (landKey s k) = .free x)
    (hr : Room s [⟨commitDest (hereOf s) d, x, commitLat s⟩]) :
    Completes (.commit sb p d k) s { writes := [⟨commitDest (hereOf s) d, x, commitLat s⟩] } := by
  obtain ⟨u, hgo, hu, -⟩ := withWrites_did (go := fun t => .retire .seq false t) hr (near_refl s) rfl rfl
  rw [Completes, exec_commit, execCommit]
  refine issue_did hm.1 (commitIll_of_allowed hd) (.inl ⟨hm.2.1.1, hm.2.2⟩) ?_ hu rfl
  simp only [hl]
  exact hgo

section
variable {id cl : Nat} (hl : getLanding (ctlOf s) (landKey s k) = .xfer id cl)
include hl

theorem commit_waits (hx : mfind (slotAt s (hereOf s)).arrived id = none) : Stalls s (.commit sb p d k) true := by
  rw [Stalls, exec_commit, execCommit, commit_takes hm hd]
  simp only [hl, hx]
  rfl

variable {x : Arrival} (hx : mfind (slotAt s (hereOf s)).arrived id = some x) (hp : x.poison = none)
include hx hp

theorem commit_takes_full (hf : x.fault = none) (hr : Room s [⟨commitDest (hereOf s) d, x.data, commitLat s⟩]) :
    Completes (.commit sb p d k) s
      { writes := [⟨commitDest (hereOf s) d, x.data, commitLat s⟩],
        ctl := fun c => setLanding c (landKey s k) (.free x.data) } := by
  obtain ⟨u, hgo, hu, -⟩ := withWrites_did
    (go := fun u => .retire .seq false (changeAt (depAt u (hereOf s) cl) (hereOf s) (.landSet (landKey s k) (.free x.data))))
    hr (near_refl s) rfl rfl
  rw [Completes, exec_commit, execCommit]
  refine issue_did hm.1 (commitIll_of_allowed hd) (.inl ⟨hm.2.1.1, hm.2.2⟩) ?_
    (near_change (near_dep hu cl) (.landSet (landKey s k) (.free x.data)) rfl fun _ => rfl) rfl
  simp only [hl, hx, hp, hf]
  exact hgo

/-- A failed transfer is noticed by the COMMIT that takes it. -/
theorem commit_traps {c : Nat} (hf : x.fault = some c) :
    Traps s (.commit sb p d k) c (mod64 (xferAddr s (hereOf s).k id))
      (changeAt (depAt s (hereOf s) cl) (hereOf s) (.landSet (landKey s k) (.free 0))) := by
  rw [Traps, exec_commit, execCommit, commit_takes hm hd]
  simp only [hl, hx, hp, hf]
  rfl
end
end

/-- Settles O21: by the state of the landing slot, free (`commit_takes_free`), busy (`commit_waits`), full (`commit_takes_full`) or
failed (`commit_traps`). -/
theorem commitTakesWhatHasLanded : Obligations.CommitTakesWhatHasLanded :=
  fun _ _ _ _ _ hm hd => ⟨fun _ => commit_takes_free hm hd, fun _ _ hl => ⟨commit_waits hm hd hl, fun _ hx hp =>
    ⟨commit_takes_full hm hd hl hx hp, fun _ => commit_traps hm hd hl hx hp⟩⟩⟩

end Sys2Proof.Machine
end

section
/-! O20: streams: SBIND, SUNBIND and the stream unit (R87 to R92, R94, R126, R127). -/

namespace Sys2Proof.Machine

open Sys2Proof.Claim

/-! ### The streams served in a cycle are no part of a word's own effect -/

@[simp] theorem traceThread_served (s : State) (k kind : Nat) (fs : List Nat) : (traceThread s k kind fs).served = s.served := by
  unfold traceThread traceRec
  split
  · rfl
  · split <;> rfl

@[simp] theorem snapshotBanks_served (s : State) (k : Nat) (v : VoiceId) (es : List VAddr) :
    (snapshotBanks s k v es).served = s.served := by
  cases es with
  | nil => rfl
  | cons e r => exact traceThread_served ..

@[simp] theorem retire_served (h : Here) (flow : Flow) (b : Bool) (s : State) : (retire h flow b s).served = s.served := by
  unfold retire
  cases b <;> simp

/-- What the banks note of streams, and which of them are served, is none of what a word does. -/
theorem near_streamsNoted {s u : State} {d : Doing} (hn : Near s u d) (turns : KMap StreamTurn) (served : List Nat) :
    Near s { u with served := served, core := { u.core with streamTurns := turns } } d :=
  ⟨hn.1, hn.2, hn.3, hn.4, hn.5, hn.6, hn.7, hn.8, hn.9, hn.10, hn.11, hn.12, hn.13, hn.14⟩

/-- A stream entry is bound. -/
theorem near_bindStream {s u : State} {d : Doing} (hn : Near s u d) (hc : d.ctl = id) (k : Nat) (x : Stream) :
    Near s (bindStream u (hereOf s) k x) { d with ctl := fun c => { c with streams := mput c.streams k x } } := by
  have hclear := near_streamsNoted hn (clearTurn u (hereOf s).k k).core.streamTurns u.served
  have hset := near_change hclear (e := { d with ctl := fun c => { c with streams := mput c.streams k x } }) (.streamSet k x)
    (by rw [hc]; rfl) fun _ => rfl
  exact near_streamsNoted hset _ _

/-! ### SBIND (R89 to R91, R126) -/

section
variable {s : State} {sb : BitVec 1} {p : BitVec 3} {k : BitVec 3} {a q : BitVec 5} (hm : MayIssue s sb p .a)
include hm

theorem sbind_traps_unaligned (ha : (visS (me s) a).toNat % 64 ≠ 0) : Traps s (.sbind sb p k a q) 0x0B (visS (me s) a) s := by
  refine word_traps hm (exec_sbind ..) ?_
  cases hl : spadLoadAddr (slotAt s (hereOf s)) (visS (me s) a).toNat 64 with
  | error bad => simp only [hl]
  | ok m => simp only [hl, if_pos ha]

theorem sbind_traps_range {bad : Nat} (hl : spadLoadAddr (slotAt s (hereOf s)) (visS (me s) a).toNat 64 = .error bad) :
    Traps s (.sbind sb p k a q) 0x0B (visS (me s) a) s := by
  refine word_traps hm (exec_sbind ..) ?_
  simp only [hl]

variable {m : Nat} (hl : spadLoadAddr (slotAt s (hereOf s)) (visS (me s) a).toNat 64 = .ok m)
  (ha : (visS (me s) a).toNat % 64 = 0)
include hl ha

theorem sbind_stalls (hf : spadFenced s (hereOf s).k = true) : Stalls s (.sbind sb p k a q) false := by
  refine word_stalls hm (exec_sbind ..) ?_
  simp only [hl, ha, withSpadLoad, hf]
  rfl

variable (hf : spadFenced s (hereOf s).k = false) (hp : spadPoison s m 64 = none)
include hf hp

theorem sbind_traps_badByte {i : Nat} (hb : firstBadByte (readSpad s m 64) q.toNat = some i) :
    Traps s (.sbind sb p k a q) 0x01 (visS (me s) a + mod64 i) s := by
  refine word_traps hm (exec_sbind ..) ?_
  simp only [hl, ha, withSpadLoad, hf, hp, hb]
  rfl

variable (hb : firstBadByte (readSpad s m 64) q.toNat = none)
include hb

theorem sbind_traps_bound (hs : streamBound (ctlOf s) k.toNat = true ∨ (boundStream (ctlOf s) q.toNat).isSome = true) :
    Traps s (.sbind sb p k a q) 0x0C 0 s := by
  have hor : (streamBound (ctlOf s) k.toNat || (boundStream (ctlOf s) q.toNat).isSome) = true := by simpa using hs
  refine word_traps hm (exec_sbind ..) ?_
  simp only [hl, ha, withSpadLoad, hf, hp, hb, hor]
  rfl

variable (hs : streamBound (ctlOf s) k.toNat = false) (hq : boundStream (ctlOf s) q.toNat = none)
include hs hq

theorem sbind_traps_pattern {bad : Int}
    (hx : patternFault (slotAt s (hereOf s)) (parseStream (readSpad s m 64) q.toNat) = some bad) :
    Traps s (.sbind sb p k a q) 0x0B (int64 bad) s := by
  refine word_traps hm (exec_sbind ..) ?_
  simp only [hl, ha, withSpadLoad, hf, hp, hb, hs, hq, hx]
  rfl

/-- The stream is bound, and counts as served for the rest of the cycle. -/
theorem sbind_binds (hx : patternFault (slotAt s (hereOf s)) (parseStream (readSpad s m 64) q.toNat) = none) :
    ∃ t, exec (.sbind sb p k a q) s = .next t ∧
      Did s t { ctl := fun c => { c with streams := mput c.streams k.toNat (boundAs s (readSpad s m 64) q.toNat) } } ∧
      t.served.contains (8 * (hereOf s).k + k.toNat) = true := by
  have hbind := near_bindStream (near_deps (near_refl s) (heldClauses s (hereOf s).k false m 64)) rfl k.toNat
    (boundAs s (readSpad s m 64) q.toNat)
  refine ⟨_, ?_, did_retire hbind rfl, ?_⟩
  · rw [exec_sbind, execSbind, word_takes hm]
    simp only [hl, ha, withSpadLoad, hf, hp, hb, hs, hq, hx]
    rfl
  · rw [retire_served]
    simp [bindStream]
end

/-! ### SUNBIND (R127) -/

section
variable {s : State} {sb : BitVec 1} {p : BitVec 3} {k : BitVec 3} (hm : MayIssue s sb p .a)
include hm

theorem sunbind_unbinds {x : Stream} (hx : getStream (ctlOf s) k.toNat = some x) (hb : x.bound = true) :
    Completes (.sunbind sb p k) s { ctl := fun c => { c with streams := mput c.streams k.toNat { x with bound := false } } } := by
  refine word_completes hm (exec_sunbind ..) ?_
    (near_change (near_refl s) (.streamSet k.toNat { x with bound := false }) rfl fun _ => rfl) rfl
  simp only [hx, hb]
  rfl

theorem sunbind_of_unbound (hx : ∀ x, getStream (ctlOf s) k.toNat = some x → x.bound = false) :
    Completes (.sunbind sb p k) s {} := by
  refine word_completes hm (exec_sunbind ..) ?_ (near_refl s) rfl
  cases hg : getStream (ctlOf s) k.toNat with
  | none => rfl
  | some x =>
    simp only [hx x hg]
    rfl
end

/-! ### The stream unit: a fill (R88, R92) -/

/-- An entry of a stream is being moved. -/
def streamTaken (s : State) (k i : Nat) : State :=
  { s with served := s.served ++ [8 * k + i], granted := s.granted.filter (fun n => decide (n ≠ 8 * k + i)) }

section
variable {s : State} {k i : Nat} {x : Stream} (hg : s.granted.contains (8 * k + i) = true) (hc : canServe s k i = true)
  (hr : clockRuns s = true) (hx : getStream (getCtl s k) i = some x)
include hg hc hr hx

theorem streamService_fills (hd : x.drain = false) (hp : streamPoison s x = none) :
    exec (.streamService k i) s = .next (serveFill (streamTaken s k i) k i x) := by
  simp only [exec_streamService, execStreamService, hg, hc, hr, hx, hd, hp]
  rfl

theorem streamService_drains (hd : x.drain = true) {e : QEntry} {v : QVal} (hq : tryPop s k x.queue = .ready e v)
    (hp : v.poison = none) : exec (.streamService k i) s = .next (serveDrain (streamTaken s k i) k i x e v) := by
  simp only [exec_streamService, execStreamService, hg, hc, hr, hx, hd, hq, hp]
  rfl
end

/-- A fill stream's next entry is pushed, filled at once. -/
theorem serveFill_pushes {s : State} {k i : Nat} {x : Stream} (hq : tryPush s k x.queue = .room) :
    getCtl (serveFill s k i x) k =
        { pushEntry (getCtl s k) x.queue ⟨s.core.nextId, streamClause s k, clauseClock s k (streamClause s k)⟩ with
          streams := mput (getCtl s k).streams i (advanceStream x) } ∧
      (getSlot (serveFill s k i x) k).qvals = mput (getSlot s k).qvals s.core.nextId
        ⟨packEntry x.decode x.esz ((entryAddrs x).map (fun a => leNat (readSpad s a x.esz))), none⟩ ∧
      (∀ v, getArch (serveFill s k i x) k v = getArch s k v) ∧ KeptArray s (serveFill s k i x) ∧
      (serveFill s k i x).core.held = s.core.held ∧ (serveFill s k i x).core.spad = s.core.spad ∧ (serveFill s k i x).pkg = s.pkg := by
  have hne : tryPush s k x.queue ≠ .drop := by rw [hq]; decide
  simp only [serveFill, if_neg hne, reserveEntry]
  refine ⟨?_, ?_, fun v => ?_, by simp [KeptArray], by simp, by simp, by simp⟩
  · rw [getCtl_setSlot, getCtl_change, getCtl_change, getCtl_bumpId]
    rfl
  · rw [getSlot_setSlot]
    simp [freshId]
  · rw [getArch_setSlot_voices]
    · simp
    · intro v
      cases v <;> rfl

/-- Without a consumer a fill stream only moves on. -/
theorem serveFill_drops {s : State} {k i : Nat} {x : Stream} (hq : tryPush s k x.queue = .drop) :
    serveFill s k i x = change s k (streamClause s k) (.streamSet i (advanceStream x)) := if_pos hq

/-! ### The stream unit: a drain (R92, R174) -/

theorem unsealed_updClause {s : State} {id : Nat} {f : Clause → Clause} (hf : ∀ c, (f c).id = c.id) (cl : Nat) :
    unsealed (updClause s id f).core cl = unsealed s.core cl := by
  simp only [unsealed, updClause, List.any_map]
  congr 1
  funext c
  by_cases hc : c.id = id <;> simp [hc, hf]

/-- A dependence leaves the numbers of the clauses and their voices. -/
theorem dependOn_clauses (s : State) (q : Nat) (ps : List Nat) (cl : Nat) :
    unsealed (dependOn s q ps).core cl = unsealed s.core cl ∧
      voiceOfClause (dependOn s q ps).core cl = voiceOfClause s.core cl := by
  unfold dependOn
  split
  · exact ⟨rfl, rfl⟩
  · refine ⟨unsealed_updClause (by simp) cl, voiceOfClause_map _ _ _ fun c => ?_⟩
    by_cases hc : c.id = q <;> simp [hc]

/-- Stores held one after the other for a clause, each under the next number. -/
def storesHeld (s : State) (k cl esz : Nat) (es : List (Nat × Nat)) : List Held :=
  es.mapIdx fun n y => ⟨s.core.nextId + n, k, cl, clauseClock { s with core := { s.core with nextId := s.core.nextId + n } } k cl,
    .store false y.1 (leBytes esz y.2) 1 false 0 0 0⟩

/-- The elements of a drained entry are held for the clause, oldest first. -/
theorem foldl_drainOne {k cl esz : Nat} (es : List (Nat × Nat)) {s : State} (hu : unsealed s.core cl = true) :
    es.foldl (drainOne k cl esz) s =
      { s with core := { s.core with held := s.core.held ++ storesHeld s k cl esz es, nextId := s.core.nextId + es.length } } := by
  induction es generalizing s with
  | nil => simp [storesHeld]
  | cons y r ih =>
    have hheld : unsealed (hold s k cl (.store false y.1 (leBytes esz y.2) 1 false 0 0 0)).core cl = true := hu
    have hrest : storesHeld s k cl esz (y :: r) = ⟨s.core.nextId, k, cl, clauseClock s k cl,
        .store false y.1 (leBytes esz y.2) 1 false 0 0 0⟩ ::
          storesHeld (hold s k cl (.store false y.1 (leBytes esz y.2) 1 false 0 0 0)) k cl esz r := by
      simp only [storesHeld, List.mapIdx_cons, nextId_hold, Nat.add_assoc, Nat.add_comm 1]
      rfl
    rw [List.foldl_cons, drainOne, if_pos hu, ih hheld, hrest, List.length_cons, Nat.add_comm r.length, ← Nat.add_assoc,
      List.append_cons]
    rfl

theorem clauseClock_congr {s u : State} {k cl : Nat} (hc : voiceOfClause u.core cl = voiceOfClause s.core cl)
    (hv : ∀ v, getVoice u k v = getVoice s k v) (hn : u.core.nextId = s.core.nextId) : clauseClock u k cl = clauseClock s k cl := by
  simp only [clauseClock, hc, clockOf, hv, freshId, hn]

/-- The places of a clause's effects do not look at what clauses depend on. -/
theorem storesHeld_dependOn (s : State) (q : Nat) (ps : List Nat) (k cl esz : Nat) (es : List (Nat × Nat)) :
    storesHeld (dependOn s q ps) k cl esz es = storesHeld s k cl esz es := by
  have hvoice : ∀ v, getVoice (dependOn s q ps) k v = getVoice s k v := by simp [getVoice, getSlot]
  have hclock : ∀ n, clauseClock { dependOn s q ps with core := { (dependOn s q ps).core with nextId := s.core.nextId + n } } k cl =
      clauseClock { s with core := { s.core with nextId := s.core.nextId + n } } k cl :=
    fun n => clauseClock_congr (dependOn_clauses s q ps cl).2 hvoice rfl
  simp only [storesHeld, dependOn_core_nextId, hclock]

/-- A drain stream's queue gives up its head, whose elements are held for the clause. -/
theorem serveDrain_holds {s : State} {k i : Nat} {x : Stream} (e : QEntry) (v : QVal)
    (hu : unsealed s.core (streamClause s k) = true) :
    getCtl (serveDrain s k i x e v) k = { setQueue (getCtl s k) x.queue ((getQueue (getCtl s k) x.queue).drop 1) with
        streams := mput (getCtl s k).streams i (advanceStream x) } ∧
      (serveDrain s k i x e v).core.held = s.core.held ++ storesHeld s k (streamClause s k) x.esz
        ((entryAddrs x).zip (unpackEntry x.decode x.esz (nextElems x) v.val)) ∧
      (∀ z, getArch (serveDrain s k i x e v) k z = getArch s k z) ∧ KeptArray s (serveDrain s k i x e v) ∧
      (serveDrain s k i x e v).core.spad = s.core.spad ∧ (serveDrain s k i x e v).pkg = s.pkg := by
  have hdep : unsealed (dependOn s (streamClause s k) [e.clause]).core (streamClause s k) = true :=
    (dependOn_clauses ..).1.trans hu
  have harch : ∀ z, getArch (dependOn s (streamClause s k) [e.clause]) k z = getArch s k z := by simp [getArch, getVoice, getSlot]
  have hctl : getCtl (dependOn s (streamClause s k) [e.clause]) k = getCtl s k := by simp [getCtl]
  simp only [serveDrain, foldl_drainOne _ hdep, changes]
  refine ⟨?_, ?_, fun z => ?_, by simp [KeptArray], by simp, by simp⟩
  · rw [getCtl_change, getCtl_change, ← hctl]
    rfl
  · simp [storesHeld_dependOn]
  · rw [getArch_change, getArch_change, ← harch z]
    rfl

/-- Settles O20: SBIND and SUNBIND by their lemmas, the stream unit by what `serveFill` and `serveDrain` do with the entry taken. -/
theorem streamsAreBoundAndServeTheirQueues : Obligations.StreamsAreBoundAndServeTheirQueues := by
  refine ⟨fun s sb p k a q m hm => ⟨sbind_stalls hm, fun hl ha hf hp => ⟨fun i => sbind_traps_badByte hm hl ha hf hp, fun hb =>
      ⟨sbind_traps_bound hm hl ha hf hp hb, fun hs hq => ⟨fun bad => sbind_traps_pattern hm hl ha hf hp hb hs hq,
        sbind_binds hm hl ha hf hp hb hs hq⟩⟩⟩, fun h => h.elim (sbind_traps_unaligned hm) fun ⟨_, hl⟩ => sbind_traps_range hm hl,
      fun x => sunbind_unbinds hm, sunbind_of_unbound hm⟩,
    fun s k i x hg hc hr hx => ⟨fun hd hp hq => ?fill, fun hd hp hq => ?drop, fun hd e v hq hv hu => ?drain⟩⟩
  case fill => exact ⟨_, streamService_fills hg hc hr hx hd hp, serveFill_pushes (s := streamTaken s k i) hq⟩
  case drop =>
    refine ⟨_, streamService_fills hg hc hr hx hd hp, ?_⟩
    rw [serveFill_drops (s := streamTaken s k i) hq]
    exact ⟨getCtl_change .., congrArg _ (getSlot_change ..), change_core_held .., change_core_spad ..⟩
  case drain => exact ⟨_, streamService_drains hg hc hr hx hd hq hv, serveDrain_holds (s := streamTaken s k i) e v hu⟩

end Sys2Proof.Machine
end

section
/-! O29: a copy into a core scratchpad that lists an address twice. `CopiesMove` says what every byte holds after a copy and asks no
canonical form of the scratchpad, as `ScatterWindowsMergeInOrder` does of memory; a zero written takes one of the two pairs away, and
the other one shows. -/

namespace Sys2Proof.Machine

open Sys2Proof.Claim

/-- COPY of one byte from 0x100 to 0x1000, its clause sealed. -/
def byteCopy : Cmd :=
  { newCmd State.reset 0 0 1 (BitVec.ofNat 1024 (1 + 2 ^ 4 + (1 + 2 ^ 32) * 2 ^ 320 + (1 + 2 ^ 32) * 2 ^ 384)) Knots.reset none with
    src := 0x100, dst := 0x1000 }

/-- The copy may start; core scratchpad lists address 0x1000 twice and address 0x100, whose byte is then 0, not at all. -/
def twiceListed : State :=
  { State.reset with
    now := 100
    core := { State.reset.core with cmds := [byteCopy], spad := [(0x1000, 7), (0x1000, 9)] } }

theorem starts_byteCopy : Starts twiceListed 0 1 1 byteCopy :=
  ⟨by decide +kernel, rfl, by decide +kernel, by decide +kernel, by decide +kernel, rfl, rfl, by decide⟩

theorem inCore_byteCopy : InCore byteCopy (tDsp byteCopy.tmpl) (copyDst twiceListed byteCopy) ∧
    InCore byteCopy (tSsp byteCopy.tmpl) (copySrc twiceListed byteCopy) := by decide +kernel

theorem exec_byteCopy : exec (.copy 0) twiceListed = .next (finishRun (runCopy (begun twiceListed byteCopy))) := by
  obtain ⟨hfind, heng, hop, hready, hover, -⟩ := starts_byteCopy
  simp [exec_copy, execCopy, startCmd, hfind, heng, hop, hready, hover]

/-- The byte at 0x100, which the statement wants at 0x1000. -/
theorem copied_byteCopy : copied (copySrc twiceListed byteCopy) (copyDst twiceListed byteCopy) (tEsz byteCopy.tmpl)
    (copyCount byteCopy.tmpl) (spadByte twiceListed) (0x1000 : Nat) = 0 := by decide +kernel

/-- Writing that 0 has removed the pair (0x1000, 7), and the pair (0x1000, 9) is read. -/
theorem spadByte_byteCopy : spadByte (finishRun (runCopy (begun twiceListed byteCopy))) (0x1000 : Nat) = 9 := by decide +kernel

/-- Refutes O29: its part `CopiesMove` fails for a core scratchpad that is not in canonical form. In `twiceListed` a COPY of the byte 0
from 0x100 to 0x1000 may start and runs, and the byte at 0x1000 is 9 after it. -/
theorem not_engineCommandsRunAndRetire : ¬ Obligations.EngineCommandsRunAndRetire := by
  rintro ⟨-, -, hcopies, -, -⟩
  obtain ⟨hwithin, -⟩ := hcopies Instr.copy 1 (by simp) twiceListed 0 byteCopy starts_byteCopy
  obtain ⟨hmoves, -, -⟩ := hwithin inCore_byteCopy.1
  obtain ⟨t, hexec, -, -, hbytes⟩ := hmoves inCore_byteCopy.2
  obtain rfl := Host.Outcome.next.inj (exec_byteCopy.symm.trans hexec)
  have hbyte := hbytes 0x1000
  rw [spadByte_byteCopy, copied_byteCopy] at hbyte
  exact absurd hbyte (by decide)

end Sys2Proof.Machine
end

section
/-! O24: floating point special cases (R105, R111). They hold of every format: nothing below looks at the widths. -/

namespace Sys2Proof.Machine

variable {f : Fmt} {mode : Mode} {rdn : Bool}

/-! ### NaN operands (R105 and R111 items 1, 7 and 8) -/

theorem isNan_iff {a : Num} : isNan a = true ↔ ∃ s, a = .nan s := by
  cases a <;> simp [isNan]

@[simp] theorem isNan_negNum (a : Num) : isNan (negNum a) = isNan a := by cases a <;> rfl

@[simp] theorem isSnan_negNum (a : Num) : isSnan (negNum a) = isSnan a := by cases a <;> rfl

/-- A sum with a NaN operand is a quiet NaN, invalid for a signalling one. -/
theorem addNum_of_isNan {a b : Num} (h : isNan a = true ∨ isNan b = true) :
    addNum rdn a b = (.nan false, isSnan a || isSnan b) := by
  simp only [isNan_iff] at h
  obtain ⟨s, rfl⟩ | ⟨s, rfl⟩ := h
  · rfl
  · cases a <;> simp [addNum, isSnan, Bool.or_comm]

/-- A product with a NaN operand is a quiet NaN, invalid for a signalling one. -/
theorem mulNum_of_isNan {a b : Num} (h : isNan a = true ∨ isNan b = true) :
    mulNum a b = (.nan false, isSnan a || isSnan b) := by
  simp only [isNan_iff] at h
  obtain ⟨s, rfl⟩ | ⟨s, rfl⟩ := h
  · rfl
  · cases a <;> simp [mulNum, isSnan, Bool.or_comm]

/-- A NaN rounds to the default NaN and raises NV where the operation was invalid. -/
theorem finishNum_nan (s invalid : Bool) : finishNum f mode (.nan s, invalid) = (defaultNaN f, flagIf invalid flagNV) := by
  simp [finishNum, roundNum]

theorem ltNum_of_isNan {a b : Num} (h : isNan a = true ∨ isNan b = true) : ltNum a b = false := by
  simp only [isNan_iff] at h
  obtain ⟨s, rfl⟩ | ⟨s, rfl⟩ := h
  · cases b <;> rfl
  · rcases a with _ | (_ | _) | _ <;> simp [ltNum, isNan]

theorem eqNum_of_isNan {a b : Num} (h : isNan a = true ∨ isNan b = true) : eqNum a b = false := by
  simp only [isNan_iff] at h
  obtain ⟨s, rfl⟩ | ⟨s, rfl⟩ := h
  · cases b <;> rfl
  · cases a <;> rfl

section
variable {x y : Nat} (h : isNan (decodeNum f x) = true ∨ isNan (decodeNum f y) = true)
include h

theorem fAdd_of_isNan : fAdd f mode x y =
    (defaultNaN f, flagIf (isSnan (decodeNum f x) || isSnan (decodeNum f y)) flagNV) := by
  rw [fAdd, addNum_of_isNan h, finishNum_nan]

theorem fSub_of_isNan : fSub f mode x y =
    (defaultNaN f, flagIf (isSnan (decodeNum f x) || isSnan (decodeNum f y)) flagNV) := by
  rw [fSub, addNum_of_isNan (by simpa using h), finishNum_nan, isSnan_negNum]

theorem fMul_of_isNan : fMul f mode x y =
    (defaultNaN f, flagIf (isSnan (decodeNum f x) || isSnan (decodeNum f y)) flagNV) := by
  rw [fMul, mulNum_of_isNan h, finishNum_nan]

theorem fEq_of_isNan : fEq f x y = (false, flagIf (isSnan (decodeNum f x) || isSnan (decodeNum f y)) flagNV) := by
  simp only [fEq, eqNum_of_isNan h]

theorem fLt_of_isNan : fLt f x y = (false, flagNV) := by
  simp only [fLt, ltNum_of_isNan h, Bool.or_eq_true_iff.mpr h, flagIf, if_true]

theorem fLe_of_isNan : fLe f x y = (false, flagNV) := by
  simp only [fLe, ltNum_of_isNan h, eqNum_of_isNan h, Bool.or_self, Bool.or_eq_true_iff.mpr h, flagIf, if_true]

end

/-- Of a NaN and a number VMIN and VMAX give the number, on whichever side it stands. -/
theorem fMinMax_of_one_isNan {x y : Nat} (big : Bool) (hx : isNan (decodeNum f x) = true) (hy : isNan (decodeNum f y) = false) :
    (fMinMax f big x y).1 = y ∧ (fMinMax f big y x).1 = y := by
  simp [fMinMax, hx, hy]

theorem fMinMax_of_both_isNan {x y : Nat} (big : Bool) (hx : isNan (decodeNum f x) = true) (hy : isNan (decodeNum f y) = true) :
    (fMinMax f big x y).1 = defaultNaN f := by
  simp [fMinMax, hx, hy]

/-! ### An exact zero difference (R111 item 6) -/

/-- A significand and its negative at one exponent cancel. -/
theorem atExp_add_not (n : Bool) (m : Nat) (e u : Int) : atExp n m e u + atExp (!n) m e u = 0 := by
  cases n <;> simp [atExp]

theorem addFin_not (n : Bool) (m : Nat) (e : Int) : addFin rdn n m e (!n) m e = .fin rdn 0 0 := by
  simp [addFin, atExp_add_not]

/-- A zero is exact: it keeps its sign and raises no flag. -/
theorem finishNum_zero (n : Bool) (e : Int) : finishNum f mode (.fin n 0 e, false) = (signBit f n, 0) := by
  simp [finishNum, roundNum, roundFin, flagIf]

theorem fAdd_of_opposite {x y m : Nat} {n : Bool} {e : Int} (hx : decodeNum f x = .fin n m e) (hy : decodeNum f y = .fin (!n) m e) :
    fAdd f mode x y = (signBit f (decide (mode = 3)), 0) := by
  rw [fAdd, hx, hy, addNum, addFin_not, finishNum_zero]

/-! ### Zero times an infinity (R111 item 2) -/

/-- An invalid operation raises NV, beside what the rounding raises. -/
theorem finishNum_invalid (a : Num) : (finishNum f mode (a, true)).2.getLsbD 4 = true := by
  simp [finishNum, flagIf, flagNV]

/-- The addend does not matter. -/
theorem fmaNum_invalid_of_zero_inf {a b : Num} (ha : isZeroNum a = true) (hb : isInfNum b = true) (c : Num) :
    (fmaNum rdn a b c).2 = true := by
  simp [fmaNum, zeroTimesInf, ha, hb]

theorem fFma_fFms_raise_NV {x y : Nat} (z : Nat) (hx : isZeroNum (decodeNum f x) = true) (hy : isInfNum (decodeNum f y) = true) :
    (fFma f mode x y z).2.getLsbD 4 = true ∧ (fFms f mode x y z).2.getLsbD 4 = true := by
  have hinvalid : ∀ c, (fmaNum (decide (mode = 3)) (decodeNum f x) (decodeNum f y) c).2 = true :=
    fmaNum_invalid_of_zero_inf hx hy
  constructor
  · rw [fFma, ← Prod.mk.eta (p := fmaNum ..), hinvalid]
    exact finishNum_invalid _
  · rw [fFms, hinvalid]
    exact finishNum_invalid _

/-! ### VNEG (R111 item 9) -/

/-- VNEG adds the sign bit modulo the width: adding it once more brings the operand back. -/
theorem fNeg_add_signBit {x : Nat} (h : x < 2 ^ (f.ew + f.fw + 1)) :
    (fNeg f x + 2 ^ (f.ew + f.fw)) % 2 ^ (f.ew + f.fw + 1) = x := by
  rw [fNeg, fAbs, bit]
  generalize f.ew + f.fw = k at *
  rw [Nat.pow_succ] at h ⊢
  by_cases hk : 2 ^ k ≤ x
  · have hlow : x % 2 ^ k = x - 2 ^ k := by rw [Nat.mod_eq_sub_mod hk, Nat.mod_eq_of_lt (by omega)]
    have hbit : x.testBit k = true := Nat.testBit_of_two_pow_le_and_two_pow_add_one_gt hk (by rwa [Nat.pow_succ])
    rw [if_pos hbit, hlow, Nat.sub_add_cancel hk, Nat.mod_eq_of_lt h]
  · have hlt : x < 2 ^ k := Nat.lt_of_not_le hk
    rw [if_neg (by simp [Nat.testBit_lt_two_pow hlt]), Nat.mod_eq_of_lt hlt, Nat.add_assoc, ← Nat.mul_two, Nat.add_mod_right,
      Nat.mod_eq_of_lt h]

/-- Settles O24: each case by the lemma on its operation. -/
theorem floatingPointSpecialCases : Obligations.FloatingPointSpecialCases := by
  intro f mode x y z _
  refine ⟨fun h => ?nan, fun big => fMinMax_of_one_isNan big, fun big => fMinMax_of_both_isNan big,
    fun n m e => fAdd_of_opposite, fFma_fFms_raise_NV z, fun h => ⟨rfl, fNeg_add_signBit h⟩⟩
  case nan => exact ⟨fAdd_of_isNan h, fSub_of_isNan h, fMul_of_isNan h, fEq_of_isNan h, fLt_of_isNan h, fLe_of_isNan h⟩

end Sys2Proof.Machine
end

section
/-! O23: a lane of a row joined from lanes, a position of the flags joined from lanes, and with both the rule of `perLane` (R119, R113). -/

namespace Sys2Proof.Machine

/-! ### The row -/

theorem joinLanes_div_mod (w : Nat) (xs : List Nat) (i : Nat) :
    joinLanes w xs / 2 ^ (w * i) % 2 ^ w = xs.getD i 0 % 2 ^ w := by
  induction xs generalizing i with
  | nil => simp [joinLanes]
  | cons x xs ih =>
    cases i with
    | zero => simp [joinLanes]
    | succ i =>
      have hshift : joinLanes w (x :: xs) / 2 ^ w = joinLanes w xs := by
        rw [joinLanes, Nat.add_mul_div_left _ _ (Nat.two_pow_pos w), Nat.mod_div_self, Nat.zero_add]
      rw [Nat.mul_succ, Nat.add_comm, Nat.pow_add, ← Nat.div_div_eq_div_mul, hshift, ih, List.getD_cons_succ]

/-- A lane that lies whole in the row is the element it was joined from. -/
theorem lane_rowOf {w i : Nat} (h : w * i + w ≤ 1024) (xs : List Nat) : lane w i (rowOf w xs) = xs.getD i 0 % 2 ^ w := by
  rw [lane, bits, rowOf, BitVec.toNat_ofNat, ← joinLanes_div_mod]
  obtain ⟨k, hk⟩ := Nat.exists_eq_add_of_le h
  rw [hk, Nat.add_assoc, Nat.pow_add, Nat.mod_mul_right_div_self, Nat.pow_add, Nat.mod_mul_right_mod]

/-! ### The flags -/

/-- Five bits of VFLAGS belong to one position (R113). -/
theorem getLsbD_flagsAt {p q b : Nat} (f : Flags) (hb : b < 5) (hq : q < 64) :
    (flagsAt p f).getLsbD (5 * q + b) = (decide (q = p) && f.getLsbD b) := by
  rw [flagsAt, BitVec.getLsbD_shiftLeft, BitVec.getLsbD_setWidth]
  obtain hlt | rfl | hgt := Nat.lt_trichotomy q p
  · have : 5 * q + b < 5 * p := by omega
    simp [this, hlt.ne]
  · have : 5 * q + b < 320 := by omega
    have : b < 320 := by omega
    simp [*]
  · have : 5 ≤ 5 * q + b - 5 * p := by omega
    simp [BitVec.getLsbD_of_ge f _ this, hgt.ne']

theorem flagPos_inj {w i j : Nat} : flagPos w i = flagPos w j ↔ i = j := by
  unfold flagPos
  split <;> omega

/-- Before its first lane a list of lanes raises nothing, and each lane raises its own flags at its own position. -/
theorem getLsbD_laneFlags {w k b : Nat} (fs : List Flags) (i : Nat) (hb : b < 5) (hk : flagPos w k < 64) :
    (laneFlags w i fs).getLsbD (5 * flagPos w k + b) = (decide (i ≤ k) && (fs.getD (k - i) 0).getLsbD b) := by
  induction fs generalizing i with
  | nil => simp [laneFlags]
  | cons f fs ih =>
    rw [laneFlags, BitVec.getLsbD_or, getLsbD_flagsAt f hb hk, ih]
    obtain hlt | rfl | hgt := Nat.lt_trichotomy k i
    · simp [flagPos_inj, hlt.ne, hlt.not_ge, (Nat.lt_succ_of_lt hlt).not_ge]
    · simp
    · obtain ⟨d, rfl⟩ := Nat.exists_eq_add_of_lt hgt
      have hsub : i + d + 1 - i = d + 1 ∧ i + d + 1 - (i + 1) = d := by omega
      simp [flagPos_inj, hsub, Nat.succ_le_of_lt hgt, hgt.le, hgt.ne']

/-! ### Lane by lane (R119) -/

theorem lane_perLane {w i : Nat} (hi : i < 1024 / w) (m : BitVec 32) (old : Row) (f : Nat → Nat × Flags) :
    lane w i (perLane w m old f).row = if liveLane w m i then (f i).1 % 2 ^ w else lane w i old := by
  have hfit : w * i + w ≤ 1024 := (Nat.mul_le_mul_left w hi).trans (Nat.mul_div_le 1024 w)
  rw [perLane, lane_rowOf hfit]
  split <;> simp [*, Nat.mod_eq_of_lt (lane_lt w i old)]

theorem flags_perLane {w i b : Nat} (hi : i < 1024 / w) (hp : flagPos w i < 64) (hb : b < 5) (m : BitVec 32) (old : Row)
    (f : Nat → Nat × Flags) :
    (perLane w m old f).flags.getLsbD (5 * flagPos w i + b) = (liveLane w m i && (f i).2.getLsbD b) := by
  rw [perLane, getLsbD_laneFlags _ 0 hb hp]
  cases hl : liveLane w m i <;> simp [hi, hl]

/-- The flags of a 32-bit lane stand in the even positions, ten bits apart (R113). -/
theorem flags_perLane_32 {i b : Nat} (hi : i < 32) (hb : b < 5) (m : BitVec 32) (old : Row) (f : Nat → Nat × Flags) :
    (perLane 32 m old f).flags.getLsbD (10 * i + b) = (m.getLsbD i && (f i).2.getLsbD b) := by
  have hpos : flagPos 32 i = 2 * i := if_pos rfl
  have hflags := flags_perLane (w := 32) (i := i) (by omega) (by omega) hb m old f
  rwa [hpos, ← Nat.mul_assoc] at hflags

/-- Settles O23: the rows by the rule of a lane, the flags by the rule of a 32-bit lane's position. -/
theorem maskedLanesKeepTheOldValue : Obligations.MaskedLanesKeepTheOldValue := by
  intro m old f
  refine ⟨fun i hi => ?row32, fun i hi => ?row16, fun i hi hdead b hb => ?dead, fun i hi hlive b hb => ?live⟩
  case row32 => exact lane_perLane (w := 32) hi m old f
  case row16 => exact lane_perLane (w := 16) hi m old f
  case dead => rw [flags_perLane_32 hi hb, hdead, Bool.false_and]
  case live => rw [flags_perLane_32 hi hb, hlive, Bool.true_and]

end Sys2Proof.Machine
end

section
/-! What the engine words of voice C note beside a control state, and O26: CWAIT, CDISC and CRD (R145 to R147, R182, R242). -/

namespace Sys2Proof.Machine

open Sys2Proof.Claim

/-! ### Words of major ENG -/

section
variable {s : State} {i : Instr} {sb : BitVec 1} {p : BitVec 3} {body : Here → State → Res} (hm : MayIssue s sb p .c)
  (hi : exec i s = engWord sb p body s)
include hm hi

theorem engWord_stalls {yields : Bool} (hb : body (hereOf s) s = .stall yields s) : Stalls s i yields := word_stalls hm hi hb

theorem engWord_traps {cause : Nat} {fault : Word} {u : State} (hb : body (hereOf s) s = .trap cause fault u) :
    Traps s i cause fault u := word_traps hm hi hb

theorem engWord_completes {d : Doing} {u : State} (hb : body (hereOf s) s = .retire d.flow d.closes u) (hn : Near s u d)
    (hd : d.mark = .issued) : Completes i s d := word_completes hm hi hb hn hd
end

/-! ### Notes beside the control state -/

/-- The rows beyond correction, the consumed commands and the next number are no part of what a word does. -/
theorem near_notes {s u : State} {d : Doing} (hn : Near s u d) (rows : List (Nat × Nat)) (seen : List (Nat × Nat)) {n : Nat}
    (hid : u.core.nextId ≤ n) :
    Near s { u with core := { u.core with badRows := rows, consumed := seen, nextId := n } } d where
  arch := hn.arch
  clause := hn.clause
  ids := hn.ids.trans hid
  voices := hn.voices
  slot := hn.slot
  array := hn.array
  memory := hn.memory
  traced := hn.traced
  ctl := hn.ctl
  canon := hn.canon
  held := hn.held
  order := hn.order
  cluster := hn.cluster
  around := hn.around

theorem near_noteConsumed {s u : State} {d : Doing} (hn : Near s u d) (ids : List Nat) : Near s (noteConsumed u ids) d :=
  near_notes hn _ _ (Nat.le_succ _)

/-! ### Counters -/

theorem counterDiscard_eq (x : Counter) (n : Nat) : counterDiscard x n = counterLess x n := by
  have hdrop : x.arrived.drop (min n x.arrived.length) = x.arrived.drop n := by
    rcases Nat.le_total n x.arrived.length with h | h
    · rw [Nat.min_eq_left h]
    · rw [Nat.min_eq_right h, List.drop_length, List.drop_eq_nil_of_le h]
  have hrest : n - min n x.arrived.length = n - x.arrived.length := by omega
  simp only [counterDiscard, counterLess, hdrop, hrest]

section
variable {s : State} {sb : BitVec 1} {p k : BitVec 3} {n : BitVec 10} {d : BitVec 5} (hm : MayIssue s sb p .c)
include hm

theorem cwait_stalls (hn : (counterOf s k).arrived.length < n.toNat) : Stalls s (.cwait sb p k n) true :=
  engWord_stalls hm (exec_cwait ..) (if_pos hn)

theorem cwait_takes (hn : n.toNat ≤ (counterOf s k).arrived.length)
    (hf : oldestFault ((counterOf s k).arrived.take n.toNat) = none) :
    Completes (.cwait sb p k n) s { ctl := fun c => setCounter c k.toNat (counterTaken (getCounter c k.toNat) n.toNat) } := by
  refine engWord_completes hm (exec_cwait ..) ?_ (near_noteConsumed
    (near_change (near_refl s) (.ccTake k.toNat n.toNat) rfl fun _ => rfl)
    (((counterOf s k).arrived.take n.toNat).map (fun a => a.cmd))) rfl
  simp only [Nat.not_lt.mpr hn, if_false, hf]

theorem cwait_traps {cause bad : Nat} (hn : n.toNat ≤ (counterOf s k).arrived.length)
    (hf : oldestFault ((counterOf s k).arrived.take n.toNat) = some (cause, bad)) :
    Traps s (.cwait sb p k n) cause (mod64 bad) s := by
  refine engWord_traps hm (exec_cwait ..) ?_
  simp only [Nat.not_lt.mpr hn, if_false, hf]
  rfl

theorem cdisc_discards :
    Completes (.cdisc sb p k n) s { ctl := fun c => setCounter c k.toNat (counterLess (getCounter c k.toNat) n.toNat) } :=
  engWord_completes hm (exec_cdisc ..) rfl (near_change (near_refl s) (.ccDiscard k.toNat n.toNat)
    (by simp only [applyCtl, counterDiscard_eq]; rfl) fun _ => rfl) rfl

theorem crd_reads (hr : Room s [⟨.s d.toNat, row64 (counterWord (counterOf s k)), 2⟩]) :
    Completes (.crd sb p d k) s
      { writes := [⟨.s d.toNat, row64 (counterWord (counterOf s k)), 2⟩],
        ctl := fun c => if (counterOf s k).exc then setCounter c k.toNat (counterClear (getCounter c k.toNat)) else c } := by
  obtain ⟨u, hgo, hu, -⟩ := withWrites_did (go := fun x => .retire .seq false
    (if (counterOf s k).exc then changeAt x (hereOf s) (.ccExcClr k.toNat) else x)) hr (near_refl s) rfl rfl
  refine engWord_completes hm (exec_crd ..) hgo ?_ rfl
  cases hexc : (counterOf s k).exc
  · exact hu
  · exact near_change hu (.ccExcClr k.toNat) rfl fun _ => rfl
end

/-- Settles O26: each word by its lemmas. -/
theorem completionCountersAreWaitedOnAndRead : Obligations.CompletionCountersAreWaitedOnAndRead :=
  fun _ _ _ _ _ _ hm => ⟨cwait_stalls hm, fun hn => ⟨cwait_takes hm hn, fun _ _ => cwait_traps hm hn⟩, cdisc_discards hm, crd_reads hm⟩

end Sys2Proof.Machine
end

section
/-! O27: RNGSET and PUBLISH (R98, R148, R150), KSET and KATCMP (R158, R159, R169). -/

namespace Sys2Proof.Machine

open Sys2Proof.Claim

/-! ### RNGSET and PUBLISH (R148, R150) -/

/-- The ring RNGSET makes: its fields are those of the base and of the configuration, its head is 0. -/
theorem ringConfig_fields {y : Slot} {base cfg : Nat} {g : Ring} (h : ringConfig y base cfg = some g) :
    g.head = 0 ∧ g.base = base ∧ g.lgsize = cfg % 32 ∧ g.lgrow = cfg / 2 ^ 8 % 32 ∧ g.tail = cfg / 2 ^ 32 % 2 ^ 20 := by
  simp only [ringConfig] at h
  split at h
  · obtain rfl := Option.some.inj h
    exact ⟨rfl, rfl, by simp [bits], rfl, rfl⟩
  · cases h

section
variable {s : State} {sb : BitVec 1} {p : BitVec 3} {k : BitVec 4} {a b : BitVec 5} (hm : MayIssue s sb p .c)
include hm

theorem rngset_stalls (hu : ringInUse s (hereOf s).k k.toNat = true) : Stalls s (.rngset sb p k a b) false :=
  engWord_stalls hm (exec_rngset ..) (if_pos hu)

section
variable (hu : ringInUse s (hereOf s).k k.toNat = false)
include hu

theorem rngset_traps (hg : ringConfig (slotAt s (hereOf s)) (visS (me s) a).toNat (visS (me s) b).toNat = none) :
    Traps s (.rngset sb p k a b) 0x0B (visS (me s) a) s := by
  refine engWord_traps hm (exec_rngset ..) ?_
  simp only [hu, hg]
  rfl

/-- The tail advances still held keep to the ring as it was, and the change is made to the state that holds them so (log entry 33). -/
theorem rngset_sets {g : Ring} (hg : ringConfig (slotAt s (hereOf s)) (visS (me s) a).toNat (visS (me s) b).toNat = some g) :
    ∃ t, exec (.rngset sb p k a b) s = .next t ∧
      Did (retireTails s (hereOf s).k k.toNat) t { ctl := fun c => setRing c k.toNat g } := by
  have hbody : exec (.rngset sb p k a b) s =
      .next (retire (hereOf s) .seq false (changeAt (retireTails s (hereOf s).k k.toNat) (hereOf s) (.ringSet k.toNat g))) := by
    rw [exec_rngset, execRngset, engWord, word_takes hm]
    simp only [hu, hg]
    rfl
  exact ⟨_, hbody, did_retire (near_change (near_refl (retireTails s (hereOf s).k k.toNat)) (.ringSet k.toNat g) rfl fun _ => rfl) rfl⟩
end

theorem publish_holds (hv : (pubOf (slotAt s (hereOf s)) k.toNat).valid = true) :
    Completes (.publish sb p k) s { held := [.publish k.toNat] } :=
  engWord_completes hm (exec_publish ..) (if_pos hv) (near_hold (near_refl s) _ rfl rfl) rfl

theorem publish_traps (hv : (pubOf (slotAt s (hereOf s)) k.toNat).valid = false) :
    Traps s (.publish sb p k) 0x0B (mod64 (0x01000000 + k.toNat * 0x100000)) s :=
  engWord_traps hm (exec_publish ..) (if_neg (by simp [hv]))
end

/-! ### KSET and KATCMP (R159, R169) -/

section
variable {s : State} {sb : BitVec 1} {p : BitVec 3} {k : BitVec 3} {a : BitVec 5} (hm : MayIssue s sb p .c)
include hm

theorem kset_sets (hk : knotAllowed k.toNat (visS (me s) a) = true) :
    Completes (.kset sb p k a) s { knots := fun n => applyKnots n (.knotSet k.toNat ((visS (me s) a).setWidth 32)) } :=
  engWord_completes hm (exec_kset ..) (if_pos hk) (near_change (near_refl s) (.knotSet _ _) rfl fun _ => rfl) rfl

theorem kset_traps (hk : knotAllowed k.toNat (visS (me s) a) = false) : Traps s (.kset sb p k a) 0x10 0 s :=
  engWord_traps hm (exec_kset ..) (if_neg (by simp [hk]))

theorem katcmp_stalls (hd : digestComing s (hereOf s).k k.toNat = true) : Stalls s (.katcmp sb p k a) true :=
  engWord_stalls hm (exec_katcmp ..) (if_pos hd)

variable (hd : digestComing s (hereOf s).k k.toNat = false)
include hd

theorem katcmp_clears (hx : mfind (ctlOf s).digests k.toNat = some (visS (me s) a)) :
    Completes (.katcmp sb p k a) s { ctl := fun c => { c with digests := mdel c.digests k.toNat } } := by
  refine engWord_completes hm (exec_katcmp ..) ?_ (near_change (near_refl s) (.digClr k.toNat) rfl fun _ => rfl) rfl
  simp only [hd, hx]
  rfl

theorem katcmp_fences (hx : mfind (ctlOf s).digests k.toNat ≠ some (visS (me s) a)) (ho : othersIssued s (hereOf s) = false) :
    exec (.katcmp sb p k a) s = .next (setMark
      (silentError s (hereOf s).k (mfind (ctlOf s).digests k.toNat) (visS (me s) a) k.toNat) (hereOf s) .trapped) := by
  rw [exec_katcmp, execKatcmp, engWord, word_takes hm]
  simp only [hd, if_neg hx, Bool.false_eq_true, if_false, finish, ho]
end

/-! ### The knot registers (R158, R159) -/

/-- KRD reads what KSET has set: the register's bits of it, zero-extended. -/
theorem knotRead_knotSet (n : Knots) (x : BitVec 32) :
    knotRead (applyKnots n (.knotSet 0 x)) 0 = x.setWidth 64 ∧ knotRead (applyKnots n (.knotSet 1 x)) 1 = x.setWidth 64 ∧
      knotRead (applyKnots n (.knotSet 2 x)) 2 = x.setWidth 64 ∧ knotRead (applyKnots n (.knotSet 3 x)) 3 = mod64 (x.toNat % 16) ∧
      knotRead (applyKnots n (.knotSet 4 x)) 4 = mod64 (x.toNat % 4) ∧ knotRead (applyKnots n (.knotSet 5 x)) 5 = x.setWidth 64 := by
  have hnarrow : ∀ w, (x.setWidth w).setWidth 64 = mod64 (x.toNat % 2 ^ w) := fun w => by
    rw [mod64, ← BitVec.toNat_setWidth, BitVec.ofNat_toNat]
  exact ⟨rfl, rfl, rfl, hnarrow 4, hnarrow 2, rfl⟩

/-- Settles O27: each word by its lemmas, the knot registers by reading what was set. -/
theorem ringsBuffersKnotsAndDigests : Obligations.RingsBuffersKnotsAndDigests := by
  refine ⟨fun s sb p k a b hm => ⟨rngset_stalls hm, fun hu => ⟨rngset_traps hm hu, fun g hg => ?ring⟩, publish_holds hm, publish_traps hm⟩,
    fun s sb p k a hm => ⟨kset_sets hm, kset_traps hm, katcmp_stalls hm, fun hd => ⟨katcmp_clears hm hd, katcmp_fences hm hd⟩⟩,
    knotRead_knotSet⟩
  case ring =>
    obtain ⟨hhead, hbase, hsize, hrow, htail⟩ := ringConfig_fields hg
    exact ⟨hhead, hbase, hsize, hrow, htail, rngset_sets hm hu hg⟩

end Sys2Proof.Machine
end

section
/-! O28: the window of a scatter command merges into the cluster scratchpad, word by word (R167, R196). -/

namespace Sys2Proof.Machine

open Sys2Proof.Claim

section
variable {t : BitVec 1024} {w : List (Nat × BitVec 32)} {s : State} {offs : List Nat} {off : Nat} {x : State × Bool}

/-! ### The words a window names -/

/-- The distinct words of a window, in the order in which they merge. -/
def windowWords (w : List (Nat × BitVec 32)) : List Nat := (dedup (w.map (fun e => e.1)).reverse).reverse

theorem mem_windowWords : off ∈ windowWords w ↔ ∃ e ∈ w, e.1 = off := by
  rw [windowWords, List.mem_reverse, mem_dedup, List.mem_reverse, List.mem_map]

theorem nodup_windowWords (w : List (Nat × BitVec 32)) : (windowWords w).Nodup := List.nodup_reverse.mpr (nodup_dedup _)

/-- The window has a value for a word exactly if it names it. -/
theorem windowValue_eq_none : windowValue t w off = none ↔ off ∉ windowWords w := by
  rw [mem_windowWords, windowValue]
  split
  · next hnil =>
    have hno := List.filter_eq_nil_iff.mp (List.map_eq_nil_iff.mp hnil)
    exact iff_of_true rfl fun ⟨e, he, hoff⟩ => hno e he (decide_eq_true hoff)
  · next v r hcons =>
    obtain ⟨e, he, -⟩ := List.mem_map.mp (hcons ▸ List.mem_cons_self (a := v) (l := r))
    obtain ⟨he, hoff⟩ := List.mem_filter.mp he
    exact iff_of_false (Option.some_ne_none _) (not_not.mpr ⟨e, he, of_decide_eq_true hoff⟩)

theorem windowValue_of_mem (h : off ∈ windowWords w) : ∃ v, windowValue t w off = some v :=
  Option.ne_none_iff_exists'.mp fun hnone => windowValue_eq_none.mp hnone h

theorem mem_of_windowValue {v : BitVec 32} (h : windowValue t w off = some v) : off ∈ windowWords w := by
  by_contra hno
  rw [windowValue_eq_none.mpr hno] at h
  cases h

/-- Distinct words that lie alike within four bytes do not overlap. -/
theorem windowWords_apart (h : ∀ e ∈ w, ∀ f ∈ w, e.1 % 4 = f.1 % 4) :
    (windowWords w).Pairwise (fun a b => a + 4 ≤ b ∨ b + 4 ≤ a) := by
  refine (nodup_windowWords w).imp_of_mem fun ha hb hne => ?_
  obtain ⟨e, he, rfl⟩ := mem_windowWords.mp ha
  obtain ⟨f, hf, rfl⟩ := mem_windowWords.mp hb
  have := h e he f hf
  omega

/-! ### One word merges -/

/-- A word of the cluster scratchpad. -/
def spkWord (s : State) (off : Nat) : BitVec 32 := BitVec.ofNat 32 (leNat (readMem s (spkAddr s off) 4))

/-- What a word that the window names holds once it has merged. -/
def wordAfter (t : BitVec 1024) (w : List (Nat × BitVec 32)) (s : State) (off : Nat) : BitVec 32 :=
  mergeOp t (spkWord s off) ((windowValue t w off).getD 0)

/-- A merged value that EXC tells of (R157). -/
def wordExc (t : BitVec 1024) (w : List (Nat × BitVec 32)) (s : State) (off : Nat) : Bool :=
  decide (tVf t = 0) && exceptional (wordAfter t w s off).toNat

theorem mergeWord_of_mem (h : off ∈ windowWords w) : mergeWord t w x off =
    (writeMem x.1 (spkAddr x.1 off) (leBytes 4 (wordAfter t w x.1 off).toNat), x.2 || wordExc t w x.1 off) := by
  cases hvs : (w.filter (fun e => decide (e.1 = off))).map (fun e => e.2) with
  | nil =>
    have hnone : windowValue t w off = none := by simp only [windowValue, hvs]
    exact absurd h (windowValue_eq_none.mp hnone)
  | cons v r =>
    have hv : windowValue t w off = some (r.foldl (mergeOp t) v) := by simp only [windowValue, hvs]
    simp only [mergeWord, hvs, wordExc, wordAfter, spkWord, hv, Option.getD_some]

/-! ### The window merges -/

/-- From `s` the words `offs` of a window have merged, each from what it held in `s`. -/
structure WordsMerged (t : BitVec 1024) (w : List (Nat × BitVec 32)) (s : State) (offs : List Nat) (x : State × Bool) : Prop where
  core : x.1.core = s.core
  cluster : x.1.cluster = s.cluster
  contexts : x.1.pkg.contexts = s.pkg.contexts
  wf : memWf x.1.pkg.mem = true
  words : ∀ o ∈ offs, readMem x.1 (spkAddr s o) 4 = leBytes 4 (wordAfter t w s o).toNat
  rest : ∀ a, (∀ o ∈ offs, a < spkAddr s o ∨ spkAddr s o + 4 ≤ a) → sget x.1.pkg.mem a = sget s.pkg.mem a
  exc : x.2 = offs.any (wordExc t w s)

theorem wordsMerged_nil (hw : memWf s.pkg.mem = true) : WordsMerged t w s [] (s, false) where
  core := rfl
  cluster := rfl
  contexts := rfl
  wf := hw
  words := fun _ h => absurd h List.not_mem_nil
  rest := fun _ _ => rfl
  exc := rfl

theorem spkAddr_of_wordsMerged (h : WordsMerged t w s offs x) (o : Nat) : spkAddr x.1 o = spkAddr s o := by
  rw [spkAddr, h.cluster, spkAddr]

/-- A word apart from those that have merged is as it was. -/
theorem spkWord_of_wordsMerged (h : WordsMerged t w s offs x) (hap : ∀ o ∈ offs, o + 4 ≤ off ∨ off + 4 ≤ o) :
    spkWord x.1 off = spkWord s off := by
  have hread : readMem x.1 (spkAddr s off) 4 = readMem s (spkAddr s off) 4 :=
    readBytes_congr fun i hi => h.rest _ fun o ho => by
      have := hap o ho
      simp only [spkAddr]
      omega
  rw [spkWord, spkAddr_of_wordsMerged h, hread, spkWord]

/-- One word more, apart from those before it. -/
theorem wordsMerged_snoc (h : WordsMerged t w s offs x) (hoff : off ∈ windowWords w)
    (hap : ∀ o ∈ offs, o + 4 ≤ off ∨ off + 4 ≤ o) : WordsMerged t w s (offs ++ [off]) (mergeWord t w x off) := by
  have hword : wordAfter t w x.1 off = wordAfter t w s off := by rw [wordAfter, spkWord_of_wordsMerged h hap, wordAfter]
  rw [mergeWord_of_mem hoff, wordExc, hword, spkAddr_of_wordsMerged h]
  have hin : readBytes (writeBytes x.1.pkg.mem (spkAddr s off) (leBytes 4 (wordAfter t w s off).toNat)) (spkAddr s off) 4 =
      leBytes 4 (wordAfter t w s off).toNat := by
    simpa using readBytes_writeBytes h.wf (spkAddr s off) (leBytes 4 (wordAfter t w s off).toNat)
  have hout : ∀ {a}, a < spkAddr s off ∨ spkAddr s off + 4 ≤ a →
      sget (writeBytes x.1.pkg.mem (spkAddr s off) (leBytes 4 (wordAfter t w s off).toNat)) a = sget x.1.pkg.mem a :=
    fun ha => sget_writeBytes_out h.wf _ _ (by simpa using ha)
  refine ⟨h.core, h.cluster, h.contexts, memWf_writeBytes h.wf _ _, fun o ho => ?words, fun a ha => ?rest, ?exc⟩
  case words =>
    obtain ho | rfl : o ∈ offs ∨ o = off := by simpa using ho
    · refine (readBytes_congr fun i hi => hout ?_).trans (h.words o ho)
      have := hap o ho
      simp only [spkAddr]
      omega
    · exact hin
  case rest =>
    rw [← h.rest a fun o ho => ha o (List.mem_append_left _ ho)]
    exact hout (ha off (List.mem_append_right _ (List.mem_singleton_self off)))
  case exc => simp [h.exc, wordExc]

theorem wordsMerged_foldl (hw : memWf s.pkg.mem = true) (hoffs : ∀ o ∈ offs, o ∈ windowWords w)
    (hap : offs.Pairwise (fun a b => a + 4 ≤ b ∨ b + 4 ≤ a)) :
    WordsMerged t w s offs (offs.foldl (mergeWord t w) (s, false)) := by
  induction offs using List.reverseRecOn with
  | nil => exact wordsMerged_nil hw
  | append_singleton os o ih =>
    obtain ⟨hos, -, ho⟩ := List.pairwise_append.mp hap
    rw [List.foldl_append]
    exact wordsMerged_snoc (ih (fun q hq => hoffs q (List.mem_append_left _ hq)) hos)
      (hoffs o (List.mem_append_right _ (List.mem_singleton_self o))) fun q hq => ho q hq o (List.mem_singleton_self o)

/-- EXC tells of a NaN or an infinity among the words as they have become (R157). -/
theorem exc_of_wordsMerged (h : WordsMerged t w s (windowWords w) x) :
    x.2 = true ↔ tVf t = 0 ∧ ∃ e ∈ w, exceptional (leNat (readMem x.1 (spkAddr s e.1) 4)) = true := by
  have hafter : ∀ e ∈ w, leNat (readMem x.1 (spkAddr s e.1) 4) = (wordAfter t w s e.1).toNat := fun e he => by
    rw [h.words e.1 (mem_windowWords.mpr ⟨e, he, rfl⟩), leNat_leBytes]
    exact Nat.mod_eq_of_lt (wordAfter t w s e.1).isLt
  simp only [h.exc, List.any_eq_true, wordExc, Bool.and_eq_true, decide_eq_true_eq]
  constructor
  · rintro ⟨o, ho, hvf, hexc⟩
    obtain ⟨e, he, rfl⟩ := mem_windowWords.mp ho
    exact ⟨hvf, e, he, (hafter e he).symm ▸ hexc⟩
  · rintro ⟨hvf, e, he, hexc⟩
    exact ⟨e.1, mem_windowWords.mpr ⟨e, he, rfl⟩, hvf, hafter e he ▸ hexc⟩

/-! ### The command -/

/-- The command of a number is found where it has been put. -/
theorem findCmd_putCmd {id : Nat} {m n : Cmd} (h : findCmd s id = some m) (hn : n.id = m.id) : findCmd (putCmd s n) id = some n := by
  have hid : m.id = id := by simpa using findFirst_some h
  have hput : ∀ o : Cmd, decide ((if o.id = n.id then n else o).id = id) = decide (o.id = id) := by
    intro o
    split
    · next ho => rw [ho]
    · rfl
  rw [findCmd, putCmd, findFirst_map hput]
  rw [findCmd] at h
  simp [h, hn]

/-- The state once the window has merged and is gone. -/
def windowMerged (s : State) (m : Cmd) (w : List (Nat × BitVec 32)) (rest : List (List (Nat × BitVec 32))) : State :=
  let x := (windowWords w).foldl (mergeWord m.tmpl w) (s, false)
  putCmd x.1 { m with windows := rest, merged := m.merged + 1, exc := m.exc || x.2 }

/-- In the core only the commands have changed. -/
theorem core_putCmd_of_wordsMerged (h : WordsMerged t w s offs x) (n : Cmd) :
    (putCmd x.1 n).core = { s.core with cmds := (putCmd x.1 n).core.cmds } := by rw [← h.core]; rfl

section
variable {id : Nat} {m : Cmd} {rest : List (List (Nat × BitVec 32))} (hm : findCmd s id = some m)
include hm

theorem scatterWindow_waits (hr : windowReady s id = false) : exec (.scatterWindow id) s = .next s := by
  simp [exec_scatterWindow, execScatterWindow, hm, hr]

theorem scatterWindow_merges (hr : windowReady s id = true) (hws : m.windows = w :: rest) (hu : Unlogged s m.ctx)
    (hx : WordsMerged m.tmpl w s (windowWords w) ((windowWords w).foldl (mergeWord m.tmpl w) (s, false))) :
    exec (.scatterWindow id) s = .next (windowMerged s m w rest) := by
  have hctx : (windowMerged s m w rest).pkg.contexts = s.pkg.contexts := hx.contexts
  have hdrain : drainLog (windowMerged s m w rest) m.ctx = windowMerged s m w rest :=
    drainLog_nothing (by rw [getCtx, hctx]; exact hu.2)
  simp only [exec_scatterWindow, execScatterWindow, hm, hr, hws, gated, replayGate_unlogged hu.1]
  exact congrArg Host.Outcome.next hdrain
end

end

/-- Settles O28: the words of a window lie apart, so they merge one after the other, each from what it held before (`wordsMerged_foldl`). -/
theorem scatterWindowsMergeInOrder : Obligations.ScatterWindowsMergeInOrder := by
  refine fun s id m hm => ⟨scatterWindow_waits hm, fun w rest hr hws halike hu hwf => ?_⟩
  have hx : WordsMerged m.tmpl w s (windowWords w) ((windowWords w).foldl (mergeWord m.tmpl w) (s, false)) :=
    wordsMerged_foldl hwf (fun _ h => h) (windowWords_apart halike)
  have hfind : findCmd ((windowWords w).foldl (mergeWord m.tmpl w) (s, false)).1 id = some m := by
    rw [findCmd, hx.core]
    exact hm
  refine ⟨_, scatterWindow_merges hm hr hws hu hx, fun off v hv => ?word, fun a ha => ?other,
    ⟨_, findCmd_putCmd hfind rfl, rfl, rfl, ?exc⟩, ?kept⟩
  case word =>
    refine (hx.words off (mem_of_windowValue hv)).trans ?_
    rw [wordAfter, hv]
    rfl
  case other =>
    refine hx.rest a fun o ho => ?_
    obtain ⟨e, he, rfl⟩ := mem_windowWords.mp ho
    exact ha e he
  case exc =>
    rw [Bool.or_eq_true, exc_of_wordsMerged hx]
    rfl
  case kept =>
    rw [windowMerged]
    simp only [getArch, getVoice, getSlot, KeptArray]
    rw [core_putCmd_of_wordsMerged hx]
    exact ⟨fun _ _ => rfl, rfl, rfl, rfl, rfl, rfl, rfl, rfl⟩

end Sys2Proof.Machine
end

section
/-! A command is put into its engine's queue (R102, R143, R164, R166, R178): what that changes and what it leaves alone. -/

namespace Sys2Proof.Machine

open Sys2Proof.Claim

/-! ### Changes one after the other -/

theorem getCtl_changes (s : State) (k cl : Nat) (cs : List Change) :
    getCtl (changes s k cl cs) k = cs.foldl applyCtl (getCtl s k) := by
  induction cs generalizing s with
  | nil => rfl
  | cons c r ih => rw [changes, ih, getCtl_change, List.foldl_cons]

/-- A change that leaves the counters and the templates alone. -/
def KeepsTemplates (c : Change) : Prop :=
  ∀ x : Ctl, (applyCtl x c).counters = x.counters ∧ (applyCtl x c).templates = x.templates

theorem foldl_keepsTemplates {cs : List Change} (h : ∀ c ∈ cs, KeepsTemplates c) (x : Ctl) :
    (cs.foldl applyCtl x).counters = x.counters ∧ (cs.foldl applyCtl x).templates = x.templates := by
  induction cs generalizing x with
  | nil => exact ⟨rfl, rfl⟩
  | cons c r ih =>
    obtain ⟨hc, ht⟩ := h c List.mem_cons_self x
    obtain ⟨hcr, htr⟩ := ih (fun d hd => h d (List.mem_cons_of_mem c hd)) (applyCtl x c)
    exact ⟨hcr.trans hc, htr.trans ht⟩

/-- The knot registers that the UPK of an enqueued command moves on (R164). -/
def enqueueKnots (s : State) (m0 : Cmd) : List Change :=
  if isArr m0.tmpl 5 ∧ tUpk m0.tmpl = true then upkKnots s.core.ctl.knots else []

/-- What an enqueued command changes beside its counter: its landing slot, the knot registers. -/
def enqueueMoves (s : State) (m0 : Cmd) : List Change :=
  (match rowoutKey m0.tmpl with | some key => [Change.landSet key (.xfer (freshId s) m0.clause)] | none => []) ++ enqueueKnots s m0

theorem keepsTemplates_landSet (key : Nat) (l : Landing) : KeepsTemplates (.landSet key l) := fun _ => ⟨rfl, rfl⟩

theorem keepsTemplates_knotSet (k : Nat) (x : BitVec 32) : KeepsTemplates (.knotSet k x) := fun _ => ⟨rfl, rfl⟩

theorem keepsTemplates_enqueueMoves (s : State) (m0 : Cmd) : ∀ c ∈ enqueueMoves s m0, KeepsTemplates c := by
  intro c hc
  obtain hland | hknots := List.mem_append.mp hc
  · split at hland
    · obtain rfl := List.mem_singleton.mp hland
      exact keepsTemplates_landSet _ _
    · cases hland
  · rw [enqueueKnots] at hknots
    split at hknots
    · simp only [upkKnots, List.mem_cons, List.not_mem_nil, or_false] at hknots
      obtain rfl | rfl | rfl := hknots <;> exact keepsTemplates_knotSet _ _
    · cases hknots

/-! ### The command in its queue -/

/-- The command has joined the queue, and its counter counts it. -/
def joinedQueue (s : State) (m0 : Cmd) : State :=
  traceThread (changes (bumpId { s with core := { s.core with cmds := s.core.cmds ++ [{ m0 with id := freshId s }] } }) m0.slot m0.clause
    (.ccIssue (tCc m0.tmpl) :: enqueueMoves s m0)) m0.slot 3
    [(getSlot s m0.slot).scyc.toNat, m0.eng + tOp m0.tmpl * 2 ^ 4 + tCc m0.tmpl * 2 ^ 12, tTag m0.tmpl]

/-- Where UPK moves the knot registers inside an unsealed clause, their old values are undo data, while there is room for it (R178). -/
theorem enqueueCmd_eq (s : State) (m0 : Cmd) : enqueueCmd s m0 =
    if enqueueKnots s m0 = [] ∨ unsealed s.core m0.clause = false then joinedQueue s m0
    else if s.core.undoUsed + 24 ≤ undoSize then
      putCmd { joinedQueue s m0 with core := { (joinedQueue s m0).core with undoUsed := (joinedQueue s m0).core.undoUsed + 24 } }
        { m0 with id := freshId s, charge := 24 }
    else putCmd (addOverflow (joinedQueue s m0) m0.slot) { m0 with id := freshId s, noUndo := true } := rfl

/-- From `s` to `u` the command `m0` has been put into its engine's queue as `m`, counted on its counter. -/
structure Enqueued (s : State) (m0 : Cmd) (u : State) (m : Cmd) : Prop where
  cmd : m = { m0 with id := s.core.nextId, charge := m.charge, noUndo := m.noUndo }
  cmds : u.core.cmds = s.core.cmds ++ [m]
  counters : (getCtl u m0.slot).counters =
    (setCounter (getCtl s m0.slot) (tCc m0.tmpl) (counterMore (getCounter (getCtl s m0.slot) (tCc m0.tmpl)))).counters
  templates : (getCtl u m0.slot).templates = (getCtl s m0.slot).templates
  archs : ∀ k v, getArch u k v = getArch s k v
  slots : ∀ j, ¬(j = 0 ↔ m0.slot = 0) → getSlot u j = getSlot s j
  thread : (getSlot u m0.slot).thread = (getSlot s m0.slot).thread
  array : KeptArray s u
  held : u.core.held = s.core.held
  spad : u.core.spad = s.core.spad
  pkg : (threadCtx s m0.slot).trace = none → u.pkg = s.pkg

section
variable {s u : State} {m0 m : Cmd}

theorem cmd_of_enqueued (h : Enqueued s m0 u m) : m.id = s.core.nextId ∧ m.slot = m0.slot ∧ m.clause = m0.clause ∧ m.eng = m0.eng ∧
    m.state = m0.state ∧ m.issuedAt = m0.issuedAt ∧ m.knots = m0.knots ∧ m.tmpl = m0.tmpl := by
  rw [h.cmd]
  exact ⟨rfl, rfl, rfl, rfl, rfl, rfl, rfl, rfl⟩

/-- The undo store fills (R178). -/
theorem enqueued_undoUsed (h : Enqueued s m0 u m) (n : Nat) :
    Enqueued s m0 { u with core := { u.core with undoUsed := n } } m :=
  ⟨h.cmd, h.cmds, h.counters, h.templates, h.archs, h.slots, h.thread, h.array, h.held, h.spad, h.pkg⟩

/-- The slot counts a command without undo data (R178). -/
theorem enqueued_overflow (h : Enqueued s m0 u m) : Enqueued s m0 (addOverflow u m0.slot) m where
  cmd := h.cmd
  cmds := by simpa [addOverflow] using h.cmds
  counters := by simpa [addOverflow] using h.counters
  templates := by simpa [addOverflow] using h.templates
  archs := fun k v => (getArch_setSlot_voices (fun w => by cases w <;> rfl) k v).trans (h.archs k v)
  slots := fun j hj => (getSlot_setSlot_other _ _ hj).trans (h.slots j hj)
  thread := by simpa [addOverflow] using h.thread
  array := by simpa [addOverflow, KeptArray] using h.array
  held := by simpa [addOverflow] using h.held
  spad := by simpa [addOverflow] using h.spad
  pkg := by simpa [addOverflow] using h.pkg

/-- The command is put in place of itself. -/
theorem enqueued_putCmd (hids : ∀ o ∈ s.core.cmds, o.id < s.core.nextId) (h : Enqueued s m0 u m) {n : Cmd}
    (hn : n = { m0 with id := s.core.nextId, charge := n.charge, noUndo := n.noUndo }) : Enqueued s m0 (putCmd u n) n where
  cmd := hn
  cmds := by
    have hid : n.id = s.core.nextId := by rw [hn]
    have hmid : m.id = s.core.nextId := by rw [h.cmd]
    have hold : ∀ o ∈ s.core.cmds, (if o.id = n.id then n else o) = o := fun o ho => if_neg (hid ▸ (hids o ho).ne)
    rw [putCmd, h.cmds, List.map_append, List.map_congr_left hold, List.map_id']
    simp [hid, hmid]
  counters := h.counters
  templates := h.templates
  archs := h.archs
  slots := h.slots
  thread := h.thread
  array := h.array
  held := h.held
  spad := h.spad
  pkg := h.pkg

theorem enqueued_joinedQueue (s : State) (m0 : Cmd) : Enqueued s m0 (joinedQueue s m0) { m0 with id := freshId s } where
  cmd := rfl
  cmds := by simp [joinedQueue]
  counters := by
    rw [getCtl, joinedQueue, traceThread_core, ← getCtl, getCtl_changes, List.foldl_cons,
      (foldl_keepsTemplates (keepsTemplates_enqueueMoves s m0) _).1]
    rfl
  templates := by
    rw [getCtl, joinedQueue, traceThread_core, ← getCtl, getCtl_changes, List.foldl_cons,
      (foldl_keepsTemplates (keepsTemplates_enqueueMoves s m0) _).2]
    rfl
  archs := by simp [joinedQueue, getArch, getVoice, getSlot]
  slots := by simp [joinedQueue, getSlot]
  thread := by simp [joinedQueue, getSlot]
  array := by simp [joinedQueue, KeptArray]
  held := by simp [joinedQueue]
  spad := by simp [joinedQueue]
  pkg := fun ht => by
    rw [joinedQueue, traceThread, traceRec_off]
    · simp
    · simpa [threadCtx, getCtx, getSlot] using ht

/-- There is undo data for the knot registers, or the store is full, or none is needed (`enqueueCmd_eq`). -/
theorem enqueueCmd_enqueued (m0 : Cmd) (hids : ∀ o ∈ s.core.cmds, o.id < s.core.nextId) :
    ∃ m, Enqueued s m0 (enqueueCmd s m0) m := by
  rw [enqueueCmd_eq]
  split
  · exact ⟨_, enqueued_joinedQueue s m0⟩
  · split
    · exact ⟨{ m0 with id := freshId s, charge := 24 }, enqueued_putCmd hids (enqueued_undoUsed (enqueued_joinedQueue s m0) _) rfl⟩
    · exact ⟨{ m0 with id := freshId s, noUndo := true }, enqueued_putCmd hids (enqueued_overflow (enqueued_joinedQueue s m0)) rfl⟩
end

end Sys2Proof.Machine
end

section
/-! O25: TPL, PAT and PIS of the three engines (R141 to R143, R182). -/

namespace Sys2Proof.Machine

open Sys2Proof.Claim

/-! ### Words of the three engines, and words without a predicate -/

/-- What holds of a word for each of its engines, copy, array and scatter. -/
theorem of_mem_engines {P : Instr → Nat → Prop} {i c a x : Instr} {eng : Nat} (h : (i, eng) ∈ [(c, 1), (a, 2), (x, 3)])
    (hc : P c 1) (ha : P a 2) (hx : P x 3) : P i eng := by
  simp only [List.mem_cons, Prod.mk.injEq, List.not_mem_nil, or_false] at h
  obtain ⟨rfl, rfl⟩ | ⟨rfl, rfl⟩ | ⟨rfl, rfl⟩ := h
  · exact hc
  · exact ha
  · exact hx

theorem issue_alwaysLive {s : State} {sb : BitVec 1} {body : Here → State → Res} (ht : Takes s sb 0 .c false) (hp : Plain s) :
    issue sb 0 .c false noIll alwaysLive body s = finish (hereOf s) s (body (hereOf s) s) := by
  obtain ⟨hlock, hpair, hvoice, hlevel⟩ := ht
  exact issue_takes hlock hpair rfl hvoice hlevel (.inl ⟨hp.1, rfl⟩)

/-! ### TPL (R141) -/

theorem exec_tplOf {sb : BitVec 1} {p : BitVec 3} {t a : BitVec 5} {tlo : BitVec 1} {i : Instr} {eng : Nat}
    (h : (i, eng) ∈ tplOf sb p t a tlo) (s : State) : exec i s = tplWord sb p eng t a tlo s :=
  of_mem_engines (P := fun j e => exec j s = tplWord sb p e t a tlo s) h rfl rfl rfl

theorem near_mendTemplate {s u : State} {d : Doing} (hn : Near s u d) (k key : Nat) : Near s (mendTemplate u k key) d := by
  rw [mendTemplate]
  split
  · exact hn
  · exact near_notes hn _ _ (Nat.le_refl _)

/-- A template is set. -/
theorem near_tmplSet {s u : State} (hn : Near s u {}) (eng n : Nat) (x : BitVec 1024) :
    Near s (changeAt u (hereOf s) (.tmplSet (tmplKey eng n) x))
      { ctl := fun c => { c with templates := sset c.templates (64 * eng + n) x } } :=
  near_change hn _ rfl fun _ => rfl

section
variable {s : State} {sb : BitVec 1} {p : BitVec 3} {t a : BitVec 5} {tlo : BitVec 1} {i : Instr} {eng : Nat}
  (hi : exec i s = tplWord sb p eng t a tlo s) (hm : MayIssue s sb p .c)
include hi hm

theorem tpl_traps_range {bad : Nat} (hl : spadLoadAddr (slotAt s (hereOf s)) (visS (me s) a).toNat 128 = .error bad) :
    Traps s i 0x0B (visS (me s) a) s := by
  refine engWord_traps hm hi ?_
  simp only [hl]

theorem tpl_traps_unaligned (ha : (visS (me s) a).toNat % 64 ≠ 0) : Traps s i 0x0B (visS (me s) a) s := by
  cases hl : spadLoadAddr (slotAt s (hereOf s)) (visS (me s) a).toNat 128 with
  | error bad => exact tpl_traps_range hi hm hl
  | ok m =>
    refine engWord_traps hm hi ?_
    simp only [hl]
    exact if_pos ha

variable {m : Nat} (hl : spadLoadAddr (slotAt s (hereOf s)) (visS (me s) a).toNat 128 = .ok m)
  (ha : (visS (me s) a).toNat % 64 = 0)
include hl ha

theorem tpl_stalls (hf : spadFenced s (hereOf s).k = true) : Stalls s i false := by
  refine engWord_stalls hm hi ?_
  simp only [hl, withSpadLoad, hf, if_neg (not_not.mpr ha), if_true]

variable (hf : spadFenced s (hereOf s).k = false) (hp : spadPoison s m 128 = none)
include hf hp

theorem tpl_traps_illegal (ht : templateOk (BitVec.ofNat 1024 (leNat (readSpad s m 128))) eng = false) : Traps s i 0x01 0 s := by
  refine engWord_traps hm hi ?_
  simp only [hl, withSpadLoad, hf, hp, ht, if_neg (not_not.mpr ha), Bool.false_eq_true, if_false]

theorem tpl_loads (ht : templateOk (BitVec.ofNat 1024 (leNat (readSpad s m 128))) eng = true) :
    Completes i s
      { ctl := fun c => { c with templates := sset c.templates (64 * eng + (t.toNat + 32 * tlo.toNat)) (withTag
          (BitVec.ofNat 1024 (leNat (readSpad s m 128))) 0) } } := by
  refine engWord_completes hm hi ?_ (near_tmplSet
    (near_mendTemplate (near_deps (near_refl s) (heldClauses s (hereOf s).k false m 128)) (hereOf s).k
      (tmplKey eng (t.toNat + 32 * tlo.toNat))) eng (t.toNat + 32 * tlo.toNat) _) rfl
  simp only [hl, withSpadLoad, hf, hp, ht, if_neg (not_not.mpr ha), Bool.false_eq_true, if_false, if_true]
end

/-! ### PAT (R142) -/

theorem exec_patOf {sb : BitVec 1} {t : BitVec 6} {f : BitVec 3} {v : BitVec 16} {i : Instr} {eng : Nat}
    (h : (i, eng) ∈ patOf sb t f v) (s : State) : exec i s = patWord sb eng t f v s :=
  of_mem_engines (P := fun j e => exec j s = patWord sb e t f v s) h rfl rfl rfl

theorem pat_amends {s : State} {sb : BitVec 1} {t : BitVec 6} {f : BitVec 3} {v : BitVec 16} {i : Instr} {eng : Nat}
    (hi : exec i s = patWord sb eng t f v s) (ht : Takes s sb 0 .c false) (hp : Plain s) :
    Completes i s { ctl := fun c => { c with templates := sset c.templates (64 * eng + t.toNat) (amended s eng t f v) } } := by
  rw [Completes, hi]
  exact issue_did ht rfl (.inl ⟨hp.1, rfl⟩) rfl (near_tmplSet (near_refl s) eng t.toNat (amended s eng t f v)) rfl

/-! ### Retirement behind an enqueued command -/

theorem ctlLike_retire (h : Here) (flow : Flow) (b : Bool) (s : State) (j : Nat) :
    CtlLike (getCtl s j) (getCtl (retire h flow b s) j) := by
  rw [getCtl_retire]
  refine ctlLike_trans ?_ (pmCount_ctl ..).1
  simp [ctlLike_refl]

/-- Status registers are neither counters nor templates. -/
theorem counters_of_ctlLike {a b : Ctl} (h : CtlLike a b) : b.counters = a.counters ∧ b.templates = a.templates := by
  rw [h]
  exact ⟨rfl, rfl⟩

/-- What a word that has enqueued a command and retires leaves alone; the counters and the templates are those it retires with. -/
theorem retire_enqueued {s u z : State} {d : Doing} {m0 m : Cmd} (hn : Near s u d) (he : Enqueued u m0 z m)
    (hslot : m0.slot = (hereOf s).k) (flow : Flow) :
    (getCtl (retire (hereOf s) flow false z) (hereOf s).k).counters = (getCtl z (hereOf s).k).counters ∧
      (getCtl (retire (hereOf s) flow false z) (hereOf s).k).templates = (getCtl z (hereOf s).k).templates ∧
      KeptVoices (hereOf s) s (retire (hereOf s) flow false z) ∧ KeptArray s (retire (hereOf s) flow false z) ∧
      KeptMemory (hereOf s) s (retire (hereOf s) flow false z) := by
  obtain ⟨hcounters, htemplates⟩ := counters_of_ctlLike (ctlLike_retire (hereOf s) flow false z (hereOf s).k)
  refine ⟨hcounters, htemplates, ⟨fun v hv => ?voice, fun j hj => ?slot⟩, ?array, ⟨fun a => ?spad, fun ht => ?pkg⟩⟩
  case voice => rw [getArch, getVoice_retire_ne _ _ _ _ hv, ← getArch, he.archs, hn.voices.1 v hv]
  case slot => rw [getSlot_retire_other _ _ _ _ hj, he.slots j (hslot ▸ hj), hn.voices.2 j hj]
  case array =>
    obtain ⟨hcells, hheaders, hgrads, htiles, haffine⟩ := hn.array
    obtain ⟨ecells, eheaders, egrads, etiles, eaffine⟩ := he.array
    simp [KeptArray, *]
  case spad => rw [retire_core_spad, he.spad, hn.memory.1 a]
  case pkg =>
    have hpkg : z.pkg = u.pkg := he.pkg (hslot ▸ hn.traced ht)
    have htrace : (threadCtx z (hereOf s).k).trace = none := by
      rw [threadCtx, getCtx, hpkg, ← hslot, he.thread, hslot]
      exact hn.traced ht
    rw [retire_pkg _ _ _ _ htrace, hpkg]
    exact hn.memory.2 ht

/-! ### PIS (R142, R143) -/

theorem exec_pisOf {sb : BitVec 1} {t : BitVec 6} {f : BitVec 3} {v : BitVec 16} {i : Instr} {eng : Nat}
    (h : (i, eng) ∈ pisOf sb t f v) (s : State) : exec i s = pisWord sb eng t f v s :=
  of_mem_engines (P := fun j e => exec j s = pisWord sb e t f v s) h rfl rfl rfl

/-- A template of a core whose template rows are all sound is sound (R182). -/
theorem badTemplate_of_sound {s : State} (h : ∀ p ∈ s.core.badRows, p.1 ≠ 7) (k key : Nat) : badTemplate s k key = false := by
  simp only [badTemplate, List.contains_eq_mem, decide_eq_false_iff_not]
  exact fun hmem => h _ hmem rfl

/-- The follow-on of the amended template (R143). -/
def pisFollow (s : State) (eng : Nat) (t : BitVec 6) (f : BitVec 3) (v : BitVec 16) : Option (BitVec 1024) :=
  if isCopyf (amended s eng t f v) then some (followOf (ctlOf s) (amended s eng t f v)) else none

/-- The template amended, and the clauses noted that hold stores to the command's sources (Table 11.1): what PIS enqueues from. -/
def pisNoted (s : State) (eng : Nat) (t : BitVec 6) (f : BitVec 3) (v : BitVec 16) : State :=
  addDeps (changeAt s (hereOf s) (.tmplSet (tmplKey eng t.toNat) (amended s eng t f v))) (hereOf s).k (hereOf s).v
    (sourceClauses s (hereOf s).k (amended s eng t f v) ++
      (match pisFollow s eng t f v with | some g => sourceClauses s (hereOf s).k g | none => []))

/-- The command that PIS enqueues. -/
def pisCmd (s : State) (eng : Nat) (t : BitVec 6) (f : BitVec 3) (v : BitVec 16) : Cmd :=
  newCmd (pisNoted s eng t f v) (hereOf s).k (clauseAt (pisNoted s eng t f v) (hereOf s)) eng (amended s eng t f v) s.core.ctl.knots
    (pisFollow s eng t f v)

section
variable {s : State} {t : BitVec 6} {f : BitVec 3} {v : BitVec 16} {eng : Nat}

theorem near_pisNoted : Near s (pisNoted s eng t f v)
    { ctl := fun c => { c with templates := sset c.templates (64 * eng + t.toNat) (amended s eng t f v) } } :=
  near_deps (near_tmplSet (near_refl s) eng t.toNat (amended s eng t f v)) _

theorem getCtl_pisNoted : getCtl (pisNoted s eng t f v) (hereOf s).k =
    { ctlOf s with templates := sset (ctlOf s).templates (64 * eng + t.toNat) (amended s eng t f v) } := by
  rw [pisNoted, getCtl, addDeps_core_ctl, ← getCtl, changeAt, getCtl_change]
  rfl

/-- The command is queued, with the thread's tag, the word's clause and the knots at issue. -/
theorem pisCmd_fields : (pisCmd s eng t f v).slot = (hereOf s).k ∧ (pisCmd s eng t f v).clause = clauseAt s (hereOf s) ∧
    (pisCmd s eng t f v).eng = eng ∧ (pisCmd s eng t f v).state = .queued ∧ (pisCmd s eng t f v).issuedAt = s.now ∧
    (pisCmd s eng t f v).knots = s.core.ctl.knots ∧
    (pisCmd s eng t f v).tmpl = withTag (amended s eng t f v) (slotAt s (hereOf s)).thread.tag := by
  have hslot : getSlot (pisNoted s eng t f v) (hereOf s).k = slotAt s (hereOf s) := by simp [pisNoted, slotAt, getSlot]
  have hnow : (pisNoted s eng t f v).now = s.now := by simp [pisNoted]
  exact ⟨rfl, near_pisNoted.clause, rfl, rfl, hnow, rfl, by rw [← hslot]; rfl⟩
end

section
variable {s : State} {sb : BitVec 1} {t : BitVec 6} {f : BitVec 3} {v : BitVec 16} {i : Instr} {eng : Nat}
  (hi : exec i s = pisWord sb eng t f v s) (ht : Takes s sb 0 .c false) (hp : Plain s)
include hi ht hp

theorem pis_stalls (hf : engineDepth eng ≤ queuedCmds s eng ∨ slotBusy s (hereOf s).k (amended s eng t f v) = true) :
    Stalls s i false := by
  rw [Stalls, hi, pisWord, issue_alwaysLive ht hp]
  simp only [if_pos hf]
  rfl

variable (hroom : queuedCmds s eng < engineDepth eng) (hb : slotBusy s (hereOf s).k (amended s eng t f v) = false)
include hroom hb

theorem pis_traps {cause : Nat} {bad : Word}
    (hfault : pisFault (ctlOf s) s.core.ctl.knots (slotAt s (hereOf s)) eng (amended s eng t f v) = some (cause, bad)) :
    Traps s i cause bad (changeAt s (hereOf s) (.tmplSet (64 * eng + t.toNat) (amended s eng t f v))) := by
  rw [Traps, hi, pisWord, issue_alwaysLive ht hp]
  simp only [Nat.not_le.mpr hroom, hb, hfault]
  rfl

variable (hfault : pisFault (ctlOf s) s.core.ctl.knots (slotAt s (hereOf s)) eng (amended s eng t f v) = none)
  (hrows : ∀ p ∈ s.core.badRows, p.1 ≠ 7)
include hfault hrows

theorem pis_enqueues :
    exec i s = .next (retire (hereOf s) .seq false (enqueueCmd (pisNoted s eng t f v) (pisCmd s eng t f v))) := by
  rw [hi, pisWord, issue_alwaysLive ht hp]
  simp only [Nat.not_le.mpr hroom, hb, hfault, badTemplate_of_sound hrows, Bool.and_false, Bool.or_false, Bool.false_eq_true, or_false,
    if_false]
  rfl

theorem pis_issues (hids : ∀ m ∈ s.core.cmds, m.id < s.core.nextId) :
    ∃ (u : State) (m : Cmd), exec i s = .next u ∧ archAt u (hereOf s) = (advance (me s) .seq).1 ∧ u.core.cmds = s.core.cmds ++ [m] ∧
      m.id = s.core.nextId ∧ m.slot = (hereOf s).k ∧ m.clause = clauseAt s (hereOf s) ∧ m.eng = eng ∧ m.state = .queued ∧
      m.issuedAt = s.now ∧ m.knots = s.core.ctl.knots ∧
      m.tmpl = withTag (amended s eng t f v) (slotAt s (hereOf s)).thread.tag ∧
      (getCtl u (hereOf s).k).counters = (setCounter (ctlOf s) (tCc m.tmpl)
        (counterMore (getCounter (ctlOf s) (tCc m.tmpl)))).counters ∧
      (getCtl u (hereOf s).k).templates = sset (ctlOf s).templates (64 * eng + t.toNat) (amended s eng t f v) ∧
      KeptVoices (hereOf s) s u ∧ KeptArray s u ∧ KeptMemory (hereOf s) s u ∧ u.core.held = s.core.held := by
  have hcmds : (pisNoted s eng t f v).core.cmds = s.core.cmds := by simp [pisNoted]
  have hnext : (pisNoted s eng t f v).core.nextId = s.core.nextId := by simp [pisNoted]
  have hheld : (pisNoted s eng t f v).core.held = s.core.held := by simp [pisNoted]
  obtain ⟨m, he⟩ := enqueueCmd_enqueued (pisCmd s eng t f v) (by rwa [hcmds, hnext])
  obtain ⟨cslot, cclause, ceng, cstate, cissued, cknots, ctmpl⟩ := pisCmd_fields (s := s) (eng := eng) (t := t) (f := f) (v := v)
  obtain ⟨mid, mslot, mclause, meng, mstate, missued, mknots, mtmpl⟩ := cmd_of_enqueued he
  obtain ⟨hcounters, htemplates, hvoices, harray, hmemory⟩ := retire_enqueued near_pisNoted he cslot .seq
  refine ⟨_, m, pis_enqueues hi ht hp hroom hb hfault hrows, ?chain, ?cmds, mid.trans hnext, mslot.trans cslot, mclause.trans cclause,
    meng.trans ceng, mstate.trans cstate, missued.trans cissued, mknots.trans cknots, mtmpl.trans ctmpl, ?counters, ?templates, hvoices,
    harray, hmemory, ?held⟩
  case chain =>
    rw [archAt_retire, archAt, he.archs, ← archAt, near_pisNoted.arch]
    rfl
  case cmds => rw [retire_core_cmds, he.cmds, hcmds]
  case counters =>
    have := he.counters
    rw [cslot, getCtl_pisNoted, ← mtmpl] at this
    exact hcounters.trans this
  case templates =>
    have := he.templates
    rw [cslot, getCtl_pisNoted] at this
    exact htemplates.trans this
  case held => rw [retire_core_held, he.held, hheld]
end

/-- Settles O25: TPL and PAT by their lemmas; PIS enqueues behind its amended template, and what it enqueues is `pisCmd`. -/
theorem templatesArePatchedAndIssued : Obligations.TemplatesArePatchedAndIssued := by
  refine ⟨⟨fun s sb p t a tlo i eng m hmem hm => ?tpl, fun s sb t f v i eng hmem => pat_amends (exec_patOf hmem s)⟩,
    fun s sb t f v i eng hmem ht hp => ?pis⟩
  case tpl =>
    have hi := exec_tplOf hmem s
    exact ⟨fun h => h.elim (tpl_traps_unaligned hi hm) fun ⟨_, hl⟩ => tpl_traps_range hi hm hl, tpl_stalls hi hm,
      fun hl ha hf hpoison => ⟨tpl_traps_illegal hi hm hl ha hf hpoison, tpl_loads hi hm hl ha hf hpoison⟩⟩
  case pis =>
    have hi := exec_pisOf hmem s
    exact ⟨pis_stalls hi ht hp, fun hroom hb => ⟨fun _ _ => pis_traps hi ht hp hroom hb,
      fun hfault hids hrows => pis_issues hi ht hp hroom hb hfault hrows hids⟩⟩

end Sys2Proof.Machine
end

section
/-! O40: NRED and NBAR (R57, R182, R278 to R281). -/

namespace Sys2Proof.Machine

open Sys2Proof.Claim

section
variable {s : State} {i : Instr} {sb : BitVec 1} {p : BitVec 3} {d a : BitVec 5} {kind : WaitKind} {f : VoiceArch → Nat → Effect}
  (hi : exec i s = collective sb p d a kind f s)
include hi

section
variable (hm : MayIssue s sb p .c)
include hm

theorem collective_refuses (hg : groupWordOk s (hereOf s).k (visS (me s) a) (decide (kind = .nred)) = false) : Answers i s d 3 [] := by
  intro hr
  obtain ⟨u, hgo, hn, -⟩ := withWrites_did (go := fun t => .retire .seq false t) hr (near_refl s) rfl rfl
  refine word_completes hm hi ?_ hn rfl
  simp only [hm.2.1.2, hg]
  exact hgo

/-- The word exchanges the faces, holds its contribution and waits for the collective to complete (R57, R278). -/
theorem collective_waits (hg : groupWordOk s (hereOf s).k (visS (me s) a) (decide (kind = .nred)) = true) (hf : FlipReady s) :
    Completes i s { arch := waiting s kind [s.core.nextId] d 0, flow := .keep, closes := true, held := [f (me s) s.core.nextId] } := by
  have hnear := near_hold (f := { arch := flipArch, held := [f (me s) s.core.nextId] }) (near_flipped s) (f (me s) s.core.nextId) rfl
    (nextId_flipped s)
  obtain ⟨t, hret, hwaits⟩ := startWait_waits hnear kind [s.core.nextId] d 0
  refine word_completes hm hi ?_ hwaits rfl
  simp only [hm.2.1.2, hg, if_true]
  rw [withFlip_flips hf]
  exact hret
end

section
variable {w : Wait} {x : Instance} (ht : Takes s sb 0 .c false) (hw : (me s).wait = some w)
  (hx : instanceFor s (hereOf s).k w.items = some x)
include ht hw hx

theorem exec_collective_completed : exec i s = finish (hereOf s) s (takeInstance (hereOf s) w x s) := by
  rw [hi, collective, word_resumes ht hw]
  simp only [hw, hx]

theorem collective_leaves (hb : x.bad = false) : LeavesWith i s w.dest (instanceResult x) := by
  refine leavesWith_of_endWait ?_
  rw [exec_collective_completed hi ht hw hx, takeInstance, if_neg (by simp [hb])]

theorem collective_checks (hb : x.bad = true) (ho : othersIssued s (hereOf s) = false) :
    exec i s = .next (setMark (machineCheck s (hereOf s).k 0 (Config.routerStorage s.fresh % 16)) (hereOf s) .trapped) := by
  rw [exec_collective_completed hi ht hw hx, takeInstance, if_pos hb, finish, if_neg (by simp [ho])]
end
end

/-- Settles O40: both words are `collective`, whose contributions are `collective_waits` and whose results are `collective_leaves`. -/
theorem collectivesContributeAndWait : Obligations.CollectivesContributeAndWait := by
  intro s sb p d a b
  have hr : exec (.nred sb p d a b) s = _ := exec_nred ..
  have hb : exec (.nbar sb p d a) s = _ := exec_nbar ..
  rw [execNred] at hr
  rw [execNbar] at hb
  refine ⟨fun hm => ⟨collective_refuses hr hm, collective_refuses hb hm, fun hg hf => ?reduces, fun hg hf => ?arrives⟩,
    fun w x ht hw hx => ⟨fun hok => ⟨collective_leaves hr ht hw hx hok, collective_leaves hb ht hw hx hok⟩, fun hbad ho =>
      ⟨_, collective_checks hr ht hw hx hbad ho, collective_checks hb ht hw hx hbad ho⟩⟩⟩
  case reduces =>
    have := collective_waits hr hm hg hf
    rwa [bits_zero_left] at this
  case arrives =>
    have := collective_waits hb hm hg hf
    rwa [bits_zero_left] at this

end Sys2Proof.Machine
end

section
/-! O32: flags (R194), event bits (R198, R200) and pipelines (R177, R201, R202, R204). -/

namespace Sys2Proof.Machine

open Sys2Proof.Claim

/-! ### Cluster words -/

/-- A change of the cluster. -/
theorem near_setCluster {s u : State} {d e : Doing} (hn : Near s u d) (f : Cluster → Cluster)
    (he : e = { d with cluster := fun c => f (d.cluster c) }) : Near s (setCluster u (f u.cluster)) e := by
  subst he
  exact {
    arch := by simpa using hn.arch
    clause := hn.clause
    ids := hn.ids
    voices := by have := hn.voices; simpa [KeptVoices] using this
    slot := by have := hn.slot; simpa [KeptSlot, slotAt] using this
    array := by have := hn.array; simpa [KeptArray] using this
    memory := hn.memory
    traced := hn.traced
    ctl := by have := hn.ctl; simpa [KeptCtl] using this
    canon := by simpa using hn.canon
    held := by have := hn.held; simpa [KeptHeld] using this
    order := hn.order
    cluster := congrArg f hn.cluster
    around := hn.around }

section
variable {s : State} {i : Instr} {sb : BitVec 1} {p : BitVec 3} {body : Here → State → Res} (hm : MayIssue s sb p .c)
  (hi : exec i s = clWord sb p body s)
include hm hi

theorem clWord_stalls (hb : body (hereOf s) s = .stall true s) : Stalls s i true := word_stalls hm hi hb

theorem clWord_completes {u : State} {d : Doing} (hb : body (hereOf s) s = .retire d.flow d.closes u) (hn : Near s u d)
    (hd : d.mark = .issued) : Completes i s d := word_completes hm hi hb hn hd

/-- A cluster word that only answers. -/
theorem answers_of_result {d : BitVec 5} {x : Word} (hb : body (hereOf s) s = withResult (hereOf s) d x s id) : Answers i s d x [] := by
  intro hr
  obtain ⟨u, hgo, hn, -⟩ := withWrites_did (go := fun t => .retire .seq false t) hr (near_refl s) rfl rfl
  exact word_completes hm hi (hb.trans hgo) hn rfl

/-- A cluster word that answers and holds an effect. -/
theorem answers_of_held {d : BitVec 5} {x : Word} {e : Effect}
    (hb : body (hereOf s) s = withResult (hereOf s) d x s (holdAt (hereOf s) e)) : Answers i s d x [e] := by
  intro hr
  obtain ⟨u, hgo, hn, hid⟩ := withWrites_did (go := fun t => .retire .seq false (holdAt (hereOf s) e t)) hr (near_refl s) rfl rfl
  exact word_completes hm hi (hb.trans hgo) (near_hold hn e rfl hid) rfl

/-- A cluster word whose whole effect is held. -/
theorem completes_of_held {e : Effect} (hb : body (hereOf s) s = .retire .seq false (holdAt (hereOf s) e s)) :
    Completes i s { held := [e] } := word_completes hm hi hb (near_hold (near_refl s) e rfl rfl) rfl
end

/-! ### Flags (R194) -/

section
variable {s : State} {sb : BitVec 1} {p : BitVec 3} {d a b : BitVec 5} (hm : MayIssue s sb p .c)
include hm

section
variable {i : Instr} {e : Nat → BitVec 32 → Effect} (hi : exec i s = flagWord sb p d a b e s)
include hi

theorem flagWord_holds (ht : targetOk s (hereOf s).k (visS (me s) a) = true) :
    Answers i s d 0 [e (numOf s a) ((visS (me s) b).setWidth 32)] := answers_of_held hm hi (if_pos ht)

theorem flagWord_refuses (ht : targetOk s (hereOf s).k (visS (me s) a) = false) : Answers i s d 4 [] :=
  answers_of_result hm hi (if_neg (by simp [ht]))
end

theorem fwait_refuses (hn : 256 ≤ numOf s a) : Answers (.fwait sb p d a b) s d 4 [] :=
  answers_of_result hm (exec_fwait ..) (if_pos hn)

theorem fwait_goes (hn : numOf s a < 256) (hr : (flagOf s.cluster (numOf s a) - (visS (me s) b).setWidth 32).toNat < 2 ^ 31) :
    Answers (.fwait sb p d a b) s d (mod64 ((flagOf s.cluster (numOf s a)).toNat * 2 ^ 32)) [] :=
  answers_of_result hm (exec_fwait ..) ((if_neg (Nat.not_le.mpr hn)).trans (if_pos hr))

theorem fwait_stalls (hn : numOf s a < 256) (hr : 2 ^ 31 ≤ (flagOf s.cluster (numOf s a) - (visS (me s) b).setWidth 32).toNat) :
    Stalls s (.fwait sb p d a b) true :=
  clWord_stalls hm (exec_fwait ..) ((if_neg (Nat.not_le.mpr hn)).trans (if_neg (Nat.not_lt.mpr hr)))

/-! ### Event bits (R198, R200) -/

theorem evset_holds : Completes (.evset sb p a b) s { held := [.evset (numOf s a % 4) (visS (me s) b)] } :=
  completes_of_held hm (exec_evset ..) rfl

theorem evclr_holds : Completes (.evclr sb p a b) s { held := [.evclr (numOf s a % 4) (visS (me s) b)] } :=
  completes_of_held hm (exec_evclr ..) rfl

theorem evwait_goes (hw : eventWindow (threadCtx s (hereOf s).k) (numOf s a % 4) &&& visS (me s) b = visS (me s) b) :
    Answers (.evwait sb p d a b) s d (eventWindow (threadCtx s (hereOf s).k) (numOf s a % 4)) [] :=
  answers_of_result hm (exec_evwait ..) (if_pos hw)

theorem evwait_stalls (hw : eventWindow (threadCtx s (hereOf s).k) (numOf s a % 4) &&& visS (me s) b ≠ visS (me s) b) :
    Stalls s (.evwait sb p d a b) true := clWord_stalls hm (exec_evwait ..) (if_neg hw)

/-! ### ENQ (R201, R202) -/

theorem enq_noPipeline (hp : pipeAt s (hereOf s).k = none) : Answers (.enq sb p d a) s d 6 [] :=
  answers_of_result hm (exec_enq ..) (by simp only [hp]; rfl)

section
variable {pl st : Nat} {dc : PipeDecl} (hp : pipeAt s (hereOf s).k = some (pl, st, dc))
include hp

theorem enq_lastStage (hl : dc.nodes.length ≤ st + 1) : Answers (.enq sb p d a) s d 6 [] :=
  answers_of_result hm (exec_enq ..) (by simp only [hp, if_pos hl]; rfl)

theorem enq_holds (hl : st + 1 < dc.nodes.length) (hr : pipeRoom s pl st dc = true) :
    Answers (.enq sb p d a) s d 0 [.enq pl st (visS (me s) a)] :=
  answers_of_held hm (exec_enq ..) (by simp only [hp, if_neg (Nat.not_le.mpr hl), if_pos hr])

theorem enq_stalls (hl : st + 1 < dc.nodes.length) (hr : pipeRoom s pl st dc = false) : Stalls s (.enq sb p d a) true :=
  clWord_stalls hm (exec_enq ..) (by simp only [hp, if_neg (Nat.not_le.mpr hl), hr, Bool.false_eq_true, if_false])
end

/-! ### DEQ (R177, R202, R204) -/

section
variable {k : BitVec 3}

/-- Nothing comes to the stage: 0 with a false predicate. -/
theorem deq_of_nothing {body : Here → State → Res} (hi : exec (.deq sb p d k) s = clWord sb p body s)
    (hb : body (hereOf s) s = withWrites (hereOf s) (deqWrites d k 0 false) s (fun u => .retire .seq false u))
    (hr : Room s (deqWrites d k 0 false)) : Completes (.deq sb p d k) s { writes := deqWrites d k 0 false } := by
  obtain ⟨u, hgo, hn, -⟩ := withWrites_did (go := fun t => .retire .seq false t) hr (near_refl s) rfl rfl
  exact clWord_completes hm hi (hb.trans hgo) hn rfl

theorem deq_noInput (hp : pipeAt s (hereOf s).k = none ∨ ∃ pl dc, pipeAt s (hereOf s).k = some (pl, 0, dc))
    (hr : Room s (deqWrites d k 0 false)) : Completes (.deq sb p d k) s { writes := deqWrites d k 0 false } := by
  refine deq_of_nothing hm (exec_deq ..) ?_ hr
  obtain hp | ⟨pl, dc, hp⟩ := hp <;> simp only [hp]

section
variable {pl st : Nat} {dc : PipeDecl} (hp : pipeAt s (hereOf s).k = some (pl, st + 1, dc))
include hp

section
variable {x : Word} (hx : pipeHead (getPipe s.cluster pl st) = some x)
include hx

theorem deq_retained (hl : dc.depths.getD st 1 ≤ retainedItems s pl st) : Stalls s (.deq sb p d k) true :=
  clWord_stalls hm (exec_deq ..) (by simp only [hp, hx, if_pos hl])

theorem deq_pops (hl : retainedItems s pl st < dc.depths.getD st 1) (hr : Room s (deqWrites d k x true)) :
    Completes (.deq sb p d k) s
      { writes := deqWrites d k x true, held := [.deq pl st x],
        cluster := fun c => setPipe c pl st (pipePop (dc.depths.getD st 1) (getPipe c pl st)) } := by
  obtain ⟨u, hgo, hn, hid⟩ := withWrites_did (go := fun u => .retire .seq false
    (popPipe (holdAt (hereOf s) (.deq pl st x) u) pl st (dc.depths.getD st 1))) hr (near_refl s) rfl rfl
  refine clWord_completes hm (exec_deq ..) ?_ (near_setCluster (near_hold hn (.deq pl st x) rfl hid)
    (fun c => setPipe c pl st (pipePop (dc.depths.getD st 1) (getPipe c pl st))) rfl) rfl
  simp only [hp, hx, if_neg (Nat.not_le.mpr hl)]
  exact hgo
end

section
variable (hx : pipeHead (getPipe s.cluster pl st) = none)
include hx

theorem deq_closed (hc : inputClosed s (threadCtx s (hereOf s).k) dc pl (st + 1) = true) (hr : Room s (deqWrites d k 0 false)) :
    Completes (.deq sb p d k) s { writes := deqWrites d k 0 false } :=
  deq_of_nothing hm (exec_deq ..) (by simp only [hp, hx, if_pos hc]) hr

theorem deq_stalls (hc : inputClosed s (threadCtx s (hereOf s).k) dc pl (st + 1) = false) : Stalls s (.deq sb p d k) true :=
  clWord_stalls hm (exec_deq ..) (by simp only [hp, hx, hc, Bool.false_eq_true, if_false])
end
end
end
end

/-- Settles O32: each word by its lemmas, ENQ and DEQ by the thread's place in its pipeline and the head of its input queue. -/
theorem flagsEventBitsAndPipelines : Obligations.FlagsEventBitsAndPipelines := by
  refine ⟨⟨fun s sb p d a b hm => ⟨fun ht => ⟨flagWord_holds hm (exec_finc ..) ht, flagWord_holds hm (exec_fset ..) ht⟩,
      fun ht => ⟨flagWord_refuses hm (exec_finc ..) ht, flagWord_refuses hm (exec_fset ..) ht⟩, fwait_refuses hm,
      fun hn => ⟨fwait_goes hm hn, fwait_stalls hm hn⟩⟩,
    fun s sb p d a b hm => ⟨evset_holds hm, evclr_holds hm, evwait_goes hm, evwait_stalls hm⟩⟩,
    fun s sb p d a k hm => ⟨enq_noPipeline hm, deq_noInput hm,
      fun pl st dc hp => ⟨enq_lastStage hm hp, fun hl => ⟨enq_holds hm hp hl, enq_stalls hm hp hl⟩⟩,
      fun pl st dc hp => ⟨fun x hx => deq_retained hm hp hx, fun x hx => deq_pops hm hp hx, deq_closed hm hp, deq_stalls hm hp⟩⟩⟩

end Sys2Proof.Machine
end

section
/-! Operations on the package and on the cluster do not touch the core: host queues (R247 to R249), the log and the event vector
(R198, R297), flags and pipelines (R194, R202), and the fabric (R270 to R286). -/

namespace Sys2Proof.Machine

theorem foldl_core {α : Type} {f : State → α → State} (h : ∀ s x, (f s x).core = s.core) (xs : List α) (s : State) :
    (xs.foldl f s).core = s.core := by
  induction xs generalizing s with
  | nil => rfl
  | cons x r ih => rw [List.foldl_cons, ih, h]

/-! ### Memory and the host's queues -/

@[simp] theorem postCompletion_core (s : State) (c : Nat) (notice : Bool) (bs : List Byte) : (postCompletion s c notice bs).core = s.core := by
  unfold postCompletion
  dsimp only
  split
  · rfl
  · split <;> rfl

@[simp] theorem postFault_core (s : State) (c : Nat) (bs : List Byte) : (postFault s c bs).core = s.core := by
  unfold postFault
  dsimp only
  split
  · rfl
  · split <;> rfl

theorem writeParted_core (s : State) (ps : List Part) (bs : List Byte) : (writeParted s ps bs).core = s.core := by
  induction ps generalizing s bs with
  | nil => rfl
  | cons p r ih => exact ih ..

theorem writeVirt_core {s u : State} {c : Context} {va : Nat} {bs : List Byte} (h : writeVirt s c va bs = some u) : u.core = s.core := by
  obtain ⟨ps, -, hu⟩ := Option.map_eq_some_iff.mp h
  rw [← hu, writeParted_core]

@[simp] theorem writeVirt_getD_core (s : State) (c : Context) (va : Nat) (bs : List Byte) :
    ((writeVirt s c va bs).getD s).core = s.core := by
  cases h : writeVirt s c va bs with
  | none => rfl
  | some u => exact writeVirt_core h

/-! ### The log and the event vector -/

theorem copyBuffers_core (s : State) (c : Nat) (keep : Bool) (n pos : Nat) : (copyBuffers s c keep n pos).1.core = s.core := by
  induction n generalizing s pos with
  | zero => rfl
  | succ n ih =>
    unfold copyBuffers
    dsimp only
    split
    · rw [ih]
      split
      · exact writeVirt_getD_core ..
      · rfl
    · rfl

theorem startCapture_core (s : State) (c : Nat) : (startCapture s c).core = s.core := copyBuffers_core ..

theorem appendLog_core (s : State) (c : Nat) (bs : List Byte) : (appendLog s c bs).core = s.core := by
  unfold appendLog
  extract_lets s1 r
  have h1 : s1.core = s.core := by
    unfold s1
    split
    · exact startCapture_core ..
    · rfl
  split
  · split
    · next hu => exact (writeVirt_core hu).trans h1
    · exact h1
  · exact h1

theorem endRerun_core (s : State) (c : Nat) : (endRerun s c).core = s.core := postFault_core ..

theorem replayGate_core {s u : State} {c : Nat} {bs : List Byte} (h : replayGate s c bs = some u) : u.core = s.core := by
  unfold replayGate at h
  dsimp only at h
  split at h
  · rw [← Option.some.inj h, appendLog_core]
  · split at h
    · rw [← Option.some.inj h, endRerun_core]
    · split at h
      · rw [← Option.some.inj h]
        rfl
      · cases h
  · rw [← Option.some.inj h]

theorem drainEvents_core (s : State) (c n : Nat) : (drainEvents s c n).core = s.core := by
  induction n generalizing s with
  | zero => rfl
  | succ n ih =>
    unfold drainEvents
    dsimp only
    split
    · rfl
    · split
      · rfl
      · next hu =>
        have := replayGate_core hu
        rw [ih]
        exact this

@[simp] theorem eventChange_core (s : State) (c win : Nat) (set clr : Word) (tag : BitVec 16) :
    (eventChange s c win set clr tag).core = s.core := by
  unfold eventChange
  split
  · next hu =>
    have := replayGate_core hu
    rw [drainLog, drainEvents_core]
    exact this
  · rfl

/-! ### Effects on the cluster -/

theorem setCluster_core (s : State) (c : Cluster) : (setCluster s c).core = s.core := rfl

@[simp] theorem flagOp_core (s : State) (c target : Nat) (f : BitVec 32 → BitVec 32) : (flagOp s c target f).core = s.core := by
  unfold flagOp
  dsimp only
  split
  · rfl
  · split
    · rfl
    · split <;> rfl

@[simp] theorem writeOverflow_core (s : State) (c : Nat) (d : PipeDecl) (p : Nat) : (writeOverflow s c d p).core = s.core := by
  unfold writeOverflow
  dsimp only
  split
  · rfl
  · exact writeVirt_getD_core ..

@[simp] theorem enqItem_core (s : State) (c p st : Nat) (x : Word) : (enqItem s c p st x).core = s.core := by
  unfold enqItem
  dsimp only
  split
  · split
    · rfl
    · exact writeOverflow_core ..
  · rfl

@[simp] theorem clusterEffect_core (s : State) (c m : Nat) (tag : BitVec 16) (e : Effect) : (clusterEffect s c m tag e).core = s.core := by
  cases e <;> simp [clusterEffect, setCluster_core]

/-! ### Packets of the fabric -/

@[simp] theorem setJob_core (s : State) (k : Nat) (j : Job) : (setJob s k j).core = s.core := rfl

@[simp] theorem sendOn_core (s : State) (l vc : Nat) (p : Packet) : (sendOn s l vc p).core = s.core := rfl

@[simp] theorem deliver_core (s : State) (p : Packet) : (deliver s p).core = s.core := by
  unfold deliver
  split
  · rfl
  · split <;> rfl

theorem deliverAll_core (s : State) (ps : List Packet) : (deliverAll s ps).core = s.core := by
  induction ps generalizing s with
  | nil => rfl
  | cons p r ih => rw [deliverAll, ih, deliver_core]

@[simp] theorem putSaved_core (s : State) (k : Nat) (j : Job) : (putSaved s k j).core = s.core := by
  unfold putSaved writeSaveArea
  dsimp only
  split <;> rfl

@[simp] theorem inject_core (s : State) (k : Nat) (p : Packet) : (inject s k p).core = s.core := by
  unfold inject
  split
  · exact deliver_core ..
  · split
    · exact putSaved_core ..
    · exact deliver_core ..

/-! ### Collectives -/

@[simp] theorem takeNumber_core (s : State) (c id g : Nat) (isBar : Bool) : (takeNumber s c id g isBar).1.core = s.core := by
  unfold takeNumber
  split <;> rfl

@[simp] theorem sendContribution_core (s : State) (c : Nat) (tag : BitVec 16) (id g : Nat) (isBar mean : Bool) (val : BitVec 32)
    (num : Nat) : (sendContribution s c tag id g isBar mean val num).core = s.core := by
  unfold sendContribution
  split
  · rfl
  · exact inject_core ..

@[simp] theorem contribute_core (s : State) (c : Nat) (tag : BitVec 16) (id g : Nat) (isBar mean : Bool) (val : BitVec 32) :
    (contribute s c tag id g isBar mean val).core = s.core := by
  rw [contribute, sendContribution_core, takeNumber_core]

@[simp] theorem completeInstance_core (s : State) (jk : Nat) (i : Instance) (status count : Nat) (result : BitVec 32) :
    (completeInstance s jk i status count result).core = s.core := by
  unfold completeInstance
  split
  · rfl
  · exact foldl_core (fun _ _ => inject_core ..) ..

@[simp] theorem failInstance_core (s : State) (jk g : Nat) (isBar : Bool) (num : Nat) : (failInstance s jk g isBar num).core = s.core := by
  unfold failInstance
  split
  · rfl
  · dsimp only
    split
    · rfl
    · exact completeInstance_core ..

@[simp] theorem tryComplete_core (s : State) (jk : Nat) (i : Instance) : (tryComplete s jk i).core = s.core := by
  unfold tryComplete
  split
  · rfl
  · dsimp only
    split
    · exact completeInstance_core ..
    · rfl

theorem closeInstance_core (jk : Nat) (lost : Bool) (s : State) (i : Nat × Bool × Nat) : (closeInstance jk lost s i).core = s.core := by
  unfold closeInstance
  split
  · exact failInstance_core ..
  · split
    · exact tryComplete_core ..
    · rfl

/-! ### Members that fail (R282) -/

theorem regather_core (jk g : Nat) (s : State) (i : Instance) : (regather jk g s i).core = s.core := by
  unfold regather
  split
  · rfl
  · dsimp only
    split
    · rfl
    · split
      · exact tryComplete_core ..
      · split
        · rfl
        · exact inject_core ..

theorem memberFails_core (s : State) (jk grp node : Nat) : (memberFails s jk grp node).core = s.core := by
  unfold memberFails
  split
  · rfl
  · dsimp only
    split
    · exact foldl_core (regather_core jk grp) ..
    · rfl

theorem contextFails_core (s : State) (c : Nat) : (contextFails s c).core = s.core := by
  unfold contextFails
  split
  · rfl
  · exact foldl_core (fun _ _ => memberFails_core ..) ..

theorem fenceMembers_core (s : State) (cs : List Nat) : (fenceMembers s cs).core = s.core := by
  induction cs generalizing s with
  | nil => rfl
  | cons c r ih =>
    unfold fenceMembers
    rw [ih]
    split
    · rfl
    · exact contextFails_core ..

/-! ### The gang switch (R284, R285) -/

theorem tellLost_core (s : State) (jk : Nat) (j : Job) : (tellLost s jk j).core = s.core := by
  unfold tellLost
  extract_lets lost s1 s2
  have h1 : s1.core = s.core := foldl_core (closeInstance_core jk lost) ..
  have h2 : s2.core = s.core := by
    rw [← h1]
    unfold s2
    split
    · exact postFault_core ..
    · rfl
  rw [← h2]
  exact foldl_core (fun _ _ => sendOn_core ..) ..

theorem sendMarkers_core (s : State) (typ : Nat) (vcs : List Nat) (j : Job) : (sendMarkers s typ vcs j).core = s.core :=
  foldl_core (fun _ _ => foldl_core (fun _ _ => sendOn_core ..) ..) ..

@[simp] theorem setResult_core (s : State) (id : Nat) (x : Word) : (setResult s id x).core = s.core := rfl

theorem advanceWave_core (s : State) (jk : Nat) : (advanceWave s jk).core = s.core := by
  unfold advanceWave
  split
  · rfl
  · next j _ =>
    split
    · extract_lets j1 s1 s2
      have h1 : s1.core = s.core := by
        unfold s1
        split
        · rfl
        · exact putSaved_core ..
      have h2 : s2.core = s.core := by
        rw [← h1]
        unfold s2
        split
        · exact tellLost_core ..
        · rfl
      split
      · split
        · exact h2
        · exact h2
      · exact h1
    · rfl

theorem cutJob_core (s : State) (jk : Nat) (j : Job) (parent request : Option Nat) : (cutJob s jk j parent request).core = s.core := by
  unfold cutJob
  extract_lets waiting j1 s1
  rw [advanceWave_core, sendMarkers_core, putSaved_core]

theorem resumeJob_core (s : State) (jk : Nat) (j : Job) (parent request : Option Nat) : (resumeJob s jk j parent request).core = s.core := by
  unfold resumeJob
  extract_lets hub j1 s0 s1
  have h0 : s0.core = s.core := (sendMarkers_core ..).trans (putSaved_core ..)
  rw [advanceWave_core, deliverAll_core, ← h0]
  unfold s1
  split
  · rfl
  · exact foldl_core (closeInstance_core jk true) ..

@[simp] theorem gswRequest_core (s : State) (id job : Nat) (inward : Bool) : (gswRequest s id job inward).core = s.core := by
  unfold gswRequest
  split
  · rfl
  · split
    · rfl
    · split
      · rfl
      · split
        · exact resumeJob_core ..
        · exact cutJob_core ..

end Sys2Proof.Machine
end

section
/-! The release of held effects (R174, R189, R195): what it leaves of the core's clauses and of what is held. -/

namespace Sys2Proof.Machine

/-- From `s` to `t` no clause has opened or sealed, and what is held is of clauses of which something was held. -/
structure Releases (s t : State) : Prop where
  clauses : t.core.clauses = s.core.clauses
  held : ∀ h ∈ t.core.held, ∃ g ∈ s.core.held, g.clause = h.clause

theorem Releases.trans {s t u : State} (h : Releases s t) (g : Releases t u) : Releases s u := by
  refine ⟨g.clauses.trans h.clauses, fun x hx => ?_⟩
  obtain ⟨y, hy, hyx⟩ := g.held x hx
  obtain ⟨z, hz, hzy⟩ := h.held y hy
  exact ⟨z, hz, hzy.trans hyx⟩

theorem releases_of_same {s t : State} (hc : t.core.clauses = s.core.clauses) (hh : t.core.held = s.core.held) : Releases s t :=
  ⟨hc, fun x hx => ⟨x, hh ▸ hx, rfl⟩⟩

theorem releases_of_core {s t : State} (h : t.core = s.core) : Releases s t := releases_of_same (by rw [h]) (by rw [h])

/-- What is left of a store is of its clause. -/
theorem clause_of_mem_trimOne {a n : Nat} {h x : Held} (hx : x ∈ trimOne a n h) : x.clause = h.clause := by
  unfold trimOne at hx
  split at hx
  · split at hx
    · obtain hx | hx := List.mem_append.mp hx
      · split at hx
        · rw [List.mem_singleton.mp hx]
        · cases hx
      · split at hx
        · rw [List.mem_singleton.mp hx]
        · cases hx
    · rw [List.mem_singleton.mp hx]
  · rw [List.mem_singleton.mp hx]

theorem releases_trimHeld (s : State) (id a n : Nat) : Releases s (trimHeld s id a n) := by
  refine ⟨rfl, fun x hx => ?_⟩
  obtain ⟨h, hh, hx⟩ := List.mem_flatMap.mp hx
  refine ⟨h, hh, ?_⟩
  split at hx
  · exact (clause_of_mem_trimOne hx).symm
  · rw [List.mem_singleton.mp hx]

theorem releases_lateTail (s : State) (k r n : Nat) : Releases s (lateTail s k r n) := by
  unfold lateTail
  dsimp only
  split <;> exact releases_of_same rfl rfl

theorem releases_signalHost (s : State) (k : Nat) (x scyc : Word) : Releases s (signalHost s k x scyc) :=
  releases_of_core (postCompletion_core ..)

theorem releases_sendNwr (s : State) (k id fa : Nat) (data : Word) (width : Nat) : Releases s (sendNwr s k id fa data width) := by
  unfold sendNwr
  dsimp only
  split
  · exact releases_of_same rfl rfl
  · refine releases_of_same ?_ ?_ <;> rw [inject_core]

theorem releases_beginBarw (s : State) (k clause bar : Nat) : Releases s (beginBarw s k clause bar) := by
  unfold beginBarw
  dsimp only
  split
  · split <;> exact releases_of_core rfl
  · exact releases_of_core rfl

theorem releases_useReserve (s : State) (k : Nat) : Releases s (useReserve s k) :=
  releases_of_same (setSlot_core_clauses ..) (setSlot_core_held ..)

theorem releases_performCluster (s : State) (o : OutItem) : Releases s (performCluster s o) := by
  unfold performCluster
  split
  · exact releases_of_core rfl
  · extract_lets s1
    have h1 : Releases s s1 := by
      unfold s1
      split
      · split
        · exact releases_beginBarw ..
        · exact releases_of_core rfl
      · split
        · exact releases_useReserve ..
        · exact releases_of_core rfl
      · exact releases_of_core rfl
    exact h1.trans (releases_of_core (clusterEffect_core ..))

theorem releases_releaseCluster (s : State) (h : Held) : Releases s (releaseCluster s h) := by
  unfold releaseCluster
  dsimp only
  split
  · exact releases_of_same rfl rfl
  · exact releases_performCluster ..

/-- Each effect of Table 11.2. -/
theorem releases_releaseOne (s : State) (h : Held) : Releases s (releaseOne s h) := by
  have hout (u : State) : Releases u (release u h) := releases_of_same rfl rfl
  unfold releaseOne
  split
  case h_1 a d _ _ _ _ _ _ => exact (releases_of_same rfl rfl : Releases s (writeSpad s a d)).trans (releases_trimHeld ..)
  case h_3 => exact releases_of_same (setSlot_core_clauses ..) (setSlot_core_held ..)
  case h_4 =>
    split
    · exact releases_of_same rfl rfl
    · exact releases_lateTail ..
  case h_7 => exact (releases_of_core (takeNumber_core ..)).trans (hout _)
  case h_11 => exact releases_signalHost ..
  case h_12 => exact releases_sendNwr ..
  case h_13 => exact releases_of_core rfl
  case h_14 => exact releases_of_core (contribute_core ..)
  case h_15 => exact releases_of_core rfl
  case h_2 | h_5 | h_6 | h_8 | h_9 | h_10 => exact hout _
  all_goals exact releases_releaseCluster ..

theorem releases_releaseAll (s : State) (hs : List Held) : Releases s (hs.foldl releaseOne s) := by
  induction hs generalizing s with
  | nil => exact releases_of_core rfl
  | cons h r ih => exact (releases_releaseOne s h).trans (ih _)

/-! ### Items that act by themselves -/

theorem releases_dropItem (s : State) (id : Nat) : Releases s (dropItem s id) := releases_of_same rfl rfl

theorem releases_runAuto (s : State) (o : OutItem) : Releases s (runAuto s o) := by
  unfold runAuto
  split
  · exact (releases_of_same rfl rfl : Releases s (invalidate ..)).trans (releases_dropItem ..)
  · exact (releases_of_core (sendContribution_core ..)).trans (releases_dropItem ..)
  · exact (releases_dropItem ..).trans (releases_of_core (gswRequest_core ..))
  · exact (releases_dropItem ..).trans (releases_performCluster ..)

theorem releases_settle (s : State) : Releases s (settle s) := by
  unfold settle
  generalize s.core.out.length = n
  induction n generalizing s with
  | zero => exact releases_of_core rfl
  | succ n ih =>
    unfold settleOut
    split
    · exact releases_of_core rfl
    · exact (releases_runAuto ..).trans (ih _)

/-- Stores do not act by themselves (R216, R315). -/
theorem settle_of_stores {s : State} (h : ∀ o ∈ s.core.out, (itemStore o).isSome = true) : settle s = s := by
  have hnone : nextAuto s = none := by
    rw [nextAuto]
    generalize s.core.out = out at h ⊢
    induction out with
    | nil => rfl
    | cons o r ih =>
      obtain ⟨ho, hr⟩ := List.forall_mem_cons.mp h
      rw [findFirst, if_neg, ih hr]
      unfold itemStore at ho
      split at ho
      · next he => simp [he, isCluster]
      · cases ho
  unfold settle
  cases s.core.out.length with
  | zero => rfl
  | succ n => rw [settleOut, hnone]

end Sys2Proof.Machine
end

section
/-! O44: the seal of a clause with what it depends on (R173 to R178). -/

namespace Sys2Proof.Machine

open Sys2Proof.Claim

/-! ### Seal images (R176) -/

/-- A voice's own state is left alone where a voice is set with it. -/
theorem getArch_setVoice_same {s : State} {k : Nat} {v : VoiceId} {y : Voice} (h : y.a = getArch s k v) (j : Nat) (u : VoiceId) :
    getArch (setVoice s k v y) j u = getArch s j u := by
  by_cases hj : j = 0 ↔ k = 0
  · rw [getArch, getArch, getVoice, getVoice, getSlot_congr _ hj, getSlot_congr s hj]
    change (getVoice (setVoice s k v y) k u).a = (getVoice s k u).a
    by_cases hu : u = v
    · rw [hu, getVoice_setVoice, h, getArch]
    · rw [getVoice_setVoice_ne _ _ _ hu]
  · rw [getArch, getVoice_setVoice_other _ _ _ _ hj, getArch]

/-- From `s` to `t` nothing but the seal images of voices has changed. -/
structure Imaged (s t : State) : Prop where
  core : ∃ x y, t.core = { s.core with slot0 := x, slot1 := y }
  pkg : t.pkg = s.pkg
  cluster : t.cluster = s.cluster
  thread : ∀ k, (getSlot t k).thread = (getSlot s k).thread
  arch : ∀ k v, getArch t k v = getArch s k v

theorem imaged_refl (s : State) : Imaged s s := ⟨⟨_, _, rfl⟩, rfl, rfl, fun _ => rfl, fun _ _ => rfl⟩

theorem Imaged.trans {s t u : State} (h : Imaged s t) (g : Imaged t u) : Imaged s u := by
  obtain ⟨x, y, hx⟩ := h.core
  obtain ⟨x', y', hx'⟩ := g.core
  exact ⟨⟨x', y', by rw [hx', hx]⟩, g.pkg.trans h.pkg, g.cluster.trans h.cluster, fun k => (g.thread k).trans (h.thread k),
    fun k v => (g.arch k v).trans (h.arch k v)⟩

theorem setSlot_core (s : State) (k : Nat) (x : Slot) : ∃ y z, (setSlot s k x).core = { s.core with slot0 := y, slot1 := z } := by
  unfold setSlot
  split
  · exact ⟨_, _, rfl⟩
  · exact ⟨_, _, rfl⟩

theorem imaged_sealImage (s : State) (c : Clause) : Imaged s (sealImage s c) := by
  unfold sealImage
  split
  · exact imaged_refl s
  · refine ⟨setSlot_core .., setVoice_pkg .., setVoice_cluster .., fun k => ?_, getArch_setVoice_same rfl⟩
    by_cases hk : k = 0 ↔ c.slot = 0
    · rw [getSlot_congr _ hk, getSlot_congr s hk, getSlot_setVoice_thread]
    · rw [setVoice, getSlot_setSlot_other _ _ hk]

theorem imaged_sealImages (s : State) (cs : List Clause) : Imaged s (cs.foldl sealImage s) := by
  induction cs generalizing s with
  | nil => exact imaged_refl s
  | cons c r ih => exact (imaged_sealImage s c).trans (ih _)

/-! ### The parts of a seal -/

/-- The images of the clauses are their voices', and the clauses and what they hold are gone. -/
def sealedOff (s : State) (ids : List Nat) : State :=
  let s1 := (s.core.clauses.filter (fun c => ids.contains c.id)).foldl sealImage s
  { s1 with core := { s1.core with
      clauses := s1.core.clauses.filter (fun c => !ids.contains c.id)
      held := s1.core.held.filter (fun h => !ids.contains h.clause)
      sealedExec := s1.core.cmds.foldl (sealedRun ids) s1.core.sealedExec } }

/-- What the clauses hold, in issue order. -/
def heldOf (s : State) (ids : List Nat) : List Held := s.core.held.filter (fun h => ids.contains h.clause)

/-- Behind the release: the sealed copies and the undo data (R177, R178). -/
def settledBehind (s : State) (ids : List Nat) : State :=
  let cmds := (s.core.cmds.map (sealCmd ids)).filter (fun m => !(ids.contains m.clause && m.retired))
  pruneSlot (pruneSlot { s with core := settleJournal { s.core with
    cmds := cmds, undoUsed := (cmds.map (fun m => m.charge)).sum } } 0) 1

theorem sealClauses_eq (s : State) (ids : List Nat) :
    sealClauses s ids = settle (settledBehind ((heldOf s ids).foldl releaseOne (sealedOff s ids)) ids) := by
  obtain ⟨x, y, hcore⟩ := (imaged_sealImages s (s.core.clauses.filter (fun c => ids.contains c.id))).core
  have hheld : heldOf s ids = heldOf ((s.core.clauses.filter (fun c => ids.contains c.id)).foldl sealImage s) ids := by
    rw [heldOf, heldOf, hcore]
  rw [hheld]
  rfl

theorem sealedOff_core (s : State) (ids : List Nat) : ∃ x y, (sealedOff s ids).core = { s.core with
    slot0 := x, slot1 := y
    clauses := s.core.clauses.filter (fun c => !ids.contains c.id)
    held := s.core.held.filter (fun h => !ids.contains h.clause)
    sealedExec := s.core.cmds.foldl (sealedRun ids) s.core.sealedExec } := by
  obtain ⟨x, y, hcore⟩ := (imaged_sealImages s (s.core.clauses.filter (fun c => ids.contains c.id))).core
  exact ⟨x, y, by simp only [sealedOff, hcore]⟩

/-- What the prune of a slot leaves alone. -/
theorem pruneSlot_eq (s : State) (k : Nat) : ∃ x, pruneSlot s k = setSlot s k x ∧ x.run = (getSlot s k).run ∧
    x.rollcnt = (getSlot s k).rollcnt ∧ ∀ v, slotVoice x v = getVoice s k v :=
  ⟨_, rfl, rfl, rfl, fun v => by cases v <;> rfl⟩

theorem getVoice_pruneSlot (s : State) (k j : Nat) (v : VoiceId) : getVoice (pruneSlot s k) j v = getVoice s j v := by
  obtain ⟨x, hx, -, -, hv⟩ := pruneSlot_eq s k
  rw [hx]
  by_cases hj : j = 0 ↔ k = 0
  · rw [getVoice, getVoice, getSlot_congr _ hj, getSlot_setSlot, hv, getVoice, getSlot_congr s hj]
  · rw [getVoice, getSlot_setSlot_other _ _ hj, getVoice]

theorem pruneSlot_core (s : State) (k : Nat) : ∃ x y, (pruneSlot s k).core = { s.core with slot0 := x, slot1 := y } := setSlot_core ..

theorem pruneSlot_pkg (s : State) (k : Nat) : (pruneSlot s k).pkg = s.pkg := setSlot_pkg ..

theorem pruneSlot_cluster (s : State) (k : Nat) : (pruneSlot s k).cluster = s.cluster := setSlot_cluster ..

theorem getVoice_settledBehind (s : State) (ids : List Nat) (k : Nat) (v : VoiceId) :
    getVoice (settledBehind s ids) k v = getVoice s k v := by
  rw [settledBehind, getVoice_pruneSlot, getVoice_pruneSlot]
  rfl

theorem settledBehind_core (s : State) (ids : List Nat) : (settledBehind s ids).core.clauses = s.core.clauses ∧
    (settledBehind s ids).core.held = s.core.held ∧ (settledBehind s ids).core.spad = s.core.spad ∧
    (settledBehind s ids).core.out = s.core.out := by
  obtain ⟨x, y, h1⟩ := pruneSlot_core (pruneSlot { s with core := settleJournal { s.core with
    cmds := (s.core.cmds.map (sealCmd ids)).filter (fun m => !(ids.contains m.clause && m.retired)),
    undoUsed := (((s.core.cmds.map (sealCmd ids)).filter (fun m => !(ids.contains m.clause && m.retired))).map
      (fun m => m.charge)).sum } } 0) 1
  rw [settledBehind]
  simp only [h1]
  exact ⟨setSlot_core_clauses .., setSlot_core_held .., setSlot_core_spad .., setSlot_core_out ..⟩

theorem settledBehind_outside (s : State) (ids : List Nat) : (settledBehind s ids).pkg = s.pkg ∧
    (settledBehind s ids).cluster = s.cluster := by
  rw [settledBehind, pruneSlot_pkg, pruneSlot_pkg, pruneSlot_cluster, pruneSlot_cluster]
  exact ⟨rfl, rfl⟩

/-! ### The clauses are sealed and hold nothing (R173) -/

theorem mem_depClosure {c : Core} {set ids : List Nat} {n id : Nat} (h : id ∈ ids) : id ∈ depClosure c set n ids := by
  induction n generalizing ids with
  | zero => exact h
  | succ n ih => exact ih (List.mem_append_left _ h)

theorem releases_sealClauses (s : State) (ids : List Nat) : Releases (sealedOff s ids) (sealClauses s ids) := by
  rw [sealClauses_eq]
  obtain ⟨hc, hh, -, -⟩ := settledBehind_core ((heldOf s ids).foldl releaseOne (sealedOff s ids)) ids
  exact ((releases_releaseAll ..).trans (releases_of_same hc hh)).trans (releases_settle _)

theorem sealClauses_seals {s : State} {ids : List Nat} {n : Nat} (hn : n ∈ ids) :
    unsealed (sealClauses s ids).core n = false ∧ ∀ h ∈ (sealClauses s ids).core.held, h.clause ≠ n := by
  obtain ⟨hclauses, hheld⟩ := releases_sealClauses s ids
  obtain ⟨x, y, hoff⟩ := sealedOff_core s ids
  rw [hoff] at hclauses hheld
  refine ⟨?_, fun h hh he => ?_⟩
  · rw [unsealed, hclauses, List.any_eq_false]
    intro c hc
    have hout := (List.mem_filter.mp hc).2
    rw [decide_eq_true_eq]
    rintro rfl
    simp [hn] at hout
  · obtain ⟨g, hg, hgh⟩ := hheld h hh
    have hout := (List.mem_filter.mp hg).2
    simp [hgh, he, hn] at hout

/-! ### Stores that are released (R174) -/

/-- A store of the core. -/
def IsStore (h : Held) : Prop := ∃ dev a d kd rel cmd va asid, h.eff = .store dev a d kd rel cmd va asid

/-- Core scratchpad behind a held effect. -/
def storedIn (m : Memory) (h : Held) : Memory :=
  match h.eff with
  | .store false a d _ _ _ _ _ => writeBytes m a d
  | _ => m

/-- What goes out of the core for a held effect. -/
def outOf (s : State) (h : Held) : OutItem :=
  ⟨h.id, h.slot, h.clause, (getSlot s h.slot).thread.ctx, (getSlot s h.slot).thread.tag, memberBit s h.slot, h.ord, h.eff⟩

/-- What goes out of the core for a held store. -/
def storeOut (s : State) (h : Held) : List OutItem :=
  match h.eff with
  | .store true _ _ _ _ _ _ _ => [outOf s h]
  | _ => []

/-- From `s` to `t` held stores are released: in core scratchpad, or out of the core. -/
structure StoresReleased (s t : State) (hs : List Held) : Prop where
  spad : t.core.spad = hs.foldl storedIn s.core.spad
  out : t.core.out = s.core.out ++ hs.flatMap (storeOut s)
  slot0 : t.core.slot0 = s.core.slot0
  slot1 : t.core.slot1 = s.core.slot1
  index : t.core.index = s.core.index
  pkg : t.pkg = s.pkg
  cluster : t.cluster = s.cluster

theorem storeOut_congr {s t : State} (ht : ∀ k, (getSlot t k).thread = (getSlot s k).thread) (hi : t.core.index = s.core.index) :
    storeOut t = storeOut s := by
  funext h
  simp only [storeOut, outOf, memberBit, coreInCluster, ht, hi]

theorem StoresReleased.slot {s t : State} {hs : List Held} (h : StoresReleased s t hs) (k : Nat) : getSlot t k = getSlot s k := by
  simp only [getSlot, h.slot0, h.slot1]

theorem isSome_itemStore_storeOut {s : State} {h : Held} {o : OutItem} (ho : o ∈ storeOut s h) : (itemStore o).isSome = true := by
  unfold storeOut at ho
  split at ho
  · next he =>
    rw [List.mem_singleton.mp ho]
    simp [outOf, itemStore, he]
  · cases ho

theorem storesReleased_one {s : State} {h : Held} (hst : IsStore h) : StoresReleased s (releaseOne s h) [h] := by
  obtain ⟨dev, a, d, kd, rel, cmd, va, asid, he⟩ := hst
  cases dev with
  | false => constructor <;> simp [releaseOne, storedIn, storeOut, he, trimHeld, writeSpad]
  | true => constructor <;> simp [releaseOne, storedIn, storeOut, outOf, he, release]

theorem storesReleased_all {s : State} {hs : List Held} (hst : ∀ h ∈ hs, IsStore h) : StoresReleased s (hs.foldl releaseOne s) hs := by
  induction hs generalizing s with
  | nil => exact ⟨rfl, (List.append_nil _).symm, rfl, rfl, rfl, rfl, rfl⟩
  | cons h r ih =>
    obtain ⟨hh, hr⟩ := List.forall_mem_cons.mp hst
    have hone := storesReleased_one (s := s) hh
    have hrest := ih (s := releaseOne s h) hr
    refine ⟨?_, ?_, hrest.slot0.trans hone.slot0, hrest.slot1.trans hone.slot1, hrest.index.trans hone.index,
      hrest.pkg.trans hone.pkg, hrest.cluster.trans hone.cluster⟩
    · rw [List.foldl_cons, hrest.spad, hone.spad]
      rfl
    · rw [List.foldl_cons, hrest.out, hone.out, storeOut_congr (fun k => by rw [hone.slot]) hone.index]
      simp

theorem foldl_storedIn_device {hs : List Held} (hst : ∀ h ∈ hs, ∃ a d kd rel cmd va asid, h.eff = .store true a d kd rel cmd va asid)
    (m : Memory) : hs.foldl storedIn m = m := by
  induction hs with
  | nil => rfl
  | cons h r ih =>
    obtain ⟨⟨a, d, kd, rel, cmd, va, asid, he⟩, hr⟩ := List.forall_mem_cons.mp hst
    have hm : storedIn m h = m := by simp only [storedIn, he]
    rw [List.foldl_cons, hm, ih hr]

theorem flatMap_storeOut_scratch {s : State} {hs : List Held}
    (hst : ∀ h ∈ hs, ∃ a d kd rel cmd va asid, h.eff = .store false a d kd rel cmd va asid) : hs.flatMap (storeOut s) = [] := by
  refine List.flatMap_eq_nil_iff.mpr fun h hh => ?_
  obtain ⟨a, d, kd, rel, cmd, va, asid, he⟩ := hst h hh
  simp only [storeOut, he]

theorem flatMap_storeOut_device {s : State} {hs : List Held}
    (hst : ∀ h ∈ hs, ∃ a d kd rel cmd va asid, h.eff = .store true a d kd rel cmd va asid) : hs.flatMap (storeOut s) = hs.map (outOf s) := by
  rw [List.map_eq_flatMap]
  refine List.flatMap_congr fun h hh => ?_
  obtain ⟨a, d, kd, rel, cmd, va, asid, he⟩ := hst h hh
  simp only [storeOut, he]

/-! ### A clause that seals alone with stores -/

theorem getSlot_sealedOff_thread (s : State) (ids : List Nat) (k : Nat) :
    (getSlot (sealedOff s ids) k).thread = (getSlot s k).thread := (imaged_sealImages s _).thread k

theorem getArch_sealedOff (s : State) (ids : List Nat) (k : Nat) (v : VoiceId) : getArch (sealedOff s ids) k v = getArch s k v :=
  (imaged_sealImages s _).arch k v

theorem img_sealedOff {s : State} {id b : Nat} {c : Clause} (hc : s.core.clauses.filter (fun c => decide (c.id = id)) = [c])
    (hb : c.boundary = some b) : (getVoice (sealedOff s [id]) c.slot c.voice).img = c.img := by
  have hf : s.core.clauses.filter (fun c => [id].contains c.id) = [c] := by
    rw [← hc]
    exact List.filter_congr fun x _ => by simp
  have hv : getVoice (sealedOff s [id]) c.slot c.voice = getVoice (sealImage s c) c.slot c.voice := by
    rw [sealedOff, hf]
    rfl
  rw [hv, sealImage, hb]
  simp only [getVoice_setVoice]

theorem heldOf_single (s : State) (id : Nat) : heldOf s [id] = s.core.held.filter (fun h => decide (h.clause = id)) :=
  List.filter_congr fun x _ => by simp

theorem forall_mem_heldOf {s : State} {id : Nat} {P : Held → Prop} (h : ∀ x ∈ s.core.held, x.clause = id → P x) :
    ∀ x ∈ heldOf s [id], P x := by
  rw [heldOf_single]
  intro x hx
  obtain ⟨hmem, hid⟩ := List.mem_filter.mp hx
  exact h x hmem (of_decide_eq_true hid)

/-- From `s` to `t` a clause has sealed that holds stores alone: they are released, and nothing else follows. -/
structure SealsStores (s t : State) (id : Nat) : Prop where
  spad : t.core.spad = (heldOf s [id]).foldl storedIn s.core.spad
  out : t.core.out = s.core.out ++ (heldOf s [id]).flatMap (storeOut s)
  pkg : t.pkg = s.pkg
  cluster : t.cluster = s.cluster
  voice : ∀ k v, getVoice t k v = getVoice (sealedOff s [id]) k v

theorem sealClauses_stores {s : State} {id : Nat} (hout : ∀ o ∈ s.core.out, (itemStore o).isSome = true)
    (hst : ∀ h ∈ heldOf s [id], IsStore h) : SealsStores s (sealClauses s [id]) id := by
  have hrel := storesReleased_all (s := sealedOff s [id]) hst
  obtain ⟨x, y, hoff⟩ := sealedOff_core s [id]
  obtain ⟨-, -, hspad, hitems⟩ := settledBehind_core ((heldOf s [id]).foldl releaseOne (sealedOff s [id])) [id]
  obtain ⟨hpkg, hcluster⟩ := settledBehind_outside ((heldOf s [id]).foldl releaseOne (sealedOff s [id])) [id]
  have hall : (settledBehind ((heldOf s [id]).foldl releaseOne (sealedOff s [id])) [id]).core.out =
      s.core.out ++ (heldOf s [id]).flatMap (storeOut s) := by
    rw [hitems, hrel.out, storeOut_congr (getSlot_sealedOff_thread s [id]) (by rw [hoff]), hoff]
  rw [sealClauses_eq, settle_of_stores]
  · refine ⟨?_, hall, hpkg.trans (hrel.pkg.trans (imaged_sealImages s _).pkg),
      hcluster.trans (hrel.cluster.trans (imaged_sealImages s _).cluster), fun k v => ?_⟩
    · rw [hspad, hrel.spad, hoff]
    · rw [getVoice_settledBehind, getVoice, hrel.slot, getVoice]
  · rw [hall]
    intro o ho
    obtain ho | ho := List.mem_append.mp ho
    · exact hout o ho
    · obtain ⟨h, -, ho⟩ := List.mem_flatMap.mp ho
      exact isSome_itemStore_storeOut ho

/-! ### The event -/

section
variable {s : State} {k id : Nat} (hset : (sealSet s).contains id = true)
  (hany : s.core.clauses.any (fun c => decide (c.id = id) && decide (c.slot = k)) = true) (hz : s.core.freeze = none)
  (hf : s.core.fenced = false)
include hset hany hz hf

theorem clauseSeal_checks {bk a st : Nat}
    (hb : badEntry s (depClosure s.core (sealSet s) (sealSet s).length [id]) = some (bk, a, st)) :
    exec (.clauseSeal k id) s = .next (machineCheck s bk a st) := by
  rw [exec_clauseSeal, execClauseSeal]
  simp only [hset, hany, hz, hf, hb]
  rfl

theorem clauseSeal_seals (hb : badEntry s (depClosure s.core (sealSet s) (sealSet s).length [id]) = none) :
    exec (.clauseSeal k id) s = .next (sealClauses s (depClosure s.core (sealSet s) (sealSet s).length [id])) := by
  rw [exec_clauseSeal, execClauseSeal]
  simp only [hset, hany, hz, hf, hb]
  rfl
end

theorem clauseSeal_stays {s : State} {k id : Nat} (hset : (sealSet s).contains id = false) : Idle (.clauseSeal k id) s := by
  rw [Idle, exec_clauseSeal, execClauseSeal]
  simp only [hset]
  rfl

/-- Settles O44: what seals holds nothing any more by `sealClauses_seals`, what a clause alone holds is released by
`sealClauses_stores`. -/
theorem clausesSealWithWhatTheyHold : Obligations.ClausesSealWithWhatTheyHold := by
  refine fun s k id => ⟨fun hset hany hz hf => ⟨fun bk a st => clauseSeal_checks hset hany hz hf,
    fun hb => ⟨_, clauseSeal_seals hset hany hz hf hb, (sealClauses_seals (mem_depClosure (by simp))).1,
      fun n => sealClauses_seals, fun c halone hc hout => ?_⟩⟩, clauseSeal_stays⟩
  rw [halone]
  refine ⟨fun hst => ?scratch, fun hst => ?device, fun hst => ?stores⟩
  case scratch =>
    have hscratch : ∀ h ∈ heldOf s [id], ∃ a d kd rel cmd va asid, h.eff = .store false a d kd rel cmd va asid :=
      forall_mem_heldOf fun h hh hid =>
        let ⟨a, d, he⟩ := hst h hh hid
        ⟨a, d, _, _, _, _, _, he⟩
    have hseal := sealClauses_stores hout fun h hh => ⟨false, hscratch h hh⟩
    refine ⟨?_, by rw [hseal.out, flatMap_storeOut_scratch hscratch, List.append_nil]⟩
    rw [hseal.spad, heldOf_single]
    rfl
  case device =>
    have hdevice := forall_mem_heldOf hst
    have hseal := sealClauses_stores hout fun h hh => ⟨true, hdevice h hh⟩
    refine ⟨by rw [hseal.spad, foldl_storedIn_device hdevice], ?_⟩
    rw [hseal.out, flatMap_storeOut_device hdevice, heldOf_single]
    congr 1
    refine List.map_congr_left fun h hh => ?_
    rw [outOf, of_decide_eq_true (List.mem_filter.mp hh).2]
  case stores =>
    have hseal := sealClauses_stores hout (forall_mem_heldOf hst)
    refine ⟨hseal.pkg, hseal.cluster, fun j v => ?_, fun b hb => ?_⟩
    · rw [getArch, hseal.voice]
      exact getArch_sealedOff ..
    · rw [hseal.voice, img_sealedOff hc hb]

end Sys2Proof.Machine
end

section
/-! The return of a core to its seal images (R176, R178 to R180): what it undoes, and what it leaves alone. -/

namespace Sys2Proof.Machine

/-! ### Commands are undone (R178) -/

/-- The cores agree but for the array and the commands. -/
def ArrayOnly (c d : Core) : Prop :=
  d = { c with
    cells := d.cells, headers := d.headers, grads := d.grads, tiles := d.tiles, affine := d.affine
    cmds := d.cmds, undoUsed := d.undoUsed }

theorem ArrayOnly.trans {b c d : Core} (h : ArrayOnly b c) (g : ArrayOnly c d) : ArrayOnly b d := by
  rw [ArrayOnly, h] at g
  exact g

theorem arrayOnly_undoCmd (c : Core) (m : Cmd) : ArrayOnly c (undoCmd c m) := by
  unfold undoCmd
  induction m.undo.reverse generalizing c with
  | nil => rfl
  | cons x r ih =>
    have hx : ArrayOnly c (undoOne c x) := by cases x <;> rfl
    exact hx.trans (ih _)

theorem arrayOnly_dropCmds (c : Core) (p : Cmd → Bool) : ArrayOnly c (dropCmds c p) := by
  have hundo (ms : List Cmd) (c : Core) : ArrayOnly c (ms.foldl undoCmd c) := by
    induction ms generalizing c with
    | nil => rfl
    | cons m r ih => exact (arrayOnly_undoCmd c m).trans (ih _)
  exact (hundo (c.cmds.filter p).reverse c).trans rfl

/-! ### What a return leaves alone -/

/-- From `s` to `t` core scratchpad, what is held and the memory are as before. -/
structure KeepsHeld (s t : State) : Prop where
  spad : t.core.spad = s.core.spad
  held : t.core.held = s.core.held
  mem : t.pkg.mem = s.pkg.mem

theorem KeepsHeld.trans {s t u : State} (h : KeepsHeld s t) (g : KeepsHeld t u) : KeepsHeld s u :=
  ⟨g.spad.trans h.spad, g.held.trans h.held, g.mem.trans h.mem⟩

theorem keepsHeld_setSlot (s : State) (k : Nat) (x : Slot) : KeepsHeld s (setSlot s k x) :=
  ⟨setSlot_core_spad .., setSlot_core_held .., by rw [setSlot_pkg]⟩

theorem keepsHeld_openAll (s : State) (k : Nat) (vs : List VoiceId) : KeepsHeld s (openAll s k vs) := by
  induction vs generalizing s with
  | nil => exact ⟨rfl, rfl, rfl⟩
  | cons v r ih =>
    have hv : KeepsHeld s (openClause s k v []) := ⟨openClause_core_spad .., openClause_core_held .., by rw [openClause_pkg]⟩
    exact hv.trans (ih _)

theorem getSlot_openAll_other (s : State) (k : Nat) (vs : List VoiceId) {j : Nat} (h : ¬(j = 0 ↔ k = 0)) :
    getSlot (openAll s k vs) j = getSlot s j := by
  induction vs generalizing s with
  | nil => rfl
  | cons v r ih =>
    obtain ⟨u, y, hu, -, hs⟩ := openClause_eq s k v []
    rw [openAll, ih, hu, setVoice, getSlot_setSlot_other _ _ h, hs]

/-! ### One slot returns -/

/-- A thread that returns to its seal images: it is in its slot, and no stop of it is final. -/
def Returns (s : State) (k : Nat) : Prop := (getSlot s k).run ≠ .empty ∧ (getSlot s k).run ≠ .dead

theorem restoredRun_ne_empty {x : Slot} (h : x.run ≠ .empty) : restoredRun x ≠ .empty := by
  unfold restoredRun
  split
  · contradiction
  · split
    · exact RunState.noConfusion
    · split <;> exact RunState.noConfusion

theorem noVoicePart_rollcnt : NoVoicePart Slot.rollcnt := fun x v y => by simp

/-- From `s` to `u` slot `k` has its voices at their images, and no clause yet. -/
structure Readied (n : Nat) (s : State) (k : Nat) (u : State) : Prop where
  keeps : KeepsHeld s u
  other : ∀ j, ¬(j = 0 ↔ k = 0) → getSlot u j = getSlot s j
  run : (getSlot u k).run = restoredRun (getSlot s k)
  rollcnt : (getSlot u k).rollcnt = (getSlot s k).rollcnt
  voice : ∀ v, getVoice u k v = restoreVoice n (getVoice s k v)

/-- Remote writes and the cluster are no part of a slot. -/
theorem getSlot_beside (u : State) (ns : List Nwr) (c : Cluster) (j : Nat) :
    getSlot (setCluster { u with core := { u.core with nwrs := ns } } c) j = getSlot u j := rfl

theorem restoreSlot_cases (n : Nat) (s : State) (k : Nat) : (restoreSlot n s k = s ∧ ¬Returns s k) ∨
    ∃ u, restoreSlot n s k = openAll u k allVoices ∧ Readied n s k u := by
  unfold restoreSlot
  dsimp only
  split
  · next h =>
    refine .inl ⟨rfl, fun hr => h.elim hr.1 fun hd => hr.2 ?_⟩
    exact of_decide_eq_true (Bool.and_eq_true_iff.mp hd).1
  · refine .inr ⟨_, rfl, ⟨setSlot_core_spad .., setSlot_core_held .., ?_⟩, fun j hj => ?_, ?_, ?_, fun v => ?_⟩
    · rw [setCluster_pkg, setSlot_pkg]
    · rw [getSlot_beside, getSlot_setSlot_other _ _ hj]
      rfl
    · rw [getSlot_beside, getSlot_setSlot]
    · rw [getSlot_beside, getSlot_setSlot]
    · rw [getVoice, getSlot_beside, getSlot_setSlot]
      cases v <;> rfl

theorem keepsHeld_restoreSlot (n : Nat) (s : State) (k : Nat) : KeepsHeld s (restoreSlot n s k) := by
  obtain ⟨h, -⟩ | ⟨u, h, hu⟩ := restoreSlot_cases n s k
  · rw [h]
    exact ⟨rfl, rfl, rfl⟩
  · rw [h]
    exact hu.keeps.trans (keepsHeld_openAll ..)

theorem getSlot_restoreSlot_other (n : Nat) (s : State) {j k : Nat} (hj : ¬(j = 0 ↔ k = 0)) :
    getSlot (restoreSlot n s k) j = getSlot s j := by
  obtain ⟨h, -⟩ | ⟨u, h, hu⟩ := restoreSlot_cases n s k
  · rw [h]
  · rw [h, getSlot_openAll_other _ _ _ hj, hu.other j hj]

/-- From `s` to `t` the thread of slot `k` has returned to its seal images, to issue from cycle `n` on. -/
structure Returned (n k : Nat) (s t : State) : Prop where
  arch : ∀ v, getArch t k v = reinject (getVoice s k v).img (getVoice s k v).imgAt n
  rollcnt : (getSlot t k).rollcnt = (getSlot s k).rollcnt
  run : (getSlot t k).run ≠ .empty

theorem returned_restoreSlot {s : State} {k : Nat} (n : Nat) (hr : Returns s k) : Returned n k s (restoreSlot n s k) := by
  obtain ⟨-, h⟩ | ⟨u, h, hu⟩ := restoreSlot_cases n s k
  · exact absurd hr h
  · rw [h]
    refine ⟨fun v => ?_, ?_, ?_⟩
    · rw [getArch_openAll, getArch, hu.voice]
      rfl
    · rw [getSlot_openAll_part noVoicePart_rollcnt, hu.rollcnt]
    · rw [getSlot_openAll_part noVoicePart_run, hu.run]
      exact restoredRun_ne_empty hr.1

/-! ### Both slots return -/

/-- Only slot `k` counts for its return. -/
theorem returned_of_slot {n k : Nat} {s s' t t' : State} (h : Returned n k s t) (hs : getSlot s k = getSlot s' k)
    (ht : getSlot t' k = getSlot t k) : Returned n k s' t' := by
  refine ⟨fun v => ?_, ?_, ?_⟩
  · have := h.arch v
    simp only [getArch, getVoice, ← hs, ht] at this ⊢
    exact this
  · rw [ht, ← hs, h.rollcnt]
  · rw [ht]
    exact h.run

theorem returned_pruneSlot {n k : Nat} {s t : State} (h : Returned n k s t) (j : Nat) : Returned n k s (pruneSlot t j) := by
  obtain ⟨x, hx, hrun, hcnt, -⟩ := pruneSlot_eq t j
  have hpart : (getSlot (pruneSlot t j) k).run = (getSlot t k).run ∧ (getSlot (pruneSlot t j) k).rollcnt = (getSlot t k).rollcnt := by
    rw [hx]
    by_cases hj : k = 0 ↔ j = 0
    · rw [getSlot_congr _ hj, getSlot_setSlot, getSlot_congr t hj]
      exact ⟨hrun, hcnt⟩
    · rw [getSlot_setSlot_other _ _ hj]
      exact ⟨rfl, rfl⟩
  refine ⟨fun v => ?_, hpart.2.trans h.rollcnt, by rw [hpart.1]; exact h.run⟩
  rw [getArch, getVoice_pruneSlot]
  exact h.arch v

/-- The core without what its clauses hold, and the control state at its sealed copy. -/
def discarded (s : State) : State :=
  let open_ := s.core.clauses.map (fun c => c.id)
  let s1 := dropHeld { s with core := dropCmds s.core (fun m => open_.contains m.clause) } (fun h => open_.contains h.clause)
  { s1 with core := { dropJournal s1.core (fun e => open_.contains e.clause) with streamTurns := [], streamWait := [] } }

theorem restoreImages_eq (s : State) (n : Nat) :
    restoreImages s n = pruneSlot (pruneSlot (restoreSlot n (restoreSlot n (discarded s) 0) 1) 0) 1 := rfl

theorem discarded_facts (s : State) : (discarded s).core.spad = s.core.spad ∧ (discarded s).pkg.mem = s.pkg.mem ∧
    (discarded s).core.held = s.core.held.filter (fun h => !unsealed s.core h.clause) ∧ ∀ k, getSlot (discarded s) k = getSlot s k := by
  have harray := arrayOnly_dropCmds s.core (fun m => (s.core.clauses.map (fun c => c.id)).contains m.clause)
  unfold discarded
  extract_lets open_ s1
  have hs1 : s1.core = { dropCmds s.core (fun m => open_.contains m.clause) with
      held := (dropCmds s.core (fun m => open_.contains m.clause)).held.filter (fun h => !open_.contains h.clause) } := dropHeld_core ..
  have hmem : s1.pkg.mem = s.pkg.mem := (discards_dropHeld (k := 0) _ _).mem
  have hun (cl : Nat) : open_.contains cl = unsealed s.core cl := by
    rw [Bool.eq_iff_iff]
    simp [open_, unsealed]
  rw [ArrayOnly] at harray
  clear_value s1
  refine ⟨?_, hmem, ?_, fun k => ?_⟩
  · change s1.core.spad = s.core.spad
    rw [hs1, harray]
  · change s1.core.held = _
    rw [hs1, harray]
    exact List.filter_congr fun h _ => by rw [hun]
  · change getSlot s1 k = getSlot s k
    rw [getSlot, hs1, harray]
    rfl

/-- From `s` to `t` the core has returned to its seal images, its threads to issue from cycle `n` on. -/
structure ImagesRestored (n : Nat) (s t : State) : Prop where
  spad : t.core.spad = s.core.spad
  mem : t.pkg.mem = s.pkg.mem
  held : ∀ h ∈ t.core.held, unsealed s.core h.clause = false
  slot : ∀ k, Returns s k → Returned n k s t

theorem returned_restoreSlots (n : Nat) (s : State) (k : Nat) (hr : Returns s k) :
    Returned n k s (restoreSlot n (restoreSlot n s 0) 1) := by
  by_cases hk : k = 0
  · subst hk
    exact returned_of_slot (returned_restoreSlot n hr) rfl (getSlot_restoreSlot_other n _ (by decide))
  · have hk1 : k = 0 ↔ 1 = 0 := by simp [hk]
    have hother : getSlot (restoreSlot n s 0) 1 = getSlot s 1 := getSlot_restoreSlot_other n s (by decide)
    have hr1 : Returns (restoreSlot n s 0) 1 := by rwa [Returns, hother, ← getSlot_congr s hk1]
    have h1 := returned_of_slot (returned_restoreSlot n hr1) hother rfl
    refine ⟨fun v => ?_, ?_, ?_⟩
    · have := h1.arch v
      rwa [getArch, getVoice, ← getSlot_congr _ hk1, getVoice, ← getSlot_congr s hk1] at this
    · rw [getSlot_congr _ hk1, getSlot_congr s hk1, h1.rollcnt]
    · rw [getSlot_congr _ hk1]
      exact h1.run

theorem imagesRestored_restoreImages (s : State) (n : Nat) : ImagesRestored n s (restoreImages s n) := by
  obtain ⟨hspad, hmem, hheld, hslot⟩ := discarded_facts s
  have hprune (u : State) (k : Nat) : KeepsHeld u (pruneSlot u k) := keepsHeld_setSlot ..
  have hkeeps : KeepsHeld (discarded s) (restoreImages s n) := by
    rw [restoreImages_eq]
    exact (((keepsHeld_restoreSlot ..).trans (keepsHeld_restoreSlot ..)).trans (hprune ..)).trans (hprune ..)
  refine ⟨hkeeps.spad.trans hspad, hkeeps.mem.trans hmem, fun h hh => ?_, fun k hr => ?_⟩
  · rw [hkeeps.held, hheld] at hh
    simpa using (List.mem_filter.mp hh).2
  · have hr' : Returns (discarded s) k := by rwa [Returns, hslot]
    rw [restoreImages_eq]
    exact returned_pruneSlot (returned_pruneSlot (returned_of_slot (returned_restoreSlots n _ k hr') (hslot k) rfl) 0) 1

/-! ### The rollback (R179) -/

theorem keepsHeld_pmCount (s : State) (k cl ev n : Nat) : KeepsHeld s (pmCount s k cl ev n) := ⟨by simp, by simp, by simp⟩

theorem keepsHeld_countRollback (s : State) (k : Nat) : KeepsHeld s (countRollback s k) := by
  unfold countRollback
  dsimp only
  split
  · exact ⟨rfl, rfl, rfl⟩
  · exact (keepsHeld_setSlot ..).trans (keepsHeld_pmCount ..)

theorem getSlot_countRollback_other (s : State) {j k : Nat} (h : ¬(j = 0 ↔ k = 0)) : getSlot (countRollback s k) j = getSlot s j := by
  unfold countRollback
  dsimp only
  split
  · rfl
  · rw [getSlot_pmCount, getSlot_setSlot_other _ _ h]

theorem getArch_countRollback (s : State) (j k : Nat) (v : VoiceId) : getArch (countRollback s k) j v = getArch s j v := by
  unfold countRollback
  dsimp only
  split
  · rfl
  · rw [getArch_pmCount, getArch_setSlot_voices (fun v => by cases v <;> rfl)]

theorem rollcnt_countRollback {s : State} {k : Nat} (hr : (getSlot s k).run ≠ .empty) (hc : (getSlot s k).rollcnt.toNat < 2 ^ 32 - 1) :
    (getSlot (countRollback s k) k).rollcnt = (getSlot s k).rollcnt + 1 := by
  have hsat : (getSlot s k).rollcnt ≠ BitVec.allOnes 32 := fun h => by simp [h] at hc
  rw [countRollback, if_neg hr, getSlot_pmCount, getSlot_setSlot, if_neg hsat]

theorem rollcnt_countRollbacks {s : State} {k : Nat} (hr : (getSlot s k).run ≠ .empty)
    (hc : (getSlot s k).rollcnt.toNat < 2 ^ 32 - 1) :
    (getSlot (countRollback (countRollback s 0) 1) k).rollcnt = (getSlot s k).rollcnt + 1 := by
  by_cases hk : k = 0
  · subst hk
    rw [getSlot_countRollback_other _ (by decide), rollcnt_countRollback hr hc]
  · have hk1 : k = 0 ↔ 1 = 0 := by simp [hk]
    have hother : getSlot (countRollback s 0) 1 = getSlot s 1 := getSlot_countRollback_other s (by decide)
    rw [getSlot_congr s hk1] at hr hc ⊢
    rw [getSlot_congr _ hk1, rollcnt_countRollback (by rwa [hother]) (by rwa [hother]), hother]

/-- From `s` to `t` the core has rolled back for a report received at cycle `r`. -/
structure RolledBack (r : Nat) (s t : State) : Prop where
  restart : t.core.rollAt = some r
  spad : t.core.spad = s.core.spad
  mem : t.pkg.mem = s.pkg.mem
  held : ∀ h ∈ t.core.held, unsealed s.core h.clause = false
  arch : ∀ k, Returns s k → ∀ v, getArch t k v = reinject (getVoice s k v).img (getVoice s k v).imgAt (r + 16)
  rollcnt : ∀ k, Returns s k → (getSlot s k).rollcnt.toNat < 2 ^ 32 - 1 → (getSlot t k).rollcnt = (getSlot s k).rollcnt + 1

theorem rolledBack_rollback (s : State) (r : Nat) : RolledBack r s (rollback s r) := by
  have h := imagesRestored_restoreImages s (r + 16)
  have hcount := (keepsHeld_countRollback (restoreImages s (r + 16)) 0).trans (keepsHeld_countRollback _ 1)
  have harch (k : Nat) (v : VoiceId) := (getArch_countRollback (countRollback (restoreImages s (r + 16)) 0) k 1 v).trans
    (getArch_countRollback _ k 0 v)
  have hcnt (k : Nat) (hr : Returns s k) := rollcnt_countRollbacks (h.slot k hr).run
  unfold rollback
  generalize countRollback (countRollback (restoreImages s (r + 16)) 0) 1 = u at *
  refine ⟨rfl, hcount.spad.trans h.spad, hcount.mem.trans h.mem, fun x hx => h.held x (hcount.held ▸ hx), fun k hr v => ?_,
    fun k hr hc => ?_⟩
  · exact (harch k v).trans ((h.slot k hr).arch v)
  · have hsame := (h.slot k hr).rollcnt
    have := hcnt k hr (by rwa [hsame])
    rwa [hsame] at this

end Sys2Proof.Machine
end

section
/-! O45: reports (R171, R179 to R182, R250, R299). -/

namespace Sys2Proof.Machine

open Sys2Proof.Claim

/-! ### The event -/

theorem strikeReport_offCore {s : State} {r : Nat} (h : offCore r = true) : exec (.strikeReport r) s = .next (scrub s r) := by
  rw [exec_strikeReport, execStrikeReport, if_pos h]

theorem strikeReport_fenced {s : State} {r : Nat} (h : offCore r = false) (hf : s.core.fenced = true) : Idle (.strikeReport r) s := by
  rw [Idle, exec_strikeReport, execStrikeReport, if_neg (by simp [h]), if_pos hf]

theorem strikeReport_frozen {s : State} {f : Freeze} {r : Nat} (h : offCore r = false) (hf : s.core.fenced = false)
    (hz : s.core.freeze = some f) : exec (.strikeReport r) s =
      .next { s with core := { s.core with freeze := some { f with heldReports := f.heldReports ++ [r] } } } := by
  rw [exec_strikeReport, execStrikeReport, if_neg (by simp [h]), if_neg (by simp [hf]), hz]

theorem strikeReport_acts {s : State} {r : Nat} (h : offCore r = false) (hf : s.core.fenced = false) (hz : s.core.freeze = none) :
    exec (.strikeReport r) s = .next (applyReport s r) := by
  rw [exec_strikeReport, execStrikeReport, if_neg (by simp [h]), if_neg (by simp [hf]), hz]

/-! ### Core and engine reports (R179, R181) -/

theorem applyReport_rolls {s : State} {r : Nat}
    (h : r = 0 ∨ r = 1 ∧ withoutUndo s = [] ∧ ranSealed s = [] ∧ struckPast s = []) : applyReport s r = rollback s s.now := by
  obtain rfl | ⟨rfl, hundo, hsealed, hpast⟩ := h
  · rfl
  · simp [applyReport, hundo, hsealed, hpast]

theorem applyReport_faults {s : State} (h : withoutUndo s ≠ [] ∨ ranSealed s ≠ [] ∨ struckPast s ≠ []) :
    applyReport s 1 = engineFault s (struck s) (struckPast s) := by
  rw [applyReport, if_neg (by decide), if_pos rfl, if_pos h]

theorem engineFault_fences (s : State) (ks : List (Nat × Nat)) (past : List PastRun) : (engineFault s ks past).core.fenced = true := by
  rw [engineFault, fenceCore, fenceMembers_core]

/-! ### Storage reports (R171, R182) -/

theorem badPacket_marks {l : Nat} {ps : List Packet} {p : Packet} (h : ps[l]? = some p) :
    (badPacket l ps)[l]? = some { p with bad := true } := by
  induction ps generalizing l with
  | nil => cases h
  | cons q r ih =>
    cases l with
    | zero =>
      rw [List.getElem?_cons_zero, Option.some.injEq] at h
      rw [badPacket, List.getElem?_cons_zero, h]
    | succ l => exact ih h

theorem offCore_at (k l : Nat) (hk : k < 16) : offCore (3 + k + 16 * l) = (decide (k = 1) || decide (k = 2)) := by
  have hmod : (3 + k + 16 * l - 3) % 16 = k := by omega
  simp [offCore, hmod, show 3 ≤ 3 + k + 16 * l by omega]

theorem offCore_of_lt {r : Nat} (h : r < 3) : offCore r = false := by
  simp [offCore, Nat.not_le.mpr h]

theorem applyReport_scrubs {s : State} {r : Nat} (h : 2 ≤ r) : applyReport s r = scrub s r := by
  rw [applyReport, if_neg (by omega), if_neg (by omega)]

theorem scrub_two (s : State) : scrub s 2 = s := rfl

theorem region_mod {k : Nat} (l : Nat) (hk : k < 16) : (3 + k + 16 * l - 3) % 16 = k := by omega

theorem region_div {k : Nat} (l : Nat) (hk : k < 16) : (3 + k + 16 * l - 3) / 16 = l := by omega

theorem scrub_spad (s : State) (l : Nat) :
    scrub s (3 + 0 + 16 * l) = { s with core := { s.core with poison := dedup (l :: s.core.poison) } } := by
  unfold scrub
  rw [region_mod l (by decide), region_div l (by decide)]
  exact if_neg (by omega)

theorem scrub_memory (s : State) (l : Nat) :
    scrub s (3 + 1 + 16 * l) = { s with pkg := { s.pkg with poison := dedup (l :: s.pkg.poison) } } := by
  unfold scrub
  rw [region_mod l (by decide), region_div l (by decide)]
  rfl

theorem scrub_router (s : State) (l : Nat) :
    scrub s (3 + 2 + 16 * l) = { s with pkg := { s.pkg with router := badPacket l s.pkg.router } } := by
  unfold scrub
  rw [region_mod l (by decide), region_div l (by decide)]
  rfl

theorem scrub_row (s : State) {k : Nat} (l : Nat) (hk : 4 ≤ k) (hk' : k ≤ 8) :
    scrub s (3 + k + 16 * l) = { s with core := { s.core with badRows := dedup ((k, l) :: s.core.badRows) } } := by
  unfold scrub
  rw [region_mod l (by omega), region_div l (by omega)]
  split
  · omega
  · omega
  · omega
  · exact if_pos ⟨hk, hk'⟩

/-! ### The restart, and the host's injection (R179, R255) -/

theorem rollbackRestart_restarts {s : State} {r : Nat} (h : s.core.rollAt = some r) (hd : r + 16 ≤ s.now) (hz : s.core.freeze = none) :
    exec .rollbackRestart s = .next { s with core := { s.core with rollAt := none } } := by
  rw [exec_rollbackRestart, execRollbackRestart, h]
  exact if_pos ⟨hd, hz⟩

theorem rollbackRestart_waits {s : State} {r : Nat} (h : s.core.rollAt = some r) (hd : s.now < r + 16) : Idle .rollbackRestart s := by
  rw [Idle, exec_rollbackRestart, execRollbackRestart, h]
  exact if_neg fun hr => by omega

theorem hostInject_reports {s : State} {core region : Nat} (hc : core = s.core.index) (hr : region < 3) (hp : powered s = true) :
    exec (.hostInject core region) s = exec (.strikeReport region) (wake s) := by
  rw [exec_hostInject, execHostInject, if_pos ⟨hc, hr, hp⟩, exec_strikeReport]

theorem hostInject_refused {s : State} {core region : Nat} (h : core ≠ s.core.index ∨ 3 ≤ region ∨ powered s = false) :
    exec (.hostInject core region) s = .next (wake s) := by
  rw [exec_hostInject, execHostInject, if_neg]
  rintro ⟨hc, hr, hp⟩
  obtain h | h | h := h
  · exact h hc
  · omega
  · simp [hp] at h

/-- Settles O45: a core report rolls back by `rolledBack_rollback`, and an engine report that finds what it cannot undo fences by
`engineFault_fences`; a storage report marks its line by one of `scrub_spad`, `scrub_memory`, `scrub_router` and `scrub_row`. -/
theorem reportsRollTheCoreBack : Obligations.ReportsRollTheCoreBack := by
  refine ⟨fun s => ⟨fun hf r h => strikeReport_fenced h hf, fun f r hf hz h => strikeReport_frozen h hf hz,
    fun hf hz => ⟨fun r hr => ?rolls, fun hx => ?faults, ?corrected, fun l => ?spad, fun l k hk hk' => ?rows⟩, fun l => ?memory,
    fun l p hp => ?router⟩, fun s => ⟨fun r => rollbackRestart_restarts, fun r => rollbackRestart_waits,
    fun core region => ⟨hostInject_reports, hostInject_refused⟩⟩⟩
  case rolls =>
    have hoff : offCore r = false := offCore_of_lt (by omega)
    obtain ⟨hrestart, hspad, hmem, hheld, harch, hcnt⟩ := rolledBack_rollback s s.now
    exact ⟨_, (strikeReport_acts hoff hf hz).trans (congrArg _ (applyReport_rolls hr)), hrestart, hspad, hmem, hheld,
      fun k hrun hdead => ⟨harch k ⟨hrun, hdead⟩, hcnt k ⟨hrun, hdead⟩⟩⟩
  case faults =>
    refine ⟨_, strikeReport_acts rfl hf hz, applyReport_faults hx, ?_⟩
    rw [applyReport_faults hx]
    exact engineFault_fences ..
  case corrected => exact strikeReport_acts rfl hf hz
  case spad =>
    refine ⟨_, strikeReport_acts (offCore_at 0 l (by decide)) hf hz, ?_⟩
    rw [applyReport_scrubs (by omega), scrub_spad]
    exact ⟨mem_dedup.mpr (List.mem_cons_self ..), rfl⟩
  case rows =>
    have hoff : offCore (3 + k + 16 * l) = false := by
      rw [offCore_at k l (by omega)]
      simp
      omega
    refine ⟨_, strikeReport_acts hoff hf hz, ?_⟩
    rw [applyReport_scrubs (by omega), scrub_row s l hk hk']
    exact ⟨mem_dedup.mpr (List.mem_cons_self ..), rfl⟩
  case memory =>
    refine ⟨_, strikeReport_offCore (offCore_at 1 l (by decide)), ?_⟩
    rw [scrub_memory]
    exact ⟨mem_dedup.mpr (List.mem_cons_self ..), rfl⟩
  case router =>
    refine ⟨_, strikeReport_offCore (offCore_at 2 l (by decide)), ?_⟩
    rw [scrub_router]
    exact ⟨badPacket_marks hp, rfl⟩

end Sys2Proof.Machine
end

section
/-! O30 and O33: groups (R190, R192), launches (R199, R200) and YIELD (R205). -/

namespace Sys2Proof.Machine

open Sys2Proof.Claim

/-! ### Groups (R190, R192) -/

section
variable {s : State} {sb : BitVec 1} {p : BitVec 3} {d a : BitVec 5} (hm : MayIssue s sb p .c)
include hm

section
variable (hg : 256 ≤ numOf s a)
include hg

theorem join_outOfRange : Answers (.join sb p d a) s d 4 [] := answers_of_result hm (exec_join ..) (if_pos hg)

theorem leave_outOfRange : Answers (.leave sb p d a) s d 4 [] := answers_of_result hm (exec_leave ..) (if_pos hg)

theorem grpq_outOfRange : Answers (.grpq sb p d a) s d 4 [] := answers_of_result hm (exec_grpq ..) (if_pos hg)
end

section
variable (hg : numOf s a < 256)
include hg

theorem grpq_reports : Answers (.grpq sb p d a) s d (mod64 (groupReport (maskOf s a) (pendOf s a) 0)) [] :=
  answers_of_result hm (exec_grpq ..) (if_neg (Nat.not_le.mpr hg))

section
variable (hmem : isMemberOf s (hereOf s).k (maskOf s a) = true)
include hmem

theorem join_already : Answers (.join sb p d a) s d (mod64 (groupReport (maskOf s a) (pendOf s a) 2)) [] :=
  answers_of_result hm (exec_join ..) ((if_neg (Nat.not_le.mpr hg)).trans (if_pos hmem))

theorem leave_holds :
    Answers (.leave sb p d a) s d (mod64 (groupReport (maskOf s a &&& ~~~(myBit s)) (pendOf s a) 0)) [.leave (numOf s a)] :=
  answers_of_held hm (exec_leave ..) ((if_neg (Nat.not_le.mpr hg)).trans (if_pos hmem))
end

section
variable (hmem : isMemberOf s (hereOf s).k (maskOf s a) = false)
include hmem

theorem join_holds :
    Answers (.join sb p d a) s d (mod64 (groupReport (maskOf s a ||| myBit s) (pendOf s a) 0)) [.join (numOf s a)] :=
  answers_of_held hm (exec_join ..) ((if_neg (Nat.not_le.mpr hg)).trans (if_neg (ne_true_of_eq_false hmem)))

theorem leave_notMember : Answers (.leave sb p d a) s d (mod64 (groupReport (maskOf s a) (pendOf s a) 1)) [] :=
  answers_of_result hm (exec_leave ..) ((if_neg (Nat.not_le.mpr hg)).trans (if_neg (ne_true_of_eq_false hmem)))
end
end
end

/-- Settles O30: a number out of range first, then each word by whether the thread is a member as it sees the group. -/
theorem groupsAreJoinedLeftAndQueried : Obligations.GroupsAreJoinedLeftAndQueried := fun _ _ _ _ _ hm =>
  ⟨fun hg => ⟨join_outOfRange hm hg, leave_outOfRange hm hg, grpq_outOfRange hm hg⟩,
    fun hg => ⟨grpq_reports hm hg, fun hmem => ⟨join_already hm hg hmem, leave_holds hm hg hmem⟩,
      fun hmem => ⟨join_holds hm hg hmem, leave_notMember hm hg hmem⟩⟩⟩

/-! ### Launches (R199, R200) -/

theorem clWord_traps {s : State} {i : Instr} {sb : BitVec 1} {p : BitVec 3} {body : Here → State → Res} {cause : Nat} {fault : Word}
    (hm : MayIssue s sb p .c) (hi : exec i s = clWord sb p body s) (hb : body (hereOf s) s = .trap cause fault s) :
    Traps s i cause fault s := word_traps hm hi hb

section
variable {s u : State} {i : Instr} {sb : BitVec 1} {p : BitVec 3} {body : Here → State → Res} {d : BitVec 5} {x : Word}
  (hm : MayIssue s sb p .c) (hi : exec i s = clWord sb p body s) (hn : Near s u {})
include hm hi hn

/-- A cluster word that answers from the state it has come to. -/
theorem answers_of_result_near (hb : body (hereOf s) s = withResult (hereOf s) d x u id) : Answers i s d x [] := by
  intro hr
  obtain ⟨v, hgo, hv, -⟩ := withWrites_did (go := fun t => .retire .seq false t) hr hn rfl rfl
  exact word_completes hm hi (hb.trans hgo) hv rfl

/-- A cluster word that answers and holds an effect from the state it has come to. -/
theorem answers_of_held_near (hid : u.core.nextId = s.core.nextId) {e : Effect}
    (hb : body (hereOf s) s = withResult (hereOf s) d x u (holdAt (hereOf s) e)) : Answers i s d x [e] := by
  intro hr
  obtain ⟨v, hgo, hv, hvid⟩ := withWrites_did (go := fun t => .retire .seq false (holdAt (hereOf s) e t)) hr hn rfl rfl
  exact word_completes hm hi (hb.trans hgo) (near_hold hv e rfl (hvid.trans hid)) rfl
end

/-- A dependence of the word's clause changes no effect that is still to come. -/
theorem pendingEffects_addDeps (s : State) (k : Nat) (v : VoiceId) (ps : List Nat) :
    pendingEffects (addDeps s k v ps).core = pendingEffects s.core := by simp [pendingEffects]

theorem entriesFree_addDeps (s : State) (k : Nat) (v : VoiceId) (ps : List Nat) : entriesFree (addDeps s k v ps) = entriesFree s := by
  simp [entriesFree, entriesUsed, pendingEffects_addDeps]

theorem reserveLeft_addDeps (s : State) (k : Nat) (v : VoiceId) (ps : List Nat) (j : Nat) :
    reserveLeft (addDeps s k v ps) j = reserveLeft s j := by simp [reserveLeft, ownEffects, pendingEffects_addDeps]

theorem threadCtx_addDeps (s : State) (k : Nat) (v : VoiceId) (ps : List Nat) (j : Nat) :
    threadCtx (addDeps s k v ps) j = threadCtx s j := by simp [threadCtx, getCtx]

section
variable {s : State} {i : Instr} {sb : BitVec 1} {p : BitVec 3} {d a : BitVec 5} {waits : Bool}
  (hi : exec i s = launchWord sb p d a waits s) (hm : MayIssue s sb p .c)
include hi hm

theorem launch_traps_range {bad : Nat} (hl : spadLoadAddr (slotAt s (hereOf s)) (numOf s a) 32 = .error bad) :
    Traps s i 0x0B (visS (me s) a) s := by
  refine clWord_traps hm hi ?_
  simp only [hl]

theorem launch_traps_unaligned (ha : numOf s a % 32 ≠ 0) : Traps s i 0x0B (visS (me s) a) s := by
  cases hl : spadLoadAddr (slotAt s (hereOf s)) (numOf s a) 32 with
  | error bad => exact launch_traps_range hi hm hl
  | ok m =>
    refine clWord_traps hm hi ?_
    simp only [hl]
    exact if_pos ha

variable {m : Nat} (hl : spadLoadAddr (slotAt s (hereOf s)) (numOf s a) 32 = .ok m) (ha : numOf s a % 32 = 0)
include hl ha

theorem launch_stalls_fenced (hf : spadFenced s (hereOf s).k = true) : Stalls s i false := by
  refine word_stalls hm (hi.trans (by rw [launchWord, clWord])) ?_
  simp only [hl, withSpadLoad, hf, if_neg (not_not.mpr ha), if_true]

variable (hf : spadFenced s (hereOf s).k = false) (hp : spadPoison s m 32 = none)
include hf hp

theorem launch_traps_illegal (hr : recReserved (recordOf s m 3) = true) : Traps s i 0x01 0 s := by
  refine clWord_traps hm hi ?_
  simp only [hl, withSpadLoad, hf, hp, hr, if_neg (not_not.mpr ha), Bool.false_eq_true, if_false, if_true]

variable (hr : recReserved (recordOf s m 3) = false)
include hr

/-- What is left to decide once the record is read and its reserved bits are 0: the node, then the entry. -/
theorem launch_body {u : State} (hu : u = addDeps s (hereOf s).k (hereOf s).v (heldClauses s (hereOf s).k false m 32)) :
    exec i s = clWord sb p (fun h _ =>
      if nodeKnown (threadCtx s h.k) (recordOf s m 0) = false then withResult h d 4 u id
      else if 0 < entriesFree s then withResult h d 0 u (holdAt h (launchOf s m false))
      else if 0 < reserveLeft s h.k then withResult h d 0x100 u (holdAt h (launchOf s m true))
      else if waits then .stall true s
      else withResult h d 5 u id) s := by
  subst hu
  rw [hi, launchWord, clWord, clWord, word_takes hm, word_takes hm]
  simp only [hl, withSpadLoad, hf, hp, hr, if_neg (not_not.mpr ha), Bool.false_eq_true, if_false, entriesFree_addDeps,
    reserveLeft_addDeps, threadCtx_addDeps, Bool.not_eq_true']
  rfl

theorem launch_answers_noNode (hnode : nodeKnown (ctxOf s) (recordOf s m 0) = false) : Answers i s d 4 [] :=
  answers_of_result_near hm (launch_body hi hm hl ha hf hp hr rfl) (near_deps (near_refl s) _) (if_pos hnode)

variable (hnode : nodeKnown (ctxOf s) (recordOf s m 0) = true)
include hnode

theorem launch_takes_entry (hfree : 0 < entriesFree s) : Answers i s d 0 [launchOf s m false] :=
  answers_of_held_near hm (launch_body hi hm hl ha hf hp hr rfl) (near_deps (near_refl s) _) (by simp)
    ((if_neg (by simp [hnode])).trans (if_pos hfree))

variable (hfree : entriesFree s = 0)
include hfree

theorem launch_takes_reserve (hres : 0 < reserveLeft s (hereOf s).k) : Answers i s d 0x100 [launchOf s m true] :=
  answers_of_held_near hm (launch_body hi hm hl ha hf hp hr rfl) (near_deps (near_refl s) _) (by simp)
    ((if_neg (by simp [hnode])).trans ((if_neg (by simp [hfree])).trans (if_pos hres)))

/-- Neither an entry nor a reserve: LAUNCH waits, LAUNCHN reports FULL. -/
theorem launch_full (hres : reserveLeft s (hereOf s).k = 0) : if waits then Stalls s i true else Answers i s d 5 [] := by
  have hb := launch_body hi hm hl ha hf hp hr rfl
  cases waits with
  | true => exact word_stalls hm hb (by simp [hnode, hfree, hres])
  | false =>
    exact answers_of_result_near hm hb (near_deps (near_refl s) _)
      ((if_neg (by simp [hnode])).trans ((if_neg (by simp [hfree])).trans (if_neg (by simp [hres]))))
end

/-! ### YIELD (R205) -/

/-- The slot is marked for its pre-emption: no part of a word's own effect. -/
theorem near_yielded {s u : State} {d : Doing} (hn : Near s u d) (preempt yielded : Bool) :
    Near s (setSlot u (hereOf s).k { getSlot u (hereOf s).k with pendPreempt := preempt, yielded := yielded }) d where
  arch := by rw [← hn.arch]; simp only [archAt, getArch, getVoice, getSlot_setSlot]; cases (hereOf s).v <;> rfl
  clause := by
    have := hn.clause
    simp only [clauseAt, curClause, getVoice, getSlot_setSlot] at *
    rw [← this]; cases (hereOf s).v <;> rfl
  ids := by simpa using hn.ids
  voices := ⟨fun v hv => by
    rw [← hn.voices.1 v hv]; simp only [getArch, getVoice, getSlot_setSlot]; cases v <;> rfl,
    fun j hj => by rw [← hn.voices.2 j hj, getSlot_setSlot_other _ _ hj]⟩
  slot := by have := hn.slot; simpa only [KeptSlot, slotAt, getSlot_setSlot] using this
  array := by have := hn.array; simpa [KeptArray] using this
  memory := by have := hn.memory; simpa [KeptMemory] using this
  traced := fun h => by have := hn.traced h; simpa [threadCtx, getCtx] using this
  ctl := by have := hn.ctl; simpa [KeptCtl] using this
  canon := by simpa using hn.canon
  held := by have := hn.held; simpa [KeptHeld] using this
  order := by
    refine ⟨fun cl => by simpa [voiceOfClause] using hn.order.1 cl, fun v => ?_⟩
    rw [← hn.order.2 v]; simp only [getVoice, getSlot_setSlot]; cases v <;> rfl
  cluster := by simpa using hn.cluster
  around := by have := hn.around; simpa [KeptAround] using this

section
variable {s : State} {sb : BitVec 1} {p : BitVec 3} (hm : MayIssue s sb p .c)
include hm

theorem yield_goesOn (hw : readyWaits s (slotAt s (hereOf s)).thread.ctx = false) : Completes (.yield sb p) s {} :=
  clWord_completes hm (exec_yield ..) (if_neg (ne_true_of_eq_false hw)) (near_refl s) rfl

theorem yield_yields (hw : readyWaits s (slotAt s (hereOf s)).thread.ctx = true) :
    ∃ t, exec (.yield sb p) s = .next t ∧ Did s t {} ∧ (slotAt t (hereOf s)).pendPreempt = true := by
  refine ⟨_, ?runs, did_retire (near_yielded (near_refl s) true true) rfl, ?mark⟩
  case runs =>
    rw [exec_yield, execYield, clWord, word_takes hm, if_pos hw]
    rfl
  case mark => simp [slotAt]
end

/-- Settles O33: both words are `launchWord`, judged in the order of its lemmas; YIELD by whether a ready record waits. -/
theorem launchesAndYields : Obligations.LaunchesAndYields := by
  refine ⟨fun s sb p d a m i waits hw hm => ?launch, fun s sb p hm => ⟨yield_goesOn hm, yield_yields hm⟩⟩
  have hi : exec i s = launchWord sb p d a waits s := by
    obtain hw | hw := hw <;> obtain ⟨rfl, rfl⟩ := Prod.mk.injEq .. ▸ hw
    · exact exec_launch ..
    · exact exec_launchn ..
  exact ⟨fun h => h.elim (launch_traps_unaligned hi hm) fun ⟨_, hl⟩ => launch_traps_range hi hm hl,
    launch_stalls_fenced hi hm,
    fun hl ha hf hp => ⟨launch_traps_illegal hi hm hl ha hf hp, fun hr =>
      ⟨launch_answers_noNode hi hm hl ha hf hp hr, fun hnode => ⟨launch_takes_entry hi hm hl ha hf hp hr hnode,
        launch_takes_reserve hi hm hl ha hf hp hr hnode, launch_full hi hm hl ha hf hp hr hnode⟩⟩⟩⟩

end Sys2Proof.Machine
end

section
/-! O51: the packets LAUNCH, EVENT and EVWAIT, and the packets that are not allowed (R198, R200, R246, R247). -/

namespace Sys2Proof.Machine

open Sys2Proof.Claim

/-! ### A packet is done with (R247) -/

@[simp] theorem postCompletion_cluster (s : State) (c : Nat) (notice : Bool) (bs : List Byte) :
    (postCompletion s c notice bs).cluster = s.cluster := by
  unfold postCompletion
  dsimp only
  split
  · rfl
  · split <;> rfl

/-- A completion changes of its context the queue it is written to, the records held, and the count of dropped notices. -/
theorem getCtx_postCompletion (s : State) (c : Nat) (notice : Bool) (bs : List Byte) :
    ∃ cq held dropped, getCtx (postCompletion s c notice bs) c =
      { getCtx s c with cq := cq, heldCompletions := held, droppedNotices := dropped } := by
  unfold postCompletion
  dsimp only
  split
  · exact ⟨_, _, _, getCtx_setCtx ..⟩
  · split <;> exact ⟨_, _, _, getCtx_setCtx ..⟩

/-- A packet that is done with moves its queue's head; what else changes of the context belongs to its completion. -/
theorem getCtx_finishPacket (s : State) (ctx : Nat) (bs : List Byte) (st : Nat) :
    ∃ cq held dropped, getCtx (finishPacket s ctx bs st) ctx =
      { getCtx s ctx with
          sq := { (getCtx s ctx).sq with head := ((getCtx s ctx).sq.head + 1) % 2 ^ 32 }
          cq := cq, heldCompletions := held, droppedNotices := dropped } := by
  unfold finishPacket
  dsimp only
  split
  · obtain ⟨cq, held, dropped, h⟩ := getCtx_postCompletion (setCtx s ctx { getCtx s ctx with
      sq := { (getCtx s ctx).sq with head := ((getCtx s ctx).sq.head + 1) % 2 ^ 32 } }) ctx false _
    rw [getCtx_setCtx] at h
    exact ⟨cq, held, dropped, h⟩
  · exact ⟨_, _, _, getCtx_setCtx ..⟩

theorem finishPacket_movesOn (s : State) (ctx : Nat) (bs : List Byte) (st : Nat) : MovedOn s (finishPacket s ctx bs st) ctx := by
  obtain ⟨cq, held, dropped, h⟩ := getCtx_finishPacket s ctx bs st
  rw [MovedOn, h]

@[simp] theorem events_finishPacket (s : State) (ctx : Nat) (bs : List Byte) (st : Nat) :
    (getCtx (finishPacket s ctx bs st) ctx).events = (getCtx s ctx).events := by
  obtain ⟨cq, held, dropped, h⟩ := getCtx_finishPacket s ctx bs st
  rw [h]

@[simp] theorem waitingEvents_finishPacket (s : State) (ctx : Nat) (bs : List Byte) (st : Nat) :
    (getCtx (finishPacket s ctx bs st) ctx).waitingEvents = (getCtx s ctx).waitingEvents := by
  obtain ⟨cq, held, dropped, h⟩ := getCtx_finishPacket s ctx bs st
  rw [h]

@[simp] theorem finishPacket_core (s : State) (ctx : Nat) (bs : List Byte) (st : Nat) : (finishPacket s ctx bs st).core = s.core := by
  unfold finishPacket
  dsimp only
  split
  · rw [postCompletion_core]
    rfl
  · rfl

@[simp] theorem finishPacket_cluster (s : State) (ctx : Nat) (bs : List Byte) (st : Nat) :
    (finishPacket s ctx bs st).cluster = s.cluster := by
  unfold finishPacket
  dsimp only
  split
  · rw [postCompletion_cluster]
    rfl
  · rfl

/-! ### The packet that is next (R246) -/

theorem withPacket_next {s : State} {ctx idx typ : Nat} {bs : List Byte} (h : NextIs s ctx idx typ bs) (go : List Byte → Out) :
    withPacket ctx idx typ s go = go bs := by
  simp only [withPacket, h.next]
  exact if_pos ⟨trivial, h.typ, h.ok⟩

theorem withPacket_notNext {s : State} {ctx idx : Nat} (h : ∀ bs, nextPacketOf s ctx ≠ some (idx, bs)) (typ : Nat)
    (go : List Byte → Out) : withPacket ctx idx typ s go = .next s := by
  unfold withPacket
  split
  · rfl
  · next i bs hn => exact if_neg fun (⟨hi, _⟩ : _ ∧ _) => h bs (hi ▸ hn)

theorem invalidPacket_notNext {s : State} {ctx idx : Nat} (h : ∀ bs, nextPacketOf s ctx ≠ some (idx, bs)) :
    Idle (.invalidPacket ctx idx) s := by
  rw [Idle, exec_invalidPacket, execInvalidPacket]
  split
  · rfl
  · next i bs hn => exact if_neg fun (⟨hi, _⟩ : _ ∧ _) => h bs (hi ▸ hn)

theorem invalidPacket_ends {s : State} {ctx idx : Nat} {bs : List Byte} (hn : nextPacketOf s ctx = some (idx, bs))
    (hb : packetOk s ctx bs = false) : exec (.invalidPacket ctx idx) s = .next (finishPacket s ctx bs 1) := by
  rw [exec_invalidPacket, execInvalidPacket]
  simp only [hn]
  exact if_pos ⟨trivial, hb⟩

/-- An action that no log has a say in happens as it is. -/
theorem gated_unlogged {s : State} {c : Nat} {bs : List Byte} {go : State → State} (hr : (getCtx s c).replay.mode = 0)
    (hw : (getCtx (go s) c).waitingEvents = []) : gated s c bs go = go s := by
  simp only [gated, replayGate_unlogged hr]
  exact drainLog_nothing hw

/-! ### LAUNCH (R200) -/

section
variable {s : State} {ctx idx : Nat} {bs : List Byte}

section
variable (h : NextIs s ctx idx 1 bs)
include h

theorem launchPacket_unreadable (hl : launchBytes s ctx bs = none) : exec (.launchPacket ctx idx) s = .next (finishPacket s ctx bs 1) := by
  rw [exec_launchPacket, execLaunchPacket, withPacket_next h]
  simp only [hl]

section
variable {rs : List Byte} (hl : launchBytes s ctx bs = some rs)
include hl

theorem launchPacket_reserved (hr : (batchRecs ctx idx (pktTag bs) rs).any (fun q => recReserved q.r3) = true) :
    exec (.launchPacket ctx idx) s = .next (finishPacket s ctx bs 1) := by
  rw [exec_launchPacket, execLaunchPacket, withPacket_next h]
  simp only [hl, hr, if_true]

variable (hr : (batchRecs ctx idx (pktTag bs) rs).any (fun q => recReserved q.r3) = false)
include hr

theorem launchPacket_enters (hh : launchesHere s ctx = true) (hu : Unlogged s ctx)
    (hroom : (batchRecs ctx idx (pktTag bs) rs).length ≤ entriesFree s) :
    exec (.launchPacket ctx idx) s = .next (finishPacket (enqueueBatch s (batchRecs ctx idx (pktTag bs) rs)) ctx bs 0) := by
  rw [exec_launchPacket, execLaunchPacket, withPacket_next h]
  simp only [hl, hr, hh, hroom, Bool.false_eq_true, if_false, decide_true, Bool.and_self, if_true]
  rw [gated_unlogged hu.1]
  rw [waitingEvents_finishPacket]
  exact hu.2

theorem launchPacket_waits (hroom : entriesFree s < (batchRecs ctx idx (pktTag bs) rs).length)
    (he : launchesElsewhere s ctx = false) : Idle (.launchPacket ctx idx) s := by
  rw [Idle, exec_launchPacket, execLaunchPacket, withPacket_next h]
  simp only [hl, hr, he, Nat.not_le.mpr hroom, decide_false, Bool.and_false, Bool.false_eq_true, if_false]
end
end

/-! ### EVENT and EVWAIT (R198) -/

theorem event_changes (h : NextIs s ctx idx 3 bs) (hu : Unlogged s ctx) :
    exec (.event ctx idx) s = .next (finishPacket
      (changeEvents s ctx (pktWord bs 0x08) (mod64 (pktWord bs 0x10)) (mod64 (pktWord bs 0x18))) ctx bs 0) := by
  rw [exec_event, execEvent, withPacket_next h, eventChange_unlogged hu]
  rfl

section
variable (h : NextIs s ctx idx 4 bs)
include h

theorem evwaitPacket_ends (hm : evwaitMet s ctx bs = true) : exec (.evwaitPacket ctx idx) s = .next (finishPacket s ctx bs 0) := by
  rw [exec_evwaitPacket, execEvwaitPacket, withPacket_next h, if_pos hm]

theorem evwaitPacket_waits (hm : evwaitMet s ctx bs = false) : Idle (.evwaitPacket ctx idx) s := by
  rw [Idle, exec_evwaitPacket, execEvwaitPacket, withPacket_next h, if_neg (ne_true_of_eq_false hm)]
end
end

/-- Settles O51: each packet by its lemmas; that it is then done with is `finishPacket_movesOn`. -/
theorem packetsLaunchSetAndAwait : Obligations.PacketsLaunchSetAndAwait := by
  refine ⟨fun s ctx idx bs => ⟨fun h => ⟨fun rs hl hr hh hu => ⟨fun hroom => ?enters, launchPacket_waits h hl hr⟩,
      launchPacket_unreadable h, fun rs hl hr => launchPacket_reserved h hl hr⟩,
    fun h hu => ?event, fun h => ⟨evwaitPacket_ends h, evwaitPacket_waits h⟩, invalidPacket_ends⟩,
    fun s ctx idx h => ⟨withPacket_notNext h 1 _, withPacket_notNext h 3 _, withPacket_notNext h 4 _, invalidPacket_notNext h⟩,
    fun s ctx bs st => ⟨finishPacket_movesOn s ctx bs st, finishPacket_core .., finishPacket_cluster ..⟩⟩
  case enters =>
    exact ⟨_, launchPacket_enters h hl hr hh hu hroom, finishPacket_cluster .., finishPacket_movesOn (enqueueBatch s _) ctx bs 0⟩
  case event =>
    refine ⟨_, event_changes h hu, ?moved, ?events⟩
    case moved =>
      have := finishPacket_movesOn (changeEvents s ctx (pktWord bs 0x08) (mod64 (pktWord bs 0x10)) (mod64 (pktWord bs 0x18))) ctx bs 0
      rwa [MovedOn, changeEvents, getCtx_setCtx] at this
    case events => rw [events_finishPacket, changeEvents, getCtx_setCtx]

end Sys2Proof.Machine
end

section
/-! O56: BAR0 registers (R245), the release of a core (R250), SPDM (R252, R253) and the creation of contexts (R187, R213, R246). -/

namespace Sys2Proof.Machine

open Sys2Proof.Claim

/-! ### What ends PACKAGE-IDLE (R255) -/

/-- The end of PACKAGE-IDLE changes the package's power alone. -/
theorem wake_pkg (s : State) : (wake s).pkg = { s.pkg with power := (wake s).pkg.power } := by
  unfold wake
  split <;> rfl

@[simp] theorem wake_cluster (s : State) : (wake s).cluster = s.cluster := by unfold wake; split <;> rfl

@[simp] theorem wake_mem (s : State) : (wake s).pkg.mem = s.pkg.mem := by rw [wake_pkg]

@[simp] theorem wake_bar0 (s : State) : (wake s).pkg.bar0 = s.pkg.bar0 := by rw [wake_pkg]

@[simp] theorem wake_failing (s : State) : (wake s).pkg.failing = s.pkg.failing := by rw [wake_pkg]

/-! ### BAR0 registers (R245) -/

theorem bar0RegisterWrite_writes {s : State} {off : Nat} {x : Word} (ha : attached s = true) (hlt : off < 0x2000000) (h8 : off % 8 = 0)
    (hboot : off ≠ 8) (hmirror : ¬(0x1000 ≤ off ∧ off < 0x2000)) :
    exec (.bar0RegisterWrite off x) s =
      .next { wake s with pkg := { (wake s).pkg with bar0 := sset (wake s).pkg.bar0 off x } } := by
  rw [exec_bar0RegisterWrite, execBar0RegisterWrite, if_pos]
  simp [ha, hlt, h8, hboot]
  omega

/-- The boot status, the capability mirror, and BAR0 of a package that is off take no write. -/
theorem bar0RegisterWrite_refuses {s : State} {off : Nat} {x : Word}
    (h : attached s = false ∨ off = 8 ∨ (0x1000 ≤ off ∧ off < 0x2000)) : exec (.bar0RegisterWrite off x) s = .next (wake s) := by
  rw [exec_bar0RegisterWrite, execBar0RegisterWrite, if_neg]
  obtain h | h | h := h <;> simp [h]

/-! ### The release of a core (R250) -/

section
variable {s : State} (hp : powered s = true)
include hp

section
variable (hf : s.core.fenced = true) (hi : s.core.index < 192)
include hf hi

theorem coreRelease_releases (hl : releaseFails s.pkg = false) :
    exec (.coreRelease s.core.index) s = .next { releaseCore (wake s) with
      pkg := { (wake s).pkg with coreRelease := mod64 (s.core.index + 2 ^ 63) } } := by
  have hl' : releaseFails (wake s).pkg = false := by rw [← hl, releaseFails, releaseFails, wake_failing]
  rw [exec_coreRelease, execCoreRelease, if_pos (by simp [hp, hi]), if_pos ⟨rfl, hf⟩]
  simp only [hl', Bool.false_eq_true, if_false]
  rfl

theorem coreRelease_fails (hl : releaseFails s.pkg = true) :
    exec (.coreRelease s.core.index) s = .next (stopRelease (wake s).core { releaseCore (wake s) with
      pkg := { (wake s).pkg with coreRelease := mod64 (s.core.index + 2 ^ 62) } }) := by
  have hl' : releaseFails (wake s).pkg = true := by rw [← hl, releaseFails, releaseFails, wake_failing]
  rw [exec_coreRelease, execCoreRelease, if_pos (by simp [hp, hi]), if_pos ⟨rfl, hf⟩]
  simp only [hl', if_true]
  rfl
end

theorem coreRelease_other {c : Nat} (hc : c < 192) (h : c ≠ s.core.index ∨ s.core.fenced = false) :
    exec (.coreRelease c) s = .next { wake s with pkg := { (wake s).pkg with coreRelease := mod64 (c + 2 ^ 63) } } := by
  rw [exec_coreRelease, execCoreRelease, if_pos (by simp [hp, hc]), if_neg]
  · rfl
  · rintro ⟨hidx, hf⟩
    obtain h | h := h
    · exact h hidx
    · exact Bool.false_ne_true (h.symm.trans hf)
end

/-- A core at its reset state holds no thread. -/
theorem run_of_releaseCore {s t : State} (h : t.core = (releaseCore s).core) (k : Nat) : (getSlot t k).run = .empty := by
  rw [getSlot, h]
  split <;> rfl

/-! ### SPDM (R252, R253) -/

/-- A reply of this version and code, its body beginning so, with core and memory as they were. -/
abbrev Replies (i : Instr) (s : State) (ver code : Nat) (body : List Byte) : Prop :=
  ∃ t rest, exec i s = .next t ∧ t.pkg.doe = BitVec.ofNat 8 ver :: BitVec.ofNat 8 code :: (body ++ rest) ∧ t.core = s.core ∧
    t.pkg.mem = s.pkg.mem

section
variable {s : State} {i : Instr}

theorem replies_of_fixed {u : State} {ver code : Nat} {body rest : List Byte} (hi : exec i s = spdmFixed u ver code (body ++ rest))
    (hp : attached u = true) (hcore : u.core = s.core) (hmem : u.pkg.mem = s.pkg.mem) : Replies i s ver code body :=
  ⟨_, rest, hi.trans (if_pos hp), rfl, hcore, hmem⟩

section
variable (ha : attached s = true)
include ha

theorem replies_of_reply {code : Nat} {body : List Byte} (hi : exec i s = spdmReply s code body) : Replies i s 0x13 code body := by
  rw [spdmReply, if_pos ha] at hi
  exact replies_of_fixed hi ha rfl rfl

/-- Of the algorithms asked for, what is selected: P-521 and SHA-512. -/
theorem replies_algorithms (msg : List Byte) : Replies (.negotiateAlgorithms msg) s 0x13 0x63
    ([0, 0, 36, 0] ++ leBytes 1 (fieldAt msg 6 1 % 2) ++ [0] ++ leBytes 4 8 ++ leBytes 4 (if bit (fieldAt msg 8 4) 8 then 0x100 else 0) ++
      leBytes 4 (if bit (fieldAt msg 12 4) 2 then 4 else 0) ++ List.replicate 16 0) := by
  have hp521 : ∀ x, x &&& spdmP521 = if bit x 8 then 0x100 else 0 := fun x => by
    rw [show spdmP521 = 2 ^ 8 from rfl, Nat.and_two_pow, bit]
    cases x.testBit 8 <;> rfl
  have hsha : ∀ x, x &&& spdmSha512 = if bit x 2 then 4 else 0 := fun x => by
    rw [show spdmSha512 = 2 ^ 2 from rfl, Nat.and_two_pow, bit]
    cases x.testBit 2 <;> rfl
  refine replies_of_fixed (u := { s with pkg := { s.pkg with spdmNegotiated := true } }) (rest := []) ?_ ha rfl rfl
  rw [exec_negotiateAlgorithms, execNegotiateAlgorithms, if_pos ha, hp521, hsha, Nat.and_one_is_mod, List.append_nil]
  rfl

/-- Every request is answered with its response code. -/
theorem answered_replies {msg : List Byte} {ver code : Nat} {body : List Byte} (h : Answered s msg i ver code body) :
    Replies i s ver code body := by
  cases h with
  | version => exact replies_of_fixed (rest := []) (exec_getVersion ..) ha rfl rfl
  | capabilities => exact replies_of_reply ha (exec_getCapabilities ..)
  | algorithms => exact replies_algorithms ha msg
  | digests => exact replies_of_fixed (rest := []) (by rw [exec_getDigests, execGetDigests, List.append_nil]) ha rfl rfl
  | certificate =>
    have hi := exec_getCertificate msg s
    rw [execGetCertificate, List.append_assoc, List.append_assoc] at hi
    exact replies_of_fixed hi ha rfl rfl
  | challenge => exact replies_of_reply ha (exec_challenge ..)
  | measurements => exact replies_of_reply ha (exec_getMeasurements ..)
  | other => exact replies_of_fixed (u := s) (exec_unsupportedRequest ..) ha rfl rfl
end
end

/-! ### The creation of contexts (R187, R213, R246) -/

theorem withinLimits_iff (d : ContextDesc) : withinLimits d = true ↔ LimitsOk d := by
  simp [withinLimits, and_assoc]

section
variable {s : State} {d : ContextDesc}

theorem contextCreation_refused (h : powered s = false ∨ ¬LimitsOk d ∨ ctxExists s d.number = true) :
    exec (.contextCreation d) s = .next (wake s) := by
  rw [exec_contextCreation, execContextCreation, if_pos]
  rw [← withinLimits_iff, Bool.not_eq_true] at h
  obtain h | h | h := h <;> simp [h]

section
variable (hp : powered s = true) (hl : LimitsOk d) (hx : ctxExists s d.number = false)
include hp hl hx

/-- What is left to look at: where the rings lie. -/
theorem contextCreation_rings : exec (.contextCreation d) s =
    if ringFits d.sq 64 = false then .fault (.hostAddress d.sq.1)
    else if ringFits d.cq 32 = false then .fault (.hostAddress d.cq.1)
    else if ringFits d.fq 64 = false then .fault (.hostAddress d.fq.1)
    else .next (if d.clusters.getLsbD s.cluster.num && (decide (s.cluster.ctx = none) || s.cluster.switchedOut)
      then assignCluster (setCtx (wake s) d.number (contextOf s d)) d.number else setCtx (wake s) d.number (contextOf s d)) := by
  rw [exec_contextCreation, execContextCreation, if_neg (by simp [hp, (withinLimits_iff d).mpr hl, hx])]
  simp only [Bool.not_eq_true']

section
variable (hsq : ringFits d.sq 64 = true) (hcq : ringFits d.cq 32 = true) (hfq : ringFits d.fq 64 = true)
include hsq hcq hfq

theorem contextCreation_assigns (hb : d.clusters.getLsbD s.cluster.num = true) (hfree : s.cluster.ctx = none ∨ s.cluster.switchedOut = true) :
    exec (.contextCreation d) s = .next (assignCluster (setCtx (wake s) d.number (contextOf s d)) d.number) := by
  rw [contextCreation_rings hp hl hx]
  simp [hsq, hcq, hfq, hb, hfree]

theorem contextCreation_elsewhere (h : ¬(d.clusters.getLsbD s.cluster.num = true ∧ (s.cluster.ctx = none ∨ s.cluster.switchedOut = true))) :
    exec (.contextCreation d) s = .next (setCtx (wake s) d.number (contextOf s d)) := by
  rw [contextCreation_rings hp hl hx]
  simp only [hsq, hcq, hfq, Bool.true_eq_false, if_false]
  rw [if_neg (by simpa using h)]
end
end

/-- A context is there once it is set. -/
theorem ctxExists_setCtx (s : State) (n : Nat) (x : Context) : ctxExists (setCtx s n x) n = true := by simp [ctxExists, setCtx]

/-- The context as its descriptor gives it, with no event set. -/
abbrev CreatedAs (t : State) (d : ContextDesc) : Prop :=
  ctxExists t d.number = true ∧ (getCtx t d.number).root = d.root ∧ (getCtx t d.number).asid = d.asid ∧
    (getCtx t d.number).smode = d.smode ∧ (getCtx t d.number).handler = d.handler ∧ (getCtx t d.number).events = 0 ∧
    (getCtx t d.number).credits = 64

theorem createdAs_contextOf (s u : State) (d : ContextDesc) : CreatedAs (setCtx s d.number (contextOf u d)) d := by
  refine ⟨ctxExists_setCtx .., ?_⟩
  rw [getCtx_setCtx]
  exact ⟨rfl, rfl, rfl, rfl, rfl, rfl⟩

@[simp] theorem assignCluster_contexts (s : State) (n : Nat) : (assignCluster s n).pkg.contexts = s.pkg.contexts := rfl

/-- The assignment of the cluster leaves every context as it is. -/
theorem createdAs_assignCluster {s : State} {d : ContextDesc} (h : CreatedAs s d) (n : Nat) : CreatedAs (assignCluster s n) d := by
  simpa only [CreatedAs, ctxExists, getCtx, assignCluster_contexts] using h
end

/-- Settles O56: BAR0 by `bar0RegisterWrite_writes` and `bar0RegisterWrite_refuses`, releases by the `coreRelease_` lemmas, SPDM by
`answered_replies`, contexts by `createdAs_contextOf` and by whether the cluster is assigned to them. That a release of another core
sets only bit 63 of its register, and the lines at which a release fails (log entry 64), are the model's choices, as are entries 51, 61
and 65. -/
theorem registersReleasesIdentityAndContexts : Obligations.RegistersReleasesIdentityAndContexts := by
  refine ⟨fun s => ⟨fun off x ha hlt h8 hboot hmirror hwf => ?written, fun off x => bar0RegisterWrite_refuses,
      fun hp hf hi hl => ⟨_, coreRelease_releases hp hf hi hl, rfl, rfl, rfl, run_of_releaseCore (s := wake s) rfl, rfl⟩,
      fun hp hf hi hl => ⟨_, coreRelease_fails hp hf hi hl, rfl, rfl⟩,
      fun c hp hc h => ⟨_, coreRelease_other hp hc h, wake_core s, rfl⟩,
      fun msg i ver code body h ha => answered_replies ha h⟩,
    fun s d => ⟨contextCreation_refused, fun hp hl hx => ⟨fun hsq hcq hfq => ?created, fun hsq => ?sq, fun hsq hcq => ?cq,
      fun hsq hcq hfq => ?fq⟩⟩⟩
  case written =>
    refine ⟨_, bar0RegisterWrite_writes ha hlt h8 hboot hmirror, ?_, fun n hn => ?_, wake_mem s, wake_core s⟩
    · exact sget_sset_same (by rwa [wake_bar0]) off x
    · exact (sget_sset_ne (by rwa [wake_bar0]) x hn).trans (by rw [wake_bar0])
  case created =>
    by_cases h : d.clusters.getLsbD s.cluster.num = true ∧ (s.cluster.ctx = none ∨ s.cluster.switchedOut = true)
    · obtain ⟨hb, hfree⟩ := h
      obtain ⟨hex, hroot, hasid, hsmode, hhandler, hevents, hcredits⟩ :=
        createdAs_assignCluster (createdAs_contextOf (wake s) s d) d.number
      exact ⟨_, contextCreation_assigns hp hl hx hsq hcq hfq hb hfree, hex, hroot, hasid, hsmode, hhandler, hevents, hcredits,
        fun _ _ => ⟨rfl, rfl, rfl, rfl⟩, fun hb' => absurd hb (ne_true_of_eq_false hb')⟩
    · obtain ⟨hex, hroot, hasid, hsmode, hhandler, hevents, hcredits⟩ := createdAs_contextOf (wake s) s d
      exact ⟨_, contextCreation_elsewhere hp hl hx hsq hcq hfq h, hex, hroot, hasid, hsmode, hhandler, hevents, hcredits,
        fun hb hfree => absurd ⟨hb, hfree⟩ h, fun _ => ⟨wake_cluster s, wake_core s, wake_mem s⟩⟩
  case sq => rw [contextCreation_rings hp hl hx, if_pos hsq]
  case cq => rw [contextCreation_rings hp hl hx, if_neg (by simp [hsq]), if_pos hcq]
  case fq => rw [contextCreation_rings hp hl hx, if_neg (by simp [hsq]), if_neg (by simp [hcq]), if_pos hfq]

end Sys2Proof.Machine
end

section
/-! The purge of request tags (R183, R283): what it takes from the queue and from the slots, and what it leaves alone. -/

namespace Sys2Proof.Machine

/-! ### Members that leave or are dropped (R190, R191, R193) -/

/-- The queue of records is as it was, and the scheduler as lost as it was. -/
structure KeepsQueue (c d : Cluster) : Prop where
  queue : d.queue = c.queue
  lost : d.lost = c.lost

theorem KeepsQueue.trans {c d e : Cluster} (h : KeepsQueue c d) (g : KeepsQueue d e) : KeepsQueue c e :=
  ⟨g.queue.trans h.queue, g.lost.trans h.lost⟩

theorem keepsQueue_foldl {α : Type} {f : Cluster → α → Cluster} (hf : ∀ c x, KeepsQueue c (f c x)) (xs : List α) (c : Cluster) :
    KeepsQueue c (xs.foldl f c) := by
  induction xs generalizing c with
  | nil => exact ⟨rfl, rfl⟩
  | cons x r ih => exact (hf c x).trans (ih _)

theorem keepsQueue_barrierCheck (now k n : Nat) (c : Cluster) : KeepsQueue c (barrierCheck now c k n) := by
  induction n generalizing c with
  | zero => exact ⟨rfl, rfl⟩
  | succ n ih =>
    rw [barrierCheck]
    dsimp only
    split
    · split
      · exact ⟨rfl, rfl⟩
      · exact ⟨(ih _).queue, (ih _).lost⟩
    · exact ⟨rfl, rfl⟩

theorem keepsQueue_leaveBarrier (now m : Nat) (c : Cluster) (k : Nat) : KeepsQueue c (leaveBarrier now m c k) := by
  obtain ⟨hq, hl⟩ := keepsQueue_barrierCheck now k 4 (setBarrier c k { getBarrier c k with
    a := if (getBarrier c k).e &&& memBit m ≠ 0 then (getBarrier c k).a ||| memBit m else (getBarrier c k).a
    early := (getBarrier c k).early &&& ~~~(memBit m) })
  exact ⟨hq, hl⟩

theorem keepsQueue_leaveGroup (now : Nat) (c : Cluster) (g m : Nat) : KeepsQueue c (leaveGroup now c g m) := by
  unfold leaveGroup
  extract_lets c1
  refine KeepsQueue.trans ?_ (keepsQueue_foldl (keepsQueue_leaveBarrier now m) _ c1)
  exact ⟨rfl, rfl⟩

theorem keepsQueue_leaveAll (now m : Nat) (c : Cluster) : KeepsQueue c (leaveAll now c m) :=
  keepsQueue_foldl (f := fun c (g : Nat × BitVec 16) => leaveGroup now c g.1 m) (fun c g => keepsQueue_leaveGroup now c g.1 m) _ c

theorem keepsQueue_dropPending (now : Nat) (c : Cluster) (g : Nat) : KeepsQueue c (dropPending now c g) := by
  unfold dropPending
  extract_lets c1
  refine KeepsQueue.trans ?_ (keepsQueue_foldl (fun c k => keepsQueue_barrierCheck now k 4 c) _ c1)
  exact ⟨rfl, rfl⟩

theorem keepsQueue_dropRecord (now : Nat) (c : Cluster) (q : QRec) : KeepsQueue c (dropRecord now c q) :=
  keepsQueue_foldl (keepsQueue_dropPending now) ..

/-! ### What a purge leaves alone -/

/-- No record enters the queue, and a slot is as it was or holds no thread any more. -/
structure Purges (s t : State) : Prop where
  queue : ∀ q ∈ t.cluster.queue, q ∈ s.cluster.queue
  lost : t.cluster.lost = s.cluster.lost
  slot : ∀ k, (getSlot t k).run = .empty ∨ getSlot t k = getSlot s k

section
variable {s t u : State}

theorem Purges.trans (h : Purges s t) (g : Purges t u) : Purges s u where
  queue q hq := h.queue q (g.queue q hq)
  lost := g.lost.trans h.lost
  slot k := by
    obtain he | he := g.slot k
    · exact .inl he
    · rw [he]
      exact h.slot k

theorem Purges.stays_empty (h : Purges s t) {k : Nat} (he : (getSlot s k).run = .empty) : (getSlot t k).run = .empty := by
  obtain ht | ht := h.slot k
  · exact ht
  · rw [ht, he]

/-- A change outside the slots and the cluster. -/
theorem purges_of_core (h0 : t.core.slot0 = s.core.slot0) (h1 : t.core.slot1 = s.core.slot1) (hc : t.cluster = s.cluster) :
    Purges s t :=
  ⟨fun q hq => hc ▸ hq, by rw [hc], fun k => .inr (by simp only [getSlot, h0, h1])⟩

theorem OnlySends.purges (h : OnlySends s t) : Purges s t := purges_of_core (by rw [h.core]) (by rw [h.core]) h.cluster

theorem purges_foldl {α : Type} {f : State → α → State} (hf : ∀ s x, Purges s (f s x)) (xs : List α) (s : State) :
    Purges s (xs.foldl f s) := by
  induction xs generalizing s with
  | nil => exact purges_of_core rfl rfl rfl
  | cons x r ih => exact (hf s x).trans (ih _)
end

/-! ### Packets of the fabric (R283) -/

theorem onlySends_foldl {α : Type} {f : State → α → State} (hf : ∀ s x, OnlySends s (f s x)) (xs : List α) (s : State) :
    OnlySends s (xs.foldl f s) := by
  induction xs generalizing s with
  | nil => exact ⟨rfl, rfl, rfl⟩
  | cons x r ih => exact (hf s x).trans (ih _)

theorem onlySends_deliver (s : State) (p : Packet) : OnlySends s (deliver s p) := by
  unfold deliver
  split
  · exact ⟨rfl, rfl, rfl⟩
  · split <;> exact ⟨rfl, rfl, rfl⟩

theorem onlySends_putSaved (s : State) (jk : Nat) (j : Job) : OnlySends s (putSaved s jk j) := by
  unfold putSaved writeSaveArea
  extract_lets bs
  split <;> exact ⟨rfl, rfl, rfl⟩

theorem onlySends_completeInstance (s : State) (jk : Nat) (i : Instance) (status count : Nat) (result : BitVec 32) :
    OnlySends s (completeInstance s jk i status count result) := by
  unfold completeInstance
  split
  · exact ⟨rfl, rfl, rfl⟩
  · refine OnlySends.trans ?_ (onlySends_foldl (fun _ _ => onlySends_inject ..) ..)
    exact ⟨rfl, rfl, rfl⟩

theorem onlySends_failInstance (s : State) (jk g : Nat) (isBar : Bool) (num : Nat) : OnlySends s (failInstance s jk g isBar num) := by
  unfold failInstance
  split
  · exact ⟨rfl, rfl, rfl⟩
  · dsimp only
    split
    · exact ⟨rfl, rfl, rfl⟩
    · exact onlySends_completeInstance ..

theorem onlySends_loseContribution (s : State) (p : Packet) : OnlySends s (loseContribution s p) := by
  unfold loseContribution
  dsimp only
  split
  · exact onlySends_deliver ..
  · split
    · exact onlySends_inject ..
    · exact onlySends_failInstance ..

theorem purges_purgeArrivals (s : State) (jk : Nat) (tag : BitVec 16) : Purges s (purgeArrivals s jk tag) := by
  unfold purgeArrivals
  extract_lets hit gone s1
  refine Purges.trans ?_ (onlySends_foldl (fun t o => ?_) ..).purges
  · exact purges_of_core rfl rfl rfl
  · split
    · exact onlySends_failInstance ..
    · exact ⟨rfl, rfl, rfl⟩

theorem purges_purgePackets (s : State) (jk : Nat) (tag : BitVec 16) : Purges s (purgePackets s jk tag) := by
  unfold purgePackets
  split
  · exact purges_of_core rfl rfl rfl
  · extract_lets ofHub lost j1 s1 s2
    have h2 : OnlySends s s2 := by
      unfold s2
      split
      · refine OnlySends.trans ?_ (onlySends_putSaved ..)
        exact ⟨rfl, rfl, rfl⟩
      · exact ⟨rfl, rfl, rfl⟩
    exact (h2.trans (onlySends_foldl onlySends_loseContribution ..)).purges.trans (purges_purgeArrivals ..)

theorem onlySends_floodPurge (s : State) (p : Packet) : OnlySends s (floodPurge s p) := by
  unfold floodPurge
  dsimp only
  refine OnlySends.trans ?_ (onlySends_foldl (fun t l => (⟨rfl, rfl, rfl⟩ : OnlySends t (sendOn t l 6 p))) ..)
  exact ⟨rfl, rfl, rfl⟩

/-! ### Records and threads (R183) -/

theorem queue_purgeRecords (s : State) (n : Nat) (g : BitVec 16) :
    (purgeRecords s n g).cluster.queue = s.cluster.queue.filter (fun q => !(decide (q.ctx = n) && decide (q.tag = g))) ∧
      (purgeRecords s n g).cluster.lost = s.cluster.lost := by
  unfold purgeRecords
  extract_lets hit gone _ c1 c2
  have h1 : KeepsQueue c1 c2 := keepsQueue_foldl (keepsQueue_dropRecord s.now) gone c1
  have h2 := keepsQueue_foldl (f := fun c (t : AwayTask) => leaveAll s.now c t.mem) (fun c t => keepsQueue_leaveAll s.now t.mem c)
    (s.cluster.away.filter (fun t => hit t.entry)) c2
  clear_value c2
  exact ⟨h2.queue.trans h1.queue, h2.lost.trans h1.lost⟩

theorem purges_purgeRecords (s : State) (n : Nat) (g : BitVec 16) : Purges s (purgeRecords s n g) where
  queue q hq := by
    rw [(queue_purgeRecords s n g).1] at hq
    exact List.mem_of_mem_filter hq
  lost := (queue_purgeRecords s n g).2
  slot _ := .inr rfl

theorem getSlot_breakMissed_other (s : State) {k j : Nat} (hj : ¬(j = 0 ↔ k = 0)) : getSlot (breakMissed s k) j = getSlot s j := by
  unfold breakMissed
  dsimp only
  split
  · rw [getSlot_setSlot_other _ _ hj, getSlot, (debugNotice_keeps ..).1, getSlot]
  · rfl

theorem purges_endThread (s : State) (k : Nat) : Purges s (endThread s k) := by
  obtain ⟨-, -, hmissed⟩ := breakMissed_keeps s k
  have hclear := discards_clearSlot (breakMissed s k) k
  obtain ⟨p, hp⟩ := hclear.cluster
  have hleave := keepsQueue_leaveAll (clearSlot (breakMissed s k) k).now (memberBit s k) (clearSlot (breakMissed s k) k).cluster
  refine ⟨fun q hq => ?queue, ?lost, fun j => ?slot⟩
  case queue =>
    have hq' : q ∈ (clearSlot (breakMissed s k) k).cluster.queue := hleave.queue ▸ hq
    rwa [hp, hmissed] at hq'
  case lost => exact hleave.lost.trans (by rw [hp, hmissed])
  case slot =>
    by_cases hj : j = 0 ↔ k = 0
    · rw [getSlot_congr _ hj]
      exact .inl (getSlot_endThread_run ..)
    · exact .inr ((hclear.other j hj).trans (getSlot_breakMissed_other s hj))

theorem purges_purgeThread (n : Nat) (g : BitVec 16) (s : State) (k : Nat) : Purges s (purgeThread n g s k) := by
  unfold purgeThread
  dsimp only
  split
  · exact purges_endThread ..
  · exact purges_of_core rfl rfl rfl

/-- The thread of the slot bears the tag, or there is none. -/
theorem purgeThread_empties {n : Nat} {g : BitVec 16} {s : State} {k : Nat}
    (h : (getSlot s k).run = .empty ∨ (getSlot s k).thread.ctx = n ∧ (getSlot s k).thread.tag = g) :
    (getSlot (purgeThread n g s k) k).run = .empty := by
  unfold purgeThread
  dsimp only
  split
  · exact getSlot_endThread_run ..
  · next hno =>
    by_contra hrun
    exact hno ⟨hrun, h.resolve_left hrun⟩

/-! ### Purges whole -/

section
variable (s : State) (n : Nat) (g : BitVec 16)

/-- The package's part of a purge comes behind records and threads. -/
theorem purges_purgeLocal_tail : Purges (purgeThread n g (purgeThread n g (purgeRecords s n g) 0) 1) (purgeLocal s n g) := by
  unfold purgeLocal
  dsimp only
  split
  · exact purges_purgePackets ..
  · exact purges_of_core rfl rfl rfl

theorem purges_purge_tail : Purges (purgeLocal s n g) (purge s n g) := by
  unfold purge
  dsimp only
  split
  · split
    · split
      · refine Purges.trans ?_ (onlySends_inject ..).purges
        exact purges_of_core rfl rfl rfl
      · refine Purges.trans ?_ (onlySends_floodPurge ..).purges
        exact purges_of_core rfl rfl rfl
    · exact purges_of_core rfl rfl rfl
  · exact purges_of_core rfl rfl rfl

theorem purges_threads_tail : Purges (purgeRecords s n g) (purge s n g) :=
  (((purges_purgeThread ..).trans (purges_purgeThread ..)).trans (purges_purgeLocal_tail s n g)).trans (purges_purge_tail s n g)

theorem purges_purge : Purges s (purge s n g) := (purges_purgeRecords s n g).trans (purges_threads_tail s n g)

/-- No record of the tag is left in the queue. -/
theorem purge_drops {q : QRec} (hq : q ∈ (purge s n g).cluster.queue) : ¬(q.ctx = n ∧ q.tag = g) := by
  have := (purges_threads_tail s n g).queue q hq
  rw [(queue_purgeRecords s n g).1, List.mem_filter] at this
  rintro ⟨hctx, htag⟩
  simp [hctx, htag] at this

/-- No thread of the tag is left in a slot. -/
theorem purge_ends {k : Nat} (h : (getSlot s k).run = .empty ∨ (getSlot s k).thread.ctx = n ∧ (getSlot s k).thread.tag = g) :
    (getSlot (purge s n g) k).run = .empty := by
  have htail := (purges_purgeLocal_tail s n g).trans (purges_purge_tail s n g)
  by_cases hk : k = 0
  · subst hk
    exact htail.stays_empty ((purges_purgeThread n g _ 1).stays_empty (purgeThread_empties h))
  · rw [getSlot_congr s (k := 1) (by simp [hk])] at h
    rw [getSlot_congr _ (k := 1) (by simp [hk])]
    refine htail.stays_empty (purgeThread_empties ?_)
    obtain he | he := (purges_purgeThread n g (purgeRecords s n g) 0).slot 1
    · exact .inl he
    · rw [he]
      exact h
end

theorem purges_purgeTags (n : Nat) (gs : List (BitVec 16)) (s : State) : Purges s (purgeTags n s gs) :=
  purges_foldl (fun s g => purges_purge s n g) gs s

theorem purgeTags_drops (n : Nat) (gs : List (BitVec 16)) (s : State) {q : QRec} (hq : q ∈ (purgeTags n s gs).cluster.queue) :
    ¬(q.ctx = n ∧ q.tag ∈ gs) := by
  induction gs generalizing s with
  | nil => simp
  | cons g r ih =>
    rintro ⟨hctx, hmem⟩
    obtain hg | hr := List.mem_cons.mp hmem
    · exact purge_drops s n g ((purges_purgeTags n r (purge s n g)).queue q hq) ⟨hctx, hg⟩
    · exact ih _ hq ⟨hctx, hr⟩

theorem purgeTags_ends (n : Nat) (gs : List (BitVec 16)) (s : State) {k : Nat} (hctx : (getSlot s k).thread.ctx = n)
    (htag : (getSlot s k).thread.tag ∈ gs) : (getSlot (purgeTags n s gs) k).run = .empty := by
  induction gs generalizing s with
  | nil => cases htag
  | cons g r ih =>
    have hrest := purges_purgeTags n r (purge s n g)
    obtain hg | hr := List.mem_cons.mp htag
    · exact hrest.stays_empty (purge_ends s n g (.inr ⟨hctx, hg⟩))
    · obtain he | he := (purges_purge s n g).slot k
      · exact hrest.stays_empty he
      · exact ih _ (by rw [he, hctx]) (by rwa [he])

end Sys2Proof.Machine
end

section
/-! O48: pipelines that spill (R204), work stealing (R208) and a lost scheduler (R209). -/

namespace Sys2Proof.Machine

open Sys2Proof.Claim

/-! ### Spilling (R204) -/

theorem spillQueue_parts (q : PipeQueue) : (spillQueue q).items = q.items.take (q.items.length / 2) ∧
    (spillQueue q).items ++ (spillQueue q).overflow = q.items ++ q.overflow := by
  refine ⟨rfl, ?_⟩
  rw [spillQueue, ← List.append_assoc, List.take_append_drop]

theorem writeParted_cluster (s : State) (ps : List Part) (bs : List Byte) : (writeParted s ps bs).cluster = s.cluster := by
  induction ps generalizing s bs with
  | nil => rfl
  | cons p r ih => exact ih ..

@[simp] theorem writeOverflow_cluster (s : State) (c : Nat) (d : PipeDecl) (p : Nat) : (writeOverflow s c d p).cluster = s.cluster := by
  unfold writeOverflow
  dsimp only
  split
  · rfl
  · cases h : writeVirt s (getCtx s c) d.overAddr _ with
    | none => rfl
    | some u =>
      obtain ⟨ps, -, hu⟩ := Option.map_eq_some_iff.mp h
      rw [Option.getD_some, ← hu, writeParted_cluster]

@[simp] theorem postFault_cluster (s : State) (c : Nat) (bs : List Byte) : (postFault s c bs).cluster = s.cluster := by
  unfold postFault
  dsimp only
  split
  · rfl
  · split <;> rfl

theorem purges_clusterFault (s : State) (ctx kind low tags : Nat) : Purges s (clusterFault s ctx kind low tags) :=
  purges_of_core (by rw [clusterFault, postFault_core]) (by rw [clusterFault, postFault_core]) (by rw [clusterFault, postFault_cluster])

/-- The newest halves of the full queues in their overflow, for a cluster. -/
def spilled (c : Cluster) (pipe : Nat) (sts : List Nat) : Cluster :=
  sts.foldl (fun c st => setPipe c pipe st (spillQueue (getPipe c pipe st))) c

/-- The pipeline has not been stalled. -/
abbrev unstalled (c : Cluster) (pipe : Nat) : Cluster := { c with pipeStall := mdel c.pipeStall pipe }

theorem spilled_queue (c : Cluster) (pipe : Nat) (sts : List Nat) : (spilled c pipe sts).queue = c.queue :=
  foldl_queue (f := fun c st => setPipe c pipe st (spillQueue (getPipe c pipe st))) (fun _ _ => rfl) c sts

theorem spilled_pipes_congr {c e : Cluster} (h : c.pipes = e.pipes) (pipe : Nat) (sts : List Nat) :
    (spilled c pipe sts).pipes = (spilled e pipe sts).pipes := by
  induction sts generalizing c e with
  | nil => exact h
  | cons st r ih =>
    have hst : (setPipe c pipe st (spillQueue (getPipe c pipe st))).pipes = (setPipe e pipe st (spillQueue (getPipe e pipe st))).pipes := by
      simp only [setPipe, getPipe, h]
    exact ih hst

section
variable {s : State} {n pipe : Nat} {d : PipeDecl} (hc : s.cluster.ctx = some n) (hd : mfind (getCtx s n).pipes pipe = some d)
include hc hd

theorem exec_pipelineSpill_declared :
    exec (.pipelineSpill pipe) s = .next (if spillReady s pipe then spill s n d pipe else s) := by
  rw [exec_pipelineSpill, execPipelineSpill]
  simp only [hc, hd]

/-- The cluster behind a spill: the stall is over, the queues have moved. -/
theorem pipelineSpill_spills (hr : spillReady s pipe = true) (hroom : afterSpill s d pipe ≤ d.overItems) :
    exec (.pipelineSpill pipe) s = .next (writeOverflow (setCluster s
      (spilled (unstalled s.cluster pipe) pipe (fullQueues s d pipe))) n d pipe) := by
  rw [exec_pipelineSpill_declared hc hd, if_pos hr, spill]
  dsimp only
  rw [if_pos hroom]
  rfl

/-- The tags of a pipeline's tasks: on the core's slots, checkpointed, and on other cores. -/
def pipeTags (s : State) (pipe : Nat) : List (BitVec 16) :=
  dedup ((pipeSlots s pipe).map (fun k => (getSlot s k).thread.tag) ++ (pipeSaved s pipe).map (fun x => x.1) ++
    (pipeAway s pipe).map (fun t => t.entry.tag))

/-- Where the overflow area has no room, the pipeline's tags are purged behind a fault record. -/
theorem pipelineSpill_loses (hr : spillReady s pipe = true) (hroom : d.overItems < afterSpill s d pipe) :
    exec (.pipelineSpill pipe) s = .next (purgeTags n (clusterFault (setCluster s (unstalled s.cluster pipe)) n 3 pipe
      (pipeTags s pipe).length) (pipeTags s pipe)) := by
  rw [exec_pipelineSpill_declared hc hd, if_pos hr, spill]
  dsimp only
  rw [if_neg (Nat.not_le.mpr hroom)]
  rfl
end

/-! ### Work stealing (R208) -/

theorem stealRequest_gives {s : State} {peer i : Nat} {q : QRec} (hn : 2 ≤ (stealable s).length) (hl : s.cluster.lost = false)
    (hi : (stealable s).getLast? = some i) (hq : s.cluster.queue[i]? = some q) (hu : Unlogged s q.ctx) :
    exec (.stealRequest peer) s = .next (setCluster s { s.cluster with
      queue := dropIndex s.cluster.queue i, transit := s.cluster.transit ++ [⟨s.cluster.nextSeq, peer, q, s.now⟩]
      nextSeq := s.cluster.nextSeq + 1 }) := by
  rw [exec_stealRequest, execStealRequest]
  dsimp only
  rw [if_neg (not_or.mpr ⟨Nat.not_lt.mpr hn, ne_true_of_eq_false hl⟩)]
  simp only [hi, hq]
  rw [gated_unlogged hu.1 hu.2]

theorem enters_enterQueue {s : State} {c : Cluster} {head : Bool} {q : QRec} (hctx : c.ctx = s.cluster.ctx)
    (hsw : c.switchedOut = s.cluster.switchedOut) (hqueue : c.queue = s.cluster.queue) (hoff : c.offQueue = s.cluster.offQueue) :
    Enters s (setCluster s (enterQueue c head q)) head q := by
  refine ⟨fun h1 h2 => ?here, fun h => ?off⟩
  case here =>
    rw [enterQueue, if_pos ⟨hctx.trans h1, hsw.trans h2⟩, ← hqueue, ← hoff]
    exact ⟨rfl, rfl⟩
  case off =>
    rw [enterQueue, if_neg, ← hqueue, ← hoff]
    · refine ⟨rfl, ?_⟩
      cases head
      · exact ⟨List.mem_append_right _ (List.mem_singleton_self _), fun x hx => List.mem_append_left _ hx⟩
      · exact ⟨List.mem_cons_self .., fun x hx => List.mem_cons_of_mem _ hx⟩
    · rintro ⟨h1, h2⟩
      obtain h | h := h
      · exact h (hctx.symm.trans h1)
      · exact Bool.false_ne_true (h2.symm.trans (hsw.trans h))

@[simp] theorem enterQueue_stolen (c : Cluster) (head : Bool) (q : QRec) : (enterQueue c head q).stolen = c.stolen := by
  unfold enterQueue
  split <;> rfl

@[simp] theorem enterQueue_transit (c : Cluster) (head : Bool) (q : QRec) : (enterQueue c head q).transit = c.transit := by
  unfold enterQueue
  split <;> rfl

theorem stealConfirm_enters {s : State} {peer seq : Nat} {x : Transit}
    (h : findFirst (fun x => decide (x.seq = seq) && decide (x.peer = peer)) s.cluster.stolen = some x) :
    ∃ t, exec (.stealConfirm peer seq) s = .next t ∧ Enters s t false x.entry ∧ x ∉ t.cluster.stolen := by
  refine ⟨_, ?_, enters_enterQueue (c := { s.cluster with stolen := s.cluster.stolen.filter (fun y => decide (y ≠ x)) }) rfl rfl rfl rfl, ?_⟩
  · rw [exec_stealConfirm, execStealConfirm]
    simp only [h]
  · simp [setCluster]

section
variable {s : State} {seq : Nat} {x : Transit} (h : findFirst (fun x => decide (x.seq = seq)) s.cluster.transit = some x)
include h

theorem stealTimeout_returns (hdue : x.sentAt + microCycles s 16 ≤ s.now) :
    ∃ t, exec (.stealTimeout seq) s = .next t ∧ Enters s t true x.entry ∧ ∀ y ∈ t.cluster.transit, y.seq ≠ seq := by
  refine ⟨_, ?_, enters_enterQueue (c := { s.cluster with transit := s.cluster.transit.filter (fun y => decide (y.seq ≠ seq)) })
    rfl rfl rfl rfl, fun y hy => ?_⟩
  · rw [exec_stealTimeout, execStealTimeout]
    simp only [h, if_pos hdue]
  · rw [setCluster, enterQueue_transit] at hy
    simpa using (List.mem_filter.mp hy).2

theorem stealTimeout_waits (hdue : s.now < x.sentAt + microCycles s 16) : Idle (.stealTimeout seq) s := by
  rw [Idle, exec_stealTimeout, execStealTimeout]
  simp only [h, if_neg (Nat.not_le.mpr hdue)]
end

/-! ### A lost scheduler (R209) -/

section
variable {s : State} {n cl : Nat} (hc : s.cluster.ctx = some n)
include hc

theorem schedLost_other (h : cl ≠ s.cluster.num) : Idle (.schedLost cl) s := by
  rw [Idle, exec_schedLost, execSchedLost]
  simp only [hc, if_neg h]

/-- Every record of the queue bears a tag the scheduler holds, so none is left. -/
theorem schedLost_loses (h : cl = s.cluster.num) (hq : ∀ q ∈ s.cluster.queue, q.ctx = n) :
    ∃ t, exec (.schedLost cl) s = .next t ∧ t.cluster.lost = true ∧ t.cluster.queue = [] := by
  have hfault : Purges (setCluster s { s.cluster with lost := true }) (clusterFault (setCluster s { s.cluster with lost := true }) n 4 0
    (heldTags s).length) := purges_clusterFault ..
  have hpurge := hfault.trans (purges_purgeTags n (heldTags s) _)
  refine ⟨_, ?_, hpurge.lost, List.eq_nil_iff_forall_not_mem.mpr fun q hmem => ?_⟩
  · rw [exec_schedLost, execSchedLost]
    simp only [hc, if_pos h]
  · have hin : q ∈ s.cluster.queue := hpurge.queue q hmem
    refine purgeTags_drops n (heldTags s) _ hmem ⟨hq q hin, mem_dedup.mpr ?_⟩
    simp only [List.mem_append]
    exact .inl (.inl (.inl (.inl (List.mem_map_of_mem hin))))
end

/-- Settles O48: spills by `pipelineSpill_spills` and `pipelineSpill_loses`, whose purge ends the pipeline's threads (`purgeTags_ends`);
steals by the `steal` lemmas with `enters_enterQueue`; a lost scheduler by `schedLost_loses`. -/
theorem pipelinesSpillAndWorkIsStolen : Obligations.PipelinesSpillAndWorkIsStolen := by
  refine ⟨fun s n pipe d hc hd => ⟨fun hr => ?waits, fun hr hroom => ?spills, fun hr hroom => ?loses⟩, spillQueue_parts,
    fun s peer i q hn hl hi hq hu => ⟨_, stealRequest_gives hn hl hi hq hu, rfl, rfl, rfl⟩,
    fun s peer seq => ⟨exec_stealAcknowledge .., fun x => stealConfirm_enters, fun x h => ⟨stealTimeout_returns h, stealTimeout_waits h⟩⟩,
    fun s n cl hc => ⟨schedLost_other hc, schedLost_loses hc⟩⟩
  case waits => rw [Idle, exec_pipelineSpill_declared hc hd, if_neg (ne_true_of_eq_false hr)]
  case spills =>
    refine ⟨_, pipelineSpill_spills hc hd hr hroom, ?pipes, ?whole, writeOverflow_core .., ?queue⟩
    case pipes =>
      rw [writeOverflow_cluster]
      exact spilled_pipes_congr (c := unstalled s.cluster pipe) (e := s.cluster) rfl pipe (fullQueues s d pipe)
    case whole => rw [writeOverflow_cluster]; rfl
    case queue =>
      rw [writeOverflow_cluster]
      exact spilled_queue (unstalled s.cluster pipe) pipe (fullQueues s d pipe)
  case loses =>
    have hfault := purges_clusterFault (setCluster s (unstalled s.cluster pipe)) n 3 pipe (pipeTags s pipe).length
    have htags := purges_purgeTags n (pipeTags s pipe)
      (clusterFault (setCluster s (unstalled s.cluster pipe)) n 3 pipe (pipeTags s pipe).length)
    refine ⟨_, pipelineSpill_loses hc hd hr hroom, (hfault.trans htags).queue, fun k hk hctx => ?_⟩
    obtain he | he := hfault.slot k
    · exact htags.stays_empty he
    · refine purgeTags_ends n _ _ (by rw [he]; exact hctx) ?_
      rw [he]
      exact mem_dedup.mpr (List.mem_append_left _ (List.mem_append_left _ (List.mem_map_of_mem hk)))

end Sys2Proof.Machine
end

section
/-! O49, the switch-out: a cluster is stopped, and taken off with its image written (R210, R259). -/

namespace Sys2Proof.Machine

open Sys2Proof.Claim

/-! ### What the end of a thread leaves of the images -/

/-- The images, where contexts are saved, and their cluster sets are as they were. -/
structure KeepsSaves (s t : State) : Prop where
  images : t.pkg.images = s.pkg.images
  savedIn : ∀ c, (getCtx t c).savedIn = (getCtx s c).savedIn
  clusters : ∀ c, (getCtx t c).clusters = (getCtx s c).clusters

theorem KeepsSaves.trans {s t u : State} (h : KeepsSaves s t) (g : KeepsSaves t u) : KeepsSaves s u :=
  ⟨g.images.trans h.images, fun c => (g.savedIn c).trans (h.savedIn c), fun c => (g.clusters c).trans (h.clusters c)⟩

theorem keepsSaves_of_contexts {s t : State} (hi : t.pkg.images = s.pkg.images) (hc : t.pkg.contexts = s.pkg.contexts) :
    KeepsSaves s t := ⟨hi, fun c => by rw [getCtx, hc, getCtx], fun c => by rw [getCtx, hc, getCtx]⟩

theorem keepsSaves_of_pkg {s t : State} (h : t.pkg = s.pkg) : KeepsSaves s t := keepsSaves_of_contexts (by rw [h]) (by rw [h])

theorem keepsSaves_refl (s : State) : KeepsSaves s s := keepsSaves_of_pkg rfl

theorem keepsSaves_setCtx {s : State} {n : Nat} {x : Context} (hs : x.savedIn = (getCtx s n).savedIn)
    (hc : x.clusters = (getCtx s n).clusters) : KeepsSaves s (setCtx s n x) := by
  refine ⟨rfl, fun c => ?_, fun c => ?_⟩ <;> by_cases h : c = n
  · rw [h, getCtx_setCtx, hs]
  · exact congrArg Context.savedIn (mget_mput_ne _ _ _ h)
  · rw [h, getCtx_setCtx, hc]
  · exact congrArg Context.clusters (mget_mput_ne _ _ _ h)

theorem keepsSaves_foldCounts (s : State) (k : Nat) : KeepsSaves s (foldCounts s k) := by
  unfold foldCounts
  dsimp only
  refine KeepsSaves.trans ?_ (keepsSaves_of_pkg (changes_pkg ..))
  exact keepsSaves_setCtx rfl rfl

theorem keepsSaves_rename (s : State) (old new : Nat) : KeepsSaves s (rename s old new) := by
  refine keepsSaves_of_contexts ?_ (rename_keeps s old new).2
  change (moveFences s old new).pkg.images = s.pkg.images
  unfold moveFences
  split
  · dsimp only
    split
    · rfl
    · rw [setSlot_pkg]
  · rfl

theorem keepsSaves_disownRuns (s : State) (k : Nat) : KeepsSaves s (disownRuns s k) := by
  unfold disownRuns
  dsimp only
  split <;> exact keepsSaves_of_pkg rfl

theorem keepsSaves_withdraw (s : State) (h : Held) : KeepsSaves s (withdraw s h) := by
  unfold withdraw
  split
  · exact keepsSaves_of_pkg rfl
  · exact keepsSaves_setCtx rfl rfl
  · exact keepsSaves_refl s

theorem keepsSaves_dropHeld (s : State) (p : Held → Bool) : KeepsSaves s (dropHeld s p) := by
  have hall (hs : List Held) (u : State) : KeepsSaves u (hs.foldl withdraw u) := by
    induction hs generalizing u with
    | nil => exact keepsSaves_refl u
    | cons h r ih => exact (keepsSaves_withdraw u h).trans (ih _)
  exact (hall _ s).trans (keepsSaves_of_pkg rfl)

theorem keepsSaves_clearSlot (s : State) (k : Nat) : KeepsSaves s (clearSlot s k) := by
  unfold clearSlot
  extract_lets s0 s1 s2 _ s3
  have h0 : KeepsSaves s s0 := ((keepsSaves_foldCounts s k).trans (keepsSaves_rename _ k 2)).trans (keepsSaves_disownRuns _ k)
  clear_value s0
  have h1 : KeepsSaves s0 s1 := keepsSaves_of_pkg rfl
  have h2 : KeepsSaves s1 s2 := keepsSaves_dropHeld ..
  clear_value s1 s2
  have h3 : KeepsSaves s2 s3 := keepsSaves_of_pkg rfl
  clear_value s3
  refine (((h0.trans h1).trans h2).trans h3).trans ?_
  exact keepsSaves_of_pkg (setSlot_pkg ..)

theorem keepsSaves_takeOff (s : State) (k : Nat) : KeepsSaves s (takeOff s k) := by
  unfold takeOff
  extract_lets keep s1
  have h1 : KeepsSaves s s1 := keepsSaves_rename s k (ticketOf s k)
  clear_value s1
  refine KeepsSaves.trans ?_ (keepsSaves_clearSlot ..)
  exact h1.trans (keepsSaves_of_pkg rfl)

/-! ### The two steps of a switch-out (R210) -/

theorem physArea_present {s : State} {area : Nat} (h : presentRange s.pkg area 0x2000 = true) : physArea s area = [(area, spkBase)] :=
  if_pos h

theorem physArea_absent {s : State} {area : Nat} (h : presentRange s.pkg area 0x2000 = false) : physArea s area = [] :=
  if_neg (ne_true_of_eq_false h)

section
variable {s : State} {area n : Nat} (hc : s.cluster.ctx = some n)
include hc

section
variable (hsw : s.cluster.switching = none)
include hsw

theorem clusterSwitchOut_begins (hout : s.cluster.switchedOut = false) (hslice : sliceKept s = true)
    (ha : presentRange s.pkg area 0x2000 = true) :
    exec (.clusterSwitchOut area) s = .next (beginSwitch s [(area, spkBase)]) := by
  rw [exec_clusterSwitchOut, execClusterSwitchOut]
  simp only [hc, hsw, hout, hslice, physArea_present ha]
  exact if_neg (by simp)

theorem clusterSwitchOut_refused (h : s.cluster.switchedOut = true ∨ sliceKept s = false ∨ presentRange s.pkg area 0x2000 = false) :
    Idle (.clusterSwitchOut area) s := by
  rw [Idle, exec_clusterSwitchOut, execClusterSwitchOut]
  simp only [hc, hsw]
  refine if_pos ?_
  obtain h | h | h := h
  · simp [h]
  · simp [h]
  · simp [physArea_absent h]
end

section
variable {spans : List (Nat × Nat)} (hsw : s.cluster.switching = some spans)
include hsw

theorem clusterSwitchOut_waits (hr : switchReady s = false) : Idle (.clusterSwitchOut area) s := by
  rw [Idle, exec_clusterSwitchOut, execClusterSwitchOut]
  simp only [hc, hsw, hr, Bool.false_eq_true, if_false]

theorem clusterSwitchOut_ends (hr : switchReady s = true) : exec (.clusterSwitchOut area) s = .next (switchOut s spans n) := by
  rw [exec_clusterSwitchOut, execClusterSwitchOut]
  simp only [hc, hsw, hr, if_true]
end
end

/-! ### The cluster is taken off -/

/-- The slot's thread leaves it, if it holds one. -/
def vacate (s : State) (k : Nat) : State := if (getSlot s k).run = .empty then s else takeOff s k

theorem vacate_run (s : State) (k : Nat) : (getSlot (vacate s k) k).run = .empty := by
  unfold vacate
  split
  · assumption
  · exact getSlot_takeOff_run ..

theorem vacate_other (s : State) (k : Nat) {j : Nat} (hj : ¬(j = 0 ↔ k = 0)) : getSlot (vacate s k) j = getSlot s j := by
  unfold vacate
  split
  · rfl
  · exact (discards_takeOff s k).other j hj

theorem keepsSaves_vacate (s : State) (k : Nat) : KeepsSaves s (vacate s k) := by
  unfold vacate
  split
  · exact keepsSaves_refl s
  · exact keepsSaves_takeOff ..

/-- The state behind the image of the running context. -/
abbrev imaged (s : State) (spans : List (Nat × Nat)) (n : Nat) : State :=
  writeClusterImage (countsFolded s) spans n (clusterImage (countsFolded s))

theorem switchOut_eq (s : State) (spans : List (Nat × Nat)) (n : Nat) : switchOut s spans n =
    setCluster (vacate (vacate (imaged s spans n) 0) 1) { Cluster.fresh (countsFolded s).cluster.num with
      ctx := some n, switchedOut := true, lost := (countsFolded s).cluster.lost, nextSeq := (countsFolded s).cluster.nextSeq
      transit := (countsFolded s).cluster.transit, stolen := (countsFolded s).cluster.stolen
      offQueue := (countsFolded s).cluster.offQueue } := rfl

theorem vacated_run (s : State) (k : Nat) : (getSlot (vacate (vacate s 0) 1) k).run = .empty := by
  by_cases hk : k = 0
  · rw [hk, vacate_other _ 1 (by simp), vacate_run]
  · rw [getSlot_congr _ (k := 1) (by simp [hk]), vacate_run]

theorem switchOut_run (s : State) (spans : List (Nat × Nat)) (n k : Nat) : (getSlot (switchOut s spans n) k).run = .empty := by
  rw [switchOut_eq, getSlot_setCluster]
  exact vacated_run ..

theorem keepsSaves_switchOut (s : State) (spans : List (Nat × Nat)) (n : Nat) : KeepsSaves (imaged s spans n) (switchOut s spans n) :=
  ((keepsSaves_vacate _ 0).trans (keepsSaves_vacate _ 1)).trans (keepsSaves_of_pkg rfl)

/-- Folding the counters into a context's totals changes nothing of the cluster or of what is saved. -/
theorem countsFolded_keeps (s : State) : KeepsSaves s (countsFolded s) ∧ (countsFolded s).cluster = s.cluster := by
  have hall (ks : List Nat) (u : State) :
      KeepsSaves u (ks.foldl (fun t k => if (getSlot t k).run = .empty then t else foldCounts t k) u) ∧
      (ks.foldl (fun t k => if (getSlot t k).run = .empty then t else foldCounts t k) u).cluster = u.cluster := by
    induction ks generalizing u with
    | nil => exact ⟨keepsSaves_refl u, rfl⟩
    | cons k r ih =>
      rw [List.foldl_cons]
      split
      · exact ih u
      · obtain ⟨hk, hc⟩ := ih (foldCounts u k)
        exact ⟨(keepsSaves_foldCounts u k).trans hk, hc.trans (changes_cluster ..)⟩
  exact hall [0, 1] s

theorem clusterOff_congr {c d : Context} (h : c.clusters = d.clusters) (num : Nat) : clusterOff c num = clusterOff d num := by
  rw [clusterOff, clusterOff, h]

/-- A cluster's image in an area: the context lies there, and the image is the newest. -/
theorem writeClusterImage_saves (s : State) (spans : List (Nat × Nat)) (n : Nat) (m : ClusterImage) :
    (getCtx (writeClusterImage s spans n m) n).savedIn = placeIn s (getCtx s n) spans ∧
      ∃ x, (writeClusterImage s spans n m).pkg.images = x :: s.pkg.images ∧ x.image = m := by
  unfold writeClusterImage
  extract_lets c at_ parts len s1 x
  exact ⟨by rw [getCtx_setCtx], x, rfl, rfl⟩

theorem imaged_saves (s : State) (spans : List (Nat × Nat)) (n : Nat) :
    (getCtx (imaged s spans n) n).savedIn = placeIn s (getCtx s n) spans ∧
      ∃ x, (imaged s spans n).pkg.images = x :: s.pkg.images ∧ x.image = clusterImage (countsFolded s) := by
  obtain ⟨hkeeps, hcl⟩ := countsFolded_keeps s
  obtain ⟨hin, x, himages, hx⟩ := writeClusterImage_saves (countsFolded s) spans n (clusterImage (countsFolded s))
  refine ⟨?_, x, by rw [himages, hkeeps.images], hx⟩
  rw [hin, placeIn, placeIn, clusterOff_congr (hkeeps.clusters n), hcl]

end Sys2Proof.Machine
end

section
/-! O49, the return of a cluster (R210, R250): its tables, and its threads on their slots or in the queue. -/

namespace Sys2Proof.Machine

open Sys2Proof.Claim

/-! ### A packet on its way leaves the configuration as it is -/

theorem deliver_config (s : State) (p : Packet) : (deliver s p).pkg.config = s.pkg.config := by
  unfold deliver
  split
  · rfl
  · split <;> rfl

theorem inject_config (s : State) (jk : Nat) (p : Packet) : (inject s jk p).pkg.config = s.pkg.config := by
  unfold inject
  split
  · exact deliver_config s p
  · split
    · unfold putSaved writeSaveArea
      extract_lets bs
      split <;> rfl
    · exact deliver_config s p

theorem sendRead_config (k : Nat) (s : State) (x : Xfer) : (sendRead k s x).pkg.config = s.pkg.config := by
  unfold sendRead
  split
  · rfl
  · split
    · rfl
    · exact inject_config ..

theorem sendAll_config (k : Nat) (s : State) (xs : List Xfer) : (xs.foldl (sendRead k) s).pkg.config = s.pkg.config := by
  induction xs generalizing s with
  | nil => rfl
  | cons x r ih => rw [List.foldl_cons, ih, sendRead_config]

theorem resumeReads_config (s : State) (k : Nat) : (resumeReads s k).pkg.config = s.pkg.config := by
  unfold resumeReads sendReads
  dsimp only
  rw [sendAll_config, sendAll_config]

/-! ### What the return of a thread leaves as it is -/

/-- The core and the number by which it may hold threads, and the task of every other slot, are as they were. -/
structure KeepsCore (k : Nat) (s t : State) : Prop where
  fenced : t.core.fenced = s.core.fenced
  index : t.core.index = s.core.index
  config : t.pkg.config = s.pkg.config
  other : ∀ j, ¬(j = 0 ↔ k = 0) → ((getSlot t j).run, (getSlot t j).thread) = ((getSlot s j).run, (getSlot s j).thread)

theorem KeepsCore.trans {k : Nat} {s t u : State} (h : KeepsCore k s t) (g : KeepsCore k t u) : KeepsCore k s u where
  fenced := g.fenced.trans h.fenced
  index := g.index.trans h.index
  config := g.config.trans h.config
  other j hj := (g.other j hj).trans (h.other j hj)

theorem KeepsCore.usable {k : Nat} {s t : State} (h : KeepsCore k s t) : coreUsable t = coreUsable s := by
  rw [coreUsable, coreUsable, h.fenced, h.index, h.config]

theorem keepsCore_of_slots {k : Nat} {s t : State} (h0 : t.core.slot0 = s.core.slot0) (h1 : t.core.slot1 = s.core.slot1)
    (hf : t.core.fenced = s.core.fenced) (hi : t.core.index = s.core.index) (hp : t.pkg.config = s.pkg.config) : KeepsCore k s t :=
  ⟨hf, hi, hp, fun j _ => by rw [getSlot, h0, h1, getSlot]⟩

theorem keepsCore_setSlot (s : State) (k : Nat) (x : Slot) : KeepsCore k s (setSlot s k x) where
  fenced := setSlot_core_fenced ..
  index := setSlot_core_index ..
  config := congrArg Package.config (setSlot_pkg ..)
  other j hj := by rw [getSlot_setSlot_other _ _ hj]

theorem keepsCore_openClause (s : State) (k : Nat) (v : VoiceId) (ps : List Nat) : KeepsCore k s (openClause s k v ps) := by
  obtain ⟨w, y, hw, -, hs⟩ := openClause_eq s k v ps
  refine ⟨openClause_core_fenced .., openClause_core_index .., by rw [openClause_pkg], fun j hj => ?_⟩
  rw [hw, setVoice, getSlot_setSlot_other _ _ hj, hs]

theorem keepsCore_openAll (s : State) (k : Nat) (vs : List VoiceId) : KeepsCore k s (openAll s k vs) := by
  induction vs generalizing s with
  | nil => exact ⟨rfl, rfl, rfl, fun _ _ => rfl⟩
  | cons v r ih => exact (keepsCore_openClause s k v []).trans (ih _)

theorem keepsCore_rename (k : Nat) (s : State) (old new : Nat) : KeepsCore k s (rename s old new) := by
  have hmove : (moveFences s old new).core.fenced = s.core.fenced ∧ (moveFences s old new).core.index = s.core.index ∧
      (moveFences s old new).pkg.config = s.pkg.config := by
    unfold moveFences
    split
    · dsimp only
      split
      · exact ⟨rfl, rfl, rfl⟩
      · exact ⟨setSlot_core_fenced .., setSlot_core_index .., congrArg Package.config (setSlot_pkg ..)⟩
    · exact ⟨rfl, rfl, rfl⟩
  obtain ⟨hfenced, hindex, hconfig⟩ := hmove
  exact ⟨hfenced, hindex, hconfig, fun j _ => by rw [getSlot_rename]⟩

theorem keepsCore_resumeReads (k : Nat) (s : State) (j : Nat) : KeepsCore k s (resumeReads s j) := by
  obtain ⟨hcore, -, -⟩ := onlySends_resumeReads s j
  exact ⟨by rw [hcore], by rw [hcore], resumeReads_config .., fun i _ => by rw [getSlot, hcore, getSlot]⟩

theorem keepsCore_restoreThread (s : State) (k : Nat) (m : SavedThread) : KeepsCore k s (restoreThread s k m) := by
  unfold restoreThread
  extract_lets s' t n _ x alone s1 lo core1 s2
  have h2 : KeepsCore k s s2 := by
    have hbanks : KeepsCore k s s' := keepsCore_of_slots rfl rfl rfl rfl rfl
    refine (hbanks.trans (keepsCore_setSlot s' k x)).trans ?_
    have hcore : KeepsCore k (setSlot s' k x) { s1 with core := core1 } := by
      simp only [core1]
      split <;> exact keepsCore_of_slots rfl rfl rfl rfl rfl
    exact hcore.trans (keepsCore_of_slots rfl rfl rfl rfl rfl)
  clear_value s2
  exact ((h2.trans (keepsCore_rename k s2 m.ticket k)).trans (keepsCore_openAll _ k allVoices)).trans (keepsCore_resumeReads k _ k)

theorem restoreThread_tag (s : State) (k : Nat) (m : SavedThread) :
    (getSlot (restoreThread s k m) k).thread.tag = m.slot.thread.tag := by
  unfold restoreThread
  extract_lets s' t n _ x alone s1 lo core1 s2
  have hslot : getSlot s2 k = x := by
    have hcore : core1.slot0 = s1.core.slot0 ∧ core1.slot1 = s1.core.slot1 := by
      simp only [core1]
      split <;> exact ⟨rfl, rfl⟩
    have hsame : getSlot s2 k = getSlot s1 k := by
      simp only [getSlot, s2]
      rw [hcore.1, hcore.2]
    rw [hsame]
    exact getSlot_setSlot s' k x
  clear_value s2
  have hsent : getSlot (resumeReads (openAll (rename s2 m.ticket k) k allVoices) k) k =
      getSlot (openAll (rename s2 m.ticket k) k allVoices) k := by
    rw [getSlot, (onlySends_resumeReads ..).core, getSlot]
  have hopen : (getSlot (openAll (rename s2 m.ticket k) k allVoices) k).thread = (getSlot (rename s2 m.ticket k) k).thread :=
    getSlot_openAll_part (f := (·.thread)) (fun y v z => by cases v <;> rfl) ..
  rw [hsent, hopen, getSlot_rename, hslot]
  rfl

/-! ### A thread waits in the queue where its core may hold none (R250) -/

/-- A member that is off its slot changes the groups, their pending members and their barriers. -/
theorem parkMember_eq (c : Cluster) (m : Nat) :
    ∃ gs ps bs, parkMember c m = { c with groups := gs, pending := ps, barriers := bs } := by
  have hall (off : BitVec 16 → BitVec 16) (l : List Nat) (d : Cluster) :
      ∃ gs ps, l.foldl (fun d g => addPending (setGroup d g (off (groupMask d g))) g) d = { d with groups := gs, pending := ps } := by
    induction l generalizing d with
    | nil => exact ⟨d.groups, d.pending, rfl⟩
    | cons g r ih =>
      obtain ⟨gs, ps, h⟩ := ih (addPending (setGroup d g (off (groupMask d g))) g)
      exact ⟨gs, ps, h⟩
  obtain ⟨gs, ps, h⟩ := hall (fun x => x &&& ~~~(memBit m)) (memberGroups c m) c
  refine ⟨gs, ps, (parkMember c m).barriers, ?_⟩
  unfold parkMember
  extract_lets off c1
  have hc1 : c1 = { c with groups := gs, pending := ps } := h
  rw [hc1]

theorem resumeThread_usable {s : State} (h : coreUsable s = true) (p : Nat × SavedThread) :
    resumeThread s p = restoreThread s p.1 p.2 := if_pos h

/-- On a core that may hold no thread it is a record of the queue, with its image. -/
theorem resumeThread_unusable {s : State} (h : coreUsable s = false) (p : Nat × SavedThread) :
    ∃ gs ps bs m, resumeThread s p = setCluster s { s.cluster with
      groups := gs, pending := ps, barriers := bs, queue := s.cluster.queue ++ [threadRec p.2.slot (some m)] } := by
  obtain ⟨gs, ps, bs, hpark⟩ := parkMember_eq s.cluster (memberBit s p.1)
  refine ⟨gs, ps, bs, (parkThread s.cluster (memberBit s p.1) p.2).1, (if_neg (ne_true_of_eq_false h)).trans ?_⟩
  simp only [parkThread, hpark]

/-! ### All threads of an image -/

/-- The tables of the cluster and the contexts are as they were. -/
structure KeepsTables (s t : State) : Prop where
  flags : t.cluster.flags = s.cluster.flags
  pipes : t.cluster.pipes = s.cluster.pipes
  ctx : t.cluster.ctx = s.cluster.ctx
  switchedOut : t.cluster.switchedOut = s.cluster.switchedOut
  contexts : t.pkg.contexts = s.pkg.contexts

theorem KeepsTables.trans {s t u : State} (h : KeepsTables s t) (g : KeepsTables t u) : KeepsTables s u :=
  ⟨g.flags.trans h.flags, g.pipes.trans h.pipes, g.ctx.trans h.ctx, g.switchedOut.trans h.switchedOut, g.contexts.trans h.contexts⟩

theorem keepsTables_resumeThread (s : State) (p : Nat × SavedThread) : KeepsTables s (resumeThread s p) := by
  by_cases hu : coreUsable s = true
  · obtain ⟨-, -, -, hcluster, hcontexts⟩ := restoreThread_facts s p.1 p.2
    rw [resumeThread_usable hu]
    exact ⟨by rw [hcluster], by rw [hcluster], by rw [hcluster], by rw [hcluster], hcontexts⟩
  · obtain ⟨gs, ps, bs, m, h⟩ := resumeThread_unusable (Bool.eq_false_of_not_eq_true hu) p
    rw [h]
    exact ⟨rfl, rfl, rfl, rfl, rfl⟩

theorem keepsTables_resumeThreads (ps : List (Nat × SavedThread)) (s : State) : KeepsTables s (ps.foldl resumeThread s) := by
  induction ps generalizing s with
  | nil => exact ⟨rfl, rfl, rfl, rfl, rfl⟩
  | cons p r ih => exact (keepsTables_resumeThread s p).trans (ih _)

section
variable {s : State} (hu : coreUsable s = true)
include hu

theorem resumeThread_usable_keeps (p : Nat × SavedThread) :
    KeepsCore p.1 s (resumeThread s p) ∧ (resumeThread s p).cluster = s.cluster := by
  obtain ⟨-, -, -, hcluster, -⟩ := restoreThread_facts s p.1 p.2
  rw [resumeThread_usable hu]
  exact ⟨keepsCore_restoreThread .., hcluster⟩

theorem resumeThreads_cluster (ps : List (Nat × SavedThread)) : (ps.foldl resumeThread s).cluster = s.cluster := by
  induction ps generalizing s with
  | nil => rfl
  | cons p r ih =>
    obtain ⟨hcore, hcluster⟩ := resumeThread_usable_keeps hu p
    exact (ih (hcore.usable.trans hu)).trans hcluster

/-- A slot that no thread comes back to keeps its task. -/
theorem resumeThreads_other {j : Nat} (ps : List (Nat × SavedThread)) (hj : ∀ p ∈ ps, ¬(j = 0 ↔ p.1 = 0)) :
    ((getSlot (ps.foldl resumeThread s) j).run, (getSlot (ps.foldl resumeThread s) j).thread) = ((getSlot s j).run, (getSlot s j).thread) := by
  induction ps generalizing s with
  | nil => rfl
  | cons p r ih =>
    obtain ⟨hcore, -⟩ := resumeThread_usable_keeps hu p
    obtain ⟨hp, hr⟩ := List.forall_mem_cons.mp hj
    exact (ih (hcore.usable.trans hu) hr).trans (hcore.other j hp)

/-- Threads of different slots come back to them. -/
theorem resumeThreads_slots (ps : List (Nat × SavedThread)) (hp : ps.Pairwise (fun p q => ¬(p.1 = 0 ↔ q.1 = 0))) :
    ∀ p ∈ ps, (getSlot (ps.foldl resumeThread s) p.1).run = p.2.slot.run ∧
      (getSlot (ps.foldl resumeThread s) p.1).thread.tag = p.2.slot.thread.tag := by
  induction ps generalizing s with
  | nil => simp
  | cons p r ih =>
    obtain ⟨hcore, -⟩ := resumeThread_usable_keeps hu p
    obtain ⟨hhead, htail⟩ := List.pairwise_cons.mp hp
    have hu' := hcore.usable.trans hu
    refine List.forall_mem_cons.mpr ⟨?_, ih hu' htail⟩
    obtain ⟨hrun, hthread⟩ := Prod.mk.inj (resumeThreads_other hu' (j := p.1) r hhead)
    obtain ⟨hrun0, -⟩ := restoreThread_facts s p.1 p.2
    rw [List.foldl_cons, hrun, hthread, resumeThread_usable hu]
    exact ⟨hrun0, restoreThread_tag ..⟩
end

/-- On a core that may hold none, the threads of an image are behind the queue, each with its image. -/
theorem resumeThreads_unusable {s : State} (hu : coreUsable s = false) (ps : List (Nat × SavedThread)) :
    (ps.foldl resumeThread s).core = s.core ∧ ∃ rs, (ps.foldl resumeThread s).cluster.queue = s.cluster.queue ++ rs ∧
      rs.map (fun q => q.r0) = ps.map (fun p => p.2.slot.thread.rec0) ∧ ∀ q ∈ rs, q.saved.isSome = true := by
  induction ps generalizing s with
  | nil => exact ⟨rfl, [], (List.append_nil _).symm, rfl, by simp⟩
  | cons p r ih =>
    obtain ⟨gs, pend, bs, m, h⟩ := resumeThread_unusable hu p
    have hu' : coreUsable (resumeThread s p) = false := by rw [h]; exact hu
    obtain ⟨hcore, rs, hq, hmap, hsaved⟩ := ih hu'
    refine ⟨hcore.trans (by rw [h]; rfl), threadRec p.2.slot (some m) :: rs, ?_, ?_, List.forall_mem_cons.mpr ⟨rfl, hsaved⟩⟩
    · rw [List.foldl_cons, hq, h]
      simp [setCluster]
    · rw [List.map_cons, hmap]
      rfl

/-! ### The tables of an image -/

/-- The cluster as its image has it, before its threads come back. -/
def tablesRestored (s : State) (n : Nat) (m : ClusterImage) : State :=
  setCtx { s with
    cluster := { s.cluster with
      ctx := some n, flags := m.flags, groups := m.groups, barriers := m.barriers
      queue := cameWhileOut s n true ++ m.queue ++ cameWhileOut s n false
      offQueue := s.cluster.offQueue.filter (fun x => decide (x.2.ctx ≠ n)), away := m.away, pipes := m.pipes
      instances := m.instances, pending := countPending m.queue, pipeStall := [], promised := [], switchedOut := false
      switching := none, restoredAt := s.now }
    core := putArray s.core m.array
    pkg := { s.pkg with
      mem := m.spk.foldl (fun b p => sset b p.1 p.2) (mclear s.pkg.mem (spkBase + s.cluster.num * spkSize) spkSize) } } n
    { getCtx s n with savedIn := none }

theorem restoreCluster_eq (s : State) (n : Nat) (m : ClusterImage) :
    restoreCluster s n m = m.threads.foldl resumeThread (tablesRestored s n m) := rfl

theorem keepsTables_restoreCluster (s : State) (n : Nat) (m : ClusterImage) :
    KeepsTables (tablesRestored s n m) (restoreCluster s n m) := keepsTables_resumeThreads ..

/-- CLUSTER_RESTORE brings the saved context's image back onto a cluster that runs no context (R210). -/
theorem clusterRestore_restores {s : State} {area n : Nat} {c : Context} (hs : SavedHere s (physArea s area) n c)
    (hfree : s.cluster.switchedOut = true ∨ s.cluster.ctx = none) (hempty : ∀ k, (getSlot s k).run = .empty) (hparked : c.parked = false) :
    exec (.clusterRestore area) s = .next (restoreCluster (pastImage s) n (imageAt s (c.savedIn.getD []) n)) := by
  have hcond : ((s.cluster.switchedOut || decide (s.cluster.ctx = none)) && decide ((getSlot s 0).run = .empty) &&
      decide ((getSlot s 1).run = .empty) && !c.parked) = true := by
    simpa [hempty, hparked] using hfree
  rw [exec_clusterRestore, execClusterRestore]
  dsimp only
  generalize hfound : findFirst _ s.pkg.contexts = found
  obtain rfl : found = some (n, c) := hfound.symm.trans hs
  exact if_pos hcond

section
variable (s : State) (n : Nat) (m : ClusterImage)

/-- Threads that come back onto their slots leave the cluster as its image has it. -/
theorem restoreCluster_cluster (h : coreUsable s = true ∨ m.threads = []) :
    (restoreCluster s n m).cluster = (tablesRestored s n m).cluster := by
  rw [restoreCluster_eq]
  obtain h | h := h
  · exact resumeThreads_cluster (s := tablesRestored s n m) h _
  · rw [h]
    rfl

theorem restoreCluster_slots (h : coreUsable s = true) (hsub : (m.threads.map (fun p => p.1)).Sublist [0, 1]) :
    ∀ p ∈ m.threads, (getSlot (restoreCluster s n m) p.1).run = p.2.slot.run ∧
      (getSlot (restoreCluster s n m) p.1).thread.tag = p.2.slot.thread.tag := by
  have hdiffer : (m.threads.map (fun p => p.1)).Pairwise (fun i j => ¬(i = 0 ↔ j = 0)) := List.Pairwise.sublist hsub (by simp)
  rw [restoreCluster_eq]
  exact resumeThreads_slots (s := tablesRestored s n m) h _ (List.pairwise_map.mp hdiffer)

theorem restoreCluster_unusable (h : coreUsable s = false) :
    (∀ k, (getSlot (restoreCluster s n m) k).run = (getSlot s k).run) ∧
    ∃ rs, (restoreCluster s n m).cluster.queue = cameWhileOut s n true ++ m.queue ++ cameWhileOut s n false ++ rs ∧
      rs.map (fun q => q.r0) = m.threads.map (fun p => p.2.slot.thread.rec0) ∧ ∀ q ∈ rs, q.saved.isSome = true := by
  obtain ⟨hcore, hqueue⟩ := resumeThreads_unusable (s := tablesRestored s n m) h m.threads
  rw [restoreCluster_eq]
  exact ⟨fun k => by rw [getSlot, hcore]; rfl, hqueue⟩

theorem restoreCluster_array (h : m.threads = []) : (restoreCluster s n m).core = putArray s.core m.array := by
  rw [restoreCluster_eq, h]
  rfl
end

/-! ### A context's own part of an image ends its parking (R262) -/

theorem tablesRestored_parked (s : State) (n : Nat) (m : ClusterImage) :
    (getCtx (tablesRestored s n m) n).parked = (getCtx s n).parked := by
  rw [tablesRestored, getCtx_setCtx]

theorem restoreCluster_parked (s : State) (n : Nat) (m : ClusterImage) :
    (getCtx (restoreCluster s n m) n).parked = (getCtx s n).parked := by
  rw [getCtx, (keepsTables_restoreCluster s n m).contexts]
  exact tablesRestored_parked s n m

end Sys2Proof.Machine
end

section
/-! O49: contexts are saved and restored, by a word's request or the host's (R259 to R262). -/

namespace Sys2Proof.Machine

open Sys2Proof.Claim

/-! ### A save begins and ends (R261, R262) -/

@[simp] theorem preemptSlot_pkg (s : State) (k : Nat) : (preemptSlot s k).pkg = s.pkg := by
  unfold preemptSlot
  dsimp only
  split
  · split
    · rfl
    · rw [setSlot_pkg]
  · split
    · rw [setSlot_pkg, stopThread_pkg]
    · rw [setSlot_pkg, stopThread_pkg]
    · rw [setSlot_pkg]
    · rfl

/-- A save that is OK has its area. -/
theorem areaSpans_of_saveStatus {s : State} {who : Option Nat} {n area units : Nat} (h : saveStatus s who n area units = 0) :
    ∃ spans, areaSpans s who .write area (units * 4096) = some spans := by
  rw [← Option.isSome_iff_exists]
  unfold saveStatus at h
  split_ifs at h with h1 h2 h3 h4 h5 h6
  exact Option.isSome_iff_ne_none.mpr fun hn => h5 (by rw [hn]; rfl)

/-- The state of a save that begins but for the switch-out: the context is busy, the area has no magic. -/
theorem beginSave_pkg (s : State) (n : Nat) (spans : List (Nat × Nat)) : (beginSave s n spans).pkg =
    (putBytes (setCtx s n { getCtx s n with busy := true }) spans 0 (List.replicate 8 0)).pkg := by
  unfold beginSave
  dsimp only
  split
  · rw [beginSwitch, preemptSlot_pkg, preemptSlot_pkg, setCluster]
  · rfl

theorem beginSave_busy (s : State) (n : Nat) (spans : List (Nat × Nat)) : (getCtx (beginSave s n spans) n).busy = true := by
  rw [getCtx, beginSave_pkg]
  exact congrArg Context.busy (getCtx_setCtx s n { getCtx s n with busy := true })

theorem beginSave_hostSave (s : State) (n : Nat) (spans : List (Nat × Nat)) : (beginSave s n spans).pkg.hostSave = s.pkg.hostSave := by
  rw [beginSave_pkg]
  rfl

/-- A save that ends parks its context. -/
theorem finishSave_parks {s : State} {who : Option Nat} {area units : Nat} {spans : List (Nat × Nat)}
    (h : areaSpans s who .write area (units * 4096) = some spans) (n : Nat) :
    (getCtx (finishSave s who n area units) n).parked = true ∧ (getCtx (finishSave s who n area units) n).busy = false := by
  unfold finishSave
  rw [h]
  dsimp only
  rw [getCtx_setCtx]
  exact ⟨rfl, rfl⟩

theorem writeClusterImage_hostSave (s : State) (spans : List (Nat × Nat)) (n : Nat) (m : ClusterImage) :
    (writeClusterImage s spans n m).pkg.hostSave = s.pkg.hostSave := by
  unfold writeClusterImage
  extract_lets c at_ parts len s1 x
  have hs1 : s1.pkg.hostSave = s.pkg.hostSave := rfl
  clear_value s1 x
  exact hs1

theorem placeImage_hostSave (s : State) (spans : List (Nat × Nat)) (n : Nat) :
    (placeImage s spans n).pkg.hostSave = s.pkg.hostSave := by
  unfold placeImage
  split
  · split
    · exact writeClusterImage_hostSave ..
    · rfl
  · split
    · rfl
    · exact writeClusterImage_hostSave ..

theorem finishSave_hostSave (s : State) (who : Option Nat) (n area units : Nat) :
    (finishSave s who n area units).pkg.hostSave = s.pkg.hostSave := by
  unfold finishSave
  split
  · rfl
  · extract_lets s1 c live bs s2
    have hs1 : s1.pkg.hostSave = s.pkg.hostSave := placeImage_hostSave ..
    clear_value s1 bs
    exact hs1

/-! ### A request is answered -/

theorem findOut_dropItem (s : State) (n : Nat) : findOut (dropItem s n) n = none := by
  have hall (os : List OutItem) : findFirst (fun o => decide (o.id = n)) (os.filter (fun o => decide (o.id ≠ n))) = none := by
    induction os with
    | nil => rfl
    | cons o r ih =>
      by_cases h : o.id = n
      · simpa [h] using ih
      · simpa [h, findFirst] using ih
  exact hall s.core.out

@[simp] theorem getCtx_setResult (s : State) (id : Nat) (x : Word) (c : Nat) : getCtx (setResult s id x) c = getCtx s c := rfl

@[simp] theorem getCtx_dropItem (s : State) (n c : Nat) : getCtx (dropItem s n) c = getCtx s c := rfl

theorem mem_requests_setResult (s : State) (id : Nat) (x : Word) : ⟨id, some x⟩ ∈ (setResult s id x).pkg.requests := by
  simp [setResult]

theorem underWay_noteUnderWay (s : State) (id : Nat) : underWay (noteUnderWay s id) id = true := by
  simp [underWay, noteUnderWay]

section
variable {s : State} {n id c units : Nat} {a : Word} {o : OutItem} (ho : findOut s n = some o)
include ho

section
variable (he : o.eff = .ctxsave id c a units)
include he

theorem contextSaveRequest_begins (hw : underWay s id = false) (hst : saveStatus s (some o.ctx) c a.toNat units = 0) :
    ∃ spans, exec (.contextSaveRequest n) s = .next (noteUnderWay (beginSave s c spans) id) := by
  obtain ⟨spans, hspans⟩ := areaSpans_of_saveStatus hst
  refine ⟨spans, ?_⟩
  rw [exec_contextSaveRequest, execContextSaveRequest]
  simp only [ho, he, hw, hst, hspans, Bool.false_eq_true, if_false, if_true]

theorem contextSaveRequest_refused (hw : underWay s id = false) (hst : saveStatus s (some o.ctx) c a.toNat units ≠ 0) :
    exec (.contextSaveRequest n) s =
      .next (dropItem (setResult s id (saveResult s c (saveStatus s (some o.ctx) c a.toNat units))) n) := by
  rw [exec_contextSaveRequest, execContextSaveRequest]
  simp only [ho, he, hw, hst, Bool.false_eq_true, if_false]

theorem contextSaveRequest_ends (hw : underWay s id = true) (hready : saveReady s c = true) :
    exec (.contextSaveRequest n) s =
      .next (dropItem (setResult (finishSave s (some o.ctx) c a.toNat units) id (saveResult s c 0)) n) := by
  rw [exec_contextSaveRequest, execContextSaveRequest]
  simp only [ho, he, hw, hready, if_true]
end

theorem contextRestoreRequest_answers (he : o.eff = .ctxrst id c a) : exec (.contextRestoreRequest n) s =
    .next (dropItem (setResult (if restoreStatus s (some o.ctx) c a.toNat = 0 then finishRestore s (some o.ctx) c a.toNat else s) id
      (w64 (restoreStatus s (some o.ctx) c a.toNat))) n) := by
  rw [exec_contextRestoreRequest, execContextRestoreRequest]
  simp only [ho, he]
end

/-! ### A restore ends the parking (R262) -/

/-- A restore that is OK has its area: of the head, and of the length that it gives. -/
theorem areaSpans_of_restoreStatus {s : State} {who : Option Nat} {n area : Nat} (h : restoreStatus s who n area = 0) :
    ∃ head spans, areaSpans s who .read area 0x2000 = some head ∧
      areaSpans s who .read area (fieldAt (areaBytes s head 0 0x2000) 0x28 8) = some spans := by
  unfold restoreStatus at h
  dsimp only at h
  split_ifs at h
  split at h
  · cases h
  · next head hhead =>
    split at h
    · cases h
    · split at h
      · cases h
      · next spans hspans => exact ⟨head, spans, hhead, hspans⟩

theorem finishRestore_unparks {s : State} {who : Option Nat} {n area : Nat} (h : restoreStatus s who n area = 0) :
    (getCtx (finishRestore s who n area) n).parked = false := by
  obtain ⟨head, spans, hhead, hspans⟩ := areaSpans_of_restoreStatus h
  have hload : (getCtx (setCtx s n (loadContext (getCtx s n) (areaBytes s head 0 0x2000))) n).parked = false := by
    rw [getCtx_setCtx]
    rfl
  unfold finishRestore
  rw [hhead]
  dsimp only
  rw [hspans]
  dsimp only
  split
  · rw [restoreCluster_parked]
    exact hload
  · exact hload

/-! ### The host's requests -/

theorem hostCtxsave_off {s : State} (h : powered s = false) (c a units : Nat) : Idle (.hostCtxsave c a units) s := by
  rw [Idle, exec_hostCtxsave, execHostCtxsave, h]
  rfl

theorem hostCtxrst_off {s : State} (h : powered s = false) (c a : Nat) : Idle (.hostCtxrst c a) s := by
  rw [Idle, exec_hostCtxrst, execHostCtxrst, h]
  rfl

@[simp] theorem wake_hostSave (s : State) : (wake s).pkg.hostSave = s.pkg.hostSave := by rw [wake_pkg]

theorem saveReady_wake (s : State) (n : Nat) : saveReady (wake s) n = saveReady s n := by
  rw [saveReady, saveReady, wake_cluster]

theorem presentRange_wake (s : State) (pa n : Nat) : presentRange (wake s).pkg pa n = presentRange s.pkg pa n := by
  rw [wake_pkg]
  rfl

/-- The host's request is no save under way that may complete. -/
theorem hostSave_new {s : State} {c a units : Nat} (h : (c, a, units) ∉ s.pkg.hostSave ∨ saveReady s c = false) :
    ((wake s).pkg.hostSave.contains (c, a, units) && saveReady (wake s) c) = false := by
  rw [wake_hostSave, saveReady_wake]
  obtain h | h := h
  · simp [h]
  · simp [h]

section
variable {s : State} {c a units : Nat} (hp : powered s = true)
include hp

section
variable (hnew : (c, a, units) ∉ s.pkg.hostSave ∨ saveReady s c = false)
include hnew

theorem hostCtxsave_begins (hst : saveStatus (wake s) none c a units = 0) :
    ∃ t, exec (.hostCtxsave c a units) s = .next t ∧ (getCtx t c).busy = true ∧ t.pkg.hostSave = s.pkg.hostSave ++ [(c, a, units)] := by
  rw [exec_hostCtxsave, execHostCtxsave]
  simp only [hp, hostSave_new hnew, hst, Bool.not_true, Bool.false_eq_true, if_false, if_true]
  refine ⟨_, rfl, beginSave_busy (wake s) c _, ?_⟩
  rw [noteUnderWay, beginSave_hostSave, wake_hostSave]

theorem hostCtxsave_refused (hst : saveStatus (wake s) none c a units ≠ 0) : exec (.hostCtxsave c a units) s =
    .next (setResult (wake s) 0 (saveResult (wake s) c (saveStatus (wake s) none c a units))) := by
  rw [exec_hostCtxsave, execHostCtxsave]
  simp only [hp, hostSave_new hnew, hst, Bool.not_true, Bool.false_eq_true, if_false]
end

/-- The host's save under way completes: its context is parked, and its entry, and no other, leaves the list. -/
theorem hostCtxsave_ends (hunder : (c, a, units) ∈ s.pkg.hostSave) (hready : saveReady s c = true)
    (ha : presentRange s.pkg a (units * 4096) = true) :
    ∃ t, exec (.hostCtxsave c a units) s = .next t ∧ (getCtx t c).parked = true ∧
      t.pkg.hostSave = s.pkg.hostSave.filter (fun y => decide (y ≠ (c, a, units))) := by
  have hspans : areaSpans (wake s) none .write a (units * 4096) = some [(a, units * 4096)] := by
    rw [areaSpans, presentRange_wake, ha]
    rfl
  rw [exec_hostCtxsave, execHostCtxsave]
  simp only [hp, wake_hostSave, saveReady_wake, hready, List.contains_iff_mem.mpr hunder, Bool.not_true, Bool.false_eq_true,
    Bool.and_self, if_false, if_true]
  refine ⟨_, rfl, (finishSave_parks hspans c).1, ?_⟩
  rw [setResult, finishSave_hostSave, wake_hostSave]

theorem hostCtxrst_answers : exec (.hostCtxrst c a) s =
    .next (setResult (if restoreStatus (wake s) none c a = 0 then finishRestore (wake s) none c a else wake s) 0
      (w64 (restoreStatus (wake s) none c a))) := by
  rw [exec_hostCtxrst, execHostCtxrst]
  simp only [hp, Bool.not_true, Bool.false_eq_true, if_false]
end

end Sys2Proof.Machine
end

section
namespace Sys2Proof.Machine

open Sys2Proof.Claim

/-! ### What the statement asks of a cluster's return, and of each request -/

/-- A cluster that is switched out, or that no context has, takes a saved context's image back. -/
theorem clusterRestore_facts {s : State} {area n : Nat} {c : Context} (hs : SavedHere s (physArea s area) n c)
    (hfree : s.cluster.switchedOut = true ∨ s.cluster.ctx = none) (hempty : ∀ k, (getSlot s k).run = .empty) (hparked : c.parked = false) :
    ∃ t m, exec (.clusterRestore area) s = .next t ∧ m = imageAt s (c.savedIn.getD []) n ∧
      t.cluster.switchedOut = false ∧ t.cluster.ctx = some n ∧ t.cluster.flags = m.flags ∧ t.cluster.pipes = m.pipes ∧
      (coreUsable s = true ∨ m.threads = [] → t.cluster.groups = m.groups ∧ t.cluster.barriers = m.barriers ∧
        t.cluster.queue = cameWhileOut s n true ++ m.queue ++ cameWhileOut s n false) ∧
      (coreUsable s = true → (m.threads.map (fun p => p.1)).Sublist [0, 1] →
        ∀ p ∈ m.threads, (getSlot t p.1).run = p.2.slot.run ∧ (getSlot t p.1).thread.tag = p.2.slot.thread.tag) ∧
      (coreUsable s = false → (∀ k, (getSlot t k).run = .empty) ∧
        ∃ rs, t.cluster.queue = cameWhileOut s n true ++ m.queue ++ cameWhileOut s n false ++ rs ∧
          rs.map (fun q => q.r0) = m.threads.map (fun p => p.2.slot.thread.rec0) ∧ ∀ q ∈ rs, q.saved.isSome = true) ∧
      (m.threads = [] → t.core.cells = m.array.cells ∧ t.core.tiles = m.array.tiles ∧ t.core.ctl.knots = m.array.knots) := by
  refine ⟨_, _, clusterRestore_restores hs hfree hempty hparked, rfl, ?_⟩
  generalize imageAt s (c.savedIn.getD []) n = m
  have htables := keepsTables_restoreCluster (pastImage s) n m
  refine ⟨htables.switchedOut, htables.ctx, htables.flags, htables.pipes, fun h => ?_, fun hu hsub => ?_, fun hu => ?_, fun h => ?_⟩
  · rw [restoreCluster_cluster (pastImage s) n m h]
    exact ⟨rfl, rfl, rfl⟩
  · exact restoreCluster_slots (pastImage s) n m hu hsub
  · obtain ⟨hslots, hqueue⟩ := restoreCluster_unusable (pastImage s) n m hu
    exact ⟨fun k => (hslots k).trans (hempty k), hqueue⟩
  · rw [restoreCluster_array (pastImage s) n m h]
    exact ⟨rfl, rfl, rfl⟩

/-- The switch-out of a cluster leaves it empty, with its image the newest. -/
theorem switchOut_facts (s : State) (spans : List (Nat × Nat)) (n : Nat) :
    (getCtx (switchOut s spans n) n).savedIn = placeIn s (getCtx s n) spans ∧
      ∃ x, (switchOut s spans n).pkg.images = x :: s.pkg.images ∧ x.image = clusterImage (countsFolded s) := by
  have hkeeps := keepsSaves_switchOut s spans n
  obtain ⟨hin, x, himages, hx⟩ := imaged_saves s spans n
  exact ⟨(hkeeps.savedIn n).trans hin, x, hkeeps.images.trans himages, hx⟩

/-- Settles O49: a switch-out is `clusterSwitchOut_*` and `switchOut_facts`, a return `clusterRestore_facts`; the requests end in
`finishSave_parks` and `finishRestore_unparks`. -/
theorem clustersAndContextsAreSavedAndRestored : Obligations.ClustersAndContextsAreSavedAndRestored := by
  unfold Obligations.ClustersAndContextsAreSavedAndRestored
  refine ⟨fun s area n hc => ⟨fun hsw => ⟨fun hout hslice ha => ⟨_, clusterSwitchOut_begins hc hsw hout hslice ha⟩,
      clusterSwitchOut_refused hc hsw⟩, fun spans hsw => ⟨clusterSwitchOut_waits hc hsw, fun hr => ?_⟩⟩,
    fun s area n c hs hfree hempty hparked => clusterRestore_facts hs hfree hempty hparked,
    fun s n id c units a o ho he => ⟨fun hw => ?_, fun spans hw hready hspans => ?_⟩,
    fun s n id c a o ho he => ?_, fun s c a units => ⟨fun hp => ⟨hostCtxsave_off hp c a units, hostCtxrst_off hp c a⟩, fun hp => ?_⟩⟩
  · exact ⟨_, clusterSwitchOut_ends hc hsw hr, rfl, rfl, rfl, rfl, switchOut_run s spans n, switchOut_facts s spans n⟩
  · by_cases hst : saveStatus s (some o.ctx) c a.toNat units = 0
    · obtain ⟨spans, hexec⟩ := contextSaveRequest_begins ho he hw hst
      exact ⟨_, hexec, fun _ => ⟨beginSave_busy s c spans, underWay_noteUnderWay ..⟩, fun h => absurd hst h⟩
    · exact ⟨_, contextSaveRequest_refused ho he hw hst, fun h => absurd h hst, fun _ => rfl⟩
  · obtain ⟨hpark, hbusy⟩ := finishSave_parks hspans c
    refine ⟨_, contextSaveRequest_ends ho he hw hready, ?_, ?_, mem_requests_setResult .., findOut_dropItem ..⟩
    · rw [getCtx_dropItem, getCtx_setResult, hpark]
    · rw [getCtx_dropItem, getCtx_setResult, hbusy]
  · refine ⟨_, contextRestoreRequest_answers ho he, findOut_dropItem .., mem_requests_setResult .., fun hst => ?_, fun hst => ?_⟩
    · rw [getCtx_dropItem, getCtx_setResult, if_pos hst, finishRestore_unparks hst]
    · rw [if_neg hst]
      exact ⟨rfl, rfl⟩
  · refine ⟨fun hnew => ?_, fun hunder hready ha => ?_, _, hostCtxrst_answers hp, mem_requests_setResult .., fun hst => ?_⟩
    · by_cases hst : saveStatus (wake s) none c a units = 0
      · obtain ⟨t, hexec, hbusy, hlist⟩ := hostCtxsave_begins hp hnew hst
        exact ⟨t, hexec, fun _ => ⟨hbusy, hlist⟩, fun h => absurd hst h⟩
      · exact ⟨_, hostCtxsave_refused hp hnew hst, fun h => absurd h hst, fun _ => rfl⟩
    · obtain ⟨t, hexec, hpark, hlist⟩ := hostCtxsave_ends hp hunder hready ha
      exact ⟨t, hexec, hpark, by simp [hlist], fun x hx hne => by simp [hlist, hx, hne]⟩
    · rw [getCtx_setResult, if_pos hst, finishRestore_unparks hst]

end Sys2Proof.Machine
end

section
/-! O46: released stores and publishes, walks and invalidations (R215, R216, R219, R224, R229, R230, R232, R236, R315). -/

namespace Sys2Proof.Machine

open Sys2Proof.Claim

/-! ### Released stores (R216, R224, R236, R315) -/

theorem findItem_dropItem (s : State) (n : Nat) : findItem (dropItem s n) n = none := findOut_dropItem s n

theorem performIf_nothing {s : State} {n : Nat} (h : findItem s n = none) (rel : Bool) : performIf rel n s = .next s := by
  simp only [performIf, h]

section
variable {s : State} {n : Nat} {o : OutItem} (ho : findItem s n = some o)
include ho

theorem performIf_waits (hm : mayPerform s o = false) (rel : Bool) : performIf rel n s = .next s := by
  simp [performIf, ho, hm]

/-- An event of the other kind finds nothing to do. -/
theorem performIf_other {rel : Bool} (hr : isRelease o ≠ rel) : performIf rel n s = .next s := by
  simp [performIf, ho, hr]

theorem performIf_performs (hm : mayPerform s o = true) : performIf (isRelease o) n s = .next (settle (performItem s o)) := by
  simp [performIf, ho, hm]

theorem id_of_findItem : o.id = n := of_decide_eq_true (findFirst_some (f := fun x : OutItem => decide (x.id = n)) ho)
end

theorem performItem_store {o : OutItem} {a kind cmd va asid : Nat} {d : List Byte} {rel : Bool}
    (he : o.eff = .store true a d kind rel cmd va asid) (s : State) : performItem s o = dropItem (writeMem s a d) o.id := by
  simp only [performItem, he]

theorem isRelease_store {o : OutItem} {a kind cmd va asid : Nat} {d : List Byte} {rel : Bool}
    (he : o.eff = .store true a d kind rel cmd va asid) : isRelease o = rel := by
  simp only [isRelease, he]

theorem getArch_dropItem (s : State) (n k : Nat) (v : VoiceId) : getArch (dropItem s n) k v = getArch s k v := rfl

/-- A released store that may be performed changes the bytes at its address and no other. -/
theorem performed_store {s : State} (hw : memWf s.pkg.mem = true) (a n : Nat) (d : List Byte) :
    readMem (dropItem (writeMem s a d) n) a d.length = d ∧
      (∀ x, x < a ∨ a + d.length ≤ x → sget (dropItem (writeMem s a d) n).pkg.mem x = sget s.pkg.mem x) ∧
      findItem (dropItem (writeMem s a d) n) n = none ∧
      (∀ k v, getArch (dropItem (writeMem s a d) n) k v = getArch s k v) :=
  ⟨readBytes_writeBytes hw a d, fun _ hx => sget_writeBytes_out hw a d hx, findItem_dropItem .., fun k v => by
    rw [getArch_dropItem, getArch_writeMem]⟩

/-! ### Publishes (R229) -/

section
variable {s : State} {n : Nat}

theorem pubgToggle_nothing (h : findItem s n = none) : exec (.pubgToggle n) s = .next s := by
  simp only [exec_pubgToggle, execPubgToggle, h]

variable {o : OutItem} (ho : findItem s n = some o)
include ho

theorem pubgToggle_waits (hr : pubgReady s o = false) : exec (.pubgToggle n) s = .next s := by
  simp [exec_pubgToggle, execPubgToggle, ho, hr]

theorem pubgToggle_toggles (hr : pubgReady s o = true) {k : Nat} (he : o.eff = .pubg k) :
    exec (.pubgToggle n) s = .next (settle (dropItem (setCtx s o.ctx (togglePubmap (getCtx s o.ctx) k)) n)) := by
  simp [exec_pubgToggle, execPubgToggle, ho, hr, he]
end

theorem pubmap_togglePubmap {c : Context} {k : Nat} {e : PubMap} (h : mfind c.pubmap k = some e) :
    (togglePubmap c k).pubmap = mput c.pubmap k { e with front := !e.front } := by
  simp only [togglePubmap, h]

/-! ### Walks (R215, R219) -/

/-- The state without the walk numbered `n`. -/
def walkEnded (s : State) (n : Nat) : State :=
  { s with pkg := { s.pkg with walks := s.pkg.walks.filter (fun x => decide (x.id ≠ n)) } }

theorem walkComplete_nothing {s : State} {n : Nat} (h : findFirst (fun (w : Walk) => decide (w.id = n)) s.pkg.walks = none) :
    exec (.walkComplete n) s = .next s := by
  simp only [exec_walkComplete, execWalkComplete, h]

theorem walkComplete_ends {s : State} {n : Nat} {w : Walk} (h : findFirst (fun w => decide (w.id = n)) s.pkg.walks = some w) :
    exec (.walkComplete n) s = .next (fillData (walkEnded s n) (getCtx s w.ctx) (walk s (getCtx s w.ctx) w.va)) := by
  simp only [exec_walkComplete, execWalkComplete, h]
  rfl

theorem fillData_walks (s : State) (c : Context) (r : WalkResult) : (fillData s c r).pkg.walks = s.pkg.walks := by
  cases r <;> rfl

/-- A translation that the data TLB lacks is kept in both levels. -/
theorem fillData_miss {s : State} {c : Context} {va : Nat} (h : tlbHit s.core.dtlb c.asid va = none) (size pa : Nat) (e : BitVec 64) :
    (fillData s c (.leaf va size pa e)).core.dtlb = tlbFill 64 s.fresh s.core.dtlb ⟨c.asid, va, size, pa, e⟩ ∧
      (fillData s c (.leaf va size pa e)).pkg.l2tlb = tlbFill 4096 s.fresh s.pkg.l2tlb ⟨c.asid, va, size, pa, e⟩ := by
  simp [fillData, fillSecond, h]

/-- A translation that the data TLB holds adds nothing. -/
theorem fillData_hit {s : State} {c : Context} {va : Nat} (h : tlbHit s.core.dtlb c.asid va ≠ none) (size pa : Nat) (e : BitVec 64) :
    (fillData s c (.leaf va size pa e)).core.dtlb = s.core.dtlb ∧ (fillData s c (.leaf va size pa e)).pkg.l2tlb = s.pkg.l2tlb ∧
      (fillData s c (.leaf va size pa e)).pkg.walkCache = s.pkg.walkCache := by
  have hsome : (tlbHit s.core.dtlb c.asid va).isSome = true := Option.isSome_iff_ne_none.mpr h
  simp [fillData, fillSecond, hsome]

/-- A walk that finds no translation leaves nothing. -/
theorem fillData_none {r : WalkResult} (h : ∀ va size pa e, r ≠ .leaf va size pa e) (s : State) (c : Context) : fillData s c r = s := by
  cases r with
  | leaf va size pa e => exact absurd rfl (h va size pa e)
  | none => rfl
  | check => rfl

/-! ### Invalidations (R230, R232) -/

section
variable {s : State} {n : Nat} {v : Inval} (h : findFirst (fun v => decide (v.id = n)) s.pkg.invals = some v)
include h

theorem invalidationAck_acks (hd : drained s v = true) : exec (.invalidationAck n) s =
    .next { s with pkg := { s.pkg with invals := s.pkg.invals.filter (fun x => decide (x.id ≠ n)) } } := by
  simp [exec_invalidationAck, execInvalidationAck, h, hd]

theorem invalidationAck_waits (hd : drained s v = false) : exec (.invalidationAck n) s = .next s := by
  simp [exec_invalidationAck, execInvalidationAck, h, hd]
end

/-- Settles O46: a store by `performIf` and `performed_store`, a publish by the `pubgToggle_` lemmas, a walk by what `fillData`
keeps of its translation, an invalidation by whether its accesses have drained. -/
theorem releasedStoresWalksAndInvalidations : Obligations.ReleasedStoresWalksAndInvalidations := by
  refine ⟨⟨fun s n a va asid d kind cmd rel o ho he => ⟨fun hm => ?blocked, fun hm hw => ?performed⟩,
      fun s n k o e ho he => ⟨fun hr hk => ?toggled, pubgToggle_waits ho⟩, fun s => settle_of_stores, fun s n hnone => ?absent⟩,
    fun s n => ⟨fun w hwalk => ?walked, walkComplete_nothing,
      fun v hv => ⟨invalidationAck_acks hv, invalidationAck_waits hv⟩⟩⟩
  case blocked => exact ⟨performIf_waits ho hm false, performIf_waits ho hm true⟩
  case performed =>
    have hrel := isRelease_store he
    have hgo := performIf_performs ho hm
    rw [performItem_store he, id_of_findItem ho, hrel] at hgo
    obtain ⟨hread, hout, hgone, harch⟩ := performed_store hw a n d
    refine ⟨dropItem (writeMem s a d) n, ?_, ?_, hread, hout, hgone, harch, rfl, rfl, rfl⟩
    · cases rel <;> exact hgo
    · cases rel <;> exact performIf_other ho (by rw [hrel]; decide)
  case toggled =>
    refine ⟨_, pubgToggle_toggles ho hr he, ?_, findItem_dropItem .., rfl, rfl, rfl⟩
    rw [getCtx_dropItem, getCtx_setCtx, pubmap_togglePubmap hk]
  case absent => exact ⟨performIf_nothing hnone false, performIf_nothing hnone true, pubgToggle_nothing hnone⟩
  case walked =>
    refine ⟨_, walkComplete_ends hwalk, fillData_walks .., fillData_mem .., fillData_core_held .., fun k v => getArch_fillData ..,
      fun va size pa e hleaf => ?_, fun hnone => ?_⟩
    · rw [hleaf]
      exact ⟨fun hmiss => fillData_miss (s := walkEnded s n) hmiss size pa e, fun hhit => fillData_hit (s := walkEnded s n) hhit size pa e⟩
    · rw [fillData_none hnone]
      exact ⟨rfl, rfl⟩

end Sys2Proof.Machine
end

section
/-! Device accesses of voice A: their translation (R217 to R219), the checks of R221 in their order, and what a word that goes on
adds to its effect. -/

namespace Sys2Proof.Machine

open Sys2Proof.Claim

/-! ### Translation (R217, R219) -/

/-- The second state differs from the first only in what the data TLB, the second level and the walk cache hold, and in the free
values used. -/
def TlbsOnly (s u : State) : Prop :=
  ∃ dtlb l2tlb walkCache fresh, u =
    { s with core := { s.core with dtlb := dtlb }, pkg := { s.pkg with l2tlb := l2tlb, walkCache := walkCache }, fresh := fresh }

theorem tlbsOnly_refl (s : State) : TlbsOnly s s := ⟨_, _, _, _, rfl⟩

theorem TlbsOnly.trans {s u v : State} (h : TlbsOnly s u) (g : TlbsOnly u v) : TlbsOnly s v := by
  obtain ⟨_, _, _, _, rfl⟩ := h
  obtain ⟨_, _, _, _, rfl⟩ := g
  exact ⟨_, _, _, _, rfl⟩

theorem tlbsOnly_fillData (s : State) (c : Context) (r : WalkResult) : TlbsOnly s (fillData s c r) := by
  cases r with
  | leaf va size pa e => exact ⟨_, _, _, _, rfl⟩
  | none => exact tlbsOnly_refl s
  | check => exact tlbsOnly_refl s

theorem tlbsOnly_translateOne (s : State) (c : Context) (smode : Bool) (a : Acc) (va len : Nat) :
    TlbsOnly s (translateOne s c smode a va len).1 := by
  unfold translateOne
  split
  · exact tlbsOnly_refl s
  · exact tlbsOnly_refl s
  · next pva size pa e heq =>
    have hfill := tlbsOnly_fillData s c (.leaf pva size pa e)
    dsimp only
    split
    · exact hfill
    · exact hfill

/-- An access translates page by page, and each page only fills TLBs. -/
theorem tlbsOnly_translate (s : State) (c : Context) (smode : Bool) (a : Acc) (va len : Nat) :
    TlbsOnly s (translate s c smode a va len).1 := by
  unfold translate
  dsimp only
  split
  · exact tlbsOnly_translateOne ..
  · have hfirst := tlbsOnly_translateOne s c smode a va (pageEnd s c va len - va)
    split
    · next s1 ps heq =>
      rw [heq] at hfirst
      have hsecond := hfirst.trans (tlbsOnly_translateOne s1 c smode a (pageEnd s c va len) (va + len - pageEnd s c va len))
      split
      · next s2 qs heq2 => rwa [heq2] at hsecond
      · exact hsecond
    · exact hfirst

theorem near_of_tlbsOnly {s u : State} (h : TlbsOnly s u) : Near s u {} := by
  obtain ⟨_, _, _, _, rfl⟩ := h
  exact { near_refl s with memory := ⟨fun _ => rfl, fun _ => ⟨fun _ => rfl, rfl⟩⟩ }

section
variable {s u : State} (h : TlbsOnly s u)
include h

theorem TlbsOnly.landingState (k key : Nat) : landingState u k key = Machine.landingState s k key := by
  obtain ⟨_, _, _, _, rfl⟩ := h
  rfl

theorem TlbsOnly.tryPush (k q : Nat) : tryPush u k q = Machine.tryPush s k q := by
  obtain ⟨_, _, _, _, rfl⟩ := h
  rfl

theorem TlbsOnly.tryPop (k q : Nat) : tryPop u k q = Machine.tryPop s k q := by
  obtain ⟨_, _, _, _, rfl⟩ := h
  rfl

theorem TlbsOnly.threadCtx (k : Nat) : threadCtx u k = Machine.threadCtx s k := by
  obtain ⟨_, _, _, _, rfl⟩ := h
  rfl

theorem TlbsOnly.nextId : u.core.nextId = s.core.nextId := by
  obtain ⟨_, _, _, _, rfl⟩ := h
  rfl

theorem TlbsOnly.consumed : u.core.consumed = s.core.consumed := by
  obtain ⟨_, _, _, _, rfl⟩ := h
  rfl
end

/-! ### The checks of R221, in their order -/

/-- Neither the hold-back buffer nor an acquire holds the access back (R175, R237). -/
theorem noDevWait {s : State} {h : Here} {a : Acc} {ps : List Part} (hroom : a = .write → storeRoom s h (partSpans ps) = true)
    (hfree : (partsOrdered ps && acquirePending s h.k) = false) :
    ((decide (a = .write) && !storeRoom s h (partSpans ps)) || (partsOrdered ps && acquirePending s h.k)) = false := by
  rw [hfree, Bool.or_false]
  by_cases ha : a = .write
  · simp [hroom ha]
  · simp [ha]

section
variable {s u : State} {h : Here} {a : Acc} {ea : Word} {n : Nat} {q : Bool} {go : List Part → State → Res}

section
variable {ps : List Part} (ht : translate s (threadCtx s h.k) (slotAt s h).thread.smode a ea.toNat n = (u, .ok ps))
include ht

theorem withDev_waits (hw : a = .write ∧ storeRoom s h (partSpans ps) = false ∨ (partsOrdered ps && acquirePending s h.k) = true) :
    withDev h a ea n q s go = .stall false s := by
  simp only [withDev, ht]
  rcases hw with ⟨rfl, hroom⟩ | hacq
  · simp [hroom]
  · simp [hacq]

section
variable (hroom : a = .write → storeRoom s h (partSpans ps) = true) (hfree : (partsOrdered ps && acquirePending s h.k) = false)
include hroom hfree

theorem withDev_kinds (hk : kindsDiffer q ps = true) : withDev h a ea n q s go = .trap 0x0A ea s := by
  simp only [withDev, ht, noDevWait hroom hfree, hk, Bool.false_eq_true, if_false, if_true]

variable (hk : kindsDiffer q ps = false)
include hk

theorem withDev_published {bad : Nat} (ha : a = .write) (hp : publishedPart (threadCtx s h.k) ps = some bad) :
    withDev h a ea n q s go = .trap 0x09 (w64 bad) s := by
  simp only [withDev, ht, noDevWait hroom hfree, hk, Bool.false_eq_true, if_false]
  simp [ha, hp]

theorem withDev_fenced (ha : a ≠ .write) (hf : loadFenced s h.k ps = true) : withDev h a ea n q s go = .stall false s := by
  simp only [withDev, ht, noDevWait hroom hfree, hk, Bool.false_eq_true, if_false]
  simp [ha, hf]

theorem withDev_passes (hp : a = .write → publishedPart (threadCtx s h.k) ps = none) (hf : a ≠ .write → loadFenced s h.k ps = false) :
    withDev h a ea n q s go = go ps u := by
  simp only [withDev, ht, noDevWait hroom hfree, hk, Bool.false_eq_true, if_false]
  by_cases ha : a = .write
  · simp [ha, hp ha]
  · simp [ha, hf ha]
end
end

section
variable {cause bad : Nat} (ht : translate s (threadCtx s h.k) (slotAt s h).thread.smode a ea.toNat n = (u, .trap cause bad))
include ht

theorem withDev_trap_waits (hw : a = .write ∧ storeRoom s h [(ea.toNat, n)] = false ∨ acquirePending s h.k = true) :
    withDev h a ea n q s go = .stall false s := by
  simp only [withDev, ht]
  rcases hw with ⟨rfl, hroom⟩ | hacq
  · simp [hroom]
  · simp [hacq]

theorem withDev_traps (hroom : a = .write → storeRoom s h [(ea.toNat, n)] = true) (hacq : acquirePending s h.k = false) :
    withDev h a ea n q s go = .trap cause (w64 bad) s := by
  simp only [withDev, ht, hacq]
  by_cases ha : a = .write
  · simp [hroom ha]
  · simp [ha]
end
end

section
variable {s u : State} {a : Acc} {ea : Word} {n : Nat} {q : Bool} {ps : List Part} (hd : DevGoes s a ea n q ps u)
include hd

theorem withDev_goes (go : List Part → State → Res) : withDev (hereOf s) a ea n q s go = go ps u :=
  withDev_passes hd.there hd.room hd.free hd.kinds hd.unpublished hd.unfenced

theorem devGoes_tlbsOnly : TlbsOnly s u := by
  have h := tlbsOnly_translate s (ctxOf s) (slotAt s (hereOf s)).thread.smode a ea.toNat n
  rwa [hd.there] at h
end

/-! ### What a word that goes on adds -/

/-- The faced writes of a word that has room for them. -/
theorem near_recordWrites {s u : State} {d : Doing} (hn : Near s u d) (hw : d.writes = []) (ws : List Wr) :
    Near s (recordWrites (hereOf s) ws u) { d with writes := ws } :=
  near_writes hn hw hn.around.2.1 ws _ _

theorem withWrites_records {s u : State} {d : Doing} {ws : List Wr} {go : State → Res} (hr : Room s ws) (hn : Near s u d)
    (hw : d.writes = []) (ha : d.arch = id) : withWrites (hereOf s) ws u go = go (recordWrites (hereOf s) ws u) := by
  have hme : archAt u (hereOf s) = me s := by rw [hn.arch, hw, ha]; rfl
  exact withWrites_go (by rw [hme]; exact hr.1) (by rw [hme]; exact hr.2)

theorem threadCtx_recordWrites (h : Here) (ws : List Wr) (s : State) : threadCtx (recordWrites h ws s) h.k = threadCtx s h.k := by
  simp [threadCtx, getCtx, recordWrites, setArchAt]

/-- A transfer is on its way. -/
theorem near_xfer {s u : State} {d : Doing} (hn : Near s u d) (x : Xfer) :
    Near s (setSlot u (hereOf s).k { getSlot u (hereOf s).k with xfers := (getSlot u (hereOf s).k).xfers ++ [x] })
      { d with xfers := d.xfers ++ [x] } := by
  have h := near_slot hn [] [x] rfl
  simpa only [List.append_nil] using h

/-- The transfer of a word that has taken nothing from another voice is the one its state at issue gives. -/
theorem newXfer_near {s u : State} {d : Doing} (hn : Near s u d) (hl : d.links = []) (hid : u.core.nextId = s.core.nextId)
    (q lb : Nat) (ps : List Part) (ea n : Nat) (acq : Bool) :
    newXfer u (hereOf s) q lb ps ea n acq = newXfer s (hereOf s) q lb ps ea n acq := by
  have hord := hn.order.2 (hereOf s).v
  simp only [hl, ordWith, if_true, List.foldl_nil] at hord
  simp only [newXfer, freshId, clockOf, hn.clause, hid, hord]

end Sys2Proof.Machine
end

section
/-! O34: LDG and LDA (R36, R95, R217, R221, R222, R226, R237). -/

namespace Sys2Proof.Machine

open Sys2Proof.Claim

/-- The read of a landing transfer is sent: the slot is BUSY with it. -/
theorem near_sendLoad {s u : State} {d : Doing} (hn : Near s u d) (key : Nat) (x : Xfer) (ps : List Part) :
    Near s (sendLoad (hereOf s) key x ps u)
      { d with ctl := fun c => setLanding (d.ctl c) key (.xfer x.id x.clause), xfers := d.xfers ++ [x] } :=
  near_xfer (near_change (near_bump (near_deps hn _)) (.landSet key (.xfer x.id x.clause)) rfl (fun _ => rfl)) x

section
variable {s u : State} {i : Instr} {sb : BitVec 1} {p k : BitVec 3} {b : BitVec 5} {z : BitVec 2} {o : BitVec 1} {imm : BitVec 9}
  {acq : Bool} {ps : List Part} (hm : MayIssue s sb p .a) (hi : exec i s = loadWord sb p k b z o imm acq s)
include hm hi

section
variable (hd : DevGoes s .read (memAddr (me s) b o imm (accWidth z)) (accWidth z) false ps u)
include hd

theorem load_stalls_busy (hb : landingState s (hereOf s).k (landKey s k) = 1) : Stalls s i false := by
  refine word_stalls hm hi ?_
  rw [← (devGoes_tlbsOnly hd).landingState] at hb
  exact (withDev_goes hd _).trans (if_pos hb)

theorem load_sends (hb : landingState s (hereOf s).k (landKey s k) ≠ 1) (hr : Room s (postWrite (me s) b o imm (accWidth z))) :
    Completes i s
      { writes := postWrite (me s) b o imm (accWidth z),
        ctl := fun c => setLanding c (landKey s k) (.xfer s.core.nextId (clauseAt s (hereOf s))),
        xfers := [newXfer s (hereOf s) 8 k.toNat ps (memAddr (me s) b o imm (accWidth z)).toNat (accWidth z) acq] } := by
  have htlb := devGoes_tlbsOnly hd
  have hnear := near_of_tlbsOnly htlb
  have hrec := near_recordWrites hnear rfl (postWrite (me s) b o imm (accWidth z))
  have hx := newXfer_near hrec rfl ((recordWrites_core_nextId ..).trans htlb.nextId) 8 k.toNat ps
    (memAddr (me s) b o imm (accWidth z)).toNat (accWidth z) acq
  rw [← htlb.landingState] at hb
  refine word_completes hm hi ?_ (near_sendLoad hrec (landKey s k)
    (newXfer s (hereOf s) 8 k.toNat ps (memAddr (me s) b o imm (accWidth z)).toNat (accWidth z) acq) ps) rfl
  rw [← hx]
  exact (withDev_goes hd _).trans ((if_neg hb).trans (withWrites_records hr hnear rfl rfl))
end

section
variable (ht : translate s (ctxOf s) (slotAt s (hereOf s)).thread.smode .read
    (memAddr (me s) b o imm (accWidth z)).toNat (accWidth z) = (u, .ok ps))
include ht

theorem load_waits (hw : (partsOrdered ps && acquirePending s (hereOf s).k) = true) : Stalls s i false :=
  word_stalls hm hi (withDev_waits ht (.inr hw))

theorem load_fenced (hk : kindsDiffer false ps = false) (hf : loadFenced s (hereOf s).k ps = true) : Stalls s i false := by
  by_cases hw : (partsOrdered ps && acquirePending s (hereOf s).k) = true
  · exact load_waits hm hi ht hw
  · exact word_stalls hm hi (withDev_fenced ht nofun (Bool.eq_false_of_not_eq_true hw) hk nofun hf)

/-- The lowest byte is blamed: the model's choice, log entry 19. -/
theorem load_kinds (hw : (partsOrdered ps && acquirePending s (hereOf s).k) = false) (hk : kindsDiffer false ps = true) :
    Traps s i 0x0A (memAddr (me s) b o imm (accWidth z)) s :=
  word_traps hm hi (withDev_kinds ht nofun hw hk)
end

section
variable {cause bad : Nat} (ht : translate s (ctxOf s) (slotAt s (hereOf s)).thread.smode .read
    (memAddr (me s) b o imm (accWidth z)).toNat (accWidth z) = (u, .trap cause bad))
include ht

theorem load_trap_waits (hw : acquirePending s (hereOf s).k = true) : Stalls s i false :=
  word_stalls hm hi (withDev_trap_waits ht (.inr hw))

theorem load_traps (hw : acquirePending s (hereOf s).k = false) : Traps s i cause (mod64 bad) s :=
  word_traps hm hi (withDev_traps ht nofun hw)
end
end

/-- Settles O34: both words are `loadWord`; each fate is its `load_` lemma. -/
theorem loadsFillLandingSlots : Obligations.LoadsFillLandingSlots := by
  intro s u sb p k b z o imm i acq ps hword hm
  have hi : exec i s = loadWord sb p k b z o imm acq s := by
    rcases hword with h | h <;> obtain ⟨rfl, rfl⟩ := Prod.mk.inj h <;> rfl
  exact ⟨fun hd => ⟨load_stalls_busy hm hi hd, load_sends hm hi hd⟩,
    fun ht => ⟨load_waits hm hi ht, load_fenced hm hi ht, load_kinds hm hi ht⟩,
    fun _ _ ht => ⟨load_trap_waits hm hi ht, load_traps hm hi ht⟩⟩

end Sys2Proof.Machine
end

section
/-! O35, reads: what a read of device memory sees of the stores its slot has made (R221, R234, R242). They are laid over memory
oldest first; the ones that do not meet the bytes read may be left out. -/

namespace Sys2Proof.Machine

open Sys2Proof.Claim

/-! ### Insertion sort -/

section
variable {α : Type} {r : α → α → Prop} [DecidableRel r] [Std.Total r] [IsTrans α r]

omit [Std.Total r] in
/-- Inserting into a sorted list and dropping elements may be done in either order. -/
theorem filter_orderedInsert (p : α → Bool) (x : α) {l : List α} (hl : l.Pairwise r) :
    (l.orderedInsert r x).filter p = if p x then (l.filter p).orderedInsert r x else l.filter p := by
  induction l with
  | nil => by_cases hx : p x <;> simp [hx]
  | cons y l ih =>
    obtain ⟨hy, hl⟩ := List.pairwise_cons.mp hl
    by_cases hxy : r x y
    · have hfirst : ((y :: l).filter p).orderedInsert r x = x :: (y :: l).filter p := by
        have hall : ∀ z ∈ (y :: l).filter p, r x z := fun z hz =>
          (List.mem_cons.mp (List.mem_of_mem_filter hz)).elim (fun h => h ▸ hxy) (fun h => trans_of r hxy (hy z h))
        cases hf : (y :: l).filter p with
        | nil => rfl
        | cons z m => exact List.orderedInsert_cons_of_le r m (hall z (hf ▸ List.mem_cons_self ..))
      rw [List.orderedInsert_cons_of_le r l hxy, hfirst, List.filter_cons]
    · rw [List.orderedInsert_of_not_le r l hxy, List.filter_cons, ih hl, List.filter_cons]
      by_cases hpx : p x <;> by_cases hpy : p y <;> simp [hpx, hpy, hxy]

theorem filter_insertionSort (p : α → Bool) (l : List α) : (l.insertionSort r).filter p = (l.filter p).insertionSort r := by
  induction l with
  | nil => rfl
  | cons x l ih =>
    rw [List.insertionSort_cons, filter_orderedInsert p x (List.pairwise_insertionSort r l), ih, List.filter_cons]
    split <;> rfl

omit [Std.Total r] [IsTrans α r] in
/-- An element that every other one may precede is sorted last. -/
theorem insertionSort_append_last {l : List α} {x : α} (h : ∀ y ∈ l, r y x) : (l ++ [x]).insertionSort r = l.insertionSort r ++ [x] := by
  have hinsert (y : α) (hy : r y x) (m : List α) : (m ++ [x]).orderedInsert r y = m.orderedInsert r y ++ [x] := by
    induction m with
    | nil => exact List.orderedInsert_cons_of_le r [] hy
    | cons z m ih => by_cases hyz : r y z <;> simp [hyz, ih]
  induction l with
  | nil => rfl
  | cons y l ih =>
    obtain ⟨hy, hl⟩ := List.forall_mem_cons.mp h
    rw [List.cons_append, List.insertionSort_cons, ih hl, hinsert y hy, List.insertionSort_cons]
end

/-! ### The stores a read sees -/

/-- The first store is no younger than the second. -/
abbrev byAge : OwnStore → OwnStore → Prop := OwnStore.id ⁻¹'o (· ≤ ·)

theorem insertStore_eq (x : OwnStore) (l : List OwnStore) : insertStore x l = l.orderedInsert byAge x := by
  induction l with
  | nil => rfl
  | cons y r ih => simp only [insertStore, List.orderedInsert_cons, ih, Order.Preimage]

/-- What a read of slot `k` sees of an effect, whoever made it. -/
def seenEffect (c : Core) (k : Nat) (ord : List Nat) (slot id : Nat) (e : Effect) : Option OwnStore :=
  if slot = k then ownStore c ord id e else none

/-- The stores that a read of slot `k` sees: those released, then those held. -/
def storesSeen (s : State) (k : Nat) (ord : List Nat) : List OwnStore :=
  s.core.out.filterMap (fun o => seenEffect s.core k ord o.slot o.id o.eff) ++
    s.core.held.filterMap (fun h => seenEffect s.core k ord h.slot h.id h.eff)

theorem ownStores_eq (s : State) (k : Nat) (ord : List Nat) :
    ownStores s k ord = ((storesSeen s k ord).insertionSort byAge).map (fun x => (x.addr, x.data)) := by
  have hinsert : insertStore = List.orderedInsert byAge := funext fun x => funext fun l => insertStore_eq x l
  rw [ownStores, hinsert]
  rfl

/-- The store meets the interval of `n` bytes from `a`. -/
def storeMeets (a n : Nat) (x : OwnStore) : Bool := decide (x.addr < a + n) && decide (a < x.addr + x.data.length)

theorem overlayAll_meeting (a : Nat) (bs : List Byte) (xs : List OwnStore) :
    overlayAll a bs (xs.map (fun x => (x.addr, x.data))) =
      overlayAll a bs ((xs.filter (storeMeets a bs.length)).map (fun x => (x.addr, x.data))) := by
  induction xs generalizing bs with
  | nil => rfl
  | cons x r ih =>
    rw [List.map_cons, overlayAll, ih, length_overlay, List.filter_cons]
    by_cases hx : storeMeets a bs.length x = true
    · rw [if_pos hx]
      rfl
    · rw [if_neg hx, overlay_disjoint]
      simp only [storeMeets, Bool.and_eq_true, decide_eq_true_eq] at hx
      omega

@[simp] theorem length_readMem (s : State) (a n : Nat) : (readMem s a n).length = n := length_readBytes ..

/-- A read lays over memory, oldest first, the stores it sees that meet its bytes. -/
theorem readDev_meeting (s : State) (k : Nat) (ord : List Nat) (a n : Nat) :
    readDev s k ord a n = overlayAll a (readMem s a n)
      ((((storesSeen s k ord).filter (storeMeets a n)).insertionSort byAge).map (fun x => (x.addr, x.data))) := by
  rw [readDev, ownStores_eq, overlayAll_meeting, length_readMem, filter_insertionSort]

theorem ownStore_congr {c c' : Core} (h : c.consumed = c'.consumed) (ord : List Nat) (id : Nat) (e : Effect) :
    ownStore c ord id e = ownStore c' ord id e := by
  cases e <;> simp only [ownStore, h]

theorem seenEffect_congr {c c' : Core} (h : c.consumed = c'.consumed) : seenEffect c = seenEffect c' := by
  funext k ord slot id e
  rw [seenEffect, seenEffect, ownStore_congr h]

/-- Only a store to device memory is seen; one of a word only by later words. -/
theorem seenEffect_some {c : Core} {k slot id : Nat} {ord : List Nat} {e : Effect} {x : OwnStore}
    (h : seenEffect c k ord slot id e = some x) : ∃ kind rel cmd va asid,
      e = .store true x.addr x.data kind rel cmd va asid ∧ (cmd = 0 → x.id < ord.getD 0 0) := by
  rw [seenEffect, Option.ite_none_right_eq_some] at h
  obtain ⟨-, h⟩ := h
  unfold ownStore at h
  split at h
  · obtain ⟨hseen, hx⟩ := Option.ite_none_right_eq_some.mp h
    obtain rfl := Option.some.inj hx
    refine ⟨_, _, _, _, _, rfl, fun hcmd => ?_⟩
    rw [if_pos hcmd] at hseen
    exact of_decide_eq_true hseen
  · cases h

theorem eff_of_mem_heldBy {h : Here} {s : State} {links : List (List Nat)} {es : List Effect} {x : Held}
    (hx : x ∈ heldBy h s links es) : x.eff ∈ es := by
  obtain ⟨i, hi, rfl⟩ := List.mem_mapIdx.mp hx
  exact List.getElem_mem hi

/-- The stores to the parts of an access lie in its parts. -/
theorem mem_storesTo {asid : Nat} {rel : Bool} {bs : List Byte} {ps : List Part} {e : Effect} (h : e ∈ storesTo asid rel bs ps) :
    ∃ p ∈ ps, ∃ ws, ws.length ≤ p.len ∧ e = .store true p.pa ws (leafKind p.leaf) rel 0 p.va asid := by
  induction ps generalizing bs with
  | nil => cases h
  | cons p r ih =>
    rcases List.mem_cons.mp h with rfl | hr
    · exact ⟨p, List.mem_cons_self .., _, List.length_take_le .., rfl⟩
    · obtain ⟨q, hq, ws, hws⟩ := ih hr
      exact ⟨q, List.mem_cons_of_mem _ hq, ws, hws⟩

/-! ### ... after a word that has stored -/

section
variable {s t : State} {d : Doing} (hd : Did s t d) (hc : t.core.consumed = s.core.consumed)
include hd hc

/-- The stores of the word stand behind those seen before. -/
theorem storesSeen_of_did (k : Nat) (ord : List Nat) : storesSeen t k ord = storesSeen s k ord ++
    (heldBy (hereOf s) s d.links d.held).filterMap (fun h => seenEffect s.core k ord h.slot h.id h.eff) := by
  obtain ⟨-, -, -, -, -, -, -, -, ⟨hheld, hout, -⟩, -⟩ := hd
  rw [storesSeen, storesSeen, hout, hheld, seenEffect_congr hc, List.filterMap_append, List.append_assoc]

variable (ht : (ctxOf s).trace = none)
include ht

omit hc in
theorem readMem_of_did (a n : Nat) : readMem t a n = readMem s a n := by
  obtain ⟨-, -, -, -, -, -, hmem, -⟩ := hd
  exact readBytes_congr fun i _ => (hmem.2 ht).1 (a + i)

variable {asid : Nat} {rel : Bool} {bs : List Byte} {ps : List Part} (hh : d.held = storesTo asid rel bs ps)
include hh

/-- A byte that the stores miss reads as before, for every reader. -/
theorem readDev_of_misses {x : Nat} (hx : Misses ps x) (k : Nat) (ord : List Nat) : readDev t k ord x 1 = readDev s k ord x 1 := by
  have hnone : ((heldBy (hereOf s) s d.links d.held).filterMap
      (fun h => seenEffect s.core k ord h.slot h.id h.eff)).filter (storeMeets x 1) = [] := by
    refine List.filter_eq_nil_iff.mpr fun y hy hmeets => ?_
    obtain ⟨h, hmem, hseen⟩ := List.mem_filterMap.mp hy
    obtain ⟨_, _, _, _, _, heff, -⟩ := seenEffect_some hseen
    obtain ⟨p, hp, ws, hws, hstore⟩ := mem_storesTo (hh ▸ eff_of_mem_heldBy hmem)
    injection heff.symm.trans hstore with _ haddr hdata
    simp only [storeMeets, haddr, hdata, Bool.and_eq_true, decide_eq_true_eq] at hmeets
    have := hx p hp
    omega
  rw [readDev_meeting, readDev_meeting, storesSeen_of_did hd hc, List.filter_append, hnone, List.append_nil, readMem_of_did hd ht]
end

/-- A store that a word's read sees and no engine has made is no younger than the words before the read; what an engine has made does
not meet the bytes. -/
theorem id_lt_of_storeMeets {s : State} {k a n : Nat} {ord : List Nat} (he : NoEngineWrite s a n) {x : OwnStore} (hx : x ∈ storesSeen s k ord)
    (hm : storeMeets a n x = true) : x.id < ord.getD 0 0 := by
  have hseen : ∃ slot id, ∃ e ∈ s.core.held.map (fun h => h.eff) ++ s.core.out.map (fun o => o.eff),
      seenEffect s.core k ord slot id e = some x := by
    rcases List.mem_append.mp hx with hout | hheld
    · obtain ⟨o, ho, hs⟩ := List.mem_filterMap.mp hout
      exact ⟨_, _, _, List.mem_append_right _ (List.mem_map_of_mem ho), hs⟩
    · obtain ⟨h, hh, hs⟩ := List.mem_filterMap.mp hheld
      exact ⟨_, _, _, List.mem_append_left _ (List.mem_map_of_mem hh), hs⟩
  obtain ⟨_, _, e, hmem, hs⟩ := hseen
  obtain ⟨_, _, cmd, _, _, rfl, hword⟩ := seenEffect_some hs
  by_cases hcmd : cmd = 0
  · exact hword hcmd
  · have hmiss : x.addr + x.data.length ≤ a ∨ a + n ≤ x.addr := he _ hmem hcmd
    simp only [storeMeets, Bool.and_eq_true, decide_eq_true_eq] at hm
    omega

/-- The bound of voice A's own place is the next number. -/
theorem clockOf_A (s : State) (k : Nat) : (clockOf s k .A).getD 0 0 = s.core.nextId := rfl

/-- Voice A's next word reads what a store of one part has put there. -/
theorem readDev_of_store {s t : State} {d : Doing} (hd : Did s t d) (hc : t.core.consumed = s.core.consumed)
    (hid : t.core.nextId = s.core.nextId + 1) {q : Part} {ws : List Byte} (hpos : 0 < ws.length)
    {kind va asid : Nat} {rel : Bool} (hh : d.held = [.store true q.pa ws kind rel 0 va asid]) (he : NoEngineWrite s q.pa ws.length) :
    readDev t (hereOf s).k (clockOf t (hereOf s).k .A) q.pa ws.length = ws := by
  have hlast : (heldBy (hereOf s) s d.links d.held).filterMap
      (fun h => seenEffect s.core (hereOf s).k (clockOf t (hereOf s).k .A) h.slot h.id h.eff) = [⟨s.core.nextId, q.pa, ws⟩] := by
    have hlt : s.core.nextId < (clockOf t (hereOf s).k .A).getD 0 0 := by rw [clockOf_A, hid]; exact Nat.lt_succ_self _
    simp only [hh, heldBy, List.mapIdx_cons, List.mapIdx_nil, List.filterMap_cons, List.filterMap_nil, seenEffect, ownStore, if_true,
      Nat.add_zero, hlt, decide_true]
  have hmeets : storeMeets q.pa ws.length ⟨s.core.nextId, q.pa, ws⟩ = true := by
    simp only [storeMeets, Bool.and_eq_true, decide_eq_true_eq]
    omega
  have hold : ∀ y ∈ (storesSeen s (hereOf s).k (clockOf t (hereOf s).k .A)).filter (storeMeets q.pa ws.length),
      byAge y ⟨s.core.nextId, q.pa, ws⟩ := fun y hy => by
    obtain ⟨hseen, hm⟩ := List.mem_filter.mp hy
    have hlt := id_lt_of_storeMeets he hseen hm
    rw [clockOf_A, hid] at hlt
    exact Nat.lt_succ_iff.mp hlt
  rw [readDev_meeting, storesSeen_of_did hd hc, hlast, List.filter_append, List.filter_cons_of_pos hmeets, List.filter_nil,
    insertionSort_append_last hold, List.map_append, overlayAll_append]
  exact overlay_same _ _ _ (by rw [length_overlayAll, length_readMem])

end Sys2Proof.Machine
end

section
/-! O35: STG and STL (R36, R175, R217, R221, R224, R228, R234, R237). -/

namespace Sys2Proof.Machine

open Sys2Proof.Claim

/-! ### Stores held for a clause (R174, R224) -/

@[simp] theorem holdDev_core_consumed (h : Here) (asid : Nat) (rel : Bool) (bs : List Byte) (s : State) (ps : List Part) :
    (holdDev h asid rel bs s ps).core.consumed = s.core.consumed := by
  induction ps generalizing bs s with
  | nil => rfl
  | cons p r ih => rw [holdDev, ih, hold_core_consumed]

theorem nextId_holdDev (h : Here) (asid : Nat) (rel : Bool) (bs : List Byte) (s : State) (ps : List Part) :
    (holdDev h asid rel bs s ps).core.nextId = s.core.nextId + ps.length := by
  induction ps generalizing bs s with
  | nil => rfl
  | cons p r ih => rw [holdDev, ih, nextId_hold, List.length_cons, Nat.add_assoc, Nat.add_comm 1]

/-- The bytes of a store are held, one effect to each page. -/
theorem near_holdDev {s u : State} {d : Doing} (hn : Near s u d) (hid : u.core.nextId = s.core.nextId + d.held.length)
    (asid : Nat) (rel : Bool) (bs : List Byte) (ps : List Part) :
    Near s (holdDev (hereOf s) asid rel bs u ps) { d with held := d.held ++ storesTo asid rel bs ps } := by
  induction ps generalizing u d bs with
  | nil => simpa [holdDev, storesTo] using hn
  | cons p r ih =>
    have hone := near_hold hn (.store true p.pa (bs.take p.len) (leafKind p.leaf) rel 0 p.va asid) rfl hid
    have hrest := ih hone (by rw [nextId_hold, hid, List.length_append]; rfl) (bs.drop p.len)
    rwa [List.append_assoc] at hrest

/-! ### The words -/

/-- A word that ends no clause takes no number at its retirement. -/
theorem nextId_retire_open (h : Here) (flow : Flow) (s : State) : (retire h flow false s).core.nextId = s.core.nextId := by
  simp [retire]

/-- A body that retires is the word's retirement. -/
theorem word_retires {s u : State} {i : Instr} {sb : BitVec 1} {p : BitVec 3} {perm : Perm} {body : Here → State → Res} {flow : Flow}
    {closes : Bool} (hm : MayIssue s sb p perm) (hi : exec i s = word sb p perm body s)
    (hb : body (hereOf s) s = .retire flow closes u) : exec i s = .next (retire (hereOf s) flow closes u) := by
  rw [hi, word_takes hm, hb]
  rfl

section
variable {s u : State} {i : Instr} {sb : BitVec 1} {p : BitVec 3} {d b : BitVec 5} {z : BitVec 2} {o : BitVec 1} {imm : BitVec 9}
  {rel : Bool} {ps : List Part} (hm : MayIssue s sb p .a) (hi : exec i s = storeWord sb p d b z o imm rel s)
include hm hi

section
variable (ht : translate s (ctxOf s) (slotAt s (hereOf s)).thread.smode .write
    (memAddr (me s) b o imm (accWidth z)).toNat (accWidth z) = (u, .ok ps))
include ht

theorem store_waits (hw : storeRoom s (hereOf s) (partSpans ps) = false ∨ (partsOrdered ps && acquirePending s (hereOf s).k) = true) :
    Stalls s i false :=
  word_stalls hm hi (withDev_waits ht (hw.imp_left (fun h => ⟨rfl, h⟩)))

variable (hroom : storeRoom s (hereOf s) (partSpans ps) = true) (hfree : (partsOrdered ps && acquirePending s (hereOf s).k) = false)
include hroom hfree

/-- The lowest byte is blamed: the model's choice, log entry 19. -/
theorem store_kinds (hk : kindsDiffer false ps = true) : Traps s i 0x0A (memAddr (me s) b o imm (accWidth z)) s :=
  word_traps hm hi (withDev_kinds ht (fun _ => hroom) hfree hk)

/-- The byte blamed is the first of the part that lies in a publish range: the model's choice, log entry 24. -/
theorem store_published (hk : kindsDiffer false ps = false) {bad : Nat} (hp : publishedPart (ctxOf s) ps = some bad) :
    Traps s i 0x09 (mod64 bad) s :=
  word_traps hm hi (withDev_published ht (fun _ => hroom) hfree hk rfl hp)
end

section
variable {cause bad : Nat} (ht : translate s (ctxOf s) (slotAt s (hereOf s)).thread.smode .write
    (memAddr (me s) b o imm (accWidth z)).toNat (accWidth z) = (u, .trap cause bad))
include ht

theorem store_trap_waits (hw : storeRoom s (hereOf s) [((memAddr (me s) b o imm (accWidth z)).toNat, accWidth z)] = false ∨
    acquirePending s (hereOf s).k = true) : Stalls s i false :=
  word_stalls hm hi (withDev_trap_waits ht (hw.imp_left (fun h => ⟨rfl, h⟩)))

theorem store_traps (hroom : storeRoom s (hereOf s) [((memAddr (me s) b o imm (accWidth z)).toNat, accWidth z)] = true)
    (hacq : acquirePending s (hereOf s).k = false) : Traps s i cause (mod64 bad) s :=
  word_traps hm hi (withDev_traps ht (fun _ => hroom) hacq)
end

/-- A store that goes on holds its bytes under the next numbers. -/
theorem store_holds (hd : DevGoes s .write (memAddr (me s) b o imm (accWidth z)) (accWidth z) false ps u)
    (hr : Room s (postWrite (me s) b o imm (accWidth z))) :
    ∃ t, exec i s = .next t ∧
      Did s t { writes := postWrite (me s) b o imm (accWidth z),
                held := storesTo (ctxOf s).asid rel (leBytes (accWidth z) (visS (me s) d).toNat) ps } ∧
      t.core.consumed = s.core.consumed ∧ t.core.nextId = s.core.nextId + ps.length := by
  have htlb := devGoes_tlbsOnly hd
  have hnear := near_of_tlbsOnly htlb
  have hid : (recordWrites (hereOf s) (postWrite (me s) b o imm (accWidth z)) u).core.nextId = s.core.nextId :=
    (recordWrites_core_nextId ..).trans htlb.nextId
  have hheld := near_holdDev (near_recordWrites hnear rfl (postWrite (me s) b o imm (accWidth z))) hid (ctxOf s).asid rel
    (leBytes (accWidth z) (visS (me s) d).toNat) ps
  have hctx : threadCtx (recordWrites (hereOf s) (postWrite (me s) b o imm (accWidth z)) u) (hereOf s).k = ctxOf s := by
    rw [threadCtx_recordWrites, htlb.threadCtx]
  refine ⟨_, word_retires hm hi ((withDev_goes hd _).trans (withWrites_records hr hnear rfl rfl)), ?_, ?_, ?_⟩
  · rw [hctx]
    exact did_retire hheld rfl
  · rw [retire_core_consumed, holdDev_core_consumed, recordWrites_core_consumed, htlb.consumed]
  · rw [nextId_retire_open, nextId_holdDev, hid]
end

theorem storesStallAndTrap : Claim.StoresStallAndTrap := by
  rintro s u sb p d b z o imm i ps ea hword rfl hm
  obtain ⟨rel, hi⟩ : ∃ rel, exec i s = storeWord sb p d b z o imm rel s := by
    rcases hword with rfl | rfl
    · exact ⟨false, rfl⟩
    · exact ⟨true, rfl⟩
  exact ⟨fun ht => ⟨store_waits hm hi ht, fun hroom hfree => ⟨store_kinds hm hi ht hroom hfree,
      fun hk _ hp => store_published hm hi ht hroom hfree hk hp⟩⟩,
    fun _ _ ht => ⟨store_trap_waits hm hi ht, store_traps hm hi ht⟩⟩

/-- Settles O35: a store that goes on is `store_holds`; voice A then reads its bytes by `readDev_of_store`, and what it misses
reads as before by `readDev_of_misses`. -/
theorem storesAreSeenAtTheirAddressOnly : Obligations.StoresAreSeenAtTheirAddressOnly := by
  refine ⟨storesStallAndTrap, fun s u sb p d b z o imm i rel ps hword hm hr htrace hd => ?_⟩
  have hi : exec i s = storeWord sb p d b z o imm rel s := by
    rcases hword with h | h <;> obtain ⟨rfl, rfl⟩ := Prod.mk.inj h <;> rfl
  obtain ⟨t, hexec, hdid, hcons, hid⟩ := store_holds hm hi hd hr
  refine ⟨t, hexec, hdid, ?_, fun ord x hx => readDev_of_misses hdid hcons htrace rfl hx _ ord⟩
  rintro q rfl hlen he
  have hlength : (leBytes (accWidth z) (visS (me s) d).toNat).length = accWidth z := length_leBytes ..
  have hread := readDev_of_store (ws := leBytes (accWidth z) (visS (me s) d).toNat) (q := q) hdid hcons hid
    (by rw [hlength]; exact Nat.two_pow_pos _) (by
      rw [storesTo, storesTo, List.take_of_length_le (by omega)]) (by rwa [hlength])
  rwa [hlength] at hread

end Sys2Proof.Machine
end

section
/-! O36: LDGQ, STGQ and PFG (R36, R87, R88, R92, R217, R219, R221, R225, R237). -/

namespace Sys2Proof.Machine

open Sys2Proof.Claim

/-! ### PFG (R219, R225) -/

@[simp] theorem traceRec_walks (s : State) (c k kind : Nat) (fs : List Nat) : (traceRec s c k kind fs).pkg.walks = s.pkg.walks := by
  unfold traceRec
  split
  · rfl
  · split <;> rfl

/-- A loop's exit is recorded beside the walks under way. -/
@[simp] theorem snapshotBanks_walks (s : State) (k : Nat) (v : VoiceId) (es : List VAddr) :
    (snapshotBanks s k v es).pkg.walks = s.pkg.walks := by
  cases es with
  | nil => rfl
  | cons e r => exact traceRec_walks ..

theorem retire_walks (h : Here) (flow : Flow) (b : Bool) (s : State) : (retire h flow b s).pkg.walks = s.pkg.walks := by
  cases b <;> simp [retire]

theorem startWalk_covered {s : State} {k va : Nat} (h : (tlbHit s.core.dtlb (threadCtx s k).asid va).isSome = true ∨
    (tlbHit s.pkg.l2tlb (threadCtx s k).asid va).isSome = true ∨ 64 ≤ s.pkg.walks.length) : startWalk s k va = s :=
  if_pos (by simpa [or_assoc] using h)

/-- The state with one more walk under way. -/
def withWalk (s : State) (w : Walk) : State := bumpId { s with pkg := { s.pkg with walks := s.pkg.walks ++ [w] } }

theorem startWalk_starts {s : State} {k va : Nat} (h1 : tlbHit s.core.dtlb (threadCtx s k).asid va = none)
    (h2 : tlbHit s.pkg.l2tlb (threadCtx s k).asid va = none) (h3 : s.pkg.walks.length < 64) :
    startWalk s k va = withWalk s ⟨freshId s, (getSlot s k).thread.ctx, va⟩ :=
  if_neg (by simp [h1, h2, h3])

theorem near_withWalk {s u : State} {d : Doing} (hn : Near s u d) (w : Walk) : Near s (withWalk u w) d := by
  have hmemory (ht : (ctxOf s).trace = none) := congrArg (fun p : Package => { p with walks := u.pkg.walks ++ [w] }) (hn.memory.2 ht).2
  have hwalks : Near s { u with pkg := { u.pkg with walks := u.pkg.walks ++ [w] } } d :=
    { hn with memory := ⟨hn.memory.1, fun ht => ⟨(hn.memory.2 ht).1, hmemory ht⟩⟩ }
  exact near_bump hwalks

theorem near_startWalk {s u : State} {d : Doing} (hn : Near s u d) (k va : Nat) : Near s (startWalk u k va) d := by
  unfold startWalk
  dsimp only
  split
  · exact hn
  · exact near_withWalk hn _

/-- PFG writes its base, whatever the file and CLASHTRAP say (log entry 117), and its walk joins those under way as `startWalk` says
(log entry 9). -/
theorem pfg_starts {s : State} {sb : BitVec 1} {p : BitVec 3} {b : BitVec 5} {o : BitVec 1} {imm : BitVec 9} (hm : MayIssue s sb p .a) :
    ∃ t, exec (.pfg sb p b o imm) s = .next t ∧ Did s t { writes := postWrite (me s) b o imm 128 } ∧
      t.pkg.walks = (startWalk (recordWrites (hereOf s) (postWrite (me s) b o imm 128) s) (hereOf s).k
        (memAddr (me s) b o imm 128).toNat).pkg.walks :=
  ⟨_, word_retires hm (exec_pfg ..) rfl,
    did_retire (near_startWalk (near_recordWrites (near_refl s) rfl (postWrite (me s) b o imm 128)) _ _) rfl, retire_walks ..⟩

theorem ctx_recordWrites (h : Here) (ws : List Wr) (s : State) :
    (getSlot (recordWrites h ws s) h.k).thread.ctx = (getSlot s h.k).thread.ctx := by
  simp [recordWrites, setArchAt]

/-! ### LDGQ (R87, R92, R225) -/

/-- The tail of a queue is reserved for the data of a read. -/
theorem near_sendFill {s u : State} {d : Doing} (hn : Near s u d) (hid : u.core.nextId = s.core.nextId) (q : Nat) (x : Xfer)
    (ps : List Part) : Near s (sendFill (hereOf s) q x ps u)
      { d with ctl := fun c => pushEntry (d.ctl c) q ⟨s.core.nextId, clauseAt s (hereOf s), placeWith (hereOf s) s d.links 0⟩
               xfers := d.xfers ++ [x] } := by
  have hdeps := near_deps hn (loadDeps u (hereOf s).k ps)
  have hdid := (addDeps_core_nextId u (hereOf s).k (hereOf s).v (loadDeps u (hereOf s).k ps)).trans hid
  have hplace := orderedBy_place (n := 0) hdeps.order hdid
  have hclause : clauseAt (bumpId (addDeps u (hereOf s).k (hereOf s).v (loadDeps u (hereOf s).k ps))) (hereOf s) = clauseAt s (hereOf s) :=
    hdeps.clause
  have hxfer := near_xfer (near_change (near_bump hdeps)
    (.qPush q ⟨s.core.nextId, clauseAt s (hereOf s), placeWith (hereOf s) s d.links 0⟩) rfl (fun _ => rfl)) x
  rw [changeAt, hclause] at hxfer
  simp only [sendFill, reserveEntry, freshId, hn.clause, hplace, hdid]
  exact hxfer

theorem popQueue_core_consumed (h : Here) (s : State) (q : Nat) : (popQueue h s q).core.consumed = s.core.consumed := by
  unfold popQueue
  split
  · rfl
  · simp [changeAt, linkAt, joinVoice, depAt]

section
variable {s u : State} {sb : BitVec 1} {p : BitVec 3} {b : BitVec 5} {o : BitVec 1} {imm : BitVec 9} {ps : List Part} {f g : Nat}
  (hm : MayIssue s sb p .a)
include hm

section
variable {q : BitVec 2}

theorem ldgq_traps_bound (hb : queueBound s (hereOf s) q.toNat = true) : Traps s (.ldgq sb p q b o imm) 0x0C 0 s :=
  word_traps hm (exec_ldgq ..) (if_pos hb)

variable (hf : pageFormat s (hereOf s).k (memAddr (me s) b o imm 128) = (f, g)) (hb : queueBound s (hereOf s) q.toNat = false)
  (hd : DevGoes s .read (memAddr (me s) b o imm 128) (footprint f g) true ps u)
include hf hb hd

theorem ldgq_stalls_full (hq : tryPush s (hereOf s).k q.toNat = .full) : Stalls s (.ldgq sb p q b o imm) false := by
  refine word_stalls hm (exec_ldgq ..) ?_
  simp only [hb, hf, withDev_goes hd, (devGoes_tlbsOnly hd).tryPush, hq]
  rfl

theorem ldgq_traps_push {cause : Nat} (hq : tryPush s (hereOf s).k q.toNat = .trap cause) :
    Traps s (.ldgq sb p q b o imm) cause 0 s := by
  refine word_traps hm (exec_ldgq ..) ?_
  simp only [hb, hf, withDev_goes hd, (devGoes_tlbsOnly hd).tryPush, hq]
  rfl

variable (hr : Room s (postWrite (me s) b o imm 128))
include hr

theorem ldgq_drops (hq : tryPush s (hereOf s).k q.toNat = .drop) :
    Completes (.ldgq sb p q b o imm) s { writes := postWrite (me s) b o imm 128 } := by
  have hnear := near_of_tlbsOnly (devGoes_tlbsOnly hd)
  refine word_completes hm (exec_ldgq ..) ?_ (near_recordWrites hnear rfl (postWrite (me s) b o imm 128)) rfl
  simp only [hb, hf, withDev_goes hd, (devGoes_tlbsOnly hd).tryPush, hq]
  exact withWrites_records hr hnear rfl rfl

theorem ldgq_reserves (hq : tryPush s (hereOf s).k q.toNat = .room) :
    Completes (.ldgq sb p q b o imm) s
      { writes := postWrite (me s) b o imm 128,
        ctl := fun c => pushEntry c q.toNat ⟨s.core.nextId, clauseAt s (hereOf s), entryPlace s []⟩,
        xfers := [newXfer s (hereOf s) q.toNat 0 ps (memAddr (me s) b o imm 128).toNat (footprint f g) false] } := by
  have htlb := devGoes_tlbsOnly hd
  have hnear := near_of_tlbsOnly htlb
  have hrec := near_recordWrites hnear rfl (postWrite (me s) b o imm 128)
  have hid := (recordWrites_core_nextId (hereOf s) (postWrite (me s) b o imm 128) u).trans htlb.nextId
  have hx := newXfer_near hrec rfl hid q.toNat 0 ps (memAddr (me s) b o imm 128).toNat (footprint f g) false
  refine word_completes hm (exec_ldgq ..) ?_ (near_sendFill hrec hid q.toNat
    (newXfer s (hereOf s) q.toNat 0 ps (memAddr (me s) b o imm 128).toNat (footprint f g) false) ps) rfl
  simp only [hb, hf, withDev_goes hd, htlb.tryPush, hq, Bool.false_eq_true, if_false]
  rw [← hx]
  exact withWrites_records hr hnear rfl rfl
end

/-! ### STGQ (R88, R221, R225, R237) -/

section
variable {j : BitVec 1} (hf : pageFormat s (hereOf s).k (memAddr (me s) b o imm 128) = (f, g))
include hf

section
variable (h8 : f = 8)
include h8

/-- The lowest byte is blamed, before QUEUEBOUND is judged: the model's choice, log entry 19. -/
theorem stgq_traps_blocks (hh : pageHeld s (hereOf s).k (memAddr (me s) b o imm 128) = false) :
    Traps s (.stgq sb p j b o imm) 0x0A (memAddr (me s) b o imm 128) s := by
  refine word_traps hm (exec_stgq ..) ?_
  simp only [hf, h8, hh, if_true]
  rfl

theorem stgq_stalls_held (hh : pageHeld s (hereOf s).k (memAddr (me s) b o imm 128) = true) :
    Stalls s (.stgq sb p j b o imm) false := by
  refine word_stalls hm (exec_stgq ..) ?_
  simp only [hf, h8, hh, if_true]
end

variable (h8 : f ≠ 8)
include h8

theorem stgq_traps_bound (hb : queueBound s (hereOf s) (4 + j.toNat) = true) : Traps s (.stgq sb p j b o imm) 0x0C 0 s := by
  refine word_traps hm (exec_stgq ..) ?_
  simp only [hf, if_neg h8, hb, if_true]

variable (hb : queueBound s (hereOf s) (4 + j.toNat) = false)
  (hd : DevGoes s .write (memAddr (me s) b o imm 128) (footprint f g) true ps u)
include hb hd

/-- An empty queue holds the word back, its translation kept. -/
theorem stgq_waits (hq : tryPop s (hereOf s).k (4 + j.toNat) = .wait) :
    exec (.stgq sb p j b o imm) s = .next (setMark u (hereOf s) .stalled) := by
  rw [← (devGoes_tlbsOnly hd).tryPop] at hq
  rw [exec_stgq, execStgq, word_takes hm]
  simp only [hf, if_neg h8, hb, withDev_goes hd, withPops_waits hq]
  rfl

theorem stgq_traps_pop {cause : Nat} (hq : tryPop s (hereOf s).k (4 + j.toNat) = .trap cause) :
    Traps s (.stgq sb p j b o imm) cause 0 u := by
  rw [← (devGoes_tlbsOnly hd).tryPop] at hq
  refine word_traps hm (exec_stgq ..) ?_
  simp only [hf, if_neg h8, hb, withDev_goes hd, withPops_traps hq]
  rfl

theorem stgq_holds {e : QEntry} {v : QVal} (hq : tryPop s (hereOf s).k (4 + j.toNat) = .ready e v) (hv : v.poison = none)
    (hr : Room s (postWrite (me s) b o imm 128)) :
    ∃ t, exec (.stgq sb p j b o imm) s = .next t ∧
      Did s t { writes := postWrite (me s) b o imm 128,
                ctl := fun c => setQueue c (4 + j.toNat) ((getQueue c (4 + j.toNat)).drop 1),
                held := storesTo (ctxOf s).asid false (encodeEntry f v.val) ps, links := [e.ord] } ∧
      t.core.consumed = s.core.consumed := by
  have htlb := devGoes_tlbsOnly hd
  have hnear := near_of_tlbsOnly htlb
  have hrec := near_recordWrites hnear rfl (postWrite (me s) b o imm 128)
  have hid := (recordWrites_core_nextId (hereOf s) (postWrite (me s) b o imm 128) u).trans htlb.nextId
  have hctx : threadCtx (recordWrites (hereOf s) (postWrite (me s) b o imm 128) u) (hereOf s).k = ctxOf s := by
    rw [threadCtx_recordWrites, htlb.threadCtx]
  obtain ⟨hpop, hpid⟩ := near_pop hrec rfl rfl hq
  have hheld := near_holdDev hpop (hpid.trans hid) (ctxOf s).asid false (encodeEntry f v.val) ps
  refine ⟨_, word_retires hm (exec_stgq ..) (u := holdDev (hereOf s) (ctxOf s).asid false (encodeEntry f v.val)
    (popQueue (hereOf s) (recordWrites (hereOf s) (postWrite (me s) b o imm 128) u) (4 + j.toNat)) ps) ?_, did_retire hheld rfl, ?_⟩
  · rw [← htlb.tryPop] at hq
    simp only [hf, if_neg h8, hb, withDev_goes hd, withPops_goes hq hv, List.map_cons, List.map_nil, List.flatten_cons,
      List.flatten_nil, List.append_nil, Bool.false_eq_true, if_false]
    rw [← hctx]
    exact withWrites_records hr hnear rfl rfl
  · rw [retire_core_consumed, holdDev_core_consumed, popQueue_core_consumed, recordWrites_core_consumed, htlb.consumed]
end
end

/-- Settles O36: PFG is `pfg_starts`; each fate of LDGQ is its `ldgq_` lemma and each of STGQ its `stgq_` lemma; what a STGQ misses
reads as before by `readDev_of_misses`. -/
theorem queueWordsMoveByThePageFormat : Obligations.QueueWordsMoveByThePageFormat := by
  refine ⟨fun s sb p b o imm va hm hva => ?pfg, fun s u sb p q j b o imm ps f g hm hr hf => ⟨ldgq_traps_bound hm,
    fun hb hd => ldgq_reserves hm hf hb hd hr,
    fun hb hd => ⟨ldgq_stalls_full hm hf hb hd, fun _ => ldgq_traps_push hm hf hb hd, ldgq_drops hm hf hb hd hr⟩,
    stgq_traps_blocks hm hf, stgq_stalls_held hm hf, stgq_traps_bound hm hf, fun e v h8 hb hd hq hv htrace => ?stgq,
    fun h8 hb hd => ⟨stgq_waits hm hf h8 hb hd, fun _ => stgq_traps_pop hm hf h8 hb hd⟩⟩⟩
  case pfg =>
    obtain ⟨t, hexec, hdid, hwalks⟩ := pfg_starts (b := b) (o := o) (imm := imm) hm
    rw [← hva] at hwalks
    refine ⟨t, hexec, hdid, fun hcovered => ?_, fun h1 h2 h3 => ?_⟩
    · rw [hwalks, startWalk_covered (by simpa [threadCtx_recordWrites] using hcovered), recordWrites_pkg]
    · rw [hwalks, startWalk_starts (by simpa [threadCtx_recordWrites] using h1) (by simpa [threadCtx_recordWrites] using h2)
        (by simpa using h3)]
      simp only [withWalk, bumpId_pkg, freshId, ctx_recordWrites, slotAt, recordWrites_pkg, recordWrites_core_nextId]
  case stgq =>
    obtain ⟨t, hexec, hdid, hcons⟩ := stgq_holds hm hf h8 hb hd hq hv hr
    exact ⟨t, hexec, hdid, fun ord x hx => readDev_of_misses hdid hcons htrace rfl hx _ ord⟩

end Sys2Proof.Machine
end

section
/-! O5: every function that a step calls keeps device memory and scratchpad canonical, in the order of the model's files. Each lemma
`Canonical.f` says it of the function `f`; they are chained along the calls. All writes go through `writeBytes`, `sset`, `mclear` and
filters, which keep `memWf`. -/

namespace Sys2Proof.Machine
open Sys2Proof.Claim

/-- Device memory and core scratchpad are in their canonical form. -/
structure Canonical (s : State) : Prop where
  mem : memWf s.pkg.mem = true
  spad : memWf s.core.spad = true

/-- A state that an outcome leads to is canonical. -/
def CanonicalOut : Out → Prop
  | .next t => Canonical t
  | .fault _ => True
  | .refused _ => True

/-- The state that the body of a word leaves is canonical. -/
def CanonicalRes : Res → Prop
  | .stall _ t => Canonical t
  | .trap _ _ t => Canonical t
  | .retire _ _ t => Canonical t
  | .leave _ t => Canonical t
  | .halt t => Canonical t

/-- A state, where there is one, is canonical. -/
def CanonicalOpt : Option State → Prop
  | some t => Canonical t
  | none => True

/-- What a DEBUG packet's operation answers with is canonical. -/
def CanonicalDone : Option (State × Nat) → Prop
  | some p => Canonical p.1
  | none => True

section
variable {s t : State}

theorem Canonical.of_eq (hs : Canonical s) (hmem : t.pkg.mem = s.pkg.mem) (hspad : t.core.spad = s.core.spad) : Canonical t :=
  ⟨hmem ▸ hs.mem, hspad ▸ hs.spad⟩

theorem CanonicalOut.of_next {o : Out} (ho : CanonicalOut o) (e : o = .next t) : Canonical t := by
  rw [e] at ho
  exact ho

theorem CanonicalOpt.of_some {o : Option State} (ho : CanonicalOpt o) (e : o = some t) : Canonical t := by
  rw [e] at ho
  exact ho

theorem CanonicalOpt.getD {o : Option State} (ho : CanonicalOpt o) (hs : Canonical s) : Canonical (o.getD s) := by
  cases o with
  | none => exact hs
  | some t => exact ho

theorem Canonical.of_pair {α : Type} {p : State × α} {y : α} (hp : Canonical p.1) (e : p = (t, y)) : Canonical t := by
  rw [e] at hp
  exact hp

theorem CanonicalDone.of_some {o : Option (State × Nat)} {n : Nat} (ho : CanonicalDone o) (e : o = some (t, n)) : Canonical t := by
  rw [e] at ho
  exact ho

theorem Canonical.ite {c : Prop} [Decidable c] (hs : Canonical s) (ht : Canonical t) : Canonical (if c then s else t) := by
  split
  · exact hs
  · exact ht

theorem Canonical.foldl {α : Type} {f : State → α → State} {l : List α} (hs : Canonical s)
    (hf : ∀ t x, Canonical t → Canonical (f t x)) : Canonical (l.foldl f s) := by
  induction l generalizing s with
  | nil => exact hs
  | cons x r ih => exact ih (hf s x hs)
end

/-! ### Memories -/

theorem memWf_foldl {α : Type} {f : Memory → α → Memory} {l : List α} {m : Memory} (hm : memWf m = true)
    (hf : ∀ m x, memWf m = true → memWf (f m x) = true) : memWf (l.foldl f m) = true := by
  induction l generalizing m with
  | nil => exact hm
  | cons x r ih => exact ih (hf m x hm)

theorem memWf_writePiece {m : Memory} (hm : memWf m = true) (ps : List Part) (va : Nat) (p : Piece) :
    memWf (writePiece ps va m p) = true := memWf_foldl hm fun _ _ hm => memWf_sset hm _ _

/-! ### What the operations on a core leave of its scratchpad -/

@[simp] theorem undoOne_spad (c : Core) (u : Undo) : (undoOne c u).spad = c.spad := by cases u <;> rfl

theorem undoOnes_spad (us : List Undo) (c : Core) : (us.foldl undoOne c).spad = c.spad := by
  induction us generalizing c with
  | nil => rfl
  | cons u r ih => exact (ih _).trans (undoOne_spad c u)

@[simp] theorem undoCmd_spad (c : Core) (m : Cmd) : (undoCmd c m).spad = c.spad := undoOnes_spad _ c

theorem undoCmds_spad (ms : List Cmd) (c : Core) : (ms.foldl undoCmd c).spad = c.spad := by
  induction ms generalizing c with
  | nil => rfl
  | cons m r ih => exact (ih _).trans (undoCmd_spad c m)

@[simp] theorem dropCmds_spad (c : Core) (p : Cmd → Bool) : (dropCmds c p).spad = c.spad := undoCmds_spad _ c

@[simp] theorem cleanRow_spad (code row : Nat) (c : Core) : (cleanRow code row c).spad = c.spad := by
  unfold cleanRow
  split <;> rfl

theorem Canonical.withoutCmds {p} {s : State} (hs : Canonical s) : Canonical { s with core := dropCmds s.core p } :=
  hs.of_eq rfl (dropCmds_spad ..)

section
variable {s : State}

/-! ### Machine/Get.lean -/

theorem Canonical.setSlot {k x} (hs : Canonical s) : Canonical (setSlot s k x) := .ite ⟨hs.mem, hs.spad⟩ ⟨hs.mem, hs.spad⟩

theorem Canonical.setVoice {k v y} (hs : Canonical s) : Canonical (setVoice s k v y) := hs.setSlot

theorem Canonical.setArch {k v a} (hs : Canonical s) : Canonical (setArch s k v a) := hs.setVoice

/-! ### Machine/Journal.lean -/

theorem Canonical.change {k cl ch} (hs : Canonical s) : Canonical (change s k cl ch) := ⟨hs.mem, hs.spad⟩

theorem Canonical.changes {k cl chs} (hs : Canonical s) : Canonical (changes s k cl chs) := by
  induction chs generalizing s with
  | nil => exact hs
  | cons ch r ih => exact ih hs.change

theorem Canonical.resetCtl {k x} (hs : Canonical s) : Canonical (resetCtl s k x) := ⟨hs.mem, hs.spad⟩

theorem Canonical.bumpId (hs : Canonical s) : Canonical (bumpId s) := ⟨hs.mem, hs.spad⟩

theorem Canonical.joinVoice {k v ord} (hs : Canonical s) : Canonical (joinVoice s k v ord) := hs.setVoice

theorem Canonical.updClause {id f} (hs : Canonical s) : Canonical (updClause s id f) := ⟨hs.mem, hs.spad⟩

theorem Canonical.dependOn {q ps} (hs : Canonical s) : Canonical (dependOn s q ps) := by
  unfold Machine.dependOn
  split
  · exact hs
  · exact hs.updClause

theorem Canonical.addDep {k v p} (hs : Canonical s) : Canonical (addDep s k v p) := .ite hs hs.updClause

theorem Canonical.addDeps {k v ps} (hs : Canonical s) : Canonical (addDeps s k v ps) := by
  induction ps generalizing s with
  | nil => exact hs
  | cons p r ih => exact ih hs.addDep

theorem Canonical.openClause {k v deps} (hs : Canonical s) : Canonical (openClause s k v deps) :=
  Canonical.setVoice ⟨hs.mem, hs.spad⟩

theorem Canonical.closeClause {k v b stop} (hs : Canonical s) : Canonical (closeClause s k v b stop) := hs.updClause.openClause

theorem Canonical.hold {k cl e} (hs : Canonical s) : Canonical (hold s k cl e) := Canonical.bumpId ⟨hs.mem, hs.spad⟩

theorem Canonical.countNow {k ev n} (hs : Canonical s) : Canonical (countNow s k ev n) := ⟨hs.mem, hs.spad⟩

theorem Canonical.pmCount {k cl ev n} (hs : Canonical s) : Canonical (pmCount s k cl ev n) := hs.countNow.changes

/-! ### Machine/Memory.lean -/

theorem Canonical.writeMem {pa bs} (hs : Canonical s) : Canonical (writeMem s pa bs) := ⟨memWf_writeBytes hs.mem pa bs, hs.spad⟩

theorem Canonical.setCtx {c x} (hs : Canonical s) : Canonical (setCtx s c x) := ⟨hs.mem, hs.spad⟩

theorem Canonical.fillData {c w} (hs : Canonical s) : Canonical (fillData s c w) :=
  hs.of_eq (fillData_mem ..) (fillData_core_spad ..)

theorem Canonical.fillFetch {v c w} (hs : Canonical s) : Canonical (fillFetch s v c w) :=
  hs.of_eq (fillFetch_mem ..) (fillFetch_core_spad ..)

theorem Canonical.translateOne {c smode a va len} (hs : Canonical s) : Canonical (translateOne s c smode a va len).1 := by
  unfold Machine.translateOne
  split
  · exact hs
  · exact hs
  · extract_lets s1
    have h1 : Canonical s1 := hs.fillData
    split
    · exact h1
    · exact h1

theorem Canonical.translate {c smode a va len} (hs : Canonical s) : Canonical (translate s c smode a va len).1 := by
  unfold Machine.translate
  extract_lets cut
  split
  · exact hs.translateOne
  · split
    · next s1 ps h1 =>
      have hs1 : Canonical s1 := hs.translateOne.of_pair h1
      split
      · next s2 qs h2 => exact hs1.translateOne.of_pair h2
      · exact hs1.translateOne
    · exact hs.translateOne

theorem Canonical.fetchFill {k v va} (hs : Canonical s) : Canonical (fetchFill s k v va) := hs.fillFetch

/-! ### Machine/Host.lean -/

theorem Canonical.wake (hs : Canonical s) : Canonical (wake s) := .ite ⟨hs.mem, hs.spad⟩ hs

theorem Canonical.raiseMsix {c} (hs : Canonical s) : Canonical (raiseMsix s c) := ⟨hs.mem, hs.spad⟩

theorem Canonical.ringPut {r n bs} (hs : Canonical s) : Canonical (ringPut s r n bs) := hs.writeMem

theorem Canonical.postCompletion {c notice bs} (hs : Canonical s) : Canonical (postCompletion s c notice bs) :=
  .ite hs.ringPut.setCtx.raiseMsix (.ite hs.setCtx hs.setCtx)

theorem Canonical.postFault {c bs} (hs : Canonical s) : Canonical (postFault s c bs) :=
  .ite hs.ringPut.setCtx.raiseMsix (.ite hs.setCtx hs.setCtx)

/-! ### Machine/Trace.lean -/

theorem Canonical.writeParted {ps bs} (hs : Canonical s) : Canonical (writeParted s ps bs) := by
  induction ps generalizing s bs with
  | nil => exact hs
  | cons p r ih => exact ih hs.writeMem

theorem Canonical.writeVirt {c va bs} (hs : Canonical s) : CanonicalOpt (writeVirt s c va bs) := by
  unfold Machine.writeVirt
  cases hubSpan s c .write va bs.length with
  | none => trivial
  | some ps => exact hs.writeParted

theorem Canonical.closeFrame {c t} (hs : Canonical s) : Canonical (closeFrame s c t).1 := by
  unfold Machine.closeFrame
  dsimp only
  split
  · exact hs
  · split
    · next e4 =>
      exact hs.writeVirt.of_some e4
    · exact hs

theorem Canonical.traceRec {c k kind fields} (hs : Canonical s) : Canonical (traceRec s c k kind fields) := by
  unfold Machine.traceRec
  dsimp only
  split
  · exact hs
  · exact Canonical.ite hs.setCtx hs

theorem Canonical.codeRecord {c bs} (hs : Canonical s) : Canonical (codeRecord s c bs) := by
  unfold Machine.codeRecord
  dsimp only
  split
  · exact hs
  · refine Canonical.setCtx ?_
    split
    · exact hs.closeFrame
    · exact hs

theorem Canonical.flushTrace {c} (hs : Canonical s) : Canonical (flushTrace s c) := by
  unfold Machine.flushTrace
  dsimp only
  split
  · exact hs
  · exact Canonical.ite hs (hs.setCtx.foldl fun _ _ h1 => h1.codeRecord)

theorem Canonical.flushTraces (hs : Canonical s) : Canonical (flushTraces s) := hs.foldl fun _ _ h1 => h1.flushTrace

theorem Canonical.traceThread {k kind fields} (hs : Canonical s) : Canonical (traceThread s k kind fields) := hs.traceRec

theorem Canonical.snapshotBanks {k v ends} (hs : Canonical s) : Canonical (snapshotBanks s k v ends) := by
  unfold Machine.snapshotBanks
  dsimp only
  split
  · exact hs
  · exact Canonical.traceThread ⟨hs.mem, hs.spad⟩

theorem Canonical.clearBanks {k} (hs : Canonical s) : Canonical (clearBanks s k) := ⟨hs.mem, hs.spad⟩

theorem Canonical.debugNotice {k reason image} (hs : Canonical s) : Canonical (debugNotice s k reason image) := by
  unfold Machine.debugNotice
  dsimp only
  split
  · exact hs
  · exact hs.postCompletion

/-! ### Machine/Ops.lean -/

theorem Canonical.setArchAt {h a} (hs : Canonical s) : Canonical (setArchAt s h a) := hs.setArch

theorem Canonical.changeAt {h c} (hs : Canonical s) : Canonical (changeAt s h c) := hs.change

theorem Canonical.depAt {h p} (hs : Canonical s) : Canonical (depAt s h p) := hs.addDep

theorem Canonical.linkAt {h p ord} (hs : Canonical s) : Canonical (linkAt s h p ord) := hs.depAt.joinVoice

theorem Canonical.recordWrites {h ws} (hs : Canonical s) : Canonical (recordWrites h ws s) := hs.setArchAt.pmCount

theorem Canonical.withWrites {h ws go} (hs : Canonical s) (hgo : ∀ t, Canonical t → CanonicalRes (go t)) :
    CanonicalRes (withWrites h ws s go) := by
  unfold Machine.withWrites
  dsimp only
  split
  · exact hs
  · split
    · exact hs.setArchAt.pmCount
    · exact hgo _ hs.recordWrites

theorem Canonical.writeOne {h r x lat} (hs : Canonical s) : CanonicalRes (writeOne h r x lat s) := hs.withWrites fun _ h1 => h1

theorem Canonical.setMark {h m} (hs : Canonical s) : Canonical (setMark s h m) := hs.setVoice

theorem Canonical.retire {h flow boundary} (hs : Canonical s) : Canonical (retire h flow boundary s) :=
  .ite hs.setArchAt.snapshotBanks.pmCount.setVoice.setSlot.closeClause hs.setArchAt.snapshotBanks.pmCount.setVoice.setSlot

theorem Canonical.closeAll {k b vs} (hs : Canonical s) : Canonical (closeAll s k b vs) := by
  induction vs generalizing s with
  | nil => exact hs
  | cons v r ih => exact ih hs.closeClause

theorem Canonical.stopThread {k cause voice async fault word b scyc} (hs : Canonical s) :
    Canonical (stopThread s k cause voice async fault word b scyc) :=
  hs.closeAll.setSlot

theorem Canonical.takeTrap {h cause fault} (hs : Canonical s) : Canonical (takeTrap h cause fault s) := hs.stopThread.setMark

theorem Canonical.finish {h s0 r} (hs : Canonical s0) (hr : CanonicalRes r) : CanonicalOut (finish h s0 r) := by
  cases r with
  | stall y t => exact Canonical.setMark (s := t) hr
  | trap cause fault t =>
    simp only [Machine.finish]
    split
    · exact hs.setMark
    · exact Canonical.takeTrap (s := t) hr
  | retire flow b t => exact Canonical.retire (s := t) hr
  | leave same t => exact (Canonical.setArchAt (s := t) hr).snapshotBanks.setMark
  | halt t =>
    simp only [Machine.finish]
    split
    · exact hs.setMark
    · exact Canonical.setMark (s := t) hr

theorem Canonical.issue {sb cb perm priv ill live body} (hs : Canonical s) (hbody : ∀ h t, Canonical t → CanonicalRes (body h t)) :
    CanonicalOut (issue sb cb perm priv ill live body s) := by
  unfold Machine.issue
  extract_lets h
  split
  · exact hs.finish hs
  · split
    · exact hs.finish hs
    · split
      · exact hs.finish hs
      · split
        · exact hs.finish hs
        · split
          · exact hs.finish hs
          · split
            · exact hs.finish hs
            · exact hs.finish (hbody h s hs)

theorem Canonical.word {sb p perm body} (hs : Canonical s) (hbody : ∀ h t, Canonical t → CanonicalRes (body h t)) :
    CanonicalOut (word sb p perm body s) := hs.issue hbody

theorem Canonical.privWord {sb p perm body} (hs : Canonical s) (hbody : ∀ h t, Canonical t → CanonicalRes (body h t)) :
    CanonicalOut (privWord sb p perm body s) := hs.issue hbody

theorem Canonical.illegalWord {w} (hs : Canonical s) : CanonicalOut (illegalWord w s) := hs.issue fun _ _ h1 => h1

theorem Canonical.withFlip {h go} (hs : Canonical s) (hgo : ∀ t, Canonical t → CanonicalRes (go t)) :
    CanonicalRes (withFlip h s go) := by
  unfold Machine.withFlip
  split
  · exact hs
  · exact hgo _ hs.setArchAt.pmCount

theorem Canonical.startWait {h kind items dest val} (hs : Canonical s) : CanonicalRes (startWait h kind items dest val s) :=
  hs.setArchAt

theorem Canonical.leaveWait {h} (hs : Canonical s) : Canonical (leaveWait s h) := hs.setArchAt

theorem Canonical.endWait {h same ws} (hs : Canonical s) : CanonicalRes (endWait h same ws s) :=
  hs.withWrites fun _ h1 => h1.leaveWait

theorem Canonical.writeSpan {ps va pieces} (hs : Canonical s) : Canonical (writeSpan s ps va pieces) :=
  ⟨memWf_foldl (memWf_foldl hs.mem fun _ _ hm => memWf_mclear hm _ _) fun _ p hm => memWf_writePiece hm ps va p, hs.spad⟩

theorem Canonical.reimage {k v closed at_} (hs : Canonical s) : Canonical (reimage s k v closed at_) :=
  .ite ⟨hs.mem, hs.spad⟩ hs.setVoice

theorem Canonical.enterHandler {k st handler recAddr} (hs : Canonical s) : Canonical (enterHandler s k st handler recAddr) :=
  hs.setSlot.addDeps.foldl fun _ _ h1 => h1.reimage

theorem Canonical.trapEntry {k st} (hs : Canonical s) : Canonical (trapEntry s k st) := by
  unfold Machine.trapEntry
  dsimp only
  split
  · exact hs.setSlot
  · split
    · exact hs.writeSpan.enterHandler
    · exact hs.writeSpan.setSlot

theorem Canonical.reloadRecord {k ps ra n} (hs : Canonical s) : Canonical (reloadRecord s k ps ra n) := hs.setSlot

theorem Canonical.takeSignal {k} (hs : Canonical s) : Canonical (takeSignal s k) := by
  unfold Machine.takeSignal
  dsimp only
  split
  · exact hs.stopThread
  · exact hs.setSlot
  · exact hs.setSlot
  · exact hs.setSlot
  · exact hs

theorem Canonical.takeHeld {k n} (hs : Canonical s) : Canonical (takeHeld s k n) := .ite hs.setSlot.stopThread hs

/-! ### Machine/Flags.lean -/

theorem Canonical.raiseFlags {h q fl lat} (hs : Canonical s) : Canonical (raiseFlags s h q fl lat) := .ite hs hs.setArchAt

/-! ### Machine/ClusterOps.lean -/

theorem Canonical.setCluster {c} (hs : Canonical s) : Canonical (setCluster s c) := ⟨hs.mem, hs.spad⟩

/-! ### Machine/Replay.lean -/

theorem Canonical.setReplay {c r} (hs : Canonical s) : Canonical (setReplay s c r) := hs.setCtx

theorem Canonical.copyBuffers {c keep n pos} (hs : Canonical s) : Canonical (copyBuffers s c keep n pos).1 := by
  induction n generalizing s pos with
  | zero => exact hs
  | succ n ih =>
    rw [Machine.copyBuffers]
    dsimp only
    split
    · refine ih ?_
      split
      · exact hs.writeVirt.getD hs
      · exact hs
    · exact hs

theorem Canonical.startCapture {c} (hs : Canonical s) : Canonical (startCapture s c) := hs.copyBuffers.setReplay

theorem Canonical.appendLog {c bs} (hs : Canonical s) : Canonical (appendLog s c bs) := by
  unfold Machine.appendLog
  dsimp only
  split
  · split
    · split
      · next e5 => exact (hs.startCapture.writeVirt.of_some e5).setReplay
      · exact hs.startCapture
    · exact hs.startCapture
  · split
    · split
      · next e5 => exact (hs.writeVirt.of_some e5).setReplay
      · exact hs
    · exact hs

theorem Canonical.applyWaiting {c} (hs : Canonical s) : Canonical (applyWaiting s c) := hs.setCtx

theorem Canonical.endRerun {c} (hs : Canonical s) : Canonical (endRerun s c) := hs.setReplay.applyWaiting.postFault

theorem Canonical.replayGate {c bs} (hs : Canonical s) : CanonicalOpt (replayGate s c bs) := by
  unfold Machine.replayGate
  dsimp only
  split
  · exact hs.appendLog
  · split
    · exact hs.endRerun
    · split
      · exact hs.setReplay
      · exact trivial
  · exact hs

theorem Canonical.changeEvents {c win set clr} (hs : Canonical s) : Canonical (changeEvents s c win set clr) := hs.setCtx

theorem Canonical.drainEvents {c n} (hs : Canonical s) : Canonical (drainEvents s c n) := by
  induction n generalizing s with
  | zero => exact hs
  | succ n ih =>
    rw [Machine.drainEvents]
    dsimp only
    split
    · exact hs
    · split
      · exact hs
      · next u hu => exact ih (hs.setCtx.replayGate.of_some hu).changeEvents

theorem Canonical.drainLog {c} (hs : Canonical s) : Canonical (drainLog s c) := hs.drainEvents

theorem Canonical.eventChange {c win set clr tag} (hs : Canonical s) : Canonical (eventChange s c win set clr tag) := by
  unfold Machine.eventChange
  dsimp only
  split
  · next e3 => exact (hs.replayGate.of_some e3).changeEvents.drainLog
  · exact hs.setCtx

theorem Canonical.gated {c bs go} (hs : Canonical s) (hgo : ∀ t, Canonical t → Canonical (go t)) : Canonical (gated s c bs go) :=
  by
  unfold Machine.gated
  split
  · next u hu => exact (hgo u (hs.replayGate.of_some hu)).drainLog
  · exact hs

/-! ### Machine/Seal.lean -/

theorem Canonical.withdraw {h} (hs : Canonical s) : Canonical (withdraw s h) := by
  unfold Machine.withdraw
  dsimp only
  split
  · exact hs.setCluster
  · exact hs.setCtx
  · exact hs

theorem Canonical.dropHeld {p} (hs : Canonical s) : Canonical (dropHeld s p) :=
  (hs.foldl fun _ _ ht => ht.withdraw).of_eq rfl rfl

theorem Canonical.pruneSlot {k} (hs : Canonical s) : Canonical (pruneSlot s k) := hs.setSlot

theorem Canonical.openAll {k vs} (hs : Canonical s) : Canonical (openAll s k vs) := by
  induction vs generalizing s with
  | nil => exact hs
  | cons v r ih => exact ih hs.openClause

theorem Canonical.restoreSlot {n k} (hs : Canonical s) : Canonical (restoreSlot n s k) := by
  unfold Machine.restoreSlot
  extract_lets x sig keep inH y _ s1 gone _ s1' _ s2
  have h1 : Canonical s1 := Canonical.setSlot ⟨hs.mem, hs.spad⟩
  have h1' : Canonical s1' := ⟨h1.mem, h1.spad⟩
  exact .ite hs (Canonical.openAll h1'.setCluster)

theorem Canonical.restoreImages {n} (hs : Canonical s) : Canonical (restoreImages s n) := by
  unfold Machine.restoreImages
  extract_lets open_ s1 s2 _ s3
  have h2 : Canonical s2 := hs.withoutCmds.dropHeld
  have h3 : Canonical s3 := ⟨h2.mem, h2.spad⟩
  exact h3.restoreSlot.restoreSlot.pruneSlot.pruneSlot

theorem Canonical.countRollback {k} (hs : Canonical s) : Canonical (countRollback s k) := .ite hs hs.setSlot.pmCount

theorem Canonical.rollback {r} (hs : Canonical s) : Canonical (rollback s r) := by
  unfold Machine.rollback
  extract_lets s1
  have h1 : Canonical s1 := hs.restoreImages.countRollback.countRollback
  clear_value s1
  exact ⟨h1.mem, h1.spad⟩

theorem Canonical.foldCounts {k} (hs : Canonical s) : Canonical (foldCounts s k) := hs.setCtx.changes

theorem Canonical.moveFences {old new} (hs : Canonical s) : Canonical (moveFences s old new) :=
  .ite (.ite hs (Canonical.setSlot ⟨hs.mem, hs.spad⟩)) ⟨hs.mem, hs.spad⟩

theorem Canonical.rename {s0 old new} (hs0 : Canonical s0) : Canonical (rename s0 old new) :=
  Canonical.of_eq hs0.moveFences rfl rfl

theorem Canonical.disownRuns {k} (hs : Canonical s) : Canonical (disownRuns s k) := .ite hs ⟨hs.mem, hs.spad⟩

theorem Canonical.clearSlot {k} (hs : Canonical s) : Canonical (clearSlot s k) := by
  unfold Machine.clearSlot
  extract_lets s0 s1 s2 _ s3
  have h0 : Canonical s0 := hs.foldCounts.rename.disownRuns
  clear_value s0
  have h1 : Canonical s1 := h0.withoutCmds
  have h2 : Canonical s2 := h1.dropHeld
  have h3 : Canonical s3 := ⟨h2.mem, h2.spad⟩
  exact h3.resetCtl.setSlot

theorem Canonical.breakMissed {k} (hs : Canonical s) : Canonical (breakMissed s k) := .ite hs.debugNotice.setSlot hs

theorem Canonical.leaveSlot {k} (hs : Canonical s) : Canonical (leaveSlot s k) := hs.resetCtl.setSlot

theorem Canonical.discardOpen {k} (hs : Canonical s) : Canonical (discardOpen s k) := by
  have h1 := Canonical.dropHeld (p := fun h => ((s.core.clauses.filter fun c => decide (c.slot = k)).map fun c => c.id).contains h.clause)
    (hs.of_eq (t := { s with core := dropCmds s.core fun m =>
      ((s.core.clauses.filter fun c => decide (c.slot = k)).map fun c => c.id).contains m.clause }) rfl (dropCmds_spad ..))
  exact ⟨h1.mem, h1.spad⟩

theorem Canonical.endThread {k} (hs : Canonical s) : Canonical (endThread s k) := hs.breakMissed.clearSlot.setCluster

theorem Canonical.takeOff {k} (hs : Canonical s) : Canonical (takeOff s k) :=
  Canonical.clearSlot (Canonical.of_eq hs.rename rfl rfl)

theorem Canonical.checkpointSlot {s0 k img} (hs0 : Canonical s0) : Canonical (checkpointSlot s0 k img) :=
  hs0.foldCounts.takeOff.setCluster

/-! ### Machine/Links.lean -/

theorem Canonical.setLink {l x} (hs : Canonical s) : Canonical (setLink s l x) := ⟨hs.mem, hs.spad⟩

theorem Canonical.pumpLink {l} (hs : Canonical s) : Canonical (pumpLink s l) := Canonical.setLink ⟨hs.mem, hs.spad⟩

theorem Canonical.sendOn {l vc p} (hs : Canonical s) : Canonical (sendOn s l vc p) := Canonical.pumpLink ⟨hs.mem, hs.spad⟩

theorem Canonical.replayLink {l seq} (hs : Canonical s) : Canonical (replayLink s l seq) :=
  .ite hs (.ite hs.setLink hs.setLink)

/-! ### Machine/FabricOps.lean -/

theorem Canonical.setJob {k j} (hs : Canonical s) : Canonical (setJob s k j) := ⟨hs.mem, hs.spad⟩

theorem Canonical.deliver {p} (hs : Canonical s) : Canonical (deliver s p) := by
  unfold Machine.deliver
  dsimp only
  split
  · exact ⟨hs.mem, hs.spad⟩
  · split
    · exact hs.sendOn
    · exact hs

theorem Canonical.writeSaveArea {j} (hs : Canonical s) : Canonical (writeSaveArea s j) := .ite hs.writeMem hs

theorem Canonical.putSaved {jk j} (hs : Canonical s) : Canonical (putSaved s jk j) := hs.setJob.writeSaveArea

theorem Canonical.inject {jk p} (hs : Canonical s) : Canonical (inject s jk p) := by
  unfold Machine.inject
  split
  · exact hs.deliver
  · exact Canonical.ite hs.putSaved hs.deliver

theorem Canonical.takeNumber {c id g isBar} (hs : Canonical s) : Canonical (takeNumber s c id g isBar).1 := by
  unfold Machine.takeNumber
  dsimp only
  split
  · exact hs
  · exact hs.setJob

theorem Canonical.sendContribution {c tag id g isBar mean val num} (hs : Canonical s) :
    Canonical (sendContribution s c tag id g isBar mean val num) :=
  by
  unfold Machine.sendContribution
  dsimp only
  split
  · exact hs
  · exact hs.setJob.inject

theorem Canonical.contribute {c tag id g isBar mean val} (hs : Canonical s) : Canonical (contribute s c tag id g isBar mean val) :=
  hs.takeNumber.sendContribution

theorem Canonical.completeInstance {jk i status count result} (hs : Canonical s) :
    Canonical (completeInstance s jk i status count result) :=
  by
  unfold Machine.completeInstance
  dsimp only
  split
  · exact hs
  · exact hs.setJob.foldl fun _ _ h1 => h1.inject

theorem Canonical.failInstance {jk g isBar num} (hs : Canonical s) : Canonical (failInstance s jk g isBar num) := by
  unfold Machine.failInstance
  dsimp only
  split
  · exact hs
  · exact Canonical.ite hs hs.completeInstance

/-! ### Machine/Members.lean -/

theorem Canonical.tryComplete {jk i} (hs : Canonical s) : Canonical (tryComplete s jk i) := by
  unfold Machine.tryComplete
  dsimp only
  split
  · exact hs
  · exact Canonical.ite hs.completeInstance hs

theorem Canonical.regather {jk g i} (hs : Canonical s) : Canonical (regather jk g s i) := by
  unfold Machine.regather
  dsimp only
  split
  · exact hs
  · split
    · exact hs
    · split
      · exact hs.tryComplete
      · split
        · exact hs
        · exact hs.inject

theorem Canonical.memberFails {jk grp node} (hs : Canonical s) : Canonical (memberFails s jk grp node) := by
  unfold Machine.memberFails
  dsimp only
  split
  · exact hs
  · exact Canonical.ite (hs.setJob.foldl fun _ _ h1 => h1.regather) hs

theorem Canonical.contextFails {c} (hs : Canonical s) : Canonical (contextFails s c) := by
  unfold Machine.contextFails
  split
  · exact hs
  · exact hs.foldl fun _ _ h1 => h1.memberFails

theorem Canonical.routesFail (hs : Canonical s) : Canonical (routesFail s) :=
  hs.foldl fun _ _ h1 => h1.foldl fun _ _ h2 => Canonical.ite (h2.foldl fun _ _ h3 => h3.memberFails) h2

theorem Canonical.fenceMembers {cs} (hs : Canonical s) : Canonical (fenceMembers s cs) := by
  induction cs generalizing s with
  | nil => exact hs
  | cons c r ih => exact ih (.ite ⟨hs.mem, hs.spad⟩ (.contextFails ⟨hs.mem, hs.spad⟩))

/-! ### Machine/Fence.lean -/

theorem Canonical.purgeRecords {ctx tag} (hs : Canonical s) : Canonical (purgeRecords s ctx tag) := hs.setCluster

theorem Canonical.purgeThread {ctx tag k} (hs : Canonical s) : Canonical (purgeThread ctx tag s k) := .ite hs.endThread hs

theorem Canonical.dropPackets {job tag} (hs : Canonical s) : Canonical (dropPackets s job tag) := ⟨hs.mem, hs.spad⟩

theorem Canonical.loseContribution {p} (hs : Canonical s) : Canonical (loseContribution s p) := by
  unfold Machine.loseContribution
  dsimp only
  split
  · exact hs.deliver
  · exact Canonical.ite hs.inject hs.failInstance

theorem Canonical.purgeArrivals {jk tag} (hs : Canonical s) : Canonical (purgeArrivals s jk tag) := by
  unfold Machine.purgeArrivals
  dsimp only
  refine Canonical.foldl ?_ ?_
  · exact ⟨hs.mem, hs.spad⟩
  · intro x1 x2 ht28
    split
    · exact ht28.failInstance
    · exact ht28

theorem Canonical.purgePackets {jk tag} (hs : Canonical s) : Canonical (purgePackets s jk tag) := by
  unfold Machine.purgePackets
  dsimp only
  split
  · exact hs
  · refine Canonical.purgeArrivals (Canonical.foldl ?_ fun _ _ ht => ht.loseContribution)
    exact .ite hs.dropPackets.putSaved hs.dropPackets.setJob

theorem Canonical.purgeLocal {ctx tag} (hs : Canonical s) : Canonical (purgeLocal s ctx tag) := by
  unfold Machine.purgeLocal
  dsimp only
  split
  · exact hs.purgeRecords.purgeThread.purgeThread.purgePackets
  · exact hs.purgeRecords.purgeThread.purgeThread

theorem Canonical.floodPurge {p} (hs : Canonical s) : Canonical (floodPurge s p) :=
  Canonical.foldl ⟨hs.mem, hs.spad⟩ (fun _ _ h1 => h1.sendOn)

theorem Canonical.purge {ctx tag} (hs : Canonical s) : Canonical (purge s ctx tag) := by
  unfold Machine.purge
  extract_lets s1 _ s2
  have h1 : Canonical s1 := hs.purgeLocal
  split
  · split
    · extract_lets p
      have h2 : Canonical s2 := ⟨h1.mem, h1.spad⟩
      split
      · exact h2.inject
      · exact h2.floodPurge
    · exact h1
  · exact h1

theorem Canonical.retireSlot {k} (hs : Canonical s) : Canonical (retireSlot s k) := by
  unfold Machine.retireSlot
  split
  · exact hs
  · exact hs.endThread
  · exact hs.checkpointSlot

theorem Canonical.fenceCore {bad past} (hs : Canonical s) : Canonical (fenceCore s bad past) :=
  Canonical.fenceMembers (Canonical.of_eq (hs.restoreImages.foldl fun _ _ h1 => h1.purge).retireSlot.retireSlot rfl rfl)

theorem Canonical.breakHalted {k} (hs : Canonical s) : Canonical (breakHalted s k) := .ite hs.debugNotice.setSlot hs

theorem Canonical.machineCheck {s0 k addr storage} (hs0 : Canonical s0) : Canonical (machineCheck s0 k addr storage) :=
  Canonical.fenceCore (Canonical.of_eq hs0.breakHalted.breakHalted.postFault rfl rfl)

theorem Canonical.silentError {k digest cmp kd} (hs : Canonical s) : Canonical (silentError s k digest cmp kd) :=
  hs.postFault.fenceCore

theorem Canonical.engineFault {ks past} (hs : Canonical s) : Canonical (engineFault s ks past) :=
  ((hs.foldl fun _ _ h1 => h1.postFault).foldl fun _ _ h1 => h1.postFault).fenceCore

theorem Canonical.releaseCore (hs : Canonical s) : Canonical (releaseCore s) := ⟨hs.mem, rfl⟩

/-! ### Machine/Freeze.lean -/

theorem Canonical.debugStop {k reason image} (hs : Canonical s) : CanonicalOpt (debugStop s k reason image) := by
  unfold Machine.debugStop
  extract_lets x edge f
  split
  · trivial
  · extract_lets s1 _
    have h1 : Canonical s1 := hs.writeSpan
    clear_value s1
    exact Canonical.debugNotice (Canonical.traceThread ⟨h1.mem, h1.spad⟩)

theorem Canonical.reloadImage {k image} (hs : Canonical s) : Canonical (reloadImage s k image) := by
  unfold Machine.reloadImage
  dsimp only
  split
  · exact hs
  · exact hs.setSlot

theorem Canonical.unstop {k} (hs : Canonical s) : Canonical (unstop s k) := by
  unfold Machine.unstop
  dsimp only
  split
  · exact hs
  · exact ⟨hs.mem, hs.spad⟩

theorem Canonical.thawCore (hs : Canonical s) : Canonical (thawCore s).1 := by
  unfold Machine.thawCore
  split
  · exact hs
  · split
    · exact hs
    · exact ⟨hs.mem, hs.spad⟩

/-! ### Machine/Control.lean -/

theorem Canonical.execFlip {sb p} (hs : Canonical s) : CanonicalOut (execFlip sb p s) :=
  hs.word fun _ _ h1 => h1.withFlip fun _ h2 => h2

theorem Canonical.execRdh {sb p d a b} (hs : Canonical s) : CanonicalOut (execRdh sb p d a b s) :=
  hs.word fun _ _ h1 => h1.writeOne

theorem Canonical.branchWord {sb p imm form} (hs : Canonical s) : CanonicalOut (branchWord sb p imm form s) :=
  hs.issue fun _ _ h1 => h1

theorem Canonical.execBr {sb p imm} (hs : Canonical s) : CanonicalOut (execBr sb p imm s) := hs.branchWord

theorem Canonical.execBrn {sb p imm} (hs : Canonical s) : CanonicalOut (execBrn sb p imm s) := hs.branchWord

theorem Canonical.execBrt {sb p imm} (hs : Canonical s) : CanonicalOut (execBrt sb p imm s) := hs.branchWord

theorem Canonical.execCall {sb p imm} (hs : Canonical s) : CanonicalOut (execCall sb p imm s) := by
  unfold Machine.execCall
  refine hs.issue fun _ _ ht28 => ?_
  split
  · exact ht28.withWrites fun _ h1 => h1
  · exact ht28

theorem Canonical.execJr {sb p a imm} (hs : Canonical s) : CanonicalOut (execJr sb p a imm s) := hs.word fun _ _ h1 => h1

theorem Canonical.execJtb {sb p d a l} (hs : Canonical s) : CanonicalOut (execJtb sb p d a l s) := by
  unfold Machine.execJtb
  dsimp only
  refine hs.word fun _ _ ht28 => ?_
  split
  · exact ht28
  · split
    · exact ht28
    · exact ht28.machineCheck
    · exact ht28.fetchFill

theorem Canonical.execLoop {sb p a imm} (hs : Canonical s) : CanonicalOut (execLoop sb p a imm s) := by
  unfold Machine.execLoop
  dsimp only
  refine hs.issue fun _ _ ht28 => ?_
  split
  · exact ht28.setArchAt.snapshotBanks
  · split
    · exact ht28
    · exact ht28.setArchAt.snapshotBanks

theorem Canonical.execSpost {sb p v k} (hs : Canonical s) : CanonicalOut (execSpost sb p v k s) := by
  unfold Machine.execSpost
  refine hs.word fun _ _ ht28 => ?_
  split
  · exact ht28
  · exact ht28.changeAt

theorem Canonical.execSwait {sb p k} (hs : Canonical s) : CanonicalOut (execSwait sb p k s) := by
  unfold Machine.execSwait
  dsimp only
  refine hs.word fun _ _ ht28 => ?_
  split
  · split
    · exact ht28.linkAt.changeAt
    · split <;> exact ht28
  · split <;> exact ht28

theorem Canonical.execBqput {sb p v k} (hs : Canonical s) : CanonicalOut (execBqput sb p v k s) := by
  unfold Machine.execBqput
  dsimp only
  refine hs.word fun _ _ ht28 => ?_
  split
  · exact ht28
  · split
    · exact ht28
    · exact ht28.changeAt

theorem Canonical.bqBranch {sb imm form} (hs : Canonical s) : CanonicalOut (bqBranch sb imm form s) := by
  unfold Machine.bqBranch
  refine hs.issue fun _ _ ht28 => ?_
  split
  · split <;> exact ht28
  · split
    · exact ht28
    · exact ht28.linkAt.changeAt

theorem Canonical.execBqbr {sb imm} (hs : Canonical s) : CanonicalOut (execBqbr sb imm s) := hs.bqBranch

theorem Canonical.execBqbrn {sb imm} (hs : Canonical s) : CanonicalOut (execBqbrn sb imm s) := hs.bqBranch

theorem Canonical.execBqbrt {sb imm} (hs : Canonical s) : CanonicalOut (execBqbrt sb imm s) := hs.bqBranch

theorem Canonical.execNop {sb p} (hs : Canonical s) : CanonicalOut (execNop sb p s) := hs.word fun _ _ h1 => h1

theorem Canonical.markExited {k v} (hs : Canonical s) : Canonical (markExited s k v) := hs.setArch

theorem Canonical.exitHeld {k} (hs : Canonical s) : Canonical (exitHeld s k) := .ite hs.markExited.markExited.markExited hs

theorem Canonical.noteEnded {k} (hs : Canonical s) : Canonical (noteEnded s k) := .ite hs.setSlot hs

theorem Canonical.execExit {sb p} (hs : Canonical s) : CanonicalOut (execExit sb p s) := by
  unfold Machine.execExit
  dsimp only
  refine hs.word fun _ _ ht28 => ?_
  split
  · exact ht28
  · exact ht28.setArchAt.exitHeld.noteEnded

theorem Canonical.execTrap {sb p c} (hs : Canonical s) : CanonicalOut (execTrap sb p c s) := by
  unfold Machine.execTrap
  dsimp only
  refine hs.word fun _ _ ht28 => ?_
  split
  · exact ht28
  · exact ht28.setSlot

theorem Canonical.execBrk {sb x} (hs : Canonical s) : CanonicalOut (execBrk sb x s) := by
  unfold Machine.execBrk
  dsimp only
  refine hs.issue fun _ _ ht28 => ?_
  split
  · exact ht28
  · split
    · next e6 => exact ht28.debugStop.of_some e6
    · exact ht28.setCtx

theorem Canonical.eretReload {h} (hs : Canonical s) : CanonicalRes (eretReload h s) := by
  unfold Machine.eretReload
  dsimp only
  split
  · exact hs
  · split
    · exact hs.machineCheck
    · exact hs.reloadRecord.takeHeld

theorem Canonical.execEret {sb p} (hs : Canonical s) : CanonicalOut (execEret sb p s) := by
  unfold Machine.execEret
  dsimp only
  refine hs.issue fun _ _ ht28 => ?_
  split
  · split
    · exact ht28
    · exact ht28.setArchAt
  · split
    · exact ht28.eretReload
    · exact ht28

theorem Canonical.execSrd {sb p d n} (hs : Canonical s) : CanonicalOut (execSrd sb p d n s) :=
  hs.word fun _ _ h1 => h1.withWrites fun _ h2 => h2.depAt

theorem Canonical.execSwr {sb p d n} (hs : Canonical s) : CanonicalOut (execSwr sb p d n s) := by
  unfold Machine.execSwr
  dsimp only
  refine hs.word fun _ _ ht28 => ?_
  split
  · exact ht28.writeOne
  · split
    · exact ht28.setArchAt
    · split
      · exact ht28.changeAt
      · exact ht28

theorem Canonical.execSealw {sb p} (hs : Canonical s) : CanonicalOut (execSealw sb p s) := by
  unfold Machine.execSealw
  refine hs.word fun _ _ ht28 => ?_
  split
  · exact ht28.withFlip fun _ h1 => h1.startWait
  · split
    · exact ht28
    · exact ht28.endWait

/-! ### Machine/Images.lean -/

theorem memWf_putByte {m : Memory} (hm : memWf m = true) (spans : List (Nat × Nat)) (off : Nat) (b : Byte) :
    memWf (putByte spans off m b) = true := by
  unfold putByte
  split
  · exact memWf_sset hm _ _
  · exact hm

theorem memWf_putPiece {m : Memory} (hm : memWf m = true) (spans : List (Nat × Nat)) (p : Piece) :
    memWf (putPiece spans m p) = true := memWf_foldl hm fun _ _ hm => memWf_putByte hm spans _ _

theorem Canonical.putRegion {spans off len ps} (hs : Canonical s) : Canonical (putRegion s spans off len ps) :=
  ⟨memWf_foldl (memWf_foldl hs.mem fun _ _ hm => memWf_mclear hm _ _) fun _ p hm => memWf_putPiece hm _ p, hs.spad⟩

theorem Canonical.writeClusterImage {spans n m} (hs : Canonical s) : Canonical (writeClusterImage s spans n m) :=
  Canonical.setCtx (Canonical.of_eq hs.putRegion rfl rfl)

/-! ### Machine/Operands.lean -/

theorem Canonical.popQueue {h q} (hs : Canonical s) : Canonical (popQueue h s q) := by
  unfold Machine.popQueue
  split
  · exact hs
  · exact hs.linkAt.changeAt

theorem Canonical.reserveEntry {k cl q} (hs : Canonical s) : Canonical (reserveEntry s k cl q) := hs.bumpId.change

theorem Canonical.pushQueue {h q val lat} (hs : Canonical s) : Canonical (pushQueue h q val lat s) := hs.reserveEntry.setSlot

theorem Canonical.withPops {h qs go} (hs : Canonical s) (hgo : ∀ xs, CanonicalRes (go xs)) : CanonicalRes (withPops h qs s go) :=
  by
  unfold Machine.withPops
  split
  · exact hs
  · exact hs
  · split
    · exact hs.machineCheck
    · exact hgo _

/-! ### Machine/Gang.lean -/

theorem Canonical.setResult {id x} (hs : Canonical s) : Canonical (setResult s id x) := ⟨hs.mem, hs.spad⟩

theorem Canonical.sendMarkers {typ vcs j} (hs : Canonical s) : Canonical (sendMarkers s typ vcs j) :=
  hs.foldl fun _ _ h1 => h1.foldl fun _ _ h2 => h2.sendOn

theorem Canonical.closeInstance {jk lost i} (hs : Canonical s) : Canonical (closeInstance jk lost s i) := by
  unfold Machine.closeInstance
  split
  · exact hs.failInstance
  · split
    · exact hs.tryComplete
    · exact hs

theorem Canonical.tellLost {jk j} (hs : Canonical s) : Canonical (tellLost s jk j) := by
  unfold Machine.tellLost
  dsimp only
  refine Canonical.foldl ?_ ?_
  · split
    · exact (hs.setJob.foldl fun _ _ h1 => h1.closeInstance).postFault
    · exact hs.setJob.foldl fun _ _ h1 => h1.closeInstance
  · intro x1 x2 ht28
    exact ht28.sendOn

theorem Canonical.advanceWave {jk} (hs : Canonical s) : Canonical (advanceWave s jk) := by
  unfold Machine.advanceWave
  split
  · exact hs
  · next j _ =>
    extract_lets j1 s1 s2
    have h1 : Canonical s1 := .ite hs.setJob hs.putSaved
    have h2 : Canonical s2 := .ite h1.tellLost h1
    split
    · split
      · split
        · exact h2.setResult
        · exact h2
      · exact h1.sendOn
    · exact hs

theorem Canonical.cutJob {jk j parent request} (hs : Canonical s) : Canonical (cutJob s jk j parent request) :=
  Canonical.advanceWave (Canonical.sendMarkers (Canonical.putSaved ⟨hs.mem, hs.spad⟩))

theorem Canonical.deliverAll {ps} (hs : Canonical s) : Canonical (deliverAll s ps) := by
  induction ps generalizing s with
  | nil => exact hs
  | cons p r ih => exact ih hs.deliver

theorem Canonical.restartTimers {jk} (hs : Canonical s) : Canonical (restartTimers s jk) := ⟨hs.mem, hs.spad⟩

theorem Canonical.resumeJob {jk j parent request} (hs : Canonical s) : Canonical (resumeJob s jk j parent request) := by
  unfold Machine.resumeJob
  extract_lets hub j1 s0 s1
  have h0 : Canonical s0 := hs.putSaved.sendMarkers.restartTimers
  have h1 : Canonical s1 := .ite h0 (h0.foldl fun _ _ h => h.closeInstance)
  exact h1.deliverAll.advanceWave

theorem Canonical.gswRequest {id job inward} (hs : Canonical s) : Canonical (gswRequest s id job inward) := by
  unfold Machine.gswRequest
  split
  · exact hs.setResult
  · exact Canonical.ite hs.setResult (Canonical.ite hs.setResult (Canonical.ite hs.resumeJob hs.cutJob))

theorem Canonical.takeReport {jk j p} (hs : Canonical s) : Canonical (takeReport s jk j p) :=
  .ite hs.tellLost hs.setJob.advanceWave

theorem Canonical.receivePacket {p} (hs : Canonical s) : Canonical (receivePacket s p) := by
  unfold Machine.receivePacket
  dsimp only
  split
  · exact ⟨hs.mem, hs.spad⟩
  · split
    · exact hs.deliver
    · exact Canonical.ite hs.putSaved hs.deliver

theorem Canonical.arrivePacket {bad p} (hs : Canonical s) : Canonical (arrivePacket s bad p) :=
  .ite ⟨hs.mem, hs.spad⟩ hs.receivePacket

/-! ### Machine/Release.lean -/

theorem Canonical.dropItem {id} (hs : Canonical s) : Canonical (dropItem s id) := ⟨hs.mem, hs.spad⟩

theorem Canonical.performItem {o} (hs : Canonical s) : Canonical (performItem s o) := by
  unfold Machine.performItem
  split
  · exact hs.writeMem.dropItem
  · exact hs

theorem Canonical.invalidate {slot start len asid all id} (hs : Canonical s) : Canonical (invalidate s slot start len asid all id) :=
  ⟨hs.mem, hs.spad⟩

theorem Canonical.writeSpad {a d} (hs : Canonical s) : Canonical (writeSpad s a d) := ⟨hs.mem, memWf_writeBytes hs.spad a d⟩

theorem Canonical.trimHeld {id a n} (hs : Canonical s) : Canonical (trimHeld s id a n) := ⟨hs.mem, hs.spad⟩

theorem Canonical.lateTail {k r n} (hs : Canonical s) : Canonical (lateTail s k r n) := by
  unfold Machine.lateTail
  dsimp only
  split
  · exact ⟨hs.mem, hs.spad⟩
  · exact hs

theorem Canonical.release {h} (hs : Canonical s) : Canonical (release s h) := ⟨hs.mem, hs.spad⟩

theorem Canonical.flagOp {c target f} (hs : Canonical s) : Canonical (flagOp s c target f) := by
  unfold Machine.flagOp
  dsimp only
  split
  · exact hs
  · split
    · exact hs.setCluster
    · split
      · exact hs
      · exact hs.writeMem

theorem Canonical.writeOverflow {ctx d p} (hs : Canonical s) : Canonical (writeOverflow s ctx d p) :=
  .ite hs (hs.writeVirt.getD hs)

theorem Canonical.enqItem {c p st x} (hs : Canonical s) : Canonical (enqItem s c p st x) := by
  unfold Machine.enqItem
  dsimp only
  split
  · exact Canonical.ite hs.setCluster hs.setCluster.writeOverflow
  · exact hs.setCluster

theorem Canonical.clusterEffect {c m tag x5} (hs : Canonical s) : Canonical (clusterEffect s c m tag x5) := by
  unfold Machine.clusterEffect
  split
  · exact hs.setCluster
  · exact hs.setCluster
  · exact hs.setCluster
  · exact hs.flagOp
  · exact hs.flagOp
  · exact hs.eventChange
  · exact hs.eventChange
  · exact hs.enqItem
  · exact hs.setCluster
  · exact hs

theorem Canonical.beginBarw {k clause bar} (hs : Canonical s) : Canonical (beginBarw s k clause bar) := by
  unfold Machine.beginBarw
  dsimp only
  split
  · exact Canonical.ite hs.setCluster hs
  · exact hs

theorem Canonical.useReserve {k} (hs : Canonical s) : Canonical (useReserve s k) := hs.setSlot

theorem Canonical.performCluster {o} (hs : Canonical s) : Canonical (performCluster s o) := by
  unfold Machine.performCluster
  dsimp only
  split
  · exact hs
  · refine Canonical.clusterEffect ?_
    split
    · exact Canonical.ite hs.beginBarw hs
    · exact Canonical.ite hs.useReserve hs
    · exact hs

theorem Canonical.releaseCluster {h} (hs : Canonical s) : Canonical (releaseCluster s h) := .ite hs.release hs.performCluster

theorem Canonical.signalHost {k x scyc} (hs : Canonical s) : Canonical (signalHost s k x scyc) := hs.setCtx.postCompletion

theorem Canonical.sendNwr {k id fa data width} (hs : Canonical s) : Canonical (sendNwr s k id fa data width) := by
  unfold Machine.sendNwr
  extract_lets t _ s1
  have h1 : Canonical s1 := ⟨hs.mem, hs.spad⟩
  split
  · exact h1
  · exact h1.inject.of_eq rfl rfl

theorem Canonical.releaseOne {h} (hs : Canonical s) : Canonical (releaseOne s h) := by
  unfold Machine.releaseOne
  split
  · exact hs.writeSpad.trimHeld
  · exact hs.release
  · exact hs.setSlot
  · exact Canonical.ite hs.change hs.lateTail
  · exact hs.release
  · exact hs.release
  · exact hs.takeNumber.release
  · exact hs.release
  · exact hs.release
  · exact hs.release
  · exact hs.signalHost
  · exact hs.sendNwr
  · exact hs
  · exact hs.contribute
  · exact hs
  · exact hs.releaseCluster
  · exact hs.releaseCluster
  · exact hs.releaseCluster
  · exact hs.releaseCluster
  · exact hs.releaseCluster
  · exact hs.releaseCluster
  · exact hs.releaseCluster
  · exact hs.releaseCluster
  · exact hs.releaseCluster

theorem Canonical.useAway {m} (hs : Canonical s) : Canonical (useAway s m) := hs.setCluster

theorem Canonical.extEffect {ctx m tag e} (hs : Canonical s) : Canonical (extEffect ctx m tag e s) := by
  unfold Machine.extEffect
  dsimp only
  split
  · exact hs.setCluster
  · exact hs.useAway.clusterEffect
  · exact Canonical.ite hs.writeMem hs
  · exact hs.setCtx
  · exact hs.invalidate
  · exact hs.contribute
  · exact hs.contribute
  · exact hs.gswRequest
  · exact hs.clusterEffect

theorem Canonical.runAuto {o} (hs : Canonical s) : Canonical (runAuto s o) := by
  unfold Machine.runAuto
  split
  · exact hs.invalidate.dropItem
  · exact hs.sendContribution.dropItem
  · exact hs.dropItem.gswRequest
  · exact hs.dropItem.performCluster

theorem Canonical.settleOut {n} (hs : Canonical s) : Canonical (settleOut s n) := by
  induction n generalizing s with
  | zero => exact hs
  | succ n ih =>
    rw [Machine.settleOut]
    split
    · exact hs
    · exact ih hs.runAuto

theorem Canonical.settle (hs : Canonical s) : Canonical (settle s) := hs.settleOut

theorem Canonical.sealImage {c} (hs : Canonical s) : Canonical (sealImage s c) := by
  unfold Machine.sealImage
  dsimp only
  split
  · exact hs
  · exact hs.setVoice

theorem Canonical.sealClauses {ids} (hs : Canonical s) : Canonical (sealClauses s ids) := by
  unfold Machine.sealClauses
  extract_lets cs s1 hs' _ s2 s3 cmds _ s4
  have h1 : Canonical s1 := hs.foldl fun _ _ h => h.sealImage
  have h2 : Canonical s2 := ⟨h1.mem, h1.spad⟩
  have h3 : Canonical s3 := h2.foldl fun _ _ h => h.releaseOne
  clear_value s3
  have h4 : Canonical s4 := ⟨h3.mem, h3.spad⟩
  exact h4.pruneSlot.pruneSlot.settle

theorem Canonical.execClauseSeal {slot id} (hs : Canonical s) : CanonicalOut (execClauseSeal slot id s) := by
  unfold Machine.execClauseSeal
  dsimp only
  split
  · split
    · exact hs.machineCheck
    · exact hs.sealClauses
  · exact hs

theorem Canonical.scrub {region} (hs : Canonical s) : Canonical (scrub s region) := by
  unfold Machine.scrub
  dsimp only
  split
  · exact Canonical.ite hs ⟨hs.mem, hs.spad⟩
  · exact ⟨hs.mem, hs.spad⟩
  · exact ⟨hs.mem, hs.spad⟩
  · exact Canonical.ite ⟨hs.mem, hs.spad⟩ hs

theorem Canonical.applyReport {region} (hs : Canonical s) : Canonical (applyReport s region) :=
  .ite hs.rollback (.ite (.ite hs.engineFault hs.rollback) hs.scrub)

theorem Canonical.execStrikeReport {region} (hs : Canonical s) : CanonicalOut (execStrikeReport region s) := by
  unfold Machine.execStrikeReport
  dsimp only
  split
  · exact hs.scrub
  · split
    · exact hs
    · split
      · exact ⟨hs.mem, hs.spad⟩
      · exact hs.applyReport

theorem Canonical.execRollbackRestart (hs : Canonical s) : CanonicalOut (execRollbackRestart s) := by
  unfold Machine.execRollbackRestart
  dsimp only
  split
  · split
    · exact ⟨hs.mem, hs.spad⟩
    · exact hs
  · exact hs

/-! ### Machine/Events.lean -/

theorem Canonical.execPendingResultLand {slot v idx} (hs : Canonical s) : CanonicalOut (execPendingResultLand slot v idx s) := by
  unfold Machine.execPendingResultLand
  split
  · exact hs.setArch
  · exact hs

theorem Canonical.placeHeld {k x} (hs : Canonical s) : Canonical (placeHeld s k x) := by
  unfold Machine.placeHeld
  dsimp only
  split
  · exact hs
  · exact ⟨hs.mem, hs.spad⟩

theorem Canonical.performRead {s0 k x} (hs0 : Canonical s0) : Canonical (performRead s0 k x) := hs0.placeHeld.setSlot

theorem Canonical.execQueueEntryFill {slot q idx} (hs : Canonical s) : CanonicalOut (execQueueEntryFill slot q idx s) := by
  unfold Machine.execQueueEntryFill
  dsimp only
  split
  · exact hs
  · split
    · split
      · exact hs.setSlot
      · exact hs
    · split
      · split
        · exact hs.setSlot.pmCount
        · split
          · exact hs
          · exact hs.performRead
      · exact hs

theorem Canonical.execLandingArrival {slot v lb} (hs : Canonical s) : CanonicalOut (execLandingArrival slot v lb s) := by
  unfold Machine.execLandingArrival
  dsimp only
  split
  · exact hs
  · split
    · exact hs.setSlot.pmCount
    · split
      · exact hs
      · exact hs.performRead

theorem Canonical.execSlotYield (hs : Canonical s) : CanonicalOut (execSlotYield s) := by
  unfold Machine.execSlotYield
  dsimp only
  split
  · exact Canonical.pmCount ⟨hs.mem, hs.spad⟩
  · exact hs

theorem Canonical.execBarrierWaitEnd {slot} (hs : Canonical s) : CanonicalOut (execBarrierWaitEnd slot s) := hs.setCluster

theorem Canonical.execTrapEntry {slot} (hs : Canonical s) : CanonicalOut (execTrapEntry slot s) := by
  unfold Machine.execTrapEntry
  dsimp only
  split
  · exact hs
  · split
    · exact hs.trapEntry
    · exact hs

theorem Canonical.execSignal {slot} (hs : Canonical s) : CanonicalOut (execSignal slot s) := by
  unfold Machine.execSignal
  dsimp only
  split
  · exact hs
  · split
    · exact hs.setSlot
    · exact hs.setSlot.takeSignal

theorem Canonical.preemptSlot {k} (hs : Canonical s) : Canonical (preemptSlot s k) := by
  unfold Machine.preemptSlot
  dsimp only
  split
  · exact Canonical.ite hs hs.setSlot
  · split
    · exact hs.stopThread.setSlot
    · exact hs.stopThread.setSlot
    · exact hs.setSlot
    · exact hs

theorem Canonical.execPreempt (hs : Canonical s) : CanonicalOut (execPreempt s) := by
  unfold Machine.execPreempt
  extract_lets s1
  have h1 : Canonical s1 := .ite hs.preemptSlot hs
  split
  · exact Canonical.ite h1.preemptSlot h1
  · exact hs.preemptSlot.preemptSlot

theorem Canonical.writeCoreImage {area} (hs : Canonical s) : Canonical (writeCoreImage s area) := .ite hs.putRegion hs

theorem Canonical.saveSlot {img k} (hs : Canonical s) : Canonical (saveSlot img s k) := .ite hs.checkpointSlot hs

theorem Canonical.saveCore {area} (hs : Canonical s) : Canonical (saveCore s area) :=
  hs.writeCoreImage.saveSlot.saveSlot.setCluster

theorem Canonical.execCoreImageSave (hs : Canonical s) : CanonicalOut (execCoreImageSave s) := by
  unfold Machine.execCoreImageSave
  split
  · exact hs.saveCore
  · exact hs

theorem Canonical.endTask {k} (hs : Canonical s) : Canonical (endTask s k) :=
  Canonical.endThread (Canonical.ite hs hs.eventChange)

theorem Canonical.endDead {k st} (hs : Canonical s) : Canonical (endDead s k st) :=
  .ite hs.breakMissed.postFault.setCluster.leaveSlot.purge hs.breakMissed.postFault.setCluster.leaveSlot

theorem Canonical.execThreadEnd {slot} (hs : Canonical s) : CanonicalOut (execThreadEnd slot s) := by
  unfold Machine.execThreadEnd
  dsimp only
  split
  · split
    · exact hs
    · split
      · exact hs.endTask
      · exact hs.setCluster
  · split
    · split
      · split
        · exact hs.endDead
        · exact hs
      · split
        · exact hs.clearSlot
        · exact hs
    · exact hs

/-! ### Machine/Access.lean -/

theorem Canonical.spadCheckHalt {h a} (hs : Canonical s) : CanonicalRes (spadCheckHalt h a s) := hs.machineCheck

theorem Canonical.withSpadLoad {h ea n go} (hs : Canonical s) (hgo : ∀ bs t, Canonical t → CanonicalRes (go bs t)) :
    CanonicalRes (withSpadLoad h ea n s go) := by
  unfold Machine.withSpadLoad
  split
  · exact hs
  · split
    · exact hs
    · split
      · exact hs.spadCheckHalt
      · exact hgo _ _ hs.addDeps

theorem Canonical.withSpadStore {h ea n go} (hs : Canonical s) (hgo : ∀ a, CanonicalRes (go a)) :
    CanonicalRes (withSpadStore h ea n s go) := by
  unfold Machine.withSpadStore
  split
  · exact hs
  · split
    · exact hgo _
    · exact hs

theorem Canonical.holdSpad {h a bs} (hs : Canonical s) : Canonical (holdSpad h a bs s) := hs.hold

theorem Canonical.execLds {sb p d b z o imm} (hs : Canonical s) : CanonicalOut (execLds sb p d b z o imm s) :=
  hs.word fun _ _ h1 => h1.withSpadLoad fun _ _ h2 => h2.withWrites fun _ h3 => h3

theorem Canonical.execSts {sb p d b z o imm} (hs : Canonical s) : CanonicalOut (execSts sb p d b z o imm s) :=
  hs.word fun _ _ h1 => h1.withSpadStore fun _ => h1.withWrites fun _ h2 => h2.holdSpad

theorem Canonical.execLdq {sb p q b o imm} (hs : Canonical s) : CanonicalOut (execLdq sb p q b o imm s) := by
  unfold Machine.execLdq
  dsimp only
  refine hs.word fun _ _ ht28 => ?_
  split
  · exact ht28
  · split
    · exact ht28
    · split
      · exact ht28
      · exact ht28.withWrites fun _ h1 => h1
      · exact ht28
      · exact ht28.withSpadLoad fun _ _ h1 => h1.withWrites fun _ h2 => h2.pushQueue

theorem Canonical.execStq {sb p q b o imm} (hs : Canonical s) : CanonicalOut (execStq sb p q b o imm s) := by
  unfold Machine.execStq
  dsimp only
  refine hs.word fun _ _ ht28 => ?_
  split
  · exact ht28
  · split
    · exact ht28
    · exact ht28.withPops fun _ => ht28.withSpadStore fun _ => ht28.withWrites fun _ h1 => h1.popQueue.holdSpad

theorem Canonical.execQpush {sb p k a} (hs : Canonical s) : CanonicalOut (execQpush sb p k a s) := by
  unfold Machine.execQpush
  refine hs.word fun _ _ ht28 => ?_
  split
  · exact ht28
  · split
    · exact ht28
    · exact ht28
    · exact ht28
    · exact ht28.pushQueue

theorem Canonical.execQpushSq {sb p k j} (hs : Canonical s) : CanonicalOut (execQpushSq sb p k j s) := by
  unfold Machine.execQpushSq
  dsimp only
  refine hs.word fun x1 _ ht28 => ?_
  split
  · exact ht28
  · refine Canonical.withPops ht28 ?_
    intro x1
    split
    · exact ht28
    · exact ht28
    · exact ht28.popQueue
    · exact ht28.popQueue.pushQueue

theorem Canonical.bindStream {h k x} (hs : Canonical s) : Canonical (bindStream s h k x) := ⟨hs.mem, hs.spad⟩

theorem Canonical.execSbind {sb p k a q} (hs : Canonical s) : CanonicalOut (execSbind sb p k a q s) := by
  unfold Machine.execSbind
  dsimp only
  refine hs.word fun x1 x2 ht28 => ?_
  split
  · exact ht28
  · split
    · exact ht28
    · refine Canonical.withSpadLoad ht28 ?_
      intro x1 x2 ht24
      split
      · exact ht28
      · split
        · exact ht28
        · split
          · exact ht28
          · exact ht24.bindStream

theorem Canonical.execSunbind {sb p k} (hs : Canonical s) : CanonicalOut (execSunbind sb p k s) := by
  unfold Machine.execSunbind
  refine hs.word fun _ _ ht28 => ?_
  split
  · exact Canonical.ite ht28.changeAt ht28
  · exact ht28

theorem Canonical.execSpos {sb p d k} (hs : Canonical s) : CanonicalOut (execSpos sb p d k s) := hs.word fun _ _ h1 => h1.writeOne

theorem Canonical.execLbqry {sb p d k} (hs : Canonical s) : CanonicalOut (execLbqry sb p d k s) :=
  hs.word fun _ _ h1 => h1.writeOne

theorem Canonical.execCommit {sb p d k} (hs : Canonical s) : CanonicalOut (execCommit sb p d k s) := by
  unfold Machine.execCommit
  dsimp only
  refine hs.issue fun _ _ ht28 => ?_
  split
  · exact ht28.writeOne
  · split
    · exact ht28
    · split
      · exact ht28.machineCheck
      · exact ht28.depAt.changeAt
      · exact ht28.withWrites fun _ h1 => h1.depAt.changeAt

theorem Canonical.serveFill {k i x} (hs : Canonical s) : Canonical (serveFill s k i x) :=
  .ite hs.change hs.reserveEntry.change.setSlot

theorem Canonical.drainOne {k cl esz e} (hs : Canonical s) : Canonical (drainOne k cl esz s e) := .ite hs.hold hs.writeSpad

theorem Canonical.serveDrain {k i x e v} (hs : Canonical s) : Canonical (serveDrain s k i x e v) :=
  (hs.dependOn.foldl fun _ _ h1 => h1.drainOne).changes

theorem Canonical.execStreamService {slot st} (hs : Canonical s) : CanonicalOut (execStreamService slot st s) := by
  unfold Machine.execStreamService
  dsimp only
  split
  · split
    · exact hs
    · split
      · split
        · split
          · exact Canonical.machineCheck ⟨hs.mem, hs.spad⟩
          · exact Canonical.serveDrain ⟨hs.mem, hs.spad⟩
        · exact hs
      · split
        · exact Canonical.machineCheck ⟨hs.mem, hs.spad⟩
        · exact Canonical.serveFill ⟨hs.mem, hs.spad⟩
  · exact hs

/-! ### Machine/ClusterWords.lean -/

theorem Canonical.clWord {sb p body} (hs : Canonical s) (hbody : ∀ h t, Canonical t → CanonicalRes (body h t)) :
    CanonicalOut (clWord sb p body s) := hs.word hbody

theorem Canonical.withResult {h d x f} (hs : Canonical s) (hf : ∀ t, Canonical t → Canonical (f t)) :
    CanonicalRes (withResult h d x s f) := hs.withWrites fun t ht => hf t ht

theorem Canonical.holdAt {h e} (hs : Canonical s) : Canonical (holdAt h e s) := hs.hold

theorem Canonical.execJoin {sb p d a} (hs : Canonical s) : CanonicalOut (execJoin sb p d a s) := by
  unfold Machine.execJoin
  dsimp only
  refine Canonical.clWord hs ?_
  intro x1 x2 ht28
  split
  · exact ht28.withResult fun _ h1 => h1
  · split
    · exact ht28.withResult fun _ h1 => h1
    · exact ht28.withResult fun _ h1 => h1.holdAt

theorem Canonical.execLeave {sb p d a} (hs : Canonical s) : CanonicalOut (execLeave sb p d a s) := by
  unfold Machine.execLeave
  dsimp only
  refine Canonical.clWord hs ?_
  intro x1 x2 ht28
  split
  · exact ht28.withResult fun _ h1 => h1
  · split
    · exact ht28.withResult fun _ h1 => h1.holdAt
    · exact ht28.withResult fun _ h1 => h1

theorem Canonical.execGrpq {sb p d a} (hs : Canonical s) : CanonicalOut (execGrpq sb p d a s) := by
  unfold Machine.execGrpq
  dsimp only
  refine Canonical.clWord hs ?_
  intro x1 x2 ht28
  split <;> exact ht28.withResult fun _ h1 => h1

theorem Canonical.execBarr {sb p d a b} (hs : Canonical s) : CanonicalOut (execBarr sb p d a b s) := by
  unfold Machine.execBarr
  refine Canonical.clWord hs ?_
  intro x1 x2 ht28
  split
  · exact ht28.withResult fun _ h1 => h1
  · exact ht28
  · exact ht28.withResult fun _ h1 => h1.holdAt

theorem Canonical.addWait {slot k phase} (hs : Canonical s) : Canonical (addWait s slot k phase) := hs.setCluster

theorem Canonical.keepWait {slot k phase} (hs : Canonical s) : Canonical (keepWait s slot k phase) := .ite hs hs.addWait

theorem Canonical.execBwait {sb p d a b} (hs : Canonical s) : CanonicalOut (execBwait sb p d a b s) := by
  unfold Machine.execBwait
  dsimp only
  refine Canonical.clWord hs ?_
  intro x1 x2 ht28
  split
  · exact ht28.withResult fun _ h1 => h1
  · split
    · exact ht28.keepWait
    · exact ht28.withResult fun _ h1 => h1

theorem Canonical.closeBehind {h} (hs : Canonical s) : Canonical (closeBehind h s) := hs.setArchAt.snapshotBanks.closeClause

theorem Canonical.flipResult {h ws} (hs : Canonical s) : CanonicalRes (flipResult h ws s) :=
  hs.closeBehind.withWrites fun _ h1 => h1

theorem Canonical.arriveLate {h w g k phase x} (hs : Canonical s) : Canonical (arriveLate s h w g k phase x) :=
  .ite hs.setArchAt.updClause.hold hs.setArchAt.setVoice.releaseOne.bumpId

theorem Canonical.execBarw {sb p d a b} (hs : Canonical s) : CanonicalOut (execBarw sb p d a b s) := by
  unfold Machine.execBarw
  dsimp only
  refine Canonical.clWord hs ?_
  intro x1 x2 ht28
  split
  · refine Canonical.withFlip ht28 ?_
    intro x1 ht25
    split
    · exact ht25.flipResult
    · exact ht25.startWait
    · exact ht25.holdAt.startWait
  · split
    · split
      · exact ht28.endWait
      · exact ht28
      · exact ht28.arriveLate
    · split
      · exact ht28
      · split
        · exact ht28.keepWait
        · exact ht28.endWait

theorem Canonical.flagWord {sb p d a b e} (hs : Canonical s) : CanonicalOut (flagWord sb p d a b e s) := by
  unfold Machine.flagWord
  dsimp only
  refine Canonical.clWord hs ?_
  intro x1 x2 ht28
  split
  · exact ht28.withResult fun _ h1 => h1.holdAt
  · exact ht28.withResult fun _ h1 => h1

theorem Canonical.execFinc {sb p d a b} (hs : Canonical s) : CanonicalOut (execFinc sb p d a b s) := hs.flagWord

theorem Canonical.execFset {sb p d a b} (hs : Canonical s) : CanonicalOut (execFset sb p d a b s) := hs.flagWord

theorem Canonical.execFwait {sb p d a b} (hs : Canonical s) : CanonicalOut (execFwait sb p d a b s) := by
  unfold Machine.execFwait
  dsimp only
  refine Canonical.clWord hs ?_
  intro x1 x2 ht28
  split
  · exact ht28.withResult fun _ h1 => h1
  · split
    · exact ht28.withResult fun _ h1 => h1
    · exact ht28

theorem Canonical.execFrd {sb p d a} (hs : Canonical s) : CanonicalOut (execFrd sb p d a s) := by
  unfold Machine.execFrd
  dsimp only
  refine Canonical.clWord hs ?_
  intro x1 x2 ht28
  split <;> exact ht28.withResult fun _ h1 => h1

theorem Canonical.launchWord {sb p d a waits} (hs : Canonical s) : CanonicalOut (launchWord sb p d a waits s) := by
  unfold Machine.launchWord
  dsimp only
  refine Canonical.clWord hs ?_
  intro x1 x2 ht28
  split
  · exact ht28
  · split
    · exact ht28
    · refine Canonical.withSpadLoad ht28 ?_
      intro x1 x2 ht24
      split
      · exact ht28
      · split
        · exact ht24.withResult fun _ h1 => h1
        · split
          · exact ht24.withResult fun _ h1 => h1.holdAt
          · split
            · exact ht24.withResult fun _ h1 => h1.holdAt
            · split
              · exact ht28
              · exact ht24.withResult fun _ h1 => h1

theorem Canonical.execLaunch {sb p d a} (hs : Canonical s) : CanonicalOut (execLaunch sb p d a s) := hs.launchWord

theorem Canonical.execLaunchn {sb p d a} (hs : Canonical s) : CanonicalOut (execLaunchn sb p d a s) := hs.launchWord

theorem Canonical.execEvset {sb p a b} (hs : Canonical s) : CanonicalOut (execEvset sb p a b s) :=
  hs.clWord fun _ _ h1 => h1.holdAt

theorem Canonical.execEvclr {sb p a b} (hs : Canonical s) : CanonicalOut (execEvclr sb p a b s) :=
  hs.clWord fun _ _ h1 => h1.holdAt

theorem Canonical.execEvwait {sb p d a b} (hs : Canonical s) : CanonicalOut (execEvwait sb p d a b s) := by
  unfold Machine.execEvwait
  dsimp only
  refine Canonical.clWord hs ?_
  intro x1 x2 ht28
  split
  · exact ht28.withResult fun _ h1 => h1
  · exact ht28

theorem Canonical.execEnq {sb p d a} (hs : Canonical s) : CanonicalOut (execEnq sb p d a s) := by
  unfold Machine.execEnq
  refine Canonical.clWord hs ?_
  intro x1 x2 ht28
  split
  · exact ht28.withResult fun _ h1 => h1
  · split
    · exact ht28.withResult fun _ h1 => h1
    · split
      · exact ht28.withResult fun _ h1 => h1.holdAt
      · exact ht28

theorem Canonical.popPipe {p st depth} (hs : Canonical s) : Canonical (popPipe s p st depth) := hs.setCluster

theorem Canonical.execDeq {sb p d k} (hs : Canonical s) : CanonicalOut (execDeq sb p d k s) := by
  unfold Machine.execDeq
  dsimp only
  refine Canonical.clWord hs ?_
  intro x1 x2 ht28
  split
  · exact ht28.withWrites fun _ h1 => h1
  · exact ht28.withWrites fun _ h1 => h1
  · split
    · split
      · exact ht28
      · exact ht28.withWrites fun _ h1 => h1.holdAt.popPipe
    · split
      · exact ht28.withWrites fun _ h1 => h1
      · exact ht28

theorem Canonical.execYield {sb p} (hs : Canonical s) : CanonicalOut (execYield sb p s) := by
  unfold Machine.execYield
  dsimp only
  refine Canonical.clWord hs ?_
  intro x1 x2 ht28
  split
  · exact ht28.setSlot
  · exact ht28

theorem Canonical.execTaskinfo {sb p d k} (hs : Canonical s) : CanonicalOut (execTaskinfo sb p d k s) :=
  hs.clWord fun _ _ h1 => h1.withResult fun _ h2 => h2

/-! ### Machine/Vector.lean -/

theorem Canonical.vecWord {sb c q srcs d lat f} (hs : Canonical s) : CanonicalOut (vecWord sb c q srcs d lat f s) := by
  unfold Machine.vecWord
  dsimp only
  refine hs.issue fun x1 _ ht28 => ?_
  refine Canonical.withPops ht28 ?_
  intro x1
  split
  · exact ht28.withWrites fun _ h1 => (h1.foldl fun _ _ h2 => h2.popQueue).raiseFlags
  · split
    · exact ht28
    · exact ht28
    · exact (ht28.foldl fun _ _ h1 => h1.popQueue).raiseFlags
    · exact (ht28.foldl fun _ _ h1 => h1.popQueue).pushQueue.raiseFlags

theorem Canonical.vecToReg {sb c q srcs d lat f} (hs : Canonical s) : CanonicalOut (vecToReg sb c q srcs d lat f s) :=
  hs.issue fun _ _ h1 => h1.withPops fun _ => h1.withWrites fun _ h2 => (h2.foldl fun _ _ h3 => h3.popQueue).raiseFlags

/-! ### Machine/Engine.lean -/

theorem Canonical.failRun {r cause addr} (hr : Canonical r.s) : Canonical (failRun r cause addr).s := hr

theorem Canonical.checkRun {r addr storage} (hr : Canonical r.s) : Canonical (checkRun r addr storage).s := hr

theorem Canonical.logWrite {r spad a kind va asid bs} (hr : Canonical r.s) : Canonical (logWrite r spad a kind va asid bs).s := by
  unfold Machine.logWrite
  split
  · split
    · exact hr
    · exact hr
  · exact hr

theorem Canonical.runTranslate {r a va n} (hr : Canonical r.s) : Canonical (runTranslate r a va n).1.s := by
  unfold Machine.runTranslate
  extract_lets c
  split
  · next s1 ps e =>
    extract_lets r1
    have h1 : Canonical r1.s := hr.translate.of_pair e
    split
    · exact h1.failRun
    · exact h1
  · next s1 cause bad e => exact Canonical.failRun (r := { r with s := s1 }) (hr.translate.of_pair e)
  · next s1 bad st e => exact Canonical.checkRun (r := { r with s := s1 }) (hr.translate.of_pair e)

theorem Canonical.heldRun {r dev a n} (hr : Canonical r.s) : Canonical (heldRun r dev a n).s := hr.dependOn

theorem Canonical.readSpadRun {r a n} (hr : Canonical r.s) : Canonical (readSpadRun r a n).1.s := by
  unfold Machine.readSpadRun
  split
  · exact hr
  · split
    · exact hr.checkRun
    · exact hr.heldRun

theorem Canonical.readDevRun {r pa n} (hr : Canonical r.s) : Canonical (readDevRun r pa n).1.s := by
  unfold Machine.readDevRun
  split
  · exact hr
  · split
    · exact hr.checkRun
    · exact hr.heldRun

theorem Canonical.readPieces {f r ps} (hr : Canonical r.s) (hf : ∀ r a n, Canonical r.s → Canonical (f r a n).1.s) :
    Canonical (readPieces f r ps).1.s := by
  induction ps generalizing r with
  | nil => exact hr
  | cons p l ih => exact ih (hf r p.1 p.2 hr)

theorem Canonical.readAt {r space a n} (hr : Canonical r.s) : Canonical (readAt r space a n).1.s := by
  unfold Machine.readAt
  dsimp only
  split
  · exact hr
  · split
    · exact hr.readSpadRun
    · split
      · exact hr.failRun
      · exact hr.readDevRun
    · exact hr.runTranslate.readPieces fun _ _ _ h1 => h1.readDevRun
    · exact hr.readPieces fun _ _ _ h1 => h1.readSpadRun

theorem Canonical.writePieces {r bs ps} (hr : Canonical r.s) : Canonical (writePieces r bs ps).s := by
  induction ps generalizing r bs with
  | nil => exact hr
  | cons p l ih => exact ih hr.logWrite

theorem Canonical.writeParts {r bs ps} (hr : Canonical r.s) : Canonical (writeParts r bs ps).s := by
  induction ps generalizing r bs with
  | nil => exact hr
  | cons p l ih =>
    rw [Machine.writeParts]
    split
    · exact hr
    · dsimp only
      split
      · exact hr
      · exact ih hr.logWrite

theorem Canonical.writeAt {r space a bs} (hr : Canonical r.s) : Canonical (writeAt r space a bs).s := by
  unfold Machine.writeAt
  dsimp only
  split
  · exact hr
  · split
    · exact hr.logWrite
    · split
      · exact hr.failRun
      · exact hr.logWrite
    · exact hr.runTranslate.writeParts
    · exact hr.writePieces

theorem Canonical.addOverflow {k} (hs : Canonical s) : Canonical (addOverflow s k) := hs.setSlot

theorem Canonical.chargeUndo {r cost u} (hr : Canonical r.s) : Canonical (chargeUndo r cost u).s := by
  unfold Machine.chargeUndo
  dsimp only
  split
  · exact hr
  · split
    · exact ⟨hr.mem, hr.spad⟩
    · exact hr.addOverflow

theorem Canonical.onCore {r f} (hr : Canonical r.s) (hf : (f r.s.core).spad = r.s.core.spad) : Canonical (onCore r f).s :=
  hr.of_eq rfl hf

theorem Canonical.useRow {r code row} (hr : Canonical r.s) : Canonical (useRow r code row).s := by
  unfold Machine.useRow
  split
  · exact hr.checkRun
  · exact hr

theorem Canonical.useRows {r code lo n} (hr : Canonical r.s) : Canonical (useRows r code lo n).s := by
  unfold Machine.useRows
  induction (List.range n).map (fun i => lo + i) generalizing r with
  | nil => exact hr
  | cons i l ih => exact ih hr.useRow

theorem Canonical.putTileRow {r tile row xs} (hr : Canonical r.s) : Canonical (putTileRow r tile row xs).s :=
  hr.chargeUndo.onCore (cleanRow_spad ..)

theorem Canonical.putGradRow {r row xs} (hr : Canonical r.s) : Canonical (putGradRow r row xs).s :=
  hr.chargeUndo.onCore (cleanRow_spad ..)

theorem Canonical.putCells {r bank row xs} (hr : Canonical r.s) : Canonical (putCells r bank row xs).s :=
  hr.chargeUndo.onCore (cleanRow_spad ..)

theorem Canonical.putHeaders {r bank row xs} (hr : Canonical r.s) : Canonical (putHeaders r bank row xs).s :=
  hr.chargeUndo.onCore rfl

theorem Canonical.putAffine {r xs} (hr : Canonical r.s) : Canonical (putAffine r xs).s := hr.chargeUndo.onCore rfl

theorem Canonical.spadNow {a bs} (hs : Canonical s) : Canonical (spadNow s a bs) := hs.writeSpad.trimHeld

theorem Canonical.commitSpad {direct r seen a bs} (hr : Canonical r.s) : Canonical (commitSpad direct r seen a bs).1.s := by
  unfold Machine.commitSpad
  dsimp only
  split
  · exact hr.spadNow
  · split
    · dsimp only
      split
      · exact hr
      · exact hr.hold
    · split
      · dsimp only
        split
        · exact ⟨hr.mem, hr.spad⟩
        · exact Canonical.hold ⟨hr.mem, hr.spad⟩
      · dsimp only
        refine Canonical.spadNow ?_
        refine Canonical.addOverflow ?_
        split
        · exact ⟨hr.mem, hr.spad⟩
        · exact Canonical.hold ⟨hr.mem, hr.spad⟩

theorem Canonical.commitDev {r c} (hr : Canonical r.s) : Canonical (commitDev r c).s := by
  unfold Machine.commitDev
  dsimp only
  split
  · exact hr.hold
  · exact hr.release.bumpId

theorem Canonical.commitAll {direct r seen l} (hr : Canonical r.s) : Canonical (commitAll direct r seen l).s := by
  induction l generalizing r seen with
  | nil => exact hr
  | cons c l ih =>
    rw [Machine.commitAll]
    split
    · exact ih hr.commitSpad
    · exact ih hr.commitDev

theorem Canonical.putCmd {m} (hs : Canonical s) : Canonical (putCmd s m) := ⟨hs.mem, hs.spad⟩

theorem Canonical.finishRun {r} (hr : Canonical r.s) : Canonical (finishRun r) := by
  unfold Machine.finishRun
  split
  · exact hr.machineCheck
  · exact hr.commitAll.putCmd
  · exact hr.commitAll.putCmd

theorem Canonical.startCmd {id eng op run} (hs : Canonical s) (hrun : ∀ r, Canonical r.s → Canonical (run r).s) :
    CanonicalOut (startCmd id eng op run s) := by
  unfold Machine.startCmd
  split
  · exact hs
  · next m hm =>
    split
    · refine Canonical.finishRun ?_
      split
      · exact hs
      · exact hrun ⟨s, m, [], .none⟩ hs
    · exact hs

/-! ### Machine/Commands.lean -/

theorem Canonical.copyLoop {t src dst r j n} (hr : Canonical r.s) : Canonical (copyLoop t src dst r j n).s := by
  induction n generalizing r j with
  | zero => exact hr
  | succ n ih =>
    rw [Machine.copyLoop]
    split
    · exact hr
    · exact ih hr.readAt.writeAt

theorem Canonical.countRows {r} (hr : Canonical r.s) : Canonical (countRows r).s := hr

theorem Canonical.runCopy {r} (hr : Canonical r.s) : Canonical (runCopy r).s := hr.copyLoop.countRows

theorem Canonical.execCopy {id} (hs : Canonical s) : CanonicalOut (execCopy id s) := hs.startCmd fun _ h1 => h1.runCopy

theorem Canonical.execCopyf {id} (hs : Canonical s) : CanonicalOut (execCopyf id s) := hs.startCmd fun _ h1 => h1.runCopy

theorem Canonical.readRowOf {r i} (hr : Canonical r.s) : Canonical (readRowOf r i).1.s := hr.readAt

theorem Canonical.noteExc {r b} (hr : Canonical r.s) : Canonical (noteExc r b).s := hr

theorem Canonical.forRows {f n r} (hr : Canonical r.s) (hf : ∀ r i, Canonical r.s → Canonical (f r i).s) :
    Canonical (forRows f n r).s := by
  induction n with
  | zero => exact hr
  | succ n ih =>
    rw [Machine.forRows]
    split
    · exact ih
    · exact hf _ _ ih

theorem Canonical.loadbRow {r i} (hr : Canonical r.s) : Canonical (loadbRow r i).s := by
  unfold Machine.loadbRow
  dsimp only
  split
  · exact hr.readRowOf
  · split
    · exact hr.readRowOf.putCells.putHeaders
    · exact hr.readRowOf.putCells

theorem Canonical.runLoadb {r} (hr : Canonical r.s) : Canonical (runLoadb r).s := by
  unfold Machine.runLoadb
  dsimp only
  split
  · split
    · exact hr.readRowOf
    · exact hr.readRowOf.putAffine.countRows
  · exact (hr.forRows fun _ _ h1 => h1.loadbRow).countRows

theorem Canonical.execArrLoadb {id} (hs : Canonical s) : CanonicalOut (execArrLoadb id s) := hs.startCmd fun _ h1 => h1.runLoadb

theorem Canonical.useCells {r n} (hr : Canonical r.s) : Canonical (useCells r n).s := hr.useRows

theorem Canonical.useStart {r i} (hr : Canonical r.s) : Canonical (useStart r i).s := by
  unfold Machine.useStart
  split
  · exact hr.useRow
  · exact hr

theorem Canonical.giveRow {r i xs} (hr : Canonical r.s) : Canonical (giveRow r i xs).s := by
  unfold Machine.giveRow
  dsimp only
  split
  · dsimp only
    exact hr.putTileRow.noteExc
  · exact hr.putTileRow.noteExc

theorem Canonical.runMm {r} (hr : Canonical r.s) : Canonical (runMm r).s := by
  refine Canonical.countRows (Canonical.forRows hr.useCells fun r i h => ?_)
  have hx : Canonical (Machine.readRowOf (Machine.useStart r i) i).1.s := h.useStart.readRowOf
  dsimp only
  split
  · exact hx
  · exact hx.giveRow

theorem Canonical.execArrMm {id} (hs : Canonical s) : CanonicalOut (execArrMm id s) := hs.startCmd fun _ h1 => h1.runMm

theorem Canonical.countOog {r ps} (hr : Canonical r.s) : Canonical (countOog r ps).s := hr

theorem Canonical.runSpl {r} (hr : Canonical r.s) : Canonical (runSpl r).s := by
  refine Canonical.countRows (Canonical.forRows hr.useCells fun r i h => ?_)
  have hx : Canonical (Machine.readRowOf (Machine.useStart r i) i).1.s := h.useStart.readRowOf
  dsimp only
  split
  · exact hx
  · exact hx.countOog.giveRow

theorem Canonical.execArrSpl {id} (hs : Canonical s) : CanonicalOut (execArrSpl id s) := hs.startCmd fun _ h1 => h1.runSpl

theorem Canonical.gradStep {aff x i} (hx : Canonical x.r.s) : Canonical (gradStep aff x i).r.s := by
  unfold Machine.gradStep
  extract_lets m a b
  have hb : Canonical b.1.s := hx.readRowOf.readAt
  split
  · exact hb
  · exact hb.countOog

theorem Canonical.gradSteps {aff n x} (hx : Canonical x.r.s) : Canonical (gradSteps aff n x).r.s := by
  induction n with
  | zero => exact hx
  | succ n ih =>
    rw [Machine.gradSteps]
    split
    · exact ih
    · exact ih.gradStep

theorem Canonical.giveGrads {gs r i} (hr : Canonical r.s) : Canonical (giveGrads gs r i).s := by
  unfold Machine.giveGrads
  dsimp only
  split
  · exact hr.putGradRow
  · exact hr

theorem Canonical.runGrad {r0} (hr : Canonical r0.s) : Canonical (runGrad r0).s := by
  unfold Machine.runGrad
  extract_lets t r n old x r1
  have h1 : Canonical r.s := by
    unfold r
    split
    · exact hr.useRows
    · exact hr
  have hx : Canonical x.r.s := h1.gradSteps
  have hr1 : Canonical r1.s := (hx.forRows fun _ _ h => h.giveGrads).noteExc
  split
  · exact hx
  · split
    · exact hr1
    · exact hr1

theorem Canonical.execArrGrad {id} (hs : Canonical s) : CanonicalOut (execArrGrad id s) := hs.startCmd fun _ h1 => h1.runGrad

theorem Canonical.refineRow {r0 i} (hr0 : Canonical r0.s) : Canonical (refineRow r0 i).s := by
  unfold Machine.refineRow
  dsimp only
  split
  · exact hr0.useRow
  · exact hr0.useRow.putCells.putGradRow.noteExc

theorem Canonical.runRefine {r} (hr : Canonical r.s) : Canonical (runRefine r).s := hr.forRows fun _ _ h1 => h1.refineRow

theorem Canonical.execArrRefine {id} (hs : Canonical s) : CanonicalOut (execArrRefine id s) :=
  hs.startCmd fun _ h1 => h1.runRefine

theorem Canonical.clearRow {r i} (hr : Canonical r.s) : Canonical (clearRow r i).s := by
  unfold Machine.clearRow
  dsimp only
  split
  · split
    · exact hr.putGradRow
    · exact hr.putTileRow
  · exact hr

theorem Canonical.giveWindows {r es} (hr : Canonical r.s) : Canonical (giveWindows r es).s := by
  unfold Machine.giveWindows
  dsimp only
  split
  · exact hr
  · refine Canonical.failRun hr

theorem Canonical.scatRow {r i xs} (hr : Canonical r.s) : Canonical (scatRow r i xs).s := hr.giveWindows

theorem Canonical.drainStep {r0 i} (hr0 : Canonical r0.s) : Canonical (drainStep r0 i).s := by
  unfold Machine.drainStep
  dsimp only
  split
  · split
    · exact hr0.useRow
    · split
      · split
        · exact hr0.useRow.scatRow
        · split
          · dsimp only
            exact hr0.useRow.scatRow.clearRow.noteExc
          · exact hr0.useRow.scatRow.clearRow.noteExc
      · split
        · exact hr0.useRow.writeAt
        · split
          · dsimp only
            exact hr0.useRow.writeAt.clearRow.noteExc
          · exact hr0.useRow.writeAt.clearRow.noteExc
  · split
    · exact hr0.useRow
    · split
      · split
        · exact hr0.useRow.scatRow
        · split
          · dsimp only
            exact hr0.useRow.scatRow.clearRow.noteExc
          · exact hr0.useRow.scatRow.clearRow.noteExc
      · split
        · exact hr0.useRow.writeAt
        · split
          · dsimp only
            exact hr0.useRow.writeAt.clearRow.noteExc
          · exact hr0.useRow.writeAt.clearRow.noteExc

theorem Canonical.runDrain {r} (hr : Canonical r.s) : Canonical (runDrain r).s :=
  (hr.forRows fun _ _ h1 => h1.drainStep).countRows

theorem Canonical.execArrDrain {id} (hs : Canonical s) : CanonicalOut (execArrDrain id s) := hs.startCmd fun _ h1 => h1.runDrain

theorem Canonical.execArrRowout {id} (hs : Canonical s) : CanonicalOut (execArrRowout id s) := hs.startCmd fun _ h1 => h1.useRow

theorem Canonical.runScat {r} (hr : Canonical r.s) : Canonical (runScat r).s := by
  unfold Machine.runScat
  dsimp only
  split
  · exact hr.readAt.readAt
  · exact hr.readAt.readAt.giveWindows

theorem Canonical.execScatAdd {id} (hs : Canonical s) : CanonicalOut (execScatAdd id s) := hs.startCmd fun _ h1 => h1.runScat

theorem Canonical.execScatMax {id} (hs : Canonical s) : CanonicalOut (execScatMax id s) := hs.startCmd fun _ h1 => h1.runScat

theorem Canonical.mergeWord {t w x off} (hx : Canonical x.1) : Canonical (mergeWord t w x off).1 := by
  unfold Machine.mergeWord
  split
  · exact hx
  · exact hx.writeMem

theorem Canonical.mergeWords {t : BitVec 1024} {w : List (Nat × BitVec 32)} {offs : List Nat} {x : State × Bool}
    (hx : Canonical x.1) : Canonical (offs.foldl (Machine.mergeWord t w) x).1 := by
  induction offs generalizing x with
  | nil => exact hx
  | cons o r ih => exact ih hx.mergeWord

theorem Canonical.execScatterWindow {id} (hs : Canonical s) : CanonicalOut (execScatterWindow id s) := by
  unfold Machine.execScatterWindow
  split
  · exact hs
  · split
    · split
      · exact hs
      · exact hs.gated fun t ht => (Canonical.mergeWords (x := (t, false)) ht).putCmd
    · exact hs

theorem Canonical.enqueueCmd {m0} (hs : Canonical s) : Canonical (enqueueCmd s m0) := by
  unfold Machine.enqueueCmd
  extract_lets id m _ s1 land upk word s2
  have h2 : Canonical s2 := Canonical.traceThread (Canonical.changes (Canonical.bumpId ⟨hs.mem, hs.spad⟩))
  split
  · exact h2
  · split
    · exact Canonical.putCmd ⟨h2.mem, h2.spad⟩
    · exact h2.addOverflow.putCmd

theorem Canonical.execCopyfFollowOn {id} (hs : Canonical s) : CanonicalOut (execCopyfFollowOn id s) := by
  unfold Machine.execCopyfFollowOn
  dsimp only
  split
  · exact hs
  · split
    · exact hs
    · split
      · split
        · exact Canonical.enqueueCmd (Canonical.putCmd (Canonical.ite hs.change.putCmd hs))
        · exact Canonical.ite hs.change.putCmd hs
      · exact hs

theorem Canonical.landRow {m} (hs : Canonical s) : Canonical (landRow s m) := .ite hs.setSlot.pmCount hs

theorem Canonical.egress {m e} (hs : Canonical s) : Canonical (egress s m e) := .ite hs.hold hs.releaseOne.bumpId

theorem Canonical.signalCmd {m} (hs : Canonical s) : Canonical (signalCmd s m) := .ite hs.egress hs

theorem Canonical.tailCmd {m} (hs : Canonical s) : Canonical (tailCmd s m) := .ite hs hs.egress

theorem Canonical.execCommandRetire {id} (hs : Canonical s) : CanonicalOut (execCommandRetire id s) := by
  unfold Machine.execCommandRetire
  split
  · exact hs
  · split
    · extract_lets dig oog head s1 s2 done
      have h1 : Canonical s1 := hs.changes
      have h2 : Canonical s2 := h1.landRow.tailCmd.signalCmd.pmCount.traceThread
      split
      · exact h2.putCmd.bumpId
      · exact ⟨h2.mem, h2.spad⟩
    · exact hs

/-! ### Machine/ImageRead.lean -/

theorem Canonical.pastImage (hs : Canonical s) : Canonical (pastImage s) := ⟨hs.mem, hs.spad⟩

/-! ### Machine/Remote.lean -/

theorem Canonical.sendRead {k x} (hs : Canonical s) : Canonical (sendRead k s x) := by
  unfold Machine.sendRead
  split
  · exact hs
  · split
    · exact hs
    · exact hs.inject.of_eq rfl rfl

theorem Canonical.sendReads (hs : Canonical s) : Canonical (sendReads s) :=
  (hs.foldl fun _ _ h1 => h1.sendRead).foldl fun _ _ h1 => h1.sendRead

theorem Canonical.resumeReads {k} (hs : Canonical s) : Canonical (resumeReads s k) := by
  exact Canonical.sendReads ⟨hs.mem, hs.spad⟩

/-! ### Machine/Sched.lean -/

theorem Canonical.fillWindow {t img} (hs : Canonical s) : Canonical (fillWindow s t img) :=
  ⟨hs.mem, memWf_writeBytes (memWf_mclear hs.spad _ _) _ _⟩

theorem Canonical.joinPlaced {k q} (hs : Canonical s) : Canonical (joinPlaced s k q) := hs.setCluster

theorem Canonical.startFresh {k q m base} (hs : Canonical s) : Canonical (startFresh s k q m base) :=
  hs.setSlot.fillWindow.clearBanks.resetCtl.joinPlaced.openAll

theorem Canonical.startFailed {q reason fault} (hs : Canonical s) : Canonical (startFailed s q reason fault) :=
  hs.postFault.setCluster.purge

theorem Canonical.restoreThread {s0 k m} (hs : Canonical s0) : Canonical (restoreThread s0 k m) := by
  unfold Machine.restoreThread
  extract_lets s t n _ x alone s1 lo core1 s2
  have h1 : Canonical s1 := hs.clearBanks.setSlot.resetCtl
  have h2 : Canonical s2 := ⟨h1.mem, memWf_foldl (memWf_mclear h1.spad _ _) fun _ _ hm => memWf_sset hm _ _⟩
  exact h2.rename.openAll.resumeReads

theorem Canonical.putRec {k i q} (hs : Canonical s) : Canonical (putRec s k i q) := by
  unfold Machine.putRec
  extract_lets _ s1
  have h1 : Canonical s1 := hs.setCluster
  split
  · exact h1.pastImage.restoreThread.joinPlaced
  · split
    · exact h1.startFailed
    · split
      · exact h1.startFresh
      · exact hs

theorem Canonical.placeRec {k i q} (hs : Canonical s) : Canonical (placeRec s k i q) := hs.gated fun _ h1 => h1.putRec.traceRec

theorem Canonical.beginStage {p st q} (hs : Canonical s) : Canonical (beginStage s p st q) :=
  Canonical.setCluster ⟨hs.mem, hs.spad⟩

theorem Canonical.placeStage {k p st} (hs : Canonical s) : Canonical (placeStage s k p st) := by
  unfold Machine.placeStage
  dsimp only
  split
  · exact hs
  · exact Canonical.ite hs.beginStage.placeRec hs

theorem Canonical.killTask {k} (hs : Canonical s) : Canonical (killTask s k) :=
  hs.breakMissed.foldCounts.discardOpen.leaveSlot.setCluster

theorem Canonical.displace {k q} (hs : Canonical s) : Canonical (displace s k q) :=
  .ite hs.setCluster (.ite hs.killTask hs.preemptSlot.preemptSlot)

theorem Canonical.execTaskPlace {idx slot} (hs : Canonical s) : CanonicalOut (execTaskPlace idx slot s) := by
  unfold Machine.execTaskPlace
  dsimp only
  split
  · split
    · exact hs.placeRec
    · split
      · exact hs.displace
      · exact hs
  · split
    · exact hs.placeStage
    · exact hs

theorem Canonical.putAway {i mem q} (hs : Canonical s) : Canonical (putAway s i mem q) := hs.setCluster

theorem Canonical.placedElsewhere {i mem} (hs : Canonical s) : Canonical (placedElsewhere s i mem) := by
  unfold Machine.placedElsewhere
  dsimp only
  split
  · split
    · exact Canonical.ite hs.putAway hs
    · split
      · exact Canonical.ite hs.beginStage.putAway hs
      · exact hs
  · exact hs

theorem Canonical.awayEvent {mem what} (hs : Canonical s) : Canonical (awayEvent s mem what) := by
  unfold Machine.awayEvent
  dsimp only
  split
  · exact hs
  · split
    · exact Canonical.ite hs.setCluster.setCluster hs.setCluster.setCluster.eventChange
    · exact hs.setCluster.setCluster
    · exact hs.setCluster.setCluster
    · exact hs.setCluster

theorem Canonical.restartSlice {k} (hs : Canonical s) : Canonical (restartSlice s k) := hs.setSlot

theorem Canonical.execTimeSliceEnd {slot} (hs : Canonical s) : CanonicalOut (execTimeSliceEnd slot s) := by
  unfold Machine.execTimeSliceEnd
  dsimp only
  split
  · split
    · exact hs.restartSlice.preemptSlot.preemptSlot
    · split
      · exact hs.restartSlice
      · exact hs.restartSlice.stopThread
  · exact hs

theorem Canonical.clusterFault {ctx kind low tags} (hs : Canonical s) : Canonical (clusterFault s ctx kind low tags) :=
  hs.postFault

theorem Canonical.purgeTags {ctx tags} (hs : Canonical s) : Canonical (purgeTags ctx s tags) := hs.foldl fun _ _ h1 => h1.purge

theorem Canonical.spill {ctx d p} (hs : Canonical s) : Canonical (spill s ctx d p) :=
  .ite hs.setCluster.setCluster.writeOverflow hs.setCluster.clusterFault.purgeTags

theorem Canonical.execPipelineSpill {pipe} (hs : Canonical s) : CanonicalOut (execPipelineSpill pipe s) := by
  unfold Machine.execPipelineSpill
  split
  · exact hs
  · split
    · exact hs
    · exact Canonical.ite hs.spill hs

theorem Canonical.execStealRequest {peer} (hs : Canonical s) : CanonicalOut (execStealRequest peer s) := by
  unfold Machine.execStealRequest
  dsimp only
  split
  · exact hs
  · split
    · exact hs
    · split
      · exact hs
      · exact hs.gated fun _ h1 => h1.setCluster

theorem Canonical.execStealAcknowledge {seq} (hs : Canonical s) : CanonicalOut (execStealAcknowledge seq s) := hs.setCluster

theorem Canonical.refuseSteal {peer seq} (hs : Canonical s) : Canonical (refuseSteal s peer seq) := hs.setCluster

theorem Canonical.execStealConfirm {peer seq} (hs : Canonical s) : CanonicalOut (execStealConfirm peer seq s) := by
  unfold Machine.execStealConfirm
  dsimp only
  split
  · exact hs
  · exact hs.setCluster

theorem Canonical.execStealTimeout {seq} (hs : Canonical s) : CanonicalOut (execStealTimeout seq s) := by
  unfold Machine.execStealTimeout
  dsimp only
  split
  · exact hs
  · split
    · exact hs.setCluster
    · exact hs

theorem Canonical.execSchedLost {cluster} (hs : Canonical s) : CanonicalOut (execSchedLost cluster s) := by
  unfold Machine.execSchedLost
  dsimp only
  split
  · exact hs
  · split
    · exact hs.setCluster.clusterFault.purgeTags
    · exact hs

theorem Canonical.switchOut {s0 spans ctx} (hs0 : Canonical s0) : Canonical (switchOut s0 spans ctx) := by
  unfold Machine.switchOut
  extract_lets s s1 off s2
  have hoff : ∀ t k, Canonical t → Canonical (off t k) := fun _ _ ht => .ite ht ht.takeOff
  have h1 : Canonical s1 := Canonical.writeClusterImage (hs0.foldl fun _ _ ht => .ite ht ht.foldCounts)
  exact (hoff _ 1 (hoff s1 0 h1)).setCluster

theorem Canonical.beginSwitch {spans} (hs : Canonical s) : Canonical (beginSwitch s spans) :=
  hs.setCluster.preemptSlot.preemptSlot

theorem Canonical.execClusterSwitchOut {area} (hs : Canonical s) : CanonicalOut (execClusterSwitchOut area s) := by
  unfold Machine.execClusterSwitchOut
  split
  · exact hs
  · split
    · exact hs.switchOut
    · exact hs
  · split
    · exact hs
    · exact hs.beginSwitch

theorem Canonical.resumeThread {p} (hs : Canonical s) : Canonical (resumeThread s p) := .ite hs.restoreThread hs.setCluster

theorem Canonical.restoreCluster {ctx m} (hs : Canonical s) : Canonical (restoreCluster s ctx m) :=
  Canonical.foldl (.setCtx ⟨memWf_foldl (memWf_mclear hs.mem _ _) fun _ _ hm => memWf_sset hm _ _, hs.spad⟩)
    fun _ _ ht => ht.resumeThread

theorem Canonical.execClusterRestore {area} (hs : Canonical s) : CanonicalOut (execClusterRestore area s) := by
  unfold Machine.execClusterRestore
  extract_lets spans here
  split
  · exact hs
  · split
    · exact hs.pastImage.restoreCluster
    · exact hs

/-! ### Machine/Package.lean -/

theorem Canonical.execCaprd {sb p d a} (hs : Canonical s) : CanonicalOut (execCaprd sb p d a s) :=
  hs.word fun _ _ h1 => h1.writeOne

theorem Canonical.execHostsig {sb p a} (hs : Canonical s) : CanonicalOut (execHostsig sb p a s) := by
  unfold Machine.execHostsig
  dsimp only
  refine hs.word fun _ _ ht28 => ?_
  split
  · exact ht28
  · exact ht28.setCtx.hold

theorem Canonical.requestWord {sb p d kind f} (hs : Canonical s) : CanonicalOut (requestWord sb p d kind f s) := by
  unfold Machine.requestWord
  dsimp only
  refine hs.privWord fun _ _ ht28 => ?_
  split
  · exact ht28.withFlip fun _ h1 => h1.hold.startWait
  · split
    · split
      · exact ht28.endWait
      · exact ht28
    · exact ht28

theorem Canonical.execCtxsave {sb p d a b} (hs : Canonical s) : CanonicalOut (execCtxsave sb p d a b s) := hs.requestWord

theorem Canonical.execCtxrst {sb p d a b} (hs : Canonical s) : CanonicalOut (execCtxrst sb p d a b s) := hs.requestWord

theorem Canonical.putBytes {spans off bs} (hs : Canonical s) : Canonical (putBytes s spans off bs) := hs.putRegion

theorem Canonical.beginSave {n spans} (hs : Canonical s) : Canonical (beginSave s n spans) :=
  .ite hs.setCtx.putBytes.beginSwitch hs.setCtx.putBytes

theorem Canonical.placeImage {spans n} (hs : Canonical s) : Canonical (placeImage s spans n) := by
  unfold Machine.placeImage
  split
  · exact Canonical.ite hs.writeClusterImage hs
  · exact Canonical.ite hs hs.pastImage.writeClusterImage

theorem Canonical.finishSave {who n area units} (hs : Canonical s) : Canonical (finishSave s who n area units) := by
  unfold Machine.finishSave
  dsimp only
  split
  · exact hs
  · exact hs.placeImage.putBytes.putBytes.setCtx

theorem Canonical.finishRestore {who n area} (hs : Canonical s) : Canonical (finishRestore s who n area) := by
  unfold Machine.finishRestore
  split
  · exact hs
  · extract_lets bs s1
    have h1 : Canonical s1 := hs.setCtx
    split
    · exact h1
    · split
      · exact h1.pastImage.restoreCluster
      · exact h1

theorem Canonical.noteUnderWay {id} (hs : Canonical s) : Canonical (noteUnderWay s id) := ⟨hs.mem, hs.spad⟩

theorem Canonical.execContextSaveRequest {n} (hs : Canonical s) : CanonicalOut (execContextSaveRequest n s) := by
  unfold Machine.execContextSaveRequest
  dsimp only
  split
  · exact hs
  · split
    · split
      · split
        · exact hs.finishSave.setResult.dropItem
        · exact hs
      · split
        · split
          · exact hs.beginSave.noteUnderWay
          · exact hs
        · exact hs.setResult.dropItem
    · exact hs

theorem Canonical.execContextRestoreRequest {n} (hs : Canonical s) : CanonicalOut (execContextRestoreRequest n s) := by
  unfold Machine.execContextRestoreRequest
  dsimp only
  split
  · exact hs
  · split
    · exact Canonical.dropItem (Canonical.setResult (Canonical.ite hs.finishRestore hs))
    · exact hs

theorem Canonical.execHostCtxsave {ctx area units s0} (hs : Canonical s0) : CanonicalOut (execHostCtxsave ctx area units s0) := by
  unfold Machine.execHostCtxsave
  extract_lets s x t _ st t' _
  have h1 : Canonical s := hs.wake
  clear_value s
  have ht : Canonical t := h1.finishSave.setResult
  have ht' : Canonical t' := h1.beginSave.noteUnderWay
  split
  · exact hs
  · split
    · exact ⟨ht.mem, ht.spad⟩
    · split
      · exact ⟨ht'.mem, ht'.spad⟩
      · exact h1.setResult

theorem Canonical.execHostCtxrst {ctx area s0} (hs0 : Canonical s0) : CanonicalOut (execHostCtxrst ctx area s0) := by
  unfold Machine.execHostCtxrst
  dsimp only
  split
  · exact hs0
  · exact Canonical.setResult (Canonical.ite hs0.wake.finishRestore hs0.wake)

/-! ### Machine/Fabric.lean -/

theorem Canonical.execNwr {sb p w a b} (hs : Canonical s) : CanonicalOut (execNwr sb p w a b s) := by
  unfold Machine.execNwr
  dsimp only
  refine hs.word fun _ _ ht28 => ?_
  split
  · exact ht28.hold
  · exact ht28

theorem Canonical.startRemote {h key x} (hs : Canonical s) : Canonical (startRemote h key x s) :=
  hs.bumpId.changeAt.setSlot.sendRead

theorem Canonical.execNrd {sb p v k a w} (hs : Canonical s) : CanonicalOut (execNrd sb p v k a w s) := by
  unfold Machine.execNrd
  dsimp only
  refine hs.word fun _ _ ht28 => ?_
  split
  · split
    · exact ht28
    · exact ht28.startRemote
  · exact ht28

theorem Canonical.reportNwrs {h} (hs : Canonical s) : Canonical (reportNwrs s h) := by
  unfold Machine.reportNwrs
  dsimp only
  split
  · exact hs
  · exact Canonical.changeAt ⟨hs.mem, hs.spad⟩

theorem Canonical.execMemb {sb p d} (hs : Canonical s) : CanonicalOut (execMemb sb p d s) := by
  unfold Machine.execMemb
  refine hs.word fun _ _ ht28 => ?_
  split
  · exact ht28.withFlip fun _ h1 => h1.startWait
  · split
    · exact ht28
    · exact ht28.withWrites fun _ h1 => h1.reportNwrs.leaveWait

theorem Canonical.takeInstance {h w i} (hs : Canonical s) : CanonicalRes (takeInstance h w i s) := by
  unfold Machine.takeInstance
  split
  · exact hs.machineCheck
  · exact hs.endWait

theorem Canonical.collective {sb p d a kind f} (hs : Canonical s) : CanonicalOut (collective sb p d a kind f s) := by
  unfold Machine.collective
  dsimp only
  refine hs.word fun _ _ ht28 => ?_
  split
  · split
    · exact ht28.withFlip fun _ h1 => h1.hold.startWait
    · exact ht28.writeOne
  · split
    · exact ht28.takeInstance
    · exact ht28

theorem Canonical.execNred {sb p d a b} (hs : Canonical s) : CanonicalOut (execNred sb p d a b s) := hs.collective

theorem Canonical.execNbar {sb p d a} (hs : Canonical s) : CanonicalOut (execNbar sb p d a s) := hs.collective

theorem Canonical.execGsw {sb p d a} (hs : Canonical s) : CanonicalOut (execGsw sb p d a s) := hs.requestWord

/-! ### Machine/FabricEvents.lean -/

theorem Canonical.packetHere {l x3} (hs : Canonical s) : Canonical (packetHere s l x3) := by
  unfold Machine.packetHere
  split
  · exact hs
  · exact hs.arrivePacket

theorem Canonical.takeFlit {l x flit trailer} (hs : Canonical s) : Canonical (takeFlit s l x flit trailer) :=
  .ite hs.setLink.pumpLink.packetHere hs.setLink.pumpLink

theorem Canonical.execFlitReceive {l flit trailer} (hs : Canonical s) : CanonicalOut (execFlitReceive l flit trailer s) := by
  unfold Machine.execFlitReceive
  dsimp only
  split
  · exact hs
  · split
    · exact hs.setLink
    · split
      · exact hs
      · exact hs.takeFlit

theorem Canonical.advanceWaves (hs : Canonical s) : Canonical (advanceWaves s) := hs.foldl fun _ _ h1 => h1.advanceWave

theorem Canonical.execLinkTrained {l} (hs : Canonical s) : CanonicalOut (execLinkTrained l s) := by
  unfold Machine.execLinkTrained
  dsimp only
  split
  · exact hs.setLink.pumpLink
  · exact hs

theorem Canonical.execLinkRetrainTimeout {l} (hs : Canonical s) : CanonicalOut (execLinkRetrainTimeout l s) := by
  unfold Machine.execLinkRetrainTimeout
  dsimp only
  split
  · exact hs.setLink.deliverAll.routesFail.advanceWaves
  · exact hs

theorem Canonical.takeOut {n} (hs : Canonical s) : Canonical (takeOut s n) := ⟨hs.mem, hs.spad⟩

theorem Canonical.answer {p q} (hs : Canonical s) : Canonical (answer s p q) := by
  unfold Machine.answer
  split
  · exact hs.inject
  · exact hs.deliver

theorem Canonical.poisonIf {bad pa n} (hs : Canonical s) : Canonical (poisonIf bad s pa n) := .ite ⟨hs.mem, hs.spad⟩ hs

theorem Canonical.execRemoteWrite {n} (hs : Canonical s) : CanonicalOut (execRemoteWrite n s) := by
  unfold Machine.execRemoteWrite
  dsimp only
  split
  · exact hs
  · exact Canonical.answer (Canonical.ite hs.takeOut.writeMem.poisonIf hs.takeOut)

theorem Canonical.execReadRequest {n} (hs : Canonical s) : CanonicalOut (execReadRequest n s) := by
  unfold Machine.execReadRequest
  dsimp only
  split
  · exact hs
  · exact hs.takeOut.answer

theorem Canonical.forgetRequest {id} (hs : Canonical s) : Canonical (forgetRequest s id) := ⟨hs.mem, hs.spad⟩

theorem Canonical.finishNwr {id failed} (hs : Canonical s) : Canonical (finishNwr s id failed) :=
  Canonical.sendReads (Canonical.settle ⟨hs.mem, hs.spad⟩)

theorem Canonical.fillSlot {id r poison fault k} (hs : Canonical s) : Canonical (fillSlot id r poison fault s k) := by
  unfold Machine.fillSlot
  dsimp only
  split
  · exact hs
  · exact hs.setSlot.pmCount

theorem Canonical.execReadReply {n} (hs : Canonical s) : CanonicalOut (execReadReply n s) := by
  unfold Machine.execReadReply
  dsimp only
  split
  · exact hs
  · split
    · exact hs.takeOut
    · split
      · exact hs
      · exact hs.takeOut.forgetRequest.fillSlot.fillSlot

theorem Canonical.execWriteAcknowledgement {n} (hs : Canonical s) : CanonicalOut (execWriteAcknowledgement n s) := by
  unfold Machine.execWriteAcknowledgement
  split
  · exact hs
  · split
    · exact hs.takeOut
    · exact hs.takeOut.forgetRequest.finishNwr

theorem Canonical.execRemoteTimeout {req} (hs : Canonical s) : CanonicalOut (execRemoteTimeout req s) := by
  unfold Machine.execRemoteTimeout
  dsimp only
  split
  · exact hs
  · split
    · exact hs.forgetRequest.fillSlot.fillSlot.finishNwr
    · exact hs

theorem Canonical.contributed {n typ isBar} (hs : Canonical s) : Canonical (contributed s n typ isBar) := by
  unfold Machine.contributed
  dsimp only
  split
  · exact hs
  · split
    · exact hs.takeOut
    · split
      · exact hs.takeOut
      · split
        · exact hs.takeOut.failInstance
        · split
          · exact hs.takeOut.failInstance
          · split
            · exact hs.takeOut.inject
            · split
              · exact hs.takeOut.setJob.tryComplete
              · exact hs.takeOut

theorem Canonical.execContribution {n} (hs : Canonical s) : CanonicalOut (execContribution n s) := hs.contributed

theorem Canonical.execBarrierArrival {n} (hs : Canonical s) : CanonicalOut (execBarrierArrival n s) := hs.contributed

theorem Canonical.resultHere {n typ isBar} (hs : Canonical s) : Canonical (resultHere s n typ isBar) := by
  unfold Machine.resultHere
  dsimp only
  split
  · exact hs
  · split
    · exact hs.takeOut
    · exact hs.takeOut.setJob

theorem Canonical.execCollectiveResult {n} (hs : Canonical s) : CanonicalOut (execCollectiveResult n s) := hs.resultHere

theorem Canonical.execBarrierRelease {n} (hs : Canonical s) : CanonicalOut (execBarrierRelease n s) := hs.resultHere

theorem Canonical.execMemberFailure {job grp node} (hs : Canonical s) : CanonicalOut (execMemberFailure job grp node s) := by
  unfold Machine.execMemberFailure
  split
  · exact hs
  · exact hs.memberFails

theorem Canonical.execPurge {n} (hs : Canonical s) : CanonicalOut (execPurge n s) := by
  unfold Machine.execPurge
  dsimp only
  split
  · exact hs
  · split
    · exact hs.takeOut
    · split
      · exact (hs.takeOut.dropPackets.foldl fun _ _ h1 => h1.loseContribution).floodPurge
      · split
        · exact hs.takeOut.purgeLocal.floodPurge
        · exact hs.takeOut.purgePackets.floodPurge

theorem Canonical.markWave {jk p} (hs : Canonical s) : Canonical (markWave s jk p) := by
  unfold Machine.markWave
  split
  · exact hs
  · exact Canonical.ite hs.setJob.advanceWave hs

theorem Canonical.execCutMarker {n} (hs : Canonical s) : CanonicalOut (execCutMarker n s) := by
  unfold Machine.execCutMarker
  dsimp only
  split
  · exact hs
  · split
    · exact hs.takeOut
    · split
      · exact hs.takeOut
      · split
        · exact hs.takeOut.markWave
        · exact hs.takeOut.cutJob.markWave

theorem Canonical.execResumeMarker {n} (hs : Canonical s) : CanonicalOut (execResumeMarker n s) := by
  unfold Machine.execResumeMarker
  dsimp only
  split
  · exact hs
  · split
    · exact hs.takeOut
    · split
      · exact hs.takeOut.resumeJob.markWave
      · split
        · exact hs.takeOut.markWave
        · exact hs.takeOut

theorem Canonical.execSweepReport {n} (hs : Canonical s) : CanonicalOut (execSweepReport n s) := by
  unfold Machine.execSweepReport
  dsimp only
  split
  · exact hs
  · split
    · exact hs.takeOut
    · exact hs.takeOut.takeReport

/-! ### Machine/Hub.lean -/

theorem Canonical.hostAct {ctx f} (hs : Canonical s) (hf : ∀ t, Canonical t → Canonical (f t)) : CanonicalOut (hostAct ctx f s) :=
  by
  unfold Machine.hostAct
  split
  · exact hf _ hs.wake
  · exact hs.wake

theorem Canonical.hostWrite {bus bs} (hs : Canonical s) : CanonicalOpt (hostWrite s bus bs) := by
  unfold Machine.hostWrite
  split
  · exact hs.writeMem
  · exact trivial

theorem Canonical.execSubmissionTail {ctx val} (hs : Canonical s) : CanonicalOut (execSubmissionTail ctx val s) :=
  hs.hostAct fun _ h1 => h1.setCtx

theorem Canonical.writeHeld {ctx bs} (hs : Canonical s) : Canonical (writeHeld s ctx bs) := by
  induction bs generalizing s with
  | nil => exact hs.setCtx
  | cons b r ih => exact .ite hs.setCtx (ih hs.ringPut.setCtx.raiseMsix)

theorem Canonical.execCompletionHead {ctx val} (hs : Canonical s) : CanonicalOut (execCompletionHead ctx val s) :=
  hs.hostAct fun _ h1 => h1.setCtx.writeHeld

theorem Canonical.writeHeldFaults {ctx bs} (hs : Canonical s) : Canonical (writeHeldFaults s ctx bs) := by
  induction bs generalizing s with
  | nil => exact hs.setCtx
  | cons b r ih => exact .ite hs.setCtx (ih hs.ringPut.setCtx.raiseMsix)

theorem Canonical.execFaultHead {ctx val} (hs : Canonical s) : CanonicalOut (execFaultHead ctx val s) :=
  hs.hostAct fun _ h1 => h1.setCtx.writeHeldFaults

theorem Canonical.finishPacket {ctx bs status} (hs : Canonical s) : Canonical (finishPacket s ctx bs status) :=
  .ite hs.setCtx.postCompletion hs.setCtx

theorem Canonical.withPacket {ctx idx typ go} (hs : Canonical s) (hgo : ∀ bs, CanonicalOut (go bs)) :
    CanonicalOut (withPacket ctx idx typ s go) := by
  unfold Machine.withPacket
  split
  · exact hs
  · split
    · exact hgo _
    · exact hs

theorem Canonical.execInvalidPacket {ctx idx} (hs : Canonical s) : CanonicalOut (execInvalidPacket ctx idx s) := by
  unfold Machine.execInvalidPacket
  split
  · exact hs
  · split
    · exact hs.finishPacket
    · exact hs

theorem Canonical.enqueueBatch {qs} (hs : Canonical s) : Canonical (enqueueBatch s qs) := hs.setCluster

theorem Canonical.execLaunchPacket {ctx idx} (hs : Canonical s) : CanonicalOut (execLaunchPacket ctx idx s) := by
  unfold Machine.execLaunchPacket
  dsimp only
  refine hs.withPacket fun _ => ?_
  split
  · exact hs.finishPacket
  · split
    · exact hs.finishPacket
    · split
      · exact hs.gated fun _ h1 => h1.enqueueBatch.finishPacket
      · split
        · exact hs.gated fun _ h1 => h1.finishPacket
        · exact hs

theorem Canonical.execEvent {ctx idx} (hs : Canonical s) : CanonicalOut (execEvent ctx idx s) :=
  hs.withPacket fun _ => hs.eventChange.finishPacket

theorem Canonical.execEvwaitPacket {ctx idx} (hs : Canonical s) : CanonicalOut (execEvwaitPacket ctx idx s) := by
  unfold Machine.execEvwaitPacket
  refine hs.withPacket fun _ => ?_
  split
  · exact hs.finishPacket
  · exact hs

/-! ### Machine/Debug.lean -/

theorem Canonical.debugPacket {ctx idx op done} (hs : Canonical s) (hdone : ∀ d, CanonicalDone (done d)) :
    CanonicalOut (debugPacket ctx idx op s done) := by
  refine hs.withPacket fun bs => ?_
  dsimp only
  split
  · split
    · next t n hd => exact ((hdone _).of_some hd).finishPacket
    · exact hs
  · exact hs

theorem Canonical.elsewhere (hs : Canonical s) : Canonical (elsewhere s).1 := ⟨hs.mem, hs.spad⟩

theorem Canonical.resumeSlot {k edits limit} (hs : Canonical s) : Canonical (resumeSlot s k edits limit) := by
  unfold Machine.resumeSlot
  split
  · exact hs
  · extract_lets s1 x s2
    have h1 : Canonical s1 := .ite hs.reloadImage hs
    have h2 : Canonical s2 := h1.unstop.thawCore.foldl fun _ _ ht => ht.applyReport
    exact .ite h2.debugNotice (.ite h2.debugNotice h2)

theorem Canonical.resumeAll {c limit} (hs : Canonical s) : Canonical (resumeAll s c limit) := by
  unfold Machine.resumeAll
  extract_lets one
  have hone : ∀ t k, Canonical t → Canonical (one t k) := fun _ _ ht => .ite ht.resumeSlot ht
  exact hone _ 1 (hone s 0 hs)

theorem Canonical.execAttach {ctx idx} (hs : Canonical s) : CanonicalOut (execAttach ctx idx s) :=
  hs.debugPacket fun _ => hs.setCtx

theorem Canonical.execDetach {ctx idx} (hs : Canonical s) : CanonicalOut (execDetach ctx idx s) :=
  hs.debugPacket fun _ => hs.resumeAll.setCtx

theorem Canonical.endSession {c} (hs : Canonical s) : Canonical (endSession s c) := hs.setCtx

theorem Canonical.breakStop {k} (hs : Canonical s) : Canonical (breakStop s k) := by
  unfold Machine.breakStop
  dsimp only
  split
  · next e3 => exact hs.setSlot.debugStop.of_some e3
  · exact hs.setSlot.endSession

theorem Canonical.execStop {ctx idx} (hs : Canonical s) : CanonicalOut (execStop ctx idx s) := by
  unfold Machine.execStop
  dsimp only
  refine hs.debugPacket fun _ => ?_
  split
  · exact hs.elsewhere
  · split
    · exact hs
    · split
      · exact hs
      · split
        · exact trivial
        · split
          · exact hs.breakStop
          · split
            · next e8 => exact hs.setSlot.debugStop.of_some e8
            · exact hs.setSlot.endSession

theorem Canonical.execResume {ctx idx} (hs : Canonical s) : CanonicalOut (execResume ctx idx s) := by
  unfold Machine.execResume
  refine hs.debugPacket fun _ => ?_
  split
  · exact hs.elsewhere
  · split
    · exact hs.resumeSlot
    · exact hs

theorem Canonical.execDebugBreak {ctx idx} (hs : Canonical s) : CanonicalOut (execDebugBreak ctx idx s) := by
  unfold Machine.execDebugBreak
  dsimp only
  refine hs.debugPacket fun _ => ?_
  split
  · exact hs.setSlot
  · exact hs.elsewhere

theorem Canonical.execBreakpoint {slot} (hs : Canonical s) : CanonicalOut (execBreakpoint slot s) := Canonical.ite hs.breakStop hs

theorem Canonical.execFreezeLimit {ctx} (hs : Canonical s) : CanonicalOut (execFreezeLimit ctx s) := Canonical.ite hs.resumeAll hs

theorem Canonical.execDebugRead {ctx idx} (hs : Canonical s) : CanonicalOut (execDebugRead ctx idx s) := by
  refine hs.debugPacket fun d => ?_
  extract_lets n e
  have he : Canonical e.1 := hs.elsewhere
  split
  · exact hs
  · split
    · split
      · have hw : Canonical { e.1 with fresh := e.1.fresh + n } := ⟨he.mem, he.spad⟩
        exact hw.hostWrite.getD he
      · exact he
    · split
      · exact hs
      · split
        · next t ht => exact hs.hostWrite.of_some ht
        · exact hs

theorem Canonical.everyImage {k v f} (hs : Canonical s) : Canonical (everyImage s k v f) := Canonical.of_eq hs.setVoice rfl rfl

theorem Canonical.putStatus {k n x} (hs : Canonical s) : Canonical (putStatus s k n x) := by
  unfold Machine.putStatus
  dsimp only
  split
  · exact hs.everyImage
  · split
    · exact hs.everyImage
    · split
      · exact hs.change
      · exact hs

theorem Canonical.writeStatuses {k off bs} (hs : Canonical s) : Canonical (writeStatuses s k off bs) :=
  hs.foldl fun _ _ h1 => h1.putStatus

theorem Canonical.writeSpace {d off bs} (hs : Canonical s) : CanonicalOpt (writeSpace s d off bs) := by
  unfold Machine.writeSpace
  dsimp only
  split
  · exact hs.writeVirt
  · split
    · exact hs.writeSpad
    · exact trivial
  · split
    · exact hs.writeStatuses
    · exact trivial
  · exact trivial

theorem Canonical.execDebugWrite {ctx idx} (hs : Canonical s) : CanonicalOut (execDebugWrite ctx idx s) := by
  unfold Machine.execDebugWrite
  dsimp only
  refine hs.debugPacket fun _ => ?_
  split
  · exact hs
  · split
    · exact hs.elsewhere
    · split
      · exact hs
      · split
        · next e8 => exact hs.writeSpace.of_some e8
        · exact hs

theorem Canonical.execSample {ctx idx} (hs : Canonical s) : CanonicalOut (execSample ctx idx s) := by
  unfold Machine.execSample
  dsimp only
  refine hs.debugPacket fun _ => ?_
  split
  · exact hs.elsewhere
  · split
    · exact hs.setSlot
    · split
      · exact hs.setSlot
      · exact hs

theorem Canonical.execSampleEmit {slot} (hs : Canonical s) : CanonicalOut (execSampleEmit slot s) := by
  unfold Machine.execSampleEmit
  dsimp only
  split
  · exact hs.setSlot.traceThread
  · exact hs

theorem Canonical.execTrace {ctx idx} (hs : Canonical s) : CanonicalOut (execTrace ctx idx s) := by
  unfold Machine.execTrace
  dsimp only
  refine hs.debugPacket fun _ => ?_
  split
  · exact hs.flushTrace.setCtx
  · split
    · exact hs
    · exact hs.setCtx

theorem Canonical.foldAll {c} (hs : Canonical s) : Canonical (foldAll s c) := by
  unfold Machine.foldAll
  extract_lets one
  have hone : ∀ t k, Canonical t → Canonical (one t k) := fun _ _ ht => .ite ht.foldCounts ht
  exact hone _ 1 (hone s 0 hs)

theorem Canonical.execCounters {ctx idx} (hs : Canonical s) : CanonicalOut (execCounters ctx idx s) := by
  unfold Machine.execCounters
  dsimp only
  refine hs.debugPacket fun _ => ?_
  split
  · next e3 => exact hs.foldAll.hostWrite.of_some e3
  · exact hs.foldAll

theorem Canonical.execReplay {ctx idx} (hs : Canonical s) : CanonicalOut (execReplay ctx idx s) := by
  unfold Machine.execReplay
  dsimp only
  refine hs.debugPacket fun _ => ?_
  split
  · exact hs
  · split
    · exact hs.setReplay.copyBuffers.setReplay
    · exact hs.setReplay.applyWaiting

theorem Canonical.execReplayTimeout {ctx} (hs : Canonical s) : CanonicalOut (execReplayTimeout ctx s) :=
  Canonical.ite hs.endRerun hs

theorem Canonical.execInject {ctx idx} (hs : Canonical s) : CanonicalOut (execInject ctx idx s) := by
  unfold Machine.execInject
  dsimp only
  refine hs.debugPacket fun _ => ?_
  split
  · exact hs
  · split
    · exact hs.elsewhere
    · split
      · exact hs.setSlot
      · exact hs

theorem Canonical.execHostInject {core region} (hs : Canonical s) : CanonicalOut (execHostInject core region s) := by
  unfold Machine.execHostInject
  split
  · exact hs.wake.execStrikeReport
  · exact hs.wake

/-! ### Machine/Boot.lean -/

theorem Canonical.unpowered (hs : Canonical s) : Canonical (unpowered s) := ⟨mwf_filter 0 hs.mem _, rfl⟩

theorem Canonical.boot (hs : Canonical s) : Canonical (boot s) := ⟨hs.mem, hs.spad⟩

theorem Canonical.execPowerOn (hs : Canonical s) : CanonicalOut (execPowerOn s) := by
  unfold Machine.execPowerOn
  split
  · exact hs.unpowered.boot
  · exact hs

theorem Canonical.execReboot {image} (hs : Canonical s) : CanonicalOut (execReboot image s) := by
  unfold Machine.execReboot
  have h1 := hs.unpowered
  split
  · exact Canonical.boot ⟨h1.mem, h1.spad⟩
  · exact hs

theorem Canonical.execPowerOff (hs : Canonical s) : CanonicalOut (execPowerOff s) := hs.unpowered

theorem Canonical.execPackageIdleRequest (hs : Canonical s) : CanonicalOut (execPackageIdleRequest s) := by
  unfold Machine.execPackageIdleRequest
  dsimp only
  split
  · exact ⟨hs.mem, hs.spad⟩
  · exact hs

theorem Canonical.execPowerLimit {watts} (hs : Canonical s) : CanonicalOut (execPowerLimit watts s) := by
  unfold Machine.execPowerLimit
  have h1 := hs.wake
  split
  · exact ⟨h1.mem, h1.spad⟩
  · exact h1

theorem Canonical.readBar0 {off} (hs : Canonical s) : Canonical (readBar0 s off) := .ite ⟨hs.mem, hs.spad⟩ hs

theorem Canonical.execBar0RegisterWrite {off val} (hs : Canonical s) : CanonicalOut (execBar0RegisterWrite off val s) := by
  unfold Machine.execBar0RegisterWrite
  have h1 := hs.wake
  split
  · exact ⟨h1.mem, h1.spad⟩
  · exact h1

theorem Canonical.stopRelease {old u} (hu : Canonical u) : Canonical (stopRelease old u) := ⟨hu.mem, hu.spad⟩

theorem Canonical.withRelease {w} (hs : Canonical s) : Canonical { s with pkg := { s.pkg with coreRelease := w } } :=
  ⟨hs.mem, hs.spad⟩

theorem Canonical.execCoreRelease {core} (hs : Canonical s) : CanonicalOut (execCoreRelease core s) := by
  unfold Machine.execCoreRelease
  split
  · dsimp only
    split
    · split
      · exact (hs.wake.releaseCore.withRelease).stopRelease
      · exact hs.wake.releaseCore.withRelease
    · exact hs.wake.withRelease
  · exact hs.wake

theorem Canonical.spdmFixed {version code body} (hs : Canonical s) : CanonicalOut (spdmFixed s version code body) := by
  unfold Machine.spdmFixed
  dsimp only
  split
  · exact ⟨hs.mem, hs.spad⟩
  · exact hs

theorem Canonical.spdmReply {code body} (hs : Canonical s) : CanonicalOut (spdmReply s code body) :=
  Canonical.spdmFixed (Canonical.ite ⟨hs.mem, hs.spad⟩ hs)

theorem Canonical.execGetVersion {msg} (hs : Canonical s) : CanonicalOut (execGetVersion msg s) := hs.spdmFixed

theorem Canonical.execGetCapabilities {msg} (hs : Canonical s) : CanonicalOut (execGetCapabilities msg s) := hs.spdmReply

theorem Canonical.execNegotiateAlgorithms {msg} (hs : Canonical s) : CanonicalOut (execNegotiateAlgorithms msg s) :=
  Canonical.spdmFixed (Canonical.ite ⟨hs.mem, hs.spad⟩ hs)

theorem Canonical.execGetDigests {msg} (hs : Canonical s) : CanonicalOut (execGetDigests msg s) := hs.spdmFixed

theorem Canonical.execGetCertificate {msg} (hs : Canonical s) : CanonicalOut (execGetCertificate msg s) := hs.spdmFixed

theorem Canonical.execChallenge {msg} (hs : Canonical s) : CanonicalOut (execChallenge msg s) := hs.spdmReply

theorem Canonical.execGetMeasurements {msg} (hs : Canonical s) : CanonicalOut (execGetMeasurements msg s) := hs.spdmReply

theorem Canonical.execUnsupportedRequest {msg} (hs : Canonical s) : CanonicalOut (execUnsupportedRequest msg s) := hs.spdmFixed

theorem Canonical.setLimits {n slice drain freeze} (hs : Canonical s) : Canonical (setLimits s n slice drain freeze) :=
  .ite hs.wake hs.wake.setCtx

theorem Canonical.setJobEntry {k d} (hs : Canonical s) : Canonical (setJobEntry s k d) := by
  unfold Machine.setJobEntry
  split
  · extract_lets t old u
    have hu : Canonical u := hs.wake.setJob
    exact ⟨hu.mem, hu.spad⟩
  · exact hs.wake

theorem Canonical.assignCluster {n} (hs : Canonical s) : Canonical (assignCluster s n) := ⟨memWf_mclear hs.mem _ _, hs.spad⟩

theorem Canonical.execContextCreation {d} (hs : Canonical s) : CanonicalOut (execContextCreation d s) := by
  unfold Machine.execContextCreation
  dsimp only
  split
  · exact hs.wake
  · split
    · exact trivial
    · split
      · exact trivial
      · split
        · exact trivial
        · exact Canonical.ite hs.wake.setCtx.assignCluster hs.wake.setCtx

/-! ### Machine/DevMem.lean -/

theorem Canonical.withDev {h a ea n q go} (hs : Canonical s) (hgo : ∀ ps t, Canonical t → CanonicalRes (go ps t)) :
    CanonicalRes (withDev h a ea n q s go) := by
  unfold Machine.withDev
  dsimp only
  split
  · next u ps hu =>
    split
    · exact hs
    · split
      · exact hs
      · split
        · exact hs
        · split
          · exact hs
          · exact hgo _ u (hs.translate.of_pair hu)
  · split
    · exact hs
    · exact hs
  · split
    · exact hs
    · exact hs.machineCheck

theorem Canonical.sendLoad {h key x ps} (hs : Canonical s) : Canonical (sendLoad h key x ps s) :=
  hs.addDeps.bumpId.changeAt.setSlot

theorem Canonical.loadWord {sb p k b z o imm acquire} (hs : Canonical s) : CanonicalOut (loadWord sb p k b z o imm acquire s) :=
  by
  unfold Machine.loadWord
  dsimp only
  refine hs.word fun x1 x2 ht28 => ?_
  refine Canonical.withDev ht28 ?_
  intro x1 x2 ht26
  split
  · exact ht28
  · exact ht26.withWrites fun _ h1 => h1.sendLoad

theorem Canonical.execLdg {sb p k b z o imm} (hs : Canonical s) : CanonicalOut (execLdg sb p k b z o imm s) := hs.loadWord

theorem Canonical.execLda {sb p k b z o imm} (hs : Canonical s) : CanonicalOut (execLda sb p k b z o imm s) := hs.loadWord

theorem Canonical.holdDev {h asid rel bs ps} (hs : Canonical s) : Canonical (holdDev h asid rel bs s ps) := by
  induction ps generalizing s bs with
  | nil => exact hs
  | cons p r ih => exact ih hs.hold

theorem Canonical.storeWord {sb p d b z o imm rel} (hs : Canonical s) : CanonicalOut (storeWord sb p d b z o imm rel s) :=
  hs.word fun _ _ h1 => h1.withDev fun _ _ h2 => h2.withWrites fun _ h3 => h3.holdDev

theorem Canonical.execStg {sb p d b z o imm} (hs : Canonical s) : CanonicalOut (execStg sb p d b z o imm s) := hs.storeWord

theorem Canonical.execStl {sb p d b z o imm} (hs : Canonical s) : CanonicalOut (execStl sb p d b z o imm s) := hs.storeWord

theorem Canonical.sendFill {h q x ps} (hs : Canonical s) : Canonical (sendFill h q x ps s) := hs.addDeps.reserveEntry.setSlot

theorem Canonical.execLdgq {sb p q b o imm} (hs : Canonical s) : CanonicalOut (execLdgq sb p q b o imm s) := by
  unfold Machine.execLdgq
  dsimp only
  refine hs.word fun x1 x2 ht28 => ?_
  split
  · exact ht28
  · refine Canonical.withDev ht28 ?_
    intro x1 x2 ht25
    split
    · exact ht28
    · exact ht28
    · exact ht25.withWrites fun _ h1 => h1
    · exact ht25.withWrites fun _ h1 => h1.sendFill

theorem Canonical.execStgq {sb p q b o imm} (hs : Canonical s) : CanonicalOut (execStgq sb p q b o imm s) := by
  unfold Machine.execStgq
  dsimp only
  refine hs.word fun _ _ ht28 => ?_
  split
  · split <;> exact ht28
  · split
    · exact ht28
    · exact ht28.withDev fun _ _ h1 => h1.withPops fun _ => h1.withWrites fun _ h2 => h2.popQueue.holdDev

theorem Canonical.startWalk {k va} (hs : Canonical s) : Canonical (startWalk s k va) :=
  .ite hs (Canonical.bumpId ⟨hs.mem, hs.spad⟩)

theorem Canonical.execPfg {sb p b o imm} (hs : Canonical s) : CanonicalOut (execPfg sb p b o imm s) :=
  hs.word fun _ _ h1 => h1.recordWrites.startWalk

theorem Canonical.addFence {k f} (hs : Canonical s) : Canonical (addFence s k f) := hs.setSlot

theorem Canonical.execFence {sb p d a b} (hs : Canonical s) : CanonicalOut (execFence sb p d a b s) := by
  unfold Machine.execFence
  refine hs.word fun _ _ ht28 => ?_
  split
  · exact ht28
  · split
    · exact ht28
    · exact ht28.withFlip fun _ h1 => Canonical.ite h1 h1.addFence

theorem Canonical.execPubg {sb p a} (hs : Canonical s) : CanonicalOut (execPubg sb p a s) := by
  unfold Machine.execPubg
  dsimp only
  refine hs.word fun _ _ ht28 => ?_
  split
  · exact ht28
  · exact ht28.hold

theorem Canonical.execTlbinv {sb p a b} (hs : Canonical s) : CanonicalOut (execTlbinv sb p a b s) :=
  hs.privWord fun _ _ h1 => h1.hold

theorem Canonical.execTlbsync {sb p d} (hs : Canonical s) : CanonicalOut (execTlbsync sb p d s) := by
  unfold Machine.execTlbsync
  dsimp only
  refine hs.privWord fun _ _ ht28 => ?_
  split
  · exact ht28.withFlip fun _ h1 => h1.startWait
  · split
    · exact ht28
    · exact ht28.endWait

/-! ### Machine/EngineWords.lean -/

theorem Canonical.engWord {sb p body} (hs : Canonical s) (hbody : ∀ h t, Canonical t → CanonicalRes (body h t)) :
    CanonicalOut (engWord sb p body s) := hs.word hbody

theorem Canonical.mendTemplate {k key} (hs : Canonical s) : Canonical (mendTemplate s k key) := .ite hs ⟨hs.mem, hs.spad⟩

theorem Canonical.tplWord {sb p eng t a tlo} (hs : Canonical s) : CanonicalOut (tplWord sb p eng t a tlo s) := by
  unfold Machine.tplWord
  dsimp only
  refine Canonical.engWord hs ?_
  intro x1 x2 ht28
  split
  · exact ht28
  · split
    · exact ht28
    · refine Canonical.withSpadLoad ht28 ?_
      intro x1 x2 ht24
      split
      · exact ht24.mendTemplate.changeAt
      · exact ht28

theorem Canonical.execTplC {sb p t a tlo} (hs : Canonical s) : CanonicalOut (execTplC sb p t a tlo s) := hs.tplWord

theorem Canonical.execTplA {sb p t a tlo} (hs : Canonical s) : CanonicalOut (execTplA sb p t a tlo s) := hs.tplWord

theorem Canonical.execTplS {sb p t a tlo} (hs : Canonical s) : CanonicalOut (execTplS sb p t a tlo s) := hs.tplWord

theorem Canonical.patWord {sb eng t f v} (hs : Canonical s) : CanonicalOut (patWord sb eng t f v s) :=
  hs.issue fun _ _ h1 => h1.changeAt

theorem Canonical.execPatC {sb t f v} (hs : Canonical s) : CanonicalOut (execPatC sb t f v s) := hs.patWord

theorem Canonical.execPatA {sb t f v} (hs : Canonical s) : CanonicalOut (execPatA sb t f v s) := hs.patWord

theorem Canonical.execPatS {sb t f v} (hs : Canonical s) : CanonicalOut (execPatS sb t f v s) := hs.patWord

theorem Canonical.pisWord {sb eng t f v} (hs : Canonical s) : CanonicalOut (pisWord sb eng t f v s) := by
  unfold Machine.pisWord
  dsimp only
  refine hs.issue fun _ _ ht28 => ?_
  split
  · exact ht28
  · split
    · exact ht28.changeAt
    · split
      · exact ht28.machineCheck
      · exact ht28.changeAt.addDeps.enqueueCmd

theorem Canonical.execPisC {sb t f v} (hs : Canonical s) : CanonicalOut (execPisC sb t f v s) := hs.pisWord

theorem Canonical.execPisA {sb t f v} (hs : Canonical s) : CanonicalOut (execPisA sb t f v s) := hs.pisWord

theorem Canonical.execPisS {sb t f v} (hs : Canonical s) : CanonicalOut (execPisS sb t f v s) := hs.pisWord

theorem Canonical.noteConsumed {ids} (hs : Canonical s) : Canonical (noteConsumed s ids) := Canonical.bumpId ⟨hs.mem, hs.spad⟩

theorem Canonical.execCwait {sb p k n} (hs : Canonical s) : CanonicalOut (execCwait sb p k n s) := by
  unfold Machine.execCwait
  dsimp only
  refine Canonical.engWord hs ?_
  intro x1 x2 ht28
  split
  · exact ht28
  · split
    · exact ht28
    · exact ht28.changeAt.noteConsumed

theorem Canonical.execCdisc {sb p k n} (hs : Canonical s) : CanonicalOut (execCdisc sb p k n s) :=
  hs.engWord fun _ _ h1 => h1.changeAt

theorem Canonical.execCrd {sb p d k} (hs : Canonical s) : CanonicalOut (execCrd sb p d k s) :=
  hs.engWord fun _ _ h1 => h1.withWrites fun _ h2 => Canonical.ite h2.changeAt h2

theorem Canonical.retireTails {k ring} (hs : Canonical s) : Canonical (retireTails s k ring) := ⟨hs.mem, hs.spad⟩

theorem Canonical.execRngset {sb p k a b} (hs : Canonical s) : CanonicalOut (execRngset sb p k a b s) := by
  unfold Machine.execRngset
  dsimp only
  refine Canonical.engWord hs ?_
  intro x1 x2 ht28
  split
  · exact ht28
  · split
    · exact ht28
    · exact ht28.retireTails.changeAt

theorem Canonical.execRngrd {sb p d k} (hs : Canonical s) : CanonicalOut (execRngrd sb p d k s) :=
  hs.engWord fun _ _ h1 => h1.writeOne

theorem Canonical.execPublish {sb p k} (hs : Canonical s) : CanonicalOut (execPublish sb p k s) := by
  unfold Machine.execPublish
  refine Canonical.engWord hs ?_
  intro x1 x2 ht28
  split
  · exact ht28.hold
  · exact ht28

theorem Canonical.execKset {sb p k a} (hs : Canonical s) : CanonicalOut (execKset sb p k a s) := by
  unfold Machine.execKset
  dsimp only
  refine Canonical.engWord hs ?_
  intro x1 x2 ht28
  split
  · exact ht28.changeAt
  · exact ht28

theorem Canonical.execKrd {sb p d k} (hs : Canonical s) : CanonicalOut (execKrd sb p d k s) :=
  hs.engWord fun _ _ h1 => h1.writeOne

theorem Canonical.execKatcmp {sb p k a} (hs : Canonical s) : CanonicalOut (execKatcmp sb p k a s) := by
  unfold Machine.execKatcmp
  dsimp only
  refine Canonical.engWord hs ?_
  intro x1 x2 ht28
  split
  · exact ht28
  · split
    · exact ht28.changeAt
    · exact ht28.silentError

/-! ### Machine/MemEvents.lean -/

theorem Canonical.execWalkComplete {n} (hs : Canonical s) : CanonicalOut (execWalkComplete n s) := by
  unfold Machine.execWalkComplete
  dsimp only
  split
  · exact hs
  · exact Canonical.fillData ⟨hs.mem, hs.spad⟩

theorem Canonical.execInvalidationAck {n} (hs : Canonical s) : CanonicalOut (execInvalidationAck n s) := by
  unfold Machine.execInvalidationAck
  dsimp only
  split
  · exact hs
  · split
    · exact ⟨hs.mem, hs.spad⟩
    · exact hs

theorem Canonical.execInvalidationHoldTimeout {slot} (hs : Canonical s) : CanonicalOut (execInvalidationHoldTimeout slot s) :=
  Canonical.ite hs.preemptSlot hs

theorem Canonical.execPubgToggle {n} (hs : Canonical s) : CanonicalOut (execPubgToggle n s) := by
  unfold Machine.execPubgToggle
  split
  · exact hs
  · split
    · split
      · exact hs.setCtx.dropItem.settle
      · exact hs
    · exact hs

theorem Canonical.performIf {rel n} (hs : Canonical s) : CanonicalOut (performIf rel n s) := by
  unfold Machine.performIf
  split
  · exact hs
  · split
    · exact hs.performItem.settle
    · exact hs

theorem Canonical.execStorePerformed {n} (hs : Canonical s) : CanonicalOut (execStorePerformed n s) := hs.performIf

theorem Canonical.execReleasePerformed {n} (hs : Canonical s) : CanonicalOut (execReleasePerformed n s) := hs.performIf

/-! ### Machine/Scalar.lean -/

theorem Canonical.scalarWord {sb p d lat f} (hs : Canonical s) : CanonicalOut (scalarWord sb p d lat f s) :=
  hs.word fun _ _ h1 => h1.writeOne

theorem Canonical.predWord {sb p d f} (hs : Canonical s) : CanonicalOut (predWord sb p d f s) := hs.word fun _ _ h1 => h1.writeOne

theorem Canonical.upperWord {sb d f} (hs : Canonical s) : CanonicalOut (upperWord sb d f s) := hs.issue fun _ _ h1 => h1.writeOne

theorem Canonical.execLui {sb d imm} (hs : Canonical s) : CanonicalOut (execLui sb d imm s) := hs.upperWord

theorem Canonical.execLapc {sb d imm} (hs : Canonical s) : CanonicalOut (execLapc sb d imm s) := hs.upperWord

theorem Canonical.execAddi {sb p d a imm} (hs : Canonical s) : CanonicalOut (execAddi sb p d a imm s) := hs.scalarWord

theorem Canonical.execAndi {sb p d a imm} (hs : Canonical s) : CanonicalOut (execAndi sb p d a imm s) := hs.scalarWord

theorem Canonical.execOri {sb p d a imm} (hs : Canonical s) : CanonicalOut (execOri sb p d a imm s) := hs.scalarWord

theorem Canonical.execXori {sb p d a imm} (hs : Canonical s) : CanonicalOut (execXori sb p d a imm s) := hs.scalarWord

theorem Canonical.execShli {sb p d a n} (hs : Canonical s) : CanonicalOut (execShli sb p d a n s) := hs.scalarWord

theorem Canonical.execShri {sb p d a n} (hs : Canonical s) : CanonicalOut (execShri sb p d a n s) := hs.scalarWord

theorem Canonical.execSrai {sb p d a n} (hs : Canonical s) : CanonicalOut (execSrai sb p d a n s) := hs.scalarWord

theorem Canonical.execRoli {sb p d a n} (hs : Canonical s) : CanonicalOut (execRoli sb p d a n s) := hs.scalarWord

theorem Canonical.execCmpeqi {sb p d a imm} (hs : Canonical s) : CanonicalOut (execCmpeqi sb p d a imm s) := hs.predWord

theorem Canonical.execCmplti {sb p d a imm} (hs : Canonical s) : CanonicalOut (execCmplti sb p d a imm s) := hs.predWord

theorem Canonical.execCmpltni {sb p d a imm} (hs : Canonical s) : CanonicalOut (execCmpltni sb p d a imm s) := hs.predWord

theorem Canonical.execAdd {sb p d a b} (hs : Canonical s) : CanonicalOut (execAdd sb p d a b s) := hs.scalarWord

theorem Canonical.execSub {sb p d a b} (hs : Canonical s) : CanonicalOut (execSub sb p d a b s) := hs.scalarWord

theorem Canonical.execAnd {sb p d a b} (hs : Canonical s) : CanonicalOut (execAnd sb p d a b s) := hs.scalarWord

theorem Canonical.execOr {sb p d a b} (hs : Canonical s) : CanonicalOut (execOr sb p d a b s) := hs.scalarWord

theorem Canonical.execXor {sb p d a b} (hs : Canonical s) : CanonicalOut (execXor sb p d a b s) := hs.scalarWord

theorem Canonical.execAndn {sb p d a b} (hs : Canonical s) : CanonicalOut (execAndn sb p d a b s) := hs.scalarWord

theorem Canonical.execShl {sb p d a b} (hs : Canonical s) : CanonicalOut (execShl sb p d a b s) := hs.scalarWord

theorem Canonical.execShr {sb p d a b} (hs : Canonical s) : CanonicalOut (execShr sb p d a b s) := hs.scalarWord

theorem Canonical.execSra {sb p d a b} (hs : Canonical s) : CanonicalOut (execSra sb p d a b s) := hs.scalarWord

theorem Canonical.execRol {sb p d a b} (hs : Canonical s) : CanonicalOut (execRol sb p d a b s) := hs.scalarWord

theorem Canonical.execMin {sb p d a b} (hs : Canonical s) : CanonicalOut (execMin sb p d a b s) := hs.scalarWord

theorem Canonical.execMax {sb p d a b} (hs : Canonical s) : CanonicalOut (execMax sb p d a b s) := hs.scalarWord

theorem Canonical.execMinn {sb p d a b} (hs : Canonical s) : CanonicalOut (execMinn sb p d a b s) := hs.scalarWord

theorem Canonical.execMaxn {sb p d a b} (hs : Canonical s) : CanonicalOut (execMaxn sb p d a b s) := hs.scalarWord

theorem Canonical.execMul {sb p d a b} (hs : Canonical s) : CanonicalOut (execMul sb p d a b s) := hs.scalarWord

theorem Canonical.execMulh {sb p d a b} (hs : Canonical s) : CanonicalOut (execMulh sb p d a b s) := hs.scalarWord

theorem Canonical.execMulhn {sb p d a b} (hs : Canonical s) : CanonicalOut (execMulhn sb p d a b s) := hs.scalarWord

theorem Canonical.execClz {sb p d a} (hs : Canonical s) : CanonicalOut (execClz sb p d a s) := hs.scalarWord

theorem Canonical.execPopc {sb p d a} (hs : Canonical s) : CanonicalOut (execPopc sb p d a s) := hs.scalarWord

theorem Canonical.execSext {sb p d a w} (hs : Canonical s) : CanonicalOut (execSext sb p d a w s) := hs.scalarWord

theorem Canonical.execZext {sb p d a w} (hs : Canonical s) : CanonicalOut (execZext sb p d a w s) := hs.scalarWord

theorem Canonical.execSel {sb k d a b} (hs : Canonical s) : CanonicalOut (execSel sb k d a b s) :=
  hs.issue fun _ _ h1 => h1.writeOne

theorem Canonical.execCmpeq {sb p d a b} (hs : Canonical s) : CanonicalOut (execCmpeq sb p d a b s) := hs.predWord

theorem Canonical.execCmpne {sb p d a b} (hs : Canonical s) : CanonicalOut (execCmpne sb p d a b s) := hs.predWord

theorem Canonical.execCmplt {sb p d a b} (hs : Canonical s) : CanonicalOut (execCmplt sb p d a b s) := hs.predWord

theorem Canonical.execCmple {sb p d a b} (hs : Canonical s) : CanonicalOut (execCmple sb p d a b s) := hs.predWord

theorem Canonical.execCmpltn {sb p d a b} (hs : Canonical s) : CanonicalOut (execCmpltn sb p d a b s) := hs.predWord

theorem Canonical.execCmplen {sb p d a b} (hs : Canonical s) : CanonicalOut (execCmplen sb p d a b s) := hs.predWord

theorem Canonical.execPand {sb p d a b} (hs : Canonical s) : CanonicalOut (execPand sb p d a b s) := hs.predWord

theorem Canonical.execPor {sb p d a b} (hs : Canonical s) : CanonicalOut (execPor sb p d a b s) := hs.predWord

theorem Canonical.execPxor {sb p d a b} (hs : Canonical s) : CanonicalOut (execPxor sb p d a b s) := hs.predWord

theorem Canonical.execPnot {sb p d a} (hs : Canonical s) : CanonicalOut (execPnot sb p d a s) := hs.predWord

/-! ### Machine/Dispatch.lean -/

theorem Canonical.exec {i} (hs : Canonical s) : CanonicalOut (exec i s) := by
  cases i with
  | lui => exact hs.execLui
  | lapc => exact hs.execLapc
  | addi => exact hs.execAddi
  | andi => exact hs.execAndi
  | ori => exact hs.execOri
  | xori => exact hs.execXori
  | shli => exact hs.execShli
  | shri => exact hs.execShri
  | srai => exact hs.execSrai
  | roli => exact hs.execRoli
  | cmpeqi => exact hs.execCmpeqi
  | cmplti => exact hs.execCmplti
  | cmpltni => exact hs.execCmpltni
  | add => exact hs.execAdd
  | sub => exact hs.execSub
  | and => exact hs.execAnd
  | or => exact hs.execOr
  | xor => exact hs.execXor
  | andn => exact hs.execAndn
  | shl => exact hs.execShl
  | shr => exact hs.execShr
  | sra => exact hs.execSra
  | rol => exact hs.execRol
  | min => exact hs.execMin
  | max => exact hs.execMax
  | minn => exact hs.execMinn
  | maxn => exact hs.execMaxn
  | mul => exact hs.execMul
  | mulh => exact hs.execMulh
  | mulhn => exact hs.execMulhn
  | clz => exact hs.execClz
  | popc => exact hs.execPopc
  | sext => exact hs.execSext
  | zext => exact hs.execZext
  | sel => exact hs.execSel
  | cmpeq => exact hs.execCmpeq
  | cmpne => exact hs.execCmpne
  | cmplt => exact hs.execCmplt
  | cmple => exact hs.execCmple
  | cmpltn => exact hs.execCmpltn
  | cmplen => exact hs.execCmplen
  | pand => exact hs.execPand
  | por => exact hs.execPor
  | pxor => exact hs.execPxor
  | pnot => exact hs.execPnot
  | br => exact hs.execBr
  | brn => exact hs.execBrn
  | brt => exact hs.execBrt
  | call => exact hs.execCall
  | jr => exact hs.execJr
  | jtb => exact hs.execJtb
  | loop => exact hs.execLoop
  | flip => exact hs.execFlip
  | rdh => exact hs.execRdh
  | spost => exact hs.execSpost
  | swait => exact hs.execSwait
  | bqput => exact hs.execBqput
  | nop => exact hs.execNop
  | exit => exact hs.execExit
  | bqbr => exact hs.execBqbr
  | bqbrn => exact hs.execBqbrn
  | bqbrt => exact hs.execBqbrt
  | trap _ _ c => exact hs.execTrap (c := c)
  | eret => exact hs.execEret
  | srd => exact hs.execSrd
  | swr => exact hs.execSwr
  | brk sb x => exact hs.execBrk (sb := sb) (x := x)
  | lds => exact hs.execLds
  | sts => exact hs.execSts
  | ldq => exact hs.execLdq
  | stq => exact hs.execStq
  | qpush => exact hs.execQpush
  | qpushSq => exact hs.execQpushSq
  | sbind => exact hs.execSbind
  | sunbind => exact hs.execSunbind
  | spos => exact hs.execSpos
  | lbqry => exact hs.execLbqry
  | commit => exact hs.execCommit
  | vaddI32 | vsubI32 | vmulI32 | vmulhI32 | vmulhnI32 | vminI32 | vmaxI32 | vminnI32 | vmaxnI32 | vandI32 | vorI32
    | vxorI32 | vshlI32 | vshrI32 | vsraI32 => exact hs.vecWord
  | vcmpeqI32 | vcmpltI32 | vcmpltnI32 => exact hs.vecToReg
  | vsel | vaddF32 | vsubF32 | vmulF32 | vminF32 | vmaxF32 | vabsF32 | vnegF32 => exact hs.vecWord
  | vcmpeqF32 | vcmpltF32 | vcmpleF32 => exact hs.vecToReg
  | vaddF16 | vsubF16 | vmulF16 | vminF16 | vmaxF16 | vabsF16 | vnegF16 => exact hs.vecWord
  | vcmpeqF16 | vcmpltF16 | vcmpleF16 => exact hs.vecToReg
  | vaddBf16 | vsubBf16 | vmulBf16 | vminBf16 | vmaxBf16 | vabsBf16 | vnegBf16 => exact hs.vecWord
  | vcmpeqBf16 | vcmpltBf16 | vcmpleBf16 => exact hs.vecToReg
  | vfmaF32 | vfmsF32 | vfmaBf16 | vfmaF16 | vcvtF32I32 | vcvtI32F32 | vcvtF32F16 | vcvtF32Bf16 | vcvtF16F32
    | vcvtBf16F32 | vcvtF32E4m3 | vcvtF32E5m2 | vcvtE4m3F32 | vcvtE5m2F32 | vpackB4 | vunpackB4 | vperm | vrot | vbcast => exact hs.vecWord
  | vredadd | vredmax | viredadd => exact hs.vecToReg
  | vbspl => exact hs.vecWord
  | patC => exact hs.execPatC
  | pisC => exact hs.execPisC
  | patA => exact hs.execPatA
  | pisA => exact hs.execPisA
  | patS => exact hs.execPatS
  | pisS => exact hs.execPisS
  | tplC => exact hs.execTplC
  | tplA => exact hs.execTplA
  | tplS => exact hs.execTplS
  | cwait => exact hs.execCwait
  | cdisc => exact hs.execCdisc
  | crd => exact hs.execCrd
  | rngset => exact hs.execRngset
  | rngrd => exact hs.execRngrd
  | publish => exact hs.execPublish
  | kset => exact hs.execKset
  | krd => exact hs.execKrd
  | katcmp => exact hs.execKatcmp
  | join => exact hs.execJoin
  | leave => exact hs.execLeave
  | grpq => exact hs.execGrpq
  | barr => exact hs.execBarr
  | bwait => exact hs.execBwait
  | barw => exact hs.execBarw
  | finc => exact hs.execFinc
  | fwait => exact hs.execFwait
  | frd => exact hs.execFrd
  | fset => exact hs.execFset
  | launch => exact hs.execLaunch
  | launchn => exact hs.execLaunchn
  | evset => exact hs.execEvset
  | evclr => exact hs.execEvclr
  | evwait => exact hs.execEvwait
  | enq => exact hs.execEnq
  | deq => exact hs.execDeq
  | yield => exact hs.execYield
  | taskinfo => exact hs.execTaskinfo
  | ldg => exact hs.execLdg
  | stg => exact hs.execStg
  | lda => exact hs.execLda
  | stl => exact hs.execStl
  | ldgq => exact hs.execLdgq
  | stgq => exact hs.execStgq
  | pfg => exact hs.execPfg
  | fence => exact hs.execFence
  | pubg => exact hs.execPubg
  | tlbinv => exact hs.execTlbinv
  | tlbsync => exact hs.execTlbsync
  | caprd => exact hs.execCaprd
  | ctxsave => exact hs.execCtxsave
  | ctxrst => exact hs.execCtxrst
  | sealw => exact hs.execSealw
  | hostsig => exact hs.execHostsig
  | nwr => exact hs.execNwr
  | nrd => exact hs.execNrd
  | nred => exact hs.execNred
  | nbar => exact hs.execNbar
  | memb => exact hs.execMemb
  | gsw => exact hs.execGsw
  | pendingResultLand => exact hs.execPendingResultLand
  | queueEntryFill => exact hs.execQueueEntryFill
  | landingArrival => exact hs.execLandingArrival
  | streamService => exact hs.execStreamService
  | slotYield => exact hs.execSlotYield
  | clauseSeal => exact hs.execClauseSeal
  | barrierWaitEnd => exact hs.execBarrierWaitEnd
  | copy => exact hs.execCopy
  | copyf => exact hs.execCopyf
  | copyfFollowOn => exact hs.execCopyfFollowOn
  | arrLoadb => exact hs.execArrLoadb
  | arrMm => exact hs.execArrMm
  | arrSpl => exact hs.execArrSpl
  | arrGrad => exact hs.execArrGrad
  | arrRefine => exact hs.execArrRefine
  | arrDrain => exact hs.execArrDrain
  | arrRowout => exact hs.execArrRowout
  | scatAdd => exact hs.execScatAdd
  | scatMax => exact hs.execScatMax
  | scatterWindow => exact hs.execScatterWindow
  | commandRetire => exact hs.execCommandRetire
  | trapEntry => exact hs.execTrapEntry
  | signal => exact hs.execSignal
  | preempt => exact hs.execPreempt
  | coreImageSave => exact hs.execCoreImageSave
  | threadEnd => exact hs.execThreadEnd
  | strikeReport => exact hs.execStrikeReport
  | rollbackRestart => exact hs.execRollbackRestart
  | timeSliceEnd => exact hs.execTimeSliceEnd
  | taskPlace => exact hs.execTaskPlace
  | pipelineSpill => exact hs.execPipelineSpill
  | stealRequest => exact hs.execStealRequest
  | stealAcknowledge => exact hs.execStealAcknowledge
  | stealConfirm => exact hs.execStealConfirm
  | stealTimeout => exact hs.execStealTimeout
  | schedLost => exact hs.execSchedLost
  | clusterSwitchOut => exact hs.execClusterSwitchOut
  | clusterRestore => exact hs.execClusterRestore
  | walkComplete => exact hs.execWalkComplete
  | invalidationAck => exact hs.execInvalidationAck
  | invalidationHoldTimeout => exact hs.execInvalidationHoldTimeout
  | pubgToggle => exact hs.execPubgToggle
  | releasePerformed => exact hs.execReleasePerformed
  | contextSaveRequest => exact hs.execContextSaveRequest
  | contextRestoreRequest => exact hs.execContextRestoreRequest
  | submissionTail => exact hs.execSubmissionTail
  | completionHead => exact hs.execCompletionHead
  | faultHead => exact hs.execFaultHead
  | launchPacket => exact hs.execLaunchPacket
  | event => exact hs.execEvent
  | evwaitPacket => exact hs.execEvwaitPacket
  | attach => exact hs.execAttach
  | detach => exact hs.execDetach
  | stop => exact hs.execStop
  | resume => exact hs.execResume
  | debugRead => exact hs.execDebugRead
  | debugWrite => exact hs.execDebugWrite
  | debugBreak => exact hs.execDebugBreak
  | sample => exact hs.execSample
  | trace => exact hs.execTrace
  | counters => exact hs.execCounters
  | replay => exact hs.execReplay
  | inject => exact hs.execInject
  | breakpoint => exact hs.execBreakpoint
  | freezeLimit => exact hs.execFreezeLimit
  | sampleEmit => exact hs.execSampleEmit
  | replayTimeout => exact hs.execReplayTimeout
  | coreRelease => exact hs.execCoreRelease
  | powerLimit => exact hs.execPowerLimit
  | hostCtxsave => exact hs.execHostCtxsave
  | hostCtxrst => exact hs.execHostCtxrst
  | packageIdleRequest => exact hs.execPackageIdleRequest
  | bar0RegisterWrite => exact hs.execBar0RegisterWrite
  | powerOn => exact hs.execPowerOn
  | reboot => exact hs.execReboot
  | powerOff => exact hs.execPowerOff
  | getVersion msg => exact hs.execGetVersion (msg := msg)
  | getCapabilities msg => exact hs.execGetCapabilities (msg := msg)
  | negotiateAlgorithms => exact hs.execNegotiateAlgorithms
  | getDigests msg => exact hs.execGetDigests (msg := msg)
  | getCertificate msg => exact hs.execGetCertificate (msg := msg)
  | challenge msg => exact hs.execChallenge (msg := msg)
  | getMeasurements msg => exact hs.execGetMeasurements (msg := msg)
  | flitReceive => exact hs.execFlitReceive
  | linkTrained => exact hs.execLinkTrained
  | linkRetrainTimeout => exact hs.execLinkRetrainTimeout
  | remoteWrite => exact hs.execRemoteWrite
  | readRequest => exact hs.execReadRequest
  | readReply => exact hs.execReadReply
  | writeAcknowledgement => exact hs.execWriteAcknowledgement
  | contribution => exact hs.execContribution
  | collectiveResult => exact hs.execCollectiveResult
  | barrierArrival => exact hs.execBarrierArrival
  | barrierRelease => exact hs.execBarrierRelease
  | cutMarker => exact hs.execCutMarker
  | resumeMarker => exact hs.execResumeMarker
  | sweepReport => exact hs.execSweepReport
  | purge => exact hs.execPurge
  | remoteTimeout => exact hs.execRemoteTimeout
  | memberFailure => exact hs.execMemberFailure
  | storePerformed => exact hs.execStorePerformed
  | unsupportedRequest => exact hs.execUnsupportedRequest
  | contextCreation => exact hs.execContextCreation
  | hostInject => exact hs.execHostInject
  | invalidPacket => exact hs.execInvalidPacket

/-! ### Machine/Arbiter.lean -/

theorem Canonical.chargeBank {k req bank} (hs : Canonical s) : Canonical (chargeBank s k req bank) :=
  Canonical.pmCount ⟨hs.mem, hs.spad⟩

theorem Canonical.chargeBanks {k req bs} (hs : Canonical s) : Canonical (chargeBanks s k req bs) := by
  induction bs generalizing s with
  | nil => exact hs
  | cons b r ih => exact ih hs.chargeBank

theorem Canonical.bankCycle {all bank} (hs : Canonical s) : Canonical (bankCycle all s bank).1 := by
  unfold Machine.bankCycle
  extract_lets won lost goes wait note s1
  have hnote : ∀ (t : State) (k : Nat), Canonical t → Canonical (note t k) := fun t k ht => by
    have h1 : Canonical (if lost k then Machine.chargeBank t k 1 bank else t) := .ite ht.chargeBank ht
    exact .ite ⟨h1.mem, h1.spad⟩ (.ite h1 ⟨h1.mem, h1.spad⟩)
  have h1 : Canonical s1 := hnote _ 1 (hnote s 0 hs)
  rcases won with _ | ⟨r, rs⟩
  · exact h1
  · exact ⟨h1.mem, h1.spad⟩

theorem Canonical.bankCycles {all bs} (hs : Canonical s) : Canonical (bankCycles all s bs).1 := by
  induction bs generalizing s with
  | nil => exact hs
  | cons b r ih => exact ih hs.bankCycle

theorem Canonical.noteTurn {won p} (hs : Canonical s) : Canonical (noteTurn won s p) := by
  unfold Machine.noteTurn
  dsimp only
  split
  · exact hs
  · exact Canonical.ite ⟨hs.mem, hs.spad⟩ ⟨hs.mem, hs.spad⟩

theorem Canonical.arbitrate (hs : Canonical s) : Canonical (arbitrate s) :=
  .ite hs (hs.bankCycles.foldl fun _ _ h1 => h1.noteTurn)

/-! ### Machine/Banks.lean -/

theorem Canonical.countLosses {k v rs} (hs : Canonical s) : Canonical (countLosses s k v rs) := hs.changes.pmCount

/-! ### Machine/Due.lean -/

theorem Canonical.injectNow {k p} (hs : Canonical s) : CanonicalOut (injectNow k p s) := hs.setSlot.execStrikeReport

/-! ### Machine/Cycle.lean -/

theorem Canonical.runFetched {ex w} (hs : Canonical s) (hex : ∀ i t, Canonical t → CanonicalOut (ex i t)) :
    CanonicalOut (runFetched ex w s) := by
  unfold Machine.runFetched
  split
  · exact hex _ s hs
  · exact hs.illegalWord

theorem Canonical.serveReads {h} (hs : Canonical s) : Canonical (serveReads s h) := hs.countLosses.setVoice

theorem Canonical.atTurn {v} (hs : Canonical s) : Canonical (atTurn s v) := ⟨hs.mem, hs.spad⟩

theorem Canonical.serveSet {vs} (hs : Canonical s) : Canonical (serveSet s vs) := by
  induction vs generalizing s with
  | nil => exact hs
  | cons v r ih => exact ih (.ite (hs.atTurn.serveReads.of_eq rfl rfl) (.ite hs.chargeBanks hs))

theorem Canonical.beginTurns {ex s00} (hs00 : Canonical s00) : Canonical (beginTurns ex s00) := by
  unfold Machine.beginTurns
  extract_lets s ready go s0 s1
  have hs : Canonical s := ⟨hs00.mem, hs00.spad⟩
  have hs0 : Canonical s0 := Canonical.ite hs.serveSet hs
  have hs1 : Canonical s1 := ⟨hs0.mem, hs0.spad⟩
  split <;> exact ⟨hs1.mem, hs1.spad⟩

theorem Canonical.stopTrapped {k} (hs : Canonical s) : Canonical (stopTrapped s k) := by
  unfold Machine.stopTrapped
  dsimp only
  split
  · exact Canonical.ite hs.stopThread hs
  · exact hs

theorem Canonical.countIssue (hs : Canonical s) : Canonical (countIssue s) :=
  .ite (hs.setSlot.pmCount.foldl fun _ _ h1 => .ite h1.pmCount h1) hs

theorem Canonical.engineRefusals {k eng} (hs : Canonical s) : Canonical (engineRefusals s k eng) := .ite hs.chargeBanks hs

theorem Canonical.countRefusals (hs : Canonical s) : Canonical (countRefusals s) :=
  .ite (hs.foldl fun _ _ h1 => .ite h1.engineRefusals.engineRefusals h1) hs

theorem Canonical.countCycle (hs : Canonical s) : Canonical (countCycle s) := hs.countIssue.countRefusals

theorem Canonical.passIssue (hs : Canonical s) : Canonical (passIssue s) := .ite ⟨hs.mem, hs.spad⟩ hs

theorem Canonical.notePipes (hs : Canonical s) : Canonical (notePipes s) := .ite hs hs.setCluster

theorem Canonical.linkSet (hs : Canonical s) : Canonical (linkSet s) := .ite (hs.foldl fun _ _ h1 => h1.joinVoice) hs

theorem Canonical.endCycle {s0} (hs : Canonical s0) : Canonical (endCycle s0) := by
  unfold Machine.endCycle
  extract_lets s s1 s2 s3 _ s4
  have h3 : Canonical s3 := hs.linkSet.stopTrapped.stopTrapped.passIssue.notePipes.setSlot.setSlot
  clear_value s3
  have h4 : Canonical s4 := Canonical.flushTraces ⟨h3.mem, h3.spad⟩
  exact ⟨h4.mem, h4.spad⟩

theorem Canonical.tick (hs : Canonical s) : Canonical (tick s) := hs.countCycle.endCycle

theorem Canonical.nextTurn {t} (ht : Canonical t) : Canonical (nextTurn s t) := .ite ht ⟨ht.mem, ht.spad⟩

theorem Canonical.afterVoice {o} (ho : CanonicalOut o) : CanonicalOut (afterVoice s o) := by
  cases o with
  | next t => exact Canonical.nextTurn (t := t) ho
  | fault r => trivial
  | refused r => trivial

theorem Canonical.afterYield {o} (ho : CanonicalOut o) : CanonicalOut (afterYield o) := by
  cases o with
  | next t => exact Canonical.endCycle (s0 := t) ho
  | fault r => trivial
  | refused r => trivial

theorem Canonical.afterService {g r o} (ho : CanonicalOut o) : CanonicalOut (afterService g r o) := by
  cases o with
  | next t =>
    have ht : Canonical t := ho
    exact ⟨ht.mem, ht.spad⟩
  | fault r => trivial
  | refused r => trivial

theorem Canonical.brkStop {ex} (hs : Canonical s) : CanonicalOpt (brkStop ex s) := by
  unfold Machine.brkStop
  split
  · exact hs.debugStop
  · exact trivial

/-! ### The cycle, over any meaning of the words -/

/-- A meaning under which every word and event keeps the memories canonical. -/
def KeepsCanonical (ex : Meaning) : Prop := ∀ i t, Canonical t → CanonicalOut (ex i t)

theorem exec_keepsCanonical : KeepsCanonical exec := fun _ _ ht => ht.exec

section
variable {ex : Meaning} (hex : KeepsCanonical ex)
include hex

theorem Canonical.runWord (hs : Canonical s) : CanonicalOut (runWord ex s) := by
  unfold Machine.runWord
  extract_lets h
  split
  · exact hs.finish hs
  · exact hs.finish hs.machineCheck
  · exact hs.fetchFill.runFetched hex

theorem Canonical.runSecond {s0 h} (hs0 : Canonical s0) (hs : Canonical s) : CanonicalOut (runSecond ex s0 h s) := by
  unfold Machine.runSecond
  extract_lets _ s1
  have h1 : Canonical s1 := hs.setVoice
  have hw : CanonicalOut (Machine.runWord ex s1) := h1.runWord hex
  split
  · next t ht =>
    split
    · split
      · split
        · exact h1
        · exact hs0.setMark
      · exact hs0.setMark
    · exact hw.of_next ht
  · exact hw

theorem Canonical.runIssue (hs : Canonical s) : CanonicalOut (runIssue ex s) := by
  unfold Machine.runIssue
  extract_lets h
  have hw : CanonicalOut (Machine.runWord ex s) := hs.runWord hex
  split
  · next t ht =>
    split
    · exact hs.runSecond hex (hw.of_next ht)
    · exact hw.of_next ht
  · exact hw

theorem Canonical.runGated (hs : Canonical s) : CanonicalOut (runGated ex s) := by
  unfold Machine.runGated
  extract_lets h o
  have ho : CanonicalOut o := hs.runIssue hex
  clear_value o
  split
  · split
    · exact hs.chargeBanks.setMark
    · exact ho
  · exact ho

theorem Canonical.runVoice (hs : Canonical s) : CanonicalOut (runVoice ex s) := by
  unfold Machine.runVoice
  extract_lets h o
  have ho : CanonicalOut o := hs.runGated hex
  clear_value o
  split
  · split
    · exact hs.serveReads.setMark
    · exact ho
  · exact ho

theorem Canonical.alone {v} (hs : Canonical s) : CanonicalOpt (alone ex s v) := by
  unfold Machine.alone
  have ho : CanonicalOut (Machine.runVoice ex (Machine.atTurn s v)) := hs.atTurn.runVoice hex
  split
  · next t ht => exact ho.of_next ht
  · trivial

theorem Canonical.leaveParked {k v} (hs : Canonical s) : Canonical (leaveParked ex s k v) := by
  unfold Machine.leaveParked
  split
  · have ho : CanonicalOpt (Machine.alone ex { s with core := { s.core with act := k } } v) :=
      Canonical.alone hex ⟨hs.mem, hs.spad⟩
    split
    · next t ht =>
      extract_lets _ u
      have hu : Canonical u := (ho.of_some ht).setVoice
      split
      · exact ⟨hu.mem, hu.spad⟩
      · exact hs
    · exact hs
  · exact hs

theorem Canonical.leavesParked (hs : Canonical s) : Canonical (leavesParked ex s) :=
  hs.foldl fun _ _ ht => (ht.leaveParked hex).leaveParked hex

theorem Canonical.endTurns {s0} (hs : Canonical s0) : Canonical (endTurns ex s0) := by
  unfold Machine.endTurns
  extract_lets s t
  have h1 : Canonical s := hs.leavesParked hex
  clear_value s
  have ht : Canonical t := ⟨h1.mem, h1.spad⟩
  have ha := ht.arbitrate
  exact ⟨ha.mem, ha.spad⟩

end

/-! ### The events that are due -/

/-- An event that may be due keeps the memories canonical. -/
def Keeps (o : Option Act) : Prop := ∀ f, o = some f → ∀ t, Canonical t → CanonicalOut (f t)

theorem Keeps.none : Keeps none := fun _ e => nomatch e

theorem Keeps.some {f : Act} (hf : ∀ t, Canonical t → CanonicalOut (f t)) : Keeps (some f) := by
  intro g e t ht
  cases e
  exact hf t ht

theorem Keeps.map {α : Type} {f : α → Act} (o : Option α) (hf : ∀ x t, Canonical t → CanonicalOut (f x t)) : Keeps (o.map f) := by
  cases o with
  | none => exact .none
  | some x => exact .some (hf x)

theorem Keeps.ite {c : Prop} [Decidable c] {o p : Option Act} (ho : Keeps o) (hp : Keeps p) : Keeps (if c then o else p) := by
  split
  · exact ho
  · exact hp

/-- A list of candidates of which each keeps the memories canonical. -/
def AllKeep (l : List (Option Act)) : Prop := ∀ o ∈ l, Keeps o

theorem AllKeep.nil : AllKeep [] := fun _ h => absurd h List.not_mem_nil

theorem AllKeep.cons {o : Option Act} {l : List (Option Act)} (ho : Keeps o) (hl : AllKeep l) : AllKeep (o :: l) :=
  List.forall_mem_cons.mpr ⟨ho, hl⟩

theorem AllKeep.append {l r : List (Option Act)} (hl : AllKeep l) (hr : AllKeep r) : AllKeep (l ++ r) :=
  List.forall_mem_append.mpr ⟨hl, hr⟩

theorem AllKeep.map {α : Type} {l : List α} {f : α → Option Act} (hf : ∀ x, Keeps (f x)) : AllKeep (l.map f) :=
  List.forall_mem_map.mpr fun x _ => hf x

theorem AllKeep.ite {c : Prop} [Decidable c] {l r : List (Option Act)} (hl : AllKeep l) (hr : AllKeep r) :
    AllKeep (if c then l else r) := by
  split
  · exact hl
  · exact hr

theorem Keeps.firstSome {l : List (Option Act)} (hl : AllKeep l) : Keeps (firstSome l) := by
  induction l with
  | nil => exact .none
  | cons o r ih =>
    obtain ⟨ho, hr⟩ := List.forall_mem_cons.mp hl
    cases o with
    | none => exact ih hr
    | some f => exact ho

theorem keeps_dueLanding (k v) : Keeps (dueLanding s k v) := by
  unfold dueLanding
  extract_lets a
  split
  · exact .some fun _ ht => ht.execPendingResultLand
  · exact .map _ fun _ _ ht => ht.execPendingResultLand

theorem keeps_dueFill (k) : Keeps (dueFill s k) := .firstSome <| .map fun _ => .map _ fun _ _ ht => ht.execQueueEntryFill

theorem keeps_dueArrival (k) : Keeps (dueArrival s k) := by
  refine .ite (.firstSome <| .map fun p => ?_) .none
  split
  · exact .ite (.some fun _ ht => ht.execLandingArrival) .none
  · exact .none

theorem keeps_dueSeal (k) : Keeps (dueSeal s k) := .map _ fun _ _ ht => ht.execClauseSeal

theorem keeps_dueWaitEnd (k) : Keeps (dueWaitEnd s k) := .ite (.some fun _ ht => ht.execBarrierWaitEnd) .none

theorem keeps_dueTrap (k) : Keeps (dueTrap s k) := by
  unfold dueTrap
  extract_lets x
  split
  · exact .ite (.some fun _ ht => ht.execTrapEntry) .none
  · exact .none

theorem keeps_dueEnd (k) : Keeps (dueEnd s k) :=
  .ite (.some fun _ ht => ht.execThreadEnd) (.ite (.some fun _ ht => ht.execThreadEnd) .none)

theorem keeps_dueBefore (m) : Keeps (dueBefore s m) := by
  refine .firstSome fun o ho => ?_
  obtain ⟨k, _, hk⟩ := List.mem_flatMap.mp ho
  split at hk
  · rcases List.mem_pair.mp hk with rfl | rfl
    · exact keeps_dueSeal k
    · exact keeps_dueEnd k
  · exact absurd hk List.not_mem_nil

theorem keeps_duePending (k) : Keeps (duePending s k) :=
  .ite .none (.ite (.some fun _ ht => ht.execSignal) (.ite (.some fun _ ht => ht.execPreempt) .none))

theorem keeps_dueRestart : Keeps (dueRestart s) := by
  unfold dueRestart
  split
  · exact .ite (.some fun _ ht => ht.execRollbackRestart) .none
  · exact .none

theorem keeps_dueSave : Keeps (dueSave s) := .ite (.some fun _ ht => ht.execCoreImageSave) .none

theorem keeps_startEvent (m) : Keeps (some (startEvent m)) := by
  unfold startEvent
  split
  · exact .some fun _ ht => ht.execCopyf
  · exact .some fun _ ht => ht.execArrLoadb
  · exact .some fun _ ht => ht.execArrMm
  · exact .some fun _ ht => ht.execArrSpl
  · exact .some fun _ ht => ht.execArrGrad
  · exact .some fun _ ht => ht.execArrRefine
  · exact .some fun _ ht => ht.execArrDrain
  · exact .some fun _ ht => ht.execArrRowout
  · exact .some fun _ ht => ht.execScatAdd
  · exact .some fun _ ht => ht.execScatMax
  · exact .some fun _ ht => ht.execCopy

theorem keeps_dueEngines : Keeps (dueEngines s) := by
  refine .ite (.firstSome ?_) .none
  refine .cons (.map _ fun _ _ ht => ht.execCommandRetire) ?_
  refine .cons (.map _ fun _ _ ht => ht.execCopyfFollowOn) ?_
  refine .cons (.map _ fun _ _ ht => ht.execScatterWindow) ?_
  exact .cons (.map _ fun m _ ht => keeps_startEvent m _ rfl _ ht) .nil

theorem keeps_dueBreak (k) : Keeps (dueBreak s k) := .ite (.some fun _ ht => ht.execBreakpoint) .none

theorem keeps_dueSample (k) : Keeps (dueSample s k) := .ite (.some fun _ ht => ht.execSampleEmit) .none

theorem allKeep_dueCore : AllKeep (dueCore s) :=
  ((AllKeep.map (keeps_dueLanding 0)).append (.map (keeps_dueLanding 1))).append <|
    .cons (keeps_dueFill 0) <| .cons (keeps_dueFill 1) <| .cons keeps_dueEngines <| .cons (keeps_dueSeal 0) <|
    .cons (keeps_dueEnd 0) <| .cons (keeps_dueSeal 1) <| .cons (keeps_dueEnd 1) <| .cons (keeps_dueWaitEnd 0) <|
    .cons (keeps_dueWaitEnd 1) <| .cons (keeps_dueArrival 0) <| .cons (keeps_dueArrival 1) <| .cons (keeps_dueTrap 0) <|
    .cons (keeps_dueTrap 1) <| .cons keeps_dueSave .nil

theorem keeps_dueWalk : Keeps (dueWalk s) := .map _ fun _ _ ht => ht.execWalkComplete

theorem keeps_dueInval : Keeps (dueInval s) := .map _ fun _ _ ht => ht.execInvalidationAck

theorem keeps_dueHold (k) : Keeps (dueHold s k) := .ite (.some fun _ ht => ht.execInvalidationHoldTimeout) .none

theorem keeps_dueStore : Keeps (dueStore s) := by
  refine .firstSome (.cons (.map _ fun _ _ ht => ht.execPubgToggle) (.cons (.map _ fun o t ht => ?_) .nil))
  split
  · exact ht.execReleasePerformed
  · exact ht.execStorePerformed

theorem keeps_duePlace : Keeps (duePlace s) := .map _ fun _ _ ht => ht.execTaskPlace

theorem keeps_dueSlice (k) : Keeps (dueSlice s k) := .ite (.some fun _ ht => ht.execTimeSliceEnd) .none

theorem keeps_dueSpill : Keeps (dueSpill s) := .map _ fun _ _ ht => ht.execPipelineSpill

theorem keeps_dueSteal : Keeps (dueSteal s) := .map _ fun _ _ ht => ht.execStealTimeout

theorem keeps_dueSwitch : Keeps (dueSwitch s) := by
  unfold dueSwitch
  split
  · exact .ite (.some fun _ ht => ht.execClusterSwitchOut) .none
  · exact .none

theorem keeps_requestEvent (o) : Keeps (requestEvent s o) := by
  unfold requestEvent
  split
  · exact .ite (.some fun _ ht => ht.execContextSaveRequest) .none
  · exact .some fun _ ht => ht.execContextRestoreRequest
  · exact .none

theorem keeps_dueRequest : Keeps (dueRequest s) :=
  .firstSome <| (AllKeep.map keeps_requestEvent).append <| .map fun _ => .ite (.some fun _ ht => ht.execHostCtxsave) .none

theorem keeps_routerEvent (n) : Keeps (routerEvent s n) := by
  unfold routerEvent
  split
  · exact .none
  · split
    · exact .some fun _ ht => ht.execRemoteWrite
    · exact .some fun _ ht => ht.execReadRequest
    · split
      · exact .ite .none (.some fun _ ht => ht.execReadReply)
      · exact .some fun _ ht => ht.execReadReply
    · exact .some fun _ ht => ht.execWriteAcknowledgement
    · exact .some fun _ ht => ht.execContribution
    · exact .some fun _ ht => ht.execCollectiveResult
    · exact .some fun _ ht => ht.execBarrierArrival
    · exact .some fun _ ht => ht.execBarrierRelease
    · exact .some fun _ ht => ht.execCutMarker
    · exact .some fun _ ht => ht.execResumeMarker
    · exact .some fun _ ht => ht.execSweepReport
    · exact .some fun _ ht => ht.execPurge
    · exact .none

theorem keeps_dueMarker : Keeps (dueMarker s) := by
  refine .firstSome <| .map fun n => ?_
  split
  · exact .some fun _ ht => ht.execCutMarker
  · exact .some fun _ ht => ht.execResumeMarker
  · exact .none

theorem keeps_dueRouter : Keeps (dueRouter s) := .firstSome <| .map keeps_routerEvent

theorem keeps_dueRemote : Keeps (dueRemote s) := .map _ fun _ _ ht => ht.execRemoteTimeout

theorem keeps_dueLink : Keeps (dueLink s) := .map _ fun _ _ ht => ht.execLinkRetrainTimeout

theorem keeps_debugEvent (c i op) : Keeps (some (debugEvent c i op)) := by
  unfold debugEvent
  split
  · exact .some fun _ ht => ht.execAttach
  · exact .some fun _ ht => ht.execDetach
  · exact .some fun _ ht => ht.execStop
  · exact .some fun _ ht => ht.execResume
  · exact .some fun _ ht => ht.execDebugRead
  · exact .some fun _ ht => ht.execDebugWrite
  · exact .some fun _ ht => ht.execDebugBreak
  · exact .some fun _ ht => ht.execSample
  · exact .some fun _ ht => ht.execTrace
  · exact .some fun _ ht => ht.execCounters
  · exact .some fun _ ht => ht.execReplay
  · exact .some fun _ ht => ht.execInject

theorem keeps_packetEvent (c) : Keeps (packetEvent s c) := by
  unfold packetEvent
  split
  · exact .none
  · refine .ite (.some fun _ ht => ht.execInvalidPacket) ?_
    split
    · exact .ite (.some fun _ ht => ht.execLaunchPacket) .none
    · exact .ite .none (keeps_debugEvent _ _ _)
    · exact .some fun _ ht => ht.execEvent
    · exact .ite (.some fun _ ht => ht.execEvwaitPacket) .none

theorem keeps_duePacket : Keeps (duePacket s) := .firstSome <| .map fun c => keeps_packetEvent c.1

theorem Keeps.corePast {o : Option Act} (ho : Keeps o) : Keeps (o.map corePast) := by
  cases o with
  | none => exact .none
  | some f => exact .some fun t ht => ho f rfl _ ⟨ht.mem, ht.spad⟩

theorem keeps_stopPacket (c) : Keeps (stopPacket s c) := by
  unfold stopPacket
  split
  · exact .none
  · exact .ite (keeps_packetEvent c) .none

theorem keeps_dueStopPacket : Keeps (dueStopPacket s) := .ite (.firstSome <| .map fun c => keeps_stopPacket c.1) .none

theorem keeps_dueInject (r) : Keeps (dueInject s r) := by
  refine .firstSome fun o ho => ?_
  obtain ⟨r, _, hr⟩ := List.mem_flatMap.mp ho
  rcases List.mem_pair.mp hr with rfl | rfl
  · exact .map _ fun _ _ ht => ht.injectNow
  · exact .map _ fun _ _ ht => ht.injectNow

theorem keeps_dueLimit : Keeps (dueLimit s) := .map _ fun _ _ ht => ht.execFreezeLimit

theorem keeps_dueRerun : Keeps (dueRerun s) := .map _ fun _ _ ht => ht.execReplayTimeout

theorem allKeep_duePackage : AllKeep (duePackage s) := by
  refine .append ?_ (.ite ?_ .nil)
  · exact .cons keeps_dueLimit <| .cons keeps_dueRerun <| .cons keeps_dueSteal <| .cons keeps_dueRemote <| .cons keeps_dueLink <|
      .cons (keeps_dueHold 0) <| .cons (keeps_dueHold 1) <| .cons (keeps_dueSlice 0) <| .cons (keeps_dueSlice 1) <|
      .cons keeps_dueSpill .nil
  · exact .cons keeps_dueStore <| .cons keeps_dueWalk <| .cons keeps_dueInval <| .cons keeps_dueRequest <| .cons keeps_dueSwitch <|
      .cons keeps_dueRouter <| .cons keeps_duePacket <| .cons keeps_duePlace .nil

theorem keeps_dueStop (r) : Keeps (dueStop s r) :=
  .firstSome <| (AllKeep.cons (keeps_dueInject r) .nil).append <|
    .ite (.cons (keeps_duePending 0) <| .cons (keeps_duePending 1) .nil) .nil

theorem keeps_dueEvent : Keeps (dueEvent s) := by
  refine .ite (.firstSome ?_) .none
  have hstart : AllKeep [dueRestart s, dueBreak s 0, dueBreak s 1] :=
    .cons keeps_dueRestart <| .cons (keeps_dueBreak 0) <| .cons (keeps_dueBreak 1) .nil
  have hsample : AllKeep [dueSample s 0, dueSample s 1] := .cons (keeps_dueSample 0) <| .cons (keeps_dueSample 1) .nil
  have hcore : AllKeep ((dueCore s).map fun o => o.map corePast) :=
    List.forall_mem_map.mpr fun o ho => (allKeep_dueCore o ho).corePast
  exact ((((AllKeep.ite hstart .nil).append (.cons keeps_dueStopPacket .nil)).append (.ite hcore .nil)).append
    allKeep_duePackage).append (.ite hsample .nil)

/-! ### The step -/

/-- A stop that is pending is taken before a marker of a gang switch. -/
theorem keeps_stopOrMarker (r) : Keeps (match dueStop s r with | some f => some f | none => dueMarker s) := by
  split
  · next f hf => exact hf ▸ keeps_dueStop r
  · exact keeps_dueMarker

theorem Canonical.stepWith {ex ext} (hex : KeepsCanonical ex) (hext : ∀ c m g e t, Canonical t → Canonical (ext c m g e t))
    (hs : Canonical s) : CanonicalOut (stepWith ex ext s) := by
  have hin (r : List Input) : Canonical { s with inbox := r } := ⟨hs.mem, hs.spad⟩
  unfold Machine.stepWith
  split
  · split
    · next f hf => exact keeps_stopOrMarker _ f hf s hs
    · split
      · exact hin _
      · exact hex _ _ (hin _)
    · next r _ _ =>
      split
      · next f hf => exact keeps_dueBefore _ f hf s hs
      · exact hext _ _ _ _ _ (hin _)
    · exact ⟨hs.mem, hs.spad⟩
    · exact (hin _).arrivePacket
    · exact (hin _).replayLink
    · exact (hin _).setLimits
    · exact (hin _).placedElsewhere
    · exact (hin _).awayEvent
    · exact ⟨hs.mem, hs.spad⟩
    · exact (hin _).refuseSteal
    · exact (hin _).readBar0
    · exact ⟨hs.mem, hs.spad⟩
    · exact ⟨hs.mem, hs.spad⟩
    · exact (hin _).setJobEntry
    · split
      · next t _ ht => exact hs.brkStop.of_some ht
      · next f _ hf => exact keeps_dueEvent f hf s hs
      · exact hs.beginTurns
  · split
    · split
      · exact Canonical.afterVoice (hs.runVoice hex)
      · exact ⟨hs.mem, hs.spad⟩
    · split
      · split
        · exact hs.endTurns hex
        · exact ⟨hs.mem, hs.spad⟩
      · split
        · exact Canonical.afterService (hex _ s hs)
        · split
          · exact Canonical.afterYield (hex _ _ hs.countCycle)
          · exact hs.tick

end

/-- Settles O5, by one lemma for each function of the model that a step calls. -/
theorem stepKeepsMemoryCanonical : Obligations.StepKeepsMemoryCanonical := by
  intro s t hmem hspad hstep
  have hs : Canonical s := ⟨hmem, hspad⟩
  have ht : Canonical t :=
    (hs.stepWith exec_keepsCanonical fun _ _ _ _ _ ht => ht.extEffect).of_next hstep
  exact ⟨ht.mem, ht.spad⟩

end Sys2Proof.Machine
end

section
/-! O50: doorbells. Writing held records touches a context's ring, its held records and the host's memory; the head it was given and
the credits stay. -/

namespace Sys2Proof.Machine
open Sys2Proof.Claim

theorem hostAct_absent {s : State} {ctx : Nat} (f : State → State) (h : ¬Serves s ctx) : hostAct ctx f s = .next (wake s) := by
  have hc : ¬(powered s && ctxExists s ctx) = true := by simpa only [Bool.and_eq_true] using h
  exact if_neg hc

theorem hostAct_serves {s : State} {ctx : Nat} (f : State → State) (h : Serves s ctx) : hostAct ctx f s = .next (f (wake s)) := by
  have hc : (powered s && ctxExists s ctx) = true := by simpa only [Bool.and_eq_true] using h
  exact if_pos hc

@[simp] theorem getCtx_wake (s : State) (c : Nat) : getCtx (wake s) c = getCtx s c := by rw [getCtx, wake_pkg, getCtx]

@[simp] theorem getCtx_raiseMsix (s : State) (m c : Nat) : getCtx (raiseMsix s m) c = getCtx s c := rfl

@[simp] theorem getCtx_ringPut (s : State) (r : HostRing) (n : Nat) (bs : List Byte) (c : Nat) :
    getCtx (ringPut s r n bs) c = getCtx s c := rfl

/-! ### Held completion records -/

theorem writeHeld_core (ctx : Nat) (bs : List (List Byte)) (s : State) : (writeHeld s ctx bs).core = s.core := by
  induction bs generalizing s with
  | nil => rfl
  | cons b r ih =>
    rw [writeHeld]
    split
    · rfl
    · exact (ih _).trans rfl

theorem writeHeld_cluster (ctx : Nat) (bs : List (List Byte)) (s : State) : (writeHeld s ctx bs).cluster = s.cluster := by
  induction bs generalizing s with
  | nil => rfl
  | cons b r ih =>
    rw [writeHeld]
    split
    · rfl
    · exact (ih _).trans rfl

theorem writeHeld_keeps (ctx : Nat) (bs : List (List Byte)) (s : State) :
    (getCtx (writeHeld s ctx bs) ctx).cq.head = (getCtx s ctx).cq.head ∧
      (getCtx (writeHeld s ctx bs) ctx).credits = (getCtx s ctx).credits := by
  induction bs generalizing s with
  | nil => simp only [writeHeld, getCtx_setCtx, and_self]
  | cons b r ih =>
    rw [writeHeld]
    split
    · simp only [getCtx_setCtx, and_self]
    · obtain ⟨hhead, hcredits⟩ := ih (raiseMsix (setCtx (ringPut s (getCtx s ctx).cq 32 b) ctx
        { getCtx s ctx with cq := ringStep (getCtx s ctx).cq }) ctx)
      rw [getCtx_raiseMsix, getCtx_setCtx] at hhead hcredits
      exact ⟨hhead, hcredits⟩

/-! ### Held fault records -/

theorem writeHeldFaults_core (ctx : Nat) (bs : List (List Byte)) (s : State) : (writeHeldFaults s ctx bs).core = s.core := by
  induction bs generalizing s with
  | nil => rfl
  | cons b r ih =>
    rw [writeHeldFaults]
    split
    · rfl
    · exact (ih _).trans rfl

theorem writeHeldFaults_cluster (ctx : Nat) (bs : List (List Byte)) (s : State) :
    (writeHeldFaults s ctx bs).cluster = s.cluster := by
  induction bs generalizing s with
  | nil => rfl
  | cons b r ih =>
    rw [writeHeldFaults]
    split
    · rfl
    · exact (ih _).trans rfl

theorem writeHeldFaults_head (ctx : Nat) (bs : List (List Byte)) (s : State) :
    (getCtx (writeHeldFaults s ctx bs) ctx).fq.head = (getCtx s ctx).fq.head := by
  induction bs generalizing s with
  | nil => simp only [writeHeldFaults, getCtx_setCtx]
  | cons b r ih =>
    rw [writeHeldFaults]
    split
    · simp only [getCtx_setCtx]
    · have hhead := ih (raiseMsix (setCtx (ringPut s (getCtx s ctx).fq 64 b) ctx
        { getCtx s ctx with fq := ringStep (getCtx s ctx).fq }) ctx)
      rw [getCtx_raiseMsix, getCtx_setCtx] at hhead
      exact hhead

/-! ### The doorbells of a context that is there -/

theorem submissionTail_holds {s : State} {ctx : Nat} (val : Nat) (h : Serves s ctx) :
    ∃ t, exec (.submissionTail ctx val) s = .next t ∧
      getCtx t ctx = { getCtx s ctx with sq := { (getCtx s ctx).sq with tail := val % 2 ^ 32 } } ∧
      t.pkg.mem = s.pkg.mem ∧ t.core = s.core ∧ t.cluster = s.cluster := by
  refine ⟨_, (exec_submissionTail ..).trans (hostAct_serves _ h), ?_, wake_mem s, wake_core s, wake_cluster s⟩
  rw [getCtx_setCtx, getCtx_wake]

theorem completionHead_holds {s : State} {ctx : Nat} (val : Nat) (h : Serves s ctx) :
    ∃ t, exec (.completionHead ctx val) s = .next t ∧ (getCtx t ctx).cq.head = val % 2 ^ 32 ∧
      (getCtx t ctx).credits = (getCtx s ctx).credits + ((getCtx s ctx).signals.filter (passed (val % 2 ^ 32))).length ∧
      ((getCtx s ctx).heldCompletions = [] → t.pkg.mem = s.pkg.mem) ∧ t.core = s.core ∧ t.cluster = s.cluster := by
  refine ⟨_, (exec_completionHead ..).trans (hostAct_serves _ h), ?_, ?_, fun hnone => ?_, ?_, ?_⟩
  · rw [(writeHeld_keeps ..).1, getCtx_setCtx]
    rfl
  · rw [(writeHeld_keeps ..).2, getCtx_setCtx, getCtx_wake]
    rfl
  · have hheld : (returnCredits { getCtx (wake s) ctx with
        cq := { (getCtx (wake s) ctx).cq with head := val % 2 ^ 32 } }).heldCompletions = [] := by
      rw [getCtx_wake]
      exact hnone
    dsimp only
    rw [hheld]
    exact wake_mem s
  · exact (writeHeld_core ..).trans (wake_core s)
  · exact (writeHeld_cluster ..).trans (wake_cluster s)

theorem faultHead_holds {s : State} {ctx : Nat} (val : Nat) (h : Serves s ctx) :
    ∃ t, exec (.faultHead ctx val) s = .next t ∧ (getCtx t ctx).fq.head = val % 2 ^ 32 ∧
      ((getCtx s ctx).heldFaults = [] → t.pkg.mem = s.pkg.mem) ∧ t.core = s.core ∧ t.cluster = s.cluster := by
  refine ⟨_, (exec_faultHead ..).trans (hostAct_serves _ h), ?_, fun hnone => ?_, ?_, ?_⟩
  · rw [writeHeldFaults_head, getCtx_setCtx]
  · dsimp only
    rw [getCtx_wake, hnone]
    exact wake_mem s
  · exact (writeHeldFaults_core ..).trans (wake_core s)
  · exact (writeHeldFaults_cluster ..).trans (wake_cluster s)

/-- Settles O50: a doorbell wakes the package, and of a context that is there moves its ring; held records follow a head. -/
theorem doorbellsMoveTheirRings : Obligations.DoorbellsMoveTheirRings := by
  unfold Obligations.DoorbellsMoveTheirRings
  intro s ctx val
  refine ⟨fun habsent => ⟨?_, ?_, ?_⟩, fun h => ⟨submissionTail_holds val h, completionHead_holds val h, faultHead_holds val h⟩⟩
  · exact (exec_submissionTail ..).trans (hostAct_absent _ habsent)
  · exact (exec_completionHead ..).trans (hostAct_absent _ habsent)
  · exact (exec_faultHead ..).trans (hostAct_absent _ habsent)

end Sys2Proof.Machine
end

section
/-! O39: NWR, NRD and MEMB (R275 to R277). -/

namespace Sys2Proof.Machine
open Sys2Proof.Claim

/-! ### What sending a packet changes -/

/-- Only the package and the count of free values differ. -/
def NetOnly (s u : State) : Prop := ∃ p f, u = { s with pkg := p, fresh := f }

theorem NetOnly.refl (s : State) : NetOnly s s := ⟨s.pkg, s.fresh, rfl⟩

theorem NetOnly.trans {s t u : State} (h : NetOnly s t) (h' : NetOnly t u) : NetOnly s u := by
  obtain ⟨_, _, rfl⟩ := h
  obtain ⟨p, f, rfl⟩ := h'
  exact ⟨p, f, rfl⟩

theorem netOnly_deliver (s : State) (p : Packet) : NetOnly s (deliver s p) := by
  unfold deliver
  split
  · exact ⟨_, _, rfl⟩
  · split
    · exact ⟨_, _, rfl⟩
    · exact .refl s

theorem netOnly_putSaved (s : State) (jk : Nat) (j : Job) : NetOnly s (putSaved s jk j) := by
  unfold putSaved writeSaveArea
  dsimp only
  split
  · exact ⟨_, _, rfl⟩
  · exact ⟨_, _, rfl⟩

theorem netOnly_inject (s : State) (jk : Nat) (p : Packet) : NetOnly s (inject s jk p) := by
  unfold inject
  split
  · exact netOnly_deliver s p
  · split
    · exact netOnly_putSaved ..
    · exact netOnly_deliver s p

theorem netOnly_sendRead (k : Nat) (s : State) (x : Xfer) : NetOnly s (sendRead k s x) := by
  unfold sendRead
  split
  · exact .refl s
  · split
    · exact .refl s
    · exact (netOnly_inject ..).trans ⟨_, _, rfl⟩

/-- What a word has done does not depend on the package it finds. -/
theorem near_withPackage {s u : State} {d : Doing} (hn : Near s u d)
    (hctx : (slotAt u (hereOf s)).thread.ctx = (slotAt s (hereOf s)).thread.ctx) (p : Package) (f : Nat) :
    Near { s with pkg := p, fresh := f } { u with pkg := p, fresh := f } d where
  arch := hn.arch
  clause := hn.clause
  ids := hn.ids
  voices := hn.voices
  slot := hn.slot
  array := hn.array
  memory := ⟨hn.memory.1, fun _ => ⟨fun _ => rfl, rfl⟩⟩
  traced := fun h => (congrArg (fun c => (mget Context.fresh p.contexts c).trace) hctx).trans h
  ctl := hn.ctl
  canon := hn.canon
  held := hn.held
  order := hn.order
  cluster := hn.cluster
  around := hn.around

/-- The state in which a remote read is asked for, before it is sent. -/
def asked (s : State) (h : Here) (key : Nat) (x : Xfer) : State :=
  let s1 := changeAt (bumpId s) h (.landSet key (.xfer x.id x.clause))
  setSlot s1 h.k { getSlot s1 h.k with xfers := (getSlot s1 h.k).xfers ++ [x] }

theorem startRemote_sends (h : Here) (key : Nat) (x : Xfer) (s : State) : NetOnly (asked s h key x) (startRemote h key x s) :=
  netOnly_sendRead h.k _ x

theorem thread_asked (s : State) (h : Here) (key : Nat) (x : Xfer) :
    (slotAt (asked s h key x) h).thread = (slotAt s h).thread := by
  simp [asked, slotAt]

theorem near_startRemote (s : State) (key : Nat) (x : Xfer) :
    Near s (asked s (hereOf s) key x) { ctl := fun c => setLanding c key (.xfer x.id x.clause), xfers := [x] } :=
  near_xfer (near_change (near_bump (near_refl s)) (.landSet key (.xfer x.id x.clause)) rfl (fun _ => rfl)) x

/-! ### NWR -/

section
variable {s : State} {sb : BitVec 1} {p : BitVec 3} (hm : MayIssue s sb p .c)
include hm

section
variable {w : BitVec 2} {a b : BitVec 5}

theorem nwr_holds (hok : netOk s (hereOf s).k (visS (me s) a) w.toNat = true) :
    Completes (.nwr sb p w a b) s
      { held := [.nwr s.core.nextId (numOf s a) (mod64 ((visS (me s) b).toNat % 2 ^ (8 * 2 ^ w.toNat))) w.toNat] } := by
  have hw : w.toNat ≠ 4 := by omega
  have hdata : leNat (leBytes (netWidth w.toNat) (visS (me s) b).toNat) = (visS (me s) b).toNat % 2 ^ (8 * 2 ^ w.toNat) := by
    rw [leNat_leBytes, netWidth, if_neg hw, Nat.pow_mul]
  rw [← hdata]
  exact word_completes hm (exec_nwr ..) (if_pos hok) (near_hold (near_refl s) _ rfl rfl) rfl

theorem nwr_traps (hbad : netOk s (hereOf s).k (visS (me s) a) w.toNat = false) :
    Traps s (.nwr sb p w a b) 0x0B (visS (me s) a) s :=
  word_traps hm (exec_nwr ..) (if_neg (Bool.not_eq_true _ ▸ hbad))
end

/-! ### NRD -/

section
variable {v : BitVec 2} {k : BitVec 3} {a : BitVec 5} {x : BitVec 3}

theorem nrd_traps (hbad : netOk s (hereOf s).k (visS (me s) a) x.toNat = false) :
    Traps s (.nrd sb p v k a x) 0x0B (visS (me s) a) s :=
  word_traps hm (exec_nrd ..) (if_neg (Bool.not_eq_true _ ▸ hbad))

section
variable (hok : netOk s (hereOf s).k (visS (me s) a) x.toNat = true)
include hok

theorem nrd_stalls (hbusy : landingState s (hereOf s).k (8 * v.toNat + k.toNat) = 1) : Stalls s (.nrd sb p v k a x) false :=
  word_stalls hm (exec_nrd ..) ((if_pos hok).trans (if_pos hbusy))

/-- The landing slot is BUSY with a remote read that is sent once nothing holds it back (R276, R277). -/
theorem nrd_sends (hfree : landingState s (hereOf s).k (8 * v.toNat + k.toNat) ≠ 1) :
    ∃ t, exec (.nrd sb p v k a x) s = .next t ∧ archAt t (hereOf s) = (advance (me s) .seq).1 ∧
      KeptCtl (hereOf s) s t (fun c => setLanding c (8 * v.toNat + k.toNat) (.xfer s.core.nextId (clauseAt s (hereOf s)))) id ∧
      (slotAt t (hereOf s)).xfers = (slotAt s (hereOf s)).xfers ++
        [netXfer s (hereOf s) (voiceOf v.toNat) k.toNat (numOf s a) (netWidth x.toNat)] ∧
      KeptVoices (hereOf s) s t ∧ KeptArray s t ∧ t.core.held = s.core.held ∧ ∀ y, sget t.core.spad y = sget s.core.spad y := by
  have hx := near_startRemote s (8 * v.toNat + k.toNat)
    (netXfer s (hereOf s) (voiceOf v.toNat) k.toNat (numOf s a) (netWidth x.toNat))
  obtain ⟨pkg, fresh, hsent⟩ := startRemote_sends (hereOf s) (8 * v.toNat + k.toNat)
    (netXfer s (hereOf s) (voiceOf v.toNat) k.toNat (numOf s a) (netWidth x.toNat)) s
  have hdid := did_retire (near_withPackage hx (congrArg Thread.ctx (thread_asked ..)) pkg fresh) rfl
  rw [← hsent] at hdid
  obtain ⟨harch, -, -, hvoices, ⟨-, -, -, -, -, -, hxfers, -⟩, harray, ⟨hspad, -⟩, hctl,
    ⟨hheld, -⟩, -⟩ := hdid
  exact ⟨_, word_retires hm (exec_nrd ..) ((if_pos hok).trans (if_neg hfree)), harch, hctl, hxfers, hvoices, harray, hheld.trans (List.append_nil _), hspad⟩

end
end
end

/-! ### MEMB -/

section
variable {s : State} {sb : BitVec 1} {p : BitVec 3} {d : BitVec 5}

theorem memb_waits (hm : MayIssue s sb p .c) (hf : FlipReady s) :
    Completes (.memb sb p d) s { arch := waiting s .memb [] d 0, flow := .keep, closes := true } := by
  obtain ⟨t, hret, hwaits⟩ := startWait_waits (es := []) (near_flipped s) .memb [] d 0
  refine word_completes hm (exec_memb ..) ?_ hwaits rfl
  dsimp only
  rw [hm.2.1.2]
  exact (withFlip_flips hf _).trans hret

/-- What has been left alone but for the voice's own state stays so when the word leaves its wait. -/
theorem left_finish {u : State} {a : VoiceArch} (hl : Left s u a)
    (htrace : (threadCtx s (hereOf s).k).trace = none → (threadCtx u (hereOf s).k).trace = none) (same : Bool) :
    ∃ t, finish (hereOf s) s (.leave same u) = .next t ∧ Left s t (advance a .seq).1 := by
  obtain ⟨harch, ⟨hothers, hslots⟩, harray, ⟨hspad, hpkg⟩, hheld⟩ := hl
  have hset : (threadCtx s (hereOf s).k).trace = none →
      (threadCtx (setArchAt u (hereOf s) (advance (archAt u (hereOf s)) .seq).1) (hereOf s).k).trace = none := fun ht => by
    simpa [threadCtx, getCtx, setArchAt] using htrace ht
  refine ⟨_, rfl, ?arch, ⟨fun v hv => ?voice, fun j hj => ?slot⟩, ?array, ⟨fun y => ?spad, fun ht => ?package⟩, ?held⟩
  case arch => simp [archAt, getArch_setMark, setArchAt, ← harch]
  case voice => rw [← hothers v hv]; simp [getArch_setMark, setArchAt, getArch_setArch_ne _ _ _ hv]
  case slot =>
    rw [← hslots j hj]
    simp [setMark, setVoice, setArchAt, setArch, getSlot_setSlot_other _ _ hj]
  case array => simpa [KeptArray] using harray
  case spad => simpa using hspad y
  case package =>
    have hkept : (setArchAt u (hereOf s) (advance (archAt u (hereOf s)) .seq).1).pkg = u.pkg := by simp [setArchAt]
    rw [setMark_pkg, snapshotBanks_pkg _ _ _ _ (hset ht), hkept]
    exact hpkg ht
  case held => simpa using hheld

/-- Reporting remote writes that failed leaves alone what a leaving word leaves alone. -/
theorem left_reportNwrs {u : State} {a : VoiceArch} (hl : Left s u a) : Left s (reportNwrs u (hereOf s)) a := by
  unfold reportNwrs
  split
  · exact hl
  · obtain ⟨harch, ⟨hothers, hslots⟩, harray, hmemory, hheld⟩ := hl
    exact ⟨(archAt_changeAt ..).trans harch,
      ⟨fun v hv => (getArch_changeAt ..).trans (hothers v hv), fun j hj => (getSlot_changeAt ..).trans (hslots j hj)⟩,
      harray, hmemory, hheld⟩

theorem threadCtx_reportNwrs (u : State) (h : Here) (k : Nat) : threadCtx (reportNwrs u h) k = threadCtx u k := by
  unfold reportNwrs
  split
  · rfl
  · exact congrArg (fun x : Slot => getCtx u x.thread.ctx) (getSlot_changeAt ..)

theorem left_leaveWait {u : State} {a : VoiceArch} (hl : Left s u a) :
    Left s (leaveWait u (hereOf s)) { a with wait := none, resumed := false } := by
  obtain ⟨harch, ⟨hothers, hslots⟩, harray, hmemory, hheld⟩ := hl
  refine ⟨?_, ⟨fun v hv => ?_, fun j hj => ?_⟩, ?_, ?_, ?_⟩
  · rw [← harch]
    simp [leaveWait]
  · rw [← hothers v hv]
    exact getArch_setArch_ne _ _ _ hv
  · rw [← hslots j hj]
    simp [leaveWait, setArchAt, setArch, setVoice, getSlot_setSlot_other _ _ hj]
  · simpa [KeptArray, leaveWait, setArchAt] using harray
  · simpa [KeptMemory, leaveWait, setArchAt] using hmemory
  · simpa [leaveWait, setArchAt] using hheld

theorem left_of_near {u : State} {d : Doing} (hn : Near s u d) (hd : d.held = []) :
    Left s u (recordAll s.now (d.arch (me s)) d.writes) := by
  refine ⟨hn.arch, hn.voices, hn.array, hn.memory, ?_⟩
  have := hn.held.1
  simpa [heldBy, hd] using this

/-- MEMB leaves its wait with the count of the remote writes that have failed since the last report (R275, R277). -/
theorem memb_leaves {z : Wait} (ht : Takes s sb 0 .c false) (hw : (me s).wait = some z) (hsealed : unsealed s.core z.clause = false)
    (hdone : nwrsOpen s (hereOf s).k = false) :
    LeavesWith (.memb sb p d) s z.dest (membResult (unreported s (hereOf s).k).length) := by
  intro hroom
  obtain ⟨u, hgo, hn, -⟩ := withWrites_did (go := fun u => .leave true (leaveWait (reportNwrs u (hereOf s)) (hereOf s))) hroom
    (near_refl s) rfl rfl
  have hleft := left_leaveWait (left_reportNwrs (left_of_near hn rfl))
  have htrace : (threadCtx s (hereOf s).k).trace = none →
      (threadCtx (leaveWait (reportNwrs u (hereOf s)) (hereOf s)) (hereOf s).k).trace = none := fun h => by
    have hu := hn.traced h
    rw [← threadCtx_reportNwrs u (hereOf s)] at hu
    simpa [threadCtx, getCtx, leaveWait, setArchAt] using hu
  have hexec : exec (.memb sb p d) s = finish (hereOf s) s (.leave true (leaveWait (reportNwrs u (hereOf s)) (hereOf s))) := by
    rw [exec_memb, execMemb, word_resumes ht hw]
    simp only [hw, hsealed, hdone, Bool.or_self]
    rw [← hgo]
    rfl
  rw [hexec]
  exact left_finish hleft htrace true
end

/-- Settles O39: NWR holds its write, NRD sends its read, and MEMB waits and reports. -/
theorem remoteAccessesAndMemb : Obligations.RemoteAccessesAndMemb := by
  unfold Obligations.RemoteAccessesAndMemb
  intro s sb p w v k x a b d
  exact ⟨fun hm => ⟨nwr_holds hm, nwr_traps hm, nrd_traps hm, fun hok => ⟨nrd_stalls hm hok, nrd_sends hm hok⟩, memb_waits hm⟩,
    fun z ht hw hsealed hdone => memb_leaves ht hw hsealed hdone⟩

end Sys2Proof.Machine
end

section
/-! O57: flits that arrive and links that train and retrain (R270, R271). -/

namespace Sys2Proof.Machine
open Sys2Proof.Claim

/-! ### A link that is pumped -/

theorem linkOf_setLink (s : State) (l : Nat) (x : Link) : linkOf (setLink s l x).pkg l = x := mget_mput_same ..

theorem linkOf_setLink_ne (s : State) {l m : Nat} (x : Link) (h : m ≠ l) : linkOf (setLink s l x).pkg m = linkOf s.pkg m :=
  mget_mput_ne _ _ _ h

/-- Two states of a link that differ in what it sends at most. -/
structure SameReceiver (x y : Link) : Prop where
  up : y.up = x.up
  failures : y.failures = x.failures
  retraining : y.retraining = x.retraining
  rxSeq : y.rxSeq = x.rxSeq
  flits : y.flits = x.flits
  replays : y.replays = x.replays

theorem SameReceiver.refl (x : Link) : SameReceiver x x := ⟨rfl, rfl, rfl, rfl, rfl, rfl⟩

theorem SameReceiver.trans {x y z : Link} (h : SameReceiver x y) (h' : SameReceiver y z) : SameReceiver x z :=
  ⟨h'.up.trans h.up, h'.failures.trans h.failures, h'.retraining.trans h.retraining, h'.rxSeq.trans h.rxSeq,
    h'.flits.trans h.flits, h'.replays.trans h.replays⟩

theorem sameReceiver_sendFlits (credit : Nat → BitVec 8) (p : Packet) (fs : List (BitVec 512)) (x : Link) :
    SameReceiver x (sendFlits credit p fs x) := by
  induction fs generalizing x with
  | nil => exact .refl x
  | cons f r ih =>
    have hsent : SameReceiver x (sendFlit credit (if r = [] then some p else none) x f) := ⟨rfl, rfl, rfl, rfl, rfl, rfl⟩
    exact hsent.trans (ih _)

theorem sameReceiver_pump (credit : Nat → BitVec 8) (ps : List Packet) (x : Link) : SameReceiver x (pump credit ps x) := by
  induction ps generalizing x with
  | nil => exact ⟨rfl, rfl, rfl, rfl, rfl, rfl⟩
  | cons p r ih =>
    rw [pump]
    split
    · exact (sameReceiver_sendFlits ..).trans (ih _)
    · exact ⟨rfl, rfl, rfl, rfl, rfl, rfl⟩

theorem sameReceiver_pumpLink (s : State) (l m : Nat) : SameReceiver (linkOf s.pkg m) (linkOf (pumpLink s l).pkg m) := by
  by_cases hm : m = l
  · rw [hm, pumpLink, linkOf_setLink]
    exact sameReceiver_pump ..
  · rw [pumpLink, linkOf_setLink_ne _ _ hm]
    exact .refl _

/-- A link that is set and then pumped receives as it was set. -/
theorem sameReceiver_pumped (s : State) (l : Nat) (x : Link) : SameReceiver x (linkOf (pumpLink (setLink s l x) l).pkg l) := by
  have h := sameReceiver_pumpLink (setLink s l x) l l
  rwa [linkOf_setLink] at h

/-! ### A flit -/

section
variable {s : State} {l : Nat} {flit : BitVec 512} {trailer : BitVec 64}

theorem flitReceive_closed (h : 24 ≤ l ∨ (linkOf s.pkg l).up = false ∨ (linkOf s.pkg l).retraining.isSome = true) :
    Idle (.flitReceive l flit trailer) s := if_pos h

section
variable (hl : l < 24) (hup : (linkOf s.pkg l).up = true) (hr : (linkOf s.pkg l).retraining = none)
include hl hup hr

theorem link_open : ¬(l ≥ 24 ∨ (linkOf s.pkg l).up = false ∨ (linkOf s.pkg l).retraining.isSome = true) := by
  simp [hup, hr, Nat.not_le.mpr hl]

theorem flitReceive_corrupt (hc : ¬crcOk flit trailer) :
    ∃ t, exec (.flitReceive l flit trailer) s = .next t ∧ (linkOf t.pkg l).failures = (linkOf s.pkg l).failures + 1 ∧
      (linkOf t.pkg l).rxSeq = (linkOf s.pkg l).rxSeq ∧
      (linkOf t.pkg l).retraining = (if 16 ≤ (linkOf s.pkg l).failures then some s.now else none) ∧
      t.pkg.router = s.pkg.router := by
  refine ⟨_, (if_neg (link_open hl hup hr)).trans (if_pos hc), ?_, ?_, ?_, rfl⟩
  · rw [linkOf_setLink]
  · rw [linkOf_setLink]
  · rw [linkOf_setLink]

section
variable (hc : crcOk flit trailer)
include hc

theorem flitReceive_outOfSequence (hq : trailer.toNat / 2 ^ 32 % 2 ^ 12 ≠ (linkOf s.pkg l).rxSeq.toNat) :
    Idle (.flitReceive l flit trailer) s :=
  (if_neg (link_open hl hup hr)).trans ((if_neg (not_not_intro hc)).trans (if_pos hq))

variable (hq : trailer.toNat / 2 ^ 32 % 2 ^ 12 = (linkOf s.pkg l).rxSeq.toNat)
include hq

theorem flitReceive_taken : exec (.flitReceive l flit trailer) s = .next (takeFlit s l (linkOf s.pkg l) flit trailer) :=
  (if_neg (link_open hl hup hr)).trans ((if_neg (not_not_intro hc)).trans (if_neg (not_not_intro hq)))

theorem flitReceive_joins
    (hn : ((linkOf s.pkg l).flits ++ [flit]).length ≤ headerFlits (((linkOf s.pkg l).flits ++ [flit]).headD 0)) :
    ∃ t, exec (.flitReceive l flit trailer) s = .next t ∧ (linkOf t.pkg l).failures = 0 ∧
      (linkOf t.pkg l).rxSeq = (linkOf s.pkg l).rxSeq + 1 ∧ (linkOf t.pkg l).flits = (linkOf s.pkg l).flits ++ [flit] ∧
      t.pkg.router = s.pkg.router := by
  have hsame := sameReceiver_pumped s l { acknowledge (linkOf s.pkg l) (BitVec.ofNat 12 (bits trailer.toNat 44 12)) with
    failures := 0, rxSeq := (linkOf s.pkg l).rxSeq + 1, credits := (linkOf s.pkg l).credits + bits trailer.toNat 56 8
    flits := (linkOf s.pkg l).flits ++ [flit] }
  have htake := flitReceive_taken hl hup hr hc hq
  rw [takeFlit, if_neg (Nat.not_lt.mpr hn)] at htake
  exact ⟨_, htake, hsame.failures, hsame.rxSeq, hsame.flits, rfl⟩

section
variable (hf : (linkOf s.pkg l).flits = []) (h0 : headerFlits flit = 0)
include hf h0

/-- A packet of one flit is whole at once. -/
theorem flitReceive_whole : ∃ u, exec (.flitReceive l flit trailer) s = .next (arrivePacket u (headerBad flit) (parsePacket l flit [])) ∧
    u.pkg.router = s.pkg.router ∧ u.pkg.fabricErrors = s.pkg.fabricErrors := by
  have hlen : headerFlits (((linkOf s.pkg l).flits ++ [flit]).headD 0) < ((linkOf s.pkg l).flits ++ [flit]).length := by
    simp [hf, h0]
  have htake := flitReceive_taken hl hup hr hc hq
  rw [takeFlit, if_pos hlen, hf] at htake
  exact ⟨_, htake, rfl, rfl⟩

theorem flitReceive_packet (hb : headerBad flit = false) (h9 : 9 ≤ (parsePacket l flit []).typ)
    (h12 : (parsePacket l flit []).typ < 12) :
    ∃ t, exec (.flitReceive l flit trailer) s = .next t ∧ t.pkg.router = s.pkg.router ++ [parsePacket l flit []] := by
  obtain ⟨u, hexec, hrouter, -⟩ := flitReceive_whole hl hup hr hc hq hf h0
  rw [hb, arrivePacket, if_neg Bool.false_ne_true, receivePacket, if_pos ⟨h9, Nat.ne_of_lt h12⟩] at hexec
  exact ⟨_, hexec, congrArg (· ++ [parsePacket l flit []]) hrouter⟩

theorem flitReceive_reserved (hb : headerBad flit = true) :
    ∃ t, exec (.flitReceive l flit trailer) s = .next t ∧ t.pkg.router = s.pkg.router ∧
      t.pkg.fabricErrors = s.pkg.fabricErrors + 1 := by
  obtain ⟨u, hexec, hrouter, herrors⟩ := flitReceive_whole hl hup hr hc hq hf h0
  rw [hb, arrivePacket, if_pos rfl] at hexec
  exact ⟨_, hexec, hrouter, congrArg (· + 1) herrors⟩
end
end
end

/-! ### A link that trains -/

theorem linkTrained_up (hl : l < 24) :
    ∃ t, exec (.linkTrained l) s = .next t ∧ (linkOf t.pkg l).up = true ∧ (linkOf t.pkg l).retraining = none ∧
      (linkOf t.pkg l).failures = 0 ∧ (linkOf t.pkg l).replays = 0 := by
  have hsame := sameReceiver_pumped s l
    { replayFrom (linkOf s.pkg l) ((linkOf s.pkg l).txSeq - BitVec.ofNat 12 (linkOf s.pkg l).held.length) with
      up := true, failures := 0, retraining := none, replays := 0 }
  exact ⟨_, if_pos hl, hsame.up, hsame.retraining, hsame.failures, hsame.replays⟩

/-! ### A link that does not come up again -/

theorem sendOn_up (s : State) (l vc : Nat) (p : Packet) (m : Nat) : (linkOf (sendOn s l vc p).pkg m).up = (linkOf s.pkg m).up := by
  refine (sameReceiver_pumpLink _ l m).up.trans ?_
  change (linkOf (setLink s l { linkOf s.pkg l with tx := _ }).pkg m).up = _
  by_cases hm : m = l
  · rw [hm, linkOf_setLink]
  · rw [linkOf_setLink_ne _ _ hm]

/-- Packets that are delivered leave alone whether links are up, and the jobs. -/
theorem deliver_up (s : State) (p : Packet) (l : Nat) : (linkOf (deliver s p).pkg l).up = (linkOf s.pkg l).up := by
  unfold deliver
  split
  · rfl
  · split
    · exact sendOn_up ..
    · rfl

theorem deliver_jobs (s : State) (p : Packet) : (deliver s p).pkg.jobs = s.pkg.jobs := by
  unfold deliver
  split
  · rfl
  · split
    · rfl
    · rfl

theorem deliverAll_up (ps : List Packet) (s : State) (l : Nat) : (linkOf (deliverAll s ps).pkg l).up = (linkOf s.pkg l).up := by
  induction ps generalizing s with
  | nil => rfl
  | cons p r ih => exact (ih _).trans (deliver_up ..)

theorem deliverAll_jobs (ps : List Packet) (s : State) : (deliverAll s ps).pkg.jobs = s.pkg.jobs := by
  induction ps generalizing s with
  | nil => rfl
  | cons p r ih => exact (ih _).trans (deliver_jobs ..)

theorem routesFail_jobless (h : s.pkg.jobs = []) : routesFail s = s := by rw [routesFail, h]; rfl

theorem advanceWaves_jobless (h : s.pkg.jobs = []) : advanceWaves s = s := by rw [advanceWaves, h]; rfl

theorem linkRetrainTimeout_early (h : retrainOver s (linkOf s.pkg l) = false) : Idle (.linkRetrainTimeout l) s :=
  if_neg (Bool.not_eq_true _ ▸ h)

theorem linkRetrainTimeout_down (h : retrainOver s (linkOf s.pkg l) = true) (hj : s.pkg.jobs = []) :
    ∃ t, exec (.linkRetrainTimeout l) s = .next t ∧ (linkOf t.pkg l).up = false := by
  refine ⟨_, if_pos h, ?_⟩
  have hjobs := (deliverAll_jobs (queuedPackets (linkOf s.pkg l)) (setLink s l (downLink (linkOf s.pkg l)))).trans hj
  rw [routesFail_jobless hjobs, advanceWaves_jobless hjobs, deliverAll_up, linkOf_setLink]
  rfl
end

/-- Settles O57: one lemma for each fate of a flit, for a link that trains and for one that retrains too long. -/
theorem flitsArriveAndLinksRetrain : Obligations.FlitsArriveAndLinksRetrain := by
  unfold Obligations.FlitsArriveAndLinksRetrain
  intro s l flit trailer
  refine ⟨fun hl hup hr => ⟨flitReceive_corrupt hl hup hr, flitReceive_joins hl hup hr, fun hc hq hf h0 => ⟨?packet, ?reserved⟩,
    flitReceive_outOfSequence hl hup hr⟩, flitReceive_closed, linkTrained_up, linkRetrainTimeout_early, linkRetrainTimeout_down⟩
  case packet => exact flitReceive_packet hl hup hr hc hq hf h0
  case reserved => exact flitReceive_reserved hl hup hr hc hq hf h0

end Sys2Proof.Machine
end

section
/-! O58: remote accesses performed and answered (R275, R276). -/

namespace Sys2Proof.Machine
open Sys2Proof.Claim

/-! ### The packet at a place of the router -/

theorem packetAt_of_inRouter {s : State} {n typ : Nat} {p : Packet} (h : InRouter s n typ p) : packetAt s n typ = some p := by
  rw [packetAt, h.1]
  exact if_pos h.2

theorem packetAt_none {s : State} {n typ : Nat} (h : ∀ p, ¬InRouter s n typ p) : packetAt s n typ = none := by
  unfold packetAt
  split
  · next p hp => exact if_neg fun ht => h p ⟨hp, ht⟩
  · rfl

/-- An event of the router without its packet changes nothing. -/
theorem routerEvent_idle {s : State} {n typ : Nat} {i : Instr} (hi : RouterEvent n i typ) (h : ∀ p, ¬InRouter s n typ p) : Idle i s := by
  have hnone := packetAt_none h
  cases hi with
  | write => exact (exec_remoteWrite ..).trans (by rw [execRemoteWrite, hnone])
  | read => exact (exec_readRequest ..).trans (by rw [execReadRequest, hnone])
  | reply => exact (exec_readReply ..).trans (by rw [execReadReply, hnone])
  | acknowledgement => exact (exec_writeAcknowledgement ..).trans (by rw [execWriteAcknowledgement, hnone])
  | contribution => exact (exec_contribution ..).trans (by rw [execContribution, contributed, hnone])
  | result => exact (exec_collectiveResult ..).trans (by rw [execCollectiveResult, resultHere, hnone])
  | arrival => exact (exec_barrierArrival ..).trans (by rw [execBarrierArrival, contributed, hnone])
  | release => exact (exec_barrierRelease ..).trans (by rw [execBarrierRelease, resultHere, hnone])
  | cut => exact (exec_cutMarker ..).trans (by rw [execCutMarker, hnone])
  | resume => exact (exec_resumeMarker ..).trans (by rw [execResumeMarker, hnone])
  | sweep => exact (exec_sweepReport ..).trans (by rw [execSweepReport, hnone])
  | purge => exact (exec_purge ..).trans (by rw [execPurge, hnone])

/-! ### A remote write and a remote read -/

theorem poisonIf_keeps (bad : Bool) (s : State) (pa n : Nat) :
    (poisonIf bad s pa n).pkg.mem = s.pkg.mem ∧ (poisonIf bad s pa n).core = s.core ∧ (poisonIf bad s pa n).cluster = s.cluster ∧
      (poisonIf bad s pa n).pkg.router = s.pkg.router ∧ (poisonIf bad s pa n).pkg.node = s.pkg.node := by
  unfold poisonIf
  split
  · exact ⟨rfl, rfl, rfl, rfl, rfl⟩
  · exact ⟨rfl, rfl, rfl, rfl, rfl⟩

theorem newPacket_of_node {s u : State} (h : u.pkg.node = s.pkg.node) (typ job : Nat) (tag : BitVec 16) (dst : Nat) :
    newPacket u typ job tag dst = newPacket s typ job tag dst := by rw [newPacket, newPacket, h]

section
variable {s : State} {n : Nat} {p : Packet}

theorem remoteWrite_performs (hw : memWf s.pkg.mem = true) (hp : InRouter s n 1 p) (hok : remoteOk s p true = true) :
    ∃ u, exec (.remoteWrite n) s = .next (answer u p (answerOf s p 4 true)) ∧
      readMem u p.pa (netWidth p.width) = leBytes (netWidth p.width) p.data.toNat ∧
      (∀ a, a < p.pa ∨ p.pa + netWidth p.width ≤ a → sget u.pkg.mem a = sget s.pkg.mem a) ∧ u.core = s.core ∧
      u.cluster = s.cluster ∧ u.pkg.router = dropIndex s.pkg.router n := by
  obtain ⟨hmem, hcore, hcluster, hrouter, hnode⟩ := poisonIf_keeps p.bad
    (writeMem (takeOut s n) p.pa (leBytes (netWidth p.width) p.data.toNat)) p.pa (netWidth p.width)
  have hlen : (leBytes (netWidth p.width) p.data.toNat).length = netWidth p.width := length_leBytes ..
  refine ⟨_, ?_, ?_, fun a ha => ?_, hcore, hcluster, hrouter⟩
  · rw [exec_remoteWrite, execRemoteWrite, packetAt_of_inRouter hp]
    dsimp only
    rw [hok, if_pos rfl, newPacket_of_node hnode]
    rfl
  · rw [readMem, hmem]
    have := readBytes_writeBytes hw p.pa (leBytes (netWidth p.width) p.data.toNat)
    rwa [hlen] at this
  · rw [hmem]
    exact sget_writeBytes_out hw _ _ (by rwa [hlen])

theorem remoteWrite_refuses (hp : InRouter s n 1 p) (hbad : remoteOk s p true = false) :
    exec (.remoteWrite n) s = .next (answer (takeOut s n) p (answerOf s p 4 false)) := by
  rw [exec_remoteWrite, execRemoteWrite, packetAt_of_inRouter hp]
  dsimp only
  rw [hbad, if_neg Bool.false_ne_true]
  rfl

/-- Two flits carry a row of 128 bytes. -/
theorem rowFlits_ofNat (x : Nat) : rowFlits (BitVec.ofNat 1024 x) = [BitVec.ofNat 512 x, BitVec.ofNat 512 (x / 2 ^ 512)] := by
  have hlow : (BitVec.ofNat 1024 x).setWidth 512 = BitVec.ofNat 512 x := BitVec.setWidth_ofNat_of_le (by decide) x
  have hhigh : (BitVec.ofNat 1024 x >>> 512).setWidth 512 = BitVec.ofNat 512 (x / 2 ^ 512) := by
    refine BitVec.eq_of_toNat_eq ?_
    rw [BitVec.toNat_setWidth, BitVec.toNat_ushiftRight, BitVec.toNat_ofNat, BitVec.toNat_ofNat, Nat.shiftRight_eq_div_pow,
      show (1024 : Nat) = 512 + 512 from rfl, pow_add, Nat.mod_mul_right_div_self]
    exact Nat.mod_mod ..
  rw [rowFlits, hlow, hhigh]

theorem readRequest_performs (hp : InRouter s n 2 p) (hok : remoteOk s p false = true) (x : Nat)
    (hx : x = leNat (readMem s p.pa (netWidth p.width))) :
    exec (.readRequest n) s = .next (answer (takeOut s n) p { answerOf s p 3 true with
      data := if p.width = 4 then 0 else mod64 x, flits := if p.width = 4 then 2 else 0
      payload := if p.width = 4 then [BitVec.ofNat 512 x, BitVec.ofNat 512 (x / 2 ^ 512)] else [] }) := by
  rw [exec_readRequest, execReadRequest, packetAt_of_inRouter hp]
  dsimp only
  rw [hok, if_pos rfl, ← hx, rowFlits_ofNat]
  simp only [decide_eq_true_eq]
  rfl

theorem readRequest_refuses (hp : InRouter s n 2 p) (hbad : remoteOk s p false = false) :
    exec (.readRequest n) s = .next (answer (takeOut s n) p { answerOf s p 3 false with
      flits := if p.width = 4 then 2 else 0, payload := if p.width = 4 then [0, 0] else [] }) := by
  rw [exec_readRequest, execReadRequest, packetAt_of_inRouter hp]
  dsimp only
  rw [hbad, if_neg Bool.false_ne_true, rowFlits_ofNat]
  simp only [decide_eq_true_eq, Nat.zero_div]
  have hzero : (if p.width = 4 then 0 else w64 0) = (0 : Word) := ite_self _
  rw [hzero]
  rfl
end

/-! ### The answer to a request -/

/-- A state whose threads wait for the same answers, of which the same have arrived. -/
structure SameArrivals (s t : State) : Prop where
  nwrs : t.core.nwrs = s.core.nwrs
  arrived : ∀ k, (getSlot t k).arrived = (getSlot s k).arrived

theorem SameArrivals.trans {s t u : State} (h : SameArrivals s t) (g : SameArrivals t u) : SameArrivals s u :=
  ⟨g.nwrs.trans h.nwrs, fun k => (g.arrived k).trans (h.arrived k)⟩

theorem getSlot_of_core {s t : State} (h : t.core = s.core) (k : Nat) : getSlot t k = getSlot s k := by rw [getSlot, getSlot, h]

theorem sameArrivals_of_core {s t : State} (h : t.core = s.core) : SameArrivals s t :=
  ⟨by rw [h], fun k => by rw [getSlot_of_core h]⟩

theorem sameArrivals_beginBarw (s : State) (k clause bar : Nat) : SameArrivals s (beginBarw s k clause bar) := by
  unfold beginBarw
  dsimp only
  split
  · split <;> exact sameArrivals_of_core rfl
  · exact sameArrivals_of_core rfl

theorem sameArrivals_useReserve (s : State) (k : Nat) : SameArrivals s (useReserve s k) := by
  refine ⟨setSlot_core_nwrs .., fun j => ?_⟩
  rw [useReserve]
  by_cases h : j = 0 ↔ k = 0
  · have hs (u : State) : getSlot u j = getSlot u k := by
      rw [getSlot, getSlot, if_congr h rfl rfl]
    rw [hs, hs, getSlot_setSlot]
  · rw [getSlot_setSlot_other _ _ h]

theorem sameArrivals_performCluster (s : State) (o : OutItem) : SameArrivals s (performCluster s o) := by
  unfold performCluster
  split
  · exact sameArrivals_of_core rfl
  · extract_lets s1
    have h1 : SameArrivals s s1 := by
      unfold s1
      split
      · split
        · exact sameArrivals_beginBarw ..
        · exact sameArrivals_of_core rfl
      · split
        · exact sameArrivals_useReserve ..
        · exact sameArrivals_of_core rfl
      · exact sameArrivals_of_core rfl
    exact h1.trans (sameArrivals_of_core (clusterEffect_core ..))

theorem sameArrivals_dropItem (s : State) (id : Nat) : SameArrivals s (dropItem s id) := ⟨rfl, fun _ => rfl⟩

theorem sameArrivals_runAuto (s : State) (o : OutItem) : SameArrivals s (runAuto s o) := by
  unfold runAuto
  split
  · exact ⟨rfl, fun _ => rfl⟩
  · exact (sameArrivals_of_core (sendContribution_core ..)).trans (sameArrivals_dropItem ..)
  · exact (sameArrivals_dropItem ..).trans (sameArrivals_of_core (gswRequest_core ..))
  · exact (sameArrivals_dropItem ..).trans (sameArrivals_performCluster ..)

theorem sameArrivals_settleOut (n : Nat) (s : State) : SameArrivals s (settleOut s n) := by
  induction n generalizing s with
  | zero => exact sameArrivals_of_core rfl
  | succ n ih =>
    unfold settleOut
    split
    · exact sameArrivals_of_core rfl
    · exact (sameArrivals_runAuto ..).trans (ih _)

/-- A remote write that ends is told to the MEMB that waits for it, and no arrival is lost. -/
theorem finishNwr_nwrs (s : State) (id : Nat) (failed : Bool) :
    (finishNwr s id failed).core.nwrs = s.core.nwrs.map (fun n => if n.id = id then { n with finished := true, failed := failed } else n) ∧
      ∀ k, (getSlot (finishNwr s id failed) k).arrived = (getSlot s k).arrived := by
  obtain ⟨hn, ha⟩ := (sameArrivals_settleOut _ _).trans (sameArrivals_of_core (onlySends_sendReads _).core)
  exact ⟨hn, ha⟩

theorem mem_finishNwr {s : State} {id : Nat} (failed : Bool) {w : Nwr} (hw : w ∈ s.core.nwrs) (hid : w.id = id) :
    { w with finished := true, failed := failed } ∈ (finishNwr s id failed).core.nwrs := by
  rw [(finishNwr_nwrs ..).1]
  exact List.mem_map.mpr ⟨w, hw, if_pos hid⟩

theorem fillSlot_other (id : Nat) (r : Row) (poison fault : Option Nat) (s : State) {j k : Nat} (h : ¬(j = 0 ↔ k = 0)) :
    getSlot (fillSlot id r poison fault s k) j = getSlot s j := by
  unfold fillSlot
  dsimp only
  split
  · rfl
  · rw [getSlot_pmCount, getSlot_setSlot_other _ _ h]

theorem fillSlot_same (r : Row) (poison fault : Option Nat) {s : State} {id k : Nat} {y : Xfer}
    (h : findFirst (fun (y : Xfer) => decide (y.id = id)) (getSlot s k).xfers = some y) :
    (getSlot (fillSlot id r poison fault s k) k).arrived = mput (getSlot s k).arrived id ⟨r, poison, fault⟩ := by
  unfold fillSlot
  dsimp only
  rw [h]
  dsimp only
  rw [getSlot_pmCount, getSlot_setSlot]

theorem fillSlot_nwrs (id : Nat) (r : Row) (poison fault : Option Nat) (s : State) (k : Nat) :
    (fillSlot id r poison fault s k).core.nwrs = s.core.nwrs := by
  unfold fillSlot
  dsimp only
  split
  · rfl
  · rw [pmCount_core_nwrs, setSlot_core_nwrs]

theorem fillSlot_pkg (id : Nat) (r : Row) (poison fault : Option Nat) (s : State) (k : Nat) :
    (fillSlot id r poison fault s k).pkg = s.pkg := by
  unfold fillSlot
  dsimp only
  split
  · rfl
  · rw [pmCount_pkg, setSlot_pkg]

theorem getSlot_of_ne_zero (s : State) {k : Nat} (h : k ≠ 0) : getSlot s k = getSlot s 1 := by
  rw [getSlot, getSlot, if_neg h, if_neg one_ne_zero]

/-- What fills both slots has arrived in each whose landing slot waits for it. -/
theorem fillSlots_arrived (r : Row) (poison fault : Option Nat) {s : State} {id k : Nat} {y : Xfer}
    (h : findFirst (fun (y : Xfer) => decide (y.id = id)) (getSlot s k).xfers = some y) :
    (getSlot (fillSlot id r poison fault (fillSlot id r poison fault s 0) 1) k).arrived =
      mput (getSlot s k).arrived id ⟨r, poison, fault⟩ := by
  by_cases hk : k = 0
  · subst hk
    rw [fillSlot_other _ _ _ _ _ (by decide), fillSlot_same _ _ _ h]
  · rw [getSlot_of_ne_zero _ hk] at h ⊢
    rw [getSlot_of_ne_zero _ hk]
    have hone : getSlot (fillSlot id r poison fault s 0) 1 = getSlot s 1 := fillSlot_other _ _ _ _ _ (by decide)
    rw [fillSlot_same _ _ _ (hone ▸ h), hone]

section
variable {s : State} {n id : Nat} {p : Packet}

theorem readReply_fills (hp : InRouter s n 3 p) (ha : answered s p = some id) (hw : savedWaits s id = false) :
    ∃ t, exec (.readReply n) s = .next t ∧ (∀ r ∈ t.pkg.remotes, r.1 ≠ id) ∧
      ∀ k y, findFirst (fun (y : Xfer) => decide (y.id = id)) (getSlot s k).xfers = some y →
        (getSlot t k).arrived = mput (getSlot s k).arrived id
          ⟨if p.width = 4 then flitsRow p.payload else row64 p.data, if p.bad then some p.pa else none,
            if p.error then some 0x09 else none⟩ := by
  have hstep : exec (.readReply n) s = .next (fillSlot id (if p.width = 4 then flitsRow p.payload else row64 p.data)
      (if p.bad then some p.pa else none) (if p.error then some 0x09 else none)
      (fillSlot id (if p.width = 4 then flitsRow p.payload else row64 p.data) (if p.bad then some p.pa else none)
        (if p.error then some 0x09 else none) (forgetRequest (takeOut s n) id) 0) 1) := by
    rw [exec_readReply, execReadReply, packetAt_of_inRouter hp]
    dsimp only
    rw [ha]
    dsimp only
    rw [hw]
    exact if_neg Bool.false_ne_true
  refine ⟨_, hstep, fun r hr => ?_, fun k y hy => ?_⟩
  · rw [fillSlot_pkg, fillSlot_pkg] at hr
    exact of_decide_eq_true (List.mem_filter.mp hr).2
  · exact fillSlots_arrived (s := forgetRequest (takeOut s n) id) _ _ _ hy

theorem readReply_waits (hp : InRouter s n 3 p) (ha : answered s p = some id) (hw : savedWaits s id = true) : Idle (.readReply n) s := by
  refine (exec_readReply ..).trans ?_
  rw [execReadReply, packetAt_of_inRouter hp]
  dsimp only
  rw [ha]
  exact if_pos hw

theorem readReply_unasked (hp : InRouter s n 3 p) (ha : answered s p = none) : exec (.readReply n) s = .next (takeOut s n) := by
  rw [exec_readReply, execReadReply, packetAt_of_inRouter hp]
  dsimp only
  rw [ha]

theorem writeAcknowledgement_finishes (hp : InRouter s n 4 p) (ha : answered s p = some id) :
    exec (.writeAcknowledgement n) s = .next (finishNwr (forgetRequest (takeOut s n) id) id p.error) := by
  rw [exec_writeAcknowledgement, execWriteAcknowledgement, packetAt_of_inRouter hp]
  dsimp only
  rw [ha]

end

section
variable {s : State} {req : Nat} {r : Nat × Nat × Nat} (hr : findFirst (fun r => decide (r.1 = req)) s.pkg.remotes = some r)
include hr

theorem remoteTimeout_waits (h : remoteOver s r = false) : Idle (.remoteTimeout req) s := by
  refine (exec_remoteTimeout ..).trans ?_
  rw [execRemoteTimeout, hr]
  exact if_neg (Bool.eq_false_iff.mp h)

theorem remoteTimeout_ends (h : remoteOver s r = true) :
    exec (.remoteTimeout req) s = .next
      (finishNwr (fillSlot req 0 none (some 0x09) (fillSlot req 0 none (some 0x09) (forgetRequest s req) 0) 1) req true) := by
  rw [exec_remoteTimeout, execRemoteTimeout, hr]
  exact if_pos h

end

/-- Settles O58: what each packet's event does, and that a request which ends is found no more while all that waits for it is told. -/
theorem remoteAccessesArePerformedAndAnswered : Obligations.RemoteAccessesArePerformedAndAnswered := by
  unfold Obligations.RemoteAccessesArePerformedAndAnswered
  refine ⟨fun s n p hmem => ⟨fun hp => ⟨remoteWrite_performs hmem hp, remoteWrite_refuses hp⟩,
    fun hp => ⟨readRequest_performs hp, readRequest_refuses hp⟩, fun _ => readReply_fills, fun _ => readReply_waits, readReply_unasked,
    fun id hp ha => ⟨writeAcknowledgement_finishes hp ha, _, writeAcknowledgement_finishes hp ha, fun w hw hid => mem_finishNwr _ hw hid⟩⟩,
    fun s req r hr => ⟨remoteTimeout_waits hr, fun h => ⟨_, remoteTimeout_ends hr h, rfl, fun w hw hid => ?_, fun k y hy => ?_⟩⟩,
    fun s n typ i hi h => routerEvent_idle hi h⟩
  · refine mem_finishNwr _ ?_ hid
    rwa [fillSlot_nwrs, fillSlot_nwrs]
  · rw [(finishNwr_nwrs ..).2]
    exact fillSlots_arrived (s := forgetRequest s req) _ _ _ hy

end Sys2Proof.Machine
end

section
/-! O60: the markers of a wave and the reports of its sweep (R284, R285). -/

namespace Sys2Proof.Machine
open Sys2Proof.Claim

/-! ### What a wave leaves of the router -/

theorem sendOn_keeps (s : State) (l vc : Nat) (p : Packet) :
    (sendOn s l vc p).pkg.router = s.pkg.router ∧ (sendOn s l vc p).pkg.jobs = s.pkg.jobs := ⟨rfl, rfl⟩

theorem sendMarkers_keeps (s : State) (typ : Nat) (vcs : List Nat) (j : Job) :
    (sendMarkers s typ vcs j).pkg.router = s.pkg.router ∧ (sendMarkers s typ vcs j).pkg.jobs = s.pkg.jobs := by
  unfold sendMarkers
  refine List.foldlRecOn (motive := fun t : State => t.pkg.router = s.pkg.router ∧ t.pkg.jobs = s.pkg.jobs) (upLinks s.pkg) _
    ⟨rfl, rfl⟩ fun t ht l _ => ?_
  refine List.foldlRecOn (motive := fun t : State => t.pkg.router = s.pkg.router ∧ t.pkg.jobs = s.pkg.jobs) vcs _ ht fun u hu v _ => ?_
  obtain ⟨hrouter, hjobs⟩ := sendOn_keeps u l v (wavePacket t typ j (!j.initiator && decide (j.parent = l)) 0)
  exact ⟨hrouter.trans hu.1, hjobs.trans hu.2⟩

theorem putSaved_router (s : State) (jk : Nat) (j : Job) : (putSaved s jk j).pkg.router = s.pkg.router := by
  unfold putSaved writeSaveArea
  dsimp only
  split <;> rfl

theorem putSaved_jobs (s : State) (jk : Nat) (j : Job) : (putSaved s jk j).pkg.jobs = mput s.pkg.jobs jk j := by
  unfold putSaved writeSaveArea
  dsimp only
  split <;> rfl

/-- A cut that another node began is reported to its parent, which leaves the router as it is. -/
theorem advanceWave_router {s : State} {jk : Nat} {j : Job} (hj : mfind s.pkg.jobs jk = some j) (hi : j.initiator = false)
    (hin : j.incoming = false) : (advanceWave s jk).pkg.router = s.pkg.router := by
  rw [advanceWave, hj]
  dsimp only
  split
  · rw [hi, hin, if_neg Bool.false_ne_true, if_neg Bool.false_ne_true]
    exact putSaved_router ..
  · rfl

theorem advanceWave_idle {s : State} {jk : Nat} {j : Job} (hj : mfind s.pkg.jobs jk = some j) (hs : j.switching = false) :
    advanceWave s jk = s := by
  have hdone : waveDone s j = false := by rw [waveDone, hs, Bool.false_and, Bool.false_and]
  rw [advanceWave, hj]
  exact if_neg (Bool.eq_false_iff.mp hdone)

/-- What a cut leaves in the router are packets of other jobs, markers and reports. -/
theorem cutJob_router (s : State) (jk : Nat) (j : Job) (port : Nat) :
    ∀ q ∈ (cutJob s jk j (some port) none).pkg.router, ¬(q.job = j.id ∧ (q.typ < 9 ∨ q.typ = 12)) := by
  have hrouter : (cutJob s jk j (some port) none).pkg.router = s.pkg.router.filter (fun p => !swept j p) := by
    unfold cutJob
    extract_lets waiting j1 _ s1
    have hjobs : mfind (sendMarkers (putSaved s1 jk j1) 9 (List.range 8) j1).pkg.jobs jk = some j1 := by
      rw [(sendMarkers_keeps ..).2, putSaved_jobs, mfind_mput_same]
    rw [advanceWave_router hjobs rfl rfl, (sendMarkers_keeps ..).1, putSaved_router]
  intro q hq hswept
  rw [hrouter] at hq
  have hkept := (List.mem_filter.mp hq).2
  simp [swept, hswept] at hkept
  omega

/-! ### The three events -/

section
variable {s : State} {n jk : Nat} {p : Packet} {j : Job} (hj : findJob s.pkg p.job = some (jk, j))
include hj

theorem findJob_takeOut : findJob (takeOut s n).pkg p.job = some (jk, j) := hj

theorem cutMarker_job (hp : InRouter s n 9 p) :
    exec (.cutMarker n) s =
      if j.switchedOut then .next (takeOut s n)
      else if j.switching && !j.incoming then .next (markWave (takeOut s n) jk p)
      else .next (markWave (cutJob (takeOut s n) jk j (some p.port) none) jk p) := by
  rw [exec_cutMarker, execCutMarker, packetAt_of_inRouter hp]
  dsimp only
  rw [findJob_takeOut hj]

theorem resumeMarker_job (hp : InRouter s n 10 p) :
    exec (.resumeMarker n) s =
      if j.switchedOut then .next (markWave (resumeJob (takeOut s n) jk j (some p.port) none) jk p)
      else if j.switching && j.incoming then .next (markWave (takeOut s n) jk p)
      else .next (takeOut s n) := by
  rw [exec_resumeMarker, execResumeMarker, packetAt_of_inRouter hp]
  dsimp only
  rw [findJob_takeOut hj]

theorem sweepReport_job (hp : InRouter s n 11 p) : exec (.sweepReport n) s = .next (takeReport (takeOut s n) jk j p) := by
  rw [exec_sweepReport, execSweepReport, packetAt_of_inRouter hp]
  dsimp only
  rw [findJob_takeOut hj]

theorem cutMarker_effect (hp : InRouter s n 9 p) :
    (j.switchedOut = true → exec (.cutMarker n) s = .next (takeOut s n)) ∧
    (j.switchedOut = false → j.switching = true → j.incoming = false →
      exec (.cutMarker n) s = .next (markWave (takeOut s n) jk p)) ∧
    (j.switchedOut = false → j.switching = false ∨ j.incoming = true →
      exec (.cutMarker n) s = .next (markWave (cutJob (takeOut s n) jk j (some p.port) none) jk p)) := by
  rw [cutMarker_job hj hp]
  refine ⟨fun h => if_pos h, fun h hs hi => ?_, fun h hs => ?_⟩
  · rw [if_neg (Bool.eq_false_iff.mp h), hs, hi]
    exact if_pos rfl
  · have hfirst : (j.switching && !j.incoming) = false := by
      obtain hs | hi := hs
      · rw [hs, Bool.false_and]
      · rw [hi, Bool.not_true, Bool.and_false]
    rw [if_neg (Bool.eq_false_iff.mp h), if_neg (Bool.eq_false_iff.mp hfirst)]

theorem resumeMarker_effect (hp : InRouter s n 10 p) :
    (j.switchedOut = true →
      exec (.resumeMarker n) s = .next (markWave (resumeJob (takeOut s n) jk j (some p.port) none) jk p)) ∧
    (j.switchedOut = false → j.switching = true → j.incoming = true →
      exec (.resumeMarker n) s = .next (markWave (takeOut s n) jk p)) ∧
    (j.switchedOut = false → j.switching = false ∨ j.incoming = false → exec (.resumeMarker n) s = .next (takeOut s n)) := by
  rw [resumeMarker_job hj hp]
  refine ⟨fun h => if_pos h, fun h hs hi => ?_, fun h hs => ?_⟩
  · rw [if_neg (Bool.eq_false_iff.mp h), hs, hi]
    exact if_pos rfl
  · have hout : (j.switching && j.incoming) = false := by
      obtain hs | hi := hs
      · rw [hs, Bool.false_and]
      · rw [hi, Bool.and_false]
    rw [if_neg (Bool.eq_false_iff.mp h), if_neg (Bool.eq_false_iff.mp hout)]

theorem sweepReport_ofChild (hp : InRouter s n 11 p) (hg : p.group ≠ 2) (hs : j.switching = false) :
    exec (.sweepReport n) s = .next (setJob (takeOut s n) jk { j with
      children := j.children.filter (fun c => decide (c ≠ p.port)), count := j.count + p.data.toNat % 2 ^ 32
      lostWord := mergeFault j.lostWord ((p.payload.headD 0).setWidth 64) }) := by
  rw [sweepReport_job hj hp, takeReport]
  rw [if_neg hg, bits, pow_zero, Nat.div_one]
  exact congrArg _ (advanceWave_idle (mfind_mput_same ..) hs)

theorem sweepReport_ofParent (hp : InRouter s n 11 p) (hg : p.group = 2) :
    exec (.sweepReport n) s = .next (tellLost (takeOut s n) jk { j with lostWord := (p.payload.headD 0).setWidth 64 }) := by
  rw [sweepReport_job hj hp, takeReport]
  exact congrArg _ (if_pos hg)

end

/-- Settles O60: each event by the job's state; a cut takes the job's packets out of the router before it sends markers, which go to the
links. -/
theorem markersCutAndResumeJobs : Obligations.MarkersCutAndResumeJobs := by
  unfold Obligations.MarkersCutAndResumeJobs
  refine fun s n jk p j hj => ⟨fun hp => ?_, resumeMarker_effect hj, sweepReport_ofChild hj, sweepReport_ofParent hj⟩
  obtain ⟨hout, hlater, hfirst⟩ := cutMarker_effect hj hp
  exact ⟨hout, hlater, fun h hs => ⟨hfirst h hs, cutJob_router (takeOut s n) jk j p.port⟩⟩

end Sys2Proof.Machine
end

section
/-! O53: the DEBUG packets READ, WRITE and INJECT (R287, R299). -/

namespace Sys2Proof.Machine
open Sys2Proof.Claim

/-! ### A DEBUG packet -/

section
variable {s : State} {ctx idx op : Nat} {bs : List Byte} (h : DebugIs s ctx idx op bs)
include h

theorem debugPacket_done {done : DebugBody → Option (State × Nat)} {t : State} {st : Nat} (hd : done (debugBody bs) = some (t, st)) :
    debugPacket ctx idx op s done = .next (finishPacket t ctx bs st) := by
  rw [debugPacket, withPacket_next h.packet]
  refine (if_pos h.op).trans ?_
  rw [hd]

theorem debugPacket_waits {done : DebugBody → Option (State × Nat)} (hd : done (debugBody bs) = none) :
    debugPacket ctx idx op s done = .next s := by
  rw [debugPacket, withPacket_next h.packet]
  refine (if_pos h.op).trans ?_
  rw [hd]
end

/-! ### The spaces (Table 20.2) -/

section
variable {s : State} {d : DebugBody} {off n : Nat} {xs : List Byte}

theorem space_running (hsp : d.space = 1 ∨ d.space = 2) (hs : isStopped s d = false) :
    spaceBytes s d off n = none ∧ writeSpace s d off xs = none := by
  obtain hsp | hsp := hsp
  · exact ⟨by simp [spaceBytes, hsp, hs], by simp [writeSpace, hsp, hs]⟩
  · exact ⟨by simp [spaceBytes, hsp, hs], by simp [writeSpace, hsp, hs]⟩

theorem spaceBytes_pastWindow (hsp : d.space = 1) (h : (getSlot s d.slot).thread.winLen * 4096 < off + n) :
    spaceBytes s d off n = none := by simp [spaceBytes, hsp, h]

theorem writeSpace_pastWindow (hsp : d.space = 1) (h : (getSlot s d.slot).thread.winLen * 4096 < off + xs.length) :
    writeSpace s d off xs = none := by simp [writeSpace, hsp, h]

theorem spaceBytes_pastStatus (hsp : d.space = 2) (h : 8192 < off + n) : spaceBytes s d off n = none := by
  simp [spaceBytes, hsp, h]

theorem writeSpace_pastStatus (hsp : d.space = 2) (h : 8192 < off + xs.length) : writeSpace s d off xs = none := by
  simp [writeSpace, hsp, h]

theorem spaceBytes_pastCounts (hsp : d.space = 3) (h : 512 < off + n) : spaceBytes s d off n = none := by
  simp [spaceBytes, hsp, h]

theorem spaceBytes_pastTotals (hsp : d.space = 4) (h : 64 < off + n) : spaceBytes s d off n = none := by
  simp [spaceBytes, hsp, h]

theorem spaceBytes_unlisted (hsp : 4 < d.space) : spaceBytes s d off n = none := by
  unfold spaceBytes
  split
  case h_6 => rfl
  all_goals omega

theorem writeSpace_unlisted (hsp : 2 < d.space) : writeSpace s d off xs = none := by
  unfold writeSpace
  split
  case h_4 => rfl
  all_goals omega

theorem space_virtual (hsp : d.space = 0) :
    spaceBytes s d off n = readVirtual s (getCtx s d.target) off n ∧ writeSpace s d off xs = writeVirt s (getCtx s d.target) off xs := by
  rw [spaceBytes, writeSpace, hsp]
  exact ⟨rfl, rfl⟩

theorem spaceBytes_window (hsp : d.space = 1) (hs : isStopped s d = true) (h : off + n ≤ (getSlot s d.slot).thread.winLen * 4096) :
    spaceBytes s d off n = some (readSpad s ((getSlot s d.slot).thread.winBase * 4096 + off) n) := by
  simp [spaceBytes, hsp, hs, h]

theorem writeSpace_window (hsp : d.space = 1) (hs : isStopped s d = true)
    (h : off + xs.length ≤ (getSlot s d.slot).thread.winLen * 4096) :
    writeSpace s d off xs = some (writeSpad s ((getSlot s d.slot).thread.winBase * 4096 + off) xs) := by
  simp [writeSpace, hsp, hs, h]
end

theorem hostWrite_writes {s t : State} {bus : Nat} {xs : List Byte} (h : hostWrite s bus xs = some t) :
    t.pkg.mem = writeBytes s.pkg.mem (hostBase + bus) xs ∧ t.core = s.core := by
  unfold hostWrite at h
  split at h
  · obtain rfl := Option.some.inj h
    exact ⟨rfl, rfl⟩
  · cases h

/-! ### READ, WRITE and INJECT -/

section
variable {s : State} {ctx idx : Nat} {bs : List Byte}

section
variable (h : DebugIs s ctx idx 5 bs) (he : spaceElsewhere s (debugBody bs) = false)
include h he

theorem debugRead_fails (hbad : 4096 < transferLen (debugBody bs) ∨
    spaceBytes s (debugBody bs) (transferOff (debugBody bs)) (transferLen (debugBody bs)) = none ∨
    (∃ xs, spaceBytes s (debugBody bs) (transferOff (debugBody bs)) (transferLen (debugBody bs)) = some xs ∧
      hostWrite s (debugBody bs).addr xs = none)) :
    exec (.debugRead ctx idx) s = .next (finishPacket s ctx bs 1) := by
  rw [exec_debugRead, execDebugRead]
  refine debugPacket_done h ?_
  dsimp only
  split
  · rfl
  · next hlen =>
    rw [he, if_neg Bool.false_ne_true]
    obtain hlong | hnone | ⟨xs, hsome, hhost⟩ := hbad
    · exact absurd hlong hlen
    · rw [hnone]
    · rw [hsome]
      dsimp only
      rw [hhost]

theorem debugRead_copies {xs : List Byte} {t : State} (hlen : transferLen (debugBody bs) ≤ 4096)
    (hx : spaceBytes s (debugBody bs) (transferOff (debugBody bs)) (transferLen (debugBody bs)) = some xs)
    (ht : hostWrite s (debugBody bs).addr xs = some t) : exec (.debugRead ctx idx) s = .next (finishPacket t ctx bs 0) := by
  rw [exec_debugRead, execDebugRead]
  refine debugPacket_done h ?_
  dsimp only
  rw [if_neg (Nat.not_lt.mpr hlen), he, if_neg Bool.false_ne_true, hx]
  dsimp only
  rw [ht]
end

section
variable (h : DebugIs s ctx idx 6 bs) (he : spaceElsewhere s (debugBody bs) = false)
include h he

theorem debugWrite_fails (hbad : 4096 < transferLen (debugBody bs) ∨
    hostRead s (debugBody bs).addr (transferLen (debugBody bs)) = none ∨
    (∃ xs, hostRead s (debugBody bs).addr (transferLen (debugBody bs)) = some xs ∧
      writeSpace s (debugBody bs) (transferOff (debugBody bs)) xs = none)) :
    exec (.debugWrite ctx idx) s = .next (finishPacket s ctx bs 1) := by
  rw [exec_debugWrite, execDebugWrite]
  refine debugPacket_done h ?_
  dsimp only
  split
  · rfl
  · next hlen =>
    rw [he, if_neg Bool.false_ne_true]
    obtain hlong | hnone | ⟨xs, hsome, hspace⟩ := hbad
    · exact absurd hlong hlen
    · rw [hnone]
    · rw [hsome]
      dsimp only
      rw [hspace]

theorem debugWrite_copies {xs : List Byte} {t : State} (hlen : transferLen (debugBody bs) ≤ 4096)
    (hx : hostRead s (debugBody bs).addr (transferLen (debugBody bs)) = some xs)
    (ht : writeSpace s (debugBody bs) (transferOff (debugBody bs)) xs = some t) :
    exec (.debugWrite ctx idx) s = .next (finishPacket t ctx bs 0) := by
  rw [exec_debugWrite, execDebugWrite]
  refine debugPacket_done h ?_
  dsimp only
  rw [if_neg (Nat.not_lt.mpr hlen), he, if_neg Bool.false_ne_true, hx]
  dsimp only
  rw [ht]
end

section
variable (h : DebugIs s ctx idx 12 bs)
include h

theorem inject_reserved (hbad : (debugBody bs).operand % 4 = 3 ∨ bits (debugBody bs).operand 2 6 ≠ 0) :
    exec (.inject ctx idx) s = .next (finishPacket s ctx bs 1) :=
  (exec_inject ..).trans (debugPacket_done h (if_pos hbad))

variable (ho : onThisCore s (debugBody bs) = true) (h3 : (debugBody bs).operand % 4 ≠ 3) (h0 : bits (debugBody bs).operand 2 6 = 0)
include ho h3 h0

/-- What INJECT comes to on the core of the model, with no reserved bit. -/
theorem inject_here :
    exec (.inject ctx idx) s = .next
      (if ((getCtx s (debugBody bs).target).exclusive && decide (s.cluster.ctx = some (debugBody bs).target)) ||
          isStopped s (debugBody bs) then
        finishPacket (setSlot s (debugBody bs).slot { getSlot s (debugBody bs).slot with
          injectAt := (getSlot s (debugBody bs).slot).injectAt ++
            [(mod64 ((debugBody bs).operand / 256), (debugBody bs).operand % 4)] }) ctx bs 0
      else finishPacket s ctx bs 1) := by
  have hgood : ¬((debugBody bs).operand % 4 = 3 ∨ bits (debugBody bs).operand 2 6 ≠ 0) := not_or.mpr ⟨h3, not_not_intro h0⟩
  have hhere : ¬(!onThisCore s (debugBody bs)) = true := by rw [ho]; exact Bool.false_ne_true
  rw [exec_inject, execInject]
  split
  · next hc => exact debugPacket_done h ((if_neg hgood).trans ((if_neg hhere).trans (if_pos hc)))
  · next hc => exact debugPacket_done h ((if_neg hgood).trans ((if_neg hhere).trans (if_neg hc)))

theorem inject_adds (hc : (getCtx s (debugBody bs).target).exclusive = true ∧ s.cluster.ctx = some (debugBody bs).target ∨
    isStopped s (debugBody bs) = true) :
    exec (.inject ctx idx) s = .next (finishPacket (setSlot s (debugBody bs).slot { getSlot s (debugBody bs).slot with
      injectAt := (getSlot s (debugBody bs).slot).injectAt ++
        [(mod64 ((debugBody bs).operand / 256), (debugBody bs).operand % 4)] }) ctx bs 0) := by
  rw [inject_here h ho h3 h0, if_pos]
  simpa using hc

theorem inject_refused (hx : (getCtx s (debugBody bs).target).exclusive = false) (hs : isStopped s (debugBody bs) = false) :
    exec (.inject ctx idx) s = .next (finishPacket s ctx bs 1) := by
  rw [inject_here h ho h3 h0, if_neg]
  simp [hx, hs]
end
end

/-- Settles O53: the spaces one by one, then the three packets by their bodies. -/
theorem debugReadsWritesAndInjections : Obligations.DebugReadsWritesAndInjections := by
  unfold Obligations.DebugReadsWritesAndInjections
  exact ⟨fun s d off n xs => ⟨space_running, spaceBytes_pastWindow, writeSpace_pastWindow, spaceBytes_pastStatus, writeSpace_pastStatus,
      spaceBytes_pastCounts, spaceBytes_pastTotals, spaceBytes_unlisted, writeSpace_unlisted, space_virtual,
      fun hsp hs => ⟨spaceBytes_window hsp hs, writeSpace_window hsp hs⟩⟩,
    fun s ctx idx bs =>
      ⟨fun h he => ⟨debugRead_fails h he, fun xs t hlen hx ht => ⟨debugRead_copies h he hlen hx ht, hostWrite_writes ht⟩⟩,
      fun h he => ⟨debugWrite_fails h he, fun xs t => debugWrite_copies h he⟩,
      fun h ho h3 h0 => ⟨inject_adds h ho h3 h0, inject_refused h ho h3 h0⟩, inject_reserved⟩⟩

end Sys2Proof.Machine
end

section
/-! O54: samples, traces, counters and replay (R292 to R298). -/

namespace Sys2Proof.Machine
open Sys2Proof.Claim

/-! ### What the end of a packet leaves of the contexts -/

theorem getCtx_setCtx_ne (s : State) {c d : Nat} (x : Context) (h : d ≠ c) : getCtx (setCtx s c x) d = getCtx s d :=
  mget_mput_ne _ _ _ h

theorem getCtx_postCompletion_ne (s : State) {c d : Nat} (notice : Bool) (bs : List Byte) (h : d ≠ c) :
    getCtx (postCompletion s c notice bs) d = getCtx s d := by
  unfold postCompletion
  dsimp only
  split
  · exact getCtx_setCtx_ne (ringPut ..) _ h
  · split
    · exact getCtx_setCtx_ne _ _ h
    · exact getCtx_setCtx_ne _ _ h

theorem getCtx_finishPacket_ne (s : State) {ctx d : Nat} (bs : List Byte) (st : Nat) (h : d ≠ ctx) :
    getCtx (finishPacket s ctx bs st) d = getCtx s d := by
  unfold finishPacket
  dsimp only
  split
  · rw [getCtx_postCompletion_ne _ _ _ h, getCtx_setCtx_ne _ _ h]
  · exact getCtx_setCtx_ne _ _ h

/-- Two states of a context with the same session, trace, replay and event vector. -/
structure SameDebug (x y : Context) : Prop where
  session : y.session = x.session
  trace : y.trace = x.trace
  replay : y.replay = x.replay
  waitingEvents : y.waitingEvents = x.waitingEvents
  events : y.events = x.events

theorem finishPacket_sameDebug (s : State) (ctx : Nat) (bs : List Byte) (st c : Nat) :
    SameDebug (getCtx s c) (getCtx (finishPacket s ctx bs st) c) := by
  by_cases h : c = ctx
  · obtain ⟨cq, held, dropped, hfin⟩ := getCtx_finishPacket s ctx bs st
    rw [h, hfin]
    exact ⟨rfl, rfl, rfl, rfl, rfl⟩
  · rw [getCtx_finishPacket_ne s bs st h]
    exact ⟨rfl, rfl, rfl, rfl, rfl⟩

/-! ### A trace leaves the core alone -/

theorem closeFrame_core (s : State) (c : Nat) (t : Trace) : (closeFrame s c t).1.core = s.core := by
  unfold closeFrame
  dsimp only
  split
  · rfl
  · split
    · next u hu => exact writeVirt_core hu
    · rfl

theorem codeRecord_core (s : State) (c : Nat) (bs : List Byte) : (codeRecord s c bs).core = s.core := by
  unfold codeRecord
  split
  · rfl
  · dsimp only
    split
    · exact closeFrame_core ..
    · rfl

theorem flushTrace_core (s : State) (c : Nat) : (flushTrace s c).core = s.core := by
  unfold flushTrace
  split
  · rfl
  · dsimp only
    split
    · rfl
    · exact foldl_core (fun _ _ => codeRecord_core ..) ..

/-! ### SAMPLE, TRACE and COUNTERS -/

section
variable {s : State} {ctx idx : Nat} {bs : List Byte}

section
variable (h : DebugIs s ctx idx 8 bs) (ho : onThisCore s (debugBody bs) = true)
include h ho

/-- What SAMPLE comes to on the core of the model. -/
theorem sample_here {t : State} {st : Nat}
    (hd : (if (debugBody bs).operand = 0 then
        some (setSlot s (debugBody bs).slot { getSlot s (debugBody bs).slot with samplePeriod := 0 }, 0)
      else if 8 ≤ (debugBody bs).operand ∧ (debugBody bs).operand ≤ 20 then
        some (setSlot s (debugBody bs).slot
          { getSlot s (debugBody bs).slot with samplePeriod := mod64 (2 ^ (debugBody bs).operand) }, 0)
      else some (s, 1)) = some (t, st)) :
    exec (.sample ctx idx) s = .next (finishPacket t ctx bs st) := by
  have hhere : ¬(!onThisCore s (debugBody bs)) = true := by rw [ho]; exact Bool.false_ne_true
  exact (exec_sample ..).trans (debugPacket_done h ((if_neg hhere).trans hd))

theorem sample_off (h0 : (debugBody bs).operand = 0) :
    exec (.sample ctx idx) s = .next (finishPacket (setSlot s (debugBody bs).slot
      { getSlot s (debugBody bs).slot with samplePeriod := 0 }) ctx bs 0) :=
  sample_here h ho (if_pos h0)

theorem sample_on (h8 : 8 ≤ (debugBody bs).operand) (h20 : (debugBody bs).operand ≤ 20) :
    exec (.sample ctx idx) s = .next (finishPacket (setSlot s (debugBody bs).slot
      { getSlot s (debugBody bs).slot with samplePeriod := mod64 (2 ^ (debugBody bs).operand) }) ctx bs 0) :=
  sample_here h ho ((if_neg (by omega)).trans (if_pos ⟨h8, h20⟩))

theorem sample_refused (h0 : (debugBody bs).operand ≠ 0) (hbad : (debugBody bs).operand < 8 ∨ 20 < (debugBody bs).operand) :
    exec (.sample ctx idx) s = .next (finishPacket s ctx bs 1) :=
  sample_here h ho ((if_neg h0).trans (if_neg (by omega)))
end

section
variable (h : DebugIs s ctx idx 9 bs)
include h

theorem trace_ends (h0 : (debugBody bs).operand = 0) :
    ∃ t, exec (.trace ctx idx) s = .next t ∧ (getCtx t (debugBody bs).target).trace = none ∧ t.core = s.core := by
  refine ⟨_, (exec_trace ..).trans (debugPacket_done h (if_pos h0)), ?_, ?_⟩
  · rw [(finishPacket_sameDebug ..).trace, getCtx_setCtx]
  · rw [finishPacket_core]
    exact flushTrace_core ..

theorem trace_refused (h0 : (debugBody bs).operand ≠ 0) (hbad : bits (debugBody bs).operand 0 48 % 0x10000 ≠ 0 ∨
    bits (debugBody bs).operand 48 8 = 0 ∨ bits (debugBody bs).operand 62 2 ≠ 0) :
    exec (.trace ctx idx) s = .next (finishPacket s ctx bs 1) :=
  (exec_trace ..).trans (debugPacket_done h ((if_neg h0).trans (if_pos hbad)))

theorem trace_begins (h0 : (debugBody bs).operand ≠ 0) (hbase : bits (debugBody bs).operand 0 48 % 0x10000 = 0)
    (hunits : bits (debugBody bs).operand 48 8 ≠ 0) (hbits : bits (debugBody bs).operand 62 2 = 0) :
    ∃ t x, exec (.trace ctx idx) s = .next t ∧ (getCtx t (debugBody bs).target).trace = some x ∧
      x.base = bits (debugBody bs).operand 0 48 ∧ x.units = bits (debugBody bs).operand 48 8 ∧
      x.mask = bits (debugBody bs).operand 56 6 ∧ x.frame = [] ∧ x.written = 0 ∧ x.arrived = [] := by
  have hgood : ¬(bits (debugBody bs).operand 0 48 % 0x10000 ≠ 0 ∨ bits (debugBody bs).operand 48 8 = 0 ∨
      bits (debugBody bs).operand 62 2 ≠ 0) := not_or.mpr ⟨not_not_intro hbase, not_or.mpr ⟨hunits, not_not_intro hbits⟩⟩
  refine ⟨_, ⟨bits (debugBody bs).operand 0 48, bits (debugBody bs).operand 48 8, bits (debugBody bs).operand 56 6, [], 0, 0, 0, []⟩,
    (exec_trace ..).trans (debugPacket_done h ((if_neg h0).trans (if_neg hgood))), ?_, rfl, rfl, rfl, rfl, rfl, rfl⟩
  rw [(finishPacket_sameDebug ..).trace, getCtx_setCtx]
end

/-- The eight totals that COUNTERS copies. -/
theorem counters_copies (h : DebugIs s ctx idx 10 bs) :
    ∃ x, x = hostWrite (foldAll s (debugBody bs).target) (debugBody bs).addr ((List.range 8).flatMap (fun i =>
        leBytes 8 (sget (getCtx (foldAll s (debugBody bs).target) (debugBody bs).target).totals i).toNat)) ∧
      (∀ t, x = some t → exec (.counters ctx idx) s = .next (finishPacket t ctx bs 0)) ∧
      (x = none → exec (.counters ctx idx) s = .next (finishPacket (foldAll s (debugBody bs).target) ctx bs 1)) := by
  refine ⟨_, rfl, fun t ht => ?_, fun hn => ?_⟩
  · rw [exec_counters, execCounters]
    refine debugPacket_done h ?_
    dsimp only
    rw [ht]
  · rw [exec_counters, execCounters]
    refine debugPacket_done h ?_
    dsimp only
    rw [hn]

/-! ### REPLAY -/

theorem getCtx_setReplay (u : State) (c : Nat) (r : Replay) : getCtx (setReplay u c r) c = { getCtx u c with replay := r } :=
  getCtx_setCtx ..

/-- Changes of the event vector change nothing else of the context. -/
theorem foldl_changes (es : List (Nat × Word × Word × BitVec 16)) (x : Context) :
    ∃ ev, es.foldl (fun y e => clearEvents (setEvents y e.1 e.2.1) e.1 e.2.2.1) x = { x with events := ev } := by
  refine List.foldlRecOn (motive := fun y : Context => ∃ ev, y = { x with events := ev }) es _ ⟨x.events, rfl⟩ fun y hy e _ => ?_
  obtain ⟨ev, rfl⟩ := hy
  exact ⟨_, rfl⟩

/-- The waiting changes of the event vector are made, and nothing else of the context changes. -/
theorem getCtx_applyWaiting (u : State) (c : Nat) :
    ∃ ev, getCtx (applyWaiting u c) c = { getCtx u c with events := ev, waitingEvents := [] } ∧
      ((getCtx u c).waitingEvents = [] → ev = (getCtx u c).events) := by
  rw [applyWaiting, getCtx_setCtx]
  by_cases hw : (getCtx u c).waitingEvents = []
  · exact ⟨_, by rw [hw]; rfl, fun _ => rfl⟩
  · obtain ⟨ev, hev⟩ := foldl_changes (getCtx u c).waitingEvents { getCtx u c with waitingEvents := [] }
    exact ⟨ev, hev, fun h => absurd h hw⟩

theorem replay_listed {x : Nat} (hl : ReplayListed x = true) :
    ¬(2 < x % 256 ∨ bits x 8 40 * 256 % 0x10000 ≠ 0 ∨ bits x 48 16 ≠ 0) := by
  simp [ReplayListed] at hl
  omega

section
variable (h : DebugIs s ctx idx 11 bs)
include h

theorem replay_refused (hbad : ReplayListed (debugBody bs).operand = false) :
    exec (.replay ctx idx) s = .next (finishPacket s ctx bs 1) := by
  refine (exec_replay ..).trans (debugPacket_done h (if_pos ?_))
  by_contra hgood
  simp [ReplayListed] at hbad
  omega

variable (hl : ReplayListed (debugBody bs).operand = true)
include hl

theorem replay_setsMode (hm : (debugBody bs).operand % 256 ≠ 2) :
    ∃ t, exec (.replay ctx idx) s = .next t ∧
      (getCtx t (debugBody bs).target).replay =
        ⟨(debugBody bs).operand % 256, bits (debugBody bs).operand 8 40 * 256, (debugBody bs).addr, 0, none⟩ ∧
      (getCtx t (debugBody bs).target).waitingEvents = [] ∧
      ((getCtx s (debugBody bs).target).waitingEvents = [] →
        (getCtx t (debugBody bs).target).events = (getCtx s (debugBody bs).target).events) ∧
      t.core = s.core ∧ t.cluster = s.cluster := by
  obtain ⟨ev, hctx, hev⟩ := getCtx_applyWaiting (setReplay s (debugBody bs).target
    ⟨(debugBody bs).operand % 256, bits (debugBody bs).operand 8 40 * 256, (debugBody bs).addr, 0, none⟩) (debugBody bs).target
  rw [getCtx_setReplay] at hctx hev
  have hsame (t : State) := finishPacket_sameDebug t ctx bs 0 (debugBody bs).target
  refine ⟨_, (exec_replay ..).trans (debugPacket_done h ((if_neg (replay_listed hl)).trans (if_neg hm))), ?_, ?_, fun hw => ?_,
    finishPacket_core .., finishPacket_cluster ..⟩
  · rw [(hsame _).replay, hctx]
  · rw [(hsame _).waitingEvents, hctx]
  · rw [(hsame _).events, hctx]
    exact hev hw

theorem replay_reruns (hm : (debugBody bs).operand % 256 = 2) :
    ∃ u x, u = setReplay s (debugBody bs).target ⟨2, bits (debugBody bs).operand 8 40 * 256, (debugBody bs).addr, 0, none⟩ ∧
      x = copyBuffers u (debugBody bs).target false (logBound u (debugBody bs).target) 0 ∧
      exec (.replay ctx idx) s = .next (finishPacket (setReplay x.1 (debugBody bs).target
        ⟨2, bits (debugBody bs).operand 8 40 * 256, (debugBody bs).addr, x.2, some s.now⟩) ctx bs 0) := by
  refine ⟨_, _, rfl, rfl, ?_⟩
  refine (exec_replay ..).trans (debugPacket_done h ((if_neg (replay_listed hl)).trans ((if_pos hm).trans ?_)))
  rw [hm]
end
end

/-! ### Samples and reruns in time -/

theorem sampleEmit_notDue {s : State} {k : Nat} (h : sampleDue s k = false) : Idle (.sampleEmit k) s :=
  (exec_sampleEmit ..).trans (if_neg (Bool.eq_false_iff.mp h))

theorem sampleEmit_records {s : State} {k : Nat} (h : sampleDue s k = true) :
    exec (.sampleEmit k) s = .next (traceThread (setSlot s k { getSlot s k with sampledAt := s.now + 1 }) k 1
      [(getSlot s k).scyc.toNat, (getArch s k .A).na0.addr.toNat, (getArch s k .X0).na0.addr.toNat, (getArch s k .X1).na0.addr.toNat,
        (getArch s k .C).na0.addr.toNat]) :=
  (exec_sampleEmit ..).trans (if_pos h)

theorem getCtx_postFault_replay (s : State) (c : Nat) (bs : List Byte) : (getCtx (postFault s c bs) c).replay = (getCtx s c).replay := by
  unfold postFault
  dsimp only
  split
  · rw [getCtx_raiseMsix, getCtx_setCtx]
  · split
    · rw [getCtx_setCtx]
    · rw [getCtx_setCtx]

theorem replayTimeout_waits {s : State} {c : Nat} (h : rerunOver s c = false) : Idle (.replayTimeout c) s :=
  (exec_replayTimeout ..).trans (by rw [execReplayTimeout, if_neg (Bool.eq_false_iff.mp h)])

theorem replayTimeout_ends {s : State} {c : Nat} (h : rerunOver s c = true) :
    ∃ t, exec (.replayTimeout c) s = .next t ∧ (getCtx t c).replay.mode = 0 := by
  refine ⟨endRerun s c, (exec_replayTimeout ..).trans (by rw [execReplayTimeout, if_pos h]), ?_⟩
  obtain ⟨ev, hctx, -⟩ := getCtx_applyWaiting (setReplay s c { (getCtx s c).replay with mode := 0, waitSince := none }) c
  rw [endRerun, getCtx_postFault_replay, hctx, getCtx_setReplay]

/-- Settles O54: each packet by the branches of its operand; what ends it leaves the trace, the replay and the events as they are set. -/
theorem samplesTracesCountersAndReplay : Obligations.SamplesTracesCountersAndReplay := by
  unfold Obligations.SamplesTracesCountersAndReplay
  exact ⟨fun s ctx idx bs => ⟨fun h ho => ⟨sample_off h ho, sample_on h ho, sample_refused h ho⟩,
      fun h => ⟨trace_ends h, trace_begins h, trace_refused h⟩, counters_copies,
      fun h => ⟨replay_refused h, replay_setsMode h, replay_reruns h⟩⟩,
    fun s k => ⟨sampleEmit_notDue, sampleEmit_records⟩, fun s c => ⟨replayTimeout_waits, replayTimeout_ends⟩⟩

end Sys2Proof.Machine
end

section
/-! O52: debug sessions, stops, breakpoints and resumption (R287 to R291). -/

namespace Sys2Proof.Machine
open Sys2Proof.Claim

/-! ### A stop -/

section
variable {s u : State} {k reason image : Nat} (h : debugStop s k reason image = some u)
include h

/-- A stop freezes the core and changes nothing else of it. -/
theorem debugStop_core :
    u.core = { s.core with freeze := some (freezeSlots (s.core.freeze.getD ⟨s.now, none, none, []⟩) k image) } := by
  unfold debugStop at h
  dsimp only at h
  split at h
  · cases h
  · obtain rfl := Option.some.inj h
    rw [(debugNotice_keeps ..).1, traceThread_core]
    rfl

theorem debugStop_freeze : u.core.freeze.isSome = true := by
  rw [debugStop_core h]
  rfl

theorem debugStop_stopped : stoppedImage u k = some image := by
  rw [stoppedImage, debugStop_core h]
  dsimp only
  by_cases hk : k = 0
  · rw [if_pos hk, freezeSlots, if_pos hk]
  · rw [if_neg hk, freezeSlots, if_neg hk]

theorem debugStop_getSlot (j : Nat) : getSlot u j = getSlot s j := by
  rw [getSlot, debugStop_core h]
  rfl

theorem debugStop_getArch (j : Nat) (v : VoiceId) : getArch u j v = getArch s j v := by
  rw [getArch, getVoice, debugStop_getSlot h]
  rfl

theorem debugStop_spad : u.core.spad = s.core.spad := by rw [debugStop_core h]
end

theorem clockRuns_frozen {s : State} (h : s.core.freeze.isSome = true) : clockRuns s = false := by
  obtain ⟨f, hf⟩ := Option.isSome_iff_exists.mp h
  simp [clockRuns, hf]

theorem clockRuns_of_core {s t : State} (h : t.core = s.core) : clockRuns t = clockRuns s := by rw [clockRuns, clockRuns, h]

theorem stoppedImage_of_core {s t : State} (h : t.core = s.core) (k : Nat) : stoppedImage t k = stoppedImage s k := by
  rw [stoppedImage, stoppedImage, h]

theorem getArch_of_core {s t : State} (h : t.core = s.core) (k : Nat) (v : VoiceId) : getArch t k v = getArch s k v := by
  rw [getArch, getVoice, getSlot_of_core h]
  rfl

/-- The image of a stop is no part of a voice. -/
theorem getArch_setImage (s : State) (k image j : Nat) (v : VoiceId) :
    getArch (setSlot s k { getSlot s k with imageAt := image }) j v = getArch s j v :=
  getArch_setSlot_voices (fun w => by cases w <;> rfl) j v

theorem endSession_session (s : State) (c : Nat) : (getCtx (endSession s c) c).session = none := by
  rw [endSession, getCtx_setCtx]

/-- A breakpoint is due at an edge of a core that runs. -/
theorem stoppedImage_of_breakDue {s : State} {k : Nat} (h : breakDue s k = true) : stoppedImage s k = none := by
  have hf : s.core.freeze = none := by
    simp only [breakDue, atEdge, clockRuns, Bool.and_eq_true, decide_eq_true_eq] at h
    tauto
  rw [stoppedImage, hf]

theorem rollAt_of_breakDue {s : State} {k : Nat} (h : breakDue s k = true) : s.core.rollAt = none := by
  simp only [breakDue, Bool.and_eq_true, decide_eq_true_eq] at h
  tauto

/-! ### Slots that go on -/

theorem resumeSlot_running {s : State} {k : Nat} (edits limit : Bool) (h : stoppedImage s k = none) :
    resumeSlot s k edits limit = s := by rw [resumeSlot, h]

theorem resumeAll_running {s : State} (c : Nat) (limit : Bool) (h : s.core.freeze = none) : resumeAll s c limit = s := by
  unfold resumeAll
  extract_lets one
  have hslot (k : Nat) : one s k = s := by
    unfold one
    rw [resumeSlot_running false limit (by rw [stoppedImage, h])]
    exact ite_self _
  rw [hslot, hslot]

theorem unstop_freeze {s : State} {f : Freeze} (k : Nat) (h : s.core.freeze = some f) :
    (unstop s k).core.freeze = some (if k = 0 then { f with slot0 := none } else { f with slot1 := none }) := by
  rw [unstop, h]

/-- The last slot that goes on lets the core run (R288). -/
theorem resumeSlot_thaws {s : State} {k image : Nat} {f : Freeze} (hf : s.core.freeze = some f) (hk : stoppedImage s k = some image)
    (hother : stoppedImage s (if k = 0 then 1 else 0) = none) (hr : f.heldReports = []) :
    (resumeSlot s k false false).core.freeze = none := by
  have hthaw : (thawCore (unstop s k)).1.core.freeze = none ∧ (thawCore (unstop s k)).2 = [] := by
    rw [thawCore, unstop_freeze k hf]
    dsimp only
    rw [stoppedImage, hf] at hother
    by_cases h0 : k = 0
    · have h1 : f.slot1 = none := by simpa [h0] using hother
      simp [h0, h1, hr]
    · have h1 : f.slot0 = none := by simpa [h0] using hother
      simp [h0, h1, hr]
  obtain ⟨hfreeze, hreports⟩ := hthaw
  rw [resumeSlot, hk]
  dsimp only
  rw [if_neg Bool.false_ne_true, hreports, if_neg (not_not_intro rfl), if_neg Bool.false_ne_true]
  exact hfreeze

/-! ### ATTACH and DETACH -/

section
variable {s : State} {ctx idx : Nat} {bs : List Byte}

theorem attach_opens (h : DebugIs s ctx idx 1 bs) :
    exec (.attach ctx idx) s = .next (finishPacket (setCtx s (debugBody bs).target
      { getCtx s (debugBody bs).target with session := some ctx }) ctx bs 0) :=
  (exec_attach ..).trans (debugPacket_done h rfl)

theorem detach_ends (h : DebugIs s ctx idx 2 bs) :
    ∃ u, u = resumeAll s (debugBody bs).target false ∧
      exec (.detach ctx idx) s = .next (finishPacket (setCtx u (debugBody bs).target
        { getCtx u (debugBody bs).target with session := none }) ctx bs 0) ∧
      (s.core.freeze = none → u = s) :=
  ⟨_, rfl, (exec_detach ..).trans (debugPacket_done h rfl), resumeAll_running _ _⟩

/-! ### STOP -/

theorem here_of_onThisCore {d : DebugBody} (ho : onThisCore s d = true) : ¬(!onThisCore s d) = true := by
  rw [ho]
  exact Bool.false_ne_true

theorem session_held {d : DebugBody} (hh : holdsThread s d = true) (hses : (getCtx s d.target).session.isSome = true) :
    ¬(!holdsThread s d || (getCtx s d.target).session.isNone) = true := by
  obtain ⟨q, hq⟩ := Option.isSome_iff_exists.mp hses
  simp [hh, hq]

section
variable (h : DebugIs s ctx idx 3 bs) (ho : onThisCore s (debugBody bs) = true)
include h ho

theorem stop_refused (hbad : holdsThread s (debugBody bs) = false ∨ (getCtx s (debugBody bs).target).session = none) :
    exec (.stop ctx idx) s = .next (finishPacket s ctx bs 1) := by
  have hno : (!holdsThread s (debugBody bs) || (getCtx s (debugBody bs).target).session.isNone) = true := by
    obtain hbad | hbad := hbad <;> simp [hbad]
  exact (exec_stop ..).trans (debugPacket_done h ((if_neg (here_of_onThisCore ho)).trans (if_pos hno)))

section
variable (hh : holdsThread s (debugBody bs) = true) (hses : (getCtx s (debugBody bs).target).session.isSome = true)
include hh hses

theorem stop_again (hst : (stoppedImage s (debugBody bs).slot).isSome = true) :
    exec (.stop ctx idx) s = .next (finishPacket s ctx bs 0) :=
  (exec_stop ..).trans (debugPacket_done h
    ((if_neg (here_of_onThisCore ho)).trans ((if_neg (session_held hh hses)).trans (if_pos hst))))

section
variable (hst : (stoppedImage s (debugBody bs).slot).isSome = false)
include hst

theorem stop_waits (hroll : s.core.rollAt.isSome = true) : Idle (.stop ctx idx) s :=
  (exec_stop ..).trans (debugPacket_waits h ((if_neg (here_of_onThisCore ho)).trans
    ((if_neg (session_held hh hses)).trans ((if_neg (Bool.eq_false_iff.mp hst)).trans (if_pos hroll)))))

/-- A STOP that waits for no rollback and meets no breakpoint. -/
theorem stop_here (hroll : s.core.rollAt = none) (hb : breakDue s (debugBody bs).slot = false) {t : State} {st : Nat}
    (hd : (match debugStop (setSlot s (debugBody bs).slot { getSlot s (debugBody bs).slot with imageAt := (debugBody bs).addr })
        (debugBody bs).slot 0 (debugBody bs).addr with
      | some t => some (t, 0)
      | none => some (endSession (setSlot s (debugBody bs).slot
          { getSlot s (debugBody bs).slot with imageAt := (debugBody bs).addr }) (debugBody bs).target, 1)) = some (t, st)) :
    exec (.stop ctx idx) s = .next (finishPacket t ctx bs st) := by
  have hnoroll : ¬s.core.rollAt.isSome = true := by simp [hroll]
  refine (exec_stop ..).trans (debugPacket_done h ((if_neg (here_of_onThisCore ho)).trans
    ((if_neg (session_held hh hses)).trans ((if_neg (Bool.eq_false_iff.mp hst)).trans ((if_neg hnoroll).trans
      ((if_neg (Bool.eq_false_iff.mp hb)).trans ?_))))))
  exact hd
end

theorem stop_breaks (hb : breakDue s (debugBody bs).slot = true) :
    exec (.stop ctx idx) s = .next (finishPacket (breakStop s (debugBody bs).slot) ctx bs 0) := by
  have hst : ¬(stoppedImage s (debugBody bs).slot).isSome = true := by simp [stoppedImage_of_breakDue hb]
  have hroll : ¬s.core.rollAt.isSome = true := by simp [rollAt_of_breakDue hb]
  exact (exec_stop ..).trans (debugPacket_done h ((if_neg (here_of_onThisCore ho)).trans
    ((if_neg (session_held hh hses)).trans ((if_neg hst).trans ((if_neg hroll).trans (if_pos hb))))))

section
variable (hst : (stoppedImage s (debugBody bs).slot).isSome = false) (hroll : s.core.rollAt = none)
  (hb : breakDue s (debugBody bs).slot = false)
include hst hroll hb

theorem stop_freezes {u : State} (hd : debugStop (setSlot s (debugBody bs).slot
      { getSlot s (debugBody bs).slot with imageAt := (debugBody bs).addr }) (debugBody bs).slot 0 (debugBody bs).addr = some u) :
    ∃ t, exec (.stop ctx idx) s = .next t ∧ t.core.freeze.isSome = true ∧ clockRuns t = false ∧
      stoppedImage t (debugBody bs).slot = some (debugBody bs).addr ∧ (∀ k v, getArch t k v = getArch s k v) ∧
      t.core.spad = s.core.spad := by
  have hcore : (finishPacket u ctx bs 0).core = u.core := finishPacket_core ..
  refine ⟨_, stop_here h ho hh hses hst hroll hb (by rw [hd]), ?_, ?_, ?_, fun k v => ?_, ?_⟩
  · rw [hcore]
    exact debugStop_freeze hd
  · rw [clockRuns_of_core hcore]
    exact clockRuns_frozen (debugStop_freeze hd)
  · rw [stoppedImage_of_core hcore]
    exact debugStop_stopped hd
  · rw [getArch_of_core hcore, debugStop_getArch hd, getArch_setImage]
  · rw [hcore, debugStop_spad hd, setSlot_core_spad]

theorem stop_unwritten (hd : debugStop (setSlot s (debugBody bs).slot
      { getSlot s (debugBody bs).slot with imageAt := (debugBody bs).addr }) (debugBody bs).slot 0 (debugBody bs).addr = none) :
    ∃ t, exec (.stop ctx idx) s = .next t ∧ (getCtx t (debugBody bs).target).session = none ∧ t.core.freeze = s.core.freeze := by
  refine ⟨_, stop_here h ho hh hses hst hroll hb (by rw [hd]), ?_, ?_⟩
  · rw [(finishPacket_sameDebug ..).session, endSession_session]
  · rw [finishPacket_core]
    exact setSlot_core_freeze ..
end
end
end

/-! ### RESUME and BREAK -/

section
variable (h : DebugIs s ctx idx 4 bs) (ho : onThisCore s (debugBody bs) = true)
include h ho

theorem resume_reloads (hs : isStopped s (debugBody bs) = true) :
    exec (.resume ctx idx) s = .next (finishPacket (resumeSlot s (debugBody bs).slot true false) ctx bs 0) :=
  (exec_resume ..).trans (debugPacket_done h ((if_neg (here_of_onThisCore ho)).trans (if_pos hs)))

theorem resume_refused (hs : isStopped s (debugBody bs) = false) :
    exec (.resume ctx idx) s = .next (finishPacket s ctx bs 1) :=
  (exec_resume ..).trans (debugPacket_done h ((if_neg (here_of_onThisCore ho)).trans (if_neg (Bool.eq_false_iff.mp hs))))
end

theorem debugBreak_arms (h : DebugIs s ctx idx 7 bs) (ho : onThisCore s (debugBody bs) = true) :
    exec (.debugBreak ctx idx) s = .next (finishPacket (setSlot s (debugBody bs).slot { getSlot s (debugBody bs).slot with
      breakAt := if (debugBody bs).operand = 0 then none else some (mod64 (debugBody bs).operand)
      imageAt := (debugBody bs).addr, breakImage := (debugBody bs).addr }) ctx bs 0) :=
  (exec_debugBreak ..).trans (debugPacket_done h (if_pos ho))
end

/-! ### Breakpoints and limits -/

section
variable {s : State} {k : Nat}

theorem breakpoint_notDue (h : breakDue s k = false) : Idle (.breakpoint k) s :=
  (exec_breakpoint ..).trans (by rw [execBreakpoint, if_neg (Bool.eq_false_iff.mp h)])

theorem breakpoint_due (h : breakDue s k = true) : exec (.breakpoint k) s = .next (breakStop s k) :=
  (exec_breakpoint ..).trans (by rw [execBreakpoint, if_pos h])

theorem breakpoint_freezes {u : State} (h : breakDue s k = true)
    (hd : debugStop (setSlot s k { getSlot s k with breakAt := none }) k 1 (getSlot s k).breakImage = some u) :
    exec (.breakpoint k) s = .next u ∧ u.core.freeze.isSome = true ∧ (getSlot u k).breakAt = none := by
  refine ⟨?_, debugStop_freeze hd, ?_⟩
  · rw [breakpoint_due h, breakStop]
    dsimp only
    rw [hd]
  · rw [debugStop_getSlot hd, getSlot_setSlot]

theorem breakpoint_unwritten (h : breakDue s k = true)
    (hd : debugStop (setSlot s k { getSlot s k with breakAt := none }) k 1 (getSlot s k).breakImage = none) :
    ∃ u, exec (.breakpoint k) s = .next u ∧ (getCtx u (getSlot s k).thread.ctx).session = none ∧ (getSlot u k).breakAt = none ∧
      u.core.freeze = s.core.freeze := by
  refine ⟨endSession (setSlot s k { getSlot s k with breakAt := none }) (getSlot s k).thread.ctx, ?_, endSession_session .., ?_, ?_⟩
  · rw [breakpoint_due h, breakStop]
    dsimp only
    rw [hd]
  · exact congrArg Slot.breakAt (getSlot_setSlot s k { getSlot s k with breakAt := none })
  · exact setSlot_core_freeze ..

theorem freezeLimit_notReached {c : Nat} (h : limitReached s c = false) : Idle (.freezeLimit c) s :=
  (exec_freezeLimit ..).trans (by rw [execFreezeLimit, if_neg (Bool.eq_false_iff.mp h)])

theorem freezeLimit_reached {c : Nat} (h : limitReached s c = true) : exec (.freezeLimit c) s = .next (resumeAll s c true) :=
  (exec_freezeLimit ..).trans (by rw [execFreezeLimit, if_pos h])
end

/-- Settles O52: a stop changes of the core its freeze alone; the packets and the breakpoint by the branches of their definitions. -/
theorem debugSessionsStopAndResume : Obligations.DebugSessionsStopAndResume := by
  unfold Obligations.DebugSessionsStopAndResume
  exact ⟨fun s ctx idx bs => ⟨attach_opens, detach_ends,
      fun h ho => ⟨stop_refused h ho, fun u hh hses hst hroll hb hd => stop_freezes h ho hh hses hst hroll hb hd, stop_unwritten h ho,
        stop_breaks h ho, fun hh hses => ⟨stop_again h ho hh hses, stop_waits h ho hh hses⟩⟩,
      fun h ho => ⟨resume_reloads h ho, resume_refused h ho⟩, debugBreak_arms⟩,
    fun s k => ⟨breakpoint_notDue, fun u => breakpoint_freezes, breakpoint_unwritten⟩,
    fun s c => ⟨freezeLimit_notReached, freezeLimit_reached⟩, fun s k image f => resumeSlot_thaws⟩

end Sys2Proof.Machine
end

section
/-! O59: collectives that gather, complete and shrink, and purges (R278 to R283, R285). -/

namespace Sys2Proof.Machine
open Sys2Proof.Claim

/-! ### The instances of a job -/

theorem mem_of_findFirst {α : Type} {f : α → Bool} {l : List α} {x : α} (h : findFirst f l = some x) : x ∈ l := by
  induction l with
  | nil => cases h
  | cons y r ih =>
    rw [findFirst] at h
    split at h
    · exact Option.some.inj h ▸ List.mem_cons_self
    · exact List.mem_cons_of_mem _ (ih h)

theorem sameInstance_iff {i : Instance} {g num : Nat} {isBar : Bool} :
    sameInstance i g isBar num = true ↔ i.group = g ∧ i.isBar = isBar ∧ i.num = num := by
  simp only [sameInstance, Bool.and_eq_true, decide_eq_true_eq, and_assoc]

/-- A collective that is there is changed where it is. -/
theorem withInstance_here {j : Job} {g num : Nat} {isBar : Bool} {x : Instance} (hx : x ∈ j.instances)
    (hs : sameInstance x g isBar num = true) (f : Instance → Instance) :
    withInstance j g isBar num f =
      { j with instances := j.instances.map (fun z => if sameInstance z g isBar num then f z else z) } :=
  if_pos (List.any_eq_true.mpr ⟨x, hx, hs⟩)

/-- The job with a collective in its place. -/
abbrev putInstance (j : Job) (g : Nat) (isBar : Bool) (num : Nat) (y : Instance) : Job :=
  { j with instances := j.instances.map (fun z => if sameInstance z g isBar num then y else z) }

/-- A change of the one element that passes a test. -/
theorem map_of_filter_singleton {α : Type} {p : α → Bool} {l : List α} {x : α} (h : l.filter p = [x]) (f : α → α) :
    l.map (fun z => if p z then f z else z) = l.map (fun z => if p z then f x else z) := by
  refine List.map_congr_left fun z hz => ?_
  split
  · next hp =>
    have hmem : z ∈ l.filter p := List.mem_filter.mpr ⟨hz, hp⟩
    rw [h, List.mem_singleton] at hmem
    rw [hmem]
  · rfl

/-- The collective that is searched for is the one that was put in. -/
theorem findFirst_put {l : List Instance} {g num : Nat} {isBar : Bool} {x : Instance} {f : Instance → Instance}
    (hx : findFirst (fun z => sameInstance z g isBar num) l = some x)
    (hf : ∀ z, sameInstance (f z) g isBar num = sameInstance z g isBar num) :
    findFirst (fun z => sameInstance z g isBar num) (l.map (fun z => if sameInstance z g isBar num then f z else z)) =
      some (f x) := by
  have hmap (z : Instance) : sameInstance (if sameInstance z g isBar num then f z else z) g isBar num = sameInstance z g isBar num := by
    split
    · exact hf z
    · rfl
  rw [findFirst_map hmap, hx, Option.map_some, if_pos (findFirst_some (f := fun z => sameInstance z g isBar num) hx)]

/-! ### What leaves the instances and groups of a job alone -/

/-- The job at a place keeps its instances and its groups. -/
def KeepsCollectives (jk : Nat) (s t : State) : Prop :=
  ∀ j, mfind s.pkg.jobs jk = some j → ∃ u, mfind t.pkg.jobs jk = some u ∧ u.instances = j.instances ∧ u.groups = j.groups

theorem KeepsCollectives.trans {jk : Nat} {s t u : State} (h : KeepsCollectives jk s t) (g : KeepsCollectives jk t u) :
    KeepsCollectives jk s u := by
  intro j hj
  obtain ⟨v, hv, hvi, hvg⟩ := h j hj
  obtain ⟨w, hw, hwi, hwg⟩ := g v hv
  exact ⟨w, hw, hwi.trans hvi, hwg.trans hvg⟩

theorem keepsCollectives_of_jobs {jk : Nat} {s t : State} (h : t.pkg.jobs = s.pkg.jobs) : KeepsCollectives jk s t :=
  fun j hj => ⟨j, by rw [h, hj], rfl, rfl⟩

theorem keepsCollectives_inject (s : State) (jk : Nat) (p : Packet) : KeepsCollectives jk s (inject s jk p) := by
  intro j hj
  rw [inject, hj]
  dsimp only
  split
  · exact ⟨appendSaved s.now j { p with port := 24 }, by rw [putSaved_jobs, mfind_mput_same], rfl, rfl⟩
  · exact keepsCollectives_of_jobs (deliver_jobs ..) j hj

theorem keepsCollectives_foldl {α : Type} {jk : Nat} {f : State → α → State} (hf : ∀ s x, KeepsCollectives jk s (f s x))
    (xs : List α) (s : State) : KeepsCollectives jk s (xs.foldl f s) :=
  List.foldlRecOn (motive := KeepsCollectives jk s) xs f (keepsCollectives_of_jobs rfl) fun _ ht x _ => ht.trans (hf _ x)

/-! ### A collective completes -/

/-- A collective as its completion leaves it. -/
def completed (status count : Nat) (result : BitVec 32) (x : Instance) : Instance :=
  { x with complete := true, status := status, count := count, result := result }

theorem completeInstance_marks {s : State} {jk : Nat} {j : Job} (hj : mfind s.pkg.jobs jk = some j) (i : Instance) (status count : Nat)
    (result : BitVec 32) : ∃ u, mfind (completeInstance s jk i status count result).pkg.jobs jk = some u ∧
      u.instances = (withInstance j i.group i.isBar i.num (completed status count result)).instances ∧ u.groups = j.groups := by
  have hgroups : (withInstance j i.group i.isBar i.num (completed status count result)).groups = j.groups := by
    unfold withInstance
    split <;> rfl
  rw [completeInstance, hj]
  obtain ⟨u, hu, hui, hug⟩ := keepsCollectives_foldl (fun t m => keepsCollectives_inject t jk
      (resultPacket t j (completed status count result i) m))
    ((groupOf j i.group).members.filter (fun m => decide (m ≠ s.pkg.node)))
    (setJob s jk (withInstance j i.group i.isBar i.num (completed status count result))) _ (mfind_mput_same ..)
  exact ⟨u, hu, hui, hug.trans hgroups⟩

theorem completeInstance_mem {s : State} {jk : Nat} {j : Job} {i : Instance} (hj : mfind s.pkg.jobs jk = some j) (hi : i ∈ j.instances)
    (status count : Nat) (result : BitVec 32) : ∃ u, mfind (completeInstance s jk i status count result).pkg.jobs jk = some u ∧
      completed status count result i ∈ u.instances := by
  have hsame : sameInstance i i.group i.isBar i.num = true := sameInstance_iff.mpr ⟨rfl, rfl, rfl⟩
  obtain ⟨u, hu, hinstances, -⟩ := completeInstance_marks hj i status count result
  refine ⟨u, hu, ?_⟩
  rw [hinstances, withInstance_here hi hsame]
  exact List.mem_map.mpr ⟨i, hi, if_pos hsame⟩

/-! ### Contributions and arrivals -/

/-- A collective that is not complete counts the contribution a packet brings. -/
def takeContribution (p : Packet) (i : Instance) : Instance :=
  if i.complete then i
  else { addContribution i p.src p.mean (p.data.setWidth 32) with status := max i.status (bits p.data.toNat 32 4) }

section
variable {s : State} {n jk : Nat} {p : Packet} {j : Job} {isBar : Bool} {typ : Nat} {i : Instr}

/-- A contribution leaves the collective's key. -/
theorem contributed_key {x y : Instance} (hx : findFirst (fun y => sameInstance y p.group isBar p.inst) j.instances = some x)
    (hy : y = { addContribution x p.src p.mean (p.data.setWidth 32) with status := max x.status (p.data.toNat / 2 ^ 32 % 2 ^ 4) }) :
    y.group = p.group ∧ y.isBar = isBar ∧ y.num = p.inst := by
  have hkey := sameInstance_iff.mp (findFirst_some (f := fun y => sameInstance y p.group isBar p.inst) hx)
  rw [hy]
  exact hkey

theorem exec_contributed (hi : (i, typ, isBar) = (.contribution n, 5, false) ∨ (i, typ, isBar) = (.barrierArrival n, 7, true)) :
    exec i s = .next (contributed s n typ isBar) := by
  obtain hi | hi := hi
  · obtain ⟨rfl, rfl, rfl⟩ := by simpa only [Prod.mk.injEq] using hi
    exact exec_contribution ..
  · obtain ⟨rfl, rfl, rfl⟩ := by simpa only [Prod.mk.injEq] using hi
    exact exec_barrierArrival ..

theorem contributed_noJob (hp : InRouter s n typ p) (hj : findJob s.pkg p.job = none) : contributed s n typ isBar = takeOut s n := by
  have hj' : findJob (takeOut s n).pkg p.job = none := hj
  rw [contributed, packetAt_of_inRouter hp]
  dsimp only
  rw [hj']

section
variable (hp : InRouter s n typ p) (hj : findJob s.pkg p.job = some (jk, j))
include hp hj

theorem contributed_noMember (hg : (groupOf j p.group).valid = false ∨ p.src ∉ (groupOf j p.group).members) :
    contributed s n typ isBar = takeOut s n := by
  rw [contributed, packetAt_of_inRouter hp]
  dsimp only
  rw [findJob_takeOut hj]
  refine if_pos ?_
  obtain hg | hg := hg <;> simp [hg]

section
variable (hv : (groupOf j p.group).valid = true) (hm : p.src ∈ (groupOf j p.group).members)
include hv hm

theorem contributed_lost (hl : IsLost p isBar) : contributed s n typ isBar = failInstance (takeOut s n) jk p.group isBar p.inst := by
  have hmember : ¬(!(groupOf j p.group).valid || !(groupOf j p.group).members.contains p.src) = true := by simp [hv, hm]
  rw [contributed, packetAt_of_inRouter hp]
  dsimp only
  rw [findJob_takeOut hj]
  refine (if_neg hmember).trans ?_
  split
  · next hbad =>
    rw [Bool.and_eq_true, Bool.not_eq_true'] at hbad
    rw [hbad.2]
  · next hbad =>
    refine if_pos (hl.resolve_left fun h => hbad ?_)
    rw [h.1, h.2]
    rfl

variable (hl : ¬IsLost p isBar)
include hl

/-- What a contribution comes to that a member has sent and that is not lost. -/
theorem contributed_member {t : State}
    (ht : (if gatherNode (groupOf j p.group) s.pkg.node ≠ s.pkg.node then
        inject (takeOut s n) jk { p with dst := gatherNode (groupOf j p.group) s.pkg.node }
      else
        match instanceOf (withInstance j p.group isBar p.inst (takeContribution p)) p.group isBar p.inst with
        | some i => tryComplete (setJob (takeOut s n) jk (withInstance j p.group isBar p.inst (takeContribution p))) jk i
        | none => takeOut s n) = t) : contributed s n typ isBar = t := by
  have hmember : ¬(!(groupOf j p.group).valid || !(groupOf j p.group).members.contains p.src) = true := by simp [hv, hm]
  have hbad : ¬(p.bad && !isBar) = true := fun h => by
    rw [Bool.and_eq_true, Bool.not_eq_true'] at h
    exact hl (.inl h)
  have hdropped : ¬bits p.data.toNat 32 4 = 2 := fun h => hl (.inr h)
  rw [contributed, packetAt_of_inRouter hp]
  dsimp only
  rw [findJob_takeOut hj]
  refine (if_neg hmember).trans ((if_neg hbad).trans ((if_neg hdropped).trans ?_))
  exact ht

theorem contributed_sentOn (hg : gatherNode (groupOf j p.group) s.pkg.node ≠ s.pkg.node) :
    contributed s n typ isBar = inject (takeOut s n) jk { p with dst := gatherNode (groupOf j p.group) s.pkg.node } :=
  contributed_member hp hj hv hm hl (if_pos hg)

section
variable (hg : gatherNode (groupOf j p.group) s.pkg.node = s.pkg.node) {x y : Instance}
  (hx : findFirst (fun y => sameInstance y p.group isBar p.inst) j.instances = some x) (hc : x.complete = false)
  (honly : j.instances.filter (fun y => sameInstance y p.group isBar p.inst) = [x])
  (hy : y = { addContribution x p.src p.mean (p.data.setWidth 32) with status := max x.status (p.data.toNat / 2 ^ 32 % 2 ^ 4) })
include hg hx hc honly hy

/-- The contribution is counted, and the collective tried. -/
theorem contributed_counted :
    contributed s n typ isBar = tryComplete (setJob (takeOut s n) jk (putInstance j p.group isBar p.inst y)) jk y := by
  have hsame := findFirst_some (f := fun y => sameInstance y p.group isBar p.inst) hx
  have hput : withInstance j p.group isBar p.inst (takeContribution p) = putInstance j p.group isBar p.inst y := by
    rw [withInstance_here (mem_of_findFirst hx) hsame, map_of_filter_singleton honly, takeContribution, hc, if_neg Bool.false_ne_true, hy]
    rfl
  refine contributed_member hp hj hv hm hl ((if_neg (not_not_intro hg)).trans ?_)
  have hfound : instanceOf (putInstance j p.group isBar p.inst y) p.group isBar p.inst = some y := by
    have hysame : sameInstance y p.group isBar p.inst = true := by rw [hy]; exact hsame
    have hmap (z : Instance) : sameInstance (if sameInstance z p.group isBar p.inst then y else z) p.group isBar p.inst =
        sameInstance z p.group isBar p.inst := by
      split
      · next h => rw [h, hysame]
      · rfl
    exact (findFirst_map hmap _).trans (by rw [hx, Option.map_some, if_pos hsame])
  rw [hput, hfound]

theorem contributed_waits (hw : allIn (groupOf j p.group).members y = false ∨ (p.group, isBar, p.inst) ∈ j.atStart) :
    contributed s n typ isBar = setJob (takeOut s n) jk (putInstance j p.group isBar p.inst y) := by
  obtain ⟨hgroup, hbar, hnum⟩ := contributed_key hx hy
  rw [contributed_counted hp hj hv hm hl hg hx hc honly hy, tryComplete, setJob, mfind_mput_same]
  refine if_neg ?_
  obtain hw | hw := hw
  · have hnot : allIn (groupOf (putInstance j p.group isBar p.inst y) y.group).members y = false := by
      rw [hgroup]
      exact hw
    simp [hnot]
  · simp [instanceOpen, hgroup, hbar, hnum, hw]

theorem contributed_completes (hall : allIn (groupOf j p.group).members y = true) (hopen : (p.group, isBar, p.inst) ∉ j.atStart) :
    ∃ u, mfind (contributed s n typ isBar).pkg.jobs jk = some u ∧
      { y with
        complete := true, count := (groupOf j p.group).members.length
        result := if isBar then 0 else combine (groupOf j p.group).members p.mean y.contribs } ∈ u.instances := by
  obtain ⟨hgroup, hbar, hnum⟩ := contributed_key hx hy
  have hmean : y.mean = p.mean := by rw [hy]; rfl
  have hycomplete : y.complete = false := by rw [hy]; exact hc
  have hput : y ∈ (putInstance j p.group isBar p.inst y).instances :=
    List.mem_map.mpr ⟨x, mem_of_findFirst hx, if_pos (findFirst_some (f := fun y => sameInstance y p.group isBar p.inst) hx)⟩
  have hg' : gatherNode (groupOf j p.group) (takeOut s n).pkg.node = (takeOut s n).pkg.node := hg
  have hgroups : groupOf (putInstance j p.group isBar p.inst y) p.group = groupOf j p.group := rfl
  obtain ⟨u, hu, hmem⟩ := completeInstance_mem (s := setJob (takeOut s n) jk (putInstance j p.group isBar p.inst y))
    (mfind_mput_same ..) hput y.status (groupOf j p.group).members.length
    (if isBar then 0 else combine (groupOf j p.group).members p.mean y.contribs)
  refine ⟨u, ?_, hmem⟩
  rw [← hu, contributed_counted hp hj hv hm hl hg hx hc honly hy, tryComplete, setJob, mfind_mput_same]
  dsimp only
  rw [hgroup, hgroups, hbar, hmean, if_pos]
  simpa [hycomplete, instanceOpen, hgroup, hbar, hnum, hopen, hall, hg'] using List.ne_nil_of_mem hm
end
end
end
end

/-! ### Results and releases -/

section
variable {s : State} {n jk : Nat} {p : Packet} {j : Job} {isBar : Bool} {typ : Nat} {i : Instr} {x : Instance}

theorem exec_resultHere (hi : (i, typ, isBar) = (.collectiveResult n, 6, false) ∨ (i, typ, isBar) = (.barrierRelease n, 8, true)) :
    exec i s = .next (resultHere s n typ isBar) := by
  obtain hi | hi := hi
  · obtain ⟨rfl, rfl, rfl⟩ := by simpa only [Prod.mk.injEq] using hi
    exact exec_collectiveResult ..
  · obtain ⟨rfl, rfl, rfl⟩ := by simpa only [Prod.mk.injEq] using hi
    exact exec_barrierRelease ..

/-- A collective that is not complete takes the result a packet brings. -/
def takeResult (p : Packet) (isBar : Bool) (i : Instance) : Instance :=
  if i.complete then i
  else { i with
    complete := true, status := bits p.data.toNat 32 4, count := bits p.data.toNat 36 20, result := p.data.setWidth 32
    bad := p.bad && !isBar }

theorem sameInstance_takeResult (z : Instance) (g num : Nat) :
    sameInstance (takeResult p isBar z) g isBar num = sameInstance z g isBar num := by
  unfold takeResult
  split <;> rfl

theorem resultHere_puts (hp : InRouter s n typ p) (hj : findJob s.pkg p.job = some (jk, j))
    (hx : findFirst (fun y => sameInstance y p.group isBar p.inst) j.instances = some x) :
    ∃ u, mfind (resultHere s n typ isBar).pkg.jobs jk = some u ∧
      findFirst (fun y => sameInstance y p.group isBar p.inst) u.instances = some (takeResult p isBar x) := by
  have hsame := findFirst_some (f := fun y => sameInstance y p.group isBar p.inst) hx
  refine ⟨withInstance j p.group isBar p.inst (takeResult p isBar), ?_, ?_⟩
  · rw [resultHere, packetAt_of_inRouter hp]
    dsimp only
    rw [findJob_takeOut hj]
    exact mfind_mput_same ..
  · rw [withInstance_here (mem_of_findFirst hx) hsame]
    exact findFirst_put hx fun z => sameInstance_takeResult ..
end

/-! ### A member fails (R282) -/

/-- What the failure of a member leaves of a collective of its group. -/
def shrunk (grp node : Nat) (i : Instance) : Instance :=
  if i.group = grp ∧ i.complete = false then
    { i with status := 1, contribs := i.contribs.filter (fun c => decide (c.1 ≠ node)) } else i

/-- The instances hold one of this key whose status is SHRUNK. -/
def HasShrunk (is : List Instance) (x : Instance) : Prop :=
  ∃ y ∈ is, y.group = x.group ∧ y.isBar = x.isBar ∧ y.num = x.num ∧ y.status = 1

theorem hasShrunk_withInstance {j : Job} {x : Instance} (h : HasShrunk j.instances x) (i : Instance) (count : Nat) (result : BitVec 32) :
    HasShrunk (withInstance j i.group i.isBar i.num (completed 1 count result)).instances x := by
  obtain ⟨y, hy, hgroup, hbar, hnum, hstatus⟩ := h
  unfold withInstance
  split
  · refine ⟨_, List.mem_map.mpr ⟨y, hy, rfl⟩, ?_⟩
    split
    · exact ⟨hgroup, hbar, hnum, rfl⟩
    · exact ⟨hgroup, hbar, hnum, hstatus⟩
  · exact ⟨y, List.mem_append_left _ hy, hgroup, hbar, hnum, hstatus⟩

/-- The job at a place has these groups, and a collective with status SHRUNK for each of these. -/
def ShrunkJob (jk : Nat) (groups : KMap Group) (xs : List Instance) (s : State) : Prop :=
  ∃ u, mfind s.pkg.jobs jk = some u ∧ u.groups = groups ∧ ∀ x ∈ xs, HasShrunk u.instances x

section
variable {jk : Nat} {groups : KMap Group} {xs : List Instance}

theorem shrunkJob_of_keeps {s t : State} (hk : KeepsCollectives jk s t) (h : ShrunkJob jk groups xs s) : ShrunkJob jk groups xs t := by
  obtain ⟨u, hu, hgroups, hxs⟩ := h
  obtain ⟨v, hv, hvi, hvg⟩ := hk u hu
  exact ⟨v, hv, hvg.trans hgroups, fun x hx => hvi ▸ hxs x hx⟩

theorem shrunkJob_tryComplete {s : State} (h : ShrunkJob jk groups xs s) {i : Instance} (hi : i.status = 1) :
    ShrunkJob jk groups xs (tryComplete s jk i) := by
  obtain ⟨u, hu, hgroups, hxs⟩ := h
  rw [tryComplete, hu]
  dsimp only
  split
  · rw [hi]
    obtain ⟨v, hv, hvi, hvg⟩ := completeInstance_marks hu i 1 (groupOf u i.group).members.length
      (if i.isBar then 0 else combine (groupOf u i.group).members i.mean i.contribs)
    exact ⟨v, hv, hvg.trans hgroups, fun x hx => hvi ▸ hasShrunk_withInstance (hxs x hx) ..⟩
  · exact ⟨u, hu, hgroups, hxs⟩

theorem shrunkJob_regather {s : State} {g : Nat} (h : ShrunkJob jk groups xs s) {i : Instance}
    (hi : i.group = g → i.complete = false → i.status = 1) : ShrunkJob jk groups xs (regather jk g s i) := by
  unfold regather
  split
  · exact h
  · dsimp only
    split
    · exact h
    · next hopen =>
      obtain ⟨hgroup, hcomplete⟩ := not_or.mp hopen
      split
      · exact shrunkJob_tryComplete h (hi (not_not.mp hgroup) (Bool.eq_false_iff.mpr hcomplete))
      · split
        · exact h
        · exact shrunkJob_of_keeps (keepsCollectives_inject _ _ _) h
end

theorem status_shrunk {grp node : Nat} (x : Instance) (hg : (shrunk grp node x).group = grp) (hc : (shrunk grp node x).complete = false) :
    (shrunk grp node x).status = 1 := by
  unfold shrunk at hg hc ⊢
  split
  · rfl
  · next hno =>
    rw [if_neg hno] at hg hc
    exact absurd ⟨hg, hc⟩ hno

theorem hasShrunk_shrunk {grp node : Nat} {is : List Instance} {x : Instance} (hx : x ∈ is) (hg : x.group = grp)
    (hc : x.complete = false) : HasShrunk (is.map (shrunk grp node)) x := by
  refine ⟨_, List.mem_map.mpr ⟨x, hx, rfl⟩, ?_⟩
  rw [shrunk, if_pos ⟨hg, hc⟩]
  exact ⟨rfl, rfl, rfl, rfl⟩

section
variable {s : State} {job grp node jk : Nat} {j : Job} (hj : findJob s.pkg job = some (jk, j)) (hm : mfind s.pkg.jobs jk = some j)
include hj

theorem memberFailure_job : exec (.memberFailure job grp node) s = .next (memberFails s jk grp node) := by
  rw [exec_memberFailure, execMemberFailure, hj]

include hm

theorem memberFailure_stranger (h : node ∉ (groupOf j grp).members) : Idle (.memberFailure job grp node) s := by
  refine (memberFailure_job hj).trans ?_
  rw [memberFails, hm]
  dsimp only
  rw [if_neg (by simpa using h)]

theorem memberFailure_shrinks (h : node ∈ (groupOf j grp).members) :
    ∃ t u, exec (.memberFailure job grp node) s = .next t ∧ mfind t.pkg.jobs jk = some u ∧
      (groupOf u grp).members = (groupOf j grp).members.filter (fun m => decide (m ≠ node)) ∧
      (groupOf u grp).epoch = (groupOf j grp).epoch + 1 ∧
      ∀ x ∈ j.instances, x.group = grp → x.complete = false →
        ∃ y ∈ u.instances, y.group = grp ∧ y.isBar = x.isBar ∧ y.num = x.num ∧ y.status = 1 := by
  have hfails : memberFails s jk grp node = (j.instances.map (shrunk grp node)).foldl (regather jk grp) (setJob s jk { j with
      groups := mput j.groups grp (withoutMember (groupOf j grp) node), instances := j.instances.map (shrunk grp node) }) := by
    rw [memberFails, hm]
    exact if_pos (by simpa using h)
  have hshrunk : ShrunkJob jk (mput j.groups grp (withoutMember (groupOf j grp) node))
      (j.instances.filter (fun x => decide (x.group = grp) && !x.complete)) (memberFails s jk grp node) := by
    rw [hfails]
    refine List.foldlRecOn (motive := ShrunkJob jk _ _) (j.instances.map (shrunk grp node)) (regather jk grp) ?_ fun t ht i hi => ?_
    · refine ⟨_, mfind_mput_same .., rfl, fun x hx => ?_⟩
      obtain ⟨hmem, hopen⟩ := List.mem_filter.mp hx
      rw [Bool.and_eq_true, decide_eq_true_eq, Bool.not_eq_true'] at hopen
      exact hasShrunk_shrunk hmem hopen.1 hopen.2
    · obtain ⟨x, -, rfl⟩ := List.mem_map.mp hi
      exact shrunkJob_regather ht (status_shrunk x)
  obtain ⟨u, hu, hgroups, hxs⟩ := hshrunk
  have hgroup : groupOf u grp = withoutMember (groupOf j grp) node := by rw [groupOf, hgroups, mget_mput_same]
  refine ⟨_, u, memberFailure_job hj, hu, by rw [hgroup]; rfl, by rw [hgroup]; rfl, fun x hx hg hc => ?_⟩
  obtain ⟨y, hy, hygroup, hkey⟩ := hxs x (List.mem_filter.mpr ⟨hx, by simp [hg, hc]⟩)
  exact ⟨y, hy, hygroup.trans hg, hkey⟩
end

/-! ### A purge (R283) -/

/-- No thread that bears the tag is in the slot. -/
theorem purgeThread_unmarked (c : Nat) (tag : BitVec 16) (s : State) (k : Nat) :
    ¬((getSlot (purgeThread c tag s k) k).run ≠ .empty ∧ (getSlot (purgeThread c tag s k) k).thread.ctx = c ∧
      (getSlot (purgeThread c tag s k) k).thread.tag = tag) := by
  unfold purgeThread
  dsimp only
  split
  · exact fun h => h.1 (getSlot_endThread_run ..)
  · assumption

theorem Purges.unmarked {s t : State} (h : Purges s t) {c k : Nat} {tag : BitVec 16}
    (hs : ¬((getSlot s k).run ≠ .empty ∧ (getSlot s k).thread.ctx = c ∧ (getSlot s k).thread.tag = tag)) :
    ¬((getSlot t k).run ≠ .empty ∧ (getSlot t k).thread.ctx = c ∧ (getSlot t k).thread.tag = tag) := by
  rintro ⟨hrun, hmarked⟩
  obtain he | he := h.slot k
  · exact hrun he
  · rw [he] at hrun hmarked
    exact hs ⟨hrun, hmarked⟩

theorem purgeLocal_unmarked (s : State) (c : Nat) (tag : BitVec 16) (k : Nat) :
    ¬((getSlot (purgeLocal s c tag) k).run ≠ .empty ∧ (getSlot (purgeLocal s c tag) k).thread.ctx = c ∧
      (getSlot (purgeLocal s c tag) k).thread.tag = tag) := by
  have htail := purges_purgeLocal_tail s c tag
  by_cases hk : k = 0
  · subst hk
    exact ((purges_purgeThread c tag _ 1).trans htail).unmarked (purgeThread_unmarked _ _ _ _)
  · rw [getSlot_of_ne_zero _ hk]
    exact htail.unmarked (purgeThread_unmarked _ _ _ _)

theorem purgeLocal_drops {s : State} {c : Nat} {tag : BitVec 16} {q : QRec} (hq : q ∈ (purgeLocal s c tag).cluster.queue) :
    ¬(q.ctx = c ∧ q.tag = tag) := by
  have hmem := (((purges_purgeThread ..).trans (purges_purgeThread ..)).trans (purges_purgeLocal_tail s c tag)).queue q hq
  rw [(queue_purgeRecords s c tag).1, List.mem_filter] at hmem
  rintro ⟨hctx, htag⟩
  simp [hctx, htag] at hmem

theorem floodPurge_purges (s : State) (p : Packet) : (floodPurge s p).pkg.purges = s.pkg.purges ++ [(p.src, p.reqid)] := by
  unfold floodPurge
  dsimp only
  exact List.foldlRecOn (motive := fun t : State => t.pkg.purges = s.pkg.purges ++ [(p.src, p.reqid)]) _ _ rfl fun _ ht _ _ => ht

section
variable {s : State} {n : Nat} {p : Packet} (hp : InRouter s n 12 p)
include hp

theorem purge_met (h : s.pkg.purges.contains (p.src, p.reqid) = true) : exec (.purge n) s = .next (takeOut s n) := by
  rw [exec_purge, execPurge, packetAt_of_inRouter hp]
  exact if_pos h

theorem purge_new {jk c : Nat} {j : Job} (h : s.pkg.purges.contains (p.src, p.reqid) = false) (hj : findJob s.pkg p.job = some (jk, j))
    (hc : j.ctx = some c) : exec (.purge n) s = .next (floodPurge (purgeLocal (takeOut s n) c p.tag) p) := by
  rw [exec_purge, execPurge, packetAt_of_inRouter hp]
  refine (if_neg (Bool.eq_false_iff.mp h)).trans ?_
  rw [findJob_takeOut hj]
  dsimp only
  rw [hc]
end

/-- Settles O59: a contribution by the branches of `contributed`, a failure by what it keeps through the new gatherings (`ShrunkJob`), a
purge by what it ends here before it goes on. -/
theorem collectivesGatherCompleteAndShrink : Obligations.CollectivesGatherCompleteAndShrink := by
  unfold Obligations.CollectivesGatherCompleteAndShrink
  refine ⟨fun s n jk p j isBar typ i hi hp => ?_, fun s n jk p j isBar typ i x hi hp hj hx hc => ?_,
    fun s job grp node jk j hj hm => ⟨memberFailure_stranger hj hm, memberFailure_shrinks hj hm⟩,
    fun s n p hp => ⟨purge_met hp, fun jk c j h hj hc => ?_⟩⟩
  · rw [exec_contributed hi]
    refine ⟨fun hj => by rw [contributed_noJob hp hj], fun hj => ⟨fun hg => by rw [contributed_noMember hp hj hg],
      fun hv hm hl => by rw [contributed_lost hp hj hv hm hl], fun hv hm hl hg => by rw [contributed_sentOn hp hj hv hm hl hg],
      fun x y hv hm hl hg _ hx hc honly hy => ⟨fun hw => ?_, fun hall hopen => ?_⟩⟩⟩
    · rw [contributed_waits hp hj hv hm hl hg hx hc honly hy hw]
    · obtain ⟨u, hu, hmem⟩ := contributed_completes hp hj hv hm hl hg hx hc honly hy hall hopen
      exact ⟨_, u, rfl, hu, hmem⟩
  · obtain ⟨u, hu, hfound⟩ := resultHere_puts hp hj hx
    refine ⟨_, u, exec_resultHere hi, hu, hfound.trans ?_⟩
    rw [takeResult, hc]
    rfl
  · have hflood := (onlySends_floodPurge (purgeLocal (takeOut s n) c p.tag) p).purges
    refine ⟨_, purge_new hp h hj hc, fun q hq => purgeLocal_drops (hflood.queue q hq),
      fun k hrun hmarked => hflood.unmarked (purgeLocal_unmarked (takeOut s n) c p.tag k) ⟨hrun, hmarked⟩, ?_⟩
    rw [floodPurge_purges]
    exact List.mem_append_right _ (List.mem_singleton.mpr rfl)

end Sys2Proof.Machine
end
